-- ==== Sys2Proof/Word.lean ====
section
/-! DEFINITION. The word types of the model, and exact values. -/

namespace Sys2Proof

/-- One byte. -/
abbrev Byte := BitVec 8
/-- One 32-bit register word (R22). -/
abbrev Word := BitVec 32
/-- One 64-bit register pair or instruction word (R22, R240). -/
abbrev DWord := BitVec 64

/-- An exact value: not a number, an infinity, or a sign with a quotient of naturals. -/
inductive Machine.FVal where
  | nan
  | inf (neg : Bool)
  | fin (neg : Bool) (num den : Nat)
  deriving DecidableEq, Repr

/-- A route entry of a mesh router or of the Prompt net (R369), its partition and module as they are numbered here. -/
structure Machine.Route where
  router : Nat
  part : Nat
  vc : Nat
  prompt : Bool
  destModule : Nat
  destLo : Nat
  destHi : Nat
  port : Nat
  alt : Nat
  index : Nat
  deriving DecidableEq, Repr

/-- What a data message says on an Oluod link, of which the spec gives no layout: kind 0 PUT, 1 GET, 2 completion. -/
structure Machine.WireMsg where
  kind : Nat
  orgModule : Nat
  orgCore : Nat
  orgPart : Nat
  tag : Nat
  dstModule : Nat
  dstCore : Nat
  space : Nat
  off : Nat
  len : Nat
  win : Nat
  gen : Nat
  status : Nat
  data : List Byte
  bad : List Bool
  deriving DecidableEq, Repr

/-- A request to the SPDM responder (R614): the message, and what the responder finds in it: whether an offer of algorithms
holds those of R614, the slot, offset and length, index, nonce, and whether a session message verifies. -/
inductive Machine.SpdmReq where
  | getVersion (msg : List Byte)
  | getCapabilities (msg : List Byte)
  | negotiateAlgorithms (msg : List Byte) (common : Bool)
  | getDigests (msg : List Byte)
  | getCertificate (msg : List Byte) (slot offset length : Nat)
  | challenge (msg : List Byte) (slot : Nat) (nonce : List Byte)
  | getMeasurements (msg : List Byte) (index : Nat) (nonce : List Byte)
  | keyExchange (msg : List Byte) (slot : Nat)
  | finish (msg : List Byte) (good : Bool)
  | keyUpdate (msg : List Byte)
  | endSession (msg : List Byte)
  deriving DecidableEq, Repr

/-- What the SPDM responder answers (R612 to R615): an error, or what the request asks for. -/
inductive Machine.SpdmResp where
  | error (code : Nat)
  | version
  | capabilities
  | algorithms
  | digests (chain : List Byte)
  | certificate (part : List Byte) (remainder : Nat)
  | challengeAuth (chain : List Byte) (blocks : List (Nat × List Byte)) (nonce : List Byte)
  | measurements (blocks : List (Nat × List Byte)) (nonce : List Byte)
  | keyExchange (session : Nat)
  | finished
  | keyUpdated
  | sessionEnded
  deriving DecidableEq, Repr

end Sys2Proof
end

