-- ==== Sys2Proof/Config.lean ====
section
/-! DEFINITION. What an implementation fixes, and the free values: constants with no body, of which nothing can be
proved. A free value that the spec leaves open afresh each time is applied to the state's counter of draws. -/

namespace Sys2Proof.Config

/-! ## Number formats -/

/-- The 16-bit draw of a core's rounding generator (R43, R44): draw `n` of the run, for element `i` of the operation. -/
opaque roundDraw : Nat → Nat → BitVec 16

/-- The order in which draw `n` adds the terms of an FP32 reduction whose order the spec does not fix: term `i` is
added in the order of its key. -/
opaque sumKey : Nat → Nat → Nat

/-- Where in its 2-unit band (R215) the result of a transcendental function falls, for draw `n` and element `i`. -/
opaque ulpDraw : Nat → Nat → BitVec 8

/-- The cosine and the sine, in FP32, that the rotary table gives pair `pair` at position `pos` (R214, R256): the spec
gives the table no format, so the angle is a free function of the table's bytes, each with whether it is poisoned, the
position and the pair. -/
opaque ropeCos : List (Byte × Bool) → Nat → Nat → Word
opaque ropeSin : List (Byte × Bool) → Nat → Nat → Word

/-- The bytes of the rotary table that one pair takes, of which the spec states nothing. -/
opaque ropeEntryBytes : Nat

/-- Which of the passes in flight of a core's partition a sample of its norm monitor belongs to, for draw `n`: the spec
gives a vector operation no context (R81, R85; DESIGN CHOICE, log entry 67). -/
opaque monitorPass : Nat → Nat

/-! ## Cores -/

/-- Whether a sleep entry that draw `n` finds in the 250 ns of a wake of its core reaches the control port in the wake's
cycle (R35). -/
opaque sameCycle : Nat → Bool

/-- Whether part `i` of a cue to another module met a core there in Retain, Dark or another partition (R264), for draw `n`. -/
opaque cueLost : Nat → Nat → Bool

/-! ## The cellar's analogue measurements -/

/-- κ of rack `r` in draw `n` (R97), common to all columns and rows of the rack, in 1/7,200 of the unit of the reference
spans, so that κ × 7,200 is the reference span of R98 in that unit. -/
opaque kappa : Nat → Nat → BitVec 16
/-- What the delay of draw `n` at place `i` (rack, lane, segment and column, or row and segment) has beyond d₀ + κ × S, and a
reference span at place `i` (rack, lane and segment) beyond κ × 7,200, in the unit of `kappa`: the rules hold to first order,
and the spec bounds the remainder by R93 only (R97, R98, R101; DESIGN CHOICE, log entry 23). -/
opaque remainder : Nat → Nat → Int
opaque refRemainder : Nat → Nat → Int
/-- How far draw `n` reads cell `i` from the level it was programmed to, in 1/256 level (R128). -/
opaque cellDrift : Nat → Nat → Int
/-- Whether the array of bin `g` is fresh in draw `n` (R93): the spec does not say when an array counts as aged. -/
opaque freshArray : Nat → Nat → Bool
/-- The squared error that column `i` of a bin, which delivers NaN, counts in a test pattern of draw `n` (R123, R130): the
spec does not say (DESIGN CHOICE, log entry 70). -/
opaque lostError : Nat → Nat → Nat
/-- The code word that a capture of draw `n` shows for segment `i` of a lane whose input was poisoned (R195, R651). -/
opaque poisonedCode : Nat → Nat → BitVec 16
/-- Whether the cells of rack `r` that a refresh of draw `n` programs fail verification, so that the rack is erased and
programmed once more (R138, R166). -/
opaque rackErased : Nat → Nat → Bool
/-- Whether draw `n` finds a program evaluation of bin `g`, in the 250 ns of a quiet-slot pattern of the bin, waiting for that
pattern (R131). -/
opaque quietWait : Nat → Nat → Bool

/-! ## The fabric -/

/-- The bytes that a data message takes in the payload of DATA flits, and the message that bytes spell (R430, R431): the
spec gives no layout. -/
opaque wireBytes : Machine.WireMsg → List Byte
opaque wireMsg : List Byte → Option Machine.WireMsg
/-- The number of the tap at which a message from router `router` to core `dest` leaves lane `lane`: R408 names no tap
(DESIGN CHOICE, entry 66). -/
opaque expressExit : Nat → Nat → Nat → Nat
/-- The width at which port `n`'s link locks at training `d`: 0 none, 1 8 wavelengths, 2 12, 3 16 (R429). -/
opaque lockedWidth : Nat → Nat → BitVec 2
/-- The symbols that the FEC of port `n` corrected in flit `d`, and the codewords that it could not correct (R452). -/
opaque fecSymbols : Nat → Nat → BitVec 16
opaque fecWords : Nat → Nat → BitVec 16
/-- The channel 1 entries that the firmware gives the routers at rewriting `n` (R415). -/
opaque rewrittenRoutes : Nat → List Machine.Route

/-! ## Faults -/

/-- Whether beat `d` tells a member that the flow of another is restored (R522, R523; DESIGN CHOICE, entry 81). -/
opaque flowOver : Nat → Bool

/-- The core that a stall names where no heartbeat of its partition showed WAIT (R573). -/
opaque stalled : Nat → Nat
/-- Byte `i` of an entry that a restoration of draw `n` computes afresh (R582). -/
opaque recomputed : Nat → Nat → Byte
/-- Byte `i` of what a dump of draw `n` says of the Prompt-net routers (R591): the spec lays out no queue of theirs. -/
opaque routerState : Nat → Nat → Byte

/-! ## Firmware and attestation -/

/-- The copies A and B of the firmware as manufactured (R601), and what a copy holds after write `d` of it failed. -/
opaque factoryFirmware : Nat → List Byte
opaque brokenFirmware : Nat → List Byte
/-- Whether a reset catches the update under way as it writes (R605, R620). -/
opaque caughtWriting : Nat → Bool
/-- Whether an ML-DSA-65 signature verifies: public key, message, signature (R602). -/
opaque signatureGood : List Byte → List Byte → List Byte → Bool
/-- The 32-byte digest fused in key slot `k`, and the mask ROM's digest (R602, R608). -/
opaque keyDigest : Nat → List Byte
opaque romDigest : List Byte
/-- The certificate chain of slot 0, its SHA3-384 digest, and signature `d` under the identity key (R611 to R614). -/
opaque certChain : List Byte
opaque chainDigest : List Byte
opaque signature : Nat → List Byte → List Byte
/-- A response as the bytes of its message, of which the spec gives no layout; and the number of session `d` (R614). -/
opaque spdmBytes : Machine.SpdmResp → List Byte
opaque sessionId : Nat → Nat

/-! ## The host interface -/

/-- Byte `i` of what a read of an address that no decoder claims returns, for draw `d` (R557). -/
opaque undecoded : Nat → Nat → Byte

/-! ## Fused at manufacture -/

/-- Fault-map marks fused at manufacture (R417): word `k` of each map. -/
opaque fusedCore : Nat → Word
opaque fusedEast : Nat → Word
opaque fusedSouth : Nat → Word
opaque fusedExpress : Byte
/-- Engines marked bad at manufacture: the mask of core `c`. -/
opaque fusedEngines : Nat → BitVec 24
/-- ID.SERIAL (R622). -/
opaque serial : DWord
/-- THM.REGION PHI of region `r` (R532). -/
opaque phi : Nat → Byte
/-- SEC.SVN_FUSED before any commit: the minimum SVN and the revoked key slots (R606). -/
opaque fusedSvn : BitVec 16
opaque fusedRevoked : BitVec 4
/-- Word `k` of SEC.ID_DIGEST (R624). -/
opaque idDigest : Nat → Word
/-- The coefficients c1 and c2 of TEMP_TRIM of cellar die `d` (R125), in units of 2^-40. -/
opaque trimC1 : Nat → Int
opaque trimC2 : Nat → Int

/-- The holders of partition `p` on module `m`, which only that module's image names (R284, R287). -/
opaque holdersOn : Nat → Nat → List Byte
/-- The understudy's tokens at node `i` of a tree that is admitted at draw `d`, the most probable first (R324). -/
opaque draftRank : Nat → Nat → List Word

/-- What a read of a CXL component register returns; the spec leaves those registers to CXL 3.1 (R539). -/
opaque componentReg : Nat → Nat → DWord

end Sys2Proof.Config
end

