-- ==== Sys2Proof/Machine/RegMap.lean ====
section
/-! DEFINITION. The register map: every register of the spec's register tables, by its offset in the register BAR
(R539, R223, R500), with its fields' bits, access code (R15), class (R17) and reset value (R24). -/

namespace Sys2Proof.Machine

/-- The access codes of R15. -/
inductive Access where
  | ro | rw | wo | w1c
  deriving DecidableEq, Repr

/-- The configuration classes of R17; `none` for a field that has no class. -/
inductive FieldClass where
  | none | live | staged | quiesced
  deriving DecidableEq, Repr

/-- The register blocks of R223, R500 and R539. -/
inductive Block where
  | core | seq | wds | eng | vec | rnd | nrm | rack | rif
  | stg | arb | cnv | thr
  | id | hif | srv | pwr | thm | sec | dump | fab | lnk | cel | blk
  deriving DecidableEq, Repr

/-- The bits of one field: least significant bit and width. -/
structure Fld where
  lsb : Nat
  width : Nat
  deriving DecidableEq, Repr

/-- One row of a register table. -/
structure FieldDesc where
  lsb : Nat
  width : Nat
  access : Access
  cls : FieldClass
  reserved : Bool
  reset : Nat
  deriving DecidableEq, Repr

/-- One register of a block: its offset in the block, up to two array dimensions (count and stride; 1 and 0 when it
has none), whether it is 64 bits wide, and its fields. -/
structure RegDesc where
  base : Nat
  n1 : Nat
  s1 : Nat
  n2 : Nat
  s2 : Nat
  wide : Bool
  fields : List FieldDesc
  deriving DecidableEq, Repr

/-- A core window, at 0x0400_0000 + core × 0x0004_0000 (R223). -/
def coreWin (c : Nat) : Nat := 0x04000000 + c * 0x40000
/-- A region window, at 0x0100_0000 + r × 0x0010_0000 (R500). -/
def regionWin (r : Nat) : Nat := 0x01000000 + r * 0x100000

/-! ## Offsets in the register BAR -/

namespace Reg

/-- RND.CTL (R68). -/
def RND_CTL (c : Nat) : Nat := coreWin c + 0x38000
/-- RND.STATUS (R69). -/
def RND_STATUS (c : Nat) : Nat := coreWin c + 0x38004
/-- RND.SAT_COUNT (R70). -/
def RND_SAT_COUNT (c : Nat) : Nat := coreWin c + 0x38008
/-- RND.SAT_COUNT_CLEAR (R71). -/
def RND_SAT_COUNT_CLEAR (c : Nat) : Nat := coreWin c + 0x3800C
/-- NRM.CTL (R88). -/
def NRM_CTL (c : Nat) : Nat := coreWin c + 0x39000
/-- NRM.WARMUP (R89). -/
def NRM_WARMUP (c : Nat) : Nat := coreWin c + 0x39004
/-- NRM.FLOOR (R89). -/
def NRM_FLOOR (c : Nat) : Nat := coreWin c + 0x39008
/-- NRM.COMMIT (R89). -/
def NRM_COMMIT (c : Nat) : Nat := coreWin c + 0x3900C
/-- NRM.PT_CFG_n (R90). -/
def NRM_PT_CFG (c n : Nat) : Nat := coreWin c + 0x39020 + 0x4 * n
/-- NRM.PT_MS_n (R91). -/
def NRM_PT_MS (c n : Nat) : Nat := coreWin c + 0x39040 + 0x4 * n
/-- NRM.PT_COUNT_n (R91). -/
def NRM_PT_COUNT (c n : Nat) : Nat := coreWin c + 0x39060 + 0x4 * n
/-- NRM.EVENT (R91). -/
def NRM_EVENT (c : Nat) : Nat := coreWin c + 0x39080
/-- RACK.STAT (R141). -/
def RACK_STAT (c : Nat) : Nat := coreWin c + 0x3A000
/-- RACK.SAT_TOTAL (R141). -/
def RACK_SAT_TOTAL (c : Nat) : Nat := coreWin c + 0x3A004
/-- RACK.EVAL_COUNT (R141). -/
def RACK_EVAL_COUNT (c : Nat) : Nat := coreWin c + 0x3A008
/-- RACK.SKIP_COUNT (R141). -/
def RACK_SKIP_COUNT (c : Nat) : Nat := coreWin c + 0x3A010
/-- RACK.QUIET_DELAY (R141). -/
def RACK_QUIET_DELAY (c : Nat) : Nat := coreWin c + 0x3A018
/-- RACK.REC_SEL (R141). -/
def RACK_REC_SEL (c : Nat) : Nat := coreWin c + 0x3A020
/-- RACK.REC_DATA_0 (R141). -/
def RACK_REC_DATA_0 (c : Nat) : Nat := coreWin c + 0x3A024
/-- RACK.REC_DATA_1 (R141). -/
def RACK_REC_DATA_1 (c k : Nat) : Nat := coreWin c + 0x3A028 + 0x4 * k
/-- RACK.CAPTURE_CTL (R141). -/
def RACK_CAPTURE_CTL (c : Nat) : Nat := coreWin c + 0x3A040
/-- RACK.CAPTURE_DATA_n (R141). -/
def RACK_CAPTURE_DATA (c n : Nat) : Nat := coreWin c + 0x3A050 + 0x4 * n
/-- CEL.CHK_CTL_p (R144). -/
def CEL_CHK_CTL (p : Nat) : Nat := 0xA1000 + 0x20 * p
/-- CEL.CHK_LIMITS_p (R144). -/
def CEL_CHK_LIMITS (p : Nat) : Nat := 0xA1004 + 0x20 * p
/-- CEL.CHK_WINDOW_p (R144). -/
def CEL_CHK_WINDOW (p : Nat) : Nat := 0xA1008 + 0x20 * p
/-- CEL.CHK_COMMIT_p (R144). -/
def CEL_CHK_COMMIT (p : Nat) : Nat := 0xA100C + 0x20 * p
/-- CEL.CHK_COMMIT_STATUS_p (R144). -/
def CEL_CHK_COMMIT_STATUS (p : Nat) : Nat := 0xA1010 + 0x20 * p
/-- CEL.CHK_OVERDUE_p (R144). -/
def CEL_CHK_OVERDUE (p : Nat) : Nat := 0xA1014 + 0x20 * p
/-- CEL.DRIFT_HEAD (R145). -/
def CEL_DRIFT_HEAD : Nat := 0xA1400
/-- CEL.DRIFT_LOST (R145). -/
def CEL_DRIFT_LOST : Nat := 0xA1404
/-- CEL.DRIFT_SEL (R145). -/
def CEL_DRIFT_SEL : Nat := 0xA1408
/-- CEL.DRIFT_REC_0 (R145). -/
def CEL_DRIFT_REC_0 : Nat := 0xA1410
/-- CEL.DRIFT_REC_1 (R145). -/
def CEL_DRIFT_REC_1 (k : Nat) : Nat := 0xA1414 + 0x4 * k
/-- CEL.REFRESH_CTL (R148). -/
def CEL_REFRESH_CTL : Nat := 0xA1500
/-- CEL.REFRESH_GO (R148). -/
def CEL_REFRESH_GO : Nat := 0xA1504
/-- CEL.REFRESH_STAT (R148). -/
def CEL_REFRESH_STAT : Nat := 0xA1508
/-- CEL.REFRESH_COUNT (R148). -/
def CEL_REFRESH_COUNT : Nat := 0xA150C
/-- CEL.INST_DESC (R176). -/
def CEL_INST_DESC : Nat := 0xA0000
/-- CEL.INST_CTL (R176). -/
def CEL_INST_CTL : Nat := 0xA0008
/-- CEL.INST_STAT (R176). -/
def CEL_INST_STAT : Nat := 0xA000C
/-- CEL.INST_ENTRY (R176). -/
def CEL_INST_ENTRY : Nat := 0xA0010
/-- CEL.INST_FIRST_DONE (R176). -/
def CEL_INST_FIRST_DONE : Nat := 0xA0014
/-- CEL.INST_FINISHED (R176). -/
def CEL_INST_FINISHED : Nat := 0xA0018
/-- CEL.INST_MARGINAL (R176). -/
def CEL_INST_MARGINAL : Nat := 0xA001C
/-- CEL.INST_FAILED (R176). -/
def CEL_INST_FAILED : Nat := 0xA0020
/-- CEL.INST_CLIPPED (R176). -/
def CEL_INST_CLIPPED : Nat := 0xA0024
/-- CEL.INST_RETRIES (R176). -/
def CEL_INST_RETRIES : Nat := 0xA0028
/-- CEL.WEAR_SEL (R176). -/
def CEL_WEAR_SEL : Nat := 0xA0040
/-- CEL.WEAR_DATA (R176). -/
def CEL_WEAR_DATA : Nat := 0xA0044
/-- CEL.WEAR_MAX (R176). -/
def CEL_WEAR_MAX : Nat := 0xA0048
/-- CEL.WEAR_WARN (R176). -/
def CEL_WEAR_WARN : Nat := 0xA004C
/-- CORE.ID (R225). -/
def CORE_ID (c : Nat) : Nat := coreWin c + 0x0
/-- CORE.STAT (R225). -/
def CORE_STAT (c : Nat) : Nat := coreWin c + 0x4
/-- CORE.ECC_COUNT (R225). -/
def CORE_ECC_COUNT (c : Nat) : Nat := coreWin c + 0x8
/-- CORE.NET_LIMIT (R225). -/
def CORE_NET_LIMIT (c : Nat) : Nat := coreWin c + 0xC
/-- CORE.WAIT_LIMIT (R225). -/
def CORE_WAIT_LIMIT (c : Nat) : Nat := coreWin c + 0x10
/-- CORE.SCRUB (R225). -/
def CORE_SCRUB (c : Nat) : Nat := coreWin c + 0x14
/-- CORE.RX_COUNT (R225). -/
def CORE_RX_COUNT (c : Nat) : Nat := coreWin c + 0x18
/-- CORE.TX_COUNT (R225). -/
def CORE_TX_COUNT (c : Nat) : Nat := coreWin c + 0x20
/-- WDS.WIN_BASE_n (R226). -/
def WDS_WIN_BASE (c n : Nat) : Nat := coreWin c + 0x10000 + 0x20 * n
/-- WDS.WIN_LEN_n (R226). -/
def WDS_WIN_LEN (c n : Nat) : Nat := coreWin c + 0x10004 + 0x20 * n
/-- WDS.WIN_CTL_n (R226). -/
def WDS_WIN_CTL (c n : Nat) : Nat := coreWin c + 0x10008 + 0x20 * n
/-- WDS.WIN_COUNT_n (R226). -/
def WDS_WIN_COUNT (c n : Nat) : Nat := coreWin c + 0x1000C + 0x20 * n
/-- WDS.WIN_TARGET_n (R226). -/
def WDS_WIN_TARGET (c n : Nat) : Nat := coreWin c + 0x10010 + 0x20 * n
/-- WDS.WIN_LATE_COUNT_n (R226). -/
def WDS_WIN_LATE_COUNT (c n : Nat) : Nat := coreWin c + 0x10014 + 0x20 * n
/-- WDS.WIN_COMMIT_n (R226). -/
def WDS_WIN_COMMIT (c n : Nat) : Nat := coreWin c + 0x10018 + 0x20 * n
/-- WDS.WIN_COMMIT_STATUS_n (R226). -/
def WDS_WIN_COMMIT_STATUS (c n : Nat) : Nat := coreWin c + 0x1001C + 0x20 * n
/-- ENG.AVAIL (R227). -/
def ENG_AVAIL (c : Nat) : Nat := coreWin c + 0x20000
/-- ENG.BUSY (R227). -/
def ENG_BUSY (c : Nat) : Nat := coreWin c + 0x20004
/-- ENG.QUAD (R227). -/
def ENG_QUAD (c : Nat) : Nat := coreWin c + 0x20008
/-- ENG.ACTIVE_n (R227). -/
def ENG_ACTIVE (c n : Nat) : Nat := coreWin c + 0x20100 + 0x20 * n
/-- ENG.ROW_STALL_n (R227). -/
def ENG_ROW_STALL (c n : Nat) : Nat := coreWin c + 0x20108 + 0x20 * n
/-- ENG.COL_STALL_n (R227). -/
def ENG_COL_STALL (c n : Nat) : Nat := coreWin c + 0x2010C + 0x20 * n
/-- ENG.TILES_n (R227). -/
def ENG_TILES (c n : Nat) : Nat := coreWin c + 0x20110 + 0x20 * n
/-- VEC.STAT (R228). -/
def VEC_STAT (c : Nat) : Nat := coreWin c + 0x30000
/-- VEC.OPS (R228). -/
def VEC_OPS (c : Nat) : Nat := coreWin c + 0x30008
/-- VEC.ELEMS (R228). -/
def VEC_ELEMS (c : Nat) : Nat := coreWin c + 0x30010
/-- RIF.OWNER (R229). -/
def RIF_OWNER (c : Nat) : Nat := coreWin c + 0x3B000
/-- RIF.BORROW (R229). -/
def RIF_BORROW (c : Nat) : Nat := coreWin c + 0x3B004
/-- RIF.QUEUE (R229). -/
def RIF_QUEUE (c : Nat) : Nat := coreWin c + 0x3B008
/-- RIF.STAT (R229). -/
def RIF_STAT (c : Nat) : Nat := coreWin c + 0x3B00C
/-- SEQ.CTL (R272). -/
def SEQ_CTL (c : Nat) : Nat := coreWin c + 0x1000
/-- SEQ.STAT (R272). -/
def SEQ_STAT (c : Nat) : Nat := coreWin c + 0x1004
/-- SEQ.PC (R272). -/
def SEQ_PC (c : Nat) : Nat := coreWin c + 0x1008
/-- SEQ.START_PC (R272). -/
def SEQ_START_PC (c : Nat) : Nat := coreWin c + 0x100C
/-- SEQ.HANDLER (R272). -/
def SEQ_HANDLER (c : Nat) : Nat := coreWin c + 0x1010
/-- SEQ.CODE_LIM (R272). -/
def SEQ_CODE_LIM (c : Nat) : Nat := coreWin c + 0x1014
/-- SEQ.EXC (R272). -/
def SEQ_EXC (c : Nat) : Nat := coreWin c + 0x1018
/-- SEQ.EPC (R272). -/
def SEQ_EPC (c : Nat) : Nat := coreWin c + 0x101C
/-- SEQ.ISSUED (R272). -/
def SEQ_ISSUED (c : Nat) : Nat := coreWin c + 0x1020
/-- SEQ.TOKEN_n (R272). -/
def SEQ_TOKEN (c n : Nat) : Nat := coreWin c + 0x1040 + 0x4 * n
/-- SEQ.CODE_ADDR (R272). -/
def SEQ_CODE_ADDR (c : Nat) : Nat := coreWin c + 0x1080
/-- SEQ.CODE_DATA (R272). -/
def SEQ_CODE_DATA (c : Nat) : Nat := coreWin c + 0x1088
/-- SEQ.G_n (R272). -/
def SEQ_G (c n : Nat) : Nat := coreWin c + 0x1100 + 0x8 * n
/-- SEQ.A_n (R272). -/
def SEQ_A (c n : Nat) : Nat := coreWin c + 0x1200 + 0x4 * n
/-- SEQ.SIG_n (R272). -/
def SEQ_SIG (c n : Nat) : Nat := coreWin c + 0x1300 + 0x4 * n
/-- SRV.KV_CTL_p (R305). -/
def SRV_KV_CTL (p : Nat) : Nat := 0x28000 + 0x40 * p
/-- SRV.KV_SHARE_p (R305). -/
def SRV_KV_SHARE (p : Nat) : Nat := 0x28004 + 0x40 * p
/-- SRV.KV_BUCKET_p_0 (R305). -/
def SRV_KV_BUCKET_0 (p : Nat) : Nat := 0x28008 + 0x40 * p
/-- SRV.KV_BUCKET_p_1 (R305). -/
def SRV_KV_BUCKET_1 (p : Nat) : Nat := 0x2800C + 0x40 * p
/-- SRV.KV_BUCKET_p_2 (R305). -/
def SRV_KV_BUCKET_2 (p : Nat) : Nat := 0x28010 + 0x40 * p
/-- SRV.KV_BUCKET_p_3 (R305). -/
def SRV_KV_BUCKET_3 (p : Nat) : Nat := 0x28014 + 0x40 * p
/-- SRV.KV_COMMIT_p (R305). -/
def SRV_KV_COMMIT (p : Nat) : Nat := 0x28018 + 0x40 * p
/-- SRV.KV_COMMIT_STATUS_p (R305). -/
def SRV_KV_COMMIT_STATUS (p : Nat) : Nat := 0x2801C + 0x40 * p
/-- SRV.KV_STAT_p (R305). -/
def SRV_KV_STAT (p : Nat) : Nat := 0x28020 + 0x40 * p
/-- SRV.KV_REFUSED_p (R305). -/
def SRV_KV_REFUSED (p : Nat) : Nat := 0x28024 + 0x40 * p
/-- SRV.KV_RECALL_HITS_p (R305). -/
def SRV_KV_RECALL_HITS (p : Nat) : Nat := 0x28028 + 0x40 * p
/-- SRV.KV_RECALL_MISSES_p (R305). -/
def SRV_KV_RECALL_MISSES (p : Nat) : Nat := 0x2802C + 0x40 * p
/-- SRV.KV_LOFT_RD_p (R305). -/
def SRV_KV_LOFT_RD (p : Nat) : Nat := 0x28030 + 0x40 * p
/-- SRV.KV_LOFT_WR_p (R305). -/
def SRV_KV_LOFT_WR (p : Nat) : Nat := 0x28038 + 0x40 * p
/-- SRV.STAT (R352). -/
def SRV_STAT : Nat := 0x20000
/-- SRV.COST (R352). -/
def SRV_COST : Nat := 0x20004
/-- SRV.CTX_SEL (R352). -/
def SRV_CTX_SEL : Nat := 0x20008
/-- SRV.CTX_DATA_0 (R352). -/
def SRV_CTX_DATA_0 : Nat := 0x2000C
/-- SRV.CTX_DATA_1 (R352). -/
def SRV_CTX_DATA_1 : Nat := 0x20010
/-- SRV.CTX_DATA_2 (R352). -/
def SRV_CTX_DATA_2 : Nat := 0x20014
/-- SRV.CTX_DATA_3 (R352). -/
def SRV_CTX_DATA_3 : Nat := 0x20018
/-- SRV.CLS_TTFT_c (R353). -/
def SRV_CLS_TTFT (i : Nat) : Nat := 0x20200 + 0x20 * i
/-- SRV.CLS_TBT_c (R353). -/
def SRV_CLS_TBT (i : Nat) : Nat := 0x20204 + 0x20 * i
/-- SRV.CLS_CTL_c (R353). -/
def SRV_CLS_CTL (i : Nat) : Nat := 0x20208 + 0x20 * i
/-- SRV.CLS_REQS_c (R353). -/
def SRV_CLS_REQS (i : Nat) : Nat := 0x2020C + 0x20 * i
/-- SRV.CLS_TTFT_VIOL_c (R353). -/
def SRV_CLS_TTFT_VIOL (i : Nat) : Nat := 0x20210 + 0x20 * i
/-- SRV.CLS_TBT_VIOL_c (R353). -/
def SRV_CLS_TBT_VIOL (i : Nat) : Nat := 0x20214 + 0x20 * i
/-- SRV.CLS_HELD_c (R353). -/
def SRV_CLS_HELD (i : Nat) : Nat := 0x20218 + 0x20 * i
/-- SRV.TREE_CTL_p (R354). -/
def SRV_TREE_CTL (p : Nat) : Nat := 0x20400 + 0x20 * p
/-- SRV.TREE_PAR_p_k (R354). -/
def SRV_TREE_PAR (p k : Nat) : Nat := 0x20404 + 0x20 * p + 0x4 * k
/-- SRV.TREE_COMMIT_p (R354). -/
def SRV_TREE_COMMIT (p : Nat) : Nat := 0x20414 + 0x20 * p
/-- SRV.TREE_COMMIT_STATUS_p (R354). -/
def SRV_TREE_COMMIT_STATUS (p : Nat) : Nat := 0x20418 + 0x20 * p
/-- SRV.TEN_BALANCE_t (R355). -/
def SRV_TEN_BALANCE (i : Nat) : Nat := 0x24000 + 0x10 * i
/-- SRV.TEN_REFILL_t (R355). -/
def SRV_TEN_REFILL (i : Nat) : Nat := 0x24004 + 0x10 * i
/-- SRV.TEN_CTL_t (R355). -/
def SRV_TEN_CTL (i : Nat) : Nat := 0x24008 + 0x10 * i
/-- SRV.TEN_STAT_t (R355). -/
def SRV_TEN_STAT (i : Nat) : Nat := 0x2400C + 0x10 * i
/-- BLK.REBIND_MASK_k (R356). -/
def BLK_REBIND_MASK (k : Nat) : Nat := 0xB0800 + 0x4 * k
/-- BLK.REBIND_CTL (R356). -/
def BLK_REBIND_CTL : Nat := 0xB0820
/-- BLK.REBIND_STAT (R356). -/
def BLK_REBIND_STAT : Nat := 0xB0824
/-- BLK.LOAD_ADDR (R401). -/
def BLK_LOAD_ADDR : Nat := 0xB0000
/-- BLK.LOAD_LEN (R401). -/
def BLK_LOAD_LEN : Nat := 0xB0008
/-- BLK.LOAD_CTL (R401). -/
def BLK_LOAD_CTL : Nat := 0xB000C
/-- BLK.BIND_ADDR (R401). -/
def BLK_BIND_ADDR : Nat := 0xB0010
/-- BLK.LOAD_STAT (R401). -/
def BLK_LOAD_STAT : Nat := 0xB0018
/-- BLK.LOAD_WHERE (R401). -/
def BLK_LOAD_WHERE : Nat := 0xB001C
/-- BLK.LOAD_OFFLINE (R401). -/
def BLK_LOAD_OFFLINE : Nat := 0xB0020
/-- BLK.SLOT_STAT_s (R403). -/
def BLK_SLOT_STAT (s : Nat) : Nat := 0xB0040 + 0x4 * s
/-- BLK.MEAS_s_k (R403). -/
def BLK_MEAS (s k : Nat) : Nat := 0xB0400 + 0x40 * s + 0x4 * k
/-- BLK.PART_STAT_p (R404). -/
def BLK_PART_STAT (p : Nat) : Nat := 0xB0100 + 0x10 * p
/-- BLK.PART_CORES_p (R404). -/
def BLK_PART_CORES (p : Nat) : Nat := 0xB0104 + 0x10 * p
/-- BLK.PART_MODEL_p (R404). -/
def BLK_PART_MODEL (p : Nat) : Nat := 0xB0108 + 0x10 * p
/-- FAB.STAT (R449). -/
def FAB_STAT : Nat := 0x80000
/-- FAB.FMAP_CORE_k (R449). -/
def FAB_FMAP_CORE (k : Nat) : Nat := 0x80100 + 0x4 * k
/-- FAB.FMAP_EAST_k (R449). -/
def FAB_FMAP_EAST (k : Nat) : Nat := 0x80120 + 0x4 * k
/-- FAB.FMAP_SOUTH_k (R449). -/
def FAB_FMAP_SOUTH (k : Nat) : Nat := 0x80140 + 0x4 * k
/-- FAB.FMAP_EXPRESS (R449). -/
def FAB_FMAP_EXPRESS : Nat := 0x80160
/-- FAB.FMAP_CTL (R449). -/
def FAB_FMAP_CTL : Nat := 0x80170
/-- FAB.FMAP_SEQ (R449). -/
def FAB_FMAP_SEQ : Nat := 0x80174
/-- FAB.DETOURS (R449). -/
def FAB_DETOURS : Nat := 0x80180
/-- FAB.UNREACH (R449). -/
def FAB_UNREACH : Nat := 0x80184
/-- FAB.PN_MSGS (R449). -/
def FAB_PN_MSGS : Nat := 0x80188
/-- FAB.PN_DROPPED (R449). -/
def FAB_PN_DROPPED : Nat := 0x80190
/-- FAB.MGMT_CRC (R449). -/
def FAB_MGMT_CRC : Nat := 0x80194
/-- FAB.MGMT_RETRY (R449). -/
def FAB_MGMT_RETRY : Nat := 0x80198
/-- FAB.SAFE (R449). -/
def FAB_SAFE : Nat := 0x8019C
/-- LNK.MODULE (R451). -/
def LNK_MODULE : Nat := 0x90000
/-- LNK.SYSTEM_ID (R451). -/
def LNK_SYSTEM_ID : Nat := 0x90008
/-- LNK.SPLIT_CTL (R451). -/
def LNK_SPLIT_CTL : Nat := 0x90010
/-- LNK.SPLIT_GO (R451). -/
def LNK_SPLIT_GO : Nat := 0x90014
/-- LNK.SPLIT_STAT (R451). -/
def LNK_SPLIT_STAT : Nat := 0x90018
/-- LNK.REACH (R451). -/
def LNK_REACH : Nat := 0x90020
/-- LNK.FREEZES (R451). -/
def LNK_FREEZES : Nat := 0x90028
/-- LNK.PORT_CTL_n (R452). -/
def LNK_PORT_CTL (n : Nat) : Nat := 0x91000 + 0x40 * n
/-- LNK.PORT_STAT_n (R452). -/
def LNK_PORT_STAT (n : Nat) : Nat := 0x91004 + 0x40 * n
/-- LNK.PEER_n (R452). -/
def LNK_PEER (n : Nat) : Nat := 0x91008 + 0x40 * n
/-- LNK.FEC_CE_n (R452). -/
def LNK_FEC_CE (n : Nat) : Nat := 0x91010 + 0x40 * n
/-- LNK.FEC_UE_n (R452). -/
def LNK_FEC_UE (n : Nat) : Nat := 0x91018 + 0x40 * n
/-- LNK.CRC_ERR_n (R452). -/
def LNK_CRC_ERR (n : Nat) : Nat := 0x9101C + 0x40 * n
/-- LNK.REPLAYS_n (R452). -/
def LNK_REPLAYS (n : Nat) : Nat := 0x91020 + 0x40 * n
/-- LNK.DOWNS_n (R452). -/
def LNK_DOWNS (n : Nat) : Nat := 0x91024 + 0x40 * n
/-- LNK.TX_FLITS_n (R452). -/
def LNK_TX_FLITS (n : Nat) : Nat := 0x91028 + 0x40 * n
/-- LNK.RX_FLITS_n (R452). -/
def LNK_RX_FLITS (n : Nat) : Nat := 0x91030 + 0x40 * n
/-- PWR.STAT (R500). -/
def PWR_STAT : Nat := 0x40000
/-- PWR.FEED_A (R500). -/
def PWR_FEED_A : Nat := 0x40004
/-- PWR.FEED_B (R500). -/
def PWR_FEED_B : Nat := 0x40008
/-- PWR.BUDGET (R500). -/
def PWR_BUDGET : Nat := 0x4000C
/-- PWR.HOST_CAP (R500). -/
def PWR_HOST_CAP : Nat := 0x40010
/-- PWR.CURTAIN_CTL (R500). -/
def PWR_CURTAIN_CTL : Nat := 0x40014
/-- PWR.CURTAIN_STAT (R500). -/
def PWR_CURTAIN_STAT : Nat := 0x40018
/-- PWR.CURTAIN_ORDER (R500). -/
def PWR_CURTAIN_ORDER : Nat := 0x40020
/-- PWR.INRUSH_CFG (R500). -/
def PWR_INRUSH_CFG : Nat := 0x40028
/-- PWR.LK_CTL (R500). -/
def PWR_LK_CTL : Nat := 0x4002C
/-- PWR.DOMAIN_STAT (R500). -/
def PWR_DOMAIN_STAT : Nat := 0x40030
/-- PWR.PHASE (R500). -/
def PWR_PHASE : Nat := 0x40034
/-- PWR.SLACK_CTL (R500). -/
def PWR_SLACK_CTL : Nat := 0x40038
/-- PWR.SLACK_STAT (R500). -/
def PWR_SLACK_STAT : Nat := 0x4003C
/-- PWR.TEL_SEQ (R500). -/
def PWR_TEL_SEQ : Nat := 0x40040
/-- PWR.ENERGY (R500). -/
def PWR_ENERGY : Nat := 0x40048
/-- PWR.TEL_d (R500). -/
def PWR_TEL (d : Nat) : Nat := 0x40100 + 0x4 * d
/-- STG.CORE_STATE_k (R501). -/
def STG_CORE_STATE (r k : Nat) : Nat := regionWin r + 0x0 + 0x4 * k
/-- STG.WAKE (R501). -/
def STG_WAKE (r : Nat) : Nat := regionWin r + 0x8
/-- STG.SLEEP_CFG (R501). -/
def STG_SLEEP_CFG (r : Nat) : Nat := regionWin r + 0xC
/-- STG.REG_STAT (R501). -/
def STG_REG_STAT (r : Nat) : Nat := regionWin r + 0x10
/-- STG.REG_FAIL (R501). -/
def STG_REG_FAIL (r : Nat) : Nat := regionWin r + 0x18
/-- STG.SHORT_CLR (R501). -/
def STG_SHORT_CLR (r : Nat) : Nat := regionWin r + 0x20
/-- ARB.CAP (R502). -/
def ARB_CAP (r : Nat) : Nat := regionWin r + 0x1000
/-- ARB.LOAD (R502). -/
def ARB_LOAD (r : Nat) : Nat := regionWin r + 0x1004
/-- ARB.QUEUE (R502). -/
def ARB_QUEUE (r : Nat) : Nat := regionWin r + 0x1008
/-- ARB.WEIGHT (R502). -/
def ARB_WEIGHT (r : Nat) : Nat := regionWin r + 0x100C
/-- ARB.SKIP (R502). -/
def ARB_SKIP (r : Nat) : Nat := regionWin r + 0x1010
/-- ARB.GRANTS (R502). -/
def ARB_GRANTS (r : Nat) : Nat := regionWin r + 0x1018
/-- ARB.WAITS (R502). -/
def ARB_WAITS (r : Nat) : Nat := regionWin r + 0x1020
/-- ARB.CLAIM_k (R502). -/
def ARB_CLAIM (r k : Nat) : Nat := regionWin r + 0x1040 + 0x4 * k
/-- THR.DUR_r (R503). -/
def THR_DUR (r i : Nat) : Nat := regionWin r + 0x3000 + 0x8 * i
/-- THR.ACTIVE (R503). -/
def THR_ACTIVE (r : Nat) : Nat := regionWin r + 0x3050
/-- THR.LOG_HEAD (R503). -/
def THR_LOG_HEAD (r : Nat) : Nat := regionWin r + 0x3054
/-- THR.LOG_LOST (R503). -/
def THR_LOG_LOST (r : Nat) : Nat := regionWin r + 0x3058
/-- THR.LOG_SEL (R503). -/
def THR_LOG_SEL (r : Nat) : Nat := regionWin r + 0x305C
/-- THR.LOG_REC_0 (R503). -/
def THR_LOG_REC_0 (r : Nat) : Nat := regionWin r + 0x3060
/-- THR.LOG_REC_1 (R503). -/
def THR_LOG_REC_1 (r k : Nat) : Nat := regionWin r + 0x3064 + 0x4 * k
/-- THR.DROOP_k (R503). -/
def THR_DROOP (r k : Nat) : Nat := regionWin r + 0x3100 + 0x4 * k
/-- THM.STAT (R530). -/
def THM_STAT : Nat := 0x50000
/-- THM.LIMIT (R530). -/
def THM_LIMIT : Nat := 0x50004
/-- THM.FLOW_CFG (R530). -/
def THM_FLOW_CFG : Nat := 0x50008
/-- THM.FLOW_TIMES (R530). -/
def THM_FLOW_TIMES : Nat := 0x5000C
/-- THM.COOLANT (R530). -/
def THM_COOLANT : Nat := 0x50010
/-- THM.FLOW (R530). -/
def THM_FLOW : Nat := 0x50014
/-- THM.TRAY (R530). -/
def THM_TRAY : Nat := 0x50018
/-- THM.TRAY_STAT (R530). -/
def THM_TRAY_STAT : Nat := 0x5001C
/-- THM.FCAST (R530). -/
def THM_FCAST : Nat := 0x50020
/-- THM.TRIP_CLR (R530). -/
def THM_TRIP_CLR : Nat := 0x50024
/-- THM.SUSPECT_CLR (R530). -/
def THM_SUSPECT_CLR : Nat := 0x50028
/-- THM.TRIPS (R530). -/
def THM_TRIPS : Nat := 0x5002C
/-- THM.REGION_r (R531). -/
def THM_REGION (i : Nat) : Nat := 0x50100 + 0x10 * i
/-- THM.REGION_r word 1 (R531). -/
def THM_REGION_W1 (i : Nat) : Nat := 0x50104 + 0x10 * i
/-- THM.REGION_r word 2 (R531). -/
def THM_REGION_W2 (i : Nat) : Nat := 0x50108 + 0x10 * i
/-- THM.REGION_r word 3 (R531). -/
def THM_REGION_W3 (i : Nat) : Nat := 0x5010C + 0x10 * i
/-- THM.SPOT_r_k (R531). -/
def THM_SPOT (i k : Nat) : Nat := 0x50400 + 0x20 * i + 0x4 * k
/-- CNV.STAT (R532). -/
def CNV_STAT (r : Nat) : Nat := regionWin r + 0x2000
/-- CNV.LIST_n (R532). -/
def CNV_LIST (r n : Nat) : Nat := regionWin r + 0x2040 + 0x4 * n
/-- CNV.ACC_c (R532). -/
def CNV_ACC (r i : Nat) : Nat := regionWin r + 0x2100 + 0x10 * i
/-- CNV.ACC_c word 1 (R532). -/
def CNV_ACC_W1 (r i : Nat) : Nat := regionWin r + 0x2104 + 0x10 * i
/-- CNV.ACC_c word 2 (R532). -/
def CNV_ACC_W2 (r i : Nat) : Nat := regionWin r + 0x2108 + 0x10 * i
/-- CNV.ACC_c word 3 (R532). -/
def CNV_ACC_W3 (r i : Nat) : Nat := regionWin r + 0x210C + 0x10 * i
/-- HIF.STAT (R562). -/
def HIF_STAT : Nat := 0x10000
/-- HIF.LINK (R562). -/
def HIF_LINK : Nat := 0x10004
/-- HIF.COUNTER (R562). -/
def HIF_COUNTER : Nat := 0x10008
/-- HIF.LOFT_BASE (R562). -/
def HIF_LOFT_BASE : Nat := 0x10010
/-- HIF.TRUNK_BASE (R562). -/
def HIF_TRUNK_BASE : Nat := 0x10018
/-- HIF.TRUNK_SIZE (R562). -/
def HIF_TRUNK_SIZE : Nat := 0x10020
/-- HIF.QTABLE_COUNT (R562). -/
def HIF_QTABLE_COUNT : Nat := 0x10024
/-- HIF.QTABLE_ADDR (R562). -/
def HIF_QTABLE_ADDR : Nat := 0x10028
/-- HIF.QCTL (R562). -/
def HIF_QCTL : Nat := 0x10030
/-- HIF.Q_SEL (R562). -/
def HIF_Q_SEL : Nat := 0x10034
/-- HIF.Q_DATA (R562). -/
def HIF_Q_DATA (k : Nat) : Nat := 0x10038 + 0x4 * k
/-- HIF.DB_IGNORED (R562). -/
def HIF_DB_IGNORED : Nat := 0x10048
/-- HIF.CPL_DROPPED (R562). -/
def HIF_CPL_DROPPED : Nat := 0x1004C
/-- HIF.READ_TIMEOUTS (R562). -/
def HIF_READ_TIMEOUTS : Nat := 0x10050
/-- HIF.AP_POISON (R562). -/
def HIF_AP_POISON : Nat := 0x10054
/-- HIF.AP_ASLEEP (R562). -/
def HIF_AP_ASLEEP : Nat := 0x10058
/-- HIF.LINK_DOWNS (R562). -/
def HIF_LINK_DOWNS : Nat := 0x1005C
/-- HIF.LOFT_RD (R562). -/
def HIF_LOFT_RD : Nat := 0x10060
/-- HIF.LOFT_WR (R562). -/
def HIF_LOFT_WR : Nat := 0x10068
/-- HIF.BISNP (R562). -/
def HIF_BISNP : Nat := 0x10070
/-- DUMP.STAT (R595). -/
def DUMP_STAT : Nat := 0x70000
/-- DUMP.CTL (R595). -/
def DUMP_CTL : Nat := 0x70004
/-- DUMP.BYTES (R595). -/
def DUMP_BYTES : Nat := 0x70008
/-- DUMP.COUNT (R595). -/
def DUMP_COUNT : Nat := 0x7000C
/-- DUMP.FLT_CTL (R595). -/
def DUMP_FLT_CTL : Nat := 0x70010
/-- DUMP.REPLACE_STAT (R595). -/
def DUMP_REPLACE_STAT : Nat := 0x70014
/-- DUMP.REPLACE_CTL (R595). -/
def DUMP_REPLACE_CTL : Nat := 0x70018
/-- DUMP.FAIL_CTL (R595). -/
def DUMP_FAIL_CTL : Nat := 0x7001C
/-- DUMP.ERR_HEAD (R595). -/
def DUMP_ERR_HEAD : Nat := 0x70020
/-- DUMP.ERR_LOST (R595). -/
def DUMP_ERR_LOST : Nat := 0x70024
/-- DUMP.ERR_SEL (R595). -/
def DUMP_ERR_SEL : Nat := 0x70028
/-- DUMP.ERR_REC_0 (R595). -/
def DUMP_ERR_REC_0 : Nat := 0x70030
/-- DUMP.ERR_REC_1 (R595). -/
def DUMP_ERR_REC_1 (k : Nat) : Nat := 0x70034 + 0x4 * k
/-- DUMP.REPLACES (R595). -/
def DUMP_REPLACES : Nat := 0x70050
/-- ID.IDENT (R622). -/
def ID_IDENT : Nat := 0x0
/-- ID.REVISION (R622). -/
def ID_REVISION : Nat := 0x8
/-- ID.PARAMS (R622). -/
def ID_PARAMS : Nat := 0x10
/-- ID.PARAMS word 1 (R622). -/
def ID_PARAMS_W1 : Nat := 0x14
/-- ID.PARAMS word 2 (R622). -/
def ID_PARAMS_W2 : Nat := 0x18
/-- ID.SERIAL (R622). -/
def ID_SERIAL : Nat := 0x20
/-- SEC.BOOT_STAT (R624). -/
def SEC_BOOT_STAT : Nat := 0x60000
/-- SEC.FW_VERSION (R624). -/
def SEC_FW_VERSION : Nat := 0x60004
/-- SEC.SVN_FUSED (R624). -/
def SEC_SVN_FUSED : Nat := 0x60008
/-- SEC.FW_ADDR (R624). -/
def SEC_FW_ADDR : Nat := 0x60010
/-- SEC.FW_LEN (R624). -/
def SEC_FW_LEN : Nat := 0x60018
/-- SEC.FW_CTL (R624). -/
def SEC_FW_CTL : Nat := 0x6001C
/-- SEC.FW_STAT (R624). -/
def SEC_FW_STAT : Nat := 0x60020
/-- SEC.MEAS_i_k (R624). -/
def SEC_MEAS (i k : Nat) : Nat := 0x60100 + 0x20 * i + 0x4 * k
/-- SEC.MEAS_COUNT_i (R624). -/
def SEC_MEAS_COUNT (i : Nat) : Nat := 0x60180 + 0x4 * i
/-- SEC.LOG_HEAD (R624). -/
def SEC_LOG_HEAD : Nat := 0x601A0
/-- SEC.LOG_LOST (R624). -/
def SEC_LOG_LOST : Nat := 0x601A4
/-- SEC.LOG_SEL (R624). -/
def SEC_LOG_SEL : Nat := 0x601A8
/-- SEC.LOG_REC_0 (R624). -/
def SEC_LOG_REC_0 : Nat := 0x601B0
/-- SEC.LOG_REC_1 (R624). -/
def SEC_LOG_REC_1 (k : Nat) : Nat := 0x601B4 + 0x4 * k
/-- SEC.ID_DIGEST_k (R624). -/
def SEC_ID_DIGEST (k : Nat) : Nat := 0x60200 + 0x4 * k
/-- NRM.COMMIT_STATUS (R86). -/
def NRM_COMMIT_STATUS (c : Nat) : Nat := coreWin c + 0x39010

end Reg

/-! ## Fields -/

namespace Fl

def RND_CTL_SR_KV : Fld := ⟨0, 1⟩
def RND_CTL_SR_CHAIN : Fld := ⟨1, 1⟩
def RND_CTL_SR_ADAPT : Fld := ⟨2, 1⟩
def RND_STATUS_NONFINITE : Fld := ⟨0, 1⟩
def RND_STATUS_SAT_FP8 : Fld := ⟨1, 1⟩
def RND_STATUS_SAT_INT : Fld := ⟨2, 1⟩
def RND_STATUS_SCALE_CLAMP : Fld := ⟨3, 1⟩
def RND_SAT_COUNT_COUNT : Fld := ⟨0, 32⟩
def RND_SAT_COUNT_CLEAR_CLEAR : Fld := ⟨0, 32⟩
def NRM_CTL_ENABLE : Fld := ⟨0, 1⟩
def NRM_CTL_ACT_FLAG : Fld := ⟨1, 1⟩
def NRM_CTL_ACT_TEST : Fld := ⟨2, 1⟩
def NRM_CTL_ACT_PARK : Fld := ⟨3, 1⟩
def NRM_CTL_SAT_TRIP : Fld := ⟨4, 1⟩
def NRM_CTL_UP_RATIO : Fld := ⟨8, 8⟩
def NRM_CTL_DOWN_RATIO : Fld := ⟨16, 8⟩
def NRM_CTL_SHIFT : Fld := ⟨24, 4⟩
def NRM_WARMUP_WARMUP : Fld := ⟨0, 16⟩
def NRM_FLOOR_FLOOR : Fld := ⟨0, 32⟩
def NRM_COMMIT_GO : Fld := ⟨0, 1⟩
def NRM_PT_CFG_EN : Fld := ⟨0, 1⟩
def NRM_PT_CFG_KIND : Fld := ⟨1, 1⟩
def NRM_PT_CFG_LAYER : Fld := ⟨4, 12⟩
def NRM_PT_MS_M : Fld := ⟨0, 32⟩
def NRM_PT_COUNT_SAMPLES : Fld := ⟨0, 16⟩
def NRM_PT_COUNT_TRIPS : Fld := ⟨16, 16⟩
def NRM_EVENT_TRIPPED : Fld := ⟨0, 8⟩
def NRM_EVENT_SAT_SEEN : Fld := ⟨8, 1⟩
def NRM_EVENT_NONFINITE_SEEN : Fld := ⟨9, 1⟩
def RACK_STAT_SAT_SEEN : Fld := ⟨0, 1⟩
def RACK_STAT_LABEL_CE : Fld := ⟨1, 1⟩
def RACK_STAT_LABEL_UE : Fld := ⟨2, 1⟩
def RACK_STAT_OFFLINE_FIRE : Fld := ⟨3, 1⟩
def RACK_STAT_REF_FAULT : Fld := ⟨4, 1⟩
def RACK_STAT_WRITE_REFUSED : Fld := ⟨5, 1⟩
def RACK_SAT_TOTAL_COUNT : Fld := ⟨0, 32⟩
def RACK_EVAL_COUNT_COUNT : Fld := ⟨0, 64⟩
def RACK_SKIP_COUNT_COUNT : Fld := ⟨0, 64⟩
def RACK_QUIET_DELAY_COUNT : Fld := ⟨0, 32⟩
def RACK_REC_SEL_INDEX : Fld := ⟨0, 14⟩
def RACK_REC_SEL_KIND : Fld := ⟨14, 1⟩
def RACK_REC_DATA_0_DATA : Fld := ⟨0, 32⟩
def RACK_REC_DATA_1_DATA : Fld := ⟨0, 32⟩
def RACK_CAPTURE_CTL_RACK : Fld := ⟨0, 14⟩
def RACK_CAPTURE_CTL_LANE : Fld := ⟨14, 2⟩
def RACK_CAPTURE_CTL_COLUMN : Fld := ⟨16, 8⟩
def RACK_CAPTURE_CTL_ARM : Fld := ⟨24, 1⟩
def RACK_CAPTURE_CTL_DONE : Fld := ⟨25, 1⟩
def RACK_CAPTURE_DATA_SEG_LO : Fld := ⟨0, 16⟩
def RACK_CAPTURE_DATA_SEG_HI : Fld := ⟨16, 16⟩
def CEL_CHK_CTL_TV_EN : Fld := ⟨0, 1⟩
def CEL_CHK_CTL_ST_EN : Fld := ⟨1, 1⟩
def CEL_CHK_CTL_QUIET : Fld := ⟨2, 1⟩
def CEL_CHK_CTL_COMP_EN : Fld := ⟨3, 1⟩
def CEL_CHK_CTL_ACTION : Fld := ⟨4, 2⟩
def CEL_CHK_CTL_PERIOD : Fld := ⟨16, 16⟩
def CEL_CHK_LIMITS_TV_LIMIT : Fld := ⟨0, 16⟩
def CEL_CHK_LIMITS_MEAN_TOL : Fld := ⟨16, 8⟩
def CEL_CHK_LIMITS_EDGE_TOL : Fld := ⟨24, 8⟩
def CEL_CHK_WINDOW_WIN_LOG2 : Fld := ⟨0, 5⟩
def CEL_CHK_COMMIT_GO : Fld := ⟨0, 1⟩
def CEL_CHK_COMMIT_STATUS_RESULT : Fld := ⟨0, 2⟩
def CEL_CHK_COMMIT_STATUS_CHECK : Fld := ⟨8, 8⟩
def CEL_CHK_COMMIT_STATUS_WORD : Fld := ⟨16, 8⟩
def CEL_CHK_COMMIT_STATUS_SEQ : Fld := ⟨24, 8⟩
def CEL_CHK_OVERDUE_COUNT : Fld := ⟨0, 32⟩
def CEL_DRIFT_HEAD_NEXT_SEQ : Fld := ⟨0, 32⟩
def CEL_DRIFT_LOST_COUNT : Fld := ⟨0, 32⟩
def CEL_DRIFT_SEL_SLOT : Fld := ⟨0, 8⟩
def CEL_DRIFT_REC_0_DATA : Fld := ⟨0, 32⟩
def CEL_DRIFT_REC_1_DATA : Fld := ⟨0, 32⟩
def CEL_REFRESH_CTL_AUTO : Fld := ⟨0, 16⟩
def CEL_REFRESH_GO_GO : Fld := ⟨0, 16⟩
def CEL_REFRESH_STAT_QUEUED : Fld := ⟨0, 12⟩
def CEL_REFRESH_STAT_ACTIVE : Fld := ⟨12, 6⟩
def CEL_REFRESH_COUNT_DONE : Fld := ⟨0, 16⟩
def CEL_REFRESH_COUNT_FAILED : Fld := ⟨16, 16⟩
def CEL_INST_DESC_ADDR : Fld := ⟨6, 58⟩
def CEL_INST_CTL_GO : Fld := ⟨0, 1⟩
def CEL_INST_CTL_ABORT : Fld := ⟨1, 1⟩
def CEL_INST_STAT_STATE : Fld := ⟨0, 4⟩
def CEL_INST_STAT_ERROR : Fld := ⟨8, 8⟩
def CEL_INST_STAT_WRITE_REFUSED : Fld := ⟨16, 1⟩
def CEL_INST_ENTRY_ENTRY : Fld := ⟨0, 32⟩
def CEL_INST_FIRST_DONE_COUNT : Fld := ⟨0, 32⟩
def CEL_INST_FINISHED_COUNT : Fld := ⟨0, 32⟩
def CEL_INST_MARGINAL_COUNT : Fld := ⟨0, 32⟩
def CEL_INST_FAILED_COUNT : Fld := ⟨0, 32⟩
def CEL_INST_CLIPPED_COUNT : Fld := ⟨0, 32⟩
def CEL_INST_RETRIES_COUNT : Fld := ⟨0, 32⟩
def CEL_WEAR_SEL_BIN : Fld := ⟨0, 9⟩
def CEL_WEAR_SEL_CORE : Fld := ⟨9, 8⟩
def CEL_WEAR_DATA_CYCLES : Fld := ⟨0, 16⟩
def CEL_WEAR_DATA_WARN : Fld := ⟨16, 1⟩
def CEL_WEAR_DATA_WORN : Fld := ⟨17, 1⟩
def CEL_WEAR_DATA_WEAR_UE : Fld := ⟨18, 1⟩
def CEL_WEAR_MAX_MAX_CYCLES : Fld := ⟨0, 16⟩
def CEL_WEAR_MAX_WORN_BINS : Fld := ⟨16, 16⟩
def CEL_WEAR_WARN_LEVEL : Fld := ⟨0, 16⟩
def CORE_ID_CORE : Fld := ⟨0, 8⟩
def CORE_ID_MODULE : Fld := ⟨8, 6⟩
def CORE_ID_PARTITION : Fld := ⟨16, 4⟩
def CORE_ID_BOUND : Fld := ⟨20, 1⟩
def CORE_ID_SWING : Fld := ⟨21, 1⟩
def CORE_STAT_RX_LATE : Fld := ⟨0, 1⟩
def CORE_STAT_RX_BOUNDS : Fld := ⟨1, 1⟩
def CORE_STAT_RX_PARTITION : Fld := ⟨2, 1⟩
def CORE_STAT_TX_TIMEOUT : Fld := ⟨3, 1⟩
def CORE_STAT_LATE_COMPLETION : Fld := ⟨4, 1⟩
def CORE_STAT_ECC_CE : Fld := ⟨5, 1⟩
def CORE_STAT_ECC_UE : Fld := ⟨6, 1⟩
def CORE_STAT_SCRUB_BUSY : Fld := ⟨7, 1⟩
def CORE_STAT_WRITE_REFUSED : Fld := ⟨8, 1⟩
def CORE_STAT_IDLE : Fld := ⟨9, 1⟩
def CORE_ECC_COUNT_CE : Fld := ⟨0, 16⟩
def CORE_ECC_COUNT_UE : Fld := ⟨16, 16⟩
def CORE_NET_LIMIT_LIMIT : Fld := ⟨0, 16⟩
def CORE_WAIT_LIMIT_LIMIT : Fld := ⟨0, 16⟩
def CORE_SCRUB_GO : Fld := ⟨0, 1⟩
def CORE_RX_COUNT_COUNT : Fld := ⟨0, 64⟩
def CORE_TX_COUNT_COUNT : Fld := ⟨0, 64⟩
def WDS_WIN_BASE_BASE : Fld := ⟨6, 21⟩
def WDS_WIN_LEN_LEN : Fld := ⟨6, 22⟩
def WDS_WIN_CTL_STATE : Fld := ⟨0, 2⟩
def WDS_WIN_CTL_LATE_TRAP : Fld := ⟨2, 1⟩
def WDS_WIN_CTL_FORCE_CLOSE : Fld := ⟨3, 1⟩
def WDS_WIN_CTL_LAST_DRAIN : Fld := ⟨8, 3⟩
def WDS_WIN_CTL_GENERATION : Fld := ⟨16, 16⟩
def WDS_WIN_COUNT_COUNT : Fld := ⟨0, 32⟩
def WDS_WIN_TARGET_TARGET : Fld := ⟨0, 32⟩
def WDS_WIN_LATE_COUNT_COUNT : Fld := ⟨0, 32⟩
def WDS_WIN_COMMIT_GO : Fld := ⟨0, 1⟩
def WDS_WIN_COMMIT_STATUS_RESULT : Fld := ⟨0, 2⟩
def WDS_WIN_COMMIT_STATUS_CHECK : Fld := ⟨8, 8⟩
def WDS_WIN_COMMIT_STATUS_WORD : Fld := ⟨16, 8⟩
def WDS_WIN_COMMIT_STATUS_SEQ : Fld := ⟨24, 8⟩
def ENG_AVAIL_MASK : Fld := ⟨0, 24⟩
def ENG_BUSY_BUSY : Fld := ⟨0, 24⟩
def ENG_QUAD_QUAD : Fld := ⟨0, 24⟩
def ENG_ACTIVE_CYCLES : Fld := ⟨0, 64⟩
def ENG_ROW_STALL_CYCLES : Fld := ⟨0, 32⟩
def ENG_COL_STALL_CYCLES : Fld := ⟨0, 32⟩
def ENG_TILES_COUNT : Fld := ⟨0, 32⟩
def VEC_STAT_BUSY : Fld := ⟨0, 1⟩
def VEC_OPS_COUNT : Fld := ⟨0, 64⟩
def VEC_ELEMS_COUNT : Fld := ⟨0, 64⟩
def RIF_OWNER_CORE : Fld := ⟨0, 8⟩
def RIF_OWNER_BORROWED : Fld := ⟨8, 1⟩
def RIF_BORROW_EN : Fld := ⟨0, 1⟩
def RIF_BORROW_LOCAL : Fld := ⟨1, 3⟩
def RIF_BORROW_READY : Fld := ⟨4, 1⟩
def RIF_QUEUE_DEPTH : Fld := ⟨0, 7⟩
def RIF_QUEUE_USED : Fld := ⟨8, 11⟩
def RIF_STAT_QUEUE_FULL : Fld := ⟨0, 1⟩
def RIF_STAT_OUTBUF_WAIT : Fld := ⟨1, 1⟩
def RIF_STAT_FIRE_TOO_LARGE : Fld := ⟨2, 1⟩
def RIF_STAT_WRITE_REFUSED : Fld := ⟨3, 1⟩
def SEQ_CTL_START : Fld := ⟨0, 1⟩
def SEQ_CTL_HALT : Fld := ⟨1, 1⟩
def SEQ_CTL_RESUME : Fld := ⟨2, 1⟩
def SEQ_STAT_STATE : Fld := ⟨0, 2⟩
def SEQ_STAT_IN_HANDLER : Fld := ⟨2, 1⟩
def SEQ_STAT_NESTED : Fld := ⟨3, 1⟩
def SEQ_STAT_CUE_DROPPED : Fld := ⟨4, 1⟩
def SEQ_STAT_LATE_PENDING : Fld := ⟨5, 1⟩
def SEQ_STAT_HELD : Fld := ⟨6, 1⟩
def SEQ_STAT_WRITE_REFUSED : Fld := ⟨7, 1⟩
def SEQ_PC_PC : Fld := ⟨0, 15⟩
def SEQ_START_PC_PC : Fld := ⟨0, 15⟩
def SEQ_HANDLER_PC : Fld := ⟨0, 15⟩
def SEQ_HANDLER_EN : Fld := ⟨15, 1⟩
def SEQ_CODE_LIM_LO : Fld := ⟨0, 15⟩
def SEQ_CODE_LIM_HI : Fld := ⟨16, 15⟩
def SEQ_EXC_CAUSE : Fld := ⟨0, 8⟩
def SEQ_EXC_TOKEN : Fld := ⟨8, 4⟩
def SEQ_EXC_WIN : Fld := ⟨12, 6⟩
def SEQ_EPC_PC : Fld := ⟨0, 15⟩
def SEQ_ISSUED_COUNT : Fld := ⟨0, 64⟩
def SEQ_TOKEN_STATE : Fld := ⟨0, 2⟩
def SEQ_TOKEN_STATUS : Fld := ⟨8, 8⟩
def SEQ_CODE_ADDR_ADDR : Fld := ⟨0, 15⟩
def SEQ_CODE_DATA_WORD : Fld := ⟨0, 64⟩
def SEQ_G_VALUE : Fld := ⟨0, 64⟩
def SEQ_A_VALUE : Fld := ⟨0, 32⟩
def SEQ_SIG_COUNT : Fld := ⟨0, 32⟩
def SRV_KV_CTL_RECALL : Fld := ⟨0, 1⟩
def SRV_KV_CTL_BOOK : Fld := ⟨1, 1⟩
def SRV_KV_CTL_WINDOW : Fld := ⟨8, 8⟩
def SRV_KV_CTL_RCACHE : Fld := ⟨16, 8⟩
def SRV_KV_SHARE_PAGES_MAX : Fld := ⟨0, 8⟩
def SRV_KV_BUCKET_0_B0 : Fld := ⟨0, 16⟩
def SRV_KV_BUCKET_0_B1 : Fld := ⟨16, 16⟩
def SRV_KV_BUCKET_1_B2 : Fld := ⟨0, 16⟩
def SRV_KV_BUCKET_1_B3 : Fld := ⟨16, 16⟩
def SRV_KV_BUCKET_2_B4 : Fld := ⟨0, 16⟩
def SRV_KV_BUCKET_2_B5 : Fld := ⟨16, 16⟩
def SRV_KV_BUCKET_3_B6 : Fld := ⟨0, 16⟩
def SRV_KV_COMMIT_GO : Fld := ⟨0, 1⟩
def SRV_KV_COMMIT_STATUS_RESULT : Fld := ⟨0, 2⟩
def SRV_KV_COMMIT_STATUS_CHECK : Fld := ⟨8, 8⟩
def SRV_KV_COMMIT_STATUS_WORD : Fld := ⟨16, 8⟩
def SRV_KV_COMMIT_STATUS_SEQ : Fld := ⟨24, 8⟩
def SRV_KV_STAT_MAP_REFUSED : Fld := ⟨0, 1⟩
def SRV_KV_STAT_COMMIT_HOLE : Fld := ⟨1, 1⟩
def SRV_KV_STAT_LOFT_ERROR : Fld := ⟨2, 1⟩
def SRV_KV_STAT_KV_FULL_SEEN : Fld := ⟨3, 1⟩
def SRV_KV_STAT_BOOK_FULL : Fld := ⟨4, 1⟩
def SRV_KV_STAT_DIVERGED : Fld := ⟨5, 1⟩
def SRV_KV_REFUSED_COUNT : Fld := ⟨0, 32⟩
def SRV_KV_RECALL_HITS_COUNT : Fld := ⟨0, 32⟩
def SRV_KV_RECALL_MISSES_COUNT : Fld := ⟨0, 32⟩
def SRV_KV_LOFT_RD_BYTES : Fld := ⟨0, 64⟩
def SRV_KV_LOFT_WR_BYTES : Fld := ⟨0, 64⟩
def SRV_STAT_KNOWN : Fld := ⟨0, 17⟩
def SRV_STAT_IN_FLIGHT : Fld := ⟨17, 8⟩
def SRV_STAT_WRITE_REFUSED : Fld := ⟨25, 1⟩
def SRV_COST_GEN : Fld := ⟨0, 8⟩
def SRV_COST_PROMPT : Fld := ⟨8, 8⟩
def SRV_COST_ADAPT : Fld := ⟨16, 8⟩
def SRV_CTX_SEL_CONTEXT : Fld := ⟨0, 16⟩
def SRV_CTX_DATA_0_STATE : Fld := ⟨0, 3⟩
def SRV_CTX_DATA_0_PARTITION : Fld := ⟨3, 4⟩
def SRV_CTX_DATA_0_ADAPTER : Fld := ⟨7, 1⟩
def SRV_CTX_DATA_0_PARK_REASON : Fld := ⟨8, 8⟩
def SRV_CTX_DATA_0_RESIDENT : Fld := ⟨16, 16⟩
def SRV_CTX_DATA_1_TOKEN_SEQ : Fld := ⟨0, 32⟩
def SRV_CTX_DATA_2_COMMITTED : Fld := ⟨0, 32⟩
def SRV_CLS_TTFT_LIMIT : Fld := ⟨0, 32⟩
def SRV_CLS_TBT_LIMIT : Fld := ⟨0, 32⟩
def SRV_CLS_CTL_PRIORITY : Fld := ⟨0, 3⟩
def SRV_CLS_CTL_AGING : Fld := ⟨3, 1⟩
def SRV_CLS_REQS_COUNT : Fld := ⟨0, 32⟩
def SRV_CLS_TTFT_VIOL_COUNT : Fld := ⟨0, 32⟩
def SRV_CLS_TBT_VIOL_COUNT : Fld := ⟨0, 32⟩
def SRV_CLS_HELD_COUNT : Fld := ⟨0, 32⟩
def SRV_TREE_CTL_NODES : Fld := ⟨0, 5⟩
def SRV_TREE_PAR_PARENTS : Fld := ⟨0, 32⟩
def SRV_TREE_COMMIT_GO : Fld := ⟨0, 1⟩
def SRV_TREE_COMMIT_STATUS_RESULT : Fld := ⟨0, 2⟩
def SRV_TREE_COMMIT_STATUS_CHECK : Fld := ⟨8, 8⟩
def SRV_TREE_COMMIT_STATUS_WORD : Fld := ⟨16, 8⟩
def SRV_TREE_COMMIT_STATUS_SEQ : Fld := ⟨24, 8⟩
def SRV_TEN_BALANCE_BALANCE : Fld := ⟨0, 32⟩
def SRV_TEN_REFILL_AMOUNT : Fld := ⟨0, 32⟩
def SRV_TEN_CTL_BORROW_MAX : Fld := ⟨0, 24⟩
def SRV_TEN_CTL_EN : Fld := ⟨31, 1⟩
def SRV_TEN_STAT_HELD : Fld := ⟨0, 16⟩
def SRV_TEN_STAT_EXHAUSTED : Fld := ⟨16, 1⟩
def BLK_REBIND_MASK_CORES : Fld := ⟨0, 32⟩
def BLK_REBIND_CTL_TO : Fld := ⟨0, 4⟩
def BLK_REBIND_CTL_UNBIND : Fld := ⟨4, 1⟩
def BLK_REBIND_CTL_BINS : Fld := ⟨5, 1⟩
def BLK_REBIND_CTL_ROLE : Fld := ⟨8, 8⟩
def BLK_REBIND_CTL_GO : Fld := ⟨31, 1⟩
def BLK_REBIND_STAT_STATE : Fld := ⟨0, 2⟩
def BLK_REBIND_STAT_ERROR : Fld := ⟨8, 8⟩
def BLK_REBIND_STAT_CORE : Fld := ⟨16, 8⟩
def BLK_LOAD_ADDR_ADDR : Fld := ⟨3, 61⟩
def BLK_LOAD_LEN_BYTES : Fld := ⟨0, 32⟩
def BLK_LOAD_CTL_SLOT : Fld := ⟨0, 4⟩
def BLK_LOAD_CTL_START : Fld := ⟨4, 1⟩
def BLK_LOAD_CTL_GO : Fld := ⟨8, 1⟩
def BLK_LOAD_CTL_UNLOAD : Fld := ⟨9, 1⟩
def BLK_BIND_ADDR_ADDR : Fld := ⟨3, 61⟩
def BLK_LOAD_STAT_STATE : Fld := ⟨0, 3⟩
def BLK_LOAD_STAT_ERROR : Fld := ⟨8, 8⟩
def BLK_LOAD_STAT_WRITE_REFUSED : Fld := ⟨16, 1⟩
def BLK_LOAD_WHERE_SECTION : Fld := ⟨0, 12⟩
def BLK_LOAD_WHERE_RECORD : Fld := ⟨12, 20⟩
def BLK_LOAD_OFFLINE_COUNT : Fld := ⟨0, 32⟩
def BLK_SLOT_STAT_LOADED : Fld := ⟨0, 1⟩
def BLK_SLOT_STAT_LOGICAL_MODULE : Fld := ⟨8, 6⟩
def BLK_SLOT_STAT_PARTS : Fld := ⟨16, 16⟩
def BLK_MEAS_DIGEST : Fld := ⟨0, 32⟩
def BLK_PART_STAT_STATE : Fld := ⟨0, 3⟩
def BLK_PART_STAT_LEAD : Fld := ⟨3, 1⟩
def BLK_PART_STAT_SLOT : Fld := ⟨4, 4⟩
def BLK_PART_STAT_MODULES : Fld := ⟨8, 6⟩
def BLK_PART_STAT_MISMATCH : Fld := ⟨14, 1⟩
def BLK_PART_STAT_PIPE_MAX : Fld := ⟨16, 8⟩
def BLK_PART_CORES_CORES : Fld := ⟨0, 9⟩
def BLK_PART_MODEL_MODEL : Fld := ⟨0, 64⟩
def FAB_STAT_DETOUR_SEEN : Fld := ⟨0, 1⟩
def FAB_STAT_UNREACH_SEEN : Fld := ⟨1, 1⟩
def FAB_STAT_PN_DROP_SEEN : Fld := ⟨2, 1⟩
def FAB_STAT_MGMT_CRC_SEEN : Fld := ⟨3, 1⟩
def FAB_STAT_MGMT_BREAK : Fld := ⟨4, 1⟩
def FAB_STAT_WRITE_REFUSED : Fld := ⟨5, 1⟩
def FAB_FMAP_CORE_BAD : Fld := ⟨0, 32⟩
def FAB_FMAP_EAST_BAD : Fld := ⟨0, 32⟩
def FAB_FMAP_SOUTH_BAD : Fld := ⟨0, 32⟩
def FAB_FMAP_EXPRESS_BAD : Fld := ⟨0, 8⟩
def FAB_FMAP_CTL_INDEX : Fld := ⟨0, 13⟩
def FAB_FMAP_CTL_KIND : Fld := ⟨13, 3⟩
def FAB_FMAP_CTL_UNMARK : Fld := ⟨16, 1⟩
def FAB_FMAP_CTL_GO : Fld := ⟨31, 1⟩
def FAB_FMAP_SEQ_SEQ : Fld := ⟨0, 32⟩
def FAB_DETOURS_COUNT : Fld := ⟨0, 32⟩
def FAB_UNREACH_COUNT : Fld := ⟨0, 32⟩
def FAB_PN_MSGS_COUNT : Fld := ⟨0, 64⟩
def FAB_PN_DROPPED_COUNT : Fld := ⟨0, 32⟩
def FAB_MGMT_CRC_COUNT : Fld := ⟨0, 32⟩
def FAB_MGMT_RETRY_COUNT : Fld := ⟨0, 32⟩
def FAB_SAFE_REGIONS : Fld := ⟨0, 16⟩
def LNK_MODULE_NUMBER : Fld := ⟨0, 6⟩
def LNK_SYSTEM_ID_ID : Fld := ⟨0, 64⟩
def LNK_SPLIT_CTL_HOLD : Fld := ⟨0, 16⟩
def LNK_SPLIT_GO_RESUME : Fld := ⟨0, 16⟩
def LNK_SPLIT_STAT_READY : Fld := ⟨0, 16⟩
def LNK_SPLIT_STAT_WRITE_REFUSED : Fld := ⟨16, 1⟩
def LNK_REACH_MODULES : Fld := ⟨0, 48⟩
def LNK_FREEZES_COUNT : Fld := ⟨0, 32⟩
def LNK_PORT_CTL_ENABLE : Fld := ⟨0, 1⟩
def LNK_PORT_CTL_RETRAIN : Fld := ⟨1, 1⟩
def LNK_PORT_STAT_STATE : Fld := ⟨0, 3⟩
def LNK_PORT_STAT_WIDTH : Fld := ⟨3, 2⟩
def LNK_PORT_STAT_REASON : Fld := ⟨8, 8⟩
def LNK_PORT_STAT_DOWN_SEEN : Fld := ⟨16, 1⟩
def LNK_PEER_MODULE : Fld := ⟨0, 6⟩
def LNK_PEER_PORT : Fld := ⟨8, 5⟩
def LNK_FEC_CE_COUNT : Fld := ⟨0, 64⟩
def LNK_FEC_UE_COUNT : Fld := ⟨0, 32⟩
def LNK_CRC_ERR_COUNT : Fld := ⟨0, 32⟩
def LNK_REPLAYS_COUNT : Fld := ⟨0, 32⟩
def LNK_DOWNS_DOWNS : Fld := ⟨0, 16⟩
def LNK_DOWNS_RETRAINS : Fld := ⟨16, 16⟩
def LNK_TX_FLITS_COUNT : Fld := ⟨0, 64⟩
def LNK_RX_FLITS_COUNT : Fld := ⟨0, 64⟩
def PWR_STAT_FEED_A_OK : Fld := ⟨0, 1⟩
def PWR_STAT_FEED_B_OK : Fld := ⟨1, 1⟩
def PWR_STAT_FEED_EVENT : Fld := ⟨2, 1⟩
def PWR_STAT_LEGACY : Fld := ⟨3, 1⟩
def PWR_STAT_HV_ON : Fld := ⟨4, 1⟩
def PWR_STAT_PEAK : Fld := ⟨5, 1⟩
def PWR_STAT_INPUT_LIMIT : Fld := ⟨6, 1⟩
def PWR_STAT_WRITE_REFUSED : Fld := ⟨7, 1⟩
def PWR_FEED_A_VOLTS : Fld := ⟨0, 16⟩
def PWR_FEED_A_AMPS : Fld := ⟨16, 16⟩
def PWR_BUDGET_SUSTAINED_W : Fld := ⟨0, 16⟩
def PWR_BUDGET_PEAK_W : Fld := ⟨16, 16⟩
def PWR_HOST_CAP_CAP_W : Fld := ⟨0, 16⟩
def PWR_CURTAIN_CTL_UP : Fld := ⟨0, 16⟩
def PWR_CURTAIN_CTL_DOWN : Fld := ⟨16, 16⟩
def PWR_CURTAIN_STAT_RUN : Fld := ⟨0, 16⟩
def PWR_CURTAIN_STAT_CURRENT : Fld := ⟨16, 4⟩
def PWR_CURTAIN_STAT_BUSY : Fld := ⟨20, 1⟩
def PWR_CURTAIN_STAT_WAIT_SLOT : Fld := ⟨21, 1⟩
def PWR_CURTAIN_ORDER_ORDER : Fld := ⟨0, 64⟩
def PWR_INRUSH_CFG_TIMEOUT : Fld := ⟨0, 16⟩
def PWR_INRUSH_CFG_NEIGHBOUR_PCT : Fld := ⟨16, 8⟩
def PWR_LK_CTL_ON : Fld := ⟨0, 8⟩
def PWR_DOMAIN_STAT_ON : Fld := ⟨0, 30⟩
def PWR_PHASE_PART : Fld := ⟨0, 4⟩
def PWR_PHASE_DURATION : Fld := ⟨8, 8⟩
def PWR_PHASE_EXTRA_W : Fld := ⟨16, 16⟩
def PWR_SLACK_CTL_EN : Fld := ⟨0, 1⟩
def PWR_SLACK_CTL_SHIFT_MAX_W : Fld := ⟨16, 16⟩
def PWR_SLACK_STAT_IN_W : Fld := ⟨0, 16⟩
def PWR_SLACK_STAT_OUT_W : Fld := ⟨16, 16⟩
def PWR_TEL_SEQ_SEQ : Fld := ⟨0, 32⟩
def PWR_ENERGY_MJ : Fld := ⟨0, 64⟩
def PWR_TEL_CURRENT : Fld := ⟨0, 16⟩
def PWR_TEL_POWER : Fld := ⟨16, 16⟩
def STG_CORE_STATE_STATES : Fld := ⟨0, 24⟩
def STG_WAKE_CORES : Fld := ⟨0, 16⟩
def STG_SLEEP_CFG_RETAIN_IDLE : Fld := ⟨0, 16⟩
def STG_SLEEP_CFG_DARK_IDLE : Fld := ⟨16, 15⟩
def STG_SLEEP_CFG_UNBOUND_DARK : Fld := ⟨31, 1⟩
def STG_REG_STAT_FAILED : Fld := ⟨0, 6⟩
def STG_REG_STAT_CAPPED : Fld := ⟨6, 1⟩
def STG_REG_STAT_OUT : Fld := ⟨7, 1⟩
def STG_REG_STAT_SHORT : Fld := ⟨8, 1⟩
def STG_REG_STAT_SAFE : Fld := ⟨9, 1⟩
def STG_REG_STAT_UP_FAIL : Fld := ⟨10, 1⟩
def STG_REG_STAT_REG_EVENT : Fld := ⟨11, 1⟩
def STG_REG_STAT_WRITE_REFUSED : Fld := ⟨12, 1⟩
def STG_REG_FAIL_FAILED : Fld := ⟨0, 48⟩
def STG_SHORT_CLR_CLEAR : Fld := ⟨0, 1⟩
def ARB_CAP_CAP_A : Fld := ⟨0, 16⟩
def ARB_CAP_REASON : Fld := ⟨16, 4⟩
def ARB_LOAD_LOAD_A : Fld := ⟨0, 16⟩
def ARB_LOAD_RESERVED_A : Fld := ⟨16, 16⟩
def ARB_QUEUE_DEPTH : Fld := ⟨0, 5⟩
def ARB_QUEUE_HEAD_WAIT : Fld := ⟨16, 16⟩
def ARB_WEIGHT_BIN_MA : Fld := ⟨0, 16⟩
def ARB_WEIGHT_ENG_MA : Fld := ⟨16, 16⟩
def ARB_SKIP_RATE : Fld := ⟨0, 2⟩
def ARB_SKIP_REASON : Fld := ⟨4, 4⟩
def ARB_GRANTS_COUNT : Fld := ⟨0, 64⟩
def ARB_WAITS_COUNT : Fld := ⟨0, 32⟩
def ARB_CLAIM_BINS : Fld := ⟨0, 10⟩
def ARB_CLAIM_ENGINES : Fld := ⟨10, 5⟩
def ARB_CLAIM_PENDING : Fld := ⟨15, 1⟩
def ARB_CLAIM_RATION_BINS : Fld := ⟨16, 10⟩
def ARB_CLAIM_RATION_ENG : Fld := ⟨26, 5⟩
def ARB_CLAIM_MINIMUM : Fld := ⟨31, 1⟩
def THR_DUR_MICROSECONDS : Fld := ⟨0, 64⟩
def THR_ACTIVE_REASONS : Fld := ⟨1, 9⟩
def THR_LOG_HEAD_NEXT_SEQ : Fld := ⟨0, 32⟩
def THR_LOG_LOST_COUNT : Fld := ⟨0, 32⟩
def THR_LOG_SEL_SLOT : Fld := ⟨0, 6⟩
def THR_LOG_REC_0_DATA : Fld := ⟨0, 32⟩
def THR_LOG_REC_1_DATA : Fld := ⟨0, 32⟩
def THR_DROOP_COUNT : Fld := ⟨0, 32⟩
def THM_STAT_FLOW_STATE : Fld := ⟨0, 2⟩
def THM_STAT_FLOW_EVENT : Fld := ⟨2, 1⟩
def THM_STAT_TRAY_SILENT : Fld := ⟨3, 1⟩
def THM_STAT_TRAY_EVENT : Fld := ⟨4, 1⟩
def THM_STAT_INLET_RANGE : Fld := ⟨5, 1⟩
def THM_STAT_TRIP_EVENT : Fld := ⟨6, 1⟩
def THM_STAT_SENSOR_EVENT : Fld := ⟨7, 1⟩
def THM_STAT_WRITE_REFUSED : Fld := ⟨8, 1⟩
def THM_LIMIT_TJ_LIMIT : Fld := ⟨0, 8⟩
def THM_LIMIT_MARGIN : Fld := ⟨8, 8⟩
def THM_FLOW_CFG_SET : Fld := ⟨0, 16⟩
def THM_FLOW_CFG_STOP_PCT : Fld := ⟨16, 8⟩
def THM_FLOW_CFG_RATE : Fld := ⟨24, 8⟩
def THM_FLOW_TIMES_STOP_DARK : Fld := ⟨0, 16⟩
def THM_FLOW_TIMES_RECOVER : Fld := ⟨16, 16⟩
def THM_COOLANT_INLET : Fld := ⟨0, 16⟩
def THM_COOLANT_OUTLET : Fld := ⟨16, 16⟩
def THM_FLOW_FLOW : Fld := ⟨0, 16⟩
def THM_FLOW_OUTLET_RATE : Fld := ⟨16, 16⟩
def THM_TRAY_INLET : Fld := ⟨0, 16⟩
def THM_TRAY_OUTLET : Fld := ⟨16, 16⟩
def THM_TRAY_STAT_LAST_SEQ : Fld := ⟨0, 8⟩
def THM_TRAY_STAT_STATUS : Fld := ⟨8, 8⟩
def THM_TRAY_STAT_FRAMES_BAD : Fld := ⟨16, 16⟩
def THM_FCAST_EN : Fld := ⟨0, 1⟩
def THM_FCAST_CP : Fld := ⟨16, 16⟩
def THM_TRIP_CLR_REGIONS : Fld := ⟨0, 16⟩
def THM_SUSPECT_CLR_REGIONS : Fld := ⟨0, 16⟩
def THM_TRIPS_COUNT : Fld := ⟨0, 32⟩
def THM_REGION_THETA : Fld := ⟨0, 16⟩
def THM_REGION_PRED : Fld := ⟨16, 16⟩
def THM_REGION_W1_RTH : Fld := ⟨0, 16⟩
def THM_REGION_W1_PHI : Fld := ⟨16, 8⟩
def THM_REGION_W2_STEADY_W : Fld := ⟨0, 16⟩
def THM_REGION_W2_FCAST_W : Fld := ⟨16, 16⟩
def THM_REGION_W3_DISAGREE : Fld := ⟨0, 8⟩
def THM_REGION_W3_SUSPECT : Fld := ⟨8, 8⟩
def THM_REGION_W3_INVALID : Fld := ⟨16, 8⟩
def THM_REGION_W3_TRIP : Fld := ⟨24, 1⟩
def THM_SPOT_A : Fld := ⟨0, 16⟩
def THM_SPOT_B : Fld := ⟨16, 16⟩
def CNV_STAT_BUSY : Fld := ⟨0, 1⟩
def CNV_STAT_CONV0_ON : Fld := ⟨1, 1⟩
def CNV_STAT_CONV1_ON : Fld := ⟨2, 1⟩
def CNV_STAT_BAD_ENTRY : Fld := ⟨3, 1⟩
def CNV_STAT_GO_IGNORED : Fld := ⟨4, 1⟩
def CNV_STAT_SCAN_SEQ : Fld := ⟨16, 16⟩
def CNV_LIST_CHANNEL : Fld := ⟨0, 5⟩
def CNV_LIST_CONV : Fld := ⟨5, 2⟩
def CNV_LIST_SAMPLES : Fld := ⟨8, 8⟩
def CNV_ACC_SUM : Fld := ⟨0, 32⟩
def CNV_ACC_W1_COUNT : Fld := ⟨0, 16⟩
def CNV_ACC_W2_MIN : Fld := ⟨0, 12⟩
def CNV_ACC_W2_MAX : Fld := ⟨16, 12⟩
def CNV_ACC_W3_SEQ : Fld := ⟨0, 32⟩
def HIF_STAT_LINK_UP : Fld := ⟨0, 1⟩
def HIF_STAT_CXL : Fld := ⟨1, 1⟩
def HIF_STAT_CACHE_EN : Fld := ⟨2, 1⟩
def HIF_STAT_MEM_EN : Fld := ⟨3, 1⟩
def HIF_STAT_FW_READY : Fld := ⟨4, 1⟩
def HIF_STAT_LINK_LOST : Fld := ⟨5, 1⟩
def HIF_STAT_READ_TIMEOUT : Fld := ⟨6, 1⟩
def HIF_STAT_UNMAPPED : Fld := ⟨7, 1⟩
def HIF_STAT_WRITE_REFUSED : Fld := ⟨8, 1⟩
def HIF_LINK_WIDTH : Fld := ⟨0, 5⟩
def HIF_LINK_SPEED : Fld := ⟨5, 2⟩
def HIF_LINK_LOPT : Fld := ⟨7, 1⟩
def HIF_LINK_IDE_IO : Fld := ⟨8, 1⟩
def HIF_LINK_IDE_CM : Fld := ⟨9, 1⟩
def HIF_COUNTER_TICKS : Fld := ⟨0, 64⟩
def HIF_LOFT_BASE_ADDR : Fld := ⟨12, 52⟩
def HIF_TRUNK_BASE_ADDR : Fld := ⟨12, 52⟩
def HIF_TRUNK_SIZE_MIB : Fld := ⟨0, 16⟩
def HIF_QTABLE_COUNT_COUNT : Fld := ⟨0, 13⟩
def HIF_QTABLE_ADDR_ADDR : Fld := ⟨6, 58⟩
def HIF_QCTL_QUEUE : Fld := ⟨0, 12⟩
def HIF_QCTL_OP : Fld := ⟨12, 2⟩
def HIF_QCTL_GO : Fld := ⟨31, 1⟩
def HIF_Q_SEL_QUEUE : Fld := ⟨0, 12⟩
def HIF_Q_DATA_DATA : Fld := ⟨0, 32⟩
def HIF_DB_IGNORED_COUNT : Fld := ⟨0, 32⟩
def HIF_CPL_DROPPED_COUNT : Fld := ⟨0, 32⟩
def HIF_READ_TIMEOUTS_COUNT : Fld := ⟨0, 32⟩
def HIF_AP_POISON_COUNT : Fld := ⟨0, 32⟩
def HIF_AP_ASLEEP_COUNT : Fld := ⟨0, 32⟩
def HIF_LINK_DOWNS_COUNT : Fld := ⟨0, 16⟩
def HIF_LOFT_RD_BYTES : Fld := ⟨0, 64⟩
def HIF_LOFT_WR_BYTES : Fld := ⟨0, 64⟩
def HIF_BISNP_COUNT : Fld := ⟨0, 64⟩
def DUMP_STAT_STATE : Fld := ⟨0, 3⟩
def DUMP_STAT_RETAINED : Fld := ⟨3, 1⟩
def DUMP_STAT_FATAL : Fld := ⟨4, 1⟩
def DUMP_STAT_WRITE_REFUSED : Fld := ⟨5, 1⟩
def DUMP_STAT_CAUSE : Fld := ⟨8, 8⟩
def DUMP_CTL_TRIGGER : Fld := ⟨0, 1⟩
def DUMP_CTL_COPY : Fld := ⟨1, 1⟩
def DUMP_CTL_RETAIN_CLR : Fld := ⟨2, 1⟩
def DUMP_BYTES_BYTES : Fld := ⟨0, 32⟩
def DUMP_COUNT_COUNT : Fld := ⟨0, 32⟩
def DUMP_FLT_CTL_AUTO_REPLACE : Fld := ⟨0, 1⟩
def DUMP_FLT_CTL_STALL_MS : Fld := ⟨8, 8⟩
def DUMP_FLT_CTL_HOST_MS : Fld := ⟨16, 16⟩
def DUMP_REPLACE_STAT_STATE : Fld := ⟨0, 3⟩
def DUMP_REPLACE_STAT_DEAD : Fld := ⟨8, 8⟩
def DUMP_REPLACE_STAT_SWING : Fld := ⟨16, 8⟩
def DUMP_REPLACE_STAT_PARTITION : Fld := ⟨24, 4⟩
def DUMP_REPLACE_STAT_QUEUED : Fld := ⟨28, 4⟩
def DUMP_REPLACE_CTL_HOST_DONE : Fld := ⟨0, 1⟩
def DUMP_FAIL_CTL_PARK : Fld := ⟨0, 16⟩
def DUMP_ERR_HEAD_NEXT_SEQ : Fld := ⟨0, 32⟩
def DUMP_ERR_LOST_COUNT : Fld := ⟨0, 32⟩
def DUMP_ERR_SEL_SLOT : Fld := ⟨0, 10⟩
def DUMP_ERR_REC_0_DATA : Fld := ⟨0, 32⟩
def DUMP_ERR_REC_1_DATA : Fld := ⟨0, 32⟩
def DUMP_REPLACES_DONE : Fld := ⟨0, 16⟩
def DUMP_REPLACES_FAILED : Fld := ⟨16, 16⟩
def ID_IDENT_VENDOR : Fld := ⟨0, 16⟩
def ID_IDENT_FAMILY : Fld := ⟨16, 8⟩
def ID_IDENT_PART : Fld := ⟨32, 16⟩
def ID_REVISION_MAJOR : Fld := ⟨0, 8⟩
def ID_REVISION_MINOR : Fld := ⟨8, 8⟩
def ID_REVISION_STEPPING : Fld := ⟨16, 8⟩
def ID_PARAMS_DIES : Fld := ⟨0, 8⟩
def ID_PARAMS_CORES : Fld := ⟨8, 8⟩
def ID_PARAMS_ENGINES : Fld := ⟨16, 8⟩
def ID_PARAMS_LANES : Fld := ⟨24, 8⟩
def ID_PARAMS_W1_RACKS : Fld := ⟨0, 32⟩
def ID_PARAMS_W2_PANTRY_MIB : Fld := ⟨0, 16⟩
def ID_SERIAL_SERIAL : Fld := ⟨0, 64⟩
def SEC_BOOT_STAT_STAGE : Fld := ⟨0, 2⟩
def SEC_BOOT_STAT_COPY : Fld := ⟨2, 1⟩
def SEC_BOOT_STAT_A_BAD : Fld := ⟨3, 1⟩
def SEC_BOOT_STAT_B_BAD : Fld := ⟨4, 1⟩
def SEC_BOOT_STAT_ID_FAIL : Fld := ⟨5, 1⟩
def SEC_BOOT_STAT_ERROR : Fld := ⟨8, 8⟩
def SEC_FW_VERSION_VERSION : Fld := ⟨0, 16⟩
def SEC_FW_VERSION_SVN : Fld := ⟨16, 16⟩
def SEC_SVN_FUSED_MIN_SVN : Fld := ⟨0, 16⟩
def SEC_SVN_FUSED_REVOKED : Fld := ⟨16, 4⟩
def SEC_FW_ADDR_ADDR : Fld := ⟨12, 52⟩
def SEC_FW_LEN_BYTES : Fld := ⟨0, 23⟩
def SEC_FW_CTL_STAGE : Fld := ⟨0, 1⟩
def SEC_FW_CTL_ACTIVATE : Fld := ⟨1, 1⟩
def SEC_FW_CTL_COMMIT_SVN : Fld := ⟨2, 1⟩
def SEC_FW_CTL_REVOKE : Fld := ⟨3, 1⟩
def SEC_FW_CTL_REVOKE_SLOT : Fld := ⟨4, 2⟩
def SEC_FW_STAT_STATE : Fld := ⟨0, 3⟩
def SEC_FW_STAT_ERROR : Fld := ⟨8, 8⟩
def SEC_FW_STAT_WRITE_REFUSED : Fld := ⟨16, 1⟩
def SEC_FW_STAT_NEXT_COPY : Fld := ⟨17, 1⟩
def SEC_MEAS_DIGEST : Fld := ⟨0, 32⟩
def SEC_MEAS_COUNT_COUNT : Fld := ⟨0, 32⟩
def SEC_LOG_HEAD_NEXT_SEQ : Fld := ⟨0, 32⟩
def SEC_LOG_LOST_COUNT : Fld := ⟨0, 32⟩
def SEC_LOG_SEL_SLOT : Fld := ⟨0, 8⟩
def SEC_LOG_REC_0_DATA : Fld := ⟨0, 32⟩
def SEC_LOG_REC_1_DATA : Fld := ⟨0, 32⟩
def SEC_ID_DIGEST_DIGEST : Fld := ⟨0, 32⟩
def NRM_COMMIT_STATUS_RESULT : Fld := ⟨0, 2⟩
def NRM_COMMIT_STATUS_CHECK : Fld := ⟨8, 8⟩
def NRM_COMMIT_STATUS_WORD : Fld := ⟨16, 8⟩
def NRM_COMMIT_STATUS_SEQ : Fld := ⟨24, 8⟩

end Fl

/-! ## Descriptors, by block -/

/-- The registers of the CORE block. -/
def regsCore : List RegDesc := [
  /- CORE_ID -/ ⟨0x0, 1, 0x0, 1, 0x0, false,
    [⟨0, 8, .ro, .none, false, 0⟩, ⟨8, 6, .ro, .none, false, 0⟩, ⟨14, 2, .ro, .none, true, 0⟩, ⟨16, 4, .ro, .none, false, 0⟩, ⟨20, 1, .ro, .none, false, 0⟩, ⟨21, 1, .ro, .none, false, 0⟩, ⟨22, 10, .ro, .none, true, 0⟩]⟩,
  /- CORE_STAT -/ ⟨0x4, 1, 0x0, 1, 0x0, false,
    [⟨0, 1, .w1c, .none, false, 0⟩, ⟨1, 1, .w1c, .none, false, 0⟩, ⟨2, 1, .w1c, .none, false, 0⟩, ⟨3, 1, .w1c, .none, false, 0⟩, ⟨4, 1, .w1c, .none, false, 0⟩, ⟨5, 1, .w1c, .none, false, 0⟩, ⟨6, 1, .w1c, .none, false, 0⟩, ⟨7, 1, .ro, .none, false, 0⟩, ⟨8, 1, .w1c, .none, false, 0⟩, ⟨9, 1, .ro, .none, false, 1⟩, ⟨10, 22, .ro, .none, true, 0⟩]⟩,
  /- CORE_ECC_COUNT -/ ⟨0x8, 1, 0x0, 1, 0x0, false,
    [⟨0, 16, .ro, .none, false, 0⟩, ⟨16, 16, .ro, .none, false, 0⟩]⟩,
  /- CORE_NET_LIMIT -/ ⟨0xC, 1, 0x0, 1, 0x0, false,
    [⟨0, 16, .rw, .live, false, 0x100⟩, ⟨16, 16, .ro, .none, true, 0⟩]⟩,
  /- CORE_WAIT_LIMIT -/ ⟨0x10, 1, 0x0, 1, 0x0, false,
    [⟨0, 16, .rw, .live, false, 0⟩, ⟨16, 16, .ro, .none, true, 0⟩]⟩,
  /- CORE_SCRUB -/ ⟨0x14, 1, 0x0, 1, 0x0, false,
    [⟨0, 1, .wo, .none, false, 0⟩, ⟨1, 31, .wo, .none, true, 0⟩]⟩,
  /- CORE_RX_COUNT -/ ⟨0x18, 1, 0x0, 1, 0x0, true,
    [⟨0, 64, .ro, .none, false, 0⟩]⟩,
  /- CORE_TX_COUNT -/ ⟨0x20, 1, 0x0, 1, 0x0, true,
    [⟨0, 64, .ro, .none, false, 0⟩]⟩]

/-- The registers of the SEQ block. -/
def regsSeq : List RegDesc := [
  /- SEQ_CTL -/ ⟨0x0, 1, 0x0, 1, 0x0, false,
    [⟨0, 1, .wo, .none, false, 0⟩, ⟨1, 1, .wo, .none, false, 0⟩, ⟨2, 1, .wo, .none, false, 0⟩, ⟨3, 29, .wo, .none, true, 0⟩]⟩,
  /- SEQ_STAT -/ ⟨0x4, 1, 0x0, 1, 0x0, false,
    [⟨0, 2, .ro, .none, false, 0⟩, ⟨2, 1, .ro, .none, false, 0⟩, ⟨3, 1, .w1c, .none, false, 0⟩, ⟨4, 1, .w1c, .none, false, 0⟩, ⟨5, 1, .ro, .none, false, 0⟩, ⟨6, 1, .ro, .none, false, 0⟩, ⟨7, 1, .w1c, .none, false, 0⟩, ⟨8, 24, .ro, .none, true, 0⟩]⟩,
  /- SEQ_PC -/ ⟨0x8, 1, 0x0, 1, 0x0, false,
    [⟨0, 15, .ro, .none, false, 0⟩, ⟨15, 17, .ro, .none, true, 0⟩]⟩,
  /- SEQ_START_PC -/ ⟨0xC, 1, 0x0, 1, 0x0, false,
    [⟨0, 15, .rw, .quiesced, false, 0⟩, ⟨15, 17, .ro, .none, true, 0⟩]⟩,
  /- SEQ_HANDLER -/ ⟨0x10, 1, 0x0, 1, 0x0, false,
    [⟨0, 15, .rw, .quiesced, false, 0⟩, ⟨15, 1, .rw, .quiesced, false, 0⟩, ⟨16, 16, .ro, .none, true, 0⟩]⟩,
  /- SEQ_CODE_LIM -/ ⟨0x14, 1, 0x0, 1, 0x0, false,
    [⟨0, 15, .rw, .quiesced, false, 0⟩, ⟨15, 1, .ro, .none, true, 0⟩, ⟨16, 15, .rw, .quiesced, false, 0x7fff⟩, ⟨31, 1, .ro, .none, true, 0⟩]⟩,
  /- SEQ_EXC -/ ⟨0x18, 1, 0x0, 1, 0x0, false,
    [⟨0, 8, .ro, .none, false, 0⟩, ⟨8, 4, .ro, .none, false, 0⟩, ⟨12, 6, .ro, .none, false, 0⟩, ⟨18, 14, .ro, .none, true, 0⟩]⟩,
  /- SEQ_EPC -/ ⟨0x1C, 1, 0x0, 1, 0x0, false,
    [⟨0, 15, .ro, .none, false, 0⟩, ⟨15, 17, .ro, .none, true, 0⟩]⟩,
  /- SEQ_ISSUED -/ ⟨0x20, 1, 0x0, 1, 0x0, true,
    [⟨0, 64, .ro, .none, false, 0⟩]⟩,
  /- SEQ_TOKEN -/ ⟨0x40, 16, 0x4, 1, 0x0, false,
    [⟨0, 2, .ro, .none, false, 0⟩, ⟨2, 6, .ro, .none, true, 0⟩, ⟨8, 8, .ro, .none, false, 0⟩, ⟨16, 16, .ro, .none, true, 0⟩]⟩,
  /- SEQ_CODE_ADDR -/ ⟨0x80, 1, 0x0, 1, 0x0, false,
    [⟨0, 15, .rw, .live, false, 0⟩, ⟨15, 17, .ro, .none, true, 0⟩]⟩,
  /- SEQ_CODE_DATA -/ ⟨0x88, 1, 0x0, 1, 0x0, true,
    [⟨0, 64, .rw, .quiesced, false, 0⟩]⟩,
  /- SEQ_G -/ ⟨0x100, 32, 0x8, 1, 0x0, true,
    [⟨0, 64, .rw, .quiesced, false, 0⟩]⟩,
  /- SEQ_A -/ ⟨0x200, 8, 0x4, 1, 0x0, false,
    [⟨0, 32, .rw, .quiesced, false, 0⟩]⟩,
  /- SEQ_SIG -/ ⟨0x300, 64, 0x4, 1, 0x0, false,
    [⟨0, 32, .rw, .quiesced, false, 0⟩]⟩]

/-- The registers of the WDS block. -/
def regsWds : List RegDesc := [
  /- WDS_WIN_BASE -/ ⟨0x0, 64, 0x20, 1, 0x0, false,
    [⟨0, 6, .ro, .none, true, 0⟩, ⟨6, 21, .rw, .staged, false, 0⟩, ⟨27, 5, .ro, .none, true, 0⟩]⟩,
  /- WDS_WIN_LEN -/ ⟨0x4, 64, 0x20, 1, 0x0, false,
    [⟨0, 6, .ro, .none, true, 0⟩, ⟨6, 22, .rw, .staged, false, 0⟩, ⟨28, 4, .ro, .none, true, 0⟩]⟩,
  /- WDS_WIN_CTL -/ ⟨0x8, 64, 0x20, 1, 0x0, false,
    [⟨0, 2, .ro, .none, false, 0⟩, ⟨2, 1, .rw, .live, false, 0⟩, ⟨3, 1, .wo, .none, false, 0⟩, ⟨4, 4, .ro, .none, true, 0⟩, ⟨8, 3, .ro, .none, false, 0⟩, ⟨11, 5, .ro, .none, true, 0⟩, ⟨16, 16, .ro, .none, false, 0⟩]⟩,
  /- WDS_WIN_COUNT -/ ⟨0xC, 64, 0x20, 1, 0x0, false,
    [⟨0, 32, .ro, .none, false, 0⟩]⟩,
  /- WDS_WIN_TARGET -/ ⟨0x10, 64, 0x20, 1, 0x0, false,
    [⟨0, 32, .ro, .none, false, 0⟩]⟩,
  /- WDS_WIN_LATE_COUNT -/ ⟨0x14, 64, 0x20, 1, 0x0, false,
    [⟨0, 32, .ro, .none, false, 0⟩]⟩,
  /- WDS_WIN_COMMIT -/ ⟨0x18, 64, 0x20, 1, 0x0, false,
    [⟨0, 1, .wo, .none, false, 0⟩, ⟨1, 31, .wo, .none, true, 0⟩]⟩,
  /- WDS_WIN_COMMIT_STATUS -/ ⟨0x1C, 64, 0x20, 1, 0x0, false,
    [⟨0, 2, .ro, .none, false, 0⟩, ⟨2, 6, .ro, .none, true, 0⟩, ⟨8, 8, .ro, .none, false, 0⟩, ⟨16, 8, .ro, .none, false, 0⟩, ⟨24, 8, .ro, .none, false, 0⟩]⟩]

/-- The registers of the ENG block. -/
def regsEng : List RegDesc := [
  /- ENG_AVAIL -/ ⟨0x0, 1, 0x0, 1, 0x0, false,
    [⟨0, 24, .ro, .none, false, 0xffffff⟩, ⟨24, 8, .ro, .none, true, 0⟩]⟩,
  /- ENG_BUSY -/ ⟨0x4, 1, 0x0, 1, 0x0, false,
    [⟨0, 24, .ro, .none, false, 0⟩, ⟨24, 8, .ro, .none, true, 0⟩]⟩,
  /- ENG_QUAD -/ ⟨0x8, 1, 0x0, 1, 0x0, false,
    [⟨0, 24, .ro, .none, false, 0⟩, ⟨24, 8, .ro, .none, true, 0⟩]⟩,
  /- ENG_ACTIVE -/ ⟨0x100, 24, 0x20, 1, 0x0, true,
    [⟨0, 64, .ro, .none, false, 0⟩]⟩,
  /- ENG_ROW_STALL -/ ⟨0x108, 24, 0x20, 1, 0x0, false,
    [⟨0, 32, .ro, .none, false, 0⟩]⟩,
  /- ENG_COL_STALL -/ ⟨0x10C, 24, 0x20, 1, 0x0, false,
    [⟨0, 32, .ro, .none, false, 0⟩]⟩,
  /- ENG_TILES -/ ⟨0x110, 24, 0x20, 1, 0x0, false,
    [⟨0, 32, .ro, .none, false, 0⟩]⟩]

/-- The registers of the VEC block. -/
def regsVec : List RegDesc := [
  /- VEC_STAT -/ ⟨0x0, 1, 0x0, 1, 0x0, false,
    [⟨0, 1, .ro, .none, false, 0⟩, ⟨1, 31, .ro, .none, true, 0⟩]⟩,
  /- VEC_OPS -/ ⟨0x8, 1, 0x0, 1, 0x0, true,
    [⟨0, 64, .ro, .none, false, 0⟩]⟩,
  /- VEC_ELEMS -/ ⟨0x10, 1, 0x0, 1, 0x0, true,
    [⟨0, 64, .ro, .none, false, 0⟩]⟩]

/-- The registers of the RND block. -/
def regsRnd : List RegDesc := [
  /- RND_CTL -/ ⟨0x0, 1, 0x0, 1, 0x0, false,
    [⟨0, 1, .rw, .live, false, 0⟩, ⟨1, 1, .rw, .live, false, 0⟩, ⟨2, 1, .rw, .live, false, 0⟩, ⟨3, 29, .ro, .none, true, 0⟩]⟩,
  /- RND_STATUS -/ ⟨0x4, 1, 0x0, 1, 0x0, false,
    [⟨0, 1, .w1c, .none, false, 0⟩, ⟨1, 1, .w1c, .none, false, 0⟩, ⟨2, 1, .w1c, .none, false, 0⟩, ⟨3, 1, .w1c, .none, false, 0⟩, ⟨4, 28, .ro, .none, true, 0⟩]⟩,
  /- RND_SAT_COUNT -/ ⟨0x8, 1, 0x0, 1, 0x0, false,
    [⟨0, 32, .ro, .none, false, 0⟩]⟩,
  /- RND_SAT_COUNT_CLEAR -/ ⟨0xC, 1, 0x0, 1, 0x0, false,
    [⟨0, 32, .wo, .none, false, 0⟩]⟩]

/-- The registers of the NRM block. -/
def regsNrm : List RegDesc := [
  /- NRM_CTL -/ ⟨0x0, 1, 0x0, 1, 0x0, false,
    [⟨0, 1, .rw, .staged, false, 0⟩, ⟨1, 1, .rw, .staged, false, 1⟩, ⟨2, 1, .rw, .staged, false, 0⟩, ⟨3, 1, .rw, .staged, false, 0⟩, ⟨4, 1, .rw, .staged, false, 1⟩, ⟨5, 3, .ro, .none, true, 0⟩, ⟨8, 8, .rw, .staged, false, 0x20⟩, ⟨16, 8, .rw, .staged, false, 0⟩, ⟨24, 4, .rw, .staged, false, 6⟩, ⟨28, 4, .ro, .none, true, 0⟩]⟩,
  /- NRM_WARMUP -/ ⟨0x4, 1, 0x0, 1, 0x0, false,
    [⟨0, 16, .rw, .staged, false, 0x40⟩, ⟨16, 16, .ro, .none, true, 0⟩]⟩,
  /- NRM_FLOOR -/ ⟨0x8, 1, 0x0, 1, 0x0, false,
    [⟨0, 32, .rw, .staged, false, 0x34000000⟩]⟩,
  /- NRM_COMMIT -/ ⟨0xC, 1, 0x0, 1, 0x0, false,
    [⟨0, 1, .wo, .none, false, 0⟩, ⟨1, 31, .wo, .none, true, 0⟩]⟩,
  /- NRM_PT_CFG -/ ⟨0x20, 8, 0x4, 1, 0x0, false,
    [⟨0, 1, .rw, .staged, false, 0⟩, ⟨1, 1, .rw, .staged, false, 0⟩, ⟨2, 2, .ro, .none, true, 0⟩, ⟨4, 12, .rw, .staged, false, 0⟩, ⟨16, 16, .ro, .none, true, 0⟩]⟩,
  /- NRM_PT_MS -/ ⟨0x40, 8, 0x4, 1, 0x0, false,
    [⟨0, 32, .ro, .none, false, 0⟩]⟩,
  /- NRM_PT_COUNT -/ ⟨0x60, 8, 0x4, 1, 0x0, false,
    [⟨0, 16, .ro, .none, false, 0⟩, ⟨16, 16, .ro, .none, false, 0⟩]⟩,
  /- NRM_EVENT -/ ⟨0x80, 1, 0x0, 1, 0x0, false,
    [⟨0, 8, .w1c, .none, false, 0⟩, ⟨8, 1, .w1c, .none, false, 0⟩, ⟨9, 1, .w1c, .none, false, 0⟩, ⟨10, 22, .ro, .none, true, 0⟩]⟩,
  /- NRM_COMMIT_STATUS -/ ⟨0x10, 1, 0x0, 1, 0x0, false,
    [⟨0, 2, .ro, .none, false, 0⟩, ⟨2, 6, .ro, .none, true, 0⟩, ⟨8, 8, .ro, .none, false, 0⟩, ⟨16, 8, .ro, .none, false, 0⟩, ⟨24, 8, .ro, .none, false, 0⟩]⟩]

/-- The registers of the RACK block. -/
def regsRack : List RegDesc := [
  /- RACK_STAT -/ ⟨0x0, 1, 0x0, 1, 0x0, false,
    [⟨0, 1, .w1c, .none, false, 0⟩, ⟨1, 1, .w1c, .none, false, 0⟩, ⟨2, 1, .w1c, .none, false, 0⟩, ⟨3, 1, .w1c, .none, false, 0⟩, ⟨4, 1, .w1c, .none, false, 0⟩, ⟨5, 1, .w1c, .none, false, 0⟩, ⟨6, 26, .ro, .none, true, 0⟩]⟩,
  /- RACK_SAT_TOTAL -/ ⟨0x4, 1, 0x0, 1, 0x0, false,
    [⟨0, 32, .ro, .none, false, 0⟩]⟩,
  /- RACK_EVAL_COUNT -/ ⟨0x8, 1, 0x0, 1, 0x0, true,
    [⟨0, 64, .ro, .none, false, 0⟩]⟩,
  /- RACK_SKIP_COUNT -/ ⟨0x10, 1, 0x0, 1, 0x0, true,
    [⟨0, 64, .ro, .none, false, 0⟩]⟩,
  /- RACK_QUIET_DELAY -/ ⟨0x18, 1, 0x0, 1, 0x0, false,
    [⟨0, 32, .ro, .none, false, 0⟩]⟩,
  /- RACK_REC_SEL -/ ⟨0x20, 1, 0x0, 1, 0x0, false,
    [⟨0, 14, .rw, .live, false, 0⟩, ⟨14, 1, .rw, .live, false, 0⟩, ⟨15, 17, .ro, .none, true, 0⟩]⟩,
  /- RACK_REC_DATA_0 -/ ⟨0x24, 1, 0x0, 1, 0x0, false,
    [⟨0, 32, .ro, .none, false, 0⟩]⟩,
  /- RACK_REC_DATA_1 -/ ⟨0x28, 3, 0x4, 1, 0x0, false,
    [⟨0, 32, .ro, .none, false, 0⟩]⟩,
  /- RACK_CAPTURE_CTL -/ ⟨0x40, 1, 0x0, 1, 0x0, false,
    [⟨0, 14, .rw, .live, false, 0⟩, ⟨14, 2, .rw, .live, false, 0⟩, ⟨16, 8, .rw, .live, false, 0⟩, ⟨24, 1, .rw, .live, false, 0⟩, ⟨25, 1, .ro, .none, false, 0⟩, ⟨26, 6, .ro, .none, true, 0⟩]⟩,
  /- RACK_CAPTURE_DATA -/ ⟨0x50, 8, 0x4, 1, 0x0, false,
    [⟨0, 16, .ro, .none, false, 0⟩, ⟨16, 16, .ro, .none, false, 0⟩]⟩]

/-- The registers of the RIF block. -/
def regsRif : List RegDesc := [
  /- RIF_OWNER -/ ⟨0x0, 1, 0x0, 1, 0x0, false,
    [⟨0, 8, .ro, .none, false, 0⟩, ⟨8, 1, .ro, .none, false, 0⟩, ⟨9, 23, .ro, .none, true, 0⟩]⟩,
  /- RIF_BORROW -/ ⟨0x4, 1, 0x0, 1, 0x0, false,
    [⟨0, 1, .rw, .quiesced, false, 0⟩, ⟨1, 3, .rw, .quiesced, false, 0⟩, ⟨4, 1, .ro, .none, false, 0⟩, ⟨5, 27, .ro, .none, true, 0⟩]⟩,
  /- RIF_QUEUE -/ ⟨0x8, 1, 0x0, 1, 0x0, false,
    [⟨0, 7, .ro, .none, false, 0⟩, ⟨7, 1, .ro, .none, true, 0⟩, ⟨8, 11, .ro, .none, false, 0⟩, ⟨19, 13, .ro, .none, true, 0⟩]⟩,
  /- RIF_STAT -/ ⟨0xC, 1, 0x0, 1, 0x0, false,
    [⟨0, 1, .w1c, .none, false, 0⟩, ⟨1, 1, .w1c, .none, false, 0⟩, ⟨2, 1, .w1c, .none, false, 0⟩, ⟨3, 1, .w1c, .none, false, 0⟩, ⟨4, 28, .ro, .none, true, 0⟩]⟩]

/-- The registers of the STG block. -/
def regsStg : List RegDesc := [
  /- STG_CORE_STATE -/ ⟨0x0, 2, 0x4, 1, 0x0, false,
    [⟨0, 24, .ro, .none, false, 0x924924⟩, ⟨24, 8, .ro, .none, true, 0⟩]⟩,
  /- STG_WAKE -/ ⟨0x8, 1, 0x0, 1, 0x0, false,
    [⟨0, 16, .wo, .none, false, 0⟩, ⟨16, 16, .wo, .none, true, 0⟩]⟩,
  /- STG_SLEEP_CFG -/ ⟨0xC, 1, 0x0, 1, 0x0, false,
    [⟨0, 16, .rw, .live, false, 0x3e8⟩, ⟨16, 15, .rw, .live, false, 0x64⟩, ⟨31, 1, .rw, .live, false, 1⟩]⟩,
  /- STG_REG_STAT -/ ⟨0x10, 1, 0x0, 1, 0x0, false,
    [⟨0, 6, .ro, .none, false, 0⟩, ⟨6, 1, .ro, .none, false, 0⟩, ⟨7, 1, .ro, .none, false, 0⟩, ⟨8, 1, .ro, .none, false, 0⟩, ⟨9, 1, .ro, .none, false, 0⟩, ⟨10, 1, .w1c, .none, false, 0⟩, ⟨11, 1, .w1c, .none, false, 0⟩, ⟨12, 1, .w1c, .none, false, 0⟩, ⟨13, 19, .ro, .none, true, 0⟩]⟩,
  /- STG_REG_FAIL -/ ⟨0x18, 1, 0x0, 1, 0x0, true,
    [⟨0, 48, .ro, .none, false, 0⟩, ⟨48, 16, .ro, .none, true, 0⟩]⟩,
  /- STG_SHORT_CLR -/ ⟨0x20, 1, 0x0, 1, 0x0, false,
    [⟨0, 1, .wo, .none, false, 0⟩, ⟨1, 31, .wo, .none, true, 0⟩]⟩]

/-- The registers of the ARB block. -/
def regsArb : List RegDesc := [
  /- ARB_CAP -/ ⟨0x0, 1, 0x0, 1, 0x0, false,
    [⟨0, 16, .ro, .none, false, 0⟩, ⟨16, 4, .ro, .none, false, 0⟩, ⟨20, 12, .ro, .none, true, 0⟩]⟩,
  /- ARB_LOAD -/ ⟨0x4, 1, 0x0, 1, 0x0, false,
    [⟨0, 16, .ro, .none, false, 0⟩, ⟨16, 16, .ro, .none, false, 0⟩]⟩,
  /- ARB_QUEUE -/ ⟨0x8, 1, 0x0, 1, 0x0, false,
    [⟨0, 5, .ro, .none, false, 0⟩, ⟨5, 11, .ro, .none, true, 0⟩, ⟨16, 16, .ro, .none, false, 0⟩]⟩,
  /- ARB_WEIGHT -/ ⟨0xC, 1, 0x0, 1, 0x0, false,
    [⟨0, 16, .rw, .live, false, 0x352⟩, ⟨16, 16, .rw, .live, false, 0x60e⟩]⟩,
  /- ARB_SKIP -/ ⟨0x10, 1, 0x0, 1, 0x0, false,
    [⟨0, 2, .ro, .none, false, 0⟩, ⟨2, 2, .ro, .none, true, 0⟩, ⟨4, 4, .ro, .none, false, 0⟩, ⟨8, 24, .ro, .none, true, 0⟩]⟩,
  /- ARB_GRANTS -/ ⟨0x18, 1, 0x0, 1, 0x0, true,
    [⟨0, 64, .ro, .none, false, 0⟩]⟩,
  /- ARB_WAITS -/ ⟨0x20, 1, 0x0, 1, 0x0, false,
    [⟨0, 32, .ro, .none, false, 0⟩]⟩,
  /- ARB_CLAIM -/ ⟨0x40, 16, 0x4, 1, 0x0, false,
    [⟨0, 10, .ro, .none, false, 0⟩, ⟨10, 5, .ro, .none, false, 0⟩, ⟨15, 1, .ro, .none, false, 0⟩, ⟨16, 10, .ro, .none, false, 0⟩, ⟨26, 5, .ro, .none, false, 0⟩, ⟨31, 1, .ro, .none, false, 0⟩]⟩]

/-- The registers of the CNV block. -/
def regsCnv : List RegDesc := [
  /- CNV_STAT -/ ⟨0x0, 1, 0x0, 1, 0x0, false,
    [⟨0, 1, .ro, .none, false, 0⟩, ⟨1, 1, .ro, .none, false, 0⟩, ⟨2, 1, .ro, .none, false, 0⟩, ⟨3, 1, .w1c, .none, false, 0⟩, ⟨4, 1, .w1c, .none, false, 0⟩, ⟨5, 11, .ro, .none, true, 0⟩, ⟨16, 16, .ro, .none, false, 0⟩]⟩,
  /- CNV_LIST -/ ⟨0x40, 32, 0x4, 1, 0x0, false,
    [⟨0, 5, .ro, .none, false, 0⟩, ⟨5, 2, .ro, .none, false, 3⟩, ⟨7, 1, .ro, .none, true, 0⟩, ⟨8, 8, .ro, .none, false, 0⟩, ⟨16, 16, .ro, .none, true, 0⟩]⟩,
  /- CNV_ACC -/ ⟨0x100, 32, 0x10, 1, 0x0, false,
    [⟨0, 32, .ro, .none, false, 0⟩]⟩,
  /- CNV_ACC_W1 -/ ⟨0x104, 32, 0x10, 1, 0x0, false,
    [⟨0, 16, .ro, .none, false, 0⟩, ⟨16, 16, .ro, .none, true, 0⟩]⟩,
  /- CNV_ACC_W2 -/ ⟨0x108, 32, 0x10, 1, 0x0, false,
    [⟨0, 12, .ro, .none, false, 0⟩, ⟨12, 4, .ro, .none, true, 0⟩, ⟨16, 12, .ro, .none, false, 0⟩, ⟨28, 4, .ro, .none, true, 0⟩]⟩,
  /- CNV_ACC_W3 -/ ⟨0x10C, 32, 0x10, 1, 0x0, false,
    [⟨0, 32, .ro, .none, false, 0⟩]⟩]

/-- The registers of the THR block. -/
def regsThr : List RegDesc := [
  /- THR_DUR -/ ⟨0x8, 9, 0x8, 1, 0x0, true,
    [⟨0, 64, .ro, .none, false, 0⟩]⟩,
  /- THR_ACTIVE -/ ⟨0x50, 1, 0x0, 1, 0x0, false,
    [⟨0, 1, .ro, .none, true, 0⟩, ⟨1, 9, .ro, .none, false, 0⟩, ⟨10, 22, .ro, .none, true, 0⟩]⟩,
  /- THR_LOG_HEAD -/ ⟨0x54, 1, 0x0, 1, 0x0, false,
    [⟨0, 32, .ro, .none, false, 0⟩]⟩,
  /- THR_LOG_LOST -/ ⟨0x58, 1, 0x0, 1, 0x0, false,
    [⟨0, 32, .ro, .none, false, 0⟩]⟩,
  /- THR_LOG_SEL -/ ⟨0x5C, 1, 0x0, 1, 0x0, false,
    [⟨0, 6, .rw, .live, false, 0⟩, ⟨6, 26, .ro, .none, true, 0⟩]⟩,
  /- THR_LOG_REC_0 -/ ⟨0x60, 1, 0x0, 1, 0x0, false,
    [⟨0, 32, .ro, .none, false, 0⟩]⟩,
  /- THR_LOG_REC_1 -/ ⟨0x64, 3, 0x4, 1, 0x0, false,
    [⟨0, 32, .ro, .none, false, 0⟩]⟩,
  /- THR_DROOP -/ ⟨0x100, 16, 0x4, 1, 0x0, false,
    [⟨0, 32, .ro, .none, false, 0⟩]⟩]

/-- The registers of the ID block. -/
def regsId : List RegDesc := [
  /- ID_IDENT -/ ⟨0x0, 1, 0x0, 1, 0x0, true,
    [⟨0, 16, .ro, .none, false, 0x4b58⟩, ⟨16, 8, .ro, .none, false, 0x1c⟩, ⟨24, 8, .ro, .none, true, 0⟩, ⟨32, 16, .ro, .none, false, 0x640⟩, ⟨48, 16, .ro, .none, true, 0⟩]⟩,
  /- ID_REVISION -/ ⟨0x8, 1, 0x0, 1, 0x0, false,
    [⟨0, 8, .ro, .none, false, 2⟩, ⟨8, 8, .ro, .none, false, 0⟩, ⟨16, 8, .ro, .none, false, 0x10⟩, ⟨24, 8, .ro, .none, true, 0⟩]⟩,
  /- ID_PARAMS -/ ⟨0x10, 1, 0x0, 1, 0x0, false,
    [⟨0, 8, .ro, .none, false, 0x20⟩, ⟨8, 8, .ro, .none, false, 8⟩, ⟨16, 8, .ro, .none, false, 0x18⟩, ⟨24, 8, .ro, .none, false, 4⟩]⟩,
  /- ID_PARAMS_W1 -/ ⟨0x14, 1, 0x0, 1, 0x0, false,
    [⟨0, 32, .ro, .none, false, 0x1e000⟩]⟩,
  /- ID_PARAMS_W2 -/ ⟨0x18, 1, 0x0, 1, 0x0, false,
    [⟨0, 16, .ro, .none, false, 0x80⟩, ⟨16, 16, .ro, .none, true, 0⟩]⟩,
  /- ID_SERIAL -/ ⟨0x20, 1, 0x0, 1, 0x0, true,
    [⟨0, 64, .ro, .none, false, 0⟩]⟩]

/-- The registers of the HIF block. -/
def regsHif : List RegDesc := [
  /- HIF_STAT -/ ⟨0x0, 1, 0x0, 1, 0x0, false,
    [⟨0, 1, .ro, .none, false, 0⟩, ⟨1, 1, .ro, .none, false, 0⟩, ⟨2, 1, .ro, .none, false, 0⟩, ⟨3, 1, .ro, .none, false, 0⟩, ⟨4, 1, .ro, .none, false, 0⟩, ⟨5, 1, .w1c, .none, false, 0⟩, ⟨6, 1, .w1c, .none, false, 0⟩, ⟨7, 1, .w1c, .none, false, 0⟩, ⟨8, 1, .w1c, .none, false, 0⟩, ⟨9, 23, .ro, .none, true, 0⟩]⟩,
  /- HIF_LINK -/ ⟨0x4, 1, 0x0, 1, 0x0, false,
    [⟨0, 5, .ro, .none, false, 0⟩, ⟨5, 2, .ro, .none, false, 0⟩, ⟨7, 1, .ro, .none, false, 0⟩, ⟨8, 1, .ro, .none, false, 0⟩, ⟨9, 1, .ro, .none, false, 0⟩, ⟨10, 22, .ro, .none, true, 0⟩]⟩,
  /- HIF_COUNTER -/ ⟨0x8, 1, 0x0, 1, 0x0, true,
    [⟨0, 64, .ro, .none, false, 0⟩]⟩,
  /- HIF_LOFT_BASE -/ ⟨0x10, 1, 0x0, 1, 0x0, true,
    [⟨0, 12, .ro, .none, true, 0⟩, ⟨12, 52, .rw, .quiesced, false, 0⟩]⟩,
  /- HIF_TRUNK_BASE -/ ⟨0x18, 1, 0x0, 1, 0x0, true,
    [⟨0, 12, .ro, .none, true, 0⟩, ⟨12, 52, .rw, .live, false, 0⟩]⟩,
  /- HIF_TRUNK_SIZE -/ ⟨0x20, 1, 0x0, 1, 0x0, false,
    [⟨0, 16, .rw, .live, false, 0⟩, ⟨16, 16, .ro, .none, true, 0⟩]⟩,
  /- HIF_QTABLE_COUNT -/ ⟨0x24, 1, 0x0, 1, 0x0, false,
    [⟨0, 13, .rw, .quiesced, false, 0⟩, ⟨13, 19, .ro, .none, true, 0⟩]⟩,
  /- HIF_QTABLE_ADDR -/ ⟨0x28, 1, 0x0, 1, 0x0, true,
    [⟨0, 6, .ro, .none, true, 0⟩, ⟨6, 58, .rw, .quiesced, false, 0⟩]⟩,
  /- HIF_QCTL -/ ⟨0x30, 1, 0x0, 1, 0x0, false,
    [⟨0, 12, .wo, .none, false, 0⟩, ⟨12, 2, .wo, .none, false, 0⟩, ⟨14, 17, .wo, .none, true, 0⟩, ⟨31, 1, .wo, .none, false, 0⟩]⟩,
  /- HIF_Q_SEL -/ ⟨0x34, 1, 0x0, 1, 0x0, false,
    [⟨0, 12, .rw, .live, false, 0⟩, ⟨12, 20, .ro, .none, true, 0⟩]⟩,
  /- HIF_Q_DATA -/ ⟨0x38, 4, 0x4, 1, 0x0, false,
    [⟨0, 32, .ro, .none, false, 0⟩]⟩,
  /- HIF_DB_IGNORED -/ ⟨0x48, 1, 0x0, 1, 0x0, false,
    [⟨0, 32, .ro, .none, false, 0⟩]⟩,
  /- HIF_CPL_DROPPED -/ ⟨0x4C, 1, 0x0, 1, 0x0, false,
    [⟨0, 32, .ro, .none, false, 0⟩]⟩,
  /- HIF_READ_TIMEOUTS -/ ⟨0x50, 1, 0x0, 1, 0x0, false,
    [⟨0, 32, .ro, .none, false, 0⟩]⟩,
  /- HIF_AP_POISON -/ ⟨0x54, 1, 0x0, 1, 0x0, false,
    [⟨0, 32, .ro, .none, false, 0⟩]⟩,
  /- HIF_AP_ASLEEP -/ ⟨0x58, 1, 0x0, 1, 0x0, false,
    [⟨0, 32, .ro, .none, false, 0⟩]⟩,
  /- HIF_LINK_DOWNS -/ ⟨0x5C, 1, 0x0, 1, 0x0, false,
    [⟨0, 16, .ro, .none, false, 0⟩, ⟨16, 16, .ro, .none, true, 0⟩]⟩,
  /- HIF_LOFT_RD -/ ⟨0x60, 1, 0x0, 1, 0x0, true,
    [⟨0, 64, .ro, .none, false, 0⟩]⟩,
  /- HIF_LOFT_WR -/ ⟨0x68, 1, 0x0, 1, 0x0, true,
    [⟨0, 64, .ro, .none, false, 0⟩]⟩,
  /- HIF_BISNP -/ ⟨0x70, 1, 0x0, 1, 0x0, true,
    [⟨0, 64, .ro, .none, false, 0⟩]⟩]

/-- The registers of the SRV block. -/
def regsSrv : List RegDesc := [
  /- SRV_KV_CTL -/ ⟨0x8000, 16, 0x40, 1, 0x0, false,
    [⟨0, 1, .rw, .staged, false, 0⟩, ⟨1, 1, .rw, .staged, false, 0⟩, ⟨2, 6, .ro, .none, true, 0⟩, ⟨8, 8, .rw, .staged, false, 8⟩, ⟨16, 8, .rw, .staged, false, 0x10⟩, ⟨24, 8, .ro, .none, true, 0⟩]⟩,
  /- SRV_KV_SHARE -/ ⟨0x8004, 16, 0x40, 1, 0x0, false,
    [⟨0, 8, .rw, .staged, false, 0x40⟩, ⟨8, 24, .ro, .none, true, 0⟩]⟩,
  /- SRV_KV_BUCKET_0 -/ ⟨0x8008, 16, 0x40, 1, 0x0, false,
    [⟨0, 16, .rw, .staged, false, 0x40⟩, ⟨16, 16, .rw, .staged, false, 0x80⟩]⟩,
  /- SRV_KV_BUCKET_1 -/ ⟨0x800C, 16, 0x40, 1, 0x0, false,
    [⟨0, 16, .rw, .staged, false, 0x100⟩, ⟨16, 16, .rw, .staged, false, 0x200⟩]⟩,
  /- SRV_KV_BUCKET_2 -/ ⟨0x8010, 16, 0x40, 1, 0x0, false,
    [⟨0, 16, .rw, .staged, false, 0x400⟩, ⟨16, 16, .rw, .staged, false, 0x800⟩]⟩,
  /- SRV_KV_BUCKET_3 -/ ⟨0x8014, 16, 0x40, 1, 0x0, false,
    [⟨0, 16, .rw, .staged, false, 0x1000⟩, ⟨16, 16, .ro, .none, true, 0⟩]⟩,
  /- SRV_KV_COMMIT -/ ⟨0x8018, 16, 0x40, 1, 0x0, false,
    [⟨0, 1, .wo, .none, false, 0⟩, ⟨1, 31, .wo, .none, true, 0⟩]⟩,
  /- SRV_KV_COMMIT_STATUS -/ ⟨0x801C, 16, 0x40, 1, 0x0, false,
    [⟨0, 2, .ro, .none, false, 0⟩, ⟨2, 6, .ro, .none, true, 0⟩, ⟨8, 8, .ro, .none, false, 0⟩, ⟨16, 8, .ro, .none, false, 0⟩, ⟨24, 8, .ro, .none, false, 0⟩]⟩,
  /- SRV_KV_STAT -/ ⟨0x8020, 16, 0x40, 1, 0x0, false,
    [⟨0, 1, .w1c, .none, false, 0⟩, ⟨1, 1, .w1c, .none, false, 0⟩, ⟨2, 1, .w1c, .none, false, 0⟩, ⟨3, 1, .w1c, .none, false, 0⟩, ⟨4, 1, .w1c, .none, false, 0⟩, ⟨5, 1, .w1c, .none, false, 0⟩, ⟨6, 26, .ro, .none, true, 0⟩]⟩,
  /- SRV_KV_REFUSED -/ ⟨0x8024, 16, 0x40, 1, 0x0, false,
    [⟨0, 32, .ro, .none, false, 0⟩]⟩,
  /- SRV_KV_RECALL_HITS -/ ⟨0x8028, 16, 0x40, 1, 0x0, false,
    [⟨0, 32, .ro, .none, false, 0⟩]⟩,
  /- SRV_KV_RECALL_MISSES -/ ⟨0x802C, 16, 0x40, 1, 0x0, false,
    [⟨0, 32, .ro, .none, false, 0⟩]⟩,
  /- SRV_KV_LOFT_RD -/ ⟨0x8030, 16, 0x40, 1, 0x0, true,
    [⟨0, 64, .ro, .none, false, 0⟩]⟩,
  /- SRV_KV_LOFT_WR -/ ⟨0x8038, 16, 0x40, 1, 0x0, true,
    [⟨0, 64, .ro, .none, false, 0⟩]⟩,
  /- SRV_STAT -/ ⟨0x0, 1, 0x0, 1, 0x0, false,
    [⟨0, 17, .ro, .none, false, 0⟩, ⟨17, 8, .ro, .none, false, 0⟩, ⟨25, 1, .w1c, .none, false, 0⟩, ⟨26, 6, .ro, .none, true, 0⟩]⟩,
  /- SRV_COST -/ ⟨0x4, 1, 0x0, 1, 0x0, false,
    [⟨0, 8, .rw, .live, false, 0x10⟩, ⟨8, 8, .rw, .live, false, 1⟩, ⟨16, 8, .rw, .live, false, 0x30⟩, ⟨24, 8, .ro, .none, true, 0⟩]⟩,
  /- SRV_CTX_SEL -/ ⟨0x8, 1, 0x0, 1, 0x0, false,
    [⟨0, 16, .rw, .live, false, 0⟩, ⟨16, 16, .ro, .none, true, 0⟩]⟩,
  /- SRV_CTX_DATA_0 -/ ⟨0xC, 1, 0x0, 1, 0x0, false,
    [⟨0, 3, .ro, .none, false, 0⟩, ⟨3, 4, .ro, .none, false, 0⟩, ⟨7, 1, .ro, .none, false, 0⟩, ⟨8, 8, .ro, .none, false, 0⟩, ⟨16, 16, .ro, .none, false, 0xffff⟩]⟩,
  /- SRV_CTX_DATA_1 -/ ⟨0x10, 1, 0x0, 1, 0x0, false,
    [⟨0, 32, .ro, .none, false, 0⟩]⟩,
  /- SRV_CTX_DATA_2 -/ ⟨0x14, 1, 0x0, 1, 0x0, false,
    [⟨0, 32, .ro, .none, false, 0⟩]⟩,
  /- SRV_CTX_DATA_3 -/ ⟨0x18, 1, 0x0, 1, 0x0, false,
    [⟨0, 32, .ro, .none, true, 0⟩]⟩,
  /- SRV_CLS_TTFT -/ ⟨0x200, 8, 0x20, 1, 0x0, false,
    [⟨0, 32, .rw, .live, false, 0⟩]⟩,
  /- SRV_CLS_TBT -/ ⟨0x204, 8, 0x20, 1, 0x0, false,
    [⟨0, 32, .rw, .live, false, 0⟩]⟩,
  /- SRV_CLS_CTL -/ ⟨0x208, 8, 0x20, 1, 0x0, false,
    [⟨0, 3, .rw, .live, false, 0⟩, ⟨3, 1, .rw, .live, false, 0⟩, ⟨4, 28, .ro, .none, true, 0⟩]⟩,
  /- SRV_CLS_REQS -/ ⟨0x20C, 8, 0x20, 1, 0x0, false,
    [⟨0, 32, .ro, .none, false, 0⟩]⟩,
  /- SRV_CLS_TTFT_VIOL -/ ⟨0x210, 8, 0x20, 1, 0x0, false,
    [⟨0, 32, .ro, .none, false, 0⟩]⟩,
  /- SRV_CLS_TBT_VIOL -/ ⟨0x214, 8, 0x20, 1, 0x0, false,
    [⟨0, 32, .ro, .none, false, 0⟩]⟩,
  /- SRV_CLS_HELD -/ ⟨0x218, 8, 0x20, 1, 0x0, false,
    [⟨0, 32, .ro, .none, false, 0⟩]⟩,
  /- SRV_TREE_CTL -/ ⟨0x400, 16, 0x20, 1, 0x0, false,
    [⟨0, 5, .rw, .staged, false, 1⟩, ⟨5, 27, .ro, .none, true, 0⟩]⟩,
  /- SRV_TREE_PAR -/ ⟨0x404, 16, 0x20, 4, 0x4, false,
    [⟨0, 32, .rw, .staged, false, 0xffffffff⟩]⟩,
  /- SRV_TREE_COMMIT -/ ⟨0x414, 16, 0x20, 1, 0x0, false,
    [⟨0, 1, .wo, .none, false, 0⟩, ⟨1, 31, .wo, .none, true, 0⟩]⟩,
  /- SRV_TREE_COMMIT_STATUS -/ ⟨0x418, 16, 0x20, 1, 0x0, false,
    [⟨0, 2, .ro, .none, false, 0⟩, ⟨2, 6, .ro, .none, true, 0⟩, ⟨8, 8, .ro, .none, false, 0⟩, ⟨16, 8, .ro, .none, false, 0⟩, ⟨24, 8, .ro, .none, false, 0⟩]⟩,
  /- SRV_TEN_BALANCE -/ ⟨0x4000, 1024, 0x10, 1, 0x0, false,
    [⟨0, 32, .ro, .none, false, 0⟩]⟩,
  /- SRV_TEN_REFILL -/ ⟨0x4004, 1024, 0x10, 1, 0x0, false,
    [⟨0, 32, .wo, .none, false, 0⟩]⟩,
  /- SRV_TEN_CTL -/ ⟨0x4008, 1024, 0x10, 1, 0x0, false,
    [⟨0, 24, .rw, .live, false, 0⟩, ⟨24, 7, .ro, .none, true, 0⟩, ⟨31, 1, .rw, .live, false, 0⟩]⟩,
  /- SRV_TEN_STAT -/ ⟨0x400C, 1024, 0x10, 1, 0x0, false,
    [⟨0, 16, .ro, .none, false, 0⟩, ⟨16, 1, .ro, .none, false, 0⟩, ⟨17, 15, .ro, .none, true, 0⟩]⟩]

/-- The registers of the PWR block. -/
def regsPwr : List RegDesc := [
  /- PWR_STAT -/ ⟨0x0, 1, 0x0, 1, 0x0, false,
    [⟨0, 1, .ro, .none, false, 0⟩, ⟨1, 1, .ro, .none, false, 0⟩, ⟨2, 1, .w1c, .none, false, 0⟩, ⟨3, 1, .ro, .none, false, 0⟩, ⟨4, 1, .ro, .none, false, 0⟩, ⟨5, 1, .ro, .none, false, 0⟩, ⟨6, 1, .w1c, .none, false, 0⟩, ⟨7, 1, .w1c, .none, false, 0⟩, ⟨8, 24, .ro, .none, true, 0⟩]⟩,
  /- PWR_FEED_A -/ ⟨0x4, 1, 0x0, 1, 0x0, false,
    [⟨0, 16, .ro, .none, false, 0⟩, ⟨16, 16, .ro, .none, false, 0⟩]⟩,
  /- PWR_FEED_B -/ ⟨0x8, 1, 0x0, 1, 0x0, false,
    [⟨0, 32, .ro, .none, true, 0⟩]⟩,
  /- PWR_BUDGET -/ ⟨0xC, 1, 0x0, 1, 0x0, false,
    [⟨0, 16, .rw, .live, false, 0x2ee0⟩, ⟨16, 16, .rw, .live, false, 0x3a98⟩]⟩,
  /- PWR_HOST_CAP -/ ⟨0x10, 1, 0x0, 1, 0x0, false,
    [⟨0, 16, .rw, .live, false, 0⟩, ⟨16, 16, .ro, .none, true, 0⟩]⟩,
  /- PWR_CURTAIN_CTL -/ ⟨0x14, 1, 0x0, 1, 0x0, false,
    [⟨0, 16, .wo, .none, false, 0⟩, ⟨16, 16, .wo, .none, false, 0⟩]⟩,
  /- PWR_CURTAIN_STAT -/ ⟨0x18, 1, 0x0, 1, 0x0, false,
    [⟨0, 16, .ro, .none, false, 0⟩, ⟨16, 4, .ro, .none, false, 0⟩, ⟨20, 1, .ro, .none, false, 0⟩, ⟨21, 1, .ro, .none, false, 0⟩, ⟨22, 10, .ro, .none, true, 0⟩]⟩,
  /- PWR_CURTAIN_ORDER -/ ⟨0x20, 1, 0x0, 1, 0x0, true,
    [⟨0, 64, .rw, .quiesced, false, 0xfedcba9876543210⟩]⟩,
  /- PWR_INRUSH_CFG -/ ⟨0x28, 1, 0x0, 1, 0x0, false,
    [⟨0, 16, .rw, .live, false, 0x7d0⟩, ⟨16, 8, .rw, .live, false, 0x4b⟩, ⟨24, 8, .ro, .none, true, 0⟩]⟩,
  /- PWR_LK_CTL -/ ⟨0x2C, 1, 0x0, 1, 0x0, false,
    [⟨0, 8, .rw, .live, false, 0⟩, ⟨8, 24, .ro, .none, true, 0⟩]⟩,
  /- PWR_DOMAIN_STAT -/ ⟨0x30, 1, 0x0, 1, 0x0, false,
    [⟨0, 30, .ro, .none, false, 0x39000000⟩, ⟨30, 2, .ro, .none, true, 0⟩]⟩,
  /- PWR_PHASE -/ ⟨0x34, 1, 0x0, 1, 0x0, false,
    [⟨0, 4, .wo, .none, false, 0⟩, ⟨4, 4, .wo, .none, true, 0⟩, ⟨8, 8, .wo, .none, false, 0⟩, ⟨16, 16, .wo, .none, false, 0⟩]⟩,
  /- PWR_SLACK_CTL -/ ⟨0x38, 1, 0x0, 1, 0x0, false,
    [⟨0, 1, .rw, .live, false, 1⟩, ⟨1, 15, .ro, .none, true, 0⟩, ⟨16, 16, .rw, .live, false, 0x7d0⟩]⟩,
  /- PWR_SLACK_STAT -/ ⟨0x3C, 1, 0x0, 1, 0x0, false,
    [⟨0, 16, .ro, .none, false, 0⟩, ⟨16, 16, .ro, .none, false, 0⟩]⟩,
  /- PWR_TEL_SEQ -/ ⟨0x40, 1, 0x0, 1, 0x0, false,
    [⟨0, 32, .ro, .none, false, 0⟩]⟩,
  /- PWR_ENERGY -/ ⟨0x48, 1, 0x0, 1, 0x0, true,
    [⟨0, 64, .ro, .none, false, 0⟩]⟩,
  /- PWR_TEL -/ ⟨0x100, 30, 0x4, 1, 0x0, false,
    [⟨0, 16, .ro, .none, false, 0⟩, ⟨16, 16, .ro, .none, false, 0⟩]⟩]

/-- The registers of the THM block. -/
def regsThm : List RegDesc := [
  /- THM_STAT -/ ⟨0x0, 1, 0x0, 1, 0x0, false,
    [⟨0, 2, .ro, .none, false, 0⟩, ⟨2, 1, .w1c, .none, false, 0⟩, ⟨3, 1, .ro, .none, false, 1⟩, ⟨4, 1, .w1c, .none, false, 0⟩, ⟨5, 1, .ro, .none, false, 0⟩, ⟨6, 1, .w1c, .none, false, 0⟩, ⟨7, 1, .w1c, .none, false, 0⟩, ⟨8, 1, .w1c, .none, false, 0⟩, ⟨9, 23, .ro, .none, true, 0⟩]⟩,
  /- THM_LIMIT -/ ⟨0x4, 1, 0x0, 1, 0x0, false,
    [⟨0, 8, .rw, .live, false, 0x69⟩, ⟨8, 8, .rw, .live, false, 5⟩, ⟨16, 16, .ro, .none, true, 0⟩]⟩,
  /- THM_FLOW_CFG -/ ⟨0x8, 1, 0x0, 1, 0x0, false,
    [⟨0, 16, .rw, .live, false, 0x3e8⟩, ⟨16, 8, .rw, .live, false, 0x14⟩, ⟨24, 8, .rw, .live, false, 0x32⟩]⟩,
  /- THM_FLOW_TIMES -/ ⟨0xC, 1, 0x0, 1, 0x0, false,
    [⟨0, 16, .rw, .live, false, 0x1388⟩, ⟨16, 16, .rw, .live, false, 0x3e8⟩]⟩,
  /- THM_COOLANT -/ ⟨0x10, 1, 0x0, 1, 0x0, false,
    [⟨0, 16, .ro, .none, false, 0⟩, ⟨16, 16, .ro, .none, false, 0⟩]⟩,
  /- THM_FLOW -/ ⟨0x14, 1, 0x0, 1, 0x0, false,
    [⟨0, 16, .ro, .none, false, 0xffff⟩, ⟨16, 16, .ro, .none, false, 0⟩]⟩,
  /- THM_TRAY -/ ⟨0x18, 1, 0x0, 1, 0x0, false,
    [⟨0, 16, .ro, .none, false, 0⟩, ⟨16, 16, .ro, .none, false, 0⟩]⟩,
  /- THM_TRAY_STAT -/ ⟨0x1C, 1, 0x0, 1, 0x0, false,
    [⟨0, 8, .ro, .none, false, 0⟩, ⟨8, 8, .ro, .none, false, 0⟩, ⟨16, 16, .ro, .none, false, 0⟩]⟩,
  /- THM_FCAST -/ ⟨0x20, 1, 0x0, 1, 0x0, false,
    [⟨0, 1, .rw, .live, false, 1⟩, ⟨1, 15, .ro, .none, true, 0⟩, ⟨16, 16, .rw, .live, false, 0x29d⟩]⟩,
  /- THM_TRIP_CLR -/ ⟨0x24, 1, 0x0, 1, 0x0, false,
    [⟨0, 16, .wo, .none, false, 0⟩, ⟨16, 16, .wo, .none, true, 0⟩]⟩,
  /- THM_SUSPECT_CLR -/ ⟨0x28, 1, 0x0, 1, 0x0, false,
    [⟨0, 16, .wo, .none, false, 0⟩, ⟨16, 16, .wo, .none, true, 0⟩]⟩,
  /- THM_TRIPS -/ ⟨0x2C, 1, 0x0, 1, 0x0, false,
    [⟨0, 32, .ro, .none, false, 0⟩]⟩,
  /- THM_REGION -/ ⟨0x100, 16, 0x10, 1, 0x0, false,
    [⟨0, 16, .ro, .none, false, 0⟩, ⟨16, 16, .ro, .none, false, 0⟩]⟩,
  /- THM_REGION_W1 -/ ⟨0x104, 16, 0x10, 1, 0x0, false,
    [⟨0, 16, .ro, .none, false, 0x320⟩, ⟨16, 8, .ro, .none, false, 0⟩, ⟨24, 8, .ro, .none, true, 0⟩]⟩,
  /- THM_REGION_W2 -/ ⟨0x108, 16, 0x10, 1, 0x0, false,
    [⟨0, 16, .ro, .none, false, 0⟩, ⟨16, 16, .ro, .none, false, 0⟩]⟩,
  /- THM_REGION_W3 -/ ⟨0x10C, 16, 0x10, 1, 0x0, false,
    [⟨0, 8, .ro, .none, false, 0⟩, ⟨8, 8, .ro, .none, false, 0⟩, ⟨16, 8, .ro, .none, false, 0⟩, ⟨24, 1, .ro, .none, false, 0⟩, ⟨25, 7, .ro, .none, true, 0⟩]⟩,
  /- THM_SPOT -/ ⟨0x400, 16, 0x20, 8, 0x4, false,
    [⟨0, 16, .ro, .none, false, 0⟩, ⟨16, 16, .ro, .none, false, 0⟩]⟩]

/-- The registers of the SEC block. -/
def regsSec : List RegDesc := [
  /- SEC_BOOT_STAT -/ ⟨0x0, 1, 0x0, 1, 0x0, false,
    [⟨0, 2, .ro, .none, false, 0⟩, ⟨2, 1, .ro, .none, false, 0⟩, ⟨3, 1, .ro, .none, false, 0⟩, ⟨4, 1, .ro, .none, false, 0⟩, ⟨5, 1, .ro, .none, false, 0⟩, ⟨6, 2, .ro, .none, true, 0⟩, ⟨8, 8, .ro, .none, false, 0⟩, ⟨16, 16, .ro, .none, true, 0⟩]⟩,
  /- SEC_FW_VERSION -/ ⟨0x4, 1, 0x0, 1, 0x0, false,
    [⟨0, 16, .ro, .none, false, 0⟩, ⟨16, 16, .ro, .none, false, 0⟩]⟩,
  /- SEC_SVN_FUSED -/ ⟨0x8, 1, 0x0, 1, 0x0, false,
    [⟨0, 16, .ro, .none, false, 0⟩, ⟨16, 4, .ro, .none, false, 0⟩, ⟨20, 12, .ro, .none, true, 0⟩]⟩,
  /- SEC_FW_ADDR -/ ⟨0x10, 1, 0x0, 1, 0x0, true,
    [⟨0, 12, .ro, .none, true, 0⟩, ⟨12, 52, .rw, .quiesced, false, 0⟩]⟩,
  /- SEC_FW_LEN -/ ⟨0x18, 1, 0x0, 1, 0x0, false,
    [⟨0, 23, .rw, .quiesced, false, 0⟩, ⟨23, 9, .ro, .none, true, 0⟩]⟩,
  /- SEC_FW_CTL -/ ⟨0x1C, 1, 0x0, 1, 0x0, false,
    [⟨0, 1, .wo, .none, false, 0⟩, ⟨1, 1, .wo, .none, false, 0⟩, ⟨2, 1, .wo, .none, false, 0⟩, ⟨3, 1, .wo, .none, false, 0⟩, ⟨4, 2, .wo, .none, false, 0⟩, ⟨6, 26, .wo, .none, true, 0⟩]⟩,
  /- SEC_FW_STAT -/ ⟨0x20, 1, 0x0, 1, 0x0, false,
    [⟨0, 3, .ro, .none, false, 0⟩, ⟨3, 5, .ro, .none, true, 0⟩, ⟨8, 8, .ro, .none, false, 0⟩, ⟨16, 1, .w1c, .none, false, 0⟩, ⟨17, 1, .ro, .none, false, 0⟩, ⟨18, 14, .ro, .none, true, 0⟩]⟩,
  /- SEC_MEAS -/ ⟨0x100, 4, 0x20, 8, 0x4, false,
    [⟨0, 32, .ro, .none, false, 0⟩]⟩,
  /- SEC_MEAS_COUNT -/ ⟨0x180, 4, 0x4, 1, 0x0, false,
    [⟨0, 32, .ro, .none, false, 0⟩]⟩,
  /- SEC_LOG_HEAD -/ ⟨0x1A0, 1, 0x0, 1, 0x0, false,
    [⟨0, 32, .ro, .none, false, 0⟩]⟩,
  /- SEC_LOG_LOST -/ ⟨0x1A4, 1, 0x0, 1, 0x0, false,
    [⟨0, 32, .ro, .none, false, 0⟩]⟩,
  /- SEC_LOG_SEL -/ ⟨0x1A8, 1, 0x0, 1, 0x0, false,
    [⟨0, 8, .rw, .live, false, 0⟩, ⟨8, 24, .ro, .none, true, 0⟩]⟩,
  /- SEC_LOG_REC_0 -/ ⟨0x1B0, 1, 0x0, 1, 0x0, false,
    [⟨0, 32, .ro, .none, false, 0⟩]⟩,
  /- SEC_LOG_REC_1 -/ ⟨0x1B4, 11, 0x4, 1, 0x0, false,
    [⟨0, 32, .ro, .none, false, 0⟩]⟩,
  /- SEC_ID_DIGEST -/ ⟨0x200, 8, 0x4, 1, 0x0, false,
    [⟨0, 32, .ro, .none, false, 0⟩]⟩]

/-- The registers of the DUMP block. -/
def regsDump : List RegDesc := [
  /- DUMP_STAT -/ ⟨0x0, 1, 0x0, 1, 0x0, false,
    [⟨0, 3, .ro, .none, false, 0⟩, ⟨3, 1, .ro, .none, false, 0⟩, ⟨4, 1, .ro, .none, false, 0⟩, ⟨5, 1, .w1c, .none, false, 0⟩, ⟨6, 2, .ro, .none, true, 0⟩, ⟨8, 8, .ro, .none, false, 0⟩, ⟨16, 16, .ro, .none, true, 0⟩]⟩,
  /- DUMP_CTL -/ ⟨0x4, 1, 0x0, 1, 0x0, false,
    [⟨0, 1, .wo, .none, false, 0⟩, ⟨1, 1, .wo, .none, false, 0⟩, ⟨2, 1, .wo, .none, false, 0⟩, ⟨3, 29, .wo, .none, true, 0⟩]⟩,
  /- DUMP_BYTES -/ ⟨0x8, 1, 0x0, 1, 0x0, false,
    [⟨0, 32, .ro, .none, false, 0⟩]⟩,
  /- DUMP_COUNT -/ ⟨0xC, 1, 0x0, 1, 0x0, false,
    [⟨0, 32, .ro, .none, false, 0⟩]⟩,
  /- DUMP_FLT_CTL -/ ⟨0x10, 1, 0x0, 1, 0x0, false,
    [⟨0, 1, .rw, .live, false, 1⟩, ⟨1, 7, .ro, .none, true, 0⟩, ⟨8, 8, .rw, .live, false, 0xa⟩, ⟨16, 16, .rw, .live, false, 0x9c4⟩]⟩,
  /- DUMP_REPLACE_STAT -/ ⟨0x14, 1, 0x0, 1, 0x0, false,
    [⟨0, 3, .ro, .none, false, 0⟩, ⟨3, 5, .ro, .none, true, 0⟩, ⟨8, 8, .ro, .none, false, 0⟩, ⟨16, 8, .ro, .none, false, 0⟩, ⟨24, 4, .ro, .none, false, 0⟩, ⟨28, 4, .ro, .none, false, 0⟩]⟩,
  /- DUMP_REPLACE_CTL -/ ⟨0x18, 1, 0x0, 1, 0x0, false,
    [⟨0, 1, .wo, .none, false, 0⟩, ⟨1, 31, .wo, .none, true, 0⟩]⟩,
  /- DUMP_FAIL_CTL -/ ⟨0x1C, 1, 0x0, 1, 0x0, false,
    [⟨0, 16, .wo, .none, false, 0⟩, ⟨16, 16, .wo, .none, true, 0⟩]⟩,
  /- DUMP_ERR_HEAD -/ ⟨0x20, 1, 0x0, 1, 0x0, false,
    [⟨0, 32, .ro, .none, false, 0⟩]⟩,
  /- DUMP_ERR_LOST -/ ⟨0x24, 1, 0x0, 1, 0x0, false,
    [⟨0, 32, .ro, .none, false, 0⟩]⟩,
  /- DUMP_ERR_SEL -/ ⟨0x28, 1, 0x0, 1, 0x0, false,
    [⟨0, 10, .rw, .live, false, 0⟩, ⟨10, 22, .ro, .none, true, 0⟩]⟩,
  /- DUMP_ERR_REC_0 -/ ⟨0x30, 1, 0x0, 1, 0x0, false,
    [⟨0, 32, .ro, .none, false, 0⟩]⟩,
  /- DUMP_ERR_REC_1 -/ ⟨0x34, 7, 0x4, 1, 0x0, false,
    [⟨0, 32, .ro, .none, false, 0⟩]⟩,
  /- DUMP_REPLACES -/ ⟨0x50, 1, 0x0, 1, 0x0, false,
    [⟨0, 16, .ro, .none, false, 0⟩, ⟨16, 16, .ro, .none, false, 0⟩]⟩]

/-- The registers of the FAB block. -/
def regsFab : List RegDesc := [
  /- FAB_STAT -/ ⟨0x0, 1, 0x0, 1, 0x0, false,
    [⟨0, 1, .w1c, .none, false, 0⟩, ⟨1, 1, .w1c, .none, false, 0⟩, ⟨2, 1, .w1c, .none, false, 0⟩, ⟨3, 1, .w1c, .none, false, 0⟩, ⟨4, 1, .ro, .none, false, 0⟩, ⟨5, 1, .w1c, .none, false, 0⟩, ⟨6, 26, .ro, .none, true, 0⟩]⟩,
  /- FAB_FMAP_CORE -/ ⟨0x100, 8, 0x4, 1, 0x0, false,
    [⟨0, 32, .ro, .none, false, 0⟩]⟩,
  /- FAB_FMAP_EAST -/ ⟨0x120, 8, 0x4, 1, 0x0, false,
    [⟨0, 32, .ro, .none, false, 0⟩]⟩,
  /- FAB_FMAP_SOUTH -/ ⟨0x140, 8, 0x4, 1, 0x0, false,
    [⟨0, 32, .ro, .none, false, 0⟩]⟩,
  /- FAB_FMAP_EXPRESS -/ ⟨0x160, 1, 0x0, 1, 0x0, false,
    [⟨0, 8, .ro, .none, false, 0⟩, ⟨8, 24, .ro, .none, true, 0⟩]⟩,
  /- FAB_FMAP_CTL -/ ⟨0x170, 1, 0x0, 1, 0x0, false,
    [⟨0, 13, .wo, .none, false, 0⟩, ⟨13, 3, .wo, .none, false, 0⟩, ⟨16, 1, .wo, .none, false, 0⟩, ⟨17, 14, .wo, .none, true, 0⟩, ⟨31, 1, .wo, .none, false, 0⟩]⟩,
  /- FAB_FMAP_SEQ -/ ⟨0x174, 1, 0x0, 1, 0x0, false,
    [⟨0, 32, .ro, .none, false, 0⟩]⟩,
  /- FAB_DETOURS -/ ⟨0x180, 1, 0x0, 1, 0x0, false,
    [⟨0, 32, .ro, .none, false, 0⟩]⟩,
  /- FAB_UNREACH -/ ⟨0x184, 1, 0x0, 1, 0x0, false,
    [⟨0, 32, .ro, .none, false, 0⟩]⟩,
  /- FAB_PN_MSGS -/ ⟨0x188, 1, 0x0, 1, 0x0, true,
    [⟨0, 64, .ro, .none, false, 0⟩]⟩,
  /- FAB_PN_DROPPED -/ ⟨0x190, 1, 0x0, 1, 0x0, false,
    [⟨0, 32, .ro, .none, false, 0⟩]⟩,
  /- FAB_MGMT_CRC -/ ⟨0x194, 1, 0x0, 1, 0x0, false,
    [⟨0, 32, .ro, .none, false, 0⟩]⟩,
  /- FAB_MGMT_RETRY -/ ⟨0x198, 1, 0x0, 1, 0x0, false,
    [⟨0, 32, .ro, .none, false, 0⟩]⟩,
  /- FAB_SAFE -/ ⟨0x19C, 1, 0x0, 1, 0x0, false,
    [⟨0, 16, .ro, .none, false, 0⟩, ⟨16, 16, .ro, .none, true, 0⟩]⟩]

/-- The registers of the LNK block. -/
def regsLnk : List RegDesc := [
  /- LNK_MODULE -/ ⟨0x0, 1, 0x0, 1, 0x0, false,
    [⟨0, 6, .rw, .quiesced, false, 0⟩, ⟨6, 26, .ro, .none, true, 0⟩]⟩,
  /- LNK_SYSTEM_ID -/ ⟨0x8, 1, 0x0, 1, 0x0, true,
    [⟨0, 64, .rw, .quiesced, false, 0⟩]⟩,
  /- LNK_SPLIT_CTL -/ ⟨0x10, 1, 0x0, 1, 0x0, false,
    [⟨0, 16, .rw, .live, false, 0⟩, ⟨16, 16, .ro, .none, true, 0⟩]⟩,
  /- LNK_SPLIT_GO -/ ⟨0x14, 1, 0x0, 1, 0x0, false,
    [⟨0, 16, .wo, .none, false, 0⟩, ⟨16, 16, .wo, .none, true, 0⟩]⟩,
  /- LNK_SPLIT_STAT -/ ⟨0x18, 1, 0x0, 1, 0x0, false,
    [⟨0, 16, .ro, .none, false, 0⟩, ⟨16, 1, .w1c, .none, false, 0⟩, ⟨17, 15, .ro, .none, true, 0⟩]⟩,
  /- LNK_REACH -/ ⟨0x20, 1, 0x0, 1, 0x0, true,
    [⟨0, 48, .ro, .none, false, 0⟩, ⟨48, 16, .ro, .none, true, 0⟩]⟩,
  /- LNK_FREEZES -/ ⟨0x28, 1, 0x0, 1, 0x0, false,
    [⟨0, 32, .ro, .none, false, 0⟩]⟩,
  /- LNK_PORT_CTL -/ ⟨0x1000, 32, 0x40, 1, 0x0, false,
    [⟨0, 1, .rw, .live, false, 0⟩, ⟨1, 1, .wo, .none, false, 0⟩, ⟨2, 30, .ro, .none, true, 0⟩]⟩,
  /- LNK_PORT_STAT -/ ⟨0x1004, 32, 0x40, 1, 0x0, false,
    [⟨0, 3, .ro, .none, false, 0⟩, ⟨3, 2, .ro, .none, false, 0⟩, ⟨5, 3, .ro, .none, true, 0⟩, ⟨8, 8, .ro, .none, false, 0⟩, ⟨16, 1, .w1c, .none, false, 0⟩, ⟨17, 15, .ro, .none, true, 0⟩]⟩,
  /- LNK_PEER -/ ⟨0x1008, 32, 0x40, 1, 0x0, false,
    [⟨0, 6, .ro, .none, false, 0⟩, ⟨6, 2, .ro, .none, true, 0⟩, ⟨8, 5, .ro, .none, false, 0⟩, ⟨13, 19, .ro, .none, true, 0⟩]⟩,
  /- LNK_FEC_CE -/ ⟨0x1010, 32, 0x40, 1, 0x0, true,
    [⟨0, 64, .ro, .none, false, 0⟩]⟩,
  /- LNK_FEC_UE -/ ⟨0x1018, 32, 0x40, 1, 0x0, false,
    [⟨0, 32, .ro, .none, false, 0⟩]⟩,
  /- LNK_CRC_ERR -/ ⟨0x101C, 32, 0x40, 1, 0x0, false,
    [⟨0, 32, .ro, .none, false, 0⟩]⟩,
  /- LNK_REPLAYS -/ ⟨0x1020, 32, 0x40, 1, 0x0, false,
    [⟨0, 32, .ro, .none, false, 0⟩]⟩,
  /- LNK_DOWNS -/ ⟨0x1024, 32, 0x40, 1, 0x0, false,
    [⟨0, 16, .ro, .none, false, 0⟩, ⟨16, 16, .ro, .none, false, 0⟩]⟩,
  /- LNK_TX_FLITS -/ ⟨0x1028, 32, 0x40, 1, 0x0, true,
    [⟨0, 64, .ro, .none, false, 0⟩]⟩,
  /- LNK_RX_FLITS -/ ⟨0x1030, 32, 0x40, 1, 0x0, true,
    [⟨0, 64, .ro, .none, false, 0⟩]⟩]

/-- The registers of the CEL block. -/
def regsCel : List RegDesc := [
  /- CEL_CHK_CTL -/ ⟨0x1000, 16, 0x20, 1, 0x0, false,
    [⟨0, 1, .rw, .staged, false, 1⟩, ⟨1, 1, .rw, .staged, false, 0⟩, ⟨2, 1, .rw, .staged, false, 0⟩, ⟨3, 1, .rw, .staged, false, 1⟩, ⟨4, 2, .rw, .staged, false, 1⟩, ⟨6, 10, .ro, .none, true, 0⟩, ⟨16, 16, .rw, .staged, false, 0x3c⟩]⟩,
  /- CEL_CHK_LIMITS -/ ⟨0x1004, 16, 0x20, 1, 0x0, false,
    [⟨0, 16, .rw, .staged, false, 0xc8⟩, ⟨16, 8, .rw, .staged, false, 0x32⟩, ⟨24, 8, .rw, .staged, false, 0x1e⟩]⟩,
  /- CEL_CHK_WINDOW -/ ⟨0x1008, 16, 0x20, 1, 0x0, false,
    [⟨0, 5, .rw, .staged, false, 0x10⟩, ⟨5, 27, .ro, .none, true, 0⟩]⟩,
  /- CEL_CHK_COMMIT -/ ⟨0x100C, 16, 0x20, 1, 0x0, false,
    [⟨0, 1, .wo, .none, false, 0⟩, ⟨1, 31, .wo, .none, true, 0⟩]⟩,
  /- CEL_CHK_COMMIT_STATUS -/ ⟨0x1010, 16, 0x20, 1, 0x0, false,
    [⟨0, 2, .ro, .none, false, 0⟩, ⟨2, 6, .ro, .none, true, 0⟩, ⟨8, 8, .ro, .none, false, 0⟩, ⟨16, 8, .ro, .none, false, 0⟩, ⟨24, 8, .ro, .none, false, 0⟩]⟩,
  /- CEL_CHK_OVERDUE -/ ⟨0x1014, 16, 0x20, 1, 0x0, false,
    [⟨0, 32, .ro, .none, false, 0⟩]⟩,
  /- CEL_DRIFT_HEAD -/ ⟨0x1400, 1, 0x0, 1, 0x0, false,
    [⟨0, 32, .ro, .none, false, 0⟩]⟩,
  /- CEL_DRIFT_LOST -/ ⟨0x1404, 1, 0x0, 1, 0x0, false,
    [⟨0, 32, .ro, .none, false, 0⟩]⟩,
  /- CEL_DRIFT_SEL -/ ⟨0x1408, 1, 0x0, 1, 0x0, false,
    [⟨0, 8, .rw, .live, false, 0⟩, ⟨8, 24, .ro, .none, true, 0⟩]⟩,
  /- CEL_DRIFT_REC_0 -/ ⟨0x1410, 1, 0x0, 1, 0x0, false,
    [⟨0, 32, .ro, .none, false, 0⟩]⟩,
  /- CEL_DRIFT_REC_1 -/ ⟨0x1414, 3, 0x4, 1, 0x0, false,
    [⟨0, 32, .ro, .none, false, 0⟩]⟩,
  /- CEL_REFRESH_CTL -/ ⟨0x1500, 1, 0x0, 1, 0x0, false,
    [⟨0, 16, .rw, .live, false, 0⟩, ⟨16, 16, .ro, .none, true, 0⟩]⟩,
  /- CEL_REFRESH_GO -/ ⟨0x1504, 1, 0x0, 1, 0x0, false,
    [⟨0, 16, .wo, .none, false, 0⟩, ⟨16, 16, .wo, .none, true, 0⟩]⟩,
  /- CEL_REFRESH_STAT -/ ⟨0x1508, 1, 0x0, 1, 0x0, false,
    [⟨0, 12, .ro, .none, false, 0⟩, ⟨12, 6, .ro, .none, false, 0⟩, ⟨18, 14, .ro, .none, true, 0⟩]⟩,
  /- CEL_REFRESH_COUNT -/ ⟨0x150C, 1, 0x0, 1, 0x0, false,
    [⟨0, 16, .ro, .none, false, 0⟩, ⟨16, 16, .ro, .none, false, 0⟩]⟩,
  /- CEL_INST_DESC -/ ⟨0x0, 1, 0x0, 1, 0x0, true,
    [⟨0, 6, .ro, .none, true, 0⟩, ⟨6, 58, .rw, .quiesced, false, 0⟩]⟩,
  /- CEL_INST_CTL -/ ⟨0x8, 1, 0x0, 1, 0x0, false,
    [⟨0, 1, .wo, .none, false, 0⟩, ⟨1, 1, .wo, .none, false, 0⟩, ⟨2, 30, .wo, .none, true, 0⟩]⟩,
  /- CEL_INST_STAT -/ ⟨0xC, 1, 0x0, 1, 0x0, false,
    [⟨0, 4, .ro, .none, false, 0⟩, ⟨4, 4, .ro, .none, true, 0⟩, ⟨8, 8, .ro, .none, false, 0⟩, ⟨16, 1, .w1c, .none, false, 0⟩, ⟨17, 15, .ro, .none, true, 0⟩]⟩,
  /- CEL_INST_ENTRY -/ ⟨0x10, 1, 0x0, 1, 0x0, false,
    [⟨0, 32, .ro, .none, false, 0xffffffff⟩]⟩,
  /- CEL_INST_FIRST_DONE -/ ⟨0x14, 1, 0x0, 1, 0x0, false,
    [⟨0, 32, .ro, .none, false, 0⟩]⟩,
  /- CEL_INST_FINISHED -/ ⟨0x18, 1, 0x0, 1, 0x0, false,
    [⟨0, 32, .ro, .none, false, 0⟩]⟩,
  /- CEL_INST_MARGINAL -/ ⟨0x1C, 1, 0x0, 1, 0x0, false,
    [⟨0, 32, .ro, .none, false, 0⟩]⟩,
  /- CEL_INST_FAILED -/ ⟨0x20, 1, 0x0, 1, 0x0, false,
    [⟨0, 32, .ro, .none, false, 0⟩]⟩,
  /- CEL_INST_CLIPPED -/ ⟨0x24, 1, 0x0, 1, 0x0, false,
    [⟨0, 32, .ro, .none, false, 0⟩]⟩,
  /- CEL_INST_RETRIES -/ ⟨0x28, 1, 0x0, 1, 0x0, false,
    [⟨0, 32, .ro, .none, false, 0⟩]⟩,
  /- CEL_WEAR_SEL -/ ⟨0x40, 1, 0x0, 1, 0x0, false,
    [⟨0, 9, .rw, .live, false, 0⟩, ⟨9, 8, .rw, .live, false, 0⟩, ⟨17, 15, .ro, .none, true, 0⟩]⟩,
  /- CEL_WEAR_DATA -/ ⟨0x44, 1, 0x0, 1, 0x0, false,
    [⟨0, 16, .ro, .none, false, 0⟩, ⟨16, 1, .ro, .none, false, 0⟩, ⟨17, 1, .ro, .none, false, 0⟩, ⟨18, 1, .ro, .none, false, 0⟩, ⟨19, 13, .ro, .none, true, 0⟩]⟩,
  /- CEL_WEAR_MAX -/ ⟨0x48, 1, 0x0, 1, 0x0, false,
    [⟨0, 16, .ro, .none, false, 0⟩, ⟨16, 16, .ro, .none, false, 0⟩]⟩,
  /- CEL_WEAR_WARN -/ ⟨0x4C, 1, 0x0, 1, 0x0, false,
    [⟨0, 16, .rw, .live, false, 0x2328⟩, ⟨16, 16, .ro, .none, true, 0⟩]⟩]

/-- The registers of the BLK block. -/
def regsBlk : List RegDesc := [
  /- BLK_REBIND_MASK -/ ⟨0x800, 8, 0x4, 1, 0x0, false,
    [⟨0, 32, .rw, .quiesced, false, 0⟩]⟩,
  /- BLK_REBIND_CTL -/ ⟨0x820, 1, 0x0, 1, 0x0, false,
    [⟨0, 4, .rw, .quiesced, false, 0⟩, ⟨4, 1, .rw, .quiesced, false, 0⟩, ⟨5, 1, .rw, .quiesced, false, 0⟩, ⟨6, 2, .ro, .none, true, 0⟩, ⟨8, 8, .rw, .quiesced, false, 0⟩, ⟨16, 15, .ro, .none, true, 0⟩, ⟨31, 1, .wo, .none, false, 0⟩]⟩,
  /- BLK_REBIND_STAT -/ ⟨0x824, 1, 0x0, 1, 0x0, false,
    [⟨0, 2, .ro, .none, false, 0⟩, ⟨2, 6, .ro, .none, true, 0⟩, ⟨8, 8, .ro, .none, false, 0⟩, ⟨16, 8, .ro, .none, false, 0⟩, ⟨24, 8, .ro, .none, true, 0⟩]⟩,
  /- BLK_LOAD_ADDR -/ ⟨0x0, 1, 0x0, 1, 0x0, true,
    [⟨0, 3, .ro, .none, true, 0⟩, ⟨3, 61, .rw, .quiesced, false, 0⟩]⟩,
  /- BLK_LOAD_LEN -/ ⟨0x8, 1, 0x0, 1, 0x0, false,
    [⟨0, 32, .rw, .quiesced, false, 0⟩]⟩,
  /- BLK_LOAD_CTL -/ ⟨0xC, 1, 0x0, 1, 0x0, false,
    [⟨0, 4, .rw, .quiesced, false, 0⟩, ⟨4, 1, .rw, .quiesced, false, 1⟩, ⟨5, 3, .ro, .none, true, 0⟩, ⟨8, 1, .wo, .none, false, 0⟩, ⟨9, 1, .wo, .none, false, 0⟩, ⟨10, 22, .ro, .none, true, 0⟩]⟩,
  /- BLK_BIND_ADDR -/ ⟨0x10, 1, 0x0, 1, 0x0, true,
    [⟨0, 3, .ro, .none, true, 0⟩, ⟨3, 61, .rw, .quiesced, false, 0⟩]⟩,
  /- BLK_LOAD_STAT -/ ⟨0x18, 1, 0x0, 1, 0x0, false,
    [⟨0, 3, .ro, .none, false, 0⟩, ⟨3, 5, .ro, .none, true, 0⟩, ⟨8, 8, .ro, .none, false, 0⟩, ⟨16, 1, .w1c, .none, false, 0⟩, ⟨17, 15, .ro, .none, true, 0⟩]⟩,
  /- BLK_LOAD_WHERE -/ ⟨0x1C, 1, 0x0, 1, 0x0, false,
    [⟨0, 12, .ro, .none, false, 0⟩, ⟨12, 20, .ro, .none, false, 0⟩]⟩,
  /- BLK_LOAD_OFFLINE -/ ⟨0x20, 1, 0x0, 1, 0x0, false,
    [⟨0, 32, .ro, .none, false, 0⟩]⟩,
  /- BLK_SLOT_STAT -/ ⟨0x40, 16, 0x4, 1, 0x0, false,
    [⟨0, 1, .ro, .none, false, 0⟩, ⟨1, 7, .ro, .none, true, 0⟩, ⟨8, 6, .ro, .none, false, 0⟩, ⟨14, 2, .ro, .none, true, 0⟩, ⟨16, 16, .ro, .none, false, 0⟩]⟩,
  /- BLK_MEAS -/ ⟨0x400, 16, 0x40, 16, 0x4, false,
    [⟨0, 32, .ro, .none, false, 0⟩]⟩,
  /- BLK_PART_STAT -/ ⟨0x100, 16, 0x10, 1, 0x0, false,
    [⟨0, 3, .ro, .none, false, 0⟩, ⟨3, 1, .ro, .none, false, 0⟩, ⟨4, 4, .ro, .none, false, 0⟩, ⟨8, 6, .ro, .none, false, 0⟩, ⟨14, 1, .ro, .none, false, 0⟩, ⟨15, 1, .ro, .none, true, 0⟩, ⟨16, 8, .ro, .none, false, 0⟩, ⟨24, 8, .ro, .none, true, 0⟩]⟩,
  /- BLK_PART_CORES -/ ⟨0x104, 16, 0x10, 1, 0x0, false,
    [⟨0, 9, .ro, .none, false, 0⟩, ⟨9, 23, .ro, .none, true, 0⟩]⟩,
  /- BLK_PART_MODEL -/ ⟨0x108, 16, 0x10, 1, 0x0, true,
    [⟨0, 64, .ro, .none, false, 0⟩]⟩]

/-- The descriptors of a block. -/
def blockRegs : Block → List RegDesc
  | .core => regsCore
  | .seq => regsSeq
  | .wds => regsWds
  | .eng => regsEng
  | .vec => regsVec
  | .rnd => regsRnd
  | .nrm => regsNrm
  | .rack => regsRack
  | .rif => regsRif
  | .stg => regsStg
  | .arb => regsArb
  | .cnv => regsCnv
  | .thr => regsThr
  | .id => regsId
  | .hif => regsHif
  | .srv => regsSrv
  | .pwr => regsPwr
  | .thm => regsThm
  | .sec => regsSec
  | .dump => regsDump
  | .fab => regsFab
  | .lnk => regsLnk
  | .cel => regsCel
  | .blk => regsBlk

/-- The offset of a block in its window or in the register BAR. -/
def blockBase : Block → Nat
  | .core => 0x0
  | .seq => 0x1000
  | .wds => 0x10000
  | .eng => 0x20000
  | .vec => 0x30000
  | .rnd => 0x38000
  | .nrm => 0x39000
  | .rack => 0x3A000
  | .rif => 0x3B000
  | .stg => 0x0
  | .arb => 0x1000
  | .cnv => 0x2000
  | .thr => 0x3000
  | .id => 0x0
  | .hif => 0x10000
  | .srv => 0x20000
  | .pwr => 0x40000
  | .thm => 0x50000
  | .sec => 0x60000
  | .dump => 0x70000
  | .fab => 0x80000
  | .lnk => 0x90000
  | .cel => 0xA0000
  | .blk => 0xB0000

/-- The block of a core window that holds offset `o` of the window, with the offset in the block (R223). -/
def coreBlockOf (o : Nat) : Block × Nat :=
  if o < 0x1000 then (.core, o)
  else if o < 0x10000 then (.seq, o - 0x1000)
  else if o < 0x20000 then (.wds, o - 0x10000)
  else if o < 0x30000 then (.eng, o - 0x20000)
  else if o < 0x38000 then (.vec, o - 0x30000)
  else if o < 0x39000 then (.rnd, o - 0x38000)
  else if o < 0x3A000 then (.nrm, o - 0x39000)
  else if o < 0x3B000 then (.rack, o - 0x3A000)
  else (.rif, o - 0x3B000)

/-- The block of a region window that holds offset `o` of the window (R500); none beyond THR. -/
def regionBlockOf (o : Nat) : Option (Block × Nat) :=
  if o < 0x1000 then some (.stg, o)
  else if o < 0x2000 then some (.arb, o - 0x1000)
  else if o < 0x3000 then some (.cnv, o - 0x2000)
  else if o < 0x4000 then some (.thr, o - 0x3000)
  else none

/-- The module-level block that holds offset `o` of the register BAR (R539). -/
def moduleBlockOf (o : Nat) : Option (Block × Nat) :=
  if o < 0x10000 then some (.id, o)
  else if o < 0x20000 then some (.hif, o - 0x10000)
  else if o < 0x40000 then some (.srv, o - 0x20000)
  else if o < 0x50000 then some (.pwr, o - 0x40000)
  else if o < 0x60000 then some (.thm, o - 0x50000)
  else if o < 0x70000 then some (.sec, o - 0x60000)
  else if o < 0x80000 then some (.dump, o - 0x70000)
  else if o < 0x90000 then some (.fab, o - 0x80000)
  else if o < 0xA0000 then some (.lnk, o - 0x90000)
  else if o < 0xB0000 then some (.cel, o - 0xA0000)
  else if o < 0xC0000 then some (.blk, o - 0xB0000)
  else none

/-- Where an offset of the register BAR lies: the window instance (core or region number, 0 for the module blocks),
the block and the offset in the block. -/
def locate (o : Nat) : Option (Nat × Block × Nat) :=
  if o < 0x01000000 then (moduleBlockOf o).map fun p => (0, p.1, p.2)
  else if o < 0x02000000 then
    (regionBlockOf ((o - 0x01000000) % 0x100000)).map fun p => ((o - 0x01000000) / 0x100000, p.1, p.2)
  else if 0x04000000 ≤ o ∧ o < 0x08000000 then
    let p := coreBlockOf ((o - 0x04000000) % 0x40000)
    some ((o - 0x04000000) / 0x40000, p.1, p.2)
  else none

/-- Whether a register starts at offset `o` of its block. -/
def RegDesc.startsAt (d : RegDesc) (o : Nat) : Bool :=
  if o < d.base then false
  else
    let x := o - d.base
    if d.n2 = 1 then
      if d.n1 = 1 then x == 0 else x % d.s1 == 0 && decide (x / d.s1 < d.n1)
    else
      let i := x / d.s1
      let y := x % d.s1
      decide (i < d.n1) && y % d.s2 == 0 && decide (y / d.s2 < d.n2)

/-- The register that starts at offset `o` of a block. -/
def findReg (b : Block) (o : Nat) : Option RegDesc :=
  (blockRegs b).find? fun d => d.startsAt o

/-- The reset value of a register, from the Reset column. -/
def RegDesc.resetNat (d : RegDesc) : Nat :=
  d.fields.foldl (fun a f => a + f.reset * 2 ^ f.lsb) 0

end Sys2Proof.Machine
end

