-- ==== Sys2Proof/Machine/Bits.lean ====
section
/-! DEFINITION. Bit fields, sign extension and byte order (R12). -/

namespace Sys2Proof.Machine

/-- The value of a field of a register. -/
def Fld.get (f : Fld) (v : DWord) : Nat := (v >>> f.lsb).toNat % 2 ^ f.width

/-- The bits of a field. -/
def Fld.mask (f : Fld) : DWord := BitVec.ofNat 64 ((2 ^ f.width - 1) * 2 ^ f.lsb)

/-- A register with one field replaced by `x`, taken modulo the field's size. -/
def Fld.set (f : Fld) (v : DWord) (x : Nat) : DWord :=
  (v &&& ~~~f.mask) ||| (BitVec.ofNat 64 (x % 2 ^ f.width) <<< f.lsb)

/-- Bits `[lo + n - 1 : lo]` of a number. -/
def bitsOf (v lo n : Nat) : Nat := v / 2 ^ lo % 2 ^ n

/-- Bit `i` of a number. -/
def bitOf (v i : Nat) : Bool := v.testBit i

/-- The bytes of a number, `n` of them, least significant first (R12). -/
def leBytes : Nat → Nat → List Byte
  | 0, _ => []
  | n + 1, v => BitVec.ofNat 8 v :: leBytes n (v / 256)

/-- The number that bytes spell, least significant first (R12). -/
def leNat : List Byte → Nat
  | [] => 0
  | b :: bs => b.toNat + 256 * leNat bs

/-- `n` bytes of a list from offset `o`; bytes past its end read 0. -/
def bytesAt (bs : List Byte) (o n : Nat) : List Byte :=
  let part := (bs.drop o).take n
  part ++ List.replicate (n - part.length) 0

/-- The little-endian number in `n` bytes of a list from offset `o`. -/
def leAt (bs : List Byte) (o n : Nat) : Nat := leNat (bytesAt bs o n)

/-- Sign extension of a 32-bit immediate to 64 bits (R243). -/
def sext32 (w : Word) : DWord := w.signExtend 64

/-- A list cut into rows of `n` elements, at most `fuel` of them. -/
def rowsOf {α : Type} (n : Nat) : Nat → List α → List (List α)
  | 0, _ => []
  | fuel + 1, l => if l.isEmpty then [] else l.take n :: rowsOf n fuel (l.drop n)

/-- The numbers whose bit is set in a mask of `n` bits, rising. -/
def maskList (n v : Nat) : List Nat := (List.range n).filter fun i => v.testBit i

/-- The operation taken from its queues: the oldest that equals it. -/
def removeFirst {α : Type} [DecidableEq α] (x : α) : List α → List α
  | [] => []
  | y :: ys => if y = x then ys else y :: removeFirst x ys

end Sys2Proof.Machine
end

