-- ==== Sys2Proof/Machine/Numeric.lean ====
section
/-! DEFINITION. The number formats of R62, exact values, and the roundings of R42, R43 and R63. -/

namespace Sys2Proof.Machine

/-- How a magnitude rounds: to nearest, ties to even (R42); stochastically with a 16-bit draw (R43), of a value above zero
and of one below it, whose hi of R43 is the lower magnitude; or up (R50). -/
inductive Rnd where
  | even
  | sr (r : Nat)
  | srNeg (r : Nat)
  | up
  deriving DecidableEq, Repr

/-- A float format: mantissa bits, exponent bias, code of the largest finite magnitude, code of infinity if it has
one, code of its NaN, and the place of the sign (R62). -/
structure FFmt where
  mant : Nat
  bias : Nat
  maxCode : Nat
  infCode : Option Nat
  nanCode : Nat
  signBit : Nat
  deriving DecidableEq, Repr

def fmtFp32 : FFmt := ⟨23, 127, 0x7F7FFFFF, some 0x7F800000, 0x7FC00000, 31⟩
def fmtBf16 : FFmt := ⟨7, 127, 0x7F7F, some 0x7F80, 0x7FC0, 15⟩
def fmtE4m3 : FFmt := ⟨3, 7, 0x7E, none, 0x7F, 7⟩
def fmtE5m2 : FFmt := ⟨2, 15, 0x7B, some 0x7C, 0x7E, 7⟩

/-- The rounding of a magnitude whose value has the sign `neg`. -/
def Rnd.onSide (r : Rnd) (neg : Bool) : Rnd :=
  match r with
  | .sr d => if neg then .srNeg d else .sr d
  | r => r

/-- A quotient of naturals rounded to a whole number of steps of 2^q. -/
def roundQ (r : Rnd) (num den : Nat) (q : Int) : Nat :=
  let nu := if q < 0 then num * 2 ^ (-q).toNat else num
  let de := if q < 0 then den else den * 2 ^ q.toNat
  let n := nu / de
  let rem := nu % de
  if rem = 0 then n
  else
    match r with
    | .even => if de < 2 * rem ∨ (de = 2 * rem ∧ n % 2 = 1) then n + 1 else n
    | .sr d => if 65536 ≤ rem * 65536 / de + d then n + 1 else n
    | .srNeg d => if 65536 ≤ (de - rem) * 65536 / de + d then n else n + 1
    | .up => n + 1

/-- The exponent of a positive quotient: the whole e with 2^e at most the quotient, below 2^(e+1). -/
def expOf (num den : Nat) : Int :=
  let e : Int := (Nat.log2 num : Int) - (Nat.log2 den : Int)
  let ge : Bool := if e < 0 then decide (den ≤ num * 2 ^ (-e).toNat) else decide (den * 2 ^ e.toNat ≤ num)
  if ge then e else e - 1

/-- The magnitude code of a quotient in a float format, as if the format had no upper limit (R63). -/
def FFmt.roundMag (f : FFmt) (r : Rnd) (num den : Nat) : Nat :=
  if num = 0 then 0
  else
    let qmin : Int := 1 - (f.bias : Int) - (f.mant : Int)
    let q := max (expOf num den - (f.mant : Int)) qmin
    (q - qmin).toNat * 2 ^ f.mant + roundQ r num den q

/-- The value of a code. -/
def FFmt.decode (f : FFmt) (code : Nat) : FVal :=
  let neg := code.testBit f.signBit
  let m := code % 2 ^ f.signBit
  if f.maxCode < m then
    if some m = f.infCode then .inf neg else .nan
  else
    let e := m / 2 ^ f.mant
    let fr := m % 2 ^ f.mant
    let sig := if e = 0 then fr else 2 ^ f.mant + fr
    let p := (if e = 0 then 1 else e)
    -- the value is sig * 2^(p - bias - mant)
    .fin neg (sig * 2 ^ p) (2 ^ (f.bias + f.mant))

/-- A converted value with the statuses of R63. -/
structure Conv where
  code : Nat
  nonfinite : Bool
  satFp8 : Bool
  satInt : Bool
  deriving DecidableEq, Repr

/-- A code with its sign. -/
def FFmt.signed (f : FFmt) (neg : Bool) (m : Nat) : Nat := (if neg then 2 ^ f.signBit else 0) + m

/-- Conversion to a float format (R63): `sat` says whether a finite value beyond the range saturates (a conversion) or
becomes an infinity (the result of an operation, R65). -/
def FFmt.convert (f : FFmt) (sat : Bool) (r : Rnd) (v : FVal) : Conv :=
  match v with
  | .nan => ⟨f.nanCode, true, false, false⟩
  | .inf neg =>
    match f.infCode with
    | some c => ⟨f.signed neg c, false, false, false⟩
    | none => ⟨f.nanCode, true, false, false⟩
  | .fin neg num den =>
    let m := f.roundMag (r.onSide neg) num den
    if f.maxCode < m then
      match sat, f.infCode with
      | false, some c => ⟨f.signed neg c, false, false, false⟩
      | _, _ => ⟨f.signed neg f.maxCode, false, decide (f.signBit = 7), false⟩
    else ⟨f.signed neg m, false, false, false⟩

/-- Conversion to a two's complement integer of `w` bits (R63), as the code's `w` bits. -/
def convertInt (w : Nat) (r : Rnd) (v : FVal) : Conv :=
  match v with
  | .nan => ⟨0, true, false, false⟩
  | .inf _ => ⟨0, true, false, false⟩
  | .fin neg num den =>
    let n := roundQ (r.onSide neg) num den 0
    if neg then
      if 2 ^ (w - 1) < n then ⟨2 ^ (w - 1), false, false, true⟩
      else ⟨(2 ^ w - n) % 2 ^ w, false, false, false⟩
    else if 2 ^ (w - 1) ≤ n then ⟨2 ^ (w - 1) - 1, false, false, true⟩
    else ⟨n, false, false, false⟩

/-- The whole number of a two's complement code of `w` bits. -/
def intOf (w code : Nat) : Int :=
  let c := code % 2 ^ w
  if c.testBit (w - 1) then (c : Int) - 2 ^ w else c

/-- The exact value of a whole number. -/
def FVal.ofInt (i : Int) : FVal := .fin (decide (i < 0)) i.natAbs 1

/-! ## Exact arithmetic on values -/

def FVal.neg : FVal → FVal
  | .nan => .nan
  | .inf n => .inf (!n)
  | .fin n a b => .fin (!n) a b

/-- The exact sum; a sum of two opposite values is +0. -/
def FVal.add : FVal → FVal → FVal
  | .nan, _ => .nan
  | _, .nan => .nan
  | .inf a, .inf b => if a = b then .inf a else .nan
  | .inf a, _ => .inf a
  | _, .inf b => .inf b
  | .fin na a b, .fin nc c d =>
    let x := a * d
    let y := c * b
    if na = nc then .fin na (x + y) (b * d)
    else if x = y then .fin false 0 1
    else if y < x then .fin na (x - y) (b * d)
    else .fin nc (y - x) (b * d)

def FVal.isZero : FVal → Bool
  | .fin _ a _ => a = 0
  | _ => false

def FVal.isFinite : FVal → Bool
  | .fin _ _ _ => true
  | _ => false

def FVal.sign : FVal → Bool
  | .nan => false
  | .inf n => n
  | .fin n _ _ => n

def FVal.mul : FVal → FVal → FVal
  | .nan, _ => .nan
  | _, .nan => .nan
  | .fin na a b, .fin nc c d => .fin (na != nc) (a * c) (b * d)
  | x, y => if x.isZero || y.isZero then .nan else .inf (x.sign != y.sign)

/-- The exact quotient. -/
def FVal.div : FVal → FVal → FVal
  | .nan, _ => .nan
  | _, .nan => .nan
  | .inf _, .inf _ => .nan
  | .inf a, y => .inf (a != y.sign)
  | x, .inf b => .fin (x.sign != b) 0 1
  | .fin na a b, .fin nc c d =>
    if c = 0 then (if a = 0 then .nan else .inf (na != nc)) else .fin (na != nc) (a * d) (b * c)

def FVal.abs : FVal → FVal
  | .nan => .nan
  | .inf _ => .inf false
  | .fin _ a b => .fin false a b

/-- Less than, of values that are numbers. -/
def FVal.lt : FVal → FVal → Bool
  | .nan, _ => false
  | _, .nan => false
  | .inf a, .inf b => a && !b
  | .inf a, .fin _ _ _ => a
  | .fin _ _ _, .inf b => !b
  | .fin na a b, .fin nc c d =>
    let x : Int := if na then -(a * d : Int) else a * d
    let y : Int := if nc then -(c * b : Int) else c * b
    decide (x < y)

/-- The exact value of an FP32 register word. -/
def fp32 (w : Word) : FVal := fmtFp32.decode w.toNat

/-- A value rounded to FP32 as the result of an operation (R65). -/
def toFp32 (v : FVal) : Word := BitVec.ofNat 32 (fmtFp32.convert false .even v).code

/-- FP32 operations, each rounded once (R65). -/
def fadd (x y : Word) : Word := toFp32 ((fp32 x).add (fp32 y))
def fsub (x y : Word) : Word := toFp32 ((fp32 x).add (fp32 y).neg)
def fmul (x y : Word) : Word := toFp32 ((fp32 x).mul (fp32 y))
def fdiv (x y : Word) : Word := toFp32 ((fp32 x).div (fp32 y))
def ffma (x y z : Word) : Word := toFp32 (((fp32 x).mul (fp32 y)).add (fp32 z))

/-- Whether an FP32 word is finite. -/
def ffinite (w : Word) : Bool := (fp32 w).isFinite
def fisNan (w : Word) : Bool := decide (fp32 w = .nan)
/-- Minimum and maximum: NaN when either operand is NaN (R215). -/
def fmin (x y : Word) : Word :=
  if fisNan x || fisNan y then 0x7FC00000#32 else if (fp32 y).lt (fp32 x) then y else x
def fmax (x y : Word) : Word :=
  if fisNan x || fisNan y then 0x7FC00000#32 else if (fp32 x).lt (fp32 y) then y else x

/-- The FP32 NaN the model delivers. -/
def fnan : Word := 0x7FC00000#32

/-- A finite sum in FP32 of terms in the order given, rounded after every addition. -/
def fsum (ws : List Word) : Word := ws.foldl fadd 0

/-- Insertion by a numeric key. -/
def insertByKey {α : Type} (key : α → Nat) (x : α) : List α → List α
  | [] => [x]
  | y :: ys => if key x < key y then x :: y :: ys else y :: insertByKey key x ys

/-- The list in rising order of a key; equal keys keep their order. -/
def sortByKey {α : Type} (key : α → Nat) : List α → List α
  | [] => []
  | x :: xs => insertByKey key x (sortByKey key xs)

/-- The terms of a reduction in the free order of draw `n`. -/
def freeOrder (n : Nat) (ws : List Word) : List Word :=
  (sortByKey (fun p : Word × Nat => Config.sumKey n p.2) ws.zipIdx).map fun p => p.1

/-! ## The transcendental functions of R215 -/

/-- Terms of the exponential series at `y / 2^s`, with `2^s` for 1: the sum of `fuel` terms from term `i`, worth `t`. -/
def expTerms (s y : Nat) : Nat → Nat → Nat → Nat
  | 0, _, _ => 0
  | fuel + 1, i, t => t + expTerms s y fuel (i + 1) (t * y / (2 ^ s * (i + 1)))

/-- `x` squared `k` times, with `2^s` for 1. -/
def squareTimes (s : Nat) : Nat → Nat → Nat
  | 0, x => x
  | k + 1, x => squareTimes s k (x * x / 2 ^ s)

/-- The exponential of a quotient below 128, with `2^400` for 1. -/
def expFix (num den : Nat) : Nat :=
  squareTimes 400 8 (expTerms 400 (num * 2 ^ 400 / (den * 2 ^ 8)) 70 0 (2 ^ 400))

/-- The exponential, far closer than one unit in the last place of FP32. -/
def FVal.exp : FVal → FVal
  | .nan => .nan
  | .inf n => if n then .fin false 0 1 else .inf false
  | .fin neg num den =>
    if 128 * den < num then (if neg then .fin false 0 1 else .fin false (2 ^ 200) 1)
    else if neg then .fin false (2 ^ 400) (expFix num den)
    else .fin false (expFix num den) (2 ^ 400)

/-- The whole square root: the largest r with r * r at most n, found bit by bit from bit `b - 1`. -/
def isqrt (n : Nat) : Nat → Nat → Nat
  | 0, r => r
  | b + 1, r => isqrt n b (if (r + 2 ^ b) * (r + 2 ^ b) ≤ n then r + 2 ^ b else r)

/-- The reciprocal square root, far closer than one unit in the last place of FP32. -/
def FVal.rsqrt : FVal → FVal
  | .nan => .nan
  | .inf n => if n then .nan else .fin false 0 1
  | .fin neg num den =>
    if num = 0 then .inf neg
    else if neg then .nan
    else .fin false (isqrt (den * 2 ^ 400 / num) 280 0) (2 ^ 200)

/-- The logistic function 1 / (1 + exp(-x)). -/
def FVal.sigmoid (v : FVal) : FVal := (FVal.ofInt 1).div ((FVal.ofInt 1).add v.neg.exp)

/-- The hyperbolic tangent; below 2^-40 it is its argument, to far less than a unit in the last place. -/
def FVal.tanh (v : FVal) : FVal :=
  match v with
  | .nan => .nan
  | .inf n => .fin n 1 1
  | .fin neg num den =>
    if num * 2 ^ 40 < den then v
    else
      let e := (FVal.fin neg (2 * num) den).exp
      (e.add (FVal.ofInt (-1))).div (e.add (FVal.ofInt 1))

/-- A result within 2 units in the last place of the value (R215): the nearest FP32 code, moved by the free draw. -/
def nearUlp (n i : Nat) (v : FVal) : Word :=
  let w := toFp32 v
  let m := w.toNat % 2 ^ 31
  let d := (Config.ulpDraw n i).toNat % 3
  if m = 0 ∨ 0x7F7FFFFF < m then w
  else if d = 0 then w
  else if d = 1 then w - 1
  else if m = 0x7F7FFFFF then w else w + 1

end Sys2Proof.Machine
end

