-- ==== Sys2Proof/Machine/Store.lean ====
section
/-! DEFINITION. Sparse storage in one canonical form: a list of (key, value) pairs with keys strictly rising and no
entry equal to what an unlisted key reads as. Every memory and register file of the machine is one of these. -/

namespace Sys2Proof.Machine

/-- The value at key `k`: the listed one, else the default `d k`. -/
def sread {α : Type} (d : Nat → α) : List (Nat × α) → Nat → α
  | [], k => d k
  | (k', v) :: m, k => if k = k' then v else sread d m k

/-- The list without its entries at key `k`. -/
def serase {α : Type} (m : List (Nat × α)) (k : Nat) : List (Nat × α) :=
  m.filter fun e => e.1 != k

/-- The list with `v` at key `k`, in rising order of keys. -/
def sinsert {α : Type} : List (Nat × α) → Nat → α → List (Nat × α)
  | [], k, v => [(k, v)]
  | (k', v') :: m, k, v =>
    if k < k' then (k, v) :: (k', v') :: m
    else if k = k' then (k, v) :: m
    else (k', v') :: sinsert m k v

/-- Write `v` at key `k`: writing the value an unlisted key reads as removes the entry. -/
def swrite {α : Type} [DecidableEq α] (d : Nat → α) (m : List (Nat × α)) (k : Nat) (v : α) : List (Nat × α) :=
  if v = d k then serase m k else sinsert m k v

/-- Return every key of `[lo, hi)` to its default. -/
def sclear {α : Type} (m : List (Nat × α)) (lo hi : Nat) : List (Nat × α) :=
  m.filter fun e => !(decide (lo ≤ e.1) && decide (e.1 < hi))

/-- Return to its default every key that `p` selects. -/
def sclearIf {α : Type} (m : List (Nat × α)) (p : Nat → Bool) : List (Nat × α) :=
  m.filter fun e => !p e.1

/-- The keys of a store rise strictly. -/
def srising {α : Type} : List (Nat × α) → Bool
  | [] => true
  | [_] => true
  | a :: b :: m => decide (a.1 < b.1) && srising (b :: m)

/-- The canonical form: keys strictly rising, no entry equal to the default of its key. -/
def swf {α : Type} [DecidableEq α] (d : Nat → α) (m : List (Nat × α)) : Bool :=
  srising m && m.all fun e => decide (e.2 ≠ d e.1)

end Sys2Proof.Machine
end

