-- ==== Sys2Proof/Syntax.lean ====
section
/-! DEFINITION. The commands the module takes: one constructor of Instr per row of the opcode table, with the row's
operands. A sequencer instruction carries the core that issues it and every field of its 64-bit word (R240). -/

namespace Sys2Proof

/-- A core of the module (R8). -/
abbrev CoreId := Fin 256
/-- A compute region CR_nn (R9). -/
abbrev RegionId := Fin 16
/-- A partition of the module. -/
abbrev PartId := Fin 16
/-- An optical port Pnn (R9). -/
abbrev PortId := Fin 32
/-- A completion token t0 to t15 (R230). -/
abbrev TokId := Fin 16
/-- A window of a core, or a signal slot. -/
abbrev WinId := Fin 64
/-- A general register g0 to g31 (R230). -/
abbrev GReg := Fin 32
/-- An address register a0 to a7 (R230). -/
abbrev AReg := Fin 8
/-- A bin of a core, 0 to 479 (R96). -/
abbrev BinId := Fin 480
/-- A context of the module (R307). -/
abbrev CtxId := Fin 65536
/-- A tenant (R330). -/
abbrev TenantId := Fin 1024
/-- A host queue (R543). -/
abbrev QueueId := Fin 4096
/-- A module of a system (R439). -/
abbrev ModId := Fin 48

/-- Format R of R240. -/
structure RFmt where
  gd : GReg
  ga : GReg
  gb : GReg
  resv : BitVec 9
  imm : Word
  deriving DecidableEq, Repr

/-- Format B of R240. -/
structure BFmt where
  resvLo : BitVec 5
  ga : GReg
  gb : GReg
  resvHi : BitVec 9
  ofs : Word
  deriving DecidableEq, Repr

/-- Format U of R240. -/
structure UFmt where
  tok : TokId
  as : AReg
  ad : AReg
  gn : GReg
  sr : Bool
  fn : Byte
  imm : Word
  deriving DecidableEq, Repr

/-- Format M of R240. -/
structure MFmt where
  tok : TokId
  as : AReg
  gt : GReg
  gn : GReg
  win : WinId
  join : Bool
  gg : GReg
  resv : BitVec 27
  deriving DecidableEq, Repr

/-- Format C of R240. -/
structure CFmt where
  tok : TokId
  win : WinId
  ga : GReg
  gd : GReg
  join : Bool
  resv : BitVec 3
  imm : Word
  deriving DecidableEq, Repr

/-- A chunk of the data of an install's entry, by number, and the host memory that its fetch read (R154). -/
structure ChunkRead where
  chunk : Nat
  mem : List (Nat × List Byte)
  deriving DecidableEq, Repr

/-- What the last read of a touch-up finds of a bin (R167): `devs` lists the data cells that are off their targets, by row and
column with how far in 0.01 level, and `refs` how far reference cells are off; cells not listed are on target. -/
structure CellRead where
  devs : List (Fin 16384 × Fin 256 × Nat)
  refs : List Nat
  deriving DecidableEq, Repr

/-- What a telemetry sample finds besides the regions' scans (R498, R507, R516): the inlet and the outlet sensor in 0.01 °C;
volts in 10 mV and amperes in 0.1 A of feeds A, B and of the 12 V feed; and of the domains HI, SP, HV, SN_0, SN_1 and AO the
current in 0.1 A and the power in W. -/
structure Sample where
  inlet : Int
  outlet : Int
  feedA : Nat × Nat
  feedB : Nat × Nat
  aux : Nat × Nat
  domains : List (Nat × Nat)
  deriving DecidableEq, Repr

/-- One constructor per row of the opcode table: a command the module takes. -/
inductive Instr where
  /-- ADD (R243): Scalar add of ga and gb plus IMM into gd. -/
  | add (c : CoreId) (f : RFmt)
  /-- SUB (R243): Scalar subtract of gb plus IMM from ga into gd. -/
  | sub (c : CoreId) (f : RFmt)
  /-- MUL (R243): Low 64 bits of ga times gb plus IMM into gd. -/
  | mul (c : CoreId) (f : RFmt)
  /-- AND (R243): Bitwise AND into gd. -/
  | and (c : CoreId) (f : RFmt)
  /-- OR (R243): Bitwise OR into gd. -/
  | or (c : CoreId) (f : RFmt)
  /-- XOR (R243): Bitwise XOR into gd. -/
  | xor (c : CoreId) (f : RFmt)
  /-- SHL (R243): Left shift of ga into gd. -/
  | shl (c : CoreId) (f : RFmt)
  /-- SHR (R243): Logical right shift of ga into gd. -/
  | shr (c : CoreId) (f : RFmt)
  /-- SRA (R243): Arithmetic right shift of ga into gd. -/
  | sra (c : CoreId) (f : RFmt)
  /-- MIN (R243): Signed minimum into gd. -/
  | min (c : CoreId) (f : RFmt)
  /-- MAX (R243): Signed maximum into gd. -/
  | max (c : CoreId) (f : RFmt)
  /-- SLT (R243): Signed less-than compare into gd. -/
  | slt (c : CoreId) (f : RFmt)
  /-- SLTU (R243): Unsigned less-than compare into gd. -/
  | sltu (c : CoreId) (f : RFmt)
  /-- LIH (R243): Load IMM into the high half of gd over ga's low half. -/
  | lih (c : CoreId) (f : RFmt)
  /-- LD (R244): Load 64 bits from the Pantry into gd, holding issue until data returns. -/
  | ld (c : CoreId) (f : RFmt)
  /-- LDW (R244): Load 32 bits zero-extended from the Pantry into gd. -/
  | ldw (c : CoreId) (f : RFmt)
  /-- ST (R244): Store 64 bits of gb to the Pantry. -/
  | st (c : CoreId) (f : RFmt)
  /-- STW (R244): Store 32 bits of gb to the Pantry. -/
  | stw (c : CoreId) (f : RFmt)
  /-- SETA (R244): Set an address register from ga plus IMM. -/
  | seta (c : CoreId) (f : RFmt)
  /-- GETA (R244): Read an address register plus IMM into gd. -/
  | geta (c : CoreId) (f : RFmt)
  /-- RDC (R245): Read the counter that IMM selects into gd. -/
  | rdc (c : CoreId) (f : RFmt)
  /-- TST (R244): Read a token's state and status into gd. -/
  | tst (c : CoreId) (f : RFmt)
  /-- BEQ (R246): Branch if equal. -/
  | beq (c : CoreId) (f : BFmt)
  /-- BNE (R246): Branch if not equal. -/
  | bne (c : CoreId) (f : BFmt)
  /-- BLT (R246): Branch if signed less. -/
  | blt (c : CoreId) (f : BFmt)
  /-- BGE (R246): Branch if signed greater or equal. -/
  | bge (c : CoreId) (f : BFmt)
  /-- BLTU (R246): Branch if unsigned less. -/
  | bltu (c : CoreId) (f : BFmt)
  /-- BGEU (R246): Branch if unsigned greater or equal. -/
  | bgeu (c : CoreId) (f : BFmt)
  /-- JMP (R246): Relative jump. -/
  | jmp (c : CoreId) (f : BFmt)
  /-- CALL (R246): Relative call saving the return pc in g31. -/
  | call (c : CoreId) (f : BFmt)
  /-- JR (R246): Jump to the pc held in ga. -/
  | jr (c : CoreId) (f : BFmt)
  /-- RETX (R246): Return from the exception handler to EPC. -/
  | retx (c : CoreId) (f : BFmt)
  /-- HALT (R246): Halt the sequencer with pc at the next instruction. -/
  | halt (c : CoreId) (f : BFmt)
  /-- NOP (R246): No operation. -/
  | nop (c : CoreId) (f : BFmt)
  /-- BRK (R246): Raise the BREAK exception. -/
  | brk (c : CoreId) (f : BFmt)
  /-- LATE_PUT (R269): A pending LATE_PUT exception is taken at the next instruction boundary. -/
  | latePut (c : CoreId)
  /-- TWAIT (R247): Wait on a token mask, optionally sleeping in Hold or Doze. -/
  | twait (c : CoreId) (f : CFmt)
  /-- TWAIT_COMPLETE (R247): The waited tokens become DONE and the blocked TWAIT completes, waking the core. -/
  | twaitComplete (c : CoreId)
  /-- SLEEP_ENTRY (R111): A deferred Doze, Retain or Dark entry takes effect once no evaluation is in flight. -/
  | sleepEntry (c : CoreId)
  /-- CORE_WAKE_DONE (R472): A waking core reaches Run after its state's wake time. -/
  | coreWakeDone (c : CoreId)
  /-- ENG_LOAD (R250): Load a stationary tile into each engine of the mask as a moving front. -/
  | engLoad (c : CoreId) (f : UFmt)
  /-- ENG_RUN (R250): Stream M vectors through the engines of the mask into accumulators. -/
  | engRun (c : CoreId) (f : UFmt)
  /-- ENG_DRAIN (R250): Convert and move accumulator entries to the Pantry. -/
  | engDrain (c : CoreId) (f : UFmt)
  /-- ENG_MODE (R250): Switch engines between whole and quadrant mode once empty. -/
  | engMode (c : CoreId) (f : UFmt)
  /-- ENG_RUN_COMPLETE (R182): The last output of an engine run is complete in accumulator memory and its token completes. -/
  | engRunComplete (c : CoreId) (t : TokId)
  /-- ENG_DRAIN_COMPLETE (R185): A drain's last entry is written to the Pantry and its token completes. -/
  | engDrainComplete (c : CoreId) (t : TokId)
  /-- RACK_FIRE (R252): Queue a forward evaluation of bins at the rack interface. -/
  | rackFire (c : CoreId) (f : UFmt)
  /-- RACK_REV (R252): Queue a reverse read of bins. -/
  | rackRev (c : CoreId) (f : UFmt)
  /-- RACK_TEST (R252): Fire test patterns in named bins and take the drift action. -/
  | rackTest (c : CoreId) (f : UFmt)
  /-- RACK_FREE (R252): Free the output-buffer space a token holds. -/
  | rackFree (c : CoreId) (f : UFmt)
  /-- FIRE_STAGING (R217): The rack interface copies a queued fire's inputs into the staging buffer once room allows. -/
  | fireStaging (c : CoreId)
  /-- FIRE_ISSUE (R217): A staged fire issues to all its bins once bins, buffer room and power leave allow. -/
  | fireIssue (c : CoreId) (t : TokId)
  /-- ZERO_SKIP_DELIVER (R109): An all-zero evaluation delivers its outputs at 40 ns without running. -/
  | zeroSkipDeliver (c : CoreId) (t : TokId)
  /-- OFFLINE_FIRE (R116): An evaluation of a bin not IN_SERVICE delivers NaN at 300 ns with BIN_OFFLINE. -/
  | offlineFire (c : CoreId) (t : TokId)
  /-- BIN_EVAL_DELIVER (R106): A forward evaluation's outputs become valid at the rack interface at 300 ns. -/
  | binEvalDeliver (c : CoreId) (t : TokId)
  /-- REVERSE_READ_DELIVER (R119): A reverse read's row outputs become valid at 600 ns. -/
  | reverseReadDeliver (c : CoreId) (t : TokId)
  /-- FIRE_COPY_DONE (R252): COPY of a fire's outputs to the Pantry finishes, freeing buffer space and completing the token. -/
  | fireCopyDone (c : CoreId) (t : TokId)
  /-- QUIET_SLOT_PATTERN (R131): A test pattern fires on its own after the bin has been idle 2 µs. -/
  | quietSlotPattern (c : CoreId) (b : BinId) (pat : Fin 4)
  /-- TEST_PERIOD_EXPIRE (R132): A bin's test period ends without all patterns complete and CHK_OVERDUE counts. -/
  | testPeriodExpire (c : CoreId) (b : BinId)
  /-- STAT_WINDOW_END (R134): A statistical window's count ends and the column is compared with its envelope. -/
  | statWindowEnd (c : CoreId) (b : BinId)
  /-- ACT_TEST_RUN (R81): Test vectors requested by a norm trip run in the next free slots. -/
  | actTestRun (c : CoreId) (layer : BitVec 16)
  /-- RECAL_COMPLETE (R137): A recalibration's sum measurement completes, trims are set and patterns rerun. -/
  | recalComplete (c : CoreId) (b : BinId)
  /-- REFRESH_QUEUE_CHECK (R139): The 1 ms queue check starts queued refreshes of idle partitions with AUTO set. -/
  | refreshQueueCheck
  /-- REFRESH_GO (R139): Writing a partition's GO bit starts its queued refreshes. -/
  | refreshGo (v : Word)
  /-- REFRESH_COMPLETE (R138): A bin's refresh finishes and the bin returns to service or goes OFFLINE. -/
  | refreshComplete (c : CoreId) (b : BinId)
  /-- LABEL_WRITE_BACK (R123): A corrected label word is written back before the next telemetry sample. -/
  | labelWriteBack (c : CoreId) (rack : Fin 15360)
  /-- VEC_ELEM (R256): Elementwise vector function. -/
  | vecElem (c : CoreId) (f : UFmt)
  /-- VEC_REDUCE (R256): Reduce a vector to a scalar. -/
  | vecReduce (c : CoreId) (f : UFmt)
  /-- VEC_RMSNORM (R256): RMS normalisation of a vector. -/
  | vecRmsnorm (c : CoreId) (f : UFmt)
  /-- VEC_SOFTMAX (R256): Softmax over rows. -/
  | vecSoftmax (c : CoreId) (f : UFmt)
  /-- VEC_ACT (R256): Activation function with optional addend. -/
  | vecAct (c : CoreId) (f : UFmt)
  /-- VEC_ROPE (R256): Rotary position on element pairs. -/
  | vecRope (c : CoreId) (f : UFmt)
  /-- VEC_QUANT (R256): Quantise a vector to a narrower format. -/
  | vecQuant (c : CoreId) (f : UFmt)
  /-- VEC_DEQUANT (R256): Apply block scales to block-format codes. -/
  | vecDequant (c : CoreId) (f : UFmt)
  /-- VEC_TOPK (R256): Indices of the k largest values. -/
  | vecTopk (c : CoreId) (f : UFmt)
  /-- VEC_SAMPLE (R323): Draw one token with a context's sampling generator. -/
  | vecSample (c : CoreId) (f : UFmt)
  /-- VEC_OP_COMPLETE (R213): A vector operation's result is written and its token completes. -/
  | vecOpComplete (c : CoreId)
  /-- WIN_OPEN (R259): Open a window with a target, advancing its generation. -/
  | winOpen (c : CoreId) (f : CFmt)
  /-- WIN_CLOSE (R259): Close a window. -/
  | winClose (c : CoreId) (f : CFmt)
  /-- WIN_DRAIN (R259): Drain a window with a bound. -/
  | winDrain (c : CoreId) (f : CFmt)
  /-- WIN_WAIT (R205): Wait until a window's count meets its target. -/
  | winWait (c : CoreId) (f : CFmt)
  /-- WIN_CLOSE_DONE (R203): Accepted writes finish after a close and the close token completes. -/
  | winCloseDone (c : CoreId) (w : WinId)
  /-- WIN_DRAIN_EXPIRE (R199): A drain's bound expires and the window closes EXPIRED. -/
  | winDrainExpire (c : CoreId) (w : WinId)
  /-- WIN_WAIT_TIMEOUT (R205): A WIN.WAIT times out after CORE.WAIT_LIMIT ticks. -/
  | winWaitTimeout (c : CoreId) (w : WinId)
  /-- FORCE_CLOSE (R199): Writing WIN_CTL.FORCE_CLOSE closes the window. -/
  | forceClose (c : CoreId) (w : WinId) (v : Word)
  /-- PUT (R260): Send bytes to a target core's window. -/
  | put (c : CoreId) (f : MFmt)
  /-- GET (R260): Read bytes from a device address into the Pantry. -/
  | get (c : CoreId) (f : MFmt)
  /-- PUT_ACCEPTANCE_CHECK (R200): A whole PUT at the owner's ingress is checked and accepted or discarded. -/
  | putAcceptanceCheck (id : Nat)
  /-- PUT_WRITE_DONE (R201): An accepted PUT is written and the window count rises. -/
  | putWriteDone (id : Nat)
  /-- GET_SERVE (R208): A target serves a GET's read. -/
  | getServe (id : Nat)
  /-- NET_COMPLETION (R212): A PUT or GET completion reaches its sender and completes the token. -/
  | netCompletion (id : Nat)
  /-- NET_TIMEOUT (R211): A PUT or GET completes TIMEOUT after CORE.NET_LIMIT ticks. -/
  | netTimeout (id : Nat)
  /-- KV_APPEND (R261): Stage a KV entry in every replica of the layer's set. -/
  | kvAppend (c : CoreId) (f : UFmt)
  /-- KV_APPEND_COMPLETE (R282): The last replica of an append is written and the token completes. -/
  | kvAppendComplete (c : CoreId) (t : TokId)
  /-- KV_COMMIT (R284): Commit tentative nodes or the pending entry in every layer. -/
  | kvCommit (c : CoreId) (f : UFmt)
  /-- KV_ROLLBACK (R286): Free tentative nodes or the pending entry in every layer. -/
  | kvRollback (c : CoreId) (f : UFmt)
  /-- KV_MAP (R288): Install a page-map entry for a context and layer. -/
  | kvMap (c : CoreId) (f : UFmt)
  /-- KV_DIGEST (R289): Write a block's digest. -/
  | kvDigest (c : CoreId) (f : UFmt)
  /-- LOFT_FETCH_COMPLETE (R301): A recalled page arrives from the Loft in every replica and the token completes. -/
  | loftFetchComplete (id : Nat) (ok : Bool) (data : List Byte)
  /-- SPILL_WRITE_COMPLETE (R300): A spilled page's Loft write completes and its slot is freed. -/
  | spillWriteComplete (id : Nat) (ok : Bool)
  /-- NODE_RETIRE_FREE (R295): A RETIRING node whose REFS reached 0 is freed. -/
  | nodeRetireFree (p : PartId) (node : Nat)
  /-- TREE_MASK (R262): Build ancestor mask rows from parent bytes. -/
  | treeMask (c : CoreId) (f : UFmt)
  /-- CLAIM (R263): Request a bin and engine claim from the region arbiter. -/
  | claim (c : CoreId) (f : CFmt)
  /-- RELEASE (R263): Set the core's claim to zero. -/
  | release (c : CoreId) (f : CFmt)
  /-- CLAIM_GRANT (R479): A queued claim is granted when it fits the cap and ration. -/
  | claimGrant (r : RegionId)
  /-- CUE (R264): Send a wake or heavy cue to consecutive cores. -/
  | cue (c : CoreId) (f : CFmt)
  /-- SIGNAL (R265): Add an amount to a signal slot of a target core. -/
  | signal (c : CoreId) (f : CFmt)
  /-- WAIT (R265): Wait until a signal slot reaches an amount and subtract it. -/
  | wait (c : CoreId) (f : CFmt)
  /-- HEAVY_RESERVATION_EXPIRE (R482): A HEAVY reservation lapses after 80 always-on ticks. -/
  | heavyReservationExpire (c : CoreId)
  /-- SEQ_START (R272): Writing SEQ.CTL.START starts the sequencer at START_PC. -/
  | seqStart (c : CoreId)
  /-- SEQ_RESUME (R272): START with RESUME restarts at SEQ.PC. -/
  | seqResume (c : CoreId)
  /-- SEQ_HALT (R272): Writing SEQ.CTL.HALT halts before the next issue. -/
  | seqHalt (c : CoreId)
  /-- SEQ_CODE_DATA (R272): An access to SEQ.CODE_DATA reads or writes the code store and advances ADDR. -/
  | seqCodeData (c : CoreId) (w : Option DWord)
  /-- CORE_SCRUB (R196): Writing CORE.SCRUB.GO scrubs the Pantry of an idle core. -/
  | coreScrub (c : CoreId) (v : Word)
  /-- SCRUB_COMPLETE (R196): A Pantry scrub finishes and SCRUB_BUSY clears. -/
  | scrubComplete (c : CoreId)
  /-- BORROW (R220): Writing RIF.BORROW.EN 1 makes a swing core take over another core's racks. -/
  | borrow (c : CoreId) (v : Word)
  /-- BORROW_END (R221): Writing RIF.BORROW.EN 0 ends the borrow. -/
  | borrowEnd (c : CoreId) (v : Word)
  /-- BORROW_READY (R220): The rack bus finishes switching and READY sets. -/
  | borrowReady (c : CoreId)
  /-- REC_DATA_LATCH (R141): Reading RACK.REC_DATA_0 latches the selected rack or bin record. -/
  | recDataLatch (c : CoreId)
  /-- CAPTURE_ARM (R141): Writing CAPTURE_CTL with ARM 1 arms a segment capture. -/
  | captureArm (c : CoreId) (v : Word)
  /-- SAT_COUNT_CLEAR (R71): Any write to RND.SAT_COUNT_CLEAR zeroes the saturation count. -/
  | satCountClear (c : CoreId) (v : Word)
  /-- NRM_COMMIT (R87): Committing the NRM group checks and applies the monitor configuration. -/
  | nrmCommit (c : CoreId) (v : Word)
  /-- CHK_COMMIT (R143): Committing a partition's checking group. -/
  | chkCommit (p : PartId) (v : Word)
  /-- SRV_KV_COMMIT (R305): Committing a partition's KV register group. -/
  | srvKvCommit (p : PartId) (v : Word)
  /-- TREE_COMMIT (R354): Committing a partition's tree shape. -/
  | treeCommit (p : PartId) (v : Word)
  /-- WIN_COMMIT (R226): Committing a window's base and length. -/
  | winCommit (c : CoreId) (w : WinId) (v : Word)
  /-- LOW_HALF_READ (R23): A 32-bit read of a 64-bit register's low half latches its high half. -/
  | lowHalfRead (off : BitVec 32)
  /-- RECORD_LATCH_READ (R145): Reading the first word of a log or record window latches the whole record. -/
  | recordLatchRead (off : BitVec 32)
  /-- REGISTER_WRITE (R17): A write to a register without a row of its own, applied by its class or refused. -/
  | registerWrite (off : BitVec 32) (width : Nat) (v : DWord)
  /-- INST_GO (R176): Writing CEL.INST_CTL.GO starts an install from INST_DESC. -/
  | instGo (v : Word)
  /-- INST_ABORT (R175): Writing ABORT stops the install after the pulse in progress. -/
  | instAbort (v : Word)
  /-- INSTALL_CHECK_DONE (R158): The install stream is fetched and checked, and installation begins or is refused. -/
  | installCheckDone (mem : List (Nat × List Byte))
  /-- CHUNK_CRC_FAIL (R154): A fetched chunk fails its CRC and is refetched or ends the entry DATA_CRC. -/
  | chunkCrcFail (entry : Nat) (chunk : ChunkRead)
  /-- FIRST_PASS_DONE (R164): A bin's first pass ends and the die starts its next bin. -/
  | firstPassDone (c : CoreId) (b : BinId) (erased : Fin 33) (mem : List (Nat × List Byte))
  /-- SETTLE_EXPIRE (R164): A bin's 330 s settle ends and its touch-up may begin. -/
  | settleExpire (c : CoreId) (b : BinId)
  /-- TOUCH_UP_DONE (R167): A bin's touch-up ends with its outcome. -/
  | touchUpDone (c : CoreId) (b : BinId) (cells : CellRead)
  /-- HV_FAULT (R175): An HV failure ends the install FAILED. -/
  | hvFault
  /-- FEED_LOSS (R455): A 72 V feed out of range for 50 µs is lost and the other carries the load. -/
  | feedLoss (b : Bool)
  /-- FEED_RETURN (R455): A feed within range for 100 ms is used again. -/
  | feedReturn (b : Bool)
  /-- BOTH_FEEDS_LOST (R456): Loss of the second feed opens every segment switch. -/
  | bothFeedsLost
  /-- AUX_FEED_LOSS (R457): Loss of the 12 V feed is a module reset. -/
  | auxFeedLoss
  /-- PRESENT_N_OPEN (R628): A 72 V connector's PRESENT_N opens and the feed is treated as lost at once. -/
  | presentNOpen (b : Bool)
  /-- FEED_CONNECT (R629): A connected feed's input capacitance finishes charging. -/
  | feedConnect (b : Bool)
  /-- CONVERTER_FAIL (R459): A failed converter is isolated and its segment's FEED cap falls. -/
  | converterFail (n : Fin 64)
  /-- REGULATOR_FAIL (R461): A failed regulator is disconnected and the region caps or goes out. -/
  | regulatorFail (r : RegionId) (n : Fin 48)
  /-- SEGMENT_TRIP (R463): A segment over 200 A for 1 µs is isolated and its region goes Dark. -/
  | segmentTrip (r : RegionId)
  /-- SHORT_CLR (R463): Writing STG.SHORT_CLR clears SHORT and permits one attempt. -/
  | shortClr (r : RegionId) (v : Word)
  /-- CURTAIN_UP (R465): PWR.CURTAIN_CTL UP asks regions to come up in curtain order. -/
  | curtainUp (v : Word)
  /-- CURTAIN_DOWN (R475): PWR.CURTAIN_CTL DOWN takes an unbound region down. -/
  | curtainDown (v : Word)
  /-- INRUSH_SLOT_GRANT (R469): A region is granted its inrush slot and bring-up begins. -/
  | inrushSlotGrant (r : RegionId)
  /-- INRUSH_TIMEOUT (R470): The slot is granted anyway after TIMEOUT and loaded neighbours skip. -/
  | inrushTimeout (r : RegionId)
  /-- REGION_RUN (R466): A region reaches Run, caps are recomputed and the sequence moves on. -/
  | regionRun (r : RegionId)
  /-- BRINGUP_TIMEOUT (R467): A region not in Run 10 ms after its slot is left Dark with UP_FAIL. -/
  | bringupTimeout (r : RegionId)
  /-- REGION_SWITCH_OPEN (R468): A normal curtain-down opens the switch after evaluations end. -/
  | regionSwitchOpen (r : RegionId)
  /-- RETAIN_ENTRY (R473): The stagehand puts an idle halted core into Retain. -/
  | retainEntry (c : CoreId)
  /-- STG_WAKE (R473): Writing STG.WAKE wakes cores from Retain. -/
  | stgWake (r : RegionId) (v : Word)
  /-- DARK_ENTRY (R475): A region idle for DARK_IDLE goes Dark automatically. -/
  | darkEntry (r : RegionId)
  /-- DROOP_LEVEL (R484): A droop monitor crossing a level applies its skip rate. -/
  | droopLevel (c : CoreId) (lvl : Fin 4)
  /-- DROOP_STEP_DOWN (R485): After 128 cycles below the level the skip rate steps down. -/
  | droopStepDown (c : CoreId)
  /-- TELEMETRY_SAMPLE (R498): The 1 ms sample updates telemetry, trims, thermal limits and caps. -/
  | telemetrySample (x : Sample)
  /-- SCAN_COMPLETE (R515): A scan list completes and accumulators are published. -/
  | scanComplete (r : RegionId) (scan : List (Nat × Nat × Nat))
  /-- REGION_SKIP_REVIEW (R489): Every 1 µs the region-wide skip rate for an over-cap load is reviewed. -/
  | regionSkipReview (r : RegionId)
  /-- INPUT_LIMIT (R491): Input above PEAK_W by 5 % for 50 µs makes every region skip 1 in 2. -/
  | inputLimit
  /-- PHASE (R483): A PWR.PHASE write records a partition's expected extra draw. -/
  | phase (v : Word)
  /-- LK_CTL (R460): A PWR.LK_CTL write switches LK domains. -/
  | lkCtl (v : Word)
  /-- SLACK_REPORT (R495): Every 1 ms a module sends a slack REPORT to the partition lead. -/
  | slackReport
  /-- SLACK_RANKING (R496): Every 1 ms the lead ranks reports and sends GRANTs. -/
  | slackRanking
  /-- SLACK_GRANT (R496): A received GRANT shifts the module's effective SUSTAINED_W. -/
  | slackGrant
  /-- SHIFT_LAPSE (R496): A shift not renewed within 10 ms lapses. -/
  | shiftLapse
  /-- TRAY_FRAME (R506): A tray frame is received and checked. -/
  | trayFrame (bytes : List Byte)
  /-- TRAY_SILENCE (R508): No valid tray frame for 50 ms makes the link silent. -/
  | traySilence
  /-- FLOW_STOP (R521): FLOW_OK deasserted for 100 µs or another test detects a flow stop. -/
  | flowStop
  /-- FLOW_RESTORE (R523): Flow conditions holding for RECOVER return FLOW_STATE to NORMAL. -/
  | flowRestore
  /-- STOP_DARK_EXPIRE (R524): Flow not restored within STOP_DARK begins taking regions down. -/
  | stopDarkExpire
  /-- FLOW_DARK_STEP (R524): Each 1 ms the next region in reverse curtain order is taken down. -/
  | flowDarkStep
  /-- HARDWARE_TRIP (R527): A diode at 115 °C for 10 µs trips its region down. -/
  | hardwareTrip (r : RegionId)
  /-- TRIP_CLR (R528): Writing THM.TRIP_CLR clears a region's trip when cool. -/
  | tripClr (v : Word)
  /-- SUSPECT_CLR (R512): Writing THM.SUSPECT_CLR clears a region's SUSPECT marks. -/
  | suspectClr (v : Word)
  /-- MESH_ROUTE (R411): A router steers a message by its first matching entry. -/
  | meshRoute (id : Nat)
  /-- FMAP_MARK (R450): A FAB.FMAP_CTL write marks an element bad. -/
  | fmapMark (v : Word)
  /-- FMAP_UNMARK (R450): A FAB.FMAP_CTL write removes an in-service mark. -/
  | fmapUnmark (v : Word)
  /-- ROUTE_REWRITE (R415): The firmware finishes rewriting channel 1 entries after a fault-map change. -/
  | routeRewrite
  /-- MESH_LINK_BAD (R570): A link exceeding its retry limits is marked bad. -/
  | meshLinkBad (core : CoreId) (south : Bool)
  /-- PN_CUE (R481): A cue reaches a core and wakes it or reserves heavy current. -/
  | pnCue (id : Nat)
  /-- PN_SIGNAL (R265): A SIGNAL adds to a slot and acknowledges. -/
  | pnSignal (id : Nat)
  /-- SIGNAL_ACK (R265): A SIGNAL acknowledgement completes the sender's token. -/
  | signalAck (id : Nat)
  /-- WIN_NOTICE (R425): A sender discards unsent PUTs of a refused generation. -/
  | winNotice (id : Nat)
  /-- PN_KV_COMMIT (R287): A holder applies a commit message and acknowledges. -/
  | pnKvCommit (id : Nat)
  /-- PN_KV_ROLLBACK (R286): A holder applies a rollback message and acknowledges. -/
  | pnKvRollback (id : Nat)
  /-- KV_ACK (R261): A holder's acknowledgement counts toward a commit or rollback token. -/
  | kvAck (id : Nat)
  /-- HEARTBEAT_CHECK (R572): Every 20 µs a cluster control node checks its cores and sends heartbeats. -/
  | heartbeatCheck (cluster : Fin 64)
  /-- HEARTBEAT (R572): A stagehand receives a core's heartbeat. -/
  | heartbeat (id : Nat)
  /-- FAULT (R422): A fault message reaches its node and is recorded or acted on. -/
  | fault (id : Nat)
  /-- REG_READ (R36): A register read carried over the Prompt net is applied. -/
  | regRead (off : BitVec 32) (width : Nat)
  /-- REG_WRITE (R36): A register write carried over the Prompt net is applied. -/
  | regWrite (off : BitVec 32) (width : Nat) (v : DWord)
  /-- REG_RESP (R542): A register answer reaches the host interface block. -/
  | regResp (id : Nat)
  /-- COMMIT_NOTICE (R328): A commit notice reaches the host interface and timestamps the pass. -/
  | commitNotice (id : Nat)
  /-- DEADLINE (R332): A deadline notice reaches the head core. -/
  | deadline (id : Nat)
  /-- PART_BEAT (R443): A member receives a partition beat and answers PART_ACK. -/
  | partBeat (id : Nat)
  /-- PART_ACK (R443): The lead receives a member's answer. -/
  | partAck (id : Nat)
  /-- PART_BEAT_TIMER (R443): Every 4 µs the lead sends PART_BEAT to each member. -/
  | partBeatTimer (p : PartId)
  /-- PARTITION_FREEZE (R445): 16 µs without beats or answers freezes a spanning partition. -/
  | partitionFreeze (p : PartId)
  /-- PARTITION_RESUME (R446): 100 ms of answered beats resumes a frozen partition. -/
  | partitionResume (p : PartId)
  /-- SPLIT_GO (R446): Writing LNK.SPLIT_GO resumes a held frozen partition. -/
  | splitGo (v : Word)
  /-- MGMT_FRAME (R426): A management-plane frame is received and applied or forwarded. -/
  | mgmtFrame (frame : DWord)
  /-- MGMT_RETRY (R427): An unanswered request is repeated after 50 µs. -/
  | mgmtRetry
  /-- MGMT_BREAK (R427): 100 µs without returning frames sets MGMT_BREAK. -/
  | mgmtBreak
  /-- STAGEHAND_SAFE (R428): A stagehand unaddressed for 10 ms enters SAFE. -/
  | stagehandSafe (r : RegionId)
  /-- FLIT_DATA (R431): A DATA flit is received, checked and delivered or forwarded. -/
  | flitData (port : PortId) (flit : List Byte)
  /-- FLIT_PROMPT (R431): A PROMPT flit's messages are received. -/
  | flitPrompt (port : PortId) (flit : List Byte)
  /-- FLIT_SLACK (R431): A SLACK flit's power-slack record is received. -/
  | flitSlack (port : PortId) (flit : List Byte)
  /-- FLIT_IDLE (R431): An IDLE flit delivers acknowledgement and credit. -/
  | flitIdle (port : PortId) (flit : List Byte)
  /-- FLIT_LINK (R437): A LINK flit's identity is received in training. -/
  | flitLink (port : PortId) (flit : List Byte)
  /-- IDLE_FLIT_TIMER (R434): An idle port sends an IDLE flit every 1 µs. -/
  | idleFlitTimer (port : PortId)
  /-- ACK_TIMER (R433): The receiver returns ACK at least every 100 ns. -/
  | ackTimer (port : PortId)
  /-- PORT_SILENCE (R434): 8 µs without a good flit declares the link DOWN. -/
  | portSilence (port : PortId)
  /-- RETRAIN_TIMER (R436): An enabled DOWN port starts training again after 10 µs or 10 ms. -/
  | retrainTimer (port : PortId)
  /-- TRAINING_COMPLETE (R437): Training ends with the port UP or REFUSED. -/
  | trainingComplete (port : PortId)
  /-- PORT_ENABLE (R452): Setting PORT_CTL.ENABLE trains the port. -/
  | portEnable (port : PortId)
  /-- PORT_DISABLE (R452): Clearing PORT_CTL.ENABLE takes the port DOWN. -/
  | portDisable (port : PortId)
  /-- RETRAIN (R452): Writing PORT_CTL.RETRAIN takes the port DOWN and trains it again. -/
  | retrain (port : PortId)
  /-- CREATE (R311): A CREATE request adopts a context record. -/
  | create (q : QueueId) (desc : Option (List Byte)) (record : Option (List Byte))
  /-- GENERATE (R316): A GENERATE request appends a prompt and emits tokens. -/
  | generate (q : QueueId) (desc : Option (List Byte)) (prompt : List Word) (record : Option (List Byte))
  /-- ADAPT (R346): An ADAPT request runs adaptation steps. -/
  | adapt (q : QueueId) (desc : Option (List Byte)) (prompt : List Word) (record : Option (List Byte))
  /-- PARK (R339): A PARK request parks a context. -/
  | park (q : QueueId) (desc : Option (List Byte))
  /-- RESUME (R340): A RESUME request restores a context into a partition. -/
  | resume (q : QueueId) (desc : Option (List Byte)) (record : Option (List Byte))
  /-- DELETE (R343): A DELETE request ends a context. -/
  | delete (q : QueueId) (desc : Option (List Byte))
  /-- PASS_ADMISSION (R319): A pass is admitted into the pipeline when its conditions hold. -/
  | passAdmission (p : PartId)
  /-- PARK_COMPLETE (R339): A park's Loft writes complete and the record is written. -/
  | parkComplete (ctx : CtxId) (ok : Bool)
  /-- RESUME_COMPLETE (R340): A resume's fetches complete and the context becomes RESIDENT. -/
  | resumeComplete (ctx : CtxId) (mem : List (Nat × List Byte))
  /-- DEADLINE_TIMER (R332): The host counter reaches the request's deadline and a notice is sent. -/
  | deadlineTimer
  /-- TEN_REFILL (R331): A write to SRV.TEN_REFILL adds to a tenant's balance. -/
  | tenRefill (t : TenantId) (v : DWord)
  /-- REBIND_GO (R351): Writing BLK.REBIND_CTL.GO starts a rebind. -/
  | rebindGo (v : Word)
  /-- REBIND_PROCEED (R351): The last pass using the named cores ends and the rebind completes its steps. -/
  | rebindProceed
  /-- LOAD_GO (R387): Writing BLK.LOAD_CTL.GO starts a blocking-image load. -/
  | loadGo (v : Word)
  /-- LOAD_FETCH_COMPLETE (R388): The image and binding are fetched and checked, and the load proceeds or fails. -/
  | loadFetchComplete (img : Option (List Byte)) (bind : Option (List Byte))
  /-- LOAD_WRITE_COMPLETE (R387): The WRITE state finishes and the load reaches DONE. -/
  | loadWriteComplete
  /-- PARTITION_DIGEST (R391): The lead receives a member's partition digest and readies the partition when all agree. -/
  | partitionDigest (p : PartId) (mod : ModId) (digest : Option (List Byte))
  /-- UNLOAD (R392): Writing BLK.LOAD_CTL.UNLOAD unloads a slot. -/
  | unload (v : Word)
  /-- UNLOAD_COMPLETE (R392): The slot and its partitions become EMPTY. -/
  | unloadComplete
  /-- PERST_ASSERT (R537): PERST# asserted resets the host interface block. -/
  | perstAssert
  /-- PERST_DEASSERT (R535): PERST# deasserted starts link bring-up. -/
  | perstDeassert
  /-- LINK_UP (R535): The link reaches L0. -/
  | linkUp (width : Fin 3) (speed : Fin 4) (cxl : Bool) (lopt : Bool) (ideIo : Bool) (ideCm : Bool)
  /-- LINK_LOST (R538): Loss of the link puts queues in ERROR and ends fetched requests. -/
  | linkLost
  /-- QUEUE_ENABLE (R544): HIF.QCTL ENABLE fetches and checks a queue entry. -/
  | queueEnable (v : Word)
  /-- QUEUE_ENTRY_FETCHED (R544): A queue table entry arrives and the queue becomes ACTIVE or ERROR. -/
  | queueEntryFetched (q : QueueId) (entry : Option (List Byte))
  /-- QUEUE_DISABLE (R544): HIF.QCTL DISABLE drains a queue. -/
  | queueDisable (v : Word)
  /-- QUEUE_DRAINED (R544): A draining queue's last request ends and it becomes DISABLED. -/
  | queueDrained (q : QueueId)
  /-- SQ_TAIL (R545): A doorbell write of SQ_TAIL starts descriptor fetches. -/
  | sqTail (q : QueueId) (v : Word)
  /-- CQ_HEAD (R545): A doorbell write of CQ_HEAD frees completion slots. -/
  | cqHead (q : QueueId) (v : Word)
  /-- COMPLETION_WRITE (R547): A completion is written to its queue once space allows. -/
  | completionWrite (q : QueueId) (ok : Bool)
  /-- INTERRUPT_COALESCE (R549): COAL_TICKS expiry signals the queue's vector. -/
  | interruptCoalesce (q : QueueId)
  /-- READ_TIMEOUT (R542): A register read unanswered after 1.8 µs completes all ones. -/
  | readTimeout
  /-- APERTURE_READ (R556): A CXL.mem read of the Pantry aperture. -/
  | apertureRead (a : DWord) (ask : Fin 3)
  /-- APERTURE_WRITE (R556): A CXL.mem write of the Pantry aperture. -/
  | apertureWrite (a : DWord) (data : List Byte) (be : DWord)
  /-- HDM_DECODER_COMMIT (R557): The host commits the HDM decoder. -/
  | hdmDecoderCommit (gib : Nat) (ways : Nat) (mem : Bool)
  /-- GET_VERSION (R614): SPDM GET_VERSION request. -/
  | getVersion (req : List Byte)
  /-- GET_CAPABILITIES (R614): SPDM GET_CAPABILITIES request. -/
  | getCapabilities (req : List Byte)
  /-- NEGOTIATE_ALGORITHMS (R614): SPDM NEGOTIATE_ALGORITHMS request. -/
  | negotiateAlgorithms (req : List Byte) (common : Bool)
  /-- GET_DIGESTS (R614): SPDM GET_DIGESTS request. -/
  | getDigests (req : List Byte)
  /-- GET_CERTIFICATE (R612): SPDM GET_CERTIFICATE request for slot 0. -/
  | getCertificate (req : List Byte) (slot : Nat) (offset : Nat) (length : Nat)
  /-- CHALLENGE (R614): SPDM CHALLENGE request. -/
  | challenge (req : List Byte) (slot : Nat) (nonce : List Byte)
  /-- GET_MEASUREMENTS (R615): SPDM GET_MEASUREMENTS returns signed measurement blocks. -/
  | getMeasurements (req : List Byte) (index : Nat) (nonce : List Byte)
  /-- KEY_EXCHANGE (R614): SPDM KEY_EXCHANGE request. -/
  | keyExchange (req : List Byte) (slot : Nat)
  /-- FINISH (R614): SPDM FINISH request. -/
  | finish (req : List Byte) (good : Bool)
  /-- KEY_UPDATE (R614): SPDM KEY_UPDATE request. -/
  | keyUpdate (req : List Byte)
  /-- END_SESSION (R614): SPDM END_SESSION request. -/
  | endSession (req : List Byte)
  /-- CORE_DEAD (R572): No heartbeat for 100 µs declares a core dead. -/
  | coreDead (c : CoreId)
  /-- PIPE_STALL (R573): A partition with no commit notice for STALL_MS is restarted. -/
  | pipeStall (p : PartId)
  /-- REPLACE_MOVING_DONE (R576): Code, data and routes of the standing-in core are written and HOST state begins. -/
  | replaceMovingDone (img : Option (List Byte))
  /-- HOST_DONE (R578): Writing DUMP.REPLACE_CTL.HOST_DONE starts restoration. -/
  | hostDone (v : Word)
  /-- HOST_MS_TIMEOUT (R578): HOST_DONE absent for HOST_MS fails the re-placement. -/
  | hostMsTimeout
  /-- RESTORE_COMPLETE (R582): KV and adapters are restored and the partition returns to READY. -/
  | restoreComplete (mem : List (Nat × List Byte))
  /-- FAIL_CTL_PARK (R587): Writing DUMP.FAIL_CTL fault-parks a frozen or degraded partition's contexts. -/
  | failCtlPark (v : Word)
  /-- FATAL_FAULT (R588): A FATAL fault halts the module and starts a dump. -/
  | fatalFault (code : Byte)
  /-- DUMP_TRIGGER (R595): Writing DUMP.CTL.TRIGGER raises HOST_DUMP. -/
  | dumpTrigger (v : Word)
  /-- DUMP_COMPLETE (R589): The dump is written and vector 2,048 signalled. -/
  | dumpComplete (ok : Bool)
  /-- DUMP_COPY (R589): Writing DUMP.CTL.COPY copies a retained dump to the Trunk. -/
  | dumpCopy (v : Word)
  /-- RETAIN_CLR (R589): Writing DUMP.CTL.RETAIN_CLR clears RETAINED. -/
  | retainClr (v : Word)
  /-- COLD_START (R596): The 12 V feed reaching 11.4 V starts the boot. -/
  | coldStart (slot : Fin 8) (legacy : Bool)
  /-- FIRMWARE_VERIFIED (R602): The mask ROM finishes checking a firmware copy. -/
  | firmwareVerified (readable : Bool)
  /-- FIRMWARE_START (R596): The verified firmware runs and MEAS_1 is extended. -/
  | firmwareStart (keyOk : Bool)
  /-- FW_READY (R596): Ring, stagehands and sensors are up and FW_READY sets. -/
  | fwReady
  /-- RESET_N_ASSERT (R600): RESET_N low for 1 µs is a module reset. -/
  | resetNAssert
  /-- RESET_N_DEASSERT (R600): RESET_N deasserting reruns the boot from fuse sensing. -/
  | resetNDeassert (slot : Fin 8) (legacy : Bool)
  /-- FW_STAGE (R605): Writing SEC.FW_CTL.STAGE fetches a firmware image to stage or recover. -/
  | fwStage (v : Word)
  /-- FW_STAGE_COMPLETE (R605): A staged image is verified, written and read back. -/
  | fwStageComplete (img : Option (List Byte)) (wrote : Bool)
  /-- FW_ACTIVATE (R605): Writing ACTIVATE selects the staged copy. -/
  | fwActivate (v : Word)
  /-- COMMIT_SVN (R606): Writing COMMIT_SVN raises the fused minimum SVN. -/
  | commitSvn (v : Word)
  /-- REVOKE (R606): Writing REVOKE fuses a key slot's revocation bit. -/
  | revoke (v : Word)
  /-- MGMT_BUS_INDEX (R636): A one-byte index write on the management bus selects a mirror word. -/
  | mgmtBusIndex (byte : Byte)
  /-- MGMT_BUS_READ (R636): A management bus read returns the selected mirror word. -/
  | mgmtBusRead
  /-- WAIT_TIMEOUT (R265): A signal-slot WAIT completes TIMEOUT after CORE.WAIT_LIMIT ticks. -/
  | waitTimeout (c : CoreId) (slot : WinId)
  /-- INRUSH_END (R466): At 40 µs after the slot grant inrush ends, the regulator self-test is recorded and any INRUSH
  skipping of neighbours stops. -/
  | inrushEnd (r : RegionId)
  /-- ENG_LOAD_COMPLETE (R182): A stationary tile's moving front has crossed the array and the ENG.LOAD token completes. -/
  | engLoadComplete (c : CoreId) (t : TokId)
  /-- CACHE_ENABLE (R535): The host sets Cache_Enable and HIF.STAT.CACHE_EN sets. -/
  | cacheEnable
  /-- HOST_SNOOP (R552): A host snoop arrives and is answered with a miss, or after the line's write completes. -/
  | hostSnoop (line : DWord)
  /-- BACK_INVALIDATE_RESPONSE (R558): The host's response to a back-invalidate arrives and the waiting device access or
  aperture grant proceeds. -/
  | backInvalidateResponse (line : DWord) (data : Option (List Byte))
  /-- LEGACY_FEED_TIMEOUT (R644): A load waiting for the legacy curtain-up fails with error POWER when both feeds are not in
  use within 10 ms. -/
  | legacyFeedTimeout
  deriving DecidableEq, Repr

end Sys2Proof
end

