-- ==== Sys2Proof/Machine/State.lean ====
section
/-! DEFINITION. The state of one module: every register, memory, queue and record the spec gives it, as plain data,
with the queue of waiting commands; the reasons a step can stop; and the state after reset. -/

namespace Sys2Proof.Machine

/-! ## Why a step stops -/

/-- The reasons a step faults. There is none: every error the spec describes is a status, a register bit, an exception
or a discarded message, and the module goes on. -/
inductive Fault where
  deriving DecidableEq, Repr

/-- The reasons a step refuses a command. -/
inductive Refusal where
  /-- Raised by an arm of `exec` whose command has no meaning yet; safe: nothing is claimed of such a step. -/
  | notModelled (mnemonic : String)
  deriving DecidableEq, Repr

/-! ## The Pantry and the code store -/

/-- The error state of one protected word (R195, R232). -/
inductive EccMark where
  | clean
  | correctable
  | uncorrectable
  | poisoned
  deriving DecidableEq, Repr

/-- The error state of one 64-bit label word (R123): clean; with a correctable error not yet read, and read and
corrected but not yet written back; with an uncorrectable error not yet read, and read. -/
inductive LabelMark where
  | clean
  | upset
  | corrected
  | lost
  | faulted
  deriving DecidableEq, Repr

/-- A slot of a log ring: its record, and whether it has been read. -/
structure LogSlot where
  bytes : List Byte
  read : Bool
  deriving DecidableEq, Repr

/-! ## Engines (R179 to R187) -/

/-- One accumulator entry: its kind, FP32 or INT32, its bits (R185), and whether poisoned operands fed it (R195). -/
structure AccEntry where
  fp : Bool
  bits : Word
  tag : Bool
  deriving DecidableEq, Repr

/-- A stationary tile: the operand pair of R249, the FP8 formats, the bytes as loaded, and which of them were poisoned
(R195). -/
structure Tile where
  pair : Nat
  fmtW : Bool
  fmtX : Bool
  data : List Byte
  bad : List Nat
  deriving DecidableEq, Repr

/-- What an engine operation does, with the operands its registers gave at issue (R250). -/
inductive EngWork where
  | load (pair : Nat) (fmtW fmtX : Bool) (src stride : Nat)
  | run (m src acc : Nat) (accumulate : Bool)
  | drain (n entry dst df : Nat) (sr : Bool)
  | mode (quad : Bool)
  deriving DecidableEq, Repr

/-- An engine operation that is queued or running. -/
structure EngOp where
  core : Nat
  tok : Nat
  mask : Nat
  quadrant : Nat
  work : EngWork
  deriving DecidableEq, Repr

/-! ## Rack fires (R217 to R219, R252) -/

inductive FireKind where
  | forward
  | reverse
  | test
  deriving DecidableEq, Repr

inductive FireStage where
  | queued
  | staged
  | issued
  | copying
  deriving DecidableEq, Repr

/-- What becomes of an evaluation at the bins: it runs, it is zero-skipped (R109, R120), or a bin is not in service
(R116). -/
inductive EvalClass where
  | live
  | skipped
  | offline
  deriving DecidableEq, Repr

/-- An output group of a fire (R254): its first bin, as a bin of the module; its number of bins; and the half that it
is: 0 for whole bins, 1 or 2; and the block of a lane's input at which its own blocks begin. -/
structure FireGroup where
  bin : Nat
  size : Nat
  half : Nat
  block : Nat
  deriving DecidableEq, Repr

/-- The outputs of one output group in one lane, its saturation tag (R79), and a non-finite tag beyond those its
values show (R55). -/
structure GroupOut where
  lane : Nat
  group : Nat
  vals : List Word
  sat : Bool
  tagged : Bool
  deriving DecidableEq, Repr

/-- A fire of the rack interface's queue. `input` holds the staged bytes of each lane, `poison` the lanes whose input
held a poisoned word (R195), `todo` the groups whose evaluation is to deliver, `outs` the outputs. -/
structure Fire where
  core : Nat
  tok : Nat
  kind : FireKind
  groups : List FireGroup
  lanes : Nat
  copy : Bool
  src : Nat
  stride : Nat
  dst : Nat
  stage : FireStage
  input : List (List Byte)
  poison : Nat
  todo : List (Nat × EvalClass)
  outs : List GroupOut
  status : Nat
  deriving DecidableEq, Repr

/-- Outputs that a token holds in the output buffer (R236, R254): the FP32 elements in buffer order, unused space as
+0.0, the tags of each 32-element block (R216), and the elements that an uncorrectable error of the buffer has lost (R569). -/
structure OutBuf where
  core : Nat
  tok : Nat
  vals : List Word
  sat : List Bool
  nonfinite : List Bool
  lost : List Nat
  deriving DecidableEq, Repr

/-! ## The vector unit -/

/-- A vector operation in flight, with the operands its registers gave at issue (R255): the element count, the values
of the source, destination, second and list registers, and the scalar register with its value; for a source in the
output buffer, the elements read with the tags of each (R216), and the token whose buffer space it frees at its end
(R236). -/
structure VecOp where
  core : Nat
  tok : Nat
  opc : Nat
  fn : Nat
  imm : Word
  sr : Bool
  n : Nat
  src : Nat
  dst : Nat
  second : Nat
  list : Nat
  gx : Nat
  gv : DWord
  held : List (Word × Bool × Bool)
  frees : Option Nat
  deriving DecidableEq, Repr

/-! ## Waits -/

/-- A TWAIT that blocks its sequencer (R247, R248). -/
structure Twait where
  core : Nat
  mask : Nat
  any : Bool
  trap : Bool
  gd : Nat
  deriving DecidableEq, Repr

inductive WinPendKind where
  | wait
  | drain
  | close
  deriving DecidableEq, Repr

/-- A WIN.WAIT, WIN.DRAIN or WIN.CLOSE whose token has not completed; for a wait whether CORE.WAIT_LIMIT bounds it,
for a close the accepted messages whose writes it awaits. -/
structure WinPend where
  core : Nat
  win : Nat
  tok : Nat
  kind : WinPendKind
  limited : Bool
  writes : List Nat
  deriving DecidableEq, Repr

/-- A WAIT on a signal slot (R265), and whether CORE.WAIT_LIMIT bounds it. -/
structure SigWait where
  core : Nat
  slot : Nat
  amount : Nat
  tok : Nat
  limited : Bool
  deriving DecidableEq, Repr

/-! ## Messages of the data mesh and of the Prompt net -/

inductive NetKind where
  | put
  | get
  | completion
  deriving DecidableEq, Repr

/-- Where a data message is: held unsent at its sender's egress stage, on its way to the target, away on an Oluod link, at
the target, accepted and being written, or answered with its completion on the way back. -/
inductive NetStage where
  | held
  | moving
  | away
  | arrived
  | accepted
  | answered
  deriving DecidableEq, Repr

/-- A PUT or a GET in the mesh. `bad` marks, byte by byte, data that came from poisoned words (R195), or that an uncorrectable
error of an ingress stage has lost (R569); `tag` is the
number that its sender's module gave it; `router` the core whose router holds it, `vc` and `hop` its virtual channel
and the Oluod hops it has made. -/
structure NetMsg where
  id : Nat
  kind : NetKind
  orgModule : Nat
  orgCore : Nat
  orgPart : Nat
  tag : Nat
  tok : Nat
  dstModule : Nat
  dstCore : Nat
  space : Nat
  off : Nat
  len : Nat
  win : Nat
  gen : Nat
  land : Nat
  data : List Byte
  bad : List Bool
  vc : Nat
  hop : Nat
  router : Nat
  stage : NetStage
  status : Nat
  timedOut : Bool
  deriving DecidableEq, Repr

/-- What a Prompt-net message carries (R422); `raw` is one in transit to another module whose type or LEN no module but its
destination judges. -/
inductive PnBody where
  | cue (kind bins engines : Nat)
  | signal (slot amount : Nat)
  | signalAck (status : Nat)
  | winNotice (win gen : Nat)
  | kvCommit (ctx layer mask pos : Nat) (replay flip : Bool)
  | kvRollback (ctx layer mask pos : Nat) (replay flip : Bool)
  | kvAck (ctx status : Nat)
  | heartbeat (state : Nat)
  | fault (core code : Nat)
  | regRead (off width : Nat)
  | regWrite (off width : Nat) (value : DWord)
  | regResp (status : Nat) (value : DWord)
  | commitNotice (ctx seq count flags : Nat)
  | deadline (ctx tag : Nat)
  | partBeat (part seq : Nat) (resume : Bool)
  | partAck (part seq : Nat)
  | raw (code : Nat) (words : List Nat)
  deriving DecidableEq, Repr

/-- A Prompt-net message under way (R420, R421). -/
structure PnMsg where
  id : Nat
  dest : Nat
  destModule : Nat
  src : Nat
  srcModule : Nat
  tag : Nat
  hop : Nat
  body : PnBody
  deriving DecidableEq, Repr

/-- A SIGNAL whose acknowledgement has not returned (R265). -/
structure SigOut where
  id : Nat
  core : Nat
  tok : Nat
  deriving DecidableEq, Repr

/-! ## Oluod ports (R429 to R437) -/

/-- A numbered flit: its sequence number, type (1 DATA, 2 PROMPT, 3 SLACK), FIRST and LAST, virtual channel and hop, its
payload; the number in the mesh of the data message that it carries, or how many Prompt messages; and how often it has
been sent. -/
structure TxFlit where
  seq : Nat
  type : Nat
  first : Bool
  last : Bool
  vc : Nat
  hop : Nat
  payload : List Byte
  msg : Option Nat
  prompts : Nat
  sends : Nat
  deriving DecidableEq, Repr

/-- A port's link layer: the next number to send and the last one accepted; flits sent and not acknowledged, and flits that
wait; by class, how many were sent, the peer's running count of freed flits, and this side's; the class whose count the next
flit carries; the message bytes of DATA flits gathered by class; when NAKs arose; the numbered flits accepted since a flit
last went back; the peer's identity as its last LINK flit gave it (SYSTEM_ID, module, port, revision), and the width at which
the link locked. -/
structure Port where
  txSeq : Nat
  rxSeq : Nat
  unacked : List TxFlit
  queued : List TxFlit
  sent : List Nat
  credit : List Nat
  freed : List Nat
  turn : Nat
  parts : List (List Byte)
  naks : List Nat
  accepted : Nat
  peer : Option (Nat × Nat × Nat × Nat)
  deriving DecidableEq, Repr

/-! ## The cellar -/

/-- The state of a bin (R143, Word 0 STATE). -/
inductive BinState where
  | inService
  | offline
  | refresh
  | uninstalled
  deriving DecidableEq, Repr

/-- A bin record (R143). -/
structure BinRec where
  layer : Nat
  part : Nat
  state : BinState
  format : Nat
  split : Bool
  chainLen : Nat
  chainPos : Nat
  lastErr : Nat
  tvRuns : Nat
  stEvents : Nat
  recals : Nat
  deriving DecidableEq, Repr

/-- A rack record (R142). -/
structure RackRec where
  satCount : Nat
  labelCe : Nat
  labelUe : Nat
  refFault : Bool
  labelFault : Bool
  refTrim : Nat
  deriving DecidableEq, Repr

/-- The envelope of one column of a bin: minimum, maximum and mean in FP32 (R122). -/
structure Envelope where
  lo : Word
  hi : Word
  mean : Word
  deriving DecidableEq, Repr

/-- The statistics of one column of a bin in the present window: minimum, maximum and sum of its samples (R133). -/
structure ColStat where
  lo : FVal
  hi : FVal
  sum : FVal
  deriving DecidableEq, Repr

/-- An entry of a die's wear table (R170, R171). -/
structure Wear where
  cycles : Nat
  warn : Bool
  ue : Bool
  deriving DecidableEq, Repr

/-- What a bin's checking has gathered: the squared errors of the patterns of the set that is due, none for a pattern
still to run and no list when no set is due; the source of R146 that the set reports; whether the period's set is still to
complete; the patterns that RACK.TEST has run of a set of its own; the lane-evaluations of the statistical window; the
CHK_CTL and CHK_LIMITS under which the set that is due, the window and RACK.TEST's set go on where a commit found them under
way; the COMP_EN in force until the next test run or window end where a commit changed it; and the counter of the region at the
statistical event that the set confirms (R129 to R135, R143, R146). -/
structure BinCheck where
  errs : List (Option Nat)
  source : Nat
  owed : Bool
  asked : List (Option Nat)
  winCount : Nat
  testHeld : Option (DWord × DWord)
  winHeld : Option (DWord × DWord)
  askHeld : Option (DWord × DWord)
  compHeld : Option Bool
  eventAt : Nat
  deriving DecidableEq, Repr

/-- A recalibration, or a refresh that is queued or running, on a bin of the module; `go` says that the refresh may
start (R136 to R139); with the test error and the counter of the region at its event (R146). -/
structure DriftAct where
  bin : Nat
  source : Nat
  action : Nat
  go : Bool
  err : Nat
  stamp : Nat
  deriving DecidableEq, Repr

/-! ## Contexts (R306 to R310) -/

inductive CtxState where
  | free
  | parked
  | resident
  | active
  | parking
  | resuming
  deriving DecidableEq, Repr

/-- The KV register group of a partition as it is in force for one context, which takes a committed change at its next
commit (R305): KV_CTL, KV_SHARE and the four bucket registers. -/
structure KvCfg where
  ctl : DWord
  share : DWord
  buckets : List DWord
  deriving DecidableEq, Repr

/-- A context: its record of R310, with its resident index, its adapter slot and the bank in force, the draws that its
pass in flight has made, the sampling parameters of its running request, when it was last active, its last checkpoint:
position, Prompt book node and fill, adaptation steps (R580), and the position and steps of one whose transfer failed since; and
the KV registers in force for it (R305). -/
structure Ctx where
  st : CtxState
  part : Nat
  reason : Nat
  nextToken : Option Nat
  adapter : Bool
  homeModule : Nat
  tokenSeq : Nat
  committed : Nat
  genPos : Nat
  seed : List Byte
  loftKv : Nat
  loftDigest : Nat
  loftAdapter : Nat
  adapterBytes : Nat
  bookNode : Option Nat
  bookFill : Nat
  pins : List Nat
  history : List Nat
  model : Nat
  adaptSteps : Nat
  resident : Option Nat
  slot : Option Nat
  bank : Bool
  draws : Nat
  temperature : Nat
  topK : Nat
  topP : Nat
  lastActive : Nat
  ckPos : Nat
  ckNode : Option Nat
  ckFill : Nat
  ckSteps : Nat
  ckTried : Nat × Nat
  kv : KvCfg
  deriving DecidableEq, Repr

/-- A pass in flight (R317, R318): its context and partition; kind 0 PLAIN, 1 CHUNK, 2 TREE, 3 ADAPT; its input tokens,
one for each node; the node that draws for a CHUNK; the lanes it takes (R319); the tokens drawn so far; whether its
deadline notice has arrived (R332); whether an append of it completed KV_FULL (R327); the layer tags for which its trips
have asked for test vectors (R83); and what its request says of it: the number, the tenant and FLAGS, the tokens still to
emit and the STOP token; and for a TREE pass the parent bytes of its nodes (R354). -/
structure Pass where
  ctx : Nat
  part : Nat
  kind : Nat
  input : List Nat
  drawAt : Option Nat
  lanes : Nat
  tokens : List Nat
  late : Bool
  full : Bool
  tested : List Nat
  req : Nat
  tenant : Nat
  flags : Nat
  left : Nat
  stop : Nat
  shape : List Nat
  deriving DecidableEq, Repr

/-! ## Loaded images (R357 to R393) -/

/-- The partition record of a loaded partition, its numbers the actual ones (R363). -/
structure PartRec where
  slot : Nat
  understudy : Option Nat
  modules : List Nat
  lead : Nat
  pipeMax : Nat
  adapterSlots : Nat
  adapterBytes : Nat
  adapterBase : Nat
  model : Nat
  bookCore : Option Nat
  bookNodes : Nat
  bookBase : Nat
  passOfs : Nat
  deriving DecidableEq, Repr

/-- A layer KV record in force (R376), its partition the actual one, and the place in its set of the core that leads it: 0
until a lead dies (R581). -/
structure LayerKv where
  slot : Nat
  part : Nat
  tag : Nat
  index : Nat
  draft : Bool
  eC : Int
  eR : Int
  pool : Nat
  slots : Nat
  resident : Nat
  stage : Nat
  map : Nat
  upproj : Nat
  set : List Nat
  leadAt : Nat
  deriving DecidableEq, Repr

/-- A loaded slot: the image and the binding as fetched. -/
structure SlotRec where
  img : List Byte
  bind : List Byte
  deriving DecidableEq, Repr

/-! ## KV state (R273 to R305) -/

/-- What one core of an attention set holds of one layer of a context: its committed count; the staging entries that are
staged and those that are stale, as masks of entries 0 to 16; and the bytes staged in each, by entry (R282, R286). -/
structure KvHold where
  committed : Nat
  staged : Nat
  stale : Nat
  data : List (Nat × List Byte)
  deriving DecidableEq, Repr

/-- A slot reserved under R283 for block `block`, or for digest group `block` when `digest`, by the staging entries of a
mask. -/
structure KvReserve where
  ctx : Nat
  tag : Nat
  block : Nat
  digest : Bool
  slot : Nat
  need : Nat
  deriving DecidableEq, Repr

inductive KvKind where
  | append
  | commit
  | rollback
  | map
  | digest
  | mask
  deriving DecidableEq, Repr

/-- A KV or TREE operation of a core that has issued (R238, R261): its context, layer tag and source; for an append its
staging entry; for a commit or rollback the holders whose acknowledgement it awaits and the worst status so far; its status
once it has ended; the mask of a commit or rollback, or the block of a digest; the destination and the count of a TREE.MASK;
and whether it has started. -/
structure KvOp where
  id : Nat
  core : Nat
  tok : Nat
  kind : KvKind
  ctx : Nat
  tag : Nat
  src : Nat
  entry : Nat
  acks : List (Nat × Nat)
  worst : Nat
  done : Option Nat
  imm : Nat
  dst : Nat
  len : Nat
  started : Bool
  deriving DecidableEq, Repr

/-- A page being fetched from the Loft (R301), with the KV operations that await it. -/
structure LoftFetch where
  id : Nat
  ctx : Nat
  tag : Nat
  block : Nat
  slot : Nat
  ops : List Nat
  deriving DecidableEq, Repr

/-- A page being spilled (R300): whether its write has completed, whether the context's next commit has reached the set
lead, and whether the page has been recalled into its own slot (R304). -/
structure Spill where
  id : Nat
  ctx : Nat
  tag : Nat
  block : Nat
  slot : Nat
  written : Bool
  reached : Bool
  kept : Bool
  deriving DecidableEq, Repr

/-! ## Requests and queues (R313 to R333, R543 to R551) -/

/-- A request that has been fetched and has not ended, in fetch order: its descriptor, with the record fetched for it;
the input tokens still to process, and the last one where it is kept as NEXT_TOKEN (R316); when it was fetched; whether
it has started; the tokens drawn at commits, those whose notice has come, and those not yet carried by a completion,
with the number of the first; the times of the latencies; since when it is held and for how long it was; the flags its
completion carries; whether its deadline notice was sent and whether that has arrived (R332); once it runs no further
pass, the status and park reason it ends with; and the TTFT limit that its class had at the fetch (R353). -/
structure Req where
  id : Nat
  queue : Nat
  op : Nat
  flags : Nat
  ctx : Nat
  tenant : Nat
  cls : Nat
  part : Nat
  tokens : Nat
  input : List Nat
  keep : Option Nat
  outAddr : Nat
  deadline : Nat
  temperature : Nat
  topK : Nat
  topP : Nat
  stop : Nat
  tag : Nat
  record : Option (List Byte)
  t0 : Nat
  started : Bool
  drawn : Nat
  emitted : Nat
  carry : List Nat
  firstSeq : Nat
  ttft : Option Nat
  lastAt : Nat
  gap : Nat
  held : Nat
  heldFrom : Option Nat
  wasHeld : Bool
  late : Bool
  norm : Bool
  stopped : Bool
  sent : Bool
  noticed : Bool
  status : Option Nat
  reason : Nat
  ttftLimit : Nat
  deriving DecidableEq, Repr

/-- A pass that has committed or been discarded and whose notice has not reached the host interface (R328): its request
and context, its tokens and their first number, whether it was late and whether it carries the norm flag, whether a
completion comes of it, and whether it ends the request with a status. -/
structure Notice where
  req : Nat
  ctx : Nat
  seq : Nat
  tokens : List Nat
  late : Bool
  norm : Bool
  makes : Bool
  final : Option Nat
  /-- CLS_TBT LIMIT of its class as the pass committed (R353). -/
  tbt : Nat
  deriving DecidableEq, Repr

/-- A completion that waits to be written (R547): its 64 bytes but for the phase, whether it is FINAL. -/
structure Completion where
  bytes : List Byte
  final : Bool
  deriving DecidableEq, Repr

/-- A queue (R543, R544): its table entry, its state (0 DISABLED, 1 ENABLING, 2 ACTIVE, 3 DRAINING, 4 ERROR) and error
code, its heads and tails, phase, waiting completions, and completions not yet signalled with the time of the first. -/
structure Queue where
  state : Nat
  error : Nat
  entry : List Byte
  sqHead : Nat
  sqTail : Nat
  cqTail : Nat
  cqHead : Nat
  phase : Bool
  waiting : List Completion
  unsignalled : Nat
  since : Nat
  deriving DecidableEq, Repr

/-- A write of the host to the Pantry aperture that waits for the end of a scrub: core, offset, bytes and byte enables
(R560). -/
structure ApWrite where
  core : Nat
  off : Nat
  data : List Byte
  be : DWord
  deriving DecidableEq, Repr

/-- A write to a Pantry that waits for the end of a scrub (R196): core, offset, bytes, and which come from poisoned words. -/
structure ScrubWrite where
  core : Nat
  off : Nat
  data : List Byte
  bad : List Bool
  deriving DecidableEq, Repr

/-- The host interface block beyond its registers and queues: the queue whose turn it is to have descriptors fetched, and
how many it has had in this turn (R546); the parks, as (context, reason), that wait until the KV operations of their
contexts have ended (R335); whether PERST# is asserted; register reads carried over the Prompt net and not answered, as
(tag, offset, width), oldest first (R542); aperture writes that wait (R560); host writes in flight, as (owner, address,
length), the owner a context or 65,536 and a spill's number; host snoops not answered yet (R552); and the mirror of the
region windows' registers, which answers while SP is off (R36). -/
structure HostIf where
  turn : Nat × Nat
  parkDue : List (Nat × Nat)
  perst : Bool
  reads : List (Nat × Nat × Nat)
  apWrites : List ApWrite
  flying : List (Nat × Nat × Nat)
  snoops : List Nat
  mirror : List (Nat × DWord)
  deriving DecidableEq, Repr

def hostReset : HostIf where
  turn := (0, 0)
  parkDue := []
  perst := false
  reads := []
  apWrites := []
  flying := []
  snoops := []
  mirror := []

/-! ## Messages to the outside -/

/-- What the module sends to the world outside: the MODEL's own record. -/
inductive OutMsg where
  | hostWrite (addr : Nat) (data : List Byte)
  | hostRead (addr len : Nat)
  | interrupt (vec : Nat)
  | readData (off width : Nat) (value : DWord)
  | flit (port : Nat) (bytes : List Byte)
  /-- The answer to an aperture read: its line, the data, and the poison indication (R556, R559). -/
  | apertureData (line : Nat) (data : List Byte) (poison : Bool)
  /-- The answer to a host snoop: a miss (R552). -/
  | snoopMiss (line : Nat)
  /-- A mirror word on the management bus (R636). -/
  | busWord (value : Word)
  /-- An SPDM response, and its signature where it carries one (R614). -/
  | spdm (resp : SpdmResp) (sig : Option (List Byte))
  /-- The digest of R391 to a partition's lead, or the lead's verdict to a member: the digest that all agree on, or none
  (DESIGN CHOICE, log entry 37). -/
  | partDigest (module part : Nat) (digest : Option (List Byte))
  deriving DecidableEq, Repr

/-! ## Loads and rebinds (R348 to R351, R387 to R393), systems that split (R443 to R446) -/

/-- The load or unload that is under way: its slot, LOAD_CTL.START, and the image and the binding once fetched. -/
structure LoadRec where
  slot : Nat
  start : Bool
  img : List Byte
  bind : List Byte
  raised : List Nat
  deriving DecidableEq, Repr

/-- The rebind under way: the cores named, the receiving partition, UNBIND, BINS and the role. -/
structure RebindRec where
  cores : List Nat
  into : Nat
  unbind : Bool
  bins : Bool
  role : Nat
  deriving DecidableEq, Repr

/-- The loader: the load and the rebind under way; cores unbound whose Pantry has not been scrubbed since (R392); the
partition digests that this lead has, as (partition, module, digest) (R391); the last beat sent of each partition, and the
last that each member answered at partition × 64 + module (R443); partitions frozen while DEGRADED (R446). -/
structure Blk where
  load : Option LoadRec
  rebind : Option RebindRec
  stale : List Nat
  digests : List (Nat × Nat × List Byte)
  beatSeq : List (Nat × Nat)
  ackSeq : List (Nat × Nat)
  beatAt : List (Nat × Option Nat)
  flowParts : List Nat
  degraded : List Nat
  deriving DecidableEq, Repr

def blkReset : Blk where
  load := none
  rebind := none
  stale := []
  digests := []
  beatSeq := []
  ackSeq := []
  beatAt := []
  flowParts := []
  degraded := []

/-! ## Installs (R149 to R178) -/

/-- A bin of an install: the bin of the module, its entry; its phase: 0 waits, 1 in first pass, 2 settles, 3 waits for
touch-up, 4 in touch-up, 5 past touch-up; its outcome of R167; its first-run e; and the draw of its measurements. -/
structure InstBin where
  bin : Nat
  entry : Nat
  phase : Nat
  outcome : Nat
  err : Nat
  draw : Nat
  deriving DecidableEq, Repr

/-- An entry of an install: its 64 bytes, the status it ended with, blocks clipped, refetches, and the chunks that have
failed with how often each has (R154, R173). -/
structure InstEntry where
  raw : List Byte
  status : Option Nat
  clipped : Nat
  retries : Nat
  tries : List (Nat × Nat)
  deriving DecidableEq, Repr

/-- The install under way: the descriptor; the group table with each group's list and samples; entries and bins; the scale
labels to be written, by label key; and the spotlight values to be written, as (entry, place of R163, BF16) (R163, R165). -/
structure Install where
  desc : List Byte
  groups : List (List Byte)
  lists : List (List Nat)
  samples : List (List Byte)
  entries : List InstEntry
  bins : List InstBin
  scales : List (Nat × Byte)
  spots : List (Nat × Nat × Nat)
  deriving DecidableEq, Repr

/-! ## Faults, re-placement and dumps (R571 to R593) -/

/-- A re-placement (R576): its partition, the dead core, the swing core and the fault code. -/
structure Replace where
  part : Nat
  dead : Nat
  swing : Nat
  code : Nat
  deriving DecidableEq, Repr

/-- A dump under way (R588 to R590): the fault code, the unit, the causing record's number, when it began, and whether it
goes to the Trunk. -/
structure DumpRec where
  code : Nat
  unit : Nat
  seq : Nat
  start : Nat
  trunk : Bool
  /-- TRUNK_BASE as the dump began (R562). -/
  base : Nat
  deriving DecidableEq, Repr

/-- The fault machinery: re-placements that wait, in order of declaration, and the one under way; cores declared dead;
partitions with an uncovered loss (R584); the times of Pantry errors, at core × 2 + 1 when uncorrectable (R571); each core's
last heartbeat flit with its time, and how many it has sent, modulo 256 (R572); when a partition was last restarted (R574);
the STALL_MS that the last commit notice of a partition put in force, with its time (R573, R595);
the last KV_COMMIT or KV_ROLLBACK that the HEAD core sent for a context (R446); the dump under way; the latest 256 telemetry
samples (R592), newest first; and by die the last 20 Prompt messages delivered (R591), newest first. -/
structure Faults where
  replaceQ : List Replace
  replace : Option Replace
  dead : List Nat
  lost : List Nat
  eccTimes : List (Nat × List Nat)
  beats : List (Nat × Option (Nat × Nat))
  beatCount : List (Nat × Nat)
  restartAt : List (Nat × Option Nat)
  noticed : List (Nat × Option (Nat × Nat))
  lastKv : List (Nat × Option PnBody)
  dump : Option DumpRec
  telLog : List (List Byte)
  pnLast : List (Nat × List PnMsg)
  deriving DecidableEq, Repr

def faultsReset : Faults where
  replaceQ := []
  replace := none
  dead := []
  lost := []
  eccTimes := []
  beats := []
  beatCount := []
  restartAt := []
  noticed := []
  lastKv := []
  dump := none
  telLog := []
  pnLast := []

/-! ## Boot, firmware and attestation (R596 to R616) -/

/-- An SPDM exchange: the negotiated state (0 none, 1 version, 2 capabilities, 3 algorithms), the messages of the
transcript, and the secured session's number, whether its handshake is finished, and how often its keys were updated. -/
structure Spdm where
  state : Nat
  transcript : List Byte
  session : Option Nat
  finished : Bool
  updates : Nat
  deriving DecidableEq, Repr

/-- The boot and its stores: whether the 12 V feed holds, whether RESET_N is asserted; the mask ROM's progress: 0 not
started or done, 1 and 2 checking the first and the second copy, 3 a copy verified, 4 RECOVERY; the copy under check; the
copies of the firmware store as written since manufacture; the measurement of the running firmware (R590); whether FW_READY
has set; the measurement log; the management bus's mirror index; the SPDM responder, and its requests that await the end of
a dump; requests on the management ring repeated without an answer. -/
structure Sec where
  powered : Bool
  inReset : Bool
  romPhase : Nat
  romCopy : Nat
  copyA : Option (List Byte)
  copyB : Option (List Byte)
  fwMeas : List Byte
  ready : Bool
  measLog : List (Nat × LogSlot)
  busIndex : Nat
  spdm : Spdm
  spdmHeld : List SpdmReq
  mgmtTries : Nat
  deriving DecidableEq, Repr

def spdmReset : Spdm := ⟨0, [], none, false, 0⟩

def secReset : Sec where
  powered := true
  inReset := false
  romPhase := 0
  romCopy := 0
  copyA := none
  copyB := none
  fwMeas := []
  ready := false
  measLog := []
  busIndex := 0
  spdm := spdmReset
  spdmHeld := []
  mgmtTries := 0

/-! ## Bound cores -/

/-- What the loaded image says of a bound core: its slot, its role, the role's kind, flags and sleep permissions
(R365, R375), and its ration (R372). -/
structure CoreBind where
  slot : Nat
  role : Nat
  kind : Nat
  flags : Nat
  sleep : Nat
  bins : Nat
  engines : Nat
  deriving DecidableEq, Repr

/-! ## Requests for power -/

/-- A claim in a region arbiter's queue (R479), and the time when it was queued. -/
structure ClaimReq where
  core : Nat
  bins : Nat
  engines : Nat
  tok : Nat
  since : Nat
  deriving DecidableEq, Repr

/-! ## Power and cooling -/

/-- A region's readings in one telemetry sample: the controlling temperature in 0.01 °C, the region draw in mW and the
core-rail current in mA (R489, R511, R516). -/
structure RegionSample where
  theta : Int
  draw : Nat
  rail : Nat
  deriving DecidableEq, Repr

/-- What a loaded image says of a region (R372): FLOOR_W, CAP_W and DECLARED_W, and whether a ration record says so. -/
structure RegionPower where
  floor : Nat
  cap : Nat
  declared : Nat
  capped : Bool
  deriving DecidableEq, Repr

/-- How many consecutive samples a diode pair has met each condition of R512: d above 5 °C, d at most 4 °C, d above 15 °C,
one diode invalid, both invalid; and whether both have been invalid for eight. -/
structure PairCount where
  above : Nat
  below : Nat
  far : Nat
  one : Nat
  both : Nat
  dead : Bool
  deriving DecidableEq, Repr

/-- A slack REPORT held at the lead (R496, R497). -/
structure SlackRep where
  part : Nat
  src : Nat
  busy : Nat
  offer : Nat
  want : Nat
  deriving DecidableEq, Repr

/-- A shift of R496 in force here, in watts, positive where it is received, and when it was last renewed; `module` tells the
shifts of a partition apart: the lender at the lead, elsewhere the place of its GRANT among those of one ranking, from 64 on. -/
structure Shift where
  part : Nat
  module : Nat
  watts : Int
  since : Nat
  deriving DecidableEq, Repr

/-- The state of power delivery and cooling beyond the registers. -/
structure Power where
  /-- Decreases that wait until the heavy work in flight fits them (R263), as (bins, engines); reservations of HEAVY cues
  in mA (R482); when a core's first claim increase after a RELEASE was, and how long its last busy time took, in always-on
  ticks (R495). -/
  claimDrop : List (Nat × Option (Nat × Nat))
  heavyRes : List (Nat × Nat)
  busyFrom : List (Nat × Option Nat)
  busyLast : List (Nat × Nat)
  /-- Region-wide skipping in force, as the rate code of ARB.SKIP at key region × 16 + source: 0 the cap (R489), 2 flow
  stop, 6 SAFE, 8 inrush, 10 the input limit; when the input limit struck; droop levels by core (R484). -/
  skips : List (Nat × Nat)
  inputAt : Nat
  droop : List (Nat × Nat)
  /-- Throttle episodes at key region × 16 + reason: when the present one began, and the ticks of those that ended. -/
  thrFrom : List (Nat × Nat)
  thrTicks : List (Nat × Nat)
  /-- The curtain sequence (R465): the regions asked for, in the order they will come up, and whether each joined late; the
  place of the last region that started in its place; each region's bring-up: 0 none, 1 in inrush, 2 after it; the regions
  that wait to go down normally, those asked together in one list; and the legacy curtain-up: 0 not begun, 1 running, 2 done,
  3 waiting for both feeds (R471, R644). -/
  curtainAsk : List (Nat × Bool)
  curtainPos : Nat
  upStage : List (Nat × Nat)
  curtainDowns : List (List Nat)
  legacyUp : Nat
  /-- Failed converters by number; the regions that SHORT_CLR permits an attempt, when that attempt was made, and the regions
  whose SHORT stays (R463). -/
  convBad : List (Nat × Bool)
  shortMay : List (Nat × Bool)
  shortTry : List (Nat × Option Nat)
  shortBar : List (Nat × Bool)
  /-- Phase records by partition: samples left, watts, and whether the sample that begins it has been (R483). -/
  phases : List (Nat × (Nat × Nat × Bool))
  /-- SUSTAINED_W, PEAK_W, CAP_W and the set flow in force, as the latest sample took them (R500, R530); the weights that each
  region's latest grant decision took (R502). -/
  sustainedNow : Nat
  peakNow : Nat
  capNow : Nat
  flowSet : Nat
  weights : List (Nat × (Nat × Nat))
  /-- When each region's scan began (R514); each region's highest valid diode in the latest sample (R528); the regions still
  to go down at the end of STOP_DARK (R524). -/
  scanAt : List (Nat × Nat)
  hottest : List (Nat × Option Int)
  flowDark : List Nat
  /-- The latest samples of each region in Run, of the module's draw in W and of the inlet and the outlet in 0.01 °C, newest
  first; R_th of each region in Run for at least 1,000 samples, as numerator and denominator in K/W. -/
  hist : List (Nat × List RegionSample)
  modHist : List Nat
  inHist : List Int
  outHist : List Int
  rth : List (Nat × (Int × Nat))
  pairCounts : List (Nat × PairCount)
  /-- Samples for which the peak allowance has run, and whether it is spent (R490). -/
  peakRun : Nat
  peakSpent : Bool
  /-- Slack REPORTs held, shifts in force, and the SLACK sequence (R495 to R497). -/
  slackReps : List SlackRep
  shifts : List Shift
  slackSeq : Nat
  /-- Whether the FLOW_OK pin is asserted; the flow in use of the tray, in 0.01 L/min (R507, R521); and the SEQ of the
  latest valid tray frame (R506). -/
  flowPin : Bool
  trayFlow : Option Nat
  traySeq : Option Nat
  /-- Feeds A and B connected with their input capacitance charged (R629). -/
  feedA : Bool
  feedB : Bool
  /-- The words of CNV.ACC_c that a read of its first word latched, by their offsets (R532). -/
  cnvLatch : List (Nat × DWord)
  /-- What loaded images say of a region, at slot × 16 + region; each region's limit from cooling in mW with its reason
  (R518); the LK and spine shares of its segment in the last sample, in mW. -/
  imgPower : List (Nat × Option RegionPower)
  imgDark : List (Nat × Bool)
  thermal : List (Nat × (Nat × Nat))
  shares : List (Nat × Nat)
  deriving DecidableEq, Repr

/-- Power and cooling right after reset. -/
def powerReset : Power where
  claimDrop := []
  heavyRes := []
  busyFrom := []
  busyLast := []
  skips := []
  inputAt := 0
  droop := []
  thrFrom := []
  thrTicks := []
  curtainAsk := []
  curtainPos := 0
  upStage := []
  curtainDowns := []
  legacyUp := 0
  convBad := []
  shortMay := []
  shortTry := []
  shortBar := []
  phases := []
  sustainedNow := 12000
  peakNow := 15000
  capNow := 0
  flowSet := 1000
  weights := []
  scanAt := []
  hottest := []
  flowDark := []
  hist := []
  modHist := []
  inHist := []
  outHist := []
  rth := []
  pairCounts := []
  peakRun := 0
  peakSpent := false
  slackReps := []
  shifts := []
  slackSeq := 0
  flowPin := true
  trayFlow := none
  traySeq := none
  feedA := false
  feedB := false
  cnvLatch := []
  imgPower := []
  imgDark := []
  thermal := []
  shares := []

/-! ## The state -/

structure State where
  /-- The commands that are waiting, first in first out. -/
  pending : List Instr
  /-- The MODEL's own counter of free values; DESIGN CHOICE, log entry 1. -/
  fresh : Nat
  /-- The number the next message gets; the MODEL's own. -/
  nextId : Nat
  /-- Elapsed time in units of 250 ns, moved by an idle step only; DESIGN CHOICE, log entry 2. -/
  now : Nat
  /-- Every register, by its offset in the register BAR; an unlisted one holds its reset value (R24). -/
  regs : List (Nat × DWord)
  /-- The shadow copies of the staged registers (R17, R397). -/
  shadow : List (Nat × DWord)
  /-- The pending high-half latches of 64-bit registers (R23). -/
  latches : List (Nat × Option Word)
  /-- The Pantries: byte `off` of core `c` at key c × 2^27 + off; an unlisted byte reads 0 (R196). -/
  pantry : List Host.Cell
  /-- The error state of each 8-byte Pantry word, at key (c × 2^27 + off) / 8. -/
  pantryEcc : List (Nat × EccMark)
  /-- Writes of the module's own units that wait for the end of a scrub, oldest first (R196). -/
  scrubWrites : List ScrubWrite
  /-- The code stores: instruction `i` of core `c` at key c × 32768 + i; an unlisted one reads 0 (R233). -/
  code : List (Nat × DWord)
  codeEcc : List (Nat × EccMark)
  /-- Operations of each token that have not completed, at key c × 16 + t (R235). -/
  tokOps : List (Nat × Nat)
  /-- The first window of the pending LATE_PUT of each core (R269). -/
  lateWin : List (Nat × Option Nat)
  twaits : List Twait
  /-- Units of 250 ns that each core has spent in Run since reset or wake from Retain (R245). -/
  runTime : List (Nat × Nat)
  /-- Cores that are waking to Run (R472). -/
  waking : List Nat
  /-- The sleep state that a core waits to enter under R111; 0 for none. -/
  sleepWant : List (Nat × Nat)
  /-- When a core was last woken (R35). -/
  wokeAt : List (Nat × Option Nat)
  acc : List (Nat × AccEntry)
  accEcc : List (Nat × EccMark)
  tiles : List (Nat × Tile)
  engOps : List EngOp
  /-- The engines of each core that count against its claim (R476), and those marked bad, of manufacture where none are listed
  (R418), as masks. -/
  engActive : List (Nat × Nat)
  engBad : List (Nat × Nat)
  vecOps : List VecOp
  fires : List Fire
  outBufs : List OutBuf
  winPends : List WinPend
  sigWaits : List SigWait
  sigOuts : List SigOut
  net : List NetMsg
  pn : List PnMsg
  /-- Cell levels by (bin, row, column), bin = core × 480 + b (R95, R96). -/
  cells : List (Nat × Nat)
  /-- Weight scales, measured level sums W_b and programmed sums D_b by (rack, block, column) (R122). -/
  scales : List (Nat × Byte)
  wsums : List (Nat × Nat)
  dsums : List (Nat × Nat)
  /-- Row level sums R_ic by (rack, row, segment). -/
  rsums : List (Nat × Nat)
  /-- Reference spans at installation by (rack, lane, segment). -/
  spans : List (Nat × Nat)
  /-- The error state of each 64-bit label word (R123). -/
  labelEcc : List (Nat × LabelMark)
  /-- Test expected sums by (bin, half, pattern, column). -/
  testSums : List (Nat × Int)
  /-- Envelopes by (bin, column), and window statistics by (bin, column). -/
  envelopes : List (Nat × Option Envelope)
  colStats : List (Nat × ColStat)
  binRecs : List (Nat × BinRec)
  rackRecs : List (Nat × RackRec)
  binChecks : List (Nat × BinCheck)
  driftActs : List DriftAct
  refreshQ : List DriftAct
  refreshing : List DriftAct
  /-- AUTO as the latest 1 ms queue check found it (R148); HV on for refreshes, until their queue is empty (R40, R138); and
  when a quiet-slot pattern of a bin last fired (R131). -/
  autoRefresh : Nat
  hvRefresh : Bool
  quietAt : List (Nat × Option Nat)
  /-- The rings of the drift log and the error log by slot, and of the throttle logs by region × 64 + slot. -/
  driftLog : List (Nat × LogSlot)
  errLog : List (Nat × LogSlot)
  thrLog : List (Nat × LogSlot)
  /-- The wear tables by bin (R170). -/
  wear : List (Nat × Wear)
  /-- The loaded images' bin maps: the actual partition that a bin is named for (R368). -/
  binMap : List (Nat × Option Nat)
  /-- The threshold tables of the cellar dies, TV_LIMIT, MEAN_TOL and EDGE_TOL by die × 16 + partition, and the entries that
  read with an uncorrectable error (R151). -/
  thresholds : List (Nat × (Nat × Nat × Nat))
  threshBad : List Nat
  /-- TEMP_TRIM of each cellar die, in units of 2^-40, with the temperature that gave it, in 0.01 °C, and the dies in a
  temperature excursion (R125, R127). -/
  tempTrim : List (Nat × Int)
  trimTemp : List (Nat × Int)
  tempOut : List Nat
  /-- Test-vector requests of the norm monitor, as (core, layer tag), and when a layer tag was last granted one
  (R81). -/
  actTests : List (Nat × Nat)
  actTestAt : List (Nat × Nat)
  /-- The contexts by number (R306). -/
  ctxs : List (Nat × Ctx)
  passes : List Pass
  /-- Consecutive trips of each monitor point, at core × 8 + point (R80). -/
  trips : List (Nat × Nat)
  /-- Norm-monitor actions that the pass in flight of a context has gathered: bit 0 flag, bit 2 park (R81, R83,
  R84). -/
  normActs : List (Nat × Nat)
  /-- What the module has sent to the outside, oldest first. -/
  outbox : List OutMsg
  claimQ : List ClaimReq
  /-- Power and cooling. -/
  power : Power
  /-- The route entries in force, in the order of their tables (R369, R411), and the entries of loaded images whose
  router is not placed. -/
  routes : List Route
  routesKept : List Route
  /-- The link layer of each Oluod port, and the modules that have answered the latest beat (R451). -/
  ports : List (Nat × Port)
  answered : List Nat
  /-- Power-slack records received in SLACK flits, with their port (R495). -/
  slackIn : List (Nat × List Byte)
  /-- Loaded slots, loaded partitions, layer KV records in force, and the cores that a swing core stands in for (R577). -/
  slots : List (Nat × Option SlotRec)
  parts : List (Nat × Option PartRec)
  layerKv : List LayerKv
  standIns : List (Nat × Nat)
  /-- KV: what each core holds, at key (context × 65536 + tag) × 256 + core; reservations; slots in use, at core × 4096 +
  slot; the book slot tables, at (partition × 65536 + tag) × 65536 + node. -/
  kvHolds : List (Nat × KvHold)
  kvReserves : List KvReserve
  kvSlots : List (Nat × Bool)
  bookSlots : List (Nat × Option Nat)
  kvOps : List KvOp
  loftFetches : List LoftFetch
  spills : List Spill
  /-- RECALLED pages as (context, tag, block), least recently named first (R301); pages that the Loft holds as they stand
  (R336); digest groups changed since the last checkpoint (R580). -/
  recency : List (Nat × Nat × Nat)
  loftClean : List (Nat × Nat × Nat)
  digestDirty : List (Nat × Nat × Nat)
  /-- The snoop filter (R558): the Pantry lines that the host caches, by line number (core × 2^27 + offset) / 64, least
  recently granted first, with whether the host may hold the line modified; the lines whose back-invalidate has been sent
  and not answered; and those that the present command would have to invalidate. -/
  tracked : List (Nat × Bool)
  biSent : List Nat
  biWant : List Nat
  /-- Requests in fetch order, commit notices under way, and the queues. -/
  reqs : List Req
  notices : List Notice
  queues : List (Nat × Queue)
  /-- The host interface block. -/
  host : HostIf
  /-- What the loaded image says of each bound core. -/
  binds : List (Nat × CoreBind)
  /-- The loader, the install under way, the fault machinery, and the boot with its stores. -/
  blk : Blk
  inst : Option Install
  faults : Faults
  sec : Sec
  deriving DecidableEq, Repr

/-- The module right after reset: every store empty, so that every register holds its reset value and every memory
byte what an unlisted one reads as; no command waits and nothing is in flight. -/
def State.reset : State where
  pending := []
  fresh := 0
  nextId := 0
  now := 0
  regs := []
  shadow := []
  latches := []
  pantry := []
  pantryEcc := []
  scrubWrites := []
  code := []
  codeEcc := []
  tokOps := []
  lateWin := []
  twaits := []
  runTime := []
  waking := []
  sleepWant := []
  wokeAt := []
  acc := []
  accEcc := []
  tiles := []
  engOps := []
  engActive := []
  engBad := []
  vecOps := []
  fires := []
  outBufs := []
  winPends := []
  sigWaits := []
  sigOuts := []
  net := []
  pn := []
  cells := []
  scales := []
  wsums := []
  dsums := []
  rsums := []
  spans := []
  labelEcc := []
  testSums := []
  envelopes := []
  colStats := []
  binRecs := []
  rackRecs := []
  binChecks := []
  driftActs := []
  refreshQ := []
  refreshing := []
  autoRefresh := 0
  hvRefresh := false
  quietAt := []
  driftLog := []
  errLog := []
  thrLog := []
  wear := []
  binMap := []
  thresholds := []
  threshBad := []
  tempTrim := []
  trimTemp := []
  tempOut := []
  actTests := []
  actTestAt := []
  ctxs := []
  passes := []
  trips := []
  normActs := []
  outbox := []
  claimQ := []
  power := powerReset
  routes := []
  routesKept := []
  ports := []
  answered := []
  slackIn := []
  slots := []
  parts := []
  layerKv := []
  standIns := []
  kvHolds := []
  kvReserves := []
  kvSlots := []
  bookSlots := []
  kvOps := []
  loftFetches := []
  spills := []
  recency := []
  loftClean := []
  digestDirty := []
  tracked := []
  biSent := []
  biWant := []
  reqs := []
  notices := []
  queues := []
  host := hostReset
  binds := []
  blk := blkReset
  inst := none
  faults := faultsReset
  sec := secReset

end Sys2Proof.Machine
end

