-- ==== Sys2Proof/Machine/Ops.lean ====
section
/-! DEFINITION. The named operations over the state: registers, the Pantry, tokens, messages, and taking an
exception. -/

namespace Sys2Proof.Machine

/-- A step that goes on. -/
abbrev Out := Host.Outcome State Fault Refusal

/-! ## Registers (R24) -/

/-- The fused part of a register's reset value (R225, R229, R417, R532, R606, R622, R624). -/
def fusedReset (inst : Nat) (b : Block) (o : Nat) : DWord :=
  match b with
  | .core => if o = 0 then BitVec.ofNat 64 inst else 0
  | .rif => if o = 0 then BitVec.ofNat 64 inst else 0
  | .fab =>
    if 0x100 ≤ o ∧ o < 0x120 then (Config.fusedCore ((o - 0x100) / 4)).setWidth 64
    else if 0x120 ≤ o ∧ o < 0x140 then (Config.fusedEast ((o - 0x120) / 4)).setWidth 64
    else if 0x140 ≤ o ∧ o < 0x160 then (Config.fusedSouth ((o - 0x140) / 4)).setWidth 64
    else if o = 0x160 then Config.fusedExpress.setWidth 64
    else 0
  | .thm =>
    if 0x104 ≤ o ∧ o < 0x200 ∧ o % 16 = 4 then
      (Config.phi ((o - 0x100) / 16)).setWidth 64 <<< 16
    else 0
  | .id => if o = 0x20 then Config.serial else 0
  | .sec =>
    if o = 8 then Config.fusedSvn.setWidth 64 ||| (Config.fusedRevoked.setWidth 64 <<< 16)
    else if 0x200 ≤ o ∧ o < 0x220 then (Config.idDigest ((o - 0x200) / 4)).setWidth 64
    else 0
  | _ => 0

/-- What a register holds after module reset: its Reset column, with the fused part. -/
def resetOf (off : Nat) : DWord :=
  match locate off with
  | none => 0
  | some (inst, b, o) =>
    match findReg b o with
    | none => 0
    | some d => BitVec.ofNat 64 d.resetNat + fusedReset inst b o

/-- The engines of core `c` marked bad, where no later mark is listed: those of manufacture (R418). -/
def fusedEng (c : Nat) : Nat := (Config.fusedEngines c).toNat
/-- The engines of a core that are marked bad. -/
def State.engMarks (s : State) (c : Nat) : Nat := sread fusedEng s.engBad c
/-- A register read and written as it is stored. -/
def State.rd (s : State) (off : Nat) : DWord := sread resetOf s.regs off
def State.wr (s : State) (off : Nat) (v : DWord) : State := { s with regs := swrite resetOf s.regs off v }
/-- The shadow copy of a staged register; after module reset it holds the register's reset value (R397). -/
def State.rdShadow (s : State) (off : Nat) : DWord := sread resetOf s.shadow off
def State.wrShadow (s : State) (off : Nat) (v : DWord) : State :=
  { s with shadow := swrite resetOf s.shadow off v }

/-- A field of a register, and a register with one field changed. -/
def State.fld (s : State) (off : Nat) (f : Fld) : Nat := f.get (s.rd off)
def State.setFld (s : State) (off : Nat) (f : Fld) (x : Nat) : State := s.wr off (f.set (s.rd off) x)
/-- Whether a one-bit field is set. -/
def State.flag (s : State) (off : Nat) (f : Fld) : Bool := s.fld off f != 0

/-- A counter raised by `n` that holds at its field's largest value. -/
def State.bump (s : State) (off : Nat) (f : Fld) (n : Nat := 1) : State :=
  s.setFld off f (min (s.fld off f + n) (2 ^ f.width - 1))
/-- A 64-bit counter raised by `n`. -/
def State.count (s : State) (off : Nat) (n : Nat := 1) : State := s.wr off (s.rd off + BitVec.ofNat 64 n)

/-- The number of the next draw of a free value, and the state after it. -/
def State.drew (s : State) : State := { s with fresh := s.fresh + 1 }

/-! ## Cores -/

/-- The region of a core (R29). -/
def regionOf (c : Nat) : Nat := c / 16
/-- A region is in Run. -/
def State.inRun (s : State) (r : Nat) : Bool := (s.rd Reg.PWR_CURTAIN_STAT).toNat.testBit r
/-- The field of STG.CORE_STATE that holds a core's sleep state (R501). -/
def sleepFld (c : Nat) : Fld := ⟨3 * (c % 8), 3⟩
def sleepReg (c : Nat) : Nat := Reg.STG_CORE_STATE (c / 16) (c % 16 / 8)
/-- A core's sleep state: 0 Run, 1 Hold, 2 Doze, 3 Retain, 4 Dark (R472). -/
def State.sleep (s : State) (c : Nat) : Nat := s.fld (sleepReg c) (sleepFld c)
def State.setSleep (s : State) (c x : Nat) : State := s.setFld (sleepReg c) (sleepFld c) x

/-- Whether a core is bound to a partition, and to which (R225). -/
def State.bound (s : State) (c : Nat) : Bool := s.flag (Reg.CORE_ID c) Fl.CORE_ID_BOUND
def State.partOf (s : State) (c : Nat) : Nat := s.fld (Reg.CORE_ID c) Fl.CORE_ID_PARTITION
/-- The number of this module (R440). -/
def State.module (s : State) : Nat := s.fld Reg.LNK_MODULE Fl.LNK_MODULE_NUMBER

/-- CORE.ID as it reads: its module field is the number of LNK.MODULE (R225, R440). -/
def State.coreId (s : State) (c : Nat) : DWord := Fl.CORE_ID_MODULE.set (s.rd (Reg.CORE_ID c)) s.module

/-- A general register; g0 reads 0 (R230). -/
def State.g (s : State) (c n : Nat) : DWord := if n = 0 then 0 else s.rd (Reg.SEQ_G c n)
/-- A write of a general register; a write of g0 is discarded (R230). -/
def State.setG (s : State) (c n : Nat) (v : DWord) : State := if n = 0 then s else s.wr (Reg.SEQ_G c n) v
/-- An address register (R231). -/
def State.a (s : State) (c n : Nat) : Word := (s.rd (Reg.SEQ_A c n)).setWidth 32
def State.setA (s : State) (c n : Nat) (v : Word) : State := s.wr (Reg.SEQ_A c n) (v.setWidth 64)

/-- The core that messages for a core are delivered to: a swing core that stands in for it (R577), else itself. -/
def State.stand (s : State) (c : Nat) : Nat :=
  match s.standIns.find? fun p => p.1 == c with
  | none => c
  | some p => p.2

/-! ## Time (R12, R13) -/

/-- The region's always-on counter, 16 MHz (R245): four ticks in each 250 ns of the model's elapsed time. -/
def State.aoc (s : State) (_r : Nat) : DWord := BitVec.ofNat 64 (4 * s.now)
/-- The host interface counter, 100 MHz (R13). -/
def State.hostTime (s : State) : Nat := 25 * s.now

/-! ## Messages to the outside -/

/-- Something sent to the outside. -/
def State.emit (s : State) (m : OutMsg) : State := { s with outbox := s.outbox ++ [m] }

/-- The host writes that `t` has sent beyond those of `s` are in flight, of an owner. -/
def State.launch (s t : State) (owner : Nat) : State :=
  let ws := (t.outbox.drop s.outbox.length).filterMap fun m => match m with
    | .hostWrite a d => some (owner, a, d.length)
    | _ => none
  { t with host.flying := t.host.flying ++ ws }
/-- Whether a host write in flight covers a byte of a 64-byte line. -/
def State.flyingOver (s : State) (line : Nat) : Bool :=
  s.host.flying.any fun f => decide (f.2.1 < line + 64) && decide (line < f.2.1 + f.2.2)
/-- The host writes of an owner have completed: host snoops of their lines are answered (R552). -/
def State.landed (s : State) (owner : Nat) : State :=
  let s := { s with host.flying := s.host.flying.filter fun f => f.1 != owner }
  let due := s.host.snoops.filter fun l => !s.flyingOver l
  let s := { s with host.snoops := s.host.snoops.filter s.flyingOver }
  due.foldl (fun (s : State) l => s.emit (.snoopMiss l)) s

/-! ## Log rings -/

/-- A slot that holds no record. -/
def slotFree : LogSlot := ⟨[], true⟩
/-- A ring with a record written into slot `k`. -/
def ringPut (m : List (Nat × LogSlot)) (k : Nat) (bs : List Byte) : List (Nat × LogSlot) :=
  swrite (fun _ => slotFree) m k ⟨bs, false⟩
def ringAt (m : List (Nat × LogSlot)) (k : Nat) : LogSlot := sread (fun _ => slotFree) m k
/-- A ring whose slot `k` has been read. -/
def ringRead (m : List (Nat × LogSlot)) (k : Nat) : List (Nat × LogSlot) :=
  swrite (fun _ => slotFree) m k ⟨(ringAt m k).bytes, true⟩

/-! ## The error log (R564 to R568) -/

/-- The class of a fault code (R564, R565). -/
def faultClass (code : Nat) : Nat :=
  if code = 0x48 ∨ code = 0x4A then 0
  else if code = 0x47 ∨ code = 0x4B ∨ code = 0x4C ∨ code = 0x4D ∨ code = 0x4E ∨ code = 0x50 then 1
  else if code = 0x60 ∨ code = 0x61 ∨ code = 0x62 then 3
  else 2

/-- What a fault concerns (R567). -/
inductive FaultUnit where
  | module
  | region (r : Nat)
  | core (c : Nat)
  | port (p : Nat)
  deriving DecidableEq, Repr

def FaultUnit.kind : FaultUnit → Nat
  | .module => 0
  | .region _ => 1
  | .core _ => 2
  | .port _ => 3
def FaultUnit.number : FaultUnit → Nat
  | .module => 0
  | .region r => r
  | .core c => c
  | .port p => p

/-- The outcome codes of R568. -/
def outLogged : Nat := 0
def outPending : Nat := 1
def outRestarted : Nat := 2
def outReplaced : Nat := 3
def outUncovered : Nat := 4
def outDumped : Nat := 5

/-- The low 32 bits of the always-on counter of a unit's region; 0 for module and port units. -/
def State.unitAoc (s : State) : FaultUnit → Nat
  | .module => 0
  | .port _ => 0
  | .region r => (s.aoc r).toNat % 2 ^ 32
  | .core c => (s.aoc (regionOf c)).toNat % 2 ^ 32

/-- The 32 bytes of an error-log record (R567). -/
def State.errRecord (s : State) (seq code : Nat) (u : FaultUnit) (part : Option Nat) (outcome detail : Nat) :
    List Byte :=
  leBytes 4 seq ++ [BitVec.ofNat 8 code] ++ [BitVec.ofNat 8 (faultClass code + 4 * u.kind)] ++ leBytes 2 u.number ++
    [BitVec.ofNat 8 (match part with | none => 0 | some p => p % 16 + 16)] ++ [BitVec.ofNat 8 outcome] ++ leBytes 2 0 ++
    leBytes 4 detail ++ leBytes 8 s.hostTime ++ leBytes 4 (s.unitAoc u) ++ leBytes 4 0

/-- A record written to the error log (R567): record n in slot n mod 1,024; a record overwritten unread counts in
DUMP.ERR_LOST (R595). -/
def State.logFault (s : State) (code : Nat) (u : FaultUnit) (part : Option Nat) (outcome detail : Nat) : State :=
  let seq := s.fld Reg.DUMP_ERR_HEAD Fl.DUMP_ERR_HEAD_NEXT_SEQ
  let k := seq % 1024
  let s := if (ringAt s.errLog k).read then s else s.bump Reg.DUMP_ERR_LOST Fl.DUMP_ERR_LOST_COUNT
  let s := { s with errLog := ringPut s.errLog k (s.errRecord seq code u part outcome detail) }
  s.setFld Reg.DUMP_ERR_HEAD Fl.DUMP_ERR_HEAD_NEXT_SEQ (seq + 1)

/-- The partition of a core, as an error record shows it. -/
def State.partField (s : State) (c : Nat) : Option Nat := if s.bound c then some (s.partOf c) else none

/-! ## Sequencer state (R234) -/

def seqHalted : Nat := 0
def seqRun : Nat := 1
def seqWait : Nat := 2
def seqFaulted : Nat := 3
def State.seq (s : State) (c : Nat) : Nat := s.fld (Reg.SEQ_STAT c) Fl.SEQ_STAT_STATE
def State.setSeq (s : State) (c x : Nat) : State := s.setFld (Reg.SEQ_STAT c) Fl.SEQ_STAT_STATE x
def State.pc (s : State) (c : Nat) : Nat := s.fld (Reg.SEQ_PC c) Fl.SEQ_PC_PC
def State.setPc (s : State) (c x : Nat) : State := s.setFld (Reg.SEQ_PC c) Fl.SEQ_PC_PC x
def State.inHandler (s : State) (c : Nat) : Bool := s.flag (Reg.SEQ_STAT c) Fl.SEQ_STAT_IN_HANDLER
def State.latePending (s : State) (c : Nat) : Bool := s.flag (Reg.SEQ_STAT c) Fl.SEQ_STAT_LATE_PENDING

/-- Whether a host-memory access of the module can succeed: CXL.cache on an up link (R536, R538). -/
def State.cacheOk (s : State) : Bool :=
  s.flag Reg.HIF_STAT Fl.HIF_STAT_LINK_UP && s.flag Reg.HIF_STAT Fl.HIF_STAT_CXL && s.flag Reg.HIF_STAT Fl.HIF_STAT_CACHE_EN
/-- What the module's read of host memory brought: nothing where the access fails (R536). -/
def State.hostGot {α : Type} (s : State) (x : Option α) : Option α := if s.cacheOk then x else none
def State.hostMem (s : State) (mem : List (Nat × List Byte)) : List (Nat × List Byte) := if s.cacheOk then mem else []

/-- A FATAL fault has halted the module (R588). -/
def State.fatal (s : State) : Bool := s.flag Reg.DUMP_STAT Fl.DUMP_STAT_FATAL

/-! ## The Pantry (R192 to R195) -/

/-- The size of a Pantry, and of its address field (R10, R192). -/
def pantrySize : Nat := 0x8000000
/-- The key of byte `off` of core `c`'s Pantry. -/
def pantryKey (c off : Nat) : Nat := c * pantrySize + off
/-- Whether `n` bytes from `off` lie in the Pantry (R231). -/
def inPantry (off n : Nat) : Bool := off + n ≤ pantrySize

def State.byte (s : State) (c off : Nat) : Byte := sread (fun _ => 0) s.pantry (pantryKey c off)
/-- Whether a byte lies in a retained dump range that holds a dump, whose writes are discarded (R589). -/
def State.dumpHeld (s : State) (c off : Nat) : Bool :=
  c % 16 == 0 && decide (0x7800000 ≤ off) && s.flag Reg.DUMP_STAT Fl.DUMP_STAT_RETAINED
def State.setByte (s : State) (c off : Nat) (b : Byte) : State :=
  if s.dumpHeld c off then s else { s with pantry := swrite (fun _ => 0) s.pantry (pantryKey c off) b }
def State.ecc (s : State) (c off : Nat) : EccMark := sread (fun _ => .clean) s.pantryEcc (pantryKey c off / 8)
def State.setEcc (s : State) (c off : Nat) (m : EccMark) : State :=
  { s with pantryEcc := swrite (fun _ => .clean) s.pantryEcc (pantryKey c off / 8) m }

/-- An error of a core's Pantry noted with its time: the last 16 corrected ones, or the last 4 uncorrectable (R571). -/
def State.noteError (s : State) (c : Nat) (ue : Bool) : State :=
  let k := if ue then 2 * c + 1 else 2 * c
  let ts := (s.now :: sread (fun _ => []) s.faults.eccTimes k).take (if ue then 4 else 16)
  { s with faults.eccTimes := swrite (fun _ => []) s.faults.eccTimes k ts }
/-- A read's checking of the word at `off`: a corrected error is counted and written back, an uncorrectable one is
counted once and marks the word poisoned (R195). -/
def State.checkWord (s : State) (c off : Nat) : State :=
  match s.ecc c off with
  | .clean => s
  | .poisoned => s
  | .correctable =>
    (((s.setEcc c off .clean).setFld (Reg.CORE_STAT c) Fl.CORE_STAT_ECC_CE 1).bump (Reg.CORE_ECC_COUNT c)
      Fl.CORE_ECC_COUNT_CE).noteError c false
  | .uncorrectable =>
    let s := ((s.setEcc c off .poisoned).setFld (Reg.CORE_STAT c) Fl.CORE_STAT_ECC_UE 1).bump (Reg.CORE_ECC_COUNT c)
      Fl.CORE_ECC_COUNT_UE
    (s.logFault 0x4D (.core c) (s.partField c) outLogged 0).noteError c true

/-- The offsets of the words that `n` bytes from `off` touch. -/
def wordsOf (off n : Nat) : List Nat :=
  if n = 0 then [] else (List.range ((off + n - 1) / 8 - off / 8 + 1)).map fun i => (off / 8 + i) * 8

/-- The tracked lines of a range that a device access has to back-invalidate first: for a read those that the host may
hold modified (R558). -/
def State.wantLines (s : State) (c off n : Nat) (read : Bool) : State :=
  if s.tracked.isEmpty then s
  else
    let lo := pantryKey c off / 64
    let hi := (pantryKey c off + n + 63) / 64
    let hit := s.tracked.filter fun l => decide (lo ≤ l.1) && decide (l.1 < hi) && (l.2 || !read)
    { s with biWant := s.biWant ++ hit.map fun l => l.1 }

/-- The outcome of a command that accesses Pantries: where it would read or write lines that the host caches, their
back-invalidates go out and the command waits, to be given again after the host's responses (R558; DESIGN CHOICE, log
entry 30). -/
def State.settle (s t : State) : State :=
  if t.biWant.isEmpty then t
  else
    let new := (t.biWant.filter fun l => !s.biSent.contains l).eraseDups
    ({ s with biSent := s.biSent ++ new }).count Reg.HIF_BISNP new.length

/-- A read's checking of every word of a range. -/
def State.checkRange (s : State) (c off n : Nat) : State :=
  (wordsOf off n).foldl (fun s w => s.checkWord c w) (s.wantLines c off n true)

/-- A range that a KV operation reads: a line that the host holds modified is taken back first, and every word is checked
(R195, R558). -/
def State.look (s : State) (c off n : Nat) : State :=
  if s.tracked.isEmpty && s.pantryEcc.isEmpty then s else s.checkRange c off n

/-- Whether the word at `off` delivers poison. -/
def State.poisonedAt (s : State) (c off : Nat) : Bool :=
  match s.ecc c off with
  | .clean => false
  | .correctable => false
  | .uncorrectable => true
  | .poisoned => true
/-- Whether a range holds a word that delivers poison. -/
def State.poisonIn (s : State) (c off n : Nat) : Bool := (wordsOf off n).any fun w => s.poisonedAt c w

/-- The bytes of a range. -/
def State.bytes (s : State) (c off n : Nat) : List Byte := (List.range n).map fun i => s.byte c (off + i)
/-- Byte by byte, whether a range comes from poisoned words. -/
def State.badBytes (s : State) (c off n : Nat) : List Bool := (List.range n).map fun i => s.poisonedAt c (off + i)

/-- The error state of a word that a write of `n` bytes from `off` covers wholly or in part: a whole word is valid
again, a word written in part is checked first and stays poisoned if it was (R195). -/
def State.touchWord (s : State) (c off n w : Nat) : State :=
  if off ≤ w ∧ w + 8 ≤ off + n then s.setEcc c w .clean else s.checkWord c w
def State.touchWords (s : State) (c off n : Nat) : State :=
  (wordsOf off n).foldl (fun s w => s.touchWord c off n w) s

/-- The bytes of a range stored, one by one. -/
def State.putBytes (s : State) (c off : Nat) : List Byte → State
  | [] => s
  | b :: bs => (s.setByte c off b).putBytes c (off + 1) bs

/-- Whether a scrub of a core's Pantry is running, which a write waits for (R196). -/
def State.scrubbing (s : State) (c : Nat) : Bool := s.flag (Reg.CORE_STAT c) Fl.CORE_STAT_SCRUB_BUSY

/-- A write of bytes to a Pantry that no scrub holds up. -/
def State.storeNow (s : State) (c off : Nat) (bs : List Byte) : State :=
  ((s.wantLines c off bs.length false).touchWords c off bs.length).putBytes c off bs
/-- A write of bytes to a Pantry; during a scrub of it the write waits for the end (R196). -/
def State.store (s : State) (c off : Nat) (bs : List Byte) : State :=
  if s.scrubbing c then { s with scrubWrites := s.scrubWrites ++ [⟨c, off, bs, []⟩] } else s.storeNow c off bs

/-- Poison on every word that receives a bad byte of a GET or a PUT (R195); it is not counted. -/
def State.poisonFrom (s : State) (c off : Nat) : List Bool → State
  | [] => s
  | b :: bs => (if b then s.setEcc c off .poisoned else s).poisonFrom c (off + 1) bs

/-- A write of bytes that carry poison. -/
def State.storeBad (s : State) (c off : Nat) (bs : List Byte) (bad : List Bool) : State :=
  if s.scrubbing c then { s with scrubWrites := s.scrubWrites ++ [⟨c, off, bs, bad⟩] }
  else (s.storeNow c off bs).poisonFrom c off bad
/-- The writes that waited for the end of a core's scrub, oldest first (R196). -/
def State.scrubWritten (s : State) (c : Nat) : State :=
  let mine := s.scrubWrites.filter fun w => w.core == c
  let s := { s with scrubWrites := s.scrubWrites.filter fun w => w.core != c }
  mine.foldl (fun (s : State) w => (s.storeNow c w.off w.data).poisonFrom c w.off w.bad) s

/-! ## The code store (R232) -/

def codeKey (c i : Nat) : Nat := c * 32768 + i
def State.codeAt (s : State) (c i : Nat) : DWord := sread (fun _ => 0) s.code (codeKey c i)
def State.setCode (s : State) (c i : Nat) (w : DWord) : State :=
  { s with code := swrite (fun _ => 0) s.code (codeKey c i) w,
           codeEcc := swrite (fun _ => .clean) s.codeEcc (codeKey c i) .clean }
def State.codeMark (s : State) (c i : Nat) : EccMark := sread (fun _ => .clean) s.codeEcc (codeKey c i)

/-! ## Completion tokens (R235) -/

def tokIdle : Nat := 0
def tokPending : Nat := 1
def tokDone : Nat := 2
def tokKey (c t : Nat) : Nat := c * 16 + t
def State.tok (s : State) (c t : Nat) : Nat := s.fld (Reg.SEQ_TOKEN c t) Fl.SEQ_TOKEN_STATE
def State.tokStatus (s : State) (c t : Nat) : Nat := s.fld (Reg.SEQ_TOKEN c t) Fl.SEQ_TOKEN_STATUS
def State.tokCount (s : State) (c t : Nat) : Nat := sread (fun _ => 0) s.tokOps (tokKey c t)
def State.setTokCount (s : State) (c t n : Nat) : State :=
  { s with tokOps := swrite (fun _ => 0) s.tokOps (tokKey c t) n }
def State.setTok (s : State) (c t state status : Nat) : State :=
  s.wr (Reg.SEQ_TOKEN c t) (BitVec.ofNat 64 (state + 256 * status))

/-- The outputs that a token holds in the output buffer are freed (R236); a vector operation that was to free them then frees
nothing. -/
def State.freeBuf (s : State) (c t : Nat) : State :=
  { s with
    outBufs := s.outBufs.filter fun b => !(b.core == c && b.tok == t)
    vecOps := s.vecOps.map fun o => if o.core = c ∧ o.frees = some t then { o with frees := none } else o }

/-- An operation issued to a token: a pending token's collection grows, any other becomes PENDING with status OK and
gives up the buffer space it held. -/
def State.tokIssue (s : State) (c t : Nat) : State :=
  if s.tok c t = tokPending then s.setTokCount c t (s.tokCount c t + 1)
  else ((s.freeBuf c t).setTokCount c t 1).setTok c t tokPending 0

/-- Work of a core in flight: engine operations, issued fires, vector operations. -/
def State.workInFlight (s : State) (c : Nat) : Bool :=
  s.engOps.any (fun o => o.core == c) || s.vecOps.any (fun o => o.core == c) ||
    s.fires.any fun f => f.core == c && (f.stage == .issued || f.stage == .copying)
/-- The granted claim of a core falls to zero (R480). -/
def State.zeroClaim (s : State) (c : Nat) : State :=
  let r := Reg.ARB_CLAIM (c / 16) (c % 16)
  let s := { s with power.claimDrop := swrite (fun _ => none) s.power.claimDrop c none }
  (s.setFld r Fl.ARB_CLAIM_BINS 0).setFld r Fl.ARB_CLAIM_ENGINES 0
/-- The claim of a FAULTED core falls to zero once its work in flight has completed (R480). -/
def State.faultRelease (s : State) (c : Nat) : State :=
  if s.seq c = seqFaulted ∧ !s.workInFlight c then s.zeroClaim c else s

/-- An operation of a token completes with a status: the first status other than OK stays, and the token is DONE when
the last operation of its collection has completed. -/
def State.tokComplete (s : State) (c t status : Nat) : State :=
  if s.tok c t = tokPending then
    let st := if s.tokStatus c t = 0 then status else s.tokStatus c t
    let n := s.tokCount c t - 1
    ((s.setTokCount c t n).setTok c t (if n = 0 then tokDone else tokPending) st).faultRelease c
  else s

/-- The status codes of R237. -/
def stOk : Nat := 0
def stLate : Nat := 1
def stBounds : Nat := 2
def stPartition : Nat := 3
def stBadAddress : Nat := 4
def stAsleep : Nat := 5
def stUnreachable : Nat := 6
def stTimeout : Nat := 7
def stPoison : Nat := 8
def stBinOffline : Nat := 9
def stClosed : Nat := 10
def stExpired : Nat := 11
def stReopened : Nat := 12
def stTagged : Nat := 13
def stKvFull : Nat := 14
def stContext : Nat := 15
def stSuperseded : Nat := 16
def stTestHigh : Nat := 17

/-- Of two statuses, the one reported: the lower code, except that TAGGED gives way to every other (R237). -/
def worseStatus (a b : Nat) : Nat :=
  if a = 0 then b else if b = 0 then a else if a = stTagged then b else if b = stTagged then a else min a b

/-! ## Messages -/

/-- A Prompt-net message sent, with the next message number (R420). -/
def State.sendPn (s : State) (dest destModule src tag : Nat) (body : PnBody) : State :=
  let dest := if dest < 256 then s.stand dest else dest
  { s with pn := s.pn ++ [⟨s.nextId, dest, destModule, src, s.module, tag, 0, body⟩], nextId := s.nextId + 1 }

/-- The nodes of R421. -/
def nodeStagehand (r : Nat) : Nat := 256 + r
def nodeHost : Nat := 272
def nodeManager : Nat := 273

/-- A Prompt-net message taken from the net. -/
def State.dropPn (s : State) (id : Nat) : State := { s with pn := s.pn.filter fun m => m.id != id }
/-- Whether a message is one that a node takes by its number; a register access goes by its own command (log entry 80). -/
def PnMsg.taken (m : PnMsg) : Bool :=
  match m.body with
  | .regRead .. => false
  | .regWrite .. => false
  | _ => true
/-- Message `id` of the net, whatever is before it, and as its node may take it (R424): not before an earlier message of the
same source to the same node. -/
def State.pnAt (s : State) (id : Nat) : Option PnMsg := s.pn.find? fun m => m.id == id
def State.findPn (s : State) (id : Nat) : Option PnMsg :=
  (s.pnAt id).bind fun m =>
    match s.pn.find? fun k => k.taken && k.src == m.src && k.srcModule == m.srcModule && k.dest == m.dest with
    | none => some m
    | some k => if k.id = id then some m else none
/-- A Prompt-net message delivered at a node of this module: taken from the net and counted (R449), and kept with the last
20 of its die when its node is a core (R591). -/
def State.takePn (s : State) (id : Nat) : State :=
  match s.pnAt id with
  | none => s
  | some m =>
    let s := (s.dropPn id).count Reg.FAB_PN_MSGS
    if 256 ≤ m.dest then s
    else
      let d := m.dest / 8
      let last := (m :: sread (fun _ => []) s.faults.pnLast d).take 20
      { s with faults.pnLast := swrite (fun _ => []) s.faults.pnLast d last }

/-! ## Exceptions (R266 to R270) -/

inductive Cause where
  | illegal | codeBounds | codeEcc | pantryRange | misaligned | poisonLoad | tokenBusy | engineBad | accRange
  | binRange | fireShape | fireTooLarge | bufferSource | length | winUndeclared | ration | status | break | latePut
  deriving DecidableEq, Repr

/-- The codes of R266. -/
def Cause.code : Cause → Nat
  | .illegal => 0x01
  | .codeBounds => 0x02
  | .codeEcc => 0x03
  | .pantryRange => 0x04
  | .misaligned => 0x05
  | .poisonLoad => 0x06
  | .tokenBusy => 0x07
  | .engineBad => 0x08
  | .accRange => 0x09
  | .binRange => 0x0A
  | .fireShape => 0x0B
  | .fireTooLarge => 0x0C
  | .bufferSource => 0x0D
  | .length => 0x0E
  | .winUndeclared => 0x0F
  | .ration => 0x10
  | .status => 0x11
  | .break => 0x12
  | .latePut => 0x13

/-- A blocked TWAIT given up. -/
def State.dropTwait (s : State) (c : Nat) : State :=
  { s with
    twaits := s.twaits.filter fun t => t.core != c
    sleepWant := if sread (fun _ => 0) s.sleepWant c = 2 then swrite (fun _ => 0) s.sleepWant c 0 else s.sleepWant }

/-- SEQ.EXC as an exception writes it. -/
def excWord (x : Cause) (tok win : Nat) : DWord := BitVec.ofNat 64 (x.code + 256 * tok + 4096 * win)

/-- Taking an exception (R270): with the handler enabled and not already in it, EPC and SEQ.EXC are written,
IN_HANDLER sets and the handler is entered; otherwise the sequencer is FAULTED and a fault notice goes out, an
exception inside the handler also setting NESTED and keeping EPC. -/
def State.raise (s : State) (c : Nat) (x : Cause) (epc tok win : Nat) : State :=
  let s := (s.dropTwait c).setFld (Reg.SEQ_STAT c) Fl.SEQ_STAT_HELD 0
  let s := s.wr (Reg.SEQ_EXC c) (excWord x tok win)
  if s.inHandler c then
    (((s.setFld (Reg.SEQ_STAT c) Fl.SEQ_STAT_NESTED 1).setSeq c seqFaulted).faultRelease c).sendPn nodeManager s.module
      c 0 (.fault c x.code)
  else
    let s := s.setFld (Reg.SEQ_EPC c) Fl.SEQ_EPC_PC epc
    if s.flag (Reg.SEQ_HANDLER c) Fl.SEQ_HANDLER_EN then
      ((s.setFld (Reg.SEQ_STAT c) Fl.SEQ_STAT_IN_HANDLER 1).setPc c
        (s.fld (Reg.SEQ_HANDLER c) Fl.SEQ_HANDLER_PC)).setSeq c seqRun
    else ((s.setSeq c seqFaulted).faultRelease c).sendPn nodeManager s.module c 0 (.fault c x.code)

/-- The core whose racks a swing core has borrowed, once the rack bus has switched; a core that is no swing core drives its own
racks only (R31). -/
def State.borrowOf (s : State) (c : Nat) : Option Nat :=
  if s.flag (Reg.CORE_ID c) Fl.CORE_ID_SWING && s.flag (Reg.RIF_BORROW c) Fl.RIF_BORROW_EN &&
      s.flag (Reg.RIF_BORROW c) Fl.RIF_BORROW_READY then
    some (c / 8 * 8 + s.fld (Reg.RIF_BORROW c) Fl.RIF_BORROW_LOCAL)
  else none

/-- The return from an exception (R246): IN_HANDLER clears and the pc is EPC. -/
def State.returnExc (s : State) (c : Nat) : State :=
  (s.setFld (Reg.SEQ_STAT c) Fl.SEQ_STAT_IN_HANDLER 0).setPc c (s.fld (Reg.SEQ_EPC c) Fl.SEQ_EPC_PC)

/-- The LATE_PUT exception that a core has pending is taken, naming the first window (R269). -/
def State.takeLate (s : State) (c : Nat) : State :=
  let w := (sread (fun _ => none) s.lateWin c).getD 0
  let s := { s with lateWin := swrite (fun _ => none) s.lateWin c none }
  (s.setFld (Reg.SEQ_STAT c) Fl.SEQ_STAT_LATE_PENDING 0).raise c .latePut (s.pc c) 0 w

end Sys2Proof.Machine
end

