-- ==== Sys2Proof/Machine/Flags.lean ====
section
/-! DEFINITION. The status bits that conversions set (R63, R69, R70), and the tags of results (R55, R79, R216). -/

namespace Sys2Proof.Machine

/-- What the conversions of one operation met. -/
structure ConvFlags where
  nonfinite : Bool
  satFp8 : Bool
  satInt : Bool
  scaleClamp : Bool
  deriving DecidableEq, Repr

def ConvFlags.none : ConvFlags := ⟨false, false, false, false⟩
def ConvFlags.or (a b : ConvFlags) : ConvFlags :=
  ⟨a.nonfinite || b.nonfinite, a.satFp8 || b.satFp8, a.satInt || b.satInt, a.scaleClamp || b.scaleClamp⟩
/-- The statuses of one conversion (R63). -/
def Conv.flags (v : Conv) : ConvFlags := ⟨v.nonfinite, v.satFp8, v.satInt, false⟩
def convFlags (vs : List Conv) : ConvFlags := vs.foldl (fun a v => a.or v.flags) .none

/-- A sticky bit of RND.STATUS. -/
def State.sticky (s : State) (off : Nat) (f : Fld) (b : Bool) : State := if b then s.setFld off f 1 else s

/-- The end of an operation of core `c`: its statuses set their sticky bits, and it counts once in RND.SAT_COUNT if a
conversion saturated (R69, R70). -/
def State.noteFlags (s : State) (c : Nat) (k : ConvFlags) : State :=
  let r := Reg.RND_STATUS c
  let s := s.sticky r Fl.RND_STATUS_NONFINITE k.nonfinite
  let s := s.sticky r Fl.RND_STATUS_SAT_FP8 k.satFp8
  let s := s.sticky r Fl.RND_STATUS_SAT_INT k.satInt
  s.sticky r Fl.RND_STATUS_SCALE_CLAMP k.scaleClamp

/-- RND.STATUS and RND.SAT_COUNT after a vector operation, an engine run, an engine drain or a KV append (R70). -/
def State.noteConv (s : State) (c : Nat) (k : ConvFlags) : State :=
  let s := s.noteFlags c k
  if k.satFp8 || k.satInt then s.bump (Reg.RND_SAT_COUNT c) Fl.RND_SAT_COUNT_COUNT else s

/-- How element `i` of an operation rounds: to nearest, or with the draw of the core's generator (R43). -/
def rndAt (sr : Bool) (draw i : Nat) : Rnd := if sr then .sr (Config.roundDraw draw i).toNat else .even

end Sys2Proof.Machine
end

