-- ==== Sys2Proof/Decode.lean ====
section
/-! DEFINITION. The 64-bit words of the sequencer's instructions (R240, R242): the command a word spells, and the word
of a command. The opcode table gives no row any bits, so no command is spelled by a table word. -/

namespace Sys2Proof

/-! ## The formats of R240 -/

/-- The word of a format R instruction. -/
def RFmt.word (opc : Byte) (f : RFmt) : DWord :=
  f.imm ++ f.resv ++ BitVec.ofFin (w := 5) f.gb ++ BitVec.ofFin (w := 5) f.ga ++ BitVec.ofFin (w := 5) f.gd ++ opc
/-- The word of a format B instruction. -/
def BFmt.word (opc : Byte) (f : BFmt) : DWord :=
  f.ofs ++ f.resvHi ++ BitVec.ofFin (w := 5) f.gb ++ BitVec.ofFin (w := 5) f.ga ++ f.resvLo ++ opc
/-- The word of a format U instruction. -/
def UFmt.word (opc : Byte) (f : UFmt) : DWord :=
  f.imm ++ f.fn ++ BitVec.ofBool f.sr ++ BitVec.ofFin (w := 5) f.gn ++ BitVec.ofFin (w := 3) f.ad ++
    BitVec.ofFin (w := 3) f.as ++ BitVec.ofFin (w := 4) f.tok ++ opc
/-- The word of a format M instruction. -/
def MFmt.word (opc : Byte) (f : MFmt) : DWord :=
  f.resv ++ BitVec.ofFin (w := 5) f.gg ++ BitVec.ofBool f.join ++ BitVec.ofFin (w := 6) f.win ++
    BitVec.ofFin (w := 5) f.gn ++ BitVec.ofFin (w := 5) f.gt ++ BitVec.ofFin (w := 3) f.as ++
    BitVec.ofFin (w := 4) f.tok ++ opc
/-- The word of a format C instruction. -/
def CFmt.word (opc : Byte) (f : CFmt) : DWord :=
  f.imm ++ f.resv ++ BitVec.ofBool f.join ++ BitVec.ofFin (w := 5) f.gd ++ BitVec.ofFin (w := 5) f.ga ++
    BitVec.ofFin (w := 6) f.win ++ BitVec.ofFin (w := 4) f.tok ++ opc

/-- The fields of a word read as each format. -/
def RFmt.ofWord (w : DWord) : RFmt where
  gd := (w.extractLsb' 8 5).toFin
  ga := (w.extractLsb' 13 5).toFin
  gb := (w.extractLsb' 18 5).toFin
  resv := w.extractLsb' 23 9
  imm := w.extractLsb' 32 32
def BFmt.ofWord (w : DWord) : BFmt where
  resvLo := w.extractLsb' 8 5
  ga := (w.extractLsb' 13 5).toFin
  gb := (w.extractLsb' 18 5).toFin
  resvHi := w.extractLsb' 23 9
  ofs := w.extractLsb' 32 32
def UFmt.ofWord (w : DWord) : UFmt where
  tok := (w.extractLsb' 8 4).toFin
  as := (w.extractLsb' 12 3).toFin
  ad := (w.extractLsb' 15 3).toFin
  gn := (w.extractLsb' 18 5).toFin
  sr := w.getLsbD 23
  fn := w.extractLsb' 24 8
  imm := w.extractLsb' 32 32
def MFmt.ofWord (w : DWord) : MFmt where
  tok := (w.extractLsb' 8 4).toFin
  as := (w.extractLsb' 12 3).toFin
  gt := (w.extractLsb' 15 5).toFin
  gn := (w.extractLsb' 20 5).toFin
  win := (w.extractLsb' 25 6).toFin
  join := w.getLsbD 31
  gg := (w.extractLsb' 32 5).toFin
  resv := w.extractLsb' 37 27
def CFmt.ofWord (w : DWord) : CFmt where
  tok := (w.extractLsb' 8 4).toFin
  win := (w.extractLsb' 12 6).toFin
  ga := (w.extractLsb' 18 5).toFin
  gd := (w.extractLsb' 23 5).toFin
  join := w.getLsbD 28
  resv := w.extractLsb' 29 3
  imm := w.extractLsb' 32 32

/-- Reserved fields of formats R and B that are not 0 (R241). -/
def RFmt.bad (f : RFmt) : Bool := f.resv != 0
def BFmt.bad (f : BFmt) : Bool := f.resvLo != 0 || f.resvHi != 0
/-- Reserved fields of format C; `joins` says whether the instruction takes JOIN. -/
def CFmt.bad (f : CFmt) (joins : Bool) : Bool := f.resv != 0 || (f.join && !joins)
/-- Reserved fields of format U in an instruction other than a VEC; `srOk` says whether SR is used. -/
def UFmt.bad (f : UFmt) (srOk : Bool) : Bool := f.fn != 0 || (f.sr && !srOk)

/-! ## The opcode map of R242 -/

/-- The instruction that a word of core `c`'s code store spells; none where the opcode is not in the map. -/
def decodeCode (c : CoreId) (w : DWord) : Option Instr :=
  match (w.extractLsb' 0 8).toNat with
  | 0x01 => some (.add c (.ofWord w))
  | 0x02 => some (.sub c (.ofWord w))
  | 0x03 => some (.mul c (.ofWord w))
  | 0x04 => some (.and c (.ofWord w))
  | 0x05 => some (.or c (.ofWord w))
  | 0x06 => some (.xor c (.ofWord w))
  | 0x07 => some (.shl c (.ofWord w))
  | 0x08 => some (.shr c (.ofWord w))
  | 0x09 => some (.sra c (.ofWord w))
  | 0x0A => some (.min c (.ofWord w))
  | 0x0B => some (.max c (.ofWord w))
  | 0x0C => some (.slt c (.ofWord w))
  | 0x0D => some (.sltu c (.ofWord w))
  | 0x0E => some (.lih c (.ofWord w))
  | 0x10 => some (.ld c (.ofWord w))
  | 0x11 => some (.ldw c (.ofWord w))
  | 0x12 => some (.st c (.ofWord w))
  | 0x13 => some (.stw c (.ofWord w))
  | 0x14 => some (.seta c (.ofWord w))
  | 0x15 => some (.geta c (.ofWord w))
  | 0x16 => some (.rdc c (.ofWord w))
  | 0x17 => some (.tst c (.ofWord w))
  | 0x20 => some (.beq c (.ofWord w))
  | 0x21 => some (.bne c (.ofWord w))
  | 0x22 => some (.blt c (.ofWord w))
  | 0x23 => some (.bge c (.ofWord w))
  | 0x24 => some (.bltu c (.ofWord w))
  | 0x25 => some (.bgeu c (.ofWord w))
  | 0x26 => some (.jmp c (.ofWord w))
  | 0x27 => some (.call c (.ofWord w))
  | 0x28 => some (.jr c (.ofWord w))
  | 0x29 => some (.retx c (.ofWord w))
  | 0x2A => some (.halt c (.ofWord w))
  | 0x2B => some (.nop c (.ofWord w))
  | 0x2C => some (.brk c (.ofWord w))
  | 0x30 => some (.twait c (.ofWord w))
  | 0x40 => some (.engLoad c (.ofWord w))
  | 0x41 => some (.engRun c (.ofWord w))
  | 0x42 => some (.engDrain c (.ofWord w))
  | 0x43 => some (.engMode c (.ofWord w))
  | 0x50 => some (.rackFire c (.ofWord w))
  | 0x51 => some (.rackRev c (.ofWord w))
  | 0x52 => some (.rackTest c (.ofWord w))
  | 0x53 => some (.rackFree c (.ofWord w))
  | 0x60 => some (.vecElem c (.ofWord w))
  | 0x61 => some (.vecReduce c (.ofWord w))
  | 0x62 => some (.vecRmsnorm c (.ofWord w))
  | 0x63 => some (.vecSoftmax c (.ofWord w))
  | 0x64 => some (.vecAct c (.ofWord w))
  | 0x65 => some (.vecRope c (.ofWord w))
  | 0x66 => some (.vecQuant c (.ofWord w))
  | 0x67 => some (.vecDequant c (.ofWord w))
  | 0x68 => some (.vecTopk c (.ofWord w))
  | 0x69 => some (.vecSample c (.ofWord w))
  | 0x70 => some (.winOpen c (.ofWord w))
  | 0x71 => some (.winClose c (.ofWord w))
  | 0x72 => some (.winDrain c (.ofWord w))
  | 0x73 => some (.winWait c (.ofWord w))
  | 0x78 => some (.put c (.ofWord w))
  | 0x79 => some (.get c (.ofWord w))
  | 0x80 => some (.kvAppend c (.ofWord w))
  | 0x81 => some (.kvCommit c (.ofWord w))
  | 0x82 => some (.kvRollback c (.ofWord w))
  | 0x83 => some (.kvMap c (.ofWord w))
  | 0x84 => some (.kvDigest c (.ofWord w))
  | 0x90 => some (.treeMask c (.ofWord w))
  | 0x98 => some (.claim c (.ofWord w))
  | 0x99 => some (.release c (.ofWord w))
  | 0xA0 => some (.cue c (.ofWord w))
  | 0xA8 => some (.signal c (.ofWord w))
  | 0xA9 => some (.wait c (.ofWord w))
  | _ => none

/-- Whether a word's opcode is in the map of R242. -/
def opcodeDefined (w : DWord) : Bool := (decodeCode 0 w).isSome

/-- The code word of a command that is a sequencer instruction, with its core; none for the other commands. -/
def encode (i : Instr) : Option (CoreId × DWord) :=
  match i with
  | .add c f => some (c, f.word 0x01)
  | .sub c f => some (c, f.word 0x02)
  | .mul c f => some (c, f.word 0x03)
  | .and c f => some (c, f.word 0x04)
  | .or c f => some (c, f.word 0x05)
  | .xor c f => some (c, f.word 0x06)
  | .shl c f => some (c, f.word 0x07)
  | .shr c f => some (c, f.word 0x08)
  | .sra c f => some (c, f.word 0x09)
  | .min c f => some (c, f.word 0x0A)
  | .max c f => some (c, f.word 0x0B)
  | .slt c f => some (c, f.word 0x0C)
  | .sltu c f => some (c, f.word 0x0D)
  | .lih c f => some (c, f.word 0x0E)
  | .ld c f => some (c, f.word 0x10)
  | .ldw c f => some (c, f.word 0x11)
  | .st c f => some (c, f.word 0x12)
  | .stw c f => some (c, f.word 0x13)
  | .seta c f => some (c, f.word 0x14)
  | .geta c f => some (c, f.word 0x15)
  | .rdc c f => some (c, f.word 0x16)
  | .tst c f => some (c, f.word 0x17)
  | .beq c f => some (c, f.word 0x20)
  | .bne c f => some (c, f.word 0x21)
  | .blt c f => some (c, f.word 0x22)
  | .bge c f => some (c, f.word 0x23)
  | .bltu c f => some (c, f.word 0x24)
  | .bgeu c f => some (c, f.word 0x25)
  | .jmp c f => some (c, f.word 0x26)
  | .call c f => some (c, f.word 0x27)
  | .jr c f => some (c, f.word 0x28)
  | .retx c f => some (c, f.word 0x29)
  | .halt c f => some (c, f.word 0x2A)
  | .nop c f => some (c, f.word 0x2B)
  | .brk c f => some (c, f.word 0x2C)
  | .twait c f => some (c, f.word 0x30)
  | .engLoad c f => some (c, f.word 0x40)
  | .engRun c f => some (c, f.word 0x41)
  | .engDrain c f => some (c, f.word 0x42)
  | .engMode c f => some (c, f.word 0x43)
  | .rackFire c f => some (c, f.word 0x50)
  | .rackRev c f => some (c, f.word 0x51)
  | .rackTest c f => some (c, f.word 0x52)
  | .rackFree c f => some (c, f.word 0x53)
  | .vecElem c f => some (c, f.word 0x60)
  | .vecReduce c f => some (c, f.word 0x61)
  | .vecRmsnorm c f => some (c, f.word 0x62)
  | .vecSoftmax c f => some (c, f.word 0x63)
  | .vecAct c f => some (c, f.word 0x64)
  | .vecRope c f => some (c, f.word 0x65)
  | .vecQuant c f => some (c, f.word 0x66)
  | .vecDequant c f => some (c, f.word 0x67)
  | .vecTopk c f => some (c, f.word 0x68)
  | .vecSample c f => some (c, f.word 0x69)
  | .winOpen c f => some (c, f.word 0x70)
  | .winClose c f => some (c, f.word 0x71)
  | .winDrain c f => some (c, f.word 0x72)
  | .winWait c f => some (c, f.word 0x73)
  | .put c f => some (c, f.word 0x78)
  | .get c f => some (c, f.word 0x79)
  | .kvAppend c f => some (c, f.word 0x80)
  | .kvCommit c f => some (c, f.word 0x81)
  | .kvRollback c f => some (c, f.word 0x82)
  | .kvMap c f => some (c, f.word 0x83)
  | .kvDigest c f => some (c, f.word 0x84)
  | .treeMask c f => some (c, f.word 0x90)
  | .claim c f => some (c, f.word 0x98)
  | .release c f => some (c, f.word 0x99)
  | .cue c f => some (c, f.word 0xA0)
  | .signal c f => some (c, f.word 0xA8)
  | .wait c f => some (c, f.word 0xA9)
  | _ => none

/-- The command that a word spells by the opcode table's bits: the table gives no row any bits, so none. -/
def decodeTableWord (_nbits _w : Nat) : Option Instr := none

end Sys2Proof
end

