-- ==== Sys2Proof/Machine/Operands.lean ====
section
/-! DEFINITION. The operand forms of the sequencer's instructions, and the checks at an instruction boundary (R268). -/

namespace Sys2Proof.Machine

/-- What an instruction shows at its boundary: its core and word, the next pc it would give, whether the word is
ILLEGAL under R241, the token it takes and whether it joins it, the first operand check that fails, and whether the
queue it needs is full. -/
structure Insn where
  core : Nat
  word : DWord
  next : Int
  illegal : Bool
  tok : Option Nat
  join : Bool
  check : Option Cause
  full : Bool

/-- Whether a pc lies in SEQ.CODE_LIM (R246). -/
def State.inCode (s : State) (c : Nat) (pc : Int) : Bool :=
  decide ((s.fld (Reg.SEQ_CODE_LIM c) Fl.SEQ_CODE_LIM_LO : Int) ≤ pc) &&
    decide (pc ≤ s.fld (Reg.SEQ_CODE_LIM c) Fl.SEQ_CODE_LIM_HI)

/-- Whether a core's sequencer is at an instruction boundary: the core in Run and the sequencer issuing, or holding an
instruction that a full queue would not take (R234, R238). -/
def State.atBoundary (s : State) (c : Nat) : Bool :=
  s.sleep c == 0 && (s.seq c == seqRun || (s.seq c == seqWait && s.flag (Reg.SEQ_STAT c) Fl.SEQ_STAT_HELD))

/-- The word at the pc as fetched: a corrected error is written back (R232). -/
def State.fetched (s : State) (c : Nat) : State :=
  match s.codeMark c (s.pc c) with
  | .correctable => s.setCode c (s.pc c) (s.codeAt c (s.pc c))
  | _ => s

/-- Whether the word at the pc has an uncorrectable error (R232). -/
def State.codeBad (s : State) (c : Nat) : Bool :=
  match s.codeMark c (s.pc c) with
  | .clean => false
  | .correctable => false
  | .uncorrectable => true
  | .poisoned => true

/-- An instruction issues: SEQ.ISSUED counts it, the pc moves on and the sequencer is in RUN. -/
def State.issued (s : State) (c : Nat) (next : Int) : State :=
  (((s.count (Reg.SEQ_ISSUED c)).setPc c next.toNat).setFld (Reg.SEQ_STAT c) Fl.SEQ_STAT_HELD 0).setSeq c seqRun

/-- A full queue holds the instruction: state WAIT, HELD set (R238). -/
def State.held (s : State) (c : Nat) : State := (s.setFld (Reg.SEQ_STAT c) Fl.SEQ_STAT_HELD 1).setSeq c seqWait

/-- The boundary of an instruction (R268): a pending LATE_PUT first, then CODE_BOUNDS, CODE_ECC, ILLEGAL, TOKEN_BUSY
and the operand checks; then a full queue holds it; then it issues and `eff` happens. A command whose word is not the
one at the pc is no instruction of the program and has no effect; an undefined word at the pc raises ILLEGAL.
`seen` is what the operand checks do of their own (a Pantry error met is counted), `hold` what happens when the
instruction cannot issue yet. -/
def issueOr (i : Insn) (seen hold eff : State → State) (s : State) : State :=
  let c := i.core
  let t := i.tok.getD 0
  if !s.atBoundary c then s
  else if s.latePending c && !s.inHandler c then s.takeLate c
  else if !s.inCode c (s.pc c) then s.raise c .codeBounds (s.pc c) 0 0
  else if s.codeBad c then s.raise c .codeEcc (s.pc c) 0 0
  else if !opcodeDefined (s.codeAt c (s.pc c)) then (s.fetched c).raise c .illegal (s.pc c) 0 0
  else if s.codeAt c (s.pc c) ≠ i.word then s
  else if !s.inCode c i.next then (s.fetched c).raise c .codeBounds (s.pc c) t 0
  else if i.illegal then (s.fetched c).raise c .illegal (s.pc c) t 0
  else if i.tok.isSome && s.tok c t == tokPending && !i.join then (s.fetched c).raise c .tokenBusy (s.pc c) t 0
  else
    match i.check with
    | some x => (seen (s.fetched c)).raise c x (s.pc c) t 0
    | none => if i.full then hold s else eff ((s.fetched c).issued c i.next)

/-- The boundary of an instruction that a full queue holds (R238, R268). -/
def issue (i : Insn) (seen eff : State → State) (s : State) : State :=
  issueOr i seen (fun t => t.held i.core) eff s

/-- The next pc of an instruction that does not branch. -/
def State.pcNext (s : State) (c : Nat) : Int := (s.pc c : Int) + 1

/-- The first check that fails of a list in ascending order of code. -/
def firstCause : List (Bool × Cause) → Option Cause
  | [] => none
  | (b, x) :: l => if b then some x else firstCause l

/-! ## Immediate fields -/

/-- A field of an IMM. -/
def immF (imm : Word) (lo n : Nat) : Nat := imm.toNat / 2 ^ lo % 2 ^ n
/-- A bit of an IMM. -/
def immB (imm : Word) (i : Nat) : Bool := imm.toNat.testBit i
/-- The IMM of a format R instruction, sign-extended, as a whole number. -/
def immS (imm : Word) : Int := imm.toInt

/-- The Pantry offset of LD, LDW, ST and STW: aN + IMM, as a whole number (R244). -/
def State.ea (s : State) (c : Nat) (f : RFmt) : Int := ((s.a c (f.ga.val % 8)).toNat : Int) + immS f.imm
/-- Whether an access through an address register raises PANTRY_RANGE (R231): bits [31:27] of the register are not 0,
or the range passes the Pantry. -/
def State.eaBad (s : State) (c : Nat) (f : RFmt) (n : Nat) : Bool :=
  decide (pantrySize ≤ (s.a c (f.ga.val % 8)).toNat) || decide (s.ea c f < 0) ||
    decide (pantrySize < s.ea c f + n)
/-- Whether `n` bytes from the value of an address register raise PANTRY_RANGE (R231). -/
def rangeBad (a : Word) (n : Nat) : Bool := decide (pantrySize ≤ a.toNat) || decide (pantrySize < a.toNat + n)

end Sys2Proof.Machine
end

