-- ==== Sys2Proof/Machine/Grant.lean ====
section
/-! DEFINITION. A region's power arbiter: the heavy work that counts (R476), rations (R478), the load (R479), claims that
fall (R263, R480), region-wide skipping (R487), and the throttle reasons with their log (R492 to R494). -/

namespace Sys2Proof.Machine

/-! ## Heavy work (R476) -/

/-- The engines of a core that count, as a mask. -/
def State.active (s : State) (c : Nat) : Nat := sread (fun _ => 0) s.engActive c
def State.setActive (s : State) (c m : Nat) : State := { s with engActive := swrite (fun _ => 0) s.engActive c m }
def popCount (m : Nat) : Nat := (maskList 24 m).length

/-- Bins that a fire counts. -/
def groupBins (qs : List FireGroup) : Nat := qs.foldl (fun a q => a + q.size) 0

def FireStage.flying : FireStage → Bool
  | .issued => true
  | .copying => true
  | _ => false

/-- Bins of a core in flight. -/
def State.binsInFlight (s : State) (c : Nat) : Nat :=
  s.fires.foldl (fun a f =>
    if f.core = c ∧ f.stage.flying then
      a + f.todo.foldl (fun n p => n + ((f.groups[p.1]?).map FireGroup.size).getD 0) 0
    else a) 0

/-- The bins and the engines granted to a core (R477). -/
def claimReg (c : Nat) : Nat := Reg.ARB_CLAIM (c / 16) (c % 16)
def State.binsGranted (s : State) (c : Nat) : Nat := s.fld (claimReg c) Fl.ARB_CLAIM_BINS
def State.engGranted (s : State) (c : Nat) : Nat := s.fld (claimReg c) Fl.ARB_CLAIM_ENGINES
def State.setClaim (s : State) (c bins engines : Nat) : State :=
  (s.setFld (claimReg c) Fl.ARB_CLAIM_BINS bins).setFld (claimReg c) Fl.ARB_CLAIM_ENGINES engines

/-! ## Region-wide skipping (R487) -/

def skipCap : Nat := 0
def skipFlow : Nat := 2
def skipSafe : Nat := 6
def skipInrush : Nat := 8
def skipInput : Nat := 10
def State.skipOf (s : State) (r k : Nat) : Nat := sread (fun _ => 0) s.power.skips (r * 16 + k)
/-- The reason that a source of skipping carries (R470, R489, R491, R522). -/
def State.skipWhy (s : State) (r k : Nat) : Nat :=
  if k = skipCap then s.fld (Reg.ARB_CAP r) Fl.ARB_CAP_REASON
  else if k = skipInput then 6
  else k
def skipSources : List Nat := [skipCap, skipFlow, skipSafe, skipInrush, skipInput]
/-- The rate in force, the highest of the sources, and the lowest reason code of those that give it. -/
def State.skipRate (s : State) (r : Nat) : Nat := skipSources.foldl (fun a k => max a (s.skipOf r k)) 0
def State.skipReason (s : State) (r : Nat) : Nat :=
  if s.skipRate r = 0 then 0
  else ((skipSources.filter fun k => s.skipOf r k == s.skipRate r).map fun k => s.skipWhy r k).foldl min 15

/-! ## Throttle episodes (R493, R494) -/

def State.droopOf (s : State) (c : Nat) : Nat := sread (fun _ => 0) s.power.droop c
def State.claimQueue (s : State) (r : Nat) : List ClaimReq := s.claimQ.filter fun q => q.core / 16 == r
/-- Whether a spot of a region has both diodes invalid (R512). -/
def State.diodesDead (s : State) (r : Nat) : Bool :=
  (List.range 8).any fun k => (sread (fun _ => (⟨0, 0, 0, 0, 0, false⟩ : PairCount)) s.power.pairCounts (r * 8 + k)).dead
/-- Whether a reason is active in a region. -/
def State.reasonOn (s : State) (r x : Nat) : Bool :=
  let queued := !(s.claimQueue r).isEmpty
  let cap := s.fld (Reg.ARB_CAP r) Fl.ARB_CAP_REASON
  (cap == x && (queued || s.skipOf r skipCap != 0)) ||
    (x == 2 && s.skipOf r skipFlow != 0) ||
    (x == 3 && (List.range 16).any fun j => s.droopOf (16 * r + j) != 0) ||
    (x == 6 && (s.skipOf r skipSafe != 0 || s.skipOf r skipInput != 0)) ||
    (x == 8 && s.skipOf r skipInrush != 0) ||
    (x == 9 && queued && s.diodesDead r)

def thrKey (r x : Nat) : Nat := r * 16 + x
def State.thrTotal (s : State) (r x : Nat) : Nat := sread (fun _ => 0) s.power.thrTicks (thrKey r x)

/-- The 16 bytes of a throttle record. -/
def State.thrRecord (s : State) (r seq x : Nat) (ends : Bool) (us : Nat) : List Byte :=
  leBytes 4 seq ++ [BitVec.ofNat 8 x] ++ [BitVec.ofNat 8 ((if ends then 1 else 0) + 2 * s.skipRate r)] ++
    leBytes 2 (s.fld (Reg.ARB_CAP r) Fl.ARB_CAP_CAP_A) ++ leBytes 4 ((s.aoc r).toNat % 2 ^ 32) ++ leBytes 4 us

/-- A record written to a region's throttle log: record n in slot n mod 64; one overwritten unread is counted. -/
def State.logThrottle (s : State) (r x : Nat) (ends : Bool) (us : Nat) : State :=
  let seq := s.fld (Reg.THR_LOG_HEAD r) Fl.THR_LOG_HEAD_NEXT_SEQ
  let k := r * 64 + seq % 64
  let s := if (ringAt s.thrLog k).read then s else s.bump (Reg.THR_LOG_LOST r) Fl.THR_LOG_LOST_COUNT
  let s := { s with thrLog := ringPut s.thrLog k (s.thrRecord r seq x ends us) }
  s.setFld (Reg.THR_LOG_HEAD r) Fl.THR_LOG_HEAD_NEXT_SEQ (seq + 1)

/-- A reason that becomes active begins an episode; one that ends adds its ticks to THR.DUR. -/
def State.thrSet (s : State) (r x : Nat) (on : Bool) : State :=
  let was := (s.rd (Reg.THR_ACTIVE r)).toNat.testBit x
  if was = on then s
  else if on then
    let s := s.wr (Reg.THR_ACTIVE r) (s.rd (Reg.THR_ACTIVE r) ||| BitVec.ofNat 64 (2 ^ x))
    let s := { s with power.thrFrom := swrite (fun _ => 0) s.power.thrFrom (thrKey r x) (s.aoc r).toNat }
    s.logThrottle r x false 0
  else
    let s := s.wr (Reg.THR_ACTIVE r) (s.rd (Reg.THR_ACTIVE r) - BitVec.ofNat 64 (2 ^ x))
    let took := (s.aoc r).toNat - sread (fun _ => 0) s.power.thrFrom (thrKey r x)
    let total := s.thrTotal r x + took
    let s := { s with power.thrTicks := swrite (fun _ => 0) s.power.thrTicks (thrKey r x) total }
    (s.wr (Reg.THR_DUR r x) (BitVec.ofNat 64 (total / 16))).logThrottle r x true (took / 16)

/-- A region's throttle reasons brought up to date, in ascending order of code. -/
def State.thrSync (s : State) (r : Nat) : State :=
  (List.range 9).foldl (fun (s : State) i => s.thrSet r (i + 1) (s.reasonOn r (i + 1))) s

/-- Region-wide skipping of one source set to a rate. -/
def State.setSkip (s : State) (r k rate : Nat) : State :=
  let t := { s with power.skips := swrite (fun _ => 0) s.power.skips (r * 16 + k) rate }
  let t := (t.setFld (Reg.ARB_SKIP r) Fl.ARB_SKIP_RATE (t.skipRate r)).setFld (Reg.ARB_SKIP r) Fl.ARB_SKIP_REASON
    (t.skipReason r)
  t.thrSync r

/-! ## Rations (R372, R478) -/

/-- The image's word on a bound core. -/
def State.bind (s : State) (c : Nat) : CoreBind := sread (fun _ => ⟨0, 0, 0, 0, 0, 0, 0⟩) s.binds c
/-- Whether the minimum ration is in force in a region: SAFE, the flow-stop action, or a spot with both diodes invalid. -/
def State.minRation (s : State) (r : Nat) : Bool :=
  s.flag (Reg.STG_REG_STAT r) Fl.STG_REG_STAT_SAFE || s.fld Reg.THM_STAT Fl.THM_STAT_FLOW_STATE != 0 || s.diodesDead r
/-- Whether the minimum ration is in force for a core: in its region, or because its partition spans a module whose flow has
stopped (R522). -/
def State.minimum (s : State) (c : Nat) : Bool :=
  s.minRation (regionOf c) || (s.bound c && s.blk.flowParts.contains (s.partOf c))
def State.rationBins (s : State) (c : Nat) : Nat :=
  if s.minimum c then min 8 (s.bind c).bins else (s.bind c).bins
def State.rationEngines (s : State) (c : Nat) : Nat :=
  if s.minimum c then min 2 (s.bind c).engines else (s.bind c).engines

/-! ## The load (R472, R479) -/

/-- The base current of a sleep state, in mA. -/
def baseCurrent (x : Nat) : Nat :=
  if x = 0 then 6000 else if x = 1 then 2400 else if x = 2 then 800 else if x = 3 then 120 else 0
/-- The weights of a region in force, those of its latest grant decision (R502); before the first, ARB.WEIGHT's at reset. -/
def State.weight (s : State) (r : Nat) : Nat × Nat := sread (fun _ => (850, 1550)) s.power.weights r
/-- A grant decision takes ARB.WEIGHT. -/
def State.takeWeight (s : State) (r : Nat) : State :=
  let w := (s.fld (Reg.ARB_WEIGHT r) Fl.ARB_WEIGHT_BIN_MA, s.fld (Reg.ARB_WEIGHT r) Fl.ARB_WEIGHT_ENG_MA)
  { s with power.weights := swrite (fun _ => (850, 1550)) s.power.weights r w }
/-- The current of bins and engines in a region, in mA. -/
def State.heavyCurrent (s : State) (r bins engines : Nat) : Nat :=
  bins * (s.weight r).1 + engines * (s.weight r).2
def State.claimCurrent (s : State) (c : Nat) : Nat := s.heavyCurrent (regionOf c) (s.binsGranted c) (s.engGranted c)
/-- Base current and granted claims of a region, in mA, as ARB.LOAD shows them. -/
def State.loadOf (s : State) (r : Nat) : Nat :=
  (List.range 16).foldl (fun a j => a + baseCurrent (s.sleep (16 * r + j)) + s.claimCurrent (16 * r + j)) 0
def State.reserved (s : State) (c : Nat) : Nat := sread (fun _ => 0) s.power.heavyRes c
def State.setReserved (s : State) (c x : Nat) : State := { s with power.heavyRes := swrite (fun _ => 0) s.power.heavyRes c x }
/-- The reservations of a region, but for those of one core. -/
def State.reservedIn (s : State) (r : Nat) (but : Option Nat) : Nat :=
  (List.range 16).foldl (fun a j => if some (16 * r + j) = but then a else a + s.reserved (16 * r + j)) 0
/-- ARB.CAP in mA. -/
def State.capOf (s : State) (r : Nat) : Nat := 1000 * s.fld (Reg.ARB_CAP r) Fl.ARB_CAP_CAP_A

/-! ## Claims that fall (R263, R480) -/

def State.dropOf (s : State) (c : Nat) : Option (Nat × Nat) := sread (fun _ => none) s.power.claimDrop c
/-- A decrease takes effect once the heavy work in flight fits it (R263). -/
def State.claimSettle (s : State) (c : Nat) : State :=
  match s.dropOf c with
  | none => s
  | some (b, e) =>
    if s.binsInFlight c ≤ b ∧ popCount (s.active c) ≤ e then
      ({ s with power.claimDrop := swrite (fun _ => none) s.power.claimDrop c none }).setClaim c b e
    else s

/-- A core's claim gone: its claim, its reservation and its queued claims (R468). -/
def State.claimsGone (s : State) (c : Nat) : State :=
  ({ s with claimQ := s.claimQ.filter fun q => q.core != c }).zeroClaim c |>.setReserved c 0

end Sys2Proof.Machine
end

