-- ==== Sys2Proof/Machine/Engine.lean ====
section
/-! DEFINITION. The engines: tiles, runs, accumulators and drains (R180 to R187, R249, R250). -/

namespace Sys2Proof.Machine

/-! ## Engines, tiles and modes -/

/-- ENG.AVAIL: the engines that no mark of the fault map names (R227, R418). -/
def State.engAvail (s : State) (c : Nat) : Nat :=
  0xFFFFFF &&& (0xFFFFFF ^^^ s.engMarks c)
/-- Whether an operation is one of engine `e` of core `c`. -/
def EngOp.on (o : EngOp) (c e : Nat) : Bool := o.core == c && o.mask.testBit e
/-- The operations that engine `e` holds, oldest first. -/
def State.engQueue (s : State) (c e : Nat) : List EngOp := s.engOps.filter fun o => o.on c e

def EngWork.isMode : EngWork → Bool
  | .mode _ => true
  | _ => false
def EngWork.heavy : EngWork → Bool
  | .load _ _ _ _ _ => true
  | .run _ _ _ _ => true
  | _ => false
def EngWork.isLoad : EngWork → Bool
  | .load _ _ _ _ _ => true
  | _ => false
def EngWork.isRun : EngWork → Bool
  | .run _ _ _ _ => true
  | _ => false
def EngWork.isDrain : EngWork → Bool
  | .drain _ _ _ _ _ => true
  | _ => false

/-- Whether an engine is in quadrant mode now (R187). -/
def State.engQuad (s : State) (c e : Nat) : Bool := (s.rd (Reg.ENG_QUAD c)).getLsbD e
/-- The mode that the last ENG.MODE issued to an engine gives it (R249). -/
def State.engQuadIssued (s : State) (c e : Nat) : Bool :=
  (s.engQueue c e).foldl (fun m o => match o.work with | .mode q => q | _ => m) (s.engQuad c e)

def tileKey (c e q : Nat) : Nat := c * 96 + e * 4 + q
/-- The all-zero tile of pair INT8 (R185). -/
def tileZero : Tile := ⟨0, false, false, [], []⟩
/-- The tile that an engine, or a quadrant of it, holds. -/
def State.tile (s : State) (c e q : Nat) : Tile := sread (fun _ => tileZero) s.tiles (tileKey c e q)
/-- The operand pair that the last ENG.LOAD issued to an engine and quadrant gives it (R250). -/
def State.pairIssued (s : State) (c e q : Nat) : Nat :=
  (s.engQueue c e).foldl (fun p o => match o.work with
    | .load pair _ _ _ _ => if o.quadrant = q then pair else p
    | _ => p) (s.tile c e q).pair

/-- Bytes of one streaming vector (R250). -/
def vecBytes (pair : Nat) (quad : Bool) : Nat := (if pair = 3 then 64 else 32) / (if quad then 2 else 1)
/-- Bytes of one stationary tile (R250). -/
def tileBytes (pair : Nat) (quad : Bool) : Nat := (if pair = 3 then 2048 else 1024) / (if quad then 4 else 1)
/-- Outputs of a tile (R181, R187). -/
def tileOuts (quad : Bool) : Nat := if quad then 16 else 32
/-- Reduction length of a tile (R181, R187). -/
def tileReds (pair : Nat) (quad : Bool) : Nat := (if pair = 2 then 64 else 32) / (if quad then 2 else 1)

/-! ## The accumulators (R185) -/

/-- Entries of an engine, or of a quadrant (R187). -/
def accSize (quad : Bool) : Nat := if quad then 4096 else 16384
def accKey (c e q i : Nat) : Nat := (c * 24 + e) * 16384 + q * 4096 + i
/-- An accumulator entry after reset: INT32 0 (R185). -/
def accZero : AccEntry := ⟨false, 0, false⟩
/-- The error mark of an entry (R569): both entries of a word bear an error's. -/
def State.accMark (s : State) (k : Nat) : EccMark := sread (fun _ => .clean) s.accEcc k
/-- Whether an entry's word has an uncorrectable error. -/
def State.accLost (s : State) (k : Nat) : Bool := s.accMark k == .uncorrectable || s.accMark k == .poisoned
/-- An entry as it reads: one with an uncorrectable error as a tagged NaN (R55, R569). -/
def State.accAt (s : State) (k : Nat) : AccEntry :=
  if s.accLost k then ⟨true, fnan, true⟩ else sread (fun _ => accZero) s.acc k
def State.setAcc (s : State) (k : Nat) (a : AccEntry) : State :=
  { s with acc := swrite (fun _ => accZero) s.acc k a, accEcc := swrite (fun _ => .clean) s.accEcc k .clean }
/-- A read's checking of an entry: its core's accumulators report each error once (R571). -/
def State.checkAcc (s : State) (c k : Nat) : State :=
  match s.accMark k with
  | .clean => s
  | .poisoned => s
  | .correctable => State.noteError { s with accEcc := swrite (fun _ => .clean) s.accEcc k .clean } c false
  | .uncorrectable => State.noteError { s with accEcc := swrite (fun _ => .clean) s.accEcc k .poisoned } c true
def State.checkAccs (s : State) (c k n : Nat) : State :=
  if s.accEcc.isEmpty then s else (List.range n).foldl (fun (s : State) i => s.checkAcc c (k + i)) s
/-- The numeric value of an entry, in its own kind. -/
def AccEntry.val (a : AccEntry) : FVal := if a.fp then fp32 a.bits else FVal.ofInt a.bits.toInt

/-- A whole number saturated to INT32 (R65). -/
def satI32 (i : Int) : Word × Bool :=
  if 2147483647 < i then (0x7FFFFFFF#32, true)
  else if i < -2147483648 then (0x80000000#32, true)
  else (BitVec.ofInt 32 i, false)

/-- One output written to an accumulator entry: OVERWRITE replaces it, ACCUMULATE adds in the run's kind; `bad` says that a
poisoned operand fed it, which tags the entry and sets NONFINITE (R55, R195). -/
def accumulate (old : AccEntry) (fp : Bool) (add : Bool) (out : FVal) (bad : Bool) : AccEntry × ConvFlags :=
  let tag := bad || (add && old.tag)
  let nf : ConvFlags := ⟨bad, false, false, false⟩
  if fp then
    if add then (⟨true, toFp32 ((fp32 (toFp32 old.val)).add out), tag⟩, nf) else (⟨true, toFp32 out, tag⟩, nf)
  else
    let o : Int := match out with | .fin n a b => (if n then -1 else 1) * ((a / b : Nat) : Int) | _ => 0
    if add then
      let k := convertInt 32 .even old.val
      let (w, sat) := satI32 (intOf 32 k.code + o)
      (⟨false, w, tag⟩, k.flags.or ⟨bad, false, sat, false⟩)
    else
      let (w, sat) := satI32 o
      (⟨false, w, tag⟩, ⟨bad, false, sat, false⟩)

/-! ## Operands -/

/-- Element `i` of packed operand bytes of a pair: its exact value. `e5` says whether the FP8 format is e5m2. -/
def operandAt (pair : Nat) (e5 : Bool) (bs : List Byte) (i : Nat) : FVal :=
  if pair = 0 then FVal.ofInt (intOf 8 (leAt bs i 1))
  else if pair = 1 then (if e5 then fmtE5m2 else fmtE4m3).decode (leAt bs i 1)
  else if pair = 2 then FVal.ofInt (intOf 4 (leAt bs (i / 2) 1 / (if i % 2 = 0 then 1 else 16)))
  else fmtBf16.decode (leAt bs (2 * i) 2)

/-- The code that a poisoned operand reads as: NaN of a float format, 0 of an integer (R195). -/
def poisonByte (pair : Nat) (e5 : Bool) (i : Nat) : Byte :=
  if pair = 1 then (if e5 then 0x7E else 0x7F)
  else if pair = 3 then (if i % 2 = 0 then 0xC0 else 0x7F)
  else 0

/-- Whether byte `i` of operand bytes at `off` belongs to an element that a poisoned word holds in part or whole. -/
def State.operandBad (s : State) (c off pair i : Nat) : Bool :=
  s.poisonedAt c (off + i) || (pair == 3 && s.poisonedAt c (off + (if i % 2 = 0 then i + 1 else i - 1)))
/-- Operand bytes read from the Pantry, those of poisoned elements in their place (R195). -/
def State.operands (s : State) (c off n pair : Nat) (e5 : Bool) : List Byte :=
  (List.range n).map fun i => if s.operandBad c off pair i then poisonByte pair e5 i else s.byte c (off + i)
/-- The bytes among them that belong to poisoned elements. -/
def State.badOperands (s : State) (c off n pair : Nat) : List Nat :=
  (List.range n).filter fun i => s.operandBad c off pair i

/-- The byte that holds element `i` of packed operands of a pair. -/
def operandByte (pair i : Nat) : Nat := if pair = 2 then i / 2 else if pair = 3 then 2 * i else i

/-- Output `n` of one streaming vector against a tile: FP32 sums take the rows in ascending order, rounding after each
addition; integer sums are exact (R64, R65, R191). Tiles lie reduction index by reduction index (DESIGN CHOICE, log
entry 17). -/
def dotOut (t : Tile) (quad : Bool) (x : List Byte) (n : Nat) : FVal :=
  let outs := tileOuts quad
  let term := fun k => (operandAt t.pair t.fmtX x k).mul (operandAt t.pair t.fmtW t.data (k * outs + n))
  let ks := List.range (tileReds t.pair quad)
  if t.pair = 1 ∨ t.pair = 3 then ks.foldl (fun a k => fp32 (toFp32 (a.add (term k)))) (.fin false 0 1)
  else ks.foldl (fun a k => a.add (term k)) (.fin false 0 1)

/-- Whether a poisoned operand feeds output `n`: one of the vector or one of the tile's column (R195). -/
def dotBad (t : Tile) (quad : Bool) (xbad : List Nat) (n : Nat) : Bool :=
  !xbad.isEmpty || (!t.bad.isEmpty && (List.range (tileReds t.pair quad)).any fun k =>
    t.bad.contains (operandByte t.pair (k * tileOuts quad + n)))

/-! ## Completion -/

/-- Whether an operation is the oldest of every engine it names. -/
def State.engFront (s : State) (o : EngOp) : Bool :=
  (maskList 24 o.mask).all fun e => (s.engQueue o.core e).head? == some o

/-- Engines whose oldest operation is a load or a run start as far as the granted claim allows; an engine already
counted needs no new leave (R477). -/
def State.startEngines (s : State) (c : Nat) : State :=
  (List.range 24).foldl (fun s e =>
    match (s.engQueue c e).head? with
    | some o =>
      if o.work.heavy && !(s.active c).testBit e && decide (popCount (s.active c) + 1 ≤ s.engGranted c)
      then s.setActive c (s.active c ||| 2 ^ e) else s
    | none => s) s

/-- A run's last output frees its engines' count, unless another load or run of theirs is queued (R476). -/
def State.stopEngines (s : State) (c mask : Nat) : State :=
  (maskList 24 mask).foldl (fun s e =>
    if (s.engQueue c e).any fun o => o.work.heavy then s
    else s.setActive c (s.active c &&& (0xFFFFFF ^^^ 2 ^ e))) s

/-- Mode changes whose engines are empty take effect and complete (R187, R250). The spec does not say which stationary tile an
engine or a quadrant holds after a change until its next ENG.LOAD: the tile bytes it holds are kept and read in the new shape
(DESIGN CHOICE, log entry 79). -/
def State.settleModes (c : Nat) : Nat → State → State
  | 0, s => s
  | fuel + 1, s =>
    match s.engOps.find? fun o => o.core == c && o.work.isMode && s.engFront o with
    | none => s
    | some o =>
      let quad := match o.work with | .mode q => q | _ => false
      let m := (s.rd (Reg.ENG_QUAD c)).toNat
      let m' := if quad then m ||| o.mask else m &&& (0xFFFFFF ^^^ o.mask)
      settleModes c fuel ((({ s with engOps := removeFirst o s.engOps }).wr (Reg.ENG_QUAD c)
        (BitVec.ofNat 64 m')).tokComplete c o.tok stOk)

/-- The queues of core `c` after one of its operations ends or begins. -/
def State.engSettle (s : State) (c : Nat) : State :=
  ((State.settleModes c s.engOps.length s).claimSettle c).startEngines c

/-- The oldest operation of a token that `p` selects. -/
def State.findEng (s : State) (c t : Nat) (p : EngWork → Bool) : Option EngOp :=
  s.engOps.find? fun o => o.core == c && o.tok == t && p o.work

/-- The quadrant whose tile and entries an operation uses in an engine. -/
def State.quadOf (s : State) (o : EngOp) (e : Nat) : Nat := if s.engQuad o.core e then o.quadrant else 0

/-- The tiles of a load read from the Pantry into its engines, the k-th at src + k × stride (R250). -/
def State.applyLoad (s : State) (o : EngOp) (pair : Nat) (fw fx : Bool) (src stride : Nat) : State :=
  (maskList 24 o.mask).zipIdx.foldl (fun s p =>
    let n := tileBytes pair (s.engQuad o.core p.1)
    let at' := src + p.2 * stride
    let d := s.operands o.core at' n pair fw
    let bad := s.badOperands o.core at' n pair
    let s := (s.checkRange o.core at' n).sticky (Reg.RND_STATUS o.core) Fl.RND_STATUS_NONFINITE (!bad.isEmpty)
    { s with tiles := swrite (fun _ => tileZero) s.tiles (tileKey o.core p.1 (s.quadOf o p.1)) ⟨pair, fw, fx, d, bad⟩ }) s

/-- One run in one engine: M vectors through the tile it holds, into entries from `acc` on (R185, R250). -/
def State.runEngine (s : State) (o : EngOp) (e m src acc : Nat) (add : Bool) : State × ConvFlags :=
  let quad := s.engQuad o.core e
  let q := s.quadOf o e
  let t := s.tile o.core e q
  let vb := vecBytes t.pair quad
  let outs := tileOuts quad
  let fp := decide (t.pair = 1) || decide (t.pair = 3)
  (List.range m).foldl (fun st j =>
    let x := s.operands o.core (src + j * vb) vb t.pair t.fmtX
    let xbad := s.badOperands o.core (src + j * vb) vb t.pair
    (List.range outs).foldl (fun st n =>
      let k := accKey o.core e q (acc + j * outs + n)
      let r := accumulate (st.1.accAt k) fp add (dotOut t quad x n) (dotBad t quad xbad n)
      (st.1.setAcc k r.1, st.2.or r.2)) st) (s, .none)

/-- Cycles of at least one MAC in a run without stalls: 64 and one entry interval for each vector after the first
(R182, R184; DEDUCED, log entry 18). -/
def runCycles (pair m : Nat) (quad : Bool) : Nat :=
  (if quad then 32 else 64) + (m - 1) * (if pair = 3 then 4 else 1)

/-- A run in every engine of its mask, and its counters (R227). -/
def State.applyRun (s : State) (o : EngOp) (m src acc : Nat) (add : Bool) : State :=
  let r := (maskList 24 o.mask).foldl (fun st e =>
    let quad := s.engQuad o.core e
    let pair := (s.tile o.core e (s.quadOf o e)).pair
    let n := if add then m * tileOuts quad else 0
    let r := (st.1.checkAccs o.core (accKey o.core e (s.quadOf o e) acc) n).runEngine o e m src acc add
    ((((r.1.checkRange o.core src (m * vecBytes pair quad)).count (Reg.ENG_ACTIVE o.core e)
      (runCycles pair m quad)).bump (Reg.ENG_TILES o.core e) Fl.ENG_TILES_COUNT), st.2.or r.2)) (s, .none)
  r.1.noteConv o.core r.2

/-- Bytes of one element of a drain's format DF (R249). -/
def drainBytes (df : Nat) : Nat := if df = 0 then 4 else if df = 1 then 2 else 1

/-- An entry converted to a drain's format (R185, R249): DF 0 keeps its own kind. -/
def drainConv (df : Nat) (r : Rnd) (a : AccEntry) : Conv :=
  if df = 0 then ⟨a.bits.toNat, false, false, false⟩
  else if df = 1 then fmtBf16.convert true r a.val
  else if df = 2 then fmtE4m3.convert true r a.val
  else if df = 3 then fmtE5m2.convert true r a.val
  else convertInt 8 r a.val

/-- The entries of a drain, engine by engine, converted and stored from `dst` on; one that an error has lost sets NONFINITE
(R55, R569). -/
def State.applyDrain (s : State) (o : EngOp) (n entry dst df : Nat) (sr : Bool) : State :=
  let d := s.fresh
  let s := s.drew
  let size := drainBytes df
  let r := (maskList 24 o.mask).zipIdx.foldl (fun st p =>
    let q := s.quadOf o p.1
    let cs := (List.range n).map fun i =>
      drainConv df (rndAt sr d (p.2 * n + i)) (s.accAt (accKey o.core p.1 q (entry + i)))
    let bs := (cs.map fun v => leBytes size v.code).flatten
    let k := accKey o.core p.1 q entry
    let bad : ConvFlags := ⟨(List.range n).any fun i => s.accLost (k + i), false, false, false⟩
    ((st.1.store o.core (dst + p.2 * n * size) bs).checkAccs o.core k n, (st.2.or (convFlags cs)).or bad)) (s, .none)
  r.1.noteConv o.core r.2

/-- An engine operation ends: it leaves its queues and its token completes. -/
def State.engEnd (s : State) (o : EngOp) : State :=
  (({ s with engOps := removeFirst o s.engOps }).tokComplete o.core o.tok stOk)

/-- ENG_LOAD_COMPLETE (R182): the tile's front has crossed the array. It waits for leave under R477. -/
def execEngLoadComplete (c : CoreId) (t : TokId) (s : State) : Out :=
  .next (s.settle (match s.findEng c.val t.val EngWork.isLoad with
    | none => s
    | some o =>
      if s.engFront o && o.mask &&& (0xFFFFFF ^^^ s.active c.val) == 0 then
        match o.work with
        | .load pair fw fx src stride => ((s.applyLoad o pair fw fx src stride).engEnd o).engSettle c.val
        | _ => s
      else s))

/-- ENG_RUN_COMPLETE (R182): the run's last output is in accumulator memory. It waits for leave under R477. -/
def execEngRunComplete (c : CoreId) (t : TokId) (s : State) : Out :=
  .next (s.settle (match s.findEng c.val t.val EngWork.isRun with
    | none => s
    | some o =>
      if s.engFront o && o.mask &&& (0xFFFFFF ^^^ s.active c.val) == 0 then
        match o.work with
        | .run m src acc add =>
          (((s.applyRun o m src acc add).engEnd o).stopEngines c.val o.mask).engSettle c.val
        | _ => s
      else s))

/-- ENG_DRAIN_COMPLETE (R185): the drain's last entry is written. -/
def execEngDrainComplete (c : CoreId) (t : TokId) (s : State) : Out :=
  .next (s.settle (match s.findEng c.val t.val EngWork.isDrain with
    | none => s
    | some o =>
      if s.engFront o && !s.scrubbing c.val then
        match o.work with
        | .drain n entry dst df sr => ((s.applyDrain o n entry dst df sr).engEnd o).engSettle c.val
        | _ => s
      else s))

/-! ## Issue -/

/-- The engines that an instruction names. -/
def engMask (f : UFmt) : Nat := immF f.imm 0 24
def engQuadrant (f : UFmt) : Nat := immF f.imm 28 2
/-- QUADRANT must be 0 for an engine that is not in quadrant mode (R249). -/
def State.quadrantBad (s : State) (c : Nat) (f : UFmt) : Bool :=
  engQuadrant f != 0 && (maskList 24 (engMask f)).any fun e => !s.engQuadIssued c e
/-- A named engine is clear in ENG.AVAIL (R250). -/
def State.engineBad (s : State) (c mask : Nat) : Bool := mask &&& (0xFFFFFF ^^^ s.engAvail c) != 0
/-- A named engine already holds 8 operations (R238). -/
def State.engFull (s : State) (c mask : Nat) : Bool :=
  (maskList 24 mask).any fun e => decide (8 ≤ (s.engQueue c e).length)

/-- An engine instruction: its checks, then its operation in the queue of every engine it names. -/
def engIssue (opc : Byte) (illegal : Bool) (check : Option Cause) (w : EngWork) (c : CoreId) (f : UFmt) (srOk : Bool)
    (s : State) : State :=
  let k := c.val
  issue ⟨k, f.word opc, s.pcNext k, f.bad srOk || engMask f == 0 || s.quadrantBad k f || illegal, some f.tok.val,
    false, check, s.engFull k (engMask f)⟩ id
    (fun t =>
      let t := t.tokIssue k f.tok.val
      (State.engSettle { t with engOps := t.engOps ++ [⟨k, f.tok.val, engMask f, engQuadrant f, w⟩] } k)) s

/-- ENG.LOAD (R249, R250). -/
def execEngLoad (c : CoreId) (f : UFmt) (s : State) : Out :=
  let k := c.val
  let pair := immF f.imm 24 3
  let src := s.a k f.as.val
  let stride := (s.g k f.gn.val).toNat
  let bad := (maskList 24 (engMask f)).zipIdx.any fun p =>
    decide (pantrySize < src.toNat + p.2 * stride + tileBytes pair (s.engQuadIssued k p.1))
  let x := firstCause [(decide (pantrySize ≤ src.toNat) || bad, .pantryRange),
    (s.engineBad k (engMask f), .engineBad)]
  let ill := decide (3 < pair) || immB f.imm 27 || (pair != 1 && (immB f.imm 30 || immB f.imm 31))
  .next (engIssue 0x40 ill x (.load pair (immB f.imm 30) (immB f.imm 31) src.toNat stride) c f false s)

/-- ENG.RUN (R249, R250). -/
def execEngRun (c : CoreId) (f : UFmt) (s : State) : Out :=
  let k := c.val
  let es := maskList 24 (engMask f)
  let m := (s.g k f.gn.val).toNat
  let src := s.a k f.as.val
  let acc := (s.a k f.ad.val).toNat
  let size := fun e => vecBytes (s.pairIssued k e (if s.engQuadIssued k e then engQuadrant f else 0))
    (s.engQuadIssued k e)
  let sz := size (es.headD 0)
  let accBad := es.any fun e =>
    let q := s.engQuadIssued k e
    acc % tileOuts q != 0 || decide (accSize q < acc + tileOuts q * m)
  let x := firstCause [(rangeBad src (m * sz), .pantryRange), (s.engineBad k (engMask f), .engineBad),
    (accBad, .accRange), (m == 0, .length)]
  let ill := immF f.imm 24 3 != 0 || immB f.imm 30 || immB f.imm 31 || es.any fun e => size e != sz
  .next (engIssue 0x41 ill x (.run m src.toNat acc (immB f.imm 27)) c f false s)

/-- ENG.DRAIN (R249, R250). -/
def execEngDrain (c : CoreId) (f : UFmt) (s : State) : Out :=
  let k := c.val
  let es := maskList 24 (engMask f)
  let n := (s.g k f.gn.val).toNat
  let entry := (s.a k f.as.val).toNat
  let dst := s.a k f.ad.val
  let df := immF f.imm 24 3
  let x := firstCause [(rangeBad dst (es.length * n * drainBytes df), .pantryRange),
    (s.engineBad k (engMask f), .engineBad),
    (es.any fun e => decide (accSize (s.engQuadIssued k e) < entry + n), .accRange)]
  let ill := decide (4 < df) || immB f.imm 27 || immB f.imm 30 || immB f.imm 31
  .next (engIssue 0x42 ill x (.drain n entry dst.toNat df f.sr) c f true s)

/-- ENG.MODE (R187, R250): it completes when each engine is empty. -/
def execEngMode (c : CoreId) (f : UFmt) (s : State) : Out :=
  let k := c.val
  let x := firstCause [(s.engineBad k (engMask f), .engineBad)]
  let ill := immF f.imm 24 3 != 0 || immB f.imm 30 || immB f.imm 31
  .next (engIssue 0x43 ill x (.mode (immB f.imm 27)) c f false s)

end Sys2Proof.Machine
end

