-- ==== Sys2Proof/Machine/Hash.lean ====
section
/-! DEFINITION. The hash and the check codes: SHAKE256, CRC-32C (R149), and the link codes of R426, R431 and R569. -/

namespace Sys2Proof.Machine

/-! ## Keccak-f[1600] -/

/-- The rotation amounts of the rho step, lane x + 5y. -/
def rhoAmounts : List Nat :=
  [0, 1, 62, 28, 27, 36, 44, 6, 55, 20, 3, 10, 43, 25, 39, 41, 45, 15, 21, 8, 18, 2, 61, 56, 14]
/-- The round constants of the iota step. -/
def roundConstants : List DWord :=
  [0x0000000000000001, 0x0000000000008082, 0x800000000000808A, 0x8000000080008000, 0x000000000000808B,
   0x0000000080000001, 0x8000000080008081, 0x8000000000008009, 0x000000000000008A, 0x0000000000000088,
   0x0000000080008009, 0x000000008000000A] ++
  [0x000000008000808B, 0x800000000000008B, 0x8000000000008089, 0x8000000000008003, 0x8000000000008002,
   0x8000000000000080, 0x000000000000800A, 0x800000008000000A, 0x8000000080008081, 0x8000000000008080,
   0x0000000080000001, 0x8000000080008008]

def laneAt (a : List DWord) (x y : Nat) : DWord := a.getD (x % 5 + 5 * (y % 5)) 0

/-- One round of Keccak-f. -/
def keccakRound (a : List DWord) (rc : DWord) : List DWord :=
  let c := (List.range 5).map fun x => laneAt a x 0 ^^^ laneAt a x 1 ^^^ laneAt a x 2 ^^^ laneAt a x 3 ^^^ laneAt a x 4
  let d := (List.range 5).map fun x => c.getD ((x + 4) % 5) 0 ^^^ (c.getD ((x + 1) % 5) 0).rotateLeft 1
  let t := (List.range 25).map fun i =>
    (a.getD i 0 ^^^ d.getD (i % 5) 0).rotateLeft (rhoAmounts.getD i 0)
  -- pi: lane (y, 2x + 3y) takes lane (x, y)
  let b := (List.range 25).map fun i =>
    let x' := i % 5
    let y' := i / 5
    t.getD ((x' + 3 * y') % 5 + 5 * x') 0
  let e := (List.range 25).map fun i =>
    let x := i % 5
    let y := i / 5
    laneAt b x y ^^^ (~~~laneAt b (x + 1) y &&& laneAt b (x + 2) y)
  (e.headD 0 ^^^ rc) :: e.drop 1

def keccakF (a : List DWord) : List DWord := roundConstants.foldl keccakRound a

/-! ## SHAKE256 -/

/-- The rate in bytes. -/
def shakeRate : Nat := 136

/-- The message padded to whole blocks: 0x1F, zeros, and 0x80 in the last byte. -/
def shakePad (m : List Byte) : List Byte :=
  let r := m.length % shakeRate
  if r = shakeRate - 1 then m ++ [0x9F]
  else m ++ [0x1F] ++ List.replicate (shakeRate - 2 - r) 0 ++ [0x80]

/-- One block absorbed. -/
def absorb (a : List DWord) (block : List Byte) : List DWord :=
  keccakF ((List.range 25).map fun i =>
    if i < 17 then a.getD i 0 ^^^ BitVec.ofNat 64 (leAt block (8 * i) 8) else a.getD i 0)

/-- The first block's bytes of a state. -/
def rateBytes (a : List DWord) : List Byte := ((a.take 17).map fun w => leBytes 8 w.toNat).flatten

/-- `n` blocks of output. -/
def squeeze : Nat → List DWord → List Byte
  | 0, _ => []
  | n + 1, a => rateBytes a ++ squeeze n (keccakF a)

/-- The first `n` bytes of the SHAKE256 output of a message. -/
def shake256 (m : List Byte) (n : Nat) : List Byte :=
  let p := shakePad m
  let a := (rowsOf shakeRate (p.length / shakeRate) p).foldl absorb (List.replicate 25 0)
  (squeeze (n / shakeRate + 1) a).take n

/-- Eight bytes of the output stream from byte offset 8 × k, as a number (R322). -/
def shakeDraw (seed : List Byte) (k : Nat) : Nat := leAt (shake256 seed (8 * k + 8)) (8 * k) 8

/-! ## Check codes -/

/-- A reflected CRC over bytes: `w` bits of polynomial `poly`, from register value `r`. -/
def crcBits (poly : Nat) : Nat → Nat → Nat
  | 0, r => r
  | n + 1, r => crcBits poly n (if r % 2 = 1 then r / 2 ^^^ poly else r / 2)
def crcReflected (poly : Nat) (r : Nat) (bs : List Byte) : Nat :=
  bs.foldl (fun r b => crcBits poly 8 (r ^^^ b.toNat)) r

/-- CRC-32C (R149). -/
def crc32c (bs : List Byte) : Nat := crcReflected 0x82F63B78 0xFFFFFFFF bs ^^^ 0xFFFFFFFF

/-- The CRC-32 of a flit (R430). -/
def crc32 (bs : List Byte) : Nat := crcReflected 0xEDB88320 0xFFFFFFFF bs ^^^ 0xFFFFFFFF

/-- A CRC of `w` bits taken most significant bit first, over bytes in order. -/
def crcShift (w poly : Nat) : Nat → Nat → Nat
  | 0, r => r
  | n + 1, r => crcShift w poly n (if r.testBit (w - 1) then (2 * r) % 2 ^ w ^^^ poly else (2 * r) % 2 ^ w)
def crcForward (w poly init : Nat) (bs : List Byte) : Nat :=
  bs.foldl (fun r b => crcShift w poly 8 (r ^^^ (b.toNat * 2 ^ (w - 8)))) init
/-- The CRC-8 of a management frame (R426): its bytes in rising order, from 0 (DESIGN CHOICE, log entry 25). -/
def crc8 (bs : List Byte) : Nat := crcForward 8 0x07 0 bs
/-- The CRC-16 of a tray frame (R506). -/
def crc16 (bs : List Byte) : Nat := crcForward 16 0x1021 0xFFFF bs

end Sys2Proof.Machine
end

