-- ==== Sys2Proof/Machine/Ports.lean ====
section
/-! DEFINITION. The link layer of the Oluod ports (R429 to R437), and the layouts of Prompt messages and flits (R420,
R422, R430). -/

namespace Sys2Proof.Machine

/-! ## Prompt messages as flits of 32 bits (R420, R422) -/

/-- The code of a message type; partition digests have none (log entry 26). -/
def PnBody.code : PnBody → Nat
  | .cue .. => 0x01
  | .signal .. => 0x02
  | .signalAck .. => 0x03
  | .winNotice .. => 0x04
  | .kvCommit .. => 0x05
  | .kvRollback .. => 0x06
  | .kvAck .. => 0x07
  | .heartbeat .. => 0x08
  | .fault .. => 0x09
  | .regRead .. => 0x0A
  | .regWrite .. => 0x0B
  | .regResp .. => 0x0C
  | .commitNotice .. => 0x0D
  | .deadline .. => 0x0E
  | .partBeat .. => 0x0F
  | .partAck .. => 0x10
  | .raw code _ => code

def bnat (b : Bool) (k : Nat) : Nat := if b then 2 ^ k else 0

/-- The payload flits of a message; where R422 gives a payload no bit positions they are the model's (DESIGN CHOICE, log
entry 26). -/
def PnBody.payload : PnBody → List Nat
  | .cue k b e => [k + 4 * b + 4096 * e]
  | .signal slot a => if a < 2 ^ 26 then [slot + 64 * a] else [slot + 64 * (a % 2 ^ 26), a / 2 ^ 26]
  | .signalAck st => [st]
  | .winNotice w g => [w + 65536 * g]
  | .kvCommit c l m p r f => [c + 65536 * l + bnat r 28 + bnat f 29, m, p % 2 ^ 32, p / 2 ^ 32]
  | .kvRollback c l m p r f => [c + 65536 * l + bnat r 28 + bnat f 29, m, p % 2 ^ 32, p / 2 ^ 32]
  | .kvAck c st => [c, st]
  | .heartbeat x => [x]
  | .fault c x => [c, x]
  | .regRead o w => [o, w]
  | .regWrite o w v => [o, w, v.toNat % 2 ^ 32, v.toNat / 2 ^ 32]
  | .regResp st v => [st, v.toNat % 2 ^ 32, v.toNat / 2 ^ 32]
  | .commitNotice c q n f => [c + 65536 * n, q % 2 ^ 32, q / 2 ^ 32, f]
  | .deadline c t => [c, t]
  | .partBeat p q r => [p + bnat r 31, q]
  | .partAck p q => [p, q]
  | .raw _ ws => ws

/-- A message as flits of 32 bits (R420). -/
def PnMsg.flits (m : PnMsg) : List Nat :=
  let p := m.body.payload
  [m.body.code + 64 * p.length + 512 * m.dest + 2 ^ 19 * m.destModule, m.src + 1024 * m.srcModule + 65536 * m.tag] ++ p

/-- The message body that a type and its payload spell; none for a reserved type or a wrong LEN (R422). -/
def bodyOf (code : Nat) (p : List Nat) : Option PnBody :=
  match code, p with
  | 0x01, [a] => some (.cue (bitsOf a 0 2) (bitsOf a 2 10) (bitsOf a 12 5))
  | 0x02, [a] => some (.signal (bitsOf a 0 6) (bitsOf a 6 26))
  | 0x02, [a, b] => some (.signal (bitsOf a 0 6) (bitsOf a 6 26 + 2 ^ 26 * (b % 64)))
  | 0x03, [a] => some (.signalAck (a % 256))
  | 0x04, [a] => some (.winNotice (bitsOf a 0 6) (bitsOf a 16 16))
  | 0x05, [a, b, c, d] =>
    some (.kvCommit (bitsOf a 0 16) (bitsOf a 16 12) (b % 65536) (c + 2 ^ 32 * d) (bitOf a 28) (bitOf a 29))
  | 0x06, [a, b, c, d] =>
    some (.kvRollback (bitsOf a 0 16) (bitsOf a 16 12) (b % 65536) (c + 2 ^ 32 * d) (bitOf a 28) (bitOf a 29))
  | 0x07, [a, b] => some (.kvAck (a % 65536) (b % 256))
  | 0x08, [a] => some (.heartbeat a)
  | 0x09, [a, b] => some (.fault a b)
  | 0x0A, [a, b] => some (.regRead a b)
  | 0x0B, [a, b, c, d] => some (.regWrite a b (BitVec.ofNat 64 (c + 2 ^ 32 * d)))
  | 0x0C, [a, b, c] => some (.regResp a (BitVec.ofNat 64 (b + 2 ^ 32 * c)))
  | 0x0D, [a, b, c, d] => some (.commitNotice (bitsOf a 0 16) (b + 2 ^ 32 * c) (bitsOf a 16 16) d)
  | 0x0E, [a, b] => some (.deadline a b)
  | 0x0F, [a, b] => some (.partBeat (a % 16) b (bitOf a 31))
  | 0x10, [a, b] => some (.partAck (a % 16) b)
  | _, _ => none

/-! ## Flits (R430) -/

/-- The 256 bytes of a flit. -/
def flitBytes (type : Nat) (first last : Bool) (vc hop seq ack : Nat) (nak : Bool) (cls count : Nat)
    (payload : List Byte) : List Byte :=
  let body := leBytes 1 type ++ leBytes 1 (bnat first 0 + bnat last 1 + 4 * vc + 8 * hop) ++ leBytes 2 (seq % 4096) ++
    leBytes 2 (ack % 4096 + bnat nak 15) ++ leBytes 1 cls ++ leBytes 1 count ++ leBytes 2 payload.length ++
    leBytes 2 0 ++ bytesAt payload 0 240
  body ++ leBytes 4 (crc32 body)

/-- Whether a flit has 256 bytes and passes its CRC. -/
def flitGood (bs : List Byte) : Bool := bs.length == 256 && crc32 (bs.take 252) == leAt bs 252 4

/-- The buffer class of a numbered flit (R432). -/
def classOf (type hop vc : Nat) : Nat := if type = 1 then 2 * hop + vc else if type = 2 then 6 else 7
/-- The flits that a class holds (R432). -/
def classSize (c : Nat) : Nat := if c < 6 then 64 else if c = 6 then 32 else 8

/-! ## The state of a port -/

def portNew : Port := ⟨0, 4095, [], [], List.replicate 8 0, List.replicate 8 0, List.replicate 8 0, 0,
  List.replicate 6 [], [], 0, none⟩
def State.port (s : State) (n : Nat) : Port := sread (fun _ => portNew) s.ports n
def State.setPort (s : State) (n : Nat) (p : Port) : State :=
  { s with ports := swrite (fun _ => portNew) s.ports n p }
/-- PORT_STAT.STATE: 0 DISABLED, 1 DOWN, 2 TRAINING, 3 UP, 4 REFUSED. -/
def State.portState (s : State) (n : Nat) : Nat := s.fld (Reg.LNK_PORT_STAT n) Fl.LNK_PORT_STAT_STATE
def State.setPortState (s : State) (n x : Nat) : State :=
  s.setFld (Reg.LNK_PORT_STAT n) Fl.LNK_PORT_STAT_STATE x
def State.portUp (s : State) (n : Nat) : Bool := s.portState n == 3

/-! ## Sending -/

/-- A flit goes out, with this side's acknowledgement and the credit count of the next class in turn (R432). -/
def State.sendFlit (s : State) (n type : Nat) (first last : Bool) (vc hop seq : Nat) (nak : Bool)
    (payload : List Byte) : State :=
  let p := s.port n
  let bs := flitBytes type first last vc hop seq p.rxSeq nak p.turn (p.freed.getD p.turn 0 % 256) payload
  (s.setPort n { p with turn := (p.turn + 1) % 8, accepted := 0 }).emit (.flit n bs)

/-- An IDLE flit: acknowledgement and credit, and a NAK where one is due (R431, R433). -/
def State.sendIdle (s : State) (n : Nat) (nak : Bool) : State :=
  s.sendFlit n 0 false false 0 0 (s.port n).txSeq nak []

/-- A numbered flit goes out (R433, R452). -/
def State.sendNumbered (s : State) (n : Nat) (f : TxFlit) : State :=
  (s.sendFlit n f.type f.first f.last f.vc f.hop f.seq false f.payload).count (Reg.LNK_TX_FLITS n)

/-- Whether the sender holds a credit for a flit's class (R432): the flits sent in it less those the peer has freed are
fewer than the class holds. -/
def Port.hasCredit (p : Port) (f : TxFlit) : Bool :=
  let c := classOf f.type f.hop f.vc
  decide ((p.sent.getD c 0 + 256 - p.credit.getD c 0 % 256) % 256 < classSize c)

/-- The next flit to go out: a PROMPT flit goes ahead of the others (R423), and within a class the order is kept. -/
def Port.nextFlit (p : Port) : Option TxFlit :=
  match p.queued.find? fun f => f.type == 2 && p.hasCredit f with
  | some f => some f
  | none => p.queued.find? p.hasCredit

/-- The queued flits for which credit allows go out, while fewer than 2,048 are unacknowledged (R432, R433). -/
def State.pump (s : State) (n : Nat) : Nat → State
  | 0 => s
  | fuel + 1 =>
    let p := s.port n
    if !s.portUp n || decide (2048 ≤ p.unacked.length) then s
    else
      match p.nextFlit with
      | none => s
      | some f =>
        let c := classOf f.type f.hop f.vc
        let g := { f with seq := p.txSeq, sends := 1 }
        let q := { p with
          txSeq := (p.txSeq + 1) % 4096
          queued := p.queued.erase f
          unacked := p.unacked ++ [g]
          sent := p.sent.set c ((p.sent.getD c 0 + 1) % 256) }
        ((s.setPort n q).sendNumbered n g).pump n fuel
def State.drainPort (s : State) (n : Nat) : State := s.pump n ((s.port n).queued.length)

/-- Flits queued at a port. -/
def State.enqueue (s : State) (n : Nat) (fs : List TxFlit) : State :=
  let p := s.port n
  (s.setPort n { p with queued := p.queued ++ fs }).drainPort n

/-- A data message queued at a port as DATA flits of 240 bytes (R430, R431). -/
def State.queueData (s : State) (n : Nat) (w : WireMsg) (id vc hop : Nat) : State :=
  let rows := rowsOf 240 70000 (Config.wireBytes w)
  let rows := if rows.isEmpty then [[]] else rows
  let k := rows.length
  s.enqueue n ((List.range k).map fun i =>
    ⟨0, 1, i == 0, i + 1 == k, vc, hop, rows.getD i [], some id, 0, 0⟩)

/-- A Prompt message queued at a port in a PROMPT flit of its own. -/
def State.queuePrompt (s : State) (n : Nat) (m : PnMsg) : State :=
  s.enqueue n [⟨0, 2, true, true, 0, m.hop, (m.flits.map fun w => leBytes 4 w).flatten, none, 1, 0⟩]

/-- The PROMPT entry that steers a Prompt message: the first of the partition, where one is known, that covers the core named,
in the order of the entries (R442; DEDUCED, log entry 27). -/
def State.promptEntry (s : State) (part : Option Nat) (destModule dest : Nat) : Option Route :=
  s.routes.find? fun r => r.prompt && (part.all fun p => r.part == p) && r.destModule == destModule &&
    (decide (256 ≤ dest) || (decide (r.destLo ≤ dest) && decide (dest ≤ r.destHi)))
/-- The port by which Prompt messages leave for a module. -/
def State.promptPort (s : State) (part destModule dest : Nat) : Option Nat :=
  (s.promptEntry (some part) destModule dest).map fun r => r.index
/-- The partition that a message in transit names. -/
def PnBody.partNamed : PnBody → Option Nat
  | .partBeat p _ _ => some p
  | .partAck p _ => some p
  | _ => none

/-- A SLACK record queued at the port that leads to its module, as Prompt messages are steered; without one it is discarded
(DESIGN CHOICE, log entry 44). -/
def State.queueSlack (s : State) (part dest hop : Nat) (payload : List Byte) : State :=
  match s.promptPort part dest 256 with
  | none => s
  | some n => if s.portUp n then s.enqueue n [⟨0, 3, true, true, 0, hop, payload, none, 0, 0⟩] else s

/-- A Prompt message discarded (R421, R422, R436). -/
def State.pnDropped (s : State) : State :=
  (s.bump Reg.FAB_PN_DROPPED Fl.FAB_PN_DROPPED_COUNT).setFld Reg.FAB_STAT Fl.FAB_STAT_PN_DROP_SEEN 1

/-- A Prompt message sent to a node of this module or of another one; `part` is the partition whose PROMPT entries
steer it. A message with no way out is discarded. -/
def State.sendAway (s : State) (part dest destModule src tag : Nat) (body : PnBody) : State :=
  if destModule = s.module then s.sendPn dest destModule src tag body
  else
    match s.promptPort part destModule dest with
    | none => s.pnDropped
    | some n =>
      if s.portUp n then s.queuePrompt n ⟨0, dest, destModule, src, s.module, tag, 0, body⟩ else s.pnDropped

/-! ## Messages that end -/

/-- A message completed UNREACHABLE is counted (R414, R449). -/
def State.countUnreach (s : State) : State :=
  (s.bump Reg.FAB_UNREACH Fl.FAB_UNREACH_COUNT).setFld Reg.FAB_STAT Fl.FAB_STAT_UNREACH_SEEN 1

def State.findNet (s : State) (id : Nat) : Option NetMsg := s.net.find? fun m => m.id == id
def State.dropNet (s : State) (id : Nat) : State := { s with net := s.net.filter fun m => m.id != id }
/-- A data message replaced by what it has become. -/
def State.putNet (s : State) (m : NetMsg) : State :=
  { s with net := s.net.map fun k => if k.id = m.id then m else k }

/-- A data message become another, the last sent (R410). -/
def State.lastNet (s : State) (m : NetMsg) : State := { s with net := (s.net.filter fun k => k.id != m.id) ++ [m] }

/-- A message answered with a status: it becomes a completion, which has made no hop (R430, R441) and starts on channel 0
(R413) at the router that answers; one of another module is on its way to that module. -/
def State.answer (s : State) (m : NetMsg) (status : Nat) (data : List Byte) (bad : List Bool) (router : Nat) : State :=
  if m.kind = .completion then s.dropNet m.id
  else if m.orgModule = s.module then s.lastNet { m with
    stage := .answered
    status := status
    data := data
    bad := bad
    vc := 0
    hop := 0 }
  else s.lastNet { m with
    kind := .completion
    dstModule := m.orgModule
    dstCore := m.orgCore
    status := status
    data := data
    bad := bad
    vc := 0
    hop := 0
    router := router
    stage := .moving }

/-- A message completes UNREACHABLE at its sender. -/
def State.unreachable (s : State) (m : NetMsg) (router : Nat) : State :=
  (s.answer m stUnreachable [] [] router).countUnreach

/-! ## A port goes down (R434 to R436) -/

/-- What a discarded flit carried ends: a data message of this module UNREACHABLE, a Prompt message discarded. -/
def State.flitLost (s : State) (f : TxFlit) : State :=
  match f.msg with
  | none => (List.range f.prompts).foldl (fun (s : State) _ => s.pnDropped) s
  | some id =>
    match s.findNet id with
    | none => s
    | some m => if m.stage = .away ∧ f.last then s.unreachable m m.router else s

/-- A port goes DOWN with a reason (R435, R436): its numbered flits are discarded, its departure from UP is counted, and
its state is DOWN, or DISABLED with ENABLE clear. -/
def State.portDown (s : State) (n reason : Nat) : State :=
  let p := s.port n
  let up := s.portUp n
  let s := (p.unacked ++ p.queued).foldl (fun (s : State) f => s.flitLost f) s
  let s := s.setPort n { portNew with turn := p.turn }
  let st := Reg.LNK_PORT_STAT n
  let s := if up then
      ((s.setFld st Fl.LNK_PORT_STAT_DOWN_SEEN 1).bump (Reg.LNK_DOWNS n) Fl.LNK_DOWNS_DOWNS).logFault 0x48 (.port n)
        none outLogged 0
    else s
  let s := (s.setFld st Fl.LNK_PORT_STAT_REASON reason).setFld st Fl.LNK_PORT_STAT_WIDTH 0
  s.setPortState n (if s.flag (Reg.LNK_PORT_CTL n) Fl.LNK_PORT_CTL_ENABLE then 1 else 0)

/-- A port starts to train (R437): it sends LINK flits with SYSTEM_ID, module number, port number and ID.REVISION, in a
payload whose layout is the model's (DESIGN CHOICE, log entry 28). -/
def State.startTraining (s : State) (n : Nat) : State :=
  let s := (s.setPort n { portNew with turn := (s.port n).turn }).setPortState n 2
  s.sendFlit n 4 true true 0 0 0 false
    (leBytes 8 (s.rd Reg.LNK_SYSTEM_ID).toNat ++ leBytes 1 s.module ++ leBytes 1 n ++
      leBytes 4 (s.rd Reg.ID_REVISION).toNat)

/-! ## Receiving (R433) -/

/-- A NAK goes out; more than 64 within 1 ms retrain the port (R434). -/
def State.sendNak (s : State) (n : Nat) : State :=
  let p := s.port n
  let recent := (p.naks.filter fun t => decide (s.now < t + 4000)) ++ [s.now]
  let s := (s.setPort n { p with naks := recent }).sendIdle n true
  if 64 < recent.length then
    ((s.portDown n 3).bump (Reg.LNK_DOWNS n) Fl.LNK_DOWNS_RETRAINS).startTraining n
  else s

/-- The flits after an acknowledged number. -/
def afterAck (ack : Nat) (fs : List TxFlit) : List TxFlit :=
  fs.filter fun f => decide ((f.seq + 4096 - ack % 4096) % 4096 ≤ 2048) && f.seq != ack % 4096

/-- An acknowledgement, a NAK and a credit count received (R432, R433): eight sends of one number without its
acknowledgement take the port DOWN. -/
def State.rxControl (s : State) (n ack : Nat) (nak : Bool) (cls count : Nat) : State :=
  let p := s.port n
  let left := afterAck ack p.unacked
  let p := { p with unacked := left, credit := if cls < 8 then p.credit.set cls count else p.credit }
  let s := s.setPort n p
  if nak && !left.isEmpty then
    let s := s.bump (Reg.LNK_REPLAYS n) Fl.LNK_REPLAYS_COUNT
    if left.any fun f => decide (8 ≤ f.sends) then s.portDown n 2
    else
      let again := left.map fun f => { f with sends := f.sends + 1 }
      let s := s.setPort n { s.port n with unacked := again }
      (again.foldl (fun (s : State) f => s.sendNumbered n f) s).drainPort n
  else s.drainPort n

/-- A data message received from a port enters the mesh at the port's die (R409, R441); a completion for this module is
matched with the message that waits for it. -/
def State.enterMesh (s : State) (n vc hop : Nat) (w : WireMsg) : State :=
  if w.kind = 2 ∧ w.dstModule = s.module then
    match s.findNet w.tag with
    | none => s
    | some m =>
      if m.stage = .away then
        s.putNet { m with
          stage := .answered
          status := w.status
          data := w.data
          bad := w.bad
          vc := vc
          router := if m.orgCore / 8 = n then m.orgCore else 8 * n }
      else s
  else
    let core := if w.dstModule = s.module then s.stand w.dstCore else w.dstCore
    let router := if w.dstModule = s.module ∧ core / 8 = n then core else 8 * n
    let kind : NetKind := if w.kind = 0 then .put else if w.kind = 1 then .get else .completion
    let m : NetMsg := ⟨s.nextId, kind, w.orgModule, w.orgCore, w.orgPart, w.tag, 0, w.dstModule, core, w.space,
      w.off, w.len, w.win, w.gen, 0, w.data, w.bad, vc, hop + 1, router, .moving, w.status, false⟩
    { s with net := s.net ++ [m], nextId := s.nextId + 1 }

/-- A Prompt message received from a port: delivered to its node of this module, or discarded where no node has that number
(R421), or sent on by the PROMPT entries (R441, R442). -/
def State.enterPrompt (s : State) (hop : Nat) (m : PnMsg) : State :=
  if m.destModule = s.module ∨ m.destModule = 63 then
    if 273 < m.dest then s.pnDropped
    else
      let dest := if m.dest < 256 then s.stand m.dest else m.dest
      let m := { m with id := s.nextId, dest := dest, destModule := s.module, hop := hop + 1 }
      { s with pn := s.pn ++ [m], nextId := s.nextId + 1 }
  else if 2 ≤ hop then s.pnDropped
  else
    match s.promptEntry m.body.partNamed m.destModule m.dest with
    | none => s.pnDropped
    | some r => if s.portUp r.index then s.queuePrompt r.index { m with hop := hop + 1 } else s.pnDropped

/-- The words of a PROMPT payload read as messages, at most `fuel` of them; a message with a reserved type or a wrong LEN
is discarded and counted at its destination (R422). -/
def State.promptWords (s : State) (hop : Nat) : Nat → List Nat → State
  | 0, _ => s
  | fuel + 1, ws =>
    match ws with
    | a :: b :: rest =>
      let len := bitsOf a 6 3
      let words := rest.take len
      let here := bitsOf a 19 6 = s.module ∨ bitsOf a 19 6 = 63
      let msg : PnBody → PnMsg := fun x =>
        ⟨0, bitsOf a 9 10, bitsOf a 19 6, bitsOf b 0 10, bitsOf b 10 6, bitsOf b 16 16, 0, x⟩
      let s := match bodyOf (a % 64) words with
        | none => if here then s.pnDropped else s.enterPrompt hop (msg (.raw (a % 64) words))
        | some body => s.enterPrompt hop (msg body)
      s.promptWords hop fuel (rest.drop len)
    | _ => s

/-- A numbered flit accepted: its message bytes are gathered, and a whole message is delivered. -/
def State.portData (s : State) (n : Nat) (bs : List Byte) : State :=
  let type := leAt bs 0 1
  let b1 := leAt bs 1 1
  let vc := bitsOf b1 2 1
  let hop := bitsOf b1 3 2
  let payload := bytesAt bs 12 (min (leAt bs 8 2) 240)
  let s := s.count (Reg.LNK_RX_FLITS n)
  if type = 1 then
    let c := classOf 1 hop vc
    let p := s.port n
    let old := if bitOf b1 0 then [] else p.parts.getD c []
    let all := old ++ payload
    if bitOf b1 1 then
      let s := s.setPort n { p with parts := p.parts.set c [] }
      match Config.wireMsg all with
      | none => s
      | some w => s.enterMesh n vc hop w
    else s.setPort n { p with parts := p.parts.set c all }
  else if type = 2 then
    let ws := (List.range (payload.length / 4)).map fun i => leAt payload (4 * i) 4
    s.promptWords hop ws.length ws
  else if leAt payload 3 1 = s.module then { s with slackIn := s.slackIn ++ [(n, payload)] }
  else if hop = 3 then s
  else s.queueSlack (leAt payload 1 1) (leAt payload 3 1) (hop + 1) payload

/-- A numbered flit received: the next in order is accepted, its buffer freed and its contents delivered; any other is
discarded with a NAK; 64 flits accepted with no flit sent back bring an acknowledgement (R433). -/
def State.rxNumbered (s : State) (n : Nat) (bs : List Byte) : State :=
  let p := s.port n
  let seq := leAt bs 2 2 % 4096
  if seq = (p.rxSeq + 1) % 4096 then
    let c := classOf (leAt bs 0 1) (bitsOf (leAt bs 1 1) 3 2) (bitsOf (leAt bs 1 1) 2 1)
    let q := { p with rxSeq := seq, freed := p.freed.set c ((p.freed.getD c 0 + 1) % 256), accepted := p.accepted + 1 }
    let s := (s.setPort n q).portData n bs
    if 64 ≤ (s.port n).accepted then s.sendIdle n false else s
  else s.sendNak n

/-- A LINK flit: in training the peer's identity and its next number are kept; on a port that is UP a different
identity takes it DOWN (R434, R437). -/
def State.rxLink (s : State) (n : Nat) (bs : List Byte) : State :=
  let id := (leAt bs 12 8, leAt bs 20 1, leAt bs 21 1, leAt bs 22 4)
  let p := s.port n
  if s.portState n = 2 then s.setPort n { p with peer := some id, rxSeq := (leAt bs 2 2 + 4095) % 4096 }
  else if s.portUp n ∧ p.peer ≠ some id then s.portDown n 4
  else s

/-- A flit received and judged by its CRC. -/
def State.rxJudged (s : State) (n type : Nat) (bs : List Byte) : State :=
  if !flitGood bs then
    let s := s.bump (Reg.LNK_CRC_ERR n) Fl.LNK_CRC_ERR_COUNT
    if s.portUp n then s.sendNak n else s
  else if leAt bs 0 1 ≠ type then s
  else if type = 4 then s.rxLink n bs
  else
    let a := leAt bs 4 2
    let s := s.rxControl n (a % 4096) (bitOf a 15) (leAt bs 6 1) (leAt bs 7 1)
    if type = 0 ∨ !s.portUp n then s else s.rxNumbered n bs

/-- The FEC of a flit received (R452, R566): how many symbols it corrected, and for a flit that fails its CRC how many
codewords it could not correct, the wire alone knows, so that both are free. -/
def State.fecCount (s : State) (n : Nat) (good : Bool) : State :=
  let t := s.drew.count (Reg.LNK_FEC_CE n) (Config.fecSymbols s.fresh n).toNat
  if good then t else t.bump (Reg.LNK_FEC_UE n) Fl.LNK_FEC_UE_COUNT (Config.fecWords s.fresh n).toNat

/-- A flit received at a port, as one of type `type` (R431, R433): a flit that fails its CRC is counted and answered with
a NAK; a flit of another type is none of this event's. -/
def State.rxFlit (s : State) (n type : Nat) (bs : List Byte) : State :=
  if !s.portUp n && !(s.portState n == 2 && type == 4) then s
  else (s.fecCount n (flitGood bs)).rxJudged n type bs

/-- FLIT_DATA (R431). -/
def execFlitData (port : PortId) (flit : List Byte) (s : State) : Out := .next (s.rxFlit port.val 1 flit)
/-- FLIT_PROMPT (R431). -/
def execFlitPrompt (port : PortId) (flit : List Byte) (s : State) : Out := .next (s.rxFlit port.val 2 flit)
/-- FLIT_SLACK (R431). -/
def execFlitSlack (port : PortId) (flit : List Byte) (s : State) : Out := .next (s.rxFlit port.val 3 flit)
/-- FLIT_IDLE (R431). -/
def execFlitIdle (port : PortId) (flit : List Byte) (s : State) : Out := .next (s.rxFlit port.val 0 flit)
/-- FLIT_LINK (R437). -/
def execFlitLink (port : PortId) (flit : List Byte) (s : State) : Out := .next (s.rxFlit port.val 4 flit)

/-- IDLE_FLIT_TIMER (R434): an idle port that is UP sends an IDLE flit. -/
def execIdleFlitTimer (port : PortId) (s : State) : Out :=
  .next (if s.portUp port.val then s.sendIdle port.val false else s)

/-- ACK_TIMER (R433): the receiver returns its acknowledgement, in an IDLE flit where no other flit carries it. -/
def execAckTimer (port : PortId) (s : State) : Out :=
  .next (if s.portUp port.val then s.sendIdle port.val false else s)

/-- PORT_SILENCE (R434): no good flit for 8 µs takes the link DOWN. -/
def execPortSilence (port : PortId) (s : State) : Out :=
  .next (if s.portUp port.val then s.portDown port.val 1 else s)

/-- Whether the LK domain of a port is on (R37, R460). -/
def State.lkOn (s : State) (n : Nat) : Bool := s.flag Reg.PWR_DOMAIN_STAT ⟨16 + n / 4, 1⟩

/-- RETRAIN_TIMER (R436): an enabled port that is DOWN trains again. -/
def execRetrainTimer (port : PortId) (s : State) : Out :=
  let n := port.val
  .next (if s.portState n = 1 ∧ s.flag (Reg.LNK_PORT_CTL n) Fl.LNK_PORT_CTL_ENABLE ∧ s.lkOn n then s.startTraining n
    else s)

/-- The outcome of training (R435, R437): the width of 0 wavelengths locked, 8, 12 or 16 is free; with none the port is
DOWN with OPTICAL; a peer with no identity leaves it DOWN with SILENCE; a peer of another system or with this module's
number is REFUSED; otherwise the port is UP. -/
def State.endTraining (s : State) (n : Nat) : State :=
  let width := (Config.lockedWidth s.fresh n).toNat
  let s := s.drew
  let st := Reg.LNK_PORT_STAT n
  if width = 0 then s.portDown n 7
  else
    match (s.port n).peer with
    | none => s.portDown n 1
    | some (sys, md, pt, _) =>
      if sys ≠ (s.rd Reg.LNK_SYSTEM_ID).toNat then (s.portDown n 8).setPortState n 4
      else if md = s.module then (s.portDown n 9).setPortState n 4
      else
        let s := (s.setFld st Fl.LNK_PORT_STAT_WIDTH width).setPortState n 3
        let s := (s.setFld (Reg.LNK_PEER n) Fl.LNK_PEER_MODULE md).setFld (Reg.LNK_PEER n) Fl.LNK_PEER_PORT pt
        s.drainPort n

/-- TRAINING_COMPLETE (R437). -/
def execTrainingComplete (port : PortId) (s : State) : Out :=
  .next (if s.portState port.val = 2 then s.endTraining port.val else s)

/-- ENABLE set (R452): the port trains. -/
def State.portEnable (s : State) (n : Nat) : State := (s.setFld (Reg.LNK_PORT_CTL n) Fl.LNK_PORT_CTL_ENABLE 1).startTraining n
/-- ENABLE cleared (R434, R452): the port goes DOWN. -/
def State.portDisable (s : State) (n : Nat) : State :=
  (s.setFld (Reg.LNK_PORT_CTL n) Fl.LNK_PORT_CTL_ENABLE 0).portDown n 5
/-- RETRAIN (R452): the port goes DOWN and trains again, also from REFUSED, while it is enabled. -/
def State.retrain (s : State) (n : Nat) : State :=
  if s.flag (Reg.LNK_PORT_CTL n) Fl.LNK_PORT_CTL_ENABLE then
    (if s.portUp n then s.portDown n (s.fld (Reg.LNK_PORT_STAT n) Fl.LNK_PORT_STAT_REASON) else s).startTraining n
  else s

end Sys2Proof.Machine
end

