-- ==== Sys2Proof/Machine/Waiting.lean ====
section
/-! DEFINITION. Waiting on tokens and sleeping in the wait (R247, R248), and waking (R233, R472). -/

namespace Sys2Proof.Machine

/-- Whether an evaluation of a core is in flight (R111). -/
def State.evalInFlight (s : State) (c : Nat) : Bool := s.fires.any fun f => f.core == c && f.stage == .issued
def State.want (s : State) (c : Nat) : Nat := sread (fun _ => 0) s.sleepWant c
def State.setWant (s : State) (c x : Nat) : State :=
  { s with sleepWant := swrite (fun _ => 0) s.sleepWant c x }

/-- The tokens of a mask that are not PENDING: an IDLE token counts as DONE (R247). -/
def State.doneMask (s : State) (c mask : Nat) : List Nat :=
  (maskList 16 mask).filter fun t => s.tok c t != tokPending
/-- Whether a TWAIT's condition is met. -/
def State.waitMet (s : State) (c mask : Nat) (any : Bool) : Bool :=
  if any then !(s.doneMask c mask).isEmpty else (s.doneMask c mask).length == (maskList 16 mask).length
/-- Whether TRAP finds a DONE token with a status other than OK (R247): it raises STATUS then, whether or not the condition is
met (DEDUCED, log entry 71). -/
def State.waitTrap (s : State) (c mask : Nat) : Bool :=
  (maskList 16 mask).any fun t => s.tok c t == tokDone && s.tokStatus c t != stOk
/-- The mask of DONE tokens that gd receives (R247). -/
def State.waitResult (s : State) (c mask : Nat) : DWord :=
  BitVec.ofNat 64 ((s.doneMask c mask).foldl (fun a t => a + 2 ^ t) 0)

/-- The sleep state that a TWAIT's SLEEP gives a core: Hold and Doze only as its role permits (R248, R375). -/
def State.sleepFor (s : State) (c sleep : Nat) : Nat :=
  let m := (s.bind c).sleep
  if !s.bound c then 0
  else if sleep = 2 && m.testBit 1 then 2
  else if sleep ≠ 0 && m.testBit 0 then 1
  else 0

/-- When a core was last woken, in units of 250 ns. -/
def State.woken (s : State) (c : Nat) : Option Nat := sread (fun _ => none) s.wokeAt c
/-- A sleep entry of a core: it is discarded where a wake reached the core's control port in the same cycle (R35), and of one
that comes in the 250 ns of a wake that is a free value (DESIGN CHOICE, log entry 16). -/
def State.enter (s : State) (c : Nat) (f : State → State) : State :=
  if s.woken c = some s.now then (if Config.sameCycle s.fresh then s.drew else f s.drew) else f s

/-- The sleep that a blocked TWAIT enters: Hold at once; Doze at once unless an evaluation is in flight (R111). -/
def State.sleepIn (s : State) (c x : Nat) : State :=
  if x = 0 then s
  else s.enter c fun s => if x = 2 && s.evalInFlight c then s.setWant c 2 else s.setSleep c x

/-- A TWAIT blocks: state WAIT, the pc naming it, and the core in the sleep state it asks for. -/
def State.block (s : State) (c : Nat) (w : Twait) (sleep : Nat) : State :=
  let s := (s.setSeq c seqWait).setFld (Reg.SEQ_STAT c) Fl.SEQ_STAT_HELD 0
  ({ s with twaits := s.twaits ++ [w] }).sleepIn c (s.sleepFor c sleep)

/-- TWAIT (R247, R248). -/
def execTwait (c : CoreId) (f : CFmt) (s : State) : Out :=
  let k := c.val
  let mask := immF f.imm 0 16
  let any := immB f.imm 16
  let trap := immB f.imm 17
  let sleep := immF f.imm 18 2
  let met := s.waitMet k mask any
  let illegal := f.bad false || f.tok != 0 || mask == 0 || sleep == 3 || immF f.imm 20 12 != 0
  let check := if trap && s.waitTrap k mask then some Cause.status else none
  .next (issueOr ⟨k, f.word 0x30, s.pcNext k, illegal, none, false, check, !met⟩ id
    (fun t => t.block k ⟨k, mask, any, trap, f.gd.val⟩ sleep)
    (fun t => t.setG k f.gd.val (s.waitResult k mask)) s)

/-- What ends a blocked TWAIT: its condition is met, or TRAP finds a failed token (R247). -/
def State.waitEnds (s : State) (w : Twait) : Bool := s.waitMet w.core w.mask w.any || (w.trap && s.waitTrap w.core w.mask)
/-- A blocked TWAIT ends in a core in Run: a pending LATE_PUT abandons it, first of all (R268, R269, R271); else it raises
STATUS under TRAP, or gives gd the mask of DONE tokens and issues (R247). -/
def State.finishTwait (s : State) (c : Nat) : State :=
  match s.twaits.find? fun t => t.core == c with
  | none => s
  | some w =>
    if s.latePending c && !s.inHandler c then s.takeLate c
    else if s.waitEnds w then
      let t := s.dropTwait c
      if w.trap && s.waitTrap c w.mask then t.raise c .status (s.pc c) 0 0
      else (t.issued c (s.pcNext c)).setG c w.gd (s.waitResult c w.mask)
    else s

/-- A core starts to wake from Hold, Doze or Retain (R472). -/
def State.wake (s : State) (c : Nat) : State :=
  let s := { s with wokeAt := swrite (fun _ => none) s.wokeAt c (some s.now) }
  if s.sleep c = 0 then s.setWant c 0
  else if s.waking.contains c then s
  else { s with waking := s.waking ++ [c] }

/-- TWAIT_COMPLETE (R247, R248): core `c`'s blocked TWAIT ends, after the wake time where the core sleeps. -/
def execTwaitComplete (c : CoreId) (s : State) : Out :=
  .next (match s.twaits.find? fun t => t.core == c.val with
    | none => s
    | some w =>
      if s.waitEnds w then
        if s.sleep c.val = 0 then s.finishTwait c.val
        else if s.sleep c.val ≤ 2 then s.wake c.val
        else s
      else s)

/-- Whether a register of a core window keeps its value through Retain: the window descriptors (R199), SEQ.START_PC,
SEQ.HANDLER and SEQ.CODE_LIM (R233), and the binding of CORE.ID (DEDUCED, log entry 13). -/
def keptInRetain (c k : Nat) : Bool :=
  k == Reg.CORE_ID c || k == Reg.SEQ_START_PC c || k == Reg.SEQ_HANDLER c || k == Reg.SEQ_CODE_LIM c ||
    (decide (coreWin c + 0x10000 ≤ k) && decide (k < coreWin c + 0x20000))

/-- Every engine of a core in whole mode with an all-zero tile of pair INT8, and INT32 0 in every accumulator entry, as after
reset (R185). -/
def State.engReset (s : State) (c : Nat) : State :=
  { s with
    acc := sclear s.acc (c * 24 * 16384) ((c + 1) * 24 * 16384)
    accEcc := sclear s.accEcc (c * 24 * 16384) ((c + 1) * 24 * 16384)
    tiles := sclear s.tiles (c * 96) (c * 96 + 96)
    regs := swrite resetOf s.regs (Reg.ENG_QUAD c) (resetOf (Reg.ENG_QUAD c)) }

/-- What no state but Run, Hold and Doze keeps of a core: tokens, waits, engines, buffers (R185, R233, R235). -/
def State.loseVolatile (s : State) (c : Nat) : State :=
  { s with
    tokOps := sclear s.tokOps (c * 16) (c * 16 + 16)
    lateWin := sclear s.lateWin c (c + 1)
    twaits := s.twaits.filter fun t => t.core != c
    acc := sclear s.acc (c * 24 * 16384) ((c + 1) * 24 * 16384)
    accEcc := sclear s.accEcc (c * 24 * 16384) ((c + 1) * 24 * 16384)
    tiles := sclear s.tiles (c * 96) (c * 96 + 96)
    engOps := s.engOps.filter fun o => o.core != c
    engActive := sclear s.engActive c (c + 1)
    vecOps := s.vecOps.filter fun o => o.core != c
    fires := s.fires.filter fun f => f.core != c
    outBufs := s.outBufs.filter fun b => b.core != c
    winPends := s.winPends.filter fun w => w.core != c
    sigWaits := s.sigWaits.filter fun w => w.core != c
    runTime := sclear s.runTime c (c + 1)
    sleepWant := sclear s.sleepWant c (c + 1)
    wokeAt := sclear s.wokeAt c (c + 1)
    waking := s.waking.filter fun k => k != c }

/-- A core out of Retain: its registers at their reset values but for those that survive (R25, R233). -/
def State.retainLoss (s : State) (c : Nat) : State :=
  let inWin := fun k => decide (coreWin c ≤ k) && decide (k < coreWin (c + 1))
  { s.loseVolatile c with
    regs := sclearIf s.regs fun k => inWin k && !keptInRetain c k
    shadow := sclearIf s.shadow fun k => inWin k && !keptInRetain c k
    latches := sclearIf s.latches fun k => inWin k }

/-- CORE_WAKE_DONE (R472): a waking core reaches Run; out of Retain its sequencer is HALTED and its volatile state at
reset (R233); a TWAIT whose condition is met completes. The wake's own cycle is over, so that it discards no later sleep entry
(R35). -/
def execCoreWakeDone (c : CoreId) (s : State) : Out :=
  .next (if s.waking.contains c.val then
      let t := { s with waking := s.waking.filter (fun k => k != c.val), wokeAt := swrite (fun _ => none) s.wokeAt c.val none }
      if s.sleep c.val = 3 then (t.retainLoss c.val).setSleep c.val 0
      else if s.sleep c.val ≤ 2 then (t.setSleep c.val 0).finishTwait c.val
      else t
    else s)

/-- SLEEP_ENTRY (R111): a sleep entry that waited for the core's evaluations takes effect once none is in flight: Doze
while its TWAIT still blocks, Retain while the core is still idle. -/
def execSleepEntry (c : CoreId) (s : State) : Out :=
  .next (if s.evalInFlight c.val then s
    else if s.want c.val = 2 then
      if s.sleep c.val = 0 && s.twaits.any fun t => t.core == c.val then (s.setWant c.val 0).setSleep c.val 2
      else s.setWant c.val 0
    else if s.want c.val = 3 then
      if s.sleep c.val = 0 && (s.seq c.val == seqHalted || s.seq c.val == seqFaulted)
      then (s.setWant c.val 0).setSleep c.val 3
      else s.setWant c.val 0
    else s)

end Sys2Proof.Machine
end

