-- ==== Sys2Proof/Machine/Window.lean ====
section
/-! DEFINITION. Windows: their states (R199), the WIN instructions (R259), the bounds of drains and waits, and closing
from outside (R198 to R206). -/

namespace Sys2Proof.Machine

def winClosed : Nat := 0
def winOpened : Nat := 1
def winDraining : Nat := 2
def State.winState (s : State) (c w : Nat) : Nat := s.fld (Reg.WDS_WIN_CTL c w) Fl.WDS_WIN_CTL_STATE
def State.winGen (s : State) (c w : Nat) : Nat := s.fld (Reg.WDS_WIN_CTL c w) Fl.WDS_WIN_CTL_GENERATION
def State.winCount (s : State) (c w : Nat) : Nat := s.fld (Reg.WDS_WIN_COUNT c w) Fl.WDS_WIN_COUNT_COUNT
def State.winTarget (s : State) (c w : Nat) : Nat := s.fld (Reg.WDS_WIN_TARGET c w) Fl.WDS_WIN_TARGET_TARGET
/-- Whether the count has reached the target. -/
def State.winMet (s : State) (c w : Nat) : Bool := decide (s.winTarget c w ≤ s.winCount c w)
/-- The generation after another: from 0xFFFF to 0x0001 (R199). -/
def nextGen (g : Nat) : Nat := if g = 0xFFFF then 1 else g + 1

/-- Every pending operation of one kind at a window completes with a status; a core that sleeps in Hold or Doze wakes
when `wakes` (R205). -/
def State.winEnd (s : State) (c w : Nat) (k : WinPendKind) (status : Nat) (wakes : Bool) : State :=
  let hit := s.winPends.filter fun p => p.core == c && p.win == w && p.kind == k
  let s := { s with winPends := s.winPends.filter fun p => !(p.core == c && p.win == w && p.kind == k) }
  let s := hit.foldl (fun (s : State) p => s.tokComplete c p.tok status) s
  if wakes && !hit.isEmpty && (s.sleep c == 1 || s.sleep c == 2) then s.wake c else s

/-- The waits of a window whose count has reached the target complete MET (R205). -/
def State.winWaits (s : State) (c w : Nat) : State :=
  if s.winMet c w then s.winEnd c w .wait stOk true else s

/-- A drain in progress ends with an outcome of LAST_DRAIN: 1 DRAINED, 2 EXPIRED, 3 CLOSED, 4 REOPENED (R199). -/
def drainStatus (outcome : Nat) : Nat :=
  if outcome = 1 then stOk else if outcome = 2 then stExpired else if outcome = 3 then stClosed else stReopened
def State.drainEnd (s : State) (c w outcome : Nat) : State :=
  (s.setFld (Reg.WDS_WIN_CTL c w) Fl.WDS_WIN_CTL_LAST_DRAIN outcome).winEnd c w .drain (drainStatus outcome) false

/-- A window becomes CLOSED: its waits below the target complete CLOSED (R205). -/
def State.winShut (s : State) (c w : Nat) : State :=
  (s.setFld (Reg.WDS_WIN_CTL c w) Fl.WDS_WIN_CTL_STATE winClosed).winEnd c w .wait stClosed false

/-- The close of R199 and R203. -/
def State.winClose (s : State) (c w : Nat) : State :=
  if s.winState c w = winClosed then s
  else if s.winState c w = winDraining then (s.drainEnd c w 3).winShut c w
  else s.winShut c w

/-- The open of R199 with a target. -/
def State.winOpen (s : State) (c w target : Nat) : State :=
  let s := if s.winState c w = winDraining then s.drainEnd c w 4 else s
  let ctl := Reg.WDS_WIN_CTL c w
  let s := (s.setFld ctl Fl.WDS_WIN_CTL_GENERATION (nextGen (s.winGen c w))).setFld ctl Fl.WDS_WIN_CTL_STATE winOpened
  ((s.wr (Reg.WDS_WIN_COUNT c w) 0).setFld (Reg.WDS_WIN_TARGET c w) Fl.WDS_WIN_TARGET_TARGET target).winWaits c w

/-- The drain of R199 with a bound, for a token: an OPEN window at its target closes at once DRAINED, below it with a
bound of 0 at once EXPIRED; a CLOSED window completes the token at once, with OK (DEDUCED, log entry 24). -/
def State.winDrain (s : State) (c w bound tok : Nat) : State :=
  if s.winState c w = winClosed then s.tokComplete c tok stOk
  else
    let p : WinPend := ⟨c, w, tok, .drain, false, []⟩
    let t := { s with winPends := s.winPends ++ [p] }
    if s.winState c w = winDraining then t
    else if s.winMet c w then (t.drainEnd c w 1).winShut c w
    else if bound = 0 then (t.drainEnd c w 2).winShut c w
    else t.setFld (Reg.WDS_WIN_CTL c w) Fl.WDS_WIN_CTL_STATE winDraining

/-- The messages for a window that its owner has accepted and not yet written (R203). -/
def State.winWrites (s : State) (c w : Nat) : List Nat :=
  (s.net.filter fun m => m.kind == .put && m.dstModule == s.module && m.dstCore == c && m.win == w &&
    m.stage == .accepted).map fun m => m.id

/-- The sum (g[GA] + IMM)[31:0] of a window instruction. -/
def State.winOperand (s : State) (c : Nat) (f : CFmt) : Nat := ((s.g c f.ga.val).toNat + f.imm.toNat) % 2 ^ 32

/-- WIN.OPEN (R199, R259). -/
def execWinOpen (c : CoreId) (f : CFmt) (s : State) : Out :=
  let k := c.val
  let w := f.win.val
  .next (issue ⟨k, f.word 0x70, s.pcNext k, f.bad false || f.tok != 0, none, false,
      firstCause [(s.fld (Reg.WDS_WIN_LEN k w) Fl.WDS_WIN_LEN_LEN == 0, .winUndeclared)], false⟩ id
    (fun t =>
      let u := t.winOpen k w (s.winOperand k f)
      u.setG k f.gd.val (BitVec.ofNat 64 (u.winGen k w))) s)

/-- WIN.CLOSE (R199, R203, R259): its token completes when the accepted writes are done. -/
def execWinClose (c : CoreId) (f : CFmt) (s : State) : Out :=
  let k := c.val
  let w := f.win.val
  .next (issue ⟨k, f.word 0x71, s.pcNext k, f.bad false || f.imm != 0, some f.tok.val, false, none, false⟩ id
    (fun t =>
      let u := (t.tokIssue k f.tok.val).winClose k w
      let ids := if t.winState k w = winClosed then [] else t.winWrites k w
      let p : WinPend := ⟨k, w, f.tok.val, .close, false, ids⟩
      if ids.isEmpty then u.tokComplete k f.tok.val stOk else { u with winPends := u.winPends ++ [p] }) s)

/-- WIN.DRAIN (R199, R259). -/
def execWinDrain (c : CoreId) (f : CFmt) (s : State) : Out :=
  let k := c.val
  .next (issue ⟨k, f.word 0x72, s.pcNext k, f.bad true, some f.tok.val, f.join, none, false⟩ id
    (fun t => (t.tokIssue k f.tok.val).winDrain k f.win.val (s.winOperand k f) f.tok.val) s)

/-- WIN.WAIT (R205, R259). -/
def execWinWait (c : CoreId) (f : CFmt) (s : State) : Out :=
  let k := c.val
  let w := f.win.val
  .next (issue ⟨k, f.word 0x73, s.pcNext k, f.bad true || f.imm != 0, some f.tok.val, f.join, none, false⟩ id
    (fun t =>
      let u := t.tokIssue k f.tok.val
      if t.winMet k w then u.tokComplete k f.tok.val stOk
      else if t.winState k w = winClosed then u.tokComplete k f.tok.val stClosed
      else
        let p : WinPend := ⟨k, w, f.tok.val, .wait, s.flag (Reg.CORE_WAIT_LIMIT k) Fl.CORE_WAIT_LIMIT_LIMIT, []⟩
        { u with winPends := u.winPends ++ [p] }) s)

/-- The closes of a core that await no more writes complete OK (R203). -/
def State.closesDone (s : State) (c w : Nat) : State :=
  let ready := fun p : WinPend => p.core == c && p.win == w && p.kind == .close &&
    p.writes.all fun i => !(s.winWrites c w).contains i
  let hit := s.winPends.filter ready
  let s := { s with winPends := s.winPends.filter fun p => !ready p }
  hit.foldl (fun (s : State) p => s.tokComplete c p.tok stOk) s

/-- WIN_CLOSE_DONE (R203): the accepted writes of a window are done, and its WIN.CLOSE completes. -/
def execWinCloseDone (c : CoreId) (w : WinId) (s : State) : Out := .next (s.closesDone c.val w.val)

/-- WIN_DRAIN_EXPIRE (R199): the bound of a drain expires. -/
def execWinDrainExpire (c : CoreId) (w : WinId) (s : State) : Out :=
  .next (if s.winState c.val w.val = winDraining then (s.drainEnd c.val w.val 2).winShut c.val w.val else s)

/-- WIN_WAIT_TIMEOUT (R205): the oldest wait at a window that CORE.WAIT_LIMIT bounds completes TIMEOUT. -/
def execWinWaitTimeout (c : CoreId) (w : WinId) (s : State) : Out :=
  let late := fun p : WinPend => p.core == c.val && p.win == w.val && p.kind == .wait && p.limited
  .next (match s.winPends.find? late with
    | none => s
    | some p => ({ s with winPends := s.winPends.erase p }).tokComplete c.val p.tok stTimeout)

/-- A write of WDS.WIN_CTL_n: LATE_TRAP is written, and FORCE_CLOSE closes the window (R199, R202, R226). -/
def State.writeWinCtl (s : State) (c w : Nat) (v : Word) : State :=
  let ctl := Reg.WDS_WIN_CTL c w
  let s := s.setFld ctl Fl.WDS_WIN_CTL_LATE_TRAP (Fl.WDS_WIN_CTL_LATE_TRAP.get (v.setWidth 64))
  if Fl.WDS_WIN_CTL_FORCE_CLOSE.get (v.setWidth 64) = 1 then s.winClose c w else s

/-- A core bound to another partition has its windows CLOSED, count and target 0, the generation kept (R199). -/
def State.winRebind (s : State) (c : Nat) : State :=
  (List.range 64).foldl (fun (s : State) w =>
    ((s.winClose c w).wr (Reg.WDS_WIN_COUNT c w) 0).wr (Reg.WDS_WIN_TARGET c w) 0) s

end Sys2Proof.Machine
end

