-- ==== Sys2Proof/Machine/Mesh.lean ====
section
/-! DEFINITION. The data mesh: coordinates, routing and detours (R27, R28, R405 to R415, R653). -/

namespace Sys2Proof.Machine

/-! ## Coordinates (R27, R28) -/

/-- The row and column of a die's site. -/
def dieRow (d : Nat) : Nat := if d < 4 then 0 else if d < 28 then (d - 4) / 6 + 1 else 5
def dieCol (d : Nat) : Nat := if d < 4 then d + 1 else if d < 28 then (d - 4) % 6 else d - 27
/-- The core-row and core-column of a core. -/
def coreRow (c : Nat) : Nat := 2 * dieRow (c / 8) + c % 8 / 4
def coreCol (c : Nat) : Nat := 4 * dieCol (c / 8) + c % 4
/-- The die at a site, where one is. -/
def dieAt (r k : Nat) : Option Nat :=
  if r = 0 then (if 1 ≤ k ∧ k ≤ 4 then some (k - 1) else none)
  else if r = 5 then (if 1 ≤ k ∧ k ≤ 4 then some (k + 27) else none)
  else if r < 5 ∧ k < 6 then some (6 * (r - 1) + 4 + k) else none
/-- The core at mesh coordinates, where one is. -/
def coreAt (r k : Nat) : Option Nat := (dieAt (r / 2) (k / 4)).map fun d => 8 * d + 4 * (r % 2) + k % 4
/-- The neighbour by a port: 0 NORTH, 1 EAST, 2 SOUTH, 3 WEST. -/
def neighbour (c port : Nat) : Option Nat :=
  let r := coreRow c
  let k := coreCol c
  if port = 0 then (if r = 0 then none else coreAt (r - 1) k)
  else if port = 1 then coreAt r (k + 1)
  else if port = 2 then coreAt (r + 1) k
  else if k = 0 then none else coreAt r (k - 1)
/-- The cluster of a core: four cores (R30). -/
def clusterOf (c : Nat) : Nat := c / 4
/-- The columns and rows of an express lane's taps, and whether a core is one (R408). -/
def ewTaps : List Nat := [1, 5, 9, 13, 17, 21]
def nsTaps : List Nat := [0, 2, 4, 7, 9, 11]
def laneLine (n : Nat) : Nat := [3, 5, 6, 8, 6, 10, 13, 17].getD n 0
def isTap (n c : Nat) : Bool :=
  if n < 4 then coreRow c == laneLine n && ewTaps.contains (coreCol c)
  else coreCol c == laneLine n && nsTaps.contains (coreRow c)
/-- The taps of a lane. -/
def laneTaps (n : Nat) : List Nat := (List.range 256).filter fun c => isTap n c
/-- Whether a core has a host attachment point (R405). -/
def hostAttach (c : Nat) : Bool := decide (c < 28) && c % 8 < 4

/-! ## Entries (R369 to R371, R412, R413, R653, R654) -/

/-- Whether a port exists at a router. -/
def portExists (c port index : Nat) : Bool :=
  if port < 4 then (neighbour c port).isSome
  else if port = 4 then index / 4 == c % 8 / 4 && index != c % 8 && decide (index < 8)
  else if port = 5 then true
  else if port = 6 then decide (index < 8) && isTap index c
  else if port = 7 then decide (index < 32) && index == c / 8
  else port == 8 && hostAttach c
/-- Whether two entries cover one destination. -/
def Route.meets (a b : Route) : Bool := a.destModule == b.destModule && decide (a.destLo ≤ b.destHi) && decide (b.destLo ≤ a.destHi)
/-- Whether a message that leaves one router north or south by `port` on a channel turns at the next by entry `b`
against R413; `a` is the entry that sent it there, and `own` the module number that entries have for this module. -/
def turnBad (own : Nat) (a b : Route) (port vc : Nat) : Bool :=
  (port == 0 || port == 2) && neighbour a.router port == some b.router && a.part == b.part && b.vc == vc && a.meets b &&
    (let lo := max a.destLo b.destLo
     let hi := min a.destHi b.destHi
     a.destModule != own || (List.range (hi + 1 - lo)).any fun i => lo + i != a.router && lo + i != b.router) &&
    (if vc = 0 then b.port == 3 || b.alt == 1 else b.port == 1)
/-- Whether entry `b` turns a message that entry `a` sent to it against R413, by its PORT or its ALT. -/
def Route.badInto (own : Nat) (a b : Route) : Bool :=
  turnBad own a b a.port a.vc || (a.vc == 0 && a.alt != 0xFF && turnBad own a b a.alt 1)

/-! ## Marks (R417, R418) -/

def State.coreBad (s : State) (c : Nat) : Bool := (s.rd (Reg.FAB_FMAP_CORE (c / 32))).toNat.testBit (c % 32)
def State.eastBad (s : State) (c : Nat) : Bool := (s.rd (Reg.FAB_FMAP_EAST (c / 32))).toNat.testBit (c % 32)
def State.southBad (s : State) (c : Nat) : Bool := (s.rd (Reg.FAB_FMAP_SOUTH (c / 32))).toNat.testBit (c % 32)
def State.laneBad (s : State) (n : Nat) : Bool := (s.rd Reg.FAB_FMAP_EXPRESS).toNat.testBit n
/-- Whether a core lies in a region in Dark. -/
def State.inDark (s : State) (c : Nat) : Bool := s.sleep c == 4

/-! ## One hop -/

/-- Where a port leads a message: to the router of another core, to an Oluod port, to the answer ASLEEP (R210, R414),
or nowhere. -/
inductive Hop where
  | router (c : Nat)
  | oluod (n : Nat)
  | asleep
  | bad
  deriving DecidableEq, Repr

/-- A hop to a core's router, for a message to core `dest` of this module when `here`: a bad core's router is unusable,
and a router in Dark answers ASLEEP for a destination of its region and is unusable to pass (R210, R414, R418). -/
def State.hopTo (s : State) (c dest : Nat) (here : Bool) : Hop :=
  if s.coreBad c then .bad
  else if s.inDark c then (if here && regionOf c == regionOf dest then .asleep else .bad)
  else .router c

/-- Where a port of a router leads (R370, R414, R653); a router that a mark of its core makes bad has no usable port (R418). -/
def State.hopBy (s : State) (router port index dest : Nat) (here : Bool) : Hop :=
  if s.coreBad router then .bad
  else if port < 4 then
    match neighbour router port with
    | none => .bad
    | some k =>
      let link := if port = 0 then s.southBad k else if port = 1 then s.eastBad router
        else if port = 2 then s.southBad router else s.eastBad k
      if link then .bad else s.hopTo k dest here
  else if port = 4 then
    if here && clusterOf dest == clusterOf router then s.hopTo dest dest here
    else s.hopTo (8 * (router / 8) + index % 8) dest here
  else if port = 6 then
    let k := (laneTaps index).getD (Config.expressExit index router dest % 6) router
    if s.laneBad index || !isTap index router then .bad else s.hopTo k dest here
  else if port = 7 then (if s.portUp index then .oluod index else .bad)
  else .bad

/-- The first entry that steers a message at a router (R411), among given entries and among those in force. -/
def routeIn (rs : List Route) (router part vc destModule dest : Nat) : Option Route :=
  rs.find? fun r => !r.prompt && r.router == router && r.part == part && r.vc == vc &&
    r.destModule == destModule && decide (r.destLo ≤ dest) && decide (dest ≤ r.destHi)
def State.routeOf (s : State) (router part vc destModule dest : Nat) : Option Route :=
  routeIn s.routes router part vc destModule dest

/-! ## Flows (R407, R410) -/

/-- A flow: sender, destination and channel; a message that has been answered goes back. -/
def NetMsg.flow (m : NetMsg) : List Nat :=
  if m.stage = .answered then [m.dstModule, m.dstCore, m.orgModule, m.orgCore, m.vc]
  else [m.orgModule, m.orgCore, m.dstModule, m.dstCore, m.vc]
/-- Whether two messages stand in one line: those on their way at a router, or those at one stage of a core. -/
def NetMsg.inLine (a b : NetMsg) : Bool :=
  let going := fun m : NetMsg => m.stage == .moving || m.stage == .answered
  a.router == b.router && (a.stage == b.stage || (going a && going b)) && a.flow == b.flow
/-- Whether no message of its flow is before a message (R410): the list holds them in their order. -/
def State.flowFirst (s : State) (m : NetMsg) : Bool :=
  match s.net.find? fun k => k.inLine m with
  | none => true
  | some k => k.id == m.id

/-- Whether a message's sender is in the same partition as its target (R200, R209). -/
def State.samePart (s : State) (m : NetMsg) : Bool := s.bound m.dstCore && s.partOf m.dstCore == m.orgPart
/-- Whether `n` bytes from `off` lie in one table of rack or bin records of a core, its own or a borrowed core's (R208, R222).
-/
def State.inRecords (s : State) (c off n : Nat) : Bool :=
  let tables := fun base =>
    (decide (base ≤ off) && decide (off + n ≤ base + 16 * 15360)) ||
      (decide (base + 0x40000 ≤ off) && decide (off + n ≤ base + 0x40000 + 16 * 480))
  tables 0 || ((s.borrowOf c).isSome && tables 0x4000000)
/-- Whether the address of a PUT or a GET is one that completes BAD_ADDRESS (R207, R208). -/
def State.badAddress (s : State) (m : NetMsg) : Bool :=
  match m.kind with
  | .put => m.space != 0
  | .get =>
    if m.space = 0 then !inPantry m.off m.len
    else if m.space = 1 then !((m.len == 4 || m.len == 8) && m.off % m.len == 0 && decide (m.off + m.len ≤ 0x40000))
    else !s.inRecords m.dstCore m.off m.len
  | .completion => false
/-- What is answered at `c` for a core in Retain or Dark: ASLEEP, or the lower code where PARTITION or BAD_ADDRESS applies too
(R210, R237). -/
def State.asleepTo (s : State) (m : NetMsg) (c : Nat) : State :=
  s.answer m (if s.samePart m = false then stPartition else if s.badAddress m then stBadAddress else stAsleep) [] [] c

/-- A message takes a hop. -/
def State.takeHop (s : State) (m : NetMsg) (h : Hop) (vc : Nat) : State :=
  match h with
  | .router c => s.putNet { m with router := c, vc := vc, stage := .moving }
  | .asleep => s.asleepTo m m.router
  | .bad => s.unreachable m m.router
  | .oluod n =>
    if 3 ≤ m.hop then s.unreachable m m.router
    else
      let kind := match m.kind with
        | .put => 0
        | .get => 1
        | .completion => 2
      let w : WireMsg := ⟨kind, m.orgModule, m.orgCore, m.orgPart, m.tag, m.dstModule, m.dstCore, m.space, m.off, m.len,
        m.win, m.gen, m.status, m.data, m.bad⟩
      let s := s.queueData n w m.id vc m.hop
      if m.orgModule = s.module ∧ m.kind ≠ .completion then s.putNet { m with vc := vc, stage := .away }
      else s.dropNet m.id

/-- A message takes its detour (R414): it is counted, and goes on by ALT on channel 1. Where ALT leads to a router in Dark of
the destination's region the message is answered here and no detour is taken. -/
def State.detour (s : State) (m : NetMsg) (r : Route) (here : Bool) : State :=
  if m.vc = 1 ∨ r.alt = 0xFF then s.unreachable m m.router
  else
    match s.hopBy m.router r.alt r.index m.dstCore here with
    | .bad => s.unreachable m m.router
    | .asleep => s.asleepTo m m.router
    | h =>
      ((s.bump Reg.FAB_DETOURS Fl.FAB_DETOURS_COUNT).setFld Reg.FAB_STAT Fl.FAB_STAT_DETOUR_SEEN 1).takeHop m h 1

/-- Messages that the ingress stage of a core holds, of which it has room for 4 (R179). -/
def State.ingress (s : State) (c : Nat) : Nat :=
  (s.net.filter fun m => m.dstModule == s.module && m.dstCore == c && m.kind != .completion &&
    (m.stage == .arrived || m.stage == .accepted)).length

/-- A router steers a message (R411, R414): at its destination it leaves by LOCAL, where a core in Retain or Dark answers and a
full ingress stage takes no more for now (R179); otherwise the first entry that matches steers it, by its detour where the port
is unusable. -/
def State.steer (s : State) (m : NetMsg) : State :=
  let here := decide (m.dstModule = s.module)
  if here && m.router == m.dstCore then
    if 3 ≤ s.sleep m.dstCore then s.asleepTo m m.dstCore
    else if 4 ≤ s.ingress m.dstCore then s
    else s.putNet { m with stage := .arrived }
  else
    match s.routeOf m.router m.orgPart m.vc m.dstModule m.dstCore with
    | none => s.unreachable m m.router
    | some r =>
      match s.hopBy m.router r.port r.index m.dstCore here with
      | .bad => s.detour m r here
      | h => s.takeHop m h m.vc

/-- The entry that steers a completion back to its sender (R411): none at the sender's own router. -/
def State.backRoute (s : State) (m : NetMsg) : Option Route :=
  if m.router = m.orgCore then none else s.routeOf m.router m.orgPart m.vc s.module m.orgCore

/-- A completion that no port can carry ends its request UNREACHABLE at its sender (R411, R414); one that says so already is
not counted again. -/
def State.backLost (s : State) (m : NetMsg) : State :=
  let t := s.putNet { m with status := stUnreachable, data := [], bad := [], router := m.orgCore }
  if m.status = stUnreachable then t else t.countUnreach

/-- A completion takes a hop; at a sender in Dark it ends. -/
def State.backHop (s : State) (m : NetMsg) (h : Hop) (vc : Nat) : State :=
  match h with
  | .router c => s.putNet { m with router := c, vc := vc }
  | .asleep => s.putNet { m with router := m.orgCore }
  | .oluod _ => s.backLost m
  | .bad => s.backLost m

/-- A router steers a completion of this module as it steers every message (R411, R414): one that no entry matches ends its
request UNREACHABLE. -/
def State.steerBack (s : State) (m : NetMsg) : State :=
  if m.router = m.orgCore then s
  else
    match s.backRoute m with
    | none => s.backLost m
    | some r =>
      match s.hopBy m.router r.port r.index m.orgCore true with
      | .bad =>
        if m.vc = 1 ∨ r.alt = 0xFF then s.backLost m
        else
          match s.hopBy m.router r.alt r.index m.orgCore true with
          | .bad => s.backLost m
          | .asleep => s.backHop m .asleep 1
          | h => ((s.bump Reg.FAB_DETOURS Fl.FAB_DETOURS_COUNT).setFld Reg.FAB_STAT Fl.FAB_STAT_DETOUR_SEEN 1).backHop m h 1
      | h => s.backHop m h m.vc

/-- The egress stage sends a message that it holds: its router steers it, and TX_COUNT counts it (R225). -/
def State.send (s : State) (m : NetMsg) : State :=
  if decide (m.dstModule = s.module) && m.router == m.dstCore && decide (s.sleep m.dstCore < 3) &&
      decide (4 ≤ s.ingress m.dstCore) then s
  else (s.steer m).count (Reg.CORE_TX_COUNT m.orgCore)

/-- MESH_ROUTE (R410, R411, R474): the router that holds message `id`, or the egress stage that holds it unsent, steers it. A
message waits for those of its flow before it, and a router in Dark forwards nothing. -/
def execMeshRoute (id : Nat) (s : State) : Out :=
  .next (match s.findNet id with
    | none => s
    | some m =>
      if s.inDark m.router || !s.flowFirst m then s
      else if m.stage = .held then s.send m
      else if m.stage = .moving then s.steer m
      else if m.stage = .answered then s.steerBack m
      else s)

/-! ## Marking (R417, R418, R450) -/

/-- Every change of the fault map raises FMAP_SEQ (R417). -/
def State.fmapChanged (s : State) : State :=
  s.setFld Reg.FAB_FMAP_SEQ Fl.FAB_FMAP_SEQ_SEQ (s.fld Reg.FAB_FMAP_SEQ Fl.FAB_FMAP_SEQ_SEQ + 1)

/-- The register and the bit of an element: kind 0 core, 1 EAST link, 2 SOUTH link, 3 express lane. -/
def markReg (kind i : Nat) : Nat :=
  if kind = 0 then Reg.FAB_FMAP_CORE (i / 32) else if kind = 1 then Reg.FAB_FMAP_EAST (i / 32)
  else if kind = 2 then Reg.FAB_FMAP_SOUTH (i / 32) else Reg.FAB_FMAP_EXPRESS
def markBit (kind i : Nat) : Nat := if kind = 3 then i else i % 32

/-- Whether a mark was fused at manufacture (R417). -/
def fusedMark (kind i : Nat) : Bool :=
  if kind = 4 then (fusedEng (i / 24)).testBit (i % 24)
  else (resetOf (markReg kind i)).toNat.testBit (markBit kind i)

/-- Whether an element is marked, and the state with its mark set or cleared. -/
def State.marked (s : State) (kind i : Nat) : Bool :=
  if kind = 4 then (s.engMarks (i / 24)).testBit (i % 24)
  else (s.rd (markReg kind i)).toNat.testBit (markBit kind i)
def State.setMark (s : State) (kind i : Nat) (on : Bool) : State :=
  if kind = 4 then
    let m := s.engMarks (i / 24)
    let m' := if on then m ||| 2 ^ (i % 24) else m - m % 2 ^ (i % 24 + 1) + m % 2 ^ (i % 24)
    { s with engBad := swrite fusedEng s.engBad (i / 24) m' }
  else s.setFld (markReg kind i) ⟨markBit kind i, 1⟩ (if on then 1 else 0)

/-- An element marked bad, without effect where it is already (R450). -/
def State.mark (s : State) (kind i : Nat) : State :=
  if s.marked kind i then s else (s.setMark kind i true).fmapChanged
/-- An in-service mark removed, without effect where there is none (R450). -/
def State.unmark (s : State) (kind i : Nat) : State :=
  if s.marked kind i then (s.setMark kind i false).fmapChanged else s

/-- Whether KIND and INDEX name an element (R450). -/
def markOk (kind i : Nat) : Bool :=
  if kind = 0 then decide (i < 256)
  else if kind = 1 then decide (i < 256) && (neighbour i 1).isSome
  else if kind = 2 then decide (i < 256) && (neighbour i 2).isSome
  else if kind = 3 then decide (i < 8)
  else if kind = 4 then decide (i < 6144)
  else false

/-- A write of FAB.FMAP_CTL (R450). One with GO 0 has no effect, whatever its KIND and INDEX, so that a reserved KIND is refused
with GO 1 only; reserved bits are refused with GO 0 too: R21 and R450 do not say which goes first (DESIGN CHOICE, log entry
72). -/
def State.writeFmapCtl (s : State) (v : Word) : State :=
  let i := bitsOf v.toNat 0 13
  let kind := bitsOf v.toNat 13 3
  let refuse := s.setFld Reg.FAB_STAT Fl.FAB_STAT_WRITE_REFUSED 1
  if bitsOf v.toNat 17 14 ≠ 0 then refuse
  else if !bitOf v.toNat 31 then s
  else if !markOk kind i then refuse
  else if bitOf v.toNat 16 then (if fusedMark kind i then refuse else s.unmark kind i)
  else s.mark kind i

/-! ## Rewritten routes (R415, R577) -/

/-- The hops that a message may take next on channel 1 without a turn that R413 forbids: from a core, with whether it may still
go EAST, which it may not once it has gone another way. -/
def State.turns (s : State) (q : Nat × Bool) : List (Nat × Bool) :=
  (List.range 4).filterMap fun p =>
    if p = 1 ∧ !q.2 then none
    else match s.hopBy q.1 p 0 q.1 false with
      | .router k => some (k, q.2 && p == 1)
      | _ => none
/-- The cores still reachable from one: at most 512 places are found in as many rounds. -/
def State.reachable (s : State) (c : Nat) : List Nat :=
  ((List.range 512).foldl (fun (l : List (Nat × Bool)) _ => (l ++ l.flatMap s.turns).eraseDups) [(c, true)]).map fun q => q.1
/-- Whether entries lead a message on channel 1 from a router to a core of this module within `n` hops. -/
def State.leadsTo (s : State) (rs : List Route) (part dest : Nat) : Nat → Nat → Bool
  | 0, _ => false
  | n + 1, c =>
    c == dest ||
      (match routeIn rs c part 1 s.module dest with
        | none => false
        | some r =>
          match s.hopBy c r.port r.index dest true with
          | .router k => s.leadsTo rs part dest n k
          | _ => false)
/-- Whether the firmware may put entries in force (R371, R412, R413, R415): their ports exist, no two of one router, partition
and channel cover one destination, none turns against R413, no router has above 512, and from each router written every core
of a loaded partition that is still reachable has a channel 1 path. -/
def State.lawful (s : State) (written : List Nat) (rs : List Route) : Bool :=
  let mesh := rs.filter fun r => !r.prompt
  (mesh.zipIdx.all fun e =>
    let r := e.1
    portExists r.router r.port r.index && (r.alt == 0xFF || portExists r.router r.alt r.index) &&
      (!(mesh.take e.2).any fun q => q.router == r.router && q.part == r.part && q.vc == r.vc && q.meets r) &&
      (!mesh.any fun a => a.badInto s.module r) && decide ((mesh.filter fun q => q.router == r.router).length ≤ 512)) &&
  written.all fun c =>
    let near := s.reachable c
    (List.range 256).all fun d => !s.bound d || !near.contains d || s.leadsTo rs (s.partOf d) d 512 c
/-- The entries of the routers concerned rewritten, those that `chan` picks. What they become the spec leaves to the firmware,
so that they are free among those it may write: a list that it may not write stands for none (DESIGN CHOICE, log entry 39). -/
def State.rewrite (s : State) (chan : Route → Bool) (new : List Route) : State :=
  let written := (new.map fun r => r.router).eraseDups
  let rs := (s.routes.filter fun r => r.prompt || !chan r || !written.contains r.router) ++ new
  if s.lawful written rs then { s.drew with routes := rs } else s.drew

/-- ROUTE_REWRITE (R415): the firmware has rewritten the channel 1 entries of the routers concerned; channel 0 and PROMPT
entries stay. -/
def execRouteRewrite (s : State) : Out :=
  .next (s.rewrite (fun r => r.vc == 1) ((Config.rewrittenRoutes s.fresh).map fun r => { r with vc := 1, prompt := false }))

/-- MESH_LINK_BAD (R570): a link past its retry limits, which the command says has passed them, is marked bad, and recorded. The
fault map names no Prompt-net link, so that the command names mesh links (DESIGN CHOICE, log entry 80). -/
def execMeshLinkBad (core : CoreId) (south : Bool) (s : State) : Out :=
  let kind := if south then 2 else 1
  .next (if markOk kind core.val && !s.marked kind core.val then
      (s.mark kind core.val).logFault 0x47 (.core core.val) (s.partField core.val) outLogged 0
    else s)

end Sys2Proof.Machine
end

