-- ==== Sys2Proof/Machine/Net.lean ====
section
/-! DEFINITION. PUT and GET (R200 to R212, R260), and window notices (R425). -/

namespace Sys2Proof.Machine

/-! ## Device addresses (R10) -/

def addrOffset (a : Nat) : Nat := bitsOf a 0 27
def addrSpace (a : Nat) : Nat := bitsOf a 27 7
def addrCore (a : Nat) : Nat := bitsOf a 34 8
def addrModule (a : Nat) : Nat := bitsOf a 42 6
/-- Whether the address of a PUT, a GET or a SIGNAL is reserved as a whole: bits above 47, the module, or the space
(R11, R260). -/
def addrReserved (a : Nat) : Bool := decide (2 ^ 48 ≤ a) || decide (48 ≤ addrModule a) || decide (3 ≤ addrSpace a)

/-! ## Issue -/

/-- The PUTs and GETs of a core that are outstanding (R224). -/
def State.netOutstanding (s : State) (c : Nat) : Nat :=
  (s.net.filter fun m => m.orgModule == s.module && m.orgCore == c && m.kind != .completion && !m.timedOut).length
/-- The PUTs, GETs and SIGNALs of a core whose tokens have not completed (R238). -/
def State.outstanding (s : State) (c : Nat) : Nat := s.netOutstanding c + (s.sigOuts.filter fun o => o.core == c).length

/-- PUT or GET sent: the message enters the sender's egress stage (R207, R208). An unbound sender completes PARTITION, a
reserved address BAD_ADDRESS, and neither sends a message (R11, R209). The data of a PUT is read at issue, as R239 leaves
open (DESIGN CHOICE, log entry 29). -/
def State.sendNet (s : State) (c : Nat) (f : MFmt) (kind : NetKind) (gt gg local' len : Nat) : State :=
  let t := f.tok.val
  let u := s.tokIssue c t
  if !u.bound c then u.tokComplete c t stPartition
  else if addrReserved gt then u.tokComplete c t stBadAddress
  else
    let isPut := decide (kind = .put)
    let data := if isPut then s.bytes c local' len else []
    let bad := if isPut then s.badBytes c local' len else []
    let u := if isPut then u.checkRange c local' len else u
    let m : NetMsg := ⟨u.nextId, kind, u.module, c, u.partOf c, u.nextId, t, addrModule gt,
      if addrModule gt = u.module then u.stand (addrCore gt) else addrCore gt, addrSpace gt, addrOffset gt, len, f.win.val, gg % 65536, local', data, bad, 0, 0, c, .held, 0, false⟩
    { u with net := u.net ++ [m], nextId := u.nextId + 1 }

/-- The boundary of a PUT or GET (R260). -/
def netIssue (kind : NetKind) (opc : Byte) (illegal : Bool) (c : CoreId) (f : MFmt) (s : State) : State :=
  let k := c.val
  let a := s.a k f.as.val
  let n := (s.g k f.gn.val).toNat
  issue ⟨k, f.word opc, s.pcNext k, illegal, some f.tok.val, f.join,
      firstCause [(rangeBad a n, .pantryRange), (n == 0 || decide (65536 < n), .length)],
      decide (64 ≤ s.outstanding k)⟩ id
    (fun t => t.sendNet k f kind (s.g k f.gt.val).toNat (s.g k f.gg.val).toNat a.toNat n) s

/-- PUT (R207, R260). -/
def execPut (c : CoreId) (f : MFmt) (s : State) : Out := .next (s.settle (netIssue .put 0x78 (f.resv != 0) c f s))

/-- GET (R208, R260): its WIN and GG fields must be 0. -/
def execGet (c : CoreId) (f : MFmt) (s : State) : Out :=
  .next (netIssue .get 0x79 (f.resv != 0 || f.win != 0 || f.gg != 0) c f s)

/-! ## At the target -/

/-- A late PUT (R202, R425): counted, discarded, and noticed to its sender; with LATE_TRAP the owner has a LATE_PUT
pending, which names the first window (R269). -/
def State.latePut (s : State) (m : NetMsg) : State :=
  let c := m.dstCore
  let w := m.win
  let s := (s.bump (Reg.WDS_WIN_LATE_COUNT c w) Fl.WDS_WIN_LATE_COUNT_COUNT).setFld (Reg.CORE_STAT c)
    Fl.CORE_STAT_RX_LATE 1
  let s := if s.flag (Reg.WDS_WIN_CTL c w) Fl.WDS_WIN_CTL_LATE_TRAP then
      let s := if s.latePending c then s
        else { s with lateWin := swrite (fun _ => none) s.lateWin c (some w) }
      s.setFld (Reg.SEQ_STAT c) Fl.SEQ_STAT_LATE_PENDING 1
    else s
  let s := s.sendAway m.orgPart m.orgCore m.orgModule c 0 (.winNotice w m.gen)
  s.answer m stLate [] [] c

/-- The checks of R200, in their order. -/
def State.acceptPut (s : State) (m : NetMsg) : State :=
  let c := m.dstCore
  let w := m.win
  let base := 64 * s.fld (Reg.WDS_WIN_BASE c w) Fl.WDS_WIN_BASE_BASE
  let len := 64 * s.fld (Reg.WDS_WIN_LEN c w) Fl.WDS_WIN_LEN_LEN
  if !s.samePart m then (s.setFld (Reg.CORE_STAT c) Fl.CORE_STAT_RX_PARTITION 1).answer m stPartition [] [] c
  else if m.space ≠ 0 then s.answer m stBadAddress [] [] c
  else if s.winState c w = winClosed ∨ s.winGen c w ≠ m.gen then s.latePut m
  else if m.off < base ∨ base + len < m.off + m.len then
    (s.setFld (Reg.CORE_STAT c) Fl.CORE_STAT_RX_BOUNDS 1).answer m stBounds [] [] c
  else (s.count (Reg.CORE_RX_COUNT c)).putNet { m with stage := .accepted }

/-- PUT_ACCEPTANCE_CHECK (R200, R202, R210): a whole PUT at the owner's ingress stage is accepted or answered, in the order of
its flow (R410). -/
def execPutAcceptanceCheck (id : Nat) (s : State) : Out :=
  .next (match s.findNet id with
    | none => s
    | some m =>
      if m.kind = .put ∧ m.stage = .arrived ∧ s.flowFirst m then
        if 3 ≤ s.sleep m.dstCore then s.asleepTo m m.dstCore else s.acceptPut m
      else s)

/-- The count of a window rises: it holds at its largest value, closes a DRAINING window at its target with outcome
DRAINED, and meets the waits (R201, R204, R205). -/
def State.winArrive (s : State) (c w : Nat) : State :=
  let s := s.bump (Reg.WDS_WIN_COUNT c w) Fl.WDS_WIN_COUNT_COUNT
  let s := s.winWaits c w
  if s.winState c w = winDraining ∧ s.winMet c w then (s.drainEnd c w 1).winShut c w else s

/-- PUT_WRITE_DONE (R201): the bytes of an accepted PUT are written, then the count rises if the window still holds the
generation; the sender is answered OK, or POISON under R195. -/
def execPutWriteDone (id : Nat) (s : State) : Out :=
  let put := match s.findNet id with
    | none => s
    | some m =>
      if m.kind = .put ∧ m.stage = .accepted ∧ !s.scrubbing m.dstCore then
        let c := m.dstCore
        let s := s.storeBad c m.off m.data m.bad
        let s := if s.winGen c m.win = m.gen then s.winArrive c m.win else s
        let s := s.answer m (if m.bad.contains true then stPoison else stOk) [] [] c
        s.closesDone c m.win
      else s
  .next (s.settle put)

/-! ## Completion -/

/-- The token of a message of this module completes. -/
def State.netEnd (s : State) (m : NetMsg) (status : Nat) : State := (s.dropNet m.id).tokComplete m.orgCore m.tok status

/-- NET_COMPLETION (R195, R208, R211, R212, R410): the completion of a PUT or GET that has come to its sender's router is
delivered, in the order of its flow; the data of a GET lands, and the token completes. After a timeout it is discarded and
sets LATE_COMPLETION; one for a core in Retain or Dark is discarded. -/
def execNetCompletion (id : Nat) (s : State) : Out :=
  let t := match s.findNet id with
    | none => s
    | some m =>
      if m.stage = .answered ∧ m.router = m.orgCore ∧ s.flowFirst m then
        if 3 ≤ s.sleep m.orgCore then s.dropNet id
        else if m.timedOut then (s.dropNet id).setFld (Reg.CORE_STAT m.orgCore) Fl.CORE_STAT_LATE_COMPLETION 1
        else if m.kind = .get ∧ !m.data.isEmpty then
          if s.scrubbing m.orgCore then s
          else (s.storeBad m.orgCore m.land m.data m.bad).netEnd m m.status
        else s.netEnd m m.status
      else s
  .next (s.settle t)

/-- WIN_NOTICE (R425): the sender's egress stage discards every PUT that it still holds unsent for the same target core,
window and generation; each completes LATE. -/
def execWinNotice (id : Nat) (s : State) : Out :=
  .next (match s.findPn id with
    | none => s
    | some n =>
      match n.body with
      | .winNotice w g =>
        let stale : NetMsg → Bool := fun m => m.kind == .put && m.stage == .held && m.orgCore == n.dest &&
          m.dstCore == n.src && m.dstModule == n.srcModule && m.win == w && m.gen == g
        let hit := s.net.filter stale
        let s := s.takePn id
        hit.foldl (fun (s : State) m => if m.timedOut then s.dropNet m.id else s.netEnd m stLate) s
      | _ => s)

end Sys2Proof.Machine
end

