-- ==== Sys2Proof/Machine/NormMon.lean ====
section
/-! DEFINITION. The norm monitor (R77 to R91). -/

namespace Sys2Proof.Machine

/-! ## Contexts -/

def ctxZero : Ctx :=
  ⟨.free, 0, 0, none, false, 0, 0, 0, 0, [], 0, 0, 0, 0, none, 0, [], [], 0, 0, none, none, false, 0, 0, 0, 0, 0, 0, none,
    0, 0, (0, 0), ⟨0, 0, []⟩⟩
/-- A context; one that is not known is FREE (R306). -/
def State.ctx (s : State) (x : Nat) : Ctx := sread (fun _ => ctxZero) s.ctxs x
def State.setCtx (s : State) (x : Nat) (k : Ctx) : State := { s with ctxs := swrite (fun _ => ctxZero) s.ctxs x k }

/-- The record of a loaded partition (R363). -/
def State.part (s : State) (p : Nat) : Option PartRec := sread (fun _ => none) s.parts p
/-- The Pantry offset of a bank of an adapter slot (R345, R363). -/
def PartRec.bankAt (p : PartRec) (slot : Nat) (bank : Bool) : Nat :=
  p.adapterBase + 2 * p.adapterBytes * slot + (if bank then p.adapterBytes else 0)

/-! ## Trips -/

inductive TripCause where
  | nonfinite
  | saturation
  | up
  | down
  deriving DecidableEq, Repr

/-- What a sample does to a point: trip, set M, or fold into M (R78). -/
inductive Sampled where
  | trip (x : TripCause)
  | start
  | fold
  deriving DecidableEq, Repr

/-- 2^-k as FP32. -/
def twoToMinus (k : Nat) : Word := toFp32 (.fin false 1 (2 ^ k))
def ofNat32 (n : Nat) : Word := toFp32 (FVal.ofInt n)
def fgt (x y : Word) : Bool := (fp32 y).lt (fp32 x)

/-- The pseudocode of R78 for one sample. -/
def judge (ms m floor : Word) (count warmup up down : Nat) (taggedNf taggedSat satTrip : Bool) : Sampled :=
  let above := !fisNan m && !fisNan floor && !(fp32 m).lt (fp32 floor)
  if !ffinite ms || taggedNf then .trip .nonfinite
  else if taggedSat && satTrip then .trip .saturation
  else if count = 0 then .start
  else if count < warmup then .fold
  else if above && fgt (fmul ms (ofNat32 64)) (fmul (fmul m (ofNat32 up)) (ofNat32 up)) then .trip .up
  else if down ≠ 0 && above && fgt (fmul m (ofNat32 64)) (fmul (fmul ms (ofNat32 down)) (ofNat32 down)) then .trip .down
  else .fold

/-- Consecutive trips of a point. -/
def State.tripRun (s : State) (c n : Nat) : Nat := sread (fun _ => 0) s.trips (c * 8 + n)
def State.setTripRun (s : State) (c n x : Nat) : State :=
  { s with trips := swrite (fun _ => 0) s.trips (c * 8 + n) x }

/-- The cores that hold bins of a layer tag for a partition, without repeats. -/
def State.layerCores (s : State) (p layer : Nat) : List Nat :=
  (List.range 256).filter fun c => s.binMap.any fun e => e.1 / 480 == c && e.2 == some p &&
    (sread (fun _ => (⟨0, 0, .uninstalled, 3, false, 0, 0, 0xFFFF, 0, 0, 0⟩ : BinRec)) s.binRecs e.1).layer == layer

/-- Requests for test vectors of a layer tag, at most once per tag in 1 ms (R81): 4,000 units of 250 ns. -/
def State.requestTests (s : State) (p layer : Nat) : State :=
  let last := sread (fun _ => 0) s.actTestAt layer
  if last ≠ 0 ∧ s.now + 1 < last + 4000 then s
  else
    let new := (s.layerCores p layer).map fun c => (c, layer)
    { s with actTestAt := swrite (fun _ => 0) s.actTestAt layer (s.now + 1)
             actTests := s.actTests ++ new.filter fun q => !s.actTests.contains q }

/-- The pass to which the sample of point `n` of core `c` belongs: one in flight of the core's partition, or a TREE pass that
the core's partition is the understudy of (R324; log entry 77); an adaptation step for a gradient point (R84, R90). The spec
gives a vector operation no pass, so which of them it is, sample by sample, is a free value: DESIGN CHOICE, log entry 67. -/
def State.samplePass (s : State) (c n : Nat) : Option Pass :=
  let grad := s.flag (Reg.NRM_PT_CFG c n) Fl.NRM_PT_CFG_KIND
  let uses := fun (q : Pass) => q.part == s.partOf c ||
    (q.kind == 2 && (s.part q.part).any fun r => r.understudy == some (s.partOf c))
  let qs := s.passes.filter fun q => uses q && (!grad || q.kind == 3)
  qs[Config.monitorPass s.fresh % qs.length]?

/-- The actions of a trip (R81, R83, R84): the flag and park actions are gathered for the pass to which the sample belongs,
and its test vectors run once for each layer tag. -/
def State.tripActions (s : State) (c n : Nat) : State :=
  let ctl := Reg.NRM_CTL c
  let p := s.partOf c
  let tag := s.fld (Reg.NRM_PT_CFG c n) Fl.NRM_PT_CFG_LAYER
  let test := s.flag ctl Fl.NRM_CTL_ACT_TEST
  match s.samplePass c n with
  | none => if test then s.drew.requestTests p tag else s.drew
  | some q =>
    let new := sread (fun _ => 0) s.normActs q.ctx ||| (if s.flag ctl Fl.NRM_CTL_ACT_FLAG then 1 else 0) |||
      (if s.flag ctl Fl.NRM_CTL_ACT_PARK then 4 else 0)
    let s := { s.drew with normActs := swrite (fun _ => 0) s.normActs q.ctx new }
    if test && !q.tested.contains tag then
      let note : Pass → Pass := fun k => if k.ctx = q.ctx then { k with tested := tag :: k.tested } else k
      { s with passes := s.passes.map note }.requestTests p tag
    else s

/-- A trip of point `n`: EVENT, TRIPS, the restart after eight in a row, and the actions (R80, R81, R91). -/
def State.trip (s : State) (c n : Nat) (x : TripCause) : State :=
  let ev := Reg.NRM_EVENT c
  let s := s.setFld ev Fl.NRM_EVENT_TRIPPED (s.fld ev Fl.NRM_EVENT_TRIPPED ||| 2 ^ n)
  let s := match x with
    | .nonfinite => s.setFld ev Fl.NRM_EVENT_NONFINITE_SEEN 1
    | .saturation => s.setFld ev Fl.NRM_EVENT_SAT_SEEN 1
    | .up => s
    | .down => s
  let s := s.bump (Reg.NRM_PT_COUNT c n) Fl.NRM_PT_COUNT_TRIPS
  let k := s.tripRun c n + 1
  let s := if k = 8 then (s.setFld (Reg.NRM_PT_COUNT c n) Fl.NRM_PT_COUNT_SAMPLES 0).setTripRun c n 0
    else s.setTripRun c n k
  s.tripActions c n

/-- One sample delivered to a monitor point (R77, R78). -/
def State.sample (s : State) (c n : Nat) (ms : Word) (taggedNf taggedSat : Bool) : State :=
  let ctl := Reg.NRM_CTL c
  if !s.flag ctl Fl.NRM_CTL_ENABLE || !s.flag (Reg.NRM_PT_CFG c n) Fl.NRM_PT_CFG_EN then s
  else
    let m := (s.rd (Reg.NRM_PT_MS c n)).setWidth 32
    let count := s.fld (Reg.NRM_PT_COUNT c n) Fl.NRM_PT_COUNT_SAMPLES
    match judge ms m ((s.rd (Reg.NRM_FLOOR c)).setWidth 32) count (s.fld (Reg.NRM_WARMUP c) Fl.NRM_WARMUP_WARMUP)
        (s.fld ctl Fl.NRM_CTL_UP_RATIO) (s.fld ctl Fl.NRM_CTL_DOWN_RATIO) taggedNf taggedSat
        (s.flag ctl Fl.NRM_CTL_SAT_TRIP) with
    | .trip x => s.trip c n x
    | .start =>
      ((s.wr (Reg.NRM_PT_MS c n) (ms.setWidth 64)).bump (Reg.NRM_PT_COUNT c n) Fl.NRM_PT_COUNT_SAMPLES).setTripRun c n 0
    | .fold =>
      let m' := fadd m (fmul (fsub ms m) (twoToMinus (s.fld ctl Fl.NRM_CTL_SHIFT)))
      ((s.wr (Reg.NRM_PT_MS c n) (m'.setWidth 64)).bump (Reg.NRM_PT_COUNT c n)
        Fl.NRM_PT_COUNT_SAMPLES).setTripRun c n 0

end Sys2Proof.Machine
end

