-- ==== Sys2Proof/Machine/Kv.lean ====
section
/-! DEFINITION. KV state: pages, maps, staging, appends, commits, the page map instructions, digests and the Prompt book
(R261, R262, R273 to R305). -/

namespace Sys2Proof.Machine

/-! ## Layers and partitions -/

/-- The lowest-numbered core of a set (R276), and the cores that keep its page map: the lead and its mirror (R581). -/
def LayerKv.lead (l : LayerKv) : Nat := l.set.getD l.leadAt 0
def LayerKv.keepers (l : LayerKv) : List Nat := l.set.take 2
/-- The understudy of a partition where another partition holds it (R363). -/
def State.understudy (s : State) (p : Nat) : Option Nat :=
  match s.part p with
  | none => none
  | some r => r.understudy
/-- The KV layers of a partition's contexts: its own, and the DRAFT layers of its understudy's partition (R324, R378). -/
def State.kvLayers (s : State) (p : Nat) : List LayerKv :=
  s.layerKv.filter fun l => l.part == p || (l.draft && some l.part == s.understudy p)
/-- The layers that a layer tag names: one, or for 0xFFF every one (R288). -/
def State.tagLayers (s : State) (p tag : Nat) : List LayerKv :=
  if tag = 0xFFF then s.kvLayers p else (s.kvLayers p).filter fun l => l.tag == tag
/-- L of R298: the layers of a partition that are not DRAFT. -/
def State.layerCount (s : State) (p : Nat) : Nat := (s.layerKv.filter fun l => l.part == p && !l.draft).length
/-- The cores that hold KV of a partition's contexts (R284, R287). -/
def State.holders (s : State) (p : Nat) : List Nat := ((s.kvLayers p).map fun l => l.set).flatten.eraseDups
/-- The KV registers of a partition, as a commit or a load left them (R305, R396). -/
def State.kvRegs (s : State) (p : Nat) : KvCfg :=
  ⟨s.rd (Reg.SRV_KV_CTL p), s.rd (Reg.SRV_KV_SHARE p),
    [s.rd (Reg.SRV_KV_BUCKET_0 p), s.rd (Reg.SRV_KV_BUCKET_1 p), s.rd (Reg.SRV_KV_BUCKET_2 p), s.rd (Reg.SRV_KV_BUCKET_3 p)]⟩
/-- A context takes the KV registers of its partition: at each of its commits (R305), and when it is brought in (DESIGN
CHOICE, log entry 75). -/
def State.takeKv (s : State) (x : Nat) : State := s.setCtx x { s.ctx x with kv := s.kvRegs (s.ctx x).part }
/-- The KV registers in force for a context (R305). -/
def State.recallOn (s : State) (x : Nat) : Bool := Fl.SRV_KV_CTL_RECALL.get (s.ctx x).kv.ctl == 1
def State.bookOn (s : State) (x : Nat) : Bool := Fl.SRV_KV_CTL_BOOK.get (s.ctx x).kv.ctl == 1
def State.kvWindow (s : State) (x : Nat) : Nat := Fl.SRV_KV_CTL_WINDOW.get (s.ctx x).kv.ctl
def State.rcache (s : State) (x : Nat) : Nat := Fl.SRV_KV_CTL_RCACHE.get (s.ctx x).kv.ctl
def State.pagesMax (s : State) (x : Nat) : Nat := Fl.SRV_KV_SHARE_PAGES_MAX.get (s.ctx x).kv.share
def State.kvStat (s : State) (p : Nat) (f : Fld) : State := s.setFld (Reg.SRV_KV_STAT p) f 1

/-- Whether a core may name a context in a KV instruction: the core is bound, and the context is resident and belongs to the
core's partition, or to one whose understudy the core's partition holds (R237, R278, R304). -/
def State.kvKnown (s : State) (c x : Nat) : Bool :=
  let k := s.ctx x
  s.bound c && (k.st == .resident || k.st == .active) && k.resident.isSome &&
    (k.part == s.partOf c || s.understudy k.part == some (s.partOf c))
def State.residentOf (s : State) (x : Nat) : Nat := (s.ctx x).resident.getD 0

/-! ## What the cores of a set hold -/

def kvKey (x tag c : Nat) : Nat := (x * 65536 + tag) * 256 + c
def holdZero : KvHold := ⟨0, 0, 0, []⟩
def State.hold (s : State) (x tag c : Nat) : KvHold := sread (fun _ => holdZero) s.kvHolds (kvKey x tag c)
def State.setHold (s : State) (x tag c : Nat) (h : KvHold) : State :=
  { s with kvHolds := swrite (fun _ => holdZero) s.kvHolds (kvKey x tag c) h }
/-- The bits of `m` without those of `k`. -/
def maskOut (m k : Nat) : Nat := m - (m &&& k)

/-- Slots in use (R277): a slot is free when it is free on every core of the set. -/
def State.slotUsed (s : State) (c k : Nat) : Bool := sread (fun _ => false) s.kvSlots (c * 4096 + k)
def State.freeSlots (s : State) (l : LayerKv) : List Nat :=
  (List.range l.slots).filter fun k => l.set.all fun c => !s.slotUsed c k
def State.markSlot (s : State) (l : LayerKv) (k : Nat) (b : Bool) : State :=
  { s with kvSlots := l.set.foldl (fun m c => swrite (fun _ => false) m (c * 4096 + k) b) s.kvSlots }

/-- A write of bytes at one offset of every core of a set, and of the keepers of its map. -/
def State.storeSet (s : State) (cs : List Nat) (off : Nat) (bs : List Byte) : State :=
  cs.foldl (fun (s : State) c => s.store c off bs) s

def pageBytes : Nat := 36864
def entryBytes : Nat := 576
def LayerKv.slotAt (l : LayerKv) (k : Nat) : Nat := l.pool + pageBytes * k
def LayerKv.stageAt (l : LayerKv) (r e : Nat) : Nat := l.stage + 9792 * r + entryBytes * e

/-! ## The page map (R280, R281) -/

structure MapEntry where
  block : Nat
  slot : Nat
  state : Nat
  pin : Bool
  fill : Nat
  node : Nat
  deriving DecidableEq, Repr

def mapEmpty : MapEntry := ⟨0, 0, 0, false, 0, 0⟩
def mapOf (bs : List Byte) : MapEntry :=
  ⟨leAt bs 0 4 % 2 ^ 20, leAt bs 4 2, leAt bs 6 1, bitOf (leAt bs 7 1) 0, leAt bs 8 1 % 128, leAt bs 12 4⟩
def MapEntry.bytes (e : MapEntry) (i : Nat) : List Byte :=
  leBytes 4 e.block ++ leBytes 2 e.slot ++ leBytes 1 e.state ++ leBytes 1 (if e.pin then 1 else 0) ++ leBytes 1 e.fill ++
    leBytes 1 i ++ leBytes 2 0 ++ leBytes 4 e.node
def LayerKv.mapAt (l : LayerKv) (r i : Nat) : Nat := l.map + 2048 * r + 16 * i
def State.mapEntry (s : State) (l : LayerKv) (r i : Nat) : MapEntry := mapOf (s.bytes l.lead (l.mapAt r i) 16)
def State.setMapEntry (s : State) (l : LayerKv) (r i : Nat) (e : MapEntry) : State :=
  s.storeSet l.keepers (l.mapAt r i) (e.bytes i)
/-- The set lead's map of a resident index, and the page of a slot, as an operation reads them (R558). -/
def State.lookMap (s : State) (l : LayerKv) (r : Nat) : State := s.look l.lead (l.mapAt r 0) 2048
def State.lookPage (s : State) (l : LayerKv) (slot : Nat) : State := s.look l.lead (l.slotAt slot) pageBytes
def State.mapList (s : State) (l : LayerKv) (r : Nat) : List (Nat × MapEntry) :=
  (List.range 128).map fun i => (i, s.mapEntry l r i)
/-- The entry of a block that holds its page: HOT, SHARED or RECALLED. -/
def State.pageEntry (s : State) (l : LayerKv) (r b : Nat) : Option (Nat × MapEntry) :=
  (s.mapList l r).find? fun e => e.2.block == b && decide (1 ≤ e.2.state) && decide (e.2.state ≤ 3)
def State.digestEntry (s : State) (l : LayerKv) (r g : Nat) : Option (Nat × MapEntry) :=
  (s.mapList l r).find? fun e => e.2.block == g && e.2.state == 4
def State.unusedEntries (s : State) (l : LayerKv) (r : Nat) : List Nat :=
  ((s.mapList l r).filter fun e => e.2.state == 0).map fun e => e.1
def State.hotEntries (s : State) (l : LayerKv) (r : Nat) : List (Nat × MapEntry) :=
  (s.mapList l r).filter fun e => e.2.state == 1
/-- The digest group of a block (R289). -/
def LayerKv.groupOf (l : LayerKv) (b : Nat) : Nat := b / (576 * l.set.length)

/-! ## Reservations (R283) -/

def KvReserve.of (q : KvReserve) (x tag : Nat) : Bool := q.ctx == x && q.tag == tag
def State.reserveOf (s : State) (x tag b : Nat) (digest : Bool) : Option KvReserve :=
  s.kvReserves.find? fun q => q.of x tag && q.block == b && q.digest == digest
def State.dropReserve (s : State) (q : KvReserve) : State := { s with kvReserves := s.kvReserves.filter fun k => k != q }
/-- Staging entries no longer need a reservation; those that none needs are given up with their slots (R286). -/
def State.unneed (s : State) (l : LayerKv) (x mask : Nat) : State :=
  let cut : KvReserve → KvReserve := fun q => if q.of x l.tag then { q with need := maskOut q.need mask } else q
  let qs := s.kvReserves.map cut
  let dead := qs.filter fun q => q.of x l.tag && q.need == 0
  let s := { s with kvReserves := qs.filter fun q => !(q.of x l.tag && q.need == 0) }
  dead.foldl (fun (s : State) q => s.markSlot l q.slot false) s

/-- The slot that holds, or will hold, the private page of a block. -/
def State.pageSlot (s : State) (l : LayerKv) (x r b : Nat) : Option Nat :=
  match s.pageEntry l r b with
  | some (_, e) => if e.state = 1 then some e.slot else none
  | none => (s.reserveOf x l.tag b false).map fun q => q.slot

/-! ## The Prompt book's records (R291) -/

def PartRec.recordAt (p : PartRec) (n : Nat) : Nat := p.bookBase + 320 * n
/-- A number of a node's record: KEY (0, 8), PARENT (8, 4), REFS (12, 4), BLOCK (16, 4), STATE (20, 1). -/
def State.bookNum (s : State) (p : PartRec) (n o w : Nat) : Nat :=
  match p.bookCore with
  | none => 0
  | some c => leNat (s.bytes c (p.recordAt n + o) w)
/-- Nodes from `n` on, as an operation reads them (R558). -/
def State.lookBook (s : State) (p : PartRec) (n k : Nat) : State :=
  match p.bookCore with
  | none => s
  | some c => s.look c (p.recordAt n) (320 * k)
def State.setBookNum (s : State) (p : PartRec) (n o w v : Nat) : State :=
  match p.bookCore with
  | none => s
  | some c => s.store c (p.recordAt n + o) (leBytes w v)
def State.bookTokens (s : State) (p : PartRec) (n : Nat) : List Nat :=
  (List.range 64).map fun i => s.bookNum p n (64 + 4 * i) 4
def State.addRefs (s : State) (p : PartRec) (n : Nat) (d : Int) : State :=
  s.setBookNum p n 12 4 ((s.bookNum p n 12 4 : Int) + d).toNat
def bookKey (p tag n : Nat) : Nat := (p * 65536 + tag) * 65536 + n
/-- The slot that holds a node's page on a layer's set (R291). -/
def State.bookSlot (s : State) (p tag n : Nat) : Option Nat := sread (fun _ => none) s.bookSlots (bookKey p tag n)
def State.setBookSlot (s : State) (p tag n : Nat) (k : Option Nat) : State :=
  { s with bookSlots := swrite (fun _ => none) s.bookSlots (bookKey p tag n) k }
/-- A context's attachment moves to the parent of its deepest node. -/
def State.toParent (s : State) (x : Nat) (p : PartRec) (n : Nat) : State :=
  let up := s.bookNum p n 8 4
  let k := s.ctx x
  s.setCtx x { k with bookNode := if up = 0xFFFFFFFF then none else some up, bookFill := 64 }

/-! ## Appending (R274, R282, R283, R293) -/

/-- The blocks between the committed count and position `p` that have neither a page nor a reservation. -/
def State.missing (s : State) (l : LayerKv) (x r n p : Nat) : List Nat :=
  ((List.range (p / 64 - n / 64 + 1)).map fun i => n / 64 + i).filter fun b =>
    (s.pageEntry l r b).isNone && (s.reserveOf x l.tag b false).isNone
/-- The digest groups that blocks need and that have no slot. -/
def State.missingGroups (s : State) (l : LayerKv) (x r : Nat) (bs : List Nat) : List Nat :=
  if s.recallOn x && !l.draft then
    ((bs.map l.groupOf).eraseDups).filter fun g =>
      (s.digestEntry l r g).isNone && (s.reserveOf x l.tag g true).isNone
  else []
/-- Whether a context holds cold blocks of a layer: committed blocks with no page (R281). -/
def State.hasCold (s : State) (l : LayerKv) (r n : Nat) : Bool :=
  (List.range ((n + 63) / 64)).any fun b => (s.pageEntry l r b).isNone

/-- The value that an append stores of a BF16 input: times 2^-e, to e4m3, a NaN or infinity as NaN (R274). -/
def appendConv (r : Rnd) (e : Int) (v : FVal) : Conv :=
  let scale := if 0 ≤ e then FVal.fin false 1 (2 ^ e.toNat) else FVal.fin false (2 ^ (-e).toNat) 1
  fmtE4m3.convert true r (v.mul scale)

/-- The entry that an append stores from `src` of a core (R273, R274); an element of a poisoned word reads as NaN
(R195). -/
def State.appendConvs (s : State) (l : LayerKv) (c src d : Nat) : List Conv :=
  let sr := s.flag (Reg.RND_CTL c) Fl.RND_CTL_SR_KV
  (List.range 576).map fun i =>
    let v := if s.poisonedAt c (src + 2 * i) then FVal.nan else fmtBf16.decode (leNat (s.bytes c (src + 2 * i) 2))
    appendConv (rndAt sr d i) (if i < 512 then l.eC else l.eR) v

/-- The divergence copy (R293): the attached entries of a SHARED page go into a private slot on every core of the set; the
first copy in any layer drops the context's reference. -/
def State.diverge (s : State) (l : LayerKv) (x r i : Nat) (e : MapEntry) (slot : Nat) : State :=
  let s := l.set.foldl (fun (s : State) c =>
    (s.look c (l.slotAt e.slot) (entryBytes * e.fill)).store c (l.slotAt slot)
      (s.bytes c (l.slotAt e.slot) (entryBytes * e.fill))) s
  let s := (s.setMapEntry l r i ⟨e.block, slot, 1, false, e.fill, 0⟩).kvStat l.part Fl.SRV_KV_STAT_DIVERGED
  match s.part (s.ctx x).part with
  | none => s
  | some p => if (s.ctx x).bookNode = some e.node then (s.addRefs p e.node (-1)).toParent x p e.node else s

/-- The slots that an append takes: reservations for its blocks and groups, each needed by its staging entry. -/
def State.reserve (s : State) (l : LayerKv) (x entry : Nat) (bs gs slots : List Nat) (n p : Nat) : State :=
  let mine : KvReserve → Bool := fun q => q.of x l.tag &&
    (if q.digest then (decide (l.groupOf (n / 64) ≤ q.block) && decide (q.block ≤ l.groupOf (p / 64)))
      else (decide (n / 64 ≤ q.block) && decide (q.block ≤ p / 64)))
  let old := s.kvReserves.map fun q => if mine q then { q with need := q.need ||| 2 ^ entry } else q
  let want := (bs.map fun b => (b, false)) ++ gs.map fun g => (g, true)
  let new : List KvReserve := (want.zip slots).map fun w => ⟨x, l.tag, w.1.1, w.1.2, w.2, 2 ^ entry⟩
  let s := (slots.take want.length).foldl (fun (s : State) k => s.markSlot l k true) s
  { s with kvReserves := old ++ new }

/-- The SHARED block that an append at position `n` falls in: an append never writes it, and diverges (R293). -/
def State.sharedAt (s : State) (l : LayerKv) (r n : Nat) : Option (Nat × MapEntry) :=
  match s.pageEntry l r (n / 64) with
  | some (i, e) => if e.state = 2 then some (i, e) else none
  | none => none

/-- An append at one layer: its status and the state after it (R283, R293). -/
def State.appendTo (s : State) (l : LayerKv) (o : KvOp) : State × Nat :=
  let x := o.ctx
  let r := s.residentOf x
  let s := s.lookMap l r
  let n := (s.hold x l.tag l.lead).committed
  let p := n + (o.entry - 1)
  let shared := s.sharedAt l r n
  let inLoft := s.recallOn x && !l.draft
  let bs := s.missing l x r n p
  let gs := s.missingGroups l x r bs
  let free := s.freeSlots l
  let extra := if shared.isSome then 1 else 0
  let mine := s.kvReserves.filter fun q => q.of x l.tag
  let pages := (s.hotEntries l r).length + (mine.filter fun q => !q.digest).length + bs.length + extra
  let full := decide (free.length < bs.length + gs.length + extra) ||
    decide ((s.unusedEntries l r).length < mine.length + bs.length + gs.length) ||
    (!inLoft && decide (s.pagesMax x < pages)) ||
    (!inLoft && decide (0 < bs.length + extra) && s.hasCold l r n)
  if full then (s.kvStat l.part Fl.SRV_KV_STAT_KV_FULL_SEEN, stKvFull)
  else
    let d := s.fresh
    let cs := s.appendConvs l o.core o.src d
    let s := s.drew.checkRange o.core o.src 1152
    let (s, free) := match shared with
      | none => (s, free)
      | some (i, e) => ((s.markSlot l (free.headD 0) true).diverge l x r i e (free.headD 0), free.drop 1)
    let s := s.reserve l x o.entry bs gs free n p
    let data := cs.map fun v => BitVec.ofNat 8 v.code
    let s := s.storeSet l.set (l.stageAt r o.entry) data
    let s := l.set.foldl (fun (s : State) c =>
      let h := s.hold x l.tag c
      s.setHold x l.tag c ⟨h.committed, h.staged ||| 2 ^ o.entry, maskOut h.stale (2 ^ o.entry),
        h.data.filter (fun d => d.1 != o.entry) ++ [(o.entry, data)]⟩) s
    (s.noteConv o.core (convFlags cs), stOk)

/-! ## The queue of KV operations (R238) -/

/-- The operations at the front of a core's queue that have ended complete their tokens, in issue order. -/
def State.kvRetireN (s : State) (c : Nat) : Nat → State
  | 0 => s
  | fuel + 1 =>
    match s.kvOps.find? fun o => o.core == c with
    | none => s
    | some o =>
      match o.done with
      | none => s
      | some st => (({ s with kvOps := s.kvOps.filter fun k => k.id != o.id }).tokComplete c o.tok st).kvRetireN c fuel
def State.kvRetire (s : State) (c : Nat) : State := s.kvRetireN c s.kvOps.length
/-- The operation of a core that starts next, in issue order (R238). -/
def State.kvFront (s : State) (c : Nat) : Option KvOp := s.kvOps.find? fun o => o.core == c && o.done == none && !o.started
/-- An operation ends with a status. -/
def State.kvDone (s : State) (o : KvOp) (st : Nat) : State :=
  let fin : KvOp → KvOp := fun k => if k.id = o.id then { k with done := some st } else k
  ({ s with kvOps := s.kvOps.map fin }).kvRetire o.core
/-- An operation enters its core's queue. -/
def State.kvPush (s : State) (o : KvOp) : State := { s with kvOps := s.kvOps ++ [o], nextId := s.nextId + 1 }

/-- The boundary of a KV or TREE instruction: the queue of 16 (R238, R261). -/
def kvIssue (opc : Byte) (illegal : Bool) (check : Option Cause) (c : CoreId) (f : UFmt) (eff : State → State)
    (s : State) : State :=
  issue ⟨c.val, f.word opc, s.pcNext c.val, f.bad false || illegal, some f.tok.val, false, check,
      decide (16 ≤ (s.kvOps.filter fun o => o.core == c.val).length)⟩ id
    (fun t => eff (t.tokIssue c.val f.tok.val)) s

/-- The context that a KV instruction names. -/
def State.kvCtx (s : State) (c : CoreId) (f : UFmt) : Nat := (s.g c.val f.gn.val).toNat % 65536
/-- A KV or TREE operation as it enters the queue: `entry` for an append, `imm` the mask or block, `dst` and `len` those
of a TREE.MASK. -/
def State.kvNew (s : State) (c : CoreId) (f : UFmt) (kind : KvKind) (entry imm dst len : Nat) : KvOp :=
  ⟨s.nextId, c.val, f.tok.val, kind, s.kvCtx c f, immF f.imm 0 12, (s.a c.val f.as.val).toNat, entry, [], 0, none, imm, dst,
    len, false⟩

/-- KV.APPEND (R261, R282): the entry is staged when the append completes. -/
def execKvAppend (c : CoreId) (f : UFmt) (s : State) : Out :=
  let tree := immB f.imm 16
  let node := immF f.imm 12 4
  .next (kvIssue 0x80 (immF f.imm 17 15 != 0 || (!tree && node != 0))
    (firstCause [(rangeBad (s.a c.val f.as.val) 1152, .pantryRange)]) c f
    (fun t => t.kvPush (t.kvNew c f .append (if tree then node + 1 else 0) 0 0 0)) s)

/-- The layer of a context that a tag names. -/
def State.layerOf (s : State) (x tag : Nat) : Option LayerKv :=
  (s.kvLayers (s.ctx x).part).find? fun l => l.tag == tag

/-- What an append does when it completes: its status by R261. -/
def State.runAppend (s : State) (o : KvOp) : State :=
  if !s.bound o.core then s.kvDone o stPartition
  else if !s.kvKnown o.core o.ctx then s.kvDone o stContext
  else
    match s.layerOf o.ctx o.tag with
    | none => s.kvDone o stContext
    | some l =>
      if l.set.any fun k => s.coreBad k || decide (3 ≤ s.sleep k) then s.kvDone o stUnreachable
      else
        let r := s.appendTo l o
        let mark : Pass → Pass := fun q => if q.ctx = o.ctx then { q with full := true } else q
        let s := if r.2 = stKvFull then { r.1 with passes := r.1.passes.map mark } else r.1
        s.kvDone o r.2

/-! ## Spilling (R298, R300) -/

/-- The Loft address of a block's page (R298). -/
def State.loftPage (s : State) (x : Nat) (l : LayerKv) (b : Nat) : Nat :=
  (s.ctx x).loftKv + (b * s.layerCount l.part + l.index) * pageBytes
/-- Bytes spilled, and any bytes written to the Loft (R305). -/
def State.loftSpilled (s : State) (p n : Nat) : State := (s.count (Reg.SRV_KV_LOFT_WR p) n).count Reg.HIF_LOFT_WR n
def State.loftWrote (s : State) (n : Nat) : State := s.count Reg.HIF_LOFT_WR n
def State.loftRead (s : State) (p n : Nat) : State := (s.count (Reg.SRV_KV_LOFT_RD p) n).count Reg.HIF_LOFT_RD n
def State.clean (s : State) (x tag b : Nat) : State :=
  { s with loftClean := s.loftClean.filter (fun k => k != (x, tag, b)) ++ [(x, tag, b)] }
def State.dirty (s : State) (x tag b : Nat) : State := { s with loftClean := s.loftClean.filter fun k => k != (x, tag, b) }

/-- The lowest-numbered unpinned HOT page, when more than WINDOW are held. -/
def State.spillPick (s : State) (l : LayerKv) (x r : Nat) : Option (Nat × MapEntry) :=
  let hot := (s.hotEntries l r).filter fun e => !e.2.pin
  if hot.length ≤ s.kvWindow x then none
  else
    let low := hot.foldl (fun a e => min a e.2.block) (hot.headD (0, mapEmpty)).2.block
    hot.find? fun e => e.2.block == low

/-- A spill: the page is written to the Loft and its map entry removed; its slot stays until the write has completed and
the context's next commit has reached the set lead. -/
def State.spill (s : State) (l : LayerKv) (x r : Nat) : State :=
  match s.spillPick l x r with
  | none => s
  | some (i, e) =>
    let data := s.bytes l.lead (l.slotAt e.slot) pageBytes
    let s := s.lookPage l e.slot
    let s := s.launch ((s.emit (.hostWrite (s.loftPage x l e.block) data)).loftSpilled l.part pageBytes) (65536 + s.nextId)
    let s := (s.setMapEntry l r i mapEmpty).clean x l.tag e.block
    { s with spills := s.spills ++ [⟨s.nextId, x, l.tag, e.block, e.slot, false, false, false⟩], nextId := s.nextId + 1 }

/-- The spills that have ended free their slots, unless recalled in place. -/
def State.spillsEnd (s : State) (l : LayerKv) : State :=
  let done : Spill → Bool := fun q => q.tag == l.tag && q.written && (q.reached || q.kept)
  let hit := s.spills.filter done
  let s := { s with spills := s.spills.filter fun q => !done q }
  hit.foldl (fun (s : State) q => if q.kept then s else s.markSlot l q.slot false) s

/-- A map entry gives its slot up. The slot of a page that was recalled in place stays with the spill write that reads it, and
is free when that has ended (R300, R304). -/
def State.slotGiven (s : State) (l : LayerKv) (x k : Nat) : State :=
  let mine : Spill → Bool := fun q => q.ctx == x && q.tag == l.tag && q.slot == k && q.kept
  if s.spills.any mine then { s with spills := s.spills.map fun q => if mine q then { q with kept := false } else q }
  else s.markSlot l k false

/-- SPILL_WRITE_COMPLETE (R300): a spill's write completes. A write that failed leaves the slot held (DESIGN CHOICE, log
entry 31). -/
def execSpillWriteComplete (id : Nat) (ok : Bool) (s : State) : Out :=
  .next (match s.spills.find? fun q => q.id == id with
    | none => s
    | some q =>
      let s := s.landed (65536 + id)
      if !(ok && s.cacheOk) then s
      else
        let done : Spill → Spill := fun k => if k.id = id then { k with written := true } else k
        let t := { s with spills := s.spills.map done }
        match s.layerOf q.ctx q.tag with
        | none => t
        | some l => t.spillsEnd l)

/-! ## Committing and rolling back (R284 to R287, R304) -/

/-- The bytes staged in an entry on one core: those of the staging area, or where other layers share that area, those
that this layer's own append staged (R282; DESIGN CHOICE, log entry 75). -/
def State.stagedBytes (s : State) (l : LayerKv) (x r c entry : Nat) : List Byte :=
  if s.layerKv.any fun k => k != l && k.set.contains c then
    bytesAt (match (s.hold x l.tag c).data.find? fun d => d.1 == entry with | none => [] | some d => d.2) 0 entryBytes
  else s.bytes c (l.stageAt r entry) entryBytes

/-- The slot that a commit stores position `p` in. A position that no append of the layer staged has none reserved: a
SHARED page is copied first, and a block without a page takes a slot (R284, R293, R304). -/
def State.slotFor (s : State) (l : LayerKv) (x r p : Nat) : State × Option Nat :=
  match s.pageSlot l x r (p / 64), (s.freeSlots l).head? with
  | some k, _ => (s, some k)
  | none, none => (s, none)
  | none, some k =>
    match s.sharedAt l r p with
    | some (i, e) => ((s.markSlot l k true).diverge l x r i e k, some k)
    | none => ((({ s with kvReserves := s.kvReserves ++ [⟨x, l.tag, p / 64, false, k, 2 ^ 17⟩] } : State).markSlot l k true), some k)

/-- One entry copied from staging to position `p` on one core of a set; an entry that was never staged is stored as 0x7F
bytes (R304). -/
def State.place (s : State) (l : LayerKv) (x r c entry p : Nat) : State :=
  let b := p / 64
  let (s, slot) := s.slotFor l x r p
  let staged := (s.hold x l.tag c).staged.testBit entry
  let data := if staged then s.stagedBytes l x r c entry else List.replicate entryBytes 0x7F
  let s := if staged then s.look c (l.stageAt r entry) entryBytes else s.kvStat l.part Fl.SRV_KV_STAT_COMMIT_HOLE
  match slot with
  | none => s
  | some k => (s.store c (l.slotAt k + entryBytes * (p % 64)) data).dirty x l.tag b

/-- The set lead's page map after a commit: a block's HOT entry takes its new FILL, a block that has none gets one with
its reserved slot, and so does its digest group, whose slot reads as zeros (R284, R289). -/
def State.mapCommit (s : State) (l : LayerKv) (x r b fill : Nat) : State :=
  match s.pageEntry l r b with
  | some (i, e) => if e.state = 1 then s.setMapEntry l r i { e with fill := fill } else s
  | none =>
    match s.reserveOf x l.tag b false, (s.unusedEntries l r).head? with
    | some q, some i =>
      let s := (s.dropReserve q).setMapEntry l r i ⟨b, q.slot, 1, false, fill, 0⟩
      match s.reserveOf x l.tag (l.groupOf b) true, (s.unusedEntries l r).head? with
      | some g, some j =>
        let s := (s.dropReserve g).setMapEntry l r j ⟨g.block, g.slot, 4, false, 0, 0⟩
        s.storeSet l.set (l.slotAt g.slot) (List.replicate pageBytes 0)
      | _, _ => s
    | _, _ => s

/-- A commit at one layer of one core. The staging entries: those named, or the pending entry for a mask of 0. -/
def State.commitLayer (s : State) (l : LayerKv) (x c mask pos : Nat) (replay : Bool) : State :=
  let r := s.residentOf x
  let h := s.hold x l.tag c
  if replay && decide (pos < h.committed) then s
  else
    let entries := if mask = 0 then [0] else (maskList 16 mask).map fun i => i + 1
    let n := h.committed
    let s := s.lookMap l r
    let s := entries.zipIdx.foldl (fun (s : State) e => s.place l x r c e.1 (n + e.2)) s
    let used := if mask = 0 then 1 else 2 * (mask % 65536) + 1
    let left := maskOut h.staged used
    let m := n + entries.length
    let s := s.setHold x l.tag c ⟨m, left, left, h.data.filter fun d => left.testBit d.1⟩
    if c ≠ l.lead then s
    else
      let bs := (List.range ((m - 1) / 64 - n / 64 + 1)).map fun i => n / 64 + i
      let s := bs.foldl (fun (s : State) b => s.mapCommit l x r b (min 64 (m - 64 * b))) s
      let s := s.unneed l x (used ||| 2 ^ 17)
      let reach : Spill → Spill := fun q => if q.ctx = x ∧ q.tag = l.tag then { q with reached := true } else q
      let s := ({ s with spills := s.spills.map reach }).spillsEnd l
      if s.recallOn x && !l.draft then
        (bs.filter fun b => decide (64 * b + 64 ≤ m)).foldl (fun (s : State) _ => s.spill l x r) s
      else s

/-- A rollback at one layer of one core (R286). -/
def State.rollbackLayer (s : State) (l : LayerKv) (x c mask : Nat) : State :=
  let h := s.hold x l.tag c
  let gone := if mask = 0 then 1 else 2 * (mask % 65536)
  let s := s.setHold x l.tag c ⟨h.committed, maskOut h.staged gone, maskOut h.stale gone,
    h.data.filter fun d => !gone.testBit d.1⟩
  if c = l.lead then s.unneed l x gone else s

/-- The layers of a context that a core holds. -/
def State.heldLayers (s : State) (x c : Nat) : List LayerKv :=
  (s.kvLayers (s.ctx x).part).filter fun l => l.set.contains c

/-- A commit or rollback message applied at its holder, which acknowledges it; of a context that is not resident there it
changes nothing (R278). -/
def State.kvMessage (s : State) (m : PnMsg) (x : Nat) (f : State → LayerKv → State) : State :=
  let s := s.takePn m.id
  let known := (s.ctx x).resident.isSome
  let s := if known then (s.heldLayers x m.dest).foldl f s else s
  s.sendAway (s.ctx x).part m.src m.srcModule m.dest m.tag (.kvAck x (if known then stOk else stContext))

/-- PN_KV_COMMIT (R284, R287): a holder applies a commit message and acknowledges it; with a tree's accepted path it frees
every node off the path (R325). -/
def execPnKvCommit (id : Nat) (s : State) : Out :=
  .next (s.settle (match s.findPn id with
    | none => s
    | some m =>
      match m.body with
      | .kvCommit x _ mask pos replay path => s.kvMessage m x fun t l =>
        let u := t.commitLayer l x m.dest mask pos replay
        if path then u.rollbackLayer l x m.dest (maskOut 0xFFFF mask) else u
      | _ => s))

/-- FLIP of a commit message (R346, R422): on the lead the bank in force has flipped with the pass's commit; another module
flips its bank when the first of its holders applies the message. A replayed one flips only where that holder still has entries
of the step staged, so that it has not applied it (R446; DESIGN CHOICE, log entry 76). -/
def State.flipAt (s : State) (m : PnMsg) (x : Nat) (staged replay flip : Bool) : State :=
  let k := s.ctx x
  if flip && m.srcModule != s.module && (s.holders k.part).head? == some m.dest && (!replay || staged) then
    s.setCtx x { k with bank := !k.bank }
  else s

/-- PN_KV_ROLLBACK (R286, R346): a holder applies a rollback message and acknowledges it. -/
def execPnKvRollback (id : Nat) (s : State) : Out :=
  .next (match s.findPn id with
    | none => s
    | some m =>
      match m.body with
      | .kvRollback x _ mask _ replay flip =>
        (s.kvMessage m x fun t l => t.rollbackLayer l x m.dest mask).flipAt m x ((s.heldLayers x m.dest).any fun l =>
          (s.hold x l.tag m.dest).staged != 0) replay flip
      | _ => s)

/-- The holders of a partition on its other modules, whose layers this module's image does not name (R284, R287; DESIGN
CHOICE, log entry 76). -/
def State.farHolders (s : State) (p : Nat) : List (Nat × Nat) :=
  match s.part p with
  | none => []
  | some r => (r.modules.filter fun m => m != s.module).flatMap fun m =>
      (Config.holdersOn p m).map fun h => (m, h.toNat)

/-- A commit or rollback goes to every holder of the partition, on this module and on its others, and the operation awaits
their acknowledgements (R284, R287); a holder on this module that is bad or without power makes it UNREACHABLE (R237,
R261), and one elsewhere that the message does not reach leaves it to end TIMEOUT (R444). The last one of a HEAD core is
kept (R446). -/
def State.kvSend (s : State) (o : KvOp) (body : PnBody) : State :=
  let s := if bitOf (s.bind o.core).flags 2 then
      { s with faults.lastKv := swrite (fun _ => none) s.faults.lastKv o.ctx (some body) } else s
  let p := (s.ctx o.ctx).part
  let all := s.holders p
  let hs := all.filter fun h => !(s.coreBad h || decide (3 ≤ s.sleep h))
  let far := s.farHolders p
  let worst := if hs.length < all.length then stUnreachable else stOk
  let s := hs.foldl (fun (s : State) h => s.sendPn h s.module o.core o.tok body) s
  let s := far.foldl (fun (s : State) h => s.sendAway p h.2 h.1 o.core o.tok body) s
  let acks := (hs.map fun h => (s.module, h)) ++ far
  if acks.isEmpty then s.kvDone o worst
  else
    let wait : KvOp → KvOp := fun k => if k.id = o.id then { k with acks := acks, worst := worst } else k
    { s with kvOps := s.kvOps.map wait }

/-- A rollback begins: its messages go out, or it ends CONTEXT (R286, R304). -/
def State.runRollback (s : State) (o : KvOp) : State :=
  if !s.kvKnown o.core o.ctx then s.kvDone o stContext
  else s.kvSend o (.kvRollback o.ctx o.tag o.imm (s.ctx o.ctx).committed false false)

/-! ## KV.MAP (R288, R301) -/

/-- A request refused under R288 or R289. -/
def State.mapRefused (s : State) (p : Nat) : State :=
  (s.kvStat p Fl.SRV_KV_STAT_MAP_REFUSED).bump (Reg.SRV_KV_REFUSED p) Fl.SRV_KV_REFUSED_COUNT
/-- Whether the 16 bytes of a request hold a reserved bit or code. -/
def requestBad (bs : List Byte) : Bool :=
  decide (2 ^ 20 ≤ leAt bs 0 4) || decide (4 < leAt bs 6 1) || decide (1 < leAt bs 7 1) || decide (64 < leAt bs 8 1) ||
    decide (128 ≤ leAt bs 9 1) || leAt bs 10 2 != 0
/-- A map entry removed: a private page's slot is freed. -/
def State.mapRemove (s : State) (l : LayerKv) (x r i : Nat) : State :=
  let e := s.mapEntry l r i
  let s := if e.state = 1 ∨ e.state = 3 ∨ e.state = 4 then s.slotGiven l x e.slot else s
  let s := { s with recency := s.recency.filter fun k => k != (x, l.tag, e.block) }
  s.setMapEntry l r i mapEmpty
/-- A RECALLED page is named (R301). -/
def State.recallNamed (s : State) (x tag b : Nat) : State :=
  { s with recency := s.recency.filter (fun k => k != (x, tag, b)) ++ [(x, tag, b)] }

/-- The pages that a context's recall cache holds in a layer: its RECALLED pages and its pinned HOT pages (R301). -/
def State.cachePages (s : State) (l : LayerKv) (r : Nat) : List (Nat × MapEntry) :=
  (s.mapList l r).filter fun e => e.2.state == 3 || (e.2.state == 1 && e.2.pin)
/-- Room in the recall cache: the least recently named RECALLED page without PIN is evicted when it is full; none when
every slot is pinned. -/
def State.cacheRoom (s : State) (l : LayerKv) (x r : Nat) : Option State :=
  let held := s.cachePages l r
  if held.length < s.rcache x then some s
  else
    let loose := held.filter fun e => e.2.state == 3 && !e.2.pin
    match s.recency.find? fun k => k.1 == x && k.2.1 == l.tag && loose.any fun e => e.2.block == k.2.2 with
    | none => none
    | some k =>
      match loose.find? fun e => e.2.block == k.2.2 with
      | none => none
      | some e => some (s.mapRemove l x r e.1)

/-- A block fetched into a slot of the recall cache, by operation `o`: none where the cache has no room or the pool no such
slot (R301). -/
def State.fetchPage (s : State) (l : LayerKv) (o : KvOp) (r i : Nat) (e : MapEntry) : Option State :=
  let x := o.ctx
  match s.cacheRoom l x r with
  | none => none
  | some t =>
    let t := t.mapRemove l x r i
    let free := t.freeSlots l
    match (if e.slot = 0xFFFF then free.head? else free.find? fun k => k == e.slot) with
    | none => none
    | some k =>
      let t := (t.markSlot l k true).setMapEntry l r i ⟨e.block, k, 3, e.pin, 64, 0⟩
      let t := (t.recallNamed x l.tag e.block).emit (.hostRead (t.loftPage x l e.block) pageBytes)
      let t := t.bump (Reg.SRV_KV_RECALL_MISSES l.part) Fl.SRV_KV_RECALL_MISSES_COUNT
      some { t with loftFetches := t.loftFetches ++ [⟨t.nextId, x, l.tag, e.block, k, [o.id]⟩], nextId := t.nextId + 1 }

/-- KV.MAP with STATE RECALLED at one layer, by operation `o`; none where it is refused. A DRAFT layer has no cold block
(R301, R304, R378). -/
def State.recall (s : State) (l : LayerKv) (o : KvOp) (r i : Nat) (e : MapEntry) : Option State :=
  let x := o.ctx
  let n := (s.hold x l.tag l.lead).committed
  let hit := s.bump (Reg.SRV_KV_RECALL_HITS l.part) Fl.SRV_KV_RECALL_HITS_COUNT
  if n ≤ 64 * e.block ∨ l.draft then none
  else
    match s.pageEntry l r e.block with
    | some (_, h) =>
      let join : LoftFetch → LoftFetch := fun k =>
        if k.ctx = x ∧ k.tag = l.tag ∧ k.block = e.block then { k with ops := k.ops ++ [o.id] } else k
      some (if h.state = 3 then { hit.recallNamed x l.tag e.block with loftFetches := hit.loftFetches.map join } else hit)
    | none =>
      match s.spills.find? fun q => q.ctx == x && q.tag == l.tag && q.block == e.block && !q.written with
      | some q =>
        let keep : Spill → Spill := fun k => if k.id = q.id then { k with kept := true } else k
        let t := ({ hit with spills := hit.spills.map keep }).mapRemove l x r i
        some ((t.setMapEntry l r i ⟨e.block, q.slot, 3, e.pin, 64, 0⟩).recallNamed x l.tag e.block)
      | none => s.fetchPage l o r i e

/-- KV.MAP with STATE SHARED at one layer (R288); none where it is refused, as for a context with an active adapter
(R296). -/
def State.share (s : State) (l : LayerKv) (x r i : Nat) (e : MapEntry) : Option State :=
  match s.part (s.ctx x).part with
  | none => none
  | some p =>
    if e.slot ≠ 0xFFFF ∨ p.bookNodes ≤ e.node ∨ s.bookNum p e.node 16 4 ≠ e.block ∨ (s.ctx x).adapter then none
    else
      match s.bookSlot (s.ctx x).part l.tag e.node with
      | none => none
      | some k => some ((s.mapRemove l x r i).setMapEntry l r i ⟨e.block, k, 2, e.pin, e.fill, e.node⟩)

/-- KV.MAP at one layer: the table of R288; none where it is refused, as is a request of any STATE that names a slot beyond the
layer's pool or a node beyond the book. -/
def State.mapWrite (s : State) (o : KvOp) (bs : List Byte) (l : LayerKv) : Option State :=
  let x := o.ctx
  let r := s.residentOf x
  let e := mapOf bs
  let i := leAt bs 9 1
  let nodes := match s.part (s.ctx x).part with | none => 0 | some p => p.bookNodes
  if requestBad bs ∨ (e.slot ≠ 0xFFFF ∧ l.slots ≤ e.slot) ∨ (e.node ≠ 0 ∧ nodes ≤ e.node) then none
  else if e.state = 0 then some (s.mapRemove l x r i)
  else if e.state = 1 then
    let h := s.mapEntry l r i
    if h.state = 1 ∧ h.block = e.block ∧ (e.slot = 0xFFFF ∨ e.slot = h.slot) ∧ e.node = h.node then
      some (s.setMapEntry l r i { h with pin := e.pin, fill := e.fill })
    else none
  else if e.state = 2 then s.share l x r i e
  else if e.state = 3 then s.recall l o r i e
  else none
/-- KV.MAP in every layer of a list: a refusal in one leaves all as they were. -/
def State.mapLayers (o : KvOp) (bs : List Byte) : List LayerKv → State → Option State
  | [], s => some s
  | l :: ls, s =>
    match s.mapWrite o bs l with
    | none => none
    | some t => State.mapLayers o bs ls t

/-- What a KV.MAP with tag 0xFFF does to the book: attaching a node raises its REFS, removing a SHARED entry lowers them
(R288, R294). -/
def State.mapRefs (s : State) (x : Nat) (e old : MapEntry) : State :=
  match s.part (s.ctx x).part with
  | none => s
  | some p =>
    if e.state = 0 ∧ old.state = 2 then
      let t := s.addRefs p old.node (-1)
      if (t.ctx x).bookNode = some old.node then t.toParent x p old.node else t
    else if e.state = 2 then
      let t := s.addRefs p e.node 1
      t.setCtx x { t.ctx x with bookNode := some e.node, bookFill := e.fill }
    else s

/-- KV.MAP begins, in every layer it names; a request that is refused changes nothing and counts once (R288). Recall mode
never applies to a DRAFT layer, so that RECALLED with tag 0xFFF leaves these out (R378). -/
def State.runMap (s : State) (o : KvOp) : State :=
  let bs := s.bytes o.core o.src 16
  let e := mapOf bs
  let ls := (s.tagLayers (s.ctx o.ctx).part o.tag).filter fun l => !(l.draft && o.tag == 0xFFF && e.state == 3)
  if !s.kvKnown o.core o.ctx ∨ ls.isEmpty then s.kvDone o stContext
  else
    let old := match ls with | [] => mapEmpty | l :: _ => s.mapEntry l (s.residentOf o.ctx) (leAt bs 9 1)
    let s := ls.foldl (fun (s : State) l => s.lookMap l (s.residentOf o.ctx)) (s.checkRange o.core o.src 16)
    let s := match s.part (s.ctx o.ctx).part with
      | none => s
      | some p => if e.state = 2 ∧ e.node < p.bookNodes then s.lookBook p e.node 1 else s
    match State.mapLayers o bs ls s with
    | none => (s.mapRefused (s.ctx o.ctx).part).kvDone o stOk
    | some t =>
      let t := if o.tag = 0xFFF then t.mapRefs o.ctx e old else t
      if t.loftFetches.any fun q => q.ops.contains o.id then t else t.kvDone o stOk

/-- A page that has come from the Loft, in every replica of its slot, filled with 0x7F after an error (R301, R302); where
its entry has been evicted meanwhile, nothing is written. -/
def State.pageIn (s : State) (q : LoftFetch) (ok : Bool) (data : List Byte) : State :=
  match s.layerOf q.ctx q.tag with
  | none => s
  | some l =>
    let t := (if ok then s else s.kvStat l.part Fl.SRV_KV_STAT_LOFT_ERROR).lookMap l (s.residentOf q.ctx)
    let page := if ok then bytesAt data 0 pageBytes else List.replicate pageBytes 0x7F
    match s.pageEntry l (s.residentOf q.ctx) q.block with
    | some (_, e) =>
      if e.state = 3 ∧ e.slot = q.slot then (t.loftRead l.part pageBytes).storeSet l.set (l.slotAt q.slot) page
      else t.loftRead l.part pageBytes
    | none => t.loftRead l.part pageBytes

/-! ## KV.DIGEST (R289) -/

/-- KV.DIGEST begins: a digest written, refused where its group holds no slot. -/
def State.runDigest (s : State) (o : KvOp) : State :=
  let b := o.imm
  match s.layerOf o.ctx o.tag with
  | none => s.kvDone o stContext
  | some l =>
    if !s.kvKnown o.core o.ctx then s.kvDone o stContext
    else
      let a := l.set.length
      let s := s.lookMap l (s.residentOf o.ctx)
      match s.digestEntry l (s.residentOf o.ctx) (l.groupOf b) with
      | none => (s.mapRefused l.part).kvDone o stOk
      | some (_, e) =>
        let cs := (List.range 64).map fun i =>
          let at' := o.src + 2 * i
          let v := if s.poisonedAt o.core at' then FVal.nan else fmtBf16.decode (leNat (s.bytes o.core at' 2))
          fmtE4m3.convert true .even v
        let s := s.checkRange o.core o.src 128
        let at' := l.slotAt e.slot + 64 * (b / a % 576)
        let s := s.store (l.set.getD (b % a) 0) at' (cs.map fun v => BitVec.ofNat 8 v.code)
        let g := (o.ctx, o.tag, e.block)
        let s := { s with digestDirty := s.digestDirty.filter (fun k => k != g) ++ [g] }
        (s.noteFlags o.core (convFlags cs)).kvDone o stOk

/-! ## TREE.MASK (R262) -/

/-- The rows of a tree mask: bit j of row i says that j is i or an ancestor of i. -/
def treeRows : List Nat → List Nat → List Nat
  | [], rows => rows
  | p :: ps, rows =>
    let up := if p = 0xFF then 0 else rows.getD p 0
    treeRows ps (rows ++ [up ||| 2 ^ rows.length])

/-- TREE.MASK begins (R262): the rows of up to 16 nodes; a parent that is not below its node ends BOUNDS and writes no
row. -/
def State.runMask (s : State) (o : KvOp) : State :=
  let u := s.checkRange o.core o.src o.len
  let ps := (s.bytes o.core o.src o.len).map fun b => b.toNat
  if ps.zipIdx.any fun p => p.1 != 0xFF && decide (p.2 ≤ p.1) then u.kvDone o stBounds
  else (u.store o.core o.dst ((treeRows ps []).map fun w => leBytes 2 w).flatten).kvDone o stOk

/-! ## The book's nodes -/

/-- NODE_RETIRE_FREE (R295): a RETIRING node that no context refers to gives up its slots and is FREE. -/
def State.freeNode (s : State) (p : Nat) (r : PartRec) (n : Nat) : State :=
  let s := (s.kvLayers p).foldl (fun (s : State) l =>
    match s.bookSlot p l.tag n with
    | none => s
    | some k => (s.markSlot l k false).setBookSlot p l.tag n none) s
  s.setBookNum r n 20 1 0
def execNodeRetireFree (p : PartId) (node : Nat) (s : State) : Out :=
  .next (s.settle (match s.part p.val with
    | none => s
    | some r =>
      let s := s.lookBook r node 1
      if node < r.bookNodes ∧ s.bookNum r node 20 1 = 3 ∧ s.bookNum r node 12 4 = 0 then s.freeNode p.val r node else s))

end Sys2Proof.Machine
end

