-- ==== Sys2Proof/Machine/Queues.lean ====
section
/-! DEFINITION. Host queues, completions, tenants and the record of requests (R313 to R331, R543 to R550). -/

namespace Sys2Proof.Machine

/-! ## Queues (R543 to R548) -/

def queueZero : Queue := ⟨0, 0, [], 0, 0, 0, 0, true, [], 0, 0⟩
def State.queue (s : State) (q : Nat) : Queue := sread (fun _ => queueZero) s.queues q
def State.setQueue (s : State) (q : Nat) (k : Queue) : State :=
  { s with queues := swrite (fun _ => queueZero) s.queues q k }
def Queue.sqBase (k : Queue) : Nat := leAt k.entry 0 8
def Queue.cqBase (k : Queue) : Nat := leAt k.entry 8 8
def Queue.sqSize (k : Queue) : Nat := 2 ^ leAt k.entry 16 1
def Queue.cqSize (k : Queue) : Nat := 2 ^ leAt k.entry 17 1
def Queue.weight (k : Queue) : Nat := leAt k.entry 18 1
def Queue.irqEn (k : Queue) : Bool := bitOf (leAt k.entry 19 1) 0
def Queue.vector (k : Queue) : Nat := leAt k.entry 20 2
def Queue.coalCount (k : Queue) : Nat := leAt k.entry 22 1
def Queue.coalTicks (k : Queue) : Nat := leAt k.entry 24 4
/-- A completion queue whose tail would reach its head (R547). -/
def Queue.full (k : Queue) : Bool := (k.cqTail + 1) % k.cqSize == k.cqHead
/-- A queue with completions that wait for space (R548). -/
def Queue.stuck (k : Queue) : Bool := k.full && !k.waiting.isEmpty
/-- Descriptors wait to be fetched. -/
def Queue.hasWork (k : Queue) : Bool := k.state == 2 && k.sqHead != k.sqTail
/-- The states of R563. -/
def qDisabled : Nat := 0
def qEnabling : Nat := 1
def qActive : Nat := 2
def qDraining : Nat := 3
def qError : Nat := 4

/-- A queue taken to ERROR with a code of R551. -/
def State.queueError (s : State) (q code : Nat) : State := s.setQueue q { s.queue q with state := qError, error := code }

/-- The queue whose descriptor is fetched next (R546): the one whose turn it is until it has had WEIGHT, then the next in
ascending order, round again. -/
def State.turnOf (s : State) : Option Nat :=
  let ready := s.queues.filter fun e => e.2.hasWork && !e.2.stuck
  let t := s.host.turn
  match ready.find? fun e => e.1 == t.1 && decide (t.2 < e.2.weight) with
  | some e => some e.1
  | none =>
    match ready.find? fun e => decide (t.1 < e.1) with
    | some e => some e.1
    | none => (ready.head?).map fun e => e.1
/-- The turn after a descriptor of queue `q`. -/
def State.took (s : State) (q : Nat) : State :=
  let t := s.host.turn
  { s with host.turn := if t.1 = q ∧ t.2 < (s.queue q).weight then (q, t.2 + 1) else (q, 1) }

/-! ## Places for completions (R548) -/

/-- The places held: waiting completions, started requests that run no pass or end with a park, passes in flight, and
notices that make a completion. -/
def State.placesUsed (s : State) : Nat :=
  (s.queues.map fun e => e.2.waiting.length).sum +
    (s.reqs.filter fun r => r.started && ((r.op != 1 && r.op != 2) || r.status.isSome)).length + s.passes.length +
    (s.notices.filter fun n => n.makes).length
def State.placeFree (s : State) : Bool := decide (s.placesUsed < 1024)

/-! ## Requests (R313 to R316) -/

def Req.flag (r : Req) (i : Nat) : Bool := r.flags.testBit i
def Req.stream (r : Req) : Bool := r.flag 0
def Req.useBook (r : Req) : Bool := r.flag 1
def Req.publish (r : Req) : Bool := r.flag 2
def Req.useTree (r : Req) : Bool := r.flag 3
def Req.latePark (r : Req) : Bool := r.flag 4
def Req.detach (r : Req) : Bool := r.flag 5
def opCreate : Nat := 0
def opGenerate : Nat := 1
def opAdapt : Nat := 2
def opPark : Nat := 3
def opResume : Nat := 4
def opDelete : Nat := 5
def Req.runsPasses (r : Req) : Bool := r.op == opGenerate || r.op == opAdapt
/-- The completion status codes of R327. -/
def cplOk : Nat := 0
def cplKvFull : Nat := 1
def cplContext : Nat := 2
def cplPartition : Nat := 3
def cplDescriptor : Nat := 4
def cplTenant : Nat := 5
def cplRecord : Nat := 6
def cplLoft : Nat := 7
def cplDeleted : Nat := 8
def cplParked : Nat := 9

def State.findReq (s : State) (id : Nat) : Option Req := s.reqs.find? fun r => r.id == id
def State.putReq (s : State) (r : Req) : State :=
  let put : Req → Req := fun q => if q.id = r.id then r else q
  { s with reqs := s.reqs.map put }
/-- The request of a context that runs passes now. -/
def State.runningReq (s : State) (x : Nat) : Option Req := s.reqs.find? fun r => r.ctx == x && r.started && r.runsPasses
def State.passOf (s : State) (x : Nat) : Option Pass := s.passes.find? fun p => p.ctx == x

/-- Whether a descriptor is refused with DESCRIPTOR (R313, R315). -/
def descBad (d : List Byte) : Bool :=
  let temp := leAt d 36 2
  decide (5 < leAt d 0 1) || decide (64 ≤ leAt d 1 1) || decide (1024 ≤ leAt d 4 2) || decide (8 ≤ leAt d 6 1) ||
    decide (16 ≤ leAt d 7 1) || leAt d 44 8 != 0 || leAt d 52 4 != 0 || decide (32 < leAt d 38 1) ||
    decide (0x8000 < temp) || temp / 128 % 256 == 255 ||
    (!bitOf (leAt d 1 1) 0 && leAt d 24 8 == 0 && decide (7 < leAt d 8 4)) ||
    (leAt d 0 1 == 2 && leAt d 8 4 != 0)

/-- A request as its descriptor gives it. -/
def reqOf (id q now limit : Nat) (d : List Byte) (prompt : List Nat) (record : Option (List Byte)) : Req where
  id := id
  queue := q
  op := leAt d 0 1
  flags := leAt d 1 1
  ctx := leAt d 2 2
  tenant := leAt d 4 2
  cls := leAt d 6 1 % 8
  part := leAt d 7 1 % 16
  tokens := leAt d 8 4
  input := prompt.take (leAt d 12 4)
  keep := none
  outAddr := leAt d 24 8
  deadline := leAt d 32 4
  temperature := leAt d 36 2
  topK := leAt d 38 1
  topP := leAt d 39 1
  stop := leAt d 40 4
  tag := leAt d 56 8
  record := record
  t0 := now
  started := false
  drawn := 0
  emitted := 0
  carry := []
  firstSeq := 0
  ttft := none
  lastAt := 0
  gap := 0
  held := 0
  heldFrom := none
  wasHeld := false
  late := false
  norm := false
  stopped := false
  sent := false
  noticed := false
  status := none
  reason := 0
  ttftLimit := limit

/-! ## Tenants (R330, R331) -/

def State.tenantOn (s : State) (t : Nat) : Bool := s.flag (Reg.SRV_TEN_CTL t) Fl.SRV_TEN_CTL_EN
def State.balance (s : State) (t : Nat) : Int := ((s.rd (Reg.SRV_TEN_BALANCE t)).setWidth 32).toInt
/-- A tenant is eligible while its balance exceeds -BORROW_MAX. -/
def State.eligible (s : State) (t : Nat) : Bool :=
  s.tenantOn t && decide (-(s.fld (Reg.SRV_TEN_CTL t) Fl.SRV_TEN_CTL_BORROW_MAX : Int) < s.balance t)
/-- An amount added to a balance, which saturates. -/
def State.addBalance (s : State) (t : Nat) (d : Int) : State :=
  let v := max (-2147483648) (min 2147483647 (s.balance t + d))
  s.wr (Reg.SRV_TEN_BALANCE t) ((BitVec.ofInt 32 v).setWidth 64)

/-! ## Held time (R319, R321, R548) -/

/-- A request begins to be held; the class counts it the first time (R353). -/
def State.holdReq (s : State) (r : Req) : State :=
  if r.heldFrom.isSome then s
  else
    let s := if r.wasHeld then s else s.bump (Reg.SRV_CLS_HELD r.cls) Fl.SRV_CLS_HELD_COUNT
    s.putReq { r with heldFrom := some s.hostTime, wasHeld := true }
/-- The ticks for which a request has been held. -/
def State.heldTicks (s : State) (r : Req) : Nat :=
  match r.heldFrom with
  | none => r.held
  | some t => r.held + (s.hostTime - t)
/-- A request that is held no longer. -/
def State.freed (s : State) (r : Req) : Req := { r with held := s.heldTicks r, heldFrom := none }

/-! ## Completions (R326 to R329) -/

/-- A tick value as a completion carries it. -/
def satTicks (n : Nat) : Nat := min n 0xFFFFFFFE

/-- The 64 bytes of a completion, with PHASE 0: `interval` its INTERVAL, `late` and `norm` its flags. -/
def State.complBytes (s : State) (r : Req) (interval : Nat) (final late norm : Bool) (status : Nat) : List Byte :=
  let n := r.carry.length
  let parked := final && (status == cplParked || (r.op == opPark && status == cplOk))
  let flags := (if final then 1 else 0) + (if late then 2 else 0) + (if norm then 4 else 0) +
    (if r.stopped && final then 8 else 0) + (if parked then 16 else 0) + (if r.wasHeld then 32 else 0)
  leBytes 8 r.tag ++ leBytes 8 (if n = 0 then (s.ctx r.ctx).tokenSeq else r.firstSeq) ++
    leBytes 4 (match r.ttft with | none => 0xFFFFFFFF | some t => satTicks t) ++ leBytes 4 (satTicks interval) ++
    leBytes 4 (satTicks (s.heldTicks r)) ++ leBytes 2 r.ctx ++ leBytes 2 n ++ leBytes 1 status ++ leBytes 1 flags ++
    leBytes 1 (if parked then r.reason else 0) ++ leBytes 1 0 ++
    ((List.range 7).map fun i => leBytes 4 (r.carry.getD i 0)).flatten

/-- A completion handed to its queue, where it waits to be written. -/
def State.pushCompl (s : State) (q : Nat) (c : Completion) : State :=
  s.setQueue q { s.queue q with waiting := (s.queue q).waiting ++ [c] }

/-- A request ends with a status: its FINAL completion, and the counters of its class. -/
def State.endReq (s : State) (r : Req) (status : Nat) : State :=
  let r := s.freed r
  let interval := if r.stream && r.carry.isEmpty && r.emitted != 0 then s.hostTime - r.lastAt else r.gap
  let late := r.late
  let s := s.pushCompl r.queue ⟨s.complBytes r interval true late r.norm status, true⟩
  let limit := r.ttftLimit
  let s := if r.ttft = none ∧ limit ≠ 0 ∧ limit < s.hostTime - r.t0 then
    s.bump (Reg.SRV_CLS_TTFT_VIOL r.cls) Fl.SRV_CLS_TTFT_VIOL_COUNT else s
  let s := s.bump (Reg.SRV_CLS_REQS r.cls) Fl.SRV_CLS_REQS_COUNT
  let s := { s with reqs := s.reqs.filter fun q => q.id != r.id }
  let k := s.ctx r.ctx
  if k.st = .active ∧ r.runsPasses ∧ r.started then s.setCtx r.ctx { k with st := .resident } else s

/-- A draining queue whose last request has ended is DISABLED once its completions are written (R544). -/
def State.openReqs (s : State) (q : Nat) : List Req := s.reqs.filter fun r => r.queue == q
def State.queueDrained (s : State) (q : Nat) : State :=
  let k := s.queue q
  if k.state = qDraining ∧ (s.openReqs q).isEmpty ∧ k.waiting.isEmpty then s.setQueue q queueZero else s

/-! ## Interrupts (R549) -/

/-- A queue signals its vector. -/
def State.signalQueue (s : State) (q : Nat) : State :=
  let k := s.queue q
  (s.setQueue q { k with unsignalled := 0 }).emit (.interrupt k.vector)

/-- After a completion is written: the interrupt, when COAL_COUNT is reached or a FINAL one needs no coalescing time. -/
def State.coalesce (s : State) (q : Nat) (final : Bool) : State :=
  let k := s.queue q
  let s := s.setQueue q { k with unsignalled := k.unsignalled + 1
                                 since := if k.unsignalled = 0 then s.hostTime else k.since }
  if k.irqEn ∧ (k.coalCount ≤ k.unsignalled + 1 ∨ (final ∧ k.coalTicks = 0)) then s.signalQueue q else s

/-- A completion written at the CQ tail with the phase (R547). -/
def State.writeCompl (s : State) (q : Nat) : State :=
  let k := s.queue q
  match k.waiting with
  | [] => s
  | c :: cs =>
    if k.full then s
    else
      let flags := leAt c.bytes 33 1 + (if k.phase then 128 else 0)
      let bs := c.bytes.take 33 ++ leBytes 1 flags ++ c.bytes.drop 34
      let tail := (k.cqTail + 1) % k.cqSize
      let s := (s.emit (.hostWrite (k.cqBase + 64 * k.cqTail) bs)).setQueue q
        { k with waiting := cs, cqTail := tail, phase := if tail = 0 then !k.phase else k.phase }
      s.coalesce q c.final

end Sys2Proof.Machine
end

