-- ==== Sys2Proof/Machine/Contexts.lean ====
section
/-! DEFINITION. Contexts: the record, parking, resuming and deleting (R306 to R312, R321, R334 to R344, R580, R585). -/

namespace Sys2Proof.Machine

/-! ## The record (R310, R311) -/

def recordAddr (s : State) (x : Nat) : Nat := (s.rd Reg.HIF_LOFT_BASE).toNat + 4096 * x
def CtxState.code : CtxState → Nat
  | .free => 0
  | .parked => 1
  | .resident => 2
  | .active => 3
  | .parking => 4
  | .resuming => 5

/-- A list cut or padded with zeros to `n` numbers of `w` bytes. -/
def wordsTo (w n : Nat) (l : List Nat) : List Byte := ((List.range n).map fun i => leBytes w (l.getD i 0)).flatten

/-- The record of a context before its CRC is put in. -/
def Ctx.raw (k : Ctx) (x state : Nat) : List Byte :=
  let head := leBytes 4 0x5243584B ++ leBytes 2 1 ++ leBytes 1 state ++ leBytes 1 k.part ++ leBytes 2 x ++
    leBytes 1 ((if k.nextToken.isSome then 1 else 0) + (if k.adapter then 2 else 0) + (if k.bookNode.isSome then 4 else 0)) ++
    leBytes 1 k.reason ++ leBytes 1 k.homeModule ++ leBytes 3 0 ++ leBytes 8 k.tokenSeq ++ leBytes 8 k.committed ++
    leBytes 8 k.genPos ++ bytesAt k.seed 0 32
  let mid := leBytes 8 k.loftKv ++ leBytes 8 k.loftDigest ++ leBytes 8 k.loftAdapter ++ leBytes 4 (k.nextToken.getD 0) ++
    leBytes 4 k.adapterBytes ++ leBytes 4 (k.bookNode.getD 0xFFFFFFFF) ++ leBytes 1 k.bookFill ++ leBytes 1 k.pins.length ++
    leBytes 2 k.history.length ++ leBytes 8 k.model ++ leBytes 4 k.adaptSteps
  head ++ mid ++ leBytes 4 0 ++ wordsTo 4 32 k.pins ++ List.replicate 768 0 ++ wordsTo 4 768 k.history
/-- The record with its CRC, taken over all 4,096 bytes with its own four as 0. -/
def Ctx.record (k : Ctx) (x state : Nat) : List Byte :=
  let r := k.raw x state
  r.take 124 ++ leBytes 4 (crc32c r) ++ r.drop 128

/-- A context as a record gives it, PARKED. -/
def ctxOf (b : List Byte) : Ctx :=
  let fl := leAt b 10 1
  { ctxZero with
    st := .parked, part := leAt b 7 1 % 16, reason := leAt b 11 1
    nextToken := if bitOf fl 0 then some (leAt b 96 4) else none, adapter := bitOf fl 1, homeModule := leAt b 12 1 % 64
    tokenSeq := leAt b 16 8, committed := leAt b 24 8, genPos := leAt b 32 8, seed := bytesAt b 40 32
    loftKv := leAt b 72 8, loftDigest := leAt b 80 8, loftAdapter := leAt b 88 8, adapterBytes := leAt b 100 4
    bookNode := if bitOf fl 2 then some (leAt b 104 4) else none, bookFill := leAt b 108 1
    pins := (List.range (min 32 (leAt b 109 1))).map fun i => leAt b (128 + 4 * i) 4
    history := (List.range (min 768 (leAt b 110 2))).map fun i => leAt b (1024 + 4 * i) 4
    model := leAt b 112 8, adaptSteps := leAt b 120 4, ckPos := leAt b 24 8
    ckNode := if bitOf fl 2 then some (leAt b 104 4) else none, ckFill := leAt b 108 1, ckSteps := leAt b 120 4 }

/-- Whether CREATE or a resume refuses a record of context `x` for partition `p` with RECORD (R311). -/
def State.recordBad (s : State) (p : PartRec) (part x : Nat) (b : List Byte) : Bool :=
  leAt b 0 4 != 0x5243584B || leAt b 4 2 != 1 || leAt b 124 4 != crc32c (b.take 124 ++ leBytes 4 0 ++ b.drop 128) ||
    b.length != 4096 || leAt b 6 1 != 1 || leAt b 8 2 != x || leAt b 112 8 != p.model || leAt b 72 8 == 0 ||
    (s.flag (Reg.SRV_KV_CTL part) Fl.SRV_KV_CTL_RECALL && leAt b 80 8 == 0) ||
    (bitOf (leAt b 10 1) 1 && (leAt b 88 8 == 0 || leAt b 100 4 != p.adapterBytes))

/-- The record written to the Loft. -/
def State.writeRecord (s : State) (x state : Nat) : State :=
  (s.emit (.hostWrite (recordAddr s x) ((s.ctx x).record x state))).count Reg.HIF_LOFT_WR 4096
/-- The count of known contexts. -/
def State.countKnown (s : State) (d : Int) : State :=
  s.setFld Reg.SRV_STAT Fl.SRV_STAT_KNOWN ((s.fld Reg.SRV_STAT Fl.SRV_STAT_KNOWN : Int) + d).toNat

/-! ## Loft traffic of adapters and digests (R338, R340) -/

/-- The cores of a partition that hold adapters, lowest first (R365). -/
def State.adapterCores (s : State) (p : Nat) : List Nat :=
  (s.binds.filter fun b => b.2.flags.testBit 4 && s.bound b.1 && s.partOf b.1 == p).map fun b => b.1
/-- The adapter bank in force written to the Loft. -/
def State.saveAdapter (s : State) (x : Nat) : State :=
  let k := s.ctx x
  match s.part k.part, k.slot, s.adapterCores k.part with
  | some p, some slot, c :: _ =>
    let data := s.bytes c (p.bankAt slot k.bank) p.adapterBytes
    ((s.look c (p.bankAt slot k.bank) p.adapterBytes).emit (.hostWrite k.loftAdapter data)).count Reg.HIF_LOFT_WR p.adapterBytes
  | _, _, _ => s

/-- The blocks of a context in one layer: those with at least one committed position. -/
def blocksOf (n : Nat) : Nat := (n + 63) / 64
/-- The Loft address of a block's digest. -/
def State.loftDigestAt (s : State) (x : Nat) (l : LayerKv) (b : Nat) : Nat :=
  (s.ctx x).loftDigest + 64 * (b * s.layerCount l.part + l.index)
/-- The committed blocks of a digest group. -/
def LayerKv.groupBlocks (l : LayerKv) (g n : Nat) : List Nat :=
  (List.range (blocksOf n)).filter fun b => l.groupOf b == g
/-- The core and the Pantry offset of a block's digest in a group's slot (R289). -/
def LayerKv.digestAt (l : LayerKv) (slot b : Nat) : Nat × Nat :=
  (l.set.getD (b % l.set.length) 0, l.slotAt slot + 64 * (b / l.set.length % 576))
/-- The digests of a group written to the Loft. -/
def State.saveDigests (s : State) (x : Nat) (l : LayerKv) (e : MapEntry) : State :=
  (l.groupBlocks e.block (s.ctx x).committed).foldl (fun (s : State) b =>
    let a := l.digestAt e.slot b
    ((s.look a.1 a.2 64).emit (.hostWrite (s.loftDigestAt x l b) (s.bytes a.1 a.2 64))).loftWrote 64) s

/-! ## Giving a residence up (R339) -/

/-- The page map of a context in one layer cleared, and the slots it held freed. -/
def State.freeLayer (s : State) (x r : Nat) (l : LayerKv) : State :=
  let s := s.lookMap l r
  let own := (s.mapList l r).filter fun e => e.2.state == 1 || e.2.state == 3 || e.2.state == 4
  let s := own.foldl (fun (s : State) e => s.slotGiven l x e.2.slot) s
  let mine := s.kvReserves.filter fun q => q.of x l.tag
  let s := mine.foldl (fun (s : State) q => s.markSlot l q.slot false) s
  let s := { s with kvReserves := s.kvReserves.filter fun q => !q.of x l.tag }
  let s := s.storeSet l.keepers (l.mapAt r 0) (List.replicate 2048 0)
  let reach : Spill → Spill := fun q => if q.ctx = x ∧ q.tag = l.tag then { q with reached := true } else q
  let s := ({ s with spills := s.spills.map reach }).spillsEnd l
  { s with kvHolds := l.set.foldl (fun m c => swrite (fun _ => holdZero) m (kvKey x l.tag c) holdZero) s.kvHolds }

/-- A context gives up its resident index, pool slots and adapter slot; KV operations that await a page of it end
CONTEXT (R304). -/
def State.freeResident (s : State) (x : Nat) : State :=
  let k := s.ctx x
  match k.resident with
  | none => s
  | some r =>
    let s := (s.kvLayers k.part).foldl (fun (s : State) l => s.freeLayer x r l) s
    let s := { s with recency := s.recency.filter fun q => q.1 != x
                      loftClean := s.loftClean.filter fun q => q.1 != x
                      digestDirty := s.digestDirty.filter fun q => q.1 != x
                      loftFetches := s.loftFetches.filter fun q => q.ctx != x }
    let stop := s.kvOps.filter fun o => o.ctx == x && o.done == none && o.started && o.kind == .map
    let s := stop.foldl (fun (s : State) o => s.kvDone o stContext) s
    s.setCtx x { s.ctx x with resident := none, slot := none, bank := false, draws := 0 }

/-- The chain of attached nodes, deepest first, with the entries attached of each: `fuel` nodes at most. -/
def State.bookChain (s : State) (p : PartRec) : Nat → Nat → Nat → List (Nat × Nat)
  | 0, _, _ => []
  | fuel + 1, n, fill =>
    let up := s.bookNum p n 8 4
    (n, fill) :: (if up = 0xFFFFFFFF ∨ p.bookNodes ≤ up then [] else s.bookChain p fuel up 64)
def State.chainOf (s : State) (p : PartRec) (k : Ctx) : List (Nat × Nat) :=
  match k.bookNode with
  | none => []
  | some n => if p.bookNodes ≤ n then [] else s.bookChain p p.bookNodes n k.bookFill
/-- The records of a chain, as an operation reads them (R558). -/
def State.lookChain (s : State) (p : PartRec) (k : Ctx) : State :=
  (s.chainOf p k).foldl (fun (s : State) n => s.lookBook p n.1 1) s
/-- Whether a context refers to a node of its chain: one that is not resident to all of it, one that is to those that a
page map of it still holds SHARED (R291, R294). -/
def State.refersTo (s : State) (x n : Nat) : Bool :=
  match (s.ctx x).resident with
  | none => true
  | some r => (s.kvLayers (s.ctx x).part).any fun l => (s.mapList l r).any fun e => e.2.state == 2 && e.2.node == n

/-- The attachment of a context dropped under R294: every node that it refers to loses a reference. -/
def State.dropBook (s : State) (x : Nat) : State :=
  let k := s.ctx x
  let old := s
  let s : State := match s.part k.part with
    | none => s
    | some p => ((s.chainOf p k).filter fun n : Nat × Nat => old.refersTo x n.1).foldl (fun (s : State) (n : Nat × Nat) =>
        s.addRefs p n.1 (-1)) (s.lookChain p k)
  s.setCtx x { s.ctx x with bookNode := none, bookFill := 0 }

/-! ## Parking (R334 to R339) -/

/-- No pass of a context is in flight, and no commit or rollback of it awaits its holders (R335). -/
def State.quiet (s : State) (x : Nat) : Bool :=
  (s.passOf x).isNone &&
    !s.kvOps.any fun o => o.ctx == x && o.done == none && (o.kind == .commit || o.kind == .rollback)

/-- Staging of a context rolled back in every layer (R286, R339). -/
def State.rollbackAll (s : State) (x : Nat) : State :=
  (s.kvLayers (s.ctx x).part).foldl (fun (s : State) l =>
    l.set.foldl (fun (s : State) c => (s.rollbackLayer l x c 0xFFFF).rollbackLayer l x c 0) s) s

/-- What park writes of one layer: HOT pages that the Loft does not hold as they stand, with DETACH the SHARED ones, and
in recall mode the digests (R336, R337). -/
def State.parkLayer (s : State) (x r : Nat) (detach : Bool) (l : LayerKv) : State :=
  if l.draft then s
  else
    let due := (s.mapList l r).filter fun e =>
      (e.2.state == 1 && !s.loftClean.contains (x, l.tag, e.2.block)) || (detach && e.2.state == 2)
    let s := due.foldl (fun (s : State) e =>
      ((s.lookPage l e.2.slot).emit (.hostWrite (s.loftPage x l e.2.block)
        (s.bytes l.lead (l.slotAt e.2.slot) pageBytes))).loftWrote pageBytes) (s.lookMap l r)
    if s.recallOn x then
      ((s.mapList l r).filter fun e => e.2.state == 4).foldl (fun (s : State) e => s.saveDigests x l e.2) s
    else s

/-- The pinned blocks of a context, as its page maps hold them (R307). -/
def State.pinsOf (s : State) (x r : Nat) : List Nat :=
  let ls := (s.kvLayers (s.ctx x).part).filter fun l => !l.draft
  let bs := (ls.map fun l => ((s.mapList l r).filter fun e => e.2.pin && decide (e.2.state ≤ 3)).map fun e => e.2.block)
  bs.flatten.eraseDups.take 32

/-- A park begins, no pass being in flight: everything but the record is written (steps 2 and 3 of R339). -/
def State.beginPark (s : State) (x reason : Nat) (detach : Bool) : State :=
  let k := s.ctx x
  match k.resident with
  | none => s
  | some r =>
    let old := s
    let s := s.rollbackAll x
    let s := s.setCtx x { s.ctx x with pins := s.pinsOf x r }
    let s := (s.kvLayers k.part).foldl (fun (s : State) l => s.parkLayer x r detach l) s
    let s := if k.adapter then s.saveAdapter x else s
    let s := if detach then s.dropBook x else s
    old.launch (s.setCtx x { s.ctx x with st := .parking, reason := reason, homeModule := s.module }) x

/-- The requests that end with the park of a context. -/
def State.endParked (s : State) (x : Nat) (ok : Bool) : State :=
  let rs := s.reqs.filter fun r => r.ctx == x && r.status.isSome
  rs.foldl (fun (s : State) r => s.endReq r (if ok then r.status.getD 0 else cplLoft)) s

/-- The park of a context ends: the record is written and the residence given up, or after a failed write the context
stays RESIDENT (R339). -/
def State.endPark (s : State) (x : Nat) (ok : Bool) : State :=
  if (s.ctx x).st ≠ .parking then s
  else if ok then
    let s := ((s.landed x).freeResident x).writeRecord x 1
    (s.setCtx x { s.ctx x with st := .parked }).endParked x true
  else ((s.landed x).setCtx x { s.ctx x with st := .resident }).endParked x false

/-! ## Resuming (R321, R340, R342) -/

/-- Whether the contexts of two partitions take their resident indices from a common layer. -/
def State.sharesIndex (s : State) (p q : Nat) : Bool :=
  p == q || (s.kvLayers q).any fun l => (s.kvLayers p).contains l
/-- The resident index that a context of partition `p` takes: below RESIDENT of every set, and not held by a context that
shares a layer with it. -/
def State.freeIndex (s : State) (p : Nat) : Option Nat :=
  let cap := (s.kvLayers p).foldl (fun n l => min n l.resident) 4096
  let near := s.ctxs.filter fun e => e.2.resident.isSome && s.sharesIndex p e.2.part
  let used := near.map fun e => e.2.resident.getD 0
  (List.range cap).find? fun r => !used.contains r
/-- The lowest adapter slot that no context of the partition holds. -/
def State.freeAdapter (s : State) (p : Nat) (rec' : PartRec) : Option Nat :=
  let used := (s.ctxs.filter fun e => e.2.part == p && e.2.slot.isSome).map fun e => e.2.slot.getD 0
  (List.range rec'.adapterSlots).find? fun r => !used.contains r

/-- The RESIDENT context that was least recently active, of those that hold what is short: a resident index at a layer of
the partition, or an adapter slot of it (R321). -/
def State.evictPick (s : State) (p : Nat) (adapter : Bool) : Option Nat :=
  let cs := s.ctxs.filter fun e => e.2.st == .resident &&
    (if adapter then e.2.part == p && e.2.slot.isSome else s.sharesIndex p e.2.part) && s.quiet e.1 && !s.reqs.any fun r => r.ctx == e.1 && r.started
  match cs with
  | [] => none
  | e :: es => some (es.foldl (fun a b => if b.2.lastActive < a.2.lastActive then b else a) e).1

/-- What a resume restores of one layer: the map entries without their slots. SHARED blocks of the chain; private blocks
HOT, in recall mode the WINDOW most recent, with pinned ones RECALLED with PIN; and the digest groups. Every pin is kept
(R334, R340). -/
def State.resumePlan (s : State) (x : Nat) (rec' : PartRec) (l : LayerKv) : List MapEntry :=
  if l.draft then []
  else
    let k := s.ctx x
    let chain := s.chainOf rec' k
    let sh : List MapEntry := chain.map fun c =>
      let b := s.bookNum rec' c.1 16 4
      ⟨b, 0xFFFF, 2, k.pins.contains b, c.2, c.1⟩
    let n := blocksOf k.committed
    let own := (List.range n).filter fun b => !sh.any fun e => e.block == b
    let fill : Nat → Nat := fun b => min 64 (k.committed - 64 * b)
    if s.recallOn x then
      let hot := own.filter fun b => decide (n ≤ b + s.kvWindow x)
      let pinned := k.pins.filter fun b => own.contains b && !hot.contains b
      let groups := ((List.range n).map l.groupOf).eraseDups
      sh ++ (hot.map fun b => ⟨b, 0xFFFF, 1, k.pins.contains b, fill b, 0⟩) ++
        (pinned.map fun b => ⟨b, 0xFFFF, 3, true, fill b, 0⟩) ++ groups.map fun g => ⟨g, 0xFFFF, 4, false, 0, 0⟩
    else sh ++ own.map fun b => ⟨b, 0xFFFF, 1, k.pins.contains b, fill b, 0⟩
def planSlots (es : List MapEntry) : Nat := (es.filter fun e => e.state != 2).length
/-- Whether a layer cannot take a resume (R340). -/
def State.planFull (s : State) (x : Nat) (l : LayerKv) (es : List MapEntry) : Bool :=
  decide ((s.freeSlots l).length < planSlots es) || decide (128 < es.length) ||
    (!s.recallOn x && decide (s.pagesMax x < (es.filter fun e => e.state == 1).length))

/-- A layer's plan put into the page map, with slots taken for it, and the committed count of its holders. -/
def State.installPlan (s : State) (x r p : Nat) (l : LayerKv) (es : List MapEntry) : State :=
  let n := (s.ctx x).committed
  let s := es.zipIdx.foldl (fun (s : State) e =>
    if e.1.state = 2 then
      match s.bookSlot p l.tag e.1.node with
      | none => s
      | some k => s.setMapEntry l r e.2 { e.1 with slot := k }
    else
      match (s.freeSlots l).head? with
      | none => s
      | some k =>
        let s := (s.markSlot l k true).setMapEntry l r e.2 { e.1 with slot := k }
        if e.1.state = 3 then s.recallNamed x l.tag e.1.block else s) s
  l.set.foldl (fun (s : State) c => s.setHold x l.tag c { holdZero with committed := if l.draft then 0 else n }) s
/-- The plans of every layer put into their page maps one after another, since layers on one core share its slots; none
where one does not fit (R340). -/
def State.installPlans (x r p : Nat) (q : PartRec) : List LayerKv → State → Option State
  | [], s => some s
  | l :: ls, s =>
    let es := s.resumePlan x q l
    if s.planFull x l es then none else State.installPlans x r p q ls (s.installPlan x r p l es)

/-- The reads that a resume waits for: (address, length). -/
def State.resumeReads (s : State) (x r : Nat) (l : LayerKv) : List (Nat × Nat) :=
  ((s.mapList l r).map fun e =>
    if l.draft then []
    else if e.2.state = 1 ∨ e.2.state = 3 then [(s.loftPage x l e.2.block, pageBytes)]
    else if e.2.state = 4 then
      (l.groupBlocks e.2.block (s.ctx x).committed).map fun b => (s.loftDigestAt x l b, 64)
    else []).flatten

/-- What a request to bring a PARKED context in comes to. -/
inductive ResumeTry where
  | refused (status : Nat)
  | wait
  | go (s : State)

/-- The first steps of a resume of context `x` into partition `p` (R340): the record of `r` checked, the residence taken
under R321, and the reads sent. -/
def State.tryResume (s : State) (r : Req) : ResumeTry :=
  let x := r.ctx
  match s.part r.part, r.record with
  | none, _ => .refused cplPartition
  | some _, none => .refused cplLoft
  | some p, some b =>
    if s.recordBad p r.part x b then .refused cplRecord
    else
      let k := ctxOf b
      let old := s.ctx x
      let k := { k with lastActive := old.lastActive, ckPos := old.ckPos, ckNode := old.ckNode, ckFill := old.ckFill,
                        ckSteps := old.ckSteps }
      if k.bookNode.isSome ∧ (k.part ≠ r.part ∨ k.homeModule ≠ s.module) then .refused cplPartition
      else
        let k := { k with part := r.part }
        let evict : Bool → ResumeTry := fun a =>
          if s.ctxs.any fun e => e.2.st == .parking && s.sharesIndex r.part e.2.part then .wait
          else
            match s.evictPick r.part a with
            | none => .wait
            | some y => .go (s.beginPark y 2 false)
        match s.freeIndex r.part with
        | none => evict false
        | some i =>
          match (if k.adapter then (s.freeAdapter r.part p).map some else some none) with
          | none => evict true
          | some slot =>
            let t := (s.setCtx x { k with st := .resuming, resident := some i, slot := slot, bank := false }).takeKv x
            let ls := t.kvLayers r.part
            match State.installPlans x i r.part p ls t with
            | none => .refused cplKvFull
            | some t =>
              let reads := (ls.map fun l => t.resumeReads x i l).flatten ++
                (if k.adapter then [(k.loftAdapter, p.adapterBytes)] else [])
              .go (reads.foldl (fun (t : State) a => t.emit (.hostRead a.1 a.2)) t)

/-- The bytes at a host address in what the host returned; none where a read failed. -/
def memAt (mem : List (Nat × List Byte)) (a n : Nat) : Option (List Byte) :=
  match mem.find? fun e => e.1 == a with
  | none => none
  | some e => if e.2.length = n then some e.2 else none

/-- A map entry's bytes, as the Loft returned them, written into every replica; and its page is clean there (R336). -/
def State.fillEntry (s : State) (x : Nat) (l : LayerKv) (mem : List (Nat × List Byte)) (e : MapEntry) : State :=
  if e.state = 1 ∨ e.state = 3 then
    match memAt mem (s.loftPage x l e.block) pageBytes with
    | none => s
    | some d => ((s.storeSet l.set (l.slotAt e.slot) d).loftRead l.part pageBytes).clean x l.tag e.block
  else if e.state = 4 then
    let s := s.storeSet l.set (l.slotAt e.slot) (List.replicate pageBytes 0)
    (l.groupBlocks e.block (s.ctx x).committed).foldl (fun (s : State) b =>
      match memAt mem (s.loftDigestAt x l b) 64 with
      | none => s
      | some d =>
        let a := l.digestAt e.slot b
        (s.store a.1 a.2 d).loftRead l.part 64) s
  else s

/-- The reads of a resume have come back: everything is restored and the context is RESIDENT, or after a read error it
is PARKED again (R340). -/
def State.endResume (s : State) (x : Nat) (mem : List (Nat × List Byte)) : State × Bool :=
  let k := s.ctx x
  match k.resident, s.part k.part with
  | some r, some p =>
    let ls := s.kvLayers k.part
    let reads := (ls.map fun l => s.resumeReads x r l).flatten ++
      (if k.adapter then [(k.loftAdapter, p.adapterBytes)] else [])
    if reads.any fun a => (memAt mem a.1 a.2).isNone then
      let s := s.freeResident x
      (s.setCtx x { s.ctx x with st := .parked }, false)
    else
      let s := ls.foldl (fun (s : State) l =>
        if l.draft then s else (s.mapList l r).foldl (fun (s : State) e => s.fillEntry x l mem e.2) (s.lookMap l r)) s
      let s := match k.slot, memAt mem k.loftAdapter p.adapterBytes with
        | some a, some d =>
          if k.adapter then
            (s.storeSet (s.adapterCores k.part) (p.bankAt a k.bank) d).count Reg.HIF_LOFT_RD p.adapterBytes
          else s
        | _, _ => s
      (s.setCtx x { s.ctx x with st := .resident, lastActive := s.hostTime, ckPos := k.committed, ckNode := k.bookNode,
                                 ckFill := k.bookFill, ckSteps := k.adaptSteps }, true)
  | _, _ => (s.setCtx x { k with st := .parked }, false)

/-! ## Deleting (R343) and parking for a fault (R585) -/

/-- A context deleted: its slots freed, its attachment dropped, its record written FREE. -/
def State.deleteCtx (s : State) (x : Nat) : State :=
  let s := ((s.dropBook x).freeResident x).writeRecord x 0
  (s.setCtx x ctxZero).countKnown (-1)

/-- The record of a fault park is written while the link carries it; without it the context stays PARKING (R585). -/
def State.faultParkEnd (s : State) (x : Nat) : State :=
  if s.flag Reg.HIF_STAT Fl.HIF_STAT_LINK_UP && s.flag Reg.HIF_STAT Fl.HIF_STAT_CACHE_EN then
    let s := s.writeRecord x 1
    s.setCtx x { s.ctx x with st := .parked }
  else s
/-- A fault park (R585): the record goes back to the last checkpoint and keeps the counters of what was emitted. -/
def State.faultPark (s : State) (x : Nat) : State :=
  let k := s.ctx x
  let s := { s with passes := s.passes.filter fun q => q.ctx != x
                    host.parkDue := s.host.parkDue.filter fun q => q.1 != x }
  let s := s.setFld Reg.SRV_STAT Fl.SRV_STAT_IN_FLIGHT s.passes.length
  let s := (s.landed x).freeResident x
  let s := s.setCtx x { s.ctx x with st := .parking, reason := 6, committed := k.ckPos, bookNode := k.ckNode
                                     bookFill := k.ckFill, adaptSteps := k.ckSteps, pins := [], history := []
                                     nextToken := none }
  s.faultParkEnd x

/-- The requests of a context that is fault-parked end PARKED with reason FAULT (R584); those that would bring it in, park
it or delete it and have not begun are left, for R594 holds them. -/
def State.endFaulted (s : State) (x : Nat) : State :=
  let rs := s.reqs.filter fun r => r.ctx == x && (r.started || r.runsPasses)
  rs.foldl (fun (s : State) r => s.endReq { r with reason := 6 } cplParked) s

/-! ## Checkpoints (R580) -/

/-- The blocks of one layer that a checkpoint up to position `n` writes. -/
def State.checkLayer (s : State) (x r n : Nat) (l : LayerKv) : State :=
  if l.draft then s
  else
    let due := (s.mapList l r).filter fun e => e.2.state == 1 && decide (64 * e.2.block + 64 ≤ n) &&
      decide ((s.ctx x).ckPos ≤ 64 * e.2.block) && !s.loftClean.contains (x, l.tag, e.2.block)
    let s := due.foldl (fun (s : State) e =>
      (((s.lookPage l e.2.slot).emit (.hostWrite (s.loftPage x l e.2.block)
        (s.bytes l.lead (l.slotAt e.2.slot) pageBytes))).loftWrote pageBytes).clean x l.tag e.2.block) (s.lookMap l r)
    let gs := (s.mapList l r).filter fun e => e.2.state == 4 && s.digestDirty.contains (x, l.tag, e.2.block)
    let s := if s.recallOn x then gs.foldl (fun (s : State) e => s.saveDigests x l e.2) s else s
    { s with digestDirty := s.digestDirty.filter fun q => !(q.1 == x && q.2.1 == l.tag) }

/-- A checkpoint of a context, when the commits since the last one have reached a multiple of 256; the adapter bank alone after
every 64 adaptation steps. One whose transfers fail leaves the last checkpoint and writes a LOFT_ERROR record (R580), and
the next is taken at the next multiple. -/
def State.checkpoint (s : State) (x : Nat) : State :=
  let k := s.ctx x
  let n := k.committed / 256 * 256
  let due := decide (k.ckPos < n) && decide (k.ckTried.1 < n)
  let steps := k.adapter && k.adaptSteps != k.ckSteps && k.adaptSteps != k.ckTried.2 && k.adaptSteps % 64 == 0
  match k.resident with
  | none => s
  | some r =>
    if !due && !steps then s
    else if !s.cacheOk then
      (s.setCtx x { k with ckTried := (max n k.ckTried.1, k.adaptSteps) }).logFault 0x50 .module (some k.part) outLogged 0
    else if !due then (s.saveAdapter x).setCtx x { (s.saveAdapter x).ctx x with ckSteps := k.adaptSteps }
    else
      let s := (s.kvLayers k.part).foldl (fun (s : State) l => s.checkLayer x r n l) s
      let s := if k.adapter ∧ k.adaptSteps ≠ k.ckSteps then s.saveAdapter x else s
      s.setCtx x { s.ctx x with ckPos := n, ckNode := k.bookNode, ckFill := k.bookFill, ckSteps := k.adaptSteps }

end Sys2Proof.Machine
end

