-- ==== Sys2Proof/Machine/Serving.lean ====
section
/-! DEFINITION. Starting requests: the Prompt book lookup, the order of a context's requests, and what each operation
does when its turn comes (R292, R296, R314 to R316, R321, R331, R343, R344). -/

namespace Sys2Proof.Machine

/-! ## Partitions -/

/-- The state of a partition (R404): 0 EMPTY, 1 LOADING, 2 WAITING, 3 READY, 4 DEGRADED, 5 FROZEN, 6 UNLOADING. -/
def State.partState (s : State) (p : Nat) : Nat := s.fld (Reg.BLK_PART_STAT p) Fl.BLK_PART_STAT_STATE
def State.setPartState (s : State) (p x : Nat) : State := s.setFld (Reg.BLK_PART_STAT p) Fl.BLK_PART_STAT_STATE x
/-- A partition is loaded in the states WAITING to FROZEN. -/
def State.loaded (s : State) (p : Nat) : Bool :=
  (s.part p).isSome && decide (2 ≤ s.partState p) && decide (s.partState p ≤ 5)

/-- Whether a partition is DEGRADED or FROZEN, which stops its admission and its parks and resumes (R445, R594), or the
module halted (R588). -/
def State.stopped (s : State) (p : Nat) : Bool := s.partState p == 4 || s.partState p == 5 || s.fatal
/-- Whether the passes of a partition use a core: those of its own that play no swing part, the understudy's cores for TREE
passes alone, wherever the understudy lies (R324, R348; DESIGN CHOICE, log entry 77). -/
def State.passUses (s : State) (p : Nat) (tree : Bool) (c : Nat) : Bool :=
  let kind := (s.bind c).kind
  s.bound c && (if kind = 3 then tree && (s.understudy p == some (s.partOf c) || s.partOf c == p)
    else s.partOf c == p && kind != 4)
/-- Whether a rebind names a core that passes of a partition use: none is admitted, and it waits for those in flight
(R351). -/
def State.rebinding (s : State) (p : Nat) (tree : Bool) : Bool :=
  match s.blk.rebind with
  | none => false
  | some r => r.cores.any fun c => s.passUses p tree c

/-! ## The Prompt book (R290 to R292, R296) -/

/-- The key of a node (R290). -/
def nodeKey (pkey : Nat) (tokens : List Nat) : Nat :=
  leNat (shake256 (leBytes 8 pkey ++ (tokens.map fun t => leBytes 4 t).flatten) 8)

def leadMatch : List Nat → List Nat → Nat
  | a :: as, b :: bs => if a = b then leadMatch as bs + 1 else 0
  | _, _ => 0

/-- The READY record that the key probe finds, within 16 places and not past a FREE one (R292). -/
def State.probe (s : State) (p : PartRec) (key parent b : Nat) (tokens : List Nat) : Nat → Nat → Option Nat
  | 0, _ => none
  | fuel + 1, i =>
    let n := (key + i) % p.bookNodes
    let st := s.bookNum p n 20 1
    if st = 2 ∧ s.bookNum p n 0 8 = key ∧ s.bookNum p n 8 4 = parent ∧ s.bookNum p n 16 4 = b ∧
      leadMatch (s.bookTokens p n) tokens = 64 then some n
    else if st = 0 then none
    else s.probe p key parent b tokens fuel (i + 1)

/-- The child scan: the READY record of parent and block whose leading tokens agree longest (R292). -/
def State.childScan (s : State) (p : PartRec) (parent b : Nat) (tokens : List Nat) : Option (Nat × Nat) :=
  (List.range p.bookNodes).foldl (fun best j =>
    if s.bookNum p j 20 1 = 2 ∧ s.bookNum p j 8 4 = parent ∧ s.bookNum p j 16 4 = b then
      let k := leadMatch (s.bookTokens p j) tokens
      match best with
      | none => if 0 < k then some (j, k) else none
      | some (_, m) => if m < k then some (j, k) else best
    else best) none

/-- The nodes that the lookup of R292 attaches, first block first, as (node, entries): `fuel` blocks at most. -/
def State.bookLookup (s : State) (p : PartRec) (tokens : List Nat) : Nat → Nat → Nat → Nat → List (Nat × Nat)
  | 0, _, _, _ => []
  | fuel + 1, parent, pkey, b =>
    let rest := tokens.drop (64 * b)
    if rest.isEmpty then []
    else
      let blk := rest.take 64
      let hit := if 64 ≤ rest.length then (s.probe p (nodeKey pkey blk) parent b blk 16 0).map fun n => (n, 64) else none
      match (match hit with | some h => some h | none => s.childScan p parent b blk) with
      | none => []
      | some (n, m) =>
        (n, m) :: (if m < 64 then [] else s.bookLookup p tokens fuel n (s.bookNum p n 0 8) (b + 1))

/-- A node attached: one reference more, and a SHARED entry in every layer (R288, R292). -/
def State.attach (s : State) (x p : Nat) (rec' : PartRec) (n b m : Nat) : State :=
  let s := s.addRefs rec' n 1
  let r := s.residentOf x
  let s := (s.kvLayers p).foldl (fun (s : State) l =>
    match s.bookSlot p l.tag n, (s.unusedEntries l r).head? with
    | some k, some i => s.setMapEntry l r i ⟨b, k, 2, false, m, n⟩
    | _, _ => s) s
  s.setCtx x { s.ctx x with bookNode := some n, bookFill := m }

/-- The Prompt book lookup of a request whose context is resident (R292, R296): the blocks attached are committed, and the
input that they cover is not processed. Where they cover all of it, its last token is not counted as committed, since it
is still the first to draw or stays as NEXT_TOKEN (R316; DESIGN CHOICE, log entry 56). No more blocks are attached than
every page map has room for. -/
def State.lookupBook (s : State) (r : Req) : State × Req :=
  let k := s.ctx r.ctx
  match s.part k.part with
  | none => (s, r)
  | some p =>
    if !r.useBook || !s.bookOn r.ctx || k.adapter || k.committed != 0 ||
      k.bookNode.isSome || p.bookCore.isNone || p.bookNodes == 0 then (s, r)
    else
      let toks := r.input ++ r.keep.toList
      let s := (s.kvLayers k.part).foldl (fun (s : State) l => s.lookMap l (s.residentOf r.ctx)) (s.lookBook p 0 p.bookNodes)
      let room := (s.kvLayers k.part).foldl (fun n l => min n (s.unusedEntries l (s.residentOf r.ctx)).length) 128
      let hits := (s.bookLookup p toks (toks.length + 1) 0xFFFFFFFF 0 0).take room
      let n := min (hits.map fun h => h.2).sum (toks.length - 1)
      if hits.isEmpty then (s, r)
      else
        let s := hits.zipIdx.foldl (fun (s : State) h => s.attach r.ctx k.part p h.1.1 h.2 h.1.2) s
        let s := (s.kvLayers k.part).foldl (fun (s : State) l =>
          l.set.foldl (fun (s : State) c => s.setHold r.ctx l.tag c { s.hold r.ctx l.tag c with committed := n }) s) s
        let k := s.ctx r.ctx
        let seen := r.input.take n
        let hist := if k.nextToken.isSome then k.history ++ seen.drop 1 else k.history ++ seen
        let s := s.setCtx r.ctx { k with committed := n, nextToken := none
                                         history := hist.drop (hist.length - 768) }
        (s, { r with input := r.input.drop n })

/-! ## Starting a request -/

/-- The input sequence of a GENERATE (R316): NEXT_TOKEN and the prompt, the last one kept back when TOKENS is 0; without a
prompt NEXT_TOKEN is the node of the first PLAIN or TREE pass. -/
def State.prepare (s : State) (r : Req) : Req :=
  let k := s.ctx r.ctx
  if r.op = opAdapt then r
  else if r.input.isEmpty then r
  else
    let seq := (match k.nextToken with | none => [] | some t => [t]) ++ r.input
    if r.tokens = 0 then { r with input := seq.dropLast, keep := seq.getLast? } else { r with input := seq }

/-- A GENERATE or ADAPT whose context is resident begins: ACTIVE, with its sampling parameters, its input and the blocks
that the book gives it. -/
def State.activate (s : State) (r : Req) : State :=
  let k := s.ctx r.ctx
  let s := s.setCtx r.ctx { k with st := .active, temperature := r.temperature, topK := r.topK, topP := r.topP
                                   lastActive := s.hostTime, draws := 0 }
  let (s, r) := s.lookupBook (s.prepare r)
  s.putReq { s.freed r with started := true }

/-- A GENERATE whose input has come to its end keeps the last token as NEXT_TOKEN (R316). -/
def State.keepLast (s : State) (r : Req) : State :=
  match r.keep with
  | none => s
  | some t =>
    let k := s.ctx r.ctx
    let hist := k.history ++ [t]
    s.setCtx r.ctx { k with nextToken := some t, history := hist.drop (hist.length - 768) }

/-- Whether a request that has begun has nothing more to run. -/
def Req.atEnd (r : Req) : Bool :=
  r.input.isEmpty && (r.op == opAdapt || r.stopped || decide (r.tokens ≤ r.drawn))

/-- CREATE with the record that it has read (R311): a good one makes the context PARKED. -/
def State.createWith (s : State) (r : Req) (b : List Byte) : State :=
  match s.part r.part with
  | none => s.endReq r cplPartition
  | some p =>
    let s := s.count Reg.HIF_LOFT_RD 4096
    if !s.loaded r.part then s.endReq r cplPartition
    else if (s.ctx r.ctx).st ≠ .free then s.endReq r cplContext
    else if s.recordBad p r.part r.ctx b then s.endReq r cplRecord
    else ((s.setCtx r.ctx (ctxOf b)).countKnown 1).endReq r cplOk
/-- CREATE in its turn (R310, R311): the record is read, which came with the descriptor where its turn is at once. -/
def State.startCreate (s : State) (r : Req) : State :=
  if (s.ctx r.ctx).st ≠ .free then s.endReq r cplContext
  else if !s.loaded r.part then s.endReq r cplPartition
  else
    let t := s.emit (.hostRead (recordAddr s r.ctx) 4096)
    match r.record with
    | none => t.putReq { s.freed r with started := true }
    | some b => t.createWith r b

/-- The record of a PARKED context is read, which RESUME_COMPLETE brings (R310, R340). -/
def State.readRecord (s : State) (r : Req) : State :=
  let k := s.ctx r.ctx
  ((s.emit (.hostRead (recordAddr s r.ctx) 4096)).setCtx r.ctx { k with st := .resuming, resident := none }).putReq
    { s.freed r with started := true }

/-- Whether a residence for a context can be had now or after an eviction that can begin: where it cannot, its record is not
read yet and the request waits, held (R321). -/
def State.canBring (s : State) (r : Req) : Bool :=
  match s.part r.part with
  | none => true
  | some p =>
    ((s.freeIndex r.part).isSome || (s.evictPick r.part false).isSome) &&
      (!(s.ctx r.ctx).adapter || (s.freeAdapter r.part p).isSome || (s.evictPick r.part true).isSome)
/-- The present request to bring a context in, carried out or refused; the request otherwise waits, held (R321, R340), and keeps
what its record says of an adapter. -/
def State.bringIn (s : State) (r : Req) : State :=
  let s := match s.part r.part, r.record with
    | some p, some b => s.lookChain p (ctxOf b)
    | _, _ => s
  match s.tryResume r with
  | .refused st => s.endReq r st
  | .wait =>
    (s.setCtx r.ctx { s.ctx r.ctx with adapter := match r.record with | none => (s.ctx r.ctx).adapter | some b => (ctxOf b).adapter }).holdReq r
  | .go t =>
    if (t.ctx r.ctx).st = .resuming then
      (t.count Reg.HIF_LOFT_RD 4096).putReq { t.freed r with started := true }
    else t.holdReq r

/-- GENERATE, ADAPT and RESUME in their turn. A context that is resident elsewhere than in the request's partition is
refused (R327, R342). -/
def State.startRun (s : State) (r : Req) : State :=
  let k := s.ctx r.ctx
  if k.st = .free then s.endReq r cplContext
  else if !s.loaded r.part then s.endReq r cplPartition
  else if k.st = .parked then (if r.record.isSome then s.bringIn r
    else if s.canBring r then s.readRecord r else s.holdReq r)
  else if k.st = .resident then
    if k.part ≠ r.part then s.endReq r cplPartition
    else if r.op = opResume then s.endReq r cplOk
    else s.activate r
  else s

/-- PARK in its turn (R339); a context that is PARKED already stays so. -/
def State.startPark (s : State) (r : Req) : State :=
  let k := s.ctx r.ctx
  if k.st = .free then s.endReq r cplContext
  else if k.st = .parked then s.endReq r cplOk
  else if k.st = .resident ∧ s.quiet r.ctx then
    (s.putReq { r with started := true, status := some cplOk, reason := 1 }).beginPark r.ctx 1 r.detach
  else s

/-- DELETE (R343): of a context with a request running once no pass of it is in flight, the running request ending
DELETED; not while it is PARKING or RESUMING (R344). -/
def State.startDelete (s : State) (r : Req) : State :=
  let k := s.ctx r.ctx
  if k.st = .free then s.endReq r cplContext
  else if k.st = .parking ∨ k.st = .resuming ∨ !s.quiet r.ctx then s
  else
    let s := match s.runningReq r.ctx with
      | none => s
      | some q => s.endReq q cplDeleted
    (s.deleteCtx r.ctx).endReq r cplOk

/-! ## Whose turn it is -/

/-- Whether the requests of the same context fetched before `r` let it start: they have ended, but for the running one in
the case of a DELETE (R316, R343). -/
def State.turnFor (s : State) (r : Req) : Bool :=
  let before := (s.reqs.takeWhile fun q => q.id != r.id).filter fun q => q.ctx == r.ctx
  before.isEmpty || (r.op == opDelete && before.all fun q => q.started && q.runsPasses)
/-- Whether a request may take a step: its queue has room for completions, and a place is free where it may end without
a pass (R548): two for a DELETE that ends the running request too. -/
def State.mayStep (s : State) (r : Req) : Bool :=
  let places := if r.op = opDelete && (s.runningReq r.ctx).isSome then 2 else 1
  !(s.queue r.queue).stuck && (decide (s.placesUsed + places ≤ 1024) || (r.started && !r.runsPasses))

/-- The effective priority of a request (R320). -/
def State.priority (s : State) (r : Req) : Nat :=
  let ctl := Reg.SRV_CLS_CTL r.cls
  let limit := r.ttftLimit
  let base := s.fld ctl Fl.SRV_CLS_CTL_PRIORITY
  if s.flag ctl Fl.SRV_CLS_CTL_AGING ∧ limit ≠ 0 ∧ r.emitted = 0 ∧ r.ttft = none then
    min 7 (base + (s.hostTime - r.t0) / limit)
  else base

/-- Requests in admission order: by effective priority, then in fetch order (R320). -/
def insertReq (s : State) (r : Req) : List Req → List Req
  | [] => [r]
  | q :: qs => if s.priority q < s.priority r then r :: q :: qs else q :: insertReq s r qs
def State.admissionOrder (s : State) : List Req := s.reqs.foldl (fun l r => insertReq s r l) []

/-- Whether a request has something to do now that no pass and no completing transfer is needed for: to start, to try
again to bring its context in, to be deleted, or to end because its tenant is disabled or nothing is left of it. -/
def State.dueReq (s : State) (r : Req) : Bool :=
  let k := s.ctx r.ctx
  s.turnFor r && s.mayStep r && r.status.isNone && (
    if r.op = opCreate then !r.started && s.partState r.part != 5
    else if r.op = opPark then
      k.st == .free || k.st == .parked || (k.st == .resident && s.quiet r.ctx && !s.stopped k.part)
    else if r.op = opDelete then k.st != .parking && k.st != .resuming && s.quiet r.ctx && s.partState k.part != 5
    else if !r.started then
      k.st == .free || !s.loaded r.part || ((k.st == .parked || k.st == .resident) && !s.stopped r.part)
    else if k.st == .resident then true
    else r.runsPasses && k.st == .active && (s.passOf r.ctx).isNone && (r.atEnd || !s.tenantOn r.tenant) &&
      !s.notices.any fun n => n.req == r.id)

/-- One due request takes its step. -/
def State.stepReq (s : State) (r : Req) : State :=
  if r.op = opCreate then s.startCreate r
  else if r.op = opPark then s.startPark r
  else if r.op = opDelete then s.startDelete r
  else if r.started ∧ (s.ctx r.ctx).st = .active then
    if r.atEnd then (s.keepLast r).endReq r cplOk else s.endReq r cplTenant
  else s.startRun r

/-- Every request that is due takes its step, in admission order: at most `fuel` steps, and one that only waits is not
tried twice. -/
def State.serveN : Nat → List Nat → State → State
  | 0, _, s => s
  | fuel + 1, tried, s =>
    match s.admissionOrder.find? fun r => s.dueReq r && !tried.contains r.id with
    | none => s
    | some r =>
      let t := s.stepReq r
      let waits := (t.reqs.any fun q => q.id == r.id && !q.started)
      State.serveN fuel (if waits then r.id :: tried else tried) t

/-- A request that waits for a pass: begun, on a READY partition or not, with no pass in flight. -/
def State.waitsPass (s : State) (r : Req) : Bool :=
  r.runsPasses && r.started && r.status.isNone && (s.ctx r.ctx).st == .active && (s.passOf r.ctx).isNone && !r.atEnd
/-- Whether a pass of a request could be admitted now but for the order (R309, R319, R331, R522, R548). -/
def State.passReady (s : State) (r : Req) : Bool :=
  let p := r.part
  s.waitsPass r && s.partState p == 3 && !s.fatal && s.fld Reg.THM_STAT Fl.THM_STAT_FLOW_STATE == 0 &&
    !s.blk.flowParts.contains p && !s.rebinding p (r.op == opGenerate && r.input.isEmpty && r.useTree) && s.eligible r.tenant && s.placeFree && !(s.queue r.queue).stuck &&
    decide (s.passes.length < 240) &&
    (match s.part p with
     | none => false
     | some k => decide ((s.passes.filter fun q => q.part == p).length < k.pipeMax) &&
         (decide (k.modules.length ≤ 1) || k.lead == s.module)) &&
    !(s.reqs.any fun q => q.ctx == r.ctx && q.op == opDelete && s.turnFor q)

/-- The parks that wait for a context to be quiet begin (R335). -/
def State.parksDue (s : State) : State :=
  let now := s.host.parkDue.filter fun q => s.quiet q.1
  let s := { s with host.parkDue := s.host.parkDue.filter fun q => !now.contains q }
  now.foldl (fun (s : State) q => s.beginPark q.1 q.2 false) s

/-- After any change: parks that may begin do, due requests take their steps, and those that wait for a pass which may not be
admitted, for room for their completions, or for a partition that is stopped, are held (R319, R445, R548, R594). -/
def State.serveReqs (s : State) : State :=
  let s := s.parksDue
  let s := State.serveN (3 * s.reqs.length + 1) [] s
  let waits := fun r : Req => (s.waitsPass r && !s.passReady r) || (!r.started && s.turnFor r && (s.stopped r.part || !s.mayStep r))
  (s.reqs.filter waits).foldl (fun (s : State) r => s.holdReq r) s

end Sys2Proof.Machine
end

