-- ==== Sys2Proof/Machine/Passes.lean ====
section
/-! DEFINITION. Passes: admission, commit, the notices of commits and deadlines, and the completions they bring (R284,
R287, R295, R297, R317 to R333, R346). -/

namespace Sys2Proof.Machine

/-! ## Admission (R297, R317 to R320) -/

def kindPlain : Nat := 0
def kindChunk : Nat := 1
def kindTree : Nat := 2
def kindAdapt : Nat := 3

/-- The bucket of a length, by the boundaries in force for a context (R297, R305). -/
def State.bucketOf (s : State) (x n : Nat) : Nat :=
  let w := fun i => (s.ctx x).kv.buckets.getD i 0
  let bs := [Fl.SRV_KV_BUCKET_0_B0.get (w 0), Fl.SRV_KV_BUCKET_0_B1.get (w 0), Fl.SRV_KV_BUCKET_1_B2.get (w 1),
    Fl.SRV_KV_BUCKET_1_B3.get (w 1), Fl.SRV_KV_BUCKET_2_B4.get (w 2), Fl.SRV_KV_BUCKET_2_B5.get (w 2),
    Fl.SRV_KV_BUCKET_3_B6.get (w 3)]
  (bs.filter fun b => decide (b < n)).length

/-- The tokens that a layer of a context attends: the valid entries of its pages in the pool, at KV index 0. -/
def State.attended (s : State) (x : Nat) : Nat :=
  let k := s.ctx x
  match (s.kvLayers k.part).find? fun l => !l.draft && l.index == 0, k.resident with
  | some l, some r => (((s.mapList l r).filter fun e => decide (1 ≤ e.2.state) && decide (e.2.state ≤ 3)).map fun e =>
      e.2.fill).sum
  | _, _ => k.committed

/-- The page map that gives that count, as it is read (R558). -/
def State.lookAttended (s : State) (x : Nat) : State :=
  match (s.kvLayers (s.ctx x).part).find? fun l => !l.draft && l.index == 0, (s.ctx x).resident with
  | some l, some r => s.lookMap l r
  | _, _ => s

/-- The parent byte of a node of a partition's tree shape, its node count, and the greatest depth of a node (R324,
R354). -/
def State.treeParent (s : State) (p i : Nat) : Nat := bitsOf (s.rd (Reg.SRV_TREE_PAR p (i / 4))).toNat (8 * (i % 4)) 8
def State.treeNodes (s : State) (p : Nat) : Nat := s.fld (Reg.SRV_TREE_CTL p) Fl.SRV_TREE_CTL_NODES
def State.treeDepth (s : State) (p : Nat) : Nat :=
  let ds := (List.range (s.treeNodes p)).foldl (fun ds i =>
    let q := s.treeParent p i
    ds ++ [if q = 0xFF then 0 else ds.getD q 0 + 1]) []
  ds.foldl max 0

/-- The nodes of a TREE pass after its root: the understudy's candidates, which its programs draft at the shape's depths
(R317, R324). The children of a node receive the understudy's most probable tokens at that node, in descending order from the
lowest-numbered child. The spec names no place where the programs leave the probabilities, so the order of the tokens at each
node is a free value (log entry 74). -/
def State.candidates (s : State) (p : Nat) : List Nat :=
  (List.range (s.treeNodes p - 1)).map fun i =>
    let up := s.treeParent p (i + 1)
    let older := ((List.range (i + 1)).filter fun j => s.treeParent p j == up).length
    ((Config.draftRank s.fresh up).eraseDups.getD older 0).toNat

/-- The next pass of a request (R317). -/
def State.nextPass (s : State) (r : Req) : Pass :=
  let k := s.ctx r.ctx
  let chunk := r.input.take 16
  let ends := decide (r.input.length ≤ 16)
  let kind := if r.op = opAdapt then kindAdapt else if !r.input.isEmpty then kindChunk
    else if r.useTree then kindTree else kindPlain
  let root := k.nextToken.getD 0
  let input := if kind = kindPlain then [root]
    else if kind = kindTree then root :: s.candidates r.part else chunk
  { ctx := r.ctx, part := r.part, kind := kind, input := input
    drawAt := if kind = kindChunk ∧ ends ∧ 1 ≤ r.tokens then some (chunk.length - 1) else none
    lanes := if input.length ≤ 4 then input.length else 4
    tokens := [], late := r.noticed, full := false, tested := [], req := r.id, tenant := r.tenant, flags := r.flags
    left := r.tokens - r.drawn, stop := r.stop
    shape := if kind = kindTree then (List.range (s.treeNodes r.part)).map fun i => s.treeParent r.part i else [] }

/-- The prompt tokens of a request that remain: its input, without a NEXT_TOKEN that leads it and with a last one that is
kept back (R297, R316). -/
def State.promptLeft (s : State) (r : Req) : Nat :=
  r.input.length + (if r.keep.isSome then 1 else 0) - (if r.op = opGenerate ∧ (s.ctx r.ctx).nextToken.isSome then 1 else 0)
/-- The bucket of a request's next pass: of what it attends, or for prefill of what remains of the prompt (R297). -/
def State.passBucket (s : State) (r : Req) (q : Pass) : Nat :=
  if q.kind = kindChunk ∨ q.kind = kindAdapt then s.bucketOf q.ctx (s.promptLeft r)
  else if q.kind = kindTree then s.bucketOf q.ctx (s.attended q.ctx + s.treeDepth q.part)
  else s.bucketOf q.ctx (s.attended q.ctx)

/-- The pass descriptor (R318). -/
def State.passBytes (s : State) (q : Pass) (bucket : Nat) : List Byte :=
  let k := s.ctx q.ctx
  leBytes 2 q.ctx ++ leBytes 1 q.kind ++ leBytes 1 bucket ++ leBytes 1 q.input.length ++ leBytes 1 0 ++
    leBytes 2 (k.resident.getD 0) ++ leBytes 8 k.committed ++ leBytes 8 k.tokenSeq ++ leBytes 8 k.genPos ++
    leBytes 2 k.temperature ++ leBytes 1 k.topK ++ leBytes 1 k.topP ++ leBytes 4 q.stop ++
    leBytes 4 (q.drawAt.getD 0xFF) ++ List.replicate 20 0 ++ wordsTo 4 16 q.input

/-- The entry cores of a partition (R318, R365). -/
def State.entryCores (s : State) (p : Nat) : List Nat :=
  (s.binds.filter fun b => b.2.flags.testBit 1 && s.bound b.1 && s.partOf b.1 == p).map fun b => b.1
def State.countFlight (s : State) : State := s.setFld Reg.SRV_STAT Fl.SRV_STAT_IN_FLIGHT s.passes.length

/-- A pass admitted: its descriptor goes to every entry core. -/
def State.admitOne (s : State) (r : Req) (q : Pass) : State :=
  let bs := s.passBytes q (s.passBucket r q)
  let ofs := match s.part q.part with | none => 0 | some p => p.passOfs
  let s := (s.entryCores q.part).foldl (fun (s : State) c => s.store c ofs bs) s
  let k := s.ctx q.ctx
  let s := s.setCtx q.ctx { k with draws := 0, lastActive := s.hostTime }
  let s := { s with normActs := swrite (fun _ => 0) s.normActs q.ctx 0, passes := s.passes ++ [q] }
  let used := if q.kind = kindChunk ∨ q.kind = kindAdapt then r.input.drop 16 else r.input
  let s := if q.kind = kindTree then s.drew else s
  (s.putReq { s.freed r with input := used }).countFlight

/-- The passes that enter a partition in one beat, in admission order: they share four lanes, and CHUNK passes of one
beat share a bucket (R319). -/
def State.admitN (p : Nat) : Nat → Nat → Option Nat → State → State
  | 0, _, _, s => s
  | fuel + 1, lanes, bucket, s =>
    match s.admissionOrder.find? fun r => r.part == p && s.passReady r with
    | none => s
    | some r =>
      let q := s.nextPass r
      let b := s.passBucket r q
      let s := s.lookAttended r.ctx
      if lanes < q.lanes ∨ (q.kind = kindChunk ∧ bucket.isSome ∧ bucket ≠ some b) then s
      else State.admitN p fuel (lanes - q.lanes) (if q.kind = kindChunk then some b else bucket) (s.admitOne r q)

/-! ## Publication (R295) -/

/-- The tokens of a block of a context's sequence: the history ends at position COMMITTED - 1, or with NEXT_TOKEN. -/
def Ctx.blockTokens (k : Ctx) (b : Nat) : Option (List Nat) :=
  let h := if k.nextToken.isSome then k.history.dropLast else k.history
  let back := k.committed - 64 * b
  if k.committed < 64 * b + 64 ∨ h.length < back then none else some ((h.drop (h.length - back)).take 64)

/-- The record that a publication may take: the first FREE or RETIRING one without references within 16 places. -/
def State.recordFor (s : State) (p : PartRec) (key : Nat) : Option Nat :=
  ((List.range 16).map fun i => (key + i) % p.bookNodes).find? fun n =>
    let st := s.bookNum p n 20 1
    st == 0 || (st == 3 && s.bookNum p n 12 4 == 0)

/-- A block of a context becomes the page of a node in every layer: its HOT entries turn SHARED, and `take` says whether
the node takes their slots or they are freed. -/
def State.shareBlock (s : State) (x p b n : Nat) (take : Bool) : State :=
  let r := s.residentOf x
  (s.kvLayers p).foldl (fun (s : State) l =>
    let s := s.lookMap l r
    match s.pageEntry l r b with
    | some (i, e) =>
      if e.state ≠ 1 then s
      else if take then
        (s.setBookSlot p l.tag n (some e.slot)).setMapEntry l r i { e with state := 2, node := n, fill := 64 }
      else
        match s.bookSlot p l.tag n with
        | none => s
        | some k => (s.markSlot l e.slot false).setMapEntry l r i { e with slot := k, state := 2, node := n, fill := 64 }
    | none => s) s

/-- One block published, when its parent is the context's deepest node and it is held HOT in every layer. -/
def State.publishBlock (s : State) (x b : Nat) : State :=
  let k := s.ctx x
  match s.part k.part, k.blockTokens b with
  | some p, some toks =>
    let s := (s.kvLayers k.part).foldl (fun (s : State) l => s.lookMap l (s.residentOf x)) (s.lookChain p k)
    let parent := k.bookNode.getD 0xFFFFFFFF
    let pkey := match k.bookNode with | none => 0 | some n => s.bookNum p n 0 8
    let joined := match k.bookNode with
      | none => b == 0
      | some n => s.bookNum p n 16 4 + 1 == b && k.bookFill == 64
    let hot := (s.kvLayers k.part).all fun l =>
      match s.pageEntry l (s.residentOf x) b with
      | some (_, e) => e.state == 1 && e.fill == 64
      | none => false
    if !joined || !hot || p.bookNodes = 0 || p.bookCore.isNone then s
    else
      let key := nodeKey pkey toks
      let s := (List.range 16).foldl (fun (s : State) i => s.lookBook p ((key + i) % p.bookNodes) 1) s
      let up := fun (s : State) (n : Nat) => s.setCtx x { s.ctx x with bookNode := some n, bookFill := 64 }
      match s.probe p key parent b toks 16 0 with
      | some n =>
        let s := s.addRefs p n 1
        up (s.shareBlock x k.part b n false) n
      | none =>
        match s.recordFor p key with
        | none => s.kvStat k.part Fl.SRV_KV_STAT_BOOK_FULL
        | some n =>
          let s := if s.bookNum p n 20 1 = 3 then s.freeNode k.part p n else s
          let c := p.bookCore.getD 0
          let rec' := leBytes 8 key ++ leBytes 4 parent ++ leBytes 4 1 ++ leBytes 4 b ++ leBytes 1 1 ++
            List.replicate 43 0 ++ wordsTo 4 64 toks
          let s := (s.store c (p.recordAt n) rec').shareBlock x k.part b n true
          up (s.setBookNum p n 20 1 2) n
  | _, _ => s

/-- What follows when every holder has applied a commit of a context: publication of the blocks it filled, and the
checkpoint (R295, R580). -/
def State.afterCommit (s : State) (x : Nat) : State :=
  let k := s.ctx x
  let wants := s.reqs.any fun r => r.ctx == x && r.started && r.runsPasses && r.publish
  let s := if wants && s.bookOn x && !k.adapter then
      (List.range (k.committed / 64)).foldl (fun (s : State) b => s.publishBlock x b) s
    else s
  s.checkpoint x

/-! ## Commit (R287, R317, R330, R333, R346) -/

/-- A commit notice sent to the host interface block, and what the host interface keeps of it: DUMP.FLT_CTL.STALL_MS takes
effect with it (R595). -/
def State.notify (s : State) (c x flags : Nat) (n : Notice) : State :=
  let s := s.sendPn nodeHost s.module c 0 (.commitNotice x n.seq n.tokens.length flags)
  let s := { s with faults.noticed := swrite (fun _ => none) s.faults.noticed (s.ctx x).part
                      (some (s.fld Reg.DUMP_FLT_CTL Fl.DUMP_FLT_CTL_STALL_MS, s.now)) }
  { s with notices := s.notices ++ [n] }

/-- The charge of a committed pass (R330). -/
def State.charge (s : State) (q : Pass) (emitted : Nat) : State :=
  let input := if q.kind = kindChunk then q.input.length else 0
  let steps := if q.kind = kindAdapt then q.input.length else 0
  s.addBalance q.tenant (-((s.fld Reg.SRV_COST Fl.SRV_COST_GEN * emitted + s.fld Reg.SRV_COST Fl.SRV_COST_PROMPT * input +
    s.fld Reg.SRV_COST Fl.SRV_COST_ADAPT * steps : Nat) : Int))

/-- How a pass ends at its commit: discarded with a park for a reason of R341 or with KV_FULL, or committed. The norm
monitor's park comes before the deadline's (R82), and of several parks the lowest reason is recorded (R344). -/
inductive PassEnd where
  | park (reason : Nat)
  | full
  | commit
  deriving DecidableEq, Repr

def State.passEnd (s : State) (q : Pass) : PassEnd :=
  if bitOf (sread (fun _ => 0) s.normActs q.ctx) 2 then .park 3
  else if q.late ∧ q.flags.testBit 4 then .park 4
  else if q.full then .full
  else .commit

/-- A pass leaves the pipeline. -/
def State.dropPass (s : State) (q : Pass) : State :=
  let s := { s with passes := s.passes.filter fun k => k.ctx != q.ctx, normActs := swrite (fun _ => 0) s.normActs q.ctx 0 }
  (s.setCtx q.ctx { s.ctx q.ctx with draws := 0 }).countFlight

/-- A pass discarded: its appends are rolled back by the operation `o`, nothing is emitted or charged; with a reason the
context parks and its request ends with the park (R81, R333), else the request ends KV_FULL. -/
def State.discardPass (s : State) (o : KvOp) (q : Pass) (reason : Option Nat) (norm : Bool) : State :=
  let pos := (s.ctx q.ctx).committed
  let s := s.dropPass q
  let body := fun (mask : Nat) => PnBody.kvRollback q.ctx o.tag mask pos false false
  let s := s.kvSend o (body (if q.kind = kindPlain then 0 else 0xFFFF))
  match s.findReq q.req, reason with
  | some r, some n =>
    let s := s.putReq { r with status := some cplParked, reason := n, late := r.late || q.late, norm := r.norm || norm }
    { s with host.parkDue := s.host.parkDue ++ [(q.ctx, n)] }
  | none, some n => { s with host.parkDue := s.host.parkDue ++ [(q.ctx, n)] }
  | some r, none =>
    s.notify o.core q.ctx 0 ⟨r.id, q.ctx, (s.ctx q.ctx).tokenSeq, [], q.late, norm, true, some cplKvFull, 0⟩
  | none, none => s

/-- The lowest child of node `i` whose token is `t`, of a tree's parent bytes and tokens (R325). -/
def childWith (par toks : List Nat) (i t : Nat) : Option Nat :=
  (List.range toks.length).find? fun c => par.getD c 0xFF == i && toks.getD c 0 == t
/-- The accepted path from node `i`, its nodes and the tokens emitted at them, by the tokens sampled in order (R325): it
ends at a token that no child carries, at the last token left, or at the STOP token. -/
def acceptFrom (par toks : List Nat) (stop : Nat) : List Nat → Nat → Nat → List Nat × List Nat
  | [], _, _ => ([], [])
  | t :: ts, left, i =>
    match childWith par toks i t with
    | none => ([i], [t])
    | some c =>
      if left ≤ 1 ∨ (t = stop ∧ stop ≠ 0xFFFFFFFF) then ([i], [t])
      else
        let r := acceptFrom par toks stop ts (left - 1) c
        (i :: r.1, t :: r.2)
/-- The path of a TREE pass, under the shape it was admitted with (R325, R354). -/
def Pass.accepted (q : Pass) : List Nat × List Nat :=
  acceptFrom q.shape q.input q.stop q.tokens q.left 0
/-- A pass committed by `o`, whose KV.COMMIT names `mask`: the entries it stores (R284), the tokens it emits, which for a TREE
pass are those of the accepted path (R325; log entry 74), the counters, the charge and the notice. From this commit on a
change of the KV registers is in force for the context (R305). -/
def State.commitPass (s : State) (o : KvOp) (q : Pass) (mask : Nat) (norm : Bool) : State :=
  let s := s.takeKv q.ctx
  let x := q.ctx
  let k := s.ctx x
  let adapt := q.kind == kindAdapt
  let stored := if adapt then 0 else if mask = 0 then 1 else (maskList 16 mask).length
  let most := if q.kind = kindPlain then 1 else if q.kind = kindTree then stored
    else if q.drawAt.isSome then 1 else 0
  let out := if q.kind = kindTree ∧ q.accepted.1 ≠ [] then q.accepted.2 else q.tokens.take (min most q.left)
  let stopped := out.contains q.stop && q.stop != 0xFFFFFFFF
  let s := s.dropPass q
  let body := if adapt then PnBody.kvRollback x o.tag 0xFFFF k.committed false true
    else PnBody.kvCommit x o.tag mask k.committed false (q.kind == kindTree)
  let fresh := if q.kind = kindChunk then (if k.nextToken.isSome then q.input.drop 1 else q.input) else []
  let hist := k.history ++ fresh ++ out
  let s := s.setCtx x { s.ctx x with
    committed := k.committed + stored, tokenSeq := k.tokenSeq + out.length, genPos := k.genPos + out.length
    nextToken := if adapt then k.nextToken else out.getLast?, history := if adapt then k.history else hist.drop (hist.length - 768)
    adaptSteps := if adapt then k.adaptSteps + 1 else k.adaptSteps, bank := if adapt then !k.bank else k.bank
    lastActive := s.hostTime }
  let s := s.charge q out.length
  let r := s.findReq q.req
  let more := match r with
    | none => true
    | some r => !({ r with drawn := r.drawn + out.length, stopped := stopped }).atEnd
  let s := match r with
    | none => s
    | some r => s.putReq { r with drawn := r.drawn + out.length, stopped := r.stopped || stopped }
  let s := match r with
    | none => s
    | some r => if more then s else s.keepLast r
  let stream := q.flags.testBit 0
  let flags := (if q.late then 1 else 0) + (if norm then 2 else 0) + (if more then 0 else 4)
  let s := s.notify o.core x flags
    ⟨q.req, x, k.tokenSeq, out, q.late, norm, !more || (stream && !out.isEmpty), if more then none else some cplOk,
      match r with | none => 0 | some r => s.fld (Reg.SRV_CLS_TBT r.cls) Fl.SRV_CLS_TBT_LIMIT⟩
  s.kvSend o body

/-- A KV.COMMIT or KV.ROLLBACK of a partition's HEAD core on its lead module decides the pass in flight (R287, R333,
R365). -/
def State.decides (s : State) (c : Nat) : Bool :=
  let b := sread (fun _ => (⟨0, 0, 0, 0, 0, 0, 0⟩ : CoreBind)) s.binds c
  b.flags.testBit 2

/-- An operation that has ended already is followed by what follows a commit. -/
def State.commitDone (s : State) (o : KvOp) : State :=
  if s.kvOps.any fun k => k.id == o.id then s else s.afterCommit o.ctx

/-- The commit of the pass in flight. -/
def State.decidePass (s : State) (o : KvOp) (q : Pass) (mask : Nat) : State :=
  let norm := bitOf (sread (fun _ => 0) s.normActs q.ctx) 0
  match s.passEnd q with
  | .park n => (s.discardPass o q (some n) norm).serveReqs
  | .full => (s.discardPass o q none norm).serveReqs
  | .commit => ((s.commitPass o q mask norm).commitDone o).serveReqs

/-! ## Acknowledgements (R261, R287) -/

/-- A holder's acknowledgement of an operation; with the last one its token completes, and what follows a commit is
done. -/
def State.kvAcked (s : State) (m : PnMsg) (x st : Nat) : State :=
  let t := s.takePn m.id
  let hit : KvOp → Bool := fun o => o.core == m.dest && o.tok == m.tag && o.ctx == x && o.acks.contains (m.srcModule, m.src)
  match t.kvOps.find? hit with
  | none => t
  | some o =>
    let left := o.acks.filter fun a => a != (m.srcModule, m.src)
    let worst := worseStatus o.worst st
    let put : KvOp → KvOp := fun k => if k.id = o.id then { k with acks := left, worst := worst } else k
    let t := { t with kvOps := t.kvOps.map put }
    if left.isEmpty then
      let t := t.kvDone { o with acks := left, worst := worst } worst
      if o.kind = .commit then t.afterCommit x else t
    else t

/-! ## Notices (R328, R329, R332) -/

/-- A pass's notice at the host interface: the latencies, the tokens written to OUT_ADDR, and the completion. -/
def State.noticeIn (s : State) (n : Notice) : State :=
  match s.findReq n.req with
  | none => s
  | some r =>
    let now := s.hostTime
    let count := n.tokens.length
    let first := r.ttft.isNone
    let interval := if first then 0 else now - r.lastAt
    let ttft := r.ttftLimit
    let tbt := n.tbt
    let (s, r) := if count = 0 then (s, r) else
      let s := if first ∧ ttft ≠ 0 ∧ ttft < now - r.t0 then
        s.bump (Reg.SRV_CLS_TTFT_VIOL r.cls) Fl.SRV_CLS_TTFT_VIOL_COUNT else s
      let s := if !first && tbt != 0 && decide (tbt * count < interval) then
        s.bump (Reg.SRV_CLS_TBT_VIOL r.cls) Fl.SRV_CLS_TBT_VIOL_COUNT else s
      let s := if r.outAddr = 0 then s
        else s.emit (.hostWrite (r.outAddr + 4 * r.emitted) (n.tokens.map fun t => leBytes 4 t).flatten)
      (s, { r with ttft := if first then some (now - r.t0) else r.ttft, lastAt := now
                   gap := if r.stream then interval else max r.gap interval
                   emitted := r.emitted + count, carry := r.carry ++ n.tokens
                   firstSeq := if r.carry.isEmpty then n.seq else r.firstSeq })
    let r := { r with late := if r.stream then n.late else r.late || n.late
                      norm := if r.stream then n.norm else r.norm || n.norm }
    match n.final with
    | some st => s.endReq r st
    | none =>
      if r.stream ∧ count ≠ 0 then
        let s := s.pushCompl r.queue ⟨s.complBytes r r.gap false r.late r.norm cplOk, false⟩
        s.putReq { r with carry := [] }
      else s.putReq r

/-- The HEAD core of a partition (R332). -/
def State.headCore (s : State) (p : Nat) : Option Nat :=
  (s.binds.find? fun b => b.2.flags.testBit 2 && s.bound b.1 && s.partOf b.1 == p).map fun b => b.1

end Sys2Proof.Machine
end

