-- ==== Sys2Proof/Machine/KvQueue.lean ====
section
/-! DEFINITION. The KV and TREE instructions: their queue, in which operations start in issue order, and what may start when
one ends (R238, R261, R262, R282 to R289). -/

namespace Sys2Proof.Machine

/-! ## Starting (R238) -/

/-- KV.COMMIT begins (R261, R284): only the HEAD core of the context's partition commits, and only on the partition's lead
module (R363, R444); it decides the pass in flight. Any other core's ends PARTITION too, as the spec gives it no status of its
own (DESIGN CHOICE, log entry 76). -/
def State.runCommit (s : State) (o : KvOp) : State :=
  let lead := match s.part (s.partOf o.core) with
    | none => false
    | some p => decide (p.modules.length ≤ 1) || p.lead == s.module
  if s.bound o.core && !lead then s.kvDone o stPartition
  else if !s.kvKnown o.core o.ctx then s.kvDone o stContext
  else if !s.decides o.core || (s.ctx o.ctx).part != s.partOf o.core then s.kvDone o stPartition
  else
    match s.passOf o.ctx with
    | some q => s.decidePass o q o.imm
    | none =>
      let s := s.takeKv o.ctx
      (s.kvSend o (.kvCommit o.ctx o.tag o.imm (s.ctx o.ctx).committed false false)).commitDone o

/-- An operation other than an append starts. -/
def State.kvStart (s : State) (o : KvOp) : State :=
  let mark : KvOp → KvOp := fun k => if k.id = o.id then { k with started := true } else k
  let s := { s with kvOps := s.kvOps.map mark }
  match o.kind with
  | .append => s
  | .commit => s.runCommit o
  | .rollback => s.runRollback o
  | .map => s.runMap o
  | .digest => s.runDigest o
  | .mask => s.runMask o
/-- The next operation that starts: the front one of its core that is no append, since an append ends at its own
KV_APPEND_COMPLETE. -/
def State.kvNext (s : State) : Option KvOp :=
  s.kvOps.find? fun o => o.kind != .append && s.kvFront o.core == some o
/-- Every operation that may start does, in issue order on each core: at most `fuel`. -/
def State.kvRunN : Nat → State → State
  | 0, s => s
  | fuel + 1, s =>
    match s.kvNext with
    | none => s
    | some o => State.kvRunN fuel (s.kvStart o)
def State.kvRun (s : State) : State := State.kvRunN s.kvOps.length s
/-- After any change: the requests that are due take their steps, and the KV operations that may start do. -/
def State.serve (s : State) : State := s.serveReqs.kvRun

/-! ## The instructions (R261, R262) -/

/-- A KV or TREE instruction puts its operation into the queue. -/
def State.kvEnter (s : State) (o : KvOp) : State := (s.kvPush o).kvRun

/-- KV.COMMIT (R261, R284). -/
def execKvCommit (c : CoreId) (f : UFmt) (s : State) : Out :=
  .next (s.settle (kvIssue 0x81 (immF f.imm 12 4 != 0) none c f
    (fun t => t.kvEnter (t.kvNew c f .commit 0 (immF f.imm 16 16) 0 0)) s))
/-- KV.ROLLBACK (R261, R286). -/
def execKvRollback (c : CoreId) (f : UFmt) (s : State) : Out :=
  .next (s.settle (kvIssue 0x82 (immF f.imm 12 4 != 0) none c f
    (fun t => t.kvEnter (t.kvNew c f .rollback 0 (immF f.imm 16 16) 0 0)) s))
/-- KV.MAP (R261, R288). -/
def execKvMap (c : CoreId) (f : UFmt) (s : State) : Out :=
  .next (s.settle (kvIssue 0x83 (immF f.imm 12 20 != 0)
    (firstCause [(rangeBad (s.a c.val f.as.val) 16, .pantryRange)]) c f
    (fun t => t.kvEnter (t.kvNew c f .map 0 0 0 0)) s))
/-- KV.DIGEST (R261, R289). -/
def execKvDigest (c : CoreId) (f : UFmt) (s : State) : Out :=
  .next (s.settle (kvIssue 0x84 false (firstCause [(rangeBad (s.a c.val f.as.val) 128, .pantryRange)]) c f
    (fun t => t.kvEnter (t.kvNew c f .digest 0 (immF f.imm 12 20) 0 0)) s))
/-- TREE.MASK (R262). -/
def execTreeMask (c : CoreId) (f : UFmt) (s : State) : Out :=
  let k := c.val
  let n := (s.g k f.gn.val).toNat
  let dst := s.a k f.ad.val
  .next (s.settle (kvIssue 0x90 (f.imm != 0)
    (firstCause [(rangeBad (s.a k f.as.val) n || rangeBad dst (2 * n), .pantryRange),
      (n == 0 || decide (16 < n), .length)]) c f
    (fun t => t.kvEnter (t.kvNew c f .mask 0 0 dst.toNat n)) s))

/-! ## Completions -/

/-- KV_APPEND_COMPLETE (R238, R282): the append at the front of a core's queue writes its last replica. -/
def execKvAppendComplete (c : CoreId) (t : TokId) (s : State) : Out :=
  .next (s.settle (match s.kvFront c.val with
    | none => s
    | some o => if o.kind = .append ∧ o.tok = t.val then (s.runAppend o).kvRun else s))

/-- LOFT_FETCH_COMPLETE (R301, R302, R536): a page from the Loft has come, or the access has failed, and the operations that
awaited it go on. -/
def execLoftFetchComplete (id : Nat) (ok : Bool) (data : List Byte) (s : State) : Out :=
  .next (s.settle (match s.loftFetches.find? fun q => q.id == id with
    | none => s
    | some q =>
      let t := ({ s with loftFetches := s.loftFetches.filter fun k => k.id != id }).pageIn q (ok && s.cacheOk) data
      let ready := t.kvOps.filter fun o => q.ops.contains o.id && !t.loftFetches.any fun k => k.ops.contains o.id
      (ready.foldl (fun (t : State) o => t.kvDone o stOk) t).kvRun))

/-- KV_ACK (R261): a holder's acknowledgement arrives. -/
def execKvAck (id : Nat) (s : State) : Out :=
  .next (s.settle (match s.findPn id with
    | none => s
    | some m =>
      match m.body with
      | .kvAck x st => (s.kvAcked m x st).serve
      | _ => s))

end Sys2Proof.Machine
end

