-- ==== Sys2Proof/Machine/Claims.lean ====
section
/-! DEFINITION. Claims (R263, R479), cues (R264, R481, R482), signals and their waits (R265), and timeouts (R211, R265). -/

namespace Sys2Proof.Machine

/-! ## Claims -/

/-- A claim of a core still queued when it issues another CLAIM or a RELEASE completes SUPERSEDED (R263). -/
def State.supersede (s : State) (c : Nat) : State :=
  let old := s.claimQ.filter fun q => q.core == c
  let s := { s with claimQ := s.claimQ.filter fun q => q.core != c }
  old.foldl (fun (s : State) q => s.tokComplete c q.tok stSuperseded) s

/-- A claim granted (R479, R482, R495): it replaces the held one, ends the core's reservation, counts, and starts the work
it gives leave for. -/
def State.grant (s : State) (q : ClaimReq) : State :=
  let c := q.core
  let s := { s with power.claimDrop := swrite (fun _ => none) s.power.claimDrop c none }
  let s := ((s.setClaim c q.bins q.engines).setReserved c 0).count (Reg.ARB_GRANTS (regionOf c))
  let s := if (sread (fun _ => none) s.power.busyFrom c).isSome then s
    else { s with power.busyFrom := swrite (fun _ => none) s.power.busyFrom c (some (s.aoc (regionOf c)).toNat) }
  (s.tokComplete c q.tok stOk).startEngines c

/-- Whether a claim may be granted (R478, R479): it lies within the effective ration, and the load with the rise fits the
cap. -/
def State.grantable (s : State) (q : ClaimReq) : Bool :=
  let r := regionOf q.core
  let load := s.loadOf r + s.reservedIn r (some q.core) + s.heavyCurrent r q.bins q.engines
  decide (q.bins ≤ s.rationBins q.core) && decide (q.engines ≤ s.rationEngines q.core) &&
    decide (load ≤ s.capOf r + s.claimCurrent q.core)

/-- Queued claims granted in strict order, as far as they fit (R479). -/
def State.grantLoop (r : Nat) : Nat → State → State
  | 0, s => s
  | fuel + 1, s =>
    match (s.claimQueue r).head? with
    | none => s
    | some q =>
      if s.grantable q then
        let t := { s with claimQ := s.claimQ.filter fun k => k.core != q.core }
        grantLoop r fuel (t.grant q)
      else s

/-- The arbiter's decision on its queue, with the weights that ARB.WEIGHT holds now (R502). -/
def State.arbitrate (s : State) (r : Nat) : State :=
  let s := if (s.claimQueue r).isEmpty then s else s.takeWeight r
  (State.grantLoop r (s.claimQueue r).length s).thrSync r

/-- What a CLAIM asks (R263): a rise of either count is an increase and is granted at once or queued; anything else
completes at once and takes effect when the heavy work in flight fits it. -/
def State.claimAsk (s : State) (c t bins engines : Nat) : State :=
  let r := regionOf c
  if bins ≤ s.binsGranted c ∧ engines ≤ s.engGranted c then
    let s := { s with power.claimDrop := swrite (fun _ => none) s.power.claimDrop c (some (bins, engines)) }
    ((s.tokComplete c t stOk).claimSettle c).thrSync r
  else
    let q : ClaimReq := ⟨c, bins, engines, t, s.now⟩
    let u := (State.arbitrate { s with claimQ := s.claimQ ++ [q] } r)
    if u.claimQ.any fun k => k.core == c then (u.bump (Reg.ARB_WAITS r) Fl.ARB_WAITS_COUNT) else u

/-- CLAIM (R263). -/
def execClaim (c : CoreId) (f : CFmt) (s : State) : Out :=
  let k := c.val
  let bins := immF f.imm 0 10
  let engines := immF f.imm 10 5
  let illegal := f.bad false || immF f.imm 15 17 != 0 || decide (24 < engines)
  let above := decide ((s.bind k).bins < bins) || decide ((s.bind k).engines < engines)
  .next (issue ⟨k, f.word 0x98, s.pcNext k, illegal, some f.tok.val, false,
      firstCause [(above, .ration)], false⟩ id
    (fun t => ((t.supersede k).tokIssue k f.tok.val).claimAsk k f.tok.val bins engines) s)

/-- RELEASE (R263, R495): the claim falls to zero once the heavy work in flight has ended, and the core's busy time ends. -/
def execRelease (c : CoreId) (f : CFmt) (s : State) : Out :=
  let k := c.val
  .next (issue ⟨k, f.word 0x99, s.pcNext k, f.bad false || f.tok != 0 || f.imm != 0, none, false, none, false⟩ id
    (fun t =>
      let u := t.supersede k
      let u := { u with power.claimDrop := swrite (fun _ => none) u.power.claimDrop k (some (0, 0)) }
      let u := match sread (fun _ => none) u.power.busyFrom k with
        | none => u
        | some from' => { u with
            power.busyFrom := swrite (fun _ => none) u.power.busyFrom k none
            power.busyLast := swrite (fun _ => 0) u.power.busyLast k ((u.aoc (regionOf k)).toNat - from') }
      (u.claimSettle k).thrSync (regionOf k)) s)

/-- CLAIM_GRANT (R479): the arbiter of a region decides on its queued claims. -/
def execClaimGrant (r : RegionId) (s : State) : Out := .next (s.arbitrate r.val)

/-- HEAVY_RESERVATION_EXPIRE (R482): a core's reservation lapses. -/
def execHeavyReservationExpire (c : CoreId) (s : State) : Out := .next (s.setReserved c.val 0)

/-! ## Cues -/

/-- A cue or a part of one that reaches no core (R264). -/
def State.cueDropped (s : State) (c : Nat) : State := s.setFld (Reg.SEQ_STAT c) Fl.SEQ_STAT_CUE_DROPPED 1

/-- CUE (R264): one message for each core named; a core number above 255 names none. Whether a part finds no way to another
module, or meets a core there in Retain, Dark or another partition, sets CUE_DROPPED too: the first is known here, the second a
free value, found as the cue issues (DESIGN CHOICE, log entry 53). -/
def execCue (c : CoreId) (f : CFmt) (s : State) : Out :=
  let k := c.val
  let count := immF f.imm 0 8
  let kind := immF f.imm 8 2
  let a := (s.g k f.ga.val).toNat % 2 ^ 48
  let illegal := f.bad false || f.tok != 0 || count == 0 || decide (16 < count) || kind == 3 || immF f.imm 25 7 != 0
  .next (issue ⟨k, f.word 0xA0, s.pcNext k, illegal, none, false, none, false⟩ id
    (fun t =>
      if 48 ≤ addrModule a ∨ !t.bound k then t.cueDropped k
      else (List.range count).foldl (fun (t : State) i =>
        if 255 < addrCore a + i then t.cueDropped k
        else
          let away := addrModule a != t.module
          let way := (t.promptPort (t.partOf k) (addrModule a) (addrCore a)).any fun n => t.portUp n
          let lost := away && (!way || Config.cueLost t.fresh i)
          let u := (if away then t.drew else t).sendAway (t.partOf k) (addrCore a + i) (addrModule a) k 0
            (.cue kind (immF f.imm 10 10) (immF f.imm 20 5))
          if lost then u.cueDropped k else u) t) s)

/-- Whether a Prompt message's sender is in the partition of core `c`: for a sender on another module, which the message
names without its partition, whether the partition spans that module (DEDUCED, log entry 32). -/
def State.pnSame (s : State) (m : PnMsg) (c : Nat) : Bool :=
  s.bound c &&
    (if m.srcModule = s.module then s.bound m.src && s.partOf m.src == s.partOf c
     else match s.part (s.partOf c) with
      | none => false
      | some p => p.modules.contains m.srcModule)

/-- A HEAVY cue's reservation (R482): the announced counts, limited to the effective ration and to what fits under the cap;
it replaces the core's earlier one. -/
def State.reserveHeavy (s : State) (c bins engines : Nat) : State :=
  let r := regionOf c
  let want := s.heavyCurrent r (min bins (s.rationBins c)) (min engines (s.rationEngines c))
  let used := s.loadOf r + s.reservedIn r (some c)
  s.setReserved c (min want (s.capOf r - used))

/-- PN_CUE (R264, R481, R482): a cue reaches a core; a WAKE brings it from Hold or Doze to Run and keeps one in Run awake,
a HEAVY reserves. -/
def execPnCue (id : Nat) (s : State) : Out :=
  .next (match s.findPn id with
    | none => s
    | some m =>
      match m.body with
      | .cue kind bins engines =>
        let c := m.dest
        let s := s.takePn id
        if 3 ≤ s.sleep c ∨ !s.pnSame m c then
          if m.srcModule = s.module then s.cueDropped m.src else s
        else
          let s := if kind = 1 then s else s.wake c
          if kind = 0 then s else s.reserveHeavy c bins engines
      | _ => s)

/-! ## Signals -/

def State.slotCount (s : State) (c k : Nat) : Nat := s.fld (Reg.SEQ_SIG c k) Fl.SEQ_SIG_COUNT

/-- The WAITs on a slot served in issue order: the oldest whose amount the slot holds takes it and completes OK, waking the
core (R205, R265). -/
def State.serveWaits (c k : Nat) : Nat → State → State
  | 0, s => s
  | fuel + 1, s =>
    match s.sigWaits.find? fun w => w.core == c && w.slot == k with
    | none => s
    | some w =>
      if w.amount ≤ s.slotCount c k then
        let t := (s.setFld (Reg.SEQ_SIG c k) Fl.SEQ_SIG_COUNT (s.slotCount c k - w.amount))
        let t := State.tokComplete { t with sigWaits := t.sigWaits.erase w } c w.tok stOk
        serveWaits c k fuel (if t.sleep c == 1 || t.sleep c == 2 then t.wake c else t)
      else s

/-- SIGNAL (R265): a message to the target's slot. An unbound sender completes PARTITION, a reserved address
BAD_ADDRESS (R11), and a target on another module with no way to it UNREACHABLE. -/
def execSignal (c : CoreId) (f : CFmt) (s : State) : Out :=
  let k := c.val
  let a := (s.g k f.ga.val).toNat
  .next (issue ⟨k, f.word 0xA8, s.pcNext k, f.bad true || f.imm == 0, some f.tok.val, f.join, none,
      decide (64 ≤ s.outstanding k)⟩ id
    (fun t =>
      let u := t.tokIssue k f.tok.val
      let away := addrModule a != u.module
      let port := u.promptPort (u.partOf k) (addrModule a) (addrCore a)
      if !u.bound k then u.tokComplete k f.tok.val stPartition
      else if addrReserved a then u.tokComplete k f.tok.val stBadAddress
      else if away && !((port.map fun n => u.portUp n).getD false) then
        (u.countUnreach).tokComplete k f.tok.val stUnreachable
      else
        let o : SigOut := ⟨u.nextId, k, f.tok.val⟩
        let u := { u with sigOuts := u.sigOuts ++ [o], nextId := u.nextId + 1 }
        u.sendAway (u.partOf k) (addrCore a) (addrModule a) k (o.id % 65536) (.signal f.win.val f.imm.toNat)) s)

/-- WAIT (R265). -/
def execWait (c : CoreId) (f : CFmt) (s : State) : Out :=
  let k := c.val
  let amount := ((s.g k f.ga.val).toNat + f.imm.toNat) % 2 ^ 32
  .next (issue ⟨k, f.word 0xA9, s.pcNext k, f.bad true, some f.tok.val, f.join, none, false⟩ id
    (fun t =>
      let u := t.tokIssue k f.tok.val
      let w : SigWait := ⟨k, f.win.val, amount, f.tok.val, u.flag (Reg.CORE_WAIT_LIMIT k) Fl.CORE_WAIT_LIMIT_LIMIT⟩
      State.serveWaits k f.win.val (u.sigWaits.length + 1) { u with sigWaits := u.sigWaits ++ [w] }) s)

/-- WAIT_TIMEOUT (R265): the oldest WAIT on a slot that CORE.WAIT_LIMIT bounds completes TIMEOUT. -/
def execWaitTimeout (c : CoreId) (slot : WinId) (s : State) : Out :=
  .next (match s.sigWaits.find? fun w => w.core == c.val && w.slot == slot.val && w.limited with
    | none => s
    | some w =>
      let t := State.tokComplete { s with sigWaits := s.sigWaits.erase w } c.val w.tok stTimeout
      State.serveWaits c.val slot.val t.sigWaits.length t)

/-- PN_SIGNAL (R265): a SIGNAL adds to a slot, which holds at its largest value, and is acknowledged; a core of another
partition answers PARTITION, one in Retain or Dark ASLEEP (one in Retain of another partition PARTITION, the lower code), and
a marked one UNREACHABLE. -/
def execPnSignal (id : Nat) (s : State) : Out :=
  .next (match s.findPn id with
    | none => s
    | some m =>
      match m.body with
      | .signal slot amount =>
        let c := m.dest
        let s := s.takePn id
        let st := if !s.pnSame m c then stPartition else if 3 ≤ s.sleep c then stAsleep
          else if s.coreBad c then stUnreachable else stOk
        let s := if st = stUnreachable then s.countUnreach else s
        let s := if st = stOk then
            State.serveWaits c slot s.sigWaits.length (s.bump (Reg.SEQ_SIG c slot) Fl.SEQ_SIG_COUNT amount)
          else s
        s.sendAway (s.partOf c) m.src m.srcModule c m.tag (.signalAck st)
      | _ => s)

/-- SIGNAL_ACK (R265): an acknowledgement completes the sender's token; after a timeout it is discarded. -/
def execSignalAck (id : Nat) (s : State) : Out :=
  .next (match s.findPn id with
    | none => s
    | some m =>
      match m.body with
      | .signalAck status =>
        let s := s.takePn id
        match s.sigOuts.find? fun o => o.core == m.dest && o.id % 65536 == m.tag with
        | none => s
        | some o => State.tokComplete { s with sigOuts := s.sigOuts.erase o } o.core o.tok status
      | _ => s)

/-! ## Timeouts -/

/-- NET_TIMEOUT (R211, R261, R265): a PUT, GET, SIGNAL or KV message whose answer has not returned within CORE.NET_LIMIT
completes TIMEOUT at its sender; the message itself goes on. -/
def execNetTimeout (id : Nat) (s : State) : Out :=
  .next (s.settle (match s.findNet id with
    | some m =>
      if m.orgModule = s.module ∧ m.kind ≠ .completion ∧ !m.timedOut then
        ((s.putNet { m with timedOut := true }).setFld (Reg.CORE_STAT m.orgCore) Fl.CORE_STAT_TX_TIMEOUT 1).tokComplete
          m.orgCore m.tok stTimeout
      else s
    | none =>
      match s.sigOuts.find? fun o => o.id == id with
      | some o => State.tokComplete { s with sigOuts := s.sigOuts.erase o } o.core o.tok stTimeout
      | none =>
        match s.kvOps.find? fun o => o.id == id && o.done.isNone &&
            (!o.acks.isEmpty || (o.kind == .append && s.kvFront o.core == some o)) with
        | some o => (s.kvDone o stTimeout).kvRun
        | none => s))

end Sys2Proof.Machine
end

