-- ==== Sys2Proof/Machine/Budget.lean ====
section
/-! DEFINITION. The caps of the regions (R488 to R490), in milliwatts and milliamperes, rounded down (DESIGN CHOICE, log
entry 33). -/

namespace Sys2Proof.Machine

/-! ## Regions, domains and feeds -/

/-- The regions in Run (R466, R500), and whether a domain is on (R460). -/
def State.runRegions (s : State) : List Nat := (List.range 16).filter fun r => s.inRun r
def State.domainOn (s : State) (d : Nat) : Bool := (s.rd Reg.PWR_DOMAIN_STAT).toNat.testBit d
def State.setDomain (s : State) (d : Nat) (on : Bool) : State :=
  s.setFld Reg.PWR_DOMAIN_STAT ⟨d, 1⟩ (if on then 1 else 0)
def State.feedAOk (s : State) : Bool := s.flag Reg.PWR_STAT Fl.PWR_STAT_FEED_A_OK
def State.feedBOk (s : State) : Bool := s.flag Reg.PWR_STAT Fl.PWR_STAT_FEED_B_OK

/-! ## What the images say -/

def State.imgRegion (s : State) (slot r : Nat) : Option RegionPower := sread (fun _ => none) s.power.imgPower (slot * 16 + r)
/-- The images loaded in a region. -/
def State.imgsIn (s : State) (r : Nat) : List RegionPower := (List.range 16).filterMap fun k => s.imgRegion k r
/-- DECLARED_W of a partition's image in a region. -/
def State.declaredIn (s : State) (p r : Nat) : Nat :=
  match s.part p with
  | none => 0
  | some q => ((s.imgRegion q.slot r).map RegionPower.declared).getD 0
/-- EXTRA_W of the phase records in force, divided among the regions of each partition in proportion to DECLARED_W (R483,
R519), in mW. -/
def State.phaseIn (s : State) (r : Nat) : Nat :=
  (List.range 16).foldl (fun a p =>
    let total := (List.range 16).foldl (fun b q => b + s.declaredIn p q) 0
    let x := sread (fun _ => (0, 0, false)) s.power.phases p
    if x.2.2 then a + 1000 * x.2.1 * s.declaredIn p r / total else a) 0

/-! ## The factor K (R489) -/

/-- Rail current and region draw over the last 100 samples; 1.2 A/W until there are samples. -/
def State.kFactor (s : State) (r : Nat) : Nat × Nat :=
  let h := (sread (fun _ => []) s.power.hist r).take 100
  let i := h.foldl (fun a x => a + x.rail) 0
  let p := h.foldl (fun a x => a + x.draw) 0
  if i = 0 ∨ p = 0 then (6, 5) else (i, p)
/-- A current in mA as watts of region draw, in mW, and back. -/
def State.toWatts (s : State) (r mA : Nat) : Nat := mA * (s.kFactor r).2 / (s.kFactor r).1
def State.toAmps (s : State) (r mW : Nat) : Nat := mW * (s.kFactor r).1 / (s.kFactor r).2

/-! ## The module budget (R455, R490, R496) -/

/-- SUSTAINED_W as the latest sample took it, with the shifts in force, at most 12,000 W. -/
def State.sustained (s : State) : Nat :=
  let shift := s.power.shifts.foldl (fun a x => a + x.watts) 0
  min 12000 ((s.power.sustainedNow : Int) + shift).toNat
/-- The watts that one feed alone can carry; none while both are in use. -/
def State.oneFeed (s : State) : Option Nat :=
  if s.feedAOk && s.feedBOk then none
  else if s.feedAOk then some (s.fld Reg.PWR_FEED_A Fl.PWR_FEED_A_VOLTS * 220 / 100)
  else if s.feedBOk then some (s.fld Reg.PWR_FEED_B Fl.PWR_FEED_A_VOLTS * 220 / 100)
  else none
/-- The power P before the other domains' draw, in W, and the reason of what cut it: 6 MODULE_BUDGET, 4 FEED or 7
HOST_CAP. -/
def State.available (s : State) : Nat × Nat :=
  let a := if s.flag Reg.PWR_STAT Fl.PWR_STAT_PEAK then s.power.peakNow else s.sustained
  let b := match s.oneFeed with
    | none => (a, 6)
    | some w => if w < a then (w, 4) else (a, 6)
  if s.power.capNow ≠ 0 ∧ s.power.capNow < b.1 then (s.power.capNow, 7) else b
/-- The draw of the LK, SP, HV and 12 V domains in the last sample, in W. -/
def State.otherDraw (s : State) : Nat :=
  (List.range 14).foldl (fun a i => a + s.fld (Reg.PWR_TEL (16 + i)) Fl.PWR_TEL_POWER) 0

/-- The base draw of a region's cores, in mW. -/
def State.baseDraw (s : State) (r : Nat) : Nat :=
  s.toWatts r ((List.range 16).foldl (fun a j => a + baseCurrent (s.sleep (16 * r + j))) 0)
/-- A region's floor (R490, step 2), in mW. -/
def State.floorOf (s : State) (r : Nat) : Nat :=
  max (1000 * (s.imgsIn r).foldl (fun a i => a + i.floor) 0) (s.baseDraw r)
/-- The rise that a region's queued claims ask for, in mA. -/
def State.queuedRise (s : State) (r : Nat) : Nat :=
  (s.claimQueue r).foldl (fun a q => a + (s.heavyCurrent r q.bins q.engines - s.claimCurrent q.core)) 0
/-- A region's demand above its floor (R490, step 3), in mW: base draw with granted, queued and reserved claims, and phase
records. -/
def State.demandOf (s : State) (r : Nat) : Nat :=
  if (s.imgsIn r).isEmpty then 0
  else s.toWatts r (s.loadOf r + s.queuedRise r + s.reservedIn r none) + s.phaseIn r - s.floorOf r
/-- The most that a region receives (R490, step 4), in mW; an image with cores in it and no ration record for it names no
CAP_W, and 830 W alone bounds it (DESIGN CHOICE, log entry 34). -/
def State.shareTop (s : State) (r : Nat) : Nat :=
  if (s.imgsIn r).isEmpty then s.baseDraw r
  else if (s.imgsIn r).any fun i => !i.capped then 830000
  else min 830000 (1000 * (s.imgsIn r).foldl (fun a i => a + i.cap) 0)
/-- A region's share of `p` watts (R490), in mW; with no demand anywhere the remainder is shared equally (DESIGN CHOICE,
log entry 34). -/
def State.shareOf (s : State) (p r : Nat) : Nat :=
  let rs := s.runRegions
  let floors := rs.foldl (fun a q => a + s.floorOf q) 0
  let rest := 1000 * (p - s.otherDraw) - floors
  let total := rs.foldl (fun a q => a + s.demandOf q) 0
  let part := if total = 0 then rest / rs.length else rest * s.demandOf r / total
  min (s.floorOf r + part) (s.shareTop r)

/-! ## A region's cap (R488, R489) -/

/-- The working converters of a region's segment (R459). -/
def State.converters (s : State) (r : Nat) : Nat :=
  ((List.range 4).filter fun i => !sread (fun _ => false) s.power.convBad (4 * r + i)).length
/-- The limits of a region with their reasons, in mW of region draw; the regulator scaling is apart. -/
def State.limitsOf (s : State) (r : Nat) : List (Nat × Nat) :=
  let p := s.available
  let full := s.shareOf (if s.flag Reg.PWR_STAT Fl.PWR_STAT_PEAK then s.power.peakNow else s.sustained) r
  let share := s.shareOf p.1 r
  let w := s.converters r
  [(830000, 0), (share, if share < full then p.2 else 6)] ++
    (if w < 4 then [(250000 * w - sread (fun _ => 0) s.power.shares r, 4)] else []) ++
    (match sread (fun _ => (0, 0)) s.power.thermal r with
      | (_, 0) => []
      | x => [x])
/-- The lower limit of two, and the lower reason code of equal ones. -/
def lowerLimit (a b : Nat × Nat) : Nat × Nat := if b.1 < a.1 ∨ (b.1 = a.1 ∧ b.2 < a.2) then b else a
/-- The lowest limit; with 5 to 8 failed regulators the cap is scaled by (48 − f) / 44 (R462). -/
def State.lowest (s : State) (r : Nat) : Nat × Nat :=
  let a := (s.limitsOf r).foldl lowerLimit (830000, 0)
  let f := s.fld (Reg.STG_REG_STAT r) Fl.STG_REG_STAT_FAILED
  if 5 ≤ f ∧ f ≤ 8 then (a.1 * (48 - f) / 44, 5) else a

/-- ARB.CAP of one region worked out (R489); a region in SAFE carries MODULE_BUDGET (R490). -/
def State.capRegion (s : State) (r : Nat) : State :=
  let a := s.lowest r
  let why := if s.flag (Reg.STG_REG_STAT r) Fl.STG_REG_STAT_SAFE then 6 else a.2
  ((s.setFld (Reg.ARB_CAP r) Fl.ARB_CAP_CAP_A (min 1000 (s.toAmps r a.1 / 1000))).setFld (Reg.ARB_CAP r)
    Fl.ARB_CAP_REASON why).thrSync r

/-- The caps of every region in Run worked out at once (R489). -/
def State.recap (s : State) : State :=
  let rs := s.runRegions
  let caps := rs.map fun r => (r, s)
  caps.foldl (fun (t : State) p =>
    let u := p.2.capRegion p.1
    (t.wr (Reg.ARB_CAP p.1) (u.rd (Reg.ARB_CAP p.1))).thrSync p.1) s

/-- The rate that an over-cap load needs (R489): the lowest of 1 in 8, 1 in 4 and 1 in 2 for which the load fits, as the
code of ARB.SKIP. -/
def State.neededSkip (s : State) (r : Nat) : Nat :=
  let l := s.loadOf r + s.reservedIn r none
  let cap := s.capOf r
  if l ≤ cap then 0 else if l * 7 ≤ cap * 8 then 1 else if l * 3 ≤ cap * 4 then 2 else 3

/-- REGION_SKIP_REVIEW (R489, R491): the skip rate of an over-cap load is reviewed; the input limit's skipping ends after
1 ms. -/
def execRegionSkipReview (r : RegionId) (s : State) : Out :=
  .next (if s.inRun r.val then
      let t := s.setSkip r.val skipCap (s.neededSkip r.val)
      if s.skipOf r.val skipInput ≠ 0 ∧ s.power.inputAt + 4000 ≤ s.now then t.setSkip r.val skipInput 0 else t
    else s)

/-- INPUT_LIMIT (R491): every region skips 1 in 2 for 1 ms with reason MODULE_BUDGET, and INPUT_LIMIT sets. -/
def execInputLimit (s : State) : Out :=
  .next ((State.setFld { s with power.inputAt := s.now } Reg.PWR_STAT Fl.PWR_STAT_INPUT_LIMIT 1) |> fun t =>
    t.runRegions.foldl (fun (u : State) r => u.setSkip r skipInput 3) t)

/-! ## Droop (R484, R485, R487) -/

def State.setDroop (s : State) (c x : Nat) : State :=
  State.thrSync { s with power.droop := swrite (fun _ => 0) s.power.droop c x } (regionOf c)

/-- DROOP_LEVEL (R484, R485): the worst monitor of a core crosses into a level; an entry from no skipping counts. -/
def execDroopLevel (c : CoreId) (lvl : Fin 4) (s : State) : Out :=
  .next (if s.droopOf c.val < lvl.val then
      let t := if s.droopOf c.val = 0 then s.bump (Reg.THR_DROOP (regionOf c.val) (c.val % 16)) Fl.THR_DROOP_COUNT else s
      t.setDroop c.val lvl.val
    else s)
/-- DROOP_STEP_DOWN (R485): the actuator steps down one level. -/
def execDroopStepDown (c : CoreId) (s : State) : Out := .next (s.setDroop c.val (s.droopOf c.val - 1))

end Sys2Proof.Machine
end

