-- ==== Sys2Proof/Machine/Log.lean ====
section
/-! DEFINITION. The drift log (R145 to R147). -/

namespace Sys2Proof.Machine

/-! ## The drift log (R145 to R147) -/

/-- The low 32 bits of the always-on counter of a bin's region. -/
def State.stampOf (s : State) (g : Nat) : Nat := (s.aoc (regionOf (g / 480))).toNat % 2 ^ 32
/-- Records a drift event that came at counter `stamp`: source and outcome by the codes of R146 and R147, `e` in 0.01 % of FS.
The action byte of a record that takes no action is 0 for TEMP_RANGE and the partition's ACTION for LABEL_LOSS (DESIGN CHOICE,
log entry 70). -/
def State.logDriftAt (s : State) (stamp g part source e action outcome : Nat) : State :=
  let c := g / 480
  let seq := s.fld Reg.CEL_DRIFT_HEAD Fl.CEL_DRIFT_HEAD_NEXT_SEQ
  let k := seq % 256
  let bs := leBytes 4 seq ++ leBytes 1 c ++ leBytes 2 (g % 480) ++ leBytes 1 (part % 16 + 16 * source) ++ leBytes 2 e ++
    leBytes 1 action ++ leBytes 1 outcome ++ leBytes 4 stamp
  let s := if (ringAt s.driftLog k).read then s else s.bump Reg.CEL_DRIFT_LOST Fl.CEL_DRIFT_LOST_COUNT
  let s := { s with driftLog := ringPut s.driftLog k bs }
  s.setFld Reg.CEL_DRIFT_HEAD Fl.CEL_DRIFT_HEAD_NEXT_SEQ (seq + 1)
/-- The same for an event that comes now. -/
def State.logDrift (s : State) (g part source e action outcome : Nat) : State :=
  s.logDriftAt (s.stampOf g) g part source e action outcome

end Sys2Proof.Machine
end

