-- ==== Sys2Proof/Machine/Quant.lean ====
section
/-! DEFINITION. Blocks of the formats KX and KA4, and their quantisation (R46 to R56). -/

namespace Sys2Proof.Machine

/-- A block of 32 codes with its e4m3 scale (R47, R53). -/
structure Block32 where
  scale : Nat
  codes : List Int
  deriving DecidableEq, Repr

/-- A block from its 17 bytes (R47). -/
def decodeBlock (bs : List Byte) : Block32 :=
  ⟨leAt bs 0 1, (bytesAt bs 1 16).flatMap fun b => [intOf 4 b.toNat, intOf 4 (b.toNat / 16)]⟩
/-- The 17 bytes of a block (R47). -/
def Block32.bytes (b : Block32) : List Byte :=
  BitVec.ofNat 8 b.scale ::
    (List.range 16).map fun k =>
      BitVec.ofNat 8 (((b.codes.getD (2 * k) 0) % 16).toNat + 16 * ((b.codes.getD (2 * k + 1) 0) % 16).toNat)
/-- The blocks of a byte string. -/
def decodeBlocks (n : Nat) (bs : List Byte) : List Block32 := (rowsOf 17 n bs).map decodeBlock
/-- A block is zero for R59: scale 0x00, or every code 0. -/
def Block32.zero (b : Block32) : Bool := b.scale == 0 || b.codes.all fun a => a == 0

/-- The level factor of a bin format (R46, R143). -/
def levelFactor (format : Nat) : Nat := if format = 1 then 2 else if format = 2 then 4 else 1
/-- The largest code magnitude of a bin format (R46). -/
def codeMag (format : Nat) : Nat := if format = 1 then 4 else if format = 2 then 2 else 8
/-- Whether a code lies in a format's range (R46, R48). -/
def codeOk (format : Nat) (v : Int) : Bool :=
  decide (-(codeMag format : Int) ≤ v) && decide (v < codeMag format)
/-- The cell level of a code (R46). -/
def levelOf (format : Nat) (v : Int) : Nat := (levelFactor format * v + 8).toNat

/-- The largest magnitude of finite values. -/
def amax (vs : List FVal) : FVal := vs.foldl (fun a v => if a.lt v.abs then v.abs else a) (.fin false 0 1)

/-- The scale of a block: amax / d rounded up to e4m3 and limited to 448; whether the limit applied (R50, R51, R54). -/
def blockScale (m : FVal) (d : Nat) : Nat × Bool :=
  match m with
  | .fin _ num den =>
    let c := fmtE4m3.roundMag .up num (den * d)
    if 0x7E < c then (0x7E, decide (448 * (den * d) < num)) else (c, false)
  | _ => (0, false)

/-- The nearest whole number of a value, with its sign. -/
def roundInt (r : Rnd) : FVal → Int
  | .fin n a b => if n then -(roundQ (r.onSide n) a b 0 : Int) else roundQ r a b 0
  | _ => 0

/-- A value clamped. -/
def clampInt (lo hi v : Int) : Int := if v < lo then lo else if hi < v then hi else v

/-- Quantisation of 32 finite values with divisor `d` and code range `lo` to `hi` (R50, R54): element `i` rounds with
`rnd i`. -/
def quantFinite (d : Nat) (lo hi : Int) (rnd : Nat → Rnd) (vs : List FVal) : Block32 × Bool :=
  let sc := blockScale (amax vs) d
  if sc.1 = 0 then (⟨0, List.replicate 32 0⟩, false)
  else
    (⟨sc.1, vs.zipIdx.map fun p => clampInt lo hi (roundInt (rnd p.2) (p.1.div (fmtE4m3.decode sc.1)))⟩, sc.2)

/-- Quantisation of one KA4 block under R54 and R55. -/
def quantKa4 (rnd : Nat → Rnd) (vs : List FVal) : Block32 × ConvFlags :=
  let vs := vs ++ List.replicate (32 - vs.length) (.fin false 0 1)
  if vs.all FVal.isFinite then
    let q := quantFinite 7 (-8) 7 rnd vs
    (q.1, ⟨false, false, false, q.2⟩)
  else (⟨0, List.replicate 32 0⟩, ⟨true, false, false, false⟩)

end Sys2Proof.Machine
end

