-- ==== Sys2Proof/Machine/Cellar.lean ====
section
/-! DEFINITION. The cellar: cells, labels, records, and the product of a rack (R95 to R105, R117, R118, R122 to R126,
R142, R143). A bin is numbered core × 480 + b, a rack 32 × bin + k, and both carry their owner's core in that number. -/

namespace Sys2Proof.Machine

/-! ## Cells and labels -/

/-- The core beneath which a bin lies, and its cellar die (R29). -/
def binCore (g : Nat) : Nat := g / 480
def binDie (g : Nat) : Nat := g / 3840

/-- The cell level at a row and a column of a bin; a cell nothing has programmed is at level 8, the level of code 0
(DESIGN CHOICE, log entry 20). -/
def State.cell (s : State) (g row col : Nat) : Nat := sread (fun _ => 8) s.cells ((g * 16384 + row) * 256 + col)
def State.setCell (s : State) (g row col v : Nat) : State :=
  { s with cells := swrite (fun _ => 8) s.cells ((g * 16384 + row) * 256 + col) v }

/-- The place of block `b` of a bin, 0 to 511, in a column. -/
def blockKey (g b col : Nat) : Nat := (g * 512 + b) * 256 + col
/-- The weight scale of a block (R122). -/
def State.scaleAt (s : State) (g b col : Nat) : Nat := (sread (fun _ => 0) s.scales (blockKey g b col)).toNat
/-- W_b in units of 1/16 level, D_b in levels; unlisted ones are those of 32 cells at level 8. -/
def State.wsum (s : State) (g b col : Nat) : Nat := sread (fun _ => 4096) s.wsums (blockKey g b col)
def State.dsum (s : State) (g b col : Nat) : Nat := sread (fun _ => 256) s.dsums (blockKey g b col)
/-- R_ic in units of 1/16 level, by row of the bin and 32-column segment. -/
def State.rsum (s : State) (g row c : Nat) : Nat := sread (fun _ => 4096) s.rsums ((g * 16384 + row) * 8 + c)
/-- The reference span that installation recorded, by rack, lane and segment. -/
def spanKey (rack lane seg : Nat) : Nat := (rack * 4 + lane) * 16 + seg
def State.span (s : State) (rack lane seg : Nat) : Nat := sread (fun _ => 0) s.spans (spanKey rack lane seg)
/-- The expected sums of a test pattern (R129), in level units, by half. -/
def testKey (g half pat col : Nat) : Nat := ((g * 2 + half) * 4 + pat) * 256 + col
def State.testSum (s : State) (g half pat col : Nat) : Int := sread (fun _ => 0) s.testSums (testKey g half pat col)
def State.envelope (s : State) (g col : Nat) : Option Envelope := sread (fun _ => none) s.envelopes (g * 256 + col)

/-! ## Records -/

def binRecZero : BinRec := ⟨0, 0, .uninstalled, 3, false, 0, 0, 0xFFFF, 0, 0, 0⟩
def State.binRec (s : State) (g : Nat) : BinRec := sread (fun _ => binRecZero) s.binRecs g
def State.setBinRec (s : State) (g : Nat) (r : BinRec) : State :=
  { s with binRecs := swrite (fun _ => binRecZero) s.binRecs g r }
def State.setBinState (s : State) (g : Nat) (x : BinState) : State := s.setBinRec g { s.binRec g with state := x }
def rackRecZero : RackRec := ⟨0, 0, 0, false, false, 0x8000⟩
def State.rackRec (s : State) (r : Nat) : RackRec := sread (fun _ => rackRecZero) s.rackRecs r
def State.setRackRec (s : State) (r : Nat) (x : RackRec) : State :=
  { s with rackRecs := swrite (fun _ => rackRecZero) s.rackRecs r x }

/-- The racks of a bin, or of a half of it (R96, R113). -/
def racksOf (g half : Nat) : List Nat :=
  (List.range (if half = 0 then 32 else 16)).map fun k => 32 * g + (if half = 2 then 16 else 0) + k

/-- What a bin's checking holds at first: the first period's set is due. -/
def checkZero : BinCheck := ⟨[none, none, none, none], 0, true, [], 0, none, none, none, none, 0⟩
def State.check (s : State) (g : Nat) : BinCheck := sread (fun _ => checkZero) s.binChecks g
def State.setCheck (s : State) (g : Nat) (k : BinCheck) : State :=
  { s with binChecks := swrite (fun _ => checkZero) s.binChecks g k }

def BinState.code : BinState → Nat
  | .inService => 0
  | .offline => 1
  | .refresh => 2
  | .uninstalled => 3

/-- The four words of a bin record (R143). -/
def BinRec.words (r : BinRec) : List Nat :=
  [r.layer + 2 ^ 12 * r.part + 2 ^ 16 * r.state.code + 2 ^ 18 * r.format + (if r.split then 2 ^ 20 else 0) +
      2 ^ 21 * r.chainLen + 2 ^ 23 * r.chainPos,
    r.lastErr + 2 ^ 16 * r.tvRuns, r.stEvents + 2 ^ 16 * r.recals, 0]
/-- The four words of a rack record (R142). -/
def RackRec.words (r : RackRec) : List Nat :=
  [r.satCount, r.labelCe + 2 ^ 16 * r.labelUe + (if r.refFault then 2 ^ 24 else 0) +
      (if r.labelFault then 2 ^ 25 else 0), r.refTrim, 0]

/-- The partition for which the loaded images name a bin, if any does (R253, R368). -/
def State.named (s : State) (g : Nat) : Option Nat := sread (fun _ => none) s.binMap g

/-- A bin goes OFFLINE; one that a loaded image names is recorded as BIN_LOST (R564, R583). -/
def State.offlineBin (s : State) (g : Nat) : State :=
  let s := s.setBinState g .offline
  match s.named g with
  | some p => s.logFault 0x46 (.core (binCore g)) (some p) outLogged (g % 480)
  | none => s

/-! ## Label words (R122, R123) -/

/-- The word of a rack's labels that holds an item. -/
def labScale (b col : Nat) : Nat := (b % 16 * 256 + col) / 8
def labW (b col : Nat) : Nat := 512 + (b % 16 * 256 + col) / 4
def labR (row c : Nat) : Nat := 1536 + (c * 512 + row % 512) / 4
def labD (b col : Nat) : Nat := 2560 + (b % 16 * 256 + col) / 4
def labSpan (lane seg : Nat) : Nat := 3584 + (lane * 16 + seg) / 4
def labTrim : Nat := 3600
def labTest (pat col : Nat) : Nat := 3601 + (pat * 256 + col) / 2
def labEnvelope (col : Nat) : Nat := 4113 + col * 12 / 8
def labMap : Nat := 4497
def labKey (rack w : Nat) : Nat := rack * 8192 + w

def State.labMark (s : State) (rack w : Nat) : LabelMark := sread (fun _ => .clean) s.labelEcc (labKey rack w)
def State.setLabMark (s : State) (k : Nat) (m : LabelMark) : State :=
  { s with labelEcc := swrite (fun _ => .clean) s.labelEcc k m }
def LabelMark.bad : LabelMark → Bool
  | .lost => true
  | .faulted => true
  | _ => false
def State.labBad (s : State) (rack w : Nat) : Bool := (s.labMark rack w).bad

/-- A label word read: a corrected error counts in LABEL_CE, an uncorrectable one in LABEL_UE with LABEL_FAULT, each
once; a lost span or trim sets REF_FAULT, a lost bin map entry takes the bin OFFLINE (R123). `unit` is the core whose
RACK block shows it. -/
def State.readLabel (s : State) (unit k : Nat) : State :=
  let rack := k / 8192
  let w := k % 8192
  let r := s.rackRec rack
  match sread (fun _ => LabelMark.clean) s.labelEcc k with
  | .upset =>
    ((s.setLabMark k .corrected).setRackRec rack { r with labelCe := min (r.labelCe + 1) 65535 }).setFld
      (Reg.RACK_STAT unit) Fl.RACK_STAT_LABEL_CE 1
  | .lost =>
    let isRef := decide (3584 ≤ w) && decide (w ≤ labTrim)
    let s := (s.setLabMark k .faulted).setRackRec rack
      { r with labelUe := min (r.labelUe + 1) 255, labelFault := true, refFault := r.refFault || isRef }
    let s := s.setFld (Reg.RACK_STAT unit) Fl.RACK_STAT_LABEL_UE 1
    let s := if isRef && !r.refFault then s.setFld (Reg.RACK_STAT unit) Fl.RACK_STAT_REF_FAULT 1 else s
    let s := s.logFault 0x4E (.core (rack / 15360)) (s.partField (rack / 15360)) outLogged (rack % 15360 / 32)
    if w = labMap then s.offlineBin (rack / 32)
    else if labMap < w || w < 3601 then s
    else
      s.logDrift (rack / 32) (s.binRec (rack / 32)).part 3 0xFFFF
        (s.fld (Reg.CEL_CHK_CTL (s.binRec (rack / 32)).part) Fl.CEL_CHK_CTL_ACTION) 9
  | _ => s

/-- Every label word that `p` selects, read. -/
def State.readLabels (s : State) (unit : Nat) (p : Nat → Bool) : State :=
  (s.labelEcc.filter fun e => p e.1).foldl (fun s e => s.readLabel unit e.1) s

/-- The words that a forward evaluation of a bin, or of a half of it, reads: its map entry, then scales, level sums, spans and
trims. -/
def isMapOf (g k : Nat) : Bool := k == labKey (32 * g) labMap
def isForwardOf (g half k : Nat) : Bool :=
  (racksOf g half).contains (k / 8192) && (decide (k % 8192 < 1536) || (decide (3584 ≤ k % 8192) && decide (k % 8192 ≤ labTrim)))
def isReverseOf (g k : Nat) : Bool :=
  k / 8192 / 32 == g && (decide (k % 8192 < 512) || (decide (1536 ≤ k % 8192) && decide (k % 8192 < 2560)) ||
    (decide (3584 ≤ k % 8192) && decide (k % 8192 ≤ labTrim)))
def isTestOf (g k : Nat) : Bool :=
  k / 8192 == 32 * g && decide (3601 ≤ k % 8192) && decide (k % 8192 < 4113)
def isEnvelopeOf (g k : Nat) : Bool :=
  k / 8192 == 32 * g && decide (4113 ≤ k % 8192) && decide (k % 8192 < labMap)
def isSumOf (g k : Nat) : Bool := k / 8192 / 32 == g && decide (2560 ≤ k % 8192) && decide (k % 8192 < 3584)

/-- A bin's item read without error, of the words that `p` selects. -/
def State.labelsOk (s : State) (p : Nat → Bool) : Bool := !s.labelEcc.any fun e => p e.1 && e.2.bad

/-- Label words rewritten: clean again; LABEL_FAULT of a rack clears when no faulted word of it is left (DEDUCED, log
entry 21). -/
def State.rewriteLabels (s : State) (g : Nat) (p : Nat → Bool) : State :=
  let s := { s with labelEcc := sclearIf s.labelEcc p }
  (racksOf g 0).foldl (fun s r =>
    if s.labelEcc.any fun e => e.1 / 8192 == r && e.2.bad then s
    else s.setRackRec r { s.rackRec r with labelFault := false }) s

/-- A rack has lost a word of its spans or its trim, and an evaluation has read it (R123). -/
def State.spanLost (s : State) (rack : Nat) : Bool :=
  s.labelEcc.any fun e => e.2 == .faulted && e.1 / 8192 == rack && decide (3584 ≤ e.1 % 8192) && decide (e.1 % 8192 ≤ labTrim)
/-- Every output of a bin is NaN: a rack has REF_FAULT, or has lost a span or its trim (R102, R123). -/
def State.binFaulty (s : State) (g : Nat) : Bool := (racksOf g 0).any fun r => (s.rackRec r).refFault || s.spanLost r

/-- A column of a bin, or of a half of it, delivers NaN: a lost word of its scales, W_b or D_b that an evaluation has read
(R123). -/
def State.colBad (s : State) (g half col : Nat) : Bool :=
  s.labelEcc.any fun e =>
    let w := e.1 % 8192
    e.2 == .faulted && (racksOf g half).contains (e.1 / 8192) &&
      ((decide (w < 512) && w * 8 % 256 / 8 == col / 8) ||
       (decide (512 ≤ w) && decide (w < 1536) && (w - 512) * 4 % 256 / 4 == col / 4) ||
       (decide (2560 ≤ w) && decide (w < 3584) && (w - 2560) * 4 % 256 / 4 == col / 4))

/-! ## The trim and the bound -/

/-- TEMP_TRIM of a cellar die, in units of 2^-40 (R125): 1.0, that of 25 °C, until the first telemetry sample (DESIGN CHOICE,
log entry 78). -/
def State.tempTrimOf (s : State) (die : Nat) : Int := sread (fun _ => (2 ^ 40 : Int)) s.tempTrim die
/-- Compensation of a bin (R126): COMP_EN of its partition, a change of which takes effect at the bin's next test run or window
end (R143). -/
def State.compOn (s : State) (g : Nat) : Bool :=
  (s.check g).compHeld.getD (s.flag (Reg.CEL_CHK_CTL (s.binRec g).part) Fl.CEL_CHK_CTL_COMP_EN)
/-- The trim T of a rack in units of 2^-55 (R99, R126). -/
def State.trim (s : State) (g rack : Nat) : Int :=
  if s.compOn g then (s.rackRec rack).refTrim * s.tempTrimOf (binDie g) else 2 ^ 55

/-- The installation thresholds of a partition, TV_LIMIT, MEAN_TOL and EDGE_TOL: those in the copy of the lowest-numbered
cellar die that reads without an uncorrectable error, else 200, 50 and 30 (R151). -/
def State.threshold (s : State) (p : Nat) : Nat × Nat × Nat :=
  match (List.range 32).find? fun die => !s.threshBad.contains (16 * die + p) with
  | none => (200, 50, 30)
  | some die => sread (fun _ => (200, 50, 30)) s.thresholds (16 * die + p)
/-- Thresholds recorded in the table of every die (R151). -/
def State.recordThresholds (s : State) (p : Nat) (l : Nat × Nat × Nat) : State :=
  (List.range 32).foldl (fun (s : State) die =>
    { s with
      thresholds := swrite (fun _ => (200, 50, 30)) s.thresholds (16 * die + p) l
      threshBad := s.threshBad.filter fun k => k != 16 * die + p }) s

/-- The temperature of a cellar die at the latest sample, in 0.01 °C (R125), 25 °C before the first (DESIGN CHOICE, log entry
78). -/
def State.trimTempOf (s : State) (die : Nat) : Int := sread (fun _ => (2500 : Int)) s.trimTemp die

/-- The conditions of R94 for the aged bound: a checking method enabled and limits no looser than the thresholds. -/
def State.checksHold (s : State) (p : Nat) : Bool :=
  let t := s.threshold p
  (s.flag (Reg.CEL_CHK_CTL p) Fl.CEL_CHK_CTL_TV_EN || s.flag (Reg.CEL_CHK_CTL p) Fl.CEL_CHK_CTL_ST_EN) &&
    decide (s.fld (Reg.CEL_CHK_LIMITS p) Fl.CEL_CHK_LIMITS_TV_LIMIT ≤ t.1) &&
    decide (s.fld (Reg.CEL_CHK_LIMITS p) Fl.CEL_CHK_LIMITS_MEAN_TOL ≤ t.2.1) &&
    decide (s.fld (Reg.CEL_CHK_LIMITS p) Fl.CEL_CHK_LIMITS_EDGE_TOL ≤ t.2.2)

/-- The bound of R93 that holds for a bin in draw `d`, its square in millionths: 0.4 % for a fresh array at 25 °C, 1.5 % for a
fresh one, 2.5 % for an aged one under R94; none with compensation off, out of 0 to 105 °C, or for a WORN bin (R94, R127,
R171). -/
def State.errBound (s : State) (d g : Nat) : Option Nat :=
  let p := (s.binRec g).part
  let w := sread (fun _ => (⟨0, false, false⟩ : Wear)) s.wear g
  if !s.compOn g || s.tempOut.contains (binDie g) || w.ue || decide (10000 < w.cycles) then none
  else if Config.freshArray d g then some (if s.trimTempOf (binDie g) = 2500 then 16 else 225)
  else if s.checksHold p then some 625
  else none
/-- The bound of a chain: the weakest of its bins, none where one has none. -/
def State.chainBound (s : State) (d : Nat) (gs : List Nat) : Option Nat :=
  gs.foldl (fun a g => match a, s.errBound d g with
    | some x, some y => some (max x y)
    | _, _ => none) (some 0)

/-! ## One block of one column (R97 to R104) -/

/-- A block partial: its block; the code and whether it was clamped; P as measured, in 1/16 level; P exactly; and s × t, as its
value and in units of 2^-20. -/
structure BlockOut where
  block : Nat
  code : Nat
  sat : Bool
  p16 : Int
  exact : Int
  st : FVal
  units : Int

/-- A quotient of a whole number rounded to the nearest whole number, ties to even. -/
def divRound (n : Int) (d : Nat) : Int :=
  let q := roundQ .even n.natAbs d 0
  if n < 0 then -(q : Int) else q

/-- The excess of a segment's delay over d₀ in draw `d`: κ × S and the remainder (R97). -/
def chainDelay (d rack place sum : Nat) : Int := (Config.kappa d rack).toNat * sum + Config.remainder d place
/-- The reference span of a segment: κ × 7,200 and the remainder (R98). -/
def refSpan (d rack lane seg : Nat) : Int := (Config.kappa d rack).toNat * 7200 + Config.refRemainder d (spanKey rack lane seg)
/-- A reference span as the labels hold it (R122). -/
def spanWord (d rack lane seg : Nat) : Nat := (clampInt 0 65535 (divRound (refSpan d rack lane seg) 7200)).toNat

/-- The code of a segment in draw `d` under trim `t`, before the clamp (R99): `sum` is S, `place` where it is measured. A
span that is not positive gives no ratio, and the code is then free. -/
def rawCode (d : Nat) (t : Int) (rack lane seg place sum : Nat) : Int :=
  let span := refSpan d rack lane seg
  if span ≤ 0 then Config.remainder d place
  else divRound (14400 * t * chainDelay d rack place sum) (2 ^ 55 * span.toNat)
/-- The clamp of R99 and R101. -/
def clampCode (raw : Int) : Nat := (clampInt 0 15264 raw).toNat

/-- The e4m3 value of a scale in units of 2^-10, and as a value. -/
def scaleUnits (c : Nat) : Int := match fmtE4m3.decode c with | .fin n a _ => if n then -(a : Int) else a | _ => 0

/-- The offset correction (R103) in 1/16 level, from the code, the level sum of the cells and that of the drive. -/
def correct (code sum16 drive : Nat) : Int := 8 * (code : Int) - 8 * (sum16 : Int) - 128 * (drive : Int) + 32768

/-- Drive levels of a block's codes, their sum, and the exact sums that they give with cell levels. -/
def driveSum (codes : List Int) : Nat := codes.foldl (fun a v => a + (v + 8).toNat) 0
def levelProduct (codes : List Int) (level : Nat → Nat) : Nat :=
  codes.zipIdx.foldl (fun a p => a + (p.1 + 8).toNat * level p.2) 0
def exactProduct (codes : List Int) (level : Nat → Nat) : Int :=
  codes.zipIdx.foldl (fun a p => a + p.1 * ((level p.2 : Int) - 8)) 0

/-- The partial of block `b` of column `col` of a bin for draw `d` in a lane; none where R59 discards the block.
`ideal` gives the exact product in place of the measured one. -/
def State.blockOut (s : State) (d : Nat) (ideal : Bool) (g lane b col : Nat) (x : Block32) : Option BlockOut :=
  let sc := s.scaleAt g b col
  if x.zero || sc == 0 then none
  else
    let rack := 32 * g + b / 16
    let level := fun i => s.cell g (32 * b + i) col
    let exact := exactProduct x.codes level
    let sum := levelProduct x.codes level
    let raw := if ideal then 2 * (sum : Int)
      else rawCode d (s.trim g rack) rack lane (b % 16) (spanKey rack lane (b % 16) * 256 + col) sum
    let code := clampCode raw
    some ⟨b, code, decide ((code : Int) ≠ raw),
      if ideal then 16 * exact else correct code (s.wsum g b col) (driveSum x.codes), exact,
      (fmtE4m3.decode sc).mul (fmtE4m3.decode x.scale), scaleUnits sc * scaleUnits x.scale⟩

/-- The partials of a column of a bin, or of a half of it, in ascending order of block. -/
def State.column (s : State) (d : Nat) (ideal : Bool) (g half lane col : Nat) (xs : List Block32) : List BlockOut :=
  let b0 := if half = 2 then 256 else 0
  xs.zipIdx.filterMap fun p => s.blockOut d ideal g lane (b0 + p.2) col p.1

/-- The value of a whole number of 1/16 levels. -/
def sixteenths (p : Int) : FVal := .fin (decide (p < 0)) p.natAbs 16

/-- One term of R58, rounded to FP32. -/
def BlockOut.term (fmt : Nat) (o : BlockOut) : Word :=
  toFp32 ((o.st.mul (sixteenths o.p16)).div (FVal.ofInt (levelFactor fmt)))
/-- The output of a column (R58), its terms added in the free order of draw `d`. -/
def columnSum (d fmt : Nat) (os : List BlockOut) : Word := fsum (freeOrder d (os.map (BlockOut.term fmt)))
/-- The exact value of R58, and the square of FS (R92), of a column. -/
def columnExact (fmt : Nat) (os : List BlockOut) : FVal :=
  let n := os.foldl (fun a o => a + o.units * o.exact) 0
  .fin (decide (n < 0)) n.natAbs (2 ^ 20 * levelFactor fmt)
def columnScale2 (fmt : Nat) (os : List BlockOut) : FVal :=
  .fin false (codeMag fmt ^ 2 * 2048 * (os.foldl (fun (a : Int) o => a + o.units * o.units) 0).natAbs) (2 ^ 40)

/-! ## Test patterns (R129, R130) -/

/-- One step of the 32-bit Galois LFSR with polynomial x^32 + x^22 + x^2 + x + 1, shifting right (DESIGN CHOICE, log
entry 22). -/
def lfsrStep (v : Word) : Word := if v.getLsbD 0 then (v >>> 1) ^^^ 0x80200003#32 else v >>> 1
/-- The next `n` codes of the LFSR: its low 4 bits, then one step (which 4 bits, and that they are taken before the step:
DESIGN CHOICE, log entry 22). -/
def lfsrCodes : Nat → Word → List Int
  | 0, _ => []
  | n + 1, v => intOf 4 v.toNat :: lfsrCodes n (lfsrStep v)
/-- The seed of a pattern (R129): half 0 stands for a whole bin too. -/
def patternSeed (g half pat : Nat) : Word :=
  BitVec.ofNat 32 (binCore g * 65536 + g % 480 * 4 + pat + 1 + 32768 * half)
/-- The halves of a bin that patterns run on, with the code of R251 and the number of blocks. -/
def patternHalves (split : Bool) : List (Nat × Nat × Nat) := if split then [(0, 1, 256), (1, 2, 256)] else [(0, 0, 512)]
/-- The blocks that a pattern drives: KA4 codes with unit scales. -/
def patternBlocks (g half pat n : Nat) : List Block32 :=
  (rowsOf 32 n (lfsrCodes (32 * n) (patternSeed g half pat))).map fun cs => ⟨0x38, cs⟩

/-! ## What an evaluation leaves behind (R101, R102, R651) -/

/-- Racks with a clamped code in a lane count it, once each (R101, R142). -/
def State.countClamps (s : State) (unit : Nat) (racks : List Nat) : State :=
  racks.foldl (fun (s : State) r =>
    ((s.setRackRec r { s.rackRec r with satCount := min ((s.rackRec r).satCount + 1) (2 ^ 32 - 1) }).bump
      (Reg.RACK_SAT_TOTAL unit) Fl.RACK_SAT_TOTAL_COUNT).setFld (Reg.RACK_STAT unit) Fl.RACK_STAT_SAT_SEEN 1) s
/-- The racks of a bin, or of a half of it, in which the partials of the columns hold a clamped code. -/
def clampedRacks (g half : Nat) (cols : List (List BlockOut)) : List Nat :=
  (racksOf g half).filter fun r => cols.any fun os => os.any fun o => o.sat && o.block / 16 == r % 32

/-- The lanes that an evaluation drives find the reference spans of the racks; one outside 0.5 to 2.0 times the
recorded span sets REF_FAULT (R102). -/
def State.checkSpans (s : State) (d unit : Nat) (racks lanes : List Nat) : State :=
  racks.foldl (fun s r =>
    let bad := lanes.any fun l => (List.range 16).any fun seg =>
      let m := spanWord d r l seg
      decide (2 * m < s.span r l seg) || decide (2 * s.span r l seg < m)
    if bad && !(s.rackRec r).refFault then
      (s.setRackRec r { s.rackRec r with refFault := true }).setFld (Reg.RACK_STAT unit) Fl.RACK_STAT_REF_FAULT 1
    else s) s

/-- The code word of R100 for block `b` of a column. -/
def State.captureWord (s : State) (d g lane b col : Nat) (x : Block32) (skipped : Bool) : Nat :=
  match (if skipped then none else s.blockOut d false g lane b col x) with
  | none => 0x8000
  | some o => o.code + (if o.sat then 0x4000 else 0)

/-- An armed capture completes at a forward evaluation of its rack that enables its lane (R651). `xs` are the blocks of
bin `g` from block `b0` on; the words of a lane whose input was poisoned are free (DESIGN CHOICE, log entry 70). -/
def State.capture (s : State) (d unit g half lane : Nat) (poisoned : Bool) (xs : List Block32) : State :=
  let r := Reg.RACK_CAPTURE_CTL unit
  let rack := g / 480 * 15360 + s.fld r Fl.RACK_CAPTURE_CTL_RACK
  let col := s.fld r Fl.RACK_CAPTURE_CTL_COLUMN
  if s.flag r Fl.RACK_CAPTURE_CTL_ARM && s.fld r Fl.RACK_CAPTURE_CTL_LANE == lane && (racksOf g half).contains rack then
    let b0 := if half = 2 then 256 else 0
    let w := fun seg =>
      let b := rack % 32 * 16 + seg
      if poisoned then (Config.poisonedCode d seg).toNat
      else s.captureWord d g lane b col (xs.getD (b - b0) ⟨0, []⟩) (xs.all Block32.zero)
    let t := (List.range 8).foldl (fun (t : State) n =>
      t.wr (Reg.RACK_CAPTURE_DATA unit n) (BitVec.ofNat 64 (w (2 * n) + 65536 * w (2 * n + 1)))) s
    (t.setFld r Fl.RACK_CAPTURE_CTL_ARM 0).setFld r Fl.RACK_CAPTURE_CTL_DONE 1
  else s

/-! ## A pattern as an evaluation (R129, R130) -/

/-- What a pattern measures in the columns of a half less what it should, squared and summed, in units of 1/256 level
squared; a column that delivers NaN counts a free value (DESIGN CHOICE, log entry 70). -/
def State.patternErr (s : State) (d g half pat : Nat) (code : Nat) (cols : List (List BlockOut)) : Nat :=
  cols.zipIdx.foldl (fun a p =>
    a + if s.binFaulty g || s.colBad g code p.2 then Config.lostError d (g * 256 + p.2)
      else ((p.1.foldl (fun (a : Int) (o : BlockOut) => a + o.p16) 0 - 16 * s.testSum g half pat p.2) ^ 2).natAbs) 0

/-- One pattern of a bin measured in a lane, half by half where the bin is split: an evaluation that reads the bin's labels,
finds its spans, completes a capture and counts clamped codes; with it the sum of the squared errors. -/
def State.measurePattern (s : State) (unit g lane pat : Nat) : State × Nat :=
  let d := s.fresh
  let s := ((s.drew).readLabels unit (isForwardOf g 0)).checkSpans d unit (racksOf g 0) [lane]
  (patternHalves (s.binRec g).split).foldl (fun (a : State × Nat) h =>
    let xs := patternBlocks g h.1 pat h.2.2
    let cols := (List.range 256).map fun col => s.column d false g h.2.1 lane col xs
    ((a.1.capture d unit g h.2.1 lane false xs).countClamps unit (clampedRacks g h.2.1 cols),
      a.2 + s.patternErr d g h.1 pat h.2.1 cols)) (s, 0)

/-- The mean of e_p^2 over four patterns is `n` in units of (1/16 level)^2 over this divisor (R130). The halves of a split bin
give one e_p: N is 8,192 and the mean runs over the 256 columns of both (DESIGN CHOICE, log entry 70). -/
def errDivisor (split : Bool) : Nat :=
  4 * (if split then 512 else 256) * 256 * 4096 * (if split then 8192 else 16384)
/-- The test error e in 0.01 % of FS, to nearest. -/
def testError (split : Bool) (n : Nat) : Nat :=
  min 65534 ((isqrt (4 * (n * 10 ^ 8) / errDivisor split) 40 0 + 1) / 2)
/-- Whether e exceeds a limit in 0.01 % of FS. -/
def testHigh (split : Bool) (n limit : Nat) : Bool := decide (limit ^ 2 * errDivisor split < n * 10 ^ 8)

end Sys2Proof.Machine
end

