-- ==== Sys2Proof/Machine/Drift.lean ====
section
/-! DEFINITION. Checking and drift actions: test sets, statistical events, recalibration and refresh (R129 to R140). -/

namespace Sys2Proof.Machine

/-! ## The configuration that checks go by (R143) -/

/-- CHK_CTL and CHK_LIMITS of a bin's partition as registers hold them. -/
def State.chkRegs (s : State) (g : Nat) : DWord × DWord :=
  (s.rd (Reg.CEL_CHK_CTL (s.binRec g).part), s.rd (Reg.CEL_CHK_LIMITS (s.binRec g).part))
/-- The same as the bin's test runs and its window go by: a committed change takes effect at its next test run or window end
(R143). A set of patterns is one test run (DESIGN CHOICE, log entry 70). -/
def State.testRegs (s : State) (g : Nat) : DWord × DWord := (s.check g).testHeld.getD (s.chkRegs g)
def State.winRegs (s : State) (g : Nat) : DWord × DWord := (s.check g).winHeld.getD (s.chkRegs g)
/-- The same of the set that RACK.TEST runs. -/
def State.askRegs (s : State) (g : Nat) : DWord × DWord := (s.check g).askHeld.getD (s.chkRegs g)
/-- ACTION and TV_LIMIT of a configuration. -/
def actionOf (r : DWord × DWord) : Nat := Fl.CEL_CHK_CTL_ACTION.get r.1
def limitOf (r : DWord × DWord) : Nat := Fl.CEL_CHK_LIMITS_TV_LIMIT.get r.2
def compOf (r : DWord × DWord) : Bool := Fl.CEL_CHK_CTL_COMP_EN.get r.1 == 1
def State.tvEn (s : State) (g : Nat) : Bool := Fl.CEL_CHK_CTL_TV_EN.get (s.testRegs g).1 == 1
def State.stEn (s : State) (g : Nat) : Bool := Fl.CEL_CHK_CTL_ST_EN.get (s.winRegs g).1 == 1
def State.quietOn (s : State) (g : Nat) : Bool := Fl.CEL_CHK_CTL_QUIET.get (s.testRegs g).1 == 1
def State.chkAction (s : State) (g : Nat) : Nat := actionOf (s.testRegs g)
def State.tvLimit (s : State) (g : Nat) : Nat := limitOf (s.testRegs g)

/-- A commit of the checking configuration leaves the sets and windows of a bin that are under way with `old`, and the bin with
its COMP_EN until its next test run or window end. -/
def State.holdChk (s : State) (g : Nat) (old : DWord × DWord) : State :=
  let k := s.check g
  let hold := fun (run : Bool) (h : Option (DWord × DWord)) => if run && h.isNone then some old else h
  s.setCheck g { k with
    testHeld := hold (k.errs.any Option.isSome) k.testHeld
    askHeld := hold (k.asked.any Option.isSome) k.askHeld
    winHeld := hold (decide (0 < k.winCount)) k.winHeld
    compHeld := if k.compHeld.isNone && compOf old != compOf (s.chkRegs g) then some (compOf old) else k.compHeld }
/-- A test run of a bin begins: COMP_EN as committed acts from now on. -/
def State.testStart (s : State) (g : Nat) : State := s.setCheck g { s.check g with compHeld := none }

/-- A bin is in service. -/
def State.inService (s : State) (g : Nat) : Bool := (s.binRec g).state == .inService
/-- The expected sums of a bin are not lost (R123). -/
def State.testsOk (s : State) (g : Nat) : Bool := s.labelsOk (isTestOf g)

/-! ## Drift actions (R136, R140) -/

/-- An action on the bin is pending. -/
def State.actPending (s : State) (g : Nat) : Bool :=
  (s.driftActs.any fun a => a.bin == g) || (s.refreshQ.any fun a => a.bin == g)

/-- A drift event of a bin with test error `e` takes the action `act`, or merges (R136, R140). -/
def State.driftEvent (s : State) (g e source act : Nat) : State :=
  let r := s.binRec g
  if r.state == .refresh || r.state == .offline || s.actPending g then s.logDrift g r.part source e act 8
  else if act = 0 then s.logDrift g r.part source e act 0
  else if act = 2 then
    State.logDrift { s with refreshQ := s.refreshQ ++ [⟨g, source, act, false, e, s.stampOf g⟩] } g r.part source e act 3
  else { s with driftActs := s.driftActs ++ [⟨g, source, act, false, e, s.stampOf g⟩] }

/-- The sum of a complete set's squared errors. -/
def setSum (errs : List (Option Nat)) : Nat := errs.foldl (fun a e => a + e.getD 0) 0

/-- A bin's record after a pattern set with the sum `n` (R143). -/
def State.recordSet (s : State) (g n : Nat) : State :=
  let r := s.binRec g
  s.setBinRec g { r with lastErr := testError r.split n, tvRuns := min (r.tvRuns + 1) 65535 }

/-- The end of a pattern set under the configuration `q`: the record, then the drift event of an error above TV_LIMIT; a
statistical event that the patterns do not confirm is logged UNCONFIRMED (R130, R135, R136). -/
def State.endSet (s : State) (g n source : Nat) (q : DWord × DWord) : State :=
  let r := s.binRec g
  let s := s.recordSet g n
  if testHigh r.split n (limitOf q) then s.driftEvent g (testError r.split n) source (actionOf q)
  else if source = 1 then s.logDriftAt (s.check g).eventAt g r.part 1 (testError r.split n) (actionOf q) 7
  else s

/-- The set that is due ends with the sum `n`: the period's set with it, and the configuration committed meanwhile acts from
now on (R131, R140, R143). -/
def State.closeSet (s : State) (g n : Nat) : State :=
  let k := s.check g
  let s := s.endSet g n k.source (s.testRegs g)
  s.setCheck g { s.check g with errs := [], source := 0, owed := false, testHeld := none, eventAt := 0 }

/-- One pattern of the set that is due, measured in a lane; the fourth ends the set. Lost expected sums stop it. -/
def State.runPattern (s : State) (unit g lane pat : Nat) : State :=
  let s := s.readLabels unit (isTestOf g)
  if !s.testsOk g then s else
  let s := if (s.check g).errs.any Option.isSome then s else s.testStart g
  let r := s.measurePattern unit g lane pat
  let s := r.1
  let k := s.check g
  let errs := k.errs.set pat (some r.2)
  let s := s.setCheck g { k with errs := errs }
  if errs.length = 4 ∧ errs.all Option.isSome then s.closeSet g (setSum errs) else s

/-- A set of patterns is due: a periodic one while TV_EN is 1, or one that a statistical event or ACT_TEST asks for. -/
def State.setDue (s : State) (g : Nat) : Bool :=
  (s.check g).errs.any Option.isNone && (s.tvEn g || (s.check g).source != 0)
/-- The patterns of the set that is due and still to run, none where checking is off or cannot run (R131). -/
def State.duePatterns (s : State) (g : Nat) : List Nat :=
  if s.inService g && s.setDue g then (List.range 4).filter fun p => (s.check g).errs.getD p (some 0) == none
  else []

/-- All four patterns of a bin measured in lanes 0 to 3, a test run: the sum of their squared errors, none where an expected sum
is lost (R123). RACK.EVAL_COUNT does not count them (DESIGN CHOICE, log entry 78). -/
def State.fullSet (s : State) (unit g : Nat) : State × Option Nat :=
  let s := (s.testStart g).readLabels unit (isTestOf g)
  if !s.testsOk g then (s, none)
  else
    let r := (List.range 4).foldl (fun (a : State × Nat) p =>
      let r := a.1.measurePattern unit g p p
      (r.1, a.2 + r.2)) (s, 0)
    (r.1, some r.2)

/-- The region of a bin's core is in Run: its racks, powered with it, can be evaluated (R32). -/
def State.rackPower (s : State) (g : Nat) : Bool := s.inRun (regionOf (binCore g))

/-- QUIET_SLOT_PATTERN (R131, R135): a pattern of the period's set fires on its own in a bin in service with no fire queued or
in flight, while the region is in Run; it counts as an evaluation. A set that confirms a statistical event or that ACT_TEST
asked for has riding lanes only. It is a bin in flight for as long as the command takes, and fires only where the core's
granted claim has room for it (R476, R477). -/
def execQuietSlotPattern (c : CoreId) (b : BinId) (pat : Fin 4) (s : State) : Out :=
  let g := c.val * 480 + b.val
  let busy := s.fires.any fun f => f.groups.any fun q => decide (q.bin ≤ g) && decide (g < q.bin + q.size)
  .next (if s.rackPower g && s.quietOn g && s.tvEn g && (s.check g).owed && (s.check g).source == 0 &&
      (s.duePatterns g).contains pat.val && !busy && decide (s.binsInFlight c.val + 1 ≤ s.binsGranted c.val) then
      let s := { s with quietAt := swrite (fun _ => none) s.quietAt g (some s.now) }
      (s.count (Reg.RACK_EVAL_COUNT c.val)).runPattern c.val g 0 pat.val
    else s)

/-- TEST_PERIOD_EXPIRE (R132): a bin whose period's set is not complete counts in CHK_OVERDUE and stays due; any other begins
its next set, which a set that is due for another reason serves too. -/
def execTestPeriodExpire (c : CoreId) (b : BinId) (s : State) : Out :=
  let g := c.val * 480 + b.val
  let r := s.binRec g
  let k := s.check g
  .next (if !s.tvEn g || r.state == .uninstalled then s
    else if k.owed then s.bump (Reg.CEL_CHK_OVERDUE r.part) Fl.CEL_CHK_OVERDUE_COUNT
    else if s.setDue g then s.setCheck g { k with owed := true }
    else s.setCheck g { k with errs := [none, none, none, none], source := 0, owed := true })

/-- ACT_TEST_RUN (R81, R131, R140): a request of the norm monitor makes the four patterns of every bin of the core with the
layer tag due, in riding lanes only; a set that is due already serves the request. -/
def execActTestRun (c : CoreId) (layer : BitVec 16) (s : State) : Out :=
  .next (if s.actTests.contains (c.val, layer.toNat) then
      let s := { s with actTests := s.actTests.filter fun q => q != (c.val, layer.toNat) }
      (List.range 480).foldl (fun (s : State) b =>
        let g := c.val * 480 + b
        if (s.binRec g).layer = layer.toNat ∧ s.inService g = true ∧ s.setDue g = false then
          s.setCheck g { s.check g with errs := [none, none, none, none], source := 2 }
        else s) s
    else s)

/-! ## Statistical range monitoring (R133 to R135) -/

def statZero : ColStat := ⟨.nan, .nan, .fin false 0 1⟩
def State.colStat (s : State) (g col : Nat) : ColStat := sread (fun _ => statZero) s.colStats (g * 256 + col)
def State.setColStat (s : State) (g col : Nat) (k : ColStat) : State :=
  { s with colStats := swrite (fun _ => statZero) s.colStats (g * 256 + col) k }

/-- The length of a bin's window in lane-evaluations (R133). -/
def State.window (s : State) (g : Nat) : Nat :=
  2 ^ s.fld (Reg.CEL_CHK_WINDOW (s.binRec g).part) Fl.CEL_CHK_WINDOW_WIN_LOG2

/-- q_j of a lane-evaluation (R133): the sum of the partials over 64 × √(32 × n). -/
def qValue (os : List BlockOut) : FVal :=
  ((sixteenths (os.foldl (fun a o => a + o.p16) 0)).mul (FVal.rsqrt (.fin false (32 * os.length) 1))).div (FVal.ofInt 64)

/-- A sample taken into a column's statistics. -/
def ColStat.take (k : ColStat) (q : FVal) : ColStat :=
  ⟨if k.lo = .nan || q.lt k.lo then q else k.lo, if k.hi = .nan || k.hi.lt q then q else k.hi, k.sum.add q⟩

/-- One lane-evaluation of a bin taken into its window; `cols` holds the partials of the columns. A full window takes
no more until it ends. A column all of whose blocks R59 discards takes no sample, and its mean is over the lane-evaluations of
the window all the same; each half of a split bin is a lane-evaluation, and both share one set of statistics (DESIGN CHOICE,
log entry 70). -/
def State.takeStats (s : State) (g : Nat) (cols : List (List BlockOut)) : State :=
  let k := s.check g
  if s.stEn g && decide (k.winCount < s.window g) then
    let s := s.setCheck g { k with winCount := k.winCount + 1 }
    cols.zipIdx.foldl (fun s p =>
      if p.1.isEmpty then s else s.setColStat g p.2 ((s.colStat g p.2).take (qValue p.1))) s
  else s

/-- Whether a column's statistics leave its envelope (R134). -/
def outside (k : ColStat) (n : Nat) (e : Envelope) (meanTol edgeTol : Nat) : Bool :=
  let w := (fp32 e.hi).add (fp32 e.lo).neg
  let tol := fun (t : Nat) => (w.mul (FVal.ofInt t)).div (FVal.ofInt 1000)
  let dev := ((k.sum.div (FVal.ofInt n)).add (fp32 e.mean).neg).abs
  (tol meanTol).lt dev || ((fp32 e.hi).add (tol edgeTol)).lt k.hi || k.lo.lt ((fp32 e.lo).add (tol edgeTol).neg)

/-- The statistics of a bin's columns at their start. -/
def State.clearStats (s : State) (g : Nat) : State :=
  { s with colStats := sclear s.colStats (g * 256) (g * 256 + 256) }

/-- STAT_WINDOW_END (R134, R135, R140): a full window is compared with the envelope, at most one event arises, and the
statistics restart. An event makes a confirming set of patterns due; one of a bin in REFRESH or OFFLINE, with an action
pending, or with a confirming set due already (DESIGN CHOICE, log entry 70), is logged MERGED instead. -/
def execStatWindowEnd (c : CoreId) (b : BinId) (s : State) : Out :=
  let g := c.val * 480 + b.val
  let r := s.binRec g
  let k := s.check g
  let lim := (s.winRegs g).2
  .next (if s.stEn g && decide (s.window g ≤ k.winCount) then
      let s := s.readLabels c.val (isEnvelopeOf g)
      let event := s.labelsOk (isEnvelopeOf g) && (List.range 256).any fun col =>
        match s.envelope g col with
        | none => false
        | some e => outside (s.colStat g col) k.winCount e (Fl.CEL_CHK_LIMITS_MEAN_TOL.get lim)
            (Fl.CEL_CHK_LIMITS_EDGE_TOL.get lim)
      let s := (s.clearStats g).setCheck g { k with winCount := 0, winHeld := none, compHeld := none }
      if event then
        let s := s.setBinRec g { s.binRec g with stEvents := min (r.stEvents + 1) 65535 }
        if r.state == .refresh || r.state == .offline || s.actPending g || k.source == 1 then
          s.logDrift g r.part 1 0xFFFF (s.chkAction g) 8
        else s.setCheck g { s.check g with errs := [none, none, none, none], source := 1, testHeld := none, eventAt := s.stampOf g }
      else s
    else s)

/-! ## Recalibration (R137) -/

/-- S of a column segment, and of a row segment, with every row or column driven at level 15 (R137). -/
def State.fullSum (s : State) (g b col : Nat) : Nat :=
  15 * (List.range 32).foldl (fun a i => a + s.cell g (32 * b + i) col) 0
def State.fullRowSum (s : State) (g row k : Nat) : Nat :=
  15 * (List.range 32).foldl (fun a i => a + s.cell g row (32 * k + i)) 0

/-- The codes, before the clamp, of a rack's column segments in the sum measurement of draw `d`. -/
def State.sumCodes (s : State) (d g rack : Nat) : List (Nat × Nat × Int) :=
  let k0 := rack % 32 * 16
  (List.range 16).flatMap fun seg => (List.range 256).map fun col =>
    (k0 + seg, col, rawCode d (s.trim g rack) rack 0 seg (spanKey rack 0 seg * 256 + col) (s.fullSum g (k0 + seg) col))

/-- The new trim of a rack: 15 × ΣD_b over the measured sum, times the old trim, to nearest; none outside 0x6000 to
0xA000. -/
def State.newTrim (s : State) (d g rack : Nat) : Option Nat :=
  let sums := (s.sumCodes d g rack).foldl (fun (a : Nat × Nat) x => (a.1 + s.dsum g x.1 x.2.1, a.2 + clampCode x.2.2)) (0, 0)
  if sums.2 = 0 then none
  else
    let t := roundQ .even (30 * sums.1 * (s.rackRec rack).refTrim) sums.2 0
    if 0x6000 ≤ t ∧ t ≤ 0xA000 then some t else none

/-- The level sum in 1/16 level that a code of the sum measurement gives: a code is 2 × S, and S 15 × ΣL_w (DEDUCED from R99,
log entry 23). -/
def levelSum16 (raw : Int) : Nat := roundQ .even (16 * clampCode raw) 30 0

/-- W_b and R_ic of a bin as draws `d` and `d + 1` measure them. Clamped codes of it count nowhere, those of the sum measurement
that trims come from do (DESIGN CHOICE, log entry 78). -/
def State.measureSums (s : State) (d g : Nat) : State :=
  let s := (racksOf g 0).foldl (fun s rack => (s.sumCodes d g rack).foldl (fun (s : State) x =>
    { s with wsums := swrite (fun _ => 4096) s.wsums (blockKey g x.1 x.2.1) (levelSum16 x.2.2) }) s) s
  (List.range 16384).foldl (fun s row => (List.range 8).foldl (fun (s : State) k =>
    let i := (g * 16384 + row) * 8 + k
    let rack := 32 * g + row / 512
    let v := levelSum16 (rawCode (d + 1) (s.trim g rack) rack 0 k i (s.fullRowSum g row k))
    { s with rsums := swrite (fun _ => 4096) s.rsums i v }) s) s

/-- The label words that recalibration rewrites: W_b, R_ic and REF_TRIM. -/
def isRecalOf (g k : Nat) : Bool :=
  k / 8192 / 32 == g && ((decide (512 ≤ k % 8192) && decide (k % 8192 < 2560)) || k % 8192 == labTrim)

/-- REF_FAULT ends for the racks of a bin, but where a span or trim word stays lost (R102, R123). -/
def State.clearRefFaults (s : State) (g : Nat) : State :=
  (racksOf g 0).foldl (fun (s : State) r =>
    if s.spanLost r then s else s.setRackRec r { s.rackRec r with refFault := false }) s

/-- RECAL_COMPLETE (R32, R102, R137, R140): while the region is in Run, the sums of a bin are measured; trims in range are
written with W_b and R_ic, and the patterns run again; a trim out of range takes the bin OFFLINE, counts in
REFRESH_COUNT.FAILED and not in RECALS (DESIGN CHOICE, log entry 78). An action whose bin has left service is dropped without
a record, and one whose patterns cannot be compared ends LABEL_LOSS (DESIGN CHOICE, log entry 70). -/
def execRecalComplete (c : CoreId) (b : BinId) (s : State) : Out :=
  let g := c.val * 480 + b.val
  .next (if !s.rackPower g then s else
    match s.driftActs.find? fun a => a.bin == g with
    | none => s
    | some a =>
      let s := { s with driftActs := s.driftActs.filter fun x => x.bin != g }
      let r := s.binRec g
      if r.state != .inService then s
      else
        let s := s.readLabels c.val (isSumOf g)
        let d := s.fresh
        let s := s.drew.drew.drew.checkSpans d c.val (racksOf g 0) [0]
        let trims := (racksOf g 0).map fun k => s.newTrim d g k
        let s := s.countClamps c.val ((racksOf g 0).filter fun k =>
          (s.sumCodes d g k).any fun x => decide ((clampCode x.2.2 : Int) ≠ x.2.2))
        if trims.any Option.isNone then
          (((s.offlineBin g).logDriftAt a.stamp g r.part a.source a.err a.action 6).bump Reg.CEL_REFRESH_COUNT
            Fl.CEL_REFRESH_COUNT_FAILED)
        else
          let s := (racksOf g 0).zipIdx.foldl (fun (s : State) p =>
            s.setRackRec p.1 { s.rackRec p.1 with refTrim := ((trims.getD p.2 none).getD 0x8000) }) s
          let s := ((s.measureSums (d + 1) g).rewriteLabels g (isRecalOf g)).clearRefFaults g
          let s := s.setBinRec g { s.binRec g with recals := min (r.recals + 1) 65535 }
          let (s, sum) := s.fullSet c.val g
          match sum with
          | none => s.logDriftAt a.stamp g r.part a.source 0xFFFF a.action 9
          | some n =>
            let s := s.recordSet g n
            let high := testHigh r.split n (limitOf (s.chkRegs g))
            let e := testError r.split n
            if high && a.action == 3 then
              State.logDriftAt { s with refreshQ := s.refreshQ ++ [{ a with go := false }] } a.stamp g r.part a.source e
                a.action 3
            else
              let s := if high then s else { s with refreshQ := s.refreshQ.filter fun x => x.bin != g }
              s.logDriftAt a.stamp g r.part a.source e a.action (if high then 2 else 1))

/-! ## Refresh (R138, R139) -/

/-- The wear of a bin (R170): none where nothing has programmed it. -/
def wearZero : Wear := ⟨0, false, false⟩
def State.wearOf (s : State) (g : Nat) : Wear := sread (fun _ => wearZero) s.wear g
/-- A program cycle of a bin counted, holding at 65,535 (DESIGN CHOICE, log entry 78); WARN is judged at the count (R170, R171,
R176). -/
def State.wearUp (s : State) (g : Nat) : State :=
  let w := s.wearOf g
  let n := min (w.cycles + 1) 65535
  let warn := decide (s.fld Reg.CEL_WEAR_WARN Fl.CEL_WEAR_WARN_LEVEL ≤ n)
  { s with wear := swrite (fun _ => wearZero) s.wear g ⟨n, warn, w.ue⟩ }

/-- An install has a bin of a cellar die in first pass or in touch-up (R164). -/
def State.installOn (s : State) (die : Nat) : Bool :=
  match s.inst with
  | none => false
  | some k => k.bins.any fun b => binDie b.bin == die && (b.phase == 1 || b.phase == 4)
/-- A cellar die refreshes a bin. -/
def State.refreshOn (s : State) (die : Nat) : Bool := s.refreshing.any fun x => binDie x.bin == die

/-- Coolant flow is NORMAL (R521). -/
def State.flowing (s : State) : Bool := s.fld Reg.THM_STAT Fl.THM_STAT_FLOW_STATE == 0
/-- HV is on from an install's first pulse to its end, and from a refresh until the queue is empty, while a 72 V feed is in
use; a flow stop ends it once the active refreshes are done (R40, R138, R169, R456, R526). -/
def State.hvSync (s : State) : State :=
  let pulsed := match s.inst with
    | none => false
    | some k => k.bins.any fun b => decide (1 ≤ b.phase)
  let fed := s.flag Reg.PWR_STAT Fl.PWR_STAT_FEED_A_OK || s.flag Reg.PWR_STAT Fl.PWR_STAT_FEED_B_OK
  let refresh := !s.refreshing.isEmpty || (s.hvRefresh && s.flowing && !s.refreshQ.isEmpty)
  { s with hvRefresh := fed && refresh }.setFld Reg.PWR_DOMAIN_STAT ⟨26, 1⟩ (if fed && (pulsed || refresh) then 1 else 0)

/-- A partition has a context in flight. -/
def State.inFlight (s : State) (p : Nat) : Bool := s.passes.any fun x => x.part == p
/-- A queued refresh may start (R139): GO was written for its partition, or the latest queue check found AUTO set and the
partition has no context in flight. -/
def State.released (s : State) (a : DriftAct) : Bool :=
  let p := (s.binRec a.bin).part
  a.go || (s.autoRefresh.testBit p && !s.inFlight p)
/-- The first refresh that may start: released, of a bin whose region is in Run, on a die that refreshes and installs nothing
now, while coolant flows (R32, R138, R139, R175, R526). -/
def State.nextRefresh (s : State) : Option DriftAct :=
  s.refreshQ.find? fun a =>
    s.flowing && s.released a && s.rackPower a.bin && !s.refreshOn (binDie a.bin) && !s.installOn (binDie a.bin)

/-- Released refreshes start, one at a time on each die: the bin goes to REFRESH and its wear count rises. One whose bin has
left service is dropped without a record (DESIGN CHOICE, log entry 70). -/
def startRefreshes : Nat → State → State
  | 0, s => s
  | fuel + 1, s =>
    match s.nextRefresh with
    | none => s
    | some a =>
      let s := { s with refreshQ := s.refreshQ.filter fun x => x.bin != a.bin }
      startRefreshes fuel
        (if (s.binRec a.bin).state == .inService then
          State.wearUp (State.setBinState { s with refreshing := s.refreshing ++ [a] } a.bin .refresh) a.bin
        else s)
def State.runRefreshes (s : State) : State := (startRefreshes s.refreshQ.length s).hvSync

/-- A write of CEL.REFRESH_GO (R139): each bit written 1 starts the queued refreshes of its partition. -/
def State.writeRefreshGo (s : State) (v : Word) : State :=
  let q := s.refreshQ.map fun (a : DriftAct) => if v.getLsbD (s.binRec a.bin).part then { a with go := true } else a
  State.runRefreshes { s with refreshQ := q }

/-- The used level of a format nearest to level `x` / 256 (R46, R128); of two equally near, the upper (DESIGN CHOICE, log
entry 70). -/
def nearestLevel (fmt : Nat) (x : Int) : Nat :=
  let l := levelFactor fmt
  l * min ((x + 128 * l).toNat / (256 * l)) (2 * codeMag fmt - 1)
/-- The level of a cell as a refresh of draw `d` recovers it (R128). -/
def State.recovered (s : State) (d g row col : Nat) : Nat :=
  nearestLevel (s.binRec g).format (256 * (s.cell g row col : Int) + Config.cellDrift d ((g * 16384 + row) * 256 + col))
/-- The level sums that a refresh of draw `d` recovers agree with every D_b (R138). -/
def State.sumsAgree (s : State) (d g : Nat) : Bool :=
  (List.range 512).all fun b => (List.range 256).all fun col =>
    (List.range 32).foldl (fun a i => a + s.recovered d g (32 * b + i) col) 0 == s.dsum g b col
/-- The racks of a bin that have to be erased and programmed once more in draw `d`, each a program cycle more (R138, R166,
R170): which ones is a free value, and what a second failure leaves is in the errors of R93. -/
def State.erasedAgain (s : State) (d g : Nat) : State :=
  (racksOf g 0).foldl (fun (s : State) r => if Config.rackErased d r then s.wearUp g else s) s
/-- The cells of a bin programmed to the levels recovered in draw `d` (R138). -/
def State.reprogram (s : State) (d g : Nat) : State :=
  (List.range 16384).foldl (fun t row => (List.range 256).foldl (fun (t : State) col =>
    t.setCell g row col (s.recovered d g row col)) t) s

/-- The label words that a refresh rewrites: W_b, R_ic, spans and REF_TRIM. -/
def isRefreshOf (g k : Nat) : Bool :=
  isRecalOf g k || (k / 8192 / 32 == g && decide (3584 ≤ k % 8192) && decide (k % 8192 < labTrim))

/-- The reference spans of a bin as draw `d` measures them, and REF_TRIM 1.0. -/
def State.measureSpans (s : State) (d g : Nat) : State :=
  (racksOf g 0).foldl (fun s r =>
    let s := (List.range 64).foldl (fun (s : State) i =>
      { s with spans := swrite (fun _ => 0) s.spans (r * 64 + i) (spanWord d r (i / 16) (i % 16)) }) s
    s.setRackRec r { s.rackRec r with refTrim := 0x8000 }) s

/-- The refresh of a bin ends (R138), while its region is in Run (R32): recovered sums that agree with D_b let the bin be
programmed, verified and measured, and it returns to service with no REF_FAULT, as its spans are new (DESIGN CHOICE, log entry
78); otherwise it goes OFFLINE with REFRESH_FAIL. `unit` is the core whose RACK block shows its labels. -/
def State.refreshEnd (s : State) (unit g : Nat) : State :=
  match (if s.rackPower g then s.refreshing.find? fun a => a.bin == g else none) with
  | none => s
  | some a =>
    let s := { s with refreshing := s.refreshing.filter fun x => x.bin != g }
    let r := s.binRec g
    let s := s.readLabels unit (isSumOf g)
    let d := s.fresh
    let s := s.drew.drew.drew
    (if s.sumsAgree d g then
      let s := (s.reprogram d g).erasedAgain d g
      let s := (((s.measureSpans d g).measureSums d g).rewriteLabels g (isRefreshOf g)).clearRefFaults g
      let (s, sum) := s.fullSet unit g
      let s := s.setBinState g .inService
      let s := match sum with
        | none => s
        | some n => s.recordSet g n
      let s := s.bump Reg.CEL_REFRESH_COUNT Fl.CEL_REFRESH_COUNT_DONE
      s.logDriftAt a.stamp g r.part a.source ((sum.map (testError r.split)).getD 0xFFFF) a.action 4
    else
      ((s.offlineBin g).bump Reg.CEL_REFRESH_COUNT Fl.CEL_REFRESH_COUNT_FAILED).logDriftAt a.stamp g r.part a.source a.err
        a.action 5).runRefreshes

/-- LABEL_WRITE_BACK (R123, R124): the corrected label words of a rack are written back. -/
def execLabelWriteBack (c : CoreId) (rack : Fin 15360) (s : State) : Out :=
  .next { s with labelEcc := s.labelEcc.filter fun e =>
    !(e.1 / 8192 == c.val * 15360 + rack.val && e.2 == .corrected) }

end Sys2Proof.Machine
end

