-- ==== Sys2Proof/Machine/Rack.lean ====
section
/-! DEFINITION. The rack interface: fires from issue to completion, and the evaluations they run (R105 to R121, R217 to
R222, R251 to R254, R476, R477). -/

namespace Sys2Proof.Machine

/-! ## Borrowed racks (R220 to R222) -/

/-- A core's racks are driven by a swing core. -/
def State.borrowed (s : State) (c : Nat) : Bool :=
  (List.range 8).any fun j => s.borrowOf (c / 8 * 8 + j) == some c

/-! ## A forward evaluation of one group in one lane -/

/-- What a lane of a group's evaluation gives: the outputs, the racks with a clamped code, whether a hand-off converted
a NaN, the columns with a clamped code, the exact sums and squared scales of R92 and R93, and the partials of each bin
that ran. -/
structure LaneOut where
  vals : Option (List Word)
  satRacks : List Nat
  nonfinite : Bool
  satCols : List Bool
  exact : List FVal
  scale2 : List FVal
  cols : List (Nat × List (List BlockOut))

def laneStart : LaneOut :=
  ⟨none, [], false, List.replicate 256 false, List.replicate 256 (.fin false 0 1), List.replicate 256 (.fin false 0 1), []⟩

/-- A chain hand-off to BF16 (R61). -/
def handOff (sr : Bool) (d place : Nat) (w : Word) : Word × Bool :=
  let v := fmtBf16.convert true (rndAt sr d place) (fp32 w)
  (toFp32 (fmtBf16.decode v.code), v.nonfinite)

/-- The blocks of a lane that bin `i` of a group uses. -/
def binBlocks (q : FireGroup) (i : Nat) (xs : List Block32) : List Block32 :=
  (xs.drop (q.block + i * 512)).take (if q.half = 0 then 512 else 256)

/-- Bin `i` of a group in a lane: its own sum, then the incoming partial as the last addition; a hand-off to the next
bin. A zero-skipped bin passes the partial on (R58 to R61, R109, R115). -/
def State.laneBin (s : State) (d : Nat) (ideal sr : Bool) (q : FireGroup) (lane : Nat) (xs : List Block32) (i : Nat)
    (a : LaneOut) : LaneOut :=
  let g := q.bin + i
  let fmt := (s.binRec g).format
  let bs := binBlocks q i xs
  let faulty := s.binFaulty g
  let bad := fun col => faulty || s.colBad g q.half col
  let zero := bs.all Block32.zero
  if zero && !((List.range 256).any bad) then { a with vals := some (a.vals.getD (List.replicate 256 0)) }
  else
    let cols := (List.range 256).map fun col => if zero then [] else s.column d ideal g q.half lane col bs
    let ys := cols.zipIdx.map fun p => if bad p.2 then fnan else columnSum d fmt p.1
    let ys := match a.vals with | none => ys | some inc => List.zipWith fadd ys inc
    let sat := cols.map fun os => os.any BlockOut.sat
    let a := { a with
      satRacks := a.satRacks ++ clampedRacks g q.half cols
      satCols := List.zipWith (fun x y => x || y) a.satCols sat
      exact := List.zipWith FVal.add a.exact (cols.map (columnExact fmt))
      scale2 := List.zipWith FVal.add a.scale2 (cols.map (columnScale2 fmt))
      cols := if zero then a.cols else a.cols ++ [(g, cols)] }
    if i + 1 < q.size then
      let hs := ys.zipIdx.map fun p => handOff sr d ((lane * 122880 + g) * 256 + p.2) p.1
      { a with vals := some (hs.map fun h => h.1), nonfinite := a.nonfinite || hs.any fun h => h.2 }
    else { a with vals := some ys }

/-- A lane of a group: its bins from the lowest up. -/
def State.laneRun (s : State) (d : Nat) (ideal sr : Bool) (q : FireGroup) (lane : Nat) (xs : List Block32) : LaneOut :=
  (List.range q.size).foldl (fun a i => s.laneBin d ideal sr q lane xs i a) laneStart

/-- The RMS error of a lane's finite, unsaturated outputs, against their full scale, is within the bound
`num` / `den`, squared (R93). -/
def boundOk (num den : Nat) (vals : List Word) (skip : List Bool) (exact scale2 : List FVal) : Bool :=
  let es := (vals.zip (skip.zip (exact.zip scale2))).filterMap fun p =>
    let v := fp32 p.1
    if p.2.1 || !v.isFinite then none
    else
      let dv := v.add p.2.2.1.neg
      if p.2.2.2.isZero then (if dv.isZero then none else some (FVal.inf false)) else some ((dv.mul dv).div p.2.2.2)
  let sum := es.foldl FVal.add (.fin false 0 1)
  !(FVal.fin false (num * es.length) den).lt sum

/-- A lane as the racks deliver it: the measured products where they keep the bound of R93, or where none is given;
else the exact products (DESIGN CHOICE, log entry 23). -/
def State.lane (s : State) (d : Nat) (sr : Bool) (q : FireGroup) (lane : Nat) (xs : List Block32) : LaneOut :=
  let a := s.laneRun d false sr q lane xs
  match s.chainBound d ((List.range q.size).map fun i => q.bin + i) with
  | none => a
  | some n =>
    if boundOk n 1000000 (a.vals.getD []) a.satCols a.exact a.scale2 then a else s.laneRun d true sr q lane xs

/-! ## Fires -/

/-- The lanes of a mask. -/
def Fire.laneList (f : Fire) : List Nat := maskList 4 f.lanes
/-- Output-buffer bytes that a fire reserves (R218). -/
def Fire.reserve (f : Fire) : Nat :=
  match f.kind with
  | .forward => groupBins f.groups * 1024 * f.laneList.length
  | .reverse => 65536 * f.groups.length
  | .test => 0
/-- Staging-buffer bytes of a fire. -/
def inputBlocks (qs : List FireGroup) : Nat :=
  match qs.getLast? with
  | none => 0
  | some q => q.block + (if q.half = 0 then 512 * q.size else 256)
def Fire.stageBytes (f : Fire) : Nat :=
  match f.kind with
  | .forward => 17 * inputBlocks f.groups * f.laneList.length
  | .reverse => 1024 * f.groups.length
  | .test => 0
/-- Bytes that a fire's outputs take, without unused space (R254). -/
def Fire.outBytes (f : Fire) : Nat :=
  match f.kind with
  | .forward => f.groups.length * 1024 * f.laneList.length
  | .reverse => 65536 * f.groups.length
  | .test => 0

/-- The output buffer of a core in use, in bytes (R218). -/
def State.outUsed (s : State) (c : Nat) : Nat :=
  (s.fires.foldl (fun a f => if f.core = c ∧ f.stage.flying then a + f.reserve else a) 0) +
    s.outBufs.foldl (fun a b => if b.core = c then a + 4 * b.vals.length else a) 0
/-- The staging buffer of a core in use. -/
def State.stageUsed (s : State) (c : Nat) : Nat :=
  s.fires.foldl (fun a f => if f.core = c ∧ f.stage = .staged then a + f.stageBytes else a) 0

/-- Two fires name a common bin. -/
def Fire.overlaps (f h : Fire) : Bool :=
  f.groups.any fun p => h.groups.any fun q => decide (p.bin < q.bin + q.size) && decide (q.bin < p.bin + p.size)

def State.findFire (s : State) (c t : Nat) (p : Fire → Bool) : Option Fire :=
  s.fires.find? fun f => f.core == c && f.tok == t && p f
/-- A fire replaced by what `u` makes of it. -/
def State.mapFire (s : State) (c t : Nat) (u : Fire → Fire) : State :=
  { s with fires := s.fires.map fun f => if f.core = c ∧ f.tok = t then u f else f }

/-- FIRE_STAGING (R217): the first fire not yet staged copies its inputs once the staging buffer has room; a lane whose
input holds a poisoned word is noted (R195). -/
def execFireStaging (c : CoreId) (s : State) : Out :=
  let k := c.val
  .next (s.settle (match s.fires.find? fun f => f.core == k && f.stage == .queued with
    | none => s
    | some f =>
      if decide (262144 < s.stageUsed k + f.stageBytes) then s
      else
        let n := match f.kind with
          | .forward => 17 * inputBlocks f.groups
          | .reverse => 1024 * f.groups.length
          | .test => 0
        let offs := match f.kind with
          | .forward => f.laneList.map fun l => f.src + l * f.stride
          | .reverse => [f.src]
          | .test => []
        let input := offs.map fun o => s.bytes k o n
        let poison := offs.zipIdx.foldl (fun a p => if s.poisonIn k p.1 n then a + 2 ^ p.2 else a) 0
        let s := offs.foldl (fun (s : State) o => s.checkRange k o n) s
        s.mapFire k f.tok fun f => { f with stage := .staged, input := input, poison := poison }))

/-- NaN outputs of a group in every lane. -/
def nanOuts (n gi : Nat) (lanes : Nat) : List GroupOut :=
  (List.range lanes).map fun r => ⟨r, gi, List.replicate n fnan, false, true⟩

/-- What evaluating one group does: the state, the outputs, how it is delivered and its status. -/
structure GroupRun where
  st : State
  outs : List GroupOut
  cls : EvalClass
  status : Nat

/-- A bin of the group is out of service, or its racks are driven by another core (R116, R220). -/
def State.groupOffline (s : State) (c : Nat) (q : FireGroup) : Bool :=
  (List.range q.size).any fun i => !s.inService (q.bin + i) || (binCore (q.bin + i) == c && s.borrowed c)

/-- Riding test patterns in the lanes that a forward evaluation leaves free, one in each (R131, R219). -/
def State.ride (s : State) (unit : Nat) (q : FireGroup) (free : List Nat) : State :=
  (List.range q.size).foldl (fun s i =>
    let g := q.bin + i
    ((s.duePatterns g).zip free).foldl (fun (s : State) p => s.runPattern unit g p.2 p.1) s) s

/-- A group of a forward fire at issue (R105 to R109, R133): statistics, capture, saturation counts and outputs. A bin of which
every lane is zero-skipped is not driven: its labels and spans are not read (R60, R115). -/
def State.fireForward (s : State) (f : Fire) (q : FireGroup) (gi : Nat) : GroupRun :=
  let c := f.core
  let lanes := f.laneList
  let s := (List.range q.size).foldl (fun (s : State) i => s.readLabels c (isMapOf (q.bin + i))) s
  if s.groupOffline c q then
    ⟨s.setFld (Reg.RACK_STAT c) Fl.RACK_STAT_OFFLINE_FIRE 1, nanOuts 256 gi lanes.length, .offline, stBinOffline⟩
  else
    let d := s.fresh
    let s := s.drew
    let xs := fun r => decodeBlocks (inputBlocks f.groups) (f.input.getD r [])
    let own := fun r => (List.range q.size).flatMap fun i => binBlocks q i (xs r)
    let runs := fun r => f.poison.testBit r || !(own r).all Block32.zero
    let live := (List.range lanes.length).any runs
    let s := (List.range q.size).foldl (fun (s : State) i =>
      let driven := lanes.zipIdx.filterMap fun p =>
        if !f.poison.testBit p.2 && !(binBlocks q i (xs p.2)).all Block32.zero then some p.1 else none
      if driven.isEmpty then s
      else (s.readLabels c (isForwardOf (q.bin + i) q.half)).checkSpans d c (racksOf (q.bin + i) q.half) driven) s
    let sr := s.flag (Reg.RND_CTL c) Fl.RND_CTL_SR_CHAIN
    let t := lanes.zipIdx.foldl (fun (t : State × List GroupOut) p =>
      let shown := fun (u : State) bad => (List.range q.size).foldl (fun (u : State) i =>
        u.capture d c (q.bin + i) q.half p.1 bad (binBlocks q i (xs p.2))) u
      if f.poison.testBit p.2 then (shown t.1 true, t.2 ++ [⟨p.2, gi, List.replicate 256 fnan, false, true⟩])
      else
        let a := t.1.lane d sr q p.1 (xs p.2)
        let u := t.1.countClamps c a.satRacks
        let u := a.cols.foldl (fun (u : State) k => u.takeStats k.1 k.2) u
        let u := u.sticky (Reg.RND_STATUS c) Fl.RND_STATUS_NONFINITE a.nonfinite
        (shown u false, t.2 ++ [⟨p.2, gi, a.vals.getD [], !a.satRacks.isEmpty, false⟩])) (s, [])
    ⟨t.1, t.2, if live then .live else .skipped, stOk⟩

/-! ## Reverse reads (R117 to R121) -/

/-- The prescaled gradient of block `b` and column segment `k`, quantised (R117). -/
def State.revBlock (s : State) (g b k : Nat) (gv : List Word) : Block32 × ConvFlags :=
  quantKa4 (fun _ => .even) ((List.range 32).map fun i =>
    fp32 (toFp32 ((fp32 (gv.getD (32 * k + i) 0)).mul (fmtE4m3.decode (s.scaleAt g b (32 * k + i))))))

/-- P of a row segment (R118) in 1/16 level, for draw `d`, or exactly; P exactly; and whether its code was clamped. Row segment
`k` is read against reference segment `k` of lane 0 (DESIGN CHOICE, log entry 78). -/
def State.rowPartial (s : State) (d : Nat) (ideal : Bool) (g row k : Nat) (x : Block32) : Int × Int × Bool :=
  let level := fun i => s.cell g row (32 * k + i)
  let exact := exactProduct x.codes level
  let rack := 32 * g + row / 512
  let sum := levelProduct x.codes level
  let raw := if ideal then 2 * (sum : Int) else rawCode d (s.trim g rack) rack 0 k ((g * 16384 + row) * 8 + k) sum
  let code := clampCode raw
  (if ideal then 16 * exact else correct code (s.rsum g row k) (driveSum x.codes), exact, decide ((code : Int) ≠ raw))

/-- A row of a reverse read (R118): its output, its exact value, its squared full scale (R121) and whether a code of it was
clamped. -/
structure RowOut where
  val : Word
  exact : FVal
  scale2 : FVal
  sat : Bool

def State.revRow (s : State) (d : Nat) (ideal : Bool) (g row : Nat) (xs : List Block32) : RowOut :=
  let fmt := (s.binRec g).format
  let ps := xs.zipIdx.map fun p => (p.1, s.rowPartial d ideal g row p.2 p.1)
  let lam := FVal.ofInt (levelFactor fmt)
  ⟨fsum (freeOrder d (ps.map fun p => toFp32 (((fmtE4m3.decode p.1.scale).mul (sixteenths p.2.1)).div lam))),
    ps.foldl (fun a p => a.add (((fmtE4m3.decode p.1.scale).mul (FVal.ofInt p.2.2.1)).div lam)) (.fin false 0 1),
    .fin false (codeMag fmt ^ 2 * 2048 * (ps.foldl (fun (a : Int) p => a + scaleUnits p.1.scale * scaleUnits p.1.scale) 0).natAbs)
      (2 ^ 20), ps.any fun p => p.2.2.2⟩

/-- A row delivers NaN: a lost word of its scales or of its R_ic that an evaluation has read (R123). -/
def State.rowBad (s : State) (g row : Nat) : Bool :=
  s.labelEcc.any fun e =>
    let w := e.1 % 8192
    e.2 == .faulted && e.1 / 8192 == 32 * g + row / 512 &&
      ((decide (w < 512) && w * 8 / 256 == row % 512 / 32) ||
       (decide (1536 ≤ w) && decide (w < 2560) && (w - 1536) * 4 % 512 / 4 == row % 512 / 4))

/-- Every row of a bin for draw `d`. -/
def State.revRows (s : State) (d : Nat) (ideal : Bool) (g : Nat) (gv : List Word) : List RowOut :=
  (List.range 512).flatMap fun b =>
    let xs := (List.range 8).map fun k => (s.revBlock g b k gv).1
    (List.range 32).map fun i => s.revRow d ideal g (32 * b + i) xs

/-- A group of a reverse read at issue. -/
def State.fireReverse (s : State) (f : Fire) (q : FireGroup) (gi : Nat) : GroupRun :=
  let c := f.core
  let g := q.bin
  let s := s.readLabels c (isMapOf g)
  if s.groupOffline c q then
    ⟨s.setFld (Reg.RACK_STAT c) Fl.RACK_STAT_OFFLINE_FIRE 1, nanOuts 16384 gi 1, .offline, stBinOffline⟩
  else
    let d := s.fresh
    let s := s.drew
    let bs := f.input.getD 0 []
    let gv := (List.range 256).map fun j => BitVec.ofNat 32 (leAt bs (4 * (256 * gi + j)) 4)
    let zero := gv.all fun w => w.toNat % 2 ^ 31 == 0
    if f.poison ≠ 0 then ⟨s, nanOuts 16384 gi 1, .live, stOk⟩
    else
      let s := if zero then s else s.readLabels c (isReverseOf g)
      let s := if zero then s else s.checkSpans d c (racksOf g 0) [0]
      if s.binFaulty g then ⟨s, nanOuts 16384 gi 1, if zero then .skipped else .live, stOk⟩
      else if zero then
        ⟨s, [⟨0, gi, (List.range 16384).map fun r => if s.rowBad g r then fnan else 0, false, false⟩], .skipped, stOk⟩
      else
        let nf := (List.range 512).any fun b => (List.range 8).any fun k => (s.revBlock g b k gv).2.nonfinite
        let sc := (List.range 512).any fun b => (List.range 8).any fun k => (s.revBlock g b k gv).2.scaleClamp
        let rows := s.revRows d false g gv
        let bad := (List.range 16384).map fun r => s.rowBad g r
        let skip := List.zipWith (fun (r : RowOut) b => r.sat || b) rows bad
        let rows := match s.errBound d g with
          | none => rows
          | some n =>
            if boundOk (9 * n) 4000000 (rows.map RowOut.val) skip (rows.map RowOut.exact) (rows.map RowOut.scale2) then rows
            else s.revRows d true g gv
        let clamped := (racksOf g 0).filter fun r => (rows.drop (512 * (r % 32))).take 512 |>.any RowOut.sat
        let s := s.countClamps c clamped
        let s := (s.sticky (Reg.RND_STATUS c) Fl.RND_STATUS_NONFINITE nf).sticky (Reg.RND_STATUS c)
          Fl.RND_STATUS_SCALE_CLAMP sc
        ⟨s, [⟨0, gi, List.zipWith (fun (r : RowOut) b => if b then fnan else r.val) rows bad, !clamped.isEmpty, nf⟩], .live, stOk⟩

/-! ## RACK.TEST (R252) -/

/-- A bin of a RACK.TEST: the named patterns run; the fourth of a set ends it with source 2. The set is RACK.TEST's own: one
that is due goes on beside it (DESIGN CHOICE, log entry 70). -/
def State.fireTest (s : State) (f : Fire) (q : FireGroup) : GroupRun :=
  let c := f.core
  let g := q.bin
  let s := s.readLabels c (isMapOf g)
  if s.groupOffline c q then
    ⟨s.setFld (Reg.RACK_STAT c) Fl.RACK_STAT_OFFLINE_FIRE 1, [], .offline, stBinOffline⟩
  else
    let s := s.readLabels c (isTestOf g)
    if !s.testsOk g then ⟨s, [], .live, stOk⟩
    else
      let old := if f.lanes = 15 ∨ (s.check g).asked.length ≠ 4 then [none, none, none, none] else (s.check g).asked
      let s := if old.any Option.isSome then s else (s.setCheck g { s.check g with askHeld := none }).testStart g
      let r := f.laneList.foldl (fun (a : State × List (Option Nat)) p =>
        let m := a.1.measurePattern c g p p
        (m.1, a.2.set p (some m.2))) (s, old)
      let s := r.1
      let k := s.check g
      if r.2.all Option.isSome then
        let n := setSum r.2
        let high := testHigh (s.binRec g).split n (limitOf (s.askRegs g))
        let s := s.endSet g n 2 (s.askRegs g)
        ⟨s.setCheck g { s.check g with asked := [], askHeld := none }, [], .live, if high then stTestHigh else stOk⟩
      else ⟨s.setCheck g { k with asked := r.2 }, [], .live, stOk⟩

/-- One group of a fire at issue. -/
def State.fireGroup (s : State) (f : Fire) (q : FireGroup) (gi : Nat) : GroupRun :=
  match f.kind with
  | .forward => s.fireForward f q gi
  | .reverse => s.fireReverse f q gi
  | .test => s.fireTest f q

/-- Both halves of a split bin fired at once are one evaluation: it runs if either does (R109, R113). -/
def joinHalves (f : Fire) (todo : List (Nat × EvalClass)) : List (Nat × EvalClass) :=
  todo.map fun p =>
    let b := ((f.groups[p.1]?).map FireGroup.bin).getD 0
    let twin := todo.any fun r => ((f.groups[r.1]?).map FireGroup.bin).getD 0 == b && r.2 == .live
    (p.1, if p.2 == .skipped && twin && f.kind == .forward then .live else p.2)

/-- The evaluations of a class among the groups, halves of one bin counting once. -/
def countClass (f : Fire) (todo : List (Nat × EvalClass)) (x : EvalClass) : Nat :=
  (todo.filter fun p => p.2 == x && (((f.groups[p.1]?).map FireGroup.half).getD 0 != 2 ||
    !(f.groups.any fun q => q.half == 1))).length

/-- Whether an evaluation of a group waits for a quiet-slot pattern of one of its bins (R131). -/
def State.quietDelays (s : State) (q : FireGroup) : Bool :=
  (List.range q.size).any fun i =>
    sread (fun _ => none) s.quietAt (q.bin + i) == some s.now && Config.quietWait s.fresh (q.bin + i)

/-- The evaluations of a fire issue to all its bins (R108, R217); those that run and those that do not are counted
(R141). Patterns ride once with both halves of a bin, which are one evaluation (R113). -/
def State.issueFire (s : State) (f : Fire) : State :=
  let free := (List.range 4).filter fun l => !f.laneList.contains l
  let r := f.groups.zipIdx.foldl (fun (a : State × List GroupOut × List (Nat × EvalClass) × Nat) p =>
    let x := a.1.fireGroup f p.1 p.2
    let ridden := a.2.2.1.any fun y => y.2 == .live && ((f.groups[y.1]?).map FireGroup.bin) == some p.1.bin
    let st := if f.kind = .forward ∧ x.cls = .live ∧ !ridden then x.st.ride f.core p.1 free else x.st
    (st, a.2.1 ++ x.outs, a.2.2.1 ++ [(p.2, x.cls)], worseStatus a.2.2.2 x.status)) (s, [], [], stOk)
  let todo := joinHalves f r.2.2.1
  let waits := countClass f (todo.filter fun p => ((f.groups[p.1]?).map s.quietDelays).getD false) .live
  let s := (r.1.count (Reg.RACK_EVAL_COUNT f.core) (countClass f todo .live)).count (Reg.RACK_SKIP_COUNT f.core)
    (countClass f todo .skipped)
  let s := s.bump (Reg.RACK_QUIET_DELAY f.core) Fl.RACK_QUIET_DELAY_COUNT waits
  s.mapFire f.core f.tok fun f =>
    { f with stage := .issued, input := [], outs := r.2.1, todo := todo, status := r.2.2.2 }

/-- The fires of a core before fire `t` in the queue that have not issued. -/
def State.firesAhead (s : State) (c t : Nat) : List Fire :=
  (s.fires.takeWhile fun f => !(f.core == c && f.tok == t)).filter fun f => f.core == c && !f.stage.flying

/-- Whether a fire could issue but for leave under R477: staged, no overlapping fire ahead, and room in the buffer. -/
def State.couldIssue (s : State) (f : Fire) : Bool :=
  f.stage == .staged && !(s.firesAhead f.core f.tok).any (fun h => h.overlaps f) &&
    decide (s.outUsed f.core + f.reserve ≤ 1048576)
/-- Whether the bins of a fire fit the granted claim (R477). -/
def State.hasLeave (s : State) (f : Fire) : Bool :=
  decide (s.binsInFlight f.core + groupBins f.groups ≤ s.binsGranted f.core)

/-- FIRE_ISSUE (R217, R218, R477): a staged fire issues when no fire ahead of it overlaps it or is held for leave, the
output buffer has room and the claim gives leave. A fire that lacks room sets OUTBUF_WAIT. -/
def execFireIssue (c : CoreId) (t : TokId) (s : State) : Out :=
  .next (match s.findFire c.val t.val fun f => f.stage == .staged with
    | none => s
    | some f =>
      let ahead := s.firesAhead f.core f.tok
      if ahead.any (fun h => h.overlaps f || (s.couldIssue h && !s.hasLeave h)) then s
      else if 1048576 < s.outUsed f.core + f.reserve then
        s.setFld (Reg.RIF_STAT f.core) Fl.RIF_STAT_OUTBUF_WAIT 1
      else if s.hasLeave f then s.issueFire f else s)

/-! ## Delivery and completion (R218, R236, R252, R254) -/

/-- The elements of a fire in buffer order, and the tags of their blocks: lane by lane, groups ascending, unused space
+0.0. -/
def Fire.elements (f : Fire) : List Word :=
  let lanes := if f.kind = .forward then f.laneList.length else 1
  let vs := (List.range lanes).flatMap fun r => (List.range f.groups.length).flatMap fun gi =>
    match f.outs.find? fun o => o.lane == r && o.group == gi with | none => [] | some o => o.vals
  vs ++ List.replicate (f.reserve / 4 - vs.length) 0
/-- One tag for each 32-element block of a group's outputs. -/
def Fire.tags (f : Fire) (tag : GroupOut → Nat → Bool) : List Bool :=
  let lanes := if f.kind = .forward then f.laneList.length else 1
  let vs := (List.range lanes).flatMap fun r => (List.range f.groups.length).flatMap fun gi =>
    match f.outs.find? fun o => o.lane == r && o.group == gi with
    | none => []
    | some o => (List.range (o.vals.length / 32)).map fun b => tag o b
  vs ++ List.replicate (f.reserve / 128 - vs.length) false
def GroupOut.satTag (o : GroupOut) (_b : Nat) : Bool := o.sat
def GroupOut.nonfiniteTag (o : GroupOut) (b : Nat) : Bool :=
  o.tagged || ((o.vals.drop (32 * b)).take 32).any fun w => !ffinite w
/-- The status with which a fire's token completes (R237). -/
def Fire.endStatus (f : Fire) : Nat :=
  if (f.tags GroupOut.satTag).any id || (f.tags GroupOut.nonfiniteTag).any id then worseStatus f.status stTagged
  else f.status

/-- A fire leaves the queue and its token completes. -/
def State.dropFire (s : State) (f : Fire) : State :=
  ({ s with fires := s.fires.filter fun h => !(h.core == f.core && h.tok == f.tok) }).tokComplete f.core f.tok f.endStatus

/-- Every output of a fire has arrived: COPY begins, or the token holds the outputs and completes. -/
def State.arrived (s : State) (f : Fire) : State :=
  if f.copy then s.mapFire f.core f.tok fun f => { f with stage := .copying }
  else if f.kind = .test then s.dropFire f
  else
    let b : OutBuf := ⟨f.core, f.tok, f.elements, f.tags GroupOut.satTag, f.tags GroupOut.nonfiniteTag, []⟩
    State.dropFire { s with outBufs := s.outBufs ++ [b] } f

/-- The groups of a class deliver; the fire ends when none is left. -/
def State.deliver (s : State) (c t : Nat) (x : EvalClass) (p : Fire → Bool) : State :=
  match s.findFire c t fun f => f.stage == .issued && p f with
  | none => s
  | some f =>
    let todo := f.todo.filter fun q => q.2 != x
    let s := s.mapFire c t fun f => { f with todo := todo }
    (if todo.isEmpty then s.arrived { f with todo := todo } else s).claimSettle c

/-- BIN_EVAL_DELIVER (R106): the forward evaluations that run deliver; so do those of a RACK.TEST. -/
def execBinEvalDeliver (c : CoreId) (t : TokId) (s : State) : Out :=
  .next (s.deliver c.val t.val .live fun f => f.kind != .reverse)
/-- ZERO_SKIP_DELIVER (R109): forward evaluations that did not run deliver +0.0. -/
def execZeroSkipDeliver (c : CoreId) (t : TokId) (s : State) : Out :=
  .next (s.deliver c.val t.val .skipped fun f => f.kind != .reverse)
/-- OFFLINE_FIRE (R116): evaluations of bins not in service deliver NaN. -/
def execOfflineFire (c : CoreId) (t : TokId) (s : State) : Out :=
  .next (s.deliver c.val t.val .offline fun _ => true)
/-- REVERSE_READ_DELIVER (R119, R120): the row outputs of a reverse read are valid, zero ones among them. -/
def execReverseReadDeliver (c : CoreId) (t : TokId) (s : State) : Out :=
  .next ((s.deliver c.val t.val .live fun f => f.kind == .reverse).deliver c.val t.val .skipped fun f => f.kind == .reverse)

/-- FIRE_COPY_DONE (R252): the outputs are in the Pantry, their buffer space is free and the token completes. A copy waits
while the core's Pantry is scrubbed (R196). -/
def execFireCopyDone (c : CoreId) (t : TokId) (s : State) : Out :=
  .next (s.settle (match s.findFire c.val t.val fun f => f.stage == .copying with
    | none => s
    | some f =>
      if s.scrubbing f.core then s
      else
      let bs := ((f.elements.take (f.outBytes / 4)).map fun w => leBytes 4 w.toNat).flatten
      (s.store f.core f.dst bs).dropFire f))

/-! ## Issue (R251 to R253) -/

/-- The first bin that an instruction names, as a bin of the module. -/
def State.firstBin (s : State) (c first : Nat) : Nat :=
  if first < 480 then c * 480 + first else ((s.borrowOf c).getD c) * 480 + (first - 480)
/-- BIN_RANGE (R253). -/
def State.binRangeBad (s : State) (c first count : Nat) : Bool :=
  let top := if (s.borrowOf c).isSome then 960 else 480
  decide (top < first + count) || (decide (first < 480) && decide (480 < first + count)) ||
    !s.bound c || (List.range count).any fun i => s.named (s.firstBin c first + i) != some (s.partOf c)
/-- The shape of a bin: split and chain length. -/
def State.shape (s : State) (g : Nat) : Bool × Nat := ((s.binRec g).split, (s.binRec g).chainLen)
/-- FIRE_SHAPE (R253), for HALF `half` where the instruction takes one. -/
def State.shapeBad (s : State) (g count : Nat) (half : Option Nat) : Bool :=
  let sh := s.shape g
  let n := sh.2 + 1
  (List.range count).any (fun i => s.shape (g + i) != sh) ||
    decide (count % n ≠ 0) || (List.range count).any (fun i => (s.binRec (g + i)).chainPos != i % n) ||
    (match half with | none => false | some h => (h == 0) == sh.1)
/-- The output groups of a forward fire (R254). -/
def State.forwardGroups (s : State) (g count half : Nat) : List FireGroup :=
  let n := (s.shape g).2 + 1
  if half = 3 then (List.range count).flatMap fun i => [⟨g + i, 1, 1, 0⟩, ⟨g + i, 1, 2, 256⟩]
  else if half = 0 then (List.range (count / n)).map fun i => ⟨g + n * i, n, 0, 0⟩
  else (List.range count).map fun i => ⟨g + i, 1, half, 0⟩
/-- The groups of a reverse read or a test: bin by bin. -/
def binGroups (g count : Nat) : List FireGroup := (List.range count).map fun i => ⟨g + i, 1, 0, 0⟩

/-- A rack instruction: its checks, then a fire in the queue. -/
def fireIssue (opc : Byte) (illegal : Bool) (check : Option Cause) (fire : Fire) (c : CoreId) (f : UFmt) (s : State) :
    State :=
  let k := c.val
  issueOr ⟨k, f.word opc, s.pcNext k, f.bad false || illegal, some f.tok.val, false, check,
      decide (64 ≤ (s.fires.filter fun h => h.core == k).length)⟩
    (fun t => if check = some .fireTooLarge then t.setFld (Reg.RIF_STAT k) Fl.RIF_STAT_FIRE_TOO_LARGE 1 else t)
    (fun t => (t.setFld (Reg.RIF_STAT k) Fl.RIF_STAT_QUEUE_FULL 1).held k)
    (fun t =>
      let t := t.tokIssue k f.tok.val
      { t with fires := t.fires ++ [fire] }) s

/-- The fields of R251. -/
def fireFirst (f : UFmt) : Nat := immF f.imm 0 10
def fireCount (f : UFmt) : Nat := immF f.imm 10 9
def fireLanes (f : UFmt) : Nat := immF f.imm 19 4
def fireHalf (f : UFmt) : Nat := immF f.imm 23 2
def fireCopy (f : UFmt) : Bool := immB f.imm 25
def fireRest (f : UFmt) : Bool := fireCount f == 0 || immF f.imm 26 6 != 0

/-- RACK.FIRE (R251 to R253). -/
def execRackFire (c : CoreId) (f : UFmt) (s : State) : Out :=
  let k := c.val
  let g := s.firstBin k (fireFirst f)
  let count := fireCount f
  let half := fireHalf f
  let src := s.a k f.as.val
  let dst := s.a k f.ad.val
  let stride := (s.g k f.gn.val).toNat
  let groups := s.forwardGroups g count half
  let fire : Fire := ⟨k, f.tok.val, .forward, groups, fireLanes f, fireCopy f, src.toNat, stride, dst.toNat, .queued, [],
    0, [], [], stOk⟩
  let n := 17 * inputBlocks groups
  let inBad := decide (pantrySize ≤ src.toNat) || fire.laneList.any fun l => decide (pantrySize < src.toNat + l * stride + n)
  let x := firstCause [(inBad || (fireCopy f && rangeBad dst fire.outBytes), .pantryRange),
    (s.binRangeBad k (fireFirst f) count, .binRange), (s.shapeBad g count (some half), .fireShape),
    (decide (1048576 < count * (if half = 3 then 2 else 1) * 1024 * fire.laneList.length), .fireTooLarge)]
  .next (fireIssue 0x50 (fireRest f || fireLanes f == 0) x fire c f s)

/-- RACK.REV (R251 to R253). -/
def execRackRev (c : CoreId) (f : UFmt) (s : State) : Out :=
  let k := c.val
  let g := s.firstBin k (fireFirst f)
  let count := fireCount f
  let src := s.a k f.as.val
  let dst := s.a k f.ad.val
  let fire : Fire := ⟨k, f.tok.val, .reverse, binGroups g count, 1, fireCopy f, src.toNat, 0, dst.toNat, .queued, [], 0, [],
    [], stOk⟩
  let x := firstCause [(rangeBad src (1024 * count) || (fireCopy f && rangeBad dst fire.outBytes), .pantryRange),
    (s.binRangeBad k (fireFirst f) count, .binRange), (s.shapeBad g count none, .fireShape),
    (decide (16 < count), .fireTooLarge)]
  .next (fireIssue 0x51 (fireRest f || fireLanes f != 0 || fireHalf f != 0) x fire c f s)

/-- RACK.TEST (R251 to R253). -/
def execRackTest (c : CoreId) (f : UFmt) (s : State) : Out :=
  let k := c.val
  let g := s.firstBin k (fireFirst f)
  let count := fireCount f
  let fire : Fire := ⟨k, f.tok.val, .test, binGroups g count, fireLanes f, false, 0, 0, 0, .queued, [], 0, [], [], stOk⟩
  let x := firstCause [(s.binRangeBad k (fireFirst f) count, .binRange), (s.shapeBad g count none, .fireShape)]
  .next (fireIssue 0x52 (fireRest f || fireLanes f == 0 || fireHalf f != 0 || fireCopy f) x fire c f s)

/-- RACK.FREE (R236, R252): the buffer space that token TOK holds is freed; the token itself does not change, and a PENDING one
holds none. -/
def execRackFree (c : CoreId) (f : UFmt) (s : State) : Out :=
  let k := c.val
  .next (issue ⟨k, f.word 0x53, s.pcNext k, f.bad false || f.imm != 0, none, false, none, false⟩ id
    (fun t => if t.tok k f.tok.val = tokPending then t else t.freeBuf k f.tok.val) s)

end Sys2Proof.Machine
end

