-- ==== Sys2Proof/Machine/Curtain.lean ====
section
/-! DEFINITION. Regions that come up and go down (R32, R38, R464 to R471): the shared operations. -/

namespace Sys2Proof.Machine

/-! ## A region goes down -/

/-- The end of a core's Pantry that Dark loses and a scrub clears: the retained dump range stays while it holds a dump
(R32, R196, R589). -/
def State.scrubEnd (s : State) (c : Nat) : Nat :=
  if c % 16 = 0 ∧ s.flag Reg.DUMP_STAT Fl.DUMP_STAT_RETAINED then 0x7800000 else pantrySize
/-- A core's Pantry at zero with valid check bits (R196). -/
def State.zeroPantry (s : State) (c : Nat) : State :=
  { s with
    pantry := sclear s.pantry (pantryKey c 0) (pantryKey c (s.scrubEnd c))
    pantryEcc := sclear s.pantryEcc (pantryKey c 0 / 8) (pantryKey c (s.scrubEnd c) / 8) }

/-- What the router of a core that goes Dark holds ends, as the router forwards nothing (R410, R414, R474): a message to a
core of its region ends ASLEEP and any other UNREACHABLE at its sender, a completion UNREACHABLE; one of another module is
lost with the router, and its sender ends it TIMEOUT (DESIGN CHOICE, log entry 64). -/
def State.routerDark (s : State) (c : Nat) : State :=
  (s.net.filter fun m => m.router == c && m.stage != .held && m.stage != .away).foldl (fun (s : State) m =>
    if m.orgModule ≠ s.module ∨ m.kind = .completion then s.dropNet m.id
    else if m.stage = .answered then s.backLost m
    else
      let home : NetMsg := { m with router := m.orgCore }
      if m.dstModule = s.module ∧ regionOf m.dstCore = regionOf c then s.asleepTo home m.orgCore
      else s.unreachable home m.orgCore) s

/-- A core of a region that goes Dark (R25, R32, R199, R233, R468, R480): its registers but for the binding, its code store,
its Pantry, its work and its claims are gone. Messages that it has not sent go with it, and so do the
entries it has staged (R304). -/
def State.coreDark (s : State) (c : Nat) : State :=
  let inWin := fun k => decide (coreWin c ≤ k) && decide (k < coreWin (c + 1)) && k != Reg.CORE_ID c
  let s := ((s.loseVolatile c).claimsGone c).routerDark c
  let mine : NetMsg → Bool := fun m => m.orgModule == s.module && m.orgCore == c
  let lost : NetMsg → NetMsg := fun m => if mine m then { m with timedOut := true } else m
  let keep : NetMsg → Bool := fun m => !(mine m && m.stage == .held)
  let s := { s with
    regs := sclearIf s.regs inWin
    shadow := sclearIf s.shadow inWin
    latches := sclearIf s.latches inWin
    code := sclear s.code (codeKey c 0) (codeKey (c + 1) 0)
    codeEcc := sclear s.codeEcc (codeKey c 0) (codeKey (c + 1) 0)
    net := (s.net.filter keep).map lost
    sigOuts := s.sigOuts.filter fun o => o.core != c
    scrubWrites := s.scrubWrites.filter fun w => w.core != c
    kvOps := s.kvOps.filter fun o => o.core != c
    kvHolds := (s.kvHolds.map fun (e : Nat × KvHold) =>
      if e.1 % 256 = c then (e.1, (⟨e.2.committed, 0, 0, []⟩ : KvHold)) else e).filter fun e =>
      e.2 != holdZero
    trips := sclear s.trips (c * 8) (c * 8 + 8)
    power.droop := sclear s.power.droop c (c + 1) }
  (s.zeroPantry c).setSleep c 4

/-- Core numbers of a region (R29). -/
def coresOf (r : Nat) : List Nat := (List.range 16).map fun j => 16 * r + j

/-- A region's bring-up stage: 0 none, 1 in inrush, 2 after it. -/
def State.stageOf (s : State) (r : Nat) : Nat := sread (fun _ => 0) s.power.upStage r
def State.setStage (s : State) (r x : Nat) : State := { s with power.upStage := swrite (fun _ => 0) s.power.upStage r x }

/-- A region is no longer asked to go down. -/
def State.downGone (s : State) (r : Nat) : State :=
  { s with power.curtainDowns := (s.power.curtainDowns.map fun l => l.filter fun q => q != r).filter fun l => !l.isEmpty }
/-- The inrush of a region is over, and with it the skipping of its neighbours (R470). -/
def State.inrushOver (s : State) : State := (List.range 16).foldl (fun (s : State) q => s.setSkip q skipInrush 0) s
/-- A region's segment switch opens (R468): the region is Dark, its domain off, its skipping ended; with the last region SP
goes off (R38); the caps of the others are worked out (R489). -/
def State.regionOff (s : State) (r : Nat) : State :=
  if !s.inRun r && s.stageOf r = 0 then s.downGone r
  else
    let s := if s.stageOf r = 1 then s.inrushOver else s
    let s := (s.setFld Reg.PWR_CURTAIN_STAT ⟨r, 1⟩ 0).setDomain r false
    let s := (coresOf r).foldl (fun (s : State) c => s.coreDark c) s
    let s := skipSources.foldl (fun (s : State) k => s.setSkip r k 0) s
    let s := s.downGone r
    let s := ((s.setStage r 0).wr (Reg.ARB_CAP r) 0).thrSync r
    let s := if (List.range 16).any fun q => s.domainOn q then s else s.setDomain 25 false
    s.recap

/-! ## The curtain sequence (R464 to R467) -/

/-- A region's place in curtain order. -/
def State.placeOf (s : State) (r : Nat) : Nat :=
  let order := (s.rd Reg.PWR_CURTAIN_ORDER).toNat
  ((List.range 16).findIdx? fun k => bitsOf order (4 * k) 4 == r).getD 0
def State.curtainBusy (s : State) : Bool := s.flag Reg.PWR_CURTAIN_STAT Fl.PWR_CURTAIN_STAT_BUSY
def State.currentUp (s : State) : Nat := s.fld Reg.PWR_CURTAIN_STAT Fl.PWR_CURTAIN_STAT_CURRENT
def State.upFail (s : State) (r : Nat) : State := s.setFld (Reg.STG_REG_STAT r) Fl.STG_REG_STAT_UP_FAIL 1

/-- Whether no inrush slot can be granted to a region (R525, R528). -/
def State.slotBarred (s : State) (r : Nat) : Bool :=
  !s.power.flowPin || s.fld Reg.THM_STAT Fl.THM_STAT_FLOW_STATE != 0 || s.flag (Reg.THM_REGION_W3 r) Fl.THM_REGION_W3_TRIP
/-- Whether a bring-up fails when it is asked for (R462, R463, R467). -/
def State.upBarred (s : State) (r : Nat) : Bool :=
  s.flag (Reg.STG_REG_STAT r) Fl.STG_REG_STAT_SHORT || s.flag (Reg.STG_REG_STAT r) Fl.STG_REG_STAT_OUT

/-- The list of asked regions with one more, at its place in the order, or last where that place has passed (R465). -/
def State.insertAsk (s : State) (r : Nat) : List (Nat × Bool) → List (Nat × Bool)
  | [] => [(r, s.curtainBusy && decide (s.placeOf r ≤ s.power.curtainPos))]
  | q :: qs =>
    if s.curtainBusy && decide (s.placeOf r ≤ s.power.curtainPos) then q :: s.insertAsk r qs
    else if q.2 || decide (s.placeOf r < s.placeOf q.1) then (r, false) :: q :: qs
    else q :: s.insertAsk r qs

/-- A region is asked to come up; one in Run, asked already or coming up takes no notice (R499). -/
def State.askUp (s : State) (r : Nat) : State :=
  if s.inRun r || s.stageOf r != 0 || (s.curtainBusy && s.currentUp == r) || s.power.curtainAsk.any (fun q => q.1 == r) then s
  else if s.upBarred r then s.upFail r
  else { s with power.curtainAsk := s.insertAsk r s.power.curtainAsk }

/-- The sequence at rest. -/
def State.curtainRest (s : State) : State :=
  let s := s.setFld Reg.PWR_CURTAIN_STAT Fl.PWR_CURTAIN_STAT_BUSY 0
  (s.setFld Reg.PWR_CURTAIN_STAT Fl.PWR_CURTAIN_STAT_WAIT_SLOT 0).setFld Reg.PWR_CURTAIN_STAT
    Fl.PWR_CURTAIN_STAT_CURRENT 0

/-- The next region asked for starts when none is coming up, and waits for a slot; one that can get no slot fails and the
next follows (R465 to R467). -/
def State.curtainGo : Nat → State → State
  | 0, s => s
  | fuel + 1, s =>
    if s.curtainBusy then s
    else match s.power.curtainAsk with
      | [] => s
      | q :: qs =>
        let t := { s with power.curtainAsk := qs, power.curtainPos := if q.2 then s.power.curtainPos else s.placeOf q.1 }
        if t.slotBarred q.1 then curtainGo fuel (t.upFail q.1)
        else
          let t := t.setFld Reg.PWR_CURTAIN_STAT Fl.PWR_CURTAIN_STAT_BUSY 1
          (t.setFld Reg.PWR_CURTAIN_STAT Fl.PWR_CURTAIN_STAT_CURRENT q.1).setFld Reg.PWR_CURTAIN_STAT
            Fl.PWR_CURTAIN_STAT_WAIT_SLOT 1
def State.curtainStart (s : State) : State := State.curtainGo (s.power.curtainAsk.length) s

/-- The region that was coming up is done, in Run or failed, and the next starts (R465). -/
def State.curtainNext (s : State) (r : Nat) : State :=
  if s.curtainBusy && s.currentUp == r && s.power.legacyUp != 1 then s.curtainRest.curtainStart else s

/-- Whether the legacy curtain-up has ended: no region is coming up any more. -/
def State.legacyEnd (s : State) : State :=
  if s.power.legacyUp = 1 ∧ (List.range 16).all (fun r => s.stageOf r == 0) then
    (State.curtainRest { s with power.legacyUp := 2 }).curtainStart
  else s

/-- A bring-up fails (R467): the segment opens, UP_FAIL sets, and the sequence goes on. -/
def State.bringUpFail (s : State) (r : Nat) : State := (((s.upFail r).regionOff r).curtainNext r).legacyEnd

/-- The sequence stops (R456, R529): what was asked for is forgotten, and a region that was coming up is left Dark. -/
def State.curtainStop (s : State) : State :=
  let s := { s with power.curtainAsk := [] }
  let s := (List.range 16).foldl (fun (s : State) r => if s.stageOf r = 0 then s else (s.upFail r).regionOff r) s
  let s := if s.power.legacyUp = 1 then { s with power.legacyUp := 2 } else s
  s.curtainRest

/-- The attempt that SHORT_CLR permitted is made as the region's segment switch closes (R463). -/
def State.attempt (s : State) (r : Nat) : State :=
  if sread (fun _ => false) s.power.shortMay r then
    { s with power.shortMay := swrite (fun _ => false) s.power.shortMay r false
             power.shortTry := swrite (fun _ => none) s.power.shortTry r (some s.now) }
  else s

/-! ## The legacy curtain-up (R471, R644) -/

def State.legacy (s : State) : Bool := s.flag Reg.PWR_STAT Fl.PWR_STAT_LEGACY
/-- All sixteen regions come up at once, while both feeds are in use; until then the curtain-up waits. -/
def State.legacyGo (s : State) : State :=
  if s.feedAOk && s.feedBOk then
    let s := { s with power.legacyUp := 1 }
    let s := (s.setDomain 25 true).setFld Reg.PWR_CURTAIN_STAT Fl.PWR_CURTAIN_STAT_BUSY 1
    let s := (List.range 16).foldl (fun (s : State) r =>
      if s.inRun r then s
      else if s.upBarred r || s.slotBarred r then s.upFail r
      else ((s.setStage r 1).setDomain r true).attempt r) s
    s.legacyEnd
  else { s with power.legacyUp := 3 }

/-- Regions asked to come up by CURTAIN_CTL, by a load or by a rebind (R465, R471). -/
def State.askRegions (s : State) (rs : List Nat) : State :=
  if s.legacy && s.power.legacyUp != 2 then (if s.power.legacyUp = 0 then s.legacyGo else s)
  else (rs.foldl (fun (s : State) r => s.askUp r) s).curtainStart

/-! ## Inrush (R469, R470) -/

/-- The regions that have a die sharing an edge with a die of `r`. -/
def neighbours (r : Nat) : List Nat :=
  (List.range 16).filter fun q => q != r && (List.range 2).any fun i => (List.range 2).any fun j =>
    let a := 2 * r + i
    let b := 2 * q + j
    (dieRow a == dieRow b && (dieCol a + 1 == dieCol b || dieCol b + 1 == dieCol a)) ||
      (dieCol a == dieCol b && (dieRow a + 1 == dieRow b || dieRow b + 1 == dieRow a))
/-- The neighbours of a region whose load passes the threshold. -/
def State.hotNeighbours (s : State) (r : Nat) : List Nat :=
  (neighbours r).filter fun q =>
    decide (s.fld Reg.PWR_INRUSH_CFG Fl.PWR_INRUSH_CFG_NEIGHBOUR_PCT * s.fld (Reg.ARB_CAP q) Fl.ARB_CAP_CAP_A <
      100 * (s.loadOf q / 1000))
/-- A slot granted, for which a feed is in use: SP is on first (R37, R38), the segment switch closes and inrush begins. -/
def State.slotGrant (s : State) (r : Nat) : State :=
  let s := (((s.setDomain 25 true).setStage r 1).setDomain r true).attempt r
  s.setFld Reg.PWR_CURTAIN_STAT Fl.PWR_CURTAIN_STAT_WAIT_SLOT 0
/-- Whether a region waits for its slot, with a feed in use. -/
def State.waitsSlot (s : State) (r : Nat) : Bool :=
  s.curtainBusy && s.currentUp == r && s.flag Reg.PWR_CURTAIN_STAT Fl.PWR_CURTAIN_STAT_WAIT_SLOT &&
    (s.feedAOk || s.feedBOk)

/-! ## A region reaches Run (R466) -/

/-- Bins of a core that an installation has filled. -/
def State.installedRacks (s : State) (c : Nat) : List Nat :=
  ((List.range 480).filter fun b => (s.binRec (480 * c + b)).state != .uninstalled).flatMap fun b => racksOf (480 * c + b) 0
/-- What a core finds as its region comes up: Run with its sequencer HALTED and its state at reset (R233), the spans of its
racks checked (R102), every label word read (R123), and a Pantry scrub begun (R196). -/
def State.coreUp (s : State) (c : Nat) : State :=
  let s := s.setSleep c 0
  let d := s.fresh
  let s := s.drew.checkSpans d c (s.installedRacks c) (List.range 4)
  let s := s.readLabels c fun k => k / 8192 / 15360 == c
  s.setFld (Reg.CORE_STAT c) Fl.CORE_STAT_SCRUB_BUSY 1

/-- A region in Run: its cap is 0 with MODULE_BUDGET until the caps are worked out (R489), and one in SAFE skips 1 in 2 (R428,
R499). -/
def State.regionUp (s : State) (r : Nat) : State :=
  let s := (s.setStage r 0).setFld Reg.PWR_CURTAIN_STAT ⟨r, 1⟩ 1
  let s := (coresOf r).foldl (fun (s : State) c => s.coreUp c) s
  let s := s.wr (Reg.ARB_CAP r) (BitVec.ofNat 64 (6 * 65536))
  let s := if s.flag (Reg.STG_REG_STAT r) Fl.STG_REG_STAT_SAFE then s.setSkip r skipSafe 3 else s
  ((s.thrSync r).recap.curtainNext r).legacyEnd

end Sys2Proof.Machine
end

