-- ==== Sys2Proof/Machine/Groups.lean ====
section
/-! DEFINITION. Commit groups: their checks and what a commit applies (R17 to R19, R86, R87, R143, R226, R305, R354, R394
to R396). -/

namespace Sys2Proof.Machine

/-- A group: its registers in offset order, with the bits of each that are fields of class S; its COMMIT_STATUS register. -/
structure Group where
  words : List (Nat × Nat)
  status : Nat

/-- Bits `[hi:lo]` as a mask. -/
def bitsMask (hi lo : Nat) : Nat := (2 ^ (hi + 1 - lo) - 1) * 2 ^ lo

def nrmGroup (c : Nat) : Group :=
  ⟨[(Reg.NRM_CTL c, bitsMask 4 0 + bitsMask 27 8), (Reg.NRM_WARMUP c, bitsMask 15 0), (Reg.NRM_FLOOR c, bitsMask 31 0)] ++
    (List.range 8).map fun n => (Reg.NRM_PT_CFG c n, bitsMask 1 0 + bitsMask 15 4), Reg.NRM_COMMIT_STATUS c⟩
def chkGroup (p : Nat) : Group :=
  ⟨[(Reg.CEL_CHK_CTL p, bitsMask 5 0 + bitsMask 31 16), (Reg.CEL_CHK_LIMITS p, bitsMask 31 0),
    (Reg.CEL_CHK_WINDOW p, bitsMask 4 0)], Reg.CEL_CHK_COMMIT_STATUS p⟩
def kvGroup (p : Nat) : Group :=
  ⟨[(Reg.SRV_KV_CTL p, bitsMask 1 0 + bitsMask 23 8), (Reg.SRV_KV_SHARE p, bitsMask 7 0),
    (Reg.SRV_KV_BUCKET_0 p, bitsMask 31 0), (Reg.SRV_KV_BUCKET_1 p, bitsMask 31 0), (Reg.SRV_KV_BUCKET_2 p, bitsMask 31 0),
    (Reg.SRV_KV_BUCKET_3 p, bitsMask 15 0)], Reg.SRV_KV_COMMIT_STATUS p⟩
def treeGroup (p : Nat) : Group :=
  ⟨(Reg.SRV_TREE_CTL p, bitsMask 4 0) :: (List.range 4).map fun k => (Reg.SRV_TREE_PAR p k, bitsMask 31 0),
    Reg.SRV_TREE_COMMIT_STATUS p⟩
def winGroup (c w : Nat) : Group :=
  ⟨[(Reg.WDS_WIN_BASE c w, bitsMask 26 6), (Reg.WDS_WIN_LEN c w, bitsMask 27 6)], Reg.WDS_WIN_COMMIT_STATUS c w⟩

/-! ## Checks (R395): (fails, code, word) in the order in which they are made -/

def ckRange : Nat := 1
def ckReserved : Nat := 2
def ckOrder : Nat := 3
def ckOverrun : Nat := 4
def ckState : Nat := 5
def ckSum : Nat := 6
def ckDependency : Nat := 7

/-- The first check that fails. -/
def firstFailed (cs : List (Bool × Nat × Nat)) : Option (Nat × Nat) := (cs.find? fun c => c.1).map fun c => c.2

/-- Reserved bits `[hi:lo]` of word `i`. -/
def ckBits (v : Nat → Nat) (i hi lo : Nat) : Bool × Nat × Nat := (bitsOf (v i) lo (hi + 1 - lo) != 0, ckReserved, i)

def nrmChecks (v : Nat → Nat) : List (Bool × Nat × Nat) :=
  let up := bitsOf (v 0) 8 8
  let down := bitsOf (v 0) 16 8
  let shift := bitsOf (v 0) 24 4
  [ckBits v 0 7 5, (decide (up < 9), ckRange, 0), (down != 0 && decide (down < 9), ckRange, 0),
    (decide (shift < 2) || decide (12 < shift), ckRange, 0), ckBits v 0 31 28, ckBits v 1 31 16] ++
    ((List.range 8).map fun n => [ckBits v (3 + n) 3 2, ckBits v (3 + n) 31 16]).flatten
def chkChecks (v : Nat → Nat) : List (Bool × Nat × Nat) :=
  let tv := bitsOf (v 1) 0 16
  let win := bitsOf (v 2) 0 5
  [ckBits v 0 15 6, (bitsOf (v 0) 16 16 == 0, ckRange, 0),
    (bitsOf (v 0) 4 2 != 0 && bitsOf (v 0) 0 2 == 0, ckDependency, 0),
    (decide (tv < 10) || decide (250 < tv), ckRange, 1), (decide (win < 10) || decide (24 < win), ckRange, 2),
    ckBits v 2 31 5]
def kvChecks (v : Nat → Nat) : List (Bool × Nat × Nat) :=
  let win := bitsOf (v 0) 8 8
  let bs := (List.range 7).map fun i => bitsOf (v (2 + i / 2)) (16 * (i % 2)) 16
  [ckBits v 0 7 2, ckBits v 0 31 24,
    (bitOf (v 0) 0 && (decide (win < 2) || decide (64 < win)), ckRange, 0),
    (decide (104 < win + bitsOf (v 0) 16 8), ckSum, 0),
    (bitsOf (v 1) 0 8 == 0 || decide (127 < bitsOf (v 1) 0 8), ckRange, 1), ckBits v 1 31 8,
    (bs.getD 0 0 == 0, ckRange, 2), ckBits v 5 31 16,
    ((List.range 6).any fun i => decide (bs.getD (i + 1) 0 ≤ bs.getD i 0), ckOrder, 5)]
def treeChecks (v : Nat → Nat) : List (Bool × Nat × Nat) :=
  let nodes := bitsOf (v 0) 0 5
  [(nodes == 0 || decide (16 < nodes), ckRange, 0), ckBits v 0 31 5] ++
    (List.range 16).map fun i =>
      let p := bitsOf (v (1 + i / 4)) (8 * (i % 4)) 8
      (decide (i < nodes) && (if i = 0 then p != 0xFF else decide (i ≤ p)), ckRange, 1 + i / 4)
def winChecks (closed : Bool) (v : Nat → Nat) : List (Bool × Nat × Nat) :=
  [(!closed, ckState, 0), ckBits v 0 5 0, ckBits v 0 31 27, ckBits v 1 5 0, ckBits v 1 31 28,
    (decide (0x8000000 < v 0 + v 1), ckOverrun, 1)]

/-! ## Committing (R394, R396) -/

/-- The values that a commit would apply: the shadow copies. -/
def State.staged (s : State) (g : Group) (i : Nat) : Nat :=
  match g.words[i]? with
  | none => 0
  | some w => (s.rdShadow w.1).toNat % 2 ^ 32

/-- A commit reported: RESULT, CHECK and WORD, and one more in SEQ. -/
def State.commitReport (s : State) (g : Group) (r : Option (Nat × Nat)) : State :=
  let seq := bitsOf (s.rd g.status).toNat 24 8
  let v := match r with
    | none => 1
    | some (k, w) => 2 + 256 * k + 65536 * w
  s.wr g.status (BitVec.ofNat 64 (v + 2 ^ 24 * ((seq + 1) % 256)))
/-- The shadow copies put in force. -/
def State.applyGroup (s : State) (g : Group) : State :=
  g.words.foldl (fun (s : State) w =>
    s.wr w.1 ((s.rd w.1 &&& ~~~(BitVec.ofNat 64 w.2)) ||| (s.rdShadow w.1 &&& BitVec.ofNat 64 w.2))) s

/-- A commit of a group with its checks; `after` is what the change brings with it, given the state before. -/
def State.commit (s : State) (g : Group) (checks : (Nat → Nat) → List (Bool × Nat × Nat)) (after : State → State → State) :
    State :=
  match firstFailed (checks (s.staged g)) with
  | some f => s.commitReport g (some f)
  | none => (after s (s.applyGroup g)).commitReport g none

/-- A point whose configuration a commit changes begins again (R87). -/
def State.nrmChanged (c : Nat) (old s : State) : State :=
  (List.range 8).foldl (fun (s : State) n =>
    if old.rd (Reg.NRM_PT_CFG c n) = s.rd (Reg.NRM_PT_CFG c n) then s
    else ((s.wr (Reg.NRM_PT_MS c n) 0).setFld (Reg.NRM_PT_COUNT c n) Fl.NRM_PT_COUNT_SAMPLES 0).setTripRun c n 0) s
/-- A commit of the checking configuration: test runs and windows under way go on with the old one (R143); a change of WIN_LOG2
restarts the statistical windows of the partition's bins (R144). -/
def State.chkChanged (p : Nat) (old s : State) : State :=
  let bins := (old.binRecs.filter fun e => e.2.part == p).map fun e => e.1
  let s := bins.foldl (fun (s : State) g => s.holdChk g (old.chkRegs g)) s
  if old.rd (Reg.CEL_CHK_WINDOW p) = s.rd (Reg.CEL_CHK_WINDOW p) then s
  else
    bins.foldl (fun (s : State) g => (s.clearStats g).setCheck g { s.check g with winCount := 0, winHeld := none }) s

def State.commitNrm (s : State) (c : Nat) : State := s.commit (nrmGroup c) nrmChecks (State.nrmChanged c)
def State.commitChk (s : State) (p : Nat) : State := s.commit (chkGroup p) chkChecks (State.chkChanged p)
def State.commitKv (s : State) (p : Nat) : State := s.commit (kvGroup p) kvChecks fun _ t => t
def State.commitTree (s : State) (p : Nat) : State := s.commit (treeGroup p) treeChecks fun _ t => t
def State.commitWin (s : State) (c w : Nat) : State :=
  s.commit (winGroup c w) (winChecks (s.winState c w == winClosed)) fun _ t => t

end Sys2Proof.Machine
end

