-- ==== Sys2Proof/Machine/CoreCtl.lean ====
section
/-! DEFINITION. What the host and the firmware do to a core: starting and halting its sequencer, its code store, its scrub
(R31, R34, R35, R196, R224, R233, R271, R272). -/

namespace Sys2Proof.Machine

/-! ## Idle (R224) -/

/-- Whether a core is idle: its sequencer HALTED or FAULTED, no work in flight, no PUT or GET outstanding. -/
def State.coreIdle (s : State) (c : Nat) : Bool :=
  (s.seq c == seqHalted || s.seq c == seqFaulted) && !s.workInFlight c && s.netOutstanding c == 0 &&
    !(s.fires.any fun f => f.core == c)

/-! ## SEQ.CTL (R271, R272) -/

/-- A sequencer started at a pc: IN_HANDLER clears. -/
def State.startAt (s : State) (c pc : Nat) : State :=
  (((s.setFld (Reg.SEQ_STAT c) Fl.SEQ_STAT_IN_HANDLER 0).setFld (Reg.SEQ_STAT c) Fl.SEQ_STAT_HELD 0).setPc c pc).setSeq c
    seqRun
def State.seqRefused (s : State) (c : Nat) : State := s.setFld (Reg.SEQ_STAT c) Fl.SEQ_STAT_WRITE_REFUSED 1

/-- START: accepted in HALTED or FAULTED, else refused, as it is in a module that a FATAL fault has halted (R588). -/
def State.seqStart (s : State) (c : Nat) (resume : Bool) : State :=
  if (s.seq c = seqHalted ∨ s.seq c = seqFaulted) ∧ !s.fatal then
    s.startAt c (if resume then s.pc c else s.fld (Reg.SEQ_START_PC c) Fl.SEQ_START_PC_PC)
  else s.seqRefused c

/-- HALT: the sequencer halts before the next issue; a TWAIT that blocks is abandoned and SEQ.PC still names it, and a core in
Hold or Doze wakes (R248, R271, R561). A sequencer HALTED or FAULTED stays so. -/
def State.seqHalt (s : State) (c : Nat) : State :=
  if s.seq c = seqRun ∨ s.seq c = seqWait then
    let t := (s.dropTwait c).setFld (Reg.SEQ_STAT c) Fl.SEQ_STAT_HELD 0
    let t := t.setSeq c seqHalted
    if 0 < s.sleep c ∧ s.sleep c ≤ 2 then t.wake c else t
  else s

/-- A write of SEQ.CTL: HALT with START in one write halts after the start (DEDUCED, log entry 35). -/
def State.writeSeqCtl (s : State) (c : Nat) (v : Word) : State :=
  let w := v.setWidth 64
  if 8 ≤ v.toNat then s.seqRefused c
  else
    let s := if Fl.SEQ_CTL_START.get w = 1 then s.seqStart c (Fl.SEQ_CTL_RESUME.get w == 1) else s
    if Fl.SEQ_CTL_HALT.get w = 1 then s.seqHalt c else s

/-! ## The code store's window (R232, R272) -/

def State.codeIndex (s : State) (c : Nat) : Nat := s.fld (Reg.SEQ_CODE_ADDR c) Fl.SEQ_CODE_ADDR_ADDR
def State.codeNext (s : State) (c : Nat) : State :=
  s.setFld (Reg.SEQ_CODE_ADDR c) Fl.SEQ_CODE_ADDR_ADDR ((s.codeIndex c + 1) % 32768)
/-- A 64-bit write of SEQ.CODE_DATA: refused while the sequencer runs. -/
def State.writeCodeData (s : State) (c : Nat) (w : DWord) : State :=
  if s.seq c = seqHalted ∨ s.seq c = seqFaulted then (s.setCode c (s.codeIndex c) w).codeNext c else s.seqRefused c
/-- A read of SEQ.CODE_DATA: the instruction at ADDR, which then moves on. -/
def State.readCodeData (s : State) (c : Nat) : State × DWord := (s.codeNext c, s.codeAt c (s.codeIndex c))

/-! ## Scrubs (R196) -/

/-- A scrub begun: SCRUB_BUSY reads 1, and lines read as zeros from now on. -/
def State.scrubStart (s : State) (c : Nat) : State := (s.zeroPantry c).setFld (Reg.CORE_STAT c) Fl.CORE_STAT_SCRUB_BUSY 1
/-- CORE.STAT.WRITE_REFUSED. -/
def State.coreRefused (s : State) (c : Nat) : State := s.setFld (Reg.CORE_STAT c) Fl.CORE_STAT_WRITE_REFUSED 1
/-- A write of CORE.SCRUB: accepted only while the core is idle. -/
def State.writeScrub (s : State) (c : Nat) (v : Word) : State :=
  if 2 ≤ v.toNat then s.coreRefused c
  else if v.toNat = 0 then s
  else if s.coreIdle c then s.scrubStart c
  else s.coreRefused c

/-! ## Cores taken out of a partition (R199, R392, R574) -/

/-- A sequencer stopped for an unload, a rebind or a restart: HALTED, its waits given up, its claim released. -/
def State.stopCore (s : State) (c : Nat) : State :=
  let s := s.seqHalt c
  let s := { s with sigWaits := s.sigWaits.filter fun w => w.core != c }
  s.claimsGone c
/-- Every window of a core closed (R199). -/
def State.closeWindows (s : State) (c : Nat) : State :=
  (List.range 64).foldl (fun (s : State) w => s.winClose c w) s

end Sys2Proof.Machine
end

