-- ==== Sys2Proof/Machine/Measure.lean ====
section
/-! DEFINITION. The measurement registers and their log (R390, R608, R610). -/

namespace Sys2Proof.Machine

/-- MEAS_i as bytes. -/
def State.measure (s : State) (i : Nat) : List Byte :=
  ((List.range 8).map fun k => leBytes 4 (s.rd (Reg.SEC_MEAS i k)).toNat).flatten
/-- Eight words written to registers from a digest. -/
def State.putDigest (s : State) (at' : Nat → Nat) (d : List Byte) : State :=
  (List.range 8).foldl (fun (s : State) k => s.wr (at' k) (BitVec.ofNat 64 (leAt d (4 * k) 4))) s

/-- The events of the measurement log (R610). -/
def evRom : Nat := 0
def evFirmware : Nat := 1
def evImage : Nat := 2
def evBinding : Nat := 3
def evUnload : Nat := 4
def evInstall : Nat := 5

/-- MEAS_i extended with a value, with one entry in the measurement log: entry n in slot n mod 256, an overwritten one
counted in SEC.LOG_LOST (R608, R610, R624). -/
def State.extend (s : State) (i event who : Nat) (v : List Byte) : State :=
  let v := bytesAt v 0 32
  let s := s.putDigest (Reg.SEC_MEAS i) (shake256 (s.measure i ++ v) 32)
  let s := s.bump (Reg.SEC_MEAS_COUNT i) Fl.SEC_MEAS_COUNT_COUNT
  let n := s.fld Reg.SEC_LOG_HEAD Fl.SEC_LOG_HEAD_NEXT_SEQ
  let entry := leBytes 4 n ++ leBytes 1 i ++ leBytes 1 event ++ leBytes 1 who ++ [0] ++ leBytes 8 s.hostTime ++ v
  let s := if n < 256 then s else s.bump Reg.SEC_LOG_LOST Fl.SEC_LOG_LOST_COUNT
  let s := { s with sec.measLog := ringPut s.sec.measLog (n % 256) entry }
  s.setFld Reg.SEC_LOG_HEAD Fl.SEC_LOG_HEAD_NEXT_SEQ (n + 1)

end Sys2Proof.Machine
end

