-- ==== Sys2Proof/Machine/Image.lean ====
section
/-! DEFINITION. Blocking images and their bindings, and the checks of a load (R357 to R386, R402). -/

namespace Sys2Proof.Machine

/-! ## Images -/

/-- A section: its type, the reserved field of its header, LENGTH, RECORDS, CRC and body (R360). -/
structure Section where
  type : Nat
  resv : Nat
  len : Nat
  records : Nat
  crc : Nat
  body : List Byte

/-- An image as fetched: its bytes, the sections found, and the bytes left over. -/
structure Image where
  raw : List Byte
  secs : List Section
  left : Nat

/-- At most `n` sections, and what follows them. -/
def sectionsOf : Nat → List Byte → List Section × List Byte
  | 0, bs => ([], bs)
  | n + 1, bs =>
    let len := leAt bs 4 4
    if bs.length < 16 ∨ bs.length < 16 + len then ([], bs)
    else
      let p := sectionsOf n (bs.drop (16 + len))
      (⟨leAt bs 0 2, leAt bs 2 2, len, leAt bs 8 4, leAt bs 12 4, bytesAt bs 16 len⟩ :: p.1, p.2)
def imageOf (bs : List Byte) : Image :=
  let p := sectionsOf (leAt bs 12 2) (bs.drop 128)
  ⟨bs, p.1, p.2.length⟩

/-- Section types (R361). -/
def secParts : Nat := 1
def secRoles : Nat := 2
def secPlaces : Nat := 3
def secBins : Nat := 4
def secRoutes : Nat := 5
def secRations : Nat := 6
def secWindows : Nat := 7
def secSleep : Nat := 8
def secLayers : Nat := 9
def secCode : Nat := 10
def secData : Nat := 11
def secPresets : Nat := 12
def secReloc : Nat := 13
def secEnd : Nat := 0xFFFF

/-- The record size of a type; 0 where a section is one record or none. -/
def secSize (t : Nat) : Nat := [0, 64, 8, 4, 8, 16, 16, 16, 4, 64, 0, 0, 16, 16].getD t 0
/-- The error of a section (R362, R402); the spec names none for SLEEP: ROLE (DESIGN CHOICE, log entry 36). -/
def secError (t : Nat) : Nat := [7, 12, 11, 11, 13, 14, 15, 16, 11, 17, 18, 19, 20, 21].getD t 7

/-- The place of the first section of a type; 0xFFF when there is none. -/
def Image.at (m : Image) (t : Nat) : Nat := (m.secs.findIdx? fun k => k.type == t).getD 0xFFF
/-- The records of the first section of a type. -/
def Image.rows (m : Image) (t : Nat) : List (List Byte) :=
  match m.secs.find? fun k => k.type == t with
  | none => []
  | some k => rowsOf (secSize t) k.records (k.body.take (secSize t * k.records))
/-- The sections of a type with their places. -/
def Image.all (m : Image) (t : Nat) : List (Nat × Section) :=
  (m.secs.zipIdx.filter fun k => k.1.type == t).map fun k => (k.2, k.1)

/-! ## What the header, the roles and the binding say -/

def Image.bytes (m : Image) : Nat := leAt m.raw 8 4
def Image.logicalModule (m : Image) : Nat := leAt m.raw 15 1
/-- Actual numbers (R385); 0xFF for none. -/
def bindPart (b : List Byte) (p : Nat) : Nat := if p < 16 then leAt b (8 + p) 1 else 0xFF
def bindModule (b : List Byte) (k : Nat) : Nat := if k < 48 then leAt b (24 + k) 1 else 0xFF

/-- The logical partitions of an image. -/
def Image.parts (m : Image) : List Nat := (m.rows secParts).map fun r => leAt r 0 1
def Image.partRow (m : Image) (p : Nat) : Option (List Byte) := (m.rows secParts).find? fun r => leAt r 0 1 == p
/-- A role's record, its partition, kind and flags (R365). -/
def Image.role (m : Image) (k : Nat) : Option (List Byte) := (m.rows secRoles).find? fun r => leAt r 0 1 == k
def Image.rolePart (m : Image) (k : Nat) : Nat := ((m.role k).map fun r => leAt r 1 1).getD 0xFF
def Image.roleKind (m : Image) (k : Nat) : Nat := ((m.role k).map fun r => leAt r 2 1).getD 0
def Image.roleFlags (m : Image) (k : Nat) : Nat := ((m.role k).map fun r => leAt r 3 1).getD 0
/-- The placements, as (core, role) (R366). -/
def Image.places (m : Image) : List (Nat × Nat) := (m.rows secPlaces).map fun r => (leAt r 0 2, leAt r 2 1)
/-- The cores placed in a logical partition. -/
def Image.placedIn (m : Image) (p : Nat) : List Nat :=
  (m.places.filter fun q => m.rolePart q.2 == p).map fun q => q.1
/-- The ration record of a role, and the one of a region (R372). -/
def Image.ration (m : Image) (kind k : Nat) : Option (List Byte) :=
  (m.rows secRations).find? fun r => leAt r 0 1 == kind && leAt r 1 1 == k
/-- The sleep permissions of a role or a region (R375). -/
def Image.sleepMask (m : Image) (kind k : Nat) : Nat :=
  (((m.rows secSleep).find? fun r => leAt r 0 1 == kind && leAt r 1 1 == k).map fun r => leAt r 2 1).getD 0
/-- The logical partition of a layer KV record: that of the first core of its set (DEDUCED, log entry 36). -/
def Image.layerPart (m : Image) (r : List Byte) : Nat :=
  (((m.places.find? fun q => q.1 == leAt r 32 2).map fun q => m.rolePart q.2)).getD 0xFF

/-! ## Checks: whether one fails, its error, section and record -/

abbrev Fail := Bool × Nat × Nat × Nat

/-- A check of each record of a section. -/
def Image.each (m : Image) (t err : Nat) (f : Nat → List Byte → Bool) : List Fail :=
  (m.rows t).zipIdx.map fun r => (f r.2 r.1, err, m.at t, r.2)
/-- The header and the binding, as LOAD_WHERE names them. -/
def inHeader (b : Bool) (err : Nat) : Fail := (b, err, 0xFFF, 0)
/-- Whether bytes are not all 0. -/
def notZero (bs : List Byte) (o n : Nat) : Bool := leAt bs o n != 0

/-- A revision for comparison: major, minor, stepping (R359). -/
def revOrder (v : Nat) : Nat := bitsOf v 0 8 * 65536 + bitsOf v 8 8 * 256 + bitsOf v 16 8

/-- MAGIC, IDENT, REVISION, PARAMS and the header's CRC (R358, R359, R362). -/
def State.headerChecks (s : State) (m : Image) : List Fail :=
  let h := m.raw
  let ident := (s.rd Reg.ID_IDENT).toNat
  let rev := (s.rd Reg.ID_REVISION).toNat
  let w0 := (s.rd Reg.ID_PARAMS).toNat
  [inHeader (leAt h 0 4 != 0x4D49584B || leAt h 4 2 != 1 || leAt h 6 2 != 128 || decide (leAt h 12 2 < 2) ||
      decide (4095 < leAt h 12 2) || leAt h 14 1 == 0 || decide (16 < leAt h 14 1) || decide (47 < leAt h 15 1) ||
      notZero h 19 1 || notZero h 22 2 || notZero h 27 1 || notZero h 31 1 || notZero h 42 2 || notZero h 64 60) 2,
    inHeader (leAt h 16 2 != bitsOf ident 0 16 || leAt h 18 1 != bitsOf ident 16 8 || leAt h 20 2 != bitsOf ident 32 16) 3,
    inHeader (decide (revOrder rev < revOrder (leAt h 24 4)) || decide (revOrder (leAt h 28 4) < revOrder rev)) 4,
    inHeader (leAt h 32 1 != bitsOf w0 0 8 || leAt h 33 1 != bitsOf w0 8 8 || leAt h 34 1 != bitsOf w0 16 8 ||
      leAt h 35 1 != bitsOf w0 24 8 || leAt h 36 4 != (s.rd Reg.ID_PARAMS_W1).toNat ||
      leAt h 40 2 != bitsOf (s.rd Reg.ID_PARAMS_W2).toNat 0 16) 5,
    inHeader (crc32c (bytesAt h 0 124) != leAt h 124 4) 6]

/-- Section CRCs, and FRAMING (R361, R362). -/
def State.frameChecks (s : State) (m : Image) : List Fail :=
  let n := m.secs.length
  (m.secs.zipIdx.map fun k => (crc32c k.1.body != k.1.crc, 6, k.2, 0)) ++
  (m.secs.zipIdx.map fun k =>
    let t := k.1.type
    let unknown := !((decide (1 ≤ t) && decide (t ≤ 13)) || t == secEnd)
    let want := if t = secCode then 16 + 8 * leAt k.1.body 10 2
      else if t = secData then (16 + leAt k.1.body 8 4 + 7) / 8 * 8
      else (secSize t * k.1.records + 7) / 8 * 8
    let one := t == secCode || t == secData
    let again := t != secData && (m.secs.take k.2).any fun q =>
      q.type == t && (t != secCode || leAt q.body 0 1 == leAt k.1.body 0 1)
    (unknown || k.1.len % 8 != 0 || k.1.len != want || (one && k.1.records != 1) || again ||
      (t == secParts) != (k.2 == 0) || (t == secEnd) != (k.2 + 1 == n), 7, k.2, 0)) ++
  [inHeader (n != leAt m.raw 12 2 || m.left != 0 || m.bytes != s.fld Reg.BLK_LOAD_LEN Fl.BLK_LOAD_LEN_BYTES ||
    decide (0x10000000 < m.bytes) || [secParts, secRoles, secPlaces, secBins, secRoutes, secRations, secWindows, secSleep,
      secEnd].any fun t => m.secs.all fun k => k.type != t) 7]

/-- Reserved fields of section headers, each with the error of its section (R362). -/
def Image.reservedChecks (m : Image) : List Fail := m.secs.zipIdx.map fun k => (k.1.resv != 0, secError k.1.type, k.2, 0)

/-- BINDING and PART_BUSY (R386). The logical partitions of an image are those its partition records and its roles name
(DEDUCED, log entry 36); one named twice is no matter of the binding (R364). -/
def State.bindChecks (s : State) (m : Image) (b : List Byte) : List Fail :=
  let ps := (m.parts ++ (m.rows secRoles).map fun r => leAt r 1 1).eraseDups.map fun p => bindPart b p
  let mods := (List.range 48).filter fun k => (m.rows secParts).any fun r => bitOf (leAt r 40 6) k
  let ms := mods.map fun k => bindModule b k
  [inHeader (leAt b 0 4 != 0x4442584B || leAt b 4 2 != 1 || notZero b 6 2 || notZero b 216 36 ||
      crc32c (bytesAt b 0 252) != leAt b 252 4 || (ps.any fun p => decide (15 < p)) || ps.eraseDups.length != ps.length ||
      (ms.any fun k => decide (47 < k)) || ms.eraseDups.length != ms.length ||
      bindModule b m.logicalModule != s.module) 8,
    inHeader (ps.any fun p => (s.part p).isSome) 9]

/-- CORE_BUSY and ROLE (R365, R366, R375). -/
def State.roleChecks (s : State) (m : Image) : List Fail :=
  let pl := m.places
  m.each secPlaces 10 (fun _ r => s.coreBad (leAt r 0 2) || (decide (leAt r 0 2 < 256) && s.bound (leAt r 0 2))) ++
  m.each secRoles 11 (fun i r => decide (31 < leAt r 3 1) || ((m.rows secRoles).take i).any fun q => leAt q 0 1 == leAt r 0 1) ++
  m.each secPlaces 11 (fun i r => notZero r 3 1 || decide (255 < leAt r 0 2) || (m.role (leAt r 2 1)).isNone ||
    bitOf (m.roleFlags (leAt r 2 1)) 3 || (pl.take i).any fun q => q.1 == leAt r 0 2) ++
  m.each secParts 11 (fun _ r =>
    let mine := pl.filter fun q => m.rolePart q.2 == leAt r 0 1
    !(mine.any fun q => bitOf (m.roleFlags q.2) 1) || (mine.filter fun q => bitOf (m.roleFlags q.2) 2).length != 1) ++
  m.each secSleep 11 fun _ r => notZero r 3 1

/-- The bits set in a module set. -/
def moduleSet (r : List Byte) : List Nat := (List.range 48).filter fun k => bitOf (leAt r 40 6) k

/-- PARTITION (R363, R364): the conditions that R364 lists, reserved fields, and no other range (R398). -/
def Image.partChecks (m : Image) : List Fail :=
  m.each secParts 12 (fun i r =>
    let slots := leAt r 6 2
    let size := leAt r 8 4
    let book := leAt r 24 2
    let nodes := leAt r 28 4
    notZero r 26 2 || notZero r 46 2 || notZero r 48 16 || decide (15 < leAt r 0 1) ||
      (((m.rows secParts).take i).any fun q => leAt q 0 1 == leAt r 0 1) ||
      leAt r 2 1 != (moduleSet r).length || !(moduleSet r).contains (leAt r 3 1) ||
      !(moduleSet r).contains m.logicalModule || (leAt r 1 1 != 0xFF && !m.parts.contains (leAt r 1 1)) ||
      decide (pantrySize < leAt r 12 4 + 2 * size * slots) ||
      decide (pantrySize < leAt r 32 4 + 320 * nodes) ||
      (book != 0xFFFF && !(m.placedIn (leAt r 0 1)).contains book) ||
      leAt r 36 4 % 64 != 0 || decide (pantrySize < leAt r 36 4 + 128)) ++
  [((m.rows secParts).length != leAt m.raw 14 1, 12, m.at secParts, 0)]

/-- BIN_MAP (R367, R368); a bin that an install holds is refused too (R393). -/
def State.binChecks' (s : State) (m : Image) (b : List Byte) : List Fail :=
  m.each secBins 13 fun _ r =>
    let c := leAt r 0 2
    let w := leAt r 4 2
    let v := leAt r 6 1
    let g := 480 * c + leAt r 2 2
    let q := s.binRec g
    decide (255 < c) || decide (479 < leAt r 2 2) || bitsOf w 14 2 != 0 || bitsOf v 5 3 != 0 ||
      !m.parts.contains (leAt r 7 1) || q.state == .uninstalled || q.layer != bitsOf w 0 12 ||
      q.format != bitsOf w 12 2 || q.split != bitOf v 0 || q.chainLen != bitsOf v 1 2 || q.chainPos != bitsOf v 3 2 ||
      q.part != bindPart b (leAt r 7 1) ||
      (match s.inst with
        | none => false
        | some k => k.bins.any fun j => j.bin == g)

/-! ## Routes (R369 to R371, R412, R413, R442, R653, R654) -/

/-- A route record with logical numbers. -/
def routeRow (r : List Byte) : Route :=
  ⟨leAt r 0 2, leAt r 2 1, bitsOf (leAt r 3 1) 0 1, bitOf (leAt r 3 1) 1, leAt r 4 1, leAt r 6 2, leAt r 8 2, leAt r 10 1,
    leAt r 11 1, leAt r 12 1⟩
/-- A route record with this module, which 0xFF and LOGICAL_MODULE both name, in one form (R369, R371). -/
def Image.ownModule (m : Image) (r : Route) : Route :=
  { r with destModule := if r.destModule = m.logicalModule then 0xFF else r.destModule }
/-- ROUTE. -/
def State.routeChecks (s : State) (m : Image) : List Fail :=
  let rs := (m.rows secRoutes).map fun b => m.ownModule (routeRow b)
  m.each secRoutes 14 fun i b =>
    let raw := routeRow b
    let r := m.ownModule raw
    let mesh := rs.filter fun q => !q.prompt
    notZero b 5 1 || notZero b 13 3 || decide (3 < leAt b 3 1) || decide (255 < r.router) || decide (r.destHi < r.destLo) ||
      !portExists r.router r.port r.index || (r.alt != 0xFF && !portExists r.router r.alt r.index) ||
      (r.prompt && (raw.destModule == 0xFF || r.port != 7)) ||
      ((rs.take i).any fun q => q.router == r.router && q.part == r.part && q.vc == r.vc && q.prompt == r.prompt && q.meets r) ||
      (!r.prompt && mesh.any fun a => a.badInto 0xFF r) ||
      (!r.prompt && (m.places.any fun q => q.1 == r.router) && decide (512 < (mesh.filter fun q => q.router == r.router).length +
        (s.routes.filter fun q => !q.prompt && q.router == r.router).length))

/-! ## Rations, windows and KV layers (R372 to R377) -/

/-- Bins and engines that the placed cores of an image hold in a region. -/
def Image.rationsIn (m : Image) (region o : Nat) : Nat :=
  m.places.foldl (fun a q => if regionOf q.1 = region then a + ((m.ration 0 q.2).map fun r => leAt r o 2).getD 0 else a) 0

/-- RATION. -/
def State.rationChecks (s : State) (m : Image) : List Fail :=
  m.each secRations 15 (fun _ r =>
    let region := leAt r 0 1 == 1
    let k := leAt r 1 1
    decide (1 < leAt r 0 1) || notZero r 12 4 ||
      (if region then decide (15 < k) || decide (7680 < leAt r 2 2) || decide (384 < leAt r 4 2) ||
          decide (leAt r 8 2 < leAt r 6 2) || decide (leAt r 2 2 < m.rationsIn k 2) || decide (leAt r 4 2 < m.rationsIn k 4) ||
          decide (830 < leAt r 8 2 + (s.imgsIn k).foldl (fun a i => a + i.cap) 0)
        else notZero r 6 6 || decide (960 < leAt r 2 2) || decide (24 < leAt r 4 2))) ++
  m.each secPlaces 15 fun _ r => (m.ration 0 (leAt r 2 1)).isNone

/-- WINDOW. -/
def Image.windowChecks (m : Image) : List Fail :=
  m.each secWindows 16 fun i r =>
    let base := leAt r 4 4
    let len := leAt r 8 4
    decide (63 < leAt r 1 1) || decide (1 < leAt r 2 1) || notZero r 3 1 || notZero r 12 4 || base % 64 != 0 ||
      len % 64 != 0 || len == 0 || decide (pantrySize < base + len) ||
      ((m.rows secWindows).take i).any fun q => leAt q 0 1 == leAt r 0 1 && leAt q 1 1 == leAt r 1 1

/-- The cores of a layer's set. -/
def setOf (r : List Byte) : List Nat := (List.range (min 16 (leAt r 4 1))).map fun i => leAt r (32 + 2 * i) 2
/-- The areas that layer records take on a core, as (base, length): pool, staging area, map areas where it leads, and the
up-projections, of whose length the spec says nothing, as one byte at their offset (DESIGN CHOICE, log entry 36). -/
def Image.areasOn (m : Image) (c : Nat) : List (Nat × Nat) :=
  let mine := (m.rows secLayers).filter fun r => (setOf r).contains c
  let shared := (mine.take 1).flatMap fun r => [(leAt r 8 4, 36864 * leAt r 12 2), (leAt r 16 4, 9792 * leAt r 14 2)]
  shared ++ mine.flatMap fun r =>
    (if (setOf r).head? = some c then [(leAt r 20 4, 2048 * leAt r 14 2)] else []) ++ [(leAt r 24 4, 1)]
/-- Whether two areas overlap: a byte lies in both. -/
def areasMeet (a b : Nat × Nat) : Bool :=
  a.2 != 0 && b.2 != 0 && decide (a.1 < b.1 + b.2) && decide (b.1 < a.1 + a.2)
def areasBad (l : List (Nat × Nat)) : Bool :=
  (l.any fun a => decide (pantrySize < a.1 + a.2)) ||
    l.zipIdx.any fun a => (l.take a.2).any fun b => areasMeet a.1 b

/-- LAYER_KV (R376, R377): the conditions that R377 lists, reserved fields, and no other range (R398). -/
def Image.layerChecks (m : Image) : List Fail :=
  let rows := m.rows secLayers
  m.each secLayers 17 (fun i r =>
    let set := setOf r
    let p := m.layerPart r
    let plain := rows.filter fun q => m.layerPart q == p && !bitOf (leAt q 5 1) 1
    decide (3 < leAt r 5 1) || notZero r 28 4 ||
      (set.any fun c => !(m.placedIn p).contains c) ||
      (!bitOf (leAt r 5 1) 1 && (decide (plain.length ≤ leAt r 2 2) ||
        (plain.filter fun q => leAt q 2 2 == leAt r 2 2).length != 1)) ||
      ((rows.take i).any fun q => ((setOf q).any fun c => set.contains c) &&
        (leAt q 8 4 != leAt r 8 4 || leAt q 12 2 != leAt r 12 2 || leAt q 14 2 != leAt r 14 2 || leAt q 16 4 != leAt r 16 4)) ||
      (set.any fun c => areasBad (m.areasOn c)))

/-! ## Code and data (R379, R380) -/

def Image.codeChecks (m : Image) : List Fail :=
  (m.all secCode).map fun k =>
    let b := k.2.body
    let lo := leAt b 2 2
    let hi := leAt b 4 2
    (decide (1 < leAt b 1 1) || notZero b 12 4 || decide (hi < lo) || decide (32767 < hi) ||
      decide (leAt b 6 2 < lo) || decide (hi < leAt b 6 2) ||
      (leAt b 1 1 == 1 && (decide (leAt b 8 2 < lo) || decide (hi < leAt b 8 2))) ||
      leAt b 10 2 == 0 || decide (hi - lo + 1 < leAt b 10 2), 18, k.1, 0)
def Image.dataChecks (m : Image) : List Fail :=
  let ds := m.all secData
  ds.map fun k =>
    let b := k.2.body
    let o := leAt b 4 4
    let n := leAt b 8 4
    (notZero b 1 3 || notZero b 12 4 || o % 8 != 0 || n == 0 || decide (16777216 < n) ||
      decide (pantrySize < o + n) || (ds.any fun q => decide (q.1 < k.1) && leAt q.2.body 0 1 == leAt b 0 1 &&
        decide (leAt q.2.body 4 4 < o + n) && decide (o < leAt q.2.body 4 4 + leAt q.2.body 8 4)), 19, k.1, 0)

/-! ## Presets (R381, R382) -/

/-- The groups of a module-scope preset of a partition. -/
def partGroups (p : Nat) : List Group := [chkGroup p, kvGroup p, treeGroup p]
/-- Registers of role scope that take their value at once, with their least and largest values: 0 of CORE.NET_LIMIT is
reserved (R225). -/
def liveRegs (c : Nat) : List (Nat × Nat × Nat) :=
  [(Reg.CORE_NET_LIMIT c, 1, 0xFFFF), (Reg.CORE_WAIT_LIMIT c, 0, 0xFFFF), (Reg.RND_CTL c, 0, 7)]
/-- A preset record as writes of 32-bit registers: of WIDTH 8 it writes the two at its OFFSET and above it (R23, R381). -/
def presetWords (r : List Byte) : List (List Byte) :=
  if leAt r 3 1 = 8 then
    [r.take 12 ++ leBytes 4 0, r.take 4 ++ leBytes 4 (leAt r 4 4 + 4) ++ bytesAt r 12 4 ++ leBytes 4 0]
  else [r]
/-- The presets of an image as such writes. -/
def Image.presets (m : Image) : List (List Byte) := (m.rows secPresets).flatMap presetWords
/-- What a preset names: registers (with whether they are staged), given the cores and the actual partition. -/
def Image.presetRegs (m : Image) (b r : List Byte) : List (Nat × Bool) :=
  let scope := leAt r 0 2
  let o := leAt r 4 4
  if scope = 0xFFFF then
    let p := leAt r 2 1
    let q := bindPart b p
    ((partGroups p).zip (partGroups q)).flatMap fun g =>
      (g.1.words.zip g.2.words).filterMap fun w => if w.1.1 = o then some (w.2.1, true) else none
  else
    (m.places.filter fun q => q.2 == scope).flatMap fun q =>
      ((liveRegs q.1).filterMap fun w => if w.1 = coreWin q.1 + o then some (w.1, false) else none) ++
        ((nrmGroup q.1).words.filterMap fun w => if w.1 = coreWin q.1 + o then some (w.1, true) else none)
/-- Whether a preset names a register of R382. -/
def Image.presetOk (m : Image) (r : List Byte) : Bool :=
  let scope := leAt r 0 2
  let o := leAt r 4 4
  if scope = 0xFFFF then m.parts.contains (leAt r 2 1) && (partGroups (leAt r 2 1)).any fun g => g.words.any fun w => w.1 == o
  else (m.role scope).isSome && decide (scope < 256) &&
    ((liveRegs 0).any (fun w => w.1 == coreWin 0 + o && decide (w.2.1 ≤ leAt r 8 8) &&
      decide (leAt r 8 8 ≤ w.2.2)) ||
      (nrmGroup 0).words.any fun w => w.1 == coreWin 0 + o)

/-- The presets of an image written: staged registers to their shadow copies. -/
def State.putPresets (s : State) (m : Image) (b : List Byte) : State :=
  m.presets.foldl (fun (s : State) r =>
    (m.presetRegs b r).foldl (fun (s : State) w =>
      if w.2 then s.wrShadow w.1 (BitVec.ofNat 64 (leAt r 8 8)) else s.wr w.1 (BitVec.ofNat 64 (leAt r 8 8))) s) s
/-- The groups that the presets of an image name, with their checks. -/
def Image.presetGroups (m : Image) (b : List Byte) : List (Nat × Nat) :=
  let regs := m.presets.flatMap fun r => m.presetRegs b r
  let names := fun (g : Group) => g.words.any fun w => regs.any fun q => q.1 == w.1
  ((m.places.map fun q => (0, q.1)).filter fun k => names (nrmGroup k.2)) ++
    (m.parts.flatMap fun p => [(1, bindPart b p), (2, bindPart b p), (3, bindPart b p)]).filter fun k =>
      names ((partGroups k.2).getD (k.1 - 1) (chkGroup 0))
/-- Whether a group's commit would be refused. -/
def State.groupBad (s : State) (k : Nat × Nat) : Bool :=
  if k.1 = 0 then (firstFailed (nrmChecks (s.staged (nrmGroup k.2)))).isSome
  else if k.1 = 1 then (firstFailed (chkChecks (s.staged (chkGroup k.2)))).isSome
  else if k.1 = 2 then (firstFailed (kvChecks (s.staged (kvGroup k.2)))).isSome
  else (firstFailed (treeChecks (s.staged (treeGroup k.2)))).isSome
def State.commitGroup (s : State) (k : Nat × Nat) : State :=
  if k.1 = 0 then s.commitNrm k.2 else if k.1 = 1 then s.commitChk k.2 else if k.1 = 2 then s.commitKv k.2
  else s.commitTree k.2

/-- Whether the NRM presets of a role that no record places would be refused: its group is judged as that of a core just
reset (DESIGN CHOICE, log entry 36). -/
def State.unplacedBad (s : State) (m : Image) (role : Nat) : Bool :=
  let g := nrmGroup 0
  let mine := m.presets.filter fun r => leAt r 0 2 == role
  let named := mine.any fun r => g.words.any fun w => w.1 == coreWin 0 + leAt r 4 4
  let t := g.words.foldl (fun (t : State) w => t.wrShadow w.1 (resetOf w.1)) s
  let t := mine.foldl (fun (t : State) r => t.wrShadow (coreWin 0 + leAt r 4 4) (BitVec.ofNat 64 (leAt r 8 8))) t
  (m.places.all fun q => q.2 != role) && named && t.groupBad (0, 0)

/-- PRESET: a record that names a group whose checks fail is reported at the last record of that group. -/
def State.presetChecks (s : State) (m : Image) (b : List Byte) : List Fail :=
  let woken := m.places.foldl (fun (t : State) q => if s.sleep q.1 = 3 then t.retainLoss q.1 else t) s
  let t := woken.putPresets m b
  let bad := (m.presetGroups b).filter fun k => t.groupBad k
  m.each secPresets 20 (fun _ r =>
    if leAt r 3 1 = 8 then leAt r 4 4 % 8 != 0 || (presetWords r).any fun q => !m.presetOk q
    else leAt r 3 1 != 4 || notZero r 12 4 || !m.presetOk r) ++
  m.each secPresets 20 (fun i r =>
    let names := fun q : List Byte => leAt q 0 2 == leAt r 0 2 && (presetWords q).any fun v =>
      (nrmGroup 0).words.any fun w => w.1 == coreWin 0 + leAt v 4 4
    decide (leAt r 0 2 < 256) && names r && !(((m.rows secPresets).drop (i + 1)).any names) && s.unplacedBad m (leAt r 0 2)) ++
  m.each secPresets 20 fun i r =>
    let mine := fun (k : Nat × Nat) (q : List Byte) =>
      let g := if k.1 = 0 then nrmGroup k.2 else (partGroups k.2).getD (k.1 - 1) (chkGroup 0)
      (presetWords q).any fun v => (m.presetRegs b v).any fun w => g.words.any fun x => x.1 == w.1
    bad.any fun k => mine k r && !((m.rows secPresets).drop (i + 1)).any fun q => mine k q

/-! ## Relocation (R383, R384) -/

/-- The value of a relocation; none where ARG names nothing. -/
def State.relocValue (s : State) (b r : List Byte) : Option Nat :=
  let arg := leAt r 5 1
  let add := leAt r 12 4
  if leAt r 0 1 = 0 then (if arg < 48 ∧ bindModule b arg < 48 then some (bindModule b arg) else none)
  else if leAt r 0 1 = 1 then (if arg < 16 ∧ bindPart b arg < 16 then some (bindPart b arg) else none)
  else if leAt r 0 1 = 2 then some (leAt b 72 8 + add)
  else if leAt r 0 1 = 3 then some (leAt b 80 8 + add)
  else if leAt r 0 1 = 4 then (if arg < 16 then some (leAt b (88 + 8 * arg) 8 + add) else none)
  else if leAt r 0 1 = 5 then some s.module
  else none
/-- The section and the place in its body that a relocation names: WHERE as an index of the code store (DEDUCED, log
entry 36) or a Pantry offset. -/
def Image.relocAt (m : Image) (r : List Byte) : Option (Nat × Nat) :=
  let role := leAt r 2 1
  let at' := leAt r 8 4
  if leAt r 1 1 = 0 then
    ((m.all secCode).find? fun k => leAt k.2.body 0 1 == role && decide (leAt k.2.body 2 2 ≤ at') &&
      decide (at' < leAt k.2.body 2 2 + leAt k.2.body 10 2)).map fun k => (k.1, 16 + 8 * (at' - leAt k.2.body 2 2))
  else if leAt r 1 1 = 1 ∧ at' % 8 = 0 then
    ((m.all secData).find? fun k => leAt k.2.body 0 1 == role && decide (leAt k.2.body 4 4 ≤ at') &&
      decide (at' + 8 ≤ leAt k.2.body 4 4 + leAt k.2.body 8 4)).map fun k => (k.1, 16 + at' - leAt k.2.body 4 4)
  else none
/-- RELOC. -/
def State.relocChecks (s : State) (m : Image) (b : List Byte) : List Fail :=
  m.each secReloc 21 fun _ r =>
    let w := leAt r 4 1
    w == 0 || decide (64 < w) || decide (63 < leAt r 3 1) || decide (64 < leAt r 3 1 + w) || notZero r 6 2 ||
      (m.relocAt r).isNone ||
      (match s.relocValue b r with
        | none => true
        | some v => decide (2 ^ w ≤ v))

/-- Bits of a word in a body replaced. -/
def patchBody (body : List Byte) (o pos w v : Nat) : List Byte :=
  let old := leAt body o 8
  let new := old - bitsOf old pos w * 2 ^ pos + v % 2 ^ w * 2 ^ pos
  body.take o ++ leBytes 8 new ++ body.drop (o + 8)
/-- The sections with every relocation applied, in the order of the records. -/
def State.relocated (s : State) (m : Image) (b : List Byte) : List Section :=
  (m.rows secReloc).foldl (fun (ks : List Section) r =>
    match m.relocAt r, s.relocValue b r with
    | some p, some v => ks.modify p.1 fun k => { k with body := patchBody k.body p.2 (leAt r 3 1) (leAt r 4 1) v }
    | _, _ => ks) m.secs

/-! ## Every check of a load, in ascending order of error code (DESIGN CHOICE, log entry 36) -/

def State.loadChecks (s : State) (m : Image) (b : List Byte) : List Fail :=
  s.headerChecks m ++ s.frameChecks m ++ s.bindChecks m b ++ s.roleChecks m ++ m.partChecks ++ s.binChecks' m b ++
    s.routeChecks m ++ s.rationChecks m ++ m.windowChecks ++ m.layerChecks ++ m.codeChecks ++ m.dataChecks ++
    s.presetChecks m b ++ s.relocChecks m b ++ m.reservedChecks
def State.loadFailure (s : State) (m : Image) (b : List Byte) : Option (Nat × Nat × Nat) :=
  ((s.loadChecks m b).find? fun f => f.1).map fun f => f.2

end Sys2Proof.Machine
end

