-- ==== Sys2Proof/Machine/Requests.lean ====
section
/-! DEFINITION. Commands of the host interface and of the admission point: descriptors, passes admitted, notices, deadlines,
transfers that complete and completions written (R311 to R333, R339, R340, R544 to R550). -/

namespace Sys2Proof.Machine

/-! ## Admission (R319) -/

/-- PASS_ADMISSION (R319): the passes that enter the first layer of a partition in one beat. -/
def execPassAdmission (p : PartId) (s : State) : Out :=
  .next (s.settle ((State.admitN p.val 4 4 none s).serve))

/-- COMMIT_NOTICE (R328): a commit notice reaches the host interface block. -/
def execCommitNotice (id : Nat) (s : State) : Out :=
  .next (s.settle (match s.findPn id with
    | none => s
    | some m =>
      let t := s.takePn id
      match m.body with
      | .commitNotice x seq count _ =>
        match t.notices.find? fun n => n.ctx == x && n.seq == seq && n.tokens.length == count with
        | none => t
        | some n => (({ t with notices := removeFirst n t.notices }).noticeIn n).serve
      | _ => s))

/-- DEADLINE_TIMER (R332): the notices of the requests whose deadline the counter has reached. -/
def execDeadlineTimer (s : State) : Out :=
  let due := s.reqs.filter fun r => r.runsPasses && r.deadline != 0 && !r.sent && decide (r.t0 + r.deadline ≤ s.hostTime)
  .next (due.foldl (fun (s : State) r =>
    match s.headCore r.part with
    | none => s
    | some h => (s.sendPn h s.module nodeHost 0 (.deadline r.ctx r.id)).putReq { r with sent := true }) s)

/-- DEADLINE (R332): a deadline notice reaches the head core; the pass in flight and every later one is late. -/
def execDeadline (id : Nat) (s : State) : Out :=
  .next (match s.findPn id with
    | none => s
    | some m =>
      let t := s.takePn id
      match m.body with
      | .deadline x tag =>
        let late : Pass → Pass := fun q => if q.ctx = x ∧ q.req = tag then { q with late := true } else q
        let seen : Req → Req := fun r => if r.id = tag then { r with noticed := true } else r
        { t with passes := t.passes.map late, reqs := t.reqs.map seen }
      | _ => s)

/-! ## Writing completions (R547 to R550) -/

/-- COMPLETION_WRITE (R547, R550): the next completion of a queue is written, or its write fails. -/
def execCompletionWrite (q : QueueId) (ok : Bool) (s : State) : Out :=
  let k := s.queue q.val
  .next (s.settle (match k.waiting with
    | [] => s
    | _ :: cs =>
      if k.state = qDisabled ∨ k.state = qEnabling ∨ k.full then s
      else if ok then ((s.writeCompl q.val).queueDrained q.val).serve
      else
        let t := s.setQueue q.val { k with state := qError, error := 6, waiting := cs }
        (t.bump Reg.HIF_CPL_DROPPED Fl.HIF_CPL_DROPPED_COUNT).serve))

/-! ## Fetching descriptors (R544 to R546, R550) -/

/-- Whether the host returned fewer prompt tokens than a descriptor names: a failed read, which fails its fetch (R313;
DESIGN CHOICE, log entry 74). -/
def State.promptShort (s : State) (op : Nat) (d : List Byte) (prompt : List Word) : Bool :=
  (op == opGenerate || op == opAdapt) && !descBad d && s.tenantOn (leAt d 4 2) && decide (prompt.length < leAt d 12 4)
/-- The records that came with descriptors or reads are of this command: a request that has not used its own has it read again
in its turn (R310). -/
def State.dropRecords (s : State) : State :=
  let drop : Req → Req := fun r => { r with record := none }
  { s with reqs := s.reqs.map drop }

/-- A descriptor of queue `q` arrives, of the operation whose command this is; one of no operation may come by any. The command
holds the module's non-caching read of the slot at SQ_BASE + 64 × SQ head and of the prompt at PROMPT_ADDR with what they bring
(R313, R546). -/
def State.descriptor (s : State) (op q : Nat) (d : Option (List Byte)) (prompt : List Word)
    (record : Option (List Byte)) : State :=
  let k := s.queue q
  if s.turnOf ≠ some q ∨ !s.flag Reg.HIF_STAT Fl.HIF_STAT_LINK_UP then s
  else
    match d with
    | none => ((s.emit (.hostRead (k.sqBase + 64 * k.sqHead) 64)).setQueue q { k with state := qError, error := 4 }).queueDrained q
    | some d =>
      if leAt d 0 1 ≠ op ∧ leAt d 0 1 ≤ 5 then s
      else
      let s := s.emit (.hostRead (k.sqBase + 64 * k.sqHead) 64)
      let s := if (op == opGenerate || op == opAdapt) && !descBad d && leAt d 12 4 != 0 then
        s.emit (.hostRead (leAt d 16 8) (4 * leAt d 12 4)) else s
      if s.promptShort op d prompt then (s.setQueue q { k with state := qError, error := 4 }).queueDrained q
      else
        let limit := s.fld (Reg.SRV_CLS_TTFT (leAt d 6 1 % 8)) Fl.SRV_CLS_TTFT_LIMIT
        let r := reqOf s.nextId q s.hostTime limit d (prompt.map fun w => w.toNat) record
        let bad := descBad d
        let off := !bad && !s.tenantOn r.tenant
        if (bad || off) && !s.placeFree then s
        else
          let s := (s.took q).setQueue q { k with sqHead := (k.sqHead + 1) % k.sqSize }
          let s := { s with nextId := s.nextId + 1 }
          if bad then s.endReq r cplDescriptor
          else if off then s.endReq r cplTenant
          else ({ s with reqs := s.reqs ++ [r] }).serve.dropRecords

/-- CREATE (R311): a descriptor arrives, with the record read for it. -/
def execCreate (q : QueueId) (desc record : Option (List Byte)) (s : State) : Out :=
  .next (s.settle (s.descriptor opCreate q.val desc [] record))
/-- GENERATE (R316): a descriptor arrives, with the prompt that it names and the record read if its context is PARKED. -/
def execGenerate (q : QueueId) (desc : Option (List Byte)) (prompt : List Word) (record : Option (List Byte)) (s : State) :
    Out :=
  .next (s.settle (s.descriptor opGenerate q.val desc prompt record))
/-- ADAPT (R346): a descriptor arrives, with its training tokens. -/
def execAdapt (q : QueueId) (desc : Option (List Byte)) (prompt : List Word) (record : Option (List Byte)) (s : State) :
    Out :=
  .next (s.settle (s.descriptor opAdapt q.val desc prompt record))
/-- PARK (R339): a descriptor arrives. -/
def execPark (q : QueueId) (desc : Option (List Byte)) (s : State) : Out :=
  .next (s.settle (s.descriptor opPark q.val desc [] none))
/-- RESUME (R340): a descriptor arrives. -/
def execResume (q : QueueId) (desc record : Option (List Byte)) (s : State) : Out :=
  .next (s.settle (s.descriptor opResume q.val desc [] record))
/-- DELETE (R343): a descriptor arrives. -/
def execDelete (q : QueueId) (desc : Option (List Byte)) (s : State) : Out :=
  .next (s.settle (s.descriptor opDelete q.val desc [] none))

/-! ## Transfers that complete -/

/-- PARK_COMPLETE (R339, R536): the writes of a park have completed, or one has failed. -/
def execParkComplete (ctx : CtxId) (ok : Bool) (s : State) : Out :=
  .next (s.settle ((s.endPark ctx.val (ok && s.cacheOk)).serve))

/-- The request that a resume of a context serves. -/
def State.resumeReq (s : State) (x : Nat) : Option Req :=
  s.reqs.find? fun q => q.ctx == x && q.started && q.status.isNone && (q.runsPasses || q.op == opResume)
/-- The record that a resume reads has come: the resume goes on with it, or ends after a read error (R310, R340). -/
def State.recordIn (s : State) (x : Nat) (b : Option (List Byte)) : State :=
  let s := s.setCtx x { s.ctx x with st := .parked }
  match s.resumeReq x, b with
  | none, _ => s.serve
  | some q, none => (s.endReq q cplLoft).serve
  | some q, some b => ((s.putReq { q with started := false, record := some b }).serve).dropRecords

/-- The CREATE of a context whose record is being read (R310). -/
def State.createReq (s : State) (x : Nat) : Option Req := s.reqs.find? fun q => q.ctx == x && q.op == opCreate && q.started
/-- The record that a CREATE reads has come, or its read has failed. -/
def State.createIn (s : State) (x : Nat) (b : Option (List Byte)) : State :=
  match s.createReq x, b with
  | none, _ => s
  | some q, none => (s.endReq q cplLoft).serve
  | some q, some b => (s.createWith { q with record := some b } b).serve

/-- RESUME_COMPLETE (R340, R536): a read of a resume has come back. With the record the resume goes on; with the pages the
request goes on, or ends after a read error. The record that a CREATE reads in its turn comes by this command too (DESIGN
CHOICE, log entry 74). -/
def execResumeComplete (ctx : CtxId) (mem : List (Nat × List Byte)) (s : State) : Out :=
  let x := ctx.val
  let mem := s.hostMem mem
  .next (s.settle (if (s.createReq x).isSome then s.createIn x (memAt mem (recordAddr s x) 4096)
    else if (s.ctx x).st ≠ .resuming then s
    else if (s.ctx x).resident = none then s.recordIn x (memAt mem (recordAddr s x) 4096)
    else
      let r := s.endResume x mem
      match r.1.resumeReq x with
      | none => r.1.serve
      | some q => if r.2 then r.1.serve else (r.1.endReq q cplLoft).serve))

/-- TEN_REFILL (R331): an amount added to a tenant's balance. -/
def execTenRefill (t : TenantId) (v : DWord) (s : State) : Out :=
  .next (s.settle ((s.addBalance t.val (v.setWidth 32).toNat).serve))

end Sys2Proof.Machine
end

