-- ==== Sys2Proof/Machine/Loader.lean ====
section
/-! DEFINITION. Loading and unloading blocking images (R387 to R393, R401 to R404). -/

namespace Sys2Proof.Machine

/-! ## States of the loader (R401) -/

def ldIdle : Nat := 0
def ldCheck : Nat := 1
def ldPower : Nat := 2
def ldWrite : Nat := 3
def ldDone : Nat := 4
def ldFailed : Nat := 5
def ldUnloading : Nat := 6
def State.loadState (s : State) : Nat := s.fld Reg.BLK_LOAD_STAT Fl.BLK_LOAD_STAT_STATE
def State.setLoad (s : State) (x err : Nat) : State :=
  (s.setFld Reg.BLK_LOAD_STAT Fl.BLK_LOAD_STAT_STATE x).setFld Reg.BLK_LOAD_STAT Fl.BLK_LOAD_STAT_ERROR err
/-- The loader is idle for class Q in IDLE, DONE and FAILED. -/
def State.loadIdle (s : State) : Bool := s.loadState == ldIdle || s.loadState == ldDone || s.loadState == ldFailed
/-- A load is in CHECK, POWER or WRITE. -/
def State.loading (s : State) : Bool := s.loadState == ldCheck || s.loadState == ldPower || s.loadState == ldWrite
def State.blkRefused (s : State) : State := s.setFld Reg.BLK_LOAD_STAT Fl.BLK_LOAD_STAT_WRITE_REFUSED 1
/-- A load ends FAILED. -/
def State.loadFail (s : State) (err : Nat) : State := { s.setLoad ldFailed err with blk.load := none }
def State.fwReady (s : State) : Bool := s.flag Reg.HIF_STAT Fl.HIF_STAT_FW_READY
/-! ## Slots and partitions -/

def State.slotRec (s : State) (k : Nat) : Option SlotRec := sread (fun _ => none) s.slots k
/-- The partitions of a slot. -/
def State.slotParts (s : State) (k : Nat) : List Nat :=
  (List.range 16).filter fun p => (s.part p).any fun q => q.slot == k
/-- The cores bound to a partition. -/
def State.coresIn (s : State) (p : Nat) : List Nat := (List.range 256).filter fun c => s.bound c && s.partOf c == p
def State.countCores (s : State) (p : Nat) : State :=
  s.setFld (Reg.BLK_PART_CORES p) Fl.BLK_PART_CORES_CORES (s.coresIn p).length
/-- Whether the fault machinery is re-placing a core of a partition (R594). -/
def State.replacing (s : State) (p : Nat) : Bool :=
  (s.faults.replace.any fun r => r.part == p) || s.faults.replaceQ.any fun q => q.part == p

/-! ## Binding cores -/

/-- CORE.ID of a core bound or unbound. -/
def State.setBinding (s : State) (c : Nat) (part : Option Nat) (swing : Bool) : State :=
  let r := Reg.CORE_ID c
  ((s.setFld r Fl.CORE_ID_BOUND (if part.isSome then 1 else 0)).setFld r Fl.CORE_ID_PARTITION (part.getD 0)).setFld r
    Fl.CORE_ID_SWING (if swing then 1 else 0)
def bindNone : CoreBind := ⟨0, 0, 0, 0, 0, 0, 0⟩
def State.setBind (s : State) (c : Nat) (b : CoreBind) : State := { s with binds := swrite (fun _ => bindNone) s.binds c b }
/-- A borrow of a core ends with the binding that gave it the role (R31, R221; DESIGN CHOICE, log entry 52). -/
def State.borrowEnd (s : State) (c : Nat) : State := s.wr (Reg.RIF_BORROW c) 0
/-- A core unbound: its Pantry waits for the scrub of a later binding (R392). -/
def State.unbind (s : State) (c : Nat) : State :=
  let s := (((s.stopCore c).closeWindows c).borrowEnd c).setBinding c none false
  { s.setBind c bindNone with blk.stale := c :: s.blk.stale.filter fun k => k != c }
/-- A core bound to a role of an image, its engines as after reset (R185). -/
def State.bindCore (s : State) (m : Image) (slot part c role : Nat) : State :=
  let ration := fun o => ((m.ration 0 role).map fun r => leAt r o 2).getD 0
  let s := (((s.winRebind c).engReset c).borrowEnd c).setBinding c (some part) (m.roleKind role == 4)
  s.setBind c ⟨slot, role, m.roleKind role, m.roleFlags role, m.sleepMask 0 role, ration 2, ration 4⟩
/-- A core that has to be scrubbed before it is bound begins its scrub (R387). -/
def State.scrubStale (s : State) (c : Nat) : State :=
  if s.blk.stale.contains c then { s.scrubStart c with blk.stale := s.blk.stale.filter fun k => k != c } else s

/-! ## What a role brings to a core (R374, R379, R380) -/

/-- A role's code: its instructions from LO on, 0 above them, and the sequencer's limits. -/
def State.writeCode (s : State) (c : Nat) (k : Section) : State :=
  let b := k.body
  let lo := leAt b 2 2
  let n := leAt b 10 2
  let s := (List.range n).foldl (fun (s : State) i => s.setCode c (lo + i) (BitVec.ofNat 64 (leAt b (16 + 8 * i) 8))) s
  let s := { s with code := sclear s.code (codeKey c (lo + n)) (codeKey (c + 1) 0)
                    codeEcc := sclear s.codeEcc (codeKey c (lo + n)) (codeKey (c + 1) 0) }
  let s := s.wr (Reg.SEQ_CODE_LIM c) (BitVec.ofNat 64 (lo + 65536 * leAt b 4 2))
  let s := s.wr (Reg.SEQ_START_PC c) (BitVec.ofNat 64 (leAt b 6 2))
  s.wr (Reg.SEQ_HANDLER c) (BitVec.ofNat 64 (leAt b 8 2 % 32768 + 32768 * leAt b 1 1))
/-- One window of a core declared, or not declared: LEN 0. -/
def State.declare (s : State) (c w base len late : Nat) : State :=
  let s := (s.wrShadow (Reg.WDS_WIN_BASE c w) (BitVec.ofNat 64 base)).wrShadow (Reg.WDS_WIN_LEN c w) (BitVec.ofNat 64 len)
  (s.commitWin c w).setFld (Reg.WDS_WIN_CTL c w) Fl.WDS_WIN_CTL_LATE_TRAP late
def State.writeWindows (s : State) (m : Image) (c role : Nat) : State :=
  (List.range 64).foldl (fun (s : State) w =>
    match (m.rows secWindows).find? fun r => leAt r 0 1 == role && leAt r 1 1 == w with
    | some r => s.declare c w (leAt r 4 4) (leAt r 8 4) (leAt r 2 1)
    | none => if s.rd (Reg.WDS_WIN_LEN c w) = 0 then s else s.declare c w 0 0 0) s
def State.writeData (s : State) (ks : List Section) (c role : Nat) : State :=
  (ks.filter fun k => k.type == secData && leAt k.body 0 1 == role).foldl (fun (s : State) k =>
    s.store c (leAt k.body 4 4) (bytesAt k.body 16 (leAt k.body 8 4))) s
/-- The code section of a role. -/
def codeOf (ks : List Section) (role : Nat) : Option Section :=
  ks.find? fun k => k.type == secCode && leAt k.body 0 1 == role
/-- Everything of a role written to a core; a role without code leaves it HALTED (R379). -/
def State.writeRole (s : State) (m : Image) (ks : List Section) (c role : Nat) : State :=
  let s := match codeOf ks role with
    | none => (s.seqHalt c).setSeq c seqHalted
    | some k => s.writeCode c k
  (s.writeWindows m c role).writeData ks c role

/-! ## Records with actual numbers -/

/-- A route record with actual numbers. -/
def State.actualRoute (s : State) (b : List Byte) (r : Route) : Route :=
  { r with part := bindPart b r.part, destModule := if r.destModule = 0xFF then s.module else bindModule b r.destModule }
/-- The partition record of R363 in force. -/
def partRecOf (b : List Byte) (slot : Nat) (r : List Byte) : PartRec where
  slot := slot
  understudy := if leAt r 1 1 = 0xFF then none else some (bindPart b (leAt r 1 1))
  modules := (moduleSet r).map fun k => bindModule b k
  lead := bindModule b (leAt r 3 1)
  pipeMax := leAt r 4 2
  adapterSlots := leAt r 6 2
  adapterBytes := leAt r 8 4
  adapterBase := leAt r 12 4
  model := leAt r 16 8
  bookCore := if leAt r 24 2 = 0xFFFF then none else some (leAt r 24 2)
  bookNodes := leAt r 28 4
  bookBase := leAt r 32 4
  passOfs := leAt r 36 4
/-- A scale exponent's value. -/
def scaleExp (v : Nat) : Int := if v < 128 then v else (v : Int) - 256
/-- A layer KV record in force. -/
def Image.layerOf (m : Image) (b : List Byte) (slot : Nat) (r : List Byte) : LayerKv where
  slot := slot
  part := bindPart b (m.layerPart r)
  tag := leAt r 0 2
  index := leAt r 2 2
  draft := bitOf (leAt r 5 1) 1
  eC := scaleExp (leAt r 6 1)
  eR := scaleExp (leAt r 7 1)
  pool := leAt r 8 4
  slots := leAt r 12 2
  resident := leAt r 14 2
  stage := leAt r 16 4
  map := leAt r 20 4
  upproj := leAt r 24 4
  set := setOf r
  leadAt := 0
/-- The digest of a partition record with its actual numbers (R391). -/
def partDigest (b r : List Byte) : List Byte :=
  let set := (moduleSet r).foldl (fun a k => a + 2 ^ bindModule b k) 0
  shake256 ([BitVec.ofNat 8 (bindPart b (leAt r 0 1))] ++ bytesAt r 1 2 ++ [BitVec.ofNat 8 (bindModule b (leAt r 3 1))] ++
    bytesAt r 4 36 ++ leBytes 8 set ++ bytesAt r 48 16) 32

/-! ## A partition that spans modules (R391) -/

/-- The digest of a loaded partition's record. -/
def State.ownDigest (s : State) (p : Nat) : Option (List Byte) :=
  (s.part p).bind fun q => (s.slotRec q.slot).bind fun k =>
    (((imageOf k.img).rows secParts).find? fun r => bindPart k.bind (leAt r 0 1) == p).map fun r => partDigest k.bind r
def State.digestFrom (s : State) (p mod : Nat) : Option (List Byte) :=
  (s.blk.digests.find? fun d => d.1 == p && d.2.1 == mod).map fun d => d.2.2
def State.putPartDigest (s : State) (p mod : Nat) (d : List Byte) : State :=
  { s with blk.digests := (s.blk.digests.filter fun q => !(q.1 == p && q.2.1 == mod)) ++ [(p, mod, d)] }
/-- A member's wait for the next PART_BEAT of a partition begins (R443). -/
def State.beatSeen (s : State) (p : Nat) : State :=
  { s with blk.beatAt := swrite (fun _ => none) s.blk.beatAt p (some s.now) }
/-- A partition agreed on becomes READY. -/
def State.partReady (s : State) (p : Nat) : State :=
  ((s.setFld (Reg.BLK_PART_STAT p) Fl.BLK_PART_STAT_MISMATCH 0).setPartState p 3).beatSeen p
def State.partMismatch (s : State) (p : Nat) : State := s.setFld (Reg.BLK_PART_STAT p) Fl.BLK_PART_STAT_MISMATCH 1
/-- The lead judges the digests it has: all equal make the partition READY on every member, one that differs keeps it
WAITING with MISMATCH. -/
def State.judge (s : State) (p : Nat) : State :=
  match s.part p, s.ownDigest p with
  | some q, some own =>
    if q.lead ≠ s.module ∨ s.partState p ≠ 2 then s
    else
      let got := q.modules.map fun k => s.digestFrom p k
      let others := q.modules.filter fun k => k != s.module
      if got.all fun d => d == some own then
        others.foldl (fun (s : State) k => s.emit (.partDigest k p (some own))) (s.partReady p)
      else if got.any fun d => d.isSome && d != some own then
        others.foldl (fun (s : State) k => s.emit (.partDigest k p none)) (s.partMismatch p)
      else s
  | _, _ => s

/-- PARTITION_DIGEST (R391): at the lead a member's digest arrives, at a member the lead's verdict. -/
def execPartitionDigest (p : PartId) (mod : ModId) (digest : Option (List Byte)) (s : State) : Out :=
  .next (s.settle (match s.part p.val, digest with
    | none, some d => s.putPartDigest p.val mod.val d
    | none, none => s
    | some q, d =>
      if q.lead = s.module then
        match d with
        | some d => if q.modules.contains mod.val then ((s.putPartDigest p.val mod.val d).judge p.val).serve else s
        | none => s
      else if mod.val ≠ q.lead ∨ s.partState p.val ≠ 2 then s
      else if d.isSome ∧ d = s.ownDigest p.val then (s.partReady p.val).serve
      else s.partMismatch p.val))

/-! ## The load: GO and CHECK -/

/-- A load accepted: CHECK, with the image and the binding to be fetched. -/
def State.loadStart (s : State) (slot : Nat) (start : Bool) : State :=
  if (s.slotRec slot).isSome then s.loadFail 22
  else
    let s := { s.setLoad ldCheck 0 with blk.load := some ⟨slot, start, [], [], []⟩ }
    let s := s.wr Reg.BLK_LOAD_WHERE 0
    let s := s.emit (.hostRead (s.rd Reg.BLK_BIND_ADDR).toNat 256)
    s.emit (.hostRead (s.rd Reg.BLK_LOAD_ADDR).toNat (s.fld Reg.BLK_LOAD_LEN Fl.BLK_LOAD_LEN_BYTES))

/-- The cores and regions of the load under way. -/
def LoadRec.image (k : LoadRec) : Image := imageOf k.img
def LoadRec.cores (k : LoadRec) : List Nat := k.image.places.map fun q => q.1
def LoadRec.regions (k : LoadRec) : List Nat := (List.range 16).filter fun r => k.cores.any fun c => regionOf c == r
def LoadRec.parts (k : LoadRec) : List Nat := k.image.parts.map fun p => bindPart k.bind p

/-- The partitions of the load take a state. -/
def State.loadParts (s : State) (k : LoadRec) (x : Nat) : State :=
  k.parts.foldl (fun (s : State) p => s.setPartState p x) s
/-- A load that failed in POWER or WRITE undone (R388): nothing has been written to a core yet. -/
def State.loadUndo (s : State) (err : Nat) : State :=
  match s.blk.load with
  | none => s
  | some k => (s.loadParts k 0).loadFail err

/-- A placed core of a load in WRITE faults: the load is undone (R393). -/
def State.loadCoreFault (s : State) (c : Nat) : State :=
  if s.loadState = ldWrite ∧ (s.blk.load.any fun k => k.cores.contains c) then s.loadUndo 25 else s

/-- Both 72 V feeds are lost during a load, which is undone (R393). -/
def State.loadFeeds (s : State) : State :=
  match s.blk.load with
  | none => s
  | some k =>
    if s.loadState = ldCheck ∨ s.loadState = ldPower ∨ s.loadState = ldWrite then
      let s := if s.loadState = ldCheck then s else s.loadParts k 0
      { s.setLoad ldIdle 0 with blk.load := none }
    else s

/-- WRITE begins: placed cores in Retain wake, and those bound to another partition before are scrubbed. -/
def State.loadWrite (s : State) (k : LoadRec) : State :=
  let s := s.setLoad ldWrite 0
  k.cores.foldl (fun (s : State) c => (if s.sleep c = 3 then s.wake c else s).scrubStale c) s
/-- Whether a region is asked for or coming up. -/
def State.comingUp (s : State) (r : Nat) : Bool :=
  s.stageOf r != 0 || (s.curtainBusy && s.currentUp == r) || (s.power.curtainAsk.any fun q => q.1 == r) ||
    (s.legacy && s.power.legacyUp == 3)
/-- A load looked at again. In POWER it goes on to WRITE when its regions are in Run, each one that came up scrubbed
whole, and fails when one has failed; in WRITE it fails with a region that has gone down (R387, R393, R467; DESIGN CHOICE,
log entry 36). -/
def State.loadPoll (s : State) : State :=
  match s.blk.load with
  | none => s
  | some k =>
    if s.loadState = ldWrite then (if k.regions.all fun r => s.inRun r then s else s.loadUndo 24)
    else if s.loadState ≠ ldPower then s
    else if k.regions.all fun r => s.inRun r then
      let due := k.cores ++ k.raised.flatMap fun r => (List.range 16).map fun j => 16 * r + j
      if due.any fun c => s.scrubbing c then s else s.loadWrite k
    else if k.regions.any fun r => !s.inRun r && !s.comingUp r then s.loadUndo 24
    else s

/-- The checks passed: what the image names is OFFLINE or in REFRESH is counted, and the regions are asked up. -/
def State.loadGoOn (s : State) (k : LoadRec) : State :=
  let m := k.image
  let off := (m.rows secBins).filter fun r =>
    let st := (s.binRec (480 * leAt r 0 2 + leAt r 2 2)).state
    st == .offline || st == .refresh
  let s := s.setFld Reg.BLK_LOAD_OFFLINE Fl.BLK_LOAD_OFFLINE_COUNT off.length
  let up := k.regions.filter fun r => !s.inRun r
  let s := ({ s with blk.load := some { k with raised := up } }.loadParts k 1).setLoad ldPower 0
  (s.askRegions up).loadPoll

/-- LOAD_FETCH_COMPLETE (R387, R388, R390): the image and the binding arrive, are measured and checked; none of either is a
failed fetch. -/
def execLoadFetchComplete (img bind : Option (List Byte)) (s : State) : Out :=
  .next (match s.blk.load with
    | none => s
    | some k =>
      if s.loadState ≠ ldCheck then s
      else match s.hostGot img, s.hostGot bind with
        | some i, some b =>
          let i := bytesAt i 0 (s.fld Reg.BLK_LOAD_LEN Fl.BLK_LOAD_LEN_BYTES)
          let b := bytesAt b 0 256
          let m := imageOf i
          let s := s.putDigest (Reg.BLK_MEAS k.slot) (shake256 (i.take m.bytes) 32)
          let s := s.putDigest (fun j => Reg.BLK_MEAS k.slot (8 + j)) (shake256 b 32)
          match s.loadFailure m b with
          | some (e, sec, r) => (s.wr Reg.BLK_LOAD_WHERE (BitVec.ofNat 64 (sec + 4096 * r))).loadFail e
          | none => s.loadGoOn { k with img := i, bind := b }
        | _, _ => s.loadFail 1)

/-! ## WRITE and DONE -/

/-- The image's records put in force. -/
def State.applyImage (s : State) (k : LoadRec) : State :=
  let m := k.image
  let b := k.bind
  let ks := s.relocated m b
  let s := { s with slots := swrite (fun _ => none) s.slots k.slot (some ⟨k.img, b⟩) }
  let s := m.places.foldl (fun (s : State) q =>
    (s.bindCore m k.slot (bindPart b (m.rolePart q.2)) q.1 q.2).writeRole m ks q.1 q.2) s
  let s := (m.presetGroups b).foldl (fun (s : State) g => s.commitGroup g) (s.putPresets m b)
  let rs := (m.rows secRoutes).map routeRow
  let placed := fun r : Route => (m.placedIn r.part).contains r.router
  let act := fun l : List Route => l.map fun r => s.actualRoute b r
  let bins := (m.rows secBins).foldl (fun l r =>
    swrite (fun _ => none) l (480 * leAt r 0 2 + leAt r 2 2) (some (bindPart b (leAt r 7 1)))) s.binMap
  let img := (List.range 16).foldl (fun l r =>
    let p : Option RegionPower := match m.ration 1 r with
      | none => if k.regions.contains r then some ⟨0, 0, 0, false⟩ else none
      | some q => some ⟨leAt q 6 2, leAt q 8 2, leAt q 10 2, true⟩
    swrite (fun _ => none) l (k.slot * 16 + r) p) s.power.imgPower
  let dark := (List.range 16).foldl (fun l r =>
    swrite (fun _ => false) l (k.slot * 16 + r) (bitOf (m.sleepMask 1 r) 0)) s.power.imgDark
  let parts := (m.rows secParts).foldl (fun l r =>
    swrite (fun _ => none) l (bindPart b (leAt r 0 1)) (some (partRecOf b k.slot r))) s.parts
  { s with
    routes := s.routes ++ act (rs.filter placed)
    routesKept := s.routesKept ++ act (rs.filter fun r => !placed r)
    binMap := bins
    power.imgPower := img
    power.imgDark := dark
    parts := parts
    layerKv := s.layerKv ++ (m.rows secLayers).map fun r => m.layerOf b k.slot r }

/-- The KV counters of a partition, which count from its load (R305). -/
def State.kvCountersNew (s : State) (p : Nat) : State :=
  [Reg.SRV_KV_REFUSED p, Reg.SRV_KV_RECALL_HITS p, Reg.SRV_KV_RECALL_MISSES p, Reg.SRV_KV_LOFT_RD p,
    Reg.SRV_KV_LOFT_WR p].foldl (fun (s : State) o => s.wr o 0) s
/-- The registers of a partition as its load ends, and its state: READY, or WAITING for the digests (R391, R404). -/
def State.partDone (s : State) (p : Nat) : State :=
  match s.part p with
  | none => s
  | some q =>
    let r := Reg.BLK_PART_STAT p
    let s := (s.setFld r Fl.BLK_PART_STAT_LEAD (if q.lead = s.module then 1 else 0)).setFld r Fl.BLK_PART_STAT_SLOT q.slot
    let s := (s.setFld r Fl.BLK_PART_STAT_MODULES q.modules.length).setFld r Fl.BLK_PART_STAT_PIPE_MAX q.pipeMax
    let s := ((s.kvCountersNew p).countCores p).wr (Reg.BLK_PART_MODEL p) (BitVec.ofNat 64 q.model)
    if q.modules.length ≤ 1 then s.partReady p
    else
      let s := s.setPartState p 2
      match s.ownDigest p with
      | none => s
      | some d => if q.lead = s.module then (s.putPartDigest p s.module d).judge p else s.emit (.partDigest q.lead p (some d))

/-- DONE: the cores start, the measurements are extended, and the caps take the new rations (R387, R403, R489). -/
def State.loadDone (s : State) (k : LoadRec) : State :=
  let m := k.image
  let s := if k.start then m.places.foldl (fun (s : State) q =>
      if (codeOf m.secs q.2).isSome then (s.seqHalt q.1).seqStart q.1 false else s) s else s
  let s := k.parts.foldl (fun (s : State) p => s.partDone p) s
  let r := Reg.BLK_SLOT_STAT k.slot
  let s := (s.setFld r Fl.BLK_SLOT_STAT_LOADED 1).setFld r Fl.BLK_SLOT_STAT_LOGICAL_MODULE m.logicalModule
  let s := s.setFld r Fl.BLK_SLOT_STAT_PARTS (k.parts.foldl (fun a p => a + 2 ^ p) 0)
  let s := s.extend 2 evImage k.slot (shake256 (k.img.take m.bytes) 32)
  let s := s.extend 2 evBinding k.slot (shake256 k.bind 32)
  ({ s.setLoad ldDone 0 with blk.load := none }.recap).serve

/-- LOAD_WRITE_COMPLETE (R387): the writes of a load are done, once its cores are awake and scrubbed. -/
def execLoadWriteComplete (s : State) : Out :=
  .next (match s.blk.load with
    | none => s
    | some k =>
      if s.loadState ≠ ldWrite ∨ (k.cores.any fun c => s.sleep c != 0 || s.scrubbing c) then s
      else s.settle ((s.applyImage k).loadDone k))

/-! ## Unloading (R392) -/

/-- Whether a context of a slot's partitions keeps it from being unloaded. -/
def State.slotInUse (s : State) (k : Nat) : Bool :=
  s.ctxs.any fun e => (s.slotParts k).contains e.2.part &&
    (e.2.st == .resident || e.2.st == .active || e.2.st == .parking || e.2.st == .resuming)

/-- LNK.SPLIT_STAT.READY of a partition (R446, R451). -/
def State.setReady (s : State) (p : Nat) (b : Bool) : State :=
  let v := s.fld Reg.LNK_SPLIT_STAT Fl.LNK_SPLIT_STAT_READY
  s.setFld Reg.LNK_SPLIT_STAT Fl.LNK_SPLIT_STAT_READY (if v.testBit p = b then v else if b then v + 2 ^ p else v - 2 ^ p)
/-- Steps 1 to 5 of an unload. -/
def State.clearSlot (s : State) (k : Nat) : State :=
  let ps := s.slotParts k
  let sets := (s.layerKv.filter fun l => l.slot == k).flatMap fun l => l.set
  let mine := (List.range 256).filter fun c => s.bound c && (ps.contains (s.partOf c) || (s.bind c).slot == k)
  let s := mine.foldl (fun (s : State) c => s.unbind c) s
  let s := ps.foldl (fun (s : State) p => ((s.setPartState p 6).countCores p).setReady p false) s
  { s with
    routes := s.routes.filter fun r => !ps.contains r.part
    routesKept := s.routesKept.filter fun r => !ps.contains r.part
    layerKv := s.layerKv.filter fun l => l.slot != k
    binMap := s.binMap.filter fun e => !ps.contains (e.2.getD 16)
    bookSlots := sclearIf s.bookSlots fun q => ps.contains (q / 65536 / 65536)
    power.imgPower := sclear s.power.imgPower (k * 16) (k * 16 + 16)
    power.imgDark := sclear s.power.imgDark (k * 16) (k * 16 + 16)
    power.phases := sclearIf s.power.phases fun p => ps.contains p
    kvSlots := sclearIf s.kvSlots fun q => sets.contains (q / 4096)
    blk.digests := s.blk.digests.filter fun d => !ps.contains d.1
    blk.beatAt := sclearIf s.blk.beatAt fun p => ps.contains p
    blk.flowParts := s.blk.flowParts.filter fun p => !ps.contains p
    faults.lost := s.faults.lost.filter fun p => !ps.contains p }
/-- The slot and its partitions are EMPTY; the unload is measured (R608). -/
def State.emptySlot (s : State) (k : Nat) : State :=
  let ps := s.slotParts k
  let s := ps.foldl (fun (s : State) p =>
    ((s.wr (Reg.BLK_PART_STAT p) 0).wr (Reg.BLK_PART_CORES p) 0).wr (Reg.BLK_PART_MODEL p) 0) s
  let s := { s with parts := sclearIf s.parts fun p => ps.contains p, slots := swrite (fun _ => none) s.slots k none }
  (s.wr (Reg.BLK_SLOT_STAT k) 0).extend 2 evUnload k (leBytes 1 k)

/-- An unload asked for. -/
def State.unloadStart (s : State) (k : Nat) : State :=
  if (s.slotRec k).isNone then s.loadFail 22
  else if s.slotInUse k then s.loadFail 23
  else { (s.setLoad ldUnloading 0).clearSlot k with blk.load := some ⟨k, false, [], [], []⟩ }

/-- UNLOAD_COMPLETE (R392, R489): the loader is IDLE again (DEDUCED, log entry 36). -/
def execUnloadComplete (s : State) : Out :=
  .next (s.settle (match s.blk.load with
    | none => s
    | some k =>
      if s.loadState ≠ ldUnloading then s
      else { (s.emptySlot k.slot).setLoad ldIdle 0 with blk.load := none }.recap.serve))

/-! ## BLK.LOAD_CTL (R393, R401, R598) -/

/-- A write of BLK.LOAD_CTL; GO and UNLOAD in one write are refused (DESIGN CHOICE, log entry 36). -/
def State.writeLoadCtl (s : State) (v : Word) : State :=
  let w := v.setWidth 64
  let go := Fl.BLK_LOAD_CTL_GO.get w == 1
  let un := Fl.BLK_LOAD_CTL_UNLOAD.get w == 1
  let slot := Fl.BLK_LOAD_CTL_SLOT.get w
  if bitsOf v.toNat 5 3 ≠ 0 ∨ bitsOf v.toNat 10 22 ≠ 0 ∨ (go && un) ∨ !s.loadIdle ∨ (go && !s.fwReady) ∨
      ((go || un) && (s.slotParts slot).any fun p => s.replacing p) then s.blkRefused
  else
    let s := (s.setFld Reg.BLK_LOAD_CTL Fl.BLK_LOAD_CTL_SLOT slot).setFld Reg.BLK_LOAD_CTL Fl.BLK_LOAD_CTL_START
      (Fl.BLK_LOAD_CTL_START.get w)
    if go then s.loadStart slot (Fl.BLK_LOAD_CTL_START.get w == 1)
    else if un then s.unloadStart slot
    else s

end Sys2Proof.Machine
end

