-- ==== Sys2Proof/Machine/Rebind.lean ====
section
/-! DEFINITION. Rebinds (R348 to R351, R356). -/

namespace Sys2Proof.Machine

def rbIdle : Nat := 0
def rbBusy : Nat := 1
def rbDone : Nat := 2
def rbFailed : Nat := 3
def State.rebindState (s : State) : Nat := s.fld Reg.BLK_REBIND_STAT Fl.BLK_REBIND_STAT_STATE
def State.setRebind (s : State) (x err core : Nat) : State :=
  ((s.setFld Reg.BLK_REBIND_STAT Fl.BLK_REBIND_STAT_STATE x).setFld Reg.BLK_REBIND_STAT Fl.BLK_REBIND_STAT_ERROR err).setFld
    Reg.BLK_REBIND_STAT Fl.BLK_REBIND_STAT_CORE core

/-- The cores that the masks name. -/
def State.rebindMask (s : State) : List Nat :=
  (List.range 256).filter fun c => (s.rd (Reg.BLK_REBIND_MASK (c / 32))).toNat.testBit (c % 32)

/-! ## The checks (R348 to R350, R356, R373) -/

/-- Whether a borrow is in force at a core, of its own or of its racks, from the write of EN on (R220, R349). -/
def State.lends (s : State) (c : Nat) : Bool :=
  let on := fun k : Nat => s.flag (Reg.RIF_BORROW k) Fl.RIF_BORROW_EN
  on c || (List.range 8).any fun j => on (c / 8 * 8 + j) && s.fld (Reg.RIF_BORROW (c / 8 * 8 + j)) Fl.RIF_BORROW_LOCAL == c % 8
/-- The partitions whose contexts use a layer: its own, and for a DRAFT layer those that it is the understudy of. -/
def State.usersOf (s : State) (l : LayerKv) : List Nat := (List.range 16).filter fun p => (s.kvLayers p).contains l
/-- Whether a core holds a resident index, an adapter slot, Prompt book storage or a borrow (R349). -/
def State.coreHolds (s : State) (c : Nat) : Bool :=
  let p := s.partOf c
  let sets := s.layerKv.filter fun l => l.set.contains c
  s.bound c && (
    (sets.any fun l => s.ctxs.any fun e => (s.usersOf l).contains e.2.part && e.2.resident.isSome) ||
    (bitOf (s.bind c).flags 4 && s.ctxs.any fun e => e.2.part == p && e.2.slot.isSome) ||
    ((s.part p).any fun q => q.bookCore == some c) ||
    (sets.any fun l => (s.usersOf l).any fun p => s.bookSlots.any fun e => e.1 / 65536 == p * 65536 + l.tag && e.2.isSome)) ||
    s.lends c
/-- Whether a rebind may take a core: unassigned, a swing core, or of a role marked lendable (R348). -/
def State.takeable (s : State) (c : Nat) : Bool := !s.bound c || (s.bind c).kind == 4 || bitOf (s.bind c).flags 0
/-- Whether the bins beneath a core serve a partition of another model than `p` (R350). -/
def State.binsForeign (s : State) (c p : Nat) : Bool :=
  let model := fun q => (s.part q).map fun k => k.model
  s.binMap.any fun e => e.1 / 480 == c && model (e.2.getD 16) != model p

/-- The image of a partition with its binding. -/
def State.imageIn (s : State) (p : Nat) : Option (Nat × Image × List Byte) :=
  (s.part p).bind fun q => (s.slotRec q.slot).map fun k => (q.slot, imageOf k.img, k.bind)
/-- Whether the rations of region `r` pass its caps once cores take a role: those of the image's cores that stay in it and
of those that come. -/
def State.rationOver (s : State) (m : Image) (slot role : Nat) (cs : List Nat) (r : Nat) : Bool :=
  let ration := fun o => ((m.ration 0 role).map fun r => leAt r o 2).getD 0
  let come := (cs.filter fun c => regionOf c == r).length
  let stay := (coresOf r).filter fun c => s.bound c && (s.bind c).slot == slot && !cs.contains c
  let bins := stay.foldl (fun a c => a + (s.bind c).bins) (come * ration 2)
  let eng := stay.foldl (fun a c => a + (s.bind c).engines) (come * ration 4)
  match m.ration 1 r with
  | none => false
  | some q => decide (leAt q 2 2 < bins) || decide (leAt q 4 2 < eng)

/-- Why a rebind is refused, with the first core that caused it: the checks in ascending order of code, the one for EMPTY,
no core named or no image in the receiving partition, first (DESIGN CHOICE, log entry 38). -/
def State.rebindFailure (s : State) (k : RebindRec) : Option (Nat × Nat) :=
  let first := fun (f : Nat → Bool) => k.cores.find? f
  if k.cores.isEmpty ∨ (!k.unbind && (s.imageIn k.into).isNone) then some (5, 0)
  else
    match first s.coreHolds with
    | some c => some (1, c)
    | none =>
      match first fun c => !s.takeable c with
      | some c => some (2, c)
      | none =>
        if k.unbind then none
        else
          match s.imageIn k.into with
          | none => none
          | some (slot, m, b) =>
            let c0 := k.cores.headD 0
            if (m.role k.role).isNone ∨ bindPart b (m.rolePart k.role) ≠ k.into then some (2, c0)
            else
              match first fun c => k.bins && s.binsForeign c k.into with
              | some c => some (3, c)
              | none =>
                if (m.ration 0 k.role).isNone then some (4, c0)
                else (first fun c => s.rationOver m slot k.role k.cores (regionOf c)).map fun c => (4, c)

/-! ## GO -/

/-- A rebind accepted: it needs its cores, so those in Retain wake and their regions come up (R465, R473). -/
def State.rebindStart (s : State) (k : RebindRec) : State :=
  match s.rebindFailure k with
  | some (e, c) => s.setRebind rbFailed e c
  | none =>
    let s := { s.setRebind rbBusy 0 0 with blk.rebind := some k }
    let s := k.cores.foldl (fun (s : State) c => if s.sleep c = 3 then s.wake c else s) s
    let rs := (List.range 16).filter fun r => !s.inRun r && k.cores.any fun c => regionOf c == r
    if k.unbind then s else s.askRegions rs

/-- A write of BLK.REBIND_CTL (R20, R21, R351, R393, R594, R598). -/
def State.writeRebindCtl (s : State) (v : Word) : State :=
  let w := v.setWidth 64
  let go := Fl.BLK_REBIND_CTL_GO.get w == 1
  let k : RebindRec := ⟨s.rebindMask, Fl.BLK_REBIND_CTL_TO.get w, Fl.BLK_REBIND_CTL_UNBIND.get w == 1,
    Fl.BLK_REBIND_CTL_BINS.get w == 1, Fl.BLK_REBIND_CTL_ROLE.get w⟩
  let busy := s.loadState == ldCheck || s.loadState == ldPower || s.loadState == ldWrite || s.loadState == ldUnloading
  let touched := (k.cores.filter fun c => s.bound c).map (fun c => s.partOf c) ++ (if k.unbind then [] else [k.into])
  if bitsOf v.toNat 6 2 ≠ 0 ∨ bitsOf v.toNat 16 15 ≠ 0 ∨ s.rebindState = rbBusy ∨ (go && busy) ∨ (go && !s.fwReady) ∨
      (go && touched.any fun p => s.replacing p) then s.blkRefused
  else
    let s := s.wr Reg.BLK_REBIND_CTL (BitVec.ofNat 64 (v.toNat % 2 ^ 31))
    if go then s.rebindStart k else s

/-! ## The rebind's steps (R351) -/

/-- The named cores leave their partitions, and their Pantries are scrubbed: the scrubs end within the command, which takes
the rebind from its time D to its end (R196, R351). -/
def State.rebindTake (s : State) (k : RebindRec) : State :=
  let losing := (k.cores.filter fun c => s.bound c).map fun c => s.partOf c
  let s := k.cores.foldl (fun (s : State) c => (s.unbind c).zeroPantry c) s
  let s := { s with
    blk.stale := s.blk.stale.filter fun c => !k.cores.contains c
    routesKept := s.routesKept ++ s.routes.filter fun r => k.cores.contains r.router
    routes := s.routes.filter fun r => !k.cores.contains r.router }
  losing.eraseDups.foldl (fun (s : State) p => s.countCores p) s

/-- The mesh entries of a router. -/
def State.meshCount (s : State) (router : Nat) : Nat := (s.routes.filter fun r => !r.prompt && r.router == router).length
/-- The kept routes that `now` picks put in force, in order, as far as their router's 512 mesh entries go (R371, R412); those
beyond stay kept (DESIGN CHOICE, log entry 38). -/
def State.giveRoutes (s : State) (now : Route → Bool) : State :=
  s.routesKept.foldl (fun (t : State) r =>
    if now r && (r.prompt || decide (t.meshCount r.router < 512)) then { t with routes := t.routes ++ [r] }
    else { t with routesKept := t.routesKept ++ [r] }) { s with routesKept := [] }

/-- The named cores take their role: binding, code, windows, data, routes and rations, and with BINS the bins beneath
them (R348, R365, R369). -/
def State.rebindGive (s : State) (k : RebindRec) : State :=
  match s.imageIn k.into with
  | none => s
  | some (slot, m, b) =>
    let ks := s.relocated m b
    let s := k.cores.foldl (fun (s : State) c => (s.bindCore m slot k.into c k.role).writeRole m ks c k.role) s
    let now := fun r : Route => r.part == k.into && k.cores.contains r.router
    let s := s.giveRoutes now
    let s := if k.bins then
        { s with binMap := s.binMap.map fun e => if k.cores.contains (e.1 / 480) then (e.1, some k.into) else e }
      else s
    let s := if (codeOf m.secs k.role).isSome then k.cores.foldl (fun (s : State) c => s.seqStart c false) s else s
    s.countCores k.into

/-- Whether the named cores can be worked on: in Run, or of no use to a rebind that unbinds them. -/
def State.rebindReady (s : State) (k : RebindRec) : Bool :=
  k.cores.all fun c => (k.unbind || s.sleep c == 0) && !s.scrubbing c
/-- A rebind looked at again: one whose region failed to come up ends FAILED with no code (DESIGN CHOICE, log entry 38). -/
def State.rebindPoll (s : State) : State :=
  match s.blk.rebind with
  | none => s
  | some k =>
    if !k.unbind && k.cores.any fun c => !s.inRun (regionOf c) && !s.comingUp (regionOf c) then
      ({ s.setRebind rbFailed 0 0 with blk.rebind := none }).serve
    else s

/-- REBIND_PROCEED (R351): the last pass that uses the named cores has ended, and the rebind completes. -/
def execRebindProceed (s : State) : Out :=
  .next (match s.blk.rebind with
    | none => s
    | some k =>
      if !s.rebindReady k ∨ (s.passes.any fun q => s.rebinding q.part (q.kind == kindTree)) then s
      else
        let t := s.rebindTake k
        let t := if k.unbind then t else t.rebindGive k
        s.settle (({ t.setRebind rbDone 0 0 with blk.rebind := none }.recap).serve))

end Sys2Proof.Machine
end

