-- ==== Sys2Proof/Machine/Views.lean ====
section
/-! DEFINITION. Registers as they read: those that the module stores, and those that show what it holds elsewhere. -/

namespace Sys2Proof.Machine

/-! ## Core windows -/

/-- Engines of a core that hold a run or a drain (R227). -/
def EngWork.busy : EngWork → Bool
  | .run _ _ _ _ => true
  | .drain _ _ _ _ _ => true
  | _ => false
def State.engBusy (s : State) (c : Nat) : Nat :=
  s.engOps.foldl (fun a o => if o.core = c && o.work.busy then a ||| o.mask else a) 0
/-- RIF.QUEUE: fires queued or in flight, and the output buffer in use in KiB, a part of one counted whole (R229). -/
def State.rifQueue (s : State) (c : Nat) : Nat :=
  (s.fires.filter fun f => f.core == c).length + 256 * ((s.outUsed c + 1023) / 1024)
def bnum (b : Bool) : Nat := if b then 1 else 0

/-! ## Region windows -/

/-- Always-on ticks that the oldest queued claim of a region has waited. -/
def State.headWait (s : State) (r : Nat) : Nat :=
  match s.claimQueue r with
  | [] => 0
  | q :: _ => min 65535 (4 * (s.now - q.since))
/-- ARB.CLAIM of a core: its grant, whether a claim of it is queued, and its ration in force (R478, R502). -/
def State.claimView (s : State) (c : Nat) : Nat :=
  s.binsGranted c + 1024 * s.engGranted c + 2 ^ 15 * bnum (s.claimQ.any fun q => q.core == c) +
    2 ^ 16 * s.rationBins c + 2 ^ 26 * s.rationEngines c + 2 ^ 31 * bnum (s.minimum c)
/-- THR.DUR of a reason with the episode that runs (R493). -/
def State.durView (s : State) (r x : Nat) : Nat :=
  let run := if (s.rd (Reg.THR_ACTIVE r)).toNat.testBit x then
      (s.aoc r).toNat - sread (fun _ => 0) s.power.thrFrom (thrKey r x) else 0
  (s.thrTotal r x + run) / 16

/-! ## Scans (R513, R514) -/

/-- A region's scan list as (channel, converter field, samples), up to the end of the list. -/
def State.scanRun (s : State) (r : Nat) : List (Nat × Nat × Nat) :=
  ((List.range 32).map fun n =>
    let e := Reg.CNV_LIST r n
    (s.fld e Fl.CNV_LIST_CHANNEL, s.fld e Fl.CNV_LIST_CONV, s.fld e Fl.CNV_LIST_SAMPLES)).takeWhile fun e => e.2.1 != 3
/-- Whether a converter can read a channel. -/
def scanOk (e : Nat × Nat × Nat) : Bool :=
  if e.1 < 8 then e.2.1 == 0 else if e.1 < 16 then e.2.1 == 1 else decide (e.1 ≤ 22)
/-- The entries that run; the others are skipped. -/
def State.scanGood (s : State) (r : Nat) : List (Nat × Nat × Nat) := (s.scanRun r).filter scanOk
/-- When an entry leaves the converters free, and when it starts, in 250 ns: 1 µs a sample, or half of one interleaved. -/
def scanStep (t : Nat × Nat × Nat) (e : Nat × Nat × Nat) : Nat × Nat × Nat :=
  let start := max t.2.2 (if e.2.1 = 0 then t.1 else if e.2.1 = 1 then t.2.1 else max t.1 t.2.1)
  let finish := start + (if e.2.1 = 2 then 2 else 4) * e.2.2
  (if e.2.1 = 1 then t.1 else finish, if e.2.1 = 0 then t.2.1 else finish, start)
/-- Whether converter `k` has an entry, and when its last one ends; a converter settles for 2 µs first. -/
def State.scanUses (s : State) (r k : Nat) : Bool := (s.scanGood r).any fun e => e.2.1 == k || e.2.1 == 2
def State.scanEnd (s : State) (r k : Nat) : Nat :=
  let t := (s.scanGood r).foldl scanStep (8, 8, 0)
  if k = 0 then t.1 else t.2.1
/-- Whether a converter is powered: from CONV_GO until the list has no further entry for it. -/
def State.convOn (s : State) (r k : Nat) : Bool :=
  s.flag (Reg.CNV_STAT r) Fl.CNV_STAT_BUSY && s.scanUses r k &&
    decide (s.now < sread (fun _ => 0) s.power.scanAt r + s.scanEnd r k)

/-! ## Module blocks -/

/-- A bin whose wear count is above 10,000 or was lost (R170, R171). -/
def Wear.worn (w : Wear) : Bool := decide (10000 < w.cycles) || w.ue
/-- CEL.WEAR_DATA of a bin (R177). -/
def State.wearView (s : State) (g : Nat) : Nat :=
  let w := s.wearOf g
  (if w.ue then 0xFFFF else w.cycles) + 65536 * (bnum w.warn + 2 * bnum w.worn + 4 * bnum w.ue)
/-- CEL.WEAR_MAX (R177); a count that was lost is not compared. -/
def State.wearMax (s : State) : Nat :=
  (s.wear.foldl (fun a e => if e.2.ue then a else max a e.2.cycles) 0) +
    65536 * min 65535 (s.wear.filter fun e => e.2.worn).length
/-- LNK.REACH: peers on UP ports, and modules that have answered the latest beat (R451). -/
def State.reach (s : State) : Nat :=
  let up := ((List.range 32).filter fun n => s.portUp n).map fun n => s.fld (Reg.LNK_PEER n) Fl.LNK_PEER_MODULE
  ((up ++ s.answered).eraseDups).foldl (fun a m => a + 2 ^ m) 0 % 2 ^ 48
/-- SRV.TEN_STAT (R347). -/
def State.tenStat (s : State) (t : Nat) : Nat :=
  (s.reqs.filter fun r => r.tenant == t && r.heldFrom.isSome).length + 65536 * bnum (s.tenantOn t && !s.eligible t)
/-- Word `k` of what SRV.CTX_DATA shows of a context (R347). -/
def State.ctxWord (s : State) (x k : Nat) : Nat :=
  let c := s.ctx x
  if k = 0 then c.st.code + 8 * c.part + 128 * bnum c.adapter + 256 * c.reason + 65536 * (c.resident.getD 0xFFFF)
  else if k = 1 then c.tokenSeq % 2 ^ 32
  else if k = 2 then c.committed % 2 ^ 32
  else 0
/-- Word `k` of what HIF.Q_DATA shows of a queue (R563). -/
def State.queueWord (s : State) (q k : Nat) : Nat :=
  if s.fld Reg.HIF_QTABLE_COUNT Fl.HIF_QTABLE_COUNT_COUNT ≤ q then 2 ^ 32 - 1
  else
    let e := s.queue q
    if k = 0 then e.state + 256 * e.error
    else if k = 1 then e.sqHead + 65536 * e.sqTail
    else if k = 2 then e.cqTail + 65536 * e.cqHead
    else (s.openReqs q).length + 65536 * e.waiting.length

/-! ## Reading -/

/-- A register as it reads: the stored value, with the fields that show what the module holds elsewhere. Words of a
record that a read latches read as they were latched. -/
def State.view (s : State) (off : Nat) : DWord :=
  let v := s.rd off
  let n := fun (x : Nat) => (BitVec.ofNat 64 x : DWord)
  match locate off with
  | none => 0
  | some (i, b, o) =>
    match b with
    | .core =>
      if o = 0 then s.coreId i else if o = 4 then Fl.CORE_STAT_IDLE.set v (bnum (s.coreIdle i)) else v
    | .eng => if o = 0 then n (s.engAvail i) else if o = 4 then n (s.engBusy i) else v
    | .vec => if o = 0 then n (bnum (s.vecOps.any fun q => q.core == i)) else v
    | .rif =>
      if o = 0 then Fl.RIF_OWNER_BORROWED.set v (bnum (s.borrowed i)) else if o = 8 then n (s.rifQueue i) else v
    | .arb =>
      if o = 4 then n (s.loadOf i / 1000 + 65536 * (s.reservedIn i none / 1000))
      else if o = 8 then n ((s.claimQueue i).length + 65536 * s.headWait i)
      else if 0x40 ≤ o ∧ o < 0x80 then n (s.claimView (16 * i + (o - 0x40) / 4))
      else v
    | .cnv =>
      if o = 0 then Fl.CNV_STAT_CONV1_ON.set (Fl.CNV_STAT_CONV0_ON.set v (bnum (s.convOn i 0))) (bnum (s.convOn i 1)) else v
    | .thr => if 8 ≤ o ∧ o < 0x50 ∧ o % 8 = 0 then n (s.durView i (o / 8)) else v
    | .pwr => if o = 0 then Fl.PWR_STAT_HV_ON.set v (bnum (s.domainOn 26)) else v
    | .hif => if o = 8 then n s.hostTime else v
    | .srv => if 0x4000 ≤ o ∧ o < 0x8000 ∧ o % 16 = 0xC then n (s.tenStat ((o - 0x4000) / 16)) else v
    | .lnk => if o = 0x20 then n s.reach else v
    | .dump => if o = 0x14 then Fl.DUMP_REPLACE_STAT_QUEUED.set v (min 15 s.faults.replaceQ.length) else v
    | .cel =>
      if off = Reg.CEL_REFRESH_STAT then n (min 4095 s.refreshQ.length + 4096 * s.refreshing.length)
      else if off = Reg.CEL_WEAR_DATA then
        n (s.wearView (480 * s.fld Reg.CEL_WEAR_SEL Fl.CEL_WEAR_SEL_CORE + s.fld Reg.CEL_WEAR_SEL Fl.CEL_WEAR_SEL_BIN))
      else if off = Reg.CEL_WEAR_MAX then n s.wearMax
      else v
    | _ => v
/-- The low 32 bits of a register as a number. -/
def State.word (s : State) (off : Nat) : Nat := (s.view off).toNat % 2 ^ 32
/-- Registers as 32-bit words in ascending offset order: `k` words from `off`, in the little-endian form of memory (R12).
A 64-bit register gives its two halves. -/
def State.wordAt (s : State) (off : Nat) : Nat :=
  match locate off with
  | none => 0
  | some (_, b, o) =>
    if (findReg b o).isSome then s.word off
    else if o % 8 = 4 ∧ ((findReg b (o - 4)).any fun d => d.wide) then (s.view (off - 4)).toNat / 2 ^ 32
    else 0
def State.regBytes (s : State) (off k : Nat) : List Byte :=
  ((List.range k).map fun i => leBytes 4 (s.wordAt (off + 4 * i))).flatten

/-! ## The mirror of the region windows (R36) -/

/-- The offsets of a register's instances in its block. -/
def RegDesc.offsets (d : RegDesc) : List Nat :=
  (List.range d.n1).flatMap fun i => (List.range d.n2).map fun j => d.base + i * d.s1 + j * d.s2
/-- The registers of the region windows. -/
def regionRegs : List Nat :=
  (List.range 16).flatMap fun r => [Block.stg, .arb, .cnv, .thr].flatMap fun b =>
    (blockRegs b).flatMap fun d => d.offsets.map fun o => regionWin r + blockBase b + o
/-- What a telemetry sample takes of a region window: its words, those of THR.LOG_REC the record that LOG_SEL names. -/
def State.sampled (s : State) (off : Nat) : DWord :=
  match locate off with
  | some (i, .thr, _) =>
    if Reg.THR_LOG_REC_0 i ≤ off ∧ off < Reg.THR_LOG_REC_0 i + 16 then
      let k := 64 * i + s.fld (Reg.THR_LOG_SEL i) Fl.THR_LOG_SEL_SLOT
      BitVec.ofNat 64 (leAt (ringAt s.thrLog k).bytes (off - Reg.THR_LOG_REC_0 i) 4)
    else s.view off
  | _ => s.view off
/-- The mirror refreshed, after each telemetry sample. -/
def State.takeMirror (s : State) : State :=
  { s with host.mirror := regionRegs.foldl (fun m o => swrite resetOf m o (s.sampled o)) s.host.mirror }

end Sys2Proof.Machine
end

