-- ==== Sys2Proof/Machine/Faults.lean ====
section
/-! DEFINITION. Restarts, uncovered losses and re-placements (R549, R571 to R587, R594). -/

namespace Sys2Proof.Machine

/-! ## Module events (R549) -/

def State.moduleEvent (s : State) : State := s.emit (.interrupt 2048)
/-- A status bit that holds ALERT_N sets: vector 2,048 is signalled each time. -/
def State.setAlert (s : State) (off : Nat) (f : Fld) : State := if s.flag off f then s else (s.setFld off f 1).moduleEvent
/-- The ALERT_N pin: asserted while any bit that holds it is set (R456, R508, R521, R527, R588). -/
def State.alertN (s : State) : Bool :=
  s.flag Reg.PWR_STAT Fl.PWR_STAT_FEED_EVENT || s.flag Reg.THM_STAT Fl.THM_STAT_FLOW_EVENT ||
    s.flag Reg.THM_STAT Fl.THM_STAT_TRAY_EVENT || s.flag Reg.THM_STAT Fl.THM_STAT_TRIP_EVENT || s.fatal

/-- The PWR_OK pin (R456, R633): high while a 72 V feed is in use and a converter of the 6 V bus is up. -/
def State.pwrOk (s : State) : Bool :=
  (s.feedAOk || s.feedBOk) && (List.range 64).any fun n => !sread (fun _ => false) s.power.convBad n

/-! ## What a partition that stops does (R445, R574) -/

/-- A pass not yet committed is discarded: its input is still to be processed, and it draws and costs nothing. -/
def State.abortPass (s : State) (q : Pass) : State :=
  let s := s.dropPass q
  match s.findReq q.req with
  | none => s
  | some r => if q.kind = kindChunk ∨ q.kind = kindAdapt then s.putReq { r with input := q.input ++ r.input } else s
def State.abortPasses (s : State) (p : Nat) : State :=
  (s.passes.filter fun q => q.part == p).foldl (fun (s : State) q => s.abortPass q) s

/-- The KV messages of a partition's contexts that are under way arrive, and their acknowledgements with them: any message
reaches its node before the steps that follow (R423; DESIGN CHOICE, log entry 39). -/
def State.deliverKv (s : State) (m : PnMsg) : State :=
  match m.body with
  | .kvCommit x _ mask pos replay _ => s.kvMessage m x fun t l => t.commitLayer l x m.dest mask pos replay
  | .kvRollback x _ mask _ _ _ => s.kvMessage m x fun t l => t.rollbackLayer l x m.dest mask
  | .kvAck x st => s.kvAcked m x st
  | _ => s
def PnBody.kvOf : PnBody → Option Nat
  | .kvCommit x _ _ _ _ _ => some x
  | .kvRollback x _ _ _ _ _ => some x
  | .kvAck x _ => some x
  | _ => none
def State.kvUnderWay (s : State) (p : Nat) : List PnMsg :=
  s.pn.filter fun m => (m.destModule == s.module || m.destModule == 63) &&
    (match m.body.kvOf with
     | none => false
     | some x => (s.ctx x).part == p)
def State.flushKv (s : State) (p : Nat) : State :=
  let s := (s.kvUnderWay p).foldl (fun (s : State) m => s.deliverKv m) s
  (s.kvUnderWay p).foldl (fun (s : State) m => s.deliverKv m) s

/-- A partition's sequencers halted, their claims released and their windows closed. -/
def State.haltPart (s : State) (p : Nat) : State :=
  (s.coresIn p).foldl (fun (s : State) c => (s.stopCore c).closeWindows c) s
/-- A partition goes DEGRADED; a FROZEN one is DEGRADED when it resumes (R446, R594). -/
def State.degrade (s : State) (p : Nat) : State :=
  if s.partState p = 5 then { s with blk.degraded := p :: s.blk.degraded.filter fun q => q != p } else s.setPartState p 4
/-- Steps 1 to 3 of a restart (R574). -/
def State.stopPart (s : State) (p : Nat) : State := (((s.degrade p).flushKv p).abortPasses p).haltPart p

/-- A KV message that the HEAD core sends again, with REPLAY set. -/
def PnBody.again : PnBody → PnBody
  | .kvCommit x l mask pos _ f => .kvCommit x l mask pos true f
  | .kvRollback x l mask pos _ f => .kvRollback x l mask pos true f
  | b => b
/-- A KV message sent by the HEAD core to the holders on other modules; its acknowledgement ends no token, so that its tag is
one that no token has. -/
def State.sendFar (s : State) (x : Nat) (body : PnBody) : State :=
  let p := (s.ctx x).part
  match s.headCore p with
  | none => s
  | some c => (s.farHolders p).foldl (fun (s : State) h => s.sendAway p h.2 h.1 c 0xFFFF body) s
/-- A context's last commit or rollback sent again, which holders that lack it apply, and its tentative nodes and pending entry
rolled back (R446, steps 2 and 3): on this module at once, and by messages on the others. -/
def State.replayCtx (s : State) (x : Nat) : State :=
  let last := sread (fun _ => none) s.faults.lastKv x
  let each := fun (s : State) (f : State → LayerKv → Nat → State) =>
    (s.kvLayers (s.ctx x).part).foldl (fun (s : State) l => l.set.foldl (fun (s : State) c => f s l c) s) s
  let s := match last with
    | some (.kvCommit _ _ mask pos _ path) => each s fun t l c =>
        let u := t.commitLayer l x c mask pos true
        if path then u.rollbackLayer l x c (maskOut 0xFFFF mask) else u
    | some (.kvRollback _ _ mask _ _ _) => each s fun t l c => t.rollbackLayer l x c mask
    | _ => s
  let s := match last with
    | some b => s.sendFar x b.again
    | none => s
  let n := (s.ctx x).committed
  ((s.sendFar x (.kvRollback x 0 0xFFFF n false false)).sendFar x (.kvRollback x 0 0 n false false)).rollbackAll x
def State.replayPart (s : State) (p : Nat) : State :=
  (s.ctxs.filter fun e => e.2.part == p && (e.2.st == .resident || e.2.st == .active)).foldl
    (fun (s : State) e => s.replayCtx e.1) s
/-- The cores of a partition that have code start at SEQ.START_PC, but for those in Retain or Dark. -/
def State.startPart (s : State) (p : Nat) : State :=
  match s.imageIn p with
  | none => s
  | some (_, m, _) => (s.coresIn p).foldl (fun (s : State) c =>
      if (codeOf m.secs (s.bind c).role).isSome ∧ s.sleep c < 3 then s.seqStart c false else s) s
/-- Steps 4 and 5 of a restart: the partition is READY again, or FROZEN still (R448). -/
def State.resumePart (s : State) (p : Nat) : State :=
  let s := s.replayPart p
  if s.partState p = 5 then { s with blk.degraded := s.blk.degraded.filter fun q => q != p }
  else (s.startPart p).setPartState p 3

/-! ## Losses that no swing core covers (R584) -/

/-- The contexts of a partition that a loss fault-parks. -/
def State.lossCtxs (s : State) (p : Nat) : List Nat :=
  (s.ctxs.filter fun e => e.2.part == p && (e.2.st == .resident || e.2.st == .active || e.2.st == .parking ||
    (e.2.st == .resuming && e.2.resident.isSome))).map fun e => e.1
def State.faultParkAll (s : State) (xs : List Nat) : State :=
  xs.foldl (fun (s : State) x => (s.faultPark x).endFaulted x) s
/-- An uncovered loss: the partition stays DEGRADED until it is unloaded, and its contexts are fault-parked. -/
def State.lose (s : State) (p : Nat) : State :=
  let s := s.degrade p
  let s := { s with faults.lost := p :: s.faults.lost.filter fun q => q != p }
  s.faultParkAll (s.lossCtxs p)
/-- An uncovered loss recorded. -/
def State.loseLogged (s : State) (code : Nat) (u : FaultUnit) (p detail : Nat) : State :=
  (s.lose p).logFault code u (some p) outUncovered detail

/-- Partitions with a core placed in a region. -/
def State.partsIn (s : State) (r : Nat) : List Nat :=
  (List.range 16).filter fun p => s.loaded p && (coresOf r).any fun c => s.bound c && s.partOf c == p
/-! ## Restarts (R573, R574) -/

/-- Whether a partition was restarted within the last second. -/
def State.justRestarted (s : State) (p : Nat) : Bool :=
  match sread (fun _ => none) s.faults.restartAt p with
  | none => false
  | some t => decide (s.now - t ≤ 4000000)
/-- A partition restarted for a fault, or lost when the fault is its second within a second; a fault of a partition that is
not READY is recorded only (DESIGN CHOICE, log entry 39). -/
def State.restart (s : State) (p code : Nat) (u : FaultUnit) (detail : Nat) : State :=
  if s.partState p ≠ 3 then s.logFault code u (some p) outLogged detail
  else if s.justRestarted p then (s.stopPart p).loseLogged code u p detail
  else
    let s := (s.stopPart p).resumePart p
    let s := { s with faults.restartAt := swrite (fun _ => none) s.faults.restartAt p (some s.now) }
    s.logFault code u (some p) outRestarted detail

/-- A core that has FAULTED (R393, R564, R574): a FAULT message with a cause of R266. -/
def State.programFault (s : State) (c cause : Nat) : State :=
  let s := s.loadCoreFault c
  if s.bound c && s.loaded (s.partOf c) then s.restart (s.partOf c) 0x43 (.core c) cause
  else s.logFault 0x43 (.core c) (s.partField c) outLogged cause

/-- The lowest core of a partition whose last heartbeat showed state WAIT; a free value where none did. -/
def State.stalledCore (s : State) (p : Nat) : Nat :=
  ((s.coresIn p).find? fun c =>
    match sread (fun _ => none) s.faults.beats c with
    | none => false
    | some b => b.1 % 4 == seqWait).getD (Config.stalled s.fresh % 256)
/-- Whether a partition with a pass in flight has sent no commit notice for the STALL_MS that its last one put in force
(R573, R595); before a first notice that is the value at reset, and the sender keeps the time. -/
def State.stallDue (s : State) (p : Nat) : Bool :=
  (s.passes.any fun q => q.part == p) &&
    match sread (fun _ => none) s.faults.noticed p with
    | none => true
    | some n => n.1 != 0 && decide (n.2 + 4000 * n.1 ≤ s.now)
/-- PIPE_STALL (R573): a READY partition has stalled and is restarted. -/
def execPipeStall (p : PartId) (s : State) : Out :=
  .next (if s.partState p.val = 3 ∧ s.stallDue p.val then
      s.settle (((s.restart p.val 0x44 .module (s.stalledCore p.val)).drew).serve)
    else s)

/-! ## Re-placements (R575 to R579) -/

def rpIdle : Nat := 0
def rpMoving : Nat := 1
def rpHost : Nat := 2
def rpRestoring : Nat := 3
def rpDone : Nat := 4
def rpFailed : Nat := 5
def State.replaceState (s : State) : Nat := s.fld Reg.DUMP_REPLACE_STAT Fl.DUMP_REPLACE_STAT_STATE
def State.setReplace (s : State) (x : Nat) : State := s.setFld Reg.DUMP_REPLACE_STAT Fl.DUMP_REPLACE_STAT_STATE x

/-- The swing core of a core's die that is free: of role kind SWING, not marked bad, without a borrow, not standing in and
not kept for a re-placement that waits; none when a swing core of the die stands in already (R575, R579). -/
def State.freeSwing (s : State) (c : Nat) : Option Nat :=
  let die := (List.range 8).map fun i => c / 8 * 8 + i
  if s.standIns.any fun q => q.2 / 8 == c / 8 then none
  else die.find? fun k => k != c && s.bound k && (s.bind k).kind == 4 && !s.coreBad k &&
    !s.flag (Reg.RIF_BORROW k) Fl.RIF_BORROW_EN && !(s.faults.replaceQ.any fun r => r.swing == k) &&
    !(s.faults.replace.any fun r => r.swing == k)
/-- Why a dead core is not re-placed: the reason of R575, the lowest that holds (DESIGN CHOICE, log entry 39). -/
def State.replaceBar (s : State) (c : Nat) : Option Nat :=
  if !s.flag Reg.DUMP_FLT_CTL Fl.DUMP_FLT_CTL_AUTO_REPLACE then some 0
  else if (s.freeSwing c).isNone then some 1
  else if bitOf (s.bind c).flags 2 then some 2
  else if (s.part (s.partOf c)).any fun q => q.bookCore == some c then some 3
  else none

/-- A core takes the place of another in every attention set; where that one led a set of several, its mirror leads
(R577, R581). -/
def LayerKv.swap (l : LayerKv) (dead swing : Nat) : LayerKv :=
  let led := l.lead == dead && decide (1 < l.set.length)
  { l with set := l.set.map fun c => if c = dead then swing else c
           leadAt := if led then 1 - l.leadAt else l.leadAt }

/-- MOVING begins (R576, R577): the swing core borrows the racks, takes the dead core's place and binding, and its Pantry
is scrubbed. -/
def State.moveIn (s : State) (r : Replace) : State :=
  let b := s.bind r.dead
  let old := s.partOf r.swing
  let s := if 0 < s.sleep r.swing then s.wake r.swing else s
  let s := (((s.stopCore r.swing).winRebind r.swing).engReset r.swing).scrubStart r.swing
  let q := Reg.RIF_BORROW r.swing
  let s := ((s.setFld q Fl.RIF_BORROW_EN 1).setFld q Fl.RIF_BORROW_LOCAL (r.dead % 8)).setFld q Fl.RIF_BORROW_READY 1
  let s := s.unbind r.dead
  let s := (s.setBinding r.swing (some r.part) true).setBind r.swing b
  let swap : LayerKv → LayerKv := fun l => l.swap r.dead r.swing
  let s := { s with standIns := s.standIns ++ [(r.dead, r.swing)], layerKv := s.layerKv.map swap }
  ((s.countCores old).countCores r.part).recap

/-- The next re-placement begins (R579). -/
def State.replaceNext (s : State) : State :=
  match s.faults.replace, s.faults.replaceQ with
  | none, r :: rs =>
    let s := { s with faults.replace := some r, faults.replaceQ := rs }
    let t := Reg.DUMP_REPLACE_STAT
    let s := ((s.setFld t Fl.DUMP_REPLACE_STAT_DEAD r.dead).setFld t Fl.DUMP_REPLACE_STAT_SWING r.swing).setFld t
      Fl.DUMP_REPLACE_STAT_PARTITION r.part
    (s.setReplace rpMoving).moveIn r
  | _, _ => s

/-- The re-placement under way fails (R578): REPLACE_FAILED, and the loss is uncovered. -/
def State.replaceFail (s : State) : State :=
  match s.faults.replace with
  | none => s
  | some r =>
    let s := ({ s with faults.replace := none }.setReplace rpFailed).bump Reg.DUMP_REPLACES Fl.DUMP_REPLACES_FAILED
    let s := s.logFault r.code (.core r.dead) (some r.part) outUncovered r.swing
    (s.loseLogged 0x4F (.core r.dead) r.part r.swing).replaceNext

/-- A placed core is dead (R575): marked bad, its partition stopped, and the core re-placed or the loss uncovered. -/
def State.placedDead (s : State) (c code : Nat) : State :=
  let p := s.partOf c
  let s := ((s.degrade p).logFault code (.core c) (some p) outPending 0).stopPart p
  match s.replaceBar c, s.freeSwing c with
  | none, some k =>
    let r : Replace := ⟨p, c, k, code⟩
    { s with faults.replaceQ := s.faults.replaceQ ++ [r] }.replaceNext
  | some d, _ => s.loseLogged code (.core c) p d
  | none, none => s.loseLogged code (.core c) p 1

/-- Re-placements that lose their swing core, of those that `gone` names: those that wait for one are uncovered losses, and the
one under way fails (R578). -/
def State.swingsDead (s : State) (gone : Nat → Bool) : State :=
  let out := s.faults.replaceQ.filter fun r => gone r.swing
  let s := { s with faults.replaceQ := s.faults.replaceQ.filter fun r => !gone r.swing }
  let s := out.foldl (fun (s : State) r => s.loseLogged r.code (.core r.dead) r.part 1) s
  if s.faults.replace.any fun r => gone r.swing then s.replaceFail else s

/-- A region with placed cores is lost (R564, R584), its failed regulators counted in the record (R567); a swing core that it
holds dies for the re-placements that need it (R578, R594). -/
def State.regionLost (s : State) (r : Nat) : State :=
  let s := (s.partsIn r).foldl (fun (s : State) p =>
    s.loseLogged 0x45 (.region r) p (s.fld (Reg.STG_REG_STAT r) Fl.STG_REG_STAT_FAILED)) s
  s.swingsDead fun c => regionOf c == r

/-- Whether no heartbeat of a core has come for 100 µs (R572); before a first one the sender keeps the time. -/
def State.silent (s : State) (c : Nat) : Bool :=
  match sread (fun _ => none) s.faults.beats c with
  | none => true
  | some b => decide (b.2 + 400 ≤ s.now)
/-- A core declared dead, once (R572, R575): a core that no partition has placed is only marked; one of a load in WRITE
undoes it (R393). -/
def State.coreDead (s : State) (c code : Nat) : State :=
  if s.faults.dead.contains c then s
  else
    let s := { s.mark 0 c with faults.dead := c :: s.faults.dead }
    let s := (s.loadCoreFault c).swingsDead fun k => k == c
    (if s.bound c && s.loaded (s.partOf c) then s.placedDead c code else s).serve

/-- CORE_DEAD (R572): the stagehand has had no heartbeat of a core for 100 µs, the core not being in Retain or Dark. -/
def execCoreDead (c : CoreId) (s : State) : Out :=
  .next (if 3 ≤ s.sleep c.val ∨ !s.silent c.val then s else s.settle (s.coreDead c.val 0x41))

/-- An instruction that fires racks, its FIRST raised by 480 (R222, R576). -/
def raiseFirst (w : DWord) : DWord :=
  let op := (w.setWidth 8).toNat
  if op = 0x50 ∨ op = 0x51 ∨ op = 0x52 then Fld.set ⟨32, 10⟩ w (Fld.get ⟨32, 10⟩ w + 480) else w
/-- Every instruction of a core's code store so changed. -/
def State.raiseCode (s : State) (c : Nat) : State :=
  (List.range 32768).foldl (fun (s : State) i =>
    if raiseFirst (s.codeAt c i) = s.codeAt c i then s else s.setCode c i (raiseFirst (s.codeAt c i))) s
/-- Routes rewritten on both channels (R415, R577). -/
def State.rerouteAll (s : State) : State :=
  s.rewrite (fun _ => true) ((Config.rewrittenRoutes s.fresh).map fun r => { r with prompt := false })

/-- REPLACE_MOVING_DONE (R576): the image fetched again gives the swing core its role's code and data, routes are
rewritten, and HOST begins; a failed fetch fails the re-placement (R578). -/
def execReplaceMovingDone (img : Option (List Byte)) (s : State) : Out :=
  .next (match s.faults.replace with
    | none => s
    | some r =>
      if s.replaceState ≠ rpMoving ∨ s.sleep r.swing ≠ 0 ∨ s.scrubbing r.swing then s
      else s.settle (match s.hostGot img, s.imageIn r.part with
        | some i, some (_, _, b) =>
          let m := imageOf i
          let t := (s.writeRole m (s.relocated m b) r.swing (s.bind r.swing).role).raiseCode r.swing
          ((t.rerouteAll).setReplace rpHost).moduleEvent
        | _, _ => (s.replaceFail).serve))

/-! ## Restoration (R582) -/

/-- A range of one core's Pantry copied to another's; poisoned words stay so. -/
def State.copyRange (s : State) (src dst off n : Nat) : State :=
  let s := (s.wantLines src off n true).wantLines dst off n false
  let a := pantryKey src off
  let d := pantryKey dst off
  let mine := s.pantry.filter fun e => decide (a ≤ e.1) && decide (e.1 < a + n)
  let bad := s.pantryEcc.filter fun e => decide (a / 8 ≤ e.1) && decide (e.1 < (a + n) / 8) &&
    (e.2 == .poisoned || e.2 == .uncorrectable)
  { s with
    pantry := mine.foldl (fun m e => swrite (fun _ => 0) m (d + (e.1 - a)) e.2) (sclear s.pantry d (d + n))
    pantryEcc := bad.foldl (fun m e => swrite (fun _ => .clean) m (d / 8 + (e.1 - a / 8)) .poisoned)
      (sclear s.pantryEcc (d / 8) ((d + n) / 8)) }

/-- A core of a layer's set that has what the swing core lacks. -/
def State.replicaOf (s : State) (l : LayerKv) (swing : Nat) : Option Nat := l.set.find? fun c => c != swing && !s.coreBad c

/-- REPLICA at one layer: pool and staging copied from another core of the set, the page maps from their other keeper; the
digests are those that the dead core held (DEDUCED, log entry 39). -/
def State.restoreReplica (s : State) (l : LayerKv) (r : Replace) (src : Nat) : State :=
  let s := (s.copyRange src r.swing l.pool (pageBytes * l.slots)).copyRange src r.swing l.stage (9792 * l.resident)
  let s := match l.keepers.find? fun c => c != r.swing with
    | some k => if l.keepers.contains r.swing then s.copyRange k r.swing l.map (2048 * l.resident) else s
    | none => s
  let xs := s.ctxs.filter fun e => e.2.resident.isSome && (s.kvLayers e.2.part).contains l
  let s := xs.foldl (fun (s : State) e =>
    let hold := (s.setHold e.1 l.tag r.swing (s.hold e.1 l.tag src)).lookMap l (e.2.resident.getD 0)
    ((hold.mapList l (e.2.resident.getD 0)).filter fun m => m.2.state == 4).foldl (fun (s : State) m =>
      (s.look r.dead (l.slotAt m.2.slot) pageBytes).store r.swing (l.slotAt m.2.slot) (s.bytes r.dead (l.slotAt m.2.slot) pageBytes)) hold) s
  { s with kvSlots := (List.range l.slots).foldl (fun m k =>
      swrite (fun _ => false) m (r.swing * 4096 + k) (s.slotUsed src k)) s.kvSlots }

/-- A context as its last checkpoint left it, without pins (R580, R582). -/
def Ctx.atCheck (k : Ctx) : Ctx := { k with committed := k.ckPos, bookNode := k.ckNode, bookFill := k.ckFill, pins := [] }
/-- The map that a checkpoint gives a context at a layer. -/
def State.checkPlan (s : State) (x : Nat) (q : PartRec) (l : LayerKv) : List MapEntry :=
  let k := s.ctx x
  (s.setCtx x k.atCheck).resumePlan x q l
/-- A layer of a context whose entries are rebuilt from the checkpoint (R582). -/
def State.rebuilt (s : State) (r : Replace) : List LayerKv :=
  s.layerKv.filter fun l => l.set.contains r.swing && (s.replicaOf l r.swing).isNone
/-- The contexts that a restoration concerns. -/
def State.restoreCtxs (s : State) (r : Replace) : List Nat :=
  (s.ctxs.filter fun e => (e.2.st == .resident || e.2.st == .active) && e.2.resident.isSome &&
    (e.2.part == r.part || (s.kvLayers e.2.part).any fun l => l.set.contains r.swing)).map fun e => e.1
/-- Whether the adapters of a swing core have no other copy. -/
def State.loneAdapter (s : State) (r : Replace) : Bool :=
  bitOf (s.bind r.swing).flags 4 && (s.adapterCores r.part).all fun c => c == r.swing
/-- What a restoration reads from the Loft for a context. -/
def State.checkReads (s : State) (r : Replace) (x : Nat) : List (Nat × Nat) :=
  let k := s.ctx x
  match s.part k.part with
  | none => []
  | some q =>
    let pages := (s.rebuilt r).filter fun l => (s.kvLayers k.part).contains l
    (pages.map fun l => (s.checkPlan x q l).flatMap fun e =>
      if e.state = 4 then (l.groupBlocks e.block k.ckPos).map fun b => (s.loftDigestAt x l b, 64)
      else [(s.loftPage x l e.block, pageBytes)]).flatten ++
      (if s.loneAdapter r && k.adapter && k.part == r.part then [(k.loftAdapter, q.adapterBytes)] else [])

/-- The map of a rebuilt layer put in place and filled from the Loft. -/
def State.fillLayer (s : State) (x : Nat) (q : PartRec) (l : LayerKv) (mem : List (Nat × List Byte)) : State :=
  let k := s.ctx x
  let i := s.residentOf x
  let plan := s.checkPlan x q l
  let s := (s.lookChain q k.atCheck).lookMap l i
  let t := (s.setCtx x k.atCheck).installPlan x i k.part l plan
  let t := (t.mapList l i).foldl (fun (t : State) e =>
    if e.2.state = 2 then
      match memAt mem (t.loftPage x l e.2.block) pageBytes with
      | none => t
      | some d => (t.markSlot l e.2.slot true).storeSet l.set (l.slotAt e.2.slot) d
    else t.fillEntry x l mem e.2) t
  t.setCtx x k

/-- One position recomputed: its entry is computed afresh (R582), in a page of its block. None where no slot is free. -/
def State.recompute (s : State) (x n : Nat) (l : LayerKv) : Option State :=
  let i := s.residentOf x
  let b := n / 64
  let page := match s.pageEntry l i b with
    | some e => some (s.setMapEntry l i e.1 { e.2 with fill := n % 64 + 1 }, e.2.slot)
    | none =>
      match (s.freeSlots l).head?, (s.unusedEntries l i).head? with
      | some k, some j =>
        let e : MapEntry := ⟨b, k, 1, false, n % 64 + 1, 0⟩
        some ((s.markSlot l k true).setMapEntry l i j e, k)
      | _, _ => none
  page.map fun p =>
    let bytes := (List.range entryBytes).map fun j => Config.recomputed s.fresh j
    (p.1.drew).storeSet l.set (l.slotAt p.2 + entryBytes * (n % 64)) bytes
/-- Positions from the checkpoint to COMMITTED - 1 recomputed. -/
def State.recomputeTo (x : Nat) (l : LayerKv) : List Nat → State → Option State
  | [], s => some s
  | n :: ns, s =>
    match s.recompute x n l with
    | none => none
    | some t => recomputeTo x l ns t
/-- One rebuilt layer of a context restored; none where it fails. -/
def State.restoreLayer (s : State) (x : Nat) (q : PartRec) (mem : List (Nat × List Byte)) (l : LayerKv) :
    Option State :=
  let k := s.ctx x
  if l.draft then some (l.set.foldl (fun (s : State) c => s.setHold x l.tag c holdZero) s)
  else if s.planFull x l (s.checkPlan x q l) then none
  else
    let t := s.fillLayer x q l mem
    (t.recomputeTo x l ((List.range (k.committed - k.ckPos)).map fun i => k.ckPos + i)).map fun (t : State) =>
      l.set.foldl (fun (t : State) c => t.setHold x l.tag c { holdZero with committed := k.committed }) t
def State.restoreLayers (x : Nat) (q : PartRec) (mem : List (Nat × List Byte)) : List LayerKv → State → Option State
  | [], s => some s
  | l :: ls, s =>
    match s.restoreLayer x q mem l with
    | none => none
    | some t => restoreLayers x q mem ls t

/-- A context restored from its checkpoint; one that fails is fault-parked, with a LOFT_ERROR record where a transfer
failed. The answer says whether it came through. -/
def State.restoreCtx (s : State) (r : Replace) (mem : List (Nat × List Byte)) (x : Nat) : State × Bool :=
  let k := s.ctx x
  let lost := fun (s : State) => ((s.faultPark x).endFaulted x, false)
  match s.part k.part with
  | none => lost s
  | some q =>
    if (s.checkReads r x).any fun a => (memAt mem a.1 a.2).isNone then
      lost (s.logFault 0x50 .module (some k.part) outLogged 0)
    else
      let ls := (s.rebuilt r).filter fun l => (s.kvLayers k.part).contains l
      match State.restoreLayers x q mem ls s with
      | none => lost s
      | some t =>
        let t := match k.slot, memAt mem k.loftAdapter q.adapterBytes with
          | some a, some d =>
            if s.loneAdapter r && k.adapter && k.part == r.part then
              (t.store r.swing (q.bankAt a k.bank) d).setCtx x { t.ctx x with adaptSteps := k.ckSteps }
            else t
          | _, _ => t
        (t, true)

/-- RESTORING begins (R576): the reads of the Loft are sent. -/
def State.restoring (s : State) : State :=
  match s.faults.replace with
  | none => s
  | some r =>
    let reads := (s.restoreCtxs r).flatMap fun x => s.checkReads r x
    reads.foldl (fun (s : State) a => s.emit (.hostRead a.1 a.2)) (s.setReplace rpRestoring)

/-- The copies that a restoration takes from surviving cores: pools, staging, maps and adapters. -/
def State.restoreCopies (s : State) (r : Replace) : State :=
  let ls := s.layerKv.filter fun l => l.set.contains r.swing
  let s := ls.foldl (fun (s : State) l =>
    match s.replicaOf l r.swing with
    | some c => s.restoreReplica l r c
    | none => { s with kvReserves := s.kvReserves.filter fun q => !(q.tag == l.tag && (s.kvLayers (s.ctx q.ctx).part).contains l) }) s
  match s.part r.part, (s.adapterCores r.part).find? fun c => c != r.swing with
  | some q, some c =>
    if bitOf (s.bind r.swing).flags 4 then s.copyRange c r.swing q.adapterBase (2 * q.adapterBytes * q.adapterSlots) else s
  | _, _ => s

/-- DONE (R576): commits replayed, the cores started, the partition READY unless another loss or re-placement keeps it
DEGRADED (DEDUCED, log entry 39), and the record REPLACED. -/
def State.replaceDone (s : State) (r : Replace) : State :=
  let s := ({ s with faults.replace := none }.setReplace rpDone).bump Reg.DUMP_REPLACES Fl.DUMP_REPLACES_DONE
  let s := if s.faults.lost.contains r.part || (s.faults.replaceQ.any fun q => q.part == r.part) then s
    else s.resumePart r.part
  (s.logFault r.code (.core r.dead) (some r.part) outReplaced r.swing).replaceNext

/-- RESTORE_COMPLETE (R582): `mem` is what the host returned for the reads. The copies wait for a scrub of the swing core
(R196). A restoration that fails for every context fails the re-placement (R578). -/
def execRestoreComplete (mem : List (Nat × List Byte)) (s : State) : Out :=
  .next (match s.faults.replace with
    | none => s
    | some r =>
      if s.replaceState ≠ rpRestoring ∨ s.scrubbing r.swing then s
      else
        let mem := s.hostMem mem
        let t := s.restoreCopies r
        let xs := t.restoreCtxs r
        let u := xs.foldl (fun (u : State × Bool) x =>
          let v := u.1.restoreCtx r mem x
          (v.1, u.2 || v.2)) (t, false)
        s.settle (if !xs.isEmpty && !u.2 then u.1.replaceFail.serve else (u.1.replaceDone r).serve))

/-- HOST_MS_TIMEOUT (R578): HOST_DONE did not come within HOST_MS. -/
def execHostMsTimeout (s : State) : Out :=
  .next (s.settle (if s.faults.replace.isSome ∧ s.replaceState = rpHost then s.replaceFail.serve else s))
/-- DUMP.STAT.WRITE_REFUSED. -/
def State.dumpRefused (s : State) : State := s.setFld Reg.DUMP_STAT Fl.DUMP_STAT_WRITE_REFUSED 1
/-- A write of DUMP.REPLACE_CTL (R21, R578, R595): HOST_DONE is discarded outside HOST. -/
def State.writeReplaceCtl (s : State) (v : Word) : State :=
  if 2 ≤ v.toNat then s.dumpRefused
  else if v.toNat = 1 ∧ s.faults.replace.isSome ∧ s.replaceState = rpHost then s.restoring
  else s

/-! ## Failing a partition over (R587), and losing everything (R586) -/

/-- A write of DUMP.FAIL_CTL (R21, R587): refused where it names a partition neither FROZEN nor DEGRADED. -/
def State.writeFailCtl (s : State) (v : Word) : State :=
  let ps := maskList 16 v.toNat
  if 65536 ≤ v.toNat ∨ ps.any fun p => s.partState p ≠ 4 ∧ s.partState p ≠ 5 then s.dumpRefused
  else ((ps.flatMap fun p => s.lossCtxs p).foldl (fun (s : State) x => (s.faultPark x).endFaulted x) s).serve

/-- The re-placements under way and queued are abandoned (R586, R594). The second record of each fault says UNCOVERED, which of
the codes of R568 fits best what becomes of its contexts, and DUMP.REPLACE_STAT shows IDLE (DESIGN CHOICE, log entry 41). -/
def State.replaceDrop (s : State) : State :=
  let s := if s.faults.replace.isSome then s.setReplace rpIdle else s
  let rs := s.faults.replace.toList ++ s.faults.replaceQ
  rs.foldl (fun (s : State) (r : Replace) => s.logFault r.code (.core r.dead) (some r.part) outUncovered r.swing)
    { s with faults.replace := none, faults.replaceQ := [] }

/-- Every loaded slot unloaded and every context that R584 names fault-parked: both feeds lost, or flow DARKED (R586). -/
def State.loseAll (s : State) : State :=
  let s := s.faultParkAll ((List.range 16).flatMap fun p => s.lossCtxs p)
  let s := s.replaceDrop
  (List.range 16).foldl (fun (s : State) k => if (s.slotRec k).isSome then (s.clearSlot k).emptySlot k else s) s

/-! ## Heartbeats (R572) and Pantry error storms (R571) -/

/-- Whether a core's Pantry reported 16 corrected errors within 1 ms, or 4 uncorrectable ones within 1 s. -/
def State.storming (s : State) (c : Nat) : Bool :=
  let hit := fun (k n span : Nat) =>
    let ts := sread (fun _ => []) s.faults.eccTimes k
    decide (n ≤ ts.length) && decide (ts.headD 0 - ts.getLastD 0 ≤ span)
  hit (2 * c) 16 4000 || hit (2 * c + 1) 4 4000000
/-- A heartbeat's flit, its count the next of the core (R572). -/
def State.beatFlit (s : State) (c : Nat) : Nat :=
  let n := sread (fun _ => 0) s.faults.beatCount c
  let pend := ((List.range 16).filter fun t => s.tok c t == tokPending).foldl (fun a t => a + 2 ^ t) 0
  s.seq c + 4 * s.sleep c + 256 * n + 65536 * pend
/-- HEARTBEAT_CHECK (R571, R572): a cluster control node sends heartbeats of its cores in Run, Hold and Doze that are not
dead; a core whose Pantry storms is treated as dead (DESIGN CHOICE, log entry 40). -/
def execHeartbeatCheck (cluster : Fin 64) (s : State) : Out :=
  let cs := (List.range 4).map fun i => 4 * cluster.val + i
  let t := (cs.filter fun c => decide (s.sleep c ≤ 2) && !s.faults.dead.contains c).foldl (fun (s : State) c =>
    let t := s.sendPn (nodeStagehand (regionOf c)) s.module c 0 (.heartbeat (s.beatFlit c))
    let n := (sread (fun _ => 0) s.faults.beatCount c + 1) % 256
    { t with faults.beatCount := swrite (fun _ => 0) t.faults.beatCount c n }) s
  .next (s.settle ((cs.filter fun c => t.storming c).foldl (fun (t : State) c => t.coreDead c 0x42) t))
/-- HEARTBEAT (R572): a heartbeat reaches the region's stagehand. -/
def execHeartbeat (id : Nat) (s : State) : Out :=
  .next (match s.findPn id with
    | none => s
    | some m =>
      match m.body with
      | .heartbeat v =>
        { s.takePn id with faults.beats := swrite (fun _ => none) s.faults.beats m.src (some (v, s.now)) }
      | _ => s)

end Sys2Proof.Machine
end

