-- ==== Sys2Proof/Machine/Dump.lean ====
section
/-! DEFINITION. FATAL faults and dumps (R555, R588 to R595). -/

namespace Sys2Proof.Machine

/-! ## The records of a dump (R591 to R593) -/

/-- A record with its header; the body padded with 0 to a multiple of 8. -/
def dumpRecord (seq type inst : Nat) (body : List Byte) : List Byte :=
  let body := body ++ List.replicate ((8 - body.length % 8) % 8) 0
  leBytes 2 type ++ leBytes 2 inst ++ leBytes 4 body.length ++ leBytes 4 seq ++ leBytes 4 (crc32c body) ++ body

/-- A ring's records in slot order, a slot that holds none as zeros. -/
def ringBytes (m : List (Nat × LogSlot)) (k n w : Nat) : List Byte :=
  ((List.range n).map fun i => bytesAt (ringAt m (k + i)).bytes 0 w).flatten
/-- The error log's records, oldest first. -/
def State.errorBytes (s : State) : List Byte :=
  let n := s.fld Reg.DUMP_ERR_HEAD Fl.DUMP_ERR_HEAD_NEXT_SEQ
  ((List.range (min n 1024)).map fun i => (ringAt s.errLog ((n - min n 1024 + i) % 1024)).bytes).flatten
def State.regionDump (s : State) (r : Nat) : List Byte :=
  let w := regionWin r
  leBytes 8 (s.aoc r).toNat ++ s.regBytes w 9 ++ s.regBytes (w + 0x1000) 32 ++ s.regBytes (w + 0x3000) 28 ++
    s.regBytes (w + 0x3100) 16 ++ s.regBytes (Reg.THM_REGION r) 4 ++ s.regBytes (Reg.THM_SPOT r 0) 8 ++ leBytes 4 0
def State.throttleDump (s : State) (r : Nat) : List Byte :=
  leBytes 4 (s.word (Reg.THR_LOG_HEAD r)) ++ leBytes 4 (s.word (Reg.THR_LOG_LOST r)) ++ ringBytes s.thrLog (64 * r) 64 16
def State.driftDump (s : State) : List Byte :=
  leBytes 4 (s.word Reg.CEL_DRIFT_HEAD) ++ leBytes 4 (s.word Reg.CEL_DRIFT_LOST) ++ ringBytes s.driftLog 0 256 16
/-- PROMPT_NET of a die: heartbeats with their ages, what its router holds (free), and the headers of the last messages. -/
def State.promptDump (s : State) (d : Nat) : List Byte :=
  let beat := fun (i : Nat) => (sread (fun _ => none) s.faults.beats (8 * d + i)).getD (0, 0)
  let last := sread (fun _ => []) s.faults.pnLast d
  ((List.range 8).map fun i => leBytes 4 (beat i).1).flatten ++
    ((List.range 8).map fun i => leBytes 4 (4 * (s.now - (beat i).2))).flatten ++
    ((List.range 32).map fun i => Config.routerState s.fresh (32 * d + i)) ++
    bytesAt ((last.map fun m => (m.flits.take 2).flatMap fun f => leBytes 4 f).flatten) 0 160
def State.seqDump (s : State) (c : Nat) : List Byte :=
  if 3 ≤ s.sleep c ∨ s.coreBad c then []
  else
    let w := fun off => leBytes 4 (s.word off)
    let head := w (Reg.SEQ_STAT c) ++ w (Reg.SEQ_PC c) ++ w (Reg.SEQ_EXC c) ++ w (Reg.SEQ_EPC c) ++
      leBytes 8 (s.view (Reg.SEQ_ISSUED c)).toNat ++ w (Reg.CORE_STAT c) ++ w (Reg.CORE_ECC_COUNT c)
    let toks := (List.range 16).flatMap fun t => w (Reg.SEQ_TOKEN c t)
    let gs := (List.range 32).flatMap fun n => leBytes 8 (s.g c n).toNat
    let as := (List.range 8).flatMap fun n => leBytes 4 (s.a c n).toNat
    let sigs := (List.range 64).flatMap fun n => w (Reg.SEQ_SIG c n)
    let units := w (Reg.RIF_QUEUE c) ++ w (Reg.RIF_STAT c) ++ w (Reg.ENG_BUSY c) ++ w (Reg.VEC_STAT c)
    let wins := (List.range 64).flatMap fun n => w (Reg.WDS_WIN_CTL c n) ++ w (Reg.WDS_WIN_COUNT c n) ++
      w (Reg.WDS_WIN_TARGET c n) ++ w (Reg.WDS_WIN_LATE_COUNT c n)
    bytesAt (head ++ toks ++ gs ++ as ++ sigs ++ units) 0 1024 ++ wins
def State.measureDump (s : State) (k : Nat) : List Byte :=
  leBytes 4 (s.word (Reg.BLK_SLOT_STAT k)) ++ (List.range 16).flatMap fun i => leBytes 4 (s.word (Reg.BLK_MEAS k i))
def State.partDump (s : State) (p : Nat) : List Byte :=
  leBytes 4 (s.word (Reg.BLK_PART_STAT p)) ++ leBytes 4 (s.word (Reg.BLK_PART_CORES p)) ++
    leBytes 8 (s.view (Reg.BLK_PART_MODEL p)).toNat

/-- The records of a dump in their order, as (type, instance, body). -/
def State.dumpParts (s : State) : List (Nat × Nat × List Byte) :=
  let per := fun (type n : Nat) (f : Nat → List Byte) => (List.range n).map fun i => (type, i, f i)
  [(1, 0, s.errorBytes)] ++ per 2 16 s.regionDump ++ per 3 16 s.throttleDump ++ [(4, 0, s.driftDump)] ++
    [(5, 0, (s.faults.telLog.reverse).flatten)] ++ per 6 32 s.promptDump ++ per 7 256 s.seqDump ++
    per 8 16 s.measureDump ++ per 9 16 s.partDump ++ [(0xFFFF, 0, [])]
def State.dumpBody (s : State) : List Byte :=
  (s.dumpParts.zipIdx.map fun p => dumpRecord p.2 p.1.1 p.1.2.1 p.1.2.2).flatten
/-- The header of R590. -/
def State.dumpHeader (s : State) (d : DumpRec) (count bytes : Nat) : List Byte :=
  let h := leBytes 4 0x5044584B ++ leBytes 2 1 ++ leBytes 2 256 ++ leBytes 4 bytes ++ leBytes 4 s.dumpParts.length ++
    leBytes 4 count ++ leBytes 1 d.code ++ leBytes 1 (if d.trunk then 0 else 1) ++ leBytes 2 d.unit
  let id := leBytes 4 (s.word Reg.ID_IDENT) ++ leBytes 4 (s.word Reg.ID_REVISION) ++ leBytes 1 s.module ++ leBytes 3 0
  let t := leBytes 4 d.seq ++ leBytes 8 d.start ++ leBytes 8 s.hostTime ++ bytesAt s.sec.fwMeas 0 32
  let h := bytesAt (h ++ id ++ t) 0 252
  h ++ leBytes 4 (crc32c h)
/-- A whole dump. -/
def State.dumpBytes (s : State) (d : DumpRec) (count : Nat) : List Byte :=
  let body := s.dumpBody
  s.dumpHeader d count (256 + body.length) ++ body

/-! ## Where a dump goes (R555, R589) -/

/-- Whether the Trunk takes a dump of `n` bytes. -/
def State.trunkFits (s : State) (n : Nat) : Bool :=
  s.rd Reg.HIF_TRUNK_BASE != 0 && decide (n ≤ s.fld Reg.HIF_TRUNK_SIZE Fl.HIF_TRUNK_SIZE_MIB * 2 ^ 20) &&
    s.flag Reg.HIF_STAT Fl.HIF_STAT_CACHE_EN
def retainBase : Nat := 0x7800000
/-- A dump written into the retained range of every region. -/
def State.putRetained (s : State) (bs : List Byte) : State :=
  let put := fun (m : List Host.Cell) (c : Nat) =>
    (bs.take (pantrySize - retainBase)).zipIdx.foldl (fun m b =>
      swrite (fun _ => 0) m (pantryKey c retainBase + b.2) b.1) (sclear m (pantryKey c retainBase) (pantryKey (c + 1) 0))
  let wipe := fun (m : List (Nat × EccMark)) (c : Nat) =>
    sclear m (pantryKey c retainBase / 8) (pantryKey (c + 1) 0 / 8)
  let cs := (List.range 16).map fun r => 16 * r
  { s with pantry := cs.foldl put s.pantry, pantryEcc := cs.foldl wipe s.pantryEcc }

/-! ## A FATAL fault (R588, R594) -/

/-- The owner of the Trunk writes in flight. -/
def dumpOwner : Nat := 2 ^ 64
/-- A dump begins: to the Trunk where it fits, else to the retained ranges, whose RETAINED sets. -/
def State.dumpStart (s : State) (d : DumpRec) : State :=
  let count := s.fld Reg.DUMP_COUNT Fl.DUMP_COUNT_COUNT + 1
  let n := (s.dumpBytes d count).length
  let trunk := s.trunkFits n
  let s := { s with faults.dump := some { d with trunk := trunk } }
  let s := (s.setFld Reg.DUMP_STAT Fl.DUMP_STAT_STATE 1).setFld Reg.DUMP_STAT Fl.DUMP_STAT_CAUSE d.code
  if trunk then { s with host.flying := s.host.flying ++ [(dumpOwner, d.base, n)] }
  else s.setFld Reg.DUMP_STAT Fl.DUMP_STAT_RETAINED 1
/-- A FATAL fault: the module halts and begins its dump; one during a dump is recorded only. -/
def State.fatalFault (s : State) (code : Nat) : State :=
  let seq := s.fld Reg.DUMP_ERR_HEAD Fl.DUMP_ERR_HEAD_NEXT_SEQ
  if s.faults.dump.isSome then s.logFault code .module none outLogged 0
  else
    let start := s.hostTime
    let s := s.setAlert Reg.DUMP_STAT Fl.DUMP_STAT_FATAL
    let s := s.logFault code .module none outPending 0
    let s := s.replaceDrop
    let s := (List.range 16).foldl (fun (s : State) p => (s.flushKv p).abortPasses p) s
    let s := (List.range 256).foldl (fun (s : State) c => s.stopCore c) s
    let s := if s.flag Reg.HIF_STAT Fl.HIF_STAT_LINK_UP then
        s.faultParkAll ((List.range 16).flatMap fun p => s.lossCtxs p) else s
    s.dumpStart ⟨code, 0, seq, start, false, (s.rd Reg.HIF_TRUNK_BASE).toNat⟩

/-- FATAL_FAULT (R564, R588): the firmware's check or watchdog, or an uncorrectable error in AO or HI state; other codes are
no such faults. -/
def execFatalFault (code : Byte) (s : State) : Out :=
  .next (if code.toNat = 0x60 ∨ code.toNat = 0x61 then s.settle ((s.fatalFault code.toNat).serve) else s)

/-- A dump ends (R555, R588 to R590): it has been written, its header last, or a write has failed: one to the Trunk
is then written to the retained ranges, one to those ends FAILED, and the second record of its fault says LOGGED (DESIGN CHOICE,
log entry 41). -/
def State.dumpEnd (s : State) (ok : Bool) : State :=
  match s.faults.dump with
    | none => s
    | some d =>
      let s := s.landed dumpOwner
      if ok then
        let count := s.fld Reg.DUMP_COUNT Fl.DUMP_COUNT_COUNT + 1
        let bs := s.dumpBytes d count
        let t := if d.trunk then s.emit (.hostWrite d.base bs) else s.putRetained bs
        let t := (({ t with faults.dump := none }).drew).setFld Reg.DUMP_COUNT Fl.DUMP_COUNT_COUNT count
        let t := t.setFld Reg.DUMP_BYTES Fl.DUMP_BYTES_BYTES bs.length
        let t := t.setFld Reg.DUMP_STAT Fl.DUMP_STAT_STATE (if d.trunk then 2 else 3)
        (t.logFault d.code .module none outDumped 0).moduleEvent
      else if d.trunk then
        State.setFld { s with faults.dump := some { d with trunk := false } } Reg.DUMP_STAT Fl.DUMP_STAT_RETAINED 1
      else (State.setFld { s with faults.dump := none } Reg.DUMP_STAT Fl.DUMP_STAT_STATE 4).logFault d.code .module none
        outLogged 0

/-! ## DUMP.CTL (R595) -/

/-- The retained dump of a region, if its header stands whole. -/
def State.retainedDump (s : State) (r : Nat) : Option (List Byte) :=
  let h := s.bytes (16 * r) retainBase 256
  if leAt h 0 4 = 0x5044584B ∧ leAt h 252 4 = crc32c (h.take 252) then
    some (s.bytes (16 * r) retainBase (min (leAt h 8 4) (pantrySize - retainBase)))
  else none
/-- COPY: one intact retained dump goes to the Trunk, if that takes it; else nothing happens (DESIGN CHOICE, log
entry 41). -/
def State.dumpCopy (s : State) : State :=
  if !s.flag Reg.DUMP_STAT Fl.DUMP_STAT_RETAINED then s
  else
    match ((List.range 16).filterMap s.retainedDump).head? with
    | none => s
    | some bs => if s.trunkFits bs.length then s.emit (.hostWrite (s.rd Reg.HIF_TRUNK_BASE).toNat bs) else s
/-- RETAIN_CLR: the retained ranges are ordinary Pantry again, and those of Dark regions are lost (R32, R589). -/
def State.retainClr (s : State) : State :=
  let s := s.setFld Reg.DUMP_STAT Fl.DUMP_STAT_RETAINED 0
  (List.range 16).foldl (fun (s : State) r => if s.sleep (16 * r) = 4 then s.zeroPantry (16 * r) else s) s
/-- A write of DUMP.CTL (R21): COPY comes before RETAIN_CLR in one write (DESIGN CHOICE, log entry 41). -/
def State.writeDumpCtl (s : State) (v : Word) : State :=
  let w := v.setWidth 64
  if 8 ≤ v.toNat then s.dumpRefused
  else
    let s := if Fl.DUMP_CTL_COPY.get w = 1 then s.dumpCopy else s
    let s := if Fl.DUMP_CTL_RETAIN_CLR.get w = 1 then s.retainClr else s
    if Fl.DUMP_CTL_TRIGGER.get w = 1 then (s.fatalFault 0x62).serve else s

end Sys2Proof.Machine
end

