-- ==== Sys2Proof/Machine/Install.lean ====
section
/-! DEFINITION. Installing weights: the stream and its checks, first pass, settle, touch-up and finish (R149 to R178), and
the refreshes that run beside it (R138 to R140). -/

namespace Sys2Proof.Machine

/-! ## Host memory -/

/-- `n` bytes at a host address, of what the host returned; none where it did not answer. -/
def memRange (mem : List (Nat × List Byte)) (a n : Nat) : Option (List Byte) :=
  if n = 0 then some []
  else match mem.find? fun e => decide (e.1 ≤ a) && decide (a + n ≤ e.1 + e.2.length) with
    | none => none
    | some e => some (bytesAt e.2 (a - e.1) n)

/-! ## The descriptor, entries and groups (R150 to R157) -/

def descPart (d : List Byte) : Nat := leAt d 6 1
def descTighten (d : List Byte) : Bool := bitOf (leAt d 7 1) 0
def descEntries (d : List Byte) : Nat := leAt d 8 4
def descGroups (d : List Byte) : Nat := leAt d 12 1

def entSrc (e : List Byte) : Nat := leAt e 2 1
def entDst (e : List Byte) : Nat := leAt e 3 1
def entGroup (e : List Byte) : Nat := leAt e 4 1
def entStoch (e : List Byte) : Bool := bitOf (leAt e 5 1) 0
def entSplit (e : List Byte) : Bool := bitOf (leAt e 5 1) 1
def entCore (e : List Byte) : Nat := leAt e 6 2
def entRows (e : List Byte) : Nat := leAt e 8 4
def entCols (e : List Byte) : Nat := leAt e 12 4
def entFirst (e : List Byte) : Nat := leAt e 16 2
def entAddr (e : List Byte) : Nat := leAt e 24 8
def entSpotHost (e : List Byte) : Nat := leAt e 40 8
def entSpot (e : List Byte) : Nat := leAt e 48 8
/-- A source that arrives in KX blocks (R153). -/
def entBlocks (e : List Byte) : Bool := decide (3 ≤ entSrc e)
/-- Column tiles T and row chunks L (R157). -/
def entTiles (e : List Byte) : Nat := (entCols e + 255) / 256
def entChunks (e : List Byte) : Nat := (entRows e + 16383) / 16384
/-- The places of an entry's bins, counted from FIRST_BIN (R157). -/
def entPlaces (e : List Byte) : List Nat :=
  let t := entTiles e
  if entSplit e then List.range ((t + 1) / 2)
  else match entChunks e with
    | 3 => (List.range (4 * t)).filter fun n => decide (n % 4 < 3)
    | l => List.range (t * l)
/-- The bins of the module that an entry names. -/
def entBins (e : List Byte) : List Nat := (entPlaces e).map fun n => 480 * entCore e + entFirst e + n
/-- What a bin holds: column tiles, each with its row chunk and the block of the bin at which it begins (R157). -/
def entPieces (e : List Byte) (g : Nat) : List (Nat × Nat × Nat) :=
  let n := g - (480 * entCore e + entFirst e)
  if entSplit e then
    (2 * n, 0, 0) :: (if 2 * n + 1 < entTiles e then [(2 * n + 1, 0, 256)] else [])
  else match entChunks e with
    | 3 => [(n / 4, n % 4, 0)]
    | l => [(n / l, n % l, 0)]
/-- Place in its chain of a bin (R157). -/
def entChainPos (e : List Byte) (g : Nat) : Nat :=
  match entPieces e g with
  | (_, k, _) :: _ => k
  | [] => 0

def grpMax (g : List Byte) : Nat := leAt g 0 1
def grpSupplied (g : List Byte) : Bool := bitOf (leAt g 2 1) 0
def grpSamples (g : List Byte) : Bool := bitOf (leAt g 2 1) 1
def grpChannels (g : List Byte) : Nat := leAt g 4 4
def grpCount (g : List Byte) : Nat := leAt g 8 4
def grpAddr (g : List Byte) : Nat := leAt g 16 8
/-- The bytes of a group's list or sample block (R155). -/
def grpBytes (g : List Byte) : Nat :=
  if grpSupplied g then 2 * grpMax g else if grpSamples g then 2 * (grpCount g * grpChannels g) else 0

/-! ## The checks (R156, R158, R161, R177) -/

/-- The descriptor's own error: 0 for none. The order of the checks is a DESIGN CHOICE, log entry 42. -/
def descError (d : List Byte) : Nat :=
  let lim := descTighten d && (decide (leAt d 14 2 < 10) || decide (200 < leAt d 14 2) || decide (leAt d 16 1 < 1) ||
    decide (50 < leAt d 16 1) || decide (leAt d 17 1 < 1) || decide (30 < leAt d 17 1))
  if crc32c (bytesAt d 0 60) ≠ leAt d 60 4 then 2
  else if leAt d 0 4 ≠ 0x4E49584B ∨ leAt d 4 2 ≠ 1 then 3
  else if lim then 4
  else if 15 < descPart d ∨ 1 < leAt d 7 1 ∨ descEntries d < 1 ∨ 122880 < descEntries d ∨ descGroups d < 1 ∨
      leAt d 13 1 ≠ 0 ∨ leAt d 18 2 ≠ 0 ∨ leAt d 52 8 ≠ 0 ∨ leAt d 24 8 = 0 ∨ leAt d 32 8 = 0 then 5
  else 0

/-- A field of an entry out of range (R152, R153, R157). -/
def entFieldBad (groups : List (List Byte)) (e : List Byte) : Bool :=
  let g := groups.getD (entGroup e) []
  decide (4095 < leAt e 0 2) || decide (5 < entSrc e) || decide (2 < entDst e) || decide (groups.length ≤ entGroup e) ||
    decide (3 < leAt e 5 1) || decide (255 < entCore e) || decide (entRows e < 1) || decide (65536 < entRows e) ||
    decide (entCols e < 1) || decide (479 < entFirst e) || leAt e 18 2 != 0 || leAt e 56 8 != 0 ||
    (entBlocks e && entDst e != entSrc e - 3) || (entSplit e && decide (8192 < entRows e)) ||
    grpChannels g != entRows e || entAddr e == 0 || leAt e 32 8 == 0
/-- A field of a group out of range (R155). -/
def grpFieldBad (g : List Byte) : Bool :=
  decide (64 < grpMax g) || decide (leAt g 1 1 < 2) || decide (3 < leAt g 2 1) || leAt g 3 1 != 0 ||
    (if grpSamples g then decide (grpCount g < 256) || decide (4096 < grpCount g) else grpCount g != 0) ||
    ((grpSupplied g || grpSamples g) && grpAddr g == 0)
/-- Group fields that do not agree (R156). -/
def grpFlagsBad (g : List Byte) : Bool :=
  (grpSupplied g && grpSamples g) || (!grpSupplied g && !grpSamples g && decide (0 < grpMax g))

/-- A list of numbers holds one twice. -/
def hasTwice : List Nat → Bool
  | [] => false
  | x :: xs => xs.contains x || hasTwice xs

/-- A placement rule broken by an entry (R158). A bin belongs to a partition when it is installed for it or a loaded image
names it for it (DEDUCED, log entry 42). -/
def State.placementBad (s : State) (part : Nat) (e : List Byte) : Bool :=
  let first := entFirst e
  let l := entChunks e
  let span := if !entSplit e && l == 3 then 4 * entTiles e else (entPlaces e).length
  let a := entSpot e
  decide (480 < first + span) || (!entSplit e && l == 2 && first % 2 != 0) ||
    (!entSplit e && decide (3 ≤ l) && first % 4 != 0) ||
    (entBins e).any (fun g =>
      ((s.binRec g).state != .uninstalled && (s.binRec g).part != part) ||
      (match s.named g with
        | none => false
        | some q => q != part)) ||
    addrReserved a || addrModule a != s.module || addrSpace a != 0 ||
    decide (pantrySize < a % pantrySize + 128 * entCols e) || !s.bound (addrCore a) || s.partOf (addrCore a) != part
/-- A pre-quantised entry whose list is not empty and whose SPOT_HOST is 0 (R158). -/
def spotHostBad (lists : List (List Nat)) (e : List Byte) : Bool :=
  entBlocks e && !(lists.getD (entGroup e) []).isEmpty && entSpotHost e == 0

/-! ## Spotlight lists (R160) -/

/-- The BF16 codes of a sample block, sample by sample. -/
def sampleRows (g : List Byte) (bs : List Byte) : List (List Nat) :=
  (rowsOf (2 * grpChannels g) (grpCount g) bs).map fun r =>
    (List.range (grpChannels g)).map fun c => leAt r (2 * c) 2
/-- A BF16 code that is NaN or an infinity. -/
def bf16Bad (v : Nat) : Bool := decide (0x7F80 ≤ v % 2 ^ 15)
/-- The list of a group from its samples: m_c is kept as the BF16 code of a magnitude, whose order is that of the values. -/
def selectList (g : List Byte) (rows : List (List Nat)) : List Nat :=
  let m := rows.foldl (fun (a : List Nat) r => List.zipWith (fun x y => max x (y % 2 ^ 15)) a r)
    (List.replicate (grpChannels g) 0)
  let mid := (sortByKey (fun v => v) m).getD ((m.length - 1) / 2) 0
  let bar := (FVal.ofInt (leAt g 1 1)).mul (fmtBf16.decode mid)
  let cands := m.zipIdx.filter fun p => bar.lt (fmtBf16.decode p.1)
  let best := (sortByKey (fun (p : Nat × Nat) => (2 ^ 15 - p.1) * 2 ^ 17 + p.2) cands).take (grpMax g)
  sortByKey (fun v => v) (best.map fun p => p.2)
/-- A supplied list. -/
def suppliedList (g bs : List Byte) : List Nat := (List.range (grpMax g)).map fun k => leAt bs (2 * k) 2
def ascending : List Nat → Bool
  | [] => true
  | [_] => true
  | a :: b :: l => decide (a < b) && ascending (b :: l)

/-- A group judged with its data: its list, or the error GROUP (R156, R160, R161). -/
def groupList (g bs : List Byte) : Option (List Nat) :=
  if grpFlagsBad g then none
  else if 0 < grpBytes g ∧ crc32c bs ≠ leAt g 12 4 then none
  else if grpSupplied g then
    let l := suppliedList g bs
    if ascending l && l.all fun c => decide (c < grpChannels g) then some l else none
  else if grpSamples g then
    let rows := sampleRows g bs
    if rows.any fun r => r.any bf16Bad then none else some (selectList g rows)
  else some []

/-- The stream judged from what the host returned: the install, or the error of R177 that refuses it. -/
def State.judgeInstall (s : State) (mem : List (Nat × List Byte)) : Install ⊕ Nat :=
  match memRange mem (s.rd Reg.CEL_INST_DESC).toNat 64 with
  | none => .inr 1
  | some d =>
    if descError d ≠ 0 then .inr (descError d)
    else match memRange mem (leAt d 24 8) (64 * descEntries d), memRange mem (leAt d 32 8) (32 * descGroups d) with
      | some es, some gs =>
        let entries := rowsOf 64 (descEntries d) es
        let groups := rowsOf 32 (descGroups d) gs
        if crc32c es ≠ leAt d 20 4 ∨ crc32c gs ≠ leAt d 48 4 then .inr 2
        else if groups.any grpFieldBad ∨ entries.any (entFieldBad groups) then .inr 5
        else if entries.any (s.placementBad (descPart d)) ∨ hasTwice (entries.flatMap entBins) then .inr 6
        else if groups.any grpFlagsBad then .inr 7
        else
          let data := groups.map fun g => memRange mem (grpAddr g) (grpBytes g)
          if data.any Option.isNone then .inr 1
          else
            let data := data.map fun b => b.getD []
            let lists := List.zipWith groupList groups data
            let final := lists.map fun l => l.getD []
            if lists.any Option.isNone then .inr 7
            else if entries.any (spotHostBad final) then .inr 6
            else .inl {
              desc := d
              groups := groups
              lists := final
              samples := List.zipWith (fun g b => if grpSamples g then b else []) groups data
              entries := entries.map fun e => ⟨e, none, 0, 0, []⟩
              bins := entries.zipIdx.flatMap fun p => (entBins p.1).map fun g => ⟨g, p.2, 0, 0, 0, 0⟩
              scales := []
              spots := [] }
      | _, _ => .inr 1

/-! ## The install's state (R176, R178) -/

def instCheck : Nat := 1
def instFirst : Nat := 2
def instSettle : Nat := 3
def instFinish : Nat := 4
def instDone : Nat := 5
def instFailed : Nat := 6
def instAborted : Nat := 7
def instTouch : Nat := 8
def State.instState (s : State) : Nat := s.fld Reg.CEL_INST_STAT Fl.CEL_INST_STAT_STATE
def State.setInst (s : State) (x err : Nat) : State :=
  (s.setFld Reg.CEL_INST_STAT Fl.CEL_INST_STAT_STATE x).setFld Reg.CEL_INST_STAT Fl.CEL_INST_STAT_ERROR err
/-- An install runs: STATE is 1 to 4 or 8. -/
def State.installing (s : State) : Bool := s.instState != 0 && s.instState != 5 && s.instState != 6 && s.instState != 7

/-- The entry in first pass or touch-up: the lowest where the dies work on several (DESIGN CHOICE, log entry 42). -/
def Install.entryNow (k : Install) : Nat :=
  match sortByKey (fun v => v) ((k.bins.filter fun b => b.phase == 1 || b.phase == 4).map fun b => b.entry) with
  | [] => 0xFFFFFFFF
  | e :: _ => e
/-- The state code of R178, by the first row that holds. -/
def Install.code (k : Install) : Nat :=
  if k.bins.any fun b => decide (b.phase ≤ 1) then instFirst
  else if k.bins.any fun b => b.phase == 3 || b.phase == 4 then instTouch
  else if k.bins.any fun b => b.phase == 2 then instSettle
  else instFinish
/-- The bins of an install with those that `p` selects changed. -/
def Install.mapBins (k : Install) (p : InstBin → Bool) (f : InstBin → InstBin) : Install :=
  { k with bins := k.bins.map fun b => if p b then f b else b }
def Install.entry (k : Install) (n : Nat) : InstEntry := k.entries.getD n ⟨[], some 8, 0, 0, []⟩
def Install.setEntry (k : Install) (n : Nat) (e : InstEntry) : Install := { k with entries := k.entries.set n e }
def Install.part (k : Install) : Nat := descPart k.desc

/-- CEL.INST_STAT, INST_ENTRY and HV brought up to date with the install. -/
def State.instSync (s : State) : State :=
  match s.inst with
  | none => s.hvSync
  | some k =>
    ((s.setFld Reg.CEL_INST_STAT Fl.CEL_INST_STAT_STATE k.code).setFld Reg.CEL_INST_ENTRY Fl.CEL_INST_ENTRY_ENTRY
      k.entryNow).hvSync

/-! ## Results and the end (R151, R172 to R174) -/

/-- The result record of an entry (R173). Counts too large for their fields hold at the greatest value (DESIGN CHOICE, log entry
78). -/
def Install.result (k : Install) (n status : Nat) : List Byte :=
  let e := k.entry n
  let bs := k.bins.filter fun b => b.entry == n
  let of := fun (x : Nat) => min 65535 (bs.filter fun b => b.phase == 5 && b.outcome == x).length
  let maxE := bs.foldl (fun a b => if b.phase == 5 then max a b.err else a) 0
  leBytes 1 status ++ [0] ++ leBytes 2 bs.length ++ leBytes 2 (of 0) ++ leBytes 2 (of 1) ++ leBytes 2 (of 2) ++
    leBytes 2 (of 3) ++ leBytes 4 (min e.clipped (2 ^ 32 - 1)) ++ leBytes 1 ((k.lists.getD (entGroup e.raw) []).length) ++
    [0] ++ leBytes 2 (min e.retries 65535) ++ leBytes 2 maxE ++ leBytes 10 0
/-- A write to host memory, none at address 0 (R149). -/
def State.hostPut (s : State) (a : Nat) (bs : List Byte) : State := if a = 0 then s else s.emit (.hostWrite a bs)
/-- An entry's result written, and the status kept. -/
def State.putResult (s : State) (k : Install) (n status : Nat) : State :=
  let base := leAt k.desc 40 8
  let s := if base = 0 then s else s.emit (.hostWrite (base + 32 * n) (k.result n status))
  { s with inst := some (k.setEntry n { k.entry n with status := some status }) }

/-- An entry ends with one of the statuses 3 to 8: its bins are UNINSTALLED but for those OFFLINE by R167 (R172). A bin whose
refresh is still active returns to service when that ends (DESIGN CHOICE, log entry 78). -/
def State.entryFail (s : State) (n status : Nat) : State :=
  match s.inst with
  | none => s
  | some k =>
    if (k.entry n).status.isSome then s
    else
      let mine := k.bins.filter fun b => b.entry == n
      let s := mine.foldl (fun (s : State) b =>
        if b.phase == 5 && decide (2 ≤ b.outcome) then s else s.setBinState b.bin .uninstalled) s
      let s := s.putResult k n status
      match s.inst with
      | none => s
      | some k => { s with inst := some (k.mapBins (fun b => b.entry == n && b.phase != 5) fun b =>
          { b with phase := 5, outcome := 4 }) }

/-- The installation thresholds recorded and committed by an install with TIGHTEN (R151). -/
def State.tighten (s : State) (k : Install) : State :=
  if descTighten k.desc then
    let p := k.part
    let l := (leAt k.desc 14 2, leAt k.desc 16 1, leAt k.desc 17 1)
    let s := s.recordThresholds p l
    let v := leAt k.desc 14 4
    ((s.wrShadow (Reg.CEL_CHK_LIMITS p) (BitVec.ofNat 64 v))).commitChk p
  else s

/-- The install is DONE once every entry has ended (R177). -/
def State.instEnd (s : State) : State :=
  match s.inst with
  | none => s
  | some k =>
    if k.entries.all fun e => e.status.isSome then
      let s := { s.tighten k with inst := none }
      (((s.setInst instDone 0).setFld Reg.CEL_INST_ENTRY Fl.CEL_INST_ENTRY_ENTRY 0xFFFFFFFF).hvSync).runRefreshes
    else s.instSync

/-- The install stops: unfinished entries end ABORTED (R175). -/
def State.instStop (s : State) (x err : Nat) : State :=
  if !s.installing then s
  else
    let n := match s.inst with | none => 0 | some k => k.entries.length
    let s := (List.range n).foldl (fun (s : State) i => s.entryFail i 8) s
    let s := { s with inst := none }
    (((s.setInst x err).setFld Reg.CEL_INST_ENTRY Fl.CEL_INST_ENTRY_ENTRY 0xFFFFFFFF).hvSync).runRefreshes

/-- Both 72 V feeds are lost: the install ends and INST_STAT is IDLE (R175). -/
def State.instLost (s : State) : State := (s.instStop 0 0).setInst 0 0

/-! ## Bins begin their passes (R164, R165, R170) -/

/-- The bin of a die that begins next: one that waits for touch-up, else the next first pass (DESIGN CHOICE, log entry
42). -/
def Install.nextOn (k : Install) (die : Nat) : Option InstBin :=
  match k.bins.find? fun b => binDie b.bin == die && b.phase == 3 with
  | some b => some b
  | none => k.bins.find? fun b => binDie b.bin == die && b.phase == 0

/-- A die begins its next bin unless it installs or refreshes one or has no power: at a first pass the bin goes UNINSTALLED and
its wear count rises (R32, R164, R170). -/
def State.instNext (s : State) (die : Nat) : State :=
  match s.inst with
  | none => s
  | some k =>
    if s.installOn die || s.refreshOn die || !s.rackPower (3840 * die) then s
    else match k.nextOn die with
      | none => s
      | some b =>
        let s := { s with inst := some (k.mapBins (fun x => x.bin == b.bin) fun x => { x with phase := b.phase + 1 }) }
        if b.phase = 0 then (s.setBinState b.bin .uninstalled).wearUp b.bin else s
/-- Every die goes on: released refreshes first, between passes (R175). -/
def State.instKick (s : State) : State :=
  if s.inst.isNone then s.runRefreshes
  else ((List.range 32).foldl (fun (s : State) d => s.instNext d) s.runRefreshes).instSync

/-! ## GO and ABORT (R175, R176, R598) -/

def State.celRefused (s : State) : State := s.setFld Reg.CEL_INST_STAT Fl.CEL_INST_STAT_WRITE_REFUSED 1
/-- A GO that is accepted: the counters clear and the descriptor is fetched. -/
def State.instStart (s : State) : State :=
  let s := [Reg.CEL_INST_FIRST_DONE, Reg.CEL_INST_FINISHED, Reg.CEL_INST_MARGINAL, Reg.CEL_INST_FAILED,
    Reg.CEL_INST_CLIPPED, Reg.CEL_INST_RETRIES].foldl (fun (s : State) r => s.wr r 0) s
  let s := (s.setInst instCheck 0).setFld Reg.CEL_INST_ENTRY Fl.CEL_INST_ENTRY_ENTRY 0xFFFFFFFF
  { s with inst := none }.emit (.hostRead (s.rd Reg.CEL_INST_DESC).toNat 64)
/-- A write of CEL.INST_CTL; GO is refused while a load is in CHECK, POWER or WRITE (R393). -/
def State.writeInstCtl (s : State) (v : Word) : State :=
  let go := v.getLsbD 0
  let abort := v.getLsbD 1
  if v.toNat / 4 ≠ 0 ∨ (go && (!s.fwReady || s.loading)) then s.celRefused
  else
    let run := s.installing
    let s := if go then (if run then s.celRefused else s.instStart) else s
    if abort && run then s.instStop instAborted 9 else s

/-- INSTALL_CHECK_DONE (R158, R160, R608): `mem` is what the host returned for the tables, lists and samples. A stream that
is refused changes nothing; else lists are written, the install is measured, queued refreshes of its bins are dropped and
every die begins. -/
def execInstallCheckDone (mem : List (Nat × List Byte)) (s : State) : Out :=
  .next (if s.instState ≠ instCheck then s
    else match s.judgeInstall (s.hostMem mem) with
      | .inr e => s.setInst instFailed e
      | .inl k =>
        let put : State → List Byte × List Nat → State := fun s p =>
          s.hostPut (leAt p.1 24 8) ((p.2 ++ List.replicate (64 - p.2.length) 0xFFFF).flatMap (leBytes 2))
        let s := (k.groups.zip k.lists).foldl put s
        let s := s.extend 3 evInstall k.part
          (shake256 (k.desc ++ (k.entries.map fun e => e.raw).flatten ++ k.groups.flatten) 32)
        let q := s.refreshQ.filter fun a => !(k.bins.any fun b => b.bin == a.bin)
        State.instKick { s with inst := some k, refreshQ := q })

/-! ## First pass (R162 to R166) -/

/-- A block of the source: its codes and scale, and whether it was clipped; or the status that ends the entry. Rows past the
matrix take code 0 (R52). -/
def sourceBlock (e : List Byte) (mem : List (Nat × List Byte)) (d j k : Nat) : (Block32 × Bool) ⊕ Nat :=
  let base := entAddr e + j * leAt e 20 4
  if entBlocks e then
    match memRange mem (base + 17 * k) 17 with
    | none => .inr 7
    | some bs =>
      let b := decodeBlock bs
      if b.codes.any fun v => !codeOk (entDst e) v then .inr 4
      else if 0x7E < b.scale then .inr 5
      else .inl ({ b with codes := b.codes.zipIdx.map fun p => if 32 * k + p.2 < entRows e then p.1 else 0 }, false)
  else
    let sz := if entSrc e = 0 then 2 else 1
    let fmt := if entSrc e = 0 then fmtBf16 else if entSrc e = 1 then fmtE4m3 else fmtE5m2
    let n := min 32 (entRows e - 32 * k)
    match memRange mem (base + sz * 32 * k) (sz * n) with
    | none => .inr 7
    | some bs =>
      let vs := (List.range n).map fun i => fmt.decode (leAt bs (sz * i) sz)
      if vs.any fun v => !v.isFinite then .inr 6
      else
        let m := codeMag (entDst e)
        .inl (quantFinite (m - 1) (-(m : Int)) ((m : Int) - 1)
          (fun i => rndAt (entStoch e) d ((j * 2048 + k) * 32 + i)) (vs ++ List.replicate (32 - n) (.fin false 0 1)))

def zeroBlock : Block32 := ⟨0, List.replicate 32 0⟩
/-- The blocks that a bin takes in first pass, as (block, column, contents), in column order; code 0 with scale 0 pads
them (R52, R159). -/
def passBlocks (e : List Byte) (mem : List (Nat × List Byte)) (d g : Nat) : List (Nat × Nat × ((Block32 × Bool) ⊕ Nat)) :=
  let per := if entSplit e then 256 else 512
  let filled := entPieces e g
  let halves : List (Option (Nat × Nat × Nat) × Nat) :=
    if entSplit e then [(filled[0]?, 0), (filled[1]?, 256)] else [(filled[0]?, 0)]
  halves.flatMap fun h => (List.range 256).flatMap fun col => (List.range per).map fun b =>
    match h.1 with
    | none => (h.2 + b, col, .inl (zeroBlock, false))
    | some (tile, chunk, _) =>
      let j := tile * 256 + col
      let k := chunk * 512 + b
      (h.2 + b, col,
        if j < entCols e ∧ 32 * k < entRows e then sourceBlock e mem d j k else .inl (zeroBlock, false))

/-- Spotlight values of a bin's columns: for each channel of the list that the bin's rows hold, its BF16 code by place
(R163); none where the host did not answer. -/
def spotValues (e : List Byte) (list : List Nat) (mem : List (Nat × List Byte)) (g : Nat) : List (Nat × Option Nat) :=
  (entPieces e g).flatMap fun p => list.zipIdx.flatMap fun c =>
    if c.1 / 16384 ≠ p.2.1 then []
    else (List.range 256).flatMap fun col =>
      let j := p.1 * 256 + col
      if entCols e ≤ j then []
      else
        let place := c.2 * entCols e + j
        let base := entAddr e + j * leAt e 20 4
        let v := if entBlocks e then (memRange mem (entSpotHost e + 2 * place) 2).map leNat
          else if entSrc e = 0 then (memRange mem (base + 2 * c.1) 2).map leNat
          else (memRange mem (base + c.1) 1).map fun b =>
            (fmtBf16.convert true .even ((if entSrc e = 1 then fmtE4m3 else fmtE5m2).decode (leNat b))).code
        [(place, v)]

/-- A bin's cells programmed, and its scale labels kept for the finish. -/
def State.programBlock (s : State) (fmt g b col : Nat) (x : Block32) : State :=
  let s := x.codes.zipIdx.foldl (fun (s : State) p => s.setCell g (32 * b + p.2) col (levelOf fmt p.1)) s
  match s.inst with
  | none => s
  | some k =>
    let sc := swrite (fun _ => 0) k.scales (blockKey g b col) (BitVec.ofNat 8 x.scale)
    { s with inst := some { k with scales := sc } }

/-- The spotlight rows of an entry, in the layout of R163. -/
def Install.spotRows (k : Install) (n : Nat) : List Byte :=
  let e := (k.entry n).raw
  let len := (k.lists.getD (entGroup e) []).length * entCols e
  (List.range len).flatMap fun i =>
    leBytes 2 (((k.spots.find? fun p => p.1 == n && p.2.1 == i).map fun p => p.2.2).getD 0)

/-! ## The CRC stream (R154) -/

/-- Bytes of one output column in the stream, and of the whole stream, with spotlight rows for a non-empty list. -/
def colBytes (e : List Byte) : Nat :=
  if entBlocks e then 17 * ((entRows e + 31) / 32) else (if entSrc e = 0 then 2 else 1) * entRows e
def streamBytes (e : List Byte) (list : List Nat) : Nat :=
  entCols e * colBytes e + (if entBlocks e then 2 * (list.length * entCols e) else 0)
/-- `n` bytes of the stream from byte `lo`; none where the host did not answer. -/
def streamRange (e : List Byte) (mem : List (Nat × List Byte)) (lo n : Nat) : Option (List Byte) :=
  let len := colBytes e
  let hi := lo + n
  let cols := entCols e * len
  let j0 := lo / len
  let parts := (List.range (min hi cols / len + 1 - j0)).map fun i =>
    let j := j0 + i
    let a := max lo (j * len)
    let b := min (min hi cols) ((j + 1) * len)
    if b ≤ a then some [] else memRange mem (entAddr e + j * leAt e 20 4 + (a - j * len)) (b - a)
  let spot := if hi ≤ cols then some [] else memRange mem (entSpotHost e + (max lo cols - cols)) (hi - max lo cols)
  (parts ++ [spot]).foldl (fun a x => match a, x with
    | some p, some q => some (p ++ q)
    | _, _ => none) (some [])
/-- Whether a 64 KiB chunk of an entry passes its CRC; none where the host did not answer. -/
def chunkOk (e : List Byte) (list : List Nat) (mem : List (Nat × List Byte)) (chunk : Nat) : Option Bool :=
  let lo := 65536 * chunk
  match streamRange e mem lo (min 65536 (streamBytes e list - lo)), memRange mem (leAt e 32 8 + 4 * chunk) 4 with
  | some bs, some c => some (crc32c bs == leNat c)
  | _, _ => none
def chunkCount (e : List Byte) (list : List Nat) : Nat := (streamBytes e list + 65535) / 65536
/-- The chunks that hold bytes of the stream from `a` up to `b`. -/
def chunksIn (a b : Nat) : List Nat := if b ≤ a then [] else (List.range ((b - 1) / 65536 + 1)).filter fun k => decide (a / 65536 ≤ k)
/-- The chunks that hold data of a bin, and spotlight rows where the stream has any. -/
def binChunks (e : List Byte) (list : List Nat) (g : Nat) : List Nat :=
  let len := colBytes e
  let per := if entBlocks e then 17 * 512 else (if entSrc e = 0 then 2 else 1) * 16384
  ((entPieces e g).flatMap fun p => (List.range 256).flatMap fun i =>
    let j := p.1 * 256 + i
    if entCols e ≤ j then [] else chunksIn (j * len + min len (p.2.1 * per)) (j * len + min len ((p.2.1 + 1) * per)))
    ++ chunksIn (entCols e * len) (streamBytes e list) |>.eraseDups

/-- A chunk of an entry has failed its CRC (R154): it is fetched again up to three times; a fourth failure ends the entry
DATA_CRC. -/
def State.chunkFailed (s : State) (n chunk : Nat) : State :=
  match s.inst with
  | none => s
  | some k =>
    let e := k.entry n
    let t := sread (fun _ => 0) e.tries chunk + 1
    if e.status.isSome then s
    else if t ≤ 3 then
      let k := k.setEntry n { e with retries := e.retries + 1, tries := swrite (fun _ => 0) e.tries chunk t }
      ({ s with inst := some k }).bump Reg.CEL_INST_RETRIES Fl.CEL_INST_RETRIES_COUNT
    else s.entryFail n 3

/-- FIRST_PASS_DONE (R154, R164 to R166, R170): a bin's source data from `mem`, whole chunks with their CRCs, is programmed,
`erased` racks of it having been erased and reprogrammed; it begins to settle and the die begins its next bin. Chunks whose
CRC fails are fetched again, and the bin stays in its first pass. A die without power waits (R32). Source data that cannot be
programmed end the entry. -/
def execFirstPassDone (c : CoreId) (b : BinId) (erased : Fin 33) (mem : List (Nat × List Byte)) (s : State) : Out :=
  let g := c.val * 480 + b.val
  .next (match s.inst with
    | none => s
    | some k =>
      match k.bins.find? fun x => x.bin == g && x.phase == 1 && s.rackPower g with
      | none => s
      | some x =>
        let mem := s.hostMem mem
        let e := k.entry x.entry
        let blocks := passBlocks e.raw mem s.fresh g
        let spots := spotValues e.raw (k.lists.getD (entGroup e.raw) []) mem g
        let bad := blocks.findSome? fun q => match q.2.2 with
          | .inr st => some st
          | .inl _ => none
        let bad := bad.or (if spots.any fun q => q.2.isNone then some 7 else none)
        let list := k.lists.getD (entGroup e.raw) []
        let chunks := binChunks e.raw list g
        let checks := chunks.map fun n => chunkOk e.raw list mem n
        let bad := if checks.any Option.isNone then some 7 else bad
        let failed := chunks.filter fun n => chunkOk e.raw list mem n == some false
        if bad ≠ some 7 ∧ !failed.isEmpty then
          (failed.foldl (fun (s : State) n => s.chunkFailed x.entry n) s).instKick.instEnd
        else
        let s := s.drew
        let s := (List.range erased.val).foldl (fun (s : State) _ => s.wearUp g) s
        match bad with
        | some st => (s.entryFail x.entry st).instKick.instEnd
        | none =>
          let s := blocks.foldl (fun (s : State) q => match q.2.2 with
            | .inl v => s.programBlock (entDst e.raw) g q.1 q.2.1 v.1
            | .inr _ => s) s
          let clips := (blocks.filter fun q => match q.2.2 with
            | .inl v => v.2
            | .inr _ => false).length
          let s := (s.bump Reg.CEL_INST_CLIPPED Fl.CEL_INST_CLIPPED_COUNT clips).bump Reg.CEL_INST_FIRST_DONE
            Fl.CEL_INST_FIRST_DONE_COUNT
          match s.inst with
          | none => s
          | some k =>
            let k := k.setEntry x.entry { e with clipped := e.clipped + clips }
            let k := k.mapBins (fun y => y.bin == g) fun y => { y with phase := 2 }
            let k := { k with spots := k.spots ++ spots.map fun q => (x.entry, q.1, q.2.getD 0) }
            let last := !(k.bins.any fun y => y.entry == x.entry && decide (y.phase ≤ 1))
            let rows := k.spotRows x.entry
            let s := { s with inst := some k }
            let s := if last && !entBlocks e.raw && !rows.isEmpty then s.hostPut (entSpotHost e.raw) rows else s
            s.instKick)

/-- CHUNK_CRC_FAIL (R154): a chunk of an entry in first pass, with the memory that its fetch read, fails its CRC. -/
def execChunkCrcFail (n : Nat) (q : ChunkRead) (s : State) : Out :=
  .next (match s.inst with
    | none => s
    | some k =>
      let e := (k.entry n).raw
      let list := k.lists.getD (entGroup e) []
      if (k.entry n).status.isSome ∨ !(k.bins.any fun b => b.entry == n && b.phase == 1) ∨ chunkCount e list ≤ q.chunk ∨
          chunkOk e list q.mem q.chunk ≠ some false then s
      else (s.chunkFailed n q.chunk).instKick.instEnd)

/-- SETTLE_EXPIRE (R164): a bin's settle ends, and it waits for its touch-up, which begins when its die is free. -/
def execSettleExpire (c : CoreId) (b : BinId) (s : State) : Out :=
  let g := c.val * 480 + b.val
  .next (match s.inst with
    | none => s
    | some k =>
      if k.bins.any fun x => x.bin == g && x.phase == 2 then
        State.instKick { s with inst := some (k.mapBins (fun x => x.bin == g) fun x => { x with phase := 3 }) }
      else s)

/-! ## Touch-up and finish (R164 to R168, R172) -/

/-- The bin map entry of a bin (R122, R168). -/
def State.mapBin (s : State) (k : Install) (e : List Byte) (g : Nat) : State :=
  s.setBinRec g { s.binRec g with
    layer := leAt e 0 2 % 4096
    part := k.part
    format := entDst e
    split := entSplit e
    chainLen := if entSplit e then 0 else entChunks e - 1
    chainPos := entChainPos e g }
/-- A bin's labels as installation leaves them, its measurements those of draw `d`: scales, level sums, spans, trims, expected
sums and bin map (R122, R168). -/
def State.labelBin (s : State) (k : Install) (e : List Byte) (g d : Nat) : State :=
  let sums : List (Nat × Nat) := (List.range 512).flatMap fun b => (List.range 256).map fun col => (b, col)
  let put : State → Nat × Nat → State := fun s q =>
    let key := blockKey g q.1 q.2
    let level := (List.range 32).foldl (fun a i => a + s.cell g (32 * q.1 + i) q.2) 0
    { s with
      scales := swrite (fun _ => 0) s.scales key (sread (fun _ => 0) k.scales key)
      dsums := swrite (fun _ => 256) s.dsums key level }
  let s := (sums.foldl put s).mapBin k e g
  let tests : List (Nat × Nat × Nat × Nat) := (patternHalves (entSplit e)).flatMap fun h =>
    (List.range 4).map fun p => (h.1, h.2.1, h.2.2, p)
  let expect : State → (Nat × Nat × Nat × Nat) → State := fun s t =>
    let xs := patternBlocks g t.1 t.2.2.2 t.2.2.1
    (List.range 256).foldl (fun (s : State) col =>
      let v := (s.column 0 true g t.2.1 0 col xs).foldl (fun (a : Int) o => a + o.exact) 0
      { s with testSums := swrite (fun _ => 0) s.testSums (testKey g t.1 t.2.2.2 col) v }) s
  let s := tests.foldl expect s
  (((s.measureSpans d g).measureSums d g).rewriteLabels g fun w => w / 8192 / 32 == g).clearRefFaults g

/-- The half-width of the marginal window of a format, in 0.01 level (R167). -/
def marginal (fmt : Nat) : Nat := if fmt = 1 then 70 else if fmt = 2 then 140 else 35
/-- The outcome of R167 that the cells of a bin give: `devs` lists data cells that are off their targets, by row and column with
how far in 0.01 level, `refs` reference cells; those unlisted are on target. -/
def cellOutcome (fmt : Nat) (devs : List (Fin 16384 × Fin 256 × Nat)) (refs : List Nat) : Nat :=
  let off := devs.filter fun p => decide (15 < p.2.2)
  let perRack := fun (r : Nat) => ((off.filter fun p => p.1.val / 512 == r).map fun p => (p.1, p.2.1)).eraseDups.length
  if refs.any fun v => decide (15 < v) then 2
  else if off.isEmpty then 0
  else if (off.all fun p => decide (p.2.2 ≤ marginal fmt)) && (List.range 32).all fun r => decide (perRack r ≤ 64) then 1
  else 2

/-- The destination format of a bin that the install programs. -/
def State.instFormat (s : State) (g : Nat) : Nat :=
  match s.inst with
  | none => 0
  | some k => match k.bins.find? fun x => x.bin == g with
    | none => 0
    | some x => entDst (k.entry x.entry).raw

/-- A bin's touch-up ends with the class `cells` of its cells (R164, R167, R168): 0 VERIFIED, 1 MARGINAL, 2 FAILED. The first
run of the patterns may find e above TV_LIMIT in a bin whose cells passed; a bin that fails goes OFFLINE with its bin map
entry. What the patterns count is left out (DESIGN CHOICE, log entry 78). -/
def State.touchedUp (s : State) (g cells : Nat) : State :=
  match s.inst with
  | none => s
  | some k =>
    match k.bins.find? fun x => x.bin == g && x.phase == 4 with
    | none => s
    | some x =>
      let e := (k.entry x.entry).raw
      let d := s.fresh
      let s := s.drew.drew.drew
      let n := (((s.labelBin k e g d).fullSet (binCore g) g).2).getD 0
      let s := { s with fresh := s.fresh + 4 }
      let high := testHigh (entSplit e) n (s.fld (Reg.CEL_CHK_LIMITS k.part) Fl.CEL_CHK_LIMITS_TV_LIMIT)
      let outcome := if 2 ≤ cells then 2 else if high then 3 else cells
      let err := testError (entSplit e) n
      let s := s.bump Reg.CEL_INST_FINISHED Fl.CEL_INST_FINISHED_COUNT
      let s := if outcome = 1 then s.bump Reg.CEL_INST_MARGINAL Fl.CEL_INST_MARGINAL_COUNT else s
      let s := if 2 ≤ outcome then s.bump Reg.CEL_INST_FAILED Fl.CEL_INST_FAILED_COUNT else s
      let s := s.setBinRec g { s.binRec g with lastErr := err, tvRuns := min ((s.binRec g).tvRuns + 1) 65535 }
      let s := if 2 ≤ outcome then (s.mapBin k e g).offlineBin g else s
      let k := k.mapBins (fun y => y.bin == g) fun y => { y with phase := 5, outcome := outcome, err := err, draw := d }
      { s with inst := some k }

/-- One sample's input blocks, the group's list removed (R54). -/
def sampleBlocks (list : List Nat) (row : List Nat) : List Block32 :=
  let vs := row.zipIdx.map fun p => if list.contains p.2 then FVal.fin false 0 1 else fmtBf16.decode p.1
  (rowsOf 32 2048 vs).map fun b => (quantKa4 (fun _ => .even) b).1

/-- The envelope of a bin from the samples of its group, fired four lanes at a time (R133, R168). -/
def State.envelopeOf (s : State) (k : Install) (e : List Byte) (g d : Nat) : State :=
  let grp := k.groups.getD (entGroup e) []
  let list := k.lists.getD (entGroup e) []
  let rows := sampleRows grp (k.samples.getD (entGroup e) [])
  let xs := (rows.map (sampleBlocks list)).zipIdx
  (List.range 256).foldl (fun (s : State) col =>
    let stat := xs.foldl (fun (a : ColStat × Nat) x => (entPieces e g).foldl (fun (a : ColStat × Nat) p =>
      let n := if entSplit e then 256 else 512
      let half := if entSplit e then (if p.2.2 = 0 then 1 else 2) else 0
      let bs := (x.1.drop (p.2.1 * 512)).take n
      let os := if bs.all Block32.zero then [] else s.column (d + x.2 / 4) false g half (x.2 % 4) col bs
      if os.isEmpty then a else (a.1.take (qValue os), a.2 + 1)) a) ((statZero, 0) : ColStat × Nat)
    let env : Option Envelope := if stat.2 = 0 then none
      else some ⟨toFp32 stat.1.lo, toFp32 stat.1.hi, toFp32 (stat.1.sum.div (FVal.ofInt stat.2))⟩
    { s with envelopes := swrite (fun _ => none) s.envelopes (g * 256 + col) env }) s

/-- An entry whose bins are all past touch-up finishes once their region is in Run: its bins get their labels, checking begins
anew, those that passed go into service together with its spotlight rows, and its result is written (R32, R165, R168, R172). A
Pantry without power takes no rows (DEDUCED, log entry 42). -/
def State.finishEntry (s : State) (n : Nat) : State :=
  match s.inst with
  | none => s
  | some k =>
    let e := k.entry n
    let mine := k.bins.filter fun b => b.entry == n
    if e.status.isSome ∨ mine.any fun b => b.phase != 5 || !s.rackPower b.bin then s
    else
      let hasEnv := grpSamples (k.groups.getD (entGroup e.raw) [])
      let one : State → InstBin → State := fun s b =>
        let s := ((s.labelBin k e.raw b.bin b.draw).clearStats b.bin).setCheck b.bin checkZero
        let s := { s with envelopes := sclear s.envelopes (b.bin * 256) (b.bin * 256 + 256) }
        let s := if hasEnv then
            let t := s.envelopeOf k e.raw b.bin s.fresh
            { t with fresh := t.fresh + 1024 }
          else s
        if b.outcome ≤ 1 then s.setBinState b.bin .inService else s
      let s := mine.foldl one s
      let rows := k.spotRows n
      let a := entSpot e.raw
      let s := if rows.isEmpty ∨ 3 ≤ s.sleep (addrCore a) then s else s.store (addrCore a) (a % pantrySize) rows
      let status := if mine.any fun b => decide (2 ≤ b.outcome) then 2
        else if mine.any fun b => b.outcome == 1 then 1 else 0
      s.putResult k n status

/-- The finish step of every entry whose bins are all past touch-up, and the end of the install (R164, R177). -/
def State.finishDue (s : State) : State :=
  match s.inst with
  | none => s
  | some k => ((List.range k.entries.length).foldl (fun (s : State) n => s.finishEntry n) s).instEnd

/-- TOUCH_UP_DONE (R164, R167): `cells` is what the read of the cells found. The finish step of an entry begins with
the end of its last touch-up, and ends within 50 µs: in the next 250 ns that pass (DESIGN CHOICE, log entry 42). -/
def execTouchUpDone (c : CoreId) (b : BinId) (cells : CellRead) (s : State) : Out :=
  let g := c.val * 480 + b.val
  .next (if s.inst.isSome ∧ s.installOn (binDie g) ∧ s.rackPower g then
      ((s.touchedUp g (cellOutcome (s.instFormat g) cells.devs cells.refs)).instKick).instEnd
    else s)

/-- HV_FAULT (R175): the install ends FAILED with ERROR HV_FAULT. -/
def execHvFault (s : State) : Out := .next (s.instStop instFailed 8)

/-! ## Refreshes beside an install (R138 to R140, R175) -/

/-- REFRESH_COMPLETE (R138): the refresh of a bin ends, and its die goes on. -/
def execRefreshComplete (c : CoreId) (b : BinId) (s : State) : Out :=
  .next (s.refreshEnd c.val (c.val * 480 + b.val)).instKick

/-- REFRESH_QUEUE_CHECK (R139, R148): AUTO as it is now takes effect, and queued refreshes that may start do. -/
def execRefreshQueueCheck (s : State) : Out :=
  .next (State.runRefreshes { s with autoRefresh := s.fld Reg.CEL_REFRESH_CTL Fl.CEL_REFRESH_CTL_AUTO })

end Sys2Proof.Machine
end

