-- ==== Sys2Proof/Machine/Clock.lean ====
section
/-! DEFINITION. The passing of time on an empty queue (DESIGN CHOICE, log entry 2). -/

namespace Sys2Proof.Machine

/-- The eighths of its clock pulses that a core keeps, at the higher of its droop skipping and its region's (R484, R486,
R487). -/
def State.pace (s : State) (c : Nat) : Nat := [8, 7, 6, 4].getD (max (s.droopOf c) (s.skipRate (regionOf c))) 4
/-- 250 ns pass: the counters of R12's time table and R245 move on, for CYC in each core in Run, by the pulses that skipping
leaves. -/
def State.timePasses (s : State) : State :=
  { s with
    now := s.now + 1
    runTime := (List.range 256).foldl
      (fun m c => if s.sleep c = 0 then swrite (fun _ => 0) m c (sread (fun _ => 0) m c + s.pace c) else m) s.runTime }

/-- The install under way has an entry in its finish step. -/
def State.finishing (s : State) : Bool :=
  match s.inst with
  | none => false
  | some k => (List.range k.entries.length).any fun n =>
      (k.entry n).status.isNone && k.bins.all fun b => b.entry != n || b.phase == 5
/-- 250 ns pass with no command; finish steps that were begun end (R164). -/
def State.tick (s : State) : State :=
  let t := s.timePasses
  if t.finishing then t.settle t.finishDue else t

end Sys2Proof.Machine
end

