-- ==== Sys2Proof/Machine/Power.lean ====
section
/-! DEFINITION. Feeds, converters, regulators, shorts, the curtain sequence, Retain and Dark (R453 to R475, R628, R629). -/

namespace Sys2Proof.Machine

/-! ## LK domains (R39, R460) -/

/-- The registers and counters of a port at their reset values, as its LK domain comes up (R25, R452). -/
def State.portReset (s : State) (n : Nat) : State :=
  let lo := Reg.LNK_PORT_CTL n
  { s with regs := sclear s.regs lo (lo + 0x40), latches := sclear s.latches lo (lo + 0x40) }
/-- The LK domains follow PWR.LK_CTL while a feed is in use; the ports of one that goes off are DOWN, and those of one that
comes up are as after reset. -/
def State.lkFollow (s : State) : State :=
  let want := if s.feedAOk || s.feedBOk then s.fld Reg.PWR_LK_CTL Fl.PWR_LK_CTL_ON else 0
  (List.range 8).foldl (fun (s : State) n =>
    let on := want.testBit n
    if s.domainOn (16 + n) = on then s
    else
      let s := s.setDomain (16 + n) on
      if on then (List.range 4).foldl (fun (s : State) i => s.portReset (4 * n + i)) s
      else (List.range 4).foldl (fun (s : State) i => s.portDown (4 * n + i) 6) s) s
/-- PWR.STAT.WRITE_REFUSED and STG.REG_STAT.WRITE_REFUSED. -/
def State.pwrRefused (s : State) : State := s.setFld Reg.PWR_STAT Fl.PWR_STAT_WRITE_REFUSED 1
def State.stgRefused (s : State) (r : Nat) : State := s.setFld (Reg.STG_REG_STAT r) Fl.STG_REG_STAT_WRITE_REFUSED 1
/-- What waits for regions is looked at again: a load and a rebind (R387, R467). -/
def State.powerPoll (s : State) : State := s.loadPoll.rebindPoll

/-! ## Feeds (R455, R456, R628, R629) -/

def feedFld (b : Bool) : Fld := if b then Fl.PWR_STAT_FEED_B_OK else Fl.PWR_STAT_FEED_A_OK
/-- Both 72 V feeds are lost (R456, R586, R175, R499): every switch opens, and the domains fed from 72 V are off. -/
def State.feedsLost (s : State) : State :=
  let s := (s.setFld Reg.PWR_STAT Fl.PWR_STAT_FEED_A_OK 0).setFld Reg.PWR_STAT Fl.PWR_STAT_FEED_B_OK 0
  let s := s.setAlert Reg.PWR_STAT Fl.PWR_STAT_FEED_EVENT
  let s := (List.range 16).foldl (fun (s : State) r => s.logThrottle r 4 false 0) s
  let s := { s with power.legacyUp := 0 }.curtainStop
  let s := (List.range 16).foldl (fun (s : State) r => s.regionOff r) s
  let s := (s.setDomain 25 false).lkFollow
  let s := s.loadFeeds
  let s := match s.blk.rebind with
    | none => s
    | some _ => { s.setRebind rbFailed 0 0 with blk.rebind := none }
  let s := s.instLost.hvSync
  ((s.loseAll).logFault 0x49 .module none outUncovered 0).serve
/-- One feed is lost; the other carries the load, and with none left R456 applies. -/
def State.feedLost (s : State) (b : Bool) : State :=
  if !s.flag Reg.PWR_STAT (feedFld b) then s
  else
    let s := s.setFld Reg.PWR_STAT (feedFld b) 0
    if s.feedAOk || s.feedBOk then
      ((s.setAlert Reg.PWR_STAT Fl.PWR_STAT_FEED_EVENT).logFault 0x4A .module none outLogged (if b then 1 else 0)).recap
    else s.feedsLost

/-- FEED_LOSS (R455): feed A, or B where `b`, was out of range for 50 µs. -/
def execFeedLoss (b : Bool) (s : State) : Out := .next (s.settle (s.feedLost b))
/-- FEED_RETURN (R455, R471, R644): a connected feed stayed within range for 100 ms and is used again. -/
def execFeedReturn (b : Bool) (s : State) : Out :=
  .next (s.settle (if (if b then s.power.feedB else s.power.feedA) && !s.flag Reg.PWR_STAT (feedFld b) then
      let t := (s.setFld Reg.PWR_STAT (feedFld b) 1).lkFollow.hvSync.recap
      let t := if t.power.legacyUp = 3 then t.legacyGo else t
      t.powerPoll
    else s))
/-- BOTH_FEEDS_LOST (R456): the second feed is lost. -/
def execBothFeedsLost (s : State) : Out := .next (s.settle (if s.feedAOk || s.feedBOk then s.feedsLost else s))
/-- PRESENT_N_OPEN (R628): the connector of a feed is being withdrawn; a feed in use is lost at once. -/
def execPresentNOpen (b : Bool) (s : State) : Out :=
  let t := if b then { s with power.feedB := false } else { s with power.feedA := false }
  .next (s.settle (t.feedLost b))
/-- FEED_CONNECT (R629): a feed's connector is mated and the input capacitance charged. -/
def execFeedConnect (b : Bool) (s : State) : Out :=
  .next (if b then { s with power.feedB := true } else { s with power.feedA := true })

/-! ## Converters, regulators and shorts (R458 to R463) -/

/-- CONVERTER_FAIL (R459): a converter is isolated; its segment's FEED cap falls. -/
def execConverterFail (n : Fin 64) (s : State) : Out :=
  .next (if sread (fun _ => false) s.power.convBad n.val then s
    else
      let t := { s with power.convBad := swrite (fun _ => false) s.power.convBad n.val true }
      (t.setFld (Reg.STG_REG_STAT (n.val / 4)) Fl.STG_REG_STAT_REG_EVENT 1).recap)

/-- A bring-up that has begun fails (R467); placed cores make the region an uncovered loss (R564). -/
def State.upFailed (s : State) (r : Nat) : State := ((s.bringUpFail r).regionLost r).powerPoll
/-- A region forced down at once (R468): a bring-up fails; placed cores make it an uncovered loss (R564). -/
def State.forcedDown (s : State) (r : Nat) : State :=
  if s.stageOf r ≠ 0 then s.upFailed r
  else if s.inRun r then ((s.regionOff r).regionLost r).powerPoll
  else s
/-- A region with nine failed regulators or more is OUT (R462). -/
def State.regionOut (s : State) (r : Nat) : State :=
  let s := s.setFld (Reg.STG_REG_STAT r) Fl.STG_REG_STAT_OUT 1
  (s.forcedDown r).setFld (Reg.ARB_CAP r) Fl.ARB_CAP_REASON 5
/-- REGULATOR_FAIL (R461, R462, R499): a regulator is disconnected; during inrush it is only counted. -/
def execRegulatorFail (r : RegionId) (n : Fin 48) (s : State) : Out :=
  let bits := s.rd (Reg.STG_REG_FAIL r.val)
  .next (if bits.toNat.testBit n.val then s
    else
      let t := s.wr (Reg.STG_REG_FAIL r.val) (bits ||| BitVec.ofNat 64 (2 ^ n.val))
      let f := t.fld (Reg.STG_REG_STAT r.val) Fl.STG_REG_STAT_FAILED + 1
      let t := (t.setFld (Reg.STG_REG_STAT r.val) Fl.STG_REG_STAT_FAILED f).setFld (Reg.STG_REG_STAT r.val)
        Fl.STG_REG_STAT_REG_EVENT 1
      let t := if 5 ≤ f then t.setFld (Reg.STG_REG_STAT r.val) Fl.STG_REG_STAT_CAPPED 1 else t
      if 9 ≤ f ∧ t.stageOf r.val ≠ 1 then s.settle (t.regionOut r.val) else t.recap)
/-- SEGMENT_TRIP (R463): the segment is isolated and SHORT sets; a second trip within 1 s of a permitted attempt keeps
SHORT until module reset. -/
def execSegmentTrip (r : RegionId) (s : State) : Out :=
  .next (if s.inRun r.val ∨ s.stageOf r.val ≠ 0 then
      let again := match sread (fun _ => none) s.power.shortTry r.val with
        | none => false
        | some t => decide (s.now - t ≤ 4000000)
      let t := s.setFld (Reg.STG_REG_STAT r.val) Fl.STG_REG_STAT_SHORT 1
      let t := { t with power.shortTry := swrite (fun _ => none) t.power.shortTry r.val none }
      let t := if again then { t with power.shortBar := swrite (fun _ => false) t.power.shortBar r.val true } else t
      s.settle (t.forcedDown r.val)
    else s)
/-- A write of STG.SHORT_CLR (R463): SHORT clears and one attempt is permitted. -/
def State.writeShortClr (s : State) (r : Nat) (v : Word) : State :=
  if 2 ≤ v.toNat ∨ sread (fun _ => false) s.power.shortBar r then s.stgRefused r
  else if v.toNat = 0 ∨ !s.flag (Reg.STG_REG_STAT r) Fl.STG_REG_STAT_SHORT then s
  else
    let s := s.setFld (Reg.STG_REG_STAT r) Fl.STG_REG_STAT_SHORT 0
    { s with power.shortMay := swrite (fun _ => false) s.power.shortMay r true }

/-! ## PWR.CURTAIN_CTL (R465, R468, R471, R475, R499, R598) -/

/-- A region holds a core bound to a loaded partition. -/
def State.regionBound (s : State) (r : Nat) : Bool := (coresOf r).any fun c => s.bound c
/-- The regions of a mask in reverse curtain order (R464). -/
def State.reverseOrder (s : State) (m : Nat) : List Nat :=
  let order := (s.rd Reg.PWR_CURTAIN_ORDER).toNat
  ((List.range 16).map fun k => bitsOf order (4 * (15 - k)) 4).filter fun r => m.testBit r
/-- A write of PWR.CURTAIN_CTL. DOWN has no effect on a region in Dark, one that waits to come up among them (R499). -/
def State.writeCurtainCtl (s : State) (v : Word) : State :=
  let up := bitsOf v.toNat 0 16
  let down := bitsOf v.toNat 16 16
  if !s.fwReady ∨ up &&& down ≠ 0 ∨ (maskList 16 down).any s.regionBound ∨
      (s.legacy && s.power.legacyUp != 2 && down != 0) then s.pwrRefused
  else
    let new := (s.reverseOrder down).filter fun r =>
      (s.inRun r || s.stageOf r != 0) && !s.power.curtainDowns.any fun l => l.contains r
    let s := { s with power.curtainDowns := s.power.curtainDowns ++ if new.isEmpty then [] else [new] }
    if up = 0 then s else s.askRegions (maskList 16 up)
/-- REGION_SWITCH_OPEN (R464, R468): a region that was asked down, the first in Run of those asked together, goes Dark once none
of its evaluations is in flight. -/
def execRegionSwitchOpen (r : RegionId) (s : State) : Out :=
  .next (if (s.power.curtainDowns.any fun l => l.find? s.inRun == some r.val) ∧ !((coresOf r.val).any s.evalInFlight) then
      s.settle (s.regionOff r.val).powerPoll
    else s)

/-! ## Bring-up (R466, R467, R469, R470) -/

/-- INRUSH_SLOT_GRANT (R469): no other region is in inrush and every neighbour's load is below the threshold. -/
def execInrushSlotGrant (r : RegionId) (s : State) : Out :=
  .next (if !s.waitsSlot r.val then s
    else if s.slotBarred r.val then s.settle (s.upFailed r.val)
    else if ((List.range 16).any fun q => s.stageOf q == 1) || !(s.hotNeighbours r.val).isEmpty then s
    else s.slotGrant r.val)
/-- INRUSH_TIMEOUT (R470): the slot is granted anyway, and neighbours above the threshold skip 1 in 4. -/
def execInrushTimeout (r : RegionId) (s : State) : Out :=
  .next (if !s.waitsSlot r.val then s
    else if s.slotBarred r.val then s.settle (s.upFailed r.val)
    else
      let hot := s.hotNeighbours r.val
      (hot.foldl (fun (s : State) q => s.setSkip q skipInrush 2) s).slotGrant r.val)
/-- INRUSH_END (R466, R467): 40 µs after the slot; a self-test that records nine failed regulators ends the bring-up. -/
def execInrushEnd (r : RegionId) (s : State) : Out :=
  .next (if s.stageOf r.val ≠ 1 then s
    else
      let t := s.inrushOver
      if 9 ≤ t.fld (Reg.STG_REG_STAT r.val) Fl.STG_REG_STAT_FAILED then s.settle (t.regionOut r.val)
      else t.setStage r.val 2)
/-- REGION_RUN (R466): the region reaches Run, caps are worked out and the sequence moves on; refreshes and installs that waited
for its power go on. -/
def execRegionRun (r : RegionId) (s : State) : Out :=
  .next (s.settle (if s.stageOf r.val = 2 then (s.regionUp r.val).powerPoll.instKick else s))
/-- BRINGUP_TIMEOUT (R467): a region not in Run 10 ms after its slot is left Dark. -/
def execBringupTimeout (r : RegionId) (s : State) : Out :=
  .next (if s.stageOf r.val = 0 then s else s.settle (s.upFailed r.val))
/-- LEGACY_FEED_TIMEOUT (R644): both feeds were not in use within 10 ms, and a load that asks for the legacy curtain-up
fails. -/
def execLegacyFeedTimeout (s : State) : Out :=
  .next (if s.power.legacyUp = 3 ∧ s.loadState = ldPower then s.loadUndo 24 else s)

/-! ## Retain and Dark (R473, R475) -/

/-- A load or a rebind keeps cores out of Retain and regions out of Dark (R473). -/
def State.keptUp (s : State) : Bool := s.loading || s.rebindState == rbBusy
/-- RETAIN_ENTRY (R473): an idle core whose role permits it, or that is unbound, enters Retain; its claim goes. -/
def execRetainEntry (c : CoreId) (s : State) : Out :=
  .next (if s.sleep c.val = 0 ∧ s.coreIdle c.val ∧ !s.scrubbing c.val ∧ !s.keptUp ∧ !s.waking.contains c.val ∧
      (!s.bound c.val ∨ bitOf (s.bind c.val).sleep 2) then
      s.enter c.val fun s => (s.claimsGone c.val).setSleep c.val 3
    else s)
/-- A write of STG.WAKE (R473); in a core in Run it meets a sleep entry of the same cycle (R35). -/
def State.writeStgWake (s : State) (r : Nat) (v : Word) : State :=
  if 65536 ≤ v.toNat then s.stgRefused r
  else (maskList 16 v.toNat).foldl (fun (s : State) j => if s.sleep (16 * r + j) = 3 ∨ s.sleep (16 * r + j) = 0 then s.wake (16 * r + j) else s) s
/-- The sleep records of the images whose cores a region holds permit Dark (R375), or no core of it is bound and
UNBOUND_DARK is set (R475). -/
def State.darkAllowed (s : State) (r : Nat) : Bool :=
  if s.regionBound r then
    ((coresOf r).filter s.bound).all fun c => sread (fun _ => false) s.power.imgDark ((s.bind c).slot * 16 + r)
  else s.flag (Reg.STG_SLEEP_CFG r) Fl.STG_SLEEP_CFG_UNBOUND_DARK
/-- DARK_ENTRY (R475, R471): a region whose cores were all idle for DARK_IDLE goes Dark. -/
def execDarkEntry (r : RegionId) (s : State) : Out :=
  .next (if s.inRun r.val ∧ !s.keptUp ∧ !s.legacy ∧
      ((coresOf r.val).all fun c => s.sleep c == 3 || (s.coreIdle c && !s.scrubbing c)) ∧ s.darkAllowed r.val then
      s.regionOff r.val
    else s)

/-! ## PWR.LK_CTL (R460, R500) -/

/-- A write of PWR.LK_CTL. -/
def State.writeLkCtl (s : State) (v : Word) : State :=
  if 256 ≤ v.toNat then s.pwrRefused else (s.setFld Reg.PWR_LK_CTL Fl.PWR_LK_CTL_ON v.toNat).lkFollow

end Sys2Proof.Machine
end

