-- ==== Sys2Proof/Machine/Cooling.lean ====
section
/-! DEFINITION. Sensing and cooling: converter scans, telemetry samples, thermal limits, the tray link, flow stops and hardware
trips (R125 to R127, R498, R504 to R532); phase records and power slack (R483, R495 to R497). -/

namespace Sys2Proof.Machine

/-! ## Scans (R513 to R516) -/

/-- The standard scan list, as (channel, converter field, samples); the order of its first sixteen entries is a DESIGN
CHOICE, log entry 43. -/
def scanList : List (Nat × Nat × Nat) :=
  ((List.range 8).flatMap fun k => [(k, 0, 16), (8 + k, 1, 16)]) ++
    [(16, 2, 64), (18, 2, 64), (17, 0, 8), (19, 1, 8), (20, 0, 8), (21, 1, 8), (22, 0, 1)]
/-- CONV_GO of a region's stagehand, with the list written before it; ignored while a list runs. An entry that its converter
cannot read is skipped, and BAD_ENTRY sets as the list starts (DESIGN CHOICE, log entry 43). -/
def State.convGo (s : State) (r : Nat) : State :=
  if s.flag (Reg.CNV_STAT r) Fl.CNV_STAT_BUSY then s.setFld (Reg.CNV_STAT r) Fl.CNV_STAT_GO_IGNORED 1
  else
    let s := scanList.zipIdx.foldl (fun (s : State) e =>
      s.wr (Reg.CNV_LIST r e.2) (BitVec.ofNat 64 (e.1.1 + 32 * e.1.2.1 + 256 * e.1.2.2))) s
    let s := { s with power.scanAt := swrite (fun _ => 0) s.power.scanAt r s.now }
    let s := if (s.scanRun r).all scanOk then s else s.setFld (Reg.CNV_STAT r) Fl.CNV_STAT_BAD_ENTRY 1
    s.setFld (Reg.CNV_STAT r) Fl.CNV_STAT_BUSY 1
/-- Samples that the list takes of a channel. -/
def State.listCount (s : State) (r ch : Nat) : Nat :=
  (s.scanGood r).foldl (fun a e => if e.1 = ch then a + e.2.2 else a) 0
/-- SCAN_COMPLETE (R515): the list completes; `scan` gives sum, minimum and maximum of each channel's conversions. -/
def execScanComplete (r : RegionId) (scan : List (Nat × Nat × Nat)) (s : State) : Out :=
  let st := Reg.CNV_STAT r.val
  .next (if !s.flag st Fl.CNV_STAT_BUSY then s
    else
      let t := (List.range 32).foldl (fun (t : State) ch =>
        let n := s.listCount r.val ch
        let x := if n = 0 then (0, 0, 0) else scan.getD ch (0, 0, 0)
        let seq := s.fld (Reg.CNV_ACC_W3 r.val ch) Fl.CNV_ACC_W3_SEQ + 1
        let t := (t.setFld (Reg.CNV_ACC r.val ch) Fl.CNV_ACC_SUM x.1).setFld (Reg.CNV_ACC_W1 r.val ch) Fl.CNV_ACC_W1_COUNT n
        let t := t.setFld (Reg.CNV_ACC_W2 r.val ch) Fl.CNV_ACC_W2_MIN x.2.1
        (t.setFld (Reg.CNV_ACC_W2 r.val ch) Fl.CNV_ACC_W2_MAX x.2.2).setFld (Reg.CNV_ACC_W3 r.val ch) Fl.CNV_ACC_W3_SEQ seq)
        s
      (t.setFld st Fl.CNV_STAT_BUSY 0).setFld st Fl.CNV_STAT_SCAN_SEQ (s.fld st Fl.CNV_STAT_SCAN_SEQ + 1))

/-- A channel's mean in the published scan, times a unit. -/
def State.accMean (s : State) (r ch unit : Nat) : Nat :=
  s.fld (Reg.CNV_ACC r ch) Fl.CNV_ACC_SUM * unit / s.fld (Reg.CNV_ACC_W1 r ch) Fl.CNV_ACC_W1_COUNT

/-! ## Diodes (R509 to R512) -/

/-- Whether a diode is valid in the published scan, and its temperature in 0.01 °C, to the nearest. -/
def State.diodeOk (s : State) (r ch : Nat) : Bool :=
  s.fld (Reg.CNV_ACC_W2 r ch) Fl.CNV_ACC_W2_MIN != 0 && s.fld (Reg.CNV_ACC_W2 r ch) Fl.CNV_ACC_W2_MAX != 4095
def State.diodeTemp (s : State) (r ch : Nat) : Int :=
  let n := s.fld (Reg.CNV_ACC_W1 r ch) Fl.CNV_ACC_W1_COUNT
  if n = 0 then 0 else 2500 + divRound (100 * (s.fld (Reg.CNV_ACC r ch) Fl.CNV_ACC_SUM : Int) - 204800 * n) (16 * n)
/-- The valid readings of a spot. -/
def State.spotTemps (s : State) (r k : Nat) : List Int :=
  [k, 8 + k].filterMap fun ch => if s.diodeOk r ch then some (s.diodeTemp r ch) else none
def maxTemp : List Int → Option Int
  | [] => none
  | x :: xs => some (xs.foldl max x)
/-- The controlling temperature of half `h` of a region: of its western or its eastern die (R509, R511). -/
def State.dieTemp (s : State) (r h : Nat) : Option Int :=
  maxTemp ((List.range 4).flatMap fun k => s.spotTemps r (4 * h + k))
def State.regionTemp (s : State) (r : Nat) : Option Int := maxTemp ((List.range 8).flatMap fun k => s.spotTemps r k)
/-- A signed number in 16 bits, and back. -/
def signed16 (v : Int) : Nat := (clampInt (-32768) 32767 v % 65536).toNat
def State.sfld (s : State) (off : Nat) (f : Fld) : Int := intOf 16 (s.fld off f)

def pairZero : PairCount := ⟨0, 0, 0, 0, 0, false⟩
def State.pairCount (s : State) (r k : Nat) : PairCount := sread (fun _ => pairZero) s.power.pairCounts (r * 8 + k)
/-- One bit of a field. -/
def State.setBit (s : State) (off : Nat) (f : Fld) (k : Nat) (on : Bool) : State := s.setFld off ⟨f.lsb + k, 1⟩ (bnum on)
/-- A pair judged at a sample (R512); INVALID ends at a sample with both diodes valid (DEDUCED, log entry 43). -/
def State.judgePair (s : State) (r k : Nat) : State :=
  let a := s.diodeOk r k
  let b := s.diodeOk r (8 + k)
  let d := (s.diodeTemp r k - s.diodeTemp r (8 + k)).natAbs
  let ok := a && b
  let c := s.pairCount r k
  let up := fun (on : Bool) (n : Nat) => if on then n + 1 else 0
  let both := up (!a && !b) c.both
  let n : PairCount := ⟨up (ok && decide (500 < d)) c.above, up (ok && decide (d ≤ 400)) c.below,
    up (ok && decide (1500 < d)) c.far, up (!ok) c.one, both, decide (8 ≤ both)⟩
  let w := Reg.THM_REGION_W3 r
  let s := { s with power.pairCounts := swrite (fun _ => pairZero) s.power.pairCounts (r * 8 + k) n }
  let s := if n.above = 8 ∨ n.far = 8 then s.setFld Reg.THM_STAT Fl.THM_STAT_SENSOR_EVENT 1 else s
  let s := if n.above = 8 then s.setBit w Fl.THM_REGION_W3_DISAGREE k true
    else if n.below = 64 then s.setBit w Fl.THM_REGION_W3_DISAGREE k false else s
  let s := if n.far = 8 ∨ n.one = 8 ∨ n.both = 8 then s.setBit w Fl.THM_REGION_W3_SUSPECT k true else s
  if n.one = 8 ∨ n.both = 8 then s.setBit w Fl.THM_REGION_W3_INVALID k true
  else if ok then s.setBit w Fl.THM_REGION_W3_INVALID k false
  else s

/-! ## TEMP_TRIM (R125, R127) -/

/-- TEMP_TRIM of a cellar die from its controlling temperature; one outside 0 to 105 °C is an excursion, recorded once. -/
def State.trimDie (s : State) (die : Nat) (t : Int) : State :=
  let x := clampInt 0 10500 t - 2500
  let v := (2 ^ 40 : Int) + divRound (Config.trimC1 die * x) 100 + divRound (Config.trimC2 die * x * x) 10000
  let s := { s with
    tempTrim := swrite (fun _ => (2 ^ 40 : Int)) s.tempTrim die v
    trimTemp := swrite (fun _ => (2500 : Int)) s.trimTemp die t }
  if t < 0 ∨ 10500 < t then
    if s.tempOut.contains die then s
    else
      let g := 3840 * die
      State.logDrift { s with tempOut := s.tempOut ++ [die] } g (s.binRec g).part 4 0xFFFF 0 10
  else { s with tempOut := s.tempOut.filter fun d => d != die }

/-! ## Draw (R489, R498, R516) -/

/-- Segment volts in mV; segment, LK and spine currents in mA, and the draw of each in mW. -/
def State.segVolts (s : State) (r : Nat) : Nat := s.accMean r 17 2
def State.segPower (s : State) (r ch unit : Nat) : Nat := s.accMean r ch unit * s.segVolts r / 1000
def State.lkPower (s : State) (r : Nat) : Nat := s.segPower r 20 10
def State.drawOf (s : State) (r : Nat) : Nat := s.segPower r 16 50 - s.lkPower r - s.segPower r 21 10
/-- A region's reading taken into its history while it is in Run. -/
def State.takeRegion (s : State) (r : Nat) : State :=
  let s := { s with power.shares := swrite (fun _ => 0) s.power.shares r (s.lkPower r + s.segPower r 21 10) }
  let old := sread (fun _ => []) s.power.hist r
  let new := if s.inRun r then
      ((⟨s.sfld (Reg.THM_REGION r) Fl.THM_REGION_THETA, s.drawOf r, s.accMean r 18 250⟩ : RegionSample) :: old).take 1000
    else []
  { s with power.hist := swrite (fun _ => []) s.power.hist r new }
/-- PWR.TEL_d of every domain, and their sum. -/
def State.putTel (s : State) (x : Sample) : State :=
  let put := fun (s : State) (d mA mW : Nat) =>
    (s.setFld (Reg.PWR_TEL d) Fl.PWR_TEL_CURRENT (min 65535 (mA / 100))).setFld (Reg.PWR_TEL d) Fl.PWR_TEL_POWER
      (min 65535 (mW / 1000))
  let s := (List.range 16).foldl (fun (s : State) r =>
    put s r (s.accMean r 16 50 - s.accMean r 20 10 - s.accMean r 21 10) (s.drawOf r)) s
  let s := (List.range 8).foldl (fun (s : State) n =>
    put s (16 + n) (s.accMean (2 * n) 20 10 + s.accMean (2 * n + 1) 20 10) (s.lkPower (2 * n) + s.lkPower (2 * n + 1))) s
  (List.range 6).foldl (fun (s : State) i =>
    let p := x.domains.getD i (0, 0)
    put s (24 + i) (100 * p.1) (1000 * p.2)) s
def State.moduleDraw (s : State) : Nat := (List.range 30).foldl (fun a d => a + s.fld (Reg.PWR_TEL d) Fl.PWR_TEL_POWER) 0
/-- The mean of the latest `n` numbers. -/
def meanOf (n : Nat) (l : List Nat) : Nat := (l.take n).foldl (· + ·) 0 / (l.take n).length
def meanInt (l : List Int) : Int := if l.isEmpty then 0 else divRound (l.foldl (· + ·) 0) l.length

/-! ## The thermal limit and the forecast (R517 to R520) -/

/-- R_th of a region in K/W, as numerator and denominator; 0.080 until it is measured. -/
def State.rthOf (s : State) (r : Nat) : Int × Nat := sread (fun _ => ((8 : Int), 100)) s.power.rth r
def State.updateRth (s : State) (r : Nat) : State :=
  let h := sread (fun _ => []) s.power.hist r
  let draw : Nat := h.foldl (fun (a : Nat) (x : RegionSample) => a + x.draw) 0
  if h.length < 1000 ∨ draw < 100000 * 1000 then s
  else
    let rise : Int := h.foldl (fun (a : Int) (x : RegionSample) => a + x.theta) 0 - 1000 * meanInt s.power.inHist
    let q : Int × Nat := (10 * rise, draw)
    let s := { s with power.rth := swrite (fun _ => ((8 : Int), 100)) s.power.rth r q }
    s.setFld (Reg.THM_REGION_W1 r) Fl.THM_REGION_W1_RTH (clampInt 0 65535 (divRound (10000 * q.1) q.2)).toNat
/-- Watts, in mW, that a rise of `x` in 0.01 K allows; 1,000,000,000 where R_th is not above 0. -/
def wattsFor (q : Int × Nat) (x : Int) : Nat := if q.1 ≤ 0 then 1000000000 else (10 * x.toNat * q.2) / q.1.toNat
/-- TJ_LIMIT less the margin and the inlet, in 0.01 K (R518). -/
def State.headroom (s : State) (r : Nat) : Int :=
  let m := s.fld Reg.THM_LIMIT Fl.THM_LIMIT_MARGIN + (if s.fld (Reg.THM_REGION_W3 r) Fl.THM_REGION_W3_DISAGREE = 0 then 0 else 3)
  100 * (s.fld Reg.THM_LIMIT Fl.THM_LIMIT_TJ_LIMIT : Int) - 100 * m - s.sfld Reg.THM_COOLANT Fl.THM_COOLANT_INLET
/-- Passes in flight and passes that wait for admission over PIPE_MAX, at most 1, of an image's partitions (R519). -/
def State.loadShare (s : State) (slot : Nat) : Nat × Nat :=
  let ps := (List.range 16).filter fun p => match s.part p with | none => false | some q => q.slot == slot
  let busy := (s.passes.filter fun q => ps.contains q.part).length +
    (s.reqs.filter fun r => ps.contains r.part && s.waitsPass r).length
  let room := ps.foldl (fun a p => a + (match s.part p with | none => 0 | some q => q.pipeMax)) 0
  (min busy room, room)
/-- The predicted draw of a region in mW (R519). -/
def State.predicted (s : State) (r : Nat) : Nat :=
  let mean := meanOf 100 ((sread (fun _ => []) s.power.hist r).map fun x => x.draw)
  let declared := (List.range 16).foldl (fun a k =>
    match s.imgRegion k r with
    | none => a
    | some i =>
      let u := s.loadShare k
      a + 1000 * i.declared * u.1 / u.2) 0
  max mean (declared + s.phaseIn r + s.toWatts r (s.reservedIn r none))
/-- The coolant rise at a region that the forecast expects, in 0.01 K (R520). -/
def State.forecastRise (s : State) (r : Nat) : Nat :=
  let dark := ((List.range 16).filter fun q => !s.inRun q).foldl (fun a q => a + s.fld (Reg.PWR_TEL q) Fl.PWR_TEL_POWER) 0
  let all := s.runRegions.foldl (fun a q => a + s.predicted q) 0 + 1000 * (s.otherDraw + dark)
  let rise := all - 1000 * meanOf 1000 s.power.modHist
  let flow := match s.power.trayFlow with | none => 600 | some f => f
  s.fld (Reg.THM_REGION_W1 r) Fl.THM_REGION_W1_PHI * 100 * rise / (255 * (flow * s.fld Reg.THM_FCAST Fl.THM_FCAST_CP))
/-- The limit from cooling of a region, with its registers; the prediction is of a region in Run (R518 to R520). -/
def State.coolRegion (s : State) (r : Nat) : State :=
  let q := s.rthOf r
  let room := s.headroom r
  let steady := wattsFor q room
  let en := s.flag Reg.THM_FCAST Fl.THM_FCAST_EN
  let rise := s.forecastRise r
  let fcast := wattsFor q (room - rise)
  let pred := s.sfld Reg.THM_COOLANT Fl.THM_COOLANT_INLET + (q.1 * s.predicted r) / (10 * q.2 : Nat) + rise
  let suspect := s.fld (Reg.THM_REGION_W3 r) Fl.THM_REGION_W3_SUSPECT != 0
  let low := if en then min steady fcast else steady
  let slow := match s.power.trayFlow with
    | none => false
    | some f => decide (100 * f < 90 * s.power.flowSet)
  let lim := if suspect then (low * 9 / 10, 9) else (low, if slow then 2 else 1)
  let s := (s.setFld (Reg.THM_REGION_W2 r) Fl.THM_REGION_W2_STEADY_W (min 65535 (steady / 1000))).setFld (Reg.THM_REGION_W2 r)
    Fl.THM_REGION_W2_FCAST_W (if en then min 65535 (fcast / 1000) else 65535)
  let s := if en && s.inRun r then s.setFld (Reg.THM_REGION r) Fl.THM_REGION_PRED (signed16 pred) else s
  { s with power.thermal := swrite (fun _ => (0, 0)) s.power.thermal r lim }

/-! ## Flow stops (R521 to R526, R529) -/

def flowNormal : Nat := 0
def flowStopped : Nat := 1
def flowDarked : Nat := 2
def State.flowState (s : State) : Nat := s.fld Reg.THM_STAT Fl.THM_STAT_FLOW_STATE
def State.setFlow (s : State) (x : Nat) : State := s.setFld Reg.THM_STAT Fl.THM_STAT_FLOW_STATE x

/-- A context begins to park, its running request ending with the park, for reason FLOW or for the lower one that its pass was
already to park for (R344, R522, R529). -/
def State.flowPark (s : State) (x why : Nat) : State :=
  let rs := s.reqs.filter fun r => r.ctx == x && r.started && r.runsPasses && r.status.isNone
  let s := rs.foldl (fun (s : State) r => s.putReq { r with status := some cplParked, reason := why }) s
  if s.host.parkDue.any fun q => q.1 == x then s else { s with host.parkDue := s.host.parkDue ++ [(x, why)] }
/-- The reason for which a context parks at a flow stop. -/
def State.flowWhy (s : State) (x : Nat) : Nat :=
  match s.passOf x with
  | none => 5
  | some q =>
    match s.passEnd q with
    | .park n => min n 5
    | _ => 5
/-- Every pass of a partition not yet committed is discarded and its RESIDENT and ACTIVE contexts begin to park. -/
def State.flowPart (s : State) (p : Nat) : State :=
  let xs := (s.ctxs.filter fun e => e.2.part == p && (e.2.st == .resident || e.2.st == .active)).map fun e => e.1
  let why := xs.map fun x => (x, s.flowWhy x)
  why.foldl (fun (s : State) x => s.flowPark x.1 x.2) (s.abortPasses p)
/-- The members of a partition's set, the lead of which is another module, send FAULT to it (R522). -/
def State.flowTell (s : State) (p : Nat) : State :=
  match s.part p with
  | none => s
  | some q =>
    if q.lead = s.module then s
    else s.sendAway p nodeManager q.lead ((s.coresIn p).headD 0) 0 (.fault ((s.coresIn p).headD 0) 0x40)
/-- Whether a region has a core of a partition that spans a module whose flow has stopped. -/
def State.flowHeld (s : State) (r : Nat) : Bool :=
  (coresOf r).any fun c => s.bound c && s.blk.flowParts.contains (s.partOf c)
/-- The steps of R522 for one partition, whose flow has stopped at another member: its regions skip, its cores' rations fall,
its admission stops, its passes are discarded and its contexts park. -/
def State.flowMember (s : State) (p : Nat) : State :=
  if s.blk.flowParts.contains p then s
  else
    let s := { s with blk.flowParts := p :: s.blk.flowParts }
    let s := (s.runRegions.filter s.flowHeld).foldl (fun (s : State) r => s.setSkip r skipFlow 3) s
    s.flowPart p
/-- The steps of `flowMember` end. How a member learns that the flow of another is restored the spec does not say: a beat or its
answer tells it, at a free value (DESIGN CHOICE, log entry 81). -/
def State.flowMaybeOver (s : State) (p : Nat) : State :=
  if !s.blk.flowParts.contains p then s
  else if Config.flowOver s.fresh then
    let t := { s.drew with blk.flowParts := s.blk.flowParts.filter fun q => q != p }
    (t.runRegions.foldl (fun (t : State) r =>
      if t.flowState = flowNormal && !t.flowHeld r then (t.setSkip r skipFlow 0).arbitrate r else t) t).serve
  else s.drew
/-- The regions that a flow stop keeps from coming up: those asked for, and the one that waits for its slot (R467, R525). -/
def State.curtainDrop (s : State) : State :=
  let waits := if s.curtainBusy && s.flag Reg.PWR_CURTAIN_STAT Fl.PWR_CURTAIN_STAT_WAIT_SLOT then [s.currentUp] else []
  let rs := waits ++ s.power.curtainAsk.map fun q => q.1
  (rs.foldl (fun (s : State) r => s.upFail r) s).curtainStop
/-- A flow stop is detected (R521, R522, R526, R529). -/
def State.flowStop (s : State) : State :=
  if s.flowState ≠ flowNormal then s
  else
    let s := (s.setFlow flowStopped).setAlert Reg.THM_STAT Fl.THM_STAT_FLOW_EVENT
    let s := s.curtainDrop.powerPoll
    let s := s.runRegions.foldl (fun (s : State) r => s.setSkip r skipFlow 3) s
    let ps := (List.range 16).filter s.loaded
    let s := ps.foldl (fun (s : State) p => (s.flowPart p).flowTell p) s
    let s := (s.instStop instFailed 8).hvSync
    (s.logFault 0x40 .module none outLogged 0).serve

/-- FLOW_STOP (R521): FLOW_OK was deasserted for 100 µs. -/
def execFlowStop (s : State) : Out := .next (s.settle { s with power.flowPin := false }.flowStop)
/-- The conditions of R523 but for FLOW_OK. -/
def State.flowGood (s : State) : Bool :=
  (match s.power.trayFlow with
   | none => false
   | some f => decide (80 * s.power.flowSet ≤ 100 * f)) &&
    !s.flag Reg.THM_STAT Fl.THM_STAT_TRAY_SILENT && decide (s.sfld Reg.THM_FLOW Fl.THM_FLOW_OUTLET_RATE < 200)
/-- FLOW_RESTORE (R523): FLOW_OK has been asserted for RECOVER; with the tray's flow and the outlet rate good, FLOW_STATE
returns to NORMAL, skipping ends and admission resumes. -/
def execFlowRestore (s : State) : Out :=
  let t := { s with power.flowPin := true }
  .next (s.settle (if t.flowState ≠ flowNormal ∧ t.flowGood then
      let t := t.setFlow flowNormal
      let t := (List.range 16).foldl (fun (t : State) r =>
        (t.setSkip r skipFlow (if t.flowHeld r then t.skipOf r skipFlow else 0)).arbitrate r) t
      (t.runRefreshes.instKick).serve
    else t))
/-- The next region to go down (R464, R524); one that has gone down since is passed over. -/
def State.flowDarkNext (s : State) : State :=
  match s.power.flowDark.find? s.inRun with
  | none => { s with power.flowDark := [] }
  | some r => { s with power.flowDark := s.power.flowDark.filter fun q => q != r }.regionOff r
/-- STOP_DARK_EXPIRE (R524, R586): FLOW_STATE becomes DARKED, parks that have not completed are abandoned, and the first
of the regions in Run goes down. -/
def execStopDarkExpire (s : State) : Out :=
  .next (if s.flowState = flowStopped then
      let t := (s.setFlow flowDarked).loseAll
      s.settle (State.flowDarkNext { t with power.flowDark := (t.reverseOrder 0xFFFF).filter t.inRun }).serve
    else s)
/-- FLOW_DARK_STEP (R524, R529): the next region goes down, also when the flow has been restored since. -/
def execFlowDarkStep (s : State) : Out := .next s.flowDarkNext

/-! ## The tray link (R506 to R508) -/

/-- The link is silent: its entry sets TRAY_EVENT. -/
def State.traySilent (s : State) : State :=
  let s := { s with power.trayFlow := none }
  if s.flag Reg.THM_STAT Fl.THM_STAT_TRAY_SILENT then s
  else (s.setFld Reg.THM_STAT Fl.THM_STAT_TRAY_SILENT 1).setAlert Reg.THM_STAT Fl.THM_STAT_TRAY_EVENT
def State.frameBad (s : State) : State := s.bump Reg.THM_TRAY_STAT Fl.THM_TRAY_STAT_FRAMES_BAD
/-- TRAY_FRAME (R506, R508, R521): a frame is checked and used; a flow below STOP_PCT of SET is a flow stop. -/
def execTrayFrame (bytes : List Byte) (s : State) : Out :=
  .next (if bytes.length ≠ 12 ∨ leAt bytes 0 1 ≠ 0xA5 ∨ crc16 (bytesAt bytes 0 10) ≠ leAt bytes 10 2 then s.frameBad
    else
      let seq := leAt bytes 1 1
      let gap := match s.power.traySeq with | none => false | some n => seq != (n + 1) % 256
      let t := if gap then s.frameBad else s
      let t := (t.setFld Reg.THM_TRAY Fl.THM_TRAY_INLET (leAt bytes 2 2)).setFld Reg.THM_TRAY Fl.THM_TRAY_OUTLET
        (leAt bytes 4 2)
      let t := (t.setFld Reg.THM_TRAY_STAT Fl.THM_TRAY_STAT_LAST_SEQ seq).setFld Reg.THM_TRAY_STAT Fl.THM_TRAY_STAT_STATUS
        (leAt bytes 8 1)
      let t := { t with power.traySeq := some seq }
      if bitOf (leAt bytes 8 1) 0 then
        let flow := leAt bytes 6 2
        let t := { t with power.trayFlow := some flow }.setFld Reg.THM_STAT Fl.THM_STAT_TRAY_SILENT 0
        if 100 * flow < t.fld Reg.THM_FLOW_CFG Fl.THM_FLOW_CFG_STOP_PCT * t.power.flowSet then
          s.settle t.flowStop
        else t
      else t.traySilent)
/-- TRAY_SILENCE (R508): no valid frame for 50 ms. -/
def execTraySilence (s : State) : Out := .next s.traySilent

/-! ## Trips (R527, R528) and SUSPECT_CLR (R512) -/

def State.thmRefused (s : State) : State := s.setFld Reg.THM_STAT Fl.THM_STAT_WRITE_REFUSED 1
/-- HARDWARE_TRIP (R527, R529): a diode of the region read 115 °C for 10 µs. -/
def execHardwareTrip (r : RegionId) (s : State) : Out :=
  .next (if s.flag (Reg.THM_REGION_W3 r.val) Fl.THM_REGION_W3_TRIP then s
    else
      let t := s.setFld (Reg.THM_REGION_W3 r.val) Fl.THM_REGION_W3_TRIP 1
      let t := (t.setAlert Reg.THM_STAT Fl.THM_STAT_TRIP_EVENT).bump Reg.THM_TRIPS Fl.THM_TRIPS_COUNT
      s.settle (t.forcedDown r.val))
/-- A write of THM.TRIP_CLR: accepted for a region whose valid diodes all read below 95 °C in the latest sample. -/
def State.writeTripClr (s : State) (v : Word) : State :=
  if 65536 ≤ v.toNat then s.thmRefused
  else (maskList 16 v.toNat).foldl (fun (s : State) r =>
    if (sread (fun _ => none) s.power.hottest r).all fun (x : Int) => decide (x < 9500) then
      s.setFld (Reg.THM_REGION_W3 r) Fl.THM_REGION_W3_TRIP 0
    else s.thmRefused) s
/-- A write of THM.SUSPECT_CLR: accepted for a region whose pairs all agreed within 4 °C, all valid, in the latest
sample. -/
def State.writeSuspectClr (s : State) (v : Word) : State :=
  if 65536 ≤ v.toNat then s.thmRefused
  else (maskList 16 v.toNat).foldl (fun (s : State) r =>
    if (List.range 8).all fun k => decide (0 < (s.pairCount r k).below) then
      s.setFld (Reg.THM_REGION_W3 r) Fl.THM_REGION_W3_SUSPECT 0
    else s.thmRefused) s

/-! ## The telemetry sample (R498) -/

/-- What a sample reads of a region: spots, pairs, controlling temperature, trims and draw. A die none of whose diodes is
valid keeps its trim, and such a region its THETA (DESIGN CHOICE, log entry 43). -/
def State.senseRegion (s : State) (r : Nat) : State :=
  let s := (List.range 8).foldl (fun (s : State) k =>
    ((s.setFld (Reg.THM_SPOT r k) Fl.THM_SPOT_A (signed16 (s.diodeTemp r k))).setFld (Reg.THM_SPOT r k) Fl.THM_SPOT_B
      (signed16 (s.diodeTemp r (8 + k)))).judgePair r k) s
  let s := { s with power.hottest := swrite (fun _ => none) s.power.hottest r (s.regionTemp r) }
  let s := match s.regionTemp r with
    | none => s
    | some t => s.setFld (Reg.THM_REGION r) Fl.THM_REGION_THETA (signed16 t)
  let s := (List.range 2).foldl (fun (s : State) h =>
    match s.dieTemp r h with
    | none => s
    | some t => s.trimDie (2 * r + h) t) s
  s.takeRegion r
/-- Coolant readings published (R505, R507, R521): the rate needs 110 samples. -/
def State.senseCoolant (s : State) (x : Sample) : State :=
  let tray := s.sfld Reg.THM_TRAY Fl.THM_TRAY_INLET
  let inlet := if s.flag Reg.THM_STAT Fl.THM_STAT_TRAY_SILENT then x.inlet else max x.inlet tray
  let outs := (x.outlet :: s.power.outHist).take 110
  let rate : Int := if outs.length < 110 then 0
    else (outs.take 10).foldl (· + ·) 0 - (outs.drop 100).foldl (· + ·) 0
  let s := { s with power.outHist := outs, power.inHist := (inlet :: s.power.inHist).take 1000 }
  let s := (s.setFld Reg.THM_COOLANT Fl.THM_COOLANT_INLET (signed16 inlet)).setFld Reg.THM_COOLANT Fl.THM_COOLANT_OUTLET
    (signed16 x.outlet)
  let s := s.setFld Reg.THM_STAT Fl.THM_STAT_INLET_RANGE (bnum (decide (inlet < 2000) || decide (4000 < inlet)))
  (s.setFld Reg.THM_FLOW Fl.THM_FLOW_FLOW (s.power.trayFlow.getD 0xFFFF)).setFld Reg.THM_FLOW Fl.THM_FLOW_OUTLET_RATE
    (signed16 rate)
/-- The peak allowance (R490): it runs while demand is above SUSTAINED_W, at most 10 samples, and again once the mean draw of
100 samples has fallen to SUSTAINED_W. -/
def State.peakStep (s : State) : State :=
  let need := s.runRegions.foldl (fun a r => a + s.floorOf r + s.demandOf r) 0 + 1000 * s.otherDraw
  let want := decide (1000 * s.sustained < need)
  let mean := meanOf 100 s.power.modHist
  let set := fun (s : State) (n : Nat) (spent : Bool) =>
    { s with power.peakRun := n, power.peakSpent := spent }.setFld Reg.PWR_STAT Fl.PWR_STAT_PEAK (bnum (n != 0))
  if s.power.peakSpent then
    if mean ≤ s.sustained then (if want then set s 1 false else set s 0 false) else s
  else if !want then set s 0 false
  else if s.power.peakRun = 10 then set s 0 true
  else set s (s.power.peakRun + 1) false
/-- Phase records begin with the sample after their write, and end with the sample DURATION ms later (R483). -/
def State.phaseStep (s : State) : State :=
  let next := s.power.phases.filterMap fun e =>
    if !e.2.2.2 then some (e.1, (e.2.1, e.2.2.1, true))
    else if e.2.1 ≤ 1 then none else some (e.1, (e.2.1 - 1, e.2.2.1, true))
  { s with power.phases := next }
/-- A sample takes the budget, the host cap and the set flow as they are written (R500, R530). -/
def State.takeLimits (s : State) : State :=
  { s with
    power.sustainedNow := s.fld Reg.PWR_BUDGET Fl.PWR_BUDGET_SUSTAINED_W
    power.peakNow := s.fld Reg.PWR_BUDGET Fl.PWR_BUDGET_PEAK_W
    power.capNow := s.fld Reg.PWR_HOST_CAP Fl.PWR_HOST_CAP_CAP_W
    power.flowSet := s.fld Reg.THM_FLOW_CFG Fl.THM_FLOW_CFG_SET }
/-- The sample kept for a dump (R592). -/
def State.keepSample (s : State) : State :=
  let thetas := (List.range 16).flatMap fun r => leBytes 2 (s.fld (Reg.THM_REGION r) Fl.THM_REGION_THETA)
  let bs := leBytes 4 (s.word Reg.PWR_TEL_SEQ) ++ s.regBytes (Reg.PWR_TEL 0) 30 ++ leBytes 4 (s.word Reg.THM_COOLANT) ++
    leBytes 4 (s.word Reg.THM_FLOW) ++ thetas ++ leBytes 4 0
  { s with faults.telLog := (bs :: s.faults.telLog).take 256 }
/-- Input energy of a 1 ms sample in mJ: volts times amperes of the three feeds, in watts. -/
def inputEnergy (x : Sample) : Nat := (x.feedA.1 * x.feedA.2 + x.feedB.1 * x.feedB.2 + x.aux.1 * x.aux.2) / 1000

/-- TELEMETRY_SAMPLE (R125, R483, R489, R490, R498, R507, R512, R517 to R521): the firmware reads the published scans, judges
temperatures, limits and caps, and starts the next scans; without it nothing happens (R598). -/
def execTelemetrySample (x : Sample) (s : State) : Out :=
  .next (if !s.sec.ready then s
    else
      let t := ((s.takeLimits.phaseStep.setFld Reg.PWR_FEED_A Fl.PWR_FEED_A_VOLTS x.feedA.1).setFld Reg.PWR_FEED_A Fl.PWR_FEED_A_AMPS
        x.feedA.2).setFld Reg.PWR_FEED_B Fl.PWR_FEED_A_VOLTS x.feedB.1
      let t := (t.setFld Reg.PWR_FEED_B Fl.PWR_FEED_A_AMPS x.feedB.2).senseCoolant x
      let t := (List.range 16).foldl (fun (t : State) r => t.senseRegion r) t
      let t := (t.putTel x).count Reg.PWR_ENERGY (inputEnergy x)
      let t := { t with power.modHist := (t.moduleDraw :: t.power.modHist).take 1000 }
      let t := t.setFld Reg.PWR_TEL_SEQ Fl.PWR_TEL_SEQ_SEQ (t.fld Reg.PWR_TEL_SEQ Fl.PWR_TEL_SEQ_SEQ + 1)
      let t := t.runRegions.foldl (fun (t : State) r => t.updateRth r) t
      let t := (List.range 16).foldl (fun (t : State) r => t.coolRegion r) t
      let t := t.peakStep.recap.keepSample
      let t := (List.range 16).foldl (fun (t : State) r => t.convGo r) t
      let rate := t.sfld Reg.THM_FLOW Fl.THM_FLOW_OUTLET_RATE
      let t := if (10 * t.fld Reg.THM_FLOW_CFG Fl.THM_FLOW_CFG_RATE : Int) < rate then t.flowStop else t
      s.settle t.takeMirror)

/-! ## Phase records (R483) -/

/-- A write of PWR.PHASE. -/
def State.writePhase (s : State) (v : Word) : State :=
  let w := v.setWidth 64
  let p := Fl.PWR_PHASE_PART.get w
  let n := Fl.PWR_PHASE_DURATION.get w
  if bitsOf v.toNat 4 4 ≠ 0 then s.pwrRefused
  else
    let rec' := if n = 0 then (0, 0, false) else (n, Fl.PWR_PHASE_EXTRA_W.get w, false)
    { s with power.phases := swrite (fun _ => (0, 0, false)) s.power.phases p rec' }

/-! ## Power slack (R495 to R497) -/

/-- Shifts in and out, shown in PWR.SLACK_STAT. -/
def shiftSum (l : List Shift) (sign : Int) : Nat :=
  l.foldl (fun a x => if 0 < sign * x.watts then a + x.watts.natAbs else a) 0
def State.showShifts (s : State) : State :=
  (s.setFld Reg.PWR_SLACK_STAT Fl.PWR_SLACK_STAT_IN_W (min 65535 (shiftSum s.power.shifts 1))).setFld Reg.PWR_SLACK_STAT
    Fl.PWR_SLACK_STAT_OUT_W (min 65535 (shiftSum s.power.shifts (-1)))
/-- One shift of a partition set to `w` watts, within SHIFT_MAX_W; a GRANT renews it (R496). -/
def State.takeShift (s : State) (p src : Nat) (w : Int) : State :=
  let sign : Int := if w < 0 then -1 else 1
  let rest := s.power.shifts.filter fun x => !(x.part == p && x.module == src)
  let room := s.fld Reg.PWR_SLACK_CTL Fl.PWR_SLACK_CTL_SHIFT_MAX_W - shiftSum rest sign
  let amount : Int := sign * (min w.natAbs room : Nat)
  let x : Shift := ⟨p, src, amount, s.now⟩
  { s with power.shifts := if amount = 0 then rest else rest ++ [x] }.showShifts
/-- Every shift of a partition lapses (R445, R496). -/
def State.dropShifts (s : State) (p : Nat) : State :=
  { s with power.shifts := s.power.shifts.filter fun x => x.part != p }.showShifts
/-- A SLACK payload sent to a module (R497). -/
def State.sendSlack (s : State) (kind p dest busy amount want : Nat) : State :=
  let bs := leBytes 1 kind ++ leBytes 1 p ++ leBytes 1 s.module ++ leBytes 1 dest ++ leBytes 4 s.power.slackSeq ++
    leBytes 2 busy ++ leBytes 2 amount ++ leBytes 2 want ++ [0, 0]
  { s with power.slackSeq := (s.power.slackSeq + 1) % 2 ^ 32 }.queueSlack p dest 0 bs
/-- The mean busy time of a partition's LAYER cores here, in ns. -/
def State.busyTime (s : State) (p : Nat) : Nat :=
  let cs := (s.coresIn p).filter fun c => (s.bind c).kind == 0
  min 65535 (1000 * cs.foldl (fun a c => a + sread (fun _ => 0) s.power.busyLast c) 0 / (16 * cs.length))
/-- What the module could lend, in W: SUSTAINED_W against the demand of its regions; and the demand of its queued claims above
their regions' shares, in W (R497; DESIGN CHOICE, log entry 44). -/
def State.slackOf (s : State) : Nat × Nat :=
  let need := s.runRegions.foldl (fun a r => a + s.floorOf r + s.demandOf r) 0 / 1000 + s.otherDraw
  let above := fun r => s.floorOf r + s.demandOf r - s.shareOf s.available.1 r
  let want := s.runRegions.foldl (fun a r => a + min (s.toWatts r (s.queuedRise r)) (above r)) 0 / 1000
  (min 65535 (s.sustained - need), min 65535 want)
/-- SLACK_REPORT (R495): a REPORT of each partition that spans modules, to its lead; the lead keeps its own. -/
def execSlackReport (s : State) : Out :=
  .next (if !s.flag Reg.PWR_SLACK_CTL Fl.PWR_SLACK_CTL_EN ∨ !s.sec.ready then s
    else (List.range 16).foldl (fun (t : State) p =>
      match s.part p with
      | none => t
      | some q =>
        let k := s.slackOf
        if q.modules.length ≤ 1 ∨ !s.loaded p then t
        else if q.lead = s.module then
          let mine := t.power.slackReps.filter fun x => !(x.part == p && x.src == s.module)
          let r : SlackRep := ⟨p, s.module, s.busyTime p, k.1, k.2⟩
          { t with power.slackReps := mine ++ [r] }
        else t.sendSlack 0 p q.lead (s.busyTime p) k.1 k.2) s)
/-- A shift granted to a module, this one or another; `src` is the lender. -/
def State.grantShift (s : State) (p dest src : Nat) (w : Int) : State :=
  if dest = s.module then s.takeShift p src w else s.sendSlack 1 p dest 0 (signed16 w) 0
/-- The reports of a partition ranked: the longest busy time, of the lowest module where several have it, receives what each
of the others lends it, and a GRANT of each shift goes to both (R496). -/
def State.rankPart (s : State) (p : Nat) : State :=
  let reps := s.power.slackReps.filter fun x => x.part == p
  match sortByKey (fun (x : SlackRep) => (65535 - x.busy) * 64 + x.src) reps with
  | [] => s
  | top :: others =>
    (others.filter fun x => decide (100 * x.busy ≤ 95 * top.busy) && decide (0 < x.offer)).foldl (fun (s : State) x =>
      (s.grantShift p x.src x.src (-(min 100 x.offer : Nat))).grantShift p top.src x.src (min 100 x.offer : Nat)) s
/-- SLACK_RANKING (R496): the reports that have arrived are ranked and used up. -/
def execSlackRanking (s : State) : Out :=
  let isReport := fun (e : Nat × List Byte) => leAt e.2 0 1 == 0
  let got : List SlackRep := (s.slackIn.filter isReport).map fun e =>
    ⟨leAt e.2 1 1, leAt e.2 2 1, leAt e.2 8 2, leAt e.2 10 2, leAt e.2 12 2⟩
  let kept := s.power.slackReps.filter fun x => !(got.any fun y => y.part == x.part && y.src == x.src)
  let t := { s with slackIn := s.slackIn.filter (fun e => !isReport e), power.slackReps := kept ++ got }
  let led := (List.range 16).filter fun p => match s.part p with | none => false | some q => q.lead == s.module
  .next { led.foldl (fun (t : State) p => t.rankPart p) t with power.slackReps := [] }
/-- SLACK_GRANT (R496): the GRANTs that have arrived shift the effective SUSTAINED_W. A GRANT names no lender: those of a
partition that arrive together are told apart by their order (DESIGN CHOICE, log entry 44). -/
def execSlackGrant (s : State) : Out :=
  let isGrant := fun (e : Nat × List Byte) => leAt e.2 0 1 == 1
  let got := s.slackIn.filter isGrant
  let t := { s with slackIn := s.slackIn.filter fun e => !isGrant e }
  .next (got.zipIdx.foldl (fun (t : State) e =>
    let p := leAt e.1.2 1 1
    let before := ((got.take e.2).filter fun k => leAt k.2 1 1 == p).length
    if p ≤ 15 ∧ s.partState p ≠ 5 then t.takeShift p (64 + before) (intOf 16 (leAt e.1.2 10 2)) else t) t)
/-- SHIFT_LAPSE (R496): a shift not renewed within 10 ms lapses. -/
def execShiftLapse (s : State) : Out :=
  .next { s with power.shifts := s.power.shifts.filter fun x => decide (s.now < x.since + 40000) }.showShifts

end Sys2Proof.Machine
end

