-- ==== Sys2Proof/Machine/Fabric.lean ====
section
/-! DEFINITION. Partitions that span modules and split (R443 to R448), FAULT messages (R422, R564), and the management
plane (R426 to R428). -/

namespace Sys2Proof.Machine

/-! ## Beats (R443) -/

def State.beatOf (s : State) (p : Nat) : Nat := sread (fun _ => 0) s.blk.beatSeq p
def State.ackOf (s : State) (p mod : Nat) : Nat := sread (fun _ => 0) s.blk.ackSeq (p * 64 + mod)
/-- The members of a partition besides this module. -/
def State.otherMembers (s : State) (p : Nat) : List Nat :=
  match s.part p with
  | none => []
  | some q => q.modules.filter fun m => m != s.module
/-- Whether this module leads a loaded partition that spans modules. -/
def State.leads (s : State) (p : Nat) : Bool :=
  match s.part p with
  | none => false
  | some q => q.lead == s.module && decide (1 < q.modules.length) && s.loaded p
def State.wide (s : State) (p : Nat) : Bool :=
  match s.part p with
  | none => false
  | some q => decide (1 < q.modules.length) && s.loaded p
/-- Modules that have answered the latest beat of a partition, as LNK.REACH shows them (R451). -/
def State.answers (s : State) : List Nat :=
  (List.range 48).filter fun m => (List.range 16).any fun p => s.leads p && s.beatOf p != 0 && s.ackOf p m == s.beatOf p
def State.showReach (s : State) : State := { s with answered := s.answers }
/-- Whether a member has answered none of the beats of the last 16 µs, of which there are four. -/
def State.silentMember (s : State) (p : Nat) : Bool :=
  (s.otherMembers p).any fun m => decide (s.ackOf p m + 4 ≤ s.beatOf p)
/-- PART_BEAT sent to every other member. -/
def State.sendBeats (s : State) (p : Nat) (resume : Bool) : State :=
  (s.otherMembers p).foldl (fun (s : State) m => s.sendAway p nodeHost m nodeHost 0 (.partBeat p (s.beatOf p) resume)) s
/-- PART_BEAT_TIMER (R443): the next beat of a partition that this module leads; a FROZEN one is sent beats too, since its
members must answer them to resume (R446; DEDUCED, log entry 45). -/
def execPartBeatTimer (p : PartId) (s : State) : Out :=
  .next (if s.leads p.val ∧ 3 ≤ s.partState p.val then
      let n := if s.beatOf p.val + 1 = 2 ^ 32 then 1 else s.beatOf p.val + 1
      (State.sendBeats { s with blk.beatSeq := swrite (fun _ => 0) s.blk.beatSeq p.val n } p.val false).showReach
    else s)
/-- PART_ACK (R443): the lead receives a member's answer. -/
def execPartAck (id : Nat) (s : State) : Out :=
  .next (s.settle (match s.findPn id with
    | none => s
    | some m =>
      match m.body with
      | .partAck p n =>
        let t := (s.takePn id).flowMaybeOver p
        (State.showReach { t with blk.ackSeq := swrite (fun _ => 0) t.blk.ackSeq (p * 64 + m.srcModule) n })
      | _ => s))

/-! ## Freezing and resuming (R445, R446) -/

/-- Whether a partition meets a freeze condition (R443): at the lead a member has answered no beat for 16 µs, at a member no
beat has come for 16 µs, nor since it became ready. -/
def State.beatLost (s : State) (p : Nat) : Bool :=
  if s.leads p then s.silentMember p
  else match sread (fun _ => none) s.blk.beatAt p with
    | none => true
    | some t => decide (t + 64 ≤ s.now)
/-- PARTITION_FREEZE (R443, R445): no beat or no answer for 16 µs. A partition FROZEN already is not ready to resume. -/
def execPartitionFreeze (p : PartId) (s : State) : Out :=
  .next (if !s.wide p.val || !s.beatLost p.val then s
    else if s.partState p.val = 5 then s.setReady p.val false
    else if s.partState p.val = 3 ∨ s.partState p.val = 4 then
      let rest := s.blk.degraded.filter fun q => q != p.val
      let t := { s with blk.degraded := if s.partState p.val = 4 then p.val :: rest else rest }
      let t := ((t.setPartState p.val 5).abortPasses p.val).haltPart p.val
      s.settle (((t.bump Reg.LNK_FREEZES Fl.LNK_FREEZES_COUNT).dropShifts p.val).serve)
    else s)
/-- A FROZEN partition goes on (R446, step 4): its cores start, and it is READY, or DEGRADED if it was. -/
def State.thaw (s : State) (p : Nat) : State :=
  let x := if s.blk.degraded.contains p then 4 else 3
  let s := { s with blk.degraded := s.blk.degraded.filter fun q => q != p }
  (((s.startPart p).setPartState p x).beatSeen p).serve
/-- The lead resumes a partition (R446, steps 2 to 4): the last commits are replayed, tentative nodes rolled back, and the
members told by a beat with RESUME. -/
def State.resumeSplit (s : State) (p : Nat) : State :=
  (((s.setReady p false).replayPart p).sendBeats p true).thaw p
/-- PARTITION_RESUME (R446): 100 ms of answered beats; a held partition becomes ready to resume. -/
def execPartitionResume (p : PartId) (s : State) : Out :=
  .next (if !s.leads p.val ∨ s.partState p.val ≠ 5 ∨ s.silentMember p.val then s
    else if (s.fld Reg.LNK_SPLIT_CTL Fl.LNK_SPLIT_CTL_HOLD).testBit p.val then s.setReady p.val true
    else s.settle (s.resumeSplit p.val))
/-- PART_BEAT (R443, R446): a member answers; a beat with RESUME starts a FROZEN partition's cores. -/
def execPartBeat (id : Nat) (s : State) : Out :=
  .next (match s.findPn id with
    | none => s
    | some m =>
      match m.body with
      | .partBeat p n resume =>
        let t := s.takePn id
        if !t.loaded p then t
        else
          let t := (t.beatSeen p).sendAway p nodeHost m.srcModule nodeHost m.tag (.partAck p n)
          let t := if t.leads p then t else t.flowMaybeOver p
          if resume ∧ t.partState p = 5 ∧ !t.leads p then s.settle (t.thaw p) else t
      | _ => s)
def State.lnkRefused (s : State) : State := s.setFld Reg.LNK_SPLIT_STAT Fl.LNK_SPLIT_STAT_WRITE_REFUSED 1
/-- A write of LNK.SPLIT_GO (R446, R448): refused for a partition that is not FROZEN or has a silent member. -/
def State.writeSplitGo (s : State) (v : Word) : State :=
  if 65536 ≤ v.toNat then s.lnkRefused
  else (maskList 16 v.toNat).foldl (fun (s : State) p =>
    if s.partState p ≠ 5 ∨ s.silentMember p then s.lnkRefused
    else if (s.fld Reg.LNK_SPLIT_STAT Fl.LNK_SPLIT_STAT_READY).testBit p then s.resumeSplit p
    else s) s

/-! ## FAULT messages -/

/-- The lead tells the other members of a partition that a member's flow has stopped, by a FAULT message whose TAG is the
partition (R522; DESIGN CHOICE, log entry 81). -/
def State.flowRelay (s : State) (p src : Nat) : State :=
  ((s.otherMembers p).filter fun m => m != src).foldl (fun (s : State) m =>
    s.sendAway p nodeManager m nodeHost p (.fault ((s.coresIn p).headD 0) 0x40)) s
/-- What a FAULT message does: a cause of R266 is a program fault of its core (R574); FLOW_STOP of another module reaches the
partitions that this module leads and that span that module, and from the lead the partition it names (R522); a stagehand in
SAFE is recorded (R428, R564). -/
def State.faultMessage (s : State) (m : PnMsg) (core code : Nat) : State :=
  if 1 ≤ code ∧ code ≤ 0x13 ∧ m.srcModule = s.module then (s.programFault (core % 256) code).serve
  else if code = 0x40 ∧ m.srcModule ≠ s.module then
    ((List.range 16).foldl (fun (t : State) p =>
      if t.leads p ∧ (t.otherMembers p).contains m.srcModule then (t.flowRelay p m.srcModule).flowMember p
      else if p = m.tag ∧ t.wide p ∧ (t.part p).any fun q => q.lead == m.srcModule then t.flowMember p
      else t) s).serve
  else if code = 0x4C ∧ 256 ≤ m.src ∧ m.src < 272 then s.logFault 0x4C (.region (m.src - 256)) none outLogged 0
  else s
/-- FAULT (R422, R564): a fault message reaches the Stage manager or the host interface block. -/
def execFault (id : Nat) (s : State) : Out :=
  .next (match s.findPn id with
    | none => s
    | some m =>
      match m.body with
      | .fault core code =>
        let t := s.takePn id
        if m.dest = nodeManager ∨ m.dest = nodeHost then s.settle (t.faultMessage m core code) else t
      | _ => s)

/-! ## The management plane (R426 to R428) -/

def State.safeRegions (s : State) : Nat := s.fld Reg.FAB_SAFE Fl.FAB_SAFE_REGIONS
/-- A region enters or leaves SAFE: minimum rations with 1-in-2 skipping. -/
def State.setSafe (s : State) (r : Nat) (on : Bool) : State :=
  let v := s.safeRegions
  let s := s.setFld Reg.FAB_SAFE Fl.FAB_SAFE_REGIONS (if v.testBit r = on then v else if on then v + 2 ^ r else v - 2 ^ r)
  let s := s.setFld (Reg.STG_REG_STAT r) Fl.STG_REG_STAT_SAFE (if on then 1 else 0)
  (s.setSkip r skipSafe (if on then 3 else 0)).recap.arbitrate r
/-- STAGEHAND_SAFE (R428): a stagehand that no frame addressed for 10 ms enters SAFE and sends FAULT, which names the first
core of its region. -/
def execStagehandSafe (r : RegionId) (s : State) : Out :=
  .next (if s.safeRegions.testBit r.val then s
    else (s.setSafe r.val true).sendPn nodeHost s.module (nodeStagehand r.val) 0 (.fault (16 * r.val) 0x4C))
/-- MGMT_FRAME (R426 to R428): a frame that fails its CRC is counted and discarded; a frame of the Stage manager that
returns clears MGMT_BREAK, and one addressed to a stagehand, or to all, ends its SAFE; a frame to the Stage manager answers
its request. -/
def execMgmtFrame (frame : DWord) (s : State) : Out :=
  let bs := (List.range 7).map fun i => BitVec.ofNat 8 (frame.toNat / 2 ^ (8 * i))
  let dest := bitsOf frame.toNat 0 8
  let src := bitsOf frame.toNat 8 8
  .next (if crc8 bs ≠ bitsOf frame.toNat 56 8 then
      (s.bump Reg.FAB_MGMT_CRC Fl.FAB_MGMT_CRC_COUNT).setFld Reg.FAB_STAT Fl.FAB_STAT_MGMT_CRC_SEEN 1
    else
      let t := if dest = 0 then { s with sec.mgmtTries := 0 } else s
      if src ≠ 0 then t
      else
        let t := t.setFld Reg.FAB_STAT Fl.FAB_STAT_MGMT_BREAK 0
        let rs := if dest = 0xFF then List.range 16 else if 1 ≤ dest ∧ dest ≤ 16 then [dest - 1] else []
        rs.foldl (fun (t : State) r => if t.safeRegions.testBit r then t.setSafe r false else t) t)
/-- MGMT_RETRY (R427): a request without an answer is repeated, up to three times; one still without an answer after the third
is given up, and the next request starts anew. -/
def execMgmtRetry (s : State) : Out :=
  .next (if 3 ≤ s.sec.mgmtTries then { s with sec.mgmtTries := 0 }
    else { s with sec.mgmtTries := s.sec.mgmtTries + 1 }.bump Reg.FAB_MGMT_RETRY Fl.FAB_MGMT_RETRY_COUNT)
/-- MGMT_BREAK (R427, R564): none of its own frames has come back for 100 µs. -/
def execMgmtBreak (s : State) : Out :=
  .next (if s.flag Reg.FAB_STAT Fl.FAB_STAT_MGMT_BREAK then s
    else (s.setFld Reg.FAB_STAT Fl.FAB_STAT_MGMT_BREAK 1).logFault 0x4B .module none outLogged 0)

end Sys2Proof.Machine
end

