-- ==== Sys2Proof/Machine/Boot.lean ====
section
/-! DEFINITION. Module reset, the boot and the firmware store (R24, R596 to R607, R634), attestation (R611 to R615), and the
management bus (R636, R637). -/

namespace Sys2Proof.Machine

/-! ## The firmware store (R601, R602, R605) -/

/-- A copy of the firmware store: 0 A, 1 B. -/
def State.firmware (s : State) (copy : Nat) : List Byte :=
  ((if copy = 0 then s.sec.copyA else s.sec.copyB)).getD (Config.factoryFirmware copy)
def fwBody (b : List Byte) : Nat := leAt b 12 4
/-- The bytes that the signature covers (R601). -/
def fwSigned (b : List Byte) : List Byte := bytesAt b 0 (2048 + fwBody b)
def fwSlot (b : List Byte) : Nat := leAt b 6 1
def fwSvn (b : List Byte) : Nat := leAt b 10 2
def State.minSvn (s : State) : Nat := s.fld Reg.SEC_SVN_FUSED Fl.SEC_SVN_FUSED_MIN_SVN
def State.revoked (s : State) (k : Nat) : Bool := (s.fld Reg.SEC_SVN_FUSED Fl.SEC_SVN_FUSED_REVOKED).testBit k
/-- The first check of R602 that a firmware image fails, by its code of R607; 0 for none. An image that ends before its signature
fails the first, and a key slot that does not exist has no digest (DESIGN CHOICE, log entry 46). -/
def State.fwError (s : State) (b : List Byte) : Nat :=
  if leAt b 0 4 ≠ 0x5746584B ∨ leAt b 4 2 ≠ 1 ∨ leAt b 7 1 ≠ 0 ∨ leAt b 16 80 ≠ 0 ∨ fwBody b = 0 ∨
      4186883 < fwBody b ∨ b.length < 2048 + fwBody b + 3309 then 1
  else if 4 ≤ fwSlot b ∨ shake256 (bytesAt b 96 1952) 32 ≠ Config.keyDigest (fwSlot b) then 2
  else if s.revoked (fwSlot b) then 3
  else if !Config.signatureGood (bytesAt b 96 1952) (fwSigned b) (bytesAt b (2048 + fwBody b) 3309) then 4
  else if fwSvn b < s.minSvn then 5
  else 0
/-- The copy that runs. -/
def State.runningCopy (s : State) : Nat := s.fld Reg.SEC_BOOT_STAT Fl.SEC_BOOT_STAT_COPY
def fwIdle : Nat := 0
def fwFetch : Nat := 1
def fwStaged : Nat := 4
def fwFailed : Nat := 5
def State.fwState (s : State) : Nat := s.fld Reg.SEC_FW_STAT Fl.SEC_FW_STAT_STATE
/-- A copy of the store written. -/
def State.putCopy (s : State) (copy : Nat) (b : List Byte) : State :=
  if copy = 0 then { s with sec.copyA := some b } else { s with sec.copyB := some b }
/-- The copy that an update writes: the one that is not running, or A in RECOVERY (R604, R605). -/
def State.updateCopy (s : State) : Nat := if s.sec.romPhase = 4 then 0 else 1 - s.runningCopy
/-- A copy whose write failed or was interrupted: it holds free bytes that fail R602 (R605, R620). -/
def State.breakCopy (s : State) (copy : Nat) : State :=
  let b := Config.brokenFirmware s.fresh
  (s.putCopy copy (if s.fwError b = 0 then [] else b)).drew
/-- A module reset while an update is fetched, checked and written: whether it meets the write is a free value (R620). -/
def State.cutUpdate (s : State) : State :=
  if s.fwState = fwFetch ∧ Config.caughtWriting s.fresh then s.breakCopy s.updateCopy else s

/-! ## Module reset (R24, R600) -/

/-- The registers that module reset leaves: those of DUMP but for FATAL, the fuses of SEC, and the selector's copy (R595,
R605, R606). -/
def State.keptRegs (s t : State) : State :=
  let dump := s.regs.filter fun e => decide (Reg.DUMP_STAT ≤ e.1) && decide (e.1 < Reg.FAB_STAT)
  let t := { t with regs := dump }
  let t := t.setFld Reg.DUMP_STAT Fl.DUMP_STAT_FATAL 0
  let t := if s.faults.dump.isSome then t.setFld Reg.DUMP_STAT Fl.DUMP_STAT_STATE 4 else t
  let t := if s.faults.replace.isSome then t.setReplace rpIdle else t
  let t := t.wr Reg.SEC_SVN_FUSED (s.rd Reg.SEC_SVN_FUSED)
  t.setFld Reg.SEC_FW_STAT Fl.SEC_FW_STAT_NEXT_COPY (s.fld Reg.SEC_FW_STAT Fl.SEC_FW_STAT_NEXT_COPY)
/-- CEL.CHK_LIMITS_p takes the recorded thresholds (R144, R151). -/
def State.recordedLimits (s : State) : State :=
  (List.range 16).foldl (fun (s : State) p =>
    let l := s.threshold p
    let v := BitVec.ofNat 64 (l.1 % 65536 + 65536 * (l.2.1 % 256) + 2 ^ 24 * (l.2.2 % 256))
    (s.wr (Reg.CEL_CHK_LIMITS p) v).wrShadow (Reg.CEL_CHK_LIMITS p) v) s
/-- What the cellar keeps in every power state: cells, labels with the bin map, wear and thresholds (R32, R122, R151, R170).
A bin whose refresh was cut short is OFFLINE (DESIGN CHOICE, log entry 46). -/
def State.keptCellar (s t : State) : State :=
  let cut : Nat × BinRec → Nat × BinRec := fun e =>
    if e.2.state = .refresh then (e.1, { e.2 with state := .offline }) else e
  { t with
    cells := s.cells
    scales := s.scales
    wsums := s.wsums
    dsums := s.dsums
    rsums := s.rsums
    spans := s.spans
    labelEcc := s.labelEcc
    testSums := s.testSums
    envelopes := s.envelopes
    binRecs := s.binRecs.map cut
    rackRecs := s.rackRecs
    wear := s.wear
    thresholds := s.thresholds
    threshBad := s.threshBad }
/-- The bytes of the retained dump ranges (R589). -/
def inRetained (k : Nat) : Bool := decide (retainBase ≤ k % pantrySize) && k / pantrySize % 16 == 0
/-- The module after a reset that leaves the 12 V feed on: the MODEL's own queue, counters and record go on; the firmware
store, the fuses, the cellar, the error log, the DUMP registers and a retained dump stay, with the pins and the feeds. -/
def State.moduleReset (s : State) : State :=
  let s := s.cutUpdate
  let t := { State.reset with
    pending := s.pending
    fresh := s.fresh
    nextId := s.nextId
    now := s.now
    outbox := s.outbox
    errLog := s.errLog
    faults.noticed := s.faults.noticed
    host.perst := s.host.perst
    power.flowPin := s.power.flowPin
    power.feedA := s.power.feedA
    power.feedB := s.power.feedB
    sec.powered := s.sec.powered
    sec.inReset := s.sec.inReset
    sec.copyA := s.sec.copyA
    sec.copyB := s.sec.copyB }
  let t := if s.flag Reg.DUMP_STAT Fl.DUMP_STAT_RETAINED then
      { t with pantry := s.pantry.filter (fun e => inRetained e.1)
               pantryEcc := s.pantryEcc.filter fun e => inRetained (8 * e.1) }
    else t
  (s.keptRegs (s.keptCellar t)).recordedLimits
/-- What goes with the 12 V feed: the error log, the DUMP registers, a retained dump (R567, R589, R595). -/
def State.feedGone (s : State) : State :=
  let s := { s with
    errLog := []
    faults.noticed := []
    pantry := []
    pantryEcc := []
    regs := s.regs.filter fun e => !(decide (Reg.DUMP_STAT ≤ e.1) && decide (e.1 < Reg.FAB_STAT)) }
  s

/-! ## The mask ROM (R596, R602, R634) -/

/-- The straps sampled (R440, R471, R634). -/
def State.straps (s : State) (slot : Nat) (legacy : Bool) : State :=
  (s.setFld Reg.LNK_MODULE Fl.LNK_MODULE_NUMBER slot).setFld Reg.PWR_STAT Fl.PWR_STAT_LEGACY (if legacy then 1 else 0)
/-- The mask ROM starts (R596, R608, R634): the straps are sampled and MEAS_0 is extended. -/
def State.romStart (s : State) (slot : Nat) (legacy : Bool) : State :=
  let s := s.straps slot legacy
  let s := s.extend 0 evRom 0 Config.romDigest
  { s with sec.romPhase := 1, sec.romCopy := s.fld Reg.SEC_FW_STAT Fl.SEC_FW_STAT_NEXT_COPY }
/-- COLD_START (R24, R596): the 12 V feed reaches 11.4 V. With RESET_N held low the straps are sampled and
the boot waits for its deassertion (R634, R643); time, as HIF.COUNTER, starts from 0. -/
def execColdStart (slot : Fin 8) (legacy : Bool) (s : State) : Out :=
  let t := { s.moduleReset.feedGone with now := 0, sec.powered := true }
  .next (if t.sec.inReset then t.straps slot.val legacy else t.romStart slot.val legacy)
/-- AUX_FEED_LOSS (R457): a module reset that the 12 V feed's loss makes. -/
def execAuxFeedLoss (s : State) : Out := .next { s.moduleReset.feedGone with sec.powered := false }
/-- RESET_N_ASSERT (R600): RESET_N low for 1 µs. -/
def execResetNAssert (s : State) : Out :=
  .next (if s.sec.powered then { s.moduleReset with sec.inReset := true } else { s with sec.inReset := true })
/-- RESET_N_DEASSERT (R600, R634): the boot reruns from fuse sensing. -/
def execResetNDeassert (slot : Fin 8) (legacy : Bool) (s : State) : Out :=
  .next (if !s.sec.inReset then s
    else
      let t := { s with sec.inReset := false }
      if t.sec.powered then t.romStart slot.val legacy else t)
/-- FIRMWARE_VERIFIED (R602): a copy's check ends; `readable` says that the store could be read. After a failed first copy
the other is checked, after both RECOVERY begins. -/
def execFirmwareVerified (readable : Bool) (s : State) : Out :=
  .next (if s.sec.romPhase = 1 ∨ s.sec.romPhase = 2 then
      let c := s.sec.romCopy
      let err := if readable then s.fwError (s.firmware c) else 6
      if err = 0 then { s with sec.romPhase := 3 }
      else
        let t := s.setFld Reg.SEC_BOOT_STAT (if c = 0 then Fl.SEC_BOOT_STAT_A_BAD else Fl.SEC_BOOT_STAT_B_BAD) 1
        let t := t.setFld Reg.SEC_BOOT_STAT Fl.SEC_BOOT_STAT_ERROR err
        if s.sec.romPhase = 1 then { t with sec.romPhase := 2, sec.romCopy := 1 - c }
        else { t with sec.romPhase := 4 }.setFld Reg.SEC_BOOT_STAT Fl.SEC_BOOT_STAT_STAGE 2
    else s)
/-- FIRMWARE_START (R596, R603, R608, R613): the verified copy runs; `keyOk` says that the identity key was unsealed. -/
def execFirmwareStart (keyOk : Bool) (s : State) : Out :=
  .next (if s.sec.romPhase ≠ 3 then s
    else
      let b := s.firmware s.sec.romCopy
      let meas := shake256 (fwSigned b) 32
      let t := { s with sec.romPhase := 0, sec.fwMeas := meas }.extend 1 evFirmware 0 meas
      let t := (t.setFld Reg.SEC_BOOT_STAT Fl.SEC_BOOT_STAT_STAGE 1).setFld Reg.SEC_BOOT_STAT Fl.SEC_BOOT_STAT_COPY
        s.sec.romCopy
      let t := (t.setFld Reg.SEC_FW_VERSION Fl.SEC_FW_VERSION_VERSION (leAt b 8 2)).setFld Reg.SEC_FW_VERSION
        Fl.SEC_FW_VERSION_SVN (fwSvn b)
      if keyOk then t else t.setFld Reg.SEC_BOOT_STAT Fl.SEC_BOOT_STAT_ID_FAIL 1)
def State.fwRuns (s : State) : Bool := s.fld Reg.SEC_BOOT_STAT Fl.SEC_BOOT_STAT_STAGE == 1
/-- FW_READY (R596): ring, stagehands and sensors are up. -/
def execFwReady (s : State) : Out :=
  .next (if s.fwRuns then { s with sec.ready := true }.setFld Reg.HIF_STAT Fl.HIF_STAT_FW_READY 1 else s)

/-! ## Updates (R604 to R606) -/

def State.setFw (s : State) (x err : Nat) : State :=
  (s.setFld Reg.SEC_FW_STAT Fl.SEC_FW_STAT_STATE x).setFld Reg.SEC_FW_STAT Fl.SEC_FW_STAT_ERROR err
def State.secRefused (s : State) : State := s.setFld Reg.SEC_FW_STAT Fl.SEC_FW_STAT_WRITE_REFUSED 1
/-- A write that R606 refuses: WRITE_REFUSED and code REFUSED. -/
def State.fuseRefused (s : State) : State := s.secRefused.setFld Reg.SEC_FW_STAT Fl.SEC_FW_STAT_ERROR 8
/-- The read of an image from host memory. -/
def State.fwRead (s : State) : OutMsg := .hostRead (s.rd Reg.SEC_FW_ADDR).toNat (s.fld Reg.SEC_FW_LEN Fl.SEC_FW_LEN_BYTES)
/-- STAGE (R604, R605, R620); in RECOVERY the image is fetched once CACHE_EN is 1. -/
def State.fwStage (s : State) : State :=
  let st := s.fwState
  if !(s.fwRuns || s.sec.romPhase == 4) ∨ st = 1 ∨ st = 2 ∨ st = 3 then s.secRefused
  else
    let n := s.fld Reg.SEC_FW_LEN Fl.SEC_FW_LEN_BYTES
    if 2 ^ 22 < n then s.setFw fwFailed 7
    else if s.sec.romPhase = 4 then s.setFw fwFetch 0
    else (s.setFw fwFetch 0).emit s.fwRead
/-- ACTIVATE (R605, R620). -/
def State.fwActivate (s : State) : State :=
  if s.fwRuns ∧ s.fwState = fwStaged then
    s.setFld Reg.SEC_FW_STAT Fl.SEC_FW_STAT_NEXT_COPY (1 - s.runningCopy)
  else s.secRefused
/-- COMMIT_SVN (R606). -/
def State.commitSvn (s : State) : State :=
  let svn := s.fld Reg.SEC_FW_VERSION Fl.SEC_FW_VERSION_SVN
  if s.fwRuns ∧ s.minSvn < svn ∧ svn ≤ fwSvn (s.firmware (1 - s.runningCopy)) then
    s.setFld Reg.SEC_SVN_FUSED Fl.SEC_SVN_FUSED_MIN_SVN svn
  else s.fuseRefused
/-- REVOKE (R606). -/
def State.revokeSlot (s : State) (k : Nat) : State :=
  if s.fwRuns ∧ fwSlot (s.firmware s.runningCopy) ≠ k then
    s.setFld Reg.SEC_SVN_FUSED ⟨16 + k, 1⟩ 1
  else s.fuseRefused
/-- A write of SEC.FW_CTL (R21, R604 to R606, R620). -/
def State.writeFwCtl (s : State) (v : Word) : State :=
  let w := v.setWidth 64
  if 64 ≤ v.toNat ∨ (Fl.SEC_FW_CTL_COMMIT_SVN.get w = 1 ∧ Fl.SEC_FW_CTL_REVOKE.get w = 1) then s.secRefused
  else
    let s := if Fl.SEC_FW_CTL_STAGE.get w = 1 then s.fwStage else s
    let s := if Fl.SEC_FW_CTL_ACTIVATE.get w = 1 then s.fwActivate else s
    let s := if Fl.SEC_FW_CTL_COMMIT_SVN.get w = 1 then s.commitSvn else s
    if Fl.SEC_FW_CTL_REVOKE.get w = 1 then s.revokeSlot (Fl.SEC_FW_CTL_REVOKE_SLOT.get w) else s
/-- FW_STAGE_COMPLETE (R604, R605): the image has been fetched, or its fetch failed; it is checked, written to the copy that
is not running and read back, `wrote` saying that this succeeded. In RECOVERY it becomes copy A and starts; the fetch there
waits for HIF.STAT.CACHE_EN. -/
def execFwStageComplete (img : Option (List Byte)) (wrote : Bool) (s : State) : Out :=
  .next (if s.fwState ≠ fwFetch then s
    else if s.sec.romPhase = 4 ∧ !s.cacheOk then s
    else
      let s := if s.sec.romPhase = 4 then s.emit s.fwRead else s
      match (if s.cacheOk then img else none) with
      | none => s.setFw fwFailed 7
      | some b =>
        let b := b.take (s.fld Reg.SEC_FW_LEN Fl.SEC_FW_LEN_BYTES)
        let err := s.fwError b
        let copy := s.updateCopy
        if err ≠ 0 then s.setFw fwFailed err
        else if !wrote then (s.breakCopy copy).setFw fwFailed 6
        else
          let t := s.putCopy copy b
          if s.sec.romPhase = 4 then
            let t := (t.setFw fwIdle 0).setFld Reg.SEC_FW_STAT Fl.SEC_FW_STAT_NEXT_COPY 0
            { t with sec.romPhase := 3, sec.romCopy := 0 }
          else t.setFw fwStaged 0)

/-! ## Attestation (R611 to R615) -/

/-- SPDM error codes; of these the spec names Busy and Unspecified (the numbers PRESUMED, DSP0274, log entry 47). -/
def spdmInvalid : Nat := 1
def spdmBusy : Nat := 3
def spdmUnexpected : Nat := 4
def spdmUnspecified : Nat := 5

/-- The valid entries of the measurement log, oldest first. -/
def State.logEntries (s : State) : List Byte :=
  let n := s.fld Reg.SEC_LOG_HEAD Fl.SEC_LOG_HEAD_NEXT_SEQ
  ((List.range (min n 256)).map fun i => (ringAt s.sec.measLog ((n - min n 256 + i) % 256)).bytes).flatten
/-- The measurement blocks of R615. -/
def State.measBlocks (s : State) : List (Nat × List Byte) :=
  let meas := (List.range 4).map fun i => (i + 1, s.measure i)
  let fw := s.regBytes Reg.SEC_FW_VERSION 2
  let ident := s.regBytes Reg.ID_IDENT 3 ++ s.regBytes Reg.ID_PARAMS 3 ++ s.regBytes Reg.ID_SERIAL 2
  let log := s.regBytes Reg.SEC_LOG_HEAD 2 ++ s.logEntries
  let slots := ((List.range 16).filter fun k => (s.slotRec k).isSome).map fun k =>
    (16 + k, s.regBytes (Reg.BLK_MEAS k 0) 16 ++ s.regBytes (Reg.BLK_SLOT_STAT k) 1)
  meas ++ [(5, fw), (6, ident), (7, log)] ++ slots
/-- The blocks that an index asks for: 0xFF all of them (PRESUMED, DSP0274, log entry 47). -/
def State.blocksOf (s : State) (index : Nat) : List (Nat × List Byte) :=
  if index = 0xFF then s.measBlocks else s.measBlocks.filter fun b => b.1 == index

/-- A response goes out and joins the transcript; a signed one carries a signature over it (R611, R614). -/
def State.respond (s : State) (msg : List Byte) (r : SpdmResp) (sign : Bool) : State :=
  let log := s.sec.spdm.transcript ++ msg ++ Config.spdmBytes r
  let sig := if sign then some (Config.signature s.fresh log) else none
  let s := if sign then s.drew else s
  { s with sec.spdm.transcript := log }.emit (.spdm r sig)
def State.spdmError (s : State) (code : Nat) : State := s.emit (.spdm (.error code) none)
def State.idFail (s : State) : Bool := s.flag Reg.SEC_BOOT_STAT Fl.SEC_BOOT_STAT_ID_FAIL
/-- A request of the negotiated part, which needs the three requests that open it (the order PRESUMED, DSP0274, log entry
47); one whose answer is signed fails with ID_FAIL (R613). -/
def State.negotiated (s : State) (signed : Bool) (f : State → State) : State :=
  if s.sec.spdm.state < 3 then s.spdmError spdmUnexpected
  else if signed && s.idFail then s.spdmError spdmUnspecified
  else f s
/-- The SPDM responder answers a request (R612 to R615). -/
def State.spdmAnswer (s : State) (q : SpdmReq) : State :=
  match q with
  | .getVersion m => ({ s with sec.spdm := { spdmReset with state := 1 } }).respond m .version false
  | .getCapabilities m =>
    if s.sec.spdm.state ≠ 1 then s.spdmError spdmUnexpected
    else { s with sec.spdm.state := 2 }.respond m .capabilities false
  | .negotiateAlgorithms m common =>
    if s.sec.spdm.state ≠ 2 then s.spdmError spdmUnexpected
    else if !common then s.spdmError spdmInvalid
    else { s with sec.spdm.state := 3 }.respond m .algorithms false
  | .getDigests m => s.negotiated false fun s => s.respond m (.digests Config.chainDigest) false
  | .getCertificate m slot o n =>
    s.negotiated false fun s =>
      if slot ≠ 0 ∨ Config.certChain.length ≤ o then s.spdmError spdmInvalid
      else s.respond m (.certificate ((Config.certChain.drop o).take n) (Config.certChain.length - o - n)) false
  | .challenge m slot nonce =>
    s.negotiated true fun s =>
      if slot ≠ 0 then s.spdmError spdmInvalid
      else s.respond m (.challengeAuth Config.chainDigest s.measBlocks nonce) true
  | .getMeasurements m index nonce => s.negotiated true fun s => s.respond m (.measurements (s.blocksOf index) nonce) true
  | .keyExchange m slot =>
    s.negotiated true fun s =>
      if slot ≠ 0 then s.spdmError spdmInvalid
      else
        let id := Config.sessionId s.fresh
        let s := { s.drew with sec.spdm.session := some id, sec.spdm.finished := false, sec.spdm.updates := 0 }
        s.respond m (.keyExchange id) true
  | .finish m good =>
    if s.sec.spdm.session.isNone ∨ s.sec.spdm.finished then s.spdmError spdmUnexpected
    else if !good then { s with sec.spdm.session := none }.spdmError spdmInvalid
    else { s with sec.spdm.finished := true }.respond m .finished false
  | .keyUpdate m =>
    if s.sec.spdm.session.isNone ∨ !s.sec.spdm.finished then s.spdmError spdmUnexpected
    else { s with sec.spdm.updates := s.sec.spdm.updates + 1 }.respond m .keyUpdated false
  | .endSession m =>
    if s.sec.spdm.session.isNone ∨ !s.sec.spdm.finished then s.spdmError spdmUnexpected
    else { s with sec.spdm.session := none, sec.spdm.finished := false }.respond m .sessionEnded false
/-- An SPDM request: Busy before FW_READY (R614); during a FATAL dump it is answered after the dump (R620). -/
def State.spdm (s : State) (q : SpdmReq) : State :=
  if !s.sec.ready then s.spdmError spdmBusy
  else if s.faults.dump.isSome then { s with sec.spdmHeld := s.sec.spdmHeld ++ [q] }
  else s.spdmAnswer q

def execGetVersion (req : List Byte) (s : State) : Out := .next (s.spdm (.getVersion req))
def execGetCapabilities (req : List Byte) (s : State) : Out := .next (s.spdm (.getCapabilities req))
def execNegotiateAlgorithms (req : List Byte) (common : Bool) (s : State) : Out :=
  .next (s.spdm (.negotiateAlgorithms req common))
def execGetDigests (req : List Byte) (s : State) : Out := .next (s.spdm (.getDigests req))
def execGetCertificate (req : List Byte) (slot offset length : Nat) (s : State) : Out :=
  .next (s.spdm (.getCertificate req slot offset length))
def execChallenge (req : List Byte) (slot : Nat) (nonce : List Byte) (s : State) : Out :=
  .next (s.spdm (.challenge req slot nonce))
def execGetMeasurements (req : List Byte) (index : Nat) (nonce : List Byte) (s : State) : Out :=
  .next (s.spdm (.getMeasurements req index nonce))
def execKeyExchange (req : List Byte) (slot : Nat) (s : State) : Out := .next (s.spdm (.keyExchange req slot))
def execFinish (req : List Byte) (good : Bool) (s : State) : Out := .next (s.spdm (.finish req good))
def execKeyUpdate (req : List Byte) (s : State) : Out := .next (s.spdm (.keyUpdate req))
def execEndSession (req : List Byte) (s : State) : Out := .next (s.spdm (.endSession req))

/-- DUMP_COMPLETE (R588 to R590, R620): a dump ends, and SPDM requests that came during it are answered. -/
def execDumpComplete (ok : Bool) (s : State) : Out :=
  let t := s.dumpEnd (ok && (s.cacheOk || !s.faults.dump.any fun d => d.trunk))
  .next (if t.faults.dump.isSome then t
    else t.sec.spdmHeld.foldl (fun (t : State) q => t.spdmAnswer q) { t with sec.spdmHeld := [] })

/-! ## The management bus (R636, R637) -/

/-- The register word that an index mirrors. -/
def State.mirror (s : State) (i : Nat) : Nat :=
  let ready := s.sec.ready
  let fw := fun (off : Nat) => if ready then s.word off else 0
  if i = 0 then s.word Reg.ID_IDENT
  else if i = 1 then (s.view Reg.ID_IDENT).toNat / 2 ^ 32
  else if i = 2 then s.word Reg.ID_REVISION
  else if i = 3 then s.word Reg.ID_SERIAL
  else if i = 4 then (s.view Reg.ID_SERIAL).toNat / 2 ^ 32
  else if i = 5 then fw Reg.PWR_STAT
  else if i = 6 then fw Reg.PWR_FEED_A
  else if i = 7 then fw Reg.PWR_FEED_B
  else if i = 8 then fw Reg.THM_STAT
  else if i = 9 then fw Reg.THM_COOLANT
  else if i = 10 then fw Reg.THM_FLOW
  else if i = 11 then s.word Reg.HIF_STAT
  else if i = 12 then s.word Reg.DUMP_STAT
  else if i = 13 then s.word Reg.SEC_BOOT_STAT
  else if i = 14 then s.word Reg.LNK_MODULE
  else if 16 ≤ i ∧ i < 32 then fw (Reg.THM_REGION (i - 16))
  else 0xFFFFFFFF
/-- MGMT_BUS_INDEX (R636): a one-byte index. -/
def execMgmtBusIndex (byte : Byte) (s : State) : Out :=
  .next (if s.sec.powered then { s with sec.busIndex := byte.toNat } else s)
/-- MGMT_BUS_READ (R636, R637): the mirror word of the latest index. -/
def execMgmtBusRead (s : State) : Out :=
  .next (if s.sec.powered then s.emit (.busWord (BitVec.ofNat 32 (s.mirror s.sec.busIndex))) else s)

end Sys2Proof.Machine
end

