-- ==== Sys2Proof/Machine/Branch.lean ====
section
/-! DEFINITION. The branch and control instructions (R246). -/

namespace Sys2Proof.Machine

/-- pc + OFS. -/
def State.pcOfs (s : State) (c : Nat) (f : BFmt) : Int := (s.pc c : Int) + f.ofs.toInt

/-- A conditional branch: to pc + OFS if ga compares with gb. -/
def branch (opc : Byte) (cmp : DWord → DWord → Bool) (c : CoreId) (f : BFmt) (s : State) : State :=
  let next := if cmp (s.g c.val f.ga.val) (s.g c.val f.gb.val) then s.pcOfs c.val f else s.pcNext c.val
  issue ⟨c.val, f.word opc, next, f.bad, none, false, none, false⟩ id id s

/-- BEQ (R246). -/
def execBeq (c : CoreId) (f : BFmt) (s : State) : Out := .next (branch 0x20 (fun x y => x == y) c f s)
/-- BNE (R246). -/
def execBne (c : CoreId) (f : BFmt) (s : State) : Out := .next (branch 0x21 (fun x y => x != y) c f s)
/-- BLT (R246), signed. -/
def execBlt (c : CoreId) (f : BFmt) (s : State) : Out := .next (branch 0x22 (fun x y => x.slt y) c f s)
/-- BGE (R246), signed. -/
def execBge (c : CoreId) (f : BFmt) (s : State) : Out := .next (branch 0x23 (fun x y => !x.slt y) c f s)
/-- BLTU (R246), unsigned. -/
def execBltu (c : CoreId) (f : BFmt) (s : State) : Out := .next (branch 0x24 (fun x y => x.ult y) c f s)
/-- BGEU (R246), unsigned. -/
def execBgeu (c : CoreId) (f : BFmt) (s : State) : Out := .next (branch 0x25 (fun x y => !x.ult y) c f s)

/-- JMP (R246): pc + OFS. -/
def execJmp (c : CoreId) (f : BFmt) (s : State) : Out :=
  .next (issue ⟨c.val, f.word 0x26, s.pcOfs c.val f, f.bad, none, false, none, false⟩ id id s)
/-- CALL (R246): g31 takes pc + 1; pc + OFS. -/
def execCall (c : CoreId) (f : BFmt) (s : State) : Out :=
  .next (issue ⟨c.val, f.word 0x27, s.pcOfs c.val f, f.bad, none, false, none, false⟩ id
    (fun t => t.setG c.val 31 (BitVec.ofNat 64 (s.pc c.val + 1))) s)
/-- JR (R246): ga[14:0]; CODE_BOUNDS if ga[63:15] is not 0. -/
def execJr (c : CoreId) (f : BFmt) (s : State) : Out :=
  .next (issue ⟨c.val, f.word 0x28, (s.g c.val f.ga.val).toNat, f.bad, none, false, none, false⟩ id id s)
/-- RETX (R246): the return from the handler to EPC; ILLEGAL outside a handler. -/
def execRetx (c : CoreId) (f : BFmt) (s : State) : Out :=
  .next (issue ⟨c.val, f.word 0x29, s.fld (Reg.SEQ_EPC c.val) Fl.SEQ_EPC_PC, f.bad || !s.inHandler c.val,
    none, false, none, false⟩ id (fun t => t.returnExc c.val) s)
/-- HALT (R246): state HALTED; pc names the next instruction. At SEQ.CODE_LIM.HI its next pc lies outside and it raises
CODE_BOUNDS as any instruction does: DEDUCED, log entry 60. -/
def execHalt (c : CoreId) (f : BFmt) (s : State) : Out :=
  .next (issue ⟨c.val, f.word 0x2A, s.pcNext c.val, f.bad, none, false, none, false⟩ id
    (fun t => t.setSeq c.val seqHalted) s)
/-- NOP (R246). -/
def execNop (c : CoreId) (f : BFmt) (s : State) : Out :=
  .next (issue ⟨c.val, f.word 0x2B, s.pcNext c.val, f.bad, none, false, none, false⟩ id id s)
/-- BRK (R246): raises BREAK. -/
def execBrk (c : CoreId) (f : BFmt) (s : State) : Out :=
  .next (issue ⟨c.val, f.word 0x2C, s.pcNext c.val, f.bad, none, false, some .break, false⟩ id id s)

/-- LATE_PUT (R269): a pending LATE_PUT is taken at the next instruction boundary, out of a blocked TWAIT too, unless
the handler is running. -/
def execLatePut (c : CoreId) (s : State) : Out :=
  .next (if s.latePending c.val && !s.inHandler c.val && s.sleep c.val == 0 &&
      (s.seq c.val == seqRun || s.seq c.val == seqWait) then s.takeLate c.val else s)

end Sys2Proof.Machine
end

