-- ==== Sys2Proof/Machine/LoadStore.lean ====
section
/-! DEFINITION. The load, store and register instructions (R244, R245). -/

namespace Sys2Proof.Machine

/-- Whether bits [4:3] of a field that names an address register are not 0 (R244). -/
def aregBad (r : GReg) : Bool := decide (8 ≤ r.val)

/-- A load of `n` bytes: gd takes them, zero-extended; a poisoned word raises POISON_LOAD and leaves gd. -/
def load (opc : Byte) (n : Nat) (c : CoreId) (f : RFmt) (s : State) : State :=
  let o := (s.ea c.val f).toNat
  let x := firstCause [(s.eaBad c.val f n, .pantryRange), (o % n != 0, .misaligned),
    (s.poisonIn c.val o n, .poisonLoad)]
  issue ⟨c.val, f.word opc, s.pcNext c.val, f.bad || aregBad f.ga, none, false, x, false⟩
    (fun t => if x = some .poisonLoad then t.checkRange c.val o n else t)
    (fun t => (t.checkRange c.val o n).setG c.val f.gd.val (BitVec.ofNat 64 (leNat (s.bytes c.val o n)))) s

/-- A store of the low `n` bytes of gb. -/
def storeG (opc : Byte) (n : Nat) (c : CoreId) (f : RFmt) (s : State) : State :=
  let o := (s.ea c.val f).toNat
  let x := firstCause [(s.eaBad c.val f n, .pantryRange), (o % n != 0, .misaligned)]
  issue ⟨c.val, f.word opc, s.pcNext c.val, f.bad || aregBad f.ga, none, false, x, s.scrubbing c.val⟩ id
    (fun t => t.store c.val o (leBytes n (s.g c.val f.gb.val).toNat)) s

/-- What LD does (R244): 64 bits at aN + IMM; and LDW: 32 bits, zero-extended. -/
def State.ld (s : State) (c : CoreId) (f : RFmt) : State := s.settle (load 0x10 8 c f s)
def State.ldw (s : State) (c : CoreId) (f : RFmt) : State := s.settle (load 0x11 4 c f s)
/-- ST (R244): 64 bits of gb. -/
def execSt (c : CoreId) (f : RFmt) (s : State) : Out := .next (s.settle (storeG 0x12 8 c f s))
/-- STW (R244): gb[31:0]. -/
def execStw (c : CoreId) (f : RFmt) (s : State) : Out := .next (s.settle (storeG 0x13 4 c f s))

/-- SETA (R244): a[GD[2:0]] takes (ga + IMM)[31:0]; GD[4:3] must be 0. -/
def execSeta (c : CoreId) (f : RFmt) (s : State) : Out :=
  .next (issue ⟨c.val, f.word 0x14, s.pcNext c.val, f.bad || aregBad f.gd, none, false, none, false⟩ id
    (fun t => t.setA c.val (f.gd.val % 8) ((s.g c.val f.ga.val + sext32 f.imm).setWidth 32)) s)

/-- GETA (R244): gd takes a[GA[2:0]] + IMM, 32 bits, zero-extended; GA[4:3] is not used (DEDUCED, log entry 11). -/
def execGeta (c : CoreId) (f : RFmt) (s : State) : Out :=
  .next (issue ⟨c.val, f.word 0x15, s.pcNext c.val, f.bad, none, false, none, false⟩ id
    (fun t => t.setG c.val f.gd.val ((s.a c.val (f.ga.val % 8) + f.imm).setWidth 64)) s)

/-- Sequencer cycles in Run (R245): 235 cycles of 940 MHz in each 250 ns spent in Run. -/
def State.cyc (s : State) (c : Nat) : DWord := BitVec.ofNat 64 (235 * sread (fun _ => 0) s.runTime c / 8)

/-- RDC (R245): gd takes the counter that IMM selects; any other IMM raises ILLEGAL. -/
def execRdc (c : CoreId) (f : RFmt) (s : State) : Out :=
  let k := f.imm.toNat
  let v := if k = 0 then s.aoc (regionOf c.val) else if k = 1 then s.cyc c.val
    else if k = 2 then s.coreId c.val else s.rd (Reg.SEQ_ISSUED c.val)
  .next (issue ⟨c.val, f.word 0x16, s.pcNext c.val, f.bad || decide (3 < k), none, false, none, false⟩ id
    (fun t => t.setG c.val f.gd.val v) s)

/-- TST (R244): the state of token IMM[3:0] in [1:0] and its status in [15:8]; the other IMM bits are reserved. -/
def execTst (c : CoreId) (f : RFmt) (s : State) : Out :=
  let t := f.imm.toNat % 16
  .next (issue ⟨c.val, f.word 0x17, s.pcNext c.val, f.bad || decide (16 ≤ f.imm.toNat), none, false, none, false⟩ id
    (fun u => u.setG c.val f.gd.val (BitVec.ofNat 64 (s.tok c.val t + 256 * s.tokStatus c.val t))) s)

end Sys2Proof.Machine
end

