-- ==== Sys2Proof/Machine/Host.lean ====
section
/-! DEFINITION. The host interface block: link, queues and doorbells, the Pantry aperture with its snoop filter, host snoops
and register reads over the Prompt net (R535 to R563). -/

namespace Sys2Proof.Machine

/-! ## The link (R535 to R538) -/

def nextOf (s : State) (o : Out) : State :=
  match o with
  | .next t => t
  | .fault _ => s
  | .refused _ => s
def State.linkUp (s : State) : Bool := s.flag Reg.HIF_STAT Fl.HIF_STAT_LINK_UP
def State.cxl (s : State) : Bool := s.linkUp && s.flag Reg.HIF_STAT Fl.HIF_STAT_CXL
/-- Every queue of the table goes to ERROR with code LINK_LOST, and its completions not yet written are dropped and counted. -/
def State.queuesLost (s : State) : State :=
  let qs := List.range (s.fld Reg.HIF_QTABLE_COUNT Fl.HIF_QTABLE_COUNT_COUNT)
  (qs ++ (s.queues.map fun e => e.1).filter fun q => !qs.contains q).foldl (fun (s : State) q =>
    let k := s.queue q
    let s := s.bump Reg.HIF_CPL_DROPPED Fl.HIF_CPL_DROPPED_COUNT k.waiting.length
    s.setQueue q { k with state := qError, error := 7, waiting := [] }) s
/-- Requests already fetched end without completions; their contexts' passes in flight run on. -/
def State.reqsLost (s : State) : State :=
  let idle : Nat × Ctx → Nat × Ctx := fun e => if e.2.st = .active then (e.1, { e.2 with st := .resident }) else e
  { s with reqs := [], ctxs := s.ctxs.map idle }
/-- Host-memory accesses in progress fail as CXL.cache errors (R538). -/
def State.accessesFail (s : State) : State :=
  let parks := (s.ctxs.filter fun e => e.2.st == .parking && e.2.resident.isSome).map fun e => e.1
  let s := parks.foldl (fun (s : State) x => s.endPark x false) s
  let resumes := (s.ctxs.filter fun e => e.2.st == .resuming).map fun e => e.1
  let s := resumes.foldl (fun (s : State) x => (s.endResume x []).1) s
  let s := s.loftFetches.foldl (fun (s : State) f => nextOf s (execLoftFetchComplete f.id false [] s)) s
  let s := (s.spills.filter fun f => !f.written).foldl (fun (s : State) f =>
    nextOf s (execSpillWriteComplete f.id false s)) s
  let s := if s.instState = instCheck then nextOf s (execInstallCheckDone [] s) else s
  let es : List Nat := match s.inst with
    | none => []
    | some k => ((k.bins.filter fun (b : InstBin) => b.phase == 1).map fun (b : InstBin) => b.entry).eraseDups
  let s := if es.isEmpty then s else (es.foldl (fun (s : State) n => s.entryFail n 7) s).instKick.instEnd
  let s := nextOf s (execLoadFetchComplete none none s)
  let s := if s.replaceState = rpMoving then nextOf s (execReplaceMovingDone none s) else s
  let s := if s.replaceState = rpRestoring then nextOf s (execRestoreComplete [] s) else s
  let s := if s.faults.dump.any fun d => d.trunk then s.dumpEnd false else s
  if s.fwState = fwFetch then s.setFw fwFailed 7 else s
/-- The link is lost (R538); what the host cached of the Pantry, and reads not answered, are lost with it (DESIGN CHOICE,
log entry 48). -/
def State.linkLoss (s : State) : State :=
  if !s.linkUp then s
  else
    let t := Reg.HIF_STAT
    let s := (((s.setFld t Fl.HIF_STAT_LINK_UP 0).setFld t Fl.HIF_STAT_CXL 0).setFld t Fl.HIF_STAT_CACHE_EN 0).setFld t
      Fl.HIF_STAT_MEM_EN 0
    let s := ((s.setFld t Fl.HIF_STAT_LINK_LOST 1).bump Reg.HIF_LINK_DOWNS Fl.HIF_LINK_DOWNS_COUNT).wr Reg.HIF_LINK 0
    let s := { s with tracked := [], biSent := [], biWant := [], host.reads := [], host.snoops := [] }
    s.queuesLost.reqsLost.accessesFail.serve
/-- LINK_LOST (R538): the link leaves L0. -/
def execLinkLost (s : State) : Out := .next s.linkLoss
/-- PERST_ASSERT (R537): the link is lost, every queue is DISABLED, and HIF registers return to their reset values but for
LOFT_BASE, TRUNK_BASE and TRUNK_SIZE. -/
def execPerstAssert (s : State) : Out :=
  let t := s.linkLoss
  let hif := fun (k : Nat) => decide (Reg.HIF_STAT ≤ k) && decide (k < Reg.HIF_STAT + 0x10000)
  let kept := fun (k : Nat) => !hif k || k == Reg.HIF_LOFT_BASE || k == Reg.HIF_TRUNK_BASE || k == Reg.HIF_TRUNK_SIZE
  .next { t with
    regs := sclearIf t.regs fun k => !kept k
    latches := sclearIf t.latches hif
    queues := []
    host.turn := (0, 0)
    host.perst := true }
/-- PERST_DEASSERT (R535): detection begins; FW_READY shows that the Stage manager firmware runs. -/
def execPerstDeassert (s : State) : Out :=
  let t := { s with host.perst := false }
  .next (if t.sec.ready then t.setFld Reg.HIF_STAT Fl.HIF_STAT_FW_READY 1 else t)
/-- LINK_UP (R535, R536): the link reaches L0 at a width of 4, 8 or 16 lanes (`width` 0, 1, 2) and a rate, in CXL or in PCIe
mode, with the options negotiated. -/
def execLinkUp (width : Fin 3) (speed : Fin 4) (cxl lopt ideIo ideCm : Bool) (s : State) : Out :=
  .next (if s.host.perst ∨ !s.sec.powered ∨ s.linkUp then s
    else
      let b := fun (x : Bool) => if x then 1 else 0
      let t := (s.setFld Reg.HIF_STAT Fl.HIF_STAT_LINK_UP 1).setFld Reg.HIF_STAT Fl.HIF_STAT_CXL (b cxl)
      let t := ((t.wr Reg.HIF_LINK 0).setFld Reg.HIF_LINK Fl.HIF_LINK_WIDTH (4 * 2 ^ width.val)).setFld Reg.HIF_LINK
        Fl.HIF_LINK_SPEED speed.val
      let t := (t.setFld Reg.HIF_LINK Fl.HIF_LINK_LOPT (b lopt)).setFld Reg.HIF_LINK Fl.HIF_LINK_IDE_IO (b ideIo)
      t.setFld Reg.HIF_LINK Fl.HIF_LINK_IDE_CM (b (ideCm && cxl)))
/-- CACHE_ENABLE (R535): the host sets Cache_Enable; fault parks that waited for the link end (R585). -/
def execCacheEnable (s : State) : Out :=
  .next (s.settle (if !s.cxl then s
    else
      let t := s.setFld Reg.HIF_STAT Fl.HIF_STAT_CACHE_EN 1
      let xs := (t.ctxs.filter fun e => e.2.st == .parking && e.2.resident.isNone).map fun e => e.1
      (xs.foldl (fun (t : State) x => t.faultParkEnd x) t).serve))
/-- HDM_DECODER_COMMIT (R535, R557): the decoder commits with 32 GiB and one way; `mem` is the host's Mem_Enable. -/
def execHdmDecoderCommit (gib ways : Nat) (mem : Bool) (s : State) : Out :=
  .next (if s.cxl then
      s.setFld Reg.HIF_STAT Fl.HIF_STAT_MEM_EN (if gib = 32 ∧ ways = 1 ∧ mem then 1 else 0)
    else s)

/-! ## Queues and doorbells (R543 to R545, R549, R551) -/

def State.hifRefused (s : State) : State := s.setFld Reg.HIF_STAT Fl.HIF_STAT_WRITE_REFUSED 1
/-- A queue table entry's fields in range (R543). -/
def entryBad (e : List Byte) : Bool :=
  leAt e 0 8 % 4096 != 0 || leAt e 8 8 % 4096 != 0 || decide (leAt e 16 1 < 4) || decide (16 < leAt e 16 1) ||
    decide (leAt e 17 1 < 4) || decide (16 < leAt e 17 1) || leAt e 18 1 == 0 || decide (16 < leAt e 18 1) ||
    decide (1 < leAt e 19 1) || decide (2047 < leAt e 20 2) || leAt e 22 1 == 0 || leAt e 23 1 != 0 || leAt e 28 32 != 0
/-- ENABLE (R536, R544): the queue is ENABLING and its entry is fetched; without CXL it is ERROR at once. -/
def State.queueEnable (s : State) (q : Nat) : State :=
  if (s.queue q).state ≠ qDisabled then s.hifRefused
  else if !s.cxl then s.queueError q 7
  else
    (s.setQueue q { queueZero with state := qEnabling }).emit (.hostRead ((s.rd Reg.HIF_QTABLE_ADDR).toNat + 64 * q) 64)
/-- DISABLE (R544): the queue drains; with nothing open it is DISABLED at once. An ERROR queue whose requests have all ended is
DISABLED at once too: completions that it still holds are dropped, and counted as those of R550 are (DESIGN CHOICE, log
entry 48). -/
def State.queueDisable (s : State) (q : Nat) : State :=
  let k := s.queue q
  if k.state = qError ∧ (s.openReqs q).isEmpty then
    (s.bump Reg.HIF_CPL_DROPPED Fl.HIF_CPL_DROPPED_COUNT k.waiting.length).setQueue q queueZero
  else if k.state = qActive ∨ k.state = qError then (s.setQueue q { k with state := qDraining }).queueDrained q
  else s.hifRefused
/-- A write of HIF.QCTL (R544): before FW_READY it is refused (R598); without GO it names no operation and does nothing
(DEDUCED, log entry 48). -/
def State.writeQctl (s : State) (v : Word) : State :=
  let w := v.setWidth 64
  let q := Fl.HIF_QCTL_QUEUE.get w
  let op := Fl.HIF_QCTL_OP.get w
  if !s.fwReady ∨ bitsOf v.toNat 14 17 ≠ 0 ∨ op = 3 then s.hifRefused
  else if s.fld Reg.HIF_QTABLE_COUNT Fl.HIF_QTABLE_COUNT_COUNT ≤ q then s.hifRefused
  else if Fl.HIF_QCTL_GO.get w = 0 then s
  else if op = 1 then s.queueEnable q
  else if op = 2 then s.queueDisable q
  else s.hifRefused
/-- QUEUE_ENTRY_FETCHED (R544, R551): a queue table entry arrives and is checked, or its fetch has failed. -/
def execQueueEntryFetched (q : QueueId) (entry : Option (List Byte)) (s : State) : Out :=
  .next (if (s.queue q.val).state ≠ qEnabling then s
    else
      match entry with
      | none => s.queueError q.val 1
      | some e =>
        let e := bytesAt e 0 64
        if crc32c (e.take 60) ≠ leAt e 60 4 then s.queueError q.val 2
        else if entryBad e then s.queueError q.val 3
        else s.setQueue q.val { queueZero with state := qActive, entry := e })
/-- QUEUE_DRAINED (R544): the last request of a draining queue has ended. -/
def execQueueDrained (q : QueueId) (s : State) : Out := .next (s.queueDrained q.val)
/-- A read of the doorbell BAR, at any offset: it completes with 0 and changes nothing (R541). The opcode table has no row for
it. -/
def State.doorbellRead (_ : State) (_ : BitVec 32) : Word := 0
/-- A doorbell write to a queue that is not ACTIVE is discarded and counted (R545). -/
def State.doorbell (s : State) (q : Nat) (f : Queue → State) : State :=
  let k := s.queue q
  if !s.linkUp then s
  else if k.state ≠ qActive then s.bump Reg.HIF_DB_IGNORED Fl.HIF_DB_IGNORED_COUNT
  else f k
/-- SQ_TAIL (R545, R546): descriptors up to the new tail are fetched. -/
def execSqTail (q : QueueId) (v : Word) (s : State) : Out :=
  .next (s.doorbell q.val fun k =>
    if k.sqSize ≤ v.toNat then s.queueError q.val 5 else s.setQueue q.val { k with sqTail := v.toNat })
/-- CQ_HEAD (R545, R548, R550): completion slots are free again. -/
def execCqHead (q : QueueId) (v : Word) (s : State) : Out :=
  .next (s.doorbell q.val fun k =>
    if k.cqSize ≤ v.toNat then s.queueError q.val 5 else s.setQueue q.val { k with cqHead := v.toNat })
/-- INTERRUPT_COALESCE (R549): COAL_TICKS have passed since the first completion not yet signalled. -/
def execInterruptCoalesce (q : QueueId) (s : State) : Out :=
  let k := s.queue q.val
  .next (if k.irqEn ∧ k.coalTicks ≠ 0 ∧ 0 < k.unsignalled then s.signalQueue q.val else s)

/-! ## Register reads over the Prompt net (R36, R542) -/

def allOnes (width : Nat) : DWord := if width = 4 then 0xFFFFFFFF else BitVec.allOnes 64
/-- REG_RESP (R542): an answer reaches the host interface block; one to a read that has timed out is discarded. -/
def execRegResp (id : Nat) (s : State) : Out :=
  .next (match s.findPn id with
    | none => s
    | some m =>
      match m.body with
      | .regResp _ v =>
        let t := s.takePn id
        match t.host.reads.find? fun r => r.1 == m.tag with
        | none => t
        | some r =>
          let t := { t with host.reads := t.host.reads.filter fun k => k.1 != m.tag }
          t.emit (.readData r.2.1 r.2.2 v)
      | _ => s)
/-- READ_TIMEOUT (R542): the oldest read unanswered completes with all ones. -/
def execReadTimeout (s : State) : Out :=
  .next (match s.host.reads with
    | [] => s
    | r :: rs =>
      let t := { s with host.reads := rs }.emit (.readData r.2.1 r.2.2 (allOnes r.2.2))
      (t.setFld Reg.HIF_STAT Fl.HIF_STAT_READ_TIMEOUT 1).bump Reg.HIF_READ_TIMEOUTS Fl.HIF_READ_TIMEOUTS_COUNT)

/-! ## The Pantry aperture (R556 to R560) -/

def State.memEn (s : State) : Bool := s.flag Reg.HIF_STAT Fl.HIF_STAT_MEM_EN
/-- The core and the Pantry offset of the line of an aperture offset. -/
def apCore (a : Nat) : Nat := bitsOf a 27 8
def apLine (a : Nat) : Nat := bitsOf a 6 21 * 64
def State.asleep (s : State) (c : Nat) : Bool := decide (3 ≤ s.sleep c)
def State.apAsleep (s : State) : State := s.bump Reg.HIF_AP_ASLEEP Fl.HIF_AP_ASLEEP_COUNT
/-- The lines that the snoop filter holds. -/
def snoopSize : Nat := 131072
/-- A line granted to the host, shared or for it to modify. -/
def State.grantLine (s : State) (line : Nat) (own : Bool) : State :=
  let had := s.tracked.any fun l => l.1 == line && l.2
  { s with tracked := (s.tracked.filter fun l => l.1 != line) ++ [(line, own || had)] }
/-- APERTURE_READ (R556 to R560): a line read whole under R194; `ask` 0 asks for no cached copy, 1 for a shared one, 2 for
one that the host may modify. With the filter full, the line least recently granted is back-invalidated first. -/
def execApertureRead (a : DWord) (ask : Fin 3) (s : State) : Out :=
  let c := apCore a.toNat
  let o := apLine a.toNat
  let line := a.toNat / 64
  .next (if !s.linkUp then s
    else if !s.memEn ∨ 2 ^ 35 ≤ a.toNat then
      s.drew.emit (.apertureData line ((List.range 64).map fun i => Config.undecoded s.fresh i) false)
    else if s.asleep c then s.apAsleep.emit (.apertureData line (List.replicate 64 0xFF) false)
    else if ask.val ≠ 0 ∧ snoopSize ≤ s.tracked.length ∧ !(s.tracked.any fun l => l.1 == line) then
      s.settle { s with biWant := (s.tracked.take 1).map fun l => l.1 }
    else
      let t := (wordsOf o 64).foldl (fun (t : State) w => t.checkWord c w) s
      let bad := t.poisonIn c o 64
      let t := if bad then t.bump Reg.HIF_AP_POISON Fl.HIF_AP_POISON_COUNT else t
      let t := if ask.val = 0 then t else t.grantLine line (ask.val == 2)
      t.emit (.apertureData line (t.bytes c o 64) bad))
/-- The enabled bytes of a line written; a word wholly written is valid again, one written in part stays poisoned (R195,
R559). -/
def State.apStore (s : State) (w : ApWrite) : State :=
  (List.range 8).foldl (fun (s : State) k =>
    let m := bitsOf w.be.toNat (8 * k) 8
    if m = 0 then s
    else
      let s := if m = 255 then s.setEcc w.core (w.off + 8 * k) .clean else s.checkWord w.core (w.off + 8 * k)
      (maskList 8 m).foldl (fun (s : State) i => s.setByte w.core (w.off + 8 * k + i) (w.data.getD (8 * k + i) 0)) s) s
/-- APERTURE_WRITE (R556, R560): the enabled bytes of one line; during a scrub of the core it waits for the end. -/
def execApertureWrite (a : DWord) (data : List Byte) (be : DWord) (s : State) : Out :=
  let c := apCore a.toNat
  let w : ApWrite := ⟨c, apLine a.toNat, data, be⟩
  .next (if !s.linkUp ∨ !s.memEn ∨ 2 ^ 35 ≤ a.toNat then s
    else if s.asleep c then s.apAsleep
    else if s.scrubbing c then { s with host.apWrites := s.host.apWrites ++ [w] }
    else s.apStore w)
/-- SCRUB_COMPLETE (R196, R387, R560): every line of the Pantry holds valid check bits, and what waits for it goes on. -/
def execScrubComplete (c : CoreId) (s : State) : Out :=
  .next (s.settle (if !s.scrubbing c.val then s
    else
      let t := (s.setFld (Reg.CORE_STAT c.val) Fl.CORE_STAT_SCRUB_BUSY 0).scrubWritten c.val
      let mine := t.host.apWrites.filter fun w => w.core == c.val
      let t := { t with host.apWrites := t.host.apWrites.filter fun w => w.core != c.val }
      (mine.foldl (fun (t : State) w => t.apStore w) t).powerPoll))
/-- BACK_INVALIDATE_RESPONSE (R558): the host gives up a line, with its data where it had modified it; they wait for a scrub
of the core as every write does (R196). -/
def execBackInvalidateResponse (line : DWord) (data : Option (List Byte)) (s : State) : Out :=
  let n := line.toNat
  .next (if !s.biSent.contains n then s
    else
      let t := { s with biSent := s.biSent.filter (fun k => k != n), tracked := s.tracked.filter fun l => l.1 != n }
      match data with
      | none => t
      | some d =>
        let w : ApWrite := ⟨apCore (64 * n), apLine (64 * n), bytesAt d 0 64, BitVec.allOnes 64⟩
        if t.asleep w.core then t
        else if t.scrubbing w.core then { t with host.apWrites := t.host.apWrites ++ [w] }
        else t.apStore w)
/-- HOST_SNOOP (R552): a miss, once no write of the line is in flight. -/
def execHostSnoop (line : DWord) (s : State) : Out :=
  let l := line.toNat / 64 * 64
  .next (if s.flyingOver l then { s with host.snoops := s.host.snoops ++ [l] } else s.emit (.snoopMiss l))

end Sys2Proof.Machine
end

