-- ==== Sys2Proof/Machine/CoreRegs.lean ====
section
/-! DEFINITION. Registers of the core windows with effects of their own: swing borrows (R220 to R222, R229), the record
window and the capture of the RACK block (R141, R651). -/

namespace Sys2Proof.Machine

/-! ## Swing borrows -/

def State.rifRefused (s : State) (c : Nat) : State := s.setFld (Reg.RIF_STAT c) Fl.RIF_STAT_WRITE_REFUSED 1
/-- A write of RIF.BORROW: refused in the cases of R221; EN 1 begins a borrow, which READY shows once the rack bus has
switched, and EN 0 ends one. -/
def State.writeBorrow (s : State) (c : Nat) (v : Word) : State :=
  let w := v.setWidth 64
  let q := Reg.RIF_BORROW c
  let en := Fl.RIF_BORROW_EN.get w
  let loc := Fl.RIF_BORROW_LOCAL.get w
  if 32 ≤ v.toNat ∨ (s.fires.any fun f => f.core == c) ∨ !s.flag (Reg.CORE_ID c) Fl.CORE_ID_SWING ∨ loc = c % 8 ∨
      (en = 1 ∧ s.flag q Fl.RIF_BORROW_EN) then s.rifRefused c
  else s.wr q (BitVec.ofNat 64 (en + 2 * loc))
/-- BORROW_READY (R220): the rack bus has switched. -/
def execBorrowReady (c : CoreId) (s : State) : Out :=
  let q := Reg.RIF_BORROW c.val
  .next (if s.flag q Fl.RIF_BORROW_EN then s.setFld q Fl.RIF_BORROW_READY 1 else s)

/-! ## Records (R141 to R143) -/

/-- The record that RACK.REC_SEL names: all ones for an INDEX beyond the range of its KIND. -/
def State.selectedRecord (s : State) (c : Nat) : List Nat :=
  let i := s.fld (Reg.RACK_REC_SEL c) Fl.RACK_REC_SEL_INDEX
  let ones := List.replicate 4 0xFFFFFFFF
  if s.flag (Reg.RACK_REC_SEL c) Fl.RACK_REC_SEL_KIND then (if i < 480 then (s.binRec (480 * c + i)).words else ones)
  else if i < 15360 then (s.rackRec (15360 * c + i)).words
  else ones
/-- A table of 16-byte records that holds `n` bytes from `off`, as device space 2 shows it, if a table does: the racks' at
0, the bins' at 0x4_0000, and those of a borrowed core at 0x400_0000 plus the same offsets (R141, R222). -/
def State.recordBytes (s : State) (c off n : Nat) : Option (List Byte) :=
  let table := fun (base count : Nat) (f : Nat → List Nat) =>
    if base ≤ off ∧ off + n ≤ base + 16 * count then
      let first := (off - base) / 16
      let last := (off - base + n + 15) / 16
      let bs := (List.range (last - first)).flatMap fun i => (f (first + i)).flatMap (leBytes 4)
      some (bytesAt bs (off - base - 16 * first) n)
    else none
  let tables := fun (at0 k : Nat) =>
    (table at0 15360 fun r => (s.rackRec (15360 * k + r)).words).or
      (table (at0 + 0x40000) 480 fun b => (s.binRec (480 * k + b)).words)
  (tables 0 c).or (match s.borrowOf c with
    | none => none
    | some k => tables 0x4000000 k)

/-! ## Capture (R141, R651) -/

/-- A write of RACK.CAPTURE_CTL: ARM 1 arms a capture and clears DONE. -/
def State.writeCapture (s : State) (c : Nat) (v : Word) : State :=
  let q := Reg.RACK_CAPTURE_CTL c
  let done := if v.getLsbD 24 then 0 else s.fld q Fl.RACK_CAPTURE_CTL_DONE
  s.wr q (BitVec.ofNat 64 (v.toNat % 2 ^ 25 + 2 ^ 25 * done))

end Sys2Proof.Machine
end

