-- ==== Sys2Proof/Machine/Registers.lean ====
section
/-! DEFINITION. Reads and writes of the register BAR: access codes, classes, halves, records, refusals and the writes that
act (R15 to R25, R36, R224, R397, R539, R540, R598, R650). -/

namespace Sys2Proof.Machine

/-! ## What a register's table says -/

/-- The bits of the fields that `p` selects. -/
def RegDesc.bits (d : RegDesc) (p : FieldDesc → Bool) : DWord :=
  BitVec.ofNat 64 (d.fields.foldl (fun a f => if p f then a + (2 ^ f.width - 1) * 2 ^ f.lsb else a) 0)
def RegDesc.rwBits (d : RegDesc) : DWord := d.bits fun f => f.access == .rw && !f.reserved
def RegDesc.w1cBits (d : RegDesc) : DWord := d.bits fun f => f.access == .w1c
def RegDesc.reservedBits (d : RegDesc) : DWord := d.bits FieldDesc.reserved
/-- A register that software can write: some field that is not reserved is not read-only. -/
def RegDesc.writable (d : RegDesc) : Bool := d.fields.any fun f => !f.reserved && f.access != .ro
/-- A register whose writable bits are all W1C. -/
def RegDesc.onlyClears (d : RegDesc) : Bool := d.fields.all fun f => f.reserved || f.access == .ro || f.access == .w1c
def RegDesc.hasClass (d : RegDesc) (c : FieldClass) : Bool := d.fields.any fun f => f.cls == c

/-! ## Refused writes (R650) -/

/-- The block of core window and region window that belongs to a core, and to a region. -/
def Block.ofCore : Block → Bool
  | .core => true
  | .seq => true
  | .wds => true
  | .eng => true
  | .vec => true
  | .rnd => true
  | .nrm => true
  | .rack => true
  | .rif => true
  | _ => false
def Block.ofRegion : Block → Bool
  | .stg => true
  | .arb => true
  | .cnv => true
  | .thr => true
  | _ => false

/-- A refused write sets the WRITE_REFUSED bit of the block it was addressed to. -/
def State.refuse (s : State) (i : Nat) (b : Block) : State :=
  match b with
  | .core | .wds | .eng | .vec | .rnd | .nrm => s.coreRefused i
  | .seq => s.seqRefused i
  | .rack => s.setFld (Reg.RACK_STAT i) Fl.RACK_STAT_WRITE_REFUSED 1
  | .rif => s.rifRefused i
  | .stg | .arb | .cnv | .thr => s.stgRefused i
  | .cel => s.celRefused
  | .srv => s.setFld Reg.SRV_STAT Fl.SRV_STAT_WRITE_REFUSED 1
  | .blk => s.blkRefused
  | .fab => s.setFld Reg.FAB_STAT Fl.FAB_STAT_WRITE_REFUSED 1
  | .lnk => s.lnkRefused
  | .pwr => s.pwrRefused
  | .thm => s.thmRefused
  | .hif => s.hifRefused
  | .dump => s.dumpRefused
  | .sec => s.secRefused
  | .id => s

/-! ## Idle blocks, for class Q (R20) -/

/-- Every port is DISABLED and no image is loaded. -/
def State.lnkIdle (s : State) : Bool :=
  ((List.range 32).all fun n => s.portState n == 0) && (List.range 16).all fun k => (s.slotRec k).isNone
/-- Every queue is DISABLED. -/
def State.queuesIdle (s : State) : Bool := s.queues.all fun e => e.2.state == qDisabled
/-- Whether the owner of a class Q register is idle. The registers that decide for themselves answer true here: RIF.BORROW,
BLK.LOAD_CTL and BLK.REBIND_CTL. -/
def State.idleFor (s : State) (i : Nat) (b : Block) (off : Nat) : Bool :=
  match b with
  | .seq => s.seq i == seqHalted || s.seq i == seqFaulted
  | .cel => !s.installing
  | .blk =>
    if off = Reg.BLK_LOAD_CTL ∨ off = Reg.BLK_REBIND_CTL then true
    else if Reg.BLK_REBIND_MASK 0 ≤ off then s.rebindState != rbBusy
    else s.loadIdle
  | .lnk => s.lnkIdle
  | .pwr => !s.curtainBusy && !(s.legacy && s.power.legacyUp != 2)
  | .hif =>
    if off = Reg.HIF_LOFT_BASE then s.fld Reg.SRV_STAT Fl.SRV_STAT_KNOWN == 0 else s.queuesIdle
  | .sec => s.fwState == fwIdle || s.fwState == fwStaged || s.fwState == fwFailed
  | _ => true

/-! ## Values that are reserved (R21) -/

def within (lo hi x : Nat) : Bool := decide (lo ≤ x) && decide (x ≤ hi)
/-- Whether the value of a class L or Q register lies in the ranges that its fields state. A value outside them is read as a
reserved code (DEDUCED, log entry 49). -/
def valueOk (off : Nat) (b : Block) (o : Nat) (v : DWord) : Bool :=
  match b with
  | .core => o != 0xC || v != 0
  | .seq => o != 0x14 || decide (Fl.SEQ_CODE_LIM_LO.get v ≤ Fl.SEQ_CODE_LIM_HI.get v)
  | .hif => off != Reg.HIF_QTABLE_COUNT || decide (v.toNat ≤ 4096)
  | .lnk => off != Reg.LNK_MODULE || decide (v.toNat < 48)
  | .pwr =>
    if off = Reg.PWR_BUDGET then
      decide (Fl.PWR_BUDGET_SUSTAINED_W.get v ≤ 12000) &&
        within (Fl.PWR_BUDGET_SUSTAINED_W.get v) 15000 (Fl.PWR_BUDGET_PEAK_W.get v)
    else if off = Reg.PWR_CURTAIN_ORDER then
      (List.range 16).all fun r => (List.range 16).any fun k => bitsOf v.toNat (4 * k) 4 == r
    else if off = Reg.PWR_INRUSH_CFG then within 1 100 (Fl.PWR_INRUSH_CFG_NEIGHBOUR_PCT.get v)
    else true
  | .thm =>
    if off = Reg.THM_LIMIT then within 60 105 (Fl.THM_LIMIT_TJ_LIMIT.get v) && within 2 20 (Fl.THM_LIMIT_MARGIN.get v)
    else if off = Reg.THM_FLOW_CFG then
      within 600 1200 (Fl.THM_FLOW_CFG_SET.get v) && within 10 50 (Fl.THM_FLOW_CFG_STOP_PCT.get v) &&
        within 20 200 (Fl.THM_FLOW_CFG_RATE.get v)
    else if off = Reg.THM_FLOW_TIMES then
      within 1000 30000 (Fl.THM_FLOW_TIMES_STOP_DARK.get v) && within 100 10000 (Fl.THM_FLOW_TIMES_RECOVER.get v)
    else if off = Reg.THM_FCAST then within 400 800 (Fl.THM_FCAST_CP.get v)
    else true
  | .dump => off != Reg.DUMP_FLT_CTL || decide (100 ≤ Fl.DUMP_FLT_CTL_HOST_MS.get v)
  | .cel => off != Reg.CEL_WEAR_SEL || decide (Fl.CEL_WEAR_SEL_BIN.get v < 480)
  | _ => true

/-! ## Writes that act -/

/-- A write of LNK.PORT_CTL_n (R437, R452, R598): ENABLE 1 trains a port that is DISABLED or REFUSED, ENABLE 0 takes it
DOWN, and RETRAIN trains it again. -/
def State.writePortCtl (s : State) (n : Nat) (v : DWord) : State :=
  let ctl := Reg.LNK_PORT_CTL n
  if !s.fwReady then s.lnkRefused
  else if Fl.LNK_PORT_CTL_ENABLE.get v = 0 then (if s.flag ctl Fl.LNK_PORT_CTL_ENABLE then s.portDisable n else s)
  else if s.portState n = 0 ∨ s.portState n = 4 then s.portEnable n
  else if Fl.LNK_PORT_CTL_RETRAIN.get v = 1 then s.retrain n
  else s
/-- A write of CEL.REFRESH_GO (R139, R598). -/
def State.refreshGo (s : State) (v : Word) : State := if s.fwReady then s.writeRefreshGo v else s.celRefused

/-- An accepted write of a register: the writes that act, and for every other register its read-write fields stored. `i` is
the window's core or region, `o` the offset in the block. -/
def State.act (s : State) (i : Nat) (b : Block) (o off : Nat) (d : RegDesc) (v : DWord) : State :=
  let w := v.setWidth 32
  let stored := s.wr off ((s.rd off &&& ~~~d.rwBits) ||| (v &&& d.rwBits))
  match b with
  | .core => if o = 0x14 then s.writeScrub i w else stored
  | .seq =>
    if o = 0 then s.writeSeqCtl i w
    else if o = 0x88 then s.writeCodeData i v
    else if o = 0x100 then s
    else if 0x300 ≤ o then State.serveWaits i ((o - 0x300) / 4) s.sigWaits.length stored
    else stored
  | .wds =>
    if o % 32 = 8 then s.writeWinCtl i (o / 32) w
    else if o % 32 = 0x18 ∧ v = 1 then s.commitWin i (o / 32)
    else s
  | .rnd => if o = 0xC then s.wr (Reg.RND_SAT_COUNT i) 0 else stored
  | .nrm => if o = 0xC ∧ v = 1 then s.commitNrm i else s
  | .rack => if o = 0x40 then s.writeCapture i w else stored
  | .rif => s.writeBorrow i w
  | .stg => if o = 8 then s.writeStgWake i w else if o = 0x20 then s.writeShortClr i w else stored
  | .srv =>
    if 0x8000 ≤ o then (if v = 1 then s.commitKv ((o - 0x8000) / 64) else s)
    else if 0x4000 ≤ o then
      (if o % 16 = 4 then (s.addBalance ((o - 0x4000) / 16) (v.toNat % 2 ^ 32)).serve else stored.serve)
    else if 0x400 ≤ o then (if v = 1 then s.commitTree ((o - 0x400) / 32) else s)
    else stored
  | .pwr =>
    if off = Reg.PWR_CURTAIN_CTL then s.writeCurtainCtl w
    else if off = Reg.PWR_LK_CTL then s.writeLkCtl w
    else if off = Reg.PWR_PHASE then s.writePhase w
    else stored
  | .thm =>
    if off = Reg.THM_TRIP_CLR then s.writeTripClr w
    else if off = Reg.THM_SUSPECT_CLR then s.writeSuspectClr w
    else stored
  | .sec => if off = Reg.SEC_FW_CTL then s.writeFwCtl w else stored
  | .dump =>
    if off = Reg.DUMP_CTL then s.writeDumpCtl w
    else if off = Reg.DUMP_REPLACE_CTL then s.writeReplaceCtl w
    else if off = Reg.DUMP_FAIL_CTL then s.writeFailCtl w
    else stored
  | .fab => s.writeFmapCtl w
  | .lnk =>
    if off = Reg.LNK_SPLIT_GO then s.writeSplitGo w
    else if 0x1000 ≤ o then s.writePortCtl ((o - 0x1000) / 64) v
    else stored
  | .cel =>
    if off = Reg.CEL_INST_CTL then s.writeInstCtl w
    else if off = Reg.CEL_REFRESH_GO then s.refreshGo w
    else if 0x1000 ≤ o ∧ o < 0x1200 then (if v = 1 then s.commitChk ((o - 0x1000) / 32) else s)
    else stored
  | .blk =>
    if off = Reg.BLK_LOAD_CTL then s.writeLoadCtl w else if off = Reg.BLK_REBIND_CTL then s.writeRebindCtl w else stored
  | .hif => if off = Reg.HIF_QCTL then s.writeQctl w else stored
  | _ => stored

/-! ## Writes -/

/-- A write of a whole register by its class (R15, R17, R20, R21). -/
def State.writeReg (s : State) (i : Nat) (b : Block) (o off : Nat) (d : RegDesc) (v : DWord) : State :=
  if !d.writable then s
  else if d.hasClass .staged then s.wrShadow off v
  else if d.onlyClears then s.wr off (s.rd off &&& ~~~(v &&& d.w1cBits))
  else if v &&& d.reservedBits ≠ 0 then s.refuse i b
  else if d.hasClass .quiesced && !s.idleFor i b off then s.refuse i b
  else if !valueOk off b o v then s.refuse i b
  else s.act i b o off d v

/-- Whether a register's logic is powered down: a core in Retain or Dark, or a port whose LK domain is off (R25, R452). -/
def State.unpowered (s : State) (i : Nat) (b : Block) (o : Nat) : Bool :=
  (b.ofCore && decide (3 ≤ s.sleep i)) || (b == .lnk && decide (0x1000 ≤ o) && decide (o < 0x1800) &&
    !s.lkOn ((o - 0x1000) / 64))
/-- Whether a window is that of a core that a load is writing, which refuses every other write (R393). -/
def State.inWrite (s : State) (i : Nat) (b : Block) : Bool :=
  b.ofCore && s.loadState == ldWrite && s.blk.load.any fun k => k.cores.contains i
/-- SP is off, so that the host interface block's mirror answers for the region windows (R36). -/
def State.mirrored (s : State) (b : Block) : Bool := b.ofRegion && !s.domainOn 25
/-- The distance of a block's SHADOW alias (R397). -/
def aliasAt (b : Block) : Option Nat :=
  match b with
  | .nrm => some 0x800
  | .wds => some 0x8000
  | .cel => some 0x8000
  | .srv => some 0x10000
  | _ => none
/-- The offset that an alias offset stands for. -/
def aliased (b : Block) (o : Nat) : Option Nat :=
  match aliasAt b with
  | none => none
  | some d => if d ≤ o then some (o - d) else none
def State.unmapped (s : State) : State := s.setFld Reg.HIF_STAT Fl.HIF_STAT_UNMAPPED 1
/-- The mirror takes every write of a region window at once, with SP on or off (R36). -/
def State.mirrorWrite (s : State) (b : Block) (off : Nat) : State :=
  if b.ofRegion then { s with host.mirror := swrite resetOf s.host.mirror off (s.view off) } else s

/-- An aligned 32-bit write. A half of a 64-bit register is written as the whole register with its other half unchanged
(R23); SEQ.CODE_DATA refuses one (R272). -/
def State.writeWord (s : State) (off : Nat) (v : Word) : State :=
  match locate off with
  | none => if 0x0F000000 ≤ off ∧ off < 0x0F010000 then s else s.unmapped
  | some (i, b, o) =>
    if s.unpowered i b o then s
    else if s.inWrite i b then s.refuse i b
    else
      match findReg b o with
      | some d =>
        if b = .seq ∧ o = 0x88 then s.refuse i b
        else if d.wide then
          s.writeReg i b o off d ((s.rd off &&& 0xFFFFFFFF00000000) ||| v.setWidth 64)
        else (s.writeReg i b o off d (v.setWidth 64)).mirrorWrite b off
      | none =>
        match (if o % 8 = 4 then (findReg b (o - 4)).filter RegDesc.wide else none) with
        | some d =>
          if b = .seq ∧ o = 0x8C then s.refuse i b
          else s.writeReg i b (o - 4) (off - 4) d ((s.rd (off - 4) &&& 0xFFFFFFFF) ||| (v.setWidth 64 <<< 32))
        | none => if (aliased b o).isSome then s.refuse i b else if b.ofCore then s else s.unmapped

/-- A write to the register BAR (R22, R23): an access that is not an aligned 32-bit or 64-bit one is discarded; a 64-bit one
to two 32-bit registers is two writes (DEDUCED, log entry 49). -/
def State.busWrite (s : State) (off width : Nat) (v : DWord) : State :=
  if width = 4 ∧ off % 4 = 0 then s.writeWord off (v.setWidth 32)
  else if width = 8 ∧ off % 8 = 0 then
    match locate off with
    | none => (s.writeWord off (v.setWidth 32)).writeWord (off + 4) ((v >>> 32).setWidth 32)
    | some (i, b, o) =>
      match (findReg b o).filter RegDesc.wide with
      | some d =>
        if s.unpowered i b o then s
        else if s.inWrite i b then s.refuse i b
        else s.writeReg i b o off d v
      | none => (s.writeWord off (v.setWidth 32)).writeWord (off + 4) ((v >>> 32).setWidth 32)
  else s

/-! ## Records that a read latches (R141, R145, R347, R503, R532, R563, R567, R610) -/

/-- The words of a record of `n` bytes. -/
def recordWords (n : Nat) (bs : List Byte) : List Nat := (List.range (n / 4)).map fun k => leAt bs (4 * k) 4
/-- The record that a read of its first word latches, and the state with its slot read. -/
def State.recordAt (s : State) (i : Nat) (off : Nat) : Option (State × List Nat) :=
  if off = Reg.RACK_REC_DATA_0 i then some (s, s.selectedRecord i)
  else if off = Reg.CEL_DRIFT_REC_0 then
    let k := s.fld Reg.CEL_DRIFT_SEL Fl.CEL_DRIFT_SEL_SLOT
    some ({ s with driftLog := ringRead s.driftLog k }, recordWords 16 (ringAt s.driftLog k).bytes)
  else if off = Reg.THR_LOG_REC_0 i then
    let k := 64 * i + s.fld (Reg.THR_LOG_SEL i) Fl.THR_LOG_SEL_SLOT
    some ({ s with thrLog := ringRead s.thrLog k }, recordWords 16 (ringAt s.thrLog k).bytes)
  else if off = Reg.DUMP_ERR_REC_0 then
    let k := s.fld Reg.DUMP_ERR_SEL Fl.DUMP_ERR_SEL_SLOT
    some ({ s with errLog := ringRead s.errLog k }, recordWords 32 (ringAt s.errLog k).bytes)
  else if off = Reg.SEC_LOG_REC_0 then
    let k := s.fld Reg.SEC_LOG_SEL Fl.SEC_LOG_SEL_SLOT
    some ({ s with sec.measLog := ringRead s.sec.measLog k }, recordWords 48 (ringAt s.sec.measLog k).bytes)
  else if off = Reg.SRV_CTX_DATA_0 then
    let x := s.fld Reg.SRV_CTX_SEL Fl.SRV_CTX_SEL_CONTEXT
    some (s, (List.range 4).map fun k => s.ctxWord x k)
  else if off = Reg.HIF_Q_DATA 0 then
    let q := s.fld Reg.HIF_Q_SEL Fl.HIF_Q_SEL_QUEUE
    some (s, (List.range 4).map fun k => s.queueWord q k)
  else none
/-- A register read whole, with what the read does. -/
def State.readReg (s : State) (i : Nat) (b : Block) (o off : Nat) : State × DWord :=
  if s.mirrored b then (s, sread resetOf s.host.mirror off)
  else if b = .seq ∧ o = 0x88 then s.readCodeData i
  else if b = .cnv ∧ 0x100 ≤ o ∧ o < 0x300 then
    (if o % 16 = 0 then
      let t := (List.range 3).foldl (fun (t : State) k =>
        let a := off + 4 * (k + 1)
        { t with power.cnvLatch := swrite resetOf t.power.cnvLatch a (s.view a) }) s
      (t, s.view off)
    else (s, sread resetOf s.power.cnvLatch off))
  else
    match s.recordAt i off with
    | some (t, ws) =>
      (ws.zipIdx.foldl (fun (t : State) p => t.wr (off + 4 * p.2) (BitVec.ofNat 64 p.1)) t,
        BitVec.ofNat 64 (ws.headD 0))
    | none => (s, s.view off)

/-! ## Reads -/

/-- The shadow copy at an alias offset: an S field reads its shadow, everything else 0 (R397). -/
def State.aliasRead (s : State) (b : Block) (off o : Nat) : Word :=
  match findReg b o with
  | none => 0
  | some d =>
    (s.rdShadow (off - (aliasAt b).getD 0) &&& d.bits fun f => f.cls == .staged).setWidth 32

/-- An aligned 32-bit read. The low half of a 64-bit register latches its high half, which the next read of the high half
returns (R23). While SP is off, an offset of a region window that no register of STG, ARB, CNV or THR has reads 0 (R540;
DESIGN CHOICE, log entry 73). -/
def State.readWord (s : State) (off : Nat) : State × Word :=
  match locate off with
  | none =>
    if 0x0F000000 ≤ off ∧ off < 0x0F010000 then (s.drew, (Config.componentReg s.fresh off).setWidth 32) else (s, 0)
  | some (i, b, o) =>
    if s.unpowered i b o then (s, 0xFFFFFFFF)
    else
      match findReg b o with
      | some d =>
        let r := s.readReg i b o off
        if d.wide then
          ({ r.1 with latches := swrite (fun _ => none) r.1.latches off (some ((r.2 >>> 32).setWidth 32)) },
            r.2.setWidth 32)
        else (r.1, r.2.setWidth 32)
      | none =>
        if o % 8 = 4 ∧ ((findReg b (o - 4)).any RegDesc.wide) then
          match sread (fun _ => none) s.latches (off - 4) with
          | some h => ({ s with latches := swrite (fun _ => none) s.latches (off - 4) none }, h)
          | none =>
            let r := s.readReg i b (o - 4) (off - 4)
            (r.1, (r.2 >>> 32).setWidth 32)
        else
          match aliased b o with
          | some p => (s, s.aliasRead b off p)
          | none => (s, 0)

/-- Two 32-bit reads of a 64-bit access, the low word first. -/
def State.readPair (s : State) (off : Nat) : State × DWord :=
  let lo := s.readWord off
  let hi := lo.1.readWord (off + 4)
  (hi.1, (hi.2.setWidth 64 <<< 32) ||| lo.2.setWidth 64)
/-- A read of the register BAR (R22, R23): any access but an aligned 32-bit or 64-bit one returns all ones. -/
def State.busRead (s : State) (off width : Nat) : State × DWord :=
  if width = 4 ∧ off % 4 = 0 then
    let r := s.readWord off
    (r.1, r.2.setWidth 64)
  else if width = 8 ∧ off % 8 = 0 then
    match locate off with
    | none => s.readPair off
    | some (i, b, o) =>
      if ((findReg b o).any RegDesc.wide) && !s.unpowered i b o then s.readReg i b o off else s.readPair off
  else (s, allOnes width)

end Sys2Proof.Machine
end

