-- ==== Sys2Proof/Machine/Vector.lean ====
section
/-! DEFINITION. The vector unit (R213 to R216, R255 to R258, R323). -/

namespace Sys2Proof.Machine

/-! ## The fields of R255 -/

def vMon (i : Word) : Nat := immF i 0 3
def vMonOn (i : Word) : Bool := immB i 3
def vSk (i : Word) : Nat := immF i 4 2
def vSi (i : Word) : Nat := immF i 6 5
def vAb (i : Word) : Nat := immF i 11 3
def vAl (i : Word) : Nat := immF i 14 3
def vLe (i : Word) : Bool := immB i 17
def vDf (i : Word) : Nat := immF i 18 4
def vGx (i : Word) : Nat := immF i 22 5
def vXs (i : Word) : Bool := immB i 27
def vFree (i : Word) : Bool := immB i 28
def vBf (i : Word) : Bool := immB i 29
def vSf (i : Word) : Bool := immB i 30

/-! ## Counts and ranges -/

/-- GATED: the source holds two halves (R256). -/
def isGated (opc fn : Nat) : Bool := opc == 0x64 && fn == 3
/-- Elements that an operation reads, and the elements that it writes as a vector. -/
def srcCount (opc fn n : Nat) (gv : DWord) : Nat :=
  if isGated opc fn then 2 * n
  else if opc = 0x65 then 2 * n
  else if opc = 0x63 then n * (gv.toNat % 2 ^ 32)
  else n
def dstCount (opc n : Nat) (gv : DWord) : Nat :=
  if opc = 0x65 then 2 * n else if opc = 0x63 then n * (gv.toNat % 2 ^ 32) else n
/-- Bytes of `n` elements in a destination format (R255, R257). -/
def dfBytes (df : Nat) (le : Bool) (n : Nat) : Nat :=
  if df = 0 then 4 * n
  else if df = 1 then 2 * n
  else if df ≤ 4 then n
  else if df = 5 then (n + 1) / 2
  else 17 * ((n + 31) / 32) + (if le then 128 else 0)
/-- The k of TOPK (R256). -/
def topkOf (gv : DWord) : Nat := gv.toNat % 64
def outBytesOf (opc df : Nat) (le : Bool) (n : Nat) (gv : DWord) : Nat :=
  if opc = 0x61 then 0
  else if opc = 0x68 then 4 * topkOf gv
  else if opc = 0x69 then 4
  else dfBytes df le (dstCount opc n gv)
/-- Bytes that an operation reads from the Pantry as its source. -/
def srcBytesOf (opc fn : Nat) (sf : Bool) (n : Nat) (gv : DWord) : Nat :=
  if opc = 0x67 then 17 * ((n + 31) / 32) else srcCount opc fn n gv * (if sf then 4 else 2)
/-- Bytes of the second operand at a[AB]; 0 where the function has none. -/
def secondBytesOf (opc fn ab : Nat) (bf : Bool) (n : Nat) (gv : DWord) : Nat :=
  if opc = 0x60 then (if fn = 6 then 0 else n * (if bf then 4 else 2))
  else if opc = 0x62 then 2 * n
  else if opc = 0x64 then (if ab = 0 then 0 else srcCount opc fn n gv * (if bf then 4 else 2))
  else if opc = 0x65 then n * Config.ropeEntryBytes
  else 0

/-! ## Reading operands -/

/-- A source element with its tags: saturated and non-finite. -/
abbrev Elem := Word × Bool × Bool

/-- A float element of the Pantry, FP32 or BF16; a poisoned one is NaN (R195). -/
def State.floatAt (s : State) (c off : Nat) (wide : Bool) : Word :=
  let n := if wide then 4 else 2
  if s.poisonIn c off n then fnan
  else if wide then BitVec.ofNat 32 (leNat (s.bytes c off 4))
  else BitVec.ofNat 32 (leNat (s.bytes c off 2)) <<< 16

/-- Elements read from the Pantry as BF16 that are NaN meet a conversion to FP32, and a poisoned element sets NONFINITE
too (R55, R63, R195). -/
def State.floatNf (s : State) (c off : Nat) (wide : Bool) : Bool :=
  s.poisonIn c off (if wide then 4 else 2) || (!wide && fisNan (s.floatAt c off wide))

/-- The key of an accumulator source's first entry. -/
def VecOp.accFrom (o : VecOp) : Nat := (o.core * 24 + vSi o.imm) * 16384 + o.src
/-- The elements of a vector operation's source. Tags do not stay with values in the Pantry: they travel through the vector
unit only (R79, R216; DEDUCED, log entry 68). -/
def State.vecSource (s : State) (o : VecOp) : List Elem :=
  let n := srcCount o.opc o.fn o.n o.gv
  if vSk o.imm = 1 then o.held
  else if vSk o.imm = 2 then
    (List.range n).map fun i =>
      let a := s.accAt (o.accFrom + i)
      (toFp32 a.val, false, a.tag)
  else
    (List.range n).map fun i =>
      (s.floatAt o.core (o.src + i * (if vSf o.imm then 4 else 2)) (vSf o.imm), false, false)

/-- The elements of DEQUANT: code × scale in FP32; a code out of its format's range, or a poisoned scale, gives NaN, and a
poisoned code reads as 0 and is tagged (R195, R256). -/
def State.dequantSource (s : State) (o : VecOp) : List Elem :=
  (List.range o.n).map fun i =>
    let at' := o.src + 17 * (i / 32)
    let codeAt := at' + 1 + i % 32 / 2
    let sc := if s.poisonedAt o.core at' then FVal.nan else fmtE4m3.decode (s.byte o.core at').toNat
    let bad := s.poisonedAt o.core codeAt
    let code := if bad then 0 else intOf 4 ((s.byte o.core codeAt).toNat / (if i % 2 = 0 then 1 else 16))
    let fmt := if o.fn ≤ 1 then 0 else o.fn - 1
    (if codeOk fmt code then toFp32 ((FVal.ofInt code).mul sc) else fnan, false, bad)

/-! ## The functions of R214 -/

def elemFn (fn : Nat) (x y g : Word) : Word :=
  if fn = 0 then fadd x y
  else if fn = 1 then fsub x y
  else if fn = 2 then fmul x y
  else if fn = 3 then ffma x g y
  else if fn = 4 then fmin x y
  else if fn = 5 then fmax x y
  else x

/-- The mean square of a vector, its terms added in the free order of draw `d`. -/
def meanSquare (d : Nat) (xs : List Word) : Word :=
  fdiv (fsum (freeOrder d (xs.map fun x => fmul x x))) (ofNat32 xs.length)

def fmaxList (xs : List Word) : Word := xs.foldl fmax (xs.headD 0)

/-- The values of a row less its maximum, each rounded (R65). -/
def lessMax (xs : List Word) : List Word := xs.map fun x => fsub x (fmaxList xs)
/-- Softmax of a row (R214, R215). -/
def softmaxRow (d base : Nat) (xs : List Word) : List Word :=
  let m := fmaxList xs
  if !ffinite m then xs.map fun _ => fnan
  else
    let es := (lessMax xs).zipIdx.map fun p => nearUlp d (base + p.2) (FVal.exp (fp32 p.1))
    let t := fsum (freeOrder d es)
    es.map fun e => fdiv e t

def silu (d i : Nat) (x : Word) : Word := fmul x (nearUlp d i (fp32 x).sigmoid)
/-- GELU in tanh form, with √(2/π) and 0.044715 as FP32. -/
def geluArg (x : Word) : Word := fmul 0x3F4C422A (fadd x (fmul 0x3D372713 (fmul x (fmul x x))))
def gelu (d i : Nat) (x : Word) : Word :=
  fmul (fmul 0x3F000000 x) (fadd 0x3F800000 (nearUlp d i (fp32 (geluArg x)).tanh))
def actFn (fn d i : Nat) (x : Word) : Word :=
  if fn = 0 then fmax x 0 else if fn = 1 then silu d i x else if fn = 2 then gelu d i x else x

/-- The rank of a value for TOPK: whether `x` at index `i` goes before `y` at index `j` (R256). -/
def ranksBefore (x : Word) (i : Nat) (y : Word) (j : Nat) : Bool :=
  if fisNan x then !fisNan y || decide (i < j)
  else if fisNan y then false
  else if fgt x y then true
  else if fgt y x then false
  else decide (i < j)
def insertRank (x : Word × Nat) : List (Word × Nat) → List (Word × Nat)
  | [] => [x]
  | y :: ys => if ranksBefore x.1 x.2 y.1 y.2 then x :: y :: ys else y :: insertRank x ys
/-- Values with their indices in descending order. -/
def ranked (xs : List Word) : List (Word × Nat) := xs.zipIdx.foldr insertRank []

/-! ## SAMPLE (R323) -/

/-- The shortest run of values, in the order given, whose running FP32 sum reaches `top` / 256. -/
def nucleus (top : Nat) : Word → List (Word × Nat) → List (Word × Nat)
  | _, [] => []
  | a, x :: xs =>
    let a' := fadd a x.1
    if (fp32 a').lt (.fin false top 256) then x :: nucleus top a' xs else [x]
/-- The first candidate at which the running sum exceeds a threshold; the last one if none does. -/
def pick (thr : Word) : Word → List (Word × Nat) → Nat
  | _, [] => 0
  | _, [x] => x.2
  | a, x :: xs => if fgt (fadd a x.1) thr then x.2 else pick thr (fadd a x.1) xs

/-- Logits over the temperature, a BF16 code, each rounded. -/
def tempered (temp : Nat) (zs : List Word) : List Word := zs.map fun z => toFp32 ((fp32 z).div (fmtBf16.decode temp))
/-- Whether a draw meets an infinity that arises on the way (R65): its input is then tagged. -/
def sampleOver (temp : Nat) (zs : List Word) : Bool :=
  !(fmtBf16.decode temp).isZero &&
    ((tempered temp zs).any fun z => !ffinite z) || (lessMax (tempered temp zs)).any fun z => !ffinite z
/-- One token drawn from logits: temperature as BF16 code, cuts, and the 64-bit draw `u`, each operation in FP32. -/
def sampleToken (d temp topK topP u : Nat) (zs : List Word) : Nat :=
  let t := fmtBf16.decode temp
  if t.isZero then ((ranked zs).map fun p => p.2).headD 0
  else
    let ps := softmaxRow d 0 (tempered temp zs)
    let all := if topK = 0 ∧ topP = 0 then ps.zipIdx else ranked ps
    let kept := if topK = 0 then all else all.take topK
    let kept := if topP = 0 then kept else nucleus topP 0 kept
    let sum := fsum (kept.map fun p => p.1)
    pick (fmul (toFp32 (.fin false u (2 ^ 64))) sum) 0 kept

/-! ## Results -/

/-- What an operation computes: the FP32 elements of its result vector with their sources' tags by block of the
result, and the value its monitor sample is taken from. -/
structure VecResult where
  vals : List Word
  sat : List Bool
  nonfinite : List Bool

/-- The tags of 32-element blocks of `es`. -/
def blockTags (f : Elem → Bool) (es : List Elem) : List Bool := (rowsOf 32 (es.length + 1) es).map fun b => b.any f
def elemSat (e : Elem) : Bool := e.2.1
def elemNf (e : Elem) : Bool := e.2.2 || !ffinite e.1

/-- The source of ACT with the addend of R74 added, tagged as the blocks of both and as their sum (R65, R216). -/
def State.addAddend (s : State) (o : VecOp) (es : List Elem) : List Elem :=
  if vAb o.imm = 0 then es
  else es.zipIdx.map fun p =>
    let y := s.floatAt o.core (o.second + p.2 * (if vBf o.imm then 4 else 2)) (vBf o.imm)
    (fadd p.1.1 y, p.1.2.1, elemNf p.1 || !ffinite y)

/-- The functions that produce a vector, from their source elements, with the draw `d`. -/
def State.vecValues (s : State) (d : Nat) (o : VecOp) (es : List Elem) : VecResult :=
  let xs := es.map fun e => e.1
  let second := fun (i : Nat) (wide : Bool) => s.floatAt o.core (o.second + i * (if wide then 4 else 2)) wide
  let bf := vBf o.imm
  let sat := blockTags elemSat es
  let nf := blockTags elemNf es
  let anySat := es.any elemSat
  let anyNf := es.any elemNf
  let gx := o.gv.setWidth 32
  if o.opc = 0x60 then
    let ys := (List.range o.n).map fun i => if o.fn = 6 then 0 else second i bf
    let nf2 := blockTags elemNf (ys.map fun y => (y, false, false))
    ⟨List.zipWith (fun x y => elemFn o.fn x y gx) xs ys, sat, List.zipWith (fun a b => a || b) nf nf2⟩
  else if o.opc = 0x62 then
    let ms := if vXs o.imm then (o.gv >>> 32).setWidth 32 else meanSquare d xs
    let r := nearUlp d 0 (FVal.rsqrt (fp32 (fadd ms gx)))
    -- an infinite mean square makes every output non-finite for R65, whatever its value
    ⟨xs.zipIdx.map fun p => fmul (fmul p.1 r) (second p.2 false), sat.map fun _ => anySat,
      nf.map fun _ => anyNf || !ffinite (fadd ms gx)⟩
  else if o.opc = 0x63 then
    let rows := rowsOf o.n (xs.length + 1) xs
    let ys := (rows.zipIdx.map fun p => softmaxRow d (p.2 * o.n) p.1).flatten
    let ovf := rows.any fun r => (lessMax r).any fun w => !ffinite w
    ⟨ys, sat.map fun _ => anySat, nf.map fun _ => anyNf || ovf⟩
  else if o.opc = 0x64 then
    let es := s.addAddend o es
    let es := if o.fn = 2 then es.map fun e => (e.1, e.2.1, e.2.2 || !ffinite (geluArg e.1)) else es
    let xs := es.map fun e => e.1
    if o.fn = 3 then
      let a := xs.take o.n
      let b := xs.drop o.n
      let ta := es.take o.n
      let tb := es.drop o.n
      ⟨(List.zipWith (fun (p : Word × Nat) y => fmul (silu d p.2 p.1) y) a.zipIdx b),
        List.zipWith (fun x y => x || y) (blockTags elemSat ta) (blockTags elemSat tb),
        List.zipWith (fun x y => x || y) (blockTags elemNf ta) (blockTags elemNf tb)⟩
    else ⟨xs.zipIdx.map fun p => actFn o.fn d p.2 p.1, blockTags elemSat es, blockTags elemNf es⟩
  else if o.opc = 0x65 then
    let pos := o.gv.toNat
    let n := secondBytesOf o.opc o.fn (vAb o.imm) bf o.n o.gv
    let table := (s.bytes o.core o.second n).zip (s.badBytes o.core o.second n)
    ⟨((List.range o.n).map fun i =>
        let x0 := xs.getD (2 * i) 0
        let x1 := xs.getD (2 * i + 1) 0
        let bad := ((table.drop (Config.ropeEntryBytes * i)).take Config.ropeEntryBytes).any fun e => e.2
        let c := if bad then fnan else Config.ropeCos table pos i
        let n := if bad then fnan else Config.ropeSin table pos i
        [fsub (fmul x0 c) (fmul x1 n), fadd (fmul x0 n) (fmul x1 c)]).flatten, sat, nf⟩
  else ⟨xs, sat, nf⟩

/-- The entries of a spotlight list up to its end, each with whether it is poisoned: it then reads as 0 (R195, R257). -/
def State.spotEntries (s : State) (o : VecOp) : List (Nat × Bool) :=
  ((List.range 64).map fun i =>
    let bad := s.poisonIn o.core (o.list + 2 * i) 2
    (if bad then 0 else leNat (s.bytes o.core (o.list + 2 * i) 2), bad)).takeWhile fun v => v.1 != 0xFFFF
/-- The channels of a spotlight list. -/
def State.spotList (s : State) (o : VecOp) : List Nat := (s.spotEntries o).map fun v => v.1
/-- A spotlight list that an operation reads has a poisoned entry. -/
def State.spotsBad (s : State) (o : VecOp) : Bool := vLe o.imm && (s.spotEntries o).any fun v => v.2

/-- Whether an operation's conversion on write draws stochastically as the write-back of an adapter weight: RND.CTL.SR_ADAPT is
set, and the destination lies in a bank not in force that an adaptation step in flight writes (R67, R68, R346; DEDUCED,
log entry 69). -/
def State.adaptSr (s : State) (c off : Nat) : Bool :=
  s.flag (Reg.RND_CTL c) Fl.RND_CTL_SR_ADAPT && bitOf (s.bind c).flags 4 && s.bound c && s.passes.any fun q =>
    q.kind == 3 && q.part == s.partOf c &&
      (match s.part q.part, (s.ctx q.ctx).slot with
        | some p, some a =>
          let base := p.bankAt a (!(s.ctx q.ctx).bank)
          decide (base ≤ off) && decide (off < base + p.adapterBytes)
        | _, _ => false)

/-- The bytes of a vector in a destination format, the statuses of its conversions, and which 32-element blocks were
quantised from non-finite values (R55, R255, R257). -/
def State.writeFormat (s : State) (d : Nat) (o : VecOp) (vals : List Word) : List Byte × ConvFlags × List Bool :=
  let df := vDf o.imm
  let rnd := fun i => rndAt (o.sr || s.adaptSr o.core o.dst) d i
  if df = 6 then
    let spots := if vLe o.imm then s.spotList o else []
    let vs := vals.zipIdx.map fun p => if spots.contains p.2 then FVal.fin false 0 1 else fp32 p.1
    let qs := (rowsOf 32 (vs.length + 1) vs).zipIdx.map fun p => quantKa4 (fun i => rnd (32 * p.2 + i)) p.1
    -- the spotlight path carries no stochastic rounding (R76), and an index from g[GN] on writes +0.0 (R257)
    let ws := spots.map fun c => if o.n ≤ c then (⟨0, false, false, false⟩ : Conv)
      else fmtBf16.convert true .even (fp32 (vals.getD c 0))
    let extra := ws.any fun v => v.nonfinite || v.code % 0x8000 == 0x7F80
    let tail := if vLe o.imm then bytesAt ((ws.map fun v => leBytes 2 v.code).flatten) 0 128 else []
    ((qs.map fun q => q.1.bytes).flatten ++ tail,
      (qs.foldl (fun a q => a.or q.2) ConvFlags.none).or ⟨extra, false, false, false⟩, qs.map fun q => q.2.nonfinite)
  else if df = 5 then
    let cs := vals.zipIdx.map fun p => convertInt 4 (rnd p.2) (fp32 p.1)
    ((rowsOf 2 (cs.length + 1) cs).map fun r =>
        BitVec.ofNat 8 ((r.map Conv.code).getD 0 0 % 16 + 16 * ((r.map Conv.code).getD 1 0 % 16)), convFlags cs, [])
  else
    let conv := fun (i : Nat) (w : Word) =>
      if df = 0 then (⟨w.toNat, fisNan w, false, false⟩ : Conv)
      else if df = 1 then fmtBf16.convert true (rnd i) (fp32 w)
      else if df = 2 then fmtE4m3.convert true (rnd i) (fp32 w)
      else if df = 3 then fmtE5m2.convert true (rnd i) (fp32 w)
      else convertInt 8 (rnd i) (fp32 w)
    let size := if df = 0 then 4 else if df = 1 then 2 else 1
    let cs := vals.zipIdx.map fun p => conv p.2 p.1
    ((cs.map fun v => leBytes size v.code).flatten, convFlags cs, [])

/-! ## Completion -/

/-- Bits [31:0] or [63:32] of a general register replaced. -/
def State.setLow (s : State) (c n : Nat) (w : Word) : State := s.setG c n ((s.g c n).extractLsb' 32 32 ++ w)
def State.setHigh (s : State) (c n : Nat) (w : Word) : State := s.setG c n (w ++ (s.g c n).extractLsb' 0 32)

/-- Whether what an operation reads from the Pantry sets NONFINITE: a poisoned element, or a NaN of BF16 or of a block's
scale that is converted to FP32 (R55, R63, R195). -/
def State.readNf (s : State) (o : VecOp) : Bool :=
  let c := o.core
  let n := srcCount o.opc o.fn o.n o.gv
  let from' := fun off wide k => (List.range k).any fun i => s.floatNf c (off + i * (if wide then 4 else 2)) wide
  (if o.opc = 0x67 then s.poisonIn c o.src (17 * ((o.n + 31) / 32)) ||
      (List.range ((o.n + 31) / 32)).any fun b => decide (fmtE4m3.decode (s.byte c (o.src + 17 * b)).toNat = .nan)
    else vSk o.imm == 0 && from' o.src (vSf o.imm) n) ||
  (if o.opc = 0x60 then o.fn != 6 && from' o.second (vBf o.imm) o.n
    else if o.opc = 0x62 then from' o.second false o.n
    else if o.opc = 0x65 then s.poisonIn c o.second (secondBytesOf o.opc o.fn (vAb o.imm) (vBf o.imm) o.n o.gv)
    else o.opc == 0x64 && vAb o.imm != 0 && from' o.second (vBf o.imm) n) || s.spotsBad o

/-- The ranges that an operation reads from the Pantry, checked for errors. -/
def State.vecReads (s : State) (o : VecOp) : State :=
  let k := if vSk o.imm = 2 then srcCount o.opc o.fn o.n o.gv else 0
  let lost := (List.range k).any fun i => s.accLost (o.accFrom + i)
  let s := s.sticky (Reg.RND_STATUS o.core) Fl.RND_STATUS_NONFINITE (s.readNf o || lost)
  let s := s.checkAccs o.core o.accFrom k
  let s := if vSk o.imm = 0 then s.checkRange o.core o.src (srcBytesOf o.opc o.fn (vSf o.imm) o.n o.gv) else s
  let s := s.checkRange o.core o.second (secondBytesOf o.opc o.fn (vAb o.imm) (vBf o.imm) o.n o.gv)
  if vLe o.imm then s.checkRange o.core o.list 128 else s

/-- A vector operation ends: its counters, FREE, and its token (R228, R255). VEC.ELEMS counts the elements of the vector
written, not spotlight values and not a mean square that XS stores (DESIGN CHOICE, log entry 79). -/
def State.vecEnd (s : State) (o : VecOp) (elems status : Nat) : State :=
  let s := { s with vecOps := removeFirst o s.vecOps }
  let s := (s.count (Reg.VEC_OPS o.core)).count (Reg.VEC_ELEMS o.core) elems
  let s := match o.frees with
    | none => s
    | some t => s.freeBuf o.core t
  s.tokComplete o.core o.tok status

/-- The sample of R77, if the operation names a monitor point. -/
def State.vecSample (s : State) (d : Nat) (o : VecOp) (ms : Word) (r : VecResult) : State :=
  let _ := d
  if vMonOn o.imm then s.sample o.core (vMon o.imm) ms (r.nonfinite.any id) (r.sat.any id) else s

/-- A function that produces a vector. -/
def State.runVector (s : State) (o : VecOp) : State :=
  let d := s.fresh
  let es := if o.opc = 0x67 then s.dequantSource o else s.vecSource o
  let r := s.vecValues d o es
  let w := s.writeFormat d o r.vals
  let nf := List.zipWith (fun a b => a || b || s.spotsBad o) r.nonfinite
    (blockTags elemNf (r.vals.map fun v => (v, false, false)))
  let ms := if o.opc = 0x62 then (if vXs o.imm then (o.gv >>> 32).setWidth 32 else meanSquare d (es.map fun e => e.1))
    else meanSquare d r.vals
  let tagged := r.sat.any id || nf.any id || w.2.2.any id
  let s := (s.drew.vecReads o).store o.core o.dst w.1
  let s := s.noteConv o.core w.2.1
  let s := if o.opc = 0x60 && vXs o.imm then s.setHigh o.core o.gx (meanSquare d r.vals) else s
  let s := s.vecSample d o ms ⟨r.vals, r.sat, nf⟩
  s.vecEnd o r.vals.length (if tagged then stTagged else stOk)

/-- REDUCE (R214, R256): the result in g[GX][31:0], which VEC.ELEMS counts as one element (DESIGN CHOICE, log entry 79). -/
def State.runReduce (s : State) (o : VecOp) : State :=
  let d := s.fresh
  let es := s.vecSource o
  let xs := es.map fun e => e.1
  let v := if o.fn = 0 then fsum (freeOrder d xs)
    else if o.fn = 1 then fmaxList xs
    else fsum (freeOrder d (xs.map fun x => fmul x x))
  let tagged := es.any elemSat || es.any elemNf || !ffinite v
  ((s.drew.vecReads o).setLow o.core o.gx v).vecEnd o 1 (if tagged then stTagged else stOk)

/-- TOPK (R256): the indices of the k largest, the rest 0xFFFF_FFFF. Indices carry no tag of R216: DEDUCED, log entry
65. -/
def State.runTopk (s : State) (o : VecOp) : State :=
  let es := s.vecSource o
  let k := topkOf o.gv
  let ids := (((ranked (es.map fun e => e.1)).map fun p => p.2).take k)
  let ids := ids ++ List.replicate (k - ids.length) 0xFFFFFFFF
  ((s.vecReads o).store o.core o.dst (ids.map fun i => leBytes 4 i).flatten).vecEnd o k stOk

/-- A context that a core's partition serves now: known, and resident or with a request running. -/
def State.serves (s : State) (c x : Nat) : Bool :=
  let k := s.ctx x
  s.bound c && k.part == s.partOf c && (k.st == .resident || k.st == .active)

/-- SAMPLE (R322, R323): the draw of the context at GEN_POS, moved on by the draws of the pass in flight. -/
def State.runSample (s : State) (o : VecOp) : State :=
  let d := s.fresh
  let x := o.gv.toNat % 65536
  let k := s.ctx x
  let es := s.vecSource o
  if !s.serves o.core x then (s.vecReads o).vecEnd o 0 stContext
  else
    let t := sampleToken d k.temperature k.topK k.topP (shakeDraw k.seed (k.genPos + k.draws)) (es.map fun e => e.1)
    let s := (s.drew.vecReads o).store o.core o.dst (leBytes 4 t)
    let s := s.setCtx x { k with draws := k.draws + 1 }
    let add : Pass → Pass := fun q => if q.ctx = x then { q with tokens := q.tokens ++ [t] } else q
    let s := { s with passes := s.passes.map add }
    s.vecEnd o 1 (if es.any elemSat || es.any elemNf || sampleOver k.temperature (es.map fun e => e.1) then stTagged else stOk)

/-- VEC_OP_COMPLETE (R213, R238): the oldest operation of the vector unit writes its result and completes. -/
def State.vecDone (s : State) (c : CoreId) : State :=
  s.settle (match s.vecOps.find? fun o => o.core == c.val with
    | none => s
    | some o =>
      if o.opc = 0x61 then s.runReduce o
      else if s.scrubbing c.val then s
      else if o.opc = 0x68 then s.runTopk o
      else if o.opc = 0x69 then s.runSample o
      else s.runVector o)

/-! ## Issue (R255, R256, R258) -/

/-- Whether a DF is allowed for a function (R256). -/
def dfOk (opc df : Nat) : Bool :=
  if opc = 0x61 then df == 7
  else if opc = 0x66 then decide (1 ≤ df) && decide (df ≤ 6)
  else if opc = 0x68 ∨ opc = 0x69 then df == 0
  else decide (df ≤ 6)
/-- The largest FN of a function. -/
def fnMax (opc : Nat) : Nat :=
  if opc = 0x60 then 6 else if opc = 0x61 then 2 else if opc = 0x64 then 3 else if opc = 0x67 then 3 else 0

/-- ILLEGAL under R255, R256 and R258. -/
def vecIllegal (opc : Nat) (f : UFmt) (gv : DWord) : Bool :=
  let i := f.imm
  let scalar := decide (opc = 0x61) || decide (opc = 0x68) || decide (opc = 0x69)
  decide (fnMax opc < f.fn.toNat) || !dfOk opc (vDf i) || (vLe i && vDf i != 6) || (vFree i && vSk i != 1) ||
    vSk i == 3 || (vSk i == 1 && decide (16 ≤ vSi i)) || (vSk i == 2 && decide (24 ≤ vSi i)) ||
    (opc == 0x67 && vSk i != 0) || (scalar && vMonOn i) || (vXs i && opc != 0x60 && opc != 0x62) || immB i 31 ||
    (opc == 0x68 && (topkOf gv == 0 || decide (32 < topkOf gv)))

/-- The output buffer that a DONE token of a fire holds. -/
def State.bufferOf (s : State) (c t : Nat) : Option OutBuf :=
  if s.tok c t = tokDone then s.outBufs.find? fun b => b.core == c && b.tok == t else none
/-- Elements of a token's outputs with their tags; an element lost to an error of the buffer reads as NaN, and its block is
tagged (R569). -/
def State.bufferElems (s : State) (c t from' n : Nat) : List Elem :=
  match s.bufferOf c t with
  | none => []
  | some b => (List.range n).map fun i =>
      let e := from' + i
      let gone := b.lost.any fun k => k / 32 == e / 32
      (if b.lost.contains e then fnan else b.vals.getD e 0, b.sat.getD (e / 32) false, b.nonfinite.getD (e / 32) false || gone)

/-- A vector instruction: its checks, then its operation in the queue of 16. -/
def vecIssue (opc : Byte) (c : CoreId) (f : UFmt) (s : State) : State :=
  let k := c.val
  let i := f.imm
  let p := opc.toNat
  let fn := f.fn.toNat
  let gv := s.g k (vGx i)
  let n := (s.g k f.gn.val).toNat
  let src := s.a k f.as.val
  let dst := s.a k f.ad.val
  let second := s.a k (vAb i)
  let list := s.a k (vAl i)
  let ns := srcCount p fn n gv
  let sb := secondBytesOf p fn (vAb i) (vBf i) n gv
  let ob := outBytesOf p (vDf i) (vLe i) n gv
  let lenMax := if p = 0x65 ∨ isGated p fn then 32768 else 65536
  let bufBad := match s.bufferOf k (vSi i) with
    | none => true
    | some b => decide (b.vals.length < src.toNat + ns)
  let x := firstCause [
    ((vSk i == 0 && rangeBad src (srcBytesOf p fn (vSf i) n gv)) || (sb != 0 && rangeBad second sb) ||
      (vLe i && rangeBad list 128) || (p != 0x61 && rangeBad dst ob), .pantryRange),
    (vSk i == 2 && !(s.engAvail k).testBit (vSi i), .engineBad),
    (vSk i == 2 && decide (16384 < src.toNat + ns), .accRange),
    (vSk i == 1 && bufBad, .bufferSource),
    (n == 0 || decide (lenMax < n) || (p == 0x63 && gv.toNat % 2 ^ 32 == 0), .length)]
  issue ⟨k, f.word opc, s.pcNext k, vecIllegal p f gv, some f.tok.val, false, x,
      decide (16 ≤ (s.vecOps.filter fun o => o.core == k).length)⟩ id
    (fun t =>
      let held := if vSk i = 1 then t.bufferElems k (vSi i) src.toNat ns else []
      let frees := if vSk i = 1 ∧ vFree i = true ∧ vSi i ≠ f.tok.val then some (vSi i) else none
      let t := t.tokIssue k f.tok.val
      { t with vecOps := t.vecOps ++ [⟨k, f.tok.val, p, fn, i, f.sr, n, src.toNat, dst.toNat, second.toNat, list.toNat,
          vGx i, gv, held, frees⟩] }) s

/-- VEC.ELEM (R256). -/
def execVecElem (c : CoreId) (f : UFmt) (s : State) : Out := .next (vecIssue 0x60 c f s)
/-- VEC.REDUCE (R256). -/
def execVecReduce (c : CoreId) (f : UFmt) (s : State) : Out := .next (vecIssue 0x61 c f s)
/-- VEC.RMSNORM (R256). -/
def execVecRmsnorm (c : CoreId) (f : UFmt) (s : State) : Out := .next (vecIssue 0x62 c f s)
/-- VEC.SOFTMAX (R256). -/
def execVecSoftmax (c : CoreId) (f : UFmt) (s : State) : Out := .next (vecIssue 0x63 c f s)
/-- VEC.ACT (R256). -/
def execVecAct (c : CoreId) (f : UFmt) (s : State) : Out := .next (vecIssue 0x64 c f s)
/-- VEC.ROPE (R256). -/
def execVecRope (c : CoreId) (f : UFmt) (s : State) : Out := .next (vecIssue 0x65 c f s)
/-- VEC.QUANT (R256). -/
def execVecQuant (c : CoreId) (f : UFmt) (s : State) : Out := .next (vecIssue 0x66 c f s)
/-- VEC.DEQUANT (R256). -/
def execVecDequant (c : CoreId) (f : UFmt) (s : State) : Out := .next (vecIssue 0x67 c f s)
/-- VEC.TOPK (R256). -/
def execVecTopk (c : CoreId) (f : UFmt) (s : State) : Out := .next (vecIssue 0x68 c f s)
/-- VEC.SAMPLE (R256, R323). -/
def execVecSample (c : CoreId) (f : UFmt) (s : State) : Out := .next (vecIssue 0x69 c f s)

end Sys2Proof.Machine
end

