-- ==== Sys2Proof/Machine/Commands.lean ====
section
/-! DEFINITION. The commands that are register accesses, GETs served at their target, and commands whose Pantry errors can
make a storm (R36, R139, R196, R199, R208 to R210, R571). -/

namespace Sys2Proof.Machine

/-- A write of a register as a command. -/
def put (off width : Nat) (v : DWord) (s : State) : Out := .next (s.settle (s.busWrite off width v))
/-- A 32-bit write as a command. -/
def put32 (off : Nat) (v : Word) (s : State) : Out := put off 4 (v.setWidth 64) s
/-- A read answered at once to the outside. -/
def State.answerRead (s : State) (off width : Nat) : State :=
  let r := s.busRead off width
  r.1.emit (.readData off width r.2)

/-! ## Accesses without a row of their own -/

/-- REGISTER_WRITE (R15, R17, R20 to R25, R540, R650). -/
def execRegisterWrite (off : BitVec 32) (width : Nat) (v : DWord) (s : State) : Out := put off.toNat width v s
/-- LOW_HALF_READ (R23): a 32-bit read of a 64-bit register's low half latches its high half. -/
def execLowHalfRead (off : BitVec 32) (s : State) : Out := .next (s.answerRead off.toNat 4)
/-- RECORD_LATCH_READ (R145): a read of the first word of a record window latches the whole record. -/
def execRecordLatchRead (off : BitVec 32) (s : State) : Out := .next (s.answerRead off.toNat 4)

/-- The node that answers for a window over the Prompt net: a core awake, else the stagehand of its region (R36). -/
def State.windowNode (s : State) (off : Nat) : Option Nat :=
  match locate off with
  | none => none
  | some (i, b, _) =>
    if b.ofRegion then (if s.domainOn 25 then some (nodeStagehand i) else none)
    else if b.ofCore then
      (if s.sleep i < 3 then some i else if s.domainOn 25 then some (nodeStagehand (regionOf i)) else none)
    else none
/-- REG_READ (R36, R422, R542): a read of a window is carried over the Prompt net and applied there, and its answer is on
the way back; any other read, and one whose path is unpowered, is answered by the host interface block itself. -/
def execRegRead (off : BitVec 32) (width : Nat) (s : State) : Out :=
  let o := off.toNat
  .next (match s.windowNode o with
    | none => s.answerRead o width
    | some node =>
      let r := s.busRead o width
      let t := r.1.count Reg.FAB_PN_MSGS
      let id := t.nextId
      let t := { t with host.reads := t.host.reads ++ [(id, o, width)] }
      t.sendPn nodeHost t.module node id (.regResp 0 r.2))
/-- REG_WRITE (R36, R422, R542): a write of a window is carried over the Prompt net and applied. -/
def execRegWrite (off : BitVec 32) (width : Nat) (v : DWord) (s : State) : Out :=
  let o := off.toNat
  put o width v (if (s.windowNode o).isSome then s.count Reg.FAB_PN_MSGS else s)

/-! ## Core windows -/

/-- FORCE_CLOSE (R199, R226). -/
def execForceClose (c : CoreId) (w : WinId) (v : Word) (s : State) : Out := put32 (Reg.WDS_WIN_CTL c.val w.val) v s
/-- WIN_COMMIT (R226, R394). -/
def execWinCommit (c : CoreId) (w : WinId) (v : Word) (s : State) : Out := put32 (Reg.WDS_WIN_COMMIT c.val w.val) v s
/-- SEQ.CTL.START (R271, R272). -/
def execSeqStart (c : CoreId) (s : State) : Out := put32 (Reg.SEQ_CTL c.val) 1 s
/-- SEQ.CTL.START with RESUME (R272). -/
def execSeqResume (c : CoreId) (s : State) : Out := put32 (Reg.SEQ_CTL c.val) 5 s
/-- SEQ.CTL.HALT (R248, R271). -/
def execSeqHalt (c : CoreId) (s : State) : Out := put32 (Reg.SEQ_CTL c.val) 2 s
/-- SEQ.CODE_DATA (R272): a 64-bit write of an instruction, or a read of one. -/
def execSeqCodeData (c : CoreId) (w : Option DWord) (s : State) : Out :=
  match w with
  | some v => put (Reg.SEQ_CODE_DATA c.val) 8 v s
  | none => .next (s.answerRead (Reg.SEQ_CODE_DATA c.val) 8)
/-- CORE.SCRUB (R196, R225). -/
def execCoreScrub (c : CoreId) (v : Word) (s : State) : Out := put32 (Reg.CORE_SCRUB c.val) v s
/-- RIF.BORROW with EN 1 (R220, R221). -/
def execBorrow (c : CoreId) (v : Word) (s : State) : Out := put32 (Reg.RIF_BORROW c.val) v s
/-- RIF.BORROW with EN 0 (R221). -/
def execBorrowEnd (c : CoreId) (v : Word) (s : State) : Out := put32 (Reg.RIF_BORROW c.val) v s
/-- RACK.REC_DATA_0 read (R141). -/
def execRecDataLatch (c : CoreId) (s : State) : Out := .next (s.answerRead (Reg.RACK_REC_DATA_0 c.val) 4)
/-- RACK.CAPTURE_CTL written (R141, R651). -/
def execCaptureArm (c : CoreId) (v : Word) (s : State) : Out := put32 (Reg.RACK_CAPTURE_CTL c.val) v s
/-- RND.SAT_COUNT_CLEAR (R71). -/
def execSatCountClear (c : CoreId) (v : Word) (s : State) : Out := put32 (Reg.RND_SAT_COUNT_CLEAR c.val) v s
/-- NRM.COMMIT (R86, R89). -/
def execNrmCommit (c : CoreId) (v : Word) (s : State) : Out := put32 (Reg.NRM_COMMIT c.val) v s

/-! ## Partitions, regions and the module -/

/-- CEL.CHK_COMMIT_p (R143, R144). -/
def execChkCommit (p : PartId) (v : Word) (s : State) : Out := put32 (Reg.CEL_CHK_COMMIT p.val) v s
/-- SRV.KV_COMMIT_p (R305). -/
def execSrvKvCommit (p : PartId) (v : Word) (s : State) : Out := put32 (Reg.SRV_KV_COMMIT p.val) v s
/-- SRV.TREE_COMMIT_p (R354). -/
def execTreeCommit (p : PartId) (v : Word) (s : State) : Out := put32 (Reg.SRV_TREE_COMMIT p.val) v s
/-- CEL.REFRESH_GO (R139, R598). -/
def execRefreshGo (v : Word) (s : State) : Out := put32 Reg.CEL_REFRESH_GO v s
/-- CEL.INST_CTL.GO (R176, R598). -/
def execInstGo (v : Word) (s : State) : Out := put32 Reg.CEL_INST_CTL v s
/-- CEL.INST_CTL.ABORT (R175, R176). -/
def execInstAbort (v : Word) (s : State) : Out := put32 Reg.CEL_INST_CTL v s
/-- STG.SHORT_CLR (R463). -/
def execShortClr (r : RegionId) (v : Word) (s : State) : Out := put32 (Reg.STG_SHORT_CLR r.val) v s
/-- STG.WAKE (R473). -/
def execStgWake (r : RegionId) (v : Word) (s : State) : Out := put32 (Reg.STG_WAKE r.val) v s
/-- PWR.CURTAIN_CTL with UP bits (R465, R471). -/
def execCurtainUp (v : Word) (s : State) : Out := put32 Reg.PWR_CURTAIN_CTL v s
/-- PWR.CURTAIN_CTL with DOWN bits (R468, R475). -/
def execCurtainDown (v : Word) (s : State) : Out := put32 Reg.PWR_CURTAIN_CTL v s
/-- PWR.PHASE (R483). -/
def execPhase (v : Word) (s : State) : Out := put32 Reg.PWR_PHASE v s
/-- PWR.LK_CTL (R500). -/
def execLkCtl (v : Word) (s : State) : Out := put32 Reg.PWR_LK_CTL v s
/-- THM.TRIP_CLR (R528). -/
def execTripClr (v : Word) (s : State) : Out := put32 Reg.THM_TRIP_CLR v s
/-- THM.SUSPECT_CLR (R512). -/
def execSuspectClr (v : Word) (s : State) : Out := put32 Reg.THM_SUSPECT_CLR v s
/-- FAB.FMAP_CTL that marks (R450). -/
def execFmapMark (v : Word) (s : State) : Out := put32 Reg.FAB_FMAP_CTL v s
/-- FAB.FMAP_CTL that removes a mark (R450). -/
def execFmapUnmark (v : Word) (s : State) : Out := put32 Reg.FAB_FMAP_CTL v s
/-- LNK.SPLIT_GO (R446, R448). -/
def execSplitGo (v : Word) (s : State) : Out := put32 Reg.LNK_SPLIT_GO v s
/-- LNK.PORT_CTL_n.ENABLE set (R437, R452). -/
def execPortEnable (port : PortId) (s : State) : Out := put32 (Reg.LNK_PORT_CTL port.val) 1 s
/-- LNK.PORT_CTL_n.ENABLE cleared (R434, R452). -/
def execPortDisable (port : PortId) (s : State) : Out := put32 (Reg.LNK_PORT_CTL port.val) 0 s
/-- LNK.PORT_CTL_n.RETRAIN written with ENABLE as it stands (R452). -/
def execRetrain (port : PortId) (s : State) : Out :=
  let ctl := Reg.LNK_PORT_CTL port.val
  put32 ctl (if s.flag ctl Fl.LNK_PORT_CTL_ENABLE then 3 else 2) s
/-- BLK.REBIND_CTL.GO (R348, R351). -/
def execRebindGo (v : Word) (s : State) : Out := put32 Reg.BLK_REBIND_CTL v s
/-- BLK.LOAD_CTL.GO (R387). -/
def execLoadGo (v : Word) (s : State) : Out := put32 Reg.BLK_LOAD_CTL v s
/-- BLK.LOAD_CTL.UNLOAD (R392). -/
def execUnload (v : Word) (s : State) : Out := put32 Reg.BLK_LOAD_CTL v s
/-- HIF.QCTL with ENABLE (R544). -/
def execQueueEnable (v : Word) (s : State) : Out := put32 Reg.HIF_QCTL v s
/-- HIF.QCTL with DISABLE (R544). -/
def execQueueDisable (v : Word) (s : State) : Out := put32 Reg.HIF_QCTL v s
/-- DUMP.REPLACE_CTL.HOST_DONE (R578). -/
def execHostDone (v : Word) (s : State) : Out := put32 Reg.DUMP_REPLACE_CTL v s
/-- DUMP.FAIL_CTL.PARK (R587). -/
def execFailCtlPark (v : Word) (s : State) : Out := put32 Reg.DUMP_FAIL_CTL v s
/-- DUMP.CTL.TRIGGER (R588). -/
def execDumpTrigger (v : Word) (s : State) : Out := put32 Reg.DUMP_CTL v s
/-- DUMP.CTL.COPY (R589). -/
def execDumpCopy (v : Word) (s : State) : Out := put32 Reg.DUMP_CTL v s
/-- DUMP.CTL.RETAIN_CLR (R589). -/
def execRetainClr (v : Word) (s : State) : Out := put32 Reg.DUMP_CTL v s
/-- SEC.FW_CTL.STAGE (R604, R605). -/
def execFwStage (v : Word) (s : State) : Out := put32 Reg.SEC_FW_CTL v s
/-- SEC.FW_CTL.ACTIVATE (R605). -/
def execFwActivate (v : Word) (s : State) : Out := put32 Reg.SEC_FW_CTL v s
/-- SEC.FW_CTL.COMMIT_SVN (R606). -/
def execCommitSvn (v : Word) (s : State) : Out := put32 Reg.SEC_FW_CTL v s
/-- SEC.FW_CTL.REVOKE (R606). -/
def execRevoke (v : Word) (s : State) : Out := put32 Reg.SEC_FW_CTL v s

/-! ## GETs at their target (R208 to R210) -/

/-- A GET served: from the Pantry, from one register of the core window through the control port, or from the rack and bin
records; any other address is BAD_ADDRESS. -/
def State.serveGet (s : State) (m : NetMsg) : State :=
  let c := m.dstCore
  if m.space = 0 then
    if inPantry m.off m.len then
      let bad := s.badBytes c m.off m.len
      let data := s.bytes c m.off m.len
      (s.checkRange c m.off m.len).answer m (if bad.contains true then stPoison else stOk) data bad c
    else s.answer m stBadAddress [] [] c
  else if m.space = 1 then
    if (m.len = 4 ∨ m.len = 8) ∧ m.off % m.len = 0 ∧ m.off + m.len ≤ 0x40000 then
      let r := s.busRead (coreWin c + m.off) m.len
      r.1.answer m stOk (leBytes m.len r.2.toNat) [] c
    else s.answer m stBadAddress [] [] c
  else
    match s.recordBytes c m.off m.len with
    | some bs => s.answer m stOk bs [] c
    | none => s.answer m stBadAddress [] [] c
/-- GET_SERVE: a target in Retain or Dark answers ASLEEP (R210); one not in the sender's partition PARTITION (R209). -/
def execGetServe (id : Nat) (s : State) : Out :=
  .next (match s.findNet id with
    | none => s
    | some m =>
      if m.kind = .get ∧ m.stage = .arrived then
        if !s.flowFirst m then s
        else if 3 ≤ s.sleep m.dstCore then s.asleepTo m m.dstCore
        else if !s.samePart m then
          (s.setFld (Reg.CORE_STAT m.dstCore) Fl.CORE_STAT_RX_PARTITION 1).answer m stPartition [] [] m.dstCore
        else s.settle (s.serveGet m)
      else s)

/-! ## Pantry reads that can begin an error storm (R571) -/

/-- After a command that met Pantry errors, a core whose errors make a storm counts as dead. -/
def State.stormAfter (s t : State) (c : Nat) : State :=
  if t.faults.eccTimes = s.faults.eccTimes then t else if t.storming c then s.settle (t.coreDead c 0x42) else t
/-- LD (R244, R571). -/
def execLd (c : CoreId) (f : RFmt) (s : State) : Out := .next (s.stormAfter (s.ld c f) c.val)
/-- LDW (R244, R571). -/
def execLdw (c : CoreId) (f : RFmt) (s : State) : Out := .next (s.stormAfter (s.ldw c f) c.val)
/-- VEC_OP_COMPLETE (R213, R571): the core's oldest vector operation writes its result, and its token completes. -/
def execVecOpComplete (c : CoreId) (s : State) : Out := .next (s.stormAfter (s.vecDone c) c.val)

end Sys2Proof.Machine
end

