-- ==== Sys2Proof/Machine/Scalar.lean ====
section
/-! DEFINITION. The scalar arithmetic instructions (R243). -/

namespace Sys2Proof.Machine

/-- The second operand: gb + IMM, sign-extended (R243). -/
def State.aluB (s : State) (c : Nat) (f : RFmt) : DWord := s.g c f.gb.val + sext32 f.imm

/-- An ALU instruction: gd takes `op ga b`. -/
def alu (opc : Byte) (extra : Bool) (op : DWord → DWord → DWord) (c : CoreId) (f : RFmt) (s : State) : State :=
  issue ⟨c.val, f.word opc, s.pcNext c.val, f.bad || extra, none, false, none, false⟩ id
    (fun t => t.setG c.val f.gd.val (op (s.g c.val f.ga.val) (s.aluB c.val f))) s

/-- The shift amount b[5:0]. -/
def shamt (b : DWord) : Nat := b.toNat % 64
/-- 1 or 0, as a comparison writes it. -/
def boolWord (b : Bool) : DWord := if b then 1 else 0

/-- ADD (R243): ga + b. -/
def execAdd (c : CoreId) (f : RFmt) (s : State) : Out := .next (alu 0x01 false (fun x b => x + b) c f s)
/-- SUB (R243): ga − b. -/
def execSub (c : CoreId) (f : RFmt) (s : State) : Out := .next (alu 0x02 false (fun x b => x - b) c f s)
/-- MUL (R243): the low 64 bits of ga × b. -/
def execMul (c : CoreId) (f : RFmt) (s : State) : Out := .next (alu 0x03 false (fun x b => x * b) c f s)
/-- AND (R243). -/
def execAnd (c : CoreId) (f : RFmt) (s : State) : Out := .next (alu 0x04 false (fun x b => x &&& b) c f s)
/-- OR (R243). -/
def execOr (c : CoreId) (f : RFmt) (s : State) : Out := .next (alu 0x05 false (fun x b => x ||| b) c f s)
/-- XOR (R243). -/
def execXor (c : CoreId) (f : RFmt) (s : State) : Out := .next (alu 0x06 false (fun x b => x ^^^ b) c f s)
/-- SHL (R243): ga shifted left by b[5:0]. -/
def execShl (c : CoreId) (f : RFmt) (s : State) : Out := .next (alu 0x07 false (fun x b => x <<< shamt b) c f s)
/-- SHR (R243): logical right shift by b[5:0]. -/
def execShr (c : CoreId) (f : RFmt) (s : State) : Out := .next (alu 0x08 false (fun x b => x >>> shamt b) c f s)
/-- SRA (R243): arithmetic right shift by b[5:0]. -/
def execSra (c : CoreId) (f : RFmt) (s : State) : Out :=
  .next (alu 0x09 false (fun x b => x.sshiftRight (shamt b)) c f s)
/-- MIN (R243), signed. -/
def execMin (c : CoreId) (f : RFmt) (s : State) : Out :=
  .next (alu 0x0A false (fun x b => if b.slt x then b else x) c f s)
/-- MAX (R243), signed. -/
def execMax (c : CoreId) (f : RFmt) (s : State) : Out :=
  .next (alu 0x0B false (fun x b => if x.slt b then b else x) c f s)
/-- SLT (R243): 1 if ga < b, signed. -/
def execSlt (c : CoreId) (f : RFmt) (s : State) : Out := .next (alu 0x0C false (fun x b => boolWord (x.slt b)) c f s)
/-- SLTU (R243): 1 if ga < b, unsigned. -/
def execSltu (c : CoreId) (f : RFmt) (s : State) : Out :=
  .next (alu 0x0D false (fun x b => boolWord (x.ult b)) c f s)
/-- LIH (R243): ga[31:0] with IMM, taken unsigned, in bits [63:32]; GB must be 0. -/
def execLih (c : CoreId) (f : RFmt) (s : State) : Out :=
  .next (alu 0x0E (f.gb != 0) (fun x _ => f.imm ++ x.extractLsb' 0 32) c f s)

end Sys2Proof.Machine
end

