-- ==== Sys2Proof/Machine/Dispatch.lean ====
section
/-! DEFINITION. One arm per constructor of Instr: a direct call of that command's meaning. -/

namespace Sys2Proof.Machine

def exec (i : Instr) (s : State) : Host.Outcome State Fault Refusal :=
  match i with
  | .add c f => Sys2Proof.Machine.execAdd c f s
  | .sub c f => Sys2Proof.Machine.execSub c f s
  | .mul c f => Sys2Proof.Machine.execMul c f s
  | .and c f => Sys2Proof.Machine.execAnd c f s
  | .or c f => Sys2Proof.Machine.execOr c f s
  | .xor c f => Sys2Proof.Machine.execXor c f s
  | .shl c f => Sys2Proof.Machine.execShl c f s
  | .shr c f => Sys2Proof.Machine.execShr c f s
  | .sra c f => Sys2Proof.Machine.execSra c f s
  | .min c f => Sys2Proof.Machine.execMin c f s
  | .max c f => Sys2Proof.Machine.execMax c f s
  | .slt c f => Sys2Proof.Machine.execSlt c f s
  | .sltu c f => Sys2Proof.Machine.execSltu c f s
  | .lih c f => Sys2Proof.Machine.execLih c f s
  | .ld c f => Sys2Proof.Machine.execLd c f s
  | .ldw c f => Sys2Proof.Machine.execLdw c f s
  | .st c f => Sys2Proof.Machine.execSt c f s
  | .stw c f => Sys2Proof.Machine.execStw c f s
  | .seta c f => Sys2Proof.Machine.execSeta c f s
  | .geta c f => Sys2Proof.Machine.execGeta c f s
  | .rdc c f => Sys2Proof.Machine.execRdc c f s
  | .tst c f => Sys2Proof.Machine.execTst c f s
  | .beq c f => Sys2Proof.Machine.execBeq c f s
  | .bne c f => Sys2Proof.Machine.execBne c f s
  | .blt c f => Sys2Proof.Machine.execBlt c f s
  | .bge c f => Sys2Proof.Machine.execBge c f s
  | .bltu c f => Sys2Proof.Machine.execBltu c f s
  | .bgeu c f => Sys2Proof.Machine.execBgeu c f s
  | .jmp c f => Sys2Proof.Machine.execJmp c f s
  | .call c f => Sys2Proof.Machine.execCall c f s
  | .jr c f => Sys2Proof.Machine.execJr c f s
  | .retx c f => Sys2Proof.Machine.execRetx c f s
  | .halt c f => Sys2Proof.Machine.execHalt c f s
  | .nop c f => Sys2Proof.Machine.execNop c f s
  | .brk c f => Sys2Proof.Machine.execBrk c f s
  | .latePut c => Sys2Proof.Machine.execLatePut c s
  | .twait c f => Sys2Proof.Machine.execTwait c f s
  | .twaitComplete c => Sys2Proof.Machine.execTwaitComplete c s
  | .sleepEntry c => Sys2Proof.Machine.execSleepEntry c s
  | .coreWakeDone c => Sys2Proof.Machine.execCoreWakeDone c s
  | .engLoad c f => Sys2Proof.Machine.execEngLoad c f s
  | .engRun c f => Sys2Proof.Machine.execEngRun c f s
  | .engDrain c f => Sys2Proof.Machine.execEngDrain c f s
  | .engMode c f => Sys2Proof.Machine.execEngMode c f s
  | .engRunComplete c t => Sys2Proof.Machine.execEngRunComplete c t s
  | .engDrainComplete c t => Sys2Proof.Machine.execEngDrainComplete c t s
  | .rackFire c f => Sys2Proof.Machine.execRackFire c f s
  | .rackRev c f => Sys2Proof.Machine.execRackRev c f s
  | .rackTest c f => Sys2Proof.Machine.execRackTest c f s
  | .rackFree c f => Sys2Proof.Machine.execRackFree c f s
  | .fireStaging c => Sys2Proof.Machine.execFireStaging c s
  | .fireIssue c t => Sys2Proof.Machine.execFireIssue c t s
  | .zeroSkipDeliver c t => Sys2Proof.Machine.execZeroSkipDeliver c t s
  | .offlineFire c t => Sys2Proof.Machine.execOfflineFire c t s
  | .binEvalDeliver c t => Sys2Proof.Machine.execBinEvalDeliver c t s
  | .reverseReadDeliver c t => Sys2Proof.Machine.execReverseReadDeliver c t s
  | .fireCopyDone c t => Sys2Proof.Machine.execFireCopyDone c t s
  | .quietSlotPattern c b pat => Sys2Proof.Machine.execQuietSlotPattern c b pat s
  | .testPeriodExpire c b => Sys2Proof.Machine.execTestPeriodExpire c b s
  | .statWindowEnd c b => Sys2Proof.Machine.execStatWindowEnd c b s
  | .actTestRun c layer => Sys2Proof.Machine.execActTestRun c layer s
  | .recalComplete c b => Sys2Proof.Machine.execRecalComplete c b s
  | .refreshQueueCheck => Sys2Proof.Machine.execRefreshQueueCheck s
  | .refreshGo v => Sys2Proof.Machine.execRefreshGo v s
  | .refreshComplete c b => Sys2Proof.Machine.execRefreshComplete c b s
  | .labelWriteBack c rack => Sys2Proof.Machine.execLabelWriteBack c rack s
  | .vecElem c f => Sys2Proof.Machine.execVecElem c f s
  | .vecReduce c f => Sys2Proof.Machine.execVecReduce c f s
  | .vecRmsnorm c f => Sys2Proof.Machine.execVecRmsnorm c f s
  | .vecSoftmax c f => Sys2Proof.Machine.execVecSoftmax c f s
  | .vecAct c f => Sys2Proof.Machine.execVecAct c f s
  | .vecRope c f => Sys2Proof.Machine.execVecRope c f s
  | .vecQuant c f => Sys2Proof.Machine.execVecQuant c f s
  | .vecDequant c f => Sys2Proof.Machine.execVecDequant c f s
  | .vecTopk c f => Sys2Proof.Machine.execVecTopk c f s
  | .vecSample c f => Sys2Proof.Machine.execVecSample c f s
  | .vecOpComplete c => Sys2Proof.Machine.execVecOpComplete c s
  | .winOpen c f => Sys2Proof.Machine.execWinOpen c f s
  | .winClose c f => Sys2Proof.Machine.execWinClose c f s
  | .winDrain c f => Sys2Proof.Machine.execWinDrain c f s
  | .winWait c f => Sys2Proof.Machine.execWinWait c f s
  | .winCloseDone c w => Sys2Proof.Machine.execWinCloseDone c w s
  | .winDrainExpire c w => Sys2Proof.Machine.execWinDrainExpire c w s
  | .winWaitTimeout c w => Sys2Proof.Machine.execWinWaitTimeout c w s
  | .forceClose c w v => Sys2Proof.Machine.execForceClose c w v s
  | .put c f => Sys2Proof.Machine.execPut c f s
  | .get c f => Sys2Proof.Machine.execGet c f s
  | .putAcceptanceCheck id => Sys2Proof.Machine.execPutAcceptanceCheck id s
  | .putWriteDone id => Sys2Proof.Machine.execPutWriteDone id s
  | .getServe id => Sys2Proof.Machine.execGetServe id s
  | .netCompletion id => Sys2Proof.Machine.execNetCompletion id s
  | .netTimeout id => Sys2Proof.Machine.execNetTimeout id s
  | .kvAppend c f => Sys2Proof.Machine.execKvAppend c f s
  | .kvAppendComplete c t => Sys2Proof.Machine.execKvAppendComplete c t s
  | .kvCommit c f => Sys2Proof.Machine.execKvCommit c f s
  | .kvRollback c f => Sys2Proof.Machine.execKvRollback c f s
  | .kvMap c f => Sys2Proof.Machine.execKvMap c f s
  | .kvDigest c f => Sys2Proof.Machine.execKvDigest c f s
  | .loftFetchComplete id ok data => Sys2Proof.Machine.execLoftFetchComplete id ok data s
  | .spillWriteComplete id ok => Sys2Proof.Machine.execSpillWriteComplete id ok s
  | .nodeRetireFree p node => Sys2Proof.Machine.execNodeRetireFree p node s
  | .treeMask c f => Sys2Proof.Machine.execTreeMask c f s
  | .claim c f => Sys2Proof.Machine.execClaim c f s
  | .release c f => Sys2Proof.Machine.execRelease c f s
  | .claimGrant r => Sys2Proof.Machine.execClaimGrant r s
  | .cue c f => Sys2Proof.Machine.execCue c f s
  | .signal c f => Sys2Proof.Machine.execSignal c f s
  | .wait c f => Sys2Proof.Machine.execWait c f s
  | .heavyReservationExpire c => Sys2Proof.Machine.execHeavyReservationExpire c s
  | .seqStart c => Sys2Proof.Machine.execSeqStart c s
  | .seqResume c => Sys2Proof.Machine.execSeqResume c s
  | .seqHalt c => Sys2Proof.Machine.execSeqHalt c s
  | .seqCodeData c w => Sys2Proof.Machine.execSeqCodeData c w s
  | .coreScrub c v => Sys2Proof.Machine.execCoreScrub c v s
  | .scrubComplete c => Sys2Proof.Machine.execScrubComplete c s
  | .borrow c v => Sys2Proof.Machine.execBorrow c v s
  | .borrowEnd c v => Sys2Proof.Machine.execBorrowEnd c v s
  | .borrowReady c => Sys2Proof.Machine.execBorrowReady c s
  | .recDataLatch c => Sys2Proof.Machine.execRecDataLatch c s
  | .captureArm c v => Sys2Proof.Machine.execCaptureArm c v s
  | .satCountClear c v => Sys2Proof.Machine.execSatCountClear c v s
  | .nrmCommit c v => Sys2Proof.Machine.execNrmCommit c v s
  | .chkCommit p v => Sys2Proof.Machine.execChkCommit p v s
  | .srvKvCommit p v => Sys2Proof.Machine.execSrvKvCommit p v s
  | .treeCommit p v => Sys2Proof.Machine.execTreeCommit p v s
  | .winCommit c w v => Sys2Proof.Machine.execWinCommit c w v s
  | .lowHalfRead off => Sys2Proof.Machine.execLowHalfRead off s
  | .recordLatchRead off => Sys2Proof.Machine.execRecordLatchRead off s
  | .registerWrite off width v => Sys2Proof.Machine.execRegisterWrite off width v s
  | .instGo v => Sys2Proof.Machine.execInstGo v s
  | .instAbort v => Sys2Proof.Machine.execInstAbort v s
  | .installCheckDone mem => Sys2Proof.Machine.execInstallCheckDone mem s
  | .chunkCrcFail entry chunk => Sys2Proof.Machine.execChunkCrcFail entry chunk s
  | .firstPassDone c b erased mem => Sys2Proof.Machine.execFirstPassDone c b erased mem s
  | .settleExpire c b => Sys2Proof.Machine.execSettleExpire c b s
  | .touchUpDone c b cells => Sys2Proof.Machine.execTouchUpDone c b cells s
  | .hvFault => Sys2Proof.Machine.execHvFault s
  | .feedLoss b => Sys2Proof.Machine.execFeedLoss b s
  | .feedReturn b => Sys2Proof.Machine.execFeedReturn b s
  | .bothFeedsLost => Sys2Proof.Machine.execBothFeedsLost s
  | .auxFeedLoss => Sys2Proof.Machine.execAuxFeedLoss s
  | .presentNOpen b => Sys2Proof.Machine.execPresentNOpen b s
  | .feedConnect b => Sys2Proof.Machine.execFeedConnect b s
  | .converterFail n => Sys2Proof.Machine.execConverterFail n s
  | .regulatorFail r n => Sys2Proof.Machine.execRegulatorFail r n s
  | .segmentTrip r => Sys2Proof.Machine.execSegmentTrip r s
  | .shortClr r v => Sys2Proof.Machine.execShortClr r v s
  | .curtainUp v => Sys2Proof.Machine.execCurtainUp v s
  | .curtainDown v => Sys2Proof.Machine.execCurtainDown v s
  | .inrushSlotGrant r => Sys2Proof.Machine.execInrushSlotGrant r s
  | .inrushTimeout r => Sys2Proof.Machine.execInrushTimeout r s
  | .regionRun r => Sys2Proof.Machine.execRegionRun r s
  | .bringupTimeout r => Sys2Proof.Machine.execBringupTimeout r s
  | .regionSwitchOpen r => Sys2Proof.Machine.execRegionSwitchOpen r s
  | .retainEntry c => Sys2Proof.Machine.execRetainEntry c s
  | .stgWake r v => Sys2Proof.Machine.execStgWake r v s
  | .darkEntry r => Sys2Proof.Machine.execDarkEntry r s
  | .droopLevel c lvl => Sys2Proof.Machine.execDroopLevel c lvl s
  | .droopStepDown c => Sys2Proof.Machine.execDroopStepDown c s
  | .telemetrySample x => Sys2Proof.Machine.execTelemetrySample x s
  | .scanComplete r scan => Sys2Proof.Machine.execScanComplete r scan s
  | .regionSkipReview r => Sys2Proof.Machine.execRegionSkipReview r s
  | .inputLimit => Sys2Proof.Machine.execInputLimit s
  | .phase v => Sys2Proof.Machine.execPhase v s
  | .lkCtl v => Sys2Proof.Machine.execLkCtl v s
  | .slackReport => Sys2Proof.Machine.execSlackReport s
  | .slackRanking => Sys2Proof.Machine.execSlackRanking s
  | .slackGrant => Sys2Proof.Machine.execSlackGrant s
  | .shiftLapse => Sys2Proof.Machine.execShiftLapse s
  | .trayFrame bytes => Sys2Proof.Machine.execTrayFrame bytes s
  | .traySilence => Sys2Proof.Machine.execTraySilence s
  | .flowStop => Sys2Proof.Machine.execFlowStop s
  | .flowRestore => Sys2Proof.Machine.execFlowRestore s
  | .stopDarkExpire => Sys2Proof.Machine.execStopDarkExpire s
  | .flowDarkStep => Sys2Proof.Machine.execFlowDarkStep s
  | .hardwareTrip r => Sys2Proof.Machine.execHardwareTrip r s
  | .tripClr v => Sys2Proof.Machine.execTripClr v s
  | .suspectClr v => Sys2Proof.Machine.execSuspectClr v s
  | .meshRoute id => Sys2Proof.Machine.execMeshRoute id s
  | .fmapMark v => Sys2Proof.Machine.execFmapMark v s
  | .fmapUnmark v => Sys2Proof.Machine.execFmapUnmark v s
  | .routeRewrite => Sys2Proof.Machine.execRouteRewrite s
  | .meshLinkBad core south => Sys2Proof.Machine.execMeshLinkBad core south s
  | .pnCue id => Sys2Proof.Machine.execPnCue id s
  | .pnSignal id => Sys2Proof.Machine.execPnSignal id s
  | .signalAck id => Sys2Proof.Machine.execSignalAck id s
  | .winNotice id => Sys2Proof.Machine.execWinNotice id s
  | .pnKvCommit id => Sys2Proof.Machine.execPnKvCommit id s
  | .pnKvRollback id => Sys2Proof.Machine.execPnKvRollback id s
  | .kvAck id => Sys2Proof.Machine.execKvAck id s
  | .heartbeatCheck cluster => Sys2Proof.Machine.execHeartbeatCheck cluster s
  | .heartbeat id => Sys2Proof.Machine.execHeartbeat id s
  | .fault id => Sys2Proof.Machine.execFault id s
  | .regRead off width => Sys2Proof.Machine.execRegRead off width s
  | .regWrite off width v => Sys2Proof.Machine.execRegWrite off width v s
  | .regResp id => Sys2Proof.Machine.execRegResp id s
  | .commitNotice id => Sys2Proof.Machine.execCommitNotice id s
  | .deadline id => Sys2Proof.Machine.execDeadline id s
  | .partBeat id => Sys2Proof.Machine.execPartBeat id s
  | .partAck id => Sys2Proof.Machine.execPartAck id s
  | .partBeatTimer p => Sys2Proof.Machine.execPartBeatTimer p s
  | .partitionFreeze p => Sys2Proof.Machine.execPartitionFreeze p s
  | .partitionResume p => Sys2Proof.Machine.execPartitionResume p s
  | .splitGo v => Sys2Proof.Machine.execSplitGo v s
  | .mgmtFrame frame => Sys2Proof.Machine.execMgmtFrame frame s
  | .mgmtRetry => Sys2Proof.Machine.execMgmtRetry s
  | .mgmtBreak => Sys2Proof.Machine.execMgmtBreak s
  | .stagehandSafe r => Sys2Proof.Machine.execStagehandSafe r s
  | .flitData port flit => Sys2Proof.Machine.execFlitData port flit s
  | .flitPrompt port flit => Sys2Proof.Machine.execFlitPrompt port flit s
  | .flitSlack port flit => Sys2Proof.Machine.execFlitSlack port flit s
  | .flitIdle port flit => Sys2Proof.Machine.execFlitIdle port flit s
  | .flitLink port flit => Sys2Proof.Machine.execFlitLink port flit s
  | .idleFlitTimer port => Sys2Proof.Machine.execIdleFlitTimer port s
  | .ackTimer port => Sys2Proof.Machine.execAckTimer port s
  | .portSilence port => Sys2Proof.Machine.execPortSilence port s
  | .retrainTimer port => Sys2Proof.Machine.execRetrainTimer port s
  | .trainingComplete port => Sys2Proof.Machine.execTrainingComplete port s
  | .portEnable port => Sys2Proof.Machine.execPortEnable port s
  | .portDisable port => Sys2Proof.Machine.execPortDisable port s
  | .retrain port => Sys2Proof.Machine.execRetrain port s
  | .create q desc record => Sys2Proof.Machine.execCreate q desc record s
  | .generate q desc prompt record => Sys2Proof.Machine.execGenerate q desc prompt record s
  | .adapt q desc prompt record => Sys2Proof.Machine.execAdapt q desc prompt record s
  | .park q desc => Sys2Proof.Machine.execPark q desc s
  | .resume q desc record => Sys2Proof.Machine.execResume q desc record s
  | .delete q desc => Sys2Proof.Machine.execDelete q desc s
  | .passAdmission p => Sys2Proof.Machine.execPassAdmission p s
  | .parkComplete ctx ok => Sys2Proof.Machine.execParkComplete ctx ok s
  | .resumeComplete ctx mem => Sys2Proof.Machine.execResumeComplete ctx mem s
  | .deadlineTimer => Sys2Proof.Machine.execDeadlineTimer s
  | .tenRefill t v => Sys2Proof.Machine.execTenRefill t v s
  | .rebindGo v => Sys2Proof.Machine.execRebindGo v s
  | .rebindProceed => Sys2Proof.Machine.execRebindProceed s
  | .loadGo v => Sys2Proof.Machine.execLoadGo v s
  | .loadFetchComplete img bind => Sys2Proof.Machine.execLoadFetchComplete img bind s
  | .loadWriteComplete => Sys2Proof.Machine.execLoadWriteComplete s
  | .partitionDigest p mod digest => Sys2Proof.Machine.execPartitionDigest p mod digest s
  | .unload v => Sys2Proof.Machine.execUnload v s
  | .unloadComplete => Sys2Proof.Machine.execUnloadComplete s
  | .perstAssert => Sys2Proof.Machine.execPerstAssert s
  | .perstDeassert => Sys2Proof.Machine.execPerstDeassert s
  | .linkUp width speed cxl lopt ideIo ideCm => Sys2Proof.Machine.execLinkUp width speed cxl lopt ideIo ideCm s
  | .linkLost => Sys2Proof.Machine.execLinkLost s
  | .queueEnable v => Sys2Proof.Machine.execQueueEnable v s
  | .queueEntryFetched q entry => Sys2Proof.Machine.execQueueEntryFetched q entry s
  | .queueDisable v => Sys2Proof.Machine.execQueueDisable v s
  | .queueDrained q => Sys2Proof.Machine.execQueueDrained q s
  | .sqTail q v => Sys2Proof.Machine.execSqTail q v s
  | .cqHead q v => Sys2Proof.Machine.execCqHead q v s
  | .completionWrite q ok => Sys2Proof.Machine.execCompletionWrite q ok s
  | .interruptCoalesce q => Sys2Proof.Machine.execInterruptCoalesce q s
  | .readTimeout => Sys2Proof.Machine.execReadTimeout s
  | .apertureRead a ask => Sys2Proof.Machine.execApertureRead a ask s
  | .apertureWrite a data be => Sys2Proof.Machine.execApertureWrite a data be s
  | .hdmDecoderCommit gib ways mem => Sys2Proof.Machine.execHdmDecoderCommit gib ways mem s
  | .getVersion req => Sys2Proof.Machine.execGetVersion req s
  | .getCapabilities req => Sys2Proof.Machine.execGetCapabilities req s
  | .negotiateAlgorithms req common => Sys2Proof.Machine.execNegotiateAlgorithms req common s
  | .getDigests req => Sys2Proof.Machine.execGetDigests req s
  | .getCertificate req slot offset length => Sys2Proof.Machine.execGetCertificate req slot offset length s
  | .challenge req slot nonce => Sys2Proof.Machine.execChallenge req slot nonce s
  | .getMeasurements req index nonce => Sys2Proof.Machine.execGetMeasurements req index nonce s
  | .keyExchange req slot => Sys2Proof.Machine.execKeyExchange req slot s
  | .finish req good => Sys2Proof.Machine.execFinish req good s
  | .keyUpdate req => Sys2Proof.Machine.execKeyUpdate req s
  | .endSession req => Sys2Proof.Machine.execEndSession req s
  | .coreDead c => Sys2Proof.Machine.execCoreDead c s
  | .pipeStall p => Sys2Proof.Machine.execPipeStall p s
  | .replaceMovingDone img => Sys2Proof.Machine.execReplaceMovingDone img s
  | .hostDone v => Sys2Proof.Machine.execHostDone v s
  | .hostMsTimeout => Sys2Proof.Machine.execHostMsTimeout s
  | .restoreComplete mem => Sys2Proof.Machine.execRestoreComplete mem s
  | .failCtlPark v => Sys2Proof.Machine.execFailCtlPark v s
  | .fatalFault code => Sys2Proof.Machine.execFatalFault code s
  | .dumpTrigger v => Sys2Proof.Machine.execDumpTrigger v s
  | .dumpComplete ok => Sys2Proof.Machine.execDumpComplete ok s
  | .dumpCopy v => Sys2Proof.Machine.execDumpCopy v s
  | .retainClr v => Sys2Proof.Machine.execRetainClr v s
  | .coldStart slot legacy => Sys2Proof.Machine.execColdStart slot legacy s
  | .firmwareVerified readable => Sys2Proof.Machine.execFirmwareVerified readable s
  | .firmwareStart keyOk => Sys2Proof.Machine.execFirmwareStart keyOk s
  | .fwReady => Sys2Proof.Machine.execFwReady s
  | .resetNAssert => Sys2Proof.Machine.execResetNAssert s
  | .resetNDeassert slot legacy => Sys2Proof.Machine.execResetNDeassert slot legacy s
  | .fwStage v => Sys2Proof.Machine.execFwStage v s
  | .fwStageComplete img wrote => Sys2Proof.Machine.execFwStageComplete img wrote s
  | .fwActivate v => Sys2Proof.Machine.execFwActivate v s
  | .commitSvn v => Sys2Proof.Machine.execCommitSvn v s
  | .revoke v => Sys2Proof.Machine.execRevoke v s
  | .mgmtBusIndex byte => Sys2Proof.Machine.execMgmtBusIndex byte s
  | .mgmtBusRead => Sys2Proof.Machine.execMgmtBusRead s
  | .waitTimeout c slot => Sys2Proof.Machine.execWaitTimeout c slot s
  | .inrushEnd r => Sys2Proof.Machine.execInrushEnd r s
  | .engLoadComplete c t => Sys2Proof.Machine.execEngLoadComplete c t s
  | .cacheEnable => Sys2Proof.Machine.execCacheEnable s
  | .hostSnoop line => Sys2Proof.Machine.execHostSnoop line s
  | .backInvalidateResponse line data => Sys2Proof.Machine.execBackInvalidateResponse line data s
  | .legacyFeedTimeout => Sys2Proof.Machine.execLegacyFeedTimeout s

end Sys2Proof.Machine
end

