-- ==== Sys2Proof/Safety.lean ====
section
/-! DEFINITION. What counts as a sound state and a safe step, in the terms that the claims use. -/

namespace Sys2Proof.Machine

/-- The canonical form of the Pantries: addresses strictly rising, and no byte listed that holds what an unlisted one reads
as. -/
def Memory.wf (m : List Host.Cell) : Bool := swf (fun _ => (0 : Byte)) m

/-- The canonical form of the stores that the claims speak of: registers, shadow copies, Pantries, their error marks and the
code stores. Equal contents are then equal data. -/
def State.canonical (s : State) : Bool :=
  swf resetOf s.regs && swf resetOf s.shadow && Memory.wf s.pantry && swf (fun _ => EccMark.clean) s.pantryEcc &&
    swf (fun _ => (0 : DWord)) s.code && swf (fun _ => EccMark.clean) s.codeEcc

/-- The state whose queue holds one command in front. -/
def State.with (s : State) (c : Instr) : State := { s with pending := c :: s.pending }

/-! ## What an instruction needs to issue, and what it leaves -/

/-- An instruction of core `c` whose word is `w` and whose next pc is `next` issues if its checks pass: the core is at a
boundary with no LATE_PUT due, its pc and the next pc lie in SEQ.CODE_LIM, and the code store holds `w` at the pc without an
error (R234, R246, R267 to R269). -/
structure State.Ready (s : State) (c : Nat) (w : DWord) (next : Int) : Prop where
  boundary : s.atBoundary c = true
  late : s.latePending c = false ∨ s.inHandler c = true
  here : s.inCode c (s.pc c) = true
  clean : s.codeMark c (s.pc c) = .clean
  word : s.codeAt c (s.pc c) = w
  there : s.inCode c next = true

/-- The registers that every issue writes. -/
def issueRegs (c : Nat) : List Nat := [Reg.SEQ_PC c, Reg.SEQ_ISSUED c, Reg.SEQ_STAT c]

/-- What every issue does: the pc is `next`, SEQ.ISSUED has counted, and SEQ.STAT shows RUN, no longer HELD and its other
bits as before (R234, R245, R246). -/
structure Issued (s t : State) (c : Nat) (next : Int) : Prop where
  pc : (t.pc c : Int) = next
  count : t.rd (Reg.SEQ_ISSUED c) = s.rd (Reg.SEQ_ISSUED c) + 1
  stat : t.rd (Reg.SEQ_STAT c) = Fl.SEQ_STAT_STATE.set (Fl.SEQ_STAT_HELD.set (s.rd (Reg.SEQ_STAT c)) 0) seqRun

/-- Every register outside a list is unchanged. -/
def RegsKept (s t : State) (except : List Nat) : Prop := ∀ o, o ∉ except → t.rd o = s.rd o
/-- Every Pantry byte is unchanged. -/
def PantryKept (s t : State) : Prop := ∀ d o, t.byte d o = s.byte d o
/-- Nothing but registers is changed. -/
def OnlyRegs (s t : State) : Prop := t = { s with regs := t.regs }

/-- Instruction `i` of core `c`, whose word is `w`, completes whenever it is ready: it issues on to the next instruction and
general register `gd` takes `v`, which g0 discards (R230); no other register and nothing else of the state changes. -/
def WritesG (i : Instr) (s : State) (c : Nat) (w : DWord) (gd : Nat) (v : DWord) : Prop :=
  s.Ready c w (s.pcNext c) →
    ∃ t, Machine.exec i s = .next t ∧ Issued s t c (s.pcNext c) ∧ t.g c gd = (if gd = 0 then 0 else v) ∧
      RegsKept s t (if gd = 0 then issueRegs c else Reg.SEQ_G c gd :: issueRegs c) ∧ PantryKept s t ∧ OnlyRegs s t

/-- Instruction `i` of core `c`, whose word is `w`, completes whenever it is ready with `next` as its next pc, and changes
nothing but the pc, SEQ.ISSUED and SEQ.STAT. -/
def GoesTo (i : Instr) (s : State) (c : Nat) (w : DWord) (next : Int) : Prop :=
  s.Ready c w next →
    ∃ t, Machine.exec i s = .next t ∧ Issued s t c next ∧ RegsKept s t (issueRegs c) ∧ PantryKept s t ∧ OnlyRegs s t

/-- What taking an exception leaves of a core with its handler enabled and not running (R266, R270): EPC and SEQ.EXC written,
IN_HANDLER set, HELD clear, the pc at the handler and the sequencer in RUN, no other register changed. -/
structure Entered (s t : State) (c : Nat) (x : Cause) (epc tok win : Nat) : Prop where
  epc : t.fld (Reg.SEQ_EPC c) Fl.SEQ_EPC_PC = epc
  exc : t.rd (Reg.SEQ_EXC c) = excWord x tok win
  pc : t.pc c = s.fld (Reg.SEQ_HANDLER c) Fl.SEQ_HANDLER_PC
  run : t.seq c = seqRun
  inside : t.inHandler c = true
  kept : RegsKept s t [Reg.SEQ_EPC c, Reg.SEQ_EXC c, Reg.SEQ_PC c, Reg.SEQ_STAT c]

/-- What an instruction that gives its operation to a token leaves: it has issued, and the token is PENDING with status OK and
one operation outstanding (R235). -/
structure Queued (s t : State) (c tok : Nat) : Prop where
  issued : Issued s t c (s.pcNext c)
  pending : t.tok c tok = tokPending
  ok : t.tokStatus c tok = stOk
  one : t.tokCount c tok = 1

/-- A token is PENDING with status OK, and one operation of it is outstanding. -/
structure State.OneOp (s : State) (c t : Nat) : Prop where
  range : t < 16
  pending : s.tok c t = tokPending
  one : s.tokCount c t = 1
  ok : s.tokStatus c t = stOk

/-- The vector unit's queue once the outputs that a token held are freed: an operation that was to free them frees nothing. -/
def State.unfreed (s : State) (c t : Nat) : List VecOp :=
  s.vecOps.map fun o => if o.core = c ∧ o.frees = some t then { o with frees := none } else o

/-- A token has completed with a status. -/
def State.Completed (s : State) (c t status : Nat) : Prop := s.tok c t = tokDone ∧ s.tokStatus c t = status

/-- The window operations of a core that have not completed hold tokens of it other than `t`. -/
def State.winPendsApart (s : State) (c t : Nat) : Prop := ∀ q ∈ s.winPends, q.core = c → q.tok < 16 ∧ q.tok ≠ t
/-- A window operation that has not completed, whose token no other one of its core holds. -/
def State.winPendAlone (s : State) (c : Nat) (p : WinPend) : Prop :=
  p ∈ s.winPends ∧ p.core = c ∧ ∀ q ∈ s.winPends, q.core = c → q.tok < 16 ∧ (q.tok = p.tok → q = p)

/-- No aperture line is cached by the host, so that no access has to wait for a back-invalidate (R558). -/
def State.noHostLines (s : State) : Prop := s.tracked = [] ∧ s.biWant = []

/-- aN + IMM of LD, LDW, ST and STW (R244). -/
def State.loadAddr (s : State) (c : Nat) (f : RFmt) : Int := ((s.a c f.ga.val).toNat : Int) + f.imm.toInt
/-- The address of an access of `n` bytes is in range and aligned (R231, R244). -/
structure State.AddrOk (s : State) (c : Nat) (f : RFmt) (n : Nat) : Prop where
  areg : f.ga.val < 8
  base : (s.a c f.ga.val).toNat < 0x8000000
  low : 0 ≤ s.loadAddr c f
  high : s.loadAddr c f + n ≤ 0x8000000
  aligned : s.loadAddr c f % n = 0

/-- No KV operation waits to start. -/
def State.kvIdle (s : State) : Prop := ∀ o ∈ s.kvOps, o.started = true
/-- No request is open, no park waits and no KV operation waits to start, so that serving requests changes nothing. -/
def State.noRequests (s : State) : Prop := s.reqs = [] ∧ s.host.parkDue = [] ∧ s.kvIdle

/-- No scrub of a Pantry is running, so that no write waits for the end of one (R196). -/
def State.noScrub (s : State) : Prop := ∀ c < 256, s.scrubbing c = false
/-- A core whose Pantry takes what a command writes to it: it is a core of this module, no dump is retained, and no scrub of
it is running. -/
def State.writable (s : State) (c : Nat) : Prop :=
  c < 256 ∧ s.flag Reg.DUMP_STAT Fl.DUMP_STAT_RETAINED = false ∧ s.scrubbing c = false

/-- A KV operation that has not ended at the front of its core's queue, where it is the only one of the module, and whose
token it alone holds. -/
structure State.KvFront (s : State) (o : KvOp) : Prop where
  core : o.core < 256
  alone : s.kvOps = [o]
  undone : o.done = none
  tok : s.OneOp o.core o.tok

/-- A core takes register accesses: it is in Run, Hold or Doze (R25), no load writes it (R393), and no back-invalidate is
wanted. -/
structure State.CoreTakes (s : State) (c : Nat) : Prop where
  on : s.sleep c < 3
  free : s.inWrite c .core = false
  still : s.biWant = []

/-- No load and no rebind is under way, and no back-invalidate is wanted. -/
structure State.Settled (s : State) : Prop where
  load : s.blk.load = none
  rebind : s.blk.rebind = none
  still : s.biWant = []

/-- The rates of a region's sources of skipping are codes of ARB.SKIP (R487, R502). -/
def State.ratesOk (s : State) (r : Nat) : Prop := ∀ k ∈ skipSources, s.skipOf r k ≤ 3

/-- No re-placement, under way or queued, has a swing core in region `r`. -/
def State.noSwingIn (s : State) (r : Nat) : Prop :=
  ∀ q ∈ s.faults.replace.toList ++ s.faults.replaceQ, regionOf q.swing ≠ r

/-- Region `r` has gone Dark (R32, R468, R480): it is not in Run, its domain is off, its cores are Dark without claims, and
what their Pantries held, but for a retained dump range, is gone. -/
structure GoneDark (t : State) (r : Nat) : Prop where
  down : t.inRun r = false
  off : t.domainOn r = false
  cores : ∀ c, c / 16 = r → t.sleep c = 4 ∧ t.binsGranted c = 0 ∧ t.engGranted c = 0
  pantry : ∀ c o, c / 16 = r → o < 0x7800000 → t.byte c o = 0

/-- A Prompt message has been sent by a port: it is among the port's flits that wait for credit or for their
acknowledgement (R431, R433). -/
def State.carries (t : State) (n : Nat) (m : PnMsg) : Prop :=
  ∃ f ∈ (t.port n).queued ++ (t.port n).unacked, f.type = 2 ∧ f.payload = (m.flits.map fun w => leBytes 4 w).flatten

/-- The number of fault records written (R567). -/
def State.faultCount (s : State) : Nat := s.fld Reg.DUMP_ERR_HEAD Fl.DUMP_ERR_HEAD_NEXT_SEQ
/-- The re-placements under way and queued. -/
def State.replacements (s : State) : Nat := (s.faults.replace.toList ++ s.faults.replaceQ).length
/-- A record of a fault is the newest in the error log (R567). -/
def State.logged (s t : State) (code : Nat) (u : FaultUnit) (part : Option Nat) (outcome detail : Nat) : Prop :=
  t.faultCount = (s.faultCount + 1) % 2 ^ 32 ∧
    (ringAt t.errLog (s.faultCount % 1024)).bytes = s.errRecord s.faultCount code u part outcome detail

/-- A good flit of a type arrives at a port that is UP and holds nothing back; it asks for no replay (R430 to R433). -/
structure State.Arrives (s : State) (n type : Nat) (bs : List Byte) : Prop where
  up : s.portUp n = true
  good : flitGood bs = true
  type : leAt bs 0 1 = type
  noNak : bitOf (leAt bs 4 2) 15 = false
  quiet : (s.port n).queued = []
/-- A numbered flit is the next in order (R433). -/
def State.inOrder (s : State) (n : Nat) (bs : List Byte) : Prop := leAt bs 2 2 % 4096 = ((s.port n).rxSeq + 1) % 4096
/-- The payload bytes of a flit (R430). -/
def payloadOf (bs : List Byte) : List Byte := bytesAt bs 12 (min (leAt bs 8 2) 240)

/-- Nothing but requests depends on the host link: no context, no transfer of the Loft, no install, load, re-placement or
dump, and no KV operation waits to start. -/
structure State.LinkFree (s : State) : Prop where
  parks : s.host.parkDue = []
  ctxs : s.ctxs = []
  fetches : s.loftFetches = []
  spills : s.spills = []
  inst : s.inst = none
  load : s.blk.load = none
  replace : s.faults.replace = none
  dump : s.faults.dump = none
  kv : s.kvIdle

/-- A register of the host interface block. -/
def hifReg (o : Nat) : Prop := Reg.HIF_STAT ≤ o ∧ o < Reg.HIF_STAT + 0x10000

/-- The host accesses the aperture at `a`: the link is up, HDM decoding is enabled, and `a` lies in the 32 GiB (R556,
R557). -/
structure State.Aperture (s : State) (a : DWord) : Prop where
  link : s.linkUp = true
  mem : s.memEn = true
  inside : a.toNat < 2 ^ 35

/-- A register of the DUMP block. -/
def dumpReg (o : Nat) : Prop := Reg.DUMP_STAT ≤ o ∧ o < Reg.FAB_STAT

/-- What module reset leaves (R24, R595, R605, R606, R620): the queue, what the cellar, the firmware store and the fuses hold,
the selector's copy, and no request, context or message. A copy whose update a reset interrupts stays whole or fails R602, and
the other one stays. -/
structure ResetOf (s t : State) : Prop where
  queue : t.pending = s.pending
  cellar : t.cells = s.cells ∧ t.wear = s.wear ∧ t.thresholds = s.thresholds ∧ t.threshBad = s.threshBad ∧
    t.labelEcc = s.labelEcc
  store : s.fwState ≠ fwFetch → t.sec.copyA = s.sec.copyA ∧ t.sec.copyB = s.sec.copyB
  running : ∀ c < 2, c ≠ s.updateCopy → t.firmware c = s.firmware c
  broken : ∀ c < 2, t.firmware c = s.firmware c ∨ t.fwError (t.firmware c) ≠ 0
  fused : t.rd Reg.SEC_SVN_FUSED = s.rd Reg.SEC_SVN_FUSED
  nextCopy : t.fld Reg.SEC_FW_STAT Fl.SEC_FW_STAT_NEXT_COPY = s.fld Reg.SEC_FW_STAT Fl.SEC_FW_STAT_NEXT_COPY
  work : t.reqs = [] ∧ t.ctxs = [] ∧ t.pn = [] ∧ t.net = [] ∧ t.passes = []

/-- The registers that a boot's first steps write: the straps, and MEAS_0 with its count and the log's head (R596, R608). -/
def romRegs : List Nat :=
  [Reg.LNK_MODULE, Reg.PWR_STAT, Reg.SEC_LOG_HEAD, Reg.SEC_LOG_LOST, Reg.SEC_MEAS_COUNT 0] ++
    (List.range 8).map fun k => Reg.SEC_MEAS 0 k

/-- No request, context or KV message is open, so that a stop of partitions discards passes only. -/
structure State.Quiet (s : State) : Prop where
  reqs : s.noRequests
  ctxs : s.ctxs = []
  kv : ∀ m ∈ s.pn, m.body.kvOf = none
  still : s.biWant = []

/-- Every core that code of its image serves, that had halted and is awake, runs at SEQ.START_PC (R574). -/
def Restarted (s t : State) (p : Nat) : Prop :=
  ∀ k m b, s.imageIn p = some (k, m, b) → ∀ c ∈ s.coresIn p, (codeOf m.secs (s.bind c).role).isSome = true → s.sleep c < 3 →
    s.seq c = seqHalted → s.fatal = false → t.seq c = seqRun ∧ t.pc c = s.fld (Reg.SEQ_START_PC c) Fl.SEQ_START_PC_PC

/-- Whether a step goes on to a next state. -/
def goesOn (s : State) : Bool :=
  match step s with
  | .next _ => true
  | _ => false

end Sys2Proof.Machine
end

