-- ==== Sys2Proof/Certificates/Slice0/Obligations.lean ====
section
/-! DEFINITION. The statements for the provers. -/

open Sys2Proof Sys2Proof.Machine

/-! ## The step -/

/-- With a command at the front of the queue, a step is that command's effect on the state with the queue's rest. -/
def Obligations.StepRunsFrontCommand : Prop := ∀ (c : Instr) (s : State), step (s.with c) = exec c s

/-! ## Scalar instructions -/

/-- R243: every ALU instruction with its reserved bits 0 writes its result to gd, with b = gb + IMM sign-extended, and
changes nothing else; LIH with GB 0. -/
def Obligations.AluWritesResult : Prop :=
  ∀ (c : CoreId) (f : RFmt) (s : State), f.resv = 0 →
    let x := s.g c f.ga.val
    let b := BitVec.ofInt 64 ((s.g c f.gb.val).toInt + f.imm.toInt)
    let k := b.toNat % 64
    WritesG (.add c f) s c (f.word 0x01) f.gd.val (BitVec.ofNat 64 (x.toNat + b.toNat)) ∧
    WritesG (.sub c f) s c (f.word 0x02) f.gd.val (BitVec.ofInt 64 (x.toInt - b.toInt)) ∧
    WritesG (.mul c f) s c (f.word 0x03) f.gd.val (BitVec.ofNat 64 (x.toNat * b.toNat)) ∧
    WritesG (.and c f) s c (f.word 0x04) f.gd.val (x &&& b) ∧
    WritesG (.or c f) s c (f.word 0x05) f.gd.val (x ||| b) ∧
    WritesG (.xor c f) s c (f.word 0x06) f.gd.val (x ^^^ b) ∧
    WritesG (.shl c f) s c (f.word 0x07) f.gd.val (BitVec.ofNat 64 (x.toNat * 2 ^ k)) ∧
    WritesG (.shr c f) s c (f.word 0x08) f.gd.val (BitVec.ofNat 64 (x.toNat / 2 ^ k)) ∧
    WritesG (.sra c f) s c (f.word 0x09) f.gd.val (BitVec.ofInt 64 (x.toInt / 2 ^ k)) ∧
    WritesG (.min c f) s c (f.word 0x0A) f.gd.val (BitVec.ofInt 64 (min x.toInt b.toInt)) ∧
    WritesG (.max c f) s c (f.word 0x0B) f.gd.val (BitVec.ofInt 64 (max x.toInt b.toInt)) ∧
    WritesG (.slt c f) s c (f.word 0x0C) f.gd.val (if x.toInt < b.toInt then 1 else 0) ∧
    WritesG (.sltu c f) s c (f.word 0x0D) f.gd.val (if x.toNat < b.toNat then 1 else 0) ∧
    (f.gb = 0 →
      WritesG (.lih c f) s c (f.word 0x0E) f.gd.val (BitVec.ofNat 64 (x.toNat % 2 ^ 32 + 2 ^ 32 * f.imm.toNat)))

/-- R246, R266, R269, R270: BRK raises BREAK with EPC at itself; a pending LATE_PUT is taken at the boundary with EPC at the
instruction that would have issued and names its window, and clears LATE_PENDING. With the handler enabled and not running,
both enter it. R241: an ALU instruction with a reserved bit set, and LIH with GB not 0, raises ILLEGAL with EPC at the
instruction; with the handler enabled and not running, it is entered. R270: without an enabled handler BRK leaves the
sequencer FAULTED with EPC at itself and sends a fault notice; inside the handler it also sets NESTED and keeps EPC. -/
def Obligations.ExceptionsAreTaken : Prop :=
  (∀ (c : CoreId) (f : BFmt) (s : State),
      s.flag (Reg.SEQ_HANDLER c) Fl.SEQ_HANDLER_EN = true → s.inHandler c = false →
      (f.resvLo = 0 → f.resvHi = 0 → s.Ready c (f.word 0x2C) (s.pcNext c) →
        ∃ t, exec (.brk c f) s = .next t ∧ Entered s t c .break (s.pc c) 0 0 ∧ PantryKept s t) ∧
      (∀ w : WinId, s.latePending c = true → sread (fun _ => none) s.lateWin c = some w.val → s.sleep c = 0 →
        (s.seq c = seqRun ∨ s.seq c = seqWait) →
        ∃ t, exec (.latePut c) s = .next t ∧ Entered s t c .latePut (s.pc c) 0 w ∧ t.latePending c = false ∧
          PantryKept s t)) ∧
  (∀ (c : CoreId) (f : RFmt) (s : State),
      s.flag (Reg.SEQ_HANDLER c) Fl.SEQ_HANDLER_EN = true → s.inHandler c = false →
      ∀ e ∈ [(Instr.add c f, (0x01 : Byte)), (.sub c f, 0x02), (.mul c f, 0x03), (.and c f, 0x04), (.or c f, 0x05),
          (.xor c f, 0x06), (.shl c f, 0x07), (.shr c f, 0x08), (.sra c f, 0x09), (.min c f, 0x0A), (.max c f, 0x0B),
          (.slt c f, 0x0C), (.sltu c f, 0x0D), (.lih c f, 0x0E)],
        f.resv ≠ 0 ∨ (e.2 = 0x0E ∧ f.gb ≠ 0) →
        s.Ready c (f.word e.2) (s.pcNext c) →
        ∃ t, exec e.1 s = .next t ∧ Entered s t c .illegal (s.pc c) 0 0 ∧ PantryKept s t) ∧
  (∀ (c : CoreId) (f : BFmt) (s : State), f.resvLo = 0 → f.resvHi = 0 → s.Ready c (f.word 0x2C) (s.pcNext c) →
      (s.inHandler c = false → s.flag (Reg.SEQ_HANDLER c) Fl.SEQ_HANDLER_EN = false →
        ∃ t, exec (.brk c f) s = .next t ∧ t.seq c = seqFaulted ∧ t.fld (Reg.SEQ_EPC c) Fl.SEQ_EPC_PC = s.pc c ∧
          t.rd (Reg.SEQ_EXC c) = 0x12 ∧ t.pc c = s.pc c ∧
          t.pn = s.pn ++ [⟨s.nextId, nodeManager, s.module, c, s.module, 0, 0, .fault c 0x12⟩] ∧ PantryKept s t) ∧
      (s.inHandler c = true →
        ∃ t, exec (.brk c f) s = .next t ∧ t.seq c = seqFaulted ∧
          t.flag (Reg.SEQ_STAT c) Fl.SEQ_STAT_NESTED = true ∧
          t.fld (Reg.SEQ_EPC c) Fl.SEQ_EPC_PC = s.fld (Reg.SEQ_EPC c) Fl.SEQ_EPC_PC ∧ t.rd (Reg.SEQ_EXC c) = 0x12 ∧
          t.pn = s.pn ++ [⟨s.nextId, nodeManager, s.module, c, s.module, 0, 0, .fault c 0x12⟩] ∧ PantryKept s t))

/-- R244, R245: SETA, GETA, RDC and TST. SETA writes bits [31:0] of ga + IMM to an address register; the others write gd,
GETA the low 32 bits of aN + IMM, zero-extended (the model's reading, log entry 11). -/
def Obligations.RegisterInstructionsCopy : Prop :=
  ∀ (c : CoreId) (f : RFmt) (s : State), f.resv = 0 →
    (f.gd.val < 8 → s.Ready c (f.word 0x14) (s.pcNext c) →
      ∃ t, exec (.seta c f) s = .next t ∧ Issued s t c (s.pcNext c) ∧
        t.a c f.gd.val = BitVec.ofInt 32 ((s.g c f.ga.val).toInt + f.imm.toInt) ∧
        RegsKept s t (Reg.SEQ_A c f.gd.val :: issueRegs c) ∧ PantryKept s t ∧ OnlyRegs s t) ∧
    WritesG (.geta c f) s c (f.word 0x15) f.gd.val
      (BitVec.ofNat 64 (BitVec.ofInt 32 ((s.a c (f.ga.val % 8)).toNat + f.imm.toInt)).toNat) ∧
    (f.imm = 0 → WritesG (.rdc c f) s c (f.word 0x16) f.gd.val (s.aoc (c.val / 16))) ∧
    (f.imm = 1 → WritesG (.rdc c f) s c (f.word 0x16) f.gd.val (s.cyc c)) ∧
    (f.imm = 2 → WritesG (.rdc c f) s c (f.word 0x16) f.gd.val (s.coreId c)) ∧
    (f.imm = 3 → WritesG (.rdc c f) s c (f.word 0x16) f.gd.val (s.rd (Reg.SEQ_ISSUED c))) ∧
    (f.imm.toNat < 16 → WritesG (.tst c f) s c (f.word 0x17) f.gd.val
      (BitVec.ofNat 64 (s.tok c f.imm.toNat + 256 * s.tokStatus c f.imm.toNat)))

/-- R246: each branch goes to pc + OFS where its comparison holds and to the next instruction where it does not. R246:
JMP, CALL, JR, RETX, HALT and NOP. CALL saves pc + 1 in g31; RETX, inside a handler, returns to EPC and clears IN_HANDLER;
HALT leaves the sequencer HALTED with the pc at the next instruction; at SEQ.CODE_LIM.HI it raises CODE_BOUNDS as any
instruction does whose next pc lies outside SEQ.CODE_LIM (the model's reading, log entry 60). -/
def Obligations.BranchesAndJumpsSetThePc : Prop :=
  (∀ (c : CoreId) (f : BFmt) (s : State), f.resvLo = 0 → f.resvHi = 0 →
      let x := s.g c f.ga.val
      let y := s.g c f.gb.val
      let dst : Bool → Int := fun b => if b then (s.pc c : Int) + f.ofs.toInt else s.pc c + 1
      GoesTo (.beq c f) s c (f.word 0x20) (dst (x.toNat = y.toNat)) ∧
      GoesTo (.bne c f) s c (f.word 0x21) (dst (x.toNat ≠ y.toNat)) ∧
      GoesTo (.blt c f) s c (f.word 0x22) (dst (x.toInt < y.toInt)) ∧
      GoesTo (.bge c f) s c (f.word 0x23) (dst (y.toInt ≤ x.toInt)) ∧
      GoesTo (.bltu c f) s c (f.word 0x24) (dst (x.toNat < y.toNat)) ∧
      GoesTo (.bgeu c f) s c (f.word 0x25) (dst (y.toNat ≤ x.toNat))) ∧
  (∀ (c : CoreId) (f : BFmt) (s : State), f.resvLo = 0 → f.resvHi = 0 →
      GoesTo (.jmp c f) s c (f.word 0x26) ((s.pc c : Int) + f.ofs.toInt) ∧
      (s.Ready c (f.word 0x27) ((s.pc c : Int) + f.ofs.toInt) →
        ∃ t, exec (.call c f) s = .next t ∧ Issued s t c ((s.pc c : Int) + f.ofs.toInt) ∧
          t.g c 31 = BitVec.ofNat 64 (s.pc c + 1) ∧ RegsKept s t (Reg.SEQ_G c 31 :: issueRegs c) ∧ PantryKept s t ∧
          OnlyRegs s t) ∧
      GoesTo (.jr c f) s c (f.word 0x28) (s.g c f.ga.val).toNat ∧
      (s.inHandler c = true → s.Ready c (f.word 0x29) (s.fld (Reg.SEQ_EPC c) Fl.SEQ_EPC_PC) →
        ∃ t, exec (.retx c f) s = .next t ∧ t.pc c = s.fld (Reg.SEQ_EPC c) Fl.SEQ_EPC_PC ∧ t.inHandler c = false ∧
          t.seq c = seqRun ∧ RegsKept s t (issueRegs c) ∧ PantryKept s t ∧ OnlyRegs s t) ∧
      (s.Ready c (f.word 0x2A) (s.pcNext c) →
        ∃ t, exec (.halt c f) s = .next t ∧ t.seq c = seqHalted ∧ t.pc c = s.pc c + 1 ∧ RegsKept s t (issueRegs c) ∧
          PantryKept s t ∧ OnlyRegs s t) ∧
      (s.Ready c (f.word 0x2A) (s.pc c) → s.inCode c (s.pcNext c) = false → s.inHandler c = false →
        s.flag (Reg.SEQ_HANDLER c) Fl.SEQ_HANDLER_EN = true →
        ∃ t, exec (.halt c f) s = .next t ∧ Entered s t c .codeBounds (s.pc c) 0 0 ∧ PantryKept s t) ∧
      GoesTo (.nop c f) s c (f.word 0x2B) (s.pcNext c))

/-! ## Loads and stores -/

/-- R244: LD and LDW of clean words write the little-endian value at aN + IMM, zero-extended, to gd and change nothing
else. R244: ST and STW write the low bytes of gb, least significant first, to the bytes at aN + IMM, and no other byte; a
range that holds a retained dump keeps its bytes (R589). No register changes but those of every issue. R196: during a scrub of
the core's Pantry a store does not issue: the core is HELD at it, and no byte changes. -/
def Obligations.LoadsAndStoresMoveData : Prop :=
  (∀ (c : CoreId) (f : RFmt) (s : State), f.resv = 0 → s.noHostLines →
      let o := (s.loadAddr c f).toNat
      (s.AddrOk c f 8 → s.ecc c o = .clean →
        WritesG (.ld c f) s c (f.word 0x10) f.gd.val (BitVec.ofNat 64 (leNat (s.bytes c o 8)))) ∧
      (s.AddrOk c f 4 → s.ecc c o = .clean →
        WritesG (.ldw c f) s c (f.word 0x11) f.gd.val (BitVec.ofNat 64 (leNat (s.bytes c o 4))))) ∧
  (∀ (c : CoreId) (f : RFmt) (s : State), f.resv = 0 → s.noHostLines →
      let o := (s.loadAddr c f).toNat
      ∀ e ∈ [(Instr.st c f, (0x12 : Byte), 8), (.stw c f, 0x13, 4)],
        s.AddrOk c f e.2.2 → s.ecc c o = .clean → s.scrubbing c = false → s.Ready c (f.word e.2.1) (s.pcNext c) →
        ∃ t, exec e.1 s = .next t ∧ Issued s t c (s.pcNext c) ∧ RegsKept s t (issueRegs c) ∧
          ∀ d p, p < 0x8000000 →
            t.byte d p =
              if d = c.val ∧ o ≤ p ∧ p < o + e.2.2 ∧ s.dumpHeld c o = false
              then BitVec.ofNat 8 ((s.g c f.gb.val).toNat / 256 ^ (p - o)) else s.byte d p) ∧
  (∀ (c : CoreId) (f : RFmt) (s : State), f.resv = 0 → s.noHostLines →
      ∀ e ∈ [(Instr.st c f, (0x12 : Byte), 8), (.stw c f, 0x13, 4)],
        s.AddrOk c f e.2.2 → s.scrubbing c = true → s.Ready c (f.word e.2.1) (s.pcNext c) →
        ∃ t, exec e.1 s = .next t ∧ t.flag (Reg.SEQ_STAT c) Fl.SEQ_STAT_HELD = true ∧ t.pc c = s.pc c ∧
          t.rd (Reg.SEQ_ISSUED c) = s.rd (Reg.SEQ_ISSUED c) ∧ PantryKept s t)

/-- R195, R244: a load that meets a word with a corrected error delivers the corrected data, counts in CORE.ECC_COUNT.CE and
leaves the word clean; one that meets a poisoned word raises POISON_LOAD and leaves gd. R231, R244, R266, R268: LD, LDW, ST
and STW raise PANTRY_RANGE where the register or the range leaves the Pantry, and otherwise MISALIGNED where the address is
not aligned, with EPC at the instruction and no byte changed. -/
def Obligations.LoadsAndStoresMeetErrors : Prop :=
  (∀ (c : CoreId) (f : RFmt) (s : State), f.resv = 0 → s.noHostLines → s.AddrOk c f 8 →
      s.Ready c (f.word 0x10) (s.pcNext c) →
      let o := (s.loadAddr c f).toNat
      (s.ecc c o = .correctable → (sread (fun _ => []) s.faults.eccTimes (2 * c.val)).length < 15 →
        (sread (fun _ => []) s.faults.eccTimes (2 * c.val + 1)).length < 4 →
        ∃ t, exec (.ld c f) s = .next t ∧
          t.g c f.gd.val = (if f.gd.val = 0 then 0 else BitVec.ofNat 64 (leNat (s.bytes c o 8))) ∧ t.ecc c o = .clean ∧
          t.fld (Reg.CORE_ECC_COUNT c) Fl.CORE_ECC_COUNT_CE =
            min (s.fld (Reg.CORE_ECC_COUNT c) Fl.CORE_ECC_COUNT_CE + 1) (2 ^ Fl.CORE_ECC_COUNT_CE.width - 1) ∧
          PantryKept s t) ∧
      (s.ecc c o = .poisoned → s.flag (Reg.SEQ_HANDLER c) Fl.SEQ_HANDLER_EN = true → s.inHandler c = false →
        ∃ t, exec (.ld c f) s = .next t ∧ Entered s t c .poisonLoad (s.pc c) 0 0 ∧ PantryKept s t)) ∧
  (∀ (c : CoreId) (f : RFmt) (s : State), f.resv = 0 → f.ga.val < 8 →
      s.flag (Reg.SEQ_HANDLER c) Fl.SEQ_HANDLER_EN = true → s.inHandler c = false → s.noHostLines →
      let a := s.loadAddr c f
      ∀ e ∈ [(Instr.ld c f, (0x10 : Byte), (8 : Int)), (.ldw c f, 0x11, 4), (.st c f, 0x12, 8), (.stw c f, 0x13, 4)],
        s.Ready c (f.word e.2.1) (s.pcNext c) →
        let out := 0x8000000 ≤ (s.a c f.ga.val).toNat ∨ a < 0 ∨ 0x8000000 < a + e.2.2
        (out → ∃ t, exec e.1 s = .next t ∧ Entered s t c .pantryRange (s.pc c) 0 0 ∧ PantryKept s t) ∧
        (¬out → a % e.2.2 ≠ 0 → ∃ t, exec e.1 s = .next t ∧ Entered s t c .misaligned (s.pc c) 0 0 ∧ PantryKept s t))

/-! ## Waiting and sleeping -/

/-- R247: a TWAIT whose condition is met, and which TRAP does not stop, gives gd the mask of the DONE tokens of MASK, an
IDLE token counting as DONE; under TRAP a DONE token of MASK with a status other than OK raises STATUS, whether or not the
condition is met (the model's reading, log entry 71). R247, R248: a TWAIT whose condition is not met, and which TRAP does not
stop, blocks: the sequencer is in WAIT with the pc at the TWAIT, and the core, unless it was woken in the same 250 ns, enters
Hold for SLEEP 1 where the image permits it, and stays in Run for SLEEP 0. -/
def Obligations.TwaitCompletesOrBlocks : Prop :=
  (∀ (c : CoreId) (f : CFmt) (s : State), f.resv = 0 → f.join = false → f.tok = 0 →
      let m := f.imm.toNat % 65536
      let any := f.imm.getLsbD 16
      let trap := f.imm.getLsbD 17
      let done : Nat → Bool := fun t => m.testBit t && s.tok c t != tokPending
      let fails : Prop := ∃ t < 16, m.testBit t = true ∧ s.tok c t = tokDone ∧ s.tokStatus c t ≠ stOk
      m ≠ 0 → f.imm.toNat / 2 ^ 18 < 3 →
      (trap = false ∨ ¬fails →
        (any = true → ∃ t < 16, done t = true) → (any = false → ∀ t < 16, m.testBit t = true → done t = true) →
        WritesG (.twait c f) s c (f.word 0x30) f.gd.val
          (BitVec.ofNat 64 (((List.range 16).filter done).foldl (fun a t => a + 2 ^ t) 0))) ∧
      (trap = true → fails → s.flag (Reg.SEQ_HANDLER c) Fl.SEQ_HANDLER_EN = true → s.inHandler c = false →
        s.Ready c (f.word 0x30) (s.pcNext c) →
        ∃ t, exec (.twait c f) s = .next t ∧ Entered s t c .status (s.pc c) 0 0 ∧ PantryKept s t)) ∧
  (∀ (c : CoreId) (f : CFmt) (s : State), f.resv = 0 → f.join = false → f.tok = 0 → f.imm.getLsbD 16 = false →
      (∃ t < 16, f.imm.getLsbD t = true ∧ s.tok c t = tokPending) →
      (f.imm.getLsbD 17 = true → ∀ t < 16, f.imm.getLsbD t = true → s.tok c t = tokDone → s.tokStatus c t = stOk) →
      s.woken c ≠ some s.now → s.Ready c (f.word 0x30) (s.pcNext c) →
      let hold := s.bound c && (s.bind c).sleep.testBit 0
      ∀ k, k < 2 → f.imm.toNat / 2 ^ 18 = k →
        ∃ t, exec (.twait c f) s = .next t ∧ t.seq c = seqWait ∧ t.pc c = s.pc c ∧
          t.twaits = s.twaits ++ [⟨c, f.imm.toNat % 65536, false, f.imm.getLsbD 17, f.gd⟩] ∧
          t.sleep c = (if k = 1 ∧ hold = true then 1 else 0) ∧
          RegsKept s t [Reg.SEQ_STAT c, sleepReg c] ∧ PantryKept s t)

/-- R247, R248, R472: the end of a wait, with no LATE_PUT due. In Run a blocked TWAIT whose condition is met gives gd its mask
and issues; a core in Hold or Doze starts to wake, and when the wake is done it is in Run. R268, R269: a LATE_PUT that is
pending abandons the blocked TWAIT and is taken first, with EPC at the TWAIT. R25, R233, R472: a core that wakes from Retain
is in Run with its sequencer HALTED, its tokens IDLE and its general registers 0, while SEQ.START_PC, SEQ.HANDLER,
SEQ.CODE_LIM, the window descriptors and the Pantry are kept. R111, R473: a Doze or Retain entry that waited takes effect once
no evaluation of the core is in flight: Doze while its TWAIT still blocks, Retain while the core is halted. -/
def Obligations.CoresWakeAndSleep : Prop :=
  (∀ (c : CoreId) (s : State) (w : Twait), s.twaits.find? (fun t => t.core == c.val) = some w →
      s.waitMet c w.mask w.any = true → w.trap = false →
      (s.sleep c = 0 → s.latePending c = true → s.inHandler c = false →
        s.flag (Reg.SEQ_HANDLER c) Fl.SEQ_HANDLER_EN = true → ∀ n : WinId, sread (fun _ => none) s.lateWin c = some n.val →
        ∃ t, exec (.twaitComplete c) s = .next t ∧ Entered s t c .latePut (s.pc c) 0 n ∧ t.latePending c = false ∧
          t.twaits = s.twaits.filter (fun u => u.core != c.val)) ∧
      (s.sleep c = 0 → (s.latePending c = false ∨ s.inHandler c = true) → s.inCode c (s.pcNext c) = true →
        ∃ t, exec (.twaitComplete c) s = .next t ∧ Issued s t c (s.pcNext c) ∧
          t.g c w.gd = (if w.gd = 0 then 0 else s.waitResult c w.mask) ∧
          t.twaits = s.twaits.filter (fun u => u.core != c.val)) ∧
      ((s.sleep c = 1 ∨ s.sleep c = 2) → s.waking.contains c.val = false →
        ∃ t, exec (.twaitComplete c) s = .next t ∧
          t = { s with waking := s.waking ++ [c.val], wokeAt := swrite (fun _ => none) s.wokeAt c.val (some s.now) }) ∧
      ((s.sleep c = 1 ∨ s.sleep c = 2) → s.waking.contains c.val = true → (s.latePending c = false ∨ s.inHandler c = true) →
        s.inCode c (s.pcNext c) = true →
        ∃ t, exec (.coreWakeDone c) s = .next t ∧ t.sleep c = 0 ∧ t.waking.contains c.val = false ∧
          (t.pc c : Int) = s.pcNext c ∧ t.seq c = seqRun)) ∧
  (∀ (c : CoreId) (s : State), s.waking.contains c.val = true → s.sleep c = 3 →
      ∃ t, exec (.coreWakeDone c) s = .next t ∧ t.sleep c = 0 ∧ t.seq c = seqHalted ∧
        (∀ n < 16, t.tok c n = tokIdle) ∧ (∀ n < 32, t.g c n = 0) ∧
        t.rd (Reg.SEQ_START_PC c) = s.rd (Reg.SEQ_START_PC c) ∧ t.rd (Reg.SEQ_HANDLER c) = s.rd (Reg.SEQ_HANDLER c) ∧
        t.rd (Reg.SEQ_CODE_LIM c) = s.rd (Reg.SEQ_CODE_LIM c) ∧
        (∀ w < 64, t.rd (Reg.WDS_WIN_BASE c w) = s.rd (Reg.WDS_WIN_BASE c w)) ∧
        (∀ k i, t.codeAt k i = s.codeAt k i) ∧ PantryKept s t) ∧
  (∀ (c : CoreId) (s : State), s.sleep c = 0 →
      (s.evalInFlight c = true → exec (.sleepEntry c) s = .next s) ∧
      (s.evalInFlight c = false → s.want c = 2 → (s.twaits.any fun t => t.core == c.val) = true →
        ∃ t, exec (.sleepEntry c) s = .next t ∧ t.sleep c = 2 ∧ t.want c = 0 ∧ RegsKept s t [sleepReg c]) ∧
      (s.evalInFlight c = false → s.want c = 3 → s.seq c = seqHalted →
        ∃ t, exec (.sleepEntry c) s = .next t ∧ t.sleep c = 3 ∧ t.want c = 0 ∧ RegsKept s t [sleepReg c]))

/-! ## Engines -/

/-- R238, R249, R250: ENG.LOAD, ENG.RUN and ENG.DRAIN whose checks pass give every engine of MASK their operation with the
operands of their registers, and their token becomes PENDING. R187, R250: ENG.MODE on engines that are empty switches them
between whole and quadrant mode, and its token completes. -/
def Obligations.EngineInstructionsIssue : Prop :=
  (∀ (c : CoreId) (f : UFmt) (s : State), f.fn = 0 →
      let es := maskList 24 (engMask f)
      let src := (s.a c f.as.val).toNat
      let dst := (s.a c f.ad.val).toNat
      let g := (s.g c f.gn.val).toNat
      es ≠ [] → s.quadrantBad c f = false → s.engineBad c (engMask f) = false → s.engFull c (engMask f) = false →
      s.tok c f.tok ≠ tokPending → (∀ o ∈ s.engOps, o.work.isMode = false) → s.dropOf c = none →
      let op := fun w => (⟨c, f.tok, engMask f, engQuadrant f, w⟩ : EngOp)
      (∀ pair, pair < 4 → immF f.imm 24 3 = pair → f.sr = false → immB f.imm 27 = false →
        (pair ≠ 1 → immB f.imm 30 = false ∧ immB f.imm 31 = false) → src < pantrySize →
        (∀ k e, es[k]? = some e → src + k * g + tileBytes pair (s.engQuadIssued c e) ≤ pantrySize) →
        s.Ready c (f.word 0x40) (s.pcNext c) →
        ∃ t, exec (.engLoad c f) s = .next t ∧ Queued s t c f.tok ∧
          t.engOps = s.engOps ++ [op (.load pair (immB f.imm 30) (immB f.imm 31) src g)] ∧ PantryKept s t) ∧
      (∀ vb, f.sr = false → immF f.imm 24 3 = 0 → immB f.imm 30 = false → immB f.imm 31 = false → g ≠ 0 →
        (∀ e ∈ es, vecBytes (s.pairIssued c e (if s.engQuadIssued c e then engQuadrant f else 0)) (s.engQuadIssued c e) = vb) →
        src < pantrySize → src + g * vb ≤ pantrySize →
        (∀ e ∈ es, dst % tileOuts (s.engQuadIssued c e) = 0 ∧
          dst + tileOuts (s.engQuadIssued c e) * g ≤ accSize (s.engQuadIssued c e)) →
        s.Ready c (f.word 0x41) (s.pcNext c) →
        ∃ t, exec (.engRun c f) s = .next t ∧ Queued s t c f.tok ∧
          t.engOps = s.engOps ++ [op (.run g src dst (immB f.imm 27))] ∧ PantryKept s t) ∧
      (∀ df, df < 5 → immF f.imm 24 3 = df → immB f.imm 27 = false → immB f.imm 30 = false → immB f.imm 31 = false →
        dst < pantrySize → dst + es.length * g * drainBytes df ≤ pantrySize →
        (∀ e ∈ es, src + g ≤ accSize (s.engQuadIssued c e)) → s.Ready c (f.word 0x42) (s.pcNext c) →
        ∃ t, exec (.engDrain c f) s = .next t ∧ Queued s t c f.tok ∧
          t.engOps = s.engOps ++ [op (.drain g src dst df f.sr)] ∧ PantryKept s t)) ∧
  (∀ (c : CoreId) (f : UFmt) (s : State), f.fn = 0 → f.sr = false → maskList 24 (engMask f) ≠ [] →
      s.quadrantBad c f = false → s.engineBad c (engMask f) = false → s.tok c f.tok ≠ tokPending →
      (∀ o ∈ s.engOps, o.core ≠ c.val) → s.dropOf c = none → immF f.imm 24 3 = 0 → immB f.imm 30 = false →
      immB f.imm 31 = false → s.Ready c (f.word 0x43) (s.pcNext c) →
      ∃ t, exec (.engMode c f) s = .next t ∧ Issued s t c (s.pcNext c) ∧ t.tok c f.tok = tokDone ∧
        t.tokStatus c f.tok = stOk ∧ t.engOps = s.engOps ∧
        (∀ e < 24, t.engQuad c e = if (engMask f).testBit e then immB f.imm 27 else s.engQuad c e) ∧ PantryKept s t)

/-- R182, R185, R191, R250: the oldest operation of an engine ends and its token is DONE. A load leaves the k-th engine of its
mask with the tile at its source plus k strides; a run leaves in entry j × outs + n, from its first entry on, output n of
vector j, replacing or adding to what the entry held, tagged where a poisoned operand feeds it (R195); a drain that rounds to
nearest leaves each entry converted to its format in the Pantry. -/
def Obligations.EngineCompletionsDeliver : Prop :=
  ∀ (c : CoreId) (tk : TokId) (s : State) (o : EngOp), s.noHostLines → s.engFront o = true →
    s.tok c tk = tokPending → s.tokCount c tk = 1 → s.tokStatus c tk = stOk → o.quadrant < 4 →
    s.flag Reg.DUMP_STAT Fl.DUMP_STAT_RETAINED = false →
    (∀ pair fw fx src stride, o.work = .load pair fw fx src stride → s.findEng c tk EngWork.isLoad = some o →
      o.mask &&& (0xFFFFFF ^^^ s.active c) = 0 →
      ∃ t, exec (.engLoadComplete c tk) s = .next t ∧ t.tok c tk = tokDone ∧ t.tokStatus c tk = stOk ∧
        (∀ k e, (maskList 24 o.mask)[k]? = some e →
          t.tile c e (s.quadOf o e) =
            ⟨pair, fw, fx, s.operands c (src + k * stride) (tileBytes pair (s.engQuad c e)) pair fw,
              s.badOperands c (src + k * stride) (tileBytes pair (s.engQuad c e)) pair⟩) ∧
        PantryKept s t) ∧
    (∀ m src acc add, o.work = .run m src acc add → s.findEng c tk EngWork.isRun = some o →
      o.mask &&& (0xFFFFFF ^^^ s.active c) = 0 →
      (∀ e ∈ maskList 24 o.mask, acc + tileOuts (s.engQuad c e) * m ≤ accSize (s.engQuad c e)) →
      ∃ t, exec (.engRunComplete c tk) s = .next t ∧ t.tok c tk = tokDone ∧ t.tokStatus c tk = stOk ∧
        (∀ e ∈ maskList 24 o.mask, ∀ j < m, ∀ n < tileOuts (s.engQuad c e),
          let tile := s.tile c e (s.quadOf o e)
          let vb := vecBytes tile.pair (s.engQuad c e)
          let k := accKey c e (s.quadOf o e) (acc + j * tileOuts (s.engQuad c e) + n)
          t.accAt k = (accumulate (s.accAt k) (decide (tile.pair = 1) || decide (tile.pair = 3)) add
            (dotOut tile (s.engQuad c e) (s.operands c (src + j * vb) vb tile.pair tile.fmtX) n)
            (dotBad tile (s.engQuad c e) (s.badOperands c (src + j * vb) vb tile.pair) n)).1) ∧
        PantryKept s t) ∧
    (∀ n entry dst df, o.work = .drain n entry dst df false → s.findEng c tk EngWork.isDrain = some o → s.scrubbing c = false →
      ∃ t, exec (.engDrainComplete c tk) s = .next t ∧ t.tok c tk = tokDone ∧ t.tokStatus c tk = stOk ∧
        ∀ k e, (maskList 24 o.mask)[k]? = some e → ∀ i < n,
          t.bytes c (dst + (k * n + i) * drainBytes df) (drainBytes df) =
            leBytes (drainBytes df) (drainConv df .even (s.accAt (accKey c e (s.quadOf o e) (entry + i)))).code)

/-! ## The rack interface -/

/-- R251 to R254: RACK.FIRE, RACK.REV and RACK.TEST whose checks pass put a fire at the end of the queue, with the lanes,
addresses and output groups that the instruction names, and their token becomes PENDING. RACK.FREE frees the buffer space of
the token that TOK names and leaves the token; a PENDING token holds none, and nothing is freed (R252). -/
def Obligations.RackInstructionsQueueFires : Prop :=
  ∀ (c : CoreId) (f : UFmt) (s : State), f.fn = 0 → f.sr = false →
    let src := (s.a c f.as.val).toNat
    let dst := (s.a c f.ad.val).toNat
    let stride := (s.g c f.gn.val).toNat
    let count := fireCount f
    let g := s.firstBin c (fireFirst f)
    let room : Prop := (s.fires.filter fun h => h.core == c.val).length < 64
    let ready := fun opc : Byte => count ≠ 0 ∧ immF f.imm 26 6 = 0 ∧ room ∧ s.tok c f.tok ≠ tokPending ∧
      s.binRangeBad c (fireFirst f) count = false ∧ s.Ready c (f.word opc) (s.pcNext c)
    let fire := fun kind groups lanes st => (⟨c, f.tok, kind, groups, lanes, fireCopy f, src, st, dst, .queued, [], 0, [],
      [], stOk⟩ : Fire)
    (∀ h : Fire, h = fire .forward (s.forwardGroups g count (fireHalf f)) (fireLanes f) stride → ready 0x50 →
      fireLanes f ≠ 0 → s.shapeBad g count (some (fireHalf f)) = false → src < pantrySize →
      (∀ l ∈ h.laneList, src + l * stride + 17 * inputBlocks h.groups ≤ pantrySize) →
      (fireCopy f = true → dst < pantrySize ∧ dst + h.outBytes ≤ pantrySize) →
      count * (if fireHalf f = 3 then 2 else 1) * h.laneList.length ≤ 1024 →
      ∃ t, exec (.rackFire c f) s = .next t ∧ Queued s t c f.tok ∧ t.fires = s.fires ++ [h] ∧ PantryKept s t) ∧
    (∀ h : Fire, h = fire .reverse (binGroups g count) 1 0 → ready 0x51 → fireLanes f = 0 → fireHalf f = 0 →
      s.shapeBad g count none = false → count ≤ 16 → src < pantrySize → src + 1024 * count ≤ pantrySize →
      (fireCopy f = true → dst < pantrySize ∧ dst + h.outBytes ≤ pantrySize) →
      ∃ t, exec (.rackRev c f) s = .next t ∧ Queued s t c f.tok ∧ t.fires = s.fires ++ [h] ∧ PantryKept s t) ∧
    (ready 0x52 → fireLanes f ≠ 0 → fireHalf f = 0 → fireCopy f = false → s.shapeBad g count none = false →
      ∃ t, exec (.rackTest c f) s = .next t ∧ Queued s t c f.tok ∧ PantryKept s t ∧
        t.fires = s.fires ++
          [⟨c, f.tok, .test, binGroups g count, fireLanes f, false, 0, 0, 0, .queued, [], 0, [], [], stOk⟩]) ∧
    (s.Ready c (f.word 0x53) (s.pcNext c) → f.imm = 0 →
      ∃ t, exec (.rackFree c f) s = .next t ∧ Issued s t c (s.pcNext c) ∧
        t.outBufs = (if s.tok c f.tok = tokPending then s.outBufs
          else s.outBufs.filter fun b => !(b.core == c.val && b.tok == f.tok.val)) ∧
        (s.tok c f.tok ≠ tokPending → t.vecOps = s.unfreed c f.tok) ∧ RegsKept s t (issueRegs c) ∧ PantryKept s t)

/-- R195, R217: the first fire not yet staged copies its inputs once the staging buffer has room: for a forward fire the
blocks of every lane from its source on. R217, R218, R477: a staged fire with no unissued fire ahead of it issues when the
output buffer has room and the granted claim gives leave. Without room it stays and OUTBUF_WAIT sets; without leave it
stays. -/
def Obligations.FiresAreStagedAndIssued : Prop :=
  (∀ (c : CoreId) (s : State) (f : Fire), s.noHostLines → (s.fires.find? fun h => h.core == c.val && h.stage == .queued) = some f →
      f.kind = .forward → s.stageUsed c + f.stageBytes ≤ 262144 →
      ∃ t, exec (.fireStaging c) s = .next t ∧ PantryKept s t ∧
        t.fires = s.fires.map (fun h => if h.core = c.val ∧ h.tok = f.tok then
          { h with
            stage := .staged
            input := f.laneList.map fun l => s.bytes c (f.src + l * f.stride) (17 * inputBlocks f.groups)
            poison := f.laneList.zipIdx.foldl (fun a p =>
              if s.poisonIn c (f.src + p.1 * f.stride) (17 * inputBlocks f.groups) then a + 2 ^ p.2 else a) 0 } else h)) ∧
  (∀ (c : CoreId) (tk : TokId) (s : State) (f : Fire), s.findFire c tk (fun h => h.stage == .staged) = some f →
      s.firesAhead c tk = [] →
      (s.outUsed c + f.reserve ≤ 1048576 → s.binsInFlight c + groupBins f.groups ≤ s.binsGranted c →
        ∃ t, exec (.fireIssue c tk) s = .next t ∧ (∃ h ∈ t.fires, h.core = c.val ∧ h.tok = tk.val) ∧
          ∀ h ∈ t.fires, h.core = c.val → h.tok = tk.val → h.stage = .issued ∧ h.input = []) ∧
      (1048576 < s.outUsed c + f.reserve →
        exec (.fireIssue c tk) s = .next (s.setFld (Reg.RIF_STAT c) Fl.RIF_STAT_OUTBUF_WAIT 1)) ∧
      (s.outUsed c + f.reserve ≤ 1048576 → s.binsGranted c < s.binsInFlight c + groupBins f.groups →
        exec (.fireIssue c tk) s = .next s))

/-- R106, R109, R116, R119, R236, R254: the last evaluations of an issued fire deliver. The fire leaves the queue, its token
is DONE with the fire's status, and without COPY the token holds the outputs in buffer order with their tags. R252: COPY of
a fire's outputs ends: the FP32 outputs lie in the Pantry from the destination on, little-endian, the fire leaves the queue
and its token is DONE. -/
def Obligations.FiresDeliverTheirOutputs : Prop :=
  (∀ (c : CoreId) (tk : TokId) (s : State) (f : Fire) (p : Fire → Bool), s.dropOf c = none →
      s.tok c tk = tokPending → s.tokCount c tk = 1 → s.tokStatus c tk = stOk → s.seq c ≠ seqFaulted →
      s.findFire c tk (fun h => h.stage == .issued && p h) = some f → f.copy = false → f.kind ≠ .test → f.todo ≠ [] →
      f.endStatus < 256 →
      ∀ e ∈ [(Instr.binEvalDeliver c tk, EvalClass.live, FireKind.forward), (.zeroSkipDeliver c tk, .skipped, .forward),
          (.offlineFire c tk, .offline, f.kind), (.reverseReadDeliver c tk, .live, .reverse)],
        f.kind = e.2.2 → (∀ q ∈ f.todo, q.2 = e.2.1) →
        p = (if e.2.1 = .offline then fun _ => true else if e.2.2 = .forward then fun h => h.kind != .reverse
          else fun h => h.kind == .reverse) →
        ∃ t, exec e.1 s = .next t ∧ t.tok c tk = tokDone ∧ t.tokStatus c tk = f.endStatus ∧
          t.fires = s.fires.filter (fun h => !(h.core == c.val && h.tok == tk.val)) ∧
          t.outBufs = s.outBufs ++ [⟨c, tk, f.elements, f.tags GroupOut.satTag, f.tags GroupOut.nonfiniteTag, []⟩] ∧
          PantryKept s t) ∧
  (∀ (c : CoreId) (tk : TokId) (s : State) (f : Fire), s.noHostLines → s.flag Reg.DUMP_STAT Fl.DUMP_STAT_RETAINED = false →
      s.findFire c tk (fun h => h.stage == .copying) = some f → s.tok c tk = tokPending → s.tokCount c tk = 1 →
      s.tokStatus c tk = stOk → f.endStatus < 256 → s.scrubbing c = false →
      ∃ t, exec (.fireCopyDone c tk) s = .next t ∧ t.tok c tk = tokDone ∧ t.tokStatus c tk = f.endStatus ∧
        t.fires = s.fires.filter (fun h => !(h.core == c.val && h.tok == tk.val)) ∧
        ∀ i w, i < f.outBytes / 4 → f.elements[i]? = some w → t.bytes c (f.dst + 4 * i) 4 = leBytes 4 w.toNat)

/-! ## Checking, drift and refresh -/

/-- R32, R123, R131, R132, R141, R476: a pattern of the period's set that is due runs in a quiet slot while the region is in
Run and the granted bins leave room for it, counts as an evaluation and is due no more; the end of a test period counts an
overdue set or makes the next one due; corrected label words of a rack are written back. R133 to R135, R140: at the end of a
full window the statistics of a bin restart, and a column outside its envelope counts one event and makes a confirming set of
the four patterns due, but for a bin in REFRESH or OFFLINE, with an action pending or with a confirming set under way, where
the event is logged MERGED (the last is the model's choice, log entry 70). -/
def Obligations.BinsAreChecked : Prop :=
  (∀ (c : CoreId) (b : BinId) (s : State),
      let g := c.val * 480 + b.val
      (∀ pat : Fin 4, s.labelEcc = [] → s.rackPower g = true → s.quietOn g = true → s.tvEn g = true →
        (s.check g).owed = true → (s.check g).source = 0 → (s.duePatterns g).contains pat.val = true →
        s.binsInFlight c + 1 ≤ s.binsGranted c →
        (s.fires.any fun f => f.groups.any fun q => decide (q.bin ≤ g) && decide (g < q.bin + q.size)) = false →
        ∃ t, exec (.quietSlotPattern c b pat) s = .next t ∧
          t.rd (Reg.RACK_EVAL_COUNT c) = s.rd (Reg.RACK_EVAL_COUNT c) + 1 ∧
          (t.duePatterns g).contains pat.val = false ∧ PantryKept s t) ∧
      (s.tvEn g = true → (s.binRec g).state ≠ .uninstalled →
        let late := Reg.CEL_CHK_OVERDUE (s.binRec g).part
        ∃ t, exec (.testPeriodExpire c b) s = .next t ∧
          (if (s.check g).owed
           then t.fld late Fl.CEL_CHK_OVERDUE_COUNT =
              min (s.fld late Fl.CEL_CHK_OVERDUE_COUNT + 1) (2 ^ Fl.CEL_CHK_OVERDUE_COUNT.width - 1) ∧ t.check g = s.check g
           else (t.check g).owed = true ∧ t.regs = s.regs ∧
              ((s.check g).errs.any Option.isNone = true → (t.check g).errs = (s.check g).errs) ∧
              ((s.check g).errs.any Option.isNone = false →
                (t.check g).errs = [none, none, none, none] ∧ (t.check g).source = 0))) ∧
      (∀ rack : Fin 15360, srising s.labelEcc = true →
        ∃ t, exec (.labelWriteBack c rack) s = .next t ∧
          ∀ r w, w < 8192 → t.labMark r w =
            if r = c.val * 15360 + rack.val ∧ s.labMark r w = .corrected then .clean else s.labMark r w)) ∧
  (∀ (c : CoreId) (b : BinId) (s : State),
      let g := c.val * 480 + b.val
      let lim := (s.winRegs g).2
      let held : Prop := (s.binRec g).state = .refresh ∨ (s.binRec g).state = .offline ∨ s.actPending g = true ∨
        (s.check g).source = 1
      let event : Prop := ∃ col < 256, ∃ e, s.envelope g col = some e ∧
        outside (s.colStat g col) (s.check g).winCount e (Fl.CEL_CHK_LIMITS_MEAN_TOL.get lim)
          (Fl.CEL_CHK_LIMITS_EDGE_TOL.get lim) = true
      s.labelEcc = [] → s.stEn g = true → s.window g ≤ (s.check g).winCount →
      ∃ t, exec (.statWindowEnd c b) s = .next t ∧ (t.check g).winCount = 0 ∧ (∀ col < 256, t.colStat g col = statZero) ∧
        (event → (t.binRec g).stEvents = min ((s.binRec g).stEvents + 1) 65535) ∧
        (event → ¬held → (t.check g).errs = [none, none, none, none] ∧ (t.check g).source = 1 ∧ t.driftLog = s.driftLog) ∧
        (event → held → (t.check g).errs = (s.check g).errs ∧
          (ringAt t.driftLog (s.fld Reg.CEL_DRIFT_HEAD Fl.CEL_DRIFT_HEAD_NEXT_SEQ % 256)).bytes.getD 11 0 = 8) ∧
        (¬event → t.binRec g = s.binRec g ∧ (t.check g).errs = (s.check g).errs) ∧ PantryKept s t)

/-- R32, R81, R130, R131, R137 to R140: a norm monitor's request makes the sets of the bins in service of its layer due, where
none is; with the region in Run, a recalibration of a bin ends with its count raised or the bin OFFLINE, a refresh ends with the
bin in service or OFFLINE, and the 1 ms check starts the queued refresh of an idle partition with AUTO set, which takes the bin
to REFRESH. -/
def Obligations.DriftActionsEnd : Prop :=
  ∀ (c : CoreId) (b : BinId) (s : State), s.labelEcc = [] →
    let g := c.val * 480 + b.val
    (∀ layer : BitVec 16, s.actTests.contains (c.val, layer.toNat) = true →
      ∃ t, exec (.actTestRun c layer) s = .next t ∧ t.actTests = s.actTests.filter (fun q => q != (c.val, layer.toNat)) ∧
        ((s.binRec g).layer = layer.toNat → s.inService g = true →
          t.check g = if s.setDue g then s.check g else { s.check g with errs := [none, none, none, none], source := 2 })) ∧
    (∀ a, s.driftActs.find? (fun a => a.bin == g) = some a → (s.binRec g).state = .inService → s.rackPower g = true →
      ∃ t, exec (.recalComplete c b) s = .next t ∧ (t.driftActs.any fun x => x.bin == g) = false ∧
        ((t.binRec g).state = .offline ∨ (t.binRec g).recals = min ((s.binRec g).recals + 1) 65535)) ∧
    (∀ a, s.refreshing.find? (fun a => a.bin == g) = some a → (s.refreshQ.any fun x => x.bin == g) = false → s.inst = none →
      s.rackPower g = true →
      ∃ t, exec (.refreshComplete c b) s = .next t ∧ (t.refreshing.any fun x => x.bin == g) = false ∧
        ((t.binRec g).state = .offline ∨ (t.binRec g).state = .inService)) ∧
    (∀ a, s.refreshQ = [a] → s.refreshing = [] → s.inst = none → s.inService a.bin = true → s.flowing = true →
      s.rackPower a.bin = true → (s.binRec a.bin).part < 16 →
      (s.fld Reg.CEL_REFRESH_CTL Fl.CEL_REFRESH_CTL_AUTO).testBit (s.binRec a.bin).part = true →
      (s.passes.any fun x => x.part == (s.binRec a.bin).part) = false →
      ∃ t, exec .refreshQueueCheck s = .next t ∧ t.refreshQ = [] ∧ t.refreshing = [a] ∧
        (t.binRec a.bin).state = .refresh ∧ (t.wearOf a.bin).cycles = min ((s.wearOf a.bin).cycles + 1) 65535)

/-! ## The vector unit -/

/-- R238, R255, R256, R258: a VEC instruction whose fields are legal and whose operands pass every check puts its operation
with the operands of its registers into the vector unit's queue, and its token becomes PENDING. -/
def Obligations.VectorInstructionsQueue : Prop :=
  ∀ (c : CoreId) (f : UFmt) (s : State),
    let i := f.imm
    let fn := f.fn.toNat
    let gv := s.g c (vGx i)
    let n := (s.g c f.gn.val).toNat
    let src := (s.a c f.as.val).toNat
    let dst := (s.a c f.ad.val).toNat
    let second := (s.a c (vAb i)).toNat
    let list := (s.a c (vAl i)).toNat
    let fits : Nat → Nat → Prop := fun a k => a < pantrySize ∧ a + k ≤ pantrySize
    ∀ e ∈ [(Instr.vecElem c f, (0x60 : Byte)), (.vecReduce c f, 0x61), (.vecRmsnorm c f, 0x62), (.vecSoftmax c f, 0x63),
        (.vecAct c f, 0x64), (.vecRope c f, 0x65), (.vecQuant c f, 0x66), (.vecDequant c f, 0x67), (.vecTopk c f, 0x68),
        (.vecSample c f, 0x69)],
      let p := e.2.toNat
      let ns := srcCount p fn n gv
      vecIllegal p f gv = false → s.tok c f.tok ≠ tokPending → (s.vecOps.filter fun o => o.core == c.val).length < 16 →
      n ≠ 0 → n ≤ (if p = 0x65 ∨ isGated p fn = true then 32768 else 65536) → (p = 0x63 → gv.toNat % 2 ^ 32 ≠ 0) →
      (vSk i = 0 → fits src (srcBytesOf p fn (vSf i) n gv)) →
      (vSk i = 1 → ∃ b, s.bufferOf c (vSi i) = some b ∧ src + ns ≤ b.vals.length) →
      (vSk i = 2 → (s.engAvail c).testBit (vSi i) = true ∧ src + ns ≤ 16384) →
      (secondBytesOf p fn (vAb i) (vBf i) n gv ≠ 0 → fits second (secondBytesOf p fn (vAb i) (vBf i) n gv)) →
      (vLe i = true → fits list 128) → (p ≠ 0x61 → fits dst (outBytesOf p (vDf i) (vLe i) n gv)) →
      s.Ready c (f.word e.2) (s.pcNext c) →
      ∃ t, exec e.1 s = .next t ∧ Queued s t c f.tok ∧ PantryKept s t ∧
        t.vecOps = s.unfreed c f.tok ++ [⟨c, f.tok, p, fn, i, f.sr, n, src, dst, second, list, vGx i, gv,
          if vSk i = 1 then s.bufferElems c (vSi i) src ns else [],
          if vSk i = 1 ∧ vFree i = true ∧ vSi i ≠ f.tok.val then some (vSi i) else none⟩]

/-- R213, R214, R228, R256: the oldest operation of a core's vector unit ends. It leaves the queue, VEC.OPS counts it and its
token is DONE; the outputs that it was to free are freed (R236); an elementwise function with an FP32 destination has written
its elements in order, and a maximum lies in bits [31:0] of g[GX]. -/
def Obligations.VectorOperationsComplete : Prop :=
  ∀ (c : CoreId) (s : State) (o : VecOp), s.noHostLines → s.pantryEcc = [] →
    s.flag Reg.DUMP_STAT Fl.DUMP_STAT_RETAINED = false → s.vecOps.find? (fun o => o.core == c.val) = some o → o.tok < 16 →
    s.tok c o.tok = tokPending → s.tokCount c o.tok = 1 → s.tokStatus c o.tok = stOk → s.scrubbing c = false →
    ∃ t, exec (.vecOpComplete c) s = .next t ∧ t.tok c o.tok = tokDone ∧ (o.frees = none → t.vecOps = removeFirst o s.vecOps) ∧
      (∀ k, o.frees = some k → (t.outBufs.any fun b => b.core == c.val && b.tok == k) = false) ∧
      t.rd (Reg.VEC_OPS c) = s.rd (Reg.VEC_OPS c) + 1 ∧
      (o.opc = 0x60 → vSk o.imm = 0 → vDf o.imm = 0 → ∀ i < o.n,
        t.bytes c (o.dst + 4 * i) 4 =
          leBytes 4 (elemFn o.fn (s.floatAt c (o.src + i * (if vSf o.imm then 4 else 2)) (vSf o.imm))
            (if o.fn = 6 then 0 else s.floatAt c (o.second + i * (if vBf o.imm then 4 else 2)) (vBf o.imm))
            (o.gv.setWidth 32)).toNat) ∧
      (o.opc = 0x61 → o.fn = 1 → 0 < o.gx → o.gx < 32 →
        (t.g c o.gx).setWidth 32 = fmaxList ((s.vecSource o).map fun e => e.1) ∧ PantryKept s t)

/-! ## Windows -/

/-- R199, R205, R259: WIN.OPEN of a declared window opens it with the next generation, count 0 and the operand as target, ends
a drain REOPENED and gives gd the generation; WIN.CLOSE closes it and keeps generation and count, and its token is DONE unless
accepted writes are under way. -/
def Obligations.WindowsOpenAndClose : Prop :=
  ∀ (c : CoreId) (f : CFmt) (s : State), f.resv = 0 → f.join = false →
    let w := f.win.val
    (f.tok = 0 → s.fld (Reg.WDS_WIN_LEN c w) Fl.WDS_WIN_LEN_LEN ≠ 0 → s.winPendsApart c 16 →
      s.Ready c (f.word 0x70) (s.pcNext c) →
      ∃ t, exec (.winOpen c f) s = .next t ∧ Issued s t c (s.pcNext c) ∧ t.winState c w = winOpened ∧
        t.winGen c w = nextGen (s.winGen c w) ∧ t.winCount c w = 0 ∧
        t.winTarget c w = ((s.g c f.ga.val).toNat + f.imm.toNat) % 2 ^ 32 ∧
        t.g c f.gd.val = (if f.gd.val = 0 then 0 else BitVec.ofNat 64 (nextGen (s.winGen c w))) ∧
        (s.winState c w = winDraining → t.fld (Reg.WDS_WIN_CTL c w) Fl.WDS_WIN_CTL_LAST_DRAIN = 4) ∧ PantryKept s t) ∧
    (f.imm = 0 → s.winPendsApart c f.tok → s.tok c f.tok ≠ tokPending → s.Ready c (f.word 0x71) (s.pcNext c) →
      ∃ t, exec (.winClose c f) s = .next t ∧ Issued s t c (s.pcNext c) ∧ t.winState c w = winClosed ∧
        t.winGen c w = s.winGen c w ∧ t.winCount c w = s.winCount c w ∧
        (s.winState c w = winDraining → t.fld (Reg.WDS_WIN_CTL c w) Fl.WDS_WIN_CTL_LAST_DRAIN = 3) ∧
        (s.winState c w = winClosed ∨ s.winWrites c w = [] → t.Completed c f.tok stOk) ∧
        (s.winState c w ≠ winClosed → s.winWrites c w ≠ [] → Queued s t c f.tok) ∧ PantryKept s t)

/-- R199, R205, R259: WIN.DRAIN of an OPEN window at its target closes it DRAINED, below it with a bound of 0 closes it
EXPIRED, and otherwise leaves it DRAINING with the token PENDING; WIN.WAIT completes at the target, completes CLOSED at a
CLOSED window below it, and otherwise is PENDING. R199, R203, R205: the bound of a drain expires: the window closes EXPIRED;
the accepted writes of a WIN.CLOSE are done: it completes OK; the oldest bounded WIN.WAIT of a window completes TIMEOUT. -/
def Obligations.WindowsDrainWaitAndEnd : Prop :=
  (∀ (c : CoreId) (f : CFmt) (s : State), f.resv = 0 → f.join = false → s.winPendsApart c f.tok →
      s.tok c f.tok ≠ tokPending →
      let w := f.win.val
      let bound := ((s.g c f.ga.val).toNat + f.imm.toNat) % 2 ^ 32
      let last := fun t : State => t.fld (Reg.WDS_WIN_CTL c w) Fl.WDS_WIN_CTL_LAST_DRAIN
      (s.winState c w = winOpened → s.Ready c (f.word 0x72) (s.pcNext c) →
        ∃ t, exec (.winDrain c f) s = .next t ∧ Issued s t c (s.pcNext c) ∧ t.winGen c w = s.winGen c w ∧
          t.winCount c w = s.winCount c w ∧
          (s.winTarget c w ≤ s.winCount c w → t.winState c w = winClosed ∧ last t = 1 ∧ t.Completed c f.tok stOk) ∧
          (s.winCount c w < s.winTarget c w → bound = 0 →
            t.winState c w = winClosed ∧ last t = 2 ∧ t.Completed c f.tok stExpired) ∧
          (s.winCount c w < s.winTarget c w → bound ≠ 0 → t.winState c w = winDraining ∧ Queued s t c f.tok)) ∧
      (f.imm = 0 → s.Ready c (f.word 0x73) (s.pcNext c) →
        ∃ t, exec (.winWait c f) s = .next t ∧ Issued s t c (s.pcNext c) ∧
          (s.winTarget c w ≤ s.winCount c w → t.Completed c f.tok stOk ∧ t.winPends = s.winPends) ∧
          (s.winCount c w < s.winTarget c w → s.winState c w = winClosed →
            t.Completed c f.tok stClosed ∧ t.winPends = s.winPends) ∧
          (s.winCount c w < s.winTarget c w → s.winState c w ≠ winClosed → Queued s t c f.tok ∧
            t.winPends = s.winPends ++
              [⟨c, w, f.tok, .wait, s.flag (Reg.CORE_WAIT_LIMIT c) Fl.CORE_WAIT_LIMIT_LIMIT, []⟩]))) ∧
  (∀ (c : CoreId) (w : WinId) (s : State) (p : WinPend), s.winPendAlone c p → p.win = w → s.OneOp c p.tok →
      (p.kind = .drain → s.winState c w = winDraining →
        ∃ t, exec (.winDrainExpire c w) s = .next t ∧ t.winState c w = winClosed ∧
          t.fld (Reg.WDS_WIN_CTL c w) Fl.WDS_WIN_CTL_LAST_DRAIN = 2 ∧ t.Completed c p.tok stExpired ∧
          t.winGen c w = s.winGen c w ∧ t.winCount c w = s.winCount c w) ∧
      (p.kind = .close → (∀ i ∈ p.writes, i ∉ s.winWrites c w) →
        ∃ t, exec (.winCloseDone c w) s = .next t ∧ t.Completed c p.tok stOk ∧ p ∉ t.winPends) ∧
      (s.winPends.find? (fun q => q.core == c.val && q.win == w.val && q.kind == .wait && q.limited) = some p →
        ∃ t, exec (.winWaitTimeout c w) s = .next t ∧ t.Completed c p.tok stTimeout ∧ t.winPends = s.winPends.erase p ∧
          RegsKept s t [Reg.SEQ_TOKEN c p.tok, claimReg c]))

/-! ## PUT and GET -/

/-- R207, R208, R238, R260: PUT and GET of a bound core whose checks pass send one message of that kind, with the target, the
range, the window and the generation that the registers name, a PUT with the bytes of the source; the egress stage holds it,
CORE.TX_COUNT does not count it yet, and the token becomes PENDING. R200 to R202, R269, R425: a PUT that arrives for an OPEN
or DRAINING window of its generation, inside the window, is accepted and counted; one for a CLOSED window or another
generation is late: counted at the window, answered LATE, and pending as LATE_PUT where LATE_TRAP is set. A core in Retain or
Dark answers ASLEEP, or the lower code that also holds: PARTITION to a message from another partition and BAD_ADDRESS to a PUT
beyond the Pantry (R210, R237). Messages of one source to one destination keep their order (R410). -/
def Obligations.MessagesAreSentAndAccepted : Prop :=
  (∀ (c : CoreId) (f : MFmt) (s : State), f.resv = 0 → s.noHostLines →
      let src := (s.a c f.as.val).toNat
      let n := (s.g c f.gn.val).toNat
      let target := (s.g c f.gt.val).toNat
      src < pantrySize → src + n ≤ pantrySize → 0 < n → n ≤ 65536 → s.outstanding c < 64 → s.tok c f.tok ≠ tokPending →
      s.bound c = true → addrReserved target = false →
      ∀ e ∈ [(Instr.put c f, (0x78 : Byte), NetKind.put), (.get c f, 0x79, .get)],
        (e.2.2 = .get → f.win = 0 ∧ f.gg = 0) → s.Ready c (f.word e.2.1) (s.pcNext c) →
        ∃ t m, exec e.1 s = .next t ∧ Queued s t c f.tok ∧ t.net = s.net ++ [m] ∧ PantryKept s t ∧
          t.rd (Reg.CORE_TX_COUNT c) = s.rd (Reg.CORE_TX_COUNT c) ∧
          m.kind = e.2.2 ∧ m.stage = .held ∧ m.orgCore = c.val ∧ m.tok = f.tok.val ∧ m.dstModule = addrModule target ∧
          (addrModule target ≠ s.module → m.dstCore = addrCore target) ∧ m.space = addrSpace target ∧
          m.off = addrOffset target ∧ m.len = n ∧ m.win = f.win.val ∧ m.gen = (s.g c f.gg.val).toNat % 65536 ∧
          m.data = (if e.2.2 = .put then s.bytes c src n else [])) ∧
  (∀ (id : Nat) (s : State) (m : NetMsg), s.findNet id = some m → m.kind = .put → m.stage = .arrived →
      m.orgModule = s.module → m.dstCore < 256 → m.win < 64 → s.flowFirst m = true →
      let c := m.dstCore
      let base := 64 * s.fld (Reg.WDS_WIN_BASE c m.win) Fl.WDS_WIN_BASE_BASE
      let len := 64 * s.fld (Reg.WDS_WIN_LEN c m.win) Fl.WDS_WIN_LEN_LEN
      let now := fun n : NetMsg => s.net.map fun k => if k.id = m.id then n else k
      let answered := fun st => (s.net.filter fun k => k.id != m.id) ++
        [{ m with stage := .answered, status := st, data := [], bad := [], vc := 0, hop := 0 }]
      (3 ≤ s.sleep c → ∃ t, exec (.putAcceptanceCheck id) s = .next t ∧
        t.net = answered (if s.samePart m = false then stPartition else if m.space ≠ 0 then stBadAddress else stAsleep) ∧
        t.regs = s.regs) ∧
      (s.sleep c < 3 → s.samePart m = false → ∃ t, exec (.putAcceptanceCheck id) s = .next t ∧ t.net = answered stPartition) ∧
      (s.sleep c < 3 → s.samePart m = true → m.space = 0 →
        (s.winState c m.win = winClosed ∨ s.winGen c m.win ≠ m.gen →
          ∃ t, exec (.putAcceptanceCheck id) s = .next t ∧ t.net = answered stLate ∧
            t.fld (Reg.WDS_WIN_LATE_COUNT c m.win) Fl.WDS_WIN_LATE_COUNT_COUNT =
              min (s.fld (Reg.WDS_WIN_LATE_COUNT c m.win) Fl.WDS_WIN_LATE_COUNT_COUNT + 1) (2 ^ 32 - 1) ∧
            t.latePending c = (s.latePending c || s.flag (Reg.WDS_WIN_CTL c m.win) Fl.WDS_WIN_CTL_LATE_TRAP) ∧
            PantryKept s t) ∧
        (s.winState c m.win ≠ winClosed → s.winGen c m.win = m.gen →
          (m.off < base ∨ base + len < m.off + m.len →
            ∃ t, exec (.putAcceptanceCheck id) s = .next t ∧ t.net = answered stBounds ∧ PantryKept s t) ∧
          (base ≤ m.off → m.off + m.len ≤ base + len →
            ∃ t, exec (.putAcceptanceCheck id) s = .next t ∧ t.net = now { m with stage := .accepted } ∧
              t.rd (Reg.CORE_RX_COUNT c) = s.rd (Reg.CORE_RX_COUNT c) + 1 ∧ PantryKept s t))))

/-- R195, R201, R208: an accepted PUT writes its bytes at its offset and no others, raises the count of a window that
still holds its generation and is answered; a GET of the Pantry is answered with the bytes of its range; a completion that
returns ends the sender's token with its status, and a GET's data lands. -/
def Obligations.PutAndGetComplete : Prop :=
  ∀ (id : Nat) (s : State) (m : NetMsg), s.findNet id = some m → m.orgModule = s.module → s.noHostLines →
    s.flag Reg.DUMP_STAT Fl.DUMP_STAT_RETAINED = false →
    (m.kind = .put → m.stage = .accepted → m.dstCore < 256 → m.win < 64 → s.scrubbing m.dstCore = false →
      m.off + m.data.length ≤ pantrySize → (∀ q ∈ s.winPends, q.core = m.dstCore → q.tok < 16) →
      ∃ t, exec (.putWriteDone id) s = .next t ∧
        t.winCount m.dstCore m.win = (if s.winGen m.dstCore m.win = m.gen
          then min (s.winCount m.dstCore m.win + 1) (2 ^ 32 - 1) else s.winCount m.dstCore m.win) ∧
        t.net = (s.net.filter fun k => k.id != m.id) ++
          [{ m with
            stage := .answered
            status := if m.bad.contains true then stPoison else stOk
            data := []
            bad := []
            vc := 0
            hop := 0 }] ∧
        ∀ d p, d < 256 → p < pantrySize → t.byte d p =
          if d = m.dstCore ∧ m.off ≤ p ∧ p < m.off + m.data.length then m.data.getD (p - m.off) 0 else s.byte d p) ∧
    (m.stage = .answered → m.router = m.orgCore → s.flowFirst m = true → m.orgCore < 256 → s.sleep m.orgCore < 3 → m.timedOut = false → s.OneOp m.orgCore m.tok →
      m.status < 256 →
      (m.kind = .put → ∃ t, exec (.netCompletion id) s = .next t ∧ t.Completed m.orgCore m.tok m.status ∧
        t.net = s.net.filter (fun k => k.id != m.id) ∧ PantryKept s t) ∧
      (m.kind = .get → s.scrubbing m.orgCore = false → m.land + m.data.length ≤ pantrySize → m.data ≠ [] →
        ∃ t, exec (.netCompletion id) s = .next t ∧ t.Completed m.orgCore m.tok m.status ∧
          t.net = s.net.filter (fun k => k.id != m.id) ∧
          ∀ d p, d < 256 → p < pantrySize → t.byte d p =
            if d = m.orgCore ∧ m.land ≤ p ∧ p < m.land + m.data.length then m.data.getD (p - m.land) 0 else s.byte d p)) ∧
    (m.kind = .get → m.stage = .arrived → s.flowFirst m = true → s.sleep m.dstCore < 3 → s.samePart m = true → m.space = 0 →
      m.off + m.len ≤ pantrySize →
      ∃ t, exec (.getServe id) s = .next t ∧ PantryKept s t ∧ t.net = (s.net.filter fun k => k.id != m.id) ++
        [{ m with
          stage := .answered
          status := if (s.badBytes m.dstCore m.off m.len).contains true then stPoison else stOk
          data := s.bytes m.dstCore m.off m.len
          bad := s.badBytes m.dstCore m.off m.len
          vc := 0
          hop := 0 }])

/-! ## Claims, cues and signals -/

/-- R263, R476 to R480: a CLAIM that raises neither count takes effect at once where the work in flight fits it; one that
raises a count, alone in its region's queue, is granted at once where it fits the ration and the cap, and otherwise waits;
RELEASE without work in flight takes the claim to zero; a queued claim of the core completes SUPERSEDED. R479, R482: the
arbiter grants the first claim of its region's queue if it fits, and otherwise leaves it; a reservation lapses. A decision
goes by ARB.WEIGHT as it stands then (R502). -/
def Obligations.ClaimsAreRaisedAndGranted : Prop :=
  (∀ (c : CoreId) (f : CFmt) (s : State), f.resv = 0 → f.join = false →
      (∀ q ∈ s.claimQ, q.core = c → q.tok < 16) → (∀ q ∈ s.claimQ, q.core / 16 = c / 16 → q.core = c) →
      let bins := immF f.imm 0 10
      let engines := immF f.imm 10 5
      let q : ClaimReq := ⟨c, bins, engines, f.tok, s.now⟩
      let others := s.claimQ.filter fun q => q.core != c.val
      let now := s.takeWeight (regionOf c)
      (immF f.imm 15 17 = 0 → engines ≤ 24 → bins ≤ (s.bind c).bins → engines ≤ (s.bind c).engines →
        s.tok c f.tok ≠ tokPending → (∀ q ∈ s.claimQ, q.core = c → q.tok ≠ f.tok) → s.Ready c (f.word 0x98) (s.pcNext c) →
        ∃ t, exec (.claim c f) s = .next t ∧ Issued s t c (s.pcNext c) ∧ PantryKept s t ∧
          (bins ≤ s.binsGranted c → engines ≤ s.engGranted c → t.Completed c f.tok stOk ∧ t.claimQ = others ∧
            (s.binsInFlight c ≤ bins → popCount (s.active c) ≤ engines → t.binsGranted c = bins ∧ t.engGranted c = engines) ∧
            (bins < s.binsInFlight c → t.binsGranted c = s.binsGranted c ∧ t.dropOf c = some (bins, engines))) ∧
          (s.binsGranted c < bins ∨ s.engGranted c < engines →
            (now.grantable q = true → t.Completed c f.tok stOk ∧ t.claimQ = others ∧ t.binsGranted c = bins ∧
              t.engGranted c = engines) ∧
            (now.grantable q = false → Queued s t c f.tok ∧ t.claimQ = others ++ [q] ∧ t.binsGranted c = s.binsGranted c ∧
              t.engGranted c = s.engGranted c))) ∧
      (f.tok = 0 → f.imm = 0 → s.binsInFlight c = 0 → s.active c = 0 → s.Ready c (f.word 0x99) (s.pcNext c) →
        ∃ t, exec (.release c f) s = .next t ∧ Issued s t c (s.pcNext c) ∧ t.binsGranted c = 0 ∧ t.engGranted c = 0 ∧
          t.claimQ = others ∧ PantryKept s t ∧
          ∀ k ∈ s.claimQ, k.core = c → s.OneOp c k.tok → (∀ j ∈ s.claimQ, j.core = c → j.tok = k.tok → j = k) →
            t.Completed c k.tok stSuperseded)) ∧
  (∀ (s : State),
      (∀ (r : RegionId) (q : ClaimReq), s.claimQueue r = [q] → q.core < 256 → q.bins < 1024 → q.engines < 32 →
        s.seq q.core ≠ seqFaulted → s.OneOp q.core q.tok →
        ∃ t, exec (.claimGrant r) s = .next t ∧ PantryKept s t ∧
          ((s.takeWeight r).grantable q = true → t.Completed q.core q.tok stOk ∧ t.binsGranted q.core = q.bins ∧
            t.engGranted q.core = q.engines ∧ t.claimQ = s.claimQ.filter (fun k => k.core != q.core) ∧ t.reserved q.core = 0 ∧
            t.rd (Reg.ARB_GRANTS r) = s.rd (Reg.ARB_GRANTS r) + 1) ∧
          ((s.takeWeight r).grantable q = false → t.claimQ = s.claimQ ∧ t.binsGranted q.core = s.binsGranted q.core ∧
            t.tok q.core q.tok = tokPending)) ∧
      (∀ c : CoreId, ∃ t, exec (.heavyReservationExpire c) s = .next t ∧ t.reserved c = 0 ∧ t.regs = s.regs ∧
        ∀ d, d ≠ c.val → t.reserved d = s.reserved d))

/-- R205, R264, R265: CUE sends one message for each of COUNT cores of this module; SIGNAL sends its amount to a slot, and its
token becomes PENDING; WAIT takes its amount from a slot that holds it and completes OK, and is PENDING at a slot that does
not. -/
def Obligations.CuesSignalsAndWaitsIssue : Prop :=
  ∀ (c : CoreId) (f : CFmt) (s : State), f.resv = 0 → f.join = false →
    let a := (s.g c f.ga.val).toNat
    let amount := ((s.g c f.ga.val).toNat + f.imm.toNat) % 2 ^ 32
    let slot := f.win.val
    (∀ n kind, immF f.imm 0 8 = n → immF f.imm 8 2 = kind → 0 < n → n ≤ 16 → kind < 3 → immF f.imm 25 7 = 0 → f.tok = 0 →
      s.bound c = true → addrModule (a % 2 ^ 48) = s.module → addrModule (a % 2 ^ 48) < 48 →
      addrCore (a % 2 ^ 48) + n ≤ 256 → s.Ready c (f.word 0xA0) (s.pcNext c) →
      ∃ t, exec (.cue c f) s = .next t ∧ Issued s t c (s.pcNext c) ∧ RegsKept s t (issueRegs c) ∧ PantryKept s t ∧
        t.pn = s.pn ++ (List.range n).map fun i => ⟨s.nextId + i, s.stand (addrCore (a % 2 ^ 48) + i), s.module, c, s.module,
          0, 0, .cue kind (immF f.imm 10 10) (immF f.imm 20 5)⟩) ∧
    (f.imm ≠ 0 → s.tok c f.tok ≠ tokPending → s.outstanding c < 64 → s.bound c = true → addrReserved a = false →
      addrModule a = s.module → s.Ready c (f.word 0xA8) (s.pcNext c) →
      ∃ t, exec (.signal c f) s = .next t ∧ Queued s t c f.tok ∧ t.sigOuts = s.sigOuts ++ [⟨s.nextId, c, f.tok⟩] ∧
        PantryKept s t ∧ t.pn = s.pn ++ [⟨s.nextId + 1, s.stand (addrCore a), s.module, c, s.module, s.nextId % 65536, 0,
          .signal slot f.imm.toNat⟩]) ∧
    (s.tok c f.tok ≠ tokPending → (∀ q ∈ s.sigWaits, q.core = c → q.slot ≠ slot) → s.Ready c (f.word 0xA9) (s.pcNext c) →
      ∃ t, exec (.wait c f) s = .next t ∧ Issued s t c (s.pcNext c) ∧ PantryKept s t ∧
        (amount ≤ s.slotCount c slot → t.Completed c f.tok stOk ∧ t.slotCount c slot = s.slotCount c slot - amount ∧
          t.sigWaits = s.sigWaits) ∧
        (s.slotCount c slot < amount → Queued s t c f.tok ∧ t.slotCount c slot = s.slotCount c slot ∧
          t.sigWaits = s.sigWaits ++ [⟨c, slot, amount, f.tok, s.flag (Reg.CORE_WAIT_LIMIT c) Fl.CORE_WAIT_LIMIT_LIMIT⟩]))

/-- R264, R265, R425, R481, R482: a WAKE cue starts the wake of a core in Hold or Doze and a HEAVY cue reserves; a SIGNAL
adds to its slot, which holds at its largest value, and is acknowledged OK; the acknowledgement completes the sender's
token; a window notice makes the sender's unsent PUTs for that window and generation complete LATE. -/
def Obligations.PromptMessagesArrive : Prop :=
  ∀ (id : Nat) (s : State) (m : PnMsg), s.findPn id = some m → m.dest < 256 →
    let c := m.dest
    (∀ kind bins engines, m.body = .cue kind bins engines → s.sleep c < 3 → s.pnSame m c = true →
      ∃ t, exec (.pnCue id) s = .next t ∧ PantryKept s t ∧ t.pn = s.pn.filter (fun k => k.id != id) ∧
        (kind ≠ 1 → 0 < s.sleep c → t.waking.contains c = true) ∧
        (kind ≠ 0 → t.reserved c = min (s.heavyCurrent (regionOf c) (min bins (s.rationBins c)) (min engines (s.rationEngines c)))
          (s.capOf (regionOf c) - (s.loadOf (regionOf c) + s.reservedIn (regionOf c) (some c))))) ∧
    (∀ slot amount, m.body = .signal slot amount → slot < 64 → s.coreBad c = false → s.sleep c < 3 → m.srcModule = s.module →
      m.src < 256 → (∀ q ∈ s.sigWaits, q.core = c → q.slot ≠ slot) →
      let ack := fun st => s.pn.filter (fun k => k.id != id) ++
        [⟨s.nextId, s.stand m.src, s.module, c, s.module, m.tag, 0, .signalAck st⟩]
      ∃ t, exec (.pnSignal id) s = .next t ∧ PantryKept s t ∧
        (s.pnSame m c = true → t.slotCount c slot = min (s.slotCount c slot + amount) (2 ^ 32 - 1) ∧ t.pn = ack stOk) ∧
        (s.pnSame m c = false → t.slotCount c slot = s.slotCount c slot ∧ t.pn = ack stPartition)) ∧
    (∀ st o, m.body = .signalAck st → st < 256 → (s.sigOuts.find? fun o => o.core == c && o.id % 65536 == m.tag) = some o →
      s.OneOp c o.tok →
      ∃ t, exec (.signalAck id) s = .next t ∧ t.Completed c o.tok st ∧ t.sigOuts = s.sigOuts.erase o ∧ PantryKept s t) ∧
    (∀ w g, m.body = .winNotice w g →
      let stale : NetMsg → Prop := fun k => k.kind = .put ∧ k.stage = .held ∧ k.orgCore = c ∧ k.dstCore = m.src ∧
        k.dstModule = m.srcModule ∧ k.win = w ∧ k.gen = g
      (∀ j ∈ s.net, ∀ k ∈ s.net, j.id = k.id → j = k) → (∀ k ∈ s.net, k.orgCore = c → k.tok < 16) →
      ∃ t, exec (.winNotice id) s = .next t ∧ PantryKept s t ∧ (∀ k, k ∈ t.net ↔ k ∈ s.net ∧ ¬stale k) ∧
        ∀ k ∈ s.net, stale k → k.timedOut = false → s.OneOp c k.tok → (∀ j ∈ s.net, stale j → j.tok = k.tok → j = k) →
          t.Completed c k.tok stLate)

/-- R211, R265: a PUT, a GET or a SIGNAL without its answer within CORE.NET_LIMIT completes TIMEOUT at its sender while a data
message goes on, and sets TX_TIMEOUT; a bounded WAIT completes TIMEOUT. -/
def Obligations.WaitsAndMessagesTimeOut : Prop :=
  ∀ (s : State),
    (∀ (id : Nat) (m : NetMsg), s.findNet id = some m → m.orgModule = s.module → m.kind ≠ .completion → m.timedOut = false →
      m.orgCore < 256 → s.OneOp m.orgCore m.tok →
      ∃ t, exec (.netTimeout id) s = .next t ∧ t.Completed m.orgCore m.tok stTimeout ∧
        t.flag (Reg.CORE_STAT m.orgCore) Fl.CORE_STAT_TX_TIMEOUT = true ∧
        t.net = s.net.map (fun k => if k.id = m.id then { m with timedOut := true } else k) ∧
        RegsKept s t [Reg.CORE_STAT m.orgCore, Reg.SEQ_TOKEN m.orgCore m.tok, claimReg m.orgCore] ∧ PantryKept s t) ∧
    (∀ (id : Nat) (o : SigOut), s.findNet id = none → (s.sigOuts.find? fun o => o.id == id) = some o → o.core < 256 →
      s.OneOp o.core o.tok →
      ∃ t, exec (.netTimeout id) s = .next t ∧ t.Completed o.core o.tok stTimeout ∧ t.sigOuts = s.sigOuts.erase o ∧
        PantryKept s t) ∧
    (∀ (c : CoreId) (slot : WinId) (w : SigWait),
      (s.sigWaits.find? fun w => w.core == c.val && w.slot == slot.val && w.limited) = some w → s.OneOp c w.tok →
      (∀ q ∈ s.sigWaits, q.core = c → q.slot = slot → q = w) →
      ∃ t, exec (.waitTimeout c slot) s = .next t ∧ t.Completed c w.tok stTimeout ∧ PantryKept s t)

/-! ## KV state -/

/-- R238, R261, R284, R286: KV.APPEND enters its core's queue with the staging entry that TREE and NODE name. With no
operation ahead of them that waits to start, KV.COMMIT of a resident context by the HEAD core of its partition, with no pass
in flight, and KV.ROLLBACK start: they go to every holder of this module and await the acknowledgements of these and of the
holders on other modules; the token becomes PENDING. A KV.COMMIT of a core that is not HEAD sends nothing (R444) and ends
PARTITION, a status that is the model's choice (log entry 76). -/
def Obligations.KvInstructionsQueue : Prop :=
  ∀ (c : CoreId) (f : UFmt) (s : State), f.fn = 0 → f.sr = false → s.noHostLines → s.tok c f.tok ≠ tokPending →
    (s.kvOps.filter fun o => o.core == c.val).length < 16 →
    let src := (s.a c f.as.val).toNat
    let x := (s.g c f.gn.val).toNat % 65536
    let tag := immF f.imm 0 12
    (immF f.imm 17 15 = 0 → (immB f.imm 16 = true ∨ immF f.imm 12 4 = 0) → src < pantrySize → src + 1152 ≤ pantrySize →
      s.Ready c (f.word 0x80) (s.pcNext c) →
      ∃ t, exec (.kvAppend c f) s = .next t ∧ Queued s t c f.tok ∧ PantryKept s t ∧ t.kvOps = s.kvOps ++
        [⟨s.nextId, c, f.tok, .append, x, tag, src, if immB f.imm 16 then immF f.imm 12 4 + 1 else 0, [], 0, none, 0, 0, 0,
          false⟩]) ∧
    (∀ e ∈ [(Instr.kvCommit c f, (0x81 : Byte), PnBody.kvCommit x tag (immF f.imm 16 16) (s.ctx x).committed false false),
        (.kvRollback c f, 0x82, .kvRollback x tag (immF f.imm 16 16) (s.ctx x).committed false false)],
      immF f.imm 12 4 = 0 → s.bound c = true → s.kvKnown c x = true → (∀ o ∈ s.kvOps, o.started = true ∧ o.id ≠ s.nextId) →
      (e.2.1 = 0x81 → (∃ p, s.part (s.partOf c) = some p ∧ (p.modules.length ≤ 1 ∨ p.lead = s.module)) ∧
        s.decides c = true ∧ (s.ctx x).part = s.partOf c ∧ s.passOf x = none) →
      s.holders (s.ctx x).part ≠ [] →
      (∀ h ∈ s.holders (s.ctx x).part, h < 256 ∧ s.coreBad h = false ∧ s.sleep h < 3) → s.Ready c (f.word e.2.1) (s.pcNext c) →
      ∃ t, exec e.1 s = .next t ∧ Queued s t c f.tok ∧ PantryKept s t ∧
        (∃ o ∈ t.kvOps, o.core = c ∧ o.tok = f.tok ∧ o.started = true ∧
          o.acks = ((s.holders (s.ctx x).part).map fun h => (s.module, h)) ++ s.farHolders (s.ctx x).part) ∧
        ∀ h ∈ s.holders (s.ctx x).part,
          ∃ m ∈ t.pn, m.dest = s.stand h ∧ m.src = c ∧ m.tag = f.tok ∧ m.body = e.2.2) ∧
    (immF f.imm 12 4 = 0 → s.bound c = true → s.kvKnown c x = true → s.decides c = false →
      (∀ o ∈ s.kvOps, o.core ≠ c ∧ o.started = true ∧ o.id ≠ s.nextId) → s.Ready c (f.word 0x81) (s.pcNext c) →
      ∃ t, exec (.kvCommit c f) s = .next t ∧ Issued s t c (s.pcNext c) ∧ t.Completed c f.tok stPartition ∧ PantryKept s t ∧
        t.pn = s.pn)

/-- R261, R262, R288, R289: KV.MAP on a HOT entry of one layer sets its PIN and FILL and keeps block, slot and node; KV.DIGEST
converts its 64 BF16 values to e4m3 at the block's place in its digest group; TREE.MASK writes for each node the set of itself
and its ancestors, and ends BOUNDS, writing nothing, where a parent is not below its node. With nothing ahead of them in the
queue their tokens complete. -/
def Obligations.MapsDigestsAndMasksAreWritten : Prop :=
  ∀ (c : CoreId) (f : UFmt) (s : State), f.fn = 0 → f.sr = false → s.noHostLines → s.tok c f.tok ≠ tokPending →
    (∀ o ∈ s.kvOps, o.core ≠ c ∧ o.started = true ∧ o.id ≠ s.nextId) → s.writable c → s.noScrub →
    let src := (s.a c f.as.val).toNat
    let dst := (s.a c f.ad.val).toNat
    let n := (s.g c f.gn.val).toNat
    let x := n % 65536
    let tag := immF f.imm 0 12
    let r := s.residentOf x
    (∀ l, immF f.imm 12 20 = 0 → src < pantrySize → src + 16 ≤ pantrySize → s.tagLayers (s.ctx x).part tag = [l] →
      s.kvKnown c x = true → l.lead ∈ l.keepers → (∀ k ∈ l.keepers, k < 256) → (∀ q ∈ s.loftFetches, s.nextId ∉ q.ops) →
      let bs := s.bytes c src 16
      let e := mapOf bs
      let i := leAt bs 9 1
      let h := s.mapEntry l r i
      l.mapAt r i + 16 ≤ pantrySize → requestBad bs = false → (e.slot = 0xFFFF ∨ e.slot < l.slots) → e.state = 1 →
      h.state = 1 → h.block = e.block → (e.slot = 0xFFFF ∨ e.slot = h.slot) → h.node = e.node →
      (e.node = 0 ∨ ∃ p, s.part (s.ctx x).part = some p ∧ e.node < p.bookNodes) →
      s.Ready c (f.word 0x83) (s.pcNext c) →
      ∃ t, exec (.kvMap c f) s = .next t ∧ Issued s t c (s.pcNext c) ∧ t.Completed c f.tok stOk ∧
        t.mapEntry l r i = { h with pin := e.pin, fill := e.fill }) ∧
    (∀ l j e, src < pantrySize → src + 128 ≤ pantrySize → s.layerOf x tag = some l → s.kvKnown c x = true →
      let b := immF f.imm 12 20
      let core := l.set.getD (b % l.set.length) 0
      let place := l.slotAt e.slot + 64 * (b / l.set.length % 576)
      s.digestEntry l r (l.groupOf b) = some (j, e) → core < 256 → place + 64 ≤ pantrySize → s.pantryEcc = [] →
      s.Ready c (f.word 0x84) (s.pcNext c) →
      ∃ t, exec (.kvDigest c f) s = .next t ∧ Issued s t c (s.pcNext c) ∧ t.Completed c f.tok stOk ∧
        ∀ i < 64, t.byte core (place + i) =
          BitVec.ofNat 8 (fmtE4m3.convert true .even (fmtBf16.decode (leNat (s.bytes c (src + 2 * i) 2)))).code) ∧
    (f.imm = 0 → 0 < n → n ≤ 16 → src < pantrySize → src + n ≤ pantrySize → dst < pantrySize → dst + 2 * n ≤ pantrySize →
      s.Ready c (f.word 0x90) (s.pcNext c) →
      let parent := fun i => (s.byte c (src + i)).toNat
      ∃ t, exec (.treeMask c f) s = .next t ∧ Issued s t c (s.pcNext c) ∧
        ((∀ i < n, parent i = 0xFF ∨ parent i < i) → t.Completed c f.tok stOk ∧
          ∀ rows : Nat → Nat, (∀ i < n, rows i = 2 ^ i ||| (if parent i = 0xFF then 0 else rows (parent i))) →
            ∀ i < n, leNat (t.bytes c (dst + 2 * i) 2) = rows i) ∧
        ((∃ i < n, parent i ≠ 0xFF ∧ i ≤ parent i) → t.Completed c f.tok stBounds ∧ PantryKept s t))

/-- R274, R282 to R287: an append that needs no new page writes its converted entry into its staging place on every core of
the set, and its token completes; a holder that applies a commit raises its count by the entries committed and moves the
pending entry, or 0x7F bytes where none was staged, to the page; a rollback drops the staged entries that it names; both are
acknowledged; the last acknowledgement completes the token with the worst status. -/
def Obligations.KvOperationsComplete : Prop :=
  ∀ (s : State), s.noHostLines → s.flag Reg.DUMP_STAT Fl.DUMP_STAT_RETAINED = false → s.noScrub →
    (∀ (c : CoreId) (tk : TokId) (o : KvOp) (l : LayerKv), s.KvFront o → o.core = c → o.tok = tk → o.kind = .append →
      o.started = false → s.bound c = true → s.kvKnown c o.ctx = true → s.layerOf o.ctx o.tag = some l →
      (∀ k ∈ l.set, k < 256 ∧ s.coreBad k = false ∧ s.sleep k < 3) →
      let x := o.ctx
      let r := s.residentOf x
      let n := (s.hold x l.tag l.lead).committed
      let mine := s.kvReserves.filter fun q => q.of x l.tag
      ∀ i e, s.pageEntry l r (n / 64) = some (i, e) → e.state ≠ 2 → (n + (o.entry - 1)) / 64 = n / 64 →
        mine.length ≤ (s.unusedEntries l r).length →
        ((s.recallOn x = true ∧ l.draft = false) ∨
          (s.hotEntries l r).length + (mine.filter fun q => !q.digest).length ≤ s.pagesMax x) →
        l.stageAt r o.entry + 576 ≤ pantrySize →
        ∃ t, exec (.kvAppendComplete c tk) s = .next t ∧ t.Completed c tk stOk ∧ ∀ k ∈ l.set,
          (t.hold x l.tag k).staged.testBit o.entry = true ∧ (t.hold x l.tag k).committed = (s.hold x l.tag k).committed ∧
          t.bytes k (l.stageAt r o.entry) 576 = (s.appendConvs l c o.src s.fresh).map fun v => BitVec.ofNat 8 v.code) ∧
    (∀ (id : Nat) (m : PnMsg) (x : Nat) (l : LayerKv), s.findPn id = some m → m.dest < 256 → m.src < 256 →
      m.srcModule = s.module → (s.ctx x).resident.isSome = true → s.heldLayers x m.dest = [l] →
      let c := m.dest
      let h := s.hold x l.tag c
      let acked := fun t : State => ∃ a ∈ t.pn, a.dest = s.stand m.src ∧ a.src = c ∧ a.tag = m.tag ∧ a.body = .kvAck x stOk
      (∀ tag mask pos flip, m.body = .kvCommit x tag mask pos false flip →
        ∃ t, exec (.pnKvCommit id) s = .next t ∧ acked t ∧
          (t.hold x l.tag c).committed = h.committed + (if mask = 0 then 1 else (maskList 16 mask).length) ∧
          ∀ k, mask = 0 → c ≠ l.lead → s.pageSlot l x (s.residentOf x) (h.committed / 64) = some k →
            l.slotAt k + 576 * (h.committed % 64) + 576 ≤ pantrySize →
            t.bytes c (l.slotAt k + 576 * (h.committed % 64)) 576 =
              if h.staged.testBit 0 then s.stagedBytes l x (s.residentOf x) c 0 else List.replicate 576 0x7F) ∧
      (∀ tag mask pos replay flip, m.body = .kvRollback x tag mask pos replay flip →
        ∃ t, exec (.pnKvRollback id) s = .next t ∧ acked t ∧ (t.hold x l.tag c).committed = h.committed ∧ PantryKept s t ∧
          (mask = 0 → (t.hold x l.tag c).staged.testBit 0 = false) ∧
          ∀ i < 16, mask.testBit i = true → (t.hold x l.tag c).staged.testBit (i + 1) = false)) ∧
    (∀ (id : Nat) (m : PnMsg) (x st : Nat) (o : KvOp), s.findPn id = some m → m.body = .kvAck x st → s.noRequests →
      s.KvFront o → o.core = m.dest → o.tok = m.tag → o.ctx = x → o.acks = [(m.srcModule, m.src)] → o.worst < 256 →
      st < 256 →
      ∃ t, exec (.kvAck id) s = .next t ∧ t.Completed o.core o.tok (worseStatus o.worst st))

/-- R295, R300 to R302: a page that returns from the Loft to an entry that still holds it is in every replica, filled with
0x7F after an error; a spill whose write has completed frees its slot once the next commit has reached the set lead, and a
failed one stays; a RETIRING node that no context refers to is FREE and holds no slot. -/
def Obligations.PagesMoveAndNodesRetire : Prop :=
  ∀ (s : State), s.noHostLines → s.flag Reg.DUMP_STAT Fl.DUMP_STAT_RETAINED = false → s.noScrub →
    (∀ (id : Nat) (ok : Bool) (data : List Byte) (q : LoftFetch) (l : LayerKv) (i : Nat) (e : MapEntry), s.kvIdle →
      s.pageEntry l (s.residentOf q.ctx) q.block = some (i, e) → e.state = 3 → e.slot = q.slot →
      (s.loftFetches.find? fun q => q.id == id) = some q → s.layerOf q.ctx q.tag = some l → (∀ k ∈ l.set, k < 256) →
      l.slotAt q.slot + 36864 ≤ pantrySize →
      ∃ t, exec (.loftFetchComplete id ok data) s = .next t ∧ t.loftFetches = s.loftFetches.filter (fun k => k.id != id) ∧
        ∀ k ∈ l.set, ∀ i < 36864, t.byte k (l.slotAt q.slot + i) = if ok && s.cacheOk then data.getD i 0 else 0x7F) ∧
    (∀ (id : Nat) (q : Spill) (l : LayerKv), (s.spills.find? fun q => q.id == id) = some q → s.layerOf q.ctx q.tag = some l →
      (s.cacheOk = true → ∃ t, exec (.spillWriteComplete id true) s = .next t ∧ PantryKept s t ∧
        (q.reached = true → q.kept = false → ∀ c ∈ l.set, t.slotUsed c q.slot = false) ∧
        (q.reached = false → q.kept = false → ∃ k ∈ t.spills, k = { q with written := true })) ∧
      ∀ ok, (ok && s.cacheOk) = false →
        ∃ t, exec (.spillWriteComplete id ok) s = .next t ∧ t.spills = s.spills ∧ t.kvSlots = s.kvSlots) ∧
    (∀ (p : PartId) (node : Nat) (r : PartRec) (c : Nat), s.part p = some r → r.bookCore = some c → c < 256 →
      r.recordAt node + 320 ≤ pantrySize → node < r.bookNodes → s.bookNum r node 20 1 = 3 → s.bookNum r node 12 4 = 0 →
      ∃ t, exec (.nodeRetireFree p node) s = .next t ∧ t.bookNum r node 20 1 = 0 ∧
        (∀ l ∈ s.kvLayers p, t.bookSlot p l.tag node = none) ∧
        ∀ l k, s.kvLayers p = [l] → s.bookSlot p l.tag node = some k → ∀ d ∈ l.set, t.slotUsed d k = false)

/-! ## Passes and completions -/

/-- R317 to R319: the pass of the one request that waits for one and may have it is admitted: its descriptor lies in every
entry core at the pass offset, and SRV.STAT counts it. R328, R332: the notice of a request past its deadline goes to the
head core once, and makes the pass in flight late; the notice of a commit with more to come writes its tokens to OUT_ADDR.
R547, R550: the next completion of an active queue with space is written at its tail with the phase, and the tail moves on;
a write that fails takes the queue to ERROR with code 6 and drops the completion. -/
def Obligations.PassesNoticesAndCompletions : Prop :=
  (∀ (p : PartId) (s : State) (r : Req) (rec : PartRec), s.noHostLines →
      s.flag Reg.DUMP_STAT Fl.DUMP_STAT_RETAINED = false → s.noScrub → s.reqs = [r] → s.host.parkDue = [] → s.kvIdle → r.part = p →
      s.passReady r = true → s.part p = some rec → (∀ c ∈ s.entryCores p, c < 256) → rec.passOfs + 128 ≤ pantrySize →
      let q := s.nextPass r
      ∃ t, exec (.passAdmission p) s = .next t ∧ t.passes = s.passes ++ [q] ∧
        t.fld Reg.SRV_STAT Fl.SRV_STAT_IN_FLIGHT = s.passes.length + 1 ∧
        ∀ c ∈ s.entryCores p, t.bytes c rec.passOfs 128 = s.passBytes q (s.passBucket r q)) ∧
  (∀ (s : State) (r : Req), s.reqs = [r] →
      (∀ h, h < 256 → r.runsPasses = true → r.deadline ≠ 0 → r.sent = false → r.t0 + r.deadline ≤ s.hostTime →
        s.headCore r.part = some h →
        exec .deadlineTimer s = .next { s with
          pn := s.pn ++ [⟨s.nextId, s.stand h, s.module, nodeHost, s.module, 0, 0, .deadline r.ctx r.id⟩]
          nextId := s.nextId + 1
          reqs := [{ r with sent := true }] }) ∧
      (∀ (id x tag : Nat) (m : PnMsg), s.findPn id = some m → m.body = .deadline x tag →
        ∃ t, exec (.deadline id) s = .next t ∧ t.pn = s.pn.filter (fun k => k.id != id) ∧ PantryKept s t ∧
          t.passes = s.passes.map (fun q => if q.ctx = x ∧ q.req = tag then { q with late := true } else q) ∧
          t.reqs = [if r.id = tag then { r with noticed := true } else r]) ∧
      (∀ (id flags : Nat) (m : PnMsg) (n : Notice), s.findPn id = some m →
        m.body = .commitNotice n.ctx n.seq n.tokens.length flags → s.notices = [n] → n.req = r.id → n.final = none →
        n.tokens ≠ [] → r.stream = false → r.outAddr ≠ 0 → r.started = true → r.op = opGenerate → r.ctx = n.ctx →
        (s.ctx r.ctx).st = .active → (s.passOf r.ctx).isSome = true → s.host.parkDue = [] → s.kvIdle → s.biWant = [] → r.status = none →
        ∃ t q, exec (.commitNotice id) s = .next t ∧ t.notices = [] ∧ t.reqs = [q] ∧ q.emitted = r.emitted + n.tokens.length ∧
          q.carry = r.carry ++ n.tokens ∧ PantryKept s t ∧
          t.outbox = s.outbox ++ [.hostWrite (r.outAddr + 4 * r.emitted) (n.tokens.map fun w => leBytes 4 w).flatten])) ∧
  (∀ (q : QueueId) (s : State) (d : Completion) (ds : List Completion), s.noRequests → s.biWant = [] →
      let k := s.queue q
      k.waiting = d :: ds → k.state = qActive → k.full = false →
      (∃ t, exec (.completionWrite q true) s = .next t ∧ PantryKept s t ∧ (t.queue q).waiting = ds ∧
        (t.queue q).cqTail = (k.cqTail + 1) % k.cqSize ∧
        (t.queue q).phase = (if (k.cqTail + 1) % k.cqSize = 0 then !k.phase else k.phase) ∧
        ∃ rest, t.outbox = s.outbox ++ OutMsg.hostWrite (k.cqBase + 64 * k.cqTail)
          (d.bytes.take 33 ++ leBytes 1 (leAt d.bytes 33 1 + (if k.phase then 128 else 0)) ++ d.bytes.drop 34) :: rest) ∧
      ∃ t, exec (.completionWrite q false) s = .next t ∧ (t.queue q).state = qError ∧ (t.queue q).error = 6 ∧
        (t.queue q).waiting = ds ∧ t.outbox = s.outbox ∧
        t.fld Reg.HIF_CPL_DROPPED Fl.HIF_CPL_DROPPED_COUNT = min (s.fld Reg.HIF_CPL_DROPPED Fl.HIF_CPL_DROPPED_COUNT + 1) (2 ^ 32 - 1))

/-! ## Host requests -/

/-- R311, R316, R339, R340, R343, R346: with nothing else open, a good descriptor of the queue whose turn it is, of an
enabled tenant and a READY partition, is carried out: CREATE makes the context PARKED; GENERATE and ADAPT make a RESIDENT one
ACTIVE; PARK begins the park of a quiet one; RESUME of a PARKED one, without adapter or book node, takes a free resident index
where its layers have room; DELETE makes a quiet RESIDENT one FREE. -/
def Obligations.RequestsAreServed : Prop :=
  ∀ (q : QueueId) (s : State) (d : List Byte) (rec : PartRec), s.noRequests → s.noHostLines → s.turnOf = some q.val →
    s.flag Reg.HIF_STAT Fl.HIF_STAT_LINK_UP = true → d.length = 64 → descBad d = false → s.placesUsed < 1024 →
    (s.queue q).stuck = false → s.tenantOn (leAt d 4 2) = true → s.fatal = false → swf (fun _ => queueZero) s.queues = true →
    let x := leAt d 2 2
    let p := leAt d 7 1 % 16
    let k := s.ctx x
    s.part p = some rec → s.partState p = 3 →
    (∀ b, leAt d 0 1 = opCreate → k.st = .free → s.recordBad rec p x b = false →
      ∃ t, exec (.create q (some d) (some b)) s = .next t ∧ t.ctx x = ctxOf b ∧ (t.ctx x).st = .parked ∧ t.reqs = [] ∧
        (t.queue q).waiting.length = (s.queue q).waiting.length + 1) ∧
    (∀ prompt b, leAt d 0 1 = opGenerate → k.st = .resident → k.part = p →
      leAt d 12 4 ≤ prompt.length → (0 < leAt d 8 4 ∨ (bitOf (leAt d 1 1) 1 = false ∧ 2 ≤ leAt d 12 4)) →
      ∃ t, exec (.generate q (some d) prompt b) s = .next t ∧ (t.ctx x).st = .active ∧
        (t.ctx x).temperature = leAt d 36 2 ∧ ∃ r, t.reqs = [r] ∧ r.started = true ∧ r.ctx = x ∧ r.tokens = leAt d 8 4) ∧
    (∀ prompt b, leAt d 0 1 = opAdapt → k.st = .resident → k.part = p → 0 < leAt d 12 4 → leAt d 12 4 ≤ prompt.length →
      bitOf (leAt d 1 1) 1 = false →
      ∃ t, exec (.adapt q (some d) prompt b) s = .next t ∧ (t.ctx x).st = .active ∧
        ∃ r, t.reqs = [r] ∧ r.started = true ∧ r.input = (prompt.map fun w => w.toNat).take (leAt d 12 4)) ∧
    (leAt d 0 1 = opPark → k.st = .resident → k.part = p → k.resident.isSome = true → s.quiet x = true →
      ∃ t, exec (.park q (some d)) s = .next t ∧ (t.ctx x).st = .parking ∧ (t.ctx x).reason = 1 ∧
        ∃ r, t.reqs = [r] ∧ r.started = true) ∧
    (leAt d 0 1 = opDelete → k.st = .resident → k.part = p → s.quiet x = true →
      ∃ t, exec (.delete q (some d)) s = .next t ∧ t.ctx x = ctxZero ∧ t.reqs = [] ∧
        (t.queue q).waiting.length = (s.queue q).waiting.length + 1) ∧
    (∀ b i, leAt d 0 1 = opResume → k.st = .parked → s.recordBad rec p x b = false → bitOf (leAt b 10 1) 1 = false →
      bitOf (leAt b 10 1) 2 = false → s.freeIndex p = some i →
      let u := (s.setCtx x { ctxOf b with
        lastActive := k.lastActive
        ckPos := k.ckPos
        ckNode := k.ckNode
        ckFill := k.ckFill
        ckSteps := k.ckSteps
        part := p
        st := .resuming
        resident := some i
        slot := none
        bank := false }).takeKv x
      (State.installPlans x i p rec (s.kvLayers p) u).isSome = true →
      ∃ t, exec (.resume q (some d) (some b)) s = .next t ∧ (t.ctx x).st = .resuming ∧ (t.ctx x).resident = some i ∧
        ∃ r, t.reqs = [r] ∧ r.started = true)

/-- R331, R339, R340: a park whose writes have completed writes the record and makes the context PARKED, and after a failed
write, or without CXL.cache (R536), it stays RESIDENT; a resume whose reads have come back makes it RESIDENT, and after a read
error, or without CXL.cache, PARKED; a refill raises a tenant's balance, which saturates. -/
def Obligations.ParksAndResumesComplete : Prop :=
  ∀ (x : CtxId) (s : State), s.noRequests → s.noHostLines →
    let k := s.ctx x
    (k.st = .parking →
      (s.cacheOk = true → ∃ t, exec (.parkComplete x true) s = .next t ∧ (t.ctx x).st = .parked ∧
        (k.resident.isSome = true → (t.ctx x).resident = none ∧ (t.ctx x).slot = none) ∧
        t.outbox.getLast? = some (.hostWrite (recordAddr s x) (k.record x 1))) ∧
      ∀ ok, (ok && s.cacheOk) = false →
        ∃ t, exec (.parkComplete x ok) s = .next t ∧ (t.ctx x).st = .resident ∧ (t.ctx x).resident = k.resident) ∧
    (∀ (mem : List (Nat × List Byte)) (r : Nat) (p : PartRec), k.st = .resuming → k.resident = some r → s.part k.part = some p →
      let reads := ((s.kvLayers k.part).map fun l => s.resumeReads x r l).flatten ++
        (if k.adapter then [(k.loftAdapter, p.adapterBytes)] else [])
      (s.cacheOk = true → (∀ a ∈ reads, (memAt mem a.1 a.2).isSome = true) →
        ∃ t, exec (.resumeComplete x mem) s = .next t ∧ (t.ctx x).st = .resident ∧ (t.ctx x).resident = some r ∧
          (t.ctx x).ckPos = k.committed) ∧
      ((∃ a ∈ reads, s.cacheOk = false ∨ memAt mem a.1 a.2 = none) →
        ∃ t, exec (.resumeComplete x mem) s = .next t ∧ (t.ctx x).st = .parked ∧ (t.ctx x).resident = none)) ∧
    (∀ mem : List (Nat × List Byte), k.st = .resuming → k.resident = none →
      ∃ t, exec (.resumeComplete x mem) s = .next t ∧ (t.ctx x).st = .parked ∧ (t.ctx x).resident = none ∧ PantryKept s t) ∧
    (∀ (n : TenantId) (v : DWord), ∃ t, exec (.tenRefill n v) s = .next t ∧ PantryKept s t ∧
      t.balance n = max (-2147483648) (min 2147483647 (s.balance n + (v.setWidth 32).toNat)) ∧
      RegsKept s t [Reg.SRV_TEN_BALANCE n])

/-! ## Registers -/

/-- R196, R199, R232, R248, R271, R272: START of a halted or faulted sequencer runs it at SEQ.START_PC, or with RESUME at
its pc, and clears IN_HANDLER; HALT halts a running or waiting one with the pc kept and gives up its TWAIT; SEQ.CODE_DATA
writes and reads the code store at SEQ.CODE_ADDR, which moves on; FORCE_CLOSE closes a window; CORE.SCRUB of an idle core
sets SCRUB_BUSY, and its Pantry reads as zeros. -/
def Obligations.CoreCommandsAct : Prop :=
  ∀ (c : CoreId) (s : State), s.CoreTakes c →
    let rest : Prop := s.seq c = seqHalted ∨ s.seq c = seqFaulted
    let at' := s.fld (Reg.SEQ_CODE_ADDR c) Fl.SEQ_CODE_ADDR_ADDR
    (rest → s.fatal = false → ∀ e ∈ [(Instr.seqStart c, s.fld (Reg.SEQ_START_PC c) Fl.SEQ_START_PC_PC), (.seqResume c, s.pc c)],
      ∃ t, exec e.1 s = .next t ∧ t.seq c = seqRun ∧ t.pc c = e.2 ∧ t.inHandler c = false ∧
        RegsKept s t [Reg.SEQ_STAT c, Reg.SEQ_PC c] ∧ OnlyRegs s t) ∧
    ((s.seq c = seqRun ∨ s.seq c = seqWait) →
      ∃ t, exec (.seqHalt c) s = .next t ∧ t.seq c = seqHalted ∧ t.pc c = s.pc c ∧
        t.twaits = s.twaits.filter (fun w => w.core != c.val) ∧ RegsKept s t [Reg.SEQ_STAT c] ∧ PantryKept s t ∧
        (0 < s.sleep c → t.waking.contains c.val = true)) ∧
    (∀ w, rest → ∃ t, exec (.seqCodeData c (some w)) s = .next t ∧
      t.fld (Reg.SEQ_CODE_ADDR c) Fl.SEQ_CODE_ADDR_ADDR = (at' + 1) % 32768 ∧ PantryKept s t ∧
      ∀ (d : CoreId) (i : Nat), i < 32768 → t.codeAt d i = if d = c ∧ i = at' then w else s.codeAt d i) ∧
    (∃ t, exec (.seqCodeData c none) s = .next t ∧ t.outbox = s.outbox ++ [.readData (Reg.SEQ_CODE_DATA c) 8 (s.codeAt c at')] ∧
      t.fld (Reg.SEQ_CODE_ADDR c) Fl.SEQ_CODE_ADDR_ADDR = (at' + 1) % 32768 ∧ t.code = s.code) ∧
    (∀ w : WinId, s.winPendsApart c 16 → ∃ t, exec (.forceClose c w 8) s = .next t ∧ t.winState c w = winClosed ∧
      t.winGen c w = s.winGen c w ∧ t.winCount c w = s.winCount c w ∧
      (s.winState c w = winDraining → t.fld (Reg.WDS_WIN_CTL c w) Fl.WDS_WIN_CTL_LAST_DRAIN = 3) ∧ PantryKept s t) ∧
    (s.coreIdle c = true → s.scrubbing c = false → ∃ t, exec (.coreScrub c 1) s = .next t ∧ t.scrubbing c = true ∧
      (∀ o < pantrySize, s.dumpHeld c o = false → t.byte c o = 0) ∧
      ∀ d o, d ≠ c.val → o < pantrySize → t.byte d o = s.byte d o)

/-- R71, R141, R220, R221, R229, R651: a write of RND.SAT_COUNT_CLEAR clears the count; a borrow by an idle SWING core of
another core's racks is EN without READY until the rack bus has switched, and ends with EN 0; a write of RACK.CAPTURE_CTL
is stored, ARM clearing DONE; a read of RACK.REC_DATA_0 latches the selected record. -/
def Obligations.CoreBlocksAct : Prop :=
  ∀ (c : CoreId) (s : State), s.CoreTakes c →
    (∀ v, ∃ t, exec (.satCountClear c v) s = .next t ∧ t.rd (Reg.RND_SAT_COUNT c) = 0 ∧
      RegsKept s t [Reg.RND_SAT_COUNT c] ∧ OnlyRegs s t) ∧
    (∀ loc : Fin 8, (s.fires.any fun f => f.core == c.val) = false → s.flag (Reg.CORE_ID c) Fl.CORE_ID_SWING = true →
      loc.val ≠ c.val % 8 →
      (s.flag (Reg.RIF_BORROW c) Fl.RIF_BORROW_EN = false →
        ∃ t, exec (.borrow c (BitVec.ofNat 32 (1 + 2 * loc))) s = .next t ∧
          t.flag (Reg.RIF_BORROW c) Fl.RIF_BORROW_EN = true ∧ t.flag (Reg.RIF_BORROW c) Fl.RIF_BORROW_READY = false ∧
          t.fld (Reg.RIF_BORROW c) Fl.RIF_BORROW_LOCAL = loc ∧ RegsKept s t [Reg.RIF_BORROW c] ∧ OnlyRegs s t) ∧
      ∃ t, exec (.borrowEnd c (BitVec.ofNat 32 (2 * loc))) s = .next t ∧
        t.flag (Reg.RIF_BORROW c) Fl.RIF_BORROW_EN = false ∧ RegsKept s t [Reg.RIF_BORROW c] ∧ OnlyRegs s t) ∧
    (s.flag (Reg.RIF_BORROW c) Fl.RIF_BORROW_EN = true →
      ∃ t, exec (.borrowReady c) s = .next t ∧ t.flag (Reg.RIF_BORROW c) Fl.RIF_BORROW_READY = true ∧
        t.flag (Reg.RIF_BORROW c) Fl.RIF_BORROW_EN = true ∧ RegsKept s t [Reg.RIF_BORROW c] ∧ OnlyRegs s t) ∧
    (∀ v : Word, v.toNat < 2 ^ 25 → ∃ t, exec (.captureArm c v) s = .next t ∧
      (t.rd (Reg.RACK_CAPTURE_CTL c)).toNat % 2 ^ 25 = v.toNat ∧ t.fld (Reg.RACK_CAPTURE_CTL c) Fl.RACK_CAPTURE_CTL_DONE =
        (if v.getLsbD 24 then 0 else s.fld (Reg.RACK_CAPTURE_CTL c) Fl.RACK_CAPTURE_CTL_DONE) ∧
      RegsKept s t [Reg.RACK_CAPTURE_CTL c] ∧ OnlyRegs s t) ∧
    (let ws := s.selectedRecord c
     ∃ t, exec (.recDataLatch c) s = .next t ∧
       t.outbox = s.outbox ++ [.readData (Reg.RACK_REC_DATA_0 c) 4 ((BitVec.ofNat 32 (ws.headD 0)).setWidth 64)] ∧
       ∀ k w, ws[k]? = some w → t.rd (Reg.RACK_REC_DATA_0 c + 4 * k) = BitVec.ofNat 64 w)

/-- R17 to R19, R86, R143, R226, R305, R354, R394 to R396: a COMMIT checks the shadow copies of its group. The first check
that fails is reported with its code and word and nothing is applied; otherwise every staged field takes its shadow copy,
and the report says APPLIED. -/
def Obligations.CommitsCheckAndApply : Prop :=
  ∀ (c : CoreId) (w : WinId) (p : PartId) (s : State), s.CoreTakes c →
    ∀ e ∈ [(Instr.nrmCommit c 1, nrmGroup c, nrmChecks), (.winCommit c w 1, winGroup c w, winChecks (s.winState c w == winClosed)),
        (.chkCommit p 1, chkGroup p, chkChecks), (.srvKvCommit p 1, kvGroup p, kvChecks), (.treeCommit p 1, treeGroup p, treeChecks)],
      let g := e.2.1
      let seq := (s.rd g.status).toNat / 2 ^ 24 % 256
      let report := fun n => BitVec.ofNat 64 (n + 2 ^ 24 * ((seq + 1) % 256))
      (∀ k i, firstFailed (e.2.2 (s.staged g)) = some (k, i) →
        ∃ t, exec e.1 s = .next t ∧ t.rd g.status = report (2 + 256 * k + 65536 * i) ∧ RegsKept s t [g.status] ∧ OnlyRegs s t) ∧
      (firstFailed (e.2.2 (s.staged g)) = none →
        ∃ t, exec e.1 s = .next t ∧ t.rd g.status = report 1 ∧ PantryKept s t ∧
          ∀ q ∈ g.words, t.rd q.1 = (s.rd q.1 &&& ~~~(BitVec.ofNat 64 q.2)) ||| (s.rdShadow q.1 &&& BitVec.ofNat 64 q.2))

/-- R15, R17 to R23, R36, R397, R422, R542, R567, R650: a register access by class and access code: a live field is stored, a
staged one goes to its shadow copy, 1 clears a W1C field, a quiesced one is refused while its owner is not idle, and an access
that is not aligned is discarded. A low-half read latches the high half; a read of the first word of a record latches it whole
and marks it read; a read of a core window goes and answers over the Prompt net. -/
def Obligations.RegisterAccessesFollowTheirClass : Prop :=
  ∀ (c : CoreId) (s : State), s.CoreTakes c →
    let o32 := fun o : Nat => BitVec.ofNat 32 o
    (∀ v : DWord, v.toNat < 8 →
      (∃ t, exec (.registerWrite (o32 (Reg.RND_CTL c)) 4 v) s = .next t ∧ t.rd (Reg.RND_CTL c) = (s.rd (Reg.RND_CTL c) &&& ~~~7) ||| v ∧
        RegsKept s t [Reg.RND_CTL c] ∧ OnlyRegs s t) ∧
      ∃ t, exec (.regWrite (o32 (Reg.RND_CTL c)) 4 v) s = .next t ∧ t.rd (Reg.RND_CTL c) = (s.rd (Reg.RND_CTL c) &&& ~~~7) ||| v ∧
        t.rd Reg.FAB_PN_MSGS = s.rd Reg.FAB_PN_MSGS + 1 ∧ RegsKept s t [Reg.RND_CTL c, Reg.FAB_PN_MSGS] ∧ OnlyRegs s t) ∧
    (∀ v : Word, ∃ t, exec (.registerWrite (o32 (Reg.NRM_FLOOR c)) 4 (v.setWidth 64)) s = .next t ∧
      t.rdShadow (Reg.NRM_FLOOR c) = v.setWidth 64 ∧ t.regs = s.regs ∧ PantryKept s t) ∧
    (∃ t, exec (.registerWrite (o32 (Reg.CORE_STAT c)) 4 0x1) s = .next t ∧
      t.rd (Reg.CORE_STAT c) = s.rd (Reg.CORE_STAT c) &&& ~~~1 ∧ RegsKept s t [Reg.CORE_STAT c] ∧ OnlyRegs s t) ∧
    (∀ v : DWord, v.toNat < 2 ^ 15 → s.seq c = seqRun →
      ∃ t, exec (.registerWrite (o32 (Reg.SEQ_START_PC c)) 4 v) s = .next t ∧
        t.flag (Reg.SEQ_STAT c) Fl.SEQ_STAT_WRITE_REFUSED = true ∧ RegsKept s t [Reg.SEQ_STAT c] ∧ OnlyRegs s t) ∧
    (∀ (off : BitVec 32) (width : Nat) (v : DWord), ¬(width = 4 ∧ off.toNat % 4 = 0) → ¬(width = 8 ∧ off.toNat % 8 = 0) →
      exec (.registerWrite off width v) s = .next s) ∧
    (∃ t, exec (.lowHalfRead (o32 (Reg.SEQ_ISSUED c))) s = .next t ∧ t.regs = s.regs ∧
      t.outbox = s.outbox ++ [.readData (Reg.SEQ_ISSUED c) 4 (((s.rd (Reg.SEQ_ISSUED c)).setWidth 32).setWidth 64)] ∧
      ∀ n, ∃ u, exec (.lowHalfRead (o32 (Reg.SEQ_ISSUED c + 4))) (t.wr (Reg.SEQ_ISSUED c) n) = .next u ∧
        u.outbox = t.outbox ++ [.readData (Reg.SEQ_ISSUED c + 4) 4 (s.rd (Reg.SEQ_ISSUED c) >>> 32)]) ∧
    (let k := s.fld Reg.DUMP_ERR_SEL Fl.DUMP_ERR_SEL_SLOT
     let rec' := (ringAt s.errLog k).bytes
     ∃ t, exec (.recordLatchRead (o32 Reg.DUMP_ERR_REC_0)) s = .next t ∧ (ringAt t.errLog k).read = true ∧
       (ringAt t.errLog k).bytes = rec' ∧ ∀ i < 8, t.rd (Reg.DUMP_ERR_REC_0 + 4 * i) = BitVec.ofNat 64 (leAt rec' (4 * i) 4)) ∧
    (let o := Reg.RND_SAT_COUNT c
     let v := ((s.rd o).setWidth 32).setWidth 64
     ∃ t, exec (.regRead (o32 o) 4) s = .next t ∧ t.host.reads = s.host.reads ++ [(s.nextId, o, 4)] ∧
       t.pn = s.pn ++ [⟨s.nextId, nodeHost, s.module, c, s.module, s.nextId, 0, .regResp 0 v⟩] ∧ PantryKept s t)

/-! ## Installing -/

/-- R149 to R177: GO starts an install, whose counters are 0 and whose descriptor is read; a stream that its checks refuse
ends it FAILED with the error and changes nothing else, and a good one puts its bins in first pass; a chunk whose CRC is bad
is fetched again, up to three times; with its region in Run, a bin whose chunks are good and whose data is programmed settles,
then waits for its touch-up, and goes OFFLINE where its cells fit neither the window nor the marginal one; ABORT and a fault
of HV end it, and released refreshes start. -/
def Obligations.InstallsRun : Prop :=
  ∀ (s : State), s.biWant = [] →
    (s.fwReady = true → s.loading = false → s.installing = false →
      ∃ t, exec (.instGo 1) s = .next t ∧ t.instState = instCheck ∧ t.inst = none ∧
        t.outbox = s.outbox ++ [.hostRead (s.rd Reg.CEL_INST_DESC).toNat 64] ∧ PantryKept s t ∧
        (∀ r ∈ [Reg.CEL_INST_FIRST_DONE, Reg.CEL_INST_FINISHED, Reg.CEL_INST_MARGINAL, Reg.CEL_INST_FAILED,
          Reg.CEL_INST_CLIPPED, Reg.CEL_INST_RETRIES], t.rd r = 0) ∧ t.binRecs = s.binRecs) ∧
    (s.installing = true → ∀ e ∈ [(Instr.instAbort 2, instAborted, 9), (.hvFault, instFailed, 8)],
      ∃ t, exec e.1 s = .next t ∧ t.instState = e.2.1 ∧ t.inst = none ∧
        t.fld Reg.CEL_INST_STAT Fl.CEL_INST_STAT_ERROR = e.2.2 ∧ t.fld Reg.CEL_INST_ENTRY Fl.CEL_INST_ENTRY_ENTRY = 0xFFFFFFFF ∧
        PantryKept s t) ∧
    (∀ mem err, s.instState = instCheck → s.judgeInstall (s.hostMem mem) = .inr err → err < 256 →
      ∃ t, exec (.installCheckDone mem) s = .next t ∧ t.instState = instFailed ∧
        t.fld Reg.CEL_INST_STAT Fl.CEL_INST_STAT_ERROR = err ∧ RegsKept s t [Reg.CEL_INST_STAT] ∧ OnlyRegs s t) ∧
    (∀ mem k, s.instState = instCheck → s.judgeInstall (s.hostMem mem) = .inl k → k.bins ≠ [] → (∀ b ∈ k.bins, b.phase = 0) →
      ∃ t j, exec (.installCheckDone mem) s = .next t ∧ t.inst = some j ∧ j.desc = k.desc ∧ j.entries = k.entries ∧
        t.instState = instFirst ∧ PantryKept s t ∧ ∀ a ∈ t.refreshQ, ∀ b ∈ k.bins, a.bin ≠ b.bin) ∧
    (∀ n chunk mem k, s.inst = some k →
      let e := k.entry n
      let list := k.lists.getD (entGroup e.raw) []
      let tries := sread (fun _ => 0) e.tries chunk + 1
      e.status = none → (k.bins.any fun b => b.entry == n && b.phase == 1) = true → chunk < chunkCount e.raw list →
      chunkOk e.raw list mem chunk = some false → tries ≤ 3 →
      ∃ t j, exec (.chunkCrcFail n ⟨chunk, mem⟩) s = .next t ∧ PantryKept s t ∧ t.inst = some j ∧
        j.entry n = { e with retries := e.retries + 1, tries := swrite (fun _ => 0) e.tries chunk tries } ∧
        t.fld Reg.CEL_INST_RETRIES Fl.CEL_INST_RETRIES_COUNT =
          min (s.fld Reg.CEL_INST_RETRIES Fl.CEL_INST_RETRIES_COUNT + 1) (2 ^ 32 - 1)) ∧
    (∀ (c : CoreId) (b : BinId) (k : Install) (x : InstBin), s.inst = some k →
      let g := c.val * 480 + b.val
      let e := (k.entry x.entry).raw
      (∀ erased mem, (k.bins.find? fun y => y.bin == g && y.phase == 1) = some x →
        s.rackPower g = true → s.cacheOk = true → (∀ q ∈ passBlocks e mem s.fresh g, ∃ v, q.2.2 = .inl v) →
        (∀ q ∈ spotValues e (k.lists.getD (entGroup e) []) mem g, q.2.isSome = true) →
        (∀ n ∈ binChunks e (k.lists.getD (entGroup e) []) g, chunkOk e (k.lists.getD (entGroup e) []) mem n = some true) →
        ∃ t j, exec (.firstPassDone c b erased mem) s = .next t ∧ t.inst = some j ∧ (∀ y ∈ j.bins, y.bin = g → y.phase = 2) ∧
          t.fld Reg.CEL_INST_FIRST_DONE Fl.CEL_INST_FIRST_DONE_COUNT =
            min (s.fld Reg.CEL_INST_FIRST_DONE Fl.CEL_INST_FIRST_DONE_COUNT + 1) (2 ^ 32 - 1)) ∧
      ((k.bins.any fun y => y.bin == g && y.phase == 2) = true →
        ∃ t j, exec (.settleExpire c b) s = .next t ∧ t.inst = some j ∧
          ∀ y ∈ j.bins, y.bin = g → y.phase = 3 ∨ y.phase = 4) ∧
      (∀ devs refs, (k.bins.find? fun y => y.bin == g && y.phase == 4) = some x → (∀ y ∈ k.bins, y.bin = g → y = x) →
        s.rackPower g = true → s.refreshQ = [] → cellOutcome (entDst e) devs refs = 2 →
        ∃ t, exec (.touchUpDone c b ⟨devs, refs⟩) s = .next t ∧ (t.binRec g).state = .offline ∧
          t.fld Reg.CEL_INST_FINISHED Fl.CEL_INST_FINISHED_COUNT =
            min (s.fld Reg.CEL_INST_FINISHED Fl.CEL_INST_FINISHED_COUNT + 1) (2 ^ 32 - 1) ∧
          t.fld Reg.CEL_INST_FAILED Fl.CEL_INST_FAILED_COUNT =
            min (s.fld Reg.CEL_INST_FAILED Fl.CEL_INST_FAILED_COUNT + 1) (2 ^ 32 - 1))) ∧
    (∀ (p : PartId) (a : DriftAct), s.fwReady = true → s.refreshQ = [a] → s.refreshing = [] → s.inst = none →
      s.inService a.bin = true → s.flowing = true → (s.binRec a.bin).part = p → s.rackPower a.bin = true →
      ∃ t, exec (.refreshGo (BitVec.ofNat 32 (2 ^ p.val))) s = .next t ∧ t.refreshQ = [] ∧
        t.refreshing = [{ a with go := true }] ∧ (t.binRec a.bin).state = .refresh ∧ PantryKept s t)

/-! ## Power -/

/-- R453 to R456, R628, R629: a feed that is lost, or whose connector is withdrawn, is used no more, with an alert, and the
other carries on. A mated feed that stays in range is used again, LK domains follow LK_CTL, and no region comes up by itself.
With the second feed PWR_OK is deasserted, every region goes Dark, and the LK, SP and HV domains are off. -/
def Obligations.FeedsAreLostAndReturn : Prop :=
  ∀ (b : Bool) (s : State), s.Settled →
    let mine := feedFld b
    let other := feedFld (!b)
    (∀ e ∈ [Instr.feedLoss b, .presentNOpen b], s.flag Reg.PWR_STAT mine = true → s.flag Reg.PWR_STAT other = true →
      ∃ t, exec e s = .next t ∧ t.flag Reg.PWR_STAT mine = false ∧ t.flag Reg.PWR_STAT other = true ∧
        t.flag Reg.PWR_STAT Fl.PWR_STAT_FEED_EVENT = true ∧ t.alertN = true ∧ PantryKept s t ∧
        t.rd Reg.PWR_DOMAIN_STAT = s.rd Reg.PWR_DOMAIN_STAT ∧ t.rd Reg.PWR_CURTAIN_STAT = s.rd Reg.PWR_CURTAIN_STAT) ∧
    (∃ t, exec (.feedConnect b) s = .next t ∧ (if b then t.power.feedB else t.power.feedA) = true ∧ t.regs = s.regs ∧
      PantryKept s t) ∧
    ((if b then s.power.feedB else s.power.feedA) = true → s.flag Reg.PWR_STAT mine = false → s.power.legacyUp ≠ 3 →
      (∀ n < 8, s.domainOn (16 + n) = true → (s.fld Reg.PWR_LK_CTL Fl.PWR_LK_CTL_ON).testBit n = true) →
      ∃ t, exec (.feedReturn b) s = .next t ∧ t.flag Reg.PWR_STAT mine = true ∧
        t.flag Reg.PWR_STAT other = s.flag Reg.PWR_STAT other ∧
        (∀ n < 8, t.domainOn (16 + n) = (s.fld Reg.PWR_LK_CTL Fl.PWR_LK_CTL_ON).testBit n) ∧
        t.rd Reg.PWR_CURTAIN_STAT = s.rd Reg.PWR_CURTAIN_STAT ∧ PantryKept s t) ∧
    (∀ e ∈ [Instr.bothFeedsLost, .feedLoss b, .presentNOpen b], s.flag Reg.PWR_STAT mine = true →
      s.flag Reg.PWR_STAT other = false → s.noRequests → s.ctxs = [] → s.slots = [] →
      ∃ t, exec e s = .next t ∧ t.flag Reg.PWR_STAT mine = false ∧ t.flag Reg.PWR_STAT other = false ∧ t.alertN = true ∧
        t.pwrOk = false ∧
        (∀ r < 16, s.inRun r = true → GoneDark t r) ∧ t.domainOn 25 = false ∧ t.domainOn 26 = false ∧
        ∀ n < 8, t.domainOn (16 + n) = false)

/-- R463 to R467, R469, R470, R644: a region asked up with no other coming up waits for its slot; one with
SHORT set fails at once. The slot, which a timeout grants with its loaded neighbours skipping 1 in 4, turns SP on and starts
inrush, and uses up the attempt that SHORT_CLR permits; the
end of inrush ends that skipping, or leaves a region with nine failed regulators Dark and OUT; then the region is in Run,
its cores in Run with their scrubs begun. One that is too slow is left Dark with UP_FAIL, and a load that waits for the
legacy curtain-up too long fails with POWER. -/
def Obligations.RegionsComeUp : Prop :=
  ∀ (r : RegionId) (s : State),
    let up := BitVec.ofNat 32 (2 ^ r.val)
    (s.Settled → s.fwReady = true → s.legacy = false → s.inRun r = false → s.stageOf r = 0 → s.curtainBusy = false →
      s.power.curtainAsk = [] →
      (s.upBarred r = false → s.slotBarred r = false →
        ∃ t, exec (.curtainUp up) s = .next t ∧ t.curtainBusy = true ∧ t.currentUp = r ∧
          t.flag Reg.PWR_CURTAIN_STAT Fl.PWR_CURTAIN_STAT_WAIT_SLOT = true ∧ RegsKept s t [Reg.PWR_CURTAIN_STAT] ∧
          PantryKept s t) ∧
      (s.flag (Reg.STG_REG_STAT r) Fl.STG_REG_STAT_SHORT = true →
        ∃ t, exec (.curtainUp up) s = .next t ∧ t.flag (Reg.STG_REG_STAT r) Fl.STG_REG_STAT_UP_FAIL = true ∧
          RegsKept s t [Reg.STG_REG_STAT r] ∧ PantryKept s t)) ∧
    (s.waitsSlot r = true → s.slotBarred r = false →
      ((∀ q < 16, s.stageOf q ≠ 1) → s.hotNeighbours r = [] →
        ∃ t, exec (.inrushSlotGrant r) s = .next t ∧ t.stageOf r = 1 ∧ t.domainOn r = true ∧ t.domainOn 25 = true ∧
          t.flag Reg.PWR_CURTAIN_STAT Fl.PWR_CURTAIN_STAT_WAIT_SLOT = false ∧ PantryKept s t ∧
          (sread (fun _ => false) s.power.shortMay r.val = true → sread (fun _ => false) t.power.shortMay r.val = false ∧
            sread (fun _ => none) t.power.shortTry r.val = some s.now) ∧
          RegsKept s t [Reg.PWR_CURTAIN_STAT, Reg.PWR_DOMAIN_STAT]) ∧
      ∃ t, exec (.inrushTimeout r) s = .next t ∧ t.stageOf r = 1 ∧ t.domainOn r = true ∧ t.domainOn 25 = true ∧
        PantryKept s t ∧
        t.flag Reg.PWR_CURTAIN_STAT Fl.PWR_CURTAIN_STAT_WAIT_SLOT = false ∧
        ∀ q ∈ s.hotNeighbours r, s.ratesOk q → t.skipOf q skipInrush = 2 ∧
          t.fld (Reg.ARB_SKIP q) Fl.ARB_SKIP_RATE = t.skipRate q) ∧
    (s.Settled → s.stageOf r = 1 →
      let f := s.fld (Reg.STG_REG_STAT r) Fl.STG_REG_STAT_FAILED
      (f < 9 → ∃ t, exec (.inrushEnd r) s = .next t ∧ t.stageOf r = 2 ∧ PantryKept s t ∧
        ∀ q < 16, t.skipOf q skipInrush = 0) ∧
      (9 ≤ f → s.noHostLines → s.noSwingIn r → ∃ t, exec (.inrushEnd r) s = .next t ∧ t.stageOf r = 0 ∧ GoneDark t r ∧
        t.flag (Reg.STG_REG_STAT r) Fl.STG_REG_STAT_OUT = true ∧
        t.flag (Reg.STG_REG_STAT r) Fl.STG_REG_STAT_UP_FAIL = true)) ∧
    (s.Settled → s.stageOf r = 2 →
      ∃ t, exec (.regionRun r) s = .next t ∧ t.inRun r = true ∧ t.stageOf r = 0 ∧ PantryKept s t ∧
        ∀ c, c / 16 = r.val → t.sleep c = 0 ∧ t.scrubbing c = true ∧ t.seq c = s.seq c) ∧
    (s.Settled → s.noHostLines → s.noSwingIn r → s.stageOf r ≠ 0 →
      ∃ t, exec (.bringupTimeout r) s = .next t ∧ t.stageOf r = 0 ∧ GoneDark t r ∧
        t.flag (Reg.STG_REG_STAT r) Fl.STG_REG_STAT_UP_FAIL = true) ∧
    (∀ k, s.blk.load = some k → s.power.legacyUp = 3 → s.loadState = ldPower →
      ∃ t, exec .legacyFeedTimeout s = .next t ∧ t.loadState = ldFailed ∧ t.blk.load = none ∧
        t.fld Reg.BLK_LOAD_STAT Fl.BLK_LOAD_STAT_ERROR = 24 ∧ PantryKept s t)

/-- R463, R464, R468, R473, R475, R499, R500: a DOWN of a region with no bound core waits for its evaluations and then opens
its switch; of one with a bound core it is refused, and of a Dark one it has no effect. An idle core that may, and that was
not woken in the same 250 ns, enters Retain without its claim, and STG.WAKE wakes one. A region whose cores are all idle and
that may goes Dark. -/
def Obligations.RegionsAndCoresGoDown : Prop :=
  ∀ (r : RegionId) (s : State), s.Settled →
    let down := BitVec.ofNat 32 (2 ^ (16 + r.val))
    (s.fwReady = true → s.legacy = false → s.regionBound r = false → s.inRun r = true → s.power.curtainDowns = [] →
      s.reverseOrder (2 ^ r.val) = [r.val] →
      ∃ t, exec (.curtainDown down) s = .next t ∧ t.power.curtainDowns = [[r.val]] ∧ RegsKept s t [] ∧ PantryKept s t) ∧
    (s.fwReady = true → s.legacy = false → s.regionBound r = false → s.inRun r = false → s.stageOf r = 0 →
      exec (.curtainDown down) s = .next s) ∧
    (s.regionBound r = true →
      ∃ t, exec (.curtainDown down) s = .next t ∧ t.flag Reg.PWR_STAT Fl.PWR_STAT_WRITE_REFUSED = true ∧
        RegsKept s t [Reg.PWR_STAT] ∧ OnlyRegs s t) ∧
    (s.power.curtainDowns = [[r.val]] → s.inRun r = true → (∀ c, c / 16 = r.val → s.evalInFlight c = false) →
      ∃ t, exec (.regionSwitchOpen r) s = .next t ∧ GoneDark t r ∧ t.power.curtainDowns = []) ∧
    (s.inRun r = true → s.keptUp = false → s.legacy = false → s.darkAllowed r = true →
      (∀ c, c / 16 = r.val → s.sleep c = 3 ∨ (s.coreIdle c = true ∧ s.scrubbing c = false)) →
      ∃ t, exec (.darkEntry r) s = .next t ∧ GoneDark t r) ∧
    (∀ c : CoreId, s.sleep c = 0 → s.coreIdle c = true → s.scrubbing c = false → s.keptUp = false → c.val ∉ s.waking →
      s.woken c ≠ some s.now → (s.bound c = false ∨ bitOf (s.bind c).sleep 2 = true) →
      ∃ t, exec (.retainEntry c) s = .next t ∧ t.sleep c = 3 ∧ t.binsGranted c = 0 ∧ t.engGranted c = 0 ∧
        t.reserved c = 0 ∧ PantryKept s t ∧ RegsKept s t [sleepReg c, claimReg c]) ∧
    (∀ j : Fin 16, s.sleep (16 * r.val + j.val) = 3 → 16 * r.val + j.val ∉ s.waking →
      ∃ t, exec (.stgWake r (BitVec.ofNat 32 (2 ^ j.val))) s = .next t ∧
        t.waking = s.waking ++ [16 * r.val + j.val] ∧ RegsKept s t [] ∧ PantryKept s t)

/-- R458 to R463, R500: a failed converter lowers its segment's FEED limit to 250 W for each one that works; a failed
regulator is counted, the fifth caps its region, and the ninth takes it down and OUT. A segment that trips takes its
region down with SHORT, which SHORT_CLR clears for one attempt; a second trip within 1 s of that keeps it. -/
def Obligations.PowerFailuresCutRegions : Prop :=
  ∀ (r : RegionId) (s : State), s.Settled → s.stageOf r = 0 →
    let stat := Reg.STG_REG_STAT r
    (∀ n : Fin 64, sread (fun _ => false) s.power.convBad n.val = false →
      ∃ t, exec (.converterFail n) s = .next t ∧ t.converters (n.val / 4) + 1 = s.converters (n.val / 4) ∧ PantryKept s t ∧
        t.flag (Reg.STG_REG_STAT (n.val / 4)) Fl.STG_REG_STAT_REG_EVENT = true ∧
        (250000 * t.converters (n.val / 4) - sread (fun _ => 0) s.power.shares (n.val / 4), 4) ∈ t.limitsOf (n.val / 4)) ∧
    (∀ n : Fin 48, (s.rd (Reg.STG_REG_FAIL r)).toNat.testBit n.val = false →
      let f := s.fld stat Fl.STG_REG_STAT_FAILED + 1
      let counted := fun t : State => t.rd (Reg.STG_REG_FAIL r) = s.rd (Reg.STG_REG_FAIL r) ||| BitVec.ofNat 64 (2 ^ n.val) ∧
        t.fld stat Fl.STG_REG_STAT_FAILED = f ∧ t.flag stat Fl.STG_REG_STAT_REG_EVENT = true
      (f < 9 → ∃ t, exec (.regulatorFail r n) s = .next t ∧ counted t ∧ PantryKept s t ∧ t.inRun r = s.inRun r ∧
        (5 ≤ f → t.flag stat Fl.STG_REG_STAT_CAPPED = true)) ∧
      (9 ≤ f → f < 64 → s.inRun r = true → s.noSwingIn r → (∀ c, c / 16 = r.val → s.bound c = false) →
        ∃ t, exec (.regulatorFail r n) s = .next t ∧ counted t ∧ GoneDark t r ∧
          t.flag stat Fl.STG_REG_STAT_OUT = true ∧ t.fld (Reg.ARB_CAP r) Fl.ARB_CAP_REASON = 5)) ∧
    (s.inRun r = true → s.noSwingIn r → (∀ c, c / 16 = r.val → s.bound c = false) →
      ∃ t, exec (.segmentTrip r) s = .next t ∧ GoneDark t r ∧ t.flag stat Fl.STG_REG_STAT_SHORT = true ∧
        ∀ at', sread (fun _ => none) s.power.shortTry r.val = some at' → s.now - at' ≤ 4000000 →
          sread (fun _ => false) t.power.shortBar r.val = true) ∧
    (s.flag stat Fl.STG_REG_STAT_SHORT = true →
      (sread (fun _ => false) s.power.shortBar r.val = false →
        ∃ t, exec (.shortClr r 1) s = .next t ∧ t.flag stat Fl.STG_REG_STAT_SHORT = false ∧ RegsKept s t [stat] ∧
          PantryKept s t ∧ sread (fun _ => false) t.power.shortMay r.val = true) ∧
      (sread (fun _ => false) s.power.shortBar r.val = true →
        ∃ t, exec (.shortClr r 1) s = .next t ∧ t.flag stat Fl.STG_REG_STAT_SHORT = true ∧
          t.flag stat Fl.STG_REG_STAT_WRITE_REFUSED = true ∧ RegsKept s t [stat] ∧ PantryKept s t))

/-- R460, R483 to R485, R489, R491, R500: a core's droop monitors raise its skipping, an entry from none counting once, and it
steps down one level at a time. A region whose load passes its cap skips at the rate it needs, and the input limit makes every
region in Run skip 1 in 2. A phase record replaces its partition's, or with DURATION 0 cancels it, and counts from the next
sample on; LK_CTL switches the LK domains. -/
def Obligations.SkippingFollowsDroopAndCaps : Prop :=
  ∀ (s : State), s.biWant = [] →
    (∀ (c : CoreId) (lvl : Fin 4), s.droopOf c < lvl.val →
      let n := Reg.THR_DROOP (regionOf c) (c.val % 16)
      ∃ t, exec (.droopLevel c lvl) s = .next t ∧ t.droopOf c = lvl.val ∧ PantryKept s t ∧
        t.fld n Fl.THR_DROOP_COUNT = if s.droopOf c = 0 then min (s.fld n Fl.THR_DROOP_COUNT + 1) (2 ^ 32 - 1)
          else s.fld n Fl.THR_DROOP_COUNT) ∧
    (∀ c : CoreId, ∃ t, exec (.droopStepDown c) s = .next t ∧ t.droopOf c = s.droopOf c - 1 ∧ PantryKept s t) ∧
    (∀ r : RegionId, s.inRun r = true → s.ratesOk r →
      ∃ t, exec (.regionSkipReview r) s = .next t ∧ PantryKept s t ∧
        t.skipOf r skipCap = (
          let l := s.loadOf r + s.reservedIn r none
          if l ≤ s.capOf r then 0 else if l * 7 ≤ s.capOf r * 8 then 1 else if l * 3 ≤ s.capOf r * 4 then 2 else 3) ∧
        t.fld (Reg.ARB_SKIP r) Fl.ARB_SKIP_RATE = t.skipRate r) ∧
    (∃ t, exec .inputLimit s = .next t ∧ t.flag Reg.PWR_STAT Fl.PWR_STAT_INPUT_LIMIT = true ∧ PantryKept s t ∧
      ∀ r < 16, s.inRun r = true → s.ratesOk r → t.skipOf r skipInput = 3 ∧ t.fld (Reg.ARB_SKIP r) Fl.ARB_SKIP_RATE = 3) ∧
    (∀ (p : PartId) (d : Byte) (w : BitVec 16),
      ∃ t, exec (.phase (BitVec.ofNat 32 (p.val + 256 * d.toNat + 65536 * w.toNat))) s = .next t ∧
        sread (fun _ => (0, 0, false)) t.power.phases p.val = (if d = 0 then (0, 0, false) else (d.toNat, w.toNat, false)) ∧
        t.regs = s.regs ∧
        PantryKept s t) ∧
    (∀ v : Byte, (s.feedAOk || s.feedBOk) = true →
      (∀ n < 8, s.domainOn (16 + n) = true → v.toNat.testBit n = true) →
      ∃ t, exec (.lkCtl (v.setWidth 32)) s = .next t ∧ t.fld Reg.PWR_LK_CTL Fl.PWR_LK_CTL_ON = v.toNat ∧
        (∀ n < 8, t.domainOn (16 + n) = v.toNat.testBit n) ∧ PantryKept s t ∧
        let resets := fun o => ∃ n < 8, s.domainOn (16 + n) = false ∧ v.toNat.testBit n = true ∧
          ∃ i < 4, Reg.LNK_PORT_CTL (4 * n + i) ≤ o ∧ o < Reg.LNK_PORT_CTL (4 * n + i) + 0x40
        ∀ o, (resets o → t.rd o = resetOf o) ∧
          (¬resets o → o ≠ Reg.PWR_LK_CTL → o ≠ Reg.PWR_DOMAIN_STAT → t.rd o = s.rd o))

/-! ## Cooling -/

/-- R498, R505 to R508, R510 to R512, R515, R516, R528: a scan that completes is published; a telemetry sample publishes
feeds, coolant, the hottest valid diode of each region and the energy, and starts the next scans. A tray frame is checked
and used, one without a valid flow makes the link silent as 50 ms without a frame do. TRIP_CLR and SUSPECT_CLR clear their
bits only while the diodes allow it. -/
def Obligations.SamplesAndFramesArePublished : Prop :=
  ∀ (s : State), s.biWant = [] →
    (∀ (r : RegionId) (scan : List (Nat × Nat × Nat)), s.flag (Reg.CNV_STAT r) Fl.CNV_STAT_BUSY = true →
      (∀ x ∈ scan, x.1 < 2 ^ 32 ∧ x.2.1 < 2 ^ 12 ∧ x.2.2 < 2 ^ 12) →
      ∃ t, exec (.scanComplete r scan) s = .next t ∧ t.flag (Reg.CNV_STAT r) Fl.CNV_STAT_BUSY = false ∧ OnlyRegs s t ∧
        t.fld (Reg.CNV_STAT r) Fl.CNV_STAT_SCAN_SEQ = (s.fld (Reg.CNV_STAT r) Fl.CNV_STAT_SCAN_SEQ + 1) % 2 ^ 16 ∧
        ∀ ch < 32,
          let n := s.listCount r ch
          let x := if n = 0 then (0, 0, 0) else scan.getD ch (0, 0, 0)
          t.fld (Reg.CNV_ACC r ch) Fl.CNV_ACC_SUM = x.1 ∧ t.fld (Reg.CNV_ACC_W1 r ch) Fl.CNV_ACC_W1_COUNT = n % 2 ^ 16 ∧
            t.fld (Reg.CNV_ACC_W2 r ch) Fl.CNV_ACC_W2_MIN = x.2.1 ∧ t.fld (Reg.CNV_ACC_W2 r ch) Fl.CNV_ACC_W2_MAX = x.2.2) ∧
    (∀ x : Sample, s.sec.ready = true → s.power.outHist.length < 109 → x.feedA.1 < 2 ^ 16 → x.feedB.2 < 2 ^ 16 →
      ∃ t, exec (.telemetrySample x) s = .next t ∧ PantryKept s t ∧
        t.fld Reg.PWR_FEED_A Fl.PWR_FEED_A_VOLTS = x.feedA.1 ∧ t.fld Reg.PWR_FEED_B Fl.PWR_FEED_A_AMPS = x.feedB.2 ∧
        t.fld Reg.PWR_TEL_SEQ Fl.PWR_TEL_SEQ_SEQ = (s.fld Reg.PWR_TEL_SEQ Fl.PWR_TEL_SEQ_SEQ + 1) % 2 ^ 32 ∧
        t.rd Reg.PWR_ENERGY = s.rd Reg.PWR_ENERGY + BitVec.ofNat 64 (inputEnergy x) ∧
        t.fld Reg.THM_COOLANT Fl.THM_COOLANT_OUTLET = signed16 x.outlet ∧
        t.fld Reg.THM_COOLANT Fl.THM_COOLANT_INLET = signed16 (if s.flag Reg.THM_STAT Fl.THM_STAT_TRAY_SILENT then x.inlet
          else max x.inlet (s.sfld Reg.THM_TRAY Fl.THM_TRAY_INLET)) ∧
        ∀ r < 16, t.flag (Reg.CNV_STAT r) Fl.CNV_STAT_BUSY = true ∧
          ∀ k, s.regionTemp r = some k → t.fld (Reg.THM_REGION r) Fl.THM_REGION_THETA = signed16 k) ∧
    (∀ bs : List Byte, bs.length = 12 → leAt bs 0 1 = 0xA5 →
      (crc16 (bytesAt bs 0 10) ≠ leAt bs 10 2 →
        ∃ t, exec (.trayFrame bs) s = .next t ∧ RegsKept s t [Reg.THM_TRAY_STAT] ∧ OnlyRegs s t ∧
          t.fld Reg.THM_TRAY_STAT Fl.THM_TRAY_STAT_FRAMES_BAD =
            min (s.fld Reg.THM_TRAY_STAT Fl.THM_TRAY_STAT_FRAMES_BAD + 1) 65535) ∧
      (crc16 (bytesAt bs 0 10) = leAt bs 10 2 →
        let used := fun t : State => t.fld Reg.THM_TRAY Fl.THM_TRAY_INLET = leAt bs 2 2 ∧
          t.fld Reg.THM_TRAY Fl.THM_TRAY_OUTLET = leAt bs 4 2 ∧
          t.fld Reg.THM_TRAY_STAT Fl.THM_TRAY_STAT_LAST_SEQ = leAt bs 1 1 ∧ PantryKept s t
        (bitOf (leAt bs 8 1) 0 = true →
          s.fld Reg.THM_FLOW_CFG Fl.THM_FLOW_CFG_STOP_PCT * s.power.flowSet ≤ 100 * leAt bs 6 2 →
          ∃ t, exec (.trayFrame bs) s = .next t ∧ used t ∧ t.power.trayFlow = some (leAt bs 6 2) ∧
            t.flag Reg.THM_STAT Fl.THM_STAT_TRAY_SILENT = false) ∧
        (bitOf (leAt bs 8 1) 0 = false →
          ∃ t, exec (.trayFrame bs) s = .next t ∧ used t ∧ t.power.trayFlow = none ∧
            t.flag Reg.THM_STAT Fl.THM_STAT_TRAY_SILENT = true))) ∧
    (s.flag Reg.THM_STAT Fl.THM_STAT_TRAY_SILENT = false →
      ∃ t, exec .traySilence s = .next t ∧ t.flag Reg.THM_STAT Fl.THM_STAT_TRAY_SILENT = true ∧
        t.flag Reg.THM_STAT Fl.THM_STAT_TRAY_EVENT = true ∧ t.alertN = true ∧ t.power.trayFlow = none ∧
        RegsKept s t [Reg.THM_STAT] ∧ PantryKept s t) ∧
    (∀ r : RegionId,
      let v := BitVec.ofNat 32 (2 ^ r.val)
      let w := Reg.THM_REGION_W3 r
      ∀ e ∈ [(Instr.tripClr v, Fl.THM_REGION_W3_TRIP,
            (sread (fun _ => none) s.power.hottest r).all fun (k : Int) => decide (k < 9500)),
          (.suspectClr v, Fl.THM_REGION_W3_SUSPECT, (List.range 8).all fun k => decide (0 < (s.pairCount r k).below))],
        (e.2.2 = true → ∃ t, exec e.1 s = .next t ∧ t.fld w e.2.1 = 0 ∧ RegsKept s t [w] ∧ OnlyRegs s t) ∧
        (e.2.2 = false → ∃ t, exec e.1 s = .next t ∧ t.flag Reg.THM_STAT Fl.THM_STAT_WRITE_REFUSED = true ∧
          RegsKept s t [Reg.THM_STAT] ∧ OnlyRegs s t))

/-- R521 to R524, R526 to R529: in a module with no partition loaded, a flow stop raises its alert, stops the curtain sequence
and makes every region in Run skip 1 in 2; flow that returns good ends that, but for regions of a partition that is stopped on
another member. After STOP_DARK the regions in Run go Dark one by one in reverse curtain order, though flow returns meanwhile.
A diode at 115 °C cuts its region at once and bars it. -/
def Obligations.FlowStopsAndTripsCutRegions : Prop :=
  ∀ (s : State), s.Settled → s.noRequests →
    (s.flowState = flowNormal → s.parts = [] →
      ∃ t, exec .flowStop s = .next t ∧ t.flowState = flowStopped ∧ t.flag Reg.THM_STAT Fl.THM_STAT_FLOW_EVENT = true ∧
        t.alertN = true ∧ t.power.flowPin = false ∧ t.curtainBusy = false ∧
        (∀ r < 16, s.inRun r = true → s.stageOf r = 0 → t.inRun r = true) ∧
        ∀ r < 16, t.inRun r = true → t.skipOf r skipFlow = 3) ∧
    (s.flowState ≠ flowNormal → s.flowGood = true → s.claimQ = [] → s.refreshQ = [] → s.inst = none →
      ∃ t, exec .flowRestore s = .next t ∧ t.flowState = flowNormal ∧ t.power.flowPin = true ∧ PantryKept s t ∧
        ∀ r < 16, t.skipOf r skipFlow = if s.flowHeld r then s.skipOf r skipFlow else 0) ∧
    (∀ r, (s.reverseOrder 0xFFFF).find? s.inRun = some r → s.flowState = flowStopped → s.ctxs = [] → s.slots = [] →
      ∃ t, exec .stopDarkExpire s = .next t ∧ t.flowState = flowDarked ∧ GoneDark t r ∧
        t.power.flowDark = ((s.reverseOrder 0xFFFF).filter s.inRun).filter fun q => q != r) ∧
    (∀ r, s.power.flowDark.find? s.inRun = some r →
      ∃ t, exec .flowDarkStep s = .next t ∧ t.flowState = s.flowState ∧ GoneDark t r ∧
        t.power.flowDark = s.power.flowDark.filter fun q => q != r) ∧
    (∀ r : RegionId, s.flag (Reg.THM_REGION_W3 r) Fl.THM_REGION_W3_TRIP = false → s.inRun r = true → s.stageOf r = 0 →
      s.noSwingIn r → (∀ c, c / 16 = r.val → s.bound c = false) →
      ∃ t, exec (.hardwareTrip r) s = .next t ∧ GoneDark t r ∧ t.slotBarred r = true ∧ t.alertN = true ∧
        t.flag (Reg.THM_REGION_W3 r) Fl.THM_REGION_W3_TRIP = true ∧
        t.fld Reg.THM_TRIPS Fl.THM_TRIPS_COUNT = min (s.fld Reg.THM_TRIPS Fl.THM_TRIPS_COUNT + 1) (2 ^ 32 - 1))

/-- R495 to R497: each module reports a partition that spans modules to its lead, which keeps its own report; the lead gives
the module with the longest busy time 100 W, or what is offered, from one at least 5 % shorter; a GRANT shifts the budget
within SHIFT_MAX_W; and a shift not renewed for 10 ms lapses. -/
def Obligations.PowerShiftsBetweenModules : Prop :=
  ∀ (p : PartId) (q : PartRec) (s : State), s.part p = some q → 1 < q.modules.length → s.loaded p = true →
    let me := s.module
    let limit := s.fld Reg.PWR_SLACK_CTL Fl.PWR_SLACK_CTL_SHIFT_MAX_W
    (s.flag Reg.PWR_SLACK_CTL Fl.PWR_SLACK_CTL_EN = true → s.sec.ready = true → (∀ k < 16, k ≠ p.val → s.part k = none) →
      let k := s.slackOf
      (q.lead = me → ∃ t, exec .slackReport s = .next t ∧ t.regs = s.regs ∧ PantryKept s t ∧
        t.power.slackReps = (s.power.slackReps.filter fun x => !(x.part == p.val && x.src == me)) ++
          [⟨p, me, s.busyTime p, k.1, k.2⟩]) ∧
      ∀ n, q.lead ≠ me → s.promptPort p q.lead 256 = some n → s.portUp n = true →
        ∃ t f, exec .slackReport s = .next t ∧ PantryKept s t ∧ f ∈ (t.port n).queued ++ (t.port n).unacked ∧
          t.power.slackSeq = (s.power.slackSeq + 1) % 2 ^ 32 ∧ f.type = 3 ∧
          f.payload = leBytes 1 0 ++ leBytes 1 p.val ++ leBytes 1 me ++ leBytes 1 q.lead ++ leBytes 4 s.power.slackSeq ++
            leBytes 2 (s.busyTime p) ++ leBytes 2 k.1 ++ leBytes 2 k.2 ++ [0, 0]) ∧
    (∀ a b : SlackRep, q.lead = me → s.slackIn = [] → s.power.slackReps = [a, b] → a.part = p → b.part = p → a.src = me →
      b.src ≠ me → 0 < a.busy → a.busy < 65536 → 100 * b.busy ≤ 95 * a.busy → 0 < b.offer → s.power.shifts = [] →
      0 < limit →
      ∃ t, exec .slackRanking s = .next t ∧ t.power.slackReps = [] ∧ PantryKept s t ∧
        t.power.shifts = [⟨p, b.src, (min (min 100 b.offer) limit : Nat), s.now⟩] ∧
        t.fld Reg.PWR_SLACK_STAT Fl.PWR_SLACK_STAT_IN_W = min (min 100 b.offer) limit) ∧
    (∀ (n : Nat) (bs : List Byte), s.slackIn = [(n, bs)] → leAt bs 0 1 = 1 → leAt bs 1 1 = p.val → s.partState p ≠ 5 →
      s.power.shifts = [] → 0 < limit →
      let w := intOf 16 (leAt bs 10 2)
      w ≠ 0 →
      ∃ t x, exec .slackGrant s = .next t ∧ t.slackIn = [] ∧ t.power.shifts = [x] ∧ x.part = p.val ∧ x.since = s.now ∧
        x.watts = (if 0 < w then (min w.toNat limit : Int) else -(min w.natAbs limit : Int)) ∧
        RegsKept s t [Reg.PWR_SLACK_STAT] ∧ PantryKept s t) ∧
    ∃ t, exec .shiftLapse s = .next t ∧ RegsKept s t [Reg.PWR_SLACK_STAT] ∧ PantryKept s t ∧
      ∀ x, x ∈ t.power.shifts ↔ x ∈ s.power.shifts ∧ s.now < x.since + 40000

/-! ## The fabric -/

/-- R210, R411, R414, R415, R417, R418, R450, R570: a message leaves at its destination, where a sleeping core answers ASLEEP,
or the lower code where PARTITION or BAD_ADDRESS applies too (R237), and an ingress stage that holds four messages takes no
more for now (R179); CORE.TX_COUNT counts a message as its egress stage sends it (R225); else the first entry that matches
steers it, by its detour on channel 1 where the port is unusable, and without an entry it ends UNREACHABLE; an entry steers a
completion back to its sender in the same way, and one that none steers ends UNREACHABLE there. A message behind another of
its flow, or at a router in Dark, waits (R474). FMAP_CTL marks an element and removes an in-service mark, not a fused one; a
link past its retries is marked and recorded; a rewrite of routes leaves channel 0 and PROMPT entries, and adds none that
turns against R413 or fills a router past 512 (R412). -/
def Obligations.MessagesAreSteeredAndElementsMarked : Prop :=
  ∀ (s : State), s.biWant = [] →
    (∀ (id : Nat) (m : NetMsg), s.findNet id = some m → m.stage = .held ∨ m.stage = .moving → m.dstModule = s.module →
      m.orgModule = s.module → m.orgCore < 256 → m.kind ≠ .completion →
      let count := if m.stage = .held then [Reg.CORE_TX_COUNT m.orgCore] else []
      let sent := fun t : State => m.stage = .held →
        t.rd (Reg.CORE_TX_COUNT m.orgCore) = s.rd (Reg.CORE_TX_COUNT m.orgCore) + 1
      let ends := fun (t : State) (x : NetMsg) => exec (.meshRoute id) s = .next t ∧ t.findNet id = some x ∧ PantryKept s t
      let failed := { m with stage := .answered, status := stUnreachable, data := [], bad := [], vc := 0, hop := 0 }
      (s.inDark m.router = true ∨ s.flowFirst m = false → exec (.meshRoute id) s = .next s) ∧
      (s.inDark m.router = false → s.flowFirst m = true →
      (m.router = m.dstCore → (3 ≤ s.sleep m.dstCore ∨ s.ingress m.dstCore < 4) → ∃ t, RegsKept s t count ∧ sent t ∧
        ends t (if 3 ≤ s.sleep m.dstCore then
            { m with
              stage := .answered
              status := if s.samePart m = false then stPartition else if s.badAddress m then stBadAddress else stAsleep
              data := []
              bad := []
              vc := 0
              hop := 0 }
          else { m with stage := .arrived })) ∧
      (m.router = m.dstCore → s.sleep m.dstCore < 3 → 4 ≤ s.ingress m.dstCore → exec (.meshRoute id) s = .next s) ∧
      (m.router ≠ m.dstCore →
        (s.routeOf m.router m.orgPart m.vc m.dstModule m.dstCore = none → ∃ t, ends t failed ∧
          t.fld Reg.FAB_UNREACH Fl.FAB_UNREACH_COUNT = min (s.fld Reg.FAB_UNREACH Fl.FAB_UNREACH_COUNT + 1) (2 ^ 32 - 1)) ∧
        ∀ r, s.routeOf m.router m.orgPart m.vc m.dstModule m.dstCore = some r →
          (∀ k, s.hopBy m.router r.port r.index m.dstCore true = .router k →
            ∃ t, ends t { m with router := k, stage := .moving } ∧ RegsKept s t count ∧ sent t) ∧
          (s.hopBy m.router r.port r.index m.dstCore true = .bad →
            (m.vc = 1 ∨ r.alt = 0xFF → ∃ t, ends t failed) ∧
            ∀ k, m.vc ≠ 1 → r.alt ≠ 0xFF → s.hopBy m.router r.alt r.index m.dstCore true = .router k →
              ∃ t, ends t { m with router := k, vc := 1, stage := .moving } ∧
                t.fld Reg.FAB_DETOURS Fl.FAB_DETOURS_COUNT =
                  min (s.fld Reg.FAB_DETOURS Fl.FAB_DETOURS_COUNT + 1) (2 ^ 32 - 1))))) ∧
    (∀ (id : Nat) (m : NetMsg), s.findNet id = some m → m.stage = .answered → s.inDark m.router = false →
      s.flowFirst m = true →
      let ends := fun (t : State) (x : NetMsg) => exec (.meshRoute id) s = .next t ∧ t.findNet id = some x ∧ PantryKept s t
      let lost := fun t : State =>
        ends t { m with status := stUnreachable, data := [], bad := [], router := m.orgCore } ∧
          t.fld Reg.FAB_UNREACH Fl.FAB_UNREACH_COUNT = (if m.status = stUnreachable then
            s.fld Reg.FAB_UNREACH Fl.FAB_UNREACH_COUNT
          else min (s.fld Reg.FAB_UNREACH Fl.FAB_UNREACH_COUNT + 1) (2 ^ 32 - 1))
      (m.router ≠ m.orgCore → s.backRoute m = none → ∃ t, exec (.meshRoute id) s = .next t ∧ lost t) ∧
      ∀ r, s.backRoute m = some r →
        (∀ k, s.hopBy m.router r.port r.index m.orgCore true = .router k →
          ∃ t, ends t { m with router := k } ∧ RegsKept s t []) ∧
        (s.hopBy m.router r.port r.index m.orgCore true = .bad →
          (m.vc = 1 ∨ r.alt = 0xFF → ∃ t, exec (.meshRoute id) s = .next t ∧ lost t) ∧
          ∀ k, m.vc ≠ 1 → r.alt ≠ 0xFF → s.hopBy m.router r.alt r.index m.orgCore true = .router k →
            ∃ t, ends t { m with router := k, vc := 1 } ∧
              t.fld Reg.FAB_DETOURS Fl.FAB_DETOURS_COUNT =
                min (s.fld Reg.FAB_DETOURS Fl.FAB_DETOURS_COUNT + 1) (2 ^ 32 - 1))) ∧
    (∀ kind i : Nat, markOk kind i = true →
      let v := i + 2 ^ 13 * kind + 2 ^ 31
      let next := (s.fld Reg.FAB_FMAP_SEQ Fl.FAB_FMAP_SEQ_SEQ + 1) % 2 ^ 32
      (s.marked kind i = false → ∃ t, exec (.fmapMark (BitVec.ofNat 32 v)) s = .next t ∧ t.marked kind i = true ∧
        t.fld Reg.FAB_FMAP_SEQ Fl.FAB_FMAP_SEQ_SEQ = next ∧ PantryKept s t) ∧
      (s.marked kind i = true → ∃ t, exec (.fmapUnmark (BitVec.ofNat 32 (v + 2 ^ 16))) s = .next t ∧ PantryKept s t ∧
        if fusedMark kind i then
          RegsKept s t [Reg.FAB_STAT] ∧ OnlyRegs s t ∧ t.flag Reg.FAB_STAT Fl.FAB_STAT_WRITE_REFUSED = true
        else t.marked kind i = false ∧ t.fld Reg.FAB_FMAP_SEQ Fl.FAB_FMAP_SEQ_SEQ = next)) ∧
    (∀ (c : CoreId) (south : Bool),
      let kind := if south then 2 else 1
      markOk kind c = true → s.marked kind c = false →
      ∃ t, exec (.meshLinkBad c south) s = .next t ∧ t.marked kind c = true ∧ PantryKept s t ∧
        s.logged t 0x47 (.core c) (s.partField c) outLogged 0) ∧
    ∃ t, exec .routeRewrite s = .next t ∧ t.regs = s.regs ∧ PantryKept s t ∧
      (∀ r ∈ s.routes, r.prompt = true ∨ r.vc ≠ 1 → r ∈ t.routes) ∧
      ∀ r ∈ t.routes, r ∈ s.routes ∨ (r.vc = 1 ∧ r.prompt = false ∧
        (∀ a ∈ t.routes, a.prompt = false → a.badInto s.module r = false) ∧
        (t.routes.filter fun q => !q.prompt && q.router == r.router).length ≤ 512)

/-- R422, R426 to R428, R443 to R448: the lead of a partition that spans modules sends beats and takes the answers, a member
answers; without them, and only then, a partition freezes, its cores halted and its passes discarded; once every member
answers again it resumes, or under HOLD waits for SPLIT_GO. Management frames are checked, end SAFE, and are repeated at most
three times and found broken; a silent stagehand's region goes to SAFE, and its FAULT message is recorded. -/
def Obligations.PartitionsBeatFreezeAndResume : Prop :=
  ∀ (s : State), s.biWant = [] →
    (∀ (p : PartId) (q : PartRec), s.part p = some q → 1 < q.modules.length → s.loaded p = true →
      let n := if s.beatOf p + 1 = 2 ^ 32 then 1 else s.beatOf p + 1
      (∀ mod port, q.lead = s.module → 3 ≤ s.partState p → s.otherMembers p = [mod] →
        s.promptPort p mod nodeHost = some port → s.portUp port = true →
        ∃ t, exec (.partBeatTimer p) s = .next t ∧ t.beatOf p = n ∧ PantryKept s t ∧
          t.carries port ⟨0, nodeHost, mod, nodeHost, s.module, 0, 0, .partBeat p n false⟩) ∧
      (∀ id m k port, s.findPn id = some m → m.body = .partBeat p k false → m.srcModule ≠ s.module →
        s.blk.flowParts.contains p.val = false → s.promptPort p m.srcModule nodeHost = some port → s.portUp port = true →
        ∃ t, exec (.partBeat id) s = .next t ∧ PantryKept s t ∧ t.partState p = s.partState p ∧
          t.carries port ⟨0, nodeHost, m.srcModule, nodeHost, s.module, m.tag, 0, .partAck p k⟩) ∧
      (s.beatLost p = false → exec (.partitionFreeze p) s = .next s) ∧
      (s.noRequests → s.partState p = 3 → s.beatLost p = true →
        ∃ t, exec (.partitionFreeze p) s = .next t ∧ t.partState p = 5 ∧ (∀ x ∈ t.passes, x.part ≠ p.val) ∧
          (∀ c ∈ s.coresIn p, t.seq c ≠ seqRun ∧ t.seq c ≠ seqWait ∧ t.binsGranted c = 0) ∧
          (∀ x ∈ t.power.shifts, x.part ≠ p.val) ∧
          t.fld Reg.LNK_FREEZES Fl.LNK_FREEZES_COUNT = min (s.fld Reg.LNK_FREEZES Fl.LNK_FREEZES_COUNT + 1) (2 ^ 32 - 1)) ∧
      (s.noRequests → s.ctxs = [] → s.partState p = 5 → s.silentMember p = false → s.blk.degraded = [] →
        let held := (s.fld Reg.LNK_SPLIT_CTL Fl.LNK_SPLIT_CTL_HOLD).testBit p
        let ready := fun t : State => (t.fld Reg.LNK_SPLIT_STAT Fl.LNK_SPLIT_STAT_READY).testBit p
        let resumed := fun t : State => t.partState p = 3 ∧ PantryKept s t ∧ ready t = false ∧
          ∀ k m b, s.imageIn p = some (k, m, b) → ∀ c ∈ s.coresIn p, (codeOf m.secs (s.bind c).role).isSome = true →
            s.sleep c < 3 → s.seq c = seqHalted → s.fatal = false → t.seq c = seqRun
        (q.lead = s.module → held = false → ∃ t, exec (.partitionResume p) s = .next t ∧ resumed t) ∧
        (q.lead = s.module → held = true → ∃ t, exec (.partitionResume p) s = .next t ∧ ready t = true ∧
          RegsKept s t [Reg.LNK_SPLIT_STAT] ∧ OnlyRegs s t) ∧
        (ready s = true → ∃ t, exec (.splitGo (BitVec.ofNat 32 (2 ^ p.val))) s = .next t ∧ resumed t)) ∧
      (s.partState p ≠ 5 → ∃ t, exec (.splitGo (BitVec.ofNat 32 (2 ^ p.val))) s = .next t ∧ OnlyRegs s t ∧
        t.flag Reg.LNK_SPLIT_STAT Fl.LNK_SPLIT_STAT_WRITE_REFUSED = true ∧ RegsKept s t [Reg.LNK_SPLIT_STAT])) ∧
    (∀ id m p n, s.findPn id = some m → m.body = .partAck p n → s.blk.flowParts.contains p = false →
      ∃ t, exec (.partAck id) s = .next t ∧ t.ackOf p m.srcModule = n ∧ t.pn = s.pn.filter (fun k => k.id != id) ∧
        PantryKept s t) ∧
    (∀ (r : RegionId) id m core, s.findPn id = some m → m.body = .fault core 0x4C → m.dest = nodeHost →
      m.src = nodeStagehand r →
      ∃ t, exec (.fault id) s = .next t ∧ s.logged t 0x4C (.region r) none outLogged 0 ∧ PantryKept s t) ∧
    (∀ f : DWord,
      let bs := (List.range 7).map fun i => BitVec.ofNat 8 (f.toNat / 2 ^ (8 * i))
      (crc8 bs ≠ bitsOf f.toNat 56 8 → ∃ t, exec (.mgmtFrame f) s = .next t ∧ OnlyRegs s t ∧
        RegsKept s t [Reg.FAB_MGMT_CRC, Reg.FAB_STAT] ∧ t.flag Reg.FAB_STAT Fl.FAB_STAT_MGMT_CRC_SEEN = true ∧
        t.fld Reg.FAB_MGMT_CRC Fl.FAB_MGMT_CRC_COUNT =
          min (s.fld Reg.FAB_MGMT_CRC Fl.FAB_MGMT_CRC_COUNT + 1) (2 ^ 32 - 1)) ∧
      ∀ r : RegionId, crc8 bs = bitsOf f.toNat 56 8 → bitsOf f.toNat 8 8 = 0 → bitsOf f.toNat 0 8 = r.val + 1 →
        s.safeRegions.testBit r = true → s.claimQ = [] →
        ∃ t, exec (.mgmtFrame f) s = .next t ∧ t.safeRegions.testBit r = false ∧ t.skipOf r skipSafe = 0 ∧
          t.flag (Reg.STG_REG_STAT r) Fl.STG_REG_STAT_SAFE = false ∧
          t.flag Reg.FAB_STAT Fl.FAB_STAT_MGMT_BREAK = false ∧ PantryKept s t) ∧
    (s.sec.mgmtTries < 3 → ∃ t, exec .mgmtRetry s = .next t ∧ t.sec.mgmtTries = s.sec.mgmtTries + 1 ∧
      t.fld Reg.FAB_MGMT_RETRY Fl.FAB_MGMT_RETRY_COUNT =
        min (s.fld Reg.FAB_MGMT_RETRY Fl.FAB_MGMT_RETRY_COUNT + 1) (2 ^ 32 - 1) ∧
      RegsKept s t [Reg.FAB_MGMT_RETRY] ∧ PantryKept s t) ∧
    (3 ≤ s.sec.mgmtTries → exec .mgmtRetry s = .next { s with sec.mgmtTries := 0 }) ∧
    (s.flag Reg.FAB_STAT Fl.FAB_STAT_MGMT_BREAK = false → ∃ t, exec .mgmtBreak s = .next t ∧
      t.flag Reg.FAB_STAT Fl.FAB_STAT_MGMT_BREAK = true ∧ s.logged t 0x4B .module none outLogged 0 ∧ PantryKept s t) ∧
    ∀ r : RegionId, s.safeRegions.testBit r = false → s.claimQ = [] →
      ∃ t, exec (.stagehandSafe r) s = .next t ∧ t.safeRegions.testBit r = true ∧ t.skipOf r skipSafe = 3 ∧
        t.minRation r = true ∧ PantryKept s t ∧
        t.pn = s.pn ++ [⟨s.nextId, nodeHost, s.module, nodeStagehand r, s.module, 0, 0, .fault (16 * r.val) 0x4C⟩]

/-- R429 to R437, R452: ENABLE, RETRAIN and the retrain timer train a port, and training ends UP at the locked width, DOWN, or
REFUSED for a peer of another system. A good flit acknowledges and frees; the next numbered one in order is accepted and
delivered, unless it is for a reserved node (R421), another one answered with a NAK, a bad one counted. LINK flits carry the
peer's identity. A port that is UP sends IDLE flits, and one that goes DOWN ends the messages that it carried. -/
def Obligations.PortsTrainAndCarryFlits : Prop :=
  ∀ (p : PortId) (s : State), s.biWant = [] →
    let n := p.val
    let x := s.port n
    let st := Reg.LNK_PORT_STAT n
    let enabled := fun t : State => t.flag (Reg.LNK_PORT_CTL n) Fl.LNK_PORT_CTL_ENABLE
    let trains := fun (i : Instr) => ∃ t bs, exec i s = .next t ∧ t.portState n = 2 ∧ enabled t = true ∧
      OutMsg.flit n bs ∈ t.outbox ∧ leAt bs 0 1 = 4 ∧ PantryKept s t
    (s.fwReady = true → s.lkOn n = true →
      (s.portState n = 0 ∨ s.portState n = 4 → trains (.portEnable p)) ∧
      (enabled s = true → s.portState n = 3 ∨ s.portState n = 4 → trains (.retrain p)) ∧
      (enabled s = true → ∃ t, exec (.portDisable p) s = .next t ∧ t.portState n = 0 ∧ enabled t = false ∧
        t.fld st Fl.LNK_PORT_STAT_REASON = 5 ∧ PantryKept s t)) ∧
    (s.portState n = 1 → enabled s = true → s.lkOn n = true → trains (.retrainTimer p)) ∧
    (∀ sys md pt rev, s.portState n = 2 → x.peer = some (sys, md, pt, rev) → md < 64 → pt < 32 →
      let w := (Config.lockedWidth s.fresh n).toNat
      ∃ t, exec (.trainingComplete p) s = .next t ∧ PantryKept s t ∧
        (w = 0 → t.fld st Fl.LNK_PORT_STAT_REASON = 7 ∧ t.portState n = if enabled s then 1 else 0) ∧
        (w ≠ 0 → sys ≠ (s.rd Reg.LNK_SYSTEM_ID).toNat → t.portState n = 4 ∧ t.fld st Fl.LNK_PORT_STAT_REASON = 8) ∧
        (w ≠ 0 → sys = (s.rd Reg.LNK_SYSTEM_ID).toNat → md = s.module →
          t.portState n = 4 ∧ t.fld st Fl.LNK_PORT_STAT_REASON = 9) ∧
        (w ≠ 0 → sys = (s.rd Reg.LNK_SYSTEM_ID).toNat → md ≠ s.module →
          t.portState n = 3 ∧ t.fld st Fl.LNK_PORT_STAT_WIDTH = w ∧ t.fld (Reg.LNK_PEER n) Fl.LNK_PEER_MODULE = md ∧
            t.fld (Reg.LNK_PEER n) Fl.LNK_PEER_PORT = pt)) ∧
    (s.portUp n = true → ∀ i ∈ [Instr.idleFlitTimer p, .ackTimer p],
      ∃ t bs, exec i s = .next t ∧ t.outbox = s.outbox ++ [.flit n bs] ∧ bs.length = 256 ∧ leAt bs 0 1 = 0 ∧
        leAt bs 4 2 = x.rxSeq % 4096 ∧ t.regs = s.regs ∧ PantryKept s t) ∧
    (s.portUp n = true → ∃ t, exec (.portSilence p) s = .next t ∧ t.portState n = (if enabled s then 1 else 0) ∧
      t.fld st Fl.LNK_PORT_STAT_REASON = 1 ∧ (t.port n).unacked = [] ∧ (t.port n).queued = [] ∧ PantryKept s t ∧
      ∀ f id m, x.unacked ++ x.queued = [f] → f.msg = some id → f.last = true → s.findNet id = some m → m.stage = .away →
        m.orgModule = s.module → m.kind ≠ .completion →
        t.findNet id = some
          { m with stage := .answered, status := stUnreachable, data := [], bad := [], vc := 0, hop := 0 }) ∧
    (∀ bs, s.Arrives n 0 bs → ∃ t, exec (.flitIdle p bs) s = .next t ∧ RegsKept s t [Reg.LNK_FEC_CE n] ∧ t.outbox = s.outbox ∧
      PantryKept s t ∧ (t.port n).unacked = x.unacked.filter (fun f =>
        decide ((f.seq + 4096 - leAt bs 4 2 % 4096) % 4096 ≤ 2048) && f.seq != leAt bs 4 2 % 4096)) ∧
    (∀ bs, flitGood bs = false → x.naks = [] → s.portUp n = true →
      ∀ i ∈ [Instr.flitData p bs, .flitPrompt p bs, .flitSlack p bs, .flitIdle p bs, .flitLink p bs],
      ∃ t f, exec i s = .next t ∧ t.outbox = s.outbox ++ [.flit n f] ∧ bitOf (leAt f 4 2) 15 = true ∧ PantryKept s t ∧
        t.fld (Reg.LNK_CRC_ERR n) Fl.LNK_CRC_ERR_COUNT =
          min (s.fld (Reg.LNK_CRC_ERR n) Fl.LNK_CRC_ERR_COUNT + 1) (2 ^ 32 - 1)) ∧
    (∀ bs, ∀ e ∈ [(1, Instr.flitData p bs), (2, .flitPrompt p bs), (3, .flitSlack p bs)], s.Arrives n e.1 bs → x.naks = [] →
      ¬ s.inOrder n bs → ∃ t f, exec e.2 s = .next t ∧ t.outbox = s.outbox ++ [.flit n f] ∧
        bitOf (leAt f 4 2) 15 = true ∧ (t.port n).rxSeq = x.rxSeq ∧ RegsKept s t [Reg.LNK_FEC_CE n] ∧ PantryKept s t) ∧
    (let accepted := fun (t : State) (bs : List Byte) => PantryKept s t ∧ (t.port n).rxSeq = leAt bs 2 2 % 4096 ∧
       t.rd (Reg.LNK_RX_FLITS n) = s.rd (Reg.LNK_RX_FLITS n) + 1
     (∀ bs, s.Arrives n 1 bs → s.inOrder n bs → bitOf (leAt bs 1 1) 0 = true → bitOf (leAt bs 1 1) 1 = true →
       ∃ t, exec (.flitData p bs) s = .next t ∧
         ∀ w, Config.wireMsg (payloadOf bs) = some w → w.kind ≤ 1 → w.dstModule = s.module →
           accepted t bs ∧ ∃ m, t.net = s.net ++ [m] ∧ m.id = s.nextId ∧ m.kind = (if w.kind = 0 then .put else .get) ∧
             m.orgModule = w.orgModule ∧ m.orgCore = w.orgCore ∧ m.tag = w.tag ∧ m.dstCore = s.stand w.dstCore ∧
             m.data = w.data ∧ m.stage = .moving) ∧
     (∀ bs a b body, s.Arrives n 2 bs → s.inOrder n bs → (payloadOf bs).length = 8 + 4 * bitsOf a 6 3 →
       leAt (payloadOf bs) 0 4 = a → leAt (payloadOf bs) 4 4 = b →
       bodyOf (a % 64) ((List.range (bitsOf a 6 3)).map fun i => leAt (payloadOf bs) (8 + 4 * i) 4) = some body →
       bitsOf a 19 6 = s.module →
       (bitsOf a 9 10 ≤ 273 → ∃ t m, exec (.flitPrompt p bs) s = .next t ∧ accepted t bs ∧ t.pn = s.pn ++ [m] ∧
         m.id = s.nextId ∧ m.dest = (if bitsOf a 9 10 < 256 then s.stand (bitsOf a 9 10) else bitsOf a 9 10) ∧
         m.src = bitsOf b 0 10 ∧ m.srcModule = bitsOf b 10 6 ∧ m.tag = bitsOf b 16 16 ∧ m.body = body) ∧
       (273 < bitsOf a 9 10 → ∃ t, exec (.flitPrompt p bs) s = .next t ∧ accepted t bs ∧ t.pn = s.pn ∧
         t.fld Reg.FAB_PN_DROPPED Fl.FAB_PN_DROPPED_COUNT =
           min (s.fld Reg.FAB_PN_DROPPED Fl.FAB_PN_DROPPED_COUNT + 1) (2 ^ 32 - 1))) ∧
     ∀ bs, s.Arrives n 3 bs → s.inOrder n bs → leAt (payloadOf bs) 3 1 = s.module →
       ∃ t, exec (.flitSlack p bs) s = .next t ∧ accepted t bs ∧ t.slackIn = s.slackIn ++ [(n, payloadOf bs)]) ∧
    (∀ bs, flitGood bs = true → leAt bs 0 1 = 4 →
      let id := (leAt bs 12 8, leAt bs 20 1, leAt bs 21 1, leAt bs 22 4)
      (s.portState n = 2 → ∃ t, exec (.flitLink p bs) s = .next t ∧ (t.port n).peer = some id ∧
        RegsKept s t [Reg.LNK_FEC_CE n] ∧ PantryKept s t) ∧
      (s.portUp n = true → x.peer ≠ some id → ∃ t, exec (.flitLink p bs) s = .next t ∧
        t.portState n = (if enabled s then 1 else 0) ∧ t.fld st Fl.LNK_PORT_STAT_REASON = 4 ∧ PantryKept s t))

/-! ## Loads, unloads and rebinds -/

/-- R387 to R393, R401, R402: GO on an empty slot starts CHECK and fetches image and binding; a failed fetch or check ends it
FAILED with its error, and a good image whose regions are up and scrubbed goes to WRITE; the completed writes put it in force,
its cores bound and its slot LOADED. Digests that agree make a partition that spans modules READY. UNLOAD of a slot without
resident contexts unbinds its cores, and ends with slot and partitions EMPTY. Both are refused while a core of the slot's
partitions is being re-placed (R594). -/
def Obligations.ImagesLoadAndUnload : Prop :=
  ∀ (s : State), s.biWant = [] → s.noRequests →
    let error := fun t : State => t.fld Reg.BLK_LOAD_STAT Fl.BLK_LOAD_STAT_ERROR
    (∀ (k : Fin 16) (start : Bool), s.loadIdle = true → s.fwReady = true → s.faults.replace = none → s.faults.replaceQ = [] →
      let v := BitVec.ofNat 32 (k.val + (if start then 16 else 0) + 256)
      (s.slotRec k = none → ∃ t, exec (.loadGo v) s = .next t ∧ t.loadState = ldCheck ∧
        t.blk.load = some ⟨k, start, [], [], []⟩ ∧ PantryKept s t ∧ t.slots = s.slots ∧
        t.outbox = s.outbox ++ [.hostRead (s.rd Reg.BLK_BIND_ADDR).toNat 256,
          .hostRead (s.rd Reg.BLK_LOAD_ADDR).toNat (s.fld Reg.BLK_LOAD_LEN Fl.BLK_LOAD_LEN_BYTES)]) ∧
      (s.slotRec k ≠ none → ∃ t, exec (.loadGo v) s = .next t ∧ t.loadState = ldFailed ∧ error t = 22 ∧ t.slots = s.slots)) ∧
    (∀ k i b, s.blk.load = some k → s.loadState = ldCheck →
      (i = none ∨ b = none ∨ s.cacheOk = false → ∃ t, exec (.loadFetchComplete i b) s = .next t ∧ t.loadState = ldFailed ∧ error t = 1 ∧
        t.blk.load = none ∧ PantryKept s t) ∧
      ∀ img bind, i = some img → b = some bind → s.cacheOk = true →
        let img := bytesAt img 0 (s.fld Reg.BLK_LOAD_LEN Fl.BLK_LOAD_LEN_BYTES)
        let bind := bytesAt bind 0 256
        let m := imageOf img
        let u := (s.putDigest (Reg.BLK_MEAS k.slot) (shake256 (img.take m.bytes) 32)).putDigest
          (fun j => Reg.BLK_MEAS k.slot (8 + j)) (shake256 bind 32)
        (∀ e sec r, u.loadFailure m bind = some (e, sec, r) → e < 256 →
          ∃ t, exec (.loadFetchComplete i b) s = .next t ∧ t.loadState = ldFailed ∧ error t = e ∧ t.blk.load = none ∧
            t.rd Reg.BLK_LOAD_WHERE = BitVec.ofNat 64 (sec + 4096 * r) ∧ PantryKept s t) ∧
        (u.loadFailure m bind = none → s.legacy = false → s.power.curtainAsk = [] →
          (∀ c ∈ m.places.map Prod.fst, s.inRun (regionOf c) = true ∧ s.scrubbing c = false ∧ c ∉ s.blk.stale) →
          ∃ t, exec (.loadFetchComplete i b) s = .next t ∧ t.loadState = ldWrite ∧ error t = 0 ∧
            t.blk.load = some { k with img := img, bind := bind, raised := [] } ∧ PantryKept s t)) ∧
    (∀ k, s.blk.load = some k → s.loadState = ldWrite → k.slot < 16 → s.noHostLines →
      (∀ c ∈ k.cores, c < 256 ∧ s.sleep c = 0 ∧ s.scrubbing c = false) → k.cores.Nodup → (∀ p ∈ k.parts, p < 16) →
      ∃ t, exec .loadWriteComplete s = .next t ∧ t.loadState = ldDone ∧ t.blk.load = none ∧
        t.slotRec k.slot = some ⟨k.img, k.bind⟩ ∧ t.flag (Reg.BLK_SLOT_STAT k.slot) Fl.BLK_SLOT_STAT_LOADED = true ∧
        ∀ q ∈ k.image.places, bindPart k.bind (k.image.rolePart q.2) < 16 →
          t.bound q.1 = true ∧ t.partOf q.1 = bindPart k.bind (k.image.rolePart q.2) ∧ (t.bind q.1).role = q.2) ∧
    (∀ (p : PartId) (q : PartRec) (mod : ModId) (own : List Byte), s.part p = some q → s.ownDigest p = some own →
      s.partState p = 2 →
      (∀ d, q.lead ≠ s.module → mod.val = q.lead →
        ∃ t, exec (.partitionDigest p mod d) s = .next t ∧ PantryKept s t ∧
          (d = some own → t.partState p = 3 ∧ t.flag (Reg.BLK_PART_STAT p) Fl.BLK_PART_STAT_MISMATCH = false) ∧
          (d ≠ some own → t.partState p = 2 ∧ t.flag (Reg.BLK_PART_STAT p) Fl.BLK_PART_STAT_MISMATCH = true)) ∧
      ∀ d, q.lead = s.module → q.modules = [s.module, mod.val] → mod.val ≠ s.module → s.digestFrom p s.module = some own →
        ∃ t, exec (.partitionDigest p mod (some d)) s = .next t ∧ PantryKept s t ∧
          t.partState p = (if d = own then 3 else 2) ∧
          t.outbox = s.outbox ++ [.partDigest mod.val p (if d = own then some own else none)]) ∧
    (∀ (k : Fin 16) (r : Replace), s.faults.replace = some r → r.part < 16 → (s.part r.part).any (fun q => q.slot == k.val) = true →
      ∀ i ∈ [Instr.loadGo (BitVec.ofNat 32 (k.val + 256)), .unload (BitVec.ofNat 32 (k.val + 512))],
        ∃ t, exec i s = .next t ∧ t.flag Reg.BLK_LOAD_STAT Fl.BLK_LOAD_STAT_WRITE_REFUSED = true ∧
          RegsKept s t [Reg.BLK_LOAD_STAT] ∧ OnlyRegs s t) ∧
    (∀ k : Fin 16, s.loadIdle = true → s.faults.replace = none → s.faults.replaceQ = [] →
      let v := BitVec.ofNat 32 (k.val + 512)
      (s.slotRec k = none → ∃ t, exec (.unload v) s = .next t ∧ t.loadState = ldFailed ∧ error t = 22) ∧
      (s.slotRec k ≠ none → s.slotInUse k = true → ∃ t, exec (.unload v) s = .next t ∧ t.loadState = ldFailed ∧
        error t = 23 ∧ t.slots = s.slots) ∧
      (s.slotRec k ≠ none → s.slotInUse k = false → ∃ t, exec (.unload v) s = .next t ∧ t.loadState = ldUnloading ∧
        PantryKept s t ∧ (∀ l ∈ t.layerKv, l.slot ≠ k.val) ∧
        ∀ c < 256, s.bound c = true → s.partOf c ∈ s.slotParts k →
          t.bound c = false ∧ t.seq c ≠ seqRun ∧ t.binsGranted c = 0)) ∧
    (∀ k, s.blk.load = some k → s.loadState = ldUnloading → k.slot < 16 →
      ∃ t, exec .unloadComplete s = .next t ∧ t.loadState = ldIdle ∧ t.blk.load = none ∧ t.slotRec k.slot = none ∧
        t.rd (Reg.BLK_SLOT_STAT k.slot) = 0 ∧ PantryKept s t ∧
        ∀ p ∈ s.slotParts k.slot, t.part p = none ∧ t.partState p = 0)

/-- R348 to R351, R356: a rebind that its checks refuse ends FAILED with the error and the core; one that they pass is
BUSY, and once no pass uses its cores it takes them from their partitions, their Pantries zero, and unless it unbinds them
binds them to the receiving one. -/
def Obligations.RebindsMoveCores : Prop :=
  ∀ (s : State), s.biWant = [] →
    (∀ (into : PartId) (un bins : Bool) (role : Byte), s.rebindState ≠ rbBusy → s.loadIdle = true → s.fwReady = true →
      s.faults.replace = none → s.faults.replaceQ = [] →
      let v := BitVec.ofNat 32 (into.val + (if un then 16 else 0) + (if bins then 32 else 0) + 256 * role.toNat + 2 ^ 31)
      let k : RebindRec := ⟨s.rebindMask, into, un, bins, role.toNat⟩
      (∀ e c, s.rebindFailure k = some (e, c) → e < 256 → c < 256 →
        ∃ t, exec (.rebindGo v) s = .next t ∧ t.rebindState = rbFailed ∧
          t.fld Reg.BLK_REBIND_STAT Fl.BLK_REBIND_STAT_ERROR = e ∧ t.fld Reg.BLK_REBIND_STAT Fl.BLK_REBIND_STAT_CORE = c ∧
          RegsKept s t [Reg.BLK_REBIND_CTL, Reg.BLK_REBIND_STAT] ∧ OnlyRegs s t) ∧
      (s.rebindFailure k = none → ∃ t, exec (.rebindGo v) s = .next t ∧ t.rebindState = rbBusy ∧
        t.blk.rebind = some k ∧ PantryKept s t)) ∧
    ∀ k, s.blk.rebind = some k → s.rebindReady k = true → s.passes = [] → s.noRequests → s.noHostLines →
      (∀ c ∈ k.cores, c < 256) →
      (k.unbind = true → ∃ t, exec .rebindProceed s = .next t ∧ t.rebindState = rbDone ∧ t.blk.rebind = none ∧
        ∀ c ∈ k.cores, t.bound c = false ∧ ∀ o < 0x7800000, t.byte c o = 0) ∧
      (k.unbind = false → k.into < 16 → (s.imageIn k.into).isSome = true →
        ∃ t, exec .rebindProceed s = .next t ∧ t.rebindState = rbDone ∧ t.blk.rebind = none ∧
          ∀ c ∈ k.cores, t.bound c = true ∧ t.partOf c = k.into ∧ (t.bind c).role = k.role)

/-! ## The host interface -/

/-- R535 to R538: the link comes up with its width, rate and options; HDM decoding is enabled by a decoder of 32 GiB and one
way, and CXL.cache by the host. A link that leaves L0 counts, and ends requests and completions with every queue in ERROR;
PERST returns the block's registers to reset but for LOFT_BASE, TRUNK_BASE and TRUNK_SIZE. -/
def Obligations.TheHostLinkComesAndGoes : Prop :=
  ∀ (s : State),
    (∀ (w : Fin 3) (speed : Fin 4) (cxl lopt io cm : Bool), s.host.perst = false → s.sec.powered = true → s.linkUp = false →
      ∃ t, exec (.linkUp w speed cxl lopt io cm) s = .next t ∧ t.linkUp = true ∧ t.cxl = cxl ∧
        t.fld Reg.HIF_LINK Fl.HIF_LINK_WIDTH = 4 * 2 ^ w.val ∧ t.fld Reg.HIF_LINK Fl.HIF_LINK_SPEED = speed ∧
        t.flag Reg.HIF_LINK Fl.HIF_LINK_LOPT = lopt ∧ t.flag Reg.HIF_LINK Fl.HIF_LINK_IDE_IO = io ∧
        t.flag Reg.HIF_LINK Fl.HIF_LINK_IDE_CM = (cm && cxl) ∧ RegsKept s t [Reg.HIF_STAT, Reg.HIF_LINK] ∧ OnlyRegs s t) ∧
    (∀ (gib ways : Nat) (mem : Bool), s.cxl = true →
      ∃ t, exec (.hdmDecoderCommit gib ways mem) s = .next t ∧ t.memEn = decide (gib = 32 ∧ ways = 1 ∧ mem = true) ∧
        RegsKept s t [Reg.HIF_STAT] ∧ OnlyRegs s t) ∧
    (s.cxl = true → s.biWant = [] → s.noRequests → (∀ e ∈ s.ctxs, e.2.st ≠ .parking) →
      ∃ t, exec .cacheEnable s = .next t ∧ t.cacheOk = true ∧ RegsKept s t [Reg.HIF_STAT] ∧ PantryKept s t) ∧
    (s.linkUp = true → s.LinkFree →
      ∃ t, exec .linkLost s = .next t ∧ t.linkUp = false ∧ t.cxl = false ∧ t.memEn = false ∧ t.cacheOk = false ∧
        t.flag Reg.HIF_STAT Fl.HIF_STAT_LINK_LOST = true ∧ t.reqs = [] ∧ t.tracked = [] ∧ PantryKept s t ∧
        t.fld Reg.HIF_LINK_DOWNS Fl.HIF_LINK_DOWNS_COUNT =
          min (s.fld Reg.HIF_LINK_DOWNS Fl.HIF_LINK_DOWNS_COUNT + 1) (2 ^ 16 - 1) ∧
        (∀ q, q < s.fld Reg.HIF_QTABLE_COUNT Fl.HIF_QTABLE_COUNT_COUNT ∨ (s.queue q).state ≠ qDisabled →
          (t.queue q).state = qError ∧ (t.queue q).error = 7 ∧ (t.queue q).waiting = []) ∧
        (∀ q k, s.queues = [(q, k)] → t.fld Reg.HIF_CPL_DROPPED Fl.HIF_CPL_DROPPED_COUNT =
          min (s.fld Reg.HIF_CPL_DROPPED Fl.HIF_CPL_DROPPED_COUNT + k.waiting.length) (2 ^ 32 - 1))) ∧
    (s.LinkFree → ∃ t, exec .perstAssert s = .next t ∧ t.host.perst = true ∧ t.queues = [] ∧ PantryKept s t ∧
      ∀ o, hifReg o →
        t.rd o = if o = Reg.HIF_LOFT_BASE ∨ o = Reg.HIF_TRUNK_BASE ∨ o = Reg.HIF_TRUNK_SIZE then s.rd o else resetOf o) ∧
    ∃ t, exec .perstDeassert s = .next t ∧ t.host.perst = false ∧ (s.sec.ready = true → t.fwReady = true) ∧
      RegsKept s t [Reg.HIF_STAT] ∧ PantryKept s t

/-- R36, R536, R542, R544, R545, R549, R551, R598: before FW_READY a QCTL write is refused; then ENABLE of a DISABLED queue
reads its table entry, or without CXL is an ERROR; the entry is checked and makes the queue ACTIVE; DISABLE drains it, and
with nothing open it is DISABLED, in ERROR with its held completions dropped; a QUEUE past the table is refused with GO or
without. Doorbells move SQ_TAIL and CQ_HEAD; one out of range is an ERROR, and one of a queue that is not ACTIVE is discarded
and counted. Coalesced completions are signalled. A read's answer over the Prompt net goes to the host, and a read without an
answer completes with all ones. -/
def Obligations.QueuesAreEnabledAndRung : Prop :=
  ∀ (s : State),
    (∀ (q : QueueId) (op : Nat), q.val < s.fld Reg.HIF_QTABLE_COUNT Fl.HIF_QTABLE_COUNT_COUNT → s.biWant = [] →
      let v := BitVec.ofNat 32 (q.val + 4096 * op + 2 ^ 31)
      let k := s.queue q
      let refused := fun t : State => t.queues = s.queues ∧ t.flag Reg.HIF_STAT Fl.HIF_STAT_WRITE_REFUSED = true ∧
        RegsKept s t [Reg.HIF_STAT]
      (s.fwReady = false → op < 4 → ∃ t, exec (.queueEnable v) s = .next t ∧ refused t) ∧
      (s.fwReady = false → op < 4 → ∃ t, exec (.queueDisable v) s = .next t ∧ refused t) ∧
      (s.fwReady = true →
      (op = 1 → k.state = qDisabled → s.cxl = true → ∃ t, exec (.queueEnable v) s = .next t ∧
        t.queue q = { queueZero with state := qEnabling } ∧
        t.outbox = s.outbox ++ [.hostRead ((s.rd Reg.HIF_QTABLE_ADDR).toNat + 64 * q.val) 64] ∧ RegsKept s t []) ∧
      (op = 1 → k.state = qDisabled → s.cxl = false → ∃ t, exec (.queueEnable v) s = .next t ∧
        (t.queue q).state = qError ∧ (t.queue q).error = 7 ∧ t.outbox = s.outbox ∧ RegsKept s t []) ∧
      (op = 1 → k.state ≠ qDisabled → ∃ t, exec (.queueEnable v) s = .next t ∧ refused t) ∧
      (op = 2 → k.state = qActive → s.openReqs q = [] →
        ∃ t, exec (.queueDisable v) s = .next t ∧ RegsKept s t [] ∧ (k.waiting = [] → t.queue q = queueZero) ∧
          (k.waiting ≠ [] → t.queue q = { k with state := qDraining })) ∧
      (op = 2 → k.state = qError → s.openReqs q = [] →
        ∃ t, exec (.queueDisable v) s = .next t ∧ RegsKept s t [Reg.HIF_CPL_DROPPED] ∧ t.queue q = queueZero ∧
          t.fld Reg.HIF_CPL_DROPPED Fl.HIF_CPL_DROPPED_COUNT =
            min (s.fld Reg.HIF_CPL_DROPPED Fl.HIF_CPL_DROPPED_COUNT + k.waiting.length) (2 ^ 32 - 1)) ∧
      (op = 2 → k.state = qError → s.openReqs q ≠ [] →
        ∃ t, exec (.queueDisable v) s = .next t ∧ RegsKept s t [] ∧ t.queue q = { k with state := qDraining }) ∧
      (op = 2 → k.state = qDisabled ∨ k.state = qEnabling ∨ k.state = qDraining →
        ∃ t, exec (.queueDisable v) s = .next t ∧ refused t))) ∧
    (∀ (q : QueueId) (go : Bool), s.fld Reg.HIF_QTABLE_COUNT Fl.HIF_QTABLE_COUNT_COUNT ≤ q.val →
      let v := BitVec.ofNat 32 (q.val + 4096 + (if go then 2 ^ 31 else 0))
      ∃ t, exec (.queueEnable v) s = .next t ∧ t.queues = s.queues ∧
        t.flag Reg.HIF_STAT Fl.HIF_STAT_WRITE_REFUSED = true ∧ RegsKept s t [Reg.HIF_STAT]) ∧
    (∀ (q : QueueId),
      let k := s.queue q
      let quiet := fun t : State => RegsKept s t [] ∧ t.outbox = s.outbox ∧ PantryKept s t
      let failed := fun (t : State) (e : Nat) => (t.queue q).state = qError ∧ (t.queue q).error = e
      (k.state = qEnabling →
        (∃ t, exec (.queueEntryFetched q none) s = .next t ∧ failed t 1 ∧ quiet t) ∧
        ∀ e : List Byte, e.length = 64 →
          (crc32c (e.take 60) ≠ leAt e 60 4 →
            ∃ t, exec (.queueEntryFetched q (some e)) s = .next t ∧ failed t 2 ∧ quiet t) ∧
          (crc32c (e.take 60) = leAt e 60 4 → entryBad e = true →
            ∃ t, exec (.queueEntryFetched q (some e)) s = .next t ∧ failed t 3 ∧ quiet t) ∧
          (crc32c (e.take 60) = leAt e 60 4 → entryBad e = false →
            ∃ t, exec (.queueEntryFetched q (some e)) s = .next t ∧
              t.queue q = { queueZero with state := qActive, entry := e } ∧ quiet t)) ∧
      (k.state = qDraining → s.openReqs q = [] → k.waiting = [] →
        ∃ t, exec (.queueDrained q) s = .next t ∧ t.queue q = queueZero ∧ quiet t) ∧
      (s.linkUp = true → ∀ v : Word,
        (k.state = qActive → v.toNat < k.sqSize →
          ∃ t, exec (.sqTail q v) s = .next t ∧ t.queue q = { k with sqTail := v.toNat } ∧ quiet t) ∧
        (k.state = qActive → k.sqSize ≤ v.toNat → ∃ t, exec (.sqTail q v) s = .next t ∧ failed t 5 ∧ quiet t) ∧
        (k.state = qActive → v.toNat < k.cqSize →
          ∃ t, exec (.cqHead q v) s = .next t ∧ t.queue q = { k with cqHead := v.toNat } ∧ quiet t) ∧
        (k.state = qActive → k.cqSize ≤ v.toNat → ∃ t, exec (.cqHead q v) s = .next t ∧ failed t 5 ∧ quiet t) ∧
        (k.state ≠ qActive →
          let ignored := fun t : State => t.queues = s.queues ∧ RegsKept s t [Reg.HIF_DB_IGNORED] ∧
            t.fld Reg.HIF_DB_IGNORED Fl.HIF_DB_IGNORED_COUNT =
              min (s.fld Reg.HIF_DB_IGNORED Fl.HIF_DB_IGNORED_COUNT + 1) (2 ^ 32 - 1)
          (∃ t, exec (.sqTail q v) s = .next t ∧ ignored t) ∧ ∃ t, exec (.cqHead q v) s = .next t ∧ ignored t)) ∧
      (k.irqEn = true → k.coalTicks ≠ 0 → 0 < k.unsignalled → ∃ t, exec (.interruptCoalesce q) s = .next t ∧
        t.outbox = s.outbox ++ [.interrupt k.vector] ∧ t.queue q = { k with unsignalled := 0 } ∧ RegsKept s t [] ∧
        PantryKept s t)) ∧
    (∀ id m o v, s.findPn id = some m → m.body = .regResp o v →
      let rest := s.pn.filter fun k => k.id != id
      (∀ r, s.host.reads.find? (fun r => r.1 == m.tag) = some r →
        ∃ t, exec (.regResp id) s = .next t ∧ t.outbox = s.outbox ++ [.readData r.2.1 r.2.2 v] ∧ t.pn = rest ∧
          t.host.reads = s.host.reads.filter (fun k => k.1 != m.tag) ∧ RegsKept s t [Reg.FAB_PN_MSGS] ∧ PantryKept s t) ∧
      (s.host.reads.find? (fun r => r.1 == m.tag) = none →
        ∃ t, exec (.regResp id) s = .next t ∧ t.outbox = s.outbox ∧ t.pn = rest ∧ t.host.reads = s.host.reads ∧
          RegsKept s t [Reg.FAB_PN_MSGS] ∧ PantryKept s t)) ∧
    ∀ r rs, s.host.reads = r :: rs → ∃ t, exec .readTimeout s = .next t ∧ t.host.reads = rs ∧
      t.outbox = s.outbox ++ [.readData r.2.1 r.2.2 (if r.2.2 = 4 then 0xFFFFFFFF else BitVec.allOnes 64)] ∧
      t.flag Reg.HIF_STAT Fl.HIF_STAT_READ_TIMEOUT = true ∧ t.fld Reg.HIF_READ_TIMEOUTS Fl.HIF_READ_TIMEOUTS_COUNT =
        min (s.fld Reg.HIF_READ_TIMEOUTS Fl.HIF_READ_TIMEOUTS_COUNT + 1) (2 ^ 32 - 1) ∧
      RegsKept s t [Reg.HIF_STAT, Reg.HIF_READ_TIMEOUTS] ∧ PantryKept s t

/-- R195, R196, R552, R556 to R560: a read of the aperture answers with the line's bytes and its poison, and a copy that
the host asks for is tracked; a full filter invalidates a line first. A write stores the enabled bytes, and waits for a
scrub of the core, whose end lets it go on. A core asleep answers ones and discards writes, counted. A device load of a
line that the host may have modified waits for the back-invalidate, whose answer returns the data. Host snoops miss once
no write of the line is in flight. -/
def Obligations.TheApertureIsCoherent : Prop :=
  ∀ (s : State),
    (∀ (a : DWord) (ask : Fin 3), s.Aperture a →
      let c := apCore a.toNat
      let o := apLine a.toNat
      let line := a.toNat / 64
      let marked := fun m => ∀ k < 8, s.ecc c (o + 8 * k) = .clean ∨ (k = m ∧ s.ecc c (o + 8 * k) = .poisoned)
      let room := ask.val = 0 ∨ s.tracked.length < snoopSize ∨ (s.tracked.any fun l => l.1 == line) = true
      (s.sleep c < 3 → room → marked 8 → ∃ t, exec (.apertureRead a ask) s = .next t ∧
        t.outbox = s.outbox ++ [.apertureData line (s.bytes c o 64) false] ∧ RegsKept s t [] ∧ PantryKept s t ∧
        (ask.val = 0 → t.tracked = s.tracked) ∧ (ask.val = 1 → ∃ own, (line, own) ∈ t.tracked) ∧
        (ask.val = 2 → (line, true) ∈ t.tracked)) ∧
      (∀ m < 8, s.sleep c < 3 → room → marked m → s.ecc c (o + 8 * m) = .poisoned →
        ∃ t, exec (.apertureRead a ask) s = .next t ∧
          t.outbox = s.outbox ++ [.apertureData line (s.bytes c o 64) true] ∧ PantryKept s t ∧
          t.fld Reg.HIF_AP_POISON Fl.HIF_AP_POISON_COUNT =
            min (s.fld Reg.HIF_AP_POISON Fl.HIF_AP_POISON_COUNT + 1) (2 ^ 32 - 1)) ∧
      (∀ l ls, s.sleep c < 3 → ¬ room → s.tracked = l :: ls → ∃ t, exec (.apertureRead a ask) s = .next t ∧
        t.outbox = s.outbox ∧ t.tracked = s.tracked ∧ l.1 ∈ t.biSent ∧ PantryKept s t) ∧
      (3 ≤ s.sleep c → ∃ t, exec (.apertureRead a ask) s = .next t ∧ RegsKept s t [Reg.HIF_AP_ASLEEP] ∧ PantryKept s t ∧
        t.outbox = s.outbox ++ [.apertureData line (List.replicate 64 0xFF) false] ∧
        t.fld Reg.HIF_AP_ASLEEP Fl.HIF_AP_ASLEEP_COUNT =
          min (s.fld Reg.HIF_AP_ASLEEP Fl.HIF_AP_ASLEEP_COUNT + 1) (2 ^ 32 - 1)) ∧
      ∀ (data : List Byte) (be : DWord),
        (s.sleep c < 3 → s.scrubbing c = false → s.writable c → marked 8 →
          ∃ t, exec (.apertureWrite a data be) s = .next t ∧ RegsKept s t [] ∧
            (∀ i < 64, t.byte c (o + i) = if be.getLsbD i then data.getD i 0 else s.byte c (o + i)) ∧
            ∀ d x, d < 256 → x < pantrySize → d ≠ c ∨ x < o ∨ o + 64 ≤ x → t.byte d x = s.byte d x) ∧
        (∀ m < 8, s.sleep c < 3 → s.scrubbing c = false → marked m → s.ecc c (o + 8 * m) = .poisoned →
          ∃ t, exec (.apertureWrite a data be) s = .next t ∧
            t.ecc c (o + 8 * m) = if bitsOf be.toNat (8 * m) 8 = 255 then .clean else .poisoned) ∧
        (s.sleep c < 3 → s.scrubbing c = true → ∃ t, exec (.apertureWrite a data be) s = .next t ∧
          t.host.apWrites = s.host.apWrites ++ [⟨c, o, data, be⟩] ∧ RegsKept s t [] ∧ PantryKept s t) ∧
        (3 ≤ s.sleep c → ∃ t, exec (.apertureWrite a data be) s = .next t ∧ RegsKept s t [Reg.HIF_AP_ASLEEP] ∧
          PantryKept s t ∧ t.fld Reg.HIF_AP_ASLEEP Fl.HIF_AP_ASLEEP_COUNT =
            min (s.fld Reg.HIF_AP_ASLEEP Fl.HIF_AP_ASLEEP_COUNT + 1) (2 ^ 32 - 1))) ∧
    (∀ (a : DWord) (ask : Fin 3), s.linkUp = true → s.memEn = false → ∃ t d, exec (.apertureRead a ask) s = .next t ∧
      t.outbox = s.outbox ++ [.apertureData (a.toNat / 64) d false] ∧ t.regs = s.regs ∧ PantryKept s t) ∧
    (∀ (c : CoreId), s.scrubbing c = true → s.Settled →
      let after := fun t : State => t.scrubbing c = false ∧ RegsKept s t [Reg.CORE_STAT c]
      (s.scrubWrites = [] → s.host.apWrites = [] →
        ∃ t, exec (.scrubComplete c) s = .next t ∧ after t ∧ PantryKept s t) ∧
      (∀ w, s.scrubWrites = [] → s.host.apWrites = [w] → w.core = c.val → w.off % 64 = 0 → w.off < pantrySize →
        w.be = BitVec.allOnes 64 → s.flag Reg.DUMP_STAT Fl.DUMP_STAT_RETAINED = false →
        ∃ t, exec (.scrubComplete c) s = .next t ∧ after t ∧ t.host.apWrites = [] ∧
          ∀ i < 64, t.byte c (w.off + i) = w.data.getD i 0) ∧
      ∀ w, s.scrubWrites = [w] → s.host.apWrites = [] → w.core = c.val → w.off % 8 = 0 → w.off + 8 ≤ pantrySize →
        w.data.length = 8 → s.flag Reg.DUMP_STAT Fl.DUMP_STAT_RETAINED = false → s.noHostLines →
        ∃ t, exec (.scrubComplete c) s = .next t ∧ after t ∧ t.scrubWrites = [] ∧
          ∀ i < 8, t.byte c (w.off + i) = w.data.getD i 0) ∧
    (∀ (line : DWord), line.toNat ∈ s.biSent →
      let n := line.toNat
      let c := apCore (64 * n)
      (∃ t, exec (.backInvalidateResponse line none) s = .next t ∧ n ∉ t.biSent ∧ (∀ l ∈ t.tracked, l.1 ≠ n) ∧
        RegsKept s t [] ∧ PantryKept s t) ∧
      ∀ d : List Byte, d.length = 64 → s.sleep c < 3 →
        (s.scrubbing c = false → s.writable c →
          ∃ t, exec (.backInvalidateResponse line (some d)) s = .next t ∧ n ∉ t.biSent ∧ (∀ l ∈ t.tracked, l.1 ≠ n) ∧
            RegsKept s t [] ∧ ∀ i < 64, t.byte c (apLine (64 * n) + i) = d.getD i 0) ∧
        (s.scrubbing c = true →
          ∃ t w, exec (.backInvalidateResponse line (some d)) s = .next t ∧ n ∉ t.biSent ∧ (∀ l ∈ t.tracked, l.1 ≠ n) ∧
            t.host.apWrites = s.host.apWrites ++ [w] ∧ w.core = c ∧ w.off = apLine (64 * n) ∧ w.data = d ∧
            RegsKept s t [] ∧ PantryKept s t)) ∧
    (∀ (c : CoreId) (f : RFmt), f.resv = 0 → s.AddrOk c f 8 → s.ecc c (s.loadAddr c f).toNat = .clean →
      s.Ready c (f.word 0x10) (s.pcNext c) → s.biWant = [] →
      let line := pantryKey c (s.loadAddr c f).toNat / 64
      s.tracked = [(line, true)] → ∃ t, exec (.ld c f) s = .next t ∧ line ∈ t.biSent ∧ t.g c f.gd.val = s.g c f.gd.val ∧
        t.pc c = s.pc c ∧ RegsKept s t [Reg.HIF_BISNP] ∧ PantryKept s t) ∧
    ∀ (line : DWord),
      let l := line.toNat / 64 * 64
      (s.flyingOver l = false → exec (.hostSnoop line) s = .next { s with outbox := s.outbox ++ [.snoopMiss l] }) ∧
      (s.flyingOver l = true → ∃ t, exec (.hostSnoop line) s = .next t ∧ t.outbox = s.outbox ∧ l ∈ t.host.snoops)

/-! ## Boot and attestation -/

/-- R24, R457, R595 to R607, R634, R636: the 12 V feed's rise resets the module and starts the mask ROM, and its loss
resets it and ends the error log; RESET_N resets it but for the log and the DUMP registers, and its rise reruns the boot.
The ROM checks one copy, then the other, and starts a good one or stays in RECOVERY. Images are staged, activated and
committed, slots revoked; and the management bus reads its mirror. -/
def Obligations.TheModuleResetsAndBoots : Prop :=
  ∀ (s : State),
    let booted := fun (t : State) (slot : Fin 8) (legacy : Bool) => t.sec.romPhase = 1 ∧
      t.sec.romCopy = s.fld Reg.SEC_FW_STAT Fl.SEC_FW_STAT_NEXT_COPY ∧
      t.fld Reg.LNK_MODULE Fl.LNK_MODULE_NUMBER = slot ∧ t.legacy = legacy
    (∀ (slot : Fin 8) (legacy : Bool), ∃ t, exec (.coldStart slot legacy) s = .next t ∧ ResetOf s t ∧ t.now = 0 ∧
      t.sec.powered = true ∧ t.errLog = [] ∧ (∀ o, dumpReg o → t.rd o = resetOf o) ∧ (∀ c o, t.byte c o = 0) ∧
      (s.sec.inReset = true → t.sec.inReset = true ∧ t.sec.romPhase = 0 ∧
        t.fld Reg.LNK_MODULE Fl.LNK_MODULE_NUMBER = slot ∧ t.legacy = legacy) ∧
      (s.sec.inReset = false → booted t slot legacy ∧ t.fld (Reg.SEC_MEAS_COUNT 0) Fl.SEC_MEAS_COUNT_COUNT = 1 ∧
        t.measure 0 = shake256 (List.replicate 32 0 ++ bytesAt Config.romDigest 0 32) 32)) ∧
    (∃ t, exec .auxFeedLoss s = .next t ∧ ResetOf s t ∧ t.sec.powered = false ∧ t.errLog = [] ∧
      (∀ o, o ≠ Reg.SEC_SVN_FUSED → o ≠ Reg.SEC_FW_STAT → (∀ p < 16, o ≠ Reg.CEL_CHK_LIMITS p) → t.rd o = resetOf o) ∧
      ∀ c o, t.byte c o = 0) ∧
    (s.sec.powered = true → ∃ t, exec .resetNAssert s = .next t ∧ ResetOf s t ∧ t.sec.inReset = true ∧ t.errLog = s.errLog ∧
      t.fatal = false ∧ t.now = s.now ∧
      (∀ o, dumpReg o → o ≠ Reg.DUMP_STAT → o ≠ Reg.DUMP_REPLACE_STAT → t.rd o = s.rd o) ∧
      (∀ o, ¬ dumpReg o → o ≠ Reg.SEC_SVN_FUSED → o ≠ Reg.SEC_FW_STAT → (∀ p < 16, o ≠ Reg.CEL_CHK_LIMITS p) →
        t.rd o = resetOf o) ∧
      (s.flag Reg.DUMP_STAT Fl.DUMP_STAT_RETAINED = false → ∀ c o, t.byte c o = 0) ∧
      (s.flag Reg.DUMP_STAT Fl.DUMP_STAT_RETAINED = true → ∀ r o, 0x7800000 ≤ o → o < 0x8000000 →
        t.byte (16 * r) o = s.byte (16 * r) o)) ∧
    (s.sec.powered = false → exec .resetNAssert s = .next { s with sec.inReset := true }) ∧
    (∀ (slot : Fin 8) (legacy : Bool), s.sec.inReset = true → ∃ t, exec (.resetNDeassert slot legacy) s = .next t ∧
      t.sec.inReset = false ∧ PantryKept s t ∧ (s.sec.powered = true → booted t slot legacy) ∧
      RegsKept s t (if s.sec.powered then romRegs else [])) ∧
    (∀ readable : Bool, s.sec.romPhase = 1 ∨ s.sec.romPhase = 2 →
      let e := if readable then s.fwError (s.firmware s.sec.romCopy) else 6
      let bad := if s.sec.romCopy = 0 then Fl.SEC_BOOT_STAT_A_BAD else Fl.SEC_BOOT_STAT_B_BAD
      ∃ t, exec (.firmwareVerified readable) s = .next t ∧ PantryKept s t ∧ RegsKept s t [Reg.SEC_BOOT_STAT] ∧
        (e = 0 → t.sec.romPhase = 3 ∧ t.regs = s.regs) ∧
        (e ≠ 0 → t.flag Reg.SEC_BOOT_STAT bad = true ∧ t.fld Reg.SEC_BOOT_STAT Fl.SEC_BOOT_STAT_ERROR = e) ∧
        (e ≠ 0 → s.sec.romPhase = 1 → t.sec.romPhase = 2 ∧ t.sec.romCopy = 1 - s.sec.romCopy) ∧
        (e ≠ 0 → s.sec.romPhase = 2 → t.sec.romPhase = 4 ∧ t.fld Reg.SEC_BOOT_STAT Fl.SEC_BOOT_STAT_STAGE = 2)) ∧
    (∀ keyOk : Bool, s.sec.romPhase = 3 → s.sec.romCopy < 2 →
      let b := s.firmware s.sec.romCopy
      ∃ t, exec (.firmwareStart keyOk) s = .next t ∧ t.sec.romPhase = 0 ∧ t.fwRuns = true ∧
        t.runningCopy = s.sec.romCopy ∧ t.fld Reg.SEC_FW_VERSION Fl.SEC_FW_VERSION_VERSION = leAt b 8 2 ∧
        t.fld Reg.SEC_FW_VERSION Fl.SEC_FW_VERSION_SVN = fwSvn b ∧ (keyOk = false → t.idFail = true) ∧ PantryKept s t ∧
        t.measure 1 = shake256 (s.measure 1 ++ bytesAt (shake256 (fwSigned b) 32) 0 32) 32) ∧
    (s.fwRuns = true → ∃ t, exec .fwReady s = .next t ∧ t.sec.ready = true ∧ t.fwReady = true ∧
      RegsKept s t [Reg.HIF_STAT] ∧ PantryKept s t) ∧
    (s.biWant = [] →
      let len := s.fld Reg.SEC_FW_LEN Fl.SEC_FW_LEN_BYTES
      let err := fun t : State => t.fld Reg.SEC_FW_STAT Fl.SEC_FW_STAT_ERROR
      let refused := fun (i : Instr) (fuse : Bool) => ∃ t, exec i s = .next t ∧ RegsKept s t [Reg.SEC_FW_STAT] ∧
        t.flag Reg.SEC_FW_STAT Fl.SEC_FW_STAT_WRITE_REFUSED = true ∧ OnlyRegs s t ∧ (fuse = true → err t = 8)
      (s.fwRuns = true ∨ s.sec.romPhase = 4 → s.fwState = 0 ∨ 4 ≤ s.fwState →
        ∃ t, exec (.fwStage 1) s = .next t ∧ RegsKept s t [Reg.SEC_FW_STAT] ∧ PantryKept s t ∧
          (len ≤ 2 ^ 22 → t.fwState = fwFetch ∧ t.outbox = s.outbox ++ if s.sec.romPhase = 4 then [] else [s.fwRead]) ∧
          (2 ^ 22 < len → t.fwState = fwFailed ∧ err t = 7)) ∧
      (1 ≤ s.fwState → s.fwState ≤ 3 → refused (.fwStage 1) false) ∧
      (s.fwState = fwFetch → s.sec.romPhase ≠ 4 ∨ s.cacheOk = true → ∀ wrote : Bool,
        (∃ t, exec (.fwStageComplete none wrote) s = .next t ∧ t.fwState = fwFailed ∧ err t = 7 ∧ t.sec = s.sec ∧
          t.outbox = s.outbox ++ if s.sec.romPhase = 4 then [s.fwRead] else []) ∧
        ∀ img : List Byte, s.cacheOk = true →
          let b := img.take len
          let copy := s.updateCopy
          ∃ t, exec (.fwStageComplete (some img) wrote) s = .next t ∧ PantryKept s t ∧
            (s.fwError b ≠ 0 → t.fwState = fwFailed ∧ err t = s.fwError b ∧ t.sec = s.sec) ∧
            (s.fwError b = 0 → wrote = true → t.firmware copy = b ∧
              (s.sec.romPhase ≠ 4 → t.fwState = fwStaged) ∧ (s.sec.romPhase = 4 → t.sec.romPhase = 3 ∧ t.sec.romCopy = 0)) ∧
            (s.fwError b = 0 → wrote = false → t.fwState = fwFailed ∧ err t = 6 ∧ s.fwError (t.firmware copy) ≠ 0)) ∧
      (s.fwRuns = true → s.fwState = fwStaged → ∃ t, exec (.fwActivate 2) s = .next t ∧
        t.fld Reg.SEC_FW_STAT Fl.SEC_FW_STAT_NEXT_COPY = 1 - s.runningCopy ∧ RegsKept s t [Reg.SEC_FW_STAT] ∧ OnlyRegs s t) ∧
      (s.fwState ≠ fwStaged → refused (.fwActivate 2) false) ∧
      (let svn := s.fld Reg.SEC_FW_VERSION Fl.SEC_FW_VERSION_SVN
       (s.fwRuns = true → s.minSvn < svn → svn ≤ fwSvn (s.firmware (1 - s.runningCopy)) →
         ∃ t, exec (.commitSvn 4) s = .next t ∧ t.minSvn = svn ∧ RegsKept s t [Reg.SEC_SVN_FUSED] ∧ OnlyRegs s t) ∧
       (svn ≤ s.minSvn → refused (.commitSvn 4) true)) ∧
      ∀ k : Fin 4, s.fwRuns = true →
        let v := BitVec.ofNat 32 (8 + 16 * k.val)
        (fwSlot (s.firmware s.runningCopy) ≠ k.val →
          ∃ t, exec (.revoke v) s = .next t ∧ t.revoked k = true ∧ RegsKept s t [Reg.SEC_SVN_FUSED] ∧ OnlyRegs s t) ∧
        (fwSlot (s.firmware s.runningCopy) = k.val → refused (.revoke v) true)) ∧
    (s.sec.powered = true →
      (∀ b : Byte, exec (.mgmtBusIndex b) s = .next { s with sec.busIndex := b.toNat }) ∧
      ∃ t w, exec .mgmtBusRead s = .next t ∧ t = { s with outbox := s.outbox ++ [.busWord (BitVec.ofNat 32 w)] } ∧
        (∀ e ∈ [(0, Reg.ID_IDENT), (2, Reg.ID_REVISION), (3, Reg.ID_SERIAL), (11, Reg.HIF_STAT), (12, Reg.DUMP_STAT),
          (13, Reg.SEC_BOOT_STAT), (14, Reg.LNK_MODULE)], s.sec.busIndex = e.1 → w = s.word e.2) ∧
        (∀ e ∈ [(5, Reg.PWR_STAT), (6, Reg.PWR_FEED_A), (7, Reg.PWR_FEED_B), (8, Reg.THM_STAT), (9, Reg.THM_COOLANT),
          (10, Reg.THM_FLOW), (16, Reg.THM_REGION 0), (31, Reg.THM_REGION 15)],
          s.sec.busIndex = e.1 → w = if s.sec.ready then s.word e.2 else 0) ∧
        (s.sec.busIndex = 15 ∨ 32 ≤ s.sec.busIndex → w = 0xFFFFFFFF))

/-- R611 to R615, R620: the SPDM responder answers Busy before FW_READY and during a dump after it; GET_VERSION opens a
negotiation, whose next two requests end it; then digests, certificates, signed challenges and measurements are answered,
and a session opens, is finished, has its keys updated and ends. Without the identity key the signed answers fail. -/
def Obligations.AttestationAnswers : Prop :=
  ∀ (s : State) (m : List Byte),
    let x := s.sec.spdm
    let replies := fun (i : Instr) (r : SpdmResp) (t : State) => exec i s = .next t ∧
      t.outbox = s.outbox ++ [.spdm r none] ∧ t.regs = s.regs ∧ PantryKept s t
    let answers := fun (i : Instr) (r : SpdmResp) (sp : Spdm) => ∃ t, replies i r t ∧
      t.sec.spdm = { sp with transcript := sp.transcript ++ m ++ Config.spdmBytes r }
    let fails := fun (i : Instr) (code : Nat) => ∃ t, replies i (.error code) t ∧ t.sec.spdm = x
    let signs := fun (i : Instr) (r : SpdmResp) => ∃ t sig, exec i s = .next t ∧ t.regs = s.regs ∧ PantryKept s t ∧
      t.outbox = s.outbox ++ [.spdm r (some sig)] ∧ t.sec.spdm.transcript = x.transcript ++ m ++ Config.spdmBytes r
    (∀ (common good : Bool) (slot o n index : Nat) (nonce : List Byte),
      let all : List (Instr × SpdmReq) :=
        [(.getVersion m, .getVersion m), (.getCapabilities m, .getCapabilities m),
          (.negotiateAlgorithms m common, .negotiateAlgorithms m common), (.getDigests m, .getDigests m),
          (.getCertificate m slot o n, .getCertificate m slot o n), (.challenge m slot nonce, .challenge m slot nonce),
          (.getMeasurements m index nonce, .getMeasurements m index nonce), (.keyExchange m slot, .keyExchange m slot),
          (.finish m good, .finish m good), (.keyUpdate m, .keyUpdate m), (.endSession m, .endSession m)]
      (s.sec.ready = false → ∀ e ∈ all, fails e.1 spdmBusy) ∧
      (s.sec.ready = true → s.faults.dump.isSome = true → ∀ e ∈ all,
        exec e.1 s = .next { s with sec.spdmHeld := s.sec.spdmHeld ++ [e.2] }) ∧
      (s.sec.ready = true → s.faults.dump = none → x.state = 3 → s.idFail = true →
        ∀ i ∈ [Instr.challenge m slot nonce, .getMeasurements m index nonce, .keyExchange m slot], fails i spdmUnspecified)) ∧
    (s.sec.ready = true → s.faults.dump = none →
      answers (.getVersion m) .version { spdmReset with state := 1 } ∧
      (x.state = 1 → answers (.getCapabilities m) .capabilities { x with state := 2 }) ∧
      (x.state = 2 → answers (.negotiateAlgorithms m true) .algorithms { x with state := 3 } ∧
        fails (.negotiateAlgorithms m false) spdmInvalid) ∧
      (x.state = 3 →
        answers (.getDigests m) (.digests Config.chainDigest) x ∧
        (∀ o n, let l := Config.certChain
          ∃ t, replies (.getCertificate m 0 o n) (if l.length ≤ o then .error spdmInvalid
            else .certificate ((l.drop o).take n) (l.length - o - n)) t) ∧
        (s.idFail = false → ∀ nonce,
          signs (.challenge m 0 nonce) (.challengeAuth Config.chainDigest s.measBlocks nonce) ∧
          (∀ index, signs (.getMeasurements m index nonce) (.measurements (s.blocksOf index) nonce)) ∧
          ∃ t id sig, exec (.keyExchange m 0) s = .next t ∧ t.outbox = s.outbox ++ [.spdm (.keyExchange id) (some sig)] ∧
            t.sec.spdm.session = some id ∧ t.sec.spdm.finished = false ∧ t.regs = s.regs ∧ PantryKept s t)) ∧
      (x.session.isSome = true → x.finished = false → answers (.finish m true) .finished { x with finished := true } ∧
        ∃ t, replies (.finish m false) (.error spdmInvalid) t ∧ t.sec.spdm = { x with session := none }) ∧
      (x.session.isSome = true → x.finished = true →
        answers (.keyUpdate m) .keyUpdated { x with updates := x.updates + 1 } ∧
        answers (.endSession m) .sessionEnded { x with session := none, finished := false }))

/-! ## Faults and dumps -/

/-- R445, R571 to R587, R595: heartbeats are sent and noted. A core that is silent for 100 µs is dead: marked bad, and one with a
place is replaced by a swing core of its die or lost with its partition DEGRADED. A program fault and a stalled pipeline, one
without a commit notice for the STALL_MS in force, restart their partition. A re-placement moves, waits for the host, restores and is DONE, or fails; FAIL_CTL fault-parks. -/
def Obligations.FaultsAreIsolatedAndRepaired : Prop :=
  ∀ (s : State), s.Quiet →
    let kept := fun (i : Instr) (t : State) => exec i s = .next t ∧ PantryKept s t
    let halted := fun (t : State) (p : Nat) => ∀ c ∈ s.coresIn p, t.seq c ≠ seqRun ∧ t.seq c ≠ seqWait ∧ t.binsGranted c = 0
    let lostWith := fun (t : State) (p : Nat) => t.partState p = 4 ∧ p ∈ t.faults.lost
    (∀ cluster : Fin 64,
      let cs := (List.range 4).map fun i => 4 * cluster.val + i
      let live := cs.filter fun c => decide (s.sleep c ≤ 2) && !s.faults.dead.contains c
      (∀ c ∈ cs, s.storming c = false) → ∃ t, kept (.heartbeatCheck cluster) t ∧ t.regs = s.regs ∧
        t.pn = s.pn ++ live.zipIdx.map fun e =>
          ⟨s.nextId + e.2, nodeStagehand (e.1 / 16), s.module, e.1, s.module, 0, 0, .heartbeat (s.beatFlit e.1)⟩) ∧
    (∀ id m v, s.findPn id = some m → m.body = .heartbeat v → ∃ t, kept (.heartbeat id) t ∧
      sread (fun _ => none) t.faults.beats m.src = some (v, s.now) ∧ t.pn = s.pn.filter fun k => k.id != id) ∧
    (∀ c : CoreId, s.silent c = false → exec (.coreDead c) s = .next s) ∧
    (∀ c : CoreId, s.sleep c < 3 → s.silent c = true → s.faults.dead.contains c.val = false → s.blk.load = none → s.faults.replace = none →
      s.faults.replaceQ = [] →
      let p := s.partOf c
      (s.bound c = false → ∃ t, kept (.coreDead c) t ∧ t.coreBad c = true ∧ c.val ∈ t.faults.dead) ∧
      (s.bound c = true → s.loaded p = true → s.partState p = 3 →
        (s.flag Reg.DUMP_FLT_CTL Fl.DUMP_FLT_CTL_AUTO_REPLACE = false →
          ∃ t, kept (.coreDead c) t ∧ t.coreBad c = true ∧ lostWith t p ∧ halted t p ∧ (∀ x ∈ t.passes, x.part ≠ p)) ∧
        ∀ k, s.replaceBar c = none → s.freeSwing c = some k → s.noHostLines →
          ∃ t, exec (.coreDead c) s = .next t ∧ t.coreBad c = true ∧ t.partState p = 4 ∧ t.replaceState = rpMoving ∧
            t.fld Reg.DUMP_REPLACE_STAT Fl.DUMP_REPLACE_STAT_DEAD = c ∧
            t.fld Reg.DUMP_REPLACE_STAT Fl.DUMP_REPLACE_STAT_SWING = k ∧
            t.fld Reg.DUMP_REPLACE_STAT Fl.DUMP_REPLACE_STAT_PARTITION = p ∧ t.bound c = false ∧ t.bound k = true ∧
            t.partOf k = p ∧ t.bind k = s.bind c ∧ ∀ o < 0x7800000, t.byte k o = 0)) ∧
    (∀ p : PartId, s.partState p = 3 →
      let restarted := fun (t : State) => t.partState p = 3 ∧ (∀ x ∈ t.passes, x.part ≠ p.val) ∧ Restarted s t p
      (s.stallDue p = false → exec (.pipeStall p) s = .next s) ∧
      (s.stallDue p = true →
        (s.justRestarted p = false → ∃ t, kept (.pipeStall p) t ∧ restarted t ∧
          s.logged t 0x44 .module (some p.val) outRestarted (s.stalledCore p)) ∧
        (s.justRestarted p = true → ∃ t, kept (.pipeStall p) t ∧ lostWith t p ∧ halted t p)) ∧
      ∀ id m (c : CoreId) cause, s.findPn id = some m → m.body = .fault c cause → m.dest = nodeManager →
        m.srcModule = s.module → s.loadState ≠ ldWrite → 1 ≤ cause → cause ≤ 0x13 → s.bound c = true → s.partOf c = p.val → s.loaded p = true →
        s.justRestarted p = false → ∃ t, kept (.fault id) t ∧ restarted t ∧
          s.logged t 0x43 (.core c) (some p.val) outRestarted cause) ∧
    (∀ r, s.faults.replace = some r → s.faults.replaceQ = [] → r.part < 16 → r.dead < 256 → r.swing < 256 → s.noHostLines →
      s.partState r.part ≠ 5 →
      let failed := fun (i : Instr) => ∃ t, kept i t ∧ t.replaceState = rpFailed ∧ t.faults.replace = none ∧
        lostWith t r.part ∧ t.fld Reg.DUMP_REPLACES Fl.DUMP_REPLACES_FAILED =
          min (s.fld Reg.DUMP_REPLACES Fl.DUMP_REPLACES_FAILED + 1) (2 ^ 16 - 1)
      (s.replaceState = rpMoving → s.sleep r.swing = 0 → s.scrubbing r.swing = false → failed (.replaceMovingDone none) ∧
        ((s.imageIn r.part).isSome = true → s.cacheOk = true → ∀ img, ∃ t, exec (.replaceMovingDone (some img)) s = .next t ∧
          t.replaceState = rpHost ∧ t.outbox = s.outbox ++ [.interrupt 2048])) ∧
      (s.replaceState = rpHost → failed .hostMsTimeout ∧
        ∃ t, kept (.hostDone 1) t ∧ t.replaceState = rpRestoring ∧ RegsKept s t [Reg.DUMP_REPLACE_STAT]) ∧
      (s.replaceState ≠ rpHost → ∃ t, kept (.hostDone 1) t ∧ RegsKept s t [] ∧ OnlyRegs s t) ∧
      ∀ mem, s.replaceState = rpRestoring → s.layerKv = [] → s.faults.lost = [] → s.scrubbing r.swing = false →
        ∃ t, exec (.restoreComplete mem) s = .next t ∧ t.replaceState = rpDone ∧ t.faults.replace = none ∧
          t.partState r.part = 3 ∧ s.logged t r.code (.core r.dead) (some r.part) outReplaced r.swing ∧
          t.fld Reg.DUMP_REPLACES Fl.DUMP_REPLACES_DONE = min (s.fld Reg.DUMP_REPLACES Fl.DUMP_REPLACES_DONE + 1) (2 ^ 16 - 1)) ∧
    ∀ (p : PartId) (x : CtxId) (k : Ctx),
      let v := BitVec.ofNat 32 (2 ^ p.val)
      (s.partState p ≠ 4 → s.partState p ≠ 5 → ∃ t, exec (.failCtlPark v) s = .next t ∧ OnlyRegs s t ∧
        t.flag Reg.DUMP_STAT Fl.DUMP_STAT_WRITE_REFUSED = true ∧ RegsKept s t [Reg.DUMP_STAT]) ∧
      (s.partState p = 4 → k.part = p.val → k.st = .resident → s.noHostLines →
        ∃ t, exec (.failCtlPark v) { s with ctxs := [(x.val, k)] } = .next t ∧
          (t.ctx x).st = (if s.linkUp && s.flag Reg.HIF_STAT Fl.HIF_STAT_CACHE_EN then .parked else .parking) ∧
          (t.ctx x).reason = 6 ∧ (t.ctx x).committed = k.ckPos ∧ (t.ctx x).resident = none)

/-- R588 to R590, R595: a FATAL fault, or DUMP.CTL.TRIGGER, halts the module, ends its re-placements and begins its dump,
without a Trunk into the retained ranges; the dump is written with its header and counted, or after a failed write goes to
those ranges, or is FAILED, each with its record; that a failed one's says LOGGED is the model's choice (log entry 41). COPY
sends a retained dump to the Trunk, and RETAIN_CLR gives the ranges up. -/
def Obligations.FatalFaultsDump : Prop :=
  ∀ (s : State), s.biWant = [] →
    let state := fun t : State => t.fld Reg.DUMP_STAT Fl.DUMP_STAT_STATE
    let retained := fun t : State => t.flag Reg.DUMP_STAT Fl.DUMP_STAT_RETAINED
    (s.Quiet → s.faults.dump = none → ∀ e ∈ [(Instr.fatalFault 0x60, 0x60), (.fatalFault 0x61, 0x61), (.dumpTrigger 1, 0x62)],
      ∃ t d, exec e.1 s = .next t ∧ PantryKept s t ∧ t.fatal = true ∧ state t = 1 ∧
        t.fld Reg.DUMP_STAT Fl.DUMP_STAT_CAUSE = e.2 ∧ t.faults.dump = some d ∧ d.code = e.2 ∧ t.faults.replace = none ∧
        t.faults.replaceQ = [] ∧ t.faultCount = (s.faultCount + 1 + s.replacements) % 2 ^ 32 ∧
        (s.replacements < 1024 → (ringAt t.errLog (s.faultCount % 1024)).bytes =
          s.errRecord s.faultCount e.2 .module none outPending 0) ∧
        d.base = (s.rd Reg.HIF_TRUNK_BASE).toNat ∧ (∀ x ∈ t.passes, 16 ≤ x.part) ∧
        (∀ c < 256, t.seq c ≠ seqRun ∧ t.seq c ≠ seqWait ∧ t.binsGranted c = 0) ∧
        (s.rd Reg.HIF_TRUNK_BASE = 0 → d.trunk = false ∧ retained t = true)) ∧
    (∀ d, s.faults.dump = some d → s.host.snoops = [] → s.sec.spdmHeld = [] →
      let n := s.fld Reg.DUMP_COUNT Fl.DUMP_COUNT_COUNT + 1
      let bs := s.dumpBytes d n
      (d.trunk = true →
        (s.cacheOk = true → ∃ t, exec (.dumpComplete true) s = .next t ∧ t.faults.dump = none ∧ state t = 2 ∧ PantryKept s t ∧
          t.outbox = s.outbox ++ [.hostWrite d.base bs, .interrupt 2048] ∧
          t.fld Reg.DUMP_COUNT Fl.DUMP_COUNT_COUNT = n % 2 ^ 32 ∧ s.logged t d.code .module none outDumped 0) ∧
        ∀ ok, ok = false ∨ s.cacheOk = false →
          ∃ t, exec (.dumpComplete ok) s = .next t ∧ t.faults.dump = some { d with trunk := false } ∧ retained t = true ∧
            t.outbox = s.outbox ∧ PantryKept s t) ∧
      (d.trunk = false →
        (∃ t, exec (.dumpComplete true) s = .next t ∧ t.faults.dump = none ∧ state t = 3 ∧
          t.outbox = s.outbox ++ [.interrupt 2048] ∧ ∀ r < 16, ∀ i < 0x800000, t.byte (16 * r) (0x7800000 + i) = bs.getD i 0) ∧
        ∃ t, exec (.dumpComplete false) s = .next t ∧ t.faults.dump = none ∧ state t = 4 ∧ PantryKept s t ∧
          s.logged t d.code .module none outLogged 0)) ∧
    (∃ t, exec (.dumpCopy 2) s = .next t ∧ RegsKept s t [] ∧ PantryKept s t ∧
      (retained s = false → t.outbox = s.outbox) ∧
      ∀ r bs, retained s = true → r < 16 → s.retainedDump r = some bs → (∀ k < r, s.retainedDump k = none) →
        t.outbox = s.outbox ++
          if s.trunkFits bs.length then [.hostWrite (s.rd Reg.HIF_TRUNK_BASE).toNat bs] else []) ∧
    ∃ t, exec (.retainClr 4) s = .next t ∧ retained t = false ∧ RegsKept s t [Reg.DUMP_STAT] ∧
      ∀ c < 256, ∀ o < 0x8000000, t.byte c o = if c % 16 = 0 ∧ s.sleep c = 4 then 0 else s.byte c o

/-! ## Reset, time and the form of the stores -/

/-- Reset leaves every sequencer HALTED, every core and region Dark, every token FREE, every partition and slot EMPTY, the
Pantries at zero and every store in its canonical form (R24, R33, R233, R235); with no command waiting a step is one tick of
time, the model's own choice (log entry 2), which ends the finish steps of an install and else changes nothing but the time. -/
def Obligations.ResetIsCanonicalAndIdleStepsPass : Prop :=
  State.reset.canonical = true ∧ State.reset.pending = [] ∧
    (∀ c < 256, State.reset.seq c = seqHalted ∧ State.reset.sleep c = 4 ∧ State.reset.bound c = false ∧
      (∀ t < 16, State.reset.tok c t = 0) ∧ ∀ o < pantrySize, State.reset.byte c o = 0) ∧
    (∀ r < 16, State.reset.inRun r = false) ∧ (∀ p < 16, State.reset.partState p = 0 ∧ State.reset.part p = none) ∧
    (∀ k < 16, State.reset.slotRec k = none) ∧
    ∀ s : State, s.pending = [] → ∃ t, step s = .next t ∧ t.now = s.now + 1 ∧
      (s.finishing = false → t.regs = s.regs ∧ PantryKept s t)

/-- Every command keeps the canonical form: registers, shadow copies, Pantries, code stores and their error marks are equal as
data whenever they hold the same values. -/
def Obligations.EveryStepKeepsTheCanonicalForm : Prop :=
  ∀ s t : State, s.canonical = true → step s = .next t → t.canonical = true
end

