-- ==== Sys2Proof/Laws/Fields.lean ====
section
/-! SUPPORT. The laws of register fields: a field reads what was set, and setting it leaves every other field. -/

namespace Sys2Proof.Machine

theorem Fld.get_testBit (f : Fld) (v : DWord) (i : Nat) :
    (f.get v).testBit i = (decide (i < f.width) && v.getLsbD (f.lsb + i)) := by
  simp only [Fld.get, Nat.testBit_mod_two_pow, BitVec.toNat_ushiftRight, Nat.testBit_shiftRight]
  rfl

theorem Fld.mask_getLsbD (f : Fld) (h : f.lsb + f.width ≤ 64) (i : Nat) :
    f.mask.getLsbD i = (decide (f.lsb ≤ i) && decide (i < f.lsb + f.width)) := by
  simp only [Fld.mask, BitVec.getLsbD_ofNat, Nat.testBit_mul_two_pow, Nat.testBit_two_pow_sub_one]
  by_cases h1 : f.lsb ≤ i <;> by_cases h2 : i < f.lsb + f.width <;> simp [h1, h2] <;> omega

theorem Fld.set_getLsbD (f : Fld) (v : DWord) (x : Nat) (h : f.lsb + f.width ≤ 64) (i : Nat) (hi : i < 64) :
    (f.set v x).getLsbD i =
      if f.lsb ≤ i ∧ i < f.lsb + f.width then x.testBit (i - f.lsb) else v.getLsbD i := by
  simp only [Fld.set, BitVec.getLsbD_or, BitVec.getLsbD_and, BitVec.getLsbD_not, f.mask_getLsbD h,
    BitVec.getLsbD_shiftLeft, BitVec.getLsbD_ofNat, Nat.testBit_mod_two_pow]
  by_cases h1 : f.lsb ≤ i <;> by_cases h2 : i < f.lsb + f.width
  · have : i - f.lsb < f.width := by omega
    have h3 : ¬ i < f.lsb := by omega
    have h4 : i - f.lsb < 64 := by omega
    simp [h1, h2, hi, this, h3, h4]
  · have : ¬ i - f.lsb < f.width := by omega
    simp [h1, h2, hi, this]
  · have h3 : i < f.lsb := by omega
    simp [h1, hi, h3]
  · omega

/-- A field reads what was set, modulo its size. -/
theorem Fld.get_set (f : Fld) (v : DWord) (x : Nat) (h : f.lsb + f.width ≤ 64) :
    f.get (f.set v x) = x % 2 ^ f.width := by
  refine Nat.eq_of_testBit_eq fun i => ?_
  rw [Fld.get_testBit, Nat.testBit_mod_two_pow]
  by_cases hi : i < f.width
  · rw [Fld.set_getLsbD f v x h (f.lsb + i) (by omega), if_pos (by omega)]
    simp [hi]
  · simp [hi]

/-- Setting a field leaves a field that lies apart from it. -/
theorem Fld.get_set_apart (f g : Fld) (v : DWord) (x : Nat) (hf : f.lsb + f.width ≤ 64) (hg : g.lsb + g.width ≤ 64)
    (h : f.lsb + f.width ≤ g.lsb ∨ g.lsb + g.width ≤ f.lsb) : g.get (f.set v x) = g.get v := by
  refine Nat.eq_of_testBit_eq fun i => ?_
  rw [Fld.get_testBit, Fld.get_testBit]
  by_cases hi : i < g.width
  · rw [Fld.set_getLsbD f v x hf (g.lsb + i) (by omega), if_neg (by omega)]
  · simp [hi]

theorem Fld.get_lt (f : Fld) (v : DWord) : f.get v < 2 ^ f.width := Nat.mod_lt _ (Nat.two_pow_pos _)

end Sys2Proof.Machine
end

