-- ==== Sys2Proof/Laws/Store.lean ====
section
/-! SUPPORT. The laws of the sparse stores: a read after a write, and that every operation keeps the canonical form. -/

namespace Sys2Proof.Machine

variable {α : Type}

theorem sread_sinsert (d : Nat → α) (m : List (Nat × α)) (k : Nat) (v : α) (j : Nat) :
    sread d (sinsert m k v) j = if j = k then v else sread d m j := by
  induction m with
  | nil => simp [sinsert, sread]
  | cons e m ih =>
    obtain ⟨k', v'⟩ := e
    simp only [sinsert]
    split
    · simp [sread]
    · split
      · subst_vars
        simp only [sread]
        split <;> rfl
      · simp only [sread, ih]
        split
        · split <;> first | rfl | (subst_vars; contradiction)
        · rfl

theorem sread_filter (d : Nat → α) (p : Nat → Bool) (m : List (Nat × α)) (j : Nat) :
    sread d (m.filter fun e => p e.1) j = if p j then sread d m j else d j := by
  induction m with
  | nil => simp [sread]
  | cons e m ih =>
    obtain ⟨k', v'⟩ := e
    by_cases hp : p k'
    · simp only [List.filter_cons, hp, if_true, sread, ih]
      by_cases hj : j = k'
      · simp [hj, hp]
      · simp [hj]
    · simp only [List.filter_cons, hp, sread]
      by_cases hj : j = k'
      · subst hj; simp [hp, ih]
      · simp [hj, ih]

theorem sread_serase (d : Nat → α) (m : List (Nat × α)) (k j : Nat) :
    sread d (serase m k) j = if j = k then d j else sread d m j := by
  unfold serase
  rw [sread_filter d (fun i => i != k)]
  by_cases h : j = k <;> simp [h]

/-- A read after a write: the value written at its key, the old value at every other. -/
@[simp] theorem sread_swrite [DecidableEq α] (d : Nat → α) (m : List (Nat × α)) (k : Nat) (v : α) (j : Nat) :
    sread d (swrite d m k v) j = if j = k then v else sread d m j := by
  unfold swrite
  split
  · rw [sread_serase]
    split <;> simp_all
  · exact sread_sinsert d m k v j

theorem sread_sclear (d : Nat → α) (m : List (Nat × α)) (lo hi j : Nat) :
    sread d (sclear m lo hi) j = if lo ≤ j ∧ j < hi then d j else sread d m j := by
  unfold sclear
  rw [sread_filter d (fun i => !(decide (lo ≤ i) && decide (i < hi)))]
  by_cases h : lo ≤ j ∧ j < hi
  · simp [h]
  · have h' : ¬(decide (lo ≤ j) && decide (j < hi)) = true := by simpa using h
    rw [if_neg h]; simp only [Bool.not_eq_true] at h'; rw [h']; simp

theorem sread_sclearIf (d : Nat → α) (m : List (Nat × α)) (p : Nat → Bool) (j : Nat) :
    sread d (sclearIf m p) j = if p j then d j else sread d m j := by
  unfold sclearIf
  rw [sread_filter d (fun i => !p i)]
  by_cases h : p j <;> simp [h]

/-! ## The canonical form -/

theorem srising_cons (a : Nat × α) (m : List (Nat × α)) :
    srising (a :: m) = true ↔ (∀ e ∈ m, a.1 < e.1) ∧ srising m = true := by
  induction m generalizing a with
  | nil => simp [srising]
  | cons b m ih =>
    simp only [srising, Bool.and_eq_true, decide_eq_true_eq, List.mem_cons, forall_eq_or_imp]
    constructor
    · rintro ⟨h, hm⟩
      exact ⟨⟨h, fun e he => Nat.lt_trans h (((ih b).1 hm).1 e he)⟩, hm⟩
    · rintro ⟨⟨h, -⟩, hm⟩
      exact ⟨h, hm⟩

theorem srising_filter (p : Nat × α → Bool) (m : List (Nat × α)) (h : srising m = true) :
    srising (m.filter p) = true := by
  induction m with
  | nil => simp [srising]
  | cons a m ih =>
    rw [srising_cons] at h
    simp only [List.filter_cons]
    split
    · rw [srising_cons]
      exact ⟨fun e he => h.1 e ((List.mem_filter.1 he).1), ih h.2⟩
    · exact ih h.2

theorem sinsert_mem (m : List (Nat × α)) (k : Nat) (v : α) (e : Nat × α) (h : e ∈ sinsert m k v) :
    e = (k, v) ∨ e ∈ m := by
  induction m with
  | nil => simpa [sinsert] using h
  | cons a m ih =>
    simp only [sinsert] at h
    split at h
    · simpa using h
    · split at h
      · rcases List.mem_cons.1 h with h | h
        · exact .inl h
        · exact .inr (List.mem_cons_of_mem _ h)
      · rcases List.mem_cons.1 h with h | h
        · exact .inr (h ▸ List.mem_cons_self)
        · rcases ih h with h | h
          · exact .inl h
          · exact .inr (List.mem_cons_of_mem _ h)

theorem srising_sinsert (m : List (Nat × α)) (k : Nat) (v : α) (h : srising m = true) :
    srising (sinsert m k v) = true := by
  induction m with
  | nil => simp [sinsert, srising]
  | cons a m ih =>
    obtain ⟨k', v'⟩ := a
    have h' := (srising_cons (k', v') m).1 h
    simp only [sinsert]
    split
    · rename_i hk
      rw [srising_cons]
      refine ⟨fun e he => ?_, h⟩
      rcases List.mem_cons.1 he with he | he
      · simpa [he] using hk
      · exact Nat.lt_trans hk (h'.1 e he)
    · split
      · rename_i hk
        subst hk
        rw [srising_cons]
        exact ⟨h'.1, h'.2⟩
      · rename_i h1 h2
        rw [srising_cons]
        refine ⟨fun e he => ?_, ih h'.2⟩
        rcases sinsert_mem m k v e he with he | he
        · simp only [he]; omega
        · exact h'.1 e he

theorem swf_filter [DecidableEq α] (d : Nat → α) (p : Nat × α → Bool) (m : List (Nat × α)) (h : swf d m = true) :
    swf d (m.filter p) = true := by
  simp only [swf, Bool.and_eq_true, List.all_eq_true] at h ⊢
  exact ⟨srising_filter p m h.1, fun e he => h.2 e ((List.mem_filter.1 he).1)⟩

/-- A write keeps the canonical form. -/
theorem swf_swrite [DecidableEq α] (d : Nat → α) (m : List (Nat × α)) (k : Nat) (v : α) (h : swf d m = true) :
    swf d (swrite d m k v) = true := by
  unfold swrite
  split
  · exact swf_filter d _ m h
  · rename_i hv
    simp only [swf, Bool.and_eq_true, List.all_eq_true] at h ⊢
    refine ⟨srising_sinsert m k v h.1, fun e he => ?_⟩
    rcases sinsert_mem m k v e he with he | he
    · simp [he, hv]
    · exact h.2 e he

/-- Returning a range of keys to their defaults keeps the canonical form. -/
theorem swf_sclear [DecidableEq α] (d : Nat → α) (m : List (Nat × α)) (lo hi : Nat) (h : swf d m = true) :
    swf d (sclear m lo hi) = true := swf_filter d _ m h

/-- Returning selected keys to their defaults keeps the canonical form. -/
theorem swf_sclearIf [DecidableEq α] (d : Nat → α) (m : List (Nat × α)) (p : Nat → Bool) (h : swf d m = true) :
    swf d (sclearIf m p) = true := swf_filter d _ m h

/-- The empty store is in canonical form. -/
@[simp] theorem swf_nil [DecidableEq α] (d : Nat → α) : swf d ([] : List (Nat × α)) = true := by
  simp [swf, srising]

end Sys2Proof.Machine
end

