-- ==== Sys2Proof/Laws/State.lean ====
section
/-! SUPPORT. What each named update leaves of the state, field by field, and the laws of registers, Pantry bytes and
code words: a read after a write. -/

namespace Sys2Proof.Machine

variable (s : State)

/-! ## Registers -/

/-- A register read after a write. -/
theorem State.rd_wr (o : Nat) (v : DWord) (j : Nat) : (s.wr o v).rd j = if j = o then v else s.rd j :=
  sread_swrite _ _ _ _ _
@[simp] theorem State.rd_wr_same (o : Nat) (v : DWord) : (s.wr o v).rd o = v := by simp [State.rd_wr]
theorem State.rd_wr_other (o : Nat) (v : DWord) (j : Nat) (h : j ≠ o) : (s.wr o v).rd j = s.rd j := by
  simp [State.rd_wr, h]
theorem State.rd_setFld (o : Nat) (f : Fld) (x j : Nat) :
    (s.setFld o f x).rd j = if j = o then f.set (s.rd o) x else s.rd j := State.rd_wr _ _ _ _
theorem State.rdShadow_wrShadow (o : Nat) (v : DWord) (j : Nat) :
    (s.wrShadow o v).rdShadow j = if j = o then v else s.rdShadow j := sread_swrite _ _ _ _ _
@[simp] theorem State.rdShadow_wr (o : Nat) (v : DWord) (j : Nat) : (s.wr o v).rdShadow j = s.rdShadow j := rfl
@[simp] theorem State.rd_wrShadow (o : Nat) (v : DWord) (j : Nat) : (s.wrShadow o v).rd j = s.rd j := rfl
/-- A field read after it was set. -/
theorem State.fld_setFld_same (o : Nat) (f : Fld) (x : Nat) (h : f.lsb + f.width ≤ 64) :
    (s.setFld o f x).fld o f = x % 2 ^ f.width := by
  simp [State.fld, State.rd_setFld, Fld.get_set f _ x h]
/-- A field that lies apart from the one that was set. -/
theorem State.fld_setFld_apart (o : Nat) (f g : Fld) (x : Nat) (hf : f.lsb + f.width ≤ 64) (hg : g.lsb + g.width ≤ 64)
    (h : f.lsb + f.width ≤ g.lsb ∨ g.lsb + g.width ≤ f.lsb) : (s.setFld o f x).fld o g = s.fld o g := by
  simp [State.fld, State.rd_setFld, Fld.get_set_apart f g _ x hf hg h]
/-- A field of another register. -/
theorem State.fld_setFld_other (o j : Nat) (f g : Fld) (x : Nat) (h : j ≠ o) :
    (s.setFld o f x).fld j g = s.fld j g := by
  simp [State.fld, State.rd_setFld, h]
theorem State.fld_wr_other (o j : Nat) (v : DWord) (g : Fld) (h : j ≠ o) : (s.wr o v).fld j g = s.fld j g := by
  simp [State.fld, State.rd_wr, h]

/-! ## Pantry and code -/

theorem pantryKey_inj (c d o p : Nat) (ho : o < pantrySize) (hp : p < pantrySize) :
    pantryKey c o = pantryKey d p ↔ c = d ∧ o = p := by
  unfold pantryKey pantrySize at *
  constructor
  · intro h
    have : c = d := by omega
    exact ⟨this, by omega⟩
  · rintro ⟨rfl, rfl⟩; rfl

/-- A Pantry byte read after a byte was stored. -/
theorem State.byte_setByte (c o : Nat) (b : Byte) (d p : Nat) :
    (s.setByte c o b).byte d p =
      if s.dumpHeld c o then s.byte d p else if pantryKey d p = pantryKey c o then b else s.byte d p := by
  unfold State.setByte State.byte
  split
  · simp
  · simp

/-- Storing a byte keeps the Pantries in canonical form. -/
theorem State.setByte_wf (c o : Nat) (b : Byte) (h : swf (fun _ => (0 : Byte)) s.pantry = true) :
    swf (fun _ => (0 : Byte)) (s.setByte c o b).pantry = true := by
  unfold State.setByte
  split
  · exact h
  · exact swf_swrite _ _ _ _ h

theorem State.putBytes_wf (c : Nat) (bs : List Byte) : ∀ (o : Nat) (s : State),
    swf (fun _ => (0 : Byte)) s.pantry = true → swf (fun _ => (0 : Byte)) (s.putBytes c o bs).pantry = true := by
  induction bs with
  | nil => exact fun _ _ h => h
  | cons b bs ih => exact fun o s h => ih (o + 1) _ (s.setByte_wf c o b h)

/-- A write keeps the registers in canonical form. -/
theorem State.wr_wf (o : Nat) (v : DWord) (h : swf resetOf s.regs = true) : swf resetOf (s.wr o v).regs = true :=
  swf_swrite _ _ _ _ h

/-- A code word read after one was written. -/
theorem State.codeAt_setCode (c i : Nat) (w : DWord) (d j : Nat) :
    (s.setCode c i w).codeAt d j = if codeKey d j = codeKey c i then w else s.codeAt d j := by
  simp [State.codeAt, State.setCode]

/-! ## What an update leaves -/

/-! `wr` -/

@[simp] theorem State.wr_pending (o : Nat) (v : DWord) : (s.wr o v).pending = s.pending := (rfl)
@[simp] theorem State.wr_fresh (o : Nat) (v : DWord) : (s.wr o v).fresh = s.fresh := (rfl)
@[simp] theorem State.wr_nextId (o : Nat) (v : DWord) : (s.wr o v).nextId = s.nextId := (rfl)
@[simp] theorem State.wr_now (o : Nat) (v : DWord) : (s.wr o v).now = s.now := (rfl)
@[simp] theorem State.wr_shadow (o : Nat) (v : DWord) : (s.wr o v).shadow = s.shadow := (rfl)
@[simp] theorem State.wr_latches (o : Nat) (v : DWord) : (s.wr o v).latches = s.latches := (rfl)
@[simp] theorem State.wr_pantry (o : Nat) (v : DWord) : (s.wr o v).pantry = s.pantry := (rfl)
@[simp] theorem State.wr_pantryEcc (o : Nat) (v : DWord) : (s.wr o v).pantryEcc = s.pantryEcc := (rfl)
@[simp] theorem State.wr_scrubWrites (o : Nat) (v : DWord) : (s.wr o v).scrubWrites = s.scrubWrites := (rfl)
@[simp] theorem State.wr_code (o : Nat) (v : DWord) : (s.wr o v).code = s.code := (rfl)
@[simp] theorem State.wr_codeEcc (o : Nat) (v : DWord) : (s.wr o v).codeEcc = s.codeEcc := (rfl)
@[simp] theorem State.wr_tokOps (o : Nat) (v : DWord) : (s.wr o v).tokOps = s.tokOps := (rfl)
@[simp] theorem State.wr_lateWin (o : Nat) (v : DWord) : (s.wr o v).lateWin = s.lateWin := (rfl)
@[simp] theorem State.wr_twaits (o : Nat) (v : DWord) : (s.wr o v).twaits = s.twaits := (rfl)
@[simp] theorem State.wr_runTime (o : Nat) (v : DWord) : (s.wr o v).runTime = s.runTime := (rfl)
@[simp] theorem State.wr_waking (o : Nat) (v : DWord) : (s.wr o v).waking = s.waking := (rfl)
@[simp] theorem State.wr_sleepWant (o : Nat) (v : DWord) : (s.wr o v).sleepWant = s.sleepWant := (rfl)
@[simp] theorem State.wr_wokeAt (o : Nat) (v : DWord) : (s.wr o v).wokeAt = s.wokeAt := (rfl)
@[simp] theorem State.wr_acc (o : Nat) (v : DWord) : (s.wr o v).acc = s.acc := (rfl)
@[simp] theorem State.wr_accEcc (o : Nat) (v : DWord) : (s.wr o v).accEcc = s.accEcc := (rfl)
@[simp] theorem State.wr_tiles (o : Nat) (v : DWord) : (s.wr o v).tiles = s.tiles := (rfl)
@[simp] theorem State.wr_engOps (o : Nat) (v : DWord) : (s.wr o v).engOps = s.engOps := (rfl)
@[simp] theorem State.wr_engActive (o : Nat) (v : DWord) : (s.wr o v).engActive = s.engActive := (rfl)
@[simp] theorem State.wr_engBad (o : Nat) (v : DWord) : (s.wr o v).engBad = s.engBad := (rfl)
@[simp] theorem State.wr_vecOps (o : Nat) (v : DWord) : (s.wr o v).vecOps = s.vecOps := (rfl)
@[simp] theorem State.wr_fires (o : Nat) (v : DWord) : (s.wr o v).fires = s.fires := (rfl)
@[simp] theorem State.wr_outBufs (o : Nat) (v : DWord) : (s.wr o v).outBufs = s.outBufs := (rfl)
@[simp] theorem State.wr_winPends (o : Nat) (v : DWord) : (s.wr o v).winPends = s.winPends := (rfl)
@[simp] theorem State.wr_sigWaits (o : Nat) (v : DWord) : (s.wr o v).sigWaits = s.sigWaits := (rfl)
@[simp] theorem State.wr_sigOuts (o : Nat) (v : DWord) : (s.wr o v).sigOuts = s.sigOuts := (rfl)
@[simp] theorem State.wr_net (o : Nat) (v : DWord) : (s.wr o v).net = s.net := (rfl)
@[simp] theorem State.wr_pn (o : Nat) (v : DWord) : (s.wr o v).pn = s.pn := (rfl)
@[simp] theorem State.wr_cells (o : Nat) (v : DWord) : (s.wr o v).cells = s.cells := (rfl)
@[simp] theorem State.wr_scales (o : Nat) (v : DWord) : (s.wr o v).scales = s.scales := (rfl)
@[simp] theorem State.wr_wsums (o : Nat) (v : DWord) : (s.wr o v).wsums = s.wsums := (rfl)
@[simp] theorem State.wr_dsums (o : Nat) (v : DWord) : (s.wr o v).dsums = s.dsums := (rfl)
@[simp] theorem State.wr_rsums (o : Nat) (v : DWord) : (s.wr o v).rsums = s.rsums := (rfl)
@[simp] theorem State.wr_spans (o : Nat) (v : DWord) : (s.wr o v).spans = s.spans := (rfl)
@[simp] theorem State.wr_labelEcc (o : Nat) (v : DWord) : (s.wr o v).labelEcc = s.labelEcc := (rfl)
@[simp] theorem State.wr_testSums (o : Nat) (v : DWord) : (s.wr o v).testSums = s.testSums := (rfl)
@[simp] theorem State.wr_envelopes (o : Nat) (v : DWord) : (s.wr o v).envelopes = s.envelopes := (rfl)
@[simp] theorem State.wr_colStats (o : Nat) (v : DWord) : (s.wr o v).colStats = s.colStats := (rfl)
@[simp] theorem State.wr_binRecs (o : Nat) (v : DWord) : (s.wr o v).binRecs = s.binRecs := (rfl)
@[simp] theorem State.wr_rackRecs (o : Nat) (v : DWord) : (s.wr o v).rackRecs = s.rackRecs := (rfl)
@[simp] theorem State.wr_binChecks (o : Nat) (v : DWord) : (s.wr o v).binChecks = s.binChecks := (rfl)
@[simp] theorem State.wr_driftActs (o : Nat) (v : DWord) : (s.wr o v).driftActs = s.driftActs := (rfl)
@[simp] theorem State.wr_refreshQ (o : Nat) (v : DWord) : (s.wr o v).refreshQ = s.refreshQ := (rfl)
@[simp] theorem State.wr_refreshing (o : Nat) (v : DWord) : (s.wr o v).refreshing = s.refreshing := (rfl)
@[simp] theorem State.wr_autoRefresh (o : Nat) (v : DWord) : (s.wr o v).autoRefresh = s.autoRefresh := (rfl)
@[simp] theorem State.wr_hvRefresh (o : Nat) (v : DWord) : (s.wr o v).hvRefresh = s.hvRefresh := (rfl)
@[simp] theorem State.wr_quietAt (o : Nat) (v : DWord) : (s.wr o v).quietAt = s.quietAt := (rfl)
@[simp] theorem State.wr_driftLog (o : Nat) (v : DWord) : (s.wr o v).driftLog = s.driftLog := (rfl)
@[simp] theorem State.wr_errLog (o : Nat) (v : DWord) : (s.wr o v).errLog = s.errLog := (rfl)
@[simp] theorem State.wr_thrLog (o : Nat) (v : DWord) : (s.wr o v).thrLog = s.thrLog := (rfl)
@[simp] theorem State.wr_wear (o : Nat) (v : DWord) : (s.wr o v).wear = s.wear := (rfl)
@[simp] theorem State.wr_binMap (o : Nat) (v : DWord) : (s.wr o v).binMap = s.binMap := (rfl)
@[simp] theorem State.wr_thresholds (o : Nat) (v : DWord) : (s.wr o v).thresholds = s.thresholds := (rfl)
@[simp] theorem State.wr_threshBad (o : Nat) (v : DWord) : (s.wr o v).threshBad = s.threshBad := (rfl)
@[simp] theorem State.wr_tempTrim (o : Nat) (v : DWord) : (s.wr o v).tempTrim = s.tempTrim := (rfl)
@[simp] theorem State.wr_trimTemp (o : Nat) (v : DWord) : (s.wr o v).trimTemp = s.trimTemp := (rfl)
@[simp] theorem State.wr_tempOut (o : Nat) (v : DWord) : (s.wr o v).tempOut = s.tempOut := (rfl)
@[simp] theorem State.wr_actTests (o : Nat) (v : DWord) : (s.wr o v).actTests = s.actTests := (rfl)
@[simp] theorem State.wr_actTestAt (o : Nat) (v : DWord) : (s.wr o v).actTestAt = s.actTestAt := (rfl)
@[simp] theorem State.wr_ctxs (o : Nat) (v : DWord) : (s.wr o v).ctxs = s.ctxs := (rfl)
@[simp] theorem State.wr_passes (o : Nat) (v : DWord) : (s.wr o v).passes = s.passes := (rfl)
@[simp] theorem State.wr_trips (o : Nat) (v : DWord) : (s.wr o v).trips = s.trips := (rfl)
@[simp] theorem State.wr_normActs (o : Nat) (v : DWord) : (s.wr o v).normActs = s.normActs := (rfl)
@[simp] theorem State.wr_outbox (o : Nat) (v : DWord) : (s.wr o v).outbox = s.outbox := (rfl)
@[simp] theorem State.wr_claimQ (o : Nat) (v : DWord) : (s.wr o v).claimQ = s.claimQ := (rfl)
@[simp] theorem State.wr_power (o : Nat) (v : DWord) : (s.wr o v).power = s.power := (rfl)
@[simp] theorem State.wr_routes (o : Nat) (v : DWord) : (s.wr o v).routes = s.routes := (rfl)
@[simp] theorem State.wr_routesKept (o : Nat) (v : DWord) : (s.wr o v).routesKept = s.routesKept := (rfl)
@[simp] theorem State.wr_ports (o : Nat) (v : DWord) : (s.wr o v).ports = s.ports := (rfl)
@[simp] theorem State.wr_answered (o : Nat) (v : DWord) : (s.wr o v).answered = s.answered := (rfl)
@[simp] theorem State.wr_slackIn (o : Nat) (v : DWord) : (s.wr o v).slackIn = s.slackIn := (rfl)
@[simp] theorem State.wr_slots (o : Nat) (v : DWord) : (s.wr o v).slots = s.slots := (rfl)
@[simp] theorem State.wr_parts (o : Nat) (v : DWord) : (s.wr o v).parts = s.parts := (rfl)
@[simp] theorem State.wr_layerKv (o : Nat) (v : DWord) : (s.wr o v).layerKv = s.layerKv := (rfl)
@[simp] theorem State.wr_standIns (o : Nat) (v : DWord) : (s.wr o v).standIns = s.standIns := (rfl)
@[simp] theorem State.wr_kvHolds (o : Nat) (v : DWord) : (s.wr o v).kvHolds = s.kvHolds := (rfl)
@[simp] theorem State.wr_kvReserves (o : Nat) (v : DWord) : (s.wr o v).kvReserves = s.kvReserves := (rfl)
@[simp] theorem State.wr_kvSlots (o : Nat) (v : DWord) : (s.wr o v).kvSlots = s.kvSlots := (rfl)
@[simp] theorem State.wr_bookSlots (o : Nat) (v : DWord) : (s.wr o v).bookSlots = s.bookSlots := (rfl)
@[simp] theorem State.wr_kvOps (o : Nat) (v : DWord) : (s.wr o v).kvOps = s.kvOps := (rfl)
@[simp] theorem State.wr_loftFetches (o : Nat) (v : DWord) : (s.wr o v).loftFetches = s.loftFetches := (rfl)
@[simp] theorem State.wr_spills (o : Nat) (v : DWord) : (s.wr o v).spills = s.spills := (rfl)
@[simp] theorem State.wr_recency (o : Nat) (v : DWord) : (s.wr o v).recency = s.recency := (rfl)
@[simp] theorem State.wr_loftClean (o : Nat) (v : DWord) : (s.wr o v).loftClean = s.loftClean := (rfl)
@[simp] theorem State.wr_digestDirty (o : Nat) (v : DWord) : (s.wr o v).digestDirty = s.digestDirty := (rfl)
@[simp] theorem State.wr_tracked (o : Nat) (v : DWord) : (s.wr o v).tracked = s.tracked := (rfl)
@[simp] theorem State.wr_biSent (o : Nat) (v : DWord) : (s.wr o v).biSent = s.biSent := (rfl)
@[simp] theorem State.wr_biWant (o : Nat) (v : DWord) : (s.wr o v).biWant = s.biWant := (rfl)
@[simp] theorem State.wr_reqs (o : Nat) (v : DWord) : (s.wr o v).reqs = s.reqs := (rfl)
@[simp] theorem State.wr_notices (o : Nat) (v : DWord) : (s.wr o v).notices = s.notices := (rfl)
@[simp] theorem State.wr_queues (o : Nat) (v : DWord) : (s.wr o v).queues = s.queues := (rfl)
@[simp] theorem State.wr_host (o : Nat) (v : DWord) : (s.wr o v).host = s.host := (rfl)
@[simp] theorem State.wr_binds (o : Nat) (v : DWord) : (s.wr o v).binds = s.binds := (rfl)
@[simp] theorem State.wr_blk (o : Nat) (v : DWord) : (s.wr o v).blk = s.blk := (rfl)
@[simp] theorem State.wr_inst (o : Nat) (v : DWord) : (s.wr o v).inst = s.inst := (rfl)
@[simp] theorem State.wr_faults (o : Nat) (v : DWord) : (s.wr o v).faults = s.faults := (rfl)
@[simp] theorem State.wr_sec (o : Nat) (v : DWord) : (s.wr o v).sec = s.sec := (rfl)

/-! `wrShadow` -/

@[simp] theorem State.wrShadow_pending (o : Nat) (v : DWord) : (s.wrShadow o v).pending = s.pending := (rfl)
@[simp] theorem State.wrShadow_fresh (o : Nat) (v : DWord) : (s.wrShadow o v).fresh = s.fresh := (rfl)
@[simp] theorem State.wrShadow_nextId (o : Nat) (v : DWord) : (s.wrShadow o v).nextId = s.nextId := (rfl)
@[simp] theorem State.wrShadow_now (o : Nat) (v : DWord) : (s.wrShadow o v).now = s.now := (rfl)
@[simp] theorem State.wrShadow_regs (o : Nat) (v : DWord) : (s.wrShadow o v).regs = s.regs := (rfl)
@[simp] theorem State.wrShadow_latches (o : Nat) (v : DWord) : (s.wrShadow o v).latches = s.latches := (rfl)
@[simp] theorem State.wrShadow_pantry (o : Nat) (v : DWord) : (s.wrShadow o v).pantry = s.pantry := (rfl)
@[simp] theorem State.wrShadow_pantryEcc (o : Nat) (v : DWord) : (s.wrShadow o v).pantryEcc = s.pantryEcc := (rfl)
@[simp] theorem State.wrShadow_scrubWrites (o : Nat) (v : DWord) : (s.wrShadow o v).scrubWrites = s.scrubWrites := (rfl)
@[simp] theorem State.wrShadow_code (o : Nat) (v : DWord) : (s.wrShadow o v).code = s.code := (rfl)
@[simp] theorem State.wrShadow_codeEcc (o : Nat) (v : DWord) : (s.wrShadow o v).codeEcc = s.codeEcc := (rfl)
@[simp] theorem State.wrShadow_tokOps (o : Nat) (v : DWord) : (s.wrShadow o v).tokOps = s.tokOps := (rfl)
@[simp] theorem State.wrShadow_lateWin (o : Nat) (v : DWord) : (s.wrShadow o v).lateWin = s.lateWin := (rfl)
@[simp] theorem State.wrShadow_twaits (o : Nat) (v : DWord) : (s.wrShadow o v).twaits = s.twaits := (rfl)
@[simp] theorem State.wrShadow_runTime (o : Nat) (v : DWord) : (s.wrShadow o v).runTime = s.runTime := (rfl)
@[simp] theorem State.wrShadow_waking (o : Nat) (v : DWord) : (s.wrShadow o v).waking = s.waking := (rfl)
@[simp] theorem State.wrShadow_sleepWant (o : Nat) (v : DWord) : (s.wrShadow o v).sleepWant = s.sleepWant := (rfl)
@[simp] theorem State.wrShadow_wokeAt (o : Nat) (v : DWord) : (s.wrShadow o v).wokeAt = s.wokeAt := (rfl)
@[simp] theorem State.wrShadow_acc (o : Nat) (v : DWord) : (s.wrShadow o v).acc = s.acc := (rfl)
@[simp] theorem State.wrShadow_accEcc (o : Nat) (v : DWord) : (s.wrShadow o v).accEcc = s.accEcc := (rfl)
@[simp] theorem State.wrShadow_tiles (o : Nat) (v : DWord) : (s.wrShadow o v).tiles = s.tiles := (rfl)
@[simp] theorem State.wrShadow_engOps (o : Nat) (v : DWord) : (s.wrShadow o v).engOps = s.engOps := (rfl)
@[simp] theorem State.wrShadow_engActive (o : Nat) (v : DWord) : (s.wrShadow o v).engActive = s.engActive := (rfl)
@[simp] theorem State.wrShadow_engBad (o : Nat) (v : DWord) : (s.wrShadow o v).engBad = s.engBad := (rfl)
@[simp] theorem State.wrShadow_vecOps (o : Nat) (v : DWord) : (s.wrShadow o v).vecOps = s.vecOps := (rfl)
@[simp] theorem State.wrShadow_fires (o : Nat) (v : DWord) : (s.wrShadow o v).fires = s.fires := (rfl)
@[simp] theorem State.wrShadow_outBufs (o : Nat) (v : DWord) : (s.wrShadow o v).outBufs = s.outBufs := (rfl)
@[simp] theorem State.wrShadow_winPends (o : Nat) (v : DWord) : (s.wrShadow o v).winPends = s.winPends := (rfl)
@[simp] theorem State.wrShadow_sigWaits (o : Nat) (v : DWord) : (s.wrShadow o v).sigWaits = s.sigWaits := (rfl)
@[simp] theorem State.wrShadow_sigOuts (o : Nat) (v : DWord) : (s.wrShadow o v).sigOuts = s.sigOuts := (rfl)
@[simp] theorem State.wrShadow_net (o : Nat) (v : DWord) : (s.wrShadow o v).net = s.net := (rfl)
@[simp] theorem State.wrShadow_pn (o : Nat) (v : DWord) : (s.wrShadow o v).pn = s.pn := (rfl)
@[simp] theorem State.wrShadow_cells (o : Nat) (v : DWord) : (s.wrShadow o v).cells = s.cells := (rfl)
@[simp] theorem State.wrShadow_scales (o : Nat) (v : DWord) : (s.wrShadow o v).scales = s.scales := (rfl)
@[simp] theorem State.wrShadow_wsums (o : Nat) (v : DWord) : (s.wrShadow o v).wsums = s.wsums := (rfl)
@[simp] theorem State.wrShadow_dsums (o : Nat) (v : DWord) : (s.wrShadow o v).dsums = s.dsums := (rfl)
@[simp] theorem State.wrShadow_rsums (o : Nat) (v : DWord) : (s.wrShadow o v).rsums = s.rsums := (rfl)
@[simp] theorem State.wrShadow_spans (o : Nat) (v : DWord) : (s.wrShadow o v).spans = s.spans := (rfl)
@[simp] theorem State.wrShadow_labelEcc (o : Nat) (v : DWord) : (s.wrShadow o v).labelEcc = s.labelEcc := (rfl)
@[simp] theorem State.wrShadow_testSums (o : Nat) (v : DWord) : (s.wrShadow o v).testSums = s.testSums := (rfl)
@[simp] theorem State.wrShadow_envelopes (o : Nat) (v : DWord) : (s.wrShadow o v).envelopes = s.envelopes := (rfl)
@[simp] theorem State.wrShadow_colStats (o : Nat) (v : DWord) : (s.wrShadow o v).colStats = s.colStats := (rfl)
@[simp] theorem State.wrShadow_binRecs (o : Nat) (v : DWord) : (s.wrShadow o v).binRecs = s.binRecs := (rfl)
@[simp] theorem State.wrShadow_rackRecs (o : Nat) (v : DWord) : (s.wrShadow o v).rackRecs = s.rackRecs := (rfl)
@[simp] theorem State.wrShadow_binChecks (o : Nat) (v : DWord) : (s.wrShadow o v).binChecks = s.binChecks := (rfl)
@[simp] theorem State.wrShadow_driftActs (o : Nat) (v : DWord) : (s.wrShadow o v).driftActs = s.driftActs := (rfl)
@[simp] theorem State.wrShadow_refreshQ (o : Nat) (v : DWord) : (s.wrShadow o v).refreshQ = s.refreshQ := (rfl)
@[simp] theorem State.wrShadow_refreshing (o : Nat) (v : DWord) : (s.wrShadow o v).refreshing = s.refreshing := (rfl)
@[simp] theorem State.wrShadow_autoRefresh (o : Nat) (v : DWord) : (s.wrShadow o v).autoRefresh = s.autoRefresh := (rfl)
@[simp] theorem State.wrShadow_hvRefresh (o : Nat) (v : DWord) : (s.wrShadow o v).hvRefresh = s.hvRefresh := (rfl)
@[simp] theorem State.wrShadow_quietAt (o : Nat) (v : DWord) : (s.wrShadow o v).quietAt = s.quietAt := (rfl)
@[simp] theorem State.wrShadow_driftLog (o : Nat) (v : DWord) : (s.wrShadow o v).driftLog = s.driftLog := (rfl)
@[simp] theorem State.wrShadow_errLog (o : Nat) (v : DWord) : (s.wrShadow o v).errLog = s.errLog := (rfl)
@[simp] theorem State.wrShadow_thrLog (o : Nat) (v : DWord) : (s.wrShadow o v).thrLog = s.thrLog := (rfl)
@[simp] theorem State.wrShadow_wear (o : Nat) (v : DWord) : (s.wrShadow o v).wear = s.wear := (rfl)
@[simp] theorem State.wrShadow_binMap (o : Nat) (v : DWord) : (s.wrShadow o v).binMap = s.binMap := (rfl)
@[simp] theorem State.wrShadow_thresholds (o : Nat) (v : DWord) : (s.wrShadow o v).thresholds = s.thresholds := (rfl)
@[simp] theorem State.wrShadow_threshBad (o : Nat) (v : DWord) : (s.wrShadow o v).threshBad = s.threshBad := (rfl)
@[simp] theorem State.wrShadow_tempTrim (o : Nat) (v : DWord) : (s.wrShadow o v).tempTrim = s.tempTrim := (rfl)
@[simp] theorem State.wrShadow_trimTemp (o : Nat) (v : DWord) : (s.wrShadow o v).trimTemp = s.trimTemp := (rfl)
@[simp] theorem State.wrShadow_tempOut (o : Nat) (v : DWord) : (s.wrShadow o v).tempOut = s.tempOut := (rfl)
@[simp] theorem State.wrShadow_actTests (o : Nat) (v : DWord) : (s.wrShadow o v).actTests = s.actTests := (rfl)
@[simp] theorem State.wrShadow_actTestAt (o : Nat) (v : DWord) : (s.wrShadow o v).actTestAt = s.actTestAt := (rfl)
@[simp] theorem State.wrShadow_ctxs (o : Nat) (v : DWord) : (s.wrShadow o v).ctxs = s.ctxs := (rfl)
@[simp] theorem State.wrShadow_passes (o : Nat) (v : DWord) : (s.wrShadow o v).passes = s.passes := (rfl)
@[simp] theorem State.wrShadow_trips (o : Nat) (v : DWord) : (s.wrShadow o v).trips = s.trips := (rfl)
@[simp] theorem State.wrShadow_normActs (o : Nat) (v : DWord) : (s.wrShadow o v).normActs = s.normActs := (rfl)
@[simp] theorem State.wrShadow_outbox (o : Nat) (v : DWord) : (s.wrShadow o v).outbox = s.outbox := (rfl)
@[simp] theorem State.wrShadow_claimQ (o : Nat) (v : DWord) : (s.wrShadow o v).claimQ = s.claimQ := (rfl)
@[simp] theorem State.wrShadow_power (o : Nat) (v : DWord) : (s.wrShadow o v).power = s.power := (rfl)
@[simp] theorem State.wrShadow_routes (o : Nat) (v : DWord) : (s.wrShadow o v).routes = s.routes := (rfl)
@[simp] theorem State.wrShadow_routesKept (o : Nat) (v : DWord) : (s.wrShadow o v).routesKept = s.routesKept := (rfl)
@[simp] theorem State.wrShadow_ports (o : Nat) (v : DWord) : (s.wrShadow o v).ports = s.ports := (rfl)
@[simp] theorem State.wrShadow_answered (o : Nat) (v : DWord) : (s.wrShadow o v).answered = s.answered := (rfl)
@[simp] theorem State.wrShadow_slackIn (o : Nat) (v : DWord) : (s.wrShadow o v).slackIn = s.slackIn := (rfl)
@[simp] theorem State.wrShadow_slots (o : Nat) (v : DWord) : (s.wrShadow o v).slots = s.slots := (rfl)
@[simp] theorem State.wrShadow_parts (o : Nat) (v : DWord) : (s.wrShadow o v).parts = s.parts := (rfl)
@[simp] theorem State.wrShadow_layerKv (o : Nat) (v : DWord) : (s.wrShadow o v).layerKv = s.layerKv := (rfl)
@[simp] theorem State.wrShadow_standIns (o : Nat) (v : DWord) : (s.wrShadow o v).standIns = s.standIns := (rfl)
@[simp] theorem State.wrShadow_kvHolds (o : Nat) (v : DWord) : (s.wrShadow o v).kvHolds = s.kvHolds := (rfl)
@[simp] theorem State.wrShadow_kvReserves (o : Nat) (v : DWord) : (s.wrShadow o v).kvReserves = s.kvReserves := (rfl)
@[simp] theorem State.wrShadow_kvSlots (o : Nat) (v : DWord) : (s.wrShadow o v).kvSlots = s.kvSlots := (rfl)
@[simp] theorem State.wrShadow_bookSlots (o : Nat) (v : DWord) : (s.wrShadow o v).bookSlots = s.bookSlots := (rfl)
@[simp] theorem State.wrShadow_kvOps (o : Nat) (v : DWord) : (s.wrShadow o v).kvOps = s.kvOps := (rfl)
@[simp] theorem State.wrShadow_loftFetches (o : Nat) (v : DWord) : (s.wrShadow o v).loftFetches = s.loftFetches := (rfl)
@[simp] theorem State.wrShadow_spills (o : Nat) (v : DWord) : (s.wrShadow o v).spills = s.spills := (rfl)
@[simp] theorem State.wrShadow_recency (o : Nat) (v : DWord) : (s.wrShadow o v).recency = s.recency := (rfl)
@[simp] theorem State.wrShadow_loftClean (o : Nat) (v : DWord) : (s.wrShadow o v).loftClean = s.loftClean := (rfl)
@[simp] theorem State.wrShadow_digestDirty (o : Nat) (v : DWord) : (s.wrShadow o v).digestDirty = s.digestDirty := (rfl)
@[simp] theorem State.wrShadow_tracked (o : Nat) (v : DWord) : (s.wrShadow o v).tracked = s.tracked := (rfl)
@[simp] theorem State.wrShadow_biSent (o : Nat) (v : DWord) : (s.wrShadow o v).biSent = s.biSent := (rfl)
@[simp] theorem State.wrShadow_biWant (o : Nat) (v : DWord) : (s.wrShadow o v).biWant = s.biWant := (rfl)
@[simp] theorem State.wrShadow_reqs (o : Nat) (v : DWord) : (s.wrShadow o v).reqs = s.reqs := (rfl)
@[simp] theorem State.wrShadow_notices (o : Nat) (v : DWord) : (s.wrShadow o v).notices = s.notices := (rfl)
@[simp] theorem State.wrShadow_queues (o : Nat) (v : DWord) : (s.wrShadow o v).queues = s.queues := (rfl)
@[simp] theorem State.wrShadow_host (o : Nat) (v : DWord) : (s.wrShadow o v).host = s.host := (rfl)
@[simp] theorem State.wrShadow_binds (o : Nat) (v : DWord) : (s.wrShadow o v).binds = s.binds := (rfl)
@[simp] theorem State.wrShadow_blk (o : Nat) (v : DWord) : (s.wrShadow o v).blk = s.blk := (rfl)
@[simp] theorem State.wrShadow_inst (o : Nat) (v : DWord) : (s.wrShadow o v).inst = s.inst := (rfl)
@[simp] theorem State.wrShadow_faults (o : Nat) (v : DWord) : (s.wrShadow o v).faults = s.faults := (rfl)
@[simp] theorem State.wrShadow_sec (o : Nat) (v : DWord) : (s.wrShadow o v).sec = s.sec := (rfl)

/-! `setFld` -/

@[simp] theorem State.setFld_pending (o : Nat) (f : Fld) (x : Nat) : (s.setFld o f x).pending = s.pending := State.wr_pending _ _ _
@[simp] theorem State.setFld_fresh (o : Nat) (f : Fld) (x : Nat) : (s.setFld o f x).fresh = s.fresh := State.wr_fresh _ _ _
@[simp] theorem State.setFld_nextId (o : Nat) (f : Fld) (x : Nat) : (s.setFld o f x).nextId = s.nextId := State.wr_nextId _ _ _
@[simp] theorem State.setFld_now (o : Nat) (f : Fld) (x : Nat) : (s.setFld o f x).now = s.now := State.wr_now _ _ _
@[simp] theorem State.setFld_shadow (o : Nat) (f : Fld) (x : Nat) : (s.setFld o f x).shadow = s.shadow := State.wr_shadow _ _ _
@[simp] theorem State.setFld_latches (o : Nat) (f : Fld) (x : Nat) : (s.setFld o f x).latches = s.latches := State.wr_latches _ _ _
@[simp] theorem State.setFld_pantry (o : Nat) (f : Fld) (x : Nat) : (s.setFld o f x).pantry = s.pantry := State.wr_pantry _ _ _
@[simp] theorem State.setFld_pantryEcc (o : Nat) (f : Fld) (x : Nat) : (s.setFld o f x).pantryEcc = s.pantryEcc := State.wr_pantryEcc _ _ _
@[simp] theorem State.setFld_scrubWrites (o : Nat) (f : Fld) (x : Nat) : (s.setFld o f x).scrubWrites = s.scrubWrites := State.wr_scrubWrites _ _ _
@[simp] theorem State.setFld_code (o : Nat) (f : Fld) (x : Nat) : (s.setFld o f x).code = s.code := State.wr_code _ _ _
@[simp] theorem State.setFld_codeEcc (o : Nat) (f : Fld) (x : Nat) : (s.setFld o f x).codeEcc = s.codeEcc := State.wr_codeEcc _ _ _
@[simp] theorem State.setFld_tokOps (o : Nat) (f : Fld) (x : Nat) : (s.setFld o f x).tokOps = s.tokOps := State.wr_tokOps _ _ _
@[simp] theorem State.setFld_lateWin (o : Nat) (f : Fld) (x : Nat) : (s.setFld o f x).lateWin = s.lateWin := State.wr_lateWin _ _ _
@[simp] theorem State.setFld_twaits (o : Nat) (f : Fld) (x : Nat) : (s.setFld o f x).twaits = s.twaits := State.wr_twaits _ _ _
@[simp] theorem State.setFld_runTime (o : Nat) (f : Fld) (x : Nat) : (s.setFld o f x).runTime = s.runTime := State.wr_runTime _ _ _
@[simp] theorem State.setFld_waking (o : Nat) (f : Fld) (x : Nat) : (s.setFld o f x).waking = s.waking := State.wr_waking _ _ _
@[simp] theorem State.setFld_sleepWant (o : Nat) (f : Fld) (x : Nat) : (s.setFld o f x).sleepWant = s.sleepWant := State.wr_sleepWant _ _ _
@[simp] theorem State.setFld_wokeAt (o : Nat) (f : Fld) (x : Nat) : (s.setFld o f x).wokeAt = s.wokeAt := State.wr_wokeAt _ _ _
@[simp] theorem State.setFld_acc (o : Nat) (f : Fld) (x : Nat) : (s.setFld o f x).acc = s.acc := State.wr_acc _ _ _
@[simp] theorem State.setFld_accEcc (o : Nat) (f : Fld) (x : Nat) : (s.setFld o f x).accEcc = s.accEcc := State.wr_accEcc _ _ _
@[simp] theorem State.setFld_tiles (o : Nat) (f : Fld) (x : Nat) : (s.setFld o f x).tiles = s.tiles := State.wr_tiles _ _ _
@[simp] theorem State.setFld_engOps (o : Nat) (f : Fld) (x : Nat) : (s.setFld o f x).engOps = s.engOps := State.wr_engOps _ _ _
@[simp] theorem State.setFld_engActive (o : Nat) (f : Fld) (x : Nat) : (s.setFld o f x).engActive = s.engActive := State.wr_engActive _ _ _
@[simp] theorem State.setFld_engBad (o : Nat) (f : Fld) (x : Nat) : (s.setFld o f x).engBad = s.engBad := State.wr_engBad _ _ _
@[simp] theorem State.setFld_vecOps (o : Nat) (f : Fld) (x : Nat) : (s.setFld o f x).vecOps = s.vecOps := State.wr_vecOps _ _ _
@[simp] theorem State.setFld_fires (o : Nat) (f : Fld) (x : Nat) : (s.setFld o f x).fires = s.fires := State.wr_fires _ _ _
@[simp] theorem State.setFld_outBufs (o : Nat) (f : Fld) (x : Nat) : (s.setFld o f x).outBufs = s.outBufs := State.wr_outBufs _ _ _
@[simp] theorem State.setFld_winPends (o : Nat) (f : Fld) (x : Nat) : (s.setFld o f x).winPends = s.winPends := State.wr_winPends _ _ _
@[simp] theorem State.setFld_sigWaits (o : Nat) (f : Fld) (x : Nat) : (s.setFld o f x).sigWaits = s.sigWaits := State.wr_sigWaits _ _ _
@[simp] theorem State.setFld_sigOuts (o : Nat) (f : Fld) (x : Nat) : (s.setFld o f x).sigOuts = s.sigOuts := State.wr_sigOuts _ _ _
@[simp] theorem State.setFld_net (o : Nat) (f : Fld) (x : Nat) : (s.setFld o f x).net = s.net := State.wr_net _ _ _
@[simp] theorem State.setFld_pn (o : Nat) (f : Fld) (x : Nat) : (s.setFld o f x).pn = s.pn := State.wr_pn _ _ _
@[simp] theorem State.setFld_cells (o : Nat) (f : Fld) (x : Nat) : (s.setFld o f x).cells = s.cells := State.wr_cells _ _ _
@[simp] theorem State.setFld_scales (o : Nat) (f : Fld) (x : Nat) : (s.setFld o f x).scales = s.scales := State.wr_scales _ _ _
@[simp] theorem State.setFld_wsums (o : Nat) (f : Fld) (x : Nat) : (s.setFld o f x).wsums = s.wsums := State.wr_wsums _ _ _
@[simp] theorem State.setFld_dsums (o : Nat) (f : Fld) (x : Nat) : (s.setFld o f x).dsums = s.dsums := State.wr_dsums _ _ _
@[simp] theorem State.setFld_rsums (o : Nat) (f : Fld) (x : Nat) : (s.setFld o f x).rsums = s.rsums := State.wr_rsums _ _ _
@[simp] theorem State.setFld_spans (o : Nat) (f : Fld) (x : Nat) : (s.setFld o f x).spans = s.spans := State.wr_spans _ _ _
@[simp] theorem State.setFld_labelEcc (o : Nat) (f : Fld) (x : Nat) : (s.setFld o f x).labelEcc = s.labelEcc := State.wr_labelEcc _ _ _
@[simp] theorem State.setFld_testSums (o : Nat) (f : Fld) (x : Nat) : (s.setFld o f x).testSums = s.testSums := State.wr_testSums _ _ _
@[simp] theorem State.setFld_envelopes (o : Nat) (f : Fld) (x : Nat) : (s.setFld o f x).envelopes = s.envelopes := State.wr_envelopes _ _ _
@[simp] theorem State.setFld_colStats (o : Nat) (f : Fld) (x : Nat) : (s.setFld o f x).colStats = s.colStats := State.wr_colStats _ _ _
@[simp] theorem State.setFld_binRecs (o : Nat) (f : Fld) (x : Nat) : (s.setFld o f x).binRecs = s.binRecs := State.wr_binRecs _ _ _
@[simp] theorem State.setFld_rackRecs (o : Nat) (f : Fld) (x : Nat) : (s.setFld o f x).rackRecs = s.rackRecs := State.wr_rackRecs _ _ _
@[simp] theorem State.setFld_binChecks (o : Nat) (f : Fld) (x : Nat) : (s.setFld o f x).binChecks = s.binChecks := State.wr_binChecks _ _ _
@[simp] theorem State.setFld_driftActs (o : Nat) (f : Fld) (x : Nat) : (s.setFld o f x).driftActs = s.driftActs := State.wr_driftActs _ _ _
@[simp] theorem State.setFld_refreshQ (o : Nat) (f : Fld) (x : Nat) : (s.setFld o f x).refreshQ = s.refreshQ := State.wr_refreshQ _ _ _
@[simp] theorem State.setFld_refreshing (o : Nat) (f : Fld) (x : Nat) : (s.setFld o f x).refreshing = s.refreshing := State.wr_refreshing _ _ _
@[simp] theorem State.setFld_autoRefresh (o : Nat) (f : Fld) (x : Nat) : (s.setFld o f x).autoRefresh = s.autoRefresh := State.wr_autoRefresh _ _ _
@[simp] theorem State.setFld_hvRefresh (o : Nat) (f : Fld) (x : Nat) : (s.setFld o f x).hvRefresh = s.hvRefresh := State.wr_hvRefresh _ _ _
@[simp] theorem State.setFld_quietAt (o : Nat) (f : Fld) (x : Nat) : (s.setFld o f x).quietAt = s.quietAt := State.wr_quietAt _ _ _
@[simp] theorem State.setFld_driftLog (o : Nat) (f : Fld) (x : Nat) : (s.setFld o f x).driftLog = s.driftLog := State.wr_driftLog _ _ _
@[simp] theorem State.setFld_errLog (o : Nat) (f : Fld) (x : Nat) : (s.setFld o f x).errLog = s.errLog := State.wr_errLog _ _ _
@[simp] theorem State.setFld_thrLog (o : Nat) (f : Fld) (x : Nat) : (s.setFld o f x).thrLog = s.thrLog := State.wr_thrLog _ _ _
@[simp] theorem State.setFld_wear (o : Nat) (f : Fld) (x : Nat) : (s.setFld o f x).wear = s.wear := State.wr_wear _ _ _
@[simp] theorem State.setFld_binMap (o : Nat) (f : Fld) (x : Nat) : (s.setFld o f x).binMap = s.binMap := State.wr_binMap _ _ _
@[simp] theorem State.setFld_thresholds (o : Nat) (f : Fld) (x : Nat) : (s.setFld o f x).thresholds = s.thresholds := State.wr_thresholds _ _ _
@[simp] theorem State.setFld_threshBad (o : Nat) (f : Fld) (x : Nat) : (s.setFld o f x).threshBad = s.threshBad := State.wr_threshBad _ _ _
@[simp] theorem State.setFld_tempTrim (o : Nat) (f : Fld) (x : Nat) : (s.setFld o f x).tempTrim = s.tempTrim := State.wr_tempTrim _ _ _
@[simp] theorem State.setFld_trimTemp (o : Nat) (f : Fld) (x : Nat) : (s.setFld o f x).trimTemp = s.trimTemp := State.wr_trimTemp _ _ _
@[simp] theorem State.setFld_tempOut (o : Nat) (f : Fld) (x : Nat) : (s.setFld o f x).tempOut = s.tempOut := State.wr_tempOut _ _ _
@[simp] theorem State.setFld_actTests (o : Nat) (f : Fld) (x : Nat) : (s.setFld o f x).actTests = s.actTests := State.wr_actTests _ _ _
@[simp] theorem State.setFld_actTestAt (o : Nat) (f : Fld) (x : Nat) : (s.setFld o f x).actTestAt = s.actTestAt := State.wr_actTestAt _ _ _
@[simp] theorem State.setFld_ctxs (o : Nat) (f : Fld) (x : Nat) : (s.setFld o f x).ctxs = s.ctxs := State.wr_ctxs _ _ _
@[simp] theorem State.setFld_passes (o : Nat) (f : Fld) (x : Nat) : (s.setFld o f x).passes = s.passes := State.wr_passes _ _ _
@[simp] theorem State.setFld_trips (o : Nat) (f : Fld) (x : Nat) : (s.setFld o f x).trips = s.trips := State.wr_trips _ _ _
@[simp] theorem State.setFld_normActs (o : Nat) (f : Fld) (x : Nat) : (s.setFld o f x).normActs = s.normActs := State.wr_normActs _ _ _
@[simp] theorem State.setFld_outbox (o : Nat) (f : Fld) (x : Nat) : (s.setFld o f x).outbox = s.outbox := State.wr_outbox _ _ _
@[simp] theorem State.setFld_claimQ (o : Nat) (f : Fld) (x : Nat) : (s.setFld o f x).claimQ = s.claimQ := State.wr_claimQ _ _ _
@[simp] theorem State.setFld_power (o : Nat) (f : Fld) (x : Nat) : (s.setFld o f x).power = s.power := State.wr_power _ _ _
@[simp] theorem State.setFld_routes (o : Nat) (f : Fld) (x : Nat) : (s.setFld o f x).routes = s.routes := State.wr_routes _ _ _
@[simp] theorem State.setFld_routesKept (o : Nat) (f : Fld) (x : Nat) : (s.setFld o f x).routesKept = s.routesKept := State.wr_routesKept _ _ _
@[simp] theorem State.setFld_ports (o : Nat) (f : Fld) (x : Nat) : (s.setFld o f x).ports = s.ports := State.wr_ports _ _ _
@[simp] theorem State.setFld_answered (o : Nat) (f : Fld) (x : Nat) : (s.setFld o f x).answered = s.answered := State.wr_answered _ _ _
@[simp] theorem State.setFld_slackIn (o : Nat) (f : Fld) (x : Nat) : (s.setFld o f x).slackIn = s.slackIn := State.wr_slackIn _ _ _
@[simp] theorem State.setFld_slots (o : Nat) (f : Fld) (x : Nat) : (s.setFld o f x).slots = s.slots := State.wr_slots _ _ _
@[simp] theorem State.setFld_parts (o : Nat) (f : Fld) (x : Nat) : (s.setFld o f x).parts = s.parts := State.wr_parts _ _ _
@[simp] theorem State.setFld_layerKv (o : Nat) (f : Fld) (x : Nat) : (s.setFld o f x).layerKv = s.layerKv := State.wr_layerKv _ _ _
@[simp] theorem State.setFld_standIns (o : Nat) (f : Fld) (x : Nat) : (s.setFld o f x).standIns = s.standIns := State.wr_standIns _ _ _
@[simp] theorem State.setFld_kvHolds (o : Nat) (f : Fld) (x : Nat) : (s.setFld o f x).kvHolds = s.kvHolds := State.wr_kvHolds _ _ _
@[simp] theorem State.setFld_kvReserves (o : Nat) (f : Fld) (x : Nat) : (s.setFld o f x).kvReserves = s.kvReserves := State.wr_kvReserves _ _ _
@[simp] theorem State.setFld_kvSlots (o : Nat) (f : Fld) (x : Nat) : (s.setFld o f x).kvSlots = s.kvSlots := State.wr_kvSlots _ _ _
@[simp] theorem State.setFld_bookSlots (o : Nat) (f : Fld) (x : Nat) : (s.setFld o f x).bookSlots = s.bookSlots := State.wr_bookSlots _ _ _
@[simp] theorem State.setFld_kvOps (o : Nat) (f : Fld) (x : Nat) : (s.setFld o f x).kvOps = s.kvOps := State.wr_kvOps _ _ _
@[simp] theorem State.setFld_loftFetches (o : Nat) (f : Fld) (x : Nat) : (s.setFld o f x).loftFetches = s.loftFetches := State.wr_loftFetches _ _ _
@[simp] theorem State.setFld_spills (o : Nat) (f : Fld) (x : Nat) : (s.setFld o f x).spills = s.spills := State.wr_spills _ _ _
@[simp] theorem State.setFld_recency (o : Nat) (f : Fld) (x : Nat) : (s.setFld o f x).recency = s.recency := State.wr_recency _ _ _
@[simp] theorem State.setFld_loftClean (o : Nat) (f : Fld) (x : Nat) : (s.setFld o f x).loftClean = s.loftClean := State.wr_loftClean _ _ _
@[simp] theorem State.setFld_digestDirty (o : Nat) (f : Fld) (x : Nat) : (s.setFld o f x).digestDirty = s.digestDirty := State.wr_digestDirty _ _ _
@[simp] theorem State.setFld_tracked (o : Nat) (f : Fld) (x : Nat) : (s.setFld o f x).tracked = s.tracked := State.wr_tracked _ _ _
@[simp] theorem State.setFld_biSent (o : Nat) (f : Fld) (x : Nat) : (s.setFld o f x).biSent = s.biSent := State.wr_biSent _ _ _
@[simp] theorem State.setFld_biWant (o : Nat) (f : Fld) (x : Nat) : (s.setFld o f x).biWant = s.biWant := State.wr_biWant _ _ _
@[simp] theorem State.setFld_reqs (o : Nat) (f : Fld) (x : Nat) : (s.setFld o f x).reqs = s.reqs := State.wr_reqs _ _ _
@[simp] theorem State.setFld_notices (o : Nat) (f : Fld) (x : Nat) : (s.setFld o f x).notices = s.notices := State.wr_notices _ _ _
@[simp] theorem State.setFld_queues (o : Nat) (f : Fld) (x : Nat) : (s.setFld o f x).queues = s.queues := State.wr_queues _ _ _
@[simp] theorem State.setFld_host (o : Nat) (f : Fld) (x : Nat) : (s.setFld o f x).host = s.host := State.wr_host _ _ _
@[simp] theorem State.setFld_binds (o : Nat) (f : Fld) (x : Nat) : (s.setFld o f x).binds = s.binds := State.wr_binds _ _ _
@[simp] theorem State.setFld_blk (o : Nat) (f : Fld) (x : Nat) : (s.setFld o f x).blk = s.blk := State.wr_blk _ _ _
@[simp] theorem State.setFld_inst (o : Nat) (f : Fld) (x : Nat) : (s.setFld o f x).inst = s.inst := State.wr_inst _ _ _
@[simp] theorem State.setFld_faults (o : Nat) (f : Fld) (x : Nat) : (s.setFld o f x).faults = s.faults := State.wr_faults _ _ _
@[simp] theorem State.setFld_sec (o : Nat) (f : Fld) (x : Nat) : (s.setFld o f x).sec = s.sec := State.wr_sec _ _ _

/-! `bump` -/

@[simp] theorem State.bump_pending (o : Nat) (f : Fld) (n : Nat) : (s.bump o f n).pending = s.pending := State.setFld_pending _ _ _ _
@[simp] theorem State.bump_fresh (o : Nat) (f : Fld) (n : Nat) : (s.bump o f n).fresh = s.fresh := State.setFld_fresh _ _ _ _
@[simp] theorem State.bump_nextId (o : Nat) (f : Fld) (n : Nat) : (s.bump o f n).nextId = s.nextId := State.setFld_nextId _ _ _ _
@[simp] theorem State.bump_now (o : Nat) (f : Fld) (n : Nat) : (s.bump o f n).now = s.now := State.setFld_now _ _ _ _
@[simp] theorem State.bump_shadow (o : Nat) (f : Fld) (n : Nat) : (s.bump o f n).shadow = s.shadow := State.setFld_shadow _ _ _ _
@[simp] theorem State.bump_latches (o : Nat) (f : Fld) (n : Nat) : (s.bump o f n).latches = s.latches := State.setFld_latches _ _ _ _
@[simp] theorem State.bump_pantry (o : Nat) (f : Fld) (n : Nat) : (s.bump o f n).pantry = s.pantry := State.setFld_pantry _ _ _ _
@[simp] theorem State.bump_pantryEcc (o : Nat) (f : Fld) (n : Nat) : (s.bump o f n).pantryEcc = s.pantryEcc := State.setFld_pantryEcc _ _ _ _
@[simp] theorem State.bump_scrubWrites (o : Nat) (f : Fld) (n : Nat) : (s.bump o f n).scrubWrites = s.scrubWrites := State.setFld_scrubWrites _ _ _ _
@[simp] theorem State.bump_code (o : Nat) (f : Fld) (n : Nat) : (s.bump o f n).code = s.code := State.setFld_code _ _ _ _
@[simp] theorem State.bump_codeEcc (o : Nat) (f : Fld) (n : Nat) : (s.bump o f n).codeEcc = s.codeEcc := State.setFld_codeEcc _ _ _ _
@[simp] theorem State.bump_tokOps (o : Nat) (f : Fld) (n : Nat) : (s.bump o f n).tokOps = s.tokOps := State.setFld_tokOps _ _ _ _
@[simp] theorem State.bump_lateWin (o : Nat) (f : Fld) (n : Nat) : (s.bump o f n).lateWin = s.lateWin := State.setFld_lateWin _ _ _ _
@[simp] theorem State.bump_twaits (o : Nat) (f : Fld) (n : Nat) : (s.bump o f n).twaits = s.twaits := State.setFld_twaits _ _ _ _
@[simp] theorem State.bump_runTime (o : Nat) (f : Fld) (n : Nat) : (s.bump o f n).runTime = s.runTime := State.setFld_runTime _ _ _ _
@[simp] theorem State.bump_waking (o : Nat) (f : Fld) (n : Nat) : (s.bump o f n).waking = s.waking := State.setFld_waking _ _ _ _
@[simp] theorem State.bump_sleepWant (o : Nat) (f : Fld) (n : Nat) : (s.bump o f n).sleepWant = s.sleepWant := State.setFld_sleepWant _ _ _ _
@[simp] theorem State.bump_wokeAt (o : Nat) (f : Fld) (n : Nat) : (s.bump o f n).wokeAt = s.wokeAt := State.setFld_wokeAt _ _ _ _
@[simp] theorem State.bump_acc (o : Nat) (f : Fld) (n : Nat) : (s.bump o f n).acc = s.acc := State.setFld_acc _ _ _ _
@[simp] theorem State.bump_accEcc (o : Nat) (f : Fld) (n : Nat) : (s.bump o f n).accEcc = s.accEcc := State.setFld_accEcc _ _ _ _
@[simp] theorem State.bump_tiles (o : Nat) (f : Fld) (n : Nat) : (s.bump o f n).tiles = s.tiles := State.setFld_tiles _ _ _ _
@[simp] theorem State.bump_engOps (o : Nat) (f : Fld) (n : Nat) : (s.bump o f n).engOps = s.engOps := State.setFld_engOps _ _ _ _
@[simp] theorem State.bump_engActive (o : Nat) (f : Fld) (n : Nat) : (s.bump o f n).engActive = s.engActive := State.setFld_engActive _ _ _ _
@[simp] theorem State.bump_engBad (o : Nat) (f : Fld) (n : Nat) : (s.bump o f n).engBad = s.engBad := State.setFld_engBad _ _ _ _
@[simp] theorem State.bump_vecOps (o : Nat) (f : Fld) (n : Nat) : (s.bump o f n).vecOps = s.vecOps := State.setFld_vecOps _ _ _ _
@[simp] theorem State.bump_fires (o : Nat) (f : Fld) (n : Nat) : (s.bump o f n).fires = s.fires := State.setFld_fires _ _ _ _
@[simp] theorem State.bump_outBufs (o : Nat) (f : Fld) (n : Nat) : (s.bump o f n).outBufs = s.outBufs := State.setFld_outBufs _ _ _ _
@[simp] theorem State.bump_winPends (o : Nat) (f : Fld) (n : Nat) : (s.bump o f n).winPends = s.winPends := State.setFld_winPends _ _ _ _
@[simp] theorem State.bump_sigWaits (o : Nat) (f : Fld) (n : Nat) : (s.bump o f n).sigWaits = s.sigWaits := State.setFld_sigWaits _ _ _ _
@[simp] theorem State.bump_sigOuts (o : Nat) (f : Fld) (n : Nat) : (s.bump o f n).sigOuts = s.sigOuts := State.setFld_sigOuts _ _ _ _
@[simp] theorem State.bump_net (o : Nat) (f : Fld) (n : Nat) : (s.bump o f n).net = s.net := State.setFld_net _ _ _ _
@[simp] theorem State.bump_pn (o : Nat) (f : Fld) (n : Nat) : (s.bump o f n).pn = s.pn := State.setFld_pn _ _ _ _
@[simp] theorem State.bump_cells (o : Nat) (f : Fld) (n : Nat) : (s.bump o f n).cells = s.cells := State.setFld_cells _ _ _ _
@[simp] theorem State.bump_scales (o : Nat) (f : Fld) (n : Nat) : (s.bump o f n).scales = s.scales := State.setFld_scales _ _ _ _
@[simp] theorem State.bump_wsums (o : Nat) (f : Fld) (n : Nat) : (s.bump o f n).wsums = s.wsums := State.setFld_wsums _ _ _ _
@[simp] theorem State.bump_dsums (o : Nat) (f : Fld) (n : Nat) : (s.bump o f n).dsums = s.dsums := State.setFld_dsums _ _ _ _
@[simp] theorem State.bump_rsums (o : Nat) (f : Fld) (n : Nat) : (s.bump o f n).rsums = s.rsums := State.setFld_rsums _ _ _ _
@[simp] theorem State.bump_spans (o : Nat) (f : Fld) (n : Nat) : (s.bump o f n).spans = s.spans := State.setFld_spans _ _ _ _
@[simp] theorem State.bump_labelEcc (o : Nat) (f : Fld) (n : Nat) : (s.bump o f n).labelEcc = s.labelEcc := State.setFld_labelEcc _ _ _ _
@[simp] theorem State.bump_testSums (o : Nat) (f : Fld) (n : Nat) : (s.bump o f n).testSums = s.testSums := State.setFld_testSums _ _ _ _
@[simp] theorem State.bump_envelopes (o : Nat) (f : Fld) (n : Nat) : (s.bump o f n).envelopes = s.envelopes := State.setFld_envelopes _ _ _ _
@[simp] theorem State.bump_colStats (o : Nat) (f : Fld) (n : Nat) : (s.bump o f n).colStats = s.colStats := State.setFld_colStats _ _ _ _
@[simp] theorem State.bump_binRecs (o : Nat) (f : Fld) (n : Nat) : (s.bump o f n).binRecs = s.binRecs := State.setFld_binRecs _ _ _ _
@[simp] theorem State.bump_rackRecs (o : Nat) (f : Fld) (n : Nat) : (s.bump o f n).rackRecs = s.rackRecs := State.setFld_rackRecs _ _ _ _
@[simp] theorem State.bump_binChecks (o : Nat) (f : Fld) (n : Nat) : (s.bump o f n).binChecks = s.binChecks := State.setFld_binChecks _ _ _ _
@[simp] theorem State.bump_driftActs (o : Nat) (f : Fld) (n : Nat) : (s.bump o f n).driftActs = s.driftActs := State.setFld_driftActs _ _ _ _
@[simp] theorem State.bump_refreshQ (o : Nat) (f : Fld) (n : Nat) : (s.bump o f n).refreshQ = s.refreshQ := State.setFld_refreshQ _ _ _ _
@[simp] theorem State.bump_refreshing (o : Nat) (f : Fld) (n : Nat) : (s.bump o f n).refreshing = s.refreshing := State.setFld_refreshing _ _ _ _
@[simp] theorem State.bump_autoRefresh (o : Nat) (f : Fld) (n : Nat) : (s.bump o f n).autoRefresh = s.autoRefresh := State.setFld_autoRefresh _ _ _ _
@[simp] theorem State.bump_hvRefresh (o : Nat) (f : Fld) (n : Nat) : (s.bump o f n).hvRefresh = s.hvRefresh := State.setFld_hvRefresh _ _ _ _
@[simp] theorem State.bump_quietAt (o : Nat) (f : Fld) (n : Nat) : (s.bump o f n).quietAt = s.quietAt := State.setFld_quietAt _ _ _ _
@[simp] theorem State.bump_driftLog (o : Nat) (f : Fld) (n : Nat) : (s.bump o f n).driftLog = s.driftLog := State.setFld_driftLog _ _ _ _
@[simp] theorem State.bump_errLog (o : Nat) (f : Fld) (n : Nat) : (s.bump o f n).errLog = s.errLog := State.setFld_errLog _ _ _ _
@[simp] theorem State.bump_thrLog (o : Nat) (f : Fld) (n : Nat) : (s.bump o f n).thrLog = s.thrLog := State.setFld_thrLog _ _ _ _
@[simp] theorem State.bump_wear (o : Nat) (f : Fld) (n : Nat) : (s.bump o f n).wear = s.wear := State.setFld_wear _ _ _ _
@[simp] theorem State.bump_binMap (o : Nat) (f : Fld) (n : Nat) : (s.bump o f n).binMap = s.binMap := State.setFld_binMap _ _ _ _
@[simp] theorem State.bump_thresholds (o : Nat) (f : Fld) (n : Nat) : (s.bump o f n).thresholds = s.thresholds := State.setFld_thresholds _ _ _ _
@[simp] theorem State.bump_threshBad (o : Nat) (f : Fld) (n : Nat) : (s.bump o f n).threshBad = s.threshBad := State.setFld_threshBad _ _ _ _
@[simp] theorem State.bump_tempTrim (o : Nat) (f : Fld) (n : Nat) : (s.bump o f n).tempTrim = s.tempTrim := State.setFld_tempTrim _ _ _ _
@[simp] theorem State.bump_trimTemp (o : Nat) (f : Fld) (n : Nat) : (s.bump o f n).trimTemp = s.trimTemp := State.setFld_trimTemp _ _ _ _
@[simp] theorem State.bump_tempOut (o : Nat) (f : Fld) (n : Nat) : (s.bump o f n).tempOut = s.tempOut := State.setFld_tempOut _ _ _ _
@[simp] theorem State.bump_actTests (o : Nat) (f : Fld) (n : Nat) : (s.bump o f n).actTests = s.actTests := State.setFld_actTests _ _ _ _
@[simp] theorem State.bump_actTestAt (o : Nat) (f : Fld) (n : Nat) : (s.bump o f n).actTestAt = s.actTestAt := State.setFld_actTestAt _ _ _ _
@[simp] theorem State.bump_ctxs (o : Nat) (f : Fld) (n : Nat) : (s.bump o f n).ctxs = s.ctxs := State.setFld_ctxs _ _ _ _
@[simp] theorem State.bump_passes (o : Nat) (f : Fld) (n : Nat) : (s.bump o f n).passes = s.passes := State.setFld_passes _ _ _ _
@[simp] theorem State.bump_trips (o : Nat) (f : Fld) (n : Nat) : (s.bump o f n).trips = s.trips := State.setFld_trips _ _ _ _
@[simp] theorem State.bump_normActs (o : Nat) (f : Fld) (n : Nat) : (s.bump o f n).normActs = s.normActs := State.setFld_normActs _ _ _ _
@[simp] theorem State.bump_outbox (o : Nat) (f : Fld) (n : Nat) : (s.bump o f n).outbox = s.outbox := State.setFld_outbox _ _ _ _
@[simp] theorem State.bump_claimQ (o : Nat) (f : Fld) (n : Nat) : (s.bump o f n).claimQ = s.claimQ := State.setFld_claimQ _ _ _ _
@[simp] theorem State.bump_power (o : Nat) (f : Fld) (n : Nat) : (s.bump o f n).power = s.power := State.setFld_power _ _ _ _
@[simp] theorem State.bump_routes (o : Nat) (f : Fld) (n : Nat) : (s.bump o f n).routes = s.routes := State.setFld_routes _ _ _ _
@[simp] theorem State.bump_routesKept (o : Nat) (f : Fld) (n : Nat) : (s.bump o f n).routesKept = s.routesKept := State.setFld_routesKept _ _ _ _
@[simp] theorem State.bump_ports (o : Nat) (f : Fld) (n : Nat) : (s.bump o f n).ports = s.ports := State.setFld_ports _ _ _ _
@[simp] theorem State.bump_answered (o : Nat) (f : Fld) (n : Nat) : (s.bump o f n).answered = s.answered := State.setFld_answered _ _ _ _
@[simp] theorem State.bump_slackIn (o : Nat) (f : Fld) (n : Nat) : (s.bump o f n).slackIn = s.slackIn := State.setFld_slackIn _ _ _ _
@[simp] theorem State.bump_slots (o : Nat) (f : Fld) (n : Nat) : (s.bump o f n).slots = s.slots := State.setFld_slots _ _ _ _
@[simp] theorem State.bump_parts (o : Nat) (f : Fld) (n : Nat) : (s.bump o f n).parts = s.parts := State.setFld_parts _ _ _ _
@[simp] theorem State.bump_layerKv (o : Nat) (f : Fld) (n : Nat) : (s.bump o f n).layerKv = s.layerKv := State.setFld_layerKv _ _ _ _
@[simp] theorem State.bump_standIns (o : Nat) (f : Fld) (n : Nat) : (s.bump o f n).standIns = s.standIns := State.setFld_standIns _ _ _ _
@[simp] theorem State.bump_kvHolds (o : Nat) (f : Fld) (n : Nat) : (s.bump o f n).kvHolds = s.kvHolds := State.setFld_kvHolds _ _ _ _
@[simp] theorem State.bump_kvReserves (o : Nat) (f : Fld) (n : Nat) : (s.bump o f n).kvReserves = s.kvReserves := State.setFld_kvReserves _ _ _ _
@[simp] theorem State.bump_kvSlots (o : Nat) (f : Fld) (n : Nat) : (s.bump o f n).kvSlots = s.kvSlots := State.setFld_kvSlots _ _ _ _
@[simp] theorem State.bump_bookSlots (o : Nat) (f : Fld) (n : Nat) : (s.bump o f n).bookSlots = s.bookSlots := State.setFld_bookSlots _ _ _ _
@[simp] theorem State.bump_kvOps (o : Nat) (f : Fld) (n : Nat) : (s.bump o f n).kvOps = s.kvOps := State.setFld_kvOps _ _ _ _
@[simp] theorem State.bump_loftFetches (o : Nat) (f : Fld) (n : Nat) : (s.bump o f n).loftFetches = s.loftFetches := State.setFld_loftFetches _ _ _ _
@[simp] theorem State.bump_spills (o : Nat) (f : Fld) (n : Nat) : (s.bump o f n).spills = s.spills := State.setFld_spills _ _ _ _
@[simp] theorem State.bump_recency (o : Nat) (f : Fld) (n : Nat) : (s.bump o f n).recency = s.recency := State.setFld_recency _ _ _ _
@[simp] theorem State.bump_loftClean (o : Nat) (f : Fld) (n : Nat) : (s.bump o f n).loftClean = s.loftClean := State.setFld_loftClean _ _ _ _
@[simp] theorem State.bump_digestDirty (o : Nat) (f : Fld) (n : Nat) : (s.bump o f n).digestDirty = s.digestDirty := State.setFld_digestDirty _ _ _ _
@[simp] theorem State.bump_tracked (o : Nat) (f : Fld) (n : Nat) : (s.bump o f n).tracked = s.tracked := State.setFld_tracked _ _ _ _
@[simp] theorem State.bump_biSent (o : Nat) (f : Fld) (n : Nat) : (s.bump o f n).biSent = s.biSent := State.setFld_biSent _ _ _ _
@[simp] theorem State.bump_biWant (o : Nat) (f : Fld) (n : Nat) : (s.bump o f n).biWant = s.biWant := State.setFld_biWant _ _ _ _
@[simp] theorem State.bump_reqs (o : Nat) (f : Fld) (n : Nat) : (s.bump o f n).reqs = s.reqs := State.setFld_reqs _ _ _ _
@[simp] theorem State.bump_notices (o : Nat) (f : Fld) (n : Nat) : (s.bump o f n).notices = s.notices := State.setFld_notices _ _ _ _
@[simp] theorem State.bump_queues (o : Nat) (f : Fld) (n : Nat) : (s.bump o f n).queues = s.queues := State.setFld_queues _ _ _ _
@[simp] theorem State.bump_host (o : Nat) (f : Fld) (n : Nat) : (s.bump o f n).host = s.host := State.setFld_host _ _ _ _
@[simp] theorem State.bump_binds (o : Nat) (f : Fld) (n : Nat) : (s.bump o f n).binds = s.binds := State.setFld_binds _ _ _ _
@[simp] theorem State.bump_blk (o : Nat) (f : Fld) (n : Nat) : (s.bump o f n).blk = s.blk := State.setFld_blk _ _ _ _
@[simp] theorem State.bump_inst (o : Nat) (f : Fld) (n : Nat) : (s.bump o f n).inst = s.inst := State.setFld_inst _ _ _ _
@[simp] theorem State.bump_faults (o : Nat) (f : Fld) (n : Nat) : (s.bump o f n).faults = s.faults := State.setFld_faults _ _ _ _
@[simp] theorem State.bump_sec (o : Nat) (f : Fld) (n : Nat) : (s.bump o f n).sec = s.sec := State.setFld_sec _ _ _ _

/-! `count` -/

@[simp] theorem State.count_pending (o n : Nat) : (s.count o n).pending = s.pending := State.wr_pending _ _ _
@[simp] theorem State.count_fresh (o n : Nat) : (s.count o n).fresh = s.fresh := State.wr_fresh _ _ _
@[simp] theorem State.count_nextId (o n : Nat) : (s.count o n).nextId = s.nextId := State.wr_nextId _ _ _
@[simp] theorem State.count_now (o n : Nat) : (s.count o n).now = s.now := State.wr_now _ _ _
@[simp] theorem State.count_shadow (o n : Nat) : (s.count o n).shadow = s.shadow := State.wr_shadow _ _ _
@[simp] theorem State.count_latches (o n : Nat) : (s.count o n).latches = s.latches := State.wr_latches _ _ _
@[simp] theorem State.count_pantry (o n : Nat) : (s.count o n).pantry = s.pantry := State.wr_pantry _ _ _
@[simp] theorem State.count_pantryEcc (o n : Nat) : (s.count o n).pantryEcc = s.pantryEcc := State.wr_pantryEcc _ _ _
@[simp] theorem State.count_scrubWrites (o n : Nat) : (s.count o n).scrubWrites = s.scrubWrites := State.wr_scrubWrites _ _ _
@[simp] theorem State.count_code (o n : Nat) : (s.count o n).code = s.code := State.wr_code _ _ _
@[simp] theorem State.count_codeEcc (o n : Nat) : (s.count o n).codeEcc = s.codeEcc := State.wr_codeEcc _ _ _
@[simp] theorem State.count_tokOps (o n : Nat) : (s.count o n).tokOps = s.tokOps := State.wr_tokOps _ _ _
@[simp] theorem State.count_lateWin (o n : Nat) : (s.count o n).lateWin = s.lateWin := State.wr_lateWin _ _ _
@[simp] theorem State.count_twaits (o n : Nat) : (s.count o n).twaits = s.twaits := State.wr_twaits _ _ _
@[simp] theorem State.count_runTime (o n : Nat) : (s.count o n).runTime = s.runTime := State.wr_runTime _ _ _
@[simp] theorem State.count_waking (o n : Nat) : (s.count o n).waking = s.waking := State.wr_waking _ _ _
@[simp] theorem State.count_sleepWant (o n : Nat) : (s.count o n).sleepWant = s.sleepWant := State.wr_sleepWant _ _ _
@[simp] theorem State.count_wokeAt (o n : Nat) : (s.count o n).wokeAt = s.wokeAt := State.wr_wokeAt _ _ _
@[simp] theorem State.count_acc (o n : Nat) : (s.count o n).acc = s.acc := State.wr_acc _ _ _
@[simp] theorem State.count_accEcc (o n : Nat) : (s.count o n).accEcc = s.accEcc := State.wr_accEcc _ _ _
@[simp] theorem State.count_tiles (o n : Nat) : (s.count o n).tiles = s.tiles := State.wr_tiles _ _ _
@[simp] theorem State.count_engOps (o n : Nat) : (s.count o n).engOps = s.engOps := State.wr_engOps _ _ _
@[simp] theorem State.count_engActive (o n : Nat) : (s.count o n).engActive = s.engActive := State.wr_engActive _ _ _
@[simp] theorem State.count_engBad (o n : Nat) : (s.count o n).engBad = s.engBad := State.wr_engBad _ _ _
@[simp] theorem State.count_vecOps (o n : Nat) : (s.count o n).vecOps = s.vecOps := State.wr_vecOps _ _ _
@[simp] theorem State.count_fires (o n : Nat) : (s.count o n).fires = s.fires := State.wr_fires _ _ _
@[simp] theorem State.count_outBufs (o n : Nat) : (s.count o n).outBufs = s.outBufs := State.wr_outBufs _ _ _
@[simp] theorem State.count_winPends (o n : Nat) : (s.count o n).winPends = s.winPends := State.wr_winPends _ _ _
@[simp] theorem State.count_sigWaits (o n : Nat) : (s.count o n).sigWaits = s.sigWaits := State.wr_sigWaits _ _ _
@[simp] theorem State.count_sigOuts (o n : Nat) : (s.count o n).sigOuts = s.sigOuts := State.wr_sigOuts _ _ _
@[simp] theorem State.count_net (o n : Nat) : (s.count o n).net = s.net := State.wr_net _ _ _
@[simp] theorem State.count_pn (o n : Nat) : (s.count o n).pn = s.pn := State.wr_pn _ _ _
@[simp] theorem State.count_cells (o n : Nat) : (s.count o n).cells = s.cells := State.wr_cells _ _ _
@[simp] theorem State.count_scales (o n : Nat) : (s.count o n).scales = s.scales := State.wr_scales _ _ _
@[simp] theorem State.count_wsums (o n : Nat) : (s.count o n).wsums = s.wsums := State.wr_wsums _ _ _
@[simp] theorem State.count_dsums (o n : Nat) : (s.count o n).dsums = s.dsums := State.wr_dsums _ _ _
@[simp] theorem State.count_rsums (o n : Nat) : (s.count o n).rsums = s.rsums := State.wr_rsums _ _ _
@[simp] theorem State.count_spans (o n : Nat) : (s.count o n).spans = s.spans := State.wr_spans _ _ _
@[simp] theorem State.count_labelEcc (o n : Nat) : (s.count o n).labelEcc = s.labelEcc := State.wr_labelEcc _ _ _
@[simp] theorem State.count_testSums (o n : Nat) : (s.count o n).testSums = s.testSums := State.wr_testSums _ _ _
@[simp] theorem State.count_envelopes (o n : Nat) : (s.count o n).envelopes = s.envelopes := State.wr_envelopes _ _ _
@[simp] theorem State.count_colStats (o n : Nat) : (s.count o n).colStats = s.colStats := State.wr_colStats _ _ _
@[simp] theorem State.count_binRecs (o n : Nat) : (s.count o n).binRecs = s.binRecs := State.wr_binRecs _ _ _
@[simp] theorem State.count_rackRecs (o n : Nat) : (s.count o n).rackRecs = s.rackRecs := State.wr_rackRecs _ _ _
@[simp] theorem State.count_binChecks (o n : Nat) : (s.count o n).binChecks = s.binChecks := State.wr_binChecks _ _ _
@[simp] theorem State.count_driftActs (o n : Nat) : (s.count o n).driftActs = s.driftActs := State.wr_driftActs _ _ _
@[simp] theorem State.count_refreshQ (o n : Nat) : (s.count o n).refreshQ = s.refreshQ := State.wr_refreshQ _ _ _
@[simp] theorem State.count_refreshing (o n : Nat) : (s.count o n).refreshing = s.refreshing := State.wr_refreshing _ _ _
@[simp] theorem State.count_autoRefresh (o n : Nat) : (s.count o n).autoRefresh = s.autoRefresh := State.wr_autoRefresh _ _ _
@[simp] theorem State.count_hvRefresh (o n : Nat) : (s.count o n).hvRefresh = s.hvRefresh := State.wr_hvRefresh _ _ _
@[simp] theorem State.count_quietAt (o n : Nat) : (s.count o n).quietAt = s.quietAt := State.wr_quietAt _ _ _
@[simp] theorem State.count_driftLog (o n : Nat) : (s.count o n).driftLog = s.driftLog := State.wr_driftLog _ _ _
@[simp] theorem State.count_errLog (o n : Nat) : (s.count o n).errLog = s.errLog := State.wr_errLog _ _ _
@[simp] theorem State.count_thrLog (o n : Nat) : (s.count o n).thrLog = s.thrLog := State.wr_thrLog _ _ _
@[simp] theorem State.count_wear (o n : Nat) : (s.count o n).wear = s.wear := State.wr_wear _ _ _
@[simp] theorem State.count_binMap (o n : Nat) : (s.count o n).binMap = s.binMap := State.wr_binMap _ _ _
@[simp] theorem State.count_thresholds (o n : Nat) : (s.count o n).thresholds = s.thresholds := State.wr_thresholds _ _ _
@[simp] theorem State.count_threshBad (o n : Nat) : (s.count o n).threshBad = s.threshBad := State.wr_threshBad _ _ _
@[simp] theorem State.count_tempTrim (o n : Nat) : (s.count o n).tempTrim = s.tempTrim := State.wr_tempTrim _ _ _
@[simp] theorem State.count_trimTemp (o n : Nat) : (s.count o n).trimTemp = s.trimTemp := State.wr_trimTemp _ _ _
@[simp] theorem State.count_tempOut (o n : Nat) : (s.count o n).tempOut = s.tempOut := State.wr_tempOut _ _ _
@[simp] theorem State.count_actTests (o n : Nat) : (s.count o n).actTests = s.actTests := State.wr_actTests _ _ _
@[simp] theorem State.count_actTestAt (o n : Nat) : (s.count o n).actTestAt = s.actTestAt := State.wr_actTestAt _ _ _
@[simp] theorem State.count_ctxs (o n : Nat) : (s.count o n).ctxs = s.ctxs := State.wr_ctxs _ _ _
@[simp] theorem State.count_passes (o n : Nat) : (s.count o n).passes = s.passes := State.wr_passes _ _ _
@[simp] theorem State.count_trips (o n : Nat) : (s.count o n).trips = s.trips := State.wr_trips _ _ _
@[simp] theorem State.count_normActs (o n : Nat) : (s.count o n).normActs = s.normActs := State.wr_normActs _ _ _
@[simp] theorem State.count_outbox (o n : Nat) : (s.count o n).outbox = s.outbox := State.wr_outbox _ _ _
@[simp] theorem State.count_claimQ (o n : Nat) : (s.count o n).claimQ = s.claimQ := State.wr_claimQ _ _ _
@[simp] theorem State.count_power (o n : Nat) : (s.count o n).power = s.power := State.wr_power _ _ _
@[simp] theorem State.count_routes (o n : Nat) : (s.count o n).routes = s.routes := State.wr_routes _ _ _
@[simp] theorem State.count_routesKept (o n : Nat) : (s.count o n).routesKept = s.routesKept := State.wr_routesKept _ _ _
@[simp] theorem State.count_ports (o n : Nat) : (s.count o n).ports = s.ports := State.wr_ports _ _ _
@[simp] theorem State.count_answered (o n : Nat) : (s.count o n).answered = s.answered := State.wr_answered _ _ _
@[simp] theorem State.count_slackIn (o n : Nat) : (s.count o n).slackIn = s.slackIn := State.wr_slackIn _ _ _
@[simp] theorem State.count_slots (o n : Nat) : (s.count o n).slots = s.slots := State.wr_slots _ _ _
@[simp] theorem State.count_parts (o n : Nat) : (s.count o n).parts = s.parts := State.wr_parts _ _ _
@[simp] theorem State.count_layerKv (o n : Nat) : (s.count o n).layerKv = s.layerKv := State.wr_layerKv _ _ _
@[simp] theorem State.count_standIns (o n : Nat) : (s.count o n).standIns = s.standIns := State.wr_standIns _ _ _
@[simp] theorem State.count_kvHolds (o n : Nat) : (s.count o n).kvHolds = s.kvHolds := State.wr_kvHolds _ _ _
@[simp] theorem State.count_kvReserves (o n : Nat) : (s.count o n).kvReserves = s.kvReserves := State.wr_kvReserves _ _ _
@[simp] theorem State.count_kvSlots (o n : Nat) : (s.count o n).kvSlots = s.kvSlots := State.wr_kvSlots _ _ _
@[simp] theorem State.count_bookSlots (o n : Nat) : (s.count o n).bookSlots = s.bookSlots := State.wr_bookSlots _ _ _
@[simp] theorem State.count_kvOps (o n : Nat) : (s.count o n).kvOps = s.kvOps := State.wr_kvOps _ _ _
@[simp] theorem State.count_loftFetches (o n : Nat) : (s.count o n).loftFetches = s.loftFetches := State.wr_loftFetches _ _ _
@[simp] theorem State.count_spills (o n : Nat) : (s.count o n).spills = s.spills := State.wr_spills _ _ _
@[simp] theorem State.count_recency (o n : Nat) : (s.count o n).recency = s.recency := State.wr_recency _ _ _
@[simp] theorem State.count_loftClean (o n : Nat) : (s.count o n).loftClean = s.loftClean := State.wr_loftClean _ _ _
@[simp] theorem State.count_digestDirty (o n : Nat) : (s.count o n).digestDirty = s.digestDirty := State.wr_digestDirty _ _ _
@[simp] theorem State.count_tracked (o n : Nat) : (s.count o n).tracked = s.tracked := State.wr_tracked _ _ _
@[simp] theorem State.count_biSent (o n : Nat) : (s.count o n).biSent = s.biSent := State.wr_biSent _ _ _
@[simp] theorem State.count_biWant (o n : Nat) : (s.count o n).biWant = s.biWant := State.wr_biWant _ _ _
@[simp] theorem State.count_reqs (o n : Nat) : (s.count o n).reqs = s.reqs := State.wr_reqs _ _ _
@[simp] theorem State.count_notices (o n : Nat) : (s.count o n).notices = s.notices := State.wr_notices _ _ _
@[simp] theorem State.count_queues (o n : Nat) : (s.count o n).queues = s.queues := State.wr_queues _ _ _
@[simp] theorem State.count_host (o n : Nat) : (s.count o n).host = s.host := State.wr_host _ _ _
@[simp] theorem State.count_binds (o n : Nat) : (s.count o n).binds = s.binds := State.wr_binds _ _ _
@[simp] theorem State.count_blk (o n : Nat) : (s.count o n).blk = s.blk := State.wr_blk _ _ _
@[simp] theorem State.count_inst (o n : Nat) : (s.count o n).inst = s.inst := State.wr_inst _ _ _
@[simp] theorem State.count_faults (o n : Nat) : (s.count o n).faults = s.faults := State.wr_faults _ _ _
@[simp] theorem State.count_sec (o n : Nat) : (s.count o n).sec = s.sec := State.wr_sec _ _ _

/-! `drew` -/

@[simp] theorem State.drew_pending : (s.drew).pending = s.pending := (rfl)
@[simp] theorem State.drew_nextId : (s.drew).nextId = s.nextId := (rfl)
@[simp] theorem State.drew_now : (s.drew).now = s.now := (rfl)
@[simp] theorem State.drew_regs : (s.drew).regs = s.regs := (rfl)
@[simp] theorem State.drew_shadow : (s.drew).shadow = s.shadow := (rfl)
@[simp] theorem State.drew_latches : (s.drew).latches = s.latches := (rfl)
@[simp] theorem State.drew_pantry : (s.drew).pantry = s.pantry := (rfl)
@[simp] theorem State.drew_pantryEcc : (s.drew).pantryEcc = s.pantryEcc := (rfl)
@[simp] theorem State.drew_scrubWrites : (s.drew).scrubWrites = s.scrubWrites := (rfl)
@[simp] theorem State.drew_code : (s.drew).code = s.code := (rfl)
@[simp] theorem State.drew_codeEcc : (s.drew).codeEcc = s.codeEcc := (rfl)
@[simp] theorem State.drew_tokOps : (s.drew).tokOps = s.tokOps := (rfl)
@[simp] theorem State.drew_lateWin : (s.drew).lateWin = s.lateWin := (rfl)
@[simp] theorem State.drew_twaits : (s.drew).twaits = s.twaits := (rfl)
@[simp] theorem State.drew_runTime : (s.drew).runTime = s.runTime := (rfl)
@[simp] theorem State.drew_waking : (s.drew).waking = s.waking := (rfl)
@[simp] theorem State.drew_sleepWant : (s.drew).sleepWant = s.sleepWant := (rfl)
@[simp] theorem State.drew_wokeAt : (s.drew).wokeAt = s.wokeAt := (rfl)
@[simp] theorem State.drew_acc : (s.drew).acc = s.acc := (rfl)
@[simp] theorem State.drew_accEcc : (s.drew).accEcc = s.accEcc := (rfl)
@[simp] theorem State.drew_tiles : (s.drew).tiles = s.tiles := (rfl)
@[simp] theorem State.drew_engOps : (s.drew).engOps = s.engOps := (rfl)
@[simp] theorem State.drew_engActive : (s.drew).engActive = s.engActive := (rfl)
@[simp] theorem State.drew_engBad : (s.drew).engBad = s.engBad := (rfl)
@[simp] theorem State.drew_vecOps : (s.drew).vecOps = s.vecOps := (rfl)
@[simp] theorem State.drew_fires : (s.drew).fires = s.fires := (rfl)
@[simp] theorem State.drew_outBufs : (s.drew).outBufs = s.outBufs := (rfl)
@[simp] theorem State.drew_winPends : (s.drew).winPends = s.winPends := (rfl)
@[simp] theorem State.drew_sigWaits : (s.drew).sigWaits = s.sigWaits := (rfl)
@[simp] theorem State.drew_sigOuts : (s.drew).sigOuts = s.sigOuts := (rfl)
@[simp] theorem State.drew_net : (s.drew).net = s.net := (rfl)
@[simp] theorem State.drew_pn : (s.drew).pn = s.pn := (rfl)
@[simp] theorem State.drew_cells : (s.drew).cells = s.cells := (rfl)
@[simp] theorem State.drew_scales : (s.drew).scales = s.scales := (rfl)
@[simp] theorem State.drew_wsums : (s.drew).wsums = s.wsums := (rfl)
@[simp] theorem State.drew_dsums : (s.drew).dsums = s.dsums := (rfl)
@[simp] theorem State.drew_rsums : (s.drew).rsums = s.rsums := (rfl)
@[simp] theorem State.drew_spans : (s.drew).spans = s.spans := (rfl)
@[simp] theorem State.drew_labelEcc : (s.drew).labelEcc = s.labelEcc := (rfl)
@[simp] theorem State.drew_testSums : (s.drew).testSums = s.testSums := (rfl)
@[simp] theorem State.drew_envelopes : (s.drew).envelopes = s.envelopes := (rfl)
@[simp] theorem State.drew_colStats : (s.drew).colStats = s.colStats := (rfl)
@[simp] theorem State.drew_binRecs : (s.drew).binRecs = s.binRecs := (rfl)
@[simp] theorem State.drew_rackRecs : (s.drew).rackRecs = s.rackRecs := (rfl)
@[simp] theorem State.drew_binChecks : (s.drew).binChecks = s.binChecks := (rfl)
@[simp] theorem State.drew_driftActs : (s.drew).driftActs = s.driftActs := (rfl)
@[simp] theorem State.drew_refreshQ : (s.drew).refreshQ = s.refreshQ := (rfl)
@[simp] theorem State.drew_refreshing : (s.drew).refreshing = s.refreshing := (rfl)
@[simp] theorem State.drew_autoRefresh : (s.drew).autoRefresh = s.autoRefresh := (rfl)
@[simp] theorem State.drew_hvRefresh : (s.drew).hvRefresh = s.hvRefresh := (rfl)
@[simp] theorem State.drew_quietAt : (s.drew).quietAt = s.quietAt := (rfl)
@[simp] theorem State.drew_driftLog : (s.drew).driftLog = s.driftLog := (rfl)
@[simp] theorem State.drew_errLog : (s.drew).errLog = s.errLog := (rfl)
@[simp] theorem State.drew_thrLog : (s.drew).thrLog = s.thrLog := (rfl)
@[simp] theorem State.drew_wear : (s.drew).wear = s.wear := (rfl)
@[simp] theorem State.drew_binMap : (s.drew).binMap = s.binMap := (rfl)
@[simp] theorem State.drew_thresholds : (s.drew).thresholds = s.thresholds := (rfl)
@[simp] theorem State.drew_threshBad : (s.drew).threshBad = s.threshBad := (rfl)
@[simp] theorem State.drew_tempTrim : (s.drew).tempTrim = s.tempTrim := (rfl)
@[simp] theorem State.drew_trimTemp : (s.drew).trimTemp = s.trimTemp := (rfl)
@[simp] theorem State.drew_tempOut : (s.drew).tempOut = s.tempOut := (rfl)
@[simp] theorem State.drew_actTests : (s.drew).actTests = s.actTests := (rfl)
@[simp] theorem State.drew_actTestAt : (s.drew).actTestAt = s.actTestAt := (rfl)
@[simp] theorem State.drew_ctxs : (s.drew).ctxs = s.ctxs := (rfl)
@[simp] theorem State.drew_passes : (s.drew).passes = s.passes := (rfl)
@[simp] theorem State.drew_trips : (s.drew).trips = s.trips := (rfl)
@[simp] theorem State.drew_normActs : (s.drew).normActs = s.normActs := (rfl)
@[simp] theorem State.drew_outbox : (s.drew).outbox = s.outbox := (rfl)
@[simp] theorem State.drew_claimQ : (s.drew).claimQ = s.claimQ := (rfl)
@[simp] theorem State.drew_power : (s.drew).power = s.power := (rfl)
@[simp] theorem State.drew_routes : (s.drew).routes = s.routes := (rfl)
@[simp] theorem State.drew_routesKept : (s.drew).routesKept = s.routesKept := (rfl)
@[simp] theorem State.drew_ports : (s.drew).ports = s.ports := (rfl)
@[simp] theorem State.drew_answered : (s.drew).answered = s.answered := (rfl)
@[simp] theorem State.drew_slackIn : (s.drew).slackIn = s.slackIn := (rfl)
@[simp] theorem State.drew_slots : (s.drew).slots = s.slots := (rfl)
@[simp] theorem State.drew_parts : (s.drew).parts = s.parts := (rfl)
@[simp] theorem State.drew_layerKv : (s.drew).layerKv = s.layerKv := (rfl)
@[simp] theorem State.drew_standIns : (s.drew).standIns = s.standIns := (rfl)
@[simp] theorem State.drew_kvHolds : (s.drew).kvHolds = s.kvHolds := (rfl)
@[simp] theorem State.drew_kvReserves : (s.drew).kvReserves = s.kvReserves := (rfl)
@[simp] theorem State.drew_kvSlots : (s.drew).kvSlots = s.kvSlots := (rfl)
@[simp] theorem State.drew_bookSlots : (s.drew).bookSlots = s.bookSlots := (rfl)
@[simp] theorem State.drew_kvOps : (s.drew).kvOps = s.kvOps := (rfl)
@[simp] theorem State.drew_loftFetches : (s.drew).loftFetches = s.loftFetches := (rfl)
@[simp] theorem State.drew_spills : (s.drew).spills = s.spills := (rfl)
@[simp] theorem State.drew_recency : (s.drew).recency = s.recency := (rfl)
@[simp] theorem State.drew_loftClean : (s.drew).loftClean = s.loftClean := (rfl)
@[simp] theorem State.drew_digestDirty : (s.drew).digestDirty = s.digestDirty := (rfl)
@[simp] theorem State.drew_tracked : (s.drew).tracked = s.tracked := (rfl)
@[simp] theorem State.drew_biSent : (s.drew).biSent = s.biSent := (rfl)
@[simp] theorem State.drew_biWant : (s.drew).biWant = s.biWant := (rfl)
@[simp] theorem State.drew_reqs : (s.drew).reqs = s.reqs := (rfl)
@[simp] theorem State.drew_notices : (s.drew).notices = s.notices := (rfl)
@[simp] theorem State.drew_queues : (s.drew).queues = s.queues := (rfl)
@[simp] theorem State.drew_host : (s.drew).host = s.host := (rfl)
@[simp] theorem State.drew_binds : (s.drew).binds = s.binds := (rfl)
@[simp] theorem State.drew_blk : (s.drew).blk = s.blk := (rfl)
@[simp] theorem State.drew_inst : (s.drew).inst = s.inst := (rfl)
@[simp] theorem State.drew_faults : (s.drew).faults = s.faults := (rfl)
@[simp] theorem State.drew_sec : (s.drew).sec = s.sec := (rfl)

/-! `emit` -/

@[simp] theorem State.emit_pending (m : OutMsg) : (s.emit m).pending = s.pending := (rfl)
@[simp] theorem State.emit_fresh (m : OutMsg) : (s.emit m).fresh = s.fresh := (rfl)
@[simp] theorem State.emit_nextId (m : OutMsg) : (s.emit m).nextId = s.nextId := (rfl)
@[simp] theorem State.emit_now (m : OutMsg) : (s.emit m).now = s.now := (rfl)
@[simp] theorem State.emit_regs (m : OutMsg) : (s.emit m).regs = s.regs := (rfl)
@[simp] theorem State.emit_shadow (m : OutMsg) : (s.emit m).shadow = s.shadow := (rfl)
@[simp] theorem State.emit_latches (m : OutMsg) : (s.emit m).latches = s.latches := (rfl)
@[simp] theorem State.emit_pantry (m : OutMsg) : (s.emit m).pantry = s.pantry := (rfl)
@[simp] theorem State.emit_pantryEcc (m : OutMsg) : (s.emit m).pantryEcc = s.pantryEcc := (rfl)
@[simp] theorem State.emit_scrubWrites (m : OutMsg) : (s.emit m).scrubWrites = s.scrubWrites := (rfl)
@[simp] theorem State.emit_code (m : OutMsg) : (s.emit m).code = s.code := (rfl)
@[simp] theorem State.emit_codeEcc (m : OutMsg) : (s.emit m).codeEcc = s.codeEcc := (rfl)
@[simp] theorem State.emit_tokOps (m : OutMsg) : (s.emit m).tokOps = s.tokOps := (rfl)
@[simp] theorem State.emit_lateWin (m : OutMsg) : (s.emit m).lateWin = s.lateWin := (rfl)
@[simp] theorem State.emit_twaits (m : OutMsg) : (s.emit m).twaits = s.twaits := (rfl)
@[simp] theorem State.emit_runTime (m : OutMsg) : (s.emit m).runTime = s.runTime := (rfl)
@[simp] theorem State.emit_waking (m : OutMsg) : (s.emit m).waking = s.waking := (rfl)
@[simp] theorem State.emit_sleepWant (m : OutMsg) : (s.emit m).sleepWant = s.sleepWant := (rfl)
@[simp] theorem State.emit_wokeAt (m : OutMsg) : (s.emit m).wokeAt = s.wokeAt := (rfl)
@[simp] theorem State.emit_acc (m : OutMsg) : (s.emit m).acc = s.acc := (rfl)
@[simp] theorem State.emit_accEcc (m : OutMsg) : (s.emit m).accEcc = s.accEcc := (rfl)
@[simp] theorem State.emit_tiles (m : OutMsg) : (s.emit m).tiles = s.tiles := (rfl)
@[simp] theorem State.emit_engOps (m : OutMsg) : (s.emit m).engOps = s.engOps := (rfl)
@[simp] theorem State.emit_engActive (m : OutMsg) : (s.emit m).engActive = s.engActive := (rfl)
@[simp] theorem State.emit_engBad (m : OutMsg) : (s.emit m).engBad = s.engBad := (rfl)
@[simp] theorem State.emit_vecOps (m : OutMsg) : (s.emit m).vecOps = s.vecOps := (rfl)
@[simp] theorem State.emit_fires (m : OutMsg) : (s.emit m).fires = s.fires := (rfl)
@[simp] theorem State.emit_outBufs (m : OutMsg) : (s.emit m).outBufs = s.outBufs := (rfl)
@[simp] theorem State.emit_winPends (m : OutMsg) : (s.emit m).winPends = s.winPends := (rfl)
@[simp] theorem State.emit_sigWaits (m : OutMsg) : (s.emit m).sigWaits = s.sigWaits := (rfl)
@[simp] theorem State.emit_sigOuts (m : OutMsg) : (s.emit m).sigOuts = s.sigOuts := (rfl)
@[simp] theorem State.emit_net (m : OutMsg) : (s.emit m).net = s.net := (rfl)
@[simp] theorem State.emit_pn (m : OutMsg) : (s.emit m).pn = s.pn := (rfl)
@[simp] theorem State.emit_cells (m : OutMsg) : (s.emit m).cells = s.cells := (rfl)
@[simp] theorem State.emit_scales (m : OutMsg) : (s.emit m).scales = s.scales := (rfl)
@[simp] theorem State.emit_wsums (m : OutMsg) : (s.emit m).wsums = s.wsums := (rfl)
@[simp] theorem State.emit_dsums (m : OutMsg) : (s.emit m).dsums = s.dsums := (rfl)
@[simp] theorem State.emit_rsums (m : OutMsg) : (s.emit m).rsums = s.rsums := (rfl)
@[simp] theorem State.emit_spans (m : OutMsg) : (s.emit m).spans = s.spans := (rfl)
@[simp] theorem State.emit_labelEcc (m : OutMsg) : (s.emit m).labelEcc = s.labelEcc := (rfl)
@[simp] theorem State.emit_testSums (m : OutMsg) : (s.emit m).testSums = s.testSums := (rfl)
@[simp] theorem State.emit_envelopes (m : OutMsg) : (s.emit m).envelopes = s.envelopes := (rfl)
@[simp] theorem State.emit_colStats (m : OutMsg) : (s.emit m).colStats = s.colStats := (rfl)
@[simp] theorem State.emit_binRecs (m : OutMsg) : (s.emit m).binRecs = s.binRecs := (rfl)
@[simp] theorem State.emit_rackRecs (m : OutMsg) : (s.emit m).rackRecs = s.rackRecs := (rfl)
@[simp] theorem State.emit_binChecks (m : OutMsg) : (s.emit m).binChecks = s.binChecks := (rfl)
@[simp] theorem State.emit_driftActs (m : OutMsg) : (s.emit m).driftActs = s.driftActs := (rfl)
@[simp] theorem State.emit_refreshQ (m : OutMsg) : (s.emit m).refreshQ = s.refreshQ := (rfl)
@[simp] theorem State.emit_refreshing (m : OutMsg) : (s.emit m).refreshing = s.refreshing := (rfl)
@[simp] theorem State.emit_autoRefresh (m : OutMsg) : (s.emit m).autoRefresh = s.autoRefresh := (rfl)
@[simp] theorem State.emit_hvRefresh (m : OutMsg) : (s.emit m).hvRefresh = s.hvRefresh := (rfl)
@[simp] theorem State.emit_quietAt (m : OutMsg) : (s.emit m).quietAt = s.quietAt := (rfl)
@[simp] theorem State.emit_driftLog (m : OutMsg) : (s.emit m).driftLog = s.driftLog := (rfl)
@[simp] theorem State.emit_errLog (m : OutMsg) : (s.emit m).errLog = s.errLog := (rfl)
@[simp] theorem State.emit_thrLog (m : OutMsg) : (s.emit m).thrLog = s.thrLog := (rfl)
@[simp] theorem State.emit_wear (m : OutMsg) : (s.emit m).wear = s.wear := (rfl)
@[simp] theorem State.emit_binMap (m : OutMsg) : (s.emit m).binMap = s.binMap := (rfl)
@[simp] theorem State.emit_thresholds (m : OutMsg) : (s.emit m).thresholds = s.thresholds := (rfl)
@[simp] theorem State.emit_threshBad (m : OutMsg) : (s.emit m).threshBad = s.threshBad := (rfl)
@[simp] theorem State.emit_tempTrim (m : OutMsg) : (s.emit m).tempTrim = s.tempTrim := (rfl)
@[simp] theorem State.emit_trimTemp (m : OutMsg) : (s.emit m).trimTemp = s.trimTemp := (rfl)
@[simp] theorem State.emit_tempOut (m : OutMsg) : (s.emit m).tempOut = s.tempOut := (rfl)
@[simp] theorem State.emit_actTests (m : OutMsg) : (s.emit m).actTests = s.actTests := (rfl)
@[simp] theorem State.emit_actTestAt (m : OutMsg) : (s.emit m).actTestAt = s.actTestAt := (rfl)
@[simp] theorem State.emit_ctxs (m : OutMsg) : (s.emit m).ctxs = s.ctxs := (rfl)
@[simp] theorem State.emit_passes (m : OutMsg) : (s.emit m).passes = s.passes := (rfl)
@[simp] theorem State.emit_trips (m : OutMsg) : (s.emit m).trips = s.trips := (rfl)
@[simp] theorem State.emit_normActs (m : OutMsg) : (s.emit m).normActs = s.normActs := (rfl)
@[simp] theorem State.emit_claimQ (m : OutMsg) : (s.emit m).claimQ = s.claimQ := (rfl)
@[simp] theorem State.emit_power (m : OutMsg) : (s.emit m).power = s.power := (rfl)
@[simp] theorem State.emit_routes (m : OutMsg) : (s.emit m).routes = s.routes := (rfl)
@[simp] theorem State.emit_routesKept (m : OutMsg) : (s.emit m).routesKept = s.routesKept := (rfl)
@[simp] theorem State.emit_ports (m : OutMsg) : (s.emit m).ports = s.ports := (rfl)
@[simp] theorem State.emit_answered (m : OutMsg) : (s.emit m).answered = s.answered := (rfl)
@[simp] theorem State.emit_slackIn (m : OutMsg) : (s.emit m).slackIn = s.slackIn := (rfl)
@[simp] theorem State.emit_slots (m : OutMsg) : (s.emit m).slots = s.slots := (rfl)
@[simp] theorem State.emit_parts (m : OutMsg) : (s.emit m).parts = s.parts := (rfl)
@[simp] theorem State.emit_layerKv (m : OutMsg) : (s.emit m).layerKv = s.layerKv := (rfl)
@[simp] theorem State.emit_standIns (m : OutMsg) : (s.emit m).standIns = s.standIns := (rfl)
@[simp] theorem State.emit_kvHolds (m : OutMsg) : (s.emit m).kvHolds = s.kvHolds := (rfl)
@[simp] theorem State.emit_kvReserves (m : OutMsg) : (s.emit m).kvReserves = s.kvReserves := (rfl)
@[simp] theorem State.emit_kvSlots (m : OutMsg) : (s.emit m).kvSlots = s.kvSlots := (rfl)
@[simp] theorem State.emit_bookSlots (m : OutMsg) : (s.emit m).bookSlots = s.bookSlots := (rfl)
@[simp] theorem State.emit_kvOps (m : OutMsg) : (s.emit m).kvOps = s.kvOps := (rfl)
@[simp] theorem State.emit_loftFetches (m : OutMsg) : (s.emit m).loftFetches = s.loftFetches := (rfl)
@[simp] theorem State.emit_spills (m : OutMsg) : (s.emit m).spills = s.spills := (rfl)
@[simp] theorem State.emit_recency (m : OutMsg) : (s.emit m).recency = s.recency := (rfl)
@[simp] theorem State.emit_loftClean (m : OutMsg) : (s.emit m).loftClean = s.loftClean := (rfl)
@[simp] theorem State.emit_digestDirty (m : OutMsg) : (s.emit m).digestDirty = s.digestDirty := (rfl)
@[simp] theorem State.emit_tracked (m : OutMsg) : (s.emit m).tracked = s.tracked := (rfl)
@[simp] theorem State.emit_biSent (m : OutMsg) : (s.emit m).biSent = s.biSent := (rfl)
@[simp] theorem State.emit_biWant (m : OutMsg) : (s.emit m).biWant = s.biWant := (rfl)
@[simp] theorem State.emit_reqs (m : OutMsg) : (s.emit m).reqs = s.reqs := (rfl)
@[simp] theorem State.emit_notices (m : OutMsg) : (s.emit m).notices = s.notices := (rfl)
@[simp] theorem State.emit_queues (m : OutMsg) : (s.emit m).queues = s.queues := (rfl)
@[simp] theorem State.emit_host (m : OutMsg) : (s.emit m).host = s.host := (rfl)
@[simp] theorem State.emit_binds (m : OutMsg) : (s.emit m).binds = s.binds := (rfl)
@[simp] theorem State.emit_blk (m : OutMsg) : (s.emit m).blk = s.blk := (rfl)
@[simp] theorem State.emit_inst (m : OutMsg) : (s.emit m).inst = s.inst := (rfl)
@[simp] theorem State.emit_faults (m : OutMsg) : (s.emit m).faults = s.faults := (rfl)
@[simp] theorem State.emit_sec (m : OutMsg) : (s.emit m).sec = s.sec := (rfl)

/-! `setSleep` -/

@[simp] theorem State.setSleep_pending (c x : Nat) : (s.setSleep c x).pending = s.pending := State.setFld_pending _ _ _ _
@[simp] theorem State.setSleep_fresh (c x : Nat) : (s.setSleep c x).fresh = s.fresh := State.setFld_fresh _ _ _ _
@[simp] theorem State.setSleep_nextId (c x : Nat) : (s.setSleep c x).nextId = s.nextId := State.setFld_nextId _ _ _ _
@[simp] theorem State.setSleep_now (c x : Nat) : (s.setSleep c x).now = s.now := State.setFld_now _ _ _ _
@[simp] theorem State.setSleep_shadow (c x : Nat) : (s.setSleep c x).shadow = s.shadow := State.setFld_shadow _ _ _ _
@[simp] theorem State.setSleep_latches (c x : Nat) : (s.setSleep c x).latches = s.latches := State.setFld_latches _ _ _ _
@[simp] theorem State.setSleep_pantry (c x : Nat) : (s.setSleep c x).pantry = s.pantry := State.setFld_pantry _ _ _ _
@[simp] theorem State.setSleep_pantryEcc (c x : Nat) : (s.setSleep c x).pantryEcc = s.pantryEcc := State.setFld_pantryEcc _ _ _ _
@[simp] theorem State.setSleep_scrubWrites (c x : Nat) : (s.setSleep c x).scrubWrites = s.scrubWrites := State.setFld_scrubWrites _ _ _ _
@[simp] theorem State.setSleep_code (c x : Nat) : (s.setSleep c x).code = s.code := State.setFld_code _ _ _ _
@[simp] theorem State.setSleep_codeEcc (c x : Nat) : (s.setSleep c x).codeEcc = s.codeEcc := State.setFld_codeEcc _ _ _ _
@[simp] theorem State.setSleep_tokOps (c x : Nat) : (s.setSleep c x).tokOps = s.tokOps := State.setFld_tokOps _ _ _ _
@[simp] theorem State.setSleep_lateWin (c x : Nat) : (s.setSleep c x).lateWin = s.lateWin := State.setFld_lateWin _ _ _ _
@[simp] theorem State.setSleep_twaits (c x : Nat) : (s.setSleep c x).twaits = s.twaits := State.setFld_twaits _ _ _ _
@[simp] theorem State.setSleep_runTime (c x : Nat) : (s.setSleep c x).runTime = s.runTime := State.setFld_runTime _ _ _ _
@[simp] theorem State.setSleep_waking (c x : Nat) : (s.setSleep c x).waking = s.waking := State.setFld_waking _ _ _ _
@[simp] theorem State.setSleep_sleepWant (c x : Nat) : (s.setSleep c x).sleepWant = s.sleepWant := State.setFld_sleepWant _ _ _ _
@[simp] theorem State.setSleep_wokeAt (c x : Nat) : (s.setSleep c x).wokeAt = s.wokeAt := State.setFld_wokeAt _ _ _ _
@[simp] theorem State.setSleep_acc (c x : Nat) : (s.setSleep c x).acc = s.acc := State.setFld_acc _ _ _ _
@[simp] theorem State.setSleep_accEcc (c x : Nat) : (s.setSleep c x).accEcc = s.accEcc := State.setFld_accEcc _ _ _ _
@[simp] theorem State.setSleep_tiles (c x : Nat) : (s.setSleep c x).tiles = s.tiles := State.setFld_tiles _ _ _ _
@[simp] theorem State.setSleep_engOps (c x : Nat) : (s.setSleep c x).engOps = s.engOps := State.setFld_engOps _ _ _ _
@[simp] theorem State.setSleep_engActive (c x : Nat) : (s.setSleep c x).engActive = s.engActive := State.setFld_engActive _ _ _ _
@[simp] theorem State.setSleep_engBad (c x : Nat) : (s.setSleep c x).engBad = s.engBad := State.setFld_engBad _ _ _ _
@[simp] theorem State.setSleep_vecOps (c x : Nat) : (s.setSleep c x).vecOps = s.vecOps := State.setFld_vecOps _ _ _ _
@[simp] theorem State.setSleep_fires (c x : Nat) : (s.setSleep c x).fires = s.fires := State.setFld_fires _ _ _ _
@[simp] theorem State.setSleep_outBufs (c x : Nat) : (s.setSleep c x).outBufs = s.outBufs := State.setFld_outBufs _ _ _ _
@[simp] theorem State.setSleep_winPends (c x : Nat) : (s.setSleep c x).winPends = s.winPends := State.setFld_winPends _ _ _ _
@[simp] theorem State.setSleep_sigWaits (c x : Nat) : (s.setSleep c x).sigWaits = s.sigWaits := State.setFld_sigWaits _ _ _ _
@[simp] theorem State.setSleep_sigOuts (c x : Nat) : (s.setSleep c x).sigOuts = s.sigOuts := State.setFld_sigOuts _ _ _ _
@[simp] theorem State.setSleep_net (c x : Nat) : (s.setSleep c x).net = s.net := State.setFld_net _ _ _ _
@[simp] theorem State.setSleep_pn (c x : Nat) : (s.setSleep c x).pn = s.pn := State.setFld_pn _ _ _ _
@[simp] theorem State.setSleep_cells (c x : Nat) : (s.setSleep c x).cells = s.cells := State.setFld_cells _ _ _ _
@[simp] theorem State.setSleep_scales (c x : Nat) : (s.setSleep c x).scales = s.scales := State.setFld_scales _ _ _ _
@[simp] theorem State.setSleep_wsums (c x : Nat) : (s.setSleep c x).wsums = s.wsums := State.setFld_wsums _ _ _ _
@[simp] theorem State.setSleep_dsums (c x : Nat) : (s.setSleep c x).dsums = s.dsums := State.setFld_dsums _ _ _ _
@[simp] theorem State.setSleep_rsums (c x : Nat) : (s.setSleep c x).rsums = s.rsums := State.setFld_rsums _ _ _ _
@[simp] theorem State.setSleep_spans (c x : Nat) : (s.setSleep c x).spans = s.spans := State.setFld_spans _ _ _ _
@[simp] theorem State.setSleep_labelEcc (c x : Nat) : (s.setSleep c x).labelEcc = s.labelEcc := State.setFld_labelEcc _ _ _ _
@[simp] theorem State.setSleep_testSums (c x : Nat) : (s.setSleep c x).testSums = s.testSums := State.setFld_testSums _ _ _ _
@[simp] theorem State.setSleep_envelopes (c x : Nat) : (s.setSleep c x).envelopes = s.envelopes := State.setFld_envelopes _ _ _ _
@[simp] theorem State.setSleep_colStats (c x : Nat) : (s.setSleep c x).colStats = s.colStats := State.setFld_colStats _ _ _ _
@[simp] theorem State.setSleep_binRecs (c x : Nat) : (s.setSleep c x).binRecs = s.binRecs := State.setFld_binRecs _ _ _ _
@[simp] theorem State.setSleep_rackRecs (c x : Nat) : (s.setSleep c x).rackRecs = s.rackRecs := State.setFld_rackRecs _ _ _ _
@[simp] theorem State.setSleep_binChecks (c x : Nat) : (s.setSleep c x).binChecks = s.binChecks := State.setFld_binChecks _ _ _ _
@[simp] theorem State.setSleep_driftActs (c x : Nat) : (s.setSleep c x).driftActs = s.driftActs := State.setFld_driftActs _ _ _ _
@[simp] theorem State.setSleep_refreshQ (c x : Nat) : (s.setSleep c x).refreshQ = s.refreshQ := State.setFld_refreshQ _ _ _ _
@[simp] theorem State.setSleep_refreshing (c x : Nat) : (s.setSleep c x).refreshing = s.refreshing := State.setFld_refreshing _ _ _ _
@[simp] theorem State.setSleep_autoRefresh (c x : Nat) : (s.setSleep c x).autoRefresh = s.autoRefresh := State.setFld_autoRefresh _ _ _ _
@[simp] theorem State.setSleep_hvRefresh (c x : Nat) : (s.setSleep c x).hvRefresh = s.hvRefresh := State.setFld_hvRefresh _ _ _ _
@[simp] theorem State.setSleep_quietAt (c x : Nat) : (s.setSleep c x).quietAt = s.quietAt := State.setFld_quietAt _ _ _ _
@[simp] theorem State.setSleep_driftLog (c x : Nat) : (s.setSleep c x).driftLog = s.driftLog := State.setFld_driftLog _ _ _ _
@[simp] theorem State.setSleep_errLog (c x : Nat) : (s.setSleep c x).errLog = s.errLog := State.setFld_errLog _ _ _ _
@[simp] theorem State.setSleep_thrLog (c x : Nat) : (s.setSleep c x).thrLog = s.thrLog := State.setFld_thrLog _ _ _ _
@[simp] theorem State.setSleep_wear (c x : Nat) : (s.setSleep c x).wear = s.wear := State.setFld_wear _ _ _ _
@[simp] theorem State.setSleep_binMap (c x : Nat) : (s.setSleep c x).binMap = s.binMap := State.setFld_binMap _ _ _ _
@[simp] theorem State.setSleep_thresholds (c x : Nat) : (s.setSleep c x).thresholds = s.thresholds := State.setFld_thresholds _ _ _ _
@[simp] theorem State.setSleep_threshBad (c x : Nat) : (s.setSleep c x).threshBad = s.threshBad := State.setFld_threshBad _ _ _ _
@[simp] theorem State.setSleep_tempTrim (c x : Nat) : (s.setSleep c x).tempTrim = s.tempTrim := State.setFld_tempTrim _ _ _ _
@[simp] theorem State.setSleep_trimTemp (c x : Nat) : (s.setSleep c x).trimTemp = s.trimTemp := State.setFld_trimTemp _ _ _ _
@[simp] theorem State.setSleep_tempOut (c x : Nat) : (s.setSleep c x).tempOut = s.tempOut := State.setFld_tempOut _ _ _ _
@[simp] theorem State.setSleep_actTests (c x : Nat) : (s.setSleep c x).actTests = s.actTests := State.setFld_actTests _ _ _ _
@[simp] theorem State.setSleep_actTestAt (c x : Nat) : (s.setSleep c x).actTestAt = s.actTestAt := State.setFld_actTestAt _ _ _ _
@[simp] theorem State.setSleep_ctxs (c x : Nat) : (s.setSleep c x).ctxs = s.ctxs := State.setFld_ctxs _ _ _ _
@[simp] theorem State.setSleep_passes (c x : Nat) : (s.setSleep c x).passes = s.passes := State.setFld_passes _ _ _ _
@[simp] theorem State.setSleep_trips (c x : Nat) : (s.setSleep c x).trips = s.trips := State.setFld_trips _ _ _ _
@[simp] theorem State.setSleep_normActs (c x : Nat) : (s.setSleep c x).normActs = s.normActs := State.setFld_normActs _ _ _ _
@[simp] theorem State.setSleep_outbox (c x : Nat) : (s.setSleep c x).outbox = s.outbox := State.setFld_outbox _ _ _ _
@[simp] theorem State.setSleep_claimQ (c x : Nat) : (s.setSleep c x).claimQ = s.claimQ := State.setFld_claimQ _ _ _ _
@[simp] theorem State.setSleep_power (c x : Nat) : (s.setSleep c x).power = s.power := State.setFld_power _ _ _ _
@[simp] theorem State.setSleep_routes (c x : Nat) : (s.setSleep c x).routes = s.routes := State.setFld_routes _ _ _ _
@[simp] theorem State.setSleep_routesKept (c x : Nat) : (s.setSleep c x).routesKept = s.routesKept := State.setFld_routesKept _ _ _ _
@[simp] theorem State.setSleep_ports (c x : Nat) : (s.setSleep c x).ports = s.ports := State.setFld_ports _ _ _ _
@[simp] theorem State.setSleep_answered (c x : Nat) : (s.setSleep c x).answered = s.answered := State.setFld_answered _ _ _ _
@[simp] theorem State.setSleep_slackIn (c x : Nat) : (s.setSleep c x).slackIn = s.slackIn := State.setFld_slackIn _ _ _ _
@[simp] theorem State.setSleep_slots (c x : Nat) : (s.setSleep c x).slots = s.slots := State.setFld_slots _ _ _ _
@[simp] theorem State.setSleep_parts (c x : Nat) : (s.setSleep c x).parts = s.parts := State.setFld_parts _ _ _ _
@[simp] theorem State.setSleep_layerKv (c x : Nat) : (s.setSleep c x).layerKv = s.layerKv := State.setFld_layerKv _ _ _ _
@[simp] theorem State.setSleep_standIns (c x : Nat) : (s.setSleep c x).standIns = s.standIns := State.setFld_standIns _ _ _ _
@[simp] theorem State.setSleep_kvHolds (c x : Nat) : (s.setSleep c x).kvHolds = s.kvHolds := State.setFld_kvHolds _ _ _ _
@[simp] theorem State.setSleep_kvReserves (c x : Nat) : (s.setSleep c x).kvReserves = s.kvReserves := State.setFld_kvReserves _ _ _ _
@[simp] theorem State.setSleep_kvSlots (c x : Nat) : (s.setSleep c x).kvSlots = s.kvSlots := State.setFld_kvSlots _ _ _ _
@[simp] theorem State.setSleep_bookSlots (c x : Nat) : (s.setSleep c x).bookSlots = s.bookSlots := State.setFld_bookSlots _ _ _ _
@[simp] theorem State.setSleep_kvOps (c x : Nat) : (s.setSleep c x).kvOps = s.kvOps := State.setFld_kvOps _ _ _ _
@[simp] theorem State.setSleep_loftFetches (c x : Nat) : (s.setSleep c x).loftFetches = s.loftFetches := State.setFld_loftFetches _ _ _ _
@[simp] theorem State.setSleep_spills (c x : Nat) : (s.setSleep c x).spills = s.spills := State.setFld_spills _ _ _ _
@[simp] theorem State.setSleep_recency (c x : Nat) : (s.setSleep c x).recency = s.recency := State.setFld_recency _ _ _ _
@[simp] theorem State.setSleep_loftClean (c x : Nat) : (s.setSleep c x).loftClean = s.loftClean := State.setFld_loftClean _ _ _ _
@[simp] theorem State.setSleep_digestDirty (c x : Nat) : (s.setSleep c x).digestDirty = s.digestDirty := State.setFld_digestDirty _ _ _ _
@[simp] theorem State.setSleep_tracked (c x : Nat) : (s.setSleep c x).tracked = s.tracked := State.setFld_tracked _ _ _ _
@[simp] theorem State.setSleep_biSent (c x : Nat) : (s.setSleep c x).biSent = s.biSent := State.setFld_biSent _ _ _ _
@[simp] theorem State.setSleep_biWant (c x : Nat) : (s.setSleep c x).biWant = s.biWant := State.setFld_biWant _ _ _ _
@[simp] theorem State.setSleep_reqs (c x : Nat) : (s.setSleep c x).reqs = s.reqs := State.setFld_reqs _ _ _ _
@[simp] theorem State.setSleep_notices (c x : Nat) : (s.setSleep c x).notices = s.notices := State.setFld_notices _ _ _ _
@[simp] theorem State.setSleep_queues (c x : Nat) : (s.setSleep c x).queues = s.queues := State.setFld_queues _ _ _ _
@[simp] theorem State.setSleep_host (c x : Nat) : (s.setSleep c x).host = s.host := State.setFld_host _ _ _ _
@[simp] theorem State.setSleep_binds (c x : Nat) : (s.setSleep c x).binds = s.binds := State.setFld_binds _ _ _ _
@[simp] theorem State.setSleep_blk (c x : Nat) : (s.setSleep c x).blk = s.blk := State.setFld_blk _ _ _ _
@[simp] theorem State.setSleep_inst (c x : Nat) : (s.setSleep c x).inst = s.inst := State.setFld_inst _ _ _ _
@[simp] theorem State.setSleep_faults (c x : Nat) : (s.setSleep c x).faults = s.faults := State.setFld_faults _ _ _ _
@[simp] theorem State.setSleep_sec (c x : Nat) : (s.setSleep c x).sec = s.sec := State.setFld_sec _ _ _ _

/-! `setSeq` -/

@[simp] theorem State.setSeq_pending (c x : Nat) : (s.setSeq c x).pending = s.pending := State.setFld_pending _ _ _ _
@[simp] theorem State.setSeq_fresh (c x : Nat) : (s.setSeq c x).fresh = s.fresh := State.setFld_fresh _ _ _ _
@[simp] theorem State.setSeq_nextId (c x : Nat) : (s.setSeq c x).nextId = s.nextId := State.setFld_nextId _ _ _ _
@[simp] theorem State.setSeq_now (c x : Nat) : (s.setSeq c x).now = s.now := State.setFld_now _ _ _ _
@[simp] theorem State.setSeq_shadow (c x : Nat) : (s.setSeq c x).shadow = s.shadow := State.setFld_shadow _ _ _ _
@[simp] theorem State.setSeq_latches (c x : Nat) : (s.setSeq c x).latches = s.latches := State.setFld_latches _ _ _ _
@[simp] theorem State.setSeq_pantry (c x : Nat) : (s.setSeq c x).pantry = s.pantry := State.setFld_pantry _ _ _ _
@[simp] theorem State.setSeq_pantryEcc (c x : Nat) : (s.setSeq c x).pantryEcc = s.pantryEcc := State.setFld_pantryEcc _ _ _ _
@[simp] theorem State.setSeq_scrubWrites (c x : Nat) : (s.setSeq c x).scrubWrites = s.scrubWrites := State.setFld_scrubWrites _ _ _ _
@[simp] theorem State.setSeq_code (c x : Nat) : (s.setSeq c x).code = s.code := State.setFld_code _ _ _ _
@[simp] theorem State.setSeq_codeEcc (c x : Nat) : (s.setSeq c x).codeEcc = s.codeEcc := State.setFld_codeEcc _ _ _ _
@[simp] theorem State.setSeq_tokOps (c x : Nat) : (s.setSeq c x).tokOps = s.tokOps := State.setFld_tokOps _ _ _ _
@[simp] theorem State.setSeq_lateWin (c x : Nat) : (s.setSeq c x).lateWin = s.lateWin := State.setFld_lateWin _ _ _ _
@[simp] theorem State.setSeq_twaits (c x : Nat) : (s.setSeq c x).twaits = s.twaits := State.setFld_twaits _ _ _ _
@[simp] theorem State.setSeq_runTime (c x : Nat) : (s.setSeq c x).runTime = s.runTime := State.setFld_runTime _ _ _ _
@[simp] theorem State.setSeq_waking (c x : Nat) : (s.setSeq c x).waking = s.waking := State.setFld_waking _ _ _ _
@[simp] theorem State.setSeq_sleepWant (c x : Nat) : (s.setSeq c x).sleepWant = s.sleepWant := State.setFld_sleepWant _ _ _ _
@[simp] theorem State.setSeq_wokeAt (c x : Nat) : (s.setSeq c x).wokeAt = s.wokeAt := State.setFld_wokeAt _ _ _ _
@[simp] theorem State.setSeq_acc (c x : Nat) : (s.setSeq c x).acc = s.acc := State.setFld_acc _ _ _ _
@[simp] theorem State.setSeq_accEcc (c x : Nat) : (s.setSeq c x).accEcc = s.accEcc := State.setFld_accEcc _ _ _ _
@[simp] theorem State.setSeq_tiles (c x : Nat) : (s.setSeq c x).tiles = s.tiles := State.setFld_tiles _ _ _ _
@[simp] theorem State.setSeq_engOps (c x : Nat) : (s.setSeq c x).engOps = s.engOps := State.setFld_engOps _ _ _ _
@[simp] theorem State.setSeq_engActive (c x : Nat) : (s.setSeq c x).engActive = s.engActive := State.setFld_engActive _ _ _ _
@[simp] theorem State.setSeq_engBad (c x : Nat) : (s.setSeq c x).engBad = s.engBad := State.setFld_engBad _ _ _ _
@[simp] theorem State.setSeq_vecOps (c x : Nat) : (s.setSeq c x).vecOps = s.vecOps := State.setFld_vecOps _ _ _ _
@[simp] theorem State.setSeq_fires (c x : Nat) : (s.setSeq c x).fires = s.fires := State.setFld_fires _ _ _ _
@[simp] theorem State.setSeq_outBufs (c x : Nat) : (s.setSeq c x).outBufs = s.outBufs := State.setFld_outBufs _ _ _ _
@[simp] theorem State.setSeq_winPends (c x : Nat) : (s.setSeq c x).winPends = s.winPends := State.setFld_winPends _ _ _ _
@[simp] theorem State.setSeq_sigWaits (c x : Nat) : (s.setSeq c x).sigWaits = s.sigWaits := State.setFld_sigWaits _ _ _ _
@[simp] theorem State.setSeq_sigOuts (c x : Nat) : (s.setSeq c x).sigOuts = s.sigOuts := State.setFld_sigOuts _ _ _ _
@[simp] theorem State.setSeq_net (c x : Nat) : (s.setSeq c x).net = s.net := State.setFld_net _ _ _ _
@[simp] theorem State.setSeq_pn (c x : Nat) : (s.setSeq c x).pn = s.pn := State.setFld_pn _ _ _ _
@[simp] theorem State.setSeq_cells (c x : Nat) : (s.setSeq c x).cells = s.cells := State.setFld_cells _ _ _ _
@[simp] theorem State.setSeq_scales (c x : Nat) : (s.setSeq c x).scales = s.scales := State.setFld_scales _ _ _ _
@[simp] theorem State.setSeq_wsums (c x : Nat) : (s.setSeq c x).wsums = s.wsums := State.setFld_wsums _ _ _ _
@[simp] theorem State.setSeq_dsums (c x : Nat) : (s.setSeq c x).dsums = s.dsums := State.setFld_dsums _ _ _ _
@[simp] theorem State.setSeq_rsums (c x : Nat) : (s.setSeq c x).rsums = s.rsums := State.setFld_rsums _ _ _ _
@[simp] theorem State.setSeq_spans (c x : Nat) : (s.setSeq c x).spans = s.spans := State.setFld_spans _ _ _ _
@[simp] theorem State.setSeq_labelEcc (c x : Nat) : (s.setSeq c x).labelEcc = s.labelEcc := State.setFld_labelEcc _ _ _ _
@[simp] theorem State.setSeq_testSums (c x : Nat) : (s.setSeq c x).testSums = s.testSums := State.setFld_testSums _ _ _ _
@[simp] theorem State.setSeq_envelopes (c x : Nat) : (s.setSeq c x).envelopes = s.envelopes := State.setFld_envelopes _ _ _ _
@[simp] theorem State.setSeq_colStats (c x : Nat) : (s.setSeq c x).colStats = s.colStats := State.setFld_colStats _ _ _ _
@[simp] theorem State.setSeq_binRecs (c x : Nat) : (s.setSeq c x).binRecs = s.binRecs := State.setFld_binRecs _ _ _ _
@[simp] theorem State.setSeq_rackRecs (c x : Nat) : (s.setSeq c x).rackRecs = s.rackRecs := State.setFld_rackRecs _ _ _ _
@[simp] theorem State.setSeq_binChecks (c x : Nat) : (s.setSeq c x).binChecks = s.binChecks := State.setFld_binChecks _ _ _ _
@[simp] theorem State.setSeq_driftActs (c x : Nat) : (s.setSeq c x).driftActs = s.driftActs := State.setFld_driftActs _ _ _ _
@[simp] theorem State.setSeq_refreshQ (c x : Nat) : (s.setSeq c x).refreshQ = s.refreshQ := State.setFld_refreshQ _ _ _ _
@[simp] theorem State.setSeq_refreshing (c x : Nat) : (s.setSeq c x).refreshing = s.refreshing := State.setFld_refreshing _ _ _ _
@[simp] theorem State.setSeq_autoRefresh (c x : Nat) : (s.setSeq c x).autoRefresh = s.autoRefresh := State.setFld_autoRefresh _ _ _ _
@[simp] theorem State.setSeq_hvRefresh (c x : Nat) : (s.setSeq c x).hvRefresh = s.hvRefresh := State.setFld_hvRefresh _ _ _ _
@[simp] theorem State.setSeq_quietAt (c x : Nat) : (s.setSeq c x).quietAt = s.quietAt := State.setFld_quietAt _ _ _ _
@[simp] theorem State.setSeq_driftLog (c x : Nat) : (s.setSeq c x).driftLog = s.driftLog := State.setFld_driftLog _ _ _ _
@[simp] theorem State.setSeq_errLog (c x : Nat) : (s.setSeq c x).errLog = s.errLog := State.setFld_errLog _ _ _ _
@[simp] theorem State.setSeq_thrLog (c x : Nat) : (s.setSeq c x).thrLog = s.thrLog := State.setFld_thrLog _ _ _ _
@[simp] theorem State.setSeq_wear (c x : Nat) : (s.setSeq c x).wear = s.wear := State.setFld_wear _ _ _ _
@[simp] theorem State.setSeq_binMap (c x : Nat) : (s.setSeq c x).binMap = s.binMap := State.setFld_binMap _ _ _ _
@[simp] theorem State.setSeq_thresholds (c x : Nat) : (s.setSeq c x).thresholds = s.thresholds := State.setFld_thresholds _ _ _ _
@[simp] theorem State.setSeq_threshBad (c x : Nat) : (s.setSeq c x).threshBad = s.threshBad := State.setFld_threshBad _ _ _ _
@[simp] theorem State.setSeq_tempTrim (c x : Nat) : (s.setSeq c x).tempTrim = s.tempTrim := State.setFld_tempTrim _ _ _ _
@[simp] theorem State.setSeq_trimTemp (c x : Nat) : (s.setSeq c x).trimTemp = s.trimTemp := State.setFld_trimTemp _ _ _ _
@[simp] theorem State.setSeq_tempOut (c x : Nat) : (s.setSeq c x).tempOut = s.tempOut := State.setFld_tempOut _ _ _ _
@[simp] theorem State.setSeq_actTests (c x : Nat) : (s.setSeq c x).actTests = s.actTests := State.setFld_actTests _ _ _ _
@[simp] theorem State.setSeq_actTestAt (c x : Nat) : (s.setSeq c x).actTestAt = s.actTestAt := State.setFld_actTestAt _ _ _ _
@[simp] theorem State.setSeq_ctxs (c x : Nat) : (s.setSeq c x).ctxs = s.ctxs := State.setFld_ctxs _ _ _ _
@[simp] theorem State.setSeq_passes (c x : Nat) : (s.setSeq c x).passes = s.passes := State.setFld_passes _ _ _ _
@[simp] theorem State.setSeq_trips (c x : Nat) : (s.setSeq c x).trips = s.trips := State.setFld_trips _ _ _ _
@[simp] theorem State.setSeq_normActs (c x : Nat) : (s.setSeq c x).normActs = s.normActs := State.setFld_normActs _ _ _ _
@[simp] theorem State.setSeq_outbox (c x : Nat) : (s.setSeq c x).outbox = s.outbox := State.setFld_outbox _ _ _ _
@[simp] theorem State.setSeq_claimQ (c x : Nat) : (s.setSeq c x).claimQ = s.claimQ := State.setFld_claimQ _ _ _ _
@[simp] theorem State.setSeq_power (c x : Nat) : (s.setSeq c x).power = s.power := State.setFld_power _ _ _ _
@[simp] theorem State.setSeq_routes (c x : Nat) : (s.setSeq c x).routes = s.routes := State.setFld_routes _ _ _ _
@[simp] theorem State.setSeq_routesKept (c x : Nat) : (s.setSeq c x).routesKept = s.routesKept := State.setFld_routesKept _ _ _ _
@[simp] theorem State.setSeq_ports (c x : Nat) : (s.setSeq c x).ports = s.ports := State.setFld_ports _ _ _ _
@[simp] theorem State.setSeq_answered (c x : Nat) : (s.setSeq c x).answered = s.answered := State.setFld_answered _ _ _ _
@[simp] theorem State.setSeq_slackIn (c x : Nat) : (s.setSeq c x).slackIn = s.slackIn := State.setFld_slackIn _ _ _ _
@[simp] theorem State.setSeq_slots (c x : Nat) : (s.setSeq c x).slots = s.slots := State.setFld_slots _ _ _ _
@[simp] theorem State.setSeq_parts (c x : Nat) : (s.setSeq c x).parts = s.parts := State.setFld_parts _ _ _ _
@[simp] theorem State.setSeq_layerKv (c x : Nat) : (s.setSeq c x).layerKv = s.layerKv := State.setFld_layerKv _ _ _ _
@[simp] theorem State.setSeq_standIns (c x : Nat) : (s.setSeq c x).standIns = s.standIns := State.setFld_standIns _ _ _ _
@[simp] theorem State.setSeq_kvHolds (c x : Nat) : (s.setSeq c x).kvHolds = s.kvHolds := State.setFld_kvHolds _ _ _ _
@[simp] theorem State.setSeq_kvReserves (c x : Nat) : (s.setSeq c x).kvReserves = s.kvReserves := State.setFld_kvReserves _ _ _ _
@[simp] theorem State.setSeq_kvSlots (c x : Nat) : (s.setSeq c x).kvSlots = s.kvSlots := State.setFld_kvSlots _ _ _ _
@[simp] theorem State.setSeq_bookSlots (c x : Nat) : (s.setSeq c x).bookSlots = s.bookSlots := State.setFld_bookSlots _ _ _ _
@[simp] theorem State.setSeq_kvOps (c x : Nat) : (s.setSeq c x).kvOps = s.kvOps := State.setFld_kvOps _ _ _ _
@[simp] theorem State.setSeq_loftFetches (c x : Nat) : (s.setSeq c x).loftFetches = s.loftFetches := State.setFld_loftFetches _ _ _ _
@[simp] theorem State.setSeq_spills (c x : Nat) : (s.setSeq c x).spills = s.spills := State.setFld_spills _ _ _ _
@[simp] theorem State.setSeq_recency (c x : Nat) : (s.setSeq c x).recency = s.recency := State.setFld_recency _ _ _ _
@[simp] theorem State.setSeq_loftClean (c x : Nat) : (s.setSeq c x).loftClean = s.loftClean := State.setFld_loftClean _ _ _ _
@[simp] theorem State.setSeq_digestDirty (c x : Nat) : (s.setSeq c x).digestDirty = s.digestDirty := State.setFld_digestDirty _ _ _ _
@[simp] theorem State.setSeq_tracked (c x : Nat) : (s.setSeq c x).tracked = s.tracked := State.setFld_tracked _ _ _ _
@[simp] theorem State.setSeq_biSent (c x : Nat) : (s.setSeq c x).biSent = s.biSent := State.setFld_biSent _ _ _ _
@[simp] theorem State.setSeq_biWant (c x : Nat) : (s.setSeq c x).biWant = s.biWant := State.setFld_biWant _ _ _ _
@[simp] theorem State.setSeq_reqs (c x : Nat) : (s.setSeq c x).reqs = s.reqs := State.setFld_reqs _ _ _ _
@[simp] theorem State.setSeq_notices (c x : Nat) : (s.setSeq c x).notices = s.notices := State.setFld_notices _ _ _ _
@[simp] theorem State.setSeq_queues (c x : Nat) : (s.setSeq c x).queues = s.queues := State.setFld_queues _ _ _ _
@[simp] theorem State.setSeq_host (c x : Nat) : (s.setSeq c x).host = s.host := State.setFld_host _ _ _ _
@[simp] theorem State.setSeq_binds (c x : Nat) : (s.setSeq c x).binds = s.binds := State.setFld_binds _ _ _ _
@[simp] theorem State.setSeq_blk (c x : Nat) : (s.setSeq c x).blk = s.blk := State.setFld_blk _ _ _ _
@[simp] theorem State.setSeq_inst (c x : Nat) : (s.setSeq c x).inst = s.inst := State.setFld_inst _ _ _ _
@[simp] theorem State.setSeq_faults (c x : Nat) : (s.setSeq c x).faults = s.faults := State.setFld_faults _ _ _ _
@[simp] theorem State.setSeq_sec (c x : Nat) : (s.setSeq c x).sec = s.sec := State.setFld_sec _ _ _ _

/-! `setPc` -/

@[simp] theorem State.setPc_pending (c x : Nat) : (s.setPc c x).pending = s.pending := State.setFld_pending _ _ _ _
@[simp] theorem State.setPc_fresh (c x : Nat) : (s.setPc c x).fresh = s.fresh := State.setFld_fresh _ _ _ _
@[simp] theorem State.setPc_nextId (c x : Nat) : (s.setPc c x).nextId = s.nextId := State.setFld_nextId _ _ _ _
@[simp] theorem State.setPc_now (c x : Nat) : (s.setPc c x).now = s.now := State.setFld_now _ _ _ _
@[simp] theorem State.setPc_shadow (c x : Nat) : (s.setPc c x).shadow = s.shadow := State.setFld_shadow _ _ _ _
@[simp] theorem State.setPc_latches (c x : Nat) : (s.setPc c x).latches = s.latches := State.setFld_latches _ _ _ _
@[simp] theorem State.setPc_pantry (c x : Nat) : (s.setPc c x).pantry = s.pantry := State.setFld_pantry _ _ _ _
@[simp] theorem State.setPc_pantryEcc (c x : Nat) : (s.setPc c x).pantryEcc = s.pantryEcc := State.setFld_pantryEcc _ _ _ _
@[simp] theorem State.setPc_scrubWrites (c x : Nat) : (s.setPc c x).scrubWrites = s.scrubWrites := State.setFld_scrubWrites _ _ _ _
@[simp] theorem State.setPc_code (c x : Nat) : (s.setPc c x).code = s.code := State.setFld_code _ _ _ _
@[simp] theorem State.setPc_codeEcc (c x : Nat) : (s.setPc c x).codeEcc = s.codeEcc := State.setFld_codeEcc _ _ _ _
@[simp] theorem State.setPc_tokOps (c x : Nat) : (s.setPc c x).tokOps = s.tokOps := State.setFld_tokOps _ _ _ _
@[simp] theorem State.setPc_lateWin (c x : Nat) : (s.setPc c x).lateWin = s.lateWin := State.setFld_lateWin _ _ _ _
@[simp] theorem State.setPc_twaits (c x : Nat) : (s.setPc c x).twaits = s.twaits := State.setFld_twaits _ _ _ _
@[simp] theorem State.setPc_runTime (c x : Nat) : (s.setPc c x).runTime = s.runTime := State.setFld_runTime _ _ _ _
@[simp] theorem State.setPc_waking (c x : Nat) : (s.setPc c x).waking = s.waking := State.setFld_waking _ _ _ _
@[simp] theorem State.setPc_sleepWant (c x : Nat) : (s.setPc c x).sleepWant = s.sleepWant := State.setFld_sleepWant _ _ _ _
@[simp] theorem State.setPc_wokeAt (c x : Nat) : (s.setPc c x).wokeAt = s.wokeAt := State.setFld_wokeAt _ _ _ _
@[simp] theorem State.setPc_acc (c x : Nat) : (s.setPc c x).acc = s.acc := State.setFld_acc _ _ _ _
@[simp] theorem State.setPc_accEcc (c x : Nat) : (s.setPc c x).accEcc = s.accEcc := State.setFld_accEcc _ _ _ _
@[simp] theorem State.setPc_tiles (c x : Nat) : (s.setPc c x).tiles = s.tiles := State.setFld_tiles _ _ _ _
@[simp] theorem State.setPc_engOps (c x : Nat) : (s.setPc c x).engOps = s.engOps := State.setFld_engOps _ _ _ _
@[simp] theorem State.setPc_engActive (c x : Nat) : (s.setPc c x).engActive = s.engActive := State.setFld_engActive _ _ _ _
@[simp] theorem State.setPc_engBad (c x : Nat) : (s.setPc c x).engBad = s.engBad := State.setFld_engBad _ _ _ _
@[simp] theorem State.setPc_vecOps (c x : Nat) : (s.setPc c x).vecOps = s.vecOps := State.setFld_vecOps _ _ _ _
@[simp] theorem State.setPc_fires (c x : Nat) : (s.setPc c x).fires = s.fires := State.setFld_fires _ _ _ _
@[simp] theorem State.setPc_outBufs (c x : Nat) : (s.setPc c x).outBufs = s.outBufs := State.setFld_outBufs _ _ _ _
@[simp] theorem State.setPc_winPends (c x : Nat) : (s.setPc c x).winPends = s.winPends := State.setFld_winPends _ _ _ _
@[simp] theorem State.setPc_sigWaits (c x : Nat) : (s.setPc c x).sigWaits = s.sigWaits := State.setFld_sigWaits _ _ _ _
@[simp] theorem State.setPc_sigOuts (c x : Nat) : (s.setPc c x).sigOuts = s.sigOuts := State.setFld_sigOuts _ _ _ _
@[simp] theorem State.setPc_net (c x : Nat) : (s.setPc c x).net = s.net := State.setFld_net _ _ _ _
@[simp] theorem State.setPc_pn (c x : Nat) : (s.setPc c x).pn = s.pn := State.setFld_pn _ _ _ _
@[simp] theorem State.setPc_cells (c x : Nat) : (s.setPc c x).cells = s.cells := State.setFld_cells _ _ _ _
@[simp] theorem State.setPc_scales (c x : Nat) : (s.setPc c x).scales = s.scales := State.setFld_scales _ _ _ _
@[simp] theorem State.setPc_wsums (c x : Nat) : (s.setPc c x).wsums = s.wsums := State.setFld_wsums _ _ _ _
@[simp] theorem State.setPc_dsums (c x : Nat) : (s.setPc c x).dsums = s.dsums := State.setFld_dsums _ _ _ _
@[simp] theorem State.setPc_rsums (c x : Nat) : (s.setPc c x).rsums = s.rsums := State.setFld_rsums _ _ _ _
@[simp] theorem State.setPc_spans (c x : Nat) : (s.setPc c x).spans = s.spans := State.setFld_spans _ _ _ _
@[simp] theorem State.setPc_labelEcc (c x : Nat) : (s.setPc c x).labelEcc = s.labelEcc := State.setFld_labelEcc _ _ _ _
@[simp] theorem State.setPc_testSums (c x : Nat) : (s.setPc c x).testSums = s.testSums := State.setFld_testSums _ _ _ _
@[simp] theorem State.setPc_envelopes (c x : Nat) : (s.setPc c x).envelopes = s.envelopes := State.setFld_envelopes _ _ _ _
@[simp] theorem State.setPc_colStats (c x : Nat) : (s.setPc c x).colStats = s.colStats := State.setFld_colStats _ _ _ _
@[simp] theorem State.setPc_binRecs (c x : Nat) : (s.setPc c x).binRecs = s.binRecs := State.setFld_binRecs _ _ _ _
@[simp] theorem State.setPc_rackRecs (c x : Nat) : (s.setPc c x).rackRecs = s.rackRecs := State.setFld_rackRecs _ _ _ _
@[simp] theorem State.setPc_binChecks (c x : Nat) : (s.setPc c x).binChecks = s.binChecks := State.setFld_binChecks _ _ _ _
@[simp] theorem State.setPc_driftActs (c x : Nat) : (s.setPc c x).driftActs = s.driftActs := State.setFld_driftActs _ _ _ _
@[simp] theorem State.setPc_refreshQ (c x : Nat) : (s.setPc c x).refreshQ = s.refreshQ := State.setFld_refreshQ _ _ _ _
@[simp] theorem State.setPc_refreshing (c x : Nat) : (s.setPc c x).refreshing = s.refreshing := State.setFld_refreshing _ _ _ _
@[simp] theorem State.setPc_autoRefresh (c x : Nat) : (s.setPc c x).autoRefresh = s.autoRefresh := State.setFld_autoRefresh _ _ _ _
@[simp] theorem State.setPc_hvRefresh (c x : Nat) : (s.setPc c x).hvRefresh = s.hvRefresh := State.setFld_hvRefresh _ _ _ _
@[simp] theorem State.setPc_quietAt (c x : Nat) : (s.setPc c x).quietAt = s.quietAt := State.setFld_quietAt _ _ _ _
@[simp] theorem State.setPc_driftLog (c x : Nat) : (s.setPc c x).driftLog = s.driftLog := State.setFld_driftLog _ _ _ _
@[simp] theorem State.setPc_errLog (c x : Nat) : (s.setPc c x).errLog = s.errLog := State.setFld_errLog _ _ _ _
@[simp] theorem State.setPc_thrLog (c x : Nat) : (s.setPc c x).thrLog = s.thrLog := State.setFld_thrLog _ _ _ _
@[simp] theorem State.setPc_wear (c x : Nat) : (s.setPc c x).wear = s.wear := State.setFld_wear _ _ _ _
@[simp] theorem State.setPc_binMap (c x : Nat) : (s.setPc c x).binMap = s.binMap := State.setFld_binMap _ _ _ _
@[simp] theorem State.setPc_thresholds (c x : Nat) : (s.setPc c x).thresholds = s.thresholds := State.setFld_thresholds _ _ _ _
@[simp] theorem State.setPc_threshBad (c x : Nat) : (s.setPc c x).threshBad = s.threshBad := State.setFld_threshBad _ _ _ _
@[simp] theorem State.setPc_tempTrim (c x : Nat) : (s.setPc c x).tempTrim = s.tempTrim := State.setFld_tempTrim _ _ _ _
@[simp] theorem State.setPc_trimTemp (c x : Nat) : (s.setPc c x).trimTemp = s.trimTemp := State.setFld_trimTemp _ _ _ _
@[simp] theorem State.setPc_tempOut (c x : Nat) : (s.setPc c x).tempOut = s.tempOut := State.setFld_tempOut _ _ _ _
@[simp] theorem State.setPc_actTests (c x : Nat) : (s.setPc c x).actTests = s.actTests := State.setFld_actTests _ _ _ _
@[simp] theorem State.setPc_actTestAt (c x : Nat) : (s.setPc c x).actTestAt = s.actTestAt := State.setFld_actTestAt _ _ _ _
@[simp] theorem State.setPc_ctxs (c x : Nat) : (s.setPc c x).ctxs = s.ctxs := State.setFld_ctxs _ _ _ _
@[simp] theorem State.setPc_passes (c x : Nat) : (s.setPc c x).passes = s.passes := State.setFld_passes _ _ _ _
@[simp] theorem State.setPc_trips (c x : Nat) : (s.setPc c x).trips = s.trips := State.setFld_trips _ _ _ _
@[simp] theorem State.setPc_normActs (c x : Nat) : (s.setPc c x).normActs = s.normActs := State.setFld_normActs _ _ _ _
@[simp] theorem State.setPc_outbox (c x : Nat) : (s.setPc c x).outbox = s.outbox := State.setFld_outbox _ _ _ _
@[simp] theorem State.setPc_claimQ (c x : Nat) : (s.setPc c x).claimQ = s.claimQ := State.setFld_claimQ _ _ _ _
@[simp] theorem State.setPc_power (c x : Nat) : (s.setPc c x).power = s.power := State.setFld_power _ _ _ _
@[simp] theorem State.setPc_routes (c x : Nat) : (s.setPc c x).routes = s.routes := State.setFld_routes _ _ _ _
@[simp] theorem State.setPc_routesKept (c x : Nat) : (s.setPc c x).routesKept = s.routesKept := State.setFld_routesKept _ _ _ _
@[simp] theorem State.setPc_ports (c x : Nat) : (s.setPc c x).ports = s.ports := State.setFld_ports _ _ _ _
@[simp] theorem State.setPc_answered (c x : Nat) : (s.setPc c x).answered = s.answered := State.setFld_answered _ _ _ _
@[simp] theorem State.setPc_slackIn (c x : Nat) : (s.setPc c x).slackIn = s.slackIn := State.setFld_slackIn _ _ _ _
@[simp] theorem State.setPc_slots (c x : Nat) : (s.setPc c x).slots = s.slots := State.setFld_slots _ _ _ _
@[simp] theorem State.setPc_parts (c x : Nat) : (s.setPc c x).parts = s.parts := State.setFld_parts _ _ _ _
@[simp] theorem State.setPc_layerKv (c x : Nat) : (s.setPc c x).layerKv = s.layerKv := State.setFld_layerKv _ _ _ _
@[simp] theorem State.setPc_standIns (c x : Nat) : (s.setPc c x).standIns = s.standIns := State.setFld_standIns _ _ _ _
@[simp] theorem State.setPc_kvHolds (c x : Nat) : (s.setPc c x).kvHolds = s.kvHolds := State.setFld_kvHolds _ _ _ _
@[simp] theorem State.setPc_kvReserves (c x : Nat) : (s.setPc c x).kvReserves = s.kvReserves := State.setFld_kvReserves _ _ _ _
@[simp] theorem State.setPc_kvSlots (c x : Nat) : (s.setPc c x).kvSlots = s.kvSlots := State.setFld_kvSlots _ _ _ _
@[simp] theorem State.setPc_bookSlots (c x : Nat) : (s.setPc c x).bookSlots = s.bookSlots := State.setFld_bookSlots _ _ _ _
@[simp] theorem State.setPc_kvOps (c x : Nat) : (s.setPc c x).kvOps = s.kvOps := State.setFld_kvOps _ _ _ _
@[simp] theorem State.setPc_loftFetches (c x : Nat) : (s.setPc c x).loftFetches = s.loftFetches := State.setFld_loftFetches _ _ _ _
@[simp] theorem State.setPc_spills (c x : Nat) : (s.setPc c x).spills = s.spills := State.setFld_spills _ _ _ _
@[simp] theorem State.setPc_recency (c x : Nat) : (s.setPc c x).recency = s.recency := State.setFld_recency _ _ _ _
@[simp] theorem State.setPc_loftClean (c x : Nat) : (s.setPc c x).loftClean = s.loftClean := State.setFld_loftClean _ _ _ _
@[simp] theorem State.setPc_digestDirty (c x : Nat) : (s.setPc c x).digestDirty = s.digestDirty := State.setFld_digestDirty _ _ _ _
@[simp] theorem State.setPc_tracked (c x : Nat) : (s.setPc c x).tracked = s.tracked := State.setFld_tracked _ _ _ _
@[simp] theorem State.setPc_biSent (c x : Nat) : (s.setPc c x).biSent = s.biSent := State.setFld_biSent _ _ _ _
@[simp] theorem State.setPc_biWant (c x : Nat) : (s.setPc c x).biWant = s.biWant := State.setFld_biWant _ _ _ _
@[simp] theorem State.setPc_reqs (c x : Nat) : (s.setPc c x).reqs = s.reqs := State.setFld_reqs _ _ _ _
@[simp] theorem State.setPc_notices (c x : Nat) : (s.setPc c x).notices = s.notices := State.setFld_notices _ _ _ _
@[simp] theorem State.setPc_queues (c x : Nat) : (s.setPc c x).queues = s.queues := State.setFld_queues _ _ _ _
@[simp] theorem State.setPc_host (c x : Nat) : (s.setPc c x).host = s.host := State.setFld_host _ _ _ _
@[simp] theorem State.setPc_binds (c x : Nat) : (s.setPc c x).binds = s.binds := State.setFld_binds _ _ _ _
@[simp] theorem State.setPc_blk (c x : Nat) : (s.setPc c x).blk = s.blk := State.setFld_blk _ _ _ _
@[simp] theorem State.setPc_inst (c x : Nat) : (s.setPc c x).inst = s.inst := State.setFld_inst _ _ _ _
@[simp] theorem State.setPc_faults (c x : Nat) : (s.setPc c x).faults = s.faults := State.setFld_faults _ _ _ _
@[simp] theorem State.setPc_sec (c x : Nat) : (s.setPc c x).sec = s.sec := State.setFld_sec _ _ _ _

/-! `setA` -/

@[simp] theorem State.setA_pending (c n : Nat) (v : Word) : (s.setA c n v).pending = s.pending := State.wr_pending _ _ _
@[simp] theorem State.setA_fresh (c n : Nat) (v : Word) : (s.setA c n v).fresh = s.fresh := State.wr_fresh _ _ _
@[simp] theorem State.setA_nextId (c n : Nat) (v : Word) : (s.setA c n v).nextId = s.nextId := State.wr_nextId _ _ _
@[simp] theorem State.setA_now (c n : Nat) (v : Word) : (s.setA c n v).now = s.now := State.wr_now _ _ _
@[simp] theorem State.setA_shadow (c n : Nat) (v : Word) : (s.setA c n v).shadow = s.shadow := State.wr_shadow _ _ _
@[simp] theorem State.setA_latches (c n : Nat) (v : Word) : (s.setA c n v).latches = s.latches := State.wr_latches _ _ _
@[simp] theorem State.setA_pantry (c n : Nat) (v : Word) : (s.setA c n v).pantry = s.pantry := State.wr_pantry _ _ _
@[simp] theorem State.setA_pantryEcc (c n : Nat) (v : Word) : (s.setA c n v).pantryEcc = s.pantryEcc := State.wr_pantryEcc _ _ _
@[simp] theorem State.setA_scrubWrites (c n : Nat) (v : Word) : (s.setA c n v).scrubWrites = s.scrubWrites := State.wr_scrubWrites _ _ _
@[simp] theorem State.setA_code (c n : Nat) (v : Word) : (s.setA c n v).code = s.code := State.wr_code _ _ _
@[simp] theorem State.setA_codeEcc (c n : Nat) (v : Word) : (s.setA c n v).codeEcc = s.codeEcc := State.wr_codeEcc _ _ _
@[simp] theorem State.setA_tokOps (c n : Nat) (v : Word) : (s.setA c n v).tokOps = s.tokOps := State.wr_tokOps _ _ _
@[simp] theorem State.setA_lateWin (c n : Nat) (v : Word) : (s.setA c n v).lateWin = s.lateWin := State.wr_lateWin _ _ _
@[simp] theorem State.setA_twaits (c n : Nat) (v : Word) : (s.setA c n v).twaits = s.twaits := State.wr_twaits _ _ _
@[simp] theorem State.setA_runTime (c n : Nat) (v : Word) : (s.setA c n v).runTime = s.runTime := State.wr_runTime _ _ _
@[simp] theorem State.setA_waking (c n : Nat) (v : Word) : (s.setA c n v).waking = s.waking := State.wr_waking _ _ _
@[simp] theorem State.setA_sleepWant (c n : Nat) (v : Word) : (s.setA c n v).sleepWant = s.sleepWant := State.wr_sleepWant _ _ _
@[simp] theorem State.setA_wokeAt (c n : Nat) (v : Word) : (s.setA c n v).wokeAt = s.wokeAt := State.wr_wokeAt _ _ _
@[simp] theorem State.setA_acc (c n : Nat) (v : Word) : (s.setA c n v).acc = s.acc := State.wr_acc _ _ _
@[simp] theorem State.setA_accEcc (c n : Nat) (v : Word) : (s.setA c n v).accEcc = s.accEcc := State.wr_accEcc _ _ _
@[simp] theorem State.setA_tiles (c n : Nat) (v : Word) : (s.setA c n v).tiles = s.tiles := State.wr_tiles _ _ _
@[simp] theorem State.setA_engOps (c n : Nat) (v : Word) : (s.setA c n v).engOps = s.engOps := State.wr_engOps _ _ _
@[simp] theorem State.setA_engActive (c n : Nat) (v : Word) : (s.setA c n v).engActive = s.engActive := State.wr_engActive _ _ _
@[simp] theorem State.setA_engBad (c n : Nat) (v : Word) : (s.setA c n v).engBad = s.engBad := State.wr_engBad _ _ _
@[simp] theorem State.setA_vecOps (c n : Nat) (v : Word) : (s.setA c n v).vecOps = s.vecOps := State.wr_vecOps _ _ _
@[simp] theorem State.setA_fires (c n : Nat) (v : Word) : (s.setA c n v).fires = s.fires := State.wr_fires _ _ _
@[simp] theorem State.setA_outBufs (c n : Nat) (v : Word) : (s.setA c n v).outBufs = s.outBufs := State.wr_outBufs _ _ _
@[simp] theorem State.setA_winPends (c n : Nat) (v : Word) : (s.setA c n v).winPends = s.winPends := State.wr_winPends _ _ _
@[simp] theorem State.setA_sigWaits (c n : Nat) (v : Word) : (s.setA c n v).sigWaits = s.sigWaits := State.wr_sigWaits _ _ _
@[simp] theorem State.setA_sigOuts (c n : Nat) (v : Word) : (s.setA c n v).sigOuts = s.sigOuts := State.wr_sigOuts _ _ _
@[simp] theorem State.setA_net (c n : Nat) (v : Word) : (s.setA c n v).net = s.net := State.wr_net _ _ _
@[simp] theorem State.setA_pn (c n : Nat) (v : Word) : (s.setA c n v).pn = s.pn := State.wr_pn _ _ _
@[simp] theorem State.setA_cells (c n : Nat) (v : Word) : (s.setA c n v).cells = s.cells := State.wr_cells _ _ _
@[simp] theorem State.setA_scales (c n : Nat) (v : Word) : (s.setA c n v).scales = s.scales := State.wr_scales _ _ _
@[simp] theorem State.setA_wsums (c n : Nat) (v : Word) : (s.setA c n v).wsums = s.wsums := State.wr_wsums _ _ _
@[simp] theorem State.setA_dsums (c n : Nat) (v : Word) : (s.setA c n v).dsums = s.dsums := State.wr_dsums _ _ _
@[simp] theorem State.setA_rsums (c n : Nat) (v : Word) : (s.setA c n v).rsums = s.rsums := State.wr_rsums _ _ _
@[simp] theorem State.setA_spans (c n : Nat) (v : Word) : (s.setA c n v).spans = s.spans := State.wr_spans _ _ _
@[simp] theorem State.setA_labelEcc (c n : Nat) (v : Word) : (s.setA c n v).labelEcc = s.labelEcc := State.wr_labelEcc _ _ _
@[simp] theorem State.setA_testSums (c n : Nat) (v : Word) : (s.setA c n v).testSums = s.testSums := State.wr_testSums _ _ _
@[simp] theorem State.setA_envelopes (c n : Nat) (v : Word) : (s.setA c n v).envelopes = s.envelopes := State.wr_envelopes _ _ _
@[simp] theorem State.setA_colStats (c n : Nat) (v : Word) : (s.setA c n v).colStats = s.colStats := State.wr_colStats _ _ _
@[simp] theorem State.setA_binRecs (c n : Nat) (v : Word) : (s.setA c n v).binRecs = s.binRecs := State.wr_binRecs _ _ _
@[simp] theorem State.setA_rackRecs (c n : Nat) (v : Word) : (s.setA c n v).rackRecs = s.rackRecs := State.wr_rackRecs _ _ _
@[simp] theorem State.setA_binChecks (c n : Nat) (v : Word) : (s.setA c n v).binChecks = s.binChecks := State.wr_binChecks _ _ _
@[simp] theorem State.setA_driftActs (c n : Nat) (v : Word) : (s.setA c n v).driftActs = s.driftActs := State.wr_driftActs _ _ _
@[simp] theorem State.setA_refreshQ (c n : Nat) (v : Word) : (s.setA c n v).refreshQ = s.refreshQ := State.wr_refreshQ _ _ _
@[simp] theorem State.setA_refreshing (c n : Nat) (v : Word) : (s.setA c n v).refreshing = s.refreshing := State.wr_refreshing _ _ _
@[simp] theorem State.setA_autoRefresh (c n : Nat) (v : Word) : (s.setA c n v).autoRefresh = s.autoRefresh := State.wr_autoRefresh _ _ _
@[simp] theorem State.setA_hvRefresh (c n : Nat) (v : Word) : (s.setA c n v).hvRefresh = s.hvRefresh := State.wr_hvRefresh _ _ _
@[simp] theorem State.setA_quietAt (c n : Nat) (v : Word) : (s.setA c n v).quietAt = s.quietAt := State.wr_quietAt _ _ _
@[simp] theorem State.setA_driftLog (c n : Nat) (v : Word) : (s.setA c n v).driftLog = s.driftLog := State.wr_driftLog _ _ _
@[simp] theorem State.setA_errLog (c n : Nat) (v : Word) : (s.setA c n v).errLog = s.errLog := State.wr_errLog _ _ _
@[simp] theorem State.setA_thrLog (c n : Nat) (v : Word) : (s.setA c n v).thrLog = s.thrLog := State.wr_thrLog _ _ _
@[simp] theorem State.setA_wear (c n : Nat) (v : Word) : (s.setA c n v).wear = s.wear := State.wr_wear _ _ _
@[simp] theorem State.setA_binMap (c n : Nat) (v : Word) : (s.setA c n v).binMap = s.binMap := State.wr_binMap _ _ _
@[simp] theorem State.setA_thresholds (c n : Nat) (v : Word) : (s.setA c n v).thresholds = s.thresholds := State.wr_thresholds _ _ _
@[simp] theorem State.setA_threshBad (c n : Nat) (v : Word) : (s.setA c n v).threshBad = s.threshBad := State.wr_threshBad _ _ _
@[simp] theorem State.setA_tempTrim (c n : Nat) (v : Word) : (s.setA c n v).tempTrim = s.tempTrim := State.wr_tempTrim _ _ _
@[simp] theorem State.setA_trimTemp (c n : Nat) (v : Word) : (s.setA c n v).trimTemp = s.trimTemp := State.wr_trimTemp _ _ _
@[simp] theorem State.setA_tempOut (c n : Nat) (v : Word) : (s.setA c n v).tempOut = s.tempOut := State.wr_tempOut _ _ _
@[simp] theorem State.setA_actTests (c n : Nat) (v : Word) : (s.setA c n v).actTests = s.actTests := State.wr_actTests _ _ _
@[simp] theorem State.setA_actTestAt (c n : Nat) (v : Word) : (s.setA c n v).actTestAt = s.actTestAt := State.wr_actTestAt _ _ _
@[simp] theorem State.setA_ctxs (c n : Nat) (v : Word) : (s.setA c n v).ctxs = s.ctxs := State.wr_ctxs _ _ _
@[simp] theorem State.setA_passes (c n : Nat) (v : Word) : (s.setA c n v).passes = s.passes := State.wr_passes _ _ _
@[simp] theorem State.setA_trips (c n : Nat) (v : Word) : (s.setA c n v).trips = s.trips := State.wr_trips _ _ _
@[simp] theorem State.setA_normActs (c n : Nat) (v : Word) : (s.setA c n v).normActs = s.normActs := State.wr_normActs _ _ _
@[simp] theorem State.setA_outbox (c n : Nat) (v : Word) : (s.setA c n v).outbox = s.outbox := State.wr_outbox _ _ _
@[simp] theorem State.setA_claimQ (c n : Nat) (v : Word) : (s.setA c n v).claimQ = s.claimQ := State.wr_claimQ _ _ _
@[simp] theorem State.setA_power (c n : Nat) (v : Word) : (s.setA c n v).power = s.power := State.wr_power _ _ _
@[simp] theorem State.setA_routes (c n : Nat) (v : Word) : (s.setA c n v).routes = s.routes := State.wr_routes _ _ _
@[simp] theorem State.setA_routesKept (c n : Nat) (v : Word) : (s.setA c n v).routesKept = s.routesKept := State.wr_routesKept _ _ _
@[simp] theorem State.setA_ports (c n : Nat) (v : Word) : (s.setA c n v).ports = s.ports := State.wr_ports _ _ _
@[simp] theorem State.setA_answered (c n : Nat) (v : Word) : (s.setA c n v).answered = s.answered := State.wr_answered _ _ _
@[simp] theorem State.setA_slackIn (c n : Nat) (v : Word) : (s.setA c n v).slackIn = s.slackIn := State.wr_slackIn _ _ _
@[simp] theorem State.setA_slots (c n : Nat) (v : Word) : (s.setA c n v).slots = s.slots := State.wr_slots _ _ _
@[simp] theorem State.setA_parts (c n : Nat) (v : Word) : (s.setA c n v).parts = s.parts := State.wr_parts _ _ _
@[simp] theorem State.setA_layerKv (c n : Nat) (v : Word) : (s.setA c n v).layerKv = s.layerKv := State.wr_layerKv _ _ _
@[simp] theorem State.setA_standIns (c n : Nat) (v : Word) : (s.setA c n v).standIns = s.standIns := State.wr_standIns _ _ _
@[simp] theorem State.setA_kvHolds (c n : Nat) (v : Word) : (s.setA c n v).kvHolds = s.kvHolds := State.wr_kvHolds _ _ _
@[simp] theorem State.setA_kvReserves (c n : Nat) (v : Word) : (s.setA c n v).kvReserves = s.kvReserves := State.wr_kvReserves _ _ _
@[simp] theorem State.setA_kvSlots (c n : Nat) (v : Word) : (s.setA c n v).kvSlots = s.kvSlots := State.wr_kvSlots _ _ _
@[simp] theorem State.setA_bookSlots (c n : Nat) (v : Word) : (s.setA c n v).bookSlots = s.bookSlots := State.wr_bookSlots _ _ _
@[simp] theorem State.setA_kvOps (c n : Nat) (v : Word) : (s.setA c n v).kvOps = s.kvOps := State.wr_kvOps _ _ _
@[simp] theorem State.setA_loftFetches (c n : Nat) (v : Word) : (s.setA c n v).loftFetches = s.loftFetches := State.wr_loftFetches _ _ _
@[simp] theorem State.setA_spills (c n : Nat) (v : Word) : (s.setA c n v).spills = s.spills := State.wr_spills _ _ _
@[simp] theorem State.setA_recency (c n : Nat) (v : Word) : (s.setA c n v).recency = s.recency := State.wr_recency _ _ _
@[simp] theorem State.setA_loftClean (c n : Nat) (v : Word) : (s.setA c n v).loftClean = s.loftClean := State.wr_loftClean _ _ _
@[simp] theorem State.setA_digestDirty (c n : Nat) (v : Word) : (s.setA c n v).digestDirty = s.digestDirty := State.wr_digestDirty _ _ _
@[simp] theorem State.setA_tracked (c n : Nat) (v : Word) : (s.setA c n v).tracked = s.tracked := State.wr_tracked _ _ _
@[simp] theorem State.setA_biSent (c n : Nat) (v : Word) : (s.setA c n v).biSent = s.biSent := State.wr_biSent _ _ _
@[simp] theorem State.setA_biWant (c n : Nat) (v : Word) : (s.setA c n v).biWant = s.biWant := State.wr_biWant _ _ _
@[simp] theorem State.setA_reqs (c n : Nat) (v : Word) : (s.setA c n v).reqs = s.reqs := State.wr_reqs _ _ _
@[simp] theorem State.setA_notices (c n : Nat) (v : Word) : (s.setA c n v).notices = s.notices := State.wr_notices _ _ _
@[simp] theorem State.setA_queues (c n : Nat) (v : Word) : (s.setA c n v).queues = s.queues := State.wr_queues _ _ _
@[simp] theorem State.setA_host (c n : Nat) (v : Word) : (s.setA c n v).host = s.host := State.wr_host _ _ _
@[simp] theorem State.setA_binds (c n : Nat) (v : Word) : (s.setA c n v).binds = s.binds := State.wr_binds _ _ _
@[simp] theorem State.setA_blk (c n : Nat) (v : Word) : (s.setA c n v).blk = s.blk := State.wr_blk _ _ _
@[simp] theorem State.setA_inst (c n : Nat) (v : Word) : (s.setA c n v).inst = s.inst := State.wr_inst _ _ _
@[simp] theorem State.setA_faults (c n : Nat) (v : Word) : (s.setA c n v).faults = s.faults := State.wr_faults _ _ _
@[simp] theorem State.setA_sec (c n : Nat) (v : Word) : (s.setA c n v).sec = s.sec := State.wr_sec _ _ _

/-! `setTok` -/

@[simp] theorem State.setTok_pending (c n x y : Nat) : (s.setTok c n x y).pending = s.pending := State.wr_pending _ _ _
@[simp] theorem State.setTok_fresh (c n x y : Nat) : (s.setTok c n x y).fresh = s.fresh := State.wr_fresh _ _ _
@[simp] theorem State.setTok_nextId (c n x y : Nat) : (s.setTok c n x y).nextId = s.nextId := State.wr_nextId _ _ _
@[simp] theorem State.setTok_now (c n x y : Nat) : (s.setTok c n x y).now = s.now := State.wr_now _ _ _
@[simp] theorem State.setTok_shadow (c n x y : Nat) : (s.setTok c n x y).shadow = s.shadow := State.wr_shadow _ _ _
@[simp] theorem State.setTok_latches (c n x y : Nat) : (s.setTok c n x y).latches = s.latches := State.wr_latches _ _ _
@[simp] theorem State.setTok_pantry (c n x y : Nat) : (s.setTok c n x y).pantry = s.pantry := State.wr_pantry _ _ _
@[simp] theorem State.setTok_pantryEcc (c n x y : Nat) : (s.setTok c n x y).pantryEcc = s.pantryEcc := State.wr_pantryEcc _ _ _
@[simp] theorem State.setTok_scrubWrites (c n x y : Nat) : (s.setTok c n x y).scrubWrites = s.scrubWrites := State.wr_scrubWrites _ _ _
@[simp] theorem State.setTok_code (c n x y : Nat) : (s.setTok c n x y).code = s.code := State.wr_code _ _ _
@[simp] theorem State.setTok_codeEcc (c n x y : Nat) : (s.setTok c n x y).codeEcc = s.codeEcc := State.wr_codeEcc _ _ _
@[simp] theorem State.setTok_tokOps (c n x y : Nat) : (s.setTok c n x y).tokOps = s.tokOps := State.wr_tokOps _ _ _
@[simp] theorem State.setTok_lateWin (c n x y : Nat) : (s.setTok c n x y).lateWin = s.lateWin := State.wr_lateWin _ _ _
@[simp] theorem State.setTok_twaits (c n x y : Nat) : (s.setTok c n x y).twaits = s.twaits := State.wr_twaits _ _ _
@[simp] theorem State.setTok_runTime (c n x y : Nat) : (s.setTok c n x y).runTime = s.runTime := State.wr_runTime _ _ _
@[simp] theorem State.setTok_waking (c n x y : Nat) : (s.setTok c n x y).waking = s.waking := State.wr_waking _ _ _
@[simp] theorem State.setTok_sleepWant (c n x y : Nat) : (s.setTok c n x y).sleepWant = s.sleepWant := State.wr_sleepWant _ _ _
@[simp] theorem State.setTok_wokeAt (c n x y : Nat) : (s.setTok c n x y).wokeAt = s.wokeAt := State.wr_wokeAt _ _ _
@[simp] theorem State.setTok_acc (c n x y : Nat) : (s.setTok c n x y).acc = s.acc := State.wr_acc _ _ _
@[simp] theorem State.setTok_accEcc (c n x y : Nat) : (s.setTok c n x y).accEcc = s.accEcc := State.wr_accEcc _ _ _
@[simp] theorem State.setTok_tiles (c n x y : Nat) : (s.setTok c n x y).tiles = s.tiles := State.wr_tiles _ _ _
@[simp] theorem State.setTok_engOps (c n x y : Nat) : (s.setTok c n x y).engOps = s.engOps := State.wr_engOps _ _ _
@[simp] theorem State.setTok_engActive (c n x y : Nat) : (s.setTok c n x y).engActive = s.engActive := State.wr_engActive _ _ _
@[simp] theorem State.setTok_engBad (c n x y : Nat) : (s.setTok c n x y).engBad = s.engBad := State.wr_engBad _ _ _
@[simp] theorem State.setTok_vecOps (c n x y : Nat) : (s.setTok c n x y).vecOps = s.vecOps := State.wr_vecOps _ _ _
@[simp] theorem State.setTok_fires (c n x y : Nat) : (s.setTok c n x y).fires = s.fires := State.wr_fires _ _ _
@[simp] theorem State.setTok_outBufs (c n x y : Nat) : (s.setTok c n x y).outBufs = s.outBufs := State.wr_outBufs _ _ _
@[simp] theorem State.setTok_winPends (c n x y : Nat) : (s.setTok c n x y).winPends = s.winPends := State.wr_winPends _ _ _
@[simp] theorem State.setTok_sigWaits (c n x y : Nat) : (s.setTok c n x y).sigWaits = s.sigWaits := State.wr_sigWaits _ _ _
@[simp] theorem State.setTok_sigOuts (c n x y : Nat) : (s.setTok c n x y).sigOuts = s.sigOuts := State.wr_sigOuts _ _ _
@[simp] theorem State.setTok_net (c n x y : Nat) : (s.setTok c n x y).net = s.net := State.wr_net _ _ _
@[simp] theorem State.setTok_pn (c n x y : Nat) : (s.setTok c n x y).pn = s.pn := State.wr_pn _ _ _
@[simp] theorem State.setTok_cells (c n x y : Nat) : (s.setTok c n x y).cells = s.cells := State.wr_cells _ _ _
@[simp] theorem State.setTok_scales (c n x y : Nat) : (s.setTok c n x y).scales = s.scales := State.wr_scales _ _ _
@[simp] theorem State.setTok_wsums (c n x y : Nat) : (s.setTok c n x y).wsums = s.wsums := State.wr_wsums _ _ _
@[simp] theorem State.setTok_dsums (c n x y : Nat) : (s.setTok c n x y).dsums = s.dsums := State.wr_dsums _ _ _
@[simp] theorem State.setTok_rsums (c n x y : Nat) : (s.setTok c n x y).rsums = s.rsums := State.wr_rsums _ _ _
@[simp] theorem State.setTok_spans (c n x y : Nat) : (s.setTok c n x y).spans = s.spans := State.wr_spans _ _ _
@[simp] theorem State.setTok_labelEcc (c n x y : Nat) : (s.setTok c n x y).labelEcc = s.labelEcc := State.wr_labelEcc _ _ _
@[simp] theorem State.setTok_testSums (c n x y : Nat) : (s.setTok c n x y).testSums = s.testSums := State.wr_testSums _ _ _
@[simp] theorem State.setTok_envelopes (c n x y : Nat) : (s.setTok c n x y).envelopes = s.envelopes := State.wr_envelopes _ _ _
@[simp] theorem State.setTok_colStats (c n x y : Nat) : (s.setTok c n x y).colStats = s.colStats := State.wr_colStats _ _ _
@[simp] theorem State.setTok_binRecs (c n x y : Nat) : (s.setTok c n x y).binRecs = s.binRecs := State.wr_binRecs _ _ _
@[simp] theorem State.setTok_rackRecs (c n x y : Nat) : (s.setTok c n x y).rackRecs = s.rackRecs := State.wr_rackRecs _ _ _
@[simp] theorem State.setTok_binChecks (c n x y : Nat) : (s.setTok c n x y).binChecks = s.binChecks := State.wr_binChecks _ _ _
@[simp] theorem State.setTok_driftActs (c n x y : Nat) : (s.setTok c n x y).driftActs = s.driftActs := State.wr_driftActs _ _ _
@[simp] theorem State.setTok_refreshQ (c n x y : Nat) : (s.setTok c n x y).refreshQ = s.refreshQ := State.wr_refreshQ _ _ _
@[simp] theorem State.setTok_refreshing (c n x y : Nat) : (s.setTok c n x y).refreshing = s.refreshing := State.wr_refreshing _ _ _
@[simp] theorem State.setTok_autoRefresh (c n x y : Nat) : (s.setTok c n x y).autoRefresh = s.autoRefresh := State.wr_autoRefresh _ _ _
@[simp] theorem State.setTok_hvRefresh (c n x y : Nat) : (s.setTok c n x y).hvRefresh = s.hvRefresh := State.wr_hvRefresh _ _ _
@[simp] theorem State.setTok_quietAt (c n x y : Nat) : (s.setTok c n x y).quietAt = s.quietAt := State.wr_quietAt _ _ _
@[simp] theorem State.setTok_driftLog (c n x y : Nat) : (s.setTok c n x y).driftLog = s.driftLog := State.wr_driftLog _ _ _
@[simp] theorem State.setTok_errLog (c n x y : Nat) : (s.setTok c n x y).errLog = s.errLog := State.wr_errLog _ _ _
@[simp] theorem State.setTok_thrLog (c n x y : Nat) : (s.setTok c n x y).thrLog = s.thrLog := State.wr_thrLog _ _ _
@[simp] theorem State.setTok_wear (c n x y : Nat) : (s.setTok c n x y).wear = s.wear := State.wr_wear _ _ _
@[simp] theorem State.setTok_binMap (c n x y : Nat) : (s.setTok c n x y).binMap = s.binMap := State.wr_binMap _ _ _
@[simp] theorem State.setTok_thresholds (c n x y : Nat) : (s.setTok c n x y).thresholds = s.thresholds := State.wr_thresholds _ _ _
@[simp] theorem State.setTok_threshBad (c n x y : Nat) : (s.setTok c n x y).threshBad = s.threshBad := State.wr_threshBad _ _ _
@[simp] theorem State.setTok_tempTrim (c n x y : Nat) : (s.setTok c n x y).tempTrim = s.tempTrim := State.wr_tempTrim _ _ _
@[simp] theorem State.setTok_trimTemp (c n x y : Nat) : (s.setTok c n x y).trimTemp = s.trimTemp := State.wr_trimTemp _ _ _
@[simp] theorem State.setTok_tempOut (c n x y : Nat) : (s.setTok c n x y).tempOut = s.tempOut := State.wr_tempOut _ _ _
@[simp] theorem State.setTok_actTests (c n x y : Nat) : (s.setTok c n x y).actTests = s.actTests := State.wr_actTests _ _ _
@[simp] theorem State.setTok_actTestAt (c n x y : Nat) : (s.setTok c n x y).actTestAt = s.actTestAt := State.wr_actTestAt _ _ _
@[simp] theorem State.setTok_ctxs (c n x y : Nat) : (s.setTok c n x y).ctxs = s.ctxs := State.wr_ctxs _ _ _
@[simp] theorem State.setTok_passes (c n x y : Nat) : (s.setTok c n x y).passes = s.passes := State.wr_passes _ _ _
@[simp] theorem State.setTok_trips (c n x y : Nat) : (s.setTok c n x y).trips = s.trips := State.wr_trips _ _ _
@[simp] theorem State.setTok_normActs (c n x y : Nat) : (s.setTok c n x y).normActs = s.normActs := State.wr_normActs _ _ _
@[simp] theorem State.setTok_outbox (c n x y : Nat) : (s.setTok c n x y).outbox = s.outbox := State.wr_outbox _ _ _
@[simp] theorem State.setTok_claimQ (c n x y : Nat) : (s.setTok c n x y).claimQ = s.claimQ := State.wr_claimQ _ _ _
@[simp] theorem State.setTok_power (c n x y : Nat) : (s.setTok c n x y).power = s.power := State.wr_power _ _ _
@[simp] theorem State.setTok_routes (c n x y : Nat) : (s.setTok c n x y).routes = s.routes := State.wr_routes _ _ _
@[simp] theorem State.setTok_routesKept (c n x y : Nat) : (s.setTok c n x y).routesKept = s.routesKept := State.wr_routesKept _ _ _
@[simp] theorem State.setTok_ports (c n x y : Nat) : (s.setTok c n x y).ports = s.ports := State.wr_ports _ _ _
@[simp] theorem State.setTok_answered (c n x y : Nat) : (s.setTok c n x y).answered = s.answered := State.wr_answered _ _ _
@[simp] theorem State.setTok_slackIn (c n x y : Nat) : (s.setTok c n x y).slackIn = s.slackIn := State.wr_slackIn _ _ _
@[simp] theorem State.setTok_slots (c n x y : Nat) : (s.setTok c n x y).slots = s.slots := State.wr_slots _ _ _
@[simp] theorem State.setTok_parts (c n x y : Nat) : (s.setTok c n x y).parts = s.parts := State.wr_parts _ _ _
@[simp] theorem State.setTok_layerKv (c n x y : Nat) : (s.setTok c n x y).layerKv = s.layerKv := State.wr_layerKv _ _ _
@[simp] theorem State.setTok_standIns (c n x y : Nat) : (s.setTok c n x y).standIns = s.standIns := State.wr_standIns _ _ _
@[simp] theorem State.setTok_kvHolds (c n x y : Nat) : (s.setTok c n x y).kvHolds = s.kvHolds := State.wr_kvHolds _ _ _
@[simp] theorem State.setTok_kvReserves (c n x y : Nat) : (s.setTok c n x y).kvReserves = s.kvReserves := State.wr_kvReserves _ _ _
@[simp] theorem State.setTok_kvSlots (c n x y : Nat) : (s.setTok c n x y).kvSlots = s.kvSlots := State.wr_kvSlots _ _ _
@[simp] theorem State.setTok_bookSlots (c n x y : Nat) : (s.setTok c n x y).bookSlots = s.bookSlots := State.wr_bookSlots _ _ _
@[simp] theorem State.setTok_kvOps (c n x y : Nat) : (s.setTok c n x y).kvOps = s.kvOps := State.wr_kvOps _ _ _
@[simp] theorem State.setTok_loftFetches (c n x y : Nat) : (s.setTok c n x y).loftFetches = s.loftFetches := State.wr_loftFetches _ _ _
@[simp] theorem State.setTok_spills (c n x y : Nat) : (s.setTok c n x y).spills = s.spills := State.wr_spills _ _ _
@[simp] theorem State.setTok_recency (c n x y : Nat) : (s.setTok c n x y).recency = s.recency := State.wr_recency _ _ _
@[simp] theorem State.setTok_loftClean (c n x y : Nat) : (s.setTok c n x y).loftClean = s.loftClean := State.wr_loftClean _ _ _
@[simp] theorem State.setTok_digestDirty (c n x y : Nat) : (s.setTok c n x y).digestDirty = s.digestDirty := State.wr_digestDirty _ _ _
@[simp] theorem State.setTok_tracked (c n x y : Nat) : (s.setTok c n x y).tracked = s.tracked := State.wr_tracked _ _ _
@[simp] theorem State.setTok_biSent (c n x y : Nat) : (s.setTok c n x y).biSent = s.biSent := State.wr_biSent _ _ _
@[simp] theorem State.setTok_biWant (c n x y : Nat) : (s.setTok c n x y).biWant = s.biWant := State.wr_biWant _ _ _
@[simp] theorem State.setTok_reqs (c n x y : Nat) : (s.setTok c n x y).reqs = s.reqs := State.wr_reqs _ _ _
@[simp] theorem State.setTok_notices (c n x y : Nat) : (s.setTok c n x y).notices = s.notices := State.wr_notices _ _ _
@[simp] theorem State.setTok_queues (c n x y : Nat) : (s.setTok c n x y).queues = s.queues := State.wr_queues _ _ _
@[simp] theorem State.setTok_host (c n x y : Nat) : (s.setTok c n x y).host = s.host := State.wr_host _ _ _
@[simp] theorem State.setTok_binds (c n x y : Nat) : (s.setTok c n x y).binds = s.binds := State.wr_binds _ _ _
@[simp] theorem State.setTok_blk (c n x y : Nat) : (s.setTok c n x y).blk = s.blk := State.wr_blk _ _ _
@[simp] theorem State.setTok_inst (c n x y : Nat) : (s.setTok c n x y).inst = s.inst := State.wr_inst _ _ _
@[simp] theorem State.setTok_faults (c n x y : Nat) : (s.setTok c n x y).faults = s.faults := State.wr_faults _ _ _
@[simp] theorem State.setTok_sec (c n x y : Nat) : (s.setTok c n x y).sec = s.sec := State.wr_sec _ _ _

/-! `setTokCount` -/

@[simp] theorem State.setTokCount_pending (c n x : Nat) : (s.setTokCount c n x).pending = s.pending := (rfl)
@[simp] theorem State.setTokCount_fresh (c n x : Nat) : (s.setTokCount c n x).fresh = s.fresh := (rfl)
@[simp] theorem State.setTokCount_nextId (c n x : Nat) : (s.setTokCount c n x).nextId = s.nextId := (rfl)
@[simp] theorem State.setTokCount_now (c n x : Nat) : (s.setTokCount c n x).now = s.now := (rfl)
@[simp] theorem State.setTokCount_regs (c n x : Nat) : (s.setTokCount c n x).regs = s.regs := (rfl)
@[simp] theorem State.setTokCount_shadow (c n x : Nat) : (s.setTokCount c n x).shadow = s.shadow := (rfl)
@[simp] theorem State.setTokCount_latches (c n x : Nat) : (s.setTokCount c n x).latches = s.latches := (rfl)
@[simp] theorem State.setTokCount_pantry (c n x : Nat) : (s.setTokCount c n x).pantry = s.pantry := (rfl)
@[simp] theorem State.setTokCount_pantryEcc (c n x : Nat) : (s.setTokCount c n x).pantryEcc = s.pantryEcc := (rfl)
@[simp] theorem State.setTokCount_scrubWrites (c n x : Nat) : (s.setTokCount c n x).scrubWrites = s.scrubWrites := (rfl)
@[simp] theorem State.setTokCount_code (c n x : Nat) : (s.setTokCount c n x).code = s.code := (rfl)
@[simp] theorem State.setTokCount_codeEcc (c n x : Nat) : (s.setTokCount c n x).codeEcc = s.codeEcc := (rfl)
@[simp] theorem State.setTokCount_lateWin (c n x : Nat) : (s.setTokCount c n x).lateWin = s.lateWin := (rfl)
@[simp] theorem State.setTokCount_twaits (c n x : Nat) : (s.setTokCount c n x).twaits = s.twaits := (rfl)
@[simp] theorem State.setTokCount_runTime (c n x : Nat) : (s.setTokCount c n x).runTime = s.runTime := (rfl)
@[simp] theorem State.setTokCount_waking (c n x : Nat) : (s.setTokCount c n x).waking = s.waking := (rfl)
@[simp] theorem State.setTokCount_sleepWant (c n x : Nat) : (s.setTokCount c n x).sleepWant = s.sleepWant := (rfl)
@[simp] theorem State.setTokCount_wokeAt (c n x : Nat) : (s.setTokCount c n x).wokeAt = s.wokeAt := (rfl)
@[simp] theorem State.setTokCount_acc (c n x : Nat) : (s.setTokCount c n x).acc = s.acc := (rfl)
@[simp] theorem State.setTokCount_accEcc (c n x : Nat) : (s.setTokCount c n x).accEcc = s.accEcc := (rfl)
@[simp] theorem State.setTokCount_tiles (c n x : Nat) : (s.setTokCount c n x).tiles = s.tiles := (rfl)
@[simp] theorem State.setTokCount_engOps (c n x : Nat) : (s.setTokCount c n x).engOps = s.engOps := (rfl)
@[simp] theorem State.setTokCount_engActive (c n x : Nat) : (s.setTokCount c n x).engActive = s.engActive := (rfl)
@[simp] theorem State.setTokCount_engBad (c n x : Nat) : (s.setTokCount c n x).engBad = s.engBad := (rfl)
@[simp] theorem State.setTokCount_vecOps (c n x : Nat) : (s.setTokCount c n x).vecOps = s.vecOps := (rfl)
@[simp] theorem State.setTokCount_fires (c n x : Nat) : (s.setTokCount c n x).fires = s.fires := (rfl)
@[simp] theorem State.setTokCount_outBufs (c n x : Nat) : (s.setTokCount c n x).outBufs = s.outBufs := (rfl)
@[simp] theorem State.setTokCount_winPends (c n x : Nat) : (s.setTokCount c n x).winPends = s.winPends := (rfl)
@[simp] theorem State.setTokCount_sigWaits (c n x : Nat) : (s.setTokCount c n x).sigWaits = s.sigWaits := (rfl)
@[simp] theorem State.setTokCount_sigOuts (c n x : Nat) : (s.setTokCount c n x).sigOuts = s.sigOuts := (rfl)
@[simp] theorem State.setTokCount_net (c n x : Nat) : (s.setTokCount c n x).net = s.net := (rfl)
@[simp] theorem State.setTokCount_pn (c n x : Nat) : (s.setTokCount c n x).pn = s.pn := (rfl)
@[simp] theorem State.setTokCount_cells (c n x : Nat) : (s.setTokCount c n x).cells = s.cells := (rfl)
@[simp] theorem State.setTokCount_scales (c n x : Nat) : (s.setTokCount c n x).scales = s.scales := (rfl)
@[simp] theorem State.setTokCount_wsums (c n x : Nat) : (s.setTokCount c n x).wsums = s.wsums := (rfl)
@[simp] theorem State.setTokCount_dsums (c n x : Nat) : (s.setTokCount c n x).dsums = s.dsums := (rfl)
@[simp] theorem State.setTokCount_rsums (c n x : Nat) : (s.setTokCount c n x).rsums = s.rsums := (rfl)
@[simp] theorem State.setTokCount_spans (c n x : Nat) : (s.setTokCount c n x).spans = s.spans := (rfl)
@[simp] theorem State.setTokCount_labelEcc (c n x : Nat) : (s.setTokCount c n x).labelEcc = s.labelEcc := (rfl)
@[simp] theorem State.setTokCount_testSums (c n x : Nat) : (s.setTokCount c n x).testSums = s.testSums := (rfl)
@[simp] theorem State.setTokCount_envelopes (c n x : Nat) : (s.setTokCount c n x).envelopes = s.envelopes := (rfl)
@[simp] theorem State.setTokCount_colStats (c n x : Nat) : (s.setTokCount c n x).colStats = s.colStats := (rfl)
@[simp] theorem State.setTokCount_binRecs (c n x : Nat) : (s.setTokCount c n x).binRecs = s.binRecs := (rfl)
@[simp] theorem State.setTokCount_rackRecs (c n x : Nat) : (s.setTokCount c n x).rackRecs = s.rackRecs := (rfl)
@[simp] theorem State.setTokCount_binChecks (c n x : Nat) : (s.setTokCount c n x).binChecks = s.binChecks := (rfl)
@[simp] theorem State.setTokCount_driftActs (c n x : Nat) : (s.setTokCount c n x).driftActs = s.driftActs := (rfl)
@[simp] theorem State.setTokCount_refreshQ (c n x : Nat) : (s.setTokCount c n x).refreshQ = s.refreshQ := (rfl)
@[simp] theorem State.setTokCount_refreshing (c n x : Nat) : (s.setTokCount c n x).refreshing = s.refreshing := (rfl)
@[simp] theorem State.setTokCount_autoRefresh (c n x : Nat) : (s.setTokCount c n x).autoRefresh = s.autoRefresh := (rfl)
@[simp] theorem State.setTokCount_hvRefresh (c n x : Nat) : (s.setTokCount c n x).hvRefresh = s.hvRefresh := (rfl)
@[simp] theorem State.setTokCount_quietAt (c n x : Nat) : (s.setTokCount c n x).quietAt = s.quietAt := (rfl)
@[simp] theorem State.setTokCount_driftLog (c n x : Nat) : (s.setTokCount c n x).driftLog = s.driftLog := (rfl)
@[simp] theorem State.setTokCount_errLog (c n x : Nat) : (s.setTokCount c n x).errLog = s.errLog := (rfl)
@[simp] theorem State.setTokCount_thrLog (c n x : Nat) : (s.setTokCount c n x).thrLog = s.thrLog := (rfl)
@[simp] theorem State.setTokCount_wear (c n x : Nat) : (s.setTokCount c n x).wear = s.wear := (rfl)
@[simp] theorem State.setTokCount_binMap (c n x : Nat) : (s.setTokCount c n x).binMap = s.binMap := (rfl)
@[simp] theorem State.setTokCount_thresholds (c n x : Nat) : (s.setTokCount c n x).thresholds = s.thresholds := (rfl)
@[simp] theorem State.setTokCount_threshBad (c n x : Nat) : (s.setTokCount c n x).threshBad = s.threshBad := (rfl)
@[simp] theorem State.setTokCount_tempTrim (c n x : Nat) : (s.setTokCount c n x).tempTrim = s.tempTrim := (rfl)
@[simp] theorem State.setTokCount_trimTemp (c n x : Nat) : (s.setTokCount c n x).trimTemp = s.trimTemp := (rfl)
@[simp] theorem State.setTokCount_tempOut (c n x : Nat) : (s.setTokCount c n x).tempOut = s.tempOut := (rfl)
@[simp] theorem State.setTokCount_actTests (c n x : Nat) : (s.setTokCount c n x).actTests = s.actTests := (rfl)
@[simp] theorem State.setTokCount_actTestAt (c n x : Nat) : (s.setTokCount c n x).actTestAt = s.actTestAt := (rfl)
@[simp] theorem State.setTokCount_ctxs (c n x : Nat) : (s.setTokCount c n x).ctxs = s.ctxs := (rfl)
@[simp] theorem State.setTokCount_passes (c n x : Nat) : (s.setTokCount c n x).passes = s.passes := (rfl)
@[simp] theorem State.setTokCount_trips (c n x : Nat) : (s.setTokCount c n x).trips = s.trips := (rfl)
@[simp] theorem State.setTokCount_normActs (c n x : Nat) : (s.setTokCount c n x).normActs = s.normActs := (rfl)
@[simp] theorem State.setTokCount_outbox (c n x : Nat) : (s.setTokCount c n x).outbox = s.outbox := (rfl)
@[simp] theorem State.setTokCount_claimQ (c n x : Nat) : (s.setTokCount c n x).claimQ = s.claimQ := (rfl)
@[simp] theorem State.setTokCount_power (c n x : Nat) : (s.setTokCount c n x).power = s.power := (rfl)
@[simp] theorem State.setTokCount_routes (c n x : Nat) : (s.setTokCount c n x).routes = s.routes := (rfl)
@[simp] theorem State.setTokCount_routesKept (c n x : Nat) : (s.setTokCount c n x).routesKept = s.routesKept := (rfl)
@[simp] theorem State.setTokCount_ports (c n x : Nat) : (s.setTokCount c n x).ports = s.ports := (rfl)
@[simp] theorem State.setTokCount_answered (c n x : Nat) : (s.setTokCount c n x).answered = s.answered := (rfl)
@[simp] theorem State.setTokCount_slackIn (c n x : Nat) : (s.setTokCount c n x).slackIn = s.slackIn := (rfl)
@[simp] theorem State.setTokCount_slots (c n x : Nat) : (s.setTokCount c n x).slots = s.slots := (rfl)
@[simp] theorem State.setTokCount_parts (c n x : Nat) : (s.setTokCount c n x).parts = s.parts := (rfl)
@[simp] theorem State.setTokCount_layerKv (c n x : Nat) : (s.setTokCount c n x).layerKv = s.layerKv := (rfl)
@[simp] theorem State.setTokCount_standIns (c n x : Nat) : (s.setTokCount c n x).standIns = s.standIns := (rfl)
@[simp] theorem State.setTokCount_kvHolds (c n x : Nat) : (s.setTokCount c n x).kvHolds = s.kvHolds := (rfl)
@[simp] theorem State.setTokCount_kvReserves (c n x : Nat) : (s.setTokCount c n x).kvReserves = s.kvReserves := (rfl)
@[simp] theorem State.setTokCount_kvSlots (c n x : Nat) : (s.setTokCount c n x).kvSlots = s.kvSlots := (rfl)
@[simp] theorem State.setTokCount_bookSlots (c n x : Nat) : (s.setTokCount c n x).bookSlots = s.bookSlots := (rfl)
@[simp] theorem State.setTokCount_kvOps (c n x : Nat) : (s.setTokCount c n x).kvOps = s.kvOps := (rfl)
@[simp] theorem State.setTokCount_loftFetches (c n x : Nat) : (s.setTokCount c n x).loftFetches = s.loftFetches := (rfl)
@[simp] theorem State.setTokCount_spills (c n x : Nat) : (s.setTokCount c n x).spills = s.spills := (rfl)
@[simp] theorem State.setTokCount_recency (c n x : Nat) : (s.setTokCount c n x).recency = s.recency := (rfl)
@[simp] theorem State.setTokCount_loftClean (c n x : Nat) : (s.setTokCount c n x).loftClean = s.loftClean := (rfl)
@[simp] theorem State.setTokCount_digestDirty (c n x : Nat) : (s.setTokCount c n x).digestDirty = s.digestDirty := (rfl)
@[simp] theorem State.setTokCount_tracked (c n x : Nat) : (s.setTokCount c n x).tracked = s.tracked := (rfl)
@[simp] theorem State.setTokCount_biSent (c n x : Nat) : (s.setTokCount c n x).biSent = s.biSent := (rfl)
@[simp] theorem State.setTokCount_biWant (c n x : Nat) : (s.setTokCount c n x).biWant = s.biWant := (rfl)
@[simp] theorem State.setTokCount_reqs (c n x : Nat) : (s.setTokCount c n x).reqs = s.reqs := (rfl)
@[simp] theorem State.setTokCount_notices (c n x : Nat) : (s.setTokCount c n x).notices = s.notices := (rfl)
@[simp] theorem State.setTokCount_queues (c n x : Nat) : (s.setTokCount c n x).queues = s.queues := (rfl)
@[simp] theorem State.setTokCount_host (c n x : Nat) : (s.setTokCount c n x).host = s.host := (rfl)
@[simp] theorem State.setTokCount_binds (c n x : Nat) : (s.setTokCount c n x).binds = s.binds := (rfl)
@[simp] theorem State.setTokCount_blk (c n x : Nat) : (s.setTokCount c n x).blk = s.blk := (rfl)
@[simp] theorem State.setTokCount_inst (c n x : Nat) : (s.setTokCount c n x).inst = s.inst := (rfl)
@[simp] theorem State.setTokCount_faults (c n x : Nat) : (s.setTokCount c n x).faults = s.faults := (rfl)
@[simp] theorem State.setTokCount_sec (c n x : Nat) : (s.setTokCount c n x).sec = s.sec := (rfl)

/-! `setEcc` -/

@[simp] theorem State.setEcc_pending (c o : Nat) (m : EccMark) : (s.setEcc c o m).pending = s.pending := (rfl)
@[simp] theorem State.setEcc_fresh (c o : Nat) (m : EccMark) : (s.setEcc c o m).fresh = s.fresh := (rfl)
@[simp] theorem State.setEcc_nextId (c o : Nat) (m : EccMark) : (s.setEcc c o m).nextId = s.nextId := (rfl)
@[simp] theorem State.setEcc_now (c o : Nat) (m : EccMark) : (s.setEcc c o m).now = s.now := (rfl)
@[simp] theorem State.setEcc_regs (c o : Nat) (m : EccMark) : (s.setEcc c o m).regs = s.regs := (rfl)
@[simp] theorem State.setEcc_shadow (c o : Nat) (m : EccMark) : (s.setEcc c o m).shadow = s.shadow := (rfl)
@[simp] theorem State.setEcc_latches (c o : Nat) (m : EccMark) : (s.setEcc c o m).latches = s.latches := (rfl)
@[simp] theorem State.setEcc_pantry (c o : Nat) (m : EccMark) : (s.setEcc c o m).pantry = s.pantry := (rfl)
@[simp] theorem State.setEcc_scrubWrites (c o : Nat) (m : EccMark) : (s.setEcc c o m).scrubWrites = s.scrubWrites := (rfl)
@[simp] theorem State.setEcc_code (c o : Nat) (m : EccMark) : (s.setEcc c o m).code = s.code := (rfl)
@[simp] theorem State.setEcc_codeEcc (c o : Nat) (m : EccMark) : (s.setEcc c o m).codeEcc = s.codeEcc := (rfl)
@[simp] theorem State.setEcc_tokOps (c o : Nat) (m : EccMark) : (s.setEcc c o m).tokOps = s.tokOps := (rfl)
@[simp] theorem State.setEcc_lateWin (c o : Nat) (m : EccMark) : (s.setEcc c o m).lateWin = s.lateWin := (rfl)
@[simp] theorem State.setEcc_twaits (c o : Nat) (m : EccMark) : (s.setEcc c o m).twaits = s.twaits := (rfl)
@[simp] theorem State.setEcc_runTime (c o : Nat) (m : EccMark) : (s.setEcc c o m).runTime = s.runTime := (rfl)
@[simp] theorem State.setEcc_waking (c o : Nat) (m : EccMark) : (s.setEcc c o m).waking = s.waking := (rfl)
@[simp] theorem State.setEcc_sleepWant (c o : Nat) (m : EccMark) : (s.setEcc c o m).sleepWant = s.sleepWant := (rfl)
@[simp] theorem State.setEcc_wokeAt (c o : Nat) (m : EccMark) : (s.setEcc c o m).wokeAt = s.wokeAt := (rfl)
@[simp] theorem State.setEcc_acc (c o : Nat) (m : EccMark) : (s.setEcc c o m).acc = s.acc := (rfl)
@[simp] theorem State.setEcc_accEcc (c o : Nat) (m : EccMark) : (s.setEcc c o m).accEcc = s.accEcc := (rfl)
@[simp] theorem State.setEcc_tiles (c o : Nat) (m : EccMark) : (s.setEcc c o m).tiles = s.tiles := (rfl)
@[simp] theorem State.setEcc_engOps (c o : Nat) (m : EccMark) : (s.setEcc c o m).engOps = s.engOps := (rfl)
@[simp] theorem State.setEcc_engActive (c o : Nat) (m : EccMark) : (s.setEcc c o m).engActive = s.engActive := (rfl)
@[simp] theorem State.setEcc_engBad (c o : Nat) (m : EccMark) : (s.setEcc c o m).engBad = s.engBad := (rfl)
@[simp] theorem State.setEcc_vecOps (c o : Nat) (m : EccMark) : (s.setEcc c o m).vecOps = s.vecOps := (rfl)
@[simp] theorem State.setEcc_fires (c o : Nat) (m : EccMark) : (s.setEcc c o m).fires = s.fires := (rfl)
@[simp] theorem State.setEcc_outBufs (c o : Nat) (m : EccMark) : (s.setEcc c o m).outBufs = s.outBufs := (rfl)
@[simp] theorem State.setEcc_winPends (c o : Nat) (m : EccMark) : (s.setEcc c o m).winPends = s.winPends := (rfl)
@[simp] theorem State.setEcc_sigWaits (c o : Nat) (m : EccMark) : (s.setEcc c o m).sigWaits = s.sigWaits := (rfl)
@[simp] theorem State.setEcc_sigOuts (c o : Nat) (m : EccMark) : (s.setEcc c o m).sigOuts = s.sigOuts := (rfl)
@[simp] theorem State.setEcc_net (c o : Nat) (m : EccMark) : (s.setEcc c o m).net = s.net := (rfl)
@[simp] theorem State.setEcc_pn (c o : Nat) (m : EccMark) : (s.setEcc c o m).pn = s.pn := (rfl)
@[simp] theorem State.setEcc_cells (c o : Nat) (m : EccMark) : (s.setEcc c o m).cells = s.cells := (rfl)
@[simp] theorem State.setEcc_scales (c o : Nat) (m : EccMark) : (s.setEcc c o m).scales = s.scales := (rfl)
@[simp] theorem State.setEcc_wsums (c o : Nat) (m : EccMark) : (s.setEcc c o m).wsums = s.wsums := (rfl)
@[simp] theorem State.setEcc_dsums (c o : Nat) (m : EccMark) : (s.setEcc c o m).dsums = s.dsums := (rfl)
@[simp] theorem State.setEcc_rsums (c o : Nat) (m : EccMark) : (s.setEcc c o m).rsums = s.rsums := (rfl)
@[simp] theorem State.setEcc_spans (c o : Nat) (m : EccMark) : (s.setEcc c o m).spans = s.spans := (rfl)
@[simp] theorem State.setEcc_labelEcc (c o : Nat) (m : EccMark) : (s.setEcc c o m).labelEcc = s.labelEcc := (rfl)
@[simp] theorem State.setEcc_testSums (c o : Nat) (m : EccMark) : (s.setEcc c o m).testSums = s.testSums := (rfl)
@[simp] theorem State.setEcc_envelopes (c o : Nat) (m : EccMark) : (s.setEcc c o m).envelopes = s.envelopes := (rfl)
@[simp] theorem State.setEcc_colStats (c o : Nat) (m : EccMark) : (s.setEcc c o m).colStats = s.colStats := (rfl)
@[simp] theorem State.setEcc_binRecs (c o : Nat) (m : EccMark) : (s.setEcc c o m).binRecs = s.binRecs := (rfl)
@[simp] theorem State.setEcc_rackRecs (c o : Nat) (m : EccMark) : (s.setEcc c o m).rackRecs = s.rackRecs := (rfl)
@[simp] theorem State.setEcc_binChecks (c o : Nat) (m : EccMark) : (s.setEcc c o m).binChecks = s.binChecks := (rfl)
@[simp] theorem State.setEcc_driftActs (c o : Nat) (m : EccMark) : (s.setEcc c o m).driftActs = s.driftActs := (rfl)
@[simp] theorem State.setEcc_refreshQ (c o : Nat) (m : EccMark) : (s.setEcc c o m).refreshQ = s.refreshQ := (rfl)
@[simp] theorem State.setEcc_refreshing (c o : Nat) (m : EccMark) : (s.setEcc c o m).refreshing = s.refreshing := (rfl)
@[simp] theorem State.setEcc_autoRefresh (c o : Nat) (m : EccMark) : (s.setEcc c o m).autoRefresh = s.autoRefresh := (rfl)
@[simp] theorem State.setEcc_hvRefresh (c o : Nat) (m : EccMark) : (s.setEcc c o m).hvRefresh = s.hvRefresh := (rfl)
@[simp] theorem State.setEcc_quietAt (c o : Nat) (m : EccMark) : (s.setEcc c o m).quietAt = s.quietAt := (rfl)
@[simp] theorem State.setEcc_driftLog (c o : Nat) (m : EccMark) : (s.setEcc c o m).driftLog = s.driftLog := (rfl)
@[simp] theorem State.setEcc_errLog (c o : Nat) (m : EccMark) : (s.setEcc c o m).errLog = s.errLog := (rfl)
@[simp] theorem State.setEcc_thrLog (c o : Nat) (m : EccMark) : (s.setEcc c o m).thrLog = s.thrLog := (rfl)
@[simp] theorem State.setEcc_wear (c o : Nat) (m : EccMark) : (s.setEcc c o m).wear = s.wear := (rfl)
@[simp] theorem State.setEcc_binMap (c o : Nat) (m : EccMark) : (s.setEcc c o m).binMap = s.binMap := (rfl)
@[simp] theorem State.setEcc_thresholds (c o : Nat) (m : EccMark) : (s.setEcc c o m).thresholds = s.thresholds := (rfl)
@[simp] theorem State.setEcc_threshBad (c o : Nat) (m : EccMark) : (s.setEcc c o m).threshBad = s.threshBad := (rfl)
@[simp] theorem State.setEcc_tempTrim (c o : Nat) (m : EccMark) : (s.setEcc c o m).tempTrim = s.tempTrim := (rfl)
@[simp] theorem State.setEcc_trimTemp (c o : Nat) (m : EccMark) : (s.setEcc c o m).trimTemp = s.trimTemp := (rfl)
@[simp] theorem State.setEcc_tempOut (c o : Nat) (m : EccMark) : (s.setEcc c o m).tempOut = s.tempOut := (rfl)
@[simp] theorem State.setEcc_actTests (c o : Nat) (m : EccMark) : (s.setEcc c o m).actTests = s.actTests := (rfl)
@[simp] theorem State.setEcc_actTestAt (c o : Nat) (m : EccMark) : (s.setEcc c o m).actTestAt = s.actTestAt := (rfl)
@[simp] theorem State.setEcc_ctxs (c o : Nat) (m : EccMark) : (s.setEcc c o m).ctxs = s.ctxs := (rfl)
@[simp] theorem State.setEcc_passes (c o : Nat) (m : EccMark) : (s.setEcc c o m).passes = s.passes := (rfl)
@[simp] theorem State.setEcc_trips (c o : Nat) (m : EccMark) : (s.setEcc c o m).trips = s.trips := (rfl)
@[simp] theorem State.setEcc_normActs (c o : Nat) (m : EccMark) : (s.setEcc c o m).normActs = s.normActs := (rfl)
@[simp] theorem State.setEcc_outbox (c o : Nat) (m : EccMark) : (s.setEcc c o m).outbox = s.outbox := (rfl)
@[simp] theorem State.setEcc_claimQ (c o : Nat) (m : EccMark) : (s.setEcc c o m).claimQ = s.claimQ := (rfl)
@[simp] theorem State.setEcc_power (c o : Nat) (m : EccMark) : (s.setEcc c o m).power = s.power := (rfl)
@[simp] theorem State.setEcc_routes (c o : Nat) (m : EccMark) : (s.setEcc c o m).routes = s.routes := (rfl)
@[simp] theorem State.setEcc_routesKept (c o : Nat) (m : EccMark) : (s.setEcc c o m).routesKept = s.routesKept := (rfl)
@[simp] theorem State.setEcc_ports (c o : Nat) (m : EccMark) : (s.setEcc c o m).ports = s.ports := (rfl)
@[simp] theorem State.setEcc_answered (c o : Nat) (m : EccMark) : (s.setEcc c o m).answered = s.answered := (rfl)
@[simp] theorem State.setEcc_slackIn (c o : Nat) (m : EccMark) : (s.setEcc c o m).slackIn = s.slackIn := (rfl)
@[simp] theorem State.setEcc_slots (c o : Nat) (m : EccMark) : (s.setEcc c o m).slots = s.slots := (rfl)
@[simp] theorem State.setEcc_parts (c o : Nat) (m : EccMark) : (s.setEcc c o m).parts = s.parts := (rfl)
@[simp] theorem State.setEcc_layerKv (c o : Nat) (m : EccMark) : (s.setEcc c o m).layerKv = s.layerKv := (rfl)
@[simp] theorem State.setEcc_standIns (c o : Nat) (m : EccMark) : (s.setEcc c o m).standIns = s.standIns := (rfl)
@[simp] theorem State.setEcc_kvHolds (c o : Nat) (m : EccMark) : (s.setEcc c o m).kvHolds = s.kvHolds := (rfl)
@[simp] theorem State.setEcc_kvReserves (c o : Nat) (m : EccMark) : (s.setEcc c o m).kvReserves = s.kvReserves := (rfl)
@[simp] theorem State.setEcc_kvSlots (c o : Nat) (m : EccMark) : (s.setEcc c o m).kvSlots = s.kvSlots := (rfl)
@[simp] theorem State.setEcc_bookSlots (c o : Nat) (m : EccMark) : (s.setEcc c o m).bookSlots = s.bookSlots := (rfl)
@[simp] theorem State.setEcc_kvOps (c o : Nat) (m : EccMark) : (s.setEcc c o m).kvOps = s.kvOps := (rfl)
@[simp] theorem State.setEcc_loftFetches (c o : Nat) (m : EccMark) : (s.setEcc c o m).loftFetches = s.loftFetches := (rfl)
@[simp] theorem State.setEcc_spills (c o : Nat) (m : EccMark) : (s.setEcc c o m).spills = s.spills := (rfl)
@[simp] theorem State.setEcc_recency (c o : Nat) (m : EccMark) : (s.setEcc c o m).recency = s.recency := (rfl)
@[simp] theorem State.setEcc_loftClean (c o : Nat) (m : EccMark) : (s.setEcc c o m).loftClean = s.loftClean := (rfl)
@[simp] theorem State.setEcc_digestDirty (c o : Nat) (m : EccMark) : (s.setEcc c o m).digestDirty = s.digestDirty := (rfl)
@[simp] theorem State.setEcc_tracked (c o : Nat) (m : EccMark) : (s.setEcc c o m).tracked = s.tracked := (rfl)
@[simp] theorem State.setEcc_biSent (c o : Nat) (m : EccMark) : (s.setEcc c o m).biSent = s.biSent := (rfl)
@[simp] theorem State.setEcc_biWant (c o : Nat) (m : EccMark) : (s.setEcc c o m).biWant = s.biWant := (rfl)
@[simp] theorem State.setEcc_reqs (c o : Nat) (m : EccMark) : (s.setEcc c o m).reqs = s.reqs := (rfl)
@[simp] theorem State.setEcc_notices (c o : Nat) (m : EccMark) : (s.setEcc c o m).notices = s.notices := (rfl)
@[simp] theorem State.setEcc_queues (c o : Nat) (m : EccMark) : (s.setEcc c o m).queues = s.queues := (rfl)
@[simp] theorem State.setEcc_host (c o : Nat) (m : EccMark) : (s.setEcc c o m).host = s.host := (rfl)
@[simp] theorem State.setEcc_binds (c o : Nat) (m : EccMark) : (s.setEcc c o m).binds = s.binds := (rfl)
@[simp] theorem State.setEcc_blk (c o : Nat) (m : EccMark) : (s.setEcc c o m).blk = s.blk := (rfl)
@[simp] theorem State.setEcc_inst (c o : Nat) (m : EccMark) : (s.setEcc c o m).inst = s.inst := (rfl)
@[simp] theorem State.setEcc_faults (c o : Nat) (m : EccMark) : (s.setEcc c o m).faults = s.faults := (rfl)
@[simp] theorem State.setEcc_sec (c o : Nat) (m : EccMark) : (s.setEcc c o m).sec = s.sec := (rfl)

/-! `setCode` -/

@[simp] theorem State.setCode_pending (c i : Nat) (w : DWord) : (s.setCode c i w).pending = s.pending := (rfl)
@[simp] theorem State.setCode_fresh (c i : Nat) (w : DWord) : (s.setCode c i w).fresh = s.fresh := (rfl)
@[simp] theorem State.setCode_nextId (c i : Nat) (w : DWord) : (s.setCode c i w).nextId = s.nextId := (rfl)
@[simp] theorem State.setCode_now (c i : Nat) (w : DWord) : (s.setCode c i w).now = s.now := (rfl)
@[simp] theorem State.setCode_regs (c i : Nat) (w : DWord) : (s.setCode c i w).regs = s.regs := (rfl)
@[simp] theorem State.setCode_shadow (c i : Nat) (w : DWord) : (s.setCode c i w).shadow = s.shadow := (rfl)
@[simp] theorem State.setCode_latches (c i : Nat) (w : DWord) : (s.setCode c i w).latches = s.latches := (rfl)
@[simp] theorem State.setCode_pantry (c i : Nat) (w : DWord) : (s.setCode c i w).pantry = s.pantry := (rfl)
@[simp] theorem State.setCode_pantryEcc (c i : Nat) (w : DWord) : (s.setCode c i w).pantryEcc = s.pantryEcc := (rfl)
@[simp] theorem State.setCode_scrubWrites (c i : Nat) (w : DWord) : (s.setCode c i w).scrubWrites = s.scrubWrites := (rfl)
@[simp] theorem State.setCode_tokOps (c i : Nat) (w : DWord) : (s.setCode c i w).tokOps = s.tokOps := (rfl)
@[simp] theorem State.setCode_lateWin (c i : Nat) (w : DWord) : (s.setCode c i w).lateWin = s.lateWin := (rfl)
@[simp] theorem State.setCode_twaits (c i : Nat) (w : DWord) : (s.setCode c i w).twaits = s.twaits := (rfl)
@[simp] theorem State.setCode_runTime (c i : Nat) (w : DWord) : (s.setCode c i w).runTime = s.runTime := (rfl)
@[simp] theorem State.setCode_waking (c i : Nat) (w : DWord) : (s.setCode c i w).waking = s.waking := (rfl)
@[simp] theorem State.setCode_sleepWant (c i : Nat) (w : DWord) : (s.setCode c i w).sleepWant = s.sleepWant := (rfl)
@[simp] theorem State.setCode_wokeAt (c i : Nat) (w : DWord) : (s.setCode c i w).wokeAt = s.wokeAt := (rfl)
@[simp] theorem State.setCode_acc (c i : Nat) (w : DWord) : (s.setCode c i w).acc = s.acc := (rfl)
@[simp] theorem State.setCode_accEcc (c i : Nat) (w : DWord) : (s.setCode c i w).accEcc = s.accEcc := (rfl)
@[simp] theorem State.setCode_tiles (c i : Nat) (w : DWord) : (s.setCode c i w).tiles = s.tiles := (rfl)
@[simp] theorem State.setCode_engOps (c i : Nat) (w : DWord) : (s.setCode c i w).engOps = s.engOps := (rfl)
@[simp] theorem State.setCode_engActive (c i : Nat) (w : DWord) : (s.setCode c i w).engActive = s.engActive := (rfl)
@[simp] theorem State.setCode_engBad (c i : Nat) (w : DWord) : (s.setCode c i w).engBad = s.engBad := (rfl)
@[simp] theorem State.setCode_vecOps (c i : Nat) (w : DWord) : (s.setCode c i w).vecOps = s.vecOps := (rfl)
@[simp] theorem State.setCode_fires (c i : Nat) (w : DWord) : (s.setCode c i w).fires = s.fires := (rfl)
@[simp] theorem State.setCode_outBufs (c i : Nat) (w : DWord) : (s.setCode c i w).outBufs = s.outBufs := (rfl)
@[simp] theorem State.setCode_winPends (c i : Nat) (w : DWord) : (s.setCode c i w).winPends = s.winPends := (rfl)
@[simp] theorem State.setCode_sigWaits (c i : Nat) (w : DWord) : (s.setCode c i w).sigWaits = s.sigWaits := (rfl)
@[simp] theorem State.setCode_sigOuts (c i : Nat) (w : DWord) : (s.setCode c i w).sigOuts = s.sigOuts := (rfl)
@[simp] theorem State.setCode_net (c i : Nat) (w : DWord) : (s.setCode c i w).net = s.net := (rfl)
@[simp] theorem State.setCode_pn (c i : Nat) (w : DWord) : (s.setCode c i w).pn = s.pn := (rfl)
@[simp] theorem State.setCode_cells (c i : Nat) (w : DWord) : (s.setCode c i w).cells = s.cells := (rfl)
@[simp] theorem State.setCode_scales (c i : Nat) (w : DWord) : (s.setCode c i w).scales = s.scales := (rfl)
@[simp] theorem State.setCode_wsums (c i : Nat) (w : DWord) : (s.setCode c i w).wsums = s.wsums := (rfl)
@[simp] theorem State.setCode_dsums (c i : Nat) (w : DWord) : (s.setCode c i w).dsums = s.dsums := (rfl)
@[simp] theorem State.setCode_rsums (c i : Nat) (w : DWord) : (s.setCode c i w).rsums = s.rsums := (rfl)
@[simp] theorem State.setCode_spans (c i : Nat) (w : DWord) : (s.setCode c i w).spans = s.spans := (rfl)
@[simp] theorem State.setCode_labelEcc (c i : Nat) (w : DWord) : (s.setCode c i w).labelEcc = s.labelEcc := (rfl)
@[simp] theorem State.setCode_testSums (c i : Nat) (w : DWord) : (s.setCode c i w).testSums = s.testSums := (rfl)
@[simp] theorem State.setCode_envelopes (c i : Nat) (w : DWord) : (s.setCode c i w).envelopes = s.envelopes := (rfl)
@[simp] theorem State.setCode_colStats (c i : Nat) (w : DWord) : (s.setCode c i w).colStats = s.colStats := (rfl)
@[simp] theorem State.setCode_binRecs (c i : Nat) (w : DWord) : (s.setCode c i w).binRecs = s.binRecs := (rfl)
@[simp] theorem State.setCode_rackRecs (c i : Nat) (w : DWord) : (s.setCode c i w).rackRecs = s.rackRecs := (rfl)
@[simp] theorem State.setCode_binChecks (c i : Nat) (w : DWord) : (s.setCode c i w).binChecks = s.binChecks := (rfl)
@[simp] theorem State.setCode_driftActs (c i : Nat) (w : DWord) : (s.setCode c i w).driftActs = s.driftActs := (rfl)
@[simp] theorem State.setCode_refreshQ (c i : Nat) (w : DWord) : (s.setCode c i w).refreshQ = s.refreshQ := (rfl)
@[simp] theorem State.setCode_refreshing (c i : Nat) (w : DWord) : (s.setCode c i w).refreshing = s.refreshing := (rfl)
@[simp] theorem State.setCode_autoRefresh (c i : Nat) (w : DWord) : (s.setCode c i w).autoRefresh = s.autoRefresh := (rfl)
@[simp] theorem State.setCode_hvRefresh (c i : Nat) (w : DWord) : (s.setCode c i w).hvRefresh = s.hvRefresh := (rfl)
@[simp] theorem State.setCode_quietAt (c i : Nat) (w : DWord) : (s.setCode c i w).quietAt = s.quietAt := (rfl)
@[simp] theorem State.setCode_driftLog (c i : Nat) (w : DWord) : (s.setCode c i w).driftLog = s.driftLog := (rfl)
@[simp] theorem State.setCode_errLog (c i : Nat) (w : DWord) : (s.setCode c i w).errLog = s.errLog := (rfl)
@[simp] theorem State.setCode_thrLog (c i : Nat) (w : DWord) : (s.setCode c i w).thrLog = s.thrLog := (rfl)
@[simp] theorem State.setCode_wear (c i : Nat) (w : DWord) : (s.setCode c i w).wear = s.wear := (rfl)
@[simp] theorem State.setCode_binMap (c i : Nat) (w : DWord) : (s.setCode c i w).binMap = s.binMap := (rfl)
@[simp] theorem State.setCode_thresholds (c i : Nat) (w : DWord) : (s.setCode c i w).thresholds = s.thresholds := (rfl)
@[simp] theorem State.setCode_threshBad (c i : Nat) (w : DWord) : (s.setCode c i w).threshBad = s.threshBad := (rfl)
@[simp] theorem State.setCode_tempTrim (c i : Nat) (w : DWord) : (s.setCode c i w).tempTrim = s.tempTrim := (rfl)
@[simp] theorem State.setCode_trimTemp (c i : Nat) (w : DWord) : (s.setCode c i w).trimTemp = s.trimTemp := (rfl)
@[simp] theorem State.setCode_tempOut (c i : Nat) (w : DWord) : (s.setCode c i w).tempOut = s.tempOut := (rfl)
@[simp] theorem State.setCode_actTests (c i : Nat) (w : DWord) : (s.setCode c i w).actTests = s.actTests := (rfl)
@[simp] theorem State.setCode_actTestAt (c i : Nat) (w : DWord) : (s.setCode c i w).actTestAt = s.actTestAt := (rfl)
@[simp] theorem State.setCode_ctxs (c i : Nat) (w : DWord) : (s.setCode c i w).ctxs = s.ctxs := (rfl)
@[simp] theorem State.setCode_passes (c i : Nat) (w : DWord) : (s.setCode c i w).passes = s.passes := (rfl)
@[simp] theorem State.setCode_trips (c i : Nat) (w : DWord) : (s.setCode c i w).trips = s.trips := (rfl)
@[simp] theorem State.setCode_normActs (c i : Nat) (w : DWord) : (s.setCode c i w).normActs = s.normActs := (rfl)
@[simp] theorem State.setCode_outbox (c i : Nat) (w : DWord) : (s.setCode c i w).outbox = s.outbox := (rfl)
@[simp] theorem State.setCode_claimQ (c i : Nat) (w : DWord) : (s.setCode c i w).claimQ = s.claimQ := (rfl)
@[simp] theorem State.setCode_power (c i : Nat) (w : DWord) : (s.setCode c i w).power = s.power := (rfl)
@[simp] theorem State.setCode_routes (c i : Nat) (w : DWord) : (s.setCode c i w).routes = s.routes := (rfl)
@[simp] theorem State.setCode_routesKept (c i : Nat) (w : DWord) : (s.setCode c i w).routesKept = s.routesKept := (rfl)
@[simp] theorem State.setCode_ports (c i : Nat) (w : DWord) : (s.setCode c i w).ports = s.ports := (rfl)
@[simp] theorem State.setCode_answered (c i : Nat) (w : DWord) : (s.setCode c i w).answered = s.answered := (rfl)
@[simp] theorem State.setCode_slackIn (c i : Nat) (w : DWord) : (s.setCode c i w).slackIn = s.slackIn := (rfl)
@[simp] theorem State.setCode_slots (c i : Nat) (w : DWord) : (s.setCode c i w).slots = s.slots := (rfl)
@[simp] theorem State.setCode_parts (c i : Nat) (w : DWord) : (s.setCode c i w).parts = s.parts := (rfl)
@[simp] theorem State.setCode_layerKv (c i : Nat) (w : DWord) : (s.setCode c i w).layerKv = s.layerKv := (rfl)
@[simp] theorem State.setCode_standIns (c i : Nat) (w : DWord) : (s.setCode c i w).standIns = s.standIns := (rfl)
@[simp] theorem State.setCode_kvHolds (c i : Nat) (w : DWord) : (s.setCode c i w).kvHolds = s.kvHolds := (rfl)
@[simp] theorem State.setCode_kvReserves (c i : Nat) (w : DWord) : (s.setCode c i w).kvReserves = s.kvReserves := (rfl)
@[simp] theorem State.setCode_kvSlots (c i : Nat) (w : DWord) : (s.setCode c i w).kvSlots = s.kvSlots := (rfl)
@[simp] theorem State.setCode_bookSlots (c i : Nat) (w : DWord) : (s.setCode c i w).bookSlots = s.bookSlots := (rfl)
@[simp] theorem State.setCode_kvOps (c i : Nat) (w : DWord) : (s.setCode c i w).kvOps = s.kvOps := (rfl)
@[simp] theorem State.setCode_loftFetches (c i : Nat) (w : DWord) : (s.setCode c i w).loftFetches = s.loftFetches := (rfl)
@[simp] theorem State.setCode_spills (c i : Nat) (w : DWord) : (s.setCode c i w).spills = s.spills := (rfl)
@[simp] theorem State.setCode_recency (c i : Nat) (w : DWord) : (s.setCode c i w).recency = s.recency := (rfl)
@[simp] theorem State.setCode_loftClean (c i : Nat) (w : DWord) : (s.setCode c i w).loftClean = s.loftClean := (rfl)
@[simp] theorem State.setCode_digestDirty (c i : Nat) (w : DWord) : (s.setCode c i w).digestDirty = s.digestDirty := (rfl)
@[simp] theorem State.setCode_tracked (c i : Nat) (w : DWord) : (s.setCode c i w).tracked = s.tracked := (rfl)
@[simp] theorem State.setCode_biSent (c i : Nat) (w : DWord) : (s.setCode c i w).biSent = s.biSent := (rfl)
@[simp] theorem State.setCode_biWant (c i : Nat) (w : DWord) : (s.setCode c i w).biWant = s.biWant := (rfl)
@[simp] theorem State.setCode_reqs (c i : Nat) (w : DWord) : (s.setCode c i w).reqs = s.reqs := (rfl)
@[simp] theorem State.setCode_notices (c i : Nat) (w : DWord) : (s.setCode c i w).notices = s.notices := (rfl)
@[simp] theorem State.setCode_queues (c i : Nat) (w : DWord) : (s.setCode c i w).queues = s.queues := (rfl)
@[simp] theorem State.setCode_host (c i : Nat) (w : DWord) : (s.setCode c i w).host = s.host := (rfl)
@[simp] theorem State.setCode_binds (c i : Nat) (w : DWord) : (s.setCode c i w).binds = s.binds := (rfl)
@[simp] theorem State.setCode_blk (c i : Nat) (w : DWord) : (s.setCode c i w).blk = s.blk := (rfl)
@[simp] theorem State.setCode_inst (c i : Nat) (w : DWord) : (s.setCode c i w).inst = s.inst := (rfl)
@[simp] theorem State.setCode_faults (c i : Nat) (w : DWord) : (s.setCode c i w).faults = s.faults := (rfl)
@[simp] theorem State.setCode_sec (c i : Nat) (w : DWord) : (s.setCode c i w).sec = s.sec := (rfl)

/-! `freeBuf` -/

@[simp] theorem State.freeBuf_pending (c n : Nat) : (s.freeBuf c n).pending = s.pending := (rfl)
@[simp] theorem State.freeBuf_fresh (c n : Nat) : (s.freeBuf c n).fresh = s.fresh := (rfl)
@[simp] theorem State.freeBuf_nextId (c n : Nat) : (s.freeBuf c n).nextId = s.nextId := (rfl)
@[simp] theorem State.freeBuf_now (c n : Nat) : (s.freeBuf c n).now = s.now := (rfl)
@[simp] theorem State.freeBuf_regs (c n : Nat) : (s.freeBuf c n).regs = s.regs := (rfl)
@[simp] theorem State.freeBuf_shadow (c n : Nat) : (s.freeBuf c n).shadow = s.shadow := (rfl)
@[simp] theorem State.freeBuf_latches (c n : Nat) : (s.freeBuf c n).latches = s.latches := (rfl)
@[simp] theorem State.freeBuf_pantry (c n : Nat) : (s.freeBuf c n).pantry = s.pantry := (rfl)
@[simp] theorem State.freeBuf_pantryEcc (c n : Nat) : (s.freeBuf c n).pantryEcc = s.pantryEcc := (rfl)
@[simp] theorem State.freeBuf_scrubWrites (c n : Nat) : (s.freeBuf c n).scrubWrites = s.scrubWrites := (rfl)
@[simp] theorem State.freeBuf_code (c n : Nat) : (s.freeBuf c n).code = s.code := (rfl)
@[simp] theorem State.freeBuf_codeEcc (c n : Nat) : (s.freeBuf c n).codeEcc = s.codeEcc := (rfl)
@[simp] theorem State.freeBuf_tokOps (c n : Nat) : (s.freeBuf c n).tokOps = s.tokOps := (rfl)
@[simp] theorem State.freeBuf_lateWin (c n : Nat) : (s.freeBuf c n).lateWin = s.lateWin := (rfl)
@[simp] theorem State.freeBuf_twaits (c n : Nat) : (s.freeBuf c n).twaits = s.twaits := (rfl)
@[simp] theorem State.freeBuf_runTime (c n : Nat) : (s.freeBuf c n).runTime = s.runTime := (rfl)
@[simp] theorem State.freeBuf_waking (c n : Nat) : (s.freeBuf c n).waking = s.waking := (rfl)
@[simp] theorem State.freeBuf_sleepWant (c n : Nat) : (s.freeBuf c n).sleepWant = s.sleepWant := (rfl)
@[simp] theorem State.freeBuf_wokeAt (c n : Nat) : (s.freeBuf c n).wokeAt = s.wokeAt := (rfl)
@[simp] theorem State.freeBuf_acc (c n : Nat) : (s.freeBuf c n).acc = s.acc := (rfl)
@[simp] theorem State.freeBuf_accEcc (c n : Nat) : (s.freeBuf c n).accEcc = s.accEcc := (rfl)
@[simp] theorem State.freeBuf_tiles (c n : Nat) : (s.freeBuf c n).tiles = s.tiles := (rfl)
@[simp] theorem State.freeBuf_engOps (c n : Nat) : (s.freeBuf c n).engOps = s.engOps := (rfl)
@[simp] theorem State.freeBuf_engActive (c n : Nat) : (s.freeBuf c n).engActive = s.engActive := (rfl)
@[simp] theorem State.freeBuf_engBad (c n : Nat) : (s.freeBuf c n).engBad = s.engBad := (rfl)
@[simp] theorem State.freeBuf_fires (c n : Nat) : (s.freeBuf c n).fires = s.fires := (rfl)
@[simp] theorem State.freeBuf_winPends (c n : Nat) : (s.freeBuf c n).winPends = s.winPends := (rfl)
@[simp] theorem State.freeBuf_sigWaits (c n : Nat) : (s.freeBuf c n).sigWaits = s.sigWaits := (rfl)
@[simp] theorem State.freeBuf_sigOuts (c n : Nat) : (s.freeBuf c n).sigOuts = s.sigOuts := (rfl)
@[simp] theorem State.freeBuf_net (c n : Nat) : (s.freeBuf c n).net = s.net := (rfl)
@[simp] theorem State.freeBuf_pn (c n : Nat) : (s.freeBuf c n).pn = s.pn := (rfl)
@[simp] theorem State.freeBuf_cells (c n : Nat) : (s.freeBuf c n).cells = s.cells := (rfl)
@[simp] theorem State.freeBuf_scales (c n : Nat) : (s.freeBuf c n).scales = s.scales := (rfl)
@[simp] theorem State.freeBuf_wsums (c n : Nat) : (s.freeBuf c n).wsums = s.wsums := (rfl)
@[simp] theorem State.freeBuf_dsums (c n : Nat) : (s.freeBuf c n).dsums = s.dsums := (rfl)
@[simp] theorem State.freeBuf_rsums (c n : Nat) : (s.freeBuf c n).rsums = s.rsums := (rfl)
@[simp] theorem State.freeBuf_spans (c n : Nat) : (s.freeBuf c n).spans = s.spans := (rfl)
@[simp] theorem State.freeBuf_labelEcc (c n : Nat) : (s.freeBuf c n).labelEcc = s.labelEcc := (rfl)
@[simp] theorem State.freeBuf_testSums (c n : Nat) : (s.freeBuf c n).testSums = s.testSums := (rfl)
@[simp] theorem State.freeBuf_envelopes (c n : Nat) : (s.freeBuf c n).envelopes = s.envelopes := (rfl)
@[simp] theorem State.freeBuf_colStats (c n : Nat) : (s.freeBuf c n).colStats = s.colStats := (rfl)
@[simp] theorem State.freeBuf_binRecs (c n : Nat) : (s.freeBuf c n).binRecs = s.binRecs := (rfl)
@[simp] theorem State.freeBuf_rackRecs (c n : Nat) : (s.freeBuf c n).rackRecs = s.rackRecs := (rfl)
@[simp] theorem State.freeBuf_binChecks (c n : Nat) : (s.freeBuf c n).binChecks = s.binChecks := (rfl)
@[simp] theorem State.freeBuf_driftActs (c n : Nat) : (s.freeBuf c n).driftActs = s.driftActs := (rfl)
@[simp] theorem State.freeBuf_refreshQ (c n : Nat) : (s.freeBuf c n).refreshQ = s.refreshQ := (rfl)
@[simp] theorem State.freeBuf_refreshing (c n : Nat) : (s.freeBuf c n).refreshing = s.refreshing := (rfl)
@[simp] theorem State.freeBuf_autoRefresh (c n : Nat) : (s.freeBuf c n).autoRefresh = s.autoRefresh := (rfl)
@[simp] theorem State.freeBuf_hvRefresh (c n : Nat) : (s.freeBuf c n).hvRefresh = s.hvRefresh := (rfl)
@[simp] theorem State.freeBuf_quietAt (c n : Nat) : (s.freeBuf c n).quietAt = s.quietAt := (rfl)
@[simp] theorem State.freeBuf_driftLog (c n : Nat) : (s.freeBuf c n).driftLog = s.driftLog := (rfl)
@[simp] theorem State.freeBuf_errLog (c n : Nat) : (s.freeBuf c n).errLog = s.errLog := (rfl)
@[simp] theorem State.freeBuf_thrLog (c n : Nat) : (s.freeBuf c n).thrLog = s.thrLog := (rfl)
@[simp] theorem State.freeBuf_wear (c n : Nat) : (s.freeBuf c n).wear = s.wear := (rfl)
@[simp] theorem State.freeBuf_binMap (c n : Nat) : (s.freeBuf c n).binMap = s.binMap := (rfl)
@[simp] theorem State.freeBuf_thresholds (c n : Nat) : (s.freeBuf c n).thresholds = s.thresholds := (rfl)
@[simp] theorem State.freeBuf_threshBad (c n : Nat) : (s.freeBuf c n).threshBad = s.threshBad := (rfl)
@[simp] theorem State.freeBuf_tempTrim (c n : Nat) : (s.freeBuf c n).tempTrim = s.tempTrim := (rfl)
@[simp] theorem State.freeBuf_trimTemp (c n : Nat) : (s.freeBuf c n).trimTemp = s.trimTemp := (rfl)
@[simp] theorem State.freeBuf_tempOut (c n : Nat) : (s.freeBuf c n).tempOut = s.tempOut := (rfl)
@[simp] theorem State.freeBuf_actTests (c n : Nat) : (s.freeBuf c n).actTests = s.actTests := (rfl)
@[simp] theorem State.freeBuf_actTestAt (c n : Nat) : (s.freeBuf c n).actTestAt = s.actTestAt := (rfl)
@[simp] theorem State.freeBuf_ctxs (c n : Nat) : (s.freeBuf c n).ctxs = s.ctxs := (rfl)
@[simp] theorem State.freeBuf_passes (c n : Nat) : (s.freeBuf c n).passes = s.passes := (rfl)
@[simp] theorem State.freeBuf_trips (c n : Nat) : (s.freeBuf c n).trips = s.trips := (rfl)
@[simp] theorem State.freeBuf_normActs (c n : Nat) : (s.freeBuf c n).normActs = s.normActs := (rfl)
@[simp] theorem State.freeBuf_outbox (c n : Nat) : (s.freeBuf c n).outbox = s.outbox := (rfl)
@[simp] theorem State.freeBuf_claimQ (c n : Nat) : (s.freeBuf c n).claimQ = s.claimQ := (rfl)
@[simp] theorem State.freeBuf_power (c n : Nat) : (s.freeBuf c n).power = s.power := (rfl)
@[simp] theorem State.freeBuf_routes (c n : Nat) : (s.freeBuf c n).routes = s.routes := (rfl)
@[simp] theorem State.freeBuf_routesKept (c n : Nat) : (s.freeBuf c n).routesKept = s.routesKept := (rfl)
@[simp] theorem State.freeBuf_ports (c n : Nat) : (s.freeBuf c n).ports = s.ports := (rfl)
@[simp] theorem State.freeBuf_answered (c n : Nat) : (s.freeBuf c n).answered = s.answered := (rfl)
@[simp] theorem State.freeBuf_slackIn (c n : Nat) : (s.freeBuf c n).slackIn = s.slackIn := (rfl)
@[simp] theorem State.freeBuf_slots (c n : Nat) : (s.freeBuf c n).slots = s.slots := (rfl)
@[simp] theorem State.freeBuf_parts (c n : Nat) : (s.freeBuf c n).parts = s.parts := (rfl)
@[simp] theorem State.freeBuf_layerKv (c n : Nat) : (s.freeBuf c n).layerKv = s.layerKv := (rfl)
@[simp] theorem State.freeBuf_standIns (c n : Nat) : (s.freeBuf c n).standIns = s.standIns := (rfl)
@[simp] theorem State.freeBuf_kvHolds (c n : Nat) : (s.freeBuf c n).kvHolds = s.kvHolds := (rfl)
@[simp] theorem State.freeBuf_kvReserves (c n : Nat) : (s.freeBuf c n).kvReserves = s.kvReserves := (rfl)
@[simp] theorem State.freeBuf_kvSlots (c n : Nat) : (s.freeBuf c n).kvSlots = s.kvSlots := (rfl)
@[simp] theorem State.freeBuf_bookSlots (c n : Nat) : (s.freeBuf c n).bookSlots = s.bookSlots := (rfl)
@[simp] theorem State.freeBuf_kvOps (c n : Nat) : (s.freeBuf c n).kvOps = s.kvOps := (rfl)
@[simp] theorem State.freeBuf_loftFetches (c n : Nat) : (s.freeBuf c n).loftFetches = s.loftFetches := (rfl)
@[simp] theorem State.freeBuf_spills (c n : Nat) : (s.freeBuf c n).spills = s.spills := (rfl)
@[simp] theorem State.freeBuf_recency (c n : Nat) : (s.freeBuf c n).recency = s.recency := (rfl)
@[simp] theorem State.freeBuf_loftClean (c n : Nat) : (s.freeBuf c n).loftClean = s.loftClean := (rfl)
@[simp] theorem State.freeBuf_digestDirty (c n : Nat) : (s.freeBuf c n).digestDirty = s.digestDirty := (rfl)
@[simp] theorem State.freeBuf_tracked (c n : Nat) : (s.freeBuf c n).tracked = s.tracked := (rfl)
@[simp] theorem State.freeBuf_biSent (c n : Nat) : (s.freeBuf c n).biSent = s.biSent := (rfl)
@[simp] theorem State.freeBuf_biWant (c n : Nat) : (s.freeBuf c n).biWant = s.biWant := (rfl)
@[simp] theorem State.freeBuf_reqs (c n : Nat) : (s.freeBuf c n).reqs = s.reqs := (rfl)
@[simp] theorem State.freeBuf_notices (c n : Nat) : (s.freeBuf c n).notices = s.notices := (rfl)
@[simp] theorem State.freeBuf_queues (c n : Nat) : (s.freeBuf c n).queues = s.queues := (rfl)
@[simp] theorem State.freeBuf_host (c n : Nat) : (s.freeBuf c n).host = s.host := (rfl)
@[simp] theorem State.freeBuf_binds (c n : Nat) : (s.freeBuf c n).binds = s.binds := (rfl)
@[simp] theorem State.freeBuf_blk (c n : Nat) : (s.freeBuf c n).blk = s.blk := (rfl)
@[simp] theorem State.freeBuf_inst (c n : Nat) : (s.freeBuf c n).inst = s.inst := (rfl)
@[simp] theorem State.freeBuf_faults (c n : Nat) : (s.freeBuf c n).faults = s.faults := (rfl)
@[simp] theorem State.freeBuf_sec (c n : Nat) : (s.freeBuf c n).sec = s.sec := (rfl)

/-! `dropTwait` -/

@[simp] theorem State.dropTwait_pending (c : Nat) : (s.dropTwait c).pending = s.pending := (rfl)
@[simp] theorem State.dropTwait_fresh (c : Nat) : (s.dropTwait c).fresh = s.fresh := (rfl)
@[simp] theorem State.dropTwait_nextId (c : Nat) : (s.dropTwait c).nextId = s.nextId := (rfl)
@[simp] theorem State.dropTwait_now (c : Nat) : (s.dropTwait c).now = s.now := (rfl)
@[simp] theorem State.dropTwait_regs (c : Nat) : (s.dropTwait c).regs = s.regs := (rfl)
@[simp] theorem State.dropTwait_shadow (c : Nat) : (s.dropTwait c).shadow = s.shadow := (rfl)
@[simp] theorem State.dropTwait_latches (c : Nat) : (s.dropTwait c).latches = s.latches := (rfl)
@[simp] theorem State.dropTwait_pantry (c : Nat) : (s.dropTwait c).pantry = s.pantry := (rfl)
@[simp] theorem State.dropTwait_pantryEcc (c : Nat) : (s.dropTwait c).pantryEcc = s.pantryEcc := (rfl)
@[simp] theorem State.dropTwait_scrubWrites (c : Nat) : (s.dropTwait c).scrubWrites = s.scrubWrites := (rfl)
@[simp] theorem State.dropTwait_code (c : Nat) : (s.dropTwait c).code = s.code := (rfl)
@[simp] theorem State.dropTwait_codeEcc (c : Nat) : (s.dropTwait c).codeEcc = s.codeEcc := (rfl)
@[simp] theorem State.dropTwait_tokOps (c : Nat) : (s.dropTwait c).tokOps = s.tokOps := (rfl)
@[simp] theorem State.dropTwait_lateWin (c : Nat) : (s.dropTwait c).lateWin = s.lateWin := (rfl)
@[simp] theorem State.dropTwait_runTime (c : Nat) : (s.dropTwait c).runTime = s.runTime := (rfl)
@[simp] theorem State.dropTwait_waking (c : Nat) : (s.dropTwait c).waking = s.waking := (rfl)
@[simp] theorem State.dropTwait_wokeAt (c : Nat) : (s.dropTwait c).wokeAt = s.wokeAt := (rfl)
@[simp] theorem State.dropTwait_acc (c : Nat) : (s.dropTwait c).acc = s.acc := (rfl)
@[simp] theorem State.dropTwait_accEcc (c : Nat) : (s.dropTwait c).accEcc = s.accEcc := (rfl)
@[simp] theorem State.dropTwait_tiles (c : Nat) : (s.dropTwait c).tiles = s.tiles := (rfl)
@[simp] theorem State.dropTwait_engOps (c : Nat) : (s.dropTwait c).engOps = s.engOps := (rfl)
@[simp] theorem State.dropTwait_engActive (c : Nat) : (s.dropTwait c).engActive = s.engActive := (rfl)
@[simp] theorem State.dropTwait_engBad (c : Nat) : (s.dropTwait c).engBad = s.engBad := (rfl)
@[simp] theorem State.dropTwait_vecOps (c : Nat) : (s.dropTwait c).vecOps = s.vecOps := (rfl)
@[simp] theorem State.dropTwait_fires (c : Nat) : (s.dropTwait c).fires = s.fires := (rfl)
@[simp] theorem State.dropTwait_outBufs (c : Nat) : (s.dropTwait c).outBufs = s.outBufs := (rfl)
@[simp] theorem State.dropTwait_winPends (c : Nat) : (s.dropTwait c).winPends = s.winPends := (rfl)
@[simp] theorem State.dropTwait_sigWaits (c : Nat) : (s.dropTwait c).sigWaits = s.sigWaits := (rfl)
@[simp] theorem State.dropTwait_sigOuts (c : Nat) : (s.dropTwait c).sigOuts = s.sigOuts := (rfl)
@[simp] theorem State.dropTwait_net (c : Nat) : (s.dropTwait c).net = s.net := (rfl)
@[simp] theorem State.dropTwait_pn (c : Nat) : (s.dropTwait c).pn = s.pn := (rfl)
@[simp] theorem State.dropTwait_cells (c : Nat) : (s.dropTwait c).cells = s.cells := (rfl)
@[simp] theorem State.dropTwait_scales (c : Nat) : (s.dropTwait c).scales = s.scales := (rfl)
@[simp] theorem State.dropTwait_wsums (c : Nat) : (s.dropTwait c).wsums = s.wsums := (rfl)
@[simp] theorem State.dropTwait_dsums (c : Nat) : (s.dropTwait c).dsums = s.dsums := (rfl)
@[simp] theorem State.dropTwait_rsums (c : Nat) : (s.dropTwait c).rsums = s.rsums := (rfl)
@[simp] theorem State.dropTwait_spans (c : Nat) : (s.dropTwait c).spans = s.spans := (rfl)
@[simp] theorem State.dropTwait_labelEcc (c : Nat) : (s.dropTwait c).labelEcc = s.labelEcc := (rfl)
@[simp] theorem State.dropTwait_testSums (c : Nat) : (s.dropTwait c).testSums = s.testSums := (rfl)
@[simp] theorem State.dropTwait_envelopes (c : Nat) : (s.dropTwait c).envelopes = s.envelopes := (rfl)
@[simp] theorem State.dropTwait_colStats (c : Nat) : (s.dropTwait c).colStats = s.colStats := (rfl)
@[simp] theorem State.dropTwait_binRecs (c : Nat) : (s.dropTwait c).binRecs = s.binRecs := (rfl)
@[simp] theorem State.dropTwait_rackRecs (c : Nat) : (s.dropTwait c).rackRecs = s.rackRecs := (rfl)
@[simp] theorem State.dropTwait_binChecks (c : Nat) : (s.dropTwait c).binChecks = s.binChecks := (rfl)
@[simp] theorem State.dropTwait_driftActs (c : Nat) : (s.dropTwait c).driftActs = s.driftActs := (rfl)
@[simp] theorem State.dropTwait_refreshQ (c : Nat) : (s.dropTwait c).refreshQ = s.refreshQ := (rfl)
@[simp] theorem State.dropTwait_refreshing (c : Nat) : (s.dropTwait c).refreshing = s.refreshing := (rfl)
@[simp] theorem State.dropTwait_autoRefresh (c : Nat) : (s.dropTwait c).autoRefresh = s.autoRefresh := (rfl)
@[simp] theorem State.dropTwait_hvRefresh (c : Nat) : (s.dropTwait c).hvRefresh = s.hvRefresh := (rfl)
@[simp] theorem State.dropTwait_quietAt (c : Nat) : (s.dropTwait c).quietAt = s.quietAt := (rfl)
@[simp] theorem State.dropTwait_driftLog (c : Nat) : (s.dropTwait c).driftLog = s.driftLog := (rfl)
@[simp] theorem State.dropTwait_errLog (c : Nat) : (s.dropTwait c).errLog = s.errLog := (rfl)
@[simp] theorem State.dropTwait_thrLog (c : Nat) : (s.dropTwait c).thrLog = s.thrLog := (rfl)
@[simp] theorem State.dropTwait_wear (c : Nat) : (s.dropTwait c).wear = s.wear := (rfl)
@[simp] theorem State.dropTwait_binMap (c : Nat) : (s.dropTwait c).binMap = s.binMap := (rfl)
@[simp] theorem State.dropTwait_thresholds (c : Nat) : (s.dropTwait c).thresholds = s.thresholds := (rfl)
@[simp] theorem State.dropTwait_threshBad (c : Nat) : (s.dropTwait c).threshBad = s.threshBad := (rfl)
@[simp] theorem State.dropTwait_tempTrim (c : Nat) : (s.dropTwait c).tempTrim = s.tempTrim := (rfl)
@[simp] theorem State.dropTwait_trimTemp (c : Nat) : (s.dropTwait c).trimTemp = s.trimTemp := (rfl)
@[simp] theorem State.dropTwait_tempOut (c : Nat) : (s.dropTwait c).tempOut = s.tempOut := (rfl)
@[simp] theorem State.dropTwait_actTests (c : Nat) : (s.dropTwait c).actTests = s.actTests := (rfl)
@[simp] theorem State.dropTwait_actTestAt (c : Nat) : (s.dropTwait c).actTestAt = s.actTestAt := (rfl)
@[simp] theorem State.dropTwait_ctxs (c : Nat) : (s.dropTwait c).ctxs = s.ctxs := (rfl)
@[simp] theorem State.dropTwait_passes (c : Nat) : (s.dropTwait c).passes = s.passes := (rfl)
@[simp] theorem State.dropTwait_trips (c : Nat) : (s.dropTwait c).trips = s.trips := (rfl)
@[simp] theorem State.dropTwait_normActs (c : Nat) : (s.dropTwait c).normActs = s.normActs := (rfl)
@[simp] theorem State.dropTwait_outbox (c : Nat) : (s.dropTwait c).outbox = s.outbox := (rfl)
@[simp] theorem State.dropTwait_claimQ (c : Nat) : (s.dropTwait c).claimQ = s.claimQ := (rfl)
@[simp] theorem State.dropTwait_power (c : Nat) : (s.dropTwait c).power = s.power := (rfl)
@[simp] theorem State.dropTwait_routes (c : Nat) : (s.dropTwait c).routes = s.routes := (rfl)
@[simp] theorem State.dropTwait_routesKept (c : Nat) : (s.dropTwait c).routesKept = s.routesKept := (rfl)
@[simp] theorem State.dropTwait_ports (c : Nat) : (s.dropTwait c).ports = s.ports := (rfl)
@[simp] theorem State.dropTwait_answered (c : Nat) : (s.dropTwait c).answered = s.answered := (rfl)
@[simp] theorem State.dropTwait_slackIn (c : Nat) : (s.dropTwait c).slackIn = s.slackIn := (rfl)
@[simp] theorem State.dropTwait_slots (c : Nat) : (s.dropTwait c).slots = s.slots := (rfl)
@[simp] theorem State.dropTwait_parts (c : Nat) : (s.dropTwait c).parts = s.parts := (rfl)
@[simp] theorem State.dropTwait_layerKv (c : Nat) : (s.dropTwait c).layerKv = s.layerKv := (rfl)
@[simp] theorem State.dropTwait_standIns (c : Nat) : (s.dropTwait c).standIns = s.standIns := (rfl)
@[simp] theorem State.dropTwait_kvHolds (c : Nat) : (s.dropTwait c).kvHolds = s.kvHolds := (rfl)
@[simp] theorem State.dropTwait_kvReserves (c : Nat) : (s.dropTwait c).kvReserves = s.kvReserves := (rfl)
@[simp] theorem State.dropTwait_kvSlots (c : Nat) : (s.dropTwait c).kvSlots = s.kvSlots := (rfl)
@[simp] theorem State.dropTwait_bookSlots (c : Nat) : (s.dropTwait c).bookSlots = s.bookSlots := (rfl)
@[simp] theorem State.dropTwait_kvOps (c : Nat) : (s.dropTwait c).kvOps = s.kvOps := (rfl)
@[simp] theorem State.dropTwait_loftFetches (c : Nat) : (s.dropTwait c).loftFetches = s.loftFetches := (rfl)
@[simp] theorem State.dropTwait_spills (c : Nat) : (s.dropTwait c).spills = s.spills := (rfl)
@[simp] theorem State.dropTwait_recency (c : Nat) : (s.dropTwait c).recency = s.recency := (rfl)
@[simp] theorem State.dropTwait_loftClean (c : Nat) : (s.dropTwait c).loftClean = s.loftClean := (rfl)
@[simp] theorem State.dropTwait_digestDirty (c : Nat) : (s.dropTwait c).digestDirty = s.digestDirty := (rfl)
@[simp] theorem State.dropTwait_tracked (c : Nat) : (s.dropTwait c).tracked = s.tracked := (rfl)
@[simp] theorem State.dropTwait_biSent (c : Nat) : (s.dropTwait c).biSent = s.biSent := (rfl)
@[simp] theorem State.dropTwait_biWant (c : Nat) : (s.dropTwait c).biWant = s.biWant := (rfl)
@[simp] theorem State.dropTwait_reqs (c : Nat) : (s.dropTwait c).reqs = s.reqs := (rfl)
@[simp] theorem State.dropTwait_notices (c : Nat) : (s.dropTwait c).notices = s.notices := (rfl)
@[simp] theorem State.dropTwait_queues (c : Nat) : (s.dropTwait c).queues = s.queues := (rfl)
@[simp] theorem State.dropTwait_host (c : Nat) : (s.dropTwait c).host = s.host := (rfl)
@[simp] theorem State.dropTwait_binds (c : Nat) : (s.dropTwait c).binds = s.binds := (rfl)
@[simp] theorem State.dropTwait_blk (c : Nat) : (s.dropTwait c).blk = s.blk := (rfl)
@[simp] theorem State.dropTwait_inst (c : Nat) : (s.dropTwait c).inst = s.inst := (rfl)
@[simp] theorem State.dropTwait_faults (c : Nat) : (s.dropTwait c).faults = s.faults := (rfl)
@[simp] theorem State.dropTwait_sec (c : Nat) : (s.dropTwait c).sec = s.sec := (rfl)

/-! `sendPn` -/

@[simp] theorem State.sendPn_pending (d m c g : Nat) (b : PnBody) : (s.sendPn d m c g b).pending = s.pending := (rfl)
@[simp] theorem State.sendPn_fresh (d m c g : Nat) (b : PnBody) : (s.sendPn d m c g b).fresh = s.fresh := (rfl)
@[simp] theorem State.sendPn_now (d m c g : Nat) (b : PnBody) : (s.sendPn d m c g b).now = s.now := (rfl)
@[simp] theorem State.sendPn_regs (d m c g : Nat) (b : PnBody) : (s.sendPn d m c g b).regs = s.regs := (rfl)
@[simp] theorem State.sendPn_shadow (d m c g : Nat) (b : PnBody) : (s.sendPn d m c g b).shadow = s.shadow := (rfl)
@[simp] theorem State.sendPn_latches (d m c g : Nat) (b : PnBody) : (s.sendPn d m c g b).latches = s.latches := (rfl)
@[simp] theorem State.sendPn_pantry (d m c g : Nat) (b : PnBody) : (s.sendPn d m c g b).pantry = s.pantry := (rfl)
@[simp] theorem State.sendPn_pantryEcc (d m c g : Nat) (b : PnBody) : (s.sendPn d m c g b).pantryEcc = s.pantryEcc := (rfl)
@[simp] theorem State.sendPn_scrubWrites (d m c g : Nat) (b : PnBody) : (s.sendPn d m c g b).scrubWrites = s.scrubWrites := (rfl)
@[simp] theorem State.sendPn_code (d m c g : Nat) (b : PnBody) : (s.sendPn d m c g b).code = s.code := (rfl)
@[simp] theorem State.sendPn_codeEcc (d m c g : Nat) (b : PnBody) : (s.sendPn d m c g b).codeEcc = s.codeEcc := (rfl)
@[simp] theorem State.sendPn_tokOps (d m c g : Nat) (b : PnBody) : (s.sendPn d m c g b).tokOps = s.tokOps := (rfl)
@[simp] theorem State.sendPn_lateWin (d m c g : Nat) (b : PnBody) : (s.sendPn d m c g b).lateWin = s.lateWin := (rfl)
@[simp] theorem State.sendPn_twaits (d m c g : Nat) (b : PnBody) : (s.sendPn d m c g b).twaits = s.twaits := (rfl)
@[simp] theorem State.sendPn_runTime (d m c g : Nat) (b : PnBody) : (s.sendPn d m c g b).runTime = s.runTime := (rfl)
@[simp] theorem State.sendPn_waking (d m c g : Nat) (b : PnBody) : (s.sendPn d m c g b).waking = s.waking := (rfl)
@[simp] theorem State.sendPn_sleepWant (d m c g : Nat) (b : PnBody) : (s.sendPn d m c g b).sleepWant = s.sleepWant := (rfl)
@[simp] theorem State.sendPn_wokeAt (d m c g : Nat) (b : PnBody) : (s.sendPn d m c g b).wokeAt = s.wokeAt := (rfl)
@[simp] theorem State.sendPn_acc (d m c g : Nat) (b : PnBody) : (s.sendPn d m c g b).acc = s.acc := (rfl)
@[simp] theorem State.sendPn_accEcc (d m c g : Nat) (b : PnBody) : (s.sendPn d m c g b).accEcc = s.accEcc := (rfl)
@[simp] theorem State.sendPn_tiles (d m c g : Nat) (b : PnBody) : (s.sendPn d m c g b).tiles = s.tiles := (rfl)
@[simp] theorem State.sendPn_engOps (d m c g : Nat) (b : PnBody) : (s.sendPn d m c g b).engOps = s.engOps := (rfl)
@[simp] theorem State.sendPn_engActive (d m c g : Nat) (b : PnBody) : (s.sendPn d m c g b).engActive = s.engActive := (rfl)
@[simp] theorem State.sendPn_engBad (d m c g : Nat) (b : PnBody) : (s.sendPn d m c g b).engBad = s.engBad := (rfl)
@[simp] theorem State.sendPn_vecOps (d m c g : Nat) (b : PnBody) : (s.sendPn d m c g b).vecOps = s.vecOps := (rfl)
@[simp] theorem State.sendPn_fires (d m c g : Nat) (b : PnBody) : (s.sendPn d m c g b).fires = s.fires := (rfl)
@[simp] theorem State.sendPn_outBufs (d m c g : Nat) (b : PnBody) : (s.sendPn d m c g b).outBufs = s.outBufs := (rfl)
@[simp] theorem State.sendPn_winPends (d m c g : Nat) (b : PnBody) : (s.sendPn d m c g b).winPends = s.winPends := (rfl)
@[simp] theorem State.sendPn_sigWaits (d m c g : Nat) (b : PnBody) : (s.sendPn d m c g b).sigWaits = s.sigWaits := (rfl)
@[simp] theorem State.sendPn_sigOuts (d m c g : Nat) (b : PnBody) : (s.sendPn d m c g b).sigOuts = s.sigOuts := (rfl)
@[simp] theorem State.sendPn_net (d m c g : Nat) (b : PnBody) : (s.sendPn d m c g b).net = s.net := (rfl)
@[simp] theorem State.sendPn_cells (d m c g : Nat) (b : PnBody) : (s.sendPn d m c g b).cells = s.cells := (rfl)
@[simp] theorem State.sendPn_scales (d m c g : Nat) (b : PnBody) : (s.sendPn d m c g b).scales = s.scales := (rfl)
@[simp] theorem State.sendPn_wsums (d m c g : Nat) (b : PnBody) : (s.sendPn d m c g b).wsums = s.wsums := (rfl)
@[simp] theorem State.sendPn_dsums (d m c g : Nat) (b : PnBody) : (s.sendPn d m c g b).dsums = s.dsums := (rfl)
@[simp] theorem State.sendPn_rsums (d m c g : Nat) (b : PnBody) : (s.sendPn d m c g b).rsums = s.rsums := (rfl)
@[simp] theorem State.sendPn_spans (d m c g : Nat) (b : PnBody) : (s.sendPn d m c g b).spans = s.spans := (rfl)
@[simp] theorem State.sendPn_labelEcc (d m c g : Nat) (b : PnBody) : (s.sendPn d m c g b).labelEcc = s.labelEcc := (rfl)
@[simp] theorem State.sendPn_testSums (d m c g : Nat) (b : PnBody) : (s.sendPn d m c g b).testSums = s.testSums := (rfl)
@[simp] theorem State.sendPn_envelopes (d m c g : Nat) (b : PnBody) : (s.sendPn d m c g b).envelopes = s.envelopes := (rfl)
@[simp] theorem State.sendPn_colStats (d m c g : Nat) (b : PnBody) : (s.sendPn d m c g b).colStats = s.colStats := (rfl)
@[simp] theorem State.sendPn_binRecs (d m c g : Nat) (b : PnBody) : (s.sendPn d m c g b).binRecs = s.binRecs := (rfl)
@[simp] theorem State.sendPn_rackRecs (d m c g : Nat) (b : PnBody) : (s.sendPn d m c g b).rackRecs = s.rackRecs := (rfl)
@[simp] theorem State.sendPn_binChecks (d m c g : Nat) (b : PnBody) : (s.sendPn d m c g b).binChecks = s.binChecks := (rfl)
@[simp] theorem State.sendPn_driftActs (d m c g : Nat) (b : PnBody) : (s.sendPn d m c g b).driftActs = s.driftActs := (rfl)
@[simp] theorem State.sendPn_refreshQ (d m c g : Nat) (b : PnBody) : (s.sendPn d m c g b).refreshQ = s.refreshQ := (rfl)
@[simp] theorem State.sendPn_refreshing (d m c g : Nat) (b : PnBody) : (s.sendPn d m c g b).refreshing = s.refreshing := (rfl)
@[simp] theorem State.sendPn_autoRefresh (d m c g : Nat) (b : PnBody) : (s.sendPn d m c g b).autoRefresh = s.autoRefresh := (rfl)
@[simp] theorem State.sendPn_hvRefresh (d m c g : Nat) (b : PnBody) : (s.sendPn d m c g b).hvRefresh = s.hvRefresh := (rfl)
@[simp] theorem State.sendPn_quietAt (d m c g : Nat) (b : PnBody) : (s.sendPn d m c g b).quietAt = s.quietAt := (rfl)
@[simp] theorem State.sendPn_driftLog (d m c g : Nat) (b : PnBody) : (s.sendPn d m c g b).driftLog = s.driftLog := (rfl)
@[simp] theorem State.sendPn_errLog (d m c g : Nat) (b : PnBody) : (s.sendPn d m c g b).errLog = s.errLog := (rfl)
@[simp] theorem State.sendPn_thrLog (d m c g : Nat) (b : PnBody) : (s.sendPn d m c g b).thrLog = s.thrLog := (rfl)
@[simp] theorem State.sendPn_wear (d m c g : Nat) (b : PnBody) : (s.sendPn d m c g b).wear = s.wear := (rfl)
@[simp] theorem State.sendPn_binMap (d m c g : Nat) (b : PnBody) : (s.sendPn d m c g b).binMap = s.binMap := (rfl)
@[simp] theorem State.sendPn_thresholds (d m c g : Nat) (b : PnBody) : (s.sendPn d m c g b).thresholds = s.thresholds := (rfl)
@[simp] theorem State.sendPn_threshBad (d m c g : Nat) (b : PnBody) : (s.sendPn d m c g b).threshBad = s.threshBad := (rfl)
@[simp] theorem State.sendPn_tempTrim (d m c g : Nat) (b : PnBody) : (s.sendPn d m c g b).tempTrim = s.tempTrim := (rfl)
@[simp] theorem State.sendPn_trimTemp (d m c g : Nat) (b : PnBody) : (s.sendPn d m c g b).trimTemp = s.trimTemp := (rfl)
@[simp] theorem State.sendPn_tempOut (d m c g : Nat) (b : PnBody) : (s.sendPn d m c g b).tempOut = s.tempOut := (rfl)
@[simp] theorem State.sendPn_actTests (d m c g : Nat) (b : PnBody) : (s.sendPn d m c g b).actTests = s.actTests := (rfl)
@[simp] theorem State.sendPn_actTestAt (d m c g : Nat) (b : PnBody) : (s.sendPn d m c g b).actTestAt = s.actTestAt := (rfl)
@[simp] theorem State.sendPn_ctxs (d m c g : Nat) (b : PnBody) : (s.sendPn d m c g b).ctxs = s.ctxs := (rfl)
@[simp] theorem State.sendPn_passes (d m c g : Nat) (b : PnBody) : (s.sendPn d m c g b).passes = s.passes := (rfl)
@[simp] theorem State.sendPn_trips (d m c g : Nat) (b : PnBody) : (s.sendPn d m c g b).trips = s.trips := (rfl)
@[simp] theorem State.sendPn_normActs (d m c g : Nat) (b : PnBody) : (s.sendPn d m c g b).normActs = s.normActs := (rfl)
@[simp] theorem State.sendPn_outbox (d m c g : Nat) (b : PnBody) : (s.sendPn d m c g b).outbox = s.outbox := (rfl)
@[simp] theorem State.sendPn_claimQ (d m c g : Nat) (b : PnBody) : (s.sendPn d m c g b).claimQ = s.claimQ := (rfl)
@[simp] theorem State.sendPn_power (d m c g : Nat) (b : PnBody) : (s.sendPn d m c g b).power = s.power := (rfl)
@[simp] theorem State.sendPn_routes (d m c g : Nat) (b : PnBody) : (s.sendPn d m c g b).routes = s.routes := (rfl)
@[simp] theorem State.sendPn_routesKept (d m c g : Nat) (b : PnBody) : (s.sendPn d m c g b).routesKept = s.routesKept := (rfl)
@[simp] theorem State.sendPn_ports (d m c g : Nat) (b : PnBody) : (s.sendPn d m c g b).ports = s.ports := (rfl)
@[simp] theorem State.sendPn_answered (d m c g : Nat) (b : PnBody) : (s.sendPn d m c g b).answered = s.answered := (rfl)
@[simp] theorem State.sendPn_slackIn (d m c g : Nat) (b : PnBody) : (s.sendPn d m c g b).slackIn = s.slackIn := (rfl)
@[simp] theorem State.sendPn_slots (d m c g : Nat) (b : PnBody) : (s.sendPn d m c g b).slots = s.slots := (rfl)
@[simp] theorem State.sendPn_parts (d m c g : Nat) (b : PnBody) : (s.sendPn d m c g b).parts = s.parts := (rfl)
@[simp] theorem State.sendPn_layerKv (d m c g : Nat) (b : PnBody) : (s.sendPn d m c g b).layerKv = s.layerKv := (rfl)
@[simp] theorem State.sendPn_standIns (d m c g : Nat) (b : PnBody) : (s.sendPn d m c g b).standIns = s.standIns := (rfl)
@[simp] theorem State.sendPn_kvHolds (d m c g : Nat) (b : PnBody) : (s.sendPn d m c g b).kvHolds = s.kvHolds := (rfl)
@[simp] theorem State.sendPn_kvReserves (d m c g : Nat) (b : PnBody) : (s.sendPn d m c g b).kvReserves = s.kvReserves := (rfl)
@[simp] theorem State.sendPn_kvSlots (d m c g : Nat) (b : PnBody) : (s.sendPn d m c g b).kvSlots = s.kvSlots := (rfl)
@[simp] theorem State.sendPn_bookSlots (d m c g : Nat) (b : PnBody) : (s.sendPn d m c g b).bookSlots = s.bookSlots := (rfl)
@[simp] theorem State.sendPn_kvOps (d m c g : Nat) (b : PnBody) : (s.sendPn d m c g b).kvOps = s.kvOps := (rfl)
@[simp] theorem State.sendPn_loftFetches (d m c g : Nat) (b : PnBody) : (s.sendPn d m c g b).loftFetches = s.loftFetches := (rfl)
@[simp] theorem State.sendPn_spills (d m c g : Nat) (b : PnBody) : (s.sendPn d m c g b).spills = s.spills := (rfl)
@[simp] theorem State.sendPn_recency (d m c g : Nat) (b : PnBody) : (s.sendPn d m c g b).recency = s.recency := (rfl)
@[simp] theorem State.sendPn_loftClean (d m c g : Nat) (b : PnBody) : (s.sendPn d m c g b).loftClean = s.loftClean := (rfl)
@[simp] theorem State.sendPn_digestDirty (d m c g : Nat) (b : PnBody) : (s.sendPn d m c g b).digestDirty = s.digestDirty := (rfl)
@[simp] theorem State.sendPn_tracked (d m c g : Nat) (b : PnBody) : (s.sendPn d m c g b).tracked = s.tracked := (rfl)
@[simp] theorem State.sendPn_biSent (d m c g : Nat) (b : PnBody) : (s.sendPn d m c g b).biSent = s.biSent := (rfl)
@[simp] theorem State.sendPn_biWant (d m c g : Nat) (b : PnBody) : (s.sendPn d m c g b).biWant = s.biWant := (rfl)
@[simp] theorem State.sendPn_reqs (d m c g : Nat) (b : PnBody) : (s.sendPn d m c g b).reqs = s.reqs := (rfl)
@[simp] theorem State.sendPn_notices (d m c g : Nat) (b : PnBody) : (s.sendPn d m c g b).notices = s.notices := (rfl)
@[simp] theorem State.sendPn_queues (d m c g : Nat) (b : PnBody) : (s.sendPn d m c g b).queues = s.queues := (rfl)
@[simp] theorem State.sendPn_host (d m c g : Nat) (b : PnBody) : (s.sendPn d m c g b).host = s.host := (rfl)
@[simp] theorem State.sendPn_binds (d m c g : Nat) (b : PnBody) : (s.sendPn d m c g b).binds = s.binds := (rfl)
@[simp] theorem State.sendPn_blk (d m c g : Nat) (b : PnBody) : (s.sendPn d m c g b).blk = s.blk := (rfl)
@[simp] theorem State.sendPn_inst (d m c g : Nat) (b : PnBody) : (s.sendPn d m c g b).inst = s.inst := (rfl)
@[simp] theorem State.sendPn_faults (d m c g : Nat) (b : PnBody) : (s.sendPn d m c g b).faults = s.faults := (rfl)
@[simp] theorem State.sendPn_sec (d m c g : Nat) (b : PnBody) : (s.sendPn d m c g b).sec = s.sec := (rfl)

/-! `dropPn` -/

@[simp] theorem State.dropPn_pending (id : Nat) : (s.dropPn id).pending = s.pending := (rfl)
@[simp] theorem State.dropPn_fresh (id : Nat) : (s.dropPn id).fresh = s.fresh := (rfl)
@[simp] theorem State.dropPn_nextId (id : Nat) : (s.dropPn id).nextId = s.nextId := (rfl)
@[simp] theorem State.dropPn_now (id : Nat) : (s.dropPn id).now = s.now := (rfl)
@[simp] theorem State.dropPn_regs (id : Nat) : (s.dropPn id).regs = s.regs := (rfl)
@[simp] theorem State.dropPn_shadow (id : Nat) : (s.dropPn id).shadow = s.shadow := (rfl)
@[simp] theorem State.dropPn_latches (id : Nat) : (s.dropPn id).latches = s.latches := (rfl)
@[simp] theorem State.dropPn_pantry (id : Nat) : (s.dropPn id).pantry = s.pantry := (rfl)
@[simp] theorem State.dropPn_pantryEcc (id : Nat) : (s.dropPn id).pantryEcc = s.pantryEcc := (rfl)
@[simp] theorem State.dropPn_scrubWrites (id : Nat) : (s.dropPn id).scrubWrites = s.scrubWrites := (rfl)
@[simp] theorem State.dropPn_code (id : Nat) : (s.dropPn id).code = s.code := (rfl)
@[simp] theorem State.dropPn_codeEcc (id : Nat) : (s.dropPn id).codeEcc = s.codeEcc := (rfl)
@[simp] theorem State.dropPn_tokOps (id : Nat) : (s.dropPn id).tokOps = s.tokOps := (rfl)
@[simp] theorem State.dropPn_lateWin (id : Nat) : (s.dropPn id).lateWin = s.lateWin := (rfl)
@[simp] theorem State.dropPn_twaits (id : Nat) : (s.dropPn id).twaits = s.twaits := (rfl)
@[simp] theorem State.dropPn_runTime (id : Nat) : (s.dropPn id).runTime = s.runTime := (rfl)
@[simp] theorem State.dropPn_waking (id : Nat) : (s.dropPn id).waking = s.waking := (rfl)
@[simp] theorem State.dropPn_sleepWant (id : Nat) : (s.dropPn id).sleepWant = s.sleepWant := (rfl)
@[simp] theorem State.dropPn_wokeAt (id : Nat) : (s.dropPn id).wokeAt = s.wokeAt := (rfl)
@[simp] theorem State.dropPn_acc (id : Nat) : (s.dropPn id).acc = s.acc := (rfl)
@[simp] theorem State.dropPn_accEcc (id : Nat) : (s.dropPn id).accEcc = s.accEcc := (rfl)
@[simp] theorem State.dropPn_tiles (id : Nat) : (s.dropPn id).tiles = s.tiles := (rfl)
@[simp] theorem State.dropPn_engOps (id : Nat) : (s.dropPn id).engOps = s.engOps := (rfl)
@[simp] theorem State.dropPn_engActive (id : Nat) : (s.dropPn id).engActive = s.engActive := (rfl)
@[simp] theorem State.dropPn_engBad (id : Nat) : (s.dropPn id).engBad = s.engBad := (rfl)
@[simp] theorem State.dropPn_vecOps (id : Nat) : (s.dropPn id).vecOps = s.vecOps := (rfl)
@[simp] theorem State.dropPn_fires (id : Nat) : (s.dropPn id).fires = s.fires := (rfl)
@[simp] theorem State.dropPn_outBufs (id : Nat) : (s.dropPn id).outBufs = s.outBufs := (rfl)
@[simp] theorem State.dropPn_winPends (id : Nat) : (s.dropPn id).winPends = s.winPends := (rfl)
@[simp] theorem State.dropPn_sigWaits (id : Nat) : (s.dropPn id).sigWaits = s.sigWaits := (rfl)
@[simp] theorem State.dropPn_sigOuts (id : Nat) : (s.dropPn id).sigOuts = s.sigOuts := (rfl)
@[simp] theorem State.dropPn_net (id : Nat) : (s.dropPn id).net = s.net := (rfl)
@[simp] theorem State.dropPn_cells (id : Nat) : (s.dropPn id).cells = s.cells := (rfl)
@[simp] theorem State.dropPn_scales (id : Nat) : (s.dropPn id).scales = s.scales := (rfl)
@[simp] theorem State.dropPn_wsums (id : Nat) : (s.dropPn id).wsums = s.wsums := (rfl)
@[simp] theorem State.dropPn_dsums (id : Nat) : (s.dropPn id).dsums = s.dsums := (rfl)
@[simp] theorem State.dropPn_rsums (id : Nat) : (s.dropPn id).rsums = s.rsums := (rfl)
@[simp] theorem State.dropPn_spans (id : Nat) : (s.dropPn id).spans = s.spans := (rfl)
@[simp] theorem State.dropPn_labelEcc (id : Nat) : (s.dropPn id).labelEcc = s.labelEcc := (rfl)
@[simp] theorem State.dropPn_testSums (id : Nat) : (s.dropPn id).testSums = s.testSums := (rfl)
@[simp] theorem State.dropPn_envelopes (id : Nat) : (s.dropPn id).envelopes = s.envelopes := (rfl)
@[simp] theorem State.dropPn_colStats (id : Nat) : (s.dropPn id).colStats = s.colStats := (rfl)
@[simp] theorem State.dropPn_binRecs (id : Nat) : (s.dropPn id).binRecs = s.binRecs := (rfl)
@[simp] theorem State.dropPn_rackRecs (id : Nat) : (s.dropPn id).rackRecs = s.rackRecs := (rfl)
@[simp] theorem State.dropPn_binChecks (id : Nat) : (s.dropPn id).binChecks = s.binChecks := (rfl)
@[simp] theorem State.dropPn_driftActs (id : Nat) : (s.dropPn id).driftActs = s.driftActs := (rfl)
@[simp] theorem State.dropPn_refreshQ (id : Nat) : (s.dropPn id).refreshQ = s.refreshQ := (rfl)
@[simp] theorem State.dropPn_refreshing (id : Nat) : (s.dropPn id).refreshing = s.refreshing := (rfl)
@[simp] theorem State.dropPn_autoRefresh (id : Nat) : (s.dropPn id).autoRefresh = s.autoRefresh := (rfl)
@[simp] theorem State.dropPn_hvRefresh (id : Nat) : (s.dropPn id).hvRefresh = s.hvRefresh := (rfl)
@[simp] theorem State.dropPn_quietAt (id : Nat) : (s.dropPn id).quietAt = s.quietAt := (rfl)
@[simp] theorem State.dropPn_driftLog (id : Nat) : (s.dropPn id).driftLog = s.driftLog := (rfl)
@[simp] theorem State.dropPn_errLog (id : Nat) : (s.dropPn id).errLog = s.errLog := (rfl)
@[simp] theorem State.dropPn_thrLog (id : Nat) : (s.dropPn id).thrLog = s.thrLog := (rfl)
@[simp] theorem State.dropPn_wear (id : Nat) : (s.dropPn id).wear = s.wear := (rfl)
@[simp] theorem State.dropPn_binMap (id : Nat) : (s.dropPn id).binMap = s.binMap := (rfl)
@[simp] theorem State.dropPn_thresholds (id : Nat) : (s.dropPn id).thresholds = s.thresholds := (rfl)
@[simp] theorem State.dropPn_threshBad (id : Nat) : (s.dropPn id).threshBad = s.threshBad := (rfl)
@[simp] theorem State.dropPn_tempTrim (id : Nat) : (s.dropPn id).tempTrim = s.tempTrim := (rfl)
@[simp] theorem State.dropPn_trimTemp (id : Nat) : (s.dropPn id).trimTemp = s.trimTemp := (rfl)
@[simp] theorem State.dropPn_tempOut (id : Nat) : (s.dropPn id).tempOut = s.tempOut := (rfl)
@[simp] theorem State.dropPn_actTests (id : Nat) : (s.dropPn id).actTests = s.actTests := (rfl)
@[simp] theorem State.dropPn_actTestAt (id : Nat) : (s.dropPn id).actTestAt = s.actTestAt := (rfl)
@[simp] theorem State.dropPn_ctxs (id : Nat) : (s.dropPn id).ctxs = s.ctxs := (rfl)
@[simp] theorem State.dropPn_passes (id : Nat) : (s.dropPn id).passes = s.passes := (rfl)
@[simp] theorem State.dropPn_trips (id : Nat) : (s.dropPn id).trips = s.trips := (rfl)
@[simp] theorem State.dropPn_normActs (id : Nat) : (s.dropPn id).normActs = s.normActs := (rfl)
@[simp] theorem State.dropPn_outbox (id : Nat) : (s.dropPn id).outbox = s.outbox := (rfl)
@[simp] theorem State.dropPn_claimQ (id : Nat) : (s.dropPn id).claimQ = s.claimQ := (rfl)
@[simp] theorem State.dropPn_power (id : Nat) : (s.dropPn id).power = s.power := (rfl)
@[simp] theorem State.dropPn_routes (id : Nat) : (s.dropPn id).routes = s.routes := (rfl)
@[simp] theorem State.dropPn_routesKept (id : Nat) : (s.dropPn id).routesKept = s.routesKept := (rfl)
@[simp] theorem State.dropPn_ports (id : Nat) : (s.dropPn id).ports = s.ports := (rfl)
@[simp] theorem State.dropPn_answered (id : Nat) : (s.dropPn id).answered = s.answered := (rfl)
@[simp] theorem State.dropPn_slackIn (id : Nat) : (s.dropPn id).slackIn = s.slackIn := (rfl)
@[simp] theorem State.dropPn_slots (id : Nat) : (s.dropPn id).slots = s.slots := (rfl)
@[simp] theorem State.dropPn_parts (id : Nat) : (s.dropPn id).parts = s.parts := (rfl)
@[simp] theorem State.dropPn_layerKv (id : Nat) : (s.dropPn id).layerKv = s.layerKv := (rfl)
@[simp] theorem State.dropPn_standIns (id : Nat) : (s.dropPn id).standIns = s.standIns := (rfl)
@[simp] theorem State.dropPn_kvHolds (id : Nat) : (s.dropPn id).kvHolds = s.kvHolds := (rfl)
@[simp] theorem State.dropPn_kvReserves (id : Nat) : (s.dropPn id).kvReserves = s.kvReserves := (rfl)
@[simp] theorem State.dropPn_kvSlots (id : Nat) : (s.dropPn id).kvSlots = s.kvSlots := (rfl)
@[simp] theorem State.dropPn_bookSlots (id : Nat) : (s.dropPn id).bookSlots = s.bookSlots := (rfl)
@[simp] theorem State.dropPn_kvOps (id : Nat) : (s.dropPn id).kvOps = s.kvOps := (rfl)
@[simp] theorem State.dropPn_loftFetches (id : Nat) : (s.dropPn id).loftFetches = s.loftFetches := (rfl)
@[simp] theorem State.dropPn_spills (id : Nat) : (s.dropPn id).spills = s.spills := (rfl)
@[simp] theorem State.dropPn_recency (id : Nat) : (s.dropPn id).recency = s.recency := (rfl)
@[simp] theorem State.dropPn_loftClean (id : Nat) : (s.dropPn id).loftClean = s.loftClean := (rfl)
@[simp] theorem State.dropPn_digestDirty (id : Nat) : (s.dropPn id).digestDirty = s.digestDirty := (rfl)
@[simp] theorem State.dropPn_tracked (id : Nat) : (s.dropPn id).tracked = s.tracked := (rfl)
@[simp] theorem State.dropPn_biSent (id : Nat) : (s.dropPn id).biSent = s.biSent := (rfl)
@[simp] theorem State.dropPn_biWant (id : Nat) : (s.dropPn id).biWant = s.biWant := (rfl)
@[simp] theorem State.dropPn_reqs (id : Nat) : (s.dropPn id).reqs = s.reqs := (rfl)
@[simp] theorem State.dropPn_notices (id : Nat) : (s.dropPn id).notices = s.notices := (rfl)
@[simp] theorem State.dropPn_queues (id : Nat) : (s.dropPn id).queues = s.queues := (rfl)
@[simp] theorem State.dropPn_host (id : Nat) : (s.dropPn id).host = s.host := (rfl)
@[simp] theorem State.dropPn_binds (id : Nat) : (s.dropPn id).binds = s.binds := (rfl)
@[simp] theorem State.dropPn_blk (id : Nat) : (s.dropPn id).blk = s.blk := (rfl)
@[simp] theorem State.dropPn_inst (id : Nat) : (s.dropPn id).inst = s.inst := (rfl)
@[simp] theorem State.dropPn_faults (id : Nat) : (s.dropPn id).faults = s.faults := (rfl)
@[simp] theorem State.dropPn_sec (id : Nat) : (s.dropPn id).sec = s.sec := (rfl)

/-! `issued` -/

@[simp] theorem State.issued_pending (c : Nat) (next : Int) : (s.issued c next).pending = s.pending := by
  simp only [State.issued, State.setSeq_pending, State.setFld_pending, State.setPc_pending, State.count_pending]
@[simp] theorem State.issued_fresh (c : Nat) (next : Int) : (s.issued c next).fresh = s.fresh := by
  simp only [State.issued, State.setSeq_fresh, State.setFld_fresh, State.setPc_fresh, State.count_fresh]
@[simp] theorem State.issued_nextId (c : Nat) (next : Int) : (s.issued c next).nextId = s.nextId := by
  simp only [State.issued, State.setSeq_nextId, State.setFld_nextId, State.setPc_nextId, State.count_nextId]
@[simp] theorem State.issued_now (c : Nat) (next : Int) : (s.issued c next).now = s.now := by
  simp only [State.issued, State.setSeq_now, State.setFld_now, State.setPc_now, State.count_now]
@[simp] theorem State.issued_shadow (c : Nat) (next : Int) : (s.issued c next).shadow = s.shadow := by
  simp only [State.issued, State.setSeq_shadow, State.setFld_shadow, State.setPc_shadow, State.count_shadow]
@[simp] theorem State.issued_latches (c : Nat) (next : Int) : (s.issued c next).latches = s.latches := by
  simp only [State.issued, State.setSeq_latches, State.setFld_latches, State.setPc_latches, State.count_latches]
@[simp] theorem State.issued_pantry (c : Nat) (next : Int) : (s.issued c next).pantry = s.pantry := by
  simp only [State.issued, State.setSeq_pantry, State.setFld_pantry, State.setPc_pantry, State.count_pantry]
@[simp] theorem State.issued_pantryEcc (c : Nat) (next : Int) : (s.issued c next).pantryEcc = s.pantryEcc := by
  simp only [State.issued, State.setSeq_pantryEcc, State.setFld_pantryEcc, State.setPc_pantryEcc, State.count_pantryEcc]
@[simp] theorem State.issued_scrubWrites (c : Nat) (next : Int) : (s.issued c next).scrubWrites = s.scrubWrites := by
  simp only [State.issued, State.setSeq_scrubWrites, State.setFld_scrubWrites, State.setPc_scrubWrites, State.count_scrubWrites]
@[simp] theorem State.issued_code (c : Nat) (next : Int) : (s.issued c next).code = s.code := by
  simp only [State.issued, State.setSeq_code, State.setFld_code, State.setPc_code, State.count_code]
@[simp] theorem State.issued_codeEcc (c : Nat) (next : Int) : (s.issued c next).codeEcc = s.codeEcc := by
  simp only [State.issued, State.setSeq_codeEcc, State.setFld_codeEcc, State.setPc_codeEcc, State.count_codeEcc]
@[simp] theorem State.issued_tokOps (c : Nat) (next : Int) : (s.issued c next).tokOps = s.tokOps := by
  simp only [State.issued, State.setSeq_tokOps, State.setFld_tokOps, State.setPc_tokOps, State.count_tokOps]
@[simp] theorem State.issued_lateWin (c : Nat) (next : Int) : (s.issued c next).lateWin = s.lateWin := by
  simp only [State.issued, State.setSeq_lateWin, State.setFld_lateWin, State.setPc_lateWin, State.count_lateWin]
@[simp] theorem State.issued_twaits (c : Nat) (next : Int) : (s.issued c next).twaits = s.twaits := by
  simp only [State.issued, State.setSeq_twaits, State.setFld_twaits, State.setPc_twaits, State.count_twaits]
@[simp] theorem State.issued_runTime (c : Nat) (next : Int) : (s.issued c next).runTime = s.runTime := by
  simp only [State.issued, State.setSeq_runTime, State.setFld_runTime, State.setPc_runTime, State.count_runTime]
@[simp] theorem State.issued_waking (c : Nat) (next : Int) : (s.issued c next).waking = s.waking := by
  simp only [State.issued, State.setSeq_waking, State.setFld_waking, State.setPc_waking, State.count_waking]
@[simp] theorem State.issued_sleepWant (c : Nat) (next : Int) : (s.issued c next).sleepWant = s.sleepWant := by
  simp only [State.issued, State.setSeq_sleepWant, State.setFld_sleepWant, State.setPc_sleepWant, State.count_sleepWant]
@[simp] theorem State.issued_wokeAt (c : Nat) (next : Int) : (s.issued c next).wokeAt = s.wokeAt := by
  simp only [State.issued, State.setSeq_wokeAt, State.setFld_wokeAt, State.setPc_wokeAt, State.count_wokeAt]
@[simp] theorem State.issued_acc (c : Nat) (next : Int) : (s.issued c next).acc = s.acc := by
  simp only [State.issued, State.setSeq_acc, State.setFld_acc, State.setPc_acc, State.count_acc]
@[simp] theorem State.issued_accEcc (c : Nat) (next : Int) : (s.issued c next).accEcc = s.accEcc := by
  simp only [State.issued, State.setSeq_accEcc, State.setFld_accEcc, State.setPc_accEcc, State.count_accEcc]
@[simp] theorem State.issued_tiles (c : Nat) (next : Int) : (s.issued c next).tiles = s.tiles := by
  simp only [State.issued, State.setSeq_tiles, State.setFld_tiles, State.setPc_tiles, State.count_tiles]
@[simp] theorem State.issued_engOps (c : Nat) (next : Int) : (s.issued c next).engOps = s.engOps := by
  simp only [State.issued, State.setSeq_engOps, State.setFld_engOps, State.setPc_engOps, State.count_engOps]
@[simp] theorem State.issued_engActive (c : Nat) (next : Int) : (s.issued c next).engActive = s.engActive := by
  simp only [State.issued, State.setSeq_engActive, State.setFld_engActive, State.setPc_engActive, State.count_engActive]
@[simp] theorem State.issued_engBad (c : Nat) (next : Int) : (s.issued c next).engBad = s.engBad := by
  simp only [State.issued, State.setSeq_engBad, State.setFld_engBad, State.setPc_engBad, State.count_engBad]
@[simp] theorem State.issued_vecOps (c : Nat) (next : Int) : (s.issued c next).vecOps = s.vecOps := by
  simp only [State.issued, State.setSeq_vecOps, State.setFld_vecOps, State.setPc_vecOps, State.count_vecOps]
@[simp] theorem State.issued_fires (c : Nat) (next : Int) : (s.issued c next).fires = s.fires := by
  simp only [State.issued, State.setSeq_fires, State.setFld_fires, State.setPc_fires, State.count_fires]
@[simp] theorem State.issued_outBufs (c : Nat) (next : Int) : (s.issued c next).outBufs = s.outBufs := by
  simp only [State.issued, State.setSeq_outBufs, State.setFld_outBufs, State.setPc_outBufs, State.count_outBufs]
@[simp] theorem State.issued_winPends (c : Nat) (next : Int) : (s.issued c next).winPends = s.winPends := by
  simp only [State.issued, State.setSeq_winPends, State.setFld_winPends, State.setPc_winPends, State.count_winPends]
@[simp] theorem State.issued_sigWaits (c : Nat) (next : Int) : (s.issued c next).sigWaits = s.sigWaits := by
  simp only [State.issued, State.setSeq_sigWaits, State.setFld_sigWaits, State.setPc_sigWaits, State.count_sigWaits]
@[simp] theorem State.issued_sigOuts (c : Nat) (next : Int) : (s.issued c next).sigOuts = s.sigOuts := by
  simp only [State.issued, State.setSeq_sigOuts, State.setFld_sigOuts, State.setPc_sigOuts, State.count_sigOuts]
@[simp] theorem State.issued_net (c : Nat) (next : Int) : (s.issued c next).net = s.net := by
  simp only [State.issued, State.setSeq_net, State.setFld_net, State.setPc_net, State.count_net]
@[simp] theorem State.issued_pn (c : Nat) (next : Int) : (s.issued c next).pn = s.pn := by
  simp only [State.issued, State.setSeq_pn, State.setFld_pn, State.setPc_pn, State.count_pn]
@[simp] theorem State.issued_cells (c : Nat) (next : Int) : (s.issued c next).cells = s.cells := by
  simp only [State.issued, State.setSeq_cells, State.setFld_cells, State.setPc_cells, State.count_cells]
@[simp] theorem State.issued_scales (c : Nat) (next : Int) : (s.issued c next).scales = s.scales := by
  simp only [State.issued, State.setSeq_scales, State.setFld_scales, State.setPc_scales, State.count_scales]
@[simp] theorem State.issued_wsums (c : Nat) (next : Int) : (s.issued c next).wsums = s.wsums := by
  simp only [State.issued, State.setSeq_wsums, State.setFld_wsums, State.setPc_wsums, State.count_wsums]
@[simp] theorem State.issued_dsums (c : Nat) (next : Int) : (s.issued c next).dsums = s.dsums := by
  simp only [State.issued, State.setSeq_dsums, State.setFld_dsums, State.setPc_dsums, State.count_dsums]
@[simp] theorem State.issued_rsums (c : Nat) (next : Int) : (s.issued c next).rsums = s.rsums := by
  simp only [State.issued, State.setSeq_rsums, State.setFld_rsums, State.setPc_rsums, State.count_rsums]
@[simp] theorem State.issued_spans (c : Nat) (next : Int) : (s.issued c next).spans = s.spans := by
  simp only [State.issued, State.setSeq_spans, State.setFld_spans, State.setPc_spans, State.count_spans]
@[simp] theorem State.issued_labelEcc (c : Nat) (next : Int) : (s.issued c next).labelEcc = s.labelEcc := by
  simp only [State.issued, State.setSeq_labelEcc, State.setFld_labelEcc, State.setPc_labelEcc, State.count_labelEcc]
@[simp] theorem State.issued_testSums (c : Nat) (next : Int) : (s.issued c next).testSums = s.testSums := by
  simp only [State.issued, State.setSeq_testSums, State.setFld_testSums, State.setPc_testSums, State.count_testSums]
@[simp] theorem State.issued_envelopes (c : Nat) (next : Int) : (s.issued c next).envelopes = s.envelopes := by
  simp only [State.issued, State.setSeq_envelopes, State.setFld_envelopes, State.setPc_envelopes, State.count_envelopes]
@[simp] theorem State.issued_colStats (c : Nat) (next : Int) : (s.issued c next).colStats = s.colStats := by
  simp only [State.issued, State.setSeq_colStats, State.setFld_colStats, State.setPc_colStats, State.count_colStats]
@[simp] theorem State.issued_binRecs (c : Nat) (next : Int) : (s.issued c next).binRecs = s.binRecs := by
  simp only [State.issued, State.setSeq_binRecs, State.setFld_binRecs, State.setPc_binRecs, State.count_binRecs]
@[simp] theorem State.issued_rackRecs (c : Nat) (next : Int) : (s.issued c next).rackRecs = s.rackRecs := by
  simp only [State.issued, State.setSeq_rackRecs, State.setFld_rackRecs, State.setPc_rackRecs, State.count_rackRecs]
@[simp] theorem State.issued_binChecks (c : Nat) (next : Int) : (s.issued c next).binChecks = s.binChecks := by
  simp only [State.issued, State.setSeq_binChecks, State.setFld_binChecks, State.setPc_binChecks, State.count_binChecks]
@[simp] theorem State.issued_driftActs (c : Nat) (next : Int) : (s.issued c next).driftActs = s.driftActs := by
  simp only [State.issued, State.setSeq_driftActs, State.setFld_driftActs, State.setPc_driftActs, State.count_driftActs]
@[simp] theorem State.issued_refreshQ (c : Nat) (next : Int) : (s.issued c next).refreshQ = s.refreshQ := by
  simp only [State.issued, State.setSeq_refreshQ, State.setFld_refreshQ, State.setPc_refreshQ, State.count_refreshQ]
@[simp] theorem State.issued_refreshing (c : Nat) (next : Int) : (s.issued c next).refreshing = s.refreshing := by
  simp only [State.issued, State.setSeq_refreshing, State.setFld_refreshing, State.setPc_refreshing, State.count_refreshing]
@[simp] theorem State.issued_autoRefresh (c : Nat) (next : Int) : (s.issued c next).autoRefresh = s.autoRefresh := by
  simp only [State.issued, State.setSeq_autoRefresh, State.setFld_autoRefresh, State.setPc_autoRefresh, State.count_autoRefresh]
@[simp] theorem State.issued_hvRefresh (c : Nat) (next : Int) : (s.issued c next).hvRefresh = s.hvRefresh := by
  simp only [State.issued, State.setSeq_hvRefresh, State.setFld_hvRefresh, State.setPc_hvRefresh, State.count_hvRefresh]
@[simp] theorem State.issued_quietAt (c : Nat) (next : Int) : (s.issued c next).quietAt = s.quietAt := by
  simp only [State.issued, State.setSeq_quietAt, State.setFld_quietAt, State.setPc_quietAt, State.count_quietAt]
@[simp] theorem State.issued_driftLog (c : Nat) (next : Int) : (s.issued c next).driftLog = s.driftLog := by
  simp only [State.issued, State.setSeq_driftLog, State.setFld_driftLog, State.setPc_driftLog, State.count_driftLog]
@[simp] theorem State.issued_errLog (c : Nat) (next : Int) : (s.issued c next).errLog = s.errLog := by
  simp only [State.issued, State.setSeq_errLog, State.setFld_errLog, State.setPc_errLog, State.count_errLog]
@[simp] theorem State.issued_thrLog (c : Nat) (next : Int) : (s.issued c next).thrLog = s.thrLog := by
  simp only [State.issued, State.setSeq_thrLog, State.setFld_thrLog, State.setPc_thrLog, State.count_thrLog]
@[simp] theorem State.issued_wear (c : Nat) (next : Int) : (s.issued c next).wear = s.wear := by
  simp only [State.issued, State.setSeq_wear, State.setFld_wear, State.setPc_wear, State.count_wear]
@[simp] theorem State.issued_binMap (c : Nat) (next : Int) : (s.issued c next).binMap = s.binMap := by
  simp only [State.issued, State.setSeq_binMap, State.setFld_binMap, State.setPc_binMap, State.count_binMap]
@[simp] theorem State.issued_thresholds (c : Nat) (next : Int) : (s.issued c next).thresholds = s.thresholds := by
  simp only [State.issued, State.setSeq_thresholds, State.setFld_thresholds, State.setPc_thresholds, State.count_thresholds]
@[simp] theorem State.issued_threshBad (c : Nat) (next : Int) : (s.issued c next).threshBad = s.threshBad := by
  simp only [State.issued, State.setSeq_threshBad, State.setFld_threshBad, State.setPc_threshBad, State.count_threshBad]
@[simp] theorem State.issued_tempTrim (c : Nat) (next : Int) : (s.issued c next).tempTrim = s.tempTrim := by
  simp only [State.issued, State.setSeq_tempTrim, State.setFld_tempTrim, State.setPc_tempTrim, State.count_tempTrim]
@[simp] theorem State.issued_trimTemp (c : Nat) (next : Int) : (s.issued c next).trimTemp = s.trimTemp := by
  simp only [State.issued, State.setSeq_trimTemp, State.setFld_trimTemp, State.setPc_trimTemp, State.count_trimTemp]
@[simp] theorem State.issued_tempOut (c : Nat) (next : Int) : (s.issued c next).tempOut = s.tempOut := by
  simp only [State.issued, State.setSeq_tempOut, State.setFld_tempOut, State.setPc_tempOut, State.count_tempOut]
@[simp] theorem State.issued_actTests (c : Nat) (next : Int) : (s.issued c next).actTests = s.actTests := by
  simp only [State.issued, State.setSeq_actTests, State.setFld_actTests, State.setPc_actTests, State.count_actTests]
@[simp] theorem State.issued_actTestAt (c : Nat) (next : Int) : (s.issued c next).actTestAt = s.actTestAt := by
  simp only [State.issued, State.setSeq_actTestAt, State.setFld_actTestAt, State.setPc_actTestAt, State.count_actTestAt]
@[simp] theorem State.issued_ctxs (c : Nat) (next : Int) : (s.issued c next).ctxs = s.ctxs := by
  simp only [State.issued, State.setSeq_ctxs, State.setFld_ctxs, State.setPc_ctxs, State.count_ctxs]
@[simp] theorem State.issued_passes (c : Nat) (next : Int) : (s.issued c next).passes = s.passes := by
  simp only [State.issued, State.setSeq_passes, State.setFld_passes, State.setPc_passes, State.count_passes]
@[simp] theorem State.issued_trips (c : Nat) (next : Int) : (s.issued c next).trips = s.trips := by
  simp only [State.issued, State.setSeq_trips, State.setFld_trips, State.setPc_trips, State.count_trips]
@[simp] theorem State.issued_normActs (c : Nat) (next : Int) : (s.issued c next).normActs = s.normActs := by
  simp only [State.issued, State.setSeq_normActs, State.setFld_normActs, State.setPc_normActs, State.count_normActs]
@[simp] theorem State.issued_outbox (c : Nat) (next : Int) : (s.issued c next).outbox = s.outbox := by
  simp only [State.issued, State.setSeq_outbox, State.setFld_outbox, State.setPc_outbox, State.count_outbox]
@[simp] theorem State.issued_claimQ (c : Nat) (next : Int) : (s.issued c next).claimQ = s.claimQ := by
  simp only [State.issued, State.setSeq_claimQ, State.setFld_claimQ, State.setPc_claimQ, State.count_claimQ]
@[simp] theorem State.issued_power (c : Nat) (next : Int) : (s.issued c next).power = s.power := by
  simp only [State.issued, State.setSeq_power, State.setFld_power, State.setPc_power, State.count_power]
@[simp] theorem State.issued_routes (c : Nat) (next : Int) : (s.issued c next).routes = s.routes := by
  simp only [State.issued, State.setSeq_routes, State.setFld_routes, State.setPc_routes, State.count_routes]
@[simp] theorem State.issued_routesKept (c : Nat) (next : Int) : (s.issued c next).routesKept = s.routesKept := by
  simp only [State.issued, State.setSeq_routesKept, State.setFld_routesKept, State.setPc_routesKept, State.count_routesKept]
@[simp] theorem State.issued_ports (c : Nat) (next : Int) : (s.issued c next).ports = s.ports := by
  simp only [State.issued, State.setSeq_ports, State.setFld_ports, State.setPc_ports, State.count_ports]
@[simp] theorem State.issued_answered (c : Nat) (next : Int) : (s.issued c next).answered = s.answered := by
  simp only [State.issued, State.setSeq_answered, State.setFld_answered, State.setPc_answered, State.count_answered]
@[simp] theorem State.issued_slackIn (c : Nat) (next : Int) : (s.issued c next).slackIn = s.slackIn := by
  simp only [State.issued, State.setSeq_slackIn, State.setFld_slackIn, State.setPc_slackIn, State.count_slackIn]
@[simp] theorem State.issued_slots (c : Nat) (next : Int) : (s.issued c next).slots = s.slots := by
  simp only [State.issued, State.setSeq_slots, State.setFld_slots, State.setPc_slots, State.count_slots]
@[simp] theorem State.issued_parts (c : Nat) (next : Int) : (s.issued c next).parts = s.parts := by
  simp only [State.issued, State.setSeq_parts, State.setFld_parts, State.setPc_parts, State.count_parts]
@[simp] theorem State.issued_layerKv (c : Nat) (next : Int) : (s.issued c next).layerKv = s.layerKv := by
  simp only [State.issued, State.setSeq_layerKv, State.setFld_layerKv, State.setPc_layerKv, State.count_layerKv]
@[simp] theorem State.issued_standIns (c : Nat) (next : Int) : (s.issued c next).standIns = s.standIns := by
  simp only [State.issued, State.setSeq_standIns, State.setFld_standIns, State.setPc_standIns, State.count_standIns]
@[simp] theorem State.issued_kvHolds (c : Nat) (next : Int) : (s.issued c next).kvHolds = s.kvHolds := by
  simp only [State.issued, State.setSeq_kvHolds, State.setFld_kvHolds, State.setPc_kvHolds, State.count_kvHolds]
@[simp] theorem State.issued_kvReserves (c : Nat) (next : Int) : (s.issued c next).kvReserves = s.kvReserves := by
  simp only [State.issued, State.setSeq_kvReserves, State.setFld_kvReserves, State.setPc_kvReserves, State.count_kvReserves]
@[simp] theorem State.issued_kvSlots (c : Nat) (next : Int) : (s.issued c next).kvSlots = s.kvSlots := by
  simp only [State.issued, State.setSeq_kvSlots, State.setFld_kvSlots, State.setPc_kvSlots, State.count_kvSlots]
@[simp] theorem State.issued_bookSlots (c : Nat) (next : Int) : (s.issued c next).bookSlots = s.bookSlots := by
  simp only [State.issued, State.setSeq_bookSlots, State.setFld_bookSlots, State.setPc_bookSlots, State.count_bookSlots]
@[simp] theorem State.issued_kvOps (c : Nat) (next : Int) : (s.issued c next).kvOps = s.kvOps := by
  simp only [State.issued, State.setSeq_kvOps, State.setFld_kvOps, State.setPc_kvOps, State.count_kvOps]
@[simp] theorem State.issued_loftFetches (c : Nat) (next : Int) : (s.issued c next).loftFetches = s.loftFetches := by
  simp only [State.issued, State.setSeq_loftFetches, State.setFld_loftFetches, State.setPc_loftFetches, State.count_loftFetches]
@[simp] theorem State.issued_spills (c : Nat) (next : Int) : (s.issued c next).spills = s.spills := by
  simp only [State.issued, State.setSeq_spills, State.setFld_spills, State.setPc_spills, State.count_spills]
@[simp] theorem State.issued_recency (c : Nat) (next : Int) : (s.issued c next).recency = s.recency := by
  simp only [State.issued, State.setSeq_recency, State.setFld_recency, State.setPc_recency, State.count_recency]
@[simp] theorem State.issued_loftClean (c : Nat) (next : Int) : (s.issued c next).loftClean = s.loftClean := by
  simp only [State.issued, State.setSeq_loftClean, State.setFld_loftClean, State.setPc_loftClean, State.count_loftClean]
@[simp] theorem State.issued_digestDirty (c : Nat) (next : Int) : (s.issued c next).digestDirty = s.digestDirty := by
  simp only [State.issued, State.setSeq_digestDirty, State.setFld_digestDirty, State.setPc_digestDirty, State.count_digestDirty]
@[simp] theorem State.issued_tracked (c : Nat) (next : Int) : (s.issued c next).tracked = s.tracked := by
  simp only [State.issued, State.setSeq_tracked, State.setFld_tracked, State.setPc_tracked, State.count_tracked]
@[simp] theorem State.issued_biSent (c : Nat) (next : Int) : (s.issued c next).biSent = s.biSent := by
  simp only [State.issued, State.setSeq_biSent, State.setFld_biSent, State.setPc_biSent, State.count_biSent]
@[simp] theorem State.issued_biWant (c : Nat) (next : Int) : (s.issued c next).biWant = s.biWant := by
  simp only [State.issued, State.setSeq_biWant, State.setFld_biWant, State.setPc_biWant, State.count_biWant]
@[simp] theorem State.issued_reqs (c : Nat) (next : Int) : (s.issued c next).reqs = s.reqs := by
  simp only [State.issued, State.setSeq_reqs, State.setFld_reqs, State.setPc_reqs, State.count_reqs]
@[simp] theorem State.issued_notices (c : Nat) (next : Int) : (s.issued c next).notices = s.notices := by
  simp only [State.issued, State.setSeq_notices, State.setFld_notices, State.setPc_notices, State.count_notices]
@[simp] theorem State.issued_queues (c : Nat) (next : Int) : (s.issued c next).queues = s.queues := by
  simp only [State.issued, State.setSeq_queues, State.setFld_queues, State.setPc_queues, State.count_queues]
@[simp] theorem State.issued_host (c : Nat) (next : Int) : (s.issued c next).host = s.host := by
  simp only [State.issued, State.setSeq_host, State.setFld_host, State.setPc_host, State.count_host]
@[simp] theorem State.issued_binds (c : Nat) (next : Int) : (s.issued c next).binds = s.binds := by
  simp only [State.issued, State.setSeq_binds, State.setFld_binds, State.setPc_binds, State.count_binds]
@[simp] theorem State.issued_blk (c : Nat) (next : Int) : (s.issued c next).blk = s.blk := by
  simp only [State.issued, State.setSeq_blk, State.setFld_blk, State.setPc_blk, State.count_blk]
@[simp] theorem State.issued_inst (c : Nat) (next : Int) : (s.issued c next).inst = s.inst := by
  simp only [State.issued, State.setSeq_inst, State.setFld_inst, State.setPc_inst, State.count_inst]
@[simp] theorem State.issued_faults (c : Nat) (next : Int) : (s.issued c next).faults = s.faults := by
  simp only [State.issued, State.setSeq_faults, State.setFld_faults, State.setPc_faults, State.count_faults]
@[simp] theorem State.issued_sec (c : Nat) (next : Int) : (s.issued c next).sec = s.sec := by
  simp only [State.issued, State.setSeq_sec, State.setFld_sec, State.setPc_sec, State.count_sec]

/-! `held` -/

@[simp] theorem State.held_pending (c : Nat) : (s.held c).pending = s.pending := by
  simp only [State.held, State.setSeq_pending, State.setFld_pending]
@[simp] theorem State.held_fresh (c : Nat) : (s.held c).fresh = s.fresh := by
  simp only [State.held, State.setSeq_fresh, State.setFld_fresh]
@[simp] theorem State.held_nextId (c : Nat) : (s.held c).nextId = s.nextId := by
  simp only [State.held, State.setSeq_nextId, State.setFld_nextId]
@[simp] theorem State.held_now (c : Nat) : (s.held c).now = s.now := by
  simp only [State.held, State.setSeq_now, State.setFld_now]
@[simp] theorem State.held_shadow (c : Nat) : (s.held c).shadow = s.shadow := by
  simp only [State.held, State.setSeq_shadow, State.setFld_shadow]
@[simp] theorem State.held_latches (c : Nat) : (s.held c).latches = s.latches := by
  simp only [State.held, State.setSeq_latches, State.setFld_latches]
@[simp] theorem State.held_pantry (c : Nat) : (s.held c).pantry = s.pantry := by
  simp only [State.held, State.setSeq_pantry, State.setFld_pantry]
@[simp] theorem State.held_pantryEcc (c : Nat) : (s.held c).pantryEcc = s.pantryEcc := by
  simp only [State.held, State.setSeq_pantryEcc, State.setFld_pantryEcc]
@[simp] theorem State.held_scrubWrites (c : Nat) : (s.held c).scrubWrites = s.scrubWrites := by
  simp only [State.held, State.setSeq_scrubWrites, State.setFld_scrubWrites]
@[simp] theorem State.held_code (c : Nat) : (s.held c).code = s.code := by
  simp only [State.held, State.setSeq_code, State.setFld_code]
@[simp] theorem State.held_codeEcc (c : Nat) : (s.held c).codeEcc = s.codeEcc := by
  simp only [State.held, State.setSeq_codeEcc, State.setFld_codeEcc]
@[simp] theorem State.held_tokOps (c : Nat) : (s.held c).tokOps = s.tokOps := by
  simp only [State.held, State.setSeq_tokOps, State.setFld_tokOps]
@[simp] theorem State.held_lateWin (c : Nat) : (s.held c).lateWin = s.lateWin := by
  simp only [State.held, State.setSeq_lateWin, State.setFld_lateWin]
@[simp] theorem State.held_twaits (c : Nat) : (s.held c).twaits = s.twaits := by
  simp only [State.held, State.setSeq_twaits, State.setFld_twaits]
@[simp] theorem State.held_runTime (c : Nat) : (s.held c).runTime = s.runTime := by
  simp only [State.held, State.setSeq_runTime, State.setFld_runTime]
@[simp] theorem State.held_waking (c : Nat) : (s.held c).waking = s.waking := by
  simp only [State.held, State.setSeq_waking, State.setFld_waking]
@[simp] theorem State.held_sleepWant (c : Nat) : (s.held c).sleepWant = s.sleepWant := by
  simp only [State.held, State.setSeq_sleepWant, State.setFld_sleepWant]
@[simp] theorem State.held_wokeAt (c : Nat) : (s.held c).wokeAt = s.wokeAt := by
  simp only [State.held, State.setSeq_wokeAt, State.setFld_wokeAt]
@[simp] theorem State.held_acc (c : Nat) : (s.held c).acc = s.acc := by
  simp only [State.held, State.setSeq_acc, State.setFld_acc]
@[simp] theorem State.held_accEcc (c : Nat) : (s.held c).accEcc = s.accEcc := by
  simp only [State.held, State.setSeq_accEcc, State.setFld_accEcc]
@[simp] theorem State.held_tiles (c : Nat) : (s.held c).tiles = s.tiles := by
  simp only [State.held, State.setSeq_tiles, State.setFld_tiles]
@[simp] theorem State.held_engOps (c : Nat) : (s.held c).engOps = s.engOps := by
  simp only [State.held, State.setSeq_engOps, State.setFld_engOps]
@[simp] theorem State.held_engActive (c : Nat) : (s.held c).engActive = s.engActive := by
  simp only [State.held, State.setSeq_engActive, State.setFld_engActive]
@[simp] theorem State.held_engBad (c : Nat) : (s.held c).engBad = s.engBad := by
  simp only [State.held, State.setSeq_engBad, State.setFld_engBad]
@[simp] theorem State.held_vecOps (c : Nat) : (s.held c).vecOps = s.vecOps := by
  simp only [State.held, State.setSeq_vecOps, State.setFld_vecOps]
@[simp] theorem State.held_fires (c : Nat) : (s.held c).fires = s.fires := by
  simp only [State.held, State.setSeq_fires, State.setFld_fires]
@[simp] theorem State.held_outBufs (c : Nat) : (s.held c).outBufs = s.outBufs := by
  simp only [State.held, State.setSeq_outBufs, State.setFld_outBufs]
@[simp] theorem State.held_winPends (c : Nat) : (s.held c).winPends = s.winPends := by
  simp only [State.held, State.setSeq_winPends, State.setFld_winPends]
@[simp] theorem State.held_sigWaits (c : Nat) : (s.held c).sigWaits = s.sigWaits := by
  simp only [State.held, State.setSeq_sigWaits, State.setFld_sigWaits]
@[simp] theorem State.held_sigOuts (c : Nat) : (s.held c).sigOuts = s.sigOuts := by
  simp only [State.held, State.setSeq_sigOuts, State.setFld_sigOuts]
@[simp] theorem State.held_net (c : Nat) : (s.held c).net = s.net := by
  simp only [State.held, State.setSeq_net, State.setFld_net]
@[simp] theorem State.held_pn (c : Nat) : (s.held c).pn = s.pn := by
  simp only [State.held, State.setSeq_pn, State.setFld_pn]
@[simp] theorem State.held_cells (c : Nat) : (s.held c).cells = s.cells := by
  simp only [State.held, State.setSeq_cells, State.setFld_cells]
@[simp] theorem State.held_scales (c : Nat) : (s.held c).scales = s.scales := by
  simp only [State.held, State.setSeq_scales, State.setFld_scales]
@[simp] theorem State.held_wsums (c : Nat) : (s.held c).wsums = s.wsums := by
  simp only [State.held, State.setSeq_wsums, State.setFld_wsums]
@[simp] theorem State.held_dsums (c : Nat) : (s.held c).dsums = s.dsums := by
  simp only [State.held, State.setSeq_dsums, State.setFld_dsums]
@[simp] theorem State.held_rsums (c : Nat) : (s.held c).rsums = s.rsums := by
  simp only [State.held, State.setSeq_rsums, State.setFld_rsums]
@[simp] theorem State.held_spans (c : Nat) : (s.held c).spans = s.spans := by
  simp only [State.held, State.setSeq_spans, State.setFld_spans]
@[simp] theorem State.held_labelEcc (c : Nat) : (s.held c).labelEcc = s.labelEcc := by
  simp only [State.held, State.setSeq_labelEcc, State.setFld_labelEcc]
@[simp] theorem State.held_testSums (c : Nat) : (s.held c).testSums = s.testSums := by
  simp only [State.held, State.setSeq_testSums, State.setFld_testSums]
@[simp] theorem State.held_envelopes (c : Nat) : (s.held c).envelopes = s.envelopes := by
  simp only [State.held, State.setSeq_envelopes, State.setFld_envelopes]
@[simp] theorem State.held_colStats (c : Nat) : (s.held c).colStats = s.colStats := by
  simp only [State.held, State.setSeq_colStats, State.setFld_colStats]
@[simp] theorem State.held_binRecs (c : Nat) : (s.held c).binRecs = s.binRecs := by
  simp only [State.held, State.setSeq_binRecs, State.setFld_binRecs]
@[simp] theorem State.held_rackRecs (c : Nat) : (s.held c).rackRecs = s.rackRecs := by
  simp only [State.held, State.setSeq_rackRecs, State.setFld_rackRecs]
@[simp] theorem State.held_binChecks (c : Nat) : (s.held c).binChecks = s.binChecks := by
  simp only [State.held, State.setSeq_binChecks, State.setFld_binChecks]
@[simp] theorem State.held_driftActs (c : Nat) : (s.held c).driftActs = s.driftActs := by
  simp only [State.held, State.setSeq_driftActs, State.setFld_driftActs]
@[simp] theorem State.held_refreshQ (c : Nat) : (s.held c).refreshQ = s.refreshQ := by
  simp only [State.held, State.setSeq_refreshQ, State.setFld_refreshQ]
@[simp] theorem State.held_refreshing (c : Nat) : (s.held c).refreshing = s.refreshing := by
  simp only [State.held, State.setSeq_refreshing, State.setFld_refreshing]
@[simp] theorem State.held_autoRefresh (c : Nat) : (s.held c).autoRefresh = s.autoRefresh := by
  simp only [State.held, State.setSeq_autoRefresh, State.setFld_autoRefresh]
@[simp] theorem State.held_hvRefresh (c : Nat) : (s.held c).hvRefresh = s.hvRefresh := by
  simp only [State.held, State.setSeq_hvRefresh, State.setFld_hvRefresh]
@[simp] theorem State.held_quietAt (c : Nat) : (s.held c).quietAt = s.quietAt := by
  simp only [State.held, State.setSeq_quietAt, State.setFld_quietAt]
@[simp] theorem State.held_driftLog (c : Nat) : (s.held c).driftLog = s.driftLog := by
  simp only [State.held, State.setSeq_driftLog, State.setFld_driftLog]
@[simp] theorem State.held_errLog (c : Nat) : (s.held c).errLog = s.errLog := by
  simp only [State.held, State.setSeq_errLog, State.setFld_errLog]
@[simp] theorem State.held_thrLog (c : Nat) : (s.held c).thrLog = s.thrLog := by
  simp only [State.held, State.setSeq_thrLog, State.setFld_thrLog]
@[simp] theorem State.held_wear (c : Nat) : (s.held c).wear = s.wear := by
  simp only [State.held, State.setSeq_wear, State.setFld_wear]
@[simp] theorem State.held_binMap (c : Nat) : (s.held c).binMap = s.binMap := by
  simp only [State.held, State.setSeq_binMap, State.setFld_binMap]
@[simp] theorem State.held_thresholds (c : Nat) : (s.held c).thresholds = s.thresholds := by
  simp only [State.held, State.setSeq_thresholds, State.setFld_thresholds]
@[simp] theorem State.held_threshBad (c : Nat) : (s.held c).threshBad = s.threshBad := by
  simp only [State.held, State.setSeq_threshBad, State.setFld_threshBad]
@[simp] theorem State.held_tempTrim (c : Nat) : (s.held c).tempTrim = s.tempTrim := by
  simp only [State.held, State.setSeq_tempTrim, State.setFld_tempTrim]
@[simp] theorem State.held_trimTemp (c : Nat) : (s.held c).trimTemp = s.trimTemp := by
  simp only [State.held, State.setSeq_trimTemp, State.setFld_trimTemp]
@[simp] theorem State.held_tempOut (c : Nat) : (s.held c).tempOut = s.tempOut := by
  simp only [State.held, State.setSeq_tempOut, State.setFld_tempOut]
@[simp] theorem State.held_actTests (c : Nat) : (s.held c).actTests = s.actTests := by
  simp only [State.held, State.setSeq_actTests, State.setFld_actTests]
@[simp] theorem State.held_actTestAt (c : Nat) : (s.held c).actTestAt = s.actTestAt := by
  simp only [State.held, State.setSeq_actTestAt, State.setFld_actTestAt]
@[simp] theorem State.held_ctxs (c : Nat) : (s.held c).ctxs = s.ctxs := by
  simp only [State.held, State.setSeq_ctxs, State.setFld_ctxs]
@[simp] theorem State.held_passes (c : Nat) : (s.held c).passes = s.passes := by
  simp only [State.held, State.setSeq_passes, State.setFld_passes]
@[simp] theorem State.held_trips (c : Nat) : (s.held c).trips = s.trips := by
  simp only [State.held, State.setSeq_trips, State.setFld_trips]
@[simp] theorem State.held_normActs (c : Nat) : (s.held c).normActs = s.normActs := by
  simp only [State.held, State.setSeq_normActs, State.setFld_normActs]
@[simp] theorem State.held_outbox (c : Nat) : (s.held c).outbox = s.outbox := by
  simp only [State.held, State.setSeq_outbox, State.setFld_outbox]
@[simp] theorem State.held_claimQ (c : Nat) : (s.held c).claimQ = s.claimQ := by
  simp only [State.held, State.setSeq_claimQ, State.setFld_claimQ]
@[simp] theorem State.held_power (c : Nat) : (s.held c).power = s.power := by
  simp only [State.held, State.setSeq_power, State.setFld_power]
@[simp] theorem State.held_routes (c : Nat) : (s.held c).routes = s.routes := by
  simp only [State.held, State.setSeq_routes, State.setFld_routes]
@[simp] theorem State.held_routesKept (c : Nat) : (s.held c).routesKept = s.routesKept := by
  simp only [State.held, State.setSeq_routesKept, State.setFld_routesKept]
@[simp] theorem State.held_ports (c : Nat) : (s.held c).ports = s.ports := by
  simp only [State.held, State.setSeq_ports, State.setFld_ports]
@[simp] theorem State.held_answered (c : Nat) : (s.held c).answered = s.answered := by
  simp only [State.held, State.setSeq_answered, State.setFld_answered]
@[simp] theorem State.held_slackIn (c : Nat) : (s.held c).slackIn = s.slackIn := by
  simp only [State.held, State.setSeq_slackIn, State.setFld_slackIn]
@[simp] theorem State.held_slots (c : Nat) : (s.held c).slots = s.slots := by
  simp only [State.held, State.setSeq_slots, State.setFld_slots]
@[simp] theorem State.held_parts (c : Nat) : (s.held c).parts = s.parts := by
  simp only [State.held, State.setSeq_parts, State.setFld_parts]
@[simp] theorem State.held_layerKv (c : Nat) : (s.held c).layerKv = s.layerKv := by
  simp only [State.held, State.setSeq_layerKv, State.setFld_layerKv]
@[simp] theorem State.held_standIns (c : Nat) : (s.held c).standIns = s.standIns := by
  simp only [State.held, State.setSeq_standIns, State.setFld_standIns]
@[simp] theorem State.held_kvHolds (c : Nat) : (s.held c).kvHolds = s.kvHolds := by
  simp only [State.held, State.setSeq_kvHolds, State.setFld_kvHolds]
@[simp] theorem State.held_kvReserves (c : Nat) : (s.held c).kvReserves = s.kvReserves := by
  simp only [State.held, State.setSeq_kvReserves, State.setFld_kvReserves]
@[simp] theorem State.held_kvSlots (c : Nat) : (s.held c).kvSlots = s.kvSlots := by
  simp only [State.held, State.setSeq_kvSlots, State.setFld_kvSlots]
@[simp] theorem State.held_bookSlots (c : Nat) : (s.held c).bookSlots = s.bookSlots := by
  simp only [State.held, State.setSeq_bookSlots, State.setFld_bookSlots]
@[simp] theorem State.held_kvOps (c : Nat) : (s.held c).kvOps = s.kvOps := by
  simp only [State.held, State.setSeq_kvOps, State.setFld_kvOps]
@[simp] theorem State.held_loftFetches (c : Nat) : (s.held c).loftFetches = s.loftFetches := by
  simp only [State.held, State.setSeq_loftFetches, State.setFld_loftFetches]
@[simp] theorem State.held_spills (c : Nat) : (s.held c).spills = s.spills := by
  simp only [State.held, State.setSeq_spills, State.setFld_spills]
@[simp] theorem State.held_recency (c : Nat) : (s.held c).recency = s.recency := by
  simp only [State.held, State.setSeq_recency, State.setFld_recency]
@[simp] theorem State.held_loftClean (c : Nat) : (s.held c).loftClean = s.loftClean := by
  simp only [State.held, State.setSeq_loftClean, State.setFld_loftClean]
@[simp] theorem State.held_digestDirty (c : Nat) : (s.held c).digestDirty = s.digestDirty := by
  simp only [State.held, State.setSeq_digestDirty, State.setFld_digestDirty]
@[simp] theorem State.held_tracked (c : Nat) : (s.held c).tracked = s.tracked := by
  simp only [State.held, State.setSeq_tracked, State.setFld_tracked]
@[simp] theorem State.held_biSent (c : Nat) : (s.held c).biSent = s.biSent := by
  simp only [State.held, State.setSeq_biSent, State.setFld_biSent]
@[simp] theorem State.held_biWant (c : Nat) : (s.held c).biWant = s.biWant := by
  simp only [State.held, State.setSeq_biWant, State.setFld_biWant]
@[simp] theorem State.held_reqs (c : Nat) : (s.held c).reqs = s.reqs := by
  simp only [State.held, State.setSeq_reqs, State.setFld_reqs]
@[simp] theorem State.held_notices (c : Nat) : (s.held c).notices = s.notices := by
  simp only [State.held, State.setSeq_notices, State.setFld_notices]
@[simp] theorem State.held_queues (c : Nat) : (s.held c).queues = s.queues := by
  simp only [State.held, State.setSeq_queues, State.setFld_queues]
@[simp] theorem State.held_host (c : Nat) : (s.held c).host = s.host := by
  simp only [State.held, State.setSeq_host, State.setFld_host]
@[simp] theorem State.held_binds (c : Nat) : (s.held c).binds = s.binds := by
  simp only [State.held, State.setSeq_binds, State.setFld_binds]
@[simp] theorem State.held_blk (c : Nat) : (s.held c).blk = s.blk := by
  simp only [State.held, State.setSeq_blk, State.setFld_blk]
@[simp] theorem State.held_inst (c : Nat) : (s.held c).inst = s.inst := by
  simp only [State.held, State.setSeq_inst, State.setFld_inst]
@[simp] theorem State.held_faults (c : Nat) : (s.held c).faults = s.faults := by
  simp only [State.held, State.setSeq_faults, State.setFld_faults]
@[simp] theorem State.held_sec (c : Nat) : (s.held c).sec = s.sec := by
  simp only [State.held, State.setSeq_sec, State.setFld_sec]

end Sys2Proof.Machine
end

