-- ==== Sys2Proof/Laws/Issue.lean ====
section
/-! SUPPORT. What an instruction boundary does when the instruction can issue: the spec of `issueOr`, `issue` and
`State.issued`, and the opcode of a code word. -/

namespace Sys2Proof.Machine

variable {s t : State} {c : Nat} {w : DWord} {next : Int}

/-! ## Opcodes -/

theorem extract_low {n : Nat} (x : BitVec n) (v : Byte) : (x ++ v).extractLsb' 0 8 = v := by
  refine BitVec.eq_of_getLsbD_eq fun i hi => ?_
  simp [BitVec.getLsbD_append, hi]

@[simp] theorem RFmt.word_opcode (opc : Byte) (f : RFmt) : (f.word opc).extractLsb' 0 8 = opc := by
  exact extract_low _ _
@[simp] theorem BFmt.word_opcode (opc : Byte) (f : BFmt) : (f.word opc).extractLsb' 0 8 = opc := by
  exact extract_low _ _
@[simp] theorem UFmt.word_opcode (opc : Byte) (f : UFmt) : (f.word opc).extractLsb' 0 8 = opc := by
  exact extract_low _ _
@[simp] theorem MFmt.word_opcode (opc : Byte) (f : MFmt) : (f.word opc).extractLsb' 0 8 = opc := by
  exact extract_low _ _
@[simp] theorem CFmt.word_opcode (opc : Byte) (f : CFmt) : (f.word opc).extractLsb' 0 8 = opc := by
  exact extract_low _ _

/-- Whether a word's opcode is in the map depends on its low 8 bits alone. -/
theorem opcodeDefined_eq {w : DWord} {v : Byte} (h : w.extractLsb' 0 8 = v) (hv : opcodeDefined (v.setWidth 64) = true) :
    opcodeDefined w = true := by
  have e : (w.extractLsb' 0 8).toNat = ((v.setWidth 64 : DWord).extractLsb' 0 8).toNat := by
    rw [h]; congr 1
    refine BitVec.eq_of_getLsbD_eq fun i hi => ?_
    simp [hi, show i < 64 by omega]
  unfold opcodeDefined decodeCode at *
  rw [e]
  revert hv
  generalize ((v.setWidth 64 : DWord).extractLsb' 0 8).toNat = n
  split <;> simp

/-! ## The boundary -/

theorem State.fetched_clean (s : State) (c : Nat) (h : s.codeMark c (s.pc c) = .clean) : s.fetched c = s := by
  unfold State.fetched; rw [h]

/-- An instruction that is ready, allowed, whose token is free or joined and whose checks pass issues, unless a full queue
holds it. -/
theorem issueOr_ready (i : Insn) (seen hold eff : State → State) (hr : s.Ready i.core i.word i.next)
    (hd : opcodeDefined i.word = true) (hi : i.illegal = false)
    (ht : (i.tok.isSome && s.tok i.core (i.tok.getD 0) == tokPending && !i.join) = false) (hc : i.check = none) :
    issueOr i seen hold eff s = if i.full then hold s else eff (s.issued i.core i.next) := by
  have h1 : (s.latePending i.core && !s.inHandler i.core) = false := by
    rcases hr.late with h | h <;> simp [h]
  have h2 : s.codeBad i.core = false := by unfold State.codeBad; rw [hr.clean]
  have h3 := State.fetched_clean s i.core hr.clean
  unfold issueOr
  simp only [hr.boundary, h1, hr.here, h2, hr.word, hd, hr.there, hi, hc, h3, ne_eq, not_true_eq_false, Bool.not_true,
    Bool.false_eq_true, if_false]
  rw [if_neg (by simpa using ht)]

/-- An instruction that is ready and allowed raises the first operand check that fails (R268). -/
theorem issueOr_check (i : Insn) (seen hold eff : State → State) (x : Cause) (hr : s.Ready i.core i.word i.next)
    (hd : opcodeDefined i.word = true) (hi : i.illegal = false)
    (ht : (i.tok.isSome && s.tok i.core (i.tok.getD 0) == tokPending && !i.join) = false) (hc : i.check = some x) :
    issueOr i seen hold eff s = (seen s).raise i.core x (s.pc i.core) (i.tok.getD 0) 0 := by
  have h1 : (s.latePending i.core && !s.inHandler i.core) = false := by
    rcases hr.late with h | h <;> simp [h]
  have h2 : s.codeBad i.core = false := by unfold State.codeBad; rw [hr.clean]
  have h3 := State.fetched_clean s i.core hr.clean
  unfold issueOr
  simp only [hr.boundary, h1, hr.here, h2, hr.word, hd, hr.there, hi, hc, h3, ne_eq, not_true_eq_false, Bool.not_true,
    Bool.false_eq_true, if_false]
  rw [if_neg (by simpa using ht)]

/-! ## What an issue leaves -/

theorem State.inCode_bound (h : s.inCode c next = true) : 0 ≤ next ∧ next < 32768 := by
  unfold State.inCode at h
  simp only [Bool.and_eq_true, decide_eq_true_eq] at h
  have := Fld.get_lt Fl.SEQ_CODE_LIM_HI (s.rd (Reg.SEQ_CODE_LIM c))
  simp only [State.fld] at h
  simp only [Fl.SEQ_CODE_LIM_HI] at this h
  omega

theorem State.rd_issued (s : State) (c : Nat) (next : Int) (o : Nat) (h : o ∉ issueRegs c) :
    (s.issued c next).rd o = s.rd o := by
  simp only [issueRegs, List.mem_cons, List.not_mem_nil, or_false, not_or] at h
  simp only [State.issued, State.setSeq, State.setPc, State.count, State.rd_setFld, State.rd_wr, h.1, h.2.1, h.2.2,
    if_false]

theorem State.issued_spec (h : s.inCode c next = true) : Issued s (s.issued c next) c next := by
  have hb := State.inCode_bound h
  refine ⟨?_, ?_, ?_⟩
  · simp only [State.pc, State.fld, State.issued, State.setSeq, State.setPc, State.count, State.rd_setFld, State.rd_wr,
      Reg.SEQ_PC, Reg.SEQ_STAT, Reg.SEQ_ISSUED]
    simp only [show ¬ (coreWin c + 0x1008 = coreWin c + 0x1004) by omega, if_false, if_true,
      Fld.get_set Fl.SEQ_PC_PC _ _ (by decide)]
    simp only [Fl.SEQ_PC_PC]
    omega
  · simp only [State.issued, State.setSeq, State.setPc, State.count, State.rd_setFld, State.rd_wr, Reg.SEQ_PC,
      Reg.SEQ_STAT, Reg.SEQ_ISSUED]
    simp
  · simp only [State.issued, State.setSeq, State.setPc, State.count, State.rd_setFld, State.rd_wr, Reg.SEQ_PC,
      Reg.SEQ_STAT, Reg.SEQ_ISSUED]
    simp

theorem OnlyRegs.refl (s : State) : OnlyRegs s s := rfl
theorem OnlyRegs.wr (h : OnlyRegs s t) (o : Nat) (v : DWord) : OnlyRegs s (t.wr o v) := by
  unfold OnlyRegs at *
  rw [h]
  rfl
theorem OnlyRegs.setFld (h : OnlyRegs s t) (o : Nat) (f : Fld) (x : Nat) : OnlyRegs s (t.setFld o f x) := h.wr _ _
theorem OnlyRegs.setG (h : OnlyRegs s t) (c n : Nat) (v : DWord) : OnlyRegs s (t.setG c n v) := by
  unfold State.setG
  split
  · exact h
  · exact h.wr _ _
theorem State.issued_onlyRegs (s : State) (c : Nat) (next : Int) : OnlyRegs s (s.issued c next) := by
  exact (((OnlyRegs.refl s).wr _ _).wr _ _).wr _ _ |>.wr _ _

/-! ## Instructions that write one general register -/

theorem State.rd_setG (s : State) (c n : Nat) (v : DWord) (o : Nat) (h : n = 0 ∨ o ≠ Reg.SEQ_G c n) : (s.setG c n v).rd o = s.rd o := by
  unfold State.setG
  split
  · rfl
  · rcases h with h | h
    · contradiction
    · rw [State.rd_wr_other _ _ _ _ h]

theorem State.g_setG (s : State) (c n : Nat) (v : DWord) : (s.setG c n v).g c n = if n = 0 then 0 else v := by
  unfold State.setG State.g
  split <;> simp

theorem Issued.setG {s t : State} {c : Nat} {next : Int} (h : Issued s t c next) (n : Nat) (v : DWord) : Issued s (t.setG c n v) c next := by
  have e : ∀ o, o < coreWin c + 0x1100 → (t.setG c n v).rd o = t.rd o := by
    intro o ho
    refine State.rd_setG _ _ _ _ _ (Or.inr ?_)
    unfold Reg.SEQ_G; omega
  refine ⟨?_, ?_, ?_⟩
  · have := h.pc
    unfold State.pc State.fld at *
    rwa [e _ (by unfold Reg.SEQ_PC; omega)]
  · rw [e _ (by unfold Reg.SEQ_ISSUED; omega)]; exact h.count
  · rw [e _ (by unfold Reg.SEQ_STAT; omega)]; exact h.stat

theorem OnlyRegs.pantry {s t : State} (h : OnlyRegs s t) : PantryKept s t := by
  intro d o; rw [h]; rfl

/-- An instruction that issues and writes one general register. -/
theorem writesG_of_issue (i : Instr) (s : State) (c : Nat) (w : DWord) (gd : Nat) (v : DWord)
    (hx : exec i s = .next (issue ⟨c, w, s.pcNext c, false, none, false, none, false⟩ id (fun t => t.setG c gd v) s))
    (hd : opcodeDefined w = true) : WritesG i s c w gd v := by
  intro hr
  refine ⟨_, hx, ?_⟩
  unfold issue
  rw [issueOr_ready _ _ _ _ hr hd rfl rfl rfl]
  refine ⟨Issued.setG (State.issued_spec hr.there) _ _, State.g_setG _ _ _ _, ?_, OnlyRegs.pantry ((State.issued_onlyRegs _ _ _).setG _ _ _), (State.issued_onlyRegs _ _ _).setG _ _ _⟩
  intro o ho
  split at ho
  · rename_i h
    simp only [Bool.false_eq_true, if_false]
    rw [State.rd_setG _ _ _ _ _ (Or.inl h), State.rd_issued _ _ _ _ ho]
  · simp only [List.mem_cons, not_or] at ho
    simp only [Bool.false_eq_true, if_false]
    rw [State.rd_setG _ _ _ _ _ (Or.inr ho.1), State.rd_issued _ _ _ _ ho.2]

theorem RFmt.bad_zero (f : RFmt) (h : f.resv = 0) : f.bad = false := by simp [RFmt.bad, h]
theorem State.aluB_eq (s : State) (c : Nat) (f : RFmt) : s.aluB c f = BitVec.ofInt 64 ((s.g c f.gb.val).toInt + f.imm.toInt) := by
  unfold State.aluB sext32
  rw [BitVec.ofInt_add]; simp [BitVec.signExtend]
theorem RFmt.word_defined (f : RFmt) (opc : Byte) (h : opcodeDefined (opc.setWidth 64) = true) : opcodeDefined (f.word opc) = true :=
  opcodeDefined_eq (RFmt.word_opcode opc f) h
theorem BFmt.word_defined (f : BFmt) (opc : Byte) (h : opcodeDefined (opc.setWidth 64) = true) : opcodeDefined (f.word opc) = true :=
  opcodeDefined_eq (BFmt.word_opcode opc f) h

theorem UFmt.word_defined (f : UFmt) (opc : Byte) (h : opcodeDefined (opc.setWidth 64) = true) :
    opcodeDefined (f.word opc) = true := opcodeDefined_eq (UFmt.word_opcode opc f) h
theorem MFmt.word_defined (f : MFmt) (opc : Byte) (h : opcodeDefined (opc.setWidth 64) = true) :
    opcodeDefined (f.word opc) = true := opcodeDefined_eq (MFmt.word_opcode opc f) h
theorem CFmt.word_defined (f : CFmt) (opc : Byte) (h : opcodeDefined (opc.setWidth 64) = true) :
    opcodeDefined (f.word opc) = true := opcodeDefined_eq (CFmt.word_opcode opc f) h

end Sys2Proof.Machine
end

