-- ==== Sys2Proof/Laws/Exceptions.lean ====
section
/-! SUPPORT. What taking an exception does (R270): the spec of `State.raise` with the handler enabled and not running, and what
it does otherwise. -/

namespace Sys2Proof.Machine

variable {s : State} {c : Nat}

theorem seq_ne (c : Nat) : Reg.SEQ_EXC c ≠ Reg.SEQ_STAT c ∧ Reg.SEQ_EPC c ≠ Reg.SEQ_STAT c ∧ Reg.SEQ_PC c ≠ Reg.SEQ_STAT c ∧
    Reg.SEQ_HANDLER c ≠ Reg.SEQ_STAT c ∧ Reg.SEQ_EPC c ≠ Reg.SEQ_EXC c ∧ Reg.SEQ_PC c ≠ Reg.SEQ_EXC c ∧
    Reg.SEQ_HANDLER c ≠ Reg.SEQ_EXC c ∧ Reg.SEQ_PC c ≠ Reg.SEQ_EPC c ∧ Reg.SEQ_HANDLER c ≠ Reg.SEQ_EPC c ∧
    Reg.SEQ_HANDLER c ≠ Reg.SEQ_PC c := by
  simp only [Reg.SEQ_EXC, Reg.SEQ_STAT, Reg.SEQ_EPC, Reg.SEQ_PC, Reg.SEQ_HANDLER, ne_eq]
  omega

@[simp] theorem State.rd_dropTwait (s : State) (c o : Nat) : (s.dropTwait c).rd o = s.rd o := rfl

/-- With the handler enabled and not running, the exception enters it. -/
theorem State.raise_entered (x : Cause) (epc tok win : Nat) (he : s.flag (Reg.SEQ_HANDLER c) Fl.SEQ_HANDLER_EN = true)
    (hi : s.inHandler c = false) (hp : epc < 32768) : Entered s (s.raise c x epc tok win) c x epc tok win := by
  obtain ⟨h1, h2, h3, h4, h5, h6, h7, h8, h9, h10⟩ := seq_ne c
  have e1 : (((s.dropTwait c).setFld (Reg.SEQ_STAT c) Fl.SEQ_STAT_HELD 0).wr (Reg.SEQ_EXC c) (excWord x tok win)).inHandler c =
      false := by
    rw [← hi]
    simp only [State.inHandler, State.flag, State.fld, State.rd_wr, State.rd_setFld, h1.symm, if_false, if_true,
      State.rd_dropTwait]
    rw [Fld.get_set_apart Fl.SEQ_STAT_HELD Fl.SEQ_STAT_IN_HANDLER _ _ (by decide) (by decide) (by decide)]
  have e2 : ((((s.dropTwait c).setFld (Reg.SEQ_STAT c) Fl.SEQ_STAT_HELD 0).wr (Reg.SEQ_EXC c) (excWord x tok win)).setFld
      (Reg.SEQ_EPC c) Fl.SEQ_EPC_PC epc).flag (Reg.SEQ_HANDLER c) Fl.SEQ_HANDLER_EN = true := by
    rw [← he]
    simp only [State.flag, State.fld, State.rd_wr, State.rd_setFld, h4, h7, h9, if_false, State.rd_dropTwait]
  unfold State.raise
  simp only [e1, e2, if_true, Bool.false_eq_true, if_false]
  refine ⟨?_, ?_, ?_, ?_, ?_, ?_⟩
  · simp only [State.fld, State.setSeq, State.setPc, State.rd_setFld, h2, h8.symm, if_false, if_true]
    rw [Fld.get_set _ _ _ (by decide)]
    simp only [Fl.SEQ_EPC_PC]; omega
  · simp only [State.setSeq, State.setPc, State.rd_setFld, State.rd_wr, h1, h6.symm, h5.symm, if_false, if_true]
  · simp only [State.pc, State.fld, State.setSeq, State.setPc, State.rd_setFld, State.rd_wr, h3, h4, h7, h9, if_false,
      if_true, State.rd_dropTwait]
    rw [Fld.get_set _ _ _ (by decide)]
    exact Nat.mod_eq_of_lt (Fld.get_lt _ _)
  · simp only [State.seq, State.setSeq, State.fld, State.rd_setFld, if_true]
    rw [Fld.get_set _ _ _ (by decide)]
    rfl
  · simp only [State.inHandler, State.flag, State.setSeq, State.setPc, State.fld, State.rd_setFld, h3.symm, if_true, if_false]
    rw [Fld.get_set_apart Fl.SEQ_STAT_STATE Fl.SEQ_STAT_IN_HANDLER _ _ (by decide) (by decide) (by decide),
      Fld.get_set _ _ _ (by decide)]
    rfl
  · intro o ho
    simp only [List.mem_cons, List.not_mem_nil, or_false, not_or] at ho
    simp only [State.setSeq, State.setPc, State.rd_setFld, State.rd_wr, ho.1, ho.2.1, ho.2.2.1, ho.2.2.2, if_false,
      State.rd_dropTwait]

/-! ## What else an exception leaves -/

theorem State.faultRelease_pantry (s : State) (c : Nat) : (s.faultRelease c).pantry = s.pantry := by
  unfold State.faultRelease State.zeroClaim
  split <;> simp
theorem State.raise_pantry (s : State) (c : Nat) (x : Cause) (epc tok win : Nat) :
    (s.raise c x epc tok win).pantry = s.pantry := by
  suffices ∀ u, u = s.raise c x epc tok win → u.pantry = s.pantry from this _ rfl
  intro u hu
  unfold State.raise at hu
  simp only at hu
  split at hu
  · rw [hu]; simp [State.faultRelease_pantry]
  · split at hu <;> rw [hu] <;> simp [State.faultRelease_pantry]

/-- An exception changes no Pantry byte. -/
theorem State.raise_keeps_pantry (s : State) (c : Nat) (x : Cause) (epc tok win : Nat) :
    PantryKept s (s.raise c x epc tok win) := by
  intro d o
  unfold State.byte
  rw [State.raise_pantry]

end Sys2Proof.Machine
end

