-- ==== Sys2Proof/Laws/Lines.lean ====
section
/-! SUPPORT. What a command that may need lines of the host does (R558), and what a rewrite of routes leaves in force
(R415): the specs of `State.wantLines`, `State.settle` and `State.rewrite`. -/

namespace Sys2Proof.Machine

variable {s t : State}

/-- With nothing tracked no line is wanted. -/
theorem State.wantLines_untracked (h : s.tracked = []) (c off n : Nat) (read : Bool) : s.wantLines c off n read = s := by
  simp [State.wantLines, h]

/-- A command that wants no line takes its whole effect. -/
theorem State.settle_done (h : t.biWant = []) : s.settle t = t := by simp [State.settle, h]

/-- One that wants lines asks for those not asked for yet, counts them, and changes nothing else. -/
theorem State.settle_waits (h : t.biWant ≠ []) :
    s.settle t = ({ s with biSent := s.biSent ++ (t.biWant.filter fun l => !s.biSent.contains l).eraseDups }).count Reg.HIF_BISNP
      (t.biWant.filter fun l => !s.biSent.contains l).eraseDups.length := by
  have : t.biWant.isEmpty = false := by simpa using h
  simp only [State.settle, this, Bool.false_eq_true, if_false]

/-- A rewrite draws once and puts in force either the entries as they were, or those kept with the new ones, which are lawful. -/
theorem State.rewrite_cases (chan : Route → Bool) (new : List Route) :
    s.rewrite chan new = s.drew ∨ ∃ rs written, s.rewrite chan new = { s.drew with routes := rs } ∧
      s.lawful written rs = true ∧ rs = (s.routes.filter fun r => r.prompt || !chan r || !written.contains r.router) ++ new := by
  by_cases h : s.lawful (new.map fun r => r.router).eraseDups ((s.routes.filter fun r =>
      r.prompt || !chan r || !((new.map fun r => r.router).eraseDups).contains r.router) ++ new) = true
  · exact .inr ⟨_, _, by simp only [State.rewrite, h, if_true], h, rfl⟩
  · exact .inl (by simp only [State.rewrite, h, if_false, Bool.false_eq_true])

/-- No entry that a lawful list holds for the mesh turns against another of it (R413). -/
theorem State.lawful_turns {written : List Nat} {rs : List Route} (h : s.lawful written rs = true) {a r : Route}
    (ha : a ∈ rs) (hr : r ∈ rs) (ma : a.prompt = false) (mr : r.prompt = false) : a.badInto s.module r = false := by
  simp only [State.lawful, Bool.and_eq_true, List.all_eq_true] at h
  obtain ⟨i, hi, e⟩ := List.mem_iff_getElem.mp (show r ∈ rs.filter fun r => !r.prompt from List.mem_filter.mpr ⟨hr, by simp [mr]⟩)
  have k := h.1 (r, i) (List.mem_iff_getElem.mpr ⟨i, by simpa using hi, by simp [e]⟩)
  simp only [Bool.and_eq_true, Bool.not_eq_true', List.any_eq_false] at k
  have := k.1.2 a (List.mem_filter.mpr ⟨ha, by simp [ma]⟩)
  simpa using this

end Sys2Proof.Machine
end

