-- ==== Sys2Proof/WellFormed.lean ====
section
/-! DEFINITION. Which commands the world outside can give: the sizes that the interfaces fix for their operands. Every other
limit of an operand is in its type. -/

namespace Sys2Proof

/-- `n` bytes. -/
def bytesOk (n : Nat) (bs : List Byte) : Bool := bs.length == n
/-- `n` bytes, where a read answered. -/
def optOk (n : Nat) : Option (List Byte) → Bool
  | none => true
  | some bs => bytesOk n bs
/-- A flit of 256 bytes (R430). -/
def flitOk (bs : List Byte) : Bool := bytesOk 256 bs
/-- The address of a 64-byte line (R556). -/
def lineOk (a : DWord) : Bool := a.toNat % 64 == 0
/-- The size of a bus access in bytes. -/
def widthOk (n : Nat) : Bool := n == 1 || n == 2 || n == 4 || n == 8

/-- Whether a command is well formed. -/
def Instr.wellFormed : Instr → Bool
  | .add _ _ => true
  | .sub _ _ => true
  | .mul _ _ => true
  | .and _ _ => true
  | .or _ _ => true
  | .xor _ _ => true
  | .shl _ _ => true
  | .shr _ _ => true
  | .sra _ _ => true
  | .min _ _ => true
  | .max _ _ => true
  | .slt _ _ => true
  | .sltu _ _ => true
  | .lih _ _ => true
  | .ld _ _ => true
  | .ldw _ _ => true
  | .st _ _ => true
  | .stw _ _ => true
  | .seta _ _ => true
  | .geta _ _ => true
  | .rdc _ _ => true
  | .tst _ _ => true
  | .beq _ _ => true
  | .bne _ _ => true
  | .blt _ _ => true
  | .bge _ _ => true
  | .bltu _ _ => true
  | .bgeu _ _ => true
  | .jmp _ _ => true
  | .call _ _ => true
  | .jr _ _ => true
  | .retx _ _ => true
  | .halt _ _ => true
  | .nop _ _ => true
  | .brk _ _ => true
  | .latePut _ => true
  | .twait _ _ => true
  | .twaitComplete _ => true
  | .sleepEntry _ => true
  | .coreWakeDone _ => true
  | .engLoad _ _ => true
  | .engRun _ _ => true
  | .engDrain _ _ => true
  | .engMode _ _ => true
  | .engRunComplete _ _ => true
  | .engDrainComplete _ _ => true
  | .rackFire _ _ => true
  | .rackRev _ _ => true
  | .rackTest _ _ => true
  | .rackFree _ _ => true
  | .fireStaging _ => true
  | .fireIssue _ _ => true
  | .zeroSkipDeliver _ _ => true
  | .offlineFire _ _ => true
  | .binEvalDeliver _ _ => true
  | .reverseReadDeliver _ _ => true
  | .fireCopyDone _ _ => true
  | .quietSlotPattern _ _ _ => true
  | .testPeriodExpire _ _ => true
  | .statWindowEnd _ _ => true
  | .actTestRun _ _ => true
  | .recalComplete _ _ => true
  | .refreshQueueCheck => true
  | .refreshGo _ => true
  | .refreshComplete _ _ => true
  | .labelWriteBack _ _ => true
  | .vecElem _ _ => true
  | .vecReduce _ _ => true
  | .vecRmsnorm _ _ => true
  | .vecSoftmax _ _ => true
  | .vecAct _ _ => true
  | .vecRope _ _ => true
  | .vecQuant _ _ => true
  | .vecDequant _ _ => true
  | .vecTopk _ _ => true
  | .vecSample _ _ => true
  | .vecOpComplete _ => true
  | .winOpen _ _ => true
  | .winClose _ _ => true
  | .winDrain _ _ => true
  | .winWait _ _ => true
  | .winCloseDone _ _ => true
  | .winDrainExpire _ _ => true
  | .winWaitTimeout _ _ => true
  | .forceClose _ _ _ => true
  | .put _ _ => true
  | .get _ _ => true
  | .putAcceptanceCheck _ => true
  | .putWriteDone _ => true
  | .getServe _ => true
  | .netCompletion _ => true
  | .netTimeout _ => true
  | .kvAppend _ _ => true
  | .kvAppendComplete _ _ => true
  | .kvCommit _ _ => true
  | .kvRollback _ _ => true
  | .kvMap _ _ => true
  | .kvDigest _ _ => true
  | .loftFetchComplete _ _ _ => true
  | .spillWriteComplete _ _ => true
  | .nodeRetireFree _ _ => true
  | .treeMask _ _ => true
  | .claim _ _ => true
  | .release _ _ => true
  | .claimGrant _ => true
  | .cue _ _ => true
  | .signal _ _ => true
  | .wait _ _ => true
  | .heavyReservationExpire _ => true
  | .seqStart _ => true
  | .seqResume _ => true
  | .seqHalt _ => true
  | .seqCodeData _ _ => true
  | .coreScrub _ _ => true
  | .scrubComplete _ => true
  | .borrow _ _ => true
  | .borrowEnd _ _ => true
  | .borrowReady _ => true
  | .recDataLatch _ => true
  | .captureArm _ _ => true
  | .satCountClear _ _ => true
  | .nrmCommit _ _ => true
  | .chkCommit _ _ => true
  | .srvKvCommit _ _ => true
  | .treeCommit _ _ => true
  | .winCommit _ _ _ => true
  | .lowHalfRead _ => true
  | .recordLatchRead _ => true
  | .registerWrite _ width _ => widthOk width
  | .instGo _ => true
  | .instAbort _ => true
  | .installCheckDone _ => true
  | .chunkCrcFail _ _ => true
  | .firstPassDone _ _ _ _ => true
  | .settleExpire _ _ => true
  | .touchUpDone _ _ _ => true
  | .hvFault => true
  | .feedLoss _ => true
  | .feedReturn _ => true
  | .bothFeedsLost => true
  | .auxFeedLoss => true
  | .presentNOpen _ => true
  | .feedConnect _ => true
  | .converterFail _ => true
  | .regulatorFail _ _ => true
  | .segmentTrip _ => true
  | .shortClr _ _ => true
  | .curtainUp _ => true
  | .curtainDown _ => true
  | .inrushSlotGrant _ => true
  | .inrushTimeout _ => true
  | .regionRun _ => true
  | .bringupTimeout _ => true
  | .regionSwitchOpen _ => true
  | .retainEntry _ => true
  | .stgWake _ _ => true
  | .darkEntry _ => true
  | .droopLevel _ _ => true
  | .droopStepDown _ => true
  | .telemetrySample _ => true
  | .scanComplete _ _ => true
  | .regionSkipReview _ => true
  | .inputLimit => true
  | .phase _ => true
  | .lkCtl _ => true
  | .slackReport => true
  | .slackRanking => true
  | .slackGrant => true
  | .shiftLapse => true
  | .trayFrame _ => true
  | .traySilence => true
  | .flowStop => true
  | .flowRestore => true
  | .stopDarkExpire => true
  | .flowDarkStep => true
  | .hardwareTrip _ => true
  | .tripClr _ => true
  | .suspectClr _ => true
  | .meshRoute _ => true
  | .fmapMark _ => true
  | .fmapUnmark _ => true
  | .routeRewrite => true
  | .meshLinkBad _ _ => true
  | .pnCue _ => true
  | .pnSignal _ => true
  | .signalAck _ => true
  | .winNotice _ => true
  | .pnKvCommit _ => true
  | .pnKvRollback _ => true
  | .kvAck _ => true
  | .heartbeatCheck _ => true
  | .heartbeat _ => true
  | .fault _ => true
  | .regRead _ width => widthOk width
  | .regWrite _ width _ => widthOk width
  | .regResp _ => true
  | .commitNotice _ => true
  | .deadline _ => true
  | .partBeat _ => true
  | .partAck _ => true
  | .partBeatTimer _ => true
  | .partitionFreeze _ => true
  | .partitionResume _ => true
  | .splitGo _ => true
  | .mgmtFrame _ => true
  | .mgmtRetry => true
  | .mgmtBreak => true
  | .stagehandSafe _ => true
  | .flitData _ flit => flitOk flit
  | .flitPrompt _ flit => flitOk flit
  | .flitSlack _ flit => flitOk flit
  | .flitIdle _ flit => flitOk flit
  | .flitLink _ flit => flitOk flit
  | .idleFlitTimer _ => true
  | .ackTimer _ => true
  | .portSilence _ => true
  | .retrainTimer _ => true
  | .trainingComplete _ => true
  | .portEnable _ => true
  | .portDisable _ => true
  | .retrain _ => true
  | .create _ desc _ => optOk 64 desc
  | .generate _ desc _ _ => optOk 64 desc
  | .adapt _ desc _ _ => optOk 64 desc
  | .park _ desc => optOk 64 desc
  | .resume _ desc _ => optOk 64 desc
  | .delete _ desc => optOk 64 desc
  | .passAdmission _ => true
  | .parkComplete _ _ => true
  | .resumeComplete _ _ => true
  | .deadlineTimer => true
  | .tenRefill _ _ => true
  | .rebindGo _ => true
  | .rebindProceed => true
  | .loadGo _ => true
  | .loadFetchComplete _ _ => true
  | .loadWriteComplete => true
  | .partitionDigest _ _ _ => true
  | .unload _ => true
  | .unloadComplete => true
  | .perstAssert => true
  | .perstDeassert => true
  | .linkUp _ _ _ _ _ _ => true
  | .linkLost => true
  | .queueEnable _ => true
  | .queueEntryFetched _ entry => optOk 64 entry
  | .queueDisable _ => true
  | .queueDrained _ => true
  | .sqTail _ _ => true
  | .cqHead _ _ => true
  | .completionWrite _ _ => true
  | .interruptCoalesce _ => true
  | .readTimeout => true
  | .apertureRead a _ => lineOk a
  | .apertureWrite a data _ => lineOk a && bytesOk 64 data
  | .hdmDecoderCommit _ _ _ => true
  | .getVersion _ => true
  | .getCapabilities _ => true
  | .negotiateAlgorithms _ _ => true
  | .getDigests _ => true
  | .getCertificate _ _ _ _ => true
  | .challenge _ _ nonce => bytesOk 32 nonce
  | .getMeasurements _ _ nonce => bytesOk 32 nonce
  | .keyExchange _ _ => true
  | .finish _ _ => true
  | .keyUpdate _ => true
  | .endSession _ => true
  | .coreDead _ => true
  | .pipeStall _ => true
  | .replaceMovingDone _ => true
  | .hostDone _ => true
  | .hostMsTimeout => true
  | .restoreComplete _ => true
  | .failCtlPark _ => true
  | .fatalFault _ => true
  | .dumpTrigger _ => true
  | .dumpComplete _ => true
  | .dumpCopy _ => true
  | .retainClr _ => true
  | .coldStart _ _ => true
  | .firmwareVerified _ => true
  | .firmwareStart _ => true
  | .fwReady => true
  | .resetNAssert => true
  | .resetNDeassert _ _ => true
  | .fwStage _ => true
  | .fwStageComplete _ _ => true
  | .fwActivate _ => true
  | .commitSvn _ => true
  | .revoke _ => true
  | .mgmtBusIndex _ => true
  | .mgmtBusRead => true
  | .waitTimeout _ _ => true
  | .inrushEnd _ => true
  | .engLoadComplete _ _ => true
  | .cacheEnable => true
  | .hostSnoop _ => true
  | .backInvalidateResponse _ data => optOk 64 data
  | .legacyFeedTimeout => true

end Sys2Proof
end

