-- ==== Sys2Proof/Tests/Slice0.lean ====
section
/-! SUPPORT. The model's own tests: an ill-formed command for each check of WellFormed, and for each statement of the
certificates a state and operands that meet its hypotheses, at boundary values of their ranges. -/

namespace Sys2Proof.Tests

set_option autoImplicit false
set_option Elab.async false
set_option maxRecDepth 100000
set_option linter.unusedTactic false
set_option linter.unreachableTactic false

open Machine

/-! ## An ill-formed command for each check of WellFormed -/

theorem test_wf_flit : (Instr.flitData 0 []).wellFormed = false := by decide
theorem test_wf_line : (Instr.apertureRead 1 0).wellFormed = false := by decide
theorem test_wf_line_data : (Instr.apertureWrite 64 [0] 1).wellFormed = false := by decide
theorem test_wf_line_write : (Instr.apertureWrite 8 (List.replicate 64 0) 1).wellFormed = false := by decide
theorem test_wf_back_invalidate : (Instr.backInvalidateResponse 0 (some [])).wellFormed = false := by decide
theorem test_wf_queue_entry : (Instr.queueEntryFetched 0 (some [1])).wellFormed = false := by decide
theorem test_wf_descriptor : (Instr.delete 0 (some [2])).wellFormed = false := by decide
theorem test_wf_nonce : (Instr.challenge [] 0 []).wellFormed = false := by decide
theorem test_wf_width : (Instr.regRead 0 3).wellFormed = false := by decide
theorem test_wf_width_zero : (Instr.registerWrite 0 0 0).wellFormed = false := by decide
theorem test_wf_good : (Instr.regRead 0 4).wellFormed = true := by decide

/-! ## Helpers -/

/-- Core `c` of a state in Run, its sequencer issuing at instruction 5, which is `w`, within limits 0 to 100. -/
def at5 (c : Nat) (w : DWord) (s : State) : State :=
  ((((s.setSleep c 0).setSeq c seqRun).setPc c 5).wr (Reg.SEQ_CODE_LIM c) (0x640000)).setCode c 5 w
/-- A handler of core `c` at instruction 80. -/
def handled (c : Nat) (s : State) : State :=
  (s.setFld (Reg.SEQ_HANDLER c) Fl.SEQ_HANDLER_PC 80).setFld (Reg.SEQ_HANDLER c) Fl.SEQ_HANDLER_EN 1
def rf (gd ga gb : GReg) (imm : Word) : RFmt := ⟨gd, ga, gb, 0, imm⟩
def bf (ga gb : GReg) (ofs : Word) : BFmt := ⟨0, ga, gb, 0, ofs⟩
def cf (tok : TokId) (win : WinId) (ga gd : GReg) (imm : Word) : CFmt := ⟨tok, win, ga, gd, false, 0, imm⟩

/-- The link up in CXL mode, with what the host enables. -/
def linked (mem : Nat) (s : State) : State :=
  ((s.setFld Reg.HIF_STAT Fl.HIF_STAT_LINK_UP 1).setFld Reg.HIF_STAT Fl.HIF_STAT_CXL 1).setFld Reg.HIF_STAT Fl.HIF_STAT_MEM_EN mem
/-- CXL.cache in use too, so that the host answers the module's accesses (R536). -/
def cached (s : State) : State := (linked 0 s).setFld Reg.HIF_STAT Fl.HIF_STAT_CACHE_EN 1

/-! ## Witnesses: scalar, memory, waiting and engine instructions -/

/-- No request is open, no park waits and no KV operation waits to start. -/
theorem no_requests (s : State)
    (h : s.reqs = [] ∧ s.host.parkDue = [] ∧ ∀ o ∈ s.kvOps, o.started = true) : s.noRequests := h
theorem kv_idle (s : State) (h : ∀ o ∈ s.kvOps, o.started = true) : s.kvIdle := h
/-- A scrub is visible in the register of the core that it runs in. -/
theorem no_scrub (s : State) (h : ((List.range 256).all fun c => !s.scrubbing c) = true) : s.noScrub := by
  intro c hc
  have := List.all_eq_true.mp h c (List.mem_range.mpr hc)
  simpa using this
def uf (tok : TokId) (as ad : AReg) (gn : GReg) (fn : Byte) (imm : Word) : UFmt := ⟨tok, as, ad, gn, false, fn, imm⟩

/-! ## A state and operands that meet the hypotheses of each statement -/

theorem witness_alu : let f := rf 1 2 0 (-1); let s := fun w => at5 255 (f.word w) State.reset
    f.resv = 0 ∧ f.gb = 0 ∧ (s 0x01).Ready 255 (f.word 0x01) ((s 0x01).pcNext 255) ∧
      (s 0x0E).Ready 255 (f.word 0x0E) ((s 0x0E).pcNext 255) := by
  and_intros <;> first | decide +kernel | (constructor <;> decide +kernel)

theorem witness_exceptions :
    let b : BFmt := bf 1 2 3
    let f : RFmt := ⟨1, 2, 3, 1, 0⟩
    let s := handled 0 (at5 0 (b.word 0x2C) State.reset)
    let l := { (handled 0 (at5 0 0 State.reset)).setFld (Reg.SEQ_STAT 0) Fl.SEQ_STAT_LATE_PENDING 1 with lateWin := [(0, some 63)] }
    let r := handled 0 (at5 0 (f.word 0x0E) State.reset)
    let n := at5 0 (b.word 0x2C) State.reset
    let i := s.setFld (Reg.SEQ_STAT 0) Fl.SEQ_STAT_IN_HANDLER 1
    (s.flag (Reg.SEQ_HANDLER 0) Fl.SEQ_HANDLER_EN = true ∧ s.inHandler 0 = false ∧ s.Ready 0 (b.word 0x2C) (s.pcNext 0)) ∧
      (l.flag (Reg.SEQ_HANDLER 0) Fl.SEQ_HANDLER_EN = true ∧ l.inHandler 0 = false ∧ l.latePending 0 = true ∧
        sread (fun _ => none) l.lateWin 0 = some 63 ∧ l.sleep 0 = 0 ∧ l.seq 0 = seqRun) ∧
      (f.resv ≠ 0 ∧ r.flag (Reg.SEQ_HANDLER 0) Fl.SEQ_HANDLER_EN = true ∧ r.Ready 0 (f.word 0x0E) (r.pcNext 0)) ∧
      (n.inHandler 0 = false ∧ n.flag (Reg.SEQ_HANDLER 0) Fl.SEQ_HANDLER_EN = false ∧ n.Ready 0 (b.word 0x2C) (n.pcNext 0)) ∧
      i.inHandler 0 = true ∧ i.Ready 0 (b.word 0x2C) (i.pcNext 0) := by
  and_intros <;> first | decide +kernel | (constructor <;> decide +kernel)

theorem witness_register_instructions : let f := fun imm => rf 7 0 0 imm; let s := fun w => at5 3 w State.reset
    let r := fun (imm : Word) (opc : Byte) => (s ((f imm).word opc)).Ready 3 ((f imm).word opc) ((s ((f imm).word opc)).pcNext 3)
    r 9 0x14 ∧ r 0 0x16 ∧ r 1 0x16 ∧ r 2 0x16 ∧ r 3 0x16 ∧ r 15 0x17 ∧ r 0 0x15 := by
  and_intros <;> (constructor <;> decide +kernel)

theorem witness_branches : let f := bf 1 0 (-5); let s := at5 0 (f.word 0x20) State.reset
    let j := at5 0 (f.word 0x26) State.reset
    let x := (at5 0 (f.word 0x29) State.reset).setFld (Reg.SEQ_STAT 0) Fl.SEQ_STAT_IN_HANDLER 1
    let g := at5 0 (f.word 0x2A) State.reset
    let h := handled 0 (g.setFld (Reg.SEQ_CODE_LIM 0) Fl.SEQ_CODE_LIM_HI 5)
    g.Ready 0 (f.word 0x2A) 6 ∧ (h.Ready 0 (f.word 0x2A) (h.pc 0) ∧ h.inCode 0 (h.pcNext 0) = false ∧ h.inHandler 0 = false ∧
      h.flag (Reg.SEQ_HANDLER 0) Fl.SEQ_HANDLER_EN = true) ∧
    s.Ready 0 (f.word 0x20) 0 ∧ s.Ready 0 (f.word 0x20) 6 ∧ j.Ready 0 (f.word 0x26) ((j.pc 0 : Int) + f.ofs.toInt) ∧
      x.inHandler 0 = true ∧ x.Ready 0 (f.word 0x29) (x.fld (Reg.SEQ_EPC 0) Fl.SEQ_EPC_PC) := by
  and_intros <;> first | decide +kernel | (constructor <;> decide +kernel)

theorem witness_loads_and_stores : let f := rf 1 0 2 0x7FFFFF8; let g := rf 1 0 2 0x7FFFFFC
    let s := at5 0 (f.word 0x10) State.reset; let t := at5 0 (g.word 0x13) State.reset
    let b := t.setFld (Reg.CORE_STAT 0) Fl.CORE_STAT_SCRUB_BUSY 1
    s.noHostLines ∧ s.AddrOk 0 f 8 ∧ s.ecc 0 0x7FFFFF8 = .clean ∧ s.Ready 0 (f.word 0x10) (s.pcNext 0) ∧
      (t.AddrOk 0 g 4 ∧ t.ecc 0 0x7FFFFFC = .clean ∧ t.scrubbing 0 = false ∧ t.Ready 0 (g.word 0x13) (t.pcNext 0)) ∧
      (b.AddrOk 0 g 4 ∧ b.scrubbing 0 = true ∧ b.noHostLines ∧ b.Ready 0 (g.word 0x13) (b.pcNext 0)) := by
  and_intros <;> first | decide +kernel | exact ⟨by decide +kernel, by decide +kernel⟩ | (constructor <;> decide +kernel)

theorem witness_access_errors : let f := rf 1 0 2 8; let m := rf 1 0 2 4; let o := rf 1 0 2 0x7FFFFFC
    let s := fun k => (handled 0 (at5 0 (f.word 0x10) State.reset)).setEcc 0 8 k
    let r := fun (g : RFmt) => handled 0 (at5 0 (g.word 0x12) State.reset)
    (s .correctable).noHostLines ∧ (s .correctable).AddrOk 0 f 8 ∧ (s .correctable).ecc 0 8 = .correctable ∧
      (s .correctable).Ready 0 (f.word 0x10) 6 ∧ (s .poisoned).Ready 0 (f.word 0x10) 6 ∧ (s .poisoned).ecc 0 8 = .poisoned ∧
      (r m).Ready 0 (m.word 0x12) 6 ∧ (r m).loadAddr 0 m % 8 ≠ 0 ∧ (r o).Ready 0 (o.word 0x12) 6 ∧
      0x8000000 < (r o).loadAddr 0 o + 8 := by
  and_intros <;> first | decide +kernel | exact ⟨by decide +kernel, by decide +kernel⟩ | (constructor <;> decide +kernel)

theorem witness_twait : let f := cf 0 0 0 4 0x8002; let h := cf 0 0 0 4 0x28002; let b := cf 0 0 0 4 0x40001
    let s := at5 0 (f.word 0x30) State.reset
    let t := handled 0 ((at5 0 (h.word 0x30) State.reset).setTok 0 15 tokDone 3)
    let w := (at5 0 (b.word 0x30) State.reset).setTok 0 0 tokPending 0
    (f.imm.toNat % 65536 ≠ 0 ∧ (∀ k < 16, (f.imm.toNat % 65536).testBit k = true → s.tok 0 k ≠ tokPending) ∧
        f.imm.getLsbD 17 = false ∧ f.imm.toNat / 2 ^ 18 < 3 ∧ s.Ready 0 (f.word 0x30) 6) ∧
      (h.imm.getLsbD 17 = true ∧ (∃ k < 16, (h.imm.toNat % 65536).testBit k = true ∧ t.tok 0 k = tokDone ∧
        t.tokStatus 0 k ≠ stOk) ∧ t.inHandler 0 = false ∧ t.flag (Reg.SEQ_HANDLER 0) Fl.SEQ_HANDLER_EN = true ∧ t.Ready 0 (h.word 0x30) 6) ∧
      (b.imm.getLsbD 16 = false ∧ (∃ k < 16, b.imm.getLsbD k = true ∧ w.tok 0 k = tokPending) ∧ b.imm.toNat / 2 ^ 18 = 1 ∧
        b.imm.getLsbD 17 = false ∧ w.woken 0 ≠ some w.now ∧ w.Ready 0 (b.word 0x30) 6) := by
  and_intros <;> first | decide +kernel | (constructor <;> decide +kernel)

theorem witness_waking :
    let w : Twait := ⟨0, 1, false, false, 4⟩
    let s := { (at5 0 0 State.reset).setSeq 0 seqWait with twaits := [w] }
    let p := { handled 0 (s.setFld (Reg.SEQ_STAT 0) Fl.SEQ_STAT_LATE_PENDING 1) with lateWin := [(0, some 63)] }
    let h := s.setSleep 0 1
    let k := { h with waking := [0] }
    let r := { (at5 0 0 State.reset).setSleep 0 3 with waking := [0] }
    let d := { s.setWant 0 2 with pending := [] }
    let q := ((at5 0 0 State.reset).setSeq 0 seqHalted).setWant 0 3
    let e := { s with fires := [⟨0, 1, .test, [], 1, false, 0, 0, 0, .issued, [], 0, [], [], stOk⟩] }
    (s.twaits.find? (fun t => t.core == 0) = some w ∧ s.waitMet 0 1 false = true ∧ s.sleep 0 = 0 ∧ s.latePending 0 = false ∧
        s.inCode 0 6 = true) ∧
      (p.twaits.find? (fun t => t.core == 0) = some w ∧ p.waitMet 0 1 false = true ∧ p.sleep 0 = 0 ∧ p.latePending 0 = true ∧
        p.inHandler 0 = false ∧ p.flag (Reg.SEQ_HANDLER 0) Fl.SEQ_HANDLER_EN = true ∧
        sread (fun _ => none) p.lateWin 0 = some (63 : WinId).val) ∧
      (h.sleep 0 = 1 ∧ h.waking.contains 0 = false) ∧ (k.sleep 0 = 1 ∧ k.waking.contains 0 = true ∧ k.waitMet 0 1 false = true ∧
        k.latePending 0 = false) ∧
      (r.waking.contains 0 = true ∧ r.sleep 0 = 3) ∧ (d.evalInFlight 0 = false ∧ d.want 0 = 2 ∧ d.twaits ≠ []) ∧
      (q.evalInFlight 0 = false ∧ q.want 0 = 3 ∧ q.seq 0 = seqHalted ∧ q.sleep 0 = 0) ∧ e.evalInFlight 0 = true := by
  and_intros <;> decide +kernel

/-- A core whose engines are all present. -/
def engined (s : State) : State := { s with engBad := [(0, 0)] }
theorem witness_engine_instructions :
    let f := uf 15 0 1 2 0 0x000001; let g := uf 15 0 1 2 0 0x800000
    let s := fun (h : UFmt) (opc : Byte) => engined ((at5 0 (h.word opc) State.reset).setG 0 2 1)
    ((s f 0x40).engineBad 0 (engMask f) = false ∧ (s f 0x40).engFull 0 (engMask f) = false ∧ (s f 0x40).quadrantBad 0 f = false ∧
        (s f 0x40).dropOf 0 = none ∧ (s f 0x40).tok 0 15 ≠ tokPending ∧
        (∀ e ∈ maskList 24 (engMask f), 0 + tileBytes 0 ((s f 0x40).engQuadIssued 0 e) ≤ pantrySize) ∧
        (s f 0x40).Ready 0 (f.word 0x40) 6) ∧
      ((s g 0x41).engineBad 0 (engMask g) = false ∧ maskList 24 (engMask g) = [23] ∧ ((s g 0x41).g 0 2).toNat ≠ 0 ∧
        (∀ e ∈ maskList 24 (engMask g), vecBytes ((s g 0x41).pairIssued 0 e 0) ((s g 0x41).engQuadIssued 0 e) = vecBytes 0 false) ∧
        (∀ e ∈ maskList 24 (engMask g), 0 + tileOuts ((s g 0x41).engQuadIssued 0 e) * 1 ≤ accSize false) ∧
        (s g 0x41).Ready 0 (g.word 0x41) 6) ∧
      ((∀ e ∈ maskList 24 (engMask g), 0 + 1 ≤ accSize ((s g 0x42).engQuadIssued 0 e)) ∧ (s g 0x42).Ready 0 (g.word 0x42) 6) ∧
      (immF g.imm 24 3 = 0 ∧ (s g 0x43).engOps = [] ∧ (s g 0x43).Ready 0 (g.word 0x43) 6) := by
  and_intros <;> first | decide +kernel | (constructor <;> decide +kernel)

theorem witness_engine_completions :
    let o := fun w => (⟨0, 15, 0x800000, 0, w⟩ : EngOp)
    let s := fun w => { (at5 0 0 State.reset).setTok 0 15 tokPending 0 with
      engOps := [o w], tokOps := [(tokKey 0 15, 1)], engActive := [(0, 0xFFFFFF)] }
    let l := s (.load 0 false false 0 0); let r := s (.run 1 0 0 true); let d := s (.drain 1 0 0 1 false)
    l.noHostLines ∧ l.engFront (o (.load 0 false false 0 0)) = true ∧ l.tok 0 15 = tokPending ∧ l.tokCount 0 15 = 1 ∧
      l.tokStatus 0 15 = stOk ∧ l.flag Reg.DUMP_STAT Fl.DUMP_STAT_RETAINED = false ∧
      l.findEng 0 15 EngWork.isLoad = some (o (.load 0 false false 0 0)) ∧ 0x800000 &&& (0xFFFFFF ^^^ l.active 0) = 0 ∧
      r.findEng 0 15 EngWork.isRun = some (o (.run 1 0 0 true)) ∧ r.engFront (o (.run 1 0 0 true)) = true ∧
      d.findEng 0 15 EngWork.isDrain = some (o (.drain 1 0 0 1 false)) ∧ d.scrubbing 0 = false ∧ d.engFront (o (.drain 1 0 0 1 false)) = true := by
  and_intros <;> first | decide +kernel | exact ⟨by decide +kernel, by decide +kernel⟩ | (constructor <;> decide +kernel)

/-! ## Witnesses: the rack interface, the vector unit and windows -/

/-- A core bound to partition 1, whose image gives it a ration. -/
def boundTo (c : Nat) (s : State) : State := (s.setBinding c (some 1) false).setBind c ⟨0, 0, 1, 0, 7, 960, 24⟩
/-- Bin `g` in service with partition 1, named by a loaded image, with its checks enabled. -/
def binned (g : Nat) (s : State) : State :=
  { s.wr (Reg.CEL_CHK_CTL 1) 0xFFFFFFFF with
    binRecs := [(g, ⟨3, 1, .inService, 0, false, 0, 0, 0xFFFF, 0, 0, 0⟩)]
    binMap := [(g, some 1)] }

theorem witness_rack_instructions :
    let f := uf 15 0 1 2 0 0x24005DF; let v := uf 15 0 1 2 0 0x20005DF; let x := uf 15 0 1 2 0 0x4005DF; let z := uf 15 0 1 2 0 0
    let s := fun w => binned 959 (boundTo 1 (at5 1 w State.reset))
    let a := s (f.word 0x50); let b := s (v.word 0x51); let t := s (x.word 0x52)
    (fireCount f = 1 ∧ fireFirst f = 479 ∧ fireLanes f = 8 ∧ fireCopy f = true ∧ fireHalf f = 0 ∧ immF f.imm 26 6 = 0 ∧
        a.fires = [] ∧ a.tok 1 15 ≠ tokPending ∧ a.binRangeBad 1 479 1 = false ∧ a.Ready 1 (f.word 0x50) (a.pcNext 1) ∧
        a.shapeBad (a.firstBin 1 479) 1 (some 0) = false ∧ inputBlocks (a.forwardGroups (a.firstBin 1 479) 1 0) ≤ 512) ∧
      (fireLanes v = 0 ∧ fireHalf v = 0 ∧ b.shapeBad (b.firstBin 1 479) 1 none = false ∧ fireCopy v = true ∧
        b.binRangeBad 1 479 1 = false ∧ b.Ready 1 (v.word 0x51) (b.pcNext 1)) ∧
      (fireLanes x ≠ 0 ∧ fireCopy x = false ∧ t.shapeBad (t.firstBin 1 479) 1 none = false ∧
        t.binRangeBad 1 479 1 = false ∧ t.Ready 1 (x.word 0x52) (t.pcNext 1)) ∧
      z.imm = 0 ∧ (at5 1 (z.word 0x53) State.reset).Ready 1 (z.word 0x53) 6 ∧
      ((at5 1 (z.word 0x53) State.reset).setTok 1 15 tokPending 0).Ready 1 (z.word 0x53) 6 := by
  and_intros <;> first | decide +kernel | (constructor <;> decide +kernel)

/-- A fire of one bin of core 1 in a stage, of token 15. -/
def fireOf (kind : FireKind) (stage : FireStage) (todo : List (Nat × EvalClass)) : Fire :=
  ⟨1, 15, kind, [⟨959, 1, 0, 0⟩], 1, false, 0, 0, 0, stage, [], 0, todo, [], stOk⟩
def firing (f : Fire) : State :=
  { (binned 959 (boundTo 1 (at5 1 0 State.reset))).setTok 1 15 tokPending 0 with fires := [f], tokOps := [(tokKey 1 15, 1)] }
theorem witness_fires :
    let q := fireOf .forward .queued []; let s := firing q
    let i := fireOf .forward .staged []; let g := (firing i).setClaim 1 1 0
    let j := { i with groups := [⟨0, 1025, 0, 0⟩] }
    (s.fires.find? (fun h => h.core == 1 && h.stage == .queued) = some q ∧ s.noHostLines ∧ q.kind = .forward ∧
        s.stageUsed 1 + q.stageBytes ≤ 262144) ∧
      ((firing i).findFire 1 15 (fun h => h.stage == .staged) = some i ∧ (firing i).firesAhead 1 15 = []) ∧
      (g.outUsed 1 + i.reserve ≤ 1048576 ∧ g.binsInFlight 1 + groupBins i.groups ≤ g.binsGranted 1) ∧
      ((firing j).findFire 1 15 (fun h => h.stage == .staged) = some j ∧ (firing j).firesAhead 1 15 = [] ∧
        1048576 < (firing j).outUsed 1 + j.reserve) ∧
      (firing i).binsGranted 1 < (firing i).binsInFlight 1 + groupBins i.groups := by
  and_intros <;> first | decide +kernel | exact ⟨by decide +kernel, by decide +kernel⟩

theorem witness_fires_deliver :
    let f := fireOf .forward .issued [(0, .live)]; let z := fireOf .forward .issued [(0, .skipped)]
    let o := fireOf .reverse .issued [(0, .offline)]; let r := fireOf .reverse .issued [(0, .live)]
    let k := { fireOf .forward .copying [] with copy := true }
    let ok := fun (f : Fire) (p : Fire → Bool) => (firing f).findFire 1 15 (fun h => h.stage == .issued && p h) = some f ∧
      f.copy = false ∧ f.kind ≠ .test ∧ f.todo ≠ [] ∧ f.endStatus < 256
    ok f (fun h => h.kind != .reverse) ∧ ok z (fun h => h.kind != .reverse) ∧ ok o (fun _ => true) ∧
      ok r (fun h => h.kind == .reverse) ∧ (firing f).dropOf 1 = none ∧ (firing f).OneOp 1 15 ∧ (firing f).seq 1 ≠ seqFaulted ∧
      (firing k).findFire 1 15 (fun h => h.stage == .copying) = some k ∧ (firing k).noHostLines ∧ k.endStatus < 256 ∧
      (firing k).scrubbing 1 = false ∧ (firing k).OneOp 1 15 := by
  and_intros <;> first | decide +kernel | exact ⟨by decide +kernel, by decide +kernel⟩ | (constructor <;> decide +kernel)

/-- Region `r` in Run. -/
def inRunAt (r : Nat) (s : State) : State := s.wr Reg.PWR_CURTAIN_STAT (BitVec.ofNat 64 (2 ^ r))
theorem witness_bin_checks :
    let s := inRunAt 0 (binned 959 State.reset)
    let d := { s.setClaim 1 1 0 with binChecks := [(959, ⟨[none, none, none, none], 0, true, [], 0, none, none, none, none, 0⟩)] }
    let k := { s with binChecks := [(959, ⟨[none, none, none, none], 1, false, [], 0, none, none, none, none, 0⟩)] }
    let l := { s with labelEcc := [(8192 * 16000, .corrected)] }
    let w := { s.setFld (Reg.CEL_CHK_WINDOW 1) Fl.CEL_CHK_WINDOW_WIN_LOG2 0 with
      binChecks := [(959, ⟨[some 0, some 0, some 0, some 0], 0, false, [], 1, none, none, none, none, 0⟩)] }
    let e := { w with
      envelopes := [(959 * 256 + 255, some ⟨0, 0x3F800000, 0x40000000⟩)]
      colStats := [(959 * 256 + 255, { statZero with hi := FVal.ofInt 100 })] }
    let h2 := { w with binChecks := [(959, ⟨[none, none, none, none], 1, true, [], 1, none, none, none, none, 0⟩)] }
    let h := { e with driftActs := [⟨959, 0, 1, false, 0, 0⟩] }
    let event := fun (s : State) => outside (s.colStat 959 255) (s.check 959).winCount ⟨0, 0x3F800000, 0x40000000⟩
      (Fl.CEL_CHK_LIMITS_MEAN_TOL.get (s.winRegs 959).2) (Fl.CEL_CHK_LIMITS_EDGE_TOL.get (s.winRegs 959).2)
    (d.quietOn 959 = true ∧ d.tvEn 959 = true ∧ d.rackPower 959 = true ∧ (d.check 959).owed = true ∧
        (d.check 959).source = 0 ∧ d.binsInFlight 1 + 1 ≤ d.binsGranted 1 ∧ (d.duePatterns 959).contains 3 = true ∧ d.labelEcc = [] ∧ d.fires = []) ∧
      (s.tvEn 959 = true ∧ (s.binRec 959).state ≠ .uninstalled ∧ (s.check 959).owed = true) ∧
      (k.tvEn 959 = true ∧ (k.check 959).owed = false ∧ (k.check 959).errs.any Option.isNone = true) ∧
      ((w.check 959).owed = false ∧ (w.check 959).errs.any Option.isNone = false) ∧ srising l.labelEcc = true ∧
      (w.stEn 959 = true ∧ w.window 959 ≤ (w.check 959).winCount ∧ w.labelEcc = []) ∧ e.envelope 959 255 ≠ none ∧
      (event e = true ∧ e.actPending 959 = false ∧ e.stEn 959 = true ∧ e.window 959 ≤ (e.check 959).winCount) ∧
      (event h = true ∧ h.actPending 959 = true ∧ h.stEn 959 = true) ∧
      (h2.check 959).source = 1 ∧ h2.stEn 959 = true ∧ h2.window 959 ≤ (h2.check 959).winCount := by
  and_intros <;> decide +kernel

theorem witness_drift_actions :
    let s := inRunAt 0 (binned 959 State.reset)
    let a : DriftAct := ⟨959, 0, 1, false, 0, 0⟩
    let t := { s with actTests := [(1, 3)] }
    let v := { t with binChecks := [(959, ⟨[some 0, some 0, some 0, some 0], 0, false, [], 0, none, none, none, none, 0⟩)] }
    let r := { s with driftActs := [a] }
    let f := { s with refreshing := [a] }
    let q := { s.wr Reg.CEL_REFRESH_CTL 0xFFFF with refreshQ := [a] }
    (t.labelEcc = [] ∧ t.actTests.contains (1, 3) = true ∧ (t.binRec 959).layer = 3 ∧ t.inService 959 = true ∧
        t.setDue 959 = true ∧ v.setDue 959 = false) ∧
      (r.driftActs.find? (fun a => a.bin == 959) = some a ∧ (r.binRec 959).state = .inService ∧ r.rackPower 959 = true) ∧
      (f.refreshing.find? (fun a => a.bin == 959) = some a ∧ f.refreshQ = [] ∧ f.inst = none ∧ f.rackPower 959 = true) ∧
      (q.refreshQ = [a] ∧ q.refreshing = [] ∧ q.inst = none ∧ q.inService 959 = true ∧ q.flowing = true ∧
        q.rackPower 959 = true ∧ (q.fld Reg.CEL_REFRESH_CTL Fl.CEL_REFRESH_CTL_AUTO).testBit 1 = true ∧ q.passes = []) := by
  and_intros <;> decide +kernel

theorem witness_vector_instructions :
    let f := fun df => uf 15 0 1 2 0 (BitVec.ofNat 32 (2 ^ 18 * df + 2 ^ 22 * 3))
    let s := fun opc => (at5 0 ((f 0).word opc) State.reset).setG 0 2 1
    let t := (s 0x63).setG 0 3 1
    let q := { (at5 0 ((uf 15 0 1 2 0 0x90).word 0x60) State.reset).setG 0 2 1 with
      outBufs := [⟨0, 2, [0], [false], [false], []⟩] }.setTok 0 2 tokDone 0
    vecIllegal 0x60 (f 0) ((s 0x60).g 0 3) = false ∧ (s 0x60).tok 0 15 ≠ tokPending ∧ (s 0x60).vecOps = [] ∧
      ((s 0x60).g 0 2).toNat = 1 ∧ vSk (f 0).imm = 0 ∧ outBytesOf 0x60 0 false 1 0 ≤ pantrySize ∧
      (s 0x60).Ready 0 ((f 0).word 0x60) 6 ∧ vecIllegal 0x61 (f 7) ((s 0x61).g 0 3) = false ∧
      (at5 0 ((f 7).word 0x61) State.reset).Ready 0 ((f 7).word 0x61) 6 ∧ vecIllegal 0x63 (f 0) (t.g 0 3) = false ∧ (t.g 0 3).toNat % 2 ^ 32 ≠ 0 ∧
      t.Ready 0 ((f 0).word 0x63) 6 ∧ vecIllegal 0x60 (uf 15 0 1 2 0 0x90) 0 = false ∧
      vSk (uf 15 0 1 2 0 0x90).imm = 1 ∧ vSi (uf 15 0 1 2 0 0x90).imm = 2 ∧
      (∃ b ∈ q.outBufs, q.bufferOf 0 2 = some b ∧ 0 + 1 ≤ b.vals.length) := by
  and_intros <;> first | decide +kernel | (constructor <;> decide +kernel)

theorem witness_vector_completions :
    let o : VecOp := ⟨0, 15, 0x61, 1, 0, false, 1, 0, 0, 0, 0, 31, 0, [], some 14⟩
    let s := { (at5 0 0 State.reset).setTok 0 15 tokPending 0 with vecOps := [o], tokOps := [(tokKey 0 15, 1)] }
    s.noHostLines ∧ s.pantryEcc = [] ∧ s.flag Reg.DUMP_STAT Fl.DUMP_STAT_RETAINED = false ∧
      s.vecOps.find? (fun o => o.core == 0) = some o ∧ s.tok 0 15 = tokPending ∧ s.tokCount 0 15 = 1 ∧ s.tokStatus 0 15 = stOk ∧ s.scrubbing 0 = false := by
  and_intros <;> first | decide +kernel | exact ⟨by decide +kernel, by decide +kernel⟩

/-- Window `w` of core `c` declared with 64 bytes, in a state and a generation. -/
def windowed (c w st gen : Nat) (s : State) : State :=
  ((s.setFld (Reg.WDS_WIN_LEN c w) Fl.WDS_WIN_LEN_LEN 1).setFld (Reg.WDS_WIN_CTL c w) Fl.WDS_WIN_CTL_STATE st).setFld (Reg.WDS_WIN_CTL c w)
    Fl.WDS_WIN_CTL_GENERATION gen
theorem witness_windows_open :
    let f := cf 0 63 1 2 5; let g := cf 15 63 0 0 0
    let s := windowed 0 63 winDraining 0xFFFF (at5 0 (f.word 0x70) State.reset)
    let t := windowed 0 63 winOpened 1 (at5 0 (g.word 0x71) State.reset)
    s.fld (Reg.WDS_WIN_LEN 0 63) Fl.WDS_WIN_LEN_LEN ≠ 0 ∧ (∀ q ∈ s.winPends, q.core = 0 → q.tok < 16 ∧ q.tok ≠ 16) ∧
      s.winState 0 63 = winDraining ∧ s.Ready 0 (f.word 0x70) 6 ∧ g.imm = 0 ∧ t.winPends = [] ∧ t.tok 0 15 ≠ tokPending ∧
      t.winState 0 63 = winOpened ∧ t.Ready 0 (g.word 0x71) 6 := by
  and_intros <;> first | decide +kernel | (constructor <;> decide +kernel)
theorem witness_windows_drain :
    let d := cf 15 63 0 0 9; let w := cf 15 63 0 0 0
    let s := windowed 0 63 winOpened 1 (at5 0 (d.word 0x72) State.reset)
    let b := s.wr (Reg.WDS_WIN_TARGET 0 63) 1
    let t := (windowed 0 63 winDraining 1 (at5 0 (w.word 0x73) State.reset)).wr (Reg.WDS_WIN_TARGET 0 63) 1
    let p := fun k => (⟨0, 63, 15, k, true, []⟩ : WinPend)
    let e := fun k => { t.setTok 0 15 tokPending 0 with winPends := [p k], tokOps := [(tokKey 0 15, 1)] }
    (s.winPends = [] ∧ s.winState 0 63 = winOpened ∧ s.winTarget 0 63 ≤ s.winCount 0 63 ∧ s.Ready 0 (d.word 0x72) 6) ∧
      (b.winCount 0 63 < b.winTarget 0 63 ∧ b.Ready 0 (d.word 0x72) 6) ∧
      (t.winCount 0 63 < t.winTarget 0 63 ∧ t.winState 0 63 ≠ winClosed ∧ t.Ready 0 (w.word 0x73) 6) ∧
      ((e .drain).winPends = [p .drain] ∧ (e .drain).OneOp 0 15 ∧ (e .drain).winState 0 63 = winDraining) ∧
      ((e .close).OneOp 0 15 ∧ (e .close).winWrites 0 63 = []) ∧
      (e .wait).winPends.find? (fun q => q.core == 0 && q.win == 63 && q.kind == .wait && q.limited) = some (p .wait) := by
  and_intros <;> first | decide +kernel | (constructor <;> decide +kernel)

/-! ## Witnesses: messages, claims, cues, signals and Prompt messages -/

/-- A PUT or GET of 64 bytes from core 255 to offset 0x7FFFFC0 of core `d`, window 63, generation 1. -/
def netOf (kind : NetKind) (d : Nat) (stage : NetStage) : NetMsg :=
  ⟨7, kind, 0, 255, 1, 7, 15, 0, d, 0, 0x7FFFFC0, 64, 63, 1, 0x7FFFFC0, List.replicate 64 0xA5, [], 0, 0, 255, stage, 0, false⟩
/-- Window 63 of core `d`, in a state and of generation 1, over the last 64 bytes of the Pantry. -/
def lastWindow (d st : Nat) (s : State) : State :=
  (windowed d 63 st 1 s).setFld (Reg.WDS_WIN_BASE d 63) Fl.WDS_WIN_BASE_BASE 0x1FFFFF
theorem witness_messages_sent :
    let f : MFmt := ⟨15, 7, 1, 2, 63, false, 3, 0⟩
    let g : MFmt := ⟨15, 7, 1, 2, 0, false, 0, 0⟩
    let s := fun w => ((((boundTo 255 (at5 255 w State.reset)).setA 255 7 (0x7FF0000)).setG 255 2 65536).setG 255 1 (2 ^ 42 - 1 - 2 ^ 34 + 1))
    let ok := fun (s : State) (f : MFmt) => f.resv = 0 ∧ s.noHostLines ∧ (s.a 255 f.as.val).toNat < pantrySize ∧
      (s.a 255 f.as.val).toNat + (s.g 255 f.gn.val).toNat ≤ pantrySize ∧ 0 < (s.g 255 f.gn.val).toNat ∧
      (s.g 255 f.gn.val).toNat ≤ 65536 ∧ s.outstanding 255 < 64 ∧ s.tok 255 f.tok ≠ tokPending ∧ s.bound 255 = true
    ok (s (f.word 0x78)) f ∧ addrReserved (2 ^ 42 + 5) = false ∧ (s (f.word 0x78)).Ready 255 (f.word 0x78) 6 ∧
      ok (s (g.word 0x79)) g ∧ (s (g.word 0x79)).Ready 255 (g.word 0x79) 6 ∧
      addrReserved ((s 0).setG 255 1 (255 * 2 ^ 34) |>.g 255 1).toNat = false := by
  and_intros <;> first | decide +kernel | exact ⟨by decide +kernel, by decide +kernel⟩ | (constructor <;> decide +kernel)

theorem witness_messages_accepted :
    let m := netOf .put 254 .arrived
    let s := fun st => { lastWindow 254 st ((boundTo 254 State.reset).setSleep 254 0) with net := [m] }
    let a := s winOpened
    let out := a.setFld (Reg.WDS_WIN_BASE 254 63) Fl.WDS_WIN_BASE_BASE 0
    let p := { a with net := [{ m with orgPart := 2 }] }
    a.findNet 7 = some m ∧ m.kind = .put ∧ m.stage = .arrived ∧ m.orgModule = a.module ∧ m.dstCore < 256 ∧ m.win < 64 ∧ a.flowFirst m = true ∧
      3 ≤ ((a.setSleep 254 3).sleep 254) ∧ (a.sleep 254 < 3 ∧ a.samePart m = true ∧ m.space = 0) ∧
      p.samePart { m with orgPart := 2 } = false ∧ (s winClosed).winState 254 63 = winClosed ∧
      (a.winState 254 63 ≠ winClosed ∧ a.winGen 254 63 = m.gen) ∧
      (let base := 64 * a.fld (Reg.WDS_WIN_BASE 254 63) Fl.WDS_WIN_BASE_BASE
       let len := 64 * a.fld (Reg.WDS_WIN_LEN 254 63) Fl.WDS_WIN_LEN_LEN
       base ≤ m.off ∧ m.off + m.len ≤ base + len) ∧
      64 * out.fld (Reg.WDS_WIN_BASE 254 63) Fl.WDS_WIN_BASE_BASE + 64 * out.fld (Reg.WDS_WIN_LEN 254 63) Fl.WDS_WIN_LEN_LEN
        < m.off + m.len := by
  and_intros <;> decide +kernel

theorem witness_put_and_get :
    let s := fun k st => (((((boundTo 254 State.reset).setSleep 254 0).setSleep 255 0).setTok 255 15 tokPending 0) |> fun s =>
      { s with net := [netOf k 254 st], tokOps := [(tokKey 255 15, 1)] })
    let m := fun k st => netOf k 254 st
    (∀ k ∈ [NetKind.put, .get], ∀ st ∈ [NetStage.accepted, .answered, .arrived],
      (s k st).findNet 7 = some (m k st) ∧ (m k st).orgModule = (s k st).module) ∧ (s .put .accepted).noHostLines ∧
      (s .put .accepted).flag Reg.DUMP_STAT Fl.DUMP_STAT_RETAINED = false ∧ (s .put .accepted).scrubbing 254 = false ∧
      (m .put .accepted).off + (m .put .accepted).data.length ≤ pantrySize ∧
      (∀ q ∈ (s .put .accepted).winPends, q.core = 254 → q.tok < 16) ∧ (s .get .answered).sleep 255 < 3 ∧ (∀ k ∈ [NetKind.put, .get], (m k .answered).router = 255 ∧
        (s k .answered).flowFirst (m k .answered) = true) ∧ (s .get .arrived).flowFirst (m .get .arrived) = true ∧
      (s .get .answered).OneOp 255 15 ∧ (s .put .answered).OneOp 255 15 ∧ (m .get .answered).status < 256 ∧
      (s .get .answered).scrubbing 255 = false ∧
      (m .get .answered).land + (m .get .answered).data.length ≤ pantrySize ∧ (m .get .answered).data ≠ [] ∧
      (s .get .arrived).sleep 254 < 3 ∧ (s .get .arrived).samePart (m .get .arrived) = true ∧ (m .get .arrived).space = 0 ∧
      (m .get .arrived).off + (m .get .arrived).len ≤ pantrySize := by
  and_intros <;> first | decide +kernel | exact ⟨by decide +kernel, by decide +kernel⟩ | (constructor <;> decide +kernel)

theorem witness_claims :
    let f := cf 15 0 0 0 0x7C0; let g := cf 15 0 0 0 0x1; let z := cf 0 0 0 0 0
    let s := fun w => boundTo 255 (at5 255 w State.reset)
    let q : ClaimReq := ⟨255, 960, 24, 14, 0⟩
    let k := { ((s (z.word 0x99)).setTok 255 14 tokPending 0) with claimQ := [q], tokOps := [(tokKey 255 14, 1)] }
    let low := (k.setClaim 255 1 1)
    (f.resv = 0 ∧ f.join = false ∧ immF g.imm 15 17 = 0 ∧ immF g.imm 10 5 ≤ 24 ∧ immF g.imm 0 10 ≤ ((s (g.word 0x98)).bind 255).bins ∧
        immF g.imm 10 5 ≤ ((s (g.word 0x98)).bind 255).engines ∧ (s (g.word 0x98)).tok 255 15 ≠ tokPending ∧
        (s (g.word 0x98)).claimQ = [] ∧ (s (g.word 0x98)).Ready 255 (g.word 0x98) 6 ∧
        (s (g.word 0x98)).binsGranted 255 < immF g.imm 0 10) ∧
      (let h := (s (g.word 0x98)).setClaim 255 2 1
       immF g.imm 0 10 ≤ h.binsGranted 255 ∧ immF g.imm 10 5 ≤ h.engGranted 255 ∧ h.binsInFlight 255 ≤ 1 ∧ h.Ready 255 (g.word 0x98) 6) ∧
      ((∀ j ∈ k.claimQ, j.core = 255 → j.tok < 16) ∧ (∀ j ∈ k.claimQ, j.core / 16 = 255 / 16 → j.core = 255) ∧
        z.tok = 0 ∧ z.imm = 0 ∧ k.binsInFlight 255 = 0 ∧ k.active 255 = 0 ∧ k.Ready 255 (z.word 0x99) 6 ∧ q ∈ k.claimQ ∧
        k.OneOp 255 14 ∧ (∀ j ∈ k.claimQ, j.core = 255 → j.tok = 14 → j = q)) ∧
      (k.claimQueue 15 = [q] ∧ q.core < 256 ∧ q.bins < 1024 ∧ q.engines < 32 ∧ k.seq 255 ≠ seqFaulted) ∧
      low.binsGranted 255 = 1 := by
  and_intros <;> first | decide +kernel | (constructor <;> decide +kernel)

theorem witness_cues_signals_waits :
    let f := cf 0 0 1 0 0xFFF00210; let f := { f with imm := 0x1FFFE10 }
    let g := cf 15 63 1 0 0xFFFFFFFF
    let s := fun w => (boundTo 255 (at5 255 w State.reset)).setG 255 1 (240 * 2 ^ 34)
    (f.resv = 0 ∧ f.join = false ∧ immF f.imm 0 8 = 16 ∧ immF f.imm 8 2 = 2 ∧ immF f.imm 25 7 = 0 ∧ (s (f.word 0xA0)).bound 255 = true ∧
        addrModule (((s (f.word 0xA0)).g 255 f.ga.val).toNat % 2 ^ 48) = (s (f.word 0xA0)).module ∧
        addrCore (((s (f.word 0xA0)).g 255 f.ga.val).toNat % 2 ^ 48) + 16 ≤ 256 ∧ (s (f.word 0xA0)).Ready 255 (f.word 0xA0) 6) ∧
      (g.imm ≠ 0 ∧ (s (g.word 0xA8)).tok 255 15 ≠ tokPending ∧ (s (g.word 0xA8)).outstanding 255 < 64 ∧
        addrReserved ((s (g.word 0xA8)).g 255 1).toNat = false ∧
        addrModule ((s (g.word 0xA8)).g 255 1).toNat = (s (g.word 0xA8)).module ∧ (s (g.word 0xA8)).Ready 255 (g.word 0xA8) 6) ∧
      ((s (g.word 0xA9)).sigWaits = [] ∧ (s (g.word 0xA9)).Ready 255 (g.word 0xA9) 6 ∧
        (s (g.word 0xA9)).slotCount 255 63 < ((s (g.word 0xA9)).g 255 1).toNat + (g.imm).toNat % 2 ^ 32) ∧
      (let z := cf 15 63 0 0 0; (s (z.word 0xA9)).Ready 255 (z.word 0xA9) 6 ∧
        ((s (z.word 0xA9)).g 255 0).toNat + z.imm.toNat ≤ (s (z.word 0xA9)).slotCount 255 63) := by
  and_intros <;> first | decide +kernel | (constructor <;> decide +kernel)

theorem witness_prompt_messages :
    let base := boundTo 254 (boundTo 255 ({ State.reset with regs := [(Reg.FAB_FMAP_CORE 7, 0)] }.setSleep 254 0))
    let s := fun b => { base.setTok 254 15 tokPending 0 with
      pn := [⟨9, 254, 0, 255, 0, 3, 0, b⟩], sigOuts := [⟨3, 254, 15⟩], tokOps := [(tokKey 254 15, 1)] }
    let m : PnBody → PnMsg := fun b => ⟨9, 254, 0, 255, 0, 3, 0, b⟩
    let w := (s (.winNotice 63 1)) |> fun s => { s with net := [{ netOf .put 255 .held with orgCore := 254 }] }
    let k := { netOf .put 255 .held with orgCore := 254 }
    (∀ b ∈ [PnBody.cue 2 1023 31, .signal 63 1, .signalAck 0, .winNotice 63 1], (s b).findPn 9 = some (m b)) ∧
      ((s (.cue 2 1023 31)).sleep 254 < 3 ∧ (s (.cue 2 1023 31)).pnSame (m (.cue 2 1023 31)) 254 = true) ∧
      ((s (.signal 63 1)).coreBad 254 = false ∧ (s (.signal 63 1)).sigWaits = [] ∧
        (s (.signal 63 1)).pnSame (m (.signal 63 1)) 254 = true ∧
        ((s (.signal 63 1)).setBinding 255 none false).pnSame (m (.signal 63 1)) 254 = false) ∧
      ((s (.signalAck 0)).sigOuts.find? (fun o => o.core == 254 && o.id % 65536 == 3) = some ⟨3, 254, 15⟩ ∧
        (s (.signalAck 0)).OneOp 254 15) ∧
      ((∀ j ∈ w.net, ∀ k ∈ w.net, j.id = k.id → j = k) ∧ (∀ k ∈ w.net, k.orgCore = 254 → k.tok < 16) ∧ k ∈ w.net ∧
        k.kind = .put ∧ k.stage = .held ∧ k.dstCore = 255 ∧ k.dstModule = 0 ∧ k.win = 63 ∧ k.gen = 1 ∧ k.timedOut = false ∧
        w.OneOp 254 15) := by
  and_intros <;> first | decide +kernel | (constructor <;> decide +kernel)

theorem witness_timeouts :
    let s := { State.reset.setTok 255 15 tokPending 0 with
      net := [netOf .get 254 .moving], sigOuts := [⟨9, 255, 15⟩], sigWaits := [⟨255, 63, 1, 15, true⟩],
      tokOps := [(tokKey 255 15, 1)] }
    s.findNet 7 = some (netOf .get 254 .moving) ∧ (netOf .get 254 .moving).orgModule = s.module ∧
      (netOf .get 254 .moving).timedOut = false ∧ s.OneOp 255 15 ∧ s.findNet 9 = none ∧
      s.sigOuts.find? (fun o => o.id == 9) = some ⟨9, 255, 15⟩ ∧
      s.sigWaits.find? (fun w => w.core == 255 && w.slot == 63 && w.limited) = some ⟨255, 63, 1, 15, true⟩ ∧
      (∀ q ∈ s.sigWaits, q.core = 255 → q.slot = 63 → q = ⟨255, 63, 1, 15, true⟩) := by
  and_intros <;> first | decide +kernel | (constructor <;> decide +kernel)

/-! ## Witnesses: the KV state -/

/-- Partition 1 of one module, with its book on core 1, and a layer of one core whose context 9 holds a HOT page of block 0
and its digest group. -/
def kvRec : PartRec := ⟨0, none, [0], 0, 4, 0, 0, 0, 0, some 1, 16, 0x400000, 0x500000⟩
def kvLayer : LayerKv := ⟨0, 1, 5, 0, false, 0, 0, 0x100000, 4, 2, 0x200000, 0x300000, 0x310000, [1], 0⟩
/-- KV registers in force for context 9: PAGES_MAX 4. -/
def kvCfg : KvCfg := ⟨0, Fl.SRV_KV_SHARE_PAGES_MAX.set 0 4, []⟩
def kvState (w : DWord) : State :=
  let s : State := { State.reset with
    regs := [(Reg.FAB_FMAP_CORE 0, 0)]
    parts := [(1, some kvRec)]
    layerKv := [kvLayer]
    ctxs := [(9, { ctxZero with st := .resident, part := 1, resident := some 0, kv := kvCfg })] }
  (((boundTo 1 (at5 1 w s)).setG 1 2 9).store 1 0x300000 (MapEntry.bytes ⟨0, 0, 1, false, 3, 0⟩ 0)).store 1 0x300010
    (MapEntry.bytes ⟨0, 1, 4, false, 0, 0⟩ 1)

theorem witness_kv_instructions :
    let f := uf 15 0 0 2 0 0x1F005; let g := uf 15 0 0 2 0 0xFFFF0005
    let s := (kvState (f.word 0x80)).setA 1 0 (0x8000000 - 1152)
    let t := fun opc => (kvState (g.word opc)).setBind 1 ⟨0, 0, 1, 4, 7, 960, 24⟩
    let n := kvState (g.word 0x81)
    (f.fn = 0 ∧ f.sr = false ∧ s.noHostLines ∧ s.tok 1 15 ≠ tokPending ∧ s.kvOps = [] ∧ immF f.imm 17 15 = 0 ∧
        immB f.imm 16 = true ∧ (s.a 1 0).toNat + 1152 ≤ pantrySize ∧ (s.a 1 0).toNat < pantrySize ∧ s.Ready 1 (f.word 0x80) 6) ∧
      ((t 0x81).noHostLines ∧ immF g.imm 12 4 = 0 ∧ (t 0x81).bound 1 = true ∧
        (t 0x81).kvKnown 1 (((t 0x81).g 1 2).toNat % 65536) = true ∧ (t 0x81).kvOps = [] ∧ (t 0x81).part ((t 0x81).partOf 1) = some kvRec ∧
        kvRec.modules.length ≤ 1 ∧ (t 0x81).decides 1 = true ∧ ((t 0x81).ctx 9).part = (t 0x81).partOf 1 ∧
        (t 0x81).passOf 9 = none ∧ (t 0x81).holders ((t 0x81).ctx 9).part = [1] ∧
        (t 0x81).coreBad 1 = false ∧ (t 0x81).sleep 1 < 3 ∧ (t 0x81).Ready 1 (g.word 0x81) 6 ∧ (t 0x82).Ready 1 (g.word 0x82) 6 ∧
        (t 0x82).kvKnown 1 9 = true) ∧
      (immF g.imm 12 4 = 0 ∧ n.bound 1 = true ∧ n.kvKnown 1 9 = true ∧ n.decides 1 = false ∧ n.kvOps = [] ∧ n.noHostLines ∧
        n.Ready 1 (g.word 0x81) 6) := by
  and_intros <;> first | decide +kernel | exact ⟨by decide +kernel, by decide +kernel⟩ | (constructor <;> decide +kernel)

theorem witness_maps_digests_masks :
    let m := uf 15 0 0 2 0 5; let d := uf 15 0 0 2 0 0x5; let k := uf 15 0 1 2 0 0
    let bs := MapEntry.bytes ⟨0, 0xFFFF, 1, true, 64, 0⟩ 0
    let s := ((kvState (m.word 0x83)).setA 1 0 0x600000).store 1 0x600000 bs
    let t := kvState (d.word 0x84)
    let u := (((kvState (k.word 0x90)).setA 1 0 0x600000).setA 1 1 (0x8000000 - 4)).setG 1 2 2
    let good := u.store 1 0x600000 [0xFF, 0]; let bad := u.store 1 0x600000 [0xFF, 1]
    (s.noHostLines ∧ s.tok 1 15 ≠ tokPending ∧ s.kvOps = [] ∧ s.writable 1 ∧ s.noScrub ∧ s.tagLayers (s.ctx 9).part 5 = [kvLayer] ∧
        s.kvKnown 1 9 = true ∧ s.loftFetches = [] ∧ kvLayer.lead ∈ kvLayer.keepers ∧ s.bytes 1 0x600000 16 = bs ∧
        kvLayer.mapAt 0 0 + 16 ≤ pantrySize ∧ requestBad bs = false ∧ (mapOf bs).slot = 0xFFFF ∧ (mapOf bs).state = 1 ∧
        (s.mapEntry kvLayer 0 0).state = 1 ∧ (s.mapEntry kvLayer 0 0).block = (mapOf bs).block ∧
        (s.mapEntry kvLayer 0 0).node = (mapOf bs).node ∧ (mapOf bs).node = 0 ∧ s.Ready 1 (m.word 0x83) 6) ∧
      (t.layerOf 9 5 = some kvLayer ∧ t.kvKnown 1 9 = true ∧
        t.digestEntry kvLayer 0 (kvLayer.groupOf 0) = some (1, ⟨0, 1, 4, false, 0, 0⟩) ∧ t.pantryEcc = [] ∧
        kvLayer.slotAt 1 + 64 ≤ pantrySize ∧ t.Ready 1 (d.word 0x84) 6) ∧
      ((u.g 1 2).toNat = 2 ∧ (u.a 1 1).toNat + 4 ≤ pantrySize ∧ good.Ready 1 (k.word 0x90) 6 ∧
        (∀ i < 2, (good.byte 1 (0x600000 + i)).toNat = 0xFF ∨ (good.byte 1 (0x600000 + i)).toNat < i) ∧
        bad.Ready 1 (k.word 0x90) 6 ∧ (bad.byte 1 0x600001).toNat ≠ 0xFF ∧ 1 ≤ (bad.byte 1 0x600001).toNat) := by
  and_intros <;> first | decide +kernel | exact no_scrub _ (by decide +kernel) |
    exact ⟨by decide +kernel, by decide +kernel⟩ | exact ⟨by decide +kernel, by decide +kernel, by decide +kernel⟩ |
    (constructor <;> decide +kernel)

/-- A KV operation of core 1 in front, with its token PENDING. -/
def kvWith (o : KvOp) : State :=
  { (kvState 0).setTok 1 15 tokPending 0 with kvOps := [o], tokOps := [(tokKey 1 15, 1)] }
theorem witness_kv_completions :
    let o : KvOp := ⟨0, 1, 15, .append, 9, 5, 0, 16, [], 0, none, 0, 0, 0, false⟩
    let s := kvWith o
    let k : KvOp := ⟨0, 1, 15, .commit, 9, 5, 0, 0, [(0, 1)], 0, none, 0, 0, 0, true⟩
    let msg : PnBody → PnMsg := fun b => ⟨4, 1, 0, 1, 0, 15, 0, b⟩
    let u := fun b => { kvWith k with pn := [msg b] }
    (s.noHostLines ∧ s.flag Reg.DUMP_STAT Fl.DUMP_STAT_RETAINED = false ∧ s.noScrub ∧ s.KvFront o ∧ s.bound 1 = true ∧
        s.kvKnown 1 9 = true ∧ s.layerOf 9 5 = some kvLayer ∧ s.coreBad 1 = false ∧ s.sleep 1 < 3 ∧
        s.pageEntry kvLayer 0 0 = some (0, ⟨0, 0, 1, false, 3, 0⟩) ∧ (s.hold 9 5 1).committed = 0 ∧ s.kvReserves = [] ∧
        (s.hotEntries kvLayer 0).length ≤ s.pagesMax 9 ∧ kvLayer.stageAt 0 16 + 576 ≤ pantrySize) ∧
      (∀ b ∈ [PnBody.kvCommit 9 5 0 0 false false, .kvRollback 9 5 0xFFFF 0 false false, .kvAck 9 14],
        (u b).findPn 4 = some (msg b)) ∧
      (((u (.kvCommit 9 5 0 0 false false)).ctx 9).resident.isSome = true ∧
        (u (.kvCommit 9 5 0 0 false false)).heldLayers 9 1 = [kvLayer]) ∧
      (let l := { kvLayer with set := [1, 2], leadAt := 1 }
       let h := { u (.kvCommit 9 5 0 0 false false) with layerKv := [l] }.store 2 0x300000 (MapEntry.bytes ⟨0, 0, 1, false, 3, 0⟩ 0)
       h.heldLayers 9 1 = [l] ∧ 1 ≠ l.lead ∧ h.pageSlot l 9 (h.residentOf 9) ((h.hold 9 5 1).committed / 64) = some 0 ∧
         l.slotAt 0 + 576 * ((h.hold 9 5 1).committed % 64) + 576 ≤ pantrySize) ∧
      ((u (.kvAck 9 14)).noRequests ∧ (u (.kvAck 9 14)).KvFront k) := by
  and_intros <;> first | decide +kernel | exact no_scrub _ (by decide +kernel) | exact kv_idle _ (by decide +kernel) |
    exact ⟨by decide +kernel, by decide +kernel⟩ |
    (constructor <;> first | decide +kernel | exact kv_idle _ (by decide +kernel) | (constructor <;> decide +kernel))

/-! ## Witnesses: pages, passes and requests -/

theorem witness_pages_and_nodes :
    let q : LoftFetch := ⟨3, 9, 5, 7, 3, []⟩; let p : Spill := ⟨4, 9, 5, 7, 3, false, true, false⟩
    let r : Spill := ⟨4, 9, 5, 7, 3, false, false, false⟩
    let s := { (kvState 0).store 1 0x300020 (MapEntry.bytes ⟨7, 3, 3, false, 64, 0⟩ 2) with loftFetches := [q], spills := [p] }
    let n := ((kvState 0).setBookNum kvRec 15 20 1 3).setBookSlot 1 5 15 (some 2)
    s.noHostLines ∧ s.flag Reg.DUMP_STAT Fl.DUMP_STAT_RETAINED = false ∧ s.noScrub ∧ s.kvIdle ∧
      s.pageEntry kvLayer (s.residentOf 9) 7 = some (2, ⟨7, 3, 3, false, 64, 0⟩) ∧ s.loftFetches.find? (fun q => q.id == 3) = some q ∧
      s.layerOf 9 5 = some kvLayer ∧ kvLayer.slotAt 3 + 36864 ≤ pantrySize ∧ s.spills.find? (fun q => q.id == 4) = some p ∧
      ((cached s).cacheOk = true ∧ (cached s).spills = [p] ∧ s.cacheOk = false) ∧ [r].find? (fun q => q.id == 4) = some r ∧ (n.noHostLines ∧ n.part 1 = some kvRec ∧ kvRec.recordAt 15 + 320 ≤ pantrySize ∧
        15 < kvRec.bookNodes ∧ n.bookNum kvRec 15 20 1 = 3 ∧ n.bookNum kvRec 15 12 4 = 0 ∧ n.kvLayers 1 = [kvLayer] ∧
        n.bookSlot 1 5 15 = some 2) := by
  and_intros <;> first | decide +kernel | exact no_scrub _ (by decide +kernel) | exact kv_idle _ (by decide +kernel) |
    exact ⟨by decide +kernel, by decide +kernel⟩

/-- A descriptor of context 9, tenant 1023 and partition 1, with a prompt of two tokens. -/
def descOf (op tokens : Nat) : List Byte :=
  leBytes 2 op ++ leBytes 2 9 ++ leBytes 2 1023 ++ [0, 1] ++ leBytes 4 tokens ++ leBytes 4 2 ++ List.replicate 48 0
/-- The partition READY, with one tenant enabled. -/
def served (st : CtxState) : State :=
  ({ kvState 0 with ctxs := [(9, { ctxZero with st := st, part := 1, resident := some 0, kv := kvCfg })] }.setPartState 1 3).setFld
    (Reg.SRV_TEN_CTL 1023) Fl.SRV_TEN_CTL_EN 1
def running (input : List Nat) : Req := { reqOf 6 4095 0 0 (descOf 1 8) input none with started := true, deadline := 5 }
theorem witness_passes_notices_completions :
    let r := running [1, 2]
    let lend := fun s : State => (s.setFld (Reg.SRV_TEN_CTL 1023) Fl.SRV_TEN_CTL_BORROW_MAX 1)
    let s := { (lend (served .active)).setBind 1 ⟨0, 0, 1, 6, 7, 960, 24⟩ with reqs := [r] }
    let t := { s with now := 1 }
    let p : PnMsg := ⟨7, 1, 0, 272, 0, 0, 0, .deadline 9 6⟩
    let n : Notice := ⟨6, 9, 0, [5, 6], false, false, false, none, 0⟩
    let k : PnMsg := ⟨7, 272, 0, 1, 0, 0, 0, .commitNotice 9 0 2 0⟩
    let w := { running [] with outAddr := 0x1000 }
    let u := { s with pn := [k], notices := [n], reqs := [w], passes := [s.nextPass w] }
    let c : Completion := ⟨List.replicate 64 0, true⟩
    let z := { State.reset with queues := [(4095, ⟨2, 0, List.replicate 16 0 ++ [2, 2] ++ List.replicate 46 0, 0, 0, 3, 1, true, [c], 0, 0⟩)] }
    (s.noHostLines ∧ s.flag Reg.DUMP_STAT Fl.DUMP_STAT_RETAINED = false ∧ s.noScrub ∧ s.kvIdle ∧ s.host.parkDue = [] ∧
        s.passReady r = true ∧
        s.part 1 = some kvRec ∧ s.entryCores 1 = [1] ∧ kvRec.passOfs + 128 ≤ pantrySize) ∧
      (r.runsPasses = true ∧ r.deadline ≠ 0 ∧ r.sent = false ∧ r.t0 + r.deadline ≤ t.hostTime ∧ t.headCore r.part = some 1) ∧
      ({ s with pn := [p] }.findPn 7 = some p) ∧
      (u.findPn 7 = some k ∧ n.req = w.id ∧ w.stream = false ∧ w.outAddr ≠ 0 ∧ w.op = opGenerate ∧ w.ctx = n.ctx ∧
        (u.ctx w.ctx).st = .active ∧ (u.passOf w.ctx).isSome = true ∧ u.biWant = [] ∧ w.status = none ∧
        u.kvIdle) ∧
      (z.noRequests ∧ (z.queue 4095).waiting = [c] ∧ (z.queue 4095).state = qActive ∧ (z.queue 4095).full = false) := by
  and_intros <;> first | decide +kernel | exact no_scrub _ (by decide +kernel) | exact kv_idle _ (by decide +kernel) |
    exact ⟨by decide +kernel, by decide +kernel⟩

/-- Queue 4095 ACTIVE with a descriptor to fetch. -/
def asking (st : CtxState) : State :=
  (({ served st with queues := [(4095, ⟨2, 0, List.replicate 16 0 ++ [2, 2] ++ List.replicate 46 0, 0, 1, 0, 0, true, [], 0, 0⟩)] }).setFld
    Reg.HIF_STAT Fl.HIF_STAT_LINK_UP 1)
/-- A record of context 9. -/
def record9 : List Byte := { ctxZero with st := .parked, part := 1, loftKv := 0x10000, committed := 65 }.record 9 1
theorem record9_ok : (served .parked).recordBad kvRec 1 9 record9 = false := by decide +kernel
theorem witness_requests :
    let free := { asking .free with ctxs := [] }
    let parked := { asking .parked with ctxs := [(9, { ctxZero with st := .parked })] }
    let u := (parked.setCtx 9 { ctxOf record9 with
      part := 1, st := .resuming, resident := some 0, slot := none, bank := false }).takeKv 9
    (∀ s ∈ [free, parked, asking .resident],
      s.noRequests ∧ s.noHostLines ∧ s.turnOf = some 4095 ∧ s.flag Reg.HIF_STAT Fl.HIF_STAT_LINK_UP = true ∧
        s.placesUsed < 1024 ∧ (s.queue 4095).stuck = false ∧ s.tenantOn 1023 = true ∧ s.fatal = false ∧
        swf (fun _ => queueZero) s.queues = true ∧ s.part 1 = some kvRec ∧ s.partState 1 = 3) ∧
      (∀ op ∈ [0, 1, 2, 3, 4, 5], (descOf op 0).length = 64 ∧ descBad (descOf op 0) = false ∧ leAt (descOf op 0) 0 1 = op ∧
        leAt (descOf op 0) 4 2 = 1023 ∧ leAt (descOf op 0) 2 2 = 9 ∧ leAt (descOf op 0) 7 1 % 16 = 1) ∧
      (free.ctx 9).st = .free ∧ ((asking .resident).ctx 9).st = .resident ∧ ((asking .resident).ctx 9).part = 1 ∧
      ((asking .resident).ctx 9).resident.isSome = true ∧ (asking .resident).quiet 9 = true ∧
      (leAt (descOf 1 0) 12 4 ≤ [1, 2].length ∧ bitOf (leAt (descOf 1 0) 1 1) 1 = false ∧ 2 ≤ leAt (descOf 1 0) 12 4) ∧
      (bitOf (leAt (descOf 2 0) 1 1) 1 = false ∧ 0 < leAt (descOf 2 0) 12 4 ∧ leAt (descOf 2 0) 12 4 ≤ [1, 2].length) ∧
      ((parked.ctx 9).st = .parked ∧ bitOf (leAt record9 10 1) 1 = false ∧ bitOf (leAt record9 10 1) 2 = false ∧
        parked.freeIndex 1 = some 0 ∧ (State.installPlans 9 0 1 kvRec (parked.kvLayers 1) u).isSome = true) := by
  and_intros <;> first | decide +kernel | exact kv_idle _ (by decide +kernel) | exact ⟨by decide +kernel, by decide +kernel⟩ | skip
  simp only [List.forall_mem_cons]
  and_intros <;> first | decide +kernel | exact kv_idle _ (by decide +kernel) |
    exact ⟨by decide +kernel, by decide +kernel⟩ | simp

theorem witness_parks_and_resumes :
    let s := served .parking; let r := served .resuming
    let n := { r with ctxs := [(9, { ctxZero with st := .resuming, part := 1 })] }
    let reads := ((r.kvLayers 1).map fun l => r.resumeReads 9 0 l).flatten
    s.noRequests ∧ s.noHostLines ∧ (s.ctx 9).st = .parking ∧ (s.ctx 9).resident.isSome = true ∧
      (r.ctx 9).st = .resuming ∧ (r.ctx 9).resident = some 0 ∧ r.part (r.ctx 9).part = some kvRec ∧ (r.ctx 9).adapter = false ∧
      ((cached s).cacheOk = true ∧ s.cacheOk = false ∧ (cached s).ctxs = s.ctxs ∧ (cached r).cacheOk = true ∧ (cached r).ctxs = r.ctxs) ∧
      (∃ a ∈ reads, memAt [] a.1 a.2 = none) ∧
      (∀ a ∈ reads, (memAt (reads.map fun a => (a.1, List.replicate a.2 (0 : Byte))) a.1 a.2).isSome = true) ∧
      n.noRequests ∧ n.noHostLines ∧ (n.ctx 9).st = .resuming ∧ (n.ctx 9).resident = none := by
  and_intros <;> first | decide +kernel | exact kv_idle _ (by decide +kernel) | exact ⟨by decide +kernel, by decide +kernel⟩

/-! ## Witnesses: core commands, commits, registers and installs -/

theorem witness_core_commands :
    let s := fun q => (at5 255 0 State.reset).setSeq 255 q
    let w := windowed 255 63 winDraining 1 (s seqHalted)
    let k := ((s seqWait).setSleep 255 2)
    (s seqHalted).CoreTakes 255 ∧ (s seqHalted).seq 255 = seqHalted ∧ (s seqFaulted).seq 255 = seqFaulted ∧
      (s seqHalted).fatal = false ∧ (s seqRun).seq 255 = seqRun ∧ k.seq 255 = seqWait ∧ k.CoreTakes 255 ∧ 0 < k.sleep 255 ∧
      (w.winPendsApart 255 16 ∧ w.winState 255 63 = winDraining) ∧ (s seqHalted).coreIdle 255 = true ∧
      (s seqHalted).scrubbing 255 = false ∧ (s seqHalted).dumpHeld 240 0x7800000 = false := by
  and_intros <;> first | decide +kernel | (constructor <;> decide +kernel) | (intro q h; cases h)

theorem witness_core_blocks :
    let s := (at5 255 0 State.reset).setFld (Reg.CORE_ID 255) Fl.CORE_ID_SWING 1
    let b := s.setFld (Reg.RIF_BORROW 255) Fl.RIF_BORROW_EN 1
    s.CoreTakes 255 ∧ s.fires = [] ∧ s.flag (Reg.CORE_ID 255) Fl.CORE_ID_SWING = true ∧ (6 : Fin 8).val ≠ 255 % 8 ∧
      s.flag (Reg.RIF_BORROW 255) Fl.RIF_BORROW_EN = false ∧ b.flag (Reg.RIF_BORROW 255) Fl.RIF_BORROW_EN = true ∧
      (0x1FFFFFF : Word).toNat < 2 ^ 25 := by
  and_intros <;> first | decide +kernel | (constructor <;> decide +kernel)

theorem witness_commits :
    let s := at5 255 0 State.reset
    let n := { s with shadow := [(Reg.NRM_CTL 255, -1)] }
    s.CoreTakes 255 ∧ firstFailed (nrmChecks (s.staged (nrmGroup 255))) = none ∧
      firstFailed (winChecks (s.winState 255 63 == winClosed) (s.staged (winGroup 255 63))) = none ∧
      firstFailed (chkChecks (s.staged (chkGroup 15))) = none ∧
      (firstFailed (nrmChecks (n.staged (nrmGroup 255)))).isSome = true := by
  and_intros <;> first | decide +kernel | (constructor <;> decide +kernel)

theorem witness_register_accesses :
    let s := at5 255 0 State.reset
    s.CoreTakes 255 ∧ (7 : DWord).toNat < 8 ∧ (0x7FFF : DWord).toNat < 2 ^ 15 ∧ s.seq 255 = seqRun ∧
      ¬(4 = 4 ∧ (0x2002 : BitVec 32).toNat % 4 = 0) ∧ ¬(8 = 8 ∧ (0x2004 : BitVec 32).toNat % 8 = 0) := by
  and_intros <;> first | decide +kernel | (constructor <;> decide +kernel)

/-- An install stream of one entry, 32 rows and one column of BF16 zeros on bin 479 of core 255. -/
def entryBytes' : List Byte :=
  leBytes 2 3 ++ [0, 0, 0, 0] ++ leBytes 2 255 ++ leBytes 4 32 ++ leBytes 4 1 ++ leBytes 2 479 ++ leBytes 2 0 ++ leBytes 4 64 ++
    leBytes 8 0x3000 ++ leBytes 8 0x4000 ++ List.replicate 24 0
/-- What the host returns for a chunk of the entry: its data and a CRC, good or not. -/
def chunkMem (crc : Nat) : List (Nat × List Byte) := [(0x3000, List.replicate 64 0), (0x4000, leBytes 4 crc)]
def goodCrc : Nat := crc32c (List.replicate 64 0)
def groupBytes : List Byte := [0, 2, 0, 0] ++ leBytes 4 32 ++ List.replicate 24 0
def descHead : List Byte :=
  leBytes 4 0x4E49584B ++ leBytes 2 1 ++ [1, 0] ++ leBytes 4 1 ++ List.replicate 1 1 ++ List.replicate 7 0 ++ leBytes 4 (crc32c entryBytes') ++
    leBytes 8 0x1000 ++ leBytes 8 0x2000 ++ List.replicate 8 0 ++ leBytes 4 (crc32c groupBytes) ++ List.replicate 8 0
def instMem : List (Nat × List Byte) :=
  [(0, descHead ++ leBytes 4 (crc32c descHead)), (0x1000, entryBytes'), (0x2000, groupBytes), (0x3000, List.replicate 64 0)]
def installOf (phase : Nat) : Install :=
  ⟨descHead, [groupBytes], [[]], [], [⟨entryBytes', none, 0, 0, [(0, 2)]⟩], [⟨122879, 0, phase, 0, 0, 0⟩], [], []⟩
theorem witness_installs :
    let s := cached (inRunAt 15 (State.reset.setFld Reg.HIF_STAT Fl.HIF_STAT_FW_READY 1))
    let k := boundTo 0 (s.setInst instCheck 0)
    let run := fun phase => { s.setInst instFirst 0 with inst := some (installOf phase) }
    let a : DriftAct := ⟨122879, 0, 1, false, 0, 0⟩
    let q := { s with refreshQ := [a], binRecs := [(122879, ⟨3, 15, .inService, 0, false, 0, 0, 0xFFFF, 0, 0, 0⟩)] }
    (s.biWant = [] ∧ s.fwReady = true ∧ s.loading = false ∧ s.installing = false) ∧ (run 1).installing = true ∧
      (k.instState = instCheck ∧ k.judgeInstall (k.hostMem []) = .inr 1) ∧
      (∃ j, k.judgeInstall (k.hostMem instMem) = .inl j ∧ j.bins ≠ [] ∧ ∀ b ∈ j.bins, b.phase = 0) ∧
      ((run 1).inst = some (installOf 1) ∧ ((installOf 1).entry 0).status = none ∧
        ((installOf 1).bins.any fun b => b.entry == 0 && b.phase == 1) = true ∧ sread (fun _ => 0) ((installOf 1).entry 0).tries 0 + 1 ≤ 3 ∧
        0 < chunkCount entryBytes' [] ∧ chunkOk entryBytes' [] (chunkMem (goodCrc + 1)) 0 = some false) ∧
      ((run 1).rackPower 122879 = true ∧ (run 1).cacheOk = true ∧ (run 4).rackPower 122879 = true) ∧
      (installOf 1).bins.find? (fun y => y.bin == 255 * 480 + 479 && y.phase == 1) = some ⟨122879, 0, 1, 0, 0, 0⟩ ∧
      (∀ q ∈ spotValues entryBytes' [] instMem 122879, q.2.isSome = true) ∧
      (∀ n ∈ binChunks entryBytes' [] 122879, chunkOk entryBytes' [] (chunkMem goodCrc) n = some true) ∧
      ((installOf 2).bins.any fun y => y.bin == 122879 && y.phase == 2) = true ∧
      ((installOf 4).bins.find? (fun y => y.bin == 122879 && y.phase == 4) = some ⟨122879, 0, 4, 0, 0, 0⟩ ∧
        (∀ y ∈ (installOf 4).bins, y.bin = 122879 → y = ⟨122879, 0, 4, 0, 0, 0⟩) ∧ (run 4).refreshQ = [] ∧
        cellOutcome (entDst entryBytes') [] [16] = 2) ∧
      (q.fwReady = true ∧ q.refreshing = [] ∧ q.inst = none ∧ q.inService 122879 = true ∧ q.flowing = true ∧
        (q.binRec 122879).part = 15 ∧ q.rackPower 122879 = true) := by
  and_intros <;> first | decide +kernel | exact ⟨by decide +kernel, by decide +kernel⟩ | skip
  exact ⟨_, rfl, by decide +kernel, by decide +kernel⟩

theorem witness_pass_blocks : ∀ q ∈ passBlocks entryBytes' instMem 0 122879, ∃ v, q.2.2 = .inl v := by
  have hs : entSplit entryBytes' = false := by decide +kernel
  have hp : entPieces entryBytes' 122879 = [(0, 0, 0)] := by decide +kernel
  have hc : entCols entryBytes' = 1 := by decide +kernel
  have hr : entRows entryBytes' = 32 := by decide +kernel
  intro q hq
  simp only [passBlocks, hs, hp, hc, hr, List.mem_flatMap, List.mem_map, List.mem_range, Bool.false_eq_true, if_false,
    List.mem_cons, List.not_mem_nil, or_false, exists_eq_left, List.getElem?_cons_zero] at hq
  obtain ⟨col, -, b, -, rfl⟩ := hq
  dsimp only
  split
  · rename_i h
    obtain ⟨rfl, rfl⟩ : col = 0 ∧ b = 0 := by omega
    exact ⟨_, rfl⟩
  · exact ⟨_, rfl⟩

/-! ## Witnesses: feeds, regions, skipping, telemetry, flow and slack -/

/-- What holds of the sixteen cores of a region holds of every core that the region holds. -/
theorem of_region {P : Nat → Prop} (r : Nat) (h : ∀ j < 16, P (16 * r + j)) : ∀ c, c / 16 = r → P c := by
  intro c hc
  have := h (c % 16) (by omega)
  rwa [show 16 * r + c % 16 = c by omega] at this

/-- The module with its firmware ready and feed A or both in use, region 15 in Run or not. -/
def powered (a b run : Bool) : State :=
  let s := ((State.reset.setFld Reg.HIF_STAT Fl.HIF_STAT_FW_READY 1).setFld Reg.PWR_STAT Fl.PWR_STAT_FEED_A_OK (bnum a)).setFld
    Reg.PWR_STAT Fl.PWR_STAT_FEED_B_OK (bnum b)
  s.setFld Reg.PWR_CURTAIN_STAT ⟨15, 1⟩ (bnum run)
theorem witness_feeds :
    let s := powered true true true; let t := powered true false true
    let r := { powered false true false with power.feedA := true }
    s.Settled ∧ s.flag Reg.PWR_STAT (feedFld false) = true ∧ s.flag Reg.PWR_STAT (feedFld true) = true ∧
      (r.Settled ∧ r.power.feedA = true ∧ r.flag Reg.PWR_STAT (feedFld false) = false ∧ r.power.legacyUp ≠ 3 ∧
        (∀ n < 8, r.domainOn (16 + n) = true → (r.fld Reg.PWR_LK_CTL Fl.PWR_LK_CTL_ON).testBit n = true)) ∧
      (t.Settled ∧ t.flag Reg.PWR_STAT (feedFld false) = true ∧ t.flag Reg.PWR_STAT (feedFld true) = false ∧ t.noRequests ∧ t.ctxs = [] ∧
        t.slots = [] ∧ t.inRun 15 = true) := by
  and_intros <;> first | decide +kernel | exact kv_idle _ (by decide +kernel) | exact ⟨by decide +kernel, by decide +kernel⟩ | (constructor <;> decide +kernel)

theorem witness_regions_up :
    let s := powered true true false
    let short := s.setFld (Reg.STG_REG_STAT 15) Fl.STG_REG_STAT_SHORT 1
    let w := ((s.setFld Reg.PWR_CURTAIN_STAT Fl.PWR_CURTAIN_STAT_BUSY 1).setFld Reg.PWR_CURTAIN_STAT Fl.PWR_CURTAIN_STAT_CURRENT
      15).setFld Reg.PWR_CURTAIN_STAT Fl.PWR_CURTAIN_STAT_WAIT_SLOT 1
    let h := (List.range 15).foldl (fun (s : State) r =>
      ((s.setSleep (16 * r) 0).setClaim (16 * r) 480 24).setFld (Reg.ARB_CAP r) Fl.ARB_CAP_CAP_A 0) w
    let p := { w with power.shortMay := [(15, true)] }
    let n := s.setStage 15 1
    let l := { s.setLoad ldPower 0 with blk.load := some ⟨0, true, [], [], []⟩, power.legacyUp := 3 }
    (s.Settled ∧ s.fwReady = true ∧ s.legacy = false ∧ s.inRun 15 = false ∧ s.stageOf 15 = 0 ∧ s.curtainBusy = false ∧
        s.power.curtainAsk = [] ∧ s.upBarred 15 = false ∧ s.slotBarred 15 = false) ∧
      (short.Settled ∧ short.flag (Reg.STG_REG_STAT 15) Fl.STG_REG_STAT_SHORT = true ∧ short.fwReady = true ∧
        short.stageOf 15 = 0 ∧ short.curtainBusy = false ∧ short.power.curtainAsk = []) ∧
      (w.waitsSlot 15 = true ∧ w.slotBarred 15 = false ∧ (∀ q < 16, w.stageOf q ≠ 1) ∧ w.hotNeighbours 15 = []) ∧
      (p.waitsSlot 15 = true ∧ p.slotBarred 15 = false ∧ sread (fun _ => false) p.power.shortMay 15 = true) ∧
      (h.waitsSlot 15 = true ∧ h.slotBarred 15 = false ∧ h.hotNeighbours 15 ≠ [] ∧ ∀ q ∈ h.hotNeighbours 15, h.ratesOk q) ∧
      (n.Settled ∧ n.stageOf 15 = 1 ∧ n.fld (Reg.STG_REG_STAT 15) Fl.STG_REG_STAT_FAILED = 0 ∧
        (n.setFld (Reg.STG_REG_STAT 15) Fl.STG_REG_STAT_FAILED 9).fld (Reg.STG_REG_STAT 15) Fl.STG_REG_STAT_FAILED = 9) ∧
      ((s.setStage 15 2).Settled ∧ (s.setStage 15 2).stageOf 15 = 2) ∧ (n.tracked = [] ∧ n.biWant = [] ∧ n.faults.replace.toList ++ n.faults.replaceQ = []) ∧
      (l.power.legacyUp = 3 ∧ l.loadState = ldPower) := by
  and_intros <;> first | decide +kernel | (constructor <;> decide +kernel) | (unfold State.ratesOk; decide +kernel)

theorem witness_regions_down :
    let s := powered true true true
    let b := boundTo 255 s
    let d := { s with power.curtainDowns := [[15]] }
    let k := s.setFld (Reg.STG_SLEEP_CFG 15) Fl.STG_SLEEP_CFG_UNBOUND_DARK 1
    let z := (List.range 16).foldl (fun (s : State) j => s.setSleep (240 + j) 3) k
    (s.Settled ∧ s.fwReady = true ∧ s.legacy = false ∧ s.regionBound 15 = false ∧ s.inRun 15 = true ∧ s.power.curtainDowns = [] ∧
        s.reverseOrder (2 ^ 15) = [15]) ∧
      (b.Settled ∧ b.regionBound 15 = true) ∧
      (let k := powered true true false
       k.Settled ∧ k.fwReady = true ∧ k.legacy = false ∧ k.regionBound 15 = false ∧ k.inRun 15 = false ∧ k.stageOf 15 = 0) ∧
      (d.Settled ∧ d.power.curtainDowns = [[15]] ∧ d.inRun 15 = true ∧ ∀ c, c / 16 = 15 → d.evalInFlight c = false) ∧
      (z.Settled ∧ z.inRun 15 = true ∧ z.keptUp = false ∧ z.legacy = false ∧ z.darkAllowed 15 = true ∧
        ∀ c, c / 16 = 15 → z.sleep c = 3 ∨ (z.coreIdle c = true ∧ z.scrubbing c = false)) ∧
      (let a := s.setSleep 255 0
       a.sleep 255 = 0 ∧ a.coreIdle 255 = true ∧ a.scrubbing 255 = false ∧ a.keptUp = false ∧ 255 ∉ a.waking ∧
         a.bound 255 = false ∧ a.woken 255 ≠ some a.now) ∧
      (z.sleep 255 = 3 ∧ 255 ∉ z.waking) := by
  and_intros <;> first | decide +kernel | (constructor <;> decide +kernel) | (apply of_region; decide +kernel)

theorem witness_power_failures :
    let s := powered true true true
    let n := s.setFld (Reg.STG_REG_STAT 15) Fl.STG_REG_STAT_FAILED 8
    let c := s.setFld (Reg.STG_REG_STAT 15) Fl.STG_REG_STAT_SHORT 1
    let b := { c with power.shortBar := [(15, true)], power.shortTry := [(15, some 0)] }
    s.Settled ∧ s.stageOf 15 = 0 ∧ sread (fun _ => false) s.power.convBad 63 = false ∧
      (s.rd (Reg.STG_REG_FAIL 15)).toNat.testBit 47 = false ∧ s.fld (Reg.STG_REG_STAT 15) Fl.STG_REG_STAT_FAILED + 1 < 9 ∧
      n.Settled ∧ n.fld (Reg.STG_REG_STAT 15) Fl.STG_REG_STAT_FAILED + 1 = 9 ∧ n.inRun 15 = true ∧
      n.faults.replace.toList ++ n.faults.replaceQ = [] ∧
      (∀ c, c / 16 = 15 → n.bound c = false) ∧ (n.rd (Reg.STG_REG_FAIL 15)).toNat.testBit 47 = false ∧
      c.flag (Reg.STG_REG_STAT 15) Fl.STG_REG_STAT_SHORT = true ∧ sread (fun _ => false) c.power.shortBar 15 = false ∧
      b.flag (Reg.STG_REG_STAT 15) Fl.STG_REG_STAT_SHORT = true ∧ sread (fun _ => false) b.power.shortBar 15 = true ∧
      sread (fun _ => none) b.power.shortTry 15 = some 0 ∧ b.now - 0 ≤ 4000000 := by
  and_intros <;> first | decide +kernel | (constructor <;> decide +kernel) | (apply of_region; decide +kernel)

theorem witness_skipping :
    let s := powered true true true
    s.biWant = [] ∧ s.droopOf 255 < (3 : Fin 4).val ∧ s.inRun 15 = true ∧ s.ratesOk 15 ∧ (s.feedAOk || s.feedBOk) = true ∧
      (∀ n < 8, s.domainOn (16 + n) = true → (0xFF : Byte).toNat.testBit n = true) := by
  and_intros <;> first | decide +kernel | (unfold State.ratesOk; decide +kernel)

theorem witness_samples_and_frames :
    let s := powered true true true
    let c := s.setFld (Reg.CNV_STAT 15) Fl.CNV_STAT_BUSY 1
    let frame : Nat → List Byte := fun flags => [0xA5, 7] ++ leBytes 2 2500 ++ leBytes 2 3500 ++ leBytes 2 65535 ++ leBytes 2 flags
    let good := fun flags => frame flags ++ leBytes 2 (crc16 (frame flags))
    let hot := { s with power.hottest := [(15, some 9500)] }
    let settled := { s with power.pairCounts := (List.range 8).map fun k => (15 * 8 + k, ⟨0, 1, 0, 0, 0, false⟩) }
    let judged := fun s : State => (sread (fun _ => none) s.power.hottest 15).all fun (k : Int) => decide (k < 9500)
    let paired := fun s : State => (List.range 8).all fun k => decide (0 < (s.pairCount 15 k).below)
    c.biWant = [] ∧ c.flag (Reg.CNV_STAT 15) Fl.CNV_STAT_BUSY = true ∧ { s with sec.ready := true }.sec.ready = true ∧ s.power.outHist.length < 109 ∧
      ((good 1).length = 12 ∧ leAt (good 1) 0 1 = 0xA5 ∧ crc16 (bytesAt (good 1) 0 10) = leAt (good 1) 10 2 ∧
        bitOf (leAt (good 1) 8 1) 0 = true ∧
        s.fld Reg.THM_FLOW_CFG Fl.THM_FLOW_CFG_STOP_PCT * s.power.flowSet ≤ 100 * leAt (good 1) 6 2) ∧
      ((good 0).length = 12 ∧ crc16 (bytesAt (good 0) 0 10) = leAt (good 0) 10 2 ∧ bitOf (leAt (good 0) 8 1) 0 = false) ∧
      crc16 (bytesAt (frame 1 ++ [0, 0]) 0 10) ≠ leAt (frame 1 ++ [0, 0]) 10 2 ∧
      (s.setFld Reg.THM_STAT Fl.THM_STAT_TRAY_SILENT 0).flag Reg.THM_STAT Fl.THM_STAT_TRAY_SILENT = false ∧
      judged s = true ∧ judged hot = false ∧ paired s = false ∧ paired settled = true := by
  and_intros <;> decide +kernel

theorem witness_flow_stops :
    let s := powered true true true
    let x := fun n => s.setFld Reg.THM_STAT Fl.THM_STAT_FLOW_STATE n
    let g := { (x 1).setFld Reg.THM_STAT Fl.THM_STAT_TRAY_SILENT 0 with power.trayFlow := some 65535 }
    (s.Settled ∧ s.noRequests ∧ s.flowState = flowNormal ∧ s.parts = []) ∧
      (g.Settled ∧ g.noRequests ∧ g.flowState ≠ flowNormal ∧ g.flowGood = true ∧ g.claimQ = [] ∧ g.refreshQ = [] ∧ g.inst = none) ∧
      ((x flowStopped).Settled ∧ ((x flowStopped).reverseOrder 0xFFFF).find? (x flowStopped).inRun = some 15 ∧
        (x flowStopped).flowState = flowStopped ∧ (x flowStopped).ctxs = [] ∧ (x flowStopped).slots = []) ∧
      (let d := { x flowDarked with power.flowDark := [14, 15] }
       d.Settled ∧ d.noRequests ∧ d.power.flowDark.find? d.inRun = some 15) ∧
      (let d := { s with power.flowDark := [15] }
       d.flowState = flowNormal ∧ d.power.flowDark.find? d.inRun = some 15) ∧
      { boundTo 255 s with blk.flowParts := [1] }.flowHeld 15 = true ∧
      (s.flag (Reg.THM_REGION_W3 15) Fl.THM_REGION_W3_TRIP = false ∧ s.inRun 15 = true ∧ s.stageOf 15 = 0 ∧
        s.faults.replace.toList ++ s.faults.replaceQ = [] ∧ ∀ c, c / 16 = 15 → s.bound c = false) := by
  and_intros <;> first | decide +kernel | exact kv_idle _ (by decide +kernel) | exact ⟨by decide +kernel, by decide +kernel⟩ | (constructor <;> decide +kernel) |
    (apply of_region; decide +kernel)

/-- Partition 1 on modules 0 and 1, led by one of them, loaded, with port 31 as its way for Prompt messages. -/
def spanning (lead st : Nat) : State :=
  { ((powered true true true).setPartState 1 st).setFld (Reg.LNK_PORT_STAT 31) Fl.LNK_PORT_STAT_STATE 3 with
    sec.ready := true
    parts := [(1, some { kvRec with modules := [0, 1], lead := lead })]
    routes := [⟨0, 1, 0, true, 1, 0, 255, 7, 0xFF, 31⟩] }
theorem witness_power_shifts :
    let q := fun lead => { kvRec with modules := [0, 1], lead := lead }
    let on := fun lead => ((spanning lead 3).setFld Reg.PWR_SLACK_CTL Fl.PWR_SLACK_CTL_EN 1).setFld Reg.PWR_SLACK_CTL Fl.PWR_SLACK_CTL_SHIFT_MAX_W 1
    let a : SlackRep := ⟨1, 0, 65535, 0, 0⟩; let b : SlackRep := ⟨1, 1, 0, 1, 0⟩
    let r := { on 0 with power.slackReps := [a, b] }
    let bs : List Byte := [1, 1, 0, 0, 0, 0, 0, 0, 0, 0, 0, 0x80, 0, 0, 0, 0]
    let g := { on 1 with slackIn := [(31, bs)] }
    (∀ lead ∈ [0, 1], (on lead).part 1 = some (q lead) ∧ 1 < (q lead).modules.length ∧ (on lead).loaded 1 = true ∧
        (on lead).flag Reg.PWR_SLACK_CTL Fl.PWR_SLACK_CTL_EN = true ∧ (on lead).sec.ready = true ∧
        ∀ k < 16, k ≠ 1 → (on lead).part k = none) ∧
      ((q 0).lead = (on 0).module ∧ (q 1).lead ≠ (on 1).module ∧ (on 1).promptPort 1 1 256 = some 31 ∧
        (on 1).portUp 31 = true) ∧
      (r.slackIn = [] ∧ r.power.slackReps = [a, b] ∧ a.src = r.module ∧ b.src ≠ r.module ∧ 0 < a.busy ∧ a.busy < 65536 ∧
        100 * b.busy ≤ 95 * a.busy ∧ 0 < b.offer ∧ r.power.shifts = [] ∧
        0 < r.fld Reg.PWR_SLACK_CTL Fl.PWR_SLACK_CTL_SHIFT_MAX_W) ∧
      (g.slackIn = [(31, bs)] ∧ leAt bs 0 1 = 1 ∧ leAt bs 1 1 = 1 ∧ g.partState 1 ≠ 5 ∧ g.power.shifts = [] ∧
        intOf 16 (leAt bs 10 2) ≠ 0 ∧ g.part 1 = some (q 1) ∧ g.loaded 1 = true) := by
  and_intros <;> decide +kernel

/-! ## Witnesses: the mesh, partitions over modules and Oluod ports -/

theorem witness_mesh_and_marks :
    let m := { netOf .put 254 .held with router := 255 }
    let s := fun c => { State.reset.setSleep 254 c with net := [m], routes := [⟨255, 1, 0, false, 0, 0, 255, 3, 1, 0⟩] }
    let here := { s 0 with net := [{ m with router := 254 }] }
    let bare := { s 0 with routes := [] }
    let k := { State.reset with regs := [(Reg.FAB_FMAP_CORE 7, 0), (Reg.FAB_FMAP_EAST 7, 0)] }
    let b := { State.reset with regs := [(Reg.FAB_FMAP_CORE 7, 0x80000000), (Reg.FAB_FMAP_EAST 7, 0x40000000)] }
    ({ here with regs := [(sleepReg 254, 0)] }.inDark 254 = false ∧ here.flowFirst { m with router := 254 } = true ∧
        (bare.setSleep 255 0).inDark 255 = false ∧ bare.flowFirst m = true ∧ (s 0).inDark 255 = true ∧
        { here with net := [{ m with id := 6 }, m] }.flowFirst m = false) ∧
    (here.findNet 7 = some { m with router := 254 } ∧ m.stage = .held ∧ m.dstModule = here.module ∧ m.orgModule = here.module) ∧
      (bare.findNet 7 = some m ∧ m.router ≠ m.dstCore ∧ bare.routeOf 255 1 0 0 254 = none) ∧
      (s 0).routeOf 255 1 0 0 254 = some ⟨255, 1, 0, false, 0, 0, 255, 3, 1, 0⟩ ∧
      (let r := { s 0 with regs := [(Reg.FAB_FMAP_CORE 7, 0), (Reg.FAB_FMAP_EAST 7, 0), (sleepReg 254, 0)] }
       r.hopBy 255 3 0 254 true = .router 254) ∧
      (let r := { s 0 with regs := [(Reg.FAB_FMAP_CORE 7, 0), (Reg.FAB_FMAP_EAST 7, 0x40000000), (sleepReg 254, 0)] }
       r.hopBy 255 3 0 254 true = .bad) ∧
      (let r := { s 0 with regs := [(Reg.FAB_FMAP_CORE 7, 0), (Reg.FAB_FMAP_SOUTH 7, 0), (sleepReg 251, 0)] }
       r.hopBy 255 0 0 254 true = .router 251) ∧
      (markOk 0 255 = true ∧ k.marked 0 255 = false ∧ b.marked 0 255 = true ∧ markOk 1 254 = true ∧
        k.marked 1 254 = false ∧ k.biWant = []) := by
  and_intros <;> decide +kernel

/-- Completions that an entry steers, by its port, by its detour, and by neither. -/
theorem witness_completions_are_steered :
    let m := { netOf .put 254 .answered with router := 254 }
    let r : Nat → Route := fun alt => ⟨254, 1, 0, false, 0, 255, 255, 1, alt, 0⟩
    let s := fun (alt east : Nat) => { State.reset with
      net := [m]
      routes := [r alt]
      regs := [(Reg.FAB_FMAP_CORE 7, 0), (Reg.FAB_FMAP_EAST 7, BitVec.ofNat 64 east), (Reg.FAB_FMAP_SOUTH 7, 0),
        (sleepReg 251, 0), (sleepReg 254, 0), (sleepReg 255, 0)] }
    ((s 0 0).inDark m.router = false ∧ (s 0 0).flowFirst m = true ∧ (s 0 0).flowFirst { m with status := stUnreachable } = true) ∧
    ({ s 0 0 with routes := [] }.backRoute m = none ∧ m.router ≠ m.orgCore) ∧ ((s 0 0).findNet 7 = some m ∧ m.stage = .answered ∧ (s 0 0).biWant = [] ∧ (s 0 0).backRoute m = some (r 0)) ∧
      (s 0 0).hopBy 254 1 0 255 true = .router 255 ∧ (s 0 0x40000000).hopBy 254 1 0 255 true = .bad ∧
      (s 0 0x40000000).hopBy 254 0 0 255 true = .router 250 ∧ m.vc ≠ 1 ∧ (r 0xFF).alt = 0xFF ∧
      (s 0xFF 0).backRoute m = some (r 0xFF) ∧ (s 0xFF 0).backRoute { m with router := 255 } = none := by
  and_intros <;> decide +kernel

theorem witness_partitions_beat :
    let q := fun lead => { kvRec with modules := [0, 1], lead := lead }
    let msg : Nat → PnBody → PnMsg := fun d b => ⟨4, d, 0, nodeStagehand 15, 1, 2, 0, b⟩
    let w := fun (s : State) m => { s with pn := [m] }
    let f := { spanning 0 5 with blk.beatSeq := [(1, 3)] }
    let h := f.setFld Reg.LNK_SPLIT_CTL Fl.LNK_SPLIT_CTL_HOLD 2
    let g := h.setFld Reg.LNK_SPLIT_STAT Fl.LNK_SPLIT_STAT_READY 2
    let frame : Nat → List Byte := fun n => leBytes 7 n
    let word : DWord := BitVec.ofNat 64 (16 + 2 ^ 56 * crc8 (frame 16))
    let bytes : DWord → List Byte := fun f => (List.range 7).map fun i => BitVec.ofNat 8 (f.toNat / 2 ^ (8 * i))
    let safe := State.reset.setFld Reg.FAB_SAFE Fl.FAB_SAFE_REGIONS (2 ^ 15)
    (∀ lead ∈ [0, 1], ∀ st ∈ [3, 5], (spanning lead st).part 1 = some (q lead) ∧ 1 < (q lead).modules.length ∧
        (spanning lead st).loaded 1 = true ∧ (spanning lead st).partState 1 = st ∧ (spanning lead st).otherMembers 1 = [1] ∧
        (spanning lead st).promptPort 1 1 nodeHost = some 31 ∧ (spanning lead st).portUp 31 = true) ∧
      ((w (spanning 1 3) (msg nodeHost (.partBeat 1 9 false))).findPn 4 = some (msg nodeHost (.partBeat 1 9 false)) ∧
        (msg nodeHost (.partBeat 1 9 false)).srcModule ≠ (spanning 1 3).module ∧
        (spanning 1 3).blk.flowParts.contains 1 = false ∧ (spanning 0 3).blk.flowParts.contains 1 = false) ∧
      ((spanning 1 3).beatLost 1 = true ∧ { spanning 0 3 with blk.beatSeq := [(1, 9)] }.beatLost 1 = true ∧
        (spanning 0 3).beatLost 1 = false ∧ { spanning 1 3 with blk.beatAt := [(1, some 0)] }.beatLost 1 = false ∧
        { State.reset with sec.mgmtTries := 3 }.sec.mgmtTries = 3) ∧
      ((spanning 0 3).noRequests ∧ f.noRequests ∧ f.ctxs = [] ∧ f.partState 1 = 5 ∧ f.silentMember 1 = false ∧
        f.blk.degraded = [] ∧ (f.fld Reg.LNK_SPLIT_CTL Fl.LNK_SPLIT_CTL_HOLD).testBit 1 = false ∧
        (h.fld Reg.LNK_SPLIT_CTL Fl.LNK_SPLIT_CTL_HOLD).testBit 1 = true ∧ h.partState 1 = 5 ∧
        (g.fld Reg.LNK_SPLIT_STAT Fl.LNK_SPLIT_STAT_READY).testBit 1 = true) ∧
      (w (spanning 0 3) (msg nodeHost (.partAck 1 9))).findPn 4 = some (msg nodeHost (.partAck 1 9)) ∧
      (w (spanning 0 3) (msg nodeHost (.fault 240 0x4C))).findPn 4 = some (msg nodeHost (.fault 240 0x4C)) ∧
      crc8 (bytes 0x1) ≠ bitsOf (0x1 : DWord).toNat 56 8 ∧
      (crc8 (bytes word) = bitsOf word.toNat 56 8 ∧ bitsOf word.toNat 8 8 = 0 ∧ bitsOf word.toNat 0 8 = 15 + 1 ∧
        safe.safeRegions.testBit 15 = true ∧ safe.claimQ = []) ∧
      State.reset.sec.mgmtTries < 3 ∧ State.reset.flag Reg.FAB_STAT Fl.FAB_STAT_MGMT_BREAK = false ∧
      State.reset.safeRegions.testBit 15 = false := by
  and_intros <;> first | decide +kernel | exact kv_idle _ (by decide +kernel) | exact ⟨by decide +kernel, by decide +kernel⟩

/-- Port 31 in a state, enabled, its domain on, with a peer. -/
def ported (st : Nat) (x : Port) : State :=
  (((powered true true true).setFld (Reg.LNK_PORT_STAT 31) Fl.LNK_PORT_STAT_STATE st).setFld (Reg.LNK_PORT_CTL 31)
    Fl.LNK_PORT_CTL_ENABLE 1 |>.setFld Reg.PWR_DOMAIN_STAT ⟨23, 1⟩ 1).setPort 31 x
theorem witness_ports :
    let s := fun st => ported st portNew
    let u := s 3
    let t := ported 2 { portNew with peer := some (0, 63, 31, 7) }
    let m := { netOf .put 254 .away with id := 7 }
    let f : TxFlit := ⟨0, 1, true, true, 0, 0, [], some 7, 0, 1⟩
    let l := { ported 3 { portNew with unacked := [f] } with net := [m] }
    let fl := fun type seq payload => flitBytes type true true 0 0 seq 0 false 0 0 payload
    let prompt : List Byte := (PnMsg.flits ⟨0, 272, 0, 273, 1, 5, 0, .partAck 15 9⟩).flatMap (leBytes 4)
    let arr := fun type seq => u.portUp 31 = true ∧ flitGood (fl type seq prompt) = true ∧ leAt (fl type seq prompt) 0 1 = type ∧
      bitOf (leAt (fl type seq prompt) 4 2) 15 = false ∧ (u.port 31).queued = []
    (u.biWant = [] ∧ u.fwReady = true ∧ u.lkOn 31 = true ∧ u.flag (Reg.LNK_PORT_CTL 31) Fl.LNK_PORT_CTL_ENABLE = true ∧
        u.portState 31 = 3 ∧ (s 0).portState 31 = 0 ∧ (s 4).portState 31 = 4 ∧ (s 1).portState 31 = 1 ∧ (s 1).lkOn 31 = true) ∧
      (t.portState 31 = 2 ∧ (t.port 31).peer = some (0, 63, 31, 7)) ∧
      ((l.port 31).unacked ++ (l.port 31).queued = [f] ∧ l.findNet 7 = some m ∧ m.orgModule = l.module ∧ l.portUp 31 = true) ∧
      (arr 0 0 ∧ arr 1 0 ∧ arr 2 0 ∧ arr 3 0 ∧ arr 1 1 ∧ arr 2 1 ∧ arr 3 1) ∧ (u.port 31).naks = [] ∧
      flitGood (List.replicate 256 0xFF) = false ∧ leAt (fl 1 0 prompt) 2 2 % 4096 = ((u.port 31).rxSeq + 1) % 4096 ∧
      leAt (fl 1 1 prompt) 2 2 % 4096 ≠ ((u.port 31).rxSeq + 1) % 4096 ∧
      (bitOf (leAt (fl 1 0 prompt) 1 1) 0 = true ∧ bitOf (leAt (fl 1 0 prompt) 1 1) 1 = true) ∧
      (let bs := fl 2 0 prompt
       let a := leAt (payloadOf bs) 0 4
       (payloadOf bs).length = 8 + 4 * bitsOf a 6 3 ∧ bitsOf a 19 6 = u.module ∧
         bodyOf (a % 64) ((List.range (bitsOf a 6 3)).map fun i => leAt (payloadOf bs) (8 + 4 * i) 4) = some (.partAck 15 9)) ∧
      (let p : List Byte := (PnMsg.flits ⟨0, 274, 0, 273, 1, 5, 0, .partAck 15 9⟩).flatMap (leBytes 4)
       let bs := fl 2 0 p
       let a := leAt (payloadOf bs) 0 4
       (payloadOf bs).length = 8 + 4 * bitsOf a 6 3 ∧ bitsOf a 19 6 = u.module ∧ bitsOf a 9 10 = 274 ∧ flitGood bs = true ∧
         bodyOf (a % 64) ((List.range (bitsOf a 6 3)).map fun i => leAt (payloadOf bs) (8 + 4 * i) 4) = some (.partAck 15 9)) ∧
      leAt (payloadOf (fl 3 0 [0, 0, 0, 0])) 3 1 = u.module ∧ flitGood (fl 4 0 []) = true ∧ leAt (fl 4 0 []) 0 1 = 4 ∧
      (s 2).portState 31 = 2 ∧ (u.port 31).peer ≠ some (0, 0, 0, 0) := by
  and_intros <;> decide +kernel

/-! ## Witnesses: images -/

/-- A section of an image. -/
def sectionOf (type records : Nat) (body : List Byte) : List Byte :=
  leBytes 2 type ++ leBytes 2 0 ++ leBytes 4 body.length ++ leBytes 4 records ++ leBytes 4 (crc32c body) ++ body
/-- An image of one partition and one role, with no code, placed on core 255 with its rations. -/
def imgPart (set : Nat) : List Byte :=
  [0, 0xFF] ++ leBytes 1 (if set = 1 then 1 else 2) ++ [0] ++ leBytes 2 1 ++ List.replicate 18 0 ++ leBytes 2 0xFFFF ++
    List.replicate 14 0 ++ leBytes 6 set ++ List.replicate 18 0
def imgBody (set : Nat) : List Byte :=
  sectionOf 1 1 (imgPart set) ++ sectionOf 2 1 [0, 0, 0, 6, 0, 0, 0, 0] ++ sectionOf 3 1 [255, 0, 0, 0, 0, 0, 0, 0] ++ sectionOf 4 0 [] ++
    sectionOf 5 0 [] ++ sectionOf 6 1 ([0, 0] ++ leBytes 2 960 ++ leBytes 2 24 ++ List.replicate 10 0) ++ sectionOf 7 0 [] ++
    sectionOf 8 0 [] ++ sectionOf 0xFFFF 0 []
def imgHead (set : Nat) : List Byte :=
  let r := fun o => (State.reset.rd o).toNat
  leBytes 4 0x4D49584B ++ leBytes 2 1 ++ leBytes 2 128 ++ leBytes 4 (128 + (imgBody set).length) ++ leBytes 2 9 ++ [1, 0] ++
    leBytes 3 (r Reg.ID_IDENT) ++ [0] ++ leBytes 2 (r Reg.ID_IDENT / 2 ^ 32) ++ [0, 0] ++ leBytes 3 (r Reg.ID_REVISION) ++ [0] ++
    leBytes 3 (r Reg.ID_REVISION) ++ [0] ++ leBytes 4 (r Reg.ID_PARAMS) ++ leBytes 4 (r Reg.ID_PARAMS_W1) ++
    leBytes 2 (r Reg.ID_PARAMS_W2) ++ List.replicate 82 0
def image (set : Nat) : List Byte := imgHead set ++ leBytes 4 (crc32c (imgHead set)) ++ imgBody set
/-- Its binding: partition 15, modules 0 and 1. -/
def bindHead : List Byte :=
  leBytes 4 0x4442584B ++ leBytes 2 1 ++ [0, 0] ++ List.replicate 16 15 ++ [0, 1] ++ List.replicate 226 0
def binding : List Byte := bindHead ++ leBytes 4 (crc32c bindHead)
/-- A load of it in a state, its region in Run. -/
def loading (st : Nat) (img bind : List Byte) : State :=
  let s := (powered true true true).setFld Reg.BLK_LOAD_LEN Fl.BLK_LOAD_LEN_BYTES (image 1).length
  let s := (s.setLoad st 0).setSleep 255 0
  { s with regs := (Reg.FAB_FMAP_CORE 7, 0) :: s.regs, blk.load := some ⟨15, true, img, bind, []⟩ }
/-- It loaded in slot 15. -/
def loadedSlot (set lead : Nat) : State :=
  { (((powered true true true).setBinding 255 (some 15) false).setBind 255 ⟨15, 0, 0, 6, 0, 960, 24⟩).setPartState 15 2 with
    slots := [(15, some ⟨image set, binding⟩)]
    parts := [(15, some { partRecOf binding 15 (imgPart set) with lead := lead })] }
def measured (s : State) : State :=
  let m := imageOf (image 1)
  (s.putDigest (Reg.BLK_MEAS 15) (shake256 ((image 1).take m.bytes) 32)).putDigest (fun j => Reg.BLK_MEAS 15 (8 + j)) (shake256 binding 32)
theorem witness_load_failure : (measured (cached (loading ldCheck [] []))).loadFailure (imageOf (image 1)) binding = none := by decide +kernel

theorem witness_images :
    let s := powered true true true
    let full := loadedSlot 1 0
    let l := loading ldCheck [] []
    let m := imageOf (image 1)
    s.biWant = [] ∧ s.noRequests ∧ s.loadIdle = true ∧ s.fwReady = true ∧ s.slotRec 15 = none ∧ full.loadIdle = true ∧
      full.slotRec 15 ≠ none ∧
      (l.blk.load = some ⟨15, true, [], [], []⟩ ∧ l.loadState = ldCheck ∧ l.biWant = [] ∧ l.noRequests ∧
        (cached l).cacheOk = true ∧ (cached l).blk.load = l.blk.load ∧ (cached l).loadState = ldCheck ∧ l.cacheOk = false ∧
        l.fld Reg.BLK_LOAD_LEN Fl.BLK_LOAD_LEN_BYTES = (image 1).length ∧ binding.length = 256 ∧ l.legacy = false ∧
        l.power.curtainAsk = [] ∧ m.places = [(255, 0)] ∧ l.inRun (regionOf 255) = true ∧ l.scrubbing 255 = false ∧ 255 ∉ l.blk.stale) ∧
      ((l.loadFailure (imageOf [0]) binding).any fun e => decide (e.1 < 256)) = true := by
  and_intros <;> first | decide +kernel | exact kv_idle _ (by decide +kernel) | exact ⟨by decide +kernel, by decide +kernel⟩

theorem witness_image_writes :
    let w := loading ldWrite (image 1) binding
    let k : LoadRec := ⟨15, true, image 1, binding, []⟩
    w.blk.load = some k ∧ w.loadState = ldWrite ∧ w.noHostLines ∧ w.noRequests ∧ k.cores = [255] ∧ w.sleep 255 = 0 ∧
      w.scrubbing 255 = false ∧ k.parts = [15] ∧ k.image.places = [(255, 0)] ∧ bindPart k.bind (k.image.rolePart 0) = 15 := by
  and_intros <;> first | decide +kernel | exact kv_idle _ (by decide +kernel) | exact ⟨by decide +kernel, by decide +kernel⟩

theorem witness_unloads :
    let full := loadedSlot 1 0
    let used := { full with ctxs := [(4095, { ctxZero with part := 15, st := .resident })] }
    let u := { full.setLoad ldUnloading 0 with blk.load := some ⟨15, false, [], [], []⟩ }
    (full.loadIdle = true ∧ full.faults.replace = none ∧ full.faults.replaceQ = [] ∧ full.slotRec 14 = none ∧
        full.slotRec 15 ≠ none ∧ full.slotInUse 15 = false ∧ full.bound 255 = true ∧ full.partOf 255 ∈ full.slotParts 15) ∧
      (let r := { full with faults.replace := some ⟨15, 255, 248, 0x41⟩ }
       r.biWant = [] ∧ r.noRequests ∧ r.faults.replace = some ⟨15, 255, 248, 0x41⟩ ∧ (r.part 15).any (fun q => q.slot == 15) = true) ∧
      (used.loadIdle = true ∧ used.slotInUse 15 = true ∧ used.slotRec 15 ≠ none) ∧
      (u.blk.load = some ⟨15, false, [], [], []⟩ ∧ u.loadState = ldUnloading ∧ u.biWant = [] ∧ u.noRequests) := by
  and_intros <;> first | decide +kernel | exact kv_idle _ (by decide +kernel) | exact ⟨by decide +kernel, by decide +kernel⟩

theorem witness_digests :
    let s := loadedSlot 3 0
    let own := partDigest binding (imgPart 3)
    let lead := { s with blk.digests := [(15, 0, own)] }
    (∀ x ∈ [loadedSlot 3 1, lead], x.biWant = [] ∧
        (x.reqs = [] ∧ x.host.parkDue = [] ∧ ∀ o ∈ x.kvOps, o.started = true) ∧ x.partState 15 = 2 ∧ x.ownDigest 15 = some own) ∧
      (loadedSlot 3 1).part 15 = some { partRecOf binding 15 (imgPart 3) with lead := 1 } ∧ (loadedSlot 3 1).module = 0 ∧
      (lead.part 15 = some (partRecOf binding 15 (imgPart 3)) ∧ (partRecOf binding 15 (imgPart 3)).lead = 0 ∧
        (partRecOf binding 15 (imgPart 3)).modules = [lead.module, 1] ∧ lead.digestFrom 15 lead.module = some own) := by
  and_intros <;> first | decide +kernel | exact ⟨by decide +kernel, by decide +kernel⟩

/-! ## Witnesses: rebinds and the host link -/

theorem witness_rebinds :
    let s := loadedSlot 1 0
    let m := s.wr (Reg.BLK_REBIND_MASK 7) (BitVec.ofNat 64 (2 ^ 30))
    let u : RebindRec := ⟨m.rebindMask, 15, true, true, 255⟩
    let k : RebindRec := ⟨[254], 15, false, true, 0⟩
    let b := { ((s.setRebind rbBusy 0 0).setSleep 254 0) with blk.rebind := some k }
    (s.biWant = [] ∧ s.rebindState ≠ rbBusy ∧ s.loadIdle = true ∧ s.fwReady = true ∧ s.faults.replace = none ∧
        s.faults.replaceQ = [] ∧ s.rebindFailure ⟨s.rebindMask, 15, false, true, 255⟩ = some (5, 0)) ∧
      (m.rebindMask = [254] ∧ m.rebindFailure u = none) ∧
      (b.biWant = [] ∧ b.blk.rebind = some k ∧ b.rebindReady k = true ∧ b.passes = [] ∧ b.noRequests ∧ b.noHostLines ∧
        (b.imageIn 15).isSome = true ∧ b.rebindReady { k with unbind := true } = true) := by
  and_intros <;> first | decide +kernel | exact kv_idle _ (by decide +kernel) | exact ⟨by decide +kernel, by decide +kernel⟩

def queueOf (state : Nat) (waiting : List Completion) : Queue :=
  ⟨state, 0, List.replicate 16 0 ++ [16, 4, 1, 1, 0xFF, 7, 9] ++ List.replicate 41 0, 0, 0, 0, 0, true, waiting, 1, 0⟩
theorem witness_host_link :
    let s := { State.reset with sec.powered := true }
    let l := { linked 0 s with queues := [(4095, queueOf qActive [⟨[], true⟩])] }
    (s.host.perst = false ∧ s.sec.powered = true ∧ s.linkUp = false) ∧ (l.cxl = true ∧ l.biWant = [] ∧ l.noRequests ∧ l.ctxs = []) ∧
      0 < (l.setFld Reg.HIF_QTABLE_COUNT Fl.HIF_QTABLE_COUNT_COUNT 1).fld Reg.HIF_QTABLE_COUNT Fl.HIF_QTABLE_COUNT_COUNT ∧
      (l.linkUp = true ∧ l.LinkFree ∧ l.queue 4095 = queueOf qActive [⟨[], true⟩] ∧ (queueOf qActive [⟨[], true⟩]).state ≠ qDisabled) := by
  and_intros <;> first | decide +kernel | exact kv_idle _ (by decide +kernel) | exact ⟨by decide +kernel, by decide +kernel⟩ | (constructor <;> first | decide +kernel | exact kv_idle _ (by decide +kernel))

theorem witness_queues :
    let s := linked 0 ((powered true true true).setFld Reg.HIF_QTABLE_COUNT Fl.HIF_QTABLE_COUNT_COUNT 4096)
    let w := fun state c => { s with queues := [(4095, queueOf state c)] }
    let body : List Byte := (queueOf 0 []).entry.take 60
    let bad : List Byte := [1] ++ body.tail
    let e := fun b : List Byte => b ++ leBytes 4 (crc32c b)
    (s.biWant = [] ∧ 4095 < s.fld Reg.HIF_QTABLE_COUNT Fl.HIF_QTABLE_COUNT_COUNT ∧ s.fwReady = true ∧
        (s.queue 4095).state = qDisabled ∧ s.cxl = true ∧ (s.setFld Reg.HIF_STAT Fl.HIF_STAT_CXL 0).cxl = false ∧
        (s.setFld Reg.HIF_STAT Fl.HIF_STAT_FW_READY 0).fwReady = false) ∧
      (∀ st ∈ [qActive, qError, qEnabling, qDraining], ∀ c ∈ [[], [(⟨[], true⟩ : Completion)]], ((w st c).queue 4095).state = st ∧
        ((w st c).queue 4095).waiting = c ∧ (w st c).openReqs 4095 = [] ∧ (w st c).linkUp = true) ∧
      (let r := { s with reqs := [{ reqOf 6 4095 0 0 (descOf 1 8) [] none with started := true }] }
       { r with queues := [(4095, queueOf qError [])] }.openReqs 4095 ≠ []) ∧
      (s.setFld Reg.HIF_QTABLE_COUNT Fl.HIF_QTABLE_COUNT_COUNT 4095).fld Reg.HIF_QTABLE_COUNT Fl.HIF_QTABLE_COUNT_COUNT ≤ 4095 ∧
      ((e body).length = 64 ∧ crc32c ((e body).take 60) = leAt (e body) 60 4 ∧ entryBad (e body) = false) ∧
      ((e bad).length = 64 ∧ crc32c ((e bad).take 60) = leAt (e bad) 60 4 ∧ entryBad (e bad) = true) ∧
      (List.replicate 64 (1 : Byte)).length = 64 ∧
      crc32c ((List.replicate 64 1).take 60) ≠ leAt (List.replicate 64 1) 60 4 ∧
      ((queueOf qActive []).sqSize = 65536 ∧ (queueOf qActive []).cqSize = 16 ∧ (65535 : Word).toNat < 65536 ∧
        16 ≤ (16 : Word).toNat) ∧
      (let q := { queueOf qActive [] with entry := List.replicate 16 0 ++ [16, 4, 1, 1, 0xFF, 7, 9, 0, 5] ++ List.replicate 39 0 }
       q.irqEn = true ∧ q.coalTicks ≠ 0 ∧ 0 < q.unsignalled) ∧
      (let m : PnMsg := ⟨9, nodeHost, 0, 255, 0, 7, 0, .regResp 0 5⟩
       let r := { s with host.reads := [(7, 0x4000000, 8)], pn := [m] }
       let z := { s with pn := [m] }
       r.findPn 9 = some m ∧ r.host.reads.find? (fun r => r.1 == m.tag) = some (7, 0x4000000, 8) ∧ z.findPn 9 = some m ∧
         z.host.reads.find? (fun r => r.1 == m.tag) = none) ∧
      ({ s with host.reads := [(7, 0x4000000, 8)] }).host.reads = (7, 0x4000000, 8) :: [] := by
  and_intros <;> decide +kernel

/-! ## Witnesses: the aperture -/

theorem witness_aperture :
    let s := (linked 1 (powered true true true)).setSleep 255 0
    let p := s.setEcc 255 0x7FFFFF8 .poisoned
    let b := s.setFld (Reg.CORE_STAT 255) Fl.CORE_STAT_SCRUB_BUSY 1
    let w : ApWrite := ⟨255, 0x7FFFFC0, [1], BitVec.allOnes 64⟩
    let x : ScrubWrite := ⟨255, 0x7FFFFF8, List.replicate 8 0xA5, []⟩
    let n := { s with biSent := [255 * 2097152 + 2097151] }
    let f : RFmt := ⟨1, 0, 0, 0, 8⟩
    let l := { at5 255 (f.word 0x10) State.reset with tracked := [(pantryKey 255 8 / 64, true)] }
    let h := { s with host.flying := [(65536, 0x1040, 16)] }
    (∀ a ∈ [(0 : DWord), 0x7FFFFFFFF], s.Aperture a) ∧ apCore (0x7FFFFFFC0 : DWord).toNat = 255 ∧
      apLine (0x7FFFFFFC0 : DWord).toNat = 0x7FFFFC0 ∧ s.sleep 255 < 3 ∧ 3 ≤ s.sleep 254 ∧ s.scrubbing 255 = false ∧
      s.writable 255 ∧
      (∀ k < 8, s.ecc 255 (0x7FFFFC0 + 8 * k) = .clean ∨ (k = 8 ∧ s.ecc 255 (0x7FFFFC0 + 8 * k) = .poisoned)) ∧
      (∀ k < 8, p.ecc 255 (0x7FFFFC0 + 8 * k) = .clean ∨ (k = 7 ∧ p.ecc 255 (0x7FFFFC0 + 8 * k) = .poisoned)) ∧
      p.ecc 255 (0x7FFFFC0 + 8 * 7) = .poisoned ∧ (s.tracked.length < snoopSize ∧ p.Aperture 0x7FFFFFFC0) ∧
      ((linked 0 s).linkUp = true ∧ (linked 0 s).memEn = false) ∧
      (b.scrubbing 255 = true ∧ b.Settled ∧ b.host.apWrites = [] ∧ b.scrubWrites = [] ∧
        b.flag Reg.DUMP_STAT Fl.DUMP_STAT_RETAINED = false ∧ { b with scrubWrites := [x] }.Settled ∧
        { b with scrubWrites := [x] }.noHostLines ∧ x.core = 255 ∧ x.off % 8 = 0 ∧ x.off + 8 ≤ pantrySize ∧ x.data.length = 8 ∧ b.Aperture 0x7FFFFFFC0 ∧
        { b with host.apWrites := [w] }.Settled ∧ w.core = 255 ∧ w.off % 64 = 0 ∧ w.off < pantrySize ∧ w.be = BitVec.allOnes 64) ∧
      ((0x1FFFFFFF : DWord).toNat ∈ n.biSent ∧ apCore (64 * (0x1FFFFFFF : DWord).toNat) = 255 ∧
        { b with biSent := n.biSent }.scrubbing 255 = true ∧ b.sleep 255 < 3) ∧
      (f.resv = 0 ∧ l.AddrOk 255 f 8 ∧ l.ecc 255 (l.loadAddr 255 f).toNat = .clean ∧ l.Ready 255 (f.word 0x10) (l.pcNext 255) ∧
        l.biWant = [] ∧ l.tracked = [(pantryKey 255 (l.loadAddr 255 f).toNat / 64, true)]) ∧
      s.flyingOver 0x1040 = false ∧ h.flyingOver 0x1040 = true := by
  and_intros <;> first | decide +kernel | exact ⟨by decide +kernel, by decide +kernel⟩ | (constructor <;> decide +kernel) |
    (intro a h; simp only [List.mem_cons, List.not_mem_nil, or_false] at h; rcases h with rfl | rfl <;> constructor <;> decide +kernel)

/-- A full snoop filter leaves no room for a line that it does not hold. -/
theorem full_filter (n line : Nat) (h7 : line ≠ 7) (h8 : line ≠ 8) :
    let ls := (7, false) :: List.replicate n (8, true)
    ls.length = n + 1 ∧ (ls.any fun l => l.1 == line) = false := by
  refine ⟨by simp, ?_⟩
  simp only [List.any_cons, List.any_replicate]
  have a : ((7 : Nat) == line) = false := by simp; omega
  have b : ((8 : Nat) == line) = false := by simp; omega
  simp [a, b]
theorem witness_full_filter : ∃ s : State, s.Aperture 0x7FFFFFFC0 ∧ s.sleep 255 < 3 ∧
    (∃ l ls, s.tracked = l :: ls) ∧
    ¬((1 : Fin 3).val = 0 ∨ s.tracked.length < snoopSize ∨ (s.tracked.any fun l => l.1 == (0x7FFFFFFC0 : DWord).toNat / 64) = true) := by
  obtain ⟨hl, ha⟩ := full_filter (snoopSize - 1) ((0x7FFFFFFC0 : DWord).toNat / 64) (by decide) (by decide)
  let s := (linked 1 State.reset).setSleep 255 0
  refine ⟨{ s with tracked := (7, false) :: List.replicate (snoopSize - 1) (8, true) }, ⟨?_, ?_, by decide⟩, ?_, ⟨_, _, rfl⟩, ?_⟩
  · exact (by decide +kernel : s.linkUp = true)
  · exact (by decide +kernel : s.memEn = true)
  · exact (by decide +kernel : s.sleep 255 < 3)
  · rintro (h | h | h)
    · exact absurd h (by decide)
    · exact absurd (hl ▸ h) (by decide)
    · exact absurd (ha ▸ h) (by decide)

/-! ## Witnesses: boot, attestation, faults and dumps -/

/-- A firmware image of a version, by its header. -/
def fwOf (slot svn : Nat) : List Byte := List.replicate 6 0 ++ [BitVec.ofNat 8 slot, 0] ++ leBytes 2 7 ++ leBytes 2 svn
/-- The firmware running from copy 0, its store's copy 1 of another version. -/
def fwRunning (state : Nat) : State :=
  let s := (State.reset.setFld Reg.SEC_BOOT_STAT Fl.SEC_BOOT_STAT_STAGE 1).setFld Reg.SEC_FW_STAT Fl.SEC_FW_STAT_STATE state
  let s := s.setFld Reg.SEC_FW_VERSION Fl.SEC_FW_VERSION_SVN 6
  { s with sec.copyA := some (fwOf 3 6), sec.copyB := some (fwOf 2 9), regs := (Reg.SEC_SVN_FUSED, 5) :: s.regs }
theorem witness_boots :
    let s := { State.reset with sec.powered := true }
    let low := { s with sec.inReset := true }
    let kept := s.setFld Reg.DUMP_STAT Fl.DUMP_STAT_RETAINED 1
    let rom := fun (n c : Nat) => { s with sec.romPhase := n, sec.romCopy := c, sec.copyA := some [], sec.copyB := some [] }
    (s.sec.powered = true ∧ s.sec.inReset = false ∧ low.sec.inReset = true ∧ { s with sec.powered := false }.sec.powered = false) ∧
      (s.flag Reg.DUMP_STAT Fl.DUMP_STAT_RETAINED = false ∧ kept.flag Reg.DUMP_STAT Fl.DUMP_STAT_RETAINED = true) ∧
      (∀ n ∈ [1, 2], ∀ c ∈ [0, 1], (rom n c).fwError ((rom n c).firmware c) = 1) ∧
      ((rom 3 1).sec.romPhase = 3 ∧ (rom 3 1).sec.romCopy < 2 ∧ (fwRunning 0).fwRuns = true) := by
  and_intros <;> decide +kernel

theorem witness_firmware_updates :
    let s := fwRunning
    let long := (s 0).setFld Reg.SEC_FW_LEN Fl.SEC_FW_LEN_BYTES (2 ^ 22 + 1)
    let old := { s 0 with regs := (Reg.SEC_SVN_FUSED, 6) :: (s 0).regs.tail }
    let up := linked 0 (s 1)
    let up := up.setFld Reg.HIF_STAT Fl.HIF_STAT_CACHE_EN 1
    (s 0).biWant = [] ∧ (s 0).fwRuns = true ∧ (s 0).fwState = 0 ∧ (s 5).fwState = 5 ∧ (s 3).fwState = 3 ∧
      (s 0).fld Reg.SEC_FW_LEN Fl.SEC_FW_LEN_BYTES ≤ 2 ^ 22 ∧ 2 ^ 22 < long.fld Reg.SEC_FW_LEN Fl.SEC_FW_LEN_BYTES ∧
      ((s 1).fwState = fwFetch ∧ (s 1).sec.romPhase ≠ 4 ∧ up.fwState = fwFetch ∧ up.cacheOk = true ∧ up.fwError [] ≠ 0) ∧
      ((s 4).fwState = fwStaged ∧ (s 0).fwState ≠ fwStaged) ∧
      ((s 0).minSvn = 5 ∧ (s 0).minSvn < (s 0).fld Reg.SEC_FW_VERSION Fl.SEC_FW_VERSION_SVN ∧
        (s 0).fld Reg.SEC_FW_VERSION Fl.SEC_FW_VERSION_SVN ≤ fwSvn ((s 0).firmware (1 - (s 0).runningCopy)) ∧
        old.fld Reg.SEC_FW_VERSION Fl.SEC_FW_VERSION_SVN ≤ old.minSvn ∧
        fwSlot ((s 0).firmware (s 0).runningCopy) = 3 ∧ fwSlot ((s 0).firmware (s 0).runningCopy) ≠ 0) ∧
      ({ State.reset with sec.busIndex := 15 }.sec.busIndex = 15 ∧ State.reset.sec.powered = true) := by
  and_intros <;> decide +kernel

theorem witness_attestation :
    let s := fun (st : Nat) session fin => { State.reset with sec.ready := true, sec.spdm := ⟨st, [], session, fin, 0⟩ }
    let d := { s 3 none false with faults.dump := some ⟨0x62, 0, 0, 0, false, 0⟩ }
    State.reset.sec.ready = false ∧ (d.sec.ready = true ∧ d.faults.dump.isSome = true) ∧
      (∀ st ∈ [1, 2, 3], (s st none false).sec.ready = true ∧ (s st none false).faults.dump = none ∧
        (s st none false).sec.spdm.state = st ∧ (s st none false).idFail = false) ∧
      ((s 3 none false).setFld Reg.SEC_BOOT_STAT Fl.SEC_BOOT_STAT_ID_FAIL 1).idFail = true ∧
      (s 3 (some 1) false).sec.spdm.session.isSome = true ∧ (s 3 (some 1) false).sec.spdm.finished = false ∧
      (s 3 (some 1) true).sec.spdm.finished = true := by
  and_intros <;> decide +kernel

/-- The image in slot 15 with its partition in a state, and a swing core in the die of its core 255. -/
def faulty (part auto : Nat) : State :=
  let s := ((loadedSlot 1 0).setPartState 15 part).setSleep 255 0
  let s := ((s.setBinding 248 (some 15) true).setBind 248 ⟨15, 1, 4, 0, 0, 0, 0⟩).setBind 255 ⟨15, 0, 1, 0, 0, 960, 24⟩
  let s := s.setFld Reg.DUMP_FLT_CTL Fl.DUMP_FLT_CTL_AUTO_REPLACE auto
  { s with regs := (Reg.FAB_FMAP_CORE 7, 0) :: s.regs }
theorem witness_faults :
    let s := faulty 3
    let m : PnMsg := ⟨7, nodeStagehand 15, 0, 255, 0, 0, 0, .heartbeat 1⟩
    let n : PnMsg := ⟨7, nodeManager, 0, 255, 0, 0, 0, .fault 255 0x13⟩
    let w := fun m => { s 0 with pn := [m] }
    let q := { s 0 with passes := [⟨9, 15, 0, [], none, 1, [], false, false, [], 6, 1023, 0, 0, 0, []⟩], now := 4000 }
    let since := fun (q : State) ms t => { q with faults.noticed := [(15, some (ms, t))], faults.beats := [(255, some (1, t))] }
    let again := { q with faults.restartAt := [(15, some 0)] }
    let u := (s 0).setBinding 255 none false
    ((s 0).Quiet ∧ (∀ c ∈ [252, 253, 254, 255], (s 0).storming c = false)) ∧
      ((w m).Quiet ∧ (w m).findPn 7 = some m) ∧
      ((s 0).sleep 255 < 3 ∧ (s 0).silent 255 = true ∧ (s 0).faults.dead.contains 255 = false ∧ (s 0).blk.load = none ∧ (s 0).faults.replace = none ∧
        (s 0).faults.replaceQ = [] ∧ u.bound 255 = false ∧ u.Quiet ∧ (s 0).bound 255 = true ∧ (s 0).loaded 15 = true ∧
        (s 0).partOf 255 = 15 ∧ (s 0).partState 15 = 3 ∧ (s 0).flag Reg.DUMP_FLT_CTL Fl.DUMP_FLT_CTL_AUTO_REPLACE = false) ∧
      ((s 1).Quiet ∧ (s 1).replaceBar 255 = none ∧ (s 1).freeSwing 255 = some 248 ∧ (s 1).noHostLines) ∧
      (q.Quiet ∧ q.stallDue 15 = true ∧ (since q 1 0).stallDue 15 = true ∧ (since q 1 1).stallDue 15 = false ∧
        (since q 0 0).stallDue 15 = false ∧ (since q 1 3600).silent 255 = true ∧ (since q 1 3601).silent 255 = false ∧ q.silent 255 = true ∧
        q.justRestarted 15 = false ∧ again.justRestarted 15 = true) ∧
      ((w n).Quiet ∧ (w n).findPn 7 = some n ∧ n.srcModule = (w n).module ∧ (w n).justRestarted 15 = false ∧ (w n).loadState ≠ ldWrite) := by
  and_intros <;> first | decide +kernel | exact kv_idle _ (by decide +kernel) | exact ⟨by decide +kernel, by decide +kernel⟩ |
    (constructor <;> first | decide +kernel | exact kv_idle _ (by decide +kernel) |
      exact no_requests _ (by decide +kernel) | exact ⟨by decide +kernel, by decide +kernel⟩)

theorem witness_replacements :
    let s := fun st => ({ faulty 4 1 with faults.replace := some ⟨15, 255, 248, 0x40⟩ } : State).setReplace st
    let k : Ctx := { ctxZero with part := 15, st := .resident }
    (∀ st ∈ [rpMoving, rpHost, rpRestoring], (s st).faults.replace = some ⟨15, 255, 248, 0x40⟩ ∧ (s st).faults.replaceQ = [] ∧
        ((s st).tracked = [] ∧ (s st).biWant = []) ∧ (s st).partState 15 ≠ 5 ∧ (s st).replaceState = st ∧
        ((s st).setSleep 248 0).sleep 248 = 0 ∧
        ((s st).setSleep 248 0).scrubbing 248 = false ∧ (s st).scrubbing 248 = false ∧ (cached (s st)).cacheOk = true ∧ ((s st).imageIn 15).isSome = true ∧ (s st).layerKv = [] ∧ (s st).faults.lost = []) ∧
      (s rpMoving).Quiet ∧ (faulty 3 0).partState 15 ≠ 4 ∧ (faulty 3 0).partState 15 ≠ 5 ∧ (faulty 4 0).partState 15 = 4 ∧
      k.part = 15 ∧ k.st = .resident := by
  and_intros <;> first | decide +kernel | exact kv_idle _ (by decide +kernel) |
    (constructor <;> first | decide +kernel | exact kv_idle _ (by decide +kernel) |
      exact no_requests _ (by decide +kernel) | exact ⟨by decide +kernel, by decide +kernel⟩)

theorem witness_dumps :
    let d := fun trunk => ({ State.reset with faults.dump := some ⟨0x62, 0, 0, 0, trunk, 0⟩ } : State)
    let head := leBytes 4 0x5044584B ++ leBytes 4 1 ++ leBytes 4 256 ++ List.replicate 240 0
    let kept := (State.reset.putBytes 240 0x7800000 (head ++ leBytes 4 (crc32c head))).setFld Reg.DUMP_STAT Fl.DUMP_STAT_RETAINED 1
    (State.reset.Quiet ∧ State.reset.faults.dump = none ∧ State.reset.rd Reg.HIF_TRUNK_BASE = 0) ∧
      (∀ t ∈ [true, false], (d t).biWant = [] ∧ (d t).faults.dump = some ⟨0x62, 0, 0, 0, t, 0⟩ ∧ (d t).host.snoops = [] ∧
        (d t).sec.spdmHeld = [] ∧ (cached (d t)).cacheOk = true ∧ (cached (d t)).faults.dump = (d t).faults.dump ∧
        (d t).cacheOk = false ∧ State.reset.replacements < 1024) ∧
      (State.reset.flag Reg.DUMP_STAT Fl.DUMP_STAT_RETAINED = false ∧ kept.flag Reg.DUMP_STAT Fl.DUMP_STAT_RETAINED = true ∧
        (kept.retainedDump 15).isSome = true ∧ ∀ k < 15, kept.retainedDump k = none) := by
  and_intros <;> first | decide +kernel | exact kv_idle _ (by decide +kernel) |
    (constructor <;> first | decide +kernel | exact kv_idle _ (by decide +kernel) |
      exact no_requests _ (by decide +kernel) | exact ⟨by decide +kernel, by decide +kernel⟩)

theorem witness_canonical_step :
    let s := State.reset.with .fwReady
    s.canonical = true ∧ goesOn s = true ∧ goesOn State.reset = true ∧ State.reset.finishing = false := by
  and_intros <;> decide +kernel

end Sys2Proof.Tests
end

section
/-! PROOFS. Register accesses of a core window that takes them, and the writes and the read of O35 that act: the clear of the
saturation count, borrows, captures and the record latch (R71, R141, R220, R221, R229, R651). -/

namespace Sys2Proof.Machine

/-! ## Fields of words given as numbers -/

/-- A field of a word that is given as a number. -/
theorem Fld.get_ofNat (f : Fld) (n : Nat) (hn : n < 2 ^ 64) :
    f.get (BitVec.ofNat 64 n) = n / 2 ^ f.lsb % 2 ^ f.width := by
  simp only [Fld.get, BitVec.toNat_ushiftRight, BitVec.toNat_ofNat, Nat.shiftRight_eq_div_pow, Nat.mod_eq_of_lt hn]

/-- A number below `2 ^ n` shares no bit with a mask whose lowest bit is `n` or higher. -/
theorem and_shiftLeft_of_lt (v m : DWord) (n : Nat) (hv : v.toNat < 2 ^ n) : v &&& (m <<< n) = 0 := by
  apply BitVec.eq_of_getLsbD_eq
  intro i hi
  by_cases hin : i < n
  · simp [hin]
  · have hbit : v.getLsbD i = false :=
      Nat.testBit_lt_two_pow (hv.trans_le (Nat.pow_le_pow_right (by decide) (Nat.le_of_not_lt hin)))
    simp [hbit]

/-- The low half of a word widened is the word. -/
theorem setWidth_low (v : Word) : (v.setWidth 64).setWidth 32 = v := by
  rw [BitVec.setWidth_setWidth_of_le v (by decide), BitVec.setWidth_eq]

/-! ## One register written -/

theorem State.regsKept_wr (s : State) (o : Nat) (v : DWord) : RegsKept s (s.wr o v) [o] :=
  fun j hj => s.rd_wr_other o v j (by simpa using hj)

theorem State.onlyRegs_wr (s : State) (o : Nat) (v : DWord) : OnlyRegs s (s.wr o v) := rfl

/-- A command whose outcome wants no back-invalidate is not held back. -/
theorem State.settle_of_still (s t : State) (h : t.biWant = []) : s.settle t = t := by
  simp [State.settle, h]

/-! ## Accesses to a core window (R15, R22, R223) -/

/-- An offset of a core window lies in that core's window, in the block that R223 names. -/
theorem locate_coreWin (c : CoreId) (o : Nat) (ho : o < 0x40000) :
    locate (coreWin c + o) = some (c.val, coreBlockOf o) := by
  have hc := c.isLt
  have hoff : coreWin c + o - 0x04000000 = o + 0x40000 * c.val := by unfold coreWin; omega
  have hlow : ¬ coreWin c + o < 0x01000000 := by unfold coreWin; omega
  have hmid : ¬ coreWin c + o < 0x02000000 := by unfold coreWin; omega
  have hin : 0x04000000 ≤ coreWin c + o ∧ coreWin c + o < 0x08000000 := by unfold coreWin; omega
  simp only [locate, if_neg hlow, if_neg hmid, if_pos hin, hoff, Nat.add_mul_mod_self_left, Nat.mod_eq_of_lt ho,
    Nat.add_mul_div_left o c.val (by decide : 0 < 0x40000), Nat.div_eq_of_lt ho, Nat.zero_add]

theorem coreWin_add_mod_four (c o : Nat) : (coreWin c + o) % 4 = o % 4 := by
  unfold coreWin; omega

theorem coreBlockOf_ofCore (o : Nat) : (coreBlockOf o).1.ofCore = true := by
  unfold coreBlockOf
  split_ifs <;> rfl

/-- No block belongs to core windows and region windows both. -/
theorem Block.ofRegion_of_ofCore (b : Block) (h : b.ofCore = true) : b.ofRegion = false := by
  cases b <;> simp_all [Block.ofCore, Block.ofRegion]

section
variable {s : State} {c : CoreId} {b : Block} (h : s.CoreTakes c) (hb : b.ofCore = true)
include h hb

theorem State.CoreTakes.powered (p : Nat) : s.unpowered c b p = false := by
  have hon := h.on
  have hlnk : (b == Block.lnk) = false := by cases b <;> simp_all [Block.ofCore]
  simp [State.unpowered, hlnk, Nat.not_le.2 hon]

theorem State.CoreTakes.unloaded : s.inWrite c b = false := by
  have hfree := h.free
  rw [State.inWrite, show Block.ofCore .core = b.ofCore from hb.symm] at hfree
  exact hfree

end

/-- A register whose accepted writes take effect at once: some field is writable, none is staged, and not all are W1C. -/
def RegDesc.direct (d : RegDesc) : Bool := d.writable && !d.hasClass .staged && !d.onlyClears

/-- A write of a direct register is carried out unless it sets a reserved bit, finds its owner busy or has a reserved value
(R15, R20, R21). -/
theorem State.writeReg_direct {s : State} {i : Nat} {b : Block} {o off : Nat} {d : RegDesc} {v : DWord}
    (hd : d.direct = true) (hv : v &&& d.reservedBits = 0) (hidle : s.idleFor i b off = true)
    (hok : valueOk off b o v = true) : s.writeReg i b o off d v = s.act i b o off d v := by
  simp only [RegDesc.direct, Bool.and_eq_true, Bool.not_eq_true'] at hd
  obtain ⟨⟨hwritable, hstaged⟩, hclears⟩ := hd
  simp [State.writeReg, hwritable, hstaged, hclears, hv, hidle, hok]

/-- A write of a 32-bit register at its offset, outside the SEQ block, whose CODE_DATA refuses it, and outside the region
windows, which the mirror takes. -/
theorem State.writeWord_narrow {s : State} {i off p : Nat} {b : Block} {d : RegDesc} {v : Word}
    (hloc : locate off = some (i, b, p)) (hpow : s.unpowered i b p = false) (hload : s.inWrite i b = false)
    (hseq : b ≠ .seq) (hregion : b.ofRegion = false) (hfind : findReg b p = some d) (hnarrow : d.wide = false) :
    s.writeWord off v = s.writeReg i b p off d (v.setWidth 64) := by
  simp [State.writeWord, hloc, hpow, hload, hseq, hregion, hfind, hnarrow, State.mirrorWrite]

theorem State.busWrite_word (s : State) {off : Nat} (v : Word) (h4 : off % 4 = 0) :
    s.busWrite off 4 (v.setWidth 64) = s.writeWord off v := by
  rw [State.busWrite, if_pos ⟨rfl, h4⟩, setWidth_low]

/-- A 32-bit write command to a 32-bit register of a core window that takes it writes that register. -/
theorem put32_coreWin {s t : State} {c : CoreId} {b : Block} {o p : Nat} {d : RegDesc} {v : Word} (h : s.CoreTakes c)
    (ho : o < 0x40000) (ho4 : o % 4 = 0) (hbp : coreBlockOf o = (b, p)) (hseq : b ≠ .seq)
    (hfind : findReg b p = some d) (hnarrow : d.wide = false)
    (hwrite : s.writeReg c b p (coreWin c + o) d (v.setWidth 64) = t) (ht : t.biWant = []) :
    put32 (coreWin c + o) v s = .next t := by
  have hb : b.ofCore = true := by simpa [hbp] using coreBlockOf_ofCore o
  have hloc : locate (coreWin c + o) = some (c.val, b, p) := by rw [locate_coreWin c o ho, hbp]
  have hbus : s.busWrite (coreWin c + o) 4 (v.setWidth 64) = t := by
    rw [s.busWrite_word v (by rw [coreWin_add_mod_four, ho4]), State.writeWord_narrow hloc (h.powered hb p)
      (h.unloaded hb) hseq (b.ofRegion_of_ofCore hb) hfind hnarrow, hwrite]
  rw [put32, put, hbus, State.settle_of_still s t ht]

/-! ## The saturation count (R70, R71) -/

/-- Any write of RND.SAT_COUNT_CLEAR sets RND.SAT_COUNT to 0. -/
theorem exec_satCountClear {s : State} {c : CoreId} (h : s.CoreTakes c) (v : Word) :
    exec (.satCountClear c v) s = .next (s.wr (Reg.RND_SAT_COUNT c) 0) := by
  have hreserved : (regsRnd[3]).reservedBits = 0 := by decide
  have hwrite : s.writeReg c .rnd 0xC (Reg.RND_SAT_COUNT_CLEAR c) regsRnd[3] (v.setWidth 64) =
      s.wr (Reg.RND_SAT_COUNT c) 0 :=
    State.writeReg_direct (by decide) (by rw [hreserved]; exact BitVec.and_zero) rfl rfl
  exact put32_coreWin h (by decide) (by decide) rfl (by decide) (by decide) rfl hwrite
    ((s.wr_biWant _ _).trans h.still)

/-! ## Borrows (R220, R221, R229) -/

/-- What RIF.BORROW holds after an accepted write: EN and LOCAL, with READY 0. -/
def borrowWord (en loc : Nat) : DWord := BitVec.ofNat 64 (en + 2 * loc)

section
variable {en loc : Nat} (hen : en < 2) (hloc : loc < 8)
include hen hloc

theorem borrowWord_en : Fl.RIF_BORROW_EN.get (borrowWord en loc) = en := by
  rw [borrowWord, Fld.get_ofNat _ _ (by omega)]
  simp only [Fl.RIF_BORROW_EN]; omega

theorem borrowWord_local : Fl.RIF_BORROW_LOCAL.get (borrowWord en loc) = loc := by
  rw [borrowWord, Fld.get_ofNat _ _ (by omega)]
  simp only [Fl.RIF_BORROW_LOCAL]; omega

theorem borrowWord_ready : Fl.RIF_BORROW_READY.get (borrowWord en loc) = 0 := by
  rw [borrowWord, Fld.get_ofNat _ _ (by omega)]
  simp only [Fl.RIF_BORROW_READY]; omega

/-- A write of RIF.BORROW in none of the cases of R221 is stored. -/
theorem State.writeBorrow_stored {s : State} {c : Nat} (hfires : (s.fires.any fun f => f.core == c) = false)
    (hswing : s.flag (Reg.CORE_ID c) Fl.CORE_ID_SWING = true) (hother : loc ≠ c % 8)
    (hforce : en = 1 → s.flag (Reg.RIF_BORROW c) Fl.RIF_BORROW_EN = false) :
    s.writeBorrow c (BitVec.ofNat 32 (en + 2 * loc)) = s.wr (Reg.RIF_BORROW c) (borrowWord en loc) := by
  have hsmall : (BitVec.ofNat 32 (en + 2 * loc)).toNat = en + 2 * loc := by
    rw [BitVec.toNat_ofNat]; omega
  have hword : (BitVec.ofNat 32 (en + 2 * loc)).setWidth 64 = borrowWord en loc := by
    apply BitVec.eq_of_toNat_eq
    rw [BitVec.toNat_setWidth, hsmall, borrowWord, BitVec.toNat_ofNat]
  have hnot : ¬(32 ≤ en + 2 * loc ∨ (s.fires.any fun f => f.core == c) = true ∨
      (!s.flag (Reg.CORE_ID c) Fl.CORE_ID_SWING) = true ∨ loc = c % 8 ∨
      (en = 1 ∧ s.flag (Reg.RIF_BORROW c) Fl.RIF_BORROW_EN = true)) := by
    rintro (hbig | hf | hs | hl | ⟨h1, hf⟩)
    · omega
    · simp [hfires] at hf
    · simp [hswing] at hs
    · exact hother hl
    · simp [hforce h1] at hf
  simp only [State.writeBorrow, hword, borrowWord_en hen hloc, borrowWord_local hen hloc, hsmall, if_neg hnot]
  rfl

/-- An idle SWING core's write of RIF.BORROW, begin or end of a borrow, changes RIF.BORROW alone. -/
theorem put32_borrow {s : State} {c : CoreId} (h : s.CoreTakes c)
    (hfires : (s.fires.any fun f => f.core == c.val) = false)
    (hswing : s.flag (Reg.CORE_ID c) Fl.CORE_ID_SWING = true) (hother : loc ≠ c.val % 8)
    (hforce : en = 1 → s.flag (Reg.RIF_BORROW c) Fl.RIF_BORROW_EN = false) :
    put32 (Reg.RIF_BORROW c) (BitVec.ofNat 32 (en + 2 * loc)) s =
      .next (s.wr (Reg.RIF_BORROW c) (borrowWord en loc)) := by
  have hreserved : (regsRif[1]).reservedBits = 0x7FFFFFF#64 <<< 5 := by decide
  have hsmall : ((BitVec.ofNat 32 (en + 2 * loc)).setWidth 64 : DWord).toNat < 2 ^ 5 := by
    rw [BitVec.toNat_setWidth, BitVec.toNat_ofNat]; omega
  have hwrite : s.writeReg c .rif 4 (Reg.RIF_BORROW c) regsRif[1] ((BitVec.ofNat 32 (en + 2 * loc)).setWidth 64) =
      s.wr (Reg.RIF_BORROW c) (borrowWord en loc) := by
    rw [State.writeReg_direct (by decide) (by rw [hreserved]; exact and_shiftLeft_of_lt _ _ 5 hsmall) rfl rfl,
      State.act, setWidth_low]
    exact State.writeBorrow_stored hen hloc hfires hswing hother hforce
  exact put32_coreWin h (by decide) (by decide) rfl (by decide) (by decide) rfl hwrite
    ((s.wr_biWant _ _).trans h.still)

end

/-- The rack bus switches: READY of a borrow in force sets. -/
theorem exec_borrowReady {s : State} {c : CoreId} (hen : s.flag (Reg.RIF_BORROW c) Fl.RIF_BORROW_EN = true) :
    exec (.borrowReady c) s = .next (s.setFld (Reg.RIF_BORROW c) Fl.RIF_BORROW_READY 1) := by
  change execBorrowReady c s = _
  simp only [execBorrowReady, hen, if_true]

/-! ## Captures (R141, R651) -/

/-- DONE after a write of RACK.CAPTURE_CTL: a write with ARM 1 clears it. -/
def State.doneAfter (s : State) (c : Nat) (v : Word) : Nat :=
  if v.getLsbD 24 then 0 else s.fld (Reg.RACK_CAPTURE_CTL c) Fl.RACK_CAPTURE_CTL_DONE

theorem State.doneAfter_lt (s : State) (c : Nat) (v : Word) : s.doneAfter c v < 2 := by
  unfold State.doneAfter
  split
  · decide
  · exact Fld.get_lt _ _

/-- A write of RACK.CAPTURE_CTL with its reserved bits and DONE 0 stores its fields beside DONE. -/
theorem exec_captureArm {s : State} {c : CoreId} (h : s.CoreTakes c) (v : Word) (hv : v.toNat < 2 ^ 25) :
    exec (.captureArm c v) s =
      .next (s.wr (Reg.RACK_CAPTURE_CTL c) (BitVec.ofNat 64 (v.toNat + 2 ^ 25 * s.doneAfter c v))) := by
  have hreserved : (regsRack[8]).reservedBits = 0x7E#64 <<< 25 := by decide
  have hsmall : (v.setWidth 64 : DWord).toNat < 2 ^ 25 := by
    rw [BitVec.toNat_setWidth]; omega
  have hwrite : s.writeReg c .rack 0x40 (Reg.RACK_CAPTURE_CTL c) regsRack[8] (v.setWidth 64) =
      s.wr (Reg.RACK_CAPTURE_CTL c) (BitVec.ofNat 64 (v.toNat + 2 ^ 25 * s.doneAfter c v)) := by
    rw [State.writeReg_direct (by decide) (by rw [hreserved]; exact and_shiftLeft_of_lt _ _ 25 hsmall) rfl rfl]
    change s.writeCapture c ((v.setWidth 64).setWidth 32) = _
    rw [setWidth_low, State.writeCapture, Nat.mod_eq_of_lt hv]
    rfl
  exact put32_coreWin h (by decide) (by decide) rfl (by decide) (by decide) rfl hwrite
    ((s.wr_biWant _ _).trans h.still)

/-! ## Records that a read latches (R141) -/

/-- The words of a record latched, from word `n` on, into the registers from `off`. -/
def State.latchWords (s : State) (off n : Nat) (ws : List Nat) : State :=
  (ws.zipIdx n).foldl (fun t p => t.wr (off + 4 * p.2) (BitVec.ofNat 64 p.1)) s

theorem State.latchWords_cons (s : State) (off n w : Nat) (ws : List Nat) :
    s.latchWords off n (w :: ws) = (s.wr (off + 4 * n) (BitVec.ofNat 64 w)).latchWords off (n + 1) ws := rfl

theorem State.latchWords_outbox (ws : List Nat) : ∀ (s : State) (off n : Nat),
    (s.latchWords off n ws).outbox = s.outbox := by
  induction ws with
  | nil => exact fun _ _ _ => rfl
  | cons w ws ih => exact fun s off n => (ih _ off (n + 1)).trans rfl

/-- Latching leaves the registers before its first one. -/
theorem State.rd_latchWords_before (ws : List Nat) : ∀ (s : State) (off n j : Nat), j < off + 4 * n →
    (s.latchWords off n ws).rd j = s.rd j := by
  induction ws with
  | nil => exact fun _ _ _ _ _ => rfl
  | cons w ws ih =>
    intro s off n j hj
    rw [State.latchWords_cons, ih _ off (n + 1) j (by omega), State.rd_wr_other _ _ _ _ (by omega)]

/-- A latched word reads back. -/
theorem State.rd_latchWords (ws : List Nat) : ∀ (s : State) (off n k w : Nat), ws[k]? = some w →
    (s.latchWords off n ws).rd (off + 4 * (n + k)) = BitVec.ofNat 64 w := by
  induction ws with
  | nil => intro s off n k w hk; simp at hk
  | cons x ws ih =>
    intro s off n k w hk
    rw [State.latchWords_cons]
    cases k with
    | zero =>
      obtain rfl : x = w := by simpa using hk
      rw [State.rd_latchWords_before ws _ off (n + 1) _ (by omega), Nat.add_zero, State.rd_wr_same]
    | succ k =>
      rw [← ih (s.wr (off + 4 * n) (BitVec.ofNat 64 x)) off (n + 1) k w (by simpa using hk)]
      congr 2; omega

/-- A read of a 32-bit register at its offset. -/
theorem State.readWord_narrow {s : State} {i off p : Nat} {b : Block} {d : RegDesc}
    (hloc : locate off = some (i, b, p)) (hpow : s.unpowered i b p = false) (hfind : findReg b p = some d)
    (hnarrow : d.wide = false) :
    s.readWord off = ((s.readReg i b p off).1, (s.readReg i b p off).2.setWidth 32) := by
  simp [State.readWord, hloc, hpow, hfind, hnarrow]

/-- A read of the first word of a record, outside the blocks whose reads do something else, latches all its words. -/
theorem State.readReg_record {s t : State} {i off p : Nat} {b : Block} {ws : List Nat} (hregion : b.ofRegion = false)
    (hseq : b ≠ .seq) (hrec : s.recordAt i off = some (t, ws)) :
    s.readReg i b p off = (t.latchWords off 0 ws, BitVec.ofNat 64 (ws.headD 0)) := by
  have hcnv : b ≠ .cnv := by rintro rfl; cases hregion
  simp [State.readReg, State.mirrored, hregion, hseq, hcnv, hrec, State.latchWords]

theorem State.answerRead_word (s : State) {off : Nat} (h4 : off % 4 = 0) :
    s.answerRead off 4 = (s.readWord off).1.emit (.readData off 4 ((s.readWord off).2.setWidth 64)) := by
  rw [State.answerRead, State.busRead, if_pos ⟨rfl, h4⟩]

/-- A 32-bit read of RACK.REC_DATA_0 latches the record that RACK.REC_SEL names and answers its first word. -/
theorem exec_recDataLatch {s : State} {c : CoreId} (h : s.CoreTakes c) :
    exec (.recDataLatch c) s = .next ((s.latchWords (Reg.RACK_REC_DATA_0 c) 0 (s.selectedRecord c)).emit
      (.readData (Reg.RACK_REC_DATA_0 c) 4 ((BitVec.ofNat 32 ((s.selectedRecord c).headD 0)).setWidth 64))) := by
  have hloc : locate (Reg.RACK_REC_DATA_0 c) = some (c.val, .rack, 0x24) := locate_coreWin c 0x3A024 (by decide)
  have hfind : findReg .rack 0x24 = some regsRack[6] := by decide
  have hrec : s.recordAt c (Reg.RACK_REC_DATA_0 c) = some (s, s.selectedRecord c) := if_pos rfl
  have halign : Reg.RACK_REC_DATA_0 c % 4 = 0 := coreWin_add_mod_four c 0x3A024
  change Host.Outcome.next (s.answerRead (Reg.RACK_REC_DATA_0 c) 4) = _
  rw [s.answerRead_word halign, State.readWord_narrow hloc (h.powered rfl _) hfind rfl,
    State.readReg_record rfl (by decide) hrec, BitVec.setWidth_ofNat_of_le (by decide)]

/-- Settles O35: the writes by `exec_satCountClear`, `put32_borrow`, `exec_borrowReady` and `exec_captureArm`, each of which
is a write of one register whose fields are then read off, and the read by `exec_recDataLatch`. -/
theorem coreBlocksAct : Obligations.CoreBlocksAct := by
  unfold Obligations.CoreBlocksAct
  intro c s h
  refine ⟨fun v => ⟨_, exec_satCountClear h v, State.rd_wr_same _ _ _, s.regsKept_wr _ _, s.onlyRegs_wr _ _⟩,
    fun loc hfires hswing hother => ⟨fun hfree => ?_, ?_⟩, fun hen => ?_, fun v hv => ?_, ?_⟩
  · refine ⟨_, put32_borrow (en := 1) (by decide) loc.isLt h hfires hswing hother fun _ => hfree,
      ?_, ?_, ?_, s.regsKept_wr _ _, s.onlyRegs_wr _ _⟩
    · simp [State.flag, State.fld, borrowWord_en (en := 1) (by decide) loc.isLt]
    · simp [State.flag, State.fld, borrowWord_ready (en := 1) (by decide) loc.isLt]
    · simp [State.fld, borrowWord_local (en := 1) (by decide) loc.isLt]
  · have hput := put32_borrow (en := 0) (by decide) loc.isLt h hfires hswing hother (by simp)
    rw [Nat.zero_add] at hput
    refine ⟨_, hput, ?_, s.regsKept_wr _ _, s.onlyRegs_wr _ _⟩
    simp [State.flag, State.fld, borrowWord_en (en := 0) (by decide) loc.isLt]
  · refine ⟨_, exec_borrowReady hen, ?_, ?_, s.regsKept_wr _ _, s.onlyRegs_wr _ _⟩
    · rw [State.flag, State.fld_setFld_same _ _ Fl.RIF_BORROW_READY 1 (by decide)]
      rfl
    · rw [State.flag, State.fld_setFld_apart _ _ Fl.RIF_BORROW_READY Fl.RIF_BORROW_EN 1 (by decide) (by decide)
        (by decide)]
      exact hen
  · have hdone := s.doneAfter_lt c v
    refine ⟨_, exec_captureArm h v hv, ?_, ?_, s.regsKept_wr _ _, s.onlyRegs_wr _ _⟩
    · rw [State.rd_wr_same, BitVec.toNat_ofNat]
      omega
    · rw [State.fld, State.rd_wr_same, Fld.get_ofNat _ _ (by omega)]
      change _ = s.doneAfter c v
      simp only [Fl.RACK_CAPTURE_CTL_DONE]
      omega
  · refine ⟨_, exec_recDataLatch h, ?_, fun k w hk => ?_⟩
    · exact congrArg (· ++ _) (State.latchWords_outbox _ s _ 0)
    · have hread := State.rd_latchWords _ s (Reg.RACK_REC_DATA_0 c) 0 k w hk
      rw [Nat.zero_add] at hread
      exact hread

end Sys2Proof.Machine
end

section
/-! PROOFS. The ALU instructions of R243: what each operation on words computes, stated on the whole numbers that the words
stand for, and O2. -/

namespace Sys2Proof.Machine

/-! ## Operations on words as operations on whole numbers -/

section
variable (x b : DWord)

theorem sub_eq_ofInt : x - b = BitVec.ofInt 64 (x.toInt - b.toInt) := by
  apply BitVec.eq_of_toInt_eq
  rw [BitVec.toInt_sub, BitVec.toInt_ofInt]

theorem mul_eq_ofNat : x * b = BitVec.ofNat 64 (x.toNat * b.toNat) := by
  apply BitVec.eq_of_toNat_eq
  rw [BitVec.toNat_mul, BitVec.toNat_ofNat]

theorem shiftLeft_eq_ofNat (n : Nat) : x <<< n = BitVec.ofNat 64 (x.toNat * 2 ^ n) := by
  apply BitVec.eq_of_toNat_eq
  rw [BitVec.toNat_shiftLeft, BitVec.toNat_ofNat, Nat.shiftLeft_eq]

theorem ushiftRight_eq_ofNat (n : Nat) : x >>> n = BitVec.ofNat 64 (x.toNat / 2 ^ n) := by
  have hlt : x.toNat / 2 ^ n < 2 ^ 64 := (Nat.div_le_self _ _).trans_lt x.isLt
  apply BitVec.eq_of_toNat_eq
  rw [BitVec.toNat_ushiftRight, BitVec.toNat_ofNat, Nat.shiftRight_eq_div_pow, Nat.mod_eq_of_lt hlt]

theorem sshiftRight_eq_ofInt (n : Nat) : x.sshiftRight n = BitVec.ofInt 64 (x.toInt / 2 ^ n) := by
  rw [BitVec.sshiftRight_eq, Int.shiftRight_eq_div_pow]
  norm_cast

/-- MIN keeps ga unless b is less, which is the signed minimum. -/
theorem min_eq_ofInt : (if b.slt x then b else x) = BitVec.ofInt 64 (min x.toInt b.toInt) := by
  rw [BitVec.slt_eq_decide]
  by_cases hlt : b.toInt < x.toInt
  · simp [hlt, min_eq_right hlt.le]
  · simp [hlt, min_eq_left (not_lt.mp hlt)]

/-- MAX keeps ga unless b is greater, which is the signed maximum. -/
theorem max_eq_ofInt : (if x.slt b then b else x) = BitVec.ofInt 64 (max x.toInt b.toInt) := by
  rw [BitVec.slt_eq_decide]
  by_cases hlt : x.toInt < b.toInt
  · simp [hlt, max_eq_right hlt.le]
  · simp [hlt, max_eq_left (not_lt.mp hlt)]

theorem boolWord_slt : boolWord (x.slt b) = if x.toInt < b.toInt then 1 else 0 := by
  simp [boolWord, BitVec.slt_eq_decide]

theorem boolWord_ult : boolWord (x.ult b) = if x.toNat < b.toNat then 1 else 0 := by
  simp [boolWord, BitVec.ult_eq_decide]

/-- LIH's word: the low half of ga under IMM taken unsigned. -/
theorem append_low_eq_ofNat (v : Word) :
    v ++ x.extractLsb' 0 32 = BitVec.ofNat 64 (x.toNat % 2 ^ 32 + 2 ^ 32 * v.toNat) := by
  have hlow : x.toNat % 2 ^ 32 < 2 ^ 32 := Nat.mod_lt _ (by decide)
  have hv := v.isLt
  apply BitVec.eq_of_toNat_eq
  rw [BitVec.toNat_append, BitVec.extractLsb'_toNat, Nat.shiftRight_zero, ← Nat.shiftLeft_add_eq_or_of_lt hlow,
    Nat.shiftLeft_eq, BitVec.toNat_ofNat]
  omega

end

/-! ## ALU instructions -/

/-- An ALU instruction with its reserved bits 0 writes what its operation gives of ga and gb + IMM; `extra` is what else
would make it ILLEGAL (LIH's GB, R243). -/
theorem writesG_of_alu {i : Instr} {opc : Byte} {extra : Bool} {op : DWord → DWord → DWord} {c : CoreId} {f : RFmt}
    {s : State} {v : DWord} (hf : f.resv = 0) (hx : exec i s = .next (alu opc extra op c f s)) (hextra : extra = false)
    (hopc : opcodeDefined (opc.setWidth 64) = true)
    (hv : op (s.g c f.ga.val) (BitVec.ofInt 64 ((s.g c f.gb.val).toInt + f.imm.toInt)) = v) :
    WritesG i s c (f.word opc) f.gd.val v := by
  refine writesG_of_issue i s c (f.word opc) f.gd.val v ?_ (RFmt.word_defined f opc hopc)
  rw [hx, alu, s.aluB_eq, hv, RFmt.bad_zero f hf, hextra, Bool.or_false]

/-- Settles O2: each instruction is an `alu` of its operation (`writesG_of_alu`), and the operation on words is the one on
whole numbers that the statement names. -/
theorem aluWritesResult : Obligations.AluWritesResult := by
  unfold Obligations.AluWritesResult
  intro c f s hf x b k
  refine ⟨?add, ?sub, ?mul, ?and, ?or, ?xor, ?shl, ?shr, ?sra, ?min, ?max, ?slt, ?sltu, fun hgb => ?lih⟩
  case add => exact writesG_of_alu hf rfl rfl rfl (BitVec.add_def x b)
  case sub => exact writesG_of_alu hf rfl rfl rfl (sub_eq_ofInt x b)
  case mul => exact writesG_of_alu hf rfl rfl rfl (mul_eq_ofNat x b)
  case and => exact writesG_of_alu hf rfl rfl rfl rfl
  case or => exact writesG_of_alu hf rfl rfl rfl rfl
  case xor => exact writesG_of_alu hf rfl rfl rfl rfl
  case shl => exact writesG_of_alu hf rfl rfl rfl (shiftLeft_eq_ofNat x k)
  case shr => exact writesG_of_alu hf rfl rfl rfl (ushiftRight_eq_ofNat x k)
  case sra => exact writesG_of_alu hf rfl rfl rfl (sshiftRight_eq_ofInt x k)
  case min => exact writesG_of_alu hf rfl rfl rfl (min_eq_ofInt x b)
  case max => exact writesG_of_alu hf rfl rfl rfl (max_eq_ofInt x b)
  case slt => exact writesG_of_alu hf rfl rfl rfl (boolWord_slt x b)
  case sltu => exact writesG_of_alu hf rfl rfl rfl (boolWord_ult x b)
  case lih => exact writesG_of_alu hf rfl (by simp [hgb]) rfl (append_low_eq_ofNat x f.imm)

end Sys2Proof.Machine
end

section
/-! PROOFS. Updates that change Pantries alone, bytes and error marks read back after a store, and what a write of an aperture
line leaves (R195, R556, R559). -/

namespace Sys2Proof.Machine

/-! ## Updates of Pantries alone -/

/-- Nothing but Pantry bytes and their error marks is changed. -/
def OnlyPantry (s t : State) : Prop := ∃ bytes marks, t = { s with pantry := bytes, pantryEcc := marks }

section
variable {s t u : State}

theorem OnlyPantry.refl (s : State) : OnlyPantry s s := ⟨s.pantry, s.pantryEcc, rfl⟩

theorem OnlyPantry.trans (h : OnlyPantry s t) (h' : OnlyPantry t u) : OnlyPantry s u := by
  obtain ⟨_, _, rfl⟩ := h
  obtain ⟨_, _, rfl⟩ := h'
  exact ⟨_, _, rfl⟩

theorem OnlyPantry.foldl {α : Type} {f : State → α → State} (hf : ∀ s a, OnlyPantry s (f s a)) (l : List α) :
    ∀ s, OnlyPantry s (l.foldl f s) := by
  induction l with
  | nil => exact OnlyPantry.refl
  | cons a l ih => exact fun s => (hf s a).trans (ih _)

theorem OnlyPantry.rd (h : OnlyPantry s t) (o : Nat) : t.rd o = s.rd o := by
  obtain ⟨_, _, rfl⟩ := h; rfl

theorem OnlyPantry.regsKept (h : OnlyPantry s t) (except : List Nat) : RegsKept s t except := fun o _ => h.rd o

theorem OnlyPantry.flag (h : OnlyPantry s t) (o : Nat) (f : Fld) : t.flag o f = s.flag o f := by
  rw [State.flag, State.fld, h.rd]; rfl

theorem OnlyPantry.tracked (h : OnlyPantry s t) : t.tracked = s.tracked := by
  obtain ⟨_, _, rfl⟩ := h; rfl

theorem OnlyPantry.biSent (h : OnlyPantry s t) : t.biSent = s.biSent := by
  obtain ⟨_, _, rfl⟩ := h; rfl

theorem OnlyPantry.biWant (h : OnlyPantry s t) : t.biWant = s.biWant := by
  obtain ⟨_, _, rfl⟩ := h; rfl

theorem OnlyPantry.host (h : OnlyPantry s t) : t.host = s.host := by
  obtain ⟨_, _, rfl⟩ := h; rfl

theorem OnlyPantry.scrubWrites (h : OnlyPantry s t) : t.scrubWrites = s.scrubWrites := by
  obtain ⟨_, _, rfl⟩ := h; rfl

theorem OnlyPantry.blk (h : OnlyPantry s t) : t.blk = s.blk := by
  obtain ⟨_, _, rfl⟩ := h; rfl

end

section
variable (s : State) (c o d x : Nat)

theorem State.onlyPantry_setByte (b : Byte) : OnlyPantry s (s.setByte c o b) := by
  unfold State.setByte
  split
  · exact .refl s
  · exact ⟨_, _, rfl⟩

theorem State.onlyPantry_setEcc (m : EccMark) : OnlyPantry s (s.setEcc c o m) := ⟨_, _, rfl⟩

theorem State.onlyPantry_putBytes (bs : List Byte) : ∀ (s : State) (o : Nat), OnlyPantry s (s.putBytes c o bs) := by
  induction bs with
  | nil => exact fun s _ => .refl s
  | cons b bs ih => exact fun s o => (s.onlyPantry_setByte c o b).trans (ih _ (o + 1))

theorem State.onlyPantry_poisonFrom (bad : List Bool) : ∀ (s : State) (o : Nat), OnlyPantry s (s.poisonFrom c o bad) := by
  induction bad with
  | nil => exact fun s _ => .refl s
  | cons b bad ih =>
    intro s o
    refine OnlyPantry.trans ?_ (ih _ (o + 1))
    split
    · exact s.onlyPantry_setEcc c o .poisoned
    · exact .refl s

/-! ## Bytes and marks, read back -/

theorem pantryKey_add (i : Nat) : pantryKey c (o + i) = pantryKey c o + i := (Nat.add_assoc _ _ _).symm

@[simp] theorem State.ecc_setByte (b : Byte) : (s.setByte c o b).ecc d x = s.ecc d x := by
  unfold State.setByte
  split <;> rfl

theorem State.ecc_setEcc (m : EccMark) :
    (s.setEcc c o m).ecc d x = if pantryKey d x / 8 = pantryKey c o / 8 then m else s.ecc d x :=
  sread_swrite _ _ _ _ _

/-- Outside a retained dump every byte takes what is stored (R589). -/
theorem State.dumpHeld_of_not_retained {s : State} (h : s.flag Reg.DUMP_STAT Fl.DUMP_STAT_RETAINED = false) :
    s.dumpHeld c o = false := by
  simp [State.dumpHeld, h]

theorem State.byte_setByte_other (b : Byte) (h : pantryKey d x ≠ pantryKey c o) :
    (s.setByte c o b).byte d x = s.byte d x := by
  rw [State.byte_setByte, if_neg h, ite_self]

theorem State.byte_setByte_same {s : State} (h : s.flag Reg.DUMP_STAT Fl.DUMP_STAT_RETAINED = false) (b : Byte) :
    (s.setByte c o b).byte c o = b := by
  simp [State.byte_setByte, State.dumpHeld_of_not_retained c o h]

/-- A word that carries no mark, or is known to be poisoned, is read as it is (R195). -/
theorem State.checkWord_marked {s : State} (h : s.ecc c o = .clean ∨ s.ecc c o = .poisoned) : s.checkWord c o = s := by
  unfold State.checkWord
  rcases h with h | h <;> rw [h]

theorem State.checkWords_marked {s : State} (l : List Nat) (h : ∀ o ∈ l, s.ecc c o = .clean ∨ s.ecc c o = .poisoned) :
    l.foldl (fun (t : State) w => t.checkWord c w) s = s := by
  induction l with
  | nil => rfl
  | cons o l ih =>
    obtain ⟨ho, hl⟩ := List.forall_mem_cons.1 h
    rw [List.foldl_cons, State.checkWord_marked c o ho, ih hl]

end

/-- The words of a range that is whole words. -/
theorem wordsOf_aligned (o n : Nat) (h : o % 8 = 0) : wordsOf o (8 * n) = (List.range n).map fun k => o + 8 * k := by
  cases n with
  | zero => rfl
  | succ n =>
    have hcount : (o + 8 * (n + 1) - 1) / 8 - o / 8 + 1 = n + 1 := by omega
    rw [wordsOf, if_neg (by omega), hcount]
    exact List.map_congr_left fun k _ => by omega

/-! ## Bytes stored under a mask -/

section
variable (c o : Nat) (v : Nat → Byte)

/-- The bytes of an offset list, stored in turn. -/
def State.setBytes (s : State) (l : List Nat) : State := l.foldl (fun (s : State) i => s.setByte c (o + i) (v i)) s

theorem State.onlyPantry_setBytes (s : State) (l : List Nat) : OnlyPantry s (s.setBytes c o v l) :=
  OnlyPantry.foldl (fun s i => s.onlyPantry_setByte c (o + i) (v i)) l s

theorem State.ecc_setBytes (l : List Nat) (d x : Nat) : ∀ s : State, (s.setBytes c o v l).ecc d x = s.ecc d x := by
  induction l with
  | nil => exact fun _ => rfl
  | cons i l ih => exact fun s => (ih _).trans (s.ecc_setByte c (o + i) d x (v i))

theorem State.byte_setBytes_other (l : List Nat) (d x : Nat) (h : ∀ i ∈ l, pantryKey d x ≠ pantryKey c (o + i)) :
    ∀ s : State, (s.setBytes c o v l).byte d x = s.byte d x := by
  induction l with
  | nil => exact fun _ => rfl
  | cons i l ih =>
    obtain ⟨hi, hl⟩ := List.forall_mem_cons.1 h
    exact fun s => (ih hl _).trans (s.byte_setByte_other c (o + i) d x (v i) hi)

theorem State.byte_setBytes_mem (l : List Nat) (i : Nat) (h : i ∈ l) : ∀ s : State,
    s.flag Reg.DUMP_STAT Fl.DUMP_STAT_RETAINED = false → (s.setBytes c o v l).byte c (o + i) = v i := by
  induction l with
  | nil => cases h
  | cons j l ih =>
    intro s hs
    have hs' : (s.setByte c (o + j) (v j)).flag Reg.DUMP_STAT Fl.DUMP_STAT_RETAINED = false := by
      rw [(s.onlyPantry_setByte c (o + j) (v j)).flag, hs]
    by_cases hil : i ∈ l
    · exact ih hil _ hs'
    · obtain rfl : i = j := (List.mem_cons.1 h).resolve_right hil
      refine (State.byte_setBytes_other c o v l c (o + i) (fun k hk heq => hil ?_) _).trans
        (State.byte_setByte_same c (o + i) hs (v i))
      simp only [pantryKey_add, Nat.add_left_cancel_iff] at heq
      exact heq ▸ hk

end

theorem mem_maskList {n v i : Nat} : i ∈ maskList n v ↔ i < n ∧ v.testBit i = true := by
  simp [maskList]

/-! ## A line written (R195, R556, R559) -/

/-- The byte enables of word `k` of a line write. -/
def ApWrite.mask (w : ApWrite) (k : Nat) : Nat := bitsOf w.be.toNat (8 * k) 8

theorem ApWrite.mask_testBit (w : ApWrite) (k i : Nat) (hi : i < 8) : (w.mask k).testBit i = w.be.getLsbD (8 * k + i) := by
  rw [ApWrite.mask, bitsOf, Nat.testBit_mod_two_pow, Nat.testBit_div_two_pow, Nat.add_comm]
  simp [hi, BitVec.getLsbD]

/-- Word `k` of a line write stored: one step of `State.apStore` (`State.apStore_eq`). -/
def State.apWord (s : State) (w : ApWrite) (k : Nat) : State :=
  if w.mask k = 0 then s
  else (if w.mask k = 255 then s.setEcc w.core (w.off + 8 * k) .clean else s.checkWord w.core (w.off + 8 * k)).setBytes
    w.core (w.off + 8 * k) (fun i => w.data.getD (8 * k + i) 0) (maskList 8 (w.mask k))

theorem State.apStore_eq (s : State) (w : ApWrite) : s.apStore w = (List.range 8).foldl (fun (s : State) k => s.apWord w k) s :=
  rfl

/-- Word `k` of the line is wholly written, or a check of it finds nothing new. -/
def State.wordKnown (s : State) (w : ApWrite) (k : Nat) : Prop :=
  w.mask k = 255 ∨ s.ecc w.core (w.off + 8 * k) = .clean ∨ s.ecc w.core (w.off + 8 * k) = .poisoned

section
variable {s : State} {w : ApWrite} {k : Nat} (h : s.wordKnown w k)
include h

/-- A known word written: its mark is cleared if it is wholly written, then its enabled bytes are stored. -/
theorem State.apWord_known : s.apWord w k =
    (if w.mask k = 255 then s.setEcc w.core (w.off + 8 * k) .clean else s).setBytes w.core (w.off + 8 * k)
      (fun i => w.data.getD (8 * k + i) 0) (maskList 8 (w.mask k)) := by
  unfold State.apWord
  by_cases hzero : w.mask k = 0
  · simp [hzero, maskList, State.setBytes]
  · by_cases hfull : w.mask k = 255
    · simp [hfull]
    · rw [if_neg hzero, if_neg hfull, if_neg hfull, State.checkWord_marked _ _ (h.resolve_left hfull)]

theorem State.onlyPantry_apWord : OnlyPantry s (s.apWord w k) := by
  rw [State.apWord_known h]
  refine OnlyPantry.trans ?_ (State.onlyPantry_setBytes _ _ _ _ _)
  split
  · exact s.onlyPantry_setEcc _ _ _
  · exact .refl s

theorem State.ecc_apWord (m : Nat) : (s.apWord w k).ecc w.core (w.off + 8 * m) =
    if m = k ∧ w.mask k = 255 then .clean else s.ecc w.core (w.off + 8 * m) := by
  have hword : pantryKey w.core (w.off + 8 * m) / 8 = pantryKey w.core (w.off + 8 * k) / 8 ↔ m = k := by
    simp only [pantryKey_add]; omega
  rw [State.apWord_known h, State.ecc_setBytes]
  by_cases hfull : w.mask k = 255
  · simp only [hfull, if_true, State.ecc_setEcc, hword, and_true]
  · simp [hfull]

theorem State.byte_apWord_other (d x : Nat) (hx : ∀ i, i / 8 = k → pantryKey d x ≠ pantryKey w.core (w.off + i)) :
    (s.apWord w k).byte d x = s.byte d x := by
  rw [State.apWord_known h, State.byte_setBytes_other]
  · split <;> rfl
  · intro i hi
    rw [Nat.add_assoc]
    exact hx _ (by have := (mem_maskList.1 hi).1; omega)

theorem State.byte_apWord (hs : s.flag Reg.DUMP_STAT Fl.DUMP_STAT_RETAINED = false) (i : Nat) :
    (s.apWord w k).byte w.core (w.off + i) =
      if i / 8 = k ∧ w.be.getLsbD i then w.data.getD i 0 else s.byte w.core (w.off + i) := by
  by_cases hik : i / 8 = k ∧ w.be.getLsbD i = true
  · obtain ⟨rfl, hbe⟩ := hik
    have hi : 8 * (i / 8) + i % 8 = i := Nat.div_add_mod i 8
    have hbit : (w.mask (i / 8)).testBit (i % 8) = true := by
      rw [ApWrite.mask_testBit w _ _ (Nat.mod_lt _ (by decide)), hi, hbe]
    have hflag : (if w.mask (i / 8) = 255 then s.setEcc w.core (w.off + 8 * (i / 8)) .clean else s).flag Reg.DUMP_STAT
        Fl.DUMP_STAT_RETAINED = false := by
      split <;> exact hs
    have hbyte := State.byte_setBytes_mem w.core (w.off + 8 * (i / 8)) (fun i' => w.data.getD (8 * (i / 8) + i') 0)
      (maskList 8 (w.mask (i / 8))) (i % 8) (mem_maskList.2 ⟨Nat.mod_lt _ (by decide), hbit⟩) _ hflag
    rw [Nat.add_assoc, hi] at hbyte
    rw [State.apWord_known h, hbyte, if_pos ⟨rfl, hbe⟩]
  · rw [if_neg hik, State.apWord_known h, State.byte_setBytes_other]
    · split <;> rfl
    · intro j hj heq
      obtain ⟨hj8, hbit⟩ := mem_maskList.1 hj
      rw [ApWrite.mask_testBit w k j hj8] at hbit
      simp only [pantryKey_add] at heq
      obtain rfl : i = 8 * k + j := by omega
      exact hik ⟨by omega, hbit⟩

end

/-- The first `n` words of a line write are stored. -/
structure LineStored (s t : State) (w : ApWrite) (n : Nat) : Prop where
  only : OnlyPantry s t
  mark : ∀ k, t.ecc w.core (w.off + 8 * k) =
    if k < n ∧ w.mask k = 255 then .clean else s.ecc w.core (w.off + 8 * k)
  byte : s.flag Reg.DUMP_STAT Fl.DUMP_STAT_RETAINED = false → ∀ i, t.byte w.core (w.off + i) =
    if i < 8 * n ∧ w.be.getLsbD i then w.data.getD i 0 else s.byte w.core (w.off + i)
  other : ∀ d x, (∀ i < 8 * n, pantryKey d x ≠ pantryKey w.core (w.off + i)) → t.byte d x = s.byte d x

theorem LineStored.zero (s : State) (w : ApWrite) : LineStored s s w 0 :=
  ⟨.refl s, by simp, by simp, fun _ _ _ => rfl⟩

theorem LineStored.succ {s t : State} {w : ApWrite} {n : Nat} (h : LineStored s t w n) (hn : s.wordKnown w n) :
    LineStored s (t.apWord w n) w (n + 1) := by
  have hnow : t.wordKnown w n := by
    have hmark : t.ecc w.core (w.off + 8 * n) = s.ecc w.core (w.off + 8 * n) := by simp [h.mark n]
    unfold State.wordKnown
    rwa [hmark]
  refine ⟨h.only.trans (State.onlyPantry_apWord hnow), fun k => ?_, fun hs i => ?_, fun d x hx => ?_⟩
  · rw [State.ecc_apWord hnow, h.mark]
    by_cases hk : k = n
    · subst hk; simp
    · simp only [hk, false_and, if_false, show k < n + 1 ↔ k < n by omega]
  · rw [State.byte_apWord hnow (by rw [h.only.flag, hs]), h.byte hs]
    by_cases hi : i / 8 = n
    · simp only [hi, true_and, show i < 8 * (n + 1) by omega, show ¬i < 8 * n by omega, false_and, if_false]
    · simp only [hi, false_and, if_false, show i < 8 * (n + 1) ↔ i < 8 * n by omega]
  · rw [State.byte_apWord_other hnow d x fun i hi => hx i (by omega)]
    exact h.other d x fun i hi => hx i (by omega)

/-- A line write stores its eight words, each of which is wholly written or whose check finds nothing new. -/
theorem State.apStore_stored {s : State} {w : ApWrite} (h : ∀ k < 8, s.wordKnown w k) : LineStored s (s.apStore w) w 8 := by
  have hfirst : ∀ n ≤ 8, LineStored s ((List.range n).foldl (fun (s : State) k => s.apWord w k) s) w n := by
    intro n
    induction n with
    | zero => exact fun _ => .zero s w
    | succ n ih =>
      intro hn
      rw [List.range_succ, List.foldl_append]
      exact (ih (by omega)).succ (h n (by omega))
  rw [State.apStore_eq]
  exact hfirst 8 le_rfl

/-- With all bytes enabled every word is wholly written. -/
theorem ApWrite.mask_full {w : ApWrite} (h : w.be = BitVec.allOnes 64) (k : Nat) (hk : k < 8) : w.mask k = 255 := by
  rw [ApWrite.mask, h]
  interval_cases k <;> rfl

/-- A whole line written: its bytes are the data, whatever the marks were. -/
theorem State.byte_apStore_full {s : State} {w : ApWrite} (hbe : w.be = BitVec.allOnes 64)
    (hs : s.flag Reg.DUMP_STAT Fl.DUMP_STAT_RETAINED = false) (i : Nat) (hi : i < 64) :
    (s.apStore w).byte w.core (w.off + i) = w.data.getD i 0 := by
  have hbit : w.be.getLsbD i = true := by rw [hbe, BitVec.getLsbD_allOnes, decide_eq_true hi]
  rw [(State.apStore_stored fun k hk => .inl (ApWrite.mask_full hbe k hk)).byte hs i, if_pos ⟨hi, hbit⟩]

theorem State.onlyPantry_apStore_full {s : State} {w : ApWrite} (hbe : w.be = BitVec.allOnes 64) :
    OnlyPantry s (s.apStore w) :=
  (State.apStore_stored fun k hk => .inl (ApWrite.mask_full hbe k hk)).only

end Sys2Proof.Machine
end

section
/-! PROOFS. What the accesses of R556 to R560 do: reads and writes of an aperture line, the end of a scrub with the writes that
waited for it, the answer to a back-invalidate, and a device load that has to wait for one. -/

namespace Sys2Proof.Machine

/-! ## Where a line lies (R556) -/

theorem apLine_add_le (a : Nat) : apLine a + 64 ≤ pantrySize := by
  unfold apLine bitsOf pantrySize; omega

theorem apLine_mod (a : Nat) : apLine a % 64 = 0 := Nat.mul_mod_left _ 64

/-- A Pantry byte outside a line has another key than each byte of the line. -/
theorem pantryKey_ne_of_outside {c d o x i : Nat} (hx : x < pantrySize) (ho : o + 64 ≤ pantrySize) (hi : i < 64)
    (h : d ≠ c ∨ x < o ∨ o + 64 ≤ x) : pantryKey d x ≠ pantryKey c (o + i) := by
  intro heq
  obtain ⟨hd, hxi⟩ := (pantryKey_inj d c x (o + i) hx (by omega)).1 heq
  omega

theorem wordsOf_line {o : Nat} (h : o % 64 = 0) : wordsOf o 64 = (List.range 8).map fun k => o + 8 * k :=
  wordsOf_aligned o 8 (by omega)

/-- A line delivers poison exactly if one of its eight words does. -/
theorem State.poisonIn_line {s : State} {c o : Nat} (h : o % 64 = 0) :
    s.poisonIn c o 64 = true ↔ ∃ k < 8, s.poisonedAt c (o + 8 * k) = true := by
  simp [State.poisonIn, wordsOf_line h]

theorem State.poisonedAt_clean {s : State} {c o : Nat} (h : s.ecc c o = .clean) : s.poisonedAt c o = false := by
  rw [State.poisonedAt, h]

theorem State.poisonedAt_poisoned {s : State} {c o : Nat} (h : s.ecc c o = .poisoned) : s.poisonedAt c o = true := by
  rw [State.poisonedAt, h]

theorem State.asleep_eq_true {s : State} {c : Nat} (h : 3 ≤ s.sleep c) : s.asleep c = true := decide_eq_true h

theorem State.asleep_eq_false {s : State} {c : Nat} (h : s.sleep c < 3) : s.asleep c = false :=
  decide_eq_false (Nat.not_le.2 h)

/-! ## Counters -/

/-- A saturating counter reads one more, or its field's largest value. -/
theorem State.fld_bump_same (s : State) (o : Nat) (f : Fld) (n : Nat) (h : f.lsb + f.width ≤ 64) :
    (s.bump o f n).fld o f = min (s.fld o f + n) (2 ^ f.width - 1) := by
  have hpos := Nat.two_pow_pos f.width
  rw [State.bump, State.fld_setFld_same s o f _ h, Nat.mod_eq_of_lt (by omega)]

theorem State.regsKept_bump (s : State) (o : Nat) (f : Fld) (n : Nat) : RegsKept s (s.bump o f n) [o] := s.regsKept_wr o _

/-! ## Reads of a line (R556 to R560) -/

/-- What a read grants: nothing, a shared copy, or one that the host may modify (R558). -/
def State.grantAsked (s : State) (line : Nat) (ask : Fin 3) : State :=
  if ask.val = 0 then s else s.grantLine line (ask.val == 2)

section
variable (s : State) (line : Nat) (ask : Fin 3)

theorem State.rd_grantAsked (o : Nat) : (s.grantAsked line ask).rd o = s.rd o := by
  unfold State.grantAsked; split <;> rfl

theorem State.byte_grantAsked (d x : Nat) : (s.grantAsked line ask).byte d x = s.byte d x := by
  unfold State.grantAsked; split <;> rfl

theorem State.outbox_grantAsked : (s.grantAsked line ask).outbox = s.outbox := by
  unfold State.grantAsked; split <;> rfl

theorem State.tracked_grantAsked_none (h : ask.val = 0) : (s.grantAsked line ask).tracked = s.tracked := by
  rw [State.grantAsked, if_pos h]

/-- A granted line is tracked, as modifiable if it was asked for so. -/
theorem State.mem_tracked_grantAsked (h : ask.val ≠ 0) :
    ∃ own, (line, own) ∈ (s.grantAsked line ask).tracked ∧ (ask.val = 2 → own = true) := by
  refine ⟨(ask.val == 2) || s.tracked.any fun l => l.1 == line && l.2, ?_, fun h2 => by simp [h2]⟩
  rw [State.grantAsked, if_neg h]
  exact List.mem_append_right _ (List.mem_singleton.2 rfl)

end

/-- A line that delivers poison counts in HIF.AP_POISON (R559). -/
def State.apCounted (s : State) (c o : Nat) : State :=
  if s.poisonIn c o 64 then s.bump Reg.HIF_AP_POISON Fl.HIF_AP_POISON_COUNT else s

theorem State.byte_apCounted (s : State) (c o d x : Nat) : (s.apCounted c o).byte d x = s.byte d x := by
  unfold State.apCounted; split <;> rfl

theorem State.outbox_apCounted (s : State) (c o : Nat) : (s.apCounted c o).outbox = s.outbox := by
  unfold State.apCounted; split <;> rfl

/-- A read of a line that has room in the snoop filter: counted if it delivers poison, granted as asked, and answered. -/
def State.apServed (s : State) (c o line : Nat) (ask : Fin 3) : State :=
  ((s.apCounted c o).grantAsked line ask).emit (.apertureData line (s.bytes c o 64) (s.poisonIn c o 64))

section
variable (s : State) (c o line : Nat) (ask : Fin 3)

theorem State.outbox_apServed : (s.apServed c o line ask).outbox =
    s.outbox ++ [.apertureData line (s.bytes c o 64) (s.poisonIn c o 64)] := by
  rw [State.apServed, State.emit, State.outbox_grantAsked, State.outbox_apCounted]

theorem State.rd_apServed (j : Nat) : (s.apServed c o line ask).rd j = (s.apCounted c o).rd j :=
  State.rd_grantAsked _ _ _ j

theorem State.pantryKept_apServed : PantryKept s (s.apServed c o line ask) := fun d x =>
  (State.byte_grantAsked _ _ _ d x).trans (s.byte_apCounted c o d x)

theorem State.tracked_apServed : (s.apServed c o line ask).tracked = ((s.apCounted c o).grantAsked line ask).tracked := rfl

end

/-- The snoop filter has room for what a read asks for: nothing, a line that it holds, or one more (R558). -/
def State.hasRoom (s : State) (line : Nat) (ask : Fin 3) : Prop :=
  ask.val = 0 ∨ s.tracked.length < snoopSize ∨ (s.tracked.any fun l => l.1 == line) = true

section
variable {s : State} {a : DWord} {ask : Fin 3} (ha : s.Aperture a)
include ha

theorem State.Aperture.decoded : ¬((!s.memEn) = true ∨ 2 ^ 35 ≤ a.toNat) := by
  obtain ⟨-, hmem, hin⟩ := ha
  simp only [hmem, Bool.not_true, Bool.false_eq_true, false_or, Nat.not_le]
  exact hin

theorem exec_apertureRead_asleep (hs : 3 ≤ s.sleep (apCore a.toNat)) : exec (.apertureRead a ask) s =
    .next (s.apAsleep.emit (.apertureData (a.toNat / 64) (List.replicate 64 0xFF) false)) := by
  change execApertureRead a ask s = _
  rw [execApertureRead, if_neg (by simp [ha.link]), if_neg ha.decoded, if_pos (State.asleep_eq_true hs)]

/-- With the filter full, the line least recently granted is back-invalidated first. -/
theorem exec_apertureRead_full (hs : s.sleep (apCore a.toNat) < 3) (hroom : ¬s.hasRoom (a.toNat / 64) ask)
    {l : Nat × Bool} {ls : List (Nat × Bool)} (hl : s.tracked = l :: ls) :
    exec (.apertureRead a ask) s = .next (s.settle { s with biWant := [l.1] }) := by
  change execApertureRead a ask s = _
  obtain ⟨hask, hlen, hany⟩ : ask.val ≠ 0 ∧ ¬s.tracked.length < snoopSize ∧
      ¬(s.tracked.any fun l => l.1 == a.toNat / 64) = true := by
    simpa only [State.hasRoom, not_or] using hroom
  rw [execApertureRead, if_neg (by simp [ha.link]), if_neg ha.decoded, if_neg (by simp [State.asleep_eq_false hs]),
    if_pos ⟨hask, not_lt.1 hlen, by rw [Bool.eq_false_of_not_eq_true hany]; rfl⟩, hl]
  rfl

theorem exec_apertureRead_served (hs : s.sleep (apCore a.toNat) < 3) (hroom : s.hasRoom (a.toNat / 64) ask)
    (hmarks : ∀ k < 8, s.ecc (apCore a.toNat) (apLine a.toNat + 8 * k) = .clean ∨
      s.ecc (apCore a.toNat) (apLine a.toNat + 8 * k) = .poisoned) :
    exec (.apertureRead a ask) s = .next (s.apServed (apCore a.toNat) (apLine a.toNat) (a.toNat / 64) ask) := by
  change execApertureRead a ask s = _
  have hfits : ¬(ask.val ≠ 0 ∧ snoopSize ≤ s.tracked.length ∧
      (!(s.tracked.any fun l => l.1 == a.toNat / 64)) = true) := by
    rintro ⟨hask, hlen, hany⟩
    rcases hroom with h | h | h
    · exact hask h
    · omega
    · simp [h] at hany
  have hchecked : (wordsOf (apLine a.toNat) 64).foldl (fun (t : State) w => t.checkWord (apCore a.toNat) w) s = s := by
    refine State.checkWords_marked _ _ fun o ho => ?_
    rw [wordsOf_line (apLine_mod _)] at ho
    obtain ⟨k, hk, rfl⟩ := List.mem_map.1 ho
    exact hmarks k (List.mem_range.1 hk)
  rw [execApertureRead, if_neg (by simp [ha.link]), if_neg ha.decoded, if_neg (by simp [State.asleep_eq_false hs]),
    if_neg hfits, hchecked]
  have hbytes : ((s.apCounted (apCore a.toNat) (apLine a.toNat)).grantAsked (a.toNat / 64) ask).bytes (apCore a.toNat)
      (apLine a.toNat) 64 = s.bytes (apCore a.toNat) (apLine a.toNat) 64 :=
    List.map_congr_left fun i _ => (State.byte_grantAsked _ _ _ _ _).trans (State.byte_apCounted _ _ _ _ _)
  rw [State.apServed, ← hbytes]
  rfl

/-! ## Writes of a line (R556, R559, R560) -/

variable {data : List Byte} {be : DWord}

theorem State.Aperture.decodedWrite : ¬((!s.linkUp) = true ∨ (!s.memEn) = true ∨ 2 ^ 35 ≤ a.toNat) := by
  rintro (h | h)
  · simp [ha.link] at h
  · exact ha.decoded h

theorem exec_apertureWrite_asleep (hs : 3 ≤ s.sleep (apCore a.toNat)) :
    exec (.apertureWrite a data be) s = .next s.apAsleep := by
  change execApertureWrite a data be s = _
  rw [execApertureWrite, if_neg ha.decodedWrite, if_pos (State.asleep_eq_true hs)]

theorem exec_apertureWrite_waits (hs : s.sleep (apCore a.toNat) < 3) (hscrub : s.scrubbing (apCore a.toNat) = true) :
    exec (.apertureWrite a data be) s =
      .next { s with host.apWrites := s.host.apWrites ++ [⟨apCore a.toNat, apLine a.toNat, data, be⟩] } := by
  change execApertureWrite a data be s = _
  rw [execApertureWrite, if_neg ha.decodedWrite, if_neg (by simp [State.asleep_eq_false hs]), if_pos hscrub]

theorem exec_apertureWrite_stores (hs : s.sleep (apCore a.toNat) < 3) (hscrub : s.scrubbing (apCore a.toNat) = false) :
    exec (.apertureWrite a data be) s = .next (s.apStore ⟨apCore a.toNat, apLine a.toNat, data, be⟩) := by
  change execApertureWrite a data be s = _
  rw [execApertureWrite, if_neg ha.decodedWrite, if_neg (by simp [State.asleep_eq_false hs]), if_neg (by simp [hscrub])]

end

theorem exec_apertureRead_undecoded {s : State} (a : DWord) (ask : Fin 3) (hlink : s.linkUp = true)
    (hmem : s.memEn = false) : exec (.apertureRead a ask) s = .next (s.drew.emit
      (.apertureData (a.toNat / 64) ((List.range 64).map fun i => Config.undecoded s.fresh i) false)) := by
  change execApertureRead a ask s = _
  rw [execApertureRead, if_neg (by simp [hlink]), if_pos (Or.inl (by simp [hmem]))]

/-! ## The end of a scrub (R196, R387, R560) -/

section
variable (c : Nat)

theorem State.byte_putBytes_before (x : Nat) (bs : List Byte) : ∀ (s : State) (o : Nat), x < o →
    (s.putBytes c o bs).byte c x = s.byte c x := by
  induction bs with
  | nil => exact fun _ _ _ => rfl
  | cons b bs ih =>
    intro s o hx
    refine (ih _ (o + 1) (by omega)).trans (s.byte_setByte_other c o c x b ?_)
    unfold pantryKey; omega

/-- The bytes of a range read back. -/
theorem State.byte_putBytes (bs : List Byte) : ∀ (s : State) (o i : Nat),
    s.flag Reg.DUMP_STAT Fl.DUMP_STAT_RETAINED = false → i < bs.length →
    (s.putBytes c o bs).byte c (o + i) = bs.getD i 0 := by
  induction bs with
  | nil => exact fun _ _ _ _ hi => absurd hi (Nat.not_lt_zero _)
  | cons b bs ih =>
    intro s o i hs hi
    cases i with
    | zero =>
      exact (State.byte_putBytes_before c (o + 0) bs _ (o + 1) (by omega)).trans (State.byte_setByte_same c o hs b)
    | succ i =>
      have hbyte := ih (s.setByte c o b) (o + 1) i (by rw [(s.onlyPantry_setByte c o b).flag, hs]) (by simpa using hi)
      rw [Nat.add_right_comm] at hbyte
      exact hbyte

theorem State.byte_poisonFrom (d x : Nat) (bad : List Bool) : ∀ (s : State) (o : Nat),
    (s.poisonFrom c o bad).byte d x = s.byte d x := by
  induction bad with
  | nil => exact fun _ _ => rfl
  | cons b bad ih => exact fun s o => (ih _ (o + 1)).trans (by split <;> rfl)

/-- A whole word stored where no line is cached: its mark is cleared and its bytes are written. -/
theorem State.storeNow_word {s : State} {o : Nat} {bs : List Byte} (hlines : s.tracked = []) (ho : o % 8 = 0)
    (hlen : bs.length = 8) : s.storeNow c o bs = (s.setEcc c o .clean).putBytes c o bs := by
  have hwords : wordsOf o 8 = [o] := wordsOf_aligned o 1 ho
  rw [State.storeNow, State.wantLines_untracked hlines, hlen, State.touchWords, hwords, List.foldl_cons, List.foldl_nil,
    State.touchWord, if_pos ⟨le_rfl, le_rfl⟩]

/-- A write that waited for the end of a scrub stored, with its poison: one step of `State.scrubWritten`
(`State.scrubWritten_one`). -/
def State.lateStore (s : State) (w : ScrubWrite) : State := (s.storeNow c w.off w.data).poisonFrom c w.off w.bad

section
variable {s : State} {w : ScrubWrite} (hlines : s.tracked = []) (hoff : w.off % 8 = 0) (hlen : w.data.length = 8)
include hlines hoff hlen

theorem State.onlyPantry_lateStore : OnlyPantry s (s.lateStore c w) := by
  refine OnlyPantry.trans ?_ (State.onlyPantry_poisonFrom c w.bad _ w.off)
  rw [State.storeNow_word c hlines hoff hlen]
  exact (s.onlyPantry_setEcc c w.off .clean).trans (State.onlyPantry_putBytes c w.data _ w.off)

theorem State.byte_lateStore (hs : s.flag Reg.DUMP_STAT Fl.DUMP_STAT_RETAINED = false) (i : Nat) (hi : i < 8) :
    (s.lateStore c w).byte c (w.off + i) = w.data.getD i 0 := by
  rw [State.lateStore, State.byte_poisonFrom, State.storeNow_word c hlines hoff hlen]
  exact State.byte_putBytes c w.data _ w.off i hs (hi.trans_eq hlen.symm)

end

end

/-- SCRUB_BUSY clear. -/
def State.unscrubbed (s : State) (c : Nat) : State := s.setFld (Reg.CORE_STAT c) Fl.CORE_STAT_SCRUB_BUSY 0

/-- No write waits for the end of a scrub: none of a command, none of the aperture. -/
def State.withoutWrites (s : State) : State := { s with scrubWrites := [] }
def State.withoutAp (s : State) : State := { s with host.apWrites := [] }

/-- The aperture writes that waited for the end of a core's scrub stored, oldest first (R560). -/
def State.apWritten (s : State) (c : Nat) : State :=
  (s.host.apWrites.filter fun w => w.core == c).foldl (fun (t : State) w => t.apStore w)
    { s with host.apWrites := s.host.apWrites.filter fun w => w.core != c }

theorem State.rd_unscrubbed (s : State) (c o : Nat) (h : o ≠ Reg.CORE_STAT c) : (s.unscrubbed c).rd o = s.rd o :=
  s.rd_wr_other _ _ o h

/-- A state with the registers of the one whose scrub has ended. -/
theorem State.scrubOver {s t : State} {c : Nat} (h : ∀ o, t.rd o = (s.unscrubbed c).rd o) :
    t.scrubbing c = false ∧ RegsKept s t [Reg.CORE_STAT c] := by
  refine ⟨?_, fun o ho => (h o).trans (s.rd_unscrubbed c o (by simpa using ho))⟩
  have hfld := s.fld_setFld_same (Reg.CORE_STAT c) Fl.CORE_STAT_SCRUB_BUSY 0 (by decide)
  rw [State.scrubbing, State.flag, State.fld, h, ← State.fld, State.unscrubbed, hfld]
  rfl

theorem State.flag_unscrubbed (s : State) (c o : Nat) (f : Fld) (h : o ≠ Reg.CORE_STAT c) :
    (s.unscrubbed c).flag o f = s.flag o f := by
  rw [State.flag, State.fld, s.rd_unscrubbed c o h]; rfl

theorem State.scrubWritten_none {s : State} {c : Nat} (h : s.scrubWrites = []) : s.scrubWritten c = s := by
  simp only [State.scrubWritten, h, List.filter_nil, List.foldl_nil]
  rw [← h]

theorem State.apWritten_none {s : State} {c : Nat} (h : s.host.apWrites = []) : s.apWritten c = s := by
  simp only [State.apWritten, h, List.filter_nil, List.foldl_nil]
  rw [← h]

theorem State.scrubWritten_one {s : State} {c : Nat} {w : ScrubWrite} (h : s.scrubWrites = [w]) (hw : w.core = c) :
    s.scrubWritten c = s.withoutWrites.lateStore c w := by
  simp [State.scrubWritten, h, hw, State.withoutWrites, State.lateStore]

theorem State.apWritten_one {s : State} {c : Nat} {w : ApWrite} (h : s.host.apWrites = [w]) (hw : w.core = c) :
    s.apWritten c = s.withoutAp.apStore w := by
  simp [State.apWritten, h, hw, State.withoutAp]

/-- With no load and no rebind nothing waits for regions. -/
theorem State.powerPoll_idle {s : State} (hload : s.blk.load = none) (hrebind : s.blk.rebind = none) : s.powerPoll = s := by
  have hpoll : s.loadPoll = s := by simp only [State.loadPoll, hload]
  rw [State.powerPoll, hpoll]
  simp only [State.rebindPoll, hrebind]

/-- The end of a scrub clears SCRUB_BUSY and lets the writes go on that waited for it. -/
theorem exec_scrubComplete {s t : State} {c : CoreId} (hscrub : s.scrubbing c = true) (h : s.Settled)
    (ht : ((s.unscrubbed c).scrubWritten c).apWritten c = t) (hblk : t.blk = s.blk) (hstill : t.biWant = []) :
    exec (.scrubComplete c) s = .next t := by
  have hpoll : t.powerPoll = t := State.powerPoll_idle (by rw [hblk, h.load]) (by rw [hblk, h.rebind])
  change execScrubComplete c s = _
  rw [execScrubComplete, if_neg (by simp [hscrub])]
  change Host.Outcome.next (s.settle (((s.unscrubbed c).scrubWritten c).apWritten c).powerPoll) = _
  rw [ht, hpoll, State.settle_of_still s t hstill]

theorem dumpStat_ne_coreStat (c : Nat) : Reg.DUMP_STAT ≠ Reg.CORE_STAT c := by
  unfold Reg.DUMP_STAT Reg.CORE_STAT coreWin; omega

section
variable {s : State} {c : CoreId} (hscrub : s.scrubbing c = true) (h : s.Settled)
include hscrub h

theorem exec_scrubComplete_alone (hwrites : s.scrubWrites = []) (hap : s.host.apWrites = []) :
    exec (.scrubComplete c) s = .next (s.unscrubbed c) := by
  refine exec_scrubComplete hscrub h ?_ rfl h.still
  rw [State.scrubWritten_none (s := s.unscrubbed c) hwrites, State.apWritten_none (s := s.unscrubbed c) hap]

/-- A whole line that waited for the scrub is stored at its end. -/
theorem exec_scrubComplete_line {w : ApWrite} (hwrites : s.scrubWrites = []) (hap : s.host.apWrites = [w])
    (hcore : w.core = c.val) (hbe : w.be = BitVec.allOnes 64)
    (hfree : s.flag Reg.DUMP_STAT Fl.DUMP_STAT_RETAINED = false) :
    ∃ t, exec (.scrubComplete c) s = .next t ∧ (∀ o, t.rd o = (s.unscrubbed c).rd o) ∧ t.host.apWrites = [] ∧
      ∀ i < 64, t.byte c (w.off + i) = w.data.getD i 0 := by
  have hwritten : ((s.unscrubbed c).scrubWritten c).apWritten c = ((s.unscrubbed c).withoutAp).apStore w := by
    rw [State.scrubWritten_none (s := s.unscrubbed c) hwrites, State.apWritten_one (s := s.unscrubbed c) hap hcore]
  have honly : OnlyPantry (s.unscrubbed c).withoutAp ((s.unscrubbed c).withoutAp.apStore w) :=
    State.onlyPantry_apStore_full hbe
  have hflag : (s.unscrubbed c).withoutAp.flag Reg.DUMP_STAT Fl.DUMP_STAT_RETAINED = false :=
    (s.flag_unscrubbed c _ _ (dumpStat_ne_coreStat c)).trans hfree
  refine ⟨_, exec_scrubComplete hscrub h hwritten honly.blk (honly.biWant.trans h.still), honly.rd,
    congrArg HostIf.apWrites honly.host, fun i hi => ?_⟩
  rw [← hcore]
  exact State.byte_apStore_full hbe (hcore ▸ hflag) i hi

/-- A whole word that waited for the scrub is stored at its end. -/
theorem exec_scrubComplete_word {w : ScrubWrite} (hwrites : s.scrubWrites = [w]) (hap : s.host.apWrites = [])
    (hcore : w.core = c.val) (hoff : w.off % 8 = 0) (hlen : w.data.length = 8)
    (hfree : s.flag Reg.DUMP_STAT Fl.DUMP_STAT_RETAINED = false) (hlines : s.noHostLines) :
    ∃ t, exec (.scrubComplete c) s = .next t ∧ (∀ o, t.rd o = (s.unscrubbed c).rd o) ∧ t.scrubWrites = [] ∧
      ∀ i < 8, t.byte c (w.off + i) = w.data.getD i 0 := by
  have hnone : (s.unscrubbed c).withoutWrites.tracked = [] := hlines.1
  have honly : OnlyPantry (s.unscrubbed c).withoutWrites ((s.unscrubbed c).withoutWrites.lateStore c w) :=
    State.onlyPantry_lateStore c hnone hoff hlen
  have hflag : (s.unscrubbed c).withoutWrites.flag Reg.DUMP_STAT Fl.DUMP_STAT_RETAINED = false :=
    (s.flag_unscrubbed c _ _ (dumpStat_ne_coreStat c)).trans hfree
  have hwritten : ((s.unscrubbed c).scrubWritten c).apWritten c = (s.unscrubbed c).withoutWrites.lateStore c w := by
    rw [State.scrubWritten_one (s := s.unscrubbed c) hwrites hcore]
    exact State.apWritten_none ((congrArg HostIf.apWrites honly.host).trans hap)
  exact ⟨_, exec_scrubComplete hscrub h hwritten honly.blk (honly.biWant.trans h.still), honly.rd, honly.scrubWrites,
    State.byte_lateStore c hnone hoff hlen hflag⟩

end

/-! ## The answer to a back-invalidate (R558) -/

/-- A line that the host has given up: no longer asked for and no longer tracked. -/
def State.givenUp (s : State) (n : Nat) : State :=
  { s with biSent := s.biSent.filter (fun k => k != n), tracked := s.tracked.filter fun l => l.1 != n }

/-- What a given-up line leaves in a state with the same tracking. -/
theorem State.givenUp_gone {s t : State} {n : Nat} (hsent : t.biSent = (s.givenUp n).biSent)
    (htracked : t.tracked = (s.givenUp n).tracked) : n ∉ t.biSent ∧ ∀ l ∈ t.tracked, l.1 ≠ n := by
  rw [hsent, htracked]
  exact ⟨by simp [State.givenUp], fun l hl => by simpa using (List.mem_filter.1 hl).2⟩

/-- The write of a line that the host had modified. -/
def lineWrite (n : Nat) (d : List Byte) : ApWrite := ⟨apCore (64 * n), apLine (64 * n), d, BitVec.allOnes 64⟩

theorem bytesAt_all {d : List Byte} {n : Nat} (h : d.length = n) : bytesAt d 0 n = d := by
  subst h; simp [bytesAt]

section
variable {s : State} {line : DWord} (hsent : line.toNat ∈ s.biSent)
include hsent

theorem exec_backInvalidateResponse_none :
    exec (.backInvalidateResponse line none) s = .next (s.givenUp line.toNat) := by
  change execBackInvalidateResponse line none s = _
  rw [execBackInvalidateResponse, if_neg (by simpa using hsent)]
  rfl

variable {d : List Byte} (hd : d.length = 64)
include hd

/-- The data of a line that the host had modified are discarded where the core is asleep, wait for a scrub of it, or are
stored. -/
theorem exec_backInvalidateResponse_some : exec (.backInvalidateResponse line (some d)) s =
    .next (if s.asleep (apCore (64 * line.toNat)) then s.givenUp line.toNat
      else if s.scrubbing (apCore (64 * line.toNat)) then
        { s.givenUp line.toNat with host.apWrites := s.host.apWrites ++ [lineWrite line.toNat d] }
      else (s.givenUp line.toNat).apStore (lineWrite line.toNat d)) := by
  have hwrite : lineWrite line.toNat d = lineWrite line.toNat (bytesAt d 0 64) := by rw [bytesAt_all hd]
  change execBackInvalidateResponse line (some d) s = _
  rw [execBackInvalidateResponse, if_neg (by simpa using hsent), hwrite]
  rfl

variable (hs : s.sleep (apCore (64 * line.toNat)) < 3)
include hs

theorem exec_backInvalidateResponse_waits (hscrub : s.scrubbing (apCore (64 * line.toNat)) = true) :
    exec (.backInvalidateResponse line (some d)) s = .next { s.givenUp line.toNat with
      host.apWrites := s.host.apWrites ++ [lineWrite line.toNat d] } := by
  rw [exec_backInvalidateResponse_some hsent hd, if_neg (by simp [State.asleep_eq_false hs]), if_pos hscrub]

theorem exec_backInvalidateResponse_stores (hscrub : s.scrubbing (apCore (64 * line.toNat)) = false) :
    exec (.backInvalidateResponse line (some d)) s =
      .next ((s.givenUp line.toNat).apStore (lineWrite line.toNat d)) := by
  rw [exec_backInvalidateResponse_some hsent hd, if_neg (by simp [State.asleep_eq_false hs]), if_neg (by simp [hscrub])]

end

/-! ## A device load of a line that the host holds (R558) -/

section
variable {s : State} {c : CoreId} {f : RFmt}

theorem State.AddrOk.ea {n : Nat} (h : s.AddrOk c f n) : s.ea c f = s.loadAddr c f := by
  rw [State.ea, Nat.mod_eq_of_lt h.areg]; rfl

theorem State.AddrOk.inRange {n : Nat} (h : s.AddrOk c f n) : s.eaBad c f n = false := by
  have hbase : ¬pantrySize ≤ (s.a c f.ga.val).toNat := Nat.not_le.2 h.base
  have hhigh : ¬(pantrySize : Int) < s.loadAddr c f + n := Int.not_lt.2 h.high
  rw [State.eaBad, h.ea, Nat.mod_eq_of_lt h.areg, decide_eq_false hbase, decide_eq_false (Int.not_lt.2 h.low),
    decide_eq_false hhigh]
  rfl

theorem State.AddrOk.toNat_mod {n : Nat} (h : s.AddrOk c f n) : (s.loadAddr c f).toNat % n = 0 := by
  have hlow := h.low
  have haligned := h.aligned
  zify
  rw [Int.toNat_of_nonneg hlow, haligned]

/-- A load that is ready from a word without error issues, and its accesses are checked. -/
theorem load_ready (hf : f.resv = 0) (haddr : s.AddrOk c f 8) (hclean : s.ecc c (s.loadAddr c f).toNat = .clean)
    (hready : s.Ready c (f.word 0x10) (s.pcNext c)) : load 0x10 8 c f s =
      ((s.issued c (s.pcNext c)).checkRange c (s.loadAddr c f).toNat 8).setG c f.gd.val
        (BitVec.ofNat 64 (leNat (s.bytes c (s.loadAddr c f).toNat 8))) := by
  have hwords : wordsOf (s.loadAddr c f).toNat 8 = [(s.loadAddr c f).toNat] := wordsOf_aligned _ 1 haddr.toNat_mod
  have hpoison : s.poisonIn c (s.loadAddr c f).toNat 8 = false := by
    simp [State.poisonIn, hwords, State.poisonedAt_clean hclean]
  have hareg : aregBad f.ga = false := decide_eq_false (Nat.not_le.2 haddr.areg)
  have hcheck : firstCause [(s.eaBad c f 8, .pantryRange), ((s.loadAddr c f).toNat % 8 != 0, .misaligned),
      (s.poisonIn c (s.loadAddr c f).toNat 8, .poisonLoad)] = none := by
    simp [firstCause, haddr.inRange, haddr.toNat_mod, hpoison]
  rw [load, haddr.ea, hcheck, issue, issueOr_ready _ _ _ _ hready (RFmt.word_defined f 0x10 (by decide))
    (by rw [RFmt.bad_zero f hf, hareg]; rfl) rfl rfl]
  rfl

end

/-- A read of one modifiable line that is the only one tracked wants that line. -/
theorem State.biWant_wantLines {s : State} {c o n line : Nat} (hwant : s.biWant = []) (hn : 0 < n)
    (hline : line = pantryKey c o / 64) (htracked : s.tracked = [(line, true)]) :
    (s.wantLines c o n true).biWant = [line] := by
  have hlo : pantryKey c o / 64 ≤ line := hline.ge
  have hhi : line < (pantryKey c o + n + 63) / 64 := by omega
  simp [State.wantLines, htracked, hwant, hlo, hhi]

theorem State.ecc_wantLines (s : State) (c o n : Nat) (read : Bool) (d x : Nat) :
    (s.wantLines c o n read).ecc d x = s.ecc d x := by
  unfold State.wantLines; split <;> rfl

theorem State.biWant_setG (s : State) (c n : Nat) (v : DWord) : (s.setG c n v).biWant = s.biWant := by
  unfold State.setG; split <;> rfl

/-- A check of words without error wants lines only. -/
theorem State.checkRange_marked {s : State} {c o n : Nat}
    (h : ∀ w ∈ wordsOf o n, s.ecc c w = .clean ∨ s.ecc c w = .poisoned) : s.checkRange c o n = s.wantLines c o n true :=
  State.checkWords_marked c _ fun w hw => by simpa only [State.ecc_wantLines] using h w hw

/-- A command that met no error of a Pantry begins no storm (R571). -/
theorem State.stormAfter_calm {s t : State} (h : t.faults = s.faults) (c : Nat) : s.stormAfter t c = t :=
  if_pos (by rw [h])

/-- The back-invalidate of a line sent, unless it has been. -/
def State.asksBack (s : State) (line : Nat) : State :=
  ({ s with biSent := s.biSent ++ ([line].filter fun l => !s.biSent.contains l).eraseDups } : State).count Reg.HIF_BISNP
    ([line].filter fun l => !s.biSent.contains l).eraseDups.length

theorem State.settle_one {s t : State} {line : Nat} (h : t.biWant = [line]) : s.settle t = s.asksBack line := by
  rw [State.settle_waits (by simp [h]), h]; rfl

theorem State.mem_biSent_asksBack (s : State) (line : Nat) : line ∈ (s.asksBack line).biSent := by
  rw [State.asksBack, State.count_biSent]
  by_cases h : line ∈ s.biSent
  · exact List.mem_append_left _ h
  · exact List.mem_append_right _ (by simp [h])

theorem State.regsKept_asksBack (s : State) (line : Nat) : RegsKept s (s.asksBack line) [Reg.HIF_BISNP] := fun o ho =>
  State.rd_wr_other _ _ _ o (by simpa using ho)

/-- A load from a line that the host may have modified waits for its back-invalidate. -/
theorem exec_ld_asksBack {s : State} {c : CoreId} {f : RFmt} {line : Nat} (hf : f.resv = 0) (haddr : s.AddrOk c f 8)
    (hclean : s.ecc c (s.loadAddr c f).toNat = .clean) (hready : s.Ready c (f.word 0x10) (s.pcNext c))
    (hwant : s.biWant = []) (hline : line = pantryKey c (s.loadAddr c f).toNat / 64)
    (htracked : s.tracked = [(line, true)]) : exec (.ld c f) s = .next (s.asksBack line) := by
  have hwords : wordsOf (s.loadAddr c f).toNat 8 = [(s.loadAddr c f).toNat] := wordsOf_aligned _ 1 haddr.toNat_mod
  have hmarks : ∀ w ∈ wordsOf (s.loadAddr c f).toNat 8, (s.issued c (s.pcNext c)).ecc c w = .clean ∨
      (s.issued c (s.pcNext c)).ecc c w = .poisoned := by
    intro w hw
    obtain rfl : w = (s.loadAddr c f).toNat := by simpa [hwords] using hw
    exact .inl (by rw [State.ecc, State.issued_pantryEcc]; exact hclean)
  have hload : (load 0x10 8 c f s).biWant = [line] := by
    rw [load_ready hf haddr hclean hready, State.biWant_setG, State.checkRange_marked hmarks]
    exact State.biWant_wantLines (by rw [State.issued_biWant, hwant]) (by decide) hline (by rw [State.issued_tracked, htracked])
  change Host.Outcome.next (s.stormAfter (s.settle (load 0x10 8 c f s)) c) = _
  have hfaults : (s.asksBack line).faults = s.faults := State.count_faults _ _ _
  rw [State.settle_one hload, State.stormAfter_calm hfaults]

end Sys2Proof.Machine
end

section
/-! PROOFS. O54, the coherence of the Pantry aperture: what each access answers, counts, tracks and leaves. -/

namespace Sys2Proof.Machine

/-! ## Reads and writes of a line -/

section
variable {s : State} {a : DWord} {ask : Fin 3} (ha : s.Aperture a)
include ha

/-- HIF.AP_ASLEEP counts an access to a core that sleeps (R560). -/
theorem apertureRead_asleep (hs : 3 ≤ s.sleep (apCore a.toNat)) : ∃ t, exec (.apertureRead a ask) s = .next t ∧
    RegsKept s t [Reg.HIF_AP_ASLEEP] ∧ PantryKept s t ∧
    t.outbox = s.outbox ++ [.apertureData (a.toNat / 64) (List.replicate 64 0xFF) false] ∧
    t.fld Reg.HIF_AP_ASLEEP Fl.HIF_AP_ASLEEP_COUNT =
      min (s.fld Reg.HIF_AP_ASLEEP Fl.HIF_AP_ASLEEP_COUNT + 1) (2 ^ 32 - 1) :=
  ⟨_, exec_apertureRead_asleep ha hs, s.regsKept_bump _ _ _, fun _ _ => rfl, rfl, s.fld_bump_same _ _ _ (by decide)⟩

theorem apertureRead_full (hs : s.sleep (apCore a.toNat) < 3) (hroom : ¬s.hasRoom (a.toNat / 64) ask)
    {l : Nat × Bool} {ls : List (Nat × Bool)} (hl : s.tracked = l :: ls) : ∃ t, exec (.apertureRead a ask) s = .next t ∧
      t.outbox = s.outbox ∧ t.tracked = s.tracked ∧ l.1 ∈ t.biSent ∧ PantryKept s t := by
  have hasks : s.settle { s with biWant := [l.1] } = s.asksBack l.1 := State.settle_one rfl
  exact ⟨_, (exec_apertureRead_full ha hs hroom hl).trans (congrArg _ hasks), rfl, rfl, s.mem_biSent_asksBack _,
    fun _ _ => rfl⟩

/-- A line without error is answered with its bytes, and what is asked for is tracked. -/
theorem apertureRead_clean (hs : s.sleep (apCore a.toNat) < 3) (hroom : s.hasRoom (a.toNat / 64) ask)
    (hclean : ∀ k < 8, s.ecc (apCore a.toNat) (apLine a.toNat + 8 * k) = .clean) :
    ∃ t, exec (.apertureRead a ask) s = .next t ∧
      t.outbox = s.outbox ++ [.apertureData (a.toNat / 64) (s.bytes (apCore a.toNat) (apLine a.toNat) 64) false] ∧
      RegsKept s t [] ∧ PantryKept s t ∧ (ask.val = 0 → t.tracked = s.tracked) ∧
      (ask.val = 1 → ∃ own, (a.toNat / 64, own) ∈ t.tracked) ∧ (ask.val = 2 → (a.toNat / 64, true) ∈ t.tracked) := by
  have hgood : s.poisonIn (apCore a.toNat) (apLine a.toNat) 64 = false := by
    rw [Bool.eq_false_iff, ne_eq, State.poisonIn_line (apLine_mod _)]
    rintro ⟨k, hk, hbad⟩
    rw [State.poisonedAt_clean (hclean k hk)] at hbad
    cases hbad
  have hcounted : s.apCounted (apCore a.toNat) (apLine a.toNat) = s := if_neg (by rw [hgood]; decide)
  have hgranted (hask : ask.val ≠ 0) := s.mem_tracked_grantAsked (a.toNat / 64) ask hask
  refine ⟨_, exec_apertureRead_served ha hs hroom fun k hk => .inl (hclean k hk), ?_, ?_, s.pantryKept_apServed _ _ _ _, ?_⟩
  · rw [State.outbox_apServed, hgood]
  · exact fun o _ => by rw [State.rd_apServed, hcounted]
  · rw [State.tracked_apServed, hcounted]
    refine ⟨s.tracked_grantAsked_none _ _, fun h1 => ?_, fun h2 => ?_⟩
    · obtain ⟨own, hmem, -⟩ := hgranted (by omega)
      exact ⟨own, hmem⟩
    · obtain ⟨own, hmem, hown⟩ := hgranted (by omega)
      exact hown h2 ▸ hmem

/-- A line with a poisoned word is answered with the poison indication, and the read is counted (R559). -/
theorem apertureRead_poisoned (hs : s.sleep (apCore a.toNat) < 3) (hroom : s.hasRoom (a.toNat / 64) ask)
    (hmarks : ∀ k < 8, s.ecc (apCore a.toNat) (apLine a.toNat + 8 * k) = .clean ∨
      s.ecc (apCore a.toNat) (apLine a.toNat + 8 * k) = .poisoned)
    {m : Nat} (hm : m < 8) (hpoison : s.ecc (apCore a.toNat) (apLine a.toNat + 8 * m) = .poisoned) :
    ∃ t, exec (.apertureRead a ask) s = .next t ∧
      t.outbox = s.outbox ++ [.apertureData (a.toNat / 64) (s.bytes (apCore a.toNat) (apLine a.toNat) 64) true] ∧
      PantryKept s t ∧ t.fld Reg.HIF_AP_POISON Fl.HIF_AP_POISON_COUNT =
        min (s.fld Reg.HIF_AP_POISON Fl.HIF_AP_POISON_COUNT + 1) (2 ^ 32 - 1) := by
  have hbad : s.poisonIn (apCore a.toNat) (apLine a.toNat) 64 = true :=
    (State.poisonIn_line (apLine_mod _)).2 ⟨m, hm, State.poisonedAt_poisoned hpoison⟩
  have hcounted : s.apCounted (apCore a.toNat) (apLine a.toNat) = s.bump Reg.HIF_AP_POISON Fl.HIF_AP_POISON_COUNT :=
    if_pos hbad
  refine ⟨_, exec_apertureRead_served ha hs hroom hmarks, ?_, s.pantryKept_apServed _ _ _ _, ?_⟩
  · rw [State.outbox_apServed, hbad]
  · rw [State.fld, State.rd_apServed, hcounted]
    exact s.fld_bump_same _ _ _ (by decide)

variable {data : List Byte} {be : DWord}

theorem apertureWrite_asleep (hs : 3 ≤ s.sleep (apCore a.toNat)) : ∃ t, exec (.apertureWrite a data be) s = .next t ∧
    RegsKept s t [Reg.HIF_AP_ASLEEP] ∧ PantryKept s t ∧ t.fld Reg.HIF_AP_ASLEEP Fl.HIF_AP_ASLEEP_COUNT =
      min (s.fld Reg.HIF_AP_ASLEEP Fl.HIF_AP_ASLEEP_COUNT + 1) (2 ^ 32 - 1) :=
  ⟨_, exec_apertureWrite_asleep ha hs, s.regsKept_bump _ _ _, fun _ _ => rfl, s.fld_bump_same _ _ _ (by decide)⟩

/-- The words of a line without unknown errors are stored by a write, each under its byte enables. -/
theorem apertureWrite_stored (hs : s.sleep (apCore a.toNat) < 3) (hscrub : s.scrubbing (apCore a.toNat) = false)
    (hmarks : ∀ k < 8, s.ecc (apCore a.toNat) (apLine a.toNat + 8 * k) = .clean ∨
      s.ecc (apCore a.toNat) (apLine a.toNat + 8 * k) = .poisoned) :
    ∃ t, exec (.apertureWrite a data be) s = .next t ∧ LineStored s t ⟨apCore a.toNat, apLine a.toNat, data, be⟩ 8 :=
  ⟨_, exec_apertureWrite_stores ha hs hscrub, State.apStore_stored fun k hk => .inr (hmarks k hk)⟩

theorem apertureWrite_clean (hs : s.sleep (apCore a.toNat) < 3) (hscrub : s.scrubbing (apCore a.toNat) = false)
    (hfree : s.writable (apCore a.toNat))
    (hclean : ∀ k < 8, s.ecc (apCore a.toNat) (apLine a.toNat + 8 * k) = .clean) :
    ∃ t, exec (.apertureWrite a data be) s = .next t ∧ RegsKept s t [] ∧
      (∀ i < 64, t.byte (apCore a.toNat) (apLine a.toNat + i) =
        if be.getLsbD i then data.getD i 0 else s.byte (apCore a.toNat) (apLine a.toNat + i)) ∧
      ∀ d x, d < 256 → x < pantrySize → d ≠ apCore a.toNat ∨ x < apLine a.toNat ∨ apLine a.toNat + 64 ≤ x →
        t.byte d x = s.byte d x := by
  obtain ⟨-, hret, -⟩ := hfree
  obtain ⟨t, hexec, hstored⟩ := apertureWrite_stored (data := data) (be := be) ha hs hscrub fun k hk => .inl (hclean k hk)
  refine ⟨t, hexec, hstored.only.regsKept [], fun i hi => ?_, fun d x _ hx hout => ?_⟩
  · rw [hstored.byte hret i]
    simp only [hi, true_and]
  · exact hstored.other d x fun i hi => pantryKey_ne_of_outside hx (apLine_add_le _) hi hout

/-- A write of all 64 bits of a poisoned word clears its poison; another leaves it (R559). -/
theorem apertureWrite_poisoned (hs : s.sleep (apCore a.toNat) < 3) (hscrub : s.scrubbing (apCore a.toNat) = false)
    (hmarks : ∀ k < 8, s.ecc (apCore a.toNat) (apLine a.toNat + 8 * k) = .clean ∨
      s.ecc (apCore a.toNat) (apLine a.toNat + 8 * k) = .poisoned)
    {m : Nat} (hm : m < 8) (hpoison : s.ecc (apCore a.toNat) (apLine a.toNat + 8 * m) = .poisoned) :
    ∃ t, exec (.apertureWrite a data be) s = .next t ∧
      t.ecc (apCore a.toNat) (apLine a.toNat + 8 * m) = if bitsOf be.toNat (8 * m) 8 = 255 then .clean else .poisoned := by
  obtain ⟨t, hexec, hstored⟩ := apertureWrite_stored (data := data) (be := be) ha hs hscrub hmarks
  have hmark := hstored.mark m
  simp only [hm, true_and, hpoison] at hmark
  exact ⟨t, hexec, hmark⟩

end

/-! ## Back-invalidates and snoops -/

section
variable {s : State} {line : DWord} (hsent : line.toNat ∈ s.biSent)
include hsent

theorem backInvalidateResponse_none : ∃ t, exec (.backInvalidateResponse line none) s = .next t ∧ line.toNat ∉ t.biSent ∧
    (∀ l ∈ t.tracked, l.1 ≠ line.toNat) ∧ RegsKept s t [] ∧ PantryKept s t := by
  obtain ⟨hs, ht⟩ := State.givenUp_gone (s := s) (n := line.toNat) rfl rfl
  exact ⟨_, exec_backInvalidateResponse_none hsent, hs, ht, fun _ _ => rfl, fun _ _ => rfl⟩

variable {d : List Byte} (hd : d.length = 64) (hs : s.sleep (apCore (64 * line.toNat)) < 3)
include hd hs

theorem backInvalidateResponse_stores (hscrub : s.scrubbing (apCore (64 * line.toNat)) = false)
    (hfree : s.writable (apCore (64 * line.toNat))) : ∃ t, exec (.backInvalidateResponse line (some d)) s = .next t ∧
      line.toNat ∉ t.biSent ∧ (∀ l ∈ t.tracked, l.1 ≠ line.toNat) ∧ RegsKept s t [] ∧
      ∀ i < 64, t.byte (apCore (64 * line.toNat)) (apLine (64 * line.toNat) + i) = d.getD i 0 := by
  obtain ⟨-, hret, -⟩ := hfree
  have honly : OnlyPantry (s.givenUp line.toNat) ((s.givenUp line.toNat).apStore (lineWrite line.toNat d)) :=
    State.onlyPantry_apStore_full rfl
  obtain ⟨hgone, htracked⟩ := State.givenUp_gone (s := s) (n := line.toNat) honly.biSent honly.tracked
  exact ⟨_, exec_backInvalidateResponse_stores hsent hd hs hscrub, hgone, htracked, honly.regsKept [],
    State.byte_apStore_full (s := s.givenUp line.toNat) (w := lineWrite line.toNat d) rfl hret⟩

theorem backInvalidateResponse_waits (hscrub : s.scrubbing (apCore (64 * line.toNat)) = true) :
    ∃ t w, exec (.backInvalidateResponse line (some d)) s = .next t ∧ line.toNat ∉ t.biSent ∧
      (∀ l ∈ t.tracked, l.1 ≠ line.toNat) ∧ t.host.apWrites = s.host.apWrites ++ [w] ∧
      w.core = apCore (64 * line.toNat) ∧ w.off = apLine (64 * line.toNat) ∧ w.data = d ∧ RegsKept s t [] ∧
      PantryKept s t := by
  obtain ⟨hgone, htracked⟩ := State.givenUp_gone (s := s) (n := line.toNat) rfl rfl
  exact ⟨_, lineWrite line.toNat d, exec_backInvalidateResponse_waits hsent hd hs hscrub, hgone, htracked, rfl, rfl, rfl,
    rfl, fun _ _ => rfl, fun _ _ => rfl⟩

end

/-- A load that waits for a back-invalidate leaves its core as it was. -/
theorem State.asksBack_core (s : State) (line c n : Nat) :
    (s.asksBack line).g c n = s.g c n ∧ (s.asksBack line).pc c = s.pc c := by
  have hkept : ∀ o, coreWin c ≤ o → (s.asksBack line).rd o = s.rd o := fun o ho =>
    s.regsKept_asksBack line o (by unfold coreWin at ho; simp only [List.mem_singleton, Reg.HIF_BISNP]; omega)
  constructor
  · rw [State.g, State.g, hkept _ (by unfold Reg.SEQ_G; omega)]
  · rw [State.pc, State.fld, hkept _ (by unfold Reg.SEQ_PC; omega)]; rfl

/-- A snoop of a line with a write in flight waits for it (R552). -/
theorem exec_hostSnoop (s : State) (line : DWord) : exec (.hostSnoop line) s =
    .next (if s.flyingOver (line.toNat / 64 * 64) then { s with host.snoops := s.host.snoops ++ [line.toNat / 64 * 64] }
      else s.emit (.snoopMiss (line.toNat / 64 * 64))) := rfl

/-- Settles O54: reads by `exec_apertureRead_served` and its fellows; writes by `LineStored`, what a line write leaves, which
also serves the writes that wait for a scrub and the data of a back-invalidate; the waiting load by `exec_ld_asksBack`. -/
theorem theApertureIsCoherent : Obligations.TheApertureIsCoherent := by
  unfold Obligations.TheApertureIsCoherent
  intro s
  refine ⟨fun a ask ha => ⟨?readClean, ?readPoisoned, ?readFull, apertureRead_asleep ha, fun data be =>
      ⟨?writeClean, ?writePoisoned, ?writeWaits, apertureWrite_asleep ha⟩⟩,
    fun a ask hlink hmem => ⟨_, _, exec_apertureRead_undecoded a ask hlink hmem, rfl, rfl, fun _ _ => rfl⟩,
    fun c hscrub h => ⟨?scrubAlone, ?scrubLine, ?scrubWord⟩,
    fun line hsent => ⟨backInvalidateResponse_none hsent, fun d hd hs =>
      ⟨backInvalidateResponse_stores hsent hd hs, backInvalidateResponse_waits hsent hd hs⟩⟩,
    ?load, fun line => ⟨?snoopMiss, ?snoopHeld⟩⟩
  case readClean =>
    intro hs hroom hmarks
    exact apertureRead_clean ha hs hroom fun k hk => (hmarks k hk).resolve_right fun h => by omega
  case readPoisoned =>
    intro m hm hs hroom hmarks hpoison
    exact apertureRead_poisoned ha hs hroom (fun k hk => (hmarks k hk).imp id And.right) hm hpoison
  case readFull => exact fun l ls hs hroom hl => apertureRead_full ha hs hroom hl
  case writeClean =>
    intro hs hscrub hfree hmarks
    exact apertureWrite_clean ha hs hscrub hfree fun k hk => (hmarks k hk).resolve_right fun h => by omega
  case writePoisoned =>
    intro m hm hs hscrub hmarks hpoison
    exact apertureWrite_poisoned ha hs hscrub (fun k hk => (hmarks k hk).imp id And.right) hm hpoison
  case writeWaits =>
    exact fun hs hscrub => ⟨_, exec_apertureWrite_waits ha hs hscrub, rfl, fun _ _ => rfl, fun _ _ => rfl⟩
  case scrubAlone =>
    exact fun hwrites hap => ⟨_, exec_scrubComplete_alone hscrub h hwrites hap, State.scrubOver fun _ => rfl, fun _ _ => rfl⟩
  case scrubLine =>
    intro w hwrites hap hcore _ _ hbe hfree
    obtain ⟨t, hexec, hregs, hnone, hbytes⟩ := exec_scrubComplete_line hscrub h hwrites hap hcore hbe hfree
    exact ⟨t, hexec, State.scrubOver hregs, hnone, hbytes⟩
  case scrubWord =>
    intro w hwrites hap hcore hoff _ hlen hfree hlines
    obtain ⟨t, hexec, hregs, hnone, hbytes⟩ := exec_scrubComplete_word hscrub h hwrites hap hcore hoff hlen hfree hlines
    exact ⟨t, hexec, State.scrubOver hregs, hnone, hbytes⟩
  case load =>
    intro c f hf haddr hclean hready hwant line htracked
    obtain ⟨hg, hpc⟩ := s.asksBack_core line c f.gd.val
    exact ⟨_, exec_ld_asksBack hf haddr hclean hready hwant rfl htracked, s.mem_biSent_asksBack line, hg, hpc,
      s.regsKept_asksBack line, fun _ _ => rfl⟩
  case snoopMiss =>
    intro hidle
    rw [exec_hostSnoop, if_neg (by simp [hidle])]
    rfl
  case snoopHeld =>
    intro hflying
    exact ⟨_, (exec_hostSnoop s line).trans (congrArg _ (if_pos hflying)), rfl,
      List.mem_append_right _ (List.mem_singleton.2 rfl)⟩

end Sys2Proof.Machine
end

section
/-! PROOFS. The step and the tick (O1), and what reset leaves (O59). -/

namespace Sys2Proof.Machine

/-- Settles O1: both sides take the command off the queue before they run it. -/
theorem stepRunsFrontCommand : Obligations.StepRunsFrontCommand := fun _ _ => rfl

/-! ## Reset -/

theorem reset_canonical : State.reset.canonical = true := rfl

theorem reset_cores : ∀ c < 256, State.reset.seq c = seqHalted ∧ State.reset.sleep c = 4 ∧ State.reset.bound c = false := by
  decide +kernel

theorem reset_rd (o : Nat) : State.reset.rd o = resetOf o := rfl
/-- The reset value of a register that is found in its block's table. -/
theorem resetOf_of_locate {x inst o : Nat} {b : Block} {d : RegDesc} (hloc : locate x = some (inst, b, o))
    (hd : findReg b o = some d) : resetOf x = BitVec.ofNat 64 d.resetNat + fusedReset inst b o := by
  unfold resetOf
  rw [hloc]
  dsimp only
  rw [hd]

/-- A token register is zero at reset: what the block tables give does not depend on the core. -/
theorem resetOf_token (c : CoreId) {t : Nat} (ht : t < 16) : resetOf (Reg.SEQ_TOKEN c t) = 0 := by
  have hreg : ∀ t < 16, coreBlockOf (0x1040 + 4 * t) = (.seq, 0x40 + 4 * t) ∧
      (findReg .seq (0x40 + 4 * t)).map RegDesc.resetNat = some 0 := by decide
  obtain ⟨hblock, hfind⟩ := hreg t ht
  obtain ⟨d, hd, hzero⟩ := Option.map_eq_some_iff.1 hfind
  have hloc := locate_coreWin c (0x1040 + 4 * t) (by omega)
  rw [hblock, ← Nat.add_assoc] at hloc
  rw [Reg.SEQ_TOKEN, resetOf_of_locate hloc hd, hzero]
  rfl

theorem reset_tok (c : CoreId) (t : Nat) (ht : t < 16) : State.reset.tok c t = 0 := by
  rw [State.tok, State.fld, reset_rd, resetOf_token c ht]
  decide

theorem reset_units : ∀ k < 16, State.reset.inRun k = false ∧ State.reset.partState k = 0 := by decide +kernel

/-! ## The clock during the finish steps of an install (R164)

What a tick does beside the passing of time leaves the clock. -/

/-- The clock of a state shows `now`. -/
def NowAt (now : Nat) (s : State) : Prop := s.now = now

section
variable {s t : State} {now : Nat}
namespace NowAt

theorem ite {p : Prop} [Decidable p] (hs : NowAt now s) (ht : NowAt now t) : NowAt now (if p then s else t) := by
  split <;> assumption
theorem foldl {α : Type} {f : State → α → State} {l : List α} (hf : ∀ {t a}, NowAt now t → NowAt now (f t a))
    (h : NowAt now s) : NowAt now (l.foldl f s) := by
  induction l generalizing s with
  | nil => exact h
  | cons a l ih => exact ih (hf h)

theorem putBytes {c o : Nat} {bs : List Byte} (h : NowAt now s) : NowAt now (s.putBytes c o bs) := by
  induction bs generalizing s o with
  | nil => exact h
  | cons b bs ih => exact ih (.ite h h)
theorem logFault {code outcome detail : Nat} {u : FaultUnit} {part : Option Nat} (h : NowAt now s) :
    NowAt now (s.logFault code u part outcome detail) := by
  unfold State.logFault
  extract_lets seq k s1 s2
  have h1 : NowAt now s1 := .ite h h
  exact h1
theorem setFld {o x : Nat} {f : Fld} (h : NowAt now s) : NowAt now (s.setFld o f x) := h
theorem setEcc {c o : Nat} {m : EccMark} (h : NowAt now s) : NowAt now (s.setEcc c o m) := h
theorem bump {o n : Nat} {f : Fld} (h : NowAt now s) : NowAt now (s.bump o f n) := h
theorem noteError {c : Nat} {ue : Bool} (h : NowAt now s) : NowAt now (s.noteError c ue) := h
theorem checkWord {c off : Nat} (h : NowAt now s) : NowAt now (s.checkWord c off) := by
  unfold State.checkWord
  split
  · exact h
  · exact h
  · exact .noteError (.bump (.setFld (.setEcc h)))
  · exact .noteError (.logFault (.bump (.setFld (.setEcc h))))
theorem store {c off : Nat} {bs : List Byte} (h : NowAt now s) : NowAt now (s.store c off bs) :=
  .ite h (.putBytes (.foldl (fun h => .ite h (.checkWord h)) (.ite h h)))

theorem hvSync (h : NowAt now s) : NowAt now s.hvSync := h
theorem startRefreshes {fuel : Nat} (h : NowAt now s) : NowAt now (startRefreshes fuel s) := by
  induction fuel generalizing s with
  | zero => exact h
  | succ n ih =>
    unfold Machine.startRefreshes
    split
    · exact h
    · exact ih (.ite h h)
theorem chkChanged {p : Nat} {old s : State} (h : NowAt now s) : NowAt now (State.chkChanged p old s) :=
  .ite (.foldl (fun h => h) h) (.foldl (fun h => h) (.foldl (fun h => h) h))
theorem commitReport {g : Machine.Group} {r : Option (Nat × Nat)} (h : NowAt now s) : NowAt now (s.commitReport g r) := h
theorem commitChk {p : Nat} (h : NowAt now s) : NowAt now (s.commitChk p) := by
  unfold State.commitChk State.commit
  split
  · exact h
  · exact .commitReport (.chkChanged (.foldl (fun h => h) h))
theorem tighten {k : Install} (h : NowAt now s) : NowAt now (s.tighten k) :=
  .ite (.commitChk (.foldl (fun h => h) h)) h
theorem instEnd (h : NowAt now s) : NowAt now s.instEnd := by
  unfold State.instEnd State.instSync
  split
  · exact h
  · extract_lets s1
    have h1 : NowAt now s1 := .tighten h
    refine .ite (.hvSync (.startRefreshes h1)) ?_
    split <;> exact h

theorem rewriteLabels {g : Nat} {p : Nat → Bool} (h : NowAt now s) : NowAt now (s.rewriteLabels g p) :=
  .foldl (fun h => .ite h h) h
theorem clearRefFaults {g : Nat} (h : NowAt now s) : NowAt now (s.clearRefFaults g) := .foldl (fun h => .ite h h) h
theorem measureSums {d g : Nat} (h : NowAt now s) : NowAt now (s.measureSums d g) :=
  .foldl (fun h => .foldl (fun h => h) h) (.foldl (fun h => .foldl (fun h => h) h) h)
theorem measureSpans {d g : Nat} (h : NowAt now s) : NowAt now (s.measureSpans d g) :=
  .foldl (fun h => .foldl (fun h => h) h) h
theorem mapBin {k : Install} {e : List Byte} {g : Nat} (h : NowAt now s) : NowAt now (s.mapBin k e g) := h
theorem labelBin {k : Install} {e : List Byte} {g d : Nat} (h : NowAt now s) : NowAt now (s.labelBin k e g d) :=
  .clearRefFaults (.rewriteLabels (.measureSums (.measureSpans (.foldl (fun h => .foldl (fun h => h) h)
    (.mapBin (.foldl (fun h => h) h))))))
theorem clearStats {g : Nat} (h : NowAt now s) : NowAt now (s.clearStats g) := h
theorem setCheck {g : Nat} {k : BinCheck} (h : NowAt now s) : NowAt now (s.setCheck g k) := h
theorem setEnvelopes {e} (h : NowAt now s) : NowAt now { s with envelopes := e } := h
theorem setFresh {n : Nat} (h : NowAt now s) : NowAt now { s with fresh := n } := h
theorem setBinState {g : Nat} {x : BinState} (h : NowAt now s) : NowAt now (s.setBinState g x) := h
theorem envelopeOf {k : Install} {e : List Byte} {g d : Nat} (h : NowAt now s) : NowAt now (s.envelopeOf k e g d) :=
  .foldl (fun h => h) h
theorem putResult {k : Install} {n status : Nat} (h : NowAt now s) : NowAt now (s.putResult k n status) := by
  unfold State.putResult
  extract_lets base s1 s2
  have h1 : NowAt now s1 := .ite h h
  exact h1
theorem finishEntry {n : Nat} (h : NowAt now s) : NowAt now (s.finishEntry n) := by
  unfold State.finishEntry
  split
  · exact h
  · rename_i k _
    extract_lets e mine hasEnv one s1 rows a s2 status
    have hone : ∀ {t b}, NowAt now t → NowAt now (one t b) := fun {t b} h => by
      unfold one
      extract_lets t1 t2 t3 t4
      have h1 : NowAt now t1 := .setCheck (.clearStats (.labelBin h))
      have h2 : NowAt now t2 := .setEnvelopes h1
      have h3 : NowAt now t3 := .envelopeOf h2
      have h4 : NowAt now t4 := .ite (.setFresh h3) h2
      exact .ite (.setBinState h4) h4
    have h1 : NowAt now s1 := .foldl hone h
    exact .ite h (.putResult (.ite h1 (.store h1)))
theorem finishDue (h : NowAt now s) : NowAt now s.finishDue := by
  unfold State.finishDue
  split
  · exact h
  · exact .instEnd (.foldl (fun h => .finishEntry h) h)

end NowAt
end

/-! ## The tick -/

theorem finishing_timePasses (s : State) : s.timePasses.finishing = s.finishing := rfl
theorem tick_quiet {s : State} (h : s.finishing = false) : s.tick = s.timePasses := by
  unfold State.tick
  rw [if_neg (by simp [finishing_timePasses, h])]
theorem tick_now (s : State) : s.tick.now = s.now + 1 := by
  have h : NowAt (s.now + 1) s.timePasses := rfl
  exact NowAt.ite (.ite (.finishDue h) h) h

/-- Settles O59: what reset leaves is what the block tables give, and a tick that ends no finish step is `timePasses`. -/
theorem resetIsCanonicalAndIdleStepsPass : Obligations.ResetIsCanonicalAndIdleStepsPass := by
  unfold Obligations.ResetIsCanonicalAndIdleStepsPass
  refine ⟨reset_canonical, rfl, fun c hc => ?_, fun r hr => (reset_units r hr).1,
    fun p hp => ⟨(reset_units p hp).2, rfl⟩, fun _ _ => rfl, fun s hs => ⟨s.tick, ?_, tick_now s, fun hf => ?_⟩⟩
  · obtain ⟨hseq, hsleep, hbound⟩ := reset_cores c hc
    exact ⟨hseq, hsleep, hbound, reset_tok ⟨c, hc⟩, fun _ _ => rfl⟩
  · unfold step
    rw [hs]
  · rw [tick_quiet hf]
    exact ⟨rfl, fun _ _ => rfl⟩

end Sys2Proof.Machine
end

section
/-! PROOFS. The canonical form of the stores (O60): each function of the model that makes a state keeps it, function by
function in the order of the model, and so does each command. -/

namespace Sys2Proof.Machine

/-! ## The canonical form, store by store -/

/-- `State.canonical`, store by store. -/
structure Canonical (s : State) : Prop where
  regs : swf resetOf s.regs = true
  shadow : swf resetOf s.shadow = true
  pantry : Memory.wf s.pantry = true
  pantryEcc : swf (fun _ => EccMark.clean) s.pantryEcc = true
  code : swf (fun _ => (0 : DWord)) s.code = true
  codeEcc : swf (fun _ => EccMark.clean) s.codeEcc = true

theorem canonical_iff (s : State) : s.canonical = true ↔ Canonical s := by
  simp only [State.canonical, Bool.and_eq_true]
  exact ⟨fun ⟨⟨⟨⟨⟨a, b⟩, c⟩, d⟩, e⟩, f⟩ => ⟨a, b, c, d, e, f⟩, fun ⟨a, b, c, d, e, f⟩ => ⟨⟨⟨⟨⟨a, b⟩, c⟩, d⟩, e⟩, f⟩⟩

/-- An outcome whose next state, if it has one, is in canonical form. -/
def CanonicalOut (o : Out) : Prop := ∀ t, o = .next t → Canonical t
/-- A result whose state, if there is one, is in canonical form. -/
def CanonicalOpt (o : Option State) : Prop := ∀ t, o = some t → Canonical t

/-- The run of a group whose state is in canonical form. -/
def CanonicalRun (r : GroupRun) : Prop := Canonical r.st
/-- An attempt at a resume whose state, if there is one, is in canonical form. -/
def CanonicalTry (r : ResumeTry) : Prop := ∀ t, r = .go t → Canonical t

theorem CanonicalRun.mk {s : State} {a b c} (h : Canonical s) : CanonicalRun ⟨s, a, b, c⟩ := h
theorem Canonical.ofRun {r : GroupRun} (h : CanonicalRun r) : Canonical r.st := h
theorem CanonicalRun.ite {p : Prop} [Decidable p] {a b : GroupRun} (ha : CanonicalRun a) (hb : CanonicalRun b) :
    CanonicalRun (if p then a else b) := by split <;> assumption
theorem CanonicalTry.go {s : State} (h : Canonical s) : CanonicalTry (.go s) := fun t e => by
  cases e; exact h
theorem CanonicalTry.wait : CanonicalTry .wait := fun t e => by cases e
theorem CanonicalTry.refused {n : Nat} : CanonicalTry (.refused n) := fun t e => by cases e
theorem CanonicalTry.ite {p : Prop} [Decidable p] {a b : ResumeTry} (ha : CanonicalTry a) (hb : CanonicalTry b) :
    CanonicalTry (if p then a else b) := by split <;> assumption

theorem CanonicalOut.next {s : State} (h : Canonical s) : CanonicalOut (.next s) := fun t e => by
  cases e; exact h
theorem CanonicalOut.ite {p : Prop} [Decidable p] {a b : Out} (ha : CanonicalOut a) (hb : CanonicalOut b) :
    CanonicalOut (if p then a else b) := by split <;> assumption
theorem CanonicalOpt.some {s : State} (h : Canonical s) : CanonicalOpt (some s) := fun t e => by
  cases e; exact h
theorem CanonicalOpt.none : CanonicalOpt none := fun t e => by cases e
theorem CanonicalOpt.ite {p : Prop} [Decidable p] {a b : Option State} (ha : CanonicalOpt a) (hb : CanonicalOpt b) :
    CanonicalOpt (if p then a else b) := by split <;> assumption
theorem CanonicalOpt.map {o : Option State} {f : State → State} (ho : CanonicalOpt o)
    (hf : ∀ {t}, Canonical t → Canonical (f t)) : CanonicalOpt (o.map f) := by
  cases o with
  | none => exact .none
  | some t => exact .some (hf (ho t rfl))
theorem CanonicalOpt.getD {o : Option State} {s : State} (ho : CanonicalOpt o) (h : Canonical s) :
    Canonical (o.getD s) := by
  cases o with
  | none => exact h
  | some t => exact ho t rfl
theorem CanonicalOpt.bind {o : Option State} {f : State → Option State} (ho : CanonicalOpt o)
    (hf : ∀ {t}, Canonical t → CanonicalOpt (f t)) : CanonicalOpt (o.bind f) := by
  cases o with
  | none => exact .none
  | some t => exact hf (ho t rfl)

namespace Canonical
variable {s t : State}

/-- An update of other fields than the six stores. -/
theorem same
    {pending fresh nextId now latches scrubWrites tokOps lateWin twaits runTime waking sleepWant wokeAt acc accEcc
     tiles engOps engActive engBad vecOps fires outBufs winPends sigWaits sigOuts net pn cells scales wsums dsums
     rsums spans labelEcc testSums envelopes colStats binRecs rackRecs binChecks driftActs refreshQ refreshing
     autoRefresh hvRefresh quietAt driftLog errLog thrLog wear binMap thresholds threshBad tempTrim trimTemp
     tempOut actTests actTestAt ctxs passes trips normActs outbox claimQ power routes routesKept ports answered
     slackIn slots parts layerKv standIns kvHolds kvReserves kvSlots bookSlots kvOps loftFetches spills recency
     loftClean digestDirty tracked biSent biWant reqs notices queues host binds blk inst faults sec}
    (h : Canonical s) : Canonical
      ⟨pending, fresh, nextId, now, s.regs, s.shadow, latches, s.pantry, s.pantryEcc, scrubWrites, s.code,
       s.codeEcc, tokOps, lateWin, twaits, runTime, waking, sleepWant, wokeAt, acc, accEcc, tiles, engOps,
       engActive, engBad, vecOps, fires, outBufs, winPends, sigWaits, sigOuts, net, pn, cells, scales, wsums,
       dsums, rsums, spans, labelEcc, testSums, envelopes, colStats, binRecs, rackRecs, binChecks, driftActs,
       refreshQ, refreshing, autoRefresh, hvRefresh, quietAt, driftLog, errLog, thrLog, wear, binMap, thresholds,
       threshBad, tempTrim, trimTemp, tempOut, actTests, actTestAt, ctxs, passes, trips, normActs, outbox, claimQ,
       power, routes, routesKept, ports, answered, slackIn, slots, parts, layerKv, standIns, kvHolds, kvReserves,
       kvSlots, bookSlots, kvOps, loftFetches, spills, recency, loftClean, digestDirty, tracked, biSent, biWant,
       reqs, notices, queues, host, binds, blk, inst, faults, sec⟩ :=
  ⟨h.regs, h.shadow, h.pantry, h.pantryEcc, h.code, h.codeEcc⟩
theorem ite {p : Prop} [Decidable p] (hs : Canonical s) (ht : Canonical t) : Canonical (if p then s else t) := by
  split <;> assumption
theorem fst {β : Type} {x : β} (h : Canonical s) : Canonical (s, x).1 := h
theorem fstIte {β : Type} {p : Prop} [Decidable p] {a b : State × β} (ha : Canonical a.1) (hb : Canonical b.1) :
    Canonical (if p then a else b).1 := by split <;> assumption
theorem foldl {α : Type} {f : State → α → State} {l : List α} (hf : ∀ {t a}, Canonical t → Canonical (f t a))
    (h : Canonical s) : Canonical (l.foldl f s) := by
  induction l generalizing s with
  | nil => exact h
  | cons a l ih => exact ih (hf h)
theorem foldlFst {α β : Type} {f : State × β → α → State × β} {l : List α} {p : State × β}
    (hf : ∀ {p a}, Canonical p.1 → Canonical (f p a).1) (h : Canonical p.1) : Canonical (l.foldl f p).1 := by
  induction l generalizing p with
  | nil => exact h
  | cons a l ih => exact ih (hf h)
theorem wr {o : Nat} {v : DWord} (h : Canonical s) : Canonical (s.wr o v) :=
  { h with regs := swf_swrite _ _ _ _ h.regs }
theorem wrShadow {o : Nat} {v : DWord} (h : Canonical s) : Canonical (s.wrShadow o v) :=
  { h with shadow := swf_swrite _ _ _ _ h.shadow }
theorem setByte {c o : Nat} {b : Byte} (h : Canonical s) : Canonical (s.setByte c o b) :=
  .ite h { h with pantry := swf_swrite _ _ _ _ h.pantry }
theorem setEcc {c o : Nat} {m : EccMark} (h : Canonical s) : Canonical (s.setEcc c o m) :=
  { h with pantryEcc := swf_swrite _ _ _ _ h.pantryEcc }
theorem setCode {c i : Nat} {w : DWord} (h : Canonical s) : Canonical (s.setCode c i w) :=
  { h with code := swf_swrite _ _ _ _ h.code, codeEcc := swf_swrite _ _ (codeKey c i) EccMark.clean h.codeEcc }
theorem putBytes {c o : Nat} {bs : List Byte} (h : Canonical s) : Canonical (s.putBytes c o bs) := by
  induction bs generalizing s o with
  | nil => exact h
  | cons b bs ih => exact ih (.setByte h)
end Canonical

section
variable {s t : State}

/-! ## Ops -/

theorem Canonical.setFld {off : Nat} {f : Fld} {x : Nat} (h : Canonical s) : Canonical (s.setFld off f x) :=
  .wr h
theorem Canonical.bump {off : Nat} {f : Fld} {n : Nat} (h : Canonical s) : Canonical (s.bump off f n) :=
  .setFld h
theorem Canonical.count {off n : Nat} (h : Canonical s) : Canonical (s.count off n) :=
  .wr h
theorem Canonical.drew (h : Canonical s) : Canonical s.drew :=
  .same h
theorem Canonical.setSleep {c x : Nat} (h : Canonical s) : Canonical (s.setSleep c x) :=
  .setFld h
theorem Canonical.setG {c n : Nat} {v : DWord} (h : Canonical s) : Canonical (s.setG c n v) :=
  .ite h (.wr h)
theorem Canonical.setA {c n : Nat} {v : Word} (h : Canonical s) : Canonical (s.setA c n v) :=
  .wr h
theorem Canonical.emit {m : OutMsg} (h : Canonical s) : Canonical (s.emit m) :=
  .same h
theorem Canonical.launch {owner : Nat} (h2 : Canonical t) : Canonical (s.launch t owner) :=
  .same h2
theorem Canonical.landed {owner : Nat} (h : Canonical s) : Canonical (s.landed owner) :=
  .foldl (fun h => .emit h) (.same (.same h))
theorem Canonical.logFault {code : Nat} {u : FaultUnit} {part : Option Nat} {outcome detail : Nat}
    (h : Canonical s) : Canonical (s.logFault code u part outcome detail) :=
  .setFld (.same (.ite h (.bump h)))
theorem Canonical.setSeq {c x : Nat} (h : Canonical s) : Canonical (s.setSeq c x) :=
  .setFld h
theorem Canonical.setPc {c x : Nat} (h : Canonical s) : Canonical (s.setPc c x) :=
  .setFld h
theorem Canonical.noteError {c : Nat} {ue : Bool} (h : Canonical s) : Canonical (s.noteError c ue) :=
  .same h
theorem Canonical.checkWord {c off : Nat} (h : Canonical s) : Canonical (s.checkWord c off) := by
  unfold State.checkWord
  split
  · exact h
  · exact h
  · exact .noteError (.bump (.setFld (.setEcc h)))
  · exact .noteError (.logFault (.bump (.setFld (.setEcc h))))
theorem Canonical.wantLines {c off n : Nat} {read : Bool} (h : Canonical s) : Canonical (s.wantLines c off n read) :=
  .ite h (.same h)
theorem Canonical.settle (h : Canonical s) (h2 : Canonical t) : Canonical (s.settle t) :=
  .ite h2 (.count (.same h))
theorem Canonical.checkRange {c off n : Nat} (h : Canonical s) : Canonical (s.checkRange c off n) :=
  .foldl (fun h => .checkWord h) (.wantLines h)
theorem Canonical.look {c off n : Nat} (h : Canonical s) : Canonical (s.look c off n) :=
  .ite h (.checkRange h)
theorem Canonical.touchWord {c off n w : Nat} (h : Canonical s) : Canonical (s.touchWord c off n w) :=
  .ite (.setEcc h) (.checkWord h)
theorem Canonical.touchWords {c off n : Nat} (h : Canonical s) : Canonical (s.touchWords c off n) :=
  .foldl (fun h => .touchWord h) h
theorem Canonical.storeNow {c off : Nat} {bs : List Byte} (h : Canonical s) : Canonical (s.storeNow c off bs) :=
  .putBytes (.touchWords (.wantLines h))
theorem Canonical.store {c off : Nat} {bs : List Byte} (h : Canonical s) : Canonical (s.store c off bs) :=
  .ite (.same h) (.storeNow h)
theorem Canonical.poisonFrom {c off : Nat} {bs : List Bool} (h : Canonical s) :
    Canonical (s.poisonFrom c off bs) := by
  induction bs generalizing s off with
  | nil => exact h
  | cons b bs ih => exact ih (.ite (.setEcc h) h)
theorem Canonical.storeBad {c off : Nat} {bs : List Byte} {bad : List Bool} (h : Canonical s) :
    Canonical (s.storeBad c off bs bad) :=
  .ite (.same h) (.poisonFrom (.storeNow h))
theorem Canonical.scrubWritten {c : Nat} (h : Canonical s) : Canonical (s.scrubWritten c) :=
  .foldl (fun h => .poisonFrom (.storeNow h)) (.same h)
theorem Canonical.setTokCount {c t n : Nat} (h : Canonical s) : Canonical (s.setTokCount c t n) :=
  .same h
theorem Canonical.setTok {c t state status : Nat} (h : Canonical s) : Canonical (s.setTok c t state status) :=
  .wr h
theorem Canonical.freeBuf {c t : Nat} (h : Canonical s) : Canonical (s.freeBuf c t) :=
  .same h
theorem Canonical.tokIssue {c t : Nat} (h : Canonical s) : Canonical (s.tokIssue c t) :=
  .ite (.setTokCount h) (.setTok (.setTokCount (.freeBuf h)))
theorem Canonical.zeroClaim {c : Nat} (h : Canonical s) : Canonical (s.zeroClaim c) :=
  .setFld (.setFld (.same h))
theorem Canonical.faultRelease {c : Nat} (h : Canonical s) : Canonical (s.faultRelease c) :=
  .ite (.zeroClaim h) h
theorem Canonical.tokComplete {c t status : Nat} (h : Canonical s) : Canonical (s.tokComplete c t status) :=
  .ite (.faultRelease (.setTok (.setTokCount h))) h
theorem Canonical.sendPn {dest destModule src tag : Nat} {body : PnBody} (h : Canonical s) :
    Canonical (s.sendPn dest destModule src tag body) :=
  .same h
theorem Canonical.dropPn {id : Nat} (h : Canonical s) : Canonical (s.dropPn id) :=
  .same h
theorem Canonical.takePn {id : Nat} (h : Canonical s) : Canonical (s.takePn id) := by
  unfold State.takePn
  split
  · exact h
  · exact .ite (.count (.dropPn h)) (.same (.count (.dropPn h)))
theorem Canonical.dropTwait {c : Nat} (h : Canonical s) : Canonical (s.dropTwait c) :=
  .same h
theorem Canonical.raise {c : Nat} {x : Cause} {epc tok win : Nat} (h : Canonical s) :
    Canonical (s.raise c x epc tok win) :=
  .ite (.sendPn (.faultRelease (.setSeq (.setFld (.wr (.setFld (.dropTwait h))))))) (.ite (.setSeq (.setPc (.setFld
      (.setFld (.wr (.setFld (.dropTwait h))))))) (.sendPn (.faultRelease (.setSeq (.setFld (.wr (.setFld (.dropTwait
      h))))))))
theorem Canonical.returnExc {c : Nat} (h : Canonical s) : Canonical (s.returnExc c) :=
  .setPc (.setFld h)
theorem Canonical.takeLate {c : Nat} (h : Canonical s) : Canonical (s.takeLate c) :=
  .raise (.setFld (.same h))

/-! ## Flags -/

theorem Canonical.sticky {off : Nat} {f : Fld} {b : Bool} (h : Canonical s) : Canonical (s.sticky off f b) :=
  .ite (.setFld h) h
theorem Canonical.noteFlags {c : Nat} {k : ConvFlags} (h : Canonical s) : Canonical (s.noteFlags c k) :=
  .sticky (.sticky (.sticky (.sticky h)))
theorem Canonical.noteConv {c : Nat} {k : ConvFlags} (h : Canonical s) : Canonical (s.noteConv c k) :=
  .ite (.bump (.noteFlags h)) (.noteFlags h)

/-! ## Operands -/

theorem Canonical.fetched {c : Nat} (h : Canonical s) : Canonical (s.fetched c) := by
  unfold State.fetched
  split
  · exact .setCode h
  · exact h
theorem Canonical.issued {c : Nat} {next : Int} (h : Canonical s) : Canonical (s.issued c next) :=
  .setSeq (.setFld (.setPc (.count h)))
theorem Canonical.held {c : Nat} (h : Canonical s) : Canonical (s.held c) :=
  .setSeq (.setFld h)
theorem Canonical.issueOr {i : Insn} {seen hold eff : State → State}
    (hf0 : ∀ {a : State}, Canonical a → Canonical (seen a)) (hf1 : ∀ {a : State}, Canonical a →
    Canonical (hold a)) (hf2 : ∀ {a : State}, Canonical a → Canonical (eff a)) (h : Canonical s) : Canonical
    (issueOr i seen hold eff s) := by
  refine .ite h (.ite (.takeLate h) (.ite (.raise h) (.ite (.raise h) (.ite (.raise (.fetched h)) (.ite h (.ite
      (.raise (.fetched h)) (.ite (.raise (.fetched h)) (.ite (.raise (.fetched h)) ?_))))))))
  split
  · exact .raise (hf0 (.fetched h))
  · exact .ite (hf1 h) (hf2 (.issued (.fetched h)))
theorem Canonical.issue {i : Insn} {seen eff : State → State}
    (hf0 : ∀ {a : State}, Canonical a → Canonical (seen a)) (hf1 : ∀ {a : State}, Canonical a →
    Canonical (eff a)) (h : Canonical s) : Canonical (issue i seen eff s) :=
  .issueOr (fun h => hf0 h) (fun h => .held h) (fun h => hf1 h) h

/-! ## Grant -/

theorem Canonical.setActive {c m : Nat} (h : Canonical s) : Canonical (s.setActive c m) :=
  .same h
theorem Canonical.setClaim {c bins engines : Nat} (h : Canonical s) : Canonical (s.setClaim c bins engines) :=
  .setFld (.setFld h)
theorem Canonical.logThrottle {r x : Nat} {ends : Bool} {us : Nat} (h : Canonical s) :
    Canonical (s.logThrottle r x ends us) :=
  .setFld (.same (.ite h (.bump h)))
theorem Canonical.thrSet {r x : Nat} {on : Bool} (h : Canonical s) : Canonical (s.thrSet r x on) :=
  .ite h (.ite (.logThrottle (.same (.wr h))) (.logThrottle (.wr (.same (.wr h)))))
theorem Canonical.thrSync {r : Nat} (h : Canonical s) : Canonical (s.thrSync r) :=
  .foldl (fun h => .thrSet h) h
theorem Canonical.setSkip {r k rate : Nat} (h : Canonical s) : Canonical (s.setSkip r k rate) :=
  .thrSync (.setFld (.setFld (.same h)))
theorem Canonical.takeWeight {r : Nat} (h : Canonical s) : Canonical (s.takeWeight r) :=
  .same h
theorem Canonical.setReserved {c x : Nat} (h : Canonical s) : Canonical (s.setReserved c x) :=
  .same h
theorem Canonical.claimSettle {c : Nat} (h : Canonical s) : Canonical (s.claimSettle c) := by
  unfold State.claimSettle
  split
  · exact h
  · exact .ite (.setClaim (.same h)) h
theorem Canonical.claimsGone {c : Nat} (h : Canonical s) : Canonical (s.claimsGone c) :=
  .setReserved (.zeroClaim (.same h))

/-! ## Engine -/

theorem Canonical.setAcc {k : Nat} {a : AccEntry} (h : Canonical s) : Canonical (s.setAcc k a) :=
  .same h
theorem Canonical.checkAcc {c k : Nat} (h : Canonical s) : Canonical (s.checkAcc c k) := by
  unfold State.checkAcc
  split
  · exact h
  · exact h
  · exact .noteError (.same h)
  · exact .noteError (.same h)
theorem Canonical.checkAccs {c k n : Nat} (h : Canonical s) : Canonical (s.checkAccs c k n) :=
  .ite h (.foldl (fun h => .checkAcc h) h)
theorem Canonical.startEngines {c : Nat} (h : Canonical s) : Canonical (s.startEngines c) := by
  refine .foldl (fun h => ?_) h
  split
  · exact .ite (.setActive h) h
  · exact h
theorem Canonical.stopEngines {c mask : Nat} (h : Canonical s) : Canonical (s.stopEngines c mask) :=
  .foldl (fun h => .ite h (.setActive h)) h
theorem Canonical.settleModes {c fuel : Nat} (h : Canonical s) : Canonical (State.settleModes c fuel s) := by
  induction fuel generalizing s with
  | zero => exact h
  | succ n ih =>
    unfold State.settleModes
    split
    · exact h
    · exact ih (.tokComplete (.wr (.same h)))
theorem Canonical.engSettle {c : Nat} (h : Canonical s) : Canonical (s.engSettle c) :=
  .startEngines (.claimSettle (.settleModes h))
theorem Canonical.applyLoad {o : EngOp} {pair : Nat} {fw fx : Bool} {src stride : Nat} (h : Canonical s) :
    Canonical (s.applyLoad o pair fw fx src stride) :=
  .foldl (fun h => .same (.sticky (.checkRange h))) h
theorem Canonical.runEngine {o : EngOp} {e m src acc : Nat} {add : Bool} (h : Canonical s) :
    Canonical (s.runEngine o e m src acc add).1 :=
  .foldlFst (fun h => .foldlFst (fun h => .fst (.setAcc h)) h) (.fst h)
theorem Canonical.applyRun {o : EngOp} {m src acc : Nat} {add : Bool} (h : Canonical s) :
    Canonical (s.applyRun o m src acc add) :=
  .noteConv (.foldlFst (fun h => .fst (.bump (.count (.checkRange (.runEngine (.checkAccs h)))))) (.fst h))
theorem Canonical.applyDrain {o : EngOp} {n entry dst df : Nat} {sr : Bool} (h : Canonical s) :
    Canonical (s.applyDrain o n entry dst df sr) :=
  .noteConv (.foldlFst (fun h => .fst (.checkAccs (.store h))) (.fst (.drew h)))
theorem Canonical.engEnd {o : EngOp} (h : Canonical s) : Canonical (s.engEnd o) :=
  .tokComplete (.same h)
theorem CanonicalOut.execEngLoadComplete {c : CoreId} {t : TokId} (h : Canonical s) :
    CanonicalOut (execEngLoadComplete c t s) := by
  refine .next (.settle h ?_)
  split
  · exact h
  · refine .ite ?_ h
    split
    · exact .engSettle (.engEnd (.applyLoad h))
    · exact h
theorem CanonicalOut.execEngRunComplete {c : CoreId} {t : TokId} (h : Canonical s) :
    CanonicalOut (execEngRunComplete c t s) := by
  refine .next (.settle h ?_)
  split
  · exact h
  · refine .ite ?_ h
    split
    · exact .engSettle (.stopEngines (.engEnd (.applyRun h)))
    · exact h
theorem CanonicalOut.execEngDrainComplete {c : CoreId} {t : TokId} (h : Canonical s) :
    CanonicalOut (execEngDrainComplete c t s) := by
  refine .next (.settle h ?_)
  split
  · exact h
  · refine .ite ?_ h
    split
    · exact .engSettle (.engEnd (.applyDrain h))
    · exact h
theorem Canonical.engIssue {opc : Byte} {illegal : Bool} {check : Option Cause} {w : EngWork} {c : CoreId}
    {f : UFmt} {srOk : Bool} (h : Canonical s) : Canonical (engIssue opc illegal check w c f srOk s) :=
  .issue (fun h => h) (fun h => .engSettle (.same (.tokIssue h))) h

/-! ## Ports -/

theorem Canonical.setPort {n : Nat} {p : Port} (h : Canonical s) : Canonical (s.setPort n p) :=
  .same h
theorem Canonical.setPortState {n x : Nat} (h : Canonical s) : Canonical (s.setPortState n x) :=
  .setFld h
theorem Canonical.sendFlit {n type : Nat} {first last : Bool} {vc hop seq : Nat} {nak : Bool} {payload : List Byte}
    (h : Canonical s) : Canonical (s.sendFlit n type first last vc hop seq nak payload) :=
  .emit (.setPort h)
theorem Canonical.sendIdle {n : Nat} {nak : Bool} (h : Canonical s) : Canonical (s.sendIdle n nak) :=
  .sendFlit h
theorem Canonical.sendNumbered {n : Nat} {f : TxFlit} (h : Canonical s) : Canonical (s.sendNumbered n f) :=
  .count (.sendFlit h)
theorem Canonical.pump {n fuel : Nat} (h : Canonical s) : Canonical (s.pump n fuel) := by
  induction fuel generalizing s with
  | zero => exact h
  | succ k ih =>
    refine .ite h ?_
    split
    · exact h
    · exact ih (.sendNumbered (.setPort h))
theorem Canonical.drainPort {n : Nat} (h : Canonical s) : Canonical (s.drainPort n) :=
  .pump h
theorem Canonical.enqueue {n : Nat} {fs : List TxFlit} (h : Canonical s) : Canonical (s.enqueue n fs) :=
  .drainPort (.setPort h)
theorem Canonical.queueData {n : Nat} {w : WireMsg} {id vc hop : Nat} (h : Canonical s) :
    Canonical (s.queueData n w id vc hop) :=
  .enqueue h
theorem Canonical.queuePrompt {n : Nat} {m : PnMsg} (h : Canonical s) : Canonical (s.queuePrompt n m) :=
  .enqueue h
theorem Canonical.queueSlack {part dest hop : Nat} {payload : List Byte} (h : Canonical s) :
    Canonical (s.queueSlack part dest hop payload) := by
  unfold State.queueSlack
  split
  · exact h
  · exact .ite (.enqueue h) h
theorem Canonical.pnDropped (h : Canonical s) : Canonical s.pnDropped :=
  .setFld (.bump h)
theorem Canonical.sendAway {part dest destModule src tag : Nat} {body : PnBody} (h : Canonical s) :
    Canonical (s.sendAway part dest destModule src tag body) := by
  refine .ite (.sendPn h) ?_
  split
  · exact .pnDropped h
  · exact .ite (.queuePrompt h) (.pnDropped h)
theorem Canonical.countUnreach (h : Canonical s) : Canonical s.countUnreach :=
  .setFld (.bump h)
theorem Canonical.dropNet {id : Nat} (h : Canonical s) : Canonical (s.dropNet id) :=
  .same h
theorem Canonical.putNet {m : NetMsg} (h : Canonical s) : Canonical (s.putNet m) :=
  .same h
theorem Canonical.lastNet {m : NetMsg} (h : Canonical s) : Canonical (s.lastNet m) :=
  .same h
theorem Canonical.answer {m : NetMsg} {status : Nat} {data : List Byte} {bad : List Bool} {router : Nat}
    (h : Canonical s) : Canonical (s.answer m status data bad router) :=
  .ite (.dropNet h) (.ite (.lastNet h) (.lastNet h))
theorem Canonical.unreachable {m : NetMsg} {router : Nat} (h : Canonical s) : Canonical (s.unreachable m router) :=
  .countUnreach (.answer h)
theorem Canonical.flitLost {f : TxFlit} (h : Canonical s) : Canonical (s.flitLost f) := by
  unfold State.flitLost
  split
  · exact .foldl (fun h => .pnDropped h) h
  · split
    · exact h
    · exact .ite (.unreachable h) h
theorem Canonical.portDown {n reason : Nat} (h : Canonical s) : Canonical (s.portDown n reason) :=
  .setPortState (.setFld (.setFld (.ite (.logFault (.bump (.setFld (.setPort (.foldl (fun h => .flitLost h) h)))))
      (.setPort (.foldl (fun h => .flitLost h) h)))))
theorem Canonical.startTraining {n : Nat} (h : Canonical s) : Canonical (s.startTraining n) :=
  .sendFlit (.setPortState (.setPort h))
theorem Canonical.sendNak {n : Nat} (h : Canonical s) : Canonical (s.sendNak n) :=
  .ite (.startTraining (.bump (.portDown (.sendIdle (.setPort h))))) (.sendIdle (.setPort h))
theorem Canonical.rxControl {n ack : Nat} {nak : Bool} {cls count : Nat} (h : Canonical s) :
    Canonical (s.rxControl n ack nak cls count) :=
  .ite (.ite (.portDown (.bump (.setPort h))) (.drainPort (.foldl (fun h => .sendNumbered h) (.setPort (.bump
      (.setPort h)))))) (.drainPort (.setPort h))
theorem Canonical.enterMesh {n vc hop : Nat} {w : WireMsg} (h : Canonical s) :
    Canonical (s.enterMesh n vc hop w) := by
  refine .ite ?_ (.same h)
  split
  · exact h
  · exact .ite (.putNet h) h
theorem Canonical.enterPrompt {hop : Nat} {m : PnMsg} (h : Canonical s) : Canonical (s.enterPrompt hop m) := by
  refine .ite (.ite (.pnDropped h) (.same h)) (.ite (.pnDropped h) ?_)
  split
  · exact .pnDropped h
  · exact .ite (.queuePrompt h) (.pnDropped h)
theorem Canonical.promptWords {hop fuel : Nat} {ws : List Nat} (h : Canonical s) :
    Canonical (s.promptWords hop fuel ws) := by
  induction fuel generalizing s ws with
  | zero => exact h
  | succ n ih =>
    unfold State.promptWords
    split
    · refine ih ?_
      split
      · exact .ite (.pnDropped h) (.enterPrompt h)
      · exact .enterPrompt h
    · exact h
theorem Canonical.portData {n : Nat} {bs : List Byte} (h : Canonical s) : Canonical (s.portData n bs) := by
  refine .ite (.ite ?_ (.setPort (.count h))) (.ite (.promptWords (.count h)) (.ite (.same (.count h)) (.ite (.count
      h) (.queueSlack (.count h)))))
  split
  · exact .setPort (.count h)
  · exact .enterMesh (.setPort (.count h))
theorem Canonical.rxNumbered {n : Nat} {bs : List Byte} (h : Canonical s) : Canonical (s.rxNumbered n bs) :=
  .ite (.ite (.sendIdle (.portData (.setPort h))) (.portData (.setPort h))) (.sendNak h)
theorem Canonical.rxLink {n : Nat} {bs : List Byte} (h : Canonical s) : Canonical (s.rxLink n bs) :=
  .ite (.setPort h) (.ite (.portDown h) h)
theorem Canonical.rxJudged {n type : Nat} {bs : List Byte} (h : Canonical s) : Canonical (s.rxJudged n type bs) :=
  .ite (.ite (.sendNak (.bump h)) (.bump h)) (.ite h (.ite (.rxLink h) (.ite (.rxControl h) (.rxNumbered (.rxControl
      h)))))
theorem Canonical.fecCount {n : Nat} {good : Bool} (h : Canonical s) : Canonical (s.fecCount n good) :=
  .ite (.count (.drew h)) (.bump (.count (.drew h)))
theorem Canonical.rxFlit {n type : Nat} {bs : List Byte} (h : Canonical s) : Canonical (s.rxFlit n type bs) :=
  .ite h (.rxJudged (.fecCount h))
theorem Canonical.endTraining {n : Nat} (h : Canonical s) : Canonical (s.endTraining n) := by
  refine .ite (.portDown (.drew h)) ?_
  split
  · exact .portDown (.drew h)
  · exact .ite (.setPortState (.portDown (.drew h))) (.ite (.setPortState (.portDown (.drew h))) (.drainPort (.setFld
      (.setFld (.setPortState (.setFld (.drew h)))))))
theorem Canonical.portEnable {n : Nat} (h : Canonical s) : Canonical (s.portEnable n) :=
  .startTraining (.setFld h)
theorem Canonical.portDisable {n : Nat} (h : Canonical s) : Canonical (s.portDisable n) :=
  .portDown (.setFld h)
theorem Canonical.retrain {n : Nat} (h : Canonical s) : Canonical (s.retrain n) :=
  .ite (.startTraining (.ite (.portDown h) h)) h

/-! ## Waiting -/

theorem Canonical.setWant {c x : Nat} (h : Canonical s) : Canonical (s.setWant c x) :=
  .same h
theorem Canonical.enter {c : Nat} {f : State → State} (h : Canonical s)
    (hf1 : ∀ {a : State}, Canonical a → Canonical (f a)) : Canonical (s.enter c f) :=
  .ite (.ite (.drew h) (hf1 (.drew h))) (hf1 h)
theorem Canonical.sleepIn {c x : Nat} (h : Canonical s) : Canonical (s.sleepIn c x) :=
  .ite h (.enter h (fun h => .ite (.setWant h) (.setSleep h)))
theorem Canonical.block {c : Nat} {w : Twait} {sleep : Nat} (h : Canonical s) : Canonical (s.block c w sleep) :=
  .sleepIn (.same (.setFld (.setSeq h)))
theorem Canonical.finishTwait {c : Nat} (h : Canonical s) : Canonical (s.finishTwait c) := by
  unfold State.finishTwait
  split
  · exact h
  · exact .ite (.takeLate h) (.ite (.ite (.raise (.dropTwait h)) (.setG (.issued (.dropTwait h)))) h)
theorem Canonical.wake {c : Nat} (h : Canonical s) : Canonical (s.wake c) :=
  .ite (.setWant (.same h)) (.ite (.same h) (.same (.same h)))
theorem CanonicalOut.execTwaitComplete {c : CoreId} (h : Canonical s) : CanonicalOut (execTwaitComplete c s) := by
  refine .next ?_
  split
  · exact h
  · exact .ite (.ite (.finishTwait h) (.ite (.wake h) h)) h
theorem Canonical.engReset {c : Nat} (h : Canonical s) : Canonical (s.engReset c) := by
  have hw : Canonical (s.wr (Reg.ENG_QUAD c) (resetOf (Reg.ENG_QUAD c))) := .wr h
  unfold State.engReset
  exact { h with regs := hw.regs }
theorem Canonical.loseVolatile {c : Nat} (h : Canonical s) : Canonical (s.loseVolatile c) :=
  .same h
theorem Canonical.retainLoss {c : Nat} (h : Canonical s) : Canonical (s.retainLoss c) := by
  unfold State.retainLoss
  extract_lets inWin
  exact { h with
    regs := swf_sclearIf _ _ (fun k => inWin k && !keptInRetain c k) h.regs
    shadow := swf_sclearIf _ _ (fun k => inWin k && !keptInRetain c k) h.shadow }

/-! ## Window -/

theorem Canonical.winEnd {c w : Nat} {k : WinPendKind} {status : Nat} {wakes : Bool} (h : Canonical s) :
    Canonical (s.winEnd c w k status wakes) :=
  .ite (.wake (.foldl (fun h => .tokComplete h) (.same h))) (.foldl (fun h => .tokComplete h) (.same h))
theorem Canonical.winWaits {c w : Nat} (h : Canonical s) : Canonical (s.winWaits c w) :=
  .ite (.winEnd h) h
theorem Canonical.drainEnd {c w outcome : Nat} (h : Canonical s) : Canonical (s.drainEnd c w outcome) :=
  .winEnd (.setFld h)
theorem Canonical.winShut {c w : Nat} (h : Canonical s) : Canonical (s.winShut c w) :=
  .winEnd (.setFld h)
theorem Canonical.winClose {c w : Nat} (h : Canonical s) : Canonical (s.winClose c w) :=
  .ite h (.ite (.winShut (.drainEnd h)) (.winShut h))
theorem Canonical.winOpen {c w target : Nat} (h : Canonical s) : Canonical (s.winOpen c w target) :=
  .winWaits (.setFld (.wr (.setFld (.setFld (.ite (.drainEnd h) h)))))
theorem Canonical.winDrain {c w bound tok : Nat} (h : Canonical s) : Canonical (s.winDrain c w bound tok) :=
  .ite (.tokComplete h) (.ite (.same h) (.ite (.winShut (.drainEnd (.same h))) (.ite (.winShut (.drainEnd (.same h)))
      (.setFld (.same h)))))
theorem Canonical.closesDone {c w : Nat} (h : Canonical s) : Canonical (s.closesDone c w) :=
  .foldl (fun h => .tokComplete h) (.same h)
theorem CanonicalOut.execWinWaitTimeout {c : CoreId} {w : WinId} (h : Canonical s) :
    CanonicalOut (execWinWaitTimeout c w s) := by
  refine .next ?_
  split
  · exact h
  · exact .tokComplete (.same h)
theorem Canonical.writeWinCtl {c w : Nat} {v : Word} (h : Canonical s) : Canonical (s.writeWinCtl c w v) :=
  .ite (.winClose (.setFld h)) (.setFld h)
theorem Canonical.winRebind {c : Nat} (h : Canonical s) : Canonical (s.winRebind c) :=
  .foldl (fun h => .wr (.wr (.winClose h))) h

/-! ## Mesh -/

theorem Canonical.asleepTo {m : NetMsg} {c : Nat} (h : Canonical s) : Canonical (s.asleepTo m c) :=
  .answer h
theorem Canonical.takeHop {m : NetMsg} {h : Hop} {vc : Nat} (hs : Canonical s) : Canonical (s.takeHop m h vc) := by
  unfold State.takeHop
  split
  · exact .putNet hs
  · exact .asleepTo hs
  · exact .unreachable hs
  · exact .ite (.unreachable hs) (.ite (.putNet (.queueData hs)) (.dropNet (.queueData hs)))
theorem Canonical.detour {m : NetMsg} {r : Route} {here : Bool} (h : Canonical s) :
    Canonical (s.detour m r here) := by
  refine .ite (.unreachable h) ?_
  split
  · exact .unreachable h
  · exact .asleepTo h
  · exact .takeHop (.setFld (.bump h))
theorem Canonical.steer {m : NetMsg} (h : Canonical s) : Canonical (s.steer m) := by
  refine .ite (.ite (.asleepTo h) (.ite h (.putNet h))) ?_
  split
  · exact .unreachable h
  · split
    · exact .detour h
    · exact .takeHop h
theorem Canonical.backLost {m : NetMsg} (h : Canonical s) : Canonical (s.backLost m) :=
  .ite (.putNet h) (.countUnreach (.putNet h))
theorem Canonical.backHop {m : NetMsg} {h : Hop} {vc : Nat} (hs : Canonical s) : Canonical (s.backHop m h vc) := by
  unfold State.backHop
  split
  · exact .putNet hs
  · exact .putNet hs
  · exact .backLost hs
  · exact .backLost hs
theorem Canonical.steerBack {m : NetMsg} (h : Canonical s) : Canonical (s.steerBack m) := by
  refine .ite h ?_
  split
  · exact .backLost h
  · split
    · refine .ite (.backLost h) ?_
      split
      · exact .backLost h
      · exact .backHop h
      · exact .backHop (.setFld (.bump h))
    · exact .backHop h
theorem Canonical.send {m : NetMsg} (h : Canonical s) : Canonical (s.send m) :=
  .ite h (.count (.steer h))
theorem CanonicalOut.execMeshRoute {id : Nat} (h : Canonical s) : CanonicalOut (execMeshRoute id s) := by
  refine .next ?_
  split
  · exact h
  · exact .ite h (.ite (.send h) (.ite (.steer h) (.ite (.steerBack h) h)))
theorem Canonical.fmapChanged (h : Canonical s) : Canonical s.fmapChanged :=
  .setFld h
theorem Canonical.setMark {kind i : Nat} {on : Bool} (h : Canonical s) : Canonical (s.setMark kind i on) :=
  .ite (.same h) (.setFld h)
theorem Canonical.mark {kind i : Nat} (h : Canonical s) : Canonical (s.mark kind i) :=
  .ite h (.fmapChanged (.setMark h))
theorem Canonical.unmark {kind i : Nat} (h : Canonical s) : Canonical (s.unmark kind i) :=
  .ite (.fmapChanged (.setMark h)) h
theorem Canonical.writeFmapCtl {v : Word} (h : Canonical s) : Canonical (s.writeFmapCtl v) :=
  .ite (.setFld h) (.ite h (.ite (.setFld h) (.ite (.ite (.setFld h) (.unmark h)) (.mark h))))
theorem Canonical.rewrite {chan : Route → Bool} {new : List Route} (h : Canonical s) :
    Canonical (s.rewrite chan new) :=
  .ite (.same (.drew h)) (.drew h)

/-! ## Net -/

theorem Canonical.sendNet {c : Nat} {f : MFmt} {kind : NetKind} {gt gg local' len : Nat} (h : Canonical s) :
    Canonical (s.sendNet c f kind gt gg local' len) :=
  .ite (.tokComplete (.tokIssue h)) (.ite (.tokComplete (.tokIssue h)) (.same (.ite (.checkRange (.tokIssue h))
      (.tokIssue h))))
theorem Canonical.netIssue {kind : NetKind} {opc : Byte} {illegal : Bool} {c : CoreId} {f : MFmt}
    (h : Canonical s) : Canonical (netIssue kind opc illegal c f s) :=
  .issue (fun h => h) (fun h => .sendNet h) h
theorem Canonical.latePut {m : NetMsg} (h : Canonical s) : Canonical (s.latePut m) :=
  .answer (.sendAway (.ite (.setFld (.ite (.setFld (.bump h)) (.same (.setFld (.bump h))))) (.setFld (.bump h))))
theorem Canonical.acceptPut {m : NetMsg} (h : Canonical s) : Canonical (s.acceptPut m) :=
  .ite (.answer (.setFld h)) (.ite (.answer h) (.ite (.latePut h) (.ite (.answer (.setFld h)) (.putNet (.count h)))))
theorem CanonicalOut.execPutAcceptanceCheck {id : Nat} (h : Canonical s) :
    CanonicalOut (execPutAcceptanceCheck id s) := by
  refine .next ?_
  split
  · exact h
  · exact .ite (.ite (.asleepTo h) (.acceptPut h)) h
theorem Canonical.winArrive {c w : Nat} (h : Canonical s) : Canonical (s.winArrive c w) :=
  .ite (.winShut (.drainEnd (.winWaits (.bump h)))) (.winWaits (.bump h))
theorem CanonicalOut.execPutWriteDone {id : Nat} (h : Canonical s) : CanonicalOut (execPutWriteDone id s) := by
  refine .next (.settle h ?_)
  split
  · exact h
  · exact .ite (.closesDone (.answer (.ite (.winArrive (.storeBad h)) (.storeBad h)))) h
theorem Canonical.netEnd {m : NetMsg} {status : Nat} (h : Canonical s) : Canonical (s.netEnd m status) :=
  .tokComplete (.dropNet h)
theorem CanonicalOut.execNetCompletion {id : Nat} (h : Canonical s) : CanonicalOut (execNetCompletion id s) := by
  refine .next (.settle h ?_)
  split
  · exact h
  · exact .ite (.ite (.dropNet h) (.ite (.setFld (.dropNet h)) (.ite (.ite h (.netEnd (.storeBad h))) (.netEnd h)))) h
theorem CanonicalOut.execWinNotice {id : Nat} (h : Canonical s) : CanonicalOut (execWinNotice id s) := by
  refine .next ?_
  split
  · exact h
  · split
    · exact .foldl (fun h => .ite (.dropNet h) (.netEnd h)) (.takePn h)
    · exact h

/-! ## NormMon -/

theorem Canonical.setCtx {x : Nat} {k : Ctx} (h : Canonical s) : Canonical (s.setCtx x k) :=
  .same h
theorem Canonical.setTripRun {c n x : Nat} (h : Canonical s) : Canonical (s.setTripRun c n x) :=
  .same h
theorem Canonical.requestTests {p layer : Nat} (h : Canonical s) : Canonical (s.requestTests p layer) :=
  .ite h (.same h)
theorem Canonical.tripActions {c n : Nat} (h : Canonical s) : Canonical (s.tripActions c n) := by
  unfold State.tripActions
  extract_lets
  split
  · exact .ite (.requestTests (.drew h)) (.drew h)
  · extract_lets new s1 note
    have h1 : Canonical s1 := .same (.drew h)
    exact .ite (.requestTests (.same h1)) h1
theorem Canonical.trip {c n : Nat} {x : TripCause} (h : Canonical s) : Canonical (s.trip c n x) := by
  refine .tripActions (.ite (.setTripRun (.setFld (.bump ?_))) (.setTripRun (.bump ?_)))
  · split
    · exact .setFld (.setFld h)
    · exact .setFld (.setFld h)
    · exact .setFld h
    · exact .setFld h
  · split
    · exact .setFld (.setFld h)
    · exact .setFld (.setFld h)
    · exact .setFld h
    · exact .setFld h
theorem Canonical.sample {c n : Nat} {ms : Word} {taggedNf taggedSat : Bool} (h : Canonical s) :
    Canonical (s.sample c n ms taggedNf taggedSat) := by
  refine .ite h ?_
  split
  · exact .trip h
  · exact .setTripRun (.bump (.wr h))
  · exact .setTripRun (.bump (.wr h))

/-! ## Kv -/

theorem Canonical.takeKv {x : Nat} (h : Canonical s) : Canonical (s.takeKv x) :=
  .setCtx h
theorem Canonical.kvStat {p : Nat} {f : Fld} (h : Canonical s) : Canonical (s.kvStat p f) :=
  .setFld h
theorem Canonical.setHold {x tag c : Nat} {h : KvHold} (hs : Canonical s) : Canonical (s.setHold x tag c h) :=
  .same hs
theorem Canonical.markSlot {l : LayerKv} {k : Nat} {b : Bool} (h : Canonical s) : Canonical (s.markSlot l k b) :=
  .same h
theorem Canonical.storeSet {cs : List Nat} {off : Nat} {bs : List Byte} (h : Canonical s) :
    Canonical (s.storeSet cs off bs) :=
  .foldl (fun h => .store h) h
theorem Canonical.setMapEntry {l : LayerKv} {r i : Nat} {e : MapEntry} (h : Canonical s) :
    Canonical (s.setMapEntry l r i e) :=
  .storeSet h
theorem Canonical.lookMap {l : LayerKv} {r : Nat} (h : Canonical s) : Canonical (s.lookMap l r) :=
  .look h
theorem Canonical.lookPage {l : LayerKv} {slot : Nat} (h : Canonical s) : Canonical (s.lookPage l slot) :=
  .look h
theorem Canonical.dropReserve {q : KvReserve} (h : Canonical s) : Canonical (s.dropReserve q) :=
  .same h
theorem Canonical.unneed {l : LayerKv} {x mask : Nat} (h : Canonical s) : Canonical (s.unneed l x mask) :=
  .foldl (fun h => .markSlot h) (.same h)
theorem Canonical.lookBook {p : PartRec} {n k : Nat} (h : Canonical s) : Canonical (s.lookBook p n k) := by
  unfold State.lookBook
  split
  · exact h
  · exact .look h
theorem Canonical.setBookNum {p : PartRec} {n o w v : Nat} (h : Canonical s) :
    Canonical (s.setBookNum p n o w v) := by
  unfold State.setBookNum
  split
  · exact h
  · exact .store h
theorem Canonical.addRefs {p : PartRec} {n : Nat} {d : Int} (h : Canonical s) : Canonical (s.addRefs p n d) :=
  .setBookNum h
theorem Canonical.setBookSlot {p tag n : Nat} {k : Option Nat} (h : Canonical s) :
    Canonical (s.setBookSlot p tag n k) :=
  .same h
theorem Canonical.toParent {x : Nat} {p : PartRec} {n : Nat} (h : Canonical s) : Canonical (s.toParent x p n) :=
  .setCtx h
theorem Canonical.diverge {l : LayerKv} {x r i : Nat} {e : MapEntry} {slot : Nat} (h : Canonical s) :
    Canonical (s.diverge l x r i e slot) := by
  unfold State.diverge
  dsimp only
  split
  · exact .kvStat (.setMapEntry (.foldl (fun h => .store (.look h)) h))
  · exact .ite (.toParent (.addRefs (.kvStat (.setMapEntry (.foldl (fun h => .store (.look h)) h))))) (.kvStat
      (.setMapEntry (.foldl (fun h => .store (.look h)) h)))
theorem Canonical.reserve {l : LayerKv} {x entry : Nat} {bs gs slots : List Nat} {n p : Nat} (h : Canonical s) :
    Canonical (s.reserve l x entry bs gs slots n p) :=
  .same (.foldl (fun h => .markSlot h) h)
theorem Canonical.appendTo {l : LayerKv} {o : KvOp} (h : Canonical s) : Canonical (s.appendTo l o).1 := by
  unfold State.appendTo
  extract_lets x r s1 n p shared inLoft bs gs free extra mine pages full d cs s2
  have h1 : Canonical s1 := .lookMap h
  have h2 : Canonical s2 := .checkRange (.drew h1)
  refine .fstIte (.fst (.kvStat h1)) ?_
  cases shared with
  | none => exact .fst (.noteConv (.foldl (fun h => .setHold h) (.storeSet (.reserve h2))))
  | some q => exact .fst (.noteConv (.foldl (fun h => .setHold h) (.storeSet (.reserve (.diverge (.markSlot h2))))))
theorem Canonical.kvRetireN {c fuel : Nat} (h : Canonical s) : Canonical (s.kvRetireN c fuel) := by
  induction fuel generalizing s with
  | zero => exact h
  | succ n ih =>
    unfold State.kvRetireN
    split
    · exact h
    · split
      · exact h
      · exact ih (.tokComplete (.same h))
theorem Canonical.kvRetire {c : Nat} (h : Canonical s) : Canonical (s.kvRetire c) :=
  .kvRetireN h
theorem Canonical.kvDone {o : KvOp} {st : Nat} (h : Canonical s) : Canonical (s.kvDone o st) :=
  .kvRetire (.same h)
theorem Canonical.kvPush {o : KvOp} (h : Canonical s) : Canonical (s.kvPush o) :=
  .same h
theorem Canonical.kvIssue {opc : Byte} {illegal : Bool} {check : Option Cause} {c : CoreId} {f : UFmt}
    {eff : State → State} (hf0 : ∀ {a : State}, Canonical a → Canonical (eff a)) (h : Canonical s) :
    Canonical (kvIssue opc illegal check c f eff s) :=
  .issue (fun h => h) (fun h => hf0 (.tokIssue h)) h
theorem Canonical.runAppend {o : KvOp} (h : Canonical s) : Canonical (s.runAppend o) := by
  refine .ite (.kvDone h) (.ite (.kvDone h) ?_)
  split
  · exact .kvDone h
  · exact .ite (.kvDone h) (.kvDone (.ite (.same (.appendTo h)) (.appendTo h)))
theorem Canonical.loftSpilled {p n : Nat} (h : Canonical s) : Canonical (s.loftSpilled p n) :=
  .count (.count h)
theorem Canonical.loftWrote {n : Nat} (h : Canonical s) : Canonical (s.loftWrote n) :=
  .count h
theorem Canonical.loftRead {p n : Nat} (h : Canonical s) : Canonical (s.loftRead p n) :=
  .count (.count h)
theorem Canonical.clean {x tag b : Nat} (h : Canonical s) : Canonical (s.clean x tag b) :=
  .same h
theorem Canonical.dirty {x tag b : Nat} (h : Canonical s) : Canonical (s.dirty x tag b) :=
  .same h
theorem Canonical.spill {l : LayerKv} {x r : Nat} (h : Canonical s) : Canonical (s.spill l x r) := by
  unfold State.spill
  split
  · exact h
  · exact .same (.clean (.setMapEntry (.launch (.loftSpilled (.emit (.lookPage h))))))
theorem Canonical.spillsEnd {l : LayerKv} (h : Canonical s) : Canonical (s.spillsEnd l) :=
  .foldl (fun h => .ite h (.markSlot h)) (.same h)
theorem Canonical.slotGiven {l : LayerKv} {x k : Nat} (h : Canonical s) : Canonical (s.slotGiven l x k) :=
  .ite (.same h) (.markSlot h)
theorem CanonicalOut.execSpillWriteComplete {id : Nat} {ok : Bool} (h : Canonical s) :
    CanonicalOut (execSpillWriteComplete id ok s) := by
  refine .next ?_
  split
  · exact h
  · refine .ite (.landed h) ?_
    split
    · exact .same (.landed h)
    · exact .spillsEnd (.same (.landed h))
theorem Canonical.slotFor {l : LayerKv} {x r p : Nat} (h : Canonical s) : Canonical (s.slotFor l x r p).1 := by
  unfold State.slotFor
  split
  · exact .fst h
  · exact .fst h
  · split
    · exact .fst (.diverge (.markSlot h))
    · exact .fst (.markSlot (.same h))
theorem Canonical.place {l : LayerKv} {x r c entry p : Nat} (h : Canonical s) :
    Canonical (s.place l x r c entry p) := by
  have hp : Canonical (s.slotFor l x r p).1 := .slotFor h
  unfold State.place
  extract_lets b
  generalize s.slotFor l x r p = q at hp ⊢
  obtain ⟨t, slot⟩ := q
  cases slot with
  | none => exact .ite (.look hp) (.kvStat hp)
  | some k => exact .dirty (.store (.ite (.look hp) (.kvStat hp)))
theorem Canonical.mapCommit {l : LayerKv} {x r b fill : Nat} (h : Canonical s) :
    Canonical (s.mapCommit l x r b fill) := by
  unfold State.mapCommit
  split
  · exact .ite (.setMapEntry h) h
  · split
    · extract_lets s1
      have h1 : Canonical s1 := .setMapEntry (.dropReserve h)
      split
      · exact .storeSet (.setMapEntry (.dropReserve h1))
      · exact h1
    · exact h
theorem Canonical.commitLayer {l : LayerKv} {x c mask pos : Nat} {replay : Bool} (h : Canonical s) :
    Canonical (s.commitLayer l x c mask pos replay) :=
  .ite h (.ite (.setHold (.foldl (fun h => .place h) (.lookMap h))) (.ite (.foldl (fun h => .spill h) (.spillsEnd
      (.same (.unneed (.foldl (fun h => .mapCommit h) (.setHold (.foldl (fun h => .place h) (.lookMap h))))))))
      (.spillsEnd (.same (.unneed (.foldl (fun h => .mapCommit h) (.setHold (.foldl (fun h => .place h) (.lookMap
      h)))))))))
theorem Canonical.rollbackLayer {l : LayerKv} {x c mask : Nat} (h : Canonical s) :
    Canonical (s.rollbackLayer l x c mask) :=
  .ite (.unneed (.setHold h)) (.setHold h)
theorem Canonical.kvMessage {m : PnMsg} {x : Nat} {f : State → LayerKv → State} (h : Canonical s)
    (hf1 : ∀ {a : State} {b : LayerKv}, Canonical a → Canonical (f a b)) : Canonical (s.kvMessage m x f)
    :=
  .sendAway (.ite (.foldl (fun h => hf1 h) (.takePn h)) (.takePn h))
theorem CanonicalOut.execPnKvCommit {id : Nat} (h : Canonical s) : CanonicalOut (execPnKvCommit id s) := by
  refine .next (.settle h ?_)
  split
  · exact h
  · split
    · exact .kvMessage h (fun h => .ite (.rollbackLayer (.commitLayer h)) (.commitLayer h))
    · exact h
theorem Canonical.flipAt {m : PnMsg} {x : Nat} {staged replay flip : Bool} (h : Canonical s) :
    Canonical (s.flipAt m x staged replay flip) :=
  .ite (.setCtx h) h
theorem CanonicalOut.execPnKvRollback {id : Nat} (h : Canonical s) : CanonicalOut (execPnKvRollback id s) := by
  refine .next ?_
  split
  · exact h
  · split
    · exact .flipAt (.kvMessage h (fun h => .rollbackLayer h))
    · exact h
theorem Canonical.kvSend {o : KvOp} {body : PnBody} (h : Canonical s) : Canonical (s.kvSend o body) :=
  .ite (.kvDone (.foldl (fun h => .sendAway h) (.foldl (fun h => .sendPn h) (.ite (.same h) h)))) (.same (.foldl (fun
      h => .sendAway h) (.foldl (fun h => .sendPn h) (.ite (.same h) h))))
theorem Canonical.runRollback {o : KvOp} (h : Canonical s) : Canonical (s.runRollback o) :=
  .ite (.kvDone h) (.kvSend h)
theorem Canonical.mapRefused {p : Nat} (h : Canonical s) : Canonical (s.mapRefused p) :=
  .bump (.kvStat h)
theorem Canonical.mapRemove {l : LayerKv} {x r i : Nat} (h : Canonical s) : Canonical (s.mapRemove l x r i) :=
  .setMapEntry (.same (.ite (.slotGiven h) h))
theorem Canonical.recallNamed {x tag b : Nat} (h : Canonical s) : Canonical (s.recallNamed x tag b) :=
  .same h
theorem CanonicalOpt.cacheRoom {l : LayerKv} {x r : Nat} (h : Canonical s) : CanonicalOpt (s.cacheRoom l x r) := by
  refine .ite (.some h) ?_
  split
  · exact .none
  · split
    · exact .none
    · exact .some (.mapRemove h)
theorem CanonicalOpt.fetchPage {l : LayerKv} {o : KvOp} {r i : Nat} {e : MapEntry} (h : Canonical s) :
    CanonicalOpt (s.fetchPage l o r i e) := by
  have hc : CanonicalOpt (s.cacheRoom l o.ctx r) := .cacheRoom h
  unfold State.fetchPage
  extract_lets x
  split
  · exact .none
  · rename_i t e
    extract_lets t1 free
    split
    · exact .none
    · exact .some (.same (.bump (.emit (.recallNamed (.setMapEntry (.markSlot (.mapRemove (hc t e))))))))
theorem CanonicalOpt.recall {l : LayerKv} {o : KvOp} {r i : Nat} {e : MapEntry} (h : Canonical s) :
    CanonicalOpt (s.recall l o r i e) := by
  refine .ite .none ?_
  split
  · exact .some (.ite (.same (.recallNamed (.bump h))) (.bump h))
  · split
    · exact .some (.recallNamed (.setMapEntry (.mapRemove (.same (.bump h)))))
    · exact .fetchPage h
theorem CanonicalOpt.share {l : LayerKv} {x r i : Nat} {e : MapEntry} (h : Canonical s) :
    CanonicalOpt (s.share l x r i e) := by
  unfold State.share
  split
  · exact .none
  · refine .ite .none ?_
    split
    · exact .none
    · exact .some (.setMapEntry (.mapRemove h))
theorem CanonicalOpt.mapWrite {o : KvOp} {bs : List Byte} {l : LayerKv} (h : Canonical s) :
    CanonicalOpt (s.mapWrite o bs l) :=
  .ite .none (.ite (.some (.mapRemove h)) (.ite (.ite (.some (.setMapEntry h)) .none) (.ite (.share h) (.ite (.recall
      h) .none))))
theorem CanonicalOpt.mapLayers {o : KvOp} {bs : List Byte} {ls : List LayerKv} (h : Canonical s) :
    CanonicalOpt (State.mapLayers o bs ls s) := by
  induction ls generalizing s with
  | nil => exact .some h
  | cons l ls ih =>
    unfold State.mapLayers
    split
    · exact .none
    · rename_i t e
      exact ih (CanonicalOpt.mapWrite h t e)
theorem Canonical.mapRefs {x : Nat} {e old : MapEntry} (h : Canonical s) : Canonical (s.mapRefs x e old) := by
  unfold State.mapRefs
  split
  · exact h
  · exact .ite (.ite (.toParent (.addRefs h)) (.addRefs h)) (.ite (.setCtx (.addRefs h)) h)
theorem Canonical.runMap {o : KvOp} (h : Canonical s) : Canonical (s.runMap o) := by
  refine .ite (.kvDone h) ?_
  split
  · refine .kvDone (.mapRefused ?_)
    split
    · exact .foldl (fun h => .lookMap h) (.checkRange h)
    · exact .ite (.lookBook (.foldl (fun h => .lookMap h) (.checkRange h))) (.foldl (fun h => .lookMap h)
        (.checkRange h))
  · rename_i heq
    refine .ite (.ite (.mapRefs (CanonicalOpt.mapLayers ?_ _ heq)) (CanonicalOpt.mapLayers ?_ _ heq)) (.kvDone (.ite
        (.mapRefs (CanonicalOpt.mapLayers ?_ _ heq)) (CanonicalOpt.mapLayers ?_ _ heq)))
    · split
      · exact .foldl (fun h => .lookMap h) (.checkRange h)
      · exact .ite (.lookBook (.foldl (fun h => .lookMap h) (.checkRange h))) (.foldl (fun h => .lookMap h)
          (.checkRange h))
    · split
      · exact .foldl (fun h => .lookMap h) (.checkRange h)
      · exact .ite (.lookBook (.foldl (fun h => .lookMap h) (.checkRange h))) (.foldl (fun h => .lookMap h)
          (.checkRange h))
    · split
      · exact .foldl (fun h => .lookMap h) (.checkRange h)
      · exact .ite (.lookBook (.foldl (fun h => .lookMap h) (.checkRange h))) (.foldl (fun h => .lookMap h)
          (.checkRange h))
    · split
      · exact .foldl (fun h => .lookMap h) (.checkRange h)
      · exact .ite (.lookBook (.foldl (fun h => .lookMap h) (.checkRange h))) (.foldl (fun h => .lookMap h)
          (.checkRange h))
theorem Canonical.pageIn {q : LoftFetch} {ok : Bool} {data : List Byte} (h : Canonical s) :
    Canonical (s.pageIn q ok data) := by
  unfold State.pageIn
  split
  · exact h
  · extract_lets t page
    have ht : Canonical t := .lookMap (.ite h (.kvStat h))
    split
    · exact .ite (.storeSet (.loftRead ht)) (.loftRead ht)
    · exact .loftRead ht
theorem Canonical.runDigest {o : KvOp} (h : Canonical s) : Canonical (s.runDigest o) := by
  unfold State.runDigest
  dsimp only
  split
  · exact .kvDone h
  · refine .ite (.kvDone h) ?_
    split
    · exact .kvDone (.mapRefused (.lookMap h))
    · exact .kvDone (.noteFlags (.same (.store (.checkRange (.lookMap h)))))
theorem Canonical.runMask {o : KvOp} (h : Canonical s) : Canonical (s.runMask o) :=
  .ite (.kvDone (.checkRange h)) (.kvDone (.store (.checkRange h)))
theorem Canonical.freeNode {p : Nat} {r : PartRec} {n : Nat} (h : Canonical s) : Canonical (s.freeNode p r n) := by
  refine .setBookNum (.foldl (fun h => ?_) h)
  split
  · exact h
  · exact .setBookSlot (.markSlot h)
theorem CanonicalOut.execNodeRetireFree {p : PartId} {node : Nat} (h : Canonical s) :
    CanonicalOut (execNodeRetireFree p node s) := by
  refine .next (.settle h ?_)
  split
  · exact h
  · exact .ite (.freeNode (.lookBook h)) (.lookBook h)

/-! ## Queues -/

theorem Canonical.setQueue {q : Nat} {k : Queue} (h : Canonical s) : Canonical (s.setQueue q k) :=
  .same h
theorem Canonical.queueError {q code : Nat} (h : Canonical s) : Canonical (s.queueError q code) :=
  .setQueue h
theorem Canonical.took {q : Nat} (h : Canonical s) : Canonical (s.took q) :=
  .same h
theorem Canonical.putReq {r : Req} (h : Canonical s) : Canonical (s.putReq r) :=
  .same h
theorem Canonical.addBalance {t : Nat} {d : Int} (h : Canonical s) : Canonical (s.addBalance t d) :=
  .wr h
theorem Canonical.holdReq {r : Req} (h : Canonical s) : Canonical (s.holdReq r) :=
  .ite h (.putReq (.ite h (.bump h)))
theorem Canonical.pushCompl {q : Nat} {c : Completion} (h : Canonical s) : Canonical (s.pushCompl q c) :=
  .setQueue h
theorem Canonical.endReq {r : Req} {status : Nat} (h : Canonical s) : Canonical (s.endReq r status) :=
  .ite (.setCtx (.same (.bump (.ite (.bump (.pushCompl h)) (.pushCompl h))))) (.same (.bump (.ite (.bump (.pushCompl
      h)) (.pushCompl h))))
theorem Canonical.queueDrained {q : Nat} (h : Canonical s) : Canonical (s.queueDrained q) :=
  .ite (.setQueue h) h
theorem Canonical.signalQueue {q : Nat} (h : Canonical s) : Canonical (s.signalQueue q) :=
  .emit (.setQueue h)
theorem Canonical.coalesce {q : Nat} {final : Bool} (h : Canonical s) : Canonical (s.coalesce q final) :=
  .ite (.signalQueue (.setQueue h)) (.setQueue h)
theorem Canonical.writeCompl {q : Nat} (h : Canonical s) : Canonical (s.writeCompl q) := by
  unfold State.writeCompl
  dsimp only
  split
  · exact h
  · exact .ite h (.coalesce (.setQueue (.emit h)))

/-! ## Contexts -/

theorem Canonical.writeRecord {x state : Nat} (h : Canonical s) : Canonical (s.writeRecord x state) :=
  .count (.emit h)
theorem Canonical.countKnown {d : Int} (h : Canonical s) : Canonical (s.countKnown d) :=
  .setFld h
theorem Canonical.saveAdapter {x : Nat} (h : Canonical s) : Canonical (s.saveAdapter x) := by
  unfold State.saveAdapter
  dsimp only
  split
  · exact .count (.emit (.look h))
  · exact h
theorem Canonical.saveDigests {x : Nat} {l : LayerKv} {e : MapEntry} (h : Canonical s) :
    Canonical (s.saveDigests x l e) :=
  .foldl (fun h => .loftWrote (.emit (.look h))) h
theorem Canonical.freeLayer {x r : Nat} {l : LayerKv} (h : Canonical s) : Canonical (s.freeLayer x r l) :=
  .same (.spillsEnd (.same (.storeSet (.same (.foldl (fun h => .markSlot h) (.foldl (fun h => .slotGiven h) (.lookMap
      h)))))))
theorem Canonical.freeResident {x : Nat} (h : Canonical s) : Canonical (s.freeResident x) := by
  unfold State.freeResident
  dsimp only
  split
  · exact h
  · exact .setCtx (.foldl (fun h => .kvDone h) (.same (.foldl (fun h => .freeLayer h) h)))
theorem Canonical.lookChain {p : PartRec} {k : Ctx} (h : Canonical s) : Canonical (s.lookChain p k) :=
  .foldl (fun h => .lookBook h) h
theorem Canonical.dropBook {x : Nat} (h : Canonical s) : Canonical (s.dropBook x) := by
  refine .setCtx ?_
  split
  · exact h
  · exact .foldl (fun h => .addRefs h) (.lookChain h)
theorem Canonical.rollbackAll {x : Nat} (h : Canonical s) : Canonical (s.rollbackAll x) :=
  .foldl (fun h => .foldl (fun h => .rollbackLayer (.rollbackLayer h)) h) h
theorem Canonical.parkLayer {x r : Nat} {detach : Bool} {l : LayerKv} (h : Canonical s) :
    Canonical (s.parkLayer x r detach l) :=
  .ite h (.ite (.foldl (fun h => .saveDigests h) (.foldl (fun h => .loftWrote (.emit (.lookPage h))) (.lookMap h)))
      (.foldl (fun h => .loftWrote (.emit (.lookPage h))) (.lookMap h)))
theorem Canonical.beginPark {x reason : Nat} {detach : Bool} (h : Canonical s) :
    Canonical (s.beginPark x reason detach) := by
  unfold State.beginPark
  dsimp only
  split
  · exact h
  · exact .launch (.setCtx (.ite (.dropBook (.ite (.saveAdapter (.foldl (fun h => .parkLayer h) (.setCtx
      (.rollbackAll h)))) (.foldl (fun h => .parkLayer h) (.setCtx (.rollbackAll h))))) (.ite (.saveAdapter (.foldl
      (fun h => .parkLayer h) (.setCtx (.rollbackAll h)))) (.foldl (fun h => .parkLayer h) (.setCtx (.rollbackAll
      h))))))
theorem Canonical.endParked {x : Nat} {ok : Bool} (h : Canonical s) : Canonical (s.endParked x ok) :=
  .foldl (fun h => .endReq h) h
theorem Canonical.endPark {x : Nat} {ok : Bool} (h : Canonical s) : Canonical (s.endPark x ok) :=
  .ite h (.ite (.endParked (.setCtx (.writeRecord (.freeResident (.landed h))))) (.endParked (.setCtx (.landed h))))
theorem Canonical.installPlan {x r p : Nat} {l : LayerKv} {es : List MapEntry} (h : Canonical s) :
    Canonical (s.installPlan x r p l es) := by
  refine .foldl (fun h => .setHold h) (.foldl (fun h => .ite ?_ ?_) h)
  · split
    · exact h
    · exact .setMapEntry h
  · split
    · exact h
    · exact .ite (.recallNamed (.setMapEntry (.markSlot h))) (.setMapEntry (.markSlot h))
theorem CanonicalOpt.installPlans {x r p : Nat} {q : PartRec} {ls : List LayerKv} (h : Canonical s) :
    CanonicalOpt (State.installPlans x r p q ls s) := by
  induction ls generalizing s with
  | nil => exact .some h
  | cons l ls ih => exact .ite .none (ih (.installPlan h))
theorem CanonicalTry.tryResume {r : Req} (h : Canonical s) : CanonicalTry (s.tryResume r) := by
  unfold State.tryResume
  dsimp only
  split
  · exact .refused
  · exact .refused
  · refine .ite .refused (.ite .refused ?_)
    split
    · refine .ite .wait ?_
      split
      · exact .wait
      · exact .go (.beginPark h)
    · split
      · refine .ite .wait ?_
        split
        · exact .wait
        · exact .go (.beginPark h)
      · split
        · exact .refused
        · rename_i heq
          exact .go (.foldl (fun h => .emit h) (CanonicalOpt.installPlans (.takeKv (.setCtx h)) _ heq))
theorem Canonical.fillEntry {x : Nat} {l : LayerKv} {mem : List (Nat × List Byte)} {e : MapEntry}
    (h : Canonical s) : Canonical (s.fillEntry x l mem e) := by
  refine .ite ?_ (.ite (.foldl (fun h => ?_) (.storeSet h)) h)
  · split
    · exact h
    · exact .clean (.loftRead (.storeSet h))
  · split
    · exact h
    · exact .loftRead (.store h)
theorem Canonical.endResume {x : Nat} {mem : List (Nat × List Byte)} (h : Canonical s) :
    Canonical (s.endResume x mem).1 := by
  unfold State.endResume
  dsimp only
  split
  · refine .fstIte (.fst (.setCtx (.freeResident h))) (.fst (.setCtx ?_))
    split
    · exact .ite (.count (.storeSet (.foldl (fun h => .ite h (.foldl (fun h => .fillEntry h) (.lookMap h))) h)))
        (.foldl (fun h => .ite h (.foldl (fun h => .fillEntry h) (.lookMap h))) h)
    · exact .foldl (fun h => .ite h (.foldl (fun h => .fillEntry h) (.lookMap h))) h
  · exact .fst (.setCtx h)
theorem Canonical.deleteCtx {x : Nat} (h : Canonical s) : Canonical (s.deleteCtx x) :=
  .countKnown (.setCtx (.writeRecord (.freeResident (.dropBook h))))
theorem Canonical.faultParkEnd {x : Nat} (h : Canonical s) : Canonical (s.faultParkEnd x) :=
  .ite (.setCtx (.writeRecord h)) h
theorem Canonical.faultPark {x : Nat} (h : Canonical s) : Canonical (s.faultPark x) :=
  .faultParkEnd (.setCtx (.freeResident (.landed (.setFld (.same h)))))
theorem Canonical.endFaulted {x : Nat} (h : Canonical s) : Canonical (s.endFaulted x) :=
  .foldl (fun h => .endReq h) h
theorem Canonical.checkLayer {x r n : Nat} {l : LayerKv} (h : Canonical s) : Canonical (s.checkLayer x r n l) :=
  .ite h (.same (.ite (.foldl (fun h => .saveDigests h) (.foldl (fun h => .clean (.loftWrote (.emit (.lookPage h))))
      (.lookMap h))) (.foldl (fun h => .clean (.loftWrote (.emit (.lookPage h)))) (.lookMap h))))
theorem Canonical.checkpoint {x : Nat} (h : Canonical s) : Canonical (s.checkpoint x) := by
  unfold State.checkpoint
  dsimp only
  split
  · exact h
  · exact .ite h (.ite (.logFault (.setCtx h)) (.ite (.setCtx (.saveAdapter h)) (.setCtx (.ite (.saveAdapter (.foldl
      (fun h => .checkLayer h) h)) (.foldl (fun h => .checkLayer h) h)))))

/-! ## Serving -/

theorem Canonical.setPartState {p x : Nat} (h : Canonical s) : Canonical (s.setPartState p x) :=
  .setFld h
theorem Canonical.attach {x p : Nat} {rec' : PartRec} {n b m : Nat} (h : Canonical s) :
    Canonical (s.attach x p rec' n b m) := by
  refine .setCtx (.foldl (fun h => ?_) (.addRefs h))
  split
  · exact .setMapEntry h
  · exact h
theorem Canonical.lookupBook {r : Req} (h : Canonical s) : Canonical (s.lookupBook r).1 := by
  unfold State.lookupBook
  dsimp only
  split
  · exact .fst h
  · exact .fstIte (.fst h) (.fstIte (.fst (.foldl (fun h => .lookMap h) (.lookBook h))) (.fst (.setCtx (.foldl (fun h
      => .foldl (fun h => .setHold h) h) (.foldl (fun h => .attach h) (.foldl (fun h => .lookMap h) (.lookBook
      h)))))))
theorem Canonical.activate {r : Req} (h : Canonical s) : Canonical (s.activate r) :=
  .putReq (.lookupBook (.setCtx h))
theorem Canonical.keepLast {r : Req} (h : Canonical s) : Canonical (s.keepLast r) := by
  unfold State.keepLast
  split
  · exact h
  · exact .setCtx h
theorem Canonical.createWith {r : Req} {b : List Byte} (h : Canonical s) : Canonical (s.createWith r b) := by
  unfold State.createWith
  split
  · exact .endReq h
  · exact .ite (.endReq (.count h)) (.ite (.endReq (.count h)) (.ite (.endReq (.count h)) (.endReq (.countKnown
      (.setCtx (.count h))))))
theorem Canonical.startCreate {r : Req} (h : Canonical s) : Canonical (s.startCreate r) := by
  refine .ite (.endReq h) (.ite (.endReq h) ?_)
  split
  · exact .putReq (.emit h)
  · exact .createWith (.emit h)
theorem Canonical.readRecord {r : Req} (h : Canonical s) : Canonical (s.readRecord r) :=
  .putReq (.setCtx (.emit h))
theorem Canonical.bringIn {r : Req} (h : Canonical s) : Canonical (s.bringIn r) := by
  unfold State.bringIn
  extract_lets s1
  have h1 : Canonical s1 := by
    unfold s1
    split
    · exact .lookChain h
    · exact h
  have hr : CanonicalTry (s1.tryResume r) := .tryResume h1
  split
  · exact .endReq h1
  · exact .holdReq (.setCtx h1)
  · rename_i t e
    exact .ite (.putReq (.count (hr t e))) (.holdReq (hr t e))
theorem Canonical.startRun {r : Req} (h : Canonical s) : Canonical (s.startRun r) :=
  .ite (.endReq h) (.ite (.endReq h) (.ite (.ite (.bringIn h) (.ite (.readRecord h) (.holdReq h))) (.ite (.ite
      (.endReq h) (.ite (.endReq h) (.activate h))) h)))
theorem Canonical.startPark {r : Req} (h : Canonical s) : Canonical (s.startPark r) :=
  .ite (.endReq h) (.ite (.endReq h) (.ite (.beginPark (.putReq h)) h))
theorem Canonical.startDelete {r : Req} (h : Canonical s) : Canonical (s.startDelete r) := by
  refine .ite (.endReq h) (.ite h (.endReq (.deleteCtx ?_)))
  split
  · exact h
  · exact .endReq h
theorem Canonical.stepReq {r : Req} (h : Canonical s) : Canonical (s.stepReq r) :=
  .ite (.startCreate h) (.ite (.startPark h) (.ite (.startDelete h) (.ite (.ite (.endReq (.keepLast h)) (.endReq h))
      (.startRun h))))
theorem Canonical.serveN {fuel : Nat} {tried : List Nat} (h : Canonical s) :
    Canonical (State.serveN fuel tried s) := by
  induction fuel generalizing s tried with
  | zero => exact h
  | succ n ih =>
    unfold State.serveN
    split
    · exact h
    · exact ih (.stepReq h)
theorem Canonical.parksDue (h : Canonical s) : Canonical s.parksDue :=
  .foldl (fun h => .beginPark h) (.same h)
theorem Canonical.serveReqs (h : Canonical s) : Canonical s.serveReqs :=
  .foldl (fun h => .holdReq h) (.serveN (.parksDue h))

/-! ## Passes -/

theorem Canonical.lookAttended {x : Nat} (h : Canonical s) : Canonical (s.lookAttended x) := by
  unfold State.lookAttended
  split
  · exact .lookMap h
  · exact h
theorem Canonical.countFlight (h : Canonical s) : Canonical s.countFlight :=
  .setFld h
theorem Canonical.admitOne {r : Req} {q : Pass} (h : Canonical s) : Canonical (s.admitOne r q) :=
  .countFlight (.putReq (.ite (.drew (.same (.setCtx (.foldl (fun h => .store h) h)))) (.same (.setCtx (.foldl (fun h
      => .store h) h)))))
theorem Canonical.admitN {p fuel lanes : Nat} {bucket : Option Nat} (h : Canonical s) :
    Canonical (State.admitN p fuel lanes bucket s) := by
  induction fuel generalizing s lanes bucket with
  | zero => exact h
  | succ n ih =>
    unfold State.admitN
    split
    · exact h
    · exact .ite (.lookAttended h) (ih (.admitOne (.lookAttended h)))
theorem Canonical.shareBlock {x p b n : Nat} {take : Bool} (h : Canonical s) :
    Canonical (s.shareBlock x p b n take) := by
  refine .foldl (fun {t l} ht => ?_) h
  have h1 : Canonical (t.lookMap l (s.residentOf x)) := .lookMap ht
  dsimp only
  split
  · refine .ite h1 (.ite (.setMapEntry (.setBookSlot h1)) ?_)
    split
    · exact h1
    · exact .setMapEntry (.markSlot h1)
  · exact h1
theorem Canonical.publishBlock {x b : Nat} (h : Canonical s) : Canonical (s.publishBlock x b) := by
  unfold State.publishBlock
  extract_lets k parent up
  have hup : ∀ {t n}, Canonical t → Canonical (up t n) := fun h => .setCtx h
  split
  · extract_lets s1 pkey joined hot key s2 c rec'
    have h1 : Canonical s1 := .foldl (fun h => .lookMap h) (.lookChain h)
    have h2 : Canonical s2 := .foldl (fun h => .lookBook h) h1
    refine .ite h1 ?_
    split
    · exact hup (.shareBlock (.addRefs h2))
    · split
      · exact .kvStat h2
      · exact hup (.setBookNum (.shareBlock (.store (.ite (.freeNode h2) h2))))
  · exact h
theorem Canonical.afterCommit {x : Nat} (h : Canonical s) : Canonical (s.afterCommit x) :=
  .checkpoint (.ite (.foldl (fun h => .publishBlock h) h) h)
theorem Canonical.notify {c x flags : Nat} {n : Notice} (h : Canonical s) : Canonical (s.notify c x flags n) :=
  .same (.same (.sendPn h))
theorem Canonical.charge {q : Pass} {emitted : Nat} (h : Canonical s) : Canonical (s.charge q emitted) :=
  .addBalance h
theorem Canonical.dropPass {q : Pass} (h : Canonical s) : Canonical (s.dropPass q) :=
  .countFlight (.setCtx (.same h))
theorem Canonical.discardPass {o : KvOp} {q : Pass} {reason : Option Nat} {norm : Bool} (h : Canonical s) :
    Canonical (s.discardPass o q reason norm) := by
  unfold State.discardPass
  dsimp only
  split
  · exact .same (.putReq (.kvSend (.dropPass h)))
  · exact .same (.kvSend (.dropPass h))
  · exact .notify (.kvSend (.dropPass h))
  · exact .kvSend (.dropPass h)
theorem Canonical.commitPass {o : KvOp} {q : Pass} {mask : Nat} {norm : Bool} (h : Canonical s) :
    Canonical (s.commitPass o q mask norm) := by
  refine .kvSend (.notify ?_)
  split
  · exact .charge (.setCtx (.dropPass (.takeKv h)))
  · exact .ite (.putReq (.charge (.setCtx (.dropPass (.takeKv h))))) (.keepLast (.putReq (.charge (.setCtx (.dropPass
      (.takeKv h))))))
theorem Canonical.commitDone {o : KvOp} (h : Canonical s) : Canonical (s.commitDone o) :=
  .ite h (.afterCommit h)
theorem Canonical.decidePass {o : KvOp} {q : Pass} {mask : Nat} (h : Canonical s) :
    Canonical (s.decidePass o q mask) := by
  unfold State.decidePass
  dsimp only
  split
  · exact .serveReqs (.discardPass h)
  · exact .serveReqs (.discardPass h)
  · exact .serveReqs (.commitDone (.commitPass h))
theorem Canonical.kvAcked {m : PnMsg} {x st : Nat} (h : Canonical s) : Canonical (s.kvAcked m x st) := by
  unfold State.kvAcked
  dsimp only
  split
  · exact .takePn h
  · exact .ite (.ite (.afterCommit (.kvDone (.same (.takePn h)))) (.kvDone (.same (.takePn h)))) (.same (.takePn h))
theorem Canonical.noticeIn {n : Notice} (h : Canonical s) : Canonical (s.noticeIn n) := by
  unfold State.noticeIn
  split
  · exact h
  · rename_i r _
    extract_lets now count first interval ttft tbt s1 s2 s3
    have h1 : Canonical s1 := .ite (.bump h) h
    have h2 : Canonical s2 := .ite (.bump h1) h1
    have h3 : Canonical s3 := .ite h2 (.emit h2)
    split
    rename_i t q e
    have ht : Canonical t := by
      split at e <;> cases e
      · exact h
      · exact h3
    extract_lets r1
    split
    · exact .endReq ht
    · exact .ite (.putReq (.pushCompl ht)) (.putReq ht)

/-! ## KvQueue -/

theorem Canonical.runCommit {o : KvOp} (h : Canonical s) : Canonical (s.runCommit o) := by
  refine .ite (.kvDone h) (.ite (.kvDone h) (.ite (.kvDone h) ?_))
  split
  · exact .decidePass h
  · exact .commitDone (.kvSend (.takeKv h))
theorem Canonical.kvStart {o : KvOp} (h : Canonical s) : Canonical (s.kvStart o) := by
  unfold State.kvStart
  dsimp only
  split
  · exact .same h
  · exact .runCommit (.same h)
  · exact .runRollback (.same h)
  · exact .runMap (.same h)
  · exact .runDigest (.same h)
  · exact .runMask (.same h)
theorem Canonical.kvRunN {fuel : Nat} (h : Canonical s) : Canonical (State.kvRunN fuel s) := by
  induction fuel generalizing s with
  | zero => exact h
  | succ n ih =>
    unfold State.kvRunN
    split
    · exact h
    · exact ih (.kvStart h)
theorem Canonical.kvRun (h : Canonical s) : Canonical s.kvRun :=
  .kvRunN h
theorem Canonical.serve (h : Canonical s) : Canonical s.serve :=
  .kvRun (.serveReqs h)
theorem Canonical.kvEnter {o : KvOp} (h : Canonical s) : Canonical (s.kvEnter o) :=
  .kvRun (.kvPush h)
theorem CanonicalOut.execKvAppendComplete {c : CoreId} {t : TokId} (h : Canonical s) :
    CanonicalOut (execKvAppendComplete c t s) := by
  refine .next (.settle h ?_)
  split
  · exact h
  · exact .ite (.kvRun (.runAppend h)) h
theorem CanonicalOut.execLoftFetchComplete {id : Nat} {ok : Bool} {data : List Byte} (h : Canonical s) :
    CanonicalOut (execLoftFetchComplete id ok data s) := by
  refine .next (.settle h ?_)
  split
  · exact h
  · exact .kvRun (.foldl (fun h => .kvDone h) (.pageIn (.same h)))
theorem CanonicalOut.execKvAck {id : Nat} (h : Canonical s) : CanonicalOut (execKvAck id s) := by
  refine .next (.settle h ?_)
  split
  · exact h
  · split
    · exact .serve (.kvAcked h)
    · exact h

/-! ## Claims -/

theorem Canonical.supersede {c : Nat} (h : Canonical s) : Canonical (s.supersede c) :=
  .foldl (fun h => .tokComplete h) (.same h)
theorem Canonical.grant {q : ClaimReq} (h : Canonical s) : Canonical (s.grant q) :=
  .startEngines (.tokComplete (.ite (.count (.setReserved (.setClaim (.same h)))) (.same (.count (.setReserved
      (.setClaim (.same h)))))))
theorem Canonical.grantLoop {r fuel : Nat} (h : Canonical s) : Canonical (State.grantLoop r fuel s) := by
  induction fuel generalizing s with
  | zero => exact h
  | succ n ih =>
    unfold State.grantLoop
    split
    · exact h
    · exact .ite (ih (.grant (.same h))) h
theorem Canonical.arbitrate {r : Nat} (h : Canonical s) : Canonical (s.arbitrate r) :=
  .thrSync (.grantLoop (.ite h (.takeWeight h)))
theorem Canonical.claimAsk {c t bins engines : Nat} (h : Canonical s) : Canonical (s.claimAsk c t bins engines) :=
  .ite (.thrSync (.claimSettle (.tokComplete (.same h)))) (.ite (.bump (.arbitrate (.same h))) (.arbitrate (.same h)))
theorem CanonicalOut.execRelease {c : CoreId} {f : CFmt} (h : Canonical s) : CanonicalOut (execRelease c f s) := by
  refine .next (.issue (fun h => h) (fun h => .thrSync (.claimSettle ?_)) h)
  split
  · exact .same (.supersede h)
  · exact .same (.same (.supersede h))
theorem Canonical.cueDropped {c : Nat} (h : Canonical s) : Canonical (s.cueDropped c) :=
  .setFld h
theorem Canonical.reserveHeavy {c bins engines : Nat} (h : Canonical s) : Canonical (s.reserveHeavy c bins engines) :=
  .setReserved h
theorem CanonicalOut.execPnCue {id : Nat} (h : Canonical s) : CanonicalOut (execPnCue id s) := by
  refine .next ?_
  split
  · exact h
  · split
    · exact .ite (.ite (.cueDropped (.takePn h)) (.takePn h)) (.ite (.ite (.takePn h) (.wake (.takePn h)))
        (.reserveHeavy (.ite (.takePn h) (.wake (.takePn h)))))
    · exact h
theorem Canonical.serveWaits {c k fuel : Nat} (h : Canonical s) : Canonical (State.serveWaits c k fuel s) := by
  induction fuel generalizing s with
  | zero => exact h
  | succ n ih =>
    have ht : ∀ {w : SigWait} {x y}, Canonical (State.tokComplete { s.setFld (Reg.SEQ_SIG c k) Fl.SEQ_SIG_COUNT x with
        sigWaits := y } c w.tok stOk) := .tokComplete (.same (.setFld h))
    unfold State.serveWaits
    split
    · exact h
    · exact .ite (ih (.ite (.wake ht) ht)) h
theorem CanonicalOut.execWaitTimeout {c : CoreId} {slot : WinId} (h : Canonical s) :
    CanonicalOut (execWaitTimeout c slot s) := by
  refine .next ?_
  split
  · exact h
  · exact .serveWaits (.tokComplete (.same h))
theorem CanonicalOut.execPnSignal {id : Nat} (h : Canonical s) : CanonicalOut (execPnSignal id s) := by
  refine .next ?_
  split
  · exact h
  · split
    · exact .sendAway (.ite (.serveWaits (.bump (.ite (.countUnreach (.takePn h)) (.takePn h)))) (.ite (.countUnreach
        (.takePn h)) (.takePn h)))
    · exact h
theorem CanonicalOut.execSignalAck {id : Nat} (h : Canonical s) : CanonicalOut (execSignalAck id s) := by
  refine .next ?_
  split
  · exact h
  · split
    · extract_lets s1
      have h1 : Canonical s1 := .takePn h
      split
      · exact h1
      · exact .tokComplete (.same h1)
    · exact h
theorem CanonicalOut.execNetTimeout {id : Nat} (h : Canonical s) : CanonicalOut (execNetTimeout id s) := by
  refine .next (.settle h ?_)
  split
  · exact .ite (.tokComplete (.setFld (.putNet h))) h
  · split
    · exact .tokComplete (.same h)
    · split
      · exact .kvRun (.kvDone h)
      · exact h

/-! ## Budget -/

theorem Canonical.setDomain {d : Nat} {on : Bool} (h : Canonical s) : Canonical (s.setDomain d on) :=
  .setFld h
theorem Canonical.capRegion {r : Nat} (h : Canonical s) : Canonical (s.capRegion r) :=
  .thrSync (.setFld (.setFld h))
theorem Canonical.recap (h : Canonical s) : Canonical s.recap :=
  .foldl (fun h => .thrSync (.wr h)) h
theorem Canonical.setDroop {c x : Nat} (h : Canonical s) : Canonical (s.setDroop c x) :=
  .thrSync (.same h)

/-! ## Log -/

theorem Canonical.logDriftAt {stamp g part source e action outcome : Nat} (h : Canonical s) :
    Canonical (s.logDriftAt stamp g part source e action outcome) :=
  .setFld (.same (.ite h (.bump h)))
theorem Canonical.logDrift {g part source e action outcome : Nat} (h : Canonical s) :
    Canonical (s.logDrift g part source e action outcome) :=
  .logDriftAt h

/-! ## Cellar -/

theorem Canonical.setCell {g row col v : Nat} (h : Canonical s) : Canonical (s.setCell g row col v) :=
  .same h
theorem Canonical.setBinRec {g : Nat} {r : BinRec} (h : Canonical s) : Canonical (s.setBinRec g r) :=
  .same h
theorem Canonical.setBinState {g : Nat} {x : BinState} (h : Canonical s) : Canonical (s.setBinState g x) :=
  .setBinRec h
theorem Canonical.setRackRec {r : Nat} {x : RackRec} (h : Canonical s) : Canonical (s.setRackRec r x) :=
  .same h
theorem Canonical.setCheck {g : Nat} {k : BinCheck} (h : Canonical s) : Canonical (s.setCheck g k) :=
  .same h
theorem Canonical.offlineBin {g : Nat} (h : Canonical s) : Canonical (s.offlineBin g) := by
  unfold State.offlineBin
  dsimp only
  split
  · exact .logFault (.setBinState h)
  · exact .setBinState h
theorem Canonical.setLabMark {k : Nat} {m : LabelMark} (h : Canonical s) : Canonical (s.setLabMark k m) :=
  .same h
theorem Canonical.readLabel {unit k : Nat} (h : Canonical s) : Canonical (s.readLabel unit k) := by
  unfold State.readLabel
  dsimp only
  split
  · exact .setFld (.setRackRec (.setLabMark h))
  · exact .ite (.offlineBin (.logFault (.ite (.setFld (.setFld (.setRackRec (.setLabMark h)))) (.setFld (.setRackRec
      (.setLabMark h)))))) (.ite (.logFault (.ite (.setFld (.setFld (.setRackRec (.setLabMark h)))) (.setFld
      (.setRackRec (.setLabMark h))))) (.logDrift (.logFault (.ite (.setFld (.setFld (.setRackRec (.setLabMark h))))
      (.setFld (.setRackRec (.setLabMark h)))))))
  · exact h
theorem Canonical.readLabels {unit : Nat} {p : Nat → Bool} (h : Canonical s) : Canonical (s.readLabels unit p) :=
  .foldl (fun h => .readLabel h) h
theorem Canonical.rewriteLabels {g : Nat} {p : Nat → Bool} (h : Canonical s) : Canonical (s.rewriteLabels g p) :=
  .foldl (fun h => .ite h (.setRackRec h)) (.same h)
theorem Canonical.recordThresholds {p : Nat} {l : Nat × Nat × Nat} (h : Canonical s) :
    Canonical (s.recordThresholds p l) :=
  .foldl (fun h => .same h) h
theorem Canonical.countClamps {unit : Nat} {racks : List Nat} (h : Canonical s) :
    Canonical (s.countClamps unit racks) :=
  .foldl (fun h => .setFld (.bump (.setRackRec h))) h
theorem Canonical.checkSpans {d unit : Nat} {racks lanes : List Nat} (h : Canonical s) :
    Canonical (s.checkSpans d unit racks lanes) :=
  .foldl (fun h => .ite (.setFld (.setRackRec h)) h) h
theorem Canonical.capture {d unit g half lane : Nat} {poisoned : Bool} {xs : List Block32} (h : Canonical s) :
    Canonical (s.capture d unit g half lane poisoned xs) :=
  .ite (.setFld (.setFld (.foldl (fun h => .wr h) h))) h
theorem Canonical.measurePattern {unit g lane pat : Nat} (h : Canonical s) :
    Canonical (s.measurePattern unit g lane pat).1 :=
  .foldlFst (fun h => .fst (.countClamps (.capture h))) (.fst (.checkSpans (.readLabels (.drew h))))

/-! ## Drift -/

theorem Canonical.holdChk {g : Nat} {old : DWord × DWord} (h : Canonical s) : Canonical (s.holdChk g old) :=
  .setCheck h
theorem Canonical.testStart {g : Nat} (h : Canonical s) : Canonical (s.testStart g) :=
  .setCheck h
theorem Canonical.driftEvent {g e source act : Nat} (h : Canonical s) : Canonical (s.driftEvent g e source act) :=
  .ite (.logDrift h) (.ite (.logDrift h) (.ite (.logDrift (.same h)) (.same h)))
theorem Canonical.recordSet {g n : Nat} (h : Canonical s) : Canonical (s.recordSet g n) :=
  .setBinRec h
theorem Canonical.endSet {g n source : Nat} {q : DWord × DWord} (h : Canonical s) :
    Canonical (s.endSet g n source q) :=
  .ite (.driftEvent (.recordSet h)) (.ite (.logDriftAt (.recordSet h)) (.recordSet h))
theorem Canonical.closeSet {g n : Nat} (h : Canonical s) : Canonical (s.closeSet g n) :=
  .setCheck (.endSet h)
theorem Canonical.runPattern {unit g lane pat : Nat} (h : Canonical s) :
    Canonical (s.runPattern unit g lane pat) := by
  unfold State.runPattern
  extract_lets s1 s2 r s3 k errs s4
  have h1 : Canonical s1 := .readLabels h
  have h3 : Canonical s3 := .measurePattern (.ite h1 (.testStart h1))
  exact .ite h1 (.ite (.closeSet (.setCheck h3)) (.setCheck h3))
theorem Canonical.fullSet {unit g : Nat} (h : Canonical s) : Canonical (s.fullSet unit g).1 := by
  have h1 : Canonical ((s.testStart g).readLabels unit (isTestOf g)) := .readLabels (.testStart h)
  exact .fstIte (.fst h1) (.fst (.foldlFst (fun h => .fst (.measurePattern h)) (.fst h1)))
theorem Canonical.setColStat {g col : Nat} {k : ColStat} (h : Canonical s) : Canonical (s.setColStat g col k) :=
  .same h
theorem Canonical.takeStats {g : Nat} {cols : List (List BlockOut)} (h : Canonical s) :
    Canonical (s.takeStats g cols) :=
  .ite (.foldl (fun h => .ite h (.setColStat h)) (.setCheck h)) h
theorem Canonical.clearStats {g : Nat} (h : Canonical s) : Canonical (s.clearStats g) :=
  .same h
theorem Canonical.measureSums {d g : Nat} (h : Canonical s) : Canonical (s.measureSums d g) :=
  .foldl (fun h => .foldl (fun h => .same h) h) (.foldl (fun h => .foldl (fun h => .same h) h) h)
theorem Canonical.clearRefFaults {g : Nat} (h : Canonical s) : Canonical (s.clearRefFaults g) :=
  .foldl (fun h => .ite h (.setRackRec h)) h
theorem CanonicalOut.execRecalComplete {c : CoreId} {b : BinId} (h : Canonical s) :
    CanonicalOut (execRecalComplete c b s) := by
  refine .next (.ite h ?_)
  split
  · exact h
  · extract_lets +onlyGivenNames s1 r
    refine .ite (.same h) ?_
    extract_lets +onlyGivenNames s2 d s3 trims s4
    have h4 : Canonical s4 := .countClamps (.checkSpans (.drew (.drew (.drew (.readLabels (.same h))))))
    refine .ite (.bump (.logDriftAt (.offlineBin h4))) ?_
    extract_lets +onlyGivenNames s5 s6
    have h6 : Canonical s6 := .clearRefFaults (.rewriteLabels (.measureSums (.foldl (fun h => .setRackRec h) h4)))
    -- From here on the kernel shall not evaluate `s6` or `fullSet`: they are variables.
    have hfull : ∀ {t : State} {unit g}, Canonical t → Canonical (t.fullSet unit g).1 := .fullSet
    generalize s6 = u, State.fullSet = run at h6 hfull ⊢
    revert u run
    refine id fun u run h6 hfull => ?_
    extract_lets src s7
    have h7 : Canonical (run s7 c.val (c.val * 480 + b.val)).1 := hfull (.setBinRec h6)
    generalize run s7 c.val (c.val * 480 + b.val) = q at h7 ⊢
    obtain ⟨t, sum⟩ := q
    cases sum with
    | none => exact .logDriftAt h7
    | some n =>
      have h8 : Canonical (t.recordSet (c.val * 480 + b.val) n) := .recordSet h7
      dsimp only
      exact .ite (.logDriftAt (.same h8)) (.logDriftAt (.ite h8 (.same h8)))
theorem Canonical.wearUp {g : Nat} (h : Canonical s) : Canonical (s.wearUp g) :=
  .same h
theorem Canonical.hvSync (h : Canonical s) : Canonical s.hvSync :=
  .setFld (.same h)
theorem Canonical.startRefreshes {fuel : Nat} (h : Canonical s) : Canonical (startRefreshes fuel s) := by
  induction fuel generalizing s with
  | zero => exact h
  | succ n ih =>
    unfold Machine.startRefreshes
    split
    · exact h
    · exact ih (.ite (.wearUp (.setBinState (.same (.same h)))) (.same h))
theorem Canonical.runRefreshes (h : Canonical s) : Canonical s.runRefreshes :=
  .hvSync (.startRefreshes h)
theorem Canonical.writeRefreshGo {v : Word} (h : Canonical s) : Canonical (s.writeRefreshGo v) :=
  .runRefreshes (.same h)
theorem Canonical.erasedAgain {d g : Nat} (h : Canonical s) : Canonical (s.erasedAgain d g) :=
  .foldl (fun h => .ite (.wearUp h) h) h
theorem Canonical.reprogram {d g : Nat} (h : Canonical s) : Canonical (s.reprogram d g) :=
  .foldl (fun h => .foldl (fun h => .setCell h) h) h
theorem Canonical.measureSpans {d g : Nat} (h : Canonical s) : Canonical (s.measureSpans d g) :=
  .foldl (fun h => .setRackRec (.foldl (fun h => .same h) h)) h
theorem Canonical.refreshEnd {unit g : Nat} (h : Canonical s) : Canonical (s.refreshEnd unit g) := by
  unfold State.refreshEnd
  split
  · exact h
  · extract_lets s1 r s2 d s3 s4 s5
    have h1 : Canonical s1 := .same h
    have h3 : Canonical s3 := .drew (.drew (.drew (.readLabels h1)))
    have h4 : Canonical s4 := .erasedAgain (.reprogram h3)
    have h5 : Canonical s5 := .clearRefFaults (.rewriteLabels (.measureSums (.measureSpans h4)))
    have h6 : Canonical (s5.fullSet unit g).1 := .fullSet h5
    refine .runRefreshes (.ite ?_ (.logDriftAt (.bump (.offlineBin h3))))
    generalize s5.fullSet unit g = q at h6 ⊢
    obtain ⟨t, sum⟩ := q
    refine .logDriftAt (.bump ?_)
    cases sum with
    | none => exact .setBinState h6
    | some n => exact .recordSet (.setBinState h6)

/-! ## Rack -/

theorem Canonical.mapFire {c t : Nat} {u : Fire → Fire} (h : Canonical s) : Canonical (s.mapFire c t u) :=
  .same h
theorem CanonicalOut.execFireStaging {c : CoreId} (h : Canonical s) : CanonicalOut (execFireStaging c s) := by
  refine .next (.settle h ?_)
  split
  · exact h
  · exact .ite h (.mapFire (.foldl (fun h => .checkRange h) h))
theorem Canonical.ride {unit : Nat} {q : FireGroup} {free : List Nat} (h : Canonical s) :
    Canonical (s.ride unit q free) :=
  .foldl (fun h => .foldl (fun h => .runPattern h) h) h
theorem CanonicalRun.fireForward {f : Fire} {q : FireGroup} {gi : Nat} (h : Canonical s) :
    CanonicalRun (s.fireForward f q gi) :=
  .ite (.mk (.setFld (.foldl (fun h => .readLabels h) h))) (.mk (.foldlFst (fun h => .fstIte (.fst (.foldl (fun h =>
      .capture h) h)) (.fst (.foldl (fun h => .capture h) (.sticky (.foldl (fun h => .takeStats h) (.countClamps
      h)))))) (.fst (.foldl (fun h => .ite h (.checkSpans (.readLabels h))) (.drew (.foldl (fun h => .readLabels h)
      h))))))
theorem CanonicalRun.fireReverse {f : Fire} {q : FireGroup} {gi : Nat} (h : Canonical s) :
    CanonicalRun (s.fireReverse f q gi) :=
  .ite (.mk (.setFld (.readLabels h))) (.ite (.mk (.drew (.readLabels h))) (.ite (.mk (.ite (.ite (.drew (.readLabels
      h)) (.readLabels (.drew (.readLabels h)))) (.checkSpans (.ite (.drew (.readLabels h)) (.readLabels (.drew
      (.readLabels h))))))) (.ite (.mk (.ite (.ite (.drew (.readLabels h)) (.readLabels (.drew (.readLabels h))))
      (.checkSpans (.ite (.drew (.readLabels h)) (.readLabels (.drew (.readLabels h))))))) (.mk (.sticky (.sticky
      (.countClamps (.ite (.ite (.drew (.readLabels h)) (.readLabels (.drew (.readLabels h)))) (.checkSpans (.ite
      (.drew (.readLabels h)) (.readLabels (.drew (.readLabels h)))))))))))))
theorem CanonicalRun.fireTest {f : Fire} {q : FireGroup} (h : Canonical s) : CanonicalRun (s.fireTest f q) := by
  unfold State.fireTest
  extract_lets c g s1 s2 old chk s3 r s4 k n high s5
  have h1 : Canonical s1 := .readLabels h
  have h2 : Canonical s2 := .readLabels h1
  have h3 : Canonical s3 := .ite h2 (.testStart (.setCheck h2))
  have h4 : Canonical s4 := .foldlFst (fun h => .fst (.measurePattern h)) (.fst h3)
  exact .ite (.mk (.setFld h1)) (.ite (.mk h2) (.ite (.mk (.setCheck (.endSet h4))) (.mk (.setCheck h4))))
theorem CanonicalRun.fireGroup {f : Fire} {q : FireGroup} {gi : Nat} (h : Canonical s) :
    CanonicalRun (s.fireGroup f q gi) := by
  unfold State.fireGroup
  split
  · exact .fireForward h
  · exact .fireReverse h
  · exact .fireTest h
theorem Canonical.issueFire {f : Fire} (h : Canonical s) : Canonical (s.issueFire f) :=
  .mapFire (.bump (.count (.count (.foldlFst (fun h => .fst (.ite (.ride (.ofRun (.fireGroup h))) (.ofRun (.fireGroup
      h)))) (.fst h)))))
theorem CanonicalOut.execFireIssue {c : CoreId} {t : TokId} (h : Canonical s) :
    CanonicalOut (execFireIssue c t s) := by
  refine .next ?_
  split
  · exact h
  · exact .ite h (.ite (.setFld h) (.ite (.issueFire h) h))
theorem Canonical.dropFire {f : Fire} (h : Canonical s) : Canonical (s.dropFire f) :=
  .tokComplete (.same h)
theorem Canonical.arrived {f : Fire} (h : Canonical s) : Canonical (s.arrived f) :=
  .ite (.mapFire h) (.ite (.dropFire h) (.dropFire (.same h)))
theorem Canonical.deliver {c t : Nat} {x : EvalClass} {p : Fire → Bool} (h : Canonical s) :
    Canonical (s.deliver c t x p) := by
  unfold State.deliver
  split
  · exact h
  · exact .claimSettle (.ite (.arrived (.mapFire h)) (.mapFire h))
theorem CanonicalOut.execFireCopyDone {c : CoreId} {t : TokId} (h : Canonical s) :
    CanonicalOut (execFireCopyDone c t s) := by
  refine .next (.settle h ?_)
  split
  · exact h
  · exact .ite h (.dropFire (.store h))
theorem Canonical.fireIssue {opc : Byte} {illegal : Bool} {check : Option Cause} {fire : Fire} {c : CoreId} {f : UFmt}
    (h : Canonical s) : Canonical (fireIssue opc illegal check fire c f s) := by
  unfold Machine.fireIssue
  exact .issueOr (fun h => .ite (.setFld h) h) (fun h => .held (.setFld h)) (fun h => .same (.tokIssue h)) h

/-! ## Curtain -/

theorem Canonical.zeroPantry {c : Nat} (h : Canonical s) : Canonical (s.zeroPantry c) :=
  { h with pantry := swf_sclear _ _ _ _ h.pantry, pantryEcc := swf_sclear _ _ _ _ h.pantryEcc }
theorem Canonical.routerDark {c : Nat} (h : Canonical s) : Canonical (s.routerDark c) :=
  .foldl (fun h => .ite (.dropNet h) (.ite (.backLost h) (.ite (.asleepTo h) (.unreachable h)))) h
theorem Canonical.coreDark {c : Nat} (h : Canonical s) : Canonical (s.coreDark c) := by
  unfold State.coreDark
  extract_lets inWin s1 mine lost keep power s2
  have h1 : Canonical s1 := .routerDark (.claimsGone (.loseVolatile h))
  have h2 : Canonical s2 := ⟨swf_sclearIf _ _ inWin h1.regs, swf_sclearIf _ _ inWin h1.shadow, h1.pantry,
      h1.pantryEcc,
    swf_sclear _ _ _ _ h1.code, swf_sclear _ _ _ _ h1.codeEcc⟩
  exact .setSleep (.zeroPantry h2)
theorem Canonical.setStage {r x : Nat} (h : Canonical s) : Canonical (s.setStage r x) :=
  .same h
theorem Canonical.downGone {r : Nat} (h : Canonical s) : Canonical (s.downGone r) :=
  .same h
theorem Canonical.inrushOver (h : Canonical s) : Canonical s.inrushOver :=
  .foldl (fun h => .setSkip h) h
theorem Canonical.regionOff {r : Nat} (h : Canonical s) : Canonical (s.regionOff r) :=
  .ite (.downGone h) (.recap (.ite (.thrSync (.wr (.setStage (.downGone (.foldl (fun h => .setSkip h) (.foldl (fun h
      => .coreDark h) (.setDomain (.setFld (.ite (.inrushOver h) h))))))))) (.setDomain (.thrSync (.wr (.setStage
      (.downGone (.foldl (fun h => .setSkip h) (.foldl (fun h => .coreDark h) (.setDomain (.setFld (.ite (.inrushOver
      h) h))))))))))))
theorem Canonical.upFail {r : Nat} (h : Canonical s) : Canonical (s.upFail r) :=
  .setFld h
theorem Canonical.askUp {r : Nat} (h : Canonical s) : Canonical (s.askUp r) :=
  .ite h (.ite (.upFail h) (.same h))
theorem Canonical.curtainRest (h : Canonical s) : Canonical s.curtainRest :=
  .setFld (.setFld (.setFld h))
theorem Canonical.curtainGo {fuel : Nat} (h : Canonical s) : Canonical (State.curtainGo fuel s) := by
  induction fuel generalizing s with
  | zero => exact h
  | succ n ih =>
    refine .ite h ?_
    split
    · exact h
    · exact .ite (ih (.upFail (.same h))) (.setFld (.setFld (.setFld (.same h))))
theorem Canonical.curtainStart (h : Canonical s) : Canonical s.curtainStart :=
  .curtainGo h
theorem Canonical.curtainNext {r : Nat} (h : Canonical s) : Canonical (s.curtainNext r) :=
  .ite (.curtainStart (.curtainRest h)) h
theorem Canonical.legacyEnd (h : Canonical s) : Canonical s.legacyEnd :=
  .ite (.curtainStart (.curtainRest (.same h))) h
theorem Canonical.bringUpFail {r : Nat} (h : Canonical s) : Canonical (s.bringUpFail r) :=
  .legacyEnd (.curtainNext (.regionOff (.upFail h)))
theorem Canonical.curtainStop (h : Canonical s) : Canonical s.curtainStop :=
  .curtainRest (.ite (.same (.foldl (fun h => .ite h (.regionOff (.upFail h))) (.same h))) (.foldl (fun h => .ite h
      (.regionOff (.upFail h))) (.same h)))
theorem Canonical.attempt {r : Nat} (h : Canonical s) : Canonical (s.attempt r) :=
  .ite (.same h) h
theorem Canonical.legacyGo (h : Canonical s) : Canonical s.legacyGo :=
  .ite (.legacyEnd (.foldl (fun h => .ite h (.ite (.upFail h) (.attempt (.setDomain (.setStage h))))) (.setFld
      (.setDomain (.same h))))) (.same h)
theorem Canonical.askRegions {rs : List Nat} (h : Canonical s) : Canonical (s.askRegions rs) :=
  .ite (.ite (.legacyGo h) h) (.curtainStart (.foldl (fun h => .askUp h) h))
theorem Canonical.slotGrant {r : Nat} (h : Canonical s) : Canonical (s.slotGrant r) :=
  .setFld (.attempt (.setDomain (.setStage (.setDomain h))))
theorem Canonical.coreUp {c : Nat} (h : Canonical s) : Canonical (s.coreUp c) :=
  .setFld (.readLabels (.checkSpans (.drew (.setSleep h))))
theorem Canonical.regionUp {r : Nat} (h : Canonical s) : Canonical (s.regionUp r) :=
  .legacyEnd (.curtainNext (.recap (.thrSync (.ite (.setSkip (.wr (.foldl (fun h => .coreUp h) (.setFld (.setStage
      h))))) (.wr (.foldl (fun h => .coreUp h) (.setFld (.setStage h))))))))

/-! ## Groups -/

theorem Canonical.commitReport {g : Machine.Group} {r : Option (Nat × Nat)} (h : Canonical s) :
    Canonical (s.commitReport g r) :=
  .wr h
theorem Canonical.applyGroup {g : Machine.Group} (h : Canonical s) : Canonical (s.applyGroup g) :=
  .foldl (fun h => .wr h) h
theorem Canonical.commit {g : Machine.Group} {checks : (Nat → Nat) → List (Bool × Nat × Nat)}
    {after : State → State → State} (h : Canonical s) (hf1 : ∀ {a b : State}, Canonical a → Canonical b →
    Canonical (after a b)) : Canonical (s.commit g checks after) := by
  unfold State.commit
  split
  · exact .commitReport h
  · exact .commitReport (hf1 h (.applyGroup h))
theorem Canonical.nrmChanged {c : Nat} {old s : State} (h : Canonical old) (h2 : Canonical s) :
    Canonical (State.nrmChanged c old s) :=
  .foldl (fun h => .ite h (.setTripRun (.setFld (.wr h)))) h2
theorem Canonical.chkChanged {p : Nat} {old s : State} (h : Canonical old) (h2 : Canonical s) :
    Canonical (State.chkChanged p old s) :=
  .ite (.foldl (fun h => .holdChk h) h2) (.foldl (fun h => .setCheck (.clearStats h)) (.foldl (fun h => .holdChk h)
      h2))
theorem Canonical.commitNrm {c : Nat} (h : Canonical s) : Canonical (s.commitNrm c) :=
  .commit h (fun h h2 => .nrmChanged h h2)
theorem Canonical.commitChk {p : Nat} (h : Canonical s) : Canonical (s.commitChk p) :=
  .commit h (fun h h2 => .chkChanged h h2)
theorem Canonical.commitKv {p : Nat} (h : Canonical s) : Canonical (s.commitKv p) :=
  .commit h (fun _ h2 => h2)
theorem Canonical.commitTree {p : Nat} (h : Canonical s) : Canonical (s.commitTree p) :=
  .commit h (fun _ h2 => h2)
theorem Canonical.commitWin {c w : Nat} (h : Canonical s) : Canonical (s.commitWin c w) :=
  .commit h (fun _ h2 => h2)

/-! ## CoreCtl -/

theorem Canonical.startAt {c pc : Nat} (h : Canonical s) : Canonical (s.startAt c pc) :=
  .setSeq (.setPc (.setFld (.setFld h)))
theorem Canonical.seqRefused {c : Nat} (h : Canonical s) : Canonical (s.seqRefused c) :=
  .setFld h
theorem Canonical.seqStart {c : Nat} {resume : Bool} (h : Canonical s) : Canonical (s.seqStart c resume) :=
  .ite (.startAt h) (.seqRefused h)
theorem Canonical.seqHalt {c : Nat} (h : Canonical s) : Canonical (s.seqHalt c) :=
  .ite (.ite (.wake (.setSeq (.setFld (.dropTwait h)))) (.setSeq (.setFld (.dropTwait h)))) h
theorem Canonical.writeSeqCtl {c : Nat} {v : Word} (h : Canonical s) : Canonical (s.writeSeqCtl c v) :=
  .ite (.seqRefused h) (.ite (.seqHalt (.ite (.seqStart h) h)) (.ite (.seqStart h) h))
theorem Canonical.codeNext {c : Nat} (h : Canonical s) : Canonical (s.codeNext c) :=
  .setFld h
theorem Canonical.writeCodeData {c : Nat} {w : DWord} (h : Canonical s) : Canonical (s.writeCodeData c w) :=
  .ite (.codeNext (.setCode h)) (.seqRefused h)
theorem Canonical.readCodeData {c : Nat} (h : Canonical s) : Canonical (s.readCodeData c).1 :=
  .fst (.codeNext h)
theorem Canonical.scrubStart {c : Nat} (h : Canonical s) : Canonical (s.scrubStart c) :=
  .setFld (.zeroPantry h)
theorem Canonical.coreRefused {c : Nat} (h : Canonical s) : Canonical (s.coreRefused c) :=
  .setFld h
theorem Canonical.writeScrub {c : Nat} {v : Word} (h : Canonical s) : Canonical (s.writeScrub c v) :=
  .ite (.coreRefused h) (.ite h (.ite (.scrubStart h) (.coreRefused h)))
theorem Canonical.stopCore {c : Nat} (h : Canonical s) : Canonical (s.stopCore c) :=
  .claimsGone (.same (.seqHalt h))
theorem Canonical.closeWindows {c : Nat} (h : Canonical s) : Canonical (s.closeWindows c) :=
  .foldl (fun h => .winClose h) h

/-! ## Measure -/

theorem Canonical.putDigest {at' : Nat → Nat} {d : List Byte} (h : Canonical s) : Canonical (s.putDigest at' d) :=
  .foldl (fun h => .wr h) h
theorem Canonical.extend {i event who : Nat} {v : List Byte} (h : Canonical s) : Canonical (s.extend i event who v) :=
  .setFld (.same (.ite (.bump (.putDigest h)) (.bump (.bump (.putDigest h)))))

/-! ## Image -/

theorem Canonical.putPresets {m : Image} {b : List Byte} (h : Canonical s) : Canonical (s.putPresets m b) :=
  .foldl (fun h => .foldl (fun h => .ite (.wrShadow h) (.wr h)) h) h
theorem Canonical.commitGroup {k : Nat × Nat} (h : Canonical s) : Canonical (s.commitGroup k) :=
  .ite (.commitNrm h) (.ite (.commitChk h) (.ite (.commitKv h) (.commitTree h)))

/-! ## Requests -/

theorem CanonicalOut.execCommitNotice {id : Nat} (h : Canonical s) : CanonicalOut (execCommitNotice id s) := by
  refine .next (.settle h ?_)
  split
  · exact h
  · extract_lets t
    have ht : Canonical t := .takePn h
    split
    · split
      · exact ht
      · exact .serve (.noticeIn (.same ht))
    · exact h
theorem CanonicalOut.execDeadlineTimer (h : Canonical s) : CanonicalOut (execDeadlineTimer s) := by
  refine .next (.foldl (fun h => ?_) h)
  split
  · exact h
  · exact .putReq (.sendPn h)
theorem CanonicalOut.execDeadline {id : Nat} (h : Canonical s) : CanonicalOut (execDeadline id s) := by
  refine .next ?_
  split
  · exact h
  · split
    · exact .same (.takePn h)
    · exact h
theorem CanonicalOut.execCompletionWrite {q : QueueId} {ok : Bool} (h : Canonical s) :
    CanonicalOut (execCompletionWrite q ok s) := by
  refine .next (.settle h ?_)
  split
  · exact h
  · exact .ite h (.ite (.serve (.queueDrained (.writeCompl h))) (.serve (.bump (.setQueue h))))
theorem Canonical.dropRecords (h : Canonical s) : Canonical s.dropRecords :=
  .same h
theorem Canonical.descriptor {op q : Nat} {d : Option (List Byte)} {prompt : List Word}
    {record : Option (List Byte)} (h : Canonical s) : Canonical (s.descriptor op q d prompt record) := by
  refine .ite h ?_
  split
  · exact .queueDrained (.setQueue (.emit h))
  · exact .ite h (.ite (.queueDrained (.setQueue (.ite (.emit (.emit h)) (.emit h)))) (.ite (.ite (.emit (.emit h))
      (.emit h)) (.ite (.endReq (.same (.setQueue (.took (.ite (.emit (.emit h)) (.emit h)))))) (.ite (.endReq (.same
      (.setQueue (.took (.ite (.emit (.emit h)) (.emit h)))))) (.dropRecords (.serve (.same (.same (.setQueue (.took
      (.ite (.emit (.emit h)) (.emit h))))))))))))
theorem Canonical.recordIn {x : Nat} {b : Option (List Byte)} (h : Canonical s) : Canonical (s.recordIn x b) := by
  unfold State.recordIn
  dsimp only
  split
  · exact .serve (.setCtx h)
  · exact .serve (.endReq (.setCtx h))
  · exact .dropRecords (.serve (.putReq (.setCtx h)))
theorem Canonical.createIn {x : Nat} {b : Option (List Byte)} (h : Canonical s) : Canonical (s.createIn x b) := by
  unfold State.createIn
  split
  · exact h
  · exact .serve (.endReq h)
  · exact .serve (.createWith h)
theorem CanonicalOut.execResumeComplete {ctx : CtxId} {mem : List (Nat × List Byte)} (h : Canonical s) :
    CanonicalOut (execResumeComplete ctx mem s) := by
  refine .next (.settle h (.ite (.createIn h) (.ite h (.ite (.recordIn h) ?_))))
  extract_lets r
  have hr : Canonical r.1 := .endResume h
  split
  · exact .serve hr
  · exact .ite (.serve hr) (.serve (.endReq hr))

/-! ## Loader -/

theorem Canonical.setLoad {x err : Nat} (h : Canonical s) : Canonical (s.setLoad x err) :=
  .setFld (.setFld h)
theorem Canonical.blkRefused (h : Canonical s) : Canonical s.blkRefused :=
  .setFld h
theorem Canonical.loadFail {err : Nat} (h : Canonical s) : Canonical (s.loadFail err) :=
  .same (.setLoad h)
theorem Canonical.countCores {p : Nat} (h : Canonical s) : Canonical (s.countCores p) :=
  .setFld h
theorem Canonical.setBinding {c : Nat} {part : Option Nat} {swing : Bool} (h : Canonical s) :
    Canonical (s.setBinding c part swing) :=
  .setFld (.setFld (.setFld h))
theorem Canonical.setBind {c : Nat} {b : CoreBind} (h : Canonical s) : Canonical (s.setBind c b) :=
  .same h
theorem Canonical.borrowEnd {c : Nat} (h : Canonical s) : Canonical (s.borrowEnd c) :=
  .wr h
theorem Canonical.unbind {c : Nat} (h : Canonical s) : Canonical (s.unbind c) :=
  .same (.setBind (.setBinding (.borrowEnd (.closeWindows (.stopCore h)))))
theorem Canonical.bindCore {m : Image} {slot part c role : Nat} (h : Canonical s) :
    Canonical (s.bindCore m slot part c role) :=
  .setBind (.setBinding (.borrowEnd (.engReset (.winRebind h))))
theorem Canonical.scrubStale {c : Nat} (h : Canonical s) : Canonical (s.scrubStale c) :=
  .ite (.same (.scrubStart h)) h
theorem Canonical.writeCode {c : Nat} {k : Section} (h : Canonical s) : Canonical (s.writeCode c k) := by
  have h' : Canonical ((List.range (leAt k.body 10 2)).foldl (fun (s : State) i =>
      s.setCode c (leAt k.body 2 2 + i) (BitVec.ofNat 64 (leAt k.body (16 + 8 * i) 8))) s) := .foldl (fun h =>
          .setCode h) h
  exact .wr (.wr (.wr { h' with code := swf_sclear _ _ _ _ h'.code, codeEcc := swf_sclear _ _ _ _ h'.codeEcc }))
theorem Canonical.declare {c w base len late : Nat} (h : Canonical s) : Canonical (s.declare c w base len late) :=
  .setFld (.commitWin (.wrShadow (.wrShadow h)))
theorem Canonical.writeWindows {m : Image} {c role : Nat} (h : Canonical s) :
    Canonical (s.writeWindows m c role) := by
  refine .foldl (fun h => ?_) h
  split
  · exact .declare h
  · exact .ite h (.declare h)
theorem Canonical.writeData {ks : List Section} {c role : Nat} (h : Canonical s) :
    Canonical (s.writeData ks c role) :=
  .foldl (fun h => .store h) h
theorem Canonical.writeRole {m : Image} {ks : List Section} {c role : Nat} (h : Canonical s) :
    Canonical (s.writeRole m ks c role) := by
  refine .writeData (.writeWindows ?_)
  split
  · exact .setSeq (.seqHalt h)
  · exact .writeCode h
theorem Canonical.putPartDigest {p mod : Nat} {d : List Byte} (h : Canonical s) :
    Canonical (s.putPartDigest p mod d) :=
  .same h
theorem Canonical.beatSeen {p : Nat} (h : Canonical s) : Canonical (s.beatSeen p) :=
  .same h
theorem Canonical.partReady {p : Nat} (h : Canonical s) : Canonical (s.partReady p) :=
  .beatSeen (.setPartState (.setFld h))
theorem Canonical.partMismatch {p : Nat} (h : Canonical s) : Canonical (s.partMismatch p) :=
  .setFld h
theorem Canonical.judge {p : Nat} (h : Canonical s) : Canonical (s.judge p) := by
  unfold State.judge
  split
  · exact .ite h (.ite (.foldl (fun h => .emit h) (.partReady h)) (.ite (.foldl (fun h => .emit h) (.partMismatch h))
      h))
  · exact h
theorem CanonicalOut.execPartitionDigest {p : PartId} {mod : ModId} {digest : Option (List Byte)}
    (h : Canonical s) : CanonicalOut (execPartitionDigest p mod digest s) := by
  refine .next (.settle h ?_)
  split
  · exact .putPartDigest h
  · exact h
  · refine .ite ?_ (.ite h (.ite (.serve (.partReady h)) (.partMismatch h)))
    split
    · exact .ite (.serve (.judge (.putPartDigest h))) h
    · exact h
theorem Canonical.loadStart {slot : Nat} {start : Bool} (h : Canonical s) : Canonical (s.loadStart slot start) :=
  .ite (.loadFail h) (.emit (.emit (.wr (.same (.setLoad h)))))
theorem Canonical.loadParts {k : LoadRec} {x : Nat} (h : Canonical s) : Canonical (s.loadParts k x) :=
  .foldl (fun h => .setPartState h) h
theorem Canonical.loadUndo {err : Nat} (h : Canonical s) : Canonical (s.loadUndo err) := by
  unfold State.loadUndo
  split
  · exact h
  · exact .loadFail (.loadParts h)
theorem Canonical.loadCoreFault {c : Nat} (h : Canonical s) : Canonical (s.loadCoreFault c) :=
  .ite (.loadUndo h) h
theorem Canonical.loadFeeds (h : Canonical s) : Canonical s.loadFeeds := by
  unfold State.loadFeeds
  split
  · exact h
  · exact .ite (.same (.setLoad (.ite h (.loadParts h)))) h
theorem Canonical.loadWrite {k : LoadRec} (h : Canonical s) : Canonical (s.loadWrite k) :=
  .foldl (fun h => .scrubStale (.ite (.wake h) h)) (.setLoad h)
theorem Canonical.loadPoll (h : Canonical s) : Canonical s.loadPoll := by
  unfold State.loadPoll
  split
  · exact h
  · exact .ite (.ite h (.loadUndo h)) (.ite h (.ite (.ite h (.loadWrite h)) (.ite (.loadUndo h) h)))
theorem Canonical.loadGoOn {k : LoadRec} (h : Canonical s) : Canonical (s.loadGoOn k) :=
  .loadPoll (.askRegions (.setLoad (.loadParts (.same (.setFld h)))))
theorem CanonicalOut.execLoadFetchComplete {img bind : Option (List Byte)} (h : Canonical s) :
    CanonicalOut (execLoadFetchComplete img bind s) := by
  refine .next ?_
  split
  · exact h
  · refine .ite h ?_
    split
    · extract_lets i b m s1 s2
      have h2 : Canonical s2 := .putDigest (.putDigest h)
      split
      · exact .loadFail (.wr h2)
      · exact .loadGoOn h2
    · exact .loadFail h
theorem Canonical.applyImage {k : LoadRec} (h : Canonical s) : Canonical (s.applyImage k) :=
  .same (.foldl (fun h => .commitGroup h) (.putPresets (.foldl (fun h => .writeRole (.bindCore h)) (.same h))))
theorem Canonical.kvCountersNew {p : Nat} (h : Canonical s) : Canonical (s.kvCountersNew p) :=
  .foldl (fun h => .wr h) h
theorem Canonical.partDone {p : Nat} (h : Canonical s) : Canonical (s.partDone p) := by
  unfold State.partDone
  split
  · exact h
  · extract_lets r s1 s2 s3 s4
    have h3 : Canonical s3 := .wr (.countCores (.kvCountersNew (.setFld (.setFld (.setFld (.setFld h))))))
    have h4 : Canonical s4 := .setPartState h3
    refine .ite (.partReady h3) ?_
    split
    · exact h4
    · exact .ite (.judge (.putPartDigest h4)) (.emit h4)
theorem Canonical.loadDone {k : LoadRec} (h : Canonical s) : Canonical (s.loadDone k) :=
  .serve (.recap (.same (.setLoad (.extend (.extend (.setFld (.setFld (.setFld (.foldl (fun h => .partDone h) (.ite
      (.foldl (fun h => .ite (.seqStart (.seqHalt h)) h) h) h))))))))))
theorem CanonicalOut.execLoadWriteComplete (h : Canonical s) : CanonicalOut (execLoadWriteComplete s) := by
  refine .next ?_
  split
  · exact h
  · exact .ite h (.settle h (.loadDone (.applyImage h)))
theorem Canonical.setReady {p : Nat} {b : Bool} (h : Canonical s) : Canonical (s.setReady p b) :=
  .setFld h
theorem Canonical.clearSlot {k : Nat} (h : Canonical s) : Canonical (s.clearSlot k) :=
  .same (.foldl (fun h => .setReady (.countCores (.setPartState h))) (.foldl (fun h => .unbind h) h))
theorem Canonical.emptySlot {k : Nat} (h : Canonical s) : Canonical (s.emptySlot k) :=
  .extend (.wr (.same (.foldl (fun h => .wr (.wr (.wr h))) h)))
theorem Canonical.unloadStart {k : Nat} (h : Canonical s) : Canonical (s.unloadStart k) :=
  .ite (.loadFail h) (.ite (.loadFail h) (.same (.clearSlot (.setLoad h))))
theorem CanonicalOut.execUnloadComplete (h : Canonical s) : CanonicalOut (execUnloadComplete s) := by
  refine .next (.settle h ?_)
  split
  · exact h
  · exact .ite h (.serve (.recap (.same (.setLoad (.emptySlot h)))))
theorem Canonical.writeLoadCtl {v : Word} (h : Canonical s) : Canonical (s.writeLoadCtl v) :=
  .ite (.blkRefused h) (.ite (.loadStart (.setFld (.setFld h))) (.ite (.unloadStart (.setFld (.setFld h))) (.setFld
      (.setFld h))))

/-! ## Rebind -/

theorem Canonical.setRebind {x err core : Nat} (h : Canonical s) : Canonical (s.setRebind x err core) :=
  .setFld (.setFld (.setFld h))
theorem Canonical.rebindStart {k : RebindRec} (h : Canonical s) : Canonical (s.rebindStart k) := by
  unfold State.rebindStart
  split
  · exact .setRebind h
  · exact .ite (.foldl (fun h => .ite (.wake h) h) (.same (.setRebind h))) (.askRegions (.foldl (fun h => .ite (.wake
      h) h) (.same (.setRebind h))))
theorem Canonical.writeRebindCtl {v : Word} (h : Canonical s) : Canonical (s.writeRebindCtl v) :=
  .ite (.blkRefused h) (.ite (.rebindStart (.wr h)) (.wr h))
theorem Canonical.rebindTake {k : RebindRec} (h : Canonical s) : Canonical (s.rebindTake k) :=
  .foldl (fun h => .countCores h) (.same (.foldl (fun h => .zeroPantry (.unbind h)) h))
theorem Canonical.giveRoutes {now : Route → Bool} (h : Canonical s) : Canonical (s.giveRoutes now) :=
  .foldl (fun h => .ite (.same h) (.same h)) (.same h)
theorem Canonical.rebindGive {k : RebindRec} (h : Canonical s) : Canonical (s.rebindGive k) := by
  unfold State.rebindGive
  split
  · exact h
  · exact .countCores (.ite (.foldl (fun h => .seqStart h) (.ite (.same (.giveRoutes (.foldl (fun h => .writeRole
      (.bindCore h)) h))) (.giveRoutes (.foldl (fun h => .writeRole (.bindCore h)) h)))) (.ite (.same (.giveRoutes
      (.foldl (fun h => .writeRole (.bindCore h)) h))) (.giveRoutes (.foldl (fun h => .writeRole (.bindCore h)) h))))
theorem Canonical.rebindPoll (h : Canonical s) : Canonical s.rebindPoll := by
  unfold State.rebindPoll
  split
  · exact h
  · exact .ite (.serve (.same (.setRebind h))) h
theorem CanonicalOut.execRebindProceed (h : Canonical s) : CanonicalOut (execRebindProceed s) := by
  refine .next ?_
  split
  · exact h
  · exact .ite h (.settle h (.serve (.recap (.same (.setRebind (.ite (.rebindTake h) (.rebindGive (.rebindTake
      h))))))))

/-! ## Views -/

theorem Canonical.takeMirror (h : Canonical s) : Canonical s.takeMirror :=
  .same h

/-! ## Faults -/

theorem Canonical.moduleEvent (h : Canonical s) : Canonical s.moduleEvent :=
  .emit h
theorem Canonical.setAlert {off : Nat} {f : Fld} (h : Canonical s) : Canonical (s.setAlert off f) :=
  .ite h (.moduleEvent (.setFld h))
theorem Canonical.abortPass {q : Pass} (h : Canonical s) : Canonical (s.abortPass q) := by
  unfold State.abortPass
  dsimp only
  split
  · exact .dropPass h
  · exact .ite (.putReq (.dropPass h)) (.dropPass h)
theorem Canonical.abortPasses {p : Nat} (h : Canonical s) : Canonical (s.abortPasses p) :=
  .foldl (fun h => .abortPass h) h
theorem Canonical.deliverKv {m : PnMsg} (h : Canonical s) : Canonical (s.deliverKv m) := by
  unfold State.deliverKv
  split
  · exact .kvMessage h (fun h => .commitLayer h)
  · exact .kvMessage h (fun h => .rollbackLayer h)
  · exact .kvAcked h
  · exact h
theorem Canonical.flushKv {p : Nat} (h : Canonical s) : Canonical (s.flushKv p) :=
  .foldl (fun h => .deliverKv h) (.foldl (fun h => .deliverKv h) h)
theorem Canonical.haltPart {p : Nat} (h : Canonical s) : Canonical (s.haltPart p) :=
  .foldl (fun h => .closeWindows (.stopCore h)) h
theorem Canonical.degrade {p : Nat} (h : Canonical s) : Canonical (s.degrade p) :=
  .ite (.same h) (.setPartState h)
theorem Canonical.stopPart {p : Nat} (h : Canonical s) : Canonical (s.stopPart p) :=
  .haltPart (.abortPasses (.flushKv (.degrade h)))
theorem Canonical.sendFar {x : Nat} {body : PnBody} (h : Canonical s) : Canonical (s.sendFar x body) := by
  unfold State.sendFar
  dsimp only
  split
  · exact h
  · exact .foldl (fun h => .sendAway h) h
theorem Canonical.replayCtx {x : Nat} (h : Canonical s) : Canonical (s.replayCtx x) := by
  refine .rollbackAll (.sendFar (.sendFar ?_))
  split
  · refine .sendFar ?_
    split
    · exact .foldl (fun h => .foldl (fun h => .ite (.rollbackLayer (.commitLayer h)) (.commitLayer h)) h) h
    · exact .foldl (fun h => .foldl (fun h => .rollbackLayer h) h) h
    · exact h
  · split
    · exact .foldl (fun h => .foldl (fun h => .ite (.rollbackLayer (.commitLayer h)) (.commitLayer h)) h) h
    · exact .foldl (fun h => .foldl (fun h => .rollbackLayer h) h) h
    · exact h
theorem Canonical.replayPart {p : Nat} (h : Canonical s) : Canonical (s.replayPart p) :=
  .foldl (fun h => .replayCtx h) h
theorem Canonical.startPart {p : Nat} (h : Canonical s) : Canonical (s.startPart p) := by
  unfold State.startPart
  split
  · exact h
  · exact .foldl (fun h => .ite (.seqStart h) h) h
theorem Canonical.resumePart {p : Nat} (h : Canonical s) : Canonical (s.resumePart p) :=
  .ite (.same (.replayPart h)) (.setPartState (.startPart (.replayPart h)))
theorem Canonical.faultParkAll {xs : List Nat} (h : Canonical s) : Canonical (s.faultParkAll xs) :=
  .foldl (fun h => .endFaulted (.faultPark h)) h
theorem Canonical.lose {p : Nat} (h : Canonical s) : Canonical (s.lose p) :=
  .faultParkAll (.same (.degrade h))
theorem Canonical.loseLogged {code : Nat} {u : FaultUnit} {p detail : Nat} (h : Canonical s) :
    Canonical (s.loseLogged code u p detail) :=
  .logFault (.lose h)
theorem Canonical.restart {p code : Nat} {u : FaultUnit} {detail : Nat} (h : Canonical s) :
    Canonical (s.restart p code u detail) :=
  .ite (.logFault h) (.ite (.loseLogged (.stopPart h)) (.logFault (.same (.resumePart (.stopPart h)))))
theorem Canonical.programFault {c cause : Nat} (h : Canonical s) : Canonical (s.programFault c cause) :=
  .ite (.restart (.loadCoreFault h)) (.logFault (.loadCoreFault h))
theorem Canonical.setReplace {x : Nat} (h : Canonical s) : Canonical (s.setReplace x) :=
  .setFld h
theorem Canonical.moveIn {r : Replace} (h : Canonical s) : Canonical (s.moveIn r) :=
  .recap (.countCores (.countCores (.same (.setBind (.setBinding (.unbind (.setFld (.setFld (.setFld (.scrubStart
      (.engReset (.winRebind (.stopCore (.ite (.wake h) h))))))))))))))
theorem Canonical.replaceNext (h : Canonical s) : Canonical s.replaceNext := by
  unfold State.replaceNext
  split
  · exact .moveIn (.setReplace (.setFld (.setFld (.setFld (.same h)))))
  · exact h
theorem Canonical.replaceFail (h : Canonical s) : Canonical s.replaceFail := by
  unfold State.replaceFail
  split
  · exact h
  · exact .replaceNext (.loseLogged (.logFault (.bump (.setReplace (.same h)))))
theorem Canonical.placedDead {c code : Nat} (h : Canonical s) : Canonical (s.placedDead c code) := by
  unfold State.placedDead
  dsimp only
  split
  · exact .replaceNext (.same (.stopPart (.logFault (.degrade h))))
  · exact .loseLogged (.stopPart (.logFault (.degrade h)))
  · exact .loseLogged (.stopPart (.logFault (.degrade h)))
theorem Canonical.swingsDead {gone : Nat → Bool} (h : Canonical s) : Canonical (s.swingsDead gone) :=
  .ite (.replaceFail (.foldl (fun h => .loseLogged h) (.same h))) (.foldl (fun h => .loseLogged h) (.same h))
theorem Canonical.regionLost {r : Nat} (h : Canonical s) : Canonical (s.regionLost r) := by
  unfold State.regionLost
  exact .swingsDead (.foldl (fun h => .loseLogged h) h)
theorem Canonical.coreDead {c code : Nat} (h : Canonical s) : Canonical (s.coreDead c code) :=
  .ite h (.serve (.ite (.placedDead (.swingsDead (.loadCoreFault (.same (.mark h))))) (.swingsDead (.loadCoreFault
      (.same (.mark h))))))
theorem Canonical.raiseCode {c : Nat} (h : Canonical s) : Canonical (s.raiseCode c) :=
  .foldl (fun h => .ite h (.setCode h)) h
theorem Canonical.rerouteAll (h : Canonical s) : Canonical s.rerouteAll :=
  .rewrite h
theorem CanonicalOut.execReplaceMovingDone {img : Option (List Byte)} (h : Canonical s) :
    CanonicalOut (execReplaceMovingDone img s) := by
  refine .next ?_
  split
  · exact h
  · refine .ite h (.settle h ?_)
    split
    · exact .moduleEvent (.setReplace (.rerouteAll (.raiseCode (.writeRole h))))
    · exact .serve (.replaceFail h)
theorem swf_foldl_swrite {α β : Type} [DecidableEq α] {d : Nat → α} {k : β → Nat} {v : β → α} (l : List β)
    (m : List (Nat × α)) (h : swf d m = true) : swf d (l.foldl (fun m e => swrite d m (k e) (v e)) m) = true := by
  induction l generalizing m with
  | nil => exact h
  | cons e l ih => exact ih _ (swf_swrite _ _ _ _ h)
theorem Canonical.copyRange {src dst off n : Nat} (h : Canonical s) : Canonical (s.copyRange src dst off n) := by
  have h' : Canonical ((s.wantLines src off n true).wantLines dst off n false) := .wantLines (.wantLines h)
  exact { h' with
    pantry := swf_foldl_swrite _ _ (swf_sclear _ _ _ _ h'.pantry)
    pantryEcc := swf_foldl_swrite _ _ (swf_sclear _ _ _ _ h'.pantryEcc) }
theorem Canonical.restoreReplica {l : LayerKv} {r : Replace} {src : Nat} (h : Canonical s) :
    Canonical (s.restoreReplica l r src) := by
  refine .same (.foldl (fun h => .foldl (fun h => .store (.look h)) (.lookMap (.setHold h))) ?_)
  split
  · exact .ite (.copyRange (.copyRange (.copyRange h))) (.copyRange (.copyRange h))
  · exact .copyRange (.copyRange h)
theorem Canonical.fillLayer {x : Nat} {q : PartRec} {l : LayerKv} {mem : List (Nat × List Byte)} (h : Canonical s) :
    Canonical (s.fillLayer x q l mem) := by
  refine .setCtx (.foldl (fun h => .ite ?_ (.fillEntry h)) (.installPlan (.setCtx (.lookMap (.lookChain h)))))
  split
  · exact h
  · exact .storeSet (.markSlot h)
theorem CanonicalOpt.recompute {x n : Nat} {l : LayerKv} (h : Canonical s) : CanonicalOpt (s.recompute x n l) := by
  unfold State.recompute
  dsimp only
  split
  · exact .some (.storeSet (.drew (.setMapEntry h)))
  · split
    · exact .some (.storeSet (.drew (.setMapEntry (.markSlot h))))
    · exact .none
theorem CanonicalOpt.recomputeTo {x : Nat} {l : LayerKv} {ns : List Nat} (h : Canonical s) :
    CanonicalOpt (State.recomputeTo x l ns s) := by
  induction ns generalizing s with
  | nil => exact .some h
  | cons n ns ih =>
    unfold State.recomputeTo
    split
    · exact .none
    · rename_i t e
      exact ih (CanonicalOpt.recompute h t e)
theorem CanonicalOpt.restoreLayer {x : Nat} {q : PartRec} {mem : List (Nat × List Byte)} {l : LayerKv}
    (h : Canonical s) : CanonicalOpt (s.restoreLayer x q mem l) :=
  .ite (.some (.foldl (fun h => .setHold h) h))
    (.ite .none (.map (.recomputeTo (.fillLayer h)) fun h => .foldl (fun h => .setHold h) h))
theorem CanonicalOpt.restoreLayers {x : Nat} {q : PartRec} {mem : List (Nat × List Byte)} {ls : List LayerKv}
    (h : Canonical s) : CanonicalOpt (State.restoreLayers x q mem ls s) := by
  induction ls generalizing s with
  | nil => exact .some h
  | cons l ls ih =>
    unfold State.restoreLayers
    split
    · exact .none
    · rename_i t e
      exact ih (CanonicalOpt.restoreLayer h t e)
theorem Canonical.restoreCtx {r : Replace} {mem : List (Nat × List Byte)} {x : Nat} (h : Canonical s) :
    Canonical (s.restoreCtx r mem x).1 := by
  unfold State.restoreCtx
  extract_lets k lost
  have hl : ∀ {t}, Canonical t → Canonical (lost t).1 := fun h => .endFaulted (.faultPark h)
  split
  · exact hl h
  · refine .fstIte (hl (.logFault h)) ?_
    extract_lets ls
    split
    · exact hl h
    · rename_i t e
      have ht : Canonical t := CanonicalOpt.restoreLayers h t e
      refine .fst ?_
      split
      · exact .ite (.setCtx (.store ht)) ht
      · exact ht
theorem Canonical.restoring (h : Canonical s) : Canonical s.restoring := by
  unfold State.restoring
  split
  · exact h
  · exact .foldl (fun h => .emit h) (.setReplace h)
theorem Canonical.restoreCopies {r : Replace} (h : Canonical s) : Canonical (s.restoreCopies r) := by
  unfold State.restoreCopies
  dsimp only
  split
  · refine .ite (.copyRange (.foldl (fun h => ?_) h)) (.foldl (fun h => ?_) h)
    · split
      · exact .restoreReplica h
      · exact .same h
    · split
      · exact .restoreReplica h
      · exact .same h
  · refine .foldl (fun h => ?_) h
    split
    · exact .restoreReplica h
    · exact .same h
theorem Canonical.replaceDone {r : Replace} (h : Canonical s) : Canonical (s.replaceDone r) :=
  .replaceNext (.logFault (.ite (.bump (.setReplace (.same h))) (.resumePart (.bump (.setReplace (.same h))))))
theorem CanonicalOut.execRestoreComplete {mem : List (Nat × List Byte)} (h : Canonical s) :
    CanonicalOut (execRestoreComplete mem s) := by
  refine .next ?_
  split
  · exact h
  · exact .ite h (.settle h (.ite (.serve (.replaceFail (.foldlFst (fun h => .fst (.restoreCtx h)) (.fst
      (.restoreCopies h))))) (.serve (.replaceDone (.foldlFst (fun h => .fst (.restoreCtx h)) (.fst (.restoreCopies
      h)))))))
theorem Canonical.dumpRefused (h : Canonical s) : Canonical s.dumpRefused :=
  .setFld h
theorem Canonical.writeReplaceCtl {v : Word} (h : Canonical s) : Canonical (s.writeReplaceCtl v) :=
  .ite (.dumpRefused h) (.ite (.restoring h) h)
theorem Canonical.writeFailCtl {v : Word} (h : Canonical s) : Canonical (s.writeFailCtl v) :=
  .ite (.dumpRefused h) (.serve (.foldl (fun h => .endFaulted (.faultPark h)) h))
theorem Canonical.replaceDrop (h : Canonical s) : Canonical s.replaceDrop :=
  .foldl (fun h => .logFault h) (.same (.ite (.setReplace h) h))
theorem Canonical.loseAll (h : Canonical s) : Canonical s.loseAll :=
  .foldl (fun h => .ite (.emptySlot (.clearSlot h)) h) (.replaceDrop (.faultParkAll h))
theorem CanonicalOut.execHeartbeat {id : Nat} (h : Canonical s) : CanonicalOut (execHeartbeat id s) := by
  refine .next ?_
  split
  · exact h
  · split
    · exact .same (.takePn h)
    · exact h

/-! ## Dump -/

theorem swf_foldl_sclear {α β : Type} [DecidableEq α] {d : Nat → α} {lo hi : β → Nat} (l : List β)
    (m : List (Nat × α)) (h : swf d m = true) : swf d (l.foldl (fun m e => sclear m (lo e) (hi e)) m) = true := by
  induction l generalizing m with
  | nil => exact h
  | cons e l ih => exact ih _ (swf_sclear _ _ _ _ h)
/-- A dump written into the ranges of several cores. -/
theorem wf_foldl_put {bs : List Byte} {a b : Nat → Nat} (cs : List Nat) (m : List Host.Cell)
    (h : Memory.wf m = true) :
    Memory.wf (cs.foldl (fun (m : List Host.Cell) (c : Nat) => bs.zipIdx.foldl (fun m e =>
      swrite (fun _ => 0) m (a c + e.2) e.1) (sclear m (a c) (b c))) m) = true := by
  induction cs generalizing m with
  | nil => exact h
  | cons c cs ih => exact ih _ (swf_foldl_swrite _ _ (swf_sclear _ _ _ _ h))
theorem Canonical.putRetained {bs : List Byte} (h : Canonical s) : Canonical (s.putRetained bs) := by
  unfold State.putRetained
  extract_lets put wipe cs
  clear_value cs
  have hp : Memory.wf (cs.foldl put s.pantry) = true := wf_foldl_put _ _ h.pantry
  have he : swf (fun _ => EccMark.clean) (cs.foldl wipe s.pantryEcc) = true :=
    swf_foldl_sclear (lo := fun c => pantryKey c retainBase / 8) (hi := fun c => pantryKey (c + 1) 0 / 8) _ _
        h.pantryEcc
  clear_value wipe put
  exact { h with pantry := hp, pantryEcc := he }
theorem Canonical.dumpStart {d : DumpRec} (h : Canonical s) : Canonical (s.dumpStart d) :=
  .ite (.same (.setFld (.setFld (.same h)))) (.setFld (.setFld (.setFld (.same h))))
theorem Canonical.fatalFault {code : Nat} (h : Canonical s) : Canonical (s.fatalFault code) :=
  .ite (.logFault h) (.dumpStart (.ite (.faultParkAll (.foldl (fun h => .stopCore h) (.foldl (fun h => .abortPasses
      (.flushKv h)) (.replaceDrop (.logFault (.setAlert h)))))) (.foldl (fun h => .stopCore h) (.foldl (fun h =>
      .abortPasses (.flushKv h)) (.replaceDrop (.logFault (.setAlert h)))))))
theorem Canonical.dumpEnd {ok : Bool} (h : Canonical s) : Canonical (s.dumpEnd ok) := by
  unfold State.dumpEnd
  split
  · exact h
  · exact .ite (.moduleEvent (.logFault (.setFld (.setFld (.setFld (.drew (.same (.ite (.emit (.landed h))
      (.putRetained (.landed h)))))))))) (.ite (.setFld (.same (.landed h))) (.logFault (.setFld (.same (.landed
      h)))))
theorem Canonical.dumpCopy (h : Canonical s) : Canonical s.dumpCopy := by
  refine .ite h ?_
  split
  · exact h
  · exact .ite (.emit h) h
theorem Canonical.retainClr (h : Canonical s) : Canonical s.retainClr :=
  .foldl (fun h => .ite (.zeroPantry h) h) (.setFld h)
theorem Canonical.writeDumpCtl {v : Word} (h : Canonical s) : Canonical (s.writeDumpCtl v) :=
  .ite (.dumpRefused h) (.ite (.serve (.fatalFault (.ite (.retainClr (.ite (.dumpCopy h) h)) (.ite (.dumpCopy h)
      h)))) (.ite (.retainClr (.ite (.dumpCopy h) h)) (.ite (.dumpCopy h) h)))

/-! ## Install -/

theorem Canonical.setInst {x err : Nat} (h : Canonical s) : Canonical (s.setInst x err) :=
  .setFld (.setFld h)
theorem Canonical.instSync (h : Canonical s) : Canonical s.instSync := by
  unfold State.instSync
  split
  · exact .hvSync h
  · exact .hvSync (.setFld (.setFld h))
theorem Canonical.hostPut {a : Nat} {bs : List Byte} (h : Canonical s) : Canonical (s.hostPut a bs) :=
  .ite h (.emit h)
theorem Canonical.putResult {k : Install} {n status : Nat} (h : Canonical s) : Canonical (s.putResult k n status) :=
  .same (.ite h (.emit h))
theorem Canonical.entryFail {n status : Nat} (h : Canonical s) : Canonical (s.entryFail n status) := by
  unfold State.entryFail
  split
  · exact h
  · refine .ite h ?_
    extract_lets mine s1 s2
    have h2 : Canonical s2 := .putResult (.foldl (fun h => .ite h (.setBinState h)) h)
    split
    · exact h2
    · exact .same h2
theorem Canonical.tighten {k : Install} (h : Canonical s) : Canonical (s.tighten k) :=
  .ite (.commitChk (.wrShadow (.recordThresholds h))) h
theorem Canonical.instEnd (h : Canonical s) : Canonical s.instEnd := by
  unfold State.instEnd
  split
  · exact h
  · exact .ite (.runRefreshes (.hvSync (.setFld (.setInst (.same (.tighten h)))))) (.instSync h)
theorem Canonical.instStop {x err : Nat} (h : Canonical s) : Canonical (s.instStop x err) :=
  .ite h (.runRefreshes (.hvSync (.setFld (.setInst (.same (.foldl (fun h => .entryFail h) h))))))
theorem Canonical.instLost (h : Canonical s) : Canonical s.instLost :=
  .setInst (.instStop h)
theorem Canonical.instNext {die : Nat} (h : Canonical s) : Canonical (s.instNext die) := by
  unfold State.instNext
  split
  · exact h
  · refine .ite h ?_
    split
    · exact h
    · exact .ite (.wearUp (.setBinState (.same h))) (.same h)
theorem Canonical.instKick (h : Canonical s) : Canonical s.instKick :=
  .ite (.runRefreshes h) (.instSync (.foldl (fun h => .instNext h) (.runRefreshes h)))
theorem Canonical.celRefused (h : Canonical s) : Canonical s.celRefused :=
  .setFld h
theorem Canonical.instStart (h : Canonical s) : Canonical s.instStart :=
  .emit (.same (.setFld (.setInst (.foldl (fun h => .wr h) h))))
theorem Canonical.writeInstCtl {v : Word} (h : Canonical s) : Canonical (s.writeInstCtl v) :=
  .ite (.celRefused h) (.ite (.instStop (.ite (.ite (.celRefused h) (.instStart h)) h)) (.ite (.ite (.celRefused h)
      (.instStart h)) h))
theorem CanonicalOut.execInstallCheckDone {mem : List (Nat × List Byte)} (h : Canonical s) :
    CanonicalOut (execInstallCheckDone mem s) := by
  refine .next (.ite h ?_)
  split
  · exact .setInst h
  · exact .instKick (.same (.extend (.foldl (fun h => .hostPut h) h)))
theorem Canonical.programBlock {fmt g b col : Nat} {x : Block32} (h : Canonical s) :
    Canonical (s.programBlock fmt g b col x) := by
  unfold State.programBlock
  dsimp only
  split
  · exact .foldl (fun h => .setCell h) h
  · exact .same (.foldl (fun h => .setCell h) h)
theorem Canonical.chunkFailed {n chunk : Nat} (h : Canonical s) : Canonical (s.chunkFailed n chunk) := by
  unfold State.chunkFailed
  split
  · exact h
  · exact .ite h (.ite (.bump (.same h)) (.entryFail h))
theorem CanonicalOut.execFirstPassDone {c : CoreId} {b : BinId} {erased : Fin 33} {mem : List (Nat × List Byte)}
    (h : Canonical s) : CanonicalOut (execFirstPassDone c b erased mem s) := by
  refine .next ?_
  split
  · exact h
  · split
    · exact h
    · refine .ite (.instEnd (.instKick (.foldl (fun h => .chunkFailed h) h))) ?_
      have h1 : Canonical ((List.range erased.val).foldl (fun (s : State) _ => s.wearUp (c.val * 480 + b.val))
          s.drew) :=
        .foldl (fun h => .wearUp h) (.drew h)
      split
      · exact .instEnd (.instKick (.entryFail h1))
      · extract_lets s0 s1 s2 clips s3
        have h2 : Canonical s2 := .foldl (fun {t q} h => by
          split
          · exact .programBlock h
          · exact h) h1
        have h3 : Canonical s3 := .bump (.bump h2)
        split
        · exact h3
        · exact .instKick (.ite (.hostPut (.same h3)) (.same h3))
theorem CanonicalOut.execChunkCrcFail {n : Nat} {q : ChunkRead} (h : Canonical s) :
    CanonicalOut (execChunkCrcFail n q s) := by
  refine .next ?_
  split
  · exact h
  · exact .ite h (.instEnd (.instKick (.chunkFailed h)))
theorem CanonicalOut.execSettleExpire {c : CoreId} {b : BinId} (h : Canonical s) :
    CanonicalOut (execSettleExpire c b s) := by
  refine .next ?_
  split
  · exact h
  · exact .ite (.instKick (.same h)) h
theorem Canonical.mapBin {k : Install} {e : List Byte} {g : Nat} (h : Canonical s) : Canonical (s.mapBin k e g) :=
  .setBinRec h
theorem Canonical.labelBin {k : Install} {e : List Byte} {g d : Nat} (h : Canonical s) :
    Canonical (s.labelBin k e g d) :=
  .clearRefFaults (.rewriteLabels (.measureSums (.measureSpans (.foldl (fun h => .foldl (fun h => .same h) h)
      (.mapBin (.foldl (fun h => .same h) h))))))
theorem Canonical.touchedUp {g cells : Nat} (h : Canonical s) : Canonical (s.touchedUp g cells) := by
  unfold State.touchedUp
  split
  · exact h
  · split
    · exact h
    · exact .same (.ite (.offlineBin (.mapBin (.setBinRec (.ite (.bump (.ite (.bump (.bump (.same (.drew (.drew
        (.drew h)))))) (.bump (.same (.drew (.drew (.drew h))))))) (.ite (.bump (.bump (.same (.drew (.drew (.drew
        h)))))) (.bump (.same (.drew (.drew (.drew h)))))))))) (.setBinRec (.ite (.bump (.ite (.bump (.bump (.same
        (.drew (.drew (.drew h)))))) (.bump (.same (.drew (.drew (.drew h))))))) (.ite (.bump (.bump (.same (.drew
        (.drew (.drew h)))))) (.bump (.same (.drew (.drew (.drew h)))))))))
theorem Canonical.envelopeOf {k : Install} {e : List Byte} {g d : Nat} (h : Canonical s) :
    Canonical (s.envelopeOf k e g d) :=
  .foldl (fun h => .same h) h
theorem Canonical.finishEntry {n : Nat} (h : Canonical s) : Canonical (s.finishEntry n) := by
  unfold State.finishEntry
  split
  · exact h
  · exact .ite h (.putResult (.ite (.foldl (fun h => .ite (.setBinState (.ite (.same (.envelopeOf (.same (.setCheck
      (.clearStats (.labelBin h)))))) (.same (.setCheck (.clearStats (.labelBin h)))))) (.ite (.same (.envelopeOf
      (.same (.setCheck (.clearStats (.labelBin h)))))) (.same (.setCheck (.clearStats (.labelBin h)))))) h) (.store
      (.foldl (fun h => .ite (.setBinState (.ite (.same (.envelopeOf (.same (.setCheck (.clearStats (.labelBin
      h)))))) (.same (.setCheck (.clearStats (.labelBin h)))))) (.ite (.same (.envelopeOf (.same (.setCheck
      (.clearStats (.labelBin h)))))) (.same (.setCheck (.clearStats (.labelBin h)))))) h))))
theorem Canonical.finishDue (h : Canonical s) : Canonical s.finishDue := by
  unfold State.finishDue
  split
  · exact h
  · exact .instEnd (.foldl (fun h => .finishEntry h) h)

/-! ## Clock -/

theorem Canonical.timePasses (h : Canonical s) : Canonical s.timePasses :=
  .same h
theorem Canonical.tick (h : Canonical s) : Canonical s.tick :=
  .ite (.settle (.timePasses h) (.finishDue (.timePasses h))) (.timePasses h)

/-! ## Power -/

theorem Canonical.portReset {n : Nat} (h : Canonical s) : Canonical (s.portReset n) :=
  { h with regs := swf_sclear _ _ _ _ h.regs }
theorem Canonical.lkFollow (h : Canonical s) : Canonical s.lkFollow :=
  .foldl (fun h => .ite h (.ite (.foldl (fun h => .portReset h) (.setDomain h)) (.foldl (fun h => .portDown h)
      (.setDomain h)))) h
theorem Canonical.pwrRefused (h : Canonical s) : Canonical s.pwrRefused :=
  .setFld h
theorem Canonical.stgRefused {r : Nat} (h : Canonical s) : Canonical (s.stgRefused r) :=
  .setFld h
theorem Canonical.powerPoll (h : Canonical s) : Canonical s.powerPoll :=
  .rebindPoll (.loadPoll h)
theorem Canonical.feedsLost (h : Canonical s) : Canonical s.feedsLost := by
  refine .serve (.logFault (.loseAll (.hvSync (.instLost ?_))))
  split
  · exact .loadFeeds (.lkFollow (.setDomain (.foldl (fun h => .regionOff h) (.curtainStop (.same (.foldl (fun h =>
      .logThrottle h) (.setAlert (.setFld (.setFld h)))))))))
  · exact .same (.setRebind (.loadFeeds (.lkFollow (.setDomain (.foldl (fun h => .regionOff h) (.curtainStop (.same
      (.foldl (fun h => .logThrottle h) (.setAlert (.setFld (.setFld h)))))))))))
theorem Canonical.feedLost {b : Bool} (h : Canonical s) : Canonical (s.feedLost b) :=
  .ite h (.ite (.recap (.logFault (.setAlert (.setFld h)))) (.feedsLost (.setFld h)))
theorem Canonical.upFailed {r : Nat} (h : Canonical s) : Canonical (s.upFailed r) :=
  .powerPoll (.regionLost (.bringUpFail h))
theorem Canonical.forcedDown {r : Nat} (h : Canonical s) : Canonical (s.forcedDown r) :=
  .ite (.upFailed h) (.ite (.powerPoll (.regionLost (.regionOff h))) h)
theorem Canonical.regionOut {r : Nat} (h : Canonical s) : Canonical (s.regionOut r) :=
  .setFld (.forcedDown (.setFld h))
theorem Canonical.writeShortClr {r : Nat} {v : Word} (h : Canonical s) : Canonical (s.writeShortClr r v) :=
  .ite (.stgRefused h) (.ite h (.same (.setFld h)))
theorem Canonical.writeCurtainCtl {v : Word} (h : Canonical s) : Canonical (s.writeCurtainCtl v) :=
  .ite (.pwrRefused h) (.ite (.same h) (.askRegions (.same h)))
theorem Canonical.writeStgWake {r : Nat} {v : Word} (h : Canonical s) : Canonical (s.writeStgWake r v) :=
  .ite (.stgRefused h) (.foldl (fun h => .ite (.wake h) h) h)
theorem Canonical.writeLkCtl {v : Word} (h : Canonical s) : Canonical (s.writeLkCtl v) :=
  .ite (.pwrRefused h) (.lkFollow (.setFld h))

/-! ## Cooling -/

theorem Canonical.convGo {r : Nat} (h : Canonical s) : Canonical (s.convGo r) :=
  .ite (.setFld h) (.setFld (.ite (.same (.foldl (fun h => .wr h) h)) (.setFld (.same (.foldl (fun h => .wr h) h)))))
theorem Canonical.setBit {off : Nat} {f : Fld} {k : Nat} {on : Bool} (h : Canonical s) :
    Canonical (s.setBit off f k on) :=
  .setFld h
theorem Canonical.judgePair {r k : Nat} (h : Canonical s) : Canonical (s.judgePair r k) :=
  .ite (.setBit (.ite (.setBit (.ite (.setBit (.ite (.setFld (.same h)) (.same h))) (.ite (.setBit (.ite (.setFld
      (.same h)) (.same h))) (.ite (.setFld (.same h)) (.same h))))) (.ite (.setBit (.ite (.setFld (.same h)) (.same
      h))) (.ite (.setBit (.ite (.setFld (.same h)) (.same h))) (.ite (.setFld (.same h)) (.same h)))))) (.ite
      (.setBit (.ite (.setBit (.ite (.setBit (.ite (.setFld (.same h)) (.same h))) (.ite (.setBit (.ite (.setFld
      (.same h)) (.same h))) (.ite (.setFld (.same h)) (.same h))))) (.ite (.setBit (.ite (.setFld (.same h)) (.same
      h))) (.ite (.setBit (.ite (.setFld (.same h)) (.same h))) (.ite (.setFld (.same h)) (.same h)))))) (.ite
      (.setBit (.ite (.setBit (.ite (.setFld (.same h)) (.same h))) (.ite (.setBit (.ite (.setFld (.same h)) (.same
      h))) (.ite (.setFld (.same h)) (.same h))))) (.ite (.setBit (.ite (.setFld (.same h)) (.same h))) (.ite
      (.setBit (.ite (.setFld (.same h)) (.same h))) (.ite (.setFld (.same h)) (.same h))))))
theorem Canonical.trimDie {die : Nat} {t : Int} (h : Canonical s) : Canonical (s.trimDie die t) :=
  .ite (.ite (.same h) (.logDrift (.same (.same h)))) (.same (.same h))
theorem Canonical.takeRegion {r : Nat} (h : Canonical s) : Canonical (s.takeRegion r) :=
  .same (.same h)
theorem Canonical.putTel {x : Sample} (h : Canonical s) : Canonical (s.putTel x) :=
  .foldl (fun h => .setFld (.setFld h)) (.foldl (fun h => .setFld (.setFld h)) (.foldl (fun h => .setFld (.setFld h))
      h))
theorem Canonical.updateRth {r : Nat} (h : Canonical s) : Canonical (s.updateRth r) :=
  .ite h (.setFld (.same h))
theorem Canonical.coolRegion {r : Nat} (h : Canonical s) : Canonical (s.coolRegion r) :=
  .same (.ite (.setFld (.setFld (.setFld h))) (.setFld (.setFld h)))
theorem Canonical.setFlow {x : Nat} (h : Canonical s) : Canonical (s.setFlow x) :=
  .setFld h
theorem Canonical.flowPark {x why : Nat} (h : Canonical s) : Canonical (s.flowPark x why) :=
  .ite (.foldl (fun h => .putReq h) h) (.same (.foldl (fun h => .putReq h) h))
theorem Canonical.flowPart {p : Nat} (h : Canonical s) : Canonical (s.flowPart p) :=
  .foldl (fun h => .flowPark h) (.abortPasses h)
theorem Canonical.flowTell {p : Nat} (h : Canonical s) : Canonical (s.flowTell p) := by
  unfold State.flowTell
  split
  · exact h
  · exact .ite h (.sendAway h)
theorem Canonical.flowMember {p : Nat} (h : Canonical s) : Canonical (s.flowMember p) :=
  .ite h (.flowPart (.foldl (fun h => .setSkip h) (.same h)))
theorem Canonical.flowMaybeOver {p : Nat} (h : Canonical s) : Canonical (s.flowMaybeOver p) :=
  .ite h (.ite (.serve (.foldl (fun h => .ite (.arbitrate (.setSkip h)) h) (.same (.drew h)))) (.drew h))
theorem Canonical.curtainDrop (h : Canonical s) : Canonical s.curtainDrop :=
  .curtainStop (.foldl (fun h => .upFail h) h)
theorem Canonical.flowStop (h : Canonical s) : Canonical s.flowStop :=
  .ite h (.serve (.logFault (.hvSync (.instStop (.foldl (fun h => .flowTell (.flowPart h)) (.foldl (fun h => .setSkip
      h) (.powerPoll (.curtainDrop (.setAlert (.setFlow h))))))))))
theorem Canonical.flowDarkNext (h : Canonical s) : Canonical s.flowDarkNext := by
  unfold State.flowDarkNext
  split
  · exact .same h
  · exact .regionOff (.same h)
theorem Canonical.traySilent (h : Canonical s) : Canonical s.traySilent :=
  .ite (.same h) (.setAlert (.setFld (.same h)))
theorem Canonical.frameBad (h : Canonical s) : Canonical s.frameBad :=
  .bump h
theorem Canonical.thmRefused (h : Canonical s) : Canonical s.thmRefused :=
  .setFld h
theorem Canonical.writeTripClr {v : Word} (h : Canonical s) : Canonical (s.writeTripClr v) :=
  .ite (.thmRefused h) (.foldl (fun h => .ite (.setFld h) (.thmRefused h)) h)
theorem Canonical.writeSuspectClr {v : Word} (h : Canonical s) : Canonical (s.writeSuspectClr v) :=
  .ite (.thmRefused h) (.foldl (fun h => .ite (.setFld h) (.thmRefused h)) h)
theorem Canonical.senseRegion {r : Nat} (h : Canonical s) : Canonical (s.senseRegion r) := by
  refine .takeRegion (.foldl (fun h => ?_) ?_)
  · split
    · exact h
    · exact .trimDie h
  · split
    · exact .same (.foldl (fun h => .judgePair (.setFld (.setFld h))) h)
    · exact .setFld (.same (.foldl (fun h => .judgePair (.setFld (.setFld h))) h))
theorem Canonical.senseCoolant {x : Sample} (h : Canonical s) : Canonical (s.senseCoolant x) :=
  .setFld (.setFld (.setFld (.setFld (.setFld (.same h)))))
theorem Canonical.peakStep (h : Canonical s) : Canonical s.peakStep :=
  .ite (.ite (.ite (.setFld (.same h)) (.setFld (.same h))) h) (.ite (.setFld (.same h)) (.ite (.setFld (.same h))
      (.setFld (.same h))))
theorem Canonical.phaseStep (h : Canonical s) : Canonical s.phaseStep :=
  .same h
theorem Canonical.takeLimits (h : Canonical s) : Canonical s.takeLimits :=
  .same h
theorem Canonical.keepSample (h : Canonical s) : Canonical s.keepSample :=
  .same h
theorem Canonical.writePhase {v : Word} (h : Canonical s) : Canonical (s.writePhase v) :=
  .ite (.pwrRefused h) (.same h)
theorem Canonical.showShifts (h : Canonical s) : Canonical s.showShifts :=
  .setFld (.setFld h)
theorem Canonical.takeShift {p src : Nat} {w : Int} (h : Canonical s) : Canonical (s.takeShift p src w) :=
  .showShifts (.same h)
theorem Canonical.dropShifts {p : Nat} (h : Canonical s) : Canonical (s.dropShifts p) :=
  .showShifts (.same h)
theorem Canonical.sendSlack {kind p dest busy amount want : Nat} (h : Canonical s) :
    Canonical (s.sendSlack kind p dest busy amount want) :=
  .queueSlack (.same h)
theorem CanonicalOut.execSlackReport (h : Canonical s) : CanonicalOut (execSlackReport s) := by
  refine .next (.ite h (.foldl (fun h => ?_) h))
  split
  · exact h
  · exact .ite h (.ite (.same h) (.sendSlack h))
theorem Canonical.grantShift {p dest src : Nat} {w : Int} (h : Canonical s) : Canonical (s.grantShift p dest src w) :=
  .ite (.takeShift h) (.sendSlack h)
theorem Canonical.rankPart {p : Nat} (h : Canonical s) : Canonical (s.rankPart p) := by
  unfold State.rankPart
  dsimp only
  split
  · exact h
  · exact .foldl (fun h => .grantShift (.grantShift h)) h

/-! ## Fabric -/

theorem Canonical.showReach (h : Canonical s) : Canonical s.showReach :=
  .same h
theorem Canonical.sendBeats {p : Nat} {resume : Bool} (h : Canonical s) : Canonical (s.sendBeats p resume) :=
  .foldl (fun h => .sendAway h) h
theorem CanonicalOut.execPartAck {id : Nat} (h : Canonical s) : CanonicalOut (execPartAck id s) := by
  refine .next (.settle h ?_)
  split
  · exact h
  · split
    · exact .showReach (.same (.flowMaybeOver (.takePn h)))
    · exact h
theorem Canonical.thaw {p : Nat} (h : Canonical s) : Canonical (s.thaw p) :=
  .serve (.beatSeen (.setPartState (.startPart (.same h))))
theorem Canonical.resumeSplit {p : Nat} (h : Canonical s) : Canonical (s.resumeSplit p) :=
  .thaw (.sendBeats (.replayPart (.setReady h)))
theorem CanonicalOut.execPartBeat {id : Nat} (h : Canonical s) : CanonicalOut (execPartBeat id s) := by
  refine .next ?_
  split
  · exact h
  · split
    · exact .ite (.takePn h) (.ite (.settle h (.thaw (.ite (.sendAway (.beatSeen (.takePn h))) (.flowMaybeOver
        (.sendAway (.beatSeen (.takePn h))))))) (.ite (.sendAway (.beatSeen (.takePn h))) (.flowMaybeOver (.sendAway
        (.beatSeen (.takePn h))))))
    · exact h
theorem Canonical.lnkRefused (h : Canonical s) : Canonical s.lnkRefused :=
  .setFld h
theorem Canonical.writeSplitGo {v : Word} (h : Canonical s) : Canonical (s.writeSplitGo v) :=
  .ite (.lnkRefused h) (.foldl (fun h => .ite (.lnkRefused h) (.ite (.resumeSplit h) h)) h)
theorem Canonical.flowRelay {p src : Nat} (h : Canonical s) : Canonical (s.flowRelay p src) :=
  .foldl (fun h => .sendAway h) h
theorem Canonical.faultMessage {m : PnMsg} {core code : Nat} (h : Canonical s) :
    Canonical (s.faultMessage m core code) :=
  .ite (.serve (.programFault h)) (.ite (.serve (.foldl (fun h => .ite (.flowMember (.flowRelay h)) (.ite
      (.flowMember h) h)) h)) (.ite (.logFault h) h))
theorem CanonicalOut.execFault {id : Nat} (h : Canonical s) : CanonicalOut (execFault id s) := by
  refine .next ?_
  split
  · exact h
  · split
    · exact .ite (.settle h (.faultMessage (.takePn h))) (.takePn h)
    · exact h
theorem Canonical.setSafe {r : Nat} {on : Bool} (h : Canonical s) : Canonical (s.setSafe r on) :=
  .arbitrate (.recap (.setSkip (.setFld (.setFld h))))

/-! ## Boot -/

theorem Canonical.putCopy {copy : Nat} {b : List Byte} (h : Canonical s) : Canonical (s.putCopy copy b) :=
  .ite (.same h) (.same h)
theorem Canonical.breakCopy {copy : Nat} (h : Canonical s) : Canonical (s.breakCopy copy) :=
  .drew (.putCopy h)
theorem Canonical.cutUpdate (h : Canonical s) : Canonical s.cutUpdate :=
  .ite (.breakCopy h) h
theorem Canonical.keptRegs (h : Canonical s) (h2 : Canonical t) : Canonical (s.keptRegs t) := by
  unfold State.keptRegs
  extract_lets dump t1 t2 t3 t4 t5
  have h1 : Canonical t1 := { h2 with regs := swf_filter _ _ _ h.regs }
  have h3 : Canonical t3 := .ite (.setFld (.setFld h1)) (.setFld h1)
  exact .setFld (.wr (.ite (.setReplace h3) h3))
theorem Canonical.recordedLimits (h : Canonical s) : Canonical s.recordedLimits :=
  .foldl (fun h => .wrShadow (.wr h)) h
theorem Canonical.keptCellar (h2 : Canonical t) : Canonical (s.keptCellar t) :=
  .same h2
theorem canonical_reset : Canonical State.reset := ⟨swf_nil _, swf_nil _, swf_nil _, swf_nil _, swf_nil _, swf_nil _⟩
theorem Canonical.moduleReset (h : Canonical s) : Canonical s.moduleReset := by
  have hc : Canonical s.cutUpdate := .cutUpdate h
  refine .recordedLimits (.keptRegs hc (.keptCellar (.ite ?_ (canonical_reset.same))))
  exact { canonical_reset with pantry := swf_filter _ _ _ hc.pantry, pantryEcc := swf_filter _ _ _ hc.pantryEcc }
theorem Canonical.feedGone (h : Canonical s) : Canonical s.feedGone :=
  { h with regs := swf_filter _ _ _ h.regs, pantry := swf_nil _, pantryEcc := swf_nil _ }
theorem Canonical.straps {slot : Nat} {legacy : Bool} (h : Canonical s) : Canonical (s.straps slot legacy) :=
  .setFld (.setFld h)
theorem Canonical.romStart {slot : Nat} {legacy : Bool} (h : Canonical s) : Canonical (s.romStart slot legacy) :=
  .same (.extend (.straps h))
theorem Canonical.setFw {x err : Nat} (h : Canonical s) : Canonical (s.setFw x err) :=
  .setFld (.setFld h)
theorem Canonical.secRefused (h : Canonical s) : Canonical s.secRefused :=
  .setFld h
theorem Canonical.fuseRefused (h : Canonical s) : Canonical s.fuseRefused :=
  .setFld (.secRefused h)
theorem Canonical.fwStage (h : Canonical s) : Canonical s.fwStage :=
  .ite (.secRefused h) (.ite (.setFw h) (.ite (.setFw h) (.emit (.setFw h))))
theorem Canonical.fwActivate (h : Canonical s) : Canonical s.fwActivate :=
  .ite (.setFld h) (.secRefused h)
theorem Canonical.commitSvn (h : Canonical s) : Canonical s.commitSvn :=
  .ite (.setFld h) (.fuseRefused h)
theorem Canonical.revokeSlot {k : Nat} (h : Canonical s) : Canonical (s.revokeSlot k) :=
  .ite (.setFld h) (.fuseRefused h)
theorem Canonical.writeFwCtl {v : Word} (h : Canonical s) : Canonical (s.writeFwCtl v) :=
  .ite (.secRefused h) (.ite (.revokeSlot (.ite (.commitSvn (.ite (.fwActivate (.ite (.fwStage h) h)) (.ite (.fwStage
      h) h))) (.ite (.fwActivate (.ite (.fwStage h) h)) (.ite (.fwStage h) h)))) (.ite (.commitSvn (.ite (.fwActivate
      (.ite (.fwStage h) h)) (.ite (.fwStage h) h))) (.ite (.fwActivate (.ite (.fwStage h) h)) (.ite (.fwStage h)
      h))))
theorem CanonicalOut.execFwStageComplete {img : Option (List Byte)} {wrote : Bool} (h : Canonical s) :
    CanonicalOut (execFwStageComplete img wrote s) := by
  refine .next (.ite h (.ite h ?_))
  extract_lets s1
  have h1 : Canonical s1 := .ite (.emit h) h
  split
  · exact .setFw h1
  · have hc : ∀ {c b}, Canonical (s1.putCopy c b) := .putCopy h1
    exact .ite (.setFw h1) (.ite (.setFw (.breakCopy h1)) (.ite (.same (.setFld (.setFw hc))) (.setFw hc)))
theorem Canonical.respond {msg : List Byte} {r : SpdmResp} {sign : Bool} (h : Canonical s) :
    Canonical (s.respond msg r sign) :=
  .emit (.same (.ite (.drew h) h))
theorem Canonical.spdmError {code : Nat} (h : Canonical s) : Canonical (s.spdmError code) :=
  .emit h
theorem Canonical.negotiated {signed : Bool} {f : State → State} (h : Canonical s)
    (hf1 : ∀ {a : State}, Canonical a → Canonical (f a)) : Canonical (s.negotiated signed f) :=
  .ite (.spdmError h) (.ite (.spdmError h) (hf1 h))
theorem Canonical.spdmAnswer {q : SpdmReq} (h : Canonical s) : Canonical (s.spdmAnswer q) := by
  unfold State.spdmAnswer
  split
  · exact .respond (.same h)
  · exact .ite (.spdmError h) (.respond (.same h))
  · exact .ite (.spdmError h) (.ite (.spdmError h) (.respond (.same h)))
  · exact .negotiated h (fun h => .respond h)
  · exact .negotiated h (fun h => .ite (.spdmError h) (.respond h))
  · exact .negotiated h (fun h => .ite (.spdmError h) (.respond h))
  · exact .negotiated h (fun h => .respond h)
  · exact .negotiated h (fun h => .ite (.spdmError h) (.respond (.same (.drew h))))
  · exact .ite (.spdmError h) (.ite (.spdmError (.same h)) (.respond (.same h)))
  · exact .ite (.spdmError h) (.respond (.same h))
  · exact .ite (.spdmError h) (.respond (.same h))
theorem Canonical.spdm {q : SpdmReq} (h : Canonical s) : Canonical (s.spdm q) :=
  .ite (.spdmError h) (.ite (.same h) (.spdmAnswer h))

/-! ## Branch -/

theorem Canonical.branch {opc : Byte} {cmp : DWord → DWord → Bool} {c : CoreId} {f : BFmt} (h : Canonical s) :
    Canonical (branch opc cmp c f s) :=
  .issue (fun h => h) (fun h => h) h

/-! ## LoadStore -/

theorem Canonical.load {opc : Byte} {n : Nat} {c : CoreId} {f : RFmt} (h : Canonical s) :
    Canonical (load opc n c f s) :=
  .issue (fun h => .ite (.checkRange h) h) (fun h => .setG (.checkRange h)) h
theorem Canonical.storeG {opc : Byte} {n : Nat} {c : CoreId} {f : RFmt} (h : Canonical s) :
    Canonical (storeG opc n c f s) :=
  .issue (fun h => h) (fun h => .store h) h
theorem Canonical.ld {c : CoreId} {f : RFmt} (h : Canonical s) : Canonical (s.ld c f) :=
  .settle h (.load h)
theorem Canonical.ldw {c : CoreId} {f : RFmt} (h : Canonical s) : Canonical (s.ldw c f) :=
  .settle h (.load h)

/-! ## Host -/

theorem Canonical.nextOf {o : Out} (h : Canonical s) (h2 : CanonicalOut o) : Canonical (nextOf s o) := by
  cases o with
  | next t => exact h2 t rfl
  | fault _ => exact h
  | refused _ => exact h
theorem Canonical.queuesLost (h : Canonical s) : Canonical s.queuesLost :=
  .foldl (fun h => .setQueue (.bump h)) h
theorem Canonical.reqsLost (h : Canonical s) : Canonical s.reqsLost :=
  .same h
theorem Canonical.accessesFail (h : Canonical s) : Canonical s.accessesFail := by
  unfold State.accessesFail
  extract_lets parks s1 resumes s2 s3 s4 s5 es s6 s7 s8 s9 s10
  have h2 : Canonical s2 := .foldl (fun h => .endResume h) (.foldl (fun h => .endPark h) h)
  have h4 : Canonical s4 := .foldl (fun h => .nextOf h (.execSpillWriteComplete h))
    (.foldl (fun h => .nextOf h (.execLoftFetchComplete h)) h2)
  have h5 : Canonical s5 := .ite (.nextOf h4 (.execInstallCheckDone h4)) h4
  have h6 : Canonical s6 := .ite h5 (.instEnd (.instKick (.foldl (fun h => .entryFail h) h5)))
  have h7 : Canonical s7 := .nextOf h6 (.execLoadFetchComplete h6)
  have h8 : Canonical s8 := .ite (.nextOf h7 (.execReplaceMovingDone h7)) h7
  have h9 : Canonical s9 := .ite (.nextOf h8 (.execRestoreComplete h8)) h8
  have h10 : Canonical s10 := .ite (.dumpEnd h9) h9
  exact .ite (.setFw h10) h10
theorem Canonical.linkLoss (h : Canonical s) : Canonical s.linkLoss :=
  .ite h (.serve (.accessesFail (.reqsLost (.queuesLost (.same (.wr (.bump (.setFld (.setFld (.setFld (.setFld
      (.setFld h))))))))))))
theorem CanonicalOut.execPerstAssert (h : Canonical s) : CanonicalOut (execPerstAssert s) := by
  unfold Machine.execPerstAssert
  extract_lets t hif kept
  have ht : Canonical t := .linkLoss h
  exact .next { ht with regs := swf_sclearIf _ _ (fun k => !kept k) ht.regs }
theorem Canonical.hifRefused (h : Canonical s) : Canonical s.hifRefused :=
  .setFld h
theorem Canonical.queueEnable {q : Nat} (h : Canonical s) : Canonical (s.queueEnable q) :=
  .ite (.hifRefused h) (.ite (.queueError h) (.emit (.setQueue h)))
theorem Canonical.queueDisable {q : Nat} (h : Canonical s) : Canonical (s.queueDisable q) :=
  .ite (.setQueue (.bump h)) (.ite (.queueDrained (.setQueue h)) (.hifRefused h))
theorem Canonical.writeQctl {v : Word} (h : Canonical s) : Canonical (s.writeQctl v) :=
  .ite (.hifRefused h) (.ite (.hifRefused h) (.ite h (.ite (.queueEnable h) (.ite (.queueDisable h) (.hifRefused
      h)))))
theorem CanonicalOut.execQueueEntryFetched {q : QueueId} {entry : Option (List Byte)} (h : Canonical s) :
    CanonicalOut (execQueueEntryFetched q entry s) := by
  refine .next (.ite h ?_)
  split
  · exact .queueError h
  · exact .ite (.queueError h) (.ite (.queueError h) (.setQueue h))
theorem Canonical.doorbell {q : Nat} {f : Queue → State} (h : Canonical s) (hf1 : ∀ {a : Queue}, Canonical (f a)) :
    Canonical (s.doorbell q f) :=
  .ite h (.ite (.bump h) hf1)
theorem CanonicalOut.execRegResp {id : Nat} (h : Canonical s) : CanonicalOut (execRegResp id s) := by
  refine .next ?_
  split
  · exact h
  · split
    · extract_lets t
      have ht : Canonical t := .takePn h
      split
      · exact ht
      · exact .emit (.same ht)
    · exact h
theorem CanonicalOut.execReadTimeout (h : Canonical s) : CanonicalOut (execReadTimeout s) := by
  refine .next ?_
  split
  · exact h
  · exact .bump (.setFld (.emit (.same h)))
theorem Canonical.apAsleep (h : Canonical s) : Canonical s.apAsleep :=
  .bump h
theorem Canonical.grantLine {line : Nat} {own : Bool} (h : Canonical s) : Canonical (s.grantLine line own) :=
  .same h
theorem Canonical.apStore {w : ApWrite} (h : Canonical s) : Canonical (s.apStore w) :=
  .foldl (fun h => .ite h (.foldl (fun h => .setByte h) (.ite (.setEcc h) (.checkWord h)))) h
theorem CanonicalOut.execBackInvalidateResponse {line : DWord} {data : Option (List Byte)} (h : Canonical s) :
    CanonicalOut (execBackInvalidateResponse line data s) := by
  refine .next (.ite h ?_)
  split
  · exact .same h
  · exact .ite (.same h) (.ite (.same (.same h)) (.apStore (.same h)))

/-! ## CoreRegs -/

theorem Canonical.rifRefused {c : Nat} (h : Canonical s) : Canonical (s.rifRefused c) :=
  .setFld h
theorem Canonical.writeBorrow {c : Nat} {v : Word} (h : Canonical s) : Canonical (s.writeBorrow c v) :=
  .ite (.rifRefused h) (.wr h)
theorem Canonical.writeCapture {c : Nat} {v : Word} (h : Canonical s) : Canonical (s.writeCapture c v) :=
  .wr h

/-! ## Registers -/

theorem Canonical.refuse {i : Nat} {b : Block} (h : Canonical s) : Canonical (s.refuse i b) := by
  unfold State.refuse
  split
  · exact .coreRefused h
  · exact .coreRefused h
  · exact .coreRefused h
  · exact .coreRefused h
  · exact .coreRefused h
  · exact .coreRefused h
  · exact .seqRefused h
  · exact .setFld h
  · exact .rifRefused h
  · exact .stgRefused h
  · exact .stgRefused h
  · exact .stgRefused h
  · exact .stgRefused h
  · exact .celRefused h
  · exact .setFld h
  · exact .blkRefused h
  · exact .setFld h
  · exact .lnkRefused h
  · exact .pwrRefused h
  · exact .thmRefused h
  · exact .hifRefused h
  · exact .dumpRefused h
  · exact .secRefused h
  · exact h
theorem Canonical.writePortCtl {n : Nat} {v : DWord} (h : Canonical s) : Canonical (s.writePortCtl n v) :=
  .ite (.lnkRefused h) (.ite (.ite (.portDisable h) h) (.ite (.portEnable h) (.ite (.retrain h) h)))
theorem Canonical.refreshGo {v : Word} (h : Canonical s) : Canonical (s.refreshGo v) :=
  .ite (.writeRefreshGo h) (.celRefused h)
theorem Canonical.act {i : Nat} {b : Block} {o off : Nat} {d : RegDesc} {v : DWord} (h : Canonical s) :
    Canonical (s.act i b o off d v) := by
  unfold State.act
  dsimp only
  split
  · exact .ite (.writeScrub h) (.wr h)
  · exact .ite (.writeSeqCtl h) (.ite (.writeCodeData h) (.ite h (.ite (.serveWaits (.wr h)) (.wr h))))
  · exact .ite (.writeWinCtl h) (.ite (.commitWin h) h)
  · exact .ite (.wr h) (.wr h)
  · exact .ite (.commitNrm h) h
  · exact .ite (.writeCapture h) (.wr h)
  · exact .writeBorrow h
  · exact .ite (.writeStgWake h) (.ite (.writeShortClr h) (.wr h))
  · exact .ite (.ite (.commitKv h) h) (.ite (.ite (.serve (.addBalance h)) (.serve (.wr h))) (.ite (.ite (.commitTree
      h) h) (.wr h)))
  · exact .ite (.writeCurtainCtl h) (.ite (.writeLkCtl h) (.ite (.writePhase h) (.wr h)))
  · exact .ite (.writeTripClr h) (.ite (.writeSuspectClr h) (.wr h))
  · exact .ite (.writeFwCtl h) (.wr h)
  · exact .ite (.writeDumpCtl h) (.ite (.writeReplaceCtl h) (.ite (.writeFailCtl h) (.wr h)))
  · exact .writeFmapCtl h
  · exact .ite (.writeSplitGo h) (.ite (.writePortCtl h) (.wr h))
  · exact .ite (.writeInstCtl h) (.ite (.refreshGo h) (.ite (.ite (.commitChk h) h) (.wr h)))
  · exact .ite (.writeLoadCtl h) (.ite (.writeRebindCtl h) (.wr h))
  · exact .ite (.writeQctl h) (.wr h)
  · exact .wr h
theorem Canonical.writeReg {i : Nat} {b : Block} {o off : Nat} {d : RegDesc} {v : DWord} (h : Canonical s) :
    Canonical (s.writeReg i b o off d v) :=
  .ite h (.ite (.wrShadow h) (.ite (.wr h) (.ite (.refuse h) (.ite (.refuse h) (.ite (.refuse h) (.act h))))))
theorem Canonical.unmapped (h : Canonical s) : Canonical s.unmapped :=
  .setFld h
theorem Canonical.mirrorWrite {b : Block} {off : Nat} (h : Canonical s) : Canonical (s.mirrorWrite b off) :=
  .ite (.same h) h
theorem Canonical.writeWord {off : Nat} {v : Word} (h : Canonical s) : Canonical (s.writeWord off v) := by
  unfold State.writeWord
  split
  · exact .ite h (.unmapped h)
  · refine .ite h (.ite (.refuse h) ?_)
    split
    · exact .ite (.refuse h) (.ite (.writeReg h) (.mirrorWrite (.writeReg h)))
    · split
      · exact .ite (.refuse h) (.writeReg h)
      · exact .ite (.refuse h) (.ite h (.unmapped h))
theorem Canonical.busWrite {off width : Nat} {v : DWord} (h : Canonical s) : Canonical (s.busWrite off width v) := by
  refine .ite (.writeWord h) (.ite ?_ h)
  split
  · exact .writeWord (.writeWord h)
  · split
    · exact .ite h (.ite (.refuse h) (.writeReg h))
    · exact .writeWord (.writeWord h)
theorem Canonical.recordAt {i off : Nat} (h : Canonical s) :
    ∀ p, s.recordAt i off = some p → Canonical p.1 := by
  intro p e
  unfold State.recordAt at e
  repeat' split at e
  all_goals first | (cases e; exact .same h) | cases e
theorem Canonical.readReg {i : Nat} {b : Block} {o off : Nat} (h : Canonical s) :
    Canonical (s.readReg i b o off).1 := by
  unfold State.readReg
  split
  · exact h
  · split
    · exact .readCodeData h
    · split
      · split
        · exact .foldl (fun h => .same h) h
        · exact h
      · split
        · rename_i e
          exact .foldl (fun h => .wr h) (h.recordAt _ e)
        · exact h
theorem Canonical.readWord {off : Nat} (h : Canonical s) : Canonical (s.readWord off).1 := by
  unfold State.readWord
  split
  · exact .fstIte (.fst (.drew h)) (.fst h)
  · refine .fstIte (.fst h) ?_
    split
    · exact .fstIte (.fst (.same (.readReg h))) (.fst (.readReg h))
    · refine .fstIte ?_ ?_
      · split
        · exact .fst (.same h)
        · exact .fst (.readReg h)
      · split
        · exact .fst h
        · exact .fst h
theorem Canonical.readPair {off : Nat} (h : Canonical s) : Canonical (s.readPair off).1 :=
  .fst (.readWord (.readWord h))
theorem Canonical.busRead {off width : Nat} (h : Canonical s) : Canonical (s.busRead off width).1 := by
  refine .fstIte (.fst (.readWord h)) (.fstIte ?_ (.fst h))
  split
  · exact .readPair h
  · exact .fstIte (.readReg h) (.readPair h)

/-! ## Vector -/

theorem Canonical.setLow {c n : Nat} {w : Word} (h : Canonical s) : Canonical (s.setLow c n w) :=
  .setG h
theorem Canonical.setHigh {c n : Nat} {w : Word} (h : Canonical s) : Canonical (s.setHigh c n w) :=
  .setG h
theorem Canonical.vecReads {o : VecOp} (h : Canonical s) : Canonical (s.vecReads o) :=
  .ite (.checkRange (.checkRange (.ite (.checkRange (.checkAccs (.sticky h))) (.checkAccs (.sticky h)))))
      (.checkRange (.ite (.checkRange (.checkAccs (.sticky h))) (.checkAccs (.sticky h))))
theorem Canonical.vecEnd {o : VecOp} {elems status : Nat} (h : Canonical s) :
    Canonical (s.vecEnd o elems status) := by
  refine .tokComplete ?_
  split
  · exact .count (.count (.same h))
  · exact .freeBuf (.count (.count (.same h)))
theorem Canonical.vecSample {d : Nat} {o : VecOp} {ms : Word} {r : VecResult} (h : Canonical s) :
    Canonical (s.vecSample d o ms r) :=
  .ite (.sample h) h
theorem Canonical.runVector {o : VecOp} (h : Canonical s) : Canonical (s.runVector o) :=
  .vecEnd (.vecSample (.ite (.setHigh (.noteConv (.store (.vecReads (.drew h))))) (.noteConv (.store (.vecReads
      (.drew h))))))
theorem Canonical.runReduce {o : VecOp} (h : Canonical s) : Canonical (s.runReduce o) :=
  .vecEnd (.setLow (.vecReads (.drew h)))
theorem Canonical.runTopk {o : VecOp} (h : Canonical s) : Canonical (s.runTopk o) :=
  .vecEnd (.store (.vecReads h))
theorem Canonical.runSample {o : VecOp} (h : Canonical s) : Canonical (s.runSample o) :=
  .ite (.vecEnd (.vecReads h)) (.vecEnd (.same (.setCtx (.store (.vecReads (.drew h))))))
theorem Canonical.vecDone {c : CoreId} (h : Canonical s) : Canonical (s.vecDone c) := by
  refine .settle h ?_
  split
  · exact h
  · exact .ite (.runReduce h) (.ite h (.ite (.runTopk h) (.ite (.runSample h) (.runVector h))))
theorem Canonical.vecIssue {opc : Byte} {c : CoreId} {f : UFmt} (h : Canonical s) : Canonical (vecIssue opc c f s) :=
  .issue (fun h => h) (fun h => .same (.tokIssue h)) h

/-! ## Commands -/

theorem CanonicalOut.put {off width : Nat} {v : DWord} (h : Canonical s) : CanonicalOut (put off width v s) :=
  .next (.settle h (.busWrite h))
theorem CanonicalOut.put32 {off : Nat} {v : Word} (h : Canonical s) : CanonicalOut (put32 off v s) :=
  .put h
theorem Canonical.answerRead {off width : Nat} (h : Canonical s) : Canonical (s.answerRead off width) :=
  .emit (.busRead h)
theorem CanonicalOut.execRegisterWrite {off : BitVec 32} {width : Nat} {v : DWord} (h : Canonical s) :
    CanonicalOut (execRegisterWrite off width v s) :=
  .put h
theorem CanonicalOut.execRegRead {off : BitVec 32} {width : Nat} (h : Canonical s) :
    CanonicalOut (execRegRead off width s) := by
  refine .next ?_
  split
  · exact .answerRead h
  · exact .sendPn (.same (.count (.busRead h)))
theorem CanonicalOut.execRegWrite {off : BitVec 32} {width : Nat} {v : DWord} (h : Canonical s) :
    CanonicalOut (execRegWrite off width v s) :=
  .put (.ite (.count h) h)
theorem CanonicalOut.execForceClose {c : CoreId} {w : WinId} {v : Word} (h : Canonical s) :
    CanonicalOut (execForceClose c w v s) :=
  .put32 h
theorem CanonicalOut.execWinCommit {c : CoreId} {w : WinId} {v : Word} (h : Canonical s) :
    CanonicalOut (execWinCommit c w v s) :=
  .put32 h
theorem CanonicalOut.execSeqStart {c : CoreId} (h : Canonical s) : CanonicalOut (execSeqStart c s) :=
  .put32 h
theorem CanonicalOut.execSeqResume {c : CoreId} (h : Canonical s) : CanonicalOut (execSeqResume c s) :=
  .put32 h
theorem CanonicalOut.execSeqHalt {c : CoreId} (h : Canonical s) : CanonicalOut (execSeqHalt c s) :=
  .put32 h
theorem CanonicalOut.execSeqCodeData {c : CoreId} {w : Option DWord} (h : Canonical s) :
    CanonicalOut (execSeqCodeData c w s) := by
  unfold Machine.execSeqCodeData
  split
  · exact .put h
  · exact .next (.answerRead h)
theorem CanonicalOut.execCoreScrub {c : CoreId} {v : Word} (h : Canonical s) : CanonicalOut (execCoreScrub c v s) :=
  .put32 h
theorem CanonicalOut.execBorrow {c : CoreId} {v : Word} (h : Canonical s) : CanonicalOut (execBorrow c v s) :=
  .put32 h
theorem CanonicalOut.execBorrowEnd {c : CoreId} {v : Word} (h : Canonical s) : CanonicalOut (execBorrowEnd c v s) :=
  .put32 h
theorem CanonicalOut.execCaptureArm {c : CoreId} {v : Word} (h : Canonical s) : CanonicalOut (execCaptureArm c v s) :=
  .put32 h
theorem CanonicalOut.execSatCountClear {c : CoreId} {v : Word} (h : Canonical s) :
    CanonicalOut (execSatCountClear c v s) :=
  .put32 h
theorem CanonicalOut.execNrmCommit {c : CoreId} {v : Word} (h : Canonical s) : CanonicalOut (execNrmCommit c v s) :=
  .put32 h
theorem CanonicalOut.execChkCommit {p : PartId} {v : Word} (h : Canonical s) : CanonicalOut (execChkCommit p v s) :=
  .put32 h
theorem CanonicalOut.execSrvKvCommit {p : PartId} {v : Word} (h : Canonical s) :
    CanonicalOut (execSrvKvCommit p v s) :=
  .put32 h
theorem CanonicalOut.execTreeCommit {p : PartId} {v : Word} (h : Canonical s) : CanonicalOut (execTreeCommit p v s) :=
  .put32 h
theorem CanonicalOut.execRefreshGo {v : Word} (h : Canonical s) : CanonicalOut (execRefreshGo v s) :=
  .put32 h
theorem CanonicalOut.execInstGo {v : Word} (h : Canonical s) : CanonicalOut (execInstGo v s) :=
  .put32 h
theorem CanonicalOut.execInstAbort {v : Word} (h : Canonical s) : CanonicalOut (execInstAbort v s) :=
  .put32 h
theorem CanonicalOut.execShortClr {r : RegionId} {v : Word} (h : Canonical s) : CanonicalOut (execShortClr r v s) :=
  .put32 h
theorem CanonicalOut.execStgWake {r : RegionId} {v : Word} (h : Canonical s) : CanonicalOut (execStgWake r v s) :=
  .put32 h
theorem CanonicalOut.execCurtainUp {v : Word} (h : Canonical s) : CanonicalOut (execCurtainUp v s) :=
  .put32 h
theorem CanonicalOut.execCurtainDown {v : Word} (h : Canonical s) : CanonicalOut (execCurtainDown v s) :=
  .put32 h
theorem CanonicalOut.execPhase {v : Word} (h : Canonical s) : CanonicalOut (execPhase v s) :=
  .put32 h
theorem CanonicalOut.execLkCtl {v : Word} (h : Canonical s) : CanonicalOut (execLkCtl v s) :=
  .put32 h
theorem CanonicalOut.execTripClr {v : Word} (h : Canonical s) : CanonicalOut (execTripClr v s) :=
  .put32 h
theorem CanonicalOut.execSuspectClr {v : Word} (h : Canonical s) : CanonicalOut (execSuspectClr v s) :=
  .put32 h
theorem CanonicalOut.execFmapMark {v : Word} (h : Canonical s) : CanonicalOut (execFmapMark v s) :=
  .put32 h
theorem CanonicalOut.execFmapUnmark {v : Word} (h : Canonical s) : CanonicalOut (execFmapUnmark v s) :=
  .put32 h
theorem CanonicalOut.execSplitGo {v : Word} (h : Canonical s) : CanonicalOut (execSplitGo v s) :=
  .put32 h
theorem CanonicalOut.execPortEnable {port : PortId} (h : Canonical s) : CanonicalOut (execPortEnable port s) :=
  .put32 h
theorem CanonicalOut.execPortDisable {port : PortId} (h : Canonical s) : CanonicalOut (execPortDisable port s) :=
  .put32 h
theorem CanonicalOut.execRetrain {port : PortId} (h : Canonical s) : CanonicalOut (execRetrain port s) :=
  .put32 h
theorem CanonicalOut.execRebindGo {v : Word} (h : Canonical s) : CanonicalOut (execRebindGo v s) :=
  .put32 h
theorem CanonicalOut.execLoadGo {v : Word} (h : Canonical s) : CanonicalOut (execLoadGo v s) :=
  .put32 h
theorem CanonicalOut.execUnload {v : Word} (h : Canonical s) : CanonicalOut (execUnload v s) :=
  .put32 h
theorem CanonicalOut.execQueueEnable {v : Word} (h : Canonical s) : CanonicalOut (execQueueEnable v s) :=
  .put32 h
theorem CanonicalOut.execQueueDisable {v : Word} (h : Canonical s) : CanonicalOut (execQueueDisable v s) :=
  .put32 h
theorem CanonicalOut.execHostDone {v : Word} (h : Canonical s) : CanonicalOut (execHostDone v s) :=
  .put32 h
theorem CanonicalOut.execFailCtlPark {v : Word} (h : Canonical s) : CanonicalOut (execFailCtlPark v s) :=
  .put32 h
theorem CanonicalOut.execDumpTrigger {v : Word} (h : Canonical s) : CanonicalOut (execDumpTrigger v s) :=
  .put32 h
theorem CanonicalOut.execDumpCopy {v : Word} (h : Canonical s) : CanonicalOut (execDumpCopy v s) :=
  .put32 h
theorem CanonicalOut.execRetainClr {v : Word} (h : Canonical s) : CanonicalOut (execRetainClr v s) :=
  .put32 h
theorem CanonicalOut.execFwStage {v : Word} (h : Canonical s) : CanonicalOut (execFwStage v s) :=
  .put32 h
theorem CanonicalOut.execFwActivate {v : Word} (h : Canonical s) : CanonicalOut (execFwActivate v s) :=
  .put32 h
theorem CanonicalOut.execCommitSvn {v : Word} (h : Canonical s) : CanonicalOut (execCommitSvn v s) :=
  .put32 h
theorem CanonicalOut.execRevoke {v : Word} (h : Canonical s) : CanonicalOut (execRevoke v s) :=
  .put32 h
theorem Canonical.serveGet {m : NetMsg} (h : Canonical s) : Canonical (s.serveGet m) := by
  refine .ite (.ite (.answer (.checkRange h)) (.answer h)) (.ite (.ite (.answer (.busRead h)) (.answer h)) ?_)
  split
  · exact .answer h
  · exact .answer h
theorem CanonicalOut.execGetServe {id : Nat} (h : Canonical s) : CanonicalOut (execGetServe id s) := by
  refine .next ?_
  split
  · exact h
  · exact .ite (.ite h (.ite (.asleepTo h) (.ite (.answer (.setFld h)) (.settle h (.serveGet h))))) h
theorem Canonical.stormAfter {c : Nat} (h : Canonical s) (h2 : Canonical t) : Canonical (s.stormAfter t c) :=
  .ite h2 (.ite (.settle h (.coreDead h2)) h2)

/-! ## Scalar -/

theorem Canonical.alu {opc : Byte} {extra : Bool} {op : DWord → DWord → DWord} {c : CoreId} {f : RFmt}
    (h : Canonical s) : Canonical (alu opc extra op c f s) :=
  .issue (fun h => h) (fun h => .setG h) h

/-! ## The step -/

theorem CanonicalOut.exec (h : Canonical s) : (i : Instr) → CanonicalOut (exec i s)
  | .add .. => .next (.alu h)
  | .sub .. => .next (.alu h)
  | .mul .. => .next (.alu h)
  | .and .. => .next (.alu h)
  | .or .. => .next (.alu h)
  | .xor .. => .next (.alu h)
  | .shl .. => .next (.alu h)
  | .shr .. => .next (.alu h)
  | .sra .. => .next (.alu h)
  | .min .. => .next (.alu h)
  | .max .. => .next (.alu h)
  | .slt .. => .next (.alu h)
  | .sltu .. => .next (.alu h)
  | .lih .. => .next (.alu h)
  | .ld .. => .next (.stormAfter h (.ld h))
  | .ldw .. => .next (.stormAfter h (.ldw h))
  | .st .. => .next (.settle h (.storeG h))
  | .stw .. => .next (.settle h (.storeG h))
  | .seta .. => .next (.issue (fun h => h) (fun h => .setA h) h)
  | .geta .. => .next (.issue (fun h => h) (fun h => .setG h) h)
  | .rdc .. => .next (.issue (fun h => h) (fun h => .setG h) h)
  | .tst .. => .next (.issue (fun h => h) (fun h => .setG h) h)
  | .beq .. => .next (.branch h)
  | .bne .. => .next (.branch h)
  | .blt .. => .next (.branch h)
  | .bge .. => .next (.branch h)
  | .bltu .. => .next (.branch h)
  | .bgeu .. => .next (.branch h)
  | .jmp .. => .next (.issue (fun h => h) (fun h => h) h)
  | .call .. => .next (.issue (fun h => h) (fun h => .setG h) h)
  | .jr .. => .next (.issue (fun h => h) (fun h => h) h)
  | .retx .. => .next (.issue (fun h => h) (fun h => .returnExc h) h)
  | .halt .. => .next (.issue (fun h => h) (fun h => .setSeq h) h)
  | .nop .. => .next (.issue (fun h => h) (fun h => h) h)
  | .brk .. => .next (.issue (fun h => h) (fun h => h) h)
  | .latePut .. => .next (.ite (.takeLate h) h)
  | .twait .. => .next (.issueOr (fun h => h) (fun h => .block h) (fun h => .setG h) h)
  | .twaitComplete .. => .execTwaitComplete h
  | .sleepEntry .. => .next (.ite h (.ite (.ite (.setSleep (.setWant h)) (.setWant h)) (.ite (.ite (.setSleep
      (.setWant h)) (.setWant h)) h)))
  | .coreWakeDone .. => .next (.ite (.ite (.setSleep (.retainLoss (.same h))) (.ite (.finishTwait (.setSleep (.same
      h))) (.same h))) h)
  | .engLoad .. => .next (.engIssue h)
  | .engRun .. => .next (.engIssue h)
  | .engDrain .. => .next (.engIssue h)
  | .engMode .. => .next (.engIssue h)
  | .engRunComplete .. => .execEngRunComplete h
  | .engDrainComplete .. => .execEngDrainComplete h
  | .rackFire .. => .next (.fireIssue h)
  | .rackRev .. => .next (.fireIssue h)
  | .rackTest .. => .next (.fireIssue h)
  | .rackFree .. => .next (.issue (fun h => h) (fun h => .ite h (.freeBuf h)) h)
  | .fireStaging .. => .execFireStaging h
  | .fireIssue .. => .execFireIssue h
  | .zeroSkipDeliver .. => .next (.deliver h)
  | .offlineFire .. => .next (.deliver h)
  | .binEvalDeliver .. => .next (.deliver h)
  | .reverseReadDeliver .. => .next (.deliver (.deliver h))
  | .fireCopyDone .. => .execFireCopyDone h
  | .quietSlotPattern .. => .next (.ite (.runPattern (.count (.same h))) h)
  | .testPeriodExpire .. => .next (.ite h (.ite (.bump h) (.ite (.setCheck h) (.setCheck h))))
  | .statWindowEnd .. => .next (.ite (.ite (.ite (.logDrift (.setBinRec (.setCheck (.clearStats (.readLabels h)))))
      (.setCheck (.setBinRec (.setCheck (.clearStats (.readLabels h)))))) (.setCheck (.clearStats (.readLabels h))))
      h)
  | .actTestRun .. => .next (.ite (.foldl (fun h => .ite (.setCheck h) h) (.same h)) h)
  | .recalComplete .. => .execRecalComplete h
  | .refreshQueueCheck => .next (.runRefreshes (.same h))
  | .refreshGo .. => .execRefreshGo h
  | .refreshComplete .. => .next (.instKick (.refreshEnd h))
  | .labelWriteBack .. => .next (.same h)
  | .vecElem .. => .next (.vecIssue h)
  | .vecReduce .. => .next (.vecIssue h)
  | .vecRmsnorm .. => .next (.vecIssue h)
  | .vecSoftmax .. => .next (.vecIssue h)
  | .vecAct .. => .next (.vecIssue h)
  | .vecRope .. => .next (.vecIssue h)
  | .vecQuant .. => .next (.vecIssue h)
  | .vecDequant .. => .next (.vecIssue h)
  | .vecTopk .. => .next (.vecIssue h)
  | .vecSample .. => .next (.vecIssue h)
  | .vecOpComplete .. => .next (.stormAfter h (.vecDone h))
  | .winOpen .. => .next (.issue (fun h => h) (fun h => .setG (.winOpen h)) h)
  | .winClose .. => .next (.issue (fun h => h) (fun h => .ite (.tokComplete (.winClose (.tokIssue h))) (.same
      (.winClose (.tokIssue h)))) h)
  | .winDrain .. => .next (.issue (fun h => h) (fun h => .winDrain (.tokIssue h)) h)
  | .winWait .. => .next (.issue (fun h => h) (fun h => .ite (.tokComplete (.tokIssue h)) (.ite (.tokComplete
      (.tokIssue h)) (.same (.tokIssue h)))) h)
  | .winCloseDone .. => .next (.closesDone h)
  | .winDrainExpire .. => .next (.ite (.winShut (.drainEnd h)) h)
  | .winWaitTimeout .. => .execWinWaitTimeout h
  | .forceClose .. => .execForceClose h
  | .put .. => .next (.settle h (.netIssue h))
  | .get .. => .next (.netIssue h)
  | .putAcceptanceCheck .. => .execPutAcceptanceCheck h
  | .putWriteDone .. => .execPutWriteDone h
  | .getServe .. => .execGetServe h
  | .netCompletion .. => .execNetCompletion h
  | .netTimeout .. => .execNetTimeout h
  | .kvAppend .. => .next (.kvIssue (fun h => .kvPush h) h)
  | .kvAppendComplete .. => .execKvAppendComplete h
  | .kvCommit .. => .next (.settle h (.kvIssue (fun h => .kvEnter h) h))
  | .kvRollback .. => .next (.settle h (.kvIssue (fun h => .kvEnter h) h))
  | .kvMap .. => .next (.settle h (.kvIssue (fun h => .kvEnter h) h))
  | .kvDigest .. => .next (.settle h (.kvIssue (fun h => .kvEnter h) h))
  | .loftFetchComplete .. => .execLoftFetchComplete h
  | .spillWriteComplete .. => .execSpillWriteComplete h
  | .nodeRetireFree .. => .execNodeRetireFree h
  | .treeMask .. => .next (.settle h (.kvIssue (fun h => .kvEnter h) h))
  | .claim .. => .next (.issue (fun h => h) (fun h => .claimAsk (.tokIssue (.supersede h))) h)
  | .release .. => .execRelease h
  | .claimGrant .. => .next (.arbitrate h)
  | .cue .. => .next (.issue (fun h => h) (fun h => .ite (.cueDropped h) (.foldl (fun h => .ite (.cueDropped h) (.ite
      (.cueDropped (.sendAway (.ite (.drew h) h))) (.sendAway (.ite (.drew h) h)))) h)) h)
  | .signal .. => .next (.issue (fun h => h) (fun h => .ite (.tokComplete (.tokIssue h)) (.ite (.tokComplete
      (.tokIssue h)) (.ite (.tokComplete (.countUnreach (.tokIssue h))) (.sendAway (.same (.tokIssue h)))))) h)
  | .wait .. => .next (.issue (fun h => h) (fun h => .serveWaits (.same (.tokIssue h))) h)
  | .heavyReservationExpire .. => .next (.setReserved h)
  | .seqStart .. => .execSeqStart h
  | .seqResume .. => .execSeqResume h
  | .seqHalt .. => .execSeqHalt h
  | .seqCodeData .. => .execSeqCodeData h
  | .coreScrub .. => .execCoreScrub h
  | .scrubComplete .. => .next (.settle h (.ite h (.powerPoll (.foldl (fun h => .apStore h) (.same (.scrubWritten
      (.setFld h)))))))
  | .borrow .. => .execBorrow h
  | .borrowEnd .. => .execBorrowEnd h
  | .borrowReady .. => .next (.ite (.setFld h) h)
  | .recDataLatch .. => .next (.answerRead h)
  | .captureArm .. => .execCaptureArm h
  | .satCountClear .. => .execSatCountClear h
  | .nrmCommit .. => .execNrmCommit h
  | .chkCommit .. => .execChkCommit h
  | .srvKvCommit .. => .execSrvKvCommit h
  | .treeCommit .. => .execTreeCommit h
  | .winCommit .. => .execWinCommit h
  | .lowHalfRead .. => .next (.answerRead h)
  | .recordLatchRead .. => .next (.answerRead h)
  | .registerWrite .. => .execRegisterWrite h
  | .instGo .. => .execInstGo h
  | .instAbort .. => .execInstAbort h
  | .installCheckDone .. => .execInstallCheckDone h
  | .chunkCrcFail .. => .execChunkCrcFail h
  | .firstPassDone .. => .execFirstPassDone h
  | .settleExpire .. => .execSettleExpire h
  | .touchUpDone .. => .next (.ite (.instEnd (.instKick (.touchedUp h))) h)
  | .hvFault => .next (.instStop h)
  | .feedLoss .. => .next (.settle h (.feedLost h))
  | .feedReturn .. => .next (.settle h (.ite (.powerPoll (.ite (.legacyGo (.recap (.hvSync (.lkFollow (.setFld h)))))
      (.recap (.hvSync (.lkFollow (.setFld h)))))) h))
  | .bothFeedsLost => .next (.settle h (.ite (.feedsLost h) h))
  | .auxFeedLoss => .next (.same (.feedGone (.moduleReset h)))
  | .presentNOpen .. => .next (.settle h (.feedLost (.ite (.same h) (.same h))))
  | .feedConnect .. => .next (.ite (.same h) (.same h))
  | .converterFail .. => .next (.ite h (.recap (.setFld (.same h))))
  | .regulatorFail .. => .next (.ite h (.ite (.settle h (.regionOut (.ite (.setFld (.setFld (.setFld (.wr h))))
      (.setFld (.setFld (.wr h)))))) (.recap (.ite (.setFld (.setFld (.setFld (.wr h)))) (.setFld (.setFld (.wr
      h)))))))
  | .segmentTrip .. => .next (.ite (.settle h (.forcedDown (.ite (.same (.same (.setFld h))) (.same (.setFld h))))) h)
  | .shortClr .. => .execShortClr h
  | .curtainUp .. => .execCurtainUp h
  | .curtainDown .. => .execCurtainDown h
  | .inrushSlotGrant .. => .next (.ite h (.ite (.settle h (.upFailed h)) (.ite h (.slotGrant h))))
  | .inrushTimeout .. => .next (.ite h (.ite (.settle h (.upFailed h)) (.slotGrant (.foldl (fun h => .setSkip h) h))))
  | .regionRun .. => .next (.settle h (.ite (.instKick (.powerPoll (.regionUp h))) h))
  | .bringupTimeout .. => .next (.ite h (.settle h (.upFailed h)))
  | .regionSwitchOpen .. => .next (.ite (.settle h (.powerPoll (.regionOff h))) h)
  | .retainEntry .. => .next (.ite (.enter h (fun h => .setSleep (.claimsGone h))) h)
  | .stgWake .. => .execStgWake h
  | .darkEntry .. => .next (.ite (.regionOff h) h)
  | .droopLevel .. => .next (.ite (.setDroop (.ite (.bump h) h)) h)
  | .droopStepDown .. => .next (.setDroop h)
  | .telemetrySample .. => .next (.ite h (.settle h (.takeMirror (.ite (.flowStop (.foldl (fun h => .convGo h)
      (.keepSample (.recap (.peakStep (.foldl (fun h => .coolRegion h) (.foldl (fun h => .updateRth h) (.setFld
      (.same (.count (.putTel (.foldl (fun h => .senseRegion h) (.senseCoolant (.setFld (.setFld (.setFld (.setFld
      (.phaseStep (.takeLimits h))))))))))))))))))) (.foldl (fun h => .convGo h) (.keepSample (.recap (.peakStep
      (.foldl (fun h => .coolRegion h) (.foldl (fun h => .updateRth h) (.setFld (.same (.count (.putTel (.foldl (fun
      h => .senseRegion h) (.senseCoolant (.setFld (.setFld (.setFld (.setFld (.phaseStep (.takeLimits
      h))))))))))))))))))))))
  | .scanComplete .. => .next (.ite h (.setFld (.setFld (.foldl (fun h => .setFld (.setFld (.setFld (.setFld (.setFld
      h))))) h))))
  | .regionSkipReview .. => .next (.ite (.ite (.setSkip (.setSkip h)) (.setSkip h)) h)
  | .inputLimit => .next (.foldl (fun h => .setSkip h) (.setFld (.same h)))
  | .phase .. => .execPhase h
  | .lkCtl .. => .execLkCtl h
  | .slackReport => .execSlackReport h
  | .slackRanking => .next (.same (.foldl (fun h => .rankPart h) (.same h)))
  | .slackGrant => .next (.foldl (fun h => .ite (.takeShift h) h) (.same h))
  | .shiftLapse => .next (.showShifts (.same h))
  | .trayFrame .. => .next (.ite (.frameBad h) (.ite (.ite (.settle h (.flowStop (.setFld (.same (.same (.setFld
      (.setFld (.setFld (.setFld (.ite (.frameBad h) h)))))))))) (.setFld (.same (.same (.setFld (.setFld (.setFld
      (.setFld (.ite (.frameBad h) h))))))))) (.traySilent (.same (.setFld (.setFld (.setFld (.setFld (.ite
      (.frameBad h) h)))))))))
  | .traySilence => .next (.traySilent h)
  | .flowStop => .next (.settle h (.flowStop (.same h)))
  | .flowRestore => .next (.settle h (.ite (.serve (.instKick (.runRefreshes (.foldl (fun h => .arbitrate (.setSkip
      h)) (.setFlow (.same h)))))) (.same h)))
  | .stopDarkExpire => .next (.ite (.settle h (.serve (.flowDarkNext (.same (.loseAll (.setFlow h)))))) h)
  | .flowDarkStep => .next (.flowDarkNext h)
  | .hardwareTrip .. => .next (.ite h (.settle h (.forcedDown (.bump (.setAlert (.setFld h))))))
  | .tripClr .. => .execTripClr h
  | .suspectClr .. => .execSuspectClr h
  | .meshRoute .. => .execMeshRoute h
  | .fmapMark .. => .execFmapMark h
  | .fmapUnmark .. => .execFmapUnmark h
  | .routeRewrite => .next (.rewrite h)
  | .meshLinkBad .. => .next (.ite (.logFault (.mark h)) h)
  | .pnCue .. => .execPnCue h
  | .pnSignal .. => .execPnSignal h
  | .signalAck .. => .execSignalAck h
  | .winNotice .. => .execWinNotice h
  | .pnKvCommit .. => .execPnKvCommit h
  | .pnKvRollback .. => .execPnKvRollback h
  | .kvAck .. => .execKvAck h
  | .heartbeatCheck .. => .next (.settle h (.foldl (fun h => .coreDead h) (.foldl (fun h => .same (.sendPn h)) h)))
  | .heartbeat .. => .execHeartbeat h
  | .fault .. => .execFault h
  | .regRead .. => .execRegRead h
  | .regWrite .. => .execRegWrite h
  | .regResp .. => .execRegResp h
  | .commitNotice .. => .execCommitNotice h
  | .deadline .. => .execDeadline h
  | .partBeat .. => .execPartBeat h
  | .partAck .. => .execPartAck h
  | .partBeatTimer .. => .next (.ite (.showReach (.sendBeats (.same h))) h)
  | .partitionFreeze .. => .next (.ite h (.ite (.setReady h) (.ite (.settle h (.serve (.dropShifts (.bump (.haltPart
      (.abortPasses (.setPartState (.same h)))))))) h)))
  | .partitionResume .. => .next (.ite h (.ite (.setReady h) (.settle h (.resumeSplit h))))
  | .splitGo .. => .execSplitGo h
  | .mgmtFrame .. => .next (.ite (.setFld (.bump h)) (.ite (.ite (.same h) h) (.foldl (fun h => .ite (.setSafe h) h)
      (.setFld (.ite (.same h) h)))))
  | .mgmtRetry => .next (.ite (.same h) (.bump (.same h)))
  | .mgmtBreak => .next (.ite h (.logFault (.setFld h)))
  | .stagehandSafe .. => .next (.ite h (.sendPn (.setSafe h)))
  | .flitData .. => .next (.rxFlit h)
  | .flitPrompt .. => .next (.rxFlit h)
  | .flitSlack .. => .next (.rxFlit h)
  | .flitIdle .. => .next (.rxFlit h)
  | .flitLink .. => .next (.rxFlit h)
  | .idleFlitTimer .. => .next (.ite (.sendIdle h) h)
  | .ackTimer .. => .next (.ite (.sendIdle h) h)
  | .portSilence .. => .next (.ite (.portDown h) h)
  | .retrainTimer .. => .next (.ite (.startTraining h) h)
  | .trainingComplete .. => .next (.ite (.endTraining h) h)
  | .portEnable .. => .execPortEnable h
  | .portDisable .. => .execPortDisable h
  | .retrain .. => .execRetrain h
  | .create .. => .next (.settle h (.descriptor h))
  | .generate .. => .next (.settle h (.descriptor h))
  | .adapt .. => .next (.settle h (.descriptor h))
  | .park .. => .next (.settle h (.descriptor h))
  | .resume .. => .next (.settle h (.descriptor h))
  | .delete .. => .next (.settle h (.descriptor h))
  | .passAdmission .. => .next (.settle h (.serve (.admitN h)))
  | .parkComplete .. => .next (.settle h (.serve (.endPark h)))
  | .resumeComplete .. => .execResumeComplete h
  | .deadlineTimer => .execDeadlineTimer h
  | .tenRefill .. => .next (.settle h (.serve (.addBalance h)))
  | .rebindGo .. => .execRebindGo h
  | .rebindProceed => .execRebindProceed h
  | .loadGo .. => .execLoadGo h
  | .loadFetchComplete .. => .execLoadFetchComplete h
  | .loadWriteComplete => .execLoadWriteComplete h
  | .partitionDigest .. => .execPartitionDigest h
  | .unload .. => .execUnload h
  | .unloadComplete => .execUnloadComplete h
  | .perstAssert => .execPerstAssert h
  | .perstDeassert => .next (.ite (.setFld (.same h)) (.same h))
  | .linkUp .. => .next (.ite h (.setFld (.setFld (.setFld (.setFld (.setFld (.wr (.setFld (.setFld h)))))))))
  | .linkLost => .next (.linkLoss h)
  | .queueEnable .. => .execQueueEnable h
  | .queueEntryFetched .. => .execQueueEntryFetched h
  | .queueDisable .. => .execQueueDisable h
  | .queueDrained .. => .next (.queueDrained h)
  | .sqTail .. => .next (.doorbell h (.ite (.queueError h) (.setQueue h)))
  | .cqHead .. => .next (.doorbell h (.ite (.queueError h) (.setQueue h)))
  | .completionWrite .. => .execCompletionWrite h
  | .interruptCoalesce .. => .next (.ite (.signalQueue h) h)
  | .readTimeout => .execReadTimeout h
  | .apertureRead .. => .next (.ite h (.ite (.emit (.drew h)) (.ite (.emit (.apAsleep h)) (.ite (.settle h (.same h))
      (.emit (.ite (.ite (.bump (.foldl (fun h => .checkWord h) h)) (.foldl (fun h => .checkWord h) h)) (.grantLine
      (.ite (.bump (.foldl (fun h => .checkWord h) h)) (.foldl (fun h => .checkWord h) h)))))))))
  | .apertureWrite .. => .next (.ite h (.ite (.apAsleep h) (.ite (.same h) (.apStore h))))
  | .hdmDecoderCommit .. => .next (.ite (.setFld h) h)
  | .getVersion .. => .next (.spdm h)
  | .getCapabilities .. => .next (.spdm h)
  | .negotiateAlgorithms .. => .next (.spdm h)
  | .getDigests .. => .next (.spdm h)
  | .getCertificate .. => .next (.spdm h)
  | .challenge .. => .next (.spdm h)
  | .getMeasurements .. => .next (.spdm h)
  | .keyExchange .. => .next (.spdm h)
  | .finish .. => .next (.spdm h)
  | .keyUpdate .. => .next (.spdm h)
  | .endSession .. => .next (.spdm h)
  | .coreDead .. => .next (.ite h (.settle h (.coreDead h)))
  | .pipeStall .. => .next (.ite (.settle h (.serve (.drew (.restart h)))) h)
  | .replaceMovingDone .. => .execReplaceMovingDone h
  | .hostDone .. => .execHostDone h
  | .hostMsTimeout => .next (.settle h (.ite (.serve (.replaceFail h)) h))
  | .restoreComplete .. => .execRestoreComplete h
  | .failCtlPark .. => .execFailCtlPark h
  | .fatalFault .. => .next (.ite (.settle h (.serve (.fatalFault h))) h)
  | .dumpTrigger .. => .execDumpTrigger h
  | .dumpComplete .. => .next (.ite (.dumpEnd h) (.foldl (fun h => .spdmAnswer h) (.same (.dumpEnd h))))
  | .dumpCopy .. => .execDumpCopy h
  | .retainClr .. => .execRetainClr h
  | .coldStart .. => .next (.ite (.straps (.same (.feedGone (.moduleReset h)))) (.romStart (.same (.feedGone
      (.moduleReset h)))))
  | .firmwareVerified .. => .next (.ite (.ite (.same h) (.ite (.same (.setFld (.setFld h))) (.setFld (.same (.setFld
      (.setFld h)))))) h)
  | .firmwareStart .. => .next (.ite h (.ite (.setFld (.setFld (.setFld (.setFld (.extend (.same h)))))) (.setFld
      (.setFld (.setFld (.setFld (.setFld (.extend (.same h)))))))))
  | .fwReady => .next (.ite (.setFld (.same h)) h)
  | .resetNAssert => .next (.ite (.same (.moduleReset h)) (.same h))
  | .resetNDeassert .. => .next (.ite h (.ite (.romStart (.same h)) (.same h)))
  | .fwStage .. => .execFwStage h
  | .fwStageComplete .. => .execFwStageComplete h
  | .fwActivate .. => .execFwActivate h
  | .commitSvn .. => .execCommitSvn h
  | .revoke .. => .execRevoke h
  | .mgmtBusIndex .. => .next (.ite (.same h) h)
  | .mgmtBusRead => .next (.ite (.emit h) h)
  | .waitTimeout .. => .execWaitTimeout h
  | .inrushEnd .. => .next (.ite h (.ite (.settle h (.regionOut (.inrushOver h))) (.setStage (.inrushOver h))))
  | .engLoadComplete .. => .execEngLoadComplete h
  | .cacheEnable => .next (.settle h (.ite h (.serve (.foldl (fun h => .faultParkEnd h) (.setFld h)))))
  | .hostSnoop .. => .next (.ite (.same h) (.emit h))
  | .backInvalidateResponse .. => .execBackInvalidateResponse h
  | .legacyFeedTimeout => .next (.ite (.loadUndo h) h)

theorem step_canonical (h : Canonical s) : CanonicalOut (step s) := by
  unfold step
  split
  · exact .next (.tick h)
  · exact .exec (.same h) _

end

/-- Settles O60: no command and no tick leaves the canonical form, by `CanonicalOut.exec` and `Canonical.tick`. -/
theorem everyStepKeepsTheCanonicalForm : Obligations.EveryStepKeepsTheCanonicalForm := by
  unfold Obligations.EveryStepKeepsTheCanonicalForm
  intro s t h e
  exact (canonical_iff t).2 (step_canonical ((canonical_iff s).1 h) t e)

end Sys2Proof.Machine
end

section
/-! PROOFS. What scalar instructions raise, and what an exception leaves (O3). -/

namespace Sys2Proof.Machine

variable {s t : State} {c : Nat}

/-! ## What is raised at a boundary (R267 to R269) -/

section
variable {i : Insn} (seen hold eff : State → State) (hr : s.Ready i.core i.word i.next)
  (hd : opcodeDefined i.word = true)
include hr hd

/-- An instruction that is ready but not allowed raises ILLEGAL before any other check. -/
theorem issueOr_illegal (hi : i.illegal = true) :
    issueOr i seen hold eff s = s.raise i.core .illegal (s.pc i.core) (i.tok.getD 0) 0 := by
  have h1 : (s.latePending i.core && !s.inHandler i.core) = false := by
    rcases hr.late with h | h <;> simp [h]
  have h2 : s.codeBad i.core = false := by unfold State.codeBad; rw [hr.clean]
  have h3 := State.fetched_clean s i.core hr.clean
  unfold issueOr
  simp only [hr.boundary, h1, hr.here, h2, hr.word, hd, hr.there, hi, h3, ne_eq, not_true_eq_false, Bool.not_true,
    Bool.false_eq_true, if_false, if_true]

end

/-- An instruction whose next pc lies outside SEQ.CODE_LIM raises CODE_BOUNDS before it is decoded (R268). -/
theorem issueOr_codeBounds {i : Insn} (seen hold eff : State → State) (hr : s.Ready i.core i.word (s.pc i.core))
    (hd : opcodeDefined i.word = true) (hnext : s.inCode i.core i.next = false) :
    issueOr i seen hold eff s = s.raise i.core .codeBounds (s.pc i.core) (i.tok.getD 0) 0 := by
  have h1 : (s.latePending i.core && !s.inHandler i.core) = false := by
    rcases hr.late with h | h <;> simp [h]
  have h2 : s.codeBad i.core = false := by unfold State.codeBad; rw [hr.clean]
  have h3 := State.fetched_clean s i.core hr.clean
  unfold issueOr
  simp only [hr.boundary, h1, hr.here, h2, hr.word, hd, hnext, h3, ne_eq, not_true_eq_false, Bool.not_true,
    Bool.false_eq_true, if_false, Bool.not_false, if_true]

theorem State.pc_lt (s : State) (c : Nat) : s.pc c < 32768 := Fld.get_lt Fl.SEQ_PC_PC _

/-- With the handler enabled and not running, an exception of an instruction enters it and keeps the Pantries. -/
theorem raise_enters (x : Cause) (he : s.flag (Reg.SEQ_HANDLER c) Fl.SEQ_HANDLER_EN = true) (hi : s.inHandler c = false) :
    Entered s (s.raise c x (s.pc c) 0 0) c x (s.pc c) 0 0 ∧ PantryKept s (s.raise c x (s.pc c) 0 0) :=
  ⟨s.raise_entered x _ 0 0 he hi (s.pc_lt c), s.raise_keeps_pantry c x _ 0 0⟩

/-! ## What an exception leaves of SEQ.STAT, and one that halts the sequencer (R270) -/

/-- The state in which an exception finds its handler: TWAIT given up, HELD clear, SEQ.EXC written. -/
def State.raising (s : State) (c : Nat) (w : DWord) : State :=
  ((s.dropTwait c).setFld (Reg.SEQ_STAT c) Fl.SEQ_STAT_HELD 0).wr (Reg.SEQ_EXC c) w

theorem State.rd_raising_stat (w : DWord) :
    (s.raising c w).rd (Reg.SEQ_STAT c) = Fl.SEQ_STAT_HELD.set (s.rd (Reg.SEQ_STAT c)) 0 := by
  rw [raising, State.rd_wr_other _ _ _ _ (seq_ne c).1.symm, State.rd_setFld, if_pos rfl]
  rfl
theorem State.rd_raising {o : Nat} (w : DWord) (hstat : o ≠ Reg.SEQ_STAT c) (hexc : o ≠ Reg.SEQ_EXC c) :
    (s.raising c w).rd o = s.rd o := by
  rw [raising, State.rd_wr_other _ _ _ _ hexc, State.rd_setFld, if_neg hstat]
  rfl
theorem State.rd_raising_exc (w : DWord) : (s.raising c w).rd (Reg.SEQ_EXC c) = w := State.rd_wr_same _ _ _
theorem State.raising_inHandler (w : DWord) : (s.raising c w).inHandler c = s.inHandler c := by
  rw [State.inHandler, State.flag, State.fld, State.rd_raising_stat,
    Fld.get_set_apart Fl.SEQ_STAT_HELD Fl.SEQ_STAT_IN_HANDLER _ _ (by decide) (by decide) (by decide)]
  rfl

theorem State.rd_faultRelease {o : Nat} (h : o ≠ Reg.ARB_CLAIM (c / 16) (c % 16)) : (s.faultRelease c).rd o = s.rd o := by
  unfold State.faultRelease State.zeroClaim
  split
  · rw [State.rd_setFld, if_neg h, State.rd_setFld, if_neg h]
    rfl
  · rfl
theorem State.pn_faultRelease : (s.faultRelease c).pn = s.pn := by
  unfold State.faultRelease State.zeroClaim
  split <;> simp
theorem State.nextId_faultRelease : (s.faultRelease c).nextId = s.nextId := by
  unfold State.faultRelease State.zeroClaim
  split <;> simp

/-- No register of a core window is the claim of a core. -/
theorem coreWin_ne_claim (c : CoreId) (d o : Nat) : coreWin d + o ≠ Reg.ARB_CLAIM (c.val / 16) (c.val % 16) := by
  have hc := c.isLt
  unfold coreWin Reg.ARB_CLAIM regionWin
  omega

/-- A core's sequencer made FAULTED, and the notice of it sent. -/
def State.haltFaulted (s : State) (m c : Nat) (x : Cause) : State :=
  ((s.setSeq c seqFaulted).faultRelease c).sendPn nodeManager m c 0 (.fault c x.code)

theorem State.rd_sendPn (d m k g : Nat) (b : PnBody) (o : Nat) : (s.sendPn d m k g b).rd o = s.rd o := by
  rw [State.rd, State.sendPn_regs]
  rfl

theorem State.rd_haltFaulted (m : Nat) (c : CoreId) (x : Cause) (k : Nat) :
    (s.haltFaulted m c x).rd (coreWin c + k) = (s.setSeq c seqFaulted).rd (coreWin c + k) := by
  rw [State.haltFaulted, State.rd_sendPn, State.rd_faultRelease (coreWin_ne_claim c _ _)]
theorem State.rd_haltFaulted_other (m : Nat) (c : CoreId) (x : Cause) {k : Nat} (h : coreWin c + k ≠ Reg.SEQ_STAT c) :
    (s.haltFaulted m c x).rd (coreWin c + k) = s.rd (coreWin c + k) := by
  rw [State.rd_haltFaulted, State.setSeq, State.rd_setFld, if_neg h]
theorem State.rd_haltFaulted_stat (m : Nat) (c : CoreId) (x : Cause) :
    (s.haltFaulted m c x).rd (Reg.SEQ_STAT c) = Fl.SEQ_STAT_STATE.set (s.rd (Reg.SEQ_STAT c)) seqFaulted := by
  rw [Reg.SEQ_STAT, State.rd_haltFaulted, ← Reg.SEQ_STAT, State.setSeq, State.rd_setFld, if_pos rfl]
theorem State.module_wr_core (c k : Nat) (v : DWord) : (s.wr (coreWin c + k) v).module = s.module := by
  rw [State.module, State.fld_wr_other]
  · rfl
  · unfold Reg.LNK_MODULE coreWin
    omega
theorem State.module_setFld_core (c k : Nat) (f : Fld) (x : Nat) : (s.setFld (coreWin c + k) f x).module = s.module :=
  State.module_wr_core c k _
theorem State.module_raising (w : DWord) : (s.raising c w).module = s.module := by
  rw [State.raising, Reg.SEQ_EXC, State.module_wr_core, Reg.SEQ_STAT, State.module_setFld_core]
  rfl
theorem State.pn_raising (w : DWord) : (s.raising c w).pn = s.pn := by simp [State.raising]
theorem State.nextId_raising (w : DWord) : (s.raising c w).nextId = s.nextId := by simp [State.raising]
theorem State.pn_haltFaulted (m : Nat) (c : CoreId) (x : Cause) : (s.haltFaulted m c x).pn =
    s.pn ++ [⟨s.nextId, nodeManager, m, c, s.module, 0, 0, .fault c x.code⟩] := by
  have hmod : ((s.setSeq c seqFaulted).faultRelease c).module = s.module := by
    rw [State.module, State.fld, State.rd_faultRelease, ← State.fld, ← State.module, State.setSeq, Reg.SEQ_STAT, State.module_setFld_core]
    unfold Reg.LNK_MODULE Reg.ARB_CLAIM regionWin
    omega
  simp only [State.haltFaulted, State.sendPn, State.pn_faultRelease, State.nextId_faultRelease, hmod]
  simp [nodeManager]

theorem raise_halts (c : CoreId) (x : Cause) (epc tok win : Nat) (hi : s.inHandler c = false)
    (he : s.flag (Reg.SEQ_HANDLER c) Fl.SEQ_HANDLER_EN = false) : s.raise c x epc tok win =
      ((s.raising c (excWord x tok win)).setFld (Reg.SEQ_EPC c) Fl.SEQ_EPC_PC epc).haltFaulted
        ((s.raising c (excWord x tok win)).setFld (Reg.SEQ_EPC c) Fl.SEQ_EPC_PC epc).module c x := by
  obtain ⟨-, -, -, h4, -, -, h7, -, h9, -⟩ := seq_ne c
  have hen : ((s.raising c (excWord x tok win)).setFld (Reg.SEQ_EPC c) Fl.SEQ_EPC_PC epc).flag (Reg.SEQ_HANDLER c)
      Fl.SEQ_HANDLER_EN = false := by
    rw [← he, State.flag, State.fld_setFld_other _ _ _ _ _ _ h9, State.fld, State.rd_raising _ h4 h7]
    rfl
  have hin : (s.raising c (excWord x tok win)).inHandler c = false := by rw [State.raising_inHandler, hi]
  unfold State.raise
  unfold State.raising at hen hin ⊢
  simp only [hin, hen, Bool.false_eq_true, if_false]
  rfl
theorem raise_nested (c : CoreId) (x : Cause) (epc tok win : Nat) (hi : s.inHandler c = true) : s.raise c x epc tok win =
      ((s.raising c (excWord x tok win)).setFld (Reg.SEQ_STAT c) Fl.SEQ_STAT_NESTED 1).haltFaulted
        (s.raising c (excWord x tok win)).module c x := by
  have hin : (s.raising c (excWord x tok win)).inHandler c = true := by rw [State.raising_inHandler, hi]
  unfold State.raise
  unfold State.raising at hin ⊢
  simp only [hin, if_true]
  rfl

theorem BFmt.bad_zero {f : BFmt} (hlo : f.resvLo = 0) (hhi : f.resvHi = 0) : f.bad = false := by
  simp [BFmt.bad, hlo, hhi]

/-! ## The obligation on exceptions (R241, R246, R266, R269, R270) -/

theorem brk_defined (f : BFmt) : opcodeDefined (f.word 0x2C) = true := BFmt.word_defined f 0x2C rfl

/-- BRK that is ready raises BREAK at itself. -/
theorem exec_brk {c : CoreId} {f : BFmt} (hlo : f.resvLo = 0) (hhi : f.resvHi = 0)
    (hr : s.Ready c (f.word 0x2C) (s.pcNext c)) : exec (.brk c f) s = .next (s.raise c .break (s.pc c) 0 0) :=
  congrArg Host.Outcome.next (issueOr_check _ id _ id .break hr (brk_defined f) (BFmt.bad_zero hlo hhi) rfl rfl)

/-- An ALU instruction that is ready but not allowed raises ILLEGAL at itself. -/
theorem exec_alu_illegal {i : Instr} {opc : Byte} {extra : Bool} {op : DWord → DWord → DWord} {c : CoreId} {f : RFmt}
    (hx : exec i s = .next (alu opc extra op c f s)) (hopc : opcodeDefined (opc.setWidth 64) = true)
    (hbad : (f.bad || extra) = true) (hr : s.Ready c (f.word opc) (s.pcNext c)) :
    exec i s = .next (s.raise c .illegal (s.pc c) 0 0) := by
  rw [hx, alu, issue, issueOr_illegal _ _ _ hr (RFmt.word_defined f opc hopc) hbad]
  rfl

theorem RFmt.bad_nonzero {f : RFmt} (h : f.resv ≠ 0) : f.bad = true := bne_iff_ne.2 h

/-- The same for the instructions other than LIH, and for LIH. -/
theorem enters_illegal {i : Instr} {opc : Byte} {extra : Bool} {op : DWord → DWord → DWord} {c : CoreId} {f : RFmt}
    (he : s.flag (Reg.SEQ_HANDLER c) Fl.SEQ_HANDLER_EN = true) (hi : s.inHandler c = false)
    (hx : exec i s = .next (alu opc extra op c f s)) (hopc : opcodeDefined (opc.setWidth 64) = true)
    (hextra : opc = 0x0E → f.gb ≠ 0 → extra = true) :
    f.resv ≠ 0 ∨ (opc = 0x0E ∧ f.gb ≠ 0) → s.Ready c (f.word opc) (s.pcNext c) →
      ∃ t, exec i s = .next t ∧ Entered s t c .illegal (s.pc c) 0 0 ∧ PantryKept s t := by
  intro hbad hr
  have hill : (f.bad || extra) = true := by
    rcases hbad with h | ⟨hlih, hgb⟩
    · rw [RFmt.bad_nonzero h, Bool.true_or]
    · rw [hextra hlih hgb, Bool.or_true]
  exact ⟨_, exec_alu_illegal hx hopc hill hr, raise_enters .illegal he hi⟩

/-- A pending LATE_PUT taken at the boundary (R269). -/
theorem exec_latePut {c : CoreId} (hlate : s.latePending c = true) (hi : s.inHandler c = false) (hsleep : s.sleep c = 0)
    (hseq : s.seq c = seqRun ∨ s.seq c = seqWait) : exec (.latePut c) s = .next (s.takeLate c) :=
  congrArg Host.Outcome.next (if_pos (by simpa [hlate, hi, hsleep] using hseq))

/-- The state in which a LATE_PUT is raised: its window forgotten and LATE_PENDING clear. -/
def State.lateTaken (s : State) (c : Nat) : State :=
  ({ s with lateWin := swrite (fun _ => none) s.lateWin c none }).setFld (Reg.SEQ_STAT c) Fl.SEQ_STAT_LATE_PENDING 0

theorem State.takeLate_eq {w : Nat} (hw : sread (fun _ => none) s.lateWin c = some w) :
    s.takeLate c = (s.lateTaken c).raise c .latePut (s.pc c) 0 w := by
  unfold State.takeLate
  rw [hw]
  rfl

theorem State.rd_lateTaken {o : Nat} (h : o ≠ Reg.SEQ_STAT c) : (s.lateTaken c).rd o = s.rd o := by
  rw [State.lateTaken, State.rd_setFld, if_neg h]
  rfl
theorem State.rd_lateTaken_stat : (s.lateTaken c).rd (Reg.SEQ_STAT c) =
    Fl.SEQ_STAT_LATE_PENDING.set (s.rd (Reg.SEQ_STAT c)) 0 := by
  rw [State.lateTaken, State.rd_setFld, if_pos rfl]
  rfl

/-- SEQ.STAT of a core whose handler an exception has entered. -/
theorem State.rd_raise_stat (x : Cause) (epc tok win : Nat) (he : s.flag (Reg.SEQ_HANDLER c) Fl.SEQ_HANDLER_EN = true)
    (hi : s.inHandler c = false) : (s.raise c x epc tok win).rd (Reg.SEQ_STAT c) =
      Fl.SEQ_STAT_STATE.set (Fl.SEQ_STAT_IN_HANDLER.set (Fl.SEQ_STAT_HELD.set (s.rd (Reg.SEQ_STAT c)) 0) 1) seqRun := by
  obtain ⟨-, h2, h3, h4, -, -, h7, -, h9, -⟩ := seq_ne c
  have hen : ((s.raising c (excWord x tok win)).setFld (Reg.SEQ_EPC c) Fl.SEQ_EPC_PC epc).flag (Reg.SEQ_HANDLER c)
      Fl.SEQ_HANDLER_EN = true := by
    rw [← he, State.flag, State.fld_setFld_other _ _ _ _ _ _ h9, State.fld, State.rd_raising _ h4 h7]
    rfl
  have hin : (s.raising c (excWord x tok win)).inHandler c = false := by rw [State.raising_inHandler, hi]
  rw [← State.rd_raising_stat (excWord x tok win)]
  unfold State.raise
  unfold State.raising at hen hin ⊢
  simp only [hin, hen, Bool.false_eq_true, if_false, if_true, State.setSeq, State.setPc, State.rd_setFld, h3.symm, h2.symm]

theorem latePut_enters {c : CoreId} {w : WinId} (he : s.flag (Reg.SEQ_HANDLER c) Fl.SEQ_HANDLER_EN = true)
    (hi : s.inHandler c = false) (hw : sread (fun _ => none) s.lateWin c = some w.val) :
    Entered s (s.takeLate c) c .latePut (s.pc c) 0 w ∧ (s.takeLate c).latePending c = false ∧
      PantryKept s (s.takeLate c) := by
  have he' : (s.lateTaken c).flag (Reg.SEQ_HANDLER c) Fl.SEQ_HANDLER_EN = true := by
    rw [← he, State.flag, State.fld, State.rd_lateTaken (seq_ne c).2.2.2.1]
    rfl
  have hi' : (s.lateTaken c).inHandler c = false := by
    rw [← hi, State.inHandler, State.flag, State.fld, State.rd_lateTaken_stat,
      Fld.get_set_apart Fl.SEQ_STAT_LATE_PENDING Fl.SEQ_STAT_IN_HANDLER _ _ (by decide) (by decide) (by decide)]
    rfl
  obtain ⟨hepc, hexc, hpc, hrun, hin, hkept⟩ := (s.lateTaken c).raise_entered .latePut (s.pc c) 0 w he' hi' (s.pc_lt c)
  rw [State.takeLate_eq hw]
  refine ⟨⟨hepc, hexc, ?_, hrun, hin, fun o ho => ?_⟩, ?_, fun d o => ?_⟩
  · rw [hpc, State.fld, State.rd_lateTaken (seq_ne c).2.2.2.1]
    rfl
  · rw [hkept o ho, State.rd_lateTaken]
    rintro rfl
    exact ho (by simp)
  · rw [State.latePending, State.flag, State.fld, State.rd_raise_stat _ _ _ _ he' hi', State.rd_lateTaken_stat,
      Fld.get_set_apart Fl.SEQ_STAT_STATE Fl.SEQ_STAT_LATE_PENDING _ _ (by decide) (by decide) (by decide),
      Fld.get_set_apart Fl.SEQ_STAT_IN_HANDLER Fl.SEQ_STAT_LATE_PENDING _ _ (by decide) (by decide) (by decide),
      Fld.get_set_apart Fl.SEQ_STAT_HELD Fl.SEQ_STAT_LATE_PENDING _ _ (by decide) (by decide) (by decide),
      Fld.get_set _ _ _ (by decide)]
    rfl
  · rw [State.raise_keeps_pantry, State.byte, State.lateTaken, State.setFld_pantry]
    rfl

section
variable {c : CoreId} {x : Cause} {epc : Nat}

/-- Without an enabled handler an exception leaves the sequencer FAULTED with EPC where it was raised. -/
theorem raise_unhandled (hepc : epc < 32768) (hi : s.inHandler c = false)
    (he : s.flag (Reg.SEQ_HANDLER c) Fl.SEQ_HANDLER_EN = false) :
    (s.raise c x epc 0 0).seq c = seqFaulted ∧ (s.raise c x epc 0 0).fld (Reg.SEQ_EPC c) Fl.SEQ_EPC_PC = epc ∧
      (s.raise c x epc 0 0).rd (Reg.SEQ_EXC c) = excWord x 0 0 ∧ (s.raise c x epc 0 0).pc c = s.pc c ∧
      (s.raise c x epc 0 0).pn =
        s.pn ++ [⟨s.nextId, nodeManager, s.module, c, s.module, 0, 0, .fault c x.code⟩] := by
  obtain ⟨h1, h2, h3, -, h5, h6, -, h8, -, -⟩ := seq_ne c
  rw [raise_halts c x epc 0 0 hi he]
  refine ⟨?_, ?_, ?_, ?_, ?_⟩
  · rw [State.seq, State.fld, State.rd_haltFaulted_stat, Fld.get_set _ _ _ (by decide)]
    rfl
  · rw [State.fld, Reg.SEQ_EPC, State.rd_haltFaulted_other _ _ _ h2, ← Reg.SEQ_EPC, ← State.fld,
      State.fld_setFld_same _ _ _ _ (by decide)]
    exact Nat.mod_eq_of_lt hepc
  · rw [Reg.SEQ_EXC, State.rd_haltFaulted_other _ _ _ h1, ← Reg.SEQ_EXC, State.rd_setFld, if_neg h5.symm,
      State.rd_raising_exc]
  · rw [State.pc, State.fld, Reg.SEQ_PC, State.rd_haltFaulted_other _ _ _ h3, ← Reg.SEQ_PC, State.rd_setFld,
      if_neg h8, State.rd_raising _ h3 h6]
    rfl
  · rw [State.pn_haltFaulted, Reg.SEQ_EPC, State.module_setFld_core, State.module_raising, State.setFld_pn,
      State.setFld_nextId, State.pn_raising, State.nextId_raising]

/-- Inside the handler an exception leaves the sequencer FAULTED with NESTED and EPC as it was. -/
theorem raise_inside (hi : s.inHandler c = true) :
    (s.raise c x epc 0 0).seq c = seqFaulted ∧ (s.raise c x epc 0 0).flag (Reg.SEQ_STAT c) Fl.SEQ_STAT_NESTED = true ∧
      (s.raise c x epc 0 0).fld (Reg.SEQ_EPC c) Fl.SEQ_EPC_PC = s.fld (Reg.SEQ_EPC c) Fl.SEQ_EPC_PC ∧
      (s.raise c x epc 0 0).rd (Reg.SEQ_EXC c) = excWord x 0 0 ∧
      (s.raise c x epc 0 0).pn =
        s.pn ++ [⟨s.nextId, nodeManager, s.module, c, s.module, 0, 0, .fault c x.code⟩] := by
  obtain ⟨h1, h2, -, -, h5, -⟩ := seq_ne c
  rw [raise_nested c x epc 0 0 hi]
  refine ⟨?_, ?_, ?_, ?_, ?_⟩
  · rw [State.seq, State.fld, State.rd_haltFaulted_stat, Fld.get_set _ _ _ (by decide)]
    rfl
  · rw [State.flag, State.fld, State.rd_haltFaulted_stat,
      Fld.get_set_apart Fl.SEQ_STAT_STATE Fl.SEQ_STAT_NESTED _ _ (by decide) (by decide) (by decide), ← State.fld,
      State.fld_setFld_same _ _ _ _ (by decide)]
    rfl
  · rw [State.fld, Reg.SEQ_EPC, State.rd_haltFaulted_other _ _ _ h2, ← Reg.SEQ_EPC, State.rd_setFld, if_neg h2,
      State.rd_raising _ h2 h5]
    rfl
  · rw [Reg.SEQ_EXC, State.rd_haltFaulted_other _ _ _ h1, ← Reg.SEQ_EXC, State.rd_setFld, if_neg h1,
      State.rd_raising_exc]
  · rw [State.pn_haltFaulted, Reg.SEQ_STAT, State.module_setFld_core, State.module_raising, State.setFld_pn,
      State.setFld_nextId, State.pn_raising, State.nextId_raising]

end

/-- Settles O3: each instruction raises its exception at itself (`exec_brk`, `enters_illegal`, `exec_latePut`), and what an
exception leaves are `raise_enters`, `raise_unhandled` and `raise_inside`. -/
theorem exceptionsAreTaken : Obligations.ExceptionsAreTaken := by
  unfold Obligations.ExceptionsAreTaken
  refine ⟨fun c f s he hi => ⟨fun hlo hhi hr => ⟨_, exec_brk hlo hhi hr, raise_enters .break he hi⟩,
      fun w hlate hw hsleep hseq => ⟨_, exec_latePut hlate hi hsleep hseq, latePut_enters he hi hw⟩⟩,
    fun c f s he hi => ?illegal,
    fun c f s hlo hhi hr => ⟨fun hi he => ?halted, fun hi => ?nested⟩⟩
  case illegal =>
    have plain {i : Instr} {opc : Byte} {op : DWord → DWord → DWord} (hx : exec i s = .next (alu opc false op c f s))
        (hopc : opcodeDefined (opc.setWidth 64) = true) (hne : opc ≠ 0x0E) :=
      enters_illegal he hi hx hopc fun h => absurd h hne
    simp only [List.forall_mem_cons, List.not_mem_nil, false_implies, implies_true, and_true]
    exact ⟨plain rfl rfl (by decide), plain rfl rfl (by decide), plain rfl rfl (by decide), plain rfl rfl (by decide),
      plain rfl rfl (by decide), plain rfl rfl (by decide), plain rfl rfl (by decide), plain rfl rfl (by decide),
      plain rfl rfl (by decide), plain rfl rfl (by decide), plain rfl rfl (by decide), plain rfl rfl (by decide),
      plain rfl rfl (by decide), fun hbad => enters_illegal he hi rfl rfl (fun _ h => bne_iff_ne.2 h)
        (hbad.imp_right fun h => ⟨rfl, h.2⟩)⟩
  case halted =>
    obtain ⟨hseq, hepc, hexc, hpc, hpn⟩ := raise_unhandled (x := .break) (s.pc_lt c) hi he
    exact ⟨_, exec_brk hlo hhi hr, hseq, hepc, hexc, hpc, hpn, s.raise_keeps_pantry c _ _ _ _⟩
  case nested =>
    obtain ⟨hseq, hnest, hepc, hexc, hpn⟩ := raise_inside (x := .break) (epc := s.pc c) hi
    exact ⟨_, exec_brk hlo hhi hr, hseq, hnest, hepc, hexc, hpn, s.raise_keeps_pantry c _ _ _ _⟩

end Sys2Proof.Machine
end

section
/-! PROOFS. What scalar instructions copy (O4) and where they go (O5). -/

namespace Sys2Proof.Machine

variable {s t : State} {c : Nat}

/-- An instruction that is ready and allowed, without token and operand checks, issues. -/
theorem issue_ready {w : DWord} {next : Int} {bad : Bool} {seen : State → State} (eff : State → State) (hr : s.Ready c w next)
    (hd : opcodeDefined w = true) (hbad : bad = false) :
    issue ⟨c, w, next, bad, none, false, none, false⟩ seen eff s = eff (s.issued c next) := by
  rw [issue, issueOr_ready _ _ _ _ hr hd hbad rfl rfl]
  rfl

/-! ## One register written beside those of every issue -/

section
variable {next : Int} {o : Nat} (v : DWord) (hnext : s.inCode c next = true) (ho : o ∉ issueRegs c)
include ho

theorem State.rd_issued_wr_issueRegs {j : Nat} (hj : j ∈ issueRegs c) :
    ((s.issued c next).wr o v).rd j = (s.issued c next).rd j :=
  State.rd_wr_other _ _ _ _ fun h => ho (h ▸ hj)

include hnext
theorem State.issued_wr : Issued s ((s.issued c next).wr o v) c next := by
  obtain ⟨hpc, hcount, hstat⟩ := State.issued_spec hnext
  refine ⟨?_, ?_, ?_⟩
  · rw [State.pc, State.fld, State.rd_issued_wr_issueRegs v ho (by simp [issueRegs])]
    exact hpc
  · rw [State.rd_issued_wr_issueRegs v ho (by simp [issueRegs]), hcount]
  · rw [State.rd_issued_wr_issueRegs v ho (by simp [issueRegs]), hstat]
end

theorem State.regsKept_issued_wr (next : Int) (o : Nat) (v : DWord) :
    RegsKept s ((s.issued c next).wr o v) (o :: issueRegs c) := by
  intro j hj
  simp only [List.mem_cons (l := issueRegs c), not_or] at hj
  rw [State.rd_wr_other _ _ _ _ hj.1, State.rd_issued _ _ _ _ hj.2]
theorem State.onlyRegs_issued_wr (next : Int) (o : Nat) (v : DWord) : OnlyRegs s ((s.issued c next).wr o v) :=
  (s.issued_onlyRegs c next).wr o v

/-! ## Instructions that copy (R244, R245) -/

theorem aReg_ne_issueRegs (c n : Nat) : Reg.SEQ_A c n ∉ issueRegs c := by
  simp only [issueRegs, Reg.SEQ_A, Reg.SEQ_PC, Reg.SEQ_ISSUED, Reg.SEQ_STAT, List.mem_cons, List.not_mem_nil, or_false]
  omega

theorem setWidth_eq_ofInt (x : DWord) : x.setWidth 32 = BitVec.ofInt 32 x.toInt := by
  apply BitVec.eq_of_toNat_eq
  rw [BitVec.toNat_setWidth, BitVec.toNat_ofInt, BitVec.toInt_eq_toNat_cond]
  have hx := x.isLt
  split <;> omega
theorem setWidth_add_sext32 (x : DWord) (m : Word) : (x + sext32 m).setWidth 32 = BitVec.ofInt 32 (x.toInt + m.toInt) := by
  rw [BitVec.setWidth_add _ _ (by decide), BitVec.ofInt_add, setWidth_eq_ofInt, setWidth_eq_ofInt, sext32,
    BitVec.toInt_signExtend_of_le (by decide)]
theorem setWidth_add_ofInt (x m : Word) :
    (x + m).setWidth 64 = BitVec.ofNat 64 (BitVec.ofInt 32 ((x.toNat : Int) + m.toInt)).toNat := by
  rw [BitVec.ofInt_add, BitVec.ofInt_toInt, BitVec.ofInt_natCast, BitVec.ofNat_toNat,
    BitVec.ofNat_toNat, BitVec.setWidth_eq]

/-- An instruction that is allowed and writes one general register. -/
theorem writesG_of_allowed {i : Instr} {c gd : Nat} {w : DWord} {bad : Bool} {v x : DWord} (hbad : bad = false) (hv : x = v)
    (hd : opcodeDefined w = true)
    (hx : exec i s = .next (issue ⟨c, w, s.pcNext c, bad, none, false, none, false⟩ id (fun t => t.setG c gd x) s)) :
    WritesG i s c w gd v := by
  subst hbad hv
  exact writesG_of_issue i s c w gd x hx hd

/-- Settles O4: SETA is `State.issued_wr` of its address register, and the others write one general register. -/
theorem registerInstructionsCopy : Obligations.RegisterInstructionsCopy := by
  unfold Obligations.RegisterInstructionsCopy
  intro c f s hf
  have hbad := RFmt.bad_zero f hf
  have hword (opc : Byte) (h : opcodeDefined (opc.setWidth 64) = true) := RFmt.word_defined f opc h
  have rdc {v : DWord} (hk : f.imm.toNat ≤ 3) (hv : (if f.imm.toNat = 0 then s.aoc (regionOf c.val)
      else if f.imm.toNat = 1 then s.cyc c.val else if f.imm.toNat = 2 then s.coreId c.val
      else s.rd (Reg.SEQ_ISSUED c.val)) = v) : WritesG (.rdc c f) s c (f.word 0x16) f.gd.val v :=
    writesG_of_allowed (bad := f.bad || decide (3 < f.imm.toNat)) (by simp [hbad, hk]) hv (hword 0x16 rfl) rfl
  refine ⟨fun hgd hr => ?seta, writesG_of_allowed hbad (setWidth_add_ofInt _ _) (hword 0x15 rfl) rfl,
    fun h => rdc (by simp [h]) (by simp [h]; rfl), fun h => rdc (by simp [h]) (by simp [h]),
    fun h => rdc (by simp [h]) (by simp [h]), fun h => rdc (by simp [h]) (by simp [h]),
    fun h => writesG_of_allowed (bad := f.bad || decide (16 ≤ f.imm.toNat)) (by simp [hbad, h]) ?tst (hword 0x17 rfl) rfl⟩
  case seta =>
    have hill : (f.bad || aregBad f.gd) = false := by simp [hbad, aregBad, hgd]
    refine ⟨_, congrArg Host.Outcome.next (issue_ready _ hr (hword 0x14 rfl) hill), ?_⟩
    rw [Nat.mod_eq_of_lt hgd, State.setA]
    refine ⟨State.issued_wr _ hr.there (aReg_ne_issueRegs _ _), ?_, State.regsKept_issued_wr _ _ _,
      OnlyRegs.pantry (State.onlyRegs_issued_wr _ _ _), State.onlyRegs_issued_wr _ _ _⟩
    rw [← setWidth_add_sext32, State.a, State.rd_wr_same]
    simp
  case tst => rw [Nat.mod_eq_of_lt h]

/-! ## Instructions that go somewhere (R246) -/

section
variable {c : CoreId} {f : BFmt} (hlo : f.resvLo = 0) (hhi : f.resvHi = 0)

/-- An instruction that only issues. -/
theorem goesTo_of_issue {i : Instr} {w : DWord} {next : Int} {bad : Bool} (hbad : bad = false) (hd : opcodeDefined w = true)
    (hx : exec i s = .next (issue ⟨c, w, next, bad, none, false, none, false⟩ id id s)) : GoesTo i s c w next := by
  intro hr
  rw [issue_ready _ hr hd hbad] at hx
  have honly := s.issued_onlyRegs c next
  exact ⟨_, hx, State.issued_spec hr.there, fun o ho => State.rd_issued _ _ _ _ ho, honly.pantry, honly⟩

include hlo hhi in
/-- A branch goes by its comparison. -/
theorem goesTo_of_branch {i : Instr} {opc : Byte} {cmp : DWord → DWord → Bool} {b : Bool}
    (hcmp : cmp (s.g c f.ga.val) (s.g c f.gb.val) = b) (hopc : opcodeDefined (opc.setWidth 64) = true)
    (hx : exec i s = .next (branch opc cmp c f s)) :
    GoesTo i s c (f.word opc) (if b then (s.pc c : Int) + f.ofs.toInt else s.pc c + 1) := by
  subst hcmp
  exact goesTo_of_issue (BFmt.bad_zero hlo hhi) (BFmt.word_defined f opc hopc) hx

theorem gReg_ne_issueRegs (c n : Nat) : Reg.SEQ_G c n ∉ issueRegs c := by
  simp only [issueRegs, Reg.SEQ_G, Reg.SEQ_PC, Reg.SEQ_ISSUED, Reg.SEQ_STAT, List.mem_cons, List.not_mem_nil, or_false]
  omega

/-- A field of SEQ.STAT other than STATE and HELD, after an issue. -/
theorem State.flag_issued_stat (g : Fld) (next : Int) (hg : g.lsb + g.width ≤ 64)
    (hheld : Fl.SEQ_STAT_HELD.lsb + Fl.SEQ_STAT_HELD.width ≤ g.lsb ∨ g.lsb + g.width ≤ Fl.SEQ_STAT_HELD.lsb)
    (hstate : Fl.SEQ_STAT_STATE.lsb + Fl.SEQ_STAT_STATE.width ≤ g.lsb ∨ g.lsb + g.width ≤ Fl.SEQ_STAT_STATE.lsb)
    (hnext : s.inCode c next = true) : (s.issued c next).flag (Reg.SEQ_STAT c) g = s.flag (Reg.SEQ_STAT c) g := by
  rw [State.flag, State.fld, (State.issued_spec hnext).stat,
    Fld.get_set_apart Fl.SEQ_STAT_STATE g _ _ (by decide) hg hstate,
    Fld.get_set_apart Fl.SEQ_STAT_HELD g _ _ (by decide) hg hheld]
  rfl
theorem State.seq_issued {next : Int} (hnext : s.inCode c next = true) : (s.issued c next).seq c = seqRun := by
  rw [State.seq, State.fld, (State.issued_spec hnext).stat, Fld.get_set _ _ _ (by decide)]
  rfl
theorem State.pc_issued {n : Nat} {next : Int} (hnext : s.inCode c next = true) (hn : next = n) :
    (s.issued c next).pc c = n := by
  have hpc := (State.issued_spec hnext).pc
  omega

/-- RETX returns to EPC and leaves the handler. -/
theorem State.returnExc_issued {c : CoreId} {next : Int} (hnext : s.inCode c next = true) :
    ((s.issued c next).returnExc c).pc c = s.fld (Reg.SEQ_EPC c) Fl.SEQ_EPC_PC ∧
    ((s.issued c next).returnExc c).inHandler c = false ∧ ((s.issued c next).returnExc c).seq c = seqRun ∧
    RegsKept s ((s.issued c next).returnExc c) (issueRegs c) ∧ OnlyRegs s ((s.issued c next).returnExc c) := by
  obtain ⟨-, -, hpcStat, -, -, -, -, -, -, -⟩ := seq_ne c
  have hepc : (s.issued c next).fld (Reg.SEQ_EPC c) Fl.SEQ_EPC_PC = s.fld (Reg.SEQ_EPC c) Fl.SEQ_EPC_PC := by
    rw [State.fld, State.rd_issued]
    · rfl
    · simp [issueRegs, Reg.SEQ_EPC, Reg.SEQ_PC, Reg.SEQ_ISSUED, Reg.SEQ_STAT]
  refine ⟨?_, ?_, ?_, fun o ho => ?_, ((s.issued_onlyRegs c next).setFld _ _ _).setFld _ _ _⟩
  · rw [State.pc, State.returnExc, State.setPc, State.fld_setFld_same _ _ _ _ (by decide), hepc]
    exact Nat.mod_eq_of_lt (Fld.get_lt Fl.SEQ_EPC_PC _)
  · rw [State.inHandler, State.flag, State.returnExc, State.setPc, State.fld_setFld_other _ _ _ _ _ _ hpcStat.symm,
      State.fld_setFld_same _ _ _ _ (by decide)]
    rfl
  · rw [State.seq, State.returnExc, State.setPc, State.fld_setFld_other _ _ _ _ _ _ hpcStat.symm,
      State.fld_setFld_apart _ _ Fl.SEQ_STAT_IN_HANDLER Fl.SEQ_STAT_STATE _ (by decide) (by decide) (by decide)]
    exact State.seq_issued hnext
  · have hpc : o ≠ Reg.SEQ_PC c := fun h => ho (by simp [issueRegs, h])
    have hstat : o ≠ Reg.SEQ_STAT c := fun h => ho (by simp [issueRegs, h])
    rw [State.returnExc, State.setPc, State.rd_setFld, if_neg hpc, State.rd_setFld, if_neg hstat,
      State.rd_issued _ _ _ _ ho]

/-- HALT leaves the sequencer HALTED at the next instruction. -/
theorem State.halt_issued {c : CoreId} {next : Int} :
    ((s.issued c next).setSeq c seqHalted).seq c = seqHalted ∧
    ((s.issued c next).setSeq c seqHalted).pc c = (s.issued c next).pc c ∧
    RegsKept s ((s.issued c next).setSeq c seqHalted) (issueRegs c) ∧
    OnlyRegs s ((s.issued c next).setSeq c seqHalted) := by
  obtain ⟨-, -, hpcStat, -, -, -, -, -, -, -⟩ := seq_ne c
  refine ⟨?_, ?_, fun o ho => ?_, (s.issued_onlyRegs c next).setFld _ _ _⟩
  · rw [State.seq, State.setSeq, State.fld_setFld_same _ _ _ _ (by decide)]
    rfl
  · rw [State.pc, State.setSeq, State.fld_setFld_other _ _ _ _ _ _ hpcStat]
    rfl
  · have hstat : o ≠ Reg.SEQ_STAT c := fun h => ho (by simp [issueRegs, h])
    rw [State.setSeq, State.rd_setFld, if_neg hstat, State.rd_issued _ _ _ _ ho]

/-- Settles O5: every instruction issues on to its next pc; CALL writes g31 besides, RETX leaves the handler, and HALT at the
limit raises CODE_BOUNDS (`issueOr_codeBounds`). -/
theorem branchesAndJumpsSetThePc : Obligations.BranchesAndJumpsSetThePc := by
  unfold Obligations.BranchesAndJumpsSetThePc
  refine ⟨fun c f s hlo hhi => ?branches, fun c f s hlo hhi => ?jumps⟩
  case branches =>
    refine ⟨goesTo_of_branch hlo hhi ?eq rfl rfl, goesTo_of_branch hlo hhi ?ne rfl rfl,
      goesTo_of_branch hlo hhi BitVec.slt_eq_decide rfl rfl, goesTo_of_branch hlo hhi ?ge rfl rfl,
      goesTo_of_branch hlo hhi BitVec.ult_eq_decide rfl rfl, goesTo_of_branch hlo hhi ?geu rfl rfl⟩
    case eq => exact decide_eq_decide.2 BitVec.toNat_inj.symm
    case ne => simp [bne, BitVec.toNat_inj, beq_eq_decide]
    case ge => simp [BitVec.slt_eq_decide, ← decide_not]
    case geu => simp [BitVec.ult_eq_decide, ← decide_not]
  case jumps =>
    have hbad := BFmt.bad_zero hlo hhi
    have hword (opc : Byte) (h : opcodeDefined (opc.setWidth 64) = true) := BFmt.word_defined f opc h
    refine ⟨goesTo_of_issue hbad (hword 0x26 rfl) rfl, fun hr => ?call, goesTo_of_issue hbad (hword 0x28 rfl) rfl,
      fun hin hr => ?retx, fun hr => ?halt, fun hr hlim hin he => ?limit, goesTo_of_issue hbad (hword 0x2B rfl) rfl⟩
    case call =>
      refine ⟨_, congrArg Host.Outcome.next (issue_ready _ hr (hword 0x27 rfl) hbad), ?_⟩
      have honly : OnlyRegs s ((s.issued c (s.pcOfs c f)).wr (Reg.SEQ_G c 31) (BitVec.ofNat 64 (s.pc c + 1))) :=
        State.onlyRegs_issued_wr _ _ _
      refine ⟨State.issued_wr _ hr.there (gReg_ne_issueRegs _ _), ?_, State.regsKept_issued_wr _ _ _, honly.pantry, honly⟩
      exact State.g_setG _ _ _ _
    case retx =>
      have hill : (f.bad || !s.inHandler c) = false := by simp [hbad, hin]
      obtain ⟨hpc, hout, hseq, hregs, honly⟩ := State.returnExc_issued hr.there
      exact ⟨_, congrArg Host.Outcome.next (issue_ready _ hr (hword 0x29 rfl) hill), hpc, hout, hseq, hregs, honly.pantry,
        honly⟩
    case halt =>
      obtain ⟨hseq, hpc, hregs, honly⟩ := State.halt_issued (s := s) (c := c) (next := s.pcNext c)
      exact ⟨_, congrArg Host.Outcome.next (issue_ready _ hr (hword 0x2A rfl) hbad), hseq,
        hpc.trans (State.pc_issued hr.there rfl), hregs, honly.pantry, honly⟩
    case limit =>
      exact ⟨_, congrArg Host.Outcome.next (issueOr_codeBounds _ _ _ hr (hword 0x2A rfl) hlim), raise_enters .codeBounds he hin⟩

end

end Sys2Proof.Machine
end

section
/-! PROOFS. Loads and stores: the data they move (O6) and the errors they meet (O7). -/

namespace Sys2Proof.Machine

variable {s t : State} {c : Nat}

/-! ## What an issue that writes one general register leaves -/

theorem writesG_of_issued {i : Instr} {w : DWord} {gd : Nat} {v : DWord}
    (hx : s.Ready c w (s.pcNext c) → exec i s = .next ((s.issued c (s.pcNext c)).setG c gd v)) : WritesG i s c w gd v := by
  intro hr
  have honly := (s.issued_onlyRegs c (s.pcNext c)).setG c gd v
  refine ⟨_, hx hr, (State.issued_spec hr.there).setG gd v, State.g_setG _ _ _ _, fun o ho => ?_, honly.pantry, honly⟩
  by_cases hgd : gd = 0
  · rw [if_pos hgd] at ho
    rw [State.rd_setG _ _ _ _ _ (.inl hgd), State.rd_issued _ _ _ _ ho]
  · rw [if_neg hgd, List.mem_cons, not_or] at ho
    rw [State.rd_setG _ _ _ _ _ (.inr ho.1), State.rd_issued _ _ _ _ ho.2]

/-! ## The word of an aligned access -/

theorem wordsOf_within {o n : Nat} (hn : 0 < n) (hfit : o % 8 + n ≤ 8) : wordsOf o n = [o / 8 * 8] := by
  have hspan : (o + n - 1) / 8 - o / 8 + 1 = 1 := by omega
  rw [wordsOf, if_neg (by omega), hspan]
  rfl
theorem State.ecc_word (s : State) (d o : Nat) : s.ecc d (o / 8 * 8) = s.ecc d o := by
  have hkey : pantryKey d (o / 8 * 8) / 8 = pantryKey d o / 8 := by
    unfold pantryKey pantrySize
    omega
  rw [State.ecc, hkey]
  rfl

/-! ## A store of bytes -/

theorem State.dumpHeld_setByte (s : State) (c o d x : Nat) (b : Byte) : (s.setByte c o b).dumpHeld d x = s.dumpHeld d x := by
  rw [State.dumpHeld, (s.onlyPantry_setByte c o b).flag]
  rfl

/-- Every byte after a store of a range within the Pantry. -/
theorem State.byte_putBytes_all (c d p : Nat) (hp : p < pantrySize) (bs : List Byte) : ∀ (s : State) (o : Nat),
    o + bs.length ≤ pantrySize → (s.putBytes c o bs).byte d p =
      if d = c ∧ o ≤ p ∧ p < o + bs.length ∧ s.dumpHeld c p = false then bs.getD (p - o) 0 else s.byte d p := by
  induction bs with
  | nil =>
    intro s o _
    rw [if_neg]
    · rfl
    · rintro ⟨-, hlo, hhi, -⟩
      simp only [List.length_nil] at hhi
      omega
  | cons b bs ih =>
    intro s o ho
    simp only [List.length_cons] at ho ⊢
    rw [State.putBytes, ih _ _ (by omega), State.dumpHeld_setByte, State.byte_setByte]
    simp only [pantryKey_inj d c p o hp (by omega)]
    by_cases hhere : d = c ∧ p = o
    · obtain ⟨rfl, rfl⟩ := hhere
      cases hheld : s.dumpHeld d p <;> simp
    · rw [if_neg hhere, ite_self]
      refine ite_congr (propext ?_) (fun h => ?_) fun _ => rfl
      · constructor
        · rintro ⟨rfl, hlo, hhi, hheld⟩
          exact ⟨rfl, by omega, by omega, hheld⟩
        · rintro ⟨rfl, hlo, hhi, hheld⟩
          have hne : p ≠ o := fun h => hhere ⟨rfl, h⟩
          exact ⟨rfl, by omega, by omega, hheld⟩
      · obtain ⟨i, rfl⟩ : ∃ i, p = o + 1 + i := ⟨p - (o + 1), by omega⟩
        rw [show o + 1 + i - o = i + 1 by omega, List.getD_cons_succ, Nat.add_sub_cancel_left]

theorem OnlyPantry.dumpHeld (h : OnlyPantry s t) (d x : Nat) : t.dumpHeld d x = s.dumpHeld d x := by
  rw [State.dumpHeld, h.flag]
  rfl
theorem State.byte_of_pantry (h : t.pantry = s.pantry) (d x : Nat) : t.byte d x = s.byte d x := by
  rw [State.byte, h]
  rfl

theorem leBytes_length (n v : Nat) : (leBytes n v).length = n := by
  induction n generalizing v with
  | zero => rfl
  | succ n ih => rw [leBytes, List.length_cons, ih]
theorem leBytes_getD (n i : Nat) (hi : i < n) : ∀ v, (leBytes n v).getD i 0 = BitVec.ofNat 8 (v / 256 ^ i) := by
  induction n generalizing i with
  | zero => omega
  | succ n ih =>
    intro v
    cases i with
    | zero => simp [leBytes]
    | succ i =>
      rw [leBytes, List.getD_cons_succ, ih i (by omega), Nat.div_div_eq_div_mul, Nat.pow_succ']

/-! ## Accesses to a word without error, where no line is cached -/

section
variable {c : CoreId} {f : RFmt} {n : Nat}

/-- An access within one word: it is not wider than a word and as aligned as it is wide. -/
theorem State.AddrOk.fits (h : s.AddrOk c f n) (hn : n = 4 ∨ n = 8) :
    0 < n ∧ (s.loadAddr c f).toNat % 8 + n ≤ 8 ∧ (s.loadAddr c f).toNat + n ≤ pantrySize := by
  have hmod := h.toNat_mod
  have hlow := h.low
  have hhigh := h.high
  unfold pantrySize
  rcases hn with rfl | rfl <;> omega

/-- The check of an access's word where no line is cached. -/
theorem State.checkRange_clean {u : State} {d o : Nat} (hn : 0 < n) (hfit : o % 8 + n ≤ 8) (htracked : u.tracked = [])
    (hclean : u.ecc d o = .clean) : u.checkRange d o n = u := by
  rw [State.checkRange_marked, State.wantLines_untracked htracked]
  intro w hw
  rw [wordsOf_within hn hfit, List.mem_singleton] at hw
  exact .inl (by rw [hw, State.ecc_word, hclean])

section
variable (hf : f.resv = 0) (haddr : s.AddrOk c f n)
include hf haddr

/-- A load that is ready, of a word without error, issues and writes the value it read. -/
theorem load_clean {opc : Byte} (hn : n = 4 ∨ n = 8) (hlines : s.noHostLines) (hclean : s.ecc c (s.loadAddr c f).toNat = .clean)
    (hopc : opcodeDefined (opc.setWidth 64) = true) (hready : s.Ready c (f.word opc) (s.pcNext c)) :
    load opc n c f s = (s.issued c (s.pcNext c)).setG c f.gd.val
        (BitVec.ofNat 64 (leNat (s.bytes c (s.loadAddr c f).toNat n))) := by
  obtain ⟨hpos, hfit, -⟩ := haddr.fits hn
  have hpoison : s.poisonIn c (s.loadAddr c f).toNat n = false := by
    simp [State.poisonIn, wordsOf_within hpos hfit, State.poisonedAt_clean ((s.ecc_word _ _).trans hclean)]
  have hareg : aregBad f.ga = false := decide_eq_false (Nat.not_le.2 haddr.areg)
  have hcheck : firstCause [(s.eaBad c f n, .pantryRange), ((s.loadAddr c f).toNat % n != 0, .misaligned),
      (s.poisonIn c (s.loadAddr c f).toNat n, .poisonLoad)] = none := by
    simp [firstCause, haddr.inRange, haddr.toNat_mod, hpoison]
  rw [load, haddr.ea, hcheck, issue_ready _ hready (RFmt.word_defined f opc hopc) (by rw [RFmt.bad_zero f hf, hareg]; rfl),
    State.checkRange_clean hpos hfit]
  · rw [State.issued_tracked, hlines.1]
  · rw [State.ecc, State.issued_pantryEcc]
    exact hclean

/-- A store that is ready issues and stores, unless a scrub of the Pantry holds it. -/
theorem storeG_issues {opc : Byte} (hopc : opcodeDefined (opc.setWidth 64) = true)
    (hready : s.Ready c (f.word opc) (s.pcNext c)) : storeG opc n c f s =
      if s.scrubbing c then s.held c else
        (s.issued c (s.pcNext c)).store c (s.loadAddr c f).toNat (leBytes n (s.g c f.gb.val).toNat) := by
  have hareg : aregBad f.ga = false := decide_eq_false (Nat.not_le.2 haddr.areg)
  have hcheck : firstCause [(s.eaBad c f n, .pantryRange), ((s.loadAddr c f).toNat % n != 0, .misaligned)] = none := by
    simp [firstCause, haddr.inRange, haddr.toNat_mod]
  rw [storeG, haddr.ea, hcheck, issue, issueOr_ready _ _ _ _ hready (RFmt.word_defined f opc hopc)
    (by rw [RFmt.bad_zero f hf, hareg]; rfl) rfl rfl]

end

/-- A store into a word without error leaves nothing but its bytes. -/
theorem State.storeNow_clean {u : State} {d o : Nat} {bs : List Byte} (hn : 0 < bs.length) (hfit : o % 8 + bs.length ≤ 8)
    (hin : o + bs.length ≤ pantrySize) (htracked : u.tracked = []) (hclean : u.ecc d o = .clean) :
    OnlyPantry u (u.storeNow d o bs) ∧ ∀ e p, p < pantrySize → (u.storeNow d o bs).byte e p =
      if e = d ∧ o ≤ p ∧ p < o + bs.length ∧ u.dumpHeld d p = false then bs.getD (p - o) 0 else u.byte e p := by
  have htouch : OnlyPantry u (u.touchWord d o bs.length (o / 8 * 8)) ∧
      (u.touchWord d o bs.length (o / 8 * 8)).pantry = u.pantry := by
    unfold State.touchWord
    split
    · exact ⟨u.onlyPantry_setEcc d _ .clean, rfl⟩
    · rw [State.checkWord_marked (h := .inl ((u.ecc_word d o).trans hclean))]
      exact ⟨OnlyPantry.refl u, rfl⟩
  have hstore : u.storeNow d o bs = (u.touchWord d o bs.length (o / 8 * 8)).putBytes d o bs := by
    rw [State.storeNow, State.wantLines_untracked htracked, State.touchWords, wordsOf_within hn hfit]
    rfl
  rw [hstore]
  refine ⟨htouch.1.trans (State.onlyPantry_putBytes d bs _ o), fun e p hp => ?_⟩
  rw [State.byte_putBytes_all d e p hp bs _ o hin, htouch.1.dumpHeld, State.byte_of_pantry htouch.2]

/-- Bytes of one word lie in a retained dump range together. -/
theorem State.dumpHeld_within (s : State) (d : Nat) {o p n : Nat} (hfit : o % 8 + n ≤ 8) (hlo : o ≤ p) (hhi : p < o + n) :
    s.dumpHeld d p = s.dumpHeld d o := by
  have hrange : (0x7800000 ≤ p) ↔ (0x7800000 ≤ o) := by omega
  simp only [State.dumpHeld, hrange]

end

theorem coreReg_ne_dumpStat {c k : Nat} : Reg.DUMP_STAT ≠ coreWin c + k := by
  unfold Reg.DUMP_STAT coreWin
  omega
theorem State.dumpHeld_issued (next : Int) (d p : Nat) : (s.issued c next).dumpHeld d p = s.dumpHeld d p := by
  rw [State.dumpHeld, State.flag, State.fld, State.rd_issued]
  · rfl
  · simp only [issueRegs, Reg.SEQ_PC, Reg.SEQ_ISSUED, Reg.SEQ_STAT, List.mem_cons, List.not_mem_nil, or_false, not_or]
    exact ⟨coreReg_ne_dumpStat, coreReg_ne_dumpStat, coreReg_ne_dumpStat⟩
theorem State.scrubbing_issued (next : Int) (d : Nat) : (s.issued c next).scrubbing d = s.scrubbing d := by
  rw [State.scrubbing, State.flag, State.fld, State.rd_issued]
  · rfl
  · simp only [issueRegs, Reg.SEQ_PC, Reg.SEQ_ISSUED, Reg.SEQ_STAT, Reg.CORE_STAT, coreWin, List.mem_cons,
      List.not_mem_nil, or_false, not_or]
    omega

theorem Issued.onlyPantry {u : State} {next : Int} (h : Issued s t c next) (hu : OnlyPantry t u) : Issued s u c next := by
  refine ⟨?_, (hu.rd _).trans h.count, (hu.rd _).trans h.stat⟩
  rw [State.pc, State.fld, hu.rd]
  exact h.pc

/-- A store that is ready, into a word without error: it issues and stores its bytes. -/
theorem storeG_clean {c : CoreId} {f : RFmt} {opc : Byte} {n : Nat} (hf : f.resv = 0) (hlines : s.noHostLines)
    (haddr : s.AddrOk c f n) (hn : n = 4 ∨ n = 8) (hclean : s.ecc c (s.loadAddr c f).toNat = .clean)
    (hscrub : s.scrubbing c = false) (hopc : opcodeDefined (opc.setWidth 64) = true)
    (hready : s.Ready c (f.word opc) (s.pcNext c)) :
    s.settle (storeG opc n c f s) = storeG opc n c f s ∧ Issued s (storeG opc n c f s) c (s.pcNext c) ∧
      RegsKept s (storeG opc n c f s) (issueRegs c) ∧ ∀ d p, p < 0x8000000 → (storeG opc n c f s).byte d p =
        if d = c.val ∧ (s.loadAddr c f).toNat ≤ p ∧ p < (s.loadAddr c f).toNat + n ∧
            s.dumpHeld c (s.loadAddr c f).toNat = false
        then BitVec.ofNat 8 ((s.g c f.gb.val).toNat / 256 ^ (p - (s.loadAddr c f).toNat)) else s.byte d p := by
  obtain ⟨hpos, hfit, hin⟩ := haddr.fits hn
  generalize ho : (s.loadAddr c f).toNat = o at hfit hin hclean ⊢
  have hlen := leBytes_length n (s.g c f.gb.val).toNat
  have hstore : storeG opc n c f s = (s.issued c (s.pcNext c)).storeNow c o (leBytes n (s.g c f.gb.val).toNat) := by
    rw [storeG_issues hf haddr hopc hready, ho, hscrub, State.store, State.scrubbing_issued, hscrub]
    rfl
  obtain ⟨honly, hbytes⟩ := State.storeNow_clean (u := s.issued c (s.pcNext c)) (d := c.val)
    (hlen.symm ▸ hpos) (hlen.symm ▸ hfit) (hlen.symm ▸ hin) (by rw [State.issued_tracked, hlines.1]) (by rw [State.ecc, State.issued_pantryEcc]; exact hclean)
  rw [hstore]
  refine ⟨State.settle_done (by rw [honly.biWant, State.issued_biWant, hlines.2]), ?_, fun o ho => ?_, fun d p hp => ?_⟩
  · exact (State.issued_spec hready.there).onlyPantry honly
  · rw [honly.rd, State.rd_issued _ _ _ _ ho]
  · rw [hbytes d p hp, hlen, State.dumpHeld_issued, State.byte_of_pantry (State.issued_pantry _ _ _)]
    refine ite_congr (propext ?_) (fun h => ?_) fun _ => rfl
    · constructor
      · rintro ⟨hd, hlo, hhi, hheld⟩
        exact ⟨hd, hlo, hhi, (s.dumpHeld_within c hfit hlo hhi) ▸ hheld⟩
      · rintro ⟨hd, hlo, hhi, hheld⟩
        exact ⟨hd, hlo, hhi, (s.dumpHeld_within c hfit hlo hhi).trans hheld⟩
    · rw [leBytes_getD _ _ (by omega)]

/-- A full queue or a scrub holds an instruction: the core is HELD at it. -/
theorem State.held_spec (s : State) (c : CoreId) : (s.held c).flag (Reg.SEQ_STAT c) Fl.SEQ_STAT_HELD = true ∧
    (s.held c).pc c = s.pc c ∧ (s.held c).rd (Reg.SEQ_ISSUED c) = s.rd (Reg.SEQ_ISSUED c) ∧ PantryKept s (s.held c) := by
  have hrd {o : Nat} (h : o ≠ Reg.SEQ_STAT c) : (s.held c).rd o = s.rd o := by
    rw [State.held, State.setSeq, State.rd_setFld, if_neg h, State.rd_setFld, if_neg h]
  refine ⟨?_, ?_, hrd (by simp [Reg.SEQ_ISSUED, Reg.SEQ_STAT]), fun d o => ?_⟩
  · rw [State.flag, State.held, State.setSeq,
      State.fld_setFld_apart _ _ Fl.SEQ_STAT_STATE Fl.SEQ_STAT_HELD _ (by decide) (by decide) (by decide),
      State.fld_setFld_same _ _ _ _ (by decide)]
    rfl
  · rw [State.pc, State.fld, hrd (seq_ne c).2.2.1]
    rfl
  · rw [State.byte, State.held, State.setSeq_pantry, State.setFld_pantry]
    rfl

/-- A load of a word without error takes its whole effect and begins no storm. -/
theorem load_takesEffect {c : CoreId} {f : RFmt} {opc : Byte} {n : Nat} (hf : f.resv = 0) (hlines : s.noHostLines)
    (haddr : s.AddrOk c f n) (hn : n = 4 ∨ n = 8) (hclean : s.ecc c (s.loadAddr c f).toNat = .clean)
    (hopc : opcodeDefined (opc.setWidth 64) = true) (hready : s.Ready c (f.word opc) (s.pcNext c)) :
    s.stormAfter (s.settle (load opc n c f s)) c = (s.issued c (s.pcNext c)).setG c f.gd.val
        (BitVec.ofNat 64 (leNat (s.bytes c (s.loadAddr c f).toNat n))) := by
  have honly (v : DWord) := (s.issued_onlyRegs c (s.pcNext c)).setG c f.gd.val v
  rw [load_clean hf haddr hn hlines hclean hopc hready, State.settle_done, State.stormAfter_calm]
  · rw [honly]
  · rw [honly]
    exact hlines.2

/-- Settles O6: loads and stores issue (`load_takesEffect`, `storeG_clean`), and a scrub holds a store (`State.held_spec`). -/
theorem loadsAndStoresMoveData : Obligations.LoadsAndStoresMoveData := by
  unfold Obligations.LoadsAndStoresMoveData
  refine ⟨fun c f s hf hlines => ⟨fun haddr hclean => ?ld, fun haddr hclean => ?ldw⟩, fun c f s hf hlines => ?stores,
    fun c f s hf hlines => ?scrubs⟩
  case ld =>
    exact writesG_of_issued fun hr => congrArg Host.Outcome.next (load_takesEffect hf hlines haddr (.inr rfl) hclean rfl hr)
  case ldw =>
    exact writesG_of_issued fun hr => congrArg Host.Outcome.next (load_takesEffect hf hlines haddr (.inl rfl) hclean rfl hr)
  case stores =>
    simp only [List.forall_mem_cons, List.not_mem_nil, false_implies, implies_true, and_true]
    refine ⟨fun haddr hclean hscrub hr => ?_, fun haddr hclean hscrub hr => ?_⟩
    · obtain ⟨hsettle, hrest⟩ := storeG_clean hf hlines haddr (.inr rfl) hclean hscrub rfl hr
      exact ⟨_, congrArg Host.Outcome.next hsettle, hrest⟩
    · obtain ⟨hsettle, hrest⟩ := storeG_clean hf hlines haddr (.inl rfl) hclean hscrub rfl hr
      exact ⟨_, congrArg Host.Outcome.next hsettle, hrest⟩
  case scrubs =>
    simp only [List.forall_mem_cons, List.not_mem_nil, false_implies, implies_true, and_true]
    have hwant : (s.held c).biWant = [] := by rw [State.held, State.setSeq_biWant, State.setFld_biWant, hlines.2]
    have held {opc : Byte} {n : Nat} (haddr : s.AddrOk c f n) (hscrub : s.scrubbing c = true)
        (hopc : opcodeDefined (opc.setWidth 64) = true) (hr : s.Ready c (f.word opc) (s.pcNext c)) :
        s.settle (storeG opc n c f s) = s.held c := by
      rw [storeG_issues hf haddr hopc hr, if_pos hscrub, State.settle_done hwant]
    exact ⟨fun haddr hscrub hr => ⟨_, congrArg Host.Outcome.next (held haddr hscrub rfl hr), s.held_spec c⟩,
      fun haddr hscrub hr => ⟨_, congrArg Host.Outcome.next (held haddr hscrub rfl hr), s.held_spec c⟩⟩

/-! ## Loads that meet an error of a word (R195, R244) -/

theorem State.faultRelease_keeps (s : State) (c : Nat) :
    (s.faultRelease c).faults = s.faults ∧ (s.faultRelease c).biWant = s.biWant := by
  unfold State.faultRelease State.zeroClaim
  split <;> simp
/-- An exception leaves the record of faults and asks for no line of the host. -/
theorem State.raise_keeps (s : State) (c : Nat) (x : Cause) (epc tok win : Nat) :
    (s.raise c x epc tok win).faults = s.faults ∧ (s.raise c x epc tok win).biWant = s.biWant := by
  suffices ∀ u, u = s.raise c x epc tok win → u.faults = s.faults ∧ u.biWant = s.biWant from this _ rfl
  intro u hu
  unfold State.raise at hu
  simp only at hu
  split at hu
  · rw [hu]; simp [State.faultRelease_keeps]
  · split at hu <;> rw [hu] <;> simp [State.faultRelease_keeps]

/-- An exception that a load or a store raises takes its whole effect and begins no storm. -/
theorem State.stormAfter_raise (s : State) (c d : Nat) (x : Cause) (epc tok win : Nat) (hwant : s.biWant = []) :
    s.settle (s.raise c x epc tok win) = s.raise c x epc tok win ∧
      s.stormAfter (s.settle (s.raise c x epc tok win)) d = s.raise c x epc tok win := by
  obtain ⟨hfaults, hstill⟩ := s.raise_keeps c x epc tok win
  have hsettle : s.settle (s.raise c x epc tok win) = s.raise c x epc tok win :=
    State.settle_done (hstill.trans hwant)
  exact ⟨hsettle, by rw [hsettle, State.stormAfter_calm hfaults]⟩

section
variable {c : CoreId} {f : RFmt} {n : Nat} (hf : f.resv = 0)
include hf

/-- A load that meets a poisoned word raises POISON_LOAD. -/
theorem load_poisoned {opc : Byte} (hlines : s.noHostLines) (haddr : s.AddrOk c f n) (hn : n = 4 ∨ n = 8)
    (hpoison : s.ecc c (s.loadAddr c f).toNat = .poisoned) (hopc : opcodeDefined (opc.setWidth 64) = true)
    (hready : s.Ready c (f.word opc) (s.pcNext c)) : load opc n c f s = s.raise c .poisonLoad (s.pc c) 0 0 := by
  obtain ⟨hpos, hfit, -⟩ := haddr.fits hn
  have hmark : s.ecc c ((s.loadAddr c f).toNat / 8 * 8) = .poisoned := (s.ecc_word _ _).trans hpoison
  have hwords := wordsOf_within hpos hfit
  have hin : s.poisonIn c (s.loadAddr c f).toNat n = true := by
    simp [State.poisonIn, hwords, State.poisonedAt_poisoned hmark]
  have hareg : aregBad f.ga = false := decide_eq_false (Nat.not_le.2 haddr.areg)
  have hcheck : firstCause [(s.eaBad c f n, .pantryRange), ((s.loadAddr c f).toNat % n != 0, .misaligned),
      (s.poisonIn c (s.loadAddr c f).toNat n, .poisonLoad)] = some .poisonLoad := by
    simp [firstCause, haddr.inRange, haddr.toNat_mod, hin]
  have hseen : s.checkRange c (s.loadAddr c f).toNat n = s := by
    rw [State.checkRange_marked, State.wantLines_untracked hlines.1]
    intro w hw
    rw [hwords, List.mem_singleton] at hw
    exact .inr (by rw [hw, hmark])
  rw [load, haddr.ea, hcheck, issue, issueOr_check _ _ _ _ .poisonLoad hready (RFmt.word_defined f opc hopc)
    (by rw [RFmt.bad_zero f hf, hareg]; rfl) rfl rfl, if_pos rfl, hseen]
  rfl

/-- A load that meets a corrected error issues, and its word is corrected. -/
theorem load_corrected (hlines : s.noHostLines) (haddr : s.AddrOk c f 8)
    (hmark : s.ecc c (s.loadAddr c f).toNat = .correctable) (hready : s.Ready c (f.word 0x10) (s.pcNext c)) :
    load 0x10 8 c f s = ((s.issued c (s.pcNext c)).checkWord c (s.loadAddr c f).toNat).setG c f.gd.val
        (BitVec.ofNat 64 (leNat (s.bytes c (s.loadAddr c f).toNat 8))) := by
  have hwords : wordsOf (s.loadAddr c f).toNat 8 = [(s.loadAddr c f).toNat] := wordsOf_aligned _ 1 haddr.toNat_mod
  have hpoison : s.poisonIn c (s.loadAddr c f).toNat 8 = false := by
    simp [State.poisonIn, hwords, State.poisonedAt, hmark]
  have hareg : aregBad f.ga = false := decide_eq_false (Nat.not_le.2 haddr.areg)
  have hcheck : firstCause [(s.eaBad c f 8, .pantryRange), ((s.loadAddr c f).toNat % 8 != 0, .misaligned),
      (s.poisonIn c (s.loadAddr c f).toNat 8, .poisonLoad)] = none := by
    simp [firstCause, haddr.inRange, haddr.toNat_mod, hpoison]
  have htracked : (s.issued c (s.pcNext c)).tracked = [] := by rw [State.issued_tracked, hlines.1]
  rw [load, haddr.ea, hcheck, issue_ready _ hready (RFmt.word_defined f 0x10 rfl) (by rw [RFmt.bad_zero f hf, hareg]; rfl),
    State.checkRange, State.wantLines_untracked htracked, hwords]
  rfl

end

/-- The counts of a core's errors that are not full begin no storm (R571). -/
theorem State.calm_noteError {u : State} (hce : (sread (fun _ => []) u.faults.eccTimes (2 * c)).length < 15)
    (hue : (sread (fun _ => []) u.faults.eccTimes (2 * c + 1)).length < 4) : (u.noteError c false).storming c = false := by
  have hread (k : Nat) : sread (fun _ => []) (u.noteError c false).faults.eccTimes k =
      if k = 2 * c then (u.now :: sread (fun _ => []) u.faults.eccTimes (2 * c)).take 16
      else sread (fun _ => []) u.faults.eccTimes k := by
    simp only [State.noteError, Bool.false_eq_true, if_false, sread_swrite]
  have hce' : ((u.now :: sread (fun _ => []) u.faults.eccTimes (2 * c)).take 16).length < 16 := by
    simp only [List.length_take, List.length_cons]
    omega
  simp only [State.storming, hread, if_true, if_neg (show 2 * c + 1 ≠ 2 * c by omega), decide_eq_false (Nat.not_le.2 hce'),
    decide_eq_false (Nat.not_le.2 hue), Bool.false_and, Bool.or_false]

section
variable {u : State} {c : CoreId} {o : Nat}

/-- A word with a corrected error, once it has been read: clean, counted and noted. -/
def State.corrected (u : State) (c o : Nat) : State :=
  ((u.setEcc c o .clean).setFld (Reg.CORE_STAT c) Fl.CORE_STAT_ECC_CE 1).bump (Reg.CORE_ECC_COUNT c)
    Fl.CORE_ECC_COUNT_CE

theorem State.checkWord_corrected (hmark : u.ecc c o = .correctable) :
    u.checkWord c o = (u.corrected c o).noteError c false := by
  unfold State.checkWord
  rw [hmark]
  rfl
theorem State.corrected_faults : (u.corrected c o).faults = u.faults := by
  rw [State.corrected, State.bump_faults, State.setFld_faults, State.setEcc_faults]
theorem State.corrected_spec : (u.corrected c o).ecc c o = .clean ∧
    (u.corrected c o).fld (Reg.CORE_ECC_COUNT c) Fl.CORE_ECC_COUNT_CE =
      min (u.fld (Reg.CORE_ECC_COUNT c) Fl.CORE_ECC_COUNT_CE + 1) (2 ^ Fl.CORE_ECC_COUNT_CE.width - 1) ∧
    (u.corrected c o).pantry = u.pantry ∧ (u.corrected c o).biWant = u.biWant := by
  have hother : Reg.CORE_ECC_COUNT c ≠ Reg.CORE_STAT c := by simp [Reg.CORE_ECC_COUNT, Reg.CORE_STAT]
  refine ⟨?_, ?_, ?_, ?_⟩
  · rw [State.ecc, State.corrected, State.bump_pantryEcc, State.setFld_pantryEcc, State.setEcc, sread_swrite, if_pos rfl]
  · rw [State.corrected, State.fld_bump_same _ _ _ _ (by decide), State.fld_setFld_other _ _ _ _ _ _ hother]
    rfl
  · rw [State.corrected, State.bump_pantry, State.setFld_pantry, State.setEcc_pantry]
  · rw [State.corrected, State.bump_biWant, State.setFld_biWant, State.setEcc_biWant]

end

theorem OnlyRegs.faults (h : OnlyRegs s t) : t.faults = s.faults := by rw [h]
theorem OnlyRegs.biWant (h : OnlyRegs s t) : t.biWant = s.biWant := by rw [h]
theorem OnlyRegs.ecc (h : OnlyRegs s t) (d o : Nat) : t.ecc d o = s.ecc d o := by
  rw [h]
  rfl
theorem State.biWant_noteError (s : State) (c : Nat) (ue : Bool) : (s.noteError c ue).biWant = s.biWant := rfl
theorem State.rd_noteError (s : State) (c : Nat) (ue : Bool) (o : Nat) : (s.noteError c ue).rd o = s.rd o := rfl
theorem State.ecc_noteError (s : State) (c : Nat) (ue : Bool) (d o : Nat) : (s.noteError c ue).ecc d o = s.ecc d o := rfl
theorem State.pantry_noteError (s : State) (c : Nat) (ue : Bool) : (s.noteError c ue).pantry = s.pantry := rfl
/-- A storm is judged by the noted errors alone. -/
theorem State.storming_congr (h : t.faults = s.faults) (c : Nat) : t.storming c = s.storming c := by
  simp only [State.storming, h]

/-- What a load that met a corrected error leaves. -/
theorem exec_ld_corrected {c : CoreId} {f : RFmt} (hf : f.resv = 0) (hlines : s.noHostLines) (haddr : s.AddrOk c f 8)
    (hmark : s.ecc c (s.loadAddr c f).toNat = .correctable) (hready : s.Ready c (f.word 0x10) (s.pcNext c))
    (hce : (sread (fun _ => []) s.faults.eccTimes (2 * c.val)).length < 15)
    (hue : (sread (fun _ => []) s.faults.eccTimes (2 * c.val + 1)).length < 4) :
    exec (.ld c f) s = .next ((((s.issued c (s.pcNext c)).corrected c (s.loadAddr c f).toNat).noteError c false).setG c
      f.gd.val (BitVec.ofNat 64 (leNat (s.bytes c (s.loadAddr c f).toNat 8)))) := by
  have hfaults : ((s.issued c (s.pcNext c)).corrected c (s.loadAddr c f).toNat).faults = s.faults := by
    rw [State.corrected_faults, State.issued_faults]
  have hmark' : (s.issued c (s.pcNext c)).ecc c (s.loadAddr c f).toNat = .correctable := by
    rw [State.ecc, State.issued_pantryEcc]
    exact hmark
  have hcalm := State.calm_noteError (c := c.val) (hfaults.symm ▸ hce) (hfaults.symm ▸ hue)
  have hwant : ((s.issued c (s.pcNext c)).corrected c (s.loadAddr c f).toNat).biWant = [] := by
    rw [State.corrected_spec.2.2.2, State.issued_biWant, hlines.2]
  generalize hv : (s.issued c (s.pcNext c)).corrected c (s.loadAddr c f).toNat = v at hfaults hcalm hwant ⊢
  have honly (x : DWord) := (OnlyRegs.refl (v.noteError c false)).setG c f.gd.val x
  change Host.Outcome.next (s.stormAfter (s.settle (load 0x10 8 c f s)) c) = _
  rw [load_corrected hf hlines haddr hmark hready, State.checkWord_corrected hmark', hv, State.settle_done, State.stormAfter]
  · split
    · rfl
    · rw [State.storming_congr (honly _).faults, hcalm]
      rfl
  · rw [(honly _).biWant, State.biWant_noteError, hwant]

/-- What a load or a store that cannot be made raises (R244, R268). -/
theorem load_raises {c : CoreId} {f : RFmt} {opc : Byte} {n : Nat} {x : Cause} (hf : f.resv = 0) (hareg : f.ga.val < 8)
    (hx : x = .pantryRange ∧ s.eaBad c f n = true ∨
      x = .misaligned ∧ s.eaBad c f n = false ∧ (s.ea c f).toNat % n ≠ 0)
    (hopc : opcodeDefined (opc.setWidth 64) = true) (hr : s.Ready c (f.word opc) (s.pcNext c)) :
    load opc n c f s = s.raise c x (s.pc c) 0 0 ∧ storeG opc n c f s = s.raise c x (s.pc c) 0 0 := by
  have hbad : (f.bad || aregBad f.ga) = false := by
    rw [RFmt.bad_zero f hf, aregBad, decide_eq_false (Nat.not_le.2 hareg)]
    rfl
  have hfirst (l : List (Bool × Cause)) :
      firstCause ((s.eaBad c f n, .pantryRange) :: ((s.ea c f).toNat % n != 0, .misaligned) :: l) = some x := by
    rcases hx with ⟨rfl, h⟩ | ⟨rfl, h, h'⟩ <;> simp +contextual [firstCause, h]
    exact fun h0 => absurd h0 h'
  have hne : x ≠ .poisonLoad := by
    rcases hx with ⟨rfl, -⟩ | ⟨rfl, -⟩ <;> decide
  constructor
  · rw [load, hfirst, issue, issueOr_check _ _ _ _ x hr (RFmt.word_defined f opc hopc) hbad rfl rfl]
    simp [hne]
  · rw [storeG, hfirst, issue, issueOr_check _ _ _ _ x hr (RFmt.word_defined f opc hopc) hbad rfl rfl]
    rfl

/-- The range of an access leaves the Pantry, or its register does (R231). -/
theorem State.eaBad_iff (hareg : f.ga.val < 8) (n : Nat) : s.eaBad c f n = true ↔
    0x8000000 ≤ (s.a c f.ga.val).toNat ∨ s.loadAddr c f < 0 ∨ 0x8000000 < s.loadAddr c f + n := by
  have hea : s.ea c f = s.loadAddr c f := by rw [State.ea, Nat.mod_eq_of_lt hareg]; rfl
  rw [State.eaBad, hea, Nat.mod_eq_of_lt hareg, Bool.or_eq_true, Bool.or_eq_true, decide_eq_true_eq, decide_eq_true_eq,
    decide_eq_true_eq, or_assoc]
  rfl

/-- The two address exceptions of a load and a store of `n` bytes, in their order (R244, R268). -/
theorem load_addresses {c : CoreId} {f : RFmt} {opc : Byte} (n : Nat) (hf : f.resv = 0) (hareg : f.ga.val < 8)
    (hopc : opcodeDefined (opc.setWidth 64) = true) (hr : s.Ready c (f.word opc) (s.pcNext c)) :
    let out := 0x8000000 ≤ (s.a c f.ga.val).toNat ∨ s.loadAddr c f < 0 ∨ 0x8000000 < s.loadAddr c f + n
    (out → load opc n c f s = s.raise c .pantryRange (s.pc c) 0 0 ∧ storeG opc n c f s = s.raise c .pantryRange (s.pc c) 0 0) ∧
    (¬out → s.loadAddr c f % n ≠ 0 →
      load opc n c f s = s.raise c .misaligned (s.pc c) 0 0 ∧ storeG opc n c f s = s.raise c .misaligned (s.pc c) 0 0) := by
  intro out
  refine ⟨fun h => load_raises hf hareg (.inl ⟨rfl, (State.eaBad_iff hareg n).2 h⟩) hopc hr, fun h hmod =>
    load_raises hf hareg (.inr ⟨rfl, Bool.eq_false_iff.2 fun hb => h ((State.eaBad_iff hareg n).1 hb), fun h0 => hmod ?_⟩) hopc hr⟩
  have hea : s.ea c f = s.loadAddr c f := by rw [State.ea, Nat.mod_eq_of_lt hareg]; rfl
  rw [← Int.toNat_of_nonneg (not_lt.1 fun hneg => h (.inr (.inl hneg))), ← hea, ← Int.natCast_mod, h0]
  rfl

/-- Settles O7: a corrected error by `load_corrected`, a poisoned word by `load_poisoned`, and the address exceptions by
`load_addresses`. -/
theorem loadsAndStoresMeetErrors : Obligations.LoadsAndStoresMeetErrors := by
  unfold Obligations.LoadsAndStoresMeetErrors
  refine ⟨fun c f s hf hlines haddr hready => ⟨fun hmark hce hue => ?corrected, fun hmark he hi => ?poisoned⟩,
    fun c f s hf hareg he hi hlines => ?addresses⟩
  case corrected =>
    generalize hu : s.issued c (s.pcNext c) = u
    have hcore : ∀ o, o ∉ issueRegs c → u.rd o = s.rd o := fun o ho => by rw [← hu, State.rd_issued _ _ _ _ ho]
    obtain ⟨hecc, hce', hpantry, -⟩ := State.corrected_spec (u := u) (c := c) (o := (s.loadAddr c f).toNat)
    have honly (x : DWord) := (OnlyRegs.refl ((u.corrected c (s.loadAddr c f).toNat).noteError c false)).setG c f.gd.val x
    refine ⟨_, exec_ld_corrected hf hlines haddr hmark hready hce hue, ?_, ?_, ?_, fun d p => ?_⟩
    all_goals rw [hu]
    · exact State.g_setG _ _ _ _
    · rw [(honly _).ecc, State.ecc_noteError, hecc]
    · rw [State.fld, State.rd_setG, State.rd_noteError, ← State.fld, hce', State.fld, hcore]
      · rfl
      · simp [issueRegs, Reg.CORE_ECC_COUNT, Reg.SEQ_PC, Reg.SEQ_ISSUED, Reg.SEQ_STAT]
      · right
        unfold Reg.CORE_ECC_COUNT Reg.SEQ_G
        omega
    · rw [(honly _).pantry, State.byte_of_pantry (State.pantry_noteError _ _ _), State.byte_of_pantry hpantry, ← hu,
        State.byte_of_pantry (State.issued_pantry _ _ _)]
  case poisoned =>
    refine ⟨_, congrArg Host.Outcome.next ?_, raise_enters .poisonLoad he hi⟩
    rw [State.ld, load_poisoned hf hlines haddr (.inr rfl) hmark rfl hready]
    exact (State.stormAfter_raise s c c _ _ _ _ hlines.2).2
  case addresses =>
    have load8 (x : Cause) := (State.stormAfter_raise s c c x (s.pc c) 0 0 hlines.2).2
    have store (x : Cause) := (State.stormAfter_raise s c c x (s.pc c) 0 0 hlines.2).1
    have enters {i : Instr} {x : Cause} (h : exec i s = .next (s.raise c x (s.pc c) 0 0)) :
        ∃ t, exec i s = .next t ∧ Entered s t c x (s.pc c) 0 0 ∧ PantryKept s t := ⟨_, h, raise_enters x he hi⟩
    simp only [List.forall_mem_cons, List.not_mem_nil, false_implies, implies_true, and_true]
    refine ⟨fun hr => ?ld, fun hr => ?ldw, fun hr => ?st, fun hr => ?stw⟩
    case ld =>
      obtain ⟨range, misaligned⟩ := load_addresses 8 hf hareg rfl hr
      exact ⟨fun h => enters (congrArg Host.Outcome.next (by rw [State.ld, (range h).1, load8])),
        fun h h' => enters (congrArg Host.Outcome.next (by rw [State.ld, (misaligned h h').1, load8]))⟩
    case ldw =>
      obtain ⟨range, misaligned⟩ := load_addresses 4 hf hareg rfl hr
      exact ⟨fun h => enters (congrArg Host.Outcome.next (by rw [State.ldw, (range h).1, load8])),
        fun h h' => enters (congrArg Host.Outcome.next (by rw [State.ldw, (misaligned h h').1, load8]))⟩
    case st =>
      obtain ⟨range, misaligned⟩ := load_addresses 8 hf hareg rfl hr
      exact ⟨fun h => enters (congrArg Host.Outcome.next (by rw [(range h).2, store])),
        fun h h' => enters (congrArg Host.Outcome.next (by rw [(misaligned h h').2, store]))⟩
    case stw =>
      obtain ⟨range, misaligned⟩ := load_addresses 4 hf hareg rfl hr
      exact ⟨fun h => enters (congrArg Host.Outcome.next (by rw [(range h).2, store])),
        fun h h' => enters (congrArg Host.Outcome.next (by rw [(misaligned h h').2, store]))⟩

end Sys2Proof.Machine
end

section
/-! PROOFS. Waiting for tokens (O8). -/

namespace Sys2Proof.Machine

variable {s t : State} {c : Nat}

/-! ## What a TWAIT looks at (R247) -/

theorem State.doneMask_eq (s : State) (c m : Nat) :
    s.doneMask c m = (List.range 16).filter fun t => m.testBit t && s.tok c t != tokPending := by
  rw [State.doneMask, maskList, List.filter_filter]
  simp only [Bool.and_comm]

theorem State.waitMet_any (s : State) (c m : Nat) : s.waitMet c m true = true ↔
    ∃ t < 16, (m.testBit t && s.tok c t != tokPending) = true := by
  simp [State.waitMet, State.doneMask_eq]

theorem State.waitMet_all (s : State) (c m : Nat) : s.waitMet c m false = true ↔
    ∀ t < 16, m.testBit t = true → s.tok c t ≠ tokPending := by
  rw [State.waitMet, if_neg Bool.false_ne_true, beq_iff_eq, State.doneMask, List.length_filter_eq_length_iff]
  simp [maskList]

theorem State.waitTrap_iff (s : State) (c m : Nat) : s.waitTrap c m = true ↔
    ∃ t < 16, m.testBit t = true ∧ s.tok c t = tokDone ∧ s.tokStatus c t ≠ stOk := by
  simp [State.waitTrap, maskList]

/-- The fields of a TWAIT's immediate that are legal. -/
theorem twait_legal {f : CFmt} (hf : f.resv = 0) (hj : f.join = false) (ht : f.tok = 0) (hm : f.imm.toNat % 65536 ≠ 0)
    (hs : f.imm.toNat / 2 ^ 18 < 3) :
    (f.bad false || f.tok != 0 || immF f.imm 0 16 == 0 || immF f.imm 18 2 == 3 || immF f.imm 20 12 != 0) = false := by
  have h0 : immF f.imm 0 16 ≠ 0 := by rw [immF]; omega
  have h18 : immF f.imm 18 2 ≠ 3 := by rw [immF]; omega
  have h20 : immF f.imm 20 12 = 0 := by rw [immF]; omega
  simp [CFmt.bad, hf, hj, ht, h0, h18, h20]

theorem immB_eq (imm : Word) (i : Nat) : immB imm i = imm.getLsbD i := rfl
theorem immF_mask (imm : Word) : immF imm 0 16 = imm.toNat % 65536 := by rw [immF]; omega

section
variable {c : CoreId} {f : CFmt} (hf : f.resv = 0) (hj : f.join = false) (ht : f.tok = 0)
  (hm : f.imm.toNat % 65536 ≠ 0) (hs : f.imm.toNat / 2 ^ 18 < 3) (hr : s.Ready c (f.word 0x30) (s.pcNext c))
  (hpass : (f.imm.getLsbD 17 && s.waitTrap c (f.imm.toNat % 65536)) = false)
include hf hj ht hm hs hr hpass

/-- A TWAIT that TRAP does not stop and whose condition is met writes the mask of its DONE tokens. -/
theorem exec_twait_met (hmet : s.waitMet c (f.imm.toNat % 65536) (f.imm.getLsbD 16) = true) :
    exec (.twait c f) s =
      .next ((s.issued c (s.pcNext c)).setG c f.gd.val (s.waitResult c (f.imm.toNat % 65536))) := by
  have hlegal := twait_legal hf hj ht hm hs
  rw [← immF_mask] at hpass hmet ⊢
  exact congrArg Host.Outcome.next ((issueOr_ready _ _ _ _ hr (CFmt.word_defined f 0x30 rfl)
    hlegal rfl (if_neg (Bool.eq_false_iff.1 hpass))).trans
      (if_neg (Bool.eq_false_iff.1 (congrArg not hmet))))
/-- A TWAIT that TRAP does not stop and whose condition is not met blocks. -/
theorem exec_twait_unmet (hmet : s.waitMet c (f.imm.toNat % 65536) (f.imm.getLsbD 16) = false) :
    exec (.twait c f) s = .next (s.block c
      ⟨c, f.imm.toNat % 65536, f.imm.getLsbD 16, f.imm.getLsbD 17, f.gd⟩ (immF f.imm 18 2)) := by
  have hlegal := twait_legal hf hj ht hm hs
  rw [← immF_mask] at hpass hmet ⊢
  exact congrArg Host.Outcome.next ((issueOr_ready _ _ _ _ hr (CFmt.word_defined f 0x30 rfl)
    hlegal rfl (if_neg (Bool.eq_false_iff.1 hpass))).trans (if_pos (congrArg not hmet)))
end

/-! ## A TWAIT that blocks (R247, R248) -/

/-- The sleep states of a region's cores are in no core window. -/
theorem sleepReg_ne_coreWin (c : CoreId) (d o : Nat) : coreWin d + o ≠ sleepReg c := by
  have hc := c.isLt
  unfold coreWin sleepReg Reg.STG_CORE_STATE regionWin
  omega

theorem sleepFld_lt (c : Nat) : (sleepFld c).lsb + (sleepFld c).width ≤ 64 := by
  simp only [sleepFld]
  omega

theorem State.sleep_setSleep (s : State) (c x : Nat) (hx : x < 8) : (s.setSleep c x).sleep c = x := by
  rw [State.sleep, State.setSleep, State.fld_setFld_same _ _ _ _ (sleepFld_lt c)]
  exact Nat.mod_eq_of_lt hx

theorem State.rd_setFld_other (o : Nat) (f : Fld) (x j : Nat) (h : j ≠ o) : (s.setFld o f x).rd j = s.rd j := by
  rw [State.rd_setFld, if_neg h]

/-- The sequencer of a core waits, not HELD. -/
def State.inWait (s : State) (c : Nat) : State := (s.setSeq c seqWait).setFld (Reg.SEQ_STAT c) Fl.SEQ_STAT_HELD 0
/-- A TWAIT is blocked. -/
def State.pushTwait (s : State) (w : Twait) : State := { s with twaits := s.twaits ++ [w] }

theorem State.rd_pushTwait (s : State) (w : Twait) (o : Nat) : (s.pushTwait w).rd o = s.rd o := rfl
theorem State.woken_pushTwait (s : State) (w : Twait) (d : Nat) : (s.pushTwait w).woken d = s.woken d := rfl
theorem State.now_pushTwait (s : State) (w : Twait) : (s.pushTwait w).now = s.now := rfl
theorem State.pantry_pushTwait (s : State) (w : Twait) : (s.pushTwait w).pantry = s.pantry := rfl
theorem State.twaits_pushTwait (s : State) (w : Twait) : (s.pushTwait w).twaits = s.twaits ++ [w] := rfl
theorem State.rd_inWait (s : State) (c o : Nat) (ho : o ≠ Reg.SEQ_STAT c) : (s.inWait c).rd o = s.rd o := by
  rw [State.inWait, State.rd_setFld_other _ _ _ _ ho, State.setSeq, State.rd_setFld_other _ _ _ _ ho]
theorem State.seq_inWait (s : State) (c : Nat) : (s.inWait c).seq c = seqWait := by
  rw [State.seq, State.inWait, State.fld_setFld_apart _ _ Fl.SEQ_STAT_HELD Fl.SEQ_STAT_STATE _ (by decide) (by decide)
    (by decide), State.setSeq, State.fld_setFld_same _ _ _ _ (by decide)]
  rfl
theorem State.inWait_twaits (s : State) (c : Nat) : (s.inWait c).twaits = s.twaits := by
  rw [State.inWait, State.setFld_twaits, State.setSeq_twaits]
theorem State.inWait_pantry (s : State) (c : Nat) : (s.inWait c).pantry = s.pantry := by
  rw [State.inWait, State.setFld_pantry, State.setSeq_pantry]
theorem State.sleepFor_inWait (s : State) (c x : Nat) : (s.inWait c).sleepFor c x = s.sleepFor c x := by
  have hne : Reg.CORE_ID c ≠ Reg.SEQ_STAT c := by
    unfold Reg.CORE_ID Reg.SEQ_STAT
    omega
  rw [State.sleepFor, State.bound, State.flag, State.fld, State.rd_inWait _ _ _ hne, State.bind, State.inWait, State.setFld_binds,
    State.setSeq_binds]
  rfl
theorem State.woken_inWait (s : State) (c d : Nat) : (s.inWait c).woken d = s.woken d := by
  rw [State.woken, State.inWait, State.setFld_wokeAt, State.setSeq_wokeAt]
  rfl
theorem State.now_inWait (s : State) (c : Nat) : (s.inWait c).now = s.now := by
  rw [State.inWait, State.setFld_now, State.setSeq_now]

/-- What SLEEP 0 or 1 asks for: Hold only for 1, and where the image permits it. -/
theorem State.sleepFor_lt (s : State) (c : Nat) {k : Nat} (hk : k < 2) :
    s.sleepFor c k = if k = 1 ∧ (s.bound c && (s.bind c).sleep.testBit 0) = true then 1 else 0 := by
  rw [State.sleepFor]
  obtain rfl | rfl : k = 0 ∨ k = 1 := by omega
  · simp
  · cases hb : s.bound c <;> simp

/-- A TWAIT with SLEEP below 2 blocks: its core waits in Run, or in Hold where it asks for it and its image permits it. -/
theorem State.block_eq (s : State) (c : Nat) (w : Twait) {k : Nat} (hk : k < 2) (hwoken : s.woken c ≠ some s.now) :
    s.block c w k =
      if k = 1 ∧ (s.bound c && (s.bind c).sleep.testBit 0) = true then ((s.inWait c).pushTwait w).setSleep c 1
      else (s.inWait c).pushTwait w := by
  have hold : ((s.inWait c).pushTwait w).sleepIn c 1 = ((s.inWait c).pushTwait w).setSleep c 1 := by
    rw [State.sleepIn, if_neg Nat.one_ne_zero, State.enter, if_neg]
    · rfl
    · rw [State.woken_pushTwait, State.woken_inWait, State.now_pushTwait, State.now_inWait]
      exact hwoken
  have hblock : s.block c w k = ((s.inWait c).pushTwait w).sleepIn c ((s.inWait c).sleepFor c k) := rfl
  rw [hblock, State.sleepFor_inWait, State.sleepFor_lt _ _ hk]
  split
  · exact hold
  · rfl

theorem State.Ready.inRun {w : DWord} {next : Int} (hr : s.Ready c w next) : s.sleep c = 0 := by
  have h := hr.boundary
  rw [State.atBoundary, Bool.and_eq_true, beq_iff_eq] at h
  exact h.1

/-- What a TWAIT that blocks in Run leaves. -/
theorem State.inWait_spec (s : State) (c : CoreId) (w : Twait) (hrun : s.sleep c = 0) :
    ((s.inWait c).pushTwait w).seq c = seqWait ∧ ((s.inWait c).pushTwait w).pc c = s.pc c ∧
    ((s.inWait c).pushTwait w).twaits = s.twaits ++ [w] ∧ ((s.inWait c).pushTwait w).sleep c = 0 ∧
    RegsKept s ((s.inWait c).pushTwait w) [Reg.SEQ_STAT c] ∧ PantryKept s ((s.inWait c).pushTwait w) := by
  have hrd (o : Nat) (ho : o ≠ Reg.SEQ_STAT c) : ((s.inWait c).pushTwait w).rd o = s.rd o :=
    (State.rd_pushTwait _ _ _).trans (s.rd_inWait c o ho)
  have hne : Reg.SEQ_PC c.val ≠ Reg.SEQ_STAT c := by
    unfold Reg.SEQ_PC Reg.SEQ_STAT
    omega
  refine ⟨?_, ?_, ?_, ?_, fun o ho => hrd o (List.ne_of_not_mem_cons ho), State.byte_of_pantry ?_⟩
  · rw [State.seq, State.fld, State.rd_pushTwait]
    exact s.seq_inWait c
  · rw [State.pc, State.fld, hrd _ hne]
    rfl
  · rw [State.twaits_pushTwait, State.inWait_twaits]
  · rw [State.sleep, State.fld, hrd _ (sleepReg_ne_coreWin c c _).symm]
    exact hrun
  · rw [State.pantry_pushTwait, State.inWait_pantry]

/-- What a core that enters Hold from its wait leaves. -/
theorem State.hold_spec {u : State} {c : CoreId} :
    (u.setSleep c 1).seq c = u.seq c ∧ (u.setSleep c 1).pc c = u.pc c ∧ (u.setSleep c 1).sleep c = 1 ∧
    RegsKept u (u.setSleep c 1) [sleepReg c] := by
  refine ⟨?_, ?_, State.sleep_setSleep _ _ _ (by decide), fun o ho => ?_⟩
  · rw [State.seq, State.setSleep, Reg.SEQ_STAT, State.fld_setFld_other _ _ _ _ _ _ (sleepReg_ne_coreWin c c _)]
    rfl
  · rw [State.pc, State.setSleep, Reg.SEQ_PC, State.fld_setFld_other _ _ _ _ _ _ (sleepReg_ne_coreWin c c _)]
    rfl
  · rw [State.setSleep, State.rd_setFld_other _ _ _ _ (List.ne_of_not_mem_cons ho)]

/-- What a TWAIT with SLEEP below 2 that blocks leaves. -/
theorem State.block_spec (s : State) (c : CoreId) (w : Twait) {k : Nat} (hk : k < 2) (hwoken : s.woken c ≠ some s.now)
    (hrun : s.sleep c = 0) : (s.block c w k).seq c = seqWait ∧ (s.block c w k).pc c = s.pc c ∧
    (s.block c w k).twaits = s.twaits ++ [w] ∧
    (s.block c w k).sleep c = (if k = 1 ∧ (s.bound c && (s.bind c).sleep.testBit 0) = true then 1 else 0) ∧
    RegsKept s (s.block c w k) [Reg.SEQ_STAT c, sleepReg c] ∧ PantryKept s (s.block c w k) := by
  obtain ⟨hseq, hpc, htw, hsleep, hregs, hpantry⟩ := s.inWait_spec c w hrun
  rw [State.block_eq _ _ _ hk hwoken]
  by_cases hhold : k = 1 ∧ (s.bound c && (s.bind c).sleep.testBit 0) = true
  · obtain ⟨hseq', hpc', hsleep', hregs'⟩ := State.hold_spec (u := (s.inWait c).pushTwait w) (c := c)
    rw [if_pos hhold, if_pos hhold]
    refine ⟨hseq'.trans hseq, hpc'.trans hpc, (State.setSleep_twaits _ _ _).trans htw, hsleep', fun o ho => ?_, fun d o => ?_⟩
    · simp only [List.mem_cons, List.not_mem_nil, or_false, not_or] at ho
      rw [hregs' o (by simp [ho.2]), hregs o (by simp [ho.1])]
    · rw [State.byte_of_pantry (State.setSleep_pantry _ _ _), hpantry]
  · rw [if_neg hhold, if_neg hhold]
    exact ⟨hseq, hpc, htw, hsleep, fun o ho => hregs o (by simp_all), hpantry⟩

/-- Settles O8: a TWAIT that issues writes one register, one that TRAP stops raises STATUS, and one that blocks is
`State.block_spec`. -/
theorem twaitCompletesOrBlocks : Obligations.TwaitCompletesOrBlocks := by
  unfold Obligations.TwaitCompletesOrBlocks
  refine ⟨fun c f s hf hj ht hm hs => ⟨fun hpass hany hall => ?completes, fun htrap hfails he hi hr => ?traps⟩,
    fun c f s hf hj ht hany hpend hfail hwoken hr k hk hsleep => ?blocks⟩
  case completes =>
    have hmet : s.waitMet c (f.imm.toNat % 65536) (f.imm.getLsbD 16) = true := by
      cases h : f.imm.getLsbD 16 with
      | true => exact (s.waitMet_any c _).2 (hany h)
      | false =>
        refine (s.waitMet_all c _).2 fun t ht16 hbit => ?_
        simpa [hbit] using hall h t ht16 hbit
    have htrap : (f.imm.getLsbD 17 && s.waitTrap c (f.imm.toNat % 65536)) = false := by
      rw [Bool.and_eq_false_iff]
      exact hpass.imp_right fun hp => Bool.eq_false_iff.2 fun h => hp ((s.waitTrap_iff c _).1 h)
    refine writesG_of_issued fun hr => ?_
    rw [exec_twait_met hf hj ht hm hs hr htrap hmet, State.waitResult, State.doneMask_eq]
  case traps =>
    have hcheck : (if immB f.imm 17 && s.waitTrap c (immF f.imm 0 16) then some Cause.status else none) = some .status := by
      rw [immF_mask, immB_eq, htrap, (s.waitTrap_iff c _).2 hfails]
      rfl
    exact ⟨_, congrArg Host.Outcome.next (issueOr_check _ _ _ _ _ hr (CFmt.word_defined f 0x30 rfl)
      (twait_legal hf hj ht hm hs) rfl hcheck), raise_enters .status he hi⟩
  case blocks =>
    have hbit (t : Nat) (ht16 : t < 16) : (f.imm.toNat % 65536).testBit t = f.imm.getLsbD t := by
      rw [Nat.testBit_mod_two_pow _ 16]
      simp [ht16, BitVec.getLsbD]
    obtain ⟨p, hp16, hpbit, hppend⟩ := hpend
    have hm : f.imm.toNat % 65536 ≠ 0 := fun h0 => by
      have := hbit p hp16
      rw [h0, hpbit, Nat.zero_testBit] at this
      exact Bool.false_ne_true this
    have hmet : s.waitMet c (f.imm.toNat % 65536) false = false :=
      Bool.eq_false_iff.2 fun h => (s.waitMet_all c _).1 h p hp16 ((hbit p hp16).trans hpbit) hppend
    have htrap : (f.imm.getLsbD 17 && s.waitTrap c (f.imm.toNat % 65536)) = false := by
      rw [Bool.eq_false_iff, ne_eq, Bool.and_eq_true, State.waitTrap_iff]
      rintro ⟨htrap, q, hq16, hqbit, hqdone, hqbad⟩
      exact hqbad (hfail htrap q hq16 ((hbit q hq16).symm.trans hqbit) hqdone)
    have hk18 : immF f.imm 18 2 = k := by rw [immF]; omega
    refine ⟨_, exec_twait_unmet hf hj ht hm (by omega) hr htrap (by rw [hany, hmet]), ?_⟩
    rw [hany, hk18]
    exact s.block_spec c _ hk hwoken (hr.inRun)

end Sys2Proof.Machine
end

section
/-! PROOFS. The rules of the tokens (R235): what an instruction that takes one leaves, and what the end of its operation does. -/

namespace Sys2Proof.Machine

variable {s t u : State} {c d k n : Nat}

/-! ## One token -/

theorem State.tok_setTok (s : State) (c k x y : Nat) (hx : x < 4) : (s.setTok c k x y).tok c k = x := by
  rw [State.tok, State.fld, State.setTok, State.rd_wr_same]
  simp only [Fld.get, Fl.SEQ_TOKEN_STATE, BitVec.toNat_ushiftRight, BitVec.toNat_ofNat, Nat.shiftRight_zero]
  omega
theorem State.tokStatus_setTok (s : State) (c k x y : Nat) (hx : x < 256) (hy : y < 256) :
    (s.setTok c k x y).tokStatus c k = y := by
  rw [State.tokStatus, State.fld, State.setTok, State.rd_wr_same]
  simp only [Fld.get, Fl.SEQ_TOKEN_STATUS, BitVec.toNat_ushiftRight, BitVec.toNat_ofNat, Nat.shiftRight_eq_div_pow]
  omega
theorem State.tokCount_setTok (s : State) (c k x y d n : Nat) : (s.setTok c k x y).tokCount d n = s.tokCount d n := by
  rw [State.tokCount, State.setTok_tokOps, ← State.tokCount]
theorem State.tokCount_setTokCount (s : State) (c k n : Nat) : (s.setTokCount c k n).tokCount c k = n := by
  rw [State.tokCount, State.setTokCount, sread_swrite, if_pos rfl]
theorem State.rd_setTokCount (s : State) (c k n o : Nat) : (s.setTokCount c k n).rd o = s.rd o := by
  rw [State.rd, State.setTokCount_regs]
  rfl
theorem State.rd_freeBuf (s : State) (c k o : Nat) : (s.freeBuf c k).rd o = s.rd o := by
  rw [State.rd, State.freeBuf_regs]
  rfl

theorem State.tok_congr (h : t.regs = s.regs) (c k : Nat) : t.tok c k = s.tok c k := by
  rw [State.tok, State.fld, State.rd, h]
  rfl
theorem State.tokStatus_congr (h : t.regs = s.regs) (c k : Nat) : t.tokStatus c k = s.tokStatus c k := by
  rw [State.tokStatus, State.fld, State.rd, h]
  rfl
theorem State.tokCount_congr (h : t.tokOps = s.tokOps) (c k : Nat) : t.tokCount c k = s.tokCount c k := by
  rw [State.tokCount, h]
  rfl
theorem State.rd_congr (h : t.regs = s.regs) (o : Nat) : t.rd o = s.rd o := by
  rw [State.rd, h]
  rfl

theorem tokenReg_ne_issueRegs (c k : Nat) : Reg.SEQ_TOKEN c k ∉ issueRegs c := by
  simp only [issueRegs, Reg.SEQ_TOKEN, Reg.SEQ_PC, Reg.SEQ_ISSUED, Reg.SEQ_STAT, List.mem_cons, List.not_mem_nil, or_false]
  omega
theorem tokenReg_ne_claim (c k d : Nat) (hd : d < 256) : Reg.SEQ_TOKEN c k ≠ Reg.ARB_CLAIM (d / 16) (d % 16) := by
  unfold Reg.SEQ_TOKEN coreWin Reg.ARB_CLAIM regionWin
  omega

/-! ## An instruction that takes a token -/

theorem State.tok_issued (s : State) (c k : Nat) (next : Int) : (s.issued c next).tok c k = s.tok c k := by
  rw [State.tok, State.fld, State.rd_issued _ _ _ _ (tokenReg_ne_issueRegs c k)]
  rfl

/-- What tokIssue leaves of a token that is not PENDING. -/
theorem State.tokIssue_free (h : s.tok c k ≠ tokPending) :
    s.tokIssue c k = ((s.freeBuf c k).setTokCount c k 1).setTok c k tokPending 0 := by
  rw [State.tokIssue, if_neg h]

theorem State.rd_tokIssue (s : State) (c k o : Nat) (ho : o ≠ Reg.SEQ_TOKEN c k) : (s.tokIssue c k).rd o = s.rd o := by
  rw [State.tokIssue]
  split
  · exact State.rd_setTokCount _ _ _ _ _
  · rw [State.setTok, State.rd_wr_other _ _ _ _ ho, State.rd_setTokCount, State.rd_freeBuf]

theorem Issued.of_rd {next : Int} (h : Issued s t c next) (hrd : ∀ o ∈ issueRegs c, u.rd o = t.rd o) : Issued s u c next := by
  obtain ⟨hpc, hcount, hstat⟩ := h
  refine ⟨?_, (hrd _ (by simp [issueRegs])).trans hcount, (hrd _ (by simp [issueRegs])).trans hstat⟩
  rw [State.pc, State.fld, hrd _ (by simp [issueRegs])]
  exact hpc

/-- An instruction that is ready and whose token is not PENDING leaves it PENDING with one operation. -/
theorem State.tokIssue_queued (hnext : s.inCode c (s.pcNext c) = true) (htok : s.tok c k ≠ tokPending) :
    Queued s ((s.issued c (s.pcNext c)).tokIssue c k) c k := by
  have hissued : Issued s ((s.issued c (s.pcNext c)).tokIssue c k) c (s.pcNext c) :=
    (State.issued_spec hnext).of_rd fun o ho => State.rd_tokIssue _ _ _ _ fun h => tokenReg_ne_issueRegs c k (h ▸ ho)
  have hfree := State.tokIssue_free (s := s.issued c (s.pcNext c)) (c := c) (k := k) (by rwa [State.tok_issued])
  refine ⟨hissued, ?_, ?_, ?_⟩
  · rw [hfree, State.tok_setTok _ _ _ _ _ (by decide)]
  · rw [hfree, State.tokStatus_setTok _ _ _ _ _ (by decide) (by decide)]
    rfl
  · rw [hfree, State.tokCount_setTok, State.tokCount_setTokCount]

/-- What is queued stays so while the registers and the counts of operations do. -/
theorem Queued.of_same (h : Queued s t c k) (hregs : u.regs = t.regs) (hops : u.tokOps = t.tokOps) : Queued s u c k := by
  obtain ⟨hissued, hpending, hok, hone⟩ := h
  exact ⟨hissued.of_rd fun o _ => State.rd_congr hregs o, (State.tok_congr hregs _ _).trans hpending,
    (State.tokStatus_congr hregs _ _).trans hok, (State.tokCount_congr hops _ _).trans hone⟩

/-- Nothing changed but what a token's issue changes. -/
def OnlyIssue (s t : State) : Prop :=
  ∃ regs ops bufs vec, t = { s with regs := regs, tokOps := ops, outBufs := bufs, vecOps := vec }
theorem OnlyIssue.trans (h : OnlyIssue s t) (h' : OnlyIssue t u) : OnlyIssue s u := by
  obtain ⟨_, _, _, _, rfl⟩ := h
  obtain ⟨_, _, _, _, rfl⟩ := h'
  exact ⟨_, _, _, _, rfl⟩
theorem OnlyRegs.onlyIssue (h : OnlyRegs s t) : OnlyIssue s t := ⟨t.regs, s.tokOps, s.outBufs, s.vecOps, h⟩
theorem State.onlyIssue_freeBuf (s : State) (c k : Nat) : OnlyIssue s (s.freeBuf c k) := ⟨_, _, _, _, rfl⟩
theorem State.onlyIssue_setTokCount (s : State) (c k n : Nat) : OnlyIssue s (s.setTokCount c k n) := ⟨_, _, _, _, rfl⟩
theorem State.onlyIssue_tokIssue (s : State) (c k : Nat) : OnlyIssue s (s.tokIssue c k) := by
  rw [State.tokIssue]
  split
  · exact s.onlyIssue_setTokCount _ _ _
  · exact ((s.onlyIssue_freeBuf c k).trans (State.onlyIssue_setTokCount _ _ _ _)).trans (OnlyRegs.onlyIssue rfl)
/-- Nothing else changed where an instruction has issued and taken its token. -/
theorem State.onlyIssue_issued_tokIssue (s : State) (c k : Nat) (next : Int) : OnlyIssue s ((s.issued c next).tokIssue c k) :=
  (s.issued_onlyRegs c next).onlyIssue.trans (State.onlyIssue_tokIssue _ _ _)

section
variable (h : OnlyIssue s t)
include h
theorem OnlyIssue.pantry : t.pantry = s.pantry := by
  obtain ⟨_, _, _, _, rfl⟩ := h
  rfl
theorem OnlyIssue.engOps : t.engOps = s.engOps := by
  obtain ⟨_, _, _, _, rfl⟩ := h
  rfl
theorem OnlyIssue.fires : t.fires = s.fires := by
  obtain ⟨_, _, _, _, rfl⟩ := h
  rfl
theorem OnlyIssue.power : t.power = s.power := by
  obtain ⟨_, _, _, _, rfl⟩ := h
  rfl
theorem OnlyIssue.kvOps : t.kvOps = s.kvOps := by
  obtain ⟨_, _, _, _, rfl⟩ := h
  rfl
theorem OnlyIssue.net : t.net = s.net := by
  obtain ⟨_, _, _, _, rfl⟩ := h
  rfl
theorem OnlyIssue.pn : t.pn = s.pn := by
  obtain ⟨_, _, _, _, rfl⟩ := h
  rfl
end

/-! ## An operation of a token ends -/

/-- Nothing changed but what the end of a token's operation changes. -/
def OnlyEnd (s t : State) : Prop := ∃ regs ops power, t = { s with regs := regs, tokOps := ops, power := power }
theorem OnlyEnd.trans (h : OnlyEnd s t) (h' : OnlyEnd t u) : OnlyEnd s u := by
  obtain ⟨_, _, _, rfl⟩ := h
  obtain ⟨_, _, _, rfl⟩ := h'
  exact ⟨_, _, _, rfl⟩
theorem OnlyRegs.onlyEnd (h : OnlyRegs s t) : OnlyEnd s t := ⟨t.regs, s.tokOps, s.power, h⟩
theorem OnlyEnd.refl (s : State) : OnlyEnd s s := ⟨_, _, _, rfl⟩
theorem State.onlyEnd_zeroClaim (s : State) (c : Nat) : OnlyEnd s (s.zeroClaim c) :=
  OnlyEnd.trans ⟨_, _, _, rfl⟩ (((OnlyRegs.refl _).setFld _ _ _).setFld _ _ _).onlyEnd
theorem State.onlyEnd_faultRelease (s : State) (c : Nat) : OnlyEnd s (s.faultRelease c) := by
  rw [State.faultRelease]
  split
  · exact s.onlyEnd_zeroClaim c
  · exact OnlyEnd.refl s
theorem State.onlyEnd_setTokCount (s : State) (c k n : Nat) : OnlyEnd s (s.setTokCount c k n) := ⟨_, _, _, rfl⟩
theorem State.onlyEnd_tokComplete (s : State) (c k x : Nat) : OnlyEnd s (s.tokComplete c k x) := by
  rw [State.tokComplete]
  split
  · exact ((s.onlyEnd_setTokCount _ _ _).trans ((OnlyRegs.refl _).wr _ _).onlyEnd).trans (State.onlyEnd_faultRelease _ _)
  · exact OnlyEnd.refl s

theorem State.rd_tokComplete (s : State) (c k x o : Nat) (ho : o ≠ Reg.SEQ_TOKEN c k)
    (hclaim : o ≠ Reg.ARB_CLAIM (c / 16) (c % 16)) : (s.tokComplete c k x).rd o = s.rd o := by
  rw [State.tokComplete]
  split
  · rw [State.rd_faultRelease hclaim, State.setTok, State.rd_wr_other _ _ _ _ ho, State.rd_setTokCount]
  · rfl

theorem State.tok_congr_rd {c k : Nat} (h : t.rd (Reg.SEQ_TOKEN c k) = s.rd (Reg.SEQ_TOKEN c k)) : t.tok c k = s.tok c k := by
  rw [State.tok, State.fld, h]
  rfl
theorem State.tokStatus_congr_rd {c k : Nat} (h : t.rd (Reg.SEQ_TOKEN c k) = s.rd (Reg.SEQ_TOKEN c k)) :
    t.tokStatus c k = s.tokStatus c k := by
  rw [State.tokStatus, State.fld, h]
  rfl

/-- The one operation of a token ends: the token is DONE with its status. -/
theorem State.tokComplete_done {x : Nat} (hc : c < 256) (hpending : s.tok c k = tokPending) (hone : s.tokCount c k = 1)
    (hok : s.tokStatus c k = stOk) (hx : x < 256) : (s.tokComplete c k x).Completed c k x := by
  rw [State.tokComplete, if_pos hpending, hok, hone]
  have hrd (v : State) : (v.faultRelease c).rd (Reg.SEQ_TOKEN c k) = v.rd (Reg.SEQ_TOKEN c k) :=
    State.rd_faultRelease (tokenReg_ne_claim c k c hc)
  exact ⟨(State.tok_congr_rd (hrd _)).trans (State.tok_setTok _ _ _ _ _ (by decide)),
    (State.tokStatus_congr_rd (hrd _)).trans (State.tokStatus_setTok _ _ _ _ _ (by decide) hx)⟩

section
variable (h : OnlyEnd s t)
include h
theorem OnlyEnd.pantry : t.pantry = s.pantry := by
  obtain ⟨_, _, _, rfl⟩ := h
  rfl
theorem OnlyEnd.engOps : t.engOps = s.engOps := by
  obtain ⟨_, _, _, rfl⟩ := h
  rfl
theorem OnlyEnd.fires : t.fires = s.fires := by
  obtain ⟨_, _, _, rfl⟩ := h
  rfl
theorem OnlyEnd.outBufs : t.outBufs = s.outBufs := by
  obtain ⟨_, _, _, rfl⟩ := h
  rfl
theorem OnlyEnd.vecOps : t.vecOps = s.vecOps := by
  obtain ⟨_, _, _, rfl⟩ := h
  rfl
theorem OnlyEnd.kvOps : t.kvOps = s.kvOps := by
  obtain ⟨_, _, _, rfl⟩ := h
  rfl
theorem OnlyEnd.biWant : t.biWant = s.biWant := by
  obtain ⟨_, _, _, rfl⟩ := h
  rfl
theorem OnlyEnd.net : t.net = s.net := by
  obtain ⟨_, _, _, rfl⟩ := h
  rfl
theorem OnlyEnd.pn : t.pn = s.pn := by
  obtain ⟨_, _, _, rfl⟩ := h
  rfl
end

end Sys2Proof.Machine
end

section
/-! PROOFS. Engine instructions issue (O10). -/

namespace Sys2Proof.Machine

variable {s t u : State}

/-! ## The queues of a core after an operation begins or ends -/

theorem settleModes_none (h : ∀ o ∈ s.engOps, o.core = c → o.work.isMode = false) (n : Nat) :
    State.settleModes c n s = s := by
  have hnone : (s.engOps.find? fun o => o.core == c && o.work.isMode && s.engFront o) = none := by
    rw [List.find?_eq_none]
    intro o ho
    by_cases hc : o.core = c <;> simp [hc, h o ho]
  cases n with
  | zero => rfl
  | succ n => rw [State.settleModes, hnone]

theorem claimSettle_none (h : s.dropOf c = none) : s.claimSettle c = s := by rw [State.claimSettle, h]

/-- Nothing changed but which engines a core counts. -/
def OnlyActive (s t : State) : Prop := ∃ a, t = { s with engActive := a }
theorem State.onlyActive_startEngines (s : State) (c : Nat) : OnlyActive s (s.startEngines c) := by
  refine List.foldlRecOn (motive := OnlyActive s) _ _ ⟨_, rfl⟩ fun t ht e _ => ?_
  obtain ⟨_, rfl⟩ := ht
  split
  · split
    · exact ⟨_, rfl⟩
    · exact ⟨_, rfl⟩
  · exact ⟨_, rfl⟩

section
variable (h : OnlyActive s t)
include h
theorem OnlyActive.regs : t.regs = s.regs := by obtain ⟨_, rfl⟩ := h; rfl
theorem OnlyActive.tokOps : t.tokOps = s.tokOps := by obtain ⟨_, rfl⟩ := h; rfl
theorem OnlyActive.engOps : t.engOps = s.engOps := by obtain ⟨_, rfl⟩ := h; rfl
theorem OnlyActive.pantry : t.pantry = s.pantry := by obtain ⟨_, rfl⟩ := h; rfl
end

/-! ## Issue (R249, R250) -/

/-- An operation at the end of the engines' queues. -/
def State.pushEng (s : State) (o : EngOp) : State := { s with engOps := s.engOps ++ [o] }
theorem State.pushEng_engOps (s : State) (o : EngOp) : (s.pushEng o).engOps = s.engOps ++ [o] := rfl
theorem State.pushEng_regs (s : State) (o : EngOp) : (s.pushEng o).regs = s.regs := rfl
theorem State.pushEng_tokOps (s : State) (o : EngOp) : (s.pushEng o).tokOps = s.tokOps := rfl
theorem State.pushEng_pantry (s : State) (o : EngOp) : (s.pushEng o).pantry = s.pantry := rfl
theorem State.pushEng_power (s : State) (o : EngOp) : (s.pushEng o).power = s.power := rfl

theorem State.dropOf_congr (h : t.power = s.power) (c : Nat) : t.dropOf c = s.dropOf c := by
  rw [State.dropOf, h]
  rfl

section
variable {c : CoreId} {f : UFmt} {opc : Byte} {illegal srOk : Bool} {check : Option Cause} {w : EngWork}
  (hopc : opcodeDefined (opc.setWidth 64) = true) (hbad : f.bad srOk = false) (hes : maskList 24 (engMask f) ≠ [])
  (hquad : s.quadrantBad c f = false) (hill : illegal = false) (hcheck : check = none)
  (hfull : s.engFull c (engMask f) = false) (htok : s.tok c f.tok ≠ tokPending) (hr : s.Ready c (f.word opc) (s.pcNext c))
include hopc hbad hes hquad hill hcheck hfull htok hr

/-- An engine instruction whose checks pass takes its token and puts its operation into the queues. -/
theorem engIssue_ready : engIssue opc illegal check w c f srOk s =
    (((s.issued c (s.pcNext c)).tokIssue c f.tok).pushEng ⟨c, f.tok, engMask f, engQuadrant f, w⟩).engSettle c := by
  have hmask : engMask f ≠ 0 := fun h => hes (by rw [h]; rfl)
  have hok : (f.bad srOk || engMask f == 0 || s.quadrantBad c f || illegal) = false := by
    simp [hbad, hmask, hquad, hill]
  rw [engIssue, issue, issueOr_ready _ _ _ _ hr (UFmt.word_defined f opc hopc) hok (by simp [htok]) hcheck,
    if_neg (Bool.eq_false_iff.1 hfull), State.pushEng]

/-- The operation of an engine instruction other than ENG.MODE is the last of the queues, and its token is PENDING. -/
theorem engIssue_queued (hmode : ∀ o ∈ s.engOps, o.work.isMode = false) (hw : w.isMode = false) (hdrop : s.dropOf c = none) :
    Queued s (engIssue opc illegal check w c f srOk s) c f.tok ∧
    (engIssue opc illegal check w c f srOk s).engOps = s.engOps ++ [⟨c, f.tok, engMask f, engQuadrant f, w⟩] ∧
    PantryKept s (engIssue opc illegal check w c f srOk s) := by
  have honly := s.onlyIssue_issued_tokIssue c f.tok (s.pcNext c)
  have hqueued := State.tokIssue_queued hr.there htok
  rw [engIssue_ready hopc hbad hes hquad hill hcheck hfull htok hr, State.engSettle]
  generalize hu : ((s.issued c (s.pcNext c)).tokIssue c f.tok).pushEng ⟨c, f.tok, engMask f, engQuadrant f, w⟩ = u
  have hops : u.engOps = s.engOps ++ [⟨c, f.tok, engMask f, engQuadrant f, w⟩] := by
    rw [← hu, State.pushEng_engOps, honly.engOps]
  rw [settleModes_none, claimSettle_none]
  · have hact := u.onlyActive_startEngines c
    refine ⟨hqueued.of_same ?_ ?_, hact.engOps.trans hops, State.byte_of_pantry (hact.pantry.trans ?_)⟩
    · rw [hact.regs, ← hu, State.pushEng_regs]
    · rw [hact.tokOps, ← hu, State.pushEng_tokOps]
    · rw [← hu, State.pushEng_pantry, honly.pantry]
  · rw [State.dropOf_congr _ _, hdrop]
    rw [← hu, State.pushEng_power, honly.power]
  · intro o ho _
    rw [hops, List.mem_append, List.mem_singleton] at ho
    rcases ho with ho | rfl
    · exact hmode o ho
    · exact hw
end

/-! ## A change of mode (R187, R250) -/

/-- The mode bits of a core's engines once an ENG.MODE takes effect. -/
def modeBits (quad : Bool) (m mask : Nat) : Nat := if quad then m ||| mask else m &&& (0xFFFFFF ^^^ mask)

theorem modeBits_testBit (quad : Bool) (m mask : Nat) {e : Nat} (he : e < 24) :
    (BitVec.ofNat 64 (modeBits quad m mask)).getLsbD e = if mask.testBit e then quad else m.testBit e := by
  have hones : Nat.testBit 0xFFFFFF e = true := by
    rw [show (0xFFFFFF : Nat) = 2 ^ 24 - 1 from rfl, Nat.testBit_two_pow_sub_one, decide_eq_true he]
  rw [BitVec.getLsbD_ofNat, decide_eq_true (show e < 64 by omega), Bool.true_and, modeBits]
  cases quad
  · cases hb : mask.testBit e <;> simp [hones, hb]
  · cases hb : mask.testBit e <;> simp [hb]

/-- An ENG.MODE at the front of its engines' queues takes effect. -/
def State.modeDone (s : State) (o : EngOp) (quad : Bool) : State :=
  (({ s with engOps := removeFirst o s.engOps }).wr (Reg.ENG_QUAD o.core)
    (BitVec.ofNat 64 (modeBits quad (s.rd (Reg.ENG_QUAD o.core)).toNat o.mask))).tokComplete o.core o.tok stOk

theorem settleModes_mode {o : EngOp} {quad : Bool} {n : Nat} (hwork : o.work = .mode quad)
    (h : (s.engOps.find? fun q => q.core == o.core && q.work.isMode && s.engFront q) = some o) :
    State.settleModes o.core (n + 1) s = State.settleModes o.core n (s.modeDone o quad) := by
  rw [State.settleModes, h]
  dsimp only
  rw [hwork]
  rfl

/-- What ENG.MODE at the front leaves, before its core's queues settle. -/
theorem State.modeDone_engOps (s : State) (o : EngOp) (quad : Bool) : (s.modeDone o quad).engOps = removeFirst o s.engOps :=
  (State.onlyEnd_tokComplete _ _ _ _).engOps.trans (State.wr_engOps _ _ _)
theorem State.modeDone_pantry (s : State) (o : EngOp) (quad : Bool) : (s.modeDone o quad).pantry = s.pantry :=
  (State.onlyEnd_tokComplete _ _ _ _).pantry.trans (State.wr_pantry _ _ _)
theorem State.rd_withEngOps (s : State) (l : List EngOp) (o : Nat) : ({ s with engOps := l } : State).rd o = s.rd o := rfl

theorem quadReg_ne_token (c : Nat) {k : Nat} (hk : k < 16) : Reg.SEQ_TOKEN c k ≠ Reg.ENG_QUAD c := by
  unfold Reg.SEQ_TOKEN Reg.ENG_QUAD
  omega

theorem State.rd_modeDone (s : State) (o : EngOp) (quad : Bool) {j : Nat} (hquad : j ≠ Reg.ENG_QUAD o.core)
    (htok : j ≠ Reg.SEQ_TOKEN o.core o.tok) (hclaim : j ≠ Reg.ARB_CLAIM (o.core / 16) (o.core % 16)) :
    (s.modeDone o quad).rd j = s.rd j := by
  rw [State.modeDone, State.rd_tokComplete _ _ _ _ _ htok hclaim, State.rd_wr_other _ _ _ _ hquad, State.rd_withEngOps]

theorem State.engQuad_modeDone (s : State) (o : EngOp) (quad : Bool) (ht : o.tok < 16) {e : Nat} (he : e < 24) :
    (s.modeDone o quad).engQuad o.core e = if o.mask.testBit e then quad else s.engQuad o.core e := by
  have hclaim : Reg.ENG_QUAD o.core ≠ Reg.ARB_CLAIM (o.core / 16) (o.core % 16) := by
    unfold Reg.ENG_QUAD coreWin Reg.ARB_CLAIM regionWin
    omega
  rw [State.engQuad, State.modeDone, State.rd_tokComplete _ _ _ _ _ (quadReg_ne_token _ ht).symm hclaim, State.rd_wr_same,
    modeBits_testBit _ _ _ he]
  rfl

theorem State.modeDone_done (s : State) (o : EngOp) (quad : Bool) (hc : o.core < 256) (ht : o.tok < 16) (hpending : s.tok o.core o.tok = tokPending)
    (hone : s.tokCount o.core o.tok = 1) (hok : s.tokStatus o.core o.tok = stOk) :
    (s.modeDone o quad).Completed o.core o.tok stOk := by
  have hrd (v : DWord) : (({ s with engOps := removeFirst o s.engOps } : State).wr (Reg.ENG_QUAD o.core) v).rd (Reg.SEQ_TOKEN o.core o.tok) =
      s.rd (Reg.SEQ_TOKEN o.core o.tok) := State.rd_wr_other _ _ _ _ (quadReg_ne_token _ ht)
  refine State.tokComplete_done hc ((State.tok_congr_rd (hrd _)).trans hpending) ?_
    ((State.tokStatus_congr_rd (hrd _)).trans hok) (by decide)
  rw [State.tokCount_congr (State.wr_tokOps _ _ _)]
  exact hone

theorem removeFirst_append {α : Type} [DecidableEq α] (x : α) (l : List α) (h : x ∉ l) : removeFirst x (l ++ [x]) = l := by
  induction l with
  | nil => simp [removeFirst]
  | cons y l ih =>
    obtain ⟨hy, hl⟩ := List.ne_and_not_mem_of_not_mem_cons h
    simp [removeFirst, Ne.symm hy, ih hl]

/-- The only operation of a core's engines is at the front of their queues. -/
theorem State.engFront_alone {o : EngOp} (hops : u.engOps = s.engOps ++ [o]) (h : ∀ q ∈ s.engOps, q.core ≠ o.core) :
    u.engFront o = true := by
  rw [State.engFront, List.all_eq_true]
  intro e he
  have hother : s.engOps.filter (fun q => q.on o.core e) = [] := by
    rw [List.filter_eq_nil_iff]
    intro q hq
    simp [EngOp.on, h q hq]
  have hon : o.on o.core e = true := by simp [EngOp.on, (mem_maskList.1 he).2]
  rw [State.engQueue, hops, List.filter_append, hother, List.nil_append]
  simp [hon]

theorem State.find_mode_alone {o : EngOp} {quad : Bool} (hwork : o.work = .mode quad) (hops : u.engOps = s.engOps ++ [o])
    (h : ∀ q ∈ s.engOps, q.core ≠ o.core) :
    (u.engOps.find? fun q => q.core == o.core && q.work.isMode && u.engFront q) = some o := by
  have hother : s.engOps.find? (fun q => q.core == o.core && q.work.isMode && u.engFront q) = none := by
    rw [List.find?_eq_none]
    intro q hq
    simp [h q hq]
  rw [hops, List.find?_append, hother, Option.none_or, List.find?_singleton, if_pos]
  simp [hwork, EngWork.isMode, State.engFront_alone hops h]

/-- The only operation of a core is an ENG.MODE: it takes effect, and the queues settle. -/
theorem State.engSettle_mode {o : EngOp} {quad : Bool} (hwork : o.work = .mode quad) (hops : u.engOps = s.engOps ++ [o])
    (h : ∀ q ∈ s.engOps, q.core ≠ o.core) (hdrop : (u.modeDone o quad).dropOf o.core = none) :
    u.engSettle o.core = (u.modeDone o quad).startEngines o.core := by
  have hlen : u.engOps.length = s.engOps.length + 1 := by rw [hops, List.length_append, List.length_singleton]
  rw [State.engSettle, hlen, settleModes_mode hwork (State.find_mode_alone hwork hops h), settleModes_none, claimSettle_none hdrop]
  intro q hq hc
  rw [State.modeDone_engOps, hops, removeFirst_append _ _ fun ho => h o ho rfl] at hq
  exact absurd hc (h q hq)

theorem State.power_zeroClaim (s : State) (c : Nat) : (s.zeroClaim c).power =
    { s.power with claimDrop := swrite (fun _ => none) s.power.claimDrop c none } := by
  rw [State.zeroClaim, State.setFld_power, State.setFld_power]
theorem State.dropOf_zeroClaim (s : State) (c : Nat) : (s.zeroClaim c).dropOf c = none := by
  rw [State.dropOf, State.power_zeroClaim, sread_swrite, if_pos rfl]
theorem State.dropOf_faultRelease (h : s.dropOf c = none) : (s.faultRelease c).dropOf c = none := by
  rw [State.faultRelease]
  split
  · exact s.dropOf_zeroClaim c
  · exact h
theorem State.dropOf_tokComplete (s : State) (c k x : Nat) (h : s.dropOf c = none) : (s.tokComplete c k x).dropOf c = none := by
  by_cases hp : s.tok c k = tokPending
  · rw [State.tokComplete, if_pos hp]
    refine State.dropOf_faultRelease ?_
    rw [State.dropOf_congr (State.setTok_power _ _ _ _ _), State.dropOf_congr (State.setTokCount_power _ _ _ _), h]
  · rw [State.tokComplete, if_neg hp, h]
theorem State.dropOf_modeDone (s : State) (o : EngOp) (quad : Bool) (h : s.dropOf o.core = none) :
    (s.modeDone o quad).dropOf o.core = none :=
  State.dropOf_tokComplete _ _ _ _ ((State.dropOf_congr (State.wr_power _ _ _) _).trans h)

theorem quadReg_ne_issueRegs (c : Nat) : Reg.ENG_QUAD c ∉ issueRegs c := by
  simp only [issueRegs, Reg.ENG_QUAD, Reg.SEQ_PC, Reg.SEQ_ISSUED, Reg.SEQ_STAT, List.mem_cons, List.not_mem_nil, or_false]
  omega
theorem issueRegs_apart {c : CoreId} {j : Nat} (hj : j ∈ issueRegs c) (k : Nat) :
    j ≠ Reg.ENG_QUAD c ∧ j ≠ Reg.SEQ_TOKEN c k ∧ j ≠ Reg.ARB_CLAIM (c.val / 16) (c.val % 16) := by
  refine ⟨fun h => quadReg_ne_issueRegs c (h ▸ hj), fun h => tokenReg_ne_issueRegs c k (h ▸ hj), ?_⟩
  simp only [issueRegs, Reg.SEQ_PC, Reg.SEQ_ISSUED, Reg.SEQ_STAT, List.mem_cons, List.not_mem_nil, or_false] at hj
  rcases hj with rfl | rfl | rfl
  · exact coreWin_ne_claim c _ _
  · exact coreWin_ne_claim c _ _
  · exact coreWin_ne_claim c _ _

section
variable {c : CoreId} {f : UFmt} {illegal : Bool} {check : Option Cause} {quad : Bool}
  (hbad : f.bad false = false) (hes : maskList 24 (engMask f) ≠ [])
  (hquad : s.quadrantBad c f = false) (hill : illegal = false) (hcheck : check = none)
  (hfull : s.engFull c (engMask f) = false) (htok : s.tok c f.tok ≠ tokPending) (hr : s.Ready c (f.word 0x43) (s.pcNext c))
  (hnone : ∀ o ∈ s.engOps, o.core ≠ c.val) (hdrop : s.dropOf c = none)
include hbad hes hquad hill hcheck hfull htok hr hnone hdrop

/-- ENG.MODE on engines that are empty takes effect as it issues. -/
theorem engMode_done : Issued s (engIssue 0x43 illegal check (.mode quad) c f false s) c (s.pcNext c) ∧
    (engIssue 0x43 illegal check (.mode quad) c f false s).Completed c f.tok stOk ∧
    (engIssue 0x43 illegal check (.mode quad) c f false s).engOps = s.engOps ∧
    (∀ e < 24, (engIssue 0x43 illegal check (.mode quad) c f false s).engQuad c e =
      if (engMask f).testBit e then quad else s.engQuad c e) ∧
    PantryKept s (engIssue 0x43 illegal check (.mode quad) c f false s) := by
  have honly := s.onlyIssue_issued_tokIssue c f.tok (s.pcNext c)
  have hqueued := State.tokIssue_queued hr.there htok
  rw [engIssue_ready rfl hbad hes hquad hill hcheck hfull htok hr]
  have hquadReg : ((s.issued c (s.pcNext c)).tokIssue c f.tok).rd (Reg.ENG_QUAD c) = s.rd (Reg.ENG_QUAD c) := by
    rw [State.rd_tokIssue _ _ _ _ (quadReg_ne_token _ f.tok.isLt).symm, State.rd_issued _ _ _ _ (quadReg_ne_issueRegs _)]
  generalize hv : (s.issued c (s.pcNext c)).tokIssue c f.tok = v at honly hqueued hquadReg ⊢
  let o : EngOp := ⟨c, f.tok, engMask f, engQuadrant f, .mode quad⟩
  have hregs (j : Nat) : (v.pushEng o).rd j = v.rd j := State.rd_congr (State.pushEng_regs _ _) j
  have hdrop' : (v.pushEng o).dropOf c = none := by
    rw [State.dropOf_congr (State.pushEng_power _ _), State.dropOf_congr honly.power, hdrop]
  have hsettle : (v.pushEng o).engSettle c = ((v.pushEng o).modeDone o quad).startEngines c :=
    State.engSettle_mode (o := o) rfl (congrArg (· ++ [o]) honly.engOps) hnone (State.dropOf_modeDone _ o _ hdrop')
  have hdone : ((v.pushEng o).modeDone o quad).Completed c f.tok stOk :=
    State.modeDone_done _ o quad c.isLt f.tok.isLt ((State.tok_congr (State.pushEng_regs _ _) _ _).trans hqueued.pending)
      ((State.tokCount_congr (State.pushEng_tokOps _ _) _ _).trans hqueued.one)
      ((State.tokStatus_congr (State.pushEng_regs _ _) _ _).trans hqueued.ok)
  have hact := ((v.pushEng o).modeDone o quad).onlyActive_startEngines c
  have hrd (j : Nat) (hj : j ∈ issueRegs c) : (((v.pushEng o).modeDone o quad).startEngines c).rd j = v.rd j := by
    obtain ⟨hq, ht, hcl⟩ := issueRegs_apart hj f.tok
    rw [State.rd_congr hact.regs, State.rd_modeDone _ o quad hq ht hcl, hregs]
  have hops : ((v.pushEng o).modeDone o quad).engOps = s.engOps := by
    rw [State.modeDone_engOps, State.pushEng_engOps, honly.engOps, removeFirst_append]
    exact fun ho => hnone o ho rfl
  rw [show v.pushEng ⟨c, f.tok, engMask f, engQuadrant f, .mode quad⟩ = v.pushEng o from rfl, hsettle]
  refine ⟨hqueued.issued.of_rd hrd, ⟨(State.tok_congr hact.regs _ _).trans hdone.1, (State.tokStatus_congr hact.regs _ _).trans hdone.2⟩,
    hact.engOps.trans hops, fun e he => ?_, State.byte_of_pantry (hact.pantry.trans ?_)⟩
  · rw [State.engQuad, State.rd_congr hact.regs, ← State.engQuad]
    refine (State.engQuad_modeDone _ o quad f.tok.isLt he).trans (congrArg (ite _ quad) ?_)
    rw [State.engQuad, hregs, hquadReg]
    rfl
  · rw [State.modeDone_pantry, State.pushEng_pantry, honly.pantry]
end

/-! ## The checks -/

theorem rangeBad_false {a : Word} {n : Nat} (ha : a.toNat < pantrySize) (hn : a.toNat + n ≤ pantrySize) : rangeBad a n = false := by
  rw [rangeBad, decide_eq_false (Nat.not_le.2 ha), decide_eq_false (Nat.not_lt.2 hn)]
  rfl

/-- Settles O10: the three operations by `engIssue_queued`, and ENG.MODE by `engMode_done`. -/
theorem engineInstructionsIssue : Obligations.EngineInstructionsIssue := by
  unfold Obligations.EngineInstructionsIssue
  refine ⟨fun c f s hfn hes hquad hbad hfull htok hmode hdrop => ⟨fun pair hp3 hpair hsr h27 hfmt hsrc hrange hr => ?load,
    fun vb hsr hpair h30 h31 hm hvb hsrc hrange hacc hr => ?run, fun df hdf4 hdf h27 h30 h31 hdst hrange hacc hr => ?drain⟩,
    fun c f s hfn hsr hes hquad hbad htok hnone hdrop hpair h30 h31 hr => ?mode⟩
  case load =>
    have hcheck : firstCause [(decide (pantrySize ≤ (s.a c f.as.val).toNat) ||
        (maskList 24 (engMask f)).zipIdx.any fun p => decide (pantrySize < (s.a c f.as.val).toNat +
          p.2 * (s.g c f.gn.val).toNat + tileBytes (immF f.imm 24 3) (s.engQuadIssued c p.1)), .pantryRange),
        (s.engineBad c (engMask f), .engineBad)] = none := by
      have hfit : ((maskList 24 (engMask f)).zipIdx.any fun p => decide (pantrySize < (s.a c f.as.val).toNat +
          p.2 * (s.g c f.gn.val).toNat + tileBytes (immF f.imm 24 3) (s.engQuadIssued c p.1))) = false := by
        rw [List.any_eq_false]
        rintro ⟨e, k⟩ he
        rw [hpair, decide_eq_true_eq, Nat.not_lt]
        exact hrange k e (List.mem_zipIdx_iff_getElem?.1 he)
      simp only [firstCause, hfit, hbad, decide_eq_false (Nat.not_le.2 hsrc), Bool.or_false, Bool.false_eq_true, if_false]
    have hill : (decide (3 < immF f.imm 24 3) || immB f.imm 27 || (immF f.imm 24 3 != 1 && (immB f.imm 30 || immB f.imm 31))) = false := by
      rw [hpair, h27, decide_eq_false (by omega)]
      by_cases h1 : pair = 1
      · simp [h1]
      · obtain ⟨h30, h31⟩ := hfmt h1
        simp [h30, h31]
    obtain ⟨hq, hops, hpantry⟩ := engIssue_queued (opc := 0x40) (srOk := false) (w := .load (immF f.imm 24 3) (immB f.imm 30) (immB f.imm 31)
      (s.a c f.as.val).toNat (s.g c f.gn.val).toNat) rfl (by simp [UFmt.bad, hfn, hsr]) hes hquad hill hcheck hfull htok hr hmode rfl hdrop
    exact ⟨_, rfl, hq, hops.trans (by rw [hpair]), hpantry⟩
  case run =>
    obtain ⟨e0, rest, hcons⟩ := List.exists_cons_of_ne_nil hes
    have hhead : vecBytes (s.pairIssued c ((maskList 24 (engMask f)).headD 0) (if s.engQuadIssued c
        ((maskList 24 (engMask f)).headD 0) then engQuadrant f else 0)) (s.engQuadIssued c ((maskList 24 (engMask f)).headD 0)) = vb :=
      hvb _ (by simp [hcons])
    have hsame : ((maskList 24 (engMask f)).any fun e => vecBytes (s.pairIssued c e (if s.engQuadIssued c e then engQuadrant f
        else 0)) (s.engQuadIssued c e) != vb) = false := by
      rw [List.any_eq_false]
      intro e he
      simp [hvb e he]
    have hfit : ((maskList 24 (engMask f)).any fun e => (s.a c f.ad.val).toNat % tileOuts (s.engQuadIssued c e) != 0 ||
        decide (accSize (s.engQuadIssued c e) < (s.a c f.ad.val).toNat + tileOuts (s.engQuadIssued c e) * (s.g c f.gn.val).toNat)) =
        false := by
      rw [List.any_eq_false]
      intro e he
      obtain ⟨h0, hle⟩ := hacc e he
      simp [h0, hle]
    have hcheck : firstCause [(rangeBad (s.a c f.as.val) ((s.g c f.gn.val).toNat * vb), .pantryRange),
        (s.engineBad c (engMask f), .engineBad), ((maskList 24 (engMask f)).any fun e => (s.a c f.ad.val).toNat %
          tileOuts (s.engQuadIssued c e) != 0 || decide (accSize (s.engQuadIssued c e) < (s.a c f.ad.val).toNat +
            tileOuts (s.engQuadIssued c e) * (s.g c f.gn.val).toNat), .accRange),
        ((s.g c f.gn.val).toNat == 0, .length)] = none := by
      simp only [firstCause, rangeBad_false hsrc hrange, hbad, hfit, beq_false_of_ne hm, Bool.false_eq_true, if_false]
    have hill : (immF f.imm 24 3 != 0 || immB f.imm 30 || immB f.imm 31 || (maskList 24 (engMask f)).any fun e =>
        vecBytes (s.pairIssued c e (if s.engQuadIssued c e then engQuadrant f else 0)) (s.engQuadIssued c e) != vb) = false := by
      simp [hpair, h30, h31, hsame]
    rw [← hhead] at hcheck hill
    obtain ⟨hq, hops, hpantry⟩ := engIssue_queued (opc := 0x41) (srOk := false) (w := .run (s.g c f.gn.val).toNat
      (s.a c f.as.val).toNat (s.a c f.ad.val).toNat (immB f.imm 27)) rfl (by simp [UFmt.bad, hfn, hsr]) hes hquad hill hcheck
      hfull htok hr hmode rfl hdrop
    exact ⟨_, rfl, hq, hops, hpantry⟩
  case drain =>
    have hfit : ((maskList 24 (engMask f)).any fun e => decide (accSize (s.engQuadIssued c e) < (s.a c f.as.val).toNat +
        (s.g c f.gn.val).toNat)) = false := by
      rw [List.any_eq_false]
      intro e he
      simp [hacc e he]
    have hcheck : firstCause [(rangeBad (s.a c f.ad.val) ((maskList 24 (engMask f)).length * (s.g c f.gn.val).toNat *
        drainBytes (immF f.imm 24 3)), .pantryRange), (s.engineBad c (engMask f), .engineBad),
        ((maskList 24 (engMask f)).any fun e => decide (accSize (s.engQuadIssued c e) < (s.a c f.as.val).toNat +
          (s.g c f.gn.val).toNat), .accRange)] = none := by
      rw [hdf]
      simp only [firstCause, rangeBad_false hdst hrange, hbad, hfit, Bool.false_eq_true, if_false]
    have hill : (decide (4 < immF f.imm 24 3) || immB f.imm 27 || immB f.imm 30 || immB f.imm 31) = false := by
      rw [hdf, decide_eq_false (by omega), h27, h30, h31]
      rfl
    obtain ⟨hq, hops, hpantry⟩ := engIssue_queued (opc := 0x42) (srOk := true) (w := .drain (s.g c f.gn.val).toNat
      (s.a c f.as.val).toNat (s.a c f.ad.val).toNat (immF f.imm 24 3) f.sr) rfl (by simp [UFmt.bad, hfn]) hes hquad hill hcheck
      hfull htok hr hmode rfl hdrop
    exact ⟨_, rfl, hq, hops.trans (by rw [hdf]), hpantry⟩
  case mode =>
    have hill : (immF f.imm 24 3 != 0 || immB f.imm 30 || immB f.imm 31) = false := by simp [hpair, h30, h31]
    have hcheck : firstCause [(s.engineBad c (engMask f), .engineBad)] = none := by
      simp only [firstCause, hbad, Bool.false_eq_true, if_false]
    have hfull : s.engFull c (engMask f) = false := by
      rw [State.engFull, List.any_eq_false]
      intro e _
      rw [State.engQueue, List.filter_eq_nil_iff.2 fun o ho => by simp [EngOp.on, hnone o ho]]
      decide
    obtain ⟨hissued, hdone, hops, hquads, hpantry⟩ := engMode_done (quad := immB f.imm 27) (by simp [UFmt.bad, hfn, hsr])
      hes hquad hill hcheck hfull htok hr hnone hdrop
    exact ⟨_, rfl, hissued, hdone.1, hdone.2, hops, hquads, hpantry⟩

end Sys2Proof.Machine
end

section
/-! PROOFS. Rack instructions queue fires or free the output buffer (O12). -/

namespace Sys2Proof.Machine

variable {s t u : State} {c : Nat} {next : Int}

/-- A fire at the end of the queue. -/
def State.pushFire (s : State) (h : Fire) : State := { s with fires := s.fires ++ [h] }
theorem State.pushFire_fires (s : State) (h : Fire) : (s.pushFire h).fires = s.fires ++ [h] := rfl
theorem State.pushFire_regs (s : State) (h : Fire) : (s.pushFire h).regs = s.regs := rfl
theorem State.pushFire_tokOps (s : State) (h : Fire) : (s.pushFire h).tokOps = s.tokOps := rfl
theorem State.pushFire_pantry (s : State) (h : Fire) : (s.pushFire h).pantry = s.pantry := rfl

section
variable {c : CoreId} {f : UFmt} {opc : Byte} {illegal : Bool} {check : Option Cause} {h : Fire}
  (hopc : opcodeDefined (opc.setWidth 64) = true) (hbad : f.bad false = false) (hill : illegal = false)
  (hcheck : check = none) (hroom : (s.fires.filter fun h => h.core == c.val).length < 64)
  (htok : s.tok c f.tok ≠ tokPending) (hr : s.Ready c (f.word opc) (s.pcNext c))
include hopc hbad hill hcheck hroom htok hr

/-- A rack instruction whose checks pass takes its token and puts its fire at the end of the queue. -/
theorem fireIssue_ready : fireIssue opc illegal check h c f s =
    ((s.issued c (s.pcNext c)).tokIssue c f.tok).pushFire h := by
  have hok : (f.bad false || illegal) = false := by rw [hbad, hill]; rfl
  rw [fireIssue, issueOr_ready _ _ _ _ hr (UFmt.word_defined f opc hopc) hok (by simp [htok]) hcheck,
    if_neg (by simpa using hroom), State.pushFire]

theorem fireIssue_queued : Queued s (fireIssue opc illegal check h c f s) c f.tok ∧
    (fireIssue opc illegal check h c f s).fires = s.fires ++ [h] ∧ PantryKept s (fireIssue opc illegal check h c f s) := by
  have honly := s.onlyIssue_issued_tokIssue c f.tok (s.pcNext c)
  have hqueued := State.tokIssue_queued hr.there htok
  rw [fireIssue_ready hopc hbad hill hcheck hroom htok hr]
  refine ⟨hqueued.of_same (State.pushFire_regs _ _) (State.pushFire_tokOps _ _), ?_, State.byte_of_pantry ?_⟩
  · rw [State.pushFire_fires, honly.fires]
  · rw [State.pushFire_pantry, honly.pantry]
end

/-- RACK.FREE of a token that is not PENDING. -/
theorem State.freeBuf_spec (s : State) (c k : Nat) :
    (s.freeBuf c k).outBufs = s.outBufs.filter (fun b => !(b.core == c && b.tok == k)) ∧
    (s.freeBuf c k).vecOps = s.unfreed c k ∧ (s.freeBuf c k).regs = s.regs ∧ (s.freeBuf c k).pantry = s.pantry :=
  ⟨rfl, rfl, rfl, rfl⟩

/-- An instruction that issues and frees a token's buffer space. -/
theorem State.issued_freeBuf (hnext : s.inCode c next = true) (k : Nat) :
    Issued s ((s.issued c next).freeBuf c k) c next ∧
    ((s.issued c next).freeBuf c k).outBufs = s.outBufs.filter (fun b => !(b.core == c && b.tok == k)) ∧
    ((s.issued c next).freeBuf c k).vecOps = s.unfreed c k ∧ RegsKept s ((s.issued c next).freeBuf c k) (issueRegs c) ∧
    PantryKept s ((s.issued c next).freeBuf c k) := by
  obtain ⟨hbufs, hvec, hregs, hpantry⟩ := (s.issued c next).freeBuf_spec c k
  refine ⟨(State.issued_spec hnext).of_rd fun o _ => State.rd_congr hregs o, hbufs.trans ?_, hvec.trans ?_,
    fun o ho => (State.rd_congr hregs o).trans (State.rd_issued _ _ _ _ ho),
    State.byte_of_pantry (hpantry.trans (State.issued_pantry _ _ _))⟩
  · rw [State.issued_outBufs]
  · rw [State.unfreed, State.issued_vecOps, State.unfreed]

/-- The destination of a fire with COPY lies in the Pantry. -/
theorem copy_fits {copy : Bool} {a : Word} {n : Nat} (h : copy = true → a.toNat < pantrySize ∧ a.toNat + n ≤ pantrySize) :
    (copy && rangeBad a n) = false := by
  cases copy with
  | false => rfl
  | true =>
    obtain ⟨ha, hn⟩ := h rfl
    rw [rangeBad_false ha hn]
    rfl
/-- No check of a fire fails. -/
theorem firstCause_fire {low out bins shape big : Bool} (hlow : low = false) (hout : out = false) (hbins : bins = false)
    (hshape : shape = false) (hbig : big = false) :
    firstCause [(low || out, .pantryRange), (bins, .binRange), (shape, .fireShape), (big, .fireTooLarge)] = none := by
  subst hlow hout hbins hshape hbig
  rfl

/-- Settles O12: the three fires by `fireIssue_queued`, and RACK.FREE by `State.freeBuf_spec`. -/
theorem rackInstructionsQueueFires : Obligations.RackInstructionsQueueFires := by
  unfold Obligations.RackInstructionsQueueFires
  intro c f s hfn hsr
  have hbad : f.bad false = false := by simp [UFmt.bad, hfn, hsr]
  refine ⟨?fire, ?rev, ?test, fun hr himm => ?free⟩
  case fire =>
    rintro h rfl ⟨hcount, hrest, hroom, htok, hbins, hr⟩ hlanes hshape hsrc hfit hcopy hsize
    have hrest' : (fireRest f || fireLanes f == 0) = false := by simp [fireRest, hcount, hrest, hlanes]
    have hlow : (decide (pantrySize ≤ (s.a c f.as.val).toNat) || (Fire.laneList ⟨c, f.tok, .forward, s.forwardGroups
        (s.firstBin c (fireFirst f)) (fireCount f) (fireHalf f), fireLanes f, fireCopy f, (s.a c f.as.val).toNat,
        (s.g c f.gn.val).toNat, (s.a c f.ad.val).toNat, .queued, [], 0, [], [], stOk⟩).any fun l => decide (pantrySize <
          (s.a c f.as.val).toNat + l * (s.g c f.gn.val).toNat + 17 * inputBlocks (s.forwardGroups
            (s.firstBin c (fireFirst f)) (fireCount f) (fireHalf f)))) = false := by
      rw [decide_eq_false (Nat.not_le.2 hsrc), Bool.false_or, List.any_eq_false]
      intro l hl
      rw [decide_eq_true_eq, Nat.not_lt]
      exact hfit l hl
    have hout := copy_fits hcopy
    have hbig : ¬1048576 < fireCount f * (if fireHalf f = 3 then 2 else 1) * 1024 * (Fire.laneList ⟨c, f.tok, .forward,
        s.forwardGroups (s.firstBin c (fireFirst f)) (fireCount f) (fireHalf f), fireLanes f, fireCopy f, (s.a c f.as.val).toNat,
        (s.g c f.gn.val).toNat, (s.a c f.ad.val).toNat, .queued, [], 0, [], [], stOk⟩).length := by
      rw [Nat.not_lt, Nat.mul_right_comm]
      exact Nat.mul_le_mul_right 1024 hsize
    have hcheck := firstCause_fire hlow hout hbins hshape (decide_eq_false hbig)
    obtain ⟨hq, hfires, hpantry⟩ := fireIssue_queued (opc := 0x50) rfl hbad hrest' hcheck hroom htok hr
    exact ⟨_, rfl, hq, hfires, hpantry⟩
  case rev =>
    rintro h rfl ⟨hcount, hrest, hroom, htok, hbins, hr⟩ hlanes hhalf hshape hmax hsrc hfit hcopy
    have hrest' : (fireRest f || fireLanes f != 0 || fireHalf f != 0) = false := by simp [fireRest, hcount, hrest, hlanes, hhalf]
    have hlow := rangeBad_false hsrc hfit
    have hcheck := firstCause_fire hlow (copy_fits hcopy) hbins hshape (decide_eq_false (Nat.not_lt.2 hmax))
    obtain ⟨hq, hfires, hpantry⟩ := fireIssue_queued (opc := 0x51) rfl hbad hrest' hcheck hroom htok hr
    exact ⟨_, rfl, hq, hfires, hpantry⟩
  case test =>
    rintro ⟨hcount, hrest, hroom, htok, hbins, hr⟩ hlanes hhalf hcopy hshape
    have hrest' : (fireRest f || fireLanes f == 0 || fireHalf f != 0 || fireCopy f) = false := by
      simp [fireRest, hcount, hrest, hlanes, hhalf, hcopy]
    have hcheck : firstCause [(s.binRangeBad c (fireFirst f) (fireCount f), .binRange),
        (s.shapeBad (s.firstBin c (fireFirst f)) (fireCount f) none, .fireShape)] = none := by
      simp only [firstCause, hbins, hshape, Bool.false_eq_true, if_false]
    obtain ⟨hq, hfires, hpantry⟩ := fireIssue_queued (opc := 0x52) (h := ⟨c, f.tok, .test, binGroups (s.firstBin c (fireFirst f))
      (fireCount f), fireLanes f, false, 0, 0, 0, .queued, [], 0, [], [], stOk⟩) rfl hbad hrest' hcheck hroom htok hr
    exact ⟨_, rfl, hq, hpantry, hfires⟩
  case free =>
    refine ⟨_, congrArg Host.Outcome.next (issue_ready _ hr (UFmt.word_defined f 0x53 rfl) (by simp [hbad, himm])), ?_⟩
    rw [State.tok_issued]
    by_cases hp : s.tok c f.tok = tokPending
    · have honly := s.issued_onlyRegs c (s.pcNext c)
      rw [if_pos hp, if_pos hp]
      exact ⟨State.issued_spec hr.there, State.issued_outBufs _ _ _, fun h => absurd hp h,
        fun o ho => State.rd_issued _ _ _ _ ho, honly.pantry⟩
    · obtain ⟨hissued, hbufs, hvec, hregs, hpantry⟩ := State.issued_freeBuf hr.there f.tok.val
      rw [if_neg hp, if_neg hp]
      exact ⟨hissued, hbufs, fun _ => hvec, hregs, hpantry⟩

end Sys2Proof.Machine
end

section
/-! PROOFS. The rules of Pantry accesses with any marks of words (R195): what the checks of a read and a write change, and the
bytes that a write leaves. -/

namespace Sys2Proof.Machine

variable {s t u : State} {c d k n : Nat}

/-! ## What the checks of words change -/

/-- The registers that the checks of a core's words write. -/
def checkRegs (c : Nat) : List Nat := [Reg.CORE_STAT c, Reg.CORE_ECC_COUNT c, Reg.DUMP_ERR_HEAD, Reg.DUMP_ERR_LOST]

/-- Nothing changed but what the checks of a core's words change. -/
structure OnlyChecks (c : Nat) (s t : State) : Prop where
  only : ∃ regs marks log faults, t = { s with regs := regs, pantryEcc := marks, errLog := log, faults := faults }
  rd : ∀ o, o ∉ checkRegs c → t.rd o = s.rd o
  scrubbing : t.scrubbing c = s.scrubbing c

theorem OnlyChecks.refl (c : Nat) (s : State) : OnlyChecks c s s := ⟨⟨_, _, _, _, rfl⟩, fun _ _ => rfl, rfl⟩
theorem OnlyChecks.trans (h : OnlyChecks c s t) (h' : OnlyChecks c t u) : OnlyChecks c s u := by
  obtain ⟨⟨_, _, _, _, rfl⟩, hrd, hscrub⟩ := h
  obtain ⟨⟨_, _, _, _, rfl⟩, hrd', hscrub'⟩ := h'
  exact ⟨⟨_, _, _, _, rfl⟩, fun o ho => (hrd' o ho).trans (hrd o ho), hscrub'.trans hscrub⟩

section
variable (h : OnlyChecks c s t)
include h
theorem OnlyChecks.pantry : t.pantry = s.pantry := by obtain ⟨⟨_, _, _, _, rfl⟩, -, -⟩ := h; rfl
theorem OnlyChecks.biWant : t.biWant = s.biWant := by obtain ⟨⟨_, _, _, _, rfl⟩, -, -⟩ := h; rfl
theorem OnlyChecks.tracked : t.tracked = s.tracked := by obtain ⟨⟨_, _, _, _, rfl⟩, -, -⟩ := h; rfl
theorem OnlyChecks.fires : t.fires = s.fires := by obtain ⟨⟨_, _, _, _, rfl⟩, -, -⟩ := h; rfl
theorem OnlyChecks.tokOps : t.tokOps = s.tokOps := by obtain ⟨⟨_, _, _, _, rfl⟩, -, -⟩ := h; rfl
theorem OnlyChecks.engOps : t.engOps = s.engOps := by obtain ⟨⟨_, _, _, _, rfl⟩, -, -⟩ := h; rfl
theorem OnlyChecks.tiles : t.tiles = s.tiles := by obtain ⟨⟨_, _, _, _, rfl⟩, -, -⟩ := h; rfl
theorem OnlyChecks.acc : t.acc = s.acc := by obtain ⟨⟨_, _, _, _, rfl⟩, -, -⟩ := h; rfl
theorem OnlyChecks.accEcc : t.accEcc = s.accEcc := by obtain ⟨⟨_, _, _, _, rfl⟩, -, -⟩ := h; rfl
end

theorem OnlyChecks.foldl {α : Type} {f : State → α → State} {l : List α} (hf : ∀ s, ∀ a ∈ l, OnlyChecks c s (f s a)) (s : State) :
    OnlyChecks c s (l.foldl f s) :=
  List.foldlRecOn (motive := OnlyChecks c s) l f (.refl c s) fun t ht a ha => ht.trans (hf t a ha)

theorem State.onlyChecks_setFld {o : Nat} (f : Fld) (x : Nat) (ho : o ∈ checkRegs c) (hstat : o ≠ Reg.CORE_STAT c) :
    OnlyChecks c s (s.setFld o f x) := by
  refine ⟨⟨_, _, _, _, rfl⟩, fun j hj => State.rd_setFld_other _ _ _ _ fun h => hj (h ▸ ho), ?_⟩
  rw [State.scrubbing, State.flag, State.fld_setFld_other _ _ _ _ _ _ hstat.symm]
  rfl
theorem State.onlyChecks_coreStat (f : Fld) (x : Nat) (hf : f.lsb + f.width ≤ 64)
    (h : f.lsb + f.width ≤ Fl.CORE_STAT_SCRUB_BUSY.lsb ∨ Fl.CORE_STAT_SCRUB_BUSY.lsb + Fl.CORE_STAT_SCRUB_BUSY.width ≤ f.lsb) :
    OnlyChecks c s (s.setFld (Reg.CORE_STAT c) f x) := by
  refine ⟨⟨_, _, _, _, rfl⟩, fun j hj => State.rd_setFld_other _ _ _ _ fun h => hj (by simp [checkRegs, h]), ?_⟩
  rw [State.scrubbing, State.flag, State.fld_setFld_apart _ _ f Fl.CORE_STAT_SCRUB_BUSY _ hf (by decide) h]
  rfl
theorem State.onlyChecks_setEcc (o : Nat) (m : EccMark) : OnlyChecks c s (s.setEcc d o m) :=
  ⟨⟨_, _, _, _, rfl⟩, fun _ _ => rfl, rfl⟩
theorem State.onlyChecks_noteError (ue : Bool) : OnlyChecks c s (s.noteError d ue) :=
  ⟨⟨_, _, _, _, rfl⟩, fun _ _ => rfl, rfl⟩
theorem State.onlyChecks_logFault (code : Nat) (unit : FaultUnit) (part : Option Nat) (outcome detail : Nat) :
    OnlyChecks c s (s.logFault code unit part outcome detail) := by
  have hhead : Reg.DUMP_ERR_HEAD ∈ checkRegs c := by simp [checkRegs]
  have hlost : Reg.DUMP_ERR_LOST ∈ checkRegs c := by simp [checkRegs]
  have hlog (v : State) (l) : OnlyChecks c v { v with errLog := l } := ⟨⟨_, _, _, _, rfl⟩, fun _ _ => rfl, rfl⟩
  have hne (o : Nat) (h : o < 0x04000000) : o ≠ Reg.CORE_STAT c := by
    unfold Reg.CORE_STAT coreWin
    omega
  rw [State.logFault]
  split
  · exact (hlog s _).trans (State.onlyChecks_setFld _ _ hhead (hne _ (by decide)))
  · exact ((State.onlyChecks_setFld _ _ hlost (hne _ (by decide))).trans (hlog _ _)).trans
      (State.onlyChecks_setFld _ _ hhead (hne _ (by decide)))

theorem State.onlyChecks_checkWord (s : State) (c o : Nat) : OnlyChecks c s (s.checkWord c o) := by
  have hcount : Reg.CORE_ECC_COUNT c ∈ checkRegs c := by simp [checkRegs]
  have hne : Reg.CORE_ECC_COUNT c ≠ Reg.CORE_STAT c := by simp [Reg.CORE_ECC_COUNT, Reg.CORE_STAT]
  rw [State.checkWord]
  split
  · exact .refl c s
  · exact .refl c s
  · exact (((State.onlyChecks_setEcc _ _).trans (State.onlyChecks_coreStat _ _ (by decide) (by decide))).trans
      (State.onlyChecks_setFld _ _ hcount hne)).trans (State.onlyChecks_noteError _)
  · exact ((((State.onlyChecks_setEcc _ _).trans (State.onlyChecks_coreStat _ _ (by decide) (by decide))).trans
      (State.onlyChecks_setFld _ _ hcount hne)).trans (State.onlyChecks_logFault _ _ _ _ _)).trans (State.onlyChecks_noteError _)
theorem State.onlyChecks_touchWord (s : State) (c o n w : Nat) : OnlyChecks c s (s.touchWord c o n w) := by
  rw [State.touchWord]
  split
  · exact State.onlyChecks_setEcc _ _
  · exact s.onlyChecks_checkWord c w
theorem State.onlyChecks_touchWords (s : State) (c o n : Nat) : OnlyChecks c s (s.touchWords c o n) :=
  .foldl (fun s w _ => s.onlyChecks_touchWord c o n w) s
theorem State.onlyChecks_checkRange (h : s.tracked = []) (c o n : Nat) : OnlyChecks c s (s.checkRange c o n) := by
  rw [State.checkRange, State.wantLines_untracked h]
  exact .foldl (fun s w _ => s.onlyChecks_checkWord c w) s

/-! ## A read leaves what delivers poison -/

/-- Whether a mark delivers poison. -/
def EccMark.poisons : EccMark → Bool
  | .clean => false
  | .correctable => false
  | .uncorrectable => true
  | .poisoned => true
theorem State.poisonedAt_eq (s : State) (d x : Nat) : s.poisonedAt d x = (s.ecc d x).poisons := rfl

theorem State.logFault_pantryEcc (s : State) (code : Nat) (unit : FaultUnit) (part : Option Nat) (outcome detail : Nat) :
    (s.logFault code unit part outcome detail).pantryEcc = s.pantryEcc := by
  have hlog (v : State) (l) : ({ v with errLog := l } : State).pantryEcc = v.pantryEcc := rfl
  rw [State.logFault, State.setFld_pantryEcc, hlog]
  split
  · rfl
  · exact State.bump_pantryEcc _ _ _ _
theorem State.noteError_pantryEcc (s : State) (c : Nat) (ue : Bool) : (s.noteError c ue).pantryEcc = s.pantryEcc := rfl

/-- A check of a word sets one mark, to one that delivers poison where the old one did. -/
theorem State.checkWord_marks (s : State) (c o : Nat) : (s.checkWord c o).pantryEcc = s.pantryEcc ∨
    ∃ m : EccMark, m.poisons = (s.ecc c o).poisons ∧ (s.checkWord c o).pantryEcc = (s.setEcc c o m).pantryEcc := by
  cases hm : s.ecc c o with
  | clean => exact .inl (by rw [State.checkWord_marked _ _ (.inl hm)])
  | poisoned => exact .inl (by rw [State.checkWord_marked _ _ (.inr hm)])
  | correctable =>
    refine .inr ⟨.clean, rfl, ?_⟩
    rw [State.checkWord, hm]
    exact (State.noteError_pantryEcc _ _ _).trans ((State.bump_pantryEcc _ _ _ _).trans (State.setFld_pantryEcc _ _ _ _))
  | uncorrectable =>
    refine .inr ⟨.poisoned, rfl, ?_⟩
    rw [State.checkWord, hm]
    exact (State.noteError_pantryEcc _ _ _).trans ((State.logFault_pantryEcc _ _ _ _ _ _).trans
      ((State.bump_pantryEcc _ _ _ _).trans (State.setFld_pantryEcc _ _ _ _)))

theorem State.poisonedAt_congr (h : t.pantryEcc = s.pantryEcc) (d x : Nat) : t.poisonedAt d x = s.poisonedAt d x := by
  rw [State.poisonedAt_eq, State.ecc, h]
  rfl
theorem State.poisonedAt_checkWord (s : State) (c o d x : Nat) : (s.checkWord c o).poisonedAt d x = s.poisonedAt d x := by
  rcases s.checkWord_marks c o with h | ⟨m, hm, h⟩
  · exact State.poisonedAt_congr h d x
  · rw [State.poisonedAt_congr h, State.poisonedAt_eq, State.ecc_setEcc]
    by_cases hk : pantryKey d x / 8 = pantryKey c o / 8
    · rw [if_pos hk, hm, State.poisonedAt_eq, State.ecc, State.ecc, hk]
    · rw [if_neg hk, State.poisonedAt_eq]
theorem State.poisonedAt_checkRange (h : s.tracked = []) (c o n d x : Nat) :
    (s.checkRange c o n).poisonedAt d x = s.poisonedAt d x := by
  rw [State.checkRange, State.wantLines_untracked h]
  refine List.foldlRecOn (motive := fun t : State => t.poisonedAt d x = s.poisonedAt d x) _ _ rfl fun t ht w _ => ?_
  rw [State.poisonedAt_checkWord, ht]

/-! ## The bytes that a write leaves -/

theorem State.storeNow_spec (h : s.tracked = []) (c o : Nat) (bs : List Byte) :
    ∃ v, OnlyChecks c s v ∧ s.storeNow c o bs = v.putBytes c o bs := by
  refine ⟨_, s.onlyChecks_touchWords c o bs.length, ?_⟩
  rw [State.storeNow, State.wantLines_untracked h]

/-- Chunks of one length laid end to end: where byte `j` of chunk `i` lies. -/
theorem flatten_getD {l : List (List Byte)} {n : Nat} : ∀ {i j : Nat} {x : List Byte}, (∀ y ∈ l, y.length = n) → l[i]? = some x → j < n →
    l.flatten.getD (n * i + j) 0 = x.getD j 0 := by
  induction l with
  | nil => intro i j x _ h; simp at h
  | cons y l ih =>
    intro i j x hl hx hj
    have hy : y.length = n := hl y List.mem_cons_self
    rw [List.flatten_cons, List.getD_eq_getElem?_getD, List.getD_eq_getElem?_getD]
    cases i with
    | zero =>
      rw [List.getElem?_cons_zero, Option.some_inj] at hx
      rw [Nat.mul_zero, Nat.zero_add, List.getElem?_append_left (by omega), hx]
    | succ i =>
      rw [List.getElem?_cons_succ] at hx
      have hrest := ih (fun z hz => hl z (List.mem_cons_of_mem _ hz)) hx hj
      rw [List.getD_eq_getElem?_getD, List.getD_eq_getElem?_getD] at hrest
      rw [List.getElem?_append_right (by rw [hy, Nat.mul_succ]; omega), ← hrest, hy, Nat.mul_succ]
      congr 2
      omega

theorem State.bytes_eq {o : Nat} {l : List Byte} (h : ∀ j < l.length, t.byte c (o + j) = l.getD j 0) : t.bytes c o l.length = l := by
  refine List.ext_getElem (by simp [State.bytes]) fun j hj hj' => ?_
  simp only [State.bytes, List.getElem_map, List.getElem_range]
  rw [h j hj', List.getD_eq_getElem?_getD, List.getElem?_eq_getElem hj', Option.getD_some]

/-- A store outside a retained dump leaves its bytes in their place. -/
theorem State.byte_storeNow (h : s.tracked = []) (hs : s.flag Reg.DUMP_STAT Fl.DUMP_STAT_RETAINED = false) (c o : Nat)
    (bs : List Byte) {i : Nat} (hi : i < bs.length) : (s.storeNow c o bs).byte c (o + i) = bs.getD i 0 := by
  obtain ⟨v, hv, hstore⟩ := State.storeNow_spec h c o bs
  rw [hstore, State.byte_putBytes _ _ _ _ _ _ hi]
  rw [State.flag, State.fld, hv.rd]
  · exact hs
  · unfold checkRegs Reg.CORE_STAT Reg.CORE_ECC_COUNT coreWin
    simp only [List.mem_cons, List.not_mem_nil, or_false, not_or]
    refine ⟨?_, ?_, by decide, by decide⟩ <;> · unfold Reg.DUMP_STAT; omega

/-- Nothing changed but what a write to a core's Pantry changes. -/
structure OnlyStores (c : Nat) (s t : State) : Prop where
  only : ∃ regs bytes marks log faults,
    t = { s with regs := regs, pantry := bytes, pantryEcc := marks, errLog := log, faults := faults }
  rd : ∀ o, o ∉ checkRegs c → t.rd o = s.rd o
  scrubbing : t.scrubbing c = s.scrubbing c
theorem OnlyStores.refl (c : Nat) (s : State) : OnlyStores c s s := ⟨⟨_, _, _, _, _, rfl⟩, fun _ _ => rfl, rfl⟩
theorem OnlyStores.trans (h : OnlyStores c s t) (h' : OnlyStores c t u) : OnlyStores c s u := by
  obtain ⟨⟨_, _, _, _, _, rfl⟩, hrd, hscrub⟩ := h
  obtain ⟨⟨_, _, _, _, _, rfl⟩, hrd', hscrub'⟩ := h'
  exact ⟨⟨_, _, _, _, _, rfl⟩, fun o ho => (hrd' o ho).trans (hrd o ho), hscrub'.trans hscrub⟩
theorem OnlyChecks.onlyStores (h : OnlyChecks c s t) : OnlyStores c s t := by
  obtain ⟨⟨_, _, _, _, rfl⟩, hrd, hscrub⟩ := h
  exact ⟨⟨_, _, _, _, _, rfl⟩, hrd, hscrub⟩
theorem OnlyPantry.onlyStores (h : OnlyPantry s t) (c : Nat) : OnlyStores c s t := by
  have hrd := h.rd
  obtain ⟨_, _, rfl⟩ := h
  exact ⟨⟨_, _, _, _, _, rfl⟩, fun o _ => hrd o, rfl⟩
theorem State.onlyStores_storeNow (h : s.tracked = []) (c o : Nat) (bs : List Byte) : OnlyStores c s (s.storeNow c o bs) := by
  obtain ⟨v, hv, hstore⟩ := State.storeNow_spec h c o bs
  rw [hstore]
  exact hv.onlyStores.trans ((State.onlyPantry_putBytes c bs v o).onlyStores c)
theorem State.store_direct (h : s.scrubbing c = false) (o : Nat) (bs : List Byte) : s.store c o bs = s.storeNow c o bs := by
  rw [State.store, h]
  rfl

section
variable (h : OnlyStores c s t)
include h
theorem OnlyStores.biWant : t.biWant = s.biWant := by obtain ⟨⟨_, _, _, _, _, rfl⟩, -, -⟩ := h; rfl
theorem OnlyStores.tracked : t.tracked = s.tracked := by obtain ⟨⟨_, _, _, _, _, rfl⟩, -, -⟩ := h; rfl
theorem OnlyStores.fires : t.fires = s.fires := by obtain ⟨⟨_, _, _, _, _, rfl⟩, -, -⟩ := h; rfl
theorem OnlyStores.tokOps : t.tokOps = s.tokOps := by obtain ⟨⟨_, _, _, _, _, rfl⟩, -, -⟩ := h; rfl
theorem OnlyStores.engOps : t.engOps = s.engOps := by obtain ⟨⟨_, _, _, _, _, rfl⟩, -, -⟩ := h; rfl
end

/-- A token's register is none of those that checks write. -/
theorem tokenReg_ne_checkRegs (c d k : Nat) (hk : k < 16) : Reg.SEQ_TOKEN c k ∉ checkRegs d := by
  unfold checkRegs Reg.SEQ_TOKEN Reg.CORE_STAT Reg.CORE_ECC_COUNT coreWin Reg.DUMP_ERR_HEAD Reg.DUMP_ERR_LOST
  simp only [List.mem_cons, List.not_mem_nil, or_false, not_or]
  omega

end Sys2Proof.Machine
end

section
/-! PROOFS. Fires deliver their outputs (O14). -/

namespace Sys2Proof.Machine

variable {s t u : State} {c k : Nat} {f : Fire} {p : Fire → Bool} {x : EvalClass}

/-- The fires that are left once fire `k` of a core leaves the queue. -/
def State.firesBut (s : State) (c k : Nat) : List Fire := s.fires.filter fun h => !(h.core == c && h.tok == k)

theorem State.findFire_spec (h : s.findFire c k p = some f) : f ∈ s.fires ∧ f.core = c ∧ f.tok = k ∧ p f = true := by
  have hf := List.find?_some h
  simp only [Bool.and_eq_true, beq_iff_eq, and_assoc] at hf
  exact ⟨List.mem_of_find?_eq_some h, hf⟩
theorem State.findFire_gone (h : t.fires = s.firesBut c k) (p : Fire → Bool) : t.findFire c k p = none := by
  rw [State.findFire, List.find?_eq_none, h]
  intro f hf
  rw [State.firesBut, List.mem_filter] at hf
  have hne := hf.2
  by_cases hcore : f.core = c
  · simp_all
  · simp [hcore]
/-- A change of fire `k` that keeps its core and token changes no other fire. -/
theorem State.firesBut_mapFire (s : State) (c k : Nat) {g : Fire → Fire} (hcore : ∀ f, (g f).core = f.core)
    (htok : ∀ f, (g f).tok = f.tok) : (s.mapFire c k g).firesBut c k = s.firesBut c k := by
  rw [State.firesBut, State.mapFire, State.firesBut]
  induction s.fires with
  | nil => rfl
  | cons f l ih =>
    rw [List.map_cons, List.filter_cons, List.filter_cons, ih]
    by_cases hf : f.core = c ∧ f.tok = k
    · simp [hf, hcore, htok]
    · simp [hf]

/-- The outputs of a fire as a token holds them. -/
def Fire.buf (f : Fire) : OutBuf := ⟨f.core, f.tok, f.elements, f.tags GroupOut.satTag, f.tags GroupOut.nonfiniteTag, []⟩
/-- A fire that has left the queue, its outputs held. -/
def State.holdOutputs (s : State) (f : Fire) : State :=
  { s with fires := s.firesBut f.core f.tok, outBufs := s.outBufs ++ [f.buf] }
theorem State.holdOutputs_regs (s : State) (f : Fire) : (s.holdOutputs f).regs = s.regs := rfl
theorem State.holdOutputs_tokOps (s : State) (f : Fire) : (s.holdOutputs f).tokOps = s.tokOps := rfl
theorem State.holdOutputs_power (s : State) (f : Fire) : (s.holdOutputs f).power = s.power := rfl
theorem State.holdOutputs_pantry (s : State) (f : Fire) : (s.holdOutputs f).pantry = s.pantry := rfl
theorem State.holdOutputs_fires (s : State) (f : Fire) : (s.holdOutputs f).fires = s.firesBut f.core f.tok := rfl
theorem State.holdOutputs_outBufs (s : State) (f : Fire) : (s.holdOutputs f).outBufs = s.outBufs ++ [f.buf] := rfl

/-- Every group of a fire without COPY delivers. -/
theorem State.deliver_all (h : s.findFire c k (fun h => h.stage == .issued && p h) = some f) (hcopy : f.copy = false)
    (hkind : f.kind ≠ .test) (htodo : ∀ q ∈ f.todo, q.2 = x) (hdrop : s.dropOf c = none) :
    s.deliver c k x p = (s.holdOutputs f).tokComplete c k f.endStatus := by
  obtain ⟨-, rfl, rfl, -⟩ := State.findFire_spec h
  have hnil : (f.todo.filter fun q => q.2 != x) = [] := by
    rw [List.filter_eq_nil_iff]
    intro q hq
    simp [htodo q hq]
  have harrived : (s.mapFire f.core f.tok fun h => { h with todo := [] }).arrived { f with todo := [] } =
      (s.holdOutputs f).tokComplete f.core f.tok f.endStatus := by
    have hleft := s.firesBut_mapFire f.core f.tok (g := fun h => { h with todo := [] }) (fun _ => rfl) fun _ => rfl
    rw [State.arrived, if_neg (by rw [hcopy]; exact Bool.false_ne_true), if_neg hkind, State.dropFire, State.holdOutputs, ← hleft]
    rfl
  rw [State.deliver, h]
  dsimp only
  rw [hnil, List.isEmpty_nil, if_pos rfl, harrived, claimSettle_none]
  exact State.dropOf_tokComplete _ _ _ _ ((State.dropOf_congr (s.holdOutputs_power f) _).trans hdrop)

theorem State.deliver_none (h : s.findFire c k (fun h => h.stage == .issued && p h) = none) : s.deliver c k x p = s := by
  rw [State.deliver, h]

/-- The fire has left the queue, its outputs are held, and its token is DONE with its status. -/
theorem State.holdOutputs_done (hc : f.core < 256) (hpending : s.tok f.core f.tok = tokPending) (hone : s.tokCount f.core f.tok = 1)
    (hok : s.tokStatus f.core f.tok = stOk) (hstatus : f.endStatus < 256) :
    ((s.holdOutputs f).tokComplete f.core f.tok f.endStatus).Completed f.core f.tok f.endStatus ∧
    ((s.holdOutputs f).tokComplete f.core f.tok f.endStatus).fires = s.firesBut f.core f.tok ∧
    ((s.holdOutputs f).tokComplete f.core f.tok f.endStatus).outBufs = s.outBufs ++ [f.buf] ∧
    PantryKept s ((s.holdOutputs f).tokComplete f.core f.tok f.endStatus) := by
  have honly := (s.holdOutputs f).onlyEnd_tokComplete f.core f.tok f.endStatus
  refine ⟨State.tokComplete_done hc ((State.tok_congr (s.holdOutputs_regs f) _ _).trans hpending)
    ((State.tokCount_congr (s.holdOutputs_tokOps f) _ _).trans hone)
    ((State.tokStatus_congr (s.holdOutputs_regs f) _ _).trans hok) hstatus, ?_, ?_, State.byte_of_pantry ?_⟩
  · rw [honly.fires, State.holdOutputs_fires]
  · rw [honly.outBufs, State.holdOutputs_outBufs]
  · rw [honly.pantry, State.holdOutputs_pantry]

/-- The bytes of a fire's outputs as COPY writes them. -/
def Fire.copyBytes (f : Fire) : List Byte := ((f.elements.take (f.outBytes / 4)).map fun w => leBytes 4 w.toNat).flatten
/-- COPY of a fire's outputs has ended. -/
def State.copyDone (s : State) (f : Fire) : State := (s.storeNow f.core f.dst f.copyBytes).dropFire f

theorem Fire.copyBytes_getD {i j : Nat} {w : Word} (hi : i < f.outBytes / 4) (hw : f.elements[i]? = some w) (hj : j < 4) :
    f.copyBytes.getD (4 * i + j) 0 = (leBytes 4 w.toNat).getD j 0 := by
  refine flatten_getD (fun y hy => ?_) ?_ hj
  · obtain ⟨v, -, rfl⟩ := List.mem_map.1 hy
    exact leBytes_length 4 _
  · rw [List.getElem?_map, List.getElem?_take_of_lt hi, hw]
    rfl
theorem Fire.copyBytes_length {i : Nat} {w : Word} (hi : i < f.outBytes / 4) (hw : f.elements[i]? = some w) :
    4 * i + 4 ≤ f.copyBytes.length := by
  have hlen : f.copyBytes.length = (f.elements.take (f.outBytes / 4)).length * 4 := by
    rw [Fire.copyBytes, List.length_flatten, List.map_map]
    simp [Function.comp_def, leBytes_length]
  have hlt := (List.getElem?_eq_some_iff.1 hw).1
  rw [hlen, List.length_take]
  omega

/-- The queue without a fire. -/
def State.dropOnly (s : State) (f : Fire) : State := { s with fires := s.firesBut f.core f.tok }
theorem State.dropOnly_fires (s : State) (f : Fire) : (s.dropOnly f).fires = s.firesBut f.core f.tok := rfl
theorem State.dropOnly_pantry (s : State) (f : Fire) : (s.dropOnly f).pantry = s.pantry := rfl
theorem State.dropOnly_biWant (s : State) (f : Fire) : (s.dropOnly f).biWant = s.biWant := rfl

theorem State.copyDone_spec (hlines : s.tracked = []) (hs : s.flag Reg.DUMP_STAT Fl.DUMP_STAT_RETAINED = false)
    (hc : f.core < 256) (ht : f.tok < 16) (hpending : s.tok f.core f.tok = tokPending) (hone : s.tokCount f.core f.tok = 1)
    (hok : s.tokStatus f.core f.tok = stOk) (hstatus : f.endStatus < 256) :
    (s.copyDone f).Completed f.core f.tok f.endStatus ∧ (s.copyDone f).fires = s.firesBut f.core f.tok ∧
    (∀ i w, i < f.outBytes / 4 → f.elements[i]? = some w → (s.copyDone f).bytes f.core (f.dst + 4 * i) 4 = leBytes 4 w.toNat) ∧
    (s.copyDone f).biWant = s.biWant := by
  have hstore := s.onlyStores_storeNow hlines f.core f.dst f.copyBytes
  have hbyte (i : Nat) := State.byte_storeNow hlines hs f.core f.dst f.copyBytes (i := i)
  rw [State.copyDone]
  generalize s.storeNow f.core f.dst f.copyBytes = v at hstore hbyte ⊢
  have hrd : v.rd (Reg.SEQ_TOKEN f.core f.tok) = s.rd (Reg.SEQ_TOKEN f.core f.tok) := hstore.rd _ (tokenReg_ne_checkRegs _ _ _ ht)
  have honly := (v.dropOnly f).onlyEnd_tokComplete f.core f.tok f.endStatus
  have hdone : ((v.dropOnly f).tokComplete f.core f.tok f.endStatus).Completed f.core f.tok f.endStatus :=
    State.tokComplete_done hc ((State.tok_congr_rd hrd).trans hpending) ((State.tokCount_congr hstore.tokOps _ _).trans hone)
      ((State.tokStatus_congr_rd hrd).trans hok) hstatus
  rw [show v.dropFire f = (v.dropOnly f).tokComplete f.core f.tok f.endStatus from rfl]
  refine ⟨hdone, ?_, fun i w hi hw => ?_, ?_⟩
  · rw [honly.fires, State.dropOnly_fires, State.firesBut, hstore.fires, State.firesBut]
  · refine State.bytes_eq (l := leBytes 4 w.toNat) fun j hj => ?_
    rw [leBytes_length] at hj
    have hlen := Fire.copyBytes_length hi hw
    rw [State.byte_of_pantry (honly.pantry.trans (v.dropOnly_pantry f)), Nat.add_assoc, hbyte _ (by omega),
      Fire.copyBytes_getD hi hw hj]
  · rw [honly.biWant, State.dropOnly_biWant, hstore.biWant]

/-- Settles O14: the last evaluations by `State.deliver_all`, and the end of a COPY by `State.copyDone_spec`. -/
theorem firesDeliverTheirOutputs : Obligations.FiresDeliverTheirOutputs := by
  unfold Obligations.FiresDeliverTheirOutputs
  refine ⟨fun c tk s f p hdrop hpending hone hok hseq hfind hcopy hkind hne hstatus => ?deliver,
    fun c tk s f hlines hs hfind hpending hone hok hstatus hscrub => ?copy⟩
  case deliver =>
    obtain ⟨-, hcore, htok, -⟩ := State.findFire_spec hfind
    have hdone := State.holdOutputs_done (s := s) (f := f) (by rw [hcore]; exact c.isLt) (by rwa [hcore, htok])
      (by rwa [hcore, htok]) (by rwa [hcore, htok]) hstatus
    have hbuf : f.buf = ⟨c, tk, f.elements, f.tags GroupOut.satTag, f.tags GroupOut.nonfiniteTag, []⟩ := by
      rw [Fire.buf, hcore, htok]
    rw [hcore, htok, hbuf] at hdone
    obtain ⟨⟨hd, hst⟩, hfires, hbufs, hpantry⟩ := hdone
    have all (x : EvalClass) (htodo : ∀ q ∈ f.todo, q.2 = x) := State.deliver_all hfind hcopy hkind htodo hdrop
    simp only [List.forall_mem_cons, List.not_mem_nil, false_implies, implies_true, and_true]
    refine ⟨fun _ htodo hp => ?_, fun _ htodo hp => ?_, fun _ htodo hp => ?_, fun _ htodo hp => ?_⟩
    · obtain rfl : p = fun h => h.kind != .reverse := hp.trans (by simp)
      exact ⟨_, rfl, by rw [all _ htodo]; exact ⟨hd, hst, hfires, hbufs, hpantry⟩⟩
    · obtain rfl : p = fun h => h.kind != .reverse := hp.trans (by simp)
      exact ⟨_, rfl, by rw [all _ htodo]; exact ⟨hd, hst, hfires, hbufs, hpantry⟩⟩
    · obtain rfl : p = fun _ => true := hp.trans (by simp)
      exact ⟨_, rfl, by rw [all _ htodo]; exact ⟨hd, hst, hfires, hbufs, hpantry⟩⟩
    · obtain rfl : p = fun h => h.kind == .reverse := hp.trans (by simp)
      refine ⟨_, rfl, ?_⟩
      rw [all _ htodo, State.deliver_none (State.findFire_gone hfires _)]
      exact ⟨hd, hst, hfires, hbufs, hpantry⟩
  case copy =>
    obtain ⟨-, hcore, htok, -⟩ := State.findFire_spec hfind
    obtain ⟨hdone, hfires, hbytes, hstill⟩ := State.copyDone_spec (f := f) hlines.1 hs (by rw [hcore]; exact c.isLt)
      (by rw [htok]; exact tk.isLt) (by rwa [hcore, htok]) (by rwa [hcore, htok]) (by rwa [hcore, htok]) hstatus
    have hexec : exec (.fireCopyDone c tk) s = .next (s.copyDone f) := by
      refine congrArg Host.Outcome.next ((congrArg s.settle ?_).trans (State.settle_of_still _ _ (hstill.trans hlines.2)))
      rw [hfind]
      dsimp only
      rw [hcore, hscrub, if_neg Bool.false_ne_true, State.store_direct hscrub, State.copyDone, Fire.copyBytes, hcore]
    rw [hcore, htok] at hdone hfires
    rw [hcore] at hbytes
    exact ⟨_, hexec, hdone.1, hdone.2, hfires, hbytes⟩

end Sys2Proof.Machine
end

section
/-! PROOFS. What evaluations and checks of bins change. -/

namespace Sys2Proof.Machine

variable {s t u : State}

/-- Nothing changed but the registers and what the module keeps about its bins and racks. -/
def OnlyBins (s t : State) : Prop :=
  ∃ regs fresh labels bins racks checks stats errs drifts acts queue, t = { s with
    regs := regs, fresh := fresh, labelEcc := labels, binRecs := bins, rackRecs := racks, binChecks := checks,
    colStats := stats, errLog := errs, driftLog := drifts, driftActs := acts, refreshQ := queue }
theorem OnlyBins.refl (s : State) : OnlyBins s s := ⟨_, _, _, _, _, _, _, _, _, _, _, rfl⟩
theorem OnlyBins.trans (h : OnlyBins s t) (h' : OnlyBins t u) : OnlyBins s u := by
  obtain ⟨_, _, _, _, _, _, _, _, _, _, _, rfl⟩ := h
  obtain ⟨_, _, _, _, _, _, _, _, _, _, _, rfl⟩ := h'
  exact ⟨_, _, _, _, _, _, _, _, _, _, _, rfl⟩
theorem OnlyBins.foldl {α : Type} {f : State → α → State} (hf : ∀ s a, OnlyBins s (f s a)) (l : List α) (s : State) :
    OnlyBins s (l.foldl f s) :=
  List.foldlRecOn (motive := OnlyBins s) l f (.refl s) fun t ht a _ => ht.trans (hf t a)
/-- A fold that carries results beside the state. -/
theorem OnlyBins.foldl_pair {α β : Type} {f : State × β → α → State × β} (hf : ∀ p a, OnlyBins p.1 (f p a).1) (l : List α)
    (p : State × β) : OnlyBins p.1 (l.foldl f p).1 :=
  List.foldlRecOn (motive := fun q : State × β => OnlyBins p.1 q.1) l f (.refl p.1) fun q hq a _ => hq.trans (hf q a)
theorem OnlyBins.ite {p : Prop} [Decidable p] (ht : OnlyBins s t) (hu : OnlyBins s u) : OnlyBins s (if p then t else u) := by
  split
  · exact ht
  · exact hu
theorem OnlyRegs.onlyBins (h : OnlyRegs s t) : OnlyBins s t := by
  rw [h]
  exact ⟨_, _, _, _, _, _, _, _, _, _, _, rfl⟩

section
variable (h : OnlyBins s t)
include h
theorem OnlyBins.fires : t.fires = s.fires := by obtain ⟨_, _, _, _, _, _, _, _, _, _, _, rfl⟩ := h; rfl
theorem OnlyBins.pantry : t.pantry = s.pantry := by obtain ⟨_, _, _, _, _, _, _, _, _, _, _, rfl⟩ := h; rfl
end

/-! ## One update -/

theorem State.onlyBins_setFld (s : State) (o : Nat) (f : Fld) (x : Nat) : OnlyBins s (s.setFld o f x) :=
  OnlyRegs.onlyBins rfl
theorem State.onlyBins_wr (s : State) (o : Nat) (v : DWord) : OnlyBins s (s.wr o v) := OnlyRegs.onlyBins rfl
theorem State.onlyBins_bump (s : State) (o : Nat) (f : Fld) (n : Nat) : OnlyBins s (s.bump o f n) := OnlyRegs.onlyBins rfl
theorem State.onlyBins_count (s : State) (o n : Nat) : OnlyBins s (s.count o n) := OnlyRegs.onlyBins rfl
theorem State.onlyBins_sticky (s : State) (o : Nat) (f : Fld) (b : Bool) : OnlyBins s (s.sticky o f b) := by
  unfold State.sticky
  split
  · exact s.onlyBins_setFld o f 1
  · exact .refl s
theorem State.onlyBins_drew (s : State) : OnlyBins s s.drew := ⟨_, _, _, _, _, _, _, _, _, _, _, rfl⟩
theorem State.onlyBins_setLabMark (s : State) (k : Nat) (m : LabelMark) : OnlyBins s (s.setLabMark k m) :=
  ⟨_, _, _, _, _, _, _, _, _, _, _, rfl⟩
theorem State.onlyBins_setBinRec (s : State) (g : Nat) (r : BinRec) : OnlyBins s (s.setBinRec g r) :=
  ⟨_, _, _, _, _, _, _, _, _, _, _, rfl⟩
theorem State.onlyBins_setRackRec (s : State) (r : Nat) (x : RackRec) : OnlyBins s (s.setRackRec r x) :=
  ⟨_, _, _, _, _, _, _, _, _, _, _, rfl⟩
theorem State.onlyBins_setCheck (s : State) (g : Nat) (k : BinCheck) : OnlyBins s (s.setCheck g k) :=
  ⟨_, _, _, _, _, _, _, _, _, _, _, rfl⟩
theorem State.onlyBins_setColStat (s : State) (g col : Nat) (k : ColStat) : OnlyBins s (s.setColStat g col k) :=
  ⟨_, _, _, _, _, _, _, _, _, _, _, rfl⟩
theorem State.onlyBins_testStart (s : State) (g : Nat) : OnlyBins s (s.testStart g) := s.onlyBins_setCheck g _

/-! ## Records of faults and drift -/

theorem State.onlyBins_logFault (s : State) (code : Nat) (unit : FaultUnit) (part : Option Nat) (outcome detail : Nat) :
    OnlyBins s (s.logFault code unit part outcome detail) := by
  have hlog (v : State) (l) : OnlyBins v { v with errLog := l } := ⟨_, _, _, _, _, _, _, _, _, _, _, rfl⟩
  rw [State.logFault]
  split
  · exact (hlog s _).trans (State.onlyBins_setFld _ _ _ _)
  · exact ((s.onlyBins_bump _ _ _).trans (hlog _ _)).trans (State.onlyBins_setFld _ _ _ _)
theorem State.onlyBins_logDriftAt (s : State) (stamp g part source e action outcome : Nat) :
    OnlyBins s (s.logDriftAt stamp g part source e action outcome) := by
  have hlog (v : State) (l) : OnlyBins v { v with driftLog := l } := ⟨_, _, _, _, _, _, _, _, _, _, _, rfl⟩
  rw [State.logDriftAt]
  split
  · exact (hlog s _).trans (State.onlyBins_setFld _ _ _ _)
  · exact ((s.onlyBins_bump _ _ _).trans (hlog _ _)).trans (State.onlyBins_setFld _ _ _ _)
theorem State.onlyBins_logDrift (s : State) (g part source e action outcome : Nat) :
    OnlyBins s (s.logDrift g part source e action outcome) := s.onlyBins_logDriftAt _ _ _ _ _ _ _
theorem State.onlyBins_setBinState (s : State) (g : Nat) (x : BinState) : OnlyBins s (s.setBinState g x) :=
  s.onlyBins_setBinRec g _
theorem State.onlyBins_offlineBin (s : State) (g : Nat) : OnlyBins s (s.offlineBin g) := by
  rw [State.offlineBin]
  split
  · exact (s.onlyBins_setBinState g _).trans (State.onlyBins_logFault _ _ _ _ _ _)
  · exact s.onlyBins_setBinState g _
theorem State.onlyBins_driftEvent (s : State) (g e source act : Nat) : OnlyBins s (s.driftEvent g e source act) := by
  have hqueue (v : State) (l) : OnlyBins v { v with refreshQ := l } := ⟨_, _, _, _, _, _, _, _, _, _, _, rfl⟩
  have hacts (v : State) (l) : OnlyBins v { v with driftActs := l } := ⟨_, _, _, _, _, _, _, _, _, _, _, rfl⟩
  rw [State.driftEvent]
  split
  · exact s.onlyBins_logDrift _ _ _ _ _ _
  · split
    · exact s.onlyBins_logDrift _ _ _ _ _ _
    · split
      · exact (hqueue s _).trans (State.onlyBins_logDrift _ _ _ _ _ _ _)
      · exact hacts s _

/-! ## Reading labels and running patterns -/

theorem State.onlyBins_readLabel (s : State) (unit k : Nat) : OnlyBins s (s.readLabel unit k) := by
  rw [State.readLabel]
  split
  · exact ((s.onlyBins_setLabMark _ _).trans (State.onlyBins_setRackRec _ _ _)).trans (State.onlyBins_setFld _ _ _ _)
  · exact ((((s.onlyBins_setLabMark _ _).trans (State.onlyBins_setRackRec _ _ _)).trans (State.onlyBins_setFld _ _ _ _)).trans
      (.ite (State.onlyBins_setFld _ _ _ _) (.refl _))).trans ((State.onlyBins_logFault _ _ _ _ _ _).trans
        (.ite (State.onlyBins_offlineBin _ _) (.ite (.refl _) (State.onlyBins_logDrift _ _ _ _ _ _ _))))
  · exact .refl s
theorem State.onlyBins_readLabels (s : State) (unit : Nat) (p : Nat → Bool) : OnlyBins s (s.readLabels unit p) :=
  OnlyBins.foldl (fun (s : State) (e : Nat × LabelMark) => s.onlyBins_readLabel unit e.1) _ s
theorem State.onlyBins_checkSpans (s : State) (d unit : Nat) (racks lanes : List Nat) :
    OnlyBins s (s.checkSpans d unit racks lanes) := by
  exact .foldl (fun s r => .ite ((s.onlyBins_setRackRec _ _).trans (State.onlyBins_setFld _ _ _ _)) (.refl s)) racks s
theorem State.onlyBins_countClamps (s : State) (unit : Nat) (racks : List Nat) : OnlyBins s (s.countClamps unit racks) :=
  .foldl (fun s _ => ((s.onlyBins_setRackRec _ _).trans (State.onlyBins_bump _ _ _ _)).trans (State.onlyBins_setFld _ _ _ _)) racks s
theorem State.onlyBins_capture (s : State) (d unit g half lane : Nat) (poisoned : Bool) (xs : List Block32) :
    OnlyBins s (s.capture d unit g half lane poisoned xs) := by
  rw [State.capture]
  dsimp only
  split
  · exact ((OnlyBins.foldl (fun s _ => s.onlyBins_wr _ _) _ s).trans (State.onlyBins_setFld _ _ _ _)).trans
      (State.onlyBins_setFld _ _ _ _)
  · exact .refl s
theorem State.onlyBins_takeStats (s : State) (g : Nat) (cols : List (List BlockOut)) : OnlyBins s (s.takeStats g cols) := by
  rw [State.takeStats]
  dsimp only
  split
  · refine (s.onlyBins_setCheck _ _).trans (.foldl (fun s p => ?_) _ _)
    split
    · exact .refl s
    · exact s.onlyBins_setColStat _ _ _
  · exact .refl s
theorem State.onlyBins_measurePattern (s : State) (unit g lane pat : Nat) : OnlyBins s (s.measurePattern unit g lane pat).1 := by
  rw [State.measurePattern]
  dsimp only
  have hread : OnlyBins s (((s.drew).readLabels unit (isForwardOf g 0)).checkSpans s.fresh unit (racksOf g 0) [lane]) :=
    (s.onlyBins_drew.trans (State.onlyBins_readLabels _ _ _)).trans (State.onlyBins_checkSpans _ _ _ _ _)
  refine hread.trans ?_
  generalize ((s.drew).readLabels unit (isForwardOf g 0)).checkSpans s.fresh unit (racksOf g 0) [lane] = v
  refine OnlyBins.foldl_pair (fun p _ => ?_) _ (v, 0)
  exact (p.1.onlyBins_capture _ _ _ _ _ _ _).trans (State.onlyBins_countClamps _ _ _)
theorem State.onlyBins_recordSet (s : State) (g n : Nat) : OnlyBins s (s.recordSet g n) := s.onlyBins_setBinRec g _
theorem State.onlyBins_endSet (s : State) (g n source : Nat) (q : DWord × DWord) : OnlyBins s (s.endSet g n source q) := by
  rw [State.endSet]
  split
  · exact (s.onlyBins_recordSet g n).trans (State.onlyBins_driftEvent _ _ _ _ _)
  · split
    · exact (s.onlyBins_recordSet g n).trans (State.onlyBins_logDriftAt _ _ _ _ _ _ _ _)
    · exact s.onlyBins_recordSet g n
theorem State.onlyBins_closeSet (s : State) (g n : Nat) : OnlyBins s (s.closeSet g n) :=
  (s.onlyBins_endSet _ _ _ _).trans (State.onlyBins_setCheck _ _ _)
theorem State.onlyBins_runPattern (s : State) (unit g lane pat : Nat) : OnlyBins s (s.runPattern unit g lane pat) := by
  rw [State.runPattern]
  dsimp only
  refine (s.onlyBins_readLabels unit (isTestOf g)).trans ?_
  generalize s.readLabels unit (isTestOf g) = v
  refine .ite (.refl _) ?_
  have hstart : OnlyBins v (if (v.check g).errs.any Option.isSome then v else v.testStart g) := .ite (.refl _) (v.onlyBins_testStart g)
  refine hstart.trans ?_
  generalize (if (v.check g).errs.any Option.isSome then v else v.testStart g) = w
  refine (w.onlyBins_measurePattern unit g lane pat).trans ?_
  generalize w.measurePattern unit g lane pat = r
  exact .ite ((State.onlyBins_setCheck _ _ _).trans (State.onlyBins_closeSet _ _ _)) (State.onlyBins_setCheck _ _ _)
theorem State.onlyBins_ride (s : State) (unit : Nat) (q : FireGroup) (free : List Nat) : OnlyBins s (s.ride unit q free) :=
  .foldl (fun _ _ => .foldl (fun s _ => s.onlyBins_runPattern _ _ _ _) _ _) _ s

/-! ## The evaluations of a fire -/

theorem GroupRun.onlyBins_ite {p : Prop} [Decidable p] {a b : GroupRun} (ha : OnlyBins s a.st) (hb : OnlyBins s b.st) :
    OnlyBins s (if p then a else b).st := by
  split
  · exact ha
  · exact hb
theorem State.onlyBins_fireForward (s : State) (f : Fire) (q : FireGroup) (gi : Nat) : OnlyBins s (s.fireForward f q gi).st := by
  rw [State.fireForward]
  dsimp only
  have hmap : OnlyBins s ((List.range q.size).foldl (fun (s : State) i => s.readLabels f.core (isMapOf (q.bin + i))) s) :=
    .foldl (fun s i => s.onlyBins_readLabels _ _) _ s
  refine hmap.trans ?_
  generalize (List.range q.size).foldl (fun (s : State) i => s.readLabels f.core (isMapOf (q.bin + i))) s = v
  refine GroupRun.onlyBins_ite (v.onlyBins_setFld _ _ _) (v.onlyBins_drew.trans ?_)
  generalize v.drew = w
  refine OnlyBins.trans (OnlyBins.foldl (fun s i => ?read) (List.range q.size) w) (OnlyBins.foldl_pair (fun p l => ?lane) _ (_, []))
  case read =>
    exact .ite (.refl s) ((s.onlyBins_readLabels _ _).trans (State.onlyBins_checkSpans _ _ _ _ _))
  case lane =>
    split
    · exact OnlyBins.foldl (fun u i => u.onlyBins_capture _ _ _ _ _ _ _) _ _
    · generalize State.lane p.1 _ _ q l.1 _ = a
      refine OnlyBins.trans ?_ (OnlyBins.foldl (fun u i => u.onlyBins_capture _ _ _ _ _ _ _) _ _)
      refine OnlyBins.trans ?_ (State.onlyBins_sticky _ _ _ _)
      refine (p.1.onlyBins_countClamps f.core a.satRacks).trans (OnlyBins.foldl (fun u k => ?_) _ _)
      exact u.onlyBins_takeStats k.1 k.2
theorem State.onlyBins_fireReverse (s : State) (f : Fire) (q : FireGroup) (gi : Nat) : OnlyBins s (s.fireReverse f q gi).st := by
  rw [State.fireReverse]
  dsimp only
  refine (s.onlyBins_readLabels f.core (isMapOf q.bin)).trans ?_
  generalize s.readLabels f.core (isMapOf q.bin) = v
  refine GroupRun.onlyBins_ite (v.onlyBins_setFld _ _ _) (v.onlyBins_drew.trans ?_)
  generalize v.drew = w
  refine GroupRun.onlyBins_ite (.refl _) ?_
  generalize List.all _ _ = zero
  cases zero with
  | true => exact GroupRun.onlyBins_ite (.refl _) (.refl _)
  | false =>
    simp only [Bool.false_eq_true, if_false]
    have hread : OnlyBins w ((w.readLabels f.core (isReverseOf q.bin)).checkSpans v.fresh f.core (racksOf q.bin 0) [0]) :=
      (w.onlyBins_readLabels _ _).trans (State.onlyBins_checkSpans _ _ _ _ _)
    refine hread.trans ?_
    generalize (w.readLabels f.core (isReverseOf q.bin)).checkSpans v.fresh f.core (racksOf q.bin 0) [0] = x
    refine GroupRun.onlyBins_ite (.refl _) ?_
    dsimp only
    generalize List.filter _ (racksOf q.bin 0) = clamped
    generalize List.any _ _ = nf
    generalize List.any _ _ = sc
    exact ((x.onlyBins_countClamps f.core clamped).trans (State.onlyBins_sticky _ _ _ nf)).trans (State.onlyBins_sticky _ _ _ sc)
theorem State.onlyBins_fireTest (s : State) (f : Fire) (q : FireGroup) : OnlyBins s (s.fireTest f q).st := by
  rw [State.fireTest]
  dsimp only
  refine (s.onlyBins_readLabels f.core (isMapOf q.bin)).trans ?_
  generalize s.readLabels f.core (isMapOf q.bin) = v
  refine GroupRun.onlyBins_ite (v.onlyBins_setFld _ _ _) ((v.onlyBins_readLabels f.core (isTestOf q.bin)).trans ?_)
  generalize v.readLabels f.core (isTestOf q.bin) = w
  refine GroupRun.onlyBins_ite (.refl _) ?_
  generalize (if f.lanes = 15 ∨ (w.check q.bin).asked.length ≠ 4 then [none, none, none, none] else (w.check q.bin).asked) = old
  have hstart : OnlyBins w (if old.any Option.isSome then w else
      (w.setCheck q.bin { w.check q.bin with askHeld := none }).testStart q.bin) :=
    .ite (.refl _) ((w.onlyBins_setCheck _ _).trans (State.onlyBins_testStart _ _))
  refine hstart.trans ?_
  generalize (if old.any Option.isSome then w else (w.setCheck q.bin { w.check q.bin with askHeld := none }).testStart q.bin) = x
  have hfold : OnlyBins x (f.laneList.foldl (fun (a : State × List (Option Nat)) (p : Nat) =>
      ((a.1.measurePattern f.core q.bin p p).1, a.2.set p (some (a.1.measurePattern f.core q.bin p p).2))) (x, old)).1 := by
    refine OnlyBins.foldl_pair (fun p a => ?_) _ (x, old)
    dsimp only
    exact p.1.onlyBins_measurePattern f.core q.bin a a
  refine hfold.trans ?_
  generalize f.laneList.foldl (fun (a : State × List (Option Nat)) (p : Nat) =>
      ((a.1.measurePattern f.core q.bin p p).1, a.2.set p (some (a.1.measurePattern f.core q.bin p p).2))) (x, old) = r
  exact GroupRun.onlyBins_ite ((State.onlyBins_endSet _ _ _ _ _).trans (State.onlyBins_setCheck _ _ _)) (State.onlyBins_setCheck _ _ _)
theorem State.onlyBins_fireGroup (s : State) (f : Fire) (q : FireGroup) (gi : Nat) : OnlyBins s (s.fireGroup f q gi).st := by
  rw [State.fireGroup]
  split
  · exact s.onlyBins_fireForward f q gi
  · exact s.onlyBins_fireReverse f q gi
  · exact s.onlyBins_fireTest f q

end Sys2Proof.Machine
end

section
/-! PROOFS. Fires are staged and issued (O13). -/

namespace Sys2Proof.Machine

variable {s t u : State} {c k n : Nat} {f : Fire}

/-! ## Staging (R195, R217) -/

theorem State.onlyChecks_checkRanges (c n : Nat) (l : List Nat) : ∀ s : State, s.tracked = [] →
    OnlyChecks c s (l.foldl (fun (s : State) o => s.checkRange c o n) s) := by
  induction l with
  | nil => exact fun s _ => .refl c s
  | cons o l ih =>
    intro s hs
    have hrange := State.onlyChecks_checkRange hs c o n
    exact hrange.trans (ih _ (hrange.tracked.trans hs))

theorem State.mapFire_fires (s : State) (c k : Nat) (g : Fire → Fire) :
    (s.mapFire c k g).fires = s.fires.map fun h => if h.core = c ∧ h.tok = k then g h else h := rfl
theorem State.mapFire_pantry (s : State) (c k : Nat) (g : Fire → Fire) : (s.mapFire c k g).pantry = s.pantry := rfl
theorem State.mapFire_biWant (s : State) (c k : Nat) (g : Fire → Fire) : (s.mapFire c k g).biWant = s.biWant := rfl

/-- The lanes of a forward fire whose inputs hold a poisoned word. -/
def State.lanePoison (s : State) (f : Fire) : Nat :=
  f.laneList.zipIdx.foldl (fun a p =>
    if s.poisonIn f.core (f.src + p.1 * f.stride) (17 * inputBlocks f.groups) then a + 2 ^ p.2 else a) 0

/-- A forward fire staged. -/
def State.stagedFire (s : State) (f : Fire) : State :=
  (f.laneList.foldl (fun (s : State) l => s.checkRange f.core (f.src + l * f.stride) (17 * inputBlocks f.groups)) s).mapFire
    f.core f.tok fun h => { h with
      stage := .staged
      input := f.laneList.map fun l => s.bytes f.core (f.src + l * f.stride) (17 * inputBlocks f.groups)
      poison := s.lanePoison f }

theorem exec_fireStaging {c : CoreId} (h : (s.fires.find? fun h => h.core == c.val && h.stage == .queued) = some f)
    (hkind : f.kind = .forward) (hroom : s.stageUsed c + f.stageBytes ≤ 262144) :
    exec (.fireStaging c) s = .next (s.settle (s.stagedFire f)) := by
  have hcore : f.core = c := by
    have := List.find?_some h
    simp only [Bool.and_eq_true, beq_iff_eq] at this
    exact this.1
  refine congrArg (fun t => Host.Outcome.next (s.settle t)) ?_
  rw [h]
  dsimp only
  rw [decide_eq_false (Nat.not_lt.2 hroom), if_neg Bool.false_ne_true, hkind]
  dsimp only
  rw [List.map_map, List.foldl_map, List.zipIdx_map, List.foldl_map, State.stagedFire, State.lanePoison, hcore]
  rfl

theorem State.stagedFire_spec (hlines : s.noHostLines) :
    s.settle (s.stagedFire f) = s.stagedFire f ∧ (s.stagedFire f).pantry = s.pantry ∧ (s.stagedFire f).fires = s.fires.map (fun h =>
      if h.core = f.core ∧ h.tok = f.tok then { h with
        stage := .staged
        input := f.laneList.map fun l => s.bytes f.core (f.src + l * f.stride) (17 * inputBlocks f.groups)
        poison := s.lanePoison f } else h) := by
  have hchecks := State.onlyChecks_checkRanges f.core (17 * inputBlocks f.groups) (f.laneList.map fun l => f.src + l * f.stride) s
    hlines.1
  rw [List.foldl_map] at hchecks
  refine ⟨State.settle_of_still _ _ ?_, ?_, ?_⟩
  · rw [State.stagedFire, State.mapFire_biWant, hchecks.biWant, hlines.2]
  · rw [State.stagedFire, State.mapFire_pantry, hchecks.pantry]
  · rw [State.stagedFire, State.mapFire_fires, hchecks.fires]

/-! ## Issue (R217, R218, R477) -/

/-- A fire as its issue leaves it. -/
def issuedFire (outs : List GroupOut) (todo : List (Nat × EvalClass)) (status : Nat) (f : Fire) : Fire :=
  { f with stage := .issued, input := [], outs := outs, todo := todo, status := status }

theorem State.issueFire_fires (s : State) (f : Fire) : ∃ outs todo status, (s.issueFire f).fires =
    s.fires.map fun h => if h.core = f.core ∧ h.tok = f.tok then issuedFire outs todo status h else h := by
  rw [State.issueFire]
  dsimp only
  generalize hr : List.foldl _ _ f.groups.zipIdx = r
  have hrun : OnlyBins s r.1 := by
    rw [← hr]
    refine OnlyBins.foldl_pair (fun a p => ?_) _ (s, _)
    exact (a.1.onlyBins_fireGroup f p.1 p.2).trans (.ite (State.onlyBins_ride _ _ _ _) (.refl _))
  refine ⟨r.2.1, joinHalves f r.2.2.1, r.2.2.2, ?_⟩
  rw [State.mapFire_fires, State.bump_fires, State.count_fires, State.count_fires, hrun.fires]
  rfl

section
variable {outs : List GroupOut} {todo : List (Nat × EvalClass)} {status : Nat}
  (hfires : t.fires = s.fires.map fun h => if h.core = c ∧ h.tok = k then issuedFire outs todo status h else h)
include hfires
theorem issuedFire_mem (hmem : f ∈ s.fires) (hcore : f.core = c) (htok : f.tok = k) :
    ∃ h ∈ t.fires, h.core = c ∧ h.tok = k := by
  refine ⟨issuedFire outs todo status f, ?_, hcore, htok⟩
  rw [hfires, List.mem_map]
  exact ⟨f, hmem, if_pos ⟨hcore, htok⟩⟩
theorem issuedFire_all : ∀ h ∈ t.fires, h.core = c → h.tok = k → h.stage = .issued ∧ h.input = [] := by
  intro h hh hcore htok
  rw [hfires, List.mem_map] at hh
  obtain ⟨f, -, rfl⟩ := hh
  split
  · exact ⟨rfl, rfl⟩
  · next hne =>
    rw [if_neg hne] at hcore htok
    exact absurd ⟨hcore, htok⟩ hne
end

/-- Settles O13: staging by `State.stagedFire_spec`, and issue by `State.issueFire_fires`. -/
theorem firesAreStagedAndIssued : Obligations.FiresAreStagedAndIssued := by
  unfold Obligations.FiresAreStagedAndIssued
  refine ⟨fun c s f hlines hfind hkind hroom => ?staged, fun c tk s f hfind hahead => ?issue⟩
  case staged =>
    obtain ⟨hsettle, hpantry, hfires⟩ := State.stagedFire_spec (f := f) hlines
    have hcore : f.core = c := by
      have := List.find?_some hfind
      simp only [Bool.and_eq_true, beq_iff_eq] at this
      exact this.1
    refine ⟨_, (exec_fireStaging hfind hkind hroom).trans (congrArg _ hsettle), State.byte_of_pantry hpantry, ?_⟩
    rw [hfires, State.lanePoison, hcore]
  case issue =>
    obtain ⟨hmem, hcore, htok, hst⟩ := State.findFire_spec hfind
    have hexec : exec (.fireIssue c tk) s = .next (if 1048576 < s.outUsed f.core + f.reserve then
        s.setFld (Reg.RIF_STAT f.core) Fl.RIF_STAT_OUTBUF_WAIT 1 else if s.hasLeave f then s.issueFire f else s) := by
      refine congrArg Host.Outcome.next ?_
      rw [hfind]
      dsimp only
      rw [hcore, htok, hahead]
      rfl
    have hleave : s.hasLeave f = decide (s.binsInFlight c + groupBins f.groups ≤ s.binsGranted c) := by rw [State.hasLeave, hcore]
    rw [hcore] at hexec
    refine ⟨fun hroom hbins => ?_, fun hfull => ?_, fun hroom hbins => ?_⟩
    · rw [if_neg (Nat.not_lt.2 hroom), hleave, if_pos (decide_eq_true hbins)] at hexec
      obtain ⟨outs, todo, status, hfires⟩ := s.issueFire_fires f
      rw [hcore, htok] at hfires
      exact ⟨_, hexec, issuedFire_mem hfires hmem hcore htok, issuedFire_all hfires⟩
    · rwa [if_pos hfull] at hexec
    · rwa [if_neg (Nat.not_lt.2 hroom), hleave, if_neg (by simpa using hbins)] at hexec

end Sys2Proof.Machine
end

section
/-! PROOFS. Vector instructions queue (O17). -/

namespace Sys2Proof.Machine

variable {s t u : State} {c k n : Nat}

/-! ## The checks (R255, R256, R258) -/

theorem rangeBad_and {b : Bool} {a : Word} {n : Nat} (h : b = true → a.toNat < pantrySize ∧ a.toNat + n ≤ pantrySize) :
    (b && rangeBad a n) = false := copy_fits h

/-- What every operand check of a vector instruction asks (R255, R256). -/
structure State.VecOk (s : State) (c : CoreId) (f : UFmt) (p : Nat) : Prop where
  length : (s.g c f.gn.val).toNat ≠ 0
  short : (s.g c f.gn.val).toNat ≤ if p = 0x65 ∨ isGated p f.fn.toNat = true then 32768 else 65536
  scale : p = 0x63 → (s.g c (vGx f.imm)).toNat % 2 ^ 32 ≠ 0
  pantry : vSk f.imm = 0 → (s.a c f.as.val).toNat < pantrySize ∧ (s.a c f.as.val).toNat +
    srcBytesOf p f.fn.toNat (vSf f.imm) (s.g c f.gn.val).toNat (s.g c (vGx f.imm)) ≤ pantrySize
  buffer : vSk f.imm = 1 → ∃ b, s.bufferOf c (vSi f.imm) = some b ∧ (s.a c f.as.val).toNat +
    srcCount p f.fn.toNat (s.g c f.gn.val).toNat (s.g c (vGx f.imm)) ≤ b.vals.length
  engine : vSk f.imm = 2 → (s.engAvail c).testBit (vSi f.imm) = true ∧ (s.a c f.as.val).toNat +
    srcCount p f.fn.toNat (s.g c f.gn.val).toNat (s.g c (vGx f.imm)) ≤ 16384
  second : secondBytesOf p f.fn.toNat (vAb f.imm) (vBf f.imm) (s.g c f.gn.val).toNat (s.g c (vGx f.imm)) ≠ 0 →
    (s.a c (vAb f.imm)).toNat < pantrySize ∧ (s.a c (vAb f.imm)).toNat +
      secondBytesOf p f.fn.toNat (vAb f.imm) (vBf f.imm) (s.g c f.gn.val).toNat (s.g c (vGx f.imm)) ≤ pantrySize
  list : vLe f.imm = true → (s.a c (vAl f.imm)).toNat < pantrySize ∧ (s.a c (vAl f.imm)).toNat + 128 ≤ pantrySize
  out : p ≠ 0x61 → (s.a c f.ad.val).toNat < pantrySize ∧ (s.a c f.ad.val).toNat +
    outBytesOf p (vDf f.imm) (vLe f.imm) (s.g c f.gn.val).toNat (s.g c (vGx f.imm)) ≤ pantrySize

/-- No check of a vector instruction fails. -/
theorem firstCause_vec {low engine acc buf len : Bool} (hlow : low = false) (hengine : engine = false) (hacc : acc = false)
    (hbuf : buf = false) (hlen : len = false) :
    firstCause [(low, .pantryRange), (engine, .engineBad), (acc, .accRange), (buf, .bufferSource), (len, .length)] = none := by
  subst hlow hengine hacc hbuf hlen
  rfl

theorem vecCheck_none {s : State} {c : CoreId} {f : UFmt} {p : Nat} (hok : s.VecOk c f p) : firstCause [
    ((vSk f.imm == 0 && rangeBad (s.a c f.as.val) (srcBytesOf p f.fn.toNat (vSf f.imm) (s.g c f.gn.val).toNat (s.g c (vGx f.imm)))) ||
      (secondBytesOf p f.fn.toNat (vAb f.imm) (vBf f.imm) (s.g c f.gn.val).toNat (s.g c (vGx f.imm)) != 0 &&
        rangeBad (s.a c (vAb f.imm)) (secondBytesOf p f.fn.toNat (vAb f.imm) (vBf f.imm) (s.g c f.gn.val).toNat
          (s.g c (vGx f.imm)))) || (vLe f.imm && rangeBad (s.a c (vAl f.imm)) 128) ||
      (p != 0x61 && rangeBad (s.a c f.ad.val) (outBytesOf p (vDf f.imm) (vLe f.imm) (s.g c f.gn.val).toNat (s.g c (vGx f.imm)))),
      .pantryRange),
    (vSk f.imm == 2 && !(s.engAvail c).testBit (vSi f.imm), .engineBad),
    (vSk f.imm == 2 && decide (16384 < (s.a c f.as.val).toNat + srcCount p f.fn.toNat (s.g c f.gn.val).toNat
      (s.g c (vGx f.imm))), .accRange),
    (vSk f.imm == 1 && (match s.bufferOf c (vSi f.imm) with
      | none => true
      | some b => decide (b.vals.length < (s.a c f.as.val).toNat + srcCount p f.fn.toNat (s.g c f.gn.val).toNat
          (s.g c (vGx f.imm)))), .bufferSource),
    ((s.g c f.gn.val).toNat == 0 || decide ((if p = 0x65 ∨ isGated p f.fn.toNat then 32768 else 65536) < (s.g c f.gn.val).toNat) ||
      (p == 0x63 && (s.g c (vGx f.imm)).toNat % 2 ^ 32 == 0), .length)] = none := by
  refine firstCause_vec ?low ?engine ?acc ?buffer ?length
  case low =>
    rw [rangeBad_and fun h => hok.pantry (beq_iff_eq.1 h), rangeBad_and fun h => hok.second (bne_iff_ne.1 h), rangeBad_and hok.list,
      rangeBad_and fun h => hok.out (bne_iff_ne.1 h)]
    rfl
  case engine =>
    by_cases h : vSk f.imm = 2
    · simp [hok.engine h]
    · simp [h]
  case acc =>
    by_cases h : vSk f.imm = 2
    · simp [hok.engine h]
    · simp [h]
  case buffer =>
    by_cases h : vSk f.imm = 1
    · obtain ⟨b, hb, hfit⟩ := hok.buffer h
      simp [hb, hfit]
    · simp [h]
  case length =>
    rw [beq_false_of_ne hok.length, decide_eq_false (Nat.not_lt.2 hok.short)]
    have hscale := hok.scale
    simpa using hscale

/-- An operation at the end of the vector unit's queue. -/
def State.pushVec (s : State) (o : VecOp) : State := { s with vecOps := s.vecOps ++ [o] }
theorem State.pushVec_vecOps (s : State) (o : VecOp) : (s.pushVec o).vecOps = s.vecOps ++ [o] := rfl
theorem State.pushVec_regs (s : State) (o : VecOp) : (s.pushVec o).regs = s.regs := rfl
theorem State.pushVec_tokOps (s : State) (o : VecOp) : (s.pushVec o).tokOps = s.tokOps := rfl
theorem State.pushVec_pantry (s : State) (o : VecOp) : (s.pushVec o).pantry = s.pantry := rfl

theorem State.bufferElems_issued (s : State) (c k from' n : Nat) (next : Int) :
    (s.issued c next).bufferElems c k from' n = s.bufferElems c k from' n := by
  rw [State.bufferElems, State.bufferOf, State.tok_issued, State.issued_outBufs]
  rfl

theorem State.vecOps_tokIssue (next : Int) (h : s.tok c k ≠ tokPending) :
    ((s.issued c next).tokIssue c k).vecOps = s.unfreed c k := by
  rw [State.tokIssue_free (by rwa [State.tok_issued]), State.setTok_vecOps, State.setTokCount_vecOps]
  obtain ⟨-, hvec, -⟩ := (s.issued c next).freeBuf_spec c k
  rw [hvec, State.unfreed, State.issued_vecOps, State.unfreed]

theorem vecIssue_queued {c : CoreId} {f : UFmt} {opc : Byte} (hopc : opcodeDefined (opc.setWidth 64) = true)
    (hill : vecIllegal opc.toNat f (s.g c (vGx f.imm)) = false) (htok : s.tok c f.tok ≠ tokPending)
    (hroom : (s.vecOps.filter fun o => o.core == c.val).length < 16) (hok : s.VecOk c f opc.toNat)
    (hr : s.Ready c (f.word opc) (s.pcNext c)) :
    Queued s (vecIssue opc c f s) c f.tok ∧ PantryKept s (vecIssue opc c f s) ∧ (vecIssue opc c f s).vecOps =
      s.unfreed c f.tok ++ [⟨c, f.tok, opc.toNat, f.fn.toNat, f.imm, f.sr, (s.g c f.gn.val).toNat, (s.a c f.as.val).toNat,
        (s.a c f.ad.val).toNat, (s.a c (vAb f.imm)).toNat, (s.a c (vAl f.imm)).toNat, vGx f.imm, s.g c (vGx f.imm),
        if vSk f.imm = 1 then s.bufferElems c (vSi f.imm) (s.a c f.as.val).toNat
          (srcCount opc.toNat f.fn.toNat (s.g c f.gn.val).toNat (s.g c (vGx f.imm))) else [],
        if vSk f.imm = 1 ∧ vFree f.imm = true ∧ vSi f.imm ≠ f.tok.val then some (vSi f.imm) else none⟩] := by
  have honly := s.onlyIssue_issued_tokIssue c f.tok (s.pcNext c)
  have hqueued := State.tokIssue_queued hr.there htok
  have hvec := State.vecOps_tokIssue (s.pcNext c) htok
  rw [vecIssue]
  dsimp only
  rw [issue, issueOr_ready _ _ _ _ hr (UFmt.word_defined f opc hopc) hill (by simp [htok]) ?check, if_neg (by simpa using hroom)]
  case check => exact vecCheck_none hok
  rw [State.bufferElems_issued]
  generalize (s.issued c (s.pcNext c)).tokIssue c f.tok = v at honly hqueued hvec ⊢
  generalize (⟨_, _, _, _, _, _, _, _, _, _, _, _, _, _, _⟩ : VecOp) = o
  refine ⟨hqueued.of_same (v.pushVec_regs o) (v.pushVec_tokOps o),
    State.byte_of_pantry ((v.pushVec_pantry o).trans honly.pantry), ?_⟩
  rw [hvec]

/-- Settles O17: every vector instruction is a `vecIssue`. -/
theorem vectorInstructionsQueue : Obligations.VectorInstructionsQueue := by
  unfold Obligations.VectorInstructionsQueue
  intro c f s i fn gv n src dst second list fits
  have queues {ins : Instr} {opc : Byte} (hexec : exec ins s = .next (vecIssue opc c f s))
      (hopc : opcodeDefined (opc.setWidth 64) = true)
      (hill : vecIllegal opc.toNat f gv = false) (htok : s.tok c f.tok ≠ tokPending)
      (hroom : (s.vecOps.filter fun o => o.core == c.val).length < 16) (hok : s.VecOk c f opc.toNat)
      (hr : s.Ready c (f.word opc) (s.pcNext c)) : ∃ t, exec ins s = .next t ∧ Queued s t c f.tok ∧ PantryKept s t ∧
        t.vecOps = s.unfreed c f.tok ++ [⟨c, f.tok, opc.toNat, fn, i, f.sr, n, src, dst, second, list, vGx i, gv,
          if vSk i = 1 then s.bufferElems c (vSi i) src (srcCount opc.toNat fn n gv) else [],
          if vSk i = 1 ∧ vFree i = true ∧ vSi i ≠ f.tok.val then some (vSi i) else none⟩] :=
    ⟨_, hexec, vecIssue_queued hopc hill htok hroom hok hr⟩
  simp only [List.forall_mem_cons, List.not_mem_nil, false_implies, implies_true, and_true]
  refine ⟨?_, ?_, ?_, ?_, ?_, ?_, ?_, ?_, ?_, ?_⟩
  all_goals
    intro hill htok hroom hn hmax hscale hpantry hbuf heng hsecond hlist hout hr
    exact queues rfl rfl hill htok hroom ⟨hn, hmax, hscale, hpantry, hbuf, heng, hsecond, hlist, hout⟩ hr

end Sys2Proof.Machine
end

section
/-! PROOFS. A vector operation that ends in a storm of errors (O18). -/

namespace Sys2Proof.Machine

/-- A maximum of 16 accumulator entries of engine 0. -/
def stormOp : VecOp := ⟨0, 0, 0x61, 1, 0x20, false, 16, 0, 0, 0, 0, 1, 0, [], none⟩
/-- Core 0 of a READY partition is to reduce 16 accumulator entries that each bear a corrected error, which is a storm (R571);
AUTO_REPLACE is set, and core 1 is the swing core of its die, with one byte of its Pantry not zero. -/
def stormState : State :=
  let s : State := { State.reset with
    pantry := [(pantryKey 1 0, 1)]
    accEcc := (List.range 16).map fun i => (accKey 0 0 0 i, EccMark.correctable)
    vecOps := [stormOp]
    tokOps := [(tokKey 0 0, 1)]
    binds := [(1, ⟨0, 0, 4, 0, 0, 0, 0⟩)]
    parts := [(0, some ⟨0, none, [], 0, 0, 0, 0, 0, 0, none, 0, 0, 0⟩)] }
  let s := ((((s.setBinding 0 (some 0) false).setBinding 1 (some 0) true).setPartState 0 3).setFld Reg.DUMP_FLT_CTL
    Fl.DUMP_FLT_CTL_AUTO_REPLACE 1).setTok 0 0 tokPending 0
  { s with regs := (Reg.FAB_FMAP_CORE 0, 1) :: s.regs }

theorem stormState_byte : stormState.byte 1 0 = 1 := by decide +kernel
/-- The storm makes core 0 dead, and its re-placement starts with the scrub of the swing core's Pantry (R571, R575, R576). -/
theorem stormState_scrubbed : (stormState.stormAfter (stormState.vecDone 0) 0).byte 1 0 = 0 := by decide +kernel

/-- Refutes O18: the end of a REDUCE can change bytes of a Pantry. Corrected errors of the accumulator entries that it reads
can be a storm, which makes its core dead; where AUTO_REPLACE is set and the die has a free swing core, the re-placement
begins in the same step and scrubs the swing core's Pantry (`stormState_scrubbed`). -/
theorem not_vectorOperationsComplete : ¬ Obligations.VectorOperationsComplete := by
  unfold Obligations.VectorOperationsComplete
  intro h
  obtain ⟨t, hexec, -, -, -, -, -, hreduce⟩ := h 0 stormState stormOp (by constructor <;> decide +kernel) (by decide +kernel)
    (by decide +kernel) (by decide +kernel) (by decide) (by decide +kernel) (by decide +kernel) (by decide +kernel) (by decide +kernel)
  have hkept := (hreduce rfl rfl (by decide) (by decide)).2 1 0
  have hend : stormState.stormAfter (stormState.vecDone 0) 0 = t := Host.Outcome.next.inj hexec
  rw [stormState_byte, ← hend, stormState_scrubbed] at hkept
  exact absurd hkept (by decide)

end Sys2Proof.Machine
end

section
/-! PROOFS. Bins are checked (O15). -/

namespace Sys2Proof.Machine

variable {s t u : State} {c g k n : Nat}

theorem pantryKept_of_eq (h : t.pantry = s.pantry) : PantryKept s t :=
  fun d o => congrArg (fun m => sread (fun _ => (0 : Byte)) m (pantryKey d o)) h

/-! ## A pattern that runs (R123, R129, R131) -/

theorem State.readLabels_none (h : s.labelEcc = []) (unit : Nat) (p : Nat → Bool) : s.readLabels unit p = s := by
  rw [State.readLabels, h]
  rfl
theorem State.labelsOk_none (h : s.labelEcc = []) (p : Nat → Bool) : s.labelsOk p = true := by
  rw [State.labelsOk, h]
  rfl

/-- What a measurement and the end of a set leave: the evaluations counted and the check of every bin. -/
structure CountKept (c : Nat) (s t : State) : Prop where
  count : t.rd (Reg.RACK_EVAL_COUNT c) = s.rd (Reg.RACK_EVAL_COUNT c)
  checks : t.binChecks = s.binChecks
  labels : t.labelEcc = s.labelEcc
theorem CountKept.refl (c : Nat) (s : State) : CountKept c s s := ⟨rfl, rfl, rfl⟩
theorem CountKept.trans (h : CountKept c s t) (h' : CountKept c t u) : CountKept c s u :=
  ⟨h'.count.trans h.count, h'.checks.trans h.checks, h'.labels.trans h.labels⟩
theorem CountKept.ite {p : Prop} [Decidable p] (ht : CountKept c s t) (hu : CountKept c s u) :
    CountKept c s (if p then t else u) := by
  split
  · exact ht
  · exact hu
theorem CountKept.foldl {α : Type} {f : State → α → State} (hf : ∀ s a, CountKept c s (f s a)) (l : List α) (s : State) :
    CountKept c s (l.foldl f s) :=
  List.foldlRecOn (motive := CountKept c s) l f (.refl c s) fun t ht a _ => ht.trans (hf t a)
theorem CountKept.foldl_pair {α β : Type} {f : State × β → α → State × β} (hf : ∀ p a, CountKept c p.1 (f p a).1) (l : List α)
    (p : State × β) : CountKept c p.1 (l.foldl f p).1 :=
  List.foldlRecOn (motive := fun q : State × β => CountKept c p.1 q.1) l f (.refl c p.1) fun q hq a _ => hq.trans (hf q a)

theorem State.countKept_wr (o : Nat) (v : DWord) (ho : o ≠ Reg.RACK_EVAL_COUNT c) : CountKept c s (s.wr o v) :=
  ⟨State.rd_wr_other _ _ _ _ ho.symm, State.wr_binChecks _ _ _, State.wr_labelEcc _ _ _⟩
theorem State.countKept_setFld (o : Nat) (f : Fld) (x : Nat) (ho : o ≠ Reg.RACK_EVAL_COUNT c) : CountKept c s (s.setFld o f x) :=
  State.countKept_wr o _ ho
theorem State.countKept_setRackRec (r : Nat) (x : RackRec) : CountKept c s (s.setRackRec r x) := ⟨rfl, rfl, rfl⟩
theorem State.countKept_setBinRec (r : Nat) (x : BinRec) : CountKept c s (s.setBinRec r x) := ⟨rfl, rfl, rfl⟩
theorem State.countKept_drew : CountKept c s s.drew := ⟨rfl, rfl, rfl⟩

/-- A register of a unit's racks but for the count of evaluations, and one of the cellar's registers. -/
theorem evalCount_apart (c : Nat) : Reg.RACK_STAT c ≠ Reg.RACK_EVAL_COUNT c ∧ Reg.RACK_SAT_TOTAL c ≠ Reg.RACK_EVAL_COUNT c ∧
    Reg.RACK_CAPTURE_CTL c ≠ Reg.RACK_EVAL_COUNT c ∧ (∀ n < 8, Reg.RACK_CAPTURE_DATA c n ≠ Reg.RACK_EVAL_COUNT c) ∧
    Reg.CEL_DRIFT_LOST ≠ Reg.RACK_EVAL_COUNT c ∧ Reg.CEL_DRIFT_HEAD ≠ Reg.RACK_EVAL_COUNT c := by
  unfold Reg.RACK_STAT Reg.RACK_EVAL_COUNT Reg.RACK_SAT_TOTAL Reg.RACK_CAPTURE_CTL Reg.RACK_CAPTURE_DATA Reg.CEL_DRIFT_LOST
    Reg.CEL_DRIFT_HEAD coreWin
  refine ⟨?_, ?_, ?_, fun n _ => ?_, ?_, ?_⟩ <;> omega

theorem State.countKept_checkSpans (s : State) (d c : Nat) (racks lanes : List Nat) :
    CountKept c s (s.checkSpans d c racks lanes) := by
  obtain ⟨hstat, -⟩ := evalCount_apart c
  exact .foldl (fun s r => .ite ((State.countKept_setRackRec _ _).trans (State.countKept_setFld _ _ _ hstat)) (.refl c s)) racks s
theorem State.countKept_countClamps (s : State) (c : Nat) (racks : List Nat) : CountKept c s (s.countClamps c racks) := by
  obtain ⟨hstat, hsat, -⟩ := evalCount_apart c
  exact .foldl (fun s _ => ((State.countKept_setRackRec _ _).trans (State.countKept_setFld _ _ _ hsat)).trans
    (State.countKept_setFld _ _ _ hstat)) racks s
theorem State.countKept_capture (s : State) (d c g half lane : Nat) (poisoned : Bool) (xs : List Block32) :
    CountKept c s (s.capture d c g half lane poisoned xs) := by
  obtain ⟨-, -, hctl, hdata, -⟩ := evalCount_apart c
  have hwords (l : List Nat) (hl : ∀ n ∈ l, n < 8) (w : Nat → DWord) (s : State) :
      CountKept c s (l.foldl (fun (t : State) n => t.wr (Reg.RACK_CAPTURE_DATA c n) (w n)) s) :=
    List.foldlRecOn (motive := CountKept c s) l _ (.refl c s) fun t ht n hn => ht.trans (State.countKept_wr _ _ (hdata n (hl n hn)))
  rw [State.capture]
  dsimp only
  split
  · exact ((hwords _ (fun n hn => List.mem_range.1 hn) _ s).trans (State.countKept_setFld _ _ _ hctl)).trans
      (State.countKept_setFld _ _ _ hctl)
  · exact .refl c s
theorem State.countKept_measurePattern (h : s.labelEcc = []) (c g lane pat : Nat) :
    CountKept c s (s.measurePattern c g lane pat).1 := by
  rw [State.measurePattern, State.readLabels_none (s := s.drew) h]
  dsimp only
  have hread : CountKept c s (s.drew.checkSpans s.fresh c (racksOf g 0) [lane]) :=
    State.countKept_drew.trans (State.countKept_checkSpans _ _ _ _ _)
  refine hread.trans ?_
  generalize s.drew.checkSpans s.fresh c (racksOf g 0) [lane] = v
  refine CountKept.foldl_pair (fun p _ => ?_) _ (v, 0)
  exact (p.1.countKept_capture _ _ _ _ _ _ _).trans (State.countKept_countClamps _ _ _)
theorem State.countKept_logDriftAt (s : State) (c stamp g part source e action outcome : Nat) :
    CountKept c s (s.logDriftAt stamp g part source e action outcome) := by
  obtain ⟨-, -, -, -, hlost, hhead⟩ := evalCount_apart c
  have hlog (v : State) (l) : CountKept c v { v with driftLog := l } := ⟨rfl, rfl, rfl⟩
  rw [State.logDriftAt]
  split
  · exact (hlog s _).trans (State.countKept_setFld _ _ _ hhead)
  · exact ((State.countKept_setFld _ _ _ hlost).trans (hlog _ _)).trans (State.countKept_setFld _ _ _ hhead)
theorem State.countKept_driftEvent (s : State) (c g e source act : Nat) : CountKept c s (s.driftEvent g e source act) := by
  have hqueue (v : State) (l) : CountKept c v { v with refreshQ := l } := ⟨rfl, rfl, rfl⟩
  have hacts (v : State) (l) : CountKept c v { v with driftActs := l } := ⟨rfl, rfl, rfl⟩
  rw [State.driftEvent]
  split
  · exact s.countKept_logDriftAt _ _ _ _ _ _ _ _
  · split
    · exact s.countKept_logDriftAt _ _ _ _ _ _ _ _
    · split
      · exact (hqueue s _).trans (State.countKept_logDriftAt _ _ _ _ _ _ _ _ _)
      · exact hacts s _
theorem State.countKept_endSet (s : State) (c g n source : Nat) (q : DWord × DWord) : CountKept c s (s.endSet g n source q) := by
  rw [State.endSet]
  split
  · exact (State.countKept_setBinRec _ _).trans (State.countKept_driftEvent _ _ _ _ _ _)
  · split
    · exact (State.countKept_setBinRec _ _).trans (State.countKept_logDriftAt _ _ _ _ _ _ _ _ _)
    · exact State.countKept_setBinRec _ _

theorem State.check_setCheck (s : State) (g : Nat) (k : BinCheck) : (s.setCheck g k).check g = k := by
  rw [State.check, State.setCheck, sread_swrite, if_pos rfl]

theorem State.rd_setCheck (s : State) (g : Nat) (k : BinCheck) (o : Nat) : (s.setCheck g k).rd o = s.rd o := rfl

theorem getD_set_ne_none (l : List (Option Nat)) (i x : Nat) : (l.set i (some x)).getD i (some 0) ≠ none := by
  rw [List.getD_eq_getElem?_getD, List.getElem?_set]
  by_cases h : i < l.length <;> simp [h]

/-- A pattern that runs is due no more and leaves the evaluations counted. -/
theorem State.runPattern_spec (h : s.labelEcc = []) (c g lane pat : Nat) :
    (s.runPattern c g lane pat).rd (Reg.RACK_EVAL_COUNT c) = s.rd (Reg.RACK_EVAL_COUNT c) ∧
    ((s.runPattern c g lane pat).check g).errs.getD pat (some 0) ≠ none := by
  have hstart : (if (s.check g).errs.any Option.isSome then s else s.testStart g).labelEcc = [] ∧
      (if (s.check g).errs.any Option.isSome then s else s.testStart g).rd (Reg.RACK_EVAL_COUNT c) =
        s.rd (Reg.RACK_EVAL_COUNT c) := by
    split
    · exact ⟨h, rfl⟩
    · exact ⟨h, rfl⟩
  have hok : ¬((!s.testsOk g) = true) := by
    rw [State.testsOk, State.labelsOk_none h]
    decide
  rw [State.runPattern, State.readLabels_none h]
  dsimp only
  rw [if_neg hok]
  generalize (if (s.check g).errs.any Option.isSome then s else s.testStart g) = v at hstart ⊢
  obtain ⟨hlabels, hcount⟩ := hstart
  have hkept := State.countKept_measurePattern hlabels c g lane pat
  generalize v.measurePattern c g lane pat = r at hkept ⊢
  split
  · refine ⟨?_, ?_⟩
    · rw [State.closeSet]
      dsimp only
      rw [State.rd_setCheck, (State.countKept_endSet _ c _ _ _ _).count, State.rd_setCheck, hkept.count, hcount]
    · rw [State.closeSet]
      dsimp only
      rw [State.check_setCheck]
      simp
  · refine ⟨?_, ?_⟩
    · rw [State.rd_setCheck, hkept.count, hcount]
    · rw [State.check_setCheck]
      exact getD_set_ne_none _ _ _

/-! ## Label words (R123) -/

theorem sread_unlisted {α : Type} (d : Nat → α) (m : List (Nat × α)) (j : Nat) (h : ∀ e ∈ m, e.1 ≠ j) : sread d m j = d j := by
  induction m with
  | nil => rfl
  | cons e m ih =>
    rw [sread, if_neg (h e List.mem_cons_self).symm]
    exact ih fun e he => h e (List.mem_cons_of_mem _ he)
theorem sread_filter_entries {α : Type} (d : Nat → α) (p : Nat × α → Bool) (m : List (Nat × α)) (hm : srising m = true) (j : Nat) :
    sread d (m.filter p) j = if p (j, sread d m j) then sread d m j else d j := by
  induction m with
  | nil => exact (ite_self _).symm
  | cons e m ih =>
    obtain ⟨k, v⟩ := e
    obtain ⟨hlt, hm⟩ := (srising_cons _ _).1 hm
    by_cases hj : j = k
    · subst hj
      have hfree : sread d (m.filter p) j = d j :=
        sread_unlisted d _ _ fun e he => Nat.ne_of_gt (hlt e (List.mem_of_mem_filter he))
      by_cases hp : p (j, v) <;> simp [sread, hp, hfree]
    · have hskip : sread d (((k, v) :: m).filter p) j = sread d (m.filter p) j := by
        rw [List.filter_cons]
        split
        · rw [sread, if_neg hj]
        · rfl
      rw [hskip, ih hm, sread, if_neg hj]

theorem labKey_div {r w : Nat} (hw : w < 8192) : labKey r w / 8192 = r := by
  unfold labKey
  omega

/-! ## The end of a statistics window (R133 to R135, R140) -/

/-- A column of a bin is outside its envelope (R134). -/
def State.statEvent (s : State) (g : Nat) : Bool :=
  (List.range 256).any fun col => match s.envelope g col with
    | none => false
    | some e => outside (s.colStat g col) (s.check g).winCount e (Fl.CEL_CHK_LIMITS_MEAN_TOL.get (s.winRegs g).2)
        (Fl.CEL_CHK_LIMITS_EDGE_TOL.get (s.winRegs g).2)

theorem State.statEvent_iff (s : State) (g : Nat) : s.statEvent g = true ↔ ∃ col < 256, ∃ e, s.envelope g col = some e ∧
    outside (s.colStat g col) (s.check g).winCount e (Fl.CEL_CHK_LIMITS_MEAN_TOL.get (s.winRegs g).2)
      (Fl.CEL_CHK_LIMITS_EDGE_TOL.get (s.winRegs g).2) = true := by
  rw [State.statEvent, List.any_eq_true]
  refine exists_congr fun col => ?_
  rw [List.mem_range]
  cases h : s.envelope g col with
  | none => simp
  | some e => simp

/-- A record of the drift log lies in the place of its number, and its twelfth byte is the outcome (R140). -/
theorem State.logDrift_outcome (s : State) (g part source e action outcome : Nat) :
    (ringAt (s.logDrift g part source e action outcome).driftLog
      (s.fld Reg.CEL_DRIFT_HEAD Fl.CEL_DRIFT_HEAD_NEXT_SEQ % 256)).bytes.getD 11 0 = BitVec.ofNat 8 outcome := by
  have hput (m : List (Nat × LogSlot)) (k : Nat) (bs : List Byte) : ringAt (ringPut m k bs) k = ⟨bs, false⟩ := by
    rw [ringAt, ringPut, sread_swrite, if_pos rfl]
  rw [State.logDrift, State.logDriftAt, State.setFld_driftLog]
  dsimp only
  rw [hput]
  rfl
theorem State.binRec_logDrift (s : State) (g part source e action outcome h : Nat) :
    (s.logDrift g part source e action outcome).binRec h = s.binRec h := by
  rw [State.logDrift, State.logDriftAt]
  split <;> rfl
theorem State.check_logDrift (s : State) (g part source e action outcome h : Nat) :
    (s.logDrift g part source e action outcome).check h = s.check h := by
  rw [State.logDrift, State.logDriftAt]
  split <;> rfl
theorem State.colStat_logDrift (s : State) (g part source e action outcome h col : Nat) :
    (s.logDrift g part source e action outcome).colStat h col = s.colStat h col := by
  rw [State.logDrift, State.logDriftAt]
  split <;> rfl

theorem State.binRec_setBinRec (s : State) (g : Nat) (r : BinRec) : (s.setBinRec g r).binRec g = r := by
  rw [State.binRec, State.setBinRec, sread_swrite, if_pos rfl]

/-- The statistics of bin `g` after its window has ended: none taken, and every column restarted. -/
def State.restarted (s : State) (g : Nat) : State :=
  (s.clearStats g).setCheck g { s.check g with winCount := 0, winHeld := none, compHeld := none }

theorem State.colStat_restarted (s : State) (g : Nat) {col : Nat} (hcol : col < 256) : (s.restarted g).colStat g col = statZero := by
  rw [State.restarted, State.colStat]
  exact (sread_sclear _ _ _ _ _).trans (if_pos (by omega))

/-- A bin for which an event of its statistics is logged only (R140). -/
def State.merges (s : State) (g : Nat) : Bool :=
  (s.binRec g).state == .refresh || (s.binRec g).state == .offline || s.actPending g || (s.check g).source == 1
theorem State.merges_iff (s : State) (g : Nat) : s.merges g = true ↔ (s.binRec g).state = .refresh ∨
    (s.binRec g).state = .offline ∨ s.actPending g = true ∨ (s.check g).source = 1 := by
  simp only [State.merges, Bool.or_eq_true, beq_iff_eq, or_assoc]

/-- The event counted (R134). -/
def State.statCounted (s : State) (g : Nat) : State :=
  (s.restarted g).setBinRec g { s.binRec g with stEvents := min ((s.binRec g).stEvents + 1) 65535 }

def State.statLogged (s : State) (g : Nat) : State :=
  (s.statCounted g).logDrift g (s.binRec g).part 1 0xFFFF ((s.statCounted g).chkAction g) 8
def State.statConfirmed (s : State) (g : Nat) : State :=
  (s.statCounted g).setCheck g { (s.statCounted g).check g with
    errs := [none, none, none, none], source := 1, testHeld := none, eventAt := (s.statCounted g).stampOf g }

theorem exec_statWindowEnd {c : CoreId} {b : BinId} (hlabels : s.labelEcc = []) (hst : s.stEn (c.val * 480 + b.val) = true)
    (hfull : s.window (c.val * 480 + b.val) ≤ (s.check (c.val * 480 + b.val)).winCount) :
    exec (.statWindowEnd c b) s = .next (if s.statEvent (c.val * 480 + b.val) then
      if s.merges (c.val * 480 + b.val) then s.statLogged (c.val * 480 + b.val) else s.statConfirmed (c.val * 480 + b.val)
      else s.restarted (c.val * 480 + b.val)) := by
  show execStatWindowEnd c b s = _
  rw [execStatWindowEnd]
  dsimp only
  rw [State.readLabels_none hlabels, State.labelsOk_none hlabels, hst, decide_eq_true hfull, Bool.and_self, if_pos rfl,
    Bool.true_and]
  rfl

/-- What a bin keeps about its checks after an event of its statistics is counted. -/
theorem State.check_statCounted (s : State) (g : Nat) :
    (s.statCounted g).check g = { s.check g with winCount := 0, winHeld := none, compHeld := none } :=
  State.check_setCheck (s.clearStats g) g _

section
variable (s : State) (g : Nat)
theorem State.statLogged_spec : ((s.statLogged g).check g).winCount = 0 ∧
    (∀ col < 256, (s.statLogged g).colStat g col = statZero) ∧
    ((s.statLogged g).binRec g).stEvents = min ((s.binRec g).stEvents + 1) 65535 ∧
    ((s.statLogged g).check g).errs = (s.check g).errs ∧
    (ringAt (s.statLogged g).driftLog (s.fld Reg.CEL_DRIFT_HEAD Fl.CEL_DRIFT_HEAD_NEXT_SEQ % 256)).bytes.getD 11 0 = 8 ∧
    PantryKept s (s.statLogged g) := by
  have hcheck : (s.statLogged g).check g = _ := (State.check_logDrift _ _ _ _ _ _ _ _).trans (s.check_statCounted g)
  refine ⟨(congrArg BinCheck.winCount hcheck :), fun col hcol => ?_, ?_, (congrArg BinCheck.errs hcheck :),
    (s.statCounted g).logDrift_outcome g (s.binRec g).part 1 0xFFFF ((s.statCounted g).chkAction g) 8, 
    pantryKept_of_eq ?_⟩
  · exact (State.colStat_logDrift _ _ _ _ _ _ _ _ _).trans (s.colStat_restarted g hcol)
  · exact congrArg BinRec.stEvents ((State.binRec_logDrift _ _ _ _ _ _ _ _).trans (State.binRec_setBinRec _ _ _))
  · exact (State.onlyBins_logDrift _ _ _ _ _ _ _).pantry
theorem State.statConfirmed_spec : ((s.statConfirmed g).check g).winCount = 0 ∧
    (∀ col < 256, (s.statConfirmed g).colStat g col = statZero) ∧
    ((s.statConfirmed g).binRec g).stEvents = min ((s.binRec g).stEvents + 1) 65535 ∧
    ((s.statConfirmed g).check g).errs = [none, none, none, none] ∧ ((s.statConfirmed g).check g).source = 1 ∧
    (s.statConfirmed g).driftLog = s.driftLog ∧ PantryKept s (s.statConfirmed g) := by
  have hcheck : (s.statConfirmed g).check g = _ := State.check_setCheck _ _ _
  have hlog (v : State) (k : BinCheck) : (v.setCheck g k).driftLog = v.driftLog := rfl
  have hrec (v : State) (r : BinRec) : (v.setBinRec g r).driftLog = v.driftLog := rfl
  refine ⟨(congrArg BinCheck.winCount hcheck :).trans ?_, fun col hcol => s.colStat_restarted g hcol, ?_, (congrArg BinCheck.errs hcheck :), (congrArg BinCheck.source hcheck :),
    (hlog _ _).trans (hrec _ _), pantryKept_of_eq ?_⟩
  · exact congrArg BinCheck.winCount (s.check_statCounted g)
  · exact congrArg BinRec.stEvents (State.binRec_setBinRec _ _ _)
  · exact (State.onlyBins_setCheck _ _ _).pantry.trans (State.onlyBins_setBinRec _ _ _).pantry
theorem State.restarted_spec : ((s.restarted g).check g).winCount = 0 ∧
    (∀ col < 256, (s.restarted g).colStat g col = statZero) ∧ (s.restarted g).binRec g = s.binRec g ∧
    ((s.restarted g).check g).errs = (s.check g).errs ∧ PantryKept s (s.restarted g) := by
  have hcheck : (s.restarted g).check g = _ := State.check_setCheck _ _ _
  exact ⟨(congrArg BinCheck.winCount hcheck :), fun col hcol => s.colStat_restarted g hcol, rfl, (congrArg BinCheck.errs hcheck :), pantryKept_of_eq rfl⟩
end

/-! ## The end of a test period (R132) -/

theorem State.testPeriodExpire_spec {c : CoreId} {b : BinId} (htv : s.tvEn (c.val * 480 + b.val) = true)
    (hstate : (s.binRec (c.val * 480 + b.val)).state ≠ .uninstalled) :
    exec (.testPeriodExpire c b) s = .next (
      if (s.check (c.val * 480 + b.val)).owed then
        s.bump (Reg.CEL_CHK_OVERDUE (s.binRec (c.val * 480 + b.val)).part) Fl.CEL_CHK_OVERDUE_COUNT
      else if (s.check (c.val * 480 + b.val)).errs.any Option.isNone then
        s.setCheck (c.val * 480 + b.val) { s.check (c.val * 480 + b.val) with owed := true }
      else s.setCheck (c.val * 480 + b.val)
        { s.check (c.val * 480 + b.val) with errs := [none, none, none, none], source := 0, owed := true }) := by
  show execTestPeriodExpire c b s = _
  rw [execTestPeriodExpire, State.setDue, htv]
  have hidle : ¬((!true || (s.binRec (c.val * 480 + b.val)).state == .uninstalled) = true) := by simpa using hstate
  dsimp only
  rw [if_neg hidle, Bool.true_or, Bool.and_true]

/-! ## A pattern that is due (R131) -/

theorem State.rd_count_one (s : State) (o : Nat) : (s.count o).rd o = s.rd o + 1 := State.rd_wr_same _ _ _
theorem State.rd_quietAt (s : State) (m : List (Nat × Option Nat)) (o : Nat) : { s with quietAt := m }.rd o = s.rd o := rfl

/-- The state in which a pattern of the bin's own period runs: the quiet slot is noted and the evaluation counted. -/
def State.quietSlot (s : State) (c g : Nat) : State :=
  { s with quietAt := swrite (fun _ => none) s.quietAt g (some s.now) }.count (Reg.RACK_EVAL_COUNT c)

theorem State.rd_quietSlot (s : State) (c g : Nat) :
    (s.quietSlot c g).rd (Reg.RACK_EVAL_COUNT c) = s.rd (Reg.RACK_EVAL_COUNT c) + 1 := by
  rw [State.quietSlot, State.rd_count_one, State.rd_quietAt]

theorem exec_quietSlotPattern {c : CoreId} {b : BinId} {pat : Fin 4} (hpower : s.rackPower (c.val * 480 + b.val) = true)
    (hquiet : s.quietOn (c.val * 480 + b.val) = true) (htv : s.tvEn (c.val * 480 + b.val) = true)
    (howed : (s.check (c.val * 480 + b.val)).owed = true) (hsource : (s.check (c.val * 480 + b.val)).source = 0)
    (hdue : (s.duePatterns (c.val * 480 + b.val)).contains pat.val = true) (hroom : s.binsInFlight c + 1 ≤ s.binsGranted c)
    (hbusy : (s.fires.any fun f => f.groups.any fun q => decide (q.bin ≤ c.val * 480 + b.val) &&
      decide (c.val * 480 + b.val < q.bin + q.size)) = false) :
    exec (.quietSlotPattern c b pat) s =
      .next ((s.quietSlot c (c.val * 480 + b.val)).runPattern c (c.val * 480 + b.val) 0 pat) := by
  show execQuietSlotPattern c b pat s = _
  rw [execQuietSlotPattern]
  dsimp only
  rw [hpower, hquiet, htv, howed, hsource, hdue, hbusy, decide_eq_true hroom, if_pos (by rfl)]
  rfl

/-- A pattern whose error is noted is not due. -/
theorem State.duePatterns_not (h : ((t.check g).errs.getD k (some 0)) ≠ none) : (t.duePatterns g).contains k = false := by
  rw [State.duePatterns, Bool.eq_false_iff]
  split
  · simpa using fun _ => h
  · simp

/-- Settles O15: a pattern by `State.runPattern_spec`, a period by `State.testPeriodExpire_spec`, the labels by
`sread_filter_entries`, and a window by `exec_statWindowEnd`. -/
theorem binsAreChecked : Obligations.BinsAreChecked := by
  unfold Obligations.BinsAreChecked
  refine ⟨fun c b s => ⟨fun pat hlabels hpower hquiet htv howed hsource hdue hroom hbusy => ?pattern,
    fun htv hstate => ?period, fun rack hsorted => ?labels⟩, fun c b s hlabels hst hfull => ?window⟩
  case pattern =>
    obtain ⟨hcount, herrs⟩ := State.runPattern_spec (s := s.quietSlot c (c.val * 480 + b.val))
      ((State.count_labelEcc _ _ _).trans hlabels) c
      (c.val * 480 + b.val) 0 pat
    refine ⟨_, exec_quietSlotPattern hpower hquiet htv howed hsource hdue hroom hbusy, hcount.trans ?_,
      State.duePatterns_not herrs, pantryKept_of_eq ?_⟩
    · exact s.rd_quietSlot _ _
    · exact (State.onlyBins_runPattern _ _ _ _ _).pantry.trans (State.count_pantry _ _ _)
  case period =>
    refine ⟨_, State.testPeriodExpire_spec htv hstate, ?_⟩
    by_cases howed : (s.check (c.val * 480 + b.val)).owed = true
    · rw [if_pos howed, if_pos howed]
      exact ⟨s.fld_bump_same _ _ _ (by decide), rfl⟩
    · rw [if_neg howed, if_neg howed]
      by_cases hopen : (s.check (c.val * 480 + b.val)).errs.any Option.isNone = true
      · rw [if_pos hopen, State.check_setCheck]
        exact ⟨rfl, rfl, fun _ => rfl, fun h => absurd (hopen.symm.trans h) (by decide)⟩
      · rw [if_neg hopen, State.check_setCheck]
        exact ⟨rfl, rfl, fun h => absurd h hopen, fun _ => ⟨rfl, rfl⟩⟩
  case labels =>
    refine ⟨_, rfl, fun r w hw => ?_⟩
    refine (sread_filter_entries _ _ _ hsorted _).trans ?_
    dsimp only
    rw [labKey_div hw, ← State.labMark]
    by_cases h : r = c.val * 15360 + rack.val ∧ s.labMark r w = .corrected
    · rw [if_pos h, h.1, ← h.1, h.2]
      simp
    · rw [if_neg h, if_pos]
      simpa [-not_and, Classical.not_and_iff_not_or_not] using h
  case window =>
    have hexec := exec_statWindowEnd hlabels hst hfull
    generalize c.val * 480 + b.val = g at hexec ⊢
    rw [← State.statEvent_iff, ← State.merges_iff]
    refine ⟨_, hexec, ?_⟩
    cases s.statEvent g
    case false =>
      obtain ⟨hcount, hcols, hrec, herrs, hpantry⟩ := s.restarted_spec g
      exact ⟨hcount, hcols, fun h => absurd h (by decide), fun h => absurd h (by decide), fun h => absurd h (by decide),
        fun _ => ⟨hrec, herrs⟩, hpantry⟩
    case true =>
      cases s.merges g
      case false =>
        obtain ⟨hcount, hcols, hevents, herrs, hsource, hlog, hpantry⟩ := s.statConfirmed_spec g
        exact ⟨hcount, hcols, fun _ => hevents, fun _ _ => ⟨herrs, hsource, hlog⟩, fun _ h => absurd h (by decide),
          fun h => absurd rfl h, hpantry⟩
      case true =>
        obtain ⟨hcount, hcols, hevents, herrs, hrec, hpantry⟩ := s.statLogged_spec g
        exact ⟨hcount, hcols, fun _ => hevents, fun _ h => absurd rfl h, fun _ _ => ⟨herrs, hrec⟩,
          fun h => absurd rfl h, hpantry⟩

end Sys2Proof.Machine
end

section
/-! PROOFS. Drift actions start and end (O16). -/

namespace Sys2Proof.Machine

variable {s t u : State} {g k n : Nat}

/-! ## What measuring and programming a bin leave -/

/-- The bins, the drift actions and the install are as they were, and no label word got an error. -/
structure ActsKept (s t : State) : Prop where
  bins : t.binRecs = s.binRecs
  acts : t.driftActs = s.driftActs
  running : t.refreshing = s.refreshing
  queue : t.refreshQ = s.refreshQ
  inst : t.inst = s.inst
  labels : s.labelEcc = [] → t.labelEcc = []
theorem ActsKept.refl (s : State) : ActsKept s s := ⟨rfl, rfl, rfl, rfl, rfl, id⟩
theorem ActsKept.trans (h : ActsKept s t) (h' : ActsKept t u) : ActsKept s u :=
  ⟨h'.bins.trans h.bins, h'.acts.trans h.acts, h'.running.trans h.running, h'.queue.trans h.queue, h'.inst.trans h.inst,
    fun hs => h'.labels (h.labels hs)⟩
theorem ActsKept.ite {p : Prop} [Decidable p] (ht : ActsKept s t) (hu : ActsKept s u) : ActsKept s (if p then t else u) := by
  split
  · exact ht
  · exact hu
theorem ActsKept.foldl {α : Type} {f : State → α → State} (hf : ∀ s a, ActsKept s (f s a)) (l : List α) (s : State) :
    ActsKept s (l.foldl f s) :=
  List.foldlRecOn (motive := ActsKept s) l f (.refl s) fun t ht a _ => ht.trans (hf t a)
theorem ActsKept.foldl_pair {α β : Type} {f : State × β → α → State × β} (hf : ∀ p a, ActsKept p.1 (f p a).1) (l : List α)
    (p : State × β) : ActsKept p.1 (l.foldl f p).1 :=
  List.foldlRecOn (motive := fun q : State × β => ActsKept p.1 q.1) l f (.refl p.1) fun q hq a _ => hq.trans (hf q a)
/-- The same where every step needs that no label word has an error. -/
theorem ActsKept.foldl_labels {α β : Type} {f : State × β → α → State × β}
    (hf : ∀ p a, p.1.labelEcc = [] → ActsKept p.1 (f p a).1) (l : List α) (p : State × β) (hp : p.1.labelEcc = []) :
    ActsKept p.1 (l.foldl f p).1 :=
  List.foldlRecOn (motive := fun q : State × β => ActsKept p.1 q.1) l f (.refl p.1) fun q hq a _ =>
    hq.trans (hf q a (hq.labels hp))
theorem ActsKept.binRec (h : ActsKept s t) (g : Nat) : t.binRec g = s.binRec g :=
  congrArg (fun m => sread (fun _ => binRecZero) m g) h.bins

theorem State.actsKept_wr (s : State) (o : Nat) (v : DWord) : ActsKept s (s.wr o v) :=
  ⟨State.wr_binRecs _ _ _, State.wr_driftActs _ _ _, State.wr_refreshing _ _ _, State.wr_refreshQ _ _ _, State.wr_inst _ _ _,
    (State.wr_labelEcc _ _ _).trans⟩
theorem State.actsKept_setFld (s : State) (o : Nat) (f : Fld) (x : Nat) : ActsKept s (s.setFld o f x) := s.actsKept_wr o _
theorem State.actsKept_bump (s : State) (o : Nat) (f : Fld) (n : Nat) : ActsKept s (s.bump o f n) := s.actsKept_wr o _
theorem State.actsKept_setRackRec (s : State) (r : Nat) (x : RackRec) : ActsKept s (s.setRackRec r x) :=
  ⟨rfl, rfl, rfl, rfl, rfl, id⟩
theorem State.actsKept_setCheck (s : State) (g : Nat) (k : BinCheck) : ActsKept s (s.setCheck g k) :=
  ⟨rfl, rfl, rfl, rfl, rfl, id⟩
theorem State.actsKept_setCell (s : State) (g row col v : Nat) : ActsKept s (s.setCell g row col v) :=
  ⟨rfl, rfl, rfl, rfl, rfl, id⟩
theorem State.actsKept_wearUp (s : State) (g : Nat) : ActsKept s (s.wearUp g) := ⟨rfl, rfl, rfl, rfl, rfl, id⟩
theorem State.actsKept_drew (s : State) : ActsKept s s.drew := ⟨rfl, rfl, rfl, rfl, rfl, id⟩

theorem State.actsKept_readLabels (h : s.labelEcc = []) (unit : Nat) (p : Nat → Bool) : ActsKept s (s.readLabels unit p) := by
  rw [State.readLabels_none h]
  exact .refl s

theorem State.actsKept_checkSpans (s : State) (d c : Nat) (racks lanes : List Nat) :
    ActsKept s (s.checkSpans d c racks lanes) :=
  .foldl (fun s _ => .ite ((s.actsKept_setRackRec _ _).trans (State.actsKept_setFld _ _ _ _)) (.refl s)) racks s
theorem State.actsKept_countClamps (s : State) (c : Nat) (racks : List Nat) : ActsKept s (s.countClamps c racks) :=
  .foldl (fun s _ => ((s.actsKept_setRackRec _ _).trans (State.actsKept_bump _ _ _ _)).trans
    (State.actsKept_setFld _ _ _ _)) racks s
theorem State.actsKept_capture (s : State) (d c g half lane : Nat) (poisoned : Bool) (xs : List Block32) :
    ActsKept s (s.capture d c g half lane poisoned xs) := by
  rw [State.capture]
  dsimp only
  split
  · exact ((ActsKept.foldl (fun s _ => s.actsKept_wr _ _) _ s).trans (State.actsKept_setFld _ _ _ _)).trans
      (State.actsKept_setFld _ _ _ _)
  · exact .refl s
theorem State.actsKept_measurePattern (h : s.labelEcc = []) (c g lane pat : Nat) :
    ActsKept s (s.measurePattern c g lane pat).1 := by
  rw [State.measurePattern, State.readLabels_none (s := s.drew) h]
  dsimp only
  have hread : ActsKept s (s.drew.checkSpans s.fresh c (racksOf g 0) [lane]) :=
    s.actsKept_drew.trans (State.actsKept_checkSpans _ _ _ _ _)
  refine hread.trans ?_
  generalize s.drew.checkSpans s.fresh c (racksOf g 0) [lane] = v
  exact .foldl_pair (fun p _ => (p.1.actsKept_capture _ _ _ _ _ _ _).trans (State.actsKept_countClamps _ _ _)) _ (v, 0)
/-- One pattern of a full set, with the errors so far. -/
def State.patternStep (c g : Nat) (a : State × Nat) (p : Nat) : State × Nat :=
  ((a.1.measurePattern c g p p).1, a.2 + (a.1.measurePattern c g p p).2)
theorem actsKept_patternStep (c g : Nat) (a : State × Nat) (p : Nat) (h : a.1.labelEcc = []) :
    ActsKept a.1 (State.patternStep c g a p).1 := by
  rw [State.patternStep]
  dsimp only
  exact State.actsKept_measurePattern h c g p p
/-- The four patterns of a set. -/
theorem State.actsKept_fullSet (h : s.labelEcc = []) (c g : Nat) : ActsKept s (s.fullSet c g).1 := by
  have hstart : ActsKept s (s.testStart g) := s.actsKept_setCheck g _
  rw [State.fullSet, State.readLabels_none (hstart.labels h)]
  dsimp only
  split
  · exact hstart
  · refine hstart.trans ?_
    have hset := ActsKept.foldl_labels (actsKept_patternStep c g) (List.range 4) (s.testStart g, 0) (hstart.labels h)
    unfold State.patternStep at hset
    dsimp only
    exact hset

theorem State.actsKept_logDriftAt (s : State) (stamp g part source e action outcome : Nat) :
    ActsKept s (s.logDriftAt stamp g part source e action outcome) := by
  have hlog (v : State) (l) : ActsKept v { v with driftLog := l } := ⟨rfl, rfl, rfl, rfl, rfl, id⟩
  rw [State.logDriftAt]
  split
  · exact (hlog s _).trans (State.actsKept_setFld _ _ _ _)
  · exact ((State.actsKept_bump _ _ _ _).trans (hlog _ _)).trans (State.actsKept_setFld _ _ _ _)
theorem State.actsKept_logFault (s : State) (code : Nat) (unit : FaultUnit) (part : Option Nat) (outcome detail : Nat) :
    ActsKept s (s.logFault code unit part outcome detail) := by
  have hlog (v : State) (l) : ActsKept v { v with errLog := l } := ⟨rfl, rfl, rfl, rfl, rfl, id⟩
  rw [State.logFault]
  split
  · exact (hlog s _).trans (State.actsKept_setFld _ _ _ _)
  · exact ((State.actsKept_bump _ _ _ _).trans (hlog _ _)).trans (State.actsKept_setFld _ _ _ _)

theorem State.actsKept_measureSums (s : State) (d g : Nat) : ActsKept s (s.measureSums d g) := by
  have hcol (v : State) (l) : ActsKept v { v with wsums := l } := ⟨rfl, rfl, rfl, rfl, rfl, id⟩
  have hrow (v : State) (l) : ActsKept v { v with rsums := l } := ⟨rfl, rfl, rfl, rfl, rfl, id⟩
  rw [State.measureSums]
  exact (ActsKept.foldl (fun s _ => .foldl (fun s _ => hcol s _) _ s) _ s).trans
    (.foldl (fun s _ => .foldl (fun s _ => hrow s _) _ s) _ _)
theorem State.actsKept_rewriteLabels (s : State) (g : Nat) (p : Nat → Bool) : ActsKept s (s.rewriteLabels g p) := by
  have hclear : ActsKept s { s with labelEcc := sclearIf s.labelEcc p } :=
    ⟨rfl, rfl, rfl, rfl, rfl, fun h => (congrArg (sclearIf · p) h).trans rfl⟩
  rw [State.rewriteLabels]
  exact hclear.trans (.foldl (fun s _ => .ite (.refl s) (s.actsKept_setRackRec _ _)) _ _)
theorem State.actsKept_clearRefFaults (s : State) (g : Nat) : ActsKept s (s.clearRefFaults g) :=
  .foldl (fun s _ => .ite (.refl s) (s.actsKept_setRackRec _ _)) _ s
theorem State.actsKept_measureSpans (s : State) (d g : Nat) : ActsKept s (s.measureSpans d g) := by
  have hspan (v : State) (l) : ActsKept v { v with spans := l } := ⟨rfl, rfl, rfl, rfl, rfl, id⟩
  exact .foldl (fun s _ => (ActsKept.foldl (fun s _ => hspan s _) _ s).trans (State.actsKept_setRackRec _ _ _)) _ s
theorem State.actsKept_erasedAgain (s : State) (d g : Nat) : ActsKept s (s.erasedAgain d g) :=
  .foldl (fun s _ => .ite (s.actsKept_wearUp g) (.refl s)) _ s
theorem State.actsKept_reprogram (s : State) (d g : Nat) : ActsKept s (s.reprogram d g) :=
  .foldl (fun s _ => .foldl (fun s _ => s.actsKept_setCell _ _ _ _) _ s) _ s

/-! ## What a new record of a bin leaves -/

/-- The drift actions and the install are as they were. -/
structure DriftKept (s t : State) : Prop where
  acts : t.driftActs = s.driftActs
  running : t.refreshing = s.refreshing
  queue : t.refreshQ = s.refreshQ
  inst : t.inst = s.inst
theorem ActsKept.drift (h : ActsKept s t) : DriftKept s t := ⟨h.acts, h.running, h.queue, h.inst⟩
theorem DriftKept.trans (h : DriftKept s t) (h' : DriftKept t u) : DriftKept s u :=
  ⟨h'.acts.trans h.acts, h'.running.trans h.running, h'.queue.trans h.queue, h'.inst.trans h.inst⟩
theorem State.driftKept_setBinRec (s : State) (g : Nat) (r : BinRec) : DriftKept s (s.setBinRec g r) := ⟨rfl, rfl, rfl, rfl⟩

theorem State.labelEcc_setBinRec (s : State) (g : Nat) (r : BinRec) : (s.setBinRec g r).labelEcc = s.labelEcc := rfl

/-- A bin that goes OFFLINE. -/
theorem State.offlineBin_spec (s : State) (g : Nat) :
    DriftKept s (s.offlineBin g) ∧ ((s.offlineBin g).binRec g).state = .offline := by
  have hset : DriftKept s (s.setBinState g .offline) := s.driftKept_setBinRec g _
  have hstate : ((s.setBinState g .offline).binRec g).state = .offline := congrArg BinRec.state (State.binRec_setBinRec _ _ _)
  rw [State.offlineBin]
  split
  next p _ =>
    have hlog := (s.setBinState g .offline).actsKept_logFault 0x46 (.core (binCore g)) (some p) outLogged (g % 480)
    exact ⟨hset.trans hlog.drift, (congrArg BinRec.state (hlog.binRec g)).trans hstate⟩
  next => exact ⟨hset, hstate⟩

/-! ## A recalibration ends (R137) -/

/-- What a recalibration leaves of the drift actions and of bin `g`. -/
structure RecalEnds (g : Nat) (s t : State) : Prop where
  acts : (t.driftActs.any fun x => x.bin == g) = false
  bin : (t.binRec g).state = .offline ∨ (t.binRec g).recals = min ((s.binRec g).recals + 1) 65535
theorem RecalEnds.kept (h : RecalEnds g s t) (h' : ActsKept t u) : RecalEnds g s u :=
  ⟨(congrArg (List.any · fun x => x.bin == g) h'.acts).trans h.acts, (h'.binRec g).symm ▸ h.bin⟩

/-- The record of bin `g` counts one recalibration more. -/
theorem State.recalCounted_spec (s : State) (g : Nat) (n : Nat) :
    ((s.setBinRec g { s.binRec g with recals := n }).binRec g).recals = n :=
  (congrArg BinRec.recals (State.binRec_setBinRec _ _ _) :)
theorem RecalEnds.recordSet (h : RecalEnds g s t) (n : Nat) : RecalEnds g s (t.recordSet g n) := by
  have hrec : (t.recordSet g n).binRec g = _ := State.binRec_setBinRec _ _ _
  exact ⟨h.acts, h.bin.imp (congrArg BinRec.state hrec : _).trans (congrArg BinRec.recals hrec : _).trans⟩
theorem RecalEnds.setQueue (h : RecalEnds g s t) (q : List DriftAct) : RecalEnds g s { t with refreshQ := q } := ⟨h.acts, h.bin⟩

/-- The state in which the end of a recalibration of bin `g` finds what it needs. -/
structure RecalStart (g : Nat) (s t : State) : Prop where
  labels : t.labelEcc = []
  acts : (t.driftActs.any fun x => x.bin == g) = false
  bin : t.binRec g = s.binRec g

theorem State.recalComplete_ends {c : CoreId} {b : BinId} {a : DriftAct} (hlabels : s.labelEcc = [])
    (hfind : s.driftActs.find? (fun a => a.bin == c.val * 480 + b.val) = some a)
    (hstate : (s.binRec (c.val * 480 + b.val)).state = .inService) (hpower : s.rackPower (c.val * 480 + b.val) = true) :
    ∃ t, exec (.recalComplete c b) s = .next t ∧ RecalEnds (c.val * 480 + b.val) s t := by
  refine ⟨_, rfl, ?_⟩
  rw [hpower]
  generalize c.val * 480 + b.val = g at *
  have hacts : (s.driftActs.filter fun x => x.bin != g).any (fun x => x.bin == g) = false := by
    simp [List.any_eq_false]
  rw [if_neg (by decide)]
  split
  case h_1 hnone => exact absurd (hfind.symm.trans hnone) (Option.some_ne_none a)
  rename_i a' _
  have hstart : RecalStart g s { s with driftActs := s.driftActs.filter fun x => x.bin != g } := ⟨hlabels, hacts, rfl⟩
  generalize ({ s with driftActs := s.driftActs.filter fun x => x.bin != g } : State) = s1 at hstart ⊢
  obtain ⟨hlabels, hacts, hbin⟩ := hstart
  have hrun : ¬(((s1.binRec g).state != .inService) = true) := by rw [hbin, hstate]; decide
  rw [if_neg hrun]
  extract_lets +onlyGivenNames s2 d s3 trims s4
  have hread : ActsKept s1 s2 := State.actsKept_readLabels hlabels _ _
  have hdrew : ActsKept s2 s2.drew.drew.drew := (s2.actsKept_drew.trans (State.actsKept_drew _)).trans (State.actsKept_drew _)
  have hspans : ActsKept s2.drew.drew.drew s3 := State.actsKept_checkSpans _ _ _ _ _
  have hclamps : ActsKept s3 s4 := State.actsKept_countClamps _ _ _
  have hmeasured : ActsKept s1 s4 := ((hread.trans hdrew).trans hspans).trans hclamps
  clear_value s4 trims
  split
  · obtain ⟨hoff, hstate⟩ := s4.offlineBin_spec g
    refine RecalEnds.kept (RecalEnds.kept ⟨?_, .inl hstate⟩ (State.actsKept_logDriftAt _ _ _ _ _ _ _ _)) (State.actsKept_bump _ _ _ _)
    rw [hoff.acts, hmeasured.acts]
    exact hacts
  · extract_lets +onlyGivenNames s5 s6
    have hracks : ActsKept s4 s5 := ActsKept.foldl (fun s _ => s.actsKept_setRackRec _ _) _ s4
    have hsums : ActsKept s5 s6 := (State.actsKept_measureSums _ _ _).trans
      ((State.actsKept_rewriteLabels _ _ _).trans (State.actsKept_clearRefFaults _ _))
    have hkept : ActsKept s1 s6 := hmeasured.trans (hracks.trans hsums)
    have hcounted : RecalEnds g s (s6.setBinRec g { s6.binRec g with recals := min ((s1.binRec g).recals + 1) 65535 }) := by
      refine ⟨?_, .inr ?_⟩
      · rw [(s6.driftKept_setBinRec g _).acts, hkept.acts]
        exact hacts
      · exact (s6.recalCounted_spec g _).trans (congrArg (fun r : BinRec => min (r.recals + 1) 65535) hbin)
    have hlabels' := (s6.labelEcc_setBinRec g
      { s6.binRec g with recals := min ((s1.binRec g).recals + 1) 65535 }).trans (hkept.labels hlabels)
    generalize s6.setBinRec g { s6.binRec g with recals := min ((s1.binRec g).recals + 1) 65535 } = v at hcounted hlabels' ⊢
    have hset := hcounted.kept (State.actsKept_fullSet hlabels' c g)
    extract_lets +onlyGivenNames s7
    generalize s7.fullSet c g = q at hset ⊢
    split
    rename_i v sum
    have hv : RecalEnds g s v := hset
    split
    · exact hv.kept (State.actsKept_logDriftAt _ _ _ _ _ _ _ _)
    · rename_i _ n
      extract_lets +onlyGivenNames w high e
      have hrec : RecalEnds g s w := hv.recordSet n
      clear_value w
      split
      · refine RecalEnds.kept ?_ (State.actsKept_logDriftAt _ _ _ _ _ _ _ _)
        exact hrec.setQueue _
      · extract_lets +onlyGivenNames x
        have hx : RecalEnds g s x := by
          unfold x
          split
          · exact hrec
          · exact hrec.setQueue _
        exact hx.kept (State.actsKept_logDriftAt _ _ _ _ _ _ _ _)

/-! ## Refreshes start and end (R138, R139) -/

/-- Bin `g` is in service or OFFLINE, with no refresh queued or running, and no install runs. -/
structure RefreshDone (g : Nat) (s : State) : Prop where
  running : (s.refreshing.any fun x => x.bin == g) = false
  queue : (s.refreshQ.any fun x => x.bin == g) = false
  state : (s.binRec g).state = .offline ∨ (s.binRec g).state = .inService
  inst : s.inst = none
theorem RefreshDone.kept (h : RefreshDone g s) (h' : ActsKept s t) : RefreshDone g t :=
  ⟨(congrArg (List.any · fun x => x.bin == g) h'.running).trans h.running,
    (congrArg (List.any · fun x => x.bin == g) h'.queue).trans h.queue, (h'.binRec g).symm ▸ h.state, h'.inst.trans h.inst⟩

theorem RefreshDone.recordSet (h : RefreshDone g s) (n : Nat) : RefreshDone g (s.recordSet g n) := by
  have hrec : (s.recordSet g n).binRec g = _ := State.binRec_setBinRec _ _ _
  exact ⟨h.running, h.queue, h.state.imp (congrArg BinRec.state hrec : _).trans (congrArg BinRec.state hrec : _).trans, h.inst⟩

theorem State.actsKept_hvSync (s : State) : ActsKept s s.hvSync := by
  have hhv (v : State) (b : Bool) : ActsKept v { v with hvRefresh := b } := ⟨rfl, rfl, rfl, rfl, rfl, id⟩
  rw [State.hvSync]
  exact (hhv s _).trans (State.actsKept_setFld _ _ _ _)

theorem any_filter_bne {l : List DriftAct} (h : (l.any fun x => x.bin == g) = false) (p : DriftAct → Bool) :
    ((l.filter p).any fun x => x.bin == g) = false := by
  rw [List.any_eq_false] at h ⊢
  exact fun x hx => h x (List.mem_of_mem_filter hx)

/-- A refresh that starts: its bin is in REFRESH, with one program cycle more. -/
def State.startRefresh (s : State) (a : DriftAct) : State :=
  State.wearUp (State.setBinState { s with refreshing := s.refreshing ++ [a] } a.bin .refresh) a.bin
theorem RefreshDone.startRefresh (h : RefreshDone g s) {a : DriftAct} (ha : a.bin ≠ g) : RefreshDone g (s.startRefresh a) := by
  refine ⟨?_, h.queue, ?_, h.inst⟩
  · exact (List.any_append ..).trans (by rw [h.running]; simpa using ha)
  · have hrec : (s.startRefresh a).binRec g = s.binRec g := (sread_swrite _ _ _ _ _).trans (if_neg ha.symm)
    rw [hrec]
    exact h.state
theorem State.nextRefresh_mem {a : DriftAct} (h : s.nextRefresh = some a) : a ∈ s.refreshQ := List.mem_of_find?_eq_some h

theorem startRefreshes_succ (fuel : Nat) {a : DriftAct} (h : s.nextRefresh = some a) :
    startRefreshes (fuel + 1) s = startRefreshes fuel
      (if (s.binRec a.bin).state == .inService then
        State.startRefresh { s with refreshQ := s.refreshQ.filter fun x => x.bin != a.bin } a
      else { s with refreshQ := s.refreshQ.filter fun x => x.bin != a.bin }) := by
  rw [startRefreshes, h]
  rfl
theorem startRefreshes_none (fuel : Nat) (h : s.nextRefresh = none) : startRefreshes fuel s = s := by
  cases fuel with
  | zero => rfl
  | succ fuel => rw [startRefreshes, h]

theorem RefreshDone.startRefreshes (fuel : Nat) : ∀ {s : State}, RefreshDone g s → RefreshDone g (startRefreshes fuel s) := by
  induction fuel with
  | zero => exact fun h => h
  | succ fuel ih =>
    intro s h
    cases hnext : s.nextRefresh with
    | none =>
      rw [startRefreshes_none _ hnext]
      exact h
    | some a =>
      rw [startRefreshes_succ fuel hnext]
      have ha : a.bin ≠ g := by simpa using List.any_eq_false.1 h.queue a (State.nextRefresh_mem hnext)
      have hdrop : RefreshDone g { s with refreshQ := s.refreshQ.filter fun x => x.bin != a.bin } :=
        ⟨h.running, any_filter_bne h.queue _, h.state, h.inst⟩
      refine ih ?_
      split
      · exact hdrop.startRefresh ha
      · exact hdrop
theorem RefreshDone.runRefreshes (h : RefreshDone g s) : RefreshDone g s.runRefreshes :=
  (h.startRefreshes _).kept (State.actsKept_hvSync _)
theorem RefreshDone.instKick (h : RefreshDone g s) : RefreshDone g s.instKick := by
  rw [State.instKick, h.inst, if_pos (by rfl)]
  exact h.runRefreshes

/-- The end of the refresh of bin `g` leaves it in service or OFFLINE. -/
theorem State.refreshEnd_done {a : DriftAct} (hlabels : s.labelEcc = []) (hpower : s.rackPower g = true)
    (hfind : s.refreshing.find? (fun a => a.bin == g) = some a)
    (hqueue : (s.refreshQ.any fun x => x.bin == g) = false) (hinst : s.inst = none) (unit : Nat) :
    RefreshDone g (s.refreshEnd unit g) := by
  rw [State.refreshEnd, hpower, if_pos rfl]
  split
  case h_1 hnone => exact absurd (hfind.symm.trans hnone) (Option.some_ne_none a)
  rename_i a' _
  extract_lets +onlyGivenNames s1 r s2 d s3
  have hacts : (s1.refreshing.any fun x => x.bin == g) = false := by
    simp [s1, List.any_eq_false]
  have hread : ActsKept s1 s2 := State.actsKept_readLabels (s := s1) hlabels _ _
  have hdrew : ActsKept s2 s3 := (s2.actsKept_drew.trans (State.actsKept_drew _)).trans (State.actsKept_drew _)
  have hkept : ActsKept s1 s3 := hread.trans hdrew
  have hfree {t : State} (h : DriftKept s3 t) (hstate : (t.binRec g).state = .offline ∨ (t.binRec g).state = .inService) :
      RefreshDone g t := by
    refine ⟨?_, ?_, hstate, ?_⟩
    · rw [h.running, hkept.running]
      exact hacts
    · rw [h.queue, hkept.queue]
      exact hqueue
    · rw [h.inst, hkept.inst]
      exact hinst
  refine RefreshDone.runRefreshes ?_
  split
  · extract_lets +onlyGivenNames s4 s5
    have hprogrammed : ActsKept s3 s4 := (State.actsKept_reprogram _ _ _).trans (State.actsKept_erasedAgain _ _ _)
    have hmeasured : ActsKept s4 s5 := ((State.actsKept_measureSpans _ _ _).trans (State.actsKept_measureSums _ _ _)).trans
      ((State.actsKept_rewriteLabels _ _ _).trans (State.actsKept_clearRefFaults _ _))
    have hset := State.actsKept_fullSet (hmeasured.labels (hprogrammed.labels (hkept.labels hlabels))) unit g
    generalize s5.fullSet unit g = q at hset ⊢
    split
    rename_i v sum
    extract_lets +onlyGivenNames w x
    have hv : ActsKept s3 v := (hprogrammed.trans hmeasured).trans hset
    have hback : RefreshDone g w :=
      hfree (hv.drift.trans (v.driftKept_setBinRec g _)) (.inr (congrArg BinRec.state (State.binRec_setBinRec _ _ _)))
    have hx : RefreshDone g x := by
      unfold x
      split
      · exact hback
      · exact hback.recordSet _
    exact (hx.kept (State.actsKept_bump _ _ _ _)).kept (State.actsKept_logDriftAt _ _ _ _ _ _ _ _)
  · obtain ⟨hoff, hstate⟩ := s3.offlineBin_spec g
    exact ((hfree hoff (.inl hstate)).kept (State.actsKept_bump _ _ _ _)).kept (State.actsKept_logDriftAt _ _ _ _ _ _ _ _)

/-- The one queued refresh, released by AUTO, starts. -/
theorem State.nextRefresh_auto {a : DriftAct} (hqueue : s.refreshQ = [a]) (hnone : s.refreshing = []) (hinst : s.inst = none)
    (hflow : s.flowing = true) (hpower : s.rackPower a.bin = true) (hauto : s.autoRefresh.testBit (s.binRec a.bin).part = true)
    (hidle : s.inFlight (s.binRec a.bin).part = false) : s.nextRefresh = some a := by
  have hreleased : s.released a = true := by rw [State.released, hauto, hidle, Bool.not_false, Bool.and_self, Bool.or_true]
  have hrefresh : s.refreshOn (binDie a.bin) = false := by rw [State.refreshOn, hnone]; rfl
  have hinstall : s.installOn (binDie a.bin) = false := by rw [State.installOn, hinst]
  rw [State.nextRefresh, hqueue, List.find?_cons, hflow, hreleased, hpower, hrefresh, hinstall]
  rfl

theorem State.wear_hvSync (s : State) : s.hvSync.wear = s.wear := State.setFld_wear _ _ _ _
theorem State.wearOf_startRefresh (s : State) (a : DriftAct) :
    (s.startRefresh a).wearOf a.bin = ⟨min ((s.wearOf a.bin).cycles + 1) 65535,
      decide (s.fld Reg.CEL_WEAR_WARN Fl.CEL_WEAR_WARN_LEVEL ≤ min ((s.wearOf a.bin).cycles + 1) 65535), (s.wearOf a.bin).ue⟩ :=
  (sread_swrite _ _ _ _ _).trans (if_pos rfl)

/-- The one queued refresh starts. -/
theorem State.runRefreshes_one {a : DriftAct} (hqueue : s.refreshQ = [a]) (hnone : s.refreshing = [])
    (hserve : s.inService a.bin = true) (hnext : s.nextRefresh = some a) :
    s.runRefreshes.refreshQ = [] ∧ s.runRefreshes.refreshing = [a] ∧ (s.runRefreshes.binRec a.bin).state = .refresh ∧
      (s.runRefreshes.wearOf a.bin).cycles = min ((s.wearOf a.bin).cycles + 1) 65535 := by
  have hlen : s.refreshQ.length = 0 + 1 := congrArg List.length hqueue
  rw [State.runRefreshes, hlen, startRefreshes_succ 0 hnext, if_pos (show ((s.binRec a.bin).state == .inService) = true from hserve),
    startRefreshes]
  have hempty : s.refreshQ.filter (fun x => x.bin != a.bin) = [] := by rw [hqueue]; simp
  rw [hempty]
  generalize hv : ({ s with refreshQ := [] } : State) = v
  have hkept := (v.startRefresh a).actsKept_hvSync
  refine ⟨hkept.queue.trans ?_, hkept.running.trans ?_, (congrArg BinRec.state (hkept.binRec a.bin)).trans ?_, ?_⟩
  · exact hv ▸ rfl
  · exact hv ▸ congrArg (· ++ [a]) hnone
  · exact congrArg BinRec.state (State.binRec_setBinRec _ _ _)
  · have hwear : (v.startRefresh a).hvSync.wearOf a.bin = (v.startRefresh a).wearOf a.bin :=
      congrArg (fun m => sread (fun _ => wearZero) m a.bin) (State.wear_hvSync _)
    rw [hwear, State.wearOf_startRefresh, ← hv]
    rfl

/-! ## A norm monitor's request (R81, R130) -/

/-- The sets of bin `g` made due by a norm monitor's request, where none is. -/
def State.askSets (s : State) (layer g : Nat) : State :=
  if (s.binRec g).layer = layer ∧ s.inService g = true ∧ s.setDue g = false then
    s.setCheck g { s.check g with errs := [none, none, none, none], source := 2 }
  else s

/-- What decides on bin `g` is the same, but for the checks of other bins. -/
structure SameBin (g : Nat) (s t : State) : Prop where
  check : t.check g = s.check g
  bins : t.binRecs = s.binRecs
  regs : t.regs = s.regs
theorem State.check_setCheck_other {h : Nat} (hg : g ≠ h) (s : State) (k : BinCheck) : (s.setCheck h k).check g = s.check g :=
  (sread_swrite _ _ _ _ _).trans (if_neg hg)
theorem SameBin.askSets_other {h : Nat} (hg : g ≠ h) (s : State) (layer : Nat) : SameBin g s (s.askSets layer h) := by
  rw [State.askSets]
  split
  · exact ⟨s.check_setCheck_other hg _, rfl, rfl⟩
  · exact ⟨rfl, rfl, rfl⟩

theorem SameBin.trans (h : SameBin g s t) (h' : SameBin g t u) : SameBin g s u :=
  ⟨h'.check.trans h.check, h'.bins.trans h.bins, h'.regs.trans h.regs⟩
theorem SameBin.foldl (layer : Nat) (l : List Nat) (hl : ∀ h ∈ l, g ≠ h) (s : State) :
    SameBin g s (l.foldl (fun s h => s.askSets layer h) s) :=
  List.foldlRecOn (motive := SameBin g s) l _ ⟨rfl, rfl, rfl⟩ fun t ht h hh => ht.trans (.askSets_other (hl h hh) t layer)
theorem SameBin.setDue (h : SameBin g s t) : t.setDue g = s.setDue g := by
  have hbin : t.binRec g = s.binRec g := congrArg (fun m => sread (fun _ => binRecZero) m g) h.bins
  have hrd (o : Nat) : t.rd o = s.rd o := congrArg (fun m => sread resetOf m o) h.regs
  simp only [State.setDue, State.tvEn, State.testRegs, State.chkRegs, h.check, hbin, hrd]
theorem State.check_askSets (hlayer : (s.binRec g).layer = n) (hserve : s.inService g = true) :
    (s.askSets n g).check g = if s.setDue g then s.check g else { s.check g with errs := [none, none, none, none], source := 2 } := by
  rw [State.askSets]
  cases hdue : s.setDue g with
  | true => rw [if_neg fun h => absurd h.2.2 (by decide), if_pos rfl]
  | false => rw [if_pos ⟨hlayer, hserve, rfl⟩, if_neg (by decide), State.check_setCheck]

/-- A fold over rising numbers asks for the sets of each bin once. -/
theorem State.check_foldl_askSets {l₁ l₂ : List Nat} (h₁ : ∀ h ∈ l₁, g ≠ h) (h₂ : ∀ h ∈ l₂, g ≠ h)
    (hlayer : (s.binRec g).layer = n) (hserve : s.inService g = true) :
    ((l₁ ++ g :: l₂).foldl (fun s h => s.askSets n h) s).check g =
      if s.setDue g then s.check g else { s.check g with errs := [none, none, none, none], source := 2 } := by
  have hbefore := SameBin.foldl n l₁ h₁ s
  have hbin : (l₁.foldl (fun s h => s.askSets n h) s).binRec g = s.binRec g :=
    congrArg (fun m => sread (fun _ => binRecZero) m g) hbefore.bins
  rw [List.foldl_append, List.foldl_cons]
  generalize l₁.foldl (fun s h => s.askSets n h) s = v at hbefore hbin ⊢
  rw [(SameBin.foldl n l₂ h₂ _).check, State.check_askSets (by rw [hbin, hlayer]) ?_, hbefore.setDue, hbefore.check]
  rw [State.inService, hbin]
  exact hserve

theorem State.actTests_foldl_askSets (s : State) (layer : Nat) (l : List Nat) :
    (l.foldl (fun s h => s.askSets layer h) s).actTests = s.actTests :=
  List.foldlRecOn (motive := fun t : State => t.actTests = s.actTests) l _ rfl fun t ht h _ => by
    rw [State.askSets]
    split
    · exact ht
    · exact ht
theorem exec_actTestRun {c : CoreId} {layer : BitVec 16} (hask : s.actTests.contains (c.val, layer.toNat) = true) :
    exec (.actTestRun c layer) s = .next (((List.range 480).map (c.val * 480 + ·)).foldl (fun s h => s.askSets layer.toNat h)
      { s with actTests := s.actTests.filter fun q => q != (c.val, layer.toNat) }) := by
  rw [List.foldl_map]
  exact congrArg Host.Outcome.next (if_pos hask)

/-- The queue check notes which partitions refresh by themselves. -/
def State.queueChecked (s : State) : State := { s with autoRefresh := s.fld Reg.CEL_REFRESH_CTL Fl.CEL_REFRESH_CTL_AUTO }

theorem exec_refreshComplete (c : CoreId) (b : BinId) (s : State) :
    exec (.refreshComplete c b) s = .next (s.refreshEnd c (c.val * 480 + b.val)).instKick := rfl

/-- Settles O16: the requests by `State.check_foldl_askSets`, a recalibration by `State.recalComplete_ends`, the end of a refresh
by `State.refreshEnd_done`, and its start by `startRefreshes_succ`. -/
theorem driftActionsEnd : Obligations.DriftActionsEnd := by
  unfold Obligations.DriftActionsEnd
  refine fun c b s hlabels => ⟨fun layer hask => ?ask, fun a hfind hstate hpower => ?recal,
    fun a hfind hqueue hinst hpower => ?done, fun a hqueue hnone hinst hserve hflow hpower hpart hauto hidle => ?start⟩
  case ask =>
    have hmem : c.val * 480 + b.val ∈ (List.range 480).map (c.val * 480 + ·) := List.mem_map.2 ⟨b, List.mem_range.2 b.isLt, rfl⟩
    have hnodup : ((List.range 480).map (c.val * 480 + ·)).Nodup := List.nodup_range.map fun i j h => Nat.add_left_cancel h
    obtain ⟨l₁, l₂, hl⟩ := List.append_of_mem hmem
    rw [hl, List.nodup_append, List.nodup_cons] at hnodup
    obtain ⟨-, ⟨hl₂, -⟩, hl₁⟩ := hnodup
    rw [exec_actTestRun hask, hl]
    refine ⟨_, rfl, State.actTests_foldl_askSets _ _ _, fun hlayer hserve => ?_⟩
    exact State.check_foldl_askSets (s := { s with actTests := s.actTests.filter fun q => q != (c.val, layer.toNat) })
      (fun h hh => (hl₁ h hh _ List.mem_cons_self).symm) (fun h hh heq => hl₂ (heq ▸ hh)) hlayer hserve
  case recal =>
    obtain ⟨t, hexec, hends⟩ := State.recalComplete_ends hlabels hfind hstate hpower
    exact ⟨t, hexec, hends.acts, hends.bin⟩
  case done =>
    have hdone := (State.refreshEnd_done hlabels hpower hfind hqueue hinst c).instKick
    exact ⟨_, exec_refreshComplete c b s, hdone.running, hdone.state⟩
  case start =>
    have hnext := State.nextRefresh_auto (s := s.queueChecked) hqueue hnone hinst hflow hpower hauto hidle
    exact ⟨_, rfl, State.runRefreshes_one (s := s.queueChecked) hqueue hnone hserve hnext⟩

end Sys2Proof.Machine
end

section
/-! PROOFS. Windows open, close, drain and wait (O19, O20). -/

namespace Sys2Proof.Machine

variable {s t u : State} {c k n w x : Nat}

/-! ## Pending operations of windows that end -/

theorem tokenReg_inj {j : Nat} (h : Reg.SEQ_TOKEN c j = Reg.SEQ_TOKEN c k) : j = k := by
  unfold Reg.SEQ_TOKEN at h
  omega

/-- The end of another token's operation leaves a token. -/
theorem State.rd_tokComplete_other {j : Nat} (hc : c < 256) (hj : j ≠ k) (x : Nat) :
    (s.tokComplete c j x).rd (Reg.SEQ_TOKEN c k) = s.rd (Reg.SEQ_TOKEN c k) :=
  State.rd_tokComplete _ _ _ _ _ (fun h => hj (tokenReg_inj h).symm) (tokenReg_ne_claim c k c hc)
theorem State.tokCount_setTokCount_other (s : State) {j : Nat} (hj : j ≠ k) (n : Nat) :
    (s.setTokCount c j n).tokCount c k = s.tokCount c k := by
  have hkey : tokKey c k ≠ tokKey c j := by
    unfold tokKey
    omega
  rw [State.tokCount, State.setTokCount, sread_swrite, if_neg hkey, State.tokCount]
theorem State.tokOps_faultRelease (s : State) (c : Nat) : (s.faultRelease c).tokOps = s.tokOps := by
  unfold State.faultRelease State.zeroClaim
  split <;> simp
theorem State.tokCount_tokComplete_other {j : Nat} (hj : j ≠ k) (x : Nat) :
    (s.tokComplete c j x).tokCount c k = s.tokCount c k := by
  rw [State.tokComplete]
  split
  · exact (State.tokCount_congr ((State.tokOps_faultRelease _ _).trans (State.setTok_tokOps _ _ _ _ _)) _ _).trans
      (s.tokCount_setTokCount_other hj _)
  · rfl
theorem State.Completed.tokComplete {y : Nat} (h : s.Completed c k x) (hc : c < 256) (j : Nat) :
    (s.tokComplete c j y).Completed c k x := by
  by_cases hj : j = k
  · subst hj
    rw [State.tokComplete, if_neg (by rw [h.1]; decide)]
    exact h
  · exact ⟨(State.tok_congr_rd (State.rd_tokComplete_other hc hj y)).trans h.1,
      (State.tokStatus_congr_rd (State.rd_tokComplete_other hc hj y)).trans h.2⟩
theorem State.OneOp.tokComplete_other {j y : Nat} (h : s.OneOp c k) (hc : c < 256) (hj : j ≠ k) : (s.tokComplete c j y).OneOp c k :=
  ⟨h.range, (State.tok_congr_rd (State.rd_tokComplete_other hc hj y)).trans h.pending,
    (State.tokCount_tokComplete_other hj y).trans h.one, (State.tokStatus_congr_rd (State.rd_tokComplete_other hc hj y)).trans h.ok⟩

/-- The operations of a list end with a status. -/
def State.endPends (s : State) (c x : Nat) (l : List WinPend) : State := l.foldl (fun (s : State) p => s.tokComplete c p.tok x) s

theorem State.onlyEnd_endPends (s : State) (c x : Nat) (l : List WinPend) : OnlyEnd s (s.endPends c x l) :=
  List.foldlRecOn (motive := OnlyEnd s) l _ (.refl s) fun t ht _ _ => ht.trans (t.onlyEnd_tokComplete _ _ _)
theorem State.rd_endPends {l : List WinPend} {o : Nat} (hclaim : o ≠ Reg.ARB_CLAIM (c / 16) (c % 16))
    (ho : ∀ p ∈ l, o ≠ Reg.SEQ_TOKEN c p.tok) : (s.endPends c x l).rd o = s.rd o :=
  List.foldlRecOn (motive := fun t : State => t.rd o = s.rd o) l _ rfl fun t ht p hp =>
    (t.rd_tokComplete _ _ _ _ (ho p hp) hclaim).trans ht
theorem State.tokCount_endPends {l : List WinPend} (hl : ∀ p ∈ l, p.tok ≠ k) : (s.endPends c x l).tokCount c k = s.tokCount c k :=
  List.foldlRecOn (motive := fun t : State => t.tokCount c k = s.tokCount c k) l _ rfl fun _ ht p hp =>
    (State.tokCount_tokComplete_other (hl p hp) x).trans ht
theorem State.Completed.endPends {y : Nat} (h : s.Completed c k x) (hc : c < 256) (l : List WinPend) :
    (s.endPends c y l).Completed c k x :=
  List.foldlRecOn (motive := fun t : State => t.Completed c k x) l _ h fun _ ht p _ => ht.tokComplete hc p.tok

theorem State.endPends_cons (s : State) (c x : Nat) (q : WinPend) (l : List WinPend) :
    s.endPends c x (q :: l) = (s.tokComplete c q.tok x).endPends c x l := rfl
/-- The token of an operation in the list completes. -/
theorem State.endPends_done (hc : c < 256) (hx : x < 256) {p : WinPend} {l : List WinPend} (hp : p ∈ l) (h : s.OneOp c p.tok) :
    (s.endPends c x l).Completed c p.tok x := by
  induction l generalizing s with
  | nil => exact absurd hp List.not_mem_nil
  | cons q l ih =>
    rw [State.endPends_cons]
    by_cases hq : q.tok = p.tok
    · rw [hq]
      exact (State.tokComplete_done hc h.pending h.one h.ok hx).endPends hc l
    · exact ih ((List.mem_cons.1 hp).resolve_left fun h => hq (h ▸ rfl)) (h.tokComplete_other hc hq)

/-! ## What the ends at a window leave -/

/-- Nothing changed but registers `E`, tokens of the operations `L` and claims, and pending operations that ended. -/
structure PendsEnd (c : Nat) (L : List WinPend) (E : List Nat) (s t : State) : Prop where
  rd : ∀ o, o ∉ E → o ≠ Reg.ARB_CLAIM (c / 16) (c % 16) → (∀ p ∈ L, o ≠ Reg.SEQ_TOKEN c p.tok) → t.rd o = s.rd o
  ops : ∀ k, (∀ p ∈ L, p.tok ≠ k) → t.tokCount c k = s.tokCount c k
  pends : t.winPends ⊆ s.winPends
  pantry : t.pantry = s.pantry
  net : t.net = s.net
  still : t.biWant = s.biWant
theorem PendsEnd.refl (c : Nat) (L : List WinPend) (E : List Nat) (s : State) : PendsEnd c L E s s :=
  ⟨fun _ _ _ _ => rfl, fun _ _ => rfl, List.Subset.refl _, rfl, rfl, rfl⟩
theorem PendsEnd.trans {L : List WinPend} {E : List Nat} (h : PendsEnd c L E s t) (h' : PendsEnd c L E t u) : PendsEnd c L E s u :=
  ⟨fun o ho hclaim hl => (h'.rd o ho hclaim hl).trans (h.rd o ho hclaim hl), fun k hk => (h'.ops k hk).trans (h.ops k hk),
    List.Subset.trans h'.pends h.pends, h'.pantry.trans h.pantry, h'.net.trans h.net, h'.still.trans h.still⟩
theorem State.pendsEnd_wr {L : List WinPend} {E : List Nat} (s : State) (c : Nat) {o : Nat} (v : DWord) (ho : o ∈ E) :
    PendsEnd c L E s (s.wr o v) :=
  ⟨fun _ hj _ _ => State.rd_wr_other _ _ _ _ fun h => hj (h ▸ ho), fun _ _ => State.tokCount_congr (State.wr_tokOps _ _ _) _ _,
    fun _ h => State.wr_winPends s _ _ ▸ h, State.wr_pantry _ _ _, State.wr_net _ _ _, State.wr_biWant _ _ _⟩
theorem State.pendsEnd_setFld {L : List WinPend} {E : List Nat} (s : State) (c : Nat) {o : Nat} (f : Fld) (x : Nat) (ho : o ∈ E) :
    PendsEnd c L E s (s.setFld o f x) := s.pendsEnd_wr c _ ho

/-- The operations of one kind at a window. -/
def pendHit (c w : Nat) (k : WinPendKind) (p : WinPend) : Bool := p.core == c && p.win == w && p.kind == k
theorem pendHit_core {kind : WinPendKind} {p : WinPend} (h : pendHit c w kind p = true) : p.core = c := by
  simp only [pendHit, Bool.and_eq_true, beq_iff_eq] at h
  exact h.1.1
/-- The state in which the operations that end are no longer pending. -/
def State.dropPends (s : State) (hit : WinPend → Bool) : State := { s with winPends := s.winPends.filter fun p => !hit p }

theorem OnlyEnd.winPends (h : OnlyEnd s t) : t.winPends = s.winPends := by
  obtain ⟨_, _, _, rfl⟩ := h
  rfl
/-- The operations of core `c` that are pending at its windows are among `L`. -/
def State.pendsIn (s : State) (c : Nat) (L : List WinPend) : Prop := ∀ p ∈ s.winPends, p.core = c → p ∈ L
theorem PendsEnd.pendsIn {L : List WinPend} {E : List Nat} (h : PendsEnd c L E s t) (hL : s.pendsIn c L) : t.pendsIn c L :=
  fun p hp => hL p (h.pends hp)
theorem State.pendsEnd_endPends {L : List WinPend} {hit : WinPend → Bool} (hL : s.pendsIn c L) (hhit : ∀ p, hit p = true → p.core = c)
    (x : Nat) : PendsEnd c L [] s ((s.dropPends hit).endPends c x (s.winPends.filter hit)) := by
  have hend := (s.dropPends hit).onlyEnd_endPends c x (s.winPends.filter hit)
  have hmem {p : WinPend} (hp : p ∈ s.winPends.filter hit) : p ∈ L :=
    hL p (List.mem_of_mem_filter hp) (hhit p (List.of_mem_filter hp))
  refine ⟨fun o _ hclaim hl => ?_, fun k hk => ?_, ?_, hend.pantry, hend.net, hend.biWant⟩
  · exact State.rd_endPends hclaim fun p hp => hl p (hmem hp)
  · exact State.tokCount_endPends fun p hp => hk p (hmem hp)
  · rw [hend.winPends]
    exact fun p hp => List.mem_of_mem_filter hp

theorem sleepReg_ne_claim (c d : Nat) : sleepReg c ≠ Reg.ARB_CLAIM (d / 16) (d % 16) := by
  unfold sleepReg Reg.STG_CORE_STATE Reg.ARB_CLAIM regionWin
  omega
theorem State.sleep_congr (h : t.rd (sleepReg c) = s.rd (sleepReg c)) : t.sleep c = s.sleep c :=
  congrArg (Fld.get _) h

theorem sleepReg_ne_token (c : CoreId) (d k : Nat) : sleepReg c ≠ Reg.SEQ_TOKEN d k := by
  unfold Reg.SEQ_TOKEN
  rw [Nat.add_assoc]
  exact (sleepReg_ne_coreWin c d _).symm

/-- The operations of one kind at a window that end. -/
def State.endKind (s : State) (c w : Nat) (kind : WinPendKind) (x : Nat) : State :=
  (s.dropPends (pendHit c w kind)).endPends c x (s.winPends.filter (pendHit c w kind))
theorem State.winEnd_eq (s : State) (c w : Nat) (kind : WinPendKind) (x : Nat) (wakes : Bool) : s.winEnd c w kind x wakes =
    if wakes && !(s.winPends.filter (pendHit c w kind)).isEmpty &&
      ((s.endKind c w kind x).sleep c == 1 || (s.endKind c w kind x).sleep c == 2) then (s.endKind c w kind x).wake c
    else s.endKind c w kind x := rfl
/-- An end at a window that wakes no core. -/
theorem State.winEnd_quiet {kind : WinPendKind} : s.winEnd c w kind x false = s.endKind c w kind x := by
  rw [State.winEnd_eq]
  rfl
theorem State.sleep_endKind (s : State) (c : CoreId) (w : Nat) (kind : WinPendKind) (x : Nat) :
    (s.endKind c w kind x).sleep c = s.sleep c :=
  State.sleep_congr (State.rd_endPends (sleepReg_ne_claim _ _) fun _ _ => sleepReg_ne_token c c _)
/-- An end at a window of a core in Run. -/
theorem State.winEnd_inRun {c : CoreId} {kind : WinPendKind} {wakes : Bool} (hsleep : s.sleep c = 0) :
    s.winEnd c w kind x wakes = s.endKind c w kind x := by
  rw [State.winEnd_eq, State.sleep_endKind, hsleep]
  simp

/-! ## The changes of a window -/

variable {L : List WinPend} {E : List Nat}

theorem PendsEnd.mono {E' : List Nat} (h : PendsEnd c L E s t) (hE : E ⊆ E') : PendsEnd c L E' s t :=
  ⟨fun o ho => h.rd o fun h' => ho (hE h'), h.ops, h.pends, h.pantry, h.net, h.still⟩

section
variable (hL : s.pendsIn c L)
include hL
theorem State.pendsEnd_endKind (w : Nat) (kind : WinPendKind) (x : Nat) : PendsEnd c L [] s (s.endKind c w kind x) :=
  State.pendsEnd_endPends hL (fun _ => pendHit_core) x
theorem State.pendsEnd_drainEnd (w x : Nat) : PendsEnd c L [Reg.WDS_WIN_CTL c w] s (s.drainEnd c w x) := by
  rw [State.drainEnd, State.winEnd_quiet]
  have hset := s.pendsEnd_setFld (L := L) c (E := [Reg.WDS_WIN_CTL c w]) Fl.WDS_WIN_CTL_LAST_DRAIN x List.mem_cons_self
  exact hset.trans ((State.pendsEnd_endKind (hset.pendsIn hL) _ _ _).mono (List.nil_subset _))
theorem State.pendsEnd_winShut (w : Nat) : PendsEnd c L [Reg.WDS_WIN_CTL c w] s (s.winShut c w) := by
  rw [State.winShut, State.winEnd_quiet]
  have hset := s.pendsEnd_setFld (L := L) c (E := [Reg.WDS_WIN_CTL c w]) Fl.WDS_WIN_CTL_STATE winClosed List.mem_cons_self
  exact hset.trans ((State.pendsEnd_endKind (hset.pendsIn hL) _ _ _).mono (List.nil_subset _))
end

/-- A window's registers are no tokens and no claims. -/
theorem winReg_apart (c : CoreId) {o k : Nat} (ho : 0x10000 ≤ o) (hk : k < 16) : coreWin c + o ≠ Reg.SEQ_TOKEN c k ∧
    coreWin c + o ≠ Reg.ARB_CLAIM (c.val / 16) (c.val % 16) := by
  refine ⟨?_, coreWin_ne_claim c c o⟩
  unfold Reg.SEQ_TOKEN
  omega

section
variable {c : CoreId} (hL : s.pendsIn c L) (htok : ∀ p ∈ L, p.tok < 16)
include htok
/-- The registers of a window but those written are as they were. -/
theorem PendsEnd.rd_win (h : PendsEnd c L E s t) {o : Nat} (ho : 0x10000 ≤ o) (hE : coreWin c + o ∉ E) :
    t.rd (coreWin c + o) = s.rd (coreWin c + o) :=
  h.rd _ hE (coreWin_ne_claim c c o) fun p hp => (winReg_apart c ho (htok p hp)).1
theorem PendsEnd.rd_ctl (h : PendsEnd c L E s t) (hE : Reg.WDS_WIN_CTL c w ∉ E) :
    t.rd (Reg.WDS_WIN_CTL c w) = s.rd (Reg.WDS_WIN_CTL c w) := by
  unfold Reg.WDS_WIN_CTL at hE ⊢
  rw [Nat.add_assoc] at hE ⊢
  exact h.rd_win htok (by omega) hE
include hL
theorem State.ctl_drainEnd (w x : Nat) : (s.drainEnd c w x).rd (Reg.WDS_WIN_CTL c w) =
    Fl.WDS_WIN_CTL_LAST_DRAIN.set (s.rd (Reg.WDS_WIN_CTL c w)) x := by
  rw [State.drainEnd, State.winEnd_quiet]
  have hset := s.pendsEnd_setFld (L := L) c (E := [Reg.WDS_WIN_CTL c w]) Fl.WDS_WIN_CTL_LAST_DRAIN x List.mem_cons_self
  exact ((State.pendsEnd_endKind (hset.pendsIn hL) _ _ _).rd_ctl htok List.not_mem_nil).trans (State.rd_wr_same _ _ _)
theorem State.ctl_winShut (w : Nat) : (s.winShut c w).rd (Reg.WDS_WIN_CTL c w) =
    Fl.WDS_WIN_CTL_STATE.set (s.rd (Reg.WDS_WIN_CTL c w)) winClosed := by
  rw [State.winShut, State.winEnd_quiet]
  have hset := s.pendsEnd_setFld (L := L) c (E := [Reg.WDS_WIN_CTL c w]) Fl.WDS_WIN_CTL_STATE winClosed List.mem_cons_self
  exact ((State.pendsEnd_endKind (hset.pendsIn hL) _ _ _).rd_ctl htok List.not_mem_nil).trans (State.rd_wr_same _ _ _)
end

/-! ## A window that closes (R199, R203) -/

/-- The close of a window in which a drain ends with an outcome. -/
theorem State.drainShut_spec {c : CoreId} (hL : s.pendsIn c L) (htok : ∀ p ∈ L, p.tok < 16) (w : Nat) {x : Nat} (hx : x < 8) :
    PendsEnd c L [Reg.WDS_WIN_CTL c w] s ((s.drainEnd c w x).winShut c w) ∧
    ((s.drainEnd c w x).winShut c w).winState c w = winClosed ∧ ((s.drainEnd c w x).winShut c w).winGen c w = s.winGen c w ∧
    ((s.drainEnd c w x).winShut c w).fld (Reg.WDS_WIN_CTL c w) Fl.WDS_WIN_CTL_LAST_DRAIN = x := by
  have hend := State.pendsEnd_drainEnd hL w x
  have hL' := hend.pendsIn hL
  have hctl := (State.ctl_winShut hL' htok w).trans (congrArg (Fl.WDS_WIN_CTL_STATE.set · winClosed) (State.ctl_drainEnd hL htok w x))
  refine ⟨hend.trans (State.pendsEnd_winShut hL' w), ?_, ?_, ?_⟩
  · rw [State.winState, State.fld, hctl, Fld.get_set _ _ _ (by decide)]
    rfl
  · rw [State.winGen, State.fld, hctl, Fld.get_set_apart _ _ _ _ (by decide) (by decide) (by decide),
      Fld.get_set_apart _ _ _ _ (by decide) (by decide) (by decide)]
    rfl
  · rw [State.fld, hctl, Fld.get_set_apart _ _ _ _ (by decide) (by decide) (by decide), Fld.get_set _ _ _ (by decide)]
    exact Nat.mod_eq_of_lt hx
theorem State.winShut_spec {c : CoreId} (hL : s.pendsIn c L) (htok : ∀ p ∈ L, p.tok < 16) (w : Nat) :
    PendsEnd c L [Reg.WDS_WIN_CTL c w] s (s.winShut c w) ∧ (s.winShut c w).winState c w = winClosed ∧
      (s.winShut c w).winGen c w = s.winGen c w := by
  have hctl := State.ctl_winShut hL htok w
  refine ⟨State.pendsEnd_winShut hL w, ?_, ?_⟩
  · rw [State.winState, State.fld, hctl, Fld.get_set _ _ _ (by decide)]
    rfl
  · rw [State.winGen, State.fld, hctl, Fld.get_set_apart _ _ _ _ (by decide) (by decide) (by decide)]
    rfl
theorem State.winClose_spec {c : CoreId} (hL : s.pendsIn c L) (htok : ∀ p ∈ L, p.tok < 16) (w : Nat) :
    PendsEnd c L [Reg.WDS_WIN_CTL c w] s (s.winClose c w) ∧ (s.winClose c w).winState c w = winClosed ∧
      (s.winClose c w).winGen c w = s.winGen c w ∧
      (s.winState c w = winDraining → (s.winClose c w).fld (Reg.WDS_WIN_CTL c w) Fl.WDS_WIN_CTL_LAST_DRAIN = 3) := by
  rw [State.winClose]
  split
  next hclosed => exact ⟨.refl _ _ _ _, hclosed, rfl, fun h => absurd (hclosed.symm.trans h) (by decide)⟩
  split
  next =>
    obtain ⟨hend, hstate, hgen, hlast⟩ := State.drainShut_spec hL htok w (x := 3) (by decide)
    exact ⟨hend, hstate, hgen, fun _ => hlast⟩
  next hdrain =>
    obtain ⟨hend, hstate, hgen⟩ := State.winShut_spec hL htok w
    exact ⟨hend, hstate, hgen, fun h => absurd h hdrain⟩

/-! ## A window that opens (R199) -/

def windowRegs (c w : Nat) : List Nat := [Reg.WDS_WIN_CTL c w, Reg.WDS_WIN_COUNT c w, Reg.WDS_WIN_TARGET c w]
theorem windowRegs_apart (c w : Nat) : Reg.WDS_WIN_CTL c w ≠ Reg.WDS_WIN_COUNT c w ∧ Reg.WDS_WIN_CTL c w ≠ Reg.WDS_WIN_TARGET c w ∧
    Reg.WDS_WIN_COUNT c w ≠ Reg.WDS_WIN_TARGET c w := by
  unfold Reg.WDS_WIN_CTL Reg.WDS_WIN_COUNT Reg.WDS_WIN_TARGET
  omega
theorem sleepReg_not_windowRegs (c : CoreId) (w : Nat) : sleepReg c ∉ windowRegs c w := by
  have h (o : Nat) : sleepReg c ≠ coreWin c + o := (sleepReg_ne_coreWin c c o).symm
  unfold windowRegs Reg.WDS_WIN_CTL Reg.WDS_WIN_COUNT Reg.WDS_WIN_TARGET
  simp only [Nat.add_assoc, List.mem_cons, h, List.not_mem_nil, or_self, not_false_iff]

theorem windowReg_form {o : Nat} (ho : o ∈ windowRegs c w) : ∃ k, 0x10000 ≤ k ∧ o = coreWin c + k := by
  simp only [windowRegs, Reg.WDS_WIN_CTL, Reg.WDS_WIN_COUNT, Reg.WDS_WIN_TARGET, List.mem_cons, List.not_mem_nil, or_false] at ho
  exact ⟨o - coreWin c, by omega, by omega⟩
theorem nextGen_lt {g : Nat} (h : g < 2 ^ 16) : nextGen g < 2 ^ 16 := by
  unfold nextGen
  split <;> omega

/-- A window's drain ended by an open. -/
def State.reopened (s : State) (c w : Nat) : State := if s.winState c w = winDraining then s.drainEnd c w 4 else s
/-- The registers of a window that opens. -/
def State.opened (s : State) (c w gen target : Nat) : State :=
  (((s.setFld (Reg.WDS_WIN_CTL c w) Fl.WDS_WIN_CTL_GENERATION gen).setFld (Reg.WDS_WIN_CTL c w) Fl.WDS_WIN_CTL_STATE winOpened).wr
    (Reg.WDS_WIN_COUNT c w) 0).setFld (Reg.WDS_WIN_TARGET c w) Fl.WDS_WIN_TARGET_TARGET target
theorem State.winOpen_eq (s : State) (c w target : Nat) : s.winOpen c w target =
    ((s.reopened c w).opened c w (nextGen ((s.reopened c w).winGen c w)) target).winWaits c w := rfl

theorem State.pendsEnd_opened (s : State) (c w gen target : Nat) : PendsEnd c L (windowRegs c w) s (s.opened c w gen target) := by
  have hctl : Reg.WDS_WIN_CTL c w ∈ windowRegs c w := by simp [windowRegs]
  have hcount : Reg.WDS_WIN_COUNT c w ∈ windowRegs c w := by simp [windowRegs]
  have htarget : Reg.WDS_WIN_TARGET c w ∈ windowRegs c w := by simp [windowRegs]
  exact ((s.pendsEnd_setFld c _ _ hctl).trans (State.pendsEnd_setFld _ c _ _ hctl)).trans
    ((State.pendsEnd_wr _ c _ hcount).trans (State.pendsEnd_setFld _ c _ _ htarget))
theorem State.opened_ctl (s : State) (c w gen target : Nat) : (s.opened c w gen target).rd (Reg.WDS_WIN_CTL c w) =
    Fl.WDS_WIN_CTL_STATE.set (Fl.WDS_WIN_CTL_GENERATION.set (s.rd (Reg.WDS_WIN_CTL c w)) gen) winOpened := by
  obtain ⟨hcount, htarget, -⟩ := windowRegs_apart c w
  rw [State.opened, State.rd_setFld_other _ _ _ _ htarget, State.rd_wr_other _ _ _ _ hcount, State.rd_setFld, if_pos rfl,
    State.rd_setFld, if_pos rfl]
theorem State.opened_count (s : State) (c w gen target : Nat) : (s.opened c w gen target).rd (Reg.WDS_WIN_COUNT c w) = 0 := by
  obtain ⟨-, -, hcount⟩ := windowRegs_apart c w
  rw [State.opened, State.rd_setFld_other _ _ _ _ hcount, State.rd_wr_same]
theorem State.opened_target (s : State) (c w gen target : Nat) :
    (s.opened c w gen target).winTarget c w = target % 2 ^ 32 := State.fld_setFld_same _ _ _ _ (by decide)

theorem State.pendsEnd_winWaits {c : CoreId} (hL : s.pendsIn c L) (hsleep : s.sleep c = 0) (w : Nat) :
    PendsEnd c L [] s (s.winWaits c w) := by
  rw [State.winWaits, State.winEnd_inRun hsleep]
  split
  · exact State.pendsEnd_endKind hL w _ _
  · exact .refl _ _ _ _

theorem State.winOpen_spec {c : CoreId} (hL : s.pendsIn c L) (htok : ∀ p ∈ L, p.tok < 16) (hsleep : s.sleep c = 0) (w target : Nat) :
    PendsEnd c L (windowRegs c w) s (s.winOpen c w target) ∧ (s.winOpen c w target).winState c w = winOpened ∧
      (s.winOpen c w target).winGen c w = nextGen (s.winGen c w) ∧ (s.winOpen c w target).winCount c w = 0 ∧
      (s.winOpen c w target).winTarget c w = target % 2 ^ 32 ∧
      (s.winState c w = winDraining → (s.winOpen c w target).fld (Reg.WDS_WIN_CTL c w) Fl.WDS_WIN_CTL_LAST_DRAIN = 4) := by
  have hreopen : PendsEnd c L (windowRegs c w) s (s.reopened c w) := by
    rw [State.reopened]
    split
    · exact (State.pendsEnd_drainEnd hL w 4).mono (by simp [windowRegs])
    · exact .refl _ _ _ _
  have hgen : (s.reopened c w).winGen c w = s.winGen c w := by
    rw [State.reopened]
    split
    · rw [State.winGen, State.fld, State.ctl_drainEnd hL htok, Fld.get_set_apart _ _ _ _ (by decide) (by decide) (by decide)]
      rfl
    · rfl
  have hlast (h : s.winState c w = winDraining) :
      Fl.WDS_WIN_CTL_LAST_DRAIN.get ((s.reopened c w).rd (Reg.WDS_WIN_CTL c w)) = 4 := by
    rw [State.reopened, if_pos h, State.ctl_drainEnd hL htok, Fld.get_set _ _ _ (by decide)]
    rfl
  rw [State.winOpen_eq, hgen]
  generalize s.reopened c w = v at hreopen hlast ⊢
  have hopened := hreopen.trans (v.pendsEnd_opened (L := L) c w (nextGen (s.winGen c w)) target)
  have hctl := v.opened_ctl c w (nextGen (s.winGen c w)) target
  have hcount := v.opened_count c w (nextGen (s.winGen c w)) target
  have htarget := v.opened_target c w (nextGen (s.winGen c w)) target
  generalize v.opened c w (nextGen (s.winGen c w)) target = u at hopened hctl hcount htarget ⊢
  have hrun : u.sleep c = 0 := (State.sleep_congr (hopened.rd _ (sleepReg_not_windowRegs c w) (sleepReg_ne_claim _ _)
    fun _ _ => sleepReg_ne_token c c _)).trans hsleep
  have hwaits := State.pendsEnd_winWaits (hopened.pendsIn hL) hrun w
  have hkept {o : Nat} (ho : o ∈ windowRegs c w) : (u.winWaits c w).rd o = u.rd o := by
    obtain ⟨k, hk, rfl⟩ := windowReg_form ho
    exact hwaits.rd_win htok hk List.not_mem_nil
  have hctl' := (hkept (o := Reg.WDS_WIN_CTL c w) (by simp [windowRegs])).trans hctl
  refine ⟨hopened.trans (hwaits.mono (List.nil_subset _)), ?_, ?_, ?_, ?_, fun h => ?_⟩
  · rw [State.winState, State.fld, hctl', Fld.get_set _ _ _ (by decide)]
    rfl
  · rw [State.winGen, State.fld, hctl', Fld.get_set_apart _ _ _ _ (by decide) (by decide) (by decide),
      Fld.get_set _ _ _ (by decide)]
    exact Nat.mod_eq_of_lt (nextGen_lt (Fld.get_lt _ _))
  · rw [State.winCount, State.fld, hkept (by simp [windowRegs]), hcount]
    rfl
  · rw [State.winTarget, State.fld, hkept (by simp [windowRegs])]
    exact htarget
  · rw [State.fld, hctl', Fld.get_set_apart _ _ _ _ (by decide) (by decide) (by decide),
      Fld.get_set_apart _ _ _ _ (by decide) (by decide) (by decide)]
    exact hlast h

/-! ## The instructions (R259) -/

theorem issue_checked {word : DWord} {next : Int} {bad : Bool} {check : Option Cause} {seen : State → State} (eff : State → State)
    (hr : s.Ready c word next) (hd : opcodeDefined word = true) (hbad : bad = false) (hcheck : check = none) :
    issue ⟨c, word, next, bad, none, false, check, false⟩ seen eff s = eff (s.issued c next) := by
  rw [issue, issueOr_ready _ _ _ _ hr hd hbad rfl hcheck]
  rfl
theorem issue_token {word : DWord} {next : Int} {bad join : Bool} {check : Option Cause} {seen : State → State}
    (eff : State → State) (hr : s.Ready c word next) (hd : opcodeDefined word = true) (hbad : bad = false)
    (htok : s.tok c k ≠ tokPending) (hcheck : check = none) :
    issue ⟨c, word, next, bad, some k, join, check, false⟩ seen eff s = eff (s.issued c next) := by
  rw [issue, issueOr_ready _ _ _ _ hr hd hbad (by simp [htok]) hcheck]
  rfl

theorem CFmt.bad_none {f : CFmt} (hresv : f.resv = 0) (hjoin : f.join = false) (joins : Bool) : f.bad joins = false := by
  simp [CFmt.bad, hresv, hjoin]

/-- The registers that every issue writes, and its token, are none of a window's. -/
theorem windowReg_not_issue {o : Nat} (ho : o ∈ windowRegs c w) : o ∉ issueRegs c ∧ ∀ k < 16, o ≠ Reg.SEQ_TOKEN c k := by
  obtain ⟨j, hj, rfl⟩ := windowReg_form ho
  unfold issueRegs Reg.SEQ_PC Reg.SEQ_ISSUED Reg.SEQ_STAT Reg.SEQ_TOKEN
  simp only [List.mem_cons, List.not_mem_nil, or_false]
  exact ⟨by omega, fun k hk => by omega⟩

/-- The window's registers are as they were. -/
structure SameWindow (c w : Nat) (s t : State) : Prop where
  rd : ∀ o ∈ windowRegs c w, t.rd o = s.rd o
section
variable (h : SameWindow c w s t)
include h
theorem SameWindow.ctl : t.rd (Reg.WDS_WIN_CTL c w) = s.rd (Reg.WDS_WIN_CTL c w) := h.rd _ (by simp [windowRegs])
theorem SameWindow.state : t.winState c w = s.winState c w := congrArg (Fld.get _) h.ctl
theorem SameWindow.gen : t.winGen c w = s.winGen c w := congrArg (Fld.get _) h.ctl
theorem SameWindow.count : t.winCount c w = s.winCount c w := congrArg (Fld.get _) (h.rd _ (by simp [windowRegs]))
theorem SameWindow.target : t.winTarget c w = s.winTarget c w := congrArg (Fld.get _) (h.rd _ (by simp [windowRegs]))
theorem SameWindow.met : t.winMet c w = s.winMet c w := by
  rw [State.winMet, h.count, h.target]
  rfl
end
theorem State.sameWindow_issued (s : State) (c w : Nat) (next : Int) : SameWindow c w s (s.issued c next) :=
  ⟨fun _ ho => State.rd_issued _ _ _ _ (windowReg_not_issue ho).1⟩
theorem State.sameWindow_tokIssue (s : State) (c w : Nat) {k : Nat} (hk : k < 16) : SameWindow c w s (s.tokIssue c k) :=
  ⟨fun _ ho => State.rd_tokIssue _ _ _ _ ((windowReg_not_issue ho).2 k hk)⟩
theorem SameWindow.trans (h : SameWindow c w s t) (h' : SameWindow c w t u) : SameWindow c w s u :=
  ⟨fun o ho => (h'.rd o ho).trans (h.rd o ho)⟩
theorem State.sameWindow_setG (s : State) (c w : Nat) {n : Nat} (hn : n < 32) (v : DWord) : SameWindow c w s (s.setG c n v) := by
  refine ⟨fun o ho => ?_⟩
  obtain ⟨j, hj, rfl⟩ := windowReg_form ho
  rw [State.setG]
  split
  · rfl
  · refine State.rd_wr_other _ _ _ _ ?_
    unfold Reg.SEQ_G
    omega

theorem OnlyIssue.winPends (h : OnlyIssue s t) : t.winPends = s.winPends := by
  obtain ⟨_, _, _, _, rfl⟩ := h
  rfl

/-- What the ends at a window leave of an issue. -/
theorem PendsEnd.issued {c : CoreId} {next : Int} (h : PendsEnd c L E t u) (hE : ∀ o ∈ issueRegs c, o ∉ E)
    (hi : Issued s t c next) : Issued s u c next := by
  refine hi.of_rd fun o ho => h.rd o (hE o ho) ((issueRegs_apart ho 0).2.2) fun p _ heq =>
    tokenReg_ne_issueRegs c p.tok (heq ▸ ho)
theorem PendsEnd.queued {c : CoreId} (h : PendsEnd c L E t u) (hE : ∀ o ∈ issueRegs c, o ∉ E) (htok : Reg.SEQ_TOKEN c k ∉ E)
    (hL : ∀ p ∈ L, p.tok ≠ k) (hq : Queued s t c k) : Queued s u c k := by
  have hrd : u.rd (Reg.SEQ_TOKEN c k) = t.rd (Reg.SEQ_TOKEN c k) :=
    h.rd _ htok (tokenReg_ne_claim c k c c.isLt) fun p hp heq => hL p hp (tokenReg_inj heq).symm
  exact ⟨h.issued hE hq.issued, (State.tok_congr_rd hrd).trans hq.pending, (State.tokStatus_congr_rd hrd).trans hq.ok,
    (h.ops k hL).trans hq.one⟩

theorem issueRegs_not_windowRegs {o : Nat} (ho : o ∈ issueRegs c) : o ∉ windowRegs c w := fun h => (windowReg_not_issue h).1 ho
theorem tokenReg_not_windowRegs (hk : k < 16) : Reg.SEQ_TOKEN c k ∉ windowRegs c w := fun h => (windowReg_not_issue h).2 k hk rfl
theorem State.pendsIn_congr (h : t.winPends = s.winPends) (hL : s.pendsIn c L) : t.pendsIn c L := fun p hp => hL p (h ▸ hp)

/-- The pending operations of a core. -/
def State.pendsOf (s : State) (c : Nat) : List WinPend := s.winPends.filter fun p => p.core == c
theorem State.pendsIn_pendsOf (s : State) (c : Nat) : s.pendsIn c (s.pendsOf c) := fun _ hp hc => List.mem_filter.2 ⟨hp, by simp [hc]⟩
theorem State.winPendsApart.tok (h : s.winPendsApart c k) : ∀ p ∈ s.pendsOf c, p.tok < 16 ∧ p.tok ≠ k := fun p hp =>
  h p (List.mem_of_mem_filter hp) (by simpa using List.of_mem_filter hp)

theorem sleepReg_not_issueRegs (c : CoreId) : sleepReg c ∉ issueRegs c := by
  simp only [issueRegs, Reg.SEQ_PC, Reg.SEQ_ISSUED, Reg.SEQ_STAT, List.mem_cons, List.not_mem_nil, or_false,
    (sleepReg_ne_coreWin c c _).symm, not_false_iff]
theorem State.setG_pantry (s : State) (c n : Nat) (v : DWord) : (s.setG c n v).pantry = s.pantry := by
  rw [State.setG]
  split
  · rfl
  · exact State.wr_pantry _ _ _

theorem winOpen_opens {c : CoreId} {f : CFmt} (hresv : f.resv = 0) (hjoin : f.join = false) (htok : f.tok = 0)
    (hlen : s.fld (Reg.WDS_WIN_LEN c f.win) Fl.WDS_WIN_LEN_LEN ≠ 0) (hpends : s.winPendsApart c 16)
    (hr : s.Ready c (f.word 0x70) (s.pcNext c)) :
    ∃ t, exec (.winOpen c f) s = .next t ∧ Issued s t c (s.pcNext c) ∧ t.winState c f.win = winOpened ∧
      t.winGen c f.win = nextGen (s.winGen c f.win) ∧ t.winCount c f.win = 0 ∧
      t.winTarget c f.win = ((s.g c f.ga.val).toNat + f.imm.toNat) % 2 ^ 32 ∧
      t.g c f.gd.val = (if f.gd.val = 0 then 0 else BitVec.ofNat 64 (nextGen (s.winGen c f.win))) ∧
      (s.winState c f.win = winDraining → t.fld (Reg.WDS_WIN_CTL c f.win) Fl.WDS_WIN_CTL_LAST_DRAIN = 4) ∧ PantryKept s t := by
  have hbad : (f.bad false || f.tok != 0) = false := by simp [CFmt.bad_none hresv hjoin, htok]
  have hcheck : firstCause [(s.fld (Reg.WDS_WIN_LEN c f.win) Fl.WDS_WIN_LEN_LEN == 0, .winUndeclared)] = none :=
    if_neg (by simpa using hlen)
  have hsame := s.sameWindow_issued c f.win (s.pcNext c)
  have hL : (s.issued c (s.pcNext c)).pendsIn c (s.pendsOf c) :=
    State.pendsIn_congr (State.issued_onlyRegs s c _).onlyIssue.winPends (s.pendsIn_pendsOf c)
  have hrun : (s.issued c (s.pcNext c)).sleep c = 0 :=
    (State.sleep_congr (State.rd_issued _ _ _ _ (sleepReg_not_issueRegs c))).trans hr.inRun
  obtain ⟨hend, hstate, hgen, hcount, htarget, hlast⟩ :=
    State.winOpen_spec hL (fun p hp => (hpends.tok p hp).1) hrun f.win (s.winOperand c f)
  have hi : Issued s ((s.issued c (s.pcNext c)).winOpen c f.win (s.winOperand c f)) c (s.pcNext c) :=
    hend.issued (fun _ ho => issueRegs_not_windowRegs ho) (State.issued_spec hr.there)
  refine ⟨_, congrArg Host.Outcome.next (issue_checked _ hr (CFmt.word_defined f 0x70 rfl) hbad hcheck), ?_⟩
  have hpantry : ((s.issued c (s.pcNext c)).winOpen c f.win (s.winOperand c f)).pantry = s.pantry :=
    hend.pantry.trans (State.issued_onlyRegs s c _).onlyIssue.pantry
  generalize (s.issued c (s.pcNext c)).winOpen c f.win (s.winOperand c f) = u at *
  have hg := u.sameWindow_setG c f.win f.gd.isLt (BitVec.ofNat 64 (u.winGen c f.win))
  refine ⟨hi.setG _ _, hg.state.trans hstate, hg.gen.trans (hgen.trans (congrArg nextGen hsame.gen)), hg.count.trans hcount,
    hg.target.trans (htarget.trans (Nat.mod_mod _ _)), ?_, fun h => (congrArg (Fld.get _) hg.ctl).trans (hlast (hsame.state.trans h)),
    pantryKept_of_eq ?_⟩
  · rw [State.g_setG, hgen, hsame.gen]
  · exact (State.setG_pantry _ _ _ _).trans hpantry

/-- An instruction has issued and its token is PENDING: the window and the pending operations are as they were. -/
theorem State.winTaken {c : CoreId} {k : Nat} (hk : k < 16) (s : State) (w : Nat) :
    SameWindow c w s ((s.issued c (s.pcNext c)).tokIssue c k) ∧
      ((s.issued c (s.pcNext c)).tokIssue c k).pendsIn c (s.pendsOf c) ∧
      ((s.issued c (s.pcNext c)).tokIssue c k).winPends = s.winPends ∧
      ((s.issued c (s.pcNext c)).tokIssue c k).pantry = s.pantry := by
  have honly := s.onlyIssue_issued_tokIssue c k (s.pcNext c)
  exact ⟨(s.sameWindow_issued c w _).trans (State.sameWindow_tokIssue _ c w hk),
    State.pendsIn_congr honly.winPends (s.pendsIn_pendsOf c), honly.winPends, honly.pantry⟩

/-- The writes under way for a window. -/
theorem State.winWrites_issued (s : State) (c w : Nat) (next : Int) : (s.issued c next).winWrites c w = s.winWrites c w := by
  have hnet : (s.issued c next).net = s.net := (State.issued_onlyRegs s c next).onlyIssue.net
  have hmodule : (s.issued c next).module = s.module := by
    refine congrArg (Fld.get _) (State.rd_issued _ _ _ _ ?_)
    simp only [issueRegs, Reg.SEQ_PC, Reg.SEQ_ISSUED, Reg.SEQ_STAT, Reg.LNK_MODULE, coreWin, List.mem_cons, List.not_mem_nil,
      or_false]
    omega
  rw [State.winWrites, hnet, hmodule]
  rfl

theorem Queued.oneOp {k : Nat} (h : Queued s t c k) (hk : k < 16) : t.OneOp c k := ⟨hk, h.pending, h.one, h.ok⟩

/-- The completion of an instruction's own token leaves its issue and the window. -/
theorem SameWindow.tokComplete {c : CoreId} {k x : Nat} (hk : k < 16) (s : State) (w : Nat) : SameWindow c w s (s.tokComplete c k x) := by
  refine ⟨fun o ho => State.rd_tokComplete _ _ _ _ _ ((windowReg_not_issue ho).2 k hk) ?_⟩
  obtain ⟨j, -, rfl⟩ := windowReg_form ho
  exact coreWin_ne_claim c c j
theorem Issued.tokComplete {c : CoreId} {next : Int} (h : Issued s t c next) (k x : Nat) : Issued s (t.tokComplete c k x) c next :=
  h.of_rd fun _ ho => State.rd_tokComplete _ _ _ _ _ (issueRegs_apart ho k).2.1 (issueRegs_apart ho 0).2.2

/-- An operation of a window that is pending. -/
def State.pushPend (s : State) (p : WinPend) : State := { s with winPends := s.winPends ++ [p] }
theorem State.pushPend_regs (s : State) (p : WinPend) : (s.pushPend p).regs = s.regs := rfl
theorem State.pushPend_tokOps (s : State) (p : WinPend) : (s.pushPend p).tokOps = s.tokOps := rfl
theorem State.pushPend_pantry (s : State) (p : WinPend) : (s.pushPend p).pantry = s.pantry := rfl
theorem State.sameWindow_pushPend (s : State) (c w : Nat) (p : WinPend) : SameWindow c w s (s.pushPend p) := ⟨fun _ _ => rfl⟩

theorem winClose_closes {c : CoreId} {f : CFmt} (hresv : f.resv = 0) (hjoin : f.join = false) (himm : f.imm = 0)
    (hpends : s.winPendsApart c f.tok) (htok : s.tok c f.tok ≠ tokPending) (hr : s.Ready c (f.word 0x71) (s.pcNext c)) :
    ∃ t, exec (.winClose c f) s = .next t ∧ Issued s t c (s.pcNext c) ∧ t.winState c f.win = winClosed ∧
      t.winGen c f.win = s.winGen c f.win ∧ t.winCount c f.win = s.winCount c f.win ∧
      (s.winState c f.win = winDraining → t.fld (Reg.WDS_WIN_CTL c f.win) Fl.WDS_WIN_CTL_LAST_DRAIN = 3) ∧
      (s.winState c f.win = winClosed ∨ s.winWrites c f.win = [] → t.Completed c f.tok stOk) ∧
      (s.winState c f.win ≠ winClosed → s.winWrites c f.win ≠ [] → Queued s t c f.tok) ∧ PantryKept s t := by
  have hbad : (f.bad false || f.imm != 0) = false := by simp [CFmt.bad_none hresv hjoin, himm]
  have hk : f.tok.val < 16 := f.tok.isLt
  obtain ⟨hsame, hL, -, hpantry⟩ := State.winTaken (c := c) hk s f.win
  have hqueued := State.tokIssue_queued hr.there htok
  refine ⟨_, congrArg Host.Outcome.next (issue_token _ hr (CFmt.word_defined f 0x71 rfl) hbad htok rfl), ?_⟩
  rw [(s.sameWindow_issued c f.win _).state, State.winWrites_issued]
  generalize (s.issued c (s.pcNext c)).tokIssue c f.tok = v at hsame hL hpantry hqueued ⊢
  obtain ⟨hend, hstate, hgen, hlast⟩ := State.winClose_spec hL (fun p hp => (hpends.tok p hp).1) f.win
  have hcount : (v.winClose c f.win).winCount c f.win = s.winCount c f.win := by
    refine Eq.trans (congrArg (Fld.get _) ?_) hsame.count
    obtain ⟨j, hj, hform⟩ := windowReg_form (c := c) (w := f.win) (o := Reg.WDS_WIN_COUNT c f.win) (by simp [windowRegs])
    rw [hform]
    refine hend.rd_win (fun p hp => (hpends.tok p hp).1) hj ?_
    rw [← hform, List.mem_singleton]
    exact (windowRegs_apart c f.win).1.symm
  have hctl : [Reg.WDS_WIN_CTL c f.win] ⊆ windowRegs c f.win := by simp [windowRegs]
  have hq := (hend.mono hctl).queued (fun _ ho => issueRegs_not_windowRegs ho) (tokenReg_not_windowRegs hk)
    (fun p hp => (hpends.tok p hp).2) hqueued
  have hpantry' := hend.pantry.trans hpantry
  generalize v.winClose c f.win = u at hstate hgen hlast hcount hq hpantry' ⊢
  have hdrain (h : s.winState c f.win = winDraining) := hlast (hsame.state.trans h)
  by_cases hopen : s.winState c f.win = winClosed ∨ s.winWrites c f.win = []
  · have hids : (if s.winState c f.win = winClosed then [] else s.winWrites c f.win) = [] := by
      split
      · rfl
      · exact hopen.resolve_left ‹_›
    rw [hids, if_pos (by rfl)]
    have hwin := SameWindow.tokComplete (c := c) (x := stOk) hk u f.win
    exact ⟨hq.issued.tokComplete _ _, hwin.state.trans hstate, hwin.gen.trans (hgen.trans hsame.gen), hwin.count.trans hcount,
      fun h => (congrArg (Fld.get _) hwin.ctl).trans (hdrain h),
      fun _ => State.tokComplete_done c.isLt hq.pending hq.one hq.ok (by decide),
      fun h h' => absurd hopen (not_or_intro h h'), pantryKept_of_eq ((u.onlyEnd_tokComplete _ _ _).pantry.trans hpantry')⟩
  · obtain ⟨hnot, hwrites⟩ := not_or.1 hopen
    rw [if_neg hnot, if_neg (by simpa using hwrites)]
    have hq' := hq.of_same (State.pushPend_regs u _) (State.pushPend_tokOps u ⟨c, f.win, f.tok, .close, false, s.winWrites c f.win⟩)
    have hwin := u.sameWindow_pushPend c f.win ⟨c, f.win, f.tok, .close, false, s.winWrites c f.win⟩
    rw [← State.pushPend]
    exact ⟨hq'.issued, hwin.state.trans hstate, hwin.gen.trans (hgen.trans hsame.gen), hwin.count.trans hcount,
      fun h => (congrArg (Fld.get _) hwin.ctl).trans (hdrain h), fun h => absurd h hopen, fun _ _ => hq',
      pantryKept_of_eq ((u.pushPend_pantry _).trans hpantry')⟩

/-- Settles O19: an open by `State.winOpen_spec`, a close by `State.winClose_spec`. -/
theorem windowsOpenAndClose : Obligations.WindowsOpenAndClose := by
  unfold Obligations.WindowsOpenAndClose
  exact fun c f s hresv hjoin => ⟨fun htok hlen hpends hr => winOpen_opens hresv hjoin htok hlen hpends hr,
    fun himm hpends htok hr => winClose_closes hresv hjoin himm hpends htok hr⟩

end Sys2Proof.Machine
end

section
/-! PROOFS. Window drains, waits and closes end (O20). -/

namespace Sys2Proof.Machine

variable {s t u : State} {k n w x : Nat} {c : CoreId} {L : List WinPend}

/-! ## The token of a drain -/

theorem State.Completed.of_rd (h : s.Completed c k x) (hrd : t.rd (Reg.SEQ_TOKEN c k) = s.rd (Reg.SEQ_TOKEN c k)) :
    t.Completed c k x := ⟨(State.tok_congr_rd hrd).trans h.1, (State.tokStatus_congr_rd hrd).trans h.2⟩
theorem State.OneOp.of_rd (h : s.OneOp c k) (hrd : t.rd (Reg.SEQ_TOKEN c k) = s.rd (Reg.SEQ_TOKEN c k))
    (hops : t.tokCount c k = s.tokCount c k) : t.OneOp c k :=
  ⟨h.range, (State.tok_congr_rd hrd).trans h.pending, hops.trans h.one, (State.tokStatus_congr_rd hrd).trans h.ok⟩

theorem State.rd_token_setCtl (s : State) (f : Fld) (y : Nat) (hk : k < 16) :
    (s.setFld (Reg.WDS_WIN_CTL c w) f y).rd (Reg.SEQ_TOKEN c k) = s.rd (Reg.SEQ_TOKEN c k) := by
  refine State.rd_setFld_other _ _ _ _ ?_
  unfold Reg.SEQ_TOKEN Reg.WDS_WIN_CTL
  omega

theorem State.OneOp.dropPends (h : s.OneOp c k) (hit : WinPend → Bool) : (s.dropPends hit).OneOp c k := h.of_rd rfl rfl

theorem State.Completed.dropPends (h : s.Completed c k x) (hit : WinPend → Bool) : (s.dropPends hit).Completed c k x :=
  h.of_rd rfl

/-- A drain that ends completes its token. -/
theorem State.drainEnd_done {p : WinPend} (hp : p ∈ s.winPends) (hhit : pendHit c w .drain p = true) (h : s.OneOp c p.tok)
    (hx : drainStatus x < 256) : (s.drainEnd c w x).Completed c p.tok (drainStatus x) := by
  rw [State.drainEnd, State.winEnd_quiet]
  refine State.endPends_done c.isLt hx (List.mem_filter.2 ⟨?_, hhit⟩) ?_
  · rw [State.setFld_winPends]
    exact hp
  · refine State.OneOp.dropPends (State.OneOp.of_rd h (s.rd_token_setCtl _ _ h.range) ?_) _
    exact State.tokCount_congr (State.setFld_tokOps _ _ _ _) _ _
theorem State.Completed.winShut (h : s.Completed c k x) (hk : k < 16) (w : Nat) : (s.winShut c w).Completed c k x := by
  rw [State.winShut, State.winEnd_quiet]
  exact ((h.of_rd (s.rd_token_setCtl _ _ hk)).dropPends _).endPends c.isLt _

/-- The end of a drain that closes its window. -/
theorem State.drainShut_done {p : WinPend} (hp : p ∈ s.winPends) (hhit : pendHit c w .drain p = true) (h : s.OneOp c p.tok)
    (hx : drainStatus x < 256) : ((s.drainEnd c w x).winShut c w).Completed c p.tok (drainStatus x) :=
  (State.drainEnd_done hp hhit h hx).winShut h.range w

theorem PendsEnd.count (h : PendsEnd c L [Reg.WDS_WIN_CTL c w] s t) (htok : ∀ p ∈ L, p.tok < 16) : t.winCount c w = s.winCount c w := by
  refine congrArg (Fld.get _) ?_
  obtain ⟨j, hj, hform⟩ := windowReg_form (c := c) (w := w) (o := Reg.WDS_WIN_COUNT c w) (by simp [windowRegs])
  rw [hform]
  refine h.rd_win htok hj ?_
  rw [← hform, List.mem_singleton]
  exact (windowRegs_apart c w).1.symm

/-! ## WIN.DRAIN (R199) -/

/-- The drain that an instruction begins. -/
def drainPend (c w k : Nat) : WinPend := ⟨c, w, k, .drain, false, []⟩
theorem State.winDrain_open {bound : Nat} (hopen : s.winState c w = winOpened) : s.winDrain c w bound k =
    if s.winMet c w then ((s.pushPend (drainPend c w k)).drainEnd c w 1).winShut c w
    else if bound = 0 then ((s.pushPend (drainPend c w k)).drainEnd c w 2).winShut c w
    else (s.pushPend (drainPend c w k)).setFld (Reg.WDS_WIN_CTL c w) Fl.WDS_WIN_CTL_STATE winDraining := by
  have hnot (n : Nat) (hn : winOpened ≠ n) : ¬s.winState c w = n := fun h => hn (hopen.symm.trans h)
  rw [State.winDrain]
  exact (if_neg (hnot winClosed (by decide))).trans (if_neg (hnot winDraining (by decide)))

theorem State.mem_pushPend (s : State) (p : WinPend) : p ∈ (s.pushPend p).winPends := by
  rw [State.pushPend]
  exact List.mem_append_right _ List.mem_cons_self
theorem State.pendsIn.pushPend (h : s.pendsIn c L) (q : WinPend) : (s.pushPend q).pendsIn c (q :: L) := by
  rw [State.pendsIn, State.pushPend]
  intro p hp hc
  rcases List.mem_append.1 hp with hp | hp
  · exact List.mem_cons_of_mem _ (h p hp hc)
  · exact List.mem_singleton.1 hp ▸ List.mem_cons_self

/-- What a drain that ends at once leaves. -/
structure DrainedAtOnce (c : CoreId) (w k x : Nat) (s v t : State) : Prop where
  issued : Issued s t c (s.pcNext c)
  state : t.winState c w = winClosed
  gen : t.winGen c w = v.winGen c w
  count : t.winCount c w = v.winCount c w
  last : t.fld (Reg.WDS_WIN_CTL c w) Fl.WDS_WIN_CTL_LAST_DRAIN = x
  done : t.Completed c k (drainStatus x)

theorem State.drainNow {v : State} (hq : Queued s v c k) (hk : k < 16) (hL : v.pendsIn c L) (htok : ∀ p ∈ L, p.tok < 16)
    (hx : x < 8) (hs : drainStatus x < 256) :
    DrainedAtOnce c w k x s v (((v.pushPend (drainPend c w k)).drainEnd c w x).winShut c w) := by
  have hL' := hL.pushPend (drainPend c w k)
  have htok' : ∀ p ∈ drainPend c w k :: L, p.tok < 16 := List.forall_mem_cons.2 ⟨hk, htok⟩
  have hq' := hq.of_same (v.pushPend_regs (drainPend c w k)) (v.pushPend_tokOps _)
  have hone := hq'.oneOp hk
  have hsame := v.sameWindow_pushPend c w (drainPend c w k)
  have hmem := v.mem_pushPend (drainPend c w k)
  generalize v.pushPend (drainPend c w k) = u at hL' hq' hone hsame hmem ⊢
  obtain ⟨hend, hstate, hgen, hlast⟩ := State.drainShut_spec hL' htok' w hx
  refine ⟨(hend.mono (by simp [windowRegs])).issued (fun _ ho => issueRegs_not_windowRegs (w := w) ho) hq'.issued, hstate,
    hgen.trans hsame.gen, (hend.count htok').trans hsame.count, hlast, ?_⟩
  exact State.drainShut_done (p := drainPend c w k) hmem (by simp [pendHit, drainPend]) hone hs

theorem State.sameWindow_winDrain (s : State) (c : CoreId) (w : Nat) :
    ((s.setFld (Reg.WDS_WIN_CTL c w) Fl.WDS_WIN_CTL_STATE winDraining).winState c w = winDraining) ∧
    ((s.setFld (Reg.WDS_WIN_CTL c w) Fl.WDS_WIN_CTL_STATE winDraining).winGen c w = s.winGen c w) ∧
    ((s.setFld (Reg.WDS_WIN_CTL c w) Fl.WDS_WIN_CTL_STATE winDraining).winCount c w = s.winCount c w) :=
  ⟨State.fld_setFld_same _ _ _ _ (by decide), State.fld_setFld_apart _ _ _ _ _ (by decide) (by decide) (by decide),
    State.fld_setFld_other _ _ _ _ _ _ (windowRegs_apart c w).1.symm⟩

theorem winDrain_drains {f : CFmt} (hresv : f.resv = 0) (hjoin : f.join = false) (hpends : s.winPendsApart c f.tok)
    (htok : s.tok c f.tok ≠ tokPending) (hopen : s.winState c f.win = winOpened) (hr : s.Ready c (f.word 0x72) (s.pcNext c)) :
    ∃ t, exec (.winDrain c f) s = .next t ∧ Issued s t c (s.pcNext c) ∧ t.winGen c f.win = s.winGen c f.win ∧
      t.winCount c f.win = s.winCount c f.win ∧
      (s.winTarget c f.win ≤ s.winCount c f.win → t.winState c f.win = winClosed ∧
        t.fld (Reg.WDS_WIN_CTL c f.win) Fl.WDS_WIN_CTL_LAST_DRAIN = 1 ∧ t.Completed c f.tok stOk) ∧
      (s.winCount c f.win < s.winTarget c f.win → s.winOperand c f = 0 → t.winState c f.win = winClosed ∧
        t.fld (Reg.WDS_WIN_CTL c f.win) Fl.WDS_WIN_CTL_LAST_DRAIN = 2 ∧ t.Completed c f.tok stExpired) ∧
      (s.winCount c f.win < s.winTarget c f.win → s.winOperand c f ≠ 0 →
        t.winState c f.win = winDraining ∧ Queued s t c f.tok) := by
  have hk : f.tok.val < 16 := f.tok.isLt
  obtain ⟨hsame, hL, -, -⟩ := State.winTaken (c := c) hk s f.win
  have hqueued := State.tokIssue_queued hr.there htok
  refine ⟨_, congrArg Host.Outcome.next (issue_token _ hr (CFmt.word_defined f 0x72 rfl) (CFmt.bad_none hresv hjoin true) htok rfl), ?_⟩
  generalize (s.issued c (s.pcNext c)).tokIssue c f.tok = v at hsame hL hqueued ⊢
  rw [State.winDrain_open (hsame.state.trans hopen), hsame.met]
  have hmet : s.winMet c f.win = true ↔ s.winTarget c f.win ≤ s.winCount c f.win := decide_eq_true_iff
  have hnow (x : Nat) (hx : x < 8) (hs : drainStatus x < 256) :=
    State.drainNow (w := f.win) hqueued hk hL (fun p hp => (hpends.tok p hp).1) hx hs
  by_cases hfull : s.winMet c f.win = true
  · rw [if_pos hfull]
    obtain ⟨hissued, hstate, hgen, hcount, hlast, hdone⟩ := hnow 1 (by decide) (by decide)
    have hle := hmet.1 hfull
    exact ⟨hissued, hgen.trans hsame.gen, hcount.trans hsame.count, fun _ => ⟨hstate, hlast, hdone⟩,
      fun h => absurd hle (Nat.not_le.2 h), fun h => absurd hle (Nat.not_le.2 h)⟩
  · rw [if_neg hfull]
    have hlt : ¬s.winTarget c f.win ≤ s.winCount c f.win := fun h => hfull (hmet.2 h)
    by_cases hbound : s.winOperand c f = 0
    · rw [if_pos hbound]
      obtain ⟨hissued, hstate, hgen, hcount, hlast, hdone⟩ := hnow 2 (by decide) (by decide)
      exact ⟨hissued, hgen.trans hsame.gen, hcount.trans hsame.count, fun h => absurd h hlt,
        fun _ _ => ⟨hstate, hlast, hdone⟩, fun _ h => absurd hbound h⟩
    · rw [if_neg hbound]
      have hpush := v.sameWindow_pushPend c f.win (drainPend c f.win f.tok)
      have hq := hqueued.of_same (v.pushPend_regs (drainPend c f.win f.tok)) (v.pushPend_tokOps _)
      generalize v.pushPend (drainPend c f.win f.tok) = u at hpush hq ⊢
      obtain ⟨hstate, hgen, hcount⟩ := u.sameWindow_winDrain c f.win
      have hq' : Queued s (u.setFld (Reg.WDS_WIN_CTL c f.win) Fl.WDS_WIN_CTL_STATE winDraining) c f.tok :=
        (u.pendsEnd_setFld (L := []) c _ _ (E := windowRegs c f.win) (by simp [windowRegs])).queued
          (fun _ ho => issueRegs_not_windowRegs ho) (tokenReg_not_windowRegs hk) (fun _ hp => absurd hp List.not_mem_nil) hq
      exact ⟨hq'.issued, hgen.trans (hpush.gen.trans hsame.gen), hcount.trans (hpush.count.trans hsame.count),
        fun h => absurd h hlt, fun _ h => absurd h hbound, fun _ _ => ⟨hstate, hq'⟩⟩

/-! ## WIN.WAIT (R205) -/

theorem winWait_waits {f : CFmt} (hresv : f.resv = 0) (hjoin : f.join = false) (himm : f.imm = 0)
    (htok : s.tok c f.tok ≠ tokPending) (hr : s.Ready c (f.word 0x73) (s.pcNext c)) :
    ∃ t, exec (.winWait c f) s = .next t ∧ Issued s t c (s.pcNext c) ∧
      (s.winTarget c f.win ≤ s.winCount c f.win → t.Completed c f.tok stOk ∧ t.winPends = s.winPends) ∧
      (s.winCount c f.win < s.winTarget c f.win → s.winState c f.win = winClosed →
        t.Completed c f.tok stClosed ∧ t.winPends = s.winPends) ∧
      (s.winCount c f.win < s.winTarget c f.win → s.winState c f.win ≠ winClosed → Queued s t c f.tok ∧
        t.winPends = s.winPends ++
          [⟨c, f.win, f.tok, .wait, s.flag (Reg.CORE_WAIT_LIMIT c) Fl.CORE_WAIT_LIMIT_LIMIT, []⟩]) := by
  have hk : f.tok.val < 16 := f.tok.isLt
  have hbad : (f.bad true || f.imm != 0) = false := by simp [CFmt.bad_none hresv hjoin, himm]
  obtain ⟨hsame, -, hpends, -⟩ := State.winTaken (c := c) hk s f.win
  have hqueued := State.tokIssue_queued hr.there htok
  refine ⟨_, congrArg Host.Outcome.next (issue_token _ hr (CFmt.word_defined f 0x73 rfl) hbad htok rfl), ?_⟩
  rw [(s.sameWindow_issued c f.win _).met, (s.sameWindow_issued c f.win _).state]
  generalize (s.issued c (s.pcNext c)).tokIssue c f.tok = v at hsame hpends hqueued ⊢
  have hdone (x : Nat) (hx : x < 256) : (v.tokComplete c f.tok x).Completed c f.tok x ∧
      (v.tokComplete c f.tok x).winPends = s.winPends :=
    ⟨State.tokComplete_done c.isLt hqueued.pending hqueued.one hqueued.ok hx, (v.onlyEnd_tokComplete _ _ _).winPends.trans hpends⟩
  have hmet : s.winMet c f.win = true ↔ s.winTarget c f.win ≤ s.winCount c f.win := decide_eq_true_iff
  by_cases hfull : s.winMet c f.win = true
  · rw [if_pos hfull]
    exact ⟨hqueued.issued.tokComplete _ _, fun _ => hdone _ (by decide), fun h => absurd (hmet.1 hfull) (Nat.not_le.2 h),
      fun h => absurd (hmet.1 hfull) (Nat.not_le.2 h)⟩
  · have hlt : ¬s.winTarget c f.win ≤ s.winCount c f.win := fun h => hfull (hmet.2 h)
    rw [if_neg hfull]
    by_cases hclosed : s.winState c f.win = winClosed
    · rw [if_pos hclosed]
      exact ⟨hqueued.issued.tokComplete _ _, fun h => absurd h hlt, fun _ _ => hdone _ (by decide), fun _ h => absurd hclosed h⟩
    · rw [if_neg hclosed, ← State.pushPend]
      have hq := hqueued.of_same (v.pushPend_regs
        ⟨c, f.win, f.tok, .wait, s.flag (Reg.CORE_WAIT_LIMIT c) Fl.CORE_WAIT_LIMIT_LIMIT, []⟩) (v.pushPend_tokOps _)
      exact ⟨hq.issued, fun h => absurd h hlt, fun _ h => absurd h hclosed, fun _ _ => ⟨hq, congrArg (· ++ _) hpends⟩⟩

/-! ## The ends (R199, R203, R205) -/

def State.erasePend (s : State) (p : WinPend) : State := { s with winPends := s.winPends.erase p }
theorem exec_winWaitTimeout {p : WinPend} {w : WinId}
    (hfind : s.winPends.find? (fun q => q.core == c.val && q.win == w.val && q.kind == .wait && q.limited) = some p) :
    exec (.winWaitTimeout c w) s = .next ((s.erasePend p).tokComplete c p.tok stTimeout) := by
  show execWinWaitTimeout c w s = _
  rw [execWinWaitTimeout, hfind]
  rfl

section
variable {p : WinPend} {w : WinId} (halone : s.winPendAlone c p) (hone : s.OneOp c p.tok)
include halone
theorem State.winPendAlone.tok : ∀ q ∈ s.pendsOf c, q.tok < 16 := fun q hq =>
  (halone.2.2 q (List.mem_of_mem_filter hq) (by simpa using List.of_mem_filter hq)).1
include hone

theorem winDrainExpire_expires (hwin : p.win = w) (hkind : p.kind = .drain) (hstate : s.winState c w = winDraining) :
    ∃ t, exec (.winDrainExpire c w) s = .next t ∧ t.winState c w = winClosed ∧
      t.fld (Reg.WDS_WIN_CTL c w) Fl.WDS_WIN_CTL_LAST_DRAIN = 2 ∧ t.Completed c p.tok stExpired ∧
      t.winGen c w = s.winGen c w ∧ t.winCount c w = s.winCount c w := by
  have htok := halone.tok
  obtain ⟨hmem, hcore, -⟩ := halone
  obtain ⟨hend, hclosed, hgen, hlast⟩ := State.drainShut_spec (s.pendsIn_pendsOf c) htok w.val (x := 2) (by decide)
  exact ⟨_, congrArg Host.Outcome.next (if_pos hstate), hclosed, hlast,
    State.drainShut_done (x := 2) hmem (by simp [pendHit, hcore, hwin, hkind]) hone (by decide), hgen, hend.count htok⟩

/-- The closes of a window that await no write any more. -/
def State.closeReady (s : State) (c w : Nat) (p : WinPend) : Bool :=
  p.core == c && p.win == w && p.kind == .close && p.writes.all fun i => !(s.winWrites c w).contains i

theorem winCloseDone_done (hwin : p.win = w) (hkind : p.kind = .close) (hwrites : ∀ i ∈ p.writes, i ∉ s.winWrites c w) :
    ∃ t, exec (.winCloseDone c w) s = .next t ∧ t.Completed c p.tok stOk ∧ p ∉ t.winPends := by
  obtain ⟨hmem, hcore, -⟩ := halone
  have hready : s.closeReady c w p = true := by
    simp only [State.closeReady, hcore, hwin, hkind, beq_self_eq_true, Bool.true_and, List.all_eq_true, Bool.not_eq_true',
      List.contains_eq_mem, decide_eq_false_iff_not]
    exact hwrites
  have hexec : exec (.winCloseDone c w) s =
      .next ((s.dropPends (s.closeReady c w)).endPends c stOk (s.winPends.filter (s.closeReady c w))) := rfl
  refine ⟨_, hexec, State.endPends_done c.isLt (by decide) (List.mem_filter.2 ⟨hmem, hready⟩) (hone.dropPends _), ?_⟩
  rw [(State.onlyEnd_endPends _ _ _ _).winPends]
  intro h
  have hnot := List.of_mem_filter h
  rw [hready] at hnot
  exact absurd hnot (by decide)

omit halone in
theorem winWaitTimeout_ends
    (hfind : s.winPends.find? (fun q => q.core == c.val && q.win == w.val && q.kind == .wait && q.limited) = some p) :
    ∃ t, exec (.winWaitTimeout c w) s = .next t ∧ t.Completed c p.tok stTimeout ∧ t.winPends = s.winPends.erase p ∧
      RegsKept s t [Reg.SEQ_TOKEN c p.tok, claimReg c] := by
  have hdone := State.tokComplete_done (s := s.erasePend p) (x := stTimeout) c.isLt hone.pending hone.one hone.ok (by decide)
  refine ⟨_, exec_winWaitTimeout hfind, hdone, (State.onlyEnd_tokComplete _ _ _ _).winPends, fun o ho => ?_⟩
  simp only [List.mem_cons, List.not_mem_nil, or_false, not_or] at ho
  exact State.rd_tokComplete _ _ _ _ _ ho.1 ho.2
end

/-- Settles O20: a drain by `State.winDrain_open`, a wait by its three cases, and the ends by `State.drainShut_done` and
`State.endPends_done`. -/
theorem windowsDrainWaitAndEnd : Obligations.WindowsDrainWaitAndEnd := by
  unfold Obligations.WindowsDrainWaitAndEnd
  exact ⟨fun c f s hresv hjoin hpends htok => ⟨fun hopen hr => winDrain_drains hresv hjoin hpends htok hopen hr,
    fun himm hr => winWait_waits hresv hjoin himm htok hr⟩,
    fun c w s p halone hwin hone => ⟨fun hkind hstate => winDrainExpire_expires halone hone hwin hkind hstate,
      fun hkind hwrites => winCloseDone_done halone hone hwin hkind hwrites, fun hfind => winWaitTimeout_ends hone hfind⟩⟩

end Sys2Proof.Machine
end

section
/-! PROOFS. Waits and messages time out (O26). -/

namespace Sys2Proof.Machine

/-- A PUT of core 0 that is on its way, with its token 0. -/
def latePut : NetMsg := ⟨0, .put, 0, 0, 0, 0, 0, 0, 1, 0, 0, 64, 0, 0, 0, [], [], 0, 0, 0, .held, 0, false⟩
/-- The PUT is unanswered, and a back-invalidate of line 0 is wanted, so that a step that ends in `State.settle` waits (R558). -/
def lateState : State :=
  { State.reset.setTok 0 0 tokPending 0 with
    tokOps := [(tokKey 0 0, 1)]
    net := [latePut]
    biWant := [0] }

/-- The step that was to complete the token leaves it PENDING. -/
theorem lateState_waits : (match exec (.netTimeout 0) lateState with | .next t => t.tok 0 0 | _ => tokDone) = tokPending := by
  decide +kernel

/-- Refutes O26: the timeout of a PUT does not complete its token where a back-invalidate is wanted: the step then ends in
`State.settle`, which sends the back-invalidates and leaves the rest as it was (`lateState_waits`). The statement does not ask
that none is wanted. -/
theorem not_waitsAndMessagesTimeOut : ¬ Obligations.WaitsAndMessagesTimeOut := by
  unfold Obligations.WaitsAndMessagesTimeOut
  intro h
  obtain ⟨t, hexec, ⟨hdone, -⟩, -⟩ := (h lateState).1 0 latePut (by decide +kernel) (by decide +kernel) (by decide) rfl (by decide)
    (by constructor <;> decide +kernel)
  have hwaits := lateState_waits
  rw [hexec] at hwaits
  exact absurd (hdone.symm.trans hwaits) (by decide)

end Sys2Proof.Machine
end

section
/-! PROOFS. CUE, SIGNAL and WAIT issue (O24). -/

namespace Sys2Proof.Machine

variable {s t u v : State} {k n : Nat} {c : CoreId}

/-! ## Cues (R264) -/

/-- The cue to the `i`-th core from `a` on. -/
def cueMsg (s : State) (c a : Nat) (body : PnBody) (i : Nat) : PnMsg :=
  ⟨s.nextId + i, s.stand (a + i), s.module, c, s.module, 0, 0, body⟩
/-- The state in which `n` cues have been sent. -/
def State.cued (s : State) (c a : Nat) (body : PnBody) (n : Nat) : State :=
  { s with pn := s.pn ++ (List.range n).map (cueMsg s c a body), nextId := s.nextId + n }
theorem State.cued_regs (s : State) (c a : Nat) (body : PnBody) (n : Nat) : (s.cued c a body n).regs = s.regs := rfl
theorem State.cued_pantry (s : State) (c a : Nat) (body : PnBody) (n : Nat) : (s.cued c a body n).pantry = s.pantry := rfl
theorem State.cued_pn (s : State) (c a : Nat) (body : PnBody) (n : Nat) :
    (s.cued c a body n).pn = s.pn ++ (List.range n).map (cueMsg s c a body) := rfl
theorem State.cued_succ (s : State) {a : Nat} {body : PnBody} (ha : a + n < 256) :
    (s.cued c a body n).sendPn (a + n) s.module c 0 body = s.cued c a body (n + 1) := by
  rw [State.sendPn, if_pos ha]
  unfold State.cued
  dsimp only
  rw [List.range_succ, List.map_append, List.append_assoc, Nat.add_assoc]
  rfl

/-- One cue of an instruction. -/
def State.cueOne (k a : Nat) (body : PnBody) (t : State) (i : Nat) : State :=
  if 255 < addrCore a + i then t.cueDropped k
  else
    let away := addrModule a != t.module
    let way := (t.promptPort (t.partOf k) (addrModule a) (addrCore a)).any fun n => t.portUp n
    let lost := away && (!way || Config.cueLost t.fresh i)
    let u := (if away then t.drew else t).sendAway (t.partOf k) (addrCore a + i) (addrModule a) k 0 body
    if lost then u.cueDropped k else u

theorem State.cueOne_here {a : Nat} {body : PnBody} (ha : addrCore a + n < 256) (hm : addrModule a = t.module) :
    State.cueOne k a body t n = t.sendPn (addrCore a + n) t.module k 0 body := by
  rw [State.cueOne, if_neg (by omega), hm]
  simp only [bne_self_eq_false, Bool.false_and, Bool.false_eq_true, if_false]
  rw [State.sendAway, if_pos rfl]

theorem State.foldl_cueOne (s : State) {a : Nat} {body : PnBody} (hm : addrModule a = s.module) (ha : addrCore a + n ≤ 256) :
    (List.range n).foldl (State.cueOne c a body) s = s.cued c (addrCore a) body n := by
  induction n with
  | zero => simp [State.cued]
  | succ n ih =>
    rw [List.range_succ, List.foldl_append, ih (by omega), List.foldl_cons, List.foldl_nil,
      State.cueOne_here (by omega) (by exact hm)]
    exact s.cued_succ (by omega)

/-- A register that no issue writes reads as before. -/
theorem State.bound_issued (s : State) (c : Nat) (next : Int) : (s.issued c next).bound c = s.bound c := by
  rw [State.bound, State.flag, State.fld, State.rd_issued]
  · rfl
  · simp only [issueRegs, Reg.SEQ_PC, Reg.SEQ_ISSUED, Reg.SEQ_STAT, Reg.CORE_ID, List.mem_cons, List.not_mem_nil, or_false]
    omega
theorem State.module_issued (s : State) (c : Nat) (next : Int) : (s.issued c next).module = s.module := by
  refine congrArg (Fld.get _) (State.rd_issued _ _ _ _ ?_)
  simp only [issueRegs, Reg.SEQ_PC, Reg.SEQ_ISSUED, Reg.SEQ_STAT, Reg.LNK_MODULE, coreWin, List.mem_cons, List.not_mem_nil, or_false]
  omega

theorem cue_sends {f : CFmt} (hresv : f.resv = 0) (hjoin : f.join = false) {kind : Nat} (hn : immF f.imm 0 8 = n)
    (hkind : immF f.imm 8 2 = kind) (hpos : 0 < n) (hmax : n ≤ 16) (hk : kind < 3) (hzero : immF f.imm 25 7 = 0) (htok : f.tok = 0)
    (hbound : s.bound c = true) (hm : addrModule ((s.g c f.ga.val).toNat % 2 ^ 48) = s.module)
    (hm48 : addrModule ((s.g c f.ga.val).toNat % 2 ^ 48) < 48)
    (ha : addrCore ((s.g c f.ga.val).toNat % 2 ^ 48) + n ≤ 256) (hr : s.Ready c (f.word 0xA0) (s.pcNext c)) :
    exec (.cue c f) s = .next ((s.issued c (s.pcNext c)).cued c (addrCore ((s.g c f.ga.val).toNat % 2 ^ 48))
      (.cue kind (immF f.imm 10 10) (immF f.imm 20 5)) n) := by
  have hbad : (f.bad false || f.tok != 0 || immF f.imm 0 8 == 0 || decide (16 < immF f.imm 0 8) || immF f.imm 8 2 == 3 ||
      immF f.imm 25 7 != 0) = false := by
    rw [CFmt.bad_none hresv hjoin, htok, hn, hkind, hzero]
    simp
    omega
  refine congrArg Host.Outcome.next ((issue_checked _ hr (CFmt.word_defined f 0xA0 rfl) hbad rfl).trans ?_)
  rw [State.bound_issued, hbound, hn, hkind, if_neg (by simp; omega)]
  exact State.foldl_cueOne _ (hm.trans (State.module_issued _ _ _).symm) ha

/-! ## SIGNAL (R265) -/

theorem OnlyIssue.sigWaits (h : OnlyIssue s t) : t.sigWaits = s.sigWaits := by
  obtain ⟨_, _, _, _, rfl⟩ := h
  rfl
theorem OnlyIssue.sigOuts (h : OnlyIssue s t) : t.sigOuts = s.sigOuts := by
  obtain ⟨_, _, _, _, rfl⟩ := h
  rfl
theorem OnlyIssue.nextId (h : OnlyIssue s t) : t.nextId = s.nextId := by
  obtain ⟨_, _, _, _, rfl⟩ := h
  rfl
theorem OnlyIssue.standIns (h : OnlyIssue s t) : t.standIns = s.standIns := by
  obtain ⟨_, _, _, _, rfl⟩ := h
  rfl
theorem State.stand_congr (h : t.standIns = s.standIns) (a : Nat) : t.stand a = s.stand a := by
  rw [State.stand, h]
  rfl

theorem issue_fitting {word : DWord} {next : Int} {bad join full : Bool} {seen : State → State} (eff : State → State)
    (hr : s.Ready c word next) (hd : opcodeDefined word = true) (hbad : bad = false) (htok : s.tok c k ≠ tokPending)
    (hfull : full = false) :
    issue ⟨c, word, next, bad, some k, join, none, full⟩ seen eff s = eff (s.issued c next) := by
  rw [hfull]
  exact issue_token eff hr hd hbad htok rfl

/-- What the issue of an instruction with a token leaves of the registers beside. -/
theorem State.rd_taken (s : State) {o : Nat} (ho : o ∉ issueRegs c) (htok : o ≠ Reg.SEQ_TOKEN c k) :
    ((s.issued c (s.pcNext c)).tokIssue c k).rd o = s.rd o :=
  (State.rd_tokIssue _ _ _ _ htok).trans (State.rd_issued _ _ _ _ ho)
theorem State.module_taken (s : State) : ((s.issued c (s.pcNext c)).tokIssue c k).module = s.module := by
  refine congrArg (Fld.get _) (s.rd_taken ?_ ?_)
  · simp only [issueRegs, Reg.SEQ_PC, Reg.SEQ_ISSUED, Reg.SEQ_STAT, Reg.LNK_MODULE, coreWin, List.mem_cons, List.not_mem_nil,
      or_false]
    omega
  · unfold Reg.LNK_MODULE Reg.SEQ_TOKEN coreWin
    omega
theorem State.bound_taken (s : State) : ((s.issued c (s.pcNext c)).tokIssue c k).bound c = s.bound c := by
  rw [State.bound, State.bound, State.flag, State.flag, State.fld, State.fld, s.rd_taken]
  · simp only [issueRegs, Reg.SEQ_PC, Reg.SEQ_ISSUED, Reg.SEQ_STAT, Reg.CORE_ID, List.mem_cons, List.not_mem_nil, or_false]
    omega
  · unfold Reg.CORE_ID Reg.SEQ_TOKEN
    omega

/-- The record of a SIGNAL of core `c` for its token. -/
def State.pushSig (s : State) (c k : Nat) : State :=
  { s with sigOuts := s.sigOuts ++ [⟨s.nextId, c, k⟩], nextId := s.nextId + 1 }
theorem State.pushSig_module (s : State) (c k : Nat) : (s.pushSig c k).module = s.module := rfl
theorem State.sendAway_here {part a src tag dm : Nat} {body : PnBody} (h : dm = s.module) :
    s.sendAway part a dm src tag body = s.sendPn a dm src tag body := if_pos h
/-- A SIGNAL of core `c` that has been sent. -/
def State.signalled (s : State) (c k a : Nat) (body : PnBody) : State :=
  (s.pushSig c k).sendPn a s.module c (s.nextId % 65536) body
theorem State.signalled_regs (s : State) (c k a : Nat) (body : PnBody) : (s.signalled c k a body).regs = s.regs := rfl
theorem State.signalled_tokOps (s : State) (c k a : Nat) (body : PnBody) : (s.signalled c k a body).tokOps = s.tokOps := rfl
theorem State.signalled_pantry (s : State) (c k a : Nat) (body : PnBody) : (s.signalled c k a body).pantry = s.pantry := rfl
theorem State.signalled_sigOuts (s : State) (c k a : Nat) (body : PnBody) :
    (s.signalled c k a body).sigOuts = s.sigOuts ++ [⟨s.nextId, c, k⟩] := rfl
theorem State.signalled_pn (s : State) (c k : Nat) {a : Nat} (ha : a < 256) (body : PnBody) : (s.signalled c k a body).pn =
    s.pn ++ [⟨s.nextId + 1, s.stand a, s.module, c, s.module, s.nextId % 65536, 0, body⟩] := by
  rw [State.signalled, State.sendPn, if_pos ha]
  rfl

theorem addrCore_lt (a : Nat) : addrCore a < 256 := Nat.mod_lt _ (by decide)

/-- What a SIGNAL does once its token is taken. -/
def State.signalTo (s : State) (c k a : Nat) (body : PnBody) : State :=
  let away := addrModule a != s.module
  let port := s.promptPort (s.partOf c) (addrModule a) (addrCore a)
  if !s.bound c then s.tokComplete c k stPartition
  else if addrReserved a then s.tokComplete c k stBadAddress
  else if away && !((port.map fun n => s.portUp n).getD false) then (s.countUnreach).tokComplete c k stUnreachable
  else (s.pushSig c k).sendAway ((s.pushSig c k).partOf c) (addrCore a) (addrModule a) c (s.nextId % 65536) body
theorem State.signalTo_here {c a : Nat} {body : PnBody} (hbound : s.bound c = true) (ha : addrReserved a = false)
    (hhere : addrModule a = s.module) : s.signalTo c k a body = s.signalled c k (addrCore a) body := by
  refine (if_neg ?_).trans ((if_neg ?_).trans ((if_neg ?_).trans ?_))
  · rw [hbound]
    decide
  · rw [ha]
    decide
  · rw [bne_eq_false_iff_eq.2 hhere]
    exact Bool.false_ne_true
  · exact (State.sendAway_here (hhere.trans (s.pushSig_module c k).symm)).trans (congrArg (State.sendPn _ _ · _ _ _) hhere)

theorem exec_signal_eq (c : CoreId) (f : CFmt) (s : State) : exec (.signal c f) s = .next (issue ⟨c, f.word 0xA8, s.pcNext c,
    f.bad true || f.imm == 0, some f.tok.val, f.join, none, decide (64 ≤ s.outstanding c)⟩ id
    (fun t => (t.tokIssue c f.tok).signalTo c f.tok (s.g c f.ga.val).toNat (.signal f.win.val f.imm.toNat)) s) := rfl
theorem exec_signal {f : CFmt} (hresv : f.resv = 0) (hjoin : f.join = false) (himm : f.imm ≠ 0) (htok : s.tok c f.tok ≠ tokPending)
    (hout : s.outstanding c < 64) (hbound : s.bound c = true) (ha : addrReserved (s.g c f.ga.val).toNat = false)
    (hm : addrModule (s.g c f.ga.val).toNat = s.module) (hr : s.Ready c (f.word 0xA8) (s.pcNext c)) :
    exec (.signal c f) s = .next (((s.issued c (s.pcNext c)).tokIssue c f.tok).signalled c f.tok
      (addrCore (s.g c f.ga.val).toNat) (.signal f.win.val f.imm.toNat)) := by
  have hbad : (f.bad true || f.imm == 0) = false := by rw [CFmt.bad_none hresv hjoin, beq_false_of_ne himm, Bool.false_or]
  rw [exec_signal_eq, issue_fitting _ hr (CFmt.word_defined f 0xA8 rfl) hbad htok (decide_eq_false (Nat.not_le.2 hout))]
  exact congrArg Host.Outcome.next (State.signalTo_here (s.bound_taken.trans hbound) ha (hm.trans s.module_taken.symm))

/-! ## WAIT (R265) -/

def State.pushWait (s : State) (w : SigWait) : State := { s with sigWaits := s.sigWaits ++ [w] }
theorem State.pushWait_regs (s : State) (w : SigWait) : (s.pushWait w).regs = s.regs := rfl
theorem State.pushWait_tokOps (s : State) (w : SigWait) : (s.pushWait w).tokOps = s.tokOps := rfl
theorem State.pushWait_pantry (s : State) (w : SigWait) : (s.pushWait w).pantry = s.pantry := rfl
theorem State.pushWait_sigWaits (s : State) (w : SigWait) : (s.pushWait w).sigWaits = s.sigWaits ++ [w] := rfl
def State.dropWait (s : State) (w : SigWait) : State := { s with sigWaits := s.sigWaits.erase w }
theorem State.dropWait_regs (s : State) (w : SigWait) : (s.dropWait w).regs = s.regs := rfl
theorem State.dropWait_tokOps (s : State) (w : SigWait) : (s.dropWait w).tokOps = s.tokOps := rfl
theorem State.dropWait_pantry (s : State) (w : SigWait) : (s.dropWait w).pantry = s.pantry := rfl
theorem State.dropWait_sigWaits (s : State) (w : SigWait) : (s.dropWait w).sigWaits = s.sigWaits.erase w := rfl
/-- A wait takes its amount from the slot and ends. -/
def State.takeWait (s : State) (c k : Nat) (w : SigWait) : State :=
  ((s.setFld (Reg.SEQ_SIG c k) Fl.SEQ_SIG_COUNT (s.slotCount c k - w.amount)).dropWait w).tokComplete c w.tok stOk

/-- Whether a wait is at a slot. -/
def atSlot (c k : Nat) (w : SigWait) : Bool := w.core == c && w.slot == k

theorem serveWaits_none {fuel c : Nat} (h : s.sigWaits.find? (atSlot c k) = none) : State.serveWaits c k fuel s = s := by
  cases fuel with
  | zero => rfl
  | succ fuel =>
    rw [State.serveWaits, show (s.sigWaits.find? fun w => w.core == c && w.slot == k) = none from h]
theorem serveWaits_short {fuel c : Nat} {w : SigWait} (h : s.sigWaits.find? (atSlot c k) = some w)
    (hw : s.slotCount c k < w.amount) : State.serveWaits c k fuel s = s := by
  cases fuel with
  | zero => rfl
  | succ fuel =>
    rw [State.serveWaits, show (s.sigWaits.find? fun w => w.core == c && w.slot == k) = some w from h]
    exact if_neg (Nat.not_le.2 hw)
theorem serveWaits_take {fuel c : Nat} {w : SigWait} (h : s.sigWaits.find? (atSlot c k) = some w)
    (hw : w.amount ≤ s.slotCount c k) :
    State.serveWaits c k (fuel + 1) s = State.serveWaits c k fuel
      (if (s.takeWait c k w).sleep c == 1 || (s.takeWait c k w).sleep c == 2 then (s.takeWait c k w).wake c else s.takeWait c k w) := by
  rw [State.serveWaits, show (s.sigWaits.find? fun w => w.core == c && w.slot == k) = some w from h]
  exact if_pos hw

theorem OnlyEnd.sigWaits (h : OnlyEnd s t) : t.sigWaits = s.sigWaits := by
  obtain ⟨_, _, _, rfl⟩ := h
  rfl

theorem sigReg_ne_claim (c k d : Nat) (hd : d < 256) : Reg.SEQ_SIG c k ≠ Reg.ARB_CLAIM (d / 16) (d % 16) := by
  unfold Reg.SEQ_SIG coreWin Reg.ARB_CLAIM regionWin
  omega
theorem sigReg_ne_token {c k j : Nat} (hj : j < 16) : Reg.SEQ_SIG c k ≠ Reg.SEQ_TOKEN c j := by
  unfold Reg.SEQ_SIG Reg.SEQ_TOKEN
  omega
theorem sigReg_not_issueRegs (c k : Nat) : Reg.SEQ_SIG c k ∉ issueRegs c := by
  simp only [issueRegs, Reg.SEQ_PC, Reg.SEQ_ISSUED, Reg.SEQ_STAT, Reg.SEQ_SIG, List.mem_cons, List.not_mem_nil, or_false]
  omega

/-- What a wait that its slot meets leaves of an instruction that was queued for it. -/
theorem State.takeWait_spec {c : CoreId} {w : SigWait} (hq : Queued s u c w.tok) (hk : w.tok < 16) :
    Issued s (u.takeWait c k w) c (s.pcNext c) ∧ (u.takeWait c k w).pantry = u.pantry ∧ (u.takeWait c k w).Completed c w.tok stOk ∧
      (u.takeWait c k w).slotCount c k = u.slotCount c k - w.amount ∧ (u.takeWait c k w).sigWaits = u.sigWaits.erase w ∧
      (u.takeWait c k w).sleep c = u.sleep c := by
  rw [State.takeWait]
  obtain ⟨v, hv⟩ : ∃ v, v = (u.setFld (Reg.SEQ_SIG c k) Fl.SEQ_SIG_COUNT (u.slotCount c k - w.amount)).dropWait w := ⟨_, rfl⟩
  have hrd (o : Nat) (ho : o ≠ Reg.SEQ_SIG c k) : v.rd o = u.rd o :=
    (State.rd_congr (hv ▸ State.dropWait_regs _ _) o).trans (State.rd_setFld_other _ _ _ _ ho)
  have hcount : v.slotCount c k = u.slotCount c k - w.amount := by
    rw [hv]
    have hlt : u.slotCount c k < 2 ^ 32 := Nat.mod_lt _ (by decide)
    exact (congrArg (Fld.get _) (State.rd_congr (State.dropWait_regs _ _) _)).trans ((State.fld_setFld_same _ _ _ _ (by decide)).trans
      (Nat.mod_eq_of_lt (Nat.lt_of_le_of_lt (Nat.sub_le _ _) hlt)))
  have hpantry : v.pantry = u.pantry := by
    rw [hv, State.dropWait_pantry, State.setFld_pantry]
  have hwaits : v.sigWaits = u.sigWaits.erase w := by
    rw [hv, State.dropWait_sigWaits, State.setFld_sigWaits]
  have hops : v.tokOps = u.tokOps := by
    rw [hv, State.dropWait_tokOps, State.setFld_tokOps]
  rw [← hv]
  clear hv
  have htoken : v.rd (Reg.SEQ_TOKEN c w.tok) = u.rd (Reg.SEQ_TOKEN c w.tok) := hrd _ (sigReg_ne_token hk).symm
  have hone : v.OneOp c w.tok := (hq.oneOp hk).of_rd htoken (State.tokCount_congr hops _ _)
  have hend := v.onlyEnd_tokComplete c w.tok stOk
  refine ⟨Issued.tokComplete (hq.issued.of_rd fun o ho => hrd o fun h => sigReg_not_issueRegs c k (h ▸ ho)) _ _,
    hend.pantry.trans hpantry, State.tokComplete_done c.isLt hone.pending hone.one hone.ok (by decide), ?_, hend.sigWaits.trans hwaits, ?_⟩
  · exact (congrArg (Fld.get _) (v.rd_tokComplete _ _ _ _ (sigReg_ne_token hk) (sigReg_ne_claim c k c c.isLt))).trans hcount
  · exact State.sleep_congr ((v.rd_tokComplete _ _ _ _ (sleepReg_ne_token _ _ _) (sleepReg_ne_claim _ _)).trans
      (hrd _ (by
        unfold Reg.SEQ_SIG
        rw [Nat.add_assoc]
        exact (sleepReg_ne_coreWin c c _).symm)))

theorem find_atSlot_none {l : List SigWait} {c k : Nat} (h : ∀ q ∈ l, q.core = c → q.slot ≠ k) : l.find? (atSlot c k) = none := by
  rw [List.find?_eq_none]
  intro q hq hat
  obtain ⟨hc, hk⟩ := (Bool.and_eq_true _ _).mp hat
  exact h q hq (beq_iff_eq.1 hc) (beq_iff_eq.1 hk)
/-- The only wait at a slot is found. -/
theorem find_atSlot_append {l : List SigWait} {w : SigWait} (h : ∀ q ∈ l, q.core = w.core → q.slot ≠ w.slot) :
    (l ++ [w]).find? (atSlot w.core w.slot) = some w := by
  rw [List.find?_append, find_atSlot_none h, List.find?_cons_of_pos (by simp [atSlot])]
  rfl
theorem erase_append_self {l : List SigWait} {w : SigWait} (h : ∀ q ∈ l, q.core = w.core → q.slot ≠ w.slot) : (l ++ [w]).erase w = l := by
  rw [List.erase_append_right _ fun hw => h w hw rfl rfl, List.erase_cons_head, List.append_nil]

theorem exec_wait {f : CFmt} (hresv : f.resv = 0) (hjoin : f.join = false) (htok : s.tok c f.tok ≠ tokPending)
    (hfree : ∀ q ∈ s.sigWaits, q.core = c → q.slot ≠ f.win.val) (hr : s.Ready c (f.word 0xA9) (s.pcNext c)) :
    let amount := ((s.g c f.ga.val).toNat + f.imm.toNat) % 2 ^ 32
    let slot := f.win.val
    ∃ t, exec (.wait c f) s = .next t ∧ Issued s t c (s.pcNext c) ∧ PantryKept s t ∧
      (amount ≤ s.slotCount c slot → t.Completed c f.tok stOk ∧ t.slotCount c slot = s.slotCount c slot - amount ∧
        t.sigWaits = s.sigWaits) ∧
      (s.slotCount c slot < amount → Queued s t c f.tok ∧ t.slotCount c slot = s.slotCount c slot ∧
        t.sigWaits = s.sigWaits ++ [⟨c, slot, amount, f.tok, s.flag (Reg.CORE_WAIT_LIMIT c) Fl.CORE_WAIT_LIMIT_LIMIT⟩]) := by
  intro amount slot
  have hk : f.tok.val < 16 := f.tok.isLt
  refine ⟨_, congrArg Host.Outcome.next (issue_token _ hr (CFmt.word_defined f 0xA9 rfl) (CFmt.bad_none hresv hjoin true) htok rfl), ?_⟩
  dsimp only
  have hq : Queued s ((s.issued c (s.pcNext c)).tokIssue c f.tok) c f.tok := State.tokIssue_queued hr.there htok
  have honly := s.onlyIssue_issued_tokIssue c f.tok (s.pcNext c)
  have hcount : ((s.issued c (s.pcNext c)).tokIssue c f.tok).slotCount c slot = s.slotCount c slot :=
    congrArg (Fld.get _) (s.rd_taken (sigReg_not_issueRegs c slot) (sigReg_ne_token hk))
  have hsleep : ((s.issued c (s.pcNext c)).tokIssue c f.tok).sleep c = 0 :=
    (State.sleep_congr (s.rd_taken (sleepReg_not_issueRegs c) (sleepReg_ne_token _ _ _))).trans hr.inRun
  have hlimit : ((s.issued c (s.pcNext c)).tokIssue c f.tok).flag (Reg.CORE_WAIT_LIMIT c) Fl.CORE_WAIT_LIMIT_LIMIT =
      s.flag (Reg.CORE_WAIT_LIMIT c) Fl.CORE_WAIT_LIMIT_LIMIT := by
    rw [State.flag, State.flag, State.fld, State.fld, s.rd_taken]
    · simp only [issueRegs, Reg.SEQ_PC, Reg.SEQ_ISSUED, Reg.SEQ_STAT, Reg.CORE_WAIT_LIMIT, List.mem_cons, List.not_mem_nil, or_false]
      omega
    · unfold Reg.CORE_WAIT_LIMIT Reg.SEQ_TOKEN
      omega
  have hwaits := honly.sigWaits
  have hpantry := honly.pantry
  rw [hlimit]
  generalize (s.issued c (s.pcNext c)).tokIssue c f.tok = v at hq hcount hsleep hwaits hpantry ⊢
  obtain ⟨w, hw⟩ : ∃ w : SigWait, w = ⟨c, slot, amount, f.tok, s.flag (Reg.CORE_WAIT_LIMIT c) Fl.CORE_WAIT_LIMIT_LIMIT⟩ := ⟨_, rfl⟩
  have hwc : w.core = c := by rw [hw]
  have hws : w.slot = slot := by rw [hw]
  have hwa : w.amount = amount := by rw [hw]
  have hwt : w.tok = f.tok := by rw [hw]
  have hapart : ∀ q ∈ s.sigWaits, q.core = w.core → q.slot ≠ w.slot := by
    rw [hwc, hws]
    exact hfree
  have hfind : (v.pushWait w).sigWaits.find? (atSlot c slot) = some w := by
    rw [State.pushWait_sigWaits, hwaits, ← hwc, ← hws]
    exact find_atSlot_append hapart
  have hq' : Queued s (v.pushWait w) c w.tok := by
    rw [hwt]
    exact hq.of_same (v.pushWait_regs w) (v.pushWait_tokOps w)
  have hcount' : (v.pushWait w).slotCount c slot = s.slotCount c slot :=
    (congrArg (Fld.get _) (State.rd_congr (v.pushWait_regs w) _)).trans hcount
  have hsleep' : (v.pushWait w).sleep c = 0 := (State.sleep_congr (State.rd_congr (v.pushWait_regs w) _)).trans hsleep
  have hpantry' : (v.pushWait w).pantry = s.pantry := (v.pushWait_pantry w).trans hpantry
  have hwaits' : (v.pushWait w).sigWaits = s.sigWaits ++ [w] := (v.pushWait_sigWaits w).trans (congrArg (· ++ [w]) hwaits)
  rw [← hw, show ({ v with sigWaits := v.sigWaits ++ [w] } : State) = v.pushWait w from rfl]
  generalize v.pushWait w = u at hfind hq' hcount' hsleep' hpantry' hwaits' ⊢
  by_cases hmeet : w.amount ≤ u.slotCount c slot
  · obtain ⟨hissued, htp, hdone, htc, htw, hts⟩ := State.takeWait_spec (k := slot) hq' (hwt ▸ hk)
    rw [serveWaits_take hfind hmeet, hts, hsleep', if_neg (by decide)]
    have hnone : (u.takeWait c slot w).sigWaits.find? (atSlot c slot) = none := by
      rw [htw, hwaits', erase_append_self hapart]
      exact find_atSlot_none hfree
    rw [serveWaits_none hnone]
    refine ⟨hissued, pantryKept_of_eq (htp.trans hpantry'), fun _ => ⟨hwt ▸ hdone, ?_, ?_⟩, fun hlt => ?_⟩
    · rw [htc, hcount', hwa]
    · rw [htw, hwaits', erase_append_self hapart]
    · rw [hcount', hwa] at hmeet
      exact absurd hmeet (Nat.not_le.2 hlt)
  · rw [serveWaits_short hfind (Nat.not_le.1 hmeet)]
    refine ⟨hq'.issued, pantryKept_of_eq hpantry', fun hle => absurd ?_ hmeet, fun _ => ⟨hwt ▸ hq', hcount', hwaits'⟩⟩
    rw [hcount', hwa]
    exact hle

/-- Settles O24: an instruction of each kind that is ready issues; CUE and SIGNAL append their messages, and a WAIT that its
slot meets is served in the same step. -/
theorem cuesSignalsAndWaitsIssue : Obligations.CuesSignalsAndWaitsIssue := by
  unfold Obligations.CuesSignalsAndWaitsIssue
  intro c f s hresv hjoin a amount slot
  refine ⟨?cue, ?signal, fun htok hfree hr => exec_wait hresv hjoin htok hfree hr⟩
  case cue =>
    intro n kind hn hkind hpos hmax hk hzero htok hbound hm hm48 ha hr
    refine ⟨_, cue_sends hresv hjoin hn hkind hpos hmax hk hzero htok hbound hm hm48 ha hr, ?_⟩
    refine ⟨Issued.of_rd (State.issued_spec hr.there) fun _ _ => State.rd_congr (State.cued_regs _ _ _ _ _) _,
      fun o ho => (State.rd_congr (State.cued_regs _ _ _ _ _) o).trans (State.rd_issued _ _ _ _ ho),
      pantryKept_of_eq ((State.cued_pantry _ _ _ _ _).trans (State.issued_pantry _ _ _)), ?_⟩
    rw [State.cued_pn, State.issued_pn]
    refine congrArg (s.pn ++ ·) (List.map_congr_left fun i _ => ?_)
    rw [cueMsg, State.issued_nextId, State.module_issued, State.stand_congr (State.issued_standIns _ _ _)]
  case signal =>
    intro himm htok hout hbound ha hm hr
    refine ⟨_, exec_signal hresv hjoin himm htok hout hbound ha hm hr, ?_⟩
    have hq : Queued s ((s.issued c (s.pcNext c)).tokIssue c f.tok) c f.tok := State.tokIssue_queued hr.there htok
    have honly := s.onlyIssue_issued_tokIssue c f.tok (s.pcNext c)
    refine ⟨hq.of_same (State.signalled_regs _ _ _ _ _) (State.signalled_tokOps _ _ _ _ _), ?_,
      pantryKept_of_eq ((State.signalled_pantry _ _ _ _ _).trans honly.pantry), ?_⟩
    · rw [State.signalled_sigOuts, honly.sigOuts, honly.nextId]
    · rw [State.signalled_pn _ _ _ (addrCore_lt _), honly.pn, honly.nextId, State.stand_congr honly.standIns, State.module_taken]

end Sys2Proof.Machine
end

section
/-! PROOFS. Cues, signals, acknowledgements and window notices arrive (O25). -/

namespace Sys2Proof.Machine

variable {s t u : State} {k n x id : Nat} {c : Nat}

/-! ## A Prompt message is taken (R425) -/

/-- What taking a message from the Prompt net leaves beside: its record at the target's tile and the count of messages. -/
def Taken (s t : State) : Prop := ∃ pn regs faults, t = { s with pn := pn, regs := regs, faults := faults }

theorem State.findPn_at {m : PnMsg} (h : s.findPn id = some m) : s.pnAt id = some m := by
  obtain ⟨m', hat, hm⟩ := Option.bind_eq_some_iff.1 h
  split at hm
  · exact hat.trans hm
  · split at hm
    · exact hat.trans hm
    · cases hm

section
variable {m : PnMsg} (h : s.findPn id = some m)
include h

theorem State.takePn_eq : ∃ f, s.takePn id = { (s.dropPn id).count Reg.FAB_PN_MSGS with faults := f } := by
  rw [State.takePn, State.findPn_at h]
  dsimp only
  split
  · exact ⟨_, rfl⟩
  · exact ⟨_, rfl⟩
theorem State.rd_takePn {o : Nat} (ho : o ≠ Reg.FAB_PN_MSGS) : (s.takePn id).rd o = s.rd o := by
  obtain ⟨f, hf⟩ := State.takePn_eq h
  exact (State.rd_congr (congrArg State.regs hf) o).trans (State.rd_wr_other _ _ _ _ ho)
theorem State.pn_takePn : (s.takePn id).pn = s.pn.filter fun k => k.id != id := by
  obtain ⟨f, hf⟩ := State.takePn_eq h
  have hcount : (s.takePn id).pn = ((s.dropPn id).count Reg.FAB_PN_MSGS).pn := by rw [hf]
  rw [hcount, State.count_pn]
  rfl
end
theorem State.taken_takePn (s : State) (id : Nat) : Taken s (s.takePn id) := by
  rw [State.takePn]
  split
  · exact ⟨_, _, _, rfl⟩
  · dsimp only
    split
    · exact ⟨_, _, _, rfl⟩
    · exact ⟨_, _, _, rfl⟩

section
variable (h : Taken s t)
include h
theorem Taken.pantry : t.pantry = s.pantry := by
  obtain ⟨_, _, _, rfl⟩ := h
  rfl
theorem Taken.net : t.net = s.net := by
  obtain ⟨_, _, _, rfl⟩ := h
  rfl
theorem Taken.sigOuts : t.sigOuts = s.sigOuts := by
  obtain ⟨_, _, _, rfl⟩ := h
  rfl
theorem Taken.sigWaits : t.sigWaits = s.sigWaits := by
  obtain ⟨_, _, _, rfl⟩ := h
  rfl
theorem Taken.tokOps : t.tokOps = s.tokOps := by
  obtain ⟨_, _, _, rfl⟩ := h
  rfl
theorem Taken.nextId : t.nextId = s.nextId := by
  obtain ⟨_, _, _, rfl⟩ := h
  rfl
theorem Taken.standIns : t.standIns = s.standIns := by
  obtain ⟨_, _, _, rfl⟩ := h
  rfl
theorem Taken.power : t.power = s.power := by
  obtain ⟨_, _, _, rfl⟩ := h
  rfl
theorem Taken.binds : t.binds = s.binds := by
  obtain ⟨_, _, _, rfl⟩ := h
  rfl
theorem Taken.blk : t.blk = s.blk := by
  obtain ⟨_, _, _, rfl⟩ := h
  rfl
theorem Taken.parts : t.parts = s.parts := by
  obtain ⟨_, _, _, rfl⟩ := h
  rfl
theorem Taken.waking : t.waking = s.waking := by
  obtain ⟨_, _, _, rfl⟩ := h
  rfl
end

/-! ## Cues (R264, R482) -/

/-- The registers that a decision on a region's load reads. -/
def loadReg (o : Nat) : Prop := o = Reg.THM_STAT ∨ ∃ c < 256, o = sleepReg c ∨ o = claimReg c ∨ o = Reg.CORE_ID c ∨
  o = Reg.STG_REG_STAT (c / 16) ∨ o = Reg.ARB_CAP (c / 16) ∨ o = Reg.ARB_WEIGHT (c / 16)
/-- The two states have the same bindings, power records and registers that a load depends on. -/
structure SameLoad (s t : State) : Prop where
  rd : ∀ o, loadReg o → t.rd o = s.rd o
  power : t.power = s.power
  binds : t.binds = s.binds
  blk : t.blk = s.blk

section
variable (h : SameLoad s t)
include h
theorem SameLoad.fld {o : Nat} (ho : loadReg o) (f : Fld) : t.fld o f = s.fld o f := congrArg (Fld.get f) (h.rd o ho)
theorem SameLoad.flag {o : Nat} (ho : loadReg o) (f : Fld) : t.flag o f = s.flag o f := by
  rw [State.flag, State.flag, h.fld ho]
theorem SameLoad.heavyCurrent (r b e : Nat) : t.heavyCurrent r b e = s.heavyCurrent r b e := by
  rw [State.heavyCurrent, State.heavyCurrent, State.weight, State.weight, h.power]
theorem SameLoad.reserved (c : Nat) : t.reserved c = s.reserved c := by
  rw [State.reserved, State.reserved, h.power]
theorem SameLoad.reservedIn (r : Nat) (but : Option Nat) : t.reservedIn r but = s.reservedIn r but := by
  rw [State.reservedIn, State.reservedIn]
  simp only [h.reserved]

variable (hc : c < 256)
include hc
theorem SameLoad.sleep : t.sleep c = s.sleep c := h.fld (.inr ⟨c, hc, .inl rfl⟩) _
theorem SameLoad.bound : t.bound c = s.bound c := h.flag (.inr ⟨c, hc, .inr (.inr (.inl rfl))⟩) _
theorem SameLoad.partOf : t.partOf c = s.partOf c := h.fld (.inr ⟨c, hc, .inr (.inr (.inl rfl))⟩) _
theorem SameLoad.binsGranted : t.binsGranted c = s.binsGranted c := h.fld (.inr ⟨c, hc, .inr (.inl rfl)⟩) _
theorem SameLoad.engGranted : t.engGranted c = s.engGranted c := h.fld (.inr ⟨c, hc, .inr (.inl rfl)⟩) _
theorem SameLoad.claimCurrent : t.claimCurrent c = s.claimCurrent c := by
  rw [State.claimCurrent, State.claimCurrent, h.heavyCurrent, h.binsGranted hc, h.engGranted hc]
theorem SameLoad.loadOf : t.loadOf (regionOf c) = s.loadOf (regionOf c) := by
  have hcore (j : Nat) (hj : j ∈ List.range 16) : 16 * regionOf c + j < 256 := by
    rw [List.mem_range] at hj
    unfold regionOf
    omega
  rw [State.loadOf, State.loadOf]
  refine List.foldl_ext _ _ _ fun a j hj => ?_
  rw [h.sleep (hcore j hj), h.claimCurrent (hcore j hj)]
theorem SameLoad.capOf : t.capOf (regionOf c) = s.capOf (regionOf c) :=
  congrArg (1000 * ·) (h.fld (.inr ⟨c, hc, .inr (.inr (.inr (.inr (.inl rfl))))⟩) _)
theorem SameLoad.minimum : t.minimum c = s.minimum c := by
  have hsafe : t.flag (Reg.STG_REG_STAT (regionOf c)) Fl.STG_REG_STAT_SAFE = s.flag (Reg.STG_REG_STAT (regionOf c)) Fl.STG_REG_STAT_SAFE :=
    h.flag (.inr ⟨c, hc, .inr (.inr (.inr (.inl rfl)))⟩) _
  have hflow : t.fld Reg.THM_STAT Fl.THM_STAT_FLOW_STATE = s.fld Reg.THM_STAT Fl.THM_STAT_FLOW_STATE := h.fld (.inl rfl) _
  rw [State.minimum, State.minimum, State.minRation, State.minRation, State.diodesDead, State.diodesDead, hsafe, hflow, h.power,
    h.bound hc, h.partOf hc, h.blk]
theorem SameLoad.rationBins : t.rationBins c = s.rationBins c := by
  rw [State.rationBins, State.rationBins, h.minimum hc, State.bind, State.bind, h.binds]
theorem SameLoad.rationEngines : t.rationEngines c = s.rationEngines c := by
  rw [State.rationEngines, State.rationEngines, h.minimum hc, State.bind, State.bind, h.binds]
end

/-- A register in a region's or a core's window. -/
theorem loadReg_ne_pnMsgs {o : Nat} (h : loadReg o) : o ≠ Reg.FAB_PN_MSGS := by
  obtain rfl | ⟨c, -, rfl | rfl | rfl | rfl | rfl | rfl⟩ := h
  all_goals
    unfold Reg.FAB_PN_MSGS
  · decide
  · unfold sleepReg Reg.STG_CORE_STATE regionWin
    omega
  · unfold claimReg Reg.ARB_CLAIM regionWin
    omega
  · unfold Reg.CORE_ID coreWin
    omega
  · unfold Reg.STG_REG_STAT regionWin
    omega
  · unfold Reg.ARB_CAP regionWin
    omega
  · unfold Reg.ARB_WEIGHT regionWin
    omega
theorem State.sameLoad_takePn {m : PnMsg} (h : s.findPn id = some m) : SameLoad s (s.takePn id) :=
  ⟨fun _ ho => State.rd_takePn h (loadReg_ne_pnMsgs ho), (s.taken_takePn id).power, (s.taken_takePn id).binds, (s.taken_takePn id).blk⟩

/-- What a HEAVY cue for a core reserves. -/
def State.heavyWant (s : State) (c bins engines : Nat) : Nat :=
  min (s.heavyCurrent (regionOf c) (min bins (s.rationBins c)) (min engines (s.rationEngines c)))
    (s.capOf (regionOf c) - (s.loadOf (regionOf c) + s.reservedIn (regionOf c) (some c)))
theorem SameLoad.heavyWant (h : SameLoad s t) (hc : c < 256) (bins engines : Nat) :
    t.heavyWant c bins engines = s.heavyWant c bins engines := by
  rw [State.heavyWant, State.heavyWant, h.heavyCurrent, h.rationBins hc, h.rationEngines hc, h.capOf hc, h.loadOf hc, h.reservedIn]
theorem State.reserved_reserveHeavy (s : State) (c bins engines : Nat) :
    (s.reserveHeavy c bins engines).reserved c = s.heavyWant c bins engines := by
  rw [State.reserved, State.reserveHeavy, State.setReserved]
  dsimp only
  rw [sread_swrite, if_pos rfl, State.heavyWant]

/-- Nothing changed but what a cue changes at its target. -/
def OnlyCued (s t : State) : Prop :=
  ∃ at' waking want power, t = { s with wokeAt := at', waking := waking, sleepWant := want, power := power }
theorem OnlyCued.trans (h : OnlyCued s t) (h' : OnlyCued t u) : OnlyCued s u := by
  obtain ⟨_, _, _, _, rfl⟩ := h
  obtain ⟨_, _, _, _, rfl⟩ := h'
  exact ⟨_, _, _, _, rfl⟩
theorem OnlyCued.refl (s : State) : OnlyCued s s := ⟨_, _, _, _, rfl⟩
theorem OnlyCued.pantry (h : OnlyCued s t) : t.pantry = s.pantry := by
  obtain ⟨_, _, _, _, rfl⟩ := h
  rfl
theorem OnlyCued.pn (h : OnlyCued s t) : t.pn = s.pn := by
  obtain ⟨_, _, _, _, rfl⟩ := h
  rfl

/-- A core's wake writes no register and no power record. -/
structure Woken (s t : State) (c : Nat) : Prop where
  only : OnlyCued s t
  load : SameLoad s t
  wakes : 0 < s.sleep c → t.waking.contains c = true
theorem State.woken_wake (s : State) (c : Nat) : Woken s (s.wake c) c := by
  rw [State.wake]
  have hsleep (m : List (Nat × Option Nat)) : State.sleep { s with wokeAt := m } c = s.sleep c := rfl
  dsimp only
  split
  case isTrue hrun =>
    rw [hsleep] at hrun
    exact ⟨⟨_, _, _, _, rfl⟩, ⟨fun _ _ => rfl, rfl, rfl, rfl⟩, fun h => absurd hrun h.ne'⟩
  case isFalse =>
    split
    case isTrue hwake => exact ⟨⟨_, _, _, _, rfl⟩, ⟨fun _ _ => rfl, rfl, rfl, rfl⟩, fun _ => hwake⟩
    case isFalse => exact ⟨⟨_, _, _, _, rfl⟩, ⟨fun _ _ => rfl, rfl, rfl, rfl⟩, fun _ => by simp⟩

/-- What a cue does at its target once it is taken. -/
def State.cueAt (s : State) (c kind bins engines : Nat) : State :=
  let s := if kind = 1 then s else s.wake c
  if kind = 0 then s else s.reserveHeavy c bins engines
theorem exec_pnCue {m : PnMsg} {kind bins engines : Nat} (h : s.findPn id = some m) (hbody : m.body = .cue kind bins engines)
    (hsleep : (s.takePn id).sleep m.dest < 3) (hsame : (s.takePn id).pnSame m m.dest = true) :
    exec (.pnCue id) s = .next ((s.takePn id).cueAt m.dest kind bins engines) := by
  obtain ⟨i, dest, module, src, srcModule, tag, hops, body⟩ := m
  obtain rfl : body = .cue kind bins engines := hbody
  rw [show exec (.pnCue id) s = execPnCue id s from rfl, execPnCue, h]
  exact congrArg Host.Outcome.next (if_neg fun hor => hor.elim (Nat.not_le.2 hsleep) fun hno => by simp [hsame] at hno)

theorem State.module_takePn {m : PnMsg} (h : s.findPn id = some m) : (s.takePn id).module = s.module :=
  congrArg (Fld.get _) (State.rd_takePn h (by decide))
theorem State.coreId_takePn {m : PnMsg} (h : s.findPn id = some m) (c : Nat) : (s.takePn id).rd (Reg.CORE_ID c) = s.rd (Reg.CORE_ID c) :=
  State.rd_takePn h (by unfold Reg.CORE_ID coreWin Reg.FAB_PN_MSGS; omega)
theorem State.pnSame_takePn {m : PnMsg} (h : s.findPn id = some m) (c : Nat) : (s.takePn id).pnSame m c = s.pnSame m c := by
  rw [State.pnSame, State.pnSame, State.module_takePn h, State.part, State.part, (s.taken_takePn id).parts]
  simp only [State.bound, State.partOf, State.flag, State.fld, State.coreId_takePn h]

/-- What a cue leaves at its target. -/
theorem State.cueAt_spec (s : State) (hc : c < 256) (kind bins engines : Nat) :
    OnlyCued s (s.cueAt c kind bins engines) ∧ (kind ≠ 1 → 0 < s.sleep c → (s.cueAt c kind bins engines).waking.contains c = true) ∧
      (kind ≠ 0 → (s.cueAt c kind bins engines).reserved c = s.heavyWant c bins engines) := by
  obtain ⟨v, hv⟩ : ∃ v, v = if kind = 1 then s else s.wake c := ⟨_, rfl⟩
  have hwoken : OnlyCued s v ∧ SameLoad s v ∧ (kind ≠ 1 → 0 < s.sleep c → v.waking.contains c = true) := by
    rw [hv]
    obtain ⟨honly, hload, hwakes⟩ := s.woken_wake c
    split
    case isTrue hheavy => exact ⟨.refl s, ⟨fun _ _ => rfl, rfl, rfl, rfl⟩, fun h => absurd hheavy h⟩
    case isFalse => exact ⟨honly, hload, fun _ => hwakes⟩
  obtain ⟨honly, hload, hwakes⟩ := hwoken
  have hcue : s.cueAt c kind bins engines = if kind = 0 then v else v.reserveHeavy c bins engines := by
    rw [hv]
    rfl
  rw [hcue]
  split
  case isTrue hwake => exact ⟨honly, hwakes, fun h => absurd hwake h⟩
  case isFalse =>
    exact ⟨honly.trans ⟨_, _, _, _, rfl⟩, hwakes, fun _ => (v.reserved_reserveHeavy c bins engines).trans (hload.heavyWant hc bins engines)⟩

theorem cue_arrives {m : PnMsg} {kind bins engines : Nat} (h : s.findPn id = some m) (hdest : m.dest < 256)
    (hbody : m.body = .cue kind bins engines) (hsleep : s.sleep m.dest < 3) (hsame : s.pnSame m m.dest = true) :
    ∃ t, exec (.pnCue id) s = .next t ∧ PantryKept s t ∧ t.pn = s.pn.filter (fun k => k.id != id) ∧
      (kind ≠ 1 → 0 < s.sleep m.dest → t.waking.contains m.dest = true) ∧
      (kind ≠ 0 → t.reserved m.dest = s.heavyWant m.dest bins engines) := by
  have hload := State.sameLoad_takePn h
  have htaken := s.taken_takePn id
  obtain ⟨honly, hwakes, hwant⟩ := (s.takePn id).cueAt_spec hdest kind bins engines
  refine ⟨_, exec_pnCue h hbody (by rwa [hload.sleep hdest]) (by rwa [State.pnSame_takePn h]), pantryKept_of_eq ?_, ?_, ?_, ?_⟩
  · exact honly.pantry.trans htaken.pantry
  · exact honly.pn.trans (State.pn_takePn h)
  · rwa [hload.sleep hdest] at hwakes
  · rwa [hload.heavyWant hdest] at hwant

/-! ## Signals and their acknowledgements (R265) -/

/-- What a SIGNAL's arrival does once it is taken, its status decided. -/
def State.signalAt (s : State) (m : PnMsg) (slot amount st : Nat) : State :=
  let c := m.dest
  let s := if st = stUnreachable then s.countUnreach else s
  let s := if st = stOk then State.serveWaits c slot s.sigWaits.length (s.bump (Reg.SEQ_SIG c slot) Fl.SEQ_SIG_COUNT amount) else s
  s.sendAway (s.partOf c) m.src m.srcModule c m.tag (.signalAck st)
theorem exec_pnSignal {m : PnMsg} {slot amount : Nat} (h : s.findPn id = some m) (hbody : m.body = .signal slot amount) :
    exec (.pnSignal id) s = .next ((s.takePn id).signalAt m slot amount
      (if !(s.takePn id).pnSame m m.dest then stPartition else if 3 ≤ (s.takePn id).sleep m.dest then stAsleep
        else if (s.takePn id).coreBad m.dest then stUnreachable else stOk)) := by
  obtain ⟨i, dest, module, src, srcModule, tag, hops, body⟩ := m
  obtain rfl : body = .signal slot amount := hbody
  rw [show exec (.pnSignal id) s = execPnSignal id s from rfl, execPnSignal, h]
  rfl

theorem State.slotCount_bump (s : State) (c k n : Nat) :
    (s.bump (Reg.SEQ_SIG c k) Fl.SEQ_SIG_COUNT n).slotCount c k = min (s.slotCount c k + n) (2 ^ 32 - 1) := by
  rw [State.slotCount, State.bump, State.fld_setFld_same _ _ _ _ (by decide)]
  exact Nat.mod_eq_of_lt (Nat.lt_of_le_of_lt (Nat.min_le_right _ _) (by decide))

/-- A SIGNAL that its slot takes, with no WAIT there. -/
theorem State.signalAt_ok {m : PnMsg} {slot amount : Nat} (hsrc : m.src < 256) (hmodule : m.srcModule = s.module)
    (hfree : ∀ q ∈ s.sigWaits, q.core = m.dest → q.slot ≠ slot) :
    (s.signalAt m slot amount stOk).pantry = s.pantry ∧
      (s.signalAt m slot amount stOk).slotCount m.dest slot = min (s.slotCount m.dest slot + amount) (2 ^ 32 - 1) ∧
      (s.signalAt m slot amount stOk).pn =
        s.pn ++ [⟨s.nextId, s.stand m.src, s.module, m.dest, s.module, m.tag, 0, .signalAck stOk⟩] := by
  have hsig : Reg.LNK_MODULE ≠ Reg.SEQ_SIG m.dest slot := by
    unfold Reg.LNK_MODULE Reg.SEQ_SIG coreWin
    omega
  have hmod : (s.bump (Reg.SEQ_SIG m.dest slot) Fl.SEQ_SIG_COUNT amount).module = s.module :=
    congrArg (Fld.get _) (State.rd_setFld_other _ _ _ _ hsig)
  have hat : s.signalAt m slot amount stOk =
      (s.bump (Reg.SEQ_SIG m.dest slot) Fl.SEQ_SIG_COUNT amount).sendPn m.src s.module m.dest m.tag (.signalAck stOk) := by
    rw [State.signalAt]
    refine (congrArg (fun u : State => u.sendAway (u.partOf m.dest) m.src m.srcModule m.dest m.tag (.signalAck stOk)) ?_).trans
      ((State.sendAway_here (hmodule.trans hmod.symm)).trans (by rw [hmodule]))
    exact serveWaits_none (by rw [State.bump_sigWaits]; exact find_atSlot_none hfree)
  rw [hat]
  refine ⟨?_, ?_, ?_⟩
  · rw [State.sendPn_pantry, State.bump_pantry]
  · exact (congrArg (Fld.get _) (State.rd_sendPn ..)).trans (s.slotCount_bump ..)
  · rw [State.sendPn, if_pos hsrc]
    dsimp only
    rw [State.bump_pn, State.bump_nextId, hmod, State.stand_congr (State.bump_standIns ..)]
theorem State.signalAt_other {m : PnMsg} {slot amount : Nat} (hsrc : m.src < 256) (hmodule : m.srcModule = s.module) :
    (s.signalAt m slot amount stPartition).pantry = s.pantry ∧
      (s.signalAt m slot amount stPartition).slotCount m.dest slot = s.slotCount m.dest slot ∧
      (s.signalAt m slot amount stPartition).pn =
        s.pn ++ [⟨s.nextId, s.stand m.src, s.module, m.dest, s.module, m.tag, 0, .signalAck stPartition⟩] := by
  have hat : s.signalAt m slot amount stPartition = s.sendPn m.src s.module m.dest m.tag (.signalAck stPartition) := by
    refine (State.sendAway_here (by exact hmodule)).trans ?_
    rw [hmodule]
    rfl
  rw [hat]
  refine ⟨State.sendPn_pantry .., congrArg (Fld.get _) (State.rd_sendPn ..), ?_⟩
  rw [State.sendPn, if_pos hsrc]

theorem signal_arrives {m : PnMsg} {slot amount : Nat} (h : s.findPn id = some m) (hbody : m.body = .signal slot amount)
    (hdest : m.dest < 256) (hgood : s.coreBad m.dest = false) (hsleep : s.sleep m.dest < 3) (hmodule : m.srcModule = s.module)
    (hsrc : m.src < 256) (hfree : ∀ q ∈ s.sigWaits, q.core = m.dest → q.slot ≠ slot) :
    let ack := fun st => s.pn.filter (fun k => k.id != id) ++
      [⟨s.nextId, s.stand m.src, s.module, m.dest, s.module, m.tag, 0, .signalAck st⟩]
    ∃ t, exec (.pnSignal id) s = .next t ∧ PantryKept s t ∧
      (s.pnSame m m.dest = true → t.slotCount m.dest slot = min (s.slotCount m.dest slot + amount) (2 ^ 32 - 1) ∧ t.pn = ack stOk) ∧
      (s.pnSame m m.dest = false → t.slotCount m.dest slot = s.slotCount m.dest slot ∧ t.pn = ack stPartition) := by
  intro ack
  have hload := State.sameLoad_takePn h
  have htaken := s.taken_takePn id
  have hpn := State.pn_takePn h
  refine ⟨_, exec_pnSignal h hbody, ?_⟩
  have hbad : (s.takePn id).coreBad m.dest = s.coreBad m.dest := by
    rw [State.coreBad, State.rd_takePn h ?_]
    · rfl
    · unfold Reg.FAB_FMAP_CORE Reg.FAB_PN_MSGS
      omega
  have hcount : (s.takePn id).slotCount m.dest slot = s.slotCount m.dest slot :=
    congrArg (Fld.get _) (State.rd_takePn h (by
      unfold Reg.SEQ_SIG coreWin Reg.FAB_PN_MSGS
      omega))
  have hm : m.srcModule = (s.takePn id).module := hmodule.trans (State.module_takePn h).symm
  rw [State.pnSame_takePn h, hload.sleep hdest, hbad, hgood, if_neg (Nat.not_le.2 hsleep), if_neg Bool.false_ne_true]
  cases hsame : s.pnSame m m.dest with
  | true =>
    obtain ⟨hpantry, hslotted, hsent⟩ := State.signalAt_ok (s := s.takePn id) (slot := slot) (amount := amount) hsrc hm
      (by rwa [htaken.sigWaits])
    rw [hcount] at hslotted
    rw [hpn, htaken.nextId, State.stand_congr htaken.standIns, State.module_takePn h] at hsent
    exact ⟨pantryKept_of_eq (hpantry.trans htaken.pantry), fun _ => ⟨hslotted, hsent⟩, fun hne => absurd hne (by decide)⟩
  | false =>
    obtain ⟨hpantry, hslotted, hsent⟩ := State.signalAt_other (s := s.takePn id) (slot := slot) (amount := amount) hsrc hm
    rw [hcount] at hslotted
    rw [hpn, htaken.nextId, State.stand_congr htaken.standIns, State.module_takePn h] at hsent
    exact ⟨pantryKept_of_eq (hpantry.trans htaken.pantry), fun hne => absurd hne (by decide), fun _ => ⟨hslotted, hsent⟩⟩

def State.dropSig (s : State) (o : SigOut) : State := { s with sigOuts := s.sigOuts.erase o }
theorem State.dropSig_regs (s : State) (o : SigOut) : (s.dropSig o).regs = s.regs := rfl
theorem State.dropSig_tokOps (s : State) (o : SigOut) : (s.dropSig o).tokOps = s.tokOps := rfl
theorem State.dropSig_pantry (s : State) (o : SigOut) : (s.dropSig o).pantry = s.pantry := rfl
theorem State.dropSig_sigOuts (s : State) (o : SigOut) : (s.dropSig o).sigOuts = s.sigOuts.erase o := rfl
theorem OnlyEnd.sigOuts (h : OnlyEnd s t) : t.sigOuts = s.sigOuts := by
  obtain ⟨_, _, _, rfl⟩ := h
  rfl

/-- Whether a SIGNAL is the one that an acknowledgement names. -/
def ackFor (m : PnMsg) (o : SigOut) : Bool := o.core == m.dest && o.id % 65536 == m.tag
/-- The SIGNAL that a look-up found ends. -/
theorem State.endSig_some {m : PnMsg} {st : Nat} {o : SigOut} (ho : s.sigOuts.find? (ackFor m) = some o) :
    (match s.sigOuts.find? fun o => o.core == m.dest && o.id % 65536 == m.tag with
      | none => s
      | some o => State.tokComplete { s with sigOuts := s.sigOuts.erase o } o.core o.tok st) =
      (s.dropSig o).tokComplete o.core o.tok st := by
  rw [show (s.sigOuts.find? fun o => o.core == m.dest && o.id % 65536 == m.tag) = some o from ho]
  rfl
theorem exec_signalAck {m : PnMsg} {st : Nat} {o : SigOut} (h : s.findPn id = some m) (hbody : m.body = .signalAck st)
    (ho : (s.takePn id).sigOuts.find? (ackFor m) = some o) :
    exec (.signalAck id) s = .next (((s.takePn id).dropSig o).tokComplete o.core o.tok st) := by
  obtain ⟨i, dest, module, src, srcModule, tag, hops, body⟩ := m
  obtain rfl : body = .signalAck st := hbody
  rw [show exec (.signalAck id) s = execSignalAck id s from rfl, execSignalAck, h]
  exact congrArg Host.Outcome.next (State.endSig_some ho)

theorem ack_arrives {m : PnMsg} {st : Nat} {o : SigOut} (h : s.findPn id = some m) (hdest : m.dest < 256)
    (hbody : m.body = .signalAck st)
    (hst : st < 256) (ho : s.sigOuts.find? (ackFor m) = some o) (hone : s.OneOp m.dest o.tok) :
    ∃ t, exec (.signalAck id) s = .next t ∧ t.Completed m.dest o.tok st ∧ t.sigOuts = s.sigOuts.erase o ∧ PantryKept s t := by
  have hload := State.sameLoad_takePn h
  have htaken := s.taken_takePn id
  have hcore : o.core = m.dest := beq_iff_eq.1 ((Bool.and_eq_true _ _).mp (show ackFor m o = true from List.find?_some ho)).1
  refine ⟨_, exec_signalAck h hbody (by rwa [htaken.sigOuts]), ?_⟩
  have hend := ((s.takePn id).dropSig o).onlyEnd_tokComplete o.core o.tok st
  have htok : Reg.SEQ_TOKEN m.dest o.tok ≠ Reg.FAB_PN_MSGS := by
    unfold Reg.SEQ_TOKEN coreWin Reg.FAB_PN_MSGS
    omega
  have hone' : ((s.takePn id).dropSig o).OneOp m.dest o.tok :=
    State.OneOp.of_rd (c := ⟨m.dest, hdest⟩) hone ((State.rd_congr (State.dropSig_regs ..) _).trans (State.rd_takePn h htok))
      (State.tokCount_congr ((State.dropSig_tokOps ..).trans htaken.tokOps) _ _)
  refine ⟨?_, ?_, pantryKept_of_eq ?_⟩
  · rw [hcore]
    exact State.tokComplete_done hdest hone'.pending hone'.one hone'.ok hst
  · rw [hend.sigOuts, State.dropSig_sigOuts, htaken.sigOuts]
  · rw [hend.pantry, State.dropSig_pantry, htaken.pantry]

/-! ## Window notices (R425) -/

/-- A PUT not yet sent that a notice finds late. -/
def noticeHit (n : PnMsg) (w g : Nat) (m : NetMsg) : Bool :=
  m.kind == .put && m.stage == .held && m.orgCore == n.dest && m.dstCore == n.src && m.dstModule == n.srcModule && m.win == w && m.gen == g
/-- The end of one such PUT, and of a list of them. -/
def State.endLate (s : State) (m : NetMsg) : State := if m.timedOut then s.dropNet m.id else s.netEnd m stLate
def State.endLates (s : State) (l : List NetMsg) : State := l.foldl State.endLate s

theorem exec_winNotice {n : PnMsg} {w g : Nat} (h : s.findPn id = some n) (hbody : n.body = .winNotice w g) :
    exec (.winNotice id) s = .next ((s.takePn id).endLates (s.net.filter (noticeHit n w g))) := by
  obtain ⟨i, dest, module, src, srcModule, tag, hops, body⟩ := n
  obtain rfl : body = .winNotice w g := hbody
  rw [show exec (.winNotice id) s = execWinNotice id s from rfl, execWinNotice, h]
  rfl

theorem State.dropNet_net (s : State) (i : Nat) : (s.dropNet i).net = s.net.filter fun m => m.id != i := rfl
theorem State.dropNet_regs (s : State) (i : Nat) : (s.dropNet i).regs = s.regs := rfl
theorem State.dropNet_tokOps (s : State) (i : Nat) : (s.dropNet i).tokOps = s.tokOps := rfl
theorem State.dropNet_pantry (s : State) (i : Nat) : (s.dropNet i).pantry = s.pantry := rfl

theorem State.endLate_net (s : State) (m : NetMsg) : (s.endLate m).net = s.net.filter fun k => k.id != m.id := by
  rw [State.endLate]
  split
  · rfl
  · exact (State.onlyEnd_tokComplete ..).net
theorem State.endLate_pantry (s : State) (m : NetMsg) : (s.endLate m).pantry = s.pantry := by
  rw [State.endLate]
  split
  · rfl
  · exact (State.onlyEnd_tokComplete ..).pantry
theorem State.mem_endLates {l : List NetMsg} {k : NetMsg} : k ∈ (s.endLates l).net ↔ k ∈ s.net ∧ ∀ m ∈ l, k.id ≠ m.id := by
  induction l generalizing s with
  | nil => simp [State.endLates]
  | cons m l ih =>
    have hcons : s.endLates (m :: l) = (s.endLate m).endLates l := rfl
    rw [hcons, ih, State.endLate_net, List.mem_filter, List.forall_mem_cons, and_assoc, bne_iff_ne]
theorem State.endLates_pantry (s : State) (l : List NetMsg) : (s.endLates l).pantry = s.pantry :=
  List.foldlRecOn (motive := fun t : State => t.pantry = s.pantry) l _ rfl fun t ht m _ => (t.endLate_pantry m).trans ht
theorem State.Completed.endLate {m : NetMsg} {c : CoreId} (h : s.Completed c k x) (hm : m.orgCore = c) : (s.endLate m).Completed c k x := by
  have hdrop : (s.dropNet m.id).Completed c k x := h.of_rd rfl
  rw [State.endLate, State.netEnd, hm]
  split
  · exact hdrop
  · exact hdrop.tokComplete c.isLt _
theorem State.endLates_done {l : List NetMsg} {m : NetMsg} {c : CoreId} (hl : ∀ j ∈ l, j.orgCore = c) (hm : m ∈ l)
    (htime : m.timedOut = false) (hone : s.OneOp c m.tok) (hothers : ∀ j ∈ l, j.tok = m.tok → j = m) :
    (s.endLates l).Completed c m.tok stLate := by
  induction l generalizing s with
  | nil => exact absurd hm List.not_mem_nil
  | cons j l ih =>
    have hcons : s.endLates (j :: l) = (s.endLate j).endLates l := rfl
    obtain ⟨hj, hl⟩ := List.forall_mem_cons.1 hl
    obtain ⟨hothersj, hothers⟩ := List.forall_mem_cons.1 hothers
    have hdrop : (s.dropNet j.id).OneOp c m.tok := hone.of_rd rfl rfl
    rw [hcons]
    by_cases hjm : j = m
    · subst hjm
      refine List.foldlRecOn (motive := fun t : State => t.Completed c j.tok stLate) l _ ?_ fun t ht i hi => ht.endLate (hl i hi)
      rw [State.endLate, htime, if_neg Bool.false_ne_true, State.netEnd, hj]
      exact State.tokComplete_done c.isLt hdrop.pending hdrop.one hdrop.ok (by decide)
    · refine ih hl ((List.mem_cons.1 hm).resolve_left (Ne.symm hjm)) ?_ hothers
      rw [State.endLate, State.netEnd, hj]
      split
      · exact hdrop
      · exact hdrop.tokComplete_other c.isLt fun htok => hjm (hothersj htok)

/-- Settles O25: each message is taken from the net, which leaves its target's core; then it acts there. -/
theorem promptMessagesArrive : Obligations.PromptMessagesArrive := by
  unfold Obligations.PromptMessagesArrive
  intro id s m h hdest c
  refine ⟨fun kind bins engines hbody hsleep hsame => cue_arrives h hdest hbody hsleep hsame,
    fun slot amount hbody _ hgood hsleep hmodule hsrc hfree => signal_arrives h hbody hdest hgood hsleep hmodule hsrc hfree,
    fun st o hbody hst ho hone => ack_arrives h hdest hbody hst ho hone, ?notice⟩
  intro w g hbody stale hids htoks
  have hhit (k : NetMsg) : noticeHit m w g k = true ↔ stale k := by
    simp only [noticeHit, Bool.and_eq_true, beq_iff_eq, stale, and_assoc]
    rfl
  have hload := State.sameLoad_takePn h
  have htaken := s.taken_takePn id
  refine ⟨_, exec_winNotice h hbody, pantryKept_of_eq ((State.endLates_pantry ..).trans htaken.pantry), fun k => ?_,
    fun k hk hstale htime hone hothers => ?_⟩
  · rw [State.mem_endLates, htaken.net]
    refine and_congr_right fun hk => ⟨fun hall hstale => ?_, fun hstale j hj hid => ?_⟩
    · exact hall k (List.mem_filter.2 ⟨hk, (hhit k).2 hstale⟩) rfl
    · obtain ⟨hjnet, hjhit⟩ := List.mem_filter.1 hj
      exact hstale (hids k hk j hjnet hid ▸ (hhit j).1 hjhit)
  · refine State.endLates_done (c := ⟨m.dest, hdest⟩) (fun j hj => ?_) (List.mem_filter.2 ⟨hk, (hhit k).2 hstale⟩) htime ?_ fun j hj => ?_
    · exact ((hhit j).1 (List.mem_filter.1 hj).2).2.2.1
    · exact State.OneOp.of_rd (c := ⟨m.dest, hdest⟩) hone (State.rd_takePn h (by unfold Reg.SEQ_TOKEN coreWin Reg.FAB_PN_MSGS; omega)) (State.tokCount_congr htaken.tokOps _ _)
    · obtain ⟨hjnet, hjhit⟩ := List.mem_filter.1 hj
      exact hothers j hjnet ((hhit j).1 hjhit)

end Sys2Proof.Machine
end

section
/-! PROOFS. Claims are raised, queued, granted and released (O23). -/

namespace Sys2Proof.Machine

variable {s t u v : State} {k n r x bins engines : Nat} {c : CoreId} {q : ClaimReq}

/-! ## Throttle reasons and the engines that a claim starts (R477, R493) -/

/-- The registers of a region's throttle reasons. -/
def thrReg (r o : Nat) : Prop := regionWin r + 0x3000 ≤ o ∧ o < regionWin r + 0x3060
/-- What the bookkeeping beside a claim's change leaves: the claims, the reservations, the tokens, the Pantries, and every
register but the region's throttle reasons and its count of waits. -/
structure Beside (r : Nat) (s t : State) : Prop where
  rd : ∀ o, ¬thrReg r o → o ≠ Reg.ARB_WAITS r → t.rd o = s.rd o
  tokOps : t.tokOps = s.tokOps
  claimQ : t.claimQ = s.claimQ
  pantry : t.pantry = s.pantry
  claimDrop : t.power.claimDrop = s.power.claimDrop
  heavyRes : t.power.heavyRes = s.power.heavyRes

theorem Beside.refl (s : State) : Beside r s s := ⟨fun _ _ _ => rfl, rfl, rfl, rfl, rfl, rfl⟩
theorem Beside.trans (h : Beside r s t) (h' : Beside r t u) : Beside r s u :=
  ⟨fun o ho hw => (h'.rd o ho hw).trans (h.rd o ho hw), h'.tokOps.trans h.tokOps, h'.claimQ.trans h.claimQ,
    h'.pantry.trans h.pantry, h'.claimDrop.trans h.claimDrop, h'.heavyRes.trans h.heavyRes⟩
theorem OnlyActive.beside (h : OnlyActive s t) : Beside r s t := by
  obtain ⟨_, rfl⟩ := h
  exact ⟨fun _ _ _ => rfl, rfl, rfl, rfl, rfl, rfl⟩
/-- A register write of the throttle reasons. -/
theorem State.beside_wr (s : State) {o : Nat} (ho : thrReg r o ∨ o = Reg.ARB_WAITS r) (w : DWord) : Beside r s (s.wr o w) :=
  ⟨fun _ hj hw => State.rd_wr_other _ _ _ _ fun h => ho.elim (h ▸ hj) (h ▸ hw), rfl, rfl, rfl, rfl, rfl⟩
theorem State.beside_setFld (s : State) {o : Nat} (ho : thrReg r o ∨ o = Reg.ARB_WAITS r) (f : Fld) (y : Nat) : Beside r s (s.setFld o f y) :=
  s.beside_wr ho _

/-- The steps of a throttle record: one overwritten unread is counted, and the record is stored. -/
def State.thrLost (s : State) (r : Nat) : State :=
  if (ringAt s.thrLog (r * 64 + s.fld (Reg.THR_LOG_HEAD r) Fl.THR_LOG_HEAD_NEXT_SEQ % 64)).read then s
  else s.bump (Reg.THR_LOG_LOST r) Fl.THR_LOG_LOST_COUNT
def State.thrStored (s : State) (k : Nat) (l : List Byte) : State := { s with thrLog := ringPut s.thrLog k l }
theorem State.logThrottle_eq (s : State) (r x : Nat) (ends : Bool) (us : Nat) : ∃ k l y, s.logThrottle r x ends us =
    ((s.thrLost r).thrStored k l).setFld (Reg.THR_LOG_HEAD r) Fl.THR_LOG_HEAD_NEXT_SEQ y := ⟨_, _, _, rfl⟩

theorem State.beside_logThrottle (s : State) (r x : Nat) (ends : Bool) (us : Nat) : Beside r s (s.logThrottle r x ends us) := by
  have hhead : thrReg r (Reg.THR_LOG_HEAD r) := by
    unfold thrReg Reg.THR_LOG_HEAD
    omega
  have hlost : thrReg r (Reg.THR_LOG_LOST r) := by
    unfold thrReg Reg.THR_LOG_LOST
    omega
  obtain ⟨k, l, y, hlog⟩ := s.logThrottle_eq r x ends us
  have hv : Beside r s (s.thrLost r) := by
    rw [State.thrLost]
    split
    · exact .refl s
    · exact s.beside_setFld (.inl hlost) _ _
  have hw : Beside r (s.thrLost r) ((s.thrLost r).thrStored k l) := ⟨fun _ _ _ => rfl, rfl, rfl, rfl, rfl, rfl⟩
  rw [hlog]
  exact (hv.trans hw).trans (State.beside_setFld _ (.inl hhead) _ _)

/-- The steps of an episode that begins or ends. -/
def State.thrNoted (s : State) (a b : List (Nat × Nat)) : State := { s with power.thrFrom := a, power.thrTicks := b }
theorem State.beside_thrNoted (s : State) (a b : List (Nat × Nat)) : Beside r s (s.thrNoted a b) :=
  ⟨fun _ _ _ => rfl, rfl, rfl, rfl, rfl, rfl⟩
theorem State.thrSet_eq (s : State) (r x : Nat) (on : Bool) : s.thrSet r x on = s ∨
    (∃ w a b ends us, s.thrSet r x on = ((s.wr (Reg.THR_ACTIVE r) w).thrNoted a b).logThrottle r x ends us) ∨
    ∃ w a b w' ends us, s.thrSet r x on =
      (((s.wr (Reg.THR_ACTIVE r) w).thrNoted a b).wr (Reg.THR_DUR r x) w').logThrottle r x ends us := by
  unfold State.thrSet
  dsimp only
  split
  · exact .inl rfl
  · split
    · exact .inr (.inl ⟨_, _, _, _, _, rfl⟩)
    · exact .inr (.inr ⟨_, _, _, _, _, _, rfl⟩)
theorem State.beside_thrSet (s : State) (r : Nat) {x : Nat} (hx : x < 10) (on : Bool) : Beside r s (s.thrSet r x on) := by
  have hactive : thrReg r (Reg.THR_ACTIVE r) := by
    unfold thrReg Reg.THR_ACTIVE
    omega
  have hdur : thrReg r (Reg.THR_DUR r x) := by
    unfold thrReg Reg.THR_DUR
    omega
  obtain hset | ⟨w, a, b, ends, us, hset⟩ | ⟨w, a, b, w', ends, us, hset⟩ := s.thrSet_eq r x on
  · rw [hset]
    exact .refl s
  · rw [hset]
    exact ((s.beside_wr (.inl hactive) w).trans (State.beside_thrNoted _ a b)).trans (State.beside_logThrottle _ r x ends us)
  · rw [hset]
    exact (((s.beside_wr (.inl hactive) w).trans (State.beside_thrNoted _ a b)).trans (State.beside_wr _ (.inl hdur) w')).trans
      (State.beside_logThrottle _ r x ends us)
theorem State.beside_thrSync (s : State) (r : Nat) : Beside r s (s.thrSync r) :=
  List.foldlRecOn (motive := Beside r s) _ _ (.refl s) fun t ht i hi =>
    ht.trans (t.beside_thrSet r (by rw [List.mem_range] at hi; omega) _)

/-! ## Tokens of a core that is not FAULTED end -/

/-- Nothing changed but registers and the counts of operations. -/
def OnlyTok (s t : State) : Prop := ∃ regs ops, t = { s with regs := regs, tokOps := ops }
theorem OnlyTok.refl (s : State) : OnlyTok s s := ⟨_, _, rfl⟩
theorem OnlyTok.trans (h : OnlyTok s t) (h' : OnlyTok t u) : OnlyTok s u := by
  obtain ⟨_, _, rfl⟩ := h
  obtain ⟨_, _, rfl⟩ := h'
  exact ⟨_, _, rfl⟩
section
variable (h : OnlyTok s t)
include h
theorem OnlyTok.claimQ : t.claimQ = s.claimQ := by obtain ⟨_, _, rfl⟩ := h; rfl
theorem OnlyTok.power : t.power = s.power := by obtain ⟨_, _, rfl⟩ := h; rfl
theorem OnlyTok.binds : t.binds = s.binds := by obtain ⟨_, _, rfl⟩ := h; rfl
theorem OnlyTok.blk : t.blk = s.blk := by obtain ⟨_, _, rfl⟩ := h; rfl
theorem OnlyTok.pantry : t.pantry = s.pantry := by obtain ⟨_, _, rfl⟩ := h; rfl
theorem OnlyTok.now : t.now = s.now := by obtain ⟨_, _, rfl⟩ := h; rfl
theorem OnlyTok.fires : t.fires = s.fires := by obtain ⟨_, _, rfl⟩ := h; rfl
theorem OnlyTok.engActive : t.engActive = s.engActive := by obtain ⟨_, _, rfl⟩ := h; rfl
end

theorem State.seq_congr (h : t.rd (Reg.SEQ_STAT c) = s.rd (Reg.SEQ_STAT c)) : t.seq c = s.seq c := congrArg (Fld.get _) h
theorem State.seq_setTok (s : State) (c : CoreId) (k n x y : Nat) (hk : k < 16) : ((s.setTokCount c k n).setTok c k x y).seq c = s.seq c := by
  refine State.seq_congr ?_
  rw [State.setTok, State.rd_wr_other, State.rd_setTokCount]
  unfold Reg.SEQ_STAT Reg.SEQ_TOKEN
  omega
/-- A token of a core that is not FAULTED ends; its claim stays (R480). -/
theorem State.onlyTok_tokComplete (hseq : s.seq c ≠ seqFaulted) (hk : k < 16) (x : Nat) : OnlyTok s (s.tokComplete c k x) := by
  rw [State.tokComplete]
  split
  · dsimp only
    rw [State.faultRelease, if_neg fun h => hseq ((State.seq_setTok _ _ _ _ _ _ hk).symm.trans h.1)]
    exact ⟨_, _, rfl⟩
  · exact .refl s
theorem State.rd_tokComplete_run (hseq : s.seq c ≠ seqFaulted) (hk : k < 16) (x : Nat) {o : Nat} (ho : o ≠ Reg.SEQ_TOKEN c k) :
    (s.tokComplete c k x).rd o = s.rd o := by
  rw [State.tokComplete]
  split
  · dsimp only
    rw [State.faultRelease, if_neg fun h => hseq ((State.seq_setTok _ _ _ _ _ _ hk).symm.trans h.1), State.setTok,
      State.rd_wr_other _ _ _ _ ho, State.rd_setTokCount]
  · rfl

/-! ## Queued claims are superseded (R263) -/

def State.dropClaims (s : State) (c : Nat) : State := { s with claimQ := s.claimQ.filter fun q => q.core != c }
theorem State.dropClaims_claimQ (s : State) (c : Nat) : (s.dropClaims c).claimQ = s.claimQ.filter fun q => q.core != c := rfl
def State.endClaims (s : State) (c : Nat) (l : List ClaimReq) : State :=
  l.foldl (fun (s : State) q => s.tokComplete c q.tok stSuperseded) s
theorem State.supersede_eq (s : State) (c : Nat) :
    s.supersede c = (s.dropClaims c).endClaims c (s.claimQ.filter fun q => q.core == c) := rfl

/-- The registers of a core's tokens. -/
def tokReg (c o : Nat) : Prop := ∃ k < 16, o = Reg.SEQ_TOKEN c k
/-- The end of claims of a core that is not FAULTED. -/
structure ClaimsEnd (c : CoreId) (s t : State) : Prop where
  only : OnlyTok s t
  rd : ∀ o, ¬tokReg c o → t.rd o = s.rd o
theorem stat_not_tokReg (c : CoreId) : ¬tokReg c (Reg.SEQ_STAT c) := by
  rintro ⟨k, hk, h⟩
  unfold Reg.SEQ_STAT Reg.SEQ_TOKEN at h
  omega
theorem ClaimsEnd.seq (h : ClaimsEnd c s t) : t.seq c = s.seq c := State.seq_congr (h.rd _ (stat_not_tokReg c))
theorem State.claimsEnd_tokComplete (hseq : s.seq c ≠ seqFaulted) (hk : k < 16) (x : Nat) : ClaimsEnd c s (s.tokComplete c k x) :=
  ⟨State.onlyTok_tokComplete hseq hk x, fun _ ho => State.rd_tokComplete_run hseq hk x fun h => ho ⟨k, hk, h⟩⟩
theorem ClaimsEnd.trans (h : ClaimsEnd c s t) (h' : ClaimsEnd c t u) : ClaimsEnd c s u :=
  ⟨h.only.trans h'.only, fun o ho => (h'.rd o ho).trans (h.rd o ho)⟩
theorem State.claimsEnd_endClaims {l : List ClaimReq} (hseq : s.seq c ≠ seqFaulted) (hl : ∀ q ∈ l, q.tok < 16) :
    ClaimsEnd c s (s.endClaims c l) :=
  List.foldlRecOn (motive := ClaimsEnd c s) l _ ⟨.refl s, fun _ _ => rfl⟩ fun _ ht q hq =>
    ht.trans (State.claimsEnd_tokComplete (by rwa [ht.seq]) (hl q hq) _)
theorem State.tok_endClaims {l : List ClaimReq} (hl : ∀ q ∈ l, q.tok ≠ k) : (s.endClaims c l).tok c k = s.tok c k :=
  List.foldlRecOn (motive := fun t : State => t.tok c k = s.tok c k) l _ rfl fun _ ht q hq =>
    (State.tok_congr_rd (State.rd_tokComplete_other c.isLt (hl q hq) _)).trans ht
theorem State.endClaims_done {l : List ClaimReq} (hq : q ∈ l) (hone : s.OneOp c q.tok) (hothers : ∀ j ∈ l, j.tok = q.tok → j = q) :
    (s.endClaims c l).Completed c q.tok stSuperseded := by
  induction l generalizing s with
  | nil => exact absurd hq List.not_mem_nil
  | cons j l ih =>
    have hcons : s.endClaims c (j :: l) = (s.tokComplete c j.tok stSuperseded).endClaims c l := rfl
    obtain ⟨hothersj, hothers⟩ := List.forall_mem_cons.1 hothers
    rw [hcons]
    by_cases hjq : j = q
    · subst hjq
      exact List.foldlRecOn (motive := fun t : State => t.Completed c j.tok stSuperseded) l _
        (State.tokComplete_done c.isLt hone.pending hone.one hone.ok (by decide)) fun t ht i _ => ht.tokComplete c.isLt _
    · exact ih ((List.mem_cons.1 hq).resolve_left (Ne.symm hjq))
        (hone.tokComplete_other c.isLt fun htok => hjq (hothersj htok)) hothers

/-! ## A claim is granted (R479) -/

def State.setDrop (s : State) (c : Nat) (x : Option (Nat × Nat)) : State :=
  { s with power.claimDrop := swrite (fun _ => none) s.power.claimDrop c x }
theorem State.dropOf_setDrop (s : State) (c : Nat) (x : Option (Nat × Nat)) : (s.setDrop c x).dropOf c = x := by
  rw [State.dropOf, State.setDrop]
  dsimp only
  rw [sread_swrite, if_pos rfl]
theorem State.binsGranted_setClaim (s : State) (c e : Nat) {b : Nat} (hb : b < 1024) : (s.setClaim c b e).binsGranted c = b := by
  rw [State.binsGranted, State.setClaim, State.fld_setFld_apart _ _ _ _ _ (by decide) (by decide) (by decide),
    State.fld_setFld_same _ _ _ _ (by decide)]
  exact Nat.mod_eq_of_lt hb
theorem State.engGranted_setClaim (s : State) (c b : Nat) {e : Nat} (he : e < 32) : (s.setClaim c b e).engGranted c = e := by
  rw [State.engGranted, State.setClaim, State.fld_setFld_same _ _ _ _ (by decide)]
  exact Nat.mod_eq_of_lt he
theorem State.rd_setClaim (s : State) (c b e : Nat) {o : Nat} (ho : o ≠ claimReg c) : (s.setClaim c b e).rd o = s.rd o := by
  rw [State.setClaim, State.rd_setFld_other _ _ _ _ ho, State.rd_setFld_other _ _ _ _ ho]

/-- The core's busy time begins. -/
def State.busied (s : State) (c : Nat) : State :=
  if (sread (fun _ => none) s.power.busyFrom c).isSome then s
  else { s with power.busyFrom := swrite (fun _ => none) s.power.busyFrom c (some (s.aoc (regionOf c)).toNat) }
theorem State.beside_busied (s : State) (c r : Nat) : Beside r s (s.busied c) := by
  rw [State.busied]
  split
  · exact .refl s
  · exact ⟨fun _ _ _ => rfl, rfl, rfl, rfl, rfl, rfl⟩
/-- A claim that replaces the one held, counted, with the reservation ended. -/
def State.claimHeld (s : State) (q : ClaimReq) : State :=
  (((s.setDrop q.core none).setClaim q.core q.bins q.engines).setReserved q.core 0).count (Reg.ARB_GRANTS (regionOf q.core))
theorem State.grant_eq (s : State) (q : ClaimReq) :
    s.grant q = (((s.claimHeld q).busied q.core).tokComplete q.core q.tok stOk).startEngines q.core := rfl

theorem grantsReg_ne_claimReg (r c : Nat) : Reg.ARB_GRANTS r ≠ claimReg c := by
  unfold Reg.ARB_GRANTS claimReg Reg.ARB_CLAIM regionWin
  omega
theorem State.rd_setReserved (s : State) (c x o : Nat) : (s.setReserved c x).rd o = s.rd o := rfl
theorem State.rd_setDrop (s : State) (c : Nat) (x : Option (Nat × Nat)) (o : Nat) : (s.setDrop c x).rd o = s.rd o := rfl
theorem State.rd_claimHeld (s : State) (q : ClaimReq) {o : Nat} (ho : o ≠ claimReg q.core) (hg : o ≠ Reg.ARB_GRANTS (regionOf q.core)) :
    (s.claimHeld q).rd o = s.rd o := by
  rw [State.claimHeld, State.count, State.rd_wr_other _ _ _ _ hg, State.rd_setReserved, State.rd_setClaim _ _ _ _ ho, State.rd_setDrop]
theorem State.rd_claimHeld_claim (s : State) (q : ClaimReq) :
    (s.claimHeld q).rd (claimReg q.core) = ((s.setDrop q.core none).setClaim q.core q.bins q.engines).rd (claimReg q.core) := by
  rw [State.claimHeld, State.count, State.rd_wr_other _ _ _ _ (grantsReg_ne_claimReg _ _).symm, State.rd_setReserved]
theorem State.rd_claimHeld_grants (s : State) (q : ClaimReq) :
    (s.claimHeld q).rd (Reg.ARB_GRANTS (regionOf q.core)) = s.rd (Reg.ARB_GRANTS (regionOf q.core)) + 1 := by
  rw [State.claimHeld, State.rd_count_one, State.rd_setReserved, State.rd_setClaim _ _ _ _ (grantsReg_ne_claimReg _ _), State.rd_setDrop]
theorem State.tokOps_setClaim (s : State) (c b e : Nat) : (s.setClaim c b e).tokOps = s.tokOps := by
  rw [State.setClaim, State.setFld_tokOps, State.setFld_tokOps]
theorem State.pantry_setClaim (s : State) (c b e : Nat) : (s.setClaim c b e).pantry = s.pantry := by
  rw [State.setClaim, State.setFld_pantry, State.setFld_pantry]
theorem State.claimQ_setClaim (s : State) (c b e : Nat) : (s.setClaim c b e).claimQ = s.claimQ := by
  rw [State.setClaim, State.setFld_claimQ, State.setFld_claimQ]
theorem State.setReserved_tokOps (s : State) (c x : Nat) : (s.setReserved c x).tokOps = s.tokOps := rfl
theorem State.setReserved_pantry (s : State) (c x : Nat) : (s.setReserved c x).pantry = s.pantry := rfl
theorem State.setReserved_claimQ (s : State) (c x : Nat) : (s.setReserved c x).claimQ = s.claimQ := rfl
theorem State.setDrop_tokOps (s : State) (c : Nat) (x : Option (Nat × Nat)) : (s.setDrop c x).tokOps = s.tokOps := rfl
theorem State.setDrop_pantry (s : State) (c : Nat) (x : Option (Nat × Nat)) : (s.setDrop c x).pantry = s.pantry := rfl
theorem State.setDrop_claimQ (s : State) (c : Nat) (x : Option (Nat × Nat)) : (s.setDrop c x).claimQ = s.claimQ := rfl
theorem State.tokOps_claimHeld (s : State) (q : ClaimReq) : (s.claimHeld q).tokOps = s.tokOps := by
  rw [State.claimHeld, State.count_tokOps, State.setReserved_tokOps, State.tokOps_setClaim, State.setDrop_tokOps]
theorem State.pantry_claimHeld (s : State) (q : ClaimReq) : (s.claimHeld q).pantry = s.pantry := by
  rw [State.claimHeld, State.count_pantry, State.setReserved_pantry, State.pantry_setClaim, State.setDrop_pantry]
theorem State.claimQ_claimHeld (s : State) (q : ClaimReq) : (s.claimHeld q).claimQ = s.claimQ := by
  rw [State.claimHeld, State.count_claimQ, State.setReserved_claimQ, State.claimQ_setClaim, State.setDrop_claimQ]
theorem State.reserved_claimHeld (s : State) (q : ClaimReq) : (s.claimHeld q).reserved q.core = 0 := by
  rw [State.reserved, State.claimHeld, State.count_power, State.setReserved]
  dsimp only
  rw [sread_swrite, if_pos rfl]

/-- The throttle reasons and counts of a region lie apart from its claims and from every core's window. -/
theorem claimReg_beside (c : CoreId) (r : Nat) : ¬thrReg r (claimReg c) ∧ claimReg c ≠ Reg.ARB_WAITS r := by
  have hc := c.isLt
  unfold thrReg claimReg Reg.ARB_CLAIM Reg.ARB_WAITS regionWin
  omega
theorem coreWin_beside (c o r : Nat) (hr : r < 16) : ¬thrReg r (coreWin c + o) ∧ coreWin c + o ≠ Reg.ARB_WAITS r := by
  unfold thrReg coreWin Reg.ARB_WAITS regionWin
  omega
theorem grantsReg_beside (r : Nat) : ¬thrReg r (Reg.ARB_GRANTS r) ∧ Reg.ARB_GRANTS r ≠ Reg.ARB_WAITS r := by
  unfold thrReg Reg.ARB_GRANTS Reg.ARB_WAITS
  omega

/-- What a grant leaves. -/
structure Granted (c : CoreId) (q : ClaimReq) (s t : State) : Prop where
  done : t.Completed c q.tok stOk
  bins : t.binsGranted c = q.bins
  engines : t.engGranted c = q.engines
  reserved : t.reserved c = 0
  grants : t.rd (Reg.ARB_GRANTS (regionOf c)) = s.rd (Reg.ARB_GRANTS (regionOf c)) + 1
  claimQ : t.claimQ = s.claimQ
  pantry : t.pantry = s.pantry
  issued : ∀ o ∈ issueRegs c, t.rd o = s.rd o

theorem issueRegs_form {o : Nat} (ho : o ∈ issueRegs c) : ∃ k, o = coreWin c + k ∧ k < 0x1040 := by
  simp only [issueRegs, Reg.SEQ_PC, Reg.SEQ_ISSUED, Reg.SEQ_STAT, List.mem_cons, List.not_mem_nil, or_false] at ho
  obtain rfl | rfl | rfl := ho
  · exact ⟨_, rfl, by decide⟩
  · exact ⟨_, rfl, by decide⟩
  · exact ⟨_, rfl, by decide⟩
theorem coreWin_ne_grants (c o r : Nat) (hr : r < 16) : coreWin c + o ≠ Reg.ARB_GRANTS r := by
  unfold coreWin Reg.ARB_GRANTS regionWin
  omega
theorem regionOf_lt (c : CoreId) : regionOf c < 16 := by
  have hc := c.isLt
  unfold regionOf
  omega

theorem State.grant_spec (hcore : q.core = c) (hseq : s.seq c ≠ seqFaulted) (hone : s.OneOp c q.tok) (hb : q.bins < 1024)
    (he : q.engines < 32) : Granted c q s (s.grant q) := by
  have hr := regionOf_lt c
  have hbusy := (s.claimHeld q).beside_busied c (regionOf c)
  have hcl (o : Nat) (ho : o ≠ claimReg c) (hg : o ≠ Reg.ARB_GRANTS (regionOf c)) : (s.claimHeld q).rd o = s.rd o :=
    s.rd_claimHeld q (hcore.symm ▸ ho) (hcore.symm ▸ hg)
  have hcore' (k : Nat) : ((s.claimHeld q).busied c).rd (coreWin c + k) = s.rd (coreWin c + k) :=
    (hbusy.rd _ (coreWin_beside _ _ _ hr).1 (coreWin_beside _ _ _ hr).2).trans (hcl _ (coreWin_ne_claim c _ _) (coreWin_ne_grants _ _ _ hr))
  have htoken : ((s.claimHeld q).busied c).rd (Reg.SEQ_TOKEN c q.tok) = s.rd (Reg.SEQ_TOKEN c q.tok) := by
    unfold Reg.SEQ_TOKEN
    rw [Nat.add_assoc]
    exact hcore' _
  have hone' := hone.of_rd htoken (State.tokCount_congr (hbusy.tokOps.trans (s.tokOps_claimHeld q)) c q.tok)
  have hseq' : ((s.claimHeld q).busied c).seq c ≠ seqFaulted := by rwa [State.seq_congr (hcore' _)]
  have hclaim : ((s.claimHeld q).busied c).rd (claimReg c) = ((s.setDrop c none).setClaim c q.bins q.engines).rd (claimReg c) :=
    (hbusy.rd _ (claimReg_beside _ _).1 (claimReg_beside _ _).2).trans (hcore ▸ s.rd_claimHeld_claim q)
  have hgrants : ((s.claimHeld q).busied c).rd (Reg.ARB_GRANTS (regionOf c)) = s.rd (Reg.ARB_GRANTS (regionOf c)) + 1 :=
    (hbusy.rd _ (grantsReg_beside _).1 (grantsReg_beside _).2).trans (hcore ▸ s.rd_claimHeld_grants q)
  have hres : ((s.claimHeld q).busied c).reserved c = 0 :=
    (congrArg (fun m => sread (fun _ => 0) m c) hbusy.heavyRes).trans (hcore ▸ s.reserved_claimHeld q)
  have hclaimQ := hbusy.claimQ.trans (s.claimQ_claimHeld q)
  have hpantry := hbusy.pantry.trans (s.pantry_claimHeld q)
  rw [State.grant_eq, hcore]
  generalize (s.claimHeld q).busied c = u at hcore' hone' hseq' hclaim hgrants hres hclaimQ hpantry ⊢
  have hend := State.claimsEnd_tokComplete hseq' hone.range stOk
  have hdone := State.tokComplete_done c.isLt hone'.pending hone'.one hone'.ok (x := stOk) (by decide)
  generalize u.tokComplete c q.tok stOk = v at hend hdone ⊢
  have hact := v.onlyActive_startEngines c
  generalize v.startEngines c = w at hact ⊢
  have hrd (o : Nat) (ho : ¬tokReg c o) : w.rd o = u.rd o := (State.rd_congr hact.regs o).trans (hend.rd o ho)
  have hclaimTok : ¬tokReg c (claimReg c) := by
    rintro ⟨k, -, h⟩
    exact tokenReg_ne_claim c k c c.isLt h.symm
  have hgrantsTok : ¬tokReg c (Reg.ARB_GRANTS (regionOf c)) := by
    rintro ⟨k, -, h⟩
    unfold Reg.SEQ_TOKEN at h
    rw [Nat.add_assoc] at h
    exact coreWin_ne_grants _ _ _ hr h.symm
  refine ⟨hdone.of_rd (State.rd_congr hact.regs _), ?_, ?_, ?_, (hrd _ hgrantsTok).trans hgrants, ?_, ?_, fun o ho => ?_⟩
  · exact (congrArg (Fld.get _) ((hrd _ hclaimTok).trans hclaim)).trans ((s.setDrop c none).binsGranted_setClaim c q.engines hb)
  · exact (congrArg (Fld.get _) ((hrd _ hclaimTok).trans hclaim)).trans ((s.setDrop c none).engGranted_setClaim c q.bins he)
  · exact (congrArg (fun m => sread (fun _ => 0) m c) ((hact.beside (r := 0)).heavyRes.trans (congrArg Power.heavyRes hend.only.power))).trans hres
  · exact (hact.beside (r := 0)).claimQ.trans (hend.only.claimQ.trans hclaimQ)
  · exact hact.pantry.trans (hend.only.pantry.trans hpantry)
  · have hno : ¬tokReg c o := by
      rintro ⟨k, -, rfl⟩
      exact tokenReg_ne_issueRegs c k ho
    obtain ⟨k, rfl, -⟩ := issueRegs_form ho
    exact (hrd _ hno).trans (hcore' k)

/-! ## The arbiter's decision on a queue of one claim (R479, R502) -/

theorem State.takeWeight_claimQ (s : State) (r : Nat) : (s.takeWeight r).claimQ = s.claimQ := rfl
theorem State.takeWeight_pantry (s : State) (r : Nat) : (s.takeWeight r).pantry = s.pantry := rfl
theorem State.takeWeight_tokOps (s : State) (r : Nat) : (s.takeWeight r).tokOps = s.tokOps := rfl
theorem State.rd_takeWeight (s : State) (r o : Nat) : (s.takeWeight r).rd o = s.rd o := rfl
/-- What the arbiter does with its only claim, before it brings the throttle reasons up to date. -/
def State.arbDecide (s : State) (r : Nat) (q : ClaimReq) : State :=
  if (s.takeWeight r).grantable q then ((s.takeWeight r).dropClaims q.core).grant q else s.takeWeight r
theorem State.arbitrate_single (h : s.claimQueue r = [q]) : s.arbitrate r = (s.arbDecide r q).thrSync r := by
  have hloop (v : State) (hv : v.claimQueue r = [q]) :
      State.grantLoop r 1 v = if v.grantable q then (v.dropClaims q.core).grant q else v := by
    rw [State.grantLoop, hv]
    rfl
  have hq : (s.takeWeight r).claimQueue r = [q] := h
  rw [State.arbitrate, h]
  refine congrArg (fun u : State => u.thrSync r) ?_
  change State.grantLoop r (State.claimQueue (s.takeWeight r) r).length (s.takeWeight r) = s.arbDecide r q
  rw [hq, List.length_singleton, hloop _ hq, State.arbDecide]

/-- A decision that grants, and one that does not. -/
theorem State.arbDecide_grants (hgrant : (s.takeWeight r).grantable q = true) (hcore : q.core = c) (hseq : s.seq c ≠ seqFaulted)
    (hone : s.OneOp c q.tok) (hb : q.bins < 1024) (he : q.engines < 32) :
    Granted c q ((s.takeWeight r).dropClaims c) (s.arbDecide r q) := by
  rw [State.arbDecide, if_pos hgrant, hcore]
  exact State.grant_spec hcore (by exact hseq) (hone.of_rd rfl rfl) hb he
theorem Granted.beside (h : Granted c q s t) (hb : Beside (regionOf c) t u) : Granted c q s u := by
  have hr := regionOf_lt c
  have hclaim : u.rd (claimReg c) = t.rd (claimReg c) := hb.rd _ (claimReg_beside _ _).1 (claimReg_beside _ _).2
  have hcore (k : Nat) : u.rd (coreWin c + k) = t.rd (coreWin c + k) := hb.rd _ (coreWin_beside _ _ _ hr).1 (coreWin_beside _ _ _ hr).2
  refine ⟨h.done.of_rd ?_, (congrArg (Fld.get _) hclaim).trans h.bins, (congrArg (Fld.get _) hclaim).trans h.engines,
    (congrArg (fun m => sread (fun _ => 0) m c) hb.heavyRes).trans h.reserved,
    (hb.rd _ (grantsReg_beside _).1 (grantsReg_beside _).2).trans h.grants, hb.claimQ.trans h.claimQ, hb.pantry.trans h.pantry,
    fun o ho => ?_⟩
  · unfold Reg.SEQ_TOKEN
    rw [Nat.add_assoc]
    exact hcore _
  · obtain ⟨k, rfl, -⟩ := issueRegs_form ho
    exact (hcore k).trans (h.issued _ ho)

theorem grant_decided {r : RegionId} (hqueue : s.claimQueue r = [q]) (hcore : q.core < 256) (hb : q.bins < 1024) (he : q.engines < 32)
    (hseq : s.seq q.core ≠ seqFaulted) (hone : s.OneOp q.core q.tok) :
    ∃ t, exec (.claimGrant r) s = .next t ∧ PantryKept s t ∧
      ((s.takeWeight r).grantable q = true → t.Completed q.core q.tok stOk ∧ t.binsGranted q.core = q.bins ∧
        t.engGranted q.core = q.engines ∧ t.claimQ = s.claimQ.filter (fun k => k.core != q.core) ∧ t.reserved q.core = 0 ∧
        t.rd (Reg.ARB_GRANTS r) = s.rd (Reg.ARB_GRANTS r) + 1) ∧
      ((s.takeWeight r).grantable q = false → t.claimQ = s.claimQ ∧ t.binsGranted q.core = s.binsGranted q.core ∧
        t.tok q.core q.tok = tokPending) := by
  obtain ⟨c, hc⟩ : ∃ c : CoreId, q.core = c := ⟨⟨q.core, hcore⟩, rfl⟩
  have hregion : r.val = regionOf c := by
    have hmem : q ∈ s.claimQueue r := hqueue ▸ List.mem_singleton_self q
    exact hc ▸ (beq_iff_eq.1 (List.mem_filter.1 hmem).2).symm
  rw [hc] at hseq hone ⊢
  rw [hregion] at hqueue ⊢
  have hr := regionOf_lt c
  refine ⟨_, congrArg Host.Outcome.next ((congrArg s.arbitrate hregion).trans (State.arbitrate_single hqueue)), ?_⟩
  have hb := (s.arbDecide (regionOf c) q).beside_thrSync (regionOf c)
  cases hgrant : (s.takeWeight (regionOf c)).grantable q with
  | true =>
    have hg := (State.arbDecide_grants hgrant hc hseq hone ‹q.bins < 1024› he).beside hb
    exact ⟨pantryKept_of_eq hg.pantry, fun _ => ⟨hg.done, hg.bins, hg.engines, hg.claimQ, hg.reserved, hg.grants⟩,
      fun h => absurd h (by decide)⟩
  | false =>
    have hdec : s.arbDecide (regionOf c) q = s.takeWeight (regionOf c) := if_neg (by rw [hgrant]; decide)
    rw [hdec] at hb ⊢
    refine ⟨pantryKept_of_eq hb.pantry, fun h => absurd h (by decide), fun _ => ⟨hb.claimQ, ?_, ?_⟩⟩
    · exact congrArg (Fld.get _) (hb.rd _ (claimReg_beside _ _).1 (claimReg_beside _ _).2)
    · refine (State.tok_congr_rd ?_).trans hone.pending
      unfold Reg.SEQ_TOKEN
      rw [Nat.add_assoc]
      exact hb.rd _ (coreWin_beside _ _ _ hr).1 (coreWin_beside _ _ _ hr).2

/-! ## CLAIM and RELEASE (R263) -/

theorem Issued.tokIssue_queued (h : Issued s v c (s.pcNext c)) (htok : v.tok c k ≠ tokPending) : Queued s (v.tokIssue c k) c k := by
  have hfree := State.tokIssue_free htok
  refine ⟨h.of_rd fun o ho => State.rd_tokIssue _ _ _ _ fun hk => tokenReg_ne_issueRegs c k (hk ▸ ho), ?_, ?_, ?_⟩
  · rw [hfree, State.tok_setTok _ _ _ _ _ (by decide)]
  · rw [hfree, State.tokStatus_setTok _ _ _ _ _ (by decide) (by decide)]
    rfl
  · rw [hfree, State.tokCount_setTok, State.tokCount_setTokCount]
theorem Issued.seq (h : Issued s v c (s.pcNext c)) : v.seq c = seqRun := by
  rw [State.seq, State.fld, h.stat, Fld.get_set _ _ _ (by decide)]
  rfl

/-- What a claim instruction leaves of its core once it has issued and superseded the core's queued claims. -/
structure Superseded (c : CoreId) (s v : State) : Prop where
  issued : Issued s v c (s.pcNext c)
  claimQ : v.claimQ = s.claimQ.filter fun q => q.core != c.val
  load : SameLoad s v
  pantry : v.pantry = s.pantry
  now : v.now = s.now
  bins : v.binsInFlight c = s.binsInFlight c
  active : v.active c = s.active c

/-- A register that a load depends on is none that an instruction's issue writes. -/
theorem loadReg_apart {o : Nat} (h : loadReg o) : o ∉ issueRegs c ∧ ¬tokReg c o := by
  have hnot (ho : ∀ k, 0x1000 ≤ k → k < 0x1080 → o ≠ coreWin c + k) : o ∉ issueRegs c ∧ ¬tokReg c o := by
    constructor
    · simp only [issueRegs, Reg.SEQ_PC, Reg.SEQ_ISSUED, Reg.SEQ_STAT, List.mem_cons, List.not_mem_nil, or_false]
      rintro (rfl | rfl | rfl)
      all_goals exact ho _ (by decide) (by decide) rfl
    · rintro ⟨k, hk, rfl⟩
      unfold Reg.SEQ_TOKEN at ho
      exact ho (0x1040 + 0x4 * k) (by omega) (by omega) (Nat.add_assoc _ _ _)
  refine hnot fun k hlow hhigh => ?_
  obtain rfl | ⟨d, hd, rfl | rfl | rfl | rfl | rfl | rfl⟩ := h
  · unfold Reg.THM_STAT coreWin
    omega
  · unfold sleepReg Reg.STG_CORE_STATE regionWin coreWin
    omega
  · unfold claimReg Reg.ARB_CLAIM regionWin coreWin
    omega
  · unfold Reg.CORE_ID coreWin
    omega
  · unfold Reg.STG_REG_STAT regionWin coreWin
    omega
  · unfold Reg.ARB_CAP regionWin coreWin
    omega
  · unfold Reg.ARB_WEIGHT regionWin coreWin
    omega

theorem OnlyTok.dropClaims (h : OnlyTok s u) (c : Nat) : OnlyTok (s.dropClaims c) (u.dropClaims c) := by
  obtain ⟨_, _, rfl⟩ := h
  exact ⟨_, _, rfl⟩
section
variable (h : OnlyTok (s.dropClaims n) t)
include h
theorem OnlyTok.power_drop : t.power = s.power := by obtain ⟨_, _, rfl⟩ := h; rfl
theorem OnlyTok.binds_drop : t.binds = s.binds := by obtain ⟨_, _, rfl⟩ := h; rfl
theorem OnlyTok.blk_drop : t.blk = s.blk := by obtain ⟨_, _, rfl⟩ := h; rfl
theorem OnlyTok.pantry_drop : t.pantry = s.pantry := by obtain ⟨_, _, rfl⟩ := h; rfl
theorem OnlyTok.now_drop : t.now = s.now := by obtain ⟨_, _, rfl⟩ := h; rfl
theorem OnlyTok.fires_drop : t.fires = s.fires := by obtain ⟨_, _, rfl⟩ := h; rfl
theorem OnlyTok.engActive_drop : t.engActive = s.engActive := by obtain ⟨_, _, rfl⟩ := h; rfl
end
theorem State.rd_dropClaims (s : State) (c o : Nat) : (s.dropClaims c).rd o = s.rd o := rfl
theorem State.tok_dropClaims (s : State) (d c k : Nat) : (s.dropClaims d).tok c k = s.tok c k := rfl
theorem State.OneOp.dropClaims (h : s.OneOp c k) (d : Nat) : (s.dropClaims d).OneOp c k := h.of_rd rfl rfl
theorem State.seq_dropClaims (s : State) (d : Nat) (c : CoreId) : (s.dropClaims d).seq c = s.seq c := rfl

theorem State.superseded (hthere : s.inCode c (s.pcNext c) = true) (hq : ∀ q ∈ s.claimQ, q.core = c → q.tok < 16) :
    Superseded c s ((s.issued c (s.pcNext c)).supersede c) := by
  have hissued := State.issued_spec hthere
  have hload : ∀ o, loadReg o → (s.issued c (s.pcNext c)).rd o = s.rd o := fun o ho => State.rd_issued _ _ _ _ (loadReg_apart ho).1
  have hregs := s.issued_onlyRegs c (s.pcNext c)
  have htoks : ∀ q ∈ (s.issued c (s.pcNext c)).claimQ.filter (fun q => q.core == c.val), q.tok < 16 := by
    intro q hmem
    rw [State.issued_claimQ] at hmem
    obtain ⟨hin, hcore⟩ := List.mem_filter.1 hmem
    exact hq q hin (beq_iff_eq.1 hcore)
  rw [State.supersede_eq]
  generalize s.issued c (s.pcNext c) = u at hissued hload hregs htoks ⊢
  have hend := State.claimsEnd_endClaims (s := u.dropClaims c) (by rw [State.seq_dropClaims, hissued.seq]; decide) htoks
  have hu : OnlyTok (s.dropClaims c) (u.dropClaims c) := OnlyTok.dropClaims ⟨_, _, hregs⟩ c
  generalize (u.dropClaims c).endClaims c (u.claimQ.filter fun q => q.core == c.val) = v at hend ⊢
  obtain ⟨honly, hrd⟩ := hend
  have hall := hu.trans honly
  have hkept (o : Nat) (ho : ¬tokReg c o) : v.rd o = u.rd o := (hrd o ho).trans (u.rd_dropClaims c o)
  refine ⟨hissued.of_rd fun o ho => hkept o ?_, hall.claimQ.trans (s.dropClaims_claimQ c),
    ⟨fun o ho => (hkept o (loadReg_apart ho).2).trans (hload o ho), hall.power_drop, hall.binds_drop, hall.blk_drop⟩,
    hall.pantry_drop, hall.now_drop, ?_, ?_⟩
  · rintro ⟨k, -, rfl⟩
    exact tokenReg_ne_issueRegs c k ho
  · rw [State.binsInFlight, hall.fires_drop]
    rfl
  · rw [State.active, hall.engActive_drop]
    rfl

section
variable (h : OnlyIssue s t)
include h
theorem OnlyIssue.claimQ : t.claimQ = s.claimQ := by obtain ⟨_, _, _, _, rfl⟩ := h; rfl
theorem OnlyIssue.binds : t.binds = s.binds := by obtain ⟨_, _, _, _, rfl⟩ := h; rfl
theorem OnlyIssue.blk : t.blk = s.blk := by obtain ⟨_, _, _, _, rfl⟩ := h; rfl
theorem OnlyIssue.now : t.now = s.now := by obtain ⟨_, _, _, _, rfl⟩ := h; rfl
theorem OnlyIssue.engActive : t.engActive = s.engActive := by obtain ⟨_, _, _, _, rfl⟩ := h; rfl
end
theorem State.binsInFlight_congr (h : t.fires = s.fires) (c : Nat) : t.binsInFlight c = s.binsInFlight c := by
  rw [State.binsInFlight, h]
  rfl
theorem State.active_congr (h : t.engActive = s.engActive) (c : Nat) : t.active c = s.active c := by
  rw [State.active, h]
  rfl

theorem Superseded.tokIssue (h : Superseded c s v) (hk : k < 16) : Superseded c s (v.tokIssue c k) := by
  have honly := v.onlyIssue_tokIssue c k
  have hrd (o : Nat) (ho : ¬tokReg c o) : (v.tokIssue c k).rd o = v.rd o := State.rd_tokIssue _ _ _ _ fun h => ho ⟨k, hk, h⟩
  generalize v.tokIssue c k = u at honly hrd ⊢
  obtain ⟨hissued, hclaimQ, hload, hpantry, hnow, hbins, hactive⟩ := h
  refine ⟨hissued.of_rd fun o ho => hrd o ?_, honly.claimQ.trans hclaimQ,
    ⟨fun o ho => (hrd o (loadReg_apart ho).2).trans (hload.rd o ho), honly.power.trans hload.power, honly.binds.trans hload.binds,
      honly.blk.trans hload.blk⟩, honly.pantry.trans hpantry, honly.now.trans hnow,
    (State.binsInFlight_congr honly.fires c).trans hbins, (State.active_congr honly.engActive c).trans hactive⟩
  rintro ⟨j, -, rfl⟩
  exact tokenReg_ne_issueRegs c j ho

/-- What a decrease leaves: it takes effect where the work in flight fits it, and waits otherwise. -/
structure ClaimFallen (c : CoreId) (bins engines : Nat) (v t : State) : Prop where
  rd : ∀ o, o ≠ claimReg c → t.rd o = v.rd o
  claimQ : t.claimQ = v.claimQ
  pantry : t.pantry = v.pantry
  fits : v.binsInFlight c ≤ bins → popCount (v.active c) ≤ engines → t.binsGranted c = bins ∧ t.engGranted c = engines
  waits : bins < v.binsInFlight c → t.binsGranted c = v.binsGranted c ∧ t.dropOf c = some (bins, engines)
theorem State.claimSettle_fallen (hdrop : v.dropOf c = some (bins, engines)) (hb : bins < 1024) (he : engines < 32) :
    ClaimFallen c bins engines v (v.claimSettle c) := by
  have hsettle : v.claimSettle c = if v.binsInFlight c ≤ bins ∧ popCount (v.active c) ≤ engines then
      (v.setDrop c none).setClaim c bins engines else v := by
    rw [State.claimSettle, hdrop]
    rfl
  rw [hsettle]
  split
  case isTrue hfits =>
    exact ⟨fun o ho => State.rd_setClaim _ _ _ _ ho, State.claimQ_setClaim .., State.pantry_setClaim ..,
      fun _ _ => ⟨State.binsGranted_setClaim _ _ _ hb, State.engGranted_setClaim _ _ _ he⟩, fun h => absurd hfits.1 (Nat.not_le.2 h)⟩
  case isFalse hno =>
    exact ⟨fun _ _ => rfl, rfl, rfl, fun h h' => absurd ⟨h, h'⟩ hno, fun _ => ⟨rfl, hdrop⟩⟩
theorem Beside.claim (h : Beside r s t) (c : CoreId) : t.rd (claimReg c) = s.rd (claimReg c) :=
  h.rd _ (claimReg_beside _ _).1 (claimReg_beside _ _).2
theorem Beside.core (h : Beside r s t) (hr : r < 16) (c o : Nat) : t.rd (coreWin c + o) = s.rd (coreWin c + o) :=
  h.rd _ (coreWin_beside _ _ _ hr).1 (coreWin_beside _ _ _ hr).2
theorem Beside.token (h : Beside r s t) (hr : r < 16) (c k : Nat) : t.rd (Reg.SEQ_TOKEN c k) = s.rd (Reg.SEQ_TOKEN c k) := by
  unfold Reg.SEQ_TOKEN
  rw [Nat.add_assoc]
  exact h.core hr _ _
theorem Beside.issued (h : Beside r s t) (hr : r < 16) {c : CoreId} {next : Int} (hi : Issued u s c next) : Issued u t c next :=
  hi.of_rd fun o ho => by
    obtain ⟨k, rfl, -⟩ := issueRegs_form ho
    exact h.core hr _ _
theorem Beside.dropOf (h : Beside r s t) (c : Nat) : t.dropOf c = s.dropOf c :=
  congrArg (fun m => sread (fun _ => none) m c) h.claimDrop

theorem claimReg_not_tokReg (c : CoreId) : ¬tokReg c (claimReg c) := by
  rintro ⟨k, -, h⟩
  exact tokenReg_ne_claim c k c c.isLt h.symm

/-- A CLAIM that raises neither count. -/
theorem State.claimAsk_falls (hsup : Superseded c s v) (hq : Queued s v c k) (hk : k < 16) (hb : bins < 1024) (he : engines < 32)
    (hlow : bins ≤ v.binsGranted c ∧ engines ≤ v.engGranted c) :
    let t := v.claimAsk c k bins engines
    Issued s t c (s.pcNext c) ∧ t.pantry = v.pantry ∧ t.Completed c k stOk ∧ t.claimQ = v.claimQ ∧
      (v.binsInFlight c ≤ bins → popCount (v.active c) ≤ engines → t.binsGranted c = bins ∧ t.engGranted c = engines) ∧
      (bins < v.binsInFlight c → t.binsGranted c = v.binsGranted c ∧ t.dropOf c = some (bins, engines)) := by
  have hr := regionOf_lt c
  intro t
  have ht : t = (((v.setDrop c (some (bins, engines))).tokComplete c k stOk).claimSettle c).thrSync (regionOf c) := if_pos hlow
  rw [ht]
  clear ht t
  have hseq : (v.setDrop c (some (bins, engines))).seq c ≠ seqFaulted := by
    rw [show (v.setDrop c (some (bins, engines))).seq c = v.seq c from rfl, hsup.issued.seq]
    decide
  have hone : (v.setDrop c (some (bins, engines))).OneOp c k := (hq.oneOp hk).of_rd rfl rfl
  have hdone := State.tokComplete_done c.isLt hone.pending hone.one hone.ok (x := stOk) (by decide)
  have hend := State.claimsEnd_tokComplete hseq hk stOk
  have hdrop : ((v.setDrop c (some (bins, engines))).tokComplete c k stOk).dropOf c = some (bins, engines) :=
    (State.dropOf_congr hend.only.power c).trans (State.dropOf_setDrop v c _)
  have hissued : Issued s ((v.setDrop c (some (bins, engines))).tokComplete c k stOk) c (s.pcNext c) :=
    Issued.tokComplete (t := v.setDrop c (some (bins, engines))) (hsup.issued.of_rd fun _ _ => State.rd_setDrop ..) _ _
  have hclaimQ := hend.only.claimQ.trans (v.setDrop_claimQ c _)
  have hpantry := hend.only.pantry.trans (v.setDrop_pantry c _)
  have hbins : ((v.setDrop c (some (bins, engines))).tokComplete c k stOk).binsInFlight c = v.binsInFlight c :=
    State.binsInFlight_congr hend.only.fires c
  have hactive : ((v.setDrop c (some (bins, engines))).tokComplete c k stOk).active c = v.active c :=
    State.active_congr hend.only.engActive c
  have hclaim : ((v.setDrop c (some (bins, engines))).tokComplete c k stOk).rd (claimReg c) = v.rd (claimReg c) :=
    hend.rd _ (claimReg_not_tokReg c)
  generalize (v.setDrop c (some (bins, engines))).tokComplete c k stOk = w at hdone hdrop hissued hclaimQ hpantry hbins hactive hclaim ⊢
  obtain ⟨hrd, hfq, hfp, hfits, hwaits⟩ := State.claimSettle_fallen hdrop hb he
  rw [hbins] at hfits hwaits
  rw [hactive] at hfits
  generalize w.claimSettle c = x at hrd hfq hfp hfits hwaits ⊢
  have hbeside := x.beside_thrSync (regionOf c)
  have hgb : (x.thrSync (regionOf c)).binsGranted c = x.binsGranted c := congrArg (Fld.get _) (hbeside.claim c)
  have hge : (x.thrSync (regionOf c)).engGranted c = x.engGranted c := congrArg (Fld.get _) (hbeside.claim c)
  refine ⟨hbeside.issued hr (hissued.of_rd fun o ho => hrd o (issueRegs_apart ho 0).2.2), hbeside.pantry.trans (hfp.trans hpantry),
    hdone.of_rd ((hbeside.token hr c k).trans (hrd _ (tokenReg_ne_claim c k c c.isLt))), hbeside.claimQ.trans (hfq.trans hclaimQ), ?_, ?_⟩
  · rw [hgb, hge]
    exact hfits
  · rw [hgb, hbeside.dropOf]
    exact fun h => ⟨(hwaits h).1.trans (congrArg (Fld.get _) hclaim), (hwaits h).2⟩

/-! A CLAIM that raises a count. -/

theorem SameLoad.takeWeight (h : SameLoad s t) (c : CoreId) : SameLoad (s.takeWeight (regionOf c)) (t.takeWeight (regionOf c)) := by
  have hweight : t.rd (Reg.ARB_WEIGHT (regionOf c)) = s.rd (Reg.ARB_WEIGHT (regionOf c)) :=
    h.rd _ (.inr ⟨c, c.isLt, .inr (.inr (.inr (.inr (.inr rfl))))⟩)
  refine ⟨h.rd, ?_, h.binds, h.blk⟩
  rw [State.takeWeight, State.takeWeight, State.fld, State.fld, State.fld, State.fld, hweight]
  dsimp only
  rw [h.power]
theorem SameLoad.grantable (h : SameLoad s t) {q : ClaimReq} (hq : q.core < 256) : t.grantable q = s.grantable q := by
  rw [State.grantable, State.grantable, h.loadOf hq, h.reservedIn, h.heavyCurrent, h.rationBins hq, h.rationEngines hq, h.capOf hq,
    h.claimCurrent hq]

def State.pushClaim (s : State) (q : ClaimReq) : State := { s with claimQ := s.claimQ ++ [q] }
theorem State.pushClaim_claimQ (s : State) (q : ClaimReq) : (s.pushClaim q).claimQ = s.claimQ ++ [q] := rfl
theorem State.pushClaim_pantry (s : State) (q : ClaimReq) : (s.pushClaim q).pantry = s.pantry := rfl
theorem State.sameLoad_pushClaim (s : State) (q : ClaimReq) : SameLoad s (s.pushClaim q) := ⟨fun _ _ => rfl, rfl, rfl, rfl⟩
theorem filter_others {l : List ClaimReq} (hq : q.core = c) :
    ((l.filter fun k => k.core != c.val) ++ [q]).filter (fun k => k.core != c.val) = l.filter fun k => k.core != c.val := by
  rw [List.filter_append, List.filter_filter, List.filter_cons_of_neg (by simp [hq])]
  simp
theorem any_core_others {l : List ClaimReq} : ((l.filter fun k => k.core != c.val).any fun k => k.core == c.val) = false := by
  rw [List.any_eq_false]
  intro k hk
  simpa using (List.mem_filter.1 hk).2

/-- What a rise that is granted, and one that waits, leaves. -/
theorem State.claimAsk_rises (hsup : Superseded c s v) (hq : Queued s v c k) (hk : k < 16) (hb : bins < 1024) (he : engines < 32)
    (halone : ∀ q ∈ s.claimQ, q.core / 16 = c / 16 → q.core = c) (hhigh : ¬(bins ≤ v.binsGranted c ∧ engines ≤ v.engGranted c)) :
    let q : ClaimReq := ⟨c, bins, engines, k, s.now⟩
    let t := v.claimAsk c k bins engines
    Issued s t c (s.pcNext c) ∧ t.pantry = v.pantry ∧
      ((s.takeWeight (regionOf c)).grantable q = true → t.Completed c k stOk ∧ t.claimQ = v.claimQ ∧ t.binsGranted c = bins ∧
        t.engGranted c = engines) ∧
      ((s.takeWeight (regionOf c)).grantable q = false → Queued s t c k ∧ t.claimQ = v.claimQ ++ [q] ∧
        t.binsGranted c = v.binsGranted c ∧ t.engGranted c = v.engGranted c) := by
  have hr := regionOf_lt c
  intro q t
  obtain ⟨hqc, hqb, hqe, hqk⟩ : q.core = c ∧ q.bins = bins ∧ q.engines = engines ∧ q.tok = k := ⟨rfl, rfl, rfl, rfl⟩
  have ht : t = if ((v.pushClaim q).arbitrate (regionOf c)).claimQ.any fun j => j.core == c.val then
      ((v.pushClaim q).arbitrate (regionOf c)).bump (Reg.ARB_WAITS (regionOf c)) Fl.ARB_WAITS_COUNT
      else (v.pushClaim q).arbitrate (regionOf c) := by
    have hnow : q = ⟨c, bins, engines, k, v.now⟩ := by
      rw [hsup.now]
    rw [hnow]
    exact if_neg hhigh
  clear_value t q
  have hqueue : (v.pushClaim q).claimQueue (regionOf c) = [q] := by
    have hnone : (v.claimQ.filter fun j => j.core / 16 == regionOf c) = [] := by
      rw [List.filter_eq_nil_iff, hsup.claimQ]
      intro j hj hregion
      obtain ⟨hin, hne⟩ := List.mem_filter.1 hj
      exact bne_iff_ne.1 hne (halone j hin (beq_iff_eq.1 hregion))
    rw [State.claimQueue, State.pushClaim_claimQ, List.filter_append, hnone, List.nil_append,
      List.filter_cons_of_pos (by simp [hqc, regionOf])]
    rfl
  have hgrantable : ((v.pushClaim q).takeWeight (regionOf c)).grantable q = (s.takeWeight (regionOf c)).grantable q := by
    have hload : SameLoad s (v.pushClaim q) := ⟨hsup.load.rd, hsup.load.power, hsup.load.binds, hsup.load.blk⟩
    exact (hload.takeWeight c).grantable (hqc ▸ c.isLt)
  rw [State.arbitrate_single hqueue] at ht
  have hbeside := ((v.pushClaim q).arbDecide (regionOf c) q).beside_thrSync (regionOf c)
  cases hgrant : (s.takeWeight (regionOf c)).grantable q with
  | true =>
    have hone : (v.pushClaim q).OneOp c q.tok := hqk ▸ (hq.oneOp hk).of_rd rfl rfl
    have hg := (State.arbDecide_grants (hgrantable.trans hgrant) hqc (s := v.pushClaim q) (by
      rw [show (v.pushClaim q).seq c = v.seq c from rfl, hsup.issued.seq]
      decide) hone (hqb ▸ hb) (hqe ▸ he)).beside hbeside
    have hclaimQ : (((v.pushClaim q).arbDecide (regionOf c) q).thrSync (regionOf c)).claimQ = v.claimQ := by
      refine hg.claimQ.trans ?_
      rw [State.dropClaims_claimQ, State.takeWeight_claimQ, State.pushClaim_claimQ, hsup.claimQ]
      exact filter_others hqc
    rw [hclaimQ, hsup.claimQ, any_core_others, if_neg Bool.false_ne_true] at ht
    rw [ht]
    refine ⟨hsup.issued.of_rd hg.issued, hg.pantry, fun _ => ⟨hqk ▸ hg.done, hclaimQ, hg.bins.trans hqb, hg.engines.trans hqe⟩,
      fun h => absurd h (by decide)⟩
  | false =>
    have hdec : (v.pushClaim q).arbDecide (regionOf c) q = (v.pushClaim q).takeWeight (regionOf c) :=
      if_neg (by rw [hgrantable, hgrant]; decide)
    rw [hdec] at hbeside ht
    have hany : ((((v.pushClaim q).takeWeight (regionOf c)).thrSync (regionOf c)).claimQ.any fun j => j.core == c.val) = true := by
      rw [hbeside.claimQ, List.any_eq_true]
      exact ⟨q, List.mem_append_right _ List.mem_cons_self, beq_iff_eq.2 hqc⟩
    rw [if_pos hany] at ht
    have hall : Beside (regionOf c) ((v.pushClaim q).takeWeight (regionOf c)) t :=
      ht ▸ hbeside.trans (State.beside_setFld _ (.inr rfl) _ _)
    have hq' : Queued s t c k := by
      obtain ⟨hissued, hpending, hok, hcount⟩ := hq
      have htok : t.rd (Reg.SEQ_TOKEN c k) = v.rd (Reg.SEQ_TOKEN c k) := hall.token hr c k
      exact ⟨hall.issued hr (hissued.of_rd fun _ _ => rfl), (State.tok_congr_rd htok).trans hpending,
        (State.tokStatus_congr_rd htok).trans hok, (State.tokCount_congr hall.tokOps c k).trans hcount⟩
    exact ⟨hq'.issued, hall.pantry, fun h => absurd h (by decide),
      fun _ => ⟨hq', hall.claimQ, congrArg (Fld.get _) (hall.claim c), congrArg (Fld.get _) (hall.claim c)⟩⟩

theorem immF_lt (imm : Word) (lo n : Nat) : immF imm lo n < 2 ^ n := Nat.mod_lt _ (Nat.two_pow_pos n)

theorem exec_claim_eq (c : CoreId) (f : CFmt) (s : State) : exec (.claim c f) s = .next (issue ⟨c, f.word 0x98, s.pcNext c,
    f.bad false || immF f.imm 15 17 != 0 || Decidable.decide (24 < immF f.imm 10 5), some f.tok.val, false,
    firstCause [(Decidable.decide ((s.bind c).bins < immF f.imm 0 10) || Decidable.decide ((s.bind c).engines < immF f.imm 10 5), .ration)], false⟩ id
    (fun t => ((t.supersede c).tokIssue c f.tok).claimAsk c f.tok (immF f.imm 0 10) (immF f.imm 10 5)) s) := rfl
theorem exec_claim {f : CFmt} (hresv : f.resv = 0) (hjoin : f.join = false) (hzero : immF f.imm 15 17 = 0) (hengines : immF f.imm 10 5 ≤ 24)
    (hb : immF f.imm 0 10 ≤ (s.bind c).bins) (he : immF f.imm 10 5 ≤ (s.bind c).engines) (htok : s.tok c f.tok ≠ tokPending)
    (hr : s.Ready c (f.word 0x98) (s.pcNext c)) : exec (.claim c f) s = .next
      ((((s.issued c (s.pcNext c)).supersede c).tokIssue c f.tok).claimAsk c f.tok (immF f.imm 0 10) (immF f.imm 10 5)) := by
  have hbad : (f.bad false || immF f.imm 15 17 != 0 || Decidable.decide (24 < immF f.imm 10 5)) = false := by
    rw [CFmt.bad_none hresv hjoin, hzero, decide_eq_false (Nat.not_lt.2 hengines)]
    rfl
  have hcheck : firstCause [(Decidable.decide ((s.bind c).bins < immF f.imm 0 10) || Decidable.decide ((s.bind c).engines < immF f.imm 10 5),
      Cause.ration)] = none := by
    rw [decide_eq_false (Nat.not_lt.2 hb), decide_eq_false (Nat.not_lt.2 he)]
    rfl
  rw [exec_claim_eq, issue_token _ hr (CFmt.word_defined f 0x98 rfl) hbad htok hcheck]

theorem claim_asks {f : CFmt} (hresv : f.resv = 0) (hjoin : f.join = false) (hqtok : ∀ q ∈ s.claimQ, q.core = c → q.tok < 16)
    (halone : ∀ q ∈ s.claimQ, q.core / 16 = c / 16 → q.core = c) (hzero : immF f.imm 15 17 = 0) (hmax : immF f.imm 10 5 ≤ 24)
    (hb : immF f.imm 0 10 ≤ (s.bind c).bins) (he : immF f.imm 10 5 ≤ (s.bind c).engines) (htok : s.tok c f.tok ≠ tokPending)
    (hapart : ∀ q ∈ s.claimQ, q.core = c → q.tok ≠ f.tok) (hr : s.Ready c (f.word 0x98) (s.pcNext c)) :
    let bins := immF f.imm 0 10
    let engines := immF f.imm 10 5
    let q : ClaimReq := ⟨c, bins, engines, f.tok, s.now⟩
    let others := s.claimQ.filter fun q => q.core != c.val
    let now := s.takeWeight (regionOf c)
    ∃ t, exec (.claim c f) s = .next t ∧ Issued s t c (s.pcNext c) ∧ PantryKept s t ∧
      (bins ≤ s.binsGranted c → engines ≤ s.engGranted c → t.Completed c f.tok stOk ∧ t.claimQ = others ∧
        (s.binsInFlight c ≤ bins → popCount (s.active c) ≤ engines → t.binsGranted c = bins ∧ t.engGranted c = engines) ∧
        (bins < s.binsInFlight c → t.binsGranted c = s.binsGranted c ∧ t.dropOf c = some (bins, engines))) ∧
      (s.binsGranted c < bins ∨ s.engGranted c < engines →
        (now.grantable q = true → t.Completed c f.tok stOk ∧ t.claimQ = others ∧ t.binsGranted c = bins ∧
          t.engGranted c = engines) ∧
        (now.grantable q = false → Queued s t c f.tok ∧ t.claimQ = others ++ [q] ∧ t.binsGranted c = s.binsGranted c ∧
          t.engGranted c = s.engGranted c)) := by
  intro bins engines q others now
  have hbins : bins < 1024 := immF_lt f.imm 0 10
  have hengines : engines < 32 := immF_lt f.imm 10 5
  have hk : f.tok.val < 16 := f.tok.isLt
  refine ⟨_, exec_claim hresv hjoin hzero hmax hb he htok hr, ?_⟩
  have hsup := State.superseded hr.there hqtok
  have hfree : ((s.issued c (s.pcNext c)).supersede c).tok c f.tok ≠ tokPending := by
    rw [State.supersede_eq, State.tok_endClaims]
    · rwa [State.tok_dropClaims, State.tok_issued]
    · intro j hj
      rw [State.issued_claimQ] at hj
      obtain ⟨hin, hcore⟩ := List.mem_filter.1 hj
      exact hapart j hin (beq_iff_eq.1 hcore)
  have hq := hsup.issued.tokIssue_queued hfree
  have hsup' := hsup.tokIssue hk
  generalize ((s.issued c (s.pcNext c)).supersede c).tokIssue c f.tok = v at hq hsup' ⊢
  have hvb : v.binsGranted c = s.binsGranted c := hsup'.load.binsGranted c.isLt
  have hve : v.engGranted c = s.engGranted c := hsup'.load.engGranted c.isLt
  by_cases hlow : bins ≤ v.binsGranted c ∧ engines ≤ v.engGranted c
  · obtain ⟨hissued, hpantry, hdone, hclaimQ, hfits, hwaits⟩ := State.claimAsk_falls hsup' hq hk hbins hengines hlow
    rw [hsup'.bins] at hfits hwaits
    rw [hsup'.active] at hfits
    rw [hvb] at hwaits hlow
    rw [hve] at hlow
    exact ⟨hissued, pantryKept_of_eq (hpantry.trans hsup'.pantry), fun _ _ => ⟨hdone, hclaimQ.trans hsup'.claimQ, hfits, hwaits⟩,
      fun h => h.elim (fun h => absurd hlow.1 (Nat.not_le.2 h)) fun h => absurd hlow.2 (Nat.not_le.2 h)⟩
  · obtain ⟨hissued, hpantry, hgranted, hqueued⟩ := State.claimAsk_rises hsup' hq hk hbins hengines halone hlow
    rw [hsup'.claimQ] at hgranted hqueued
    rw [hvb, hve] at hqueued hlow
    exact ⟨hissued, pantryKept_of_eq (hpantry.trans hsup'.pantry), fun h h' => absurd ⟨h, h'⟩ hlow, fun _ => ⟨hgranted, hqueued⟩⟩

/-! RELEASE. -/

/-- The core's busy time ends. -/
def State.unbusied (s : State) (c : Nat) : State :=
  match sread (fun _ => none) s.power.busyFrom c with
  | none => s
  | some from' => { s with
      power.busyFrom := swrite (fun _ => none) s.power.busyFrom c none
      power.busyLast := swrite (fun _ => 0) s.power.busyLast c ((s.aoc (regionOf c)).toNat - from') }
theorem State.beside_unbusied (s : State) (c r : Nat) : Beside r s (s.unbusied c) := by
  rw [State.unbusied]
  split
  · exact .refl s
  · exact ⟨fun _ _ _ => rfl, rfl, rfl, rfl, rfl, rfl⟩
theorem State.unbusied_fires (s : State) (c : Nat) : (s.unbusied c).fires = s.fires := by
  rw [State.unbusied]
  split
  · rfl
  · rfl
theorem State.unbusied_engActive (s : State) (c : Nat) : (s.unbusied c).engActive = s.engActive := by
  rw [State.unbusied]
  split
  · rfl
  · rfl
theorem exec_release_eq (c : CoreId) (f : CFmt) (s : State) : exec (.release c f) s = .next (issue ⟨c, f.word 0x99, s.pcNext c,
    f.bad false || f.tok != 0 || f.imm != 0, none, false, none, false⟩ id
    (fun t => ((((t.supersede c).setDrop c (some (0, 0))).unbusied c).claimSettle c).thrSync (regionOf c)) s) := rfl

theorem release_zeroes {f : CFmt} (hresv : f.resv = 0) (hjoin : f.join = false) (hqtok : ∀ q ∈ s.claimQ, q.core = c → q.tok < 16)
    (htok : f.tok = 0) (himm : f.imm = 0) (hbins : s.binsInFlight c = 0) (hactive : s.active c = 0)
    (hr : s.Ready c (f.word 0x99) (s.pcNext c)) :
    ∃ t, exec (.release c f) s = .next t ∧ Issued s t c (s.pcNext c) ∧ t.binsGranted c = 0 ∧ t.engGranted c = 0 ∧
      t.claimQ = (s.claimQ.filter fun q => q.core != c.val) ∧ PantryKept s t ∧
      ∀ k ∈ s.claimQ, k.core = c → s.OneOp c k.tok → (∀ j ∈ s.claimQ, j.core = c → j.tok = k.tok → j = k) →
        t.Completed c k.tok stSuperseded := by
  have hr' := regionOf_lt c
  have hbad : (f.bad false || f.tok != 0 || f.imm != 0) = false := by
    rw [CFmt.bad_none hresv hjoin, htok, himm]
    rfl
  refine ⟨_, (exec_release_eq c f s).trans (congrArg Host.Outcome.next (issue_checked _ hr (CFmt.word_defined f 0x99 rfl) hbad rfl)), ?_⟩
  have hsup := State.superseded hr.there hqtok
  have hended (q : ClaimReq) (hq : q ∈ s.claimQ) (hc : q.core = c) (hone : s.OneOp c q.tok)
      (hothers : ∀ j ∈ s.claimQ, j.core = c → j.tok = q.tok → j = q) :
      ((s.issued c (s.pcNext c)).supersede c).Completed c q.tok stSuperseded := by
    rw [State.supersede_eq]
    have hone' : (s.issued c (s.pcNext c)).OneOp c q.tok := hone.of_rd (State.rd_issued _ _ _ _ (tokenReg_ne_issueRegs c _))
      (State.tokCount_congr (State.issued_tokOps _ _ _) _ _)
    refine State.endClaims_done ?_ (hone'.dropClaims c) fun j hj => ?_
    · rw [State.issued_claimQ]
      exact List.mem_filter.2 ⟨hq, beq_iff_eq.2 hc⟩
    · rw [State.issued_claimQ] at hj
      obtain ⟨hin, hcore⟩ := List.mem_filter.1 hj
      exact hothers j hin (beq_iff_eq.1 hcore)
  generalize (s.issued c (s.pcNext c)).supersede c = v at hsup hended ⊢
  have hbusy := (v.setDrop c (some (0, 0))).beside_unbusied c (regionOf c)
  have hdrop : ((v.setDrop c (some (0, 0))).unbusied c).dropOf c = some (0, 0) := (hbusy.dropOf c).trans (v.dropOf_setDrop c _)
  have hb : ((v.setDrop c (some (0, 0))).unbusied c).binsInFlight c = 0 :=
    (State.binsInFlight_congr (State.unbusied_fires _ c) c).trans (hsup.bins.trans hbins)
  have ha : ((v.setDrop c (some (0, 0))).unbusied c).active c = 0 :=
    (State.active_congr (State.unbusied_engActive _ c) c).trans (hsup.active.trans hactive)
  obtain ⟨hrd, hfq, hfp, hfits, -⟩ := State.claimSettle_fallen hdrop (by decide) (by decide)
  obtain ⟨hgb, hge⟩ := hfits (by rw [hb]) (by rw [ha]; decide)
  have htaken (k : Nat) : ((v.setDrop c (some (0, 0))).unbusied c).rd (coreWin c + k) = v.rd (coreWin c + k) :=
    (hbusy.core hr' c k).trans (v.rd_setDrop c _ _)
  have hclaimQ := hfq.trans (hbusy.claimQ.trans (v.setDrop_claimQ c _))
  have hpantry := hfp.trans (hbusy.pantry.trans (v.setDrop_pantry c _))
  generalize (v.setDrop c (some (0, 0))).unbusied c = w at hrd hfp hgb hge htaken hclaimQ hpantry ⊢
  have hwin (k : Nat) : (w.claimSettle c).rd (coreWin c + k) = v.rd (coreWin c + k) := (hrd _ (coreWin_ne_claim c _ _)).trans (htaken k)
  generalize w.claimSettle c = x at hgb hge hclaimQ hpantry hwin ⊢
  have hbeside := x.beside_thrSync (regionOf c)
  have hissued : Issued s x c (s.pcNext c) := hsup.issued.of_rd fun o ho => by
    obtain ⟨k, rfl, -⟩ := issueRegs_form ho
    exact hwin k
  refine ⟨hbeside.issued hr' hissued, (congrArg (Fld.get _) (hbeside.claim c)).trans hgb, (congrArg (Fld.get _) (hbeside.claim c)).trans hge,
    hbeside.claimQ.trans (hclaimQ.trans hsup.claimQ), pantryKept_of_eq (hbeside.pantry.trans (hpantry.trans hsup.pantry)),
    fun q hq hc hone hothers => (hended q hq hc hone hothers).of_rd ((hbeside.token hr' c _).trans ?_)⟩
  unfold Reg.SEQ_TOKEN
  rw [Nat.add_assoc]
  exact hwin _

/-- Settles O23: a decrease settles against the work in flight, and a rise is the only claim that the arbiter decides on. -/
theorem claimsAreRaisedAndGranted : Obligations.ClaimsAreRaisedAndGranted := by
  unfold Obligations.ClaimsAreRaisedAndGranted
  refine ⟨?core, fun s => ⟨?grant, fun c => ?expire⟩⟩
  case core =>
    intro c f s hresv hjoin hqtok halone bins engines q others now
    exact ⟨fun hzero hmax hb he htok hapart hr => claim_asks hresv hjoin hqtok halone hzero hmax hb he htok hapart hr,
      fun htok himm hbins hactive hr => release_zeroes hresv hjoin hqtok htok himm hbins hactive hr⟩
  case grant => exact fun r q hqueue hcore hb he hseq hone => grant_decided hqueue hcore hb he hseq hone
  case expire =>
    refine ⟨_, rfl, ?_, rfl, fun d hd => ?_⟩
    · rw [State.reserved, State.setReserved]
      dsimp only
      rw [sread_swrite, if_pos rfl]
    · rw [State.reserved, State.setReserved]
      dsimp only
      rw [sread_swrite, if_neg hd, State.reserved]

end Sys2Proof.Machine
end

section
/-! PROOFS. Accepted PUTs are written, GETs are served, and completions end their tokens (O22). -/

namespace Sys2Proof.Machine

variable {s t u v : State} {k n w x id : Nat} {c : CoreId} {L : List WinPend} {m : NetMsg}

/-! ## Bytes that arrive (R195, R201) -/

/-- Bytes that a message brings to a Pantry that is not being scrubbed. -/
theorem State.storeBad_spec {d : Nat} (hscrub : s.scrubbing d = false) (hlines : s.tracked = []) (o : Nat) (bs : List Byte) (bad : List Bool) :
    OnlyStores d s (s.storeBad d o bs bad) ∧ (s.flag Reg.DUMP_STAT Fl.DUMP_STAT_RETAINED = false → o + bs.length ≤ pantrySize →
      ∀ e p, p < pantrySize → (s.storeBad d o bs bad).byte e p =
        if e = d ∧ o ≤ p ∧ p < o + bs.length then bs.getD (p - o) 0 else s.byte e p) := by
  have hstore : s.storeBad d o bs bad = (s.storeNow d o bs).poisonFrom d o bad := if_neg (by rw [hscrub]; decide)
  rw [hstore]
  refine ⟨(State.onlyStores_storeNow hlines d o bs).trans ((State.onlyPantry_poisonFrom d bad _ o).onlyStores d), fun hret hfit e p hp => ?_⟩
  obtain ⟨v, hv, hnow⟩ := State.storeNow_spec hlines d o bs
  have hheld : v.dumpHeld d p = false := by
    refine State.dumpHeld_of_not_retained _ _ ?_
    rw [State.flag, State.fld, hv.rd]
    · exact hret
    · unfold checkRegs Reg.CORE_STAT Reg.CORE_ECC_COUNT coreWin
      simp only [List.mem_cons, List.not_mem_nil, or_false, not_or]
      refine ⟨?_, ?_, by decide, by decide⟩ <;> · unfold Reg.DUMP_STAT; omega
  rw [State.byte_poisonFrom, hnow, State.byte_putBytes_all d e p hp bs v o hfit, hheld, State.byte_of_pantry hv.pantry]
  simp only [and_true]

/-! ## Answers (R201, R237) -/

/-- The answer to a message of this module. -/
def NetMsg.answered (m : NetMsg) (status : Nat) (data : List Byte) (bad : List Bool) : NetMsg :=
  { m with stage := .answered, status := status, data := data, bad := bad, vc := 0, hop := 0 }
theorem State.answer_here {st : Nat} {data : List Byte} {bad : List Bool} {r : Nat} (hkind : m.kind ≠ .completion) (hm : m.orgModule = s.module) :
    s.answer m st data bad r = s.lastNet (m.answered st data bad) := (if_neg hkind).trans (if_pos hm)
theorem State.lastNet_regs (s : State) (m : NetMsg) : (s.lastNet m).regs = s.regs := rfl
theorem State.lastNet_pantry (s : State) (m : NetMsg) : (s.lastNet m).pantry = s.pantry := rfl
theorem State.lastNet_biWant (s : State) (m : NetMsg) : (s.lastNet m).biWant = s.biWant := rfl
theorem State.lastNet_winPends (s : State) (m : NetMsg) : (s.lastNet m).winPends = s.winPends := rfl
theorem State.lastNet_net (s : State) (m : NetMsg) : (s.lastNet m).net = (s.net.filter fun k => k.id != m.id) ++ [m] := rfl

/-! ## An accepted PUT is written (R201, R204) -/

/-- The ends at a window, which can wake the core. -/
theorem State.pendsEnd_wake (s : State) (c : CoreId) : PendsEnd c L [] s (s.wake c) := by
  obtain ⟨⟨_, _, _, _, hwake⟩, -, -⟩ := s.woken_wake c
  rw [hwake]
  exact ⟨fun _ _ _ _ => rfl, fun _ _ => rfl, List.Subset.refl _, rfl, rfl, rfl⟩
theorem State.pendsEnd_winWaits_any (hL : s.pendsIn c L) (w : Nat) : PendsEnd c L [] s (s.winWaits c w) := by
  rw [State.winWaits, State.winEnd_eq]
  have hend := State.pendsEnd_endKind hL w .wait stOk
  split
  · split
    · exact hend.trans (State.pendsEnd_wake _ c)
    · exact hend
  · exact .refl _ _ _ _

theorem State.winCount_bump (s : State) (c w : Nat) : (s.bump (Reg.WDS_WIN_COUNT c w) Fl.WDS_WIN_COUNT_COUNT).winCount c w =
    min (s.winCount c w + 1) (2 ^ 32 - 1) := by
  rw [State.winCount, State.bump, State.fld_setFld_same _ _ _ _ (by decide)]
  exact Nat.mod_eq_of_lt (Nat.lt_of_le_of_lt (Nat.min_le_right _ _) (by decide))
/-- A write that a window counts. -/
theorem State.winArrive_spec (hL : s.pendsIn c L) (htok : ∀ p ∈ L, p.tok < 16) (w : Nat) :
    PendsEnd c L [Reg.WDS_WIN_COUNT c w, Reg.WDS_WIN_CTL c w] s (s.winArrive c w) ∧
      (s.winArrive c w).winCount c w = min (s.winCount c w + 1) (2 ^ 32 - 1) := by
  have hbump := s.pendsEnd_setFld (L := L) (E := [Reg.WDS_WIN_COUNT c w]) c Fl.WDS_WIN_COUNT_COUNT
    (min (s.fld (Reg.WDS_WIN_COUNT c w) Fl.WDS_WIN_COUNT_COUNT + 1) (2 ^ Fl.WDS_WIN_COUNT_COUNT.width - 1)) List.mem_cons_self
  have hcount := s.winCount_bump c w
  rw [State.bump] at hcount
  rw [State.winArrive, State.bump]
  generalize s.setFld (Reg.WDS_WIN_COUNT c w) Fl.WDS_WIN_COUNT_COUNT _ = u at hbump hcount ⊢
  have hwaits := State.pendsEnd_winWaits_any (hbump.pendsIn hL) w
  generalize u.winWaits c w = v at hwaits ⊢
  have hrest : PendsEnd c L [Reg.WDS_WIN_CTL c w] v (if v.winState c w = winDraining ∧ v.winMet c w then (v.drainEnd c w 1).winShut c w else v) := by
    split
    · have hdrain := State.pendsEnd_drainEnd (hwaits.pendsIn (hbump.pendsIn hL)) w 1
      exact hdrain.trans (State.pendsEnd_winShut (hdrain.pendsIn (hwaits.pendsIn (hbump.pendsIn hL))) w)
    · exact .refl _ _ _ _
  have hafter := (hwaits.mono (List.nil_subset [Reg.WDS_WIN_CTL c w])).trans hrest
  exact ⟨(hbump.mono (by simp)).trans (hafter.mono (by simp)), (hafter.count htok).trans hcount⟩

theorem State.closesDone_eq (s : State) (c w : Nat) :
    s.closesDone c w = (s.dropPends (s.closeReady c w)).endPends c stOk (s.winPends.filter (s.closeReady c w)) := rfl
theorem State.pendsEnd_closesDone (hL : s.pendsIn c L) (w : Nat) : PendsEnd c L [] s (s.closesDone c w) := by
  rw [State.closesDone_eq]
  refine State.pendsEnd_endPends hL (fun p hp => ?_) _
  simp only [State.closeReady, Bool.and_eq_true, beq_iff_eq] at hp
  exact hp.1.1.1

/-- An accepted PUT of this module written. -/
def State.putDone (s : State) (m : NetMsg) : State :=
  let c := m.dstCore
  let s := s.storeBad c m.off m.data m.bad
  let s := if s.winGen c m.win = m.gen then s.winArrive c m.win else s
  let s := s.answer m (if m.bad.contains true then stPoison else stOk) [] [] c
  s.closesDone c m.win
theorem exec_putWriteDone (h : s.findNet id = some m) (hkind : m.kind = .put) (hstage : m.stage = .accepted)
    (hscrub : s.scrubbing m.dstCore = false) : exec (.putWriteDone id) s = .next (s.settle (s.putDone m)) := by
  rw [show exec (.putWriteDone id) s = execPutWriteDone id s from rfl, execPutWriteDone, h]
  exact congrArg (fun u => Host.Outcome.next (s.settle u)) (if_pos ⟨hkind, hstage, by rw [hscrub]; decide⟩)


theorem OnlyStores.winPends {d : Nat} (h : OnlyStores d s t) : t.winPends = s.winPends := by obtain ⟨⟨_, _, _, _, _, rfl⟩, -, -⟩ := h; rfl
theorem OnlyStores.net {d : Nat} (h : OnlyStores d s t) : t.net = s.net := by obtain ⟨⟨_, _, _, _, _, rfl⟩, -, -⟩ := h; rfl
theorem module_not_checkRegs (d : Nat) : Reg.LNK_MODULE ∉ checkRegs d := by
  unfold checkRegs Reg.CORE_STAT Reg.CORE_ECC_COUNT coreWin
  simp only [List.mem_cons, List.not_mem_nil, or_false, not_or]
  refine ⟨?_, ?_, by decide, by decide⟩ <;> · unfold Reg.LNK_MODULE; omega
theorem winReg_not_checkRegs (c : CoreId) {o : Nat} (ho : 0x10000 ≤ o) : coreWin c + o ∉ checkRegs c := by
  unfold checkRegs Reg.CORE_STAT Reg.CORE_ECC_COUNT coreWin Reg.DUMP_ERR_HEAD Reg.DUMP_ERR_LOST
  simp only [List.mem_cons, List.not_mem_nil, or_false, not_or]
  omega
theorem module_apart (c : CoreId) (o : Nat) : Reg.LNK_MODULE ≠ coreWin c + o ∧ Reg.LNK_MODULE ≠ Reg.ARB_CLAIM (c.val / 16) (c.val % 16) := by
  unfold Reg.LNK_MODULE coreWin Reg.ARB_CLAIM regionWin
  omega

theorem putDone_spec (hc : m.dstCore = c) (hm : m.orgModule = s.module) (hlines : s.noHostLines) (hkind : m.kind = .put)
    (hscrub : s.scrubbing c = false) (hL : s.pendsIn c L) (htok : ∀ p ∈ L, p.tok < 16) :
    (s.putDone m).biWant = [] ∧ (s.putDone m).winCount c m.win = (if s.winGen c m.win = m.gen
      then min (s.winCount c m.win + 1) (2 ^ 32 - 1) else s.winCount c m.win) ∧
    (s.putDone m).net = (s.net.filter fun k => k.id != m.id) ++ [m.answered (if m.bad.contains true then stPoison else stOk) [] []] ∧
    (s.putDone m).pantry = (s.storeBad c m.off m.data m.bad).pantry := by
  obtain ⟨hlines, hstill⟩ := hlines
  obtain ⟨hstores, -⟩ := State.storeBad_spec hscrub hlines m.off m.data m.bad
  rw [State.putDone, hc]
  have hwin {o : Nat} (ho : 0x10000 ≤ o) : (s.storeBad c m.off m.data m.bad).rd (coreWin c + o) = s.rd (coreWin c + o) :=
    hstores.rd _ (winReg_not_checkRegs c ho)
  have hgen : (s.storeBad c m.off m.data m.bad).winGen c m.win = s.winGen c m.win := by
    refine congrArg (Fld.get _) ?_
    unfold Reg.WDS_WIN_CTL
    rw [Nat.add_assoc]
    exact hwin (by omega)
  have hcount : (s.storeBad c m.off m.data m.bad).winCount c m.win = s.winCount c m.win := by
    refine congrArg (Fld.get _) ?_
    unfold Reg.WDS_WIN_COUNT
    rw [Nat.add_assoc]
    exact hwin (by omega)
  have hmod : (s.storeBad c m.off m.data m.bad).rd Reg.LNK_MODULE = s.rd Reg.LNK_MODULE := hstores.rd _ (module_not_checkRegs c)
  have hnet := hstores.net
  have hbi := hstores.biWant.trans hstill
  have hpends : (s.storeBad c m.off m.data m.bad).pendsIn c L := by
    rw [State.pendsIn, hstores.winPends]
    exact hL
  rw [hgen]
  generalize s.storeBad c m.off m.data m.bad = u at hcount hmod hnet hbi hpends ⊢
  obtain ⟨harrive, hraised⟩ := State.winArrive_spec hpends htok m.win
  have hcounted : PendsEnd c L [Reg.WDS_WIN_COUNT c m.win, Reg.WDS_WIN_CTL c m.win] u
      (if s.winGen c m.win = m.gen then u.winArrive c m.win else u) ∧ (if s.winGen c m.win = m.gen then u.winArrive c m.win else u).winCount c m.win =
      if s.winGen c m.win = m.gen then min (s.winCount c m.win + 1) (2 ^ 32 - 1) else s.winCount c m.win := by
    split
    · exact ⟨harrive, by rw [hraised, hcount]⟩
    · exact ⟨.refl _ _ _ _, hcount⟩
  obtain ⟨hv, hvcount⟩ := hcounted
  generalize (if s.winGen c m.win = m.gen then u.winArrive c m.win else u) = v at hv hvcount ⊢
  have hvmod : m.orgModule = v.module := by
    refine hm.trans (congrArg (Fld.get _) ?_).symm
    refine (hv.rd _ ?_ (module_apart c 0).2 fun p hp => ?_).trans hmod
    · unfold Reg.WDS_WIN_COUNT Reg.WDS_WIN_CTL
      simp only [Nat.add_assoc, List.mem_cons, List.not_mem_nil, or_false, not_or]
      exact ⟨(module_apart c _).1, (module_apart c _).1⟩
    · unfold Reg.SEQ_TOKEN
      rw [Nat.add_assoc]
      exact (module_apart c _).1
  rw [State.answer_here (by rw [hkind]; decide) hvmod]
  have hvp : (v.lastNet (m.answered (if m.bad.contains true then stPoison else stOk) [] [])).pendsIn c L := hv.pendsIn hpends
  have hclose := State.pendsEnd_closesDone hvp m.win
  refine ⟨hclose.still.trans ((State.lastNet_biWant ..).trans (hv.still.trans hbi)), ?_,
    hclose.net.trans ((State.lastNet_net ..).trans (by rw [hv.net, hnet]; rfl)),
    hclose.pantry.trans ((State.lastNet_pantry ..).trans hv.pantry)⟩
  refine ((hclose.mono (List.nil_subset [Reg.WDS_WIN_CTL c m.win])).count htok).trans (Eq.trans (congrArg (Fld.get _) ?_) hvcount)
  exact State.rd_congr (State.lastNet_regs ..) _

theorem put_written (h : s.findNet id = some m) (hm : m.orgModule = s.module) (hlines : s.noHostLines)
    (hret : s.flag Reg.DUMP_STAT Fl.DUMP_STAT_RETAINED = false) (hkind : m.kind = .put) (hstage : m.stage = .accepted)
    (hdst : m.dstCore < 256) (hscrub : s.scrubbing m.dstCore = false) (hfit : m.off + m.data.length ≤ pantrySize)
    (htok : ∀ q ∈ s.winPends, q.core = m.dstCore → q.tok < 16) :
    ∃ t, exec (.putWriteDone id) s = .next t ∧
      t.winCount m.dstCore m.win = (if s.winGen m.dstCore m.win = m.gen
        then min (s.winCount m.dstCore m.win + 1) (2 ^ 32 - 1) else s.winCount m.dstCore m.win) ∧
      t.net = (s.net.filter fun k => k.id != m.id) ++ [m.answered (if m.bad.contains true then stPoison else stOk) [] []] ∧
      ∀ d p, d < 256 → p < pantrySize → t.byte d p =
        if d = m.dstCore ∧ m.off ≤ p ∧ p < m.off + m.data.length then m.data.getD (p - m.off) 0 else s.byte d p := by
  obtain ⟨c, hc⟩ : ∃ c : CoreId, m.dstCore = c := ⟨⟨m.dstCore, hdst⟩, rfl⟩
  have hexec := exec_putWriteDone h hkind hstage hscrub
  have hL : s.pendsIn c (s.winPends.filter fun q => q.core == c.val) := fun p hp hpc => List.mem_filter.2 ⟨hp, beq_iff_eq.2 hpc⟩
  obtain ⟨hstill, hcount, hnet, hpantry⟩ := putDone_spec hc hm hlines hkind (hc ▸ hscrub) hL fun p hp => by
    obtain ⟨hin, hpc⟩ := List.mem_filter.1 hp
    exact htok p hin ((beq_iff_eq.1 hpc).trans hc.symm)
  rw [State.settle_of_still _ _ hstill] at hexec
  rw [hc]
  refine ⟨_, hexec, hcount, hnet, fun d p _ hp => ?_⟩
  rw [State.byte_of_pantry hpantry]
  exact (State.storeBad_spec (hc ▸ hscrub) hlines.1 m.off m.data m.bad).2 hret hfit d p hp

/-! ## Completions return, and GETs are served (R195, R208) -/

theorem exec_netCompletion_put (h : s.findNet id = some m) (hstage : m.stage = .answered) (hhere : m.router = m.orgCore)
    (hfirst : s.flowFirst m = true) (hsleep : s.sleep m.orgCore < 3) (htime : m.timedOut = false) (hkind : m.kind = .put) :
    exec (.netCompletion id) s = .next (s.settle (s.netEnd m m.status)) := by
  rw [show exec (.netCompletion id) s = execNetCompletion id s from rfl, execNetCompletion, h]
  refine congrArg (fun u => Host.Outcome.next (s.settle u)) ?_
  refine (if_pos ⟨hstage, hhere, hfirst⟩).trans ((if_neg (Nat.not_le.2 hsleep)).trans ((if_neg (by rw [htime]; decide)).trans (if_neg ?_)))
  rw [hkind]
  exact fun h => absurd h.1 (by decide)
theorem exec_netCompletion_get (h : s.findNet id = some m) (hstage : m.stage = .answered) (hhere : m.router = m.orgCore)
    (hfirst : s.flowFirst m = true) (hsleep : s.sleep m.orgCore < 3) (htime : m.timedOut = false) (hkind : m.kind = .get) (hdata : m.data ≠ [])
    (hscrub : s.scrubbing m.orgCore = false) :
    exec (.netCompletion id) s = .next (s.settle ((s.storeBad m.orgCore m.land m.data m.bad).netEnd m m.status)) := by
  rw [show exec (.netCompletion id) s = execNetCompletion id s from rfl, execNetCompletion, h]
  refine congrArg (fun u => Host.Outcome.next (s.settle u)) ?_
  refine (if_pos ⟨hstage, hhere, hfirst⟩).trans ((if_neg (Nat.not_le.2 hsleep)).trans ((if_neg (by rw [htime]; decide)).trans
    ((if_pos ⟨hkind, ?_⟩).trans (if_neg (by rw [hscrub]; decide)))))
  cases hd : m.data with
  | nil => exact absurd hd hdata
  | cons b bs => rfl

/-- A message of this module ends. -/
theorem State.netEnd_spec (horg : m.orgCore = c) (hone : s.OneOp c m.tok) (hx : x < 256) :
    (s.netEnd m x).Completed c m.tok x ∧ (s.netEnd m x).net = (s.net.filter fun k => k.id != m.id) ∧
      (s.netEnd m x).pantry = s.pantry ∧ (s.netEnd m x).biWant = s.biWant := by
  have hdrop : (s.dropNet m.id).OneOp c m.tok := hone.of_rd rfl rfl
  have hend := (s.dropNet m.id).onlyEnd_tokComplete c m.tok x
  rw [State.netEnd, horg]
  exact ⟨State.tokComplete_done c.isLt hdrop.pending hdrop.one hdrop.ok hx, hend.net, hend.pantry, hend.biWant⟩

theorem exec_getServe (h : s.findNet id = some m) (hkind : m.kind = .get) (hstage : m.stage = .arrived) (hfirst : s.flowFirst m = true)
    (hsleep : s.sleep m.dstCore < 3) (hsame : s.samePart m = true) : exec (.getServe id) s = .next (s.settle (s.serveGet m)) := by
  rw [show exec (.getServe id) s = execGetServe id s from rfl, execGetServe, h]
  refine congrArg Host.Outcome.next ((if_pos ⟨hkind, hstage⟩).trans ((if_neg ?_).trans ((if_neg (Nat.not_le.2 hsleep)).trans (if_neg ?_))))
  · rw [hfirst]
    decide
  · rw [hsame]
    decide

theorem get_served (h : s.findNet id = some m) (hm : m.orgModule = s.module) (hlines : s.noHostLines) (hkind : m.kind = .get)
    (hstage : m.stage = .arrived) (hfirst : s.flowFirst m = true) (hsleep : s.sleep m.dstCore < 3) (hsame : s.samePart m = true)
    (hspace : m.space = 0) (hfit : m.off + m.len ≤ pantrySize) :
    ∃ t, exec (.getServe id) s = .next t ∧ PantryKept s t ∧ t.net = (s.net.filter fun k => k.id != m.id) ++
      [m.answered (if (s.badBytes m.dstCore m.off m.len).contains true then stPoison else stOk) (s.bytes m.dstCore m.off m.len)
        (s.badBytes m.dstCore m.off m.len)] := by
  have hexec := exec_getServe h hkind hstage hfirst hsleep hsame
  have hchecks := State.onlyChecks_checkRange hlines.1 m.dstCore m.off m.len
  have hmod : m.orgModule = (s.checkRange m.dstCore m.off m.len).module :=
    hm.trans (congrArg (Fld.get _) (hchecks.rd _ (module_not_checkRegs m.dstCore))).symm
  have hserve : s.serveGet m = (s.checkRange m.dstCore m.off m.len).lastNet
      (m.answered (if (s.badBytes m.dstCore m.off m.len).contains true then stPoison else stOk) (s.bytes m.dstCore m.off m.len)
        (s.badBytes m.dstCore m.off m.len)) :=
    (if_pos hspace).trans ((if_pos (decide_eq_true hfit)).trans (State.answer_here (by rw [hkind]; decide) hmod))
  rw [hserve, State.settle_of_still _ _ ((State.lastNet_biWant ..).trans (hchecks.biWant.trans hlines.2))] at hexec
  refine ⟨_, hexec, pantryKept_of_eq ((State.lastNet_pantry ..).trans hchecks.pantry), (State.lastNet_net ..).trans ?_⟩
  obtain ⟨⟨_, _, _, _, hcheck⟩, -, -⟩ := hchecks
  rw [hcheck]
  rfl

/-- Settles O22: the bytes of a message land through one store, and its token or its answer follows. -/
theorem putAndGetComplete : Obligations.PutAndGetComplete := by
  unfold Obligations.PutAndGetComplete
  intro id s m h hm hlines hret
  refine ⟨fun hkind hstage hdst _ hscrub hfit htok => put_written h hm hlines hret hkind hstage hdst hscrub hfit htok, ?completes,
    fun hkind hstage hfirst hsleep hsame hspace hfit => get_served h hm hlines hkind hstage hfirst hsleep hsame hspace hfit⟩
  case completes =>
    intro hstage hhere hfirst horg hsleep htime hone hstatus
    obtain ⟨c, hc⟩ : ∃ c : CoreId, m.orgCore = c := ⟨⟨m.orgCore, horg⟩, rfl⟩
    refine ⟨fun hkind => ?_, fun hkind hscrub hfit hdata => ?_⟩
    · have hexec := exec_netCompletion_put h hstage hhere hfirst hsleep htime hkind
      rw [hc] at hone ⊢
      obtain ⟨hdone, hnet, hpantry, hstill⟩ := State.netEnd_spec hc hone hstatus
      rw [State.settle_of_still _ _ (hstill.trans hlines.2)] at hexec
      exact ⟨_, hexec, hdone, hnet, pantryKept_of_eq hpantry⟩
    · have hexec := exec_netCompletion_get h hstage hhere hfirst hsleep htime hkind hdata hscrub
      rw [hc] at hone hscrub hexec ⊢
      obtain ⟨hstores, hbyte⟩ := State.storeBad_spec hscrub hlines.1 m.land m.data m.bad
      have hone' : (s.storeBad c m.land m.data m.bad).OneOp c m.tok :=
        hone.of_rd (hstores.rd _ (tokenReg_ne_checkRegs _ _ _ hone.range)) (State.tokCount_congr hstores.tokOps _ _)
      obtain ⟨hdone, hnet, hpantry, hstill⟩ := State.netEnd_spec hc hone' hstatus
      rw [State.settle_of_still _ _ (hstill.trans (hstores.biWant.trans hlines.2))] at hexec
      refine ⟨_, hexec, hdone, hnet.trans (by rw [hstores.net]), fun d p _ hp => ?_⟩
      rw [State.byte_of_pantry hpantry]
      exact hbyte hret hfit d p hp

end Sys2Proof.Machine
end

section
/-! PROOFS. PUT and GET send their messages, which the target accepts or answers (O21). -/

namespace Sys2Proof.Machine

variable {s t u v : State} {k n w id : Nat} {c : CoreId} {m : NetMsg}

/-! ## PUT and GET issue (R207, R260) -/

theorem issue_sends {word : DWord} {next : Int} {bad join full : Bool} {check : Option Cause} {seen : State → State}
    (eff : State → State) (hr : s.Ready c word next) (hd : opcodeDefined word = true) (hbad : bad = false)
    (htok : s.tok c k ≠ tokPending) (hcheck : check = none) (hfull : full = false) :
    issue ⟨c, word, next, bad, some k, join, check, full⟩ seen eff s = eff (s.issued c next) := by
  rw [hfull]
  exact issue_token eff hr hd hbad htok hcheck

/-- The state in which the egress stage holds one message more. -/
def State.netSent (s : State) (m : NetMsg) : State := { s with net := s.net ++ [m], nextId := s.nextId + 1 }
theorem State.netSent_regs (s : State) (m : NetMsg) : (s.netSent m).regs = s.regs := rfl
theorem State.netSent_tokOps (s : State) (m : NetMsg) : (s.netSent m).tokOps = s.tokOps := rfl
theorem State.netSent_pantry (s : State) (m : NetMsg) : (s.netSent m).pantry = s.pantry := rfl
theorem State.netSent_biWant (s : State) (m : NetMsg) : (s.netSent m).biWant = s.biWant := rfl
theorem State.netSent_net (s : State) (m : NetMsg) : (s.netSent m).net = s.net ++ [m] := rfl
/-- The message that a PUT or a GET sends: its data as `data` says, its sender's state `v`. -/
def outMsg (v : State) (c : Nat) (f : MFmt) (kind : NetKind) (gt gg loc len : Nat) (data : List Byte) (bad : List Bool) : NetMsg :=
  ⟨v.nextId, kind, v.module, c, v.partOf c, v.nextId, f.tok.val, addrModule gt,
    if addrModule gt = v.module then v.stand (addrCore gt) else addrCore gt, addrSpace gt, addrOffset gt, len, f.win.val, gg % 65536,
    loc, data, bad, 0, 0, c, .held, 0, false⟩
theorem State.sendNet_put {f : MFmt} {gt gg loc len : Nat} (hbound : (s.tokIssue c f.tok).bound c = true) (hgt : addrReserved gt = false) :
    s.sendNet c f .put gt gg loc len = ((s.tokIssue c f.tok).checkRange c loc len).netSent
      (outMsg ((s.tokIssue c f.tok).checkRange c loc len) c f .put gt gg loc len (s.bytes c loc len) (s.badBytes c loc len)) :=
  (if_neg (by rw [hbound]; decide)).trans (if_neg (by rw [hgt]; decide))
theorem State.sendNet_get {f : MFmt} {gt gg loc len : Nat} (hbound : (s.tokIssue c f.tok).bound c = true) (hgt : addrReserved gt = false) :
    s.sendNet c f .get gt gg loc len = (s.tokIssue c f.tok).netSent (outMsg (s.tokIssue c f.tok) c f .get gt gg loc len [] []) :=
  (if_neg (by rw [hbound]; decide)).trans (if_neg (by rw [hgt]; decide))

/-- What is kept from an instruction's issue to its message. -/
structure SentFrom (c : CoreId) (k : Nat) (s v : State) : Prop where
  queued : Queued s v c k
  net : v.net = s.net
  pantry : v.pantry = s.pantry
  still : v.biWant = s.biWant
  module : v.module = s.module
  sent : v.rd (Reg.CORE_TX_COUNT c) = s.rd (Reg.CORE_TX_COUNT c)

theorem OnlyIssue.biWant (h : OnlyIssue s t) : t.biWant = s.biWant := by obtain ⟨_, _, _, _, rfl⟩ := h; rfl
theorem OnlyIssue.tracked (h : OnlyIssue s t) : t.tracked = s.tracked := by obtain ⟨_, _, _, _, rfl⟩ := h; rfl
theorem State.sentFrom_taken (hthere : s.inCode c (s.pcNext c) = true) (htok : s.tok c k ≠ tokPending) (hk : k < 16) :
    SentFrom c k s ((s.issued c (s.pcNext c)).tokIssue c k) := by
  have honly := s.onlyIssue_issued_tokIssue c k (s.pcNext c)
  refine ⟨State.tokIssue_queued hthere htok, honly.net, honly.pantry, honly.biWant, s.module_taken, s.rd_taken ?_ ?_⟩
  · simp only [issueRegs, Reg.SEQ_PC, Reg.SEQ_ISSUED, Reg.SEQ_STAT, Reg.CORE_TX_COUNT, List.mem_cons, List.not_mem_nil, or_false]
    omega
  · unfold Reg.CORE_TX_COUNT Reg.SEQ_TOKEN
    omega

theorem issueRegs_not_checkRegs {o : Nat} (ho : o ∈ issueRegs c) : o ∉ checkRegs c := by
  obtain ⟨j, rfl, -⟩ := issueRegs_form ho
  simp only [issueRegs, Reg.SEQ_PC, Reg.SEQ_ISSUED, Reg.SEQ_STAT, List.mem_cons, List.not_mem_nil, or_false] at ho
  unfold checkRegs Reg.CORE_STAT Reg.CORE_ECC_COUNT coreWin Reg.DUMP_ERR_HEAD Reg.DUMP_ERR_LOST
  simp only [List.mem_cons, List.not_mem_nil, or_false, not_or]
  omega
theorem OnlyChecks.net {d : Nat} (h : OnlyChecks d s t) : t.net = s.net := by obtain ⟨⟨_, _, _, _, rfl⟩, -, -⟩ := h; rfl
theorem SentFrom.checked (h : SentFrom c k s v) (hk : k < 16) (hc : OnlyChecks c v u) : SentFrom c k s u := by
  obtain ⟨⟨hissued, hpending, hok, hone⟩, hnet, hpantry, hstill, hmodule, hsent⟩ := h
  have htok : u.rd (Reg.SEQ_TOKEN c k) = v.rd (Reg.SEQ_TOKEN c k) := hc.rd _ (tokenReg_ne_checkRegs _ _ _ hk)
  refine ⟨⟨hissued.of_rd fun o ho => hc.rd o (issueRegs_not_checkRegs ho), (State.tok_congr_rd htok).trans hpending,
    (State.tokStatus_congr_rd htok).trans hok, (State.tokCount_congr hc.tokOps _ _).trans hone⟩, hc.net.trans hnet,
    hc.pantry.trans hpantry, hc.biWant.trans hstill, (congrArg (Fld.get _) (hc.rd _ (module_not_checkRegs c))).trans hmodule,
    (hc.rd _ ?_).trans hsent⟩
  unfold checkRegs Reg.CORE_STAT Reg.CORE_ECC_COUNT Reg.CORE_TX_COUNT coreWin Reg.DUMP_ERR_HEAD Reg.DUMP_ERR_LOST
  simp only [List.mem_cons, List.not_mem_nil, or_false, not_or]
  omega

/-- A message that an instruction sent. -/
def SentAs (s t : State) (c : CoreId) (f : MFmt) (kind : NetKind) (target n : Nat) (data : List Byte) : Prop :=
  ∃ m, Queued s t c f.tok ∧ t.net = s.net ++ [m] ∧ PantryKept s t ∧ t.rd (Reg.CORE_TX_COUNT c) = s.rd (Reg.CORE_TX_COUNT c) ∧
    m.kind = kind ∧ m.stage = .held ∧ m.orgCore = c.val ∧ m.tok = f.tok.val ∧ m.dstModule = addrModule target ∧
    (addrModule target ≠ s.module → m.dstCore = addrCore target) ∧ m.space = addrSpace target ∧
    m.off = addrOffset target ∧ m.len = n ∧ m.win = f.win.val ∧ m.gen = (s.g c f.gg.val).toNat % 65536 ∧ m.data = data
theorem SentFrom.sentAs {f : MFmt} {kind : NetKind} {target loc : Nat} {data : List Byte} {bad : List Bool} (h : SentFrom c f.tok s v) :
    SentAs s (v.netSent (outMsg v c f kind target (s.g c f.gg.val).toNat loc n data bad)) c f kind target n data := by
  obtain ⟨hq, hnet, hpantry, -, hmodule, hsent⟩ := h
  refine ⟨outMsg v c f kind target (s.g c f.gg.val).toNat loc n data bad, hq.of_same (State.netSent_regs ..) (State.netSent_tokOps ..),
    (State.netSent_net ..).trans (by rw [hnet]), pantryKept_of_eq ((State.netSent_pantry ..).trans hpantry),
    (State.rd_congr (State.netSent_regs ..) _).trans hsent, rfl, rfl, rfl, rfl, rfl, fun haway => ?_, rfl, rfl, rfl, rfl, rfl, rfl⟩
  rw [← hmodule] at haway
  exact if_neg haway

theorem State.bytes_congr (h : t.pantry = s.pantry) (d o n : Nat) : t.bytes d o n = s.bytes d o n := by
  unfold State.bytes State.byte
  rw [h]

section
variable {f : MFmt} (hresv : f.resv = 0) (hlines : s.noHostLines) (hsrc : (s.a c f.as.val).toNat < pantrySize)
  (hfit : (s.a c f.as.val).toNat + (s.g c f.gn.val).toNat ≤ pantrySize) (hpos : 0 < (s.g c f.gn.val).toNat)
  (hmax : (s.g c f.gn.val).toNat ≤ 65536) (hout : s.outstanding c < 64) (htok : s.tok c f.tok ≠ tokPending) (hbound : s.bound c = true)
  (hgt : addrReserved (s.g c f.gt.val).toNat = false)
include hsrc hfit hpos hmax hout htok
theorem netIssue_sends {kind : NetKind} {opc : Byte} {illegal : Bool} (hopc : opcodeDefined (opc.setWidth 64) = true) (hill : illegal = false)
    (hr : s.Ready c (f.word opc) (s.pcNext c)) : netIssue kind opc illegal c f s =
      (s.issued c (s.pcNext c)).sendNet c f kind (s.g c f.gt.val).toNat (s.g c f.gg.val).toNat (s.a c f.as.val).toNat (s.g c f.gn.val).toNat := by
  have hrange : rangeBad (s.a c f.as.val) (s.g c f.gn.val).toNat = false := by
    rw [rangeBad, decide_eq_false (Nat.not_le.2 hsrc), decide_eq_false (Nat.not_lt.2 hfit)]
    rfl
  have hlen : ((s.g c f.gn.val).toNat == 0 || decide (65536 < (s.g c f.gn.val).toNat)) = false := by
    rw [beq_false_of_ne hpos.ne', decide_eq_false (Nat.not_lt.2 hmax)]
    rfl
  have hcheck : firstCause [(rangeBad (s.a c f.as.val) (s.g c f.gn.val).toNat, Cause.pantryRange),
      ((s.g c f.gn.val).toNat == 0 || decide (65536 < (s.g c f.gn.val).toNat), .length)] = none := by
    rw [hrange, hlen]
    rfl
  exact issue_sends _ hr (MFmt.word_defined f opc hopc) hill htok hcheck (decide_eq_false (Nat.not_le.2 hout))

include hbound hgt
theorem get_sends (hill : (f.resv != 0 || f.win != 0 || f.gg != 0) = false) (hr : s.Ready c (f.word 0x79) (s.pcNext c)) :
    ∃ t, exec (.get c f) s = .next t ∧ SentAs s t c f .get (s.g c f.gt.val).toNat (s.g c f.gn.val).toNat [] := by
  refine ⟨_, congrArg Host.Outcome.next ((netIssue_sends hsrc hfit hpos hmax hout htok rfl hill hr).trans
    (State.sendNet_get (s.bound_taken.trans hbound) hgt)), ?_⟩
  exact (State.sentFrom_taken hr.there htok f.tok.isLt).sentAs
include hresv hlines
theorem put_sends (hr : s.Ready c (f.word 0x78) (s.pcNext c)) :
    ∃ t, exec (.put c f) s = .next t ∧ SentAs s t c f .put (s.g c f.gt.val).toNat (s.g c f.gn.val).toNat
      (s.bytes c (s.a c f.as.val).toNat (s.g c f.gn.val).toNat) := by
  have hill : (f.resv != 0) = false := by rw [hresv]; rfl
  have hnet := (netIssue_sends hsrc hfit hpos hmax hout htok (kind := .put) rfl hill hr).trans (State.sendNet_put (s.bound_taken.trans hbound) hgt)
  have hdata : (s.issued c (s.pcNext c)).bytes c (s.a c f.as.val).toNat (s.g c f.gn.val).toNat =
      s.bytes c (s.a c f.as.val).toNat (s.g c f.gn.val).toNat := State.bytes_congr (State.issued_pantry _ _ _) _ _ _
  rw [hdata] at hnet
  have htaken := State.sentFrom_taken hr.there htok f.tok.isLt
  have htracked : ((s.issued c (s.pcNext c)).tokIssue c f.tok).tracked = [] :=
    (s.onlyIssue_issued_tokIssue c f.tok (s.pcNext c)).tracked.trans hlines.1
  have hchecks := State.onlyChecks_checkRange htracked c (s.a c f.as.val).toNat (s.g c f.gn.val).toNat
  generalize ((s.issued c (s.pcNext c)).tokIssue c f.tok).checkRange c (s.a c f.as.val).toNat (s.g c f.gn.val).toNat = v at hnet hchecks
  have hsent := htaken.checked f.tok.isLt hchecks
  refine ⟨_, congrArg Host.Outcome.next ((congrArg s.settle hnet).trans (State.settle_of_still _ _ ?_)), hsent.sentAs⟩
  exact (State.netSent_biWant ..).trans (hsent.still.trans hlines.2)
end

/-! ## A PUT arrives (R200 to R202, R210) -/

theorem exec_putCheck (h : s.findNet id = some m) (hkind : m.kind = .put) (hstage : m.stage = .arrived) (hfirst : s.flowFirst m = true) :
    exec (.putAcceptanceCheck id) s = .next (if 3 ≤ s.sleep m.dstCore then s.asleepTo m m.dstCore else s.acceptPut m) := by
  rw [show exec (.putAcceptanceCheck id) s = execPutAcceptanceCheck id s from rfl, execPutAcceptanceCheck, h]
  exact congrArg Host.Outcome.next (if_pos ⟨hkind, hstage, hfirst⟩)

/-- What an answer to a message of this module adds to the net. -/
def State.ended (s : State) (m : NetMsg) (st : Nat) : List NetMsg := (s.net.filter fun k => k.id != m.id) ++ [m.answered st [] []]

section
variable (hkind : m.kind = .put) (hm : m.orgModule = s.module)
include hkind hm
theorem State.answer_put (st : Nat) : (s.answer m st [] [] n).net = s.ended m st ∧ (s.answer m st [] [] n).regs = s.regs ∧
    (s.answer m st [] [] n).pantry = s.pantry := by
  rw [State.answer_here (by rw [hkind]; decide) hm]
  exact ⟨State.lastNet_net .., State.lastNet_regs .., State.lastNet_pantry ..⟩
end

theorem State.module_setFld (s : State) {o : Nat} (f : Fld) (x : Nat) (ho : Reg.LNK_MODULE ≠ o) : (s.setFld o f x).module = s.module :=
  congrArg (Fld.get _) (State.rd_setFld_other _ _ _ _ ho)

/-- A PUT answered by a core in Retain or Dark. -/
theorem put_asleep (h : s.findNet id = some m) (hkind : m.kind = .put) (hstage : m.stage = .arrived) (hm : m.orgModule = s.module)
    (hfirst : s.flowFirst m = true) (hsleep : 3 ≤ s.sleep m.dstCore) : ∃ t, exec (.putAcceptanceCheck id) s = .next t ∧
      t.net = s.ended m (if s.samePart m = false then stPartition else if m.space ≠ 0 then stBadAddress else stAsleep) ∧ t.regs = s.regs := by
  have hbad : s.badAddress m = (m.space != 0) := by
    rw [State.badAddress, hkind]
  have hst : (if s.samePart m = false then stPartition else if s.badAddress m then stBadAddress else stAsleep) =
      if s.samePart m = false then stPartition else if m.space ≠ 0 then stBadAddress else stAsleep := by
    rw [hbad]
    simp only [bne_iff_ne]
  refine ⟨_, (exec_putCheck h hkind hstage hfirst).trans (congrArg Host.Outcome.next (if_pos hsleep)), ?_⟩
  rw [State.asleepTo, hst]
  obtain ⟨hnet, hregs, -⟩ := State.answer_put (n := m.dstCore) hkind hm
    (if s.samePart m = false then stPartition else if m.space ≠ 0 then stBadAddress else stAsleep)
  exact ⟨hnet, hregs⟩

theorem State.acceptPut_other (hkind : m.kind = .put) (hm : m.orgModule = s.module) (hsame : s.samePart m = false) :
    (s.acceptPut m).net = s.ended m stPartition := by
  have hat : s.acceptPut m = (s.setFld (Reg.CORE_STAT m.dstCore) Fl.CORE_STAT_RX_PARTITION 1).answer m stPartition [] [] m.dstCore :=
    if_pos (by rw [hsame]; decide)
  have hmod := s.module_setFld (o := Reg.CORE_STAT m.dstCore) Fl.CORE_STAT_RX_PARTITION 1 (by
    unfold Reg.LNK_MODULE Reg.CORE_STAT coreWin
    omega)
  rw [hat, (State.answer_put hkind (hm.trans hmod.symm) stPartition).1, State.ended, State.setFld_net]
  rfl

section
variable (hkind : m.kind = .put) (hm : m.orgModule = s.module) (hsame : s.samePart m = true) (hspace : m.space = 0)
include hsame hspace
theorem State.acceptPut_late (hlate : s.winState m.dstCore m.win = winClosed ∨ s.winGen m.dstCore m.win ≠ m.gen) :
    s.acceptPut m = s.latePut m :=
  (if_neg (by rw [hsame]; decide)).trans ((if_neg (fun h => h hspace)).trans (if_pos hlate))
section
variable (hopen : s.winState m.dstCore m.win ≠ winClosed) (hgen : s.winGen m.dstCore m.win = m.gen)
include hopen hgen
theorem State.acceptPut_window : s.acceptPut m =
    if m.off < 64 * s.fld (Reg.WDS_WIN_BASE m.dstCore m.win) Fl.WDS_WIN_BASE_BASE ∨
        64 * s.fld (Reg.WDS_WIN_BASE m.dstCore m.win) Fl.WDS_WIN_BASE_BASE + 64 * s.fld (Reg.WDS_WIN_LEN m.dstCore m.win) Fl.WDS_WIN_LEN_LEN <
          m.off + m.len then
      (s.setFld (Reg.CORE_STAT m.dstCore) Fl.CORE_STAT_RX_BOUNDS 1).answer m stBounds [] [] m.dstCore
    else (s.count (Reg.CORE_RX_COUNT m.dstCore)).putNet { m with stage := .accepted } :=
  (if_neg (by rw [hsame]; decide)).trans ((if_neg (fun h => h hspace)).trans (if_neg fun h => h.elim hopen fun h => h hgen))
end
end

/-! A late PUT (R202, R269). -/

/-- A late PUT counted at its window. -/
def State.lateCounted (s : State) (c w : Nat) : State :=
  (s.bump (Reg.WDS_WIN_LATE_COUNT c w) Fl.WDS_WIN_LATE_COUNT_COUNT).setFld (Reg.CORE_STAT c) Fl.CORE_STAT_RX_LATE 1
/-- The window of a pending LATE_PUT, where none is noted. -/
def State.lateNoted (s : State) (c w : Nat) : State :=
  if s.latePending c then s else { s with lateWin := swrite (fun _ => none) s.lateWin c (some w) }
theorem State.latePut_eq (s : State) (m : NetMsg) : s.latePut m =
    ((if (s.lateCounted m.dstCore m.win).flag (Reg.WDS_WIN_CTL m.dstCore m.win) Fl.WDS_WIN_CTL_LATE_TRAP then
        ((s.lateCounted m.dstCore m.win).lateNoted m.dstCore m.win).setFld (Reg.SEQ_STAT m.dstCore) Fl.SEQ_STAT_LATE_PENDING 1
      else s.lateCounted m.dstCore m.win).sendAway m.orgPart m.orgCore m.orgModule m.dstCore 0 (.winNotice m.win m.gen)).answer
        m stLate [] [] m.dstCore := rfl

/-- What the bookkeeping of a late PUT leaves of registers and bytes. -/
theorem State.lateNoted_regs (s : State) (c w : Nat) : (s.lateNoted c w).regs = s.regs := by
  rw [State.lateNoted]
  split
  · rfl
  · rfl
theorem State.lateNoted_pantry (s : State) (c w : Nat) : (s.lateNoted c w).pantry = s.pantry := by
  rw [State.lateNoted]
  split
  · rfl
  · rfl
theorem State.lateNoted_net (s : State) (c w : Nat) : (s.lateNoted c w).net = s.net := by
  rw [State.lateNoted]
  split
  · rfl
  · rfl

/-- A late PUT that the window's owner has been told of. -/
structure LateTold (c w : Nat) (s t : State) : Prop where
  rd : ∀ o, o ≠ Reg.WDS_WIN_LATE_COUNT c w → o ≠ Reg.CORE_STAT c → o ≠ Reg.SEQ_STAT c → t.rd o = s.rd o
  count : t.fld (Reg.WDS_WIN_LATE_COUNT c w) Fl.WDS_WIN_LATE_COUNT_COUNT =
    min (s.fld (Reg.WDS_WIN_LATE_COUNT c w) Fl.WDS_WIN_LATE_COUNT_COUNT + 1) (2 ^ 32 - 1)
  pending : t.latePending c = (s.latePending c || s.flag (Reg.WDS_WIN_CTL c w) Fl.WDS_WIN_CTL_LATE_TRAP)
  pantry : t.pantry = s.pantry
  net : t.net = s.net

theorem lateReg_apart (c w : Nat) : Reg.WDS_WIN_LATE_COUNT c w ≠ Reg.CORE_STAT c ∧ Reg.WDS_WIN_LATE_COUNT c w ≠ Reg.SEQ_STAT c ∧
    Reg.SEQ_STAT c ≠ Reg.CORE_STAT c ∧ Reg.WDS_WIN_CTL c w ≠ Reg.CORE_STAT c := by
  unfold Reg.WDS_WIN_LATE_COUNT Reg.CORE_STAT Reg.SEQ_STAT Reg.WDS_WIN_CTL
  omega
theorem ctlReg_ne_lateReg (c w : Nat) : Reg.WDS_WIN_CTL c w ≠ Reg.WDS_WIN_LATE_COUNT c w := by
  unfold Reg.WDS_WIN_LATE_COUNT Reg.WDS_WIN_CTL
  omega
theorem State.lateTold (s : State) (c w : Nat) : LateTold c w s
    (if (s.lateCounted c w).flag (Reg.WDS_WIN_CTL c w) Fl.WDS_WIN_CTL_LATE_TRAP then
      ((s.lateCounted c w).lateNoted c w).setFld (Reg.SEQ_STAT c) Fl.SEQ_STAT_LATE_PENDING 1 else s.lateCounted c w) := by
  obtain ⟨hlateStat, hlateSeq, hseqStat, hctlStat⟩ := lateReg_apart c w
  have hrd (o : Nat) (hl : o ≠ Reg.WDS_WIN_LATE_COUNT c w) (hs : o ≠ Reg.CORE_STAT c) : (s.lateCounted c w).rd o = s.rd o := by
    rw [State.lateCounted, State.rd_setFld_other _ _ _ _ hs, State.bump, State.rd_setFld_other _ _ _ _ hl]
  have hcount : (s.lateCounted c w).fld (Reg.WDS_WIN_LATE_COUNT c w) Fl.WDS_WIN_LATE_COUNT_COUNT =
      min (s.fld (Reg.WDS_WIN_LATE_COUNT c w) Fl.WDS_WIN_LATE_COUNT_COUNT + 1) (2 ^ 32 - 1) := by
    rw [State.lateCounted, State.fld_setFld_other _ _ _ _ _ _ hlateStat, State.fld_bump_same _ _ _ _ (by decide)]
    rfl
  have htrap : (s.lateCounted c w).flag (Reg.WDS_WIN_CTL c w) Fl.WDS_WIN_CTL_LATE_TRAP = s.flag (Reg.WDS_WIN_CTL c w) Fl.WDS_WIN_CTL_LATE_TRAP := by
    rw [State.flag, State.flag, State.fld, State.fld, hrd _ (ctlReg_ne_lateReg c w) hctlStat]
  have hpend : (s.lateCounted c w).latePending c = s.latePending c := by
    rw [State.latePending, State.latePending, State.flag, State.flag, State.fld, State.fld, hrd _ hlateSeq.symm hseqStat]
  have hpantry : (s.lateCounted c w).pantry = s.pantry := by
    rw [State.lateCounted, State.setFld_pantry, State.bump_pantry]
  have hnet : (s.lateCounted c w).net = s.net := by
    rw [State.lateCounted, State.setFld_net, State.bump_net]
  rw [htrap]
  generalize s.lateCounted c w = u at hrd hcount hpend hpantry hnet ⊢
  cases hflag : s.flag (Reg.WDS_WIN_CTL c w) Fl.WDS_WIN_CTL_LATE_TRAP with
  | false =>
    rw [if_neg Bool.false_ne_true]
    exact ⟨fun o hl hs _ => hrd o hl hs, hcount, by rw [hpend, hflag, Bool.or_false], hpantry, hnet⟩
  | true =>
    rw [if_pos rfl]
    have hnoted (o : Nat) : (u.lateNoted c w).rd o = u.rd o := State.rd_congr (u.lateNoted_regs c w) o
    refine ⟨fun o hl hs hq => ?_, ?_, ?_, ?_, ?_⟩
    · rw [State.rd_setFld_other _ _ _ _ hq, hnoted, hrd o hl hs]
    · rw [State.fld_setFld_other _ _ _ _ _ _ hlateSeq, State.fld, hnoted]
      exact hcount
    · rw [State.latePending, State.flag, State.fld_setFld_same _ _ _ _ (by decide), hflag, Bool.or_true]
      rfl
    · rw [State.setFld_pantry, State.lateNoted_pantry, hpantry]
    · rw [State.setFld_net, State.lateNoted_net, hnet]

theorem State.latePut_spec (hkind : m.kind = .put) (hm : m.orgModule = s.module) :
    (s.latePut m).net = s.ended m stLate ∧
      (s.latePut m).fld (Reg.WDS_WIN_LATE_COUNT m.dstCore m.win) Fl.WDS_WIN_LATE_COUNT_COUNT =
        min (s.fld (Reg.WDS_WIN_LATE_COUNT m.dstCore m.win) Fl.WDS_WIN_LATE_COUNT_COUNT + 1) (2 ^ 32 - 1) ∧
      (s.latePut m).latePending m.dstCore =
        (s.latePending m.dstCore || s.flag (Reg.WDS_WIN_CTL m.dstCore m.win) Fl.WDS_WIN_CTL_LATE_TRAP) ∧
      PantryKept s (s.latePut m) := by
  have htold := s.lateTold m.dstCore m.win
  rw [State.latePut_eq]
  generalize (if (s.lateCounted m.dstCore m.win).flag (Reg.WDS_WIN_CTL m.dstCore m.win) Fl.WDS_WIN_CTL_LATE_TRAP then
      ((s.lateCounted m.dstCore m.win).lateNoted m.dstCore m.win).setFld (Reg.SEQ_STAT m.dstCore) Fl.SEQ_STAT_LATE_PENDING 1
    else s.lateCounted m.dstCore m.win) = u at htold ⊢
  obtain ⟨hrd, hcount, hpending, hpantry, hnet⟩ := htold
  have hmod : m.orgModule = u.module := by
    refine hm.trans (congrArg (Fld.get _) (hrd _ ?_ ?_ ?_)).symm
    · unfold Reg.LNK_MODULE Reg.WDS_WIN_LATE_COUNT coreWin
      omega
    · unfold Reg.LNK_MODULE Reg.CORE_STAT coreWin
      omega
    · unfold Reg.LNK_MODULE Reg.SEQ_STAT coreWin
      omega
  rw [State.sendAway_here hmod]
  have hsent (o : Nat) : (u.sendPn m.orgCore m.orgModule m.dstCore 0 (.winNotice m.win m.gen)).rd o = u.rd o := State.rd_sendPn ..
  have hmod' : m.orgModule = (u.sendPn m.orgCore m.orgModule m.dstCore 0 (.winNotice m.win m.gen)).module :=
    hmod.trans (congrArg (Fld.get _) (hsent _)).symm
  have hpn : (u.sendPn m.orgCore m.orgModule m.dstCore 0 (.winNotice m.win m.gen)).net = s.net := (State.sendPn_net ..).trans hnet
  have hpp : (u.sendPn m.orgCore m.orgModule m.dstCore 0 (.winNotice m.win m.gen)).pantry = s.pantry := (State.sendPn_pantry ..).trans hpantry
  generalize u.sendPn m.orgCore m.orgModule m.dstCore 0 (.winNotice m.win m.gen) = v at hsent hmod' hpn hpp ⊢
  obtain ⟨hvnet, hvregs, hvpantry⟩ := State.answer_put (n := m.dstCore) hkind hmod' stLate
  have hv (o : Nat) : (v.answer m stLate [] [] m.dstCore).rd o = u.rd o := (State.rd_congr hvregs o).trans (hsent o)
  refine ⟨hvnet.trans (by rw [State.ended, State.ended, hpn]), (congrArg (Fld.get _) (hv _)).trans hcount, ?_,
    pantryKept_of_eq (hvpantry.trans hpp)⟩
  rw [State.latePending, State.flag, State.fld, hv]
  exact hpending

theorem State.putNet_net (s : State) (m : NetMsg) : (s.putNet m).net = s.net.map fun k => if k.id = m.id then m else k := rfl
theorem State.putNet_regs (s : State) (m : NetMsg) : (s.putNet m).regs = s.regs := rfl
theorem State.putNet_pantry (s : State) (m : NetMsg) : (s.putNet m).pantry = s.pantry := rfl
/-- A PUT that its window accepts. -/
theorem State.accepted_spec (s : State) (c : Nat) (m : NetMsg) :
    ((s.count (Reg.CORE_RX_COUNT c)).putNet m).net = (s.net.map fun k => if k.id = m.id then m else k) ∧
      ((s.count (Reg.CORE_RX_COUNT c)).putNet m).rd (Reg.CORE_RX_COUNT c) = s.rd (Reg.CORE_RX_COUNT c) + 1 ∧
      PantryKept s ((s.count (Reg.CORE_RX_COUNT c)).putNet m) := by
  refine ⟨?_, (State.rd_congr (State.putNet_regs ..) _).trans (s.rd_count_one _), pantryKept_of_eq ((State.putNet_pantry ..).trans (s.count_pantry _ _))⟩
  rw [State.putNet_net, State.count_net]

/-- Settles O21: the message that issues is the last of the net, and the checks of its arrival go in the order of R200. -/
theorem messagesAreSentAndAccepted : Obligations.MessagesAreSentAndAccepted := by
  unfold Obligations.MessagesAreSentAndAccepted
  refine ⟨?issue, ?arrive⟩
  case issue =>
    intro c f s hresv hlines src n target hsrc hfit hpos hmax hout htok hbound hgt e he hget hr
    simp only [List.mem_cons, List.not_mem_nil, or_false] at he
    obtain rfl | rfl := he
    · obtain ⟨t, hexec, m, hm⟩ := put_sends hresv hlines hsrc hfit hpos hmax hout htok hbound hgt hr
      exact ⟨t, m, hexec, hm⟩
    · obtain ⟨hwin, hgg⟩ := hget rfl
      have hill : (f.resv != 0 || f.win != 0 || f.gg != 0) = false := by
        rw [hresv, hwin, hgg]
        rfl
      obtain ⟨t, hexec, m, hm⟩ := get_sends hsrc hfit hpos hmax hout htok hbound hgt hill hr
      exact ⟨t, m, hexec, hm⟩
  case arrive =>
    intro id s m h hkind hstage hm _ _ hfirst c base len now answered
    have hawake (hsleep : s.sleep c < 3) : exec (.putAcceptanceCheck id) s = .next (s.acceptPut m) :=
      (exec_putCheck h hkind hstage hfirst).trans (congrArg Host.Outcome.next (if_neg (Nat.not_le.2 hsleep)))
    refine ⟨fun hsleep => put_asleep h hkind hstage hm hfirst hsleep,
      fun hsleep hsame => ⟨_, hawake hsleep, State.acceptPut_other hkind hm hsame⟩, fun hsleep hsame hspace => ⟨fun hlate => ?late, fun hopen hgen => ?opened⟩⟩
    case late =>
      refine ⟨_, hawake hsleep, ?_⟩
      rw [State.acceptPut_late hsame hspace hlate]
      exact State.latePut_spec hkind hm
    case opened =>
      have hat := State.acceptPut_window hsame hspace hopen hgen
      refine ⟨fun hout => ⟨_, hawake hsleep, ?_⟩, fun hlow hhigh => ⟨_, hawake hsleep, ?_⟩⟩
      · rw [hat, if_pos hout]
        have hmod := s.module_setFld (o := Reg.CORE_STAT m.dstCore) Fl.CORE_STAT_RX_BOUNDS 1 (by
          unfold Reg.LNK_MODULE Reg.CORE_STAT coreWin
          omega)
        obtain ⟨hnet, -, hpantry⟩ := State.answer_put (n := m.dstCore) hkind (hm.trans hmod.symm) stBounds
        exact ⟨hnet.trans (by rw [State.ended, State.setFld_net]; rfl), pantryKept_of_eq (hpantry.trans (State.setFld_pantry ..))⟩
      · rw [hat, if_neg fun hor => hor.elim (Nat.not_lt.2 hlow) (Nat.not_lt.2 hhigh)]
        exact s.accepted_spec m.dstCore { m with stage := .accepted }

end Sys2Proof.Machine
end

section
/-! PROOFS. Engine operations deliver their results at completion (O11). -/

namespace Sys2Proof.Machine

variable {s t u v : State} {k n : Nat} {c : CoreId} {o : EngOp}

/-! ## The queues settle (R182, R477) -/

/-- Nothing changed but what the end of an engine operation changes. -/
def OnlyEngEnd (s t : State) : Prop :=
  ∃ regs ops queue power active, t = { s with regs := regs, tokOps := ops, engOps := queue, power := power, engActive := active }
theorem OnlyEngEnd.refl (s : State) : OnlyEngEnd s s := ⟨_, _, _, _, _, rfl⟩
theorem OnlyEngEnd.trans (h : OnlyEngEnd s t) (h' : OnlyEngEnd t u) : OnlyEngEnd s u := by
  obtain ⟨_, _, _, _, _, rfl⟩ := h
  obtain ⟨_, _, _, _, _, rfl⟩ := h'
  exact ⟨_, _, _, _, _, rfl⟩
theorem OnlyEnd.onlyEngEnd (h : OnlyEnd s t) : OnlyEngEnd s t := by
  obtain ⟨_, _, _, rfl⟩ := h
  exact ⟨_, _, _, _, _, rfl⟩
theorem OnlyActive.onlyEngEnd (h : OnlyActive s t) : OnlyEngEnd s t := by
  obtain ⟨_, rfl⟩ := h
  exact ⟨_, _, _, _, _, rfl⟩
section
variable (h : OnlyEngEnd s t)
include h
theorem OnlyEngEnd.pantry : t.pantry = s.pantry := by obtain ⟨_, _, _, _, _, rfl⟩ := h; rfl
theorem OnlyEngEnd.biWant : t.biWant = s.biWant := by obtain ⟨_, _, _, _, _, rfl⟩ := h; rfl
theorem OnlyEngEnd.tiles : t.tiles = s.tiles := by obtain ⟨_, _, _, _, _, rfl⟩ := h; rfl
theorem OnlyEngEnd.acc : t.acc = s.acc := by obtain ⟨_, _, _, _, _, rfl⟩ := h; rfl
theorem OnlyEngEnd.accEcc : t.accEcc = s.accEcc := by obtain ⟨_, _, _, _, _, rfl⟩ := h; rfl
end

/-- An end of engine operations that leaves a token DONE. -/
structure EngEnds (c : CoreId) (k : Nat) (s t : State) : Prop where
  only : OnlyEngEnd s t
  done : s.Completed c k stOk → t.Completed c k stOk
theorem EngEnds.trans (h : EngEnds c k s t) (h' : EngEnds c k t u) : EngEnds c k s u :=
  ⟨h.only.trans h'.only, fun hd => h'.done (h.done hd)⟩
theorem EngEnds.refl : EngEnds c k s s := ⟨.refl s, id⟩

def State.dropEng (s : State) (o : EngOp) : State := { s with engOps := removeFirst o s.engOps }
theorem State.dropEng_regs (s : State) (o : EngOp) : (s.dropEng o).regs = s.regs := rfl
theorem State.dropEng_tokOps (s : State) (o : EngOp) : (s.dropEng o).tokOps = s.tokOps := rfl
theorem State.onlyEngEnd_dropEng (s : State) (o : EngOp) : OnlyEngEnd s (s.dropEng o) := ⟨_, _, _, _, _, rfl⟩

theorem State.onlyEngEnd_wr (s : State) (r : Nat) (v : DWord) : OnlyEngEnd s (s.wr r v) := ⟨_, _, _, _, _, rfl⟩
theorem EngWork.isMode_iff {w : EngWork} (h : w.isMode = true) : ∃ quad, w = .mode quad := by
  cases w with
  | mode quad => exact ⟨quad, rfl⟩
  | load _ _ _ _ _ => exact absurd h Bool.false_ne_true
  | run _ _ _ _ => exact absurd h Bool.false_ne_true
  | drain _ _ _ _ _ => exact absurd h Bool.false_ne_true
theorem State.modeDone_eq (s : State) (o : EngOp) (quad : Bool) : s.modeDone o quad =
    ((s.dropEng o).wr (Reg.ENG_QUAD o.core) (BitVec.ofNat 64 (modeBits quad (s.rd (Reg.ENG_QUAD o.core)).toNat o.mask))).tokComplete
      o.core o.tok stOk := rfl
/-- A change of mode leaves a token that is DONE. -/
theorem State.engEnds_modeDone (hk : k < 16) (hcore : o.core = c) (quad : Bool) (s : State) : EngEnds c k s (s.modeDone o quad) := by
  rw [State.modeDone_eq, hcore]
  refine ⟨((s.onlyEngEnd_dropEng o).trans (State.onlyEngEnd_wr ..)).trans (State.onlyEnd_tokComplete ..).onlyEngEnd, fun hd => ?_⟩
  have hdrop : (s.dropEng o).Completed c k stOk := hd.of_rd (State.rd_congr (State.dropEng_regs ..) _)
  exact (hdrop.of_rd (State.rd_wr_other _ _ _ _ (quadReg_ne_token c hk))).tokComplete c.isLt _
theorem State.engEnds_settleModes (hk : k < 16) (fuel : Nat) (s : State) : EngEnds c k s (State.settleModes c fuel s) := by
  induction fuel generalizing s with
  | zero => exact .refl
  | succ fuel ih =>
    cases hfind : s.engOps.find? fun q => q.core == c.val && q.work.isMode && s.engFront q with
    | none =>
      rw [State.settleModes, hfind]
      exact .refl
    | some q =>
      have hq := List.find?_some hfind
      simp only [Bool.and_eq_true, beq_iff_eq] at hq
      obtain ⟨quad, hwork⟩ := EngWork.isMode_iff hq.1.2
      have hstep := settleModes_mode (n := fuel) hwork (by rw [hq.1.1]; exact hfind)
      rw [hq.1.1] at hstep
      rw [hstep]
      exact (State.engEnds_modeDone hk hq.1.1 quad s).trans (ih _)
theorem State.onlyEngEnd_setClaim (s : State) (c b e : Nat) : OnlyEngEnd s (s.setClaim c b e) :=
  (s.onlyEngEnd_wr _ _).trans (State.onlyEngEnd_wr ..)
theorem State.onlyEngEnd_setDrop (s : State) (c : Nat) (x : Option (Nat × Nat)) : OnlyEngEnd s (s.setDrop c x) := ⟨_, _, _, _, _, rfl⟩
theorem State.engEnds_claimSettle (s : State) : EngEnds c k s (s.claimSettle c) := by
  rw [State.claimSettle]
  split
  · exact .refl
  · split
    · refine ⟨(s.onlyEngEnd_setDrop c none).trans (State.onlyEngEnd_setClaim ..), fun hd => ?_⟩
      exact (State.Completed.of_rd (t := s.setDrop c none) hd (State.rd_setDrop ..)).of_rd
        (State.rd_setClaim _ _ _ _ (tokenReg_ne_claim c k c c.isLt))
    · exact .refl
theorem State.engEnds_startEngines (s : State) : EngEnds c k s (s.startEngines c) :=
  ⟨(s.onlyActive_startEngines c).onlyEngEnd, fun hd => hd.of_rd (State.rd_congr (s.onlyActive_startEngines c).regs _)⟩
theorem State.engEnds_engSettle (hk : k < 16) (s : State) : EngEnds c k s (s.engSettle c) :=
  ((State.engEnds_settleModes hk _ s).trans (State.engEnds_claimSettle _)).trans (State.engEnds_startEngines _)
theorem State.onlyActive_stopEngines (s : State) (mask : Nat) : OnlyActive s (s.stopEngines c mask) := by
  refine List.foldlRecOn (motive := OnlyActive s) _ _ ⟨_, rfl⟩ fun t ht e _ => ?_
  obtain ⟨_, rfl⟩ := ht
  split
  · exact ⟨_, rfl⟩
  · exact ⟨_, rfl⟩
theorem State.engEnds_stopEngines (s : State) (mask : Nat) : EngEnds c k s (s.stopEngines c mask) :=
  ⟨(s.onlyActive_stopEngines mask).onlyEngEnd, fun hd => hd.of_rd (State.rd_congr (s.onlyActive_stopEngines mask).regs _)⟩

/-- An operation that ends leaves its token DONE. -/
theorem State.engEnd_done (hcore : o.core = c) (htok : o.tok = k) (hone : s.OneOp c k) :
    OnlyEngEnd s (s.engEnd o) ∧ (s.engEnd o).Completed c k stOk := by
  have hone' : (s.dropEng o).OneOp c k := hone.of_rd (State.rd_congr (State.dropEng_regs ..) _) (State.tokCount_congr (State.dropEng_tokOps ..) _ _)
  have hend : s.engEnd o = (s.dropEng o).tokComplete c k stOk := by
    rw [← hcore, ← htok]
    rfl
  rw [hend]
  exact ⟨(s.onlyEngEnd_dropEng o).trans (State.onlyEnd_tokComplete ..).onlyEngEnd,
    State.tokComplete_done c.isLt hone'.pending hone'.one hone'.ok (by decide)⟩

/-! ## What carrying out an operation leaves -/

/-- Carrying out an operation leaves the tokens, the modes, the bytes and the poison of the Pantries, and the lines. -/
structure Carried (c : CoreId) (s t : State) : Prop where
  token : ∀ k < 16, t.rd (Reg.SEQ_TOKEN c k) = s.rd (Reg.SEQ_TOKEN c k)
  quad : t.rd (Reg.ENG_QUAD c) = s.rd (Reg.ENG_QUAD c)
  tokOps : t.tokOps = s.tokOps
  pantry : t.pantry = s.pantry
  poison : ∀ x, t.poisonedAt c x = s.poisonedAt c x
  biWant : t.biWant = s.biWant
  tracked : t.tracked = s.tracked
theorem Carried.refl : Carried c s s := ⟨fun _ _ => rfl, rfl, rfl, rfl, fun _ => rfl, rfl, rfl⟩
theorem Carried.trans (h : Carried c s t) (h' : Carried c t u) : Carried c s u :=
  ⟨fun k hk => (h'.token k hk).trans (h.token k hk), h'.quad.trans h.quad, h'.tokOps.trans h.tokOps, h'.pantry.trans h.pantry,
    fun x => (h'.poison x).trans (h.poison x), h'.biWant.trans h.biWant, h'.tracked.trans h.tracked⟩
section
variable (h : Carried c s t)
include h
theorem Carried.oneOp (hone : s.OneOp c k) : t.OneOp c k := hone.of_rd (h.token k hone.range) (State.tokCount_congr h.tokOps _ _)
theorem Carried.engQuad (e : Nat) : t.engQuad c e = s.engQuad c e := by rw [State.engQuad, State.engQuad, h.quad]
theorem Carried.quadOf (hcore : o.core = c) (e : Nat) : t.quadOf o e = s.quadOf o e := by
  rw [State.quadOf, State.quadOf, hcore, h.engQuad]
theorem Carried.operandBad (off pair i : Nat) : t.operandBad c off pair i = s.operandBad c off pair i := by
  rw [State.operandBad, State.operandBad, h.poison, h.poison]
theorem Carried.operands (off n pair : Nat) (e5 : Bool) : t.operands c off n pair e5 = s.operands c off n pair e5 := by
  unfold State.operands State.byte
  simp only [h.operandBad, h.pantry]
theorem Carried.badOperands (off n pair : Nat) : t.badOperands c off n pair = s.badOperands c off n pair := by
  unfold State.badOperands
  simp only [h.operandBad]
end

/-- The registers that carrying out an operation writes: counters and sticky bits of the engines and of rounding. -/
def engReg (c : CoreId) (o : Nat) : Prop := ∃ j, 0x20100 ≤ j ∧ o = coreWin c + j
theorem State.carried_wr {r : Nat} (hr : engReg c r) (v : DWord) : Carried c s (s.wr r v) := by
  obtain ⟨j, hj, rfl⟩ := hr
  refine ⟨fun k hk => State.rd_wr_other _ _ _ _ ?_, State.rd_wr_other _ _ _ _ ?_, State.wr_tokOps .., State.wr_pantry .., fun x => ?_,
    State.wr_biWant .., State.wr_tracked ..⟩
  · unfold Reg.SEQ_TOKEN
    omega
  · unfold Reg.ENG_QUAD
    omega
  · exact State.poisonedAt_congr (State.wr_pantryEcc ..) c x
theorem State.carried_setFld {r : Nat} (hr : engReg c r) (f : Fld) (x : Nat) : Carried c s (s.setFld r f x) := State.carried_wr hr _
theorem State.carried_sticky {r : Nat} (hr : engReg c r) (f : Fld) (b : Bool) : Carried c s (s.sticky r f b) := by
  rw [State.sticky]
  split
  · exact State.carried_setFld hr f 1
  · exact .refl
theorem State.carried_checkRange (h : s.tracked = []) (off n : Nat) : Carried c s (s.checkRange c off n) := by
  have hchecks := State.onlyChecks_checkRange h c off n
  refine ⟨fun k hk => hchecks.rd _ (tokenReg_ne_checkRegs _ _ _ hk), hchecks.rd _ ?_, hchecks.tokOps, hchecks.pantry,
    fun x => State.poisonedAt_checkRange h c off n c x, hchecks.biWant, hchecks.tracked⟩
  unfold Reg.ENG_QUAD
  exact winReg_not_checkRegs c (by decide)
theorem State.carried_noteFlags (f : ConvFlags) : Carried c s (s.noteFlags c f) := by
  have hr : engReg c (Reg.RND_STATUS c) := ⟨0x38004, by decide, rfl⟩
  exact ((State.carried_sticky hr _ _).trans (State.carried_sticky hr _ _)).trans
    ((State.carried_sticky hr _ _).trans (State.carried_sticky hr _ _))
theorem State.carried_noteConv (f : ConvFlags) : Carried c s (s.noteConv c f) := by
  rw [State.noteConv]
  split
  · exact (State.carried_noteFlags f).trans (State.carried_setFld ⟨0x38008, by decide, rfl⟩ _ _)
  · exact State.carried_noteFlags f

theorem maskList_nodup (n v : Nat) : (maskList n v).Nodup := List.Nodup.filter _ List.nodup_range
theorem maskList_lt {n v e : Nat} (h : e ∈ maskList n v) : e < n := (mem_maskList.1 h).1

/-! ## Loads -/

/-- The tile that the `k`-th engine of a load's mask takes. -/
def State.loadedTile (s : State) (c pair : Nat) (fw fx : Bool) (src stride e k : Nat) : Tile :=
  ⟨pair, fw, fx, s.operands c (src + k * stride) (tileBytes pair (s.engQuad c e)) pair fw,
    s.badOperands c (src + k * stride) (tileBytes pair (s.engQuad c e)) pair⟩
def State.putTile (s : State) (k : Nat) (x : Tile) : State := { s with tiles := swrite (fun _ => tileZero) s.tiles k x }
/-- One engine of a load. -/
def State.loadOne (s : State) (o : EngOp) (pair : Nat) (fw fx : Bool) (src stride : Nat) (p : Nat × Nat) : State :=
  (((s.checkRange o.core (src + p.2 * stride) (tileBytes pair (s.engQuad o.core p.1))).sticky (Reg.RND_STATUS o.core) Fl.RND_STATUS_NONFINITE
    (!(s.loadedTile o.core pair fw fx src stride p.1 p.2).bad.isEmpty))).putTile
    (tileKey o.core p.1 (((s.checkRange o.core (src + p.2 * stride) (tileBytes pair (s.engQuad o.core p.1))).sticky (Reg.RND_STATUS o.core)
      Fl.RND_STATUS_NONFINITE (!(s.loadedTile o.core pair fw fx src stride p.1 p.2).bad.isEmpty)).quadOf o p.1))
    (s.loadedTile o.core pair fw fx src stride p.1 p.2)
theorem State.applyLoad_eq (s : State) (o : EngOp) (pair : Nat) (fw fx : Bool) (src stride : Nat) :
    s.applyLoad o pair fw fx src stride =
      (maskList 24 o.mask).zipIdx.foldl (fun s p => s.loadOne o pair fw fx src stride p) s := rfl

section
variable {pair src stride : Nat} {fw fx : Bool}

theorem State.carried_putTile (s : State) (k : Nat) (x : Tile) : Carried c s (s.putTile k x) :=
  ⟨fun _ _ => rfl, rfl, rfl, rfl, fun _ => rfl, rfl, rfl⟩
theorem State.tile_putTile (s : State) (c e q : Nat) (k : Nat) (x : Tile) :
    (s.putTile k x).tile c e q = if tileKey c e q = k then x else s.tile c e q := by
  rw [State.tile, State.putTile]
  dsimp only
  rw [sread_swrite]
  rfl
theorem OnlyChecks.tile {d : Nat} (h : OnlyChecks d s t) (c e q : Nat) : t.tile c e q = s.tile c e q := by
  rw [State.tile, h.tiles]
  rfl
theorem State.tile_sticky (s : State) (r : Nat) (f : Fld) (b : Bool) (c e q : Nat) : (s.sticky r f b).tile c e q = s.tile c e q := by
  rw [State.sticky]
  split
  · rw [State.tile, State.setFld_tiles]
    rfl
  · rfl
theorem State.quadOf_lt (s : State) (hq : o.quadrant < 4) (e : Nat) : s.quadOf o e < 4 := by
  rw [State.quadOf]
  split
  · exact hq
  · decide

/-- One engine of a load. -/
theorem State.loadOne_spec (hcore : o.core = c) (hlines : s.tracked = []) (p : Nat × Nat) : Carried c s (s.loadOne o pair fw fx src stride p) ∧
    ∀ e q, (s.loadOne o pair fw fx src stride p).tile c e q = if tileKey c e q = tileKey c p.1 (s.quadOf o p.1) then
      s.loadedTile c pair fw fx src stride p.1 p.2 else s.tile c e q := by
  have hcheck := State.carried_checkRange (c := c) hlines (src + p.2 * stride) (tileBytes pair (s.engQuad c p.1))
  have htile (e q : Nat) := (State.onlyChecks_checkRange hlines c (src + p.2 * stride) (tileBytes pair (s.engQuad c p.1))).tile c e q
  rw [State.loadOne, hcore]
  generalize s.checkRange c (src + p.2 * stride) (tileBytes pair (s.engQuad c p.1)) = u at hcheck htile ⊢
  have hsticky : Carried c u (u.sticky (Reg.RND_STATUS c) Fl.RND_STATUS_NONFINITE (!(s.loadedTile c pair fw fx src stride p.1 p.2).bad.isEmpty)) :=
    State.carried_sticky ⟨0x38004, by decide, rfl⟩ _ _
  have hst (e q : Nat) := u.tile_sticky (Reg.RND_STATUS c) Fl.RND_STATUS_NONFINITE (!(s.loadedTile c pair fw fx src stride p.1 p.2).bad.isEmpty) c e q
  generalize u.sticky (Reg.RND_STATUS c) Fl.RND_STATUS_NONFINITE (!(s.loadedTile c pair fw fx src stride p.1 p.2).bad.isEmpty) = v at hsticky hst ⊢
  have hall := hcheck.trans hsticky
  refine ⟨hall.trans (v.carried_putTile _ _), fun e q => ?_⟩
  rw [State.tile_putTile, hall.quadOf hcore, hst, htile]

theorem tileKey_inj {c e e' q q' : Nat} (hq : q < 4) (hq' : q' < 4) (h : tileKey c e q = tileKey c e' q') : e = e' := by
  unfold tileKey at h
  omega
theorem Carried.loadedTile (h : Carried c s t) (e k : Nat) :
    t.loadedTile c pair fw fx src stride e k = s.loadedTile c pair fw fx src stride e k := by
  rw [State.loadedTile, State.loadedTile, h.engQuad, h.operands, h.badOperands]

/-- The engines of a load in turn. -/
theorem State.loads_spec (hcore : o.core = c) (hq : o.quadrant < 4) (l : List (Nat × Nat)) (hnodup : (l.map Prod.fst).Nodup) (s : State)
    (hlines : s.tracked = []) : Carried c s (l.foldl (fun (s : State) p => s.loadOne o pair fw fx src stride p) s) ∧
      (∀ e, e ∉ l.map Prod.fst → ∀ q < 4, (l.foldl (fun (s : State) p => s.loadOne o pair fw fx src stride p) s).tile c e q = s.tile c e q) ∧
      ∀ p ∈ l, (l.foldl (fun (s : State) p => s.loadOne o pair fw fx src stride p) s).tile c p.1 (s.quadOf o p.1) =
        s.loadedTile c pair fw fx src stride p.1 p.2 := by
  induction l generalizing s with
  | nil => exact ⟨.refl, fun _ _ _ _ => rfl, fun p hp => absurd hp List.not_mem_nil⟩
  | cons p l ih =>
    obtain ⟨hp, hl⟩ := List.nodup_cons.1 hnodup
    obtain ⟨hcarried, htile⟩ := s.loadOne_spec (pair := pair) (fw := fw) (fx := fx) (src := src) (stride := stride) hcore hlines p
    rw [List.foldl_cons]
    generalize s.loadOne o pair fw fx src stride p = u at hcarried htile ⊢
    obtain ⟨hrest, hothers, hthese⟩ := ih hl u (hcarried.tracked.trans hlines)
    refine ⟨hcarried.trans hrest, fun e he q hq' => ?_, List.forall_mem_cons.2 ⟨?_, fun p' hp' => ?_⟩⟩
    · rw [List.map_cons, List.mem_cons, not_or] at he
      obtain ⟨hne, hnot⟩ := he
      rw [hothers e hnot q hq', htile, if_neg fun h => hne (tileKey_inj hq' (s.quadOf_lt hq _) h)]
    · rw [hothers p.1 hp _ (s.quadOf_lt hq _), htile, if_pos rfl]
    · rw [← hcarried.quadOf hcore, hthese p' hp', hcarried.loadedTile]
end

/-! ## Runs -/

theorem State.accAt_congr (hacc : t.acc = s.acc) (hecc : t.accEcc = s.accEcc) (k : Nat) : t.accAt k = s.accAt k := by
  rw [State.accAt, State.accAt, State.accLost, State.accLost, State.accMark, State.accMark, hacc, hecc]
theorem State.accAt_setAcc (s : State) (k : Nat) (a : AccEntry) (j : Nat) : (s.setAcc k a).accAt j = if j = k then a else s.accAt j := by
  rw [State.accAt, State.accLost, State.accMark, State.setAcc]
  dsimp only
  rw [sread_swrite, sread_swrite]
  by_cases hj : j = k
  · rw [if_pos hj, if_pos hj, if_pos hj]
    rfl
  · rw [if_neg hj, if_neg hj, if_neg hj]
    rfl
theorem State.carried_setAcc (s : State) (k : Nat) (a : AccEntry) : Carried c s (s.setAcc k a) :=
  ⟨fun _ _ => rfl, rfl, rfl, rfl, fun _ => rfl, rfl, rfl⟩

/-- A check of entries leaves every entry as it reads. -/
structure AccChecked (c : CoreId) (s t : State) : Prop where
  carried : Carried c s t
  accAt : ∀ k, t.accAt k = s.accAt k
  tiles : t.tiles = s.tiles
theorem AccChecked.refl : AccChecked c s s := ⟨.refl, fun _ => rfl, rfl⟩
theorem AccChecked.trans (h : AccChecked c s t) (h' : AccChecked c t u) : AccChecked c s u :=
  ⟨h.carried.trans h'.carried, fun k => (h'.accAt k).trans (h.accAt k), h'.tiles.trans h.tiles⟩
def State.markAcc (s : State) (k : Nat) (m : EccMark) : State := { s with accEcc := swrite (fun _ => .clean) s.accEcc k m }
theorem State.accAt_markAcc (s : State) (k : Nat) (m : EccMark) (h : (m == .uncorrectable || m == .poisoned) = s.accLost k) (j : Nat) :
    (s.markAcc k m).accAt j = s.accAt j := by
  have hlost : (s.markAcc k m).accLost j = s.accLost j := by
    rw [State.accLost, State.accMark, State.markAcc]
    dsimp only
    rw [sread_swrite]
    by_cases hj : j = k
    · rw [if_pos hj, h, hj]
    · rw [if_neg hj]
      rfl
  rw [State.accAt, hlost]
  rfl
theorem State.accChecked_markAcc (s : State) (k : Nat) (m : EccMark) (h : (m == .uncorrectable || m == .poisoned) = s.accLost k) :
    AccChecked c s (s.markAcc k m) :=
  ⟨⟨fun _ _ => rfl, rfl, rfl, rfl, fun _ => rfl, rfl, rfl⟩, s.accAt_markAcc k m h, rfl⟩
theorem State.accChecked_noteError (s : State) (d : Nat) (ue : Bool) : AccChecked c s (s.noteError d ue) :=
  ⟨⟨fun _ _ => rfl, rfl, rfl, rfl, fun _ => rfl, rfl, rfl⟩, fun _ => rfl, rfl⟩
theorem State.accChecked_checkAcc (s : State) (d k : Nat) : AccChecked c s (s.checkAcc d k) := by
  rw [State.checkAcc]
  cases hmark : s.accMark k with
  | clean => exact .refl
  | poisoned => exact .refl
  | correctable =>
    exact (s.accChecked_markAcc k .clean (by rw [State.accLost, hmark]; rfl)).trans (State.accChecked_noteError ..)
  | uncorrectable =>
    exact (s.accChecked_markAcc k .poisoned (by rw [State.accLost, hmark]; rfl)).trans (State.accChecked_noteError ..)
theorem State.accChecked_checkAccs (s : State) (d k n : Nat) : AccChecked c s (s.checkAccs d k n) := by
  rw [State.checkAccs]
  split
  · exact .refl
  · exact List.foldlRecOn (motive := AccChecked c s) _ _ .refl fun t ht i _ => ht.trans (t.accChecked_checkAcc d (k + i))

section
variable {m src acc e : Nat} {add : Bool} {b : State}

/-- What a run leaves in an entry for output `p.2` of vector `p.1`, read from state `b`. -/
def State.runEntry (b : State) (o : EngOp) (e src : Nat) (add : Bool) (p : Nat × Nat) (a : AccEntry) : AccEntry × ConvFlags :=
  accumulate a (decide ((b.tile o.core e (b.quadOf o e)).pair = 1) || decide ((b.tile o.core e (b.quadOf o e)).pair = 3)) add
    (dotOut (b.tile o.core e (b.quadOf o e)) (b.engQuad o.core e) (b.operands o.core
      (src + p.1 * vecBytes (b.tile o.core e (b.quadOf o e)).pair (b.engQuad o.core e))
      (vecBytes (b.tile o.core e (b.quadOf o e)).pair (b.engQuad o.core e)) (b.tile o.core e (b.quadOf o e)).pair
      (b.tile o.core e (b.quadOf o e)).fmtX) p.2)
    (dotBad (b.tile o.core e (b.quadOf o e)) (b.engQuad o.core e) (b.badOperands o.core
      (src + p.1 * vecBytes (b.tile o.core e (b.quadOf o e)).pair (b.engQuad o.core e))
      (vecBytes (b.tile o.core e (b.quadOf o e)).pair (b.engQuad o.core e)) (b.tile o.core e (b.quadOf o e)).pair) p.2)
def State.runKey (b : State) (o : EngOp) (e acc : Nat) (p : Nat × Nat) : Nat :=
  accKey o.core e (b.quadOf o e) (acc + p.1 * tileOuts (b.engQuad o.core e) + p.2)
/-- One output of a run goes to its entry. -/
def State.runOutput (b : State) (o : EngOp) (e src acc : Nat) (add : Bool) (st : State × ConvFlags) (p : Nat × Nat) : State × ConvFlags :=
  (st.1.setAcc (b.runKey o e acc p) (b.runEntry o e src add p (st.1.accAt (b.runKey o e acc p))).1,
    st.2.or (b.runEntry o e src add p (st.1.accAt (b.runKey o e acc p))).2)
theorem State.runEngine_eq (b : State) (o : EngOp) (e m src acc : Nat) (add : Bool) : b.runEngine o e m src acc add =
    (List.product (List.range m) (List.range (tileOuts (b.engQuad o.core e)))).foldl (b.runOutput o e src acc add) (b, .none) := by
  rw [List.product, List.foldl_flatMap]
  simp only [List.foldl_map]
  rfl

/-- Outputs that go to different entries. -/
theorem State.runOutputs_spec (l : List (Nat × Nat)) (hnodup : (l.map (b.runKey o e acc)).Nodup) (st : State × ConvFlags) :
    Carried c st.1 (l.foldl (b.runOutput o e src acc add) st).1 ∧ (l.foldl (b.runOutput o e src acc add) st).1.tiles = st.1.tiles ∧
      (∀ k, k ∉ l.map (b.runKey o e acc) → (l.foldl (b.runOutput o e src acc add) st).1.accAt k = st.1.accAt k) ∧
      ∀ p ∈ l, (l.foldl (b.runOutput o e src acc add) st).1.accAt (b.runKey o e acc p) =
        (b.runEntry o e src add p (st.1.accAt (b.runKey o e acc p))).1 := by
  induction l generalizing st with
  | nil => exact ⟨.refl, rfl, fun _ _ => rfl, fun p hp => absurd hp List.not_mem_nil⟩
  | cons p l ih =>
    obtain ⟨hp, hl⟩ := List.nodup_cons.1 hnodup
    rw [List.foldl_cons]
    obtain ⟨hcarried, htiles, hothers, hthese⟩ := ih hl (b.runOutput o e src acc add st p)
    have hacc (k : Nat) : (b.runOutput o e src acc add st p).1.accAt k = if k = b.runKey o e acc p then
        (b.runEntry o e src add p (st.1.accAt (b.runKey o e acc p))).1 else st.1.accAt k := State.accAt_setAcc ..
    refine ⟨(State.carried_setAcc ..).trans hcarried, htiles, fun k hk => ?_, List.forall_mem_cons.2 ⟨?_, fun p' hp' => ?_⟩⟩
    · rw [List.map_cons, List.mem_cons, not_or] at hk
      rw [hothers k hk.2, hacc, if_neg hk.1]
    · rw [hothers _ hp, hacc, if_pos rfl]
    · rw [hthese p' hp', hacc, if_neg fun h => hp (List.mem_map.2 ⟨p', hp', h⟩)]

theorem runKey_inj {p p' : Nat × Nat} (hp : p.2 < tileOuts (b.engQuad o.core e)) (hp' : p'.2 < tileOuts (b.engQuad o.core e))
    (h : b.runKey o e acc p = b.runKey o e acc p') : p = p' := by
  generalize hn : tileOuts (b.engQuad o.core e) = n at hp hp'
  rw [State.runKey, State.runKey, accKey, accKey, hn] at h
  have heq : p.2 + n * p.1 = p'.2 + n * p'.1 := by
    rw [Nat.mul_comm n, Nat.mul_comm n]
    omega
  have hpos : 0 < n := by omega
  have hmod := congrArg (· % n) heq
  have hdiv := congrArg (· / n) heq
  simp only [Nat.add_mul_mod_self_left, Nat.mod_eq_of_lt hp, Nat.mod_eq_of_lt hp'] at hmod
  simp only [Nat.add_mul_div_left _ _ hpos, Nat.div_eq_of_lt hp, Nat.div_eq_of_lt hp', Nat.zero_add] at hdiv
  exact Prod.ext hdiv hmod

/-- The entries of an engine lie apart from those of another. -/
theorem accKey_engine {c e e' q q' i i' : Nat} (h : accKey c e q i = accKey c e' q' i') (hi : q * 4096 + i < 16384)
    (hi' : q' * 4096 + i' < 16384) : e = e' := by
  unfold accKey at h
  omega
theorem State.entry_lt (hcore : o.core = c) (hq : o.quadrant < 4) {i : Nat} (hi : i < accSize (b.engQuad c e)) : b.quadOf o e * 4096 + i < 16384 := by
  rw [State.quadOf, hcore]
  rw [accSize] at hi
  split
  · next h =>
    rw [if_pos h] at hi
    omega
  · next h =>
    rw [if_neg h] at hi
    omega
theorem run_entry_lt {m acc n size : Nat} {p : Nat × Nat} (hfit : acc + n * m ≤ size) (hm : p.1 < m) (hn : p.2 < n) :
    acc + p.1 * n + p.2 < size := by
  have hle : n * (p.1 + 1) ≤ n * m := Nat.mul_le_mul_left n hm
  rw [Nat.mul_add, Nat.mul_comm n p.1] at hle
  omega

/-- What a run in one engine does. -/
theorem State.runEngine_spec (b : State) (o : EngOp) (e m src acc : Nat) (add : Bool) :
    Carried c b (b.runEngine o e m src acc add).1 ∧ (b.runEngine o e m src acc add).1.tiles = b.tiles ∧
      (∀ k, (∀ p : Nat × Nat, p.1 < m → p.2 < tileOuts (b.engQuad o.core e) → k ≠ b.runKey o e acc p) →
        (b.runEngine o e m src acc add).1.accAt k = b.accAt k) ∧
      ∀ p : Nat × Nat, p.1 < m → p.2 < tileOuts (b.engQuad o.core e) →
        (b.runEngine o e m src acc add).1.accAt (b.runKey o e acc p) = (b.runEntry o e src add p (b.accAt (b.runKey o e acc p))).1 := by
  have hmem (p : Nat × Nat) : p ∈ List.product (List.range m) (List.range (tileOuts (b.engQuad o.core e))) ↔
      p.1 < m ∧ p.2 < tileOuts (b.engQuad o.core e) := by
    obtain ⟨j, n⟩ := p
    rw [List.pair_mem_product, List.mem_range, List.mem_range]
  have hnodup : ((List.product (List.range m) (List.range (tileOuts (b.engQuad o.core e)))).map (b.runKey o e acc)).Nodup :=
    (List.nodup_range.product List.nodup_range).map_on fun p hp p' hp' h => runKey_inj ((hmem p).1 hp).2 ((hmem p').1 hp').2 h
  rw [State.runEngine_eq]
  obtain ⟨hcarried, htiles, hothers, hthese⟩ := State.runOutputs_spec (c := c) (src := src) (add := add) _ hnodup (b, .none)
  refine ⟨hcarried, htiles, fun k hk => hothers k fun h => ?_, fun p hm hn => hthese p ((hmem p).2 ⟨hm, hn⟩)⟩
  obtain ⟨p, hp, rfl⟩ := List.mem_map.1 h
  exact hk p ((hmem p).1 hp).1 ((hmem p).1 hp).2 rfl

/-- One engine of a run, with the counters (R227). -/
def State.runOne (b : State) (o : EngOp) (m src acc : Nat) (add : Bool) (st : State × ConvFlags) (e : Nat) : State × ConvFlags :=
  let r := (st.1.checkAccs o.core (accKey o.core e (b.quadOf o e) acc) (if add then m * tileOuts (b.engQuad o.core e) else 0)).runEngine
    o e m src acc add
  ((((r.1.checkRange o.core src (m * vecBytes (b.tile o.core e (b.quadOf o e)).pair (b.engQuad o.core e))).count (Reg.ENG_ACTIVE o.core e)
    (runCycles (b.tile o.core e (b.quadOf o e)).pair m (b.engQuad o.core e))).bump (Reg.ENG_TILES o.core e) Fl.ENG_TILES_COUNT), st.2.or r.2)
theorem State.applyRun_eq (b : State) (o : EngOp) (m src acc : Nat) (add : Bool) : b.applyRun o m src acc add =
    ((maskList 24 o.mask).foldl (b.runOne o m src acc add) (b, .none)).1.noteConv o.core
      ((maskList 24 o.mask).foldl (b.runOne o m src acc add) (b, .none)).2 := rfl

theorem OnlyChecks.accChecked {d : Nat} (h : OnlyChecks d s t) (hcarried : Carried c s t) : AccChecked c s t :=
  ⟨hcarried, State.accAt_congr h.acc h.accEcc, h.tiles⟩
theorem State.accChecked_wr {r : Nat} (hr : engReg c r) (v : DWord) : AccChecked c s (s.wr r v) :=
  ⟨State.carried_wr hr v, State.accAt_congr (State.wr_acc ..) (State.wr_accEcc ..), State.wr_tiles ..⟩
theorem State.accChecked_sticky {r : Nat} (hr : engReg c r) (f : Fld) (x : Bool) : AccChecked c s (s.sticky r f x) := by
  rw [State.sticky]
  split
  · exact State.accChecked_wr hr _
  · exact .refl
theorem State.accChecked_noteConv (f : ConvFlags) : AccChecked c s (s.noteConv c f) := by
  have hr : engReg c (Reg.RND_STATUS c) := ⟨0x38004, by decide, rfl⟩
  have hflags : AccChecked c s (s.noteFlags c f) := ((State.accChecked_sticky hr _ _).trans (State.accChecked_sticky hr _ _)).trans
    ((State.accChecked_sticky hr _ _).trans (State.accChecked_sticky hr _ _))
  rw [State.noteConv]
  split
  · exact hflags.trans (State.accChecked_wr ⟨0x38008, by decide, rfl⟩ _)
  · exact hflags
theorem State.accChecked_checkRange (h : s.tracked = []) (off n : Nat) : AccChecked c s (s.checkRange c off n) :=
  (State.onlyChecks_checkRange h c off n).accChecked (State.carried_checkRange h off n)

section
variable (h : Carried c b s) (htiles : s.tiles = b.tiles)
include h htiles
theorem Carried.tile_quad (hcore : o.core = c) : s.tile o.core e (s.quadOf o e) = b.tile o.core e (b.quadOf o e) := by
  rw [h.quadOf hcore, State.tile, htiles]
  rfl
omit htiles in
theorem Carried.runKey (hcore : o.core = c) (p : Nat × Nat) : s.runKey o e acc p = b.runKey o e acc p := by
  rw [State.runKey, State.runKey, h.quadOf hcore, hcore, h.engQuad]
theorem Carried.runEntry (hcore : o.core = c) (p : Nat × Nat) (a : AccEntry) : s.runEntry o e src add p a = b.runEntry o e src add p a := by
  rw [State.runEntry, State.runEntry, h.tile_quad htiles hcore, hcore, h.engQuad, h.operands, h.badOperands]

/-- One engine of a run gives each of its entries what it reads. -/
theorem State.runOne_spec (hcore : o.core = c) (hlines : s.tracked = []) (f : ConvFlags) :
    Carried c s (b.runOne o m src acc add (s, f) e).1 ∧ (b.runOne o m src acc add (s, f) e).1.tiles = s.tiles ∧
      (∀ k, (∀ p : Nat × Nat, p.1 < m → p.2 < tileOuts (b.engQuad c e) → k ≠ b.runKey o e acc p) →
        (b.runOne o m src acc add (s, f) e).1.accAt k = s.accAt k) ∧
      ∀ p : Nat × Nat, p.1 < m → p.2 < tileOuts (b.engQuad c e) →
        (b.runOne o m src acc add (s, f) e).1.accAt (b.runKey o e acc p) = (b.runEntry o e src add p (s.accAt (b.runKey o e acc p))).1 := by
  have hchecked := s.accChecked_checkAccs (c := c) o.core (accKey o.core e (b.quadOf o e) acc)
    (if add then m * tileOuts (b.engQuad o.core e) else 0)
  rw [State.runOne]
  generalize s.checkAccs o.core (accKey o.core e (b.quadOf o e) acc) (if add then m * tileOuts (b.engQuad o.core e) else 0) = u at hchecked ⊢
  obtain ⟨hrun, hruntiles, hothers, hthese⟩ := u.runEngine_spec (c := c) o e m src acc add
  have hu := h.trans hchecked.carried
  have hut := hchecked.tiles.trans htiles
  simp only [hu.runKey hcore, hu.runEntry hut hcore, hchecked.accAt, hcore, hu.engQuad] at hothers hthese
  dsimp only
  generalize u.runEngine o e m src acc add = r at hrun hruntiles hothers hthese ⊢
  have hrange := State.accChecked_checkRange (c := c) (hrun.tracked.trans (hchecked.carried.tracked.trans hlines)) src
    (m * vecBytes (b.tile o.core e (b.quadOf o e)).pair (b.engQuad o.core e))
  rw [hcore] at hrange ⊢
  generalize r.1.checkRange c src (m * vecBytes (b.tile c e (b.quadOf o e)).pair (b.engQuad c e)) = v at hrange ⊢
  have hcount : AccChecked c v (v.count (Reg.ENG_ACTIVE c e) (runCycles (b.tile c e (b.quadOf o e)).pair m (b.engQuad c e))) :=
    State.accChecked_wr ⟨0x20100 + 0x20 * e, by omega, Nat.add_assoc ..⟩ _
  generalize v.count (Reg.ENG_ACTIVE c e) (runCycles (b.tile c e (b.quadOf o e)).pair m (b.engQuad c e)) = w at hcount ⊢
  have hbump : AccChecked c w (w.bump (Reg.ENG_TILES c e) Fl.ENG_TILES_COUNT) := State.accChecked_wr ⟨0x20110 + 0x20 * e, by omega, Nat.add_assoc ..⟩ _
  have htail := (hrange.trans hcount).trans hbump
  refine ⟨(hchecked.carried.trans hrun).trans htail.carried, htail.tiles.trans (hruntiles.trans hchecked.tiles),
    fun k hk => (htail.accAt k).trans (hothers k hk), fun p hm hn => (htail.accAt _).trans (hthese p hm hn)⟩
end

/-- The engines of a run in turn. -/
theorem State.runs_spec (hcore : o.core = c) (hq : o.quadrant < 4) (l : List Nat) (hnodup : l.Nodup)
    (hfit : ∀ e ∈ l, acc + tileOuts (b.engQuad c e) * m ≤ accSize (b.engQuad c e)) (st : State × ConvFlags) (h : Carried c b st.1)
    (htiles : st.1.tiles = b.tiles) (hlines : st.1.tracked = []) :
    Carried c st.1 (l.foldl (b.runOne o m src acc add) st).1 ∧
      (∀ e ∉ l, ∀ i, b.quadOf o e * 4096 + i < 16384 → (l.foldl (b.runOne o m src acc add) st).1.accAt (accKey c e (b.quadOf o e) i) =
        st.1.accAt (accKey c e (b.quadOf o e) i)) ∧
      ∀ e ∈ l, ∀ p : Nat × Nat, p.1 < m → p.2 < tileOuts (b.engQuad c e) →
        (l.foldl (b.runOne o m src acc add) st).1.accAt (b.runKey o e acc p) =
          (b.runEntry o e src add p (st.1.accAt (b.runKey o e acc p))).1 := by
  induction l generalizing st with
  | nil => exact ⟨.refl, fun _ _ _ _ => rfl, fun e he => absurd he List.not_mem_nil⟩
  | cons e l ih =>
    obtain ⟨he, hl⟩ := List.nodup_cons.1 hnodup
    obtain ⟨hfe, hfl⟩ := List.forall_mem_cons.1 hfit
    have hkey (e : Nat) (p : Nat × Nat) : b.runKey o e acc p = accKey c e (b.quadOf o e) (acc + p.1 * tileOuts (b.engQuad c e) + p.2) := by
      rw [State.runKey, hcore]
    have hin (e : Nat) (hf : acc + tileOuts (b.engQuad c e) * m ≤ accSize (b.engQuad c e)) (p : Nat × Nat) (hm : p.1 < m)
        (hn : p.2 < tileOuts (b.engQuad c e)) : b.quadOf o e * 4096 + (acc + p.1 * tileOuts (b.engQuad c e) + p.2) < 16384 :=
      State.entry_lt hcore hq (run_entry_lt hf hm hn)
    rw [List.foldl_cons]
    obtain ⟨hone, htone, hothers, hthese⟩ := State.runOne_spec (m := m) (src := src) (acc := acc) (e := e) (add := add) h htiles hcore hlines st.2
    generalize b.runOne o m src acc add st e = u at hone htone hothers hthese ⊢
    obtain ⟨hrest, hout, hdone⟩ := ih hl hfl u (h.trans hone) (htone.trans htiles) (hone.tracked.trans hlines)
    refine ⟨hone.trans hrest, fun e' he' i hi => ?_, List.forall_mem_cons.2 ⟨fun p hm hn => ?_, fun e' he' p hm hn => ?_⟩⟩
    · rw [List.mem_cons, not_or] at he'
      rw [hout e' he'.2 i hi]
      refine hothers _ fun p hm hn heq => he'.1 ?_
      rw [hkey] at heq
      exact accKey_engine heq hi (hin e hfe p hm hn)
    · rw [hkey, hout e he _ (hin e hfe p hm hn), ← hkey]
      exact hthese p hm hn
    · rw [hdone e' he' p hm hn, hothers _ fun p' hm' hn' heq => ?_]
      rw [hkey, hkey] at heq
      have hsame := accKey_engine heq (hin e' (hfl e' he') p hm hn) (hin e hfe p' hm' hn')
      exact he (hsame ▸ he')
end


/-! ## Drains -/

section
variable {entry dst df : Nat}

/-- The bytes of a drain that rounds to nearest for one engine. -/
def State.drained (s : State) (o : EngOp) (n entry df e : Nat) : List Byte :=
  ((List.range n).map fun i => leBytes (drainBytes df) (drainConv df .even (s.accAt (accKey o.core e (s.quadOf o e) (entry + i)))).code).flatten
theorem State.drained_length (s : State) (o : EngOp) (n entry df e : Nat) : (s.drained o n entry df e).length = n * drainBytes df := by
  rw [State.drained, List.length_flatten, List.map_map]
  refine (List.sum_eq_card_nsmul _ (drainBytes df) fun x hx => ?_).trans ?_
  · obtain ⟨i, -, rfl⟩ := List.mem_map.1 hx
    exact leBytes_length ..
  · rw [List.length_map, List.length_range, smul_eq_mul]
theorem State.drained_getD (s : State) (o : EngOp) (entry df e : Nat) {n i j : Nat} (hi : i < n) (hj : j < drainBytes df) :
    (s.drained o n entry df e).getD (drainBytes df * i + j) 0 =
      (leBytes (drainBytes df) (drainConv df .even (s.accAt (accKey o.core e (s.quadOf o e) (entry + i)))).code).getD j 0 := by
  refine flatten_getD (fun y hy => ?_) ?_ hj
  · obtain ⟨i, -, rfl⟩ := List.mem_map.1 hy
    exact leBytes_length ..
  · rw [List.getElem?_map, List.getElem?_range hi]
    rfl

/-- What a drain puts on to the flags of its conversions for one engine. -/
def State.drainFlags (b : State) (o : EngOp) (n entry df : Nat) (e : Nat) : ConvFlags × ConvFlags :=
  (convFlags ((List.range n).map fun i => drainConv df .even (b.accAt (accKey o.core e (b.quadOf o e) (entry + i)))),
    ⟨(List.range n).any fun i => b.accLost (accKey o.core e (b.quadOf o e) entry + i), false, false, false⟩)
/-- One engine of a drain that rounds to nearest. -/
def State.drainOne (b : State) (o : EngOp) (n entry dst df : Nat) (st : State × ConvFlags) (p : Nat × Nat) : State × ConvFlags :=
  ((st.1.store o.core (dst + p.2 * n * drainBytes df) (b.drained o n entry df p.1)).checkAccs o.core (accKey o.core p.1 (b.quadOf o p.1) entry) n,
    (st.2.or (b.drainFlags o n entry df p.1).1).or (b.drainFlags o n entry df p.1).2)
theorem List.flatten_map_map {α β : Type} (f : α → List β) {γ : Type} (g : γ → α) (l : List γ) :
    ((l.map g).map f).flatten = (l.map fun x => f (g x)).flatten := by
  rw [List.map_map]
  rfl
theorem State.applyDrain_eq (s : State) (o : EngOp) (n entry dst df : Nat) : s.applyDrain o n entry dst df false =
    ((maskList 24 o.mask).zipIdx.foldl (s.drew.drainOne o n entry dst df) (s.drew, .none)).1.noteConv o.core
      ((maskList 24 o.mask).zipIdx.foldl (s.drew.drainOne o n entry dst df) (s.drew, .none)).2 := by
  have hstep : s.drew.drainOne o n entry dst df = fun st p => ((st.1.store o.core (dst + p.2 * n * drainBytes df)
      (((List.range n).map fun i => drainConv df .even (s.drew.accAt (accKey o.core p.1 (s.drew.quadOf o p.1) (entry + i)))).map
        fun v => leBytes (drainBytes df) v.code).flatten).checkAccs o.core (accKey o.core p.1 (s.drew.quadOf o p.1) entry) n,
      (st.2.or (s.drew.drainFlags o n entry df p.1).1).or (s.drew.drainFlags o n entry df p.1).2) := by
    funext st p
    rw [List.flatten_map_map, State.drainOne, State.drained]
  rw [hstep]
  rfl

/-- A drain leaves the tokens and the lines. -/
structure Drained (c : CoreId) (s t : State) : Prop where
  token : ∀ k < 16, t.rd (Reg.SEQ_TOKEN c k) = s.rd (Reg.SEQ_TOKEN c k)
  tokOps : t.tokOps = s.tokOps
  biWant : t.biWant = s.biWant
  tracked : t.tracked = s.tracked
  scrubbing : t.scrubbing c = s.scrubbing c
  retained : t.flag Reg.DUMP_STAT Fl.DUMP_STAT_RETAINED = s.flag Reg.DUMP_STAT Fl.DUMP_STAT_RETAINED
theorem Drained.refl : Drained c s s := ⟨fun _ _ => rfl, rfl, rfl, rfl, rfl, rfl⟩
theorem Drained.trans (h : Drained c s t) (h' : Drained c t u) : Drained c s u :=
  ⟨fun k hk => (h'.token k hk).trans (h.token k hk), h'.tokOps.trans h.tokOps, h'.biWant.trans h.biWant, h'.tracked.trans h.tracked,
    h'.scrubbing.trans h.scrubbing, h'.retained.trans h.retained⟩
/-- A check of entries changes nothing but their marks and the times of errors. -/
def OnlyAccMarks (s t : State) : Prop := ∃ marks faults, t = { s with accEcc := marks, faults := faults }
theorem OnlyAccMarks.trans (h : OnlyAccMarks s t) (h' : OnlyAccMarks t u) : OnlyAccMarks s u := by
  obtain ⟨_, _, rfl⟩ := h
  obtain ⟨_, _, rfl⟩ := h'
  exact ⟨_, _, rfl⟩
theorem State.onlyAccMarks_checkAcc (s : State) (d k : Nat) : OnlyAccMarks s (s.checkAcc d k) := by
  rw [State.checkAcc]
  cases s.accMark k with
  | clean => exact ⟨_, _, rfl⟩
  | poisoned => exact ⟨_, _, rfl⟩
  | correctable => exact ⟨_, _, rfl⟩
  | uncorrectable => exact ⟨_, _, rfl⟩
theorem State.onlyAccMarks_checkAccs (s : State) (d k n : Nat) : OnlyAccMarks s (s.checkAccs d k n) := by
  rw [State.checkAccs]
  split
  · exact ⟨_, _, rfl⟩
  · exact List.foldlRecOn (motive := OnlyAccMarks s) _ _ ⟨_, _, rfl⟩ fun t ht i _ => ht.trans (t.onlyAccMarks_checkAcc d (k + i))
theorem OnlyAccMarks.regs (h : OnlyAccMarks s t) : t.regs = s.regs := by obtain ⟨_, _, rfl⟩ := h; rfl
theorem OnlyAccMarks.pantry (h : OnlyAccMarks s t) : t.pantry = s.pantry := by obtain ⟨_, _, rfl⟩ := h; rfl
theorem OnlyAccMarks.tokOps (h : OnlyAccMarks s t) : t.tokOps = s.tokOps := by obtain ⟨_, _, rfl⟩ := h; rfl
theorem OnlyAccMarks.biWant (h : OnlyAccMarks s t) : t.biWant = s.biWant := by obtain ⟨_, _, rfl⟩ := h; rfl
theorem OnlyAccMarks.tracked (h : OnlyAccMarks s t) : t.tracked = s.tracked := by obtain ⟨_, _, rfl⟩ := h; rfl
theorem State.flag_congr {r : Nat} (h : t.rd r = s.rd r) (f : Fld) : t.flag r f = s.flag r f := by rw [State.flag, State.flag, State.fld, State.fld, h]
theorem State.scrubbing_congr (h : t.rd (Reg.CORE_STAT k) = s.rd (Reg.CORE_STAT k)) : t.scrubbing k = s.scrubbing k := State.flag_congr h _
theorem OnlyAccMarks.drained (h : OnlyAccMarks s t) : Drained c s t :=
  ⟨fun _ _ => State.rd_congr h.regs _, h.tokOps, h.biWant, h.tracked, State.scrubbing_congr (State.rd_congr h.regs _),
    State.flag_congr (State.rd_congr h.regs _) _⟩
theorem retained_not_checkRegs (c : CoreId) : Reg.DUMP_STAT ∉ checkRegs c := by
  unfold checkRegs Reg.CORE_STAT Reg.CORE_ECC_COUNT coreWin
  simp only [List.mem_cons, List.not_mem_nil, or_false, not_or]
  refine ⟨?_, ?_, by decide, by decide⟩ <;> · unfold Reg.DUMP_STAT; omega
theorem OnlyStores.drained (h : OnlyStores c s t) : Drained c s t :=
  ⟨fun _ hk => h.rd _ (tokenReg_ne_checkRegs _ _ _ hk), h.tokOps, h.biWant, h.tracked, h.scrubbing,
    State.flag_congr (h.rd _ (retained_not_checkRegs c)) _⟩
theorem State.byte_storeNow_before (h : s.tracked = []) (d o : Nat) (bs : List Byte) {x : Nat} (hx : x < o) :
    (s.storeNow d o bs).byte d x = s.byte d x := by
  obtain ⟨v, hv, hstore⟩ := State.storeNow_spec h d o bs
  rw [hstore, State.byte_putBytes_before _ _ _ _ _ hx]
  exact congrArg (fun m => sread (fun _ => (0 : Byte)) m (pantryKey d x)) hv.pantry

section
variable {b : State}
/-- One engine of a drain stores its bytes. -/
theorem State.drainOne_spec (hcore : o.core = c) (hlines : s.tracked = []) (hscrub : s.scrubbing c = false)
    (hret : s.flag Reg.DUMP_STAT Fl.DUMP_STAT_RETAINED = false) (f : ConvFlags) (p : Nat × Nat) :
    Drained c s (b.drainOne o n entry dst df (s, f) p).1 ∧
      (∀ x < dst + p.2 * n * drainBytes df, (b.drainOne o n entry dst df (s, f) p).1.byte c x = s.byte c x) ∧
      ∀ x < n * drainBytes df, (b.drainOne o n entry dst df (s, f) p).1.byte c (dst + p.2 * n * drainBytes df + x) =
        (b.drained o n entry df p.1).getD x 0 := by
  rw [State.drainOne, hcore]
  dsimp only
  rw [State.store_direct hscrub]
  have hbefore {x : Nat} := State.byte_storeNow_before hlines c (dst + p.2 * n * drainBytes df) (b.drained o n entry df p.1) (x := x)
  have hthese {x : Nat} := State.byte_storeNow hlines hret c (dst + p.2 * n * drainBytes df) (b.drained o n entry df p.1) (i := x)
  have hstores := State.onlyStores_storeNow hlines c (dst + p.2 * n * drainBytes df) (b.drained o n entry df p.1)
  generalize s.storeNow c (dst + p.2 * n * drainBytes df) (b.drained o n entry df p.1) = u at hbefore hthese hstores ⊢
  have hmarks := u.onlyAccMarks_checkAccs c (accKey c p.1 (b.quadOf o p.1) entry) n
  have hbyte (x : Nat) := pantryKept_of_eq hmarks.pantry c x
  rw [State.drained_length] at hthese
  exact ⟨hstores.drained.trans hmarks.drained, fun x hx => (hbyte x).trans (hbefore hx), fun x hx => (hbyte _).trans (hthese hx)⟩

/-- The engines of a drain in turn, from the `k`-th place on. -/
theorem State.drains_spec (hcore : o.core = c) (l : List Nat) (k : Nat) (st : State × ConvFlags) (hlines : st.1.tracked = [])
    (hscrub : st.1.scrubbing c = false) (hret : st.1.flag Reg.DUMP_STAT Fl.DUMP_STAT_RETAINED = false) :
    Drained c st.1 ((l.zipIdx k).foldl (b.drainOne o n entry dst df) st).1 ∧
      (∀ x < dst + k * n * drainBytes df, ((l.zipIdx k).foldl (b.drainOne o n entry dst df) st).1.byte c x = st.1.byte c x) ∧
      ∀ i e, l[i]? = some e → ∀ x < n * drainBytes df,
        ((l.zipIdx k).foldl (b.drainOne o n entry dst df) st).1.byte c (dst + (k + i) * n * drainBytes df + x) =
          (b.drained o n entry df e).getD x 0 := by
  induction l generalizing k st with
  | nil => exact ⟨.refl, fun _ _ => rfl, fun i e he => by simp at he⟩
  | cons e l ih =>
    rw [List.zipIdx_cons, List.foldl_cons]
    obtain ⟨hone, hbefore, hthese⟩ := State.drainOne_spec (b := b) (n := n) (entry := entry) (dst := dst) (df := df) hcore hlines hscrub hret
      st.2 (e, k)
    generalize b.drainOne o n entry dst df st (e, k) = u at hone hbefore hthese ⊢
    obtain ⟨hrest, hold, hnew⟩ := ih (k + 1) u (hone.tracked.trans hlines) (hone.scrubbing.trans hscrub) (hone.retained.trans hret)
    have hnext : (k + 1) * n * drainBytes df = k * n * drainBytes df + n * drainBytes df := by ring
    rw [hnext] at hold
    refine ⟨hone.trans hrest, fun x hx => ?_, fun i e' he' x hx => ?_⟩
    · rw [hold x (by omega), hbefore x hx]
    · cases i with
      | zero =>
        obtain rfl : e = e' := Option.some.inj he'
        rw [show k + 0 = k from rfl, hold _ (by omega), hthese x hx]
      | succ i =>
        rw [show k + (i + 1) = k + 1 + i from by omega]
        exact hnew i e' he' x hx
end
end

/-! ## The completions -/

theorem drain_byte_lt {i n j size : Nat} (hi : i < n) (hj : j < size) : size * i + j < n * size := by
  have hle : size * (i + 1) ≤ size * n := Nat.mul_le_mul_left size hi
  rw [Nat.mul_add, Nat.mul_comm size n] at hle
  omega
theorem drain_byte_at (dst k n i j size : Nat) : dst + (k * n + i) * size + j = dst + (0 + k) * n * size + (size * i + j) := by ring

/-- The end of an operation that has been carried out. -/
theorem State.engOver_spec (hcore : o.core = c) (htok : o.tok = k) (hone : s.OneOp c k) (hstop : EngEnds c k (s.engEnd o) u) :
    OnlyEngEnd s (u.engSettle c) ∧ (u.engSettle c).Completed c k stOk := by
  obtain ⟨honly, hdone⟩ := State.engEnd_done hcore htok hone
  have hall := hstop.trans (State.engEnds_engSettle hone.range u)
  exact ⟨honly.trans hall.only, hall.done hdone⟩
theorem State.findEng_some {p : EngWork → Bool} (h : s.findEng c k p = some o) : o.core = c ∧ o.tok = k := by
  have h' := List.find?_some h
  simp only [Bool.and_eq_true, beq_iff_eq] at h'
  exact h'.1

section
variable {tk : TokId}
theorem execEngLoadComplete_front {pair src stride : Nat} {fw fx : Bool} (hfind : s.findEng c tk EngWork.isLoad = some o)
    (hfront : s.engFront o = true) (hleave : o.mask &&& (0xFFFFFF ^^^ s.active c) = 0) (hwork : o.work = .load pair fw fx src stride) :
    exec (.engLoadComplete c tk) s = .next (s.settle (((s.applyLoad o pair fw fx src stride).engEnd o).engSettle c)) := by
  show execEngLoadComplete c tk s = _
  rw [execEngLoadComplete, hfind]
  dsimp only
  rw [if_pos (by rw [hfront, hleave]; rfl), hwork]
theorem execEngRunComplete_front {m src acc : Nat} {add : Bool} (hfind : s.findEng c tk EngWork.isRun = some o)
    (hfront : s.engFront o = true) (hleave : o.mask &&& (0xFFFFFF ^^^ s.active c) = 0) (hwork : o.work = .run m src acc add) :
    exec (.engRunComplete c tk) s =
      .next (s.settle ((((s.applyRun o m src acc add).engEnd o).stopEngines c o.mask).engSettle c)) := by
  show execEngRunComplete c tk s = _
  rw [execEngRunComplete, hfind]
  dsimp only
  rw [if_pos (by rw [hfront, hleave]; rfl), hwork]
theorem execEngDrainComplete_front {entry dst df : Nat} (hfind : s.findEng c tk EngWork.isDrain = some o)
    (hfront : s.engFront o = true) (hscrub : s.scrubbing c = false) (hwork : o.work = .drain n entry dst df false) :
    exec (.engDrainComplete c tk) s = .next (s.settle (((s.applyDrain o n entry dst df false).engEnd o).engSettle c)) := by
  show execEngDrainComplete c tk s = _
  rw [execEngDrainComplete, hfind]
  dsimp only
  rw [if_pos (by rw [hfront, hscrub]; rfl), hwork]
end

/-- Settles O11: each operation is carried out engine by engine, every engine in places of its own. -/
theorem engineCompletionsDeliver : Obligations.EngineCompletionsDeliver := by
  unfold Obligations.EngineCompletionsDeliver
  intro c tk s o hlines hfront htok hcount hok hquad hret
  have hone : s.OneOp c tk := ⟨tk.isLt, htok, hcount, hok⟩
  refine ⟨fun pair fw fx src stride hwork hfind hleave => ?_, fun m src acc add hwork hfind hleave hfit => ?_,
    fun n entry dst df hwork hfind hscrub => ?_⟩
  · obtain ⟨hcore, hk⟩ := State.findEng_some hfind
    obtain ⟨hcarried, -, htiles⟩ := State.loads_spec (pair := pair) (fw := fw) (fx := fx) (src := src) (stride := stride) hcore hquad
      (maskList 24 o.mask).zipIdx (by rw [List.zipIdx_map_fst]; exact maskList_nodup ..) s hlines.1
    rw [← State.applyLoad_eq] at hcarried htiles
    obtain ⟨hend, hdone, hst⟩ := State.engOver_spec hcore hk (hcarried.oneOp hone) .refl
    refine ⟨_, (execEngLoadComplete_front hfind hfront hleave hwork).trans (congrArg _ (State.settle_of_still _ _
      (hend.biWant.trans (hcarried.biWant.trans hlines.2)))), hdone, hst, fun k e he => ?_, pantryKept_of_eq (hend.pantry.trans hcarried.pantry)⟩
    rw [State.tile, hend.tiles]
    exact htiles (e, k) (List.mk_mem_zipIdx_iff_getElem?.2 he)
  · obtain ⟨hcore, hk⟩ := State.findEng_some hfind
    obtain ⟨hcarried, -, hacc⟩ := State.runs_spec (src := src) (add := add) hcore hquad (maskList 24 o.mask) (maskList_nodup ..) hfit
      (s, .none) .refl rfl hlines.1
    have hconv := State.accChecked_noteConv (c := c) (s := ((maskList 24 o.mask).foldl (s.runOne o m src acc add) (s, .none)).1)
      ((maskList 24 o.mask).foldl (s.runOne o m src acc add) (s, .none)).2
    have happly := s.applyRun_eq o m src acc add
    rw [hcore] at happly
    rw [← happly] at hconv
    have hall := hcarried.trans hconv.carried
    obtain ⟨hend, hdone, hst⟩ := State.engOver_spec hcore hk (hall.oneOp hone) (State.engEnds_stopEngines _ o.mask)
    refine ⟨_, (execEngRunComplete_front hfind hfront hleave hwork).trans (congrArg _ (State.settle_of_still _ _
      (hend.biWant.trans (hall.biWant.trans hlines.2)))), hdone, hst, fun e he j hj n hn => ?_, pantryKept_of_eq (hend.pantry.trans hall.pantry)⟩
    have hentry := hacc e he (j, n) hj hn
    rw [State.runKey, State.runEntry, hcore] at hentry
    exact (State.accAt_congr hend.acc hend.accEcc _).trans ((hconv.accAt _).trans hentry)
  · obtain ⟨hcore, hk⟩ := State.findEng_some hfind
    obtain ⟨hdrains, -, hbytes⟩ := State.drains_spec (b := s.drew) (n := n) (entry := entry) (dst := dst) (df := df) hcore
      (maskList 24 o.mask) 0 (s.drew, .none) hlines.1 hscrub hret
    have hconv := State.carried_noteConv (c := c) (s := ((maskList 24 o.mask).zipIdx.foldl (s.drew.drainOne o n entry dst df) (s.drew, .none)).1)
      ((maskList 24 o.mask).zipIdx.foldl (s.drew.drainOne o n entry dst df) (s.drew, .none)).2
    have happly := s.applyDrain_eq o n entry dst df
    rw [hcore] at happly
    rw [← happly] at hconv
    have hone' : (s.applyDrain o n entry dst df false).OneOp c tk :=
      hconv.oneOp (hone.of_rd (hdrains.token _ hone.range) (State.tokCount_congr hdrains.tokOps _ _))
    obtain ⟨hend, hdone, hst⟩ := State.engOver_spec hcore hk hone' .refl
    refine ⟨_, (execEngDrainComplete_front hfind hfront hscrub hwork).trans (congrArg _ (State.settle_of_still _ _
      (hend.biWant.trans (hconv.biWant.trans (hdrains.biWant.trans hlines.2))))), hdone, hst, fun k e he i hi => ?_⟩
    have hthese := hbytes k e he
    refine (congrArg (State.bytes _ _ _) (leBytes_length _ _).symm).trans (State.bytes_eq fun j hj => ?_)
    rw [leBytes_length] at hj
    have hin : drainBytes df * i + j < n * drainBytes df := drain_byte_lt hi hj
    refine (pantryKept_of_eq (hend.pantry.trans hconv.pantry) _ _).trans ?_
    rw [drain_byte_at]
    refine (hthese _ hin).trans ((State.drained_getD _ o entry df e hi hj).trans ?_)
    rw [hcore]
    rfl

end Sys2Proof.Machine
end

section
/-! PROOFS. Stores to the Pantries of several cores: what they change and the bytes that they leave (R195, R277). -/

namespace Sys2Proof.Machine

variable {s t u v : State} {k n : Nat} {c : CoreId}

/-- A register that no check of any core's words writes. -/
def Unchecked (o : Nat) : Prop := ∀ d, o ∉ checkRegs d

/-- Nothing changed but what checks of words and stores change, on any cores. -/
structure Written (s t : State) : Prop where
  only : ∃ regs bytes marks log faults,
    t = { s with regs := regs, pantry := bytes, pantryEcc := marks, errLog := log, faults := faults }
  rd : ∀ o, Unchecked o → t.rd o = s.rd o
  scrubbing : ∀ d < 256, t.scrubbing d = s.scrubbing d
theorem Written.refl (s : State) : Written s s := ⟨⟨_, _, _, _, _, rfl⟩, fun _ _ => rfl, fun _ _ => rfl⟩
theorem Written.trans (h : Written s t) (h' : Written t u) : Written s u := by
  obtain ⟨⟨_, _, _, _, _, rfl⟩, hrd, hscrub⟩ := h
  obtain ⟨⟨_, _, _, _, _, rfl⟩, hrd', hscrub'⟩ := h'
  exact ⟨⟨_, _, _, _, _, rfl⟩, fun o ho => (hrd' o ho).trans (hrd o ho), fun d hd => (hscrub' d hd).trans (hscrub d hd)⟩
theorem coreStat_ne_checkRegs {d e : Nat} (h : d ≠ e) : Reg.CORE_STAT d ∉ checkRegs e := by
  unfold checkRegs Reg.CORE_STAT Reg.CORE_ECC_COUNT coreWin Reg.DUMP_ERR_HEAD Reg.DUMP_ERR_LOST
  simp only [List.mem_cons, List.not_mem_nil, or_false, not_or]
  omega
theorem OnlyStores.written {e : Nat} (h : OnlyStores e s t) : Written s t := by
  refine ⟨h.only, fun o ho => h.rd o (ho e), fun d _ => ?_⟩
  by_cases hd : d = e
  · rw [hd]
    exact h.scrubbing
  · exact State.scrubbing_congr (h.rd _ (coreStat_ne_checkRegs hd))
theorem OnlyChecks.written {e : Nat} (h : OnlyChecks e s t) : Written s t := h.onlyStores.written

section
variable (h : Written s t)
include h
theorem Written.biWant : t.biWant = s.biWant := by obtain ⟨⟨_, _, _, _, _, rfl⟩, -, -⟩ := h; rfl
theorem Written.tracked : t.tracked = s.tracked := by obtain ⟨⟨_, _, _, _, _, rfl⟩, -, -⟩ := h; rfl
theorem Written.tokOps : t.tokOps = s.tokOps := by obtain ⟨⟨_, _, _, _, _, rfl⟩, -, -⟩ := h; rfl
theorem Written.kvOps : t.kvOps = s.kvOps := by obtain ⟨⟨_, _, _, _, _, rfl⟩, -, -⟩ := h; rfl
theorem Written.nextId : t.nextId = s.nextId := by obtain ⟨⟨_, _, _, _, _, rfl⟩, -, -⟩ := h; rfl
theorem Written.ctxs : t.ctxs = s.ctxs := by obtain ⟨⟨_, _, _, _, _, rfl⟩, -, -⟩ := h; rfl
theorem Written.parts : t.parts = s.parts := by obtain ⟨⟨_, _, _, _, _, rfl⟩, -, -⟩ := h; rfl
theorem Written.layerKv : t.layerKv = s.layerKv := by obtain ⟨⟨_, _, _, _, _, rfl⟩, -, -⟩ := h; rfl
theorem Written.loftFetches : t.loftFetches = s.loftFetches := by obtain ⟨⟨_, _, _, _, _, rfl⟩, -, -⟩ := h; rfl
theorem Written.noScrub (hs : s.noScrub) : t.noScrub := fun d hd => (h.scrubbing d hd).trans (hs d hd)
theorem Written.retained (hs : s.flag Reg.DUMP_STAT Fl.DUMP_STAT_RETAINED = false) : t.flag Reg.DUMP_STAT Fl.DUMP_STAT_RETAINED = false := by
  refine (State.flag_congr (h.rd _ fun d => ?_) _).trans hs
  unfold checkRegs Reg.CORE_STAT Reg.CORE_ECC_COUNT coreWin
  simp only [List.mem_cons, List.not_mem_nil, or_false, not_or]
  refine ⟨?_, ?_, by decide, by decide⟩ <;> · unfold Reg.DUMP_STAT; omega
theorem Written.ctx (x : Nat) : t.ctx x = s.ctx x := by rw [State.ctx, State.ctx, h.ctxs]
theorem Written.part (p : Nat) : t.part p = s.part p := by rw [State.part, State.part, h.parts]
theorem Written.kvLayers (p : Nat) : t.kvLayers p = s.kvLayers p := by
  unfold State.kvLayers State.understudy
  simp only [h.layerKv, h.part]
theorem Written.residentOf (x : Nat) : t.residentOf x = s.residentOf x := by rw [State.residentOf, State.residentOf, h.ctx]
end

theorem unchecked_token (c : CoreId) (hk : k < 16) : Unchecked (Reg.SEQ_TOKEN c k) := fun d => tokenReg_ne_checkRegs c d k hk
theorem unchecked_issueRegs {o : Nat} (ho : o ∈ issueRegs c) : Unchecked o := by
  intro d
  simp only [issueRegs, Reg.SEQ_PC, Reg.SEQ_ISSUED, Reg.SEQ_STAT, List.mem_cons, List.not_mem_nil, or_false] at ho
  unfold checkRegs Reg.CORE_STAT Reg.CORE_ECC_COUNT coreWin Reg.DUMP_ERR_HEAD Reg.DUMP_ERR_LOST
  simp only [List.mem_cons, List.not_mem_nil, or_false, not_or]
  unfold coreWin at ho
  omega

/-! ## Reads -/

theorem State.written_checkRange (h : s.tracked = []) (d o n : Nat) : Written s (s.checkRange d o n) :=
  (State.onlyChecks_checkRange h d o n).written
theorem State.byte_checkRange (h : s.tracked = []) (d o n e p : Nat) : (s.checkRange d o n).byte e p = s.byte e p :=
  State.byte_of_pantry (State.onlyChecks_checkRange h d o n).pantry e p
/-- A read that a check may skip changes what a check changes, and no byte. -/
theorem State.look_spec (h : s.tracked = []) (d o n : Nat) : Written s (s.look d o n) ∧ (s.look d o n).pantry = s.pantry := by
  rw [State.look]
  split
  · exact ⟨.refl s, rfl⟩
  · exact ⟨State.written_checkRange h d o n, (State.onlyChecks_checkRange h d o n).pantry⟩

/-! ## Stores -/

/-- A store to a Pantry that is not being scrubbed, and that holds no dump. -/
theorem State.store_spec {d : Nat} (hscrub : s.scrubbing d = false) (hlines : s.tracked = [])
    (hret : s.flag Reg.DUMP_STAT Fl.DUMP_STAT_RETAINED = false) (o : Nat) (bs : List Byte) (hfit : o + bs.length ≤ pantrySize) :
    Written s (s.store d o bs) ∧ ∀ e p, p < pantrySize → (s.store d o bs).byte e p =
      if e = d ∧ o ≤ p ∧ p < o + bs.length then bs.getD (p - o) 0 else s.byte e p := by
  rw [State.store_direct hscrub]
  refine ⟨(State.onlyStores_storeNow hlines d o bs).written, fun e p hp => ?_⟩
  obtain ⟨v, hv, hnow⟩ := State.storeNow_spec hlines d o bs
  have hheld : v.dumpHeld d p = false := State.dumpHeld_of_not_retained _ _ (hv.written.retained hret)
  rw [hnow, State.byte_putBytes_all d e p hp bs v o hfit, hheld, State.byte_of_pantry hv.pantry]
  simp only [and_true]

/-- A store of the same bytes on every core of a list. -/
theorem State.storeSet_spec {cs : List Nat} (hcs : ∀ d ∈ cs, d < 256) (o : Nat) (bs : List Byte) (hfit : o + bs.length ≤ pantrySize)
    (s : State) (hscrub : s.noScrub) (hlines : s.tracked = []) (hret : s.flag Reg.DUMP_STAT Fl.DUMP_STAT_RETAINED = false) :
    Written s (s.storeSet cs o bs) ∧ ∀ e p, p < pantrySize → (s.storeSet cs o bs).byte e p =
      if e ∈ cs ∧ o ≤ p ∧ p < o + bs.length then bs.getD (p - o) 0 else s.byte e p := by
  induction cs generalizing s with
  | nil => exact ⟨.refl s, fun e p _ => (if_neg fun h => List.not_mem_nil h.1).symm⟩
  | cons d cs ih =>
    obtain ⟨hd, hcs'⟩ := List.forall_mem_cons.1 hcs
    obtain ⟨hone, hbyte⟩ := State.store_spec (hscrub d hd) hlines hret o bs hfit
    rw [State.storeSet, List.foldl_cons, ← State.storeSet]
    generalize s.store d o bs = u at hone hbyte ⊢
    obtain ⟨hrest, hbytes⟩ := ih hcs' u (hone.noScrub hscrub) (hone.tracked.trans hlines) (hone.retained hret)
    refine ⟨hone.trans hrest, fun e p hp => ?_⟩
    rw [hbytes e p hp, hbyte e p hp]
    by_cases hp' : o ≤ p ∧ p < o + bs.length
    · by_cases he : e ∈ cs <;> by_cases hed : e = d <;> simp [he, hed, hp']
    · simp [hp']

/-- The bytes of a range just stored. -/
theorem bytes_of_stored {d o : Nat} {bs : List Byte} (hfit : o + bs.length ≤ pantrySize)
    (h : ∀ p < pantrySize, o ≤ p → p < o + bs.length → t.byte d p = bs.getD (p - o) 0) (hn : n = bs.length) : t.bytes d o n = bs := by
  rw [hn]
  refine List.ext_getElem (by simp [State.bytes]) fun j hj hj' => ?_
  simp only [State.bytes, List.getElem_map, List.getElem_range]
  rw [h _ (by omega) (by omega) (by omega), Nat.add_sub_cancel_left, List.getD_eq_getElem?_getD, List.getElem?_eq_getElem hj',
    Option.getD_some]

end Sys2Proof.Machine
end

section
/-! PROOFS. The queue of KV operations (R238): an operation with nothing ahead of it that waits starts as it enters, and one that
is alone on its core leaves the queue as it ends. -/

namespace Sys2Proof.Machine

variable {s t u v : State} {k n st : Nat} {c : CoreId} {o q : KvOp} {ops : List KvOp}

def State.setKv (s : State) (l : List KvOp) : State := { s with kvOps := l }
theorem State.setKv_kvOps (s : State) (l : List KvOp) : (s.setKv l).kvOps = l := rfl
theorem State.setKv_regs (s : State) (l : List KvOp) : (s.setKv l).regs = s.regs := rfl
theorem State.setKv_tokOps (s : State) (l : List KvOp) : (s.setKv l).tokOps = s.tokOps := rfl
theorem State.setKv_pantry (s : State) (l : List KvOp) : (s.setKv l).pantry = s.pantry := rfl
theorem State.setKv_biWant (s : State) (l : List KvOp) : (s.setKv l).biWant = s.biWant := rfl
theorem State.setKv_pn (s : State) (l : List KvOp) : (s.setKv l).pn = s.pn := rfl

/-- Operations with other numbers are left as they are. -/
theorem map_kv_others (f : KvOp → KvOp) {i : Nat} (h : ∀ p ∈ ops, p.id ≠ i) : ops.map (fun k => if k.id = i then f k else k) = ops :=
  (List.map_congr_left fun p hp => if_neg (h p hp)).trans (List.map_id ops)

/-! ## Entering -/

/-- The state in which an operation has entered and started. -/
def State.kvEntered (s : State) (o : KvOp) : State := (s.kvPush o).setKv (s.kvOps ++ [{ o with started := true }])

theorem State.kvFront_waits (h : s.kvFront k = some o) : o ∈ s.kvOps ∧ o.started = false := by
  have h' := List.find?_some h
  simp only [Bool.and_eq_true, Bool.not_eq_true'] at h'
  exact ⟨List.mem_of_find?_eq_some h, h'.2⟩
theorem State.kvNext_none (h : s.kvIdle) : s.kvNext = none := by
  refine List.find?_eq_none.2 fun o ho hstart => ?_
  simp only [Bool.and_eq_true, beq_iff_eq] at hstart
  have hwaits := (State.kvFront_waits hstart.2).2
  rw [h o ho] at hwaits
  exact Bool.noConfusion hwaits
/-- With no operation that waits to start nothing starts. -/
theorem State.kvRunN_idle (h : s.kvIdle) (n : Nat) : State.kvRunN n s = s := by
  cases n with
  | zero => rfl
  | succ n => rw [State.kvRunN, State.kvNext_none h]
theorem State.kvRun_idle (h : s.kvIdle) : s.kvRun = s := State.kvRunN_idle h _

section
variable (hidle : s.kvIdle) (hid : ∀ p ∈ s.kvOps, p.id ≠ o.id)
include hidle
theorem State.kvNext_pushed (hkind : o.kind ≠ .append) (hdone : o.done = none) (hwait : o.started = false) :
    (s.kvPush o).kvNext = some o := by
  have hnone (l : List KvOp) (hl : ∀ p ∈ l, p.started = true) (r : KvOp → Bool) (hr : ∀ p, r p = true → p.started = false) :
      l.find? r = none := List.find?_eq_none.2 fun p hp h => by
    have := hr p h
    rw [hl p hp] at this
    exact Bool.noConfusion this
  have hfront : (s.kvPush o).kvFront o.core = some o := by
    show (s.kvOps ++ [o]).find? _ = _
    rw [List.find?_append, hnone s.kvOps hidle _ fun p hp => by simp only [Bool.and_eq_true, Bool.not_eq_true'] at hp; exact hp.2]
    simp [hdone, hwait]
  have hself : (o.kind != KvKind.append && (s.kvPush o).kvFront o.core == some o) = true := by
    rw [hfront, Bool.and_eq_true, bne_iff_ne, beq_iff_eq]
    exact ⟨hkind, rfl⟩
  show (s.kvOps ++ [o]).find? _ = _
  rw [List.find?_append, hnone s.kvOps hidle _ fun p hp => ?_, Option.none_or, List.find?_cons, hself]
  simp only [Bool.and_eq_true, beq_iff_eq] at hp
  exact (State.kvFront_waits hp.2).2
include hid
omit hidle in
theorem State.kvMark_pushed : (s.kvPush o).kvOps.map (fun k => if k.id = o.id then { k with started := true } else k) =
    s.kvOps ++ [{ o with started := true }] := by
  show (s.kvOps ++ [o]).map _ = _
  rw [List.map_append, map_kv_others _ hid, List.map_singleton, if_pos rfl]
/-- An operation that enters behind others that have started starts at once. -/
theorem State.kvEnter_starts (hdone : o.done = none) (hwait : o.started = false) :
    (o.kind = .commit → s.kvEnter o = State.kvRunN s.kvOps.length ((s.kvEntered o).runCommit o)) ∧
    (o.kind = .rollback → s.kvEnter o = State.kvRunN s.kvOps.length ((s.kvEntered o).runRollback o)) ∧
    (o.kind = .map → s.kvEnter o = State.kvRunN s.kvOps.length ((s.kvEntered o).runMap o)) ∧
    (o.kind = .digest → s.kvEnter o = State.kvRunN s.kvOps.length ((s.kvEntered o).runDigest o)) ∧
    (o.kind = .mask → s.kvEnter o = State.kvRunN s.kvOps.length ((s.kvEntered o).runMask o)) := by
  have henter (hkind : o.kind ≠ .append) : s.kvEnter o = State.kvRunN s.kvOps.length ((s.kvPush o).kvStart o) := by
    have hlen : (s.kvPush o).kvOps.length = s.kvOps.length + 1 := List.length_append
    rw [State.kvEnter, State.kvRun, hlen, State.kvRunN, State.kvNext_pushed hidle hkind hdone hwait]
  have hstart : (s.kvPush o).kvStart o = match o.kind with
      | .append => s.kvEntered o
      | .commit => (s.kvEntered o).runCommit o
      | .rollback => (s.kvEntered o).runRollback o
      | .map => (s.kvEntered o).runMap o
      | .digest => (s.kvEntered o).runDigest o
      | .mask => (s.kvEntered o).runMask o := by
    rw [State.kvStart, State.kvMark_pushed hid]
    rfl
  refine ⟨fun h => ?_, fun h => ?_, fun h => ?_, fun h => ?_, fun h => ?_⟩ <;>
  · rw [henter (by rw [h]; decide), hstart, h]
end

/-! ## Ending -/

theorem State.kvRetireN_none (h : ∀ p ∈ s.kvOps, p.core ≠ k) (n : Nat) : s.kvRetireN k n = s := by
  cases n with
  | zero => rfl
  | succ n =>
    have hnone : s.kvOps.find? (fun o => o.core == k) = none := List.find?_eq_none.2 fun p hp hk => h p hp (beq_iff_eq.1 hk)
    rw [State.kvRetireN, hnone]
theorem State.kvRetireN_done (hfind : s.kvOps.find? (fun o => o.core == k) = some o) (hdone : o.done = some st) (n : Nat) :
    s.kvRetireN k (n + 1) = ((s.setKv (s.kvOps.filter fun q => q.id != o.id)).tokComplete k o.tok st).kvRetireN k n := by
  rw [State.kvRetireN, hfind]
  dsimp only
  rw [hdone]
  rfl
/-- An operation that is alone on its core ends. -/
theorem State.kvDone_alone (hops : s.kvOps = ops ++ [q]) (hid : q.id = o.id) (hcore : q.core = o.core) (htok : q.tok = o.tok)
    (hothers : ∀ p ∈ ops, p.core ≠ o.core ∧ p.id ≠ o.id) (st : Nat) :
    s.kvDone o st = (s.setKv ops).tokComplete o.core o.tok st := by
  have hfin : s.kvOps.map (fun k => if k.id = o.id then { k with done := some st } else k) = ops ++ [{ q with done := some st }] := by
    rw [hops, List.map_append, map_kv_others _ fun p hp => (hothers p hp).2, List.map_singleton, if_pos hid]
  have hfind : (ops ++ [{ q with done := some st }]).find? (fun p => p.core == o.core) = some { q with done := some st } := by
    rw [List.find?_append, List.find?_eq_none.2 fun p hp hk => (hothers p hp).1 (beq_iff_eq.1 hk), Option.none_or]
    exact List.find?_cons_of_pos (beq_iff_eq.2 hcore)
  have hleft : (ops ++ [{ q with done := some st }]).filter (fun k => k.id != ({ q with done := some st } : KvOp).id) = ops := by
    rw [List.filter_append, List.filter_eq_self.2 fun p hp => bne_iff_ne.2 (by rw [hid]; exact (hothers p hp).2), List.filter_cons_of_neg (by simp)]
    exact List.append_nil _
  have hlen : (s.setKv (ops ++ [{ q with done := some st }])).kvOps.length = ops.length + 1 := by
    rw [State.setKv_kvOps, List.length_append]
    rfl
  have hretire : s.kvDone o st = (s.setKv (ops ++ [{ q with done := some st }])).kvRetire o.core := by
    rw [State.kvDone, hfin]
    rfl
  rw [hretire, State.kvRetire, hlen, State.kvRetireN_done hfind rfl, State.setKv_kvOps, hleft]
  show (((s.setKv ops).tokComplete o.core q.tok st).kvRetireN o.core ops.length) = _
  rw [htok]
  refine State.kvRetireN_none (fun p hp => (hothers p ?_).1) _
  rwa [(State.onlyEnd_tokComplete (s.setKv ops) o.core o.tok st).kvOps] at hp

/-! ## An operation that ends as it enters -/

/-- What an operation of core `c` does until it ends with token `k`. -/
structure KvWorks (c : CoreId) (k : Nat) (s t : State) : Prop where
  rd : ∀ o ∈ issueRegs c, t.rd o = s.rd o
  token : t.rd (Reg.SEQ_TOKEN c k) = s.rd (Reg.SEQ_TOKEN c k)
  tokOps : t.tokOps = s.tokOps
  kvOps : t.kvOps = s.kvOps
  biWant : t.biWant = s.biWant
theorem KvWorks.trans (h : KvWorks c k s t) (h' : KvWorks c k t u) : KvWorks c k s u :=
  ⟨fun o ho => (h'.rd o ho).trans (h.rd o ho), h'.token.trans h.token, h'.tokOps.trans h.tokOps, h'.kvOps.trans h.kvOps,
    h'.biWant.trans h.biWant⟩
theorem KvWorks.refl : KvWorks c k s s := ⟨fun _ _ => rfl, rfl, rfl, rfl, rfl⟩
theorem Written.kvWorks (h : Written s t) (hk : k < 16) : KvWorks c k s t :=
  ⟨fun o ho => h.rd o (unchecked_issueRegs ho), h.rd _ (unchecked_token c hk), h.tokOps, h.kvOps, h.biWant⟩

theorem State.kvNew_core (s : State) (c : CoreId) (f : UFmt) (kind : KvKind) (e i d l : Nat) : (s.kvNew c f kind e i d l).core = c := rfl
theorem State.kvEntered_nextId (s : State) (o : KvOp) : (s.kvEntered o).nextId = s.nextId + 1 := rfl
theorem State.kvEntered_kvOps (s : State) (o : KvOp) : (s.kvEntered o).kvOps = s.kvOps ++ [{ o with started := true }] := rfl
theorem State.kvEntered_regs (s : State) (o : KvOp) : (s.kvEntered o).regs = s.regs := rfl
theorem State.kvEntered_tokOps (s : State) (o : KvOp) : (s.kvEntered o).tokOps = s.tokOps := rfl
theorem State.kvEntered_biWant (s : State) (o : KvOp) : (s.kvEntered o).biWant = s.biWant := rfl

section
variable (hnext : s.inCode c (s.pcNext c) = true) (htok : s.tok c k ≠ tokPending) (hcore : o.core = c) (ho : o.tok = k)
  (hothers : ∀ p ∈ s.kvOps, p.core ≠ c ∧ p.started = true ∧ p.id ≠ o.id)
  (hv : KvWorks c k (((s.issued c (s.pcNext c)).tokIssue c k).kvEntered o) v) (hst : st < 256)
include hnext htok hcore ho hothers hv hst
/-- An operation whose work is done as it enters: its token completes, and nothing else starts. -/
theorem kvOver_spec (n : Nat) : Issued s (State.kvRunN n (v.kvDone o st)) c (s.pcNext c) ∧ (State.kvRunN n (v.kvDone o st)).Completed c k st ∧
    OnlyEnd (v.setKv s.kvOps) (State.kvRunN n (v.kvDone o st)) := by
  have honly := s.onlyIssue_issued_tokIssue c k (s.pcNext c)
  obtain ⟨hissued, hpending, hok, hone⟩ := State.tokIssue_queued hnext htok
  generalize (s.issued c (s.pcNext c)).tokIssue c k = u at honly hissued hpending hok hone hv
  have hdone : v.kvDone o st = (v.setKv s.kvOps).tokComplete c k st := by
    rw [← hcore, ← ho]
    refine State.kvDone_alone (q := { o with started := true }) ?_ rfl rfl rfl (fun p hp => ?_) st
    · rw [hv.kvOps, State.kvEntered_kvOps, honly.kvOps]
    · rw [hcore]
      exact ⟨(hothers p hp).1, (hothers p hp).2.2⟩
  have hend := State.onlyEnd_tokComplete (v.setKv s.kvOps) c k st
  have hidle : ((v.setKv s.kvOps).tokComplete c k st).kvIdle := fun p hp => by
    rw [hend.kvOps] at hp
    exact (hothers p hp).2.1
  have hrd (j : Nat) (hj : j ∈ issueRegs c) : v.rd j = u.rd j := (hv.rd j hj).trans (State.rd_congr (u.kvEntered_regs o) j)
  have htoken : v.rd (Reg.SEQ_TOKEN c k) = u.rd (Reg.SEQ_TOKEN c k) := hv.token.trans (State.rd_congr (u.kvEntered_regs o) _)
  rw [hdone, State.kvRunN_idle hidle]
  refine ⟨(hissued.of_rd (u := v.setKv s.kvOps) hrd).of_rd fun j hj => State.rd_tokComplete _ _ _ _ _ (fun h => tokenReg_ne_issueRegs c k (h ▸ hj))
      (issueRegs_apart hj k).2.2, ?_, hend⟩
  exact State.tokComplete_done c.isLt ((State.tok_congr_rd htoken).trans hpending)
    ((State.tokCount_congr (hv.tokOps.trans (u.kvEntered_tokOps o)) _ _).trans hone) ((State.tokStatus_congr_rd htoken).trans hok) hst
end

end Sys2Proof.Machine
end

section
/-! PROOFS. KV.MAP, KV.DIGEST and TREE.MASK write their data (O28). -/

namespace Sys2Proof.Machine

variable {s t u v : State} {k n : Nat} {c : CoreId} {f : UFmt} {o : KvOp}

/-! ## Numbers in bytes -/

theorem leNat_leBytes (n : Nat) : ∀ v, leNat (leBytes n v) = v % 256 ^ n := by
  induction n with
  | zero => intro v; simp [leBytes, leNat, Nat.mod_one]
  | succ n ih =>
    intro v
    have hmod : v % 256 ^ (n + 1) = v % 256 + 256 * (v / 256 % 256 ^ n) := by rw [Nat.pow_succ, Nat.mul_comm, Nat.mod_mul]
    rw [leBytes, leNat, ih, hmod, BitVec.toNat_ofNat]
theorem leNat_lt (bs : List Byte) : leNat bs < 256 ^ bs.length := by
  induction bs with
  | nil => exact Nat.one_pos
  | cons b bs ih =>
    have hb := b.isLt
    rw [leNat, List.length_cons, Nat.pow_succ]
    omega
theorem bytesAt_length (bs : List Byte) (o n : Nat) : (bytesAt bs o n).length = n := by
  simp only [bytesAt, List.length_append, List.length_take, List.length_drop, List.length_replicate]
  omega
theorem leAt_lt (bs : List Byte) (o n : Nat) : leAt bs o n < 256 ^ n := by
  have h := leNat_lt (bytesAt bs o n)
  rwa [bytesAt_length] at h

/-! ## Page map entries (R280) -/

/-- The fields of an entry lie within their widths. -/
structure MapEntry.Fits (e : MapEntry) : Prop where
  block : e.block < 2 ^ 20
  slot : e.slot < 2 ^ 16
  state : e.state < 2 ^ 8
  fill : e.fill < 2 ^ 7
  node : e.node < 2 ^ 32
theorem mapOf_fits (bs : List Byte) : (mapOf bs).Fits :=
  ⟨Nat.mod_lt _ (by decide), leAt_lt bs 4 2, leAt_lt bs 6 1, Nat.mod_lt _ (by decide), leAt_lt bs 12 4⟩
theorem MapEntry.bytes_length (e : MapEntry) (i : Nat) : (e.bytes i).length = 16 := by
  simp [MapEntry.bytes, leBytes_length]
theorem bitOf_pin (p : Bool) : bitOf (if p = true then 1 else 0) 0 = p := by cases p <;> rfl
/-- What an entry's bytes say. -/
theorem mapOf_bytes {e : MapEntry} (h : e.Fits) (i : Nat) : mapOf (e.bytes i) = e := by
  obtain ⟨hblock, hslot, hstate, hfill, hnode⟩ := h
  have hpin : (if e.pin = true then 1 else 0 : Nat) < 2 := by split <;> decide
  have hbit := bitOf_pin e.pin
  obtain ⟨block, slot, state, pin, fill, node⟩ := e
  simp only [mapOf, MapEntry.bytes, leBytes, leAt, bytesAt, leNat, List.cons_append, List.nil_append, List.drop_zero, List.drop_succ_cons,
    List.take_succ_cons, List.take_zero, List.length_cons, List.length_nil, List.append_nil, List.replicate_zero, BitVec.toNat_ofNat,
    MapEntry.mk.injEq, Nat.sub_self]
  dsimp only at hblock hslot hstate hfill hnode hpin hbit
  refine ⟨by omega, by omega, by omega, ?_, by omega, by omega⟩
  rw [show (if pin = true then 1 else 0 : Nat) % 2 ^ 8 + 256 * 0 = if pin = true then 1 else 0 from by omega]
  exact hbit

/-! ## Issue -/

/-- A KV or TREE instruction whose checks pass takes its token and goes on. -/
theorem kvIssue_ready {opc : Byte} {illegal : Bool} {check : Option Cause} {eff : State → State}
    (hopc : opcodeDefined (opc.setWidth 64) = true) (hbad : f.bad false = false) (hill : illegal = false) (hcheck : check = none)
    (htok : s.tok c f.tok ≠ tokPending) (hroom : (s.kvOps.filter fun o => o.core == c.val).length < 16)
    (hr : s.Ready c (f.word opc) (s.pcNext c)) :
    kvIssue opc illegal check c f eff s = eff ((s.issued c (s.pcNext c)).tokIssue c f.tok) := by
  have hok : (f.bad false || illegal) = false := by rw [hbad, hill]; rfl
  rw [kvIssue, issue, issueOr_ready _ _ _ _ hr (UFmt.word_defined f opc hopc) hok (by simp [htok]) hcheck, if_neg (by simpa using hroom)]

/-- What the issue of a KV instruction and the entry of its operation leave. -/
structure Enters (c : CoreId) (s u : State) : Prop where
  pantry : u.pantry = s.pantry
  pantryEcc : u.pantryEcc = s.pantryEcc
  tracked : u.tracked = s.tracked
  biWant : u.biWant = s.biWant
  ctxs : u.ctxs = s.ctxs
  parts : u.parts = s.parts
  layerKv : u.layerKv = s.layerKv
  loftFetches : u.loftFetches = s.loftFetches
  scrubbing : ∀ d, u.scrubbing d = s.scrubbing d
  retained : u.flag Reg.DUMP_STAT Fl.DUMP_STAT_RETAINED = s.flag Reg.DUMP_STAT Fl.DUMP_STAT_RETAINED
  id : u.rd (Reg.CORE_ID c) = s.rd (Reg.CORE_ID c)
theorem coreReg_not_issueRegs (d : Nat) {j : Nat} (hj : j < 0x1000) : coreWin d + j ∉ issueRegs c := by
  simp only [issueRegs, Reg.SEQ_PC, Reg.SEQ_ISSUED, Reg.SEQ_STAT, List.mem_cons, List.not_mem_nil, or_false]
  unfold coreWin
  omega
theorem coreReg_ne_token (d : Nat) {j : Nat} (hj : j < 0x1000) (hk : k < 16) : coreWin d + j ≠ Reg.SEQ_TOKEN c k := by
  unfold Reg.SEQ_TOKEN coreWin
  omega
theorem lowReg_not_issueRegs {j : Nat} (hj : j < 0x04000000) : j ∉ issueRegs c := by
  simp only [issueRegs, Reg.SEQ_PC, Reg.SEQ_ISSUED, Reg.SEQ_STAT, List.mem_cons, List.not_mem_nil, or_false]
  unfold coreWin
  omega
theorem lowReg_ne_token {j : Nat} (hj : j < 0x04000000) : j ≠ Reg.SEQ_TOKEN c k := by
  unfold Reg.SEQ_TOKEN coreWin
  omega
theorem State.enters (s : State) (c : CoreId) (hk : k < 16) (o : KvOp) : Enters c s (((s.issued c (s.pcNext c)).tokIssue c k).kvEntered o) := by
  have hrd {j : Nat} (hj : j ∉ issueRegs c) (htok : j ≠ Reg.SEQ_TOKEN c k) := s.rd_taken (c := c) (k := k) hj htok
  have honly := s.onlyIssue_issued_tokIssue c k (s.pcNext c)
  generalize (s.issued c (s.pcNext c)).tokIssue c k = u at hrd honly ⊢
  have hscrub (d : Nat) := State.scrubbing_congr (hrd (j := Reg.CORE_STAT d) (coreReg_not_issueRegs d (by decide)) (coreReg_ne_token d (by decide) hk))
  have hret := State.flag_congr (hrd (j := Reg.DUMP_STAT) (lowReg_not_issueRegs (by decide)) (lowReg_ne_token (by decide))) Fl.DUMP_STAT_RETAINED
  have hid := hrd (j := Reg.CORE_ID c) (coreReg_not_issueRegs c (by decide)) (coreReg_ne_token c (by decide) hk)
  obtain ⟨_, _, _, _, rfl⟩ := honly
  exact ⟨rfl, rfl, rfl, rfl, rfl, rfl, rfl, rfl, hscrub, hret, hid⟩
section
variable {u : State} (h : Enters c s u)
include h
theorem Enters.noScrub (hs : s.noScrub) : u.noScrub := fun d hd => (h.scrubbing d).trans (hs d hd)
theorem Enters.bytes (d o n : Nat) : u.bytes d o n = s.bytes d o n := State.bytes_congr h.pantry d o n
theorem Enters.ctx (x : Nat) : u.ctx x = s.ctx x := by rw [State.ctx, State.ctx, h.ctxs]
theorem Enters.part (p : Nat) : u.part p = s.part p := by rw [State.part, State.part, h.parts]
theorem Enters.kvLayers (p : Nat) : u.kvLayers p = s.kvLayers p := by
  unfold State.kvLayers State.understudy
  simp only [h.layerKv, h.part]
theorem Enters.kvKnown (x : Nat) : u.kvKnown c x = s.kvKnown c x := by
  unfold State.kvKnown State.bound State.partOf State.flag State.fld State.understudy
  simp only [h.ctx, h.part, h.id]
theorem Enters.residentOf (x : Nat) : u.residentOf x = s.residentOf x := by rw [State.residentOf, State.residentOf, h.ctx]
end

/-- The operation that an instruction makes is read before its issue. -/
theorem State.kvNew_taken (s : State) (c : CoreId) (f : UFmt) (kind : KvKind) (e i d l : Nat) :
    ((s.issued c (s.pcNext c)).tokIssue c f.tok).kvNew c f kind e i d l = s.kvNew c f kind e i d l := by
  have hnext := (s.onlyIssue_issued_tokIssue c f.tok (s.pcNext c)).nextId
  have hg : ((s.issued c (s.pcNext c)).tokIssue c f.tok).g c f.gn = s.g c f.gn := by
    rw [State.g, State.g, s.rd_taken]
    · simp only [issueRegs, Reg.SEQ_PC, Reg.SEQ_ISSUED, Reg.SEQ_STAT, Reg.SEQ_G, List.mem_cons, List.not_mem_nil, or_false]
      omega
    · unfold Reg.SEQ_G Reg.SEQ_TOKEN
      omega
  have ha : ((s.issued c (s.pcNext c)).tokIssue c f.tok).a c f.as = s.a c f.as := by
    rw [State.a, State.a, s.rd_taken]
    · simp only [issueRegs, Reg.SEQ_PC, Reg.SEQ_ISSUED, Reg.SEQ_STAT, Reg.SEQ_A, List.mem_cons, List.not_mem_nil, or_false]
      omega
    · unfold Reg.SEQ_A Reg.SEQ_TOKEN
      omega
  rw [State.kvNew, State.kvNew, State.kvCtx, State.kvCtx, hg, ha, hnext]

/-- The operations of other cores leave a core's queue empty. -/
theorem kvRoom (h : ∀ p ∈ s.kvOps, p.core ≠ c ∧ p.started = true ∧ p.id ≠ s.nextId) :
    (s.kvOps.filter fun o => o.core == c.val).length < 16 := by
  rw [List.filter_eq_nil_iff.2 fun p hp hc => (h p hp).1 (beq_iff_eq.1 hc)]
  decide

section
variable (hothers : ∀ p ∈ s.kvOps, p.core ≠ c ∧ p.started = true ∧ p.id ≠ s.nextId)
include hothers
/-- An operation that nothing waits ahead of starts as it enters. -/
theorem State.kvEnter_taken (kind : KvKind) (e i d l : Nat) :
    (kind = .commit → ((s.issued c (s.pcNext c)).tokIssue c f.tok).kvEnter (((s.issued c (s.pcNext c)).tokIssue c f.tok).kvNew c f kind e i d l) =
      State.kvRunN s.kvOps.length ((((s.issued c (s.pcNext c)).tokIssue c f.tok).kvEntered (s.kvNew c f kind e i d l)).runCommit
        (s.kvNew c f kind e i d l))) ∧
    (kind = .map → ((s.issued c (s.pcNext c)).tokIssue c f.tok).kvEnter (((s.issued c (s.pcNext c)).tokIssue c f.tok).kvNew c f kind e i d l) =
      State.kvRunN s.kvOps.length ((((s.issued c (s.pcNext c)).tokIssue c f.tok).kvEntered (s.kvNew c f kind e i d l)).runMap
        (s.kvNew c f kind e i d l))) ∧
    (kind = .digest → ((s.issued c (s.pcNext c)).tokIssue c f.tok).kvEnter (((s.issued c (s.pcNext c)).tokIssue c f.tok).kvNew c f kind e i d l) =
      State.kvRunN s.kvOps.length ((((s.issued c (s.pcNext c)).tokIssue c f.tok).kvEntered (s.kvNew c f kind e i d l)).runDigest
        (s.kvNew c f kind e i d l))) ∧
    (kind = .mask → ((s.issued c (s.pcNext c)).tokIssue c f.tok).kvEnter (((s.issued c (s.pcNext c)).tokIssue c f.tok).kvNew c f kind e i d l) =
      State.kvRunN s.kvOps.length ((((s.issued c (s.pcNext c)).tokIssue c f.tok).kvEntered (s.kvNew c f kind e i d l)).runMask
        (s.kvNew c f kind e i d l))) := by
  have hops := (s.onlyIssue_issued_tokIssue c f.tok (s.pcNext c)).kvOps
  rw [s.kvNew_taken]
  have hid : ∀ p ∈ s.kvOps, p.id ≠ (s.kvNew c f kind e i d l).id := fun p hp => (hothers p hp).2.2
  have hkind : (s.kvNew c f kind e i d l).kind = kind := rfl
  have hnew : (s.kvNew c f kind e i d l).done = none ∧ (s.kvNew c f kind e i d l).started = false := ⟨rfl, rfl⟩
  generalize (s.issued c (s.pcNext c)).tokIssue c f.tok = u at hops ⊢
  generalize s.kvNew c f kind e i d l = o at hid hkind hnew ⊢
  rw [← hops] at hothers hid ⊢
  obtain ⟨hcommit, -, hmap, hdigest, hmask⟩ := State.kvEnter_starts (fun p hp => (hothers p hp).2.1) hid hnew.1 hnew.2
  rw [hkind] at hcommit hmap hdigest hmask
  exact ⟨hcommit, hmap, hdigest, hmask⟩
end

/-! ## TREE.MASK (R262) -/

/-- The rows that a tree's parents determine. -/
theorem treeRows_map {parent rows : Nat → Nat}
    (hrows : ∀ i < n, rows i = 2 ^ i ||| (if parent i = 0xFF then 0 else rows (parent i)))
    (hbelow : ∀ i < n, parent i = 0xFF ∨ parent i < i) (m j : Nat) (hj : j + m = n) :
    treeRows ((List.range' j m).map parent) ((List.range j).map rows) = (List.range n).map rows := by
  induction m generalizing j with
  | zero =>
    obtain rfl : j = n := hj
    rfl
  | succ m ih =>
    have hup : (if parent j = 0xFF then 0 else ((List.range j).map rows).getD (parent j) 0) =
        if parent j = 0xFF then 0 else rows (parent j) := by
      rcases hbelow j (by omega) with h | h
      · rw [if_pos h, if_pos h]
      · split
        · rfl
        · rw [List.getD_eq_getElem?_getD, List.getElem?_map, List.getElem?_range h]
          rfl
    rw [List.range'_succ, List.map_cons, treeRows, hup, List.length_map, List.length_range, Nat.or_comm, ← hrows j (by omega), ← ih (j + 1) (by omega), List.range_succ, List.map_append]
    rfl
theorem treeRow_lt {parent rows : Nat → Nat}
    (hrows : ∀ i < n, rows i = 2 ^ i ||| (if parent i = 0xFF then 0 else rows (parent i)))
    (hbelow : ∀ i < n, parent i = 0xFF ∨ parent i < i) (i : Nat) (hi : i < n) : rows i < 2 ^ (i + 1) := by
  induction i using Nat.strong_induction_on with
  | _ i ih =>
    rw [hrows i hi]
    refine Nat.or_lt_two_pow (Nat.pow_lt_pow_right (by decide) (Nat.lt_succ_self i)) ?_
    split
    · exact Nat.two_pow_pos _
    · have hp := (hbelow i hi).resolve_left ‹_›
      exact (ih _ hp (by omega)).trans_le (Nat.pow_le_pow_right (by decide) (by omega))

/-- The bytes of a mask's rows. -/
def rowBytes (rows : List Nat) : List Byte := (rows.map fun w => leBytes 2 w).flatten
theorem rowBytes_length (rows : List Nat) : (rowBytes rows).length = 2 * rows.length := by
  induction rows with
  | nil => rfl
  | cons w rows ih =>
    rw [rowBytes, List.map_cons, List.flatten_cons, List.length_append, leBytes_length, ← rowBytes, ih, List.length_cons]
    omega
theorem rowBytes_getD {rows : List Nat} {i j w : Nat} (hi : rows[i]? = some w) (hj : j < 2) :
    (rowBytes rows).getD (2 * i + j) 0 = (leBytes 2 w).getD j 0 := by
  refine flatten_getD (fun y hy => ?_) ?_ hj
  · obtain ⟨w, -, rfl⟩ := List.mem_map.1 hy
    exact leBytes_length ..
  · rw [List.getElem?_map, hi]
    rfl

/-- The parents of a mask's nodes, and whether one of them is not below its node. -/
def State.parents (s : State) (c src n : Nat) : List Nat := (s.bytes c src n).map fun b => b.toNat
theorem State.parents_eq (s : State) (c src n : Nat) : s.parents c src n = (List.range' 0 n).map fun i => (s.byte c (src + i)).toNat := by
  rw [State.parents, State.bytes, List.map_map, List.range_eq_range']
  rfl
def badParent (ps : List Nat) : Bool := ps.zipIdx.any fun p => p.1 != 0xFF && decide (p.2 ≤ p.1)
theorem badParent_iff (parent : Nat → Nat) (n : Nat) :
    badParent ((List.range' 0 n).map parent) = true ↔ ∃ i < n, parent i ≠ 0xFF ∧ i ≤ parent i := by
  rw [badParent, List.any_eq_true, ← List.range_eq_range']
  constructor
  · rintro ⟨⟨x, i⟩, hmem, h⟩
    rw [List.mk_mem_zipIdx_iff_getElem?, List.getElem?_map] at hmem
    obtain ⟨j, hj, rfl⟩ := Option.map_eq_some_iff.1 hmem
    obtain ⟨hi, hji⟩ := List.getElem?_eq_some_iff.1 hj
    rw [List.getElem_range] at hji
    subst hji
    simp only [Bool.and_eq_true, bne_iff_ne, decide_eq_true_eq] at h
    exact ⟨i, by simpa using hi, h⟩
  · rintro ⟨i, hi, h⟩
    refine ⟨(parent i, i), ?_, by simpa using h⟩
    rw [List.mk_mem_zipIdx_iff_getElem?, List.getElem?_map, List.getElem?_range hi]
    rfl
theorem State.runMask_eq (s : State) (o : KvOp) : s.runMask o = if badParent (s.parents o.core o.src o.len) then
    (s.checkRange o.core o.src o.len).kvDone o stBounds
  else ((s.checkRange o.core o.src o.len).store o.core o.dst (rowBytes (treeRows (s.parents o.core o.src o.len) []))).kvDone o stOk := rfl

section
variable (hlines : s.noHostLines) (htok : s.tok c f.tok ≠ tokPending)
  (hothers : ∀ p ∈ s.kvOps, p.core ≠ c ∧ p.started = true ∧ p.id ≠ s.nextId) (hscrub : s.noScrub)
  (hret : s.flag Reg.DUMP_STAT Fl.DUMP_STAT_RETAINED = false) (hfn : f.fn = 0) (hsr : f.sr = false)
include htok hothers
section
include hlines

/-- A KV instruction whose operation does its work in `v` and ends as it enters. -/
theorem kvDone_enters {opc : Byte} {st : Nat} (hr : s.Ready c (f.word opc) (s.pcNext c)) (hcore : o.core = c) (ho : o.tok = f.tok.val) (hid : o.id = s.nextId)
    (hv : KvWorks c f.tok (((s.issued c (s.pcNext c)).tokIssue c f.tok).kvEntered o) v) (hst : st < 256) (n : Nat) :
    s.settle (State.kvRunN n (v.kvDone o st)) = State.kvRunN n (v.kvDone o st) ∧
      Issued s (State.kvRunN n (v.kvDone o st)) c (s.pcNext c) ∧ (State.kvRunN n (v.kvDone o st)).Completed c f.tok st ∧
      (State.kvRunN n (v.kvDone o st)).pantry = v.pantry := by
  obtain ⟨hissued, hdone, hend⟩ := kvOver_spec hr.there htok hcore ho (by rwa [hid]) hv hst n
  refine ⟨State.settle_of_still _ _ ?_, hissued, hdone, hend.pantry⟩
  exact hend.biWant.trans (hv.biWant.trans ((s.enters c f.tok.isLt o).biWant.trans hlines.2))

end
include hfn hsr

theorem treeMask_enters (himm : f.imm = 0) (hpos : 0 < (s.g c f.gn).toNat) (hmax : (s.g c f.gn).toNat ≤ 16)
    (hsrc : (s.a c f.as).toNat < pantrySize) (hsrc' : (s.a c f.as).toNat + (s.g c f.gn).toNat ≤ pantrySize)
    (hdst : (s.a c f.ad).toNat < pantrySize) (hdst' : (s.a c f.ad).toNat + 2 * (s.g c f.gn).toNat ≤ pantrySize)
    (hr : s.Ready c (f.word 0x90) (s.pcNext c)) :
    exec (.treeMask c f) s = .next (s.settle (State.kvRunN s.kvOps.length
      ((((s.issued c (s.pcNext c)).tokIssue c f.tok).kvEntered (s.kvNew c f .mask 0 0 (s.a c f.ad).toNat (s.g c f.gn).toNat)).runMask
        (s.kvNew c f .mask 0 0 (s.a c f.ad).toNat (s.g c f.gn).toNat)))) := by
  have hcheck : firstCause [(rangeBad (s.a c f.as) (s.g c f.gn).toNat || rangeBad (s.a c f.ad) (2 * (s.g c f.gn).toNat), Cause.pantryRange),
      ((s.g c f.gn).toNat == 0 || decide (16 < (s.g c f.gn).toNat), .length)] = none := by
    rw [rangeBad_false hsrc hsrc', rangeBad_false hdst hdst', beq_false_of_ne (by omega), decide_eq_false (by omega)]
    rfl
  have hready := kvIssue_ready (c := c) (f := f) (opc := 0x90) (illegal := f.imm != 0) (eff := fun t => t.kvEnter (t.kvNew c f .mask 0 0
    (s.a c f.ad).toNat (s.g c f.gn).toNat)) rfl (by simp [UFmt.bad, hfn, hsr]) (by rw [himm]; rfl) hcheck htok (kvRoom hothers) hr
  refine (congrArg (fun t => Host.Outcome.next (s.settle t)) hready).trans ?_
  exact congrArg (fun t => Host.Outcome.next (s.settle t)) ((State.kvEnter_taken hothers .mask 0 0 _ _).2.2.2 rfl)
theorem kvDigest_enters (hsrc : (s.a c f.as).toNat < pantrySize) (hsrc' : (s.a c f.as).toNat + 128 ≤ pantrySize)
    (hr : s.Ready c (f.word 0x84) (s.pcNext c)) :
    exec (.kvDigest c f) s = .next (s.settle (State.kvRunN s.kvOps.length
      ((((s.issued c (s.pcNext c)).tokIssue c f.tok).kvEntered (s.kvNew c f .digest 0 (immF f.imm 12 20) 0 0)).runDigest
        (s.kvNew c f .digest 0 (immF f.imm 12 20) 0 0)))) := by
  have hcheck : firstCause [(rangeBad (s.a c f.as) 128, Cause.pantryRange)] = none := by
    rw [rangeBad_false hsrc hsrc']
    rfl
  have hready := kvIssue_ready (c := c) (f := f) (opc := 0x84) (illegal := false) (eff := fun t => t.kvEnter (t.kvNew c f .digest 0
    (immF f.imm 12 20) 0 0)) rfl (by simp [UFmt.bad, hfn, hsr]) rfl hcheck htok (kvRoom hothers) hr
  refine (congrArg (fun t => Host.Outcome.next (s.settle t)) hready).trans ?_
  exact congrArg (fun t => Host.Outcome.next (s.settle t)) ((State.kvEnter_taken hothers .digest 0 _ 0 0).2.2.1 rfl)

theorem kvMap_enters (himm : immF f.imm 12 20 = 0) (hsrc : (s.a c f.as).toNat < pantrySize) (hsrc' : (s.a c f.as).toNat + 16 ≤ pantrySize)
    (hr : s.Ready c (f.word 0x83) (s.pcNext c)) :
    exec (.kvMap c f) s = .next (s.settle (State.kvRunN s.kvOps.length
      ((((s.issued c (s.pcNext c)).tokIssue c f.tok).kvEntered (s.kvNew c f .map 0 0 0 0)).runMap (s.kvNew c f .map 0 0 0 0)))) := by
  have hcheck : firstCause [(rangeBad (s.a c f.as) 16, Cause.pantryRange)] = none := by
    rw [rangeBad_false hsrc hsrc']
    rfl
  have hready := kvIssue_ready (c := c) (f := f) (opc := 0x83) (illegal := immF f.imm 12 20 != 0) (eff := fun t => t.kvEnter (t.kvNew c f .map 0
    0 0 0)) rfl (by simp [UFmt.bad, hfn, hsr]) (by rw [himm]; rfl) hcheck htok (kvRoom hothers) hr
  refine (congrArg (fun t => Host.Outcome.next (s.settle t)) hready).trans ?_
  exact congrArg (fun t => Host.Outcome.next (s.settle t)) ((State.kvEnter_taken hothers .map 0 0 0 0).2.1 rfl)
end

/-- What TREE.MASK does once it has entered. -/
theorem runMask_spec {u : State} (hcore : o.core = c) (hlines : u.tracked = []) (hscrub : u.scrubbing c = false)
    (hret : u.flag Reg.DUMP_STAT Fl.DUMP_STAT_RETAINED = false) (hfit : o.dst + 2 * o.len ≤ pantrySize) :
    ((∃ i < o.len, (u.byte c (o.src + i)).toNat ≠ 0xFF ∧ i ≤ (u.byte c (o.src + i)).toNat) →
      ∃ v, u.runMask o = v.kvDone o stBounds ∧ Written u v ∧ v.pantry = u.pantry) ∧
    ((∀ i < o.len, (u.byte c (o.src + i)).toNat = 0xFF ∨ (u.byte c (o.src + i)).toNat < i) →
      ∃ v, u.runMask o = v.kvDone o stOk ∧ Written u v ∧ ∀ rows : Nat → Nat,
        (∀ i < o.len, rows i = 2 ^ i ||| (if (u.byte c (o.src + i)).toNat = 0xFF then 0 else rows (u.byte c (o.src + i)).toNat)) →
        o.len ≤ 16 → ∀ i < o.len, leNat (v.bytes c (o.dst + 2 * i) 2) = rows i) := by
  have hparents := u.parents_eq c o.src o.len
  have hbad := badParent_iff (fun i => (u.byte c (o.src + i)).toNat) o.len
  have hcheck := State.written_checkRange hlines c o.src o.len
  have hpantry := (State.onlyChecks_checkRange hlines c o.src o.len).pantry
  rw [u.runMask_eq, hcore, hparents]
  generalize u.checkRange c o.src o.len = w at hcheck hpantry ⊢
  refine ⟨fun h => ⟨w, if_pos (hbad.2 h), hcheck, hpantry⟩, fun h => ?_⟩
  have hgood : ¬badParent ((List.range' 0 o.len).map fun i => (u.byte c (o.src + i)).toNat) = true := fun hb => by
    obtain ⟨i, hi, hne, hle⟩ := hbad.1 hb
    have := h i hi
    omega
  rw [if_neg hgood]
  have hscrubw : w.scrubbing c = false := (hcheck.scrubbing c c.isLt).trans hscrub
  by_cases hrows : ∃ rows : Nat → Nat,
      ∀ i < o.len, rows i = 2 ^ i ||| (if (u.byte c (o.src + i)).toNat = 0xFF then 0 else rows (u.byte c (o.src + i)).toNat)
  · obtain ⟨rows₀, hrows₀⟩ := hrows
    have hlen : (rowBytes ((List.range o.len).map rows₀)).length = 2 * o.len := by rw [rowBytes_length, List.length_map, List.length_range]
    have hmap {rows : Nat → Nat} (hrows) := treeRows_map (n := o.len) (rows := rows) hrows h o.len 0 (Nat.zero_add _)
    obtain ⟨hstore, hbyte⟩ := State.store_spec hscrubw (hcheck.tracked.trans hlines) (hcheck.retained hret) o.dst
      (rowBytes ((List.range o.len).map rows₀)) (by omega)
    refine ⟨w.store c o.dst (rowBytes ((List.range o.len).map rows₀)), ?_, hcheck.trans hstore, fun rows hrows hmax i hi => ?_⟩
    · rw [show treeRows ((List.range' 0 o.len).map fun i => (u.byte c (o.src + i)).toNat) [] = _ from hmap hrows₀]
    · have hsame : (List.range o.len).map rows₀ = (List.range o.len).map rows := (hmap hrows₀).symm.trans (hmap hrows)
      rw [hsame] at hbyte hlen ⊢
      have hget : ((List.range o.len).map rows)[i]? = some (rows i) := by
        rw [List.getElem?_map, List.getElem?_range hi]
        rfl
      have hbytes : (w.store c o.dst (rowBytes ((List.range o.len).map rows))).bytes c (o.dst + 2 * i) 2 = leBytes 2 (rows i) := by
        refine (congrArg (State.bytes _ _ _) (leBytes_length 2 _).symm).trans (State.bytes_eq fun j hj => ?_)
        rw [leBytes_length] at hj
        rw [hbyte c _ (by omega), if_pos ⟨rfl, by omega, by omega⟩, show o.dst + 2 * i + j - o.dst = 2 * i + j from by omega]
        exact rowBytes_getD hget hj
      rw [hbytes, leNat_leBytes, Nat.mod_eq_of_lt ((treeRow_lt hrows h i hi).trans_le ?_)]
      exact Nat.pow_le_pow_right (by decide) (show i + 1 ≤ 16 by omega)
  · refine ⟨_, rfl, hcheck.trans ?_, fun rows hr => absurd ⟨rows, hr⟩ hrows⟩
    rw [State.store_direct hscrubw]
    exact (State.onlyStores_storeNow (hcheck.tracked.trans hlines) _ _ _).written

/-- The case of TREE.MASK. -/
theorem treeMask_writes (hlines : s.noHostLines) (htok : s.tok c f.tok ≠ tokPending)
    (hothers : ∀ p ∈ s.kvOps, p.core ≠ c ∧ p.started = true ∧ p.id ≠ s.nextId) (hwrite : s.writable c) (hfn : f.fn = 0) (hsr : f.sr = false)
    (himm : f.imm = 0) (hpos : 0 < (s.g c f.gn).toNat) (hmax : (s.g c f.gn).toNat ≤ 16)
    (hsrc : (s.a c f.as).toNat < pantrySize) (hsrc' : (s.a c f.as).toNat + (s.g c f.gn).toNat ≤ pantrySize)
    (hdst : (s.a c f.ad).toNat < pantrySize) (hdst' : (s.a c f.ad).toNat + 2 * (s.g c f.gn).toNat ≤ pantrySize)
    (hr : s.Ready c (f.word 0x90) (s.pcNext c)) :
    ∃ t, exec (.treeMask c f) s = .next t ∧ Issued s t c (s.pcNext c) ∧
      ((∀ i < (s.g c f.gn).toNat, (s.byte c ((s.a c f.as).toNat + i)).toNat = 0xFF ∨ (s.byte c ((s.a c f.as).toNat + i)).toNat < i) →
        t.Completed c f.tok stOk ∧ ∀ rows : Nat → Nat, (∀ i < (s.g c f.gn).toNat, rows i = 2 ^ i |||
          (if (s.byte c ((s.a c f.as).toNat + i)).toNat = 0xFF then 0 else rows (s.byte c ((s.a c f.as).toNat + i)).toNat)) →
          ∀ i < (s.g c f.gn).toNat, leNat (t.bytes c ((s.a c f.ad).toNat + 2 * i) 2) = rows i) ∧
      ((∃ i < (s.g c f.gn).toNat, (s.byte c ((s.a c f.as).toNat + i)).toNat ≠ 0xFF ∧ i ≤ (s.byte c ((s.a c f.as).toNat + i)).toNat) →
        t.Completed c f.tok stBounds ∧ PantryKept s t) := by
  have henter := s.enters c f.tok.isLt (s.kvNew c f .mask 0 0 (s.a c f.ad).toNat (s.g c f.gn).toNat)
  obtain ⟨hbad, hgood⟩ := runMask_spec (c := c) (o := s.kvNew c f .mask 0 0 (s.a c f.ad).toNat (s.g c f.gn).toNat) rfl
    (henter.tracked.trans hlines.1) ((henter.scrubbing c).trans hwrite.2.2) (henter.retained.trans hwrite.2.1) hdst'
  have hend {v : State} {st : Nat} (hv : Written _ v) := kvDone_enters (st := st) hlines htok hothers hr (o := s.kvNew c f .mask 0 0 (s.a c f.ad).toNat
    (s.g c f.gn).toNat) rfl rfl rfl (hv.kvWorks f.tok.isLt)
  have hbyte (i : Nat) := State.byte_of_pantry henter.pantry c ((s.a c f.as).toNat + i)
  have hsrcof : (s.kvNew c f .mask 0 0 (s.a c f.ad).toNat (s.g c f.gn).toNat).src = (s.a c f.as).toNat := rfl
  simp only [hsrcof, hbyte] at hbad hgood
  refine ⟨_, treeMask_enters htok hothers hfn hsr himm hpos hmax hsrc hsrc' hdst hdst' hr, ?_⟩
  by_cases h : ∀ i < (s.g c f.gn).toNat, (s.byte c ((s.a c f.as).toNat + i)).toNat = 0xFF ∨ (s.byte c ((s.a c f.as).toNat + i)).toNat < i
  · obtain ⟨v, hrun, hv, hrows⟩ := hgood h
    rw [hrun]
    obtain ⟨hsettle, hissued, hdone, hpantry⟩ := hend (st := stOk) hv (by decide) s.kvOps.length
    rw [hsettle]
    refine ⟨hissued, fun _ => ⟨hdone, fun rows hr i hi => ?_⟩, fun ⟨i, hi, hne, hle⟩ => ?_⟩
    · rw [State.bytes_congr hpantry]
      exact hrows rows hr hmax i hi
    · have := h i hi
      omega
  · have hex : ∃ i < (s.g c f.gn).toNat, (s.byte c ((s.a c f.as).toNat + i)).toNat ≠ 0xFF ∧ i ≤ (s.byte c ((s.a c f.as).toNat + i)).toNat := by
      push Not at h
      exact h
    obtain ⟨v, hrun, hv, hkept⟩ := hbad hex
    rw [hrun]
    obtain ⟨hsettle, hissued, hdone, hpantry⟩ := hend (st := stBounds) hv (by decide) s.kvOps.length
    rw [hsettle]
    exact ⟨hissued, fun h' => absurd h' h, fun _ => ⟨hdone, pantryKept_of_eq (hpantry.trans (hkept.trans henter.pantry))⟩⟩

/-! ## What the map says -/

theorem State.mapEntry_congr (h : t.pantry = s.pantry) (l : LayerKv) (r i : Nat) : t.mapEntry l r i = s.mapEntry l r i :=
  congrArg mapOf (State.bytes_congr h _ _ _)
theorem State.mapList_congr (h : t.pantry = s.pantry) (l : LayerKv) (r : Nat) : t.mapList l r = s.mapList l r := by
  rw [State.mapList, State.mapList]
  simp only [State.mapEntry_congr h]
theorem State.digestEntry_congr (h : t.pantry = s.pantry) (l : LayerKv) (r g : Nat) : t.digestEntry l r g = s.digestEntry l r g := by
  rw [State.digestEntry, State.digestEntry, State.mapList_congr h]
theorem State.lookMap_spec (h : s.tracked = []) (l : LayerKv) (r : Nat) : Written s (s.lookMap l r) ∧ (s.lookMap l r).pantry = s.pantry :=
  State.look_spec h ..

/-! ## KV.DIGEST (R289) -/

/-- The conversions of a digest. -/
def State.digestConvs (s : State) (c src : Nat) : List Conv :=
  (List.range 64).map fun i => fmtE4m3.convert true .even
    (if s.poisonedAt c (src + 2 * i) then FVal.nan else fmtBf16.decode (leNat (s.bytes c (src + 2 * i) 2)))
def State.markDigest (s : State) (g : Nat × Nat × Nat) : State :=
  { s with digestDirty := s.digestDirty.filter (fun k => k != g) ++ [g] }
theorem State.runDigest_eq {u w : State} {l : LayerKv} {j : Nat} {e : MapEntry} (hl : u.layerOf o.ctx o.tag = some l)
    (hknown : u.kvKnown o.core o.ctx = true) (hw : u.lookMap l (u.residentOf o.ctx) = w)
    (he : w.digestEntry l (w.residentOf o.ctx) (l.groupOf o.imm) = some (j, e)) :
    u.runDigest o = ((((w.checkRange o.core o.src 128).store (l.set.getD (o.imm % l.set.length) 0)
      (l.slotAt e.slot + 64 * (o.imm / l.set.length % 576)) ((w.digestConvs o.core o.src).map fun v => BitVec.ofNat 8 v.code)).markDigest
        (o.ctx, o.tag, e.block)).noteFlags o.core (convFlags (w.digestConvs o.core o.src))).kvDone o stOk := by
  rw [State.runDigest, hl]
  dsimp only
  rw [if_neg (by rw [hknown]; decide), hw, he]
  rfl

theorem State.kvWorks_wr {r : Nat} (hr : engReg c r) (x : DWord) (hk : k < 16) : KvWorks c k s (s.wr r x) := by
  obtain ⟨j, hj, rfl⟩ := hr
  refine ⟨fun o ho => State.rd_wr_other _ _ _ _ ?_, State.rd_wr_other _ _ _ _ ?_, State.wr_tokOps .., State.wr_kvOps .., State.wr_biWant ..⟩
  · simp only [issueRegs, Reg.SEQ_PC, Reg.SEQ_ISSUED, Reg.SEQ_STAT, List.mem_cons, List.not_mem_nil, or_false] at ho
    omega
  · unfold Reg.SEQ_TOKEN
    omega
theorem State.kvWorks_sticky (hk : k < 16) {r : Nat} (hr : engReg c r) (g : Fld) (b : Bool) : KvWorks c k s (s.sticky r g b) := by
  rw [State.sticky]
  split
  · exact State.kvWorks_wr hr _ hk
  · exact .refl
theorem State.kvWorks_noteFlags (hk : k < 16) (g : ConvFlags) : KvWorks c k s (s.noteFlags c g) := by
  have hr : engReg c (Reg.RND_STATUS c) := ⟨0x38004, by decide, rfl⟩
  exact ((State.kvWorks_sticky hk hr _ _).trans (State.kvWorks_sticky hk hr _ _)).trans
    ((State.kvWorks_sticky hk hr _ _).trans (State.kvWorks_sticky hk hr _ _))
theorem State.kvWorks_markDigest (s : State) (g : Nat × Nat × Nat) : KvWorks c k s (s.markDigest g) := ⟨fun _ _ => rfl, rfl, rfl, rfl, rfl⟩
theorem State.markDigest_pantry (s : State) (g : Nat × Nat × Nat) : (s.markDigest g).pantry = s.pantry := rfl

/-- What KV.DIGEST does once it has entered. -/
theorem runDigest_spec {u : State} {l : LayerKv} {j : Nat} {e : MapEntry} (hcore : o.core = c) (hk : k < 16) (hlines : u.tracked = [])
    (hscrub : u.noScrub) (hret : u.flag Reg.DUMP_STAT Fl.DUMP_STAT_RETAINED = false) (hclean : u.pantryEcc = [])
    (hl : u.layerOf o.ctx o.tag = some l) (hknown : u.kvKnown c o.ctx = true)
    (he : u.digestEntry l (u.residentOf o.ctx) (l.groupOf o.imm) = some (j, e)) (hd : l.set.getD (o.imm % l.set.length) 0 < 256)
    (hfit : l.slotAt e.slot + 64 * (o.imm / l.set.length % 576) + 64 ≤ pantrySize) :
    ∃ v, u.runDigest o = v.kvDone o stOk ∧ KvWorks c k u v ∧ ∀ i < 64,
      v.byte (l.set.getD (o.imm % l.set.length) 0) (l.slotAt e.slot + 64 * (o.imm / l.set.length % 576) + i) =
        BitVec.ofNat 8 (fmtE4m3.convert true .even (fmtBf16.decode (leNat (u.bytes c (o.src + 2 * i) 2)))).code := by
  obtain ⟨hlook, hlookp⟩ := State.lookMap_spec hlines l (u.residentOf o.ctx)
  have hpoison (x : Nat) : (u.lookMap l (u.residentOf o.ctx)).poisonedAt c x = false := by
    have hsame : u.lookMap l (u.residentOf o.ctx) = u := if_pos (by rw [hlines, hclean]; rfl)
    rw [hsame, State.poisonedAt, State.ecc, hclean]
    rfl
  generalize hw : u.lookMap l (u.residentOf o.ctx) = w at hlook hlookp hpoison
  have hcheck := State.written_checkRange (hlook.tracked.trans hlines) c o.src 128
  have hconv : w.digestConvs c o.src = (List.range 64).map fun i => fmtE4m3.convert true .even
      (fmtBf16.decode (leNat (u.bytes c (o.src + 2 * i) 2))) := by
    rw [State.digestConvs]
    simp only [hpoison, Bool.false_eq_true, if_false, State.bytes_congr hlookp]
  have hlen : ((w.digestConvs c o.src).map fun v => BitVec.ofNat 8 v.code).length = 64 := by
    rw [List.length_map, State.digestConvs, List.length_map, List.length_range]
  obtain ⟨hstore, hbyte⟩ := State.store_spec (hcheck.noScrub (hlook.noScrub hscrub) _ hd) (hcheck.tracked.trans (hlook.tracked.trans hlines))
    (hcheck.retained (hlook.retained hret)) (l.slotAt e.slot + 64 * (o.imm / l.set.length % 576))
    ((w.digestConvs c o.src).map fun v => BitVec.ofNat 8 v.code) (by rw [hlen]; exact hfit)
  have hrun := State.runDigest_eq (o := o) hl (by rwa [hcore]) hw (by rw [hlook.residentOf, State.digestEntry_congr hlookp]; exact he)
  rw [hcore] at hrun
  refine ⟨_, hrun, ?_, fun i hi => ?_⟩
  · exact ((((hlook.trans hcheck).trans hstore).kvWorks hk).trans (State.kvWorks_markDigest _ _)).trans (State.kvWorks_noteFlags hk _)
  · have hflags := (State.carried_noteFlags (c := c) (s := ((w.checkRange c o.src 128).store (l.set.getD (o.imm % l.set.length) 0)
      (l.slotAt e.slot + 64 * (o.imm / l.set.length % 576)) ((w.digestConvs c o.src).map fun v => BitVec.ofNat 8 v.code)).markDigest
        (o.ctx, o.tag, e.block)) (convFlags (w.digestConvs c o.src))).pantry
    refine (State.byte_of_pantry (hflags.trans (State.markDigest_pantry _ _)) _ _).trans ?_
    rw [hbyte _ _ (by omega), if_pos ⟨rfl, by omega, by omega⟩, Nat.add_sub_cancel_left, List.getD_eq_getElem?_getD, List.getElem?_map, hconv,
      List.getElem?_map, List.getElem?_range hi]
    rfl

/-! ## KV.MAP (R288) -/

theorem State.mapRefs_hot (s : State) (x : Nat) {e : MapEntry} (old : MapEntry) (h : e.state = 1) : s.mapRefs x e old = s := by
  rw [State.mapRefs]
  split
  · rfl
  · rw [if_neg (by omega), if_neg (by omega)]
/-- A request with STATE HOT for an entry that is HOT, of the same block, slot and node. -/
theorem State.mapWrite_hot {bs : List Byte} {l : LayerKv} (hbad : requestBad bs = false)
    (hslot : (mapOf bs).slot = 0xFFFF ∨ (mapOf bs).slot < l.slots) (hstate : (mapOf bs).state = 1)
    (hhot : (s.mapEntry l (s.residentOf o.ctx) (leAt bs 9 1)).state = 1)
    (hblock : (s.mapEntry l (s.residentOf o.ctx) (leAt bs 9 1)).block = (mapOf bs).block)
    (hsame : (mapOf bs).slot = 0xFFFF ∨ (mapOf bs).slot = (s.mapEntry l (s.residentOf o.ctx) (leAt bs 9 1)).slot)
    (hnode : (s.mapEntry l (s.residentOf o.ctx) (leAt bs 9 1)).node = (mapOf bs).node)
    (hbook : (mapOf bs).node = 0 ∨ ∃ p, s.part (s.ctx o.ctx).part = some p ∧ (mapOf bs).node < p.bookNodes) :
    s.mapWrite o bs l = some (s.setMapEntry l (s.residentOf o.ctx) (leAt bs 9 1)
      { s.mapEntry l (s.residentOf o.ctx) (leAt bs 9 1) with pin := (mapOf bs).pin, fill := (mapOf bs).fill }) := by
  have hno : ¬((mapOf bs).node ≠ 0 ∧ (match s.part (s.ctx o.ctx).part with | none => 0 | some p => p.bookNodes) ≤ (mapOf bs).node) := by
    rintro ⟨hne, hle⟩
    obtain ⟨p, hp, hlt⟩ := hbook.resolve_left hne
    rw [hp] at hle
    exact absurd hlt (Nat.not_lt.2 hle)
  rw [State.mapWrite]
  dsimp only
  rw [if_neg (by rintro (h | h | h); exacts [Bool.noConfusion (hbad.symm.trans h), absurd hslot (by omega), hno h]), if_neg (by omega), if_pos hstate,
    if_pos ⟨hhot, hblock, hsame, hnode.symm⟩]
theorem State.runMap_one {u w t : State} {l : LayerKv}
    (hls : u.tagLayers (u.ctx o.ctx).part o.tag = [l]) (hknown : u.kvKnown o.core o.ctx = true)
    (hstate : (mapOf (u.bytes o.core o.src 16)).state = 1) (hw : (u.checkRange o.core o.src 16).lookMap l
      ((u.checkRange o.core o.src 16).residentOf o.ctx) = w) (hmap : w.mapWrite o (u.bytes o.core o.src 16) l = some t)
    (hfetch : ∀ q ∈ t.loftFetches, o.id ∉ q.ops) : u.runMap o = t.kvDone o stOk := by
  have hfilter : [l].filter (fun l => !(l.draft && o.tag == 0xFFF && (mapOf (u.bytes o.core o.src 16)).state == 3)) = [l] := by
    rw [hstate]
    exact List.filter_eq_self.2 fun l _ => by simp
  have hnone : ¬(t.loftFetches.any fun q => q.ops.contains o.id) = true := by
    rw [List.any_eq_true]
    rintro ⟨q, hq, h⟩
    exact hfetch q hq (List.contains_iff_mem.1 h)
  have hlayers : State.mapLayers o (u.bytes o.core o.src 16) [l] w = some t := by
    rw [State.mapLayers, hmap]
    rfl
  rw [State.runMap]
  dsimp only
  rw [hls, hfilter, if_neg (by rw [hknown]; simp), List.foldl_cons, List.foldl_nil, hw]
  cases w.part (w.ctx o.ctx).part with
  | none =>
    dsimp only
    rw [hlayers]
    dsimp only
    rw [State.mapRefs_hot _ _ _ hstate, ite_self, if_neg hnone]
  | some p =>
    dsimp only
    rw [if_neg (by omega), hlayers]
    dsimp only
    rw [State.mapRefs_hot _ _ _ hstate, ite_self, if_neg hnone]

theorem pantryByte_setMapEntry {l : LayerKv} {r i : Nat} (e : MapEntry) (hcs : ∀ d ∈ l.keepers, d < 256) (hfit : l.mapAt r i + 16 ≤ pantrySize)
    (hscrub : s.noScrub) (hlines : s.tracked = []) (hret : s.flag Reg.DUMP_STAT Fl.DUMP_STAT_RETAINED = false) :
    Written s (s.setMapEntry l r i e) ∧ (l.lead ∈ l.keepers → e.Fits → (s.setMapEntry l r i e).mapEntry l r i = e) := by
  obtain ⟨hwritten, hbyte⟩ := State.storeSet_spec hcs (l.mapAt r i) (e.bytes i) (by rwa [MapEntry.bytes_length]) s hscrub hlines hret
  refine ⟨hwritten, fun hlead hfits => ?_⟩
  have hbytes : (s.setMapEntry l r i e).bytes l.lead (l.mapAt r i) 16 = e.bytes i :=
    bytes_of_stored (by rwa [MapEntry.bytes_length]) (fun p hp hlo hhi => by
      rw [State.setMapEntry, hbyte _ p hp, if_pos ⟨hlead, hlo, hhi⟩]) (MapEntry.bytes_length e i).symm
  rw [State.mapEntry, hbytes, mapOf_bytes hfits]

/-- What KV.MAP does with a HOT entry of one layer once it has entered. -/
theorem runMap_spec {u : State} {d : Nat} {l : LayerKv} {r i : Nat} {e h : MapEntry} {bs : List Byte} (hcore : o.core = d) (hlines : u.tracked = [])
    (hscrub : u.noScrub) (hret : u.flag Reg.DUMP_STAT Fl.DUMP_STAT_RETAINED = false)
    (hls : u.tagLayers (u.ctx o.ctx).part o.tag = [l]) (hknown : u.kvKnown d o.ctx = true) (hlead : l.lead ∈ l.keepers)
    (hkeep : ∀ k ∈ l.keepers, k < 256) (hfetch : ∀ q ∈ u.loftFetches, o.id ∉ q.ops) (hbs : u.bytes d o.src 16 = bs) (hr : u.residentOf o.ctx = r)
    (hi : leAt bs 9 1 = i) (he : mapOf bs = e) (hh : u.mapEntry l r i = h) (hfit : l.mapAt r i + 16 ≤ pantrySize)
    (hbad : requestBad bs = false) (hslot : e.slot = 0xFFFF ∨ e.slot < l.slots) (hstate : e.state = 1) (hhot : h.state = 1)
    (hblock : h.block = e.block) (hsame : e.slot = 0xFFFF ∨ e.slot = h.slot) (hnode : h.node = e.node)
    (hbook : e.node = 0 ∨ ∃ p, u.part (u.ctx o.ctx).part = some p ∧ e.node < p.bookNodes) :
    ∃ v, u.runMap o = v.kvDone o stOk ∧ Written u v ∧ v.mapEntry l r i = { h with pin := e.pin, fill := e.fill } := by
  have hcheck := State.written_checkRange hlines d o.src 16
  have hcheckp := (State.onlyChecks_checkRange hlines d o.src 16).pantry
  obtain ⟨hlook, hlookp⟩ := State.lookMap_spec (hcheck.tracked.trans hlines) l r
  have hw := hcheck.trans hlook
  have hwr : ((u.checkRange d o.src 16).lookMap l r).residentOf o.ctx = r := (hw.residentOf _).trans hr
  have hwh : ((u.checkRange d o.src 16).lookMap l r).mapEntry l r i = h := (State.mapEntry_congr (hlookp.trans hcheckp) l r i).trans hh
  have hfits : MapEntry.Fits { h with pin := e.pin, fill := e.fill } := by
    obtain ⟨hb, hs, hst, -, hn⟩ : h.Fits := hh ▸ mapOf_fits _
    exact ⟨hb, hs, hst, he ▸ (mapOf_fits bs).fill, hn⟩
  obtain ⟨hset, hread⟩ := pantryByte_setMapEntry (s := (u.checkRange d o.src 16).lookMap l r) { h with pin := e.pin, fill := e.fill } hkeep hfit
    (hw.noScrub hscrub) (hw.tracked.trans hlines) (hw.retained hret)
  have hmap : ((u.checkRange d o.src 16).lookMap l r).mapWrite o bs l =
      some (((u.checkRange d o.src 16).lookMap l r).setMapEntry l r i { h with pin := e.pin, fill := e.fill }) := by
    subst he hi
    have hwrite := State.mapWrite_hot (s := (u.checkRange d o.src 16).lookMap l r) (o := o) hbad hslot hstate
    rw [hwr, hwh] at hwrite
    refine hwrite hhot hblock hsame hnode ?_
    rw [hw.ctx, hw.part]
    exact hbook
  subst hbs he hcore
  refine ⟨_, State.runMap_one hls hknown hstate rfl ?_ ?_, hw.trans hset, hread hlead hfits⟩
  · rw [hcheck.residentOf, hr]
    exact hmap
  · intro q hq
    rw [hset.loftFetches, hw.loftFetches] at hq
    exact hfetch q hq

/-- Settles O28: each instruction starts and ends as it enters, with its data written in between. -/
theorem mapsDigestsAndMasksAreWritten : Obligations.MapsDigestsAndMasksAreWritten := by
  unfold Obligations.MapsDigestsAndMasksAreWritten
  intro c f s hfn hsr hlines htok hothers' hwrite hscrub src dst n x tag r
  have hothers : ∀ p ∈ s.kvOps, p.core ≠ c ∧ p.started = true ∧ p.id ≠ s.nextId := fun p hp => hothers' p hp
  refine ⟨?_, ?_, ?_⟩
  · intro l himm hsrc hsrc' htags hknown hlead hkeep hfetch bs e i h hfit hbad hslot hstate hhot hblock hsame hnode hbook hr
    have henter := s.enters c f.tok.isLt (s.kvNew c f .map 0 0 0 0)
    have hend {v : State} (hv : Written _ v) := kvDone_enters (st := stOk) hlines htok hothers hr (o := s.kvNew c f .map 0 0 0 0) rfl rfl rfl
      (hv.kvWorks f.tok.isLt) (by decide) s.kvOps.length
    refine ⟨_, kvMap_enters htok hothers hfn hsr himm hsrc hsrc' hr, ?_⟩
    generalize ((s.issued c (s.pcNext c)).tokIssue c f.tok).kvEntered (s.kvNew c f .map 0 0 0 0) = u at henter hend ⊢
    have hls : u.tagLayers (u.ctx x).part tag = [l] := by
      rw [State.tagLayers, henter.ctx, henter.kvLayers]
      exact htags
    have hbook' : e.node = 0 ∨ ∃ p, u.part (u.ctx x).part = some p ∧ e.node < p.bookNodes := by
      rw [henter.ctx, henter.part]
      exact hbook
    obtain ⟨v, hrun, hv, hentry⟩ := runMap_spec (o := s.kvNew c f .map 0 0 0 0) rfl (henter.tracked.trans hlines.1) (henter.noScrub hscrub)
      (henter.retained.trans hwrite.2.1) hls ((henter.kvKnown x).trans hknown) hlead hkeep (by rw [henter.loftFetches]; exact hfetch)
      (henter.bytes c src 16) (henter.residentOf x) rfl rfl (State.mapEntry_congr henter.pantry l r i) hfit hbad hslot hstate hhot hblock hsame
      hnode hbook'
    obtain ⟨hsettle, hissued, hdone, hpantry⟩ := hend hv
    rw [hrun, hsettle]
    exact ⟨hissued, hdone, (State.mapEntry_congr hpantry l r i).trans hentry⟩
  · intro l j e hsrc hsrc' hl hknown b core place hentry hcore hfit hclean hr
    have henter := s.enters c f.tok.isLt (s.kvNew c f .digest 0 (immF f.imm 12 20) 0 0)
    have hl' : (((s.issued c (s.pcNext c)).tokIssue c f.tok).kvEntered (s.kvNew c f .digest 0 (immF f.imm 12 20) 0 0)).layerOf x tag = some l := by
      rw [State.layerOf, henter.ctx, henter.kvLayers]
      exact hl
    obtain ⟨v, hrun, hworks, hbytes⟩ := runDigest_spec (o := s.kvNew c f .digest 0 (immF f.imm 12 20) 0 0) rfl f.tok.isLt
      (henter.tracked.trans hlines.1) (henter.noScrub hscrub) (henter.retained.trans hwrite.2.1) (henter.pantryEcc.trans hclean) hl'
      ((henter.kvKnown x).trans hknown) (by rw [henter.residentOf, State.digestEntry_congr henter.pantry]; exact hentry) hcore hfit
    refine ⟨_, kvDigest_enters htok hothers hfn hsr hsrc hsrc' hr, ?_⟩
    rw [hrun]
    obtain ⟨hsettle, hissued, hdone, hpantry⟩ := kvDone_enters (st := stOk) hlines htok hothers hr rfl rfl rfl hworks (by decide) s.kvOps.length
    rw [hsettle]
    refine ⟨hissued, hdone, fun i hi => (State.byte_of_pantry hpantry _ _).trans ((hbytes i hi).trans ?_)⟩
    rw [henter.bytes]
    rfl
  · intro himm hpos hmax hsrc hsrc' hdst hdst' hr parent
    exact treeMask_writes hlines htok hothers hwrite hfn hsr himm hpos hmax hsrc hsrc' hdst hdst' hr

end Sys2Proof.Machine
end

section
/-! PROOFS. What commits and rollbacks of KV leave: the counts of the cores' holds change at their own step only, and a module
keeps its number and its stand-ins (R284, R286). -/

namespace Sys2Proof.Machine

variable {s t u v : State} {k n x r c : Nat} {l : LayerKv}

/-- The parts of the state that the steps of a commit leave beside the holds that it sets. -/
structure SameHolds (s t : State) : Prop where
  tracked : t.tracked = s.tracked
  biWant : t.biWant = s.biWant
  kvHolds : t.kvHolds = s.kvHolds
  standIns : t.standIns = s.standIns
  module : t.rd Reg.LNK_MODULE = s.rd Reg.LNK_MODULE
theorem SameHolds.trans (h : SameHolds s t) (h' : SameHolds t u) : SameHolds s u :=
  ⟨h'.tracked.trans h.tracked, h'.biWant.trans h.biWant, h'.kvHolds.trans h.kvHolds, h'.standIns.trans h.standIns, h'.module.trans h.module⟩

/-- With no line of the aperture cached, a step leaves those parts. -/
structure KvHeld (s t : State) : Prop where
  same : s.tracked = [] → SameHolds s t
theorem KvHeld.refl : KvHeld s s := ⟨fun _ => ⟨rfl, rfl, rfl, rfl, rfl⟩⟩
theorem KvHeld.trans (h : KvHeld s t) (h' : KvHeld t u) : KvHeld s u := 
  ⟨fun hs => (h.same hs).trans (h'.same ((h.same hs).tracked.trans hs))⟩
theorem KvHeld.foldl {α : Type} {f : State → α → State} {l : List α} (hf : ∀ s a, KvHeld s (f s a)) (s : State) : KvHeld s (l.foldl f s) :=
  List.foldlRecOn (motive := KvHeld s) l f .refl fun t ht a _ => ht.trans (hf t a)
theorem KvHeld.ite {p : Prop} [Decidable p] (h : KvHeld s t) (h' : KvHeld s u) : KvHeld s (if p then t else u) := by
  split
  · exact h
  · exact h'

theorem module_unchecked : Unchecked Reg.LNK_MODULE := fun d => module_not_checkRegs d
theorem Written.kvHeld (h : Written s t) : KvHeld s t := by
  have hm := h.rd _ module_unchecked
  have ht := h.tracked
  have hb := h.biWant
  obtain ⟨⟨_, _, _, _, _, rfl⟩, -, -⟩ := h
  exact ⟨fun _ => ⟨ht, hb, rfl, rfl, hm⟩⟩

/-! ## Accesses -/

theorem State.kvHeld_look (s : State) (d o n : Nat) : KvHeld s (s.look d o n) :=
  ⟨fun h => (State.look_spec h d o n).1.kvHeld.same h⟩
theorem State.kvHeld_store (s : State) (d o : Nat) (bs : List Byte) : KvHeld s (s.store d o bs) := by
  rw [State.store]
  exact .ite ⟨fun _ => ⟨rfl, rfl, rfl, rfl, rfl⟩⟩ ⟨fun h => (State.onlyStores_storeNow h d o bs).written.kvHeld.same h⟩
theorem State.kvHeld_storeSet (s : State) (cs : List Nat) (o : Nat) (bs : List Byte) : KvHeld s (s.storeSet cs o bs) :=
  .foldl (fun s d => s.kvHeld_store d o bs) s
theorem State.kvHeld_setMapEntry (s : State) (l : LayerKv) (r i : Nat) (e : MapEntry) : KvHeld s (s.setMapEntry l r i e) :=
  s.kvHeld_storeSet ..
theorem State.kvHeld_lookMap (s : State) (l : LayerKv) (r : Nat) : KvHeld s (s.lookMap l r) := s.kvHeld_look ..
theorem State.kvHeld_markSlot (s : State) (l : LayerKv) (k : Nat) (b : Bool) : KvHeld s (s.markSlot l k b) :=
  ⟨fun _ => ⟨rfl, rfl, rfl, rfl, rfl⟩⟩
theorem State.kvHeld_setCtx (s : State) (x : Nat) (k : Ctx) : KvHeld s (s.setCtx x k) :=
  ⟨fun _ => ⟨rfl, rfl, rfl, rfl, rfl⟩⟩
theorem State.kvHeld_dirty (s : State) (x tag b : Nat) : KvHeld s (s.dirty x tag b) :=
  ⟨fun _ => ⟨rfl, rfl, rfl, rfl, rfl⟩⟩
theorem State.kvHeld_clean (s : State) (x tag b : Nat) : KvHeld s (s.clean x tag b) :=
  ⟨fun _ => ⟨rfl, rfl, rfl, rfl, rfl⟩⟩
theorem State.kvHeld_emit (s : State) (m : OutMsg) : KvHeld s (s.emit m) :=
  ⟨fun _ => ⟨rfl, rfl, rfl, rfl, rfl⟩⟩
theorem State.kvHeld_launch (h : KvHeld s t) (w : State) (k : Nat) : KvHeld s (State.launch w t k) :=
  h.trans ⟨fun _ => ⟨rfl, rfl, rfl, rfl, rfl⟩⟩
theorem State.kvHeld_wr {o : Nat} (ho : o ≠ Reg.LNK_MODULE) (s : State) (y : DWord) : KvHeld s (s.wr o y) :=
  ⟨fun _ => ⟨State.wr_tracked .., State.wr_biWant .., State.wr_kvHolds .., State.wr_standIns .., State.rd_wr_other _ _ _ _ ho.symm⟩⟩
theorem State.kvHeld_kvStat (s : State) (p : Nat) (f : Fld) : KvHeld s (s.kvStat p f) :=
  State.kvHeld_wr (by unfold Reg.SRV_KV_STAT Reg.LNK_MODULE; omega) s _
theorem State.kvHeld_loftSpilled (s : State) (p n : Nat) : KvHeld s (s.loftSpilled p n) :=
  (State.kvHeld_wr (by unfold Reg.SRV_KV_LOFT_WR Reg.LNK_MODULE; omega) s _).trans (State.kvHeld_wr (by decide) _ _)
theorem State.kvHeld_setBookNum (s : State) (p : PartRec) (n o w y : Nat) : KvHeld s (s.setBookNum p n o w y) := by
  rw [State.setBookNum]
  split
  · exact .refl
  · exact s.kvHeld_store ..

/-! ## Steps of a commit (R284, R293) -/

theorem State.kvHeld_toParent (s : State) (x : Nat) (p : PartRec) (n : Nat) : KvHeld s (s.toParent x p n) := s.kvHeld_setCtx ..
theorem State.kvHeld_diverge (s : State) (l : LayerKv) (x r i : Nat) (e : MapEntry) (slot : Nat) : KvHeld s (s.diverge l x r i e slot) := by
  have hcopy : KvHeld s (((l.set.foldl (fun (t : State) c => (t.look c (l.slotAt e.slot) (entryBytes * e.fill)).store c (l.slotAt slot)
      (t.bytes c (l.slotAt e.slot) (entryBytes * e.fill))) s).setMapEntry l r i ⟨e.block, slot, 1, false, e.fill, 0⟩).kvStat l.part
        Fl.SRV_KV_STAT_DIVERGED) :=
    ((KvHeld.foldl (fun t c => (t.kvHeld_look ..).trans (State.kvHeld_store ..)) s).trans (State.kvHeld_setMapEntry ..)).trans
      (State.kvHeld_kvStat ..)
  rw [State.diverge]
  split
  · exact hcopy
  · exact .ite ((hcopy.trans (State.kvHeld_setBookNum ..)).trans (State.kvHeld_toParent ..)) hcopy
theorem State.kvHeld_slotFor (s : State) (l : LayerKv) (x r p : Nat) : KvHeld s (s.slotFor l x r p).1 := by
  rw [State.slotFor]
  split
  · exact .refl
  · exact .refl
  · split
    · exact (s.kvHeld_markSlot l _ true).trans (State.kvHeld_diverge ..)
    · exact ⟨fun _ => ⟨rfl, rfl, rfl, rfl, rfl⟩⟩

/-- One entry placed. -/
def State.placed (s : State) (l : LayerKv) (x r c entry p : Nat) (slot : Option Nat) : State :=
  let staged := (s.hold x l.tag c).staged.testBit entry
  let data := if staged then s.stagedBytes l x r c entry else List.replicate entryBytes 0x7F
  let u := if staged then s.look c (l.stageAt r entry) entryBytes else s.kvStat l.part Fl.SRV_KV_STAT_COMMIT_HOLE
  match slot with
  | none => u
  | some k => (u.store c (l.slotAt k + entryBytes * (p % 64)) data).dirty x l.tag (p / 64)
theorem State.place_eq (s : State) (l : LayerKv) (x r c entry p : Nat) :
    s.place l x r c entry p = (s.slotFor l x r p).1.placed l x r c entry p (s.slotFor l x r p).2 := by
  rw [State.place]
  generalize s.slotFor l x r p = q
  rfl
theorem State.kvHeld_placed (s : State) (l : LayerKv) (x r c entry p : Nat) (slot : Option Nat) : KvHeld s (s.placed l x r c entry p slot) := by
  have hlook : KvHeld s (if (s.hold x l.tag c).staged.testBit entry = true then s.look c (l.stageAt r entry) entryBytes
      else s.kvStat l.part Fl.SRV_KV_STAT_COMMIT_HOLE) := .ite (s.kvHeld_look ..) (s.kvHeld_kvStat ..)
  cases slot with
  | none => exact hlook
  | some k => exact (hlook.trans (State.kvHeld_store ..)).trans (State.kvHeld_dirty ..)
theorem State.kvHeld_place (s : State) (l : LayerKv) (x r c entry p : Nat) : KvHeld s (s.place l x r c entry p) := by
  rw [State.place_eq]
  exact (s.kvHeld_slotFor ..).trans (State.kvHeld_placed ..)
theorem State.kvHeld_dropReserve (s : State) (q : KvReserve) : KvHeld s (s.dropReserve q) :=
  ⟨fun _ => ⟨rfl, rfl, rfl, rfl, rfl⟩⟩
theorem State.kvHeld_mapCommit (s : State) (l : LayerKv) (x r b fill : Nat) : KvHeld s (s.mapCommit l x r b fill) := by
  rw [State.mapCommit]
  split
  · exact .ite (s.kvHeld_setMapEntry ..) .refl
  · split
    · have hfirst := fun (q : KvReserve) (i : Nat) (e : MapEntry) => (s.kvHeld_dropReserve q).trans (State.kvHeld_setMapEntry (s.dropReserve q) l r i e)
      dsimp only
      split
      · exact (((hfirst _ _ _).trans (State.kvHeld_dropReserve ..)).trans (State.kvHeld_setMapEntry ..)).trans (State.kvHeld_storeSet ..)
      · exact hfirst _ _ _
    · exact .refl
def State.setReserves (s : State) (qs : List KvReserve) : State := { s with kvReserves := qs }
theorem State.kvHeld_setReserves (s : State) (qs : List KvReserve) : KvHeld s (s.setReserves qs) := ⟨fun _ => ⟨rfl, rfl, rfl, rfl, rfl⟩⟩
theorem State.kvHeld_unneed (s : State) (l : LayerKv) (x mask : Nat) : KvHeld s (s.unneed l x mask) :=
  (s.kvHeld_setReserves _).trans (KvHeld.foldl (f := fun (t : State) (q : KvReserve) => t.markSlot l q.slot false) (fun t _ => t.kvHeld_markSlot ..) _)
def State.setSpills (s : State) (qs : List Spill) : State := { s with spills := qs }
theorem State.kvHeld_setSpills (s : State) (qs : List Spill) : KvHeld s (s.setSpills qs) := ⟨fun _ => ⟨rfl, rfl, rfl, rfl, rfl⟩⟩
theorem State.kvHeld_spillsEnd (s : State) (l : LayerKv) : KvHeld s (s.spillsEnd l) :=
  (s.kvHeld_setSpills _).trans (KvHeld.foldl (f := fun (t : State) (q : Spill) => if q.kept then t else t.markSlot l q.slot false)
    (fun t _ => .ite .refl (t.kvHeld_markSlot ..)) _)
def State.pushSpill (s : State) (q : Spill) : State := { s with spills := s.spills ++ [q], nextId := s.nextId + 1 }
theorem State.kvHeld_pushSpill (s : State) (q : Spill) : KvHeld s (s.pushSpill q) := ⟨fun _ => ⟨rfl, rfl, rfl, rfl, rfl⟩⟩
/-- A page that goes to the Loft. -/
def State.spillOut (s : State) (l : LayerKv) (x r i : Nat) (e : MapEntry) (data : List Byte) : State :=
  let s := s.launch ((s.emit (.hostWrite (s.loftPage x l e.block) data)).loftSpilled l.part pageBytes) (65536 + s.nextId)
  let s := (s.setMapEntry l r i mapEmpty).clean x l.tag e.block
  s.pushSpill ⟨s.nextId, x, l.tag, e.block, e.slot, false, false, false⟩
theorem State.kvHeld_spillOut (s : State) (l : LayerKv) (x r i : Nat) (e : MapEntry) (data : List Byte) :
    KvHeld s (s.spillOut l x r i e data) :=
  (((State.kvHeld_launch ((s.kvHeld_emit _).trans (State.kvHeld_loftSpilled ..)) _ _).trans (State.kvHeld_setMapEntry ..)).trans
    (State.kvHeld_clean ..)).trans (State.kvHeld_pushSpill ..)
theorem State.kvHeld_spill (s : State) (l : LayerKv) (x r : Nat) : KvHeld s (s.spill l x r) := by
  rw [State.spill]
  split
  · exact .refl
  · exact (s.kvHeld_look ..).trans (State.kvHeld_spillOut ..)

end Sys2Proof.Machine
end

section
/-! PROOFS. KV operations append, commit and roll back (O29). -/

namespace Sys2Proof.Machine

variable {s t u v : State} {k n x r c id : Nat} {l : LayerKv} {m : PnMsg} {o : KvOp}

/-! ## Masks -/

theorem maskOut_testBit (k i : Nat) : ∀ m, (maskOut m k).testBit i = (m.testBit i && !k.testBit i) := by
  have hlow (m k : Nat) : (m &&& k) % 2 = 1 ↔ m % 2 = 1 ∧ k % 2 = 1 := by
    have h := Nat.testBit_and m k 0
    simp only [Nat.testBit_zero] at h
    rw [Bool.eq_iff_iff, Bool.and_eq_true, decide_eq_true_iff, decide_eq_true_iff, decide_eq_true_iff] at h
    exact h
  have hhigh (m k : Nat) : (m &&& k) / 2 = m / 2 &&& k / 2 := Nat.and_div_two
  induction i generalizing k with
  | zero =>
    intro m
    have hle := @Nat.and_le_left m k
    have h := hlow m k
    simp only [maskOut, Nat.testBit_zero]
    rw [Bool.eq_iff_iff, Bool.and_eq_true, decide_eq_true_iff, decide_eq_true_iff, Bool.not_eq_true', decide_eq_false_iff_not]
    omega
  | succ i ih =>
    intro m
    have hle := @Nat.and_le_left m k
    have hle2 := @Nat.and_le_left (m / 2) (k / 2)
    have h := hlow m k
    have h2 := hhigh m k
    have hdiv : maskOut m k / 2 = maskOut (m / 2) (k / 2) := by
      simp only [maskOut]
      omega
    rw [Nat.testBit_add_one, hdiv, ih, Nat.testBit_add_one, Nat.testBit_add_one]

/-! ## Holds -/

theorem kvKey_inj {x tag c d : Nat} (_ : c < 256) (_ : d < 256) (h : kvKey x tag c = kvKey x tag d) : c = d := by
  unfold kvKey at h
  omega
theorem State.hold_setHold_same (s : State) (x tag c : Nat) (h : KvHold) : (s.setHold x tag c h).hold x tag c = h := by
  rw [State.hold, State.setHold]
  dsimp only
  rw [sread_swrite, if_pos rfl]
theorem State.hold_setHold_other {tag d : Nat} (h : KvHold) (hne : kvKey x tag d ≠ kvKey x tag c) (s : State) :
    (s.setHold x tag c h).hold x tag d = s.hold x tag d := by
  rw [State.hold, State.setHold]
  dsimp only
  rw [sread_swrite, if_neg hne]
  rfl
theorem State.hold_congr (h : t.kvHolds = s.kvHolds) (x tag c : Nat) : t.hold x tag c = s.hold x tag c := by
  rw [State.hold, h]
  rfl

/-- A step that may set holds leaves these. -/
structure SameSends (s t : State) : Prop where
  tracked : t.tracked = s.tracked
  biWant : t.biWant = s.biWant
  standIns : t.standIns = s.standIns
  module : t.rd Reg.LNK_MODULE = s.rd Reg.LNK_MODULE
theorem SameSends.trans (h : SameSends s t) (h' : SameSends t u) : SameSends s u :=
  ⟨h'.tracked.trans h.tracked, h'.biWant.trans h.biWant, h'.standIns.trans h.standIns, h'.module.trans h.module⟩
theorem SameHolds.sends (h : SameHolds s t) : SameSends s t := ⟨h.tracked, h.biWant, h.standIns, h.module⟩
theorem State.sameSends_setHold (s : State) (x tag c : Nat) (h : KvHold) : SameSends s (s.setHold x tag c h) := ⟨rfl, rfl, rfl, rfl⟩

/-! ## A commit at one layer of one core (R284) -/

/-- The staging entries that a commit stores. -/
def committedEntries (mask : Nat) : List Nat := if mask = 0 then [0] else (maskList 16 mask).map fun i => i + 1
theorem committedEntries_length (mask : Nat) : (committedEntries mask).length = if mask = 0 then 1 else (maskList 16 mask).length := by
  rw [committedEntries]
  split
  · rfl
  · rw [List.length_map]
/-- The entries of a commit in their places. -/
def State.allPlaced (s : State) (l : LayerKv) (x c mask : Nat) : State :=
  (committedEntries mask).zipIdx.foldl (fun (t : State) e => t.place l x (s.residentOf x) c e.1 ((s.hold x l.tag c).committed + e.2))
    (s.lookMap l (s.residentOf x))
/-- What a core holds after a commit. -/
def KvHold.after (h : KvHold) (mask : Nat) : KvHold :=
  ⟨h.committed + (committedEntries mask).length, maskOut h.staged (if mask = 0 then 1 else 2 * (mask % 65536) + 1),
    maskOut h.staged (if mask = 0 then 1 else 2 * (mask % 65536) + 1),
    h.data.filter fun d => (maskOut h.staged (if mask = 0 then 1 else 2 * (mask % 65536) + 1)).testBit d.1⟩
/-- The blocks that a commit of positions `n` to `m` touches. -/
def commitBlocks (n m : Nat) : List Nat := (List.range ((m - 1) / 64 - n / 64 + 1)).map fun i => n / 64 + i
/-- What the set lead does besides: its map, the reservations, and the spills that the commit has reached. -/
def State.leadMapped (s : State) (l : LayerKv) (x r used n m : Nat) : State :=
  ((commitBlocks n m).foldl (fun (s : State) b => s.mapCommit l x r b (min 64 (m - 64 * b))) s).unneed l x (used ||| 2 ^ 17)
def State.spillsReached (s : State) (l : LayerKv) (x : Nat) : State :=
  (s.setSpills (s.spills.map fun q => if q.ctx = x ∧ q.tag = l.tag then { q with reached := true } else q)).spillsEnd l
def State.leadCommitted (s : State) (l : LayerKv) (x r used n m : Nat) : State :=
  if ((s.leadMapped l x r used n m).spillsReached l x).recallOn x && !l.draft then
    ((commitBlocks n m).filter fun b => decide (64 * b + 64 ≤ m)).foldl (fun (s : State) _ => s.spill l x r)
      ((s.leadMapped l x r used n m).spillsReached l x)
  else (s.leadMapped l x r used n m).spillsReached l x
theorem State.commitLayer_eq (s : State) (l : LayerKv) (x c mask pos : Nat) : s.commitLayer l x c mask pos false =
    if c ≠ l.lead then (s.allPlaced l x c mask).setHold x l.tag c ((s.hold x l.tag c).after mask)
    else ((s.allPlaced l x c mask).setHold x l.tag c ((s.hold x l.tag c).after mask)).leadCommitted l x (s.residentOf x)
      (if mask = 0 then 1 else 2 * (mask % 65536) + 1) (s.hold x l.tag c).committed
      ((s.hold x l.tag c).committed + (committedEntries mask).length) := rfl
theorem State.kvHeld_allPlaced (s : State) (l : LayerKv) (x c mask : Nat) : KvHeld s (s.allPlaced l x c mask) :=
  (s.kvHeld_lookMap ..).trans (KvHeld.foldl (fun t _ => t.kvHeld_place ..) _)
theorem State.kvHeld_leadCommitted (s : State) (l : LayerKv) (x r used n m : Nat) : KvHeld s (s.leadCommitted l x r used n m) := by
  have hmapped : KvHeld s (s.leadMapped l x r used n m) :=
    (KvHeld.foldl (fun t _ => t.kvHeld_mapCommit ..) s).trans (State.kvHeld_unneed ..)
  have hreached : KvHeld s ((s.leadMapped l x r used n m).spillsReached l x) := hmapped.trans ((State.kvHeld_setSpills _ _).trans (State.kvHeld_spillsEnd _ l))
  exact .ite (hreached.trans (.foldl (fun t _ => t.kvHeld_spill ..) _)) hreached
theorem State.commitLayer_spec (hlines : s.tracked = []) (mask pos : Nat) : SameSends s (s.commitLayer l x c mask pos false) ∧
    (s.commitLayer l x c mask pos false).hold x l.tag c = (s.hold x l.tag c).after mask := by
  have hplaced := ((s.kvHeld_allPlaced l x c mask).same hlines).sends
  have hset := (s.allPlaced l x c mask).sameSends_setHold x l.tag c ((s.hold x l.tag c).after mask)
  have hhold := (s.allPlaced l x c mask).hold_setHold_same x l.tag c ((s.hold x l.tag c).after mask)
  rw [State.commitLayer_eq]
  generalize (s.allPlaced l x c mask).setHold x l.tag c ((s.hold x l.tag c).after mask) = w at hset hhold ⊢
  have hw := hplaced.trans hset
  split
  · exact ⟨hw, hhold⟩
  · have hlead := (w.kvHeld_leadCommitted l x (s.residentOf x) (if mask = 0 then 1 else 2 * (mask % 65536) + 1) (s.hold x l.tag c).committed
      ((s.hold x l.tag c).committed + (committedEntries mask).length)).same (hw.tracked.trans hlines)
    exact ⟨hw.trans hlead.sends, (State.hold_congr hlead.kvHolds _ _ _).trans hhold⟩

/-! ## A rollback at one layer of one core (R286) -/

/-- What a core holds after a rollback. -/
def KvHold.without (h : KvHold) (mask : Nat) : KvHold :=
  ⟨h.committed, maskOut h.staged (if mask = 0 then 1 else 2 * (mask % 65536)), maskOut h.stale (if mask = 0 then 1 else 2 * (mask % 65536)),
    h.data.filter fun d => !(if mask = 0 then 1 else 2 * (mask % 65536)).testBit d.1⟩
theorem State.rollbackLayer_eq (s : State) (l : LayerKv) (x c mask : Nat) : s.rollbackLayer l x c mask =
    if c = l.lead then (s.setHold x l.tag c ((s.hold x l.tag c).without mask)).unneed l x (if mask = 0 then 1 else 2 * (mask % 65536))
    else s.setHold x l.tag c ((s.hold x l.tag c).without mask) := rfl
theorem State.unneed_pantry (s : State) (l : LayerKv) (x mask : Nat) : (s.unneed l x mask).pantry = s.pantry :=
  List.foldlRecOn (motive := fun t : State => t.pantry = s.pantry) _ (fun (t : State) (q : KvReserve) => t.markSlot l q.slot false) rfl
    fun _ ht _ _ => ht
theorem State.rollbackLayer_spec (hlines : s.tracked = []) (mask : Nat) : SameSends s (s.rollbackLayer l x c mask) ∧
    (s.rollbackLayer l x c mask).hold x l.tag c = (s.hold x l.tag c).without mask ∧ (s.rollbackLayer l x c mask).pantry = s.pantry := by
  have hset := s.sameSends_setHold x l.tag c ((s.hold x l.tag c).without mask)
  have hhold := s.hold_setHold_same x l.tag c ((s.hold x l.tag c).without mask)
  have hpantry : (s.setHold x l.tag c ((s.hold x l.tag c).without mask)).pantry = s.pantry := rfl
  rw [State.rollbackLayer_eq]
  generalize s.setHold x l.tag c ((s.hold x l.tag c).without mask) = w at hset hhold hpantry ⊢
  split
  · have hun := (w.kvHeld_unneed l x (if mask = 0 then 1 else 2 * (mask % 65536))).same (hset.tracked.trans hlines)
    exact ⟨hset.trans hun.sends, (State.hold_congr hun.kvHolds _ _ _).trans hhold, (State.unneed_pantry ..).trans hpantry⟩
  · exact ⟨hset, hhold, hpantry⟩
theorem KvHold.without_staged (h : KvHold) (mask : Nat) : (mask = 0 → (h.without mask).staged.testBit 0 = false) ∧
    ∀ i < 16, mask.testBit i = true → (h.without mask).staged.testBit (i + 1) = false := by
  have hstaged (j : Nat) : (h.without mask).staged.testBit j = (h.staged.testBit j && !(if mask = 0 then 1 else 2 * (mask % 65536)).testBit j) :=
    maskOut_testBit _ _ _
  refine ⟨fun hmask => ?_, fun i hi hbit => ?_⟩
  · rw [hstaged, if_pos hmask]
    simp
  · have hne : mask ≠ 0 := by
      rintro rfl
      simp at hbit
    have hup : (2 * (mask % 65536)).testBit (i + 1) = true := by
      rw [Nat.testBit_add_one, Nat.mul_div_cancel_left _ (by decide), show 65536 = 2 ^ 16 from rfl, Nat.testBit_mod_two_pow, hbit]
      simp [hi]
    rw [hstaged, if_neg hne, hup]
    simp

/-! ## The pending entry that a commit of mask 0 stores (R284, R304) -/

theorem State.pageEntry_congr (h : t.pantry = s.pantry) (l : LayerKv) (r b : Nat) : t.pageEntry l r b = s.pageEntry l r b := by
  rw [State.pageEntry, State.pageEntry, State.mapList_congr h]
theorem Written.kvHolds (h : Written s t) : t.kvHolds = s.kvHolds := by obtain ⟨⟨_, _, _, _, _, rfl⟩, -, -⟩ := h; rfl
theorem Written.kvReserves (h : Written s t) : t.kvReserves = s.kvReserves := by obtain ⟨⟨_, _, _, _, _, rfl⟩, -, -⟩ := h; rfl
theorem State.stagedBytes_congr (hlayers : t.layerKv = s.layerKv) (hholds : t.kvHolds = s.kvHolds) (hpantry : t.pantry = s.pantry)
    (l : LayerKv) (x r c entry : Nat) : t.stagedBytes l x r c entry = s.stagedBytes l x r c entry := by
  rw [State.stagedBytes, State.stagedBytes, hlayers, State.hold_congr hholds, State.bytes_congr hpantry]
theorem State.stagedBytes_length (s : State) (l : LayerKv) (x r c entry : Nat) : (s.stagedBytes l x r c entry).length = 576 := by
  rw [State.stagedBytes]
  split
  · exact bytesAt_length ..
  · simp [State.bytes, entryBytes]
/-- What the pending entry's place of a page gets. -/
def State.entryOf (s : State) (l : LayerKv) (x r c : Nat) : List Byte :=
  if (s.hold x l.tag c).staged.testBit 0 then s.stagedBytes l x r c 0 else List.replicate 576 0x7F
theorem State.entryOf_length (s : State) (l : LayerKv) (x r c : Nat) : (s.entryOf l x r c).length = 576 := by
  rw [State.entryOf]
  split
  · exact s.stagedBytes_length ..
  · exact List.length_replicate
theorem State.slotFor_some {p : Nat} (h : s.pageSlot l x r (p / 64) = some k) : s.slotFor l x r p = (s, some k) := by
  rw [State.slotFor, h]
theorem State.pageSlot_written (h : Written s t) (hp : t.pantry = s.pantry) (b : Nat) : t.pageSlot l x r b = s.pageSlot l x r b := by
  rw [State.pageSlot, State.pageSlot, State.pageEntry_congr hp, State.reserveOf, State.reserveOf, h.kvReserves]
theorem State.scrubbing_kvStat (s : State) (p : Nat) (f : Fld) (c : Nat) : (s.kvStat p f).scrubbing c = s.scrubbing c :=
  State.scrubbing_congr (State.rd_setFld_other _ _ _ _ (by unfold Reg.CORE_STAT Reg.SRV_KV_STAT coreWin; omega))
theorem State.retained_kvStat (s : State) (p : Nat) (f : Fld) :
    (s.kvStat p f).flag Reg.DUMP_STAT Fl.DUMP_STAT_RETAINED = s.flag Reg.DUMP_STAT Fl.DUMP_STAT_RETAINED :=
  State.flag_congr (State.rd_setFld_other _ _ _ _ (by unfold Reg.DUMP_STAT Reg.SRV_KV_STAT; omega)) _

theorem State.dirty_pantry (s : State) (x tag b : Nat) : (s.dirty x tag b).pantry = s.pantry := rfl
theorem State.placed_staged {entry p : Nat} (h : (s.hold x l.tag c).staged.testBit entry = true) : s.placed l x r c entry p (some k) =
    ((s.look c (l.stageAt r entry) entryBytes).store c (l.slotAt k + 576 * (p % 64)) (s.stagedBytes l x r c entry)).dirty x l.tag (p / 64) := by
  rw [State.placed, h]
  rfl
theorem State.placed_hole {entry p : Nat} (h : (s.hold x l.tag c).staged.testBit entry = false) : s.placed l x r c entry p (some k) =
    ((s.kvStat l.part Fl.SRV_KV_STAT_COMMIT_HOLE).store c (l.slotAt k + 576 * (p % 64)) (List.replicate 576 0x7F)).dirty x l.tag (p / 64) := by
  rw [State.placed, h]
  rfl

section
variable (hlines : s.tracked = []) (hscrub : s.scrubbing c = false) (hret : s.flag Reg.DUMP_STAT Fl.DUMP_STAT_RETAINED = false)
  (hc : c < 256)
include hlines hscrub hret hc
/-- The pending entry's bytes in the slot that its place has. -/
theorem State.placed_pending {p : Nat} (hfit : l.slotAt k + 576 * (p % 64) + 576 ≤ pantrySize) :
    (s.placed l x r c 0 p (some k)).bytes c (l.slotAt k + 576 * (p % 64)) 576 = s.entryOf l x r c := by
  have hstore {u : State} (ht : u.tracked = []) (hs : u.scrubbing c = false) (hr : u.flag Reg.DUMP_STAT Fl.DUMP_STAT_RETAINED = false)
      (bs : List Byte) (hbs : bs.length = 576) : (u.store c (l.slotAt k + 576 * (p % 64)) bs).bytes c (l.slotAt k + 576 * (p % 64)) 576 = bs := by
    obtain ⟨-, hbyte⟩ := State.store_spec hs ht hr (l.slotAt k + 576 * (p % 64)) bs (by rwa [hbs])
    exact bytes_of_stored (by rwa [hbs]) (fun q hq hlo hhi => by rw [hbyte _ q hq, if_pos ⟨rfl, hlo, hhi⟩]) hbs.symm
  rw [State.entryOf]
  cases hstaged : (s.hold x l.tag c).staged.testBit 0 with
  | true =>
    have hlook := (State.look_spec hlines c (l.stageAt r 0) entryBytes).1
    rw [State.placed_staged hstaged, State.bytes_congr (State.dirty_pantry ..), if_pos rfl]
    exact hstore (hlook.tracked.trans hlines) ((hlook.scrubbing c hc).trans hscrub) (hlook.retained hret) _ (s.stagedBytes_length ..)
  | false =>
    rw [State.placed_hole hstaged, State.bytes_congr (State.dirty_pantry ..), if_neg Bool.false_ne_true]
    exact hstore ((State.setFld_tracked ..).trans hlines) ((s.scrubbing_kvStat ..).trans hscrub) ((s.retained_kvStat ..).trans hret) _
      List.length_replicate
theorem State.allPlaced_pending (hslot : s.pageSlot l x (s.residentOf x) ((s.hold x l.tag c).committed / 64) = some k)
    (hfit : l.slotAt k + 576 * ((s.hold x l.tag c).committed % 64) + 576 ≤ pantrySize) :
    (s.allPlaced l x c 0).bytes c (l.slotAt k + 576 * ((s.hold x l.tag c).committed % 64)) 576 = s.entryOf l x (s.residentOf x) c := by
  have hone : s.allPlaced l x c 0 = (s.lookMap l (s.residentOf x)).place l x (s.residentOf x) c 0 (s.hold x l.tag c).committed := by
    rw [State.allPlaced, committedEntries, if_pos rfl]
    simp only [List.zipIdx_cons, List.zipIdx_nil, List.foldl_cons, List.foldl_nil, Nat.add_zero]
  obtain ⟨hlook, hlookp⟩ := State.lookMap_spec hlines l (s.residentOf x)
  have hentry : (s.lookMap l (s.residentOf x)).entryOf l x (s.residentOf x) c = s.entryOf l x (s.residentOf x) c := by
    rw [State.entryOf, State.entryOf, State.hold_congr hlook.kvHolds, State.stagedBytes_congr hlook.layerKv hlook.kvHolds hlookp]
  have hslot' := (State.pageSlot_written hlook hlookp _).trans hslot
  rw [hone, State.place_eq, ← hentry]
  generalize s.lookMap l (s.residentOf x) = w at hlook hslot' ⊢
  rw [State.slotFor_some hslot']
  exact State.placed_pending (hlook.tracked.trans hlines) ((hlook.scrubbing c hc).trans hscrub) (hlook.retained hret) hc hfit
end

/-! ## The messages (R284, R286, R287) -/

theorem State.sendPn_last (s : State) {d src : Nat} (hd : d < 256) (dm tag : Nat) (body : PnBody) :
    ∃ a ∈ (s.sendPn d dm src tag body).pn, a.dest = s.stand d ∧ a.src = src ∧ a.tag = tag ∧ a.body = body := by
  refine ⟨⟨s.nextId, s.stand d, dm, src, s.module, tag, 0, body⟩, ?_, rfl, rfl, rfl, rfl⟩
  rw [State.sendPn, if_pos hd]
  exact List.mem_append_right _ (List.mem_singleton_self _)
theorem State.findPn_id (h : s.findPn id = some m) : m.id = id := by
  exact beq_iff_eq.1 (List.find?_some (p := fun k : PnMsg => k.id == id) (State.findPn_at h))
theorem Taken.sameSends (h : Taken s t) (hm : t.rd Reg.LNK_MODULE = s.rd Reg.LNK_MODULE) : SameSends s t := by
  obtain ⟨_, _, _, rfl⟩ := h
  exact ⟨rfl, rfl, rfl, hm⟩

section
variable (h : s.findPn id = some m) (hres : (s.ctx x).resident.isSome = true) (hheld : s.heldLayers x m.dest = [l])
  (hm : m.srcModule = s.module) (hsrc : m.src < 256)
include h hres hheld hm hsrc
/-- A message of a context that is resident, at a core that holds one layer of it, is applied there and acknowledged. -/
theorem State.kvMessage_spec {f : State → LayerKv → State} (hf : SameSends (s.takePn id) (f (s.takePn id) l)) :
    ∃ w, s.kvMessage m x f = w ∧ SameSends s w ∧ w.kvHolds = (f (s.takePn id) l).kvHolds ∧ w.pantry = (f (s.takePn id) l).pantry ∧
      ∃ a ∈ w.pn, a.dest = s.stand m.src ∧ a.src = m.dest ∧ a.tag = m.tag ∧ a.body = .kvAck x stOk := by
  have htaken := s.taken_takePn id
  have hall := (htaken.sameSends (State.rd_takePn h (by decide))).trans hf
  have hid : m.id = id := State.findPn_id h
  have hctx : (s.takePn id).ctx x = s.ctx x := by
    obtain ⟨_, _, _, ht⟩ := htaken
    rw [ht]
    rfl
  have hlayers : (s.takePn id).heldLayers x m.dest = [l] := by
    rw [← hheld, State.heldLayers, State.heldLayers, hctx]
    obtain ⟨_, _, _, ht⟩ := htaken
    rw [ht]
    rfl
  have hmsg : s.kvMessage m x f = (f (s.takePn id) l).sendPn m.src m.srcModule m.dest m.tag (.kvAck x stOk) := by
    rw [State.kvMessage, hid, hctx, hres, hlayers, if_pos rfl, if_pos rfl]
    exact if_pos (hm.trans (congrArg (Fld.get _) hall.module).symm)
  refine ⟨_, hmsg, ⟨hall.tracked, hall.biWant, hall.standIns, hall.module⟩, rfl, rfl, ?_⟩
  have hlast := (f (s.takePn id) l).sendPn_last (src := m.dest) hsrc m.srcModule m.tag (.kvAck x stOk)
  rwa [State.stand_congr hall.standIns] at hlast
end
/-- What a commit message does at one layer of its holder. -/
def commitStep (x c mask pos : Nat) (path : Bool) (t : State) (l : LayerKv) : State :=
  if path then (t.commitLayer l x c mask pos false).rollbackLayer l x c (maskOut 0xFFFF mask) else t.commitLayer l x c mask pos false
theorem commitStep_spec {path : Bool} {mask pos : Nat} (hlines : s.tracked = []) : SameSends s (commitStep x c mask pos path s l) ∧
    ((commitStep x c mask pos path s l).hold x l.tag c).committed = (s.hold x l.tag c).committed + (committedEntries mask).length ∧
    (commitStep x c mask pos path s l).pantry = (s.commitLayer l x c mask pos false).pantry := by
  obtain ⟨hcommit, hhold⟩ := State.commitLayer_spec (l := l) (x := x) (c := c) hlines mask pos
  cases path with
  | false => exact ⟨hcommit, congrArg KvHold.committed hhold, rfl⟩
  | true =>
    obtain ⟨hback, hhold', hpantry⟩ := State.rollbackLayer_spec (l := l) (x := x) (c := c) (hcommit.tracked.trans hlines) (maskOut 0xFFFF mask)
    refine ⟨hcommit.trans hback, ?_, hpantry⟩
    rw [hhold] at hhold'
    exact congrArg KvHold.committed hhold'
theorem exec_pnKvCommit {tag mask pos : Nat} {path : Bool} (h : s.findPn id = some m) (hbody : m.body = .kvCommit x tag mask pos false path) :
    exec (.pnKvCommit id) s = .next (s.settle (s.kvMessage m x (commitStep x m.dest mask pos path))) := by
  show execPnKvCommit id s = _
  rw [execPnKvCommit, h]
  dsimp only
  rw [hbody]
  rfl
theorem exec_pnKvRollback {tag mask pos : Nat} {replay flip : Bool} (h : s.findPn id = some m)
    (hbody : m.body = .kvRollback x tag mask pos replay flip) :
    exec (.pnKvRollback id) s = .next ((s.kvMessage m x fun t l => t.rollbackLayer l x m.dest mask).flipAt m x
      ((s.heldLayers x m.dest).any fun l => (s.hold x l.tag m.dest).staged != 0) replay flip) := by
  show execPnKvRollback id s = _
  rw [execPnKvRollback, h]
  dsimp only
  rw [hbody]
/-- A flip of the bank changes the context only. -/
theorem State.flipAt_spec (s : State) (m : PnMsg) (x : Nat) (a b c : Bool) : (s.flipAt m x a b c).kvHolds = s.kvHolds ∧
    (s.flipAt m x a b c).pn = s.pn ∧ (s.flipAt m x a b c).pantry = s.pantry := by
  rw [State.flipAt]
  split
  · exact ⟨rfl, rfl, rfl⟩
  · exact ⟨rfl, rfl, rfl⟩

/-! ## Acknowledgements (R261, R287) -/

def State.setPark (s : State) (l : List (Nat × Nat)) : State := { s with host.parkDue := l }
theorem State.setPark_self {l : List (Nat × Nat)} (h : s.host.parkDue = l) : s.setPark l = s := by
  subst h
  rfl
/-- With no request, no park and no KV operation that waits, serving changes nothing. -/
theorem State.serveReqs_quiet (hreqs : s.reqs = []) (hpark : s.host.parkDue = []) : s.serveReqs = s := by
  have hparks : s.parksDue = s := by
    rw [State.parksDue, hpark]
    exact State.setPark_self hpark
  have horder : s.admissionOrder = [] := by
    rw [State.admissionOrder, hreqs]
    rfl
  have hserve (n : Nat) : State.serveN (n + 1) [] s = s := by
    rw [State.serveN, horder]
    rfl
  rw [State.serveReqs, hparks, hreqs]
  rw [hserve, hreqs]
  rfl
theorem State.serve_quiet (h : s.noRequests) : s.serve = s := by
  obtain ⟨hreqs, hpark, hidle⟩ := h
  rw [State.serve, State.serveReqs_quiet hreqs hpark, State.kvRun_idle hidle]

/-- What a checkpoint leaves (R580). -/
structure SameServe (s t : State) : Prop where
  token : ∀ (c : CoreId) k, k < 16 → t.rd (Reg.SEQ_TOKEN c k) = s.rd (Reg.SEQ_TOKEN c k)
  tracked : t.tracked = s.tracked
  biWant : t.biWant = s.biWant
  reqs : t.reqs = s.reqs
  parkDue : t.host.parkDue = s.host.parkDue
  kvOps : t.kvOps = s.kvOps
structure Serves (s t : State) : Prop where
  same : s.tracked = [] → SameServe s t
theorem Serves.refl : Serves s s := ⟨fun _ => ⟨fun _ _ _ => rfl, rfl, rfl, rfl, rfl, rfl⟩⟩
theorem Serves.trans (h : Serves s t) (h' : Serves t u) : Serves s u := by
  refine ⟨fun hs => ?_⟩
  have hst := h.same hs
  have htu := h'.same (hst.tracked.trans hs)
  exact ⟨fun c k hk => (htu.token c k hk).trans (hst.token c k hk), htu.tracked.trans hst.tracked, htu.biWant.trans hst.biWant,
    htu.reqs.trans hst.reqs, htu.parkDue.trans hst.parkDue, htu.kvOps.trans hst.kvOps⟩
theorem Serves.foldl {α : Type} {f : State → α → State} {l : List α} (hf : ∀ s a, Serves s (f s a)) (s : State) : Serves s (l.foldl f s) :=
  List.foldlRecOn (motive := Serves s) l f .refl fun t ht a _ => ht.trans (hf t a)
theorem Serves.ite {p : Prop} [Decidable p] (h : Serves s t) (h' : Serves s u) : Serves s (if p then t else u) := by
  split
  · exact h
  · exact h'
theorem Written.serves (h : Written s t) : Serves s t := by
  have htok := fun (c : CoreId) k (hk : k < 16) => h.rd _ (unchecked_token c hk)
  have ht := h.tracked
  have hb := h.biWant
  obtain ⟨⟨_, _, _, _, _, rfl⟩, -, -⟩ := h
  exact ⟨fun _ => ⟨htok, ht, hb, rfl, rfl, rfl⟩⟩
theorem State.serves_look (s : State) (d o n : Nat) : Serves s (s.look d o n) := ⟨fun h => (State.look_spec h d o n).1.serves.same h⟩
theorem State.serves_emit (s : State) (m : OutMsg) : Serves s (s.emit m) := ⟨fun _ => ⟨fun _ _ _ => rfl, rfl, rfl, rfl, rfl, rfl⟩⟩
theorem State.serves_wr {o : Nat} (ho : o < 0x04000000) (s : State) (y : DWord) : Serves s (s.wr o y) :=
  ⟨fun _ => ⟨fun c k _ => State.rd_wr_other _ _ _ _ (by unfold Reg.SEQ_TOKEN coreWin; omega), State.wr_tracked .., State.wr_biWant ..,
    State.wr_reqs .., congrArg (·.parkDue) (State.wr_host ..), State.wr_kvOps ..⟩⟩
theorem State.serves_loftWrote (s : State) (n : Nat) : Serves s (s.loftWrote n) := State.serves_wr (by decide) s _
theorem State.serves_clean (s : State) (x tag b : Nat) : Serves s (s.clean x tag b) := ⟨fun _ => ⟨fun _ _ _ => rfl, rfl, rfl, rfl, rfl, rfl⟩⟩
theorem State.serves_setCtx (s : State) (x : Nat) (k : Ctx) : Serves s (s.setCtx x k) := ⟨fun _ => ⟨fun _ _ _ => rfl, rfl, rfl, rfl, rfl, rfl⟩⟩
theorem State.serves_logFault (s : State) (code : Nat) (unit : FaultUnit) (part : Option Nat) (outcome detail : Nat) :
    Serves s (s.logFault code unit part outcome detail) :=
  (State.onlyChecks_logFault (c := 0) code unit part outcome detail).written.serves
theorem State.serves_saveAdapter (s : State) (x : Nat) : Serves s (s.saveAdapter x) := by
  rw [State.saveAdapter]
  split
  · exact ((s.serves_look ..).trans (State.serves_emit ..)).trans (State.serves_wr (by decide) _ _)
  · exact .refl
theorem State.serves_saveDigests (s : State) (x : Nat) (l : LayerKv) (e : MapEntry) : Serves s (s.saveDigests x l e) :=
  .foldl (fun t _ => ((t.serves_look ..).trans (State.serves_emit ..)).trans (State.serves_loftWrote ..)) s
def State.setDigestDirty (s : State) (q : List (Nat × Nat × Nat)) : State := { s with digestDirty := q }
theorem State.serves_setDigestDirty (s : State) (q : List (Nat × Nat × Nat)) : Serves s (s.setDigestDirty q) :=
  ⟨fun _ => ⟨fun _ _ _ => rfl, rfl, rfl, rfl, rfl, rfl⟩⟩
/-- The pages of a layer that a checkpoint saves, and its digests. -/
def State.pagesSaved (s : State) (x r n : Nat) (l : LayerKv) : State :=
  ((s.mapList l r).filter fun e => e.2.state == 1 && decide (64 * e.2.block + 64 ≤ n) &&
      decide ((s.ctx x).ckPos ≤ 64 * e.2.block) && !s.loftClean.contains (x, l.tag, e.2.block)).foldl (fun (s : State) e =>
    (((s.lookPage l e.2.slot).emit (.hostWrite (s.loftPage x l e.2.block)
      (s.bytes l.lead (l.slotAt e.2.slot) pageBytes))).loftWrote pageBytes).clean x l.tag e.2.block) (s.lookMap l r)
def State.digestsSaved (s : State) (x r : Nat) (l : LayerKv) : State :=
  if s.recallOn x then ((s.mapList l r).filter fun e => e.2.state == 4 && s.digestDirty.contains (x, l.tag, e.2.block)).foldl
    (fun (s : State) e => s.saveDigests x l e.2) s else s
theorem State.checkLayer_eq (s : State) (x r n : Nat) (l : LayerKv) : s.checkLayer x r n l = if l.draft then s else
    (((s.pagesSaved x r n l).digestsSaved x r l).setDigestDirty
      (((s.pagesSaved x r n l).digestsSaved x r l).digestDirty.filter fun q => !(q.1 == x && q.2.1 == l.tag))) := rfl
theorem State.serves_pagesSaved (s : State) (x r n : Nat) (l : LayerKv) : Serves s (s.pagesSaved x r n l) :=
  (s.serves_look ..).trans (.foldl (fun t _ => (((t.serves_look ..).trans (State.serves_emit ..)).trans (State.serves_loftWrote ..)).trans
    (State.serves_clean ..)) _)
theorem State.serves_digestsSaved (s : State) (x r : Nat) (l : LayerKv) : Serves s (s.digestsSaved x r l) :=
  .ite (.foldl (fun t _ => t.serves_saveDigests ..) s) .refl
theorem State.serves_checkLayer (s : State) (x r n : Nat) (l : LayerKv) : Serves s (s.checkLayer x r n l) := by
  rw [State.checkLayer_eq]
  exact .ite .refl (((s.serves_pagesSaved ..).trans (State.serves_digestsSaved ..)).trans (State.serves_setDigestDirty ..))
theorem State.serves_checkpoint (s : State) (x : Nat) : Serves s (s.checkpoint x) := by
  rw [State.checkpoint]
  split
  · exact .refl
  · refine .ite .refl (.ite ((s.serves_setCtx ..).trans (State.serves_logFault ..)) (.ite ((s.serves_saveAdapter ..).trans
      (State.serves_setCtx ..)) ?_))
    have hlayers (r n : Nat) : Serves s ((s.kvLayers (s.ctx x).part).foldl (fun (t : State) l => t.checkLayer x r n l) s) :=
      .foldl (fun t _ => t.serves_checkLayer ..) s
    exact (Serves.ite ((hlayers _ _).trans (State.serves_saveAdapter ..)) (hlayers _ _)).trans (State.serves_setCtx ..)

theorem exec_kvAck {st : Nat} (h : s.findPn id = some m) (hbody : m.body = .kvAck x st) :
    exec (.kvAck id) s = .next (s.settle (s.kvAcked m x st).serve) := by
  show execKvAck id s = _
  rw [execKvAck, h]
  dsimp only
  rw [hbody]
theorem worseStatus_lt {a b : Nat} (ha : a < 256) (hb : b < 256) : worseStatus a b < 256 := by
  unfold worseStatus
  repeat' split
  all_goals omega
/-- With no request what follows a commit is its checkpoint. -/
theorem State.afterCommit_quiet (h : s.reqs = []) (x : Nat) : s.afterCommit x = s.checkpoint x := by
  rw [State.afterCommit, h]
  rfl
/-- The last acknowledgement of the only operation. -/
theorem State.kvAcked_last {st : Nat} (hid : m.id = id) (hops : (s.takePn id).kvOps = [o]) (hcore : o.core = m.dest) (htok : o.tok = m.tag) (hctx : o.ctx = x)
    (hacks : o.acks = [(m.srcModule, m.src)]) : s.kvAcked m x st = if o.kind = .commit then
      (((s.takePn id).setKv []).tokComplete o.core o.tok (worseStatus o.worst st)).afterCommit x
    else ((s.takePn id).setKv []).tokComplete o.core o.tok (worseStatus o.worst st) := by
  have hfind : (s.takePn id).kvOps.find? (fun o => o.core == m.dest && o.tok == m.tag && o.ctx == x && o.acks.contains (m.srcModule, m.src)) = some o := by
    rw [hops, List.find?_cons_of_pos]
    simp [hcore, htok, hctx, hacks]
  have hleft : o.acks.filter (fun a => a != (m.srcModule, m.src)) = [] := by simp [hacks]
  have hput : (s.takePn id).kvOps.map (fun k => if k.id = o.id then { k with acks := [], worst := worseStatus o.worst st } else k) =
      [{ o with acks := [], worst := worseStatus o.worst st }] := by
    rw [hops, List.map_singleton, if_pos rfl]
  have hdone : (((s.takePn id).setKv [{ o with acks := [], worst := worseStatus o.worst st }]).kvDone { o with acks := [], worst := worseStatus o.worst st }
      (worseStatus o.worst st)) = ((s.takePn id).setKv []).tokComplete o.core o.tok (worseStatus o.worst st) :=
    State.kvDone_alone (s := (s.takePn id).setKv [{ o with acks := [], worst := worseStatus o.worst st }]) (ops := []) rfl rfl rfl rfl
      (fun p hp => absurd hp List.not_mem_nil) _
  rw [State.kvAcked, hid]
  dsimp only
  rw [hfind]
  dsimp only
  rw [hleft, hput]
  exact (if_pos rfl).trans (congrArg (fun t : State => if o.kind = .commit then t.afterCommit x else t) hdone)

theorem kvAck_completes {st : Nat} (hlines : s.noHostLines) (h : s.findPn id = some m) (hbody : m.body = .kvAck x st) (hquiet : s.noRequests)
    (hfront : s.KvFront o) (hcore : o.core = m.dest) (htok : o.tok = m.tag) (hctx : o.ctx = x) (hacks : o.acks = [(m.srcModule, m.src)])
    (hworst : o.worst < 256) (hst : st < 256) :
    ∃ t, exec (.kvAck id) s = .next t ∧ t.Completed o.core o.tok (worseStatus o.worst st) := by
  obtain ⟨hcore256, halone, -, hone⟩ := hfront
  have htaken := s.taken_takePn id
  have hops : (s.takePn id).kvOps = [o] := by
    obtain ⟨_, _, _, ht⟩ := htaken
    rw [ht]
    exact halone
  have hbase : (s.takePn id).tracked = s.tracked ∧ (s.takePn id).biWant = s.biWant ∧ (s.takePn id).reqs = s.reqs ∧
      (s.takePn id).host = s.host ∧ (s.takePn id).tokOps = s.tokOps := by
    obtain ⟨_, _, _, ht⟩ := htaken
    rw [ht]
    exact ⟨rfl, rfl, rfl, rfl, rfl⟩
  obtain ⟨htracked, hbi, hreqs, hhost, htokOps⟩ := hbase
  obtain ⟨d, hd⟩ : ∃ d : CoreId, o.core = d := ⟨⟨o.core, hcore256⟩, rfl⟩
  have htoken := State.rd_takePn h (o := Reg.SEQ_TOKEN d o.tok) (by unfold Reg.SEQ_TOKEN coreWin Reg.FAB_PN_MSGS; omega)
  rw [hd] at hone
  have hone' : ((s.takePn id).setKv []).OneOp d o.tok := hone.of_rd htoken (State.tokCount_congr htokOps _ _)
  have hdone := State.tokComplete_done d.isLt hone'.pending hone'.one hone'.ok (worseStatus_lt hworst hst)
  have hend := State.onlyEnd_tokComplete ((s.takePn id).setKv []) d o.tok (worseStatus o.worst st)
  have hacked := State.kvAcked_last (st := st) (State.findPn_id h) hops hcore htok hctx hacks
  rw [hd] at hacked ⊢
  generalize ((s.takePn id).setKv []).tokComplete d o.tok (worseStatus o.worst st) = w at hdone hend hacked
  have hw : w.tracked = [] ∧ w.biWant = [] ∧ w.reqs = [] ∧ w.host.parkDue = [] ∧ w.kvOps = [] := by
    obtain ⟨_, _, _, rfl⟩ := hend
    exact ⟨htracked.trans hlines.1, hbi.trans hlines.2, hreqs.trans hquiet.1, (congrArg (·.parkDue) hhost).trans hquiet.2.1, rfl⟩
  obtain ⟨hwt, hwb, hwr, hwp, hwk⟩ := hw
  have hsame : SameServe w (s.kvAcked m x st) := by
    rw [hacked, State.afterCommit_quiet hwr]
    exact (Serves.ite (w.serves_checkpoint x) .refl).same hwt
  have hquiet' : (s.kvAcked m x st).noRequests := ⟨hsame.reqs.trans hwr, hsame.parkDue.trans hwp, fun p hp => by
    rw [hsame.kvOps, hwk] at hp
    exact absurd hp List.not_mem_nil⟩
  refine ⟨_, exec_kvAck h hbody, ?_⟩
  rw [State.serve_quiet hquiet', State.settle_of_still _ _ (hsame.biWant.trans hwb)]
  exact hdone.of_rd (hsame.token d o.tok hone.range)
end Sys2Proof.Machine
end

section
/-! PROOFS. KV appends (O29). -/

namespace Sys2Proof.Machine

variable {s t u v : State} {k n x r id : Nat} {c : CoreId} {l : LayerKv} {m : PnMsg} {o : KvOp}

/-! ## An append with room (R274, R282, R283) -/

/-- A core of the set holds a staged entry. -/
def State.stageHold (s : State) (x tag entry : Nat) (data : List Byte) (c : Nat) : State :=
  s.setHold x tag c ⟨(s.hold x tag c).committed, (s.hold x tag c).staged ||| 2 ^ entry, maskOut (s.hold x tag c).stale (2 ^ entry),
    (s.hold x tag c).data.filter (fun d => d.1 != entry) ++ [(entry, data)]⟩
/-- An append that needs no page: its bytes on every core of the set, and the holds that say so. -/
def State.appended (s : State) (l : LayerKv) (o : KvOp) (r : Nat) : State :=
  l.set.foldl (fun (t : State) c => t.stageHold o.ctx l.tag o.entry ((s.appendConvs l o.core o.src s.fresh).map fun v => BitVec.ofNat 8 v.code) c)
    (((s.drew.checkRange o.core o.src 1152).reserve l o.ctx o.entry [] [] (s.freeSlots l) (s.hold o.ctx l.tag l.lead).committed
      ((s.hold o.ctx l.tag l.lead).committed + (o.entry - 1))).storeSet l.set (l.stageAt r o.entry)
        ((s.appendConvs l o.core o.src s.fresh).map fun v => BitVec.ofNat 8 v.code))

section
variable {i : Nat} {e : MapEntry}
/-- The position's block has a page of the context's own, and the next position lies in it. -/
theorem State.missing_none {n p : Nat} (hpage : s.pageEntry l r (n / 64) = some (i, e)) (hblock : p / 64 = n / 64) :
    s.missing l x r n p = [] := by
  rw [State.missing, hblock, Nat.sub_self]
  simp [hpage]
theorem State.missingGroups_none : s.missingGroups l x r [] = [] := by
  rw [State.missingGroups]
  split <;> rfl
theorem State.sharedAt_none {n : Nat} (hpage : s.pageEntry l r (n / 64) = some (i, e)) (he : e.state ≠ 2) : s.sharedAt l r n = none := by
  rw [State.sharedAt, hpage]
  exact if_neg he
theorem State.appendTo_room {w : State} (hw : s.lookMap l (s.residentOf o.ctx) = w)
    (hpage : w.pageEntry l (s.residentOf o.ctx) ((w.hold o.ctx l.tag l.lead).committed / 64) = some (i, e)) (he : e.state ≠ 2)
    (hblock : ((w.hold o.ctx l.tag l.lead).committed + (o.entry - 1)) / 64 = (w.hold o.ctx l.tag l.lead).committed / 64)
    (hroom : (w.kvReserves.filter fun q => q.of o.ctx l.tag).length ≤ (w.unusedEntries l (s.residentOf o.ctx)).length)
    (hpages : (w.recallOn o.ctx = true ∧ l.draft = false) ∨ (w.hotEntries l (s.residentOf o.ctx)).length +
      ((w.kvReserves.filter fun q => q.of o.ctx l.tag).filter fun q => !q.digest).length ≤ w.pagesMax o.ctx) :
    s.appendTo l o = ((w.appended l o (s.residentOf o.ctx)).noteConv o.core (convFlags (w.appendConvs l o.core o.src w.fresh)), stOk) := by
  have hfull : (decide ((w.freeSlots l).length < ([] : List Nat).length + ([] : List Nat).length + (if (none : Option (Nat × MapEntry)).isSome = true then 1 else 0)) ||
      decide ((w.unusedEntries l (s.residentOf o.ctx)).length < (w.kvReserves.filter fun q => q.of o.ctx l.tag).length +
        ([] : List Nat).length + ([] : List Nat).length) ||
      (!(w.recallOn o.ctx && !l.draft) && decide (w.pagesMax o.ctx < (w.hotEntries l (s.residentOf o.ctx)).length +
        ((w.kvReserves.filter fun q => q.of o.ctx l.tag).filter fun q => !q.digest).length + ([] : List Nat).length + (if (none : Option (Nat × MapEntry)).isSome = true then 1 else 0))) ||
      (!(w.recallOn o.ctx && !l.draft) && decide (0 < ([] : List Nat).length + (if (none : Option (Nat × MapEntry)).isSome = true then 1 else 0)) &&
        w.hasCold l (s.residentOf o.ctx) (w.hold o.ctx l.tag l.lead).committed)) = false := by
    generalize ((w.kvReserves.filter fun q => q.of o.ctx l.tag).filter fun q => !q.digest).length = b at hpages ⊢
    rcases hpages with ⟨hrecall, hdraft⟩ | hle
    · simp [hrecall, hdraft, hroom]
    · simp [hroom, hle]
  rw [State.appendTo]
  dsimp only
  rw [hw, State.missing_none hpage hblock, State.missingGroups_none, State.sharedAt_none hpage he]
  rw [hfull, if_neg Bool.false_ne_true]
  rfl
end

/-! ## What an append leaves -/

section
variable {tag entry : Nat} {data : List Byte}
theorem State.stageHold_spec {d : Nat} (hd : d < 256) (s : State) (k : Nat) (hk : k < 256) :
    ((s.stageHold x tag entry data d).hold x tag k).committed = (s.hold x tag k).committed ∧
      ((s.hold x tag k).staged.testBit entry = true → ((s.stageHold x tag entry data d).hold x tag k).staged.testBit entry = true) ∧
      (k = d → ((s.stageHold x tag entry data d).hold x tag k).staged.testBit entry = true) := by
  have hbit : ((s.hold x tag d).staged ||| 2 ^ entry).testBit entry = true := by rw [Nat.testBit_or, Nat.testBit_two_pow_self, Bool.or_true]
  rw [State.stageHold]
  by_cases h : k = d
  · subst h
    rw [State.hold_setHold_same]
    exact ⟨rfl, fun _ => hbit, fun _ => hbit⟩
  · rw [State.hold_setHold_other _ fun hkey => h (kvKey_inj hk hd hkey)]
    exact ⟨rfl, id, fun h' => absurd h' h⟩
theorem State.stageHolds_spec {cs : List Nat} (hcs : ∀ d ∈ cs, d < 256) (s : State) :
    (∀ k < 256, ((cs.foldl (fun (t : State) d => t.stageHold x tag entry data d) s).hold x tag k).committed = (s.hold x tag k).committed) ∧
      (∀ k < 256, (s.hold x tag k).staged.testBit entry = true →
        ((cs.foldl (fun (t : State) d => t.stageHold x tag entry data d) s).hold x tag k).staged.testBit entry = true) ∧
      ∀ k ∈ cs, ((cs.foldl (fun (t : State) d => t.stageHold x tag entry data d) s).hold x tag k).staged.testBit entry = true := by
  induction cs generalizing s with
  | nil => exact ⟨fun _ _ => rfl, fun _ _ h => h, fun k hk => absurd hk List.not_mem_nil⟩
  | cons d cs ih =>
    obtain ⟨hd, hcs'⟩ := List.forall_mem_cons.1 hcs
    have hone := s.stageHold_spec (x := x) (tag := tag) (entry := entry) (data := data) hd
    rw [List.foldl_cons]
    generalize s.stageHold x tag entry data d = w at hone ⊢
    obtain ⟨hcom, hkeep, hset⟩ := ih hcs' w
    exact ⟨fun k hk => (hcom k hk).trans (hone k hk).1, fun k hk h => hkeep k hk ((hone k hk).2.1 h),
      List.forall_mem_cons.2 ⟨hkeep d hd ((hone d hd).2.2 rfl), hset⟩⟩
theorem State.kvWorks_setHold (s : State) (x tag d : Nat) (h : KvHold) : KvWorks c k s (s.setHold x tag d h) := ⟨fun _ _ => rfl, rfl, rfl, rfl, rfl⟩
theorem State.stageHolds_works (cs : List Nat) (s : State) : KvWorks c k s (cs.foldl (fun (t : State) d => t.stageHold x tag entry data d) s) ∧
    (cs.foldl (fun (t : State) d => t.stageHold x tag entry data d) s).pantry = s.pantry :=
  List.foldlRecOn (motive := fun t : State => KvWorks c k s t ∧ t.pantry = s.pantry) cs _ ⟨.refl, rfl⟩ fun t ht _ _ =>
    ⟨ht.1.trans (t.kvWorks_setHold ..), ht.2⟩
end

/-- A reservation takes slots only. -/
def OnlyReserves (s t : State) : Prop := ∃ slots reserves, t = { s with kvSlots := slots, kvReserves := reserves }
theorem State.onlyReserves_reserve (s : State) (l : LayerKv) (x entry : Nat) (bs gs slots : List Nat) (n p : Nat) :
    OnlyReserves s (s.reserve l x entry bs gs slots n p) := by
  have hmarks (ks : List Nat) : OnlyReserves s (ks.foldl (fun (t : State) k => t.markSlot l k true) s) :=
    List.foldlRecOn (motive := OnlyReserves s) ks _ ⟨_, _, rfl⟩ fun t ht k _ => by
      obtain ⟨_, _, rfl⟩ := ht
      exact ⟨_, _, rfl⟩
  rw [State.reserve]
  obtain ⟨_, _, h⟩ := hmarks (slots.take ((bs.map fun b => (b, false)) ++ gs.map fun g => (g, true)).length)
  dsimp only
  rw [h]
  exact ⟨_, _, rfl⟩

section
variable (hlines : s.tracked = []) (hscrub : s.noScrub) (hret : s.flag Reg.DUMP_STAT Fl.DUMP_STAT_RETAINED = false)
  (hset : ∀ d ∈ l.set, d < 256) (hfit : l.stageAt r o.entry + 576 ≤ pantrySize)
include hlines hscrub hret hset hfit
/-- The bytes and the holds that an append leaves. -/
theorem State.appended_spec (hk : k < 16) : KvWorks c k s (s.appended l o r) ∧ ∀ d ∈ l.set,
    ((s.appended l o r).hold o.ctx l.tag d).staged.testBit o.entry = true ∧
    ((s.appended l o r).hold o.ctx l.tag d).committed = (s.hold o.ctx l.tag d).committed ∧
    (s.appended l o r).bytes d (l.stageAt r o.entry) 576 = (s.appendConvs l o.core o.src s.fresh).map fun v => BitVec.ofNat 8 v.code := by
  have hlen : ((s.appendConvs l o.core o.src s.fresh).map fun v => BitVec.ofNat 8 v.code).length = 576 := by
    rw [List.length_map, State.appendConvs, List.length_map, List.length_range]
  rw [State.appended]
  generalize (s.appendConvs l o.core o.src s.fresh).map (fun v => BitVec.ofNat 8 v.code) = data at hlen ⊢
  have hcheck := State.written_checkRange (s := s.drew) hlines o.core o.src 1152
  generalize s.drew.checkRange o.core o.src 1152 = w at hcheck ⊢
  have hw : KvWorks c k s w := KvWorks.trans (t := s.drew) ⟨fun _ _ => rfl, rfl, rfl, rfl, rfl⟩ (hcheck.kvWorks hk)
  have hres := w.onlyReserves_reserve l o.ctx o.entry [] [] (s.freeSlots l) (s.hold o.ctx l.tag l.lead).committed
    ((s.hold o.ctx l.tag l.lead).committed + (o.entry - 1))
  generalize w.reserve l o.ctx o.entry [] [] (s.freeSlots l) (s.hold o.ctx l.tag l.lead).committed
    ((s.hold o.ctx l.tag l.lead).committed + (o.entry - 1)) = v at hres ⊢
  have hv : KvWorks c k w v ∧ v.tracked = w.tracked ∧ v.regs = w.regs ∧ v.kvHolds = w.kvHolds := by
    obtain ⟨_, _, rfl⟩ := hres
    exact ⟨⟨fun _ _ => rfl, rfl, rfl, rfl, rfl⟩, rfl, rfl, rfl⟩
  obtain ⟨hvw, hvt, hvr, hvh⟩ := hv
  obtain ⟨hstore, hbyte⟩ := State.storeSet_spec hset (l.stageAt r o.entry) data (by rwa [hlen]) v
    (fun d hd => (State.scrubbing_congr (State.rd_congr hvr _)).trans ((hcheck.scrubbing d hd).trans (hscrub d hd)))
    (hvt.trans (hcheck.tracked.trans hlines)) ((State.flag_congr (State.rd_congr hvr _) _).trans (hcheck.retained hret))
  generalize v.storeSet l.set (l.stageAt r o.entry) data = u at hstore hbyte ⊢
  obtain ⟨hworks, hpantry⟩ := State.stageHolds_works (c := c) (k := k) (x := o.ctx) (tag := l.tag) (entry := o.entry) (data := data) l.set u
  obtain ⟨hcom, -, hstaged⟩ := State.stageHolds_spec (x := o.ctx) (tag := l.tag) (entry := o.entry) (data := data) hset u
  have hholds : u.kvHolds = s.kvHolds := hstore.kvHolds.trans (hvh.trans hcheck.kvHolds)
  refine ⟨((hw.trans hvw).trans (hstore.kvWorks hk)).trans hworks, fun d hd => ⟨hstaged d hd, ?_, ?_⟩⟩
  · rw [hcom d (hset d hd), State.hold_congr hholds]
  · rw [State.bytes_congr hpantry]
    exact bytes_of_stored (by rwa [hlen]) (fun p hp hlo hhi => by rw [hbyte _ p hp, if_pos ⟨hd, hlo, hhi⟩]) hlen.symm
end

theorem State.kvWorks_noteConv (hk : k < 16) (g : ConvFlags) : KvWorks c k s (s.noteConv c g) := by
  rw [State.noteConv]
  split
  · exact (State.kvWorks_noteFlags hk g).trans (State.kvWorks_wr ⟨0x38008, by decide, rfl⟩ _ hk)
  · exact State.kvWorks_noteFlags hk g
theorem State.noteFlags_kvHolds (s : State) (d : Nat) (g : ConvFlags) : (s.noteFlags d g).kvHolds = s.kvHolds := by
  have hsticky (w : State) (o : Nat) (f : Fld) (b : Bool) : (w.sticky o f b).kvHolds = w.kvHolds := by
    rw [State.sticky]
    split
    · exact State.setFld_kvHolds ..
    · rfl
  exact (hsticky _ _ _ _).trans ((hsticky _ _ _ _).trans ((hsticky _ _ _ _).trans (hsticky _ _ _ _)))
theorem State.noteConv_kvHolds (s : State) (d : Nat) (g : ConvFlags) : (s.noteConv d g).kvHolds = s.kvHolds := by
  rw [State.noteConv]
  split
  · exact (State.bump_kvHolds ..).trans (s.noteFlags_kvHolds d g)
  · exact s.noteFlags_kvHolds d g

/-! ## The completion of an append (R238) -/

theorem exec_kvAppendComplete {tk : TokId} (hfront : s.kvFront c = some o) (hkind : o.kind = .append) (htok : o.tok = tk) :
    exec (.kvAppendComplete c tk) s = .next (s.settle (s.runAppend o).kvRun) := by
  show execKvAppendComplete c tk s = _
  rw [execKvAppendComplete, hfront]
  dsimp only
  rw [if_pos ⟨hkind, htok⟩]
theorem State.runAppend_eq {w : State} (hbound : s.bound o.core = true) (hknown : s.kvKnown o.core o.ctx = true)
    (hlayer : s.layerOf o.ctx o.tag = some l) (hset : ∀ d ∈ l.set, s.coreBad d = false ∧ s.sleep d < 3) (hroom : s.appendTo l o = (w, stOk)) :
    s.runAppend o = w.kvDone o stOk := by
  have hnone : ¬(l.set.any fun d => s.coreBad d || decide (3 ≤ s.sleep d)) = true := by
    rw [List.any_eq_true]
    rintro ⟨d, hd, h⟩
    obtain ⟨hgood, hawake⟩ := hset d hd
    simp only [hgood, Bool.false_or, decide_eq_true_eq] at h
    omega
  rw [State.runAppend, if_neg (by rw [hbound]; decide), if_neg (by rw [hknown]; decide), hlayer]
  dsimp only
  rw [if_neg hnone, hroom]
  dsimp only
  rw [if_neg (by decide)]

/-- An append's conversions are those of the state before its map is looked at. -/
theorem State.appendConvs_lookMap (hlines : s.tracked = []) (l : LayerKv) (q src d : Nat) (c : CoreId) :
    (s.lookMap l q).appendConvs l c src d = s.appendConvs l c src d := by
  have hpoison (x : Nat) : (s.lookMap l q).poisonedAt c x = s.poisonedAt c x := by
    rw [State.lookMap, State.look]
    split
    · rfl
    · exact State.poisonedAt_checkRange hlines ..
  obtain ⟨hlook, hlookp⟩ := State.lookMap_spec hlines l q
  have hctl : (s.lookMap l q).flag (Reg.RND_CTL c) Fl.RND_CTL_SR_KV = s.flag (Reg.RND_CTL c) Fl.RND_CTL_SR_KV :=
    State.flag_congr (hlook.rd _ fun d => by
      unfold checkRegs Reg.CORE_STAT Reg.CORE_ECC_COUNT Reg.RND_CTL coreWin Reg.DUMP_ERR_HEAD Reg.DUMP_ERR_LOST
      simp only [List.mem_cons, List.not_mem_nil, or_false, not_or]
      omega) _
  unfold State.appendConvs
  simp only [hpoison, hctl, State.bytes_congr hlookp]
theorem Written.fresh (h : Written s t) : t.fresh = s.fresh := by obtain ⟨⟨_, _, _, _, _, rfl⟩, -, -⟩ := h; rfl

/-- An append with room ends with its bytes staged on every core of the set. -/
theorem kvAppend_completes {tk : TokId} {i : Nat} {e : MapEntry} (hlines : s.noHostLines)
    (hret : s.flag Reg.DUMP_STAT Fl.DUMP_STAT_RETAINED = false) (hscrub : s.noScrub) (hfront : s.KvFront o) (hcore : o.core = c) (htok : o.tok = tk)
    (hkind : o.kind = .append) (hwaits : o.started = false) (hbound : s.bound c = true) (hknown : s.kvKnown c o.ctx = true)
    (hlayer : s.layerOf o.ctx o.tag = some l) (hset : ∀ k ∈ l.set, k < 256 ∧ s.coreBad k = false ∧ s.sleep k < 3)
    (hr : s.residentOf o.ctx = r) (hn : (s.hold o.ctx l.tag l.lead).committed = n)
    (hpage : s.pageEntry l r (n / 64) = some (i, e)) (he : e.state ≠ 2) (hblock : (n + (o.entry - 1)) / 64 = n / 64)
    (hroom : (s.kvReserves.filter fun q => q.of o.ctx l.tag).length ≤ (s.unusedEntries l r).length)
    (hpages : (s.recallOn o.ctx = true ∧ l.draft = false) ∨ (s.hotEntries l r).length +
      ((s.kvReserves.filter fun q => q.of o.ctx l.tag).filter fun q => !q.digest).length ≤ s.pagesMax o.ctx)
    (hfit : l.stageAt r o.entry + 576 ≤ pantrySize) :
    ∃ t, exec (.kvAppendComplete c tk) s = .next t ∧ t.Completed c tk stOk ∧ ∀ k ∈ l.set,
      (t.hold o.ctx l.tag k).staged.testBit o.entry = true ∧ (t.hold o.ctx l.tag k).committed = (s.hold o.ctx l.tag k).committed ∧
      t.bytes k (l.stageAt r o.entry) 576 = (s.appendConvs l c o.src s.fresh).map fun v => BitVec.ofNat 8 v.code := by
  subst hr hn
  obtain ⟨-, halone, hundone, hone⟩ := hfront
  have hkv : s.kvFront c = some o := by
    rw [State.kvFront, halone, List.find?_cons_of_pos]
    simp [hcore, hundone, hwaits]
  obtain ⟨hlook, hlookp⟩ := State.lookMap_spec hlines.1 l (s.residentOf o.ctx)
  have hconvs := State.appendConvs_lookMap hlines.1 l (s.residentOf o.ctx) o.src s.fresh c
  have hhold (d : Nat) : (s.lookMap l (s.residentOf o.ctx)).hold o.ctx l.tag d = s.hold o.ctx l.tag d := State.hold_congr hlook.kvHolds ..
  have hctx := hlook.ctx o.ctx
  generalize hw : s.lookMap l (s.residentOf o.ctx) = w at hlook hlookp hconvs hhold hctx
  have happend : s.appendTo l o = _ := State.appendTo_room (e := e) (i := i) hw (by rw [hhold, State.pageEntry_congr hlookp]; exact hpage) he (by rw [hhold]; exact hblock)
    (by rw [hlook.kvReserves, State.unusedEntries, State.mapList_congr hlookp]; exact hroom)
    (by
      rw [hlook.kvReserves, State.hotEntries, State.mapList_congr hlookp, State.recallOn, State.pagesMax, hctx]
      exact hpages)
  obtain ⟨hworks, hcores⟩ := State.appended_spec (c := c) (s := w) (r := s.residentOf o.ctx) (o := o) (hlook.tracked.trans hlines.1) (hlook.noScrub hscrub)
    (hlook.retained hret) (fun d hd => (hset d hd).1) hfit tk.isLt
  have hrun := State.runAppend_eq (s := s) (o := o) (l := l) (by rw [hcore]; exact hbound) (by rw [hcore]; exact hknown) hlayer (fun d hd => (hset d hd).2) happend
  rw [hcore] at hrun hone
  rw [htok] at hone
  rw [hcore, hlook.fresh, hconvs] at hcores
  have hconv := State.kvWorks_noteConv (c := c) (s := w.appended l o (s.residentOf o.ctx)) tk.isLt (convFlags (w.appendConvs l c o.src w.fresh))
  have hconvp := (State.carried_noteConv (c := c) (s := w.appended l o (s.residentOf o.ctx)) (convFlags (w.appendConvs l c o.src w.fresh))).pantry
  have hconvh := (w.appended l o (s.residentOf o.ctx)).noteConv_kvHolds c (convFlags (w.appendConvs l c o.src w.fresh))
  generalize (w.appended l o (s.residentOf o.ctx)).noteConv c (convFlags (w.appendConvs l c o.src w.fresh)) = v at hrun hconv hconvp hconvh
  have hall := ((hlook.kvWorks tk.isLt).trans hworks).trans hconv
  have hkvOps : v.kvOps = [] ++ [o] := hall.kvOps.trans halone
  have hdone := State.kvDone_alone hkvOps (o := o) rfl rfl rfl (fun p hp => absurd hp List.not_mem_nil) stOk
  rw [hcore, htok] at hdone
  have hend := State.onlyEnd_tokComplete (v.setKv []) c tk stOk
  have hone' : (v.setKv []).OneOp c tk := hone.of_rd hall.token (State.tokCount_congr hall.tokOps _ _)
  refine ⟨_, (exec_kvAppendComplete hkv hkind htok).trans (congrArg _ ?_), State.tokComplete_done c.isLt hone'.pending hone'.one hone'.ok (by decide),
    fun d hd => ?_⟩
  · rw [hrun, hdone, State.kvRun_idle]
    · exact State.settle_of_still _ _ (hend.biWant.trans (hall.biWant.trans hlines.2))
    · intro p hp
      rw [hend.kvOps] at hp
      exact absurd hp List.not_mem_nil
  · obtain ⟨hstaged, hcom, hbytes⟩ := hcores d hd
    have hholds : ((v.setKv []).tokComplete c tk stOk).kvHolds = (w.appended l o (s.residentOf o.ctx)).kvHolds := by
      rw [← hconvh]
      obtain ⟨_, _, _, h⟩ := hend
      rw [h]
      rfl
    rw [State.hold_congr hholds, hcom, hhold, State.bytes_congr (hend.pantry.trans hconvp)]
    exact ⟨hstaged, rfl, hbytes⟩

theorem State.setHold_pantry (s : State) (x tag c : Nat) (h : KvHold) : (s.setHold x tag c h).pantry = s.pantry := rfl
theorem State.pageSlot_congr (hp : t.pantry = s.pantry) (hr : t.kvReserves = s.kvReserves) (b : Nat) : t.pageSlot l x r b = s.pageSlot l x r b := by
  rw [State.pageSlot, State.pageSlot, State.pageEntry_congr hp, State.reserveOf, State.reserveOf, hr]

section
variable (hlines : s.noHostLines) (hfind : s.findPn id = some m) (hsrc : m.src < 256) (hm : m.srcModule = s.module)
  (hres : (s.ctx x).resident.isSome = true) (hheld : s.heldLayers x m.dest = [l])
include hlines hfind hsrc hm hres hheld
/-- A commit message at its holder. -/
theorem pnKvCommit_applies {tag mask pos : Nat} {path : Bool} (hret : s.flag Reg.DUMP_STAT Fl.DUMP_STAT_RETAINED = false) (hscrub : s.noScrub)
    (hdest : m.dest < 256) (hbody : m.body = .kvCommit x tag mask pos false path) :
    ∃ t, exec (.pnKvCommit id) s = .next t ∧
      (∃ a ∈ t.pn, a.dest = s.stand m.src ∧ a.src = m.dest ∧ a.tag = m.tag ∧ a.body = .kvAck x stOk) ∧
      (t.hold x l.tag m.dest).committed = (s.hold x l.tag m.dest).committed + (if mask = 0 then 1 else (maskList 16 mask).length) ∧
      ∀ k, mask = 0 → m.dest ≠ l.lead → s.pageSlot l x (s.residentOf x) ((s.hold x l.tag m.dest).committed / 64) = some k →
        l.slotAt k + 576 * ((s.hold x l.tag m.dest).committed % 64) + 576 ≤ pantrySize →
        t.bytes m.dest (l.slotAt k + 576 * ((s.hold x l.tag m.dest).committed % 64)) 576 = s.entryOf l x (s.residentOf x) m.dest := by
  have htaken := s.taken_takePn id
  have hsame : (s.takePn id).tracked = [] ∧ (s.takePn id).kvHolds = s.kvHolds ∧ (s.takePn id).pantry = s.pantry ∧ (s.takePn id).ctxs = s.ctxs ∧
      (s.takePn id).layerKv = s.layerKv ∧ (s.takePn id).kvReserves = s.kvReserves := by
    obtain ⟨_, _, _, ht⟩ := htaken
    rw [ht]
    exact ⟨hlines.1, rfl, rfl, rfl, rfl, rfl⟩
  obtain ⟨ht, hth, htp, htc, htl, htr⟩ := hsame
  have hhold := State.hold_congr hth x l.tag m.dest
  have hresident : (s.takePn id).residentOf x = s.residentOf x := by rw [State.residentOf, State.residentOf, State.ctx, State.ctx, htc]
  obtain ⟨hstep, hcom, hpantry⟩ := commitStep_spec (x := x) (c := m.dest) (l := l) (path := path) (mask := mask) (pos := pos) ht
  obtain ⟨w, hmsg, hw, hwh, hwp, hack⟩ := State.kvMessage_spec hfind hres hheld hm hsrc hstep
  refine ⟨w, (exec_pnKvCommit hfind hbody).trans (congrArg _ ?_), hack, ?_, fun k hmask hlead hslot hfit => ?_⟩
  · rw [hmsg, State.settle_of_still _ _ (hw.biWant.trans hlines.2)]
  · rw [State.hold_congr hwh, hcom, hhold, committedEntries_length]
  · have hentry := State.allPlaced_pending (c := m.dest) (l := l) (x := x) (k := k) ht
      ((State.scrubbing_congr (State.rd_takePn hfind (by unfold Reg.CORE_STAT coreWin Reg.FAB_PN_MSGS; omega))).trans (hscrub _ hdest))
      ((State.flag_congr (State.rd_takePn hfind (by decide)) _).trans hret) hdest
      (by rw [hhold, hresident, State.pageSlot_congr htp htr, hslot]) (by rw [hhold]; exact hfit)
    have hlayer : ((s.takePn id).commitLayer l x m.dest mask pos false).pantry = ((s.takePn id).allPlaced l x m.dest 0).pantry := by
      rw [State.commitLayer_eq, if_pos hlead, hmask]
      exact State.setHold_pantry ..
    have hsameEntry : (s.takePn id).entryOf l x (s.residentOf x) m.dest = s.entryOf l x (s.residentOf x) m.dest := by
      rw [State.entryOf, State.entryOf, hhold, State.stagedBytes_congr htl hth htp]
    rw [hhold, hresident, hsameEntry] at hentry
    rw [State.bytes_congr (hwp.trans (hpantry.trans hlayer)), hentry]
/-- A rollback message at its holder. -/
theorem pnKvRollback_applies {tag mask pos : Nat} {replay flip : Bool} (hbody : m.body = .kvRollback x tag mask pos replay flip) :
    ∃ t, exec (.pnKvRollback id) s = .next t ∧
      (∃ a ∈ t.pn, a.dest = s.stand m.src ∧ a.src = m.dest ∧ a.tag = m.tag ∧ a.body = .kvAck x stOk) ∧
      (t.hold x l.tag m.dest) = (s.hold x l.tag m.dest).without mask ∧ PantryKept s t := by
  have htaken := s.taken_takePn id
  have hsame : (s.takePn id).tracked = [] ∧ (s.takePn id).kvHolds = s.kvHolds ∧ (s.takePn id).pantry = s.pantry := by
    obtain ⟨_, _, _, ht⟩ := htaken
    rw [ht]
    exact ⟨hlines.1, rfl, rfl⟩
  obtain ⟨ht, hth, htp⟩ := hsame
  obtain ⟨hstep, hback, hpantry⟩ := State.rollbackLayer_spec (x := x) (c := m.dest) (l := l) ht mask
  obtain ⟨w, hmsg, -, hwh, hwp, hack⟩ := State.kvMessage_spec (f := fun t l => t.rollbackLayer l x m.dest mask) hfind hres hheld hm hsrc hstep
  obtain ⟨hfh, hfp, hfpantry⟩ := w.flipAt_spec m x ((s.heldLayers x m.dest).any fun l => (s.hold x l.tag m.dest).staged != 0) replay flip
  have hexec := exec_pnKvRollback hfind hbody
  rw [hmsg] at hexec
  refine ⟨_, hexec, by rw [hfp]; exact hack, ?_, pantryKept_of_eq (hfpantry.trans (hwp.trans (hpantry.trans htp)))⟩
  rw [State.hold_congr (hfh.trans hwh), hback, State.hold_congr hth]
end

/-- Settles O29: an append writes its staging entry on every core of the set, a message changes the hold of the core that it
reaches and is acknowledged last, and the last acknowledgement ends the operation. -/
theorem kvOperationsComplete : Obligations.KvOperationsComplete := by
  unfold Obligations.KvOperationsComplete
  intro s hlines hret hscrub
  refine ⟨?_, ?_, ?_⟩
  · intro c tk o l hfront hcore htok hkind hwaits hbound hknown hlayer hset x r n mine i e hpage he hblock hroom hpages hfit
    exact kvAppend_completes hlines hret hscrub hfront hcore htok hkind hwaits hbound hknown hlayer hset rfl rfl hpage he hblock hroom hpages hfit
  · intro id m x l hfind hdest hsrc hm hres hheld c h acked
    refine ⟨fun tag mask pos flip hbody => ?_, fun tag mask pos replay flip hbody => ?_⟩
    · obtain ⟨t, hexec, hack, hcom, hbytes⟩ := pnKvCommit_applies hlines hfind hsrc hm hres hheld hret hscrub hdest hbody
      refine ⟨t, hexec, hack, hcom, fun k hmask hlead hslot hfit => ?_⟩
      have hentry := hbytes k hmask hlead hslot hfit
      rw [State.entryOf] at hentry
      exact hentry
    · obtain ⟨t, hexec, hack, hhold, hkept⟩ := pnKvRollback_applies hlines hfind hsrc hm hres hheld hbody
      obtain ⟨hzero, hmasked⟩ := h.without_staged mask
      refine ⟨t, hexec, hack, ?_, hkept, ?_, ?_⟩
      · rw [hhold]
        rfl
      · rw [hhold]
        exact hzero
      · rw [hhold]
        exact hmasked
  · intro id m x st o hfind hbody hquiet hfront hcore htok hctx hacks hworst hst
    exact kvAck_completes hlines hfind hbody hquiet hfront hcore htok hctx hacks hworst hst
end Sys2Proof.Machine
end

section
/-! PROOFS. Pages move between Pantry and Loft, and nodes retire (O30). -/

namespace Sys2Proof.Machine

variable {s t u v : State} {k n x r id : Nat} {l : LayerKv} {o : KvOp}

/-! ## Operations that end -/

/-- Nothing changed but what the end of KV operations changes. -/
structure KvEnds (s t : State) : Prop where
  only : ∃ regs ops power kv, t = { s with regs := regs, tokOps := ops, power := power, kvOps := kv }
  idle : s.kvIdle → t.kvIdle
theorem KvEnds.refl (s : State) : KvEnds s s := ⟨⟨_, _, _, _, rfl⟩, id⟩
theorem KvEnds.trans (h : KvEnds s t) (h' : KvEnds t u) : KvEnds s u := by
  obtain ⟨⟨_, _, _, _, rfl⟩, hidle⟩ := h
  obtain ⟨⟨_, _, _, _, rfl⟩, hidle'⟩ := h'
  exact ⟨⟨_, _, _, _, rfl⟩, hidle' ∘ hidle⟩
section
variable (h : KvEnds s t)
include h
theorem KvEnds.pantry : t.pantry = s.pantry := by obtain ⟨⟨_, _, _, _, rfl⟩, -⟩ := h; rfl
theorem KvEnds.biWant : t.biWant = s.biWant := by obtain ⟨⟨_, _, _, _, rfl⟩, -⟩ := h; rfl
theorem KvEnds.loftFetches : t.loftFetches = s.loftFetches := by obtain ⟨⟨_, _, _, _, rfl⟩, -⟩ := h; rfl
end
theorem OnlyEnd.kvEnds (h : OnlyEnd s t) : KvEnds s t := by
  have hops := h.kvOps
  obtain ⟨_, _, _, rfl⟩ := h
  exact ⟨⟨_, _, _, _, rfl⟩, id⟩
theorem State.kvEnds_setKv {ops : List KvOp} (h : s.kvIdle → ∀ p ∈ ops, p.started = true) : KvEnds s (s.setKv ops) := ⟨⟨_, _, _, _, rfl⟩, h⟩
theorem State.kvEnds_kvRetireN (k n : Nat) (s : State) : KvEnds s (s.kvRetireN k n) := by
  induction n generalizing s with
  | zero => exact .refl s
  | succ n ih =>
    cases hfind : s.kvOps.find? fun o => o.core == k with
    | none =>
      rw [State.kvRetireN, hfind]
      exact .refl s
    | some o =>
      cases hdone : o.done with
      | none =>
        rw [State.kvRetireN, hfind]
        dsimp only
        rw [hdone]
        exact .refl s
      | some st =>
        rw [State.kvRetireN_done hfind hdone]
        refine KvEnds.trans (t := s.setKv (s.kvOps.filter fun q => q.id != o.id)) (State.kvEnds_setKv fun hidle p hp => hidle p (List.mem_filter.1 hp).1) ?_
        exact (State.onlyEnd_tokComplete ..).kvEnds.trans (ih _)
theorem State.kvDone_eq (s : State) (o : KvOp) (st : Nat) :
    s.kvDone o st = (s.setKv (s.kvOps.map fun k => if k.id = o.id then { k with done := some st } else k)).kvRetire o.core := rfl
theorem State.kvEnds_kvDone (s : State) (o : KvOp) (st : Nat) : KvEnds s (s.kvDone o st) := by
  rw [State.kvDone_eq]
  refine KvEnds.trans (State.kvEnds_setKv fun hidle p hp => ?_) (State.kvEnds_kvRetireN ..)
  obtain ⟨q, hq, rfl⟩ := List.mem_map.1 hp
  have hstarted := hidle q hq
  split
  · exact hstarted
  · exact hstarted

/-! ## A page comes from the Loft (R301, R302) -/

def State.setFetches (s : State) (q : List LoftFetch) : State := { s with loftFetches := q }
/-- The operations that a fetch lets go on. -/
def State.fetchedOps (s : State) (q : LoftFetch) : List KvOp :=
  s.kvOps.filter fun o => q.ops.contains o.id && !s.loftFetches.any fun k => k.ops.contains o.id
theorem exec_loftFetchComplete {ok : Bool} {data : List Byte} {q : LoftFetch} (hfind : (s.loftFetches.find? fun q => q.id == id) = some q)
    {w : State} (hw : (s.setFetches (s.loftFetches.filter fun k => k.id != id)).pageIn q (ok && s.cacheOk) data = w) :
    exec (.loftFetchComplete id ok data) s = .next (s.settle ((w.fetchedOps q).foldl (fun (t : State) o => t.kvDone o stOk) w).kvRun) := by
  show execLoftFetchComplete id ok data s = _
  rw [execLoftFetchComplete, hfind, ← hw]
  rfl
/-- The counters and bits of a page's arrival: with the same bytes, no scrub and no dump. -/
structure Readable (s t : State) : Prop where
  pantry : t.pantry = s.pantry
  biWant : t.biWant = s.biWant
  loftFetches : t.loftFetches = s.loftFetches
  kvOps : t.kvOps = s.kvOps
  tracked : t.tracked = s.tracked
  noScrub : s.noScrub → t.noScrub
  retained : s.flag Reg.DUMP_STAT Fl.DUMP_STAT_RETAINED = false → t.flag Reg.DUMP_STAT Fl.DUMP_STAT_RETAINED = false
theorem Readable.refl (s : State) : Readable s s := ⟨rfl, rfl, rfl, rfl, rfl, id, id⟩
theorem Readable.trans (h : Readable s t) (h' : Readable t u) : Readable s u :=
  ⟨h'.pantry.trans h.pantry, h'.biWant.trans h.biWant, h'.loftFetches.trans h.loftFetches, h'.kvOps.trans h.kvOps, h'.tracked.trans h.tracked,
    h'.noScrub ∘ h.noScrub, h'.retained ∘ h.retained⟩
theorem State.readable_wr {o : Nat} (hstat : ∀ d, o ≠ Reg.CORE_STAT d) (hdump : o ≠ Reg.DUMP_STAT) (s : State) (y : DWord) : Readable s (s.wr o y) :=
  ⟨State.wr_pantry .., State.wr_biWant .., State.wr_loftFetches .., State.wr_kvOps .., State.wr_tracked ..,
    fun hs d hd => (State.scrubbing_congr (State.rd_wr_other _ _ _ _ (hstat d).symm)).trans (hs d hd),
    fun hr => (State.flag_congr (State.rd_wr_other _ _ _ _ hdump.symm) _).trans hr⟩
theorem State.readable_kvStat (s : State) (p : Nat) (f : Fld) : Readable s (s.kvStat p f) :=
  State.readable_wr (fun d => by unfold Reg.SRV_KV_STAT Reg.CORE_STAT coreWin; omega) (by unfold Reg.SRV_KV_STAT Reg.DUMP_STAT; omega) s _
theorem State.readable_loftRead (s : State) (p n : Nat) : Readable s (s.loftRead p n) :=
  (State.readable_wr (fun d => by unfold Reg.SRV_KV_LOFT_RD Reg.CORE_STAT coreWin; omega) (by unfold Reg.SRV_KV_LOFT_RD Reg.DUMP_STAT; omega) s _).trans
    (State.readable_wr (fun d => by unfold Reg.HIF_LOFT_RD Reg.CORE_STAT coreWin; omega) (by decide) _ _)
theorem Written.readable (h : Written s t) (hp : t.pantry = s.pantry) : Readable s t :=
  ⟨hp, h.biWant, h.loftFetches, h.kvOps, h.tracked, h.noScrub, h.retained⟩
/-- What a fetched page holds. -/
def pageOf (ok : Bool) (data : List Byte) : List Byte := if ok then bytesAt data 0 pageBytes else List.replicate pageBytes 0x7F
theorem pageOf_length (ok : Bool) (data : List Byte) : (pageOf ok data).length = 36864 := by
  rw [pageOf]
  split
  · exact bytesAt_length ..
  · exact List.length_replicate
theorem bytesAt_getD {data : List Byte} {i : Nat} (hi : i < n) : (bytesAt data 0 n).getD i 0 = data.getD i 0 := by
  rw [bytesAt, List.drop_zero, List.getD_eq_getElem?_getD, List.getD_eq_getElem?_getD, List.getElem?_append]
  split
  · next h =>
    rw [List.length_take] at h
    rw [List.getElem?_take_of_lt hi]
  · next h =>
    rw [List.length_take, Nat.lt_min, not_and] at h
    have hlen := h hi
    rw [List.getElem?_replicate, List.getElem?_eq_none (by omega)]
    split <;> rfl
theorem pageOf_getD {ok : Bool} {data : List Byte} {i : Nat} (hi : i < 36864) : (pageOf ok data).getD i 0 = if ok then data.getD i 0 else 0x7F := by
  rw [pageOf]
  split
  · exact bytesAt_getD hi
  · rw [List.getD_eq_getElem?_getD, List.getElem?_replicate, if_pos (show i < pageBytes from hi)]
    rfl
theorem State.pageIn_held {ok : Bool} {data : List Byte} {q : LoftFetch} {i : Nat} {e : MapEntry} (hlayer : s.layerOf q.ctx q.tag = some l)
    (hpage : s.pageEntry l (s.residentOf q.ctx) q.block = some (i, e)) (hstate : e.state = 3) (hslot : e.slot = q.slot) :
    s.pageIn q ok data = (((if ok then s else s.kvStat l.part Fl.SRV_KV_STAT_LOFT_ERROR).lookMap l (s.residentOf q.ctx)).loftRead l.part
      pageBytes).storeSet l.set (l.slotAt q.slot) (pageOf ok data) := by
  rw [State.pageIn, hlayer]
  dsimp only
  rw [hpage]
  dsimp only
  rw [if_pos ⟨hstate, hslot⟩]
  rfl

theorem loftFetch_spec {ok : Bool} {data : List Byte} {q : LoftFetch} {i : Nat} {e : MapEntry} (hlines : s.noHostLines)
    (hret : s.flag Reg.DUMP_STAT Fl.DUMP_STAT_RETAINED = false) (hscrub : s.noScrub) (hidle : s.kvIdle)
    (hpage : s.pageEntry l (s.residentOf q.ctx) q.block = some (i, e)) (hstate : e.state = 3) (hslot : e.slot = q.slot)
    (hfind : (s.loftFetches.find? fun q => q.id == id) = some q) (hlayer : s.layerOf q.ctx q.tag = some l) (hset : ∀ d ∈ l.set, d < 256)
    (hfit : l.slotAt q.slot + 36864 ≤ pantrySize) :
    ∃ t, exec (.loftFetchComplete id ok data) s = .next t ∧ t.loftFetches = s.loftFetches.filter (fun k => k.id != id) ∧
      ∀ d ∈ l.set, ∀ i < 36864, t.byte d (l.slotAt q.slot + i) = if ok && s.cacheOk then data.getD i 0 else 0x7F := by
  have hbase : (s.setFetches (s.loftFetches.filter fun k => k.id != id)).layerOf q.ctx q.tag = some l ∧
      (s.setFetches (s.loftFetches.filter fun k => k.id != id)).pageEntry l
        ((s.setFetches (s.loftFetches.filter fun k => k.id != id)).residentOf q.ctx) q.block = some (i, e) := ⟨hlayer, hpage⟩
  have hset' : (s.setFetches (s.loftFetches.filter fun k => k.id != id)).noScrub ∧
      (s.setFetches (s.loftFetches.filter fun k => k.id != id)).flag Reg.DUMP_STAT Fl.DUMP_STAT_RETAINED = false ∧
      (s.setFetches (s.loftFetches.filter fun k => k.id != id)).tracked = [] ∧ (s.setFetches (s.loftFetches.filter fun k => k.id != id)).biWant = [] ∧
      (s.setFetches (s.loftFetches.filter fun k => k.id != id)).kvIdle ∧
      (s.setFetches (s.loftFetches.filter fun k => k.id != id)).loftFetches = s.loftFetches.filter fun k => k.id != id :=
    ⟨hscrub, hret, hlines.1, hlines.2, hidle, rfl⟩
  have hexec {w : State} := exec_loftFetchComplete (s := s) (ok := ok) (data := data) hfind (w := w)
  generalize s.setFetches (s.loftFetches.filter fun k => k.id != id) = b at hbase hset' hexec
  obtain ⟨hblayer, hbpage⟩ := hbase
  obtain ⟨hbscrub, hbret, hbtracked, hbbi, hbidle, hbfetch⟩ := hset'
  have hpagein := State.pageIn_held (ok := ok && s.cacheOk) (data := data) hblayer hbpage hstate hslot
  have hstat : Readable b (if (ok && s.cacheOk) = true then b else b.kvStat l.part Fl.SRV_KV_STAT_LOFT_ERROR) := by
    split
    · exact .refl b
    · exact b.readable_kvStat ..
  generalize (if (ok && s.cacheOk) = true then b else b.kvStat l.part Fl.SRV_KV_STAT_LOFT_ERROR) = w at hstat hpagein
  obtain ⟨hlook, hlookp⟩ := State.lookMap_spec (hstat.tracked.trans hbtracked) l (b.residentOf q.ctx)
  have hread := (hstat.trans (hlook.readable hlookp)).trans (State.readable_loftRead _ l.part pageBytes)
  generalize (w.lookMap l (b.residentOf q.ctx)).loftRead l.part pageBytes = v at hread hpagein
  obtain ⟨hstore, hbyte⟩ := State.storeSet_spec hset (l.slotAt q.slot) (pageOf (ok && s.cacheOk) data) (by rwa [pageOf_length]) v
    (hread.noScrub hbscrub) (hread.tracked.trans hbtracked) (hread.retained hbret)
  rw [pageOf_length] at hbyte
  generalize v.storeSet l.set (l.slotAt q.slot) (pageOf (ok && s.cacheOk) data) = y at hstore hbyte hpagein
  have hends : KvEnds y ((y.fetchedOps q).foldl (fun (t : State) o => t.kvDone o stOk) y) :=
    List.foldlRecOn (motive := KvEnds y) _ _ (.refl y) fun t ht o _ => ht.trans (t.kvEnds_kvDone o stOk)
  have hyidle : y.kvIdle := fun p hp => hbidle p (by rwa [hstore.kvOps, hread.kvOps] at hp)
  have hrun := State.kvRun_idle (hends.idle hyidle)
  have hexec := hexec hpagein
  rw [hrun, State.settle_of_still _ _ (hends.biWant.trans (hstore.biWant.trans (hread.biWant.trans hbbi)))] at hexec
  refine ⟨_, hexec, hends.loftFetches.trans (hstore.loftFetches.trans (hread.loftFetches.trans hbfetch)), fun d hd j hj => ?_⟩
  rw [State.byte_of_pantry hends.pantry, hbyte d _ (by omega), if_pos ⟨hd, by omega, by omega⟩, Nat.add_sub_cancel_left, pageOf_getD hj]

/-! ## A spill's write completes (R300) -/

theorem State.slotUsed_markSlot (s : State) (l : LayerKv) (a : Nat) (b : Bool) (d k : Nat) :
    (s.markSlot l a b).slotUsed d k = if ∃ c ∈ l.set, d * 4096 + k = c * 4096 + a then b else s.slotUsed d k := by
  have hfold (cs : List Nat) (m : List (Nat × Bool)) :
      sread (fun _ => false) (cs.foldl (fun m c => swrite (fun _ => false) m (c * 4096 + a) b) m) (d * 4096 + k) =
        if ∃ c ∈ cs, d * 4096 + k = c * 4096 + a then b else sread (fun _ => false) m (d * 4096 + k) := by
    induction cs generalizing m with
    | nil => rw [List.foldl_nil, if_neg (by simp)]
    | cons c cs ih =>
      rw [List.foldl_cons, ih, sread_swrite]
      by_cases hc : d * 4096 + k = c * 4096 + a <;> simp [hc]
  exact hfold l.set s.kvSlots
theorem State.slotUsed_markSlot_same (s : State) (l : LayerKv) (a : Nat) (b : Bool) {d : Nat} (hd : d ∈ l.set) : (s.markSlot l a b).slotUsed d a = b := by
  rw [State.slotUsed_markSlot, if_pos ⟨d, hd, rfl⟩]
theorem State.bookSlot_markSlot (s : State) (l : LayerKv) (a : Nat) (b : Bool) (p tag n : Nat) :
    (s.markSlot l a b).bookSlot p tag n = s.bookSlot p tag n := rfl
theorem State.slotUsed_setBookSlot (s : State) (p tag n : Nat) (k : Option Nat) (d a : Nat) : (s.setBookSlot p tag n k).slotUsed d a = s.slotUsed d a := rfl
theorem State.bookSlot_setBookSlot (s : State) (p tag n : Nat) (k : Option Nat) (p' tag' n' : Nat) :
    (s.setBookSlot p tag n k).bookSlot p' tag' n' = if bookKey p' tag' n' = bookKey p tag n then k else s.bookSlot p' tag' n' := sread_swrite ..

/-- Slots were freed, none taken, and no entry of the tree's slots was made. -/
structure Frees (s t : State) : Prop where
  only : ∃ slots book, t = { s with kvSlots := slots, bookSlots := book }
  slots : ∀ d k, s.slotUsed d k = false → t.slotUsed d k = false
  book : ∀ p tag n, s.bookSlot p tag n = none → t.bookSlot p tag n = none
theorem Frees.refl (s : State) : Frees s s := ⟨⟨_, _, rfl⟩, fun _ _ => id, fun _ _ _ => id⟩
theorem Frees.trans (h : Frees s t) (h' : Frees t u) : Frees s u := by
  obtain ⟨⟨_, _, rfl⟩, hslots, hbook⟩ := h
  obtain ⟨⟨_, _, rfl⟩, hslots', hbook'⟩ := h'
  exact ⟨⟨_, _, rfl⟩, fun d k hs => hslots' d k (hslots d k hs), fun p tag n hs => hbook' p tag n (hbook p tag n hs)⟩
theorem State.frees_markSlot (s : State) (l : LayerKv) (k : Nat) : Frees s (s.markSlot l k false) :=
  ⟨⟨_, _, rfl⟩, fun d a hs => by rw [State.slotUsed_markSlot, hs, ite_self], fun _ _ _ => id⟩
theorem State.frees_setBookSlot (s : State) (p tag n : Nat) : Frees s (s.setBookSlot p tag n none) :=
  ⟨⟨_, _, rfl⟩, fun _ _ => id, fun p' tag' n' hs => by rw [State.bookSlot_setBookSlot, hs, ite_self]⟩
section
variable (h : Frees s t)
include h
theorem Frees.pantry : t.pantry = s.pantry := by obtain ⟨⟨_, _, rfl⟩, -, -⟩ := h; rfl
theorem Frees.spills : t.spills = s.spills := by obtain ⟨⟨_, _, rfl⟩, -, -⟩ := h; rfl
theorem Frees.tracked : t.tracked = s.tracked := by obtain ⟨⟨_, _, rfl⟩, -, -⟩ := h; rfl
theorem Frees.biWant : t.biWant = s.biWant := by obtain ⟨⟨_, _, rfl⟩, -, -⟩ := h; rfl
theorem Frees.regs : t.regs = s.regs := by obtain ⟨⟨_, _, rfl⟩, -, -⟩ := h; rfl
end
/-- A step of a fold that frees may be left out or done first: what one step frees stays free. -/
theorem frees_foldl {α : Type} {f : State → α → State} (hf : ∀ s a, Frees s (f s a)) (as : List α) (s : State) : Frees s (as.foldl f s) :=
  List.foldlRecOn (motive := Frees s) as f (.refl s) fun t ht a _ => ht.trans (hf t a)
theorem slotFree_foldl {α : Type} {f : State → α → State} (hf : ∀ s a, Frees s (f s a)) {d k : Nat} {a : α} (ha : ∀ s, (f s a).slotUsed d k = false)
    {as : List α} (hmem : a ∈ as) (s : State) : (as.foldl f s).slotUsed d k = false := by
  obtain ⟨as₁, as₂, rfl⟩ := List.append_of_mem hmem
  rw [List.foldl_append, List.foldl_cons]
  exact (frees_foldl hf as₂ _).slots d k (ha _)
theorem bookFree_foldl {α : Type} {f : State → α → State} (hf : ∀ s a, Frees s (f s a)) {p tag n : Nat} {a : α}
    (ha : ∀ s, (f s a).bookSlot p tag n = none) {as : List α} (hmem : a ∈ as) (s : State) : (as.foldl f s).bookSlot p tag n = none := by
  obtain ⟨as₁, as₂, rfl⟩ := List.append_of_mem hmem
  rw [List.foldl_append, List.foldl_cons]
  exact (frees_foldl hf as₂ _).book p tag n (ha _)

/-- The spills of a layer that are over. -/
def Spill.over (l : LayerKv) (q : Spill) : Bool := q.tag == l.tag && q.written && (q.reached || q.kept)
def State.freeSpill (l : LayerKv) (s : State) (q : Spill) : State := if q.kept then s else s.markSlot l q.slot false
theorem State.frees_freeSpill (l : LayerKv) (s : State) (q : Spill) : Frees s (s.freeSpill l q) := by
  rw [State.freeSpill]
  split
  · exact .refl s
  · exact s.frees_markSlot ..
theorem State.spillsEnd_eq (s : State) (l : LayerKv) :
    s.spillsEnd l = (s.spills.filter (Spill.over l)).foldl (State.freeSpill l) (s.setSpills (s.spills.filter fun q => !q.over l)) := rfl

/-- Nothing changed but the aperture's writes under way and what leaves. -/
def OnlyLanded (s t : State) : Prop := ∃ host out, t = { s with host := host, outbox := out }
theorem State.onlyLanded_landed (s : State) (owner : Nat) : OnlyLanded s (s.landed owner) := by
  rw [State.landed]
  refine List.foldlRecOn (motive := OnlyLanded s) _ _ ⟨_, _, rfl⟩ fun t ht a _ => ?_
  obtain ⟨_, _, rfl⟩ := ht
  exact ⟨_, _, rfl⟩
section
variable (h : OnlyLanded s t)
include h
theorem OnlyLanded.pantry : t.pantry = s.pantry := by obtain ⟨_, _, rfl⟩ := h; rfl
theorem OnlyLanded.spills : t.spills = s.spills := by obtain ⟨_, _, rfl⟩ := h; rfl
theorem OnlyLanded.kvSlots : t.kvSlots = s.kvSlots := by obtain ⟨_, _, rfl⟩ := h; rfl
theorem OnlyLanded.cacheOk : t.cacheOk = s.cacheOk := by obtain ⟨_, _, rfl⟩ := h; rfl
theorem OnlyLanded.layerOf (x tag : Nat) : t.layerOf x tag = s.layerOf x tag := by obtain ⟨_, _, rfl⟩ := h; rfl
end
def Spill.wrote (id : Nat) (q : Spill) : Spill := if q.id = id then { q with written := true } else q
/-- The spills that are over leave the layer of this one. -/
def State.spillGone (s : State) (q : Spill) : State :=
  match s.layerOf q.ctx q.tag with
  | none => s
  | some l => s.spillsEnd l
theorem State.spillGone_some {q : Spill} (h : s.layerOf q.ctx q.tag = some l) : s.spillGone q = s.spillsEnd l := by
  rw [State.spillGone, h]
theorem exec_spillWriteComplete {ok : Bool} {q : Spill} {w : State} (hfind : (s.spills.find? fun q => q.id == id) = some q)
    (hw : s.landed (65536 + id) = w) (hlayer : w.layerOf q.ctx q.tag = some l) :
    exec (.spillWriteComplete id ok) s =
      .next (if (!(ok && w.cacheOk)) = true then w else (w.setSpills (w.spills.map (Spill.wrote id))).spillsEnd l) := by
  show execSpillWriteComplete id ok s = _
  rw [execSpillWriteComplete, hfind]
  dsimp only
  rw [hw]
  split
  · rfl
  · exact congrArg Host.Outcome.next (State.spillGone_some (s := w.setSpills (w.spills.map (Spill.wrote id))) hlayer)
theorem Spill.wrote_of_find {q : Spill} (hfind : (s.spills.find? fun q => q.id == id) = some q) :
    ∃ p ∈ s.spills.map (Spill.wrote id), p = { q with written := true } := by
  refine ⟨q.wrote id, List.mem_map_of_mem (List.mem_of_find?_eq_some hfind), if_pos ?_⟩
  simpa using List.find?_some hfind
theorem spillWrite_spec {q : Spill} (hfind : (s.spills.find? fun q => q.id == id) = some q) (hlayer : s.layerOf q.ctx q.tag = some l) :
    (s.cacheOk = true → ∃ t, exec (.spillWriteComplete id true) s = .next t ∧ PantryKept s t ∧
      (q.reached = true → q.kept = false → ∀ c ∈ l.set, t.slotUsed c q.slot = false) ∧
      (q.reached = false → q.kept = false → ∃ k ∈ t.spills, k = { q with written := true })) ∧
    ∀ ok, (ok && s.cacheOk) = false →
      ∃ t, exec (.spillWriteComplete id ok) s = .next t ∧ t.spills = s.spills ∧ t.kvSlots = s.kvSlots := by
  have hexec {ok : Bool} {w : State} := exec_spillWriteComplete (s := s) (ok := ok) (l := l) hfind (w := w)
  have hland := s.onlyLanded_landed (65536 + id)
  generalize s.landed (65536 + id) = w at hland hexec
  have hexec (ok : Bool) := hexec (ok := ok) rfl ((hland.layerOf ..).trans hlayer)
  rw [hland.cacheOk, hland.spills] at hexec
  refine ⟨fun hcache => ⟨_, (hexec true).trans (congrArg _ (if_neg (by rw [hcache]; decide))), ?_⟩,
    fun ok hok => ⟨w, (hexec ok).trans (congrArg _ (if_pos (by rw [hok]; decide))), hland.spills, hland.kvSlots⟩⟩
  obtain ⟨p, hp, rfl⟩ := Spill.wrote_of_find hfind
  have htag : q.tag = l.tag := (beq_iff_eq.1 (List.find?_some (p := fun l : LayerKv => l.tag == q.tag) hlayer)).symm
  rw [State.spillsEnd_eq, show (w.setSpills (s.spills.map (Spill.wrote id))).spills = s.spills.map (Spill.wrote id) from rfl]
  have hfree := frees_foldl (State.frees_freeSpill l) ((s.spills.map (Spill.wrote id)).filter (Spill.over l))
    ((w.setSpills (s.spills.map (Spill.wrote id))).setSpills ((s.spills.map (Spill.wrote id)).filter fun q => !q.over l))
  refine ⟨pantryKept_of_eq (hfree.pantry.trans hland.pantry), fun hreached hkept c hc => ?_, fun hreached hkept => ?_⟩
  · refine slotFree_foldl (State.frees_freeSpill l) (fun u => ?_) (List.mem_filter.2 ⟨hp, ?_⟩) _
    · rw [State.freeSpill, if_neg (by rw [hkept]; decide)]
      exact u.slotUsed_markSlot_same l q.slot false hc
    · simp [Spill.over, htag, hreached]
  · refine ⟨_, ?_, rfl⟩
    rw [hfree.spills]
    exact List.mem_filter.2 ⟨hp, by simp [Spill.over, hreached, hkept]⟩

/-! ## A node retires (R295) -/

/-- One layer's slot of a node is freed. -/
def State.freeNodeSlot (p n : Nat) (s : State) (l : LayerKv) : State :=
  match s.bookSlot p l.tag n with
  | none => s
  | some k => (s.markSlot l k false).setBookSlot p l.tag n none
theorem State.freeNodeSlot_none (h : s.bookSlot x l.tag n = none) : s.freeNodeSlot x n l = s := by
  rw [State.freeNodeSlot, h]
theorem State.freeNodeSlot_some (h : s.bookSlot x l.tag n = some k) : s.freeNodeSlot x n l = (s.markSlot l k false).setBookSlot x l.tag n none := by
  rw [State.freeNodeSlot, h]
theorem State.frees_freeNodeSlot (p n : Nat) (s : State) (l : LayerKv) : Frees s (s.freeNodeSlot p n l) := by
  cases h : s.bookSlot p l.tag n with
  | none =>
    rw [State.freeNodeSlot_none h]
    exact .refl s
  | some k =>
    rw [State.freeNodeSlot_some h]
    exact (s.frees_markSlot l k).trans (State.frees_setBookSlot ..)
theorem State.bookSlot_freeNodeSlot (p n : Nat) (s : State) (l : LayerKv) : (s.freeNodeSlot p n l).bookSlot p l.tag n = none := by
  cases h : s.bookSlot p l.tag n with
  | none => rwa [State.freeNodeSlot_none h]
  | some k => rw [State.freeNodeSlot_some h, State.bookSlot_setBookSlot, if_pos rfl]
theorem State.freeNode_eq (s : State) (p : Nat) (r : PartRec) (n : Nat) :
    s.freeNode p r n = ((s.kvLayers p).foldl (State.freeNodeSlot p n) s).setBookNum r n 20 1 0 := rfl
theorem State.bookNum_congr (h : t.pantry = s.pantry) (r : PartRec) (n o w : Nat) : t.bookNum r n o w = s.bookNum r n o w := by
  unfold State.bookNum
  cases r.bookCore with
  | none => rfl
  | some c => dsimp only; rw [State.bytes_congr h]
theorem exec_nodeRetireFree {p : PartId} {node : Nat} {r : PartRec} (hpart : s.part p = some r) {w : State} (hw : s.lookBook r node 1 = w) :
    exec (.nodeRetireFree p node) s = .next (s.settle
      (if node < r.bookNodes ∧ w.bookNum r node 20 1 = 3 ∧ w.bookNum r node 12 4 = 0 then w.freeNode p r node else w)) := by
  show execNodeRetireFree p node s = _
  rw [execNodeRetireFree, show s.part p.val = some r from hpart, ← hw]
theorem State.bookNum_setBookNum {c : Nat} {r : PartRec} {n o w y : Nat} (hbook : r.bookCore = some c) (hc : c < 256) (hscrub : s.noScrub)
    (hlines : s.tracked = []) (hret : s.flag Reg.DUMP_STAT Fl.DUMP_STAT_RETAINED = false) (hfit : r.recordAt n + o + w ≤ pantrySize) :
    Written s (s.setBookNum r n o w y) ∧ (s.setBookNum r n o w y).bookNum r n o w = leNat (leBytes w y) := by
  obtain ⟨hw, hbyte⟩ := State.store_spec (hscrub c hc) hlines hret (r.recordAt n + o) (leBytes w y) (by rwa [leBytes_length])
  rw [leBytes_length] at hbyte
  simp only [State.setBookNum, State.bookNum, hbook]
  refine ⟨hw, congrArg leNat (bytes_of_stored (by rwa [leBytes_length]) (fun p hp hlo hhi => ?_) (leBytes_length ..).symm)⟩
  rw [leBytes_length] at hhi
  rw [hbyte c p hp, if_pos ⟨rfl, hlo, hhi⟩]
theorem State.lookBook_spec (hlines : s.tracked = []) (r : PartRec) (n k : Nat) :
    Written s (s.lookBook r n k) ∧ (s.lookBook r n k).pantry = s.pantry := by
  rw [State.lookBook]
  split
  · exact ⟨.refl s, rfl⟩
  · exact State.look_spec hlines ..
theorem Written.bookSlot (h : Written s t) (p tag n : Nat) : t.bookSlot p tag n = s.bookSlot p tag n := by
  obtain ⟨⟨_, _, _, _, _, rfl⟩, -, -⟩ := h
  rfl
theorem Written.slotUsed (h : Written s t) (d k : Nat) : t.slotUsed d k = s.slotUsed d k := by
  obtain ⟨⟨_, _, _, _, _, rfl⟩, -, -⟩ := h
  rfl
theorem nodeRetire_spec {p : PartId} {node : Nat} {r : PartRec} {c : Nat} (hlines : s.noHostLines)
    (hret : s.flag Reg.DUMP_STAT Fl.DUMP_STAT_RETAINED = false) (hscrub : s.noScrub) (hpart : s.part p = some r) (hbook : r.bookCore = some c)
    (hc : c < 256) (hfit : r.recordAt node + 320 ≤ pantrySize) (hnode : node < r.bookNodes) (hstate : s.bookNum r node 20 1 = 3)
    (hrefs : s.bookNum r node 12 4 = 0) :
    ∃ t, exec (.nodeRetireFree p node) s = .next t ∧ t.bookNum r node 20 1 = 0 ∧
      (∀ l ∈ s.kvLayers p, t.bookSlot p l.tag node = none) ∧
      ∀ l k, s.kvLayers p = [l] → s.bookSlot p l.tag node = some k → ∀ d ∈ l.set, t.slotUsed d k = false := by
  obtain ⟨hlook, hlookp⟩ := State.lookBook_spec hlines.1 r node 1
  have hexec {w : State} := exec_nodeRetireFree (node := node) hpart (w := w)
  generalize s.lookBook r node 1 = w at hlook hlookp hexec
  have hexec := hexec rfl
  rw [if_pos ⟨hnode, by rwa [State.bookNum_congr hlookp], by rwa [State.bookNum_congr hlookp]⟩, State.freeNode_eq, hlook.kvLayers] at hexec
  have hfree := frees_foldl (State.frees_freeNodeSlot p node) (s.kvLayers p) w
  obtain ⟨hset, hnum⟩ := State.bookNum_setBookNum (s := (s.kvLayers p).foldl (State.freeNodeSlot p node) w) (n := node) (o := 20) (w := 1) (y := 0)
    hbook hc (fun d hd => (State.scrubbing_congr (State.rd_congr hfree.regs _)).trans (hlook.noScrub hscrub d hd))
    (hfree.tracked.trans (hlook.tracked.trans hlines.1))
    ((State.flag_congr (State.rd_congr hfree.regs _) _).trans (hlook.retained hret)) (by omega)
  rw [State.settle_of_still _ _ (hset.biWant.trans (hfree.biWant.trans (hlook.biWant.trans hlines.2)))] at hexec
  refine ⟨_, hexec, hnum, fun l hl => ?_, fun l k hl hk d hd => ?_⟩
  · exact (hset.bookSlot ..).trans (bookFree_foldl (State.frees_freeNodeSlot p node) (fun u => u.bookSlot_freeNodeSlot p node l) hl w)
  · have hkw : w.bookSlot p l.tag node = some k := (hlook.bookSlot ..).trans hk
    refine (hset.slotUsed ..).trans ?_
    rw [hl]
    show (w.freeNodeSlot p node l).slotUsed d k = false
    rw [State.freeNodeSlot_some hkw, State.slotUsed_setBookSlot]
    exact State.slotUsed_markSlot_same _ _ _ _ hd

/-- Settles O30: a fetched page is stored in every replica unless its entry changed; spills end by the two marks they carry,
and a node's slots are freed layer by layer before its state. -/
theorem pagesMoveAndNodesRetire : Obligations.PagesMoveAndNodesRetire :=
  fun _ hlines hret hscrub =>
    ⟨fun _ _ _ _ _ _ _ hidle hpage hstate hslot hfind hlayer hset hfit =>
        loftFetch_spec hlines hret hscrub hidle hpage hstate hslot hfind hlayer hset hfit,
      fun _ _ _ hfind hlayer => spillWrite_spec hfind hlayer,
      fun _ _ _ _ hpart hbook hc hfit hnode hstate hrefs => nodeRetire_spec hlines hret hscrub hpart hbook hc hfit hnode hstate hrefs⟩

end Sys2Proof.Machine
end

section
/-! PROOFS. Passes are admitted, notices arrive and completions are written (O31). -/

namespace Sys2Proof.Machine

variable {s t u v w : State} {k n x id : Nat} {r : Req} {q : Pass} {rec : PartRec}

/-! ## Serving with a request in its pass -/

theorem State.parksDue_none (h : s.host.parkDue = []) : s.parksDue = s := by
  rw [State.parksDue, h]
  exact State.setPark_self h
theorem State.admissionOrder_one (h : s.reqs = [r]) : s.admissionOrder = [r] := by
  rw [State.admissionOrder, h]
  rfl
/-- A begun request whose pass is in flight has nothing to do. -/
theorem State.dueReq_running (hop : r.runsPasses = true) (hstarted : r.started = true) (hst : (s.ctx r.ctx).st = .active)
    (hpass : (s.passOf r.ctx).isSome = true) : s.dueReq r = false := by
  have hops : r.op = opGenerate ∨ r.op = opAdapt := by simpa [Req.runsPasses] using hop
  have hne : r.op ≠ opCreate ∧ r.op ≠ opPark ∧ r.op ≠ opDelete := by
    rcases hops with h | h <;> rw [h] <;> decide
  obtain ⟨hcreate, hpark, hdelete⟩ := hne
  have hnone : (s.passOf r.ctx).isNone = false := by rw [Option.isNone_eq_false_iff]; exact hpass
  rw [State.dueReq]
  rw [if_neg hcreate, if_neg hpark, if_neg hdelete, hstarted, hst, hnone]
  simp
theorem State.waitsPass_running (hpass : (s.passOf r.ctx).isSome = true) : s.waitsPass r = false := by
  have hnone : (s.passOf r.ctx).isNone = false := by rw [Option.isNone_eq_false_iff]; exact hpass
  simp [State.waitsPass, hnone]
theorem State.serve_running (hreqs : s.reqs = [r]) (hpark : s.host.parkDue = []) (hidle : s.kvIdle) (hop : r.runsPasses = true)
    (hstarted : r.started = true) (hst : (s.ctx r.ctx).st = .active) (hpass : (s.passOf r.ctx).isSome = true) : s.serve = s := by
  have hserve (n : Nat) : State.serveN (n + 1) [] s = s := by
    rw [State.serveN, State.admissionOrder_one hreqs, List.find?_cons, State.dueReq_running hop hstarted hst hpass]
    rfl
  have hreq : s.serveReqs = s := by
    rw [State.serveReqs, State.parksDue_none hpark]
    rw [hserve, hreqs, List.filter_cons, State.waitsPass_running hpass, hstarted]
    rfl
  rw [State.serve, hreq, State.kvRun_idle hidle]

/-! ## What a pass is made of -/

theorem coreId_unchecked (d : Nat) : Unchecked (Reg.CORE_ID d) := fun e => by
  unfold checkRegs Reg.CORE_STAT Reg.CORE_ECC_COUNT Reg.CORE_ID coreWin Reg.DUMP_ERR_HEAD Reg.DUMP_ERR_LOST
  simp only [List.mem_cons, List.not_mem_nil, or_false, not_or]
  omega
theorem treeCtl_unchecked (p : PartId) : Unchecked (Reg.SRV_TREE_CTL p) := fun e => by
  have := p.isLt
  unfold checkRegs Reg.CORE_STAT Reg.CORE_ECC_COUNT Reg.SRV_TREE_CTL coreWin Reg.DUMP_ERR_HEAD Reg.DUMP_ERR_LOST
  simp only [List.mem_cons, List.not_mem_nil, or_false, not_or]
  omega
theorem treePar_unchecked (p : PartId) {i : Nat} (hi : i < 32) : Unchecked (Reg.SRV_TREE_PAR p (i / 4)) := fun e => by
  have := p.isLt
  unfold checkRegs Reg.CORE_STAT Reg.CORE_ECC_COUNT Reg.SRV_TREE_PAR coreWin Reg.DUMP_ERR_HEAD Reg.DUMP_ERR_LOST
  simp only [List.mem_cons, List.not_mem_nil, or_false, not_or]
  omega
theorem State.treeNodes_lt (s : State) (p : Nat) : s.treeNodes p < 32 := Fld.get_lt _ _
theorem Written.treeNodes (h : Written s t) (p : PartId) : t.treeNodes p = s.treeNodes p := by
  rw [State.treeNodes, State.treeNodes, State.fld, State.fld, h.rd _ (treeCtl_unchecked p)]
theorem Written.treeParent (h : Written s t) (p : PartId) {i : Nat} (hi : i < 32) : t.treeParent p i = s.treeParent p i := by
  rw [State.treeParent, State.treeParent, h.rd _ (treePar_unchecked p hi)]
theorem Written.treeDepth (h : Written s t) (p : PartId) : t.treeDepth p = s.treeDepth p := by
  have hlt := s.treeNodes_lt p
  rw [State.treeDepth, State.treeDepth, h.treeNodes]
  dsimp only
  congr 1
  refine List.foldl_ext _ _ _ fun ds i hi => ?_
  rw [h.treeParent p (by have := List.mem_range.1 hi; omega)]
theorem Written.bucketOf (h : Written s t) (x n : Nat) : t.bucketOf x n = s.bucketOf x n := by
  rw [State.bucketOf, State.bucketOf, h.ctx]
theorem Written.attended (h : Written s t) (hp : t.pantry = s.pantry) (x : Nat) : t.attended x = s.attended x := by
  rw [State.attended, State.attended, h.ctx, h.kvLayers]
  simp only [State.mapList_congr hp]
theorem Written.passBucket (h : Written s t) (hp : t.pantry = s.pantry) (r : Req) {q : Pass} {p : PartId} (hq : q.part = p) :
    t.passBucket r q = s.passBucket r q := by
  rw [State.passBucket, State.passBucket, hq]
  simp only [State.promptLeft, h.bucketOf, h.attended hp, h.treeDepth, h.ctx]
theorem Written.passBytes (h : Written s t) (q : Pass) (b : Nat) : t.passBytes q b = s.passBytes q b := by
  rw [State.passBytes, State.passBytes, h.ctx]
theorem Written.entryCores (h : Written s t) (p : Nat) : t.entryCores p = s.entryCores p := by
  have hbinds : t.binds = s.binds := by obtain ⟨⟨_, _, _, _, _, rfl⟩, -, -⟩ := h; rfl
  rw [State.entryCores, State.entryCores, hbinds]
  simp only [State.bound, State.partOf, State.flag, State.fld, h.rd _ (coreId_unchecked _)]
theorem wordsTo_length (w n : Nat) (l : List Nat) : (wordsTo w n l).length = n * w := by
  rw [wordsTo, List.length_flatten, List.map_map]
  have hconst : (List.length ∘ fun i => leBytes w (l.getD i 0)) = fun _ => w := funext fun i => leBytes_length ..
  rw [hconst, List.map_const', List.sum_replicate, List.length_range, smul_eq_mul]
theorem State.passBytes_length (s : State) (q : Pass) (b : Nat) : (s.passBytes q b).length = 128 := by
  simp only [State.passBytes, List.length_append, leBytes_length, List.length_replicate, wordsTo_length]
theorem State.nextPass_ctx (s : State) (r : Req) : (s.nextPass r).ctx = r.ctx := rfl
theorem State.nextPass_part (s : State) (r : Req) : (s.nextPass r).part = r.part := rfl
theorem State.nextPass_lanes (s : State) (r : Req) : ¬ 4 < (s.nextPass r).lanes := by
  rw [State.nextPass]
  dsimp only
  generalize List.length _ = len
  split <;> omega

/-! ## A pass is admitted (R317 to R319) -/

def State.setNorm (s : State) (x : Nat) : State := { s with normActs := swrite (fun _ => 0) s.normActs x 0 }
def State.pushPass (s : State) (q : Pass) : State := { s with passes := s.passes ++ [q] }
/-- What of a request's input remains once its pass is admitted. -/
def inputLeft (r : Req) (q : Pass) : List Nat := if q.kind = kindChunk ∨ q.kind = kindAdapt then r.input.drop 16 else r.input
/-- The context and the pass list once a pass has entered. -/
def State.passEntered (s : State) (q : Pass) : State :=
  ((s.setCtx q.ctx { s.ctx q.ctx with draws := 0, lastActive := s.hostTime }).setNorm q.ctx).pushPass q
def State.drewIf (s : State) (b : Prop) [Decidable b] : State := if b then s.drew else s
/-- The request once its pass is admitted. -/
def State.admittedReq (s : State) (r : Req) (q : Pass) : Req := { s.freed r with input := inputLeft r q }
/-- What an admission writes besides the descriptors. -/
def State.admitted (s : State) (r : Req) (q : Pass) : State :=
  let u := (s.passEntered q).drewIf (q.kind = kindTree)
  (u.putReq (u.admittedReq r q)).countFlight
theorem State.admitOne_eq (hpart : s.part q.part = some rec) :
    s.admitOne r q = (s.storeSet (s.entryCores q.part) rec.passOfs (s.passBytes q (s.passBucket r q))).admitted r q := by
  rw [State.admitOne, hpart]
  rfl

/-- Nothing changed but what an admission changes. -/
def OnlyAdmits (s t : State) : Prop :=
  ∃ ctxs norms passes fresh reqs regs, t = { s with ctxs := ctxs, normActs := norms, passes := passes, fresh := fresh, reqs := reqs, regs := regs }
theorem OnlyAdmits.trans (h : OnlyAdmits s t) (h' : OnlyAdmits t u) : OnlyAdmits s u := by
  obtain ⟨_, _, _, _, _, _, rfl⟩ := h
  obtain ⟨_, _, _, _, _, _, rfl⟩ := h'
  exact ⟨_, _, _, _, _, _, rfl⟩
section
variable (h : OnlyAdmits s t)
include h
theorem OnlyAdmits.pantry : t.pantry = s.pantry := by obtain ⟨_, _, _, _, _, _, rfl⟩ := h; rfl
theorem OnlyAdmits.biWant : t.biWant = s.biWant := by obtain ⟨_, _, _, _, _, _, rfl⟩ := h; rfl
theorem OnlyAdmits.kvOps : t.kvOps = s.kvOps := by obtain ⟨_, _, _, _, _, _, rfl⟩ := h; rfl
theorem OnlyAdmits.host : t.host = s.host := by obtain ⟨_, _, _, _, _, _, rfl⟩ := h; rfl
end
theorem State.onlyAdmits_setCtx (s : State) (x : Nat) (k : Ctx) : OnlyAdmits s (s.setCtx x k) := ⟨_, _, _, _, _, _, rfl⟩
theorem State.onlyAdmits_setNorm (s : State) (x : Nat) : OnlyAdmits s (s.setNorm x) := ⟨_, _, _, _, _, _, rfl⟩
theorem State.onlyAdmits_pushPass (s : State) (q : Pass) : OnlyAdmits s (s.pushPass q) := ⟨_, _, _, _, _, _, rfl⟩
theorem State.onlyAdmits_passEntered (s : State) (q : Pass) : OnlyAdmits s (s.passEntered q) :=
  ((s.onlyAdmits_setCtx ..).trans (State.onlyAdmits_setNorm ..)).trans (State.onlyAdmits_pushPass ..)
theorem State.onlyAdmits_drewIf (s : State) (b : Prop) [Decidable b] : OnlyAdmits s (s.drewIf b) := by
  rw [State.drewIf]
  split
  · exact ⟨_, _, _, _, _, _, rfl⟩
  · exact ⟨_, _, _, _, _, _, rfl⟩
theorem State.onlyAdmits_putReq (s : State) (r : Req) : OnlyAdmits s (s.putReq r) := ⟨_, _, _, _, _, _, rfl⟩
theorem State.onlyAdmits_countFlight (s : State) : OnlyAdmits s s.countFlight := ⟨_, _, _, _, _, _, rfl⟩
theorem State.onlyAdmits_admitted (s : State) (r : Req) (q : Pass) : OnlyAdmits s (s.admitted r q) :=
  (((s.onlyAdmits_passEntered q).trans (State.onlyAdmits_drewIf ..)).trans (State.onlyAdmits_putReq ..)).trans (State.onlyAdmits_countFlight ..)
@[simp] theorem State.setNorm_passes : (s.setNorm x).passes = s.passes := rfl
@[simp] theorem State.setNorm_reqs : (s.setNorm x).reqs = s.reqs := rfl
@[simp] theorem State.setNorm_ctx : (s.setNorm n).ctx x = s.ctx x := rfl
@[simp] theorem State.pushPass_passes : (s.pushPass q).passes = s.passes ++ [q] := rfl
@[simp] theorem State.pushPass_reqs : (s.pushPass q).reqs = s.reqs := rfl
@[simp] theorem State.pushPass_ctx : (s.pushPass q).ctx x = s.ctx x := rfl
@[simp] theorem State.setCtx_passes {k : Ctx} : (s.setCtx x k).passes = s.passes := rfl
@[simp] theorem State.setCtx_reqs {k : Ctx} : (s.setCtx x k).reqs = s.reqs := rfl
theorem State.setCtx_same {k : Ctx} : (s.setCtx x k).ctx x = k := by
  rw [State.ctx, State.setCtx, sread_swrite, if_pos rfl]
@[simp] theorem State.passEntered_passes : (s.passEntered q).passes = s.passes ++ [q] := by simp [State.passEntered]
@[simp] theorem State.passEntered_reqs : (s.passEntered q).reqs = s.reqs := by simp [State.passEntered]
theorem State.passEntered_st : ((s.passEntered q).ctx q.ctx).st = (s.ctx q.ctx).st := by
  rw [State.passEntered, State.pushPass_ctx, State.setNorm_ctx, State.setCtx_same]
@[simp] theorem State.drewIf_passes {b : Prop} [Decidable b] : (s.drewIf b).passes = s.passes := by
  rw [State.drewIf]
  split <;> rfl
@[simp] theorem State.drewIf_reqs {b : Prop} [Decidable b] : (s.drewIf b).reqs = s.reqs := by
  rw [State.drewIf]
  split <;> rfl
@[simp] theorem State.drewIf_ctx {b : Prop} [Decidable b] : (s.drewIf b).ctx x = s.ctx x := by
  rw [State.drewIf]
  split <;> rfl
@[simp] theorem State.putReq_passes : (s.putReq r).passes = s.passes := rfl
@[simp] theorem State.putReq_ctx : (s.putReq r).ctx x = s.ctx x := rfl
theorem State.putReq_reqs : (s.putReq r).reqs = s.reqs.map fun q => if q.id = r.id then r else q := rfl
theorem State.putReq_one {r' : Req} (hreqs : s.reqs = [r]) (hid : r.id = r'.id) : (s.putReq r').reqs = [r'] := by
  rw [State.putReq_reqs, hreqs, List.map_singleton, if_pos hid]
@[simp] theorem State.countFlight_passes : s.countFlight.passes = s.passes := rfl
@[simp] theorem State.countFlight_reqs : s.countFlight.reqs = s.reqs := rfl
@[simp] theorem State.countFlight_ctx : s.countFlight.ctx x = s.ctx x := rfl
theorem State.countFlight_fld : s.countFlight.fld Reg.SRV_STAT Fl.SRV_STAT_IN_FLIGHT = s.passes.length % 256 :=
  State.fld_setFld_same _ _ _ _ (by decide)
theorem State.admitted_passes : (s.admitted r q).passes = s.passes ++ [q] := by simp [State.admitted]
theorem State.admitted_st : ((s.admitted r q).ctx q.ctx).st = (s.ctx q.ctx).st := by
  simp only [State.admitted, State.countFlight_ctx, State.putReq_ctx, State.drewIf_ctx]
  exact State.passEntered_st
theorem State.admitted_reqs (hreqs : s.reqs = [r]) : (s.admitted r q).reqs = [((s.passEntered q).drewIf (q.kind = kindTree)).admittedReq r q] := by
  simp only [State.admitted, State.countFlight_reqs]
  exact State.putReq_one (s := (s.passEntered q).drewIf (q.kind = kindTree)) (r := r) (by simpa using hreqs) rfl
theorem State.admitted_flight : (s.admitted r q).fld Reg.SRV_STAT Fl.SRV_STAT_IN_FLIGHT = (s.passes.length + 1) % 256 := by
  simp only [State.admitted, State.countFlight_fld]
  simp
theorem State.lookAttended_spec (hlines : s.tracked = []) (x : Nat) :
    Written s (s.lookAttended x) ∧ (s.lookAttended x).pantry = s.pantry := by
  rw [State.lookAttended]
  split
  · exact State.lookMap_spec hlines ..
  · exact ⟨.refl s, rfl⟩
theorem Written.reqs (h : Written s t) : t.reqs = s.reqs := by obtain ⟨⟨_, _, _, _, _, rfl⟩, -, -⟩ := h; rfl
theorem Written.passes (h : Written s t) : t.passes = s.passes := by obtain ⟨⟨_, _, _, _, _, rfl⟩, -, -⟩ := h; rfl
theorem Written.host (h : Written s t) : t.host = s.host := by obtain ⟨⟨_, _, _, _, _, rfl⟩, -, -⟩ := h; rfl
theorem State.passOf_append (s : State) (hq : q.ctx = x) {ps : List Pass} (h : s.passes = ps ++ [q]) : (s.passOf x).isSome = true := by
  rw [State.passOf, h, List.find?_append, Option.isSome_or]
  simp [hq]
theorem State.admitN_none {p : Nat} (hreqs : s.reqs = [r]) (hpass : (s.passOf r.ctx).isSome = true) (m k : Nat) (b : Option Nat) :
    State.admitN p m k b s = s := by
  cases m with
  | zero => rfl
  | succ m =>
    have hready : s.passReady r = false := by
      rw [State.passReady, State.waitsPass_running hpass]
      rfl
    rw [State.admitN, State.admissionOrder_one hreqs, List.find?_cons, hready, Bool.and_false]
    rfl
/-- With one request, which may have its pass, that pass is the one that enters. -/
theorem State.admitN_one {p : Nat} (hreqs : s.reqs = [r]) (hpart : r.part = p) (hready : s.passReady r = true) (m : Nat) :
    ∃ k b, State.admitN p (m + 1) 4 none s = State.admitN p m k b ((s.lookAttended r.ctx).admitOne r (s.nextPass r)) := by
  rw [State.admitN, State.admissionOrder_one hreqs, List.find?_cons, hready, hpart, beq_self_eq_true]
  dsimp only
  refine ⟨_, _, if_neg fun hor => ?_⟩
  rcases hor with hlanes | ⟨-, hnone, -⟩
  · exact s.nextPass_lanes r hlanes
  · exact absurd hnone (by decide)
theorem passAdmission_spec {p : PartId} (hlines : s.noHostLines) (hret : s.flag Reg.DUMP_STAT Fl.DUMP_STAT_RETAINED = false) (hscrub : s.noScrub)
    (hreqs : s.reqs = [r]) (hpark : s.host.parkDue = []) (hidle : s.kvIdle) (hp : r.part = p) (hready : s.passReady r = true)
    (hpart : s.part p = some rec) (hcores : ∀ c ∈ s.entryCores p, c < 256) (hfit : rec.passOfs + 128 ≤ pantrySize) :
    ∃ t, exec (.passAdmission p) s = .next t ∧ t.passes = s.passes ++ [s.nextPass r] ∧
      t.fld Reg.SRV_STAT Fl.SRV_STAT_IN_FLIGHT = s.passes.length + 1 ∧
      ∀ c ∈ s.entryCores p, t.bytes c rec.passOfs 128 = s.passBytes (s.nextPass r) (s.passBucket r (s.nextPass r)) := by
  have hqp : (s.nextPass r).part = p := (s.nextPass_part r).trans hp
  have hqx := s.nextPass_ctx r
  obtain ⟨k, b, hadmit⟩ := State.admitN_one hreqs hp hready 3
  obtain ⟨hlook, hlookp⟩ := State.lookAttended_spec hlines.1 r.ctx
  have hwait : r.runsPasses = true ∧ r.started = true ∧ (s.ctx r.ctx).st = .active ∧ s.passes.length < 240 := by
    simp only [State.passReady, State.waitsPass, Bool.and_eq_true, decide_eq_true_eq, beq_iff_eq] at hready
    grind
  obtain ⟨hop, hstarted, hst, hlen⟩ := hwait
  generalize s.nextPass r = q at *
  generalize s.lookAttended r.ctx = w at *
  rw [State.admitOne_eq (s := w) (rec := rec) (by rw [hqp, hlook.part, hpart]), hqp, hlook.entryCores, hlook.passBytes,
    hlook.passBucket hlookp r hqp] at hadmit
  obtain ⟨hstore, hbyte⟩ := State.storeSet_spec hcores rec.passOfs (s.passBytes q (s.passBucket r q)) (by rwa [State.passBytes_length]) w
    (hlook.noScrub hscrub) (hlook.tracked.trans hlines.1) (hlook.retained hret)
  rw [State.passBytes_length] at hbyte
  generalize hbs : s.passBytes q (s.passBucket r q) = bs at *
  have hbslen : bs.length = 128 := by rw [← hbs, State.passBytes_length]
  generalize w.storeSet (s.entryCores p) rec.passOfs bs = v at *
  have hv := hlook.trans hstore
  have hreqs' := State.admitted_reqs (s := v) (q := q) (hv.reqs.trans hreqs)
  have hpasses' := State.admitted_passes (s := v) (r := r) (q := q)
  have hst' : ((v.admitted r q).ctx r.ctx).st = .active := by
    rw [← hqx, State.admitted_st, hqx, hv.ctx, hst]
  have hflight := State.admitted_flight (s := v) (r := r) (q := q)
  have hpassof := State.passOf_append (v.admitted r q) hqx hpasses'
  have honly := v.onlyAdmits_admitted r q
  generalize (v.passEntered q).drewIf (q.kind = kindTree) = y at hreqs'
  generalize v.admitted r q = t at *
  rw [State.admitN_none (r := y.admittedReq r q) hreqs' hpassof] at hadmit
  have hserve : t.serve = t := State.serve_running (r := y.admittedReq r q) hreqs' ((congrArg _ honly.host).trans ((congrArg _ hv.host).trans hpark))
    (fun o ho => hidle o (by rwa [honly.kvOps, hv.kvOps] at ho)) hop hstarted hst' hpassof
  refine ⟨t, ?_, hpasses'.trans (by rw [hv.passes]), by rw [hflight, hv.passes]; omega, fun c hc => ?_⟩
  · show execPassAdmission p s = _
    rw [execPassAdmission, hadmit, hserve, State.settle_of_still _ _ (honly.biWant.trans (hv.biWant.trans hlines.2))]
  · rw [State.bytes_congr honly.pantry]
    refine bytes_of_stored (by omega) (fun o ho hlo hhi => ?_) hbslen.symm
    rw [hbyte c o ho, if_pos ⟨hc, hlo, by omega⟩]

/-! ## The notices of deadlines and commits (R328, R332) -/

theorem deadlineTimer_spec {h : Nat} (hreqs : s.reqs = [r]) (hh : h < 256) (hop : r.runsPasses = true) (hdeadline : r.deadline ≠ 0)
    (hsent : r.sent = false) (hdue : r.t0 + r.deadline ≤ s.hostTime) (hhead : s.headCore r.part = some h) :
    exec .deadlineTimer s = .next { s with
      pn := s.pn ++ [⟨s.nextId, s.stand h, s.module, nodeHost, s.module, 0, 0, .deadline r.ctx r.id⟩]
      nextId := s.nextId + 1
      reqs := [{ r with sent := true }] } := by
  show execDeadlineTimer s = _
  rw [execDeadlineTimer, hreqs, List.filter_cons_of_pos (by simp [hop, hdeadline, hsent, hdue]), List.filter_nil]
  dsimp only [List.foldl_cons, List.foldl_nil]
  rw [hhead]
  simp only [State.sendPn, State.putReq, if_pos hh, hreqs, List.map_singleton, if_true]
section
variable (h : Taken s t)
include h
theorem Taken.passes : t.passes = s.passes := by obtain ⟨_, _, _, rfl⟩ := h; rfl
theorem Taken.reqs : t.reqs = s.reqs := by obtain ⟨_, _, _, rfl⟩ := h; rfl
theorem Taken.notices : t.notices = s.notices := by obtain ⟨_, _, _, rfl⟩ := h; rfl
theorem Taken.host : t.host = s.host := by obtain ⟨_, _, _, rfl⟩ := h; rfl
theorem Taken.outbox : t.outbox = s.outbox := by obtain ⟨_, _, _, rfl⟩ := h; rfl
end
theorem deadline_spec {tag : Nat} {m : PnMsg} (hreqs : s.reqs = [r]) (hfind : s.findPn id = some m) (hbody : m.body = .deadline x tag) :
    ∃ t, exec (.deadline id) s = .next t ∧ t.pn = s.pn.filter (fun k => k.id != id) ∧ PantryKept s t ∧
      t.passes = s.passes.map (fun q => if q.ctx = x ∧ q.req = tag then { q with late := true } else q) ∧
      t.reqs = [if r.id = tag then { r with noticed := true } else r] := by
  have htaken := s.taken_takePn id
  have hpn := State.pn_takePn hfind
  refine ⟨{ s.takePn id with
    passes := (s.takePn id).passes.map fun q => if q.ctx = x ∧ q.req = tag then { q with late := true } else q
    reqs := (s.takePn id).reqs.map fun r => if r.id = tag then { r with noticed := true } else r }, ?_, ?_, ?_, ?_, ?_⟩
  · show execDeadline id s = _
    rw [execDeadline, hfind]
    dsimp only
    rw [hbody]
  · exact hpn
  · exact pantryKept_of_eq htaken.pantry
  · exact congrArg (List.map _) htaken.passes
  · refine (congrArg (List.map _) (htaken.reqs.trans hreqs)).trans ?_
    exact List.map_singleton ..

/-- The counters of missed limits of the first token and of the interval between tokens. -/
def State.noticeStats (s : State) (r : Req) (n : Notice) : State :=
  let s' := if r.ttft.isNone ∧ r.ttftLimit ≠ 0 ∧ r.ttftLimit < s.hostTime - r.t0 then
    s.bump (Reg.SRV_CLS_TTFT_VIOL r.cls) Fl.SRV_CLS_TTFT_VIOL_COUNT else s
  if !r.ttft.isNone && n.tbt != 0 && decide (n.tbt * n.tokens.length < if r.ttft.isNone then 0 else s.hostTime - r.lastAt) then
    s'.bump (Reg.SRV_CLS_TBT_VIOL r.cls) Fl.SRV_CLS_TBT_VIOL_COUNT else s'
/-- The request once tokens of a pass have been notified, of one that does not stream. -/
def State.noticedReq (s : State) (r : Req) (n : Notice) : Req :=
  { r with
    ttft := if r.ttft.isNone then some (s.hostTime - r.t0) else r.ttft, lastAt := s.hostTime
    gap := max r.gap (if r.ttft.isNone then 0 else s.hostTime - r.lastAt)
    emitted := r.emitted + n.tokens.length, carry := r.carry ++ n.tokens
    firstSeq := if r.carry.isEmpty then n.seq else r.firstSeq, late := r.late || n.late, norm := r.norm || n.norm }
theorem State.noticeIn_more {n : Notice} (hreqs : s.reqs = [r]) (hreq : n.req = r.id) (hfinal : n.final = none) (htokens : n.tokens ≠ [])
    (hstream : r.stream = false) (haddr : r.outAddr ≠ 0) :
    s.noticeIn n = ((s.noticeStats r n).emit (.hostWrite (r.outAddr + 4 * r.emitted)
      (n.tokens.map fun w => leBytes 4 w).flatten)).putReq (s.noticedReq r n) := by
  have hfind : s.findReq n.req = some r := by
    rw [State.findReq, hreqs, hreq]
    exact List.find?_cons_of_pos (beq_self_eq_true _)
  rw [State.noticeIn, hfind]
  dsimp only
  rw [if_neg (show n.tokens.length ≠ 0 by simpa using htokens)]
  rw [hfinal, if_neg haddr]
  dsimp only
  simp only [Req.stream, Req.flag] at hstream ⊢
  simp only [hstream, Bool.false_eq_true, if_false, false_and]
  rfl
theorem OnlyRegs.ite {p : Prop} [Decidable p] (h : OnlyRegs s t) (h' : OnlyRegs s u) : OnlyRegs s (if p then t else u) := by
  split
  · exact h
  · exact h'
theorem State.noticeStats_onlyRegs (s : State) (r : Req) (n : Notice) : OnlyRegs s (s.noticeStats r n) := by
  have hfirst : OnlyRegs s (if r.ttft.isNone ∧ r.ttftLimit ≠ 0 ∧ r.ttftLimit < s.hostTime - r.t0 then
    s.bump (Reg.SRV_CLS_TTFT_VIOL r.cls) Fl.SRV_CLS_TTFT_VIOL_COUNT else s) := .ite (.setFld (.refl s) ..) (.refl s)
  exact .ite (hfirst.setFld ..) hfirst
def State.setNotices (s : State) (l : List Notice) : State := { s with notices := l }
/-- Nothing changed but registers, the requests and what leaves, which is `out`. -/
def OnlyNotices (s t : State) (out : List OutMsg) : Prop := ∃ regs reqs, t = { s with regs := regs, reqs := reqs, outbox := out }
section
variable {out : List OutMsg} (h : OnlyNotices s t out)
include h
theorem OnlyNotices.pantry : t.pantry = s.pantry := by obtain ⟨_, _, rfl⟩ := h; rfl
theorem OnlyNotices.notices : t.notices = s.notices := by obtain ⟨_, _, rfl⟩ := h; rfl
theorem OnlyNotices.host : t.host = s.host := by obtain ⟨_, _, rfl⟩ := h; rfl
theorem OnlyNotices.kvOps : t.kvOps = s.kvOps := by obtain ⟨_, _, rfl⟩ := h; rfl
theorem OnlyNotices.biWant : t.biWant = s.biWant := by obtain ⟨_, _, rfl⟩ := h; rfl
theorem OnlyNotices.ctx : t.ctx x = s.ctx x := by obtain ⟨_, _, rfl⟩ := h; rfl
theorem OnlyNotices.passOf : t.passOf x = s.passOf x := by obtain ⟨_, _, rfl⟩ := h; rfl
theorem OnlyNotices.outbox : t.outbox = out := by obtain ⟨_, _, rfl⟩ := h; rfl
end
theorem OnlyRegs.notices {m : OutMsg} (h : OnlyRegs s t) : OnlyNotices s ((t.emit m).putReq r) (s.outbox ++ [m]) := by
  rw [h]
  exact ⟨_, _, rfl⟩
theorem OnlyRegs.emit_reqs {m : OutMsg} (h : OnlyRegs s t) : (t.emit m).reqs = s.reqs := by
  rw [h]
  rfl
theorem commitNotice_spec {flags : Nat} {m : PnMsg} {n : Notice} (hreqs : s.reqs = [r]) (hfind : s.findPn id = some m)
    (hbody : m.body = .commitNotice n.ctx n.seq n.tokens.length flags) (hnotices : s.notices = [n]) (hreq : n.req = r.id) (hfinal : n.final = none)
    (htokens : n.tokens ≠ []) (hstream : r.stream = false) (haddr : r.outAddr ≠ 0) (hstarted : r.started = true) (hop : r.op = opGenerate)
    (hst : (s.ctx r.ctx).st = .active) (hpass : (s.passOf r.ctx).isSome = true) (hpark : s.host.parkDue = []) (hidle : s.kvIdle)
    (hbi : s.biWant = []) :
    ∃ t q, exec (.commitNotice id) s = .next t ∧ t.notices = [] ∧ t.reqs = [q] ∧ q.emitted = r.emitted + n.tokens.length ∧
      q.carry = r.carry ++ n.tokens ∧ PantryKept s t ∧
      t.outbox = s.outbox ++ [.hostWrite (r.outAddr + 4 * r.emitted) (n.tokens.map fun w => leBytes 4 w).flatten] := by
  have htaken := s.taken_takePn id
  generalize hv : (s.takePn id).setNotices [] = v
  have hexec : exec (.commitNotice id) s = .next (s.settle (v.noticeIn n).serve) := by
    show execCommitNotice id s = _
    rw [execCommitNotice, hfind]
    dsimp only
    rw [hbody]
    dsimp only
    rw [htaken.notices, hnotices, List.find?_cons_of_pos (by simp)]
    dsimp only
    rw [removeFirst, if_pos rfl, ← hv]
    rfl
  have hvreqs : v.reqs = [r] := by rw [← hv]; exact htaken.reqs.trans hreqs
  have hvout : v.outbox = s.outbox := by rw [← hv]; exact htaken.outbox
  have hvnot : v.notices = [] := by rw [← hv]; rfl
  have hvpantry : v.pantry = s.pantry := by rw [← hv]; exact htaken.pantry
  have hvpark : v.host.parkDue = [] := by rw [← hv]; exact (congrArg _ htaken.host).trans hpark
  have hvbi : v.biWant = [] := by rw [← hv]; obtain ⟨_, _, _, h⟩ := htaken; rw [h]; exact hbi
  have hvkv : v.kvOps = s.kvOps := by rw [← hv]; obtain ⟨_, _, _, h⟩ := htaken; rw [h]; rfl
  have hvst : (v.ctx r.ctx).st = .active := by rw [← hv]; obtain ⟨_, _, _, h⟩ := htaken; rw [h]; exact hst
  have hvpass : (v.passOf r.ctx).isSome = true := by rw [← hv]; obtain ⟨_, _, _, h⟩ := htaken; rw [h]; exact hpass
  rw [State.noticeIn_more hvreqs hreq hfinal htokens hstream haddr] at hexec
  have hstats := v.noticeStats_onlyRegs r n
  have hq : (v.noticedReq r n).id = r.id ∧ (v.noticedReq r n).ctx = r.ctx ∧ (v.noticedReq r n).runsPasses = true ∧
      (v.noticedReq r n).started = true ∧ (v.noticedReq r n).emitted = r.emitted + n.tokens.length ∧
      (v.noticedReq r n).carry = r.carry ++ n.tokens := ⟨rfl, rfl, by rw [State.noticedReq, Req.runsPasses, hop]; rfl, hstarted, rfl, rfl⟩
  generalize v.noticedReq r n = q at hexec hq
  obtain ⟨hqid, hqctx, hqop, hqstarted, hqemitted, hqcarry⟩ := hq
  generalize v.noticeStats r n = w at hexec hstats
  have hwput := (w.emit (.hostWrite (r.outAddr + 4 * r.emitted) (n.tokens.map fun w => leBytes 4 w).flatten)).putReq_reqs (r := q)
  have hwkeep : OnlyNotices v ((w.emit (.hostWrite (r.outAddr + 4 * r.emitted) (n.tokens.map fun w => leBytes 4 w).flatten)).putReq q)
      (v.outbox ++ [.hostWrite (r.outAddr + 4 * r.emitted) (n.tokens.map fun w => leBytes 4 w).flatten]) := hstats.notices
  generalize (w.emit (.hostWrite (r.outAddr + 4 * r.emitted) (n.tokens.map fun w => leBytes 4 w).flatten)).putReq q = t at *
  have htreqs : t.reqs = [q] := by
    rw [hwput, hstats.emit_reqs, hvreqs, List.map_singleton, if_pos hqid.symm]
  have hserve : t.serve = t := State.serve_running htreqs ((congrArg _ hwkeep.host).trans hvpark)
    (fun o ho => hidle o (by rwa [hwkeep.kvOps, hvkv] at ho)) hqop hqstarted (by rw [hqctx, hwkeep.ctx, hvst]) (by rw [hqctx, hwkeep.passOf, hvpass])
  rw [hserve, State.settle_of_still _ _ (hwkeep.biWant.trans hvbi)] at hexec
  exact ⟨t, q, hexec, hwkeep.notices.trans hvnot, htreqs, hqemitted, hqcarry, pantryKept_of_eq (hwkeep.pantry.trans hvpantry),
    hwkeep.outbox.trans (by rw [hvout])⟩

/-! ## Completions are written (R547, R550) -/

theorem State.queue_setQueue (s : State) (n : Nat) (k : Queue) : (s.setQueue n k).queue n = k := by
  rw [State.queue, State.setQueue, sread_swrite, if_pos rfl]
@[simp] theorem State.queue_emit (s : State) (m : OutMsg) (n : Nat) : (s.emit m).queue n = s.queue n := rfl
/-- The queue's entry with its waiting completions, tail and phase, and its count of unsignalled ones left open. -/
def SameQueue (k k' : Queue) : Prop := ∃ uns since, k' = { k with unsignalled := uns, since := since }
/-- Nothing changed but the queues and what leaves. -/
def OnlyQueues (s t : State) : Prop := ∃ queues rest, t = { s with queues := queues, outbox := s.outbox ++ rest }
theorem OnlyQueues.trans (h : OnlyQueues s t) (h' : OnlyQueues t u) : OnlyQueues s u := by
  obtain ⟨_, rest, rfl⟩ := h
  obtain ⟨_, rest', rfl⟩ := h'
  exact ⟨_, rest ++ rest', by rw [← List.append_assoc]⟩
theorem State.onlyQueues_setQueue (s : State) (n : Nat) (k : Queue) : OnlyQueues s (s.setQueue n k) := ⟨_, [], by rw [List.append_nil]; rfl⟩
theorem State.onlyQueues_emit (s : State) (m : OutMsg) : OnlyQueues s (s.emit m) := ⟨_, [m], rfl⟩
section
variable (h : OnlyQueues s t)
include h
theorem OnlyQueues.pantry : t.pantry = s.pantry := by obtain ⟨_, _, rfl⟩ := h; rfl
theorem OnlyQueues.biWant : t.biWant = s.biWant := by obtain ⟨_, _, rfl⟩ := h; rfl
theorem OnlyQueues.noRequests (hs : s.noRequests) : t.noRequests := by obtain ⟨_, _, rfl⟩ := h; exact hs
theorem OnlyQueues.outbox : ∃ rest, t.outbox = s.outbox ++ rest := by obtain ⟨_, rest, rfl⟩ := h; exact ⟨rest, rfl⟩
end
theorem State.signalQueue_spec (s : State) (n : Nat) : OnlyQueues s (s.signalQueue n) ∧ SameQueue (s.queue n) ((s.signalQueue n).queue n) := by
  rw [State.signalQueue]
  refine ⟨(s.onlyQueues_setQueue ..).trans (State.onlyQueues_emit ..), ?_⟩
  rw [State.queue_emit, State.queue_setQueue]
  exact ⟨_, _, rfl⟩
theorem State.coalesce_spec (s : State) (n : Nat) (final : Bool) :
    OnlyQueues s (s.coalesce n final) ∧ SameQueue (s.queue n) ((s.coalesce n final).queue n) := by
  rw [State.coalesce]
  generalize hk : ({ s.queue n with unsignalled := (s.queue n).unsignalled + 1, since := _ } : Queue) = k
  have hset : OnlyQueues s (s.setQueue n k) ∧ SameQueue (s.queue n) ((s.setQueue n k).queue n) := by
    refine ⟨s.onlyQueues_setQueue .., ?_⟩
    rw [State.queue_setQueue, ← hk]
    exact ⟨_, _, rfl⟩
  obtain ⟨honly, huns, hsince, hsame⟩ := hset
  split
  · obtain ⟨honly', huns', hsince', hsame'⟩ := (s.setQueue n k).signalQueue_spec n
    refine ⟨honly.trans honly', huns', hsince', ?_⟩
    rw [hsame', hsame]
  · exact ⟨honly, huns, hsince, hsame⟩
/-- The queue once its next completion is written. -/
def Queue.wrote (k : Queue) (ds : List Completion) : Queue :=
  { k with waiting := ds, cqTail := (k.cqTail + 1) % k.cqSize, phase := if (k.cqTail + 1) % k.cqSize = 0 then !k.phase else k.phase }
/-- The write of a completion, with the phase in its flags. -/
def Queue.complWrite (k : Queue) (d : Completion) : OutMsg :=
  .hostWrite (k.cqBase + 64 * k.cqTail) (d.bytes.take 33 ++ leBytes 1 (leAt d.bytes 33 1 + (if k.phase then 128 else 0)) ++ d.bytes.drop 34)
theorem State.writeCompl_eq {d : Completion} {ds : List Completion} (hwait : (s.queue n).waiting = d :: ds) (hfull : (s.queue n).full = false) :
    s.writeCompl n = ((s.emit ((s.queue n).complWrite d)).setQueue n ((s.queue n).wrote ds)).coalesce n d.final := by
  rw [State.writeCompl, hwait]
  dsimp only
  rw [if_neg (by rw [hfull]; decide)]
  rfl
theorem State.queueDrained_active (h : (s.queue n).state = qActive) : s.queueDrained n = s := by
  rw [State.queueDrained]
  exact if_neg fun hd => absurd (h.symm.trans hd.1) (by decide)
theorem exec_completionWrite {q : QueueId} {ok : Bool} {d : Completion} {ds : List Completion} (hwait : (s.queue q).waiting = d :: ds)
    (hactive : (s.queue q).state = qActive) (hfull : (s.queue q).full = false) :
    exec (.completionWrite q ok) s = .next (s.settle (if ok then ((s.writeCompl q).queueDrained q).serve
      else ((s.setQueue q { s.queue q with state := qError, error := 6, waiting := ds }).bump Reg.HIF_CPL_DROPPED Fl.HIF_CPL_DROPPED_COUNT).serve)) := by
  show execCompletionWrite q ok s = _
  rw [execCompletionWrite, show (s.queue q.val).waiting = d :: ds from hwait]
  dsimp only
  rw [if_neg (by rw [hactive, hfull]; decide)]
theorem completionWritten {q : QueueId} {d : Completion} {ds : List Completion} (hreq : s.noRequests) (hbi : s.biWant = [])
    (hwait : (s.queue q).waiting = d :: ds) (hactive : (s.queue q).state = qActive) (hfull : (s.queue q).full = false) :
    ∃ t, exec (.completionWrite q true) s = .next t ∧ PantryKept s t ∧ (t.queue q).waiting = ds ∧
      (t.queue q).cqTail = ((s.queue q).cqTail + 1) % (s.queue q).cqSize ∧
      (t.queue q).phase = (if ((s.queue q).cqTail + 1) % (s.queue q).cqSize = 0 then !(s.queue q).phase else (s.queue q).phase) ∧
      ∃ rest, t.outbox = s.outbox ++ (s.queue q).complWrite d :: rest := by
  have hexec := exec_completionWrite (ok := true) hwait hactive hfull
  rw [if_pos rfl, State.writeCompl_eq hwait hfull] at hexec
  generalize hu : (s.emit ((s.queue q).complWrite d)).setQueue q ((s.queue q).wrote ds) = u at hexec
  obtain ⟨honly, huns, hsince, hsame⟩ := u.coalesce_spec q d.final
  have huq : u.queue q = (s.queue q).wrote ds := by rw [← hu, State.queue_setQueue]
  have huonly : OnlyQueues s u := hu ▸ (s.onlyQueues_emit _).trans (State.onlyQueues_setQueue ..)
  have huout : u.outbox = s.outbox ++ [(s.queue q).complWrite d] := by rw [← hu]; rfl
  generalize u.coalesce q d.final = t at *
  rw [huq] at hsame
  have htonly := huonly.trans honly
  rw [State.queueDrained_active (by rw [hsame]; exact hactive), State.serve_quiet (htonly.noRequests hreq),
    State.settle_of_still _ _ (htonly.biWant.trans hbi)] at hexec
  obtain ⟨rest, hrest⟩ := honly.outbox
  refine ⟨t, hexec, pantryKept_of_eq htonly.pantry, by rw [hsame]; rfl, by rw [hsame]; rfl, by rw [hsame]; rfl, rest, ?_⟩
  rw [hrest, huout, List.append_assoc, List.singleton_append]
theorem completionDropped {q : QueueId} {d : Completion} {ds : List Completion} (hreq : s.noRequests) (hbi : s.biWant = [])
    (hwait : (s.queue q).waiting = d :: ds) (hactive : (s.queue q).state = qActive) (hfull : (s.queue q).full = false) :
    ∃ t, exec (.completionWrite q false) s = .next t ∧ (t.queue q).state = qError ∧ (t.queue q).error = 6 ∧
      (t.queue q).waiting = ds ∧ t.outbox = s.outbox ∧
      t.fld Reg.HIF_CPL_DROPPED Fl.HIF_CPL_DROPPED_COUNT = min (s.fld Reg.HIF_CPL_DROPPED Fl.HIF_CPL_DROPPED_COUNT + 1) (2 ^ 32 - 1) := by
  have hexec := exec_completionWrite (ok := false) hwait hactive hfull
  rw [if_neg (by decide)] at hexec
  generalize hu : s.setQueue q { s.queue q with state := qError, error := 6, waiting := ds } = u at hexec
  have huq : u.queue q = { s.queue q with state := qError, error := 6, waiting := ds } := by rw [← hu, State.queue_setQueue]
  have hureq : u.noRequests := by rw [← hu]; exact hreq
  have hubi : u.biWant = [] := by rw [← hu]; exact hbi
  have hufld : u.fld Reg.HIF_CPL_DROPPED Fl.HIF_CPL_DROPPED_COUNT = s.fld Reg.HIF_CPL_DROPPED Fl.HIF_CPL_DROPPED_COUNT := by rw [← hu]; rfl
  have huout : u.outbox = s.outbox := by rw [← hu]; rfl
  have htq : (u.bump Reg.HIF_CPL_DROPPED Fl.HIF_CPL_DROPPED_COUNT).queue q = u.queue q := rfl
  have htreq : (u.bump Reg.HIF_CPL_DROPPED Fl.HIF_CPL_DROPPED_COUNT).noRequests := hureq
  rw [State.serve_quiet htreq, State.settle_of_still _ _ ((State.bump_biWant ..).trans hubi)] at hexec
  refine ⟨_, hexec, by rw [htq, huq], by rw [htq, huq], by rw [htq, huq], (State.bump_outbox ..).trans huout, ?_⟩
  rw [State.bump, State.fld_setFld_same _ _ _ _ (by decide), hufld]
  exact Nat.mod_eq_of_lt (by show min _ (2 ^ 32 - 1) < 2 ^ 32; omega)

/-- Settles O31: with one request open, admission runs once and serving finds nothing to do after it; notices change the
request and the pass they name; a completion is written at its queue's tail, or dropped. -/
theorem passesNoticesAndCompletions : Obligations.PassesNoticesAndCompletions :=
  ⟨fun _ _ _ _ hlines hret hscrub hreqs hpark hidle hp hready hpart hcores hfit =>
      passAdmission_spec hlines hret hscrub hreqs hpark hidle hp hready hpart hcores hfit,
    fun _ _ hreqs =>
      ⟨fun _ hh hop hdeadline hsent hdue hhead => deadlineTimer_spec hreqs hh hop hdeadline hsent hdue hhead,
        fun _ _ _ _ hfind hbody => deadline_spec hreqs hfind hbody,
        fun _ _ _ _ hfind hbody hnotices hreq hfinal htokens hstream haddr hstarted hop _ hst hpass hpark hidle hbi _ =>
          commitNotice_spec hreqs hfind hbody hnotices hreq hfinal htokens hstream haddr hstarted hop hst hpass hpark hidle hbi⟩,
    fun _ _ _ _ hreq hbi hwait hactive hfull =>
      ⟨completionWritten hreq hbi hwait hactive hfull, completionDropped hreq hbi hwait hactive hfull⟩⟩

end Sys2Proof.Machine
end

section
/-! PROOFS. Parks and resumes end, and balances are refilled (O33). -/

namespace Sys2Proof.Machine

variable {s t u v w : State} {k n x id : Nat} {r : Req} {l : LayerKv} {b : Prop}

/-! ## What giving a residence up and filling it leave -/

/-- The Loft's base and what says whether a tenant is enabled. -/
def HostReg (o : Nat) : Prop := o = Reg.HIF_LOFT_BASE ∨ ∃ i < 1024, o = Reg.SRV_TEN_CTL i
theorem HostReg.lt {o : Nat} (h : HostReg o) : o < 0x01000000 := by
  rcases h with rfl | ⟨i, hi, rfl⟩
  · decide
  · unfold Reg.SRV_TEN_CTL
    omega
/-- The parts that serving and the context's own record depend on, and under `b` those registers. -/
structure SameWork (b : Prop) (s t : State) : Prop where
  tracked : t.tracked = s.tracked
  biWant : t.biWant = s.biWant
  reqs : t.reqs = s.reqs
  park : t.host.parkDue = s.host.parkDue
  ctxs : t.ctxs = s.ctxs
  queues : t.queues = s.queues
  idle : s.kvIdle → t.kvIdle
  regs : b → ∀ o, HostReg o → t.rd o = s.rd o
theorem SameWork.trans (h : SameWork b s t) (h' : SameWork b t u) : SameWork b s u :=
  ⟨h'.tracked.trans h.tracked, h'.biWant.trans h.biWant, h'.reqs.trans h.reqs, h'.park.trans h.park, h'.ctxs.trans h.ctxs, h'.queues.trans h.queues, h'.idle ∘ h.idle,
    fun hb o ho => (h'.regs hb o ho).trans (h.regs hb o ho)⟩
/-- With no line of the aperture cached, a step leaves those parts. -/
structure Works (b : Prop) (s t : State) : Prop where
  same : s.tracked = [] → SameWork b s t
theorem Works.refl : Works b s s := ⟨fun _ => ⟨rfl, rfl, rfl, rfl, rfl, rfl, id, fun _ _ _ => rfl⟩⟩
theorem Works.trans (h : Works b s t) (h' : Works b t u) : Works b s u :=
  ⟨fun hs => (h.same hs).trans (h'.same ((h.same hs).tracked.trans hs))⟩
theorem Works.foldl {α : Type} {f : State → α → State} {as : List α} (hf : ∀ s a, Works b s (f s a)) (s : State) : Works b s (as.foldl f s) :=
  List.foldlRecOn (motive := Works b s) as f .refl fun t ht a _ => ht.trans (hf t a)
theorem Works.ite {p : Prop} [Decidable p] (h : Works b s t) (h' : Works b s u) : Works b s (if p then t else u) := by
  split
  · exact h
  · exact h'
theorem SameWork.base (h : SameWork True s t) : t.rd Reg.HIF_LOFT_BASE = s.rd Reg.HIF_LOFT_BASE := h.regs trivial _ (.inl rfl)
theorem HostReg.unchecked {o : Nat} (h : HostReg o) : Unchecked o := fun d => by
  have hlow : 0x10010 ≤ o := by
    rcases h with rfl | ⟨i, -, rfl⟩
    · decide
    · unfold Reg.SRV_TEN_CTL
      omega
  have hhigh : o < 0x28010 := by
    rcases h with rfl | ⟨i, hi, rfl⟩
    · decide
    · unfold Reg.SRV_TEN_CTL
      omega
  unfold checkRegs Reg.CORE_STAT Reg.CORE_ECC_COUNT coreWin Reg.DUMP_ERR_HEAD Reg.DUMP_ERR_LOST
  simp only [List.mem_cons, List.not_mem_nil, or_false, not_or]
  omega
theorem Written.queues (h : Written s t) : t.queues = s.queues := by obtain ⟨⟨_, _, _, _, _, rfl⟩, -, -⟩ := h; rfl
theorem Written.works (h : Written s t) : Works b s t :=
  ⟨fun _ => ⟨h.tracked, h.biWant, h.reqs, congrArg _ h.host, h.ctxs, h.queues, fun hs o ho => hs o (by rwa [h.kvOps] at ho),
    fun _ _ ho => h.rd _ ho.unchecked⟩⟩
theorem State.works_wr {o : Nat} (ho : b → ¬ HostReg o) (s : State) (y : DWord) : Works b s (s.wr o y) :=
  ⟨fun _ => ⟨rfl, rfl, rfl, rfl, rfl, rfl, id, fun hb _ hp => State.rd_wr_other _ _ _ _ (fun he => ho hb (he ▸ hp))⟩⟩
theorem State.works_look (s : State) (d o n : Nat) : Works b s (s.look d o n) := ⟨fun h => (State.look_spec h d o n).1.works.same h⟩
theorem State.works_store (s : State) (d o : Nat) (bs : List Byte) : Works b s (s.store d o bs) := by
  rw [State.store]
  exact .ite ⟨fun _ => ⟨rfl, rfl, rfl, rfl, rfl, rfl, id, fun _ _ _ => rfl⟩⟩ ⟨fun h => (State.onlyStores_storeNow h d o bs).written.works.same h⟩
theorem State.works_storeSet (s : State) (cs : List Nat) (o : Nat) (bs : List Byte) : Works b s (s.storeSet cs o bs) :=
  .foldl (fun s d => s.works_store d o bs) s
theorem State.works_lookMap (s : State) (l : LayerKv) (r : Nat) : Works b s (s.lookMap l r) := s.works_look ..
theorem State.works_markSlot (s : State) (l : LayerKv) (k : Nat) (v : Bool) : Works b s (s.markSlot l k v) := ⟨fun _ => ⟨rfl, rfl, rfl, rfl, rfl, rfl, id, fun _ _ _ => rfl⟩⟩
theorem State.works_setSpills (s : State) (qs : List Spill) : Works b s (s.setSpills qs) := ⟨fun _ => ⟨rfl, rfl, rfl, rfl, rfl, rfl, id, fun _ _ _ => rfl⟩⟩
theorem State.works_setReserves (s : State) (qs : List KvReserve) : Works b s (s.setReserves qs) := ⟨fun _ => ⟨rfl, rfl, rfl, rfl, rfl, rfl, id, fun _ _ _ => rfl⟩⟩
theorem Frees.works (h : Frees s t) : Works b s t := by
  obtain ⟨⟨_, _, rfl⟩, -, -⟩ := h
  exact ⟨fun _ => ⟨rfl, rfl, rfl, rfl, rfl, rfl, id, fun _ _ _ => rfl⟩⟩
theorem KvEnds.works (h : KvEnds s t) (hregs : b → ∀ o, HostReg o → t.rd o = s.rd o) : Works b s t := by
  have hidle := h.idle
  obtain ⟨⟨_, _, _, _, rfl⟩, -⟩ := h
  exact ⟨fun _ => ⟨rfl, rfl, rfl, rfl, rfl, rfl, hidle, hregs⟩⟩
/-- The end of operations writes registers of cores and regions only. -/
theorem State.rd_kvRetireN {o : Nat} (ho : o < 0x01000000) (k n : Nat) (s : State) : (s.kvRetireN k n).rd o = s.rd o := by
  induction n generalizing s with
  | zero => rfl
  | succ n ih =>
    cases hfind : s.kvOps.find? fun p => p.core == k with
    | none => rw [State.kvRetireN, hfind]
    | some p =>
      cases hdone : p.done with
      | none =>
        rw [State.kvRetireN, hfind]
        dsimp only
        rw [hdone]
      | some st =>
        rw [State.kvRetireN_done hfind hdone, ih]
        refine (State.rd_tokComplete _ _ _ _ _ ?_ ?_).trans rfl
        · unfold Reg.SEQ_TOKEN coreWin
          omega
        · unfold Reg.ARB_CLAIM regionWin
          omega
theorem State.works_kvDone (s : State) (o : KvOp) (st : Nat) : Works b s (s.kvDone o st) :=
  (s.kvEnds_kvDone o st).works fun _ _ ho => State.rd_kvRetireN ho.lt _ _ _

/-! ## A residence is given up (R339) -/

theorem State.works_spillsEnd (s : State) (l : LayerKv) : Works b s (s.spillsEnd l) := by
  rw [State.spillsEnd_eq]
  exact (s.works_setSpills _).trans (frees_foldl (State.frees_freeSpill l) _ _).works
theorem State.works_slotGiven (s : State) (l : LayerKv) (x k : Nat) : Works b s (s.slotGiven l x k) := by
  rw [State.slotGiven]
  exact .ite (s.works_setSpills _) (s.works_markSlot ..)
def State.clearHolds (s : State) (x : Nat) (l : LayerKv) : State :=
  { s with kvHolds := l.set.foldl (fun m c => swrite (fun _ => holdZero) m (kvKey x l.tag c) holdZero) s.kvHolds }
theorem State.works_clearHolds (s : State) (x : Nat) (l : LayerKv) : Works b s (s.clearHolds x l) := ⟨fun _ => ⟨rfl, rfl, rfl, rfl, rfl, rfl, id, fun _ _ _ => rfl⟩⟩
/-- The slots of a context in one layer are freed. -/
def State.freeOwn (s : State) (x r : Nat) (l : LayerKv) : State :=
  let s := s.lookMap l r
  let s := ((s.mapList l r).filter fun e => e.2.state == 1 || e.2.state == 3 || e.2.state == 4).foldl (fun (s : State) e => s.slotGiven l x e.2.slot) s
  let s := (s.kvReserves.filter fun q => q.of x l.tag).foldl (fun (s : State) q => s.markSlot l q.slot false) s
  s.setReserves (s.kvReserves.filter fun q => !q.of x l.tag)
theorem State.freeLayer_eq (s : State) (x r : Nat) (l : LayerKv) : s.freeLayer x r l =
    (((((s.freeOwn x r l).storeSet l.keepers (l.mapAt r 0) (List.replicate 2048 0)).setSpills
      (((s.freeOwn x r l).storeSet l.keepers (l.mapAt r 0) (List.replicate 2048 0)).spills.map fun q =>
        if q.ctx = x ∧ q.tag = l.tag then { q with reached := true } else q)).spillsEnd l).clearHolds x l) := rfl
theorem State.works_freeOwn (s : State) (x r : Nat) (l : LayerKv) : Works b s (s.freeOwn x r l) :=
  (((s.works_lookMap l r).trans (.foldl (fun (s : State) (e : Nat × MapEntry) => s.works_slotGiven l x e.2.slot) _)).trans
    (.foldl (fun (s : State) (q : KvReserve) => s.works_markSlot l q.slot false) _)).trans (State.works_setReserves ..)
theorem State.works_freeLayer (s : State) (x r : Nat) (l : LayerKv) : Works b s (s.freeLayer x r l) := by
  rw [State.freeLayer_eq]
  exact ((((s.works_freeOwn x r l).trans (State.works_storeSet ..)).trans (State.works_setSpills ..)).trans (State.works_spillsEnd ..)).trans
    (State.works_clearHolds ..)
def State.dropTraces (s : State) (x : Nat) : State :=
  { s with
    recency := s.recency.filter fun q => q.1 != x
    loftClean := s.loftClean.filter fun q => q.1 != x
    digestDirty := s.digestDirty.filter fun q => q.1 != x
    loftFetches := s.loftFetches.filter fun q => q.ctx != x }
theorem State.works_dropTraces (s : State) (x : Nat) : Works b s (s.dropTraces x) := ⟨fun _ => ⟨rfl, rfl, rfl, rfl, rfl, rfl, id, fun _ _ _ => rfl⟩⟩
/-- What a context loses with its residence, but for the index itself. -/
def State.unresident (s : State) (x r : Nat) : State :=
  let s := ((s.kvLayers (s.ctx x).part).foldl (fun (s : State) l => s.freeLayer x r l) s).dropTraces x
  (s.kvOps.filter fun o => o.ctx == x && o.done == none && o.started && o.kind == .map).foldl (fun (s : State) o => s.kvDone o stContext) s
theorem State.works_unresident (s : State) (x r : Nat) : Works b s (s.unresident x r) :=
  ((Works.foldl (fun (s : State) (l : LayerKv) => s.works_freeLayer x r l) s).trans (State.works_dropTraces ..)).trans
    (.foldl (fun (s : State) (o : KvOp) => s.works_kvDone o stContext) _)
/-- A context without a residence. -/
def Ctx.homeless (k : Ctx) : Ctx := { k with resident := none, slot := none, bank := false, draws := 0 }
theorem State.freeResident_some (h : (s.ctx x).resident = some n) :
    s.freeResident x = (s.unresident x n).setCtx x ((s.unresident x n).ctx x).homeless := by
  rw [State.freeResident, h]
  rfl
theorem State.freeResident_none (h : (s.ctx x).resident = none) : s.freeResident x = s := by
  rw [State.freeResident, h]

/-! ## Parks end (R339) -/

theorem State.works_emit (s : State) (m : OutMsg) : Works b s (s.emit m) := ⟨fun _ => ⟨rfl, rfl, rfl, rfl, rfl, rfl, id, fun _ _ _ => rfl⟩⟩
/-- The aperture's writes of an owner are no longer under way. -/
def State.grounded (s : State) (owner : Nat) : State :=
  let s := { s with host.flying := s.host.flying.filter fun f => f.1 != owner }
  { s with host.snoops := s.host.snoops.filter s.flyingOver }
theorem State.works_grounded (s : State) (owner : Nat) : Works b s (s.grounded owner) := ⟨fun _ => ⟨rfl, rfl, rfl, rfl, rfl, rfl, id, fun _ _ _ => rfl⟩⟩
theorem State.landed_eq (s : State) (owner : Nat) : ∃ due : List Nat, s.landed owner = due.foldl (fun (s : State) l => s.emit (.snoopMiss l)) (s.grounded owner) :=
  ⟨_, rfl⟩
theorem State.works_landed (s : State) (owner : Nat) : Works b s (s.landed owner) := by
  obtain ⟨due, h⟩ := s.landed_eq owner
  rw [h]
  exact (s.works_grounded owner).trans (.foldl (fun (s : State) (l : Nat) => s.works_emit (.snoopMiss l)) _)
theorem SameWork.ctx (h : SameWork b s t) (x : Nat) : t.ctx x = s.ctx x := by rw [State.ctx, State.ctx, h.ctxs]
theorem SameWork.noRequests (h : SameWork b s t) (hs : s.noRequests) : t.noRequests := by
  obtain ⟨hreqs, hpark, hidle⟩ := hs
  exact ⟨h.reqs.trans hreqs, h.park.trans hpark, h.idle hidle⟩
/-- Once a residence is given up, the context's other data stand. -/
theorem State.freeResident_spec (hlines : s.tracked = []) (x : Nat) :
    ∃ u, SameWork True s u ∧ (s.freeResident x = u ∧ (s.ctx x).resident = none ∨ s.freeResident x = u.setCtx x (s.ctx x).homeless) := by
  cases h : (s.ctx x).resident with
  | none => exact ⟨s, Works.refl.same hlines, .inl ⟨State.freeResident_none h, rfl⟩⟩
  | some r =>
    have hwork := (s.works_unresident (b := True) x r).same hlines
    exact ⟨_, hwork, .inr ((State.freeResident_some h).trans (by rw [hwork.ctx]))⟩
theorem State.endParked_none (h : s.reqs = []) (x : Nat) (ok : Bool) : s.endParked x ok = s := by
  rw [State.endParked, h]
  rfl
theorem Ctx.record_homeless (k : Ctx) (x state : Nat) : k.homeless.record x state = k.record x state := rfl
theorem State.noRequests_setCtx {c : Ctx} (h : s.noRequests) : (s.setCtx x c).noRequests := h

/-- A context in another state. -/
def Ctx.withSt (k : Ctx) (st : CtxState) : Ctx := { k with st := st }
theorem State.endPark_failed (hst : (s.ctx x).st = .parking) :
    s.endPark x false = ((s.landed x).setCtx x ((s.ctx x).withSt .resident)).endParked x false := by
  rw [State.endPark, if_neg (by rw [hst]; decide), if_neg (by decide)]
  rfl
theorem State.endPark_done (hst : (s.ctx x).st = .parking) : s.endPark x true =
    ((((s.landed x).freeResident x).writeRecord x 1).setCtx x
      (((((s.landed x).freeResident x).writeRecord x 1).ctx x).withSt .parked)).endParked x true := by
  rw [State.endPark, if_neg (by rw [hst]; decide), if_pos rfl]
  rfl
theorem exec_parkComplete {x : CtxId} {ok : Bool} (hpark : s.endPark x (ok && s.cacheOk) = t) (hquiet : t.noRequests) (hbi : t.biWant = []) :
    exec (.parkComplete x ok) s = .next t := by
  show execParkComplete x ok s = _
  rw [execParkComplete, hpark, State.serve_quiet hquiet, State.settle_of_still _ _ hbi]
theorem parkFails {x : CtxId} {ok : Bool} (hreq : s.noRequests) (hlines : s.noHostLines) (hst : (s.ctx x).st = .parking) (hok : (ok && s.cacheOk) = false) :
    ∃ t, exec (.parkComplete x ok) s = .next t ∧ (t.ctx x).st = .resident ∧ (t.ctx x).resident = (s.ctx x).resident := by
  have hland := (s.works_landed (b := True) x).same hlines.1
  have hend := State.endPark_failed hst
  generalize s.landed x = w at hland hend
  rw [State.endParked_none (s := w.setCtx x _) (hland.reqs.trans hreq.1)] at hend
  refine ⟨_, exec_parkComplete (by rw [hok]; exact hend) (State.noRequests_setCtx (hland.noRequests hreq)) (hland.biWant.trans hlines.2), ?_, ?_⟩
  · rw [State.setCtx_same, Ctx.withSt]
  · rw [State.setCtx_same, Ctx.withSt]
theorem recordAddr_congr (h : t.rd Reg.HIF_LOFT_BASE = s.rd Reg.HIF_LOFT_BASE) (x : Nat) : recordAddr t x = recordAddr s x := by
  rw [recordAddr, recordAddr, h]
theorem State.writeRecord_spec (s : State) (x state : Nat) :
    Works False s (s.writeRecord x state) ∧ (s.writeRecord x state).outbox = s.outbox ++ [.hostWrite (recordAddr s x) ((s.ctx x).record x state)] := by
  rw [State.writeRecord]
  exact ⟨(s.works_emit _).trans (State.works_wr (fun h => h.elim) _ _), State.count_outbox ..⟩
theorem State.outbox_setCtx {c : Ctx} : (s.setCtx x c).outbox = s.outbox := rfl
theorem SameWork.weaken (h : SameWork True s t) : SameWork False s t := ⟨h.tracked, h.biWant, h.reqs, h.park, h.ctxs, h.queues, h.idle, fun h => h.elim⟩
/-- A record of a context that has been given no residence is the one it had with it. -/
theorem State.freeResident_record (hlines : s.tracked = []) (x : Nat) :
    (s.freeResident x).tracked = [] ∧ (s.freeResident x).biWant = s.biWant ∧ (s.noRequests → (s.freeResident x).noRequests) ∧
      recordAddr (s.freeResident x) x = recordAddr s x ∧ ((s.freeResident x).ctx x).record x 1 = (s.ctx x).record x 1 ∧
      ((s.freeResident x).ctx x).resident = none ∧ ((s.ctx x).resident.isSome = true → ((s.freeResident x).ctx x).slot = none) := by
  obtain ⟨u, hwork, ⟨h, hnone⟩ | h⟩ := State.freeResident_spec hlines x
  · rw [h]
    exact ⟨hwork.tracked.trans hlines, hwork.biWant, hwork.noRequests, recordAddr_congr (hwork.base) x, by rw [hwork.ctx], by rw [hwork.ctx, hnone],
      fun hs => by rw [hnone] at hs; exact absurd hs (by decide)⟩
  · rw [h]
    refine ⟨hwork.tracked.trans hlines, hwork.biWant, hwork.noRequests, recordAddr_congr (s := s) (hwork.base) x, ?_, ?_, fun _ => ?_⟩
    · rw [State.setCtx_same, Ctx.record_homeless]
    · rw [State.setCtx_same, Ctx.homeless]
    · rw [State.setCtx_same, Ctx.homeless]
theorem parkCompletes {x : CtxId} (hreq : s.noRequests) (hlines : s.noHostLines) (hst : (s.ctx x).st = .parking) (hcache : s.cacheOk = true) :
    ∃ t, exec (.parkComplete x true) s = .next t ∧ (t.ctx x).st = .parked ∧
      ((s.ctx x).resident.isSome = true → (t.ctx x).resident = none ∧ (t.ctx x).slot = none) ∧
      t.outbox.getLast? = some (.hostWrite (recordAddr s x) ((s.ctx x).record x 1)) := by
  have hland := (s.works_landed (b := True) x).same hlines.1
  have hend := State.endPark_done hst
  generalize s.landed x = w at hland hend
  obtain ⟨htracked, hbi, hquiet, haddr, hrecord, hnone, hslot⟩ := State.freeResident_record (hland.tracked.trans hlines.1) x
  generalize w.freeResident x = v at *
  obtain ⟨hworks, hout⟩ := v.writeRecord_spec x 1
  have hwrite := hworks.same htracked
  generalize v.writeRecord x 1 = u at *
  have hquiet' := hwrite.noRequests (hquiet (hland.noRequests hreq))
  rw [hwrite.ctx, State.endParked_none (s := u.setCtx x _) hquiet'.1] at hend
  refine ⟨_, exec_parkComplete (by rw [hcache]; exact hend) (State.noRequests_setCtx hquiet')
    (hwrite.biWant.trans (hbi.trans (hland.biWant.trans hlines.2))), ?_, fun hs => ⟨?_, ?_⟩, ?_⟩
  · rw [State.setCtx_same, Ctx.withSt]
  · rw [State.setCtx_same]
    exact hnone
  · rw [State.setCtx_same]
    exact hslot (by rwa [hland.ctx])
  · rw [State.outbox_setCtx, hout, List.getLast?_concat, haddr, hrecord, hland.ctx, recordAddr_congr (hland.base)]

/-! ## Resumes end (R340) -/

/-- What a resume waits to read. -/
def State.awaited (s : State) (x r : Nat) (p : PartRec) : List (Nat × Nat) :=
  ((s.kvLayers (s.ctx x).part).map fun l => s.resumeReads x r l).flatten ++
    (if (s.ctx x).adapter then [((s.ctx x).loftAdapter, p.adapterBytes)] else [])
/-- The page maps of a context with everything that was read. -/
def State.filled (s : State) (x r : Nat) (mem : List (Nat × List Byte)) : State :=
  (s.kvLayers (s.ctx x).part).foldl (fun (s : State) l =>
    if l.draft then s else (s.mapList l r).foldl (fun (s : State) e => s.fillEntry x l mem e.2) (s.lookMap l r)) s
/-- The adapter of context `k`, where it has a slot and was read. -/
def State.adapterIn (s : State) (k : Ctx) (p : PartRec) (mem : List (Nat × List Byte)) : State :=
  match k.slot, memAt mem k.loftAdapter p.adapterBytes with
  | some a, some d =>
    if k.adapter then (s.storeSet (s.adapterCores k.part) (p.bankAt a k.bank) d).count Reg.HIF_LOFT_RD p.adapterBytes else s
  | _, _ => s
/-- A context that is resident again. -/
def Ctx.back (k now : Ctx) (time : Nat) : Ctx :=
  { now with st := .resident, lastActive := time, ckPos := k.committed, ckNode := k.bookNode, ckFill := k.bookFill, ckSteps := k.adaptSteps }
theorem State.works_count (s : State) (o n : Nat) : Works False s (s.count o n) := State.works_wr (fun h => h.elim) s _
theorem State.works_loftRead (s : State) (p n : Nat) : Works False s (s.loftRead p n) := (s.works_count ..).trans (State.works_count ..)
theorem State.works_clean (s : State) (x tag n : Nat) : Works b s (s.clean x tag n) := ⟨fun _ => ⟨rfl, rfl, rfl, rfl, rfl, rfl, id, fun _ _ _ => rfl⟩⟩
theorem State.works_fillEntry (s : State) (x : Nat) (l : LayerKv) (mem : List (Nat × List Byte)) (e : MapEntry) :
    Works False s (s.fillEntry x l mem e) := by
  rw [State.fillEntry]
  split
  · split
    · exact .refl
    · exact ((s.works_storeSet ..).trans (State.works_loftRead ..)).trans (State.works_clean ..)
  · refine .ite ((s.works_storeSet ..).trans (.foldl (fun (s : State) (n : Nat) => ?_) _)) .refl
    split
    · exact .refl
    · exact (s.works_store ..).trans (State.works_loftRead ..)
theorem State.works_filled (s : State) (x r : Nat) (mem : List (Nat × List Byte)) : Works False s (s.filled x r mem) :=
  .foldl (fun (s : State) (l : LayerKv) => .ite .refl ((s.works_lookMap l r).trans
    (.foldl (fun (s : State) (e : Nat × MapEntry) => s.works_fillEntry x l mem e.2) _))) s
theorem State.works_adapterIn (s : State) (k : Ctx) (p : PartRec) (mem : List (Nat × List Byte)) : Works False s (s.adapterIn k p mem) := by
  rw [State.adapterIn]
  split
  · exact .ite ((s.works_storeSet ..).trans (State.works_count ..)) .refl
  · exact .refl
theorem State.endResume_eq {mem : List (Nat × List Byte)} {p : PartRec} (hres : (s.ctx x).resident = some n) (hpart : s.part (s.ctx x).part = some p) :
    s.endResume x mem = if (s.awaited x n p).any fun a => (memAt mem a.1 a.2).isNone then
        ((s.freeResident x).setCtx x (((s.freeResident x).ctx x).withSt .parked), false)
      else (((s.filled x n mem).adapterIn (s.ctx x) p mem).setCtx x
        ((s.ctx x).back (((s.filled x n mem).adapterIn (s.ctx x) p mem).ctx x) ((s.filled x n mem).adapterIn (s.ctx x) p mem).hostTime), true) := by
  rw [State.endResume, hres]
  dsimp only
  rw [hpart]
  rfl
theorem exec_resumeComplete {x : CtxId} {mem : List (Nat × List Byte)} {ok : Bool} (hreq : s.noRequests) (hst : (s.ctx x).st = .resuming)
    (hres : (s.ctx x).resident = some n) (hend : s.endResume x (s.hostMem mem) = (t, ok)) (hquiet : t.noRequests) (hbi : t.biWant = []) :
    exec (.resumeComplete x mem) s = .next t := by
  have hcreate : s.createReq x = none := by
    rw [State.createReq, hreq.1]
    rfl
  have hresume : t.resumeReq x = none := by
    rw [State.resumeReq, hquiet.1]
    rfl
  show execResumeComplete x mem s = _
  rw [execResumeComplete]
  dsimp only
  rw [hcreate, if_neg (by decide), if_neg (by rw [hst]; decide), if_neg (by rw [hres]; exact Option.some_ne_none n), hend]
  dsimp only
  rw [hresume]
  dsimp only
  rw [State.serve_quiet hquiet, State.settle_of_still _ _ hbi]
theorem resumeSucceeds {x : CtxId} {mem : List (Nat × List Byte)} {p : PartRec} (hreq : s.noRequests) (hlines : s.noHostLines)
    (hst : (s.ctx x).st = .resuming) (hres : (s.ctx x).resident = some n) (hpart : s.part (s.ctx x).part = some p) (hcache : s.cacheOk = true)
    (hall : ∀ a ∈ s.awaited x n p, (memAt mem a.1 a.2).isSome = true) :
    ∃ t, exec (.resumeComplete x mem) s = .next t ∧ (t.ctx x).st = .resident ∧ (t.ctx x).resident = some n ∧
      (t.ctx x).ckPos = (s.ctx x).committed := by
  have hmem : s.hostMem mem = mem := if_pos hcache
  have hend := State.endResume_eq (mem := mem) hres hpart
  have hwork := ((s.works_filled x n mem).trans (State.works_adapterIn _ (s.ctx x) p mem)).same hlines.1
  rw [if_neg fun hany => ?_] at hend
  · generalize (s.filled x n mem).adapterIn (s.ctx x) p mem = w at hend hwork
    refine ⟨_, exec_resumeComplete hreq hst hres (by rw [hmem]; exact hend) (State.noRequests_setCtx (hwork.noRequests hreq))
      (hwork.biWant.trans hlines.2), ?_, ?_, ?_⟩
    · rw [State.setCtx_same, Ctx.back]
    · rw [State.setCtx_same]
      exact (congrArg Ctx.resident (hwork.ctx x)).trans hres
    · rw [State.setCtx_same, Ctx.back]
  · obtain ⟨a, ha, hnone⟩ := List.any_eq_true.1 hany
    exact absurd hnone (by simp [Option.isNone_iff_eq_none, Option.isSome_iff_ne_none.1 (hall a ha)])
theorem resumeFails {x : CtxId} {mem : List (Nat × List Byte)} {p : PartRec} (hreq : s.noRequests) (hlines : s.noHostLines)
    (hst : (s.ctx x).st = .resuming) (hres : (s.ctx x).resident = some n) (hpart : s.part (s.ctx x).part = some p)
    (hsome : ∃ a ∈ s.awaited x n p, s.cacheOk = false ∨ memAt mem a.1 a.2 = none) :
    ∃ t, exec (.resumeComplete x mem) s = .next t ∧ (t.ctx x).st = .parked ∧ (t.ctx x).resident = none := by
  have hend := State.endResume_eq (mem := s.hostMem mem) hres hpart
  obtain ⟨-, hbi, hquiet, -, -, hnone, -⟩ := State.freeResident_record hlines.1 x
  rw [if_pos] at hend
  · refine ⟨_, exec_resumeComplete hreq hst hres hend (State.noRequests_setCtx (hquiet hreq)) (hbi.trans hlines.2), ?_, ?_⟩
    · rw [State.setCtx_same, Ctx.withSt]
    · rw [State.setCtx_same]
      exact hnone
  · obtain ⟨a, ha, hlost⟩ := hsome
    refine List.any_eq_true.2 ⟨a, ha, ?_⟩
    rcases hlost with hcache | hread
    · rw [State.hostMem, hcache]
      rfl
    · rw [State.hostMem]
      split
      · rw [hread]
        rfl
      · rfl
/-- The record of a context that waits for it is read (R310). -/
theorem resumeRecord {x : CtxId} (mem : List (Nat × List Byte)) (hreq : s.noRequests) (hlines : s.noHostLines) (hst : (s.ctx x).st = .resuming)
    (hres : (s.ctx x).resident = none) :
    ∃ t, exec (.resumeComplete x mem) s = .next t ∧ (t.ctx x).st = .parked ∧ (t.ctx x).resident = none ∧ PantryKept s t := by
  have hcreate : s.createReq x = none := by
    rw [State.createReq, hreq.1]
    rfl
  have hquiet : (s.setCtx x ((s.ctx x).withSt .parked)).noRequests := hreq
  have hrecord (d : Option (List Byte)) : s.recordIn x d = s.setCtx x ((s.ctx x).withSt .parked) := by
    have hnone : (s.setCtx x ((s.ctx x).withSt .parked)).resumeReq x = none := by
      rw [State.resumeReq, hquiet.1]
      rfl
    rw [State.recordIn]
    · exact State.serve_quiet hquiet
    · exact hnone
  refine ⟨s.setCtx x ((s.ctx x).withSt .parked), ?_, by rw [State.setCtx_same, Ctx.withSt], by rw [State.setCtx_same]; exact hres, pantryKept_of_eq rfl⟩
  show execResumeComplete x mem s = _
  rw [execResumeComplete]
  dsimp only
  rw [hcreate, if_neg (by decide), if_neg (by rw [hst]; decide), if_pos hres, hrecord, State.settle_of_still]
  exact hlines.2

/-! ## Balances (R331) -/

theorem State.balance_wr {n : Nat} {d : Int} (hlo : -2147483648 ≤ d) (hhi : d ≤ 2147483647) (s : State) :
    (s.wr (Reg.SRV_TEN_BALANCE n) ((BitVec.ofInt 32 d).setWidth 64)).balance n = d := by
  rw [State.balance, State.rd_wr_same, BitVec.setWidth_setWidth_of_le _ (by decide), BitVec.setWidth_eq, BitVec.toInt_ofInt]
  exact Int.bmod_eq_of_le (by omega) (by omega)
theorem tenRefill_spec (hreq : s.noRequests) (hlines : s.noHostLines) (n : TenantId) (v : DWord) :
    ∃ t, exec (.tenRefill n v) s = .next t ∧ PantryKept s t ∧
      t.balance n = max (-2147483648) (min 2147483647 (s.balance n + (v.setWidth 32).toNat)) ∧ RegsKept s t [Reg.SRV_TEN_BALANCE n] := by
  have hquiet : (s.addBalance n (v.setWidth 32).toNat).noRequests := hreq
  refine ⟨s.addBalance n (v.setWidth 32).toNat, ?_, pantryKept_of_eq (State.wr_pantry ..), State.balance_wr (by omega) (by omega) s, fun o ho => ?_⟩
  · show execTenRefill n v s = _
    rw [execTenRefill, State.serve_quiet hquiet, State.settle_of_still]
    exact (State.wr_biWant ..).trans hlines.2
  · exact State.rd_wr_other _ _ _ _ fun h => ho (h ▸ List.mem_singleton_self _)

/-- Settles O33: giving a residence up, and filling one, leave the context's data and what serving depends on; with no
request open nothing more follows. -/
theorem parksAndResumesComplete : Obligations.ParksAndResumesComplete :=
  fun _ _ hreq hlines =>
    ⟨fun hst => ⟨fun hcache => parkCompletes hreq hlines hst hcache, fun _ hok => parkFails hreq hlines hst hok⟩,
      fun _ _ _ hst hres hpart => ⟨fun hcache hall => resumeSucceeds hreq hlines hst hres hpart hcache hall,
        fun hsome => resumeFails hreq hlines hst hres hpart hsome⟩,
      fun mem hst hres => resumeRecord mem hreq hlines hst hres,
      fun n v => tenRefill_spec hreq hlines n v⟩

end Sys2Proof.Machine
end

section
/-! PROOFS. Host commands of a core: SEQ.CTL, the code store, FORCE_CLOSE and the scrub (O34). -/

namespace Sys2Proof.Machine

variable {s t : State} {c : CoreId}

/-! ## Register writes of a core window -/

/-- A write of a direct register acts where no quiesced field finds its owner busy, also where the owner is busy. -/
theorem State.writeReg_acts {i : Nat} {b : Block} {o off : Nat} {d : RegDesc} {v : DWord} (hd : d.direct = true) (hv : v &&& d.reservedBits = 0)
    (hidle : (d.hasClass .quiesced && !s.idleFor i b off) = false) (hok : valueOk off b o v = true) :
    s.writeReg i b o off d v = s.act i b o off d v := by
  simp only [RegDesc.direct, Bool.and_eq_true, Bool.not_eq_true'] at hd
  obtain ⟨⟨hwritable, hstaged⟩, hclears⟩ := hd
  rw [State.writeReg, if_neg (by rw [hwritable]; decide), if_neg (by rw [hstaged]; decide), if_neg (by rw [hclears]; decide),
    if_neg (not_not.2 hv), if_neg (by rw [hidle]; decide), if_neg (by rw [hok]; decide)]
/-- A register without quiesced fields is written whether or not its owner is idle. -/
theorem quiet_of_live {d : RegDesc} (h : d.hasClass .quiesced = false) (idle : Bool) : (d.hasClass .quiesced && !idle) = false := by
  rw [h]
  rfl
/-- A write of a 32-bit register that acts, in a core window that takes it; SEQ.CODE_DATA is none. -/
theorem put32_acts {b : Block} {o p : Nat} {d : RegDesc} {v : Word} (h : s.CoreTakes c) (ho : o < 0x40000) (ho4 : o % 4 = 0)
    (hbp : coreBlockOf o = (b, p)) (hcode : ¬ (b = .seq ∧ p = 0x88)) (hfind : findReg b p = some d) (hnarrow : d.wide = false)
    (hdirect : d.direct = true) (hv : (v.setWidth 64 : DWord) &&& d.reservedBits = 0) (hidle : (d.hasClass .quiesced && !s.idleFor c b (coreWin c + o)) = false)
    (hok : valueOk (coreWin c + o) b p (v.setWidth 64) = true) (hact : s.act c b p (coreWin c + o) d (v.setWidth 64) = t) (ht : t.biWant = []) :
    put32 (coreWin c + o) v s = .next t := by
  have hb : b.ofCore = true := by simpa [hbp] using coreBlockOf_ofCore o
  have hloc : locate (coreWin c + o) = some (c.val, b, p) := by rw [locate_coreWin c o ho, hbp]
  have hword : s.writeWord (coreWin c + o) v = t := by
    rw [State.writeWord, hloc]
    dsimp only
    rw [if_neg (by rw [h.powered hb]; decide), if_neg (by rw [h.unloaded hb]; decide), hfind]
    dsimp only
    rw [if_neg hcode, if_neg (by rw [hnarrow]; decide), State.writeReg_acts hdirect hv hidle hok, hact, State.mirrorWrite,
      if_neg (by rw [b.ofRegion_of_ofCore hb]; decide)]
  rw [put32, put, s.busWrite_word v (by rw [coreWin_add_mod_four, ho4]), hword, State.settle_of_still s t ht]

/-! ## What the writes that act do -/

theorem State.act_seqCtl (s : State) (i off : Nat) (d : RegDesc) (v : DWord) : s.act i .seq 0 off d v = s.writeSeqCtl i (v.setWidth 32) := by
  rw [State.act, if_pos rfl]
theorem State.act_codeData (s : State) (i off : Nat) (d : RegDesc) (v : DWord) : s.act i .seq 0x88 off d v = s.writeCodeData i v := by
  rw [State.act, if_neg (by decide), if_pos rfl]
theorem State.act_winCtl (s : State) (i off : Nat) {o : Nat} (d : RegDesc) (v : DWord) (ho : o % 32 = 8) :
    s.act i .wds o off d v = s.writeWinCtl i (o / 32) (v.setWidth 32) := by
  rw [State.act, if_pos ho]
theorem State.act_scrub (s : State) (i off : Nat) (d : RegDesc) (v : DWord) : s.act i .core 0x14 off d v = s.writeScrub i (v.setWidth 32) := by
  rw [State.act, if_pos rfl]

/-! ## SEQ.CTL (R248, R271) -/

theorem put32_seqCtl (h : s.CoreTakes c) {v : Word} (hv : v.toNat < 8) (hact : s.writeSeqCtl c v = t) (ht : t.biWant = []) :
    put32 (Reg.SEQ_CTL c) v s = .next t := by
  refine put32_acts (b := .seq) (p := 0) (d := regsSeq[0]) h (by decide) (by decide) rfl (by decide) (by decide) rfl (by decide) ?_
    (quiet_of_live (by decide) _) rfl ?_ ht
  · have hreserved : (regsSeq[0]).reservedBits = 0x1FFFFFFF#64 <<< 3 := by decide
    rw [hreserved]
    exact and_shiftLeft_of_lt _ _ 3 (by rw [BitVec.toNat_setWidth]; omega)
  · rw [← hact, State.act_seqCtl, setWidth_low]

section
variable {x : Nat}
theorem State.seqStart_ready (hrest : s.seq c = seqHalted ∨ s.seq c = seqFaulted) (hfatal : s.fatal = false) (resume : Bool) :
    s.seqStart c resume = s.startAt c (if resume then s.pc c else s.fld (Reg.SEQ_START_PC c) Fl.SEQ_START_PC_PC) := by
  rw [State.seqStart, if_pos ⟨hrest, by rw [hfatal]; rfl⟩]
theorem seqPc_ne_stat (c : Nat) : Reg.SEQ_PC c ≠ Reg.SEQ_STAT c := by
  unfold Reg.SEQ_PC Reg.SEQ_STAT
  omega
theorem State.startAt_spec (s : State) (c : Nat) (hx : x < 2 ^ 15) : (s.startAt c x).seq c = seqRun ∧ (s.startAt c x).pc c = x ∧
    (s.startAt c x).inHandler c = false ∧ RegsKept s (s.startAt c x) [Reg.SEQ_STAT c, Reg.SEQ_PC c] ∧ OnlyRegs s (s.startAt c x) := by
  refine ⟨(State.fld_setFld_same _ _ _ _ (by decide)).trans (by decide), ?_, ?_, fun o ho => ?_, (((OnlyRegs.refl s).setFld ..).setFld ..).setFld .. |>.setFld ..⟩
  · rw [State.pc, State.fld, State.startAt, State.setSeq, State.rd_setFld, if_neg (seqPc_ne_stat c)]
    exact (State.fld_setFld_same _ _ _ _ (by decide)).trans (Nat.mod_eq_of_lt hx)
  · rw [State.inHandler, State.flag, State.startAt, State.setSeq, State.fld_setFld_apart _ _ Fl.SEQ_STAT_STATE Fl.SEQ_STAT_IN_HANDLER _ (by decide)
      (by decide) (by decide), State.setPc, State.fld, State.rd_setFld, if_neg (seqPc_ne_stat c).symm, ← State.fld,
      State.fld_setFld_apart _ _ Fl.SEQ_STAT_HELD Fl.SEQ_STAT_IN_HANDLER _ (by decide) (by decide) (by decide),
      State.fld_setFld_same _ _ _ _ (by decide)]
    rfl
  · simp only [List.mem_cons, List.not_mem_nil, or_false, not_or] at ho
    rw [State.startAt, State.setSeq, State.rd_setFld, if_neg ho.1, State.setPc, State.rd_setFld, if_neg ho.2, State.rd_setFld, if_neg ho.1,
      State.rd_setFld, if_neg ho.1]
theorem State.writeSeqCtl_start (s : State) (c : Nat) : s.writeSeqCtl c 1 = s.seqStart c false := rfl
theorem State.writeSeqCtl_resume (s : State) (c : Nat) : s.writeSeqCtl c 5 = s.seqStart c true := rfl
theorem State.writeSeqCtl_halt (s : State) (c : Nat) : s.writeSeqCtl c 2 = s.seqHalt c := rfl
theorem seqStart_spec (h : s.CoreTakes c) (hrest : s.seq c = seqHalted ∨ s.seq c = seqFaulted) (hfatal : s.fatal = false) :
    ∀ e ∈ [(Instr.seqStart c, s.fld (Reg.SEQ_START_PC c) Fl.SEQ_START_PC_PC), (.seqResume c, s.pc c)],
      ∃ t, exec e.1 s = .next t ∧ t.seq c = seqRun ∧ t.pc c = e.2 ∧ t.inHandler c = false ∧
        RegsKept s t [Reg.SEQ_STAT c, Reg.SEQ_PC c] ∧ OnlyRegs s t := by
  have hstart {i : Instr} {v : Word} {x : Nat} (hi : exec i s = put32 (Reg.SEQ_CTL c) v s) (hv : v.toNat < 8)
      (hw : s.writeSeqCtl c v = s.startAt c x) (hx : x < 2 ^ 15) : ∃ t, exec i s = .next t ∧ t.seq c = seqRun ∧ t.pc c = x ∧
        t.inHandler c = false ∧ RegsKept s t [Reg.SEQ_STAT c, Reg.SEQ_PC c] ∧ OnlyRegs s t := by
    have hspec := s.startAt_spec c hx
    exact ⟨_, hi.trans (put32_seqCtl h hv hw (hspec.2.2.2.2.biWant.trans h.still)), hspec⟩
  intro e he
  rcases List.mem_cons.1 he with rfl | he
  · exact hstart rfl (by decide) ((s.writeSeqCtl_start c).trans (State.seqStart_ready hrest hfatal false)) (Fld.get_lt _ _)
  · obtain rfl := List.mem_singleton.1 he
    exact hstart rfl (by decide) ((s.writeSeqCtl_resume c).trans (State.seqStart_ready hrest hfatal true)) (s.pc_lt c)
end

/-- A running or waiting sequencer halted, before a sleeping core wakes. -/
def State.halted (s : State) (c : Nat) : State := ((s.dropTwait c).setFld (Reg.SEQ_STAT c) Fl.SEQ_STAT_HELD 0).setSeq c seqHalted
theorem State.seqHalt_busy (hbusy : s.seq c = seqRun ∨ s.seq c = seqWait) :
    s.seqHalt c = if 0 < s.sleep c ∧ s.sleep c ≤ 2 then (s.halted c).wake c else s.halted c := if_pos hbusy
theorem State.halted_spec (s : State) (c : Nat) : (s.halted c).seq c = seqHalted ∧ RegsKept s (s.halted c) [Reg.SEQ_STAT c] ∧
    (s.halted c).twaits = s.twaits.filter (fun w => w.core != c) ∧ (s.halted c).pantry = s.pantry ∧ (s.halted c).biWant = s.biWant := by
  refine ⟨(State.fld_setFld_same _ _ _ _ (by decide)).trans (by decide), fun o ho => ?_, ?_, ?_, ?_⟩
  rotate_left
  · exact (State.setFld_twaits ..).trans (State.setFld_twaits ..)
  · exact (State.setFld_pantry ..).trans (State.setFld_pantry ..)
  · exact (State.setFld_biWant ..).trans (State.setFld_biWant ..)
  have ho' : o ≠ Reg.SEQ_STAT c := fun h => ho (List.mem_singleton.2 h)
  rw [State.halted, State.setSeq, State.rd_setFld, if_neg ho', State.rd_setFld, if_neg ho']
  rfl
/-- A wake writes no register and no byte; a core that sleeps is then waking. -/
theorem State.wake_spec (s : State) (c : Nat) : (s.wake c).regs = s.regs ∧ (s.wake c).twaits = s.twaits ∧ (s.wake c).pantry = s.pantry ∧
    (s.wake c).biWant = s.biWant ∧ (0 < s.sleep c → (s.wake c).waking.contains c = true) := by
  rw [State.wake]
  dsimp only
  split
  next h0 => exact ⟨rfl, rfl, rfl, rfl, fun hs => absurd h0 (Nat.pos_iff_ne_zero.1 hs)⟩
  next =>
    split
    next hin => exact ⟨rfl, rfl, rfl, rfl, fun _ => hin⟩
    next => exact ⟨rfl, rfl, rfl, rfl, fun _ => by simp⟩
theorem seqHalt_spec (h : s.CoreTakes c) (hbusy : s.seq c = seqRun ∨ s.seq c = seqWait) :
    ∃ t, exec (.seqHalt c) s = .next t ∧ t.seq c = seqHalted ∧ t.pc c = s.pc c ∧
      t.twaits = s.twaits.filter (fun w => w.core != c.val) ∧ RegsKept s t [Reg.SEQ_STAT c] ∧ PantryKept s t ∧
      (0 < s.sleep c → t.waking.contains c.val = true) := by
  obtain ⟨hseq, hkept, htwaits, hpantry, hbi⟩ := s.halted_spec c
  have hsleep : (s.halted c).sleep c = s.sleep c := State.sleep_congr (hkept _ fun hmem =>
    sleepReg_ne_coreWin c c 0x1004 (List.mem_singleton.1 hmem).symm)
  have hexec {t : State} := put32_seqCtl (t := t) h (v := 2) (by decide)
  have hhalt := (s.writeSeqCtl_halt c).trans (State.seqHalt_busy hbusy)
  generalize s.halted c = u at *
  have hpc {t : State} (hk : RegsKept s t [Reg.SEQ_STAT c]) : t.pc c = s.pc c := congrArg Fl.SEQ_PC_PC.get
    (hk _ fun hmem => seqPc_ne_stat c (List.mem_singleton.1 hmem))
  by_cases hslept : 0 < s.sleep c ∧ s.sleep c ≤ 2
  · rw [if_pos hslept] at hhalt
    obtain ⟨hregs, hwt, hwp, hwb, hwaking⟩ := u.wake_spec c
    have hk : RegsKept s (u.wake c) [Reg.SEQ_STAT c] := fun o ho => (State.rd_congr hregs o).trans (hkept o ho)
    exact ⟨_, hexec hhalt (hwb.trans (hbi.trans h.still)), (congrArg (Fld.get _) (State.rd_congr hregs _)).trans hseq, hpc hk, hwt.trans htwaits, hk,
      pantryKept_of_eq (hwp.trans hpantry), fun hs => hwaking (hsleep ▸ hs)⟩
  · rw [if_neg hslept] at hhalt
    have hon := h.on
    exact ⟨_, hexec hhalt (hbi.trans h.still), hseq, hpc hkept, htwaits, hkept, pantryKept_of_eq hpantry, fun hs => absurd ⟨hs, by omega⟩ hslept⟩

/-! ## The code store (R232, R272) -/

theorem locate_codeData (c : CoreId) : locate (Reg.SEQ_CODE_DATA c) = some (c.val, .seq, 0x88) := locate_coreWin c 0x1088 (by decide)
theorem codeData_mod_eight (c : Nat) : Reg.SEQ_CODE_DATA c % 8 = 0 := by
  unfold Reg.SEQ_CODE_DATA coreWin
  omega
theorem findReg_codeData : findReg .seq 0x88 = some regsSeq[11] := by decide
theorem State.codeIndex_lt (s : State) (c : Nat) : s.codeIndex c < 32768 := Fld.get_lt _ _
theorem State.codeNext_index (s : State) (c : Nat) : (s.codeNext c).fld (Reg.SEQ_CODE_ADDR c) Fl.SEQ_CODE_ADDR_ADDR = (s.codeIndex c + 1) % 32768 :=
  (State.fld_setFld_same _ _ _ _ (by decide)).trans (Nat.mod_mod_of_dvd _ (by decide))
theorem State.codeNext_codeAt (s : State) (c d i : Nat) : (s.codeNext c).codeAt d i = s.codeAt d i := by
  rw [State.codeAt, State.codeNext, State.setFld_code, State.codeAt]
theorem codeKey_inj {c d i j : Nat} (hi : i < 32768) (hj : j < 32768) (h : codeKey c i = codeKey d j) : c = d ∧ i = j := by
  unfold codeKey at h
  omega
theorem State.codeAt_setCode_iff (s : State) {d i j : Nat} (c : Nat) (w : DWord) (hi : i < 32768) (hj : j < 32768) :
    (s.setCode c i w).codeAt d j = if d = c ∧ j = i then w else s.codeAt d j := by
  rw [State.codeAt, State.setCode, sread_swrite]
  refine if_congr ⟨fun h => codeKey_inj hj hi h, ?_⟩ rfl rfl
  rintro ⟨rfl, rfl⟩
  rfl
theorem codeWrite_spec (h : s.CoreTakes c) (w : DWord) (hrest : s.seq c = seqHalted ∨ s.seq c = seqFaulted) :
    ∃ t, exec (.seqCodeData c (some w)) s = .next t ∧ t.fld (Reg.SEQ_CODE_ADDR c) Fl.SEQ_CODE_ADDR_ADDR = (s.codeIndex c + 1) % 32768 ∧
      PantryKept s t ∧ ∀ (d : CoreId) (i : Nat), i < 32768 → t.codeAt d i = if d = c ∧ i = s.codeIndex c then w else s.codeAt d i := by
  have hidle : s.idleFor c .seq (Reg.SEQ_CODE_DATA c) = true := by
    rcases hrest with h | h
    · simp [State.idleFor, h]
    · simp [State.idleFor, h]
  have hbus : s.busWrite (Reg.SEQ_CODE_DATA c) 8 w = (s.setCode c (s.codeIndex c) w).codeNext c := by
    have hres : (regsSeq[11]).reservedBits = 0 := by decide
    rw [State.busWrite, if_neg (fun h => absurd h.1 (by decide)), if_pos ⟨rfl, codeData_mod_eight c⟩, locate_codeData]
    dsimp only
    rw [findReg_codeData]
    dsimp only [Option.filter]
    rw [if_pos (by decide)]
    dsimp only
    rw [if_neg (by rw [h.powered rfl]; decide), if_neg (by rw [h.unloaded rfl]; decide),
      State.writeReg_acts (by decide) (by rw [hres]; exact BitVec.and_zero) (by rw [hidle]; decide) rfl, State.act_codeData]
    exact if_pos hrest
  refine ⟨_, ?_, State.codeNext_index (s.setCode c (s.codeIndex c) w) c, pantryKept_of_eq (State.setFld_pantry ..), fun d i hi => ?_⟩
  · show put (Reg.SEQ_CODE_DATA c) 8 w s = _
    rw [put, hbus, State.settle_of_still]
    exact (State.setFld_biWant ..).trans h.still
  · rw [State.codeNext_codeAt]
    refine (s.codeAt_setCode_iff c w (s.codeIndex_lt c) hi).trans (if_congr (and_congr_left fun _ => ?_) rfl rfl)
    exact Fin.val_inj
theorem codeRead_spec (h : s.CoreTakes c) : ∃ t, exec (.seqCodeData c none) s = .next t ∧
    t.outbox = s.outbox ++ [.readData (Reg.SEQ_CODE_DATA c) 8 (s.codeAt c (s.codeIndex c))] ∧
      t.fld (Reg.SEQ_CODE_ADDR c) Fl.SEQ_CODE_ADDR_ADDR = (s.codeIndex c + 1) % 32768 ∧ t.code = s.code := by
  have hbus : s.busRead (Reg.SEQ_CODE_DATA c) 8 = s.readCodeData c := by
    rw [State.busRead, if_neg (fun h => absurd h.1 (by decide)), if_pos ⟨rfl, codeData_mod_eight c⟩, locate_codeData]
    dsimp only
    rw [findReg_codeData, if_pos (by rw [h.powered rfl]; decide)]
    rfl
  refine ⟨(s.codeNext c).emit (.readData (Reg.SEQ_CODE_DATA c) 8 (s.codeAt c (s.codeIndex c))), ?_, ?_, ?_, ?_⟩
  · show Host.Outcome.next (s.answerRead _ 8) = _
    rw [State.answerRead, hbus]
    rfl
  · exact congrArg (· ++ _) (State.setFld_outbox ..)
  · rw [State.fld, State.rd_congr (State.emit_regs ..), ← State.fld]
    exact s.codeNext_index c
  · rw [State.emit_code, State.codeNext, State.setFld_code]

/-! ## FORCE_CLOSE (R199) -/

theorem findReg_winCtl : ∀ w : WinId, findReg Block.wds (8 + 0x20 * w.val) = some regsWds[2] := by decide
theorem coreBlockOf_winCtl (w : WinId) : coreBlockOf (0x10008 + 0x20 * w.val) = (Block.wds, 8 + 0x20 * w.val) := by
  have hw := w.isLt
  rw [coreBlockOf, if_neg (by omega), if_neg (by omega), if_pos (by omega)]
  exact congrArg (Prod.mk Block.wds) (by omega)
theorem forceClose_spec (h : s.CoreTakes c) (w : WinId) (hapart : s.winPendsApart c 16) :
    ∃ t, exec (.forceClose c w 8) s = .next t ∧ t.winState c w = winClosed ∧ t.winGen c w = s.winGen c w ∧ t.winCount c w = s.winCount c w ∧
      (s.winState c w = winDraining → t.fld (Reg.WDS_WIN_CTL c w) Fl.WDS_WIN_CTL_LAST_DRAIN = 3) ∧ PantryKept s t := by
  have hw := w.isLt
  have hact : s.act c .wds (8 + 0x20 * w) (Reg.WDS_WIN_CTL c w) regsWds[2] ((8 : Word).setWidth 64) =
      (s.setFld (Reg.WDS_WIN_CTL c w) Fl.WDS_WIN_CTL_LATE_TRAP 0).winClose c w := by
    rw [State.act_winCtl _ _ _ _ _ (by omega), show (8 + 0x20 * w.val) / 32 = w by omega, setWidth_low, State.writeWinCtl]
    exact if_pos (by decide)
  have hctl := State.rd_setFld s (Reg.WDS_WIN_CTL c w) Fl.WDS_WIN_CTL_LATE_TRAP 0
  have hstate : (s.setFld (Reg.WDS_WIN_CTL c w) Fl.WDS_WIN_CTL_LATE_TRAP 0).winState c w = s.winState c w :=
    State.fld_setFld_apart _ _ Fl.WDS_WIN_CTL_LATE_TRAP Fl.WDS_WIN_CTL_STATE _ (by decide) (by decide) (by decide)
  have hgen : (s.setFld (Reg.WDS_WIN_CTL c w) Fl.WDS_WIN_CTL_LATE_TRAP 0).winGen c w = s.winGen c w :=
    State.fld_setFld_apart _ _ Fl.WDS_WIN_CTL_LATE_TRAP Fl.WDS_WIN_CTL_GENERATION _ (by decide) (by decide) (by decide)
  have hcount : (s.setFld (Reg.WDS_WIN_CTL c w) Fl.WDS_WIN_CTL_LATE_TRAP 0).winCount c w = s.winCount c w :=
    congrArg (Fld.get _) (State.rd_wr_other _ _ _ _ (windowRegs_apart c w).1.symm)
  have hpends : (s.setFld (Reg.WDS_WIN_CTL c w) Fl.WDS_WIN_CTL_LATE_TRAP 0).winPends = s.winPends := State.setFld_winPends ..
  have hpantry : (s.setFld (Reg.WDS_WIN_CTL c w) Fl.WDS_WIN_CTL_LATE_TRAP 0).pantry = s.pantry := State.setFld_pantry ..
  have hstill : (s.setFld (Reg.WDS_WIN_CTL c w) Fl.WDS_WIN_CTL_LATE_TRAP 0).biWant = s.biWant := State.setFld_biWant ..
  generalize s.setFld (Reg.WDS_WIN_CTL c w) Fl.WDS_WIN_CTL_LATE_TRAP 0 = u at *
  have hL : u.pendsIn c (s.winPends.filter fun p => p.core == c.val) := fun p hp hc =>
    List.mem_filter.2 ⟨hpends ▸ hp, beq_iff_eq.2 hc⟩
  have htok : ∀ p ∈ s.winPends.filter (fun p => p.core == c.val), p.tok < 16 := fun p hp =>
    (hapart p (List.mem_of_mem_filter hp) (beq_iff_eq.1 (List.mem_filter.1 hp).2)).1
  obtain ⟨hend, hclosed, hgen', hlast⟩ := State.winClose_spec hL htok w
  have hcount' : (u.winClose c w).winCount c w = u.winCount c w := congrArg (Fld.get _)
    ((congrArg _ (Nat.add_assoc ..)).trans ((hend.rd_win htok (o := 0x1000C + 0x20 * w) (by omega) (by
      unfold Reg.WDS_WIN_CTL
      simp only [List.mem_singleton]
      omega)).trans (congrArg _ (Nat.add_assoc ..).symm)))
  refine ⟨u.winClose c w, ?_, hclosed, hgen'.trans hgen, hcount'.trans hcount, fun hd => hlast (hstate.trans hd),
    pantryKept_of_eq (hend.pantry.trans hpantry)⟩
  have haddr : Reg.WDS_WIN_CTL c w = coreWin c + (0x10008 + 0x20 * w) := Nat.add_assoc ..
  show put32 (Reg.WDS_WIN_CTL c w) 8 s = _
  rw [haddr] at hact ⊢
  exact put32_acts h (by omega) (by omega) (coreBlockOf_winCtl w) (fun h => absurd h.1 (by decide)) (findReg_winCtl w) rfl (by decide)
    (by decide) (quiet_of_live (by decide) _) rfl hact (hend.still.trans (hstill.trans h.still))

/-! ## The scrub (R196) -/

theorem State.scrubEnd_le (s : State) (c : Nat) : s.scrubEnd c ≤ pantrySize := by
  rw [State.scrubEnd]
  split
  · decide
  · exact Nat.le_refl _
theorem State.byte_zeroPantry (s : State) (c d : Nat) {o : Nat} (ho : o < pantrySize) :
    (s.zeroPantry c).byte d o = if d = c ∧ o < s.scrubEnd c then 0 else s.byte d o := by
  have hle := s.scrubEnd_le c
  rw [State.byte, State.zeroPantry, sread_sclear]
  refine if_congr ?_ rfl rfl
  unfold pantryKey
  constructor
  · rintro ⟨hlo, hhi⟩
    rcases Nat.lt_trichotomy d c with hlt | heq | hgt
    · have := Nat.mul_le_mul_right pantrySize hlt
      rw [Nat.succ_mul] at this
      omega
    · subst heq
      omega
    · have := Nat.mul_le_mul_right pantrySize hgt
      rw [Nat.succ_mul] at this
      omega
  · rintro ⟨rfl, hlt⟩
    omega
theorem State.scrubEnd_of_free {o : Nat} (ho : o < pantrySize) (hfree : s.dumpHeld c o = false) : o < s.scrubEnd c := by
  rw [State.scrubEnd]
  split
  next h =>
    rw [State.dumpHeld, h.1, h.2] at hfree
    simpa using hfree
  next => exact ho
theorem coreScrub_spec (h : s.CoreTakes c) (hidle : s.coreIdle c = true) : ∃ t, exec (.coreScrub c 1) s = .next t ∧ t.scrubbing c = true ∧
    (∀ o < pantrySize, s.dumpHeld c o = false → t.byte c o = 0) ∧ ∀ d o, d ≠ c.val → o < pantrySize → t.byte d o = s.byte d o := by
  have hact : s.act c .core 0x14 (Reg.CORE_SCRUB c) regsCore[5] ((1 : Word).setWidth 64) = s.scrubStart c := by
    rw [State.act_scrub, setWidth_low, State.writeScrub, if_neg (by decide), if_neg (by decide), if_pos hidle]
  have hbyte (d o : Nat) : (s.scrubStart c).byte d o = (s.zeroPantry c).byte d o := State.byte_of_pantry (State.setFld_pantry ..) d o
  refine ⟨s.scrubStart c, ?_, ?_, fun o ho hfree => ?_, fun d o hd ho => ?_⟩
  · exact put32_acts (o := 0x14) h (by decide) (by decide) rfl (by decide) (by decide : findReg .core 0x14 = some regsCore[5]) rfl (by decide) (by decide)
      (quiet_of_live (by decide) _) rfl hact ((State.setFld_biWant ..).trans h.still)
  · rw [State.scrubbing, State.flag, State.scrubStart, State.fld_setFld_same _ _ _ _ (by decide)]
    rfl
  · rw [hbyte, s.byte_zeroPantry c c ho, if_pos ⟨rfl, State.scrubEnd_of_free ho hfree⟩]
  · rw [hbyte, s.byte_zeroPantry c d ho, if_neg fun hc => hd hc.1]

/-- Settles O34: each command is a write or a read of one register of the core's window, and its effect there. -/
theorem coreCommandsAct : Obligations.CoreCommandsAct :=
  fun _ _ h =>
    ⟨fun hrest hfatal => seqStart_spec h hrest hfatal, fun hbusy => seqHalt_spec h hbusy, fun w hrest => codeWrite_spec h w hrest,
      codeRead_spec h, fun w hapart => forceClose_spec h w hapart, fun hidle _ => coreScrub_spec h hidle⟩

end Sys2Proof.Machine
end

section
/-! PROOFS. Commits of staged groups (O36). -/

namespace Sys2Proof.Machine

variable {s t u : State} {c : CoreId}

/-! ## A group put in force (R394 to R396) -/

theorem OnlyRegs.trans (h : OnlyRegs s t) (h' : OnlyRegs t u) : OnlyRegs s u :=
  Eq.trans h' (congrArg (fun x : State => { x with regs := u.regs }) h)
/-- The registers of a group differ from one another and from its report. -/
structure Group.Apart (g : Group) : Prop where
  words : (g.words.map Prod.fst).Nodup
  status : g.status ∉ g.words.map Prod.fst
/-- What a commit puts into one register. -/
def State.committed (s : State) (q : Nat × Nat) : DWord := (s.rd q.1 &&& ~~~(BitVec.ofNat 64 q.2)) ||| (s.rdShadow q.1 &&& BitVec.ofNat 64 q.2)
def State.applyWords (s : State) (ws : List (Nat × Nat)) : State := ws.foldl (fun (s : State) q => s.wr q.1 (s.committed q)) s
theorem State.applyGroup_eq (s : State) (g : Group) : s.applyGroup g = s.applyWords g.words := rfl
theorem State.applyWords_spec (ws : List (Nat × Nat)) (hws : (ws.map Prod.fst).Nodup) (s : State) :
    OnlyRegs s (s.applyWords ws) ∧ (∀ o, o ∉ ws.map Prod.fst → (s.applyWords ws).rd o = s.rd o) ∧
      ∀ q ∈ ws, (s.applyWords ws).rd q.1 = s.committed q := by
  induction ws generalizing s with
  | nil => exact ⟨.refl s, fun _ _ => rfl, fun _ hq => absurd hq List.not_mem_nil⟩
  | cons q ws ih =>
    rw [List.map_cons, List.nodup_cons] at hws
    obtain ⟨hq, hws⟩ := hws
    obtain ⟨honly, hother, hsame⟩ := ih hws (s.wr q.1 (s.committed q))
    refine ⟨OnlyRegs.trans ((OnlyRegs.refl s).wr q.1 (s.committed q)) honly, fun o ho => ?_, fun p hp => ?_⟩
    · rw [List.map_cons, List.mem_cons, not_or] at ho
      exact (hother o ho.2).trans (State.rd_wr_other _ _ _ _ ho.1)
    · rcases List.mem_cons.1 hp with rfl | hp
      · exact (hother p.1 hq).trans (State.rd_wr_same _ _ _)
      · have hne : p.1 ≠ q.1 := fun h => hq (h ▸ List.mem_map_of_mem hp)
        refine (hsame p hp).trans ?_
        rw [State.committed, State.committed, State.rd_wr_other _ _ _ _ hne]
        rfl

/-! ## Commits -/

/-- What follows a change keeps the group, its report and the Pantry. -/
structure Follows (g : Group) (s t : State) : Prop where
  rd : ∀ o, o = g.status ∨ o ∈ g.words.map Prod.fst → t.rd o = s.rd o
  pantry : t.pantry = s.pantry
  biWant : t.biWant = s.biWant
theorem Follows.refl (g : Group) (s : State) : Follows g s s := ⟨fun _ _ => rfl, rfl, rfl⟩
theorem Follows.trans {g : Group} (h : Follows g s t) (h' : Follows g t u) : Follows g s u :=
  ⟨fun o ho => (h'.rd o ho).trans (h.rd o ho), h'.pantry.trans h.pantry, h'.biWant.trans h.biWant⟩
theorem Follows.foldl {g : Group} {α : Type} {f : State → α → State} {l : List α} (hf : ∀ s, ∀ a ∈ l, Follows g s (f s a)) (s : State) :
    Follows g s (l.foldl f s) :=
  List.foldlRecOn (motive := Follows g s) l f (.refl g s) fun t ht a ha => ht.trans (hf t a ha)
/-- The word that reports a result, after `seq` reports. -/
def reportWord (n seq : Nat) : DWord := BitVec.ofNat 64 (n + 2 ^ 24 * ((seq + 1) % 256))
/-- The clause of one group: a failed check is reported and nothing else happens; else the copies are in force. -/
def State.CommitsBy (s : State) (i : Instr) (g : Group) (checks : (Nat → Nat) → List (Bool × Nat × Nat)) : Prop :=
  (∀ k n, firstFailed (checks (s.staged g)) = some (k, n) →
    ∃ t, exec i s = .next t ∧ t.rd g.status = reportWord (2 + 256 * k + 65536 * n) ((s.rd g.status).toNat / 2 ^ 24 % 256) ∧
      RegsKept s t [g.status] ∧ OnlyRegs s t) ∧
  (firstFailed (checks (s.staged g)) = none →
    ∃ t, exec i s = .next t ∧ t.rd g.status = reportWord 1 ((s.rd g.status).toNat / 2 ^ 24 % 256) ∧ PantryKept s t ∧
      ∀ q ∈ g.words, t.rd q.1 = (s.rd q.1 &&& ~~~(BitVec.ofNat 64 q.2)) ||| (s.rdShadow q.1 &&& BitVec.ofNat 64 q.2))
theorem State.commits {i : Instr} {g : Group} {checks : (Nat → Nat) → List (Bool × Nat × Nat)} {after : State → State → State} (hg : g.Apart)
    (hafter : ∀ s t, Follows g t (after s t)) (hstill : s.biWant = [])
    (hexec : ∀ t, s.commit g checks after = t → t.biWant = [] → exec i s = .next t) : s.CommitsBy i g checks := by
  refine ⟨fun k n hfail => ?_, fun hpass => ?_⟩
  · have hcommit : s.commit g checks after = s.commitReport g (some (k, n)) := by rw [State.commit, hfail]
    exact ⟨_, hexec _ hcommit ((State.wr_biWant ..).trans hstill), State.rd_wr_same _ _ _, s.regsKept_wr _ _, s.onlyRegs_wr _ _⟩
  · have hcommit : s.commit g checks after = (after s (s.applyGroup g)).commitReport g none := by rw [State.commit, hpass]
    obtain ⟨honly, hother, hsame⟩ := State.applyWords_spec g.words hg.words s
    rw [State.applyGroup_eq] at hcommit
    generalize s.applyWords g.words = w at *
    have hf := hafter s w
    generalize after s w = v at *
    refine ⟨_, hexec _ hcommit ((State.wr_biWant ..).trans (hf.biWant.trans (honly.biWant.trans hstill))), (State.rd_wr_same _ _ _).trans ?_,
      pantryKept_of_eq ((State.wr_pantry ..).trans (hf.pantry.trans ?_)), fun q hq => ?_⟩
    · rw [hf.rd _ (.inl rfl), hother _ hg.status]
      rfl
    · rw [honly]
    · have hq' : q.1 ∈ g.words.map Prod.fst := List.mem_map_of_mem hq
      exact (State.rd_wr_other _ _ _ _ fun h => hg.status (Eq.mp (congrArg (· ∈ _) h) hq')).trans ((hf.rd _ (.inr hq')).trans (hsame q hq))

/-! ## The five groups -/

theorem nrmGroup_words (c : Nat) : (nrmGroup c).words.map Prod.fst =
    Reg.NRM_CTL c :: Reg.NRM_WARMUP c :: Reg.NRM_FLOOR c :: (List.range 8).map (Reg.NRM_PT_CFG c) := by
  simp only [nrmGroup, List.cons_append, List.nil_append, List.map_cons, List.map_map]
  rfl
theorem nrmGroup_apart (c : Nat) : (nrmGroup c).Apart := by
  have hpt : ((List.range 8).map (Reg.NRM_PT_CFG c)).Nodup := List.Nodup.map (fun a b h => by unfold Reg.NRM_PT_CFG at h; omega) List.nodup_range
  constructor
  · rw [nrmGroup_words]
    simp only [List.nodup_cons, hpt, List.mem_cons, List.mem_map, not_or, not_exists, not_and, and_true]
    unfold Reg.NRM_CTL Reg.NRM_WARMUP Reg.NRM_FLOOR Reg.NRM_PT_CFG
    exact ⟨⟨by omega, by omega, fun n _ => by omega⟩, ⟨by omega, fun n _ => by omega⟩, fun n _ => by omega⟩
  · rw [nrmGroup_words]
    simp only [List.mem_cons, List.mem_map, not_or, not_exists, not_and]
    unfold nrmGroup Reg.NRM_COMMIT_STATUS Reg.NRM_CTL Reg.NRM_WARMUP Reg.NRM_FLOOR Reg.NRM_PT_CFG
    refine ⟨?_, ?_, ?_, fun n hn => ?_⟩
    · dsimp only
      omega
    · dsimp only
      omega
    · dsimp only
      omega
    · have := List.mem_range.1 hn
      dsimp only
      omega
theorem treeGroup_words (p : Nat) : (treeGroup p).words.map Prod.fst = Reg.SRV_TREE_CTL p :: (List.range 4).map (Reg.SRV_TREE_PAR p) := by
  simp only [treeGroup, List.map_cons, List.map_map]
  rfl
theorem treeGroup_apart (p : Nat) : (treeGroup p).Apart := by
  have hpar : ((List.range 4).map (Reg.SRV_TREE_PAR p)).Nodup := List.Nodup.map (fun a b h => by unfold Reg.SRV_TREE_PAR at h; omega) List.nodup_range
  constructor
  · rw [treeGroup_words]
    simp only [List.nodup_cons, hpar, List.mem_map, not_exists, not_and, and_true]
    unfold Reg.SRV_TREE_CTL Reg.SRV_TREE_PAR
    exact fun n _ => by omega
  · rw [treeGroup_words]
    simp only [List.mem_cons, List.mem_map, not_or, not_exists, not_and]
    unfold treeGroup Reg.SRV_TREE_COMMIT_STATUS Reg.SRV_TREE_CTL Reg.SRV_TREE_PAR
    refine ⟨?_, fun n hn => ?_⟩
    · dsimp only
      omega
    · have := List.mem_range.1 hn
      dsimp only
      omega
theorem chkGroup_apart (p : Nat) : (chkGroup p).Apart := by
  constructor
  all_goals
    simp only [chkGroup, List.map_cons, List.map_nil, List.nodup_cons, List.mem_cons, List.not_mem_nil, or_false, not_or, not_false_iff,
      List.nodup_nil, and_true]
    unfold Reg.CEL_CHK_CTL Reg.CEL_CHK_LIMITS Reg.CEL_CHK_WINDOW
  · omega
  · unfold Reg.CEL_CHK_COMMIT_STATUS
    omega
theorem kvGroup_apart (p : Nat) : (kvGroup p).Apart := by
  constructor
  all_goals
    simp only [kvGroup, List.map_cons, List.map_nil, List.nodup_cons, List.mem_cons, List.not_mem_nil, or_false, not_or, not_false_iff,
      List.nodup_nil, and_true]
    unfold Reg.SRV_KV_CTL Reg.SRV_KV_SHARE Reg.SRV_KV_BUCKET_0 Reg.SRV_KV_BUCKET_1 Reg.SRV_KV_BUCKET_2 Reg.SRV_KV_BUCKET_3
  · omega
  · unfold Reg.SRV_KV_COMMIT_STATUS
    omega
theorem winGroup_apart (c w : Nat) : (winGroup c w).Apart := by
  constructor
  all_goals
    simp only [winGroup, List.map_cons, List.map_nil, List.nodup_cons, List.mem_cons, List.not_mem_nil, or_false, not_or, not_false_iff,
      List.nodup_nil, and_true]
    unfold Reg.WDS_WIN_BASE Reg.WDS_WIN_LEN
  · omega
  · unfold Reg.WDS_WIN_COMMIT_STATUS
    omega

/-! ## What follows a change (R86, R143) -/

theorem follows_wr {g : Group} {o : Nat} (ho : o ≠ g.status ∧ o ∉ g.words.map Prod.fst) (s : State) (y : DWord) : Follows g s (s.wr o y) :=
  ⟨fun _ hj => State.rd_wr_other _ _ _ _ fun h => hj.elim (fun hs => ho.1 (h ▸ hs)) fun hw => ho.2 (h ▸ hw), State.wr_pantry .., State.wr_biWant ..⟩
theorem nrm_apart {c n o : Nat} (hn : n < 8) (ho : o = Reg.NRM_PT_MS c n ∨ o = Reg.NRM_PT_COUNT c n) :
    o ≠ (nrmGroup c).status ∧ o ∉ (nrmGroup c).words.map Prod.fst := by
  rw [nrmGroup_words]
  simp only [List.mem_cons, List.mem_map, List.mem_range, not_or, not_exists, not_and]
  unfold nrmGroup Reg.NRM_COMMIT_STATUS Reg.NRM_CTL Reg.NRM_WARMUP Reg.NRM_FLOOR Reg.NRM_PT_CFG
  unfold Reg.NRM_PT_MS Reg.NRM_PT_COUNT at ho
  dsimp only
  refine ⟨by omega, by omega, by omega, by omega, fun k hk => by omega⟩
theorem State.follows_setTripRun (g : Group) (s : State) (c n x : Nat) : Follows g s (s.setTripRun c n x) := ⟨fun _ _ => rfl, rfl, rfl⟩
theorem State.follows_nrmChanged (c : Nat) (s t : State) : Follows (nrmGroup c) t (State.nrmChanged c s t) := by
  rw [State.nrmChanged]
  refine .foldl (fun u n hn => ?_) t
  have hn := List.mem_range.1 hn
  split
  · exact .refl _ u
  · exact ((follows_wr (nrm_apart hn (.inl rfl)) u _).trans (follows_wr (nrm_apart hn (.inr rfl)) _ _)).trans
      (State.follows_setTripRun ..)
theorem State.follows_chkChanged (p : Nat) (s t : State) : Follows (chkGroup p) t (State.chkChanged p s t) := by
  have hhold (bins : List Nat) : Follows (chkGroup p) t (bins.foldl (fun (u : State) g => u.holdChk g (s.chkRegs g)) t) :=
    .foldl (f := fun (u : State) g => u.holdChk g (s.chkRegs g)) (fun u n _ => ⟨fun _ _ => rfl, rfl, rfl⟩) t
  rw [State.chkChanged]
  dsimp only
  split
  · exact hhold _
  · exact (hhold _).trans (.foldl (f := fun (u : State) g => (u.clearStats g).setCheck g { u.check g with winCount := 0, winHeld := none })
      (fun u n _ => ⟨fun _ _ => rfl, rfl, rfl⟩) _)

/-! ## The commands -/

/-- A 32-bit write of a module register that acts. -/
theorem put32_module {b : Block} {off o : Nat} {d : RegDesc} {v : Word} (hloc : locate off = some (0, b, o)) (h4 : off % 4 = 0) (hb : b.ofCore = false)
    (hlnk : b ≠ .lnk) (hregion : b.ofRegion = false) (hfind : findReg b o = some d) (hnarrow : d.wide = false) (hdirect : d.direct = true)
    (hv : (v.setWidth 64 : DWord) &&& d.reservedBits = 0) (hidle : (d.hasClass .quiesced && !s.idleFor 0 b off) = false)
    (hok : valueOk off b o (v.setWidth 64) = true) (hact : s.act 0 b o off d (v.setWidth 64) = t) (ht : t.biWant = []) : put32 off v s = .next t := by
  have hpow : s.unpowered 0 b o = false := by
    have hl : (b == .lnk) = false := beq_eq_false_iff_ne.2 hlnk
    rw [State.unpowered, hb, hl]
    rfl
  have hload : s.inWrite 0 b = false := by
    rw [State.inWrite, hb]
    rfl
  have hseq : ¬ (b = .seq ∧ o = 0x88) := by
    rintro ⟨rfl, -⟩
    cases hb
  have hword : s.writeWord off v = t := by
    rw [State.writeWord, hloc]
    dsimp only
    rw [if_neg (by rw [hpow]; decide), if_neg (by rw [hload]; decide), hfind]
    dsimp only
    rw [if_neg hseq, if_neg (by rw [hnarrow]; decide), State.writeReg_acts hdirect hv hidle hok, hact, State.mirrorWrite,
      if_neg (by rw [hregion]; decide)]
  rw [put32, put, s.busWrite_word v h4, hword, State.settle_of_still s t ht]

theorem nrmCommits (h : s.CoreTakes c) : s.CommitsBy (.nrmCommit c 1) (nrmGroup c) nrmChecks := by
  refine State.commits (nrmGroup_apart c) (State.follows_nrmChanged c) h.still fun t hcommit ht => ?_
  refine put32_acts (o := 0x3900C) (d := regsNrm[3]) h (by decide) (by decide) rfl (by decide) (by decide) rfl (by decide) (by decide)
    (quiet_of_live (by decide) _) rfl ?_ ht
  rw [State.act, if_pos ⟨rfl, by decide⟩]
  exact hcommit

theorem findReg_winCommit : ∀ w : WinId, findReg .wds (0x18 + 0x20 * w.val) = some regsWds[6] := by decide
theorem State.follows_same (g : Group) (s t : State) : Follows g t ((fun _ t => t) s t) := .refl g t
theorem winCommits (h : s.CoreTakes c) (w : WinId) :
    s.CommitsBy (.winCommit c w 1) (winGroup c w) (winChecks (s.winState c w == winClosed)) := by
  have hw := w.isLt
  have hblock : coreBlockOf (0x10018 + 0x20 * w.val) = (Block.wds, 0x18 + 0x20 * w.val) := by
    rw [coreBlockOf, if_neg (by omega), if_neg (by omega), if_pos (by omega)]
    exact congrArg (Prod.mk Block.wds) (by omega)
  refine State.commits (winGroup_apart c w) (State.follows_same _) h.still fun t hcommit ht => ?_
  show put32 (Reg.WDS_WIN_COMMIT c w) 1 s = _
  rw [Reg.WDS_WIN_COMMIT, Nat.add_assoc]
  refine put32_acts (d := regsWds[6]) h (by omega) (by omega) hblock (fun h => absurd h.1 (by decide)) (findReg_winCommit w) rfl (by decide) (by decide)
    (quiet_of_live (by decide) _) rfl ?_ ht
  rw [State.act, if_neg (by omega), if_pos ⟨by omega, by decide⟩, show (0x18 + 0x20 * w.val) / 32 = w by omega]
  exact hcommit
theorem locate_chkCommit : ∀ p : PartId, locate (Reg.CEL_CHK_COMMIT p) = some (0, .cel, 0x100C + 0x20 * p.val) ∧
    findReg .cel (0x100C + 0x20 * p.val) = some regsCel[3] ∧ valueOk (Reg.CEL_CHK_COMMIT p) .cel (0x100C + 0x20 * p.val) 1 = true ∧
    Reg.CEL_CHK_COMMIT p % 4 = 0 ∧ Reg.CEL_CHK_COMMIT p ≠ Reg.CEL_INST_CTL ∧ Reg.CEL_CHK_COMMIT p ≠ Reg.CEL_REFRESH_GO := by decide
theorem chkCommits (h : s.CoreTakes c) (p : PartId) : s.CommitsBy (.chkCommit p 1) (chkGroup p) chkChecks := by
  have hp := p.isLt
  obtain ⟨hloc, hfind, hok, h4, hctl, hgo⟩ := locate_chkCommit p
  refine State.commits (chkGroup_apart p) (State.follows_chkChanged p) h.still fun t hcommit ht => ?_
  refine put32_module hloc h4 rfl (by decide) rfl hfind rfl (by decide) (by decide) (quiet_of_live (by decide) _) hok ?_ ht
  rw [State.act, if_neg hctl, if_neg hgo, if_pos (by omega), if_pos (by decide), show (0x100C + 0x20 * p.val - 0x1000) / 32 = p by omega]
  exact hcommit
theorem locate_kvCommit : ∀ p : PartId, locate (Reg.SRV_KV_COMMIT p) = some (0, .srv, 0x8018 + 0x40 * p.val) ∧
    findReg .srv (0x8018 + 0x40 * p.val) = some regsSrv[6] ∧ Reg.SRV_KV_COMMIT p % 4 = 0 := by decide
theorem kvCommits (h : s.CoreTakes c) (p : PartId) : s.CommitsBy (.srvKvCommit p 1) (kvGroup p) kvChecks := by
  have hp := p.isLt
  obtain ⟨hloc, hfind, h4⟩ := locate_kvCommit p
  refine State.commits (kvGroup_apart p) (State.follows_same _) h.still fun t hcommit ht => ?_
  refine put32_module hloc h4 rfl (by decide) rfl hfind rfl (by decide) (by decide) (quiet_of_live (by decide) _) rfl ?_ ht
  rw [State.act, if_pos (by omega), if_pos (by decide), show (0x8018 + 0x40 * p.val - 0x8000) / 64 = p by omega]
  exact hcommit
theorem locate_treeCommit : ∀ p : PartId, locate (Reg.SRV_TREE_COMMIT p) = some (0, .srv, 0x414 + 0x20 * p.val) ∧
    findReg .srv (0x414 + 0x20 * p.val) = some regsSrv[30] ∧ Reg.SRV_TREE_COMMIT p % 4 = 0 := by decide
theorem treeCommits (h : s.CoreTakes c) (p : PartId) : s.CommitsBy (.treeCommit p 1) (treeGroup p) treeChecks := by
  have hp := p.isLt
  obtain ⟨hloc, hfind, h4⟩ := locate_treeCommit p
  refine State.commits (treeGroup_apart p) (State.follows_same _) h.still fun t hcommit ht => ?_
  refine put32_module hloc h4 rfl (by decide) rfl hfind rfl (by decide) (by decide) (quiet_of_live (by decide) _) rfl ?_ ht
  rw [State.act, if_neg (by omega), if_neg (by omega), if_pos (by omega), if_pos (by decide), show (0x414 + 0x20 * p.val - 0x400) / 32 = p by omega]
  exact hcommit

/-- Settles O36: the five groups differ in their registers and checks; what follows a change of one leaves the group and its
report. -/
theorem commitsCheckAndApply : Obligations.CommitsCheckAndApply := by
  unfold Obligations.CommitsCheckAndApply
  intro c w p s h
  have hall : ∀ e ∈ [(Instr.nrmCommit c 1, nrmGroup c, nrmChecks), (.winCommit c w 1, winGroup c w, winChecks (s.winState c w == winClosed)),
      (.chkCommit p 1, chkGroup p, chkChecks), (.srvKvCommit p 1, kvGroup p, kvChecks), (.treeCommit p 1, treeGroup p, treeChecks)],
      s.CommitsBy e.1 e.2.1 e.2.2 := by
    simp only [List.forall_mem_cons, List.not_mem_nil, false_implies, implies_true, and_true]
    exact ⟨nrmCommits h, winCommits h w, chkCommits h p, kvCommits h p, treeCommits h p⟩
  exact hall

end Sys2Proof.Machine
end

section
/-! PROOFS. Register accesses by their class (O37). -/

namespace Sys2Proof.Machine

variable {s t : State} {c : CoreId}

/-! ## Writes of a core window -/

theorem low_ofNat {o : Nat} (ho : o < 2 ^ 32) : (BitVec.ofNat 32 o).toNat = o := by
  rw [BitVec.toNat_ofNat, Nat.mod_eq_of_lt ho]
theorem coreWin_small (c : CoreId) {o : Nat} (ho : o < 0x40000) : coreWin c + o < 2 ^ 32 := by
  have := c.isLt
  unfold coreWin
  omega
theorem setWidth_small {v : DWord} {n : Nat} (hn : n ≤ 32) (hv : v.toNat < 2 ^ n) : (v.setWidth 32).setWidth 64 = v := by
  have := Nat.pow_le_pow_right (show 0 < 2 by decide) hn
  apply BitVec.eq_of_toNat_eq
  rw [BitVec.toNat_setWidth, BitVec.toNat_setWidth, Nat.mod_eq_of_lt (b := 2 ^ 32) (by omega), Nat.mod_eq_of_lt (by omega)]
/-- A 32-bit write of a narrow register in a core window that takes it. -/
theorem State.busWrite_window {b : Block} {o p : Nat} {d : RegDesc} (h : s.CoreTakes c) (ho : o < 0x40000) (ho4 : o % 4 = 0)
    (hbp : coreBlockOf o = (b, p)) (hcode : ¬ (b = .seq ∧ p = 0x88)) (hfind : findReg b p = some d) (hnarrow : d.wide = false) (v : DWord) :
    s.busWrite (coreWin c + o) 4 v = s.writeReg c b p (coreWin c + o) d ((v.setWidth 32).setWidth 64) := by
  have hb : b.ofCore = true := by simpa [hbp] using coreBlockOf_ofCore o
  have hloc : locate (coreWin c + o) = some (c.val, b, p) := by rw [locate_coreWin c o ho, hbp]
  rw [State.busWrite, if_pos ⟨rfl, by rw [coreWin_add_mod_four, ho4]⟩, State.writeWord, hloc]
  dsimp only
  rw [if_neg (by rw [h.powered hb]; decide), if_neg (by rw [h.unloaded hb]; decide), hfind]
  dsimp only
  rw [if_neg hcode, if_neg (by rw [hnarrow]; decide), State.mirrorWrite, if_neg (by rw [b.ofRegion_of_ofCore hb]; decide)]
theorem exec_registerWrite {off width : Nat} {v : DWord} (hoff : off < 2 ^ 32) (hbus : s.busWrite off width v = t) (ht : t.biWant = []) :
    exec (.registerWrite (BitVec.ofNat 32 off) width v) s = .next t := by
  show put (BitVec.ofNat 32 off).toNat width v s = _
  rw [low_ofNat hoff, put, hbus, State.settle_of_still s t ht]

/-- What a write of RND.CTL stores. -/
theorem State.busWrite_rndCtl (h : s.CoreTakes c) {v : DWord} (hv : v.toNat < 8) :
    s.busWrite (Reg.RND_CTL c) 4 v = s.wr (Reg.RND_CTL c) ((s.rd (Reg.RND_CTL c) &&& ~~~7) ||| v) := by
  have hreserved : (regsRnd[0]).reservedBits = 0x1FFFFFFF#64 <<< 3 := by decide
  have hrw : (regsRnd[0]).rwBits = 7 := by decide
  have hand : v &&& 7 = v := by
    apply BitVec.eq_of_toNat_eq
    rw [BitVec.toNat_and]
    exact (Nat.and_two_pow_sub_one_eq_mod v.toNat 3).trans (Nat.mod_eq_of_lt hv)
  have hbus := State.busWrite_window (s := s) (d := regsRnd[0]) h (o := 0x38000) (by decide) (by decide) rfl (by decide) (by decide) rfl v
  rw [setWidth_small (n := 3) (by decide) hv, State.writeReg_acts (by decide) (by rw [hreserved]; exact and_shiftLeft_of_lt _ _ 3 hv)
    (quiet_of_live (by decide) _) rfl, State.act, if_neg (by decide), hrw, hand] at hbus
  exact hbus
theorem rndWrite_spec (h : s.CoreTakes c) {v : DWord} (hv : v.toNat < 8) :
    ∃ t, exec (.registerWrite (BitVec.ofNat 32 (Reg.RND_CTL c)) 4 v) s = .next t ∧
      t.rd (Reg.RND_CTL c) = (s.rd (Reg.RND_CTL c) &&& ~~~7) ||| v ∧ RegsKept s t [Reg.RND_CTL c] ∧ OnlyRegs s t :=
  ⟨_, exec_registerWrite (coreWin_small c (by decide)) (State.busWrite_rndCtl h hv) ((State.wr_biWant ..).trans h.still), State.rd_wr_same _ _ _,
    s.regsKept_wr _ _, s.onlyRegs_wr _ _⟩
/-- Counting a Prompt message leaves a core as it was. -/
theorem State.CoreTakes.counted (h : s.CoreTakes c) : (s.count Reg.FAB_PN_MSGS).CoreTakes c := by
  have hsleep : (s.count Reg.FAB_PN_MSGS).sleep c = s.sleep c := State.sleep_congr (State.rd_wr_other _ _ _ _ (by
    unfold sleepReg Reg.STG_CORE_STATE regionWin Reg.FAB_PN_MSGS
    omega))
  have hload : (s.count Reg.FAB_PN_MSGS).loadState = s.loadState := congrArg (Fld.get _) (State.rd_wr_other _ _ _ _ (by decide))
  refine ⟨hsleep ▸ h.on, ?_, (State.wr_biWant ..).trans h.still⟩
  have hfree := h.free
  rw [State.inWrite] at hfree ⊢
  rw [hload]
  exact hfree
theorem windowNode_core (h : s.CoreTakes c) {o : Nat} (ho : o < 0x40000) : s.windowNode (coreWin c + o) = some c.val := by
  rw [State.windowNode, locate_coreWin c o ho]
  dsimp only
  rw [if_neg (by rw [Block.ofRegion_of_ofCore _ (coreBlockOf_ofCore o)]; decide), if_pos (coreBlockOf_ofCore o), if_pos h.on]
theorem rndNetWrite_spec (h : s.CoreTakes c) {v : DWord} (hv : v.toNat < 8) :
    ∃ t, exec (.regWrite (BitVec.ofNat 32 (Reg.RND_CTL c)) 4 v) s = .next t ∧
      t.rd (Reg.RND_CTL c) = (s.rd (Reg.RND_CTL c) &&& ~~~7) ||| v ∧ t.rd Reg.FAB_PN_MSGS = s.rd Reg.FAB_PN_MSGS + 1 ∧
      RegsKept s t [Reg.RND_CTL c, Reg.FAB_PN_MSGS] ∧ OnlyRegs s t := by
  have hne : Reg.RND_CTL c ≠ Reg.FAB_PN_MSGS := by
    unfold Reg.RND_CTL coreWin Reg.FAB_PN_MSGS
    omega
  have hrd : (s.count Reg.FAB_PN_MSGS).rd (Reg.RND_CTL c) = s.rd (Reg.RND_CTL c) := State.rd_wr_other _ _ _ _ hne
  have hbus := State.busWrite_rndCtl h.counted hv
  rw [hrd] at hbus
  refine ⟨(s.count Reg.FAB_PN_MSGS).wr (Reg.RND_CTL c) _, ?_, State.rd_wr_same _ _ _, (State.rd_wr_other _ _ _ _ hne.symm).trans (State.rd_wr_same _ _ _), fun o ho => ?_,
    (s.onlyRegs_wr _ _).wr _ _⟩
  · show put (BitVec.ofNat 32 (Reg.RND_CTL c)).toNat 4 v _ = _
    rw [low_ofNat (o := Reg.RND_CTL c) (coreWin_small c (by decide)), show s.windowNode (Reg.RND_CTL c) = some c.val from windowNode_core h (by decide), if_pos (show (some c.val).isSome = true from rfl),
      put, hbus]
    refine congrArg Host.Outcome.next (State.settle_of_still _ _ ?_)
    exact (State.wr_biWant ..).trans ((State.wr_biWant ..).trans h.still)
  · simp only [List.mem_cons, List.not_mem_nil, or_false, not_or] at ho
    exact (State.rd_wr_other _ _ _ _ ho.1).trans (State.rd_wr_other _ _ _ _ ho.2)
theorem nrmFloorWrite_spec (h : s.CoreTakes c) (v : Word) : ∃ t, exec (.registerWrite (BitVec.ofNat 32 (Reg.NRM_FLOOR c)) 4 (v.setWidth 64)) s = .next t ∧
    t.rdShadow (Reg.NRM_FLOOR c) = v.setWidth 64 ∧ t.regs = s.regs ∧ PantryKept s t := by
  have hbus := State.busWrite_window (s := s) (d := regsNrm[2]) h (o := 0x39008) (by decide) (by decide) rfl (by decide) (by decide) rfl (v.setWidth 64)
  rw [setWidth_low, State.writeReg, if_neg (by decide), if_pos (by decide)] at hbus
  exact ⟨_, exec_registerWrite (coreWin_small c (by decide)) hbus ((State.wrShadow_biWant ..).trans h.still), (State.rdShadow_wrShadow ..).trans (if_pos rfl),
    State.wrShadow_regs .., pantryKept_of_eq (State.wrShadow_pantry ..)⟩
theorem coreStatWrite_spec (h : s.CoreTakes c) : ∃ t, exec (.registerWrite (BitVec.ofNat 32 (Reg.CORE_STAT c)) 4 0x1) s = .next t ∧
    t.rd (Reg.CORE_STAT c) = s.rd (Reg.CORE_STAT c) &&& ~~~1 ∧ RegsKept s t [Reg.CORE_STAT c] ∧ OnlyRegs s t := by
  have hbus := State.busWrite_window (s := s) (d := regsCore[1]) h (o := 0x4) (by decide) (by decide) rfl (by decide) (by decide) rfl 0x1
  have hclear : (((0x1 : DWord).setWidth 32).setWidth 64) &&& (regsCore[1]).w1cBits = 1 := by decide
  rw [State.writeReg, if_neg (by decide), if_neg (by decide), if_pos (by decide), hclear] at hbus
  exact ⟨_, exec_registerWrite (coreWin_small c (by decide)) hbus ((State.wr_biWant ..).trans h.still), State.rd_wr_same _ _ _, s.regsKept_wr _ _,
    s.onlyRegs_wr _ _⟩
theorem startPcWrite_spec (h : s.CoreTakes c) {v : DWord} (hv : v.toNat < 2 ^ 15) (hrun : s.seq c = seqRun) :
    ∃ t, exec (.registerWrite (BitVec.ofNat 32 (Reg.SEQ_START_PC c)) 4 v) s = .next t ∧
      t.flag (Reg.SEQ_STAT c) Fl.SEQ_STAT_WRITE_REFUSED = true ∧ RegsKept s t [Reg.SEQ_STAT c] ∧ OnlyRegs s t := by
  have hreserved : (regsSeq[3]).reservedBits = 0x1FFFF#64 <<< 15 := by decide
  have hbus := State.busWrite_window (s := s) (d := regsSeq[3]) h (o := 0x100C) (by decide) (by decide) rfl (by decide) (by decide) rfl v
  rw [setWidth_small (n := 15) (by decide) hv, State.writeReg, if_neg (by decide), if_neg (by decide), if_neg (by decide),
    if_neg (not_not.2 (by rw [hreserved]; exact and_shiftLeft_of_lt _ _ 15 hv)), if_pos (by simp [State.idleFor, hrun]; decide)] at hbus
  refine ⟨_, exec_registerWrite (coreWin_small c (by decide)) hbus ((State.setFld_biWant ..).trans h.still), ?_, s.regsKept_wr _ _, s.onlyRegs_wr _ _⟩
  rw [State.flag, State.refuse, State.seqRefused, State.fld_setFld_same _ _ _ _ (by decide)]
  rfl
theorem misaligned_spec (h : s.CoreTakes c) (off : BitVec 32) {width : Nat} (v : DWord) (h4 : ¬(width = 4 ∧ off.toNat % 4 = 0))
    (h8 : ¬(width = 8 ∧ off.toNat % 8 = 0)) : exec (.registerWrite off width v) s = .next s := by
  show put off.toNat width v s = _
  rw [put, State.busWrite, if_neg h4, if_neg h8, State.settle_of_still s s h.still]

/-! ## Reads -/

/-- A plain register of a core window holds no record. -/
theorem State.recordAt_core (s : State) (c : CoreId) {o : Nat} (ho : o < 0x3A000) (hne : o ≠ 0x3060) :
    s.recordAt c (coreWin c + o) = none := by
  have hc := c.isLt
  rw [State.recordAt, if_neg, if_neg, if_neg, if_neg, if_neg, if_neg, if_neg]
  · unfold Reg.HIF_Q_DATA coreWin
    omega
  · unfold Reg.SRV_CTX_DATA_0 coreWin
    omega
  · unfold Reg.SEC_LOG_REC_0 coreWin
    omega
  · unfold Reg.DUMP_ERR_REC_0 coreWin
    omega
  · unfold Reg.THR_LOG_REC_0 coreWin regionWin
    omega
  · unfold Reg.CEL_DRIFT_REC_0 coreWin
    omega
  · unfold Reg.RACK_REC_DATA_0 coreWin
    omega

/-- A read of a register that neither latches nor acts gives its view. -/
theorem State.readReg_plain {b : Block} {p o : Nat} (hb : b.ofCore = true) (hcode : ¬ (b = .seq ∧ p = 0x88)) (hrec : s.recordAt c o = none) :
    s.readReg c b p o = (s, s.view o) := by
  have hcnv : ¬ (b = .cnv ∧ 0x100 ≤ p ∧ p < 0x300) := by
    rintro ⟨rfl, -⟩
    cases hb
  rw [State.readReg, if_neg (by rw [State.mirrored, b.ofRegion_of_ofCore hb]; exact Bool.false_ne_true), if_neg hcode, if_neg hcnv, hrec]
theorem locate_issued (c : CoreId) : locate (Reg.SEQ_ISSUED c) = some (c.val, .seq, 0x20) := locate_coreWin c 0x1020 (by decide)
theorem State.view_issued (s : State) (c : CoreId) : s.view (Reg.SEQ_ISSUED c) = s.rd (Reg.SEQ_ISSUED c) := by
  rw [State.view, locate_issued]
theorem findReg_issued : findReg .seq 0x20 = some regsSeq[8] ∧ findReg .seq 0x24 = none := by decide
def State.latch (s : State) (o : Nat) (v : Option Word) : State := { s with latches := swrite (fun _ => none) s.latches o v }
theorem State.readWord_issued (h : s.CoreTakes c) : s.readWord (Reg.SEQ_ISSUED c) =
    (s.latch (Reg.SEQ_ISSUED c) (some ((s.rd (Reg.SEQ_ISSUED c) >>> 32).setWidth 32)), (s.rd (Reg.SEQ_ISSUED c)).setWidth 32) := by
  rw [State.readWord, locate_issued]
  dsimp only
  rw [if_neg (by rw [h.powered rfl]; decide), findReg_issued.1]
  dsimp only
  have hread : s.readReg c .seq 0x20 (Reg.SEQ_ISSUED c) = (s, s.rd (Reg.SEQ_ISSUED c)) :=
    (State.readReg_plain rfl (by decide) (s.recordAt_core c (o := 0x1020) (by decide) (by decide))).trans (congrArg (Prod.mk s) (s.view_issued c))
  rw [hread, if_pos (by decide)]
  rfl
theorem State.readWord_issuedHigh (h : s.CoreTakes c) {x : Word} (hlatch : sread (fun _ => none) s.latches (Reg.SEQ_ISSUED c) = some x) :
    s.readWord (Reg.SEQ_ISSUED c + 4) = (s.latch (Reg.SEQ_ISSUED c) none, x) := by
  have hloc : locate (Reg.SEQ_ISSUED c + 4) = some (c.val, .seq, 0x24) := locate_coreWin c 0x1024 (by decide)
  rw [State.readWord, hloc]
  dsimp only
  rw [if_neg (by rw [h.powered rfl]; decide), findReg_issued.2]
  dsimp only
  rw [if_pos (by decide), Nat.add_sub_cancel, hlatch]
  rfl
theorem exec_lowHalfRead {off : Nat} (hoff : off < 2 ^ 32) (h4 : off % 4 = 0) {x : Word} (hword : s.readWord off = (t, x)) :
    exec (.lowHalfRead (BitVec.ofNat 32 off)) s = .next (t.emit (.readData off 4 (x.setWidth 64))) := by
  show Host.Outcome.next (s.answerRead (BitVec.ofNat 32 off).toNat 4) = _
  rw [low_ofNat hoff, s.answerRead_word h4, hword]
theorem high_low (v : DWord) : (((v >>> 32).setWidth 32).setWidth 64 : DWord) = v >>> 32 := by
  apply BitVec.eq_of_toNat_eq
  have := v.isLt
  rw [BitVec.toNat_setWidth, BitVec.toNat_setWidth, BitVec.toNat_ushiftRight, Nat.shiftRight_eq_div_pow]
  omega
/-- A state with the same registers but those of a core window, the same load and no back-invalidate takes what the core took. -/
theorem State.CoreTakes.of_same (h : s.CoreTakes c) (hregs : ∀ o < 0x04000000, t.rd o = s.rd o) (hblk : t.blk = s.blk) (hbi : t.biWant = s.biWant) :
    t.CoreTakes c := by
  have hsleep : t.sleep c = s.sleep c := State.sleep_congr (hregs _ (by
    have := c.isLt
    unfold sleepReg Reg.STG_CORE_STATE regionWin
    omega))
  refine ⟨hsleep ▸ h.on, ?_, hbi.trans h.still⟩
  have hfree := h.free
  rw [State.inWrite, State.loadState, State.fld] at hfree ⊢
  rw [hblk, hregs _ (by decide)]
  exact hfree
theorem lowHalfRead_spec (h : s.CoreTakes c) : ∃ t, exec (.lowHalfRead (BitVec.ofNat 32 (Reg.SEQ_ISSUED c))) s = .next t ∧ t.regs = s.regs ∧
    t.outbox = s.outbox ++ [.readData (Reg.SEQ_ISSUED c) 4 (((s.rd (Reg.SEQ_ISSUED c)).setWidth 32).setWidth 64)] ∧
    ∀ n, ∃ u, exec (.lowHalfRead (BitVec.ofNat 32 (Reg.SEQ_ISSUED c + 4))) (t.wr (Reg.SEQ_ISSUED c) n) = .next u ∧
      u.outbox = t.outbox ++ [.readData (Reg.SEQ_ISSUED c + 4) 4 (s.rd (Reg.SEQ_ISSUED c) >>> 32)] := by
  have h4 : Reg.SEQ_ISSUED c % 4 = 0 := coreWin_add_mod_four c 0x1020
  refine ⟨_, exec_lowHalfRead (coreWin_small c (by decide)) h4 (State.readWord_issued h), rfl, rfl, fun n => ?_⟩
  generalize hv : ((s.latch (Reg.SEQ_ISSUED c) _).emit _).wr (Reg.SEQ_ISSUED c) n = v
  have hlatch : sread (fun _ => none) v.latches (Reg.SEQ_ISSUED c) = some ((s.rd (Reg.SEQ_ISSUED c) >>> 32).setWidth 32) := by
    rw [← hv, State.wr_latches, State.emit_latches, State.latch, sread_swrite, if_pos rfl]
  have hout : v.outbox = s.outbox ++ [.readData (Reg.SEQ_ISSUED c) 4 (((s.rd (Reg.SEQ_ISSUED c)).setWidth 32).setWidth 64)] := by
    rw [← hv, State.wr_outbox]
    rfl
  have htakes : v.CoreTakes c := by
    refine State.CoreTakes.of_same h (fun o ho => ?_) (by rw [← hv, State.wr_blk]; rfl) (by rw [← hv, State.wr_biWant]; rfl)
    have hne : o ≠ Reg.SEQ_ISSUED c := by
      unfold Reg.SEQ_ISSUED coreWin
      omega
    rw [← hv, State.rd_wr_other _ _ _ _ hne]
    rfl
  refine ⟨_, exec_lowHalfRead (coreWin_small c (o := 0x1024) (by decide)) (coreWin_add_mod_four c 0x1024) (State.readWord_issuedHigh htakes hlatch), ?_⟩
  rw [high_low]
  exact congrArg (· ++ _) hout

/-! ## The record of a fault (R567), and a read over the Prompt net (R36, R542) -/

theorem locate_errRec : locate Reg.DUMP_ERR_REC_0 = some (0, .dump, 0x30) ∧ findReg .dump 0x30 = some regsDump[11] ∧ (regsDump[11]).wide = false := by decide
def State.setErrLog (s : State) (l : List (Nat × LogSlot)) : State := { s with errLog := l }
theorem ringAt_ringRead (m : List (Nat × LogSlot)) (k : Nat) : ringAt (ringRead m k) k = ⟨(ringAt m k).bytes, true⟩ := by
  rw [ringAt, ringRead, sread_swrite, if_pos rfl]
theorem State.recordAt_errRec (s : State) : s.recordAt 0 Reg.DUMP_ERR_REC_0 =
    some (s.setErrLog (ringRead s.errLog (s.fld Reg.DUMP_ERR_SEL Fl.DUMP_ERR_SEL_SLOT)),
      recordWords 32 (ringAt s.errLog (s.fld Reg.DUMP_ERR_SEL Fl.DUMP_ERR_SEL_SLOT)).bytes) := by
  rw [State.recordAt, if_neg (by decide), if_neg (by decide), if_neg (by decide), if_pos rfl]
  rfl
theorem State.errLog_latchWords (ws : List Nat) (s : State) (off n : Nat) : (s.latchWords off n ws).errLog = s.errLog := by
  induction ws generalizing s n with
  | nil => rfl
  | cons w ws ih => rw [State.latchWords_cons, ih, State.wr_errLog]
theorem recordWords_get (bs : List Byte) {i : Nat} (hi : i < 8) : (recordWords 32 bs)[i]? = some (leAt bs (4 * i) 4) := by
  rw [recordWords, List.getElem?_map, List.getElem?_range (by omega)]
  rfl
theorem recordLatchRead_spec (s : State) :
    ∃ t, exec (.recordLatchRead (BitVec.ofNat 32 Reg.DUMP_ERR_REC_0)) s = .next t ∧
      (ringAt t.errLog (s.fld Reg.DUMP_ERR_SEL Fl.DUMP_ERR_SEL_SLOT)).read = true ∧
      (ringAt t.errLog (s.fld Reg.DUMP_ERR_SEL Fl.DUMP_ERR_SEL_SLOT)).bytes =
        (ringAt s.errLog (s.fld Reg.DUMP_ERR_SEL Fl.DUMP_ERR_SEL_SLOT)).bytes ∧
      ∀ i < 8, t.rd (Reg.DUMP_ERR_REC_0 + 4 * i) =
        BitVec.ofNat 64 (leAt (ringAt s.errLog (s.fld Reg.DUMP_ERR_SEL Fl.DUMP_ERR_SEL_SLOT)).bytes (4 * i) 4) := by
  obtain ⟨hloc, hfind, hnarrow⟩ := locate_errRec
  have hread := State.readReg_record (p := 0x30) (b := .dump) rfl (by decide) s.recordAt_errRec
  have hword := State.readWord_narrow (s := s) hloc (by rfl) hfind hnarrow
  rw [hread] at hword
  have hexec : exec (.recordLatchRead (BitVec.ofNat 32 Reg.DUMP_ERR_REC_0)) s = .next (s.answerRead Reg.DUMP_ERR_REC_0 4) := rfl
  rw [s.answerRead_word (by decide), hword] at hexec
  refine ⟨_, hexec, ?_, ?_, fun i hi => ?_⟩
  · rw [State.emit_errLog, State.errLog_latchWords]
    exact congrArg LogSlot.read (ringAt_ringRead ..)
  · rw [State.emit_errLog, State.errLog_latchWords]
    exact (congrArg LogSlot.bytes (ringAt_ringRead s.errLog _)).trans rfl
  · rw [State.rd_congr (State.emit_regs ..)]
    exact (congrArg _ (by rw [Nat.zero_add])).trans (State.rd_latchWords _ _ _ 0 i _ (recordWords_get _ hi))
theorem State.readWord_satCount (h : s.CoreTakes c) : s.readWord (Reg.RND_SAT_COUNT c) = (s, (s.rd (Reg.RND_SAT_COUNT c)).setWidth 32) := by
  have hloc : locate (Reg.RND_SAT_COUNT c) = some (c.val, .rnd, 8) := locate_coreWin c 0x38008 (by decide)
  have hview : s.view (Reg.RND_SAT_COUNT c) = s.rd (Reg.RND_SAT_COUNT c) := by rw [State.view, hloc]
  have hread : s.readReg c .rnd 8 (Reg.RND_SAT_COUNT c) = (s, s.rd (Reg.RND_SAT_COUNT c)) :=
    (State.readReg_plain rfl (by decide) (s.recordAt_core c (o := 0x38008) (by decide) (by decide))).trans (congrArg (Prod.mk s) hview)
  rw [State.readWord_narrow hloc (h.powered rfl _) (by decide : findReg .rnd 8 = some regsRnd[2]) rfl, hread]
/-- A read that waits for its answer over the Prompt net. -/
def State.askRead (s : State) (o width : Nat) : State := { s with host.reads := s.host.reads ++ [(s.nextId, o, width)] }
/-- The answer of a node to a read that waits for it. -/
def State.answerNet (s : State) (o width node : Nat) (v : DWord) : State :=
  (s.askRead o width).sendPn nodeHost (s.askRead o width).module node s.nextId (.regResp 0 v)
theorem exec_regRead {o width node : Nat} (ho : o < 2 ^ 32) (hnode : s.windowNode o = some node) {v : DWord} (hbus : s.busRead o width = (t, v)) :
    exec (.regRead (BitVec.ofNat 32 o) width) s = .next ((t.count Reg.FAB_PN_MSGS).answerNet o width node v) := by
  show execRegRead (BitVec.ofNat 32 o) width s = _
  rw [execRegRead]
  dsimp only
  rw [low_ofNat ho, hnode]
  dsimp only
  rw [hbus]
  rfl
theorem State.answerNet_pn (s : State) (o width node : Nat) (v : DWord) :
    (s.answerNet o width node v).pn = s.pn ++ [⟨s.nextId, nodeHost, s.module, node, s.module, s.nextId, 0, .regResp 0 v⟩] := by
  rw [State.answerNet, State.sendPn, if_neg (by decide)]
  rfl
theorem State.answerNet_pantry (s : State) (o width node : Nat) (v : DWord) : (s.answerNet o width node v).pantry = s.pantry :=
  State.sendPn_pantry ..

theorem State.answerNet_reads (s : State) (o width node : Nat) (v : DWord) :
    (s.answerNet o width node v).host.reads = s.host.reads ++ [(s.nextId, o, width)] := congrArg _ (State.sendPn_host ..)
theorem regRead_spec (h : s.CoreTakes c) : ∃ t, exec (.regRead (BitVec.ofNat 32 (Reg.RND_SAT_COUNT c)) 4) s = .next t ∧
    t.host.reads = s.host.reads ++ [(s.nextId, Reg.RND_SAT_COUNT c, 4)] ∧
    t.pn = s.pn ++ [⟨s.nextId, nodeHost, s.module, c, s.module, s.nextId, 0, .regResp 0 (((s.rd (Reg.RND_SAT_COUNT c)).setWidth 32).setWidth 64)⟩] ∧
    PantryKept s t := by
  have hbus : s.busRead (Reg.RND_SAT_COUNT c) 4 = (s, ((s.rd (Reg.RND_SAT_COUNT c)).setWidth 32).setWidth 64) := by
    rw [State.busRead, if_pos ⟨rfl, coreWin_add_mod_four c 0x38008⟩, State.readWord_satCount h]
  have hmodule : (s.count Reg.FAB_PN_MSGS).module = s.module := congrArg (Fld.get _) (State.rd_wr_other _ _ _ _ (by decide))
  refine ⟨_, exec_regRead (o := Reg.RND_SAT_COUNT c) (coreWin_small c (by decide)) (windowNode_core h (by decide)) hbus, ?_, ?_, ?_⟩
  · rw [State.answerNet_reads, State.count_host, State.count_nextId]
  · rw [State.answerNet_pn, State.count_pn, State.count_nextId, hmodule]
  · exact pantryKept_of_eq ((State.answerNet_pantry ..).trans (State.count_pantry s Reg.FAB_PN_MSGS 1))

/-- Settles O37: an access of a window that takes it reaches the register, and the register's class says what is done. -/
theorem registerAccessesFollowTheirClass : Obligations.RegisterAccessesFollowTheirClass :=
  fun _ s h =>
    ⟨fun _ hv => ⟨rndWrite_spec h hv, rndNetWrite_spec h hv⟩, nrmFloorWrite_spec h, coreStatWrite_spec h, fun _ hv hrun => startPcWrite_spec h hv hrun,
      fun off _ v h4 h8 => misaligned_spec h off v h4 h8, lowHalfRead_spec h, recordLatchRead_spec s, regRead_spec h⟩

end Sys2Proof.Machine
end

section
/-! PROOFS. Request descriptors are fetched and carried out (O32). -/

namespace Sys2Proof.Machine

variable {s t u v w : State} {k n x id : Nat} {r q : Req} {rec : PartRec} {d : List Byte}

/-! ## Sums over a store -/

section
variable {α : Type} {f : α → Nat} {dflt : Nat → α} {m : List (Nat × α)}
theorem sread_absent (h : ∀ e ∈ m, n ≠ e.1) : sread dflt m n = dflt n := by
  induction m with
  | nil => rfl
  | cons e m ih =>
    rw [sread, if_neg (h e List.mem_cons_self), ih fun e he => h e (List.mem_cons_of_mem _ he)]
theorem serase_absent (h : ∀ e ∈ m, n ≠ e.1) : serase m n = m := by
  rw [serase, List.filter_eq_self]
  intro e he
  simpa using (h e he).symm
def storeSum (f : α → Nat) (m : List (Nat × α)) : Nat := (m.map fun e => f e.2).sum
theorem storeSum_cons (e : Nat × α) : storeSum f (e :: m) = f e.2 + storeSum f m := by
  rw [storeSum, List.map_cons, List.sum_cons, storeSum]
theorem storeSum_sinsert (hm : srising m = true) (v : α) (hd : f (dflt n) = 0) (hv : f v = f (sread dflt m n)) :
    storeSum f (sinsert m n v) = storeSum f m := by
  induction m with
  | nil =>
    rw [sread, hd] at hv
    rw [sinsert, storeSum_cons, hv, Nat.zero_add]
  | cons e m ih =>
    obtain ⟨habove, hrest⟩ := (srising_cons e m).1 hm
    rw [sinsert]
    split
    · next hlt =>
      have habsent : ∀ e' ∈ e :: m, n ≠ e'.1 := fun e' he' => by
        rcases List.mem_cons.1 he' with rfl | he'
        · exact Nat.ne_of_lt hlt
        · exact Nat.ne_of_lt (Nat.lt_trans hlt (habove e' he'))
      rw [sread_absent habsent, hd] at hv
      rw [storeSum_cons, hv, Nat.zero_add]
    · split
      · next heq =>
        rw [sread, if_pos heq] at hv
        rw [storeSum_cons, storeSum_cons, hv]
      · next hne =>
        rw [sread, if_neg hne] at hv
        rw [storeSum_cons, storeSum_cons, ih hrest hv]
theorem storeSum_serase (hm : srising m = true) (hv : f (sread dflt m n) = 0) : storeSum f (serase m n) = storeSum f m := by
  induction m with
  | nil => rfl
  | cons e m ih =>
    obtain ⟨habove, hrest⟩ := (srising_cons e m).1 hm
    by_cases heq : n = e.1
    · rw [sread, if_pos heq] at hv
      have hkeep : serase (e :: m) n = m := by
        rw [serase, List.filter_cons, if_neg (by simp [heq])]
        exact serase_absent fun e' he' => by have := habove e' he'; omega
      rw [hkeep, storeSum_cons, hv, Nat.zero_add]
    · rw [sread, if_neg heq] at hv
      have hkeep : serase (e :: m) n = e :: serase m n := by
        rw [serase, List.filter_cons, if_pos (by simpa using Ne.symm heq), serase]
      rw [hkeep, storeSum_cons, storeSum_cons, ih hrest hv]
/-- A write of a value that counts as much as the old one leaves the sum. -/
theorem storeSum_swrite [DecidableEq α] (hm : swf dflt m = true) {v : α} (hd : f (dflt n) = 0) (hv : f v = f (sread dflt m n)) :
    storeSum f (swrite dflt m n v) = storeSum f m := by
  rw [swf, Bool.and_eq_true] at hm
  rw [swrite]
  split
  · next h => exact storeSum_serase hm.1 (by rw [← hv, h, hd])
  · exact storeSum_sinsert hm.1 v hd hv
end

/-! ## A descriptor is fetched (R313, R546) -/

/-- The parts that a fetch changes. -/
def State.patched (s : State) (out : List OutMsg) (turn : Nat × Nat) (queues : List (Nat × Queue)) (id : Nat) (reqs : List Req) : State :=
  { s with outbox := out, host.turn := turn, queues := queues, nextId := id, reqs := reqs }
section
variable (out out' : List OutMsg) (turn : Nat × Nat) (queues : List (Nat × Queue)) (reqs reqs' : List Req)
@[simp] theorem State.patched_passes : (s.patched out turn queues id reqs).passes = s.passes := rfl
@[simp] theorem State.patched_notices : (s.patched out turn queues id reqs).notices = s.notices := rfl
@[simp] theorem State.patched_reqs : (s.patched out turn queues id reqs).reqs = reqs := rfl
@[simp] theorem State.patched_queues : (s.patched out turn queues id reqs).queues = queues := rfl
@[simp] theorem State.patched_regs : (s.patched out turn queues id reqs).regs = s.regs := rfl
@[simp] theorem State.patched_nextId : (s.patched out turn queues id reqs).nextId = id := rfl
@[simp] theorem State.patched_outbox : (s.patched out turn queues id reqs).outbox = out := rfl
theorem State.patched_self (s : State) (m : OutMsg) : s.emit m = s.patched (s.outbox ++ [m]) s.host.turn s.queues s.nextId s.reqs := rfl
theorem State.patched_emit (m : OutMsg) : (s.patched out turn queues id reqs).emit m = s.patched (out ++ [m]) turn queues id reqs := rfl
theorem State.patched_setQueue (k : Queue) :
    (s.patched out turn queues id reqs).setQueue n k = s.patched out turn (swrite (fun _ => queueZero) queues n k) id reqs := rfl
def State.setNextId (s : State) (id : Nat) : State := { s with nextId := id }
def State.setReqs (s : State) (l : List Req) : State := { s with reqs := l }
def State.setTurn (s : State) (t : Nat × Nat) : State := { s with host.turn := t }
theorem State.patched_setNextId (id' : Nat) : (s.patched out turn queues id reqs).setNextId id' = s.patched out turn queues id' reqs := rfl
theorem State.patched_setReqs : (s.patched out turn queues id reqs).setReqs reqs' = s.patched out turn queues id reqs' := rfl
theorem State.patched_setTurn (t : Nat × Nat) : (s.patched out turn queues id reqs).setTurn t = s.patched out t queues id reqs := rfl
/-- Whose turn it is after a fetch. -/
def State.turnAfter (s : State) (n : Nat) : Nat × Nat :=
  if s.host.turn.1 = n ∧ s.host.turn.2 < (s.queue n).weight then (n, s.host.turn.2 + 1) else (n, 1)
theorem State.took_eq (s : State) (n : Nat) : s.took n = s.setTurn (s.turnAfter n) := rfl
theorem State.patched_fld (o : Nat) (f : Fld) : (s.patched out turn queues id reqs).fld o f = s.fld o f := rfl
theorem State.patched_hostTime : (s.patched out turn queues id reqs).hostTime = s.hostTime := rfl
theorem State.patched_tenantOn (i : Nat) : (s.patched out turn queues id reqs).tenantOn i = s.tenantOn i := rfl
end
/-- A queue whose next descriptor has been fetched. -/
def Queue.advanced (k : Queue) : Queue := { k with sqHead := (k.sqHead + 1) % k.sqSize }
theorem Queue.advanced_stuck (k : Queue) : k.advanced.stuck = k.stuck := rfl
theorem Queue.advanced_waiting (k : Queue) : k.advanced.waiting = k.waiting := rfl
/-- The state in which a request that has been fetched is the only one. -/
def State.gotReq (s : State) (n : Nat) (out : List OutMsg) (turn : Nat × Nat) (id : Nat) (r : Req) : State :=
  s.patched out turn (swrite (fun _ => queueZero) s.queues n (s.queue n).advanced) id [r]

theorem State.placesUsed_eq (s : State) : s.placesUsed = storeSum (fun k : Queue => k.waiting.length) s.queues +
    (s.reqs.filter fun r => r.started && ((r.op != 1 && r.op != 2) || r.status.isSome)).length + s.passes.length +
    (s.notices.filter fun n => n.makes).length := rfl
theorem State.gotReq_places (out : List OutMsg) (turn : Nat × Nat) (hreqs : s.reqs = []) (hstart : r.started = false)
    (hwf : swf (fun _ => queueZero) s.queues = true) : (s.gotReq n out turn id r).placesUsed = s.placesUsed := by
  rw [State.gotReq, State.placesUsed_eq, State.placesUsed_eq, hreqs, State.patched_passes, State.patched_notices, State.patched_reqs, State.patched_queues,
    storeSum_swrite hwf rfl (by rw [Queue.advanced_waiting, State.queue]), List.filter_cons, hstart]
  rfl
theorem State.gotReq_queue (out : List OutMsg) (turn : Nat × Nat) : (s.gotReq n out turn id r).queue n = (s.queue n).advanced := by
  rw [State.gotReq, State.queue, State.patched_queues, sread_swrite, if_pos rfl]

/-- The read of a prompt that a descriptor names. -/
def State.readPrompt (s : State) (op : Nat) (d : List Byte) : State :=
  if (op == opGenerate || op == opAdapt) && !descBad d && leAt d 12 4 != 0 then s.emit (.hostRead (leAt d 16 8) (4 * leAt d 12 4)) else s
theorem State.readPrompt_eq (out : List OutMsg) (turn : Nat × Nat) (queues : List (Nat × Queue)) (reqs : List Req) (op : Nat) (d : List Byte) :
    ∃ out', (s.patched out turn queues id reqs).readPrompt op d = s.patched out' turn queues id reqs := by
  rw [State.readPrompt]
  split
  · exact ⟨_, rfl⟩
  · exact ⟨_, rfl⟩
theorem State.descriptor_some {op : Nat} {prompt : List Word} {record : Option (List Byte)} (hturn : s.turnOf = some n)
    (hlink : s.flag Reg.HIF_STAT Fl.HIF_STAT_LINK_UP = true) (hop : leAt d 0 1 = op) (hreqs : s.reqs = []) (hbad : descBad d = false)
    (hten : s.tenantOn (leAt d 4 2) = true) (hprompt : op = opGenerate ∨ op = opAdapt → leAt d 12 4 ≤ prompt.length) :
    ∃ out turn id limit, s.descriptor op n (some d) prompt record =
      (s.gotReq n out turn (id + 1) (reqOf id n s.hostTime limit d (prompt.map fun w => w.toNat) record)).serve.dropRecords := by
  obtain ⟨out, hout⟩ := State.readPrompt_eq (s := s) (id := s.nextId) (s.outbox ++ [.hostRead ((s.queue n).sqBase + 64 * (s.queue n).sqHead) 64])
    s.host.turn s.queues s.reqs op d
  have hshort : (s.patched out s.host.turn s.queues s.nextId s.reqs).promptShort op d prompt = false := by
    rw [State.promptShort]
    by_cases h : op = opGenerate ∨ op = opAdapt
    · have := hprompt h
      rw [decide_eq_false (by omega), Bool.and_false]
    · obtain ⟨hgen, hadapt⟩ := not_or.1 h
      rw [beq_false_of_ne hgen, beq_false_of_ne hadapt]
      rfl
  refine ⟨out, (s.patched out s.host.turn s.queues s.nextId s.reqs).turnAfter n, s.nextId, s.fld (Reg.SRV_CLS_TTFT (leAt d 6 1 % 8)) Fl.SRV_CLS_TTFT_LIMIT, ?_⟩
  rw [State.descriptor, if_neg (by rw [hturn, hlink]; simp)]
  dsimp only
  rw [if_neg (by rw [hop]; simp)]
  rw [← State.readPrompt, State.patched_self, hout, hshort, hbad, State.took_eq, State.patched_setTurn, State.patched_setQueue]
  rw [if_neg Bool.false_ne_true, if_neg Bool.false_ne_true, State.patched_tenantOn, State.patched_hostTime, State.patched_fld, State.patched_nextId]
  have hoff (limit : Nat) : s.tenantOn (reqOf s.nextId n s.hostTime limit d (prompt.map fun w => w.toNat) record).tenant = true := hten
  rw [hoff]
  rw [if_neg (by simp), hreqs]
  rfl

/-! ## The only request takes its step (R316, R319) -/

/-- The request, its record and how it is held left open. -/
def SameReq (q r : Req) : Prop := ∃ record since held, r = { q with record := record, heldFrom := since, wasHeld := held }
/-- What a request that is held leaves of the state. -/
def OnlyHeld (t v : State) : Prop := ∃ regs reqs, v = { t with regs := regs, reqs := reqs }
theorem State.onlyHeld_putReq (s : State) (r : Req) : OnlyHeld s (s.putReq r) := ⟨_, _, rfl⟩
theorem State.onlyHeld_bump (s : State) (o : Nat) (f : Fld) : OnlyHeld s (s.bump o f) := ⟨_, _, rfl⟩
theorem OnlyHeld.refl (s : State) : OnlyHeld s s := ⟨_, _, rfl⟩
theorem OnlyHeld.trans (h : OnlyHeld s t) (h' : OnlyHeld t u) : OnlyHeld s u := by
  obtain ⟨_, _, rfl⟩ := h
  obtain ⟨_, _, rfl⟩ := h'
  exact ⟨_, _, rfl⟩
section
variable (h : OnlyHeld t v)
include h
theorem OnlyHeld.biWant : v.biWant = t.biWant := by obtain ⟨_, _, rfl⟩ := h; rfl
theorem OnlyHeld.kvOps : v.kvOps = t.kvOps := by obtain ⟨_, _, rfl⟩ := h; rfl
theorem OnlyHeld.host : v.host = t.host := by obtain ⟨_, _, rfl⟩ := h; rfl
theorem OnlyHeld.ctx : v.ctx x = t.ctx x := by obtain ⟨_, _, rfl⟩ := h; rfl
theorem OnlyHeld.queue : v.queue n = t.queue n := by obtain ⟨_, _, rfl⟩ := h; rfl
end
theorem State.holdReq_spec (hreqs : s.reqs = [r]) : OnlyHeld s (s.holdReq r) ∧ ∃ r', (s.holdReq r).reqs = [r'] ∧ SameReq r r' := by
  rw [State.holdReq]
  split
  · exact ⟨.refl s, r, hreqs, _, _, _, rfl⟩
  · refine ⟨.trans ?_ (State.onlyHeld_putReq ..), _, State.putReq_one (r := r) ?_ rfl, _, _, _, rfl⟩
    · split
      · exact .refl s
      · exact s.onlyHeld_bump ..
    · split
      · exact hreqs
      · exact (State.bump_reqs ..).trans hreqs
theorem State.turnFor_one (hreqs : s.reqs = [r]) : s.turnFor r = true := by
  rw [State.turnFor, hreqs, List.takeWhile_cons, if_neg (by simp)]
  rfl
theorem State.runningReq_none (hreqs : s.reqs = [r]) (hstart : r.started = false) : s.runningReq x = none := by
  rw [State.runningReq, hreqs, List.find?_cons, hstart, Bool.and_false, Bool.false_and]
  rfl
theorem State.mayStep_one (hreqs : s.reqs = [r]) (hstart : r.started = false) (hstuck : (s.queue r.queue).stuck = false) (hplaces : s.placesUsed < 1024) :
    s.mayStep r = true := by
  rw [State.mayStep, State.runningReq_none hreqs hstart, hstuck, if_neg (by simp), decide_eq_true (by omega)]
  rfl
theorem State.setReqs_self {l : List Req} (h : s.reqs = l) : s.setReqs l = s := by
  subst h
  rfl
theorem State.serveN_some {tried : List Nat} (hfind : (s.admissionOrder.find? fun r => s.dueReq r && !tried.contains r.id) = some r) :
    State.serveN (k + 1) tried s =
      State.serveN k (if ((s.stepReq r).reqs.any fun q => q.id == r.id && !q.started) = true then r.id :: tried else tried) (s.stepReq r) := by
  rw [State.serveN, hfind]
theorem State.serveN_none {tried : List Nat} (hfind : (s.admissionOrder.find? fun r => s.dueReq r && !tried.contains r.id) = none) :
    State.serveN k tried s = s := by
  cases k with
  | zero => rfl
  | succ k => rw [State.serveN, hfind]
theorem State.find_due (hreqs : s.reqs = [r]) (hdue : s.dueReq r = true) : (s.admissionOrder.find? fun r => s.dueReq r && !([] : List Nat).contains r.id) = some r := by
  rw [State.admissionOrder_one hreqs, List.find?_cons, hdue]
  rfl
theorem State.find_rest {tried : List Nat} (hreqs : s.reqs = [r]) (hrest : s.dueReq r = false) :
    (s.admissionOrder.find? fun r => s.dueReq r && !tried.contains r.id) = none := by
  rw [State.admissionOrder_one hreqs, List.find?_cons, hrest]
  rfl
theorem State.find_quiet {tried : List Nat} (hreqs : s.reqs = []) : (s.admissionOrder.find? fun r => s.dueReq r && !tried.contains r.id) = none := by
  rw [State.admissionOrder, hreqs]
  rfl
/-- A request that ends in its step leaves nothing to serve. -/
theorem State.serve_ends (hreqs : s.reqs = [r]) (hpark : s.host.parkDue = []) (hdue : s.dueReq r = true) (hstep : s.stepReq r = t) (hquiet : t.noRequests) :
    s.serve = t := by
  have hserve : State.serveN (3 * s.reqs.length + 1) [] s = t := by
    rw [State.serveN_some (State.find_due hreqs hdue), hstep, State.serveN_none (State.find_quiet hquiet.1)]
  have hall : s.serveReqs = t := by
    rw [State.serveReqs, State.parksDue_none hpark]
    rw [hserve, hquiet.1]
    rfl
  rw [State.serve, hall, State.kvRun_idle hquiet.2.2]
/-- A request that has begun, and has nothing to do now, is at most held. -/
theorem State.serve_begins (hreqs : s.reqs = [r]) (hpark : s.host.parkDue = []) (hdue : s.dueReq r = true) (hstep : s.stepReq r = t)
    (htreqs : t.reqs = [q]) (hstarted : q.started = true) (hrest : t.dueReq q = false) (hidle : t.kvIdle) :
    OnlyHeld t s.serve ∧ ∃ r', s.serve.reqs = [r'] ∧ SameReq q r' := by
  have hserve : State.serveN (3 * s.reqs.length + 1) [] s = t := by
    rw [State.serveN_some (State.find_due hreqs hdue), hstep, State.serveN_none (State.find_rest htreqs hrest)]
  have hall : OnlyHeld t s.serveReqs ∧ ∃ r', s.serveReqs.reqs = [r'] ∧ SameReq q r' := by
    rw [State.serveReqs, State.parksDue_none hpark]
    rw [hserve, htreqs, List.filter_cons]
    split
    · exact State.holdReq_spec htreqs
    · exact ⟨.refl t, q, htreqs, _, _, _, rfl⟩
  obtain ⟨hheld, hone⟩ := hall
  rw [State.serve, State.kvRun_idle (s := s.serveReqs) (by rw [State.kvIdle, hheld.kvOps]; exact hidle)]
  exact ⟨hheld, hone⟩
theorem State.dropRecords_none (h : s.reqs = []) : s.dropRecords = s := by
  rw [State.dropRecords, h]
  exact State.setReqs_self h

/-! ## A request ends (R326, R327) -/

/-- What the end of a request that is not running changes. -/
def OnlyEnded (s t : State) : Prop := ∃ regs queues reqs, t = { s with regs := regs, queues := queues, reqs := reqs }
theorem OnlyEnded.trans (h : OnlyEnded s t) (h' : OnlyEnded t u) : OnlyEnded s u := by
  obtain ⟨_, _, _, rfl⟩ := h
  obtain ⟨_, _, _, rfl⟩ := h'
  exact ⟨_, _, _, rfl⟩
section
variable (h : OnlyEnded s t)
include h
theorem OnlyEnded.biWant : t.biWant = s.biWant := by obtain ⟨_, _, _, rfl⟩ := h; rfl
theorem OnlyEnded.kvOps : t.kvOps = s.kvOps := by obtain ⟨_, _, _, rfl⟩ := h; rfl
theorem OnlyEnded.host : t.host = s.host := by obtain ⟨_, _, _, rfl⟩ := h; rfl
theorem OnlyEnded.ctx : t.ctx x = s.ctx x := by obtain ⟨_, _, _, rfl⟩ := h; rfl
end
def State.endStats (s : State) (r : Req) : State :=
  (if r.ttft = none ∧ r.ttftLimit ≠ 0 ∧ r.ttftLimit < s.hostTime - r.t0 then
    s.bump (Reg.SRV_CLS_TTFT_VIOL r.cls) Fl.SRV_CLS_TTFT_VIOL_COUNT else s).bump (Reg.SRV_CLS_REQS r.cls) Fl.SRV_CLS_REQS_COUNT
theorem State.endStats_regs (s : State) (r : Req) : ∃ regs, s.endStats r = { s with regs := regs } := by
  rw [State.endStats]
  split
  · exact ⟨_, rfl⟩
  · exact ⟨_, rfl⟩
/-- The completion that ends a request. -/
def State.lastCompl (s : State) (r : Req) (st : Nat) : Completion :=
  ⟨s.complBytes (s.freed r) (if r.stream && r.carry.isEmpty && r.emitted != 0 then s.hostTime - r.lastAt else r.gap) true r.late r.norm st, true⟩
def State.dropReq (s : State) (r : Req) : State := s.setReqs (s.reqs.filter fun q => q.id != r.id)
def State.reqEnded (s : State) (r : Req) (st : Nat) : State := ((s.pushCompl r.queue (s.lastCompl r st)).endStats r).dropReq r
theorem State.endReq_eq (s : State) (r : Req) (st : Nat) : s.endReq r st =
    if ((s.reqEnded r st).ctx r.ctx).st = .active ∧ r.runsPasses = true ∧ r.started = true then
      (s.reqEnded r st).setCtx r.ctx (((s.reqEnded r st).ctx r.ctx).withSt .resident) else s.reqEnded r st := rfl
theorem State.onlyEnded_reqEnded (s : State) (r : Req) (st : Nat) : OnlyEnded s (s.reqEnded r st) := by
  obtain ⟨regs, h⟩ := (s.pushCompl r.queue (s.lastCompl r st)).endStats_regs r
  rw [State.reqEnded, h]
  exact ⟨_, _, _, rfl⟩
theorem State.reqEnded_reqs (st : Nat) (hreqs : s.reqs = [r]) : (s.reqEnded r st).reqs = [] := by
  obtain ⟨regs, h⟩ := (s.pushCompl r.queue (s.lastCompl r st)).endStats_regs r
  rw [State.reqEnded, h, State.dropReq]
  show s.reqs.filter _ = []
  rw [hreqs, List.filter_cons, if_neg (by simp)]
  rfl
theorem State.reqEnded_queue (st : Nat) : (s.reqEnded r st).queue r.queue = { s.queue r.queue with waiting := (s.queue r.queue).waiting ++ [s.lastCompl r st] } := by
  obtain ⟨regs, h⟩ := (s.pushCompl r.queue (s.lastCompl r st)).endStats_regs r
  rw [State.reqEnded, h]
  exact State.queue_setQueue ..
theorem State.endReq_idle (st : Nat) (hst : (s.ctx r.ctx).st ≠ .active) : s.endReq r st = s.reqEnded r st := by
  rw [State.endReq_eq, if_neg]
  rw [(s.onlyEnded_reqEnded r st).ctx]
  exact fun h => hst h.1

/-! ## CREATE and DELETE (R311, R343) -/

/-- What serving a request by itself asks of it and of its queue. -/
structure Alone (s : State) (r : Req) : Prop where
  reqs : s.reqs = [r]
  park : s.host.parkDue = []
  idle : s.kvIdle
  started : r.started = false
  status : r.status = none
  stuck : (s.queue r.queue).stuck = false
  places : s.placesUsed < 1024
theorem Alone.may (h : Alone s r) : (s.turnFor r && s.mayStep r && r.status.isNone) = true := by
  rw [State.turnFor_one h.reqs, State.mayStep_one h.reqs h.started h.stuck h.places, h.status]
  rfl
/-- A request that ends in its step: what is left, with its completion waiting. -/
structure EndsIn (s : State) (r : Req) (k : Ctx) (t : State) : Prop where
  quiet : t.noRequests
  ctx : t.ctx r.ctx = k
  biWant : t.biWant = s.biWant
  waiting : (t.queue r.queue).waiting.length = (s.queue r.queue).waiting.length + 1
theorem State.endReq_ends (st : Nat) (hreqs : s.reqs = [r]) (hpark : s.host.parkDue = []) (hidle : s.kvIdle) (hst : (s.ctx r.ctx).st ≠ .active) :
    EndsIn s r (s.ctx r.ctx) (s.endReq r st) := by
  have hend := s.onlyEnded_reqEnded r st
  rw [State.endReq_idle st hst]
  refine ⟨⟨State.reqEnded_reqs st hreqs, (congrArg _ hend.host).trans hpark, ?_⟩, hend.ctx, hend.biWant, ?_⟩
  · rw [State.kvIdle, hend.kvOps]
    exact hidle
  · rw [State.reqEnded_queue, List.length_append, List.length_singleton]
theorem EndsIn.of_same {k : Ctx} (h : EndsIn u r k t) (hbi : u.biWant = s.biWant) (hqueues : u.queues = s.queues) : EndsIn s r k t := by
  refine ⟨h.quiet, h.ctx, h.biWant.trans hbi, h.waiting.trans ?_⟩
  rw [State.queue, State.queue, hqueues]
theorem State.serve_endsIn {k : Ctx} (h : Alone s r) (hdue : s.dueReq r = true) (hend : EndsIn s r k (s.stepReq r)) :
    EndsIn s r k s.serve.dropRecords := by
  rw [State.serve_ends h.reqs h.park hdue rfl hend.quiet, State.dropRecords_none hend.quiet.1]
  exact hend
/-- A record is as good with other registers, but for those of its partition. -/
theorem State.recordBad_congr {p : Nat} {b : List Byte} (h : t.rd (Reg.SRV_KV_CTL p) = s.rd (Reg.SRV_KV_CTL p)) :
    t.recordBad rec p x b = s.recordBad rec p x b := by
  rw [State.recordBad, State.recordBad, State.flag, State.flag, State.fld, State.fld, h]
theorem State.part_congr (h : t.parts = s.parts) (p : Nat) : t.part p = s.part p := by rw [State.part, State.part, h]
theorem State.loaded_congr {p : Nat} (h : t.parts = s.parts) (hrd : t.rd (Reg.BLK_PART_STAT p) = s.rd (Reg.BLK_PART_STAT p)) : t.loaded p = s.loaded p := by
  rw [State.loaded, State.loaded, State.part_congr h, State.partState, State.partState, State.fld, State.fld, hrd]
theorem State.ctx_congr (h : t.ctxs = s.ctxs) (x : Nat) : t.ctx x = s.ctx x := by rw [State.ctx, State.ctx, h]
theorem State.countKnown_ctx (s : State) (i : Int) (x : Nat) : (s.countKnown i).ctx x = s.ctx x := State.ctx_congr (State.setFld_ctxs ..) x
theorem State.createWith_good {b : List Byte} (hpart : s.part r.part = some rec) (hloaded : s.loaded r.part = true) (hp : r.part < 16)
    (hfree : (s.ctx r.ctx).st = .free) (hgood : s.recordBad rec r.part r.ctx b = false) :
    s.createWith r b = (((s.count Reg.HIF_LOFT_RD 4096).setCtx r.ctx (ctxOf b)).countKnown 1).endReq r cplOk := by
  have hstat : Reg.BLK_PART_STAT r.part ≠ Reg.HIF_LOFT_RD := by
    unfold Reg.BLK_PART_STAT Reg.HIF_LOFT_RD
    omega
  have hkv : Reg.SRV_KV_CTL r.part ≠ Reg.HIF_LOFT_RD := by
    unfold Reg.SRV_KV_CTL Reg.HIF_LOFT_RD
    omega
  have hbad : (s.count Reg.HIF_LOFT_RD 4096).recordBad rec r.part r.ctx b = false :=
    (State.recordBad_congr (State.rd_wr_other _ _ _ _ hkv)).trans hgood
  rw [State.createWith, hpart]
  dsimp only
  rw [State.loaded_congr (State.count_parts ..) (State.rd_wr_other _ _ _ _ hstat), hloaded, State.ctx_congr (State.count_ctxs ..), hbad, if_neg (by decide), if_neg (by rw [hfree]; decide), if_neg (by decide)]
/-- The parts that serving depends on, but for the contexts. -/
structure Keeps (s t : State) : Prop where
  tracked : t.tracked = s.tracked
  biWant : t.biWant = s.biWant
  reqs : t.reqs = s.reqs
  park : t.host.parkDue = s.host.parkDue
  queues : t.queues = s.queues
  idle : s.kvIdle → t.kvIdle
theorem SameWork.keeps {b : Prop} (h : SameWork b s t) : Keeps s t := ⟨h.tracked, h.biWant, h.reqs, h.park, h.queues, h.idle⟩
theorem State.keeps_setCtx (s : State) (x : Nat) (c : Ctx) : Keeps s (s.setCtx x c) := ⟨rfl, rfl, rfl, rfl, rfl, id⟩
theorem Keeps.trans (h : Keeps s t) (h' : Keeps t u) : Keeps s u :=
  ⟨h'.tracked.trans h.tracked, h'.biWant.trans h.biWant, h'.reqs.trans h.reqs, h'.park.trans h.park, h'.queues.trans h.queues, h'.idle ∘ h.idle⟩
/-- Once a context is made or given up, its request ends. -/
theorem State.known_ends {c : Ctx} {i : Int} (h : Alone s r) (hwork : Keeps s v) (hc : c.st ≠ .active) :
    EndsIn s r c (((v.setCtx r.ctx c).countKnown i).endReq r cplOk) := by
  have hctx : ((v.setCtx r.ctx c).countKnown i).ctx r.ctx = c := (State.countKnown_ctx ..).trans State.setCtx_same
  have hend := State.endReq_ends (s := (v.setCtx r.ctx c).countKnown i) (r := r) cplOk ((State.setFld_reqs ..).trans (hwork.reqs.trans h.reqs))
    ((congrArg _ (State.setFld_host ..)).trans (hwork.park.trans h.park))
    (fun o ho => hwork.idle h.idle o (by rwa [State.countKnown, State.setFld_kvOps] at ho)) (by rw [hctx]; exact hc)
  rw [hctx] at hend
  exact hend.of_same ((State.setFld_biWant ..).trans hwork.biWant) ((State.setFld_queues ..).trans hwork.queues)
theorem ctxOf_st (b : List Byte) : (ctxOf b).st = .parked := rfl
theorem State.create_step {b : List Byte} (hlines : s.tracked = []) (h : Alone s r) (hop : r.op = opCreate) (hrecord : r.record = some b) (hpart : s.part r.part = some rec)
    (hloaded : s.loaded r.part = true) (hp : r.part < 16) (hfree : (s.ctx r.ctx).st = .free) (hgood : s.recordBad rec r.part r.ctx b = false) :
    EndsIn s r (ctxOf b) (s.stepReq r) := by
  have hstep : s.stepReq r = (s.emit (.hostRead (recordAddr s r.ctx) 4096)).createWith r b := by
    rw [State.stepReq, if_pos hop, State.startCreate, if_neg (by rw [hfree]; decide), if_neg (by rw [hloaded]; decide)]
    dsimp only
    rw [hrecord]
  rw [hstep, State.createWith_good (s := s.emit (.hostRead (recordAddr s r.ctx) 4096)) hpart hloaded hp hfree hgood]
  exact State.known_ends h (((s.works_emit _).trans (State.works_count ..)).same hlines).keeps (by rw [ctxOf_st]; decide)

theorem State.works_lookBook {b : Prop} (s : State) (p : PartRec) (a k : Nat) : Works b s (s.lookBook p a k) := by
  cases h : p.bookCore with
  | none => rw [State.lookBook, h]; exact .refl
  | some c => rw [State.lookBook, h]; exact s.works_look ..
theorem State.works_lookChain {b : Prop} (s : State) (p : PartRec) (c : Ctx) : Works b s (s.lookChain p c) :=
  .foldl (fun (s : State) (n : Nat × Nat) => s.works_lookBook p n.1 1) s
theorem State.works_addRefs {b : Prop} (s : State) (p : PartRec) (a : Nat) (i : Int) : Works b s (s.addRefs p a i) := by
  rw [State.addRefs, State.setBookNum]
  cases h : p.bookCore with
  | none => exact .refl
  | some c => exact s.works_store ..
/-- A context's references to nodes of the book are given up. -/
def State.unreferred (s : State) (x : Nat) (old : State) : Option PartRec → State
  | none => s
  | some p => ((s.chainOf p (s.ctx x)).filter fun n : Nat × Nat => old.refersTo x n.1).foldl (fun (s : State) (n : Nat × Nat) =>
      s.addRefs p n.1 (-1)) (s.lookChain p (s.ctx x))
theorem State.dropBook_eq (s : State) (x : Nat) : ∃ c, s.dropBook x = (s.unreferred x s (s.part (s.ctx x).part)).setCtx x c := by
  cases h : s.part (s.ctx x).part with
  | none => rw [State.dropBook, h]; exact ⟨_, rfl⟩
  | some p => rw [State.dropBook, h]; exact ⟨_, rfl⟩
theorem State.works_unreferred {b : Prop} (s : State) (x : Nat) (old : State) (p : Option PartRec) : Works b s (s.unreferred x old p) := by
  cases p with
  | none => exact .refl
  | some p => exact (s.works_lookChain p _).trans (.foldl (fun (s : State) (n : Nat × Nat) => s.works_addRefs p n.1 (-1)) _)
theorem State.keeps_dropBook (hlines : s.tracked = []) (x : Nat) : Keeps s (s.dropBook x) := by
  obtain ⟨c, h⟩ := s.dropBook_eq x
  rw [h]
  exact ((s.works_unreferred (b := False) x s _).same hlines).keeps.trans (State.keeps_setCtx ..)
theorem State.keeps_freeResident (hlines : s.tracked = []) (x : Nat) : Keeps s (s.freeResident x) := by
  obtain ⟨u, hwork, ⟨h, -⟩ | h⟩ := State.freeResident_spec hlines x
  · rw [h]
    exact hwork.keeps
  · rw [h]
    exact hwork.keeps.trans (State.keeps_setCtx ..)
theorem State.delete_step (hlines : s.tracked = []) (h : Alone s r) (hop : r.op = opDelete) (hst : (s.ctx r.ctx).st = .resident)
    (hquiet : s.quiet r.ctx = true) : EndsIn s r ctxZero (s.stepReq r) := by
  have hdrop := State.keeps_dropBook hlines r.ctx
  have hfree := State.keeps_freeResident (hdrop.tracked.trans hlines) r.ctx
  have hwrite := (((s.dropBook r.ctx).freeResident r.ctx).writeRecord_spec r.ctx 0).1.same (hfree.tracked.trans (hdrop.tracked.trans hlines))
  have hstep : s.stepReq r = (s.deleteCtx r.ctx).endReq r cplOk := by
    rw [State.stepReq, if_neg (by rw [hop]; decide), if_neg (by rw [hop]; decide), if_pos hop, State.startDelete,
      if_neg (by rw [hst]; decide), if_neg (by rw [hst, hquiet]; decide), State.runningReq_none h.reqs h.started]
  rw [hstep, State.deleteCtx]
  exact State.known_ends h ((hdrop.trans hfree).trans hwrite.keeps) (by decide)

/-! ## The state of a fetch -/

/-- A good descriptor whose request is the only one. -/
structure Comes (s : State) (n : Nat) (d : List Byte) (rec : PartRec) : Prop where
  quiet : s.noRequests
  lines : s.noHostLines
  turn : s.turnOf = some n
  link : s.flag Reg.HIF_STAT Fl.HIF_STAT_LINK_UP = true
  good : descBad d = false
  places : s.placesUsed < 1024
  stuck : (s.queue n).stuck = false
  tenant : s.tenantOn (leAt d 4 2) = true
  alive : s.fatal = false
  wf : swf (fun _ => queueZero) s.queues = true
  part : s.part (leAt d 7 1 % 16) = some rec
  ready : s.partState (leAt d 7 1 % 16) = 3
/-- The state of a fetched request: the parts that a fetch changes, with the queue's completions as they were. -/
structure Fetched (s : State) (n : Nat) (u : State) : Prop where
  only : ∃ out turn queues id reqs, u = s.patched out turn queues id reqs
  waiting : (u.queue n).waiting = (s.queue n).waiting
section
variable (h : Fetched s n u)
include h
theorem Fetched.tracked : u.tracked = s.tracked := by obtain ⟨⟨_, _, _, _, _, rfl⟩, -⟩ := h; rfl
theorem Fetched.biWant : u.biWant = s.biWant := by obtain ⟨⟨_, _, _, _, _, rfl⟩, -⟩ := h; rfl
theorem Fetched.regs : u.regs = s.regs := by obtain ⟨⟨_, _, _, _, _, rfl⟩, -⟩ := h; rfl
theorem Fetched.parts : u.parts = s.parts := by obtain ⟨⟨_, _, _, _, _, rfl⟩, -⟩ := h; rfl
theorem Fetched.ctxs : u.ctxs = s.ctxs := by obtain ⟨⟨_, _, _, _, _, rfl⟩, -⟩ := h; rfl
theorem Fetched.passes : u.passes = s.passes := by obtain ⟨⟨_, _, _, _, _, rfl⟩, -⟩ := h; rfl
theorem Fetched.kvOps : u.kvOps = s.kvOps := by obtain ⟨⟨_, _, _, _, _, rfl⟩, -⟩ := h; rfl
theorem Fetched.fatal : u.fatal = s.fatal := by obtain ⟨⟨_, _, _, _, _, rfl⟩, -⟩ := h; rfl
theorem Fetched.ctx (x : Nat) : u.ctx x = s.ctx x := State.ctx_congr h.ctxs x
theorem Fetched.part (p : Nat) : u.part p = s.part p := State.part_congr h.parts p
theorem Fetched.rd (o : Nat) : u.rd o = s.rd o := State.rd_congr h.regs o
theorem Fetched.partState (p : Nat) : u.partState p = s.partState p := by rw [State.partState, State.partState, State.fld, State.fld, h.rd]
theorem Fetched.quiet (x : Nat) : u.quiet x = s.quiet x := by rw [State.quiet, State.quiet, State.passOf, State.passOf, h.passes, h.kvOps]
theorem Fetched.tenantOn (i : Nat) : u.tenantOn i = s.tenantOn i := by rw [State.tenantOn, State.tenantOn, State.flag_congr (h.rd _)]
end
theorem Comes.fetched {op : Nat} {prompt : List Word} {record : Option (List Byte)} (h : Comes s n d rec) (hop : leAt d 0 1 = op)
    (hprompt : op = opGenerate ∨ op = opAdapt → leAt d 12 4 ≤ prompt.length) :
    ∃ u id limit, s.descriptor op n (some d) prompt record = u.serve.dropRecords ∧ Fetched s n u ∧
      Alone u (reqOf id n s.hostTime limit d (prompt.map fun w => w.toNat) record) := by
  obtain ⟨out, turn, id, limit, hdesc⟩ := State.descriptor_some (record := record) h.turn h.link hop h.quiet.1 h.good h.tenant hprompt
  refine ⟨_, id, limit, hdesc, ⟨⟨_, _, _, _, _, rfl⟩, by rw [State.gotReq_queue, Queue.advanced_waiting]⟩, rfl, h.quiet.2.1, h.quiet.2.2, rfl, rfl, ?_, ?_⟩
  · show (State.queue _ n).stuck = false
    rw [State.gotReq_queue, Queue.advanced_stuck, h.stuck]
  · rw [State.gotReq_places _ _ h.quiet.1 rfl h.wf]
    exact h.places
theorem Fetched.loaded (h : Fetched s n u) (hs : Comes s n d rec) : u.loaded (leAt d 7 1 % 16) = true := by
  rw [State.loaded, h.part, h.partState, hs.part, hs.ready]
  rfl
/-- A request that ends at once: its context, nothing left to serve, and one more completion. -/
theorem EndsIn.settled {c : Ctx} (hend : EndsIn u r c t) (h : Fetched s n u) (hs : Comes s n d rec) (hqueue : r.queue = n) (hctx : r.ctx = x) :
    s.settle t = t ∧ t.ctx x = c ∧ t.reqs = [] ∧ (t.queue n).waiting.length = (s.queue n).waiting.length + 1 := by
  have hwait := hend.waiting
  rw [hqueue, h.waiting] at hwait
  exact ⟨State.settle_of_still _ _ (hend.biWant.trans (h.biWant.trans hs.lines.2)), hctx ▸ hend.ctx, hend.quiet.1, hwait⟩
theorem create_spec {q : QueueId} {b : List Byte} (hs : Comes s q d rec) (hop : leAt d 0 1 = opCreate) (hfree : (s.ctx (leAt d 2 2)).st = .free)
    (hgood : s.recordBad rec (leAt d 7 1 % 16) (leAt d 2 2) b = false) :
    ∃ t, exec (.create q (some d) (some b)) s = .next t ∧ t.ctx (leAt d 2 2) = ctxOf b ∧ (t.ctx (leAt d 2 2)).st = .parked ∧ t.reqs = [] ∧
      (t.queue q).waiting.length = (s.queue q).waiting.length + 1 := by
  obtain ⟨u, id, limit, hdesc, hf, halone⟩ := hs.fetched (record := some b) (prompt := []) hop (fun h => by rcases h with h | h <;> exact absurd h (by decide))
  generalize hr : reqOf id q s.hostTime limit d (([] : List Word).map fun w => w.toNat) (some b) = r at *
  have hrop : r.op = opCreate := by rw [← hr]; exact hop
  have hctx : r.ctx = leAt d 2 2 := by rw [← hr]; rfl
  have hpart : r.part = leAt d 7 1 % 16 := by rw [← hr]; rfl
  have hdue : u.dueReq r = true := by
    rw [State.dueReq, halone.may, if_pos hrop, halone.started, hpart, hf.partState, hs.ready]
    rfl
  have hend := State.serve_endsIn halone hdue (State.create_step (rec := rec) (b := b) (hf.tracked.trans hs.lines.1) halone hrop (by rw [← hr]; rfl)
    (by rw [hpart, hf.part, hs.part]) (by rw [hpart]; exact hf.loaded hs) (by rw [hpart]; omega) (by rw [hctx, hf.ctx, hfree])
    (by rw [hpart, hctx, State.recordBad_congr (hf.rd _), hgood]))
  obtain ⟨hset, hnew, hreqs, hwait⟩ := hend.settled hf hs (by rw [← hr]; rfl) hctx
  refine ⟨_, ?_, hnew, by rw [hnew, ctxOf_st], hreqs, hwait⟩
  show execCreate q (some d) (some b) s = _
  rw [execCreate, hdesc, hset]
theorem delete_spec {q : QueueId} (hs : Comes s q d rec) (hop : leAt d 0 1 = opDelete) (hst : (s.ctx (leAt d 2 2)).st = .resident)
    (hpart : (s.ctx (leAt d 2 2)).part = leAt d 7 1 % 16) (hquiet : s.quiet (leAt d 2 2) = true) :
    ∃ t, exec (.delete q (some d)) s = .next t ∧ t.ctx (leAt d 2 2) = ctxZero ∧ t.reqs = [] ∧
      (t.queue q).waiting.length = (s.queue q).waiting.length + 1 := by
  obtain ⟨u, id, limit, hdesc, hf, halone⟩ := hs.fetched (record := none) (prompt := []) hop (fun h => by rcases h with h | h <;> exact absurd h (by decide))
  generalize hr : reqOf id q s.hostTime limit d (([] : List Word).map fun w => w.toNat) none = r at *
  have hrop : r.op = opDelete := by rw [← hr]; exact hop
  have hctx : r.ctx = leAt d 2 2 := by rw [← hr]; rfl
  have huquiet : u.quiet r.ctx = true := by rw [hf.quiet, hctx, hquiet]
  have hdue : u.dueReq r = true := by
    rw [State.dueReq, halone.may, if_neg (by rw [hrop]; decide), if_neg (by rw [hrop]; decide), if_pos hrop, huquiet, hctx, hf.ctx, hst, hpart,
      hf.partState, hs.ready]
    rfl
  have hend := State.serve_endsIn halone hdue (State.delete_step (hf.tracked.trans hs.lines.1) halone hrop (by rw [hctx, hf.ctx, hst]) huquiet)
  obtain ⟨hset, hnew, hreqs, hwait⟩ := hend.settled hf hs (by rw [← hr]; rfl) hctx
  refine ⟨_, ?_, hnew, hreqs, hwait⟩
  show execDelete q (some d) s = _
  rw [execDelete, hdesc, hset]

/-! ## A request begins -/

/-- What is left once a request that has begun is the only one. -/
structure BeginsAs (t : State) (q : Req) (v : State) : Prop where
  biWant : v.biWant = t.biWant
  ctx : v.ctx x = t.ctx x
  reqs : ∃ r', v.reqs = [r'] ∧ SameReq q r'
theorem State.serve_begun (h : Alone s r) (hdue : s.dueReq r = true) (hstep : s.stepReq r = t)
    (htreqs : t.reqs = [q]) (hstarted : q.started = true) (hrest : t.dueReq q = false) (hidle : t.kvIdle) : BeginsAs (x := x) t q s.serve.dropRecords := by
  obtain ⟨hheld, r', hone, record, since, held, hsame⟩ := State.serve_begins h.reqs h.park hdue hstep htreqs hstarted hrest hidle
  refine ⟨hheld.biWant, hheld.ctx, { r' with record := none }, ?_, none, since, held, ?_⟩
  · rw [State.dropRecords, hone]
    rfl
  · rw [hsame]

/-! ## PARK (R339) -/

theorem State.works_setHold {b : Prop} (s : State) (x tag c : Nat) (h : KvHold) : Works b s (s.setHold x tag c h) :=
  ⟨fun _ => ⟨rfl, rfl, rfl, rfl, rfl, rfl, id, fun _ _ _ => rfl⟩⟩
theorem State.works_unneed {b : Prop} (s : State) (l : LayerKv) (x mask : Nat) : Works b s (s.unneed l x mask) :=
  (s.works_setReserves _).trans (.foldl (fun (s : State) (q : KvReserve) => s.works_markSlot l q.slot false) _)
theorem State.works_rollbackLayer {b : Prop} (s : State) (l : LayerKv) (x c mask : Nat) : Works b s (s.rollbackLayer l x c mask) := by
  rw [State.rollbackLayer]
  exact .ite ((s.works_setHold ..).trans (State.works_unneed ..)) (s.works_setHold ..)
theorem State.works_rollbackAll {b : Prop} (s : State) (x : Nat) : Works b s (s.rollbackAll x) :=
  .foldl (fun (s : State) (l : LayerKv) => .foldl (fun (s : State) (c : Nat) =>
    (s.works_rollbackLayer l x c 0xFFFF).trans (State.works_rollbackLayer ..)) s) s
theorem State.works_saveDigests (s : State) (x : Nat) (l : LayerKv) (e : MapEntry) : Works False s (s.saveDigests x l e) :=
  .foldl (fun (s : State) (b : Nat) => ((s.works_look ..).trans (State.works_emit ..)).trans (State.works_count ..)) s
/-- The pages of a context in one layer that a park writes. -/
def State.savePages (s : State) (x r : Nat) (detach : Bool) (l : LayerKv) : State :=
  ((s.mapList l r).filter fun e => (e.2.state == 1 && !s.loftClean.contains (x, l.tag, e.2.block)) || (detach && e.2.state == 2)).foldl
    (fun (s : State) e => ((s.lookPage l e.2.slot).emit (.hostWrite (s.loftPage x l e.2.block)
      (s.bytes l.lead (l.slotAt e.2.slot) pageBytes))).loftWrote pageBytes) (s.lookMap l r)
theorem State.works_savePages (s : State) (x r : Nat) (detach : Bool) (l : LayerKv) : Works False s (s.savePages x r detach l) :=
  (s.works_lookMap l r).trans (.foldl (fun (s : State) (e : Nat × MapEntry) => ((s.works_look ..).trans (State.works_emit ..)).trans (State.works_count ..)) _)
theorem State.parkLayer_eq (s : State) (x r : Nat) (detach : Bool) (l : LayerKv) : s.parkLayer x r detach l = if l.draft = true then s else
    if (s.savePages x r detach l).recallOn x = true then
      (((s.savePages x r detach l).mapList l r).filter fun e => e.2.state == 4).foldl (fun (s : State) e => s.saveDigests x l e.2) (s.savePages x r detach l)
    else s.savePages x r detach l := rfl
theorem State.works_parkLayer (s : State) (x r : Nat) (detach : Bool) (l : LayerKv) : Works False s (s.parkLayer x r detach l) := by
  rw [State.parkLayer_eq]
  exact .ite .refl (.ite ((s.works_savePages ..).trans (.foldl (fun (s : State) (e : Nat × MapEntry) => s.works_saveDigests x l e.2) _)) (s.works_savePages ..))
theorem State.works_saveAdapter (s : State) (x : Nat) : Works False s (s.saveAdapter x) := by
  rw [State.saveAdapter]
  dsimp only
  split
  · exact ((s.works_look ..).trans (State.works_emit ..)).trans (State.works_count ..)
  · exact .refl
theorem State.keeps_launch (s t : State) (owner : Nat) : Keeps t (s.launch t owner) := ⟨rfl, rfl, rfl, rfl, rfl, id⟩
theorem State.launch_ctx (s t : State) (owner : Nat) : (s.launch t owner).ctx x = t.ctx x := rfl
/-- With no line of the aperture cached, a step leaves those parts. -/
structure Keeping (s t : State) : Prop where
  same : s.tracked = [] → Keeps s t
theorem Keeping.trans (h : Keeping s t) (h' : Keeping t u) : Keeping s u :=
  ⟨fun hs => (h.same hs).trans (h'.same ((h.same hs).tracked.trans hs))⟩
theorem Keeping.ite {p : Prop} [Decidable p] (h : Keeping s t) (h' : Keeping s u) : Keeping s (if p then t else u) := by
  split
  · exact h
  · exact h'
theorem Works.keeping {b : Prop} (h : Works b s t) : Keeping s t := ⟨fun hs => (h.same hs).keeps⟩
theorem State.keeping_setCtx (s : State) (x : Nat) (c : Ctx) : Keeping s (s.setCtx x c) := ⟨fun _ => s.keeps_setCtx x c⟩
theorem State.keeping_dropBook (s : State) (x : Nat) : Keeping s (s.dropBook x) := ⟨fun hs => State.keeps_dropBook hs x⟩
/-- The pages of a residence that a park writes. -/
def State.parkPages (s : State) (x n : Nat) (detach : Bool) : State :=
  let k := s.ctx x
  let s := s.rollbackAll x
  let s := s.setCtx x { s.ctx x with pins := s.pinsOf x n }
  (s.kvLayers k.part).foldl (fun (s : State) l => s.parkLayer x n detach l) s
theorem State.keeping_parkPages (s : State) (x n : Nat) (detach : Bool) : Keeping s (s.parkPages x n detach) :=
  ((s.works_rollbackAll (b := False) x).keeping.trans (State.keeping_setCtx ..)).trans
    (Works.foldl (fun (s : State) (l : LayerKv) => s.works_parkLayer x n detach l) _).keeping
/-- What a park sends to the host. -/
def State.sendPark (s : State) (x n : Nat) (detach : Bool) : State :=
  let t := if (s.ctx x).adapter then (s.parkPages x n detach).saveAdapter x else s.parkPages x n detach
  if detach then t.dropBook x else t
theorem State.keeping_sendPark (s : State) (x n : Nat) (detach : Bool) : Keeping s (s.sendPark x n detach) := by
  have hadapter := Keeping.ite (p := (s.ctx x).adapter = true) ((s.keeping_parkPages x n detach).trans ((s.parkPages x n detach).works_saveAdapter x).keeping)
    (s.keeping_parkPages x n detach)
  exact .ite (hadapter.trans (State.keeping_dropBook ..)) hadapter
/-- A context whose park has begun. -/
def State.parkingCtx (s : State) (k : Ctx) (reason : Nat) : Ctx := { k with st := .parking, reason := reason, homeModule := s.module }
theorem State.beginPark_eq {reason : Nat} {detach : Bool} (h : (s.ctx x).resident = some n) : s.beginPark x reason detach =
    s.launch ((s.sendPark x n detach).setCtx x ((s.sendPark x n detach).parkingCtx ((s.sendPark x n detach).ctx x) reason)) x := by
  rw [State.beginPark, h]
  rfl
theorem State.beginPark_spec (hlines : s.tracked = []) {reason : Nat} {detach : Bool} (h : (s.ctx x).resident = some n) :
    Keeps s (s.beginPark x reason detach) ∧ ((s.beginPark x reason detach).ctx x).st = .parking ∧ ((s.beginPark x reason detach).ctx x).reason = reason := by
  rw [State.beginPark_eq h]
  refine ⟨(((s.keeping_sendPark x n detach).same hlines).trans (State.keeps_setCtx ..)).trans (State.keeps_launch ..), ?_, ?_⟩
  · rw [State.launch_ctx, State.setCtx_same, State.parkingCtx]
  · rw [State.launch_ctx, State.setCtx_same, State.parkingCtx]
theorem park_spec {q : QueueId} (hs : Comes s q d rec) (hop : leAt d 0 1 = opPark) (hst : (s.ctx (leAt d 2 2)).st = .resident)
    (hpart : (s.ctx (leAt d 2 2)).part = leAt d 7 1 % 16) (hres : (s.ctx (leAt d 2 2)).resident.isSome = true) (hquiet : s.quiet (leAt d 2 2) = true) :
    ∃ t, exec (.park q (some d)) s = .next t ∧ (t.ctx (leAt d 2 2)).st = .parking ∧ (t.ctx (leAt d 2 2)).reason = 1 ∧
      ∃ r, t.reqs = [r] ∧ r.started = true := by
  obtain ⟨u, id, limit, hdesc, hf, halone⟩ := hs.fetched (record := none) (prompt := []) hop (fun h => by rcases h with h | h <;> exact absurd h (by decide))
  generalize hr : reqOf id q s.hostTime limit d (([] : List Word).map fun w => w.toNat) none = r at *
  have hrop : r.op = opPark := by rw [← hr]; exact hop
  have hctx : r.ctx = leAt d 2 2 := by rw [← hr]; rfl
  obtain ⟨n, hn⟩ := Option.isSome_iff_exists.1 hres
  have huquiet : u.quiet r.ctx = true := by rw [hf.quiet, hctx, hquiet]
  have hust : (u.ctx r.ctx).st = .resident := by rw [hctx, hf.ctx, hst]
  have hstopped : u.stopped (u.ctx r.ctx).part = false := by
    rw [State.stopped, hctx, hf.ctx, hpart, hf.partState, hs.ready, hf.fatal, hs.alive]
    rfl
  have hdue : u.dueReq r = true := by
    rw [State.dueReq, halone.may, if_neg (by rw [hrop]; decide), if_pos hrop, huquiet, hust, hstopped]
    rfl
  have hstep : u.stepReq r = (u.putReq { r with started := true, status := some cplOk, reason := 1 }).beginPark r.ctx 1 r.detach := by
    rw [State.stepReq, if_neg (by rw [hrop]; decide), if_pos hrop, State.startPark, if_neg (by rw [hust]; decide), if_neg (by rw [hust]; decide),
      if_pos ⟨hust, huquiet⟩]
  obtain ⟨hkeep, hparking, hreason⟩ := State.beginPark_spec (s := u.putReq { r with started := true, status := some cplOk, reason := 1 }) (x := r.ctx)
    (reason := 1) (detach := r.detach) (hf.tracked.trans hs.lines.1) (n := n) (by rw [State.putReq_ctx, hctx, hf.ctx, hn])
  generalize (u.putReq { r with started := true, status := some cplOk, reason := 1 }).beginPark r.ctx 1 r.detach = t at *
  obtain ⟨hbi, hsame, r', hreqs, _, _, _, hreq⟩ := State.serve_begun (x := leAt d 2 2) halone hdue hstep
    (hkeep.reqs.trans (State.putReq_one halone.reqs rfl)) rfl (by rw [State.dueReq]; simp) (hkeep.idle halone.idle)
  refine ⟨_, ?_, by rw [hsame, ← hctx, hparking], by rw [hsame, ← hctx, hreason], r', hreqs, by rw [hreq]⟩
  show execPark q (some d) s = _
  rw [execPark, hdesc, State.settle_of_still _ _ (hbi.trans (hkeep.biWant.trans (hf.biWant.trans hs.lines.2)))]

/-! ## GENERATE and ADAPT (R316, R346) -/

/-- What the lookup of the book leaves of the state and of the request's own context. -/
structure SameRun (x : Nat) (s t : State) : Prop where
  keeps : Keeps s t
  regs : ∀ o, HostReg o → t.rd o = s.rd o
  st : (t.ctx x).st = (s.ctx x).st
  temperature : (t.ctx x).temperature = (s.ctx x).temperature
theorem SameRun.trans (h : SameRun x s t) (h' : SameRun x t u) : SameRun x s u :=
  ⟨h.keeps.trans h'.keeps, fun o ho => (h'.regs o ho).trans (h.regs o ho), h'.st.trans h.st, h'.temperature.trans h.temperature⟩
/-- With no line of the aperture cached, a step leaves those parts. -/
structure Runs (x : Nat) (s t : State) : Prop where
  same : s.tracked = [] → SameRun x s t
theorem Runs.refl : Runs x s s := ⟨fun _ => ⟨⟨rfl, rfl, rfl, rfl, rfl, id⟩, fun _ _ => rfl, rfl, rfl⟩⟩
theorem Runs.trans (h : Runs x s t) (h' : Runs x t u) : Runs x s u :=
  ⟨fun hs => (h.same hs).trans (h'.same ((h.same hs).keeps.tracked.trans hs))⟩
theorem Runs.foldl {α : Type} {f : State → α → State} {as : List α} (hf : ∀ s a, Runs x s (f s a)) (s : State) : Runs x s (as.foldl f s) :=
  List.foldlRecOn (motive := Runs x s) as f .refl fun t ht a _ => ht.trans (hf t a)
theorem Works.runs (h : Works True s t) : Runs x s t :=
  ⟨fun hs => ⟨(h.same hs).keeps, (h.same hs).regs trivial, by rw [(h.same hs).ctx], by rw [(h.same hs).ctx]⟩⟩
theorem State.runs_setCtx {c : Ctx} (hst : c.st = (s.ctx x).st) (htemp : c.temperature = (s.ctx x).temperature) : Runs x s (s.setCtx x c) :=
  ⟨fun _ => ⟨s.keeps_setCtx x c, fun _ _ => rfl, by rw [State.setCtx_same, hst], by rw [State.setCtx_same, htemp]⟩⟩
theorem State.works_setMapEntry {b : Prop} (s : State) (l : LayerKv) (r i : Nat) (e : MapEntry) : Works b s (s.setMapEntry l r i e) := s.works_storeSet ..
/-- A node attached in one layer. -/
def State.attachLayer (s : State) (p r m a b : Nat) (l : LayerKv) : State :=
  match s.bookSlot p l.tag a, (s.unusedEntries l r).head? with
  | some k, some i => s.setMapEntry l r i ⟨b, k, 2, false, m, a⟩
  | _, _ => s
theorem State.works_attachLayer {b : Prop} (s : State) (p r m a c : Nat) (l : LayerKv) : Works b s (s.attachLayer p r m a c l) := by
  rw [State.attachLayer]
  split
  · exact s.works_setMapEntry ..
  · exact .refl
theorem State.attach_eq (s : State) (x p : Nat) (rec : PartRec) (a b m : Nat) : ∃ t, Works True s t ∧
    s.attach x p rec a b m = t.setCtx x { t.ctx x with bookNode := some a, bookFill := m } :=
  ⟨(State.kvLayers (s.addRefs rec a 1) p).foldl (fun (t : State) l => t.attachLayer p ((s.addRefs rec a 1).residentOf x) m a b l) (s.addRefs rec a 1),
    (s.works_addRefs rec a 1).trans (.foldl (fun (t : State) (l : LayerKv) => t.works_attachLayer ..) _), rfl⟩
theorem State.runs_attach (s : State) (p : Nat) (rec : PartRec) (a b m : Nat) : Runs x s (s.attach x p rec a b m) := by
  obtain ⟨t, hwork, h⟩ := s.attach_eq x p rec a b m
  rw [h]
  exact hwork.runs.trans (State.runs_setCtx rfl rfl)
/-- The page maps and the book read for a lookup. -/
def State.bookLooked (s : State) (r : Req) (p : PartRec) : State :=
  (s.kvLayers (s.ctx r.ctx).part).foldl (fun (s : State) l => s.lookMap l (s.residentOf r.ctx)) (s.lookBook p 0 p.bookNodes)
/-- The nodes that a lookup finds, attached. -/
def State.bookAttached (s : State) (x p : Nat) (rec : PartRec) (hits : List (Nat × Nat)) : State :=
  hits.zipIdx.foldl (fun (s : State) h => s.attach x p rec h.1.1 h.2 h.1.2) s
/-- What they cover, committed on every core. -/
def State.bookHeld (s : State) (x p n : Nat) : State :=
  (s.kvLayers p).foldl (fun (s : State) l =>
    l.set.foldl (fun (s : State) c => s.setHold x l.tag c { s.hold x l.tag c with committed := n }) s) s
def Ctx.covered (k : Ctx) (r : Req) (n : Nat) : Ctx :=
  let hist := if k.nextToken.isSome then k.history ++ (r.input.take n).drop 1 else k.history ++ r.input.take n
  { k with committed := n, nextToken := none, history := hist.drop (hist.length - 768) }
theorem State.runs_bookLooked (s : State) (r : Req) (p : PartRec) : Runs x s (s.bookLooked r p) :=
  ((s.works_lookBook p 0 _).trans (.foldl (fun (s : State) (l : LayerKv) => s.works_lookMap ..) _)).runs
theorem State.runs_bookAttached (s : State) (p : Nat) (rec : PartRec) (hits : List (Nat × Nat)) : Runs x s (s.bookAttached x p rec hits) :=
  .foldl (fun (s : State) (h : (Nat × Nat) × Nat) => s.runs_attach p rec h.1.1 h.2 h.1.2) s
theorem State.runs_bookHeld (s : State) (p n : Nat) : Runs x s (s.bookHeld x p n) :=
  (Works.foldl (fun (s : State) (l : LayerKv) => .foldl (fun (s : State) (c : Nat) => s.works_setHold ..) s) s).runs
theorem State.lookupBook_off (h : r.useBook = false) : s.lookupBook r = (s, r) := by
  cases hpart : s.part (s.ctx r.ctx).part with
  | none => rw [State.lookupBook, hpart]
  | some p => rw [State.lookupBook, hpart, h]; rfl
theorem State.lookupBook_some {p : PartRec} (hpart : s.part (s.ctx r.ctx).part = some p) : s.lookupBook r = (s, r) ∨ s.lookupBook r = (s.bookLooked r p, r) ∨
    ∃ hits n t, t = ((s.bookLooked r p).bookAttached r.ctx (s.ctx r.ctx).part p hits).bookHeld r.ctx (s.ctx r.ctx).part n ∧
      s.lookupBook r = (t.setCtx r.ctx ((t.ctx r.ctx).covered r n), { r with input := r.input.drop n }) := by
  rw [State.lookupBook, hpart]
  dsimp only
  rw [← State.bookLooked]
  split
  · exact .inl rfl
  · split
    · exact .inr (.inl rfl)
    · exact .inr (.inr ⟨_, _, _, rfl, rfl⟩)
theorem State.lookupBook_spec (s : State) (r : Req) : Runs r.ctx s (s.lookupBook r).1 ∧ ∃ i, (s.lookupBook r).2 = { r with input := i } := by
  cases hpart : s.part (s.ctx r.ctx).part with
  | none =>
    rw [State.lookupBook, hpart]
    exact ⟨.refl, r.input, rfl⟩
  | some p =>
    obtain h | h | ⟨hits, n, t, ht, h⟩ := State.lookupBook_some hpart
    · rw [h]
      exact ⟨.refl, r.input, rfl⟩
    · rw [h]
      exact ⟨s.runs_bookLooked r p, r.input, rfl⟩
    · have hrun : Runs r.ctx s t := by
        rw [ht]
        exact ((s.runs_bookLooked r p).trans (State.runs_bookAttached ..)).trans (State.runs_bookHeld ..)
      rw [h]
      exact ⟨hrun.trans (State.runs_setCtx rfl rfl), _, rfl⟩
/-- A context whose request runs. -/
def Ctx.running (k : Ctx) (r : Req) (time : Nat) : Ctx :=
  { k with st := .active, temperature := r.temperature, topK := r.topK, topP := r.topP, lastActive := time, draws := 0 }
def Req.begun (r : Req) : Req := { r with started := true }
theorem State.activate_eq (s : State) (r : Req) : s.activate r =
    let t := s.setCtx r.ctx ((s.ctx r.ctx).running r s.hostTime)
    (t.lookupBook (t.prepare r)).1.putReq ((t.lookupBook (t.prepare r)).1.freed (t.lookupBook (t.prepare r)).2).begun := rfl
theorem State.prepare_spec (s : State) (r : Req) : ∃ i k, s.prepare r = { r with input := i, keep := k } := by
  rw [State.prepare]
  dsimp only
  split
  · exact ⟨r.input, r.keep, rfl⟩
  · split
    · exact ⟨r.input, r.keep, rfl⟩
    · split
      · exact ⟨_, _, rfl⟩
      · exact ⟨_, r.keep, rfl⟩
theorem State.prepare_adapt (s : State) (h : r.op = opAdapt) : s.prepare r = r := by
  rw [State.prepare, if_pos h]
theorem dropLast_ne_nil {l : List Nat} (h : 2 ≤ l.length) : l.dropLast ≠ [] := by
  intro hnil
  have := congrArg List.length hnil
  rw [List.length_dropLast, List.length_nil] at this
  omega
/-- Of two tokens or more one at least is input, though the last is kept back. -/
theorem State.prepare_input (s : State) (hop : r.op ≠ opAdapt) (h : 2 ≤ r.input.length) : (s.prepare r).input ≠ [] := by
  have hne : r.input ≠ [] := by
    rintro h0
    rw [h0] at h
    exact absurd h (by decide)
  rw [State.prepare, if_neg hop, if_neg (by rw [List.isEmpty_iff]; exact hne)]
  cases (s.ctx r.ctx).nextToken with
  | none =>
    dsimp only [List.nil_append]
    split
    · exact dropLast_ne_nil h
    · exact hne
  | some a =>
    dsimp only
    split
    · exact dropLast_ne_nil (by rw [List.length_append]; omega)
    · exact List.append_ne_nil_of_right_ne_nil _ hne
/-- A begun request with input, or with tokens to draw, is not at its end. -/
theorem Req.atEnd_more (hstopped : q.stopped = false) (hdrawn : q.drawn = 0) (h : q.op = opGenerate ∧ 0 < q.tokens ∨ q.input ≠ []) : q.atEnd = false := by
  rw [Req.atEnd]
  rcases h with ⟨hop, htokens⟩ | hinput
  · rw [hop, hstopped, hdrawn, decide_eq_false (by omega)]
    simp [opGenerate, opAdapt]
  · rw [List.isEmpty_eq_false_iff.2 hinput]
    rfl
/-- A begun request whose context is ACTIVE and that is not at its end waits for a pass. -/
theorem State.dueReq_waiting (hop : q.runsPasses = true) (hstarted : q.started = true) (hst : (s.ctx q.ctx).st = .active) (hend : q.atEnd = false)
    (htenant : s.tenantOn q.tenant = true) : s.dueReq q = false := by
  have hops : q.op = opGenerate ∨ q.op = opAdapt := by simpa [Req.runsPasses] using hop
  have hne : q.op ≠ opCreate ∧ q.op ≠ opPark ∧ q.op ≠ opDelete := by
    rcases hops with h | h <;> rw [h] <;> decide
  obtain ⟨hcreate, hpark, hdelete⟩ := hne
  rw [State.dueReq, if_neg hcreate, if_neg hpark, if_neg hdelete, hstarted, hst, hend, htenant]
  simp
/-- What is left where a request of passes begins. -/
structure RunBegins (s : State) (r : Req) (t : State) (q : Req) : Prop where
  biWant : t.biWant = s.biWant
  idle : t.kvIdle
  reqs : t.reqs = [q]
  started : q.started = true
  rest : t.dueReq q = false
  st : (t.ctx r.ctx).st = .active
  temperature : (t.ctx r.ctx).temperature = r.temperature
  same : ∃ i k h, q = { r with input := i, keep := k, held := h, heldFrom := none, started := true }
  input : r.useBook = false → ∃ v : State, q.input = (v.prepare r).input
theorem State.run_begins (hlines : s.tracked = []) (h : Alone s r) (hop : r.runsPasses = true) (hst : (s.ctx r.ctx).st = .resident)
    (hpart : (s.ctx r.ctx).part = r.part) (hloaded : s.loaded r.part = true) (hstopped : r.stopped = false) (hdrawn : r.drawn = 0)
    (hten : r.tenant < 1024) (hon : s.tenantOn r.tenant = true)
    (hmore : r.op = opGenerate ∧ 0 < r.tokens ∨ r.useBook = false ∧ ∀ v : State, (v.prepare r).input ≠ []) :
    ∃ q, RunBegins s r (s.stepReq r) q := by
  have hops : r.op = opGenerate ∨ r.op = opAdapt := by simpa [Req.runsPasses] using hop
  have hne : r.op ≠ opCreate ∧ r.op ≠ opPark ∧ r.op ≠ opDelete ∧ r.op ≠ opResume := by
    rcases hops with h | h <;> rw [h] <;> decide
  obtain ⟨hcreate, hpark, hdelete, hresume⟩ := hne
  have hstep : s.stepReq r = s.activate r := by
    rw [State.stepReq, if_neg hcreate, if_neg hpark, if_neg hdelete, if_neg (by rw [h.started]; simp), State.startRun, if_neg (by rw [hst]; decide),
      if_neg (by rw [hloaded]; decide), if_neg (by rw [hst]; decide), if_pos hst, if_neg (fun hp => hp hpart), if_neg hresume]
  rw [hstep, State.activate_eq]
  dsimp only
  have hactive : ((s.setCtx r.ctx ((s.ctx r.ctx).running r s.hostTime)).ctx r.ctx).st = .active := by rw [State.setCtx_same, Ctx.running]
  have htemp : ((s.setCtx r.ctx ((s.ctx r.ctx).running r s.hostTime)).ctx r.ctx).temperature = r.temperature := by rw [State.setCtx_same, Ctx.running]
  have hset := s.keeps_setCtx r.ctx ((s.ctx r.ctx).running r s.hostTime)
  have hregs (o : Nat) : (s.setCtx r.ctx ((s.ctx r.ctx).running r s.hostTime)).rd o = s.rd o := rfl
  generalize s.setCtx r.ctx ((s.ctx r.ctx).running r s.hostTime) = u at *
  obtain ⟨i, k, hprep⟩ := u.prepare_spec r
  obtain ⟨hruns, i', hreq⟩ := u.lookupBook_spec (u.prepare r)
  have hoff : r.useBook = false → (u.lookupBook (u.prepare r)).2 = u.prepare r := fun hb => by
    rw [State.lookupBook_off (by rw [hprep]; exact hb)]
  have hfound := hruns.same (hset.tracked.trans hlines)
  replace hreq := hreq.trans (congrArg (fun q : Req => { q with input := i' }) hprep)
  have hkeep := hset.trans hfound.keeps
  have hctx : (u.prepare r).ctx = r.ctx := by rw [hprep]
  rw [hctx] at hfound
  have htenant : (u.lookupBook (u.prepare r)).1.tenantOn r.tenant = true := by
    rw [State.tenantOn, State.flag_congr ((hfound.regs _ (.inr ⟨_, hten, rfl⟩)).trans (hregs _))]
    exact hon
  generalize (u.lookupBook (u.prepare r)).1 = w at *
  generalize (u.lookupBook (u.prepare r)).2 = q at *
  have hinput : r.op = opGenerate ∧ 0 < r.tokens ∨ q.input ≠ [] := hmore.imp id fun hb => by
    rw [hoff hb.1]
    exact hb.2 u
  have hreqs : (w.putReq (w.freed q).begun).reqs = [(w.freed q).begun] :=
    State.putReq_one (hkeep.reqs.trans h.reqs) (by rw [hreq]; rfl)
  have hend : (w.freed q).begun.atEnd = false := Req.atEnd_more (by rw [hreq]; exact hstopped) (by rw [hreq]; exact hdrawn)
    (hinput.imp (fun h => by rw [hreq]; exact h) id)
  refine ⟨_, hkeep.biWant, hkeep.idle h.idle, hreqs, rfl, ?_, hfound.st.trans hactive, hfound.temperature.trans htemp, ?_, fun hb => ⟨u, ?_⟩⟩
  · refine State.dueReq_waiting ?_ rfl ?_ hend ?_
    · rw [hreq]
      exact hop
    · rw [hreq]
      exact hfound.st.trans hactive
    · rw [hreq]
      exact htenant
  · rw [hreq]
    exact ⟨_, _, _, rfl⟩
  · exact (congrArg Req.input (hoff hb) : q.input = _)

theorem Comes.tenant_lt (h : Comes s n d rec) : leAt d 4 2 < 1024 := by
  have hgood := h.good
  rw [descBad] at hgood
  simp only [Bool.or_eq_false_iff, decide_eq_false_iff_not] at hgood
  omega
/-- A descriptor of a request of passes, whose context is resident, makes it run. -/
theorem Comes.runs {op : Nat} {prompt : List Word} {record : Option (List Byte)} (hs : Comes s n d rec) (hop : leAt d 0 1 = op)
    (hops : op = opGenerate ∨ op = opAdapt) (hst : (s.ctx (leAt d 2 2)).st = .resident) (hpart : (s.ctx (leAt d 2 2)).part = leAt d 7 1 % 16)
    (hprompt : leAt d 12 4 ≤ prompt.length)
    (hmore : ∀ id limit, let r := reqOf id n s.hostTime limit d (prompt.map fun w => w.toNat) record
      op = opGenerate ∧ 0 < leAt d 8 4 ∨ r.useBook = false ∧ ∀ v : State, (v.prepare r).input ≠ []) :
    ∃ t q id limit, let r := reqOf id n s.hostTime limit d (prompt.map fun w => w.toNat) record
      s.settle (s.descriptor op n (some d) prompt record) = t ∧ (t.ctx (leAt d 2 2)).st = .active ∧ (t.ctx (leAt d 2 2)).temperature = leAt d 36 2 ∧
      t.reqs = [q] ∧ q.started = true ∧ q.ctx = leAt d 2 2 ∧ q.tokens = leAt d 8 4 ∧ (r.useBook = false → ∃ v : State, q.input = (v.prepare r).input) := by
  obtain ⟨u, id, limit, hdesc, hf, halone⟩ := hs.fetched (record := record) hop fun _ => hprompt
  have hmore := hmore id limit
  generalize hr : reqOf id n s.hostTime limit d (prompt.map fun w => w.toNat) record = r at *
  have hctx : r.ctx = leAt d 2 2 := by rw [← hr]; rfl
  have hrpart : r.part = leAt d 7 1 % 16 := by rw [← hr]; rfl
  have hrten : r.tenant = leAt d 4 2 := by rw [← hr]; rfl
  have hrop : r.op = op := by rw [← hr]; exact hop
  have hpass : r.runsPasses = true := by rw [Req.runsPasses, hrop]; rcases hops with h | h <;> rw [h] <;> rfl
  have hust : (u.ctx r.ctx).st = .resident := by rw [hctx, hf.ctx, hst]
  have hloaded : u.loaded r.part = true := by rw [hrpart]; exact hf.loaded hs
  have hne : r.op ≠ opCreate ∧ r.op ≠ opPark ∧ r.op ≠ opDelete := by
    rcases hops with h | h <;> rw [hrop, h] <;> decide
  obtain ⟨hcreate, hpark, hdelete⟩ := hne
  have hstopped : u.stopped r.part = false := by
    rw [State.stopped, hrpart, hf.partState, hs.ready, hf.fatal, hs.alive]
    rfl
  have hdue : u.dueReq r = true := by
    rw [State.dueReq, halone.may, if_neg hcreate, if_neg hpark, if_neg hdelete, halone.started, if_pos (by rfl), hust, hloaded, hstopped]
    rfl
  obtain ⟨q, hrun⟩ := State.run_begins (hf.tracked.trans hs.lines.1) halone hpass hust (by rw [hctx, hf.ctx, hpart, hrpart]) hloaded (by rw [← hr]; rfl)
    (by rw [← hr]; rfl) (by rw [hrten]; exact hs.tenant_lt) (by rw [hrten, hf.tenantOn, hs.tenant]) (hmore.imp (fun h => ⟨hrop.trans h.1, by rw [← hr]; exact h.2⟩) fun h => h)
  obtain ⟨hbi, hsame, r', hreqs, record, since, held, hreq⟩ := State.serve_begun (x := leAt d 2 2) halone hdue rfl hrun.reqs hrun.started hrun.rest hrun.idle
  obtain ⟨i, k, held', hq⟩ := hrun.same
  have hst' := hrun.st
  have htemp := hrun.temperature
  rw [hctx, ← hsame] at hst' htemp
  refine ⟨_, r', id, limit, rfl, ?_, ?_, ?_, by rw [hreq]; exact hrun.started, by rw [hreq, hq]; exact hctx, by rw [hreq, hq, ← hr]; rfl, ?_⟩
  · rw [hdesc, State.settle_of_still _ _ (hbi.trans (hrun.biWant.trans (hf.biWant.trans hs.lines.2)))]
    exact hst'
  · rw [hdesc, State.settle_of_still _ _ (hbi.trans (hrun.biWant.trans (hf.biWant.trans hs.lines.2))), htemp, ← hr]
    rfl
  · rw [hdesc, State.settle_of_still _ _ (hbi.trans (hrun.biWant.trans (hf.biWant.trans hs.lines.2)))]
    exact hreqs
  · intro hb
    obtain ⟨v, hv⟩ := hrun.input (by rw [← hr]; exact hb)
    exact ⟨v, by rw [hreq, hr]; exact hv⟩
theorem useBook_off {id limit : Nat} {prompt : List Nat} {record : Option (List Byte)} (h : bitOf (leAt d 1 1) 1 = false) :
    (reqOf id n k limit d prompt record).useBook = false := h
theorem reqOf_input (id limit : Nat) (prompt : List Nat) (record : Option (List Byte)) :
    (reqOf id n k limit d prompt record).input = prompt.take (leAt d 12 4) := rfl
theorem generate_spec {q : QueueId} (hs : Comes s q d rec) {prompt : List Word} {record : Option (List Byte)} (hop : leAt d 0 1 = opGenerate)
    (hst : (s.ctx (leAt d 2 2)).st = .resident) (hpart : (s.ctx (leAt d 2 2)).part = leAt d 7 1 % 16)
    (hprompt : leAt d 12 4 ≤ prompt.length) (hmore : 0 < leAt d 8 4 ∨ (bitOf (leAt d 1 1) 1 = false ∧ 2 ≤ leAt d 12 4)) :
    ∃ t, exec (.generate q (some d) prompt record) s = .next t ∧ (t.ctx (leAt d 2 2)).st = .active ∧ (t.ctx (leAt d 2 2)).temperature = leAt d 36 2 ∧
      ∃ r, t.reqs = [r] ∧ r.started = true ∧ r.ctx = leAt d 2 2 ∧ r.tokens = leAt d 8 4 := by
  obtain ⟨t, r, id, limit, ht, hact, htemp, hreqs, hstarted, hctx, htokens, -⟩ := hs.runs (record := record) hop (.inl rfl) hst hpart hprompt
    fun id limit => hmore.imp (fun h => ⟨rfl, h⟩) fun ⟨hb, hlen⟩ => ⟨useBook_off hb, fun v => v.prepare_input (by rw [reqOf]; dsimp only; rw [hop]; decide) (by
      rw [reqOf_input, List.length_take, List.length_map]
      omega)⟩
  exact ⟨t, congrArg _ ht, hact, htemp, r, hreqs, hstarted, hctx, htokens⟩
theorem adapt_spec {q : QueueId} (hs : Comes s q d rec) {prompt : List Word} {record : Option (List Byte)} (hop : leAt d 0 1 = opAdapt)
    (hst : (s.ctx (leAt d 2 2)).st = .resident) (hpart : (s.ctx (leAt d 2 2)).part = leAt d 7 1 % 16) (hpos : 0 < leAt d 12 4)
    (hprompt : leAt d 12 4 ≤ prompt.length) (hbook : bitOf (leAt d 1 1) 1 = false) :
    ∃ t, exec (.adapt q (some d) prompt record) s = .next t ∧ (t.ctx (leAt d 2 2)).st = .active ∧
      ∃ r, t.reqs = [r] ∧ r.started = true ∧ r.input = (prompt.map fun w => w.toNat).take (leAt d 12 4) := by
  have hadapt (id limit : Nat) (v : State) := v.prepare_adapt (r := reqOf id q s.hostTime limit d (prompt.map fun w => w.toNat) record) hop
  obtain ⟨t, r, id, limit, ht, hact, -, hreqs, hstarted, -, -, hinput⟩ := hs.runs (record := record) hop (.inr rfl) hst hpart hprompt
    fun id limit => .inr ⟨useBook_off hbook, fun v => by
      rw [hadapt, reqOf_input]
      intro hnil
      have := congrArg List.length hnil
      rw [List.length_take, List.length_map, List.length_nil] at this
      omega⟩
  obtain ⟨v, hv⟩ := hinput (useBook_off hbook)
  rw [hadapt, reqOf_input] at hv
  exact ⟨t, congrArg _ ht, hact, r, hreqs, hstarted, hv⟩

/-! ## RESUME (R340) -/

/-- The parts that decide whether a context's layers have room. -/
structure SameRoom (s t : State) : Prop where
  tracked : s.tracked = []
  tracked' : t.tracked = []
  kvSlots : t.kvSlots = s.kvSlots
  bookSlots : t.bookSlots = s.bookSlots
  ctxs : t.ctxs = s.ctxs
/-- With no line of the aperture cached, a step leaves those parts. -/
structure RoomKept (s t : State) : Prop where
  same : s.tracked = [] → SameRoom s t
theorem RoomKept.refl : RoomKept s s := ⟨fun h => ⟨h, h, rfl, rfl, rfl⟩⟩
theorem RoomKept.trans (h : RoomKept s t) (h' : RoomKept t u) : RoomKept s u :=
  ⟨fun hs => ⟨hs, (h'.same (h.same hs).tracked').tracked', (h'.same (h.same hs).tracked').kvSlots.trans (h.same hs).kvSlots,
    (h'.same (h.same hs).tracked').bookSlots.trans (h.same hs).bookSlots, (h'.same (h.same hs).tracked').ctxs.trans (h.same hs).ctxs⟩⟩
theorem RoomKept.foldl {α : Type} {f : State → α → State} {as : List α} (hf : ∀ s a, RoomKept s (f s a)) (s : State) : RoomKept s (as.foldl f s) :=
  List.foldlRecOn (motive := RoomKept s) as f .refl fun t ht a _ => ht.trans (hf t a)
/-- Two states in which the layers have the same room still have it after steps that leave it. -/
theorem SameRoom.step (h : SameRoom s t) (hs : RoomKept s u) (ht : RoomKept t v) : SameRoom u v := by
  have hu := hs.same h.tracked
  have hv := ht.same h.tracked'
  exact ⟨hu.tracked', hv.tracked', hv.kvSlots.trans (h.kvSlots.trans hu.kvSlots.symm), hv.bookSlots.trans (h.bookSlots.trans hu.bookSlots.symm),
    hv.ctxs.trans (h.ctxs.trans hu.ctxs.symm)⟩
theorem Written.roomKept (h : Written s t) : RoomKept s t := by
  obtain ⟨⟨_, _, _, _, _, rfl⟩, -, -⟩ := h
  exact ⟨fun hs => ⟨hs, hs, rfl, rfl, rfl⟩⟩
theorem State.roomKept_store (s : State) (d o : Nat) (bs : List Byte) : RoomKept s (s.store d o bs) := by
  rw [State.store]
  split
  · exact ⟨fun hs => ⟨hs, hs, rfl, rfl, rfl⟩⟩
  · exact ⟨fun hs => (State.onlyStores_storeNow hs d o bs).written.roomKept.same hs⟩
theorem State.roomKept_setMapEntry (s : State) (l : LayerKv) (r i : Nat) (e : MapEntry) : RoomKept s (s.setMapEntry l r i e) :=
  .foldl (fun (s : State) (d : Nat) => s.roomKept_store d ..) s
theorem State.roomKept_setHold (s : State) (x tag c : Nat) (h : KvHold) : RoomKept s (s.setHold x tag c h) := ⟨fun hs => ⟨hs, hs, rfl, rfl, rfl⟩⟩
theorem State.roomKept_recallNamed (s : State) (x tag b : Nat) : RoomKept s (s.recallNamed x tag b) := ⟨fun hs => ⟨hs, hs, rfl, rfl, rfl⟩⟩
theorem SameRoom.markSlot (h : SameRoom s t) (l : LayerKv) (k : Nat) (b : Bool) : SameRoom (s.markSlot l k b) (t.markSlot l k b) :=
  ⟨h.tracked, h.tracked', congrArg (fun m => l.set.foldl (fun m c => swrite (fun _ => false) m (c * 4096 + k) b) m) h.kvSlots, h.bookSlots, h.ctxs⟩
theorem SameRoom.freeSlots (h : SameRoom s t) (l : LayerKv) : t.freeSlots l = s.freeSlots l := by
  have hused (c k : Nat) : t.slotUsed c k = s.slotUsed c k := by rw [State.slotUsed, State.slotUsed, h.kvSlots]
  rw [State.freeSlots, State.freeSlots]
  simp only [hused]
theorem SameRoom.ctx (h : SameRoom s t) (x : Nat) : t.ctx x = s.ctx x := State.ctx_congr h.ctxs x
theorem SameRoom.planFull (h : SameRoom s t) (x : Nat) (l : LayerKv) (es : List MapEntry) : t.planFull x l es = s.planFull x l es := by
  rw [State.planFull, State.planFull, h.freeSlots, State.recallOn, State.recallOn, State.pagesMax, State.pagesMax, h.ctx]
theorem State.chainOf_none {c : Ctx} (hbook : c.bookNode = none) (s : State) (p : PartRec) : s.chainOf p c = [] := by
  rw [State.chainOf, hbook]
theorem SameRoom.resumePlan (h : SameRoom s t) (hbook : (s.ctx x).bookNode = none) (p : PartRec) (l : LayerKv) :
    t.resumePlan x p l = s.resumePlan x p l := by
  have hrecall : t.recallOn x = s.recallOn x := by rw [State.recallOn, State.recallOn, h.ctx]
  have hwindow : t.kvWindow x = s.kvWindow x := by rw [State.kvWindow, State.kvWindow, h.ctx]
  simp only [State.resumePlan, hrecall, hwindow, h.ctx, State.chainOf_none hbook, List.map_nil]
/-- One entry of a resume's plan takes its slot. -/
def State.installEntry (s : State) (x r p : Nat) (l : LayerKv) (e : MapEntry × Nat) : State :=
  if e.1.state = 2 then
    match s.bookSlot p l.tag e.1.node with
    | none => s
    | some k => s.setMapEntry l r e.2 { e.1 with slot := k }
  else
    match (s.freeSlots l).head? with
    | none => s
    | some k =>
      let s := (s.markSlot l k true).setMapEntry l r e.2 { e.1 with slot := k }
      if e.1.state = 3 then s.recallNamed x l.tag e.1.block else s
/-- What a core of a layer holds of a resuming context. -/
def State.installHolds (s : State) (x n : Nat) (l : LayerKv) : State :=
  l.set.foldl (fun (s : State) c => s.setHold x l.tag c { holdZero with committed := if l.draft then 0 else n }) s
theorem State.installPlan_eq (s : State) (x r p : Nat) (l : LayerKv) (es : List MapEntry) :
    s.installPlan x r p l es = (es.zipIdx.foldl (fun (s : State) e => s.installEntry x r p l e) s).installHolds x (s.ctx x).committed l := rfl
theorem SameRoom.installEntry (h : SameRoom s t) (x r p : Nat) (l : LayerKv) (e : MapEntry × Nat) :
    SameRoom (s.installEntry x r p l e) (t.installEntry x r p l e) := by
  have hbook : t.bookSlot p l.tag e.1.node = s.bookSlot p l.tag e.1.node := by rw [State.bookSlot, State.bookSlot, h.bookSlots]
  rw [State.installEntry, State.installEntry, hbook, h.freeSlots]
  split
  · cases s.bookSlot p l.tag e.1.node with
    | none => exact h
    | some k => exact h.step (s.roomKept_setMapEntry ..) (t.roomKept_setMapEntry ..)
  · cases (s.freeSlots l).head? with
    | none => exact h
    | some k =>
      have hmark := (h.markSlot l k true).step (State.roomKept_setMapEntry _ l r e.2 { e.1 with slot := k }) (State.roomKept_setMapEntry _ l r e.2 { e.1 with slot := k })
      dsimp only
      split
      · exact hmark.step (State.roomKept_recallNamed ..) (State.roomKept_recallNamed ..)
      · exact hmark
theorem SameRoom.installPlan (h : SameRoom s t) (x r p : Nat) (l : LayerKv) (es : List MapEntry) :
    SameRoom (s.installPlan x r p l es) (t.installPlan x r p l es) := by
  rw [State.installPlan_eq, State.installPlan_eq, h.ctx]
  have hentries := List.foldl_rel (l := es.zipIdx) (r := SameRoom) (f := fun s e => s.installEntry x r p l e) (g := fun s e => s.installEntry x r p l e) h
    fun e _ s t h => h.installEntry x r p l e
  exact hentries.step (.foldl (fun (s : State) (c : Nat) => s.roomKept_setHold ..) _) (.foldl (fun (s : State) (c : Nat) => s.roomKept_setHold ..) _)
theorem State.works_recallNamed {b : Prop} (s : State) (x tag a : Nat) : Works b s (s.recallNamed x tag a) :=
  ⟨fun _ => ⟨rfl, rfl, rfl, rfl, rfl, rfl, id, fun _ _ _ => rfl⟩⟩
theorem State.works_installEntry {b : Prop} (s : State) (x r p : Nat) (l : LayerKv) (e : MapEntry × Nat) : Works b s (s.installEntry x r p l e) := by
  rw [State.installEntry]
  split
  · cases s.bookSlot p l.tag e.1.node with
    | none => exact .refl
    | some k => exact s.works_setMapEntry ..
  · cases (s.freeSlots l).head? with
    | none => exact .refl
    | some k =>
      have hmark := (s.works_markSlot (b := b) l k true).trans (State.works_setMapEntry _ l r e.2 { e.1 with slot := k })
      exact .ite (hmark.trans (State.works_recallNamed ..)) hmark
theorem State.works_installPlan {b : Prop} (s : State) (x r p : Nat) (l : LayerKv) (es : List MapEntry) : Works b s (s.installPlan x r p l es) := by
  rw [State.installPlan_eq]
  exact (Works.foldl (fun (s : State) (e : MapEntry × Nat) => s.works_installEntry x r p l e) s).trans
    (.foldl (fun (s : State) (c : Nat) => s.works_setHold ..) _)
/-- Whether a context's layers have room depends on those parts only, and giving them room leaves what serving depends on. -/
theorem installPlans_spec {ls : List LayerKv} {p : Nat} (h : SameRoom s t) (hbook : (s.ctx x).bookNode = none)
    (hroom : (State.installPlans x n p rec ls s).isSome = true) : ∃ w, State.installPlans x n p rec ls t = some w ∧ Works False t w := by
  induction ls generalizing s t with
  | nil => exact ⟨t, rfl, .refl⟩
  | cons l ls ih =>
    have hplan := h.resumePlan hbook rec l
    have hctx := ((s.works_installPlan (b := False) x n p l (s.resumePlan x rec l)).same h.tracked).ctx x
    rw [State.installPlans] at hroom ⊢
    rw [hplan, h.planFull]
    by_cases hfull : s.planFull x l (s.resumePlan x rec l) = true
    · rw [if_pos hfull] at hroom
      exact absurd hroom (by decide)
    · rw [if_neg hfull] at hroom ⊢
      obtain ⟨w, hw, hwork⟩ := ih (h.installPlan x n p l (s.resumePlan x rec l)) (by rw [hctx]; exact hbook) hroom
      exact ⟨w, hw, (t.works_installPlan ..).trans hwork⟩
/-- A context whose resume begins, with its index. -/
def Ctx.resumes (b : List Byte) (old : Ctx) (p i : Nat) : Ctx :=
  { ctxOf b with
    lastActive := old.lastActive, ckPos := old.ckPos, ckNode := old.ckNode, ckFill := old.ckFill, ckSteps := old.ckSteps
    part := p, st := .resuming, resident := some i, slot := none, bank := false }
theorem State.takeKv_st (s : State) (x : Nat) : ((s.takeKv x).ctx x).st = (s.ctx x).st ∧ ((s.takeKv x).ctx x).resident = (s.ctx x).resident ∧
    ((s.takeKv x).ctx x).bookNode = (s.ctx x).bookNode := by
  rw [State.takeKv, State.setCtx_same]
  exact ⟨rfl, rfl, rfl⟩
/-- The context of a resuming request takes its index and its partition's settings. -/
def State.resumed (s : State) (r : Req) (b : List Byte) (i : Nat) : State :=
  (s.setCtx r.ctx (Ctx.resumes b (s.ctx r.ctx) r.part i)).takeKv r.ctx
theorem State.tryResume_go {b : List Byte} {i : Nat} (hrecord : r.record = some b) (hpart : s.part r.part = some rec)
    (hgood : s.recordBad rec r.part r.ctx b = false) (hadapter : (ctxOf b).adapter = false) (hbook : (ctxOf b).bookNode = none)
    (hfree : s.freeIndex r.part = some i)
    (hplans : State.installPlans r.ctx i r.part rec ((s.resumed r b i).kvLayers r.part) (s.resumed r b i) = some w) :
    s.tryResume r = .go (((((s.resumed r b i).kvLayers r.part).map fun l => w.resumeReads r.ctx i l).flatten ++ []).foldl
      (fun (t : State) (a : Nat × Nat) => t.emit (.hostRead a.1 a.2)) w) := by
  have hoff : ¬ (ctxOf b).adapter = true := by rw [hadapter]; decide
  rw [State.resumed, Ctx.resumes] at hplans ⊢
  rw [State.tryResume, hpart, hrecord]
  dsimp only
  rw [hgood, if_neg Bool.false_ne_true, if_neg (by rw [hbook]; simp), hfree]
  dsimp only
  rw [if_neg hoff]
  dsimp only
  rw [hplans]
  dsimp only
  rw [if_neg hoff]
/-- RESUME of a PARKED context that its partition has room for begins. -/
theorem State.resume_step {b : List Byte} {i : Nat} (hlines : s.tracked = []) (h : Alone s r) (hop : r.op = opResume) (hrecord : r.record = some b)
    (hpart : s.part r.part = some rec) (hloaded : s.loaded r.part = true) (hst : (s.ctx r.ctx).st = .parked)
    (hgood : s.recordBad rec r.part r.ctx b = false) (hadapter : (ctxOf b).adapter = false) (hbook : (ctxOf b).bookNode = none)
    (hfree : s.freeIndex r.part = some i)
    (hplans : State.installPlans r.ctx i r.part rec ((s.resumed r b i).kvLayers r.part) (s.resumed r b i) = some w) (hwork : Works False (s.resumed r b i) w) :
    ∃ q, (s.stepReq r).reqs = [q] ∧ q.started = true ∧ (s.stepReq r).dueReq q = false ∧ (s.stepReq r).kvIdle ∧ (s.stepReq r).biWant = s.biWant ∧
      ((s.stepReq r).ctx r.ctx).st = .resuming ∧ ((s.stepReq r).ctx r.ctx).resident = some i := by
  have hgo := State.tryResume_go hrecord hpart hgood hadapter hbook hfree hplans
  have hreads := (hwork.trans (.foldl (fun (t : State) (a : Nat × Nat) => t.works_emit (.hostRead a.1 a.2)) w
    (as := (((s.resumed r b i).kvLayers r.part).map fun l => w.resumeReads r.ctx i l).flatten ++ []))).same hlines
  generalize (List.foldl _ w _ : State) = v at hgo hreads
  have hkeep : Keeps s (s.resumed r b i) := (s.keeps_setCtx ..).trans (State.keeps_setCtx ..)
  have hctx : ((s.resumed r b i).ctx r.ctx).st = .resuming ∧ ((s.resumed r b i).ctx r.ctx).resident = some i := by
    obtain ⟨hst', hres', -⟩ := (s.setCtx r.ctx (Ctx.resumes b (s.ctx r.ctx) r.part i)).takeKv_st r.ctx
    rw [State.resumed, hst', hres', State.setCtx_same, Ctx.resumes]
    exact ⟨rfl, rfl⟩
  rw [← hreads.ctx] at hctx
  have hstep : s.stepReq r = (v.count Reg.HIF_LOFT_RD 4096).putReq (v.freed r).begun := by
    rw [State.stepReq, if_neg (by rw [hop]; decide), if_neg (by rw [hop]; decide), if_neg (by rw [hop]; decide), if_neg (by rw [h.started]; simp),
      State.startRun, if_neg (by rw [hst]; decide), if_neg (by rw [hloaded]; decide), if_pos hst, if_pos (by rw [hrecord]; rfl), State.bringIn, hpart, hrecord]
    dsimp only
    rw [State.lookChain, State.chainOf_none hbook, List.foldl_nil, hgo]
    dsimp only
    rw [if_pos hctx.1]
    rfl
  have hcount : SameWork False v (v.count Reg.HIF_LOFT_RD 4096) := (v.works_count ..).same (hreads.tracked.trans hlines)
  rw [hstep]
  rw [← hcount.ctx] at hctx
  have hall := hkeep.trans (hreads.keeps.trans hcount.keeps)
  generalize v.count Reg.HIF_LOFT_RD 4096 = u at *
  refine ⟨(v.freed r).begun, State.putReq_one (hall.reqs.trans h.reqs) rfl, rfl, ?_, hall.idle h.idle, hall.biWant, hctx.1, hctx.2⟩
  have hop' : (v.freed r).begun.op = opResume := hop
  have hst' : ((u.putReq (v.freed r).begun).ctx (v.freed r).begun.ctx).st = .resuming := hctx.1
  have hpass : (v.freed r).begun.runsPasses = false := by rw [Req.runsPasses, hop']; rfl
  rw [State.dueReq, hop', if_neg (by decide), if_neg (by decide), if_neg (by decide), hst', hpass]
  simp [Req.begun]
theorem State.kvLayers_congr (hlayers : t.layerKv = s.layerKv) (hparts : t.parts = s.parts) (p : Nat) : t.kvLayers p = s.kvLayers p := by
  rw [State.kvLayers, State.kvLayers, hlayers, State.understudy, State.understudy, State.part_congr hparts]
theorem Fetched.layerKv (h : Fetched s n u) : u.layerKv = s.layerKv := by obtain ⟨⟨_, _, _, _, _, rfl⟩, -⟩ := h; rfl
theorem Fetched.kvSlots (h : Fetched s n u) : u.kvSlots = s.kvSlots := by obtain ⟨⟨_, _, _, _, _, rfl⟩, -⟩ := h; rfl
theorem Fetched.bookSlots (h : Fetched s n u) : u.bookSlots = s.bookSlots := by obtain ⟨⟨_, _, _, _, _, rfl⟩, -⟩ := h; rfl
theorem Fetched.kvLayers (h : Fetched s n u) (p : Nat) : u.kvLayers p = s.kvLayers p := State.kvLayers_congr h.layerKv h.parts p
theorem Fetched.freeIndex (h : Fetched s n u) (p : Nat) : u.freeIndex p = s.freeIndex p := by
  have hshares (q : Nat) : u.sharesIndex p q = s.sharesIndex p q := by rw [State.sharesIndex, State.sharesIndex, h.kvLayers, h.kvLayers]
  rw [State.freeIndex, State.freeIndex, h.kvLayers, h.ctxs]
  simp only [hshares]
theorem State.takeKv_ctxs (hregs : t.regs = s.regs) (hctxs : t.ctxs = s.ctxs) (x : Nat) : (t.takeKv x).ctxs = (s.takeKv x).ctxs := by
  have hkv (p : Nat) : t.kvRegs p = s.kvRegs p := by
    simp only [State.kvRegs, State.rd_congr hregs]
  rw [State.takeKv, State.takeKv, hkv, State.ctx_congr hctxs, State.setCtx, State.setCtx, hctxs]
theorem resume_spec {q : QueueId} {b : List Byte} {i : Nat} (hs : Comes s q d rec) (hop : leAt d 0 1 = opResume) (hst : (s.ctx (leAt d 2 2)).st = .parked)
    (hgood : s.recordBad rec (leAt d 7 1 % 16) (leAt d 2 2) b = false) (hadapter : bitOf (leAt b 10 1) 1 = false) (hnode : bitOf (leAt b 10 1) 2 = false)
    (hfree : s.freeIndex (leAt d 7 1 % 16) = some i)
    (hroom : (State.installPlans (leAt d 2 2) i (leAt d 7 1 % 16) rec (s.kvLayers (leAt d 7 1 % 16))
      ((s.setCtx (leAt d 2 2) (Ctx.resumes b (s.ctx (leAt d 2 2)) (leAt d 7 1 % 16) i)).takeKv (leAt d 2 2))).isSome = true) :
    ∃ t, exec (.resume q (some d) (some b)) s = .next t ∧ (t.ctx (leAt d 2 2)).st = .resuming ∧ (t.ctx (leAt d 2 2)).resident = some i ∧
      ∃ r, t.reqs = [r] ∧ r.started = true := by
  obtain ⟨u, id, limit, hdesc, hf, halone⟩ := hs.fetched (record := some b) (prompt := []) hop (fun h => by rcases h with h | h <;> exact absurd h (by decide))
  generalize hr : reqOf id q s.hostTime limit d (([] : List Word).map fun w => w.toNat) (some b) = r at *
  have hrop : r.op = opResume := by rw [← hr]; exact hop
  have hctx : r.ctx = leAt d 2 2 := by rw [← hr]; rfl
  have hpart : r.part = leAt d 7 1 % 16 := by rw [← hr]; rfl
  have hrecord : r.record = some b := by rw [← hr]; rfl
  have hloaded : u.loaded r.part = true := by rw [hpart]; exact hf.loaded hs
  have hstopped : u.stopped r.part = false := by
    rw [State.stopped, hpart, hf.partState, hs.ready, hf.fatal, hs.alive]
    rfl
  have hust : (u.ctx r.ctx).st = .parked := by rw [hctx, hf.ctx, hst]
  have hdue : u.dueReq r = true := by
    rw [State.dueReq, halone.may, if_neg (by rw [hrop]; decide), if_neg (by rw [hrop]; decide), if_neg (by rw [hrop]; decide), halone.started,
      if_pos (by rfl), hust, hloaded, hstopped]
    rfl
  rw [← hctx, ← hpart] at hroom hgood
  rw [← hpart] at hfree
  have hnone : (ctxOf b).bookNode = none := by
    rw [ctxOf]
    dsimp only
    rw [hnode]
    rfl
  have hroomy : SameRoom ((s.setCtx r.ctx (Ctx.resumes b (s.ctx r.ctx) r.part i)).takeKv r.ctx) (u.resumed r b i) := by
    rw [State.resumed, hf.ctx]
    have hset : (u.setCtx r.ctx (Ctx.resumes b (s.ctx r.ctx) r.part i)).ctxs = (s.setCtx r.ctx (Ctx.resumes b (s.ctx r.ctx) r.part i)).ctxs := by
      rw [State.setCtx, State.setCtx, hf.ctxs]
    exact ⟨hs.lines.1, hf.tracked.trans hs.lines.1, hf.kvSlots, hf.bookSlots,
      State.takeKv_ctxs (s := s.setCtx r.ctx (Ctx.resumes b (s.ctx r.ctx) r.part i)) (t := u.setCtx r.ctx (Ctx.resumes b (s.ctx r.ctx) r.part i)) hf.regs hset r.ctx⟩
  have hlayers : (u.resumed r b i).kvLayers r.part = s.kvLayers r.part := hf.kvLayers r.part
  have hbook : (((s.setCtx r.ctx (Ctx.resumes b (s.ctx r.ctx) r.part i)).takeKv r.ctx).ctx r.ctx).bookNode = none := by
    rw [(State.takeKv_st _ _).2.2, State.setCtx_same]
    exact hnone
  obtain ⟨w, hw, hwork⟩ := installPlans_spec hroomy hbook hroom
  have hufree : u.freeIndex r.part = some i := by rw [hf.freeIndex, hfree]
  obtain ⟨q', hreqs, hstarted, hrest, hidle, hbi, hresuming, hindex⟩ := State.resume_step (hf.tracked.trans hs.lines.1) halone hrop hrecord
    (by rw [hpart, hf.part, hs.part]) hloaded hust (by rw [State.recordBad_congr (hf.rd _), hgood]) hadapter hnone hufree (by rw [hlayers]; exact hw) hwork
  obtain ⟨hbi', hsame, r', hreqs', _, _, _, hreq⟩ := State.serve_begun (x := leAt d 2 2) halone hdue rfl hreqs hstarted hrest hidle
  refine ⟨_, ?_, by rw [hsame, ← hctx, hresuming], by rw [hsame, ← hctx, hindex], r', hreqs', by rw [hreq]; exact hstarted⟩
  show execResume q (some d) (some b) s = _
  rw [execResume, hdesc, State.settle_of_still _ _ (hbi'.trans (hbi.trans (hf.biWant.trans hs.lines.2)))]

/-- Settles O32: with nothing else open the fetched request is the only one, and takes its one step; each operation's step is followed. -/
theorem requestsAreServed : Obligations.RequestsAreServed := by
  intro q s d rec hquiet hlines hturn hlink hlen hgood hplaces hstuck hten halive hwf x p k hpart hready
  have hs : Comes s q d rec := ⟨hquiet, hlines, hturn, hlink, hgood, hplaces, hstuck, hten, halive, hwf, hpart, hready⟩
  exact ⟨fun b hop hfree hrec => create_spec hs hop hfree hrec,
    fun prompt b hop hst hp hprompt hmore => generate_spec hs hop hst hp hprompt hmore,
    fun prompt b hop hst hp hpos hprompt hbook => adapt_spec hs hop hst hp hpos hprompt hbook,
    fun hop hst hp hres hq => park_spec hs hop hst hp hres hq,
    fun hop hst hp hq => delete_spec hs hop hst hp hq,
    fun b i hop hst hrec hadapter hnode hfree hroom => resume_spec hs hop hst hrec hadapter hnode hfree hroom⟩

end Sys2Proof.Machine
end

section
/-! PROOFS. Installs and refreshes run through their passes (O38). -/

namespace Sys2Proof.Machine

variable {s t u v : State} {k j : Install} {g n : Nat} {A : Nat → Prop}

/-! ## What starts of refreshes and passes leave -/

/-- What starts of refreshes and of passes change. -/
def OnlyPasses (s t : State) : Prop := ∃ inst recs wear queue running,
  t = { s with inst := inst, binRecs := recs, wear := wear, refreshQ := queue, refreshing := running }
theorem OnlyPasses.refl (s : State) : OnlyPasses s s := ⟨_, _, _, _, _, rfl⟩
theorem OnlyPasses.trans (h : OnlyPasses s t) (h' : OnlyPasses t u) : OnlyPasses s u := by
  obtain ⟨_, _, _, _, _, rfl⟩ := h
  obtain ⟨_, _, _, _, _, rfl⟩ := h'
  exact ⟨_, _, _, _, _, rfl⟩
section
variable (h : OnlyPasses s t)
include h
theorem OnlyPasses.pantry : t.pantry = s.pantry := by obtain ⟨_, _, _, _, _, rfl⟩ := h; rfl
theorem OnlyPasses.regs : t.regs = s.regs := by obtain ⟨_, _, _, _, _, rfl⟩ := h; rfl
theorem OnlyPasses.outbox : t.outbox = s.outbox := by obtain ⟨_, _, _, _, _, rfl⟩ := h; rfl
theorem OnlyPasses.biWant : t.biWant = s.biWant := by obtain ⟨_, _, _, _, _, rfl⟩ := h; rfl
theorem OnlyPasses.rd (o : Nat) : t.rd o = s.rd o := State.rd_congr h.regs o
end
theorem State.onlyPasses_startRefresh (s : State) (a : DriftAct) : OnlyPasses s (s.startRefresh a) := ⟨_, _, _, _, _, rfl⟩
theorem State.startRefresh_inst (s : State) (a : DriftAct) : (s.startRefresh a).inst = s.inst := rfl
theorem State.startRefresh_queue (s : State) (a : DriftAct) : (s.startRefresh a).refreshQ = s.refreshQ := rfl
def State.setRefreshQ (s : State) (q : List DriftAct) : State := { s with refreshQ := q }
theorem State.onlyPasses_setRefreshQ (s : State) (q : List DriftAct) : OnlyPasses s (s.setRefreshQ q) := ⟨_, _, _, _, _, rfl⟩
/-- What the start of refreshes leaves: the install, and no refresh is queued anew. -/
structure Refreshed (s t : State) : Prop where
  only : OnlyPasses s t
  inst : t.inst = s.inst
  queue : ∀ a ∈ t.refreshQ, a ∈ s.refreshQ
theorem Refreshed.trans (h : Refreshed s t) (h' : Refreshed t u) : Refreshed s u :=
  ⟨h.only.trans h'.only, h'.inst.trans h.inst, fun a ha => h.queue a (h'.queue a ha)⟩
theorem refreshed_startRefreshes (fuel : Nat) (s : State) : Refreshed s (startRefreshes fuel s) := by
  induction fuel generalizing s with
  | zero => exact ⟨.refl s, rfl, fun _ h => h⟩
  | succ fuel ih =>
    cases hnext : s.nextRefresh with
    | none =>
      rw [startRefreshes_none _ hnext]
      exact ⟨.refl s, rfl, fun _ h => h⟩
    | some a =>
      have hdrop : Refreshed s (s.setRefreshQ (s.refreshQ.filter fun x => x.bin != a.bin)) :=
        ⟨s.onlyPasses_setRefreshQ _, rfl, fun x hx => List.mem_of_mem_filter hx⟩
      rw [startRefreshes_succ fuel hnext]
      refine .trans ?_ (ih _)
      split
      · exact hdrop.trans ⟨State.onlyPasses_startRefresh _ a, rfl, fun _ h => h⟩
      · exact hdrop

/-! ## HV and the registers of the install -/

def State.setHvRefresh (s : State) (b : Bool) : State := { s with hvRefresh := b }
theorem State.hvSync_eq (s : State) : ∃ b x, s.hvSync = (s.setHvRefresh b).setFld Reg.PWR_DOMAIN_STAT ⟨26, 1⟩ x := ⟨_, _, rfl⟩
@[simp] theorem State.hvSync_inst (s : State) : s.hvSync.inst = s.inst := State.setFld_inst ..
@[simp] theorem State.hvSync_refreshQ (s : State) : s.hvSync.refreshQ = s.refreshQ := State.setFld_refreshQ ..
@[simp] theorem State.hvSync_binRecs (s : State) : s.hvSync.binRecs = s.binRecs := State.setFld_binRecs ..
@[simp] theorem State.hvSync_pantry (s : State) : s.hvSync.pantry = s.pantry := State.setFld_pantry ..
@[simp] theorem State.hvSync_outbox (s : State) : s.hvSync.outbox = s.outbox := State.setFld_outbox ..
@[simp] theorem State.hvSync_biWant (s : State) : s.hvSync.biWant = s.biWant := State.setFld_biWant ..
theorem State.rd_hvSync (s : State) {o : Nat} (h : o ≠ Reg.PWR_DOMAIN_STAT) : s.hvSync.rd o = s.rd o := State.rd_wr_other _ _ _ _ h

/-! ## Bins begin their passes -/

/-- The bins of number `g` are in phases that satisfy `A`. -/
def At (g : Nat) (A : Nat → Prop) (bs : List InstBin) : Prop := ∀ y ∈ bs, y.bin = g → A y.phase
/-- Phases that the beginning of a pass does not leave. -/
structure Rising (A : Nat → Prop) : Prop where
  first : A 0 → A 1
  touch : A 3 → A 4
/-- An install as it is once some of its bins have begun their passes. -/
structure Next (k j : Install) : Prop where
  desc : j.desc = k.desc
  entries : j.entries = k.entries
  length : j.bins.length = k.bins.length
  at_ : ∀ g A, Rising A → At g A k.bins → At g A j.bins
theorem Next.refl (k : Install) : Next k k := ⟨rfl, rfl, rfl, fun _ _ _ h => h⟩
theorem Next.trans {i : Install} (h : Next k j) (h' : Next j i) : Next k i :=
  ⟨h'.desc.trans h.desc, h'.entries.trans h.entries, h'.length.trans h.length, fun g A hA hat => h'.at_ g A hA (h.at_ g A hA hat)⟩
/-- A bin that begins its pass. -/
def InstBin.advanced (b : InstBin) (x : InstBin) : InstBin := { x with phase := b.phase + 1 }
def Install.advanced (k : Install) (b : InstBin) : Install := k.mapBins (fun x => x.bin == b.bin) b.advanced
theorem Install.next_advanced {b : InstBin} (hb : b ∈ k.bins) (hphase : b.phase = 3 ∨ b.phase = 0) : Next k (k.advanced b) := by
  refine ⟨rfl, rfl, List.length_map .., fun g A hA hat y hy hyg => ?_⟩
  obtain ⟨x, hx, rfl⟩ := List.mem_map.1 hy
  by_cases hxb : x.bin = b.bin
  · rw [if_pos (by simpa using hxb)] at hyg ⊢
    have hbg : A b.phase := hat b hb (hxb.symm.trans hyg)
    show A (b.phase + 1)
    rcases hphase with h | h
    · rw [h] at hbg ⊢
      exact hA.touch hbg
    · rw [h] at hbg ⊢
      exact hA.first hbg
  · rw [if_neg (by simpa using hxb)] at hyg ⊢
    exact hat x hx hyg
theorem Install.nextOn_mem {die : Nat} {b : InstBin} (h : k.nextOn die = some b) : b ∈ k.bins ∧ (b.phase = 3 ∨ b.phase = 0) := by
  rw [Install.nextOn] at h
  split at h
  · next c hc =>
    obtain rfl := Option.some.inj h
    have := List.find?_some hc
    simp only [Bool.and_eq_true, beq_iff_eq] at this
    exact ⟨List.mem_of_find?_eq_some hc, .inl this.2⟩
  · have := List.find?_some h
    simp only [Bool.and_eq_true, beq_iff_eq] at this
    exact ⟨List.mem_of_find?_eq_some h, .inr this.2⟩
def State.putInst (s : State) (k : Install) : State := { s with inst := some k }
theorem State.onlyPasses_putInst (s : State) (k : Install) : OnlyPasses s (s.putInst k) := ⟨_, _, _, _, _, rfl⟩
theorem State.onlyPasses_setBinState (s : State) (b : Nat) (x : BinState) : OnlyPasses s (s.setBinState b x) := ⟨_, _, _, _, _, rfl⟩
theorem State.onlyPasses_wearUp (s : State) (b : Nat) : OnlyPasses s (s.wearUp b) := ⟨_, _, _, _, _, rfl⟩
theorem State.instNext_cases (hinst : s.inst = some k) (die : Nat) : s.instNext die = s ∨ ∃ b ∈ k.bins, (b.phase = 3 ∨ b.phase = 0) ∧
    s.instNext die = if b.phase = 0 then ((s.putInst (k.advanced b)).setBinState b.bin .uninstalled).wearUp b.bin else s.putInst (k.advanced b) := by
  rw [State.instNext, hinst]
  dsimp only
  split
  · exact .inl rfl
  · cases h : k.nextOn die with
    | none => exact .inl rfl
    | some b =>
      obtain ⟨hb, hphase⟩ := Install.nextOn_mem h
      exact .inr ⟨b, hb, hphase, rfl⟩
/-- What the beginning of passes leaves. -/
structure Advanced (s : State) (k : Install) (t : State) : Prop where
  only : OnlyPasses s t
  queue : t.refreshQ = s.refreshQ
  inst : ∃ j, t.inst = some j ∧ Next k j
  recs : ∀ g A, Rising A → ¬ A 0 → At g A k.bins → t.binRec g = s.binRec g
theorem Advanced.refl (h : s.inst = some k) : Advanced s k s := ⟨.refl s, rfl, ⟨k, h, .refl k⟩, fun _ _ _ _ _ => rfl⟩
theorem State.binRec_setBinState_other {g b : Nat} (h : g ≠ b) (s : State) (x : BinState) : (s.setBinState b x).binRec g = s.binRec g :=
  (sread_swrite _ _ _ _ _).trans (if_neg h)
theorem Advanced.instNext (h : Advanced s k t) (die : Nat) : Advanced s k (t.instNext die) := by
  obtain ⟨j, hj, hnext⟩ := h.inst
  obtain heq | ⟨b, hb, hphase, heq⟩ := State.instNext_cases hj die
  · rw [heq]
    exact h
  · rw [heq]
    have hadv := hnext.trans (Install.next_advanced hb hphase)
    split
    · next h0 =>
      refine ⟨h.only.trans ((t.onlyPasses_putInst (j.advanced b)).trans ((State.onlyPasses_setBinState ..).trans (State.onlyPasses_wearUp ..))), h.queue, ⟨_, rfl, hadv⟩, fun g A hA hno hat => ?_⟩
      have hne : g ≠ b.bin := by
        rintro rfl
        exact hno (h0 ▸ hnext.at_ _ A hA hat b hb rfl)
      exact (State.binRec_setBinState_other hne (t.putInst _) _).trans (h.recs g A hA hno hat)
    · exact ⟨h.only.trans (t.onlyPasses_putInst _), h.queue, ⟨_, rfl, hadv⟩, h.recs⟩
def State.instNexts (s : State) : State := (List.range 32).foldl (fun (s : State) d => s.instNext d) s
theorem State.advanced_instNexts (h : s.inst = some k) : Advanced s k s.instNexts :=
  List.foldlRecOn (motive := Advanced s k) (List.range 32) _ (.refl h) fun t ht d _ => ht.instNext d

/-- An install goes on: what is left, and what its registers say. -/
structure Kicked (s : State) (k : Install) (t : State) : Prop where
  pantry : t.pantry = s.pantry
  outbox : t.outbox = s.outbox
  biWant : t.biWant = s.biWant
  rd : ∀ o, o ≠ Reg.CEL_INST_STAT → o ≠ Reg.CEL_INST_ENTRY → o ≠ Reg.PWR_DOMAIN_STAT → t.rd o = s.rd o
  queue : ∀ a ∈ t.refreshQ, a ∈ s.refreshQ
  inst : ∃ j, t.inst = some j ∧ Next k j ∧ t.instState = j.code
  recs : s.refreshQ = [] → ∀ g A, Rising A → ¬ A 0 → At g A k.bins → t.binRec g = s.binRec g
/-- The install's registers brought up to date. -/
theorem State.instSync_eq (h : s.inst = some k) : s.instSync =
    ((s.setFld Reg.CEL_INST_STAT Fl.CEL_INST_STAT_STATE k.code).setFld Reg.CEL_INST_ENTRY Fl.CEL_INST_ENTRY_ENTRY k.entryNow).hvSync := by
  rw [State.instSync, h]
theorem Install.code_lt (k : Install) : k.code < 16 := by
  rw [Install.code]
  split
  · decide
  · split
    · decide
    · split <;> decide
theorem State.instSync_spec (h : s.inst = some k) : s.instSync.inst = some k ∧ s.instSync.instState = k.code ∧ s.instSync.pantry = s.pantry ∧
    s.instSync.outbox = s.outbox ∧ s.instSync.biWant = s.biWant ∧ s.instSync.refreshQ = s.refreshQ ∧ s.instSync.binRecs = s.binRecs ∧
    ∀ o, o ≠ Reg.CEL_INST_STAT → o ≠ Reg.CEL_INST_ENTRY → o ≠ Reg.PWR_DOMAIN_STAT → s.instSync.rd o = s.rd o := by
  rw [State.instSync_eq h]
  refine ⟨?_, ?_, ?_, ?_, ?_, ?_, ?_, fun o hstat hentry hpwr => ?_⟩
  · rw [State.hvSync_inst, State.setFld_inst, State.setFld_inst, h]
  · rw [State.instState, State.fld, State.rd_hvSync _ (by decide), State.rd_setFld, if_neg (by decide), State.rd_setFld, if_pos rfl, Fld.get_set _ _ _ (by decide)]
    exact Nat.mod_eq_of_lt k.code_lt
  · rw [State.hvSync_pantry, State.setFld_pantry, State.setFld_pantry]
  · rw [State.hvSync_outbox, State.setFld_outbox, State.setFld_outbox]
  · rw [State.hvSync_biWant, State.setFld_biWant, State.setFld_biWant]
  · rw [State.hvSync_refreshQ, State.setFld_refreshQ, State.setFld_refreshQ]
  · rw [State.hvSync_binRecs, State.setFld_binRecs, State.setFld_binRecs]
  · rw [State.rd_hvSync _ hpwr, State.rd_setFld, if_neg hentry, State.rd_setFld, if_neg hstat]
theorem State.binRec_congr (h : t.binRecs = s.binRecs) (g : Nat) : t.binRec g = s.binRec g := by rw [State.binRec, State.binRec, h]
theorem State.instKick_spec (h : s.inst = some k) : Kicked s k s.instKick := by
  have hkick : s.instKick = (s.runRefreshes.instNexts).instSync := by
    rw [State.instKick, h]
    rfl
  have hstart := refreshed_startRefreshes s.refreshQ.length s
  have hruninst : s.runRefreshes.inst = some k := by rw [State.runRefreshes, State.hvSync_inst, hstart.inst, h]
  have hadv := State.advanced_instNexts hruninst
  have hnone : s.refreshQ = [] → s.runRefreshes = s.hvSync := fun hq => by rw [State.runRefreshes, hq]; rfl
  obtain ⟨j, hj, hnext⟩ := hadv.inst
  obtain ⟨hinst, hstate, hpantry, hout, hbi, hqueue, hrecs, hrd⟩ := State.instSync_spec hj
  have hrunpantry : s.runRefreshes.pantry = s.pantry := by rw [State.runRefreshes, State.hvSync_pantry, hstart.only.pantry]
  have hrunout : s.runRefreshes.outbox = s.outbox := by rw [State.runRefreshes, State.hvSync_outbox, hstart.only.outbox]
  have hrunbi : s.runRefreshes.biWant = s.biWant := by rw [State.runRefreshes, State.hvSync_biWant, hstart.only.biWant]
  have hrunqueue : s.runRefreshes.refreshQ = (startRefreshes s.refreshQ.length s).refreshQ := by rw [State.runRefreshes, State.hvSync_refreshQ]
  have hrunrd (o : Nat) (ho : o ≠ Reg.PWR_DOMAIN_STAT) : s.runRefreshes.rd o = s.rd o := by
    rw [State.runRefreshes, State.rd_hvSync _ ho, hstart.only.rd]
  rw [hkick]
  refine ⟨hpantry.trans (hadv.only.pantry.trans hrunpantry), hout.trans (hadv.only.outbox.trans hrunout), hbi.trans (hadv.only.biWant.trans hrunbi),
    fun o hstat hentry hpwr => (hrd o hstat hentry hpwr).trans ((hadv.only.rd o).trans (hrunrd o hpwr)), fun a ha => ?_, ⟨j, hinst, hnext, hstate⟩,
    fun hq g A hA hno hat => ?_⟩
  · rw [hqueue, hadv.queue, hrunqueue] at ha
    exact hstart.queue a ha
  · rw [State.binRec_congr hrecs, hadv.recs g A hA hno hat, hnone hq]
    exact State.binRec_congr s.hvSync_binRecs g

/-! ## GO, ABORT and a fault of HV (R175, R176) -/

theorem State.runRefreshes_spec (s : State) : s.runRefreshes.pantry = s.pantry ∧ s.runRefreshes.biWant = s.biWant ∧ s.runRefreshes.inst = s.inst ∧
    ∀ o, o ≠ Reg.PWR_DOMAIN_STAT → s.runRefreshes.rd o = s.rd o := by
  have hstart := refreshed_startRefreshes s.refreshQ.length s
  rw [State.runRefreshes]
  refine ⟨?_, ?_, ?_, fun o ho => ?_⟩
  · rw [State.hvSync_pantry, hstart.only.pantry]
  · rw [State.hvSync_biWant, hstart.only.biWant]
  · rw [State.hvSync_inst, hstart.inst]
  · rw [State.rd_hvSync _ ho, hstart.only.rd]
/-- What the end of entries changes. -/
def OnlyFails (s t : State) : Prop := ∃ inst recs out, t = { s with inst := inst, binRecs := recs, outbox := out }
theorem OnlyFails.refl (s : State) : OnlyFails s s := ⟨_, _, _, rfl⟩
theorem OnlyFails.trans (h : OnlyFails s t) (h' : OnlyFails t u) : OnlyFails s u := by
  obtain ⟨_, _, _, rfl⟩ := h
  obtain ⟨_, _, _, rfl⟩ := h'
  exact ⟨_, _, _, rfl⟩
theorem OnlyFails.foldl {α : Type} {f : State → α → State} {as : List α} (hf : ∀ s a, OnlyFails s (f s a)) (s : State) : OnlyFails s (as.foldl f s) :=
  List.foldlRecOn (motive := OnlyFails s) as f (.refl s) fun t ht a _ => ht.trans (hf t a)
theorem OnlyFails.pantry (h : OnlyFails s t) : t.pantry = s.pantry := by obtain ⟨_, _, _, rfl⟩ := h; rfl
theorem OnlyFails.biWant (h : OnlyFails s t) : t.biWant = s.biWant := by obtain ⟨_, _, _, rfl⟩ := h; rfl
theorem State.onlyFails_setBinState (s : State) (b : Nat) (x : BinState) : OnlyFails s (s.setBinState b x) := ⟨_, _, _, rfl⟩
theorem State.onlyFails_putInst (s : State) (k : Install) : OnlyFails s (s.putInst k) := ⟨_, _, _, rfl⟩
theorem State.onlyFails_emit (s : State) (m : OutMsg) : OnlyFails s (s.emit m) := ⟨_, _, _, rfl⟩
theorem State.onlyFails_putResult (s : State) (k : Install) (n status : Nat) : OnlyFails s (s.putResult k n status) := by
  rw [State.putResult]
  dsimp only
  split
  · exact s.onlyFails_putInst _
  · exact (s.onlyFails_emit _).trans (State.onlyFails_putInst _ _)
/-- The bins of an entry that fails. -/
def State.uninstalled (s : State) (bs : List InstBin) : State :=
  bs.foldl (fun (s : State) b => if b.phase == 5 && decide (2 ≤ b.outcome) then s else s.setBinState b.bin .uninstalled) s
theorem State.onlyFails_uninstalled (s : State) (bs : List InstBin) : OnlyFails s (s.uninstalled bs) := by
  refine OnlyFails.foldl (fun (s : State) (b : InstBin) => ?_) s
  split
  · exact .refl s
  · exact s.onlyFails_setBinState ..
theorem State.onlyFails_entryFail (s : State) (n status : Nat) : OnlyFails s (s.entryFail n status) := by
  cases hinst : s.inst with
  | none =>
    rw [State.entryFail, hinst]
    exact .refl s
  | some k =>
    rw [State.entryFail, hinst]
    dsimp only
    split
    · exact .refl s
    · exact (s.onlyFails_uninstalled (k.bins.filter fun b => b.entry == n)).trans ((State.onlyFails_putResult _ k n status).trans (State.onlyFails_putInst _ _))
def State.noInst (s : State) : State := { s with inst := none }
/-- The entries of an install that stops, and the install itself, given up. -/
def State.instDropped (s : State) : State :=
  ((List.range (match s.inst with | none => 0 | some k => k.entries.length)).foldl (fun (s : State) i => s.entryFail i 8) s).noInst
theorem State.instStop_eq {x err : Nat} (h : s.installing = true) : s.instStop x err =
    (((s.instDropped.setInst x err).setFld Reg.CEL_INST_ENTRY Fl.CEL_INST_ENTRY_ENTRY 0xFFFFFFFF).hvSync).runRefreshes := by
  rw [State.instStop, h]
  rfl
theorem State.setInst_spec {x err : Nat} (hx : x < 16) (herr : err < 256) (s : State) : (s.setInst x err).instState = x ∧
    (s.setInst x err).fld Reg.CEL_INST_STAT Fl.CEL_INST_STAT_ERROR = err ∧ ∀ o, o ≠ Reg.CEL_INST_STAT → (s.setInst x err).rd o = s.rd o := by
  refine ⟨?_, ?_, fun o ho => ?_⟩
  · rw [State.instState, State.setInst, State.fld, State.rd_setFld, if_pos rfl, Fld.get_set_apart _ _ _ _ (by decide) (by decide) (by decide),
      State.rd_setFld, if_pos rfl, Fld.get_set _ _ _ (by decide)]
    exact Nat.mod_eq_of_lt hx
  · rw [State.setInst, State.fld, State.rd_setFld, if_pos rfl, Fld.get_set _ _ _ (by decide)]
    exact Nat.mod_eq_of_lt herr
  · rw [State.setInst, State.rd_setFld, if_neg ho, State.rd_setFld, if_neg ho]
theorem State.setInst_pantry (s : State) (x err : Nat) : (s.setInst x err).pantry = s.pantry := by
  rw [State.setInst, State.setFld_pantry, State.setFld_pantry]
theorem State.setInst_biWant (s : State) (x err : Nat) : (s.setInst x err).biWant = s.biWant := by
  rw [State.setInst, State.setFld_biWant, State.setFld_biWant]
theorem State.setInst_inst (s : State) (x err : Nat) : (s.setInst x err).inst = s.inst := by
  rw [State.setInst, State.setFld_inst, State.setFld_inst]
theorem State.instStop_spec {x err : Nat} (h : s.installing = true) (hx : x < 16) (herr : err < 256) : (s.instStop x err).biWant = s.biWant ∧
    (s.instStop x err).instState = x ∧ (s.instStop x err).inst = none ∧ (s.instStop x err).fld Reg.CEL_INST_STAT Fl.CEL_INST_STAT_ERROR = err ∧
    (s.instStop x err).fld Reg.CEL_INST_ENTRY Fl.CEL_INST_ENTRY_ENTRY = 0xFFFFFFFF ∧ (s.instStop x err).pantry = s.pantry := by
  have hdrop : OnlyFails s s.instDropped := (OnlyFails.foldl (fun s i => s.onlyFails_entryFail i 8) s).trans ⟨_, _, _, rfl⟩
  have hnone : s.instDropped.inst = none := rfl
  rw [State.instStop_eq h]
  generalize s.instDropped = v at *
  obtain ⟨hpantry, hbi, hinst, hrd⟩ := State.runRefreshes_spec ((v.setInst x err).setFld Reg.CEL_INST_ENTRY Fl.CEL_INST_ENTRY_ENTRY 0xFFFFFFFF).hvSync
  obtain ⟨hstate, herror, hother⟩ := v.setInst_spec hx herr
  have hstat : (((v.setInst x err).setFld Reg.CEL_INST_ENTRY Fl.CEL_INST_ENTRY_ENTRY 0xFFFFFFFF).hvSync).runRefreshes.rd Reg.CEL_INST_STAT =
      (v.setInst x err).rd Reg.CEL_INST_STAT := by
    rw [hrd _ (by decide), State.rd_hvSync _ (by decide), State.rd_setFld, if_neg (by decide)]
  refine ⟨?_, ?_, ?_, ?_, ?_, ?_⟩
  · rw [hbi, State.hvSync_biWant, State.setFld_biWant, State.setInst_biWant, hdrop.biWant]
  · rw [State.instState, State.fld, hstat]
    exact hstate
  · rw [hinst, State.hvSync_inst, State.setFld_inst, State.setInst_inst, hnone]
  · rw [State.fld, hstat]
    exact herror
  · rw [State.fld, hrd _ (by decide), State.rd_hvSync _ (by decide), State.rd_setFld, if_pos rfl, Fld.get_set _ _ _ (by decide)]
    decide
  · rw [hpantry, State.hvSync_pantry, State.setFld_pantry, State.setInst_pantry, hdrop.pantry]
theorem locate_instCtl : locate Reg.CEL_INST_CTL = some (0, .cel, 0x8) ∧ findReg .cel 0x8 = some regsCel[16] := by decide
theorem setWidth_wide (x : Word) : (x.setWidth 64).setWidth 32 = x := by
  rw [BitVec.setWidth_setWidth_of_le x (by decide), BitVec.setWidth_eq]
theorem exec_instCtl {x : Word} (hv : (x.setWidth 64 : DWord) &&& regsCel[16].reservedBits = 0) (hwrite : s.writeInstCtl x = t) (ht : t.biWant = []) :
    put32 Reg.CEL_INST_CTL x s = .next t := by
  refine put32_module locate_instCtl.1 (by decide) rfl (by decide) rfl locate_instCtl.2 rfl (by decide) hv (quiet_of_live (by decide) _) rfl ?_ ht
  rw [State.act, if_pos rfl, setWidth_wide]
  exact hwrite
theorem instAbort_spec (hbi : s.biWant = []) (h : s.installing = true) : ∃ t, exec (.instAbort 2) s = .next t ∧ t.instState = instAborted ∧ t.inst = none ∧
    t.fld Reg.CEL_INST_STAT Fl.CEL_INST_STAT_ERROR = 9 ∧ t.fld Reg.CEL_INST_ENTRY Fl.CEL_INST_ENTRY_ENTRY = 0xFFFFFFFF ∧ PantryKept s t := by
  obtain ⟨hstill, hstate, hinst, herror, hentry, hpantry⟩ := State.instStop_spec (x := instAborted) (err := 9) h (by decide) (by decide)
  have hwrite : s.writeInstCtl 2 = s.instStop instAborted 9 := by
    have hgo : ¬ ((2 : Word).toNat / 4 ≠ 0 ∨ ((2 : Word).getLsbD 0 && (!s.fwReady || s.loading)) = true) := by
      rintro (h | h)
      · exact absurd h (by decide)
      · exact absurd ((Bool.and_eq_true _ _).mp h).1 (by decide)
    rw [State.writeInstCtl, if_neg hgo, h]
    rfl
  exact ⟨_, exec_instCtl (by decide) hwrite (hstill.trans hbi), hstate, hinst, herror, hentry, pantryKept_of_eq hpantry⟩
theorem hvFault_spec (h : s.installing = true) : ∃ t, exec .hvFault s = .next t ∧ t.instState = instFailed ∧ t.inst = none ∧
    t.fld Reg.CEL_INST_STAT Fl.CEL_INST_STAT_ERROR = 8 ∧ t.fld Reg.CEL_INST_ENTRY Fl.CEL_INST_ENTRY_ENTRY = 0xFFFFFFFF ∧ PantryKept s t := by
  obtain ⟨-, hstate, hinst, herror, hentry, hpantry⟩ := State.instStop_spec (x := instFailed) (err := 8) h (by decide) (by decide)
  exact ⟨_, rfl, hstate, hinst, herror, hentry, pantryKept_of_eq hpantry⟩
/-- The counters of an install. -/
def instCounters : List Nat := [Reg.CEL_INST_FIRST_DONE, Reg.CEL_INST_FINISHED, Reg.CEL_INST_MARGINAL, Reg.CEL_INST_FAILED,
  Reg.CEL_INST_CLIPPED, Reg.CEL_INST_RETRIES]
def State.cleared (s : State) (rs : List Nat) : State := rs.foldl (fun (s : State) r => s.wr r 0) s
theorem State.cleared_spec (rs : List Nat) (s : State) : OnlyRegs s (s.cleared rs) ∧ (∀ r ∈ rs, (s.cleared rs).rd r = 0) ∧
    ∀ o, o ∉ rs → (s.cleared rs).rd o = s.rd o := by
  induction rs generalizing s with
  | nil => exact ⟨.refl s, fun _ h => absurd h List.not_mem_nil, fun _ _ => rfl⟩
  | cons r rs ih =>
    obtain ⟨honly, hzero, hother⟩ := ih (s.wr r 0)
    refine ⟨OnlyRegs.trans ((OnlyRegs.refl s).wr r 0) honly, fun o ho => ?_, fun o ho => ?_⟩
    · by_cases hmem : o ∈ rs
      · exact hzero o hmem
      · obtain rfl : o = r := (List.mem_cons.1 ho).resolve_right hmem
        exact (hother o hmem).trans (State.rd_wr_same _ _ _)
    · obtain ⟨hne, hmem⟩ := not_or.1 (fun h => ho (List.mem_cons.2 h))
      exact (hother o hmem).trans (State.rd_wr_other _ _ _ _ hne)
/-- The registers of an install that starts. -/
def State.instReady (s : State) : State := ((s.cleared instCounters).setInst instCheck 0).setFld Reg.CEL_INST_ENTRY Fl.CEL_INST_ENTRY_ENTRY 0xFFFFFFFF
theorem State.instStart_eq (s : State) : s.instStart = s.instReady.noInst.emit (.hostRead (s.instReady.rd Reg.CEL_INST_DESC).toNat 64) := rfl
theorem State.instReady_spec (s : State) : OnlyRegs s s.instReady ∧ s.instReady.instState = instCheck ∧ (∀ r ∈ instCounters, s.instReady.rd r = 0) ∧
    s.instReady.rd Reg.CEL_INST_DESC = s.rd Reg.CEL_INST_DESC := by
  obtain ⟨honly, hzero, hother⟩ := s.cleared_spec instCounters
  obtain ⟨hstate, -, hkept⟩ := (s.cleared instCounters).setInst_spec (x := instCheck) (err := 0) (by decide) (by decide)
  have hrd (o : Nat) (ho : o ≠ Reg.CEL_INST_ENTRY) : s.instReady.rd o = ((s.cleared instCounters).setInst instCheck 0).rd o := by
    rw [State.instReady, State.rd_setFld, if_neg ho]
  have hcounters : ∀ r ∈ instCounters, r ≠ Reg.CEL_INST_ENTRY ∧ r ≠ Reg.CEL_INST_STAT := by decide
  refine ⟨OnlyRegs.trans honly (OnlyRegs.trans (OnlyRegs.trans ((OnlyRegs.refl _).wr _ _) ((OnlyRegs.refl _).wr _ _)) ((OnlyRegs.refl _).wr _ _)), ?_, fun r hr => ?_, ?_⟩
  · rw [State.instState, State.fld, hrd _ (by decide)]
    exact hstate
  · rw [hrd r (hcounters r hr).1, hkept r (hcounters r hr).2, hzero r hr]
  · rw [hrd _ (by decide), hkept _ (by decide), hother _ (by decide)]
theorem instGo_spec (hbi : s.biWant = []) (hready : s.fwReady = true) (hload : s.loading = false) (h : s.installing = false) :
    ∃ t, exec (.instGo 1) s = .next t ∧ t.instState = instCheck ∧ t.inst = none ∧ t.outbox = s.outbox ++ [.hostRead (s.rd Reg.CEL_INST_DESC).toNat 64] ∧
      PantryKept s t ∧ (∀ r ∈ instCounters, t.rd r = 0) ∧ t.binRecs = s.binRecs := by
  obtain ⟨honly, hstate, hzero, hdesc⟩ := s.instReady_spec
  have hwrite : s.writeInstCtl 1 = s.instReady.noInst.emit (.hostRead (s.rd Reg.CEL_INST_DESC).toNat 64) := by
    rw [State.writeInstCtl, hready, hload, if_neg (by decide), h, ← hdesc, ← State.instStart_eq]
    rfl
  generalize s.instReady = v at *
  refine ⟨_, exec_instCtl (by decide) hwrite ?_, hstate, rfl, ?_, pantryKept_of_eq ?_, hzero, ?_⟩
  · rw [honly]
    exact hbi
  · rw [honly]
    rfl
  · rw [honly]
    rfl
  · rw [honly]
    rfl
theorem judgeRefuses {mem : List (Nat × List Byte)} {err : Nat} (hcheck : s.instState = instCheck) (h : s.judgeInstall (s.hostMem mem) = .inr err)
    (herr : err < 256) : ∃ t, exec (.installCheckDone mem) s = .next t ∧ t.instState = instFailed ∧
      t.fld Reg.CEL_INST_STAT Fl.CEL_INST_STAT_ERROR = err ∧ RegsKept s t [Reg.CEL_INST_STAT] ∧ OnlyRegs s t := by
  obtain ⟨hstate, herror, hother⟩ := s.setInst_spec (x := instFailed) (by decide) herr
  have hexec : exec (.installCheckDone mem) s = .next (s.setInst instFailed err) := by
    show execInstallCheckDone mem s = _
    rw [execInstallCheckDone, if_neg (fun hne => hne hcheck), h]
  exact ⟨_, hexec, hstate, herror, fun o ho => hother o (by simpa using ho), OnlyRegs.trans ((OnlyRegs.refl _).wr _ _) ((OnlyRegs.refl _).wr _ _)⟩

/-! ## A stream is accepted, and chunks fail (R154, R158) -/

def State.putMeas (s : State) (n : Nat) (e : List Byte) : State := { s with sec.measLog := ringPut s.sec.measLog (n % 256) e }
theorem State.putMeas_pantry (s : State) (n : Nat) (e : List Byte) : (s.putMeas n e).pantry = s.pantry := rfl
theorem State.putDigest_pantry (s : State) (f : Nat → Nat) (d : List Byte) : (s.putDigest f d).pantry = s.pantry :=
  List.foldlRecOn (motive := fun t : State => t.pantry = s.pantry) (List.range 8) _ rfl fun t ht k _ => (State.wr_pantry ..).trans ht
theorem State.extend_eq (s : State) (i event who : Nat) (x : List Byte) : ∃ d n e, s.extend i event who x =
    (((if n < 256 then (s.putDigest (Reg.SEC_MEAS i) d).bump (Reg.SEC_MEAS_COUNT i) Fl.SEC_MEAS_COUNT_COUNT else
      ((s.putDigest (Reg.SEC_MEAS i) d).bump (Reg.SEC_MEAS_COUNT i) Fl.SEC_MEAS_COUNT_COUNT).bump Reg.SEC_LOG_LOST Fl.SEC_LOG_LOST_COUNT).putMeas n e).setFld
      Reg.SEC_LOG_HEAD Fl.SEC_LOG_HEAD_NEXT_SEQ (n + 1)) := ⟨_, _, _, rfl⟩
theorem State.extend_pantry (s : State) (i event who : Nat) (x : List Byte) : (s.extend i event who x).pantry = s.pantry := by
  obtain ⟨d, n, e, h⟩ := s.extend_eq i event who x
  have hdigest := s.putDigest_pantry (Reg.SEC_MEAS i) d
  rw [h, State.setFld_pantry, State.putMeas_pantry]
  generalize s.putDigest (Reg.SEC_MEAS i) d = v at *
  split
  · exact (State.bump_pantry ..).trans hdigest
  · exact (State.bump_pantry ..).trans ((State.bump_pantry ..).trans hdigest)
theorem State.hostPut_pantry (s : State) (a : Nat) (x : List Byte) : (s.hostPut a x).pantry = s.pantry := by
  rw [State.hostPut]
  split <;> rfl
/-- The state in which an accepted install begins, but for the install and the queued refreshes. -/
def State.measuredInstall (s : State) (k : Install) : State :=
  State.extend ((k.groups.zip k.lists).foldl (fun (s : State) p =>
    s.hostPut (leAt p.1 24 8) ((p.2 ++ List.replicate (64 - p.2.length) 0xFFFF).flatMap (leBytes 2))) s)
    3 evInstall k.part (shake256 (k.desc ++ (k.entries.map fun e => e.raw).flatten ++ k.groups.flatten) 32)
theorem State.measuredInstall_pantry (s : State) (k : Install) : (s.measuredInstall k).pantry = s.pantry := by
  rw [State.measuredInstall, State.extend_pantry]
  exact List.foldlRecOn (motive := fun t : State => t.pantry = s.pantry) (k.groups.zip k.lists) _ rfl fun t ht p _ => (State.hostPut_pantry ..).trans ht
theorem Install.code_first (hne : k.bins ≠ []) (h : ∀ b ∈ k.bins, b.phase ≤ 1) : k.code = instFirst := by
  obtain ⟨b, hb⟩ := List.exists_mem_of_ne_nil _ hne
  rw [Install.code, if_pos (List.any_eq_true.2 ⟨b, hb, decide_eq_true (h b hb)⟩)]
theorem rising_first : Rising (· ≤ 1) := ⟨fun _ => Nat.le_refl _, fun h => absurd h (by decide)⟩
theorem judgeAccepts {mem : List (Nat × List Byte)} (hcheck : s.instState = instCheck) (h : s.judgeInstall (s.hostMem mem) = .inl k) (hne : k.bins ≠ [])
    (hphase : ∀ b ∈ k.bins, b.phase = 0) : ∃ t j, exec (.installCheckDone mem) s = .next t ∧ t.inst = some j ∧ j.desc = k.desc ∧ j.entries = k.entries ∧
      t.instState = instFirst ∧ PantryKept s t ∧ ∀ a ∈ t.refreshQ, ∀ b ∈ k.bins, a.bin ≠ b.bin := by
  have hexec : exec (.installCheckDone mem) s = .next
      (((s.measuredInstall k).setRefreshQ ((s.measuredInstall k).refreshQ.filter fun a => !(k.bins.any fun b => b.bin == a.bin))).putInst k).instKick := by
    show execInstallCheckDone mem s = _
    rw [execInstallCheckDone, if_neg (fun hne => hne hcheck), h]
    rfl
  have hpantry := s.measuredInstall_pantry k
  generalize s.measuredInstall k = v at *
  have hk := State.instKick_spec (s := (v.setRefreshQ (v.refreshQ.filter fun a => !(k.bins.any fun b => b.bin == a.bin))).putInst k) rfl
  obtain ⟨j, hj, hnext, hstate⟩ := hk.inst
  have hle : ∀ b ∈ j.bins, b.phase ≤ 1 := fun b hb =>
    hnext.at_ b.bin _ rising_first (fun y hy _ => by rw [hphase y hy]; decide) b hb rfl
  have hjne : j.bins ≠ [] := fun h0 => by
    have := hnext.length
    rw [h0, List.length_nil] at this
    exact hne (List.length_eq_zero_iff.1 this.symm)
  refine ⟨_, j, hexec, hj, hnext.desc, hnext.entries, hstate.trans (Install.code_first hjne hle), pantryKept_of_eq (hk.pantry.trans hpantry), fun a ha b hb he => ?_⟩
  have hq := (List.mem_filter.1 (hk.queue a ha)).2
  rw [Bool.not_eq_true', List.any_eq_false] at hq
  exact hq b hb (by simpa using he.symm)

/-- An entry whose status is open is one of the install's. -/
theorem Install.entry_lt (h : (k.entry n).status = none) : n < k.entries.length := by
  by_contra hge
  rw [Install.entry, List.getD_eq_default _ _ (by omega)] at h
  exact absurd h (by decide)
theorem Install.entry_setEntry (e : InstEntry) (h : n < k.entries.length) : (k.setEntry n e).entry n = e := by
  rw [Install.entry, Install.setEntry]
  simp [h]
theorem Install.entry_congr (h : j.entries = k.entries) (n : Nat) : j.entry n = k.entry n := by rw [Install.entry, Install.entry, h]
theorem State.instEnd_open (h : s.inst = some k) (hopen : (k.entry n).status = none) : s.instEnd = s.instSync := by
  have hlt := Install.entry_lt hopen
  have hmem : k.entry n ∈ k.entries := by
    rw [Install.entry, List.getD_eq_getElem _ _ hlt]
    exact List.getElem_mem hlt
  rw [State.instEnd, h]
  dsimp only
  rw [if_neg]
  rw [List.all_eq_true]
  intro hall
  have := hall _ hmem
  rw [hopen] at this
  exact absurd this (by decide)
/-- An entry one of whose chunks is fetched again. -/
def InstEntry.again (e : InstEntry) (chunk : Nat) : InstEntry :=
  { e with retries := e.retries + 1, tries := swrite (fun _ => 0) e.tries chunk (sread (fun _ => 0) e.tries chunk + 1) }
theorem State.chunkFailed_again {chunk : Nat} (hinst : s.inst = some k) (hopen : (k.entry n).status = none)
    (htries : sread (fun _ => 0) (k.entry n).tries chunk + 1 ≤ 3) :
    s.chunkFailed n chunk = (s.putInst (k.setEntry n ((k.entry n).again chunk))).bump Reg.CEL_INST_RETRIES Fl.CEL_INST_RETRIES_COUNT := by
  rw [State.chunkFailed, hinst]
  dsimp only
  rw [if_neg (by rw [hopen]; decide), if_pos htries]
  rfl
theorem chunkFails {chunk : Nat} {mem : List (Nat × List Byte)} (hinst : s.inst = some k) (hopen : (k.entry n).status = none)
    (hpass : (k.bins.any fun b => b.entry == n && b.phase == 1) = true)
    (hchunk : chunk < chunkCount (k.entry n).raw (k.lists.getD (entGroup (k.entry n).raw) []))
    (hbad : chunkOk (k.entry n).raw (k.lists.getD (entGroup (k.entry n).raw) []) mem chunk = some false)
    (htries : sread (fun _ => 0) (k.entry n).tries chunk + 1 ≤ 3) :
    ∃ t j, exec (.chunkCrcFail n ⟨chunk, mem⟩) s = .next t ∧ PantryKept s t ∧ t.inst = some j ∧ j.entry n = (k.entry n).again chunk ∧
      t.fld Reg.CEL_INST_RETRIES Fl.CEL_INST_RETRIES_COUNT = min (s.fld Reg.CEL_INST_RETRIES Fl.CEL_INST_RETRIES_COUNT + 1) (2 ^ 32 - 1) := by
  have hexec : exec (.chunkCrcFail n ⟨chunk, mem⟩) s = .next
      (((s.putInst (k.setEntry n ((k.entry n).again chunk))).bump Reg.CEL_INST_RETRIES Fl.CEL_INST_RETRIES_COUNT).instKick).instEnd := by
    have hgo : ¬ ((k.entry n).status.isSome = true ∨ (!(k.bins.any fun b => b.entry == n && b.phase == 1)) = true ∨
        chunkCount (k.entry n).raw (k.lists.getD (entGroup (k.entry n).raw) []) ≤ chunk ∨
        chunkOk (k.entry n).raw (k.lists.getD (entGroup (k.entry n).raw) []) mem chunk ≠ some false) := by
      rw [hopen, hpass]
      rintro (h | h | h | h)
      · exact absurd h (by decide)
      · exact absurd h (by decide)
      · omega
      · exact h hbad
    show execChunkCrcFail n ⟨chunk, mem⟩ s = _
    rw [execChunkCrcFail, hinst]
    dsimp only
    rw [if_neg hgo, State.chunkFailed_again hinst hopen htries]
  have hv : ((s.putInst (k.setEntry n ((k.entry n).again chunk))).bump Reg.CEL_INST_RETRIES Fl.CEL_INST_RETRIES_COUNT).inst =
      some (k.setEntry n ((k.entry n).again chunk)) := State.bump_inst ..
  have hfld : ((s.putInst (k.setEntry n ((k.entry n).again chunk))).bump Reg.CEL_INST_RETRIES Fl.CEL_INST_RETRIES_COUNT).fld Reg.CEL_INST_RETRIES
      Fl.CEL_INST_RETRIES_COUNT = min (s.fld Reg.CEL_INST_RETRIES Fl.CEL_INST_RETRIES_COUNT + 1) (2 ^ 32 - 1) := State.fld_bump_same _ _ _ _ (by decide)
  have hpantry : ((s.putInst (k.setEntry n ((k.entry n).again chunk))).bump Reg.CEL_INST_RETRIES Fl.CEL_INST_RETRIES_COUNT).pantry = s.pantry :=
    State.bump_pantry ..
  generalize (s.putInst (k.setEntry n ((k.entry n).again chunk))).bump Reg.CEL_INST_RETRIES Fl.CEL_INST_RETRIES_COUNT = v at *
  have hk := State.instKick_spec hv
  obtain ⟨j, hj, hnext, -⟩ := hk.inst
  have hentry : j.entry n = (k.entry n).again chunk :=
    (Install.entry_congr hnext.entries n).trans (Install.entry_setEntry _ (Install.entry_lt hopen))
  rw [State.instEnd_open hj (by rw [hentry]; exact hopen)] at hexec
  obtain ⟨hinst', -, hsync, -, -, -, -, hrd⟩ := State.instSync_spec hj
  refine ⟨_, j, hexec, pantryKept_of_eq (hsync.trans (hk.pantry.trans hpantry)), hinst', hentry, ?_⟩
  rw [State.fld, hrd _ (by decide) (by decide) (by decide), hk.rd _ (by decide) (by decide) (by decide)]
  exact hfld

/-! ## A first pass is done (R154, R164 to R166) -/

/-- A step on the data of bins: the registers stay, and of the install only the scales change. -/
structure Programs (k : Install) (s t : State) : Prop where
  regs : t.regs = s.regs
  inst : ∃ sc, t.inst = some { k with scales := sc }
theorem Programs.codes (h : Programs k s t) (g b col : Nat) (l : List (Int × Nat)) (f : Int → Nat) :
    Programs k s (l.foldl (fun (s : State) p => s.setCell g (32 * b + p.2) col (f p.1)) t) :=
  List.foldlRecOn (motive := Programs k s) l _ h fun _ hv _ _ => ⟨hv.regs, hv.inst⟩
theorem Programs.programBlock (h : Programs k s t) (fmt g b col : Nat) (x : Block32) : Programs k s (t.programBlock fmt g b col x) := by
  have hcodes := h.codes g b col x.codes.zipIdx (levelOf fmt)
  rw [State.programBlock]
  dsimp only
  obtain ⟨sc, hsc⟩ := hcodes.inst
  rw [hsc]
  exact ⟨hcodes.regs, _, rfl⟩
theorem Programs.wearUps (h : Programs k s t) (g : Nat) (l : List Nat) : Programs k s (l.foldl (fun (s : State) _ => s.wearUp g) t) :=
  List.foldlRecOn (motive := Programs k s) l _ h fun _ hv _ _ => ⟨hv.regs, hv.inst⟩
/-- The bin's blocks programmed, those that failed left out. -/
def State.programBlocks (s : State) (fmt g : Nat) (blocks : List (Nat × Nat × ((Block32 × Bool) ⊕ Nat))) : State :=
  blocks.foldl (fun (s : State) q => match q.2.2 with
    | .inl v => s.programBlock fmt g q.1 q.2.1 v.1
    | .inr _ => s) s
theorem Programs.programBlocks (h : Programs k s t) (fmt g : Nat) (blocks : List (Nat × Nat × ((Block32 × Bool) ⊕ Nat))) :
    Programs k s (t.programBlocks fmt g blocks) :=
  List.foldlRecOn (motive := Programs k s) blocks _ h fun v hv q _ => by
    obtain ⟨a, b, c⟩ := q
    cases c with
    | inl y => exact hv.programBlock ..
    | inr n => exact hv
/-- The state in which the bin's cells are programmed. -/
def State.passed (s : State) (erased g fmt : Nat) (blocks : List (Nat × Nat × ((Block32 × Bool) ⊕ Nat))) : State :=
  ((List.range erased).foldl (fun (s : State) _ => s.wearUp g) s.drew).programBlocks fmt g blocks
theorem State.programs_passed (hinst : s.inst = some k) (erased g fmt : Nat) (blocks : List (Nat × Nat × ((Block32 × Bool) ⊕ Nat))) :
    Programs k s (s.passed erased g fmt blocks) :=
  (Programs.wearUps (s := s) (t := s.drew) ⟨rfl, k.scales, hinst⟩ g _).programBlocks fmt g blocks
theorem Install.mapBins_phase_of {f : InstBin → InstBin} {y : InstBin} (k : Install) (hf : ∀ y, (f y).phase = n)
    (hy : y ∈ (k.mapBins (fun y => y.bin == g) f).bins) (hg : y.bin = g) : y.phase = n := by
  obtain ⟨x, -, rfl⟩ := List.mem_map.1 hy
  by_cases hx : x.bin = g
  · rw [if_pos (by simpa using hx)]
    exact hf x
  · rw [if_neg (by simpa using hx)] at hg
    exact absurd hg hx
theorem Install.mapBins_phase (k : Install) (g n : Nat) {y : InstBin}
    (hy : y ∈ (k.mapBins (fun y => y.bin == g) fun y => { y with phase := n }).bins) (hg : y.bin = g) : y.phase = n :=
  k.mapBins_phase_of (fun _ => rfl) hy hg
theorem State.hostPut_same (s : State) (a : Nat) (x : List Byte) : (s.hostPut a x).inst = s.inst ∧ (s.hostPut a x).regs = s.regs := by
  rw [State.hostPut]
  split <;> exact ⟨rfl, rfl⟩
/-- The spotlight rows that may be written change neither the install nor a register. -/
theorem State.rowsPut_same (c : Bool) (w : State) (a : Nat) (rows : List Byte) :
    (if c then w.hostPut a rows else w).inst = w.inst ∧ (if c then w.hostPut a rows else w).regs = w.regs := by
  split
  · exact State.hostPut_same ..
  · exact ⟨rfl, rfl⟩
theorem exec_firstPassDone {c : CoreId} {b : BinId} {erased : Fin 33} {mem : List (Nat × List Byte)} {x : InstBin} (hinst : s.inst = some k)
    (hg : c.val * 480 + b.val = g) (hfind : (k.bins.find? fun y => y.bin == g && y.phase == 1) = some x)
    (hpower : s.rackPower g = true) (hcache : s.cacheOk = true)
    (hblocks : ∀ q ∈ passBlocks (k.entry x.entry).raw mem s.fresh g, ∃ v, q.2.2 = .inl v)
    (hspots : ∀ q ∈ spotValues (k.entry x.entry).raw (k.lists.getD (entGroup (k.entry x.entry).raw) []) mem g, q.2.isSome = true)
    (hchunks : ∀ n ∈ binChunks (k.entry x.entry).raw (k.lists.getD (entGroup (k.entry x.entry).raw) []) g,
      chunkOk (k.entry x.entry).raw (k.lists.getD (entGroup (k.entry x.entry).raw) []) mem n = some true) :
    ∃ (v : State) (j : Install), exec (.firstPassDone c b erased mem) s = .next v.instKick ∧ v.inst = some j ∧ (∀ y ∈ j.bins, y.bin = g → y.phase = 2) ∧
      v.fld Reg.CEL_INST_FIRST_DONE Fl.CEL_INST_FIRST_DONE_COUNT =
        min (s.fld Reg.CEL_INST_FIRST_DONE Fl.CEL_INST_FIRST_DONE_COUNT + 1) (2 ^ 32 - 1) := by
  have hmem : s.hostMem mem = mem := by rw [State.hostMem, hcache, if_pos rfl]
  have hfind' : (k.bins.find? fun y => y.bin == g && y.phase == 1 && s.rackPower g) = some x := by
    simp only [hpower, Bool.and_true]
    exact hfind
  have hnone : (spotValues (k.entry x.entry).raw (k.lists.getD (entGroup (k.entry x.entry).raw) []) mem g).any (fun q => q.2.isNone) = false := by
    rw [List.any_eq_false]
    intro q hq
    rw [Option.isNone_iff_eq_none]
    intro h0
    have := hspots q hq
    rw [h0] at this
    exact absurd this (by decide)
  have hchecks : ((binChunks (k.entry x.entry).raw (k.lists.getD (entGroup (k.entry x.entry).raw) []) g).map fun n =>
      chunkOk (k.entry x.entry).raw (k.lists.getD (entGroup (k.entry x.entry).raw) []) mem n).any Option.isNone = false := by
    rw [List.any_eq_false]
    intro o ho
    obtain ⟨n, hn, rfl⟩ := List.mem_map.1 ho
    rw [hchunks n hn]
    decide
  have hfailed : (binChunks (k.entry x.entry).raw (k.lists.getD (entGroup (k.entry x.entry).raw) []) g).filter (fun n =>
      chunkOk (k.entry x.entry).raw (k.lists.getD (entGroup (k.entry x.entry).raw) []) mem n == some false) = [] := by
    rw [List.filter_eq_nil_iff]
    intro n hn
    rw [hchunks n hn]
    decide
  have hprog := s.programs_passed hinst erased g (entDst (k.entry x.entry).raw) (passBlocks (k.entry x.entry).raw mem s.fresh g)
  obtain ⟨sc, hsc⟩ := hprog.inst
  have hfld (n : Nat) : ((((s.passed erased g (entDst (k.entry x.entry).raw) (passBlocks (k.entry x.entry).raw mem s.fresh g)).bump
      Reg.CEL_INST_CLIPPED Fl.CEL_INST_CLIPPED_COUNT n).bump Reg.CEL_INST_FIRST_DONE Fl.CEL_INST_FIRST_DONE_COUNT)).fld Reg.CEL_INST_FIRST_DONE
      Fl.CEL_INST_FIRST_DONE_COUNT = min (s.fld Reg.CEL_INST_FIRST_DONE Fl.CEL_INST_FIRST_DONE_COUNT + 1) (2 ^ 32 - 1) := by
    rw [State.fld_bump_same _ _ _ _ (by decide), State.fld, State.bump, State.rd_setFld, if_neg (by decide), State.rd_congr hprog.regs]
    rfl
  subst hg
  have hexec : exec (.firstPassDone c b erased mem) s = execFirstPassDone c b erased mem s := rfl
  rw [hexec, execFirstPassDone, hinst]
  dsimp only
  rw [hfind']
  dsimp only
  rw [hmem, List.findSome?_eq_none_iff.2, hnone, hchecks, hfailed]
  · rw [if_neg (by simp)]
    dsimp only [Option.or]
    rw [if_neg Bool.false_ne_true, if_neg Bool.false_ne_true]
    dsimp only
    split
    · next h0 => exact absurd (h0.symm.trans ((State.bump_inst ..).trans ((State.bump_inst ..).trans hsc))) (by simp)
    · next k' _ =>
      refine ⟨_, _, rfl, (State.rowsPut_same ..).1, ?_, ?_⟩
      · exact fun y hy hg => Install.mapBins_phase _ _ _ hy hg
      · rw [← hfld, State.fld, State.rd_congr (State.rowsPut_same ..).2]
        rfl
  · intro q hq
    obtain ⟨y, hy⟩ := hblocks q hq
    rw [hy]
theorem firstPassDone_spec {c : CoreId} {b : BinId} {erased : Fin 33} {mem : List (Nat × List Byte)} {x : InstBin} (hinst : s.inst = some k)
    (hg : c.val * 480 + b.val = g) (hfind : (k.bins.find? fun y => y.bin == g && y.phase == 1) = some x)
    (hpower : s.rackPower g = true) (hcache : s.cacheOk = true)
    (hblocks : ∀ q ∈ passBlocks (k.entry x.entry).raw mem s.fresh g, ∃ v, q.2.2 = .inl v)
    (hspots : ∀ q ∈ spotValues (k.entry x.entry).raw (k.lists.getD (entGroup (k.entry x.entry).raw) []) mem g, q.2.isSome = true)
    (hchunks : ∀ n ∈ binChunks (k.entry x.entry).raw (k.lists.getD (entGroup (k.entry x.entry).raw) []) g,
      chunkOk (k.entry x.entry).raw (k.lists.getD (entGroup (k.entry x.entry).raw) []) mem n = some true) :
    ∃ t j, exec (.firstPassDone c b erased mem) s = .next t ∧ t.inst = some j ∧ (∀ y ∈ j.bins, y.bin = g → y.phase = 2) ∧
      t.fld Reg.CEL_INST_FIRST_DONE Fl.CEL_INST_FIRST_DONE_COUNT =
        min (s.fld Reg.CEL_INST_FIRST_DONE Fl.CEL_INST_FIRST_DONE_COUNT + 1) (2 ^ 32 - 1) := by
  obtain ⟨v, j, hexec, hv, hbins, hfld⟩ := exec_firstPassDone hinst hg hfind hpower hcache hblocks hspots hchunks
  have hk := State.instKick_spec hv
  obtain ⟨j', hj, hnext, -⟩ := hk.inst
  refine ⟨_, j', hexec, hj, hnext.at_ g (· = 2) ⟨fun h => absurd h (by decide), fun h => absurd h (by decide)⟩ hbins, ?_⟩
  rw [State.fld, hk.rd _ (by decide) (by decide) (by decide)]
  exact hfld
theorem settleExpire_spec {c : CoreId} {b : BinId} (hinst : s.inst = some k) (hg : c.val * 480 + b.val = g)
    (hsettling : (k.bins.any fun y => y.bin == g && y.phase == 2) = true) :
    ∃ t j, exec (.settleExpire c b) s = .next t ∧ t.inst = some j ∧ ∀ y ∈ j.bins, y.bin = g → y.phase = 3 ∨ y.phase = 4 := by
  have hexec : exec (.settleExpire c b) s = .next (s.putInst (k.mapBins (fun y => y.bin == g) fun y => { y with phase := 3 })).instKick := by
    show execSettleExpire c b s = _
    rw [execSettleExpire, hinst, hg]
    dsimp only
    rw [if_pos hsettling]
    rfl
  have hk := State.instKick_spec (s := s.putInst (k.mapBins (fun y => y.bin == g) fun y => { y with phase := 3 })) rfl
  obtain ⟨j, hj, hnext, -⟩ := hk.inst
  exact ⟨_, j, hexec, hj, hnext.at_ g (fun n => n = 3 ∨ n = 4) ⟨by decide, by decide⟩ fun y hy hyg => .inl (Install.mapBins_phase _ _ _ hy hyg)⟩

/-! ## A touch-up is done (R164, R167) -/

/-- The counters that the end of a touch-up raises, and the record of bin `g`, as they were. -/
structure SameOutcome (g : Nat) (s t : State) : Prop where
  rd : ∀ o, o = Reg.CEL_INST_FINISHED ∨ o = Reg.CEL_INST_FAILED → t.rd o = s.rd o
  bin : t.binRec g = s.binRec g
  queue : t.refreshQ = s.refreshQ
theorem SameOutcome.refl : SameOutcome g s s := ⟨fun _ _ => rfl, rfl, rfl⟩
theorem SameOutcome.trans (h : SameOutcome g s t) (h' : SameOutcome g t u) : SameOutcome g s u :=
  ⟨fun o ho => (h'.rd o ho).trans (h.rd o ho), h'.bin.trans h.bin, h'.queue.trans h.queue⟩
theorem SameOutcome.foldl {α : Type} {f : State → α → State} {as : List α} (hf : ∀ s a, SameOutcome g s (f s a)) (s : State) :
    SameOutcome g s (as.foldl f s) :=
  List.foldlRecOn (motive := SameOutcome g s) as f .refl fun t ht a _ => ht.trans (hf t a)
theorem State.sameOutcome_wr {o : Nat} (ho : o ≠ Reg.CEL_INST_FINISHED ∧ o ≠ Reg.CEL_INST_FAILED) (s : State) (x : DWord) : SameOutcome g s (s.wr o x) := by
  refine ⟨fun o' ho' => State.rd_wr_other _ _ _ _ ?_, rfl, rfl⟩
  rcases ho' with rfl | rfl
  · exact ho.1.symm
  · exact ho.2.symm
theorem State.sameOutcome_hvSync (s : State) : SameOutcome g s s.hvSync :=
  ⟨fun o ho => State.rd_hvSync _ (by rcases ho with rfl | rfl <;> decide), State.binRec_congr s.hvSync_binRecs g, s.hvSync_refreshQ⟩
theorem State.sameOutcome_runRefreshes (hq : s.refreshQ = []) : SameOutcome g s s.runRefreshes := by
  rw [State.runRefreshes, hq]
  exact s.sameOutcome_hvSync
theorem chk_ne_outcome (p : Nat) {o : Nat} (ho : o ∈ [Reg.CEL_CHK_CTL p, Reg.CEL_CHK_LIMITS p, Reg.CEL_CHK_WINDOW p, Reg.CEL_CHK_COMMIT_STATUS p]) :
    o ≠ Reg.CEL_INST_FINISHED ∧ o ≠ Reg.CEL_INST_FAILED := by
  simp only [List.mem_cons, List.not_mem_nil, or_false] at ho
  unfold Reg.CEL_INST_FINISHED Reg.CEL_INST_FAILED
  rcases ho with rfl | rfl | rfl | rfl
  · unfold Reg.CEL_CHK_CTL; omega
  · unfold Reg.CEL_CHK_LIMITS; omega
  · unfold Reg.CEL_CHK_WINDOW; omega
  · unfold Reg.CEL_CHK_COMMIT_STATUS; omega
theorem State.sameOutcome_holdChk (s : State) (b : Nat) (old : DWord × DWord) : SameOutcome g s (s.holdChk b old) := ⟨fun _ _ => rfl, rfl, rfl⟩
/-- The statistics of bin `b` begin a new window. -/
def State.windowed (s : State) (b : Nat) : State := (s.clearStats b).setCheck b { s.check b with winCount := 0, winHeld := none }
theorem State.sameOutcome_windowed (s : State) (b : Nat) : SameOutcome g s (s.windowed b) := ⟨fun _ _ => rfl, rfl, rfl⟩
/-- The thresholds of the partition's units on a die recorded. -/
def State.recordedOn (l : Nat × Nat × Nat) (p : Nat) (s : State) (die : Nat) : State :=
  { s with
    thresholds := swrite (fun _ => (200, 50, 30)) s.thresholds (16 * die + p) l
    threshBad := s.threshBad.filter fun k => k != 16 * die + p }
theorem State.sameOutcome_recordedOn (l : Nat × Nat × Nat) (p : Nat) (s : State) (die : Nat) : SameOutcome g s (s.recordedOn l p die) :=
  ⟨fun _ _ => rfl, rfl, rfl⟩
theorem State.sameOutcome_chkChanged (p : Nat) (old s : State) : SameOutcome g s (State.chkChanged p old s) := by
  rw [State.chkChanged]
  dsimp only
  have hhold (bs : List Nat) (s : State) : SameOutcome g s (bs.foldl (fun (s : State) b => s.holdChk b (old.chkRegs b)) s) :=
    .foldl (fun s b => s.sameOutcome_holdChk b _) s
  split
  · exact hhold _ s
  · exact (hhold _ s).trans (SameOutcome.foldl (f := State.windowed) State.sameOutcome_windowed _)
theorem State.sameOutcome_commitChk (s : State) (p : Nat) : SameOutcome g s (s.commitChk p) := by
  have hstatus := chk_ne_outcome p (o := Reg.CEL_CHK_COMMIT_STATUS p) (by simp)
  rw [State.commitChk, State.commit]
  split
  · exact s.sameOutcome_wr hstatus _
  · have happly : SameOutcome g s (s.applyGroup (chkGroup p)) :=
      List.foldlRecOn (motive := SameOutcome g s) (chkGroup p).words _ .refl fun t ht q hq => ht.trans
        (t.sameOutcome_wr (chk_ne_outcome p (by
          simp only [chkGroup, List.mem_cons, List.not_mem_nil, or_false] at hq
          rcases hq with rfl | rfl | rfl <;> simp)) _)
    exact (happly.trans (State.sameOutcome_chkChanged ..)).trans (State.sameOutcome_wr hstatus _ _)
theorem State.sameOutcome_wrShadow (s : State) (o : Nat) (x : DWord) : SameOutcome g s (s.wrShadow o x) := ⟨fun _ _ => rfl, rfl, rfl⟩
theorem State.sameOutcome_tighten (s : State) (k : Install) : SameOutcome g s (s.tighten k) := by
  rw [State.tighten]
  split
  · have hrec : SameOutcome g s (s.recordThresholds k.part (leAt k.desc 14 2, leAt k.desc 16 1, leAt k.desc 17 1)) :=
      SameOutcome.foldl (f := State.recordedOn _ k.part) (State.sameOutcome_recordedOn _ _) s
    exact (hrec.trans (State.sameOutcome_wrShadow ..)).trans (State.sameOutcome_commitChk ..)
  · exact .refl

/-- A fault recorded: what changes is the error log and its two registers. -/
structure OnlyLog (s t : State) : Prop where
  eq : ∃ log regs, t = { s with errLog := log, regs := regs }
  rd : ∀ o, o ≠ Reg.DUMP_ERR_LOST → o ≠ Reg.DUMP_ERR_HEAD → t.rd o = s.rd o
theorem OnlyLog.trans (h : OnlyLog s t) (h' : OnlyLog t u) : OnlyLog s u := by
  obtain ⟨_, _, rfl⟩ := h.eq
  obtain ⟨_, _, rfl⟩ := h'.eq
  exact ⟨⟨_, _, rfl⟩, fun o hlost hhead => (h'.rd o hlost hhead).trans (h.rd o hlost hhead)⟩
theorem State.onlyLog_setErrLog (s : State) (l : List (Nat × LogSlot)) : OnlyLog s (s.setErrLog l) := ⟨⟨_, _, rfl⟩, fun _ _ _ => rfl⟩
theorem State.onlyLog_setFld {o : Nat} (ho : o = Reg.DUMP_ERR_LOST ∨ o = Reg.DUMP_ERR_HEAD) (s : State) (f : Fld) (v : Nat) : OnlyLog s (s.setFld o f v) := by
  refine ⟨⟨_, _, rfl⟩, fun o' hlost hhead => ?_⟩
  rw [State.rd_setFld, if_neg]
  rintro rfl
  exact ho.elim hlost hhead
theorem State.onlyLog_logFault (s : State) (code : Nat) (unit : FaultUnit) (part : Option Nat) (outcome detail : Nat) :
    OnlyLog s (s.logFault code unit part outcome detail) := by
  rw [State.logFault]
  split
  · exact (s.onlyLog_setErrLog _).trans (State.onlyLog_setFld (.inr rfl) ..)
  · exact ((State.onlyLog_setFld (.inl rfl) s ..).trans (State.onlyLog_setErrLog ..)).trans (State.onlyLog_setFld (.inr rfl) ..)

/-- The draws of a touch-up made. -/
def State.drawnUp (s : State) : State := { s.drew.drew.drew with fresh := s.drew.drew.drew.fresh + 4 }
/-- A finished and failed bin counted. -/
def State.countedFailed (s : State) : State :=
  (s.drawnUp.bump Reg.CEL_INST_FINISHED Fl.CEL_INST_FINISHED_COUNT).bump Reg.CEL_INST_FAILED Fl.CEL_INST_FAILED_COUNT
/-- The record of bin `g` after one test run more. -/
def State.testedRec (s : State) (g err : Nat) : BinRec := { s.binRec g with lastErr := err, tvRuns := min ((s.binRec g).tvRuns + 1) 65535 }
/-- Bin `g` written, its test runs counted, and OFFLINE. -/
def State.failedBin (s : State) (k : Install) (e : List Byte) (g : Nat) (r : BinRec) : State := ((s.setBinRec g r).mapBin k e g).offlineBin g
theorem State.failedBin_spec (s : State) (k : Install) (e : List Byte) (g : Nat) (r : BinRec) :
    ((s.failedBin k e g r).binRec g).state = .offline ∧ (s.failedBin k e g r).refreshQ = s.refreshQ ∧
      ∀ o, o = Reg.CEL_INST_FINISHED ∨ o = Reg.CEL_INST_FAILED → (s.failedBin k e g r).rd o = s.rd o := by
  obtain ⟨hkept, hstate⟩ := ((s.setBinRec g r).mapBin k e g).offlineBin_spec g
  refine ⟨hstate, hkept.queue, fun o ho => ?_⟩
  rw [State.failedBin, State.offlineBin]
  split
  · rw [(State.onlyLog_logFault ..).rd _ (by rcases ho with rfl | rfl <;> decide) (by rcases ho with rfl | rfl <;> decide)]
    rfl
  · rfl
theorem State.touchedUp_failed {x : InstBin} (hinst : s.inst = some k) (hfind : (k.bins.find? fun y => y.bin == g && y.phase == 4) = some x) :
    ∃ r err d, s.touchedUp g 2 = (s.countedFailed.failedBin k (k.entry x.entry).raw g r).putInst
      (k.mapBins (fun y => y.bin == g) fun y => { y with phase := 5, outcome := 2, err := err, draw := d }) := by
  rw [State.touchedUp, hinst]
  dsimp only
  rw [hfind]
  dsimp only
  rw [if_pos (Nat.le_refl 2), if_neg (show ¬ 2 = 1 by decide), if_pos (Nat.le_refl 2), if_pos (Nat.le_refl 2)]
  exact ⟨s.countedFailed.testedRec g _, _, _, rfl⟩
theorem State.sameOutcome_setFld {o : Nat} (ho : o ≠ Reg.CEL_INST_FINISHED ∧ o ≠ Reg.CEL_INST_FAILED) (s : State) (f : Fld) (v : Nat) :
    SameOutcome g s (s.setFld o f v) := s.sameOutcome_wr ho _
theorem State.sameOutcome_noInst (s : State) : SameOutcome g s s.noInst := ⟨fun _ _ => rfl, rfl, rfl⟩
theorem State.sameOutcome_instEnd (h : s.inst = some k) (hq : s.refreshQ = []) : SameOutcome g s s.instEnd := by
  rw [State.instEnd, h]
  dsimp only
  split
  · have hend : SameOutcome g s (((((s.tighten k).noInst.setFld Reg.CEL_INST_STAT Fl.CEL_INST_STAT_STATE instDone).setFld Reg.CEL_INST_STAT
        Fl.CEL_INST_STAT_ERROR 0).setFld Reg.CEL_INST_ENTRY Fl.CEL_INST_ENTRY_ENTRY 0xFFFFFFFF).hvSync) :=
      (((((s.sameOutcome_tighten k).trans (State.sameOutcome_noInst _)).trans (State.sameOutcome_setFld (by decide) ..)).trans
        (State.sameOutcome_setFld (by decide) ..)).trans (State.sameOutcome_setFld (by decide) ..)).trans (State.sameOutcome_hvSync _)
    exact hend.trans (State.sameOutcome_runRefreshes (hend.queue.trans hq))
  · obtain ⟨-, -, -, -, -, hqueue, hrecs, hrd⟩ := State.instSync_spec h
    exact ⟨fun o ho => by rcases ho with rfl | rfl <;> exact hrd _ (by decide) (by decide) (by decide), State.binRec_congr hrecs g, hqueue⟩
theorem State.sameOutcome_instKick (h : s.inst = some k) (hphase : At g (· = 5) k.bins) (hq : s.refreshQ = []) : SameOutcome g s s.instKick := by
  have hk := State.instKick_spec h
  refine ⟨fun o ho => by rcases ho with rfl | rfl <;> exact hk.rd _ (by decide) (by decide) (by decide), ?_, ?_⟩
  · exact hk.recs hq g (· = 5) ⟨fun h => absurd h (by decide), fun h => absurd h (by decide)⟩ (by decide) hphase
  · rw [hq, List.eq_nil_iff_forall_not_mem]
    exact fun a ha => List.not_mem_nil (hq ▸ hk.queue a ha)
theorem exec_touchUpDone {c : CoreId} {b : BinId} {devs : List (Fin 16384 × Fin 256 × Nat)} {refs : List Nat} {x : InstBin} (hinst : s.inst = some k)
    (hg : c.val * 480 + b.val = g) (hfind : (k.bins.find? fun y => y.bin == g && y.phase == 4) = some x) (huniq : ∀ y ∈ k.bins, y.bin = g → y = x)
    (hpower : s.rackPower g = true) (hcells : cellOutcome (entDst (k.entry x.entry).raw) devs refs = 2) :
    exec (.touchUpDone c b ⟨devs, refs⟩) s = .next (s.touchedUp g 2).instKick.instEnd := by
  obtain ⟨hbin, hphase⟩ : x.bin = g ∧ x.phase = 4 := by simpa using List.find?_some hfind
  have hx := List.mem_of_find?_eq_some hfind
  have hon : s.installOn (binDie g) = true := by
    rw [State.installOn, hinst]
    refine List.any_eq_true.2 ⟨x, hx, ?_⟩
    rw [hbin, hphase, beq_self_eq_true]
    rfl
  have hfirst : (k.bins.find? fun y => y.bin == g) = some x := by
    cases hf : k.bins.find? fun y => y.bin == g with
    | none => exact absurd hbin (by simpa using List.find?_eq_none.1 hf x hx)
    | some y => exact congrArg some (huniq y (List.mem_of_find?_eq_some hf) (by simpa using List.find?_some hf))
  have hformat : s.instFormat g = entDst (k.entry x.entry).raw := by
    rw [State.instFormat, hinst]
    dsimp only
    rw [hfirst]
  subst hg
  show execTouchUpDone c b ⟨devs, refs⟩ s = _
  rw [execTouchUpDone]
  dsimp only
  rw [if_pos ⟨by rw [hinst]; rfl, hon, hpower⟩, hformat, hcells]
theorem touchUpFails {c : CoreId} {b : BinId} {devs : List (Fin 16384 × Fin 256 × Nat)} {refs : List Nat} {x : InstBin} (hinst : s.inst = some k)
    (hg : c.val * 480 + b.val = g) (hfind : (k.bins.find? fun y => y.bin == g && y.phase == 4) = some x) (huniq : ∀ y ∈ k.bins, y.bin = g → y = x)
    (hpower : s.rackPower g = true) (hq : s.refreshQ = []) (hcells : cellOutcome (entDst (k.entry x.entry).raw) devs refs = 2) :
    ∃ t, exec (.touchUpDone c b ⟨devs, refs⟩) s = .next t ∧ (t.binRec g).state = .offline ∧
      t.fld Reg.CEL_INST_FINISHED Fl.CEL_INST_FINISHED_COUNT =
        min (s.fld Reg.CEL_INST_FINISHED Fl.CEL_INST_FINISHED_COUNT + 1) (2 ^ 32 - 1) ∧
      t.fld Reg.CEL_INST_FAILED Fl.CEL_INST_FAILED_COUNT =
        min (s.fld Reg.CEL_INST_FAILED Fl.CEL_INST_FAILED_COUNT + 1) (2 ^ 32 - 1) := by
  obtain ⟨r, err, d, heq⟩ := State.touchedUp_failed hinst hfind
  obtain ⟨hoff, hqueue, hrd⟩ := s.countedFailed.failedBin_spec k (k.entry x.entry).raw g r
  have hfin : s.countedFailed.fld Reg.CEL_INST_FINISHED Fl.CEL_INST_FINISHED_COUNT =
      min (s.fld Reg.CEL_INST_FINISHED Fl.CEL_INST_FINISHED_COUNT + 1) (2 ^ 32 - 1) := by
    rw [State.countedFailed, State.fld, State.bump, State.rd_setFld, if_neg (by decide)]
    exact State.fld_bump_same _ _ _ _ (by decide)
  have hfail : s.countedFailed.fld Reg.CEL_INST_FAILED Fl.CEL_INST_FAILED_COUNT =
      min (s.fld Reg.CEL_INST_FAILED Fl.CEL_INST_FAILED_COUNT + 1) (2 ^ 32 - 1) := by
    rw [State.countedFailed, State.fld_bump_same _ _ _ _ (by decide), State.fld, State.bump, State.rd_setFld, if_neg (by decide)]
    rfl
  have hq' : s.countedFailed.refreshQ = [] := by
    rw [State.countedFailed, State.bump_refreshQ, State.bump_refreshQ]
    exact hq
  generalize s.countedFailed = w at *
  have hexec := exec_touchUpDone hinst hg hfind huniq hpower hcells
  rw [heq] at hexec
  generalize w.failedBin k (k.entry x.entry).raw g r = v at *
  generalize hj : (k.mapBins (fun y => y.bin == g) fun y => { y with phase := 5, outcome := 2, err := err, draw := d }) = j at *
  have hphase : At g (· = 5) j.bins := fun y hy hyg => by
    rw [← hj] at hy
    exact k.mapBins_phase_of (fun _ => rfl) hy hyg
  have hkick := State.sameOutcome_instKick (s := v.putInst j) rfl hphase (hqueue.trans hq')
  obtain ⟨i, hi, -⟩ := (State.instKick_spec (s := v.putInst j) rfl).inst
  have hend := hkick.trans (State.sameOutcome_instEnd hi (hkick.queue.trans (hqueue.trans hq')))
  refine ⟨_, hexec, ?_, ?_, ?_⟩
  · rw [hend.bin]
    exact hoff
  · rw [State.fld, hend.rd _ (.inl rfl), ← hfin]
    exact congrArg (Fld.get _) (hrd _ (.inl rfl))
  · rw [State.fld, hend.rd _ (.inr rfl), ← hfail]
    exact congrArg (Fld.get _) (hrd _ (.inr rfl))

/-! ## A queued refresh is released (R177) -/

theorem State.nextRefresh_go {a : DriftAct} (hqueue : s.refreshQ = [a]) (hgo : a.go = true) (hnone : s.refreshing = []) (hinst : s.inst = none)
    (hflow : s.flowing = true) (hpower : s.rackPower a.bin = true) : s.nextRefresh = some a := by
  have hreleased : s.released a = true := by rw [State.released, hgo, Bool.true_or]
  have hrefresh : s.refreshOn (binDie a.bin) = false := by rw [State.refreshOn, hnone]; rfl
  have hinstall : s.installOn (binDie a.bin) = false := by rw [State.installOn, hinst]
  rw [State.nextRefresh, hqueue, List.find?_cons, hflow, hreleased, hpower, hrefresh, hinstall]
  rfl
theorem locate_refreshGo : locate Reg.CEL_REFRESH_GO = some (0, .cel, 0x1504) ∧ findReg .cel 0x1504 = some regsCel[12] := by decide
theorem refreshGo_unreserved : ∀ p : PartId, ((BitVec.ofNat 32 (2 ^ p.val)).setWidth 64 : DWord) &&& regsCel[12].reservedBits = 0 := by decide
theorem refreshGo_spec (hbi : s.biWant = []) {p : PartId} {a : DriftAct} (hready : s.fwReady = true) (hqueue : s.refreshQ = [a]) (hnone : s.refreshing = [])
    (hinst : s.inst = none) (hserve : s.inService a.bin = true) (hflow : s.flowing = true) (hpart : (s.binRec a.bin).part = p)
    (hpower : s.rackPower a.bin = true) : ∃ t, exec (.refreshGo (BitVec.ofNat 32 (2 ^ p.val))) s = .next t ∧ t.refreshQ = [] ∧
      t.refreshing = [{ a with go := true }] ∧ (t.binRec a.bin).state = .refresh ∧ PantryKept s t := by
  have hbit : (BitVec.ofNat 32 (2 ^ p.val)).getLsbD (s.binRec a.bin).part = true := by
    rw [hpart, BitVec.getLsbD_ofNat, Nat.testBit_two_pow_self, Bool.and_true, decide_eq_true_eq]
    exact Nat.lt_of_lt_of_le p.isLt (by decide)
  have hgo : s.refreshGo (BitVec.ofNat 32 (2 ^ p.val)) = (s.setRefreshQ [{ a with go := true }]).runRefreshes := by
    rw [State.refreshGo, hready, if_pos rfl, State.writeRefreshGo, hqueue, List.map_cons, if_pos hbit]
    rfl
  obtain ⟨hpantry, hbi', -, -⟩ := (s.setRefreshQ [{ a with go := true }]).runRefreshes_spec
  obtain ⟨hempty, hrunning, hstate, -⟩ := State.runRefreshes_one (s := s.setRefreshQ [{ a with go := true }]) rfl hnone hserve
    (State.nextRefresh_go (s := s.setRefreshQ [{ a with go := true }]) rfl rfl hnone hinst hflow hpower)
  refine ⟨_, put32_module locate_refreshGo.1 (by decide) rfl (by decide) rfl locate_refreshGo.2 rfl (by decide) (refreshGo_unreserved p)
    (quiet_of_live (by decide) _) rfl ?_ (hbi'.trans hbi), hempty, hrunning, hstate, pantryKept_of_eq hpantry⟩
  rw [State.act, if_neg (by decide), if_pos rfl, setWidth_wide]
  exact hgo

/-- Settles O38: an install goes through CHECK, first pass, settling and touch-up, and ends; a released refresh starts. -/
theorem installsRun : Obligations.InstallsRun := by
  intro s hbi
  refine ⟨instGo_spec hbi, fun h e he => ?_, fun _ _ hcheck herr hlt => judgeRefuses hcheck herr hlt,
    fun _ _ hcheck hk hne hphase => judgeAccepts hcheck hk hne hphase, ?_, fun c b k x hinst => ⟨?_, ?_, ?_⟩, ?_⟩
  · simp only [List.mem_cons, List.not_mem_nil, or_false] at he
    rcases he with rfl | rfl
    · exact instAbort_spec hbi h
    · exact hvFault_spec h
  · exact fun n chunk mem k hinst hopen hpass hlt hbad htries => chunkFails hinst hopen hpass hlt hbad htries
  · exact fun erased mem hfind hpower hcache hblocks hspots hchunks => firstPassDone_spec hinst rfl hfind hpower hcache hblocks hspots hchunks
  · exact settleExpire_spec hinst rfl
  · exact fun devs refs hfind huniq hpower hq hcells => touchUpFails hinst rfl hfind huniq hpower hq hcells
  · exact fun p a hready hqueue hnone hinst hserve hflow hpart hpower => refreshGo_spec hbi hready hqueue hnone hinst hserve hflow hpart hpower

end Sys2Proof.Machine
end

section
/-! PROOFS. What caps, skipping, throttle records and regions that go Dark leave (O39, O41, O42, O45). -/

namespace Sys2Proof.Machine

variable {s t u v : State} {r q c d n x : Nat}

/-! ## Single bits of a register -/

theorem Fld.testBit_set {f : Fld} (hf : f.lsb + f.width ≤ 64) (w : DWord) (x : Nat) {e : Nat} (he : e < 64) (hapart : e < f.lsb ∨ f.lsb + f.width ≤ e) :
    (f.set w x).toNat.testBit e = w.toNat.testBit e := by
  rw [BitVec.testBit_toNat, BitVec.testBit_toNat, Fld.set_getLsbD f w x hf e he, if_neg (by omega)]
theorem Fld.testBit_set_bit (w : DWord) (x : Nat) {e : Nat} (he : e < 64) : (Fld.set ⟨e, 1⟩ w x).toNat.testBit e = decide (x % 2 = 1) := by
  rw [BitVec.testBit_toNat, Fld.set_getLsbD ⟨e, 1⟩ w x (by show e + 1 ≤ 64; omega) e he, if_pos ⟨Nat.le_refl e, Nat.lt_succ_self e⟩, Nat.sub_self,
    Nat.testBit_zero]
/-- A bit of PWR.DOMAIN_STAT once a domain is switched. -/
theorem State.domainOn_setDomain (s : State) {d e : Nat} (b : Bool) (hd : d < 64) (he : e < 64) :
    (s.setDomain d b).domainOn e = if e = d then b else s.domainOn e := by
  rw [State.domainOn, State.setDomain, State.rd_setFld, if_pos rfl]
  by_cases h : e = d
  · subst h
    rw [Fld.testBit_set_bit _ _ he, if_pos rfl]
    cases b <;> rfl
  · rw [if_neg h]
    exact Fld.testBit_set (f := ⟨d, 1⟩) (by show d + 1 ≤ 64; omega) _ _ he (by show e < d ∨ d + 1 ≤ e; omega)

/-! ## What caps, skipping and records of throttling and of faults leave -/

/-- The registers of the blocks PWR and THM, of the stagehands, of the claims, and of what the cores are bound to. -/
def keptReg (o : Nat) : Prop := (0x40000 ≤ o ∧ o < 0x60000) ∨
  (0x01000000 ≤ o ∧ o < 0x02000000 ∧ (o % 0x100000 < 0x1000 ∨ (0x1040 ≤ o % 0x100000 ∧ o % 0x100000 < 0x1080))) ∨
  (0x04000000 ≤ o ∧ o < 0x08000000 ∧ o % 0x40000 = 0)
/-- What bookkeeping of caps, skipping, throttling, faults and messages may change. -/
def State.calmed (s : State) (regs : List (Nat × DWord)) (thr errs : List (Nat × LogSlot)) (out : List OutMsg) (net : List NetMsg)
    (a b skips : List (Nat × Nat)) : State :=
  { s with regs := regs, thrLog := thr, errLog := errs, outbox := out, net := net, power.thrFrom := a, power.thrTicks := b, power.skips := skips }
/-- Bookkeeping, by which no register of power is changed. -/
structure Calm (s t : State) : Prop where
  eq : ∃ regs thr errs out net a b skips, t = s.calmed regs thr errs out net a b skips
  rd : ∀ o, keptReg o → t.rd o = s.rd o
theorem Calm.refl (s : State) : Calm s s := ⟨⟨_, _, _, _, _, _, _, _, rfl⟩, fun _ _ => rfl⟩
theorem Calm.trans (h : Calm s t) (h' : Calm t u) : Calm s u := by
  obtain ⟨⟨_, _, _, _, _, _, _, _, rfl⟩, hrd⟩ := h
  obtain ⟨⟨_, _, _, _, _, _, _, _, rfl⟩, hrd'⟩ := h'
  exact ⟨⟨_, _, _, _, _, _, _, _, rfl⟩, fun o ho => (hrd' o ho).trans (hrd o ho)⟩
theorem Calm.foldl {α : Type} {f : State → α → State} {as : List α} (hf : ∀ s, ∀ a ∈ as, Calm s (f s a)) (s : State) : Calm s (as.foldl f s) :=
  List.foldlRecOn (motive := Calm s) as f (.refl s) fun t ht a ha => ht.trans (hf t a ha)
theorem Calm.ite {p : Prop} [Decidable p] (ht : Calm s t) (hu : Calm s u) : Calm s (if p then t else u) := by
  split
  · exact ht
  · exact hu
/-- What requests are served by. -/
def State.work (s : State) := (s.reqs, s.host, s.ctxs, s.slots, s.parts, s.blk)
/-- What regions that go Dark leave. -/
def State.enduring (s : State) := (s.work, s.faults, s.inst, s.refreshQ, s.binds, s.power.legacyUp, s.power.curtainAsk, s.power.shortMay, s.power.shortTry,
  s.power.shortBar, s.power.flowPin, s.power.flowDark, s.power.convBad)
/-- What cores that go Dark leave. -/
def State.lasting (s : State) := (s.enduring, s.biWant, s.power.upStage, s.power.curtainDowns)
/-- The parts of what cores that go Dark leave. -/
theorem State.lasting_iff : t.lasting = s.lasting ↔
    t.enduring = s.enduring ∧ t.biWant = s.biWant ∧ t.power.upStage = s.power.upStage ∧ t.power.curtainDowns = s.power.curtainDowns := by
  rw [State.lasting, State.lasting]
  generalize t.power.curtainDowns = d, t.power.upStage = c, t.biWant = b, t.enduring = a
  generalize s.power.curtainDowns = d', s.power.upStage = c', s.biWant = b', s.enduring = a'
  constructor
  · rintro h
    cases h
    exact ⟨rfl, rfl, rfl, rfl⟩
  · rintro ⟨rfl, rfl, rfl, rfl⟩
    rfl
section
variable (h : Calm s t)
include h
theorem Calm.pantry : t.pantry = s.pantry := by obtain ⟨_, _, _, _, _, _, _, _, rfl⟩ := h.eq; rfl
theorem Calm.biWant : t.biWant = s.biWant := by obtain ⟨_, _, _, _, _, _, _, _, rfl⟩ := h.eq; rfl
theorem Calm.lasting : t.lasting = s.lasting := by obtain ⟨_, _, _, _, _, _, _, _, rfl⟩ := h.eq; rfl
theorem Calm.kvOps : t.kvOps = s.kvOps := by obtain ⟨_, _, _, _, _, _, _, _, rfl⟩ := h.eq; rfl
end
theorem not_keptReg_region {o : Nat} (r : Nat) (hlo : 0x1000 ≤ o) (hhi : o < 0x40000) (hclaim : o < 0x1040 ∨ 0x1080 ≤ o) : ¬ keptReg (regionWin r + o) := by
  unfold keptReg regionWin
  omega
theorem not_keptReg_low {o : Nat} (ho : o < 0x01000000) (h : o < 0x40000 ∨ 0x60000 ≤ o) : ¬ keptReg o := by
  unfold keptReg
  omega
theorem State.calm_wr {o : Nat} (ho : ¬ keptReg o) (s : State) (x : DWord) : Calm s (s.wr o x) :=
  ⟨⟨_, _, _, _, _, _, _, _, rfl⟩, fun _ hj => State.rd_wr_other _ _ _ _ fun h => ho (h ▸ hj)⟩
theorem State.calm_setFld {o : Nat} (ho : ¬ keptReg o) (s : State) (f : Fld) (x : Nat) : Calm s (s.setFld o f x) := s.calm_wr ho _
theorem State.calm_thrLost (s : State) (r : Nat) : Calm s (s.thrLost r) := by
  rw [State.thrLost]
  exact .ite (.refl s) (s.calm_setFld (not_keptReg_region r (o := 0x3058) (by decide) (by decide) (by decide)) _ _)
theorem State.calm_thrStored (s : State) (k : Nat) (l : List Byte) : Calm s (s.thrStored k l) := ⟨⟨_, _, _, _, _, _, _, _, rfl⟩, fun _ _ => rfl⟩
theorem State.calm_thrNoted (s : State) (a b : List (Nat × Nat)) : Calm s (s.thrNoted a b) := ⟨⟨_, _, _, _, _, _, _, _, rfl⟩, fun _ _ => rfl⟩
theorem State.calm_logThrottle (s : State) (r x : Nat) (ends : Bool) (us : Nat) : Calm s (s.logThrottle r x ends us) := by
  obtain ⟨k, l, y, hlog⟩ := s.logThrottle_eq r x ends us
  rw [hlog]
  exact ((s.calm_thrLost r).trans (State.calm_thrStored _ k l)).trans
    (State.calm_setFld (not_keptReg_region r (o := 0x3054) (by decide) (by decide) (by decide)) _ _ _)
theorem State.calm_thrSet (s : State) (r : Nat) {x : Nat} (hx : x < 10) (on : Bool) : Calm s (s.thrSet r x on) := by
  have hactive (v : State) (w : DWord) : Calm v (v.wr (Reg.THR_ACTIVE r) w) :=
    v.calm_wr (not_keptReg_region r (o := 0x3050) (by decide) (by decide) (by decide)) w
  have hdur (v : State) (w : DWord) : Calm v (v.wr (Reg.THR_DUR r x) w) := v.calm_wr (by
    unfold Reg.THR_DUR keptReg regionWin
    omega) w
  obtain hset | ⟨w, a, b, ends, us, hset⟩ | ⟨w, a, b, w', ends, us, hset⟩ := s.thrSet_eq r x on
  · rw [hset]
    exact .refl s
  · rw [hset]
    exact ((hactive s w).trans (State.calm_thrNoted _ a b)).trans (State.calm_logThrottle _ r x ends us)
  · rw [hset]
    exact (((hactive s w).trans (State.calm_thrNoted _ a b)).trans (hdur _ w')).trans (State.calm_logThrottle _ r x ends us)
theorem State.calm_thrSync (s : State) (r : Nat) : Calm s (s.thrSync r) :=
  .foldl (fun t i hi => t.calm_thrSet r (by rw [List.mem_range] at hi; omega) _) s
theorem State.calm_recap (s : State) : Calm s s.recap := by
  refine Calm.foldl (fun (t : State) (p : Nat × State) _ => ?_) s
  exact (t.calm_wr (not_keptReg_region p.1 (o := 0x1000) (by decide) (by decide) (by decide)) _).trans (State.calm_thrSync _ p.1)
/-- A rate of skipping put down. -/
def State.putSkip (s : State) (r k rate : Nat) : State := { s with power.skips := swrite (fun _ => 0) s.power.skips (r * 16 + k) rate }
theorem State.setSkip_eq (s : State) (r k rate : Nat) : s.setSkip r k rate = (((s.putSkip r k rate).setFld (Reg.ARB_SKIP r) Fl.ARB_SKIP_RATE
    ((s.putSkip r k rate).skipRate r)).setFld (Reg.ARB_SKIP r) Fl.ARB_SKIP_REASON ((s.putSkip r k rate).skipReason r)).thrSync r := rfl
theorem State.calm_putSkip (s : State) (r k rate : Nat) : Calm s (s.putSkip r k rate) := ⟨⟨_, _, _, _, _, _, _, _, rfl⟩, fun _ _ => rfl⟩
theorem State.calm_setSkip (s : State) (r k rate : Nat) : Calm s (s.setSkip r k rate) := by
  have hskip : ¬ keptReg (Reg.ARB_SKIP r) := not_keptReg_region r (o := 0x1010) (by decide) (by decide) (by decide)
  rw [State.setSkip_eq]
  exact (((s.calm_putSkip r k rate).trans (State.calm_setFld hskip ..)).trans (State.calm_setFld hskip ..)).trans (State.calm_thrSync ..)
theorem OnlyLog.calm (h : OnlyLog s t) : Calm s t := by
  obtain ⟨⟨_, _, rfl⟩, hrd⟩ := h
  refine ⟨⟨_, _, _, _, _, _, _, _, rfl⟩, fun o ho => hrd o ?_ ?_⟩
  · rintro rfl
    exact not_keptReg_low (by decide) (by decide) ho
  · rintro rfl
    exact not_keptReg_low (by decide) (by decide) ho
theorem State.calm_logFault (s : State) (code : Nat) (unit : FaultUnit) (part : Option Nat) (outcome detail : Nat) :
    Calm s (s.logFault code unit part outcome detail) := (s.onlyLog_logFault ..).calm
theorem State.calm_emit (s : State) (m : OutMsg) : Calm s (s.emit m) := ⟨⟨_, _, _, _, _, _, _, _, rfl⟩, fun _ _ => rfl⟩
/-! ## Messages that a router loses -/

theorem State.calm_dropNet (s : State) (id : Nat) : Calm s (s.dropNet id) := ⟨⟨_, _, _, _, _, _, _, _, rfl⟩, fun _ _ => rfl⟩
theorem State.calm_putNet (s : State) (m : NetMsg) : Calm s (s.putNet m) := ⟨⟨_, _, _, _, _, _, _, _, rfl⟩, fun _ _ => rfl⟩
theorem State.calm_lastNet (s : State) (m : NetMsg) : Calm s (s.lastNet m) := ⟨⟨_, _, _, _, _, _, _, _, rfl⟩, fun _ _ => rfl⟩
theorem State.calm_answer (s : State) (m : NetMsg) (status : Nat) (data : List Byte) (bad : List Bool) (router : Nat) :
    Calm s (s.answer m status data bad router) := by
  rw [State.answer]
  exact .ite (s.calm_dropNet _) (.ite (s.calm_lastNet _) (s.calm_lastNet _))
theorem State.calm_countUnreach (s : State) : Calm s s.countUnreach :=
  (s.calm_setFld (not_keptReg_low (by decide) (by decide)) ..).trans (State.calm_setFld (not_keptReg_low (by decide) (by decide)) ..)
theorem State.calm_unreachable (s : State) (m : NetMsg) (router : Nat) : Calm s (s.unreachable m router) :=
  (s.calm_answer ..).trans (State.calm_countUnreach _)
theorem State.calm_backLost (s : State) (m : NetMsg) : Calm s (s.backLost m) := by
  rw [State.backLost]
  exact .ite (s.calm_putNet _) ((s.calm_putNet _).trans (State.calm_countUnreach _))
theorem State.calm_routerDark (s : State) (c : Nat) : Calm s (s.routerDark c) := by
  refine Calm.foldl (fun (t : State) (m : NetMsg) _ => ?_) s
  exact .ite (t.calm_dropNet _) (.ite (t.calm_backLost _) (.ite (t.calm_answer ..) (t.calm_unreachable ..)))

/-! ## A core that goes Dark -/

/-- What a core that goes Dark loses of its windows, its code, its messages and its KV operations. -/
def State.blanked (s : State) (regs shadow code : List (Nat × DWord)) (latches : List (Nat × Option Word)) (ecc : List (Nat × EccMark)) (net : List NetMsg) (sigs : List SigOut)
    (scrubs : List ScrubWrite) (ops : List KvOp) (holds : List (Nat × KvHold)) (trips : List (Nat × Nat)) (droop : List (Nat × Nat)) : State :=
  { s with
    regs := regs, shadow := shadow, latches := latches, code := code, codeEcc := ecc, net := net, sigOuts := sigs, scrubWrites := scrubs,
    kvOps := ops, kvHolds := holds, trips := trips, power.droop := droop }
/-- The registers but for those of core `c`'s window. -/
def State.windowless (s : State) (c : Nat) : List (Nat × DWord) :=
  sclearIf s.regs fun k => decide (coreWin c ≤ k) && decide (k < coreWin (c + 1)) && k != Reg.CORE_ID c
theorem State.coreDark_eq (s : State) (c : Nat) : ∃ shadow code latches ecc net sigs scrubs holds trips droop,
    s.coreDark c = (((((s.loseVolatile c).claimsGone c).routerDark c).blanked ((((s.loseVolatile c).claimsGone c).routerDark c).windowless c) shadow
      code latches ecc net sigs scrubs ((((s.loseVolatile c).claimsGone c).routerDark c).kvOps.filter fun o => o.core != c) holds trips droop).zeroPantry
        c).setSleep c 4 := ⟨_, _, _, _, _, _, _, _, _, _, rfl⟩
theorem State.rd_loseVolatile (s : State) (c o : Nat) : (s.loseVolatile c).rd o = s.rd o := rfl
theorem State.lasting_loseVolatile (s : State) (c : Nat) : (s.loseVolatile c).lasting = s.lasting := rfl
theorem State.pantry_loseVolatile (s : State) (c : Nat) : (s.loseVolatile c).pantry = s.pantry := rfl
theorem State.kvOps_loseVolatile (s : State) (c : Nat) : (s.loseVolatile c).kvOps = s.kvOps := rfl
/-- The queue of claims and the decreases that wait. -/
def State.setClaims (s : State) (q : List ClaimReq) (drops : List (Nat × Option (Nat × Nat))) : State := { s with claimQ := q, power.claimDrop := drops }
theorem State.claimsGone_eq (s : State) (c : Nat) : s.claimsGone c =
    (((s.setClaims (s.claimQ.filter fun q => q.core != c) (swrite (fun _ => none) s.power.claimDrop c none)).setFld (claimReg c) Fl.ARB_CLAIM_BINS
      0).setFld (claimReg c) Fl.ARB_CLAIM_ENGINES 0).setReserved c 0 := rfl
/-- What the loss of a claim leaves. -/
structure Unclaimed (s t : State) : Prop where
  lasting : t.lasting = s.lasting
  pantry : t.pantry = s.pantry
  kvOps : t.kvOps = s.kvOps
theorem Unclaimed.trans (h : Unclaimed s t) (h' : Unclaimed t u) : Unclaimed s u :=
  ⟨h'.lasting.trans h.lasting, h'.pantry.trans h.pantry, h'.kvOps.trans h.kvOps⟩
theorem State.unclaimed_setClaims (s : State) (q : List ClaimReq) (drops : List (Nat × Option (Nat × Nat))) : Unclaimed s (s.setClaims q drops) :=
  ⟨rfl, rfl, rfl⟩
theorem State.unclaimed_setFld (s : State) (o : Nat) (f : Fld) (x : Nat) : Unclaimed s (s.setFld o f x) := ⟨rfl, rfl, rfl⟩
theorem State.unclaimed_setReserved (s : State) (c x : Nat) : Unclaimed s (s.setReserved c x) := ⟨rfl, rfl, rfl⟩
theorem State.unclaimed_claimsGone (s : State) (c : Nat) : Unclaimed s (s.claimsGone c) := by
  rw [State.claimsGone_eq]
  exact (((s.unclaimed_setClaims _ _).trans (State.unclaimed_setFld ..)).trans (State.unclaimed_setFld ..)).trans (State.unclaimed_setReserved ..)
theorem State.rd_claimsGone {o : Nat} (s : State) (c : Nat) (ho : o ≠ claimReg c) : (s.claimsGone c).rd o = s.rd o := by
  rw [State.claimsGone_eq, State.rd_setReserved, State.rd_setFld, if_neg ho, State.rd_setFld, if_neg ho]
  rfl
theorem State.granted_claimsGone (s : State) (c : Nat) : (s.claimsGone c).binsGranted c = 0 ∧ (s.claimsGone c).engGranted c = 0 := by
  rw [State.claimsGone_eq]
  constructor
  · rw [State.binsGranted, State.fld, State.rd_setReserved, State.rd_setFld, if_pos rfl, Fld.get_set_apart _ _ _ _ (by decide) (by decide) (by decide),
      State.rd_setFld, if_pos rfl, Fld.get_set _ _ _ (by decide)]
    rfl
  · rw [State.engGranted, State.fld, State.rd_setReserved, State.rd_setFld, if_pos rfl, Fld.get_set _ _ _ (by decide)]
    rfl
section
variable {shadow code : List (Nat × DWord)} {latches : List (Nat × Option Word)} {ecc : List (Nat × EccMark)} {net : List NetMsg} {sigs : List SigOut}
    {scrubs : List ScrubWrite} {ops : List KvOp} {holds : List (Nat × KvHold)} {trips : List (Nat × Nat)} {droop : List (Nat × Nat)} {regs : List (Nat × DWord)}
theorem State.lasting_blanked : (s.blanked regs shadow code latches ecc net sigs scrubs ops holds trips droop).lasting = s.lasting := rfl
theorem State.pantry_blanked : (s.blanked regs shadow code latches ecc net sigs scrubs ops holds trips droop).pantry = s.pantry := rfl
theorem State.kvOps_blanked : (s.blanked regs shadow code latches ecc net sigs scrubs ops holds trips droop).kvOps = ops := rfl
theorem State.rd_blanked {o : Nat} (ho : keptReg o) (c : Nat) :
    (s.blanked (s.windowless c) shadow code latches ecc net sigs scrubs ops holds trips droop).rd o = s.rd o := by
  have hrd : (s.blanked (s.windowless c) shadow code latches ecc net sigs scrubs ops holds trips droop).rd o = sread resetOf (s.windowless c) o := rfl
  rw [hrd, State.windowless, sread_sclearIf, if_neg]
  · rfl
  intro hin
  simp only [Bool.and_eq_true, decide_eq_true_eq, bne_iff_ne] at hin
  obtain ⟨⟨hlo, hhi⟩, hid⟩ := hin
  unfold keptReg at ho
  unfold Reg.CORE_ID at hid
  unfold coreWin at hlo hhi hid
  omega
end
theorem State.lasting_setSleep (s : State) (c x : Nat) : (s.setSleep c x).lasting = s.lasting := by
  rw [State.setSleep]
  exact (s.unclaimed_setFld ..).lasting
theorem State.lasting_zeroPantry (s : State) (c : Nat) : (s.zeroPantry c).lasting = s.lasting := rfl
theorem State.kvOps_zeroPantry (s : State) (c : Nat) : (s.zeroPantry c).kvOps = s.kvOps := rfl
theorem State.rd_zeroPantry (s : State) (c o : Nat) : (s.zeroPantry c).rd o = s.rd o := rfl
theorem State.byte_zeroPantry_own (s : State) (c : Nat) {o : Nat} (ho : o < 0x7800000) : (s.zeroPantry c).byte c o = 0 := by
  have hend : 0x7800000 ≤ s.scrubEnd c := by
    rw [State.scrubEnd]
    split <;> decide
  rw [s.byte_zeroPantry c c (Nat.lt_trans ho (by decide)), if_pos ⟨rfl, Nat.lt_of_lt_of_le ho hend⟩]
theorem State.byte_zeroPantry_zero (s : State) (c : Nat) {d o : Nat} (h : s.byte d o = 0) : (s.zeroPantry c).byte d o = 0 := by
  refine (sread_sclear _ _ _ _ _).trans ?_
  split
  · rfl
  · exact h
theorem State.sleep_setSleep_other {c d : Nat} (hc : c < 256) (hd : d < 256) (h : d ≠ c) (s : State) (x : Nat) : (s.setSleep c x).sleep d = s.sleep d := by
  rw [State.sleep, State.setSleep, State.fld, State.rd_setFld]
  split
  · next heq =>
    rw [Fld.get_set_apart _ _ _ _ (sleepFld_lt c) (sleepFld_lt d), ← heq]
    · rfl
    · unfold sleepReg Reg.STG_CORE_STATE regionWin at heq
      show 3 * (c % 8) + 3 ≤ 3 * (d % 8) ∨ 3 * (d % 8) + 3 ≤ 3 * (c % 8)
      omega
  · rfl
theorem sleepReg_kept (hc : c < 256) : keptReg (sleepReg c) := by
  unfold keptReg sleepReg Reg.STG_CORE_STATE regionWin
  omega
theorem claimReg_kept (hc : c < 256) : keptReg (claimReg c) := by
  unfold keptReg claimReg Reg.ARB_CLAIM regionWin
  omega
theorem sleepReg_ne_claimReg (hc : c < 256) (hd : d < 256) : claimReg d ≠ sleepReg c := by
  unfold claimReg sleepReg Reg.STG_CORE_STATE Reg.ARB_CLAIM regionWin
  omega
theorem claimReg_ne (hc : c < 256) (hd : d < 256) (h : d ≠ c) : claimReg d ≠ claimReg c := by
  unfold claimReg Reg.ARB_CLAIM regionWin
  omega
/-- Core `c` has gone Dark. -/
structure CoreGone (c : Nat) (s t : State) : Prop where
  rd : ∀ o, keptReg o → o ≠ sleepReg c → o ≠ claimReg c → t.rd o = s.rd o
  other : ∀ d < 256, d ≠ c → t.sleep d = s.sleep d
  sleep : t.sleep c = 4
  bins : t.binsGranted c = 0
  eng : t.engGranted c = 0
  zero : ∀ o < 0x7800000, t.byte c o = 0
  byte : ∀ d o, s.byte d o = 0 → t.byte d o = 0
  lasting : t.lasting = s.lasting
  kv : s.kvIdle → t.kvIdle
theorem State.coreDark_spec (hc : c < 256) (s : State) : CoreGone c s (s.coreDark c) := by
  obtain ⟨hbins, heng⟩ := (s.loseVolatile c).granted_claimsGone c
  have hcalm := ((s.loseVolatile c).claimsGone c).calm_routerDark c
  have hun := (s.loseVolatile c).unclaimed_claimsGone c
  have hrd (o : Nat) (ho : keptReg o) : (((s.loseVolatile c).claimsGone c).routerDark c).rd o = ((s.loseVolatile c).claimsGone c).rd o := hcalm.rd o ho
  have hgone (o : Nat) (ho : o ≠ claimReg c) : ((s.loseVolatile c).claimsGone c).rd o = s.rd o := State.rd_claimsGone _ _ ho
  have hpantry : (((s.loseVolatile c).claimsGone c).routerDark c).pantry = s.pantry := hcalm.pantry.trans hun.pantry
  have hlasting : (((s.loseVolatile c).claimsGone c).routerDark c).lasting = s.lasting := hcalm.lasting.trans hun.lasting
  have hkv : (((s.loseVolatile c).claimsGone c).routerDark c).kvOps = s.kvOps := hcalm.kvOps.trans hun.kvOps
  obtain ⟨_, _, _, _, _, _, _, _, _, _, heq⟩ := s.coreDark_eq c
  rw [heq]
  generalize (s.loseVolatile c).claimsGone c = v at *
  generalize v.routerDark c = w at *
  refine ⟨fun o ho hsleep hno => ?_, fun d hd hne => ?_, State.sleep_setSleep _ c 4 (by decide), ?_, ?_, fun o ho => ?_, fun d o h => ?_,
    (State.lasting_setSleep _ _ _).trans ((State.lasting_zeroPantry _ _).trans (State.lasting_blanked.trans hlasting)), fun h o ho => ?_⟩
  · rw [State.setSleep, State.rd_setFld, if_neg hsleep, State.rd_zeroPantry, State.rd_blanked ho, hrd o ho, hgone o hno]
  · rw [State.sleep_setSleep_other hc hd hne]
    refine congrArg (Fld.get _) ?_
    rw [State.rd_zeroPantry, State.rd_blanked (sleepReg_kept hd), hrd _ (sleepReg_kept hd), hgone _ (sleepReg_ne_claimReg hd hc).symm]
  · rw [← hbins, State.binsGranted, State.fld, State.setSleep, State.rd_setFld, if_neg (sleepReg_ne_claimReg hc hc), State.rd_zeroPantry,
      State.rd_blanked (claimReg_kept hc), hrd _ (claimReg_kept hc)]
    rfl
  · rw [← heng, State.engGranted, State.fld, State.setSleep, State.rd_setFld, if_neg (sleepReg_ne_claimReg hc hc), State.rd_zeroPantry,
      State.rd_blanked (claimReg_kept hc), hrd _ (claimReg_kept hc)]
    rfl
  · rw [State.byte, State.setSleep_pantry]
    exact State.byte_zeroPantry_own _ c ho
  · rw [State.byte, State.setSleep_pantry]
    refine State.byte_zeroPantry_zero _ c ?_
    rw [State.byte, State.pantry_blanked, hpantry]
    exact h
  · rw [State.setSleep_kvOps, State.kvOps_zeroPantry, State.kvOps_blanked] at ho
    have hmem : o ∈ w.kvOps := List.mem_of_mem_filter ho
    exact h o (hkv ▸ hmem)
/-- The cores of a list have gone Dark. -/
structure CoresGone (cs : List Nat) (s t : State) : Prop where
  rd : ∀ o, keptReg o → (∀ c ∈ cs, o ≠ sleepReg c ∧ o ≠ claimReg c) → t.rd o = s.rd o
  sleep : ∀ d < 256, d ∉ cs → t.sleep d = s.sleep d
  claim : ∀ d < 256, d ∉ cs → t.binsGranted d = s.binsGranted d ∧ t.engGranted d = s.engGranted d
  gone : ∀ c ∈ cs, t.sleep c = 4 ∧ t.binsGranted c = 0 ∧ t.engGranted c = 0
  zero : ∀ c ∈ cs, ∀ o < 0x7800000, t.byte c o = 0
  byte : ∀ d o, s.byte d o = 0 → t.byte d o = 0
  lasting : t.lasting = s.lasting
  kv : s.kvIdle → t.kvIdle
theorem coresGone_foldl (cs : List Nat) (hcs : ∀ c ∈ cs, c < 256) (s : State) : CoresGone cs s (cs.foldl (fun (s : State) c => s.coreDark c) s) := by
  induction cs generalizing s with
  | nil =>
    exact ⟨fun _ _ _ => rfl, fun _ _ _ => rfl, fun _ _ _ => ⟨rfl, rfl⟩, fun _ h => absurd h List.not_mem_nil, fun _ h => absurd h List.not_mem_nil,
      fun _ _ h => h, rfl, fun h => h⟩
  | cons c cs ih =>
    have hc := hcs c List.mem_cons_self
    have hone := s.coreDark_spec hc
    have hrest := ih (fun d hd => hcs d (List.mem_cons_of_mem c hd)) (s.coreDark c)
    rw [List.foldl_cons]
    generalize s.coreDark c = v at *
    generalize cs.foldl (fun (s : State) c => s.coreDark c) v = w at *
    refine ⟨fun o ho hne => ?_, fun d hd hno => ?_, fun d hd hno => ?_, fun d hd => ?_, fun d hd o ho => ?_, fun d o h => hrest.byte d o (hone.byte d o h),
      hrest.lasting.trans hone.lasting, fun h => hrest.kv (hone.kv h)⟩
    · rw [hrest.rd o ho fun d hd => hne d (List.mem_cons_of_mem c hd), hone.rd o ho (hne c List.mem_cons_self).1 (hne c List.mem_cons_self).2]
    · rw [List.mem_cons, not_or] at hno
      rw [hrest.sleep d hd hno.2, hone.other d hd hno.1]
    · rw [List.mem_cons, not_or] at hno
      have hrd := hone.rd _ (claimReg_kept hd) (sleepReg_ne_claimReg hc hd) (claimReg_ne hc hd hno.1)
      obtain ⟨hbins, heng⟩ := hrest.claim d hd hno.2
      exact ⟨hbins.trans (congrArg (Fld.get _) hrd), heng.trans (congrArg (Fld.get _) hrd)⟩
    · by_cases hin : d ∈ cs
      · exact hrest.gone d hin
      · obtain rfl : d = c := (List.mem_cons.1 hd).resolve_right hin
        obtain ⟨hbins, heng⟩ := hrest.claim d hc hin
        exact ⟨(hrest.sleep d hc hin).trans hone.sleep, hbins.trans hone.bins, heng.trans hone.eng⟩
    · by_cases hin : d ∈ cs
      · exact hrest.zero d hin o ho
      · obtain rfl : d = c := (List.mem_cons.1 hd).resolve_right hin
        exact hrest.byte d o (hone.zero o ho)

/-! ## A region that goes Dark -/

/-- What a change leaves by which no region but those of `R` may go Dark. -/
structure Fades (R : Nat → Prop) (s t : State) : Prop where
  rd : ∀ o, keptReg o → o ≠ Reg.PWR_CURTAIN_STAT → o ≠ Reg.PWR_DOMAIN_STAT → (∀ c < 256, o ≠ sleepReg c ∧ o ≠ claimReg c) → t.rd o = s.rd o
  run : ∀ q < 16, ¬ R q → t.inRun q = s.inRun q
  domain : ∀ q < 16, ¬ R q → t.domainOn q = s.domainOn q
  sleep : ∀ c < 256, ¬ R (c / 16) → t.sleep c = s.sleep c
  claim : ∀ c < 256, ¬ R (c / 16) → t.binsGranted c = s.binsGranted c ∧ t.engGranted c = s.engGranted c
  byte : ∀ c o, s.byte c o = 0 → t.byte c o = 0
  biWant : t.biWant = s.biWant
  kv : s.kvIdle → t.kvIdle
theorem Fades.trans {R : Nat → Prop} (h : Fades R s t) (h' : Fades R t u) : Fades R s u :=
  ⟨fun o ho hc hd hs => (h'.rd o ho hc hd hs).trans (h.rd o ho hc hd hs), fun q hq hR => (h'.run q hq hR).trans (h.run q hq hR),
    fun q hq hR => (h'.domain q hq hR).trans (h.domain q hq hR), fun c hc hR => (h'.sleep c hc hR).trans (h.sleep c hc hR),
    fun c hc hR => ⟨(h'.claim c hc hR).1.trans (h.claim c hc hR).1, (h'.claim c hc hR).2.trans (h.claim c hc hR).2⟩,
    fun c o hb => h'.byte c o (h.byte c o hb), h'.biWant.trans h.biWant, fun hs => h'.kv (h.kv hs)⟩
theorem Calm.fades {R : Nat → Prop} (h : Calm s t) : Fades R s t := by
  have hpwr {o : Nat} (ho : 0x40000 ≤ o ∧ o < 0x60000) : t.rd o = s.rd o := h.rd o (.inl ho)
  refine ⟨fun o ho _ _ _ => h.rd o ho, fun q _ _ => ?_, fun q _ _ => ?_, fun c hc _ => ?_, fun c hc _ => ?_, fun c o hb => ?_, h.biWant, fun hs => ?_⟩
  · rw [State.inRun, hpwr (by decide)]
    rfl
  · rw [State.domainOn, hpwr (by decide)]
    rfl
  · exact congrArg (Fld.get _) (h.rd _ (sleepReg_kept hc))
  · exact ⟨congrArg (Fld.get _) (h.rd _ (claimReg_kept hc)), congrArg (Fld.get _) (h.rd _ (claimReg_kept hc))⟩
  · rw [State.byte, h.pantry]
    exact hb
  · rw [State.kvIdle, h.kvOps]
    exact hs
/-- A region that is Dark stays so by what changes of others only. -/
theorem GoneDark.fades {R : Nat → Prop} (hs : GoneDark s r) (hr : r < 16) (h : Fades R s t) (hR : ¬ R r) : GoneDark t r := by
  refine ⟨(h.run r hr hR).trans hs.down, (h.domain r hr hR).trans hs.off, fun c hc => ?_, fun c o hc ho => h.byte c o (hs.pantry c o hc ho)⟩
  have hlt : c < 256 := by omega
  obtain ⟨hsleep, hbins, heng⟩ := hs.cores c hc
  obtain ⟨hb, he⟩ := h.claim c hlt (hc ▸ hR)
  exact ⟨(h.sleep c hlt (hc ▸ hR)).trans hsleep, hb.trans hbins, he.trans heng⟩
theorem mem_coresOf : c ∈ coresOf r ↔ c / 16 = r := by
  rw [coresOf, List.mem_map]
  constructor
  · rintro ⟨j, hj, rfl⟩
    rw [List.mem_range] at hj
    omega
  · rintro rfl
    exact ⟨c % 16, List.mem_range.2 (by omega), by omega⟩
theorem CoresGone.power (hr : r < 16) (h : CoresGone (coresOf r) s t) (q : Nat) : t.inRun q = s.inRun q ∧ t.domainOn q = s.domainOn q := by
  have hpwr {o : Nat} (ho : 0x40000 ≤ o ∧ o < 0x60000) : t.rd o = s.rd o := h.rd o (.inl ho) fun c hc => by
    have : c / 16 = r := mem_coresOf.1 hc
    constructor
    · unfold sleepReg Reg.STG_CORE_STATE regionWin
      omega
    · unfold claimReg Reg.ARB_CLAIM regionWin
      omega
  constructor
  · rw [State.inRun, hpwr (by decide)]
    rfl
  · rw [State.domainOn, hpwr (by decide)]
    rfl
theorem CoresGone.fades (hr : r < 16) (h : CoresGone (coresOf r) s t) : Fades (· = r) s t := by
  have hout {c : Nat} (hc : ¬ c / 16 = r) : c ∉ coresOf r := fun hin => hc (mem_coresOf.1 hin)
  refine ⟨fun o ho _ _ hne => h.rd o ho fun c hc => hne c ?_, fun q _ _ => (h.power hr q).1, fun q _ _ => (h.power hr q).2, fun c hc hR => h.sleep c hc (hout hR),
    fun c hc hR => h.claim c hc (hout hR), h.byte, (State.lasting_iff.1 h.lasting).2.1, h.kv⟩
  have := mem_coresOf.1 hc
  omega
/-- A region that is neither in Run nor coming up. -/
def State.inactive (s : State) (r : Nat) : Prop := s.inRun r = false ∧ s.stageOf r = 0
/-- A region has gone Dark. -/
structure RegionGone (r : Nat) (s t : State) : Prop where
  fades : Fades (· = r) s t
  dark : GoneDark t r
  enduring : t.enduring = s.enduring
  stage : ∀ q, t.stageOf q = if q = r then 0 else s.stageOf q
  downs : t.power.curtainDowns = (s.downGone r).power.curtainDowns
/-- The power of a region switched off. -/
def State.switchedOff (s : State) (r : Nat) : State := (s.setFld Reg.PWR_CURTAIN_STAT ⟨r, 1⟩ 0).setDomain r false
/-- The skipping of a region at none. -/
def State.unskipped (s : State) (r : Nat) : State := skipSources.foldl (fun (s : State) k => s.setSkip r k 0) s
/-- The rail that all regions share, off where none is on. -/
def State.spRail (s : State) : State := if (List.range 16).any fun q => s.domainOn q then s else s.setDomain 25 false
theorem State.regionOff_inactive (h : s.inactive r) : s.regionOff r = s.downGone r := by
  rw [State.regionOff, h.1, h.2]
  rfl
theorem State.regionOff_active (h : ¬ s.inactive r) : s.regionOff r =
    (((((((coresOf r).foldl (fun (s : State) c => s.coreDark c) ((if s.stageOf r = 1 then s.inrushOver else s).switchedOff r)).unskipped r).downGone
      r).setStage r 0).wr (Reg.ARB_CAP r) 0).thrSync r).spRail.recap := by
  have hno : ¬ ((!s.inRun r && decide (s.stageOf r = 0)) = true) := fun hin => h (by simpa [State.inactive] using hin)
  rw [State.regionOff, if_neg hno]
  rfl
theorem State.calm_inrushOver (s : State) : Calm s s.inrushOver := .foldl (fun t q _ => t.calm_setSkip q _ 0) s
theorem State.calm_unskipped (s : State) (r : Nat) : Calm s (s.unskipped r) := .foldl (fun t k _ => t.calm_setSkip r k 0) s
theorem State.fades_setFld {R : Nat → Prop} {f : Fld} {o : Nat} (ho : o = Reg.PWR_CURTAIN_STAT ∨ o = Reg.PWR_DOMAIN_STAT)
    (hrun : ∀ q < 16, ¬ R q → (s.setFld o f x).inRun q = s.inRun q) (hdom : ∀ q < 16, ¬ R q → (s.setFld o f x).domainOn q = s.domainOn q) :
    Fades R s (s.setFld o f x) := by
  have hother {i : Nat} (hi : i ≠ Reg.PWR_CURTAIN_STAT ∧ i ≠ Reg.PWR_DOMAIN_STAT) : (s.setFld o f x).rd i = s.rd i := by
    rw [State.rd_setFld, if_neg]
    rintro rfl
    exact ho.elim hi.1 hi.2
  have hreg {i : Nat} (hi : 0x01000000 ≤ i) : i ≠ Reg.PWR_CURTAIN_STAT ∧ i ≠ Reg.PWR_DOMAIN_STAT := by
    unfold Reg.PWR_CURTAIN_STAT Reg.PWR_DOMAIN_STAT
    omega
  refine ⟨fun o _ hc hd _ => hother ⟨hc, hd⟩, hrun, hdom, fun c _ _ => ?_, fun c _ _ => ?_, fun c o hb => ?_, State.setFld_biWant .., fun hs => ?_⟩
  · exact congrArg (Fld.get _) (hother (hreg (by unfold sleepReg Reg.STG_CORE_STATE regionWin; omega)))
  · have hclaim := hother (i := claimReg c) (hreg (by unfold claimReg Reg.ARB_CLAIM regionWin; omega))
    exact ⟨congrArg (Fld.get _) hclaim, congrArg (Fld.get _) hclaim⟩
  · rw [State.byte, State.setFld_pantry]
    exact hb
  · rw [State.kvIdle, State.setFld_kvOps]
    exact hs
/-- A write of PWR.CURTAIN_STAT that leaves the RUN bits of the regions outside `R`. -/
theorem State.fades_curtain {R : Nat → Prop} {f : Fld} (hf : f.lsb + f.width ≤ 64) (hR : ∀ q < 16, ¬ R q → q < f.lsb ∨ f.lsb + f.width ≤ q)
    (s : State) (x : Nat) : Fades R s (s.setFld Reg.PWR_CURTAIN_STAT f x) := by
  refine State.fades_setFld (.inl rfl) (fun q hq hno => ?_) fun q _ _ => ?_
  · rw [State.inRun, State.rd_setFld, if_pos rfl]
    exact Fld.testBit_set hf _ _ (by omega) (hR q hq hno)
  · rw [State.domainOn, State.rd_setFld, if_neg (by decide)]
    rfl
theorem State.fades_setDomain {R : Nat → Prop} (hd : d < 64) (hR : ∀ q < 16, ¬ R q → q ≠ d) (s : State) (b : Bool) : Fades R s (s.setDomain d b) := by
  refine State.fades_setFld (.inr rfl) (fun q _ _ => ?_) fun q hq hno => ?_
  · rw [State.inRun, State.rd_setFld, if_neg (by decide)]
    rfl
  · have := s.domainOn_setDomain b hd (show q < 64 by omega)
    rw [if_neg (hR q hq hno)] at this
    exact this
/-- A change of the power domain's own state. -/
theorem Fades.of_eq {R : Nat → Prop} (hregs : t.regs = s.regs) (hpantry : t.pantry = s.pantry) (hbi : t.biWant = s.biWant) (hkv : t.kvOps = s.kvOps) :
    Fades R s t := by
  have hrd := State.rd_congr hregs
  refine ⟨fun o _ _ _ _ => hrd o, fun q _ _ => ?_, fun q _ _ => ?_, fun c _ _ => congrArg (Fld.get _) (hrd _),
    fun c _ _ => ⟨congrArg (Fld.get _) (hrd _), congrArg (Fld.get _) (hrd _)⟩, fun c o hb => ?_, hbi, fun hs => ?_⟩
  · rw [State.inRun, hrd]
    rfl
  · rw [State.domainOn, hrd]
    rfl
  · rw [State.byte, hpantry]
    exact hb
  · rw [State.kvIdle, hkv]
    exact hs
theorem State.switchedOff_spec (hr : r < 16) (s : State) : Fades (· = r) s (s.switchedOff r) ∧ (s.switchedOff r).inRun r = false ∧
    (s.switchedOff r).domainOn r = false ∧ (s.switchedOff r).lasting = s.lasting := by
  refine ⟨(State.fades_curtain (by show r + 1 ≤ 64; omega) (fun q _ hno => by show q < r ∨ r + 1 ≤ q; omega) s 0).trans
    (State.fades_setDomain (by omega) (fun q _ hno => hno) _ false), ?_, ?_, ?_⟩
  · rw [State.switchedOff, State.inRun, State.setDomain, State.rd_setFld, if_neg (by decide), State.rd_setFld, if_pos rfl,
      Fld.testBit_set_bit _ _ (by omega)]
    rfl
  · rw [State.switchedOff, State.domainOn_setDomain _ _ (by omega) (by omega), if_pos rfl]
  · rw [State.switchedOff, State.setDomain]
    exact ((s.unclaimed_setFld ..).trans (State.unclaimed_setFld ..)).lasting
theorem State.spRail_spec {R : Nat → Prop} (s : State) : Fades R s s.spRail ∧ s.spRail.lasting = s.lasting := by
  rw [State.spRail]
  split
  · exact ⟨(Calm.refl s).fades, rfl⟩
  · refine ⟨State.fades_setDomain (by decide) (fun q hq _ => by omega) s false, ?_⟩
    rw [State.setDomain]
    exact (s.unclaimed_setFld ..).lasting
theorem State.fades_downGone {R : Nat → Prop} (s : State) (r : Nat) : Fades R s (s.downGone r) := .of_eq rfl rfl rfl rfl
theorem State.fades_setStage {R : Nat → Prop} (s : State) (r x : Nat) : Fades R s (s.setStage r x) := .of_eq rfl rfl rfl rfl
theorem State.enduring_downGone (s : State) (r : Nat) : (s.downGone r).enduring = s.enduring := rfl
theorem State.enduring_setStage (s : State) (r x : Nat) : (s.setStage r x).enduring = s.enduring := rfl
theorem State.upStage_downGone (s : State) (r : Nat) : (s.downGone r).power.upStage = s.power.upStage := rfl
theorem State.downs_setStage (s : State) (r x : Nat) : (s.setStage r x).power.curtainDowns = s.power.curtainDowns := rfl
theorem State.stageOf_congr (h : t.power.upStage = s.power.upStage) (q : Nat) : t.stageOf q = s.stageOf q :=
  congrArg (fun m => sread (fun _ => 0) m q) h
theorem State.stageOf_setStage (s : State) (r x q : Nat) : (s.setStage r x).stageOf q = if q = r then x else s.stageOf q := sread_swrite _ _ _ _ _
theorem State.downs_downGone (h : t.power.curtainDowns = s.power.curtainDowns) (r : Nat) :
    (t.downGone r).power.curtainDowns = (s.downGone r).power.curtainDowns := by
  rw [State.downGone, h]
  rfl
theorem State.regionOff_spec (hr : r < 16) (h : ¬ s.inactive r) : RegionGone r s (s.regionOff r) := by
  have hfirst : Calm s (if s.stageOf r = 1 then s.inrushOver else s) := .ite s.calm_inrushOver (.refl s)
  rw [State.regionOff_active h]
  generalize (if s.stageOf r = 1 then s.inrushOver else s) = v1 at *
  obtain ⟨hoff, hrun, hdom, hlast⟩ := v1.switchedOff_spec hr
  generalize v1.switchedOff r = v2 at *
  have hcs : ∀ c ∈ coresOf r, c < 256 := fun c hc => by
    have := mem_coresOf.1 hc
    omega
  have hcores := coresGone_foldl (coresOf r) hcs v2
  generalize (coresOf r).foldl (fun (s : State) c => s.coreDark c) v2 = v3 at *
  have hunskip := v3.calm_unskipped r
  generalize v3.unskipped r = v4 at *
  have hcap : Calm ((v4.downGone r).setStage r 0) ((((v4.downGone r).setStage r 0).wr (Reg.ARB_CAP r) 0).thrSync r) :=
    (State.calm_wr (not_keptReg_region r (o := 0x1000) (by decide) (by decide) (by decide)) _ _).trans (State.calm_thrSync _ r)
  have hdown : Fades (· = r) v4 ((v4.downGone r).setStage r 0) := (v4.fades_downGone r).trans (State.fades_setStage _ r 0)
  have hquiet : Fades (fun _ => False) v4 ((v4.downGone r).setStage r 0) := (v4.fades_downGone r).trans (State.fades_setStage _ r 0)
  have hend : ((v4.downGone r).setStage r 0).enduring = v4.enduring := (State.enduring_setStage ..).trans (v4.enduring_downGone r)
  have hstage (q : Nat) : ((v4.downGone r).setStage r 0).stageOf q = if q = r then 0 else v4.stageOf q := by
    rw [State.stageOf_setStage, State.stageOf_congr (v4.upStage_downGone r)]
  have hdowns : ((v4.downGone r).setStage r 0).power.curtainDowns = (v4.downGone r).power.curtainDowns := State.downs_setStage ..
  generalize (v4.downGone r).setStage r 0 = v5 at *
  generalize (v5.wr (Reg.ARB_CAP r) 0).thrSync r = v6 at *
  obtain ⟨hrail, hrlast⟩ := v6.spRail_spec (R := (· = r))
  obtain ⟨hnone, -⟩ := v6.spRail_spec (R := fun _ => False)
  have hrecap := v6.spRail.calm_recap
  generalize v6.spRail = v7 at *
  generalize v7.recap = w at *
  have hdark : GoneDark v3 r := ⟨(hcores.power hr r).1.trans hrun, (hcores.power hr r).2.trans hdom, fun c hc => hcores.gone c (mem_coresOf.2 hc),
    fun c o hc ho => hcores.zero c (mem_coresOf.2 hc) o ho⟩
  obtain ⟨hkeep, -, hup, hdown4⟩ := State.lasting_iff.1 (hunskip.lasting.trans (hcores.lasting.trans (hlast.trans hfirst.lasting)))
  obtain ⟨hkeep', -, hup', hdown'⟩ := State.lasting_iff.1 (hrecap.lasting.trans (hrlast.trans hcap.lasting))
  refine ⟨?_, ?_, hkeep'.trans (hend.trans hkeep), fun q => ?_, hdown'.trans (hdowns.trans (State.downs_downGone hdown4 r))⟩
  · exact hfirst.fades.trans (hoff.trans ((hcores.fades hr).trans (hunskip.fades.trans (hdown.trans (hcap.fades.trans (hrail.trans hrecap.fades))))))
  · exact hdark.fades hr (hunskip.fades.trans (hquiet.trans (hcap.fades.trans (hnone.trans hrecap.fades)))) fun h => h
  · rw [State.stageOf_congr hup', hstage, State.stageOf_congr hup]

end Sys2Proof.Machine
end

section
/-! PROOFS. Feeds are lost and return (O39). -/

namespace Sys2Proof.Machine

variable {s t u v : State} {r q c d n x : Nat} {R : Nat → Prop}

/-! ## What the loss of power leaves -/

/-- What a change leaves by which no region but those of `R` may go Dark: the feeds and the cooling, the Dark regions, and what requests are
served by. -/
structure Ebbs (R : Nat → Prop) (s t : State) : Prop where
  pwr : ∀ o, 0x40000 ≤ o ∧ o < 0x60000 → o ≠ Reg.PWR_CURTAIN_STAT → o ≠ Reg.PWR_DOMAIN_STAT → t.rd o = s.rd o
  run : ∀ q < 16, ¬ R q → t.inRun q = s.inRun q
  dark : ∀ q < 16, ¬ R q → GoneDark s q → GoneDark t q
  biWant : t.biWant = s.biWant
  kv : s.kvIdle → t.kvIdle
  work : t.work = s.work
theorem Ebbs.refl (s : State) : Ebbs R s s := ⟨fun _ _ _ _ => rfl, fun _ _ _ => rfl, fun _ _ _ h => h, rfl, fun h => h, rfl⟩
theorem Ebbs.trans (h : Ebbs R s t) (h' : Ebbs R t u) : Ebbs R s u :=
  ⟨fun o ho hc hd => (h'.pwr o ho hc hd).trans (h.pwr o ho hc hd), fun q hq hR => (h'.run q hq hR).trans (h.run q hq hR),
    fun q hq hR hs => h'.dark q hq hR (h.dark q hq hR hs), h'.biWant.trans h.biWant, fun hs => h'.kv (h.kv hs), h'.work.trans h.work⟩
theorem Ebbs.foldl {α : Type} {f : State → α → State} {as : List α} (hf : ∀ s, ∀ a ∈ as, Ebbs R s (f s a)) (s : State) : Ebbs R s (as.foldl f s) :=
  List.foldlRecOn (motive := Ebbs R s) as f (.refl s) fun t ht a ha => ht.trans (hf t a ha)
theorem Ebbs.mono {R' : Nat → Prop} (h : Ebbs R s t) (hR : ∀ q < 16, R q → R' q) : Ebbs R' s t :=
  ⟨h.pwr, fun q hq hno => h.run q hq fun hq' => hno (hR q hq hq'), fun q hq hno => h.dark q hq fun hq' => hno (hR q hq hq'), h.biWant, h.kv, h.work⟩
theorem powerReg_apart {o : Nat} (ho : 0x40000 ≤ o ∧ o < 0x60000) (hc : c < 256) : o ≠ sleepReg c ∧ o ≠ claimReg c := by
  constructor
  · unfold sleepReg Reg.STG_CORE_STATE regionWin
    omega
  · unfold claimReg Reg.ARB_CLAIM regionWin
    omega
theorem Fades.ebbs (h : Fades R s t) (hwork : t.work = s.work) : Ebbs R s t :=
  ⟨fun o ho hc hd => h.rd o (.inl ho) hc hd fun _ hlt => powerReg_apart ho hlt, h.run, fun _ hq hR hs => hs.fades hq h hR, h.biWant, h.kv, hwork⟩
theorem State.work_of_enduring (h : t.enduring = s.enduring) : t.work = s.work := congrArg Prod.fst h
theorem Calm.ebbs (h : Calm s t) : Ebbs R s t := h.fades.ebbs (State.work_of_enduring (State.lasting_iff.1 h.lasting).1)
theorem State.ebbs_regionOff (hr : r < 16) (s : State) : Ebbs (· = r) s (s.regionOff r) := by
  by_cases h : s.inactive r
  · rw [State.regionOff_inactive h]
    exact (s.fades_downGone r).ebbs (State.work_of_enduring (s.enduring_downGone r))
  · have hgone := State.regionOff_spec hr h
    exact hgone.fades.ebbs (State.work_of_enduring hgone.enduring)
/-- A region that is in Run or Dark is Dark once it is switched off. -/
theorem State.regionOff_dark (hr : r < 16) (h : s.inRun r = true ∨ GoneDark s r) : GoneDark (s.regionOff r) r := by
  by_cases hin : s.inactive r
  · rw [State.regionOff_inactive hin]
    have hdark := h.resolve_left (by rw [hin.1]; decide)
    exact hdark.fades hr (R := fun _ => False) (s.fades_downGone r) fun h => h
  · exact (State.regionOff_spec hr hin).dark
theorem State.ebbs_wr {o : Nat} (ho : o < 0x40000 ∨ 0x60000 ≤ o) (hsleep : ∀ c < 256, o ≠ sleepReg c ∧ o ≠ claimReg c) (s : State) (x : DWord) :
    Ebbs R s (s.wr o x) := by
  have hpwr {i : Nat} (hi : 0x40000 ≤ i ∧ i < 0x60000) : (s.wr o x).rd i = s.rd i := State.rd_wr_other _ _ _ _ (by omega)
  have hcore {c : Nat} (hc : c < 256) : (s.wr o x).sleep c = s.sleep c ∧ (s.wr o x).rd (claimReg c) = s.rd (claimReg c) :=
    ⟨congrArg (Fld.get _) (State.rd_wr_other _ _ _ _ (hsleep c hc).1.symm), State.rd_wr_other _ _ _ _ (hsleep c hc).2.symm⟩
  have hrun (q : Nat) : (s.wr o x).inRun q = s.inRun q := by
    rw [State.inRun, hpwr (by decide)]
    rfl
  refine ⟨fun i hi _ _ => hpwr hi, fun q _ _ => hrun q, fun q hq _ hs => ⟨(hrun q).trans hs.down, ?_, fun c hc => ?_, fun c o hc ho => ?_⟩, State.wr_biWant .., ?_, rfl⟩
  · rw [State.domainOn, hpwr (by decide)]
    exact hs.off
  · obtain ⟨hsl, hcl⟩ := hcore (show c < 256 by omega)
    obtain ⟨h4, hb, he⟩ := hs.cores c hc
    exact ⟨hsl.trans h4, (congrArg (Fld.get _) hcl).trans hb, (congrArg (Fld.get _) hcl).trans he⟩
  · rw [State.byte, State.wr_pantry]
    exact hs.pantry c o hc ho
  · rw [State.kvIdle, State.kvIdle, State.wr_kvOps]
    exact fun h => h
theorem State.ebbs_upFail (s : State) (r : Nat) : Ebbs R s (s.upFail r) := State.ebbs_wr (by unfold Reg.STG_REG_STAT regionWin; omega)
  (fun c hc => by
    constructor
    · unfold sleepReg Reg.STG_CORE_STATE Reg.STG_REG_STAT regionWin
      omega
    · unfold claimReg Reg.ARB_CLAIM Reg.STG_REG_STAT regionWin
      omega) s _

/-! ## LK domains and their ports (R39, R460) -/

variable {D : Nat → Prop}
/-- What switching the LK domains of `D` leaves of the power domain, the cores and the rest. -/
structure LkSet (D : Nat → Prop) (s t : State) : Prop where
  rd : ∀ o, keptReg o → o ≠ Reg.PWR_DOMAIN_STAT → t.rd o = s.rd o
  domain : ∀ d < 64, ¬ D d → t.domainOn d = s.domainOn d
  pantry : t.pantry = s.pantry
  kvOps : t.kvOps = s.kvOps
  biWant : t.biWant = s.biWant
  work : t.work = s.work
  legacy : t.power.legacyUp = s.power.legacyUp
theorem LkSet.refl (s : State) : LkSet D s s := ⟨fun _ _ _ => rfl, fun _ _ _ => rfl, rfl, rfl, rfl, rfl, rfl⟩
theorem LkSet.trans (h : LkSet D s t) (h' : LkSet D t u) : LkSet D s u :=
  ⟨fun o ho hd => (h'.rd o ho hd).trans (h.rd o ho hd), fun d hd hr => (h'.domain d hd hr).trans (h.domain d hd hr), h'.pantry.trans h.pantry,
    h'.kvOps.trans h.kvOps, h'.biWant.trans h.biWant, h'.work.trans h.work, h'.legacy.trans h.legacy⟩
theorem LkSet.mono {D' : Nat → Prop} (h : LkSet D s t) (hD : ∀ d, D d → D' d) : LkSet D' s t :=
  ⟨h.rd, fun d hd hno => h.domain d hd fun hin => hno (hD d hin), h.pantry, h.kvOps, h.biWant, h.work, h.legacy⟩
theorem LkSet.foldl {α : Type} {f : State → α → State} {as : List α} (hf : ∀ s, ∀ a ∈ as, LkSet D s (f s a)) (s : State) : LkSet D s (as.foldl f s) :=
  List.foldlRecOn (motive := LkSet D s) as f (.refl s) fun t ht a ha => ht.trans (hf t a ha)
theorem Calm.lkSet (h : Calm s t) : LkSet D s t := by
  obtain ⟨hend, hbi, -, -⟩ := State.lasting_iff.1 h.lasting
  refine ⟨fun o ho _ => h.rd o ho, fun d _ _ => ?_, h.pantry, h.kvOps, hbi, State.work_of_enduring hend, congrArg (fun e => e.2.2.2.2.2.1) hend⟩
  rw [State.domainOn, h.rd _ (.inl (by decide))]
  rfl
theorem LkSet.ebbs (h : LkSet D s t) (hD : ∀ d < 16, ¬ D d) : Ebbs R s t := by
  refine Fades.ebbs ⟨fun o ho _ hd _ => h.rd o ho hd, fun q _ _ => ?_, fun q hq _ => h.domain q (by omega) (hD q hq), fun c hc _ => ?_, fun c hc _ => ?_,
    fun c o hb => ?_, h.biWant, fun hs => ?_⟩ h.work
  · rw [State.inRun, h.rd _ (.inl (by decide)) (by decide)]
    rfl
  · refine congrArg (Fld.get _) (h.rd _ (sleepReg_kept hc) ?_)
    unfold sleepReg Reg.STG_CORE_STATE regionWin Reg.PWR_DOMAIN_STAT
    omega
  · have hclaim := h.rd _ (claimReg_kept hc) (by unfold claimReg Reg.ARB_CLAIM regionWin Reg.PWR_DOMAIN_STAT; omega)
    exact ⟨congrArg (Fld.get _) hclaim, congrArg (Fld.get _) hclaim⟩
  · rw [State.byte, h.pantry]
    exact hb
  · rw [State.kvIdle, h.kvOps]
    exact hs
theorem lnkReg_apart {o : Nat} (ho : 0x90000 ≤ o ∧ o < 0xA0000) : ¬ keptReg o := not_keptReg_low (by omega) (by omega)
theorem State.lkSet_lnk {o : Nat} (ho : 0x90000 ≤ o ∧ o < 0xA0000) (s : State) (f : Fld) (x : Nat) : LkSet D s (s.setFld o f x) :=
  (s.calm_setFld (lnkReg_apart ho) f x).lkSet
theorem State.lkSet_setPort (s : State) (n : Nat) (p : Port) : LkSet D s (s.setPort n p) := ⟨fun _ _ _ => rfl, fun _ _ _ => rfl, rfl, rfl, rfl, rfl, rfl⟩
theorem State.calm_pnDropped (s : State) : Calm s s.pnDropped :=
  (s.calm_setFld (not_keptReg_low (by decide) (by decide)) ..).trans (State.calm_setFld (not_keptReg_low (by decide) (by decide)) ..)
theorem State.calm_flitLost (s : State) (f : TxFlit) : Calm s (s.flitLost f) := by
  rw [State.flitLost]
  split
  · exact .foldl (fun t _ _ => t.calm_pnDropped) s
  · split
    · exact .refl s
    · exact .ite (s.calm_unreachable _ _) (.refl s)
theorem portReg_lnk (hn : n < 32) : (0x90000 ≤ Reg.LNK_PORT_STAT n ∧ Reg.LNK_PORT_STAT n < 0xA0000) ∧
    (0x90000 ≤ Reg.LNK_DOWNS n ∧ Reg.LNK_DOWNS n < 0xA0000) := by
  unfold Reg.LNK_PORT_STAT Reg.LNK_DOWNS
  omega
theorem State.lkSet_portDown (hn : n < 32) (s : State) (reason : Nat) : LkSet D s (s.portDown n reason) := by
  obtain ⟨hstat, hdowns⟩ := portReg_lnk hn
  have hlost : Calm s (((s.port n).unacked ++ (s.port n).queued).foldl (fun (s : State) f => s.flitLost f) s) := .foldl (fun t f _ => t.calm_flitLost f) s
  have hend (v : State) (x : Nat) : LkSet D v (((v.setFld (Reg.LNK_PORT_STAT n) Fl.LNK_PORT_STAT_REASON reason).setFld (Reg.LNK_PORT_STAT n)
      Fl.LNK_PORT_STAT_WIDTH 0).setPortState n x) := ((v.lkSet_lnk hstat ..).trans (State.lkSet_lnk hstat ..)).trans (State.lkSet_lnk hstat ..)
  rw [State.portDown]
  dsimp only
  split
  · exact ((hlost.lkSet.trans (State.lkSet_setPort ..)).trans (((State.lkSet_lnk hstat ..).trans (State.lkSet_lnk hdowns ..)).trans
      (State.calm_logFault ..).lkSet)).trans (hend _ _)
  · exact (hlost.lkSet.trans (State.lkSet_setPort ..)).trans (hend _ _)
/-- The registers of a port's window. -/
def portRegs (n o : Nat) : Prop := Reg.LNK_PORT_CTL n ≤ o ∧ o < Reg.LNK_PORT_CTL n + 0x40
theorem State.rd_portReset (s : State) (n o : Nat) : (portRegs n o → (s.portReset n).rd o = resetOf o) ∧ (¬ portRegs n o → (s.portReset n).rd o = s.rd o) :=
  ⟨fun h => (sread_sclear _ _ _ _ _).trans (if_pos h), fun h => (sread_sclear _ _ _ _ _).trans (if_neg h)⟩
theorem portRegs_lnk {o : Nat} (hn : n < 32) (h : portRegs n o) : 0x90000 ≤ o ∧ o < 0xA0000 := by
  unfold portRegs Reg.LNK_PORT_CTL at h
  omega
theorem State.lkSet_portReset (hn : n < 32) (s : State) : LkSet D s (s.portReset n) := by
  have hrd {o : Nat} (ho : keptReg o) : (s.portReset n).rd o = s.rd o := (s.rd_portReset n o).2 fun h => lnkReg_apart (portRegs_lnk hn h) ho
  refine ⟨fun o ho _ => hrd ho, fun d _ _ => ?_, rfl, rfl, rfl, rfl, rfl⟩
  rw [State.domainOn, hrd (.inl (by decide))]
  rfl
/-- One LK domain made to follow what is wanted. -/
def State.lkStep (want : Nat) (s : State) (n : Nat) : State :=
  if s.domainOn (16 + n) = want.testBit n then s
  else if want.testBit n then (List.range 4).foldl (fun (s : State) i => s.portReset (4 * n + i)) (s.setDomain (16 + n) (want.testBit n))
  else (List.range 4).foldl (fun (s : State) i => s.portDown (4 * n + i) 6) (s.setDomain (16 + n) (want.testBit n))
theorem State.lkFollow_eq (s : State) : s.lkFollow =
    (List.range 8).foldl (State.lkStep (if s.feedAOk || s.feedBOk then s.fld Reg.PWR_LK_CTL Fl.PWR_LK_CTL_ON else 0)) s := rfl
theorem State.work_setFld (s : State) (o : Nat) (f : Fld) (x : Nat) : (s.setFld o f x).work = s.work := rfl
theorem State.lkSet_setDomain (hn : n < 8) (s : State) (b : Bool) : LkSet (· = 16 + n) s (s.setDomain (16 + n) b) := by
  refine ⟨fun o _ ho => ?_, fun d hd hr => ?_, State.setFld_pantry .., State.setFld_kvOps .., State.setFld_biWant .., ?_, ?_⟩
  · rw [State.setDomain, State.rd_setFld, if_neg ho]
  · rw [State.domainOn_setDomain _ _ (by omega) hd, if_neg hr]
  · rw [State.setDomain]
    exact State.work_setFld ..
  · rw [State.setDomain, State.setFld_power]
theorem State.lkStep_spec (hn : n < 8) (s : State) (want : Nat) :
    LkSet (· = 16 + n) s (s.lkStep want n) ∧ (s.lkStep want n).domainOn (16 + n) = want.testBit n := by
  have hset := s.lkSet_setDomain hn (want.testBit n)
  have hdom := s.domainOn_setDomain (want.testBit n) (show 16 + n < 64 by omega) (show 16 + n < 64 by omega)
  rw [if_pos rfl] at hdom
  have hports {f : State → Nat → State} (hf : ∀ t, ∀ i ∈ List.range 4, LkSet (fun _ => False) t (f t i)) :
      LkSet (fun _ => False) (s.setDomain (16 + n) (want.testBit n)) ((List.range 4).foldl f (s.setDomain (16 + n) (want.testBit n))) := .foldl hf _
  rw [State.lkStep]
  split
  · next h => exact ⟨.refl s, h⟩
  · split
    · have hp := hports (f := fun s i => s.portReset (4 * n + i)) fun t i hi => t.lkSet_portReset (by rw [List.mem_range] at hi; omega)
      exact ⟨hset.trans (hp.mono fun _ h => h.elim), (hp.domain _ (by omega) fun h => h).trans hdom⟩
    · have hp := hports (f := fun s i => s.portDown (4 * n + i) 6) fun t i hi => t.lkSet_portDown (by rw [List.mem_range] at hi; omega) 6
      exact ⟨hset.trans (hp.mono fun _ h => h.elim), (hp.domain _ (by omega) fun h => h).trans hdom⟩
theorem State.lkSteps_spec (m : Nat) (hm : m ≤ 8) (s : State) (want : Nat) :
    LkSet (fun d => 16 ≤ d ∧ d < 16 + m) s ((List.range m).foldl (State.lkStep want) s) ∧
      ∀ n < m, ((List.range m).foldl (State.lkStep want) s).domainOn (16 + n) = want.testBit n := by
  induction m with
  | zero => exact ⟨.refl s, fun _ h => absurd h (Nat.not_lt_zero _)⟩
  | succ m ih =>
    obtain ⟨hset, hdom⟩ := ih (by omega)
    rw [List.range_succ, List.foldl_append, List.foldl_cons, List.foldl_nil]
    generalize (List.range m).foldl (State.lkStep want) s = v at *
    obtain ⟨hstep, hon⟩ := v.lkStep_spec (show m < 8 by omega) want
    refine ⟨(hset.mono fun d hd => ⟨hd.1, by omega⟩).trans (hstep.mono fun d hd => by omega), fun n hn => ?_⟩
    by_cases hnm : n = m
    · rw [hnm]
      exact hon
    · rw [hstep.domain (16 + n) (by omega) (by omega)]
      exact hdom n (by omega)
/-- The LK domains follow what is wanted of them. -/
theorem State.lkFollow_spec (s : State) (want : Nat) (hwant : (if s.feedAOk || s.feedBOk then s.fld Reg.PWR_LK_CTL Fl.PWR_LK_CTL_ON else 0) = want) :
    LkSet (fun d => 16 ≤ d ∧ d < 24) s s.lkFollow ∧ ∀ n < 8, s.lkFollow.domainOn (16 + n) = want.testBit n := by
  rw [State.lkFollow_eq, hwant]
  exact State.lkSteps_spec 8 (Nat.le_refl 8) s want

/-! ## HV, and an install that is lost (R175) -/

theorem LkSet.of_eq (hregs : t.regs = s.regs) (hpantry : t.pantry = s.pantry) (hkv : t.kvOps = s.kvOps) (hbi : t.biWant = s.biWant) (hwork : t.work = s.work)
    (hleg : t.power.legacyUp = s.power.legacyUp) : LkSet D s t := by
  refine ⟨fun o _ _ => State.rd_congr hregs o, fun d _ _ => ?_, hpantry, hkv, hbi, hwork, hleg⟩
  rw [State.domainOn, State.rd_congr hregs]
  rfl
theorem State.hvSync_fed (s : State) : ∃ b x, s.hvSync = (s.setHvRefresh b).setDomain 26 x ∧ (s.feedAOk = false → s.feedBOk = false → x = false) := by
  refine ⟨_, _, rfl, fun ha hb => ?_⟩
  show ((s.feedAOk || s.feedBOk) && _) = false
  rw [ha, hb]
  rfl
theorem State.lkSet_switch (hd : d < 64) (s : State) (b : Bool) : LkSet (· = d) s (s.setDomain d b) := by
  refine ⟨fun o _ ho => ?_, fun e he hne => ?_, State.setFld_pantry .., State.setFld_kvOps .., State.setFld_biWant .., State.work_setFld .., congrArg Power.legacyUp (State.setFld_power ..)⟩
  · rw [State.setDomain, State.rd_setFld, if_neg ho]
  · rw [State.domainOn_setDomain _ _ hd he, if_neg hne]
theorem State.hvSync_spec (s : State) : LkSet (· = 26) s s.hvSync ∧ (s.feedAOk = false → s.feedBOk = false → s.hvSync.domainOn 26 = false) := by
  obtain ⟨b, x, heq, hx⟩ := s.hvSync_fed
  have hset : LkSet (· = 26) s (s.setHvRefresh b) := .of_eq rfl rfl rfl rfl rfl rfl
  rw [heq]
  refine ⟨hset.trans (State.lkSet_switch (by decide) _ x), fun ha hb => ?_⟩
  rw [State.domainOn_setDomain _ _ (by decide) (by decide), if_pos rfl, hx ha hb]
theorem OnlyPasses.lkSet (h : OnlyPasses s t) : LkSet D s t := by
  obtain ⟨_, _, _, _, _, rfl⟩ := h
  exact .of_eq rfl rfl rfl rfl rfl rfl
theorem OnlyFails.lkSet (h : OnlyFails s t) : LkSet D s t := by
  obtain ⟨_, _, _, rfl⟩ := h
  exact .of_eq rfl rfl rfl rfl rfl rfl
theorem State.lkSet_runRefreshes (s : State) : LkSet (· = 26) s s.runRefreshes := by
  rw [State.runRefreshes]
  exact (refreshed_startRefreshes s.refreshQ.length s).only.lkSet.trans (State.hvSync_spec _).1
theorem State.lkSet_cel {o : Nat} (ho : 0xA0000 ≤ o ∧ o < 0x01000000) (s : State) (f : Fld) (x : Nat) : LkSet D s (s.setFld o f x) :=
  (s.calm_setFld (not_keptReg_low (by omega) (by omega)) f x).lkSet
theorem State.lkSet_setInst (s : State) (x err : Nat) : LkSet D s (s.setInst x err) :=
  (s.lkSet_cel (by decide) ..).trans (State.lkSet_cel (by decide) ..)
theorem State.lkSet_instStop (s : State) (x err : Nat) : LkSet (· = 26) s (s.instStop x err) := by
  cases h : s.installing with
  | false =>
    rw [State.instStop, h]
    exact .refl s
  | true =>
    have hdrop : OnlyFails s s.instDropped := (OnlyFails.foldl (fun s i => s.onlyFails_entryFail i 8) s).trans ⟨_, _, _, rfl⟩
    rw [State.instStop_eq h]
    exact (((hdrop.lkSet.trans (State.lkSet_setInst ..)).trans (State.lkSet_cel (by decide) ..)).trans (State.hvSync_spec _).1).trans
      (State.lkSet_runRefreshes _)
theorem State.lkSet_instLost (s : State) : LkSet (· = 26) s s.instLost := (s.lkSet_instStop 0 0).trans (State.lkSet_setInst ..)

/-! ## The curtain sequence stops (R464, R467) -/

theorem State.ebbs_curtain {f : Fld} (hf : f.lsb + f.width ≤ 64) (hlow : 16 ≤ f.lsb) (s : State) (x : Nat) :
    Ebbs R s (s.setFld Reg.PWR_CURTAIN_STAT f x) :=
  (State.fades_curtain hf (fun q hq _ => .inl (by omega)) s x).ebbs (State.work_setFld ..)
theorem State.ebbs_curtainRest (s : State) : Ebbs R s s.curtainRest :=
  ((s.ebbs_curtain (by decide) (by decide) 0).trans (State.ebbs_curtain (by decide) (by decide) _ 0)).trans
    (State.ebbs_curtain (by decide) (by decide) _ 0)
/-- The regions asked for as given. -/
def State.setAsks (s : State) (asks : List (Nat × Bool)) : State := { s with power.curtainAsk := asks }
/-- The legacy curtain-up as given. -/
def State.setLegacy (s : State) (x : Nat) : State := { s with power.legacyUp := x }
theorem State.ebbs_setAsks (s : State) (asks : List (Nat × Bool)) : Ebbs R s (s.setAsks asks) := Fades.ebbs (.of_eq rfl rfl rfl rfl) rfl
theorem State.ebbs_setLegacy (s : State) (x : Nat) : Ebbs R s (s.setLegacy x) := Fades.ebbs (.of_eq rfl rfl rfl rfl) rfl
/-- A bring-up that a stop of the sequence ends. -/
def State.upStop (s : State) (r : Nat) : State := if s.stageOf r = 0 then s else (s.upFail r).regionOff r
/-- A legacy curtain-up that a stop of the sequence ends. -/
def State.legacyStop (s : State) : State := if s.power.legacyUp = 1 then s.setLegacy 2 else s
theorem State.curtainStop_eq (s : State) : s.curtainStop = ((List.range 16).foldl State.upStop (s.setAsks [])).legacyStop.curtainRest := by
  unfold State.curtainStop
  extract_lets _ s1 s2 _ s3
  have h1 : s1 = s.setAsks [] := rfl
  have h2 : s2 = (List.range 16).foldl State.upStop s1 := rfl
  have h3 : s3 = s2.legacyStop := rfl
  rw [h3, h2, h1]
theorem State.upStop_spec (hr : r < 16) (s : State) : Ebbs (· = r) s (s.upStop r) ∧ (s.inRun r = true → (s.upStop r).inRun r = true ∨ GoneDark (s.upStop r) r) := by
  rw [State.upStop]
  split
  · exact ⟨.refl s, fun h => .inl h⟩
  · have hfail := s.ebbs_upFail (R := fun _ => False) r
    refine ⟨(s.ebbs_upFail r).trans (State.ebbs_regionOff hr _), fun h => .inr (State.regionOff_dark hr (.inl ?_))⟩
    exact (hfail.run r hr fun h => h).trans h
/-- A region that was in Run is in Run or Dark. -/
theorem Ebbs.runs_or_dark (h : Ebbs R s t) (hr : r < 16) (hR : ¬ R r) (hs : s.inRun r = true ∨ GoneDark s r) : t.inRun r = true ∨ GoneDark t r :=
  hs.imp (fun hrun => (h.run r hr hR).trans hrun) (h.dark r hr hR)
theorem State.upStop_runs (hr : r < 16) (hq : q < 16) (hs : s.inRun q = true ∨ GoneDark s q) : (s.upStop r).inRun q = true ∨ GoneDark (s.upStop r) q := by
  obtain ⟨hebb, hself⟩ := s.upStop_spec hr
  by_cases h : q = r
  · subst h
    rcases hs with hs | hs
    · exact hself hs
    · rw [State.upStop]
      split
      · exact .inr hs
      · exact .inr (State.regionOff_dark hr (.inr ((s.ebbs_upFail (R := fun _ => False) q).dark q hq (fun h => h) hs)))
  · exact hebb.runs_or_dark hq h hs
theorem State.upFail_stage (s : State) (r q : Nat) : (s.upFail r).stageOf q = s.stageOf q := by
  rw [State.upFail, State.stageOf, State.setFld_power]
  rfl
theorem State.regionOff_stage (hr : r < 16) (s : State) (q : Nat) (h : s.stageOf q = 0) : (s.regionOff r).stageOf q = 0 := by
  by_cases hin : s.inactive r
  · rw [State.regionOff_inactive hin, State.stageOf_congr (s.upStage_downGone r)]
    exact h
  · rw [(State.regionOff_spec hr hin).stage]
    split
    · rfl
    · exact h
/-- What a stop of the sequence has done so far. -/
structure Stopped (s t : State) : Prop where
  ebbs : Ebbs (fun r => s.stageOf r ≠ 0) s t
  stage : ∀ q, s.stageOf q = 0 → t.stageOf q = 0
  runs : ∀ q < 16, s.inRun q = true → t.inRun q = true ∨ GoneDark t q
theorem Stopped.upStop (h : Stopped s t) (hr : r < 16) : Stopped s (t.upStop r) := by
  refine ⟨h.ebbs.trans ?_, fun q hq => ?_, fun q hq hs => State.upStop_runs hr hq (h.runs q hq hs)⟩
  · by_cases hstage : t.stageOf r = 0
    · rw [State.upStop, if_pos hstage]
      exact .refl t
    · refine (t.upStop_spec hr).1.mono fun q _ hqr hzero => hstage ?_
      rw [← hqr]
      exact h.stage q hzero
  · rw [State.upStop]
    split
    · exact h.stage q hq
    · exact State.regionOff_stage hr _ q ((t.upFail_stage r q).trans (h.stage q hq))
theorem State.ebbs_legacyStop (s : State) : Ebbs R s s.legacyStop := by
  rw [State.legacyStop]
  split
  · exact s.ebbs_setLegacy 2
  · exact .refl s
theorem State.curtainStop_spec (s : State) : Ebbs (fun r => s.stageOf r ≠ 0) s s.curtainStop ∧
    ∀ q < 16, s.inRun q = true → s.curtainStop.inRun q = true ∨ GoneDark s.curtainStop q := by
  have hasks : Ebbs (fun r => s.stageOf r ≠ 0) s (s.setAsks []) := s.ebbs_setAsks []
  have hfirst : Stopped s (s.setAsks []) := ⟨hasks, fun _ h => h, fun q _ h => .inl h⟩
  have hstop : Stopped s ((List.range 16).foldl State.upStop (s.setAsks [])) :=
    List.foldlRecOn (motive := Stopped s) (List.range 16) State.upStop hfirst fun t ht r hr => ht.upStop (List.mem_range.1 hr)
  rw [State.curtainStop_eq]
  generalize (List.range 16).foldl State.upStop (s.setAsks []) = v at *
  have hrest {R : Nat → Prop} : Ebbs R v v.legacyStop.curtainRest := v.ebbs_legacyStop.trans (State.ebbs_curtainRest _)
  exact ⟨hstop.ebbs.trans hrest, fun q hq h => hrest.runs_or_dark (R := fun _ => False) hq (fun h => h) (hstop.runs q hq h)⟩

/-! ## Every region is switched off -/

theorem State.regionsOff_spec (m : Nat) (hm : m ≤ 16) (s : State) :
    Ebbs (· < m) s ((List.range m).foldl (fun (s : State) r => s.regionOff r) s) ∧
      ∀ q < m, s.inRun q = true ∨ GoneDark s q → GoneDark ((List.range m).foldl (fun (s : State) r => s.regionOff r) s) q := by
  induction m with
  | zero => exact ⟨.refl s, fun _ h => absurd h (Nat.not_lt_zero _)⟩
  | succ m ih =>
    obtain ⟨hebb, hdark⟩ := ih (by omega)
    rw [List.range_succ, List.foldl_append, List.foldl_cons, List.foldl_nil]
    generalize (List.range m).foldl (fun (s : State) r => s.regionOff r) s = v at *
    have hoff := v.ebbs_regionOff (show m < 16 by omega)
    refine ⟨(hebb.mono fun q _ h => Nat.lt_succ_of_lt h).trans (hoff.mono fun q _ h => h ▸ Nat.lt_succ_self m), fun q hq hs => ?_⟩
    by_cases hqm : q = m
    · subst hqm
      exact State.regionOff_dark (by omega) (hebb.runs_or_dark (by omega) (Nat.lt_irrefl q) hs)
    · exact hoff.dark q (by omega) hqm (hdark q (by omega) hs)

/-! ## Alerts -/

/-- An alert raised in a register: its flag is set, and the register's other fields and every other register are as they were. -/
structure Alerts (o : Nat) (f : Fld) (s t : State) : Prop where
  eq : ∃ regs out, t = { s with regs := regs, outbox := out }
  flag : t.flag o f = true
  apart : ∀ g : Fld, g.lsb + g.width ≤ 64 → (f.lsb + f.width ≤ g.lsb ∨ g.lsb + g.width ≤ f.lsb) → t.fld o g = s.fld o g
  other : ∀ i, i ≠ o → t.rd i = s.rd i
theorem State.setAlert_spec {f : Fld} (hf : f.lsb + f.width ≤ 64) (hw : 1 % 2 ^ f.width ≠ 0) (s : State) (o : Nat) : Alerts o f s (s.setAlert o f) := by
  rw [State.setAlert]
  split
  · next h => exact ⟨⟨_, _, rfl⟩, h, fun _ _ _ => rfl, fun _ _ => rfl⟩
  · refine ⟨⟨_, _, rfl⟩, ?_, fun g hg hapart => ?_, fun i hi => ?_⟩
    · show ((s.setFld o f 1).fld o f != 0) = true
      rw [State.fld_setFld_same _ _ _ _ hf, bne_iff_ne]
      exact hw
    · show (s.setFld o f 1).fld o g = _
      rw [State.fld, State.rd_setFld, if_pos rfl, Fld.get_set_apart f g _ _ hf hg hapart]
      rfl
    · show (s.setFld o f 1).rd i = _
      rw [State.rd_setFld, if_neg hi]

/-! ## Both feeds are lost (R456, R499, R586) -/

theorem State.lkSet_setReplace (s : State) (x : Nat) : LkSet D s (s.setReplace x) :=
  (s.calm_setFld (not_keptReg_low (by decide) (by decide)) ..).lkSet
/-- The re-placements under way and queued, as given. -/
def State.setReplacements (s : State) (r : Option Replace) (rs : List Replace) : State := { s with faults.replace := r, faults.replaceQ := rs }
theorem State.lkSet_replaceDrop (s : State) : LkSet D s s.replaceDrop := by
  have hset : LkSet D s (if s.faults.replace.isSome then s.setReplace rpIdle else s) := by
    split
    · exact s.lkSet_setReplace rpIdle
    · exact .refl s
  rw [State.replaceDrop]
  dsimp only
  generalize (if s.faults.replace.isSome then s.setReplace rpIdle else s) = v at *
  have hnone : LkSet D v (v.setReplacements none []) := .of_eq rfl rfl rfl rfl rfl rfl
  exact (hset.trans hnone).trans (LkSet.foldl (f := fun (s : State) (r : Replace) => s.logFault r.code (.core r.dead) (some r.part) outUncovered r.swing)
    (fun t r _ => (t.calm_logFault ..).lkSet) _)
/-- Without contexts and images a loss of the module ends its re-placements only. -/
theorem State.loseAll_bare (hctx : s.ctxs = []) (hslots : s.slots = []) : s.loseAll = s.replaceDrop := by
  have hnone : (List.range 16).flatMap (fun p => s.lossCtxs p) = [] := List.flatMap_eq_nil_iff.2 fun p _ => by
    rw [State.lossCtxs, hctx]
    rfl
  have hwork := (s.lkSet_replaceDrop (D := fun _ => False)).work
  have hempty : s.replaceDrop.slots = [] := (congrArg (fun w => w.2.2.2.1) hwork).trans hslots
  rw [State.loseAll, hnone]
  show (List.range 16).foldl (fun (s : State) k => if (s.slotRec k).isSome then (s.clearSlot k).emptySlot k else s) s.replaceDrop = _
  generalize s.replaceDrop = v at *
  refine List.foldlRecOn (motive := fun t => t = v) (List.range 16) _ rfl fun t ht k _ => ?_
  rw [ht, State.slotRec, hempty]
  rfl
/-- The feeds no longer in use, with the alert. -/
def State.feedsOut (s : State) : State :=
  ((s.setFld Reg.PWR_STAT Fl.PWR_STAT_FEED_A_OK 0).setFld Reg.PWR_STAT Fl.PWR_STAT_FEED_B_OK 0).setAlert Reg.PWR_STAT Fl.PWR_STAT_FEED_EVENT
def State.allThrottled (s : State) : State := (List.range 16).foldl (fun (s : State) r => s.logThrottle r 4 false 0) s
def State.allOff (s : State) : State := (List.range 16).foldl (fun (s : State) r => s.regionOff r) s
/-- A rebind ended by the loss of the feeds. -/
def State.rebindLost (s : State) : State :=
  match s.blk.rebind with
  | none => s
  | some _ => { s.setRebind rbFailed 0 0 with blk.rebind := none }
theorem State.feedsLost_eq (s : State) : s.feedsLost =
    ((((((((s.feedsOut.allThrottled.setLegacy 0).curtainStop.allOff).setDomain 25 false).lkFollow).loadFeeds.rebindLost).instLost.hvSync).loseAll).logFault
      0x49 .module none outUncovered 0).serve := by
  unfold State.feedsLost
  extract_lets s1 s2 s3 _ s4 s5 s6 s7 _ _ s8 s9
  have h2 : s2 = s.feedsOut := rfl
  have h3 : s3 = s2.allThrottled := rfl
  have h4 : s4 = (s3.setLegacy 0).curtainStop := rfl
  have h5 : s5 = s4.allOff := rfl
  have h6 : s6 = (s5.setDomain 25 false).lkFollow := rfl
  have h7 : s7 = s6.loadFeeds := rfl
  have h8 : s8 = s7.rebindLost := rfl
  have h9 : s9 = s8.instLost.hvSync := rfl
  rw [h9, h8, h7, h6, h5, h4, h3, h2]
/-- The feeds are out: their flags, the alert, and what else is as it was. -/
structure FeedsOut (s t : State) : Prop where
  feedA : t.feedAOk = false
  feedB : t.feedBOk = false
  event : t.flag Reg.PWR_STAT Fl.PWR_STAT_FEED_EVENT = true
  rd : ∀ o, o ≠ Reg.PWR_STAT → t.rd o = s.rd o
  biWant : t.biWant = s.biWant
  kv : t.kvOps = s.kvOps
  work : t.work = s.work
theorem State.feedsOut_spec (s : State) : FeedsOut s s.feedsOut := by
  obtain ⟨⟨_, _, heq⟩, hflag, hapart, hother⟩ := State.setAlert_spec (f := Fl.PWR_STAT_FEED_EVENT) (by decide) (by decide)
    ((s.setFld Reg.PWR_STAT Fl.PWR_STAT_FEED_A_OK 0).setFld Reg.PWR_STAT Fl.PWR_STAT_FEED_B_OK 0) Reg.PWR_STAT
  refine ⟨?_, ?_, hflag, fun o ho => ?_, ?_, ?_, ?_⟩
  · rw [State.feedAOk, State.flag, State.feedsOut, hapart _ (by decide) (by decide), State.fld, State.rd_setFld, if_pos rfl,
      Fld.get_set_apart _ _ _ _ (by decide) (by decide) (by decide), State.rd_setFld, if_pos rfl, Fld.get_set _ _ _ (by decide)]
    rfl
  · rw [State.feedBOk, State.flag, State.feedsOut, hapart _ (by decide) (by decide), State.fld, State.rd_setFld, if_pos rfl, Fld.get_set _ _ _ (by decide)]
    rfl
  · rw [State.feedsOut, hother o ho, State.rd_setFld, if_neg ho, State.rd_setFld, if_neg ho]
  · rw [State.feedsOut, heq]
    rfl
  · rw [State.feedsOut, heq]
    rfl
  · rw [State.feedsOut, heq]
    rfl
theorem State.loadFeeds_none (h : s.blk.load = none) : s.loadFeeds = s := by rw [State.loadFeeds, h]
theorem State.rebindLost_none (h : s.blk.rebind = none) : s.rebindLost = s := by rw [State.rebindLost, h]
/-- What the loss of both feeds leaves. -/
structure Powerless (s t : State) : Prop where
  feedA : t.feedAOk = false
  feedB : t.feedBOk = false
  event : t.flag Reg.PWR_STAT Fl.PWR_STAT_FEED_EVENT = true
  dark : ∀ q < 16, s.inRun q = true → GoneDark t q
  sp : t.domainOn 25 = false
  hv : t.domainOn 26 = false
  lk : ∀ n < 8, t.domainOn (16 + n) = false
  biWant : t.biWant = s.biWant
theorem State.feedsLost_spec (hload : s.blk.load = none) (hrebind : s.blk.rebind = none) (hreq : s.noRequests) (hctx : s.ctxs = []) (hslots : s.slots = []) :
    Powerless s s.feedsLost := by
  obtain ⟨hA, hB, hevent, hrd, hbi, hkv, hwork⟩ := s.feedsOut_spec
  have hrun (q : Nat) : s.feedsOut.inRun q = s.inRun q := by
    rw [State.inRun, hrd _ (by decide)]
    rfl
  rw [State.feedsLost_eq]
  generalize s.feedsOut = w1 at *
  have h2 : Ebbs (fun _ => False) w1 (w1.allThrottled.setLegacy 0) :=
    (Calm.foldl (f := fun (s : State) r => s.logThrottle r 4 false 0) (fun t r _ => t.calm_logThrottle r 4 false 0) w1).ebbs.trans (State.ebbs_setLegacy _ 0)
  generalize w1.allThrottled.setLegacy 0 = w2 at *
  obtain ⟨h3, hdark3⟩ := w2.curtainStop_spec
  generalize w2.curtainStop = w3 at *
  obtain ⟨h4, hdark4⟩ := State.regionsOff_spec 16 (Nat.le_refl 16) w3
  have hall : Ebbs (fun _ => True) w1 ((List.range 16).foldl (fun (s : State) r => s.regionOff r) w3) :=
    ((h2.mono fun _ _ h => h.elim).trans (h3.mono fun _ _ _ => trivial)).trans (h4.mono fun _ _ _ => trivial)
  have hdark (q : Nat) (hq : q < 16) (h : s.inRun q = true) : GoneDark ((List.range 16).foldl (fun (s : State) r => s.regionOff r) w3) q :=
    hdark4 q hq (hdark3 q hq ((h2.run q hq fun h => h).trans ((hrun q).trans h)))
  rw [State.allOff]
  generalize (List.range 16).foldl (fun (s : State) r => s.regionOff r) w3 = w4 at *
  have hstat {t : State} (h : t.rd Reg.PWR_STAT = w1.rd Reg.PWR_STAT) : t.feedAOk = false ∧ t.feedBOk = false ∧
      t.flag Reg.PWR_STAT Fl.PWR_STAT_FEED_EVENT = true := by
    rw [State.feedAOk, State.feedBOk, State.flag, State.flag, State.flag, State.fld, State.fld, State.fld, h]
    exact ⟨hA, hB, hevent⟩
  have h5 := w4.lkSet_switch (d := 25) (by decide) false
  have hsp := w4.domainOn_setDomain (d := 25) (e := 25) false (by decide) (by decide)
  rw [if_pos rfl] at hsp
  generalize w4.setDomain 25 false = w5 at *
  have hpwr5 : w5.rd Reg.PWR_STAT = w1.rd Reg.PWR_STAT :=
    (h5.rd _ (.inl (by decide)) (by decide)).trans (hall.pwr _ (by decide) (by decide) (by decide))
  obtain ⟨hA5, hB5, -⟩ := hstat hpwr5
  obtain ⟨h6, hlk⟩ := w5.lkFollow_spec 0 (by rw [hA5, hB5]; rfl)
  generalize w5.lkFollow = w6 at *
  have hwork6 : w6.work = s.work := h6.work.trans (h5.work.trans (hall.work.trans hwork))
  have hblk : w6.blk = s.blk := congrArg (fun w => w.2.2.2.2.2) hwork6
  rw [State.loadFeeds_none (hblk ▸ hload), State.rebindLost_none (hblk ▸ hrebind)]
  have h7 := w6.lkSet_instLost
  generalize w6.instLost = w7 at *
  obtain ⟨h8, hhv⟩ := w7.hvSync_spec
  have hpwr7 : w7.rd Reg.PWR_STAT = w1.rd Reg.PWR_STAT :=
    (h7.rd _ (.inl (by decide)) (by decide)).trans ((h6.rd _ (.inl (by decide)) (by decide)).trans hpwr5)
  have hhv8 := hhv (hstat hpwr7).1 (hstat hpwr7).2.1
  generalize w7.hvSync = w8 at *
  have hwork8 : w8.work = s.work := h8.work.trans (h7.work.trans hwork6)
  rw [State.loseAll_bare ((congrArg (fun w => w.2.2.1) hwork8).trans hctx) ((congrArg (fun w => w.2.2.2.1) hwork8).trans hslots)]
  have h9 := (w8.lkSet_replaceDrop (D := fun _ => False)).trans (State.calm_logFault w8.replaceDrop 0x49 .module none outUncovered 0).lkSet
  generalize w8.replaceDrop.logFault 0x49 .module none outUncovered 0 = w9 at *
  have hpast : LkSet (fun d => 16 ≤ d ∧ d < 24 ∨ d = 26) w5 w9 :=
    ((h6.mono fun d h => .inl h).trans ((h7.trans h8).mono fun d h => .inr h)).trans (h9.mono fun d h => h.elim)
  have hend : Ebbs (fun _ => False) w4 w9 := (h5.ebbs (by omega)).trans (hpast.ebbs (by omega))
  have hquiet : w9.noRequests := ⟨(congrArg (fun w => w.1) (h9.work.trans hwork8)).trans hreq.1,
    (congrArg (fun w => w.2.1.parkDue) (h9.work.trans hwork8)).trans hreq.2.1,
    hend.kv (hall.kv fun o ho => hreq.2.2 o (hkv ▸ ho))⟩
  rw [State.serve_quiet hquiet]
  obtain ⟨hfA, hfB, hfe⟩ := hstat ((hpast.rd _ (.inl (by decide)) (by decide)).trans hpwr5)
  refine ⟨hfA, hfB, hfe, fun q hq h => hend.dark q hq (fun h => h) (hdark q hq h), ?_, ?_, fun n hn => ?_, ?_⟩
  · rw [hpast.domain 25 (by decide) (by omega)]
    exact hsp
  · rw [h9.domain 26 (by decide) fun h => h]
    exact hhv8
  · rw [h9.domain _ (by omega) (fun h => h), h8.domain _ (by omega) (by omega), h7.domain _ (by omega) (by omega), hlk n hn, Nat.zero_testBit]
  · rw [hend.biWant, hall.biWant, hbi]

/-! ## One feed is lost, and a feed returns -/

theorem feedFld_spec (b : Bool) : (feedFld b).lsb + (feedFld b).width ≤ 64 ∧ 1 % 2 ^ (feedFld b).width ≠ 0 ∧
    ((feedFld b).lsb + (feedFld b).width ≤ (feedFld (!b)).lsb ∨ (feedFld (!b)).lsb + (feedFld (!b)).width ≤ (feedFld b).lsb) ∧
    Fl.PWR_STAT_FEED_EVENT.lsb + Fl.PWR_STAT_FEED_EVENT.width ≤ 64 ∧ (feedFld b).lsb + (feedFld b).width ≤ Fl.PWR_STAT_FEED_EVENT.lsb := by
  cases b <;> decide
theorem State.fed_iff (s : State) (b : Bool) : (s.feedAOk || s.feedBOk) = (s.flag Reg.PWR_STAT (feedFld b) || s.flag Reg.PWR_STAT (feedFld (!b))) := by
  cases b
  · rfl
  · exact Bool.or_comm _ _
/-- One feed in use or not. -/
theorem State.feedSet_spec (s : State) (b : Bool) {x : Nat} (hx : x < 2) : (s.setFld Reg.PWR_STAT (feedFld b) x).flag Reg.PWR_STAT (feedFld b) = (x != 0) ∧
    (s.setFld Reg.PWR_STAT (feedFld b) x).flag Reg.PWR_STAT (feedFld (!b)) = s.flag Reg.PWR_STAT (feedFld (!b)) := by
  obtain ⟨hwide, -, hapart, -, -⟩ := feedFld_spec b
  constructor
  · rw [State.flag, State.fld_setFld_same _ _ _ _ hwide]
    have : (feedFld b).width = 1 := by cases b <;> rfl
    rw [this, Nat.pow_one, Nat.mod_eq_of_lt hx]
  · rw [State.flag, State.fld, State.rd_setFld, if_pos rfl, Fld.get_set_apart _ _ _ _ hwide (feedFld_spec (!b)).1 hapart]
    rfl
theorem alertN_of_feed (h : s.flag Reg.PWR_STAT Fl.PWR_STAT_FEED_EVENT = true) : s.alertN = true := by
  rw [State.alertN, h, Bool.true_or, Bool.true_or, Bool.true_or, Bool.true_or]
theorem Alerts.calmly (h : Alerts Reg.PWR_STAT Fl.PWR_STAT_FEED_EVENT s t) : t.pantry = s.pantry ∧ t.biWant = s.biWant := by
  obtain ⟨_, _, rfl⟩ := h.eq
  exact ⟨rfl, rfl⟩
theorem State.feedLost_one (b : Bool) (hmine : s.flag Reg.PWR_STAT (feedFld b) = true) (hother : s.flag Reg.PWR_STAT (feedFld (!b)) = true) :
    (s.feedLost b).biWant = s.biWant ∧ (s.feedLost b).flag Reg.PWR_STAT (feedFld b) = false ∧ (s.feedLost b).flag Reg.PWR_STAT (feedFld (!b)) = true ∧
      (s.feedLost b).flag Reg.PWR_STAT Fl.PWR_STAT_FEED_EVENT = true ∧ (s.feedLost b).alertN = true ∧ PantryKept s (s.feedLost b) ∧
      (s.feedLost b).rd Reg.PWR_DOMAIN_STAT = s.rd Reg.PWR_DOMAIN_STAT ∧ (s.feedLost b).rd Reg.PWR_CURTAIN_STAT = s.rd Reg.PWR_CURTAIN_STAT := by
  obtain ⟨hm, ho⟩ := s.feedSet_spec b (x := 0) (by decide)
  obtain ⟨hwide, -, -, hev, hbelow⟩ := feedFld_spec b
  have hbelow' := (feedFld_spec (!b)).2.2.2.2
  have hrd {o : Nat} (hne : o ≠ Reg.PWR_STAT) : (s.setFld Reg.PWR_STAT (feedFld b) 0).rd o = s.rd o := by rw [State.rd_setFld, if_neg hne]
  have hpantry : (s.setFld Reg.PWR_STAT (feedFld b) 0).pantry = s.pantry := State.setFld_pantry ..
  have hbi : (s.setFld Reg.PWR_STAT (feedFld b) 0).biWant = s.biWant := State.setFld_biWant ..
  rw [State.feedLost, if_neg (by rw [hmine]; decide)]
  dsimp only
  rw [if_pos (by rw [State.fed_iff _ b, ho, hother, Bool.or_true])]
  generalize s.setFld Reg.PWR_STAT (feedFld b) 0 = v at *
  have halert := State.setAlert_spec (f := Fl.PWR_STAT_FEED_EVENT) (by decide) (by decide) v Reg.PWR_STAT
  obtain ⟨hap, hab⟩ := halert.calmly
  obtain ⟨-, hflag, hapart, hrest⟩ := halert
  generalize v.setAlert Reg.PWR_STAT Fl.PWR_STAT_FEED_EVENT = w at *
  have hcalm := (w.calm_logFault 0x4A .module none outLogged (if b then 1 else 0)).trans (State.calm_recap _)
  generalize (w.logFault 0x4A .module none outLogged (if b then 1 else 0)).recap = z at *
  have hstat : z.rd Reg.PWR_STAT = w.rd Reg.PWR_STAT := hcalm.rd _ (.inl (by decide))
  have hfl (f : Fld) : z.flag Reg.PWR_STAT f = w.flag Reg.PWR_STAT f := congrArg (fun x => f.get x != 0) hstat
  have hevent : z.flag Reg.PWR_STAT Fl.PWR_STAT_FEED_EVENT = true := (hfl _).trans hflag
  refine ⟨hcalm.biWant.trans (hab.trans hbi), ?_, ?_, hevent, alertN_of_feed hevent, pantryKept_of_eq (hcalm.pantry.trans (hap.trans hpantry)), ?_, ?_⟩
  · rw [hfl, State.flag, hapart _ hwide (.inr hbelow)]
    exact hm
  · rw [hfl, State.flag, hapart _ (feedFld_spec (!b)).1 (.inr hbelow')]
    exact ho.trans hother
  · rw [hcalm.rd _ (.inl (by decide)), hrest _ (by decide), hrd (by decide)]
  · rw [hcalm.rd _ (.inl (by decide)), hrest _ (by decide), hrd (by decide)]
/-- The connector of a feed withdrawn, or its feed mated. -/
def State.setMated (s : State) (b x : Bool) : State := if b then { s with power.feedB := x } else { s with power.feedA := x }
theorem State.setMated_same (s : State) (b x : Bool) : (s.setMated b x).regs = s.regs ∧ (s.setMated b x).pantry = s.pantry ∧
    (s.setMated b x).biWant = s.biWant ∧ (s.setMated b x).work = s.work ∧ (s.setMated b x).kvOps = s.kvOps := by
  cases b <;> exact ⟨rfl, rfl, rfl, rfl, rfl⟩
theorem State.exec_feedLoss (s : State) (b : Bool) : exec (.feedLoss b) s = .next (s.settle (s.feedLost b)) := rfl
theorem State.exec_presentNOpen (s : State) (b : Bool) : exec (.presentNOpen b) s = .next (s.settle ((s.setMated b false).feedLost b)) := by
  cases b <;> rfl
theorem feedOut (h : s.Settled) (b : Bool) {e : Instr} (he : e ∈ [Instr.feedLoss b, .presentNOpen b]) (hmine : s.flag Reg.PWR_STAT (feedFld b) = true)
    (hother : s.flag Reg.PWR_STAT (feedFld (!b)) = true) : ∃ t, exec e s = .next t ∧ t.flag Reg.PWR_STAT (feedFld b) = false ∧
      t.flag Reg.PWR_STAT (feedFld (!b)) = true ∧ t.flag Reg.PWR_STAT Fl.PWR_STAT_FEED_EVENT = true ∧ t.alertN = true ∧ PantryKept s t ∧
      t.rd Reg.PWR_DOMAIN_STAT = s.rd Reg.PWR_DOMAIN_STAT ∧ t.rd Reg.PWR_CURTAIN_STAT = s.rd Reg.PWR_CURTAIN_STAT := by
  simp only [List.mem_cons, List.not_mem_nil, or_false] at he
  rcases he with rfl | rfl
  · obtain ⟨hbi, hrest⟩ := State.feedLost_one b hmine hother
    exact ⟨_, (s.exec_feedLoss b).trans (congrArg _ (State.settle_of_still s _ (hbi.trans h.still))), hrest⟩
  · obtain ⟨hregs, hpantry, hbi0, -, -⟩ := s.setMated_same b false
    have hexec := s.exec_presentNOpen b
    generalize s.setMated b false = v at *
    have hrd := State.rd_congr hregs
    have hfl (f : Fld) : v.flag Reg.PWR_STAT f = s.flag Reg.PWR_STAT f := congrArg (fun x => f.get x != 0) (hrd _)
    obtain ⟨hbi, hm, ho, hev, hal, hpan, hdom, hcur⟩ := State.feedLost_one b ((hfl _).trans hmine) ((hfl _).trans hother)
    exact ⟨_, hexec.trans (congrArg _ (State.settle_of_still s _ (hbi.trans (hbi0.trans h.still)))), hm, ho, hev, hal,
      fun d o => (hpan d o).trans (pantryKept_of_eq hpantry d o), hdom.trans (hrd _), hcur.trans (hrd _)⟩
theorem feedBack (h : s.Settled) (b : Bool) (hmated : (if b then s.power.feedB else s.power.feedA) = true) (hmine : s.flag Reg.PWR_STAT (feedFld b) = false)
    (hleg : s.power.legacyUp ≠ 3) : ∃ t, exec (.feedReturn b) s = .next t ∧ t.flag Reg.PWR_STAT (feedFld b) = true ∧
      t.flag Reg.PWR_STAT (feedFld (!b)) = s.flag Reg.PWR_STAT (feedFld (!b)) ∧
      (∀ n < 8, t.domainOn (16 + n) = (s.fld Reg.PWR_LK_CTL Fl.PWR_LK_CTL_ON).testBit n) ∧
      t.rd Reg.PWR_CURTAIN_STAT = s.rd Reg.PWR_CURTAIN_STAT ∧ PantryKept s t := by
  obtain ⟨hm, ho⟩ := s.feedSet_spec b (x := 1) (by decide)
  have hrd {o : Nat} (hne : o ≠ Reg.PWR_STAT) : (s.setFld Reg.PWR_STAT (feedFld b) 1).rd o = s.rd o := by rw [State.rd_setFld, if_neg hne]
  have hpantry : (s.setFld Reg.PWR_STAT (feedFld b) 1).pantry = s.pantry := State.setFld_pantry ..
  have hbi : (s.setFld Reg.PWR_STAT (feedFld b) 1).biWant = s.biWant := State.setFld_biWant ..
  have hpower : (s.setFld Reg.PWR_STAT (feedFld b) 1).power = s.power := State.setFld_power ..
  have hwork : (s.setFld Reg.PWR_STAT (feedFld b) 1).work = s.work := State.work_setFld ..
  have hexec : exec (.feedReturn b) s = .next (s.settle (if (if b then s.power.feedB else s.power.feedA) && !s.flag Reg.PWR_STAT (feedFld b) then
      (if (s.setFld Reg.PWR_STAT (feedFld b) 1).lkFollow.hvSync.recap.power.legacyUp = 3 then
        (s.setFld Reg.PWR_STAT (feedFld b) 1).lkFollow.hvSync.recap.legacyGo
      else (s.setFld Reg.PWR_STAT (feedFld b) 1).lkFollow.hvSync.recap).powerPoll else s)) := rfl
  rw [if_pos (by rw [hmated, hmine]; rfl)] at hexec
  generalize s.setFld Reg.PWR_STAT (feedFld b) 1 = v at *
  obtain ⟨hlk, hdom⟩ := v.lkFollow_spec (s.fld Reg.PWR_LK_CTL Fl.PWR_LK_CTL_ON) (by
    rw [State.fed_iff _ b, hm, if_pos (by rfl)]
    exact congrArg (Fld.get _) (hrd (by decide)))
  generalize v.lkFollow = w at *
  obtain ⟨hhv, -⟩ := w.hvSync_spec
  have hrest : LkSet (fun d => d = 26) w w.hvSync.recap := hhv.trans (State.calm_recap _).lkSet
  generalize w.hvSync.recap = z at *
  have hall : LkSet (fun d => 16 ≤ d ∧ d < 24 ∨ d = 26) v z := (hlk.mono fun d h => .inl h).trans (hrest.mono fun d h => .inr h)
  have hblk : z.blk = s.blk := congrArg (fun w => w.2.2.2.2.2) (hall.work.trans hwork)
  rw [if_neg (by rw [hall.legacy, hpower]; exact hleg), State.powerPoll, State.loadPoll, hblk, h.load] at hexec
  dsimp only at hexec
  rw [State.rebindPoll, hblk, h.rebind] at hexec
  have hfl (f : Fld) : z.flag Reg.PWR_STAT f = v.flag Reg.PWR_STAT f := congrArg (fun x => f.get x != 0) (hall.rd _ (.inl (by decide)) (by decide))
  refine ⟨z, hexec.trans (congrArg _ (State.settle_of_still s z (hall.biWant.trans (hbi.trans h.still)))), (hfl _).trans hm, (hfl _).trans ho,
    fun n hn => (hrest.domain _ (by omega) (by omega)).trans (hdom n hn), ?_, pantryKept_of_eq (hall.pantry.trans hpantry)⟩
  rw [hall.rd _ (.inl (by decide)) (by decide), hrd (by decide)]
/-- The last feed in use is lost. -/
theorem State.feedLost_last (b : Bool) (hmine : s.flag Reg.PWR_STAT (feedFld b) = true) (hother : s.flag Reg.PWR_STAT (feedFld (!b)) = false)
    (hload : s.blk.load = none) (hrebind : s.blk.rebind = none) (hreq : s.noRequests) (hctx : s.ctxs = []) (hslots : s.slots = []) :
    Powerless s (s.feedLost b) := by
  obtain ⟨hm, ho⟩ := s.feedSet_spec b (x := 0) (by decide)
  have hrun (q : Nat) : (s.setFld Reg.PWR_STAT (feedFld b) 0).inRun q = s.inRun q := by
    rw [State.inRun, State.rd_setFld, if_neg (by decide)]
    rfl
  have hwork : (s.setFld Reg.PWR_STAT (feedFld b) 0).work = s.work := State.work_setFld ..
  have hkv : (s.setFld Reg.PWR_STAT (feedFld b) 0).kvOps = s.kvOps := State.setFld_kvOps ..
  have hbi : (s.setFld Reg.PWR_STAT (feedFld b) 0).biWant = s.biWant := State.setFld_biWant ..
  rw [State.feedLost, if_neg (by rw [hmine]; decide)]
  dsimp only
  rw [if_neg (by rw [State.fed_iff _ b, hm, ho, hother]; decide)]
  generalize s.setFld Reg.PWR_STAT (feedFld b) 0 = v at *
  have hblk : v.blk = s.blk := congrArg (fun w => w.2.2.2.2.2) hwork
  obtain ⟨hA, hB, hev, hdark, hsp, hhv, hlk, hstill⟩ := State.feedsLost_spec (s := v) (hblk ▸ hload) (hblk ▸ hrebind)
    ⟨(congrArg (fun w => w.1) hwork).trans hreq.1, (congrArg (fun w => w.2.1.parkDue) hwork).trans hreq.2.1, fun o hmem => hreq.2.2 o (hkv ▸ hmem)⟩
    ((congrArg (fun w => w.2.2.1) hwork).trans hctx) ((congrArg (fun w => w.2.2.2.1) hwork).trans hslots)
  exact ⟨hA, hB, hev, fun q hq h => hdark q hq ((hrun q).trans h), hsp, hhv, hlk, hstill.trans hbi⟩
theorem Powerless.all (h : Powerless s t) (b : Bool) : t.flag Reg.PWR_STAT (feedFld b) = false ∧ t.flag Reg.PWR_STAT (feedFld (!b)) = false ∧ t.alertN = true ∧
    t.pwrOk = false ∧ (∀ r < 16, s.inRun r = true → GoneDark t r) ∧ t.domainOn 25 = false ∧ t.domainOn 26 = false ∧
    ∀ n < 8, t.domainOn (16 + n) = false := by
  refine ⟨?_, ?_, alertN_of_feed h.event, ?_, h.dark, h.sp, h.hv, h.lk⟩
  · cases b
    · exact h.feedA
    · exact h.feedB
  · cases b
    · exact h.feedB
    · exact h.feedA
  · rw [State.pwrOk, h.feedA, h.feedB]
    rfl
theorem feedsOut (h : s.Settled) (b : Bool) {e : Instr} (he : e ∈ [Instr.bothFeedsLost, .feedLoss b, .presentNOpen b])
    (hmine : s.flag Reg.PWR_STAT (feedFld b) = true) (hother : s.flag Reg.PWR_STAT (feedFld (!b)) = false) (hreq : s.noRequests) (hctx : s.ctxs = [])
    (hslots : s.slots = []) : ∃ t, exec e s = .next t ∧ t.flag Reg.PWR_STAT (feedFld b) = false ∧ t.flag Reg.PWR_STAT (feedFld (!b)) = false ∧
      t.alertN = true ∧ t.pwrOk = false ∧ (∀ r < 16, s.inRun r = true → GoneDark t r) ∧ t.domainOn 25 = false ∧ t.domainOn 26 = false ∧
      ∀ n < 8, t.domainOn (16 + n) = false := by
  simp only [List.mem_cons, List.not_mem_nil, or_false] at he
  rcases he with rfl | rfl | rfl
  · have hlost := State.feedsLost_spec h.load h.rebind hreq hctx hslots
    have hexec : exec .bothFeedsLost s = .next (s.settle (if s.feedAOk || s.feedBOk then s.feedsLost else s)) := rfl
    rw [if_pos (by rw [State.fed_iff _ b, hmine, Bool.true_or]), State.settle_of_still s _ (hlost.biWant.trans h.still)] at hexec
    exact ⟨_, hexec, hlost.all b⟩
  · have hlost := State.feedLost_last b hmine hother h.load h.rebind hreq hctx hslots
    exact ⟨_, (s.exec_feedLoss b).trans (congrArg _ (State.settle_of_still s _ (hlost.biWant.trans h.still))), hlost.all b⟩
  · obtain ⟨hregs, -, hbi0, hwork, hkv⟩ := s.setMated_same b false
    have hexec := s.exec_presentNOpen b
    generalize s.setMated b false = v at *
    have hfl (f : Fld) : v.flag Reg.PWR_STAT f = s.flag Reg.PWR_STAT f := congrArg (fun x => f.get x != 0) (State.rd_congr hregs _)
    have hrun (q : Nat) : v.inRun q = s.inRun q := congrArg (fun x => x.toNat.testBit q) (State.rd_congr hregs _)
    have hblk : v.blk = s.blk := congrArg (fun w => w.2.2.2.2.2) hwork
    have hlost := State.feedLost_last (s := v) b ((hfl _).trans hmine) ((hfl _).trans hother) (hblk ▸ h.load) (hblk ▸ h.rebind)
      ⟨(congrArg (fun w => w.1) hwork).trans hreq.1, (congrArg (fun w => w.2.1.parkDue) hwork).trans hreq.2.1, fun o hmem => hreq.2.2 o (hkv ▸ hmem)⟩
      ((congrArg (fun w => w.2.2.1) hwork).trans hctx) ((congrArg (fun w => w.2.2.2.1) hwork).trans hslots)
    obtain ⟨hm, ho, hal, hok, hdark, hrest⟩ := hlost.all b
    exact ⟨_, hexec.trans (congrArg _ (State.settle_of_still s _ (hlost.biWant.trans (hbi0.trans h.still)))), hm, ho, hal, hok,
      fun r hr hin => hdark r hr ((hrun r).trans hin), hrest⟩

/-- Settles O39: one feed lost leaves the other, one that returns brings back what LK_CTL asks for, and with both lost every region goes Dark. -/
theorem feedsAreLostAndReturn : Obligations.FeedsAreLostAndReturn := by
  intro b s h
  refine ⟨fun e he => feedOut h b he, ?_, fun hmated hmine hleg _ => feedBack h b hmated hmine hleg,
    fun e he hmine hother hreq hctx hslots => feedsOut h b he hmine hother hreq hctx hslots⟩
  cases b
  · exact ⟨_, rfl, rfl, rfl, pantryKept_of_eq rfl⟩
  · exact ⟨_, rfl, rfl, rfl, pantryKept_of_eq rfl⟩

end Sys2Proof.Machine
end

section
/-! PROOFS. Regions and cores go down (O41). -/

namespace Sys2Proof.Machine

variable {s t u v : State} {r q c d n x : Nat}

/-- A 32-bit write of a register of a region's window that acts; the value shown over the ring follows. -/
theorem put32_region {i : Nat} {b : Block} {off o : Nat} {d : RegDesc} {v : Word} (hloc : locate off = some (i, b, o)) (h4 : off % 4 = 0) (hb : b.ofCore = false)
    (hlnk : b ≠ .lnk) (hfind : findReg b o = some d) (hnarrow : d.wide = false) (hdirect : d.direct = true)
    (hv : (v.setWidth 64 : DWord) &&& d.reservedBits = 0) (hidle : (d.hasClass .quiesced && !s.idleFor i b off) = false)
    (hok : valueOk off b o (v.setWidth 64) = true) (hact : s.act i b o off d (v.setWidth 64) = t) (ht : t.biWant = []) :
    put32 off v s = .next (t.mirrorWrite b off) := by
  have hpow : s.unpowered i b o = false := by
    have hl : (b == .lnk) = false := beq_eq_false_iff_ne.2 hlnk
    rw [State.unpowered, hb, hl]
    rfl
  have hload : s.inWrite i b = false := by
    rw [State.inWrite, hb]
    rfl
  have hseq : ¬ (b = .seq ∧ o = 0x88) := by
    rintro ⟨rfl, -⟩
    cases hb
  have hword : s.writeWord off v = t.mirrorWrite b off := by
    rw [State.writeWord, hloc]
    dsimp only
    rw [if_neg (by rw [hpow]; decide), if_neg (by rw [hload]; decide), hfind]
    dsimp only
    rw [if_neg hseq, if_neg (by rw [hnarrow]; decide), State.writeReg_acts hdirect hv hidle hok, hact]
  have hbi : (t.mirrorWrite b off).biWant = [] := by
    rw [State.mirrorWrite]
    split
    · exact ht
    · exact ht
  rw [put32, put, s.busWrite_word v h4, hword, State.settle_of_still s _ hbi]
/-- A change of the values shown over the ring. -/
theorem State.mirrorWrite_same (s : State) (b : Block) (off : Nat) : (s.mirrorWrite b off).regs = s.regs ∧ (s.mirrorWrite b off).pantry = s.pantry ∧
    (s.mirrorWrite b off).waking = s.waking ∧ (s.mirrorWrite b off).power = s.power := by
  rw [State.mirrorWrite]
  split <;> exact ⟨rfl, rfl, rfl, rfl⟩

/-! ## A region is asked down (R468, R499) -/

theorem locate_curtainCtl : locate Reg.PWR_CURTAIN_CTL = some (0, .pwr, 0x14) ∧ findReg .pwr 0x14 = some regsPwr[5] := by decide
theorem exec_curtainCtl {x : Word} (hwrite : s.writeCurtainCtl x = t) (ht : t.biWant = []) : put32 Reg.PWR_CURTAIN_CTL x s = .next t := by
  have hres : regsPwr[5].reservedBits = 0 := by decide
  refine put32_module locate_curtainCtl.1 (by decide) rfl (by decide) rfl locate_curtainCtl.2 rfl (by decide) (by rw [hres]; exact BitVec.and_zero)
    (quiet_of_live (by decide) _) rfl ?_ ht
  rw [State.act, if_pos rfl, setWidth_wide]
  exact hwrite
theorem downMask : ∀ r : RegionId, bitsOf (BitVec.ofNat 32 (2 ^ (16 + r.val))).toNat 0 16 = 0 ∧
    bitsOf (BitVec.ofNat 32 (2 ^ (16 + r.val))).toNat 16 16 = 2 ^ r.val ∧ maskList 16 (2 ^ r.val) = [r.val] := by decide
/-- The regions that wait to go down as given. -/
def State.setDowns (s : State) (l : List (List Nat)) : State := { s with power.curtainDowns := l }
theorem downAsked {r : RegionId} (h : s.Settled) (hready : s.fwReady = true) (hlegacy : s.legacy = false) (hbound : s.regionBound r = false)
    (hrun : s.inRun r = true) (hdowns : s.power.curtainDowns = []) (horder : s.reverseOrder (2 ^ r.val) = [r.val]) :
    ∃ t, exec (.curtainDown (BitVec.ofNat 32 (2 ^ (16 + r.val)))) s = .next t ∧ t.power.curtainDowns = [[r.val]] ∧ RegsKept s t [] ∧ PantryKept s t := by
  obtain ⟨hup, hdown, hmask⟩ := downMask r
  have hwrite : s.writeCurtainCtl (BitVec.ofNat 32 (2 ^ (16 + r.val))) = s.setDowns [[r.val]] := by
    rw [State.writeCurtainCtl, hup, hdown, hmask, horder, hready, hlegacy, hdowns]
    dsimp only
    rw [if_neg (by simp [hbound]), List.filter_cons, hrun]
    rfl
  exact ⟨_, exec_curtainCtl hwrite h.still, rfl, fun _ _ => rfl, pantryKept_of_eq rfl⟩
theorem downIgnored {r : RegionId} (h : s.Settled) (hready : s.fwReady = true) (hlegacy : s.legacy = false) (hbound : s.regionBound r = false)
    (hrun : s.inRun r = false) (hstage : s.stageOf r = 0) : exec (.curtainDown (BitVec.ofNat 32 (2 ^ (16 + r.val)))) s = .next s := by
  obtain ⟨hup, hdown, hmask⟩ := downMask r
  have hnone : ((s.reverseOrder (2 ^ r.val)).filter fun q => (s.inRun q || s.stageOf q != 0) && !s.power.curtainDowns.any fun l => l.contains q) = [] := by
    rw [List.filter_eq_nil_iff]
    intro q hq
    have hqr : q = r.val := by
      have hbit := (List.mem_filter.1 hq).2
      rw [Nat.testBit_two_pow, decide_eq_true_eq] at hbit
      exact hbit.symm
    rw [hqr, hrun, hstage]
    exact Bool.false_ne_true
  have hwrite : s.writeCurtainCtl (BitVec.ofNat 32 (2 ^ (16 + r.val))) = s := by
    rw [State.writeCurtainCtl, hup, hdown, hmask, hready, hlegacy]
    dsimp only
    rw [if_neg (by simp [hbound]), hnone]
    show s.setDowns (s.power.curtainDowns ++ []) = s
    rw [List.append_nil]
    rfl
  exact exec_curtainCtl hwrite h.still
theorem downRefused {r : RegionId} (h : s.Settled) (hbound : s.regionBound r = true) :
    ∃ t, exec (.curtainDown (BitVec.ofNat 32 (2 ^ (16 + r.val)))) s = .next t ∧ t.flag Reg.PWR_STAT Fl.PWR_STAT_WRITE_REFUSED = true ∧
      RegsKept s t [Reg.PWR_STAT] ∧ OnlyRegs s t := by
  obtain ⟨hup, hdown, hmask⟩ := downMask r
  have hwrite : s.writeCurtainCtl (BitVec.ofNat 32 (2 ^ (16 + r.val))) = s.pwrRefused := by
    rw [State.writeCurtainCtl, hup, hdown, hmask]
    dsimp only
    rw [if_pos (.inr (.inr (.inl (by simp [hbound]))))]
  refine ⟨_, exec_curtainCtl hwrite ((State.setFld_biWant ..).trans h.still), ?_, fun o ho => ?_, rfl⟩
  · rw [State.pwrRefused, State.flag, State.fld_setFld_same _ _ _ _ (by decide)]
    rfl
  · rw [State.pwrRefused, State.rd_setFld, if_neg (by simpa using ho)]

/-! ## A region goes down (R464, R468, R475) -/

theorem State.powerPoll_quiet (hload : s.blk.load = none) (hrebind : s.blk.rebind = none) : s.powerPoll = s := by
  rw [State.powerPoll, State.loadPoll, hload]
  dsimp only
  rw [State.rebindPoll, hrebind]
theorem State.not_inactive (h : s.inRun r = true) : ¬ s.inactive r := fun hin => by
  rw [hin.1] at h
  exact absurd h (by decide)
/-- A region in Run that is switched off, with no load and no rebind under way. -/
theorem RegionGone.settled (h : RegionGone r s t) (hs : s.Settled) : t.powerPoll = t ∧ t.biWant = [] := by
  have hblk : t.blk = s.blk := congrArg (fun w => w.2.2.2.2.2) (State.work_of_enduring h.enduring)
  exact ⟨State.powerPoll_quiet (hblk ▸ hs.load) (hblk ▸ hs.rebind), h.fades.biWant.trans hs.still⟩
theorem switchOpens {r : RegionId} (h : s.Settled) (hdowns : s.power.curtainDowns = [[r.val]]) (hrun : s.inRun r = true)
    (hquiet : ∀ c, c / 16 = r.val → s.evalInFlight c = false) :
    ∃ t, exec (.regionSwitchOpen r) s = .next t ∧ GoneDark t r ∧ t.power.curtainDowns = [] := by
  have hgone := State.regionOff_spec r.isLt (State.not_inactive hrun)
  obtain ⟨hpoll, hbi⟩ := hgone.settled h
  have hnone : (coresOf r.val).any s.evalInFlight = false := by
    rw [List.any_eq_false]
    intro c hc
    rw [hquiet c (mem_coresOf.1 hc)]
    exact Bool.false_ne_true
  have hdue : (s.power.curtainDowns.any fun l => l.find? s.inRun == some r.val) = true := by
    rw [hdowns, List.any_cons, List.find?_cons, hrun, Bool.or_eq_true]
    exact .inl (beq_self_eq_true _)
  have hexec : exec (.regionSwitchOpen r) s = .next (s.settle (s.regionOff r.val).powerPoll) := by
    show execRegionSwitchOpen r s = _
    rw [execRegionSwitchOpen, if_pos ⟨hdue, by rw [hnone]; rfl⟩]
  rw [hpoll, State.settle_of_still s _ hbi] at hexec
  refine ⟨_, hexec, hgone.dark, hgone.downs.trans ?_⟩
  rw [State.downGone, hdowns]
  show List.filter (fun l => !l.isEmpty) [List.filter (fun q => q != r.val) [r.val]] = []
  rw [List.filter_cons_of_neg (by simp)]
  rfl
theorem darkEntered {r : RegionId} (hrun : s.inRun r = true) (hkept : s.keptUp = false) (hlegacy : s.legacy = false) (hallowed : s.darkAllowed r = true)
    (hidle : ∀ c, c / 16 = r.val → s.sleep c = 3 ∨ (s.coreIdle c = true ∧ s.scrubbing c = false)) :
    ∃ t, exec (.darkEntry r) s = .next t ∧ GoneDark t r := by
  have hall : ((coresOf r.val).all fun c => s.sleep c == 3 || (s.coreIdle c && !s.scrubbing c)) = true := by
    rw [List.all_eq_true]
    intro c hc
    rcases hidle c (mem_coresOf.1 hc) with h | ⟨h, h'⟩
    · rw [h]
      rfl
    · rw [h, h']
      exact Bool.or_true _
  have hexec : exec (.darkEntry r) s = .next (s.regionOff r.val) := by
    show execDarkEntry r s = _
    rw [execDarkEntry, if_pos ⟨hrun, by rw [hkept]; rfl, by rw [hlegacy]; rfl, hall, hallowed⟩]
  exact ⟨_, hexec, (State.regionOff_spec r.isLt (State.not_inactive hrun)).dark⟩

/-! ## A core enters Retain, and is woken (R473) -/

theorem retainEntered {c : CoreId} (hsleep : s.sleep c = 0) (hidle : s.coreIdle c = true) (hscrub : s.scrubbing c = false) (hkept : s.keptUp = false)
    (hwaking : c.val ∉ s.waking) (hwoken : s.woken c ≠ some s.now) (hmay : s.bound c = false ∨ bitOf (s.bind c).sleep 2 = true) :
    ∃ t, exec (.retainEntry c) s = .next t ∧ t.sleep c = 3 ∧ t.binsGranted c = 0 ∧ t.engGranted c = 0 ∧
      t.reserved c = 0 ∧ PantryKept s t ∧ RegsKept s t [sleepReg c, claimReg c] := by
  have hexec : exec (.retainEntry c) s = .next ((s.claimsGone c).setSleep c 3) := by
    show execRetainEntry c s = _
    rw [execRetainEntry, if_pos ⟨hsleep, hidle, by rw [hscrub]; rfl, by rw [hkept]; rfl, by simpa using hwaking, hmay.imp (fun h => by rw [h]; rfl) fun h => h⟩,
      State.enter, if_neg hwoken]
  obtain ⟨hbins, heng⟩ := s.granted_claimsGone c
  have hres : (s.claimsGone c).reserved c = 0 := by
    rw [State.claimsGone_eq, State.reserved]
    exact (sread_swrite (fun _ => (0 : Nat)) _ c.val 0 c.val).trans (if_pos rfl)
  have hpantry := (s.unclaimed_claimsGone c).pantry
  have hrd (o : Nat) (ho : o ≠ claimReg c) : (s.claimsGone c).rd o = s.rd o := State.rd_claimsGone s c ho
  generalize s.claimsGone c = v at *
  have hclaim : (v.setSleep c 3).rd (claimReg c) = v.rd (claimReg c) := by
    rw [State.setSleep, State.rd_setFld, if_neg (sleepReg_ne_claimReg c.isLt c.isLt)]
  refine ⟨_, hexec, State.sleep_setSleep v c 3 (by decide), (congrArg (Fld.get _) hclaim).trans hbins, (congrArg (Fld.get _) hclaim).trans heng, ?_,
    pantryKept_of_eq ((State.setSleep_pantry ..).trans hpantry), fun o ho => ?_⟩
  · rw [State.reserved, State.setSleep_power]
    exact hres
  · simp only [List.mem_cons, List.not_mem_nil, or_false, not_or] at ho
    rw [State.setSleep, State.rd_setFld, if_neg ho.1, hrd o ho.2]
theorem locate_stgWake : ∀ r : RegionId, locate (Reg.STG_WAKE r) = some (r.val, .stg, 8) := by decide
theorem wakeMask : ∀ j : Fin 16, maskList 16 (BitVec.ofNat 32 (2 ^ j.val)).toNat = [j.val] ∧ (BitVec.ofNat 32 (2 ^ j.val)).toNat < 65536 ∧
    ((BitVec.ofNat 32 (2 ^ j.val)).setWidth 64 : DWord) &&& regsStg[1].reservedBits = 0 := by decide
/-- A core's wake under way. -/
def State.woke (s : State) (c : Nat) : State :=
  { s with wokeAt := swrite (fun _ => none) s.wokeAt c (some s.now), waking := s.waking ++ [c] }
theorem State.wake_asleep (hsleep : s.sleep c ≠ 0) (hwaking : c ∉ s.waking) : s.wake c = s.woke c := by
  have hno : s.waking.contains c = false := by simpa using hwaking
  rw [State.wake]
  dsimp only
  split
  next h0 => exact absurd h0 hsleep
  next =>
    split
    next hin => exact absurd (hno.symm.trans hin) Bool.false_ne_true
    next => rfl
theorem stgWakes (h : s.Settled) {r : RegionId} {j : Fin 16} (hsleep : s.sleep (16 * r.val + j.val) = 3) (hwaking : 16 * r.val + j.val ∉ s.waking) :
    ∃ t, exec (.stgWake r (BitVec.ofNat 32 (2 ^ j.val))) s = .next t ∧
      t.waking = s.waking ++ [16 * r.val + j.val] ∧ RegsKept s t [] ∧ PantryKept s t := by
  obtain ⟨hmask, hlt, hres⟩ := wakeMask j
  have hact : s.act r.val .stg 8 (Reg.STG_WAKE r) regsStg[1] ((BitVec.ofNat 32 (2 ^ j.val)).setWidth 64) = s.woke (16 * r.val + j.val) := by
    rw [State.act, if_pos rfl, setWidth_wide, State.writeStgWake, if_neg (by omega), hmask, List.foldl_cons, if_pos (.inl hsleep), List.foldl_nil]
    exact State.wake_asleep (by rw [hsleep]; decide) hwaking
  have hexec := put32_region (s := s) (locate_stgWake r) (by unfold Reg.STG_WAKE regionWin; omega) rfl (by decide)
    (show findReg .stg 8 = some regsStg[1] by decide) rfl (by decide) hres (quiet_of_live (by decide) _) rfl hact h.still
  obtain ⟨hregs, hpantry, hwake, -⟩ := (s.woke (16 * r.val + j.val)).mirrorWrite_same .stg (Reg.STG_WAKE r)
  exact ⟨_, hexec, hwake, fun o _ => State.rd_congr hregs o, pantryKept_of_eq hpantry⟩

/-- Settles O41: DOWN waits for the region's evaluations and is refused for a bound core; idle cores enter Retain, and idle regions Dark. -/
theorem regionsAndCoresGoDown : Obligations.RegionsAndCoresGoDown :=
  fun _ _ h =>
    ⟨fun hready hlegacy hbound hrun hdowns horder => downAsked h hready hlegacy hbound hrun hdowns horder,
      fun hready hlegacy hbound hrun hstage => downIgnored h hready hlegacy hbound hrun hstage, fun hbound => downRefused h hbound,
      fun hdowns hrun hquiet => switchOpens h hdowns hrun hquiet,
      fun hrun hkept hlegacy hallowed hidle => darkEntered hrun hkept hlegacy hallowed hidle,
      fun _ hsleep hidle hscrub hkept hwaking hwoken hmay => retainEntered hsleep hidle hscrub hkept hwaking hwoken hmay,
      fun _ hsleep hwaking => stgWakes h hsleep hwaking⟩

end Sys2Proof.Machine
end

section
/-! PROOFS. Failures of converters and regulators cut power of their region (O42). -/

namespace Sys2Proof.Machine

variable {s t u v : State} {r q c d n x : Nat}

/-! ## A region forced down (R468) -/

theorem coreId_kept (hc : c < 256) : keptReg (Reg.CORE_ID c) := by
  unfold keptReg Reg.CORE_ID coreWin
  omega
theorem Fades.bound {R : Nat → Prop} (h : Fades R s t) (hc : c < 256) : t.bound c = s.bound c := by
  refine congrArg (fun x => Fl.CORE_ID_BOUND.get x != 0) (h.rd _ (coreId_kept hc) ?_ ?_ fun d hd => ⟨?_, ?_⟩)
  · unfold Reg.CORE_ID coreWin Reg.PWR_CURTAIN_STAT
    omega
  · unfold Reg.CORE_ID coreWin Reg.PWR_DOMAIN_STAT
    omega
  · unfold Reg.CORE_ID coreWin sleepReg Reg.STG_CORE_STATE regionWin
    omega
  · unfold Reg.CORE_ID coreWin claimReg Reg.ARB_CLAIM regionWin
    omega
theorem State.partsIn_unbound (h : ∀ c, c / 16 = r → s.bound c = false) : s.partsIn r = [] := by
  rw [State.partsIn, List.filter_eq_nil_iff]
  intro p _
  rw [Bool.and_eq_true, List.any_eq_true]
  rintro ⟨-, c, hc, hb⟩
  rw [h c (mem_coresOf.1 hc), Bool.false_and] at hb
  exact absurd hb (by decide)
theorem State.swingsDead_none (h : s.noSwingIn r) : (s.swingsDead fun c => regionOf c == r) = s := by
  have hnone {q : Replace} (hq : q ∈ s.faults.replace.toList ++ s.faults.replaceQ) : (regionOf q.swing == r) = false := beq_eq_false_iff_ne.2 (h q hq)
  have hout : (s.faults.replaceQ.filter fun q => regionOf q.swing == r) = [] := by
    rw [List.filter_eq_nil_iff]
    intro q hq
    rw [hnone (List.mem_append_right _ hq)]
    exact Bool.false_ne_true
  have hall : (s.faults.replaceQ.filter fun q => !(regionOf q.swing == r)) = s.faults.replaceQ := by
    rw [List.filter_eq_self]
    intro q hq
    rw [hnone (List.mem_append_right _ hq)]
    rfl
  have hcur : (s.faults.replace.any fun q => regionOf q.swing == r) = false := by
    cases hr : s.faults.replace with
    | none => rfl
    | some q => exact hnone (List.mem_append_left _ (by rw [hr]; exact List.mem_singleton.2 rfl))
  rw [State.swingsDead, hout, hall]
  show (if s.faults.replace.any fun q => regionOf q.swing == r then s.replaceFail else s) = s
  rw [hcur]
  rfl
theorem State.noSwingIn_congr (h : t.faults = s.faults) (hs : s.noSwingIn r) : t.noSwingIn r := by
  rw [State.noSwingIn, h]
  exact hs
theorem State.regionLost_unused (hbound : ∀ c, c / 16 = r → s.bound c = false) (hswing : s.noSwingIn r) : s.regionLost r = s := by
  rw [State.regionLost, State.partsIn_unbound hbound, List.foldl_nil]
  exact State.swingsDead_none hswing
/-- What a region without bound cores that is in Run has to be forced down. -/
structure State.Cuttable (s : State) (r : Nat) : Prop where
  settled : s.Settled
  run : s.inRun r = true
  stage : s.stageOf r = 0
  swing : s.noSwingIn r
  unbound : ∀ c, c / 16 = r → s.bound c = false
theorem State.forcedDown_spec (hr : r < 16) (h : s.Cuttable r) : RegionGone r s (s.forcedDown r) ∧ (s.forcedDown r).biWant = [] := by
  have hgone := State.regionOff_spec hr (State.not_inactive h.run)
  obtain ⟨hpoll, hbi⟩ := hgone.settled h.settled
  have hlost : (s.regionOff r).regionLost r = s.regionOff r := State.regionLost_unused
    (fun c hc => (hgone.fades.bound (by omega)).trans (h.unbound c hc)) (State.noSwingIn_congr (congrArg (fun e => e.2.1) hgone.enduring) h.swing)
  rw [State.forcedDown, if_neg (fun hne => hne h.stage), if_pos h.run, hlost, hpoll]
  exact ⟨hgone, hbi⟩
/-- The stagehand's registers of a region, but for its cores' states, are as they were. -/
theorem RegionGone.stage_reg {o : Nat} (h : RegionGone r s t) (ho : 0x01000000 ≤ o ∧ o < 0x02000000 ∧ 0x10 ≤ o % 0x100000 ∧ o % 0x100000 < 0x1000) :
    t.rd o = s.rd o := by
  refine h.fades.rd o (.inr (.inl ⟨ho.1, ho.2.1, .inl ho.2.2.2⟩)) ?_ ?_ fun c hc => ⟨?_, ?_⟩
  · unfold Reg.PWR_CURTAIN_STAT
    omega
  · unfold Reg.PWR_DOMAIN_STAT
    omega
  · unfold sleepReg Reg.STG_CORE_STATE regionWin
    omega
  · unfold claimReg Reg.ARB_CLAIM regionWin
    omega
theorem State.Cuttable.congr (h : s.Cuttable r) (hblk : t.blk = s.blk) (hbi : t.biWant = s.biWant) (hfaults : t.faults = s.faults)
    (hup : t.power.upStage = s.power.upStage) (hrun : t.rd Reg.PWR_CURTAIN_STAT = s.rd Reg.PWR_CURTAIN_STAT)
    (hid : ∀ c, t.rd (Reg.CORE_ID c) = s.rd (Reg.CORE_ID c)) : t.Cuttable r := by
  obtain ⟨⟨hload, hrebind, hstill⟩, hin, hstage, hswing, hunbound⟩ := h
  refine ⟨⟨hblk ▸ hload, hblk ▸ hrebind, hbi.trans hstill⟩, ?_, (State.stageOf_congr hup r).trans hstage, State.noSwingIn_congr hfaults hswing, fun c hc => ?_⟩
  · rw [State.inRun, hrun]
    exact hin
  · exact (congrArg (fun x => Fl.CORE_ID_BOUND.get x != 0) (hid c)).trans (hunbound c hc)

/-! ## A converter fails (R459) -/

theorem Calm.power (h : Calm s t) : t.power.convBad = s.power.convBad ∧ t.power.shares = s.power.shares := by
  obtain ⟨_, _, _, _, _, _, _, _, rfl⟩ := h.eq
  exact ⟨rfl, rfl⟩
/-- The failed converters as given. -/
def State.setConverters (s : State) (m : List (Nat × Bool)) : State := { s with power.convBad := m }
/-- One more converter failed leaves one fewer at work. -/
theorem State.converters_failed (hn : sread (fun _ => false) s.power.convBad n = false)
    (ht : t.power.convBad = swrite (fun _ => false) s.power.convBad n true) : t.converters (n / 4) + 1 = s.converters (n / 4) := by
  have hrd (i : Nat) : (!sread (fun _ => false) t.power.convBad (4 * (n / 4) + i)) =
      (!sread (fun _ => false) s.power.convBad (4 * (n / 4) + i) && i != n % 4) := by
    rw [ht, sread_swrite]
    by_cases hi : i = n % 4
    · rw [if_pos (by omega), hi]
      simp
    · rw [if_neg (by omega)]
      simp [hi]
  have hin : n % 4 ∈ (List.range 4).filter fun i => !sread (fun _ => false) s.power.convBad (4 * (n / 4) + i) := by
    rw [List.mem_filter, show 4 * (n / 4) + n % 4 = n by omega, hn]
    exact ⟨List.mem_range.2 (by omega), rfl⟩
  have hnd : ((List.range 4).filter fun i => !sread (fun _ => false) s.power.convBad (4 * (n / 4) + i)).Nodup := List.nodup_range.filter _
  have hsplit : ((List.range 4).filter fun i => !sread (fun _ => false) t.power.convBad (4 * (n / 4) + i)) =
      ((List.range 4).filter fun i => !sread (fun _ => false) s.power.convBad (4 * (n / 4) + i)).erase (n % 4) := by
    rw [hnd.erase_eq_filter, List.filter_filter]
    refine List.filter_congr fun i _ => ?_
    rw [hrd, Bool.and_comm]
  rw [State.converters, State.converters, hsplit, List.length_erase_of_mem hin]
  have := List.length_pos_of_mem hin
  omega
theorem State.limitsOf_converters {w : Nat} (h : t.converters r < 4) (hw : sread (fun _ => 0) t.power.shares r = w) :
    (250000 * t.converters r - w, 4) ∈ t.limitsOf r := by
  rw [State.limitsOf, if_pos h, hw]
  simp
theorem State.converters_le (s : State) (r : Nat) : s.converters r ≤ 4 := List.length_filter_le _ _
theorem converterFails {n : Fin 64} (hn : sread (fun _ => false) s.power.convBad n.val = false) :
    ∃ t, exec (.converterFail n) s = .next t ∧ t.converters (n.val / 4) + 1 = s.converters (n.val / 4) ∧ PantryKept s t ∧
      t.flag (Reg.STG_REG_STAT (n.val / 4)) Fl.STG_REG_STAT_REG_EVENT = true ∧
      (250000 * t.converters (n.val / 4) - sread (fun _ => 0) s.power.shares (n.val / 4), 4) ∈ t.limitsOf (n.val / 4) := by
  have hexec : exec (.converterFail n) s = .next ((s.setConverters (swrite (fun _ => false) s.power.convBad n.val true)).setFld
      (Reg.STG_REG_STAT (n.val / 4)) Fl.STG_REG_STAT_REG_EVENT 1).recap := by
    show execConverterFail n s = _
    rw [execConverterFail, if_neg (by rw [hn]; decide)]
    rfl
  have hpow : ((s.setConverters (swrite (fun _ => false) s.power.convBad n.val true)).setFld (Reg.STG_REG_STAT (n.val / 4))
      Fl.STG_REG_STAT_REG_EVENT 1).power = (s.setConverters (swrite (fun _ => false) s.power.convBad n.val true)).power := State.setFld_power ..
  have hpan : ((s.setConverters (swrite (fun _ => false) s.power.convBad n.val true)).setFld (Reg.STG_REG_STAT (n.val / 4))
      Fl.STG_REG_STAT_REG_EVENT 1).pantry = s.pantry := State.setFld_pantry ..
  have hflag : ((s.setConverters (swrite (fun _ => false) s.power.convBad n.val true)).setFld (Reg.STG_REG_STAT (n.val / 4))
      Fl.STG_REG_STAT_REG_EVENT 1).flag (Reg.STG_REG_STAT (n.val / 4)) Fl.STG_REG_STAT_REG_EVENT = true := by
    rw [State.flag, State.fld_setFld_same _ _ _ _ (by decide)]
    rfl
  generalize (s.setConverters (swrite (fun _ => false) s.power.convBad n.val true)).setFld (Reg.STG_REG_STAT (n.val / 4)) Fl.STG_REG_STAT_REG_EVENT 1 = v at *
  have hcalm := v.calm_recap
  generalize v.recap = w at *
  obtain ⟨hconv, hshares⟩ := hcalm.power
  have hbad : w.power.convBad = swrite (fun _ => false) s.power.convBad n.val true := by rw [hconv, hpow]; rfl
  have hone := State.converters_failed hn hbad
  refine ⟨w, hexec, hone, pantryKept_of_eq (hcalm.pantry.trans hpan), ?_, State.limitsOf_converters ?_ ?_⟩
  · rw [← hflag]
    refine congrArg (fun x => Fl.STG_REG_STAT_REG_EVENT.get x != 0) (hcalm.rd _ (.inr (.inl ?_)))
    unfold Reg.STG_REG_STAT regionWin
    omega
  · have := s.converters_le (n.val / 4)
    omega
  · rw [hshares, hpow]
    rfl

/-! ## A regulator fails (R461, R462) -/

theorem stgStat_ne (r : Nat) : Reg.STG_REG_STAT r ≠ Reg.STG_REG_FAIL r ∧ Reg.STG_REG_STAT r ≠ Reg.PWR_CURTAIN_STAT ∧ Reg.STG_REG_FAIL r ≠ Reg.PWR_CURTAIN_STAT := by
  unfold Reg.STG_REG_STAT Reg.STG_REG_FAIL regionWin Reg.PWR_CURTAIN_STAT
  omega
theorem stgReg_ne_coreId (hr : r < 16) (c : Nat) : Reg.CORE_ID c ≠ Reg.STG_REG_STAT r ∧ Reg.CORE_ID c ≠ Reg.STG_REG_FAIL r := by
  unfold Reg.STG_REG_STAT Reg.STG_REG_FAIL regionWin Reg.CORE_ID coreWin
  omega
/-- Changes of STG.REG_STAT and STG.REG_FAIL of a region. -/
structure StgOnly (r : Nat) (s t : State) : Prop where
  only : OnlyRegs s t
  rd : ∀ o, o ≠ Reg.STG_REG_STAT r → o ≠ Reg.STG_REG_FAIL r → t.rd o = s.rd o
theorem StgOnly.trans (h : StgOnly r s t) (h' : StgOnly r t u) : StgOnly r s u :=
  ⟨h.only.trans h'.only, fun o hs hf => (h'.rd o hs hf).trans (h.rd o hs hf)⟩
theorem State.stgOnly_wr {o : Nat} (ho : o = Reg.STG_REG_STAT r ∨ o = Reg.STG_REG_FAIL r) (s : State) (x : DWord) : StgOnly r s (s.wr o x) :=
  ⟨rfl, fun i hs hf => State.rd_wr_other _ _ _ _ fun h => ho.elim (fun ho => hs (h.trans ho)) fun ho => hf (h.trans ho)⟩
theorem State.stgOnly_setFld (s : State) (f : Fld) (x : Nat) : StgOnly r s (s.setFld (Reg.STG_REG_STAT r) f x) := s.stgOnly_wr (.inl rfl) _
theorem StgOnly.same (h : StgOnly r s t) : t.pantry = s.pantry ∧ t.power = s.power ∧ t.biWant = s.biWant ∧ t.faults = s.faults ∧ t.blk = s.blk := by
  rw [h.only]
  exact ⟨rfl, rfl, rfl, rfl, rfl⟩
theorem StgOnly.cuttable (h : StgOnly r s t) (hr : r < 16) (hs : s.Cuttable r) : t.Cuttable r := by
  obtain ⟨-, hpower, hbi, hfaults, hblk⟩ := h.same
  obtain ⟨-, hstat, hfail⟩ := stgStat_ne r
  exact hs.congr hblk hbi hfaults (congrArg Power.upStage hpower) (h.rd _ hstat.symm hfail.symm)
    fun c => h.rd _ (stgReg_ne_coreId hr c).1 (stgReg_ne_coreId hr c).2
/-- The failed regulators noted, and counted. -/
def State.regCounted (s : State) (r n f : Nat) : State :=
  ((s.wr (Reg.STG_REG_FAIL r) (s.rd (Reg.STG_REG_FAIL r) ||| BitVec.ofNat 64 (2 ^ n))).setFld (Reg.STG_REG_STAT r) Fl.STG_REG_STAT_FAILED f).setFld
    (Reg.STG_REG_STAT r) Fl.STG_REG_STAT_REG_EVENT 1
/-- A region with five failed regulators is capped. -/
def State.regCapped (s : State) (r f : Nat) : State := if 5 ≤ f then s.setFld (Reg.STG_REG_STAT r) Fl.STG_REG_STAT_CAPPED 1 else s
/-- What counting a failed regulator shows. -/
structure RegFailed (r n f : Nat) (s t : State) : Prop where
  bits : t.rd (Reg.STG_REG_FAIL r) = s.rd (Reg.STG_REG_FAIL r) ||| BitVec.ofNat 64 (2 ^ n)
  failed : t.fld (Reg.STG_REG_STAT r) Fl.STG_REG_STAT_FAILED = f
  event : t.flag (Reg.STG_REG_STAT r) Fl.STG_REG_STAT_REG_EVENT = true
  capped : 5 ≤ f → t.flag (Reg.STG_REG_STAT r) Fl.STG_REG_STAT_CAPPED = true
theorem RegFailed.congr (h : RegFailed r n x s t) (hbits : u.rd (Reg.STG_REG_FAIL r) = t.rd (Reg.STG_REG_FAIL r))
    (hstat : u.rd (Reg.STG_REG_STAT r) = t.rd (Reg.STG_REG_STAT r)) : RegFailed r n x s u := by
  refine ⟨hbits.trans h.bits, ?_, ?_, fun hf => ?_⟩
  · rw [State.fld, hstat]
    exact h.failed
  · rw [State.flag, State.fld, hstat]
    exact h.event
  · rw [State.flag, State.fld, hstat]
    exact h.capped hf
/-- Another flag of the register set leaves the count. -/
theorem RegFailed.setFld {f : Fld} (h : RegFailed r n x s t) (hf : f.lsb + f.width ≤ 64) (hcap : 7 ≤ f.lsb) (hevent : f.lsb + f.width ≤ 11) (y : Nat) :
    RegFailed r n x s (t.setFld (Reg.STG_REG_STAT r) f y) := by
  have hget {g : Fld} (hg : g.lsb + g.width ≤ 64) (hapart : f.lsb + f.width ≤ g.lsb ∨ g.lsb + g.width ≤ f.lsb) :
      (t.setFld (Reg.STG_REG_STAT r) f y).fld (Reg.STG_REG_STAT r) g = t.fld (Reg.STG_REG_STAT r) g := by
    rw [State.fld, State.rd_setFld, if_pos rfl, Fld.get_set_apart f g _ _ hf hg hapart]
    rfl
  refine ⟨?_, ?_, ?_, fun h5 => ?_⟩
  · rw [State.rd_setFld, if_neg (stgStat_ne r).1.symm]
    exact h.bits
  · rw [hget (by decide) (.inr (by show 0 + 6 ≤ f.lsb; omega))]
    exact h.failed
  · rw [State.flag, hget (by decide) (.inl hevent)]
    exact h.event
  · rw [State.flag, hget (g := Fl.STG_REG_STAT_CAPPED) (by decide) (.inr hcap)]
    exact h.capped h5
theorem State.regFailed_spec (s : State) (r n : Nat) {f : Nat} (hf : f < 64) : RegFailed r n f s ((s.regCounted r n f).regCapped r f) ∧
    StgOnly r s ((s.regCounted r n f).regCapped r f) := by
  have hbits : (s.regCounted r n f).rd (Reg.STG_REG_FAIL r) = s.rd (Reg.STG_REG_FAIL r) ||| BitVec.ofNat 64 (2 ^ n) := by
    rw [State.regCounted, State.rd_setFld, if_neg (stgStat_ne r).1.symm, State.rd_setFld, if_neg (stgStat_ne r).1.symm, State.rd_wr_same]
  have hfailed : (s.regCounted r n f).fld (Reg.STG_REG_STAT r) Fl.STG_REG_STAT_FAILED = f := by
    rw [State.regCounted, State.fld, State.rd_setFld, if_pos rfl, Fld.get_set_apart _ _ _ _ (by decide) (by decide) (by decide), State.rd_setFld, if_pos rfl,
      Fld.get_set _ _ _ (by decide)]
    exact Nat.mod_eq_of_lt hf
  have hevent : (s.regCounted r n f).flag (Reg.STG_REG_STAT r) Fl.STG_REG_STAT_REG_EVENT = true := by
    rw [State.regCounted, State.flag, State.fld_setFld_same _ _ _ _ (by decide)]
    rfl
  have honly : StgOnly r s (s.regCounted r n f) := ((s.stgOnly_wr (.inr rfl) _).trans (State.stgOnly_setFld ..)).trans (State.stgOnly_setFld ..)
  generalize s.regCounted r n f = v at *
  rw [State.regCapped]
  split
  · refine ⟨⟨?_, ?_, ?_, fun _ => ?_⟩, honly.trans (State.stgOnly_setFld ..)⟩
    · rw [State.rd_setFld, if_neg (stgStat_ne r).1.symm]
      exact hbits
    · rw [State.fld, State.rd_setFld, if_pos rfl, Fld.get_set_apart _ _ _ _ (by decide) (by decide) (by decide)]
      exact hfailed
    · rw [State.flag, State.fld, State.rd_setFld, if_pos rfl, Fld.get_set_apart _ _ _ _ (by decide) (by decide) (by decide)]
      exact hevent
    · rw [State.flag, State.fld_setFld_same _ _ _ _ (by decide)]
      rfl
  · next h => exact ⟨⟨hbits, hfailed, hevent, fun h5 => absurd h5 h⟩, honly⟩
theorem exec_regulatorFail {r : RegionId} {n : Fin 48} (hnew : (s.rd (Reg.STG_REG_FAIL r)).toNat.testBit n.val = false) {f : Nat}
    (hf : s.fld (Reg.STG_REG_STAT r) Fl.STG_REG_STAT_FAILED + 1 = f) : exec (.regulatorFail r n) s =
      .next (if 9 ≤ f ∧ ((s.regCounted r n f).regCapped r f).stageOf r ≠ 1 then s.settle (((s.regCounted r n f).regCapped r f).regionOut r)
        else ((s.regCounted r n f).regCapped r f).recap) := by
  subst hf
  have hother : (s.wr (Reg.STG_REG_FAIL r) (s.rd (Reg.STG_REG_FAIL r) ||| BitVec.ofNat 64 (2 ^ n.val))).fld (Reg.STG_REG_STAT r) Fl.STG_REG_STAT_FAILED =
      s.fld (Reg.STG_REG_STAT r) Fl.STG_REG_STAT_FAILED := congrArg (Fld.get _) (State.rd_wr_other _ _ _ _ (stgStat_ne r.val).1)
  rw [← hother]
  show execRegulatorFail r n s = _
  rw [execRegulatorFail]
  dsimp only
  rw [if_neg (by rw [hnew]; decide)]
  rfl
theorem stgReg_region (hr : r < 16) : (0x01000000 ≤ Reg.STG_REG_STAT r ∧ Reg.STG_REG_STAT r < 0x02000000 ∧ 0x10 ≤ Reg.STG_REG_STAT r % 0x100000 ∧
    Reg.STG_REG_STAT r % 0x100000 < 0x1000) ∧ (0x01000000 ≤ Reg.STG_REG_FAIL r ∧ Reg.STG_REG_FAIL r < 0x02000000 ∧ 0x10 ≤ Reg.STG_REG_FAIL r % 0x100000 ∧
      Reg.STG_REG_FAIL r % 0x100000 < 0x1000) := by
  unfold Reg.STG_REG_STAT Reg.STG_REG_FAIL regionWin
  omega
theorem stgReg_kept {o : Nat} (ho : 0x01000000 ≤ o ∧ o < 0x02000000 ∧ 0x10 ≤ o % 0x100000 ∧ o % 0x100000 < 0x1000) : keptReg o :=
  .inr (.inl ⟨ho.1, ho.2.1, .inl ho.2.2.2⟩)
theorem Calm.regFailed (h : Calm t u) (hr : r < 16) (hs : RegFailed r n x s t) : RegFailed r n x s u :=
  hs.congr (h.rd _ (stgReg_kept (stgReg_region hr).2)) (h.rd _ (stgReg_kept (stgReg_region hr).1))
theorem regulatorCounted {r : RegionId} {n : Fin 48} (hnew : (s.rd (Reg.STG_REG_FAIL r)).toNat.testBit n.val = false) {f : Nat}
    (hf : s.fld (Reg.STG_REG_STAT r) Fl.STG_REG_STAT_FAILED + 1 = f) (h9 : f < 9) :
    ∃ t, exec (.regulatorFail r n) s = .next t ∧ RegFailed r n f s t ∧ PantryKept s t ∧ t.inRun r = s.inRun r := by
  have hexec := exec_regulatorFail hnew hf
  rw [if_neg (by omega)] at hexec
  obtain ⟨hfail, honly⟩ := s.regFailed_spec r n (show f < 64 by omega)
  generalize (s.regCounted r n f).regCapped r f = v at *
  have hcalm := v.calm_recap
  obtain ⟨-, hstat, hne⟩ := stgStat_ne r.val
  refine ⟨_, hexec, hcalm.regFailed r.isLt hfail, pantryKept_of_eq (hcalm.pantry.trans honly.same.1), ?_⟩
  rw [State.inRun, hcalm.rd _ (.inl (by decide)), honly.rd _ hstat.symm hne.symm]
  rfl
/-- The cap of a region written. -/
theorem State.calm_arbCap (s : State) (r : Nat) (f : Fld) (x : Nat) : Calm s (s.setFld (Reg.ARB_CAP r) f x) :=
  s.calm_setFld (not_keptReg_region r (o := 0x1000) (by decide) (by decide) (by decide)) f x
theorem regulatorOut {r : RegionId} {n : Fin 48} (h : s.Cuttable r) (hnew : (s.rd (Reg.STG_REG_FAIL r)).toNat.testBit n.val = false) {f : Nat}
    (hf : s.fld (Reg.STG_REG_STAT r) Fl.STG_REG_STAT_FAILED + 1 = f) (h9 : 9 ≤ f) (h64 : f < 64) :
    ∃ t, exec (.regulatorFail r n) s = .next t ∧ RegFailed r n f s t ∧ GoneDark t r ∧
      t.flag (Reg.STG_REG_STAT r) Fl.STG_REG_STAT_OUT = true ∧ t.fld (Reg.ARB_CAP r) Fl.ARB_CAP_REASON = 5 := by
  have hexec := exec_regulatorFail hnew hf
  obtain ⟨hfail, honly⟩ := s.regFailed_spec r n h64
  generalize (s.regCounted r n f).regCapped r f = v at *
  have hcut := honly.cuttable r.isLt h
  rw [if_pos ⟨h9, by rw [hcut.stage]; decide⟩, State.regionOut] at hexec
  have hout : (v.setFld (Reg.STG_REG_STAT r) Fl.STG_REG_STAT_OUT 1).flag (Reg.STG_REG_STAT r) Fl.STG_REG_STAT_OUT = true := by
    rw [State.flag, State.fld_setFld_same _ _ _ _ (by decide)]
    rfl
  have hfail' := hfail.setFld (f := Fl.STG_REG_STAT_OUT) (by decide) (by decide) (by decide) 1
  have hcut' := (v.stgOnly_setFld (r := r) Fl.STG_REG_STAT_OUT 1).cuttable r.isLt hcut
  generalize v.setFld (Reg.STG_REG_STAT r) Fl.STG_REG_STAT_OUT 1 = w at *
  obtain ⟨hgone, hbi⟩ := State.forcedDown_spec r.isLt hcut'
  generalize w.forcedDown r = z at *
  have hcalm := z.calm_arbCap r Fl.ARB_CAP_REASON 5
  rw [State.settle_of_still s _ (hcalm.biWant.trans hbi)] at hexec
  have hstat : (z.setFld (Reg.ARB_CAP r) Fl.ARB_CAP_REASON 5).rd (Reg.STG_REG_STAT r) = w.rd (Reg.STG_REG_STAT r) :=
    (hcalm.rd _ (stgReg_kept (stgReg_region r.isLt).1)).trans (hgone.stage_reg (stgReg_region r.isLt).1)
  refine ⟨_, hexec, hfail'.congr ?_ hstat, hgone.dark.fades r.isLt (R := fun _ => False) hcalm.fades (fun h => h), ?_, ?_⟩
  · rw [hcalm.rd _ (stgReg_kept (stgReg_region r.isLt).2), hgone.stage_reg (stgReg_region r.isLt).2]
  · rw [State.flag, State.fld, hstat]
    exact hout
  · rw [State.fld_setFld_same _ _ _ _ (by decide)]
    rfl

/-! ## A segment trips, and SHORT is cleared (R463) -/

/-- The attempts that shorts permit and forbid, as given. -/
def State.setShorts (s : State) (tried : List (Nat × Option Nat)) (bars : List (Nat × Bool)) : State :=
  { s with power.shortTry := tried, power.shortBar := bars }
theorem State.rd_setShorts (s : State) (a : List (Nat × Option Nat)) (b : List (Nat × Bool)) (o : Nat) : (s.setShorts a b).rd o = s.rd o := rfl
theorem State.setShorts_cuttable (h : s.Cuttable r) (a : List (Nat × Option Nat)) (b : List (Nat × Bool)) : (s.setShorts a b).Cuttable r :=
  h.congr rfl rfl rfl rfl rfl fun _ => rfl
theorem exec_segmentTrip {r : RegionId} (hrun : s.inRun r = true) : ∃ a b, exec (.segmentTrip r) s =
    .next (s.settle (((s.setFld (Reg.STG_REG_STAT r) Fl.STG_REG_STAT_SHORT 1).setShorts a b).forcedDown r)) ∧
      ∀ at', sread (fun _ => none) s.power.shortTry r.val = some at' → s.now - at' ≤ 4000000 → sread (fun _ => false) b r.val = true := by
  have hexec : exec (.segmentTrip r) s = execSegmentTrip r s := rfl
  rw [hexec, execSegmentTrip, if_pos (.inl hrun)]
  generalize s.setFld (Reg.STG_REG_STAT r) Fl.STG_REG_STAT_SHORT 1 = v
  cases htry : sread (fun _ => none) s.power.shortTry r.val with
  | none => exact ⟨_, _, rfl, fun _ h => by cases h⟩
  | some at0 =>
    by_cases hnear : s.now - at0 ≤ 4000000
    · dsimp only
      rw [if_pos (decide_eq_true hnear)]
      exact ⟨_, _, rfl, fun _ _ _ => (sread_swrite _ _ _ _ _).trans (if_pos rfl)⟩
    · dsimp only
      rw [if_neg (by rw [decide_eq_true_eq]; exact hnear)]
      exact ⟨_, _, rfl, fun _ h hle => by cases h; exact absurd hle hnear⟩
theorem State.enduring_shortBar (h : t.enduring = s.enduring) : t.power.shortBar = s.power.shortBar := congrArg (fun e => e.2.2.2.2.2.2.2.2.2.1) h
theorem segmentTrips {r : RegionId} (h : s.Cuttable r) : ∃ t, exec (.segmentTrip r) s = .next t ∧ GoneDark t r ∧
    t.flag (Reg.STG_REG_STAT r) Fl.STG_REG_STAT_SHORT = true ∧
      ∀ at', sread (fun _ => none) s.power.shortTry r.val = some at' → s.now - at' ≤ 4000000 → sread (fun _ => false) t.power.shortBar r.val = true := by
  obtain ⟨a, b, hexec, hbar⟩ := exec_segmentTrip h.run
  have hshort : (s.setFld (Reg.STG_REG_STAT r) Fl.STG_REG_STAT_SHORT 1).flag (Reg.STG_REG_STAT r) Fl.STG_REG_STAT_SHORT = true := by
    rw [State.flag, State.fld_setFld_same _ _ _ _ (by decide)]
    rfl
  have hcut := (s.stgOnly_setFld (r := r) Fl.STG_REG_STAT_SHORT 1).cuttable r.isLt h
  generalize s.setFld (Reg.STG_REG_STAT r) Fl.STG_REG_STAT_SHORT 1 = v at *
  obtain ⟨hgone, hbi⟩ := State.forcedDown_spec r.isLt (State.setShorts_cuttable hcut a b)
  rw [State.settle_of_still s _ hbi] at hexec
  refine ⟨_, hexec, hgone.dark, ?_, fun at' hat hle => ?_⟩
  · rw [State.flag, State.fld, hgone.stage_reg (stgReg_region r.isLt).1, State.rd_setShorts]
    exact hshort
  · rw [State.enduring_shortBar hgone.enduring]
    exact hbar at' hat hle
theorem locate_shortClr : ∀ r : RegionId, locate (Reg.STG_SHORT_CLR r) = some (r.val, .stg, 0x20) := by decide
/-- A write of SHORT_CLR. -/
theorem exec_shortClr {r : RegionId} (hwrite : s.writeShortClr r 1 = t) (ht : t.biWant = []) :
    exec (.shortClr r 1) s = .next (t.mirrorWrite .stg (Reg.STG_SHORT_CLR r)) := by
  refine put32_region (s := s) (locate_shortClr r) (by unfold Reg.STG_SHORT_CLR regionWin; omega) rfl (by decide)
    (show findReg .stg 0x20 = some regsStg[5] by decide) rfl (by decide) (by decide) (quiet_of_live (by decide) _) rfl ?_ ht
  rw [State.act, if_neg (by decide), if_pos rfl, setWidth_wide]
  exact hwrite
/-- The attempts that SHORT_CLR permits, as given. -/
def State.setShortMay (s : State) (m : List (Nat × Bool)) : State := { s with power.shortMay := m }
theorem State.rd_setShortMay (s : State) (m : List (Nat × Bool)) (o : Nat) : (s.setShortMay m).rd o = s.rd o := rfl
theorem State.pantry_setShortMay (s : State) (m : List (Nat × Bool)) : (s.setShortMay m).pantry = s.pantry := rfl
theorem State.power_setShortMay (s : State) (m : List (Nat × Bool)) : (s.setShortMay m).power.shortMay = m := rfl
theorem State.biWant_setShortMay (s : State) (m : List (Nat × Bool)) : (s.setShortMay m).biWant = s.biWant := rfl
/-- SHORT_CLR clears SHORT and permits an attempt. -/
theorem State.writeShortClr_clears (hshort : s.flag (Reg.STG_REG_STAT r) Fl.STG_REG_STAT_SHORT = true) (hbar : sread (fun _ => false) s.power.shortBar r = false) :
    ∃ m, s.writeShortClr r 1 = (s.setFld (Reg.STG_REG_STAT r) Fl.STG_REG_STAT_SHORT 0).setShortMay m ∧ sread (fun _ => false) m r = true := by
  rw [State.writeShortClr, hbar, hshort, if_neg (by decide), if_neg (by decide)]
  generalize s.setFld (Reg.STG_REG_STAT r) Fl.STG_REG_STAT_SHORT 0 = v
  exact ⟨_, rfl, (sread_swrite _ _ _ _ _).trans (if_pos rfl)⟩
theorem shortCleared (h : s.Settled) {r : RegionId} (hshort : s.flag (Reg.STG_REG_STAT r) Fl.STG_REG_STAT_SHORT = true)
    (hbar : sread (fun _ => false) s.power.shortBar r.val = false) :
    ∃ t, exec (.shortClr r 1) s = .next t ∧ t.flag (Reg.STG_REG_STAT r) Fl.STG_REG_STAT_SHORT = false ∧ RegsKept s t [Reg.STG_REG_STAT r] ∧
      PantryKept s t ∧ sread (fun _ => false) t.power.shortMay r.val = true := by
  obtain ⟨m, hwrite, hm⟩ := State.writeShortClr_clears hshort hbar
  have hv := s.stgOnly_setFld (r := r.val) Fl.STG_REG_STAT_SHORT 0
  have hflag : (s.setFld (Reg.STG_REG_STAT r) Fl.STG_REG_STAT_SHORT 0).flag (Reg.STG_REG_STAT r) Fl.STG_REG_STAT_SHORT = false := by
    rw [State.flag, State.fld_setFld_same _ _ _ _ (by decide)]
    rfl
  have hrd {o : Nat} (ho : o ≠ Reg.STG_REG_STAT r) : (s.setFld (Reg.STG_REG_STAT r) Fl.STG_REG_STAT_SHORT 0).rd o = s.rd o := by
    rw [State.rd_setFld, if_neg ho]
  generalize s.setFld (Reg.STG_REG_STAT r) Fl.STG_REG_STAT_SHORT 0 = v at *
  obtain ⟨hpantry, -, hbi, -, -⟩ := hv.same
  have hexec := exec_shortClr hwrite ((v.biWant_setShortMay m).trans (hbi.trans h.still))
  obtain ⟨hregs, hpan, -, hpower⟩ := (v.setShortMay m).mirrorWrite_same .stg (Reg.STG_SHORT_CLR r)
  refine ⟨_, hexec, ?_, fun o ho => ?_, pantryKept_of_eq (hpan.trans ((v.pantry_setShortMay m).trans hpantry)), ?_⟩
  · rw [State.flag, State.fld, State.rd_congr hregs, State.rd_setShortMay]
    exact hflag
  · rw [State.rd_congr hregs, State.rd_setShortMay, hrd (by simpa using ho)]
  · rw [hpower, State.power_setShortMay]
    exact hm
theorem shortKept (h : s.Settled) {r : RegionId} (hshort : s.flag (Reg.STG_REG_STAT r) Fl.STG_REG_STAT_SHORT = true)
    (hbar : sread (fun _ => false) s.power.shortBar r.val = true) :
    ∃ t, exec (.shortClr r 1) s = .next t ∧ t.flag (Reg.STG_REG_STAT r) Fl.STG_REG_STAT_SHORT = true ∧
      t.flag (Reg.STG_REG_STAT r) Fl.STG_REG_STAT_WRITE_REFUSED = true ∧ RegsKept s t [Reg.STG_REG_STAT r] ∧ PantryKept s t := by
  have hwrite : s.writeShortClr r 1 = s.stgRefused r := by
    rw [State.writeShortClr, hbar, if_pos (.inr rfl)]
  have hexec := exec_shortClr hwrite ((State.setFld_biWant ..).trans h.still)
  obtain ⟨hregs, hpan, -, -⟩ := (s.stgRefused r).mirrorWrite_same .stg (Reg.STG_SHORT_CLR r)
  generalize (s.stgRefused r).mirrorWrite .stg (Reg.STG_SHORT_CLR r) = w at *
  have hw (o : Nat) : w.rd o = (s.stgRefused r).rd o := State.rd_congr hregs o
  refine ⟨w, hexec, ?_, ?_, fun o ho => ?_, pantryKept_of_eq (hpan.trans (State.setFld_pantry ..))⟩
  · rw [← hshort, State.flag, State.fld, hw, State.stgRefused, State.rd_setFld, if_pos rfl, Fld.get_set_apart _ _ _ _ (by decide) (by decide) (by decide)]
    rfl
  · rw [State.flag, State.fld, hw]
    show (s.setFld (Reg.STG_REG_STAT r) Fl.STG_REG_STAT_WRITE_REFUSED 1).flag (Reg.STG_REG_STAT r) Fl.STG_REG_STAT_WRITE_REFUSED = true
    rw [State.flag, State.fld_setFld_same _ _ _ _ (by decide)]
    rfl
  · rw [hw, State.stgRefused, State.rd_setFld, if_neg (by simpa using ho)]

/-- Settles O42: failures are counted and lower the caps, and the ninth regulator or a short takes the region down. -/
theorem powerFailuresCutRegions : Obligations.PowerFailuresCutRegions := by
  intro r s h hstage
  refine ⟨fun n hn => converterFails hn, fun n hnew => ⟨fun h9 => ?_, fun h9 h64 hrun hswing hbound => ?_⟩,
    fun hrun hswing hbound => segmentTrips ⟨h, hrun, hstage, hswing, hbound⟩, fun hshort => ⟨shortCleared h hshort, shortKept h hshort⟩⟩
  · obtain ⟨t, hexec, hfail, hpantry, hrun⟩ := regulatorCounted hnew rfl h9
    exact ⟨t, hexec, ⟨hfail.bits, hfail.failed, hfail.event⟩, hpantry, hrun, hfail.capped⟩
  · obtain ⟨t, hexec, hfail, hdark, hout⟩ := regulatorOut ⟨h, hrun, hstage, hswing, hbound⟩ hnew rfl h9 h64
    exact ⟨t, hexec, ⟨hfail.bits, hfail.failed, hfail.event⟩, hdark, hout⟩

end Sys2Proof.Machine
end
